-- ==== Sys2Proof/Word.lean ====
section
/-!
DEFINITION. The word types of the Turid: every register is 32 bits wide (R6); bytes make up messages, images and
windows.
-/
namespace Sys2Proof

/-- A register word (R6). -/
abbrev Word := BitVec 32
/-- A byte of a message, an image or a window. -/
abbrev Byte := BitVec 8
/-- A table that holds a value at some of the numbers (instances, signals, berths): its pairs stand with their keys
strictly rising. -/
abbrev Tbl (α : Type) := List (Nat × α)

end Sys2Proof
end

