-- ==== Sys2Proof/Syntax.lean ====
section
/-!
DEFINITION. The commands and events of the Turid, one constructor per row of spec/opcode_table.json, with the operands
that a command or an event carries.
-/
namespace Sys2Proof

/-- What a motor encoder gives its channel in one tick (R438 to R447): the change of the motor count, the ENC_ERRORs and
HALL_ERRORs counted, the stamps of the last two count edges in one direction (0 where the tick saw none), and the
sine/cosine radius in mV. -/
structure MotorIn where
  chan : Nat
  delta : Int
  encErrors : Nat
  hallErrors : Nat
  edge1 : Nat
  edge2 : Nat
  radius : Nat
  deriving DecidableEq, Repr

/-- What a TLS handshake settles on (R153): `version` 0 TLS 1.3; `suite` 0 TLS_AES_256_GCM_SHA384; `group` 0 secp384r1,
1 secp256r1; `scheme` 0 ecdsa_secp384r1_sha384, 1 ecdsa_secp256r1_sha256; any other number stands for any other; `psk` and
`early` tell that a PSK or resumption, and 0-RTT, is part of it. -/
structure TlsOffer where
  version : Nat
  suite : Nat
  group : Nat
  scheme : Nat
  psk : Bool
  early : Bool
  deriving DecidableEq, Repr


/-- One command or event of the Turid: one constructor per row of the table of operations and events, with what the
row is told from outside: the session, instance, values and observations it takes. -/
inductive Instr where
  /-- REGISTER_WRITE (R7). A Helm or firmware write to a register field that has no row of its own stores, ignores or sets/clears bits per its access code. -/
  | registerWrite (who addr : Nat) (value : Word)
  /-- RC_REGISTER_READ (R7). A read of a read-clears register returns its value and clears it. -/
  | rcRegisterRead (who addr : Nat)
  /-- COUNTER_LOW_WORD_READ (R165). Reading the low word of a 64-bit counter copies the high word into the session's shadow. -/
  | counterLowWordRead (sess addr : Nat)
  /-- COUNTER_HIGH_WORD_WRITE (R166). A write of the high word of a writable 64-bit counter is held until the session's next low-word write commits both. -/
  | counterHighWordWrite (sess addr : Nat) (value : Word)
  /-- OP_MS_READ (R132). Reading PWR_OP_MS copies PWR_OP_SECONDS into a shadow for the next read. -/
  | opMsRead (sess : Nat)
  /-- POWER_GOOD (R94). A main input reaches its power-good threshold; the Bollard domain judges the failed-start count and begins a start. -/
  | powerGood (a b bkp : Bool) (sec msec ms : Nat)
  /-- BOOT_COMPLETE (R86). The boot ROM has verified a firmware image and started it. -/
  | bootComplete (storeOk : Bool)
  /-- BOOT_VERIFY_FAILED (R102). Neither firmware image verifies and the boot ROM holds the Turid in firmware recovery. -/
  | bootVerifyFailed
  /-- SAFETY_SELFTEST_DONE (R86). Both safety technologies have passed their start self-tests. -/
  | safetySelftestDone (procOk hwOk : Bool)
  /-- MANIFEST_STAGE_DONE (R59). The MANIFEST stage loads a slot, falling back to the other slot or failing the start. -/
  | manifestStageDone (refused : Bool)
  /-- SELF_TEST_DONE (R89). SELF_TEST ends, passing or failing against the minimum resources, and its result is copied to NVM. -/
  | selfTestDone (cores lanes dram xng pos mbc ser : Nat) (pipes : List Nat) (dramOk : Bool) (nvm : Nat) (pllOk : Bool)
  /-- LEARNED_RESTORE_DONE (R91). Learned values are restored from the newest intact checkpoint or defaulted, and cell states initialised. -/
  | learnedRestoreDone
  /-- PARTNERS_DONE (R92). Every declared partner has joined, been quarantined or marked absent, and the start enters UNDERWAY. -/
  | partnersDone
  /-- PARTNER_ABSENT_TIMEOUT (R92). A declared partner that has not answered 30 s after its port came up is marked absent. -/
  | partnerAbsentTimeout (kind a b : Nat)
  /-- STAGE_TIMEOUT (R88). A start stage exceeds its bound and the start ends with its timeout code. -/
  | stageTimeout
  /-- START_TIMEOUT (R88). Underway is not reached within 180 s of power good and the Bollard reset controller resets the Turid. -/
  | startTimeout
  /-- START_HOLD_ELAPSED (R95). UNDERWAY or Awaiting manifest has been held for 60 s; the start succeeds, the count is cleared and slot changes follow. -/
  | startHoldElapsed
  /-- HOLD_REPEAT_TIMER (R41). Every 10 s in Mooring mode, Awaiting manifest or firmware recovery, HOLD is repeated on the ports. -/
  | holdRepeatTimer
  /-- HOST_RESET (R105). SYS_START_CONTROL CMD HOST_RESET closes every session and resets all but the Bollard domain. -/
  | hostReset (sess key : Nat)
  /-- ATTEMPT_START (R110). SYS_START_CONTROL CMD ATTEMPT_START in Mooring mode sets the one-shot latch and resets the Turid. -/
  | attemptStart (sess key : Nat)
  /-- BROWN_OUT (R103). A main rail falls out of regulation while an input is present, resetting all but the Bollard domain. -/
  | brownOut
  /-- FIRMWARE_FATAL (R103). Firmware finds an unrecoverable fault and resets the Turid. -/
  | firmwareFatal
  /-- FIRMWARE_COMMIT (R726). In firmware recovery MANIFEST_COMMIT of a kind 2 transfer verifies the image and restarts the Turid. -/
  | firmwareCommit (sess tag : Nat) (valid : Bool) (version floor : Nat)
  /-- GLIDE_DWELL_EXPIRY (R114). The Glide conditions have held for 5 s and the Turid enters Glide at the next tick boundary. -/
  | glideDwellExpiry
  /-- PLL_LOCKED (R116). The engine PLLs lock after a wake and the domains and Stride schedule resume. -/
  | pllLocked
  /-- ENTER_BERTH (R117). PWR_CONTROL CMD ENTER_BERTH is judged and, if accepted, the Berth sequence starts. -/
  | enterBerth (sess key : Nat)
  /-- CANCEL_BERTH (R117). PWR_CONTROL CMD CANCEL_BERTH cancels a Berth entry before its point of no return. -/
  | cancelBerth (sess key : Nat)
  /-- BERTH_ENTRY_COMPLETE (R119). After the checkpoint and counter copies complete, HOLD is broadcast and the rails are switched off. -/
  | berthEntryComplete
  /-- MAIN_INPUT_LOST (R693). One main input stops being good and the Turid runs on the other, setting A_LOST or B_LOST. -/
  | mainInputLost (b : Bool)
  /-- BOTH_MAINS_LOST (R122). Both main inputs fall below threshold with BKP good and the Turid enters Berth without a sequence. -/
  | bothMainsLost (torn : Bool)
  /-- BKP_DEPLETED (R113). No main input is good and BKP falls below 2.0 V, so the Turid goes Off. -/
  | bkpDepleted (torn : Bool)
  /-- WAKE_SOURCE_EVENT (R120). An enabled wake source latches its bit in PWR_WAKE_LATCH. -/
  | wakeSourceEvent (n sec ms : Nat)
  /-- BERTH_WAKE (R121). A wake latch is set in Berth with a main input good and a start begins at POWER. -/
  | berthWake
  /-- OPSEC_PERSIST (R131). When operating seconds reach a multiple of 60, operating seconds and the power-cycle count are copied to NVM. -/
  | opsecPersist (sec : Nat)
  /-- PWR_DOMAIN_RESET (R141). A keyed write to PWR_DOMAIN_RESET is judged and starts a reset of the named domain and its crossings. -/
  | pwrDomainReset (sess key d : Nat)
  /-- DOMAIN_RESET_DONE (R141). A domain reset completes, clears BUSY, resets the domain's registers and completes waiting accesses. -/
  | domainResetDone
  /-- PWR_DOMAIN_HOLD_WRITE (R140). A write to PWR_DOMAIN_HOLD keeps or releases domains live, starting their clocks from Glide. -/
  | pwrDomainHoldWrite (who mask : Nat)
  /-- HUNG_ACCESS_TIMEOUT (R139). An access has waited 10 ms on a stopped domain and HUNG_ACCESS is set. -/
  | hungAccessTimeout (sess : Nat)
  /-- WATCHDOG_SERVICE (R143). The application or Mooring firmware services the application watchdog. -/
  | watchdogService
  /-- WATCHDOG_EXPIRY (R35). The application watchdog expires 100 ms after its last service; HOLD goes out on all crossings and the Turid resets. -/
  | watchdogExpiry
  /-- THERMAL_REDUCED_ENTRY (R144). The hottest die sensor reaches 105 °C and the thermal stage enters REDUCED. -/
  | thermalReducedEntry
  /-- THERMAL_DWELL_EXPIRY (R144). A 60 s thermal dwell expires and the stage moves between NORMAL, REDUCED and LOOPS_ONLY. -/
  | thermalDwellExpiry (hot : Bool)
  /-- THERMAL_TRIP (R144). The die stands at 125 °C or more for 1 s and the Turid resets with THERMAL_TRIP. -/
  | thermalTrip
  /-- TICK (R364). A loop engine tick: snapshot capture, staged writes, slot windows, voting, output latches and lane exchange. -/
  | tick (ain : List (Nat × Word)) (mot : List MotorIn) (upsets : List (Nat × Bool × Nat × Word))
  /-- ENGINE_HALT_TIMEOUT (R365). The loop engine has been HALTED for 2 s and the Turid resets with FIRMWARE_FATAL. -/
  | engineHaltTimeout
  /-- MANIFEST_BEGIN (R57). A Helm MANIFEST_BEGIN opens a staging of a full image, patch or firmware image. -/
  | manifestBegin (sess tag kind len : Nat)
  /-- MANIFEST_CHUNK (R173). A Helm MANIFEST_CHUNK appends data to the open staging or is refused. -/
  | manifestChunk (sess tag off : Nat) (data : List Byte)
  /-- MANIFEST_COMMIT (R57). A Helm MANIFEST_COMMIT closes a full-image staging and starts verification. -/
  | manifestCommit (sess tag : Nat)
  /-- MANIFEST_VERIFY_DONE (R57). Verification of a staged full image ends; the slot becomes TRIAL or INVALID and the response is sent. -/
  | manifestVerifyDone (nvmOk : Bool)
  /-- PATCH_COMMIT (R64). A Helm PATCH_COMMIT verifies a patch and starts writing it to the patch log. -/
  | patchCommit (sess tag target : Nat)
  /-- PATCH_PERSIST_DONE (R64). A patch's commit word is written and its boundary is scheduled. -/
  | patchPersistDone (nvmOk : Bool)
  /-- PATCH_BOUNDARY (R67). At the scheduled tick boundary every section of an accepted patch takes effect. -/
  | patchBoundary
  /-- ABORT_STAGE (R81). MAN_CONTROL CMD ABORT_STAGE closes the open staging and marks a WRITING slot INVALID. -/
  | abortStage (sess key : Nat)
  /-- ABORT_PATCH (R72). MAN_CONTROL CMD ABORT_PATCH cancels an accepted patch or sets ABORT_LATE. -/
  | abortPatch (sess key : Nat)
  /-- HELM_CONNECT (R152). A new Helm connection is given a session number or refused. -/
  | helmConnect (port : Nat)
  /-- TLS_HANDSHAKE_TIMEOUT (R153). A TLS handshake not completed within 10 s closes the connection. -/
  | tlsHandshakeTimeout (sess : Nat)
  /-- SESSION_IDLE_TIMEOUT (R154). A session that has sent no message for its idle timeout is closed with its cleanup. -/
  | sessionIdleTimeout (sess : Nat)
  /-- HELM_DISCONNECT (R154). A Helm session closes from the host side and its stagings, queues and shadows are released. -/
  | helmDisconnect (sess : Nat)
  /-- READ (R162). A Helm READ returns up to 64 registers or window words in ascending order. -/
  | read (sess tag addr count : Nat)
  /-- WRITE (R162). A Helm WRITE writes up to 64 registers in ascending order. -/
  | write (sess tag addr : Nat) (values : List Word)
  /-- READ_MODIFY_WRITE (R163). A Helm READ_MODIFY_WRITE performs an indivisible masked update and returns the old value. -/
  | readModifyWrite (sess tag addr : Nat) (mask value : Word)
  /-- BULK_READ (R169). A Helm BULK_READ returns a data window range in consistent parts. -/
  | bulkRead (sess tag addr len : Nat)
  /-- QUEUE_PUSH (R174). A Helm QUEUE_PUSH places a command entry in a command queue or is refused. -/
  | queuePush (sess tag q : Nat) (entry : List Byte)
  /-- QUEUE_ACK (R185). A host QUEUE_ACK releases owned event queue entries up to a sequence. -/
  | queueAck (sess tag q seq : Nat)
  /-- FENCE (R188). A Helm FENCE is placed at the tail of a command queue with its scope and timeout. -/
  | fence (sess tag q scope timeout : Nat)
  /-- SUBSCRIBE (R184). A Helm SUBSCRIBE makes the session owner or listener of an event queue, or stops it. -/
  | subscribe (sess tag q mode : Nat)
  /-- SESSION_ROLE (R156). A Helm SESSION_ROLE grants and drops roles from the certificate's list. -/
  | sessionRole (sess tag mask : Nat)
  /-- RESTORE_LEARNED (R278). A Helm RESTORE_LEARNED part is staged, and after the LAST part the restore is checked. -/
  | restoreLearned (sess tag plant gen flags off : Nat) (data : List Byte)
  /-- BAD_TYPE_MESSAGE (R161). A Helm message of unknown type is answered BAD_TYPE and the session continues. -/
  | badTypeMessage (sess : Nat) (header payload : List Byte)
  /-- OVERSIZE_MESSAGE (R161). A Helm message declaring a length above 1,048,600 bytes closes the session. -/
  | oversizeMessage (sess len : Nat)
  /-- COMMAND_START (R177). The head command of the highest-priority startable queue is started. -/
  | commandStart
  /-- COMMAND_PROMOTION (R181). A command entry that waited longer than its class bound is promoted to the next higher queue. -/
  | commandPromotion (q id : Nat)
  /-- FENCE_COMPLETE (R189). A drained FENCE completes at the next tick boundary, increments the epoch and is answered. -/
  | fenceComplete (id : Nat)
  /-- FENCE_TIMEOUT (R190). A FENCE not completed within its timeout completes INCOMPLETE. -/
  | fenceTimeout (id undrained : Nat)
  /-- EVENT_SEND (R184). An event entry is written to an owner's or listener's TLS stream when flow control allows. -/
  | eventSend (sess q : Nat)
  /-- CLOSE_SESSION (R193). HQ_CONTROL CMD CLOSE_SESSION closes the named session within 10 ms. -/
  | closeSession (sess key target : Nat)
  /-- RELEASE_OWNER (R193). HQ_CONTROL CMD RELEASE_OWNER releases the owner of an event queue. -/
  | releaseOwner (sess key q : Nat)
  /-- STANDING_REFRESH (R32). Every 10 s the Turid refreshes every partner's standing orders. -/
  | standingRefresh
  /-- PARTNER_SILENCE_TIMEOUT (R34). A partner that has heard nothing valid for its silence timeout obeys its standing orders. -/
  | partnerSilenceTimeout (kind a b : Nat)
  /-- HOP_TRAINED (R196). A Hawser hop with signal on both pairs finishes training at the negotiated generation. -/
  | hopTrained (n hop : Nat) (endB : Bool) (genA genB : Nat)
  /-- HOP_ERROR_FALLBACK (R196). A generation 2 hop counting more than 16 errors in 1 s retrains at generation 1. -/
  | hopErrorFallback (n hop : Nat)
  /-- HOP_DOWN (R198). No valid comma for 10 µs declares a hop down at a Turid end. -/
  | hopDown (n : Nat) (endB : Bool)
  /-- LINK_FAULT_RECEIVED (R198). A link fault ordered set arrives at a Turid end reporting a break position. -/
  | linkFaultReceived (n berth : Nat) (towardB : Bool)
  /-- RING_HEAL (R204). A restored hop stays error-free for 1 s and the ring split and nominal rates are restored. -/
  | ringHeal (n hop : Nat)
  /-- PRESENCE_TIMER (R218). 20 ms without a broadcast on an awake crossing sends a presence frame from both ends. -/
  | presenceTimer (n : Nat)
  /-- JOIN_DISCOVERY_TIMER (R230). Every 1 s while a declared berth is ABSENT or LOST the Turid sends JOIN discovery. -/
  | joinDiscoveryTimer (n : Nat)
  /-- JOIN_RESPONSE (R231). A node's JOIN response is received and the berth authenticates or is quarantined. -/
  | joinResponse (n : Nat) (endB : Bool) (frame : List Byte)
  /-- AUTH_RESPONSE (R232). A node's AUTH_RESPONSE is verified and the node becomes JOINED or QUARANTINED. -/
  | authResponse (n : Nat) (endB : Bool) (frame : List Byte)
  /-- AUTH_TIMEOUT (R233). A node does not answer its challenge within its bound and is quarantined as late. -/
  | authTimeout (n berth : Nat)
  /-- PERIODIC_CHALLENGE (R234). A node's 24 h re-authentication challenge falls due. -/
  | periodicChallenge (n berth : Nat)
  /-- SWEEP_DUE (R225). A string node's sweep falls due and is served by deficit round robin. -/
  | sweepDue (n berth : Nat)
  /-- SWEEP_PROMOTION (R226). A string whose last applied sample is older than 3 effective periods is promoted. -/
  | sweepPromotion (n berth : Nat)
  /-- SAMPLE_REPORT (R213). A sample report frame arrives; when all 4 frames of a sweep are in, the sweep goes to intake. -/
  | sampleReport (n : Nat) (endB : Bool) (frame : List Byte)
  /-- UNSOLICITED_REPORT (R215). An unsolicited report from a node on standing orders is received and applied unless a repeat. -/
  | unsolicitedReport (n : Nat) (endB : Bool) (frame : List Byte)
  /-- HAWSER_RESPONSE (R222). A tracked Hawser response completes its transaction. -/
  | hawserResponse (n : Nat) (endB : Bool) (frame : List Byte)
  /-- TRANSACTION_TIMEOUT (R223). A Hawser transaction times out and is retried once or completes TIMEOUT. -/
  | transactionTimeout (tag : Nat)
  /-- NODE_LOST (R229). A node misses 3 sweeps or sends no frame for 3 effective periods and becomes LOST. -/
  | nodeLost (n berth : Nat)
  /-- NODE_LEAVE (R236). A node sends LEAVE and becomes LEFT, its transactions completing NODE_LEFT. -/
  | nodeLeave (n : Nat) (endB : Bool) (frame : List Byte)
  /-- RING_SLEEP (R237). XNG command RING_SLEEP is judged and SLEEP_PROPOSE is sent. -/
  | ringSleep (q : Nat)
  /-- SLEEP_PROPOSE_RESPONSE (R238). A node's answer to SLEEP_PROPOSE arrives; all agreeing sends SLEEP_COMMIT, a refusal sends SLEEP_ABORT. -/
  | sleepProposeResponse (n : Nat) (endB : Bool) (frame : List Byte)
  /-- SLEEP_ANSWER_TIMEOUT (R237). A node has not answered SLEEP_PROPOSE within 20 ms and SLEEP_ABORT is sent. -/
  | sleepAnswerTimeout (n : Nat)
  /-- WAKE_TONE (R240). A wake tone reaches the Turid and is latched by the Bollard domain. -/
  | wakeTone (n : Nat)
  /-- RING_WAKE (R241). XNG command RING_WAKE wakes a sleeping ring, challenges every node and sends STANDING. -/
  | ringWake (q : Nat)
  /-- NODE_READ (R242). XNG command NODE_READ reads words from a node register. -/
  | nodeRead (q : Nat)
  /-- NODE_WRITE (R242). XNG command NODE_WRITE writes words to a node register. -/
  | nodeWrite (q : Nat)
  /-- REDISCOVER (R242). XNG command REDISCOVER sends a JOIN census. -/
  | rediscover (q wait : Nat)
  /-- REAUTHENTICATE (R242). XNG command REAUTHENTICATE challenges one or all nodes of a crossing. -/
  | reauthenticate (q : Nat)
  /-- RETRAIN (R245). XNG_CONTROL CMD RETRAIN retrains every hop of the crossing and re-issues transactions. -/
  | retrain (sess key n : Nat)
  /-- XNG_CLEAR_COUNTERS (R717). XNG_CONTROL CMD CLEAR_COUNTERS clears the crossing's since-start counters. -/
  | xngClearCounters (sess key n : Nat)
  /-- SWEEP_APPLY (R253). The estimation engine applies a whole sweep to its 256 cells and replaces the string figures. -/
  | sweepApply (wrong redo : List Nat) (retryFails : Bool)
  /-- REST_COMPLETE (R263). A WAITING_REST string has rested for the rest time and is initialised from its voltage interval. -/
  | restComplete (i : Nat)
  /-- ROLLUP_PUBLISH (R283). At the first tick boundary of each ms a roll-up snapshot is published. -/
  | rollupPublish
  /-- CHECKPOINT_INTERVAL (R275). The checkpoint interval expires and a learned-value checkpoint is started. -/
  | checkpointInterval
  /-- CHECKPOINT_DONE (R277). A checkpoint write completes, or fails leaving the other slot intact. -/
  | checkpointDone (ok : Bool)
  /-- CHECKPOINT_RETRY (R277). 60 s after a failed checkpoint write the Turid retries. -/
  | checkpointRetry
  /-- FREEZE_EXPIRY (R263). A FROZEN string's freeze time expires and its learned values reset to type defaults. -/
  | freezeExpiry (i : Nat)
  /-- CHECKPOINT (R286). EST command CHECKPOINT writes a checkpoint, with or without SHUTDOWN. -/
  | checkpoint (q : Nat)
  /-- STRING_FIGURES (R286). EST command STRING_FIGURES returns two figures of a string from the last snapshot. -/
  | stringFigures (q : Nat)
  /-- REINITIALISE (R286). EST command REINITIALISE puts a string in WAITING_REST at its next sweep. -/
  | reinitialise (q : Nat)
  /-- RESET_LEARNED (R286). EST command RESET_LEARNED resets a string's learned values to defaults. -/
  | resetLearned (q : Nat)
  /-- CLEAR_SHORT (R286). EST command CLEAR_SHORT clears a cell's SHORT_SUSPECT flag. -/
  | clearShort (q : Nat)
  /-- EST_CLEAR_COUNTERS (R717). EST_CONTROL CMD CLEAR_COUNTERS clears the EST since-start counters. -/
  | estClearCounters (sess key : Nat)
  /-- ABORT_RESTORE (R289). EST_CONTROL CMD ABORT_RESTORE discards a staged restore with RESULT 6. -/
  | abortRestore (sess key : Nat)
  /-- ORDERLY_OPEN_TIMEOUT (R295). 200 ms after protection limits fall to 0 W, CONTACTOR OPEN is sent. -/
  | orderlyOpenTimeout (i : Nat)
  /-- STRING_CLOSE_START (R299). A string with intent 1 meets its close preconditions and CONTACTOR CLOSE is sent. -/
  | stringCloseStart (i : Nat)
  /-- STRING_CLOSING_TIMEOUT (R298). A CLOSING string has not reported closed within 2 s and latches CLOSE_FAIL. -/
  | stringClosingTimeout (i : Nat)
  /-- CONTAINER_CLOSING_TIMEOUT (R302). A CLOSING container breaker has not reported closed within 5 s. -/
  | containerClosingTimeout (c : Nat)
  /-- CONTAINER_CURRENT_READ (R303). Every 5 ms during an orderly container open the bus current is read. -/
  | containerCurrentRead (c : Nat)
  /-- BRANCH_CURRENT_READ (R307). Every 5 ms for a Missing string the branch currents are read and the breaker opened on uncontrolled current. -/
  | branchCurrentRead (c : Nat)
  /-- CONTAINER_STATUS_READ (R304). A container node's status registers are read every 1 s, or early when strings rest. -/
  | containerStatusRead (c : Nat)
  /-- OVERCURRENT_BLOCK_EXPIRY (R293). A 60 s OVERCURRENT direction block ends. -/
  | overcurrentBlockExpiry (i : Nat) (charge : Bool)
  /-- BALANCE_CYCLE (R313). Every 60 s each balancing string is sent BALANCE with its marked cells. -/
  | balanceCycle
  /-- THERMAL_SETPOINT_CYCLE (R314). Every 10 s each container's thermal set-point is computed and THERMAL sent when needed. -/
  | thermalSetpointCycle
  /-- THERMAL_FAULT_BLOCK_END (R315). 60 s after a thermal plant fault clears the container's charge block ends. -/
  | thermalFaultBlockEnd (c : Nat)
  /-- STRING_CLOSE (R316). PLT command STRING_CLOSE sets a string's in-service intent. -/
  | stringClose (q : Nat)
  /-- STRING_OPEN (R316). PLT command STRING_OPEN clears the intent and opens the string. -/
  | stringOpen (q : Nat)
  /-- CONTAINER_CLOSE (R316). PLT command CONTAINER_CLOSE sets a container's in-service intent. -/
  | containerClose (q : Nat)
  /-- CONTAINER_OPEN (R316). PLT command CONTAINER_OPEN opens the breaker and optionally its strings. -/
  | containerOpen (q : Nat)
  /-- RESET_TRIP (R296). PLT command RESET_TRIP returns a TRIPPED string or container to OPEN if its cause has cleared. -/
  | resetTrip (q : Nat)
  /-- THERMAL_MODE (R316). PLT command THERMAL_MODE sets a container's thermal mode. -/
  | thermalMode (q : Nat)
  /-- PLT_PROT_CLEAR_COUNTERS (R717). PLT_PROT_CONTROL CMD CLEAR_COUNTERS clears the protection counters. -/
  | pltProtClearCounters (sess key : Nat)
  /-- DISPATCH_CYCLE (R330). Every 1 ms dispatch recomputes the bound layers, shares and PCS set-points. -/
  | dispatchCycle
  /-- SOURCE_FAULT (R325). The set-point source in use faults and dispatch switches to the fallback. -/
  | sourceFault (src : Nat)
  /-- SOURCE_RESTORE (R325). The selected source has been fault-free for 10 s and dispatch ramps back to it. -/
  | sourceRestore
  /-- SOURCE_SELECT_WRITE (R326). A write to PLT_SOURCE_SELECT selects a permitted source. -/
  | sourceSelectWrite (sess code : Nat)
  /-- PCS_STATUS_DATAGRAM (R346). A PCS STATUS datagram is received; ten valid in a row make the unit live. -/
  | pcsStatusDatagram (dg : List Byte)
  /-- PCS_LOST_TIMEOUT (R346). A unit without a valid status for 20 ms becomes LOST. -/
  | pcsLostTimeout (p : Nat)
  /-- MAINS_LOST_CONFIRM (R350). Mains loss is confirmed and the plant enters ISLAND or EVACUATION. -/
  | mainsLostConfirm (units : Bool)
  /-- MAINS_PRESENT_CONFIRM (R350). Mains presence is confirmed after 60 s and the plant returns to GRID. -/
  | mainsPresentConfirm
  /-- FIRE_ALARM_ACTIVE (R350). A fire alarm input counts as active after 100 ms. -/
  | fireAlarmActive
  /-- FIRE_ALARM_HOLD_EXPIRY (R351). Every fire alarm has been inactive for its hold time and EVACUATION ends. -/
  | fireAlarmHoldExpiry
  /-- BILLING_INTERVAL_CLOSE (R353). A billing interval reaches its end and its record is closed. -/
  | billingIntervalClose
  /-- BILLING_PERSIST (R353). Every 1 s the open interval's sums are written to NVM. -/
  | billingPersist
  /-- SCHEDULE_ADD (R358). PLT command SCHEDULE_ADD adds a schedule entry. -/
  | scheduleAdd (q : Nat)
  /-- SCHEDULE_CLEAR (R358). PLT command SCHEDULE_CLEAR removes schedule entries from a time. -/
  | scheduleClear (q : Nat)
  /-- BILLING_READ (R358). PLT command BILLING_READ returns a closed billing interval's values. -/
  | billingRead (q : Nat)
  /-- PLT_DISP_CLEAR_COUNTERS (R717). PLT_DISP_CONTROL CMD CLEAR_COUNTERS clears the dispatch counters. -/
  | pltDispClearCounters (sess key : Nat)
  /-- RETURN_TO_SOURCE (R361). PLT_DISP_CONTROL CMD RETURN_TO_SOURCE ends a fallback at once if the source is fault-free. -/
  | returnToSource (sess key : Nat)
  /-- LOOP_SIG_WRITE (R378). A write to LOOP_SIG_WRITE stages a HOST signal value or refuses it. -/
  | loopSigWrite (sess : Nat) (value : Word)
  /-- SET_SIGNALS (R403). LOOP command SET_SIGNALS stages up to 6 HOST signals for one boundary. -/
  | setSignals (q : Nat)
  /-- RESTART_SLOT (R403). LOOP command RESTART_SLOT restarts a FAULTED or parked slot from its initial state. -/
  | restartSlot (q : Nat)
  /-- LOOP_CLEAR_COUNTERS (R717). LOOP_CONTROL CMD CLEAR_COUNTERS clears the LOOP counters. -/
  | loopClearCounters (sess key : Nat)
  /-- SYNC_ARM (R395). LOOP_SYNC_CONTROL CMD ARM arms the external sync. -/
  | syncArm (sess key : Nat)
  /-- SYNC_DISARM (R395). LOOP_SYNC_CONTROL CMD DISARM returns the tick to internal timing. -/
  | syncDisarm (sess key : Nat)
  /-- SYNC_EDGE (R394). A rising edge on SYNC_IN is accepted to end the tick or counted as early. -/
  | syncEdge (cycle : Nat)
  /-- SYNC_LATE_LIMIT (R396). No sync edge arrives by the late limit, the tick ends there and a miss is counted. -/
  | syncLateLimit
  /-- PWM_FAULT_INPUT (R402). An active PWM fault input turns off its pairs within 100 ns and latches. -/
  | pwmFaultInput (i : Nat) (active : Bool)
  /-- PWM_FAULT_LATCH_CLEAR (R402). A W1C write to PWM_FAULT_STATUS.LATCHED clears the latch only while the input is inactive. -/
  | pwmFaultLatchClear (sess : Nat) (value : Word)
  /-- PWM_CLEAR_COUNTERS (R717). PWM_CONTROL CMD CLEAR_COUNTERS clears the PWM counters. -/
  | pwmClearCounters (sess key : Nat)
  /-- GROUP_DISPATCH_CYCLE (R411). Every 100 ms the lift group assigns, reserve-checks, reassigns and starts evacuation moves. -/
  | groupDispatchCycle
  /-- FIXTURE_PRESS (R414). A fixture PRESS message is received and a call registered or merged. -/
  | fixturePress (f button : Nat) (down : Bool)
  /-- FIXTURE_DESTINATION (R414). A destination panel DESTINATION message registers a destination call. -/
  | fixtureDestination (f dest ent flags : Nat)
  /-- FIXTURE_KEY (R414). A fixture KEY message changes firefighter, service or evacuation key state. -/
  | fixtureKey (f key : Nat) (on : Bool)
  /-- FIXTURE_HEARTBEAT (R415). A fixture HEARTBEAT is received. -/
  | fixtureHeartbeat (f status : Nat)
  /-- FIXTURE_LOST (R415). A fixture that has sent no valid message for 3 s is lost. -/
  | fixtureLost (f : Nat)
  /-- BUTTON_STUCK (R415). A button held for the stuck time is ignored until released. -/
  | buttonStuck (f button : Nat)
  /-- INDICATE_REFRESH (R415). Every 1 s the Turid sends INDICATE to fixtures. -/
  | indicateRefresh
  /-- REFUSED_LAMP_TIMEOUT (R422). A refused call's flashing lamp is turned off after 3 s. -/
  | refusedLampTimeout (i : Nat)
  /-- PARKING_DELAY_EXPIRY (R432). A car idle IN_GROUP for the parking delay parks. -/
  | parkingDelayExpiry (c : Nat)
  /-- EVACUATION_DWELL_EXPIRY (R428). The evacuation dwell at a pick-up runs out and the car runs to the discharge landing. -/
  | evacuationDwellExpiry (c : Nat)
  /-- HOST_CALL (R433). GRP command HOST_CALL registers a call. -/
  | hostCall (q : Nat)
  /-- CANCEL_CALL (R430). GRP command CANCEL_CALL cancels a call. -/
  | cancelCall (q : Nat)
  /-- CAR_SERVICE (R433). GRP command CAR_SERVICE returns a car to the group or takes it out. -/
  | carService (q : Nat)
  /-- EVAC_CALL (R433). GRP command EVAC_CALL raises or clears an evacuation call. -/
  | evacCall (q : Nat)
  /-- CALL_READ (R433). GRP command CALL_READ returns a call's kind, car, landing, state and wait. -/
  | callRead (q : Nat)
  /-- GRP_CLEAR_COUNTERS (R717). GRP_CONTROL CMD CLEAR_COUNTERS clears the GRP counters. -/
  | grpClearCounters (sess key : Nat)
  /-- SSI_READ (R445). Each SSI read period the tape is read, checked and fused or rejected. -/
  | ssiRead (c frame stamp : Nat) (back : Rat)
  /-- LATCH_EDGE (R449). An edge on a vane, door-zone, marker or index input captures a latch record. -/
  | latchEdge (c src : Nat) (falling : Bool) (stamp : Nat) (back : Rat)
  /-- MOTOR_SOURCE_FAULT (R440). Encoder, sine/cosine or Hall errors reach their count and the motor source faults. -/
  | motorSourceFault (c : Nat)
  /-- TARGET_WRITE (R463). The firmware writes a car's target, effective at the next tick unless frozen. -/
  | targetWrite (c l e : Nat)
  /-- TRACTION_STATUS_FRAME (R476). A traction drive STATUS frame is received. -/
  | tractionStatusFrame (c : Nat) (data : List Byte)
  /-- TRACTION_DRIVE_LOST (R477). 3 consecutive STATUS frames missing make a drive lost and stop its car. -/
  | tractionDriveLost (c : Nat)
  /-- TRACTION_GLIDE_FRAME (R475). In Glide every 10 ms the traction SETPOINT frame is sent with park values. -/
  | tractionGlideFrame
  /-- BRAKE_LIFT_TIMEOUT (R464). STARTING exceeds the brake lift time and the car stops. -/
  | brakeLiftTimeout (c : Nat)
  /-- LEVELLING_TIMEOUT (R464). LEVELLING exceeds 2 s and a ramped stop follows. -/
  | levellingTimeout (c : Nat)
  /-- RELEVELLING_TIMEOUT (R464). RELEVELLING exceeds its 10 s bound. -/
  | relevellingTimeout (c : Nat)
  /-- FINAL_LIMIT_INPUT (R474). A final limit input becomes active and the move ends as a hard stop. -/
  | finalLimitInput (c : Nat) (top active : Bool)
  /-- TERMINAL_SLOWDOWN_INPUT (R473). A terminal slowdown input becomes active, setting the limit and stopping an overspeeding car. -/
  | terminalSlowdownInput (c e : Nat) (active : Bool)
  /-- STOP_CAR (R482). CAR command STOP_CAR starts a ramped stop. -/
  | stopCar (q : Nat)
  /-- CORRECTION_RUN (R482). CAR command CORRECTION_RUN runs to the next vane and resets the fused position. -/
  | correctionRun (q : Nat)
  /-- CAR_CLEAR_COUNTERS (R717). CAR_CONTROL CMD CLEAR_COUNTERS clears the car counters. -/
  | carClearCounters (sess key c : Nat)
  /-- POS_CLEAR_COUNTERS (R717). POS_CONTROL CMD CLEAR_COUNTERS clears the position channel counters. -/
  | posClearCounters (sess key c : Nat)
  /-- CLEAR_FAULT (R488). POS_CONTROL CMD CLEAR_FAULT clears a source fault whose cause is absent. -/
  | clearFault (sess key c : Nat) (motorOk tapeOk : Bool)
  /-- DOOR_STATUS_FRAME (R492). A door drive STATUS frame is received. -/
  | doorStatusFrame (d : Nat) (data : List Byte)
  /-- DOOR_DRIVE_LOST (R492). 3 consecutive STATUS frames spanning 5 ms missing make a door drive lost. -/
  | doorDriveLost (d : Nat)
  /-- OBSTRUCTION_RESUME (R501). 2 s after an opening obstruction the door resumes opening. -/
  | obstructionResume (d : Nat)
  /-- DOOR_DWELL_EXPIRY (R494). An OPEN door's dwell runs out with no reopen request and it starts closing or nudging. -/
  | doorDwellExpiry (d : Nat)
  /-- LOCK_TIMEOUT (R508). The lock is not reported within 2 s of CLOSED and the door reopens or faults. -/
  | lockTimeout (d : Nat)
  /-- REFERENCING_TIMEOUT (R494). Referencing exceeds its bound and the door enters FAULT. -/
  | referencingTimeout (d : Nat)
  /-- NUDGE_TIME_EXPIRY (R504). A reopen device active for the nudge time puts the door in NUDGING. -/
  | nudgeTimeExpiry (d : Nat)
  /-- DOOR_LIMIT_INPUT (R506). A door limit input becomes active and stops or completes the move. -/
  | doorLimitInput (d : Nat) (top active : Bool)
  /-- DOOR_OPEN (R509). DOOR command DOOR_OPEN opens the door. -/
  | doorOpen (q : Nat)
  /-- DOOR_CLOSE (R509). DOOR command DOOR_CLOSE closes the door. -/
  | doorClose (q : Nat)
  /-- DOOR_STOP (R505). DOOR command DOOR_STOP stops the door ramped or hard. -/
  | doorStop (q : Nat)
  /-- DOOR_REFERENCE (R509). DOOR command DOOR_REFERENCE references the door. -/
  | doorReference (q : Nat)
  /-- DOOR_HOLD_OPEN (R509). DOOR command DOOR_HOLD_OPEN extends or ends the dwell. -/
  | doorHoldOpen (q : Nat)
  /-- DOOR_CLEAR_COUNTERS (R717). DOOR_CONTROL CMD CLEAR_COUNTERS clears the door counters. -/
  | doorClearCounters (sess key d : Nat)
  /-- CLEAR_ENVELOPE (R502). DOOR_CONTROL CMD CLEAR_ENVELOPE clears the learned current envelope. -/
  | clearEnvelope (sess key d : Nat)
  /-- SAFETY_INPUT_CHANGE (R519). A safety input changes and each technology re-evaluates its functions and permits. -/
  | safetyInputChange (i : Nat) (high : Bool)
  /-- TEST_PULSE (R518). A test-pulse source's off-pulse is checked against its channels. -/
  | testPulse (src : Nat) (high : List Nat)
  /-- INPUT_DISCREPANCY_TIMEOUT (R519). A pair's channels disagree longer than the discrepancy time and an input fault is latched. -/
  | inputDiscrepancyTimeout (n : Nat)
  /-- RUN_REQUEST_TOGGLE (R515). The application toggles an output's run request bit. -/
  | runRequestToggle (n : Nat)
  /-- RUN_REQUEST_LOST (R515). No request toggle for 10 ms withdraws that output's permit. -/
  | runRequestLost (n : Nat)
  /-- EDM_TIMEOUT (R531). An EDM input fails to follow its output within the EDM time. -/
  | edmTimeout (n : Nat)
  /-- EDM_CHANGE (R531). An EDM input changes while its output is steady. -/
  | edmChange (n : Nat) (engaged : Bool)
  /-- SWITCH_TEST (R532). A scheduled 300 µs read-back test of an output switch runs. -/
  | switchTest (tech n : Nat) (ok : Bool)
  /-- TECH_SELFTEST (R534). A technology's 10 s self-test runs. -/
  | techSelftest (tech : Nat) (ok : Bool)
  /-- TECH_HEARTBEAT_LOSS (R534). A technology's heartbeat stops for 3 ms and it is faulted. -/
  | techHeartbeatLoss (tech : Nat)
  /-- PERMIT_MISMATCH (R535). The permit vectors differ for 3 ms; outputs go off and a diagnostic starts. -/
  | permitMismatch (outs : List Nat)
  /-- MISMATCH_DIAGNOSTIC_DONE (R535). The permit diagnostic ends, faulting a technology or latching every car. -/
  | mismatchDiagnosticDone (finding : Nat)
  /-- SPEED_LIMIT_EXCEEDED (R525). A car's monitored speed exceeds the limit in force and MAIN and BRAKE are withdrawn. -/
  | speedLimitExceeded (c : Nat) (mps : Rat)
  /-- POSITION_SOURCE_FAULT (R526). A technology faults a tape or encoder source of a car. -/
  | positionSourceFault (c : Nat) (tape enc : Bool)
  /-- UNINTENDED_MOVEMENT (R527). Movement beyond the UCM or brake-slip distance with the brake applied latches the car. -/
  | unintendedMovement (c : Nat) (moved : Rat)
  /-- SNOWPLOUGH_TIMEOUT (R539). The SNOWPLOUGH time limit passes and the car enters SAFE_LATCHED. -/
  | snowploughTimeout (c : Nat)
  /-- SAFETY_CONFIRM (R542). SAF_CONFIRM_CONTROL CMD CONFIRM confirms the safety check value if all three values match. -/
  | safetyConfirm (sess key : Nat)
  /-- CONFIRM_LOCKOUT_EXPIRY (R543). The 10-minute confirmation lockout ends. -/
  | confirmLockoutExpiry
  /-- RESET_FUNCTION (R544). SAF_CONTROL CMD RESET_FUNCTION resets a latched safety function. -/
  | resetFunction (sess key fn : Nat)
  /-- REPAIR_ACK (R544). SAF_CONTROL CMD REPAIR_ACK returns a car from SAFE_LATCHED to NORMAL if every cause cleared. -/
  | repairAck (sess key c : Nat) (srcOk edmOk : Bool)
  /-- SAF_CLEAR_COUNTERS (R717). SAF_CONTROL CMD CLEAR_COUNTERS clears the SAF counters. -/
  | safClearCounters (sess key : Nat)
  /-- SAFETY_DATA_FRAME (R554). A safety connection DATA frame is judged by each technology. -/
  | safetyDataFrame (slot : Nat) (data : List Byte)
  /-- SAFETY_ECHO_FRAME (R556). A safety connection ECHO is checked by the producer. -/
  | safetyEchoFrame (slot : Nat) (data : List Byte)
  /-- SAFETY_PRODUCTION_PERIOD (R553). Each production period a DATA frame, or a start-sequence ECHO, is sent. -/
  | safetyProductionPeriod (slot : Nat)
  /-- CONSUMER_WATCHDOG_EXPIRY (R555). No DATA accepted for the watchdog time puts the consumer in FAIL_SAFE. -/
  | consumerWatchdogExpiry (slot : Nat)
  /-- ECHO_LATE_TIMEOUT (R556). No good ECHO within the watchdog time puts the producer in FAIL_SAFE. -/
  | echoLateTimeout (slot : Nat)
  /-- FAIL_SAFE_HOLD_EXPIRY (R557). FAIL_SAFE has been held for its bound and the end returns to STARTING. -/
  | failSafeHoldExpiry (slot : Nat)
  /-- CONNECTION_READ (R565). SAF command CONNECTION_READ returns a safety connection's state and counts. -/
  | connectionRead (q : Nat)
  /-- FIELD_LINK_FRAME (R568). Every 50 µs the field-side controller exchanges inputs and output commands with the Turid side. -/
  | fieldLinkFrame (raw : Nat) (lplus sums outMa : List Nat) (inCur : List (Nat × Nat))
  /-- FIELD_LINK_LOST (R568). 1 ms without a valid frame switches outputs off or reads inputs off. -/
  | fieldLinkLost
  /-- FIELD_LINK_RESUME (R568). 10 ms of valid frames resume field inputs and outputs. -/
  | fieldLinkResume
  /-- FIELD_INPUT_CHANGE (R572). A field input's filtered state changes. -/
  | fieldInputChange (i : Nat) (high : Bool)
  /-- WIRE_BREAK (R573). An input current below 0.35 mA for 20 ms declares a wire break. -/
  | wireBreak (i : Nat)
  /-- WIRE_RESTORED (R573). The input current is at 0.35 mA or more for 20 ms and the break ends. -/
  | wireRestored (i : Nat)
  /-- LPLUS_LOW (R569). L+ of a group below 16.0 V for 1 ms switches its outputs off. -/
  | lplusLow (k : Nat)
  /-- LPLUS_RESTORED (R569). L+ at 17.0 V or more for 10 ms restores the group's outputs. -/
  | lplusRestored (k : Nat)
  /-- OUTPUT_SHORT (R578). An output in current limit for 100 µs is switched off and latched. -/
  | outputShort (n : Nat)
  /-- OUTPUT_OVERLOAD (R578). An output above 0.6 A for 10 ms is switched off for a retry. -/
  | outputOverload (n : Nat)
  /-- OUTPUT_THERMAL (R578). An output switch reaching 160 °C is switched off for a retry. -/
  | outputThermal (n : Nat)
  /-- OUTPUT_RETRY (R578). 1 s after an overload or thermal switch-off the output retries or is latched. -/
  | outputRetry (n : Nat)
  /-- GROUP_OVERLOAD (R579). A group above 2.5 A for 100 ms has its outputs switched off in turn. -/
  | groupOverload (k ma : Nat)
  /-- DEMAG_COMPLETE (R580). An inductive switch-off ends, its energy is formed and a hold or latch set. -/
  | demagComplete (n : Nat) (j : Rat)
  /-- DEMAG_HOLD_END (R580). A demagnetisation hold ends and a standing on command takes effect. -/
  | demagHoldEnd (n : Nat)
  /-- OPEN_LOAD (R581). An open load is flagged after 100 ms. -/
  | openLoad (n : Nat)
  /-- OUTPUT_SILENCE_TIMEOUT (R577). An output without refresh for its silence timeout takes its silence value. -/
  | outputSilenceTimeout (n : Nat)
  /-- FIRMWARE_OUTPUT_REFRESH (R577). Every 10 ms the firmware refreshes its field outputs. -/
  | firmwareOutputRefresh
  /-- FIO_OUT_SET_WRITE (R577). A write to FIO_OUT_SET switches host-owned outputs on. -/
  | fioOutSetWrite (sess mask : Nat)
  /-- FIO_OUT_CLEAR_WRITE (R577). A write to FIO_OUT_CLEAR switches host-owned outputs off. -/
  | fioOutClearWrite (sess mask : Nat)
  /-- OUTPUT_LATCH_CLEAR (R578). A W1C write to FIO_OUT_FAULT_LATCH clears a latch and restores the commanded state. -/
  | outputLatchClear (sess mask : Nat)
  /-- OUTPUT_RESET (R583). FIO command OUTPUT_RESET clears output protection latches. -/
  | outputReset (q : Nat)
  /-- FIO_CLEAR_COUNTERS (R717). FIO_CONTROL CMD CLEAR_COUNTERS clears the FIO counters. -/
  | fioClearCounters (sess key : Nat)
  /-- CAN_FRAME_RECEIVED (R595). A CAN frame is received and routed to its function, the host queue or discarded. -/
  | canFrameReceived (b id fmt flags : Nat) (data : List Byte) (stamp : Nat)
  /-- CAN_FRAME_SENT (R593). A pending CAN frame wins arbitration and is transmitted, or is retried. -/
  | canFrameSent (b outcome lat tdc : Nat)
  /-- MBC_RX_ACK_WRITE (R595). A write to MBC_RX_ACK releases host receive queue entries. -/
  | mbcRxAckWrite (sess b seq : Nat)
  /-- CAN_TX (R616). MBC command CAN_TX sends a host frame on bus 11. -/
  | canTx (q : Nat)
  /-- CAN_TX_CANCEL (R594). MBC command CAN_TX_CANCEL cancels a pending transmission before its start of frame. -/
  | canTxCancel (q : Nat)
  /-- BUS_SLEEP (R599). MBC command BUS_SLEEP proposes sleep on a bus. -/
  | busSleep (q : Nat)
  /-- BUS_SLEEP_COMMIT_TIMER (R599). 20 ms after a proposal with no objection SLEEP COMMIT is sent. -/
  | busSleepCommitTimer (b : Nat)
  /-- SLEEP_OBJECTION (R599). A partner's SLEEP_OBJECTION aborts or follows a bus sleep. -/
  | sleepObjection (b id : Nat)
  /-- CAN_WAKE_PATTERN (R600). A wake-up pattern on a sleeping bus is latched and the bus woken. -/
  | canWakePattern (b : Nat)
  /-- BUS_WAKE (R600). MBC command BUS_WAKE wakes a bus. -/
  | busWake (q : Nat)
  /-- BUS_RECOVER (R596). MBC command BUS_RECOVER starts recovery from bus-off. -/
  | busRecover (q : Nat)
  /-- BUS_OFF (R596). A controller's transmit error count exceeds 255 and it goes bus-off. -/
  | busOff (b : Nat)
  /-- BUS_OFF_RECOVERED (R596). 128 occurrences of 11 recessive bits complete recovery from bus-off. -/
  | busOffRecovered (b : Nat)
  /-- MBC_CLEAR_COUNTERS (R717). MBC_CONTROL CMD CLEAR_COUNTERS clears the bus counters. -/
  | mbcClearCounters (sess key b : Nat)
  /-- RESTRICT (R597). MBC_CONTROL CMD RESTRICT puts a controller in restricted operation. -/
  | restrict (sess key b : Nat)
  /-- UNRESTRICT (R597). MBC_CONTROL CMD UNRESTRICT ends restricted operation. -/
  | unrestrict (sess key b : Nat)
  /-- INHIBIT_RECOVERY (R596). MBC_CONTROL CMD INHIBIT_RECOVERY stops automatic bus-off recovery. -/
  | inhibitRecovery (sess key b : Nat)
  /-- ALLOW_RECOVERY (R619). MBC_CONTROL CMD ALLOW_RECOVERY allows automatic bus-off recovery again. -/
  | allowRecovery (sess key b : Nat)
  /-- STANDING_ACK (R592). A drive's STANDING_ACK is received. -/
  | standingAck (b k seq status gen : Nat)
  /-- STANDING_RETRY (R592). An unacknowledged drive STANDING is repeated every 100 ms, up to 10 times. -/
  | standingRetry (b k : Nat)
  /-- REFERENCE_MESSAGE_TIMER (R598). A time-master bus requests a reference message at its period. -/
  | referenceMessageTimer (b : Nat)
  /-- SERIAL_POLL (R604). The Turid sends the next RS-485 frame polling a fixture. -/
  | serialPoll (l : Nat) (bad : Bool)
  /-- SERIAL_REPLY (R603). An RS-485 fixture reply is received and its message and ACK handled. -/
  | serialReply (l : Nat) (data : List Byte) (framing : Bool)
  /-- SERIAL_POLL_TIMEOUT (R604). A poll draws no start bit within 100 µs. -/
  | serialPollTimeout (l : Nat)
  /-- SER_CLEAR_COUNTERS (R717). SER_CONTROL CMD CLEAR_COUNTERS clears the line counters. -/
  | serClearCounters (sess key l : Nat)
  /-- PRP_SUPERVISION (R608). Every 2 s a PRP supervision frame is sent. -/
  | prpSupervision
  /-- PRP_LAN_TIMEOUT (R608). No frame on one LAN for 6 s sets its fault bit. -/
  | prpLanTimeout (lan : Nat)
  /-- PTP_SYNC_RECEIVED (R612). A PTP Sync from the parent updates the servo and plant time. -/
  | ptpSyncReceived (p : Nat) (offset delay : Int)
  /-- PLANT_TIME_LOCK (R612). The servo offset stays within 1 µs for 10 s and plant time becomes LOCKED. -/
  | plantTimeLock (time : Nat)
  /-- PLANT_TIME_HOLDOVER (R612). No valid Sync for the announce receipt timeout puts plant time in HOLDOVER. -/
  | plantTimeHoldover
  /-- PTP_SYNC_SEND (R611). As master the Turid sends Sync at the log sync interval. -/
  | ptpSyncSend (p : Nat)
  /-- PTP_DELAY_REQ (R611). A Delay_Req is answered as master. -/
  | ptpDelayReq (p who seq : Nat)
  /-- MODBUS_REQUEST (R613). A Modbus TCP read or identification request is served. -/
  | modbusRequest (p client : Nat) (pdu : List Byte)
  /-- MODBUS_WRITE (R614). A Modbus write multiple registers request is applied as a Helm write or refused. -/
  | modbusWrite (p client : Nat) (pdu : List Byte)
  /-- ETH_LINK_CHANGE (R617). An Ethernet port's link goes up or down. -/
  | ethLinkChange (p speed : Nat) (sfp sfpFault : Bool)
  /-- ADDRESS_CONFLICT (R617). Another host claims a Turid IPv4 address. -/
  | addressConflict (p : Nat)
  /-- UNSERVED_FRAME (R609). A frame to an unserved port is discarded and counted. -/
  | unservedFrame (p : Nat)
  /-- NET_CLEAR_COUNTERS (R717). NET_CONTROL CMD CLEAR_COUNTERS clears the NET counters. -/
  | netClearCounters (sess key : Nat)
  /-- ACQ_SAMPLE (R627). A buffer stores a frame and judges its level and window triggers. -/
  | acqSample (b : Nat) (codes : List Word) (stamp : Nat)
  /-- ACQ_AUTO_TIMEOUT (R634). An ARMED buffer with AUTO reaches its auto timeout and triggers. -/
  | acqAutoTimeout (b : Nat)
  /-- ACQ_MEASURE_DONE (R635). The measurements of a completed record are computed and RECORD_COMPLETE posted. -/
  | acqMeasureDone (seq : Nat)
  /-- ARM (R639). ACQ command ARM arms a buffer. -/
  | arm (q : Nat)
  /-- DISARM (R639). ACQ command DISARM disarms a buffer, aborting a record in progress. -/
  | disarm (q : Nat)
  /-- FORCE_TRIGGER (R639). ACQ command FORCE_TRIGGER triggers a buffer or pool. -/
  | forceTrigger (q : Nat)
  /-- RELEASE (R639). ACQ command RELEASE frees an owned record's segment. -/
  | release (q : Nat)
  /-- MEASURE_READ (R639). ACQ command MEASURE_READ returns one measurement of a record. -/
  | measureRead (q : Nat)
  /-- ACQ_CLEAR_COUNTERS (R717). ACQ_CONTROL CMD CLEAR_COUNTERS clears the ACQ counters. -/
  | acqClearCounters (sess key : Nat)
  /-- APPEND_CHECKPOINT (R649). Every 1 s the recorder's append offset checkpoint is written. -/
  | appendCheckpoint
  /-- EXPORT (R654). REC command EXPORT starts streaming the log, ledger or trace as EXPORT_DATA events. -/
  | exportCmd (q : Nat)
  /-- EXPORT_STREAM_RESUME (R654). A paused export resumes when event queue 3 has room. -/
  | exportStreamResume
  /-- EXPORT_STOP (R661). REC command EXPORT_STOP ends a running export. -/
  | exportStop (q : Nat)
  /-- CLEAR_LOG (R651). REC command CLEAR_LOG is judged and a clear is accepted. -/
  | clearLog (q : Nat)
  /-- CLEAR_COMMIT (R652). With no dedicated record pending the ledger entry and CLEAR record are written. -/
  | clearCommit
  /-- ZEROING_DONE (R652). The old log has been zeroed behind the append point. -/
  | zeroingDone
  /-- RETURN_PREPARE (R659). REC command RETURN_PREPARE records the recorder choice and reference. -/
  | returnPrepare (q : Nat)
  /-- RETURN_PREPARE_EXPIRY (R659). 60 s pass without RETURN_COMMIT and the preparation is cancelled. -/
  | returnPrepareExpiry
  /-- RETURN_COMMIT (R660). REC command RETURN_COMMIT zeroises keys and moves the Turid to Returned. -/
  | returnCommit (q : Nat)
  /-- CLEAR_TRACE (R664). REC_CONTROL CMD CLEAR_TRACE empties the trace ring. -/
  | clearTrace (sess key : Nat)
  /-- TRACE_SYNC (R656). Each trace source emits a SYNC packet every 1 s. -/
  | traceSync
  /-- PROVISION (R685). SEC command PROVISION installs a key from the staging buffer. -/
  | provision (q : Nat)
  /-- SEAL (R666). SEC command SEAL moves the Turid to SEALED. -/
  | seal (q : Nat)
  /-- RESET_COMMISSIONING (R667). SEC command RESET_COMMISSIONING clears the plant identity and slots and resets. -/
  | resetCommissioning (q : Nat)
  /-- KEY_UPDATE (R670). SEC command KEY_UPDATE replaces a key slot from a signed record. -/
  | keyUpdate (q : Nat)
  /-- REVOKE (R673). SEC command REVOKE adds a serial to the revocation list and closes its sessions. -/
  | revoke (q : Nat)
  /-- DEBUG_OPEN (R679). SEC command DEBUG_OPEN opens a debug session with a token. -/
  | debugOpen (q : Nat)
  /-- DEBUG_CLOSE (R679). SEC command DEBUG_CLOSE closes the debug session. -/
  | debugClose (q : Nat)
  /-- DEBUG_EXPIRY_CHECK (R679). The 1 s token expiry check closes an expired debug session. -/
  | debugExpiryCheck
  /-- ENROL_NODE (R676). SEC command ENROL_NODE writes a certificate to a node and re-authenticates it. -/
  | enrolNode (q : Nat)
  /-- READ_NODE_REQUEST (R676). SEC command READ_NODE_REQUEST copies a node's request into the staging buffer. -/
  | readNodeRequest (q : Nat)
  /-- FIRMWARE_UPDATE (R672). SEC command FIRMWARE_UPDATE resets into firmware recovery. -/
  | firmwareUpdate (q : Nat)
  /-- SEC_CLEAR_COUNTERS (R717). SEC_CONTROL CMD CLEAR_COUNTERS clears the SEC counters. -/
  | secClearCounters (sess key : Nat)
  /-- STAGE_INDEX_WRITE (R677). A write to SEC_STAGE_INDEX selects a word and claims the staging buffer. -/
  | stageIndexWrite (sess v : Nat)
  /-- STAGE_DATA_ACCESS (R677). A read or write of SEC_STAGE_DATA accesses a word and advances the index. -/
  | stageDataAccess (sess : Nat) (write : Bool) (v : Word)
  /-- TAMPER_TRIP (R684). A tamper monitor trips and acts by its level. -/
  | tamperTrip (m : Nat)
  /-- TAMPER_RESET_RELEASE (R684). A deferred level 3 tamper reset acts once motion and evacuation clear. -/
  | tamperResetRelease
  /-- DBG_HALT_REQUEST_WRITE (R680). A write to DBG_HALT_REQUEST requests core halts, which may be deferred. -/
  | dbgHaltRequestWrite (sess v : Nat)
  /-- CORE_HALT_EFFECTIVE (R680). A requested halt takes effect once the core's tasks move to a spare. -/
  | coreHaltEffective (k : Nat)
  /-- HALT_DEFERRAL_END (R680). A deferral condition clears and the deferred halt proceeds. -/
  | haltDeferralEnd
  /-- DBG_MEM_ACCESS (R681). An access to DBG_MEM_DATA reads or writes memory and advances the address. -/
  | dbgMemAccess (sess : Nat) (write : Bool) (v : Word)
  /-- SITE_TAG_WRITE (R723). A write to SYS_SITE_TAG stores the value in NVM unless Sealed. -/
  | siteTagWrite (sess k : Nat) (v : Word)
  /-- EDM_RESPONSE (R531). An EDM input shows its contactor engaged or released within the EDM time after its output was switched, ending the EDM wait and reporting the brake lifted or applied. -/
  | edmResponse (n : Nat) (engaged : Bool) (ms : Nat)
  /-- OSCILLATOR_OR_SUPPLY_MONITOR_TRIP (R534). A safety technology's oscillator or supply monitor trips and that technology is faulted and becomes a follower. -/
  | oscillatorOrSupplyMonitorTrip (tech : Nat)
  /-- CAN_ERROR_DETECTED (R596). A CAN controller detects a bus error, updates its ISO 11898-1 error counters and may enter error passive. -/
  | canErrorDetected (b kind : Nat) (data tx major : Bool)
  /-- PTP_ANNOUNCE_RECEIVED (R611). A PTP Announce message is received and the best master clock algorithm selects or changes the parent. -/
  | ptpAnnounceReceived (p domain prio1 cls acc var prio2 ident steps : Nat)
  /-- MODBUS_CONNECTION (R613). A Modbus TCP connection arrives on a port with MODBUS set and is accepted up to the record's count or closed at once. -/
  | modbusConnection (p : Nat) (opens : Bool)
  /-- RNG_HEALTH_TEST_FAILURE (R669). The entropy source fails a continuous health test and SEC_RNG_STATUS.HEALTHY becomes 0, so challenges, TLS sessions and signatures are refused. -/
  | rngHealthTestFailure
  /-- BREAKPOINT_HIT (R680). An application core reaches an armed breakpoint and halts, or in SEALED is deferred while a deferral condition holds. -/
  | breakpointHit (k b : Nat)
  /-- MAIN_INPUT_GOOD (R693). A main input rises to its threshold while the Turid already runs on the other input, becoming good again without a new start. -/
  | mainInputGood (b : Bool)
  /-- TLS_HANDSHAKE_COMPLETE (R673). A Helm TLS handshake completes, the client certificate is checked and the session opens with observer role or is rejected. -/
  | tlsHandshakeComplete (sess certRoles serial : Nat) (chain : List Nat) (chainOk keyOk selfOk : Bool) (notBefore notAfter : Nat) (offer : TlsOffer)
  deriving DecidableEq, Repr

end Sys2Proof
end

