-- ==== Sys2Proof/Decode.lean ====
section
/-!
DEFINITION. The table of operations and events gives no row any bits (each row is a message, an event or an observation
that the spec describes by its fields): no word spells a command.
-/
namespace Sys2Proof

/-- The command a word spells by the bits of the table: none, since no row has bits. -/
def decodeTableWord (_nbits _w : Nat) : Option Instr := none

end Sys2Proof
end

