-- ==== Sys2Proof/Config.lean ====
section
/-!
DEFINITION. The free values of the model: constants with no body, so that nothing in Lean can evaluate them or prove a
value of them, and the standard cryptographic functions that the spec names without giving. A statement about any of
them holds for every value they could have. Assumption log 2 and 3 list them.
-/
namespace Sys2Proof.Config
open Sys2Proof

/-- The fresh word drawn at the n-th draw of the model's draw counter: random challenges, nonces, start sequences (R669)
and values the spec calls undefined. Log 2. -/
opaque freeWord : Nat → Word
/-- The fresh real value drawn at the n-th draw: a figure whose value the spec leaves open. Log 2. -/
opaque freeReal : Nat → Rat
/-- The bits to which a real figure that binary32 cannot hold exactly is rendered in a register, a window or a frame of
a chapter that names the format and no rounding. Log 3. -/
opaque renderB32 : Rat → Word
/-- As `renderB32`, for binary16. Log 3. -/
opaque renderB16 : Rat → BitVec 16
/-- The exponential function of the estimation and thermal formulas, in a precision the spec does not state. Log 3. -/
opaque exp : Rat → Rat
/-- The square root of the estimation, dispatch and travel-time formulas, in a precision the spec does not state. Log 3. -/
opaque sqrt : Rat → Rat
/-- The natural logarithm, in a precision the spec does not state. Log 3. -/
opaque ln : Rat → Rat
/-- atan2(sin, cos) ÷ 2π as a part of a period (R443), in a precision the spec does not state. Log 3. -/
opaque turnOf : Rat → Rat → Rat
/-- A quotient whose divisor is 0, as a function of its dividend: it comes up only with manifest fields outside the ranges that
the tool holds them to. Log 22. -/
opaque overZero : Rat → Rat
/-- The free bytes of the encrypted store that holds so many bytes of keys, identity and serials (R687); log 106. -/
opaque storeFree : Nat → Word
/-- The task group of a core, with the cores halted (R689); the manual numbers none (log 106). -/
opaque taskGroup : Nat → Nat → BitVec 16
/-- SHA-384 of a byte string (R47), named by the spec and not given. Log 3. -/
opaque sha384 : List Byte → List Byte
/-- ECDSA verification of a signature (r then s) over a digest under a public key as stored (R47, R668). Log 3. -/
opaque ecdsaVerify : List Byte → List Byte → List Byte → Bool
/-- SHA-256 of a byte string (R675). Log 3. -/
opaque sha256 : List Byte → List Byte

end Sys2Proof.Config
end

