-- ==== Sys2Proof/Machine/State.lean ====
section
/-!
DEFINITION. The state of the Turid as plain data: the register file (one word for every register that has been written
away from its reset value), the records of each unit that no register holds, what non-volatile memory and the Bollard
domain keep across a reset, the frames sent, and the commands waiting. `State.reset` is the module at its first power
good. INVENTORY.md lists every field with the rule that names it.
-/
namespace Sys2Proof.Machine
open Sys2Proof

/-- No command of the Turid stops the model with a fault: what goes wrong in the hardware is an effect of the command
(a status, an event, a recorder entry, a reset). Nobody raises a fault. -/
inductive Fault where
  deriving DecidableEq, Repr

/-- Why a command has no meaning in the model. -/
inductive Refusal where
  /-- Raised by an arm of `exec` whose row has no meaning yet. Safe: the model stops where the hardware goes on. -/
  | notModelled (mnemonic : String)
  deriving DecidableEq, Repr

/-- What a step answers. -/
abbrev Res (σ : Type) := Host.Outcome σ Fault Refusal

/-! ## Supply, start and Helm -/

/-- Which part of the Turid is supplied (R86, R113): nothing; the Bollard domain alone; the rails coming up in stage
POWER; everything, from power good on. -/
inductive Phase where
  | off | berth | power | on
  deriving DecidableEq, Repr

/-- An entry of an event queue (R182). -/
structure EvEntry where
  code : Nat
  inst : Nat
  seq : Nat
  srcSeq : Nat
  epoch : Nat
  tick : Nat
  plantTime : Nat
  opSec : Nat
  flags : Nat
  data : List Byte
  deriving DecidableEq, Repr

/-- An event queue: the unacknowledged entries, oldest first, and how many of them the owner has been sent
(R182 to R186). -/
structure EvQueue where
  entries : List EvEntry
  owner : Option Nat
  sent : Nat
  lostBefore : Bool
  deriving DecidableEq, Repr

/-- A command entry accepted into a command queue (R174): `id` counts acceptances, `uid` names the session that pushed it,
`args` are the bytes from entry offset 0x0C on. -/
structure Cmd where
  id : Nat
  sess : Nat
  uid : Nat
  tag : Nat
  code : Nat
  inst : Nat
  args : List Byte
  deriving DecidableEq, Repr

/-- A fence accepted at the tail of a command queue (R188), with what stood open before it: the tick of its acceptance, the tags of
the Hawser transactions, the sweeps (crossing, berth, number) not yet published, whether signal writes were staged, and whether a
plant change was yet to be sent. -/
structure Fence where
  id : Nat
  sess : Nat
  uid : Nat
  tag : Nat
  queue : Nat
  scope : Nat
  timeout : Nat
  tick : Nat
  txns : List Nat
  sweeps : List (Nat × Nat × Nat)
  staged : Bool
  unsent : Bool
  deriving DecidableEq, Repr

/-- What stands in a command queue. -/
inductive QItem where
  | cmd (c : Cmd)
  | fence (f : Fence)
  deriving DecidableEq, Repr

/-- What a Helm access still has to do when it waits on a stopped domain (R139, R162). -/
inductive Access where
  | read (addr left : Nat) (got : List Word)
  | write (addr : Nat) (vals : List Word) (status : Nat)
  | rmw (addr : Nat) (mask value : Word)
  deriving DecidableEq, Repr

/-- The access of a session that waits on a stopped domain (R139). -/
structure Wait where
  dom : Nat
  tag : Nat
  acc : Access
  timed : Bool
  deriving DecidableEq, Repr

/-- A Helm session (R152 to R158, R165, R166, R717). `uid` tells it from other holders of its number, `sent` counts the bytes
sent in it since the last key update that the Turid initiated, `rekeys` those updates (R153). -/
structure Session where
  uid : Nat
  handshaking : Bool
  roles : Nat
  certRoles : Nat
  serial : Nat
  chain : List Nat
  tags : List Nat
  shadow : Tbl Word
  heldHigh : Tbl Word
  sel : Tbl Word
  opShadow : Option Word
  wait : Option Wait
  held : List Instr
  listen : Tbl (List EvEntry)
  sent : Nat
  rekeys : Nat
  deriving DecidableEq, Repr

/-- The Helm queues unit (HQ). Commands of a queue run one at a time (R177). `mooring` is the MOORING_ENTERED entry of this
start (R727). -/
structure Hq where
  sessions : Tbl Session
  nextUid : Nat
  nextId : Nat
  cq : Tbl (List QItem)
  running : Tbl Cmd
  eq : Tbl EvQueue
  srcSeq : Tbl Nat
  fences : List Fence
  fwSel : Tbl Word
  mooring : Option EvEntry
  deriving DecidableEq, Repr

/-! ## Non-volatile memory -/

/-- A record of the event recorder (R645): `mark` is the final writer nibble, 0xF while pending (R648). -/
structure LogRec where
  seq : Nat
  code : Nat
  inst : Nat
  mark : Nat
  flags : Nat
  opSec : Nat
  opMs : Nat
  cycles : Nat
  plantTime : Nat
  len : Nat
  data : List Byte
  deriving DecidableEq, Repr

/-- An entry of the clear ledger (R653). -/
structure Ledger where
  index : Nat
  reason : Nat
  lastSeq : Nat
  records : Nat
  bytes : Nat
  opSec : Nat
  cycles : Nat
  plantTime : Nat
  serial : Nat
  deriving DecidableEq, Repr

/-- A failed start as the failure group keeps it (R99). -/
structure FailEntry where
  code : Nat
  cycles : Nat
  opSec : Nat
  deriving DecidableEq, Repr

/-- The copy of Bollard state in the boot region (R98, R131, R725), the self-test words, the trace mark of R658 and whether
the next power-up is the first since manufacture or Returned (R100). -/
structure BootCopy where
  failed : Nat
  cause : Nat
  fails : List FailEntry
  cycles : Nat
  opSec : Nat
  settled : Bool
  selftest : Option (Word × Word)
  traceLost : Option (Nat × Nat)
  firstPower : Bool
  deriving DecidableEq, Repr

/-- A patch in a slot's patch log (R64, R72, R73). -/
structure PatchRec where
  epoch : Nat
  bytes : List Byte
  committed : Bool
  cancelled : Bool
  deriving DecidableEq, Repr

/-- A manifest slot: the file written to it and its patch log (R55). State, error, generation, epoch, length and safety
value stand in the slot registers. -/
structure Slot where
  image : List Byte
  patches : List PatchRec
  deriving DecidableEq, Repr

/-- A firmware image (R671): whether it verifies, its version and its floor field. -/
structure FwImage where
  valid : Bool
  version : Nat
  floor : Nat
  deriving DecidableEq, Repr

/-- Learned values of a cell (R284): capacity, resistance factor, self-discharge current, offset, hysteresis scale. -/
structure Learned where
  q : Rat
  sR : Rat
  iSd : Rat
  u : Rat
  m : Rat
  deriving DecidableEq, Repr

/-- A string record of a checkpoint (R276): cell type, estimation state, the operating seconds at which it froze, and per
cell the learned values, the state of charge and the hysteresis voltage. -/
structure CkStr where
  typ : Nat
  state : Nat
  frozenAt : Nat
  learned : List Learned
  zh : List (Rat × Rat)
  deriving DecidableEq, Repr

/-- A checkpoint slot (R276): its string records, the fields of its header with the CRC-32C that it holds of the records, and
whether its commit word stands. -/
structure Ckpt where
  gen : Nat
  plant : Nat
  cause : Nat
  opSec : Nat
  cycles : Nat
  time : Nat
  manGen : Nat
  strings : Tbl CkStr
  crc : Nat
  committed : Bool
  deriving DecidableEq, Repr

/-- A closed billing interval, or the open one (R353, R354). -/
structure Billing where
  seq : Nat
  label : Nat
  duration : Nat
  importWh : Rat
  exportWh : Rat
  flags : Nat
  deriving DecidableEq, Repr

/-- What non-volatile memory (`pcsLast`: the export and import counters and the plant time last stored for a PCS unit, R356),
the encrypted store and the fuses hold beside the registers that are read from them. -/
structure Nv where
  boot : BootCopy
  slots : Tbl Slot
  fwA : FwImage
  fwB : FwImage
  keys : Tbl (List Byte)
  plantId : Option Nat
  maxGen : Nat
  keySeq : Nat
  revoked : List Nat
  log : List LogRec
  reserve : List LogRec
  ledger : List Ledger
  appendMark : Nat
  ckpt : Tbl Ckpt
  billing : List Billing
  billOpen : Option Billing
  billSeq : Nat
  pcsLast : Tbl (Nat × Nat × Nat)
  intentStr : List Nat
  intentCon : List Nat
  deriving DecidableEq, Repr

/-- What the Bollard domain holds beside its registers: the phase of supply, the one-shot latch of R110, whether the
running start has been judged or has entered Mooring mode, whether the Berth came from the loss of both inputs, and the
tamper reset that waits (R684), whether the next start ends in firmware recovery (R672), and, while POWER follows a reset,
whether that reset entered a failed start (R101). -/
structure Bollard where
  phase : Phase
  attempt : Bool
  settled : Bool
  byLoss : Bool
  cause : Nat
  tamperWait : Bool
  toRecovery : Bool
  ended : Option Bool
  deriving DecidableEq, Repr

/-! ## Manifest -/

/-- A record of the loaded manifest (R50): section type, kind number, identity, and its bytes from offset 0. -/
structure CfgRec where
  sec : Nat
  kind : Nat
  id : Nat
  body : List Byte
  deriving DecidableEq, Repr

/-- An open staging (R57, R173). -/
structure Staging where
  sess : Nat
  uid : Nat
  kind : Nat
  len : Nat
  slot : Nat
  bytes : List Byte
  deriving DecidableEq, Repr

/-- A committed image under verification, or a patch on its way to its boundary (R57, R64). -/
structure LoadJob where
  sess : Nat
  uid : Nat
  tag : Nat
  slot : Nat
  reqTick : Nat
  target : Nat
  bytes : List Byte
  deriving DecidableEq, Repr

/-- The manifest unit: the records in force, and the loads in progress. -/
structure Man where
  cfg : List CfgRec
  stage : Option Staging
  verify : Option LoadJob
  patch : Option LoadJob
  trialAtStart : Option Nat
  deriving DecidableEq, Repr

/-! ## Power, recorder, security -/

/-- The power unit: whether a Berth entry runs, whether the die has stood hot for 60 s (R144), ticks into the present millisecond, ns left to slew (R130), ticks spent in Glide, the domain whose
reset runs (R141), the plant-time steps so far, the domains that running commands keep live, by queue, and the tick at which
UNDERWAY or Awaiting manifest was entered (R95), the thirds of a nanosecond of plant time, and the tick of power good (R720). -/
structure Pwr where
  berthRun : Bool
  hot60 : Bool
  subMs : Nat
  slewLeft : Int
  glideTicks : Nat
  resetDom : Option Nat
  timeSteps : Nat
  cmdHold : List (Nat × Nat)
  heldAt : Option Nat
  third : Nat
  goodAt : Nat
  deriving DecidableEq, Repr

/-- A packet of the trace ring (R655). -/
structure TracePkt where
  kind : Nat
  src : Nat
  len : Nat
  seq : Nat
  tick : Nat
  data : List Byte
  deriving DecidableEq, Repr

/-- A running export (R654). -/
structure Export where
  queue : Nat
  sess : Nat
  uid : Nat
  kind : Nat
  total : Nat
  bytes : List Byte
  deriving DecidableEq, Repr

/-- The recorder's volatile part: an accepted clear, a running export, a prepared return, and the trace ring, newest
packet first. -/
structure RecU where
  clear : Option (Nat × Nat)
  exp : Option Export
  prep : Option (Nat × List Byte)
  trace : List TracePkt
  traceBytes : Nat
  traceSeq : Tbl Nat
  deriving DecidableEq, Repr

/-- The security unit's volatile part: the staging buffer with the session that last set its index (R677), the debug
session's Helm session, the cores whose halt waits for its task move, and the words written to application memory
through the debug port (R681). -/
structure Sec where
  stage : Tbl Word
  stageOwner : Option Nat
  debugUid : Option Nat
  mem : Tbl Word
  deriving DecidableEq, Repr

/-! ## What the Turid sends -/

/-- A port: end A (false) or B of a crossing, a CAN bus, an RS-485 line, an Ethernet or SFP+ port (0 J2 to 3 J5), or the
outputs of J22. -/
inductive Port where
  | xng (n : Nat) (endB : Bool)
  | can (bus : Nat)
  | ser (line : Nat)
  | eth (p : Nat)
  | usb
  deriving DecidableEq, Repr

/-- What the Turid has sent. A Helm response carries its status and then its fields in order; `frame` carries a frame's
or datagram's kind, its destination (berth, identifier, unit or address) and its payload. -/
inductive Out where
  | response (sess tag type status : Nat) (more : Bool) (body : List Nat)
  | qack (sess queue status tag result : Nat)
  | event (sess queue : Nat) (e : EvEntry)
  | closed (sess : Nat)
  | hold (p : Port) (reason : Nat)
  | frame (p : Port) (kind dst : Nat) (data : List Byte)
  deriving DecidableEq, Repr


/-! ## Crossings (R194 to R245) -/

/-- What a transaction serves: nothing that waits, a sweep, a challenge, an XNG command running from a queue, a SEC
command with its step (R676), or a contactor command or read of protection (the string or container index). -/
inductive TxnUse where
  | plain
  | sample
  | auth
  | queue (q : Nat)
  | sec (q step : Nat)
  | strClose (i : Nat)
  | strOpen (i attempt : Nat)
  | conClose (c : Nat)
  | conOpen (c attempt : Nat)
  | conStatus (c : Nat)
  | conCurrent (c : Nat)
  | conBranch (c : Nat)
  deriving DecidableEq, Repr

/-- An entry of the shared transaction table (R220 to R224). `got` holds the report frames of a sweep that have come,
`tables` the CELLTYPES records of a sweep that began before a boundary that replaced them (R67). -/
structure Txn where
  xng : Nat
  berth : Nat
  typ : Nat
  payload : List Byte
  viaB : Bool
  retried : Bool
  use : TxnUse
  got : Tbl (List Byte)
  tables : Option (List CfgRec)
  deriving DecidableEq, Repr

/-- A deficit round robin over nodes, by crossing and berth (R225): the nodes that wait, in turn, and the deficit of each by
512 × crossing + berth, in tenths of a sweep. -/
structure Drr where
  order : List (Nat × Nat)
  left : Tbl Nat
  deriving DecidableEq, Repr

/-- A node of a crossing (R229 to R236). `enrolled` says that it has been enrolled since it was quarantined. `state` is the number of R229, 0 where no node is known at the berth. -/
structure Node where
  state : Nat
  reason : Nat
  ntype : Nat
  hop : Nat
  serial : Nat
  cert : List Byte
  txSeq : Nat
  rxSeq : Option Nat
  byB : Bool
  sweep : Nat
  rate : Nat
  applied : Option Nat
  lastTick : Nat
  promoted : Option Nat
  missedRow : Nat
  missed : Nat
  timeouts : Nat
  contact : Option Nat
  status : Nat
  standGen : Nat
  standing : List Byte
  report : List (List Byte)
  enrolled : Bool
  deriving DecidableEq, Repr

/-- A request that waits until its crossing is awake (R241). -/
structure Deferred where
  berth : Nat
  typ : Nat
  payload : List Byte
  use : TxnUse
  deriving DecidableEq, Repr

/-- A crossing. Hops and breaks are named by the berth on their end-A side, 0x1FE for the hop at end A (R245); a hop
listed has trained at the generation given, and `slow` are the hops held at generation 1 (R196). `auths` are the running
challenges by berth with their 32 bytes, `lastHop` the hop at end B, `wait` the berths whose challenge waits (R234), `reauth` a REAUTHENTICATE with
its queue, the berths still out and the number passed, `wake` the cause of a running wake, `wakeQ` the queues whose RING_WAKE it
answers, `commitAt` the tick of SLEEP_COMMIT. `later` are the REDISCOVER (0) and REAUTHENTICATE (1) commands that wait until the
crossing is awake, by queue, with their wait or berth; `census` a running REDISCOVER with its queue, the tick at which it ends and the berths
that have answered; `suspect` the nodes that are challenged when they next answer discovery, after a link loss (R234); `permit` the
tick at which the firmware last renewed the presence permit (R218). -/
structure Ring where
  hops : Tbl Nat
  slow : List Nat
  breaks : List Nat
  lastHop : Option Nat
  nodes : Tbl Node
  bseq : Nat
  sleepId : Nat
  sleepQ : Option Nat
  agreed : List Nat
  commitAt : Option Nat
  auths : Tbl (List Byte)
  wait : List Nat
  reauth : Option (Nat × List Nat × Nat)
  wake : Option Nat
  wakeQ : List Nat
  deferred : List Deferred
  later : List (Nat × Nat × Nat)
  census : Option (Nat × Nat × List Nat)
  suspect : List Nat
  permit : Nat
  deriving DecidableEq, Repr

/-- The crossings, the shared transaction table by tag, and the completions that their requesters have not yet acted on
(R222), and the changes of nodes that protection has not yet acted on: crossing, berth, and 0 LOST by missed sweeps,
1 LOST without a path, 2 LEFT by itself, 3 LEFT by command, 4 JOINED, 5 QUARANTINED. `absent` are the partners marked absent in
this start (R92): 0 a node by crossing and berth, 1 a PCS unit, 2 a drive by bus and number, 3 a fixture, 4 a remote
safety I/O unit by its connection's slot. `due` are the sweeps that have fallen due and wait, `heads` those promoted before them
(R225, R226). -/
structure Xng where
  rings : Tbl Ring
  txns : Tbl Txn
  done : List (Txn × Nat × List Byte)
  notes : List (Nat × Nat × Nat)
  absent : List (Nat × Nat × Nat)
  due : Drr
  heads : List (Nat × Nat)
  deriving DecidableEq, Repr

/-! ## Cell state estimation (R246 to R289) -/

/-- A cell's entry of the cell-state window (R284) with what its rules keep beside it: its last measurement time, the
temperature used last, the rejections in a row (R255), its last ten valid samples (R266), whether it balanced since the last anchor (R268), the
operating seconds of the two stored innovations (R270), and whether the last float window flagged it (R311). -/
structure Cell where
  z : Rat
  vp : Rat
  h : Rat
  pzz : Rat
  pzp : Rat
  pzh : Rat
  ppp : Rat
  pph : Rat
  phh : Rat
  c : Rat
  lastV : Nat
  lastT : Nat
  ebar : Rat
  flags : Nat
  za : Rat
  rho : Rat
  excess : Rat
  chg : Rat
  dis : Rat
  anchor : Nat
  obs : Nat
  time : Option Nat
  rejects : Nat
  recent : List Rat
  bled : Bool
  zaSet : Bool
  chgAt : Option Nat
  disAt : Option Nat
  flagged : Bool
  temp : Rat
  deriving DecidableEq, Repr

/-- The string figures of R280. `weak` is the index of the cell that sets the floor. -/
structure Figures where
  eAvail : Rat
  eCons : Rat
  eHead : Rat
  iDis : Rat
  iChg : Rat
  pDis : Rat
  pChg : Rat
  zLo : Rat
  zHi : Rat
  zMean : Rat
  tLo : Rat
  tHi : Rat
  weak : Nat
  deriving DecidableEq, Repr

/-- A cell entry of a report frame as it came (R214): voltage, temperature and status, and offset in µs. -/
structure Entry where
  v : Nat
  t : Nat
  off : Nat
  deriving DecidableEq, Repr

/-- A sweep whose four report frames have come (R213), with the CELLTYPES records it finishes with where a patch has replaced
them since it began (R67). -/
structure Sweep where
  xng : Nat
  berth : Nat
  number : Nat
  time : Nat
  current : Word
  voltage : Word
  contact : Nat
  status : Nat
  standGen : Nat
  cells : List Entry
  tables : Option (List CfgRec)
  deriving DecidableEq, Repr

/-- The condition that starts a cell initialisation (R262): the cells that it still waits for, each to be initialised at its first
valid voltage, with the prior states of charge by cell number and the seconds since them, or without. -/
structure Init where
  left : List Nat
  prior : Tbl Rat
  elapsed : Rat
  deriving DecidableEq, Repr

/-- A string as estimation keeps it: its state of R263, its figures, what its last sweep said, the times since which the
anchor conditions have held and whether that hold has made its anchor (R265), the last anchor's kind and time with the charge since then and whether anything
spoils it (R268), the float window's start (R271), the last 60 s learning step (R270), the initialisation that waits, the
requests of R286 and R278 for its next sweep, the operating seconds
at which it froze, and the count of plant-time steps at its last sweep (R254). -/
structure EstStr where
  state : Nat
  typ : Nat
  fig : Figures
  cells : List Cell
  learned : List Learned
  time : Option Nat
  number : Nat
  current : Rat
  voltage : Rat
  contact : Nat
  chgSince : Option (Nat × Bool)
  disSince : Option (Nat × Bool)
  lastAnchor : Nat
  anchorTime : Nat
  charge : Rat
  spoiled : Bool
  floatAt : Option Nat
  learnAt : Option Nat
  init : Option Init
  toRest : Bool
  toDefault : Bool
  restore : Tbl Learned
  frozenAt : Option Nat
  steps : Nat
  deriving DecidableEq, Repr

/-- A part of a staged RESTORE_LEARNED transfer (R278): the window offset and the bytes. -/
structure RestorePart where
  offset : Nat
  bytes : List Byte
  deriving DecidableEq, Repr

/-- A restore (R278, R279): the session, its plant identity and generation, and its parts while it is staged; once accepted, the
number of entries that it applies, and whether every string has taken them. -/
structure Restore where
  sess : Nat
  uid : Nat
  plant : Nat
  gen : Nat
  bad : Bool
  parts : List RestorePart
  taken : Option Nat
  applied : Bool
  deriving DecidableEq, Repr

/-- The roll-up of R283: the figures by string index of their last applied sweep, whether the string counts (R281), and
whether it is TRACKING. -/
structure RollStr where
  idx : Nat
  fig : Figures
  counts : Bool
  tracking : Bool
  quarantined : Bool
  state : Nat
  deriving DecidableEq, Repr

/-- The estimation unit: strings by index, the intake ring oldest first (R253), the roll-up in force, the checkpoint being
written with its cause and the queues whose commands wait for it, the one to follow and the failed ones to retry (R275, R277),
the pipelines' charged faults by operating
milliseconds (R258), the restore that is staged or being applied (R278), the last refused sweeps (R259), the updates made in the running second
(R288), the sweeps (crossing, berth, number) applied since the last roll-up (R283), and the turn of the nodes whose
sweeps wait in the intake ring (R253). -/
structure Est where
  str : Tbl EstStr
  intake : List Sweep
  roll : List RollStr
  ckptRun : Option (Nat × List Nat)
  ckptNext : Option (Nat × List Nat)
  ckptRetry : List (Nat × List Nat)
  faults : List (Nat × Nat)
  discards : List Nat
  restore : Option Restore
  second : Nat
  fresh : List (Nat × Nat × Nat)
  turn : Drr
  deriving DecidableEq, Repr

/-! ## Plant protection (R290 to R320) -/

/-- A string as protection keeps it: its state and cause (R298, R293), blocks, the counts of sweeps in a row by cause,
the sample times since which MEAS_INVALID and TEMP_INVALID hold with their counts, the ticks of its OVERCURRENT blocks,
its marked cells (R312), what set the last trip, the steps of an orderly open (R295), `next` what follows
a close in flight (R301: 1 cancelled, 2 tripped), `waits` whether an OPEN waits for the response to a CONTACTOR in flight, the queues whose
commands wait, and the serial number held before a Missing mark (R309), none where a start has lost it. -/
structure PStr where
  state : Nat
  cause : Nat
  chgBlock : Bool
  disBlock : Bool
  coldBlock : Bool
  waitVolt : Bool
  nOv : Nat
  nUv : Nat
  nHot : Nat
  nCold : Nat
  nColdChg : Nat
  nAux : Nat
  nChg : Nat
  nDis : Nat
  nOpen : Nat
  measAt : Option (Nat × Nat)
  tempAt : Option (Nat × Nat)
  blocks : List Nat
  marked : List Nat
  balancing : Bool
  tripCell : Nat
  tripValue : Rat
  opening : Bool
  sentOpen : Bool
  openAt : Nat
  inFlight : Bool
  next : Nat
  waits : Bool
  closeQ : Option Nat
  openQ : Option Nat
  closeAt : Nat
  closedAt : Option Nat
  waitSince : Option Nat
  serial : Option Nat
  shortTrip : Option (Nat × Rat)
  deriving DecidableEq, Repr

/-- A container as protection keeps it (R302 to R306, R314, R315). `word` is the status word last read at 0x1000, `watch`
the strings whose branch currents are read (R307) with the number of reads in a row that showed current, `opensLeft` the
strings that CONTAINER_OPEN has still to open with the queue to answer, `floorOn` whether dispatch holds it in floor
regulation (R265), `mode` the mode last sent and `manual` the one commanded, `seen` whether its breaker has been reported since it joined, `waits` whether an OPEN waits for the
response to a CONTACTOR in flight (R301). -/
structure PCon where
  state : Nat
  cause : Nat
  word : Nat
  busV : Rat
  busI : Rat
  setpoint : Rat
  sentAt : Option Nat
  mode : Nat
  manual : Nat
  tHot : Rat
  tCold : Rat
  thermBlock : Bool
  sentOpen : Bool
  openAt : Nat
  withStrings : Bool
  opensLeft : List Nat
  inFlight : Bool
  waits : Bool
  closeQ : Option Nat
  openQ : Option Nat
  watch : Tbl Nat
  floorOn : Bool
  seen : Bool
  deriving DecidableEq, Repr

/-- Protection. -/
structure Prot where
  str : Tbl PStr
  con : Tbl PCon
  deriving DecidableEq, Repr

/-! ## Plant dispatch (R321 to R362) -/

/-- A DC port of a PCS unit as its last STATUS says (R346). -/
structure PcsPort where
  volts : Rat
  amps : Rat
  flags : Nat
  deriving DecidableEq, Repr

/-- A PCS unit: its state as `PLT_PCS_STATUS` numbers it, the valid statuses in a row, the last sequence accepted and sent,
its last STATUS, the standing set it was sent, and the energy counters last booked with their plant time (R356). -/
structure Pcs where
  state : Nat
  good : Nat
  rxSeq : Option Nat
  txSeq : Nat
  power : Rat
  freq : Rat
  flags : Nat
  applied : Nat
  ports : List PcsPort
  standGen : Nat
  standing : List Byte
  last : Option (Nat × Nat × Nat)
  deriving DecidableEq, Repr

/-- An entry of the host schedule (R327): its power word and whether it ramps to the next. -/
structure SchedEntry where
  time : Nat
  power : Word
  ramp : Bool
  deriving DecidableEq, Repr

/-- The open billing interval (R353): `start` is the plant time at which it began, `ms` its length so far. -/
structure OpenBill where
  seq : Nat
  label : Nat
  start : Nat
  ms : Nat
  imp : Rat
  exp : Rat
  flags : Nat
  deriving DecidableEq, Repr

/-- Dispatch: the units, the host schedule by time, the source value after its ramp, whether a switch of source still
ramps (R324), the value and tick at the fault of HOLD_THEN_ZERO (R322), the marks of R336, the open interval, the set-point inputs
(V or mA) and pulse inputs (Hz) as last sampled, by port class × 4,096 + item, Eres at the entry into evacuation operation, and whether a plant change has yet to be
sent to the PCS units (R188). -/
structure Disp where
  pcs : Tbl Pcs
  sched : List SchedEntry
  value : Rat
  switching : Bool
  held : Rat
  heldAt : Nat
  lowMark : Bool
  breachMark : Bool
  bill : Option OpenBill
  inputs : Tbl Rat
  evacEres : Rat
  unsent : Bool
  deriving DecidableEq, Repr
/-! ## Loop engine and PWM (R363 to R408) -/

/-- A lane: its signal store and its state words (slot × 32 + word) where they differ from the manifest's initial values,
whether it is retired, the tick of a mark whose rebuild runs, the tick in which it voted again, and the ticks of its marks
of the last hour (R387, R388). -/
structure Lane where
  sig : Tbl Word
  st : Tbl Word
  retired : Bool
  markedAt : Option Nat
  rebuiltAt : Option Nat
  marks : List Nat
  deriving DecidableEq, Repr

/-- A slot: 1 RUNNING, 3 FAULTED, 4 NONFINITE_PARKED as `LOOP_SLOT_STATUS` numbers them, its non-finite runs in a row and
its counters. -/
structure SlotRun where
  state : Nat
  nonfin : Nat
  runs : Nat
  bad : Nat
  deriving DecidableEq, Repr

/-- The loop engine: lanes and slots by number; the staged writes of host and firmware, oldest first; the faulted slots and
the signals set at the next boundary (R389, R729); slots that restart at it (R403); the voted copy of the signal store
(R379); the values latched by destination × 65,536 + item; the ticks since the sync period began and the length of a tick
that an edge or the late limit has ended (R394, R396); the queues whose SET_SIGNALS waits for the boundary; the groups
reported to the safety technologies (R389) and not yet acted on; each pair's compare value latched last (R400); and the slots whose run committed in the present tick (R384). -/
structure Loop where
  lanes : Tbl Lane
  slots : Tbl SlotRun
  staged : List (Nat × Word × Bool)
  toPark : List Nat
  toFix : List Nat
  toStart : List Nat
  copy : Tbl Word
  latch : Tbl Word
  syncPos : Nat
  ended : Option Nat
  waits : List Nat
  told : List Nat
  compare : Tbl Nat
  ran : List Nat
  deriving DecidableEq, Repr
/-! ## Position feedback (R437 to R463) -/

/-- A channel. Positions are in units of 2 to the −16 µm where a rule keeps fraction bits (`fused`, `ref`, `look`), else in
µm. `counts` are the hysteresis counts of the last 25 ticks, newest first; `edge1`, `edge2` the stamps of the last two
count edges in one direction; `known` whether the fused position has been set since start; `pend` the target that takes
effect at the next tick; `vane`, `zone`, `marker` the input levels; `rise`, `vaneRise` the fused position at the running
pulse's first edge; `seen` the mark last accepted in this pass; `since` the travel since the last accepted mark, `left`
and `ds` the travel over which a margin still applies and the margin (R458); `goods`, `goodTravel` what counts toward GOOD
(R454); `tape` the last accepted read with its stamp; `slipAt` fused position and motor count at the last correction that
counts (R453); `encAt`, `hallAt` the ticks of the errors of the last second; `latches` fused position and stamp by source
+ 8 × edge (0 rising). -/
structure PosCh where
  count : Int
  hyst : Int
  lag : Bool
  hdir : Int
  counts : List Int
  edge1 : Nat
  edge2 : Nat
  edir : Int
  fused : Int
  known : Bool
  ref : Int
  look : Int
  target : Int
  pend : Option Int
  slip : Rat
  vel : Rat
  mvel : Rat
  vane : Bool
  zone : Bool
  marker : Bool
  rise : Option Int
  vaneRise : Option Int
  seen : Option Int
  since : Int
  left : Int
  ds : Int
  goods : Nat
  goodTravel : Int
  tape : Option (Int × Nat)
  rejects : Nat
  far : Nat
  disagree : Bool
  rt : Rat
  slipAt : Option (Int × Int)
  encAt : List Nat
  hallAt : List Nat
  idxRun : Nat
  idxLast : Option Int
  emu : Int
  latches : Tbl (Int × Nat)
  atStart : Bool
  deriving DecidableEq, Repr
/-! ## Safety functions and safety communication (R513 to R566) -/

/-- A local safety input channel: its filtered level, and where it was found shorted the off-pulses followed since and how
far release (1) and actuation (2) have come (R518). -/
structure SafIn where
  high : Bool
  stuck : Option (Nat × Nat)
  deriving DecidableEq, Repr

/-- A safety function: its state as `SAF_FUNCTION_STATUS` numbers it, its demands, and the tick since which its input has
been clear (R529). -/
structure SafFn where
  state : Nat
  demands : Nat
  clearAt : Option Nat
  deriving DecidableEq, Repr

/-- A car as the safety technologies keep it: the position stored at the last brake drop (µm); whether a loop fault is
reported (R528), UCM or brake slip holds; the cause code of an overspeed that holds (R525), 0 none; whether the brake has dropped since the car entered the door zone
(R524); whether the Snowplough run has ended and the tick of its entry (R538); the tape speed; the ticks at which RUN, UP
and DOWN were actuated and whether a release is owed (R522). -/
structure SafCar where
  brakeAt : Option Int
  loopRep : Bool
  ucm : Bool
  slip : Bool
  excess : Nat
  zoneDrop : Bool
  runEnded : Bool
  entered : Nat
  tapeSpeed : Rat
  runAt : Option Nat
  upAt : Option Nat
  downAt : Option Nat
  owed : Bool
  deriving DecidableEq, Repr

/-- A safety connection by slot: its state and last cause (R557, R565), FAIL_SAFE entries, accepted DATA frames, the last
sequence accepted or sent, the last accepted frame, the start sequence, the frames accepted while CONFIRMING (in STARTING 1 once a start sequence is out), the data in
force, as producer the ticks at which the last sequences were sent, and the duplicates discarded (R554). -/
structure Conn where
  state : Nat
  cause : Nat
  fails : Nat
  accepted : Nat
  seq : Nat
  last : List Byte
  start : Nat
  confirms : Nat
  data : List Byte
  sent : List (Nat × Nat)
  dups : Nat
  deriving DecidableEq, Repr

/-- The safety side: inputs, the pairs in discrepancy fault by first channel, functions, cars, connections, the ticks of
mismatching confirmations (R543), the outputs that wait for their EDM input with what it must show (R531), the outputs
that a permit mismatch holds off (R535), and the mirror of R715: the registers and functions as last refreshed. -/
structure Saf where
  ins : Tbl SafIn
  disc : List Nat
  fns : Tbl SafFn
  cars : Tbl SafCar
  conns : Tbl Conn
  wrong : List Nat
  edm : Tbl Bool
  held : List Nat
  mirror : Tbl Word
  mirrorFns : Tbl SafFn
  deriving DecidableEq, Repr

/-! ## CAN buses and RS-485 lines (R587 to R605) -/

/-- A frame that waits in a transmit buffer (R593): its identifier (bit 31 set for an extended one), its format
(0 classical, 1 CAN FD, 2 CAN XL; a host's CAN FD frame with BRS 17), whether it is cyclic, whether it is sent at most once, and the queue whose CAN_TX asked
for it. -/
structure CanTx where
  id : Nat
  fmt : Nat
  data : List Byte
  cyclic : Bool
  once : Bool
  host : Option Nat
  deriving DecidableEq, Repr

/-- The standing set last sent to a drive (R591, R592): generation, content, the sequence it went under, and how often it
has been sent since the content was last acknowledged (0 once it is). -/
structure CanStanding where
  gen : Nat
  content : List Byte
  seq : Nat
  tries : Nat
  deriving DecidableEq, Repr

/-- A CAN bus: the pending frames in the order of their requests, the sequence counters by identifier, the entries of the
host receive queue that the host owns, whether a run of frames that meet a full queue lasts (R595), the sleep identifier
with the queue of BUS_SLEEP and the ticks of the commit and of a running wake (R599, R600), the queues that wait for the
wake and for recovery, and the standing sets by drive. -/
structure Mbc where
  tx : List CanTx
  seqs : Tbl Nat
  rx : List Nat
  run : Bool
  sleepId : Nat
  sleepQ : Option Nat
  commitAt : Option Nat
  wakeAt : Option Nat
  wakeQ : List Nat
  recoverQ : List Nat
  standing : Tbl CanStanding
  deriving DecidableEq, Repr

/-- A fixture's node on an RS-485 line (R603, R604): polls missed in a row, replies, the tick of its last poll, the
sequence of the message that heads its list and of the last message taken from it, whether that message is still to be
acknowledged, the messages that wait for it, and whether the first of them has been sent. -/
structure SerNode where
  missed : Nat
  replies : Nat
  polled : Nat
  txSeq : Nat
  rxSeq : Option Nat
  ack : Bool
  out : List (List Byte)
  sent : Bool
  deriving DecidableEq, Repr

/-- An RS-485 line: its nodes, the node last polled, whether its reply is awaited, the messages to every fixture, the tick
at which the running poll cycle began, and the ticks of the faulty frames of the last second (R617). -/
structure Ser where
  nodes : Tbl SerNode
  last : Option Nat
  waiting : Bool
  all : List (List Byte)
  allSeq : Nat
  began : Nat
  faults : List Nat
  deriving DecidableEq, Repr

/-! ## Car motion, doors and the lift group (R409 to R436, R464 to R486, R489 to R512) -/

/-- A car's motion beside its registers: the last direction of travel (0 none since start); whether the application has
ended the run requests of the present motion; the ticks at which the present motion state and the present move began; whether the car
stands after a ramped or hard stop (R472); the drive's last sequence, the valid frames since it was lost (R477) and the
values its last STATUS gave (R462); a running CORRECTION_RUN with its queue, direction and the motor count at its start;
the queues whose STOP_CAR waits for rest; the firmware signals last staged, by k of R462; the speed and acceleration
limits in force at the commit (R467); the reference speed of the run before; the landing at which the car has come to
rest level, until doors and group have acted on it; and the fused position of the tick before. -/
structure Car where
  dir : Int
  dropping : Bool
  since : Nat
  began : Nat
  stopped : Bool
  drvSeq : Option Nat
  drvGood : Nat
  drv : Tbl Word
  corr : Option (Nat × Int × Int)
  stopQ : List Nat
  fw : Tbl Word
  limit : Option (Rat × Rat)
  refSpeed : Rat
  arrived : Option Nat
  lastPos : Int
  creep : Bool
  deriving DecidableEq, Repr

/-- A door beside its registers: the drive's last sequence and the values its last STATUS gave (R493); the set-points of
the last servo periods, newest first; the tick since which the deviation (or the current) stands above its bound; the
dwell extension in s; the reopen input and the door-open button; obstructions of the present opening; lock failures of
the present stop; whether a hard stop or FAULT has ended set-point issue; the learned envelopes opening and closing, each
32 bins of mean current and number of moves (R502); the sum and count of |current| by bin of the present move and whether
it is unobstructed with the encoder available; whether an opening or closing that a close or open command asked for is
to be answered, by queue; and the firmware signals last staged. -/
structure Door where
  rxSeq : Option Nat
  drv : Tbl Word
  sps : List Rat
  overAt : Option Nat
  extend : Nat
  reopenIn : Bool
  button : Bool
  obstr : Nat
  locks : Nat
  hard : Bool
  envOpen : Tbl (Rat × Nat)
  envClose : Tbl (Rat × Nat)
  sums : Tbl (Rat × Nat)
  clean : Bool
  openQ : List Nat
  closeQ : List Nat
  stopQ : List Nat
  refQ : List Nat
  fw : Tbl Word
  held : Option Rat
  deriving DecidableEq, Repr

/-- A call (R409, R410): its kind, place and destination, the fixture it came from, the tick of its registration, its car,
its state as CALL_READ numbers it, whether its car has started toward it, whether its passenger is aboard, whether it is
ACCESSIBLE, and its wait in ms once it has ended or been picked up. -/
structure Call where
  kind : Nat
  landing : Nat
  entrance : Nat
  dest : Nat
  destEnt : Nat
  fixture : Option Nat
  since : Nat
  car : Option Nat
  state : Nat
  began : Bool
  aboard : Bool
  accessible : Bool
  stranded : Bool
  wait : Option Nat
  deriving DecidableEq, Repr

/-- A fixture as the group knows it (R415): the tick of its last valid message, whether it is lost, the buttons that it
holds pressed, those that are stuck, its status byte, and what the last INDICATE that followed a change has shown. -/
structure Fixt where
  heard : Option Nat
  lost : Bool
  pressed : List Nat
  stuck : List Nat
  status : Nat
  shown : List Byte
  deriving DecidableEq, Repr

/-- A car as the group keeps it (R416, R428): the service asked for (0 group, 1 out of group, 2 independent), whether its
in-car key is on, its fire state (0 none, 1 FIRE_RECALL, 2 FIREFIGHTER), its evacuation phase (0 free, 1 to a pick-up,
2 loading, 3 to discharge) with the pick-up landing, and the tick since which it stands IN_GROUP without calls. -/
structure GCar where
  service : Nat
  inCar : Bool
  fire : Nat
  phase : Nat
  pickup : Nat
  idleAt : Option Nat
  parked : Bool
  deriving DecidableEq, Repr

/-- The lift group: calls by identity, the next identity, fixtures, cars, whether the recall key is on; the waits (tick and ms) of calls served in the
last 300 s, the tick of the last refusal or release, the tick of the last evacuation start, the departures in a row with a light load
by landing, the CAR_SERVICE commands that wait for the cycle end, and whether EVAC_DESIGN_EXCEEDED has been posted; after a patch of
GROUP_POLICY the tick of its boundary with the records that the running cycle still uses (R67), and whether the calls are to be
reassigned at the end of this cycle (R429). -/
structure Grp where
  calls : Tbl Call
  nextId : Nat
  fx : Tbl Fixt
  cars : Tbl GCar
  fireRecall : Bool
  waits : List (Nat × Nat)
  limitedAt : Option Nat
  lastStart : Option Nat
  light : Tbl Nat
  serviceQ : List (Nat × Nat)
  design : Bool
  oldPolicy : Option (Nat × List CfgRec)
  regroup : Bool
  deriving DecidableEq, Repr
/-! ## Field inputs and outputs (R567 to R586) -/

/-- A field input: its filtered state after INVERT, its filtered changes since start, and its current in units of 10 µA. -/
structure FioIn where
  filt : Bool
  edges : Nat
  current : Nat
  deriving DecidableEq, Repr

/-- A field output: its last protection cause, the ticks of its retries in the last 60 s, the energy of its last switch-off
in mJ, the tick at which it was last switched on, and its current in mA. -/
structure FioOut where
  cause : Nat
  retries : List Nat
  demag : Nat
  onAt : Nat
  current : Nat
  deriving DecidableEq, Repr

/-- The field side: inputs, outputs, and the output groups in an overload episode (R579). -/
structure Fio where
  ins : Tbl FioIn
  outs : Tbl FioOut
  excess : List Nat
  deriving DecidableEq, Repr
/-! ## Acquisition (R623 to R642) -/

/-- A source that may trigger acquisition (R630): its kind, its argument, its edge, the event's code and instance, and its
stamp in the units of R448. -/
structure AcqEv where
  kind : Nat
  arg : Nat
  up : Bool
  code : Nat
  inst : Nat
  stamp : Nat
  deriving DecidableEq, Repr

/-- A condition that has fired (R630): its number, for LEVEL and WINDOW the channel and the level crossed, the stamp of its
source where it has one, and its requester class. -/
structure AcqHit where
  cond : Nat
  cross : Option (Nat × Rat)
  stamp : Option Nat
  tclass : Nat
  deriving DecidableEq, Repr

/-- A trigger that has claimed a buffer and waits for the frame it falls in: the conditions fired within that frame (R633),
none for the host and the auto timeout; the class of the claim and its record sequence. -/
structure AcqDue where
  hits : List AcqHit
  tclass : Nat
  seq : Nat
  deriving DecidableEq, Repr

/-- A record in a segment (R628): its status (0 while it is being written), header figures, the frames oldest first, the
frames written in all, the stamps of the last three frames, the frame at which the longer period began, and what the host
owns and has measured. `refine` is the crossing that one more sample will place (R632). -/
structure AcqRec where
  status : Nat
  tclass : Nat
  seq : Nat
  conds : Nat
  flags : Nat
  stamp : Nat
  pos : Nat
  total : Nat
  period : Nat
  change : Option Nat
  frames : List (List Word)
  stamps : List Nat
  refine : Option (Nat × Rat)
  owned : Bool
  meas : Option (List (List Word))
  deriving DecidableEq, Repr

/-- A buffer (R634): its state, the segment being written, its record in progress, the frames that a triggered record still
takes, the trigger that has claimed it, the kept records by segment, whether Glide stopped it, and per condition whether
its channel has been below and above the hysteresis and inside the window. -/
structure AcqBuf where
  state : Nat
  seg : Nat
  cur : AcqRec
  left : Nat
  due : Option AcqDue
  segs : Tbl AcqRec
  halted : Bool
  judge : Tbl (Bool × Bool × Bool)
  deriving DecidableEq, Repr

/-- The acquisition engine: buffers, the next record sequence, the sources not yet judged, and which signals of
LOOP_SIGNAL conditions were other than 0 at the last lane exchange. -/
structure Acq where
  bufs : Tbl AcqBuf
  nextSeq : Nat
  heard : List AcqEv
  sigs : List Nat
  deriving DecidableEq, Repr
/-! ## Networks (R606 to R614) -/

/-- The Ethernet side beside its registers: the sequences of the PRP supervision frame and of PTP messages by port, the
clock quality by which the parent was chosen (R611: priority1, class, accuracy, variance, priority2, identity, steps), and
the Modbus points as last refreshed (R613); and the tick at which the ports came up. -/
structure Net where
  prpSeq : Nat
  ptpSeq : Tbl Nat
  parent : Option (List Nat)
  points : List Nat
  began : Nat
  deriving DecidableEq, Repr
/-! ## The whole state -/

/-- The state of the Turid. `free` counts the draws of free values and belongs to the model (log 2); `out` lists what
has been sent, newest first; `pending` is the queue of commands that wait, first in first out. -/
structure State where
  regs : Tbl Word
  nv : Nv
  boll : Bollard
  hq : Hq
  man : Man
  pwr : Pwr
  recu : RecU
  sec : Sec
  xng : Xng
  est : Est
  prot : Prot
  disp : Disp
  loop : Loop
  pos : Tbl PosCh
  saf : Saf
  mbc : Tbl Mbc
  ser : Tbl Ser
  car : Tbl Car
  door : Tbl Door
  grp : Grp
  fio : Fio
  acq : Acq
  net : Net
  out : List Out
  free : Nat
  pending : List Instr
  deriving DecidableEq, Repr

/-- Non-volatile memory as manufacture leaves it: nothing written (design choice, log 4). -/
def Nv.blank : Nv :=
  { boot := ⟨0, 0, [], 0, 0, true, none, none, true⟩, slots := [], fwA := ⟨true, 0, 0⟩, fwB := ⟨false, 0, 0⟩, keys := [],
    plantId := none, maxGen := 0, keySeq := 0, revoked := [], log := [], reserve := [], ledger := [], appendMark := 0,
    ckpt := [], billing := [], billOpen := none, billSeq := 0, pcsLast := [], intentStr := [], intentCon := [] }

/-- The four event queues as they begin (R182). -/
def Hq.fresh : Hq :=
  { sessions := [], nextUid := 0, nextId := 0, cq := [], running := [], eq := [], srcSeq := [], fences := [], fwSel := [], mooring := none }

/-- The machine right after reset: every register at the value its Reset column states (R716), the rails coming up. -/
def State.reset : State :=
  { regs := [], nv := Nv.blank,
    boll := { phase := .power, attempt := false, settled := true, byLoss := false, cause := 0x0100,
              tamperWait := false, toRecovery := false, ended := none },
    hq := Hq.fresh,
    man := ⟨[], none, none, none, none⟩,
    pwr := ⟨false, false, 0, 0, 0, none, 0, [], none, 0, 0⟩,
    recu := ⟨none, none, none, [], 0, []⟩,
    sec := ⟨[], none, none, []⟩,
    xng := ⟨[], [], [], [], [], ⟨[], []⟩, []⟩,
    est := ⟨[], [], [], none, none, [], [], [], none, 0, [], ⟨[], []⟩⟩,
    prot := ⟨[], []⟩,
    disp := ⟨[], [], 0, false, 0, 0, false, false, none, [], 0, false⟩,
    loop := ⟨[(0, ⟨[], [], false, none, none, []⟩), (1, ⟨[], [], false, none, none, []⟩), (2, ⟨[], [], false, none, none, []⟩)], [], [], [], [], [], [], [], 0, none, [], [], [], []⟩,
    pos := [],
    saf := ⟨[], [], [], [], [], [], [], [], [], []⟩,
    mbc := [],
    ser := [],
    car := [],
    door := [],
    grp := ⟨[], 1, [], [], false, [], none, none, [], [], false, none, false⟩,
    fio := ⟨[], [], []⟩,
    acq := ⟨[], 0, [], []⟩,
    net := ⟨0, [], none, [], 0⟩,
    out := [], free := 0, pending := [] }

end Sys2Proof.Machine
end

