-- ==== Sys2Proof/Machine/Events.lean ====
section
/-!
DEFINITION. The events of every chapter with their codes, queues and recorder marks, and the commands with the roles
that may push them.
-/
namespace Sys2Proof.Machine
open Sys2Proof

/-- An event: its code (R175, R182), its queue, and whether the same occurrence writes a recorder entry (R647). -/
structure EvDef where
  code : Nat
  queue : Nat
  recorded : Bool
  deriving DecidableEq, Repr

namespace Ev
/-- R183, event 0x0001. -/
def MOORING_ENTERED : EvDef := ⟨0x0001, 0, false⟩
/-- R183, event 0x0301. -/
def PATCH_APPLIED : EvDef := ⟨0x0301, 1, true⟩
/-- R183, event 0x0302. -/
def PATCH_REFUSED : EvDef := ⟨0x0302, 1, false⟩
/-- R243, event 0x0501. -/
def RING_BREAK : EvDef := ⟨0x0501, 0, false⟩
/-- R243, event 0x0502. -/
def RING_HEALED : EvDef := ⟨0x0502, 1, false⟩
/-- R243, event 0x0503. -/
def RATE_REDUCED : EvDef := ⟨0x0503, 0, false⟩
/-- R243, event 0x0504. -/
def RATE_RESTORED : EvDef := ⟨0x0504, 1, false⟩
/-- R243, event 0x0505. -/
def NODE_JOINED : EvDef := ⟨0x0505, 2, false⟩
/-- R243, event 0x0506. -/
def NODE_QUARANTINED : EvDef := ⟨0x0506, 1, false⟩
/-- R243, event 0x0507. -/
def NODE_LOST : EvDef := ⟨0x0507, 0, false⟩
/-- R243, event 0x0508. -/
def NODE_LEFT : EvDef := ⟨0x0508, 1, false⟩
/-- R243, event 0x0509. -/
def RING_SLEPT : EvDef := ⟨0x0509, 2, false⟩
/-- R243, event 0x050A. -/
def RING_WOKE : EvDef := ⟨0x050A, 2, false⟩
/-- R243, event 0x050B. -/
def HOP_FALLBACK : EvDef := ⟨0x050B, 1, false⟩
/-- R287, event 0x0601. -/
def SHORT_SUSPECT : EvDef := ⟨0x0601, 0, true⟩
/-- R287, event 0x0602. -/
def ANCHOR_APPLIED : EvDef := ⟨0x0602, 2, false⟩
/-- R287, event 0x0603. -/
def STRING_TRACKING : EvDef := ⟨0x0603, 2, false⟩
/-- R287, event 0x0604. -/
def CHECKPOINT_WRITTEN : EvDef := ⟨0x0604, 3, false⟩
/-- R287, event 0x0605. -/
def CHECKPOINT_FAILED : EvDef := ⟨0x0605, 1, true⟩
/-- R287, event 0x0606. -/
def PIPELINE_RETIRED : EvDef := ⟨0x0606, 0, true⟩
/-- R287, event 0x0607. -/
def NO_CHECKED_PAIR : EvDef := ⟨0x0607, 0, true⟩
/-- R287, event 0x0608. -/
def RESTORE_APPLIED : EvDef := ⟨0x0608, 1, true⟩
/-- R287, event 0x0609. -/
def CAPACITY_OUTLIER : EvDef := ⟨0x0609, 2, false⟩
/-- R318, event 0x0701. -/
def STRING_STATE : EvDef := ⟨0x0701, 1, false⟩
/-- R318, event 0x0702. -/
def STRING_TRIPPED : EvDef := ⟨0x0702, 0, true⟩
/-- R318, event 0x0703. -/
def STRING_MISSING : EvDef := ⟨0x0703, 0, true⟩
/-- R318, event 0x0704. -/
def STRING_RETURNED : EvDef := ⟨0x0704, 1, true⟩
/-- R318, event 0x0705. -/
def CONTAINER_STATE : EvDef := ⟨0x0705, 1, false⟩
/-- R318, event 0x0706. -/
def BREAKER_TRIPPED : EvDef := ⟨0x0706, 0, true⟩
/-- R318, event 0x0707. -/
def FIRE_INTERLOCK : EvDef := ⟨0x0707, 0, true⟩
/-- R318, event 0x0708. -/
def THERMAL_FAULT : EvDef := ⟨0x0708, 1, true⟩
/-- R318, event 0x0709. -/
def NODE_LIMIT_TRIP : EvDef := ⟨0x0709, 0, true⟩
/-- R318, event 0x070A. -/
def DIRECTION_BLOCKED : EvDef := ⟨0x070A, 1, false⟩
/-- R359, event 0x0720. -/
def SOURCE_FALLBACK : EvDef := ⟨0x0720, 0, true⟩
/-- R359, event 0x0721. -/
def SOURCE_RESTORED : EvDef := ⟨0x0721, 1, false⟩
/-- R359, event 0x0722. -/
def RESERVE_LOW : EvDef := ⟨0x0722, 1, false⟩
/-- R359, event 0x0723. -/
def RESERVE_BREACHED : EvDef := ⟨0x0723, 0, true⟩
/-- R359, event 0x0724. -/
def MAINS_LOST : EvDef := ⟨0x0724, 0, true⟩
/-- R359, event 0x0725. -/
def MAINS_RESTORED : EvDef := ⟨0x0725, 1, true⟩
/-- R359, event 0x0726. -/
def EVACUATION_ENTERED : EvDef := ⟨0x0726, 0, true⟩
/-- R359, event 0x0727. -/
def EVACUATION_ENDED : EvDef := ⟨0x0727, 0, true⟩
/-- R359, event 0x0728. -/
def PCS_LIVE : EvDef := ⟨0x0728, 2, false⟩
/-- R359, event 0x0729. -/
def PCS_LOST : EvDef := ⟨0x0729, 0, true⟩
/-- R359, event 0x072A. -/
def INTERVAL_CLOSED : EvDef := ⟨0x072A, 3, false⟩
/-- R359, event 0x072B. -/
def DISPATCH_STALE : EvDef := ⟨0x072B, 0, true⟩
/-- R404, event 0x0801. -/
def LANE_MISMATCH : EvDef := ⟨0x0801, 2, false⟩
/-- R404, event 0x0802. -/
def LANE_REBUILT : EvDef := ⟨0x0802, 2, false⟩
/-- R404, event 0x0803. -/
def LANE_RETIRED : EvDef := ⟨0x0803, 0, true⟩
/-- R404, event 0x0804. -/
def LOOP_FAULT : EvDef := ⟨0x0804, 0, true⟩
/-- R404, event 0x0805. -/
def SLOT_NONFINITE : EvDef := ⟨0x0805, 1, false⟩
/-- R404, event 0x0806. -/
def SLOT_PARKED : EvDef := ⟨0x0806, 0, true⟩
/-- R404, event 0x0807. -/
def SLOT_RECOVERED : EvDef := ⟨0x0807, 1, false⟩
/-- R404, event 0x0808. -/
def SYNC_STATE : EvDef := ⟨0x0808, 1, true⟩
/-- R404, event 0x0809. -/
def ENGINE_HALTED : EvDef := ⟨0x0809, 0, true⟩
/-- R404, event 0x0901. -/
def PWM_FAULT : EvDef := ⟨0x0901, 0, true⟩
/-- R434, event 0x0A01. -/
def CALL_REFUSED : EvDef := ⟨0x0A01, 2, false⟩
/-- R434, event 0x0A02. -/
def CALLS_RELEASED : EvDef := ⟨0x0A02, 1, false⟩
/-- R434, event 0x0A03. -/
def CAR_LEFT_GROUP : EvDef := ⟨0x0A03, 1, true⟩
/-- R434, event 0x0A04. -/
def CAR_JOINED_GROUP : EvDef := ⟨0x0A04, 2, false⟩
/-- R434, event 0x0A05. -/
def CALL_STRANDED : EvDef := ⟨0x0A05, 1, false⟩
/-- R434, event 0x0A06. -/
def FIXTURE_LOST : EvDef := ⟨0x0A06, 1, false⟩
/-- R434, event 0x0A07. -/
def BUTTON_STUCK : EvDef := ⟨0x0A07, 2, false⟩
/-- R434, event 0x0A08. -/
def FIRE_RECALL : EvDef := ⟨0x0A08, 0, true⟩
/-- R434, event 0x0A09. -/
def EVAC_DISPATCH_STARTED : EvDef := ⟨0x0A09, 0, true⟩
/-- R434, event 0x0A0A. -/
def EVAC_DESIGN_EXCEEDED : EvDef := ⟨0x0A0A, 0, true⟩
/-- R483, event 0x0B01. -/
def ARRIVED : EvDef := ⟨0x0B01, 3, false⟩
/-- R483, event 0x0B02. -/
def RELEVELLED : EvDef := ⟨0x0B02, 2, false⟩
/-- R483, event 0x0B03. -/
def STOP_RAMPED : EvDef := ⟨0x0B03, 0, true⟩
/-- R483, event 0x0B04. -/
def STOP_HARD : EvDef := ⟨0x0B04, 0, true⟩
/-- R483, event 0x0B05. -/
def TERMINAL_SLOWDOWN : EvDef := ⟨0x0B05, 0, true⟩
/-- R483, event 0x0B06. -/
def DRIVE_LOST : EvDef := ⟨0x0B06, 0, true⟩
/-- R484, event 0x0D01. -/
def QUALITY_CHANGED : EvDef := ⟨0x0D01, 0, true⟩
/-- R484, event 0x0D02. -/
def MARK_MISSED : EvDef := ⟨0x0D02, 2, false⟩
/-- R484, event 0x0D03. -/
def MARK_FALSE : EvDef := ⟨0x0D03, 2, false⟩
/-- R484, event 0x0D04. -/
def SOURCE_FAULT : EvDef := ⟨0x0D04, 0, true⟩
/-- R484, event 0x0D05. -/
def COUNTER_WRAP : EvDef := ⟨0x0D05, 1, true⟩
/-- R484, event 0x0D06. -/
def SLIP_HIGH : EvDef := ⟨0x0D06, 1, true⟩
/-- R510, event 0x0C01. -/
def OBSTRUCTION : EvDef := ⟨0x0C01, 2, false⟩
/-- R510, event 0x0C02. -/
def NUDGE_STARTED : EvDef := ⟨0x0C02, 1, false⟩
/-- R510, event 0x0C03. -/
def LOCK_FAILED : EvDef := ⟨0x0C03, 0, true⟩
/-- R510, event 0x0C04. -/
def REFERENCE_LOST : EvDef := ⟨0x0C04, 1, true⟩
/-- R510, event 0x0C05. -/
def REFERENCED : EvDef := ⟨0x0C05, 2, false⟩
/-- R510, event 0x0C06. -/
def DOOR_DRIVE_LOST : EvDef := ⟨0x0C06, 0, true⟩
/-- R510, event 0x0C07. -/
def DOOR_STOPPED : EvDef := ⟨0x0C07, 1, false⟩
/-- R546, event 0x0E01. -/
def SAFETY_TRIP : EvDef := ⟨0x0E01, 0, true⟩
/-- R546, event 0x0E02. -/
def SNOWPLOUGH_ENTERED : EvDef := ⟨0x0E02, 0, true⟩
/-- R546, event 0x0E03. -/
def SAFE_LATCHED : EvDef := ⟨0x0E03, 0, true⟩
/-- R546, event 0x0E04. -/
def REPAIR_ACKNOWLEDGED : EvDef := ⟨0x0E04, 1, true⟩
/-- R546, event 0x0E05. -/
def INPUT_FAULT : EvDef := ⟨0x0E05, 1, true⟩
/-- R546, event 0x0E06. -/
def SAFETY_CONFIRMED : EvDef := ⟨0x0E06, 1, true⟩
/-- R546, event 0x0E07. -/
def CONFIRM_REFUSED : EvDef := ⟨0x0E07, 1, true⟩
/-- R566, event 0x0E08. -/
def CONNECTION_FAILSAFE : EvDef := ⟨0x0E08, 0, true⟩
/-- R566, event 0x0E09. -/
def CONNECTION_RUNNING : EvDef := ⟨0x0E09, 1, false⟩
/-- R584, event 0x0F01. -/
def INPUT_CHANGED : EvDef := ⟨0x0F01, 2, false⟩
/-- R584, event 0x0F02. -/
def WIRE_BREAK : EvDef := ⟨0x0F02, 0, true⟩
/-- R584, event 0x0F03. -/
def WIRE_RESTORED : EvDef := ⟨0x0F03, 1, false⟩
/-- R584, event 0x0F04. -/
def OUTPUT_FAULT : EvDef := ⟨0x0F04, 1, true⟩
/-- R584, event 0x0F05. -/
def GROUP_OVERLOAD : EvDef := ⟨0x0F05, 1, true⟩
/-- R584, event 0x0F06. -/
def OPEN_LOAD : EvDef := ⟨0x0F06, 2, false⟩
/-- R584, event 0x0F07. -/
def FIELD_LINK_LOST : EvDef := ⟨0x0F07, 0, true⟩
/-- R584, event 0x0F08. -/
def LPLUS_LOW : EvDef := ⟨0x0F08, 1, true⟩
/-- R617, event 0x1001. -/
def BUS_OFF : EvDef := ⟨0x1001, 0, true⟩
/-- R617, event 0x1002. -/
def BUS_RECOVERED : EvDef := ⟨0x1002, 1, false⟩
/-- R617, event 0x1003. -/
def ERROR_PASSIVE : EvDef := ⟨0x1003, 1, false⟩
/-- R617, event 0x1004. -/
def CAN_RX : EvDef := ⟨0x1004, 2, false⟩
/-- R617, event 0x1005. -/
def RX_OVERFLOW : EvDef := ⟨0x1005, 1, false⟩
/-- R617, event 0x1006. -/
def BUS_SLEPT : EvDef := ⟨0x1006, 2, false⟩
/-- R617, event 0x1007. -/
def BUS_WOKE : EvDef := ⟨0x1007, 2, false⟩
/-- R617, event 0x1008. -/
def STANDING_UNACKED : EvDef := ⟨0x1008, 1, true⟩
/-- R617, event 0x1101. -/
def LINE_FAULT : EvDef := ⟨0x1101, 1, true⟩
/-- R617, event 0x1201. -/
def LINK_CHANGE : EvDef := ⟨0x1201, 1, false⟩
/-- R617, event 0x1202. -/
def PTP_STATE : EvDef := ⟨0x1202, 1, true⟩
/-- R617, event 0x1203. -/
def PRP_LAN_FAULT : EvDef := ⟨0x1203, 0, true⟩
/-- R617, event 0x1204. -/
def MODBUS_WRITE : EvDef := ⟨0x1204, 2, true⟩
/-- R617, event 0x1205. -/
def ADDRESS_CONFLICT : EvDef := ⟨0x1205, 1, true⟩
/-- R640, event 0x1301. -/
def RECORD_COMPLETE : EvDef := ⟨0x1301, 2, false⟩
/-- R640, event 0x1302. -/
def RECORD_ABORTED : EvDef := ⟨0x1302, 1, false⟩
/-- R640, event 0x1303. -/
def TRIGGER_REFUSED : EvDef := ⟨0x1303, 1, true⟩
/-- R640, event 0x1304. -/
def AUTO_TRIGGERED : EvDef := ⟨0x1304, 3, false⟩
/-- R662, event 0x1401. -/
def LOG_HIGH : EvDef := ⟨0x1401, 1, true⟩
/-- R662, event 0x1402. -/
def LOG_FULL : EvDef := ⟨0x1402, 0, true⟩
/-- R662, event 0x1403. -/
def LOG_CLEARED : EvDef := ⟨0x1403, 1, true⟩
/-- R662, event 0x1404. -/
def EXPORT_DATA : EvDef := ⟨0x1404, 3, false⟩
/-- R662, event 0x1405. -/
def EXPORT_DONE : EvDef := ⟨0x1405, 2, false⟩
/-- R662, event 0x1406. -/
def RETURN_PREPARED : EvDef := ⟨0x1406, 0, true⟩
/-- R686, event 0x0201. -/
def TAMPER : EvDef := ⟨0x0201, 0, true⟩
/-- R686, event 0x0202. -/
def LIFECYCLE_CHANGED : EvDef := ⟨0x0202, 0, true⟩
/-- R686, event 0x0203. -/
def DEBUG_OPENED : EvDef := ⟨0x0203, 1, true⟩
/-- R686, event 0x0204. -/
def DEBUG_CLOSED : EvDef := ⟨0x0204, 1, true⟩
/-- R686, event 0x0205. -/
def HALT_DEFERRED : EvDef := ⟨0x0205, 1, false⟩
/-- R686, event 0x0206. -/
def KEY_UPDATED : EvDef := ⟨0x0206, 0, true⟩
/-- R686, event 0x0207. -/
def NODE_ENROLLED : EvDef := ⟨0x0207, 2, true⟩
/-- R686, event 0x0208. -/
def CERT_REJECTED : EvDef := ⟨0x0208, 1, true⟩
end Ev

/-- The commands: code and the role bits that a session must all hold to push it (R155, R159 and the command tables). -/
def cmdTable : List (Nat × Nat) :=
  [(0x0501, 2) /- NODE_READ R242 -/,
   (0x0502, 4) /- NODE_WRITE R242 -/,
   (0x0503, 2) /- REDISCOVER R242 -/,
   (0x0504, 4) /- RING_SLEEP R242 -/,
   (0x0505, 2) /- RING_WAKE R242 -/,
   (0x0506, 4) /- REAUTHENTICATE R242 -/,
   (0x0601, 2) /- CHECKPOINT R286 -/,
   (0x0602, 2) /- STRING_FIGURES R286 -/,
   (0x0603, 4) /- REINITIALISE R286 -/,
   (0x0604, 4) /- RESET_LEARNED R286 -/,
   (0x0605, 2) /- CLEAR_SHORT R286 -/,
   (0x0701, 2) /- STRING_CLOSE R316 -/,
   (0x0702, 2) /- STRING_OPEN R316 -/,
   (0x0703, 2) /- CONTAINER_CLOSE R316 -/,
   (0x0704, 2) /- CONTAINER_OPEN R316 -/,
   (0x0705, 4) /- RESET_TRIP R316 -/,
   (0x0706, 2) /- THERMAL_MODE R316 -/,
   (0x0720, 2) /- SCHEDULE_ADD R358 -/,
   (0x0721, 2) /- SCHEDULE_CLEAR R358 -/,
   (0x0722, 2) /- BILLING_READ R358 -/,
   (0x0801, 2) /- SET_SIGNALS R403 -/,
   (0x0802, 4) /- RESTART_SLOT R403 -/,
   (0x0A01, 2) /- HOST_CALL R433 -/,
   (0x0A02, 2) /- CANCEL_CALL R433 -/,
   (0x0A03, 2) /- CAR_SERVICE R433 -/,
   (0x0A04, 4) /- EVAC_CALL R433 -/,
   (0x0A05, 2) /- CALL_READ R433 -/,
   (0x0B01, 2) /- STOP_CAR R482 -/,
   (0x0B02, 4) /- CORRECTION_RUN R482 -/,
   (0x0C01, 2) /- DOOR_OPEN R509 -/] ++
  [(0x0C02, 2) /- DOOR_CLOSE R509 -/,
   (0x0C03, 2) /- DOOR_STOP R509 -/,
   (0x0C04, 4) /- DOOR_REFERENCE R509 -/,
   (0x0C05, 2) /- DOOR_HOLD_OPEN R509 -/,
   (0x0E01, 2) /- CONNECTION_READ R565 -/,
   (0x0F01, 4) /- OUTPUT_RESET R583 -/,
   (0x1001, 2) /- CAN_TX R615 -/,
   (0x1002, 2) /- CAN_TX_CANCEL R615 -/,
   (0x1003, 4) /- BUS_SLEEP R615 -/,
   (0x1004, 2) /- BUS_WAKE R615 -/,
   (0x1005, 4) /- BUS_RECOVER R615 -/,
   (0x1301, 2) /- ARM R639 -/,
   (0x1302, 2) /- DISARM R639 -/,
   (0x1303, 2) /- FORCE_TRIGGER R639 -/,
   (0x1304, 2) /- RELEASE R639 -/,
   (0x1305, 1) /- MEASURE_READ R639 -/,
   (0x1401, 2) /- EXPORT R661 -/,
   (0x1402, 2) /- EXPORT_STOP R661 -/,
   (0x1403, 8) /- CLEAR_LOG R661 -/,
   (0x1404, 12) /- RETURN_PREPARE R661 -/,
   (0x1405, 4) /- RETURN_COMMIT R661 -/,
   (0x0201, 20) /- PROVISION R685 -/,
   (0x0202, 20) /- SEAL R685 -/,
   (0x0203, 20) /- RESET_COMMISSIONING R685 -/,
   (0x0204, 4) /- KEY_UPDATE R685 -/,
   (0x0205, 4) /- REVOKE R685 -/,
   (0x0206, 4) /- DEBUG_OPEN R685 -/,
   (0x0207, 4) /- DEBUG_CLOSE R685 -/,
   (0x0208, 4) /- ENROL_NODE R685 -/,
   (0x0209, 4) /- READ_NODE_REQUEST R685 -/] ++
  [(0x020A, 4) /- FIRMWARE_UPDATE R685 -/]
/-- The role bits of a command code; none for a code that no table defines. -/
def cmdRole (code : Nat) : Option Nat := (cmdTable.find? (·.1 == code)).map (·.2)
namespace CmdCode
/-- R242, command 0x0501. -/
def nodeReadCode : Nat := 0x0501
/-- R242, command 0x0502. -/
def nodeWriteCode : Nat := 0x0502
/-- R242, command 0x0503. -/
def rediscoverCode : Nat := 0x0503
/-- R242, command 0x0504. -/
def ringSleepCode : Nat := 0x0504
/-- R242, command 0x0505. -/
def ringWakeCode : Nat := 0x0505
/-- R242, command 0x0506. -/
def reauthenticateCode : Nat := 0x0506
/-- R286, command 0x0601. -/
def checkpointCode : Nat := 0x0601
/-- R286, command 0x0602. -/
def stringFiguresCode : Nat := 0x0602
/-- R286, command 0x0603. -/
def reinitialiseCode : Nat := 0x0603
/-- R286, command 0x0604. -/
def resetLearnedCode : Nat := 0x0604
/-- R286, command 0x0605. -/
def clearShortCode : Nat := 0x0605
/-- R316, command 0x0701. -/
def stringCloseCode : Nat := 0x0701
/-- R316, command 0x0702. -/
def stringOpenCode : Nat := 0x0702
/-- R316, command 0x0703. -/
def containerCloseCode : Nat := 0x0703
/-- R316, command 0x0704. -/
def containerOpenCode : Nat := 0x0704
/-- R316, command 0x0705. -/
def resetTripCode : Nat := 0x0705
/-- R316, command 0x0706. -/
def thermalModeCode : Nat := 0x0706
/-- R358, command 0x0720. -/
def scheduleAddCode : Nat := 0x0720
/-- R358, command 0x0721. -/
def scheduleClearCode : Nat := 0x0721
/-- R358, command 0x0722. -/
def billingReadCode : Nat := 0x0722
/-- R403, command 0x0801. -/
def setSignalsCode : Nat := 0x0801
/-- R403, command 0x0802. -/
def restartSlotCode : Nat := 0x0802
/-- R433, command 0x0A01. -/
def hostCallCode : Nat := 0x0A01
/-- R433, command 0x0A02. -/
def cancelCallCode : Nat := 0x0A02
/-- R433, command 0x0A03. -/
def carServiceCode : Nat := 0x0A03
/-- R433, command 0x0A04. -/
def evacCallCode : Nat := 0x0A04
/-- R433, command 0x0A05. -/
def callReadCode : Nat := 0x0A05
/-- R482, command 0x0B01. -/
def stopCarCode : Nat := 0x0B01
/-- R482, command 0x0B02. -/
def correctionRunCode : Nat := 0x0B02
/-- R509, command 0x0C01. -/
def doorOpenCode : Nat := 0x0C01
/-- R509, command 0x0C02. -/
def doorCloseCode : Nat := 0x0C02
/-- R509, command 0x0C03. -/
def doorStopCode : Nat := 0x0C03
/-- R509, command 0x0C04. -/
def doorReferenceCode : Nat := 0x0C04
/-- R509, command 0x0C05. -/
def doorHoldOpenCode : Nat := 0x0C05
/-- R565, command 0x0E01. -/
def connectionReadCode : Nat := 0x0E01
/-- R583, command 0x0F01. -/
def outputResetCode : Nat := 0x0F01
/-- R615, command 0x1001. -/
def canTxCode : Nat := 0x1001
/-- R615, command 0x1002. -/
def canTxCancelCode : Nat := 0x1002
/-- R615, command 0x1003. -/
def busSleepCode : Nat := 0x1003
/-- R615, command 0x1004. -/
def busWakeCode : Nat := 0x1004
/-- R615, command 0x1005. -/
def busRecoverCode : Nat := 0x1005
/-- R639, command 0x1301. -/
def armCode : Nat := 0x1301
/-- R639, command 0x1302. -/
def disarmCode : Nat := 0x1302
/-- R639, command 0x1303. -/
def forceTriggerCode : Nat := 0x1303
/-- R639, command 0x1304. -/
def releaseCode : Nat := 0x1304
/-- R639, command 0x1305. -/
def measureReadCode : Nat := 0x1305
/-- R661, command 0x1401. -/
def exportCode : Nat := 0x1401
/-- R661, command 0x1402. -/
def exportStopCode : Nat := 0x1402
/-- R661, command 0x1403. -/
def clearLogCode : Nat := 0x1403
/-- R661, command 0x1404. -/
def returnPrepareCode : Nat := 0x1404
/-- R661, command 0x1405. -/
def returnCommitCode : Nat := 0x1405
/-- R685, command 0x0201. -/
def provisionCode : Nat := 0x0201
/-- R685, command 0x0202. -/
def sealCode : Nat := 0x0202
/-- R685, command 0x0203. -/
def resetCommissioningCode : Nat := 0x0203
/-- R685, command 0x0204. -/
def keyUpdateCode : Nat := 0x0204
/-- R685, command 0x0205. -/
def revokeCode : Nat := 0x0205
/-- R685, command 0x0206. -/
def debugOpenCode : Nat := 0x0206
/-- R685, command 0x0207. -/
def debugCloseCode : Nat := 0x0207
/-- R685, command 0x0208. -/
def enrolNodeCode : Nat := 0x0208
/-- R685, command 0x0209. -/
def readNodeRequestCode : Nat := 0x0209
/-- R685, command 0x020A. -/
def firmwareUpdateCode : Nat := 0x020A
end CmdCode
end Sys2Proof.Machine
end

