-- ==== Sys2Proof/Machine/Regs.lean ====
section
/-!
DEFINITION. The register map of R713 to R721 and of the register tables of every chapter: the address of
each register and the place of each of its fields, by the names the spec gives them, and for each register the
bits that its access codes (R7) make writable, its Reset column (R716) and which of its counters count since start.
-/
namespace Sys2Proof.Machine

/-- A field of a register: the byte address of the 32-bit register, the lowest bit, the number of bits. -/
structure Fld where
  addr : Nat
  lo : Nat
  width : Nat
  deriving DecidableEq, Repr

/-- What the register tables say of one register, or of a repeated register of `n` instances `stride` bytes apart.
`keep` is the source that its Reset column names (R716): 0 a value, taken at power good; 1 the Bollard domain;
2 fuses, stores, regions and slots; 3 a value formed again in every start. `since` marks the counters since start. -/
structure Desc where
  addr : Nat
  stride : Nat
  n : Nat
  rw : Nat
  w1c : Nat
  rc : Nat
  wo : Nat
  rwl : Nat
  rst : Nat
  keep : Nat
  since : Nat
  deriving DecidableEq, Repr

/-- The address of instance `i` of a repeated register of `n` instances. An instance that the Turid does not have is no
register: it stands above every address of the map (R714), where nothing is read. -/
def inst (base stride n i : Nat) : Nat := if i < n then base + stride * i else 0x100000000

namespace R

-- block MAN
/-- R79 (02). -/
def MAN_FORMAT : Fld := ⟨0x30000, 0, 32⟩
/-- R79 (02). -/
def MAN_STATUS : Fld := ⟨0x30004, 0, 32⟩
/-- R80 [5:5], RO. -/
def MAN_STATUS_SAFETY_UNCONFIRMED : Fld := ⟨0x30004, 5, 1⟩
/-- R80 [4:4], RO. -/
def MAN_STATUS_FROM_STANDBY : Fld := ⟨0x30004, 4, 1⟩
/-- R80 [3:3], RO. -/
def MAN_STATUS_STAGING : Fld := ⟨0x30004, 3, 1⟩
/-- R80 [2:2], RO. -/
def MAN_STATUS_LOADED : Fld := ⟨0x30004, 2, 1⟩
/-- R80 [0:0], RO. -/
def MAN_STATUS_LOADED_SLOT : Fld := ⟨0x30004, 0, 1⟩
/-- R79 (02). -/
def MAN_CONTROL : Fld := ⟨0x30008, 0, 32⟩
/-- R81 [31:24], WO. -/
def MAN_CONTROL_KEY : Fld := ⟨0x30008, 24, 8⟩
/-- R81 [3:0], WO. -/
def MAN_CONTROL_CMD : Fld := ⟨0x30008, 0, 4⟩
/-- R79 (02). -/
def MAN_KEY_ID : Fld := ⟨0x3000C, 0, 32⟩
/-- R79 (02). -/
def MAN_PLANT_ID_LO : Fld := ⟨0x30010, 0, 32⟩
/-- R79 (02). -/
def MAN_PLANT_ID_HI : Fld := ⟨0x30014, 0, 32⟩
/-- R79 (02). -/
def MAN_ACTIVE_GEN : Fld := ⟨0x30018, 0, 32⟩
/-- R79 (02). -/
def MAN_ACTIVE_EPOCH : Fld := ⟨0x3001C, 0, 32⟩
/-- R79 (02). -/
def MAN_SAFETY_CHECK : Fld := ⟨0x30020, 0, 32⟩
/-- R79 (02). -/
def MAN_SAFETY_CONFIRMED : Fld := ⟨0x30024, 0, 32⟩
/-- R79 (02). -/
def MAN_BUILD_TIME_LO : Fld := ⟨0x30028, 0, 32⟩
/-- R79 (02). -/
def MAN_BUILD_TIME_HI : Fld := ⟨0x3002C, 0, 32⟩
/-- R79 (02). -/
def MAN_PATCH_STATUS : Fld := ⟨0x30030, 0, 32⟩
/-- R82 [8:8], W1C. -/
def MAN_PATCH_STATUS_ABORT_LATE : Fld := ⟨0x30030, 8, 1⟩
/-- R82 [2:0], RO. -/
def MAN_PATCH_STATUS_STATE : Fld := ⟨0x30030, 0, 3⟩
/-- R79 (02). -/
def MAN_PATCH_TARGET_LO : Fld := ⟨0x30034, 0, 32⟩
/-- R79 (02). -/
def MAN_PATCH_TARGET_HI : Fld := ⟨0x30038, 0, 32⟩
/-- R79 (02). -/
def MAN_PATCH_TICK_LO : Fld := ⟨0x3003C, 0, 32⟩
/-- R79 (02). -/
def MAN_PATCH_TICK_HI : Fld := ⟨0x30040, 0, 32⟩
/-- R79 (02). -/
def MAN_PATCH_LOG_USED : Fld := ⟨0x30044, 0, 32⟩
/-- R79 (02). -/
def MAN_PATCH_LOG_FREE : Fld := ⟨0x30048, 0, 32⟩
/-- R79 (02). -/
def MAN_LOAD_ERROR : Fld := ⟨0x3004C, 0, 32⟩
/-- R83 [31:16], RO. -/
def MAN_LOAD_ERROR_SECTION : Fld := ⟨0x3004C, 16, 16⟩
/-- R83 [15:0], RO. -/
def MAN_LOAD_ERROR_CODE : Fld := ⟨0x3004C, 0, 16⟩
/-- R79 (02). -/
def MAN_LOAD_ERROR_OFFSET : Fld := ⟨0x30050, 0, 32⟩
/-- R79 (02). -/
def MAN_SECTION_CHANGED : Fld := ⟨0x30054, 0, 32⟩
/-- R79 (02). -/
def MAN_STAGE_LENGTH : Fld := ⟨0x30058, 0, 32⟩
/-- R79 (02). -/
def MAN_STAGE_RECEIVED : Fld := ⟨0x3005C, 0, 32⟩
/-- R79 (02). -/
def MAN_EVENT_STATUS : Fld := ⟨0x30060, 0, 32⟩
/-- R84 [4:4], W1C. -/
def MAN_EVENT_STATUS_SAFETY_MISMATCH : Fld := ⟨0x30060, 4, 1⟩
/-- R84 [3:3], W1C. -/
def MAN_EVENT_STATUS_PATCH_REFUSED : Fld := ⟨0x30060, 3, 1⟩
/-- R84 [2:2], W1C. -/
def MAN_EVENT_STATUS_PATCH_APPLIED : Fld := ⟨0x30060, 2, 1⟩
/-- R84 [1:1], W1C. -/
def MAN_EVENT_STATUS_LOAD_FAILED : Fld := ⟨0x30060, 1, 1⟩
/-- R84 [0:0], W1C. -/
def MAN_EVENT_STATUS_LOAD_VERIFIED : Fld := ⟨0x30060, 0, 1⟩
/-- R79 (02). -/
def MAN_EVENT_ENABLE : Fld := ⟨0x30064, 0, 32⟩
/-- R79 (02). -/
def MAN_PATCH_COUNT : Fld := ⟨0x30068, 0, 32⟩
/-- R79 (02). -/
def MAN_PATCH_REFUSED : Fld := ⟨0x3006C, 0, 32⟩
/-- R79 (02). -/
def MAN_SCHED_CYCLES_STRIDE : Fld := ⟨0x30070, 0, 32⟩
/-- R79 (02). -/
def MAN_SCHED_CYCLES_GLIDE : Fld := ⟨0x30074, 0, 32⟩
/-- R79 (02). -/
def MAN_SLOT_STATE (i : Nat) : Fld := ⟨inst 0x30080 0x20 2 i, 0, 32⟩
/-- R85 [31:16], RO. -/
def MAN_SLOT_STATE_ERROR (i : Nat) : Fld := ⟨inst 0x30080 0x20 2 i, 16, 16⟩
/-- R85 [2:0], RO. -/
def MAN_SLOT_STATE_STATE (i : Nat) : Fld := ⟨inst 0x30080 0x20 2 i, 0, 3⟩
/-- R79 (02). -/
def MAN_SLOT_GEN (i : Nat) : Fld := ⟨inst 0x30084 0x20 2 i, 0, 32⟩
/-- R79 (02). -/
def MAN_SLOT_EPOCH (i : Nat) : Fld := ⟨inst 0x30088 0x20 2 i, 0, 32⟩
/-- R79 (02). -/
def MAN_SLOT_LENGTH (i : Nat) : Fld := ⟨inst 0x3008C 0x20 2 i, 0, 32⟩
/-- R79 (02). -/
def MAN_SLOT_SAFETY (i : Nat) : Fld := ⟨inst 0x30090 0x20 2 i, 0, 32⟩

-- block PWR
/-- R148 (04). -/
def PWR_STATE : Fld := ⟨0x10000, 0, 32⟩
/-- R149 [11:8], RO. -/
def PWR_STATE_BERTH_RESULT : Fld := ⟨0x10000, 8, 4⟩
/-- R149 [2:0], RO. -/
def PWR_STATE_STATE : Fld := ⟨0x10000, 0, 3⟩
/-- R148 (04). -/
def PWR_CONTROL : Fld := ⟨0x10004, 0, 32⟩
/-- R149 [31:24], WO. -/
def PWR_CONTROL_KEY : Fld := ⟨0x10004, 24, 8⟩
/-- R149 [3:0], WO. -/
def PWR_CONTROL_CMD : Fld := ⟨0x10004, 0, 4⟩
/-- R148 (04). -/
def PWR_GLIDE_STATUS : Fld := ⟨0x10008, 0, 32⟩
/-- R148 (04). -/
def PWR_GLIDE_INHIBIT : Fld := ⟨0x1000C, 0, 32⟩
/-- R148 (04). -/
def PWR_DOMAIN_LIVE : Fld := ⟨0x10010, 0, 32⟩
/-- R148 (04). -/
def PWR_DOMAIN_HOLD : Fld := ⟨0x10014, 0, 32⟩
/-- R148 (04). -/
def PWR_DOMAIN_RESET : Fld := ⟨0x10018, 0, 32⟩
/-- R149 [31:24], WO. -/
def PWR_DOMAIN_RESET_KEY : Fld := ⟨0x10018, 24, 8⟩
/-- R149 [3:0], WO. -/
def PWR_DOMAIN_RESET_DOMAIN : Fld := ⟨0x10018, 0, 4⟩
/-- R148 (04). -/
def PWR_DOMAIN_RESET_STATUS : Fld := ⟨0x1001C, 0, 32⟩
/-- R149 [15:8], RO. -/
def PWR_DOMAIN_RESET_STATUS_RESULT : Fld := ⟨0x1001C, 8, 8⟩
/-- R149 [7:4], RO. -/
def PWR_DOMAIN_RESET_STATUS_DOMAIN : Fld := ⟨0x1001C, 4, 4⟩
/-- R149 [0:0], RO. -/
def PWR_DOMAIN_RESET_STATUS_BUSY : Fld := ⟨0x1001C, 0, 1⟩
/-- R148 (04). -/
def PWR_WAKE_ENABLE : Fld := ⟨0x10020, 0, 32⟩
/-- R148 (04). -/
def PWR_WAKE_LATCH : Fld := ⟨0x10024, 0, 32⟩
/-- R148 (04). -/
def PWR_WAKE_CAUSE : Fld := ⟨0x10028, 0, 32⟩
/-- R148 (04). -/
def PWR_WAKE_ALARM : Fld := ⟨0x1002C, 0, 32⟩
/-- R148 (04). -/
def PWR_SUPPLY_STATUS : Fld := ⟨0x10030, 0, 32⟩
/-- R150 [9:9], W1C. -/
def PWR_SUPPLY_STATUS_B_LOST : Fld := ⟨0x10030, 9, 1⟩
/-- R150 [8:8], W1C. -/
def PWR_SUPPLY_STATUS_A_LOST : Fld := ⟨0x10030, 8, 1⟩
/-- R150 [3:3], RO. -/
def PWR_SUPPLY_STATUS_ON_BKP : Fld := ⟨0x10030, 3, 1⟩
/-- R150 [2:2], RO. -/
def PWR_SUPPLY_STATUS_BKP_GOOD : Fld := ⟨0x10030, 2, 1⟩
/-- R150 [1:1], RO. -/
def PWR_SUPPLY_STATUS_B_GOOD : Fld := ⟨0x10030, 1, 1⟩
/-- R150 [0:0], RO. -/
def PWR_SUPPLY_STATUS_A_GOOD : Fld := ⟨0x10030, 0, 1⟩
/-- R148 (04). -/
def PWR_PLL_STATUS : Fld := ⟨0x10034, 0, 32⟩
/-- R148 (04). -/
def PWR_TICK_LO : Fld := ⟨0x10038, 0, 32⟩
/-- R148 (04). -/
def PWR_TICK_HI : Fld := ⟨0x1003C, 0, 32⟩
/-- R148 (04). -/
def PWR_TICK_OFFSET : Fld := ⟨0x10040, 0, 32⟩
/-- R148 (04). -/
def PWR_PLANT_TIME_LO : Fld := ⟨0x10044, 0, 32⟩
/-- R148 (04). -/
def PWR_PLANT_TIME_HI : Fld := ⟨0x10048, 0, 32⟩
/-- R148 (04). -/
def PWR_PLANT_TIME_STATUS : Fld := ⟨0x1004C, 0, 32⟩
/-- R150 [5:5], W1C. -/
def PWR_PLANT_TIME_STATUS_BACKWARD_STEP : Fld := ⟨0x1004C, 5, 1⟩
/-- R150 [4:4], W1C. -/
def PWR_PLANT_TIME_STATUS_STEPPED : Fld := ⟨0x1004C, 4, 1⟩
/-- R150 [3:3], RO. -/
def PWR_PLANT_TIME_STATUS_SLEWING : Fld := ⟨0x1004C, 3, 1⟩
/-- R150 [1:0], RO. -/
def PWR_PLANT_TIME_STATUS_STATE : Fld := ⟨0x1004C, 0, 2⟩
/-- R148 (04). -/
def PWR_PLANT_TIME_SLEW : Fld := ⟨0x10050, 0, 32⟩
/-- R148 (04). -/
def PWR_OP_SECONDS : Fld := ⟨0x10054, 0, 32⟩
/-- R148 (04). -/
def PWR_OP_MS : Fld := ⟨0x10058, 0, 32⟩
/-- R148 (04). -/
def PWR_POWER_CYCLES : Fld := ⟨0x1005C, 0, 32⟩
/-- R148 (04). -/
def PWR_WATCHDOG_STATUS : Fld := ⟨0x10060, 0, 32⟩
/-- R150 [31:31], RO. -/
def PWR_WATCHDOG_STATUS_RUNNING : Fld := ⟨0x10060, 31, 1⟩
/-- R150 [7:0], RO. -/
def PWR_WATCHDOG_STATUS_REMAINING_MS : Fld := ⟨0x10060, 0, 8⟩
/-- R148 (04). -/
def PWR_WATCHDOG_EXPIRIES : Fld := ⟨0x10064, 0, 32⟩
/-- R148 (04). -/
def PWR_THERMAL_STATUS : Fld := ⟨0x10068, 0, 32⟩
/-- R150 [8:8], RO. -/
def PWR_THERMAL_STATUS_EVAC_OVERRIDE : Fld := ⟨0x10068, 8, 1⟩
/-- R150 [1:0], RO. -/
def PWR_THERMAL_STATUS_STAGE : Fld := ⟨0x10068, 0, 2⟩
/-- R148 (04). -/
def PWR_DIE_TEMP_MAX : Fld := ⟨0x1006C, 0, 32⟩
/-- R148 (04). -/
def PWR_BASE_TEMP : Fld := ⟨0x10070, 0, 32⟩
/-- R148 (04). -/
def PWR_DIE_TEMP_PEAK : Fld := ⟨0x10074, 0, 32⟩
/-- R148 (04). -/
def PWR_REDUCED_COUNT : Fld := ⟨0x10078, 0, 32⟩
/-- R148 (04). -/
def PWR_LOOPS_ONLY_COUNT : Fld := ⟨0x1007C, 0, 32⟩
/-- R148 (04). -/
def PWR_INPUT_A : Fld := ⟨0x10080, 0, 32⟩
/-- R148 (04). -/
def PWR_INPUT_B : Fld := ⟨0x10084, 0, 32⟩
/-- R148 (04). -/
def PWR_INPUT_BKP : Fld := ⟨0x10088, 0, 32⟩
/-- R148 (04). -/
def PWR_POWER_NOW : Fld := ⟨0x1008C, 0, 32⟩
/-- R148 (04). -/
def PWR_PEAK_SECONDS : Fld := ⟨0x10090, 0, 32⟩
/-- R148 (04). -/
def PWR_EVENT_STATUS : Fld := ⟨0x10094, 0, 32⟩
/-- R151 [7:7], W1C. -/
def PWR_EVENT_STATUS_HUNG_ACCESS : Fld := ⟨0x10094, 7, 1⟩
/-- R151 [6:6], W1C. -/
def PWR_EVENT_STATUS_DOMAIN_RESET_DONE : Fld := ⟨0x10094, 6, 1⟩
/-- R151 [5:5], W1C. -/
def PWR_EVENT_STATUS_SUPPLY_LOST : Fld := ⟨0x10094, 5, 1⟩
/-- R151 [4:4], W1C. -/
def PWR_EVENT_STATUS_PLANT_TIME_STEP : Fld := ⟨0x10094, 4, 1⟩
/-- R151 [3:3], W1C. -/
def PWR_EVENT_STATUS_THERMAL_STAGE : Fld := ⟨0x10094, 3, 1⟩
/-- R151 [2:2], W1C. -/
def PWR_EVENT_STATUS_BERTH_RESULT : Fld := ⟨0x10094, 2, 1⟩
/-- R151 [1:1], W1C. -/
def PWR_EVENT_STATUS_GLIDE_LEFT : Fld := ⟨0x10094, 1, 1⟩
/-- R151 [0:0], W1C. -/
def PWR_EVENT_STATUS_GLIDE_ENTERED : Fld := ⟨0x10094, 0, 1⟩
/-- R148 (04). -/
def PWR_EVENT_ENABLE : Fld := ⟨0x10098, 0, 32⟩
/-- R148 (04). -/
def PWR_GLIDE_ENTRIES : Fld := ⟨0x1009C, 0, 32⟩
/-- R148 (04). -/
def PWR_GLIDE_WAKES : Fld := ⟨0x100A0, 0, 32⟩
/-- R148 (04). -/
def PWR_GLIDE_SECONDS : Fld := ⟨0x100A4, 0, 32⟩
/-- R148 (04). -/
def PWR_BERTH_ENTRIES : Fld := ⟨0x100A8, 0, 32⟩
/-- R148 (04). -/
def PWR_HUNG_ACCESSES : Fld := ⟨0x100AC, 0, 32⟩
/-- R148 (04). -/
def PWR_DOMAIN_STATUS (i : Nat) : Fld := ⟨inst 0x10100 0x4 16 i, 0, 32⟩
/-- R151 [23:16], RO. -/
def PWR_DOMAIN_STATUS_RESETS (i : Nat) : Fld := ⟨inst 0x10100 0x4 16 i, 16, 8⟩
/-- R151 [2:2], RO. -/
def PWR_DOMAIN_STATUS_HUNG (i : Nat) : Fld := ⟨inst 0x10100 0x4 16 i, 2, 1⟩
/-- R151 [1:1], RO. -/
def PWR_DOMAIN_STATUS_HELD (i : Nat) : Fld := ⟨inst 0x10100 0x4 16 i, 1, 1⟩
/-- R151 [0:0], RO. -/
def PWR_DOMAIN_STATUS_LIVE (i : Nat) : Fld := ⟨inst 0x10100 0x4 16 i, 0, 1⟩
/-- R148 (04). -/
def PWR_DIE_TEMP (i : Nat) : Fld := ⟨inst 0x10140 0x4 4 i, 0, 32⟩

-- block HQ
/-- R192 (05). -/
def HQ_STATUS : Fld := ⟨0x40000, 0, 32⟩
/-- R193 [11:8], RO. -/
def HQ_STATUS_EQ_HIGH : Fld := ⟨0x40000, 8, 4⟩
/-- R193 [7:4], RO. -/
def HQ_STATUS_CQ_FULL : Fld := ⟨0x40000, 4, 4⟩
/-- R193 [3:0], RO. -/
def HQ_STATUS_CQ_NONEMPTY : Fld := ⟨0x40000, 0, 4⟩
/-- R192 (05). -/
def HQ_CONTROL : Fld := ⟨0x40004, 0, 32⟩
/-- R193 [31:24], WO. -/
def HQ_CONTROL_KEY : Fld := ⟨0x40004, 24, 8⟩
/-- R193 [10:8], WO. -/
def HQ_CONTROL_SESSION : Fld := ⟨0x40004, 8, 3⟩
/-- R193 [5:4], WO. -/
def HQ_CONTROL_QUEUE : Fld := ⟨0x40004, 4, 2⟩
/-- R193 [3:0], WO. -/
def HQ_CONTROL_CMD : Fld := ⟨0x40004, 0, 4⟩
/-- R192 (05). -/
def HQ_FENCE_EPOCH : Fld := ⟨0x40008, 0, 32⟩
/-- R192 (05). -/
def HQ_FENCE_OUTSTANDING : Fld := ⟨0x4000C, 0, 32⟩
/-- R192 (05). -/
def HQ_FENCE_INCOMPLETE : Fld := ⟨0x40010, 0, 32⟩
/-- R192 (05). -/
def HQ_SESSIONS : Fld := ⟨0x40014, 0, 32⟩
/-- R193 [23:16], RO. -/
def HQ_SESSIONS_HUNG : Fld := ⟨0x40014, 16, 8⟩
/-- R193 [15:8], RO. -/
def HQ_SESSIONS_ENGINEER : Fld := ⟨0x40014, 8, 8⟩
/-- R193 [7:0], RO. -/
def HQ_SESSIONS_OPEN : Fld := ⟨0x40014, 0, 8⟩
/-- R192 (05). -/
def HQ_EVENT_STATUS : Fld := ⟨0x40018, 0, 32⟩
/-- R193 [4:4], W1C. -/
def HQ_EVENT_STATUS_PROMOTION : Fld := ⟨0x40018, 4, 1⟩
/-- R193 [3:3], W1C. -/
def HQ_EVENT_STATUS_SESSION_CLOSED : Fld := ⟨0x40018, 3, 1⟩
/-- R193 [2:2], W1C. -/
def HQ_EVENT_STATUS_FENCE_INCOMPLETE : Fld := ⟨0x40018, 2, 1⟩
/-- R193 [1:1], W1C. -/
def HQ_EVENT_STATUS_EVENTS_LOST : Fld := ⟨0x40018, 1, 1⟩
/-- R193 [0:0], W1C. -/
def HQ_EVENT_STATUS_EQ_HIGH : Fld := ⟨0x40018, 0, 1⟩
/-- R192 (05). -/
def HQ_EVENT_ENABLE : Fld := ⟨0x4001C, 0, 32⟩
/-- R192 (05). -/
def HQ_CQ_DEPTH (i : Nat) : Fld := ⟨inst 0x40040 0x20 4 i, 0, 32⟩
/-- R192 (05). -/
def HQ_CQ_HIGH_WATER (i : Nat) : Fld := ⟨inst 0x40044 0x20 4 i, 0, 32⟩
/-- R192 (05). -/
def HQ_CQ_ACCEPTED (i : Nat) : Fld := ⟨inst 0x40048 0x20 4 i, 0, 32⟩
/-- R192 (05). -/
def HQ_CQ_REFUSED (i : Nat) : Fld := ⟨inst 0x4004C 0x20 4 i, 0, 32⟩
/-- R192 (05). -/
def HQ_CQ_PROMOTED (i : Nat) : Fld := ⟨inst 0x40050 0x20 4 i, 0, 32⟩
/-- R192 (05). -/
def HQ_EQ_DEPTH (i : Nat) : Fld := ⟨inst 0x40100 0x20 4 i, 0, 32⟩
/-- R192 (05). -/
def HQ_EQ_OWNER (i : Nat) : Fld := ⟨inst 0x40104 0x20 4 i, 0, 32⟩
/-- R193 [31:31], RO. -/
def HQ_EQ_OWNER_OWNED (i : Nat) : Fld := ⟨inst 0x40104 0x20 4 i, 31, 1⟩
/-- R193 [2:0], RO. -/
def HQ_EQ_OWNER_SESSION (i : Nat) : Fld := ⟨inst 0x40104 0x20 4 i, 0, 3⟩
/-- R192 (05). -/
def HQ_EQ_NEXT_SEQ (i : Nat) : Fld := ⟨inst 0x40108 0x20 4 i, 0, 32⟩
/-- R192 (05). -/
def HQ_EQ_ACKED_SEQ (i : Nat) : Fld := ⟨inst 0x4010C 0x20 4 i, 0, 32⟩
/-- R192 (05). -/
def HQ_EQ_LOST (i : Nat) : Fld := ⟨inst 0x40110 0x20 4 i, 0, 32⟩

-- block XNG
/-- R244 (06). -/
def XNG_RING_STATUS (i : Nat) : Fld := ⟨inst 0x50000 0x1000 16 i, 0, 32⟩
/-- R245 [11:8], RO. -/
def XNG_RING_STATUS_STATE (i : Nat) : Fld := ⟨inst 0x50000 0x1000 16 i, 8, 4⟩
/-- R245 [3:3], RO. -/
def XNG_RING_STATUS_DEGRADED_RATE (i : Nat) : Fld := ⟨inst 0x50000 0x1000 16 i, 3, 1⟩
/-- R245 [2:2], RO. -/
def XNG_RING_STATUS_GEN1_PRESENT (i : Nat) : Fld := ⟨inst 0x50000 0x1000 16 i, 2, 1⟩
/-- R245 [1:1], RO. -/
def XNG_RING_STATUS_END_B_UP (i : Nat) : Fld := ⟨inst 0x50000 0x1000 16 i, 1, 1⟩
/-- R245 [0:0], RO. -/
def XNG_RING_STATUS_END_A_UP (i : Nat) : Fld := ⟨inst 0x50000 0x1000 16 i, 0, 1⟩
/-- R244 (06). -/
def XNG_CONTROL (i : Nat) : Fld := ⟨inst 0x50004 0x1000 16 i, 0, 32⟩
/-- R245 [31:24], WO. -/
def XNG_CONTROL_KEY (i : Nat) : Fld := ⟨inst 0x50004 0x1000 16 i, 24, 8⟩
/-- R245 [3:0], WO. -/
def XNG_CONTROL_CMD (i : Nat) : Fld := ⟨inst 0x50004 0x1000 16 i, 0, 4⟩
/-- R244 (06). -/
def XNG_SPLIT (i : Nat) : Fld := ⟨inst 0x50008 0x1000 16 i, 0, 32⟩
/-- R244 (06). -/
def XNG_GEN_SUMMARY (i : Nat) : Fld := ⟨inst 0x5000C 0x1000 16 i, 0, 32⟩
/-- R245 [24:16], RO. -/
def XNG_GEN_SUMMARY_GEN1_HOPS (i : Nat) : Fld := ⟨inst 0x5000C 0x1000 16 i, 16, 9⟩
/-- R245 [8:0], RO. -/
def XNG_GEN_SUMMARY_HOPS_UP (i : Nat) : Fld := ⟨inst 0x5000C 0x1000 16 i, 0, 9⟩
/-- R244 (06). -/
def XNG_BREAK (i : Nat) : Fld := ⟨inst 0x50010 0x1000 16 i, 0, 32⟩
/-- R245 [24:16], RO. -/
def XNG_BREAK_BREAK2 (i : Nat) : Fld := ⟨inst 0x50010 0x1000 16 i, 16, 9⟩
/-- R245 [8:0], RO. -/
def XNG_BREAK_BREAK1 (i : Nat) : Fld := ⟨inst 0x50010 0x1000 16 i, 0, 9⟩
/-- R244 (06). -/
def XNG_RATE_FACTOR (i : Nat) : Fld := ⟨inst 0x50014 0x1000 16 i, 0, 32⟩
/-- R245 [15:8], RO. -/
def XNG_RATE_FACTOR_FACTOR_B (i : Nat) : Fld := ⟨inst 0x50014 0x1000 16 i, 8, 8⟩
/-- R245 [7:0], RO. -/
def XNG_RATE_FACTOR_FACTOR_A (i : Nat) : Fld := ⟨inst 0x50014 0x1000 16 i, 0, 8⟩
/-- R244 (06). -/
def XNG_LOAD_A (i : Nat) : Fld := ⟨inst 0x50018 0x1000 16 i, 0, 32⟩
/-- R244 (06). -/
def XNG_LOAD_B (i : Nat) : Fld := ⟨inst 0x5001C 0x1000 16 i, 0, 32⟩
/-- R244 (06). -/
def XNG_UTIL_A (i : Nat) : Fld := ⟨inst 0x50020 0x1000 16 i, 0, 32⟩
/-- R244 (06). -/
def XNG_UTIL_B (i : Nat) : Fld := ⟨inst 0x50024 0x1000 16 i, 0, 32⟩
/-- R244 (06). -/
def XNG_NODES_JOINED (i : Nat) : Fld := ⟨inst 0x50028 0x1000 16 i, 0, 32⟩
/-- R245 [20:16], RO. -/
def XNG_NODES_JOINED_CONTAINERS (i : Nat) : Fld := ⟨inst 0x50028 0x1000 16 i, 16, 5⟩
/-- R245 [8:0], RO. -/
def XNG_NODES_JOINED_STRINGS (i : Nat) : Fld := ⟨inst 0x50028 0x1000 16 i, 0, 9⟩
/-- R244 (06). -/
def XNG_NODES_QUARANTINED (i : Nat) : Fld := ⟨inst 0x5002C 0x1000 16 i, 0, 32⟩
/-- R245 [20:16], RO. -/
def XNG_NODES_QUARANTINED_CONTAINERS (i : Nat) : Fld := ⟨inst 0x5002C 0x1000 16 i, 16, 5⟩
/-- R245 [8:0], RO. -/
def XNG_NODES_QUARANTINED_STRINGS (i : Nat) : Fld := ⟨inst 0x5002C 0x1000 16 i, 0, 9⟩
/-- R244 (06). -/
def XNG_NODES_ABSENT (i : Nat) : Fld := ⟨inst 0x50030 0x1000 16 i, 0, 32⟩
/-- R245 [20:16], RO. -/
def XNG_NODES_ABSENT_CONTAINERS (i : Nat) : Fld := ⟨inst 0x50030 0x1000 16 i, 16, 5⟩
/-- R245 [8:0], RO. -/
def XNG_NODES_ABSENT_STRINGS (i : Nat) : Fld := ⟨inst 0x50030 0x1000 16 i, 0, 9⟩
/-- R244 (06). -/
def XNG_TXN_INFLIGHT (i : Nat) : Fld := ⟨inst 0x50034 0x1000 16 i, 0, 32⟩
/-- R244 (06). -/
def XNG_TXN_NORES (i : Nat) : Fld := ⟨inst 0x50038 0x1000 16 i, 0, 32⟩
/-- R244 (06). -/
def XNG_TXN_TIMEOUT (i : Nat) : Fld := ⟨inst 0x5003C 0x1000 16 i, 0, 32⟩
/-- R244 (06). -/
def XNG_TXN_RETRY (i : Nat) : Fld := ⟨inst 0x50040 0x1000 16 i, 0, 32⟩
/-- R244 (06). -/
def XNG_CRC_ERRORS (i : Nat) : Fld := ⟨inst 0x50044 0x1000 16 i, 0, 32⟩
/-- R244 (06). -/
def XNG_FRAMES_DROPPED (i : Nat) : Fld := ⟨inst 0x50048 0x1000 16 i, 0, 32⟩
/-- R244 (06). -/
def XNG_SWEEPS_LO (i : Nat) : Fld := ⟨inst 0x5004C 0x1000 16 i, 0, 32⟩
/-- R244 (06). -/
def XNG_SWEEPS_HI (i : Nat) : Fld := ⟨inst 0x50050 0x1000 16 i, 0, 32⟩
/-- R244 (06). -/
def XNG_SWEEPS_MISSED (i : Nat) : Fld := ⟨inst 0x50054 0x1000 16 i, 0, 32⟩
/-- R244 (06). -/
def XNG_PROMOTIONS (i : Nat) : Fld := ⟨inst 0x50058 0x1000 16 i, 0, 32⟩
/-- R244 (06). -/
def XNG_BREAKS (i : Nat) : Fld := ⟨inst 0x5005C 0x1000 16 i, 0, 32⟩
/-- R244 (06). -/
def XNG_AUTH_FAILS (i : Nat) : Fld := ⟨inst 0x50060 0x1000 16 i, 0, 32⟩
/-- R244 (06). -/
def XNG_SLEEP_STATUS (i : Nat) : Fld := ⟨inst 0x50064 0x1000 16 i, 0, 32⟩
/-- R245 [16:16], RO. -/
def XNG_SLEEP_STATUS_WAKE_LATCHED (i : Nat) : Fld := ⟨inst 0x50064 0x1000 16 i, 16, 1⟩
/-- R245 [9:8], RO. -/
def XNG_SLEEP_STATUS_LAST_ABORT (i : Nat) : Fld := ⟨inst 0x50064 0x1000 16 i, 8, 2⟩
/-- R245 [2:0], RO. -/
def XNG_SLEEP_STATUS_STATE (i : Nat) : Fld := ⟨inst 0x50064 0x1000 16 i, 0, 3⟩
/-- R244 (06). -/
def XNG_NODE_SELECT (i : Nat) : Fld := ⟨inst 0x50068 0x1000 16 i, 0, 32⟩
/-- R244 (06). -/
def XNG_NODE_STATE (i : Nat) : Fld := ⟨inst 0x5006C 0x1000 16 i, 0, 32⟩
/-- R245 [31:28], RO. -/
def XNG_NODE_STATE_STATE (i : Nat) : Fld := ⟨inst 0x5006C 0x1000 16 i, 28, 4⟩
/-- R245 [27:24], RO. -/
def XNG_NODE_STATE_QUARANTINE_REASON (i : Nat) : Fld := ⟨inst 0x5006C 0x1000 16 i, 24, 4⟩
/-- R245 [21:20], RO. -/
def XNG_NODE_STATE_GEN_TOWARD_A (i : Nat) : Fld := ⟨inst 0x5006C 0x1000 16 i, 20, 2⟩
/-- R245 [19:18], RO. -/
def XNG_NODE_STATE_GEN_TOWARD_B (i : Nat) : Fld := ⟨inst 0x5006C 0x1000 16 i, 18, 2⟩
/-- R245 [17:17], RO. -/
def XNG_NODE_STATE_SERVED_BY_B (i : Nat) : Fld := ⟨inst 0x5006C 0x1000 16 i, 17, 1⟩
/-- R245 [16:16], RO. -/
def XNG_NODE_STATE_TYPE (i : Nat) : Fld := ⟨inst 0x5006C 0x1000 16 i, 16, 1⟩
/-- R245 [8:0], RO. -/
def XNG_NODE_STATE_HOP_INDEX (i : Nat) : Fld := ⟨inst 0x5006C 0x1000 16 i, 0, 9⟩
/-- R244 (06). -/
def XNG_NODE_COUNTERS (i : Nat) : Fld := ⟨inst 0x50070 0x1000 16 i, 0, 32⟩
/-- R245 [31:24], RO. -/
def XNG_NODE_COUNTERS_TIMEOUTS (i : Nat) : Fld := ⟨inst 0x50070 0x1000 16 i, 24, 8⟩
/-- R245 [23:16], RO. -/
def XNG_NODE_COUNTERS_MISSED (i : Nat) : Fld := ⟨inst 0x50070 0x1000 16 i, 16, 8⟩
/-- R245 [5:0], RO. -/
def XNG_NODE_COUNTERS_IN_FLIGHT (i : Nat) : Fld := ⟨inst 0x50070 0x1000 16 i, 0, 6⟩
/-- R244 (06). -/
def XNG_EVENT_STATUS (i : Nat) : Fld := ⟨inst 0x50074 0x1000 16 i, 0, 32⟩
/-- R245 [5:5], W1C. -/
def XNG_EVENT_STATUS_SLEEP_CHANGE (i : Nat) : Fld := ⟨inst 0x50074 0x1000 16 i, 5, 1⟩
/-- R245 [4:4], W1C. -/
def XNG_EVENT_STATUS_HOP_FALLBACK (i : Nat) : Fld := ⟨inst 0x50074 0x1000 16 i, 4, 1⟩
/-- R245 [3:3], W1C. -/
def XNG_EVENT_STATUS_QUARANTINE (i : Nat) : Fld := ⟨inst 0x50074 0x1000 16 i, 3, 1⟩
/-- R245 [2:2], W1C. -/
def XNG_EVENT_STATUS_NODE_LOST (i : Nat) : Fld := ⟨inst 0x50074 0x1000 16 i, 2, 1⟩
/-- R245 [1:1], W1C. -/
def XNG_EVENT_STATUS_RATE_CHANGE (i : Nat) : Fld := ⟨inst 0x50074 0x1000 16 i, 1, 1⟩
/-- R245 [0:0], W1C. -/
def XNG_EVENT_STATUS_RING_CHANGE (i : Nat) : Fld := ⟨inst 0x50074 0x1000 16 i, 0, 1⟩
/-- R244 (06). -/
def XNG_EVENT_ENABLE (i : Nat) : Fld := ⟨inst 0x50078 0x1000 16 i, 0, 32⟩
/-- R244 (06). -/
def XNG_POOL_FREE (i : Nat) : Fld := ⟨inst 0x5007C 0x1000 16 i, 0, 32⟩

-- block EST
/-- R288 (07). -/
def EST_STATUS : Fld := ⟨0x60000, 0, 32⟩
/-- R289 [7:7], RO. -/
def EST_STATUS_NO_CHECKED_PAIR : Fld := ⟨0x60000, 7, 1⟩
/-- R289 [6:6], RO. -/
def EST_STATUS_ROLLUP_STALE : Fld := ⟨0x60000, 6, 1⟩
/-- R289 [5:5], RO. -/
def EST_STATUS_DEFAULTED : Fld := ⟨0x60000, 5, 1⟩
/-- R289 [4:4], RO. -/
def EST_STATUS_RESTORE_RUNNING : Fld := ⟨0x60000, 4, 1⟩
/-- R289 [3:3], RO. -/
def EST_STATUS_CKPT_RUNNING : Fld := ⟨0x60000, 3, 1⟩
/-- R289 [2:1], RO. -/
def EST_STATUS_PAIRS : Fld := ⟨0x60000, 1, 2⟩
/-- R289 [0:0], RO. -/
def EST_STATUS_RUNNING : Fld := ⟨0x60000, 0, 1⟩
/-- R288 (07). -/
def EST_CONTROL : Fld := ⟨0x60004, 0, 32⟩
/-- R289 [31:24], WO. -/
def EST_CONTROL_KEY : Fld := ⟨0x60004, 24, 8⟩
/-- R289 [3:0], WO. -/
def EST_CONTROL_CMD : Fld := ⟨0x60004, 0, 4⟩
/-- R288 (07). -/
def EST_CKPT_GEN : Fld := ⟨0x60008, 0, 32⟩
/-- R288 (07). -/
def EST_CKPT_STATUS : Fld := ⟨0x6000C, 0, 32⟩
/-- R289 [23:16], RO. -/
def EST_CKPT_STATUS_CAUSE : Fld := ⟨0x6000C, 16, 8⟩
/-- R289 [5:4], RO. -/
def EST_CKPT_STATUS_INTACT : Fld := ⟨0x6000C, 4, 2⟩
/-- R289 [0:0], RO. -/
def EST_CKPT_STATUS_NEWEST_SLOT : Fld := ⟨0x6000C, 0, 1⟩
/-- R288 (07). -/
def EST_CKPT_OPSEC : Fld := ⟨0x60010, 0, 32⟩
/-- R288 (07). -/
def EST_RESTORE_STATUS : Fld := ⟨0x60014, 0, 32⟩
/-- R289 [15:8], RO. -/
def EST_RESTORE_STATUS_RESULT : Fld := ⟨0x60014, 8, 8⟩
/-- R289 [0:0], RO. -/
def EST_RESTORE_STATUS_STAGED : Fld := ⟨0x60014, 0, 1⟩
/-- R288 (07). -/
def EST_UPDATES_LO : Fld := ⟨0x60018, 0, 32⟩
/-- R288 (07). -/
def EST_UPDATES_HI : Fld := ⟨0x6001C, 0, 32⟩
/-- R288 (07). -/
def EST_UPDATE_RATE : Fld := ⟨0x60020, 0, 32⟩
/-- R288 (07). -/
def EST_LOAD : Fld := ⟨0x60024, 0, 32⟩
/-- R288 (07). -/
def EST_MISMATCHES : Fld := ⟨0x60028, 0, 32⟩
/-- R288 (07). -/
def EST_RECOMPUTED : Fld := ⟨0x6002C, 0, 32⟩
/-- R288 (07). -/
def EST_SKIPPED : Fld := ⟨0x60030, 0, 32⟩
/-- R288 (07). -/
def EST_OUTLIERS : Fld := ⟨0x60034, 0, 32⟩
/-- R288 (07). -/
def EST_RESETS : Fld := ⟨0x60038, 0, 32⟩
/-- R288 (07). -/
def EST_SHORT_SUSPECTS : Fld := ⟨0x6003C, 0, 32⟩
/-- R288 (07). -/
def EST_CELLS_POPULATED : Fld := ⟨0x60040, 0, 32⟩
/-- R288 (07). -/
def EST_CELLS_READY : Fld := ⟨0x60044, 0, 32⟩
/-- R288 (07). -/
def EST_ROLLUP_SEQ : Fld := ⟨0x60048, 0, 32⟩
/-- R288 (07). -/
def EST_ROLLUP_TICK_LO : Fld := ⟨0x6004C, 0, 32⟩
/-- R288 (07). -/
def EST_ROLLUP_TICK_HI : Fld := ⟨0x60050, 0, 32⟩
/-- R288 (07). -/
def EST_PLANT_E_AVAIL : Fld := ⟨0x60054, 0, 32⟩
/-- R288 (07). -/
def EST_PLANT_E_CONS : Fld := ⟨0x60058, 0, 32⟩
/-- R288 (07). -/
def EST_PLANT_E_HELD : Fld := ⟨0x6005C, 0, 32⟩
/-- R288 (07). -/
def EST_PLANT_E_HEAD : Fld := ⟨0x60060, 0, 32⟩
/-- R288 (07). -/
def EST_PLANT_P_DIS : Fld := ⟨0x60064, 0, 32⟩
/-- R288 (07). -/
def EST_PLANT_P_CHG : Fld := ⟨0x60068, 0, 32⟩
/-- R288 (07). -/
def EST_EVENT_STATUS : Fld := ⟨0x6006C, 0, 32⟩
/-- R289 [6:6], W1C. -/
def EST_EVENT_STATUS_INTAKE_OVERFLOW : Fld := ⟨0x6006C, 6, 1⟩
/-- R289 [5:5], W1C. -/
def EST_EVENT_STATUS_NO_CHECKED_PAIR : Fld := ⟨0x6006C, 5, 1⟩
/-- R289 [4:4], W1C. -/
def EST_EVENT_STATUS_PIPELINE_RETIRED : Fld := ⟨0x6006C, 4, 1⟩
/-- R289 [3:3], W1C. -/
def EST_EVENT_STATUS_RESTORE_DONE : Fld := ⟨0x6006C, 3, 1⟩
/-- R289 [2:2], W1C. -/
def EST_EVENT_STATUS_CHECKPOINT_FAILED : Fld := ⟨0x6006C, 2, 1⟩
/-- R289 [1:1], W1C. -/
def EST_EVENT_STATUS_CHECKPOINT_WRITTEN : Fld := ⟨0x6006C, 1, 1⟩
/-- R289 [0:0], W1C. -/
def EST_EVENT_STATUS_SHORT_SUSPECT : Fld := ⟨0x6006C, 0, 1⟩
/-- R288 (07). -/
def EST_EVENT_ENABLE : Fld := ⟨0x60070, 0, 32⟩
/-- R288 (07). -/
def EST_PIPE_STATUS : Fld := ⟨0x60074, 0, 32⟩
/-- R289 [15:8], RO. -/
def EST_PIPE_STATUS_FAULTS : Fld := ⟨0x60074, 8, 8⟩
/-- R289 [7:6], RO. -/
def EST_PIPE_STATUS_PIPE3 : Fld := ⟨0x60074, 6, 2⟩
/-- R289 [5:4], RO. -/
def EST_PIPE_STATUS_PIPE2 : Fld := ⟨0x60074, 4, 2⟩
/-- R289 [3:2], RO. -/
def EST_PIPE_STATUS_PIPE1 : Fld := ⟨0x60074, 2, 2⟩
/-- R289 [1:0], RO. -/
def EST_PIPE_STATUS_PIPE0 : Fld := ⟨0x60074, 0, 2⟩
/-- R288 (07). -/
def EST_ANCHORS : Fld := ⟨0x60078, 0, 32⟩
/-- R288 (07). -/
def EST_INTAKE_DEPTH : Fld := ⟨0x6007C, 0, 32⟩
/-- R288 (07). -/
def EST_BANK_E_AVAIL (i : Nat) : Fld := ⟨inst 0x60100 0x10 16 i, 0, 32⟩
/-- R288 (07). -/
def EST_BANK_E_CONS (i : Nat) : Fld := ⟨inst 0x60104 0x10 16 i, 0, 32⟩
/-- R288 (07). -/
def EST_BANK_P_DIS (i : Nat) : Fld := ⟨inst 0x60108 0x10 16 i, 0, 32⟩
/-- R288 (07). -/
def EST_BANK_P_CHG (i : Nat) : Fld := ⟨inst 0x6010C 0x10 16 i, 0, 32⟩

-- block PLT
/-- R319 (08). -/
def PLT_PROT_STATUS : Fld := ⟨0x70000, 0, 32⟩
/-- R320 [3:3], RO. -/
def PLT_PROT_STATUS_LAYER1_ONLY : Fld := ⟨0x70000, 3, 1⟩
/-- R320 [2:2], RO. -/
def PLT_PROT_STATUS_TRIPS_DEFERRED : Fld := ⟨0x70000, 2, 1⟩
/-- R320 [1:1], RO. -/
def PLT_PROT_STATUS_BALANCING_STOPPED : Fld := ⟨0x70000, 1, 1⟩
/-- R320 [0:0], RO. -/
def PLT_PROT_STATUS_RUNNING : Fld := ⟨0x70000, 0, 1⟩
/-- R319 (08). -/
def PLT_PROT_CONTROL : Fld := ⟨0x70004, 0, 32⟩
/-- R320 [31:24], WO. -/
def PLT_PROT_CONTROL_KEY : Fld := ⟨0x70004, 24, 8⟩
/-- R320 [3:0], WO. -/
def PLT_PROT_CONTROL_CMD : Fld := ⟨0x70004, 0, 4⟩
/-- R319 (08). -/
def PLT_BALANCE_INHIBIT : Fld := ⟨0x70008, 0, 32⟩
/-- R319 (08). -/
def PLT_STRINGS_CLOSED : Fld := ⟨0x7000C, 0, 32⟩
/-- R319 (08). -/
def PLT_STRINGS_OPEN : Fld := ⟨0x70010, 0, 32⟩
/-- R319 (08). -/
def PLT_STRINGS_TRIPPED : Fld := ⟨0x70014, 0, 32⟩
/-- R319 (08). -/
def PLT_STRINGS_MISSING : Fld := ⟨0x70018, 0, 32⟩
/-- R319 (08). -/
def PLT_STRINGS_BALANCING : Fld := ⟨0x7001C, 0, 32⟩
/-- R319 (08). -/
def PLT_CELLS_BALANCING : Fld := ⟨0x70020, 0, 32⟩
/-- R319 (08). -/
def PLT_CONTAINERS_CLOSED : Fld := ⟨0x70024, 0, 32⟩
/-- R319 (08). -/
def PLT_CONTAINERS_BLOCKED : Fld := ⟨0x70028, 0, 32⟩
/-- R319 (08). -/
def PLT_TRIPS : Fld := ⟨0x7002C, 0, 32⟩
/-- R319 (08). -/
def PLT_NODE_TRIPS : Fld := ⟨0x70030, 0, 32⟩
/-- R319 (08). -/
def PLT_BREAKER_TRIPS : Fld := ⟨0x70034, 0, 32⟩
/-- R319 (08). -/
def PLT_MISSING_MARKS : Fld := ⟨0x70038, 0, 32⟩
/-- R319 (08). -/
def PLT_CLOSE_FAILS : Fld := ⟨0x7003C, 0, 32⟩
/-- R319 (08). -/
def PLT_STRING_SELECT : Fld := ⟨0x70040, 0, 32⟩
/-- R319 (08). -/
def PLT_STRING_PROT : Fld := ⟨0x70044, 0, 32⟩
/-- R320 [31:28], RO. -/
def PLT_STRING_PROT_STATE : Fld := ⟨0x70044, 28, 4⟩
/-- R320 [27:24], RO. -/
def PLT_STRING_PROT_CAUSE : Fld := ⟨0x70044, 24, 4⟩
/-- R320 [23:23], RO. -/
def PLT_STRING_PROT_IN_SERVICE : Fld := ⟨0x70044, 23, 1⟩
/-- R320 [22:22], RO. -/
def PLT_STRING_PROT_CHARGE_BLOCK : Fld := ⟨0x70044, 22, 1⟩
/-- R320 [21:21], RO. -/
def PLT_STRING_PROT_DISCHARGE_BLOCK : Fld := ⟨0x70044, 21, 1⟩
/-- R320 [20:20], RO. -/
def PLT_STRING_PROT_WAIT_VOLTAGE : Fld := ⟨0x70044, 20, 1⟩
/-- R320 [19:19], RO. -/
def PLT_STRING_PROT_QUARANTINED : Fld := ⟨0x70044, 19, 1⟩
/-- R320 [18:18], RO. -/
def PLT_STRING_PROT_SHORT_CELL : Fld := ⟨0x70044, 18, 1⟩
/-- R320 [17:17], RO. -/
def PLT_STRING_PROT_NODE_TRIPPED : Fld := ⟨0x70044, 17, 1⟩
/-- R320 [16:16], RO. -/
def PLT_STRING_PROT_BALANCING : Fld := ⟨0x70044, 16, 1⟩
/-- R320 [15:8], RO. -/
def PLT_STRING_PROT_MARKED_CELLS : Fld := ⟨0x70044, 8, 8⟩
/-- R320 [7:0], RO. -/
def PLT_STRING_PROT_BLOCKS_HOUR : Fld := ⟨0x70044, 0, 8⟩
/-- R319 (08). -/
def PLT_STRING_TRIP_CELL : Fld := ⟨0x70048, 0, 32⟩
/-- R319 (08). -/
def PLT_STRING_TRIP_VALUE : Fld := ⟨0x7004C, 0, 32⟩
/-- R319 (08). -/
def PLT_CONTAINER_SELECT : Fld := ⟨0x70050, 0, 32⟩
/-- R319 (08). -/
def PLT_CONTAINER_STATUS : Fld := ⟨0x70054, 0, 32⟩
/-- R320 [31:28], RO. -/
def PLT_CONTAINER_STATUS_STATE : Fld := ⟨0x70054, 28, 4⟩
/-- R320 [27:24], RO. -/
def PLT_CONTAINER_STATUS_CAUSE : Fld := ⟨0x70054, 24, 4⟩
/-- R320 [23:23], RO. -/
def PLT_CONTAINER_STATUS_IN_SERVICE : Fld := ⟨0x70054, 23, 1⟩
/-- R320 [22:22], RO. -/
def PLT_CONTAINER_STATUS_CHARGE_BLOCK : Fld := ⟨0x70054, 22, 1⟩
/-- R320 [21:21], RO. -/
def PLT_CONTAINER_STATUS_DISCHARGE_BLOCK : Fld := ⟨0x70054, 21, 1⟩
/-- R320 [20:20], RO. -/
def PLT_CONTAINER_STATUS_FIRE : Fld := ⟨0x70054, 20, 1⟩
/-- R320 [19:19], RO. -/
def PLT_CONTAINER_STATUS_THERMAL_FAULT : Fld := ⟨0x70054, 19, 1⟩
/-- R320 [18:18], RO. -/
def PLT_CONTAINER_STATUS_ON_STANDING : Fld := ⟨0x70054, 18, 1⟩
/-- R320 [17:16], RO. -/
def PLT_CONTAINER_STATUS_THERMAL_MODE : Fld := ⟨0x70054, 16, 2⟩
/-- R320 [15:0], RO. -/
def PLT_CONTAINER_STATUS_CLOSED_STRINGS : Fld := ⟨0x70054, 0, 16⟩
/-- R319 (08). -/
def PLT_CONTAINER_SETPOINT : Fld := ⟨0x70058, 0, 32⟩
/-- R319 (08). -/
def PLT_CONTAINER_T_HOT : Fld := ⟨0x7005C, 0, 32⟩
/-- R319 (08). -/
def PLT_CONTAINER_T_COLD : Fld := ⟨0x70060, 0, 32⟩
/-- R319 (08). -/
def PLT_CONTAINER_BUS_V : Fld := ⟨0x70064, 0, 32⟩
/-- R319 (08). -/
def PLT_CONTAINER_BUS_I : Fld := ⟨0x70068, 0, 32⟩
/-- R319 (08). -/
def PLT_BALANCE_AH : Fld := ⟨0x7006C, 0, 32⟩
/-- R319 (08). -/
def PLT_PROT_EVENT_STATUS : Fld := ⟨0x70070, 0, 32⟩
/-- R320 [5:5], W1C. -/
def PLT_PROT_EVENT_STATUS_THERMAL_FAULT : Fld := ⟨0x70070, 5, 1⟩
/-- R320 [4:4], W1C. -/
def PLT_PROT_EVENT_STATUS_FIRE_INTERLOCK : Fld := ⟨0x70070, 4, 1⟩
/-- R320 [3:3], W1C. -/
def PLT_PROT_EVENT_STATUS_BREAKER_TRIPPED : Fld := ⟨0x70070, 3, 1⟩
/-- R320 [2:2], W1C. -/
def PLT_PROT_EVENT_STATUS_STRING_MISSING : Fld := ⟨0x70070, 2, 1⟩
/-- R320 [1:1], W1C. -/
def PLT_PROT_EVENT_STATUS_NODE_LIMIT_TRIP : Fld := ⟨0x70070, 1, 1⟩
/-- R320 [0:0], W1C. -/
def PLT_PROT_EVENT_STATUS_STRING_TRIPPED : Fld := ⟨0x70070, 0, 1⟩
/-- R319 (08). -/
def PLT_PROT_EVENT_ENABLE : Fld := ⟨0x70074, 0, 32⟩
/-- R319 (08). -/
def PLT_FIRE_CONTAINERS : Fld := ⟨0x70078, 0, 32⟩
/-- R319 (08). -/
def PLT_THERMAL_FAULTS : Fld := ⟨0x7007C, 0, 32⟩
/-- R360 (09). -/
def PLT_DISP_STATUS : Fld := ⟨0x70080, 0, 32⟩
/-- R361 [8:8], RO. -/
def PLT_DISP_STATUS_RESERVE_UNKNOWN : Fld := ⟨0x70080, 8, 1⟩
/-- R361 [7:7], RO. -/
def PLT_DISP_STATUS_RESERVE_POWER_SHORT : Fld := ⟨0x70080, 7, 1⟩
/-- R361 [6:6], RO. -/
def PLT_DISP_STATUS_RECHARGE : Fld := ⟨0x70080, 6, 1⟩
/-- R361 [5:5], RO. -/
def PLT_DISP_STATUS_SOURCE_FALLBACK : Fld := ⟨0x70080, 5, 1⟩
/-- R361 [4:4], RO. -/
def PLT_DISP_STATUS_STALE : Fld := ⟨0x70080, 4, 1⟩
/-- R361 [3:2], RO. -/
def PLT_DISP_STATUS_MODE : Fld := ⟨0x70080, 2, 2⟩
/-- R361 [0:0], RO. -/
def PLT_DISP_STATUS_RUNNING : Fld := ⟨0x70080, 0, 1⟩
/-- R360 (09). -/
def PLT_DISP_CONTROL : Fld := ⟨0x70084, 0, 32⟩
/-- R361 [31:24], WO. -/
def PLT_DISP_CONTROL_KEY : Fld := ⟨0x70084, 24, 8⟩
/-- R361 [3:0], WO. -/
def PLT_DISP_CONTROL_CMD : Fld := ⟨0x70084, 0, 4⟩
/-- R360 (09). -/
def PLT_SOURCE_SELECT : Fld := ⟨0x70088, 0, 32⟩
/-- R361 [10:8], RO. -/
def PLT_SOURCE_SELECT_IN_USE : Fld := ⟨0x70088, 8, 3⟩
/-- R361 [2:0], RW. -/
def PLT_SOURCE_SELECT_SELECTED : Fld := ⟨0x70088, 0, 3⟩
/-- R360 (09). -/
def PLT_SOURCE_VALUE : Fld := ⟨0x7008C, 0, 32⟩
/-- R360 (09). -/
def PLT_SETPOINT : Fld := ⟨0x70090, 0, 32⟩
/-- R360 (09). -/
def PLT_UPPER_BOUND : Fld := ⟨0x70094, 0, 32⟩
/-- R360 (09). -/
def PLT_LOWER_BOUND : Fld := ⟨0x70098, 0, 32⟩
/-- R360 (09). -/
def PLT_LIMIT_CAUSE : Fld := ⟨0x7009C, 0, 32⟩
/-- R361 [7:4], RO. -/
def PLT_LIMIT_CAUSE_UPPER : Fld := ⟨0x7009C, 4, 4⟩
/-- R361 [3:0], RO. -/
def PLT_LIMIT_CAUSE_LOWER : Fld := ⟨0x7009C, 0, 4⟩
/-- R360 (09). -/
def PLT_HOST_EXPORT_MAX : Fld := ⟨0x700A0, 0, 32⟩
/-- R360 (09). -/
def PLT_HOST_IMPORT_MAX : Fld := ⟨0x700A4, 0, 32⟩
/-- R360 (09). -/
def PLT_RAMP_RATE : Fld := ⟨0x700A8, 0, 32⟩
/-- R360 (09). -/
def PLT_MEASURED_POWER : Fld := ⟨0x700AC, 0, 32⟩
/-- R360 (09). -/
def PLT_GRID_FREQ : Fld := ⟨0x700B0, 0, 32⟩
/-- R360 (09). -/
def PLT_RESERVE_REQUIRED : Fld := ⟨0x700B4, 0, 32⟩
/-- R360 (09). -/
def PLT_RESERVE_AVAILABLE : Fld := ⟨0x700B8, 0, 32⟩
/-- R360 (09). -/
def PLT_RESERVE_MARGIN : Fld := ⟨0x700BC, 0, 32⟩
/-- R360 (09). -/
def PLT_RESERVE_LIGHTING : Fld := ⟨0x700C0, 0, 32⟩
/-- R360 (09). -/
def PLT_RESERVE_LIFTS : Fld := ⟨0x700C4, 0, 32⟩
/-- R360 (09). -/
def PLT_TRIP_ENERGY : Fld := ⟨0x700C8, 0, 32⟩
/-- R360 (09). -/
def PLT_EVAC_STATUS : Fld := ⟨0x700CC, 0, 32⟩
/-- R361 [31:16], RO. -/
def PLT_EVAC_STATUS_ALARM_HOLD : Fld := ⟨0x700CC, 16, 16⟩
/-- R361 [4:4], RO. -/
def PLT_EVAC_STATUS_SHEDDING : Fld := ⟨0x700CC, 4, 1⟩
/-- R361 [3:3], RO. -/
def PLT_EVAC_STATUS_REGEN : Fld := ⟨0x700CC, 3, 1⟩
/-- R361 [2:2], RO. -/
def PLT_EVAC_STATUS_FIRE_ALARM : Fld := ⟨0x700CC, 2, 1⟩
/-- R361 [1:1], RO. -/
def PLT_EVAC_STATUS_MAINS_LOST : Fld := ⟨0x700CC, 1, 1⟩
/-- R361 [0:0], RO. -/
def PLT_EVAC_STATUS_EVACUATION : Fld := ⟨0x700CC, 0, 1⟩
/-- R360 (09). -/
def PLT_ISLAND_LIMIT : Fld := ⟨0x700D0, 0, 32⟩
/-- R360 (09). -/
def PLT_LIFT_POWER_LIMIT : Fld := ⟨0x700D4, 0, 32⟩
/-- R360 (09). -/
def PLT_REGEN_POWER : Fld := ⟨0x700D8, 0, 32⟩
/-- R360 (09). -/
def PLT_PCS_LIVE_LO : Fld := ⟨0x700DC, 0, 32⟩
/-- R360 (09). -/
def PLT_PCS_LIVE_HI : Fld := ⟨0x700E0, 0, 32⟩
/-- R360 (09). -/
def PLT_SCHEDULE_DEPTH : Fld := ⟨0x700E4, 0, 32⟩
/-- R360 (09). -/
def PLT_BILL_SEQ : Fld := ⟨0x700E8, 0, 32⟩
/-- R360 (09). -/
def PLT_BILL_IMPORT : Fld := ⟨0x700EC, 0, 32⟩
/-- R360 (09). -/
def PLT_BILL_EXPORT : Fld := ⟨0x700F0, 0, 32⟩
/-- R360 (09). -/
def PLT_BILL_FLAGS : Fld := ⟨0x700F4, 0, 32⟩
/-- R360 (09). -/
def PLT_DISP_EVENT_STATUS : Fld := ⟨0x700F8, 0, 32⟩
/-- R361 [5:5], W1C. -/
def PLT_DISP_EVENT_STATUS_PCS_CHANGE : Fld := ⟨0x700F8, 5, 1⟩
/-- R361 [4:4], W1C. -/
def PLT_DISP_EVENT_STATUS_MODE_CHANGE : Fld := ⟨0x700F8, 4, 1⟩
/-- R361 [3:3], W1C. -/
def PLT_DISP_EVENT_STATUS_RESERVE_BREACHED : Fld := ⟨0x700F8, 3, 1⟩
/-- R361 [2:2], W1C. -/
def PLT_DISP_EVENT_STATUS_RESERVE_LOW : Fld := ⟨0x700F8, 2, 1⟩
/-- R361 [1:1], W1C. -/
def PLT_DISP_EVENT_STATUS_SOURCE_FALLBACK : Fld := ⟨0x700F8, 1, 1⟩
/-- R361 [0:0], W1C. -/
def PLT_DISP_EVENT_STATUS_STALE : Fld := ⟨0x700F8, 0, 1⟩
/-- R360 (09). -/
def PLT_DISP_EVENT_ENABLE : Fld := ⟨0x700FC, 0, 32⟩
/-- R360 (09). -/
def PLT_PCS_STATUS (i : Nat) : Fld := ⟨inst 0x70100 0x4 64 i, 0, 32⟩
/-- R361 [31:28], RO. -/
def PLT_PCS_STATUS_STATE (i : Nat) : Fld := ⟨inst 0x70100 0x4 64 i, 28, 4⟩
/-- R361 [27:27], RO. -/
def PLT_PCS_STATUS_GRID_PRESENT (i : Nat) : Fld := ⟨inst 0x70100 0x4 64 i, 27, 1⟩
/-- R361 [26:26], RO. -/
def PLT_PCS_STATUS_ISLAND (i : Nat) : Fld := ⟨inst 0x70100 0x4 64 i, 26, 1⟩
/-- R361 [25:25], RO. -/
def PLT_PCS_STATUS_FLOOR (i : Nat) : Fld := ⟨inst 0x70100 0x4 64 i, 25, 1⟩
/-- R361 [24:24], RO. -/
def PLT_PCS_STATUS_CEILING (i : Nat) : Fld := ⟨inst 0x70100 0x4 64 i, 24, 1⟩
/-- R361 [23:23], RO. -/
def PLT_PCS_STATUS_LATE (i : Nat) : Fld := ⟨inst 0x70100 0x4 64 i, 23, 1⟩
/-- R361 [22:22], RO. -/
def PLT_PCS_STATUS_FAULT (i : Nat) : Fld := ⟨inst 0x70100 0x4 64 i, 22, 1⟩
/-- R361 [15:0], RO. -/
def PLT_PCS_STATUS_POWER (i : Nat) : Fld := ⟨inst 0x70100 0x4 64 i, 0, 16⟩

-- block LOOP
/-- R405 (10). -/
def LOOP_STATUS : Fld := ⟨0x80000, 0, 32⟩
/-- R406 [3:2], RO. -/
def LOOP_STATUS_ENGINE : Fld := ⟨0x80000, 2, 2⟩
/-- R406 [1:1], RO. -/
def LOOP_STATUS_REBUILDING : Fld := ⟨0x80000, 1, 1⟩
/-- R406 [0:0], RO. -/
def LOOP_STATUS_GLIDE_SCHEDULE : Fld := ⟨0x80000, 0, 1⟩
/-- R405 (10). -/
def LOOP_CONTROL : Fld := ⟨0x80004, 0, 32⟩
/-- R406 [31:24], WO. -/
def LOOP_CONTROL_KEY : Fld := ⟨0x80004, 24, 8⟩
/-- R406 [3:0], WO. -/
def LOOP_CONTROL_CMD : Fld := ⟨0x80004, 0, 4⟩
/-- R405 (10). -/
def LOOP_LANE_STATUS : Fld := ⟨0x80008, 0, 32⟩
/-- R406 [5:4], RO. -/
def LOOP_LANE_STATUS_LANE_C : Fld := ⟨0x80008, 4, 2⟩
/-- R406 [3:2], RO. -/
def LOOP_LANE_STATUS_LANE_B : Fld := ⟨0x80008, 2, 2⟩
/-- R406 [1:0], RO. -/
def LOOP_LANE_STATUS_LANE_A : Fld := ⟨0x80008, 0, 2⟩
/-- R405 (10). -/
def LOOP_SCHED_END : Fld := ⟨0x8000C, 0, 32⟩
/-- R405 (10). -/
def LOOP_TICK_LENGTH : Fld := ⟨0x80010, 0, 32⟩
/-- R405 (10). -/
def LOOP_SYNC_CONTROL : Fld := ⟨0x80014, 0, 32⟩
/-- R406 [31:24], WO. -/
def LOOP_SYNC_CONTROL_KEY : Fld := ⟨0x80014, 24, 8⟩
/-- R406 [1:0], WO. -/
def LOOP_SYNC_CONTROL_CMD : Fld := ⟨0x80014, 0, 2⟩
/-- R405 (10). -/
def LOOP_SYNC_STATUS : Fld := ⟨0x80018, 0, 32⟩
/-- R406 [25:16], RO. -/
def LOOP_SYNC_STATUS_PERIOD : Fld := ⟨0x80018, 16, 10⟩
/-- R406 [11:8], RO. -/
def LOOP_SYNC_STATUS_MISSED_RUN : Fld := ⟨0x80018, 8, 4⟩
/-- R406 [7:4], RO. -/
def LOOP_SYNC_STATUS_EARLY_RUN : Fld := ⟨0x80018, 4, 4⟩
/-- R406 [2:0], RO. -/
def LOOP_SYNC_STATUS_STATE : Fld := ⟨0x80018, 0, 3⟩
/-- R405 (10). -/
def LOOP_SYNC_OUT : Fld := ⟨0x8001C, 0, 32⟩
/-- R405 (10). -/
def LOOP_SYNC_EARLY : Fld := ⟨0x80020, 0, 32⟩
/-- R405 (10). -/
def LOOP_SYNC_MISSED : Fld := ⟨0x80024, 0, 32⟩
/-- R405 (10). -/
def LOOP_LANE_MISMATCHES : Fld := ⟨0x80028, 0, 32⟩
/-- R405 (10). -/
def LOOP_REBUILDS : Fld := ⟨0x8002C, 0, 32⟩
/-- R405 (10). -/
def LOOP_FAULTS : Fld := ⟨0x80030, 0, 32⟩
/-- R405 (10). -/
def LOOP_NONFINITE : Fld := ⟨0x80034, 0, 32⟩
/-- R405 (10). -/
def LOOP_FAULT_INFO : Fld := ⟨0x80038, 0, 32⟩
/-- R406 [31:28], RO. -/
def LOOP_FAULT_INFO_CAUSE : Fld := ⟨0x80038, 28, 4⟩
/-- R406 [18:16], RO. -/
def LOOP_FAULT_INFO_LANES : Fld := ⟨0x80038, 16, 3⟩
/-- R406 [8:0], RO. -/
def LOOP_FAULT_INFO_SLOT : Fld := ⟨0x80038, 0, 9⟩
/-- R405 (10). -/
def LOOP_SLOTS_FAULTED : Fld := ⟨0x8003C, 0, 32⟩
/-- R405 (10). -/
def LOOP_SIG_INDEX : Fld := ⟨0x80040, 0, 32⟩
/-- R405 (10). -/
def LOOP_SIG_WRITE : Fld := ⟨0x80044, 0, 32⟩
/-- R405 (10). -/
def LOOP_SIG_WRITE_STATUS : Fld := ⟨0x80048, 0, 32⟩
/-- R406 [15:8], RO. -/
def LOOP_SIG_WRITE_STATUS_RESULT : Fld := ⟨0x80048, 8, 8⟩
/-- R406 [0:0], RO. -/
def LOOP_SIG_WRITE_STATUS_PENDING : Fld := ⟨0x80048, 0, 1⟩
/-- R405 (10). -/
def LOOP_HOST_WRITES : Fld := ⟨0x8004C, 0, 32⟩
/-- R405 (10). -/
def LOOP_HOST_REFUSED : Fld := ⟨0x80050, 0, 32⟩
/-- R405 (10). -/
def LOOP_SLOT_SELECT : Fld := ⟨0x80054, 0, 32⟩
/-- R405 (10). -/
def LOOP_SLOT_STATUS : Fld := ⟨0x80058, 0, 32⟩
/-- R406 [31:28], RO. -/
def LOOP_SLOT_STATUS_STATE : Fld := ⟨0x80058, 28, 4⟩
/-- R406 [15:0], RO. -/
def LOOP_SLOT_STATUS_CONSEC_NONFINITE : Fld := ⟨0x80058, 0, 16⟩
/-- R405 (10). -/
def LOOP_SLOT_RUNS : Fld := ⟨0x8005C, 0, 32⟩
/-- R405 (10). -/
def LOOP_SLOT_NONFINITE : Fld := ⟨0x80060, 0, 32⟩
/-- R405 (10). -/
def LOOP_WINDOW_TICK_LO : Fld := ⟨0x80064, 0, 32⟩
/-- R405 (10). -/
def LOOP_WINDOW_TICK_HI : Fld := ⟨0x80068, 0, 32⟩
/-- R405 (10). -/
def LOOP_PARKED_GROUPS : Fld := ⟨0x8006C, 0, 32⟩
/-- R405 (10). -/
def LOOP_EVENT_STATUS : Fld := ⟨0x80070, 0, 32⟩
/-- R406 [7:7], W1C. -/
def LOOP_EVENT_STATUS_HOST_WRITE_REFUSED : Fld := ⟨0x80070, 7, 1⟩
/-- R406 [6:6], W1C. -/
def LOOP_EVENT_STATUS_HALTED : Fld := ⟨0x80070, 6, 1⟩
/-- R406 [5:5], W1C. -/
def LOOP_EVENT_STATUS_SYNC_CHANGE : Fld := ⟨0x80070, 5, 1⟩
/-- R406 [4:4], W1C. -/
def LOOP_EVENT_STATUS_SLOT_PARKED : Fld := ⟨0x80070, 4, 1⟩
/-- R406 [3:3], W1C. -/
def LOOP_EVENT_STATUS_NONFINITE : Fld := ⟨0x80070, 3, 1⟩
/-- R406 [2:2], W1C. -/
def LOOP_EVENT_STATUS_LOOP_FAULT : Fld := ⟨0x80070, 2, 1⟩
/-- R406 [1:1], W1C. -/
def LOOP_EVENT_STATUS_LANE_RETIRED : Fld := ⟨0x80070, 1, 1⟩
/-- R406 [0:0], W1C. -/
def LOOP_EVENT_STATUS_LANE_MISMATCH : Fld := ⟨0x80070, 0, 1⟩
/-- R405 (10). -/
def LOOP_EVENT_ENABLE : Fld := ⟨0x80074, 0, 32⟩
/-- R405 (10). -/
def LOOP_SLOTS_DEFINED : Fld := ⟨0x80078, 0, 32⟩
/-- R406 [25:16], RO. -/
def LOOP_SLOTS_DEFINED_GLIDE : Fld := ⟨0x80078, 16, 10⟩
/-- R406 [9:0], RO. -/
def LOOP_SLOTS_DEFINED_STRIDE : Fld := ⟨0x80078, 0, 10⟩
/-- R405 (10). -/
def LOOP_STAGED_OVERWRITTEN : Fld := ⟨0x8007C, 0, 32⟩
/-- R405 (10). -/
def LOOP_GROUP_PHASE (i : Nat) : Fld := ⟨inst 0x80100 0x10 16 i, 0, 32⟩
/-- R406 [31:16], RO. -/
def LOOP_GROUP_PHASE_GLIDE_PHASE (i : Nat) : Fld := ⟨inst 0x80100 0x10 16 i, 16, 16⟩
/-- R406 [15:0], RO. -/
def LOOP_GROUP_PHASE_STRIDE_PHASE (i : Nat) : Fld := ⟨inst 0x80100 0x10 16 i, 0, 16⟩
/-- R405 (10). -/
def LOOP_GROUP_STATUS (i : Nat) : Fld := ⟨inst 0x80104 0x10 16 i, 0, 32⟩
/-- R406 [23:16], RO. -/
def LOOP_GROUP_STATUS_DESTINATION (i : Nat) : Fld := ⟨inst 0x80104 0x10 16 i, 16, 8⟩
/-- R406 [2:2], RO. -/
def LOOP_GROUP_STATUS_SAFETY_REPORT (i : Nat) : Fld := ⟨inst 0x80104 0x10 16 i, 2, 1⟩
/-- R406 [1:1], RO. -/
def LOOP_GROUP_STATUS_PARKED_FAULT (i : Nat) : Fld := ⟨inst 0x80104 0x10 16 i, 1, 1⟩
/-- R406 [0:0], RO. -/
def LOOP_GROUP_STATUS_PARKED_STATE (i : Nat) : Fld := ⟨inst 0x80104 0x10 16 i, 0, 1⟩
/-- R405 (10). -/
def LOOP_GROUP_LATCHES (i : Nat) : Fld := ⟨inst 0x80108 0x10 16 i, 0, 32⟩

-- block PWM
/-- R407 (10). -/
def PWM_STATUS : Fld := ⟨0x90000, 0, 32⟩
/-- R408 [16:16], RO. -/
def PWM_STATUS_LIVE : Fld := ⟨0x90000, 16, 1⟩
/-- R408 [11:0], RO. -/
def PWM_STATUS_SWITCHING : Fld := ⟨0x90000, 0, 12⟩
/-- R407 (10). -/
def PWM_CONTROL : Fld := ⟨0x90004, 0, 32⟩
/-- R408 [31:24], WO. -/
def PWM_CONTROL_KEY : Fld := ⟨0x90004, 24, 8⟩
/-- R408 [3:0], WO. -/
def PWM_CONTROL_CMD : Fld := ⟨0x90004, 0, 4⟩
/-- R407 (10). -/
def PWM_INHIBIT : Fld := ⟨0x90008, 0, 32⟩
/-- R407 (10). -/
def PWM_FAULT_STATUS : Fld := ⟨0x9000C, 0, 32⟩
/-- R408 [19:16], RO. -/
def PWM_FAULT_STATUS_ACTIVE : Fld := ⟨0x9000C, 16, 4⟩
/-- R408 [3:0], W1C. -/
def PWM_FAULT_STATUS_LATCHED : Fld := ⟨0x9000C, 0, 4⟩
/-- R407 (10). -/
def PWM_FAULT_PAIRS : Fld := ⟨0x90010, 0, 32⟩
/-- R407 (10). -/
def PWM_FAULT_COUNT : Fld := ⟨0x90014, 0, 32⟩
/-- R407 (10). -/
def PWM_EVENT_STATUS : Fld := ⟨0x90018, 0, 32⟩
/-- R408 [1:1], W1C. -/
def PWM_EVENT_STATUS_PAIR_OFF : Fld := ⟨0x90018, 1, 1⟩
/-- R408 [0:0], W1C. -/
def PWM_EVENT_STATUS_FAULT_INPUT : Fld := ⟨0x90018, 0, 1⟩
/-- R407 (10). -/
def PWM_EVENT_ENABLE : Fld := ⟨0x9001C, 0, 32⟩
/-- R407 (10). -/
def PWM_TB_PERIOD (i : Nat) : Fld := ⟨inst 0x90020 0x4 4 i, 0, 32⟩
/-- R408 [31:31], RO. -/
def PWM_TB_PERIOD_CENTRE (i : Nat) : Fld := ⟨inst 0x90020 0x4 4 i, 31, 1⟩
/-- R408 [21:0], RO. -/
def PWM_TB_PERIOD_PERIOD (i : Nat) : Fld := ⟨inst 0x90020 0x4 4 i, 0, 22⟩
/-- R407 (10). -/
def PWM_PAIR_CONFIG (i : Nat) : Fld := ⟨inst 0x90040 0x10 12 i, 0, 32⟩
/-- R408 [31:30], RO. -/
def PWM_PAIR_CONFIG_TIMEBASE (i : Nat) : Fld := ⟨inst 0x90040 0x10 12 i, 30, 2⟩
/-- R408 [29:29], RO. -/
def PWM_PAIR_CONFIG_INV_HIGH (i : Nat) : Fld := ⟨inst 0x90040 0x10 12 i, 29, 1⟩
/-- R408 [28:28], RO. -/
def PWM_PAIR_CONFIG_INV_LOW (i : Nat) : Fld := ⟨inst 0x90040 0x10 12 i, 28, 1⟩
/-- R408 [27:27], RO. -/
def PWM_PAIR_CONFIG_DOUBLE_UPDATE (i : Nat) : Fld := ⟨inst 0x90040 0x10 12 i, 27, 1⟩
/-- R408 [16:13], RO. -/
def PWM_PAIR_CONFIG_FAULT_MASK (i : Nat) : Fld := ⟨inst 0x90040 0x10 12 i, 13, 4⟩
/-- R408 [12:0], RO. -/
def PWM_PAIR_CONFIG_DEAD_TIME (i : Nat) : Fld := ⟨inst 0x90040 0x10 12 i, 0, 13⟩
/-- R407 (10). -/
def PWM_PAIR_COMPARE (i : Nat) : Fld := ⟨inst 0x90044 0x10 12 i, 0, 32⟩
/-- R407 (10). -/
def PWM_PAIR_STATUS (i : Nat) : Fld := ⟨inst 0x90048 0x10 12 i, 0, 32⟩
/-- R408 [31:28], RO. -/
def PWM_PAIR_STATUS_STATE (i : Nat) : Fld := ⟨inst 0x90048 0x10 12 i, 28, 4⟩
/-- R408 [15:0], RO. -/
def PWM_PAIR_STATUS_PULSES_OMITTED (i : Nat) : Fld := ⟨inst 0x90048 0x10 12 i, 0, 16⟩

-- block GRP
/-- R435 (11). -/
def GRP_STATUS : Fld := ⟨0xA0000, 0, 32⟩
/-- R436 [7:7], RO. -/
def GRP_STATUS_FIRE_RECALL : Fld := ⟨0xA0000, 7, 1⟩
/-- R436 [6:6], RO. -/
def GRP_STATUS_RESERVE_UNKNOWN : Fld := ⟨0xA0000, 6, 1⟩
/-- R436 [5:5], RO. -/
def GRP_STATUS_RESERVE_LIMITED : Fld := ⟨0xA0000, 5, 1⟩
/-- R436 [4:4], RO. -/
def GRP_STATUS_STOPPED_THERMAL : Fld := ⟨0xA0000, 4, 1⟩
/-- R436 [2:0], RO. -/
def GRP_STATUS_MODE : Fld := ⟨0xA0000, 0, 3⟩
/-- R435 (11). -/
def GRP_CONTROL : Fld := ⟨0xA0004, 0, 32⟩
/-- R436 [31:24], WO. -/
def GRP_CONTROL_KEY : Fld := ⟨0xA0004, 24, 8⟩
/-- R436 [3:0], WO. -/
def GRP_CONTROL_CMD : Fld := ⟨0xA0004, 0, 4⟩
/-- R435 (11). -/
def GRP_PATTERN : Fld := ⟨0xA0008, 0, 32⟩
/-- R436 [23:16], RO. -/
def GRP_PATTERN_IN_FORCE : Fld := ⟨0xA0008, 16, 8⟩
/-- R436 [7:0], RW. -/
def GRP_PATTERN_SELECTED : Fld := ⟨0xA0008, 0, 8⟩
/-- R435 (11). -/
def GRP_CALLS_REGISTERED : Fld := ⟨0xA000C, 0, 32⟩
/-- R436 [31:16], RO. -/
def GRP_CALLS_REGISTERED_CAR : Fld := ⟨0xA000C, 16, 16⟩
/-- R436 [15:0], RO. -/
def GRP_CALLS_REGISTERED_LANDING : Fld := ⟨0xA000C, 0, 16⟩
/-- R435 (11). -/
def GRP_CALLS_ASSIGNED : Fld := ⟨0xA0010, 0, 32⟩
/-- R435 (11). -/
def GRP_CALLS_REFUSED : Fld := ⟨0xA0014, 0, 32⟩
/-- R435 (11). -/
def GRP_REASSIGNMENTS : Fld := ⟨0xA0018, 0, 32⟩
/-- R435 (11). -/
def GRP_ENERGY_COMMITTED : Fld := ⟨0xA001C, 0, 32⟩
/-- R435 (11). -/
def GRP_RESERVE_HEADROOM : Fld := ⟨0xA0020, 0, 32⟩
/-- R435 (11). -/
def GRP_AVG_WAIT : Fld := ⟨0xA0024, 0, 32⟩
/-- R435 (11). -/
def GRP_EVAC_STATUS : Fld := ⟨0xA0028, 0, 32⟩
/-- R436 [23:16], RO. -/
def GRP_EVAC_STATUS_CARS_MOVING : Fld := ⟨0xA0028, 16, 8⟩
/-- R436 [15:8], RO. -/
def GRP_EVAC_STATUS_CARS_WAITING : Fld := ⟨0xA0028, 8, 8⟩
/-- R436 [7:0], RO. -/
def GRP_EVAC_STATUS_CALLS_RAISED : Fld := ⟨0xA0028, 0, 8⟩
/-- R435 (11). -/
def GRP_EVAC_TRIPS : Fld := ⟨0xA002C, 0, 32⟩
/-- R435 (11). -/
def GRP_FIXTURES_ONLINE : Fld := ⟨0xA0030, 0, 32⟩
/-- R435 (11). -/
def GRP_FIXTURES_FAULT : Fld := ⟨0xA0034, 0, 32⟩
/-- R436 [26:16], RO. -/
def GRP_FIXTURES_FAULT_STUCK : Fld := ⟨0xA0034, 16, 11⟩
/-- R436 [10:0], RO. -/
def GRP_FIXTURES_FAULT_LOST : Fld := ⟨0xA0034, 0, 11⟩
/-- R435 (11). -/
def GRP_EVENT_STATUS : Fld := ⟨0xA0038, 0, 32⟩
/-- R436 [4:4], W1C. -/
def GRP_EVENT_STATUS_EVAC_DESIGN : Fld := ⟨0xA0038, 4, 1⟩
/-- R436 [3:3], W1C. -/
def GRP_EVENT_STATUS_FIXTURE_FAULT : Fld := ⟨0xA0038, 3, 1⟩
/-- R436 [2:2], W1C. -/
def GRP_EVENT_STATUS_CAR_SERVICE : Fld := ⟨0xA0038, 2, 1⟩
/-- R436 [1:1], W1C. -/
def GRP_EVENT_STATUS_STRANDED : Fld := ⟨0xA0038, 1, 1⟩
/-- R436 [0:0], W1C. -/
def GRP_EVENT_STATUS_REFUSED : Fld := ⟨0xA0038, 0, 1⟩
/-- R435 (11). -/
def GRP_EVENT_ENABLE : Fld := ⟨0xA003C, 0, 32⟩
/-- R435 (11). -/
def GRP_CAR_STATE (i : Nat) : Fld := ⟨inst 0xA0100 0x10 8 i, 0, 32⟩
/-- R436 [31:28], RO. -/
def GRP_CAR_STATE_STATE (i : Nat) : Fld := ⟨inst 0xA0100 0x10 8 i, 28, 4⟩
/-- R436 [27:26], RO. -/
def GRP_CAR_STATE_DIRECTION (i : Nat) : Fld := ⟨inst 0xA0100 0x10 8 i, 26, 2⟩
/-- R436 [25:25], RO. -/
def GRP_CAR_STATE_FULL_LOAD (i : Nat) : Fld := ⟨inst 0xA0100 0x10 8 i, 25, 1⟩
/-- R436 [24:24], RO. -/
def GRP_CAR_STATE_COMMITTED (i : Nat) : Fld := ⟨inst 0xA0100 0x10 8 i, 24, 1⟩
/-- R436 [15:0], RO. -/
def GRP_CAR_STATE_LOAD (i : Nat) : Fld := ⟨inst 0xA0100 0x10 8 i, 0, 16⟩
/-- R435 (11). -/
def GRP_CAR_NEXT (i : Nat) : Fld := ⟨inst 0xA0104 0x10 8 i, 0, 32⟩
/-- R436 [23:16], RO. -/
def GRP_CAR_NEXT_POSITION (i : Nat) : Fld := ⟨inst 0xA0104 0x10 8 i, 16, 8⟩
/-- R436 [7:7], RO. -/
def GRP_CAR_NEXT_VALID (i : Nat) : Fld := ⟨inst 0xA0104 0x10 8 i, 7, 1⟩
/-- R436 [6:0], RO. -/
def GRP_CAR_NEXT_NEXT (i : Nat) : Fld := ⟨inst 0xA0104 0x10 8 i, 0, 7⟩
/-- R435 (11). -/
def GRP_CAR_CALLS (i : Nat) : Fld := ⟨inst 0xA0108 0x10 8 i, 0, 32⟩
/-- R436 [31:16], RO. -/
def GRP_CAR_CALLS_CAR (i : Nat) : Fld := ⟨inst 0xA0108 0x10 8 i, 16, 16⟩
/-- R436 [15:0], RO. -/
def GRP_CAR_CALLS_LANDING (i : Nat) : Fld := ⟨inst 0xA0108 0x10 8 i, 0, 16⟩
/-- R435 (11). -/
def GRP_CAR_ENERGY (i : Nat) : Fld := ⟨inst 0xA010C 0x10 8 i, 0, 32⟩

-- block CAR
/-- R485 (12). -/
def CAR_STATUS (i : Nat) : Fld := ⟨inst 0xB0000 0x1000 8 i, 0, 32⟩
/-- R486 [31:28], RO. -/
def CAR_STATUS_STATE (i : Nat) : Fld := ⟨inst 0xB0000 0x1000 8 i, 28, 4⟩
/-- R486 [27:26], RO. -/
def CAR_STATUS_DIRECTION (i : Nat) : Fld := ⟨inst 0xB0000 0x1000 8 i, 26, 2⟩
/-- R486 [25:25], RO. -/
def CAR_STATUS_COMMITTED (i : Nat) : Fld := ⟨inst 0xB0000 0x1000 8 i, 25, 1⟩
/-- R486 [24:24], RO. -/
def CAR_STATUS_IN_DOOR_ZONE (i : Nat) : Fld := ⟨inst 0xB0000 0x1000 8 i, 24, 1⟩
/-- R486 [23:23], RO. -/
def CAR_STATUS_LEVEL (i : Nat) : Fld := ⟨inst 0xB0000 0x1000 8 i, 23, 1⟩
/-- R486 [22:20], RO. -/
def CAR_STATUS_LIMIT_CAUSE (i : Nat) : Fld := ⟨inst 0xB0000 0x1000 8 i, 20, 3⟩
/-- R486 [14:8], RO. -/
def CAR_STATUS_LANDING (i : Nat) : Fld := ⟨inst 0xB0000 0x1000 8 i, 8, 7⟩
/-- R485 (12). -/
def CAR_CONTROL (i : Nat) : Fld := ⟨inst 0xB0004 0x1000 8 i, 0, 32⟩
/-- R486 [31:24], WO. -/
def CAR_CONTROL_KEY (i : Nat) : Fld := ⟨inst 0xB0004 0x1000 8 i, 24, 8⟩
/-- R486 [3:0], WO. -/
def CAR_CONTROL_CMD (i : Nat) : Fld := ⟨inst 0xB0004 0x1000 8 i, 0, 4⟩
/-- R485 (12). -/
def CAR_NEXT_STOP (i : Nat) : Fld := ⟨inst 0xB0008 0x1000 8 i, 0, 32⟩
/-- R486 [16:16], RO. -/
def CAR_NEXT_STOP_VALID (i : Nat) : Fld := ⟨inst 0xB0008 0x1000 8 i, 16, 1⟩
/-- R486 [8:8], RO. -/
def CAR_NEXT_STOP_ENTRANCE (i : Nat) : Fld := ⟨inst 0xB0008 0x1000 8 i, 8, 1⟩
/-- R486 [6:0], RO. -/
def CAR_NEXT_STOP_LANDING (i : Nat) : Fld := ⟨inst 0xB0008 0x1000 8 i, 0, 7⟩
/-- R485 (12). -/
def CAR_SPEED_LIMIT (i : Nat) : Fld := ⟨inst 0xB000C 0x1000 8 i, 0, 32⟩
/-- R485 (12). -/
def CAR_ACCEL_LIMIT (i : Nat) : Fld := ⟨inst 0xB0010 0x1000 8 i, 0, 32⟩
/-- R485 (12). -/
def CAR_SPEED_REF (i : Nat) : Fld := ⟨inst 0xB0014 0x1000 8 i, 0, 32⟩
/-- R485 (12). -/
def CAR_SPEED_ACT (i : Nat) : Fld := ⟨inst 0xB0018 0x1000 8 i, 0, 32⟩
/-- R485 (12). -/
def CAR_ACCEL_REF (i : Nat) : Fld := ⟨inst 0xB001C 0x1000 8 i, 0, 32⟩
/-- R485 (12). -/
def CAR_TO_GO (i : Nat) : Fld := ⟨inst 0xB0020 0x1000 8 i, 0, 32⟩
/-- R485 (12). -/
def CAR_LEVEL_ERROR (i : Nat) : Fld := ⟨inst 0xB0024 0x1000 8 i, 0, 32⟩
/-- R485 (12). -/
def CAR_LOAD (i : Nat) : Fld := ⟨inst 0xB0028 0x1000 8 i, 0, 32⟩
/-- R485 (12). -/
def CAR_MOVES (i : Nat) : Fld := ⟨inst 0xB002C 0x1000 8 i, 0, 32⟩
/-- R485 (12). -/
def CAR_TRAVEL_LO (i : Nat) : Fld := ⟨inst 0xB0030 0x1000 8 i, 0, 32⟩
/-- R485 (12). -/
def CAR_TRAVEL_HI (i : Nat) : Fld := ⟨inst 0xB0034 0x1000 8 i, 0, 32⟩
/-- R485 (12). -/
def CAR_STOPS_RAMPED (i : Nat) : Fld := ⟨inst 0xB0038 0x1000 8 i, 0, 32⟩
/-- R485 (12). -/
def CAR_STOPS_HARD (i : Nat) : Fld := ⟨inst 0xB003C 0x1000 8 i, 0, 32⟩
/-- R485 (12). -/
def CAR_RELEVELS (i : Nat) : Fld := ⟨inst 0xB0040 0x1000 8 i, 0, 32⟩
/-- R485 (12). -/
def CAR_TERMINAL_STATUS (i : Nat) : Fld := ⟨inst 0xB0044 0x1000 8 i, 0, 32⟩
/-- R486 [8:8], W1C. -/
def CAR_TERMINAL_STATUS_MISMATCH (i : Nat) : Fld := ⟨inst 0xB0044 0x1000 8 i, 8, 1⟩
/-- R486 [7:4], RO. -/
def CAR_TERMINAL_STATUS_TSD_ACTIVE (i : Nat) : Fld := ⟨inst 0xB0044 0x1000 8 i, 4, 4⟩
/-- R486 [1:1], RO. -/
def CAR_TERMINAL_STATUS_FINAL_TOP (i : Nat) : Fld := ⟨inst 0xB0044 0x1000 8 i, 1, 1⟩
/-- R486 [0:0], RO. -/
def CAR_TERMINAL_STATUS_FINAL_BOTTOM (i : Nat) : Fld := ⟨inst 0xB0044 0x1000 8 i, 0, 1⟩
/-- R485 (12). -/
def CAR_DRIVE_STATUS (i : Nat) : Fld := ⟨inst 0xB0048 0x1000 8 i, 0, 32⟩
/-- R486 [31:16], RO. -/
def CAR_DRIVE_STATUS_FAULT_CODE (i : Nat) : Fld := ⟨inst 0xB0048 0x1000 8 i, 16, 16⟩
/-- R486 [8:8], RO. -/
def CAR_DRIVE_STATUS_LOST (i : Nat) : Fld := ⟨inst 0xB0048 0x1000 8 i, 8, 1⟩
/-- R486 [7:0], RO. -/
def CAR_DRIVE_STATUS_FLAGS (i : Nat) : Fld := ⟨inst 0xB0048 0x1000 8 i, 0, 8⟩
/-- R485 (12). -/
def CAR_DRIVE_SPEED (i : Nat) : Fld := ⟨inst 0xB004C 0x1000 8 i, 0, 32⟩
/-- R485 (12). -/
def CAR_DRIVE_TORQUE (i : Nat) : Fld := ⟨inst 0xB0050 0x1000 8 i, 0, 32⟩
/-- R485 (12). -/
def CAR_DRIVE_FRAMES (i : Nat) : Fld := ⟨inst 0xB0054 0x1000 8 i, 0, 32⟩
/-- R485 (12). -/
def CAR_DRIVE_MISSED (i : Nat) : Fld := ⟨inst 0xB0058 0x1000 8 i, 0, 32⟩
/-- R485 (12). -/
def CAR_LAST_STOP (i : Nat) : Fld := ⟨inst 0xB005C 0x1000 8 i, 0, 32⟩
/-- R486 [15:8], RO. -/
def CAR_LAST_STOP_CAUSE (i : Nat) : Fld := ⟨inst 0xB005C 0x1000 8 i, 8, 8⟩
/-- R486 [1:0], RO. -/
def CAR_LAST_STOP_KIND (i : Nat) : Fld := ⟨inst 0xB005C 0x1000 8 i, 0, 2⟩
/-- R485 (12). -/
def CAR_EVENT_STATUS (i : Nat) : Fld := ⟨inst 0xB0060 0x1000 8 i, 0, 32⟩
/-- R486 [5:5], W1C. -/
def CAR_EVENT_STATUS_DRIVE_LOST (i : Nat) : Fld := ⟨inst 0xB0060 0x1000 8 i, 5, 1⟩
/-- R486 [4:4], W1C. -/
def CAR_EVENT_STATUS_TERMINAL (i : Nat) : Fld := ⟨inst 0xB0060 0x1000 8 i, 4, 1⟩
/-- R486 [3:3], W1C. -/
def CAR_EVENT_STATUS_STOP_HARD (i : Nat) : Fld := ⟨inst 0xB0060 0x1000 8 i, 3, 1⟩
/-- R486 [2:2], W1C. -/
def CAR_EVENT_STATUS_STOP_RAMPED (i : Nat) : Fld := ⟨inst 0xB0060 0x1000 8 i, 2, 1⟩
/-- R486 [1:1], W1C. -/
def CAR_EVENT_STATUS_RELEVELLED (i : Nat) : Fld := ⟨inst 0xB0060 0x1000 8 i, 1, 1⟩
/-- R486 [0:0], W1C. -/
def CAR_EVENT_STATUS_ARRIVED (i : Nat) : Fld := ⟨inst 0xB0060 0x1000 8 i, 0, 1⟩
/-- R485 (12). -/
def CAR_EVENT_ENABLE (i : Nat) : Fld := ⟨inst 0xB0064 0x1000 8 i, 0, 32⟩
/-- R485 (12). -/
def CAR_START_TIME (i : Nat) : Fld := ⟨inst 0xB0068 0x1000 8 i, 0, 32⟩
/-- R485 (12). -/
def CAR_MOVE_TIME (i : Nat) : Fld := ⟨inst 0xB006C 0x1000 8 i, 0, 32⟩

-- block POS
/-- R487 (12). -/
def POS_STATUS (i : Nat) : Fld := ⟨inst 0xD0000 0x1000 8 i, 0, 32⟩
/-- R488 [31:28], RO. -/
def POS_STATUS_QUALITY (i : Nat) : Fld := ⟨inst 0xD0000 0x1000 8 i, 28, 4⟩
/-- R488 [27:27], W1C. -/
def POS_STATUS_WRAP_MOTOR (i : Nat) : Fld := ⟨inst 0xD0000 0x1000 8 i, 27, 1⟩
/-- R488 [26:26], W1C. -/
def POS_STATUS_WRAP_FUSED (i : Nat) : Fld := ⟨inst 0xD0000 0x1000 8 i, 26, 1⟩
/-- R488 [25:25], RO. -/
def POS_STATUS_SATURATED (i : Nat) : Fld := ⟨inst 0xD0000 0x1000 8 i, 25, 1⟩
/-- R488 [24:24], RO. -/
def POS_STATUS_MARGIN_ACTIVE (i : Nat) : Fld := ⟨inst 0xD0000 0x1000 8 i, 24, 1⟩
/-- R488 [23:23], RO. -/
def POS_STATUS_TARGET_FROZEN (i : Nat) : Fld := ⟨inst 0xD0000 0x1000 8 i, 23, 1⟩
/-- R488 [22:22], RO. -/
def POS_STATUS_SPEED_BY_COUNT (i : Nat) : Fld := ⟨inst 0xD0000 0x1000 8 i, 22, 1⟩
/-- R488 [18:18], RO. -/
def POS_STATUS_EMU_RUNNING (i : Nat) : Fld := ⟨inst 0xD0000 0x1000 8 i, 18, 1⟩
/-- R488 [17:17], RO. -/
def POS_STATUS_TAPE_FAULT (i : Nat) : Fld := ⟨inst 0xD0000 0x1000 8 i, 17, 1⟩
/-- R488 [16:16], RO. -/
def POS_STATUS_MOTOR_FAULT (i : Nat) : Fld := ⟨inst 0xD0000 0x1000 8 i, 16, 1⟩
/-- R488 [15:8], RO. -/
def POS_STATUS_MISS_RUN (i : Nat) : Fld := ⟨inst 0xD0000 0x1000 8 i, 8, 8⟩
/-- R487 (12). -/
def POS_CONTROL (i : Nat) : Fld := ⟨inst 0xD0004 0x1000 8 i, 0, 32⟩
/-- R488 [31:24], WO. -/
def POS_CONTROL_KEY (i : Nat) : Fld := ⟨inst 0xD0004 0x1000 8 i, 24, 8⟩
/-- R488 [3:0], WO. -/
def POS_CONTROL_CMD (i : Nat) : Fld := ⟨inst 0xD0004 0x1000 8 i, 0, 4⟩
/-- R487 (12). -/
def POS_FUSED_LO (i : Nat) : Fld := ⟨inst 0xD0008 0x1000 8 i, 0, 32⟩
/-- R487 (12). -/
def POS_FUSED_HI (i : Nat) : Fld := ⟨inst 0xD000C 0x1000 8 i, 0, 32⟩
/-- R487 (12). -/
def POS_MOTOR_COUNT_LO (i : Nat) : Fld := ⟨inst 0xD0010 0x1000 8 i, 0, 32⟩
/-- R487 (12). -/
def POS_MOTOR_COUNT_HI (i : Nat) : Fld := ⟨inst 0xD0014 0x1000 8 i, 0, 32⟩
/-- R487 (12). -/
def POS_TAPE_LO (i : Nat) : Fld := ⟨inst 0xD0018 0x1000 8 i, 0, 32⟩
/-- R487 (12). -/
def POS_TAPE_HI (i : Nat) : Fld := ⟨inst 0xD001C 0x1000 8 i, 0, 32⟩
/-- R487 (12). -/
def POS_TARGET_LO (i : Nat) : Fld := ⟨inst 0xD0020 0x1000 8 i, 0, 32⟩
/-- R487 (12). -/
def POS_TARGET_HI (i : Nat) : Fld := ⟨inst 0xD0024 0x1000 8 i, 0, 32⟩
/-- R487 (12). -/
def POS_REFERENCE_LO (i : Nat) : Fld := ⟨inst 0xD0028 0x1000 8 i, 0, 32⟩
/-- R487 (12). -/
def POS_REFERENCE_HI (i : Nat) : Fld := ⟨inst 0xD002C 0x1000 8 i, 0, 32⟩
/-- R487 (12). -/
def POS_INDEX_LATCH_LO (i : Nat) : Fld := ⟨inst 0xD0030 0x1000 8 i, 0, 32⟩
/-- R487 (12). -/
def POS_INDEX_LATCH_HI (i : Nat) : Fld := ⟨inst 0xD0034 0x1000 8 i, 0, 32⟩
/-- R487 (12). -/
def POS_LATCH_SELECT (i : Nat) : Fld := ⟨inst 0xD0038 0x1000 8 i, 0, 32⟩
/-- R488 [3:3], RW. -/
def POS_LATCH_SELECT_EDGE (i : Nat) : Fld := ⟨inst 0xD0038 0x1000 8 i, 3, 1⟩
/-- R488 [2:0], RW. -/
def POS_LATCH_SELECT_SOURCE (i : Nat) : Fld := ⟨inst 0xD0038 0x1000 8 i, 0, 3⟩
/-- R487 (12). -/
def POS_LATCH_POS_LO (i : Nat) : Fld := ⟨inst 0xD003C 0x1000 8 i, 0, 32⟩
/-- R487 (12). -/
def POS_LATCH_POS_HI (i : Nat) : Fld := ⟨inst 0xD0040 0x1000 8 i, 0, 32⟩
/-- R487 (12). -/
def POS_LATCH_TIME_LO (i : Nat) : Fld := ⟨inst 0xD0044 0x1000 8 i, 0, 32⟩
/-- R487 (12). -/
def POS_LATCH_TIME_HI (i : Nat) : Fld := ⟨inst 0xD0048 0x1000 8 i, 0, 32⟩
/-- R487 (12). -/
def POS_VELOCITY (i : Nat) : Fld := ⟨inst 0xD004C 0x1000 8 i, 0, 32⟩
/-- R487 (12). -/
def POS_MOTOR_VELOCITY (i : Nat) : Fld := ⟨inst 0xD0050 0x1000 8 i, 0, 32⟩
/-- R487 (12). -/
def POS_SLIP (i : Nat) : Fld := ⟨inst 0xD0054 0x1000 8 i, 0, 32⟩
/-- R487 (12). -/
def POS_AMPLITUDE (i : Nat) : Fld := ⟨inst 0xD0058 0x1000 8 i, 0, 32⟩
/-- R487 (12). -/
def POS_MARKS_ACCEPTED (i : Nat) : Fld := ⟨inst 0xD005C 0x1000 8 i, 0, 32⟩
/-- R487 (12). -/
def POS_MARKS_FALSE (i : Nat) : Fld := ⟨inst 0xD0060 0x1000 8 i, 0, 32⟩
/-- R487 (12). -/
def POS_MARKS_MISSED (i : Nat) : Fld := ⟨inst 0xD0064 0x1000 8 i, 0, 32⟩
/-- R487 (12). -/
def POS_RESIDUAL (i : Nat) : Fld := ⟨inst 0xD0068 0x1000 8 i, 0, 32⟩
/-- R487 (12). -/
def POS_TAPE_RESIDUAL (i : Nat) : Fld := ⟨inst 0xD006C 0x1000 8 i, 0, 32⟩
/-- R487 (12). -/
def POS_EVENT_STATUS (i : Nat) : Fld := ⟨inst 0xD0070 0x1000 8 i, 0, 32⟩
/-- R488 [5:5], W1C. -/
def POS_EVENT_STATUS_SLIP_HIGH (i : Nat) : Fld := ⟨inst 0xD0070 0x1000 8 i, 5, 1⟩
/-- R488 [4:4], W1C. -/
def POS_EVENT_STATUS_WRAP (i : Nat) : Fld := ⟨inst 0xD0070 0x1000 8 i, 4, 1⟩
/-- R488 [3:3], W1C. -/
def POS_EVENT_STATUS_SOURCE_FAULT (i : Nat) : Fld := ⟨inst 0xD0070 0x1000 8 i, 3, 1⟩
/-- R488 [2:2], W1C. -/
def POS_EVENT_STATUS_MARK_FALSE (i : Nat) : Fld := ⟨inst 0xD0070 0x1000 8 i, 2, 1⟩
/-- R488 [1:1], W1C. -/
def POS_EVENT_STATUS_MARK_MISSED (i : Nat) : Fld := ⟨inst 0xD0070 0x1000 8 i, 1, 1⟩
/-- R488 [0:0], W1C. -/
def POS_EVENT_STATUS_QUALITY_CHANGE (i : Nat) : Fld := ⟨inst 0xD0070 0x1000 8 i, 0, 1⟩
/-- R487 (12). -/
def POS_EVENT_ENABLE (i : Nat) : Fld := ⟨inst 0xD0074 0x1000 8 i, 0, 32⟩
/-- R487 (12). -/
def POS_ERRORS (i : Nat) : Fld := ⟨inst 0xD0078 0x1000 8 i, 0, 32⟩
/-- R488 [31:24], RO. -/
def POS_ERRORS_ENC_ERRORS (i : Nat) : Fld := ⟨inst 0xD0078 0x1000 8 i, 24, 8⟩
/-- R488 [23:16], RO. -/
def POS_ERRORS_INDEX_ERRORS (i : Nat) : Fld := ⟨inst 0xD0078 0x1000 8 i, 16, 8⟩
/-- R488 [15:8], RO. -/
def POS_ERRORS_SSI_REJECTS (i : Nat) : Fld := ⟨inst 0xD0078 0x1000 8 i, 8, 8⟩
/-- R488 [7:0], RO. -/
def POS_ERRORS_HALL_ERRORS (i : Nat) : Fld := ⟨inst 0xD0078 0x1000 8 i, 0, 8⟩
/-- R487 (12). -/
def POS_EMU_STATUS (i : Nat) : Fld := ⟨inst 0xD007C 0x1000 8 i, 0, 32⟩
/-- R488 [31:31], RO. -/
def POS_EMU_STATUS_RUNNING (i : Nat) : Fld := ⟨inst 0xD007C 0x1000 8 i, 31, 1⟩
/-- R488 [30:30], W1C. -/
def POS_EMU_STATUS_OVERRUN (i : Nat) : Fld := ⟨inst 0xD007C 0x1000 8 i, 30, 1⟩
/-- R488 [16:0], RO. -/
def POS_EMU_STATUS_LINES (i : Nat) : Fld := ⟨inst 0xD007C 0x1000 8 i, 0, 17⟩

-- block DOOR
/-- R511 (13). -/
def DOOR_STATUS (i : Nat) : Fld := ⟨inst 0xC0000 0x800 16 i, 0, 32⟩
/-- R512 [31:28], RO. -/
def DOOR_STATUS_STATE (i : Nat) : Fld := ⟨inst 0xC0000 0x800 16 i, 28, 4⟩
/-- R512 [27:27], RO. -/
def DOOR_STATUS_REFERENCED (i : Nat) : Fld := ⟨inst 0xC0000 0x800 16 i, 27, 1⟩
/-- R512 [26:26], RO. -/
def DOOR_STATUS_LOCKED (i : Nat) : Fld := ⟨inst 0xC0000 0x800 16 i, 26, 1⟩
/-- R512 [25:25], RO. -/
def DOOR_STATUS_BYPASS (i : Nat) : Fld := ⟨inst 0xC0000 0x800 16 i, 25, 1⟩
/-- R512 [24:24], RO. -/
def DOOR_STATUS_ENCODER_FALLBACK (i : Nat) : Fld := ⟨inst 0xC0000 0x800 16 i, 24, 1⟩
/-- R512 [23:23], RO. -/
def DOOR_STATUS_NUDGE (i : Nat) : Fld := ⟨inst 0xC0000 0x800 16 i, 23, 1⟩
/-- R512 [22:22], RO. -/
def DOOR_STATUS_CLOSED_LIMIT (i : Nat) : Fld := ⟨inst 0xC0000 0x800 16 i, 22, 1⟩
/-- R512 [21:21], RO. -/
def DOOR_STATUS_OPEN_LIMIT (i : Nat) : Fld := ⟨inst 0xC0000 0x800 16 i, 21, 1⟩
/-- R512 [20:20], RO. -/
def DOOR_STATUS_REOPEN_ACTIVE (i : Nat) : Fld := ⟨inst 0xC0000 0x800 16 i, 20, 1⟩
/-- R512 [19:16], RO. -/
def DOOR_STATUS_REVERSALS_MOVE (i : Nat) : Fld := ⟨inst 0xC0000 0x800 16 i, 16, 4⟩
/-- R512 [15:8], RO. -/
def DOOR_STATUS_ENVELOPE_MOVES (i : Nat) : Fld := ⟨inst 0xC0000 0x800 16 i, 8, 8⟩
/-- R511 (13). -/
def DOOR_CONTROL (i : Nat) : Fld := ⟨inst 0xC0004 0x800 16 i, 0, 32⟩
/-- R512 [31:24], WO. -/
def DOOR_CONTROL_KEY (i : Nat) : Fld := ⟨inst 0xC0004 0x800 16 i, 24, 8⟩
/-- R512 [3:0], WO. -/
def DOOR_CONTROL_CMD (i : Nat) : Fld := ⟨inst 0xC0004 0x800 16 i, 0, 4⟩
/-- R511 (13). -/
def DOOR_POSITION (i : Nat) : Fld := ⟨inst 0xC0008 0x800 16 i, 0, 32⟩
/-- R511 (13). -/
def DOOR_SETPOINT (i : Nat) : Fld := ⟨inst 0xC000C 0x800 16 i, 0, 32⟩
/-- R511 (13). -/
def DOOR_DEVIATION (i : Nat) : Fld := ⟨inst 0xC0010 0x800 16 i, 0, 32⟩
/-- R511 (13). -/
def DOOR_CURRENT (i : Nat) : Fld := ⟨inst 0xC0014 0x800 16 i, 0, 32⟩
/-- R511 (13). -/
def DOOR_CYCLES (i : Nat) : Fld := ⟨inst 0xC0018 0x800 16 i, 0, 32⟩
/-- R511 (13). -/
def DOOR_REVERSALS (i : Nat) : Fld := ⟨inst 0xC001C 0x800 16 i, 0, 32⟩
/-- R512 [31:16], RO. -/
def DOOR_REVERSALS_OBSTRUCTIONS (i : Nat) : Fld := ⟨inst 0xC001C 0x800 16 i, 16, 16⟩
/-- R512 [15:0], RO. -/
def DOOR_REVERSALS_REOPENS (i : Nat) : Fld := ⟨inst 0xC001C 0x800 16 i, 0, 16⟩
/-- R511 (13). -/
def DOOR_LAST_STOP (i : Nat) : Fld := ⟨inst 0xC0020 0x800 16 i, 0, 32⟩
/-- R512 [31:24], RO. -/
def DOOR_LAST_STOP_CAUSE (i : Nat) : Fld := ⟨inst 0xC0020 0x800 16 i, 24, 8⟩
/-- R512 [15:0], RO. -/
def DOOR_LAST_STOP_POSITION (i : Nat) : Fld := ⟨inst 0xC0020 0x800 16 i, 0, 16⟩
/-- R511 (13). -/
def DOOR_DRIVE_STATUS (i : Nat) : Fld := ⟨inst 0xC0024 0x800 16 i, 0, 32⟩
/-- R512 [31:16], RO. -/
def DOOR_DRIVE_STATUS_FAULT_CODE (i : Nat) : Fld := ⟨inst 0xC0024 0x800 16 i, 16, 16⟩
/-- R512 [9:9], RO. -/
def DOOR_DRIVE_STATUS_LOST (i : Nat) : Fld := ⟨inst 0xC0024 0x800 16 i, 9, 1⟩
/-- R512 [8:0], RO. -/
def DOOR_DRIVE_STATUS_FLAGS (i : Nat) : Fld := ⟨inst 0xC0024 0x800 16 i, 0, 9⟩
/-- R511 (13). -/
def DOOR_EVENT_STATUS (i : Nat) : Fld := ⟨inst 0xC0028 0x800 16 i, 0, 32⟩
/-- R512 [5:5], W1C. -/
def DOOR_EVENT_STATUS_DRIVE_LOST (i : Nat) : Fld := ⟨inst 0xC0028 0x800 16 i, 5, 1⟩
/-- R512 [4:4], W1C. -/
def DOOR_EVENT_STATUS_REFERENCE_LOST (i : Nat) : Fld := ⟨inst 0xC0028 0x800 16 i, 4, 1⟩
/-- R512 [3:3], W1C. -/
def DOOR_EVENT_STATUS_LOCK_FAILED (i : Nat) : Fld := ⟨inst 0xC0028 0x800 16 i, 3, 1⟩
/-- R512 [2:2], W1C. -/
def DOOR_EVENT_STATUS_NUDGE (i : Nat) : Fld := ⟨inst 0xC0028 0x800 16 i, 2, 1⟩
/-- R512 [1:1], W1C. -/
def DOOR_EVENT_STATUS_STOPPED (i : Nat) : Fld := ⟨inst 0xC0028 0x800 16 i, 1, 1⟩
/-- R512 [0:0], W1C. -/
def DOOR_EVENT_STATUS_OBSTRUCTION (i : Nat) : Fld := ⟨inst 0xC0028 0x800 16 i, 0, 1⟩
/-- R511 (13). -/
def DOOR_EVENT_ENABLE (i : Nat) : Fld := ⟨inst 0xC002C 0x800 16 i, 0, 32⟩

-- block SAF
/-- R547 (14). -/
def SAF_STATUS : Fld := ⟨0xE0000, 0, 32⟩
/-- R548 [7:7], RO. -/
def SAF_STATUS_KEY_SWITCH : Fld := ⟨0xE0000, 7, 1⟩
/-- R548 [6:6], RO. -/
def SAF_STATUS_ANY_LATCHED : Fld := ⟨0xE0000, 6, 1⟩
/-- R548 [5:5], RO. -/
def SAF_STATUS_ANY_SNOWPLOUGH : Fld := ⟨0xE0000, 5, 1⟩
/-- R548 [4:4], RO. -/
def SAF_STATUS_UNCONFIRMED : Fld := ⟨0xE0000, 4, 1⟩
/-- R548 [3:3], RO. -/
def SAF_STATUS_CONFIRM_LOCKOUT : Fld := ⟨0xE0000, 3, 1⟩
/-- R548 [2:2], RO. -/
def SAF_STATUS_HW_OK : Fld := ⟨0xE0000, 2, 1⟩
/-- R548 [1:1], RO. -/
def SAF_STATUS_PROC_OK : Fld := ⟨0xE0000, 1, 1⟩
/-- R548 [0:0], RO. -/
def SAF_STATUS_RUNNING : Fld := ⟨0xE0000, 0, 1⟩
/-- R547 (14). -/
def SAF_CONTROL : Fld := ⟨0xE0004, 0, 32⟩
/-- R548 [31:24], WO. -/
def SAF_CONTROL_KEY : Fld := ⟨0xE0004, 24, 8⟩
/-- R548 [15:8], WO. -/
def SAF_CONTROL_ARG : Fld := ⟨0xE0004, 8, 8⟩
/-- R548 [3:0], WO. -/
def SAF_CONTROL_CMD : Fld := ⟨0xE0004, 0, 4⟩
/-- R547 (14). -/
def SAF_TECH_STATUS : Fld := ⟨0xE0008, 0, 32⟩
/-- R548 [7:4], RO. -/
def SAF_TECH_STATUS_HW_STATE : Fld := ⟨0xE0008, 4, 4⟩
/-- R548 [3:0], RO. -/
def SAF_TECH_STATUS_PROC_STATE : Fld := ⟨0xE0008, 0, 4⟩
/-- R547 (14). -/
def SAF_CHECK_PROC : Fld := ⟨0xE000C, 0, 32⟩
/-- R547 (14). -/
def SAF_CHECK_HW : Fld := ⟨0xE0010, 0, 32⟩
/-- R547 (14). -/
def SAF_CONFIRM_VALUE : Fld := ⟨0xE0014, 0, 32⟩
/-- R547 (14). -/
def SAF_CONFIRM_CONTROL : Fld := ⟨0xE0018, 0, 32⟩
/-- R548 [31:24], WO. -/
def SAF_CONFIRM_CONTROL_KEY : Fld := ⟨0xE0018, 24, 8⟩
/-- R548 [3:0], WO. -/
def SAF_CONFIRM_CONTROL_CMD : Fld := ⟨0xE0018, 0, 4⟩
/-- R547 (14). -/
def SAF_CONFIRM_STATUS : Fld := ⟨0xE001C, 0, 32⟩
/-- R548 [15:8], RO. -/
def SAF_CONFIRM_STATUS_RESULT : Fld := ⟨0xE001C, 8, 8⟩
/-- R548 [1:0], RO. -/
def SAF_CONFIRM_STATUS_FAILS : Fld := ⟨0xE001C, 0, 2⟩
/-- R547 (14). -/
def SAF_INPUT_STATE : Fld := ⟨0xE0020, 0, 32⟩
/-- R547 (14). -/
def SAF_INPUT_FAULT : Fld := ⟨0xE0024, 0, 32⟩
/-- R547 (14). -/
def SAF_INPUT_FAULT_LATCH : Fld := ⟨0xE0028, 0, 32⟩
/-- R547 (14). -/
def SAF_EDM_STATE : Fld := ⟨0xE002C, 0, 32⟩
/-- R547 (14). -/
def SAF_EDM_FAULT : Fld := ⟨0xE0030, 0, 32⟩
/-- R547 (14). -/
def SAF_OUTPUT_STATE : Fld := ⟨0xE0034, 0, 32⟩
/-- R547 (14). -/
def SAF_PERMIT_PROC : Fld := ⟨0xE0038, 0, 32⟩
/-- R547 (14). -/
def SAF_PERMIT_HW : Fld := ⟨0xE003C, 0, 32⟩
/-- R547 (14). -/
def SAF_REQUEST : Fld := ⟨0xE0040, 0, 32⟩
/-- R547 (14). -/
def SAF_FUNCTION_SELECT : Fld := ⟨0xE0044, 0, 32⟩
/-- R547 (14). -/
def SAF_FUNCTION_STATUS : Fld := ⟨0xE0048, 0, 32⟩
/-- R548 [31:28], RO. -/
def SAF_FUNCTION_STATUS_STATE : Fld := ⟨0xE0048, 28, 4⟩
/-- R548 [27:24], RO. -/
def SAF_FUNCTION_STATUS_KIND : Fld := ⟨0xE0048, 24, 4⟩
/-- R548 [23:16], RO. -/
def SAF_FUNCTION_STATUS_CAR : Fld := ⟨0xE0048, 16, 8⟩
/-- R548 [15:0], RO. -/
def SAF_FUNCTION_STATUS_DEMANDS : Fld := ⟨0xE0048, 0, 16⟩
/-- R547 (14). -/
def SAF_TRIPS : Fld := ⟨0xE004C, 0, 32⟩
/-- R547 (14). -/
def SAF_LAST_TRIP : Fld := ⟨0xE0050, 0, 32⟩
/-- R548 [31:24], RO. -/
def SAF_LAST_TRIP_CAUSE : Fld := ⟨0xE0050, 24, 8⟩
/-- R548 [23:16], RO. -/
def SAF_LAST_TRIP_CAR : Fld := ⟨0xE0050, 16, 8⟩
/-- R548 [15:8], RO. -/
def SAF_LAST_TRIP_FUNCTION : Fld := ⟨0xE0050, 8, 8⟩
/-- R548 [1:0], RO. -/
def SAF_LAST_TRIP_DETECTED_BY : Fld := ⟨0xE0050, 0, 2⟩
/-- R547 (14). -/
def SAF_LAST_TRIP_TIME : Fld := ⟨0xE0054, 0, 32⟩
/-- R547 (14). -/
def SAF_XCOMP_MISMATCHES : Fld := ⟨0xE0058, 0, 32⟩
/-- R547 (14). -/
def SAF_PULSE_STATUS : Fld := ⟨0xE005C, 0, 32⟩
/-- R548 [7:4], RO. -/
def SAF_PULSE_STATUS_FAULT : Fld := ⟨0xE005C, 4, 4⟩
/-- R548 [3:0], RO. -/
def SAF_PULSE_STATUS_RUNNING : Fld := ⟨0xE005C, 0, 4⟩
/-- R547 (14). -/
def SAF_CONFIRM_COUNT : Fld := ⟨0xE0060, 0, 32⟩
/-- R547 (14). -/
def SAF_EVENT_STATUS : Fld := ⟨0xE0064, 0, 32⟩
/-- R548 [6:6], W1C. -/
def SAF_EVENT_STATUS_CONFIRM_REFUSED : Fld := ⟨0xE0064, 6, 1⟩
/-- R548 [5:5], W1C. -/
def SAF_EVENT_STATUS_CONFIRMED : Fld := ⟨0xE0064, 5, 1⟩
/-- R548 [4:4], W1C. -/
def SAF_EVENT_STATUS_TECH_FAULT : Fld := ⟨0xE0064, 4, 1⟩
/-- R548 [3:3], W1C. -/
def SAF_EVENT_STATUS_INPUT_FAULT : Fld := ⟨0xE0064, 3, 1⟩
/-- R548 [2:2], W1C. -/
def SAF_EVENT_STATUS_EDM_FAULT : Fld := ⟨0xE0064, 2, 1⟩
/-- R548 [1:1], W1C. -/
def SAF_EVENT_STATUS_MODE_CHANGE : Fld := ⟨0xE0064, 1, 1⟩
/-- R548 [0:0], W1C. -/
def SAF_EVENT_STATUS_TRIP : Fld := ⟨0xE0064, 0, 1⟩
/-- R547 (14). -/
def SAF_EVENT_ENABLE : Fld := ⟨0xE0068, 0, 32⟩
/-- R547 (14). -/
def SAF_RESPONSE_MAX_PROC : Fld := ⟨0xE006C, 0, 32⟩
/-- R547 (14). -/
def SAF_RESPONSE_MAX_HW : Fld := ⟨0xE0070, 0, 32⟩
/-- R547 (14). -/
def SAF_SNOWPLOUGH_CARS : Fld := ⟨0xE0074, 0, 32⟩
/-- R547 (14). -/
def SAF_LATCHED_CARS : Fld := ⟨0xE0078, 0, 32⟩
/-- R547 (14). -/
def SAF_CONNECTIONS_FAILSAFE : Fld := ⟨0xE007C, 0, 32⟩
/-- R547 (14). -/
def SAF_CAR_STATUS (i : Nat) : Fld := ⟨inst 0xE0100 0x20 8 i, 0, 32⟩
/-- R548 [31:28], RO. -/
def SAF_CAR_STATUS_LIMIT_KIND (i : Nat) : Fld := ⟨inst 0xE0100 0x20 8 i, 28, 4⟩
/-- R548 [11:11], RO. -/
def SAF_CAR_STATUS_TAPE_FAULT (i : Nat) : Fld := ⟨inst 0xE0100 0x20 8 i, 11, 1⟩
/-- R548 [10:10], RO. -/
def SAF_CAR_STATUS_ENC_FAULT (i : Nat) : Fld := ⟨inst 0xE0100 0x20 8 i, 10, 1⟩
/-- R548 [9:9], RO. -/
def SAF_CAR_STATUS_RUN_REQUEST (i : Nat) : Fld := ⟨inst 0xE0100 0x20 8 i, 9, 1⟩
/-- R548 [8:8], RO. -/
def SAF_CAR_STATUS_INSPECTION (i : Nat) : Fld := ⟨inst 0xE0100 0x20 8 i, 8, 1⟩
/-- R548 [7:7], RO. -/
def SAF_CAR_STATUS_DOOR_ZONE (i : Nat) : Fld := ⟨inst 0xE0100 0x20 8 i, 7, 1⟩
/-- R548 [6:6], RO. -/
def SAF_CAR_STATUS_CAR_DOOR (i : Nat) : Fld := ⟨inst 0xE0100 0x20 8 i, 6, 1⟩
/-- R548 [5:5], RO. -/
def SAF_CAR_STATUS_LANDING_LOCKS (i : Nat) : Fld := ⟨inst 0xE0100 0x20 8 i, 5, 1⟩
/-- R548 [2:2], RO. -/
def SAF_CAR_STATUS_BYPASS_ON (i : Nat) : Fld := ⟨inst 0xE0100 0x20 8 i, 2, 1⟩
/-- R548 [1:1], RO. -/
def SAF_CAR_STATUS_BRAKE_ON (i : Nat) : Fld := ⟨inst 0xE0100 0x20 8 i, 1, 1⟩
/-- R548 [0:0], RO. -/
def SAF_CAR_STATUS_MAIN_ON (i : Nat) : Fld := ⟨inst 0xE0100 0x20 8 i, 0, 1⟩
/-- R547 (14). -/
def SAF_CAR_MODE (i : Nat) : Fld := ⟨inst 0xE0104 0x20 8 i, 0, 32⟩
/-- R548 [31:28], RO. -/
def SAF_CAR_MODE_MODE (i : Nat) : Fld := ⟨inst 0xE0104 0x20 8 i, 28, 4⟩
/-- R548 [23:16], RO. -/
def SAF_CAR_MODE_CAUSE (i : Nat) : Fld := ⟨inst 0xE0104 0x20 8 i, 16, 8⟩
/-- R548 [9:0], RO. -/
def SAF_CAR_MODE_REMAINING_S (i : Nat) : Fld := ⟨inst 0xE0104 0x20 8 i, 0, 10⟩
/-- R547 (14). -/
def SAF_CAR_SPEED_ENC (i : Nat) : Fld := ⟨inst 0xE0108 0x20 8 i, 0, 32⟩
/-- R547 (14). -/
def SAF_CAR_SPEED_TAPE (i : Nat) : Fld := ⟨inst 0xE010C 0x20 8 i, 0, 32⟩
/-- R547 (14). -/
def SAF_CAR_SPEED_LIMIT (i : Nat) : Fld := ⟨inst 0xE0110 0x20 8 i, 0, 32⟩
/-- R547 (14). -/
def SAF_CAR_STANDSTILL_MOVE (i : Nat) : Fld := ⟨inst 0xE0114 0x20 8 i, 0, 32⟩
/-- R547 (14). -/
def SAF_CAR_EDM_TIME (i : Nat) : Fld := ⟨inst 0xE0118 0x20 8 i, 0, 32⟩
/-- R548 [31:16], RO. -/
def SAF_CAR_EDM_TIME_BRAKE_MS (i : Nat) : Fld := ⟨inst 0xE0118 0x20 8 i, 16, 16⟩
/-- R548 [15:0], RO. -/
def SAF_CAR_EDM_TIME_MAIN_MS (i : Nat) : Fld := ⟨inst 0xE0118 0x20 8 i, 0, 16⟩
/-- R547 (14). -/
def SAF_CAR_TRIPS (i : Nat) : Fld := ⟨inst 0xE011C 0x20 8 i, 0, 32⟩

-- block FIO
/-- R585 (16). -/
def FIO_STATUS : Fld := ⟨0xF0000, 0, 32⟩
/-- R586 [1:1], RO. -/
def FIO_STATUS_OUTPUTS_ENABLED : Fld := ⟨0xF0000, 1, 1⟩
/-- R586 [0:0], RO. -/
def FIO_STATUS_RUNNING : Fld := ⟨0xF0000, 0, 1⟩
/-- R585 (16). -/
def FIO_CONTROL : Fld := ⟨0xF0004, 0, 32⟩
/-- R586 [31:24], WO. -/
def FIO_CONTROL_KEY : Fld := ⟨0xF0004, 24, 8⟩
/-- R586 [3:0], WO. -/
def FIO_CONTROL_CMD : Fld := ⟨0xF0004, 0, 4⟩
/-- R585 (16). -/
def FIO_IN_LO : Fld := ⟨0xF0008, 0, 32⟩
/-- R585 (16). -/
def FIO_IN_HI : Fld := ⟨0xF000C, 0, 32⟩
/-- R585 (16). -/
def FIO_IN_RAW_LO : Fld := ⟨0xF0010, 0, 32⟩
/-- R585 (16). -/
def FIO_IN_RAW_HI : Fld := ⟨0xF0014, 0, 32⟩
/-- R585 (16). -/
def FIO_WIRE_BREAK_LO : Fld := ⟨0xF0018, 0, 32⟩
/-- R585 (16). -/
def FIO_WIRE_BREAK_HI : Fld := ⟨0xF001C, 0, 32⟩
/-- R585 (16). -/
def FIO_WIRE_BREAK_LATCH_LO : Fld := ⟨0xF0020, 0, 32⟩
/-- R585 (16). -/
def FIO_WIRE_BREAK_LATCH_HI : Fld := ⟨0xF0024, 0, 32⟩
/-- R585 (16). -/
def FIO_OUT_STATE : Fld := ⟨0xF0028, 0, 32⟩
/-- R585 (16). -/
def FIO_OUT_COMMAND : Fld := ⟨0xF002C, 0, 32⟩
/-- R585 (16). -/
def FIO_OUT_SET : Fld := ⟨0xF0030, 0, 32⟩
/-- R585 (16). -/
def FIO_OUT_CLEAR : Fld := ⟨0xF0034, 0, 32⟩
/-- R585 (16). -/
def FIO_OUT_HOST_MASK : Fld := ⟨0xF0038, 0, 32⟩
/-- R585 (16). -/
def FIO_OUT_FAULT : Fld := ⟨0xF003C, 0, 32⟩
/-- R585 (16). -/
def FIO_OUT_FAULT_LATCH : Fld := ⟨0xF0040, 0, 32⟩
/-- R585 (16). -/
def FIO_OUT_OPEN_LOAD : Fld := ⟨0xF0044, 0, 32⟩
/-- R585 (16). -/
def FIO_OUT_SILENT : Fld := ⟨0xF0048, 0, 32⟩
/-- R585 (16). -/
def FIO_DEMAG_HOLD : Fld := ⟨0xF004C, 0, 32⟩
/-- R585 (16). -/
def FIO_EVENT_STATUS : Fld := ⟨0xF0050, 0, 32⟩
/-- R586 [5:5], W1C. -/
def FIO_EVENT_STATUS_LPLUS_LOW : Fld := ⟨0xF0050, 5, 1⟩
/-- R586 [4:4], W1C. -/
def FIO_EVENT_STATUS_LINK_LOST : Fld := ⟨0xF0050, 4, 1⟩
/-- R586 [3:3], W1C. -/
def FIO_EVENT_STATUS_OPEN_LOAD : Fld := ⟨0xF0050, 3, 1⟩
/-- R586 [2:2], W1C. -/
def FIO_EVENT_STATUS_OUTPUT_FAULT : Fld := ⟨0xF0050, 2, 1⟩
/-- R586 [1:1], W1C. -/
def FIO_EVENT_STATUS_WIRE_RESTORED : Fld := ⟨0xF0050, 1, 1⟩
/-- R586 [0:0], W1C. -/
def FIO_EVENT_STATUS_WIRE_BREAK : Fld := ⟨0xF0050, 0, 1⟩
/-- R585 (16). -/
def FIO_EVENT_ENABLE : Fld := ⟨0xF0054, 0, 32⟩
/-- R585 (16). -/
def FIO_OUT_SELECT : Fld := ⟨0xF0058, 0, 32⟩
/-- R585 (16). -/
def FIO_OUT_DETAIL : Fld := ⟨0xF005C, 0, 32⟩
/-- R586 [31:28], RO. -/
def FIO_OUT_DETAIL_CAUSE : Fld := ⟨0xF005C, 28, 4⟩
/-- R586 [27:26], RO. -/
def FIO_OUT_DETAIL_OWNER : Fld := ⟨0xF005C, 26, 2⟩
/-- R586 [25:24], RO. -/
def FIO_OUT_DETAIL_RETRIES : Fld := ⟨0xF005C, 24, 2⟩
/-- R586 [11:0], RO. -/
def FIO_OUT_DETAIL_CURRENT : Fld := ⟨0xF005C, 0, 12⟩
/-- R585 (16). -/
def FIO_OUT_LAST_DEMAG : Fld := ⟨0xF0060, 0, 32⟩
/-- R585 (16). -/
def FIO_IN_SELECT : Fld := ⟨0xF0064, 0, 32⟩
/-- R585 (16). -/
def FIO_IN_DETAIL : Fld := ⟨0xF0068, 0, 32⟩
/-- R586 [31:30], RO. -/
def FIO_IN_DETAIL_TYPE : Fld := ⟨0xF0068, 30, 2⟩
/-- R586 [23:16], RO. -/
def FIO_IN_DETAIL_FILTER : Fld := ⟨0xF0068, 16, 8⟩
/-- R586 [9:0], RO. -/
def FIO_IN_DETAIL_CURRENT : Fld := ⟨0xF0068, 0, 10⟩
/-- R585 (16). -/
def FIO_IN_EDGES : Fld := ⟨0xF006C, 0, 32⟩
/-- R585 (16). -/
def FIO_BREAKS : Fld := ⟨0xF0070, 0, 32⟩
/-- R585 (16). -/
def FIO_OUT_TRIPS : Fld := ⟨0xF0074, 0, 32⟩
/-- R585 (16). -/
def FIO_SILENCES : Fld := ⟨0xF0078, 0, 32⟩
/-- R585 (16). -/
def FIO_FIELD_STATUS : Fld := ⟨0xF007C, 0, 32⟩
/-- R586 [7:4], RO. -/
def FIO_FIELD_STATUS_LPLUS_LOW : Fld := ⟨0xF007C, 4, 4⟩
/-- R586 [1:1], RO. -/
def FIO_FIELD_STATUS_LINK_LOST : Fld := ⟨0xF007C, 1, 1⟩
/-- R586 [0:0], RO. -/
def FIO_FIELD_STATUS_CONVERTER_OK : Fld := ⟨0xF007C, 0, 1⟩
/-- R585 (16). -/
def FIO_LPLUS (i : Nat) : Fld := ⟨inst 0xF0080 0x4 4 i, 0, 32⟩
/-- R585 (16). -/
def FIO_GROUP_CURRENT (i : Nat) : Fld := ⟨inst 0xF0090 0x4 4 i, 0, 32⟩
/-- R585 (16). -/
def FIO_IN_GROUP (i : Nat) : Fld := ⟨inst 0xF00A0 0x4 8 i, 0, 32⟩
/-- R586 [9:8], RO. -/
def FIO_IN_GROUP_TYPE (i : Nat) : Fld := ⟨inst 0xF00A0 0x4 8 i, 8, 2⟩
/-- R586 [7:0], RO. -/
def FIO_IN_GROUP_WIRE_BREAK_ENABLED (i : Nat) : Fld := ⟨inst 0xF00A0 0x4 8 i, 0, 8⟩

-- block MBC
/-- R618 (17). -/
def MBC_STATUS (i : Nat) : Fld := ⟨inst 0x100000 0x1000 12 i, 0, 32⟩
/-- R619 [31:28], RO. -/
def MBC_STATUS_STATE (i : Nat) : Fld := ⟨inst 0x100000 0x1000 12 i, 28, 4⟩
/-- R619 [27:26], RO. -/
def MBC_STATUS_FORMAT (i : Nat) : Fld := ⟨inst 0x100000 0x1000 12 i, 26, 2⟩
/-- R619 [25:25], RO. -/
def MBC_STATUS_TERMINATION (i : Nat) : Fld := ⟨inst 0x100000 0x1000 12 i, 25, 1⟩
/-- R619 [24:24], RO. -/
def MBC_STATUS_TIME_MASTER (i : Nat) : Fld := ⟨inst 0x100000 0x1000 12 i, 24, 1⟩
/-- R619 [23:23], RO. -/
def MBC_STATUS_RECOVERY_INHIBITED (i : Nat) : Fld := ⟨inst 0x100000 0x1000 12 i, 23, 1⟩
/-- R618 (17). -/
def MBC_CONTROL (i : Nat) : Fld := ⟨inst 0x100004 0x1000 12 i, 0, 32⟩
/-- R619 [31:24], WO. -/
def MBC_CONTROL_KEY (i : Nat) : Fld := ⟨inst 0x100004 0x1000 12 i, 24, 8⟩
/-- R619 [3:0], WO. -/
def MBC_CONTROL_CMD (i : Nat) : Fld := ⟨inst 0x100004 0x1000 12 i, 0, 4⟩
/-- R618 (17). -/
def MBC_NOM_TIMING (i : Nat) : Fld := ⟨inst 0x100008 0x1000 12 i, 0, 32⟩
/-- R618 (17). -/
def MBC_DATA_TIMING (i : Nat) : Fld := ⟨inst 0x10000C 0x1000 12 i, 0, 32⟩
/-- R618 (17). -/
def MBC_ERROR_COUNTERS (i : Nat) : Fld := ⟨inst 0x100010 0x1000 12 i, 0, 32⟩
/-- R618 (17). -/
def MBC_TDC (i : Nat) : Fld := ⟨inst 0x100014 0x1000 12 i, 0, 32⟩
/-- R618 (17). -/
def MBC_TX_FRAMES (i : Nat) : Fld := ⟨inst 0x100018 0x1000 12 i, 0, 32⟩
/-- R618 (17). -/
def MBC_RX_FRAMES (i : Nat) : Fld := ⟨inst 0x10001C 0x1000 12 i, 0, 32⟩
/-- R618 (17). -/
def MBC_ERRORS (i : Nat) : Fld := ⟨inst 0x100020 0x1000 12 i, 0, 32⟩
/-- R618 (17). -/
def MBC_LAST_ERROR (i : Nat) : Fld := ⟨inst 0x100024 0x1000 12 i, 0, 32⟩
/-- R618 (17). -/
def MBC_BUS_OFFS (i : Nat) : Fld := ⟨inst 0x100028 0x1000 12 i, 0, 32⟩
/-- R618 (17). -/
def MBC_ARB_LOST (i : Nat) : Fld := ⟨inst 0x10002C 0x1000 12 i, 0, 32⟩
/-- R618 (17). -/
def MBC_TX_CANCELLED (i : Nat) : Fld := ⟨inst 0x100030 0x1000 12 i, 0, 32⟩
/-- R618 (17). -/
def MBC_TX_SUPERSEDED (i : Nat) : Fld := ⟨inst 0x100034 0x1000 12 i, 0, 32⟩
/-- R618 (17). -/
def MBC_TX_PENDING (i : Nat) : Fld := ⟨inst 0x100038 0x1000 12 i, 0, 32⟩
/-- R618 (17). -/
def MBC_RX_DISCARDED (i : Nat) : Fld := ⟨inst 0x10003C 0x1000 12 i, 0, 32⟩
/-- R618 (17). -/
def MBC_RX_DEPTH (i : Nat) : Fld := ⟨inst 0x100040 0x1000 12 i, 0, 32⟩
/-- R618 (17). -/
def MBC_RX_NEXT_SEQ (i : Nat) : Fld := ⟨inst 0x100044 0x1000 12 i, 0, 32⟩
/-- R618 (17). -/
def MBC_RX_ACK (i : Nat) : Fld := ⟨inst 0x100048 0x1000 12 i, 0, 32⟩
/-- R618 (17). -/
def MBC_RX_DROPPED (i : Nat) : Fld := ⟨inst 0x10004C 0x1000 12 i, 0, 32⟩
/-- R618 (17). -/
def MBC_LOAD (i : Nat) : Fld := ⟨inst 0x100050 0x1000 12 i, 0, 32⟩
/-- R618 (17). -/
def MBC_LOAD_PEAK (i : Nat) : Fld := ⟨inst 0x100054 0x1000 12 i, 0, 32⟩
/-- R618 (17). -/
def MBC_REF_CYCLES (i : Nat) : Fld := ⟨inst 0x100058 0x1000 12 i, 0, 32⟩
/-- R618 (17). -/
def MBC_SLEEP_STATUS (i : Nat) : Fld := ⟨inst 0x10005C 0x1000 12 i, 0, 32⟩
/-- R618 (17). -/
def MBC_WAKEUPS (i : Nat) : Fld := ⟨inst 0x100060 0x1000 12 i, 0, 32⟩
/-- R618 (17). -/
def MBC_STANDING_ACKED (i : Nat) : Fld := ⟨inst 0x100064 0x1000 12 i, 0, 32⟩
/-- R618 (17). -/
def MBC_CYCLIC_LATENCY_MAX (i : Nat) : Fld := ⟨inst 0x100068 0x1000 12 i, 0, 32⟩
/-- R618 (17). -/
def MBC_EVENT_STATUS (i : Nat) : Fld := ⟨inst 0x10006C 0x1000 12 i, 0, 32⟩
/-- R619 [5:5], W1C. -/
def MBC_EVENT_STATUS_STANDING_UNACKED (i : Nat) : Fld := ⟨inst 0x10006C 0x1000 12 i, 5, 1⟩
/-- R619 [4:4], W1C. -/
def MBC_EVENT_STATUS_SLEEP_CHANGE (i : Nat) : Fld := ⟨inst 0x10006C 0x1000 12 i, 4, 1⟩
/-- R619 [3:3], W1C. -/
def MBC_EVENT_STATUS_RX_OVERFLOW (i : Nat) : Fld := ⟨inst 0x10006C 0x1000 12 i, 3, 1⟩
/-- R619 [2:2], W1C. -/
def MBC_EVENT_STATUS_ERROR_PASSIVE (i : Nat) : Fld := ⟨inst 0x10006C 0x1000 12 i, 2, 1⟩
/-- R619 [1:1], W1C. -/
def MBC_EVENT_STATUS_RECOVERED (i : Nat) : Fld := ⟨inst 0x10006C 0x1000 12 i, 1, 1⟩
/-- R619 [0:0], W1C. -/
def MBC_EVENT_STATUS_BUS_OFF (i : Nat) : Fld := ⟨inst 0x10006C 0x1000 12 i, 0, 1⟩
/-- R618 (17). -/
def MBC_EVENT_ENABLE (i : Nat) : Fld := ⟨inst 0x100070 0x1000 12 i, 0, 32⟩
/-- R618 (17). -/
def MBC_RX_STAMP_LO (i : Nat) : Fld := ⟨inst 0x100074 0x1000 12 i, 0, 32⟩
/-- R618 (17). -/
def MBC_RX_STAMP_HI (i : Nat) : Fld := ⟨inst 0x100078 0x1000 12 i, 0, 32⟩
/-- R618 (17). -/
def MBC_RESTRICTED_ERRORS (i : Nat) : Fld := ⟨inst 0x10007C 0x1000 12 i, 0, 32⟩

-- block SER
/-- R620 (17). -/
def SER_STATUS (i : Nat) : Fld := ⟨inst 0x10C000 0x400 4 i, 0, 32⟩
/-- R620 (17). -/
def SER_CONTROL (i : Nat) : Fld := ⟨inst 0x10C004 0x400 4 i, 0, 32⟩
/-- R620 [31:24], WO. -/
def SER_CONTROL_KEY (i : Nat) : Fld := ⟨inst 0x10C004 0x400 4 i, 24, 8⟩
/-- R620 [3:0], WO. -/
def SER_CONTROL_CMD (i : Nat) : Fld := ⟨inst 0x10C004 0x400 4 i, 0, 4⟩
/-- R620 (17). -/
def SER_RATE (i : Nat) : Fld := ⟨inst 0x10C008 0x400 4 i, 0, 32⟩
/-- R620 (17). -/
def SER_POLL_CYCLE (i : Nat) : Fld := ⟨inst 0x10C00C 0x400 4 i, 0, 32⟩
/-- R620 (17). -/
def SER_POLL_CYCLE_MAX (i : Nat) : Fld := ⟨inst 0x10C010 0x400 4 i, 0, 32⟩
/-- R620 (17). -/
def SER_NODES_CONFIGURED (i : Nat) : Fld := ⟨inst 0x10C014 0x400 4 i, 0, 32⟩
/-- R620 (17). -/
def SER_NODES_ONLINE (i : Nat) : Fld := ⟨inst 0x10C018 0x400 4 i, 0, 32⟩
/-- R620 (17). -/
def SER_FRAMES_OK (i : Nat) : Fld := ⟨inst 0x10C01C 0x400 4 i, 0, 32⟩
/-- R620 (17). -/
def SER_CRC_ERRORS (i : Nat) : Fld := ⟨inst 0x10C020 0x400 4 i, 0, 32⟩
/-- R620 (17). -/
def SER_TIMEOUTS (i : Nat) : Fld := ⟨inst 0x10C024 0x400 4 i, 0, 32⟩
/-- R620 (17). -/
def SER_FRAMING_ERRORS (i : Nat) : Fld := ⟨inst 0x10C028 0x400 4 i, 0, 32⟩
/-- R620 (17). -/
def SER_NODE_SELECT (i : Nat) : Fld := ⟨inst 0x10C02C 0x400 4 i, 0, 32⟩
/-- R620 (17). -/
def SER_NODE_STATUS (i : Nat) : Fld := ⟨inst 0x10C030 0x400 4 i, 0, 32⟩
/-- R620 (17). -/
def SER_EVENT_STATUS (i : Nat) : Fld := ⟨inst 0x10C034 0x400 4 i, 0, 32⟩
/-- R620 [1:1], W1C. -/
def SER_EVENT_STATUS_NODE_LOST (i : Nat) : Fld := ⟨inst 0x10C034 0x400 4 i, 1, 1⟩
/-- R620 [0:0], W1C. -/
def SER_EVENT_STATUS_LINE_FAULT (i : Nat) : Fld := ⟨inst 0x10C034 0x400 4 i, 0, 1⟩
/-- R620 (17). -/
def SER_EVENT_ENABLE (i : Nat) : Fld := ⟨inst 0x10C038 0x400 4 i, 0, 32⟩
/-- R620 (17). -/
def SER_CONTENTIONS (i : Nat) : Fld := ⟨inst 0x10C03C 0x400 4 i, 0, 32⟩

-- block NET
/-- R621 (17). -/
def NET_STATUS : Fld := ⟨0x110000, 0, 32⟩
/-- R621 (17). -/
def NET_CONTROL : Fld := ⟨0x110004, 0, 32⟩
/-- R622 [31:24], WO. -/
def NET_CONTROL_KEY : Fld := ⟨0x110004, 24, 8⟩
/-- R622 [3:0], WO. -/
def NET_CONTROL_CMD : Fld := ⟨0x110004, 0, 4⟩
/-- R621 (17). -/
def NET_PTP_STATUS : Fld := ⟨0x110008, 0, 32⟩
/-- R622 [11:8], RO. -/
def NET_PTP_STATUS_PARENT_PORT : Fld := ⟨0x110008, 8, 4⟩
/-- R622 [4:4], RO. -/
def NET_PTP_STATUS_ROLE : Fld := ⟨0x110008, 4, 1⟩
/-- R622 [1:0], RO. -/
def NET_PTP_STATUS_STATE : Fld := ⟨0x110008, 0, 2⟩
/-- R621 (17). -/
def NET_PTP_OFFSET : Fld := ⟨0x11000C, 0, 32⟩
/-- R621 (17). -/
def NET_PTP_MEAN_DELAY : Fld := ⟨0x110010, 0, 32⟩
/-- R621 (17). -/
def NET_PTP_GM_ID_LO : Fld := ⟨0x110014, 0, 32⟩
/-- R621 (17). -/
def NET_PTP_GM_ID_HI : Fld := ⟨0x110018, 0, 32⟩
/-- R621 (17). -/
def NET_PTP_GM_QUALITY : Fld := ⟨0x11001C, 0, 32⟩
/-- R621 (17). -/
def NET_PTP_SYNC_RX : Fld := ⟨0x110020, 0, 32⟩
/-- R621 (17). -/
def NET_PTP_OFFSET_MAX : Fld := ⟨0x110024, 0, 32⟩
/-- R621 (17). -/
def NET_PTP_DELAY_REQ_RX : Fld := ⟨0x110028, 0, 32⟩
/-- R621 (17). -/
def NET_PTP_LOCK_LOSSES : Fld := ⟨0x11002C, 0, 32⟩
/-- R621 (17). -/
def NET_PRP_STATUS : Fld := ⟨0x110030, 0, 32⟩
/-- R621 (17). -/
def NET_PRP_DUP_DISCARDED : Fld := ⟨0x110034, 0, 32⟩
/-- R621 (17). -/
def NET_PRP_WRONG_LAN : Fld := ⟨0x110038, 0, 32⟩
/-- R621 (17). -/
def NET_PRP_NODES : Fld := ⟨0x11003C, 0, 32⟩
/-- R621 (17). -/
def NET_PORT_STATUS (i : Nat) : Fld := ⟨inst 0x110040 0x20 4 i, 0, 32⟩
/-- R621 (17). -/
def NET_PORT_RX_FRAMES (i : Nat) : Fld := ⟨inst 0x110044 0x20 4 i, 0, 32⟩
/-- R621 (17). -/
def NET_PORT_TX_FRAMES (i : Nat) : Fld := ⟨inst 0x110048 0x20 4 i, 0, 32⟩
/-- R621 (17). -/
def NET_PORT_RX_ERRORS (i : Nat) : Fld := ⟨inst 0x11004C 0x20 4 i, 0, 32⟩
/-- R621 (17). -/
def NET_PORT_DROPPED (i : Nat) : Fld := ⟨inst 0x110050 0x20 4 i, 0, 32⟩
/-- R621 (17). -/
def NET_PORT_IPV4 (i : Nat) : Fld := ⟨inst 0x110054 0x20 4 i, 0, 32⟩
/-- R621 (17). -/
def NET_PORT_MAC_LO (i : Nat) : Fld := ⟨inst 0x110058 0x20 4 i, 0, 32⟩
/-- R621 (17). -/
def NET_PORT_MAC_HI (i : Nat) : Fld := ⟨inst 0x11005C 0x20 4 i, 0, 32⟩
/-- R621 (17). -/
def NET_HELM_REFUSED : Fld := ⟨0x1100C0, 0, 32⟩
/-- R621 (17). -/
def NET_TLS_FAILURES : Fld := ⟨0x1100C4, 0, 32⟩
/-- R621 (17). -/
def NET_MODBUS_STATUS : Fld := ⟨0x1100C8, 0, 32⟩
/-- R621 (17). -/
def NET_MODBUS_REQUESTS : Fld := ⟨0x1100CC, 0, 32⟩
/-- R621 (17). -/
def NET_MODBUS_EXCEPTIONS : Fld := ⟨0x1100D0, 0, 32⟩
/-- R621 (17). -/
def NET_PCS_TX : Fld := ⟨0x1100D4, 0, 32⟩
/-- R621 (17). -/
def NET_PCS_RX : Fld := ⟨0x1100D8, 0, 32⟩
/-- R621 (17). -/
def NET_PCS_REJECTED : Fld := ⟨0x1100DC, 0, 32⟩
/-- R621 (17). -/
def NET_SAFETY_RX : Fld := ⟨0x1100E0, 0, 32⟩
/-- R621 (17). -/
def NET_SAFETY_REJECTED : Fld := ⟨0x1100E4, 0, 32⟩
/-- R621 (17). -/
def NET_ARP_CONFLICTS : Fld := ⟨0x1100E8, 0, 32⟩
/-- R621 (17). -/
def NET_PTP_ANNOUNCE_RX : Fld := ⟨0x1100EC, 0, 32⟩
/-- R621 (17). -/
def NET_PTP_PORT_STATES : Fld := ⟨0x1100F0, 0, 32⟩
/-- R621 (17). -/
def NET_DROPPED_UNSERVED : Fld := ⟨0x1100F4, 0, 32⟩
/-- R621 (17). -/
def NET_EVENT_STATUS : Fld := ⟨0x1100F8, 0, 32⟩
/-- R622 [4:4], W1C. -/
def NET_EVENT_STATUS_ADDRESS_CONFLICT : Fld := ⟨0x1100F8, 4, 1⟩
/-- R622 [3:3], W1C. -/
def NET_EVENT_STATUS_MODBUS_WRITE : Fld := ⟨0x1100F8, 3, 1⟩
/-- R622 [2:2], W1C. -/
def NET_EVENT_STATUS_PRP_LAN_FAULT : Fld := ⟨0x1100F8, 2, 1⟩
/-- R622 [1:1], W1C. -/
def NET_EVENT_STATUS_PTP_STATE : Fld := ⟨0x1100F8, 1, 1⟩
/-- R622 [0:0], W1C. -/
def NET_EVENT_STATUS_LINK_CHANGE : Fld := ⟨0x1100F8, 0, 1⟩
/-- R621 (17). -/
def NET_EVENT_ENABLE : Fld := ⟨0x1100FC, 0, 32⟩

-- block ACQ
/-- R641 (18). -/
def ACQ_STATUS : Fld := ⟨0x120000, 0, 32⟩
/-- R642 [1:1], RO. -/
def ACQ_STATUS_LIVE : Fld := ⟨0x120000, 1, 1⟩
/-- R642 [0:0], RO. -/
def ACQ_STATUS_RUNNING : Fld := ⟨0x120000, 0, 1⟩
/-- R641 (18). -/
def ACQ_CONTROL : Fld := ⟨0x120004, 0, 32⟩
/-- R642 [31:24], WO. -/
def ACQ_CONTROL_KEY : Fld := ⟨0x120004, 24, 8⟩
/-- R642 [3:0], WO. -/
def ACQ_CONTROL_CMD : Fld := ⟨0x120004, 0, 4⟩
/-- R641 (18). -/
def ACQ_PARTITION : Fld := ⟨0x120008, 0, 32⟩
/-- R641 (18). -/
def ACQ_BUFFERS_DEFINED : Fld := ⟨0x12000C, 0, 32⟩
/-- R641 (18). -/
def ACQ_ARMED_LO : Fld := ⟨0x120010, 0, 32⟩
/-- R641 (18). -/
def ACQ_ARMED_HI : Fld := ⟨0x120014, 0, 32⟩
/-- R641 (18). -/
def ACQ_COMPLETE_LO : Fld := ⟨0x120018, 0, 32⟩
/-- R641 (18). -/
def ACQ_COMPLETE_HI : Fld := ⟨0x12001C, 0, 32⟩
/-- R641 (18). -/
def ACQ_RECORDS : Fld := ⟨0x120020, 0, 32⟩
/-- R641 (18). -/
def ACQ_TRIGGERS_IGNORED : Fld := ⟨0x120024, 0, 32⟩
/-- R641 (18). -/
def ACQ_NO_RESOURCE : Fld := ⟨0x120028, 0, 32⟩
/-- R641 (18). -/
def ACQ_AUTO_TRIGGERS : Fld := ⟨0x12002C, 0, 32⟩
/-- R641 (18). -/
def ACQ_ABORTS : Fld := ⟨0x120030, 0, 32⟩
/-- R641 (18). -/
def ACQ_EVENT_STATUS : Fld := ⟨0x120034, 0, 32⟩
/-- R642 [2:2], W1C. -/
def ACQ_EVENT_STATUS_REFUSED : Fld := ⟨0x120034, 2, 1⟩
/-- R642 [1:1], W1C. -/
def ACQ_EVENT_STATUS_ABORTED : Fld := ⟨0x120034, 1, 1⟩
/-- R642 [0:0], W1C. -/
def ACQ_EVENT_STATUS_COMPLETE : Fld := ⟨0x120034, 0, 1⟩
/-- R641 (18). -/
def ACQ_EVENT_ENABLE : Fld := ⟨0x120038, 0, 32⟩
/-- R641 (18). -/
def ACQ_BUF_SELECT : Fld := ⟨0x12003C, 0, 32⟩
/-- R642 [17:16], RW. -/
def ACQ_BUF_SELECT_CH_GROUP : Fld := ⟨0x12003C, 16, 2⟩
/-- R642 [15:8], RW. -/
def ACQ_BUF_SELECT_SEGMENT : Fld := ⟨0x12003C, 8, 8⟩
/-- R642 [5:0], RW. -/
def ACQ_BUF_SELECT_BUFFER : Fld := ⟨0x12003C, 0, 6⟩
/-- R641 (18). -/
def ACQ_BUF_STATE : Fld := ⟨0x120040, 0, 32⟩
/-- R642 [31:28], RO. -/
def ACQ_BUF_STATE_STATE : Fld := ⟨0x120040, 28, 4⟩
/-- R642 [27:24], RO. -/
def ACQ_BUF_STATE_RECORD_STATUS : Fld := ⟨0x120040, 24, 4⟩
/-- R642 [23:16], RO. -/
def ACQ_BUF_STATE_OWNED : Fld := ⟨0x120040, 16, 8⟩
/-- R642 [15:8], RO. -/
def ACQ_BUF_STATE_FILLING_SEGMENT : Fld := ⟨0x120040, 8, 8⟩
/-- R642 [7:0], RO. -/
def ACQ_BUF_STATE_CONDITIONS : Fld := ⟨0x120040, 0, 8⟩
/-- R641 (18). -/
def ACQ_BUF_CONFIG : Fld := ⟨0x120044, 0, 32⟩
/-- R642 [31:30], RO. -/
def ACQ_BUF_CONFIG_CLASS : Fld := ⟨0x120044, 30, 2⟩
/-- R642 [29:23], RO. -/
def ACQ_BUF_CONFIG_CHANNELS : Fld := ⟨0x120044, 23, 7⟩
/-- R642 [22:15], RO. -/
def ACQ_BUF_CONFIG_SEGMENTS : Fld := ⟨0x120044, 15, 8⟩
/-- R642 [14:8], RO. -/
def ACQ_BUF_CONFIG_PRE_TRIGGER : Fld := ⟨0x120044, 8, 7⟩
/-- R642 [7:4], RO. -/
def ACQ_BUF_CONFIG_FLAGS : Fld := ⟨0x120044, 4, 4⟩
/-- R642 [3:0], RO. -/
def ACQ_BUF_CONFIG_POOL : Fld := ⟨0x120044, 0, 4⟩
/-- R641 (18). -/
def ACQ_BUF_PERIOD : Fld := ⟨0x120048, 0, 32⟩
/-- R641 (18). -/
def ACQ_BUF_SAMPLES : Fld := ⟨0x12004C, 0, 32⟩
/-- R641 (18). -/
def ACQ_BUF_ADDR_LO : Fld := ⟨0x120050, 0, 32⟩
/-- R641 (18). -/
def ACQ_BUF_ADDR_HI : Fld := ⟨0x120054, 0, 32⟩
/-- R641 (18). -/
def ACQ_BUF_FILL : Fld := ⟨0x120058, 0, 32⟩
/-- R641 (18). -/
def ACQ_BUF_TRIG_POS_LO : Fld := ⟨0x12005C, 0, 32⟩
/-- R641 (18). -/
def ACQ_BUF_TRIG_POS_HI : Fld := ⟨0x120060, 0, 32⟩
/-- R641 (18). -/
def ACQ_BUF_TRIG_TICK_LO : Fld := ⟨0x120064, 0, 32⟩
/-- R641 (18). -/
def ACQ_BUF_TRIG_TICK_HI : Fld := ⟨0x120068, 0, 32⟩
/-- R641 (18). -/
def ACQ_BUF_SEQ : Fld := ⟨0x12006C, 0, 32⟩
/-- R641 (18). -/
def ACQ_MEAS_SELECT : Fld := ⟨0x120070, 0, 32⟩
/-- R641 (18). -/
def ACQ_MEAS_VALUE : Fld := ⟨0x120074, 0, 32⟩
/-- R641 (18). -/
def ACQ_POOL_STATUS : Fld := ⟨0x120078, 0, 32⟩
/-- R641 (18). -/
def ACQ_RATE_STATUS : Fld := ⟨0x12007C, 0, 32⟩
/-- R641 (18). -/
def ACQ_CH_MEAN (i : Nat) : Fld := ⟨inst 0x120100 0x10 16 i, 0, 32⟩
/-- R641 (18). -/
def ACQ_CH_MIN (i : Nat) : Fld := ⟨inst 0x120104 0x10 16 i, 0, 32⟩
/-- R641 (18). -/
def ACQ_CH_MAX (i : Nat) : Fld := ⟨inst 0x120108 0x10 16 i, 0, 32⟩

-- block REC
/-- R663 (19). -/
def REC_STATUS : Fld := ⟨0x130000, 0, 32⟩
/-- R664 [4:4], RO. -/
def REC_STATUS_READ_ONLY : Fld := ⟨0x130000, 4, 1⟩
/-- R664 [3:3], RO. -/
def REC_STATUS_ZEROING : Fld := ⟨0x130000, 3, 1⟩
/-- R664 [2:2], RO. -/
def REC_STATUS_RESERVE_IN_USE : Fld := ⟨0x130000, 2, 1⟩
/-- R664 [1:1], RO. -/
def REC_STATUS_FULL : Fld := ⟨0x130000, 1, 1⟩
/-- R664 [0:0], RO. -/
def REC_STATUS_HIGH : Fld := ⟨0x130000, 0, 1⟩
/-- R663 (19). -/
def REC_CONTROL : Fld := ⟨0x130004, 0, 32⟩
/-- R664 [31:24], WO. -/
def REC_CONTROL_KEY : Fld := ⟨0x130004, 24, 8⟩
/-- R664 [3:0], WO. -/
def REC_CONTROL_CMD : Fld := ⟨0x130004, 0, 4⟩
/-- R663 (19). -/
def REC_USED : Fld := ⟨0x130008, 0, 32⟩
/-- R663 (19). -/
def REC_CAPACITY : Fld := ⟨0x13000C, 0, 32⟩
/-- R663 (19). -/
def REC_RECORDS : Fld := ⟨0x130010, 0, 32⟩
/-- R663 (19). -/
def REC_NEXT_SEQ : Fld := ⟨0x130014, 0, 32⟩
/-- R663 (19). -/
def REC_FIRST_SEQ : Fld := ⟨0x130018, 0, 32⟩
/-- R663 (19). -/
def REC_LOST : Fld := ⟨0x13001C, 0, 32⟩
/-- R663 (19). -/
def REC_TORN : Fld := ⟨0x130020, 0, 32⟩
/-- R663 (19). -/
def REC_RESERVE_USED : Fld := ⟨0x130024, 0, 32⟩
/-- R663 (19). -/
def REC_LEDGER_COUNT : Fld := ⟨0x130028, 0, 32⟩
/-- R663 (19). -/
def REC_LEDGER_SELECT : Fld := ⟨0x13002C, 0, 32⟩
/-- R663 (19). -/
def REC_LEDGER_SEQ : Fld := ⟨0x130030, 0, 32⟩
/-- R663 (19). -/
def REC_LEDGER_OPSEC : Fld := ⟨0x130034, 0, 32⟩
/-- R663 (19). -/
def REC_LEDGER_CERT_LO : Fld := ⟨0x130038, 0, 32⟩
/-- R663 (19). -/
def REC_LEDGER_CERT_HI : Fld := ⟨0x13003C, 0, 32⟩
/-- R663 (19). -/
def REC_EXPORT_STATUS : Fld := ⟨0x130040, 0, 32⟩
/-- R664 [10:8], RO. -/
def REC_EXPORT_STATUS_SESSION : Fld := ⟨0x130040, 8, 3⟩
/-- R664 [7:4], RO. -/
def REC_EXPORT_STATUS_KIND : Fld := ⟨0x130040, 4, 4⟩
/-- R664 [1:1], RO. -/
def REC_EXPORT_STATUS_PAUSED : Fld := ⟨0x130040, 1, 1⟩
/-- R664 [0:0], RO. -/
def REC_EXPORT_STATUS_RUNNING : Fld := ⟨0x130040, 0, 1⟩
/-- R663 (19). -/
def REC_EXPORT_OFFSET : Fld := ⟨0x130044, 0, 32⟩
/-- R663 (19). -/
def REC_TRACE_STATUS : Fld := ⟨0x130048, 0, 32⟩
/-- R664 [1:1], RO. -/
def REC_TRACE_STATUS_LOST_BERTH : Fld := ⟨0x130048, 1, 1⟩
/-- R664 [0:0], RO. -/
def REC_TRACE_STATUS_WRAPPED : Fld := ⟨0x130048, 0, 1⟩
/-- R663 (19). -/
def REC_TRACE_SIZE : Fld := ⟨0x13004C, 0, 32⟩
/-- R663 (19). -/
def REC_TRACE_WRAPS : Fld := ⟨0x130050, 0, 32⟩
/-- R663 (19). -/
def REC_RETURN_STATUS : Fld := ⟨0x130054, 0, 32⟩
/-- R664 [7:4], RO. -/
def REC_RETURN_STATUS_CHOICE : Fld := ⟨0x130054, 4, 4⟩
/-- R664 [1:0], RO. -/
def REC_RETURN_STATUS_STATE : Fld := ⟨0x130054, 0, 2⟩
/-- R663 (19). -/
def REC_EVENT_STATUS : Fld := ⟨0x130058, 0, 32⟩
/-- R664 [3:3], W1C. -/
def REC_EVENT_STATUS_RETURN_PREPARED : Fld := ⟨0x130058, 3, 1⟩
/-- R664 [2:2], W1C. -/
def REC_EVENT_STATUS_CLEARED : Fld := ⟨0x130058, 2, 1⟩
/-- R664 [1:1], W1C. -/
def REC_EVENT_STATUS_FULL : Fld := ⟨0x130058, 1, 1⟩
/-- R664 [0:0], W1C. -/
def REC_EVENT_STATUS_HIGH : Fld := ⟨0x130058, 0, 1⟩
/-- R663 (19). -/
def REC_EVENT_ENABLE : Fld := ⟨0x13005C, 0, 32⟩

-- block SEC
/-- R687 (20). -/
def SEC_STATUS : Fld := ⟨0x20000, 0, 32⟩
/-- R687 (20). -/
def SEC_CONTROL : Fld := ⟨0x20004, 0, 32⟩
/-- R688 [31:24], WO. -/
def SEC_CONTROL_KEY : Fld := ⟨0x20004, 24, 8⟩
/-- R688 [3:0], WO. -/
def SEC_CONTROL_CMD : Fld := ⟨0x20004, 0, 4⟩
/-- R687 (20). -/
def SEC_LIFECYCLE : Fld := ⟨0x20008, 0, 32⟩
/-- R688 [7:4], RO. -/
def SEC_LIFECYCLE_FUSES : Fld := ⟨0x20008, 4, 4⟩
/-- R688 [1:0], RO. -/
def SEC_LIFECYCLE_STATE : Fld := ⟨0x20008, 0, 2⟩
/-- R687 (20). -/
def SEC_DEBUG_STATUS : Fld := ⟨0x2000C, 0, 32⟩
/-- R688 [23:21], RO. -/
def SEC_DEBUG_STATUS_SESSION : Fld := ⟨0x2000C, 21, 3⟩
/-- R688 [20:16], RO. -/
def SEC_DEBUG_STATUS_PERMISSIONS : Fld := ⟨0x2000C, 16, 5⟩
/-- R688 [0:0], RO. -/
def SEC_DEBUG_STATUS_STATE : Fld := ⟨0x2000C, 0, 1⟩
/-- R687 (20). -/
def SEC_SERIAL_LO : Fld := ⟨0x20010, 0, 32⟩
/-- R687 (20). -/
def SEC_SERIAL_HI : Fld := ⟨0x20014, 0, 32⟩
/-- R687 (20). -/
def SEC_FW_RUNNING : Fld := ⟨0x20018, 0, 32⟩
/-- R687 (20). -/
def SEC_FW_VERSION_A : Fld := ⟨0x2001C, 0, 32⟩
/-- R687 (20). -/
def SEC_FW_VERSION_B : Fld := ⟨0x20020, 0, 32⟩
/-- R687 (20). -/
def SEC_FW_FLOOR : Fld := ⟨0x20024, 0, 32⟩
/-- R687 (20). -/
def SEC_STAGE_INDEX : Fld := ⟨0x20028, 0, 32⟩
/-- R687 (20). -/
def SEC_STAGE_DATA : Fld := ⟨0x2002C, 0, 32⟩
/-- R687 (20). -/
def SEC_TOKEN_EXPIRY : Fld := ⟨0x20030, 0, 32⟩
/-- R687 (20). -/
def SEC_TOKEN_RESULT : Fld := ⟨0x20034, 0, 32⟩
/-- R687 (20). -/
def SEC_TAMPER_STATUS : Fld := ⟨0x20038, 0, 32⟩
/-- R687 (20). -/
def SEC_TAMPER_ENABLE : Fld := ⟨0x2003C, 0, 32⟩
/-- R687 (20). -/
def SEC_EVENT_STATUS : Fld := ⟨0x20040, 0, 32⟩
/-- R687 (20). -/
def SEC_EVENT_ENABLE : Fld := ⟨0x20044, 0, 32⟩
/-- R687 (20). -/
def SEC_CERT_REJECTS : Fld := ⟨0x20048, 0, 32⟩
/-- R687 (20). -/
def SEC_SIG_FAILS : Fld := ⟨0x2004C, 0, 32⟩
/-- R687 (20). -/
def SEC_ENROLMENTS : Fld := ⟨0x20050, 0, 32⟩
/-- R687 (20). -/
def SEC_STORE_FREE : Fld := ⟨0x20054, 0, 32⟩
/-- R687 (20). -/
def SEC_RNG_STATUS : Fld := ⟨0x20058, 0, 32⟩
/-- R687 (20). -/
def SEC_REVOKED : Fld := ⟨0x2005C, 0, 32⟩
/-- R687 (20). -/
def SEC_KEY_STATUS (i : Nat) : Fld := ⟨inst 0x20080 0x4 16 i, 0, 32⟩
/-- R687 (20). -/
def SEC_TAMPER_COUNT (i : Nat) : Fld := ⟨inst 0x200C0 0x4 8 i, 0, 32⟩

-- block DBG
/-- R689 (20). -/
def DBG_STATUS : Fld := ⟨0x140000, 0, 32⟩
/-- R689 (20). -/
def DBG_HALT_REQUEST : Fld := ⟨0x140004, 0, 32⟩
/-- R689 (20). -/
def DBG_HALT_STATUS : Fld := ⟨0x140008, 0, 32⟩
/-- R689 (20). -/
def DBG_HALT_DEFERRED : Fld := ⟨0x14000C, 0, 32⟩
/-- R689 (20). -/
def DBG_MEM_ADDR_LO : Fld := ⟨0x140010, 0, 32⟩
/-- R689 (20). -/
def DBG_MEM_ADDR_HI : Fld := ⟨0x140014, 0, 32⟩
/-- R689 (20). -/
def DBG_MEM_DATA : Fld := ⟨0x140018, 0, 32⟩
/-- R689 (20). -/
def DBG_MEM_STATUS : Fld := ⟨0x14001C, 0, 32⟩
/-- R689 (20). -/
def DBG_HALTS : Fld := ⟨0x140020, 0, 32⟩
/-- R689 (20). -/
def DBG_DEFERRALS : Fld := ⟨0x140024, 0, 32⟩
/-- R689 (20). -/
def DBG_BREAK_HITS : Fld := ⟨0x140028, 0, 32⟩
/-- R689 (20). -/
def DBG_REFUSED : Fld := ⟨0x14002C, 0, 32⟩
/-- R689 (20). -/
def DBG_SESSIONS : Fld := ⟨0x140030, 0, 32⟩
/-- R689 (20). -/
def DBG_BREAK_ENABLE : Fld := ⟨0x140034, 0, 32⟩
/-- R689 (20). -/
def DBG_CORE_STATUS (i : Nat) : Fld := ⟨inst 0x140040 0x4 10 i, 0, 32⟩
/-- R689 (20). -/
def DBG_BREAK_LO (i : Nat) : Fld := ⟨inst 0x140080 0x8 4 i, 0, 32⟩
/-- R689 (20). -/
def DBG_BREAK_HI (i : Nat) : Fld := ⟨inst 0x140084 0x8 4 i, 0, 32⟩

-- block SYS
/-- R720 (22). -/
def SYS_DEVICE_ID : Fld := ⟨0x0, 0, 32⟩
/-- R721 [31:24], RO. -/
def SYS_DEVICE_ID_FAMILY : Fld := ⟨0x0, 24, 8⟩
/-- R721 [23:16], RO. -/
def SYS_DEVICE_ID_MEMBER : Fld := ⟨0x0, 16, 8⟩
/-- R721 [15:8], RO. -/
def SYS_DEVICE_ID_ORDER_CODE : Fld := ⟨0x0, 8, 8⟩
/-- R721 [7:0], RO. -/
def SYS_DEVICE_ID_HW_REVISION : Fld := ⟨0x0, 0, 8⟩
/-- R720 (22). -/
def SYS_FW_VERSION : Fld := ⟨0x4, 0, 32⟩
/-- R720 (22). -/
def SYS_ROM_VERSION : Fld := ⟨0x8, 0, 32⟩
/-- R720 (22). -/
def SYS_SCRATCH : Fld := ⟨0xC, 0, 32⟩
/-- R720 (22). -/
def SYS_START_STATUS : Fld := ⟨0x10, 0, 32⟩
/-- R721 [23:16], RO. -/
def SYS_START_STATUS_HOLD_S : Fld := ⟨0x10, 16, 8⟩
/-- R721 [15:12], RO. -/
def SYS_START_STATUS_CONTROL_RESULT : Fld := ⟨0x10, 12, 4⟩
/-- R721 [11:11], RO. -/
def SYS_START_STATUS_ATTEMPT_LATCHED : Fld := ⟨0x10, 11, 1⟩
/-- R721 [10:10], RO. -/
def SYS_START_STATUS_LEARNED_DEFAULTED : Fld := ⟨0x10, 10, 1⟩
/-- R721 [9:9], RO. -/
def SYS_START_STATUS_SUCCEEDED : Fld := ⟨0x10, 9, 1⟩
/-- R721 [8:8], RO. -/
def SYS_START_STATUS_MOORING : Fld := ⟨0x10, 8, 1⟩
/-- R721 [3:0], RO. -/
def SYS_START_STATUS_STAGE : Fld := ⟨0x10, 0, 4⟩
/-- R720 (22). -/
def SYS_START_CONTROL : Fld := ⟨0x14, 0, 32⟩
/-- R721 [31:24], WO. -/
def SYS_START_CONTROL_KEY : Fld := ⟨0x14, 24, 8⟩
/-- R721 [3:0], WO. -/
def SYS_START_CONTROL_CMD : Fld := ⟨0x14, 0, 4⟩
/-- R720 (22). -/
def SYS_FAILED_STARTS : Fld := ⟨0x18, 0, 32⟩
/-- R720 (22). -/
def SYS_BOOT_CAUSE : Fld := ⟨0x1C, 0, 32⟩
/-- R720 (22). -/
def SYS_FAIL_CODE (i : Nat) : Fld := ⟨inst 0x20 0x10 3 i, 0, 32⟩
/-- R720 (22). -/
def SYS_FAIL_CYCLES (i : Nat) : Fld := ⟨inst 0x24 0x10 3 i, 0, 32⟩
/-- R720 (22). -/
def SYS_FAIL_OPSEC (i : Nat) : Fld := ⟨inst 0x28 0x10 3 i, 0, 32⟩
/-- R720 (22). -/
def SYS_SELFTEST : Fld := ⟨0x50, 0, 32⟩
/-- R721 [27:24], RO. -/
def SYS_SELFTEST_CORES_GOOD : Fld := ⟨0x50, 24, 4⟩
/-- R721 [23:22], RO. -/
def SYS_SELFTEST_LANES_GOOD : Fld := ⟨0x50, 22, 2⟩
/-- R721 [21:20], RO. -/
def SYS_SELFTEST_PAIRS : Fld := ⟨0x50, 20, 2⟩
/-- R721 [19:16], RO. -/
def SYS_SELFTEST_DRAM_CHANNELS : Fld := ⟨0x50, 16, 4⟩
/-- R721 [15:0], RO. -/
def SYS_SELFTEST_XNG_FAILED : Fld := ⟨0x50, 0, 16⟩
/-- R720 (22). -/
def SYS_SELFTEST_PORTS : Fld := ⟨0x54, 0, 32⟩
/-- R721 [31:28], RO. -/
def SYS_SELFTEST_PORTS_SER_FAILED : Fld := ⟨0x54, 28, 4⟩
/-- R721 [27:16], RO. -/
def SYS_SELFTEST_PORTS_MBC_FAILED : Fld := ⟨0x54, 16, 12⟩
/-- R721 [7:0], RO. -/
def SYS_SELFTEST_PORTS_POS_FAILED : Fld := ⟨0x54, 0, 8⟩
/-- R720 (22). -/
def SYS_PARTNERS_ABSENT : Fld := ⟨0x58, 0, 32⟩
/-- R720 (22). -/
def SYS_PARTNERS_QUARANTINED : Fld := ⟨0x5C, 0, 32⟩
/-- R720 (22). -/
def SYS_UPTIME : Fld := ⟨0x60, 0, 32⟩
/-- R720 (22). -/
def SYS_STARTS : Fld := ⟨0x64, 0, 32⟩
/-- R720 (22). -/
def SYS_STARTS_FAILED : Fld := ⟨0x68, 0, 32⟩
/-- R720 (22). -/
def SYS_MOORING_ENTRIES : Fld := ⟨0x6C, 0, 32⟩
/-- R720 (22). -/
def SYS_LAST_SUCCESS_OPSEC : Fld := ⟨0x70, 0, 32⟩
/-- R720 (22). -/
def SYS_EVENT_STATUS : Fld := ⟨0x74, 0, 32⟩
/-- R721 [2:2], W1C. -/
def SYS_EVENT_STATUS_PARTNERS_CHANGED : Fld := ⟨0x74, 2, 1⟩
/-- R721 [1:1], W1C. -/
def SYS_EVENT_STATUS_START_SUCCEEDED : Fld := ⟨0x74, 1, 1⟩
/-- R721 [0:0], W1C. -/
def SYS_EVENT_STATUS_STAGE_CHANGED : Fld := ⟨0x74, 0, 1⟩
/-- R720 (22). -/
def SYS_EVENT_ENABLE : Fld := ⟨0x78, 0, 32⟩
/-- R720 (22). -/
def SYS_SITE_TAG (i : Nat) : Fld := ⟨inst 0x80 0x4 4 i, 0, 32⟩
/-- R720 (22). -/
def SYS_STAGE_MS (i : Nat) : Fld := ⟨inst 0xA0 0x4 8 (i - 2), 0, 32⟩
end R

/-- Registers of block SYS that are not plain read-only words reset to 0 (part 0). -/
def descSYS0 : List Desc := [
  ⟨0x0, 0x0, 1, 0x0, 0x0, 0x0, 0x0, 0x0, 0x1010000, 2, 0x0⟩ /- SYS_DEVICE_ID -/,
  ⟨0x4, 0x0, 1, 0x0, 0x0, 0x0, 0x0, 0x0, 0x0, 3, 0x0⟩ /- SYS_FW_VERSION -/,
  ⟨0x8, 0x0, 1, 0x0, 0x0, 0x0, 0x0, 0x0, 0x0, 2, 0x0⟩ /- SYS_ROM_VERSION -/,
  ⟨0xC, 0x0, 1, 0xFFFFFFFF, 0x0, 0x0, 0x0, 0x0, 0x0, 0, 0x0⟩ /- SYS_SCRATCH -/,
  ⟨0x10, 0x0, 1, 0x0, 0x0, 0x0, 0x0, 0x0, 0x3, 0, 0x0⟩ /- SYS_START_STATUS -/,
  ⟨0x14, 0x0, 1, 0x0, 0x0, 0x0, 0xFF00000F, 0x0, 0x0, 0, 0x0⟩ /- SYS_START_CONTROL -/,
  ⟨0x18, 0x0, 1, 0x0, 0x0, 0x0, 0x0, 0x0, 0x0, 1, 0x0⟩ /- SYS_FAILED_STARTS -/,
  ⟨0x1C, 0x0, 1, 0x0, 0x0, 0x0, 0x0, 0x0, 0x0, 1, 0x0⟩ /- SYS_BOOT_CAUSE -/,
  ⟨0x20, 0x10, 3, 0x0, 0x0, 0x0, 0x0, 0x0, 0x0, 1, 0x0⟩ /- SYS_FAIL_CODE -/,
  ⟨0x24, 0x10, 3, 0x0, 0x0, 0x0, 0x0, 0x0, 0x0, 1, 0x0⟩ /- SYS_FAIL_CYCLES -/,
  ⟨0x28, 0x10, 3, 0x0, 0x0, 0x0, 0x0, 0x0, 0x0, 1, 0x0⟩ /- SYS_FAIL_OPSEC -/,
  ⟨0x50, 0x0, 1, 0x0, 0x0, 0x0, 0x0, 0x0, 0x0, 2, 0x0⟩ /- SYS_SELFTEST -/,
  ⟨0x54, 0x0, 1, 0x0, 0x0, 0x0, 0x0, 0x0, 0x0, 2, 0x0⟩ /- SYS_SELFTEST_PORTS -/,
  ⟨0x64, 0x0, 1, 0x0, 0x0, 0x0, 0x0, 0x0, 0x0, 1, 0x0⟩ /- SYS_STARTS -/,
  ⟨0x68, 0x0, 1, 0x0, 0x0, 0x0, 0x0, 0x0, 0x0, 1, 0x0⟩ /- SYS_STARTS_FAILED -/,
  ⟨0x6C, 0x0, 1, 0x0, 0x0, 0x0, 0x0, 0x0, 0x0, 1, 0x0⟩ /- SYS_MOORING_ENTRIES -/,
  ⟨0x70, 0x0, 1, 0x0, 0x0, 0x0, 0x0, 0x0, 0x0, 1, 0x0⟩ /- SYS_LAST_SUCCESS_OPSEC -/,
  ⟨0x74, 0x0, 1, 0x0, 0x7, 0x0, 0x0, 0x0, 0x0, 0, 0x0⟩ /- SYS_EVENT_STATUS -/,
  ⟨0x78, 0x0, 1, 0xFFFFFFFF, 0x0, 0x0, 0x0, 0x0, 0x0, 0, 0x0⟩ /- SYS_EVENT_ENABLE -/,
  ⟨0x80, 0x4, 4, 0x0, 0x0, 0x0, 0x0, 0xFFFFFFFF, 0x0, 2, 0x0⟩ /- SYS_SITE_TAG -/]
/-- The descriptors of block SYS; a register without one is read-only and resets to 0. -/
def descSYS : List Desc := descSYS0
/-- Registers of block PWR that are not plain read-only words reset to 0 (part 0). -/
def descPWR0 : List Desc := [
  ⟨0x10000, 0x0, 1, 0x0, 0x0, 0x0, 0x0, 0x0, 0x1, 0, 0x0⟩ /- PWR_STATE -/,
  ⟨0x10004, 0x0, 1, 0x0, 0x0, 0x0, 0xFF00000F, 0x0, 0x0, 0, 0x0⟩ /- PWR_CONTROL -/,
  ⟨0x10008, 0x0, 1, 0x0, 0x0, 0x0, 0x0, 0x0, 0x100, 0, 0x0⟩ /- PWR_GLIDE_STATUS -/,
  ⟨0x1000C, 0x0, 1, 0xFFFFFFFF, 0x0, 0x0, 0x0, 0x0, 0x0, 0, 0x0⟩ /- PWR_GLIDE_INHIBIT -/,
  ⟨0x10010, 0x0, 1, 0x0, 0x0, 0x0, 0x0, 0x0, 0xFFFF, 0, 0x0⟩ /- PWR_DOMAIN_LIVE -/,
  ⟨0x10014, 0x0, 1, 0xFFFF3F9C, 0x0, 0x0, 0x0, 0x0, 0x0, 0, 0x0⟩ /- PWR_DOMAIN_HOLD -/,
  ⟨0x10018, 0x0, 1, 0x0, 0x0, 0x0, 0xFF00000F, 0x0, 0x0, 0, 0x0⟩ /- PWR_DOMAIN_RESET -/,
  ⟨0x10020, 0x0, 1, 0xFFFFFFFA, 0x0, 0x0, 0x0, 0x0, 0x7D, 1, 0x0⟩ /- PWR_WAKE_ENABLE -/,
  ⟨0x10024, 0x0, 1, 0x0, 0x7F, 0x0, 0x0, 0x0, 0x0, 1, 0x0⟩ /- PWR_WAKE_LATCH -/,
  ⟨0x10028, 0x0, 1, 0x0, 0x0, 0x0, 0x0, 0x0, 0x0, 1, 0x0⟩ /- PWR_WAKE_CAUSE -/,
  ⟨0x1002C, 0x0, 1, 0xFFFFFFFF, 0x0, 0x0, 0x0, 0x0, 0x0, 1, 0x0⟩ /- PWR_WAKE_ALARM -/,
  ⟨0x10030, 0x0, 1, 0x0, 0x300, 0x0, 0x0, 0x0, 0x0, 1, 0x0⟩ /- PWR_SUPPLY_STATUS -/,
  ⟨0x1004C, 0x0, 1, 0x0, 0x30, 0x0, 0x0, 0x0, 0x0, 0, 0x0⟩ /- PWR_PLANT_TIME_STATUS -/,
  ⟨0x10054, 0x0, 1, 0x0, 0x0, 0x0, 0x0, 0x0, 0x0, 1, 0x0⟩ /- PWR_OP_SECONDS -/,
  ⟨0x10058, 0x0, 1, 0x0, 0x0, 0x0, 0x0, 0x0, 0x0, 1, 0x0⟩ /- PWR_OP_MS -/,
  ⟨0x1005C, 0x0, 1, 0x0, 0x0, 0x0, 0x0, 0x0, 0x0, 1, 0x0⟩ /- PWR_POWER_CYCLES -/,
  ⟨0x10060, 0x0, 1, 0x0, 0x0, 0x0, 0x0, 0x0, 0x64, 1, 0x0⟩ /- PWR_WATCHDOG_STATUS -/,
  ⟨0x10064, 0x0, 1, 0x0, 0x0, 0x0, 0x0, 0x0, 0x0, 1, 0x0⟩ /- PWR_WATCHDOG_EXPIRIES -/,
  ⟨0x10078, 0x0, 1, 0x0, 0x0, 0x0, 0x0, 0x0, 0x0, 0, 0xFFFFFFFF⟩ /- PWR_REDUCED_COUNT -/,
  ⟨0x1007C, 0x0, 1, 0x0, 0x0, 0x0, 0x0, 0x0, 0x0, 0, 0xFFFFFFFF⟩ /- PWR_LOOPS_ONLY_COUNT -/,
  ⟨0x10088, 0x0, 1, 0x0, 0x0, 0x0, 0x0, 0x0, 0x0, 1, 0x0⟩ /- PWR_INPUT_BKP -/,
  ⟨0x10094, 0x0, 1, 0x0, 0xFF, 0x0, 0x0, 0x0, 0x0, 0, 0x0⟩ /- PWR_EVENT_STATUS -/,
  ⟨0x10098, 0x0, 1, 0xFFFFFFFF, 0x0, 0x0, 0x0, 0x0, 0x0, 0, 0x0⟩ /- PWR_EVENT_ENABLE -/,
  ⟨0x1009C, 0x0, 1, 0x0, 0x0, 0x0, 0x0, 0x0, 0x0, 0, 0xFFFFFFFF⟩ /- PWR_GLIDE_ENTRIES -/]
/-- Registers of block PWR that are not plain read-only words reset to 0 (part 1). -/
def descPWR1 : List Desc := [
  ⟨0x100A0, 0x0, 1, 0x0, 0x0, 0x0, 0x0, 0x0, 0x0, 0, 0xFFFFFFFF⟩ /- PWR_GLIDE_WAKES -/,
  ⟨0x100A4, 0x0, 1, 0x0, 0x0, 0x0, 0x0, 0x0, 0x0, 0, 0xFFFFFFFF⟩ /- PWR_GLIDE_SECONDS -/,
  ⟨0x100A8, 0x0, 1, 0x0, 0x0, 0x0, 0x0, 0x0, 0x0, 1, 0x0⟩ /- PWR_BERTH_ENTRIES -/,
  ⟨0x100AC, 0x0, 1, 0x0, 0x0, 0x0, 0x0, 0x0, 0x0, 0, 0xFFFFFFFF⟩ /- PWR_HUNG_ACCESSES -/,
  ⟨0x10100, 0x4, 16, 0x0, 0x0, 0x0, 0x0, 0x0, 0x1, 0, 0xFF0000⟩ /- PWR_DOMAIN_STATUS -/]
/-- The descriptors of block PWR; a register without one is read-only and resets to 0. -/
def descPWR : List Desc := descPWR0 ++ descPWR1
/-- Registers of block SEC that are not plain read-only words reset to 0 (part 0). -/
def descSEC0 : List Desc := [
  ⟨0x20004, 0x0, 1, 0x0, 0x0, 0x0, 0xFF00000F, 0x0, 0x0, 0, 0x0⟩ /- SEC_CONTROL -/,
  ⟨0x20008, 0x0, 1, 0x0, 0x0, 0x0, 0x0, 0x0, 0x0, 2, 0x0⟩ /- SEC_LIFECYCLE -/,
  ⟨0x20010, 0x0, 1, 0x0, 0x0, 0x0, 0x0, 0x0, 0x0, 2, 0x0⟩ /- SEC_SERIAL_LO -/,
  ⟨0x20014, 0x0, 1, 0x0, 0x0, 0x0, 0x0, 0x0, 0x0, 2, 0x0⟩ /- SEC_SERIAL_HI -/,
  ⟨0x20018, 0x0, 1, 0x0, 0x0, 0x0, 0x0, 0x0, 0x0, 3, 0x0⟩ /- SEC_FW_RUNNING -/,
  ⟨0x2001C, 0x0, 1, 0x0, 0x0, 0x0, 0x0, 0x0, 0x0, 3, 0x0⟩ /- SEC_FW_VERSION_A -/,
  ⟨0x20020, 0x0, 1, 0x0, 0x0, 0x0, 0x0, 0x0, 0x0, 3, 0x0⟩ /- SEC_FW_VERSION_B -/,
  ⟨0x20024, 0x0, 1, 0x0, 0x0, 0x0, 0x0, 0x0, 0x0, 2, 0x0⟩ /- SEC_FW_FLOOR -/,
  ⟨0x20028, 0x0, 1, 0xFFFFFFFF, 0x0, 0x0, 0x0, 0x0, 0x0, 0, 0x0⟩ /- SEC_STAGE_INDEX -/,
  ⟨0x2002C, 0x0, 1, 0xFFFFFFFF, 0x0, 0x0, 0x0, 0x0, 0x0, 0, 0x0⟩ /- SEC_STAGE_DATA -/,
  ⟨0x20038, 0x0, 1, 0x0, 0x3F, 0x0, 0x0, 0x0, 0x0, 0, 0x0⟩ /- SEC_TAMPER_STATUS -/,
  ⟨0x2003C, 0x0, 1, 0x0, 0x0, 0x0, 0x0, 0xFFFFFFFF, 0xAAA, 0, 0x0⟩ /- SEC_TAMPER_ENABLE -/,
  ⟨0x20040, 0x0, 1, 0x0, 0xFF, 0x0, 0x0, 0x0, 0x0, 0, 0x0⟩ /- SEC_EVENT_STATUS -/,
  ⟨0x20044, 0x0, 1, 0xFFFFFFFF, 0x0, 0x0, 0x0, 0x0, 0x0, 0, 0x0⟩ /- SEC_EVENT_ENABLE -/,
  ⟨0x20048, 0x0, 1, 0x0, 0x0, 0x0, 0x0, 0x0, 0x0, 0, 0xFFFFFFFF⟩ /- SEC_CERT_REJECTS -/,
  ⟨0x2004C, 0x0, 1, 0x0, 0x0, 0x0, 0x0, 0x0, 0x0, 0, 0xFFFFFFFF⟩ /- SEC_SIG_FAILS -/,
  ⟨0x20050, 0x0, 1, 0x0, 0x0, 0x0, 0x0, 0x0, 0x0, 2, 0x0⟩ /- SEC_ENROLMENTS -/,
  ⟨0x20054, 0x0, 1, 0x0, 0x0, 0x0, 0x0, 0x0, 0x0, 2, 0x0⟩ /- SEC_STORE_FREE -/,
  ⟨0x20058, 0x0, 1, 0x0, 0x0, 0x0, 0x0, 0x0, 0x0, 0, 0xFF00⟩ /- SEC_RNG_STATUS -/,
  ⟨0x2005C, 0x0, 1, 0x0, 0x0, 0x0, 0x0, 0x0, 0x0, 2, 0x0⟩ /- SEC_REVOKED -/,
  ⟨0x20080, 0x4, 16, 0x0, 0x0, 0x0, 0x0, 0x0, 0x0, 2, 0x0⟩ /- SEC_KEY_STATUS -/,
  ⟨0x200C0, 0x4, 8, 0x0, 0x0, 0x0, 0x0, 0x0, 0x0, 1, 0x0⟩ /- SEC_TAMPER_COUNT -/]
/-- The descriptors of block SEC; a register without one is read-only and resets to 0. -/
def descSEC : List Desc := descSEC0
/-- Registers of block MAN that are not plain read-only words reset to 0 (part 0). -/
def descMAN0 : List Desc := [
  ⟨0x30000, 0x0, 1, 0x0, 0x0, 0x0, 0x0, 0x0, 0x200, 0, 0x0⟩ /- MAN_FORMAT -/,
  ⟨0x30008, 0x0, 1, 0x0, 0x0, 0x0, 0xFF00000F, 0x0, 0x0, 0, 0x0⟩ /- MAN_CONTROL -/,
  ⟨0x30024, 0x0, 1, 0x0, 0x0, 0x0, 0x0, 0x0, 0x0, 2, 0x0⟩ /- MAN_SAFETY_CONFIRMED -/,
  ⟨0x30030, 0x0, 1, 0x0, 0x100, 0x0, 0x0, 0x0, 0x0, 0, 0x0⟩ /- MAN_PATCH_STATUS -/,
  ⟨0x30044, 0x0, 1, 0x0, 0x0, 0x0, 0x0, 0x0, 0x0, 3, 0x0⟩ /- MAN_PATCH_LOG_USED -/,
  ⟨0x30048, 0x0, 1, 0x0, 0x0, 0x0, 0x0, 0x0, 0x0, 3, 0x0⟩ /- MAN_PATCH_LOG_FREE -/,
  ⟨0x30060, 0x0, 1, 0x0, 0x1F, 0x0, 0x0, 0x0, 0x0, 0, 0x0⟩ /- MAN_EVENT_STATUS -/,
  ⟨0x30064, 0x0, 1, 0xFFFFFFFF, 0x0, 0x0, 0x0, 0x0, 0x0, 0, 0x0⟩ /- MAN_EVENT_ENABLE -/,
  ⟨0x30068, 0x0, 1, 0x0, 0x0, 0x0, 0x0, 0x0, 0x0, 0, 0xFFFFFFFF⟩ /- MAN_PATCH_COUNT -/,
  ⟨0x3006C, 0x0, 1, 0x0, 0x0, 0x0, 0x0, 0x0, 0x0, 0, 0xFFFFFFFF⟩ /- MAN_PATCH_REFUSED -/,
  ⟨0x30080, 0x20, 2, 0x0, 0x0, 0x0, 0x0, 0x0, 0x0, 2, 0x0⟩ /- MAN_SLOT_STATE -/,
  ⟨0x30084, 0x20, 2, 0x0, 0x0, 0x0, 0x0, 0x0, 0x0, 2, 0x0⟩ /- MAN_SLOT_GEN -/,
  ⟨0x30088, 0x20, 2, 0x0, 0x0, 0x0, 0x0, 0x0, 0x0, 2, 0x0⟩ /- MAN_SLOT_EPOCH -/,
  ⟨0x3008C, 0x20, 2, 0x0, 0x0, 0x0, 0x0, 0x0, 0x0, 2, 0x0⟩ /- MAN_SLOT_LENGTH -/,
  ⟨0x30090, 0x20, 2, 0x0, 0x0, 0x0, 0x0, 0x0, 0x0, 2, 0x0⟩ /- MAN_SLOT_SAFETY -/]
/-- The descriptors of block MAN; a register without one is read-only and resets to 0. -/
def descMAN : List Desc := descMAN0
/-- Registers of block HQ that are not plain read-only words reset to 0 (part 0). -/
def descHQ0 : List Desc := [
  ⟨0x40004, 0x0, 1, 0x0, 0x0, 0x0, 0xFF00073F, 0x0, 0x0, 0, 0x0⟩ /- HQ_CONTROL -/,
  ⟨0x40010, 0x0, 1, 0x0, 0x0, 0x0, 0x0, 0x0, 0x0, 0, 0xFFFFFFFF⟩ /- HQ_FENCE_INCOMPLETE -/,
  ⟨0x40018, 0x0, 1, 0x0, 0x1F, 0x0, 0x0, 0x0, 0x0, 0, 0x0⟩ /- HQ_EVENT_STATUS -/,
  ⟨0x4001C, 0x0, 1, 0xFFFFFFFF, 0x0, 0x0, 0x0, 0x0, 0x0, 0, 0x0⟩ /- HQ_EVENT_ENABLE -/,
  ⟨0x40044, 0x20, 4, 0x0, 0x0, 0x7FF, 0x0, 0x0, 0x0, 0, 0x0⟩ /- HQ_CQ_HIGH_WATER -/,
  ⟨0x40048, 0x20, 4, 0x0, 0x0, 0x0, 0x0, 0x0, 0x0, 0, 0xFFFFFFFF⟩ /- HQ_CQ_ACCEPTED -/,
  ⟨0x4004C, 0x20, 4, 0x0, 0x0, 0x0, 0x0, 0x0, 0x0, 0, 0xFFFFFFFF⟩ /- HQ_CQ_REFUSED -/,
  ⟨0x40050, 0x20, 4, 0x0, 0x0, 0x0, 0x0, 0x0, 0x0, 0, 0xFFFFFFFF⟩ /- HQ_CQ_PROMOTED -/,
  ⟨0x4010C, 0x20, 4, 0x0, 0x0, 0x0, 0x0, 0x0, 0xFFFFFFFF, 0, 0x0⟩ /- HQ_EQ_ACKED_SEQ -/,
  ⟨0x40110, 0x20, 4, 0x0, 0x0, 0x0, 0x0, 0x0, 0x0, 0, 0xFFFFFFFF⟩ /- HQ_EQ_LOST -/]
/-- The descriptors of block HQ; a register without one is read-only and resets to 0. -/
def descHQ : List Desc := descHQ0
/-- Registers of block XNG that are not plain read-only words reset to 0 (part 0). -/
def descXNG0 : List Desc := [
  ⟨0x50000, 0x1000, 16, 0x0, 0x0, 0x0, 0x0, 0x0, 0x700, 0, 0x0⟩ /- XNG_RING_STATUS -/,
  ⟨0x50004, 0x1000, 16, 0x0, 0x0, 0x0, 0xFF00000F, 0x0, 0x0, 0, 0x0⟩ /- XNG_CONTROL -/,
  ⟨0x50008, 0x1000, 16, 0x0, 0x0, 0x0, 0x0, 0x0, 0x1FF, 0, 0x0⟩ /- XNG_SPLIT -/,
  ⟨0x50010, 0x1000, 16, 0x0, 0x0, 0x0, 0x0, 0x0, 0x1FF01FF, 0, 0x0⟩ /- XNG_BREAK -/,
  ⟨0x50014, 0x1000, 16, 0x0, 0x0, 0x0, 0x0, 0x0, 0x101, 0, 0x0⟩ /- XNG_RATE_FACTOR -/,
  ⟨0x50038, 0x1000, 16, 0x0, 0x0, 0x0, 0x0, 0x0, 0x0, 0, 0xFFFFFFFF⟩ /- XNG_TXN_NORES -/,
  ⟨0x5003C, 0x1000, 16, 0x0, 0x0, 0x0, 0x0, 0x0, 0x0, 0, 0xFFFFFFFF⟩ /- XNG_TXN_TIMEOUT -/,
  ⟨0x50040, 0x1000, 16, 0x0, 0x0, 0x0, 0x0, 0x0, 0x0, 0, 0xFFFFFFFF⟩ /- XNG_TXN_RETRY -/,
  ⟨0x50044, 0x1000, 16, 0x0, 0x0, 0x0, 0x0, 0x0, 0x0, 0, 0xFFFFFFFF⟩ /- XNG_CRC_ERRORS -/,
  ⟨0x50048, 0x1000, 16, 0x0, 0x0, 0x0, 0x0, 0x0, 0x0, 0, 0xFFFFFFFF⟩ /- XNG_FRAMES_DROPPED -/,
  ⟨0x5004C, 0x1000, 16, 0x0, 0x0, 0x0, 0x0, 0x0, 0x0, 0, 0xFFFFFFFF⟩ /- XNG_SWEEPS_LO -/,
  ⟨0x50050, 0x1000, 16, 0x0, 0x0, 0x0, 0x0, 0x0, 0x0, 0, 0xFFFFFFFF⟩ /- XNG_SWEEPS_HI -/,
  ⟨0x50054, 0x1000, 16, 0x0, 0x0, 0x0, 0x0, 0x0, 0x0, 0, 0xFFFFFFFF⟩ /- XNG_SWEEPS_MISSED -/,
  ⟨0x50058, 0x1000, 16, 0x0, 0x0, 0x0, 0x0, 0x0, 0x0, 0, 0xFFFFFFFF⟩ /- XNG_PROMOTIONS -/,
  ⟨0x5005C, 0x1000, 16, 0x0, 0x0, 0x0, 0x0, 0x0, 0x0, 0, 0xFFFFFFFF⟩ /- XNG_BREAKS -/,
  ⟨0x50060, 0x1000, 16, 0x0, 0x0, 0x0, 0x0, 0x0, 0x0, 0, 0xFFFFFFFF⟩ /- XNG_AUTH_FAILS -/,
  ⟨0x50068, 0x1000, 16, 0xFFFFFFFF, 0x0, 0x0, 0x0, 0x0, 0x0, 0, 0x0⟩ /- XNG_NODE_SELECT -/,
  ⟨0x50074, 0x1000, 16, 0x0, 0x3F, 0x0, 0x0, 0x0, 0x0, 0, 0x0⟩ /- XNG_EVENT_STATUS -/,
  ⟨0x50078, 0x1000, 16, 0xFFFFFFFF, 0x0, 0x0, 0x0, 0x0, 0x0, 0, 0x0⟩ /- XNG_EVENT_ENABLE -/,
  ⟨0x5007C, 0x1000, 16, 0x0, 0x0, 0x0, 0x0, 0x0, 0x20000, 0, 0x0⟩ /- XNG_POOL_FREE -/]
/-- The descriptors of block XNG; a register without one is read-only and resets to 0. -/
def descXNG : List Desc := descXNG0
/-- Registers of block EST that are not plain read-only words reset to 0 (part 0). -/
def descEST0 : List Desc := [
  ⟨0x60004, 0x0, 1, 0x0, 0x0, 0x0, 0xFF00000F, 0x0, 0x0, 0, 0x0⟩ /- EST_CONTROL -/,
  ⟨0x60018, 0x0, 1, 0x0, 0x0, 0x0, 0x0, 0x0, 0x0, 0, 0xFFFFFFFF⟩ /- EST_UPDATES_LO -/,
  ⟨0x6001C, 0x0, 1, 0x0, 0x0, 0x0, 0x0, 0x0, 0x0, 0, 0xFFFFFFFF⟩ /- EST_UPDATES_HI -/,
  ⟨0x60028, 0x0, 1, 0x0, 0x0, 0x0, 0x0, 0x0, 0x0, 0, 0xFFFFFFFF⟩ /- EST_MISMATCHES -/,
  ⟨0x6002C, 0x0, 1, 0x0, 0x0, 0x0, 0x0, 0x0, 0x0, 0, 0xFFFFFFFF⟩ /- EST_RECOMPUTED -/,
  ⟨0x60030, 0x0, 1, 0x0, 0x0, 0x0, 0x0, 0x0, 0x0, 0, 0xFFFFFFFF⟩ /- EST_SKIPPED -/,
  ⟨0x60034, 0x0, 1, 0x0, 0x0, 0x0, 0x0, 0x0, 0x0, 0, 0xFFFFFFFF⟩ /- EST_OUTLIERS -/,
  ⟨0x60038, 0x0, 1, 0x0, 0x0, 0x0, 0x0, 0x0, 0x0, 0, 0xFFFFFFFF⟩ /- EST_RESETS -/,
  ⟨0x6006C, 0x0, 1, 0x0, 0x7F, 0x0, 0x0, 0x0, 0x0, 0, 0x0⟩ /- EST_EVENT_STATUS -/,
  ⟨0x60070, 0x0, 1, 0xFFFFFFFF, 0x0, 0x0, 0x0, 0x0, 0x0, 0, 0x0⟩ /- EST_EVENT_ENABLE -/,
  ⟨0x60074, 0x0, 1, 0x0, 0x0, 0x0, 0x0, 0x0, 0x0, 0, 0xFF00⟩ /- EST_PIPE_STATUS -/,
  ⟨0x60078, 0x0, 1, 0x0, 0x0, 0x0, 0x0, 0x0, 0x0, 0, 0xFFFFFFFF⟩ /- EST_ANCHORS -/]
/-- The descriptors of block EST; a register without one is read-only and resets to 0. -/
def descEST : List Desc := descEST0
/-- Registers of block PLT that are not plain read-only words reset to 0 (part 0). -/
def descPLT0 : List Desc := [
  ⟨0x70004, 0x0, 1, 0x0, 0x0, 0x0, 0xFF00000F, 0x0, 0x0, 0, 0x0⟩ /- PLT_PROT_CONTROL -/,
  ⟨0x70008, 0x0, 1, 0xFFFFFFFF, 0x0, 0x0, 0x0, 0x0, 0x0, 0, 0x0⟩ /- PLT_BALANCE_INHIBIT -/,
  ⟨0x7002C, 0x0, 1, 0x0, 0x0, 0x0, 0x0, 0x0, 0x0, 0, 0xFFFFFFFF⟩ /- PLT_TRIPS -/,
  ⟨0x70030, 0x0, 1, 0x0, 0x0, 0x0, 0x0, 0x0, 0x0, 0, 0xFFFFFFFF⟩ /- PLT_NODE_TRIPS -/,
  ⟨0x70034, 0x0, 1, 0x0, 0x0, 0x0, 0x0, 0x0, 0x0, 0, 0xFFFFFFFF⟩ /- PLT_BREAKER_TRIPS -/,
  ⟨0x70038, 0x0, 1, 0x0, 0x0, 0x0, 0x0, 0x0, 0x0, 0, 0xFFFFFFFF⟩ /- PLT_MISSING_MARKS -/,
  ⟨0x7003C, 0x0, 1, 0x0, 0x0, 0x0, 0x0, 0x0, 0x0, 0, 0xFFFFFFFF⟩ /- PLT_CLOSE_FAILS -/,
  ⟨0x70040, 0x0, 1, 0xFFFFFFFF, 0x0, 0x0, 0x0, 0x0, 0x0, 0, 0x0⟩ /- PLT_STRING_SELECT -/,
  ⟨0x70050, 0x0, 1, 0xFFFFFFFF, 0x0, 0x0, 0x0, 0x0, 0x0, 0, 0x0⟩ /- PLT_CONTAINER_SELECT -/,
  ⟨0x7006C, 0x0, 1, 0x0, 0x0, 0x0, 0x0, 0x0, 0x0, 0, 0xFFFFFFFF⟩ /- PLT_BALANCE_AH -/,
  ⟨0x70070, 0x0, 1, 0x0, 0x3F, 0x0, 0x0, 0x0, 0x0, 0, 0x0⟩ /- PLT_PROT_EVENT_STATUS -/,
  ⟨0x70074, 0x0, 1, 0xFFFFFFFF, 0x0, 0x0, 0x0, 0x0, 0x0, 0, 0x0⟩ /- PLT_PROT_EVENT_ENABLE -/,
  ⟨0x70080, 0x0, 1, 0x0, 0x0, 0x0, 0x0, 0x0, 0x4, 0, 0x0⟩ /- PLT_DISP_STATUS -/,
  ⟨0x70084, 0x0, 1, 0x0, 0x0, 0x0, 0xFF00000F, 0x0, 0x0, 0, 0x0⟩ /- PLT_DISP_CONTROL -/,
  ⟨0x70088, 0x0, 1, 0x7, 0x0, 0x0, 0x0, 0x0, 0x0, 3, 0x0⟩ /- PLT_SOURCE_SELECT -/,
  ⟨0x700A0, 0x0, 1, 0xFFFFFFFF, 0x0, 0x0, 0x0, 0x0, 0x7F800000, 0, 0x0⟩ /- PLT_HOST_EXPORT_MAX -/,
  ⟨0x700A4, 0x0, 1, 0xFFFFFFFF, 0x0, 0x0, 0x0, 0x0, 0x7F800000, 0, 0x0⟩ /- PLT_HOST_IMPORT_MAX -/,
  ⟨0x700E8, 0x0, 1, 0x0, 0x0, 0x0, 0x0, 0x0, 0x0, 2, 0x0⟩ /- PLT_BILL_SEQ -/,
  ⟨0x700F8, 0x0, 1, 0x0, 0x3F, 0x0, 0x0, 0x0, 0x0, 0, 0x0⟩ /- PLT_DISP_EVENT_STATUS -/,
  ⟨0x700FC, 0x0, 1, 0xFFFFFFFF, 0x0, 0x0, 0x0, 0x0, 0x0, 0, 0x0⟩ /- PLT_DISP_EVENT_ENABLE -/]
/-- The descriptors of block PLT; a register without one is read-only and resets to 0. -/
def descPLT : List Desc := descPLT0
/-- Registers of block LOOP that are not plain read-only words reset to 0 (part 0). -/
def descLOOP0 : List Desc := [
  ⟨0x80004, 0x0, 1, 0x0, 0x0, 0x0, 0xFF00000F, 0x0, 0x0, 0, 0x0⟩ /- LOOP_CONTROL -/,
  ⟨0x80014, 0x0, 1, 0x0, 0x0, 0x0, 0xFF000003, 0x0, 0x0, 0, 0x0⟩ /- LOOP_SYNC_CONTROL -/,
  ⟨0x8001C, 0x0, 1, 0xFFFFFFFF, 0x0, 0x0, 0x0, 0x0, 0x0, 0, 0x0⟩ /- LOOP_SYNC_OUT -/,
  ⟨0x80020, 0x0, 1, 0x0, 0x0, 0x0, 0x0, 0x0, 0x0, 0, 0xFFFFFFFF⟩ /- LOOP_SYNC_EARLY -/,
  ⟨0x80024, 0x0, 1, 0x0, 0x0, 0x0, 0x0, 0x0, 0x0, 0, 0xFFFFFFFF⟩ /- LOOP_SYNC_MISSED -/,
  ⟨0x80028, 0x0, 1, 0x0, 0x0, 0x0, 0x0, 0x0, 0x0, 0, 0xFFFFFFFF⟩ /- LOOP_LANE_MISMATCHES -/,
  ⟨0x8002C, 0x0, 1, 0x0, 0x0, 0x0, 0x0, 0x0, 0x0, 0, 0xFFFFFFFF⟩ /- LOOP_REBUILDS -/,
  ⟨0x80030, 0x0, 1, 0x0, 0x0, 0x0, 0x0, 0x0, 0x0, 0, 0xFFFFFFFF⟩ /- LOOP_FAULTS -/,
  ⟨0x80034, 0x0, 1, 0x0, 0x0, 0x0, 0x0, 0x0, 0x0, 0, 0xFFFFFFFF⟩ /- LOOP_NONFINITE -/,
  ⟨0x80040, 0x0, 1, 0xFFFFFFFF, 0x0, 0x0, 0x0, 0x0, 0x0, 0, 0x0⟩ /- LOOP_SIG_INDEX -/,
  ⟨0x80044, 0x0, 1, 0x0, 0x0, 0x0, 0xFFFFFFFF, 0x0, 0x0, 0, 0x0⟩ /- LOOP_SIG_WRITE -/,
  ⟨0x8004C, 0x0, 1, 0x0, 0x0, 0x0, 0x0, 0x0, 0x0, 0, 0xFFFFFFFF⟩ /- LOOP_HOST_WRITES -/,
  ⟨0x80050, 0x0, 1, 0x0, 0x0, 0x0, 0x0, 0x0, 0x0, 0, 0xFFFFFFFF⟩ /- LOOP_HOST_REFUSED -/,
  ⟨0x80054, 0x0, 1, 0xFFFFFFFF, 0x0, 0x0, 0x0, 0x0, 0x0, 0, 0x0⟩ /- LOOP_SLOT_SELECT -/,
  ⟨0x8005C, 0x0, 1, 0x0, 0x0, 0x0, 0x0, 0x0, 0x0, 0, 0xFFFFFFFF⟩ /- LOOP_SLOT_RUNS -/,
  ⟨0x80060, 0x0, 1, 0x0, 0x0, 0x0, 0x0, 0x0, 0x0, 0, 0xFFFFFFFF⟩ /- LOOP_SLOT_NONFINITE -/,
  ⟨0x8006C, 0x0, 1, 0x0, 0x0, 0x0, 0x0, 0x0, 0xFFFF, 0, 0x0⟩ /- LOOP_PARKED_GROUPS -/,
  ⟨0x80070, 0x0, 1, 0x0, 0xFF, 0x0, 0x0, 0x0, 0x0, 0, 0x0⟩ /- LOOP_EVENT_STATUS -/,
  ⟨0x80074, 0x0, 1, 0xFFFFFFFF, 0x0, 0x0, 0x0, 0x0, 0x0, 0, 0x0⟩ /- LOOP_EVENT_ENABLE -/,
  ⟨0x8007C, 0x0, 1, 0x0, 0x0, 0x0, 0x0, 0x0, 0x0, 0, 0xFFFFFFFF⟩ /- LOOP_STAGED_OVERWRITTEN -/,
  ⟨0x80104, 0x10, 16, 0x0, 0x0, 0x0, 0x0, 0x0, 0x1, 0, 0x0⟩ /- LOOP_GROUP_STATUS -/,
  ⟨0x80108, 0x10, 16, 0x0, 0x0, 0x0, 0x0, 0x0, 0x0, 0, 0xFFFFFFFF⟩ /- LOOP_GROUP_LATCHES -/]
/-- The descriptors of block LOOP; a register without one is read-only and resets to 0. -/
def descLOOP : List Desc := descLOOP0
/-- Registers of block PWM that are not plain read-only words reset to 0 (part 0). -/
def descPWM0 : List Desc := [
  ⟨0x90004, 0x0, 1, 0x0, 0x0, 0x0, 0xFF00000F, 0x0, 0x0, 0, 0x0⟩ /- PWM_CONTROL -/,
  ⟨0x90008, 0x0, 1, 0xFFFFFFFF, 0x0, 0x0, 0x0, 0x0, 0x0, 0, 0x0⟩ /- PWM_INHIBIT -/,
  ⟨0x9000C, 0x0, 1, 0x0, 0xF, 0x0, 0x0, 0x0, 0x0, 0, 0x0⟩ /- PWM_FAULT_STATUS -/,
  ⟨0x90014, 0x0, 1, 0x0, 0x0, 0x0, 0x0, 0x0, 0x0, 0, 0xFFFFFFFF⟩ /- PWM_FAULT_COUNT -/,
  ⟨0x90018, 0x0, 1, 0x0, 0x3, 0x0, 0x0, 0x0, 0x0, 0, 0x0⟩ /- PWM_EVENT_STATUS -/,
  ⟨0x9001C, 0x0, 1, 0xFFFFFFFF, 0x0, 0x0, 0x0, 0x0, 0x0, 0, 0x0⟩ /- PWM_EVENT_ENABLE -/,
  ⟨0x90048, 0x10, 12, 0x0, 0x0, 0x0, 0x0, 0x0, 0x0, 0, 0xFFFF⟩ /- PWM_PAIR_STATUS -/]
/-- The descriptors of block PWM; a register without one is read-only and resets to 0. -/
def descPWM : List Desc := descPWM0
/-- Registers of block GRP that are not plain read-only words reset to 0 (part 0). -/
def descGRP0 : List Desc := [
  ⟨0xA0004, 0x0, 1, 0x0, 0x0, 0x0, 0xFF00000F, 0x0, 0x0, 0, 0x0⟩ /- GRP_CONTROL -/,
  ⟨0xA0008, 0x0, 1, 0xFF, 0x0, 0x0, 0x0, 0x0, 0xFF00FF, 0, 0x0⟩ /- GRP_PATTERN -/,
  ⟨0xA0010, 0x0, 1, 0x0, 0x0, 0x0, 0x0, 0x0, 0x0, 0, 0xFFFFFFFF⟩ /- GRP_CALLS_ASSIGNED -/,
  ⟨0xA0014, 0x0, 1, 0x0, 0x0, 0x0, 0x0, 0x0, 0x0, 0, 0xFFFFFFFF⟩ /- GRP_CALLS_REFUSED -/,
  ⟨0xA0018, 0x0, 1, 0x0, 0x0, 0x0, 0x0, 0x0, 0x0, 0, 0xFFFFFFFF⟩ /- GRP_REASSIGNMENTS -/,
  ⟨0xA0038, 0x0, 1, 0x0, 0x1F, 0x0, 0x0, 0x0, 0x0, 0, 0x0⟩ /- GRP_EVENT_STATUS -/,
  ⟨0xA003C, 0x0, 1, 0xFFFFFFFF, 0x0, 0x0, 0x0, 0x0, 0x0, 0, 0x0⟩ /- GRP_EVENT_ENABLE -/]
/-- The descriptors of block GRP; a register without one is read-only and resets to 0. -/
def descGRP : List Desc := descGRP0
/-- Registers of block CAR that are not plain read-only words reset to 0 (part 0). -/
def descCAR0 : List Desc := [
  ⟨0xB0004, 0x1000, 8, 0x0, 0x0, 0x0, 0xFF00000F, 0x0, 0x0, 0, 0x0⟩ /- CAR_CONTROL -/,
  ⟨0xB000C, 0x1000, 8, 0xFFFFFFFF, 0x0, 0x0, 0x0, 0x0, 0x7F800000, 0, 0x0⟩ /- CAR_SPEED_LIMIT -/,
  ⟨0xB0010, 0x1000, 8, 0xFFFFFFFF, 0x0, 0x0, 0x0, 0x0, 0x7F800000, 0, 0x0⟩ /- CAR_ACCEL_LIMIT -/,
  ⟨0xB002C, 0x1000, 8, 0x0, 0x0, 0x0, 0x0, 0x0, 0x0, 0, 0xFFFFFFFF⟩ /- CAR_MOVES -/,
  ⟨0xB0030, 0x1000, 8, 0x0, 0x0, 0x0, 0x0, 0x0, 0x0, 0, 0xFFFFFFFF⟩ /- CAR_TRAVEL_LO -/,
  ⟨0xB0034, 0x1000, 8, 0x0, 0x0, 0x0, 0x0, 0x0, 0x0, 0, 0xFFFFFFFF⟩ /- CAR_TRAVEL_HI -/,
  ⟨0xB0038, 0x1000, 8, 0x0, 0x0, 0x0, 0x0, 0x0, 0x0, 0, 0xFFFFFFFF⟩ /- CAR_STOPS_RAMPED -/,
  ⟨0xB003C, 0x1000, 8, 0x0, 0x0, 0x0, 0x0, 0x0, 0x0, 0, 0xFFFFFFFF⟩ /- CAR_STOPS_HARD -/,
  ⟨0xB0040, 0x1000, 8, 0x0, 0x0, 0x0, 0x0, 0x0, 0x0, 0, 0xFFFFFFFF⟩ /- CAR_RELEVELS -/,
  ⟨0xB0044, 0x1000, 8, 0x0, 0x100, 0x0, 0x0, 0x0, 0x0, 0, 0x0⟩ /- CAR_TERMINAL_STATUS -/,
  ⟨0xB0054, 0x1000, 8, 0x0, 0x0, 0x0, 0x0, 0x0, 0x0, 0, 0xFFFFFFFF⟩ /- CAR_DRIVE_FRAMES -/,
  ⟨0xB0058, 0x1000, 8, 0x0, 0x0, 0x0, 0x0, 0x0, 0x0, 0, 0xFFFFFFFF⟩ /- CAR_DRIVE_MISSED -/,
  ⟨0xB0060, 0x1000, 8, 0x0, 0x3F, 0x0, 0x0, 0x0, 0x0, 0, 0x0⟩ /- CAR_EVENT_STATUS -/,
  ⟨0xB0064, 0x1000, 8, 0xFFFFFFFF, 0x0, 0x0, 0x0, 0x0, 0x0, 0, 0x0⟩ /- CAR_EVENT_ENABLE -/]
/-- The descriptors of block CAR; a register without one is read-only and resets to 0. -/
def descCAR : List Desc := descCAR0
/-- Registers of block DOOR that are not plain read-only words reset to 0 (part 0). -/
def descDOOR0 : List Desc := [
  ⟨0xC0004, 0x800, 16, 0x0, 0x0, 0x0, 0xFF00000F, 0x0, 0x0, 0, 0x0⟩ /- DOOR_CONTROL -/,
  ⟨0xC0018, 0x800, 16, 0x0, 0x0, 0x0, 0x0, 0x0, 0x0, 0, 0xFFFFFFFF⟩ /- DOOR_CYCLES -/,
  ⟨0xC001C, 0x800, 16, 0x0, 0x0, 0x0, 0x0, 0x0, 0x0, 0, 0xFFFFFFFF⟩ /- DOOR_REVERSALS -/,
  ⟨0xC0028, 0x800, 16, 0x0, 0x3F, 0x0, 0x0, 0x0, 0x0, 0, 0x0⟩ /- DOOR_EVENT_STATUS -/,
  ⟨0xC002C, 0x800, 16, 0xFFFFFFFF, 0x0, 0x0, 0x0, 0x0, 0x0, 0, 0x0⟩ /- DOOR_EVENT_ENABLE -/]
/-- The descriptors of block DOOR; a register without one is read-only and resets to 0. -/
def descDOOR : List Desc := descDOOR0
/-- Registers of block POS that are not plain read-only words reset to 0 (part 0). -/
def descPOS0 : List Desc := [
  ⟨0xD0000, 0x1000, 8, 0x0, 0xC000000, 0x0, 0x0, 0x0, 0x0, 0, 0x0⟩ /- POS_STATUS -/,
  ⟨0xD0004, 0x1000, 8, 0x0, 0x0, 0x0, 0xFF00000F, 0x0, 0x0, 0, 0x0⟩ /- POS_CONTROL -/,
  ⟨0xD0038, 0x1000, 8, 0xF, 0x0, 0x0, 0x0, 0x0, 0x0, 0, 0x0⟩ /- POS_LATCH_SELECT -/,
  ⟨0xD005C, 0x1000, 8, 0x0, 0x0, 0x0, 0x0, 0x0, 0x0, 0, 0xFFFFFFFF⟩ /- POS_MARKS_ACCEPTED -/,
  ⟨0xD0060, 0x1000, 8, 0x0, 0x0, 0x0, 0x0, 0x0, 0x0, 0, 0xFFFFFFFF⟩ /- POS_MARKS_FALSE -/,
  ⟨0xD0064, 0x1000, 8, 0x0, 0x0, 0x0, 0x0, 0x0, 0x0, 0, 0xFFFFFFFF⟩ /- POS_MARKS_MISSED -/,
  ⟨0xD0070, 0x1000, 8, 0x0, 0x3F, 0x0, 0x0, 0x0, 0x0, 0, 0x0⟩ /- POS_EVENT_STATUS -/,
  ⟨0xD0074, 0x1000, 8, 0xFFFFFFFF, 0x0, 0x0, 0x0, 0x0, 0x0, 0, 0x0⟩ /- POS_EVENT_ENABLE -/,
  ⟨0xD0078, 0x1000, 8, 0x0, 0x0, 0x0, 0x0, 0x0, 0x0, 0, 0xFF000000⟩ /- POS_ERRORS -/,
  ⟨0xD007C, 0x1000, 8, 0x0, 0x40000000, 0x0, 0x0, 0x0, 0x0, 0, 0x0⟩ /- POS_EMU_STATUS -/]
/-- The descriptors of block POS; a register without one is read-only and resets to 0. -/
def descPOS : List Desc := descPOS0
/-- Registers of block SAF that are not plain read-only words reset to 0 (part 0). -/
def descSAF0 : List Desc := [
  ⟨0xE0000, 0x0, 1, 0x0, 0x0, 0x0, 0x0, 0x0, 0x10, 0, 0x0⟩ /- SAF_STATUS -/,
  ⟨0xE0004, 0x0, 1, 0x0, 0x0, 0x0, 0xFF00FF0F, 0x0, 0x0, 0, 0x0⟩ /- SAF_CONTROL -/,
  ⟨0xE0008, 0x0, 1, 0x0, 0x0, 0x0, 0x0, 0x0, 0x11, 0, 0x0⟩ /- SAF_TECH_STATUS -/,
  ⟨0xE0014, 0x0, 1, 0x0, 0x0, 0x0, 0xFFFFFFFF, 0x0, 0x0, 0, 0x0⟩ /- SAF_CONFIRM_VALUE -/,
  ⟨0xE0018, 0x0, 1, 0x0, 0x0, 0x0, 0xFF00000F, 0x0, 0x0, 0, 0x0⟩ /- SAF_CONFIRM_CONTROL -/,
  ⟨0xE0028, 0x0, 1, 0x0, 0xFFFFFFFF, 0x0, 0x0, 0x0, 0x0, 0, 0x0⟩ /- SAF_INPUT_FAULT_LATCH -/,
  ⟨0xE0044, 0x0, 1, 0xFFFFFFFF, 0x0, 0x0, 0x0, 0x0, 0x0, 0, 0x0⟩ /- SAF_FUNCTION_SELECT -/,
  ⟨0xE0048, 0x0, 1, 0x0, 0x0, 0x0, 0x0, 0x0, 0x0, 0, 0xFFFF⟩ /- SAF_FUNCTION_STATUS -/,
  ⟨0xE004C, 0x0, 1, 0x0, 0x0, 0x0, 0x0, 0x0, 0x0, 0, 0xFFFFFFFF⟩ /- SAF_TRIPS -/,
  ⟨0xE0058, 0x0, 1, 0x0, 0x0, 0x0, 0x0, 0x0, 0x0, 0, 0xFFFFFFFF⟩ /- SAF_XCOMP_MISMATCHES -/,
  ⟨0xE0060, 0x0, 1, 0x0, 0x0, 0x0, 0x0, 0x0, 0x0, 2, 0x0⟩ /- SAF_CONFIRM_COUNT -/,
  ⟨0xE0064, 0x0, 1, 0x0, 0x7F, 0x0, 0x0, 0x0, 0x0, 0, 0x0⟩ /- SAF_EVENT_STATUS -/,
  ⟨0xE0068, 0x0, 1, 0xFFFFFFFF, 0x0, 0x0, 0x0, 0x0, 0x0, 0, 0x0⟩ /- SAF_EVENT_ENABLE -/,
  ⟨0xE011C, 0x20, 8, 0x0, 0x0, 0x0, 0x0, 0x0, 0x0, 0, 0xFFFFFFFF⟩ /- SAF_CAR_TRIPS -/]
/-- The descriptors of block SAF; a register without one is read-only and resets to 0. -/
def descSAF : List Desc := descSAF0
/-- Registers of block FIO that are not plain read-only words reset to 0 (part 0). -/
def descFIO0 : List Desc := [
  ⟨0xF0004, 0x0, 1, 0x0, 0x0, 0x0, 0xFF00000F, 0x0, 0x0, 0, 0x0⟩ /- FIO_CONTROL -/,
  ⟨0xF0020, 0x0, 1, 0x0, 0xFFFFFFFF, 0x0, 0x0, 0x0, 0x0, 0, 0x0⟩ /- FIO_WIRE_BREAK_LATCH_LO -/,
  ⟨0xF0024, 0x0, 1, 0x0, 0xFFFFFFFF, 0x0, 0x0, 0x0, 0x0, 0, 0x0⟩ /- FIO_WIRE_BREAK_LATCH_HI -/,
  ⟨0xF0030, 0x0, 1, 0x0, 0x0, 0x0, 0xFFFFFFFF, 0x0, 0x0, 0, 0x0⟩ /- FIO_OUT_SET -/,
  ⟨0xF0034, 0x0, 1, 0x0, 0x0, 0x0, 0xFFFFFFFF, 0x0, 0x0, 0, 0x0⟩ /- FIO_OUT_CLEAR -/,
  ⟨0xF0040, 0x0, 1, 0x0, 0xFFFFFFFF, 0x0, 0x0, 0x0, 0x0, 0, 0x0⟩ /- FIO_OUT_FAULT_LATCH -/,
  ⟨0xF0050, 0x0, 1, 0x0, 0x3F, 0x0, 0x0, 0x0, 0x0, 0, 0x0⟩ /- FIO_EVENT_STATUS -/,
  ⟨0xF0054, 0x0, 1, 0xFFFFFFFF, 0x0, 0x0, 0x0, 0x0, 0x0, 0, 0x0⟩ /- FIO_EVENT_ENABLE -/,
  ⟨0xF0058, 0x0, 1, 0xFFFFFFFF, 0x0, 0x0, 0x0, 0x0, 0x0, 0, 0x0⟩ /- FIO_OUT_SELECT -/,
  ⟨0xF0064, 0x0, 1, 0xFFFFFFFF, 0x0, 0x0, 0x0, 0x0, 0x0, 0, 0x0⟩ /- FIO_IN_SELECT -/,
  ⟨0xF0068, 0x0, 1, 0x0, 0x0, 0x0, 0x0, 0x0, 0xC01E0000, 0, 0x0⟩ /- FIO_IN_DETAIL -/,
  ⟨0xF006C, 0x0, 1, 0x0, 0x0, 0x0, 0x0, 0x0, 0x0, 0, 0xFFFFFFFF⟩ /- FIO_IN_EDGES -/,
  ⟨0xF0070, 0x0, 1, 0x0, 0x0, 0x0, 0x0, 0x0, 0x0, 0, 0xFFFFFFFF⟩ /- FIO_BREAKS -/,
  ⟨0xF0074, 0x0, 1, 0x0, 0x0, 0x0, 0x0, 0x0, 0x0, 0, 0xFFFFFFFF⟩ /- FIO_OUT_TRIPS -/,
  ⟨0xF0078, 0x0, 1, 0x0, 0x0, 0x0, 0x0, 0x0, 0x0, 0, 0xFFFFFFFF⟩ /- FIO_SILENCES -/,
  ⟨0xF00A0, 0x4, 8, 0x0, 0x0, 0x0, 0x0, 0x0, 0x300, 0, 0x0⟩ /- FIO_IN_GROUP -/]
/-- The descriptors of block FIO; a register without one is read-only and resets to 0. -/
def descFIO : List Desc := descFIO0
/-- Registers of block MBC that are not plain read-only words reset to 0 (part 0). -/
def descMBC0 : List Desc := [
  ⟨0x100004, 0x1000, 12, 0x0, 0x0, 0x0, 0xFF00000F, 0x0, 0x0, 0, 0x0⟩ /- MBC_CONTROL -/,
  ⟨0x100018, 0x1000, 12, 0x0, 0x0, 0x0, 0x0, 0x0, 0x0, 0, 0xFFFFFFFF⟩ /- MBC_TX_FRAMES -/,
  ⟨0x10001C, 0x1000, 12, 0x0, 0x0, 0x0, 0x0, 0x0, 0x0, 0, 0xFFFFFFFF⟩ /- MBC_RX_FRAMES -/,
  ⟨0x100020, 0x1000, 12, 0x0, 0x0, 0x0, 0x0, 0x0, 0x0, 0, 0xFFFFFFFF⟩ /- MBC_ERRORS -/,
  ⟨0x100028, 0x1000, 12, 0x0, 0x0, 0x0, 0x0, 0x0, 0x0, 0, 0xFFFFFFFF⟩ /- MBC_BUS_OFFS -/,
  ⟨0x10002C, 0x1000, 12, 0x0, 0x0, 0x0, 0x0, 0x0, 0x0, 0, 0xFFFFFFFF⟩ /- MBC_ARB_LOST -/,
  ⟨0x100030, 0x1000, 12, 0x0, 0x0, 0x0, 0x0, 0x0, 0x0, 0, 0xFFFFFFFF⟩ /- MBC_TX_CANCELLED -/,
  ⟨0x100034, 0x1000, 12, 0x0, 0x0, 0x0, 0x0, 0x0, 0x0, 0, 0xFFFFFFFF⟩ /- MBC_TX_SUPERSEDED -/,
  ⟨0x10003C, 0x1000, 12, 0x0, 0x0, 0x0, 0x0, 0x0, 0x0, 0, 0xFFFFFFFF⟩ /- MBC_RX_DISCARDED -/,
  ⟨0x100048, 0x1000, 12, 0x0, 0x0, 0x0, 0xFFFFFFFF, 0x0, 0x0, 0, 0x0⟩ /- MBC_RX_ACK -/,
  ⟨0x10004C, 0x1000, 12, 0x0, 0x0, 0x0, 0x0, 0x0, 0x0, 0, 0xFFFFFFFF⟩ /- MBC_RX_DROPPED -/,
  ⟨0x100054, 0x1000, 12, 0x0, 0x0, 0x3FF, 0x0, 0x0, 0x0, 0, 0x0⟩ /- MBC_LOAD_PEAK -/,
  ⟨0x100058, 0x1000, 12, 0x0, 0x0, 0x0, 0x0, 0x0, 0x0, 0, 0xFFFF0000⟩ /- MBC_REF_CYCLES -/,
  ⟨0x100060, 0x1000, 12, 0x0, 0x0, 0x0, 0x0, 0x0, 0x0, 0, 0xFFFFFFFF⟩ /- MBC_WAKEUPS -/,
  ⟨0x100068, 0x1000, 12, 0x0, 0x0, 0xFFFF, 0x0, 0x0, 0x0, 0, 0x0⟩ /- MBC_CYCLIC_LATENCY_MAX -/,
  ⟨0x10006C, 0x1000, 12, 0x0, 0x3F, 0x0, 0x0, 0x0, 0x0, 0, 0x0⟩ /- MBC_EVENT_STATUS -/,
  ⟨0x100070, 0x1000, 12, 0xFFFFFFFF, 0x0, 0x0, 0x0, 0x0, 0x0, 0, 0x0⟩ /- MBC_EVENT_ENABLE -/,
  ⟨0x10007C, 0x1000, 12, 0x0, 0x0, 0x0, 0x0, 0x0, 0x0, 0, 0xFFFFFFFF⟩ /- MBC_RESTRICTED_ERRORS -/]
/-- The descriptors of block MBC; a register without one is read-only and resets to 0. -/
def descMBC : List Desc := descMBC0
/-- Registers of block SER that are not plain read-only words reset to 0 (part 0). -/
def descSER0 : List Desc := [
  ⟨0x10C004, 0x400, 4, 0x0, 0x0, 0x0, 0xFF00000F, 0x0, 0x0, 0, 0x0⟩ /- SER_CONTROL -/,
  ⟨0x10C010, 0x400, 4, 0x0, 0x0, 0xFFFF, 0x0, 0x0, 0x0, 0, 0x0⟩ /- SER_POLL_CYCLE_MAX -/,
  ⟨0x10C01C, 0x400, 4, 0x0, 0x0, 0x0, 0x0, 0x0, 0x0, 0, 0xFFFFFFFF⟩ /- SER_FRAMES_OK -/,
  ⟨0x10C020, 0x400, 4, 0x0, 0x0, 0x0, 0x0, 0x0, 0x0, 0, 0xFFFFFFFF⟩ /- SER_CRC_ERRORS -/,
  ⟨0x10C024, 0x400, 4, 0x0, 0x0, 0x0, 0x0, 0x0, 0x0, 0, 0xFFFFFFFF⟩ /- SER_TIMEOUTS -/,
  ⟨0x10C028, 0x400, 4, 0x0, 0x0, 0x0, 0x0, 0x0, 0x0, 0, 0xFFFFFFFF⟩ /- SER_FRAMING_ERRORS -/,
  ⟨0x10C02C, 0x400, 4, 0xFFFFFFFF, 0x0, 0x0, 0x0, 0x0, 0x0, 0, 0x0⟩ /- SER_NODE_SELECT -/,
  ⟨0x10C030, 0x400, 4, 0x0, 0x0, 0x0, 0x0, 0x0, 0x0, 0, 0xFFFF⟩ /- SER_NODE_STATUS -/,
  ⟨0x10C034, 0x400, 4, 0x0, 0x3, 0x0, 0x0, 0x0, 0x0, 0, 0x0⟩ /- SER_EVENT_STATUS -/,
  ⟨0x10C038, 0x400, 4, 0xFFFFFFFF, 0x0, 0x0, 0x0, 0x0, 0x0, 0, 0x0⟩ /- SER_EVENT_ENABLE -/,
  ⟨0x10C03C, 0x400, 4, 0x0, 0x0, 0x0, 0x0, 0x0, 0x0, 0, 0xFFFFFFFF⟩ /- SER_CONTENTIONS -/]
/-- The descriptors of block SER; a register without one is read-only and resets to 0. -/
def descSER : List Desc := descSER0
/-- Registers of block NET that are not plain read-only words reset to 0 (part 0). -/
def descNET0 : List Desc := [
  ⟨0x110004, 0x0, 1, 0x0, 0x0, 0x0, 0xFF00000F, 0x0, 0x0, 0, 0x0⟩ /- NET_CONTROL -/,
  ⟨0x110008, 0x0, 1, 0x0, 0x0, 0x0, 0x0, 0x0, 0xF00, 0, 0x0⟩ /- NET_PTP_STATUS -/,
  ⟨0x110020, 0x0, 1, 0x0, 0x0, 0x0, 0x0, 0x0, 0x0, 0, 0xFFFFFFFF⟩ /- NET_PTP_SYNC_RX -/,
  ⟨0x110024, 0x0, 1, 0x0, 0x0, 0xFFFFFFFF, 0x0, 0x0, 0x0, 0, 0x0⟩ /- NET_PTP_OFFSET_MAX -/,
  ⟨0x110028, 0x0, 1, 0x0, 0x0, 0x0, 0x0, 0x0, 0x0, 0, 0xFFFFFFFF⟩ /- NET_PTP_DELAY_REQ_RX -/,
  ⟨0x11002C, 0x0, 1, 0x0, 0x0, 0x0, 0x0, 0x0, 0x0, 0, 0xFFFFFFFF⟩ /- NET_PTP_LOCK_LOSSES -/,
  ⟨0x110034, 0x0, 1, 0x0, 0x0, 0x0, 0x0, 0x0, 0x0, 0, 0xFFFFFFFF⟩ /- NET_PRP_DUP_DISCARDED -/,
  ⟨0x110038, 0x0, 1, 0x0, 0x0, 0x0, 0x0, 0x0, 0x0, 0, 0xFFFFFFFF⟩ /- NET_PRP_WRONG_LAN -/,
  ⟨0x110040, 0x20, 4, 0x0, 0x0, 0x0, 0x0, 0x0, 0x0, 0, 0xFFFF⟩ /- NET_PORT_STATUS -/,
  ⟨0x110044, 0x20, 4, 0x0, 0x0, 0x0, 0x0, 0x0, 0x0, 0, 0xFFFFFFFF⟩ /- NET_PORT_RX_FRAMES -/,
  ⟨0x110048, 0x20, 4, 0x0, 0x0, 0x0, 0x0, 0x0, 0x0, 0, 0xFFFFFFFF⟩ /- NET_PORT_TX_FRAMES -/,
  ⟨0x11004C, 0x20, 4, 0x0, 0x0, 0x0, 0x0, 0x0, 0x0, 0, 0xFFFFFFFF⟩ /- NET_PORT_RX_ERRORS -/,
  ⟨0x110050, 0x20, 4, 0x0, 0x0, 0x0, 0x0, 0x0, 0x0, 0, 0xFFFFFFFF⟩ /- NET_PORT_DROPPED -/,
  ⟨0x110058, 0x20, 4, 0x0, 0x0, 0x0, 0x0, 0x0, 0x0, 2, 0x0⟩ /- NET_PORT_MAC_LO -/,
  ⟨0x11005C, 0x20, 4, 0x0, 0x0, 0x0, 0x0, 0x0, 0x0, 2, 0x0⟩ /- NET_PORT_MAC_HI -/,
  ⟨0x1100C0, 0x0, 1, 0x0, 0x0, 0x0, 0x0, 0x0, 0x0, 0, 0xFFFFFFFF⟩ /- NET_HELM_REFUSED -/,
  ⟨0x1100C4, 0x0, 1, 0x0, 0x0, 0x0, 0x0, 0x0, 0x0, 0, 0xFFFFFFFF⟩ /- NET_TLS_FAILURES -/,
  ⟨0x1100CC, 0x0, 1, 0x0, 0x0, 0x0, 0x0, 0x0, 0x0, 0, 0xFFFFFFFF⟩ /- NET_MODBUS_REQUESTS -/,
  ⟨0x1100D0, 0x0, 1, 0x0, 0x0, 0x0, 0x0, 0x0, 0x0, 0, 0xFFFFFFFF⟩ /- NET_MODBUS_EXCEPTIONS -/,
  ⟨0x1100D4, 0x0, 1, 0x0, 0x0, 0x0, 0x0, 0x0, 0x0, 0, 0xFFFFFFFF⟩ /- NET_PCS_TX -/,
  ⟨0x1100D8, 0x0, 1, 0x0, 0x0, 0x0, 0x0, 0x0, 0x0, 0, 0xFFFFFFFF⟩ /- NET_PCS_RX -/,
  ⟨0x1100DC, 0x0, 1, 0x0, 0x0, 0x0, 0x0, 0x0, 0x0, 0, 0xFFFFFFFF⟩ /- NET_PCS_REJECTED -/,
  ⟨0x1100E0, 0x0, 1, 0x0, 0x0, 0x0, 0x0, 0x0, 0x0, 0, 0xFFFFFFFF⟩ /- NET_SAFETY_RX -/,
  ⟨0x1100E4, 0x0, 1, 0x0, 0x0, 0x0, 0x0, 0x0, 0x0, 0, 0xFFFFFFFF⟩ /- NET_SAFETY_REJECTED -/]
/-- Registers of block NET that are not plain read-only words reset to 0 (part 1). -/
def descNET1 : List Desc := [
  ⟨0x1100E8, 0x0, 1, 0x0, 0x0, 0x0, 0x0, 0x0, 0x0, 0, 0xFFFFFFFF⟩ /- NET_ARP_CONFLICTS -/,
  ⟨0x1100EC, 0x0, 1, 0x0, 0x0, 0x0, 0x0, 0x0, 0x0, 0, 0xFFFFFFFF⟩ /- NET_PTP_ANNOUNCE_RX -/,
  ⟨0x1100F4, 0x0, 1, 0x0, 0x0, 0x0, 0x0, 0x0, 0x0, 0, 0xFFFFFFFF⟩ /- NET_DROPPED_UNSERVED -/,
  ⟨0x1100F8, 0x0, 1, 0x0, 0x1F, 0x0, 0x0, 0x0, 0x0, 0, 0x0⟩ /- NET_EVENT_STATUS -/,
  ⟨0x1100FC, 0x0, 1, 0xFFFFFFFF, 0x0, 0x0, 0x0, 0x0, 0x0, 0, 0x0⟩ /- NET_EVENT_ENABLE -/]
/-- The descriptors of block NET; a register without one is read-only and resets to 0. -/
def descNET : List Desc := descNET0 ++ descNET1
/-- Registers of block ACQ that are not plain read-only words reset to 0 (part 0). -/
def descACQ0 : List Desc := [
  ⟨0x120004, 0x0, 1, 0x0, 0x0, 0x0, 0xFF00000F, 0x0, 0x0, 0, 0x0⟩ /- ACQ_CONTROL -/,
  ⟨0x120020, 0x0, 1, 0x0, 0x0, 0x0, 0x0, 0x0, 0x0, 0, 0xFFFFFFFF⟩ /- ACQ_RECORDS -/,
  ⟨0x120024, 0x0, 1, 0x0, 0x0, 0x0, 0x0, 0x0, 0x0, 0, 0xFFFFFFFF⟩ /- ACQ_TRIGGERS_IGNORED -/,
  ⟨0x120028, 0x0, 1, 0x0, 0x0, 0x0, 0x0, 0x0, 0x0, 0, 0xFFFFFFFF⟩ /- ACQ_NO_RESOURCE -/,
  ⟨0x12002C, 0x0, 1, 0x0, 0x0, 0x0, 0x0, 0x0, 0x0, 0, 0xFFFFFFFF⟩ /- ACQ_AUTO_TRIGGERS -/,
  ⟨0x120030, 0x0, 1, 0x0, 0x0, 0x0, 0x0, 0x0, 0x0, 0, 0xFFFFFFFF⟩ /- ACQ_ABORTS -/,
  ⟨0x120034, 0x0, 1, 0x0, 0x7, 0x0, 0x0, 0x0, 0x0, 0, 0x0⟩ /- ACQ_EVENT_STATUS -/,
  ⟨0x120038, 0x0, 1, 0xFFFFFFFF, 0x0, 0x0, 0x0, 0x0, 0x0, 0, 0x0⟩ /- ACQ_EVENT_ENABLE -/,
  ⟨0x12003C, 0x0, 1, 0x3FF3F, 0x0, 0x0, 0x0, 0x0, 0x0, 0, 0x0⟩ /- ACQ_BUF_SELECT -/,
  ⟨0x120044, 0x0, 1, 0x0, 0x0, 0x0, 0x0, 0x0, 0xF, 0, 0x0⟩ /- ACQ_BUF_CONFIG -/,
  ⟨0x120070, 0x0, 1, 0xFFFFFFFF, 0x0, 0x0, 0x0, 0x0, 0x0, 0, 0x0⟩ /- ACQ_MEAS_SELECT -/,
  ⟨0x120074, 0x0, 1, 0x0, 0x0, 0x0, 0x0, 0x0, 0x7FC00000, 0, 0x0⟩ /- ACQ_MEAS_VALUE -/,
  ⟨0x120100, 0x10, 16, 0x0, 0x0, 0x0, 0x0, 0x0, 0x7FC00000, 0, 0x0⟩ /- ACQ_CH_MEAN -/,
  ⟨0x120104, 0x10, 16, 0x0, 0x0, 0x0, 0x0, 0x0, 0x7FC00000, 0, 0x0⟩ /- ACQ_CH_MIN -/,
  ⟨0x120108, 0x10, 16, 0x0, 0x0, 0x0, 0x0, 0x0, 0x7FC00000, 0, 0x0⟩ /- ACQ_CH_MAX -/]
/-- The descriptors of block ACQ; a register without one is read-only and resets to 0. -/
def descACQ : List Desc := descACQ0
/-- Registers of block REC that are not plain read-only words reset to 0 (part 0). -/
def descREC0 : List Desc := [
  ⟨0x130004, 0x0, 1, 0x0, 0x0, 0x0, 0xFF00000F, 0x0, 0x0, 0, 0x0⟩ /- REC_CONTROL -/,
  ⟨0x130008, 0x0, 1, 0x0, 0x0, 0x0, 0x0, 0x0, 0x0, 2, 0x0⟩ /- REC_USED -/,
  ⟨0x13000C, 0x0, 1, 0x0, 0x0, 0x0, 0x0, 0x0, 0x3FBB000, 0, 0x0⟩ /- REC_CAPACITY -/,
  ⟨0x130010, 0x0, 1, 0x0, 0x0, 0x0, 0x0, 0x0, 0x0, 2, 0x0⟩ /- REC_RECORDS -/,
  ⟨0x130014, 0x0, 1, 0x0, 0x0, 0x0, 0x0, 0x0, 0x0, 2, 0x0⟩ /- REC_NEXT_SEQ -/,
  ⟨0x130018, 0x0, 1, 0x0, 0x0, 0x0, 0x0, 0x0, 0x0, 2, 0x0⟩ /- REC_FIRST_SEQ -/,
  ⟨0x13001C, 0x0, 1, 0x0, 0x0, 0x0, 0x0, 0x0, 0x0, 2, 0x0⟩ /- REC_LOST -/,
  ⟨0x130020, 0x0, 1, 0x0, 0x0, 0x0, 0x0, 0x0, 0x0, 2, 0x0⟩ /- REC_TORN -/,
  ⟨0x130024, 0x0, 1, 0x0, 0x0, 0x0, 0x0, 0x0, 0x0, 2, 0x0⟩ /- REC_RESERVE_USED -/,
  ⟨0x130028, 0x0, 1, 0x0, 0x0, 0x0, 0x0, 0x0, 0x0, 2, 0x0⟩ /- REC_LEDGER_COUNT -/,
  ⟨0x13002C, 0x0, 1, 0xFFFFFFFF, 0x0, 0x0, 0x0, 0x0, 0x0, 0, 0x0⟩ /- REC_LEDGER_SELECT -/,
  ⟨0x13004C, 0x0, 1, 0x0, 0x0, 0x0, 0x0, 0x0, 0x10000000, 0, 0x0⟩ /- REC_TRACE_SIZE -/,
  ⟨0x130050, 0x0, 1, 0x0, 0x0, 0x0, 0x0, 0x0, 0x0, 0, 0xFFFFFFFF⟩ /- REC_TRACE_WRAPS -/,
  ⟨0x130058, 0x0, 1, 0x0, 0xF, 0x0, 0x0, 0x0, 0x0, 0, 0x0⟩ /- REC_EVENT_STATUS -/,
  ⟨0x13005C, 0x0, 1, 0xFFFFFFFF, 0x0, 0x0, 0x0, 0x0, 0x0, 0, 0x0⟩ /- REC_EVENT_ENABLE -/]
/-- The descriptors of block REC; a register without one is read-only and resets to 0. -/
def descREC : List Desc := descREC0
/-- Registers of block DBG that are not plain read-only words reset to 0 (part 0). -/
def descDBG0 : List Desc := [
  ⟨0x140004, 0x0, 1, 0xFFFFFFFE, 0x0, 0x0, 0x0, 0x0, 0x0, 0, 0x0⟩ /- DBG_HALT_REQUEST -/,
  ⟨0x140010, 0x0, 1, 0xFFFFFFFF, 0x0, 0x0, 0x0, 0x0, 0x0, 0, 0x0⟩ /- DBG_MEM_ADDR_LO -/,
  ⟨0x140014, 0x0, 1, 0xFFFFFFFF, 0x0, 0x0, 0x0, 0x0, 0x0, 0, 0x0⟩ /- DBG_MEM_ADDR_HI -/,
  ⟨0x140018, 0x0, 1, 0xFFFFFFFF, 0x0, 0x0, 0x0, 0x0, 0x0, 0, 0x0⟩ /- DBG_MEM_DATA -/,
  ⟨0x140020, 0x0, 1, 0x0, 0x0, 0x0, 0x0, 0x0, 0x0, 0, 0xFFFFFFFF⟩ /- DBG_HALTS -/,
  ⟨0x140024, 0x0, 1, 0x0, 0x0, 0x0, 0x0, 0x0, 0x0, 0, 0xFFFFFFFF⟩ /- DBG_DEFERRALS -/,
  ⟨0x140028, 0x0, 1, 0x0, 0x0, 0x0, 0x0, 0x0, 0x0, 0, 0xFFFFFFFF⟩ /- DBG_BREAK_HITS -/,
  ⟨0x14002C, 0x0, 1, 0x0, 0x0, 0x0, 0x0, 0x0, 0x0, 0, 0xFFFFFFFF⟩ /- DBG_REFUSED -/,
  ⟨0x140030, 0x0, 1, 0x0, 0x0, 0x0, 0x0, 0x0, 0x0, 0, 0xFFFFFFFF⟩ /- DBG_SESSIONS -/,
  ⟨0x140034, 0x0, 1, 0xFFFFFFFF, 0x0, 0x0, 0x0, 0x0, 0x0, 0, 0x0⟩ /- DBG_BREAK_ENABLE -/,
  ⟨0x140080, 0x8, 4, 0xFFFFFFFF, 0x0, 0x0, 0x0, 0x0, 0x0, 0, 0x0⟩ /- DBG_BREAK_LO -/,
  ⟨0x140084, 0x8, 4, 0xFFFFFFFF, 0x0, 0x0, 0x0, 0x0, 0x0, 0, 0x0⟩ /- DBG_BREAK_HI -/]
/-- The descriptors of block DBG; a register without one is read-only and resets to 0. -/
def descDBG : List Desc := descDBG0

/-- The descriptors of the block in whose range the address lies (R714). -/
def descsAt (a : Nat) : List Desc :=
  if 0x140000 ≤ a then descDBG
  else if 0x130000 ≤ a then descREC
  else if 0x120000 ≤ a then descACQ
  else if 0x110000 ≤ a then descNET
  else if 0x10C000 ≤ a then descSER
  else if 0x100000 ≤ a then descMBC
  else if 0xF0000 ≤ a then descFIO
  else if 0xE0000 ≤ a then descSAF
  else if 0xD0000 ≤ a then descPOS
  else if 0xC0000 ≤ a then descDOOR
  else if 0xB0000 ≤ a then descCAR
  else if 0xA0000 ≤ a then descGRP
  else if 0x90000 ≤ a then descPWM
  else if 0x80000 ≤ a then descLOOP
  else if 0x70000 ≤ a then descPLT
  else if 0x60000 ≤ a then descEST
  else if 0x50000 ≤ a then descXNG
  else if 0x40000 ≤ a then descHQ
  else if 0x30000 ≤ a then descMAN
  else if 0x20000 ≤ a then descSEC
  else if 0x10000 ≤ a then descPWR
  else descSYS

/-- One row covers the address: one of its instances stands there. -/
def Desc.covers (d : Desc) (a : Nat) : Bool :=
  decide (d.addr ≤ a) && (if d.stride = 0 then a == d.addr
    else (a - d.addr) % d.stride == 0 && decide ((a - d.addr) / d.stride < d.n))
/-- A register with no row of its own: read-only, reset 0 (R164 gives an offset without a register the same). -/
def Desc.plain (a : Nat) : Desc := ⟨a, 0, 1, 0, 0, 0, 0, 0, 0, 0, 0⟩
/-- The descriptor of the register at an address. -/
def descOf (a : Nat) : Desc := ((descsAt a).find? (·.covers a)).getD (Desc.plain a)
/-- The word a register holds at power good (R716). -/
def resetWord (a : Nat) : Word := BitVec.ofNat 32 (descOf a).rst
end Sys2Proof.Machine
end

