-- ==== Sys2Proof/Machine/Ops.lean ====
section
/-!
DEFINITION. The operations every meaning is written over: tables, registers and their fields, Helm responses, events,
recorder entries, HOLD and free values.
-/
namespace Sys2Proof.Machine
open Sys2Proof

/-! ## Tables -/

/-- The value at a key. -/
def tget {α : Type} : Tbl α → Nat → Option α
  | [], _ => none
  | (k, v) :: t, a => if k = a then some v else tget t a
/-- The table with a value at a key, its keys kept strictly rising. -/
def tput {α : Type} : Tbl α → Nat → α → Tbl α
  | [], a, x => [(a, x)]
  | (k, v) :: t, a, x => if a < k then (a, x) :: (k, v) :: t else if a = k then (a, x) :: t else (k, v) :: tput t a x
/-- The table without a key. -/
def tdel {α : Type} (t : Tbl α) (a : Nat) : Tbl α := t.filter fun p => p.1 != a
/-- The table with the value at a key changed, where there is one. -/
def tmod {α : Type} (t : Tbl α) (a : Nat) (f : α → α) : Tbl α :=
  match tget t a with
  | some x => tput t a (f x)
  | none => t
/-- The keys of a table stand strictly rising. -/
def Sorted {α : Type} : Tbl α → Prop
  | [] => True
  | (k, _) :: t => (∀ p ∈ t, k < p.1) ∧ Sorted t
/-- The value at a key, or a default. -/
def tgetD {α : Type} (t : Tbl α) (a : Nat) (d : α) : α := (tget t a).getD d

/-! ## Bytes (R43, R157, R645: little-endian) -/

/-- The n bytes of a number, least significant first. -/
def le : Nat → Nat → List Byte
  | 0, _ => []
  | n + 1, v => BitVec.ofNat 8 v :: le n (v / 256)
/-- The number that bytes spell, least significant first. -/
def ofLe : List Byte → Nat
  | [] => 0
  | b :: t => b.toNat + 256 * ofLe t
/-- The number in `n` bytes from offset `o`; bytes beyond the end count as 0. -/
def uAt (b : List Byte) (o n : Nat) : Nat := ofLe ((b.drop o).take n)
def u8 (b : List Byte) (o : Nat) : Nat := uAt b o 1
def u16 (b : List Byte) (o : Nat) : Nat := uAt b o 2
def u32 (b : List Byte) (o : Nat) : Nat := uAt b o 4
def u64 (b : List Byte) (o : Nat) : Nat := uAt b o 8
/-- Bit n of a number. -/
def bit (v n : Nat) : Bool := v / 2 ^ n % 2 = 1
/-- 1 or 0. -/
def b2n (b : Bool) : Nat := if b then 1 else 0

/-! ## Registers -/

/-- The word at an address: the one listed, or its reset word. -/
def State.word (s : State) (a : Nat) : Word := (tget s.regs a).getD (resetWord a)
/-- The register file with a word at an address; a word equal to the reset word is not listed. -/
def putWord (m : Tbl Word) (a : Nat) (w : Word) : Tbl Word := if w = resetWord a then tdel m a else tput m a w
/-- The register file in its one canonical form: addresses strictly rising, and no word listed that equals its register's
reset word, which is what an unlisted address reads as. -/
def RegsOk (m : Tbl Word) : Prop := Sorted m ∧ ∀ p ∈ m, p.2 ≠ resetWord p.1
def State.setWord (s : State) (a : Nat) (w : Word) : State := { s with regs := putWord s.regs a w }
/-- The bits of a field, as a mask of its register. -/
def Fld.mask (f : Fld) : Word := (BitVec.allOnes 32 >>> (32 - f.width)) <<< f.lo
/-- The value of a field. -/
def State.rd (s : State) (f : Fld) : Nat := (s.word f.addr).toNat / 2 ^ f.lo % 2 ^ f.width
/-- A field given a value (the value modulo the field's width); the register's other bits stay. -/
def State.wr (s : State) (f : Fld) (v : Nat) : State :=
  s.setWord f.addr ((s.word f.addr &&& ~~~f.mask) ||| (BitVec.ofNat 32 (v % 2 ^ f.width) <<< f.lo))
/-- A one-bit field as a Bool. -/
def State.on (s : State) (f : Fld) : Bool := s.rd f == 1
def State.wrB (s : State) (f : Fld) (b : Bool) : State := s.wr f (b2n b)
/-- A counter stepped, wrapping at its width. -/
def State.inc (s : State) (f : Fld) : State := s.wr f (s.rd f + 1)
/-- A counter stepped by n, wrapping at its width. -/
def State.incBy (s : State) (f : Fld) (n : Nat) : State := s.wr f (s.rd f + n)
/-- A counter stepped, saturating at its largest value. -/
def State.incSat (s : State) (f : Fld) : State := if s.rd f + 1 < 2 ^ f.width then s.wr f (s.rd f + 1) else s
/-- One bit of a whole-register bit mask. -/
def Fld.bit (f : Fld) (n : Nat) : Fld := { f with lo := f.lo + n, width := 1 }
/-- A part of a register, by its bits. -/
def Fld.part (f : Fld) (lo width : Nat) : Fld := { f with lo := f.lo + lo, width := width }
/-- A pair of registers as one 64-bit value (R165): the low word's field is given, the high word stands 4 bytes on. -/
def State.rd64 (s : State) (lo : Fld) : Nat := s.rd lo + 2 ^ 32 * s.rd { lo with addr := lo.addr + 4 }
def State.wr64 (s : State) (lo : Fld) (v : Nat) : State :=
  (s.wr lo v).wr { lo with addr := lo.addr + 4 } (v / 2 ^ 32)
/-- The pair read as a signed 48-bit value, held sign-extended (R439). -/
def State.rdS48 (s : State) (lo : Fld) : Int := (BitVec.ofNat 48 (s.rd64 lo)).toInt
def State.wrS48 (s : State) (lo : Fld) (v : Int) : State := s.wr64 lo (BitVec.ofInt 64 (BitVec.ofInt 48 v).toInt).toNat
/-- A signed value in a 32-bit register. -/
def State.rdS (s : State) (f : Fld) : Int := (BitVec.ofNat 32 (s.rd f)).toInt
def State.wrS (s : State) (f : Fld) (v : Int) : State := s.wr f (BitVec.ofInt 32 v).toNat
/-- A register whose descriptor names one of the given sources holds its word; every other register goes back to the
word it takes at power good (R716). -/
def keepRegs (keeps : List Nat) (m : Tbl Word) : Tbl Word := m.filter fun p => (descOf p.1).keep ∈ keeps
/-- The block number of an address (R175). -/
def blockNo (a : Nat) : Nat :=
  if a < 0x100000 then a / 0x10000
  else if a < 0x10C000 then 16 else if a < 0x110000 then 17 else a / 0x10000 + 1
/-- CLEAR_COUNTERS (R717): the counters since start in `len` bytes from `base` are set to 0. -/
def State.clearCounters (s : State) (base len : Nat) : State :=
  (s.regs.filter fun p => decide (base ≤ p.1) && decide (p.1 < base + len)).foldl
    (fun s p => s.setWord p.1 (p.2 &&& ~~~(BitVec.ofNat 32 (descOf p.1).since))) s

/-! ## Time (R127) -/

def State.tick (s : State) : Nat := s.rd64 R.PWR_TICK_LO
def State.opSec (s : State) : Nat := s.rd R.PWR_OP_SECONDS
def State.timeKnown (s : State) : Bool := s.rd R.PWR_PLANT_TIME_STATUS_STATE != 0
/-- Plant time as a stamp: 0 while UNKNOWN (R182, R645). -/
def State.stampTime (s : State) : Nat := if s.timeKnown then s.rd64 R.PWR_PLANT_TIME_LO else 0

/-! ## Free values -/

/-- The next free word, the draw counter stepped. -/
def State.drawWord (s : State) : Word × State := (Config.freeWord s.free, { s with free := s.free + 1 })
def State.drawReal (s : State) : Rat × State := (Config.freeReal s.free, { s with free := s.free + 1 })

/-! ## Sending -/

def State.send (s : State) (o : Out) : State := { s with out := o :: s.out }
/-- A frame or datagram sent from an Ethernet port, counted (R621). -/
def State.sendEth (s : State) (p kind dst : Nat) (data : List Byte) : State :=
  (s.inc (R.NET_PORT_TX_FRAMES p)).send (.frame (.eth p) kind dst data)
def State.sendAll (s : State) (l : List Out) : State := l.foldl State.send s

/-! ## Helm messages as bytes (R157, R182) -/

/-- An event entry, 128 bytes. -/
def EvEntry.bytes (e : EvEntry) : List Byte :=
  le 2 e.code ++ le 2 e.inst ++ le 4 e.seq ++ le 4 e.srcSeq ++ le 4 e.epoch ++ le 8 e.tick ++ le 8 e.plantTime ++ le 4 e.opSec ++
    le 2 e.flags ++ le 2 e.data.length ++ (e.data ++ List.replicate 88 0#8).take 88
/-- The fields of a response after its status, as each type lays them out (R156, R162, R163, R169, R172, R174, R184, R189); a
type that gives no layout carries 2 reserved bytes. -/
def bodyBytes (typ : Nat) (body : List Nat) : List Byte :=
  match typ, body with
  | 4, off :: tick :: l => le 2 0 ++ le 4 off ++ le 8 tick ++ l.flatMap (le 4)
  | 0x12, [mask, epoch] => le 2 mask ++ le 4 epoch
  | 0x33, [tick] => le 2 0 ++ le 4 0 ++ le 8 tick
  | 0x50, [mask] => le 1 mask
  | _, l => le 2 0 ++ l.flatMap (le 4)
/-- A message with its 12-byte header. -/
def helmMessage (typ flags tag : Nat) (payload : List Byte) : List Byte :=
  le 2 typ ++ le 2 flags ++ le 4 tag ++ le 4 payload.length ++ payload
/-- What the Turid sends in a Helm session, byte by byte; nothing for what is no Helm message. -/
def Out.wire : Out → List Byte
  | .response _ tag typ status more body => helmMessage typ (1 + 2 * b2n more) tag (le 2 status ++ bodyBytes typ body)
  | .qack _ q status tag result => helmMessage 0x11 0 0 (le 1 q ++ le 1 0 ++ le 2 status ++ le 4 tag ++ le 8 result)
  | .event _ q e => helmMessage 0x21 0 0 (le 1 q ++ le 3 0 ++ e.bytes)
  | _ => []
/-- The bytes that a session has sent count toward the next key update (R153). -/
def Session.sending (x : Session) (o : Out) : Session :=
  let n := x.sent + o.wire.length
  if 2 ^ 30 ≤ n then { x with sent := n - 2 ^ 30, rekeys := x.rekeys + 1 } else { x with sent := n }
/-- A message sent in a session. -/
def State.sendTo (s : State) (n : Nat) (o : Out) : State :=
  State.send { s with hq := { s.hq with sessions := tmod s.hq.sessions n fun x => x.sending o } } o

/-! ## Events (R182, R183, R186) -/

/-- The entry that the event makes at the present instant. -/
def State.mkEvent (s : State) (code inst seq srcSeq : Nat) (lost : Bool) (data : List Byte) : EvEntry :=
  { code := code, inst := inst, seq := seq, srcSeq := srcSeq, epoch := s.rd R.HQ_FENCE_EPOCH, tick := s.tick,
    plantTime := s.stampTime, opSec := s.opSec, flags := b2n s.timeKnown + 2 * b2n lost, data := data.take 88 }
def EvQueue.empty : EvQueue := ⟨[], none, 0, false⟩
def State.eventQ (s : State) (q : Nat) : EvQueue := tgetD s.hq.eq q EvQueue.empty
def State.setEventQ (s : State) (q : Nat) (e : EvQueue) : State := { s with hq := { s.hq with eq := tput s.hq.eq q e } }
/-- A full event queue holds 65,536 entries (R182). -/
def eventCap : Nat := 65536
/-- The listeners of a queue take the entry into their backlog, of which the oldest beyond 4,096 are skipped (R184). -/
def Session.hear (q : Nat) (e : EvEntry) (x : Session) : Session :=
  match tget x.listen q with
  | none => x
  | some l => { x with listen := tput x.listen q (let l' := l ++ [e]; l'.drop (l'.length - 4096)) }
/-- An event posted, with what the queue's fill brings about: `n` bounds the events that a post itself posts. -/
def State.postN : Nat → State → Nat → Nat → Nat → List Byte → State
  | n, s, q, code, inst, data =>
    let src := code / 256 * 65536 + inst
    let k := tgetD s.hq.srcSeq src 0
    let s := { s with hq := { s.hq with srcSeq := tput s.hq.srcSeq src ((k + 1) % 2 ^ 32) } }
    let eq := s.eventQ q
    let note := fun (s : State) (f : Fld) (b : Nat) =>
      if s.on f then s else
        let s := s.wrB f true
        match n with
        | 0 => s
        | m + 1 => if bit (s.rd R.HQ_EVENT_ENABLE) b
                   then State.postN m s 1 (0x0400 + 0xE0 + b) 0 (le 4 (s.rd R.HQ_EVENT_STATUS)) else s
    if eventCap ≤ eq.entries.length then
      let s := (s.setEventQ q { eq with lostBefore := true }).inc (R.HQ_EQ_LOST q)
      note s R.HQ_EVENT_STATUS_EVENTS_LOST 1
    else
      let e := s.mkEvent code inst (s.rd (R.HQ_EQ_NEXT_SEQ q)) k eq.lostBefore data
      let s := (s.setEventQ q { eq with entries := eq.entries ++ [e], lostBefore := false }).inc (R.HQ_EQ_NEXT_SEQ q)
      let s := { s with hq := { s.hq with sessions := s.hq.sessions.map fun p => (p.1, p.2.hear q e) } }
      if eq.entries.length + 1 = 58983 then note s R.HQ_EVENT_STATUS_EQ_HIGH 0 else s
/-- A trigger source heard where a TRIGGER record has a condition of its kind (R630); acquisition judges it before its next
frame. -/
def State.acqHear (s : State) (e : AcqEv) : State :=
  if s.man.cfg.any fun r => r.sec == 12 && r.kind == 2 && (List.range 4).any fun c => u8 r.body (0x10 + 12 * c) == e.kind
  then { s with acq := { s.acq with heard := s.acq.heard ++ [e] } } else s
/-- A source other than an event: PWM_FAULT 3, FIELD_INPUT 4, SAFETY_TRIP 5, CROSS_BUFFER 6. -/
def State.acqSource (s : State) (kind arg : Nat) (up : Bool) (stamp : Nat) : State := s.acqHear ⟨kind, arg, up, 0, 0, stamp⟩
/-- An event posted to a queue (R182 to R186), heard by acquisition (R631). -/
def State.post (s : State) (q code inst : Nat) (data : List Byte) : State :=
  (State.postN 2 s q code inst data).acqHear ⟨8, q, true, code, inst, 30000 * s.tick⟩
/-- The instance number of a block's register (R183): the instance stride of the blocks that repeat. -/
def instOf (a : Nat) : Nat :=
  let b := blockNo a
  if b = 5 ∨ b = 11 ∨ b = 13 then a % 0x10000 / 0x1000
  else if b = 12 then a % 0x10000 / 0x800 else if b = 16 then a % 0x10000 / 0x1000
  else if b = 17 then (a - 0x10C000) / 0x400 else 0
/-- A bit of an event-status register set by its occurrence: on a change from 0 to 1 the enabled event is posted to
queue 1 with code block × 256 + 0xE0 + bit (R183, R717). The enable register stands 4 bytes on. -/
def State.flag (s : State) (f : Fld) : State :=
  if s.on f then s else
    let s := s.wrB f true
    let whole : Fld := ⟨f.addr, 0, 32⟩
    if bit (s.rd { whole with addr := f.addr + 4 }) f.lo
    then s.post 1 (blockNo f.addr * 256 + 0xE0 + f.lo) (instOf f.addr) (le 4 (s.rd whole)) else s

/-! ## Recorder (R643 to R648) -/

def recCapacity : Nat := 0x03FBB000
def reserveCapacity : Nat := 0x40000
/-- The length of a record with so many data bytes: header and data padded to 8 (R645). -/
def recLen (n : Nat) : Nat := 32 + (n + 7) / 8 * 8
/-- The record that an allocation at this instant makes. -/
def State.mkRec (s : State) (writer code inst : Nat) (holdUp : Bool) (data : List Byte) : LogRec :=
  { seq := s.rd R.REC_NEXT_SEQ, code := code, inst := inst, mark := writer,
    flags := b2n s.timeKnown + 2 * b2n holdUp, opSec := s.opSec, opMs := s.rd R.PWR_OP_MS, cycles := s.rd R.PWR_POWER_CYCLES,
    plantTime := s.stampTime, len := recLen data.length, data := data }
/-- A record placed in the ordinary log. -/
def State.appendRec (s : State) (r : LogRec) : State :=
  (((({ s with nv := { s.nv with log := r :: s.nv.log } }).incBy R.REC_USED r.len).inc R.REC_RECORDS).inc R.REC_NEXT_SEQ)
/-- A record in the ordinary capacity, with LOG_HIGH when its use first reaches 90 % (R644). -/
def State.keepRec (s : State) (r : LogRec) : State :=
  let s := s.appendRec r
  if 60143616 ≤ s.rd R.REC_USED && !s.on R.REC_STATUS_HIGH then
    let s := s.wrB R.REC_STATUS_HIGH true
    let d := le 4 (s.rd R.REC_USED)
    let s := s.appendRec (s.mkRec 1 0x1401 0 false d)
    (s.post 1 0x1401 0 d).flag R.REC_EVENT_STATUS_HIGH
  else s
/-- Ordinary recording stops with LOG_FULL in the space that is left (R644). -/
def State.stopLog (s : State) : State :=
  let d := le 4 (s.rd R.REC_LOST)
  let s := (s.appendRec (s.mkRec 1 0x1402 0 false d)).wrB R.REC_STATUS_FULL true
  (s.post 0 0x1402 0 d).flag R.REC_EVENT_STATUS_FULL
/-- A record of so many bytes would leave less than 512 bytes of ordinary capacity (R644). -/
def State.noRoom (s : State) (len : Nat) : Bool := decide (recCapacity < s.rd R.REC_USED + len + 512)
/-- An ordinary record (R644): refused once ordinary recording has stopped, which it does where room runs out. -/
def State.record (s : State) (writer code inst : Nat) (data : List Byte) : State :=
  if s.on R.REC_STATUS_READ_ONLY then s
  else if s.on R.REC_STATUS_FULL then s.inc R.REC_LOST
  else if s.noRoom (recLen data.length) then (s.inc R.REC_LOST).stopLog
  else s.keepRec (s.mkRec writer code inst false data)
/-- A record in the trip reserve, refused where that is full too (R648). -/
def State.tripRec (s : State) (r : LogRec) : State :=
  if s.rd R.REC_RESERVE_USED + r.len ≤ reserveCapacity then
    ((({ s with nv := { s.nv with reserve := r :: s.nv.reserve } }).incBy R.REC_RESERVE_USED r.len).inc R.REC_NEXT_SEQ).wrB
      R.REC_STATUS_RESERVE_IN_USE true
  else s.inc R.REC_LOST
/-- A record of the dedicated writer (R104, R643, R648): it draws on the trip reserve once ordinary recording has stopped,
and where room runs out it stops it. -/
def State.recordTrip (s : State) (code inst : Nat) (holdUp : Bool) (data : List Byte) : State :=
  let s := if !s.on R.REC_STATUS_READ_ONLY && !s.on R.REC_STATUS_FULL && s.noRoom (recLen data.length) then s.stopLog else s
  let r := s.mkRec 2 code inst holdUp data
  if s.on R.REC_STATUS_READ_ONLY then s else if s.on R.REC_STATUS_FULL then s.tripRec r else s.keepRec r
/-- The writer of ordinary records (R645, R650): the Mooring firmware in Mooring mode. -/
def State.writer (s : State) : Nat := if s.on R.SYS_START_STATUS_MOORING then 4 else 1
/-- An event of a chapter's table: posted to its queue, and recorded under its code where the table says so (R647). -/
def State.raise (s : State) (e : EvDef) (inst : Nat) (data : List Byte) : State :=
  let s := s.post e.queue e.code inst data
  if e.recorded then s.record s.writer e.code inst data else s
/-- A recorder entry that a chapter names without an event code (R647): the code of the event-status bit, with the
register's value as data. -/
def State.recordBit (s : State) (f : Fld) : State :=
  s.record s.writer (blockNo f.addr * 256 + 0xE0 + f.lo) (instOf f.addr) (le 4 (s.rd ⟨f.addr, 0, 32⟩))

/-! ## Sessions, responses and completions -/

def State.session (s : State) (n : Nat) : Option Session := tget s.hq.sessions n
def State.setSession (s : State) (n : Nat) (x : Session) : State :=
  { s with hq := { s.hq with sessions := tput s.hq.sessions n x } }
/-- The selection that a session, or the firmware, holds at a select register (R717). -/
def State.sel (s : State) (who : Option Nat) (a : Nat) : Nat :=
  match who with
  | none => (tgetD s.hq.fwSel a 0#32).toNat
  | some n => (s.session n).elim 0 fun x => (tgetD x.sel a 0#32).toNat
/-- The session is open: it has a number and its handshake is complete. -/
def State.isOpen (s : State) (n : Nat) : Bool :=
  match s.session n with
  | some x => !x.handshaking
  | none => false
/-- The role bits that a set of held roles stands for: every role includes observer, engineer includes operator (R155). -/
def effRoles (m : Nat) : Nat := (m ||| 1) ||| (if bit m 2 then 2 else 0)
def State.roles (s : State) (n : Nat) : Nat :=
  match s.session n with
  | some x => effRoles x.roles
  | none => 0
/-- The session holds every role of the mask. -/
def State.holds (s : State) (n mask : Nat) : Bool := s.roles n &&& mask == mask
def State.engineer (s : State) (n : Nat) : Bool := s.holds n 4
/-- A response (R158): sent, and its request no longer awaits one. A closed session is owed nothing (R154). -/
def State.reply (s : State) (n tag type status : Nat) (body : List Nat) : State :=
  match s.session n with
  | none => s
  | some x => (s.setSession n { x with tags := x.tags.erase tag }).sendTo n (.response n tag type status false body)
/-- The command running from a queue (R177). -/
def State.running (s : State) (q : Nat) : Option Cmd := tget s.hq.running q
/-- The completion of the command running from a queue (R176): QUEUE_ACK with a status and an 8-byte result, to the
session that pushed it while that is still open (R154); the queue's next command may then start. -/
def State.complete (s : State) (q status result : Nat) : State :=
  match s.running q with
  | none => s
  | some c =>
    let s := { s with hq := { s.hq with running := tdel s.hq.running q },
                      pwr := { s.pwr with cmdHold := s.pwr.cmdHold.filter (·.1 != q) } }
    match s.session c.sess with
    | none => s
    | some x => if x.uid = c.uid then s.sendTo c.sess (.qack c.sess q status c.tag (result % 2 ^ 64)) else s
/-- The effect of a queued command: given the entry that runs from the queue, when it carries the row's code. A queue
that runs no such command gives the row nothing to act on. -/
def State.onCmd (s : State) (q code : Nat) (f : Cmd → State → State) : Res State :=
  match s.running q with
  | none => .next s
  | some c => if c.code = code then .next (f c s) else .next s
/-- Status codes of R160 and of the reset table of Helm. -/
abbrev OK : Nat := 0
abbrev STATE : Nat := 0x13
abbrev BUSY : Nat := 0x14
abbrev ROLE : Nat := 0x18

/-! ## Power and start predicates -/

/-- The rails are on: from power good until the supply, a reset or a Berth entry takes them away. -/
def State.powered (s : State) : Bool := s.boll.phase == .on
def State.stage (s : State) : Nat := s.rd R.SYS_START_STATUS_STAGE
def State.underway (s : State) : Bool := s.powered && s.stage == 9 && !s.on R.SYS_START_STATUS_MOORING
def State.mooring (s : State) : Bool := s.on R.SYS_START_STATUS_MOORING
/-- Ports are live: from PARTNERS on (R86). -/
def State.portsUp (s : State) : Bool := s.powered && (s.stage == 8 || s.stage == 9)
/-- The present bits of the two 32-bit registers of R133 and R114. -/
def State.motion (s : State) : Bool := bit (s.rd R.PWR_GLIDE_STATUS) 0
def State.evac (s : State) : Bool := s.on R.PLT_EVAC_STATUS_EVACUATION
def State.keySwitch (s : State) : Bool := s.on R.SAF_STATUS_KEY_SWITCH
/-- The domain runs (R133, R134): as the live mask says. -/
def State.live (s : State) (d : Nat) : Bool := bit (s.rd R.PWR_DOMAIN_LIVE) d
def State.lifecycle (s : State) : Nat := s.rd R.SEC_LIFECYCLE_STATE
/-- From Sealed on (R7). -/
def State.sealed (s : State) : Bool := decide (2 ≤ s.lifecycle)

/-! ## Configuration (R50 to R52) -/

/-- The record of a section, kind and identity in force. -/
def State.cfg (s : State) (sec kind id : Nat) : Option CfgRec :=
  s.man.cfg.find? fun r => r.sec == sec && r.kind == kind && r.id == id
/-- All records of a section and kind, by identity. -/
def State.cfgAll (s : State) (sec kind : Nat) : List CfgRec := s.man.cfg.filter fun r => r.sec == sec && r.kind == kind
def CfgRec.u8 (r : CfgRec) (o : Nat) : Nat := Machine.u8 r.body o
def CfgRec.u16 (r : CfgRec) (o : Nat) : Nat := Machine.u16 r.body o
def CfgRec.u32 (r : CfgRec) (o : Nat) : Nat := Machine.u32 r.body o
def CfgRec.u64 (r : CfgRec) (o : Nat) : Nat := Machine.u64 r.body o
/-- A field of a record that counts as its default where it is 0 or the record is absent. -/
def cfgD (r : Option CfgRec) (get : CfgRec → Nat) (d : Nat) : Nat :=
  match r with
  | some r => if get r = 0 then d else get r
  | none => d

/-! ## Berth entry and the wake sources (R119, R120) -/

def State.modPwr (s : State) (f : Pwr → Pwr) : State := { s with pwr := f s.pwr }
/-- `BERTH_RESULT`, with its event when it changes. -/
def State.berthResult (s : State) (r : Nat) : State :=
  if s.rd R.PWR_STATE_BERTH_RESULT = r then s else (s.wr R.PWR_STATE_BERTH_RESULT r).flag R.PWR_EVENT_STATUS_BERTH_RESULT
/-- A Berth entry stops before its point of no return: the Turid stays in its powered state. -/
def State.berthStop (s : State) (r : Nat) : State :=
  ((s.modPwr fun p => { p with berthRun := false }).wr R.PWR_STATE_STATE (if s.on R.LOOP_STATUS_GLIDE_SCHEDULE then 2 else 1)).berthResult r
def State.mainGood (s : State) : Bool := s.on R.PWR_SUPPLY_STATUS_A_GOOD || s.on R.PWR_SUPPLY_STATUS_B_GOOD
/-- A wake source detected: its latch is set while it is enabled, and a running Berth entry ends (R119, R120). -/
def State.wakeSource (s : State) (n : Nat) : State :=
  let on := n == 0 || n == 2 || bit (s.rd R.PWR_WAKE_ENABLE) n
  if n < 7 ∧ on = true ∧ (3 ≤ n → s.mainGood = true) then
    let s := s.wrB (R.PWR_WAKE_LATCH.bit n) true
    if s.pwr.berthRun then s.berthStop 7 else s
  else s

end Sys2Proof.Machine
end

