-- ==== Sys2Proof/Machine/Operands.lean ====
section
/-!
DEFINITION. The number formats of the spec: binary32 words as exact rationals and back, binary16, and the cyclic
redundancy checks of R75 and R207.
-/
namespace Sys2Proof.Machine
open Sys2Proof

/-! ## binary32 -/

/-- 2 to an integer power, as a rational. -/
def pow2 (e : Int) : Rat := if 0 ≤ e then ((2 ^ e.toNat : Nat) : Rat) else 1 / ((2 ^ (-e).toNat : Nat) : Rat)
def f32Sign (w : Word) : Bool := w.getLsbD 31
def f32Exp (w : Word) : Nat := w.toNat / 2 ^ 23 % 256
def f32Frac (w : Word) : Nat := w.toNat % 2 ^ 23
/-- Neither infinite nor not-a-number. -/
def f32Finite (w : Word) : Bool := f32Exp w != 255
def f32IsNan (w : Word) : Bool := f32Exp w == 255 && f32Frac w != 0
def f32IsInf (w : Word) : Bool := f32Exp w == 255 && f32Frac w == 0
/-- The value of a finite binary32 word. -/
def f32Val (w : Word) : Rat :=
  let m : Rat := if f32Exp w = 0 then (f32Frac w : Rat) * pow2 (-149)
                 else ((f32Frac w + 2 ^ 23 : Nat) : Rat) * pow2 ((f32Exp w : Int) - 150)
  if f32Sign w then -m else m
def f32? (w : Word) : Option Rat := if f32Finite w then some (f32Val w) else none
/-- Division of naturals rounded to nearest, ties to even. -/
def rneDiv (a b : Nat) : Nat :=
  let q := a / b
  let r := a % b
  if 2 * r < b then q else if b < 2 * r then q + 1 else q + q % 2
/-- The exponent of a positive fraction a ÷ b: the e with 2 to the e ≤ a ÷ b < 2 to the e + 1. -/
def fracExp (a b : Nat) : Int :=
  let e : Int := (a.log2 : Int) - b.log2
  -- 2^e ≤ a / b or the exponent lies one lower
  if 0 ≤ e then (if b * 2 ^ e.toNat ≤ a then e else e - 1) else (if b ≤ a * 2 ^ (-e).toNat then e else e - 1)
/-- The significand of `p` bits and the exponent of a positive fraction rounded to nearest, ties to even. -/
def roundFrac (p : Nat) (a b : Nat) : Nat × Int :=
  let e := fracExp a b
  let sh : Int := (p : Int) - 1 - e
  let m := if 0 ≤ sh then rneDiv (a * 2 ^ sh.toNat) b else rneDiv a (b * 2 ^ (-sh).toNat)
  if m = 2 ^ p then (2 ^ (p - 1), e + 1) else (m, e)
/-- A signed zero. -/
def f32Zero (neg : Bool) : Word := if neg then 0x80000000#32 else 0#32
def f32Inf (neg : Bool) : Word := if neg then 0xFF800000#32 else 0x7F800000#32
/-- The quiet not-a-number. -/
def f32Nan : Word := 0x7FC00000#32
/-- An exact result rounded to 24 significant bits with an unbounded exponent, ties to even, then flushed to a signed
zero below 2 to the −126 and made infinite beyond the format (R374); `negZero` is the sign of an exact zero. -/
def f32Round (negZero : Bool) (x : Rat) : Word :=
  if x.num = 0 then f32Zero negZero
  else
    let neg := decide (x.num < 0)
    let (m, e) := roundFrac 24 x.num.natAbs x.den
    if e < -126 then f32Zero neg
    else if 127 < e then f32Inf neg
    else BitVec.ofNat 32 ((if neg then 2 ^ 31 else 0) + (e + 127).toNat * 2 ^ 23 + (m - 2 ^ 23))
/-- A real figure in a binary32 register or frame: exactly where the format holds it, else rendered freely (log 3). -/
def toB32 (x : Rat) : Word :=
  let w := f32Round false x
  if f32? w = some x then w else Config.renderB32 x
def State.wrR (s : State) (f : Fld) (x : Rat) : State := s.wr f (toB32 x).toNat
/-- A binary32 register as a number; a word that is no finite number counts as the given default. -/
def State.rdR (s : State) (f : Fld) (d : Rat) : Rat := (f32? (BitVec.ofNat 32 (s.rd f))).getD d
/-- A binary32 field of a record as a number, with the default that a 0 or an absent record takes. -/
def CfgRec.f32 (r : CfgRec) (o : Nat) : Rat := (f32? (BitVec.ofNat 32 (r.u32 o))).getD 0
def cfgR (r : Option CfgRec) (o : Nat) (d : Rat) : Rat :=
  match r with
  | some r => if r.u32 o = 0 then d else r.f32 o
  | none => d

/-! ## Ports of partners (R25, R413, R478, R490, R563) -/

/-- Fixtures hang on CAN buses 0 to 7, 9 and 10 (port class 0) and on RS-485 lines 0 to 3 (class 1); a car bus carries 32, a
landing bus or a line 128. -/
def fixtureBus (port bus : Nat) : Bool :=
  if port = 0 then decide (bus < 8) || bus == 9 || bus == 10 else port == 1 && decide (bus < 4)
def fixtureNode (port bus node : Nat) : Bool := decide (node < (if port = 0 ∧ bus < 8 then 32 else 128))
/-- Remote safety I/O units hang on CAN buses 0 to 7 and 11 (transport 0), on J2, J3 or both (1) and on the crossings (2). -/
def unitBus (transport port : Nat) : Bool := match transport with
  | 0 => decide (port < 8) || port == 11
  | 1 => decide (port < 3)
  | 2 => decide (port < 16)
  | _ => false

/-- The signed distance of an instant to the nearest boundary of the 10 µs grid of plant time, in thirds of a nanosecond. -/
def gridOff (p : Int) : Int := let r := p % 30000; if 15000 < r then 30000 - r else -r

/-! ## binary16 -/

/-- A real figure as binary16: exactly where the format holds it as a normal number or zero, else rendered freely. -/
def toB16 (x : Rat) : BitVec 16 :=
  if x.num = 0 then 0#16
  else
    let neg := decide (x.num < 0)
    let (m, e) := roundFrac 11 x.num.natAbs x.den
    let v : Rat := (m : Rat) * pow2 (e - 10)
    if -14 ≤ e ∧ e ≤ 15 ∧ (if neg then -v else v) = x then
      BitVec.ofNat 16 ((if neg then 2 ^ 15 else 0) + (e + 15).toNat * 2 ^ 10 + (m - 2 ^ 10))
    else Config.renderB16 x
/-- The value of a finite binary16 word. -/
def f16Val (w : BitVec 16) : Rat :=
  let ex : Nat := w.toNat / 2 ^ 10 % 32
  let fr : Nat := w.toNat % 2 ^ 10
  let m : Rat := if ex = 0 then (fr : Rat) * pow2 (-24) else ((fr + 2 ^ 10 : Nat) : Rat) * pow2 ((ex : Int) - 25)
  if w.getLsbD 15 then -m else m

/-! ## Rounding of reals -/

/-- A quotient; with a divisor of 0 a free value (log 22). -/
def ratDiv (x y : Rat) : Rat := if y = 0 then Config.overZero x else x / y
def ratFloor (x : Rat) : Int := x.num / (x.den : Int)
/-- To nearest, ties to even. -/
def ratRne (x : Rat) : Int :=
  let f := ratFloor x
  let d := x - (f : Rat)
  if d < 1 / 2 then f else if 1 / 2 < d then f + 1 else if f % 2 = 0 then f else f + 1
def ratAbs (x : Rat) : Rat := if x < 0 then -x else x
def ratMin (a b : Rat) : Rat := if a ≤ b then a else b
def ratMax (a b : Rat) : Rat := if a ≤ b then b else a
/-- A value held between two bounds. -/
def ratClamp (lo hi x : Rat) : Rat := ratMax lo (ratMin hi x)
def ratSum (l : List Rat) : Rat := l.foldl (· + ·) 0
def ratLeast : List Rat → Rat
  | [] => 0
  | x :: t => t.foldl ratMin x
def ratMost : List Rat → Rat
  | [] => 0
  | x :: t => t.foldl ratMax x

/-! ## Cyclic redundancy checks -/

/-- One byte into a reflected CRC register under a reflected polynomial. -/
def crcByte {n : Nat} (poly reg : BitVec n) (b : Byte) : BitVec n :=
  (List.range 8).foldl (fun r _ => if r.getLsbD 0 then (r >>> 1) ^^^ poly else r >>> 1) (reg ^^^ b.setWidth n)
/-- A reflected CRC with all-ones initial value and final XOR. -/
def crcOf {n : Nat} (poly : BitVec n) (l : List Byte) : BitVec n :=
  (l.foldl (crcByte poly) (BitVec.allOnes n)) ^^^ BitVec.allOnes n
/-- The safety check value's CRC-32 (R75): polynomial 0xF4AC_FB13, reflected. -/
def crcSafety (l : List Byte) : Word := crcOf 0xC8DF352F#32 l
/-- CRC-32C (R207): polynomial 0x1EDC_6F41, reflected. -/
def crc32c (l : List Byte) : Word := crcOf 0x82F63B78#32 l

end Sys2Proof.Machine
end

