-- ==== Sys2Proof/Machine/XngOps.lean ====
section
/-!
DEFINITION. The crossings as the other units use them: frames, the shared transaction table, ring paths and rates,
sleep and wake, and the changes of a node's state.
-/
namespace Sys2Proof.Machine
open Sys2Proof

/-! ## Rings and nodes -/

def Ring.empty : Ring := ⟨[], [], [], none, [], 0, 0, none, [], none, [], [], none, none, [], [], [], none, [], 0⟩
def Node.unknown : Node :=
  ⟨0, 0, 0, 0, 0, [], 0, none, false, 0, 0, none, 0, none, 0, 0, 0, none, 0, 0, [], [], false⟩
def State.ring (s : State) (n : Nat) : Ring := tgetD s.xng.rings n Ring.empty
def State.setRing (s : State) (n : Nat) (r : Ring) : State :=
  { s with xng := { s.xng with rings := tput s.xng.rings n r } }
def State.modRing (s : State) (n : Nat) (f : Ring → Ring) : State := s.setRing n (f (s.ring n))
/-- The declared berths of a crossing, rising, each with its node type and record (R22, R252). -/
def State.declared (s : State) (n : Nat) : Tbl (Nat × CfgRec) :=
  let t := ((s.cfgAll 5 2).filter (·.id / 16 == n)).foldl (fun m r => tput m (r.u16 0x10) (1, r)) []
  ((s.cfgAll 5 3).filter (·.id / 256 == n)).foldl (fun m r => tput m (r.u16 0x10) (0, r)) t
/-- A declared node's type and record. -/
def State.declaredAt (s : State) (n b : Nat) : Option (Nat × CfgRec) := tget (s.declared n) b
/-- The node at a berth; a declared berth that nothing has answered from is ABSENT (R229). -/
def State.node (s : State) (n b : Nat) : Node :=
  match tget (s.ring n).nodes b with
  | some x => x
  | none => match s.declaredAt n b with
    | some d => { Node.unknown with state := 1, ntype := d.1 }
    | none => Node.unknown
def State.setNode (s : State) (n b : Nat) (x : Node) : State :=
  s.modRing n fun r => { r with nodes := tput r.nodes b x }
def State.modNode (s : State) (n b : Nat) (f : Node → Node) : State := s.setNode n b (f (s.node n b))
/-- The crossing carries a bank (R53). -/
def State.xngUsed (s : State) (n : Nat) : Bool :=
  match s.cfg 1 1 0 with
  | some r => bit (r.u16 0x10) n
  | none => false
def State.sleepState (s : State) (n : Nat) : Nat := s.rd (R.XNG_SLEEP_STATUS_STATE n)
/-- The crossing is awake: neither asleep, committed to sleep nor waking (R237, R241). -/
def State.awake (s : State) (n : Nat) : Bool := decide (s.sleepState n < 2)
/-- The berth's string index, where it is a declared string node (R52). -/
def State.stringAt (s : State) (n b : Nat) : Option Nat :=
  match s.declaredAt n b with
  | some (0, r) => some r.id
  | _ => none
/-- The berth's container index, where it is a declared container node. -/
def State.containerAt (s : State) (n b : Nat) : Option Nat :=
  match s.declaredAt n b with
  | some (1, r) => some r.id
  | _ => none
/-- The berth of a string, and of a container. -/
def State.stringBerth (s : State) (i : Nat) : Nat := (s.cfg 5 3 i).elim 0x1FF (·.u16 0x10)
def State.containerBerth (s : State) (c : Nat) : Nat := (s.cfg 5 2 c).elim 0x1FF (·.u16 0x10)
def State.plantIdent (s : State) : Nat := s.nv.plantId.getD 0
/-- Glide rates apply (R228, R116). -/
def State.glideRates (s : State) : Bool := s.on R.LOOP_STATUS_GLIDE_SCHEDULE
/-- The nominal rate of a node in 0.1 Hz: the STRING record's in Stride, 1 Hz in Glide, 0.1 Hz at an undeclared berth. -/
def State.nominal (s : State) (n b : Nat) : Nat :=
  match s.declaredAt n b with
  | some (0, r) => if s.glideRates then 10 else if r.u16 0x14 = 0 then 100 else r.u16 0x14
  | some _ => 0
  | none => 1
/-- Events of R243: the crossing is the instance, bytes 0 and 1 carry the berth. -/
def State.xngEvent (s : State) (e : EvDef) (n b : Nat) (data : List Byte) : State := s.raise e n (le 2 b ++ data)
def State.note (s : State) (n b what : Nat) : State :=
  { s with xng := { s.xng with notes := s.xng.notes ++ [(n, b, what)] } }

/-! ## Frames (R206 to R210) -/

/-- A frame from the Turid: header, payload and CRC. -/
def hawser (plant dst tag typ flags seq : Nat) (payload : List Byte) : List Byte :=
  let b := le 2 dst ++ le 2 0x1FE ++ le 4 tag ++ le 1 typ ++ le 1 flags ++ le 2 payload.length ++ le 2 seq ++ le 2 0 ++
    le 8 plant ++ payload
  b ++ le 4 (crc32c b).toNat
/-- A broadcast: one sequence number, sent from both ends (R201, R208). -/
def State.broadcast (s : State) (n typ : Nat) (payload : List Byte) : State :=
  let q := ((s.ring n).bseq + 1) % 2 ^ 16
  let f := hawser s.plantIdent 0x1FF 0 typ 2 q payload
  ((s.modRing n fun r => { r with bseq := q }).send (.frame (.xng n false) typ 0x1FF f)).send (.frame (.xng n true) typ 0x1FF f)
/-- HOLD on a crossing (R35), which a sleeping crossing is not sent (R241). -/
def State.holdRing (s : State) (n reason : Nat) : State :=
  if 3 ≤ s.sleepState n then s else s.broadcast n 0x0A (le 1 reason ++ List.replicate 7 0)
/-- HOLD on all 16 crossings. -/
def State.holdRings (s : State) (reason : Nat) : State := (List.range 16).foldl (fun s n => s.holdRing n reason) s
/-- A unicast frame to a node, under its berth's next sequence number, through the end that serves it. -/
def State.unicast (s : State) (n b tag typ flags : Nat) (payload : List Byte) : State :=
  let x := s.node n b
  let q := (x.txSeq + 1) % 2 ^ 16
  (s.setNode n b { x with txSeq := q }).send (.frame (.xng n x.byB) typ b (hawser s.plantIdent b tag typ flags q payload))
/-- A frame as it came: destination, source, tag, type, flags, sequence and payload. -/
structure Rx where
  dst : Nat
  src : Nat
  tag : Nat
  typ : Nat
  flags : Nat
  seq : Nat
  payload : List Byte
  deriving DecidableEq, Repr
/-- A received frame's parts, where its length, at most 1,536 bytes of payload, and its CRC are right (R206, R207). -/
def parseFrame (f : List Byte) : Option Rx :=
  let n := f.length - 4
  if 28 ≤ f.length ∧ f.length ≤ 1564 ∧ u16 f 0x0A + 28 = f.length ∧ u32 f n = (crc32c (f.take n)).toNat then
    some ⟨u16 f 0 % 512, u16 f 2 % 512, u32 f 4 % 2 ^ 17, u8 f 8, u8 f 9, u16 f 0x0C, (f.drop 24).take (u16 f 0x0A)⟩
  else none
/-- The sequence is new after the last accepted one: their signed 16-bit difference lies from 1 to 32,767 (R208). -/
def newSeq (last : Option Nat) (q : Nat) : Bool :=
  match last with
  | none => true
  | some l => let d := (q + 2 ^ 16 - l) % 2 ^ 16; decide (1 ≤ d) && decide (d ≤ 32767)
/-- The frame carries a reserved berth (R205): 0x1FD stands only as the source of a JOIN response, 0x1FF only as a destination. -/
def Rx.reserved (f : Rx) : Bool :=
  (decide (272 ≤ f.dst) && decide (f.dst < 0x1FE)) ||
  (decide (272 ≤ f.src) && f.src != 0x1FE && !(f.src == 0x1FD && f.typ == 0x0E && bit f.flags 0))
/-- A frame received from a node: CRC errors, frames of reserved berths and repeats are counted and dropped; one of the Turid's own
that has come round, or one addressed to a node, is consumed (R201); an accepted frame sets the last accepted sequence. JOIN is
accepted whatever its sequence. -/
def State.receive (s : State) (n : Nat) (frame : List Byte) (typs : List Nat) : State × Option Rx :=
  match parseFrame frame with
  | none => (s.inc (R.XNG_CRC_ERRORS n), none)
  | some f =>
    if f.reserved then (s.inc (R.XNG_FRAMES_DROPPED n), none)
    else if f.src = 0x1FE ∨ f.dst < 272 ∨ f.typ ∉ typs then (s, none)
    else if f.typ ≠ 0x0E ∧ newSeq (s.node n f.src).rxSeq f.seq = false then (s.inc (R.XNG_FRAMES_DROPPED n), none)
    else (s.modNode n f.src fun x => { x with rxSeq := some f.seq }, some f)

/-! ## The transaction table (R220 to R224) -/

/-- Entries in flight for a node, and for a crossing. -/
def State.nodeTxns (s : State) (n b : Nat) : Nat := (s.xng.txns.filter fun p => p.2.xng == n && p.2.berth == b).length
def State.ringTxns (s : State) (n : Nat) : Nat := (s.xng.txns.filter fun p => p.2.xng == n).length
/-- Entries reserved for the populated string nodes, four each. -/
def State.reserved (s : State) : Nat := 4 * (s.cfgAll 5 3).length
/-- Entries in use that no reserve covers. -/
def State.sharedUsed (s : State) : Nat :=
  let strings := (s.cfgAll 5 3).map fun r => min 4 (s.nodeTxns (r.id / 256) (r.u16 0x10))
  s.xng.txns.length - strings.foldl (· + ·) 0
def State.sharedFree (s : State) : Nat := 131072 - s.reserved - s.sharedUsed
/-- A further entry may be taken for the node. A node at an undeclared berth has no reserve: it takes its entries, up to 32, from
the shared pool above the floor (DESIGN CHOICE, log 103). -/
def State.mayAlloc (s : State) (n b : Nat) : Bool :=
  let k := s.nodeTxns n b
  let floor := 8 * (s.cfgAll 5 2).length
  match s.declaredAt n b with
  | some (0, _) => decide (k < 4) || (decide (k < 32) && decide (floor < s.sharedFree))
  | some _ => decide (k < 8) && decide (0 < s.sharedFree)
  | none => decide (k < 32) && decide (floor < s.sharedFree)
/-- The lowest tag that no entry uses. -/
def freeTag : Tbl Txn → Nat → Nat
  | [], n => n
  | (k, _) :: t, n => if k = n then freeTag t (n + 1) else n
/-- The completion of a request: its requester is told the status and the payload (R222). -/
def State.finish (s : State) (x : Txn) (status : Nat) (payload : List Byte) : State :=
  let s := if status = 0x0504 then s.inc (R.XNG_TXN_NORES x.xng) else s
  let s := if status = 0x0502 then
      (s.inc (R.XNG_TXN_TIMEOUT x.xng)).modNode x.xng x.berth fun y => { y with timeouts := min 255 (y.timeouts + 1) }
    else s
  { s with xng := { s.xng with done := s.xng.done ++ [(x, status, payload)] } }
/-- An entry leaves the table; the fences that waited for it do so no longer (R188). -/
def State.freeTxn (s : State) (tag : Nat) : State :=
  { s with xng := { s.xng with txns := tdel s.xng.txns tag },
           hq := { s.hq with fences := s.hq.fences.map fun f => { f with txns := f.txns.erase tag } } }
/-- An entry leaves the table, completing with a status. -/
def State.finishTag (s : State) (tag status : Nat) (payload : List Byte) : State :=
  match tget s.xng.txns tag with
  | none => s
  | some x => (s.freeTxn tag).finish x status payload
/-- Every entry of a node completes with a status. -/
def State.finishNode (s : State) (n b status : Nat) : State :=
  (s.xng.txns.filter fun p => p.2.xng == n && p.2.berth == b).foldl (fun s p => s.finishTag p.1 status []) s

/-! ## Paths, split and rates (R200 to R204, R227, R228) -/

/-- The hop lies on the end-A side of the berth. -/
def hopBefore (k b : Nat) : Bool := k == 0x1FE || decide (k < b)
def Ring.reachA (r : Ring) (b : Nat) : Bool := r.breaks.all fun k => !hopBefore k b
def Ring.reachB (r : Ring) (b : Nat) : Bool := r.breaks.all fun k => hopBefore k b
/-- Nodes that are swept (R229, R235): JOINED or QUARANTINED string nodes, and quarantined string nodes at undeclared berths. -/
def State.swept (s : State) (n b : Nat) : Bool :=
  let x := s.node n b
  (x.state == 3 || x.state == 4) && decide (b < 272) && (match s.declaredAt n b with
    | some d => d.1 == 0
    | none => x.ntype == 0)
/-- The strings whose reports load the ring (R227): those that are swept, by berth, with their nominal rate. -/
def State.loads (s : State) (n : Nat) : List (Nat × Nat) :=
  (((s.ring n).nodes.map (·.1)).filter (s.swept n)).map fun b => (b, s.nominal n b)
/-- A rate under a rate factor: a whole 0.1 Hz step, at least 0.1 Hz. -/
def slowed (f k : Nat) : Nat := max 1 (f / k)
/-- The load on a hop in units of which 200 Mbit/s and generation 2 make the same: rate sum, doubled at generation 1. A hop that is
not trained counts as one at generation 1 (DESIGN CHOICE, log 103). -/
def Ring.hopLoad (r : Ring) (h : Nat) (across : List Nat) : Nat :=
  across.foldl (· + ·) 0 * (if tgetD r.hops h 1 = 2 then 1 else 2)
def hopKeys (berths : List Nat) : List Nat := 0x1FE :: berths
/-- The most loaded hop of path A with the served strings' rates slowed by k, and of path B. -/
def Ring.loadA (r : Ring) (keys : List Nat) (l : List (Nat × Nat)) (k : Nat) : Nat :=
  (keys.map fun h => r.hopLoad h ((l.filter fun p => hopBefore h p.1).map fun p => slowed p.2 k)).foldl max 0
def Ring.loadB (r : Ring) (keys : List Nat) (l : List (Nat × Nat)) (k : Nat) : Nat :=
  (keys.map fun h => r.hopLoad h ((l.filter fun p => !hopBefore h p.1).map fun p => slowed p.2 k)).foldl max 0
/-- Sample load above the budget: 14,848 bit a sweep against 100 or 200 Mbit/s. -/
def overBudget (load : Nat) : Bool := decide (2000000000 < load * 14848)
/-- Utilisation in 0.1 %, to the nearest. -/
def permille (load : Nat) : Nat := (load * 14848 + 1000000) / 2000000
/-- kbit/s of a rate sum, to the nearest. -/
def kbits (rates : Nat) : Nat := (rates * 14848 + 5000) / 10000
/-- The smallest rate factor at which no hop is over its budget, tried from k upwards. -/
def factorFrom (load : Nat → Nat) : Nat → Nat → Nat
  | 0, k => k
  | f + 1, k => if overBudget (load k) then factorFrom load f (k + 1) else k
/-- The berth up to which end A serves on an intact ring: the lowest that makes the larger utilisation smallest. -/
def Ring.bestSplit (r : Ring) (keys : List Nat) (l : List (Nat × Nat)) (berths : List Nat) : Nat :=
  let cost := fun b => max (r.loadA keys (l.filter fun p => decide (p.1 ≤ b)) 1) (r.loadB keys (l.filter fun p => decide (b < p.1)) 1)
  match berths with
  | [] => 0x1FF
  | b :: t => (t.foldl (fun best x => if cost x < cost best then x else best) b)
/-- RING_STATUS.STATE (R245) from what is known of the ring. -/
def State.ringState (s : State) (n : Nat) : Nat :=
  let r := s.ring n
  let upA := (tget r.hops 0x1FE).isSome && !r.breaks.contains 0x1FE
  let upB := (r.lastHop.any fun k => (tget r.hops k).isSome && !r.breaks.contains k)
  if !s.xngUsed n then 7
  else if s.sleepState n = 2 then 6 else if s.sleepState n = 3 then 5
  else if r.breaks ≠ [] then (if !upA && !upB then 0 else if r.breaks.length = 1 then 3 else 4)
  else if upA && upB then 2 else 1
/-- The ring's registers brought up to what is known; a change of STATE is flagged. -/
def State.showRing (s : State) (n : Nat) : State :=
  let r := s.ring n
  let st := s.ringState n
  let old := s.rd (R.XNG_RING_STATUS_STATE n)
  let live := r.hops.filter fun p => !r.breaks.contains p.1
  let sorted := ((r.breaks.filter (· == 0x1FE)) ++ ((r.breaks.filter (· != 0x1FE)).foldl (fun m k => tput m k ()) ([] : Tbl Unit)).map (·.1))
  let s := s.wr (R.XNG_RING_STATUS_STATE n) st
  let s := s.wrB (R.XNG_RING_STATUS_END_A_UP n) (live.any (·.1 == 0x1FE))
  let s := s.wrB (R.XNG_RING_STATUS_END_B_UP n) (live.any fun p => r.lastHop == some p.1)
  let s := s.wrB (R.XNG_RING_STATUS_GEN1_PRESENT n) (live.any (·.2 == 1))
  let s := s.wr (R.XNG_GEN_SUMMARY_HOPS_UP n) live.length
  let s := s.wr (R.XNG_GEN_SUMMARY_GEN1_HOPS n) (live.filter (·.2 == 1)).length
  let s := s.wr (R.XNG_BREAK_BREAK1 n) (sorted.headD 0x1FF)
  let s := s.wr (R.XNG_BREAK_BREAK2 n) (if 2 ≤ sorted.length then sorted.getLastD 0x1FF else 0x1FF)
  if st ≠ old then s.flag (R.XNG_EVENT_STATUS_RING_CHANGE n) else s
/-- Split, factors and effective rates worked out anew for the present paths (R200, R202, R228), with the events of a
changed factor. Each node's new rate applies from its next sweep. -/
def State.replan (s : State) (n : Nat) : State :=
  let s := s.showRing n
  let r := s.ring n
  let berths := (s.declared n).map (·.1)
  let keys := hopKeys berths
  let l := s.loads n
  let split := if r.breaks = [] then r.bestSplit keys l berths
               else ((berths.filter r.reachA).getLast?).getD 0x1FF
  let isA := fun b => if r.breaks = [] then decide (b ≤ split) && split != 0x1FF else r.reachA b
  let la := l.filter fun p => isA p.1
  let lb := l.filter fun p => !isA p.1 && r.reachB p.1
  let ka := factorFrom (r.loadA keys la) 500 1
  let kb := factorFrom (r.loadB keys lb) 500 1
  let (oa, ob) := (s.rd (R.XNG_RATE_FACTOR_FACTOR_A n), s.rd (R.XNG_RATE_FACTOR_FACTOR_B n))
  let (na, nb) := (min 255 ka, min 255 kb)
  let s := s.wr (R.XNG_SPLIT n) split
  let s := s.wr (R.XNG_RATE_FACTOR_FACTOR_A n) na
  let s := s.wr (R.XNG_RATE_FACTOR_FACTOR_B n) nb
  let s := s.wrB (R.XNG_RING_STATUS_DEGRADED_RATE n) (decide (1 < ka) || decide (1 < kb))
  let s := s.wr (R.XNG_LOAD_A n) (kbits ((la.map fun p => slowed p.2 ka).foldl (· + ·) 0))
  let s := s.wr (R.XNG_LOAD_B n) (kbits ((lb.map fun p => slowed p.2 kb).foldl (· + ·) 0))
  let s := s.wr (R.XNG_UTIL_A n) (permille (r.loadA keys la ka))
  let s := s.wr (R.XNG_UTIL_B n) (permille (r.loadB keys lb kb))
  let known := berths ++ ((r.nodes.map (·.1)).filter fun b => !berths.contains b)
  let s := known.foldl (fun s b => s.modNode n b fun x =>
    { x with byB := !isA b && r.reachB b, rate := slowed (s.nominal n b) (if isA b then ka else kb) }) s
  if oa = na ∧ ob = nb then s
  else
    let s := s.flag (R.XNG_EVENT_STATUS_RATE_CHANGE n)
    let d := le 1 na ++ le 1 nb
    let s := if (oa ≠ na ∧ 1 < na) ∨ (ob ≠ nb ∧ 1 < nb) then s.xngEvent Ev.RATE_REDUCED n 0x1FF d else s
    if (oa ≠ na ∧ na = 1) ∨ (ob ≠ nb ∧ nb = 1) then s.xngEvent Ev.RATE_RESTORED n 0x1FF [] else s

/-! ## Sleep and wake (R237 to R241) -/

def State.setSleep (s : State) (n st : Nat) : State :=
  if s.sleepState n = st then s
  else ((s.wr (R.XNG_SLEEP_STATUS_STATE n) st).flag (R.XNG_EVENT_STATUS_SLEEP_CHANGE n)).showRing n
/-- The tone from both ends wakes a sleeping ring: its hops train anew (R241), none held at generation 1 after the loss of signal
(R196). The tone is no frame: it is sent under kind 0x100. -/
def State.startWake (s : State) (n cause : Nat) : State :=
  let s := (s.send (.frame (.xng n false) 0x100 0x1FF [])).send (.frame (.xng n true) 0x100 0x1FF [])
  (s.modRing n fun r => { r with hops := [], slow := [], wake := some cause }).setSleep n 4
/-- A command to the bank wakes its sleeping ring first (R241). -/
def State.wakeFor (s : State) (n : Nat) : State := if s.sleepState n = 3 then s.startWake n 2 else s

/-! ## Requests -/

/-- CONTACTOR CLOSE or BALANCE, which a quarantined node is not sent (R235). -/
def barred (typ : Nat) (payload : List Byte) : Bool := typ == 4 || (typ == 5 && u8 payload 0 == 1)
/-- A tracked request to a node of an awake crossing: refused, or sent under the tag of a fresh entry. -/
def State.requestNow (s : State) (n b typ : Nat) (payload : List Byte) (use : TxnUse) : State :=
  let x := s.node n b
  let r := s.ring n
  let t : Txn := ⟨n, b, typ, payload, x.byB, false, use, [], none⟩
  if x.state = 4 ∧ barred typ payload = true then s.finish t 0x0506 []
  else if x.state = 6 ∧ typ ≠ 0x0F then s.finish t 0x0503 []
  else if r.breaks ≠ [] ∧ r.reachA b = false ∧ r.reachB b = false then s.finish t 0x0505 []
  else if s.mayAlloc n b = false then s.finish t 0x0504 []
  else
    let tag := freeTag s.xng.txns 0
    { s with xng := { s.xng with txns := tput s.xng.txns tag t } }.unicast n b tag typ 0 payload
/-- A tracked request. It waits while the outcome of a proposed sleep is open, and a sleeping crossing is woken for it first (R237,
R241). -/
def State.request (s : State) (n b typ : Nat) (payload : List Byte) (use : TxnUse) : State :=
  if s.sleepState n = 0 then s.requestNow n b typ payload use
  else (s.modRing n fun r => { r with deferred := r.deferred ++ [⟨b, typ, payload, use⟩] }).wakeFor n
/-- The requests that waited go out, the STANDINGs first (R241). -/
def State.replay (s : State) (n : Nat) : State :=
  let d := (s.ring n).deferred
  let s := s.modRing n fun r => { r with deferred := [] }
  ((d.filter fun d => d.typ == 7) ++ d.filter fun d => d.typ != 7).foldl (fun s d => s.request n d.berth d.typ d.payload d.use) s
/-- The departure time that a SAMPLE carries is that of the frame that goes out now (R212). -/
def State.stamped (s : State) (typ : Nat) (payload : List Byte) : List Byte :=
  if typ = 1 then payload.take 8 ++ le 8 (s.rd64 R.PWR_PLANT_TIME_LO) ++ payload.drop 16 else payload
/-- An entry sent again, through the end that serves its node now, under its tag with a new sequence number and RETRY. -/
def State.resend (s : State) (tag : Nat) (t : Txn) : State :=
  let t := { t with viaB := (s.node t.xng t.berth).byB, payload := s.stamped t.typ t.payload }
  { s with xng := { s.xng with txns := tput s.xng.txns tag t } }.unicast t.xng t.berth tag t.typ 4 t.payload

/-! ## Challenges and standing orders -/

/-- Thirty-two random bytes (R232, R669). -/
def drawBytes : Nat → State → List Byte × State
  | 0, s => ([], s)
  | n + 1, s =>
    let (w, s) := s.drawWord
    let (l, s) := drawBytes n s
    (le 4 w.toNat ++ l, s)
/-- A challenge of a node: started, or waiting while 16 run on the crossing (R234). While the random source is not
healthy, none is issued and the authentication counts as failed (R669): the berth is left to the bound of its answer. -/
def State.challenge (s : State) (n b : Nat) : State :=
  let r := s.ring n
  if (tget r.auths b).isSome || r.wait.contains b then s
  else if 16 ≤ r.auths.length then s.modRing n fun r => { r with wait := r.wait ++ [b] }
  else
    let (c, s) := if s.on (R.SEC_RNG_STATUS.bit 0) then drawBytes 8 s else ([], s)
    let s := s.modRing n fun r => { r with auths := tput r.auths b c }
    if c = [] then s else s.requestNow n b 8 c .auth
/-- A challenge has ended: the next one waiting starts. -/
def State.challengeDone (s : State) (n b : Nat) : State :=
  let s := s.modRing n fun r => { r with auths := tdel r.auths b }
  match (s.ring n).wait with
  | [] => s
  | w :: t => (s.modRing n fun r => { r with wait := t }).challenge n w
/-- The outcome of a node's challenge told to a REAUTHENTICATE that waits for it; with the last one it completes with the number
that passed (R242). -/
def State.reauthOne (s : State) (n b : Nat) (passed : Bool) : State :=
  match (s.ring n).reauth with
  | none => s
  | some (q, left, k) =>
    let left' := left.erase b
    let k' := if passed && left.contains b then k + 1 else k
    if left' = [] then (s.modRing n fun r => { r with reauth := none }).complete q OK k'
    else s.modRing n fun r => { r with reauth := some (q, left', k') }
/-- A node that is LOST or LEFT is challenged no longer: its challenge, running or waiting, ends, and the next one starts. -/
def State.challengeGone (s : State) (n b : Nat) : State :=
  let s := s.modRing n fun r => { r with wait := r.wait.erase b }
  (if (tget (s.ring n).auths b).isSome then s.challengeDone n b else s).reauthOne n b false
/-- The content of a node's standing set (R217): the six limits and the charge-allowed byte of a string node, which is 0
for a quarantined node (R235), or the fallback set-point of a container node, from the STANDING record of the type. -/
def State.standingContent (s : State) (n b : Nat) : List Byte :=
  let x := s.node n b
  let typ := (s.declaredAt n b).elim x.ntype (·.1)
  match s.cfg 13 1 typ with
  | none => []
  | some r =>
    let field := fun (o len : Nat) => (r.body.drop o).take len
    let head := le 2 (if r.u16 0x10 = 0 then 200 else r.u16 0x10) ++ le 1 typ ++ le 1 0
    if typ = 0 then head ++ field 0x18 24 ++ le 1 (if x.state = 4 then 0 else r.u8 0x30) ++ List.replicate 7 0
    else head ++ field 0x18 4 ++ List.replicate 4 0
/-- STANDING to a node: its generation grows whenever the content changes (R217). -/
def State.sendStanding (s : State) (n b : Nat) : State :=
  let c := s.standingContent n b
  if c = [] ∨ 272 ≤ b then s
  else
    let x := s.node n b
    let g := if x.standing = c then x.standGen else (x.standGen + 1) % 2 ^ 32
    let s := s.setNode n b { x with standGen := g, standing := c }
    s.request n b 7 (le 4 g ++ le 8 s.plantIdent ++ c) .plain

/-! ## Changes of a node's state (R229) -/

/-- A node is quarantined, until it has been enrolled and has then passed its authentication. Split, loads and rates follow the nodes
that are swept (R200, R227, R228). -/
def State.quarantine (s : State) (n b reason : Nat) : State :=
  let s := s.modNode n b fun x => { x with state := 4, reason := reason, enrolled := false }
  let s := (s.inc (R.XNG_AUTH_FAILS n)).flag (R.XNG_EVENT_STATUS_QUARANTINE n)
  let s := s.xngEvent Ev.NODE_QUARANTINED n b (le 1 reason ++ le 8 (s.node n b).serial)
  ((s.replan n).sendStanding n b).note n b 5
def State.joined (s : State) (n b : Nat) : State :=
  let old := (s.node n b).state
  let s := s.modNode n b fun x => { x with state := 3, reason := 0, missedRow := 0, enrolled := false }
  if old = 3 then s
  else
    let s := s.modNode n b fun x => { x with sweep := 0, applied := none, lastTick := s.tick, promoted := none }
    (((s.xngEvent Ev.NODE_JOINED n b (le 8 (s.node n b).serial)).replan n).sendStanding n b).note n b 4
/-- A node becomes LOST: cause 0 missed sweeps, 1 no path (R203, R229, R243). -/
def State.loseNode (s : State) (n b cause : Nat) : State :=
  let x := s.node n b
  if x.state = 2 ∨ x.state = 3 ∨ x.state = 4 then
    let s := (s.setNode n b { x with state := 5 }).challengeGone n b
    let s := (s.xngEvent Ev.NODE_LOST n b (le 1 cause)).flag (R.XNG_EVENT_STATUS_NODE_LOST n)
    ((if cause = 1 then s.finishNode n b 0x0505 else s).replan n).note n b cause
  else s
/-- A node becomes LEFT (R236): its transactions complete NODE_LEFT. -/
def State.leaveNode (s : State) (n b reason what : Nat) : State :=
  let s := (s.modNode n b fun x => { x with state := 6 }).challengeGone n b
  (((s.finishNode n b 0x0503).xngEvent Ev.NODE_LEFT n b (le 1 reason)).replan n).note n b what
/-- LEAVE to a node that a patch removes, reason 2 (R210, R236): its transactions complete NODE_LEFT, and it is LEFT. -/
def State.sendLeave (s : State) (n b : Nat) : State :=
  let st := (s.node n b).state
  let s := s.finishNode n b 0x0503
  if st = 0 ∨ st = 1 ∨ st = 6 then s
  else
    let s := (s.modNode n b fun x => { x with state := 6 }).challengeGone n b
    (((s.request n b 0x0F (le 1 2 ++ List.replicate 7 0) .plain).xngEvent Ev.NODE_LEFT n b (le 1 2)).replan n)
/-- The entry's request or response would cross a hop that is broken (R202). -/
def Ring.crosses (r : Ring) (t : Txn) : Bool := if t.viaB then !r.reachB t.berth else !r.reachA t.berth
/-- Paths after a break (R202, R203): entries whose path crosses it are sent again through the other end, nodes that no
end reaches are LOST. -/
def State.cutOff (s : State) (n : Nat) : List Nat :=
  let r := s.ring n
  (r.nodes.map (·.1)).filter fun b => !r.reachA b && !r.reachB b
def State.reroute (s : State) (n : Nat) : State :=
  let s := s.replan n
  let r := s.ring n
  let s := (s.cutOff n).foldl (fun s b => (s.loseNode n b 1).finishNode n b 0x0505) s
  (s.xng.txns.filter fun p => p.2.xng == n && r.crosses p.2).foldl (fun s p => s.resend p.1 p.2) s
/-- A located break (R202): counted, shown, posted, and served around. -/
def State.breakAt (s : State) (n k : Nat) : State :=
  if (s.ring n).breaks.contains k then s
  else
    let s := ((s.modRing n fun r => { r with breaks := k :: r.breaks }).inc (R.XNG_BREAKS n)).showRing n
    (s.xngEvent Ev.RING_BREAK n 0x1FF (le 2 (s.rd (R.XNG_BREAK_BREAK1 n)) ++ le 2 (s.rd (R.XNG_BREAK_BREAK2 n)))).reroute n
/-- JOIN discovery (R230): mode 0 asks nodes that are not JOINED, mode 1 is a census. -/
def State.discover (s : State) (n mode : Nat) : State := s.broadcast n 0x0E (le 2 0 ++ le 1 mode ++ List.replicate 5 0)
/-! ## Commands that wait for the ring, sleep and wake (R237 to R242) -/

/-- The berths of the JOINED or QUARANTINED nodes, which vote on a sleep and are challenged by REAUTHENTICATE. -/
def State.sleepVoters (s : State) (n : Nat) : List Nat :=
  ((s.ring n).nodes.filter fun p => p.2.state == 3 || p.2.state == 4).map (·.1)
/-- REDISCOVER: a census, whose answers are counted until each node has had its 10 ms and `wait` ticks more (R231, R242; log 103). -/
def State.startCensus (s : State) (n q wait : Nat) : State :=
  let s := match (s.ring n).census with
    | some (old, _, l) => s.complete old OK l.length
    | none => s
  (s.modRing n fun r => { r with census := some (q, s.tick + 1000 + wait, []) }).discover n 1
/-- The census of a REDISCOVER ends. -/
def State.censusEnd (s : State) (n : Nat) : State :=
  match (s.ring n).census with
  | some (q, t, l) => if t ≤ s.tick then (s.modRing n fun r => { r with census := none }).complete q OK l.length else s
  | none => s
/-- REAUTHENTICATE: one node, or every JOINED or QUARANTINED node of the crossing, is challenged. -/
def State.startReauth (s : State) (n q b : Nat) : State :=
  let who := if b = 0x1FF then s.sleepVoters n else if (s.sleepVoters n).contains b then [b] else []
  if (s.ring n).reauth.isSome then s.complete q STATE 0
  else if who = [] then s.complete q OK 0
  else who.foldl (fun s b => s.challenge n b) (s.modRing n fun r => { r with reauth := some (q, who, 0) })
/-- The crossing is awake for commands: requests and commands that waited go out. -/
def State.resume (s : State) (n : Nat) : State :=
  let l := (s.ring n).later
  let s := (s.modRing n fun r => { r with later := [] }).replay n
  l.foldl (fun s x => if x.2.1 = 0 then s.startCensus n x.1 x.2.2 else s.startReauth n x.1 x.2.2) s
/-- A proposed sleep ends with SLEEP_ABORT (R237, R238); the command that proposed it completes with the reason. -/
def State.sleepAbort (s : State) (n reason : Nat) : State :=
  let r := s.ring n
  let s := s.broadcast n 0x0D (le 4 r.sleepId ++ le 1 reason ++ List.replicate 3 0)
  let s := (s.wr (R.XNG_SLEEP_STATUS_LAST_ABORT n) reason).setSleep n 0
  let s := s.modRing n fun r => { r with sleepQ := none, agreed := [] }
  let s := match r.sleepQ with
    | some q => s.complete q STATE reason
    | none => s
  s.resume n
/-- The ring has come back from sleep once its hops are up and every node has been challenged (R241): every node gets STANDING, what
waited goes out, and the commands complete. -/
def State.wakeCheck (s : State) (n : Nat) : State :=
  let r := s.ring n
  match r.wake with
  | none => s
  | some cause =>
    if s.sleepState n = 4 && r.auths = [] && r.wait = [] && !(r.nodes.any fun p => p.2.state == 7) then
      let s := s.modRing n fun r => { r with wake := none, wakeQ := [], deferred := r.deferred.filter fun d => d.typ != 7 }
      let s := (s.wrB (R.XNG_SLEEP_STATUS_WAKE_LATCHED n) false).setSleep n 0
      let s := s.xngEvent Ev.RING_WOKE n 0x1FF (le 1 cause)
      let s := r.wakeQ.foldl (fun s q => s.complete q OK 0) s
      ((s.sleepVoters n).foldl (fun s b => s.sendStanding n b) s).resume n
    else s
/-- All hops that no break holds down are trained: a waking ring's nodes are challenged, those that were quarantined as such, and
those that no end reaches are LOST. -/
def State.wakeTrained (s : State) (n : Nat) : State :=
  let st := s.ringState n
  if s.sleepState n = 4 ∧ (st = 2 ∨ st = 3 ∨ st = 4) then
    let asleep := ((s.ring n).nodes.filter fun p => p.2.state == 7).map (·.1)
    let s := asleep.foldl (fun s b => s.modNode n b fun x => { x with state := if x.reason = 0 then 2 else 4 }) s
    let s := (s.cutOff n).foldl (fun s b => s.loseNode n b 1) s
    ((asleep.filter fun b => (s.node n b).state != 5).foldl (fun s b => s.challenge n b) s).wakeCheck n
  else s
/-- 1 ms after SLEEP_COMMIT the ring sleeps (R237), its hops lose their signal (R196) and its due sweeps lapse. A tone or a node's
wake condition latched meanwhile wakes it again (R239), and so does a command that waits (R241). -/
def State.ringSleeps (s : State) (n : Nat) : State :=
  let r := s.ring n
  match r.commitAt with
  | none => s
  | some t =>
    if t + 100 ≤ s.tick then
      let s := s.modRing n fun r =>
        { r with commitAt := none
                 sleepQ := none
                 agreed := []
                 hops := []
                 slow := []
                 nodes := r.nodes.map fun p => (p.1, if p.2.state == 3 || p.2.state == 4 then { p.2 with state := 7 } else p.2) }
      let s := { s with xng := { s.xng with due := { s.xng.due with order := s.xng.due.order.filter fun p => p.1 != n },
                                            heads := s.xng.heads.filter fun p => p.1 != n } }
      let s := (s.setSleep n 3).xngEvent Ev.RING_SLEPT n 0x1FF (le 4 r.sleepId)
      let s := match r.sleepQ with
        | some q => s.complete q OK 0
        | none => s
      let r := s.ring n
      if s.on (R.XNG_SLEEP_STATUS_WAKE_LATCHED n) then s.startWake n 1
      else if r.wakeQ ≠ [] then s.startWake n 0
      else if r.deferred ≠ [] ∨ r.later ≠ [] then s.startWake n 2 else s
    else s
/-- The firmware renews the presence permit of a crossing every 10 ms, while the application watchdog runs (R218, log 11). -/
def State.renewPermit (s : State) (n : Nat) : State :=
  if s.tick % 1000 = 0 ∧ s.on R.PWR_WATCHDOG_STATUS_RUNNING = true ∧ s.xngUsed n = true then
    s.modRing n fun r => { r with permit := s.tick }
  else s
/-- What a tick brings a crossing. -/
def State.ringTick (s : State) (n : Nat) : State :=
  let s := ((s.renewPermit n).ringSleeps n).censusEnd n
  if (s.ring n).wake.isSome then s.wakeCheck n else s

/-! ## Deficit round robin (R225, R253) -/

/-- The next node to be served. In its turn a node's deficit grows by its rate in 0.1 Hz, the quantum of R225 in tenths of a sweep's
1,856 bytes, until it covers a sweep; a node that is not ready, and one whose deficit does not yet cover one, passes its turn on. -/
def Drr.next (rate : Nat × Nat → Nat) (ready : Nat × Nat → Bool) : Nat → Drr → Option ((Nat × Nat) × Drr)
  | 0, _ => none
  | f + 1, d =>
    match d.order with
    | [] => none
    | k :: t =>
      if ready k = false then Drr.next rate ready f { d with order := t ++ [k] }
      else
        let key := 512 * k.1 + k.2
        let had := tgetD d.left key 0
        let v := if had < 10 then had + max 1 (rate k) else had
        if 10 ≤ v then some (k, { d with left := tput d.left key (v - 10) })
        else Drr.next rate ready f { order := t ++ [k], left := tput d.left key v }
/-- Turns enough for every node to come to its sweep. -/
def Drr.pick (d : Drr) (rate : Nat × Nat → Nat) (ready : Nat × Nat → Bool) : Option ((Nat × Nat) × Drr) :=
  d.next rate ready (11 * d.order.length)
/-- The node waits for nothing any more. -/
def Drr.drop (d : Drr) (k : Nat × Nat) : Drr := { order := d.order.filter (· != k), left := tdel d.left (512 * k.1 + k.2) }
/-- The node's turn ends with its deficit. -/
def Drr.passOn (d : Drr) (k : Nat × Nat) : Drr :=
  if tgetD d.left (512 * k.1 + k.2) 0 < 10 then { d with order := d.order.filter (· != k) ++ [k] } else d
def Drr.join (d : Drr) (k : Nat × Nat) : Drr := if d.order.contains k then d else { d with order := d.order ++ [k] }

end Sys2Proof.Machine
end

