-- ==== Sys2Proof/Machine/EstOps.lean ====
section
/-!
DEFINITION. Estimation as its commands use it: cell-type tables (R248 to R251), the cell model and its filter (R246,
R247, R255), initialisation (R262), anchors and learning (R265 to R272), the string figures and the roll-up (R280 to R283), and
checkpoints (R275 to R277).
-/
namespace Sys2Proof.Machine
open Sys2Proof

/-! ## Cell types (R248 to R251) -/

/-- The scalars of a CELLTYPE record, a 0 taking its default. -/
def CfgRec.qNom (t : CfgRec) : Rat := t.f32 0x10
def CfgRec.vMax (t : CfgRec) : Rat := t.f32 0x14
def CfgRec.vMin (t : CfgRec) : Rat := t.f32 0x18
def CfgRec.zLow (t : CfgRec) : Rat := cfgR (some t) 0x1C (5 / 100)
def CfgRec.zHigh (t : CfgRec) : Rat := cfgR (some t) 0x20 1
def CfgRec.etaC (t : CfgRec) : Rat := cfgR (some t) 0x24 (998 / 1000)
def CfgRec.gamma (t : CfgRec) : Rat := cfgR (some t) 0x28 50
def CfgRec.sigV (t : CfgRec) : Rat := cfgR (some t) 0x2C (2 / 1000)
def CfgRec.noiseZ (t : CfgRec) : Rat := cfgR (some t) 0x30 (1 / 10000000000)
def CfgRec.noiseP (t : CfgRec) : Rat := cfgR (some t) 0x34 (1 / 100000000)
def CfgRec.noiseH (t : CfgRec) : Rat := cfgR (some t) 0x38 (1 / 100000000)
def CfgRec.sigInit (t : CfgRec) : Rat := cfgR (some t) 0x3C (2 / 100)
def CfgRec.sigReady (t : CfgRec) : Rat := cfgR (some t) 0x40 (5 / 100)
def CfgRec.restC (t : CfgRec) : Rat := cfgR (some t) 0x44 (1 / 100)
def CfgRec.taperC (t : CfgRec) : Rat := cfgR (some t) 0x48 (3 / 100)
def CfgRec.bandV (t : CfgRec) : Rat := cfgR (some t) 0x4C (5 / 1000)
def CfgRec.holdChg (t : CfgRec) : Rat := cfgR (some t) 0x50 300
def CfgRec.holdDis (t : CfgRec) : Rat := cfgR (some t) 0x54 120
def CfgRec.sigAnchor (t : CfgRec) : Rat := cfgR (some t) 0x58 (1 / 100)
def CfgRec.gainQ (t : CfgRec) : Rat := cfgR (some t) 0x5C (1 / 10)
def CfgRec.gainR (t : CfgRec) : Rat := cfgR (some t) 0x60 (2 / 100)
def CfgRec.gainS (t : CfgRec) : Rat := cfgR (some t) 0x64 (1 / 4)
def CfgRec.stepC (t : CfgRec) : Rat := cfgR (some t) 0x68 (1 / 5)
def CfgRec.shortA (t : CfgRec) : Rat := cfgR (some t) 0x6C (5 / 1000)
def CfgRec.floatS (t : CfgRec) : Rat := cfgR (some t) 0x70 21600
def CfgRec.bleed (t : CfgRec) : Rat := cfgR (some t) 0x74 (1 / 5)
def CfgRec.defIsd (t : CfgRec) : Rat := cfgR (some t) 0x78 (4 / 1000)
def CfgRec.defM (t : CfgRec) : Rat := cfgR (some t) 0x7C (15 / 1000)
def CfgRec.horizon (t : CfgRec) : Rat := cfgR (some t) 0x80 10
def CfgRec.gapS (t : CfgRec) : Rat := cfgR (some t) 0x84 3600
def CfgRec.noiseGap (t : CfgRec) : Rat := cfgR (some t) 0x88 (1 / 100000000)
def CfgRec.restS (t : CfgRec) : Rat := cfgR (some t) 0x8C 1800
def CfgRec.span (t : CfgRec) : Rat := cfgR (some t) 0x90 (1 / 2)
def CfgRec.bandInit (t : CfgRec) : Rat := cfgR (some t) 0x94 (1 / 100)
/-- A run of binary32 values of a record. -/
def CfgRec.f32s (t : CfgRec) (o n : Nat) : List Rat := (List.range n).map fun i => t.f32 (o + 4 * i)
def CfgRec.tempAxis (t : CfgRec) : List Rat := t.f32s 0x98 16
def CfgRec.rateAxis (t : CfgRec) : List Rat := t.f32s 0xD8 8
/-- The segment of an ascending axis that holds an argument, and the place within it from 0 to 1 (R251). -/
def locate (axis : List Rat) (x : Rat) : Nat × Rat :=
  let i := min (axis.length - 2) ((axis.filter (· ≤ x)).length - 1)
  let a := axis.getD i 0
  let b := axis.getD (i + 1) 0
  (i, ratClamp 0 1 ((x - a) / (b - a)))
/-- The same on the state-of-charge axis of n equal segments. -/
def locateZ (n : Nat) (z : Rat) : Nat × Rat :=
  let i := min (n - 1) (ratFloor (ratClamp 0 1 z * n)).toNat
  (i, ratClamp 0 1 (z * n - i))
def mix (f a b : Rat) : Rat := (1 - f) * a + f * b
/-- An OCV table entry, V (R249). -/
def CfgRec.ocvEntry (t : CfgRec) (k j : Nat) : Rat := (t.u16 (0x178 + 2 * (101 * k + j)) : Rat) / 10000
/-- The OCV column at a temperature: 101 points. -/
def CfgRec.ocvColumn (t : CfgRec) (temp : Rat) : List Rat :=
  let (k, f) := locate t.tempAxis temp
  (List.range 101).map fun j => mix f (t.ocvEntry k j) (t.ocvEntry (k + 1) j)
/-- A column's value at a state of charge, and the slope of the segment that holds it. -/
def colAt (c : List Rat) (z : Rat) : Rat :=
  let (j, f) := locateZ 100 z
  mix f (c.getD j 0) (c.getD (j + 1) 0)
def colSlope (c : List Rat) (z : Rat) : Rat :=
  let (j, _) := locateZ 100 z
  (c.getD (j + 1) 0 - c.getD j 0) * 100
/-- The running integral of a column over z by the trapezoid rule (the W table of R251). -/
def colIntegral (c : List Rat) : List Rat :=
  ((List.range 100).foldl (fun (acc : List Rat × Rat) j =>
    let w := acc.2 + (c.getD j 0 + c.getD (j + 1) 0) / 200
    (acc.1 ++ [w], w)) ([0], 0)).1
/-- The lowest z at which a rising column reaches a level (1 where it never does), and the highest at which it does not
exceed it (0 where it always does). -/
def firstAt (c : List Rat) (level : Rat) : Rat :=
  match (List.range 101).find? fun j => decide (level ≤ c.getD j 0) with
  | none => 1
  | some 0 => 0
  | some (j + 1) => ((j : Rat) + (level - c.getD j 0) / (c.getD (j + 1) 0 - c.getD j 0)) / 100
def lastAt (c : List Rat) (level : Rat) : Rat :=
  match ((List.range 101).filter fun j => decide (c.getD j 0 ≤ level)).getLast? with
  | none => 0
  | some j => if 100 ≤ j then 1 else ((j : Rat) + (level - c.getD j 0) / (c.getD (j + 1) 0 - c.getD j 0)) / 100
/-- Trilinear interpolation of a resistance or time-constant table at its base (R249, R251). -/
def CfgRec.tri (t : CfgRec) (base : Nat) (z temp rate : Rat) : Rat :=
  let (j, fz) := locateZ 20 z
  let (k, ft) := locate t.tempAxis temp
  let (b, fr) := locate t.rateAxis rate
  let at' := fun db dk dj => t.f32 (base + 4 * (336 * (b + db) + 21 * (k + dk) + (j + dj)))
  mix fr (mix ft (mix fz (at' 0 0 0) (at' 0 0 1)) (mix fz (at' 0 1 0) (at' 0 1 1)))
         (mix ft (mix fz (at' 1 0 0) (at' 1 0 1)) (mix fz (at' 1 1 0) (at' 1 1 1)))
def CfgRec.rser (t : CfgRec) (z temp rate : Rat) : Rat := t.tri 0xE18 z temp rate
def CfgRec.rpol (t : CfgRec) (z temp rate : Rat) : Rat := t.tri 0x3818 z temp rate
def CfgRec.tau (t : CfgRec) (z temp rate : Rat) : Rat := t.tri 0x6218 z temp rate
/-- The charge current limit at a temperature, and the discharge one. -/
def CfgRec.limChg (t : CfgRec) (temp : Rat) : Rat :=
  let (k, f) := locate t.tempAxis temp
  mix f (t.f32 (0xF8 + 4 * k)) (t.f32 (0xF8 + 4 * (k + 1)))
def CfgRec.limDis (t : CfgRec) (temp : Rat) : Rat :=
  let (k, f) := locate t.tempAxis temp
  mix f (t.f32 (0x138 + 4 * k)) (t.f32 (0x138 + 4 * (k + 1)))
/-- The learned values of a cell at its type's defaults (R267). -/
def CfgRec.defaults (t : CfgRec) : Learned := ⟨t.qNom, 1, t.defIsd, 0, t.defM⟩
/-- Learned values held within their limits (R267). -/
def Learned.hold (t : CfgRec) (l : Learned) : Learned :=
  ⟨ratClamp (t.qNom / 2) (t.qNom * 12 / 10) l.q, ratClamp (1 / 4) 8 l.sR, ratClamp 0 1 l.iSd,
   ratClamp (-5 / 100) (5 / 100) l.u, ratClamp 0 (1 / 10) l.m⟩
/-- Every learned value lies within its limits (R278). -/
def Learned.ok (t : CfgRec) (l : Learned) : Bool := l.hold t == l

/-! ## Strings -/

/-- The seconds of a span of nanoseconds. -/
def nsToS (n : Nat) : Rat := (n : Rat) / 1000000000
def Cell.zero : Cell :=
  ⟨0, 0, 0, 0, 0, 0, 0, 0, 0, 0, 0, 0, 0, 0, 0, 0, 0, 0, 0, 0, 0, none, 0, [], false, false, none, none, false, 0⟩
/-- A cell of which nothing is known yet: its variance spans the whole axis of state of charge
(DEDUCED, log 107). -/
def Cell.fresh : Cell := { Cell.zero with pzz := 1 }
def Figures.zero : Figures := ⟨0, 0, 0, 0, 0, 0, 0, 0, 0, 0, 0, 0, 0⟩
/-- The cell type record of a string in force. -/
def State.strType (s : State) (i : Nat) : Option CfgRec := (s.cfg 5 3 i).bind fun r => s.cfg 4 1 (r.u8 0x12)
/-- A string added: WAITING_REST with the defaults of its type (R263, R267). -/
def State.freshStr (s : State) (i : Nat) : EstStr :=
  { state := 1, typ := (s.cfg 5 3 i).elim 0 (·.u8 0x12), fig := Figures.zero, cells := List.replicate 256 Cell.fresh,
    learned := List.replicate 256 ((s.strType i).elim ⟨0, 1, 0, 0, 0⟩ (·.defaults)), time := none, number := 0, current := 0,
    voltage := 0, contact := 0, chgSince := none, disSince := none, lastAnchor := 0, anchorTime := 0, charge := 0,
    spoiled := false, floatAt := none, learnAt := none, init := none, toRest := false, toDefault := false, restore := [],
    frozenAt := none, steps := 0 }
def State.estStr (s : State) (i : Nat) : EstStr := (tget s.est.str i).getD (s.freshStr i)
def State.setEst (s : State) (i : Nat) (x : EstStr) : State := { s with est := { s.est with str := tput s.est.str i x } }
def State.modEst (s : State) (i : Nat) (f : EstStr → EstStr) : State := s.setEst i (f (s.estStr i))
/-- The crossing and node of a string. -/
def State.strNode (s : State) (i : Nat) : Node := s.node (i / 256) (s.stringBerth i)
def State.conNode (s : State) (c : Nat) : Node := s.node (c / 16) (s.containerBerth c)

/-! ## One cell (R246, R247, R254, R255, R262) -/

/-- Row i, column j of the covariance, in the order z, v, h. -/
def Cell.cov (c : Cell) (i j : Nat) : Rat :=
  match min i j, max i j with
  | 0, 0 => c.pzz
  | 0, 1 => c.pzp
  | 0, 2 => c.pzh
  | 1, 1 => c.ppp
  | 1, 2 => c.pph
  | _, _ => c.phh
def Cell.withCov (c : Cell) (p : Nat → Nat → Rat) : Cell :=
  { c with pzz := p 0 0, pzp := p 0 1, pzh := p 0 2, ppp := p 1 1, pph := p 1 2, phh := p 2 2 }
def Cell.setFlag (c : Cell) (b : Nat) (v : Bool) : Cell :=
  { c with flags := if bit c.flags b = v then c.flags else if v then c.flags + 2 ^ b else c.flags - 2 ^ b }
/-- A cell initialised from the voltage interval of R262: `v` is the measured voltage less the ohmic drop, the prior one
state of charge with the seconds since it. -/
def Cell.initialise (t : CfgRec) (l : Learned) (c : Cell) (v temp : Rat) (prior : Option (Rat × Rat)) : Cell :=
  let col := t.ocvColumn temp
  let lo := firstAt col (v - l.u - t.bandInit)
  let hi := lastAt col (v - l.u + t.bandInit)
  let (lo, hi) := if hi < lo then (if v - l.u < col.headD 0 then (0, 0) else (1, 1)) else (lo, hi)
  let var := t.sigInit * t.sigInit
  let half := (hi - lo) / 2
  let (z, pz) := match prior with
    | some (zp, el) => if lo ≤ zp ∧ zp ≤ hi then (zp, var + t.noiseGap * el) else ((lo + hi) / 2, half * half + var)
    | none => ((lo + hi) / 2, half * half + var)
  let sv := t.sigV * t.sigV
  { c with z := z, vp := 0, h := 0, pzz := pz, pzp := 0, pzh := 0, ppp := sv, pph := 0, phh := sv, rejects := 0 }
/-- What one cell's step is given: string current (none where the report holds no finite one), the cell's entry, its
temperature with whether that was substituted, the seconds since its last measurement, whether the step resumes after a
gap with the current before it (R256), and whether the float window runs. -/
structure StepIn where
  is : Option Rat
  e : Entry
  temp : Rat
  subst : Bool
  dt : Rat
  resume : Option Rat
  float : Bool
  deriving DecidableEq, Repr
/-- What the step counts: a rejected measurement, a re-initialisation, the innovation. -/
structure StepOut where
  outlier : Bool
  reset : Bool
  deriving DecidableEq, Repr
def Entry.volts (e : Entry) : Rat := (e.v : Rat) / 10000
def Entry.celsius (e : Entry) : Rat := ((e.t % 4096 : Nat) : Rat) / 20 - 55
/-- The voltage counts: neither marked invalid nor from an open sense wire (R255). -/
def Entry.vOk (e : Entry) : Bool := !bit e.t 15 && !bit e.t 12
def Entry.tOk (e : Entry) : Bool := !bit e.t 14
def Entry.bal (e : Entry) : Bool := bit e.t 13
/-- The cell current: the string's, after a gap the mean across it (R256), less the bleed of a balancing cell. -/
def StepIn.ic (t : CfgRec) (x : StepIn) : Rat :=
  let i := x.is.getD 0
  (x.resume.elim i fun before => (before + i) / 2) - (if x.e.bal then t.bleed else 0)
/-- The flags that one update sets anew (R255, R285): MEAS_INVALID and TEMP_SUBSTITUTED; OUTLIER and CLAMPED clear. -/
def Cell.measured (c : Cell) (x : StepIn) : Cell :=
  ((({ c with lastV := x.e.v, lastT := x.e.t, temp := x.temp }.setFlag 3 (!x.e.vOk)).setFlag 4 x.subst).setFlag 5 false).setFlag 6 false
/-- One update of a cell: the prediction of R246, then the correction of R247 under the table of R255. Every table value, the
slope g among them, is that at the state of charge before the step (DEDUCED, log 107). -/
def Cell.step (t : CfgRec) (l : Learned) (c : Cell) (x : StepIn) : Cell × StepOut :=
  let ic := x.ic t
  let rate := ic / t.qNom
  let r := t.rser c.z x.temp rate
  let z0 := c.z
  let c := c.measured x
  let c := if x.e.vOk then { c with recent := (c.recent ++ [x.e.volts]).drop ((c.recent.length + 1) - 10) } else c
  if x.is.isNone then
    (((c.initialise t l x.e.volts x.temp none).setFlag 7 true), ⟨false, true⟩)
  else
    let eta := if 0 < ic then t.etaC else 1
    let z1 := c.z + (eta * ic - l.iSd) * x.dt / (3600 * l.q)
    let ap := Config.exp (-x.dt / t.tau c.z x.temp rate)
    let vp1 := ap * c.vp + (1 - ap) * t.rpol c.z x.temp rate * ic
    let ah := Config.exp (-t.gamma * ratAbs ic * x.dt / (3600 * l.q))
    let sgn : Rat := if ratAbs ic ≤ t.restC * t.qNom then 0 else if 0 < ic then 1 else -1
    let h1 := ah * c.h + (1 - ah) * l.m * sgn
    let f := fun i : Nat => if i = 0 then (1 : Rat) else if i = 1 then ap else ah
    let q := fun i : Nat => if i = 0 then t.noiseZ else if i = 1 then t.noiseP else t.noiseH
    let p := fun i j => f i * c.cov i j * f j + (if i = j then q i * x.dt else 0)
    let p := fun i j => p i j + (if i = 0 ∧ j = 0 ∧ x.resume.isSome then t.noiseGap * x.dt else 0)
    let c1 := { (c.withCov p) with z := z1, vp := vp1, h := h1 }
    let clamp := fun (c : Cell) => if c.z < 0 then { c with z := 0 }.setFlag 6 true
                                   else if 1 < c.z then { c with z := 1 }.setFlag 6 true else c
    if !x.e.vOk then (c1, ⟨false, false⟩)
    else
      let col := t.ocvColumn x.temp
      let pred := colAt col z0 + l.u + h1 + vp1 + l.sR * r * ic
      let g := colSlope col z0
      let hv := fun i : Nat => if i = 0 then g else 1
      let e := x.e.volts - pred
      let ph := fun i => c1.cov i 0 * g + c1.cov i 1 + c1.cov i 2
      let sv := t.sigV * t.sigV
      let sVar := g * ph 0 + ph 1 + ph 2 + sv
      if 36 * sVar < e * e then
        let c2 := { c1 with rejects := c1.rejects + 1 }.setFlag 5 true
        if 3 ≤ c2.rejects then
          ({ c2 with rejects := 0, pzz := t.sigInit * t.sigInit, pzp := 0, pzh := 0, ppp := sv, pph := 0, phh := sv }, ⟨true, false⟩)
        else (c2, ⟨true, false⟩)
      else
        let k := fun i => ph i / sVar
        let a := fun i j => (if i = j then (1 : Rat) else 0) - k i * hv j
        let three := [0, 1, 2]
        let pn := fun i j => ratSum (three.map fun m => ratSum (three.map fun n => a i m * c1.cov m n * a j n)) + sv * k i * k j
        let c2 := { (c1.withCov pn) with z := z1 + k 0 * e, vp := vp1 + k 1 * e, h := h1 + k 2 * e, rejects := 0,
                                         ebar := c1.ebar + (1 - Config.exp (-x.dt / 60)) * (e - c1.ebar),
                                         c := if x.float then c1.c + k 0 * e else c1.c }
        (clamp c2, ⟨false, false⟩)
/-- The cell counts as initialised: its standard deviation is at or below σready (R263, flag READY). -/
def Cell.ready (t : CfgRec) (c : Cell) : Bool := decide (c.pzz ≤ t.sigReady * t.sigReady)

/-! ## Anchors and learning (R265 to R272) -/

/-- The current of a cell at a string current, by the balancing bit of its last report entry (R246). -/
def Cell.icOf (t : CfgRec) (c : Cell) (is : Rat) : Rat := is - (if bit c.lastT 13 then t.bleed else 0)
/-- One cell at an anchor (R266), the string's current being `is`: the cell, and whether the state of charge was applied. -/
def Cell.anchorAt (t : CfgRec) (l : Learned) (c : Cell) (is temp : Rat) (kind : Nat) : Cell × Bool :=
  let ic := c.icOf t is
  let mean := if c.recent = [] then (c.lastV : Rat) / 10000 else ratSum c.recent / (c.recent.length : Rat)
  let v := mean - l.sR * t.rser c.z temp (ic / t.qNom) * ic - c.vp - c.h
  let col := t.ocvColumn temp
  let za := firstAt col (v - l.u)
  let g := colSlope col za
  let var := (t.sigV / g) * (t.sigV / g) + t.sigAnchor * t.sigAnchor
  if g ≠ 0 ∧ var < c.pzz then
    ({ c with z := za, pzz := var, pzp := 0, pzh := 0, za := za, zaSet := true, anchor := kind }, true)
  else ({ c with zaSet := false }, false)
/-- The middle of a list, the mean of the two middle ones for an even count (log 20). -/
def median (l : List Rat) : Rat :=
  let m := l.mergeSort (fun a b => decide (a ≤ b))
  let n := m.length
  if n % 2 = 1 then m.getD (n / 2) 0 else (m.getD (n / 2 - 1) 0 + m.getD (n / 2) 0) / 2
/-- The string learns: neither quarantined nor FROZEN (R274). -/
def State.learns (s : State) (i : Nat) : Bool := (s.strNode i).state != 4 && (s.estStr i).state != 4

/-! ## Figures and roll-up (R280 to R282) -/

/-- The energies of a string floored at its weakest cell for states of charge z: Eavail with As. -/
def floorEnergy (t : CfgRec) (cells : List (Rat × Rat × List Rat)) : Rat × Rat :=
  let as := ratMax 0 (ratLeast (cells.map fun c => c.2.1 * (c.1 - t.zLow)))
  (ratSum (cells.map fun c => c.2.1 * (colAt c.2.2 c.1 - colAt c.2.2 (c.1 - as / c.2.1))), as)
/-- The string figures of R280. -/
def figuresOf (t : CfgRec) (i : Nat) (cells : List (Cell × Learned)) : Figures :=
  let cols := cells.map fun p => (p.1, p.2, t.ocvColumn p.1.temp)
  let ws := cols.map fun p => (p.1.z, p.2.1.q, colIntegral p.2.2)
  let cons := cols.map fun p => (p.1.z - 2 * Config.sqrt p.1.pzz, p.2.1.q, colIntegral p.2.2)
  let ah := ratMax 0 (ratLeast (cols.map fun p => p.2.1.q * (t.zHigh - p.1.z)))
  let u := fun (c : Cell) (l : Learned) (col : List Rat) => colAt col c.z + l.u + c.h + c.vp
  let r := fun (c : Cell) (l : Learned) (lim : Rat) =>
    l.sR * t.rser c.z c.temp (lim / t.qNom) +
      t.rpol c.z c.temp (lim / t.qNom) * (1 - Config.exp (-t.horizon / t.tau c.z c.temp (lim / t.qNom)))
  let rd := fun (c : Cell) (l : Learned) => r c l (-t.limDis c.temp)
  let rc := fun (c : Cell) (l : Learned) => r c l (t.limChg c.temp)
  let iDis := ratLeast (cols.map fun p => ratMin (t.limDis p.1.temp) (ratMax 0 ((u p.1 p.2.1 p.2.2 - t.vMin) / rd p.1 p.2.1)))
  let iChg := ratLeast (cols.map fun p => ratMin (t.limChg p.1.temp) (ratMax 0 ((t.vMax - u p.1 p.2.1 p.2.2) / rc p.1 p.2.1)))
  let zs := cells.map (·.1.z)
  let ts := cells.map (·.1.temp)
  let margins := cols.map fun p => p.2.1.q * (p.1.z - t.zLow)
  { eAvail := (floorEnergy t ws).1, eCons := (floorEnergy t cons).1,
    eHead := ratSum (ws.map fun c => c.2.1 * (colAt c.2.2 (c.1 + ah / c.2.1) - colAt c.2.2 c.1)),
    iDis := iDis, iChg := iChg,
    pDis := iDis * ratSum (cols.map fun p => u p.1 p.2.1 p.2.2 - rd p.1 p.2.1 * iDis),
    pChg := iChg * ratSum (cols.map fun p => u p.1 p.2.1 p.2.2 + rc p.1 p.2.1 * iChg),
    zLo := ratLeast zs, zHi := ratMost zs, zMean := ratSum zs / 256, tLo := ratLeast ts, tHi := ratMost ts,
    weak := i * 256 + (margins.findIdx? fun m => decide (m = ratLeast margins)).getD 0 }
/-- The string counts toward available figures (R281): TRACKING, JOINED or QUARANTINED, both contactors reported closed,
not Missing, nor one that would not open (R307). -/
def State.counts (s : State) (i : Nat) : Bool :=
  let e := s.estStr i
  let n := (s.strNode i).state
  e.state == 3 && (n == 3 || n == 4) && e.contact % 4 == 3 && !((tget s.prot.str i).any (·.state == 6)) &&
    !((tget s.prot.con (i / 16)).any fun c => (tget c.watch (i % 16)).isSome)
/-- The roll-up entry of a string. A quarantined string's charge figures count as 0. -/
def State.rollStr (s : State) (i : Nat) : RollStr :=
  let e := s.estStr i
  let q := (s.strNode i).state == 4
  { idx := i, fig := if q then { e.fig with iChg := 0, pChg := 0, eHead := 0 } else e.fig, counts := s.counts i,
    tracking := e.state == 3, quarantined := q, state := e.state }
/-- Sums of a container: of its counting strings, the currents and powers being the count times the smallest (R282). -/
def conSum (l : List RollStr) (get : Figures → Rat) : Rat := ratSum ((l.filter (·.counts)).map fun r => get r.fig)
def conLeast (l : List RollStr) (get : Figures → Rat) : Rat :=
  let m := (l.filter (·.counts)).map fun r => get r.fig
  (m.length : Rat) * ratLeast m
/-- The entries of a container, and a figure summed over the containers that a predicate picks. -/
def rollOf (roll : List RollStr) (c : Nat) : List RollStr := roll.filter (·.idx / 16 == c)
def rollCons (roll : List RollStr) : List Nat := (roll.map (·.idx / 16)).eraseDups
def rollTotal (roll : List RollStr) (pick : Nat → Bool) (f : List RollStr → Rat) : Rat :=
  ratSum (((rollCons roll).filter pick).map fun c => f (rollOf roll c))
/-- The published figures shown in the EST registers (R283, R288). -/
def State.showRoll (s : State) : State :=
  let r := s.est.roll
  let all := fun _ : Nat => true
  let s := s.wrR R.EST_PLANT_E_AVAIL (rollTotal r all (conSum · (·.eAvail)))
  let s := s.wrR R.EST_PLANT_E_CONS (rollTotal r all (conSum · (·.eCons)))
  let s := s.wrR R.EST_PLANT_E_HEAD (rollTotal r all (conSum · (·.eHead)))
  let s := s.wrR R.EST_PLANT_E_HELD (ratSum ((r.filter (·.tracking)).map (·.fig.eAvail)))
  let s := s.wrR R.EST_PLANT_P_DIS (rollTotal r all (conLeast · (·.pDis)))
  let s := s.wrR R.EST_PLANT_P_CHG (rollTotal r all (conLeast · (·.pChg)))
  (List.range 16).foldl (fun s b =>
    let mine := fun c : Nat => c / 16 == b
    let s := s.wrR (R.EST_BANK_E_AVAIL b) (rollTotal r mine (conSum · (·.eAvail)))
    let s := s.wrR (R.EST_BANK_E_CONS b) (rollTotal r mine (conSum · (·.eCons)))
    let s := s.wrR (R.EST_BANK_P_DIS b) (rollTotal r mine (conLeast · (·.pDis)))
    s.wrR (R.EST_BANK_P_CHG b) (rollTotal r mine (conLeast · (·.pChg)))) s

/-! ## Checkpoints (R275 to R277) -/

/-- The bytes of a learned-value entry (R284). -/
def Learned.bytes (l : Learned) : List Byte :=
  le 4 (toB32 l.q).toNat ++ le 4 (toB32 l.sR).toNat ++ le 4 (toB32 l.iSd).toNat ++ le 2 (toB16 l.u).toNat ++ le 2 (toB16 l.m).toNat
/-- The 6,152 bytes of a string record, and the string records of a slot (R276). -/
def CkStr.bytes (i : Nat) (r : CkStr) : List Byte :=
  le 2 i ++ le 1 r.typ ++ le 1 r.state ++ le 4 r.frozenAt ++ r.learned.flatMap Learned.bytes ++
    r.zh.flatMap fun p => le 4 (toB32 p.1).toNat ++ le 4 (toB32 p.2).toNat
def Ckpt.records (c : Ckpt) : List Byte := c.strings.flatMap fun p => p.2.bytes p.1
/-- The 64-byte header of a slot, and what stands before its commit word, in the order in which it is written (R276). -/
def Ckpt.header (c : Ckpt) : List Byte :=
  le 4 0x4B43564C ++ le 8 c.plant ++ le 4 c.gen ++ le 1 c.cause ++ le 3 0 ++ le 4 c.opSec ++ le 4 c.cycles ++ le 8 c.time ++
    le 4 c.manGen ++ le 4 c.strings.length ++ le 4 c.crc ++ List.replicate 16 0
def Ckpt.bytes (c : Ckpt) : List Byte := c.records ++ c.header
/-- A slot is intact (R277): its commit word stands, its header's CRC-32C is that of its records, and it carries the plant identity. -/
def Ckpt.intact (c : Ckpt) (plant : Nat) : Bool := c.committed && c.plant == plant && c.crc == (crc32c c.records).toNat
/-- The newest intact checkpoint that carries the Turid's plant identity, with its slot. -/
def newestCkpt (slots : Tbl Ckpt) (plant : Nat) : Option (Nat × Ckpt) :=
  (slots.filter fun p => p.2.intact plant).foldl (fun best p =>
    match best with
    | none => some p
    | some b => if b.2.gen < p.2.gen then some p else some b) none
/-- What the checkpoint registers show of the two slots. -/
def State.showCkpt (s : State) : State :=
  let slots := s.nv.ckpt.filter fun p => p.2.intact s.plantIdent
  let s := s.wr R.EST_CKPT_STATUS_INTACT (b2n (slots.any (·.1 == 0)) + 2 * b2n (slots.any (·.1 == 1)))
  match newestCkpt s.nv.ckpt s.plantIdent with
  | none => s
  | some (slot, c) =>
    (((s.wr R.EST_CKPT_GEN c.gen).wr R.EST_CKPT_OPSEC c.opSec).wr R.EST_CKPT_STATUS_CAUSE c.cause).wr
      R.EST_CKPT_STATUS_NEWEST_SLOT slot
/-- A checkpoint trigger (R275): it starts a checkpoint, or is served by one further directly after the running one; the commands
on these queues wait for it. -/
def State.ckptFor (s : State) (cause : Nat) (qs : List Nat) : State :=
  match s.est.ckptRun with
  | none => { s with est := { s.est with ckptRun := some (cause, qs) } }.wrB R.EST_STATUS_CKPT_RUNNING true
  | some _ =>
    let next := match s.est.ckptNext with
      | none => (cause, qs)
      | some (c, l) => (if cause = 7 then 7 else c, l ++ qs)
    { s with est := { s.est with ckptNext := some next } }
def State.startCkpt (s : State) (cause : Nat) (q : Option Nat) : State := s.ckptFor cause q.toList
/-- The records of a checkpoint written now. -/
def State.ckptStrings (s : State) : Tbl CkStr :=
  s.est.str.map fun p => (p.1, ⟨p.2.typ, p.2.state, p.2.frozenAt.getD 0, p.2.learned,
    (List.range 256).map fun k => let c := p.2.cells.getD k Cell.zero; (c.z, c.h)⟩)
/-- The slot that the next checkpoint is written to: the one that does not hold the newest (R277). -/
def State.ckptSlot (s : State) : Nat := (newestCkpt s.nv.ckpt s.plantIdent).elim 0 fun p => 1 - p.1
/-- A checkpoint write has ended well: intact in its slot, under the next generation. -/
def State.ckptWrite (s : State) (cause : Nat) (atLeast : Nat) : State × Nat :=
  let new := newestCkpt s.nv.ckpt s.plantIdent
  let slot := s.ckptSlot
  let gen := (max (new.elim 0 (·.2.gen)) atLeast + 1) % 2 ^ 32
  let c : Ckpt := ⟨gen, s.plantIdent, cause, s.opSec, s.rd R.PWR_POWER_CYCLES, s.stampTime, s.rd R.MAN_ACTIVE_GEN, s.ckptStrings, 0, true⟩
  let c := { c with crc := (crc32c c.records).toNat }
  ({ s with nv := { s.nv with ckpt := tput s.nv.ckpt slot c } }.showCkpt, gen)

/-- A write has failed: what its slot held before is overwritten, and its commit word does not stand (R276, R277, log 104). -/
def State.ckptSpoil (s : State) : State :=
  match tget s.nv.ckpt s.ckptSlot with
  | none => s
  | some c => { s with nv := { s.nv with ckpt := tput s.nv.ckpt s.ckptSlot { c with committed := false } } }.showCkpt

/-! ## States of a string -/

/-- An accepted restore ends once every string that is swept has taken its entries (R279, R287): it is announced, and its checkpoint
follows. -/
def State.restoreApplied (s : State) : State :=
  let waits := s.est.str.any fun p => p.2.restore != [] && ((s.strNode p.1).state == 3 || (s.strNode p.1).state == 4)
  match s.est.restore with
  | some r => match r.taken with
    | some n =>
      if r.applied || waits then s
      else
        let s := { s with est := { s.est with restore := some { r with applied := true } } }
        let s := (s.wr R.EST_RESTORE_STATUS_RESULT 1).flag R.EST_EVENT_STATUS_RESTORE_DONE
        ((s.wrB R.EST_STATUS_RESTORE_RUNNING false).raise Ev.RESTORE_APPLIED 0 (le 4 r.gen ++ le 4 n)).startCkpt 7 none
    | none => s
  | none => s

/-- The string waits for its rest again (R263). -/
def State.toRest (s : State) (i : Nat) : State :=
  s.modEst i fun x => { x with state := 1, init := none, spoiled := true, floatAt := none }
/-- The string's learned values at its type's defaults (R267). -/
def State.toDefaults (s : State) (i : Nat) : State :=
  match s.strType i with
  | none => s
  | some t => s.modEst i fun x => { x with learned := List.replicate 256 t.defaults, typ := ((s.cfg 5 3 i).elim 0 (·.u8 0x12)) }
/-- A Missing string's estimation freezes (R263, R308). -/
def State.freeze (s : State) (i : Nat) : State := s.modEst i fun x => { x with state := 4, frozenAt := some s.opSec }
/-- A swept string handed to the intake ring (R253) while estimation has not stopped for LOOPS_ONLY (R144); a full ring
discards it. -/
def State.intake (s : State) (w : Sweep) : State :=
  if s.rd R.PWR_THERMAL_STATUS_STAGE = 2 then s
  else if 4096 ≤ s.est.intake.length then
    let s := ((s.inc R.EST_SKIPPED).inc (R.XNG_SWEEPS_MISSED w.xng)).flag R.EST_EVENT_STATUS_INTAKE_OVERFLOW
    s.modNode w.xng w.berth fun x => { x with missed := min 255 (x.missed + 1) }
  else { s with est := { s.est with intake := s.est.intake ++ [w], turn := s.est.turn.join (w.xng, w.berth) } }
/-- The sweep that is served next, with what stays of the intake (R253): the oldest of the node whose turn it is by the deficit
round robin of R225. -/
def State.nextSweep (s : State) : Option (Sweep × Est) :=
  let waits (l : List Sweep) (k : Nat × Nat) : Bool := l.any fun w => (w.xng, w.berth) == k
  match s.est.turn.pick (fun k => (s.node k.1 k.2).rate) (waits s.est.intake) with
  | none => none
  | some (k, d) => (s.est.intake.find? fun w => (w.xng, w.berth) == k).map fun w =>
    let rest := s.est.intake.erase w
    (w, { s.est with intake := rest, turn := if waits rest k then d.passOn k else d.drop k })
/-- A string's sweeps waiting in the intake ring go with its node (R62, R66). -/
def State.dropIntake (s : State) (xng berth : Nat) : State :=
  { s with est := { s.est with intake := s.est.intake.filter (fun w => w.xng != xng || w.berth != berth), turn := s.est.turn.drop (xng, berth) } }

end Sys2Proof.Machine
end

