-- ==== Sys2Proof/Machine/PltOps.lean ====
section
/-!
DEFINITION. Plant protection as its commands and the other units use it: trip limits (R291), states of strings and
containers (R298, R302), the orderly open (R295), trips and blocks (R293), Missing strings (R305 to R309), and what
protection does with the completions of its frames (R301).
-/
namespace Sys2Proof.Machine
open Sys2Proof

/-! ## Records -/

def PStr.fresh : PStr :=
  { state := 1, cause := 0, chgBlock := false, disBlock := false, coldBlock := false, waitVolt := false, nOv := 0, nUv := 0,
    nHot := 0, nCold := 0, nColdChg := 0, nAux := 0, nChg := 0, nDis := 0, nOpen := 0, measAt := none, tempAt := none,
    blocks := [], marked := [], balancing := false, tripCell := 0, tripValue := 0, opening := false, sentOpen := false,
    openAt := 0, inFlight := false, next := 0, waits := false, closeQ := none, openQ := none, closeAt := 0, closedAt := none,
    waitSince := none, serial := none, shortTrip := none }
def PCon.fresh : PCon :=
  { state := 1, cause := 0, word := 0, busV := 0, busI := 0, setpoint := 0, sentAt := none, mode := 0, manual := 0, tHot := 0,
    tCold := 0, thermBlock := false, sentOpen := false, openAt := 0, withStrings := false, opensLeft := [], inFlight := false, waits := false,
    closeQ := none, openQ := none, watch := [], floorOn := false, seen := false }
def State.pstr (s : State) (i : Nat) : PStr := tgetD s.prot.str i PStr.fresh
def State.setPstr (s : State) (i : Nat) (x : PStr) : State := { s with prot := { s.prot with str := tput s.prot.str i x } }
def State.modPstr (s : State) (i : Nat) (f : PStr → PStr) : State := s.setPstr i (f (s.pstr i))
def State.pcon (s : State) (c : Nat) : PCon := tgetD s.prot.con c PCon.fresh
def State.setPcon (s : State) (c : Nat) (x : PCon) : State := { s with prot := { s.prot with con := tput s.prot.con c x } }
def State.modPcon (s : State) (c : Nat) (f : PCon → PCon) : State := s.setPcon c (f (s.pcon c))
/-- The populated strings, and those of a container; the populated containers. -/
def State.strings (s : State) : List Nat := (s.cfgAll 5 3).map (·.id)
def State.stringsOf (s : State) (c : Nat) : List Nat := s.strings.filter fun i => i / 16 == c
def State.containers (s : State) : List Nat := (s.cfgAll 5 2).map (·.id)
/-- In-service intents (R297). -/
def State.intent (s : State) (i : Nat) : Bool := s.nv.intentStr.contains i
def State.intentCon (s : State) (c : Nat) : Bool := s.nv.intentCon.contains c
def State.setIntent (s : State) (i : Nat) (on : Bool) : State :=
  { s with nv := { s.nv with intentStr := if on then (if s.intent i then s.nv.intentStr else i :: s.nv.intentStr) else s.nv.intentStr.erase i } }
def State.setIntentCon (s : State) (c : Nat) (on : Bool) : State :=
  { s with nv := { s.nv with intentCon := if on then (if s.intentCon c then s.nv.intentCon else c :: s.nv.intentCon) else s.nv.intentCon.erase c } }
/-- Commands go to partners: the ports are up, not in Mooring mode, the thermal stage not LOOPS_ONLY (R41, R144, R296). -/
def State.mayCommand (s : State) : Bool := s.portsUp && !s.mooring && s.rd R.PWR_THERMAL_STATUS_STAGE != 2
/-- The string-node standing limits (R217), in the order of the record. -/
def State.standLimit (s : State) (k : Nat) : Rat := (s.cfg 13 1 0).elim 0 fun r => r.f32 (0x18 + 4 * k)
/-- The Turid's trip limits (R291): 20 mV, 2 °C and 95 % inside the standing limits. -/
def State.tripHighV (s : State) : Rat := s.standLimit 1 - 20 / 1000
def State.tripLowV (s : State) : Rat := s.standLimit 0 + 20 / 1000
def State.tripHighT (s : State) : Rat := s.standLimit 3 - 2
def State.tripLowT (s : State) : Rat := s.standLimit 2 + 2
def State.tripChg (s : State) : Rat := s.standLimit 4 * 95 / 100
def State.tripDis (s : State) : Rat := s.standLimit 5 * 95 / 100

/-! ## Events and states -/

/-- The data of R318: index, new state, cause. -/
def protData (i state cause : Nat) : List Byte := le 2 i ++ le 1 state ++ le 1 cause
/-- The result of a protection command (R317): state in [3:0], cause in [7:4]. -/
def State.strResult (s : State) (i : Nat) : Nat := (s.pstr i).state + 16 * (s.pstr i).cause
def State.conResult (s : State) (c : Nat) : Nat := (s.pcon c).state + 16 * (s.pcon c).cause
def State.completeOpt (s : State) (q : Option Nat) (status result : Nat) : State :=
  match q with
  | some q => s.complete q status result
  | none => s
/-- A string's new state, posted as STRING_STATE. -/
def State.strTo (s : State) (i state : Nat) : State :=
  if (s.pstr i).state = state then s
  else
    let s := s.modPstr i fun x => { x with state := state }
    s.raise Ev.STRING_STATE (i / 256) (protData i state (s.pstr i).cause)
def State.conTo (s : State) (c state : Nat) : State :=
  if (s.pcon c).state = state then s
  else
    let s := s.modPcon c fun x => { x with state := state }
    s.raise Ev.CONTAINER_STATE (c / 16) (protData c state (s.pcon c).cause)
/-- The commands that wait for a string to close, or to open, complete. -/
def State.endClose (s : State) (i status : Nat) : State :=
  let q := (s.pstr i).closeQ
  (s.modPstr i fun x => { x with closeQ := none, waitSince := none, waitVolt := false }).completeOpt q status (s.strResult i)
def State.endOpen (s : State) (i status : Nat) : State :=
  let q := (s.pstr i).openQ
  (s.modPstr i fun x => { x with openQ := none }).completeOpt q status (s.strResult i)

/-! ## Contactor frames -/

def contactorPayload (close : Bool) : List Byte := le 1 (b2n close) ++ List.replicate 7 0
def readPayload (addr words : Nat) : List Byte := le 4 addr ++ le 2 words ++ le 2 0
/-- CONTACTOR to a string node (R216); one is in flight at a time, and an OPEN waits for the earlier response (R301). -/
def State.sendStrOpen (s : State) (i attempt : Nat) : State :=
  if !s.mayCommand then s
  else if (s.pstr i).inFlight then s.modPstr i fun x => { x with waits := true, sentOpen := true }
  else
    (s.modPstr i fun x => { x with inFlight := true, sentOpen := true }).request (i / 256) (s.stringBerth i) 5
      (contactorPayload false) (.strOpen i attempt)
def State.sendStrClose (s : State) (i : Nat) : State :=
  (s.modPstr i fun x => { x with inFlight := true, closeAt := s.tick, next := 0 }).request (i / 256) (s.stringBerth i) 5
    (contactorPayload true) (.strClose i)
def State.sendConOpen (s : State) (c attempt : Nat) : State :=
  if !s.mayCommand || (s.conNode c).state != 3 then s
  else if (s.pcon c).inFlight then s.modPcon c fun x => { x with waits := true, sentOpen := true }
  else
    (s.modPcon c fun x => { x with inFlight := true, sentOpen := true }).request (c / 16) (s.containerBerth c) 5
      (contactorPayload false) (.conOpen c attempt)
def State.sendConClose (s : State) (c : Nat) : State :=
  (s.modPcon c fun x => { x with inFlight := true }).request (c / 16) (s.containerBerth c) 5 (contactorPayload true) (.conClose c)
/-- The orderly open starts (R295): limits to 0 W now, CONTACTOR OPEN when the current is small or after 200 ms; while a
close is in flight it waits for the response (R301). -/
def State.startOpen (s : State) (i : Nat) : State :=
  let x := s.pstr i
  if x.opening then s
  else
    let s := s.modPstr i fun x => { x with opening := true, sentOpen := false, openAt := s.tick }
    if x.state = 3 ∨ x.state = 1 then s.strTo i 4 else s
/-- A string's trip (R293): latched TRIPPED with its cause, cell and value, and opened. A close in flight is answered
first and its command completes TRIPPED (R301). -/
def State.tripStr (s : State) (i cause cell : Nat) (value : Rat) (opens : Bool) : State :=
  if (s.pstr i).state = 5 ∨ (s.pstr i).state = 6 then s
  else
    let closing := (s.pstr i).state == 2
    let s := s.modPstr i fun x => { x with state := 5, cause := cause, tripCell := cell, tripValue := value,
                                           shortTrip := none, next := if closing && x.inFlight then 2 else x.next }
    let s := (s.inc R.PLT_TRIPS).raise Ev.STRING_TRIPPED (i / 256) (protData i 5 cause)
    let s := s.flag R.PLT_PROT_EVENT_STATUS_STRING_TRIPPED
    let s := if cause = 6 then
        ((s.inc R.PLT_NODE_TRIPS).raise Ev.NODE_LIMIT_TRIP (i / 256) (protData i 5 cause)).flag R.PLT_PROT_EVENT_STATUS_NODE_LIMIT_TRIP
      else if cause = 8 then s.inc R.PLT_CLOSE_FAILS else s
    let s := s.endOpen i 0x0712
    let s := if (s.pstr i).inFlight then s else s.endClose i 0x0712
    if opens then s.startOpen i else s
/-- A container's trip (R302, R304, R307): latched TRIPPED with its cause. -/
def State.tripCon (s : State) (c cause : Nat) : State :=
  if (s.pcon c).state = 5 then (if cause = 1 then s.modPcon c fun x => { x with cause := 1 } else s)
  else
    let s := if cause = 4 then s.inc R.PLT_CLOSE_FAILS else s
    let (cq, oq) := ((s.pcon c).closeQ, (s.pcon c).openQ)
    let s := s.modPcon c fun x => { x with state := 5, cause := cause, closeQ := none, openQ := none, opensLeft := [] }
    let s := (s.inc R.PLT_BREAKER_TRIPS).raise Ev.BREAKER_TRIPPED (c / 16) (protData c 5 cause)
    let s := s.flag R.PLT_PROT_EVENT_STATUS_BREAKER_TRIPPED
    ((s.completeOpt cq 0x0712 (s.conResult c)).completeOpt oq 0x0712 (s.conResult c))
/-- The branch currents of a container are watched for a string (R307). -/
def State.watchString (s : State) (i : Nat) : State :=
  s.modPcon (i / 16) fun x => { x with watch := tput x.watch (i % 16) 0 }
/-- A string is marked Missing (R305, R307, R308): it wins over every other action (R301). -/
def State.markMissing (s : State) (i : Nat) : State :=
  if (s.pstr i).state = 6 then s
  else
    let s := s.modPstr i fun x => { x with state := 6, opening := false, sentOpen := false, serial := some (s.strNode i).serial,
                                           marked := [], balancing := false, next := 0 }
    let s := (s.inc R.PLT_MISSING_MARKS).raise Ev.STRING_MISSING (i / 256) (protData i 6 (s.pstr i).cause)
    let s := s.flag R.PLT_PROT_EVENT_STATUS_STRING_MISSING
    let s := (s.endClose i 0x0710).endOpen i 0x0710
    ((s.freeze i).startCkpt 3 none).watchString i
/-- Fire interlock seen (R304): the container trips and its closed strings open. -/
def State.fireSeen (s : State) (c : Nat) : State :=
  let s := s.tripCon c 1
  let s := (s.raise Ev.FIRE_INTERLOCK (c / 16) (protData c 5 1)).flag R.PLT_PROT_EVENT_STATUS_FIRE_INTERLOCK
  ((s.stringsOf c).filter fun i => (s.pstr i).state == 3).foldl State.startOpen s
/-- The breaker was last reported closed; its current is small enough to open (R303). -/
def PCon.closed (x : PCon) : Bool := bit x.word 0
/-- The container's breaker has been reported, open. -/
def State.conOpenSeen (s : State) (c : Nat) : Bool := (s.pcon c).seen && !(s.pcon c).closed
def State.smallCurrent (s : State) (c : Nat) : Bool :=
  let closed := (s.stringsOf c).filter fun i => (s.pstr i).state == 3
  let q := closed.map fun i => (s.strType i).elim 0 (·.qNom)
  decide (ratAbs (s.pcon c).busI ≤ ratSum q * 5 / 100)
/-- The breaker is open: the strings follow where they were asked for, and without any CONTAINER_OPEN is done (R303). -/
def State.openStrings (s : State) (c : Nat) : State :=
  let x := s.pcon c
  let todo := if x.withStrings then (s.stringsOf c).filter fun i => (s.pstr i).state == 3 else []
  match todo with
  | [] => (s.modPcon c fun x => { x with openQ := none }).completeOpt x.openQ OK (s.conResult c)
  | i :: rest => (s.modPcon c fun x => { x with opensLeft := rest, openAt := s.tick }).startOpen i
/-- The breaker is reported open after an orderly open (R302, R303). -/
def State.conOpened (s : State) (c : Nat) : State :=
  if (s.pcon c).state ≠ 4 then s
  else ((s.modPcon c fun x => { x with sentOpen := false }).conTo c 1).openStrings c
/-- CONTAINER_OPEN with its strings is done once none of them is left open or opening (R303). -/
def State.conStringsDone (s : State) (c : Nat) : State :=
  let x := s.pcon c
  if x.openQ.isSome && (x.state == 1 || x.state == 5) && x.opensLeft = [] && (s.stringsOf c).all (fun i => !(s.pstr i).opening) then
    (s.modPcon c fun x => { x with openQ := none }).completeOpt x.openQ OK (s.conResult c)
  else s
/-- The contactor byte a string node reported (R298, R305, R309). A close that is cancelled or tripped waits for its response (R301). -/
def State.strReport (s : State) (i contact : Nat) : State :=
  let x := s.pstr i
  let closed := contact % 4 == 3
  let openB := contact % 4 == 0
  let s := if openB && x.state != 6 then s.modPcon (i / 16) fun y => { y with watch := tdel y.watch (i % 16) } else s
  if x.state = 2 ∧ closed ∧ x.next = 0 then
    (((s.modPstr i fun x => { x with closedAt := some s.tick }).strTo i 3).endClose i OK)
  else if openB ∧ (x.opening ∨ x.state = 4) then
    let s := s.modPstr i fun x => { x with opening := false, sentOpen := false }
    let s := if x.state = 4 then s.strTo i 1 else s
    (s.endOpen i OK).conStringsDone (i / 16)
  else s
/-- A Missing string returns (R309): joined, authenticated and both contactors open; a report of closed contactors is
opened first. -/
def State.strReturn (s : State) (i contact : Nat) : State :=
  let x := s.pstr i
  if x.state ≠ 6 ∨ (s.strNode i).state ≠ 3 then s
  else if contact % 4 ≠ 0 then s.startOpen i
  else
    let new := x.serial.any fun n => n != (s.strNode i).serial
    let s := if new then s.toDefaults i else s
    let s := s.modPstr i fun x => { x with state := 1, opening := false, sentOpen := false }
    let s := (s.modEst i fun e => { e with frozenAt := none }).toRest i
    let s := s.modPcon (i / 16) fun c => { c with watch := tdel c.watch (i % 16) }
    s.raise Ev.STRING_RETURNED (i / 256) (protData i 1 x.cause ++ le 1 (b2n new))

/-! ## Closing (R297 to R300, R302) -/

/-- The close preconditions of a string but for the voltage window (R299, R300). -/
def State.closeReady (s : State) (i : Nat) : Bool :=
  let x := s.pstr i
  let e := s.estStr i
  let c := i / 16
  let t := s.strType i
  (s.strNode i).state == 3 && x.state == 1 && s.intent i && !x.opening && !x.inFlight && (e.state == 2 || e.state == 3) &&
  (e.cells.all fun k => bit k.lastT 15 || bit k.lastT 12 ||
    (decide ((t.elim 0 (·.vMin)) ≤ (k.lastV : Rat) / 10000) && decide ((k.lastV : Rat) / 10000 ≤ t.elim 0 (·.vMax)))) &&
  (e.cells.all fun k => decide (s.tripLowT ≤ k.temp) && decide (k.temp ≤ s.tripHighT)) &&
  (s.conNode c).state == 3 && !bit (s.pcon c).word 3 &&
  (s.stringsOf c).all (fun j => (s.pstr j).state != 2) &&
  (s.stringsOf c).all (fun j => (s.pstr j).closedAt.all fun t => decide (t + 20000 ≤ s.tick))
/-- The voltage window of R299. -/
def State.closeWindow (s : State) (i : Nat) : Bool :=
  let c := i / 16
  ((s.stringsOf c).all (fun j => (s.pstr j).state != 3 && (s.estStr j).contact % 4 != 3) && s.conOpenSeen c) ||
  decide (ratAbs ((s.estStr i).voltage - (s.pcon c).busV) ≤ 4)
/-- A close started where its preconditions hold; a string outside the voltage window alone shows WAIT_VOLTAGE, until another fails. -/
def State.tryClose (s : State) (i : Nat) : State :=
  if s.underway && s.mayCommand && s.closeReady i then
    if s.closeWindow i then
      let s := (s.modPstr i fun x => { x with waitVolt := false, waitSince := none }).strTo i 2
      s.sendStrClose i
    else s.modPstr i fun x => { x with waitVolt := true, waitSince := some (x.waitSince.getD s.tick) }
  else if (s.pstr i).waitSince.isSome then s.modPstr i fun x => { x with waitVolt := false, waitSince := none }
  else s
/-- A breaker close where its conditions hold (R302). -/
def State.tryCloseCon (s : State) (c : Nat) : State :=
  let x := s.pcon c
  if s.underway && s.mayCommand && x.state == 1 && s.intentCon c && (s.conNode c).state == 3 && !bit x.word 3 && !x.inFlight &&
     (s.stringsOf c).any (fun i => (s.pstr i).state == 3) then
    (s.modPcon c fun x => { x with openAt := s.tick }).conTo c 2 |>.sendConClose c
  else s
/-- The orderly open of a container starts (R303). -/
def State.startOpenCon (s : State) (c : Nat) (withStrings : Bool) : State :=
  (s.modPcon c fun x => { x with sentOpen := false, openAt := s.tick, withStrings := withStrings, opensLeft := [] }).conTo c 4

/-! ## Completions and notes -/

/-- The status word a container node reported at 0x1000 (R306), with what follows from a change of the breaker, the fire
interlock and the thermal plant (R302, R304, R315). -/
def State.conWord (s : State) (c w : Nat) : State :=
  let old := s.pcon c
  let s := s.modPcon c fun x => { x with word := w, seen := true }
  let s := if bit w 3 && !bit old.word 3 then s.fireSeen c else s
  let s := if bit w 6 && !bit old.word 6 then
      ((s.modPcon c fun x => { x with thermBlock := true }).raise Ev.THERMAL_FAULT (c / 16) (protData c (s.pcon c).state (s.pcon c).cause)).flag
        R.PLT_PROT_EVENT_STATUS_THERMAL_FAULT
    else s
  let x := s.pcon c
  let s := if x.state = 2 ∧ bit w 0 then
      ((s.modPcon c fun x => { x with closeQ := none }).conTo c 3).completeOpt x.closeQ OK (3 + 16 * x.cause)
    else if x.state = 4 ∧ !bit w 0 then s.conOpened c
    else if x.state = 6 ∧ (s.conNode c).state = 3 then s.conTo c (if bit w 0 then 3 else 1)
    else if x.state = 3 ∧ !bit w 0 then s.conTo c 1
    else s
  -- a breaker that closes ends the manual off mode (R315)
  s.modPcon c fun x => if bit w 0 && x.manual == 2 then { x with manual := 0 } else x
/-- A close that STRING_OPEN cancels: it completes CANCELLED, and OPEN is sent (R301). -/
def State.cancelClose (s : State) (i : Nat) : State :=
  let s := s.endClose i 0x0710
  if (s.pstr i).state = 2 then (s.modPstr i fun x => { x with opening := false }).startOpen i |>.strTo i 4 |>.sendStrOpen i 1 else s
/-- A string's CLOSE has been answered (R298, R301). -/
def State.strCloseDone (s : State) (i status contact : Nat) : State :=
  let x := s.pstr i
  let s := s.modPstr i fun x => { x with inFlight := false, next := 0, waits := false }
  if x.next = 1 then s.cancelClose i
  else if x.next = 2 then (s.endClose i 0x0712).sendStrOpen i 1
  else if x.state ≠ 2 then (if x.waits then s.sendStrOpen i 1 else s)
  else if status = OK then s.strReport i contact
  else
    let s := s.modPstr i fun x => { x with closeQ := none }
    (s.tripStr i 8 0 0 false).completeOpt x.closeQ (if status = 0x0506 then 0x0713 else status) (5 + 16 * 8)
/-- An OPEN has failed for good: the string is treated as R307 describes, and the commands that wait for it end with the status. -/
def State.openFailed (s : State) (i status : Nat) : State :=
  let c := i / 16
  let s := ((s.modPstr i fun x => { x with opening := false, sentOpen := false }).watchString i).endOpen i status
  let x := s.pcon c
  if x.openQ.isSome && x.withStrings && x.state != 4 then
    (s.modPcon c fun x => { x with openQ := none }).completeOpt x.openQ status (s.conResult c)
  else s
/-- A string's OPEN has been answered (R295): sent again once, then treated as R307 describes. -/
def State.strOpenDone (s : State) (i attempt status contact : Nat) : State :=
  let waits := (s.pstr i).waits
  let s := s.modPstr i fun x => { x with inFlight := false, waits := false }
  if status = OK then
    let s := s.strReport i contact
    if waits && (s.pstr i).opening then s.sendStrOpen i 1 else s
  else if attempt = 1 ∧ (status = 0x0502 ∨ status = 0x0501) then s.sendStrOpen i 2
  else s.openFailed i status
/-- The status that ends a breaker command whose node is not JOINED (R302, R307, R317). -/
def State.goneStatus (s : State) (c : Nat) : Nat :=
  match (s.conNode c).state with
  | 4 => 0x0713
  | 6 => 0x0503
  | _ => 0x0505
/-- CONTAINER_OPEN ends where its breaker cannot be commanded any more. -/
def State.conGone (s : State) (c : Nat) : State :=
  let x := s.pcon c
  if x.openQ.isSome && x.state == 6 && !x.inFlight then
    (s.modPcon c fun x => { x with openQ := none }).completeOpt x.openQ (s.goneStatus c) (s.conResult c)
  else s
/-- What a completed transaction brings its requester (R222). -/
def State.txnDone (s : State) (x : Txn) (status : Nat) (payload : List Byte) : State :=
  let contact := u8 payload 4
  match x.use with
  | .plain => s
  | .sample => s
  | .auth => s
  | .sec _ _ => s
  | .queue q =>
    if status = OK ∧ x.typ = 2 then s.complete q OK (uAt payload 4 8)
    else s.complete q status (if status = 0x0501 then 0x0501 + 2 ^ 16 * u16 payload 0 else status)
  | .strClose i => s.strCloseDone i status contact
  | .strOpen i k => s.strOpenDone i k status contact
  | .conClose c =>
    let waits := (s.pcon c).waits
    let s := s.modPcon c fun y => { y with inFlight := false, waits := false }
    if waits then s.sendConOpen c 1
    else if (s.pcon c).state ≠ 2 then s
    else if status = OK then (if bit contact 0 then s.conWord c ((s.pcon c).word / 2 * 2 + 1) else s)
    else
      let q := (s.pcon c).closeQ
      ((s.modPcon c fun y => { y with closeQ := none }).tripCon c 4).completeOpt q (if status = 0x0506 then 0x0713 else status) (5 + 16 * 4)
  | .conOpen c k =>
    let waits := (s.pcon c).waits
    let s := s.modPcon c fun y => { y with inFlight := false, waits := false }
    if status = OK ∧ waits = true ∧ bit contact 0 = true then s.sendConOpen c 1
    else if status = OK then (if bit contact 0 then s else s.conWord c ((s.pcon c).word / 2 * 2))
    else if k = 1 ∧ (status = 0x0502 ∨ status = 0x0501) then s.sendConOpen c 2
    else
      let q := (s.pcon c).openQ
      ((s.modPcon c fun y => { y with openQ := none }).tripCon c 2).completeOpt q status (5 + 16 * 2)
  | .conStatus c =>
    if status = OK then
      let v := f32? (BitVec.ofNat 32 (u32 payload 8))
      let i := f32? (BitVec.ofNat 32 (u32 payload 12))
      let s := s.modPcon c fun y => { y with busV := v.getD y.busV, busI := i.getD y.busI }
      let s := s.modNode x.xng x.berth fun y => { y with contact := some (u32 payload 4 % 8) }
      let s := (s.conWord c (u32 payload 4)).tryCloseCon c
      (s.stringsOf c).foldl (fun s i => if (s.pstr i).waitSince.isSome then s.tryClose i else s) s
    else s
  | .conCurrent c =>
    if status = OK then
      let s := s.modPcon c fun y => { y with busI := (f32? (BitVec.ofNat 32 (u32 payload 4))).getD y.busI }
      if (s.pcon c).state = 4 ∧ !(s.pcon c).sentOpen ∧ s.smallCurrent c then s.sendConOpen c 1 else s
    else s
  | .conBranch c =>
    if status = OK then
      let s := s.modPcon c fun y =>
        { y with watch := y.watch.map fun p =>
            let lim := (s.strType (c * 16 + p.1)).elim 0 (·.qNom) * 2 / 100
            let i := f32? (BitVec.ofNat 32 (u32 payload (4 + 4 * p.1)))
            (p.1, if i.any fun a => decide (lim ≤ ratAbs a) then p.2 + 1 else 0) }
      if (s.pcon c).state ≠ 5 ∧ (s.pcon c).watch.any (fun p => decide (10 ≤ p.2)) then
        (s.sendConOpen c 1).tripCon c 3
      else s
    else s
/-- What protection does with a node's new state: 0 LOST by missed sweeps, 1 LOST without a path, 2 LEFT by itself,
3 LEFT by command, 4 JOINED, 5 QUARANTINED (R302, R305, R309, R310, R275). -/
def State.noteDone (s : State) (n b what : Nat) : State :=
  let s := if what < 4 then s.restoreApplied else s
  match s.stringAt n b, s.containerAt n b with
  | some i, _ =>
    if what = 0 then s.markMissing i
    else if what = 2 then (if (s.pstr i).state = 6 then s.startCkpt 3 none else s.markMissing i)
    else if what = 3 then s.startCkpt 3 none
    else if what = 5 ∧ (s.pstr i).state = 3 ∧ !s.evac then s.startOpen i
    else s
  | none, some c =>
    let s := if what = 2 ∨ what = 3 then s.startCkpt 3 none else s
    if what = 4 then s.request n b 2 (readPayload 0x1000 8) (.conStatus c)
    else if (s.pcon c).closed ∧ (s.pcon c).state ≠ 5 then (s.conTo c 6).conGone c else s
  | none, none => if what = 2 ∨ what = 3 then s.startCkpt 3 none else s
/-- The completions and notes that wait are acted on, oldest first; those that this itself brings follow, `k` rounds. -/
def State.settleN : Nat → State → State
  | 0, s => s
  | k + 1, s =>
    let (d, n) := (s.xng.done, s.xng.notes)
    if d = [] ∧ n = [] then s
    else
      let s := { s with xng := { s.xng with done := d.filter (fun x => match x.1.use with
                                              | .sec _ _ => true
                                              | _ => false), notes := [] } }
      let s := d.foldl (fun s x => s.txnDone x.1 x.2.1 x.2.2) s
      State.settleN k (n.foldl (fun s x => s.noteDone x.1 x.2.1 x.2.2) s)
def State.settle (s : State) : State := s.settleN 3

/-! ## Judgement of an applied sweep (R293) -/

/-- A count of sweeps in a row, held at 1,000. -/
def row (ok : Bool) (n : Nat) : Nat := if ok then min 1000 (n + 1) else 0
/-- A condition's start and sweeps in a row. -/
def since (ok : Bool) (t : Nat) (x : Option (Nat × Nat)) : Option (Nat × Nat) :=
  if ok then some (match x with
    | none => (t, 1)
    | some (a, n) => (a, n + 1)) else none
/-- 10 s and at least 10 sweeps have passed. -/
def longRow (t : Nat) (x : Option (Nat × Nat)) : Bool := x.any fun p => decide (p.1 + 10000000000 ≤ t) && decide (10 ≤ p.2)
/-- The first cell that a predicate picks, with its number. -/
def firstCell (cells : List Cell) (p : Cell → Bool) : Option (Nat × Cell) :=
  match cells.findIdx? p with
  | some k => (cells[k]?).map fun c => (k, c)
  | none => none
def Cell.volts (c : Cell) : Rat := (c.lastV : Rat) / 10000
def Cell.vOk (c : Cell) : Bool := !bit c.lastT 15 && !bit c.lastT 12
def Cell.tOk (c : Cell) : Bool := !bit c.lastT 14
/-- The condition of a cause on the last applied sweep (R293, R296): that of NODE_TRIP holds only of a string that is held closed. -/
def State.causeHolds (s : State) (i cause : Nat) : Bool :=
  let e := s.estStr i
  match cause with
  | 1 => e.cells.any fun c => c.vOk && decide (s.tripHighV < c.volts)
  | 2 => e.cells.any fun c => c.vOk && decide (c.volts < s.tripLowV)
  | 3 => e.cells.any fun c => decide (s.tripHighT < c.temp) ||
      (decide (c.temp < s.tripLowT) && decide ((s.strType i).elim 0 (fun t => t.restC * t.qNom) < e.current))
  | 4 => e.cells.any fun c => !c.vOk
  | 5 => (List.range 16).any fun m => ((e.cells.drop (16 * m)).take 16).all fun c => !c.tOk
  | 6 => bit (s.strNode i).status 2 && (s.pstr i).state == 3
  | 7 => bit e.contact 3
  | 9 => e.cells.any fun c => bit c.flags 11
  | 10 => decide (s.tripChg < e.current) || decide (s.tripDis < -e.current)
  | _ => false
/-- An OVERCURRENT block in a direction (R293): the fifth within 1 h trips. None is counted while one is in force (log 41). -/
def State.overBlock (s : State) (i : Nat) (chg : Bool) : State :=
  let x := s.pstr i
  let blocks := (x.blocks.filter fun t => decide (s.tick < t + 360000000)) ++ [s.tick]
  let s := s.setPstr i { x with blocks := blocks, chgBlock := x.chgBlock || chg, disBlock := x.disBlock || !chg, nChg := 0, nDis := 0 }
  let s := s.raise Ev.DIRECTION_BLOCKED (i / 256) (protData i x.state 10 ++ le 1 (b2n (!chg)))
  if 5 ≤ blocks.length then s.tripStr i 10 0 (s.estStr i).current true else s
/-- CONTACTOR OPEN goes out once the current of the last applied sweep is at or below the open threshold (R295). -/
def State.strOpenNow (s : State) (i : Nat) : State :=
  let x := s.pstr i
  if x.opening && !x.sentOpen && decide (ratAbs (s.estStr i).current ≤ (s.strType i).elim 0 (·.qNom) * 5 / 100) then s.sendStrOpen i 1 else s
/-- The conditions of R293 judged on the sweep just applied at sample time t, with the orderly open's threshold (R295) and
the Missing condition of R305. -/
def State.judge (s : State) (i t : Nat) : State :=
  let e := s.estStr i
  let ty := s.strType i
  let q := ty.elim 0 (·.qNom)
  let hot := e.cells.any fun c => decide (s.tripHighT < c.temp)
  let cold := e.cells.any fun c => decide (c.temp < s.tripLowT)
  let chargeNow := decide ((ty.elim 0 (·.restC)) * q < e.current)
  let hasOpen := e.contact % 4 == 0
  let x := s.pstr i
  let s := s.setPstr i { x with
    nOv := row (s.causeHolds i 1) x.nOv, nUv := row (s.causeHolds i 2) x.nUv, nHot := row hot x.nHot, nCold := row cold x.nCold,
    nColdChg := row (cold && chargeNow) x.nColdChg, nAux := row (s.causeHolds i 7) x.nAux,
    nChg := row (decide (s.tripChg < e.current)) x.nChg, nDis := row (decide (s.tripDis < -e.current)) x.nDis,
    nOpen := row (hasOpen && decide (q * 2 / 100 ≤ ratAbs e.current)) x.nOpen,
    measAt := since (s.causeHolds i 4) t x.measAt, tempAt := since (s.causeHolds i 5) t x.tempAt }
  let s := (s.strReturn i e.contact).strReport i e.contact
  let x := s.pstr i
  if x.state = 6 then s.strOpenNow i
  else if 2 ≤ x.nOpen then s.markMissing i
  else
    let pick := fun (p : Cell → Bool) => (firstCell e.cells p).elim (0, Cell.zero) id
    let ov := pick fun c => c.vOk && decide (s.tripHighV < c.volts)
    let uv := pick fun c => c.vOk && decide (c.volts < s.tripLowV)
    let ot := pick fun c => decide (s.tripHighT < c.temp)
    let lt := pick fun c => decide (c.temp < s.tripLowT)
    let s :=
      if 2 ≤ x.nOv then s.tripStr i 1 (i * 256 + ov.1) ov.2.volts true
      else if 2 ≤ x.nUv then s.tripStr i 2 (i * 256 + uv.1) uv.2.volts true
      else if 2 ≤ x.nHot then s.tripStr i 3 (i * 256 + ot.1) ot.2.temp true
      else if 2 ≤ x.nColdChg then s.tripStr i 3 (i * 256 + lt.1) lt.2.temp true
      else if longRow t x.measAt then s.tripStr i 4 (i * 256 + (pick fun c => !c.vOk).1) 0 true
      else if longRow t x.tempAt then s.tripStr i 5 (i * 256 + (pick fun c => !c.tOk).1) 0 true
      else if s.causeHolds i 6 then s.tripStr i 6 0 0 false
      else if 2 ≤ x.nAux then (s.tripStr i 7 0 0 true).watchString i
      else s
    let s := if 2 ≤ x.nCold && !x.coldBlock then
        (s.modPstr i fun x => { x with coldBlock := true }).raise Ev.DIRECTION_BLOCKED (i / 256) (protData i x.state 3 ++ le 1 0)
      else if !cold then s.modPstr i fun x => { x with coldBlock := false } else s
    let s := if 3 ≤ x.nChg && !x.chgBlock then s.overBlock i true else s
    let s := if 3 ≤ x.nDis && !x.disBlock then s.overBlock i false else s
    s.strOpenNow i

/-! ## Short circuits, quarantine and evacuation (R310, R311) -/

/-- A SHORT trip: at once, or held until evacuation operation ends. -/
def State.shortTrip (s : State) (i cell : Nat) (excess : Rat) : State :=
  if s.evac then (s.modPstr i fun x => { x with shortTrip := some (cell, excess) }).wrB R.PLT_PROT_STATUS_TRIPS_DEFERRED true
  else s.tripStr i 9 cell excess true
/-- The end of evacuation operation: deferred SHORT trips act, closed quarantined strings open, balancing may run. -/
def State.protEvacEnd (s : State) : State :=
  let s := s.wrB R.PLT_PROT_STATUS_TRIPS_DEFERRED false
  s.strings.foldl (fun s i =>
    let s := match (s.pstr i).shortTrip with
      | some (c, e) => s.tripStr i 9 c e true
      | none => s
    if (s.pstr i).state = 3 ∧ (s.strNode i).state = 4 then s.startOpen i else s) s
/-- The string qualifies for balancing (R312). -/
def State.mayBalance (s : State) (i : Nat) : Bool :=
  let e := s.estStr i
  let x := s.pstr i
  match s.strType i with
  | none => false
  | some t => e.state == 3 && (e.cells.all fun c => c.ready t) && (s.strNode i).state == 3 && (x.state == 3 || x.state == 1) &&
      decide (-(t.restC * t.qNom) ≤ e.current) && !s.evac && s.rd R.PLT_BALANCE_INHIBIT % 2 == 0
/-- BALANCE to a string (R216). -/
def State.sendBalance (s : State) (i : Nat) (marked : List Nat) (secs : Nat) : State :=
  if s.mayCommand then
    let mask := (List.range 32).map fun b => BitVec.ofNat 8 ((List.range 8).foldl (fun v k => if marked.contains (8 * b + k) then v + 2 ^ k else v) 0)
    s.request (i / 256) (s.stringBerth i) 4 (mask ++ le 2 secs ++ le 2 0) .plain
  else s
/-- A string that stops qualifying is sent a duration of 0 (R313). -/
def State.stopBalance (s : State) (i : Nat) : State :=
  if (s.pstr i).balancing then (s.modPstr i fun x => { x with balancing := false, marked := [] }).sendBalance i [] 0 else s
/-- Every balancing string that no longer qualifies is stopped, and BALANCING_STOPPED shows why (R312, R313). -/
def State.balanceCheck (s : State) : State :=
  let s := s.wrB R.PLT_PROT_STATUS_BALANCING_STOPPED (s.evac || s.rd R.PLT_BALANCE_INHIBIT % 2 == 1)
  s.strings.foldl (fun s i => if (s.pstr i).balancing && !s.mayBalance i then s.stopBalance i else s) s
/-- The protection limits that dispatch keeps to (R295, R298): charge and discharge allowed. -/
def State.strAllowed (s : State) (i : Nat) : Bool × Bool :=
  let x := s.pstr i
  let on := x.state == 3 && !x.opening
  (on && !x.chgBlock && !x.coldBlock, on && !x.disBlock)
/-- The container's limits (R302, R306, R315): charge and discharge allowed. Without its node JOINED, uncontrolled strings keep both at
0 W (R307). -/
def State.conAllowed (s : State) (c : Nat) : Bool × Bool :=
  let x := s.pcon c
  if x.state = 3 then (!x.thermBlock, true) else if x.state = 6 then (false, s.evac && x.watch == []) else (false, false)
/-- The 1 ms work of protection: strings that CONTAINER_OPEN opens follow 200 ms apart (R303), a STRING_CLOSE held off by
the voltage window for 60 s completes VOLTAGE_WINDOW (R316). -/
def State.protCycle (s : State) : State :=
  let s := s.prot.con.foldl (fun s p =>
    match p.2.opensLeft with
    | [] => s
    | i :: rest => if p.2.openAt + 20000 ≤ s.tick
                   then (s.modPcon p.1 fun x => { x with opensLeft := rest, openAt := s.tick }).startOpen i else s) s
  s.prot.str.foldl (fun s p =>
    let s := if p.2.waitSince.isSome && !s.closeReady p.1 then s.modPstr p.1 fun x => { x with waitVolt := false, waitSince := none } else s
    match (s.pstr p.1).waitSince with
    | some t => if p.2.closeQ.isSome && decide (t + 6000000 ≤ s.tick) then s.endClose p.1 0x0711 else s
    | none => s) s

end Sys2Proof.Machine
end

