-- ==== Sys2Proof/Machine/SecNode.lean ====
section
/-!
DEFINITION. Node certificates (R233, R675) and the steps of node enrolment (R676), with the settling of every completed
transaction.
-/
namespace Sys2Proof.Machine
open Sys2Proof

/-- The key stored in a slot, and the key identifier of a key (R44). -/
def State.key (s : State) (slot : Nat) : List Byte := tgetD s.nv.keys slot []
/-- The certificate verifies under the plant key of slot 3 and names this plant and the node's serial (R233 check 4). -/
def State.certOk (s : State) (cert : List Byte) (serial : Nat) : Bool :=
  u64 cert 8 == s.plantIdent && u64 cert 0x10 == serial &&
  Config.ecdsaVerify (s.key 3) (Config.sha384 (cert.take 0x68)) ((cert.drop 0x68).take 96)
/-- A certificate is held: its magic is "NCRT" (R675). -/
def certHeld (cert : List Byte) : Bool := cert.take 4 == [0x4E#8, 0x43#8, 0x52#8, 0x54#8]
/-- A request's signature verifies under the node key it carries (R675). -/
def requestOk (req : List Byte) : Bool :=
  req.take 4 == [0x4E#8, 0x52#8, 0x45#8, 0x51#8] &&
  Config.ecdsaVerify ((req.drop 0x20).take 64) (Config.sha256 (req.take 0x68)) ((req.drop 0x68).take 64)
/-- The 256 bytes of the staging buffer, and bytes copied into it from its start (R677). -/
def State.stageBytes (s : State) : List Byte := (List.range 64).flatMap fun i => le 4 (tgetD s.sec.stage i 0#32).toNat
def State.stagePut (s : State) (b : List Byte) : State :=
  { s with sec := { s.sec with stage := (List.range ((b.length + 3) / 4)).foldl (fun m i => tput m i (BitVec.ofNat 32 (u32 b (4 * i)))) s.sec.stage } }
/-- WRITE to a node register. -/
def writePayload (addr : Nat) (data : List Byte) : List Byte := le 4 addr ++ le 2 (data.length / 4) ++ le 2 0 ++ data
/-- The end of an enrolment (R676): counted, recorded, posted, and the node authenticated anew. -/
def State.enrolled (s : State) (n b q : Nat) (cert : List Byte) : State :=
  let s := s.modNode n b fun x => { x with cert := cert, enrolled := true }
  let s := ((s.inc R.SEC_ENROLMENTS).raise Ev.NODE_ENROLLED n (le 1 n ++ le 2 b)).challenge n b
  s.complete q OK 0
/-- What a completed frame of READ_NODE_REQUEST (step 0) or ENROL_NODE (steps 1 to 3) brings. -/
def State.secDone (s : State) (x : Txn) (status : Nat) (payload : List Byte) : State :=
  match x.use with
  | .sec q step =>
    if status ≠ OK then s.complete q status status
    else
      let cert := (s.stageBytes).take 200
      match step with
      | 0 =>
        let req := (payload.drop 4).take 200
        if requestOk req then (s.stagePut req).complete q OK 0 else s.complete q 0x0212 0
      | 1 => s.request x.xng x.berth 3 (writePayload 0x18 (le 8 s.plantIdent)) (.sec q 2)
      | 2 => s.request x.xng x.berth 3 (writePayload 0x100 cert) (.sec q 3)
      | _ => s.enrolled x.xng x.berth q cert
  | _ => s
/-- Every completion that waits is acted on: protection's and Helm's first, then the enrolments'. -/
def State.settled (s : State) : State :=
  let s := s.settle
  let d := s.xng.done.filter fun x => match x.1.use with
    | .sec _ _ => true
    | _ => false
  let s := { s with xng := { s.xng with done := s.xng.done.filter fun x => match x.1.use with
                                          | .sec _ _ => false
                                          | _ => true } }
  (d.foldl (fun s x => s.secDone x.1 x.2.1 x.2.2) s).settle

end Sys2Proof.Machine
end

