-- ==== Sys2Proof/Machine/Xng.lean ====
section
/-!
DEFINITION. The crossing commands and events (R194 to R245): one meaning per row.
-/
namespace Sys2Proof.Machine
open Sys2Proof

/-! ## Hops (R196, R198, R202 to R204) -/

/-- Every hop of the ring has trained but those that its breaks hold down. -/
def State.ringUp (s : State) (n : Nat) : Bool := let st := s.ringState n; st == 2 || st == 3 || st == 4
/-- A ring that has come up, whole or broken, is discovered by census (R230). -/
def State.censusIfUp (s : State) (n : Nat) (was : Bool) : State :=
  if was = false ∧ s.ringUp n = true ∧ s.sleepState n = 0 then s.discover n 1 else s
/-- R196: a hop trains at the lower of the two generations advertised, or at 1 while it is held there. -/
def State.hopTrained (s : State) (n hop : Nat) (endB : Bool) (genA genB : Nat) : State :=
  let was := s.ringUp n
  let s := s.modRing n fun r =>
    { r with hops := tput r.hops hop (if r.slow.contains hop then 1 else min genA genB),
             lastHop := if endB then some hop else r.lastHop }
  let s := s.replan n
  ((s.censusIfUp n was).wakeTrained n).settled
def execHopTrained (n hop : Nat) (endB : Bool) (genA genB : Nat) (s : State) : Res State :=
  if s.portsUp && s.xngUsed n then .next (s.hopTrained n hop endB genA genB) else .next s

/-- R196: a hop of generation 2 with more than 16 errors in 1 s retrains at generation 1 and stays there. -/
def State.hopFallback (s : State) (n hop : Nat) : State :=
  let s := s.modRing n fun r => { r with hops := tput r.hops hop 1, slow := hop :: r.slow }
  ((s.xngEvent Ev.HOP_FALLBACK n 0x1FF (le 2 hop)).flag (R.XNG_EVENT_STATUS_HOP_FALLBACK n)).replan n
def execHopErrorFallback (n hop : Nat) (s : State) : Res State :=
  if s.portsUp && tget (s.ring n).hops hop == some 2 then .next (s.hopFallback n hop) else .next s

/-- R198, R202: a hop loses its signal: it is down until it trains, no longer held at generation 1, and the ring is
served around it. -/
def State.hopLost (s : State) (n k : Nat) : State :=
  let was := s.ringUp n
  let s := (s.modRing n fun r => { r with hops := tdel r.hops k, slow := r.slow.erase k }).breakAt n k
  ((s.censusIfUp n was).wakeTrained n).settled
/-- The hops carry signal: the crossing is not asleep. -/
def State.carrier (s : State) (n : Nat) : Bool := s.portsUp && s.xngUsed n && s.sleepState n != 3
/-- The hop at end A or B. -/
def State.endHop (s : State) (n : Nat) (endB : Bool) : Nat :=
  if endB then (s.ring n).lastHop.getD (((s.declared n).map (·.1)).getLast?.getD 0x1FE) else 0x1FE
def execHopDown (n : Nat) (endB : Bool) (s : State) : Res State :=
  if s.carrier n then .next (s.hopLost n (s.endHop n endB)) else .next s

/-- R198: the link fault set names a berth and the side of it that failed: the hop is named by the berth on its end-A
side. -/
def State.faultHop (s : State) (n berth : Nat) (towardB : Bool) : Nat :=
  if towardB then berth
  else ((((s.declared n).map (·.1)).filter fun b => decide (b < berth)).getLast?).getD 0x1FE
def execLinkFaultReceived (n berth : Nat) (towardB : Bool) (s : State) : Res State :=
  if s.carrier n then .next (s.hopLost n (s.faultHop n berth towardB)) else .next s

/-- The JOINED and QUARANTINED nodes have lost their link: they are challenged when they next answer discovery (R234). -/
def State.suspectAll (s : State) (n : Nat) : State := s.modRing n fun r => { r with suspect := s.sleepVoters n }
/-- R204: a hop up again and free of errors for 1 s heals its break; with the last break gone the ring's split and
nominal rates are restored, RING_HEALED is posted and a census is sent (R230). -/
def State.ringHeal (s : State) (n hop : Nat) : State :=
  let s := ((s.modRing n fun r => { r with breaks := r.breaks.erase hop }).suspectAll n).replan n
  if (s.ring n).breaks = [] then (s.xngEvent Ev.RING_HEALED n 0x1FF []).discover n 1 else s.discover n 1
def execRingHeal (n hop : Nat) (s : State) : Res State :=
  if s.portsUp && (s.ring n).breaks.contains hop && (tget (s.ring n).hops hop).isSome then .next (s.ringHeal n hop)
  else .next s

/-! ## Presence and discovery -/

/-- R218: a presence frame, a broadcast READ of 0 words, while the crossing is awake, the application watchdog runs and the presence
permit has been renewed within 40 ms. -/
def execPresenceTimer (n : Nat) (s : State) : Res State :=
  if s.portsUp && s.xngUsed n && s.awake n && s.on R.PWR_WATCHDOG_STATUS_RUNNING && decide (s.tick ≤ (s.ring n).permit + 4000)
  then .next (s.broadcast n 2 (readPayload 0 0)) else .next s

/-- R230: mode 0 discovery while a declared berth is ABSENT or LOST. -/
def execJoinDiscoveryTimer (n : Nat) (s : State) : Res State :=
  if s.portsUp && s.xngUsed n && s.awake n &&
     (s.declared n).any (fun p => (s.node n p.1).state == 1 || (s.node n p.1).state == 5)
  then .next (s.discover n 0) else .next s

/-! ## Joining and authentication (R229 to R236) -/

/-- The facts of a JOIN response (R231), 236 bytes. A hop index counted from end B is converted to ring order (R230) by the number of
declared berths plus 1, nodes at undeclared berths not counted (DESIGN CHOICE, log 103). -/
structure JoinFacts where
  hop : Nat
  berth : Nat
  ntype : Nat
  serial : Nat
  standGen : Nat
  cert : List Byte
  deriving DecidableEq, Repr
def State.joinFacts (s : State) (n : Nat) (endB : Bool) (p : List Byte) : JoinFacts :=
  let h := u16 p 4
  { hop := if endB then (s.declared n).length + 1 - h else h, berth := u16 p 6 % 512, ntype := u8 p 8, serial := u64 p 0x10,
    standGen := u32 p 0x20, cert := (p.drop 0x24).take 200 }
/-- The berth breaks strict ring order against the hop indices of the nodes that have answered (R233 check 2). -/
def State.outOfOrder (s : State) (n : Nat) (f : JoinFacts) : Bool :=
  (s.ring n).nodes.any fun p =>
    p.1 != f.berth && (p.2.state == 2 || p.2.state == 3 || p.2.state == 4) && decide (p.1 < 272) &&
    ((decide (p.1 < f.berth) && decide (f.hop ≤ p.2.hop)) || (decide (f.berth < p.1) && decide (p.2.hop ≤ f.hop)))
/-- The checks of R233 that need no signature of the node: berth declared, ring order, certificate held, certificate. The
berth value of a node that holds none is judged by check 3 (log 12). -/
def State.joinCheck (s : State) (n : Nat) (f : JoinFacts) : Nat :=
  if f.berth = 0x1FD then 3
  else if (s.declaredAt n f.berth).isNone then 1
  else if s.outOfOrder n f then 2
  else if certHeld f.cert = false then 3
  else if s.certOk f.cert f.serial = false then 4
  else 0
/-- A REDISCOVER counts the node among those that have answered its census. -/
def State.censusAnswer (s : State) (n b : Nat) : State :=
  s.modRing n fun r => { r with census := r.census.map fun c => (c.1, c.2.1, if c.2.2.contains b then c.2.2 else b :: c.2.2) }
/-- A node that is known already answers discovery: it is challenged where it had lost its link (R234). -/
def State.joinAgain (s : State) (n : Nat) (j : JoinFacts) : State :=
  let s := s.modNode n j.berth fun x => { x with hop := j.hop, cert := j.cert }
  if (s.ring n).suspect.contains j.berth && (s.node n j.berth).state != 2 then
    (s.modRing n fun r => { r with suspect := r.suspect.erase j.berth }).challenge n j.berth
  else s
/-- R231: a node answers discovery. One that is known under its serial stays as it is; any other is judged, and authenticates or is
quarantined. It is served as the split has it (R200), at its rate under the rate factor of its path (R228). -/
def State.joinResponse (s : State) (n : Nat) (endB : Bool) (f : Rx) : State :=
  let j := s.joinFacts n endB f.payload
  let x := s.node n j.berth
  let s := s.censusAnswer n j.berth
  if (x.state = 3 ∨ x.state = 4 ∨ x.state = 2) ∧ x.serial = j.serial ∧ x.serial ≠ 0 then s.joinAgain n j
  else
    let s := s.setNode n j.berth { x with ntype := j.ntype, hop := j.hop, serial := j.serial, standGen := j.standGen, cert := j.cert,
                                          standing := [], rxSeq := some f.seq, byB := endB, state := 2, reason := 0 }
    let s := s.replan n
    match s.joinCheck n j with
    | 0 => s.challenge n j.berth
    | k => s.quarantine n j.berth k
def execJoinResponse (n : Nat) (endB : Bool) (frame : List Byte) (s : State) : Res State :=
  if s.portsUp && s.xngUsed n then
    match s.receive n frame [0x0E] with
    | (s, some f) => if f.payload.length = 236 ∧ bit f.flags 0 = true then .next (s.joinResponse n endB f).settled else .next s
    | (s, none) => .next s
  else .next s

/-- The outcome of a challenge told to a REAUTHENTICATE that waits for it, and to a waking ring. -/
def State.authEnded (s : State) (n b : Nat) (passed : Bool) : State :=
  (((s.challengeDone n b).reauthOne n b passed).wakeCheck n).settled
/-- The signature of R232: over SHA-256 of challenge, plant identity, berth and serial, by the key of the certificate. -/
def State.signatureOk (s : State) (n b : Nat) (chal sig : List Byte) : Bool :=
  let x := s.node n b
  Config.ecdsaVerify ((x.cert.drop 0x20).take 64)
    (Config.sha256 (chal ++ le 8 s.plantIdent ++ le 2 b ++ le 8 x.serial)) sig
/-- The first failing check of R233 at the answer to a challenge; 0 where none fails. -/
def State.authCheck (s : State) (n b : Nat) (chal sig : List Byte) : Nat :=
  let x := s.node n b
  let j : JoinFacts := ⟨x.hop, b, x.ntype, x.serial, x.standGen, x.cert⟩
  let k := s.joinCheck n j
  if k ≠ 0 then k
  else if s.signatureOk n b chal sig = false then 5
  else if (s.declaredAt n b).any fun d => d.1 != x.ntype then 6
  else 0
/-- A node has passed its authentication: it is JOINED, but one in quarantine only once it has been enrolled (R229). -/
def State.authPassed (s : State) (n b : Nat) : State :=
  let x := s.node n b
  if x.state = 4 ∧ x.enrolled = false then s else s.joined n b
/-- R232, R233: a node's answer to its challenge. A node that answers with a status other than OK has given no signature: it is
quarantined for check 5 (DESIGN CHOICE, log 103). -/
def State.authResponse (s : State) (n : Nat) (f : Rx) : State :=
  match tget (s.ring n).auths f.src, tget s.xng.txns f.tag with
  | some chal, some x =>
    if x.xng = n ∧ x.berth = f.src ∧ x.use = .auth ∧ bit f.flags 0 = true then
      let s := s.freeTxn f.tag
      let k := if u16 f.payload 0 ≠ 0 then 5 else s.authCheck n f.src chal ((f.payload.drop 4).take 64)
      let s := if k = 0 then s.authPassed n f.src else s.quarantine n f.src k
      s.authEnded n f.src (k == 0)
    else s.inc (R.XNG_FRAMES_DROPPED n)
  | _, _ => s.inc (R.XNG_FRAMES_DROPPED n)
def execAuthResponse (n : Nat) (endB : Bool) (frame : List Byte) (s : State) : Res State :=
  match endB, s.receive n frame [0x09] with
  | _, (s, some f) => .next (s.authResponse n f)
  | _, (s, none) => .next s

/-- R232, R233 check 7: the answer did not come within its bound. -/
def State.authTimeout (s : State) (n b : Nat) : State :=
  let mine := s.xng.txns.filter fun p => p.2.xng == n && p.2.berth == b && p.2.use == .auth
  let s := mine.foldl (fun s p => s.freeTxn p.1) s
  (s.quarantine n b 7).authEnded n b false
def execAuthTimeout (n berth : Nat) (s : State) : Res State :=
  if (tget (s.ring n).auths berth).isSome then .next (s.authTimeout n berth) else .next s

/-- R234: the 24 h challenge of a JOINED node, which stays JOINED while it runs. -/
def execPeriodicChallenge (n berth : Nat) (s : State) : Res State :=
  if s.portsUp && s.awake n && (s.node n berth).state == 3 then .next (s.challenge n berth).settled else .next s

/-! ## Sweeps (R212 to R215, R225, R226) -/

/-- The SAMPLE request of R212, under the node's next sweep number. -/
def State.sendSweep (s : State) (n b : Nat) : State :=
  let x := s.node n b
  let s := s.setNode n b { x with sweep := (x.sweep + 1) % 2 ^ 32 }
  s.request n b 1 (le 4 x.sweep ++ le 2 x.rate ++ le 2 0 ++ le 8 (s.rd64 R.PWR_PLANT_TIME_LO) ++ le 4 0 ++ le 4 0) .sample
/-- A sweep that waits can go out: its crossing is awake, it is still to be made, and it finds an entry. -/
def State.sweepReady (s : State) (k : Nat × Nat) : Bool :=
  s.mayCommand && s.sleepState k.1 == 0 && s.swept k.1 k.2 && s.mayAlloc k.1 k.2
/-- The sweep leaves the queues and is sent. -/
def State.sweepOut (s : State) (k : Nat × Nat) : State :=
  State.sendSweep { s with xng := { s.xng with due := s.xng.due.drop k, heads := s.xng.heads.filter (· != k) } } k.1 k.2
/-- Due sweeps go out while there is one that can: promoted ones first, then by deficit round robin over the nodes of all crossings
(R225, R226). The number bounds how many. -/
def State.serveSweeps : Nat → State → State
  | 0, s => s
  | f + 1, s =>
    match s.xng.heads.find? s.sweepReady with
    | some k => State.serveSweeps f (s.sweepOut k)
    | none => match s.xng.due.pick (fun k => (s.node k.1 k.2).rate) s.sweepReady with
      | some (k, d) => State.serveSweeps f (State.sweepOut { s with xng := { s.xng with due := d } } k)
      | none => s
def State.sweepsGo (s : State) : State :=
  let still (k : Nat × Nat) : Bool := s.swept k.1 k.2
  let s := { s with xng := { s.xng with due := { s.xng.due with order := s.xng.due.order.filter still }, heads := s.xng.heads.filter still } }
  (s.serveSweeps (s.xng.due.order.length + s.xng.heads.length)).settled
def execSweepDue (n berth : Nat) (s : State) : Res State :=
  if s.mayCommand && s.awake n && s.swept n berth then
    .next (State.sweepsGo { s with xng := { s.xng with due := s.xng.due.join (n, berth) } })
  else .next s

/-- Ticks of 3 effective periods of a rate in 0.1 Hz. -/
def threePeriods (rate : Nat) : Nat := 3 * 1000000 / max 1 rate
/-- R226: a string whose last applied sample is older than 3 effective periods has its sweep at the head of the queue, ahead of the
round robin; at most once per 3 effective periods. -/
def State.promote (s : State) (n b : Nat) : State :=
  let s := (s.modNode n b fun x => { x with promoted := some s.tick }).inc (R.XNG_PROMOTIONS n)
  State.sweepsGo { s with xng := { s.xng with due := s.xng.due.drop (n, b), heads := s.xng.heads.filter (· != (n, b)) ++ [(n, b)] } }
def execSweepPromotion (n berth : Nat) (s : State) : Res State :=
  let x := s.node n berth
  if s.mayCommand && s.awake n && s.swept n berth && decide (x.lastTick + threePeriods x.rate < s.tick) &&
     x.promoted.all (fun t => decide (t + threePeriods x.rate ≤ s.tick))
  then .next (s.promote n berth) else .next s

/-- The 64 cell entries of a report frame (R213, R214). -/
def reportEntries (p : List Byte) : List Entry :=
  (List.range 64).map fun k => ⟨u16 p (40 + 6 * k), u16 p (40 + 6 * k + 2), u16 p (40 + 6 * k + 4)⟩
/-- A sweep from its four frames, by index; `tables` as its transaction holds them. -/
def sweepOf (n b : Nat) (fs : Tbl (List Byte)) (tables : Option (List CfgRec)) : Sweep :=
  let h := tgetD fs 0 []
  ⟨n, b, u32 h 0, u64 h 4, BitVec.ofNat 32 (u32 h 0x0C), BitVec.ofNat 32 (u32 h 0x10), u8 h 0x15, u16 h 0x16, u32 h 0x18,
   fs.flatMap fun f => reportEntries f.2, tables⟩
/-- A complete sweep: the node's report fields are kept, and the sweep goes to the intake ring; that of an undeclared
berth is only kept (R235). -/
def State.sweepDone (s : State) (n b : Nat) (fs : Tbl (List Byte)) (tables : Option (List CfgRec)) : State :=
  let w := sweepOf n b fs tables
  let s := s.modNode n b fun x =>
    { x with missedRow := 0, contact := some w.contact, status := w.status, applied := some w.number, report := fs.map (·.2) }
  if (s.declaredAt n b).isSome then s.intake w else s
/-- R213: a report frame of a requested sweep; with the fourth, the sweep is complete. A frame index above 3 counts modulo 4 (DESIGN
CHOICE, log 103). -/
def State.sampleReport (s : State) (n : Nat) (f : Rx) : State :=
  match tget s.xng.txns f.tag with
  | none => s.inc (R.XNG_FRAMES_DROPPED n)
  | some x =>
    if x.xng = n ∧ x.berth = f.src ∧ x.use = .sample ∧ bit f.flags 0 = true ∧ f.payload.length = 424 then
      let got := tput x.got (u8 f.payload 0x14 % 4) f.payload
      if got.length = 4 then (s.finishTag f.tag OK []).sweepDone n f.src got x.tables
      else { s with xng := { s.xng with txns := tput s.xng.txns f.tag { x with got := got } } }
    else s.inc (R.XNG_FRAMES_DROPPED n)
def execSampleReport (n : Nat) (endB : Bool) (frame : List Byte) (s : State) : Res State :=
  match endB, s.receive n frame [0x01] with
  | _, (s, some f) => .next (s.sampleReport n f).settled
  | _, (s, none) => .next s

/-- R215: an unsolicited report, applied as a requested one; a copy of a sweep already applied is ignored. -/
def State.unsolicited (s : State) (n : Nat) (f : Rx) : State :=
  let x := s.node n f.src
  let p := f.payload
  if p.length ≠ 424 ∨ bit f.flags 1 = false ∨ x.applied = some (u32 p 0) then s
  else
    let same := x.report.filter fun r => u32 r 0 == u32 p 0
    let got := same.foldl (fun (t : Tbl (List Byte)) r => tput t (u8 r 0x14 % 4) r) []
    let got := tput got (u8 p 0x14 % 4) p
    if got.length = 4 then s.sweepDone n f.src got none else s.setNode n f.src { x with report := got.map (·.2) }
def execUnsolicitedReport (n : Nat) (endB : Bool) (frame : List Byte) (s : State) : Res State :=
  match endB, s.receive n frame [0x01] with
  | _, (s, some f) => .next (s.unsolicited n f)
  | _, (s, none) => .next s

/-! ## Responses and timeouts (R222 to R224) -/

/-- R222, R224: a tracked response completes its transaction OK or NODE_STATUS; one that comes after completion is
dropped and counted. -/
def State.hawserResponse (s : State) (n : Nat) (f : Rx) : State :=
  match tget s.xng.txns f.tag with
  | none => s.inc (R.XNG_FRAMES_DROPPED n)
  | some x =>
    if x.xng = n ∧ x.berth = f.src ∧ x.typ = f.typ ∧ bit f.flags 0 = true then
      (s.finishTag f.tag (if u16 f.payload 0 = 0 then OK else 0x0501) f.payload).settled
    else s.inc (R.XNG_FRAMES_DROPPED n)
def execHawserResponse (n : Nat) (endB : Bool) (frame : List Byte) (s : State) : Res State :=
  match endB, s.receive n frame [2, 3, 4, 5, 6, 7, 0x0F] with
  | _, (s, some f) => .next (s.hawserResponse n f)
  | _, (s, none) => .next s

/-- The other end, where it reaches the node, else the same (R223). -/
def State.retryEnd (s : State) (x : Txn) : Bool :=
  let r := s.ring x.xng
  if x.viaB then (if r.reachA x.berth then false else true) else (if r.reachB x.berth then true else false)
/-- R223: a missed sweep counts and is not repeated, the third in a row loses the node (R229); any other request is sent
once more with RETRY, then completes TIMEOUT. A challenge whose request has completed so is left to the bound of its answer
(log 13). -/
def State.txnTimeout (s : State) (tag : Nat) (x : Txn) : State :=
  match x.use with
  | .sample =>
    let s := (s.finishTag tag 0x0502 []).inc (R.XNG_SWEEPS_MISSED x.xng)
    let s := s.modNode x.xng x.berth fun y => { y with missed := min 255 (y.missed + 1), missedRow := y.missedRow + 1 }
    (if 3 ≤ (s.node x.xng x.berth).missedRow then s.loseNode x.xng x.berth 0 else s).settled
  | _ =>
    if x.retried then (s.finishTag tag 0x0502 []).settled
    else
      let endB := s.retryEnd x
      let x' := { x with retried := true, viaB := endB }
      let s := { s with xng := { s.xng with txns := tput s.xng.txns tag x' } }.inc (R.XNG_TXN_RETRY x.xng)
      let y := s.node x.xng x.berth
      let q := (y.txSeq + 1) % 2 ^ 16
      (s.setNode x.xng x.berth { y with txSeq := q }).send
        (.frame (.xng x.xng endB) x.typ x.berth (hawser s.plantIdent x.berth tag x.typ 4 q x.payload))
def execTransactionTimeout (tag : Nat) (s : State) : Res State :=
  match tget s.xng.txns tag with
  | some x => .next (s.txnTimeout tag x)
  | none => .next s

/-- R229: a node becomes LOST by silence. -/
def execNodeLost (n berth : Nat) (s : State) : Res State :=
  if s.portsUp && s.awake n then .next (s.loseNode n berth 0).settled else .next s

/-- R236: a node sends LEAVE. -/
def execNodeLeave (n : Nat) (endB : Bool) (frame : List Byte) (s : State) : Res State :=
  match endB, s.receive n frame [0x0F] with
  | _, (s, some f) =>
    if bit f.flags 0 then .next (s.hawserResponse n f)
    else .next (s.leaveNode n f.src (u8 f.payload 0) (if u8 f.payload 0 = 2 then 3 else 2)).settled
  | _, (s, none) => .next s

/-! ## Sleep and wake (R237 to R241) -/

/-- R237: every container node of the bank reports its breaker open, and no transaction of the crossing is in flight. -/
def State.maySleep (s : State) (n : Nat) : Bool :=
  s.sleepState n == 0 && s.ringTxns n == 0 && (s.containers.filter fun c => c / 16 == n).all s.conOpenSeen
/-- SLEEP_COMMIT once every voter has agreed: the ring sleeps 1 ms later. -/
def State.sleepCommit (s : State) (n : Nat) : State :=
  if (s.sleepVoters n).all fun b => (s.ring n).agreed.contains b then
    let s := s.broadcast n 0x0C (le 4 (s.ring n).sleepId ++ le 4 0)
    (s.modRing n fun r => { r with commitAt := some s.tick }).setSleep n 2
  else s
def State.ringSleep (q : Nat) (c : Cmd) (s : State) : State :=
  let n := c.inst
  if s.portsUp && s.xngUsed n && s.maySleep n then
    let s := s.modRing n fun r => { r with sleepId := (r.sleepId + 1) % 2 ^ 32, sleepQ := some q, agreed := [] }
    ((s.broadcast n 0x0B (le 4 (s.ring n).sleepId ++ le 4 0)).setSleep n 1).sleepCommit n
  else s.complete q STATE 0
/-- R242: RING_SLEEP. -/
def execRingSleep (q : Nat) (s : State) : Res State := s.onCmd q CmdCode.ringSleepCode (State.ringSleep q)

/-- The answer refuses the sleep: SLEEP_ABORT, or another status than OK under the identifier of the proposal. -/
def State.refuses (s : State) (n : Nat) (f : Rx) : Bool :=
  f.typ == 0x0D || (u32 f.payload 4 == (s.ring n).sleepId && u16 f.payload 0 != 0)
/-- R237 to R239: an answer to the proposal, or SLEEP_ABORT from a node. After the commit it is latched, and wakes the ring again. -/
def State.sleepAnswer (s : State) (n : Nat) (f : Rx) : State :=
  if s.sleepState n = 1 then
    if s.refuses n f then s.sleepAbort n 1
    else if u32 f.payload 4 ≠ (s.ring n).sleepId then s
    else (s.modRing n fun r => { r with agreed := f.src :: r.agreed }).sleepCommit n
  else if s.refuses n f = false then s
  else if s.sleepState n = 2 then s.wrB (R.XNG_SLEEP_STATUS_WAKE_LATCHED n) true
  else if s.sleepState n = 3 then (s.wrB (R.XNG_SLEEP_STATUS_WAKE_LATCHED n) true).startWake n 1
  else s
def execSleepProposeResponse (n : Nat) (endB : Bool) (frame : List Byte) (s : State) : Res State :=
  match endB, s.receive n frame [0x0B, 0x0D] with
  | _, (s, some f) => .next (s.sleepAnswer n f)
  | _, (s, none) => .next s

/-- R237: 20 ms without an answer of every node. -/
def execSleepAnswerTimeout (n : Nat) (s : State) : Res State :=
  if s.sleepState n = 1 then .next (s.sleepAbort n 2) else .next s

/-- R240, R120, R239: the Bollard domain latches the tone while HAWSER is enabled as a wake source; the crossing's latch is
shown; a proposed sleep ends, a sleeping ring wakes. -/
def State.wakeTone (s : State) (n : Nat) : State :=
  let s := s.wakeSource 4
  if s.powered then
    let s := s.wrB (R.XNG_SLEEP_STATUS_WAKE_LATCHED n) true
    if s.sleepState n = 1 then (s.sleepAbort n 1).wrB (R.XNG_SLEEP_STATUS_WAKE_LATCHED n) false
    else if s.sleepState n = 3 then s.startWake n 1
    else if s.sleepState n = 2 ∨ s.sleepState n = 4 then s
    else s.wrB (R.XNG_SLEEP_STATUS_WAKE_LATCHED n) false
  else s
def execWakeTone (n : Nat) (s : State) : Res State :=
  if s.boll.phase = .off then .next s else .next (s.wakeTone n)

def State.ringWake (q : Nat) (c : Cmd) (s : State) : State :=
  let n := c.inst
  if s.portsUp && s.xngUsed n then
    let wait (s : State) : State := s.modRing n fun r => { r with wakeQ := r.wakeQ ++ [q] }
    if s.sleepState n = 3 then (wait s).startWake n 0
    else if s.sleepState n = 2 ∨ s.sleepState n = 4 then wait s
    else (if s.sleepState n = 1 then s.sleepAbort n 0 else s).complete q OK 0
  else s.complete q STATE 0
/-- R242: RING_WAKE. -/
def execRingWake (q : Nat) (s : State) : Res State := s.onCmd q CmdCode.ringWakeCode (State.ringWake q)

/-! ## The XNG commands (R242) -/

/-- The berth argument names a node that the crossing knows. -/
def State.knows (s : State) (n b : Nat) : Bool := (s.node n b).state != 0
/-- R242: NODE_READ; the words come in the result. -/
def State.nodeRead (q : Nat) (c : Cmd) (s : State) : State :=
  let (b, w) := (u16 c.args 0 % 512, u16 c.args 8)
  if s.portsUp && s.xngUsed c.inst && (w == 1 || w == 2) then
    (s.request c.inst b 2 (readPayload (u32 c.args 4) w) (.queue q)).settled
  else s.complete q (if w = 1 ∨ w = 2 then STATE else 0x0101) 0
def execNodeRead (q : Nat) (s : State) : Res State := s.onCmd q CmdCode.nodeReadCode (State.nodeRead q)
/-- R242: NODE_WRITE. -/
def State.nodeWrite (q : Nat) (c : Cmd) (s : State) : State :=
  let (b, w) := (u16 c.args 0 % 512, u16 c.args 8)
  if s.portsUp && s.xngUsed c.inst && decide (1 ≤ w) && decide (w ≤ 10) then
    (s.request c.inst b 3 (writePayload (u32 c.args 4) ((c.args.drop 12).take (4 * w))) (.queue q)).settled
  else s.complete q (if 1 ≤ w ∧ w ≤ 10 then STATE else 0x0101) 0
def execNodeWrite (q : Nat) (s : State) : Res State := s.onCmd q CmdCode.nodeWriteCode (State.nodeWrite q)
/-- A command to the bank that waits until its crossing is awake, and wakes it (R241). -/
def State.waitAwake (s : State) (n q what b : Nat) : State :=
  (s.modRing n fun r => { r with later := r.later ++ [(q, what, b)] }).wakeFor n
/-- R242: REDISCOVER sends a census and completes with the number of nodes that answered it; `wait` are the ticks for which the
Turid takes answers beyond each node's 10 ms. -/
def State.rediscover (wait q : Nat) (c : Cmd) (s : State) : State :=
  let n := c.inst
  if (s.portsUp && s.xngUsed n) = false then s.complete q STATE 0
  else if s.sleepState n = 0 then s.startCensus n q wait else s.waitAwake n q 0 wait
def execRediscover (q wait : Nat) (s : State) : Res State := s.onCmd q CmdCode.rediscoverCode (State.rediscover wait q)
/-- R242: REAUTHENTICATE challenges one node, or every JOINED or QUARANTINED node of the crossing, and completes with the number that
passed. -/
def State.reauthenticate (q : Nat) (c : Cmd) (s : State) : State :=
  let n := c.inst
  let b := u16 c.args 0 % 512
  if (s.portsUp && s.xngUsed n) = false then s.complete q STATE 0
  else if s.sleepState n = 0 then (s.startReauth n q b).settled else s.waitAwake n q 1 b
def execReauthenticate (q : Nat) (s : State) : Res State := s.onCmd q CmdCode.reauthenticateCode (State.reauthenticate q)

/-! ## XNG_CONTROL (R245) -/

/-- A keyed control command: KEY 0xA5 in the same write, and a session with the engineer role (R7, R164). -/
def State.keyed (s : State) (sess key : Nat) : Bool := key == 0xA5 && s.engineer sess
/-- RETRAIN: every hop trains anew, none held at generation 1 (R196), and the transactions are sent again (R202). -/
def State.retrain (s : State) (n : Nat) : State :=
  let s := ((s.modRing n fun r => { r with hops := [], slow := [] }).suspectAll n).showRing n
  (s.xng.txns.filter fun p => p.2.xng == n).foldl (fun s p => s.resend p.1 p.2) s
def execRetrain (sess key n : Nat) (s : State) : Res State :=
  if s.keyed sess key && s.portsUp && s.xngUsed n && s.awake n then .next (s.retrain n) else .next s
/-- CLEAR_COUNTERS (R717): the counters since start of the crossing. -/
def execXngClearCounters (sess key n : Nat) (s : State) : Res State :=
  if s.keyed sess key && decide (n < 16) then .next (s.clearCounters (0x50000 + 0x1000 * n) 0x80) else .next s

end Sys2Proof.Machine
end

