-- ==== Sys2Proof/Machine/Est.lean ====
section
/-!
DEFINITION. The estimation commands and events (R246 to R289): one meaning per row.
-/
namespace Sys2Proof.Machine
open Sys2Proof

/-! ## The checked pipelines (R257 to R260) -/

def pipeFld (p : Nat) : Fld := match p with
  | 0 => R.EST_PIPE_STATUS_PIPE0
  | 1 => R.EST_PIPE_STATUS_PIPE1
  | 2 => R.EST_PIPE_STATUS_PIPE2
  | _ => R.EST_PIPE_STATUS_PIPE3
/-- The good pipelines: in a pair or verifier. -/
def State.goodPipes (s : State) : List Nat := (List.range 4).filter fun p => decide (s.rd (pipeFld p) < 2)
/-- Checked pairs by the number of good pipelines (R257). -/
def pairsOf (good : Nat) : Nat := if good = 4 then 2 else if 2 ≤ good then 1 else 0
/-- The pairs formed from the good pipelines: with three, the last is the verifier. -/
def State.formPairs (s : State) : State :=
  let g := s.goodPipes
  let s := g.foldl (fun s p => s.wr (pipeFld p) (if g.length = 3 ∧ some p = g.getLast? then 1 else 0)) s
  s.wr R.EST_STATUS_PAIRS (pairsOf g.length)
/-- R260: no checked pair remains: estimation stops and the roll-up is frozen. -/
def State.noPair (s : State) : State :=
  let s := (((s.wrB R.EST_STATUS_NO_CHECKED_PAIR true).wrB R.EST_STATUS_ROLLUP_STALE true).wrB R.EST_STATUS_RUNNING false)
  (s.raise Ev.NO_CHECKED_PAIR 0 []).flag R.EST_EVENT_STATUS_NO_CHECKED_PAIR
/-- A pipeline is retired until the next start (R258, R259). -/
def State.retirePipe (s : State) (p : Nat) : State :=
  let s := (s.wr (pipeFld p) 2).formPairs
  let s := (s.raise Ev.PIPELINE_RETIRED 0 (le 1 p ++ le 1 (pairsOf s.goodPipes.length))).flag R.EST_EVENT_STATUS_PIPELINE_RETIRED
  if pairsOf s.goodPipes.length = 0 ∧ s.on R.EST_STATUS_NO_CHECKED_PAIR = false then s.noPair else s
/-- One hour in ticks. -/
def hourTicks : Nat := 360000000
/-- The counters of a mismatch (R258, R259, R288): recomputed on another pair or the verifier, with the updates that this takes, or
retried on the same pair, a retry that fails being a mismatch of its own. -/
def State.countMismatch (s : State) (three : Bool) (wrong redo : List Nat) (retryFails : Bool) : State :=
  if three then
    if wrong = [] ∧ redo = [] then s else (s.inc R.EST_MISMATCHES).incBy R.EST_RECOMPUTED (max 1 redo.length)
  else if retryFails then s.incBy R.EST_MISMATCHES 2
  else if wrong = [] then s else s.inc R.EST_MISMATCHES
/-- A mismatch of a pair with another pair or a verifier to recompute on (R258): the pipeline found wrong is charged, and
retired at its third fault within 1 h. -/
def State.chargePipe (s : State) (p : Nat) : State :=
  let l := s.est.faults.filter fun f => decide (s.tick < f.2 + hourTicks)
  let l := l ++ [(p, s.tick)]
  let s := { s with est := { s.est with faults := l } }.incSat R.EST_PIPE_STATUS_FAULTS
  if 3 ≤ (l.filter (·.1 == p)).length then s.retirePipe p else s
/-- R259: with two good pipelines, a sweep whose retry also mismatches is discarded; the third within 1 h retires both. -/
def State.discardSweep (s : State) (w : Sweep) : State :=
  let recent := s.est.discards.filter fun t => decide (s.tick < t + hourTicks)
  let s := { s with est := { s.est with discards := recent ++ [s.tick] } }
  let s := (s.inc R.EST_SKIPPED).inc (R.XNG_SWEEPS_MISSED w.xng)
  let s := s.modNode w.xng w.berth fun x => { x with missed := min 255 (x.missed + 1), missedRow := x.missedRow + 1 }
  if 3 ≤ s.est.discards.length then s.goodPipes.foldl State.retirePipe s else s

/-! ## A sweep applied (R253 to R256) -/

/-- The temperatures of a sweep's cells with whether each is substituted (R255); `none` of a string without any valid one. -/
def sweepTemps (cells : List Entry) (none' : Rat) : List (Rat × Bool) :=
  let ok := fun (l : List Entry) => (l.filter (·.tOk)).map (·.celsius)
  let all := ok cells
  (List.range 256).map fun k =>
    let e := cells.getD k ⟨0, 0, 0⟩
    if e.tOk then (e.celsius, false)
    else
      let mod := ok ((cells.drop (k / 16 * 16)).take 16)
      (if mod ≠ [] then median mod else if all ≠ [] then median all else none', true)
/-- The string's 256 cells after the sweep, with what each step counted; `ini` is the initialisation that applies. -/
def stepCells (t : CfgRec) (x : EstStr) (w : Sweep) (temps : List (Rat × Bool)) (is : Option Rat) (period : Nat) (stepped : Bool)
    (resume : Option Rat) (ini : Option Init) : List (Cell × StepOut) :=
  (List.range 256).map fun k =>
    let e := w.cells.getD k ⟨0, 0, 0⟩
    let c := x.cells.getD k Cell.zero
    let l := x.learned.getD k t.defaults
    let now := w.time + e.off * 1000
    let dt : Nat := match c.time with
      | some b => if b < now ∧ !stepped then now - b else period
      | none => period
    let tp := temps.getD k (0, true)
    let inp : StepIn := ⟨is, e, tp.1, tp.2, nsToS dt, resume, x.floatAt.isSome⟩
    let c := { c with time := some now, bled := c.bled || e.bal }
    let c := if e.bal && x.floatAt.isSome then c.setFlag 2 true else c
    match ini with
    | some p =>
      if e.vOk && p.left.contains k then
        let ic := { inp with resume := none }.ic t
        let v := e.volts - l.sR * t.rser c.z tp.1 (ic / t.qNom) * ic
        let pr := (tget p.prior k).map fun z => (z, p.elapsed)
        let c := { c.measured inp with recent := [e.volts] }
        ((c.initialise t l v tp.1 pr), ⟨false, false⟩)
      else c.step t l inp
    | none => c.step t l inp
/-- R265: a hold of an anchor condition goes on, starts or breaks; with whether it completes its time at this sample. -/
def holdStep (ok : Bool) (now : Nat) (need : Rat) (x : Option (Nat × Bool)) : Option (Nat × Bool) × Bool :=
  if ok then
    match x with
    | none => (some (now, false), false)
    | some (a, d) => if !d ∧ need * 1000000000 ≤ ((now - a : Nat) : Rat) then (some (a, true), true) else (some (a, d), false)
  else (none, false)
/-- R266, R268: an anchor of a kind (1 charge, 2 discharge) applied to the string, with capacity learning. -/
def State.anchorStr (s : State) (i kind : Nat) (t : CfgRec) (is : Rat) (now : Nat) : State :=
  let x := s.estStr i
  let done := (List.range 256).map fun k =>
    let c := x.cells.getD k Cell.zero
    let l := x.learned.getD k t.defaults
    (c, l, c.anchorAt t l is c.temp kind)
  let other := x.lastAnchor ≠ 0 && x.lastAnchor ≠ kind
  let dt : Rat := ((now - x.anchorTime : Nat) : Rat) / 1000000000
  let learn := done.map fun d =>
    let c := d.1
    let l := d.2.1
    let n := d.2.2
    if other && s.learns i && n.2 && c.zaSet && !c.bled && !x.spoiled && decide (t.span ≤ ratAbs (n.1.za - c.za)) then
      let q := (ratAbs x.charge - l.iSd * dt / 3600) / ratAbs (n.1.za - c.za)
      if t.qNom / 2 ≤ q ∧ q ≤ t.qNom * 12 / 10 then
        ({ n.1 with obs := min 4095 (n.1.obs + 1), bled := false }.setFlag 7 false, ({ l with q := l.q + t.gainQ * (q - l.q) }).hold t, some q, false)
      else ({ n.1 with bled := false }.setFlag 7 false, l, some q, true)
    else ({ n.1 with bled := false }.setFlag 7 false, l, none, false)
  let s := s.setEst i { x with cells := learn.map (·.1), learned := learn.map (·.2.1), lastAnchor := kind, anchorTime := now,
                               charge := 0, spoiled := false }
  let outs := (List.range 256).filterMap fun k => (learn[k]?).bind fun d => if d.2.2.2 then d.2.2.1.map fun q => (k, q) else none
  let s := outs.foldl (fun s p => s.raise Ev.CAPACITY_OUTLIER 0 (le 4 (i * 256 + p.1) ++ le 4 (toB32 p.2).toNat)) s
  let made := (learn.filter fun d => d.2.2.1.isSome && !d.2.2.2).length
  ((s.inc R.EST_ANCHORS).raise Ev.ANCHOR_APPLIED 0 (le 4 i ++ le 1 kind ++ le 2 made)).startCkpt 2 none
/-- R269: a step of the string current teaches the Rser scale. -/
def learnRser (t : CfgRec) (prev now : List Cell) (prevI nowI : Rat) (l : List Learned) : List (Cell × Learned) :=
  (List.range 256).map fun k =>
    let c := now.getD k Cell.zero
    let b := prev.getD k Cell.zero
    let x := l.getD k t.defaults
    let di := c.icOf t nowI - b.icOf t prevI
    if c.vOk && b.vOk && di ≠ 0 then
      let rho := ((c.volts - b.volts) / di) / t.rser c.z c.temp (c.icOf t nowI / t.qNom)
      ({ c with rho := rho }, ({ x with sR := x.sR + t.gainR * (rho - x.sR) }).hold t)
    else (c, x)
/-- R270: the 60 s step that teaches offset and hysteresis magnitude. -/
def learnOffset (t : CfgRec) (op : Nat) (is : Rat) (c : Cell) (l : Learned) : Cell × Learned :=
  let ic := c.icOf t is
  let g := colSlope (t.ocvColumn c.temp) c.z
  if g < 1 / 10 ∧ l.m * 95 / 100 ≤ ratAbs c.h then
    let rest := t.restC * t.qNom
    let c := if rest < ic then { c with chg := c.ebar, chgAt := some op }
             else if ic < -rest then { c with dis := c.ebar, disAt := some op } else c
    match c.chgAt, c.disAt with
    | some a, some b =>
      if max a b - min a b ≤ 86400 then
        ({ c with chg := 0, dis := 0, chgAt := none, disAt := none },
         ({ l with u := l.u + (c.chg + c.dis) / 20, m := l.m + (c.chg - c.dis) / 20 }).hold t)
      else (c, l)
    | _, _ => (c, l)
  else (c, l)
/-- R271, R272: a float window completes: self-discharge learned, the excess of each valid cell kept, cells at the short
threshold flagged. The cells, the learned values, and the flagged cells with their excess and Iobs. -/
def floatDone (t : CfgRec) (cells : List Cell) (l : List Learned) : List Cell × List Learned × List (Nat × Rat × Rat) :=
  let obs := (List.range 256).map fun k =>
    let c := cells.getD k Cell.zero
    let x := l.getD k t.defaults
    (c, x, x.iSd - 3600 * x.q * c.c / t.floatS)
  let valid := (obs.filter fun o => !bit o.1.flags 2).map (·.2.2)
  if valid.length < 128 then (cells.map fun c => { c with c := 0 }.setFlag 2 false, l, [])
  else
    let med := median valid
    let new := obs.map fun o =>
      if bit o.1.flags 2 then ({ o.1 with c := 0, flagged := false }.setFlag 2 false, o.2.1, false, o.2.2)
      else
        let ex := o.2.2 - med
        let short := decide (t.shortA ≤ ex)
        let c := { o.1 with excess := ex, c := 0, flagged := short }
        ((if short then c.setFlag 11 true else c), ({ o.2.1 with iSd := o.2.1.iSd + t.gainS * (ratMax 0 o.2.2 - o.2.1.iSd) }).hold t, short, o.2.2)
    (new.map (·.1), new.map (·.2.1),
     (List.range 256).filterMap fun k => (new[k]?).bind fun n => if n.2.2.1 then some (k, n.1.excess, n.2.2.2) else none)
/-- The float window over this sample (R271), and SHORT_SUSPECT with its trip (R272, R311). -/
def State.floatStep (s : State) (i : Nat) (t : CfgRec) (is : Rat) (now : Nat) : State :=
  let x := s.estStr i
  let inBand := decide (ratAbs is ≤ t.restC * t.qNom)
  let fresh := x.cells.map fun c => { c with c := 0 }.setFlag 2 (bit c.lastT 13)
  match inBand, x.floatAt with
  | false, _ => s.setEst i { x with floatAt := some now, cells := fresh }
  | true, none => s.setEst i { x with floatAt := some now, cells := fresh }
  | true, some a =>
    if t.floatS * 1000000000 ≤ ((now - a : Nat) : Rat) then
      if s.learns i then
        let was := x.cells.map (·.flagged)
        let (cells, learned, hits) := floatDone t x.cells x.learned
        let s := s.setEst i { x with cells := cells, learned := learned, floatAt := some now }
        hits.foldl (fun s h =>
          let idx := i * 256 + h.1
          let s := (s.raise Ev.SHORT_SUSPECT 0 (le 4 idx ++ le 4 (toB32 h.2.1).toNat ++ le 4 (toB32 h.2.2).toNat)).flag
            R.EST_EVENT_STATUS_SHORT_SUSPECT
          if 4 * t.shortA ≤ h.2.1 ∨ was.getD h.1 false = true then s.shortTrip i idx h.2.1 else s) s
      else s.setEst i { x with floatAt := some now, cells := fresh }
    else s
/-- The 60 s learning step where it is due (R270). -/
def State.offsetStep (s : State) (i : Nat) (t : CfgRec) (is : Rat) (now : Nat) : State :=
  let x := s.estStr i
  match x.learnAt with
  | none => s.setEst i { x with learnAt := some now }
  | some a =>
    if a + 60000000000 ≤ now then
      if s.learns i then
        let r := (List.range 256).map fun k => learnOffset t s.opSec is (x.cells.getD k Cell.zero) (x.learned.getD k t.defaults)
        s.setEst i { x with learnAt := some now, cells := r.map (·.1), learned := r.map (·.2) }
      else s.setEst i { x with learnAt := some now }
    else s
/-- What waits for the string's next sweep is done: a restore (R279), RESET_LEARNED and REINITIALISE (R286). -/
def State.beforeSweep (s : State) (i : Nat) (t : CfgRec) : State :=
  let x := s.estStr i
  let s := s.setEst i { x with learned := (List.range 256).map fun k =>
                                 (tget x.restore (i * 256 + k)).getD (x.learned.getD k t.defaults), restore := [] }
  let s := if x.restore = [] then s else s.restoreApplied
  let s := if x.toDefault then s.toDefaults i else s
  let s := if x.toRest || x.toDefault then s.toRest i else s
  s.modEst i fun x => { x with toRest := false, toDefault := false }
/-- The anchors that this sample completes (R265, R266). -/
def State.anchorStep (s : State) (i : Nat) (t : CfgRec) (is : Rat) (now : Nat) : State :=
  let x := s.estStr i
  let vs := (x.cells.filter (·.vOk)).map (·.volts)
  let taper := t.taperC * t.qNom
  let okC := decide (0 ≤ is) && decide (is ≤ taper) && vs != [] && decide (t.vMax - t.bandV ≤ ratMost vs)
  let okD := decide (-taper ≤ is) && decide (is ≤ 0) && vs != [] && decide (ratLeast vs ≤ t.vMin + t.bandV) &&
    (s.pcon (i / 16)).floorOn
  let (hc, dc) := holdStep okC now t.holdChg x.chgSince
  let (hd, dd) := holdStep okD now t.holdDis x.disSince
  let s := s.setEst i { x with chgSince := hc, disSince := hd }
  let s := if dc then s.anchorStr i 1 t is now else s
  if dd then s.anchorStr i 2 t is now else s
/-- CONVERGING ends once every cell is ready (R263). -/
def State.convergeStep (s : State) (i : Nat) (t : CfgRec) : State :=
  let x := s.estStr i
  if x.state = 2 ∧ x.init = none ∧ x.cells.all (fun c => c.ready t) then
    (s.setEst i { x with state := 3 }).raise Ev.STRING_TRACKING 0 (le 4 i)
  else s
/-- The updates since start and of the running second (R288). -/
def State.countUpdates (s : State) : State :=
  let s := s.wr64 R.EST_UPDATES_LO (s.rd64 R.EST_UPDATES_LO + 256)
  { s with est := { s.est with second := s.est.second + 256 } }
/-- A second has passed: its updates, and their share of the checked capacity (R288). -/
def State.secondUpdates (s : State) : State :=
  let n := s.est.second
  let cap := 125000000 * pairsOf s.goodPipes.length
  let s := (s.wr R.EST_UPDATE_RATE n).wr (R.EST_LOAD.part 0 11) (if cap = 0 then 0 else n * 1000 / cap)
  { s with est := { s.est with second := 0 } }
/-- A sweep of a declared string applied whole (R253): its cells, anchors, learning and figures, then protection's
judgement (R293). -/
def State.applySweep (s : State) (i : Nat) (t : CfgRec) (w : Sweep) (redo : List Nat) : State :=
  let s := s.beforeSweep i t
  let node := s.node w.xng w.berth
  let period := 10000000000 / max 1 node.rate
  let is := f32? w.current
  let (spare, s) := if w.cells.any (·.tOk) then (0, s) else s.drawReal
  let x := s.estStr i
  let stepped := x.steps != s.pwr.timeSteps
  let dt : Nat := match x.time with
    | some b => if b < w.time ∧ !stepped then w.time - b else period
    | none => period
  let gap := x.time.isSome && decide (t.gapS < nsToS dt)
  let resume := if x.time.isSome && decide (3 * period < dt) then some x.current else none
  let zs := (List.range 256).map fun k => (k, (x.cells.getD k Cell.zero).z)
  let ini : Option Init := if gap then some ⟨List.range 256, zs, nsToS dt⟩ else x.init
  let left := ini.bind fun p =>
    let l := p.left.filter fun k => !(w.cells.getD k ⟨0, 0, 0⟩).vOk
    if l = [] then none else some { p with left := l }
  let outs := stepCells t x w (sweepTemps w.cells spare) is period stepped resume ini
  let isv := is.getD x.current
  let nOut := (outs.filter (·.2.outlier)).length
  let nRes := (outs.filter (·.2.reset)).length
  let s := (s.incBy R.EST_OUTLIERS nOut).incBy R.EST_RESETS nRes
  let bal := (w.cells.filter (·.bal)).length
  let s := if bal = 0 then s
           else s.wrR R.PLT_BALANCE_AH (s.rdR R.PLT_BALANCE_AH 0 + (bal : Rat) * t.bleed * (dt : Rat) / 3600000000000)
  let prev := x.cells
  let s := s.setEst i { x with
    cells := outs.zipIdx.map (fun (p : (Cell × StepOut) × Nat) => p.1.1.setFlag 8 (redo.contains p.2)), time := some w.time, number := w.number, current := isv,
    voltage := (f32? w.voltage).getD x.voltage, contact := w.contact, steps := s.pwr.timeSteps, init := left,
    state := if x.state != 4 && (x.init.isSome || (gap && x.state != 1)) then 2 else x.state, spoiled := x.spoiled || ini.isSome,
    charge := x.charge + (if 0 < isv then t.etaC else 1) * isv * (dt : Rat) / 3600000000000 }
  let s := s.anchorStep i t isv w.time
  let s := if s.learns i && x.time.isSome && decide (dt < 200000000) && decide (t.stepC * t.qNom ≤ ratAbs (ratAbs isv - ratAbs x.current)) then
      let y := s.estStr i
      let r := learnRser t prev y.cells x.current isv y.learned
      s.setEst i { y with cells := r.map (·.1), learned := r.map (·.2) }
    else s
  let s := (s.offsetStep i t isv w.time).floatStep i t isv w.time
  let s := s.convergeStep i t
  let y := s.estStr i
  let s := s.setEst i { y with fig := figuresOf t i (y.cells.zip y.learned) }
  let s := s.countUpdates
  let s := s.wr64 (R.XNG_SWEEPS_LO w.xng) (s.rd64 (R.XNG_SWEEPS_LO w.xng) + 1)
  let s := s.modNode w.xng w.berth fun n => { n with lastTick := s.tick }
  ((s.judge i w.time).balanceCheck).settled
/-- An effect under the CELLTYPES records that a sweep finishes with: the ones in force, or the ones that a patch replaced
since it began (R67). -/
def State.underTables (s : State) (tables : Option (List CfgRec)) (f : State → State) : State :=
  match tables with
  | none => f s
  | some l => { f { s with man := { s.man with cfg := s.man.cfg.filter (·.sec != 4) ++ l } } with man := s.man }
/-- R253: the next waiting sweep is taken. `wrong` names the pipelines that a recomputation found wrong (R258);
`redo` the cells whose update was recomputed; `retryFails` says that the retry of a mismatch with two good pipelines failed
too (R259). -/
def State.sweepApply (s : State) (wrong redo : List Nat) (retryFails : Bool) : State :=
  match s.nextSweep with
  | none => s
  | some (w, e) =>
    let good := s.goodPipes
    let three := decide (3 ≤ good.length)
    let wrong := (wrong.filter good.contains).eraseDups
    let redo := if three then redo else []
    let s := ({ s with est := e } : State).countMismatch three wrong redo retryFails
    let s := if three then wrong.foldl State.chargePipe s else s
    if !three && retryFails then s.discardSweep w
    else s.underTables w.tables fun s =>
      match s.stringAt w.xng w.berth with
      | none => s
      | some i => match s.strType i with
        | none => s
        | some t =>
          let s := { s with est := { s.est with fresh := s.est.fresh ++ [(w.xng, w.berth, w.number)] } }
          s.applySweep i t w redo
def execSweepApply (wrong redo : List Nat) (retryFails : Bool) (s : State) : Res State :=
  if s.powered && s.on R.EST_STATUS_RUNNING && s.pwr.resetDom != some 4 then .next (s.sweepApply wrong redo retryFails) else .next s

/-- R263, R262: the rest of a WAITING_REST string is complete: its cells are initialised from their voltage intervals at
its next sweep, with no prior. -/
def execRestComplete (i : Nat) (s : State) : Res State :=
  if (s.estStr i).state = 1 ∧ (s.cfg 5 3 i).isSome = true
  then .next (s.modEst i fun x => { x with init := some ⟨List.range 256, [], 0⟩ }) else .next s

/-- R283: a roll-up snapshot of the strings' last applied sweeps, with its sequence number and boundary tick; while no
checked pair remains the frozen one is published again (R260). -/
def State.publish (s : State) : State :=
  let s := if s.on R.EST_STATUS_ROLLUP_STALE then s
           else { s with est := { s.est with roll := s.strings.map s.rollStr, fresh := [] } }.showRoll
  (s.inc R.EST_ROLLUP_SEQ).wr64 R.EST_ROLLUP_TICK_LO s.tick
def execRollupPublish (s : State) : Res State :=
  if s.powered && decide (7 ≤ s.stage) && decide (s.stage ≤ 9) then .next s.publish else .next s

/-! ## Checkpoints (R275 to R277) -/

def State.estUp (s : State) : Bool := s.powered && (s.stage == 8 || s.stage == 9)
def execCheckpointInterval (s : State) : Res State :=
  if s.estUp then .next (s.startCkpt 1 none) else .next s
/-- The next checkpoint that waits is started. -/
def State.nextCkpt (s : State) : State :=
  let next := s.est.ckptNext
  { s with est := { s.est with ckptRun := next, ckptNext := none } }.wrB R.EST_STATUS_CKPT_RUNNING next.isSome
/-- R277: a checkpoint has been written, under the newest generation plus 1 (after a restore, R279, at least the restored
one plus 1), and the commands that wait for it complete with its generation; or its write failed. -/
def State.ckptDone (s : State) (ok : Bool) (cause : Nat) (qs : List Nat) : State :=
  if ok then
    let at' := if cause = 7 then (s.est.restore.elim 0 (·.gen)) else 0
    let (s, g) := s.ckptWrite cause at'
    let s := if cause = 7 then { s with est := { s.est with restore := none } } else s
    let s := (s.raise Ev.CHECKPOINT_WRITTEN 0 (le 4 g ++ le 1 cause)).flag R.EST_EVENT_STATUS_CHECKPOINT_WRITTEN
    (qs.foldl (fun s q => s.complete q OK g) s).nextCkpt
  else
    let s := (s.raise Ev.CHECKPOINT_FAILED 0 (le 4 s.ckptSlot)).flag R.EST_EVENT_STATUS_CHECKPOINT_FAILED
    { s.ckptSpoil with est := { s.ckptSpoil.est with ckptRetry := s.est.ckptRetry ++ [(cause, qs)] } }.nextCkpt
def execCheckpointDone (ok : Bool) (s : State) : Res State :=
  match s.est.ckptRun with
  | some (cause, qs) => if s.powered then .next (s.ckptDone ok cause qs) else .next s
  | none => .next s
/-- R277: 60 s after a failed write; the one that failed first is tried again. -/
def execCheckpointRetry (s : State) : Res State :=
  match s.est.ckptRetry with
  | [] => .next s
  | (cause, qs) :: l => .next ({ s with est := { s.est with ckptRetry := l } }.ckptFor cause qs)
/-- R263: the freeze of a FROZEN string has lasted its days: its learned values go to the type's defaults. -/
def execFreezeExpiry (i : Nat) (s : State) : Res State :=
  let days := cfgD (s.cfg 1 1 0) (·.u32 0x1C) 90
  match (s.estStr i).state, (s.estStr i).frozenAt with
  | 4, some a =>
    if a + days * 86400 ≤ s.opSec then .next ((s.toDefaults i).modEst i fun x => { x with frozenAt := none }) else .next s
  | _, _ => .next s

/-! ## The EST commands (R286, R289) -/

/-- R286: CHECKPOINT, cause 4 with the SHUTDOWN flag and 6 without. -/
def execCheckpoint (q : Nat) (s : State) : Res State :=
  s.onCmd q CmdCode.checkpointCode fun c s =>
    if s.estUp then s.startCkpt (if bit (u8 c.args 0) 0 then 4 else 6) (some q) else s.complete q STATE 0
/-- The two figures of a selector (R286): energies, powers and currents only of a TRACKING string, and none of a FROZEN one (R263). -/
def RollStr.pick (r : RollStr) (sel : Nat) : Option (Nat × Nat) :=
  let g := fun (on : Bool) (a b : Rat) => some (if on then ((toB32 a).toNat, (toB32 b).toNat) else (0, 0))
  let f := g r.tracking
  match sel with
  | 0 => f r.fig.eAvail r.fig.eCons
  | 1 => f r.fig.pDis r.fig.pChg
  | 2 => f r.fig.iDis r.fig.iChg
  | 3 => f r.fig.eAvail r.fig.eHead
  | 4 => some (r.state, r.fig.weak)
  | 5 => g (r.state != 4) r.fig.zLo r.fig.zHi
  | _ => none
/-- R286: STRING_FIGURES from the last snapshot. -/
def execStringFigures (q : Nat) (s : State) : Res State :=
  s.onCmd q CmdCode.stringFiguresCode fun c s =>
    let i := u16 c.args 0 % 4096
    match s.est.roll.find? (·.idx == i) with
    | none => s.complete q STATE 0
    | some r => match r.pick (u8 c.args 2) with
      | none => s.complete q 0x0101 0
      | some (a, b) => s.complete q OK (a + 2 ^ 32 * b)
/-- R286: REINITIALISE puts a string in WAITING_REST at its next sweep. -/
def execReinitialise (q : Nat) (s : State) : Res State :=
  s.onCmd q CmdCode.reinitialiseCode fun c s =>
    let i := u16 c.args 0 % 4096
    if (s.cfg 5 3 i).isSome then (s.modEst i fun x => { x with toRest := true }).complete q OK 0 else s.complete q STATE 0
/-- R286: RESET_LEARNED: learned values to defaults and WAITING_REST at the string's next sweep. -/
def execResetLearned (q : Nat) (s : State) : Res State :=
  s.onCmd q CmdCode.resetLearnedCode fun c s =>
    let i := u16 c.args 0 % 4096
    if (s.cfg 5 3 i).isSome then (s.modEst i fun x => { x with toDefault := true }).complete q OK 0 else s.complete q STATE 0
/-- R286, R272: CLEAR_SHORT. -/
def execClearShort (q : Nat) (s : State) : Res State :=
  s.onCmd q CmdCode.clearShortCode fun c s =>
    let k := u32 c.args 0 % 2 ^ 20
    if (s.cfg 5 3 (k / 256)).isSome then
      (s.modEst (k / 256) fun x => { x with cells := x.cells.modify (k % 256) fun y => y.setFlag 11 false }).complete q OK 0
    else s.complete q STATE 0
/-- R717, R289: CLEAR_COUNTERS of EST. -/
def execEstClearCounters (sess key : Nat) (s : State) : Res State :=
  if s.keyed sess key then .next (s.clearCounters 0x60000 0x10000) else .next s
/-- R289: ABORT_RESTORE discards a staged restore with RESULT 6. -/
def State.abortRestore (s : State) : State :=
  match s.est.restore with
  | none => s
  | some _ =>
    let s := { s with est := { s.est with restore := none } }
    ((s.wrB R.EST_RESTORE_STATUS_STAGED false).wr R.EST_RESTORE_STATUS_RESULT 6).wrB R.EST_STATUS_RESTORE_RUNNING false
def execAbortRestore (sess key : Nat) (s : State) : Res State :=
  if s.keyed sess key && s.on R.EST_RESTORE_STATUS_STAGED then .next s.abortRestore else .next s

end Sys2Proof.Machine
end

