-- ==== Sys2Proof/Machine/Plt.lean ====
section
/-!
DEFINITION. The plant-protection commands and events (R290 to R320): one meaning per row.
-/
namespace Sys2Proof.Machine
open Sys2Proof

/-! ## Strings (R295 to R301) -/

/-- R295: 200 ms after the limits fell to 0 W, CONTACTOR OPEN is sent whatever the current. -/
def execOrderlyOpenTimeout (i : Nat) (s : State) : Res State :=
  let x := s.pstr i
  if x.opening && !x.sentOpen then .next (s.sendStrOpen i 1).settled else .next s
/-- R297, R299: a string with intent 1 is closed where its preconditions hold; outside the voltage window alone it shows
WAIT_VOLTAGE. -/
def execStringCloseStart (i : Nat) (s : State) : Res State := .next (s.tryClose i).settled
/-- R298, R293 cause 8: no closed report within 2 s. -/
def State.closingLate (s : State) (i : Nat) : State :=
  let q := (s.pstr i).closeQ
  let s := s.modPstr i fun x => { x with closeQ := none, waitSince := none }
  ((s.tripStr i 8 0 0 false).completeOpt q 0x0712 (5 + 16 * 8)).settled
def execStringClosingTimeout (i : Nat) (s : State) : Res State :=
  if (s.pstr i).state = 2 then .next (s.closingLate i) else .next s
/-- R302: a breaker close without a closed report within 5 s latches the container TRIPPED, CLOSE_FAIL. -/
def execContainerClosingTimeout (c : Nat) (s : State) : Res State :=
  if (s.pcon c).state = 2 then .next (s.tripCon c 4) else .next s

/-! ## Reads of the container node (R303, R304, R306, R307) -/

/-- R303: every 5 ms of an orderly open the bus current is read; after 200 ms CONTACTOR OPEN goes out. -/
def State.readCurrent (s : State) (c : Nat) : State :=
  if (s.pcon c).openAt + 20000 ≤ s.tick then s.sendConOpen c 1
  else s.request (c / 16) (s.containerBerth c) 2 (readPayload 0x1008 1) (.conCurrent c)
def execContainerCurrentRead (c : Nat) (s : State) : Res State :=
  if (s.pcon c).state == 4 && !(s.pcon c).sentOpen && s.mayCommand then .next (s.readCurrent c).settled else .next s
/-- R307: every 5 ms the branch currents of a container with a watched string are read, while its node is JOINED. -/
def execBranchCurrentRead (c : Nat) (s : State) : Res State :=
  if (s.pcon c).watch != [] && (s.conNode c).state == 3 && s.mayCommand then
    .next (s.request (c / 16) (s.containerBerth c) 2 (readPayload 0x1040 16) (.conBranch c)).settled
  else .next s
/-- R306, R304: the status registers 0x1000 to 0x101F of a container node are read. -/
def execContainerStatusRead (c : Nat) (s : State) : Res State :=
  if (s.conNode c).state == 3 && s.mayCommand then
    .next (s.request (c / 16) (s.containerBerth c) 2 (readPayload 0x1000 8) (.conStatus c)).settled
  else .next s
/-- R293 cause 10: an OVERCURRENT block ends after 60 s. -/
def execOvercurrentBlockExpiry (i : Nat) (charge : Bool) (s : State) : Res State :=
  .next (s.modPstr i fun x => if charge then { x with chgBlock := false } else { x with disBlock := false })

/-! ## Balancing (R312, R313) -/

/-- The cells marked for bleeding: from 0.005 × Qnom below the largest headroom, until within 0.001 × Qnom of it. A cell
flagged SHORT_SUSPECT is excluded (R311). -/
def markCells (t : CfgRec) (cells : List (Cell × Learned)) (marked : List Nat) : List Nat :=
  let h := cells.map fun p => p.2.q * (t.zHigh - p.1.z)
  let top := ratMost h
  (List.range 256).filter fun k =>
    let d := top - h.getD k top
    (decide (t.qNom * 5 / 1000 ≤ d) || (marked.contains k && decide (t.qNom / 1000 ≤ d))) &&
    !((cells[k]?).any fun p => bit p.1.flags 11)
/-- R312, R313: the marks of every string that qualifies, and BALANCE with a duration of 120 s to each that has any. -/
def State.balanceStr (s : State) (i : Nat) : State :=
  match s.strType i with
  | none => s
  | some t =>
    if s.mayBalance i then
      let e := s.estStr i
      let m := markCells t (e.cells.zip e.learned) (s.pstr i).marked
      if m = [] then s.stopBalance i
      else (s.modPstr i fun x => { x with marked := m, balancing := true }).sendBalance i m 120
    else s.stopBalance i
def execBalanceCycle (s : State) : Res State :=
  if s.mayCommand then .next (s.strings.foldl State.balanceStr s).settled else .next s

/-! ## Thermal control (R314, R315) -/

/-- The set-point of R314 from the normal one and the hottest and coldest cell. -/
def thermalSetpoint (tn hot cold : Rat) : Rat :=
  let x := if tn + 5 < hot then ratMax (tn - 15) (tn - (hot - tn - 5))
           else if cold < tn - 5 then ratMin (tn + 10) (tn + (tn - 5 - cold)) else tn
  ratClamp 5 45 x
/-- A container's set-point and mode computed, and THERMAL sent when the set-point has changed by 0.5 °C, the mode has
changed, or 60 s have passed (R216, R314). -/
def State.thermalCon (s : State) (c : Nat) : State :=
  let temps := ((s.stringsOf c).filter fun i => (s.estStr i).time.isSome).flatMap fun i => (s.estStr i).cells.map (·.temp)
  let tn := cfgR (s.cfg 5 2 c) 0x14 25
  let hot := if temps = [] then tn else ratMost temps
  let cold := if temps = [] then tn else ratLeast temps
  let sp := thermalSetpoint tn hot cold
  let x := s.pcon c
  let mode := if x.manual ≠ 0 then x.manual else if s.standLimit 3 - 5 ≤ hot then 1 else 0
  let s := s.setPcon c { x with tHot := hot, tCold := cold }
  let due := x.sentAt.all fun t => decide (t + 6000000 ≤ s.tick)
  let hears := (s.conNode c).state == 3 || (s.conNode c).state == 4
  if hears && (due || decide (1 / 2 ≤ ratAbs (sp - x.setpoint)) || mode != x.mode) then
    let s := s.modPcon c fun x => { x with setpoint := sp, mode := mode, sentAt := some s.tick }
    s.request (c / 16) (s.containerBerth c) 6 (le 4 (toB32 sp).toNat ++ le 1 mode ++ le 3 0) .plain
  else s
def execThermalSetpointCycle (s : State) : Res State :=
  if s.mayCommand then .next (s.containers.foldl State.thermalCon s).settled else .next s
/-- R315: 60 s after the fault cleared. -/
def execThermalFaultBlockEnd (c : Nat) (s : State) : Res State :=
  if bit (s.pcon c).word 6 then .next s else .next (s.modPcon c fun x => { x with thermBlock := false })

/-! ## The protection commands (R316, R317) -/

/-- R316: STRING_CLOSE sets the intent; the command waits for the string to close. -/
def State.stringClose (q : Nat) (c : Cmd) (s : State) : State :=
  let i := u16 c.args 0 % 4096
  if (s.cfg 5 3 i).isNone then s.complete q STATE 0
  else
    let s := s.setIntent i true
    let x := s.pstr i
    if x.state = 3 then s.complete q OK (s.strResult i)
    else if x.state = 5 then s.complete q 0x0712 (s.strResult i)
    else if x.state = 6 then s.complete q STATE (s.strResult i)
    else if (s.strNode i).state = 4 then s.complete q 0x0713 (s.strResult i)
    else
      let s := (s.completeOpt x.closeQ 0x0710 (s.strResult i)).wakeFor (i / 256)
      (((s.modPstr i fun x => { x with closeQ := some q, waitSince := none }).tryClose i)).settled
def execStringClose (q : Nat) (s : State) : Res State := s.onCmd q CmdCode.stringCloseCode (State.stringClose q)
/-- While evacuation operation is active the opening commands need the engineer role (R316). -/
def State.openRole (s : State) (c : Cmd) : Bool := !s.evac || s.engineer c.sess
/-- R316, R301: STRING_OPEN clears the intent and opens the string; during CLOSING it cancels the close. -/
def State.stringOpen (q : Nat) (c : Cmd) (s : State) : State :=
  let i := u16 c.args 0 % 4096
  if (s.cfg 5 3 i).isNone then s.complete q STATE 0
  else if s.openRole c = false then s.complete q ROLE (s.strResult i)
  else
    let s := s.setIntent i false
    let x := s.pstr i
    let s := s.completeOpt x.openQ 0x0710 (s.strResult i)
    let live := (s.estStr i).contact % 4 != 0
    if x.state = 2 ∧ x.inFlight then s.modPstr i fun x => { x with openQ := some q, next := 1 }
    else if x.state = 2 then ((s.modPstr i fun x => { x with openQ := some q }).cancelClose i).settled
    else if x.opening then s.modPstr i fun x => { x with openQ := some q }
    else if x.state = 3 ∨ x.state = 4 ∨ (live = true ∧ x.state ≠ 6) then
      (((s.endClose i 0x0710).modPstr i fun x => { x with openQ := some q }).startOpen i).settled
    else (s.endClose i 0x0710).complete q (if live then STATE else OK) (s.strResult i)
def execStringOpen (q : Nat) (s : State) : Res State := s.onCmd q CmdCode.stringOpenCode (State.stringOpen q)
/-- R316: CONTAINER_CLOSE sets the intent; the command waits for the breaker to close. -/
def State.containerClose (q : Nat) (c : Cmd) (s : State) : State :=
  let k := u16 c.args 0 % 256
  if (s.cfg 5 2 k).isNone then s.complete q STATE 0
  else
    let s := s.setIntentCon k true
    let x := s.pcon k
    if x.state = 3 then s.complete q OK (s.conResult k)
    else if x.state = 5 then s.complete q 0x0712 (s.conResult k)
    else if (s.conNode k).state = 4 then s.complete q 0x0713 (s.conResult k)
    else
      let s := (s.completeOpt x.closeQ 0x0710 (s.conResult k)).wakeFor (k / 16)
      (((s.modPcon k fun x => { x with closeQ := some q }).tryCloseCon k)).settled
def execContainerClose (q : Nat) (s : State) : Res State := s.onCmd q CmdCode.containerCloseCode (State.containerClose q)
/-- R316, R303: CONTAINER_OPEN clears the intent and opens the breaker, then its strings where asked. -/
def State.containerOpen (q : Nat) (c : Cmd) (s : State) : State :=
  let k := u16 c.args 0 % 256
  let strs := bit (u8 c.args 2) 0
  if (s.cfg 5 2 k).isNone then s.complete q STATE 0
  else if s.openRole c = false then s.complete q ROLE (s.conResult k)
  else
    let s := s.setIntentCon k false
    let x := s.pcon k
    let s := s.completeOpt x.closeQ 0x0710 (s.conResult k)
    let s := s.completeOpt x.openQ 0x0710 (s.conResult k)
    let s := s.modPcon k fun x => { x with closeQ := none, openQ := some q, withStrings := strs }
    if x.state = 6 then s.conGone k
    else if x.closed && x.state == 5 then (s.modPcon k fun x => { x with openQ := none }).complete q 0x0712 (s.conResult k)
    else if x.closed || x.state == 2 then s.startOpenCon k strs
    else (s.openStrings k).settled
def execContainerOpen (q : Nat) (s : State) : Res State := s.onCmd q CmdCode.containerOpenCode (State.containerOpen q)
/-- The cause of a container's trip still holds (R296). -/
def State.conCauseHolds (s : State) (c : Nat) : Bool :=
  let x := s.pcon c
  match x.cause with
  | 1 => bit x.word 3
  | 2 => bit x.word 2
  | 3 => x.watch.any fun p => decide (10 ≤ p.2)
  | _ => false
/-- R296: RESET_TRIP returns a TRIPPED string or container to OPEN once its cause has cleared. -/
def State.resetTrip (q : Nat) (c : Cmd) (s : State) : State :=
  let k := u16 c.args 2
  if 1 < u8 c.args 0 then s.complete q 0x0101 0
  else if u8 c.args 0 = 0 then
    let i := k % 4096
    if (s.pstr i).state = 5 ∧ s.causeHolds i (s.pstr i).cause = false then
      let s := s.strTo i 1
      s.complete q OK (s.strResult i)
    else s.complete q STATE (s.strResult i)
  else
    let j := k % 256
    if (s.pcon j).state = 5 ∧ s.conCauseHolds j = false then
      let s := (s.modPcon j fun x => { x with sentOpen := false }).conTo j 1
      s.complete q OK (s.conResult j)
    else s.complete q STATE (s.conResult j)
def execResetTrip (q : Nat) (s : State) : Res State := s.onCmd q CmdCode.resetTripCode (State.resetTrip q)
/-- R315, R316: THERMAL_MODE; off only while the breaker is open. -/
def State.thermalMode (q : Nat) (c : Cmd) (s : State) : State :=
  let k := u16 c.args 0 % 256
  let m := u8 c.args 2
  if 2 < m then s.complete q 0x0101 (s.conResult k)
  else if (s.cfg 5 2 k).isNone || (m == 2 && !s.conOpenSeen k) then s.complete q STATE (s.conResult k)
  else
    let s := s.modPcon k fun x => { x with manual := m }
    let s := if s.mayCommand then s.thermalCon k else s
    (s.complete q OK (s.conResult k)).settled
def execThermalMode (q : Nat) (s : State) : Res State := s.onCmd q CmdCode.thermalModeCode (State.thermalMode q)
/-- R717, R320: CLEAR_COUNTERS of protection; the charge bled since start is one of its figures. -/
def execPltProtClearCounters (sess key : Nat) (s : State) : Res State :=
  if s.keyed sess key then .next (s.clearCounters 0x70000 0x80) else .next s

end Sys2Proof.Machine
end

