-- ==== Sys2Proof/Machine/DispOps.lean ====
section
/-!
DEFINITION. Plant dispatch as its commands and the other units use it: PCS datagrams (R342 to R348), sources (R322 to
R328), limit layers (R330, R331), the last-ferry reserve (R333 to R338), sharing (R341) and billing intervals (R353 to
R356).
-/
namespace Sys2Proof.Machine
open Sys2Proof

/-! ## PCS units -/

def Pcs.fresh : Pcs := ⟨1, 0, none, 0, 0, 0, 0, 0, [], 0, [], none⟩
def State.pcs (s : State) (p : Nat) : Pcs := tgetD s.disp.pcs p Pcs.fresh
def State.setPcs (s : State) (p : Nat) (x : Pcs) : State := { s with disp := { s.disp with pcs := tput s.disp.pcs p x } }
def State.modDisp (s : State) (f : Disp → Disp) : State := { s with disp := f s.disp }
/-- The declared units (R52), and a unit's record (R340). -/
def State.pcsUnits (s : State) : List CfgRec := s.cfgAll 5 4
def CfgRec.rating (u : CfgRec) : Rat := u.f32 0x10
def CfgRec.etaU (u : CfgRec) : Rat := cfgR (some u) 0x14 (97 / 100)
def CfgRec.islandCap (u : CfgRec) : Bool := bit (u.u8 0x18) 0
def CfgRec.gridCap (u : CfgRec) : Bool := bit (u.u8 0x18) 1
/-- The containers on a unit's DC ports, by port. -/
def CfgRec.portCons (u : CfgRec) : List Nat := (List.range (u.u8 0x19)).map fun k => u.u8 (0x1C + k)
def State.pcsLive (s : State) (p : Nat) : Bool := (s.pcs p).state == 2
def State.liveUnits (s : State) : List CfgRec := s.pcsUnits.filter fun u => s.pcsLive u.id
/-- Pref: the ratings of the live units together (R324). -/
def State.pRef (s : State) : Rat := ratSum (s.liveUnits.map (·.rating))
/-- A datagram of the Turid (R343), sealed by its CRC. -/
def pcsDatagram (typ p seq plant app sent : Nat) (payload : List Byte) : List Byte :=
  let b := le 1 typ ++ le 1 1 ++ le 1 p ++ le 1 0 ++ le 2 seq ++ le 2 payload.length ++ le 8 plant ++ le 8 app ++ le 8 sent ++ payload
  b ++ le 4 (crc32c b).toNat
def State.plantNow (s : State) : Nat := s.rd64 R.PWR_PLANT_TIME_LO
/-- A datagram to a unit, in one copy for each cage that its endpoint names, both under one sequence (R26, R342). -/
def State.sendPcs (s : State) (p typ app : Nat) (payload : List Byte) : State :=
  let x := s.pcs p
  let q := (x.txSeq + 1) % 2 ^ 16
  let d := pcsDatagram typ p q s.plantIdent app s.plantNow payload
  let cages := (s.cfg 10 5 p).elim 0 (·.u8 0x16)
  let s := s.setPcs p { x with txSeq := q }
  let s := if bit cages 0 then (s.inc R.NET_PCS_TX).sendEth 2 typ p d else s
  if bit cages 1 then (s.inc R.NET_PCS_TX).sendEth 3 typ p d else s
/-- HOLD to every declared unit (R35, R348). -/
def State.holdPcs (s : State) (reason : Nat) : State :=
  s.pcsUnits.foldl (fun s u => s.sendPcs u.id 2 s.plantNow (le 1 reason ++ List.replicate 7 0)) s
/-- STANDING to a unit (R348), its generation growing whenever the content changes (R217). -/
def State.sendPcsStanding (s : State) (p : Nat) : State :=
  match s.cfg 13 1 2 with
  | none => s
  | some r =>
    let c := le 2 (if r.u16 0x10 = 0 then 200 else r.u16 0x10) ++ le 2 0 ++ (r.body.drop 0x18).take 12
    let x := s.pcs p
    let g := if x.standing = c then x.standGen else (x.standGen + 1) % 2 ^ 32
    (s.setPcs p { x with standGen := g, standing := c }).sendPcs p 3 s.plantNow (le 4 g ++ c)
/-- The unit's status register (R361). -/
def State.showPcs (s : State) (p : Nat) : State :=
  let x := s.pcs p
  let s := s.wr (R.PLT_PCS_STATUS_STATE p) (if x.state == 2 && bit x.flags 3 then 4 else x.state)
  let s := s.wrB (R.PLT_PCS_STATUS_GRID_PRESENT p) (bit x.flags 0)
  let s := s.wrB (R.PLT_PCS_STATUS_ISLAND p) (bit x.flags 1)
  let s := s.wrB (R.PLT_PCS_STATUS_FLOOR p) (x.ports.any fun t => bit t.flags 0)
  let s := s.wrB (R.PLT_PCS_STATUS_CEILING p) (x.ports.any fun t => bit t.flags 1)
  let s := s.wrB (R.PLT_PCS_STATUS_LATE p) (bit x.flags 6)
  let s := s.wrB (R.PLT_PCS_STATUS_FAULT p) (bit x.flags 5 || x.ports.any fun t => bit t.flags 2)
  let s := s.wr (R.PLT_PCS_STATUS_POWER p) (BitVec.ofInt 16 (ratRne (x.power / 1000))).toNat
  s.wrB (if p < 32 then R.PLT_PCS_LIVE_LO.bit p else R.PLT_PCS_LIVE_HI.bit (p - 32)) (x.state == 2)

/-! ## Modes -/

abbrev GRID : Nat := 1
abbrev ISLAND : Nat := 2
abbrev EVACUATION : Nat := 3
def State.dispMode (s : State) : Nat := s.rd R.PLT_DISP_STATUS_MODE
def State.mainsLost (s : State) : Bool := s.on R.PLT_EVAC_STATUS_MAINS_LOST
def State.fireAlarm (s : State) : Bool := s.on R.PLT_EVAC_STATUS_FIRE_ALARM
def State.setMode (s : State) (m : Nat) : State :=
  if s.dispMode = m then s
  else ((s.wr R.PLT_DISP_STATUS_MODE m).wrB R.PLT_EVAC_STATUS_EVACUATION (m == EVACUATION)).flag
    R.PLT_DISP_EVENT_STATUS_MODE_CHANGE
/-- Units are commanded ISLAND in ISLAND, and in EVACUATION until mains present is confirmed (R351). -/
def State.islanded (s : State) : Bool := s.dispMode == ISLAND || (s.dispMode == EVACUATION && s.mainsLost)
def State.stale (s : State) : Bool := s.on R.EST_STATUS_ROLLUP_STALE

/-! ## The reserve (R333 to R338) -/

/-- The hold time of a fire alarm, s (R350, R362). -/
def State.alarmHold (s : State) : Nat := cfgD (s.cfg 8 4 0) (fun (r : CfgRec) => r.u16 0x3C) 300
/-- The seconds left of the hold, an open value while the alarm holds: no row tells when the inputs went inactive (log 1). -/
def State.alarmSecond (s : State) : State :=
  if s.on R.PLT_EVAC_STATUS_FIRE_ALARM then
    let (w, s) := s.drawWord
    s.wr R.PLT_EVAC_STATUS_ALARM_HOLD (w.toNat % (s.alarmHold + 1))
  else s

def State.reserveRec (s : State) : Option CfgRec := s.cfg 8 4 0
def gAcc : Rat := 980665 / 100000
/-- A car's figures of R480: rated load, balance, speed, acceleration, jerk, and travel in m. -/
structure CarSpec where
  mL : Rat
  b : Rat
  v : Rat
  a : Rat
  j : Rat
  travel : Rat
  deriving DecidableEq, Repr
/-- A landing's height in µm (R479), and whether a car serves it. -/
def State.landingUm (s : State) (l : Nat) : Int := (s.cfg 6 1 l).elim 0 fun r => (BitVec.ofNat 64 (r.u64 0x10)).toInt
def CfgRec.serves (c : CfgRec) (l : Nat) : Bool := bit (c.u8 (0x40 + l / 8)) (l % 8)
/-- The landings a car serves, lowest first. -/
def State.served (s : State) (c : Nat) : List Nat :=
  match s.cfg 6 2 c with
  | none => []
  | some r => (List.range 128).filter fun l => r.serves l && (s.cfg 6 1 l).isSome
/-- Rated speed, acceleration and jerk of a car, capped by R23 (R480). -/
def CfgRec.carV (r : Option CfgRec) : Rat := ratMin 12 (cfgR r 0x18 0)
def CfgRec.carA (r : Option CfgRec) : Rat := ratMin (16 / 10) (cfgR r 0x1C 0)
def CfgRec.carJ (r : Option CfgRec) : Rat := ratMin 3 (cfgR r 0x20 0)
def State.carSpec (s : State) (c : Nat) : CarSpec :=
  let r := s.cfg 6 2 c
  let l := s.served c
  { mL := cfgR r 0x10 0, b := r.elim (1 / 2) (fun (x : CfgRec) => x.f32 0x14), v := CfgRec.carV r, a := CfgRec.carA r, j := CfgRec.carJ r,
    travel := ((s.landingUm (l.getLastD 0) - s.landingUm (l.headD 0) : Int) : Rat) / 1000000 }
def State.cars (s : State) : List Nat := (s.cfgAll 6 2).map (·.id)
/-- The parameters of the RESERVE record (R362) with their defaults. -/
def State.pLight (s : State) : Rat := cfgR s.reserveRec 0x10 0
def State.etaUp (s : State) : Rat := cfgR s.reserveRec 0x34 (8 / 10)
def State.pAux (s : State) : Rat := cfgR s.reserveRec 0x2C 5000
def State.tDwell (s : State) : Rat := cfgR s.reserveRec 0x30 30
def State.rhoRegen (s : State) : Rat := cfgR s.reserveRec 0x28 0
def State.goesUp (s : State) : Bool := s.reserveRec.all fun r => r.u8 0x1A == 0
/-- The cost of a leg that lifts a net mass through a travel, J (R334). -/
def State.legCost (s : State) (mnet travel : Rat) : Rat :=
  let w := mnet * gAcc * travel
  if 0 < w then w / s.etaUp else s.rhoRegen * w * s.etaUp
/-- Etrip of a car, J (R334). -/
def State.tripJ (s : State) (c : Nat) : Rat :=
  let x := s.carSpec c
  let sign : Rat := if s.goesUp then 1 else -1
  let t := 2 * (ratDiv x.travel x.v + ratDiv x.v x.a + ratDiv x.a x.j) + s.tDwell
  s.legCost (sign * (1 - x.b) * x.mL) x.travel + s.legCost (sign * x.b * x.mL) x.travel + s.pAux * t
def State.eLight (s : State) : Rat := s.pLight * cfgR s.reserveRec 0x14 0 / 3600
def State.eLift (s : State) : Rat :=
  ratSum (s.cars.map fun c => s.tripJ c / 3600) * ((s.reserveRec.elim 0 (·.u16 0x18) : Nat) : Rat)
/-- Ereq, Wh (R333). -/
def State.eReq (s : State) : Rat :=
  (s.eLight + s.eLift) / cfgR s.reserveRec 0x1C (92 / 100) * (1 + cfgR s.reserveRec 0x20 (1 / 10))
def State.eBand (s : State) : Rat := s.eReq * cfgR s.reserveRec 0x24 (5 / 100)
/-- The containers that an island-capable unit serves. -/
def State.islandCons (s : State) : List Nat := (s.pcsUnits.filter (·.islandCap)).flatMap (·.portCons)
/-- Eres, Wh (R335). -/
def State.eRes (s : State) : Rat :=
  let cons := (rollCons s.est.roll).filter s.islandCons.contains
  let es := cons.map fun c => conSum (rollOf s.est.roll c) (·.eCons)
  let off := s.reserveRec.any fun r => bit (r.u8 0x1B) 0
  ratSum es - (if off ∨ es = [] then 0 else ratMost es)
/-- The margin M, which reads 0 while the roll-up is stale (R339). -/
def State.margin (s : State) : Rat := if s.stale then 0 else s.eRes - s.eReq
/-- The peak power of a car (R338). -/
def State.peakPower (s : State) (c : Nat) : Rat :=
  let x := s.carSpec c
  (1 - x.b) * x.mL * (gAcc + x.a) * x.v / s.etaUp + s.pAux

/-! ## Capabilities and shares (R341, R339) -/

/-- A container's discharge and charge power as dispatch counts it: its figures of the roll-up where protection allows the
direction to the container and to every counting string, whose smallest limit counts (R282); in ISLAND and EVACUATION on a stale roll-up the frozen discharge times the stale factor. -/
def State.conPower (s : State) (c : Nat) : Rat × Rat :=
  let strs := (rollOf s.est.roll c).filter fun r => r.counts
  let disOk := strs.filter fun r => (s.strAllowed r.idx).2
  let chgOk := strs.filter fun r => (s.strAllowed r.idx).1
  let (cOk, dOk) := s.conAllowed c
  let dis := if dOk && disOk.length == strs.length then conLeast strs (·.pDis) else 0
  let chg := if cOk && chgOk.length == strs.length then conLeast strs (·.pChg) else 0
  if s.stale then (dis * cfgR (s.cfg 8 2 0) 0x28 (1 / 2), 0) else (dis, chg)
def State.capDis (s : State) (u : CfgRec) : Rat :=
  ratMin u.rating (u.etaU * ratSum (u.portCons.map fun c => (s.conPower c).1))
def State.capChg (s : State) (u : CfgRec) : Rat :=
  ratMin u.rating (ratSum (u.portCons.map fun c => (s.conPower c).2) / u.etaU)
/-- The island limits together (R352): the discharge capabilities of the island-capable live units. -/
def State.islandSum (s : State) : Rat := ratSum ((s.liveUnits.filter (·.islandCap)).map s.capDis)

/-! ## Sources (R322 to R328) -/

def State.srcRec (s : State) : Option CfgRec := s.cfg 8 1 0
def SchedEntry.watts (e : SchedEntry) : Rat := (f32? e.power).getD 0
/-- The schedule entry in force and those after it (R327). -/
def schedNow (l : List SchedEntry) (t : Nat) : Option SchedEntry := (l.filter fun e => decide (e.time ≤ t)).getLast?
def schedAfter (l : List SchedEntry) (t : Nat) : Option SchedEntry := l.find? fun e => decide (t < e.time)
/-- Entries older than the one in force are discarded. -/
def schedPrune (l : List SchedEntry) (t : Nat) : List SchedEntry :=
  match schedNow l t with
  | none => l
  | some e => l.filter fun x => decide (e.time ≤ x.time)
/-- The median grid frequency of the live units that report one, Hz; 0 without any. -/
def State.gridFreq (s : State) : Rat :=
  let f := ((s.liveUnits.map fun u => (s.pcs u.id).freq).filter fun f => f != 0)
  if f = [] then 0 else median f
/-- The DROOP value (R328). -/
def State.droop (s : State) : Rat :=
  let r := s.cfg 8 3 0
  let nom := cfgR r 0x10 50
  let dead := cfgR r 0x18 (2 / 100)
  let df := s.gridFreq - nom
  let eff := if ratAbs df ≤ dead then 0 else if 0 < df then df - dead else df + dead
  if s.gridFreq = 0 then 0 else -(eff / nom) / cfgR r 0x14 (4 / 100) * s.pRef
def State.input (s : State) (cls item : Nat) : Rat := tgetD s.disp.inputs (cls * 4096 + item) 0
/-- The source is in fault at this instant (R322). -/
def State.srcFaulty (s : State) (src : Nat) : Bool :=
  match src with
  | 1 => !s.timeKnown || (schedNow s.disp.sched s.plantNow).isNone
  | 2 =>
    let x := s.input 2 (s.srcRec.elim 0 (·.u8 0x14))
    if s.srcRec.any fun r => r.u8 0x15 == 1 then decide (x < 36 / 10) || decide (21 < x) else decide (105 / 10 < ratAbs x)
  | 3 =>
    let x := s.input 3 (s.srcRec.elim 0 (·.u8 0x16))
    let lo := s.srcRec.elim 0 (·.f32 0x20)
    let hi := s.srcRec.elim 0 (·.f32 0x24)
    decide (hi * 105 / 100 < x) || (decide (0 < lo) && decide (x < lo * 9 / 10))
  | 4 => s.gridFreq == 0 || s.mainsLost
  | _ => false
/-- The linear map of R323. -/
def linMap (x xlo xhi plo phi : Rat) : Rat := plo + ratDiv ((ratClamp xlo xhi x - xlo) * (phi - plo)) (xhi - xlo)
/-- The value of a source before any ramp (R322). -/
def State.srcValue (s : State) (src : Nat) : Rat :=
  match src, s.srcRec with
  | 1, _ =>
    match schedNow s.disp.sched s.plantNow with
    | none => 0
    | some e =>
      match e.ramp, schedAfter s.disp.sched s.plantNow with
      | true, some n => e.watts + (n.watts - e.watts) * ((s.plantNow - e.time : Nat) : Rat) / ((n.time - e.time : Nat) : Rat)
      | _, _ => e.watts
  | 2, some r =>
    let ma := r.u8 0x15 == 1
    linMap (s.input 2 (r.u8 0x14)) (if ma then 4 else -10) (if ma then 20 else 10) (r.f32 0x18) (r.f32 0x1C)
  | 3, some r => linMap (s.input 3 (r.u8 0x16)) (r.f32 0x20) (r.f32 0x24) (r.f32 0x28) (r.f32 0x2C)
  | 4, _ => s.droop
  | 5, _ => if s.tick < s.disp.heldAt + 100000 then s.disp.held else 0
  | _, _ => 0
def State.srcInUse (s : State) : Nat := s.rd R.PLT_SOURCE_SELECT_IN_USE
def State.useSource (s : State) (src : Nat) : State :=
  (s.wr R.PLT_SOURCE_SELECT_IN_USE src).modDisp fun d => { d with switching := true, held := d.value, heldAt := s.tick }
/-- The switch to the fallback source, or to ZERO when that faults too (R325). -/
def State.fallBack (s : State) (src : Nat) : State :=
  let fb := s.srcRec.elim 0 (·.u8 0x11)
  let toward := if src = fb ∨ s.srcFaulty fb = true then 0 else fb
  let s := (s.useSource toward).wrB R.PLT_DISP_STATUS_SOURCE_FALLBACK true
  (s.raise Ev.SOURCE_FALLBACK 0 (le 1 src ++ le 1 toward)).flag R.PLT_DISP_EVENT_STATUS_SOURCE_FALLBACK
/-- Ramp rate in force, W/s (R324). -/
def State.rampRate (s : State) : Rat := s.pRef * cfgR (s.cfg 8 2 0) 0x1C (1 / 10)

/-! ## Layers (R330, R331) -/

/-- A layer: its rank and its bounds, none where it has none. -/
structure Layer where
  rank : Nat
  lo : Option Rat
  hi : Option Rat
  deriving DecidableEq, Repr
/-- The bounds with the rank that set each. -/
structure Bounds where
  lo : Option Rat
  hi : Option Rat
  loRank : Nat
  hiRank : Nat
  deriving DecidableEq, Repr
def maxLo (a b : Option Rat) : Option Rat := match a, b with
  | none, y => y
  | x, none => x
  | some x, some y => some (ratMax x y)
def minHi (a b : Option Rat) : Option Rat := match a, b with
  | none, y => y
  | x, none => x
  | some x, some y => some (ratMin x y)
def leB (lo hi : Option Rat) : Bool := match lo, hi with
  | some x, some y => decide (x ≤ y)
  | _, _ => true
/-- One layer combined into the bounds (R331). -/
def Bounds.add (b : Bounds) (l : Layer) : Bounds :=
  let lo := maxLo b.lo l.lo
  let hi := minHi b.hi l.hi
  if leB lo hi then
    ⟨lo, hi, if lo = b.lo then b.loRank else l.rank, if hi = b.hi then b.hiRank else l.rank⟩
  else if leB l.lo b.hi = false then { b with lo := b.hi, loRank := b.hiRank }
  else { b with hi := b.lo, hiRank := b.loRank }
def stack (l : List Layer) : Bounds := l.foldl Bounds.add ⟨none, none, 0, 0⟩
def clampB (b : Bounds) (x : Rat) : Rat :=
  let y := match b.lo with
    | some l => ratMax l x
    | none => x
  match b.hi with
  | some h => ratMin h y
  | none => y
/-- A binary32 limit register: an infinite one sets no bound. -/
def State.hostMax (s : State) (f : Fld) : Option Rat := f32? (BitVec.ofNat 32 (s.rd f))
/-- The layers of R330 from the highest rank down. -/
def State.layers (s : State) : List Layer :=
  let lim := s.cfg 8 2 0
  let mode : List Layer := if s.stale || !s.mayCommand || !s.underway then [⟨5, some 0, some 0⟩] else []
  let cd := ratSum (s.liveUnits.map s.capDis)
  let cc := ratSum (s.liveUnits.map s.capChg)
  let m := s.margin
  let rec' : List Layer :=
    if s.stale then []
    else if m < 0 ∧ s.mainsLost = false then [⟨3, none, some (-(s.pRef * cfgR lim 0x20 (5 / 100)))⟩]
    else [⟨3, none, some (s.pRef * ratClamp 0 1 (ratDiv m s.eBand))⟩]
  let grid := lim.map (·.f32 0x18)
  let imp := minHi (lim.map (·.f32 0x14)) (s.hostMax R.PLT_HOST_IMPORT_MAX)
  let exp := minHi (lim.map (·.f32 0x10)) (s.hostMax R.PLT_HOST_EXPORT_MAX)
  mode ++ [⟨4, some (-cc), some cd⟩] ++ rec' ++ [⟨2, grid.map (- ·), grid⟩, ⟨1, imp.map (- ·), exp⟩]

/-! ## Billing (R353 to R357) -/

def State.billLen (s : State) : Nat := cfgD (s.cfg 8 5 0) (·.u8 0x10) 15 * 60
/-- Plant time in seconds with the local offset of the BILLING record. -/
def State.billSeconds (s : State) : Int :=
  ((s.plantNow / 1000000000 : Nat) : Int) + (s.cfg 8 5 0).elim 0 fun r => (BitVec.ofNat 32 (r.u32 0x14)).toInt
/-- The label of the slot that holds the present plant time. -/
def State.slotLabel (s : State) : Int := s.billSeconds / s.billLen * s.billLen
def State.showBill (s : State) : State :=
  match s.disp.bill with
  | none => s
  | some b => (((s.wrR R.PLT_BILL_IMPORT b.imp).wrR R.PLT_BILL_EXPORT b.exp).wr R.PLT_BILL_FLAGS b.flags).wr R.PLT_BILL_SEQ b.seq
def orBit (f b : Nat) : Nat := if bit f b then f else f + 2 ^ b
def State.billFlag (s : State) (b : Nat) : State :=
  s.modDisp fun d => { d with bill := d.bill.map fun x => { x with flags := orBit x.flags b } }
/-- An interval opened for the slot that holds the present time, PARTIAL where that has begun (R353, R355). -/
def State.openBill (s : State) (extra : Nat) : State :=
  let known := s.timeKnown
  let label := if known then (s.slotLabel % 2 ^ 32).toNat else 0
  let partial' := known && s.billSeconds != s.slotLabel
  let flags := extra + (if known then 0 else 4) + (if partial' && !bit extra 3 then 8 else 0)
  let s := { s with nv := { s.nv with billSeq := (s.nv.billSeq + 1) % 2 ^ 32 } }
  (s.modDisp fun d => { d with bill := some ⟨s.nv.billSeq, label, s.plantNow, 0, 0, 0, flags⟩ }).showBill
/-- A closed interval's record stored; the region keeps 696,320 (R354, R357). -/
def State.storeBill (s : State) (b : Billing) : State :=
  { s with nv := { s.nv with billing := (b :: s.nv.billing).take 696320 } }.raise Ev.INTERVAL_CLOSED 0 (le 4 b.seq ++ le 2 b.flags)
/-- The open interval is closed, with a further flag. -/
def State.closeBill (s : State) (flag : Option Nat) : State :=
  match s.disp.bill with
  | none => s
  | some x =>
    let f := flag.elim x.flags (orBit x.flags)
    let s := s.storeBill ⟨x.seq, x.label, x.ms, x.imp, x.exp, f⟩
    { (s.modDisp fun d => { d with bill := none }) with nv := { s.nv with billOpen := none } }
/-- A plant-time step from one time to the present one (R355), in seconds; `backward` tells its direction. -/
def State.billStep (s : State) (big backward : Bool) : State :=
  match s.disp.bill with
  | none => s
  | some x =>
    if !big then s
    else if bit x.flags 2 then s
    else if x.label = (s.slotLabel % 2 ^ 32).toNat then (s.billFlag 6).showBill
    else (s.closeBill (some 0)).openBill (8 + (if backward then 2 else 0))
/-- Plant time first locks: the TIME_UNKNOWN interval closes (R356). -/
def State.billLocked (s : State) : State :=
  match s.disp.bill with
  | some x => if bit x.flags 2 then (s.closeBill none).openBill 0 else s
  | none => s
/-- At a start the interval open at the power loss is closed with POWER_LOSS, and a new one opens (R356). -/
def State.billStart (s : State) : State :=
  let s := match s.nv.billOpen with
    | none => s
    | some b => (s.storeBill { b with flags := orBit b.flags 4 })
  { s with nv := { s.nv with billOpen := none } }.openBill 0
/-- Energy booked to the open interval, Wh. -/
def State.book (s : State) (exp imp : Nat) : State :=
  (s.modDisp fun d => { d with bill := d.bill.map fun x => { x with imp := x.imp + (imp : Rat), exp := x.exp + (exp : Rat) } }).showBill
/-- The GAP record of a unit that becomes live again (R356): the energy since the values last booked or stored for it. -/
def State.bookGap (s : State) (last : Nat × Nat × Nat) (exp imp : Nat) : State :=
  let known := s.timeKnown && last.2.2 != 0 && decide (last.2.2 ≤ s.plantNow)
  let off : Int := (s.cfg 8 5 0).elim 0 fun r => (BitVec.ofNat 32 (r.u32 0x14)).toInt
  let label := if known then ((((last.2.2 / 1000000000 : Nat) : Int) + off) % 2 ^ 32).toNat else 0
  let ms := if known then (s.plantNow - last.2.2) / 1000000 else 0
  let seq := (s.nv.billSeq + 1) % 2 ^ 32
  let s := { s with nv := { s.nv with billSeq := seq } }
  s.storeBill ⟨seq, label, ms, ((imp - last.2.1 : Nat) : Rat), ((exp - last.1 : Nat) : Rat), 32 + (if known then 0 else 4)⟩

end Sys2Proof.Machine
end

