-- ==== Sys2Proof/Machine/Disp.lean ====
section
/-!
DEFINITION. The dispatch commands and events (R321 to R362): the 1 ms cycle, sources, PCS units, billing and the host
schedule. One meaning per row.
-/
namespace Sys2Proof.Machine
open Sys2Proof

/-! ## The 1 ms cycle (R329 to R347) -/

/-- The source sampled and ramped in a tick (R324, R329): every source but DROOP ramps, and every switch of source ramps until the
value is reached. -/
def State.sampleSource (s : State) : State :=
  let src := s.srcInUse
  let target : Rat := s.srcValue src
  let step := s.rampRate / 100000
  let ramped := s.disp.switching || (src != 4 && src != 0)
  let v : Rat := if ramped then s.disp.value + ratClamp (-step) step (target - s.disp.value) else target
  s.modDisp fun d => { d with value := v, switching := d.switching && v != target }
/-- The value after its ramp with what ADD_DROOP adds (R328); entries older than the one in force are gone (R327). -/
def State.showSource (s : State) : State :=
  let add : Rat := if s.srcInUse != 4 && s.srcRec.any (fun r => bit (r.u8 0x13) 0) then s.droop else 0
  let s := s.modDisp fun d => { d with sched := schedPrune d.sched s.plantNow }
  (s.wrR R.PLT_SOURCE_VALUE (s.disp.value + add)).wr R.PLT_SCHEDULE_DEPTH s.disp.sched.length
/-- In every tick the loop engine samples the source, ramps it and clamps it to the bounds published last (R329). -/
def State.sourceTick (s : State) : State :=
  if s.on R.PLT_DISP_STATUS_RUNNING then
    let s := s.sampleSource.showSource
    s.wrR R.PLT_SETPOINT (clampB ⟨s.hostMax R.PLT_LOWER_BOUND, s.hostMax R.PLT_UPPER_BOUND, 0, 0⟩ (s.rdR R.PLT_SOURCE_VALUE 0))
  else s
/-- The bounds, the set-point and the rank that sets each bound it stands on (R331, R332). -/
def State.setBounds (s : State) : State :=
  let b := stack s.layers
  let x := s.rdR R.PLT_SOURCE_VALUE 0
  let p := clampB b x
  let s := (s.wrR R.PLT_SETPOINT p).wr R.PLT_UPPER_BOUND (b.hi.elim 0x7F800000 fun h => (toB32 h).toNat)
  let s := s.wr R.PLT_LOWER_BOUND (b.lo.elim 0xFF800000 fun l => (toB32 l).toNat)
  let s := s.wr R.PLT_LIMIT_CAUSE_UPPER (if b.hi = some p ∧ p ≤ x ∧ p ≠ x then b.hiRank else if b.lo = b.hi ∧ b.hi = some p then b.hiRank else 0)
  s.wr R.PLT_LIMIT_CAUSE_LOWER (if b.lo = some p ∧ x ≤ p ∧ p ≠ x then b.loRank else if b.lo = b.hi ∧ b.lo = some p then b.loRank else 0)
/-- The reserve published, its flags and its events (R333 to R339). -/
def State.showReserve (s : State) : State :=
  let req := s.eReq
  let m := s.margin
  let s := (((s.wrR R.PLT_RESERVE_REQUIRED req).wrR R.PLT_RESERVE_AVAILABLE s.eRes).wrR R.PLT_RESERVE_MARGIN m)
  let s := (s.wrR R.PLT_RESERVE_LIGHTING s.eLight).wrR R.PLT_RESERVE_LIFTS s.eLift
  let s := s.wrR R.PLT_TRIP_ENERGY (ratMost (s.cars.map s.tripJ) / 3600)
  let caps := (s.liveUnits.filter (·.islandCap)).map s.capDis
  let short := decide (ratSum caps - ratMost caps < s.pLight + ratSum (s.cars.map s.peakPower))
  let s := (s.wrB R.PLT_DISP_STATUS_RESERVE_POWER_SHORT short).wrB R.PLT_DISP_STATUS_RESERVE_UNKNOWN s.stale
  let s := s.wrB R.PLT_DISP_STATUS_RECHARGE (!s.stale && decide (m < 0) && !s.mainsLost)
  if s.stale then
    if s.on R.PLT_DISP_STATUS_STALE then s
    else ((s.wrB R.PLT_DISP_STATUS_STALE true).raise Ev.DISPATCH_STALE 0 []).flag R.PLT_DISP_EVENT_STATUS_STALE
  else
    let s := s.wrB R.PLT_DISP_STATUS_STALE false
    let band := s.eBand
    let d := le 4 (toB32 m).toNat ++ le 4 (toB32 req).toNat
    let s := if decide (m < band) && !s.disp.lowMark then
        ((s.raise Ev.RESERVE_LOW 0 d).flag R.PLT_DISP_EVENT_STATUS_RESERVE_LOW).modDisp fun x => { x with lowMark := true }
      else if band + req / 100 < m then s.modDisp fun x => { x with lowMark := false } else s
    if decide (m < 0) && !s.disp.breachMark then
      ((s.raise Ev.RESERVE_BREACHED 0 d).flag R.PLT_DISP_EVENT_STATUS_RESERVE_BREACHED).modDisp fun x => { x with breachMark := true }
    else if req / 100 < m then s.modDisp fun x => { x with breachMark := false } else s
/-- The floor and the ceiling of a port (R347), from the valid cells of the counting strings of its container. -/
def State.floorCeil (s : State) (c : Nat) : Rat × Rat :=
  let l := (rollOf s.est.roll c).filter fun r => r.counts && (s.estStr r.idx).cells.any (·.vOk)
  let one (r : RollStr) : Rat × Rat :=
    let e := s.estStr r.idx
    let v := (e.cells.filter (·.vOk)).map (·.volts)
    let t := s.strType r.idx
    (e.voltage - 256 * (ratLeast v - t.elim 0 (·.vMin)), e.voltage + 256 * (t.elim 0 (·.vMax) - ratMost v))
  (ratMost (l.map fun r => (one r).1), ratLeast (l.map fun r => (one r).2))
/-- A unit's SETPOINT (R341, R344): mode, its share or its island limit (0 W of a unit that forms no island), no reactive power of its own, and per port the
weight, floor and ceiling. -/
def State.setpointPayload (s : State) (u : CfgRec) (p cd cc : Rat) : List Byte :=
  let isl := s.islanded
  let share : Rat := if isl then (if u.islandCap then s.capDis u else 0)
    else if 0 ≤ p then (if cd = 0 then 0 else p * s.capDis u / cd) else (if cc = 0 then 0 else p * s.capChg u / cc)
  let dis := isl || decide (0 ≤ p)
  let w (c : Nat) : Rat := if dis then (s.conPower c).1 else (s.conPower c).2
  let total := ratSum (u.portCons.map w)
  let port (c : Nat) : List Byte :=
    let (lo, hi) := s.floorCeil c
    le 4 (toB32 (if total = 0 then 0 else w c / total)).toNat ++ le 4 (toB32 lo).toNat ++ le 4 (toB32 hi).toNat ++ le 4 0
  le 1 (if isl then 2 else 1) ++ le 3 0 ++ le 4 (toB32 share).toNat ++ le 4 0 ++ le 1 u.portCons.length ++ le 3 0 ++
    u.portCons.flatMap port
/-- SETPOINT to every live unit (R345), with the application time a lead time ahead. -/
def State.sendSetpoints (s : State) : State :=
  let p := s.rdR R.PLT_SETPOINT 0
  let cd := ratSum (s.liveUnits.map s.capDis)
  let cc := ratSum (s.liveUnits.map s.capChg)
  let lead := (ratRne (cfgR (s.cfg 8 2 0) 0x24 2000 * 1000)).toNat
  s.liveUnits.foldl (fun t u => t.sendPcs u.id 1 (s.plantNow + lead) (s.setpointPayload u p cd cc)) s
/-- Island power and load shedding (R352). -/
def State.showIsland (s : State) : State :=
  let lim := s.islandSum
  let meas := ratSum (s.liveUnits.map fun u => (s.pcs u.id).power)
  let s := ((s.wrR R.PLT_MEASURED_POWER meas).wrR R.PLT_GRID_FREQ s.gridFreq).wrR R.PLT_RAMP_RATE s.rampRate
  let s := s.wrR R.PLT_ISLAND_LIMIT lim
  let s := s.wrR R.PLT_LIFT_POWER_LIMIT (if s.evac then ratMax 0 (lim - s.pLight) else 0)
  s.wrB R.PLT_EVAC_STATUS_SHEDDING (s.evac && decide (lim < meas))
/-- The open interval runs on by 1 ms, with the flags of what holds in it (R354). -/
def State.billTick (s : State) : State :=
  let s := s.modDisp fun d => { d with bill := d.bill.map fun b => { b with ms := b.ms + 1 } }
  let s := if s.dispMode = ISLAND then s.billFlag 7 else s
  let s := if s.dispMode = EVACUATION then s.billFlag 8 else s
  (if s.rd R.PWR_PLANT_TIME_STATUS_STATE = 2 then s.billFlag 9 else s).showBill
/-- Which containers are in floor regulation (R347). -/
def State.markFloors (s : State) : State :=
  s.pcsUnits.foldl (fun s u =>
    (u.portCons.zipIdx).foldl (fun s p =>
      let on := s.pcsLive u.id && ((s.pcs u.id).ports[p.2]?).any fun t => bit t.flags 0
      if (s.pcon p.1).floorOn = on then s else s.modPcon p.1 fun x => { x with floorOn := on }) s) s
/-- Every plant change is sent: nothing of it holds a fence (R188). -/
def State.plantSent (s : State) : State :=
  { s with disp := { s.disp with unsent := false }, hq := { s.hq with fences := s.hq.fences.map fun f => { f with unsent := false } } }
/-- Dispatch of one cycle. -/
def State.dispatchCycle (s : State) : State :=
  let s := s.wrB R.PLT_DISP_STATUS_RUNNING true
  let s := s.showSource.showReserve.showIsland.setBounds
  let s := if s.underway then s.sendSetpoints.plantSent else s
  s.markFloors.billTick.protCycle.settled
/-- R330: the 1 ms cycle; in LOOPS_ONLY dispatch is stopped (R144), and the billing interval runs on (R353). -/
def execDispatchCycle (s : State) : Res State :=
  if s.mayCommand then .next s.dispatchCycle else .next (s.wrB R.PLT_DISP_STATUS_RUNNING false).billTick

/-! ## Sources (R322 to R328) -/

/-- R325: the source in use faults. -/
def execSourceFault (src : Nat) (s : State) : Res State :=
  if src = s.srcInUse ∧ src ≠ 0 ∧ src ≠ 5 then .next (s.fallBack src) else .next s
/-- The return to the selected source. -/
def State.sourceBack (s : State) : State :=
  let src := s.rd R.PLT_SOURCE_SELECT_SELECTED
  let s := (s.useSource src).wrB R.PLT_DISP_STATUS_SOURCE_FALLBACK false
  s.raise Ev.SOURCE_RESTORED 0 (le 1 src)
/-- R325: the selected source has been free of faults for 10 s. -/
def execSourceRestore (s : State) : Res State :=
  if s.on R.PLT_DISP_STATUS_SOURCE_FALLBACK && !s.srcFaulty (s.rd R.PLT_SOURCE_SELECT_SELECTED) then .next s.sourceBack
  else .next s
/-- R326: a write of a permitted code to `PLT_SOURCE_SELECT` by an operator; HOLD_THEN_ZERO is a fallback only (R322). -/
def State.selectSource (s : State) (code : Nat) : State :=
  let c := code % 8
  if decide (c < 5) && s.srcRec.any (fun r => bit (r.u8 0x12) c) then
    let s := s.wr R.PLT_SOURCE_SELECT_SELECTED c
    if s.srcFaulty c then s.fallBack c else (s.useSource c).wrB R.PLT_DISP_STATUS_SOURCE_FALLBACK false
  else s
def execSourceSelectWrite (sess code : Nat) (s : State) : Res State :=
  if s.holds sess 2 && s.powered then .next (s.selectSource code) else .next s
/-- R361: RETURN_TO_SOURCE. -/
def execReturnToSource (sess key : Nat) (s : State) : Res State :=
  if s.keyed sess key && s.on R.PLT_DISP_STATUS_SOURCE_FALLBACK && !s.srcFaulty (s.rd R.PLT_SOURCE_SELECT_SELECTED) then
    .next s.sourceBack
  else .next s
/-- R717: CLEAR_COUNTERS of dispatch. -/
def execPltDispClearCounters (sess key : Nat) (s : State) : Res State :=
  if s.keyed sess key then .next (s.clearCounters 0x70080 0x180) else .next s

/-! ## PCS units (R342 to R348) -/

/-- The sequence is accepted as R208 has it: ahead of the last one by less than half the range, or the first. -/
def seqNew (last : Option Nat) (q : Nat) : Bool :=
  match last with
  | none => true
  | some l => let d := (q + 2 ^ 16 - l) % 2 ^ 16; decide (0 < d) && decide (d < 2 ^ 15)
/-- The ports of a STATUS. -/
def statusPorts (b : List Byte) (n : Nat) : List PcsPort :=
  (List.range n).map fun k =>
    let f (o : Nat) : Rat := (f32? (BitVec.ofNat 32 (u32 b (o + 12 * k)))).getD 0
    ⟨f 0x24, f 0x28, u8 b (0x2C + 12 * k)⟩
/-- A STATUS that passed its checks is taken (R346). A unit heard first, or live again, gets its standing orders at once (R32). -/
def State.takeStatus (s : State) (u : CfgRec) (seq : Nat) (b : List Byte) : State :=
  let p := u.id
  let x := s.pcs p
  let f (o : Nat) : Rat := (f32? (BitVec.ofNat 32 (u32 b o))).getD 0
  let exp := u64 b 0x10
  let imp := u64 b 0x18
  let good := if u32 b 0x20 = x.standGen then x.good + 1 else 0
  let now := (exp, imp, s.stampTime)
  let live := x.state == 2
  let up := !live && decide (10 ≤ good)
  let stored := x.last.or (tget s.nv.pcsLast p)
  let s := s.setPcs p { x with good := good, rxSeq := some seq, power := f 0, freq := f 8, flags := u16 b 0x0C,
                               applied := u16 b 0x0E, ports := statusPorts b u.portCons.length,
                               state := if up then 2 else x.state, last := if live || up then some now else x.last }
  let s := match stored with
    | some l => if live then s.book (exp - l.1) (imp - l.2.1) else if up then s.bookGap l exp imp else s
    | none => s
  let s := if up then (s.raise Ev.PCS_LIVE 0 (le 1 p)).flag R.PLT_DISP_EVENT_STATUS_PCS_CHANGE else s
  (if up || x.rxSeq.isNone then s.sendPcsStanding p else s).showPcs p
/-- R346, R343, R207: a STATUS datagram of a declared unit with a good CRC, the plant's identity and a new sequence; any
other datagram is discarded. -/
def execPcsStatusDatagram (dg : List Byte) (s : State) : Res State :=
  let n := dg.length
  let h := dg.take (n - 4)
  let pay := h.drop 32
  match s.cfg 5 4 (u8 dg 2) with
  | none => .next (if s.portsUp then s.inc R.NET_PCS_REJECTED else s)
  | some u =>
    if s.portsUp && decide (36 ≤ n) && u32 dg (n - 4) == (crc32c h).toNat && u8 dg 0 == 0x81 && u8 dg 1 == 1 &&
       u64 dg 8 == s.plantIdent && u16 dg 6 == pay.length && pay.length == 0x24 + 12 * u.portCons.length &&
       seqNew (s.pcs u.id).rxSeq (u16 dg 4)
    then .next ((s.inc R.NET_PCS_RX).takeStatus u (u16 dg 4) pay) else .next (if s.portsUp then s.inc R.NET_PCS_REJECTED else s)
/-- R346: 20 ms without a valid STATUS. -/
def State.losePcs (s : State) (p : Nat) : State :=
  let s := s.setPcs p { s.pcs p with state := 3, good := 0 }
  ((s.raise Ev.PCS_LOST 0 (le 1 p)).flag R.PLT_DISP_EVENT_STATUS_PCS_CHANGE).showPcs p
def execPcsLostTimeout (p : Nat) (s : State) : Res State :=
  if s.pcsLive p then .next (s.losePcs p) else .next s

/-! ## Energy accounting (R353 to R357) -/

/-- R353: plant time has reached the end of the open interval's slot. -/
def execBillingIntervalClose (s : State) : Res State :=
  match s.disp.bill with
  | none => .next s
  | some b =>
    if s.timeKnown && !bit b.flags 2 && b.label != (s.slotLabel % 2 ^ 32).toNat then .next ((s.closeBill none).openBill 0)
    else .next s
/-- R353, R356: every 1 s the open interval's sums and the units' counters are stored. -/
def execBillingPersist (s : State) : Res State :=
  match s.disp.bill with
  | none => .next s
  | some b =>
    let last := s.disp.pcs.foldl (fun t p => match p.2.last with | some l => tput t p.1 l | none => t) s.nv.pcsLast
    .next { s with nv := { s.nv with billOpen := some ⟨b.seq, b.label, b.ms, b.imp, b.exp, b.flags⟩, pcsLast := last } }

/-! ## The dispatch commands (R358) -/

/-- The schedule with an entry added in order of time; an entry of the same time is replaced. -/
def schedPut : List SchedEntry → SchedEntry → List SchedEntry
  | [], e => [e]
  | x :: l, e => if e.time < x.time then e :: x :: l else if e.time = x.time then e :: l else x :: schedPut l e
/-- R327, R358: SCHEDULE_ADD. -/
def State.scheduleAdd (q : Nat) (c : Cmd) (s : State) : State :=
  let t := u64 c.args 0
  let l := s.disp.sched
  let old := match schedNow l s.plantNow with
    | some e => decide (t < e.time)
    | none => false
  if old then s.complete q 0x0722 l.length
  else if 1024 ≤ l.length ∧ (l.all fun e => e.time != t) then s.complete q 0x0721 l.length
  else
    let l := schedPut l ⟨t, BitVec.ofNat 32 (u32 c.args 8), bit (u8 c.args 12) 0⟩
    let s := (s.modDisp fun d => { d with sched := l, unsent := true }).wr R.PLT_SCHEDULE_DEPTH l.length
    s.complete q OK l.length
def execScheduleAdd (q : Nat) (s : State) : Res State := s.onCmd q CmdCode.scheduleAddCode (State.scheduleAdd q)
/-- R358: SCHEDULE_CLEAR removes the entries from a time on; 0 clears all. -/
def State.scheduleClear (q : Nat) (c : Cmd) (s : State) : State :=
  let l := s.disp.sched.filter fun e => decide (e.time < u64 c.args 0)
  ((s.modDisp fun d => { d with sched := l, unsent := true }).wr R.PLT_SCHEDULE_DEPTH l.length).complete q OK l.length
def execScheduleClear (q : Nat) (s : State) : Res State := s.onCmd q CmdCode.scheduleClearCode (State.scheduleClear q)
/-- Whole watt-hours of a sum. -/
def whole (x : Rat) : Nat := (ratFloor x).toNat % 2 ^ 32
/-- R358: BILLING_READ of a closed interval. -/
def State.billingRead (q : Nat) (c : Cmd) (s : State) : State :=
  match s.nv.billing.find? fun b => b.seq == u32 c.args 0 with
  | none => s.complete q 0x0720 0
  | some b =>
    match u8 c.args 4 with
    | 0 => s.complete q OK (whole b.importWh + 2 ^ 32 * whole b.exportWh)
    | 1 => s.complete q OK (b.label + 2 ^ 32 * b.duration)
    | 2 => s.complete q OK (b.flags + 2 ^ 32 * b.seq)
    | _ => s.complete q 0x0101 0
def execBillingRead (q : Nat) (s : State) : Res State := s.onCmd q CmdCode.billingReadCode (State.billingRead q)

end Sys2Proof.Machine
end

