-- ==== Sys2Proof/Machine/Vm.lean ====
section
/-!
DEFINITION. The binary32 datapath of a lane (R371 to R375, R728): every operation on words, the correctly rounded
functions, and the run of a slot's program.
-/
namespace Sys2Proof.Machine
open Sys2Proof

/-! ## Operations (R372, R374, R728) -/

/-- A subnormal input is flushed to a zero of its sign (R374). -/
def flushW (w : Word) : Word := if f32Exp w = 0 then f32Zero (f32Sign w) else w
def f32One : Word := 0x3F800000#32
/-- The sign of an exact zero sum: negative only where both terms are negative zeros or negative. -/
def f32AddW (x y : Word) : Word :=
  if f32IsNan x || f32IsNan y then f32Nan
  else if f32IsInf x || f32IsInf y then
    (if f32IsInf x && f32IsInf y && f32Sign x != f32Sign y then f32Nan else if f32IsInf x then x else y)
  else f32Round (f32Sign x && f32Sign y) (f32Val x + f32Val y)
def f32NegW (x : Word) : Word := if f32IsNan x then f32Nan else x ^^^ 0x80000000#32
def f32IsZero (x : Word) : Bool := x &&& 0x7FFFFFFF#32 == 0#32
def f32MulW (x y : Word) : Word :=
  let n := f32Sign x != f32Sign y
  if f32IsNan x || f32IsNan y then f32Nan
  else if f32IsInf x || f32IsInf y then (if f32IsZero x || f32IsZero y then f32Nan else f32Inf n)
  else f32Round n (f32Val x * f32Val y)
/-- a × b + c with one rounding. -/
def f32FmaW (x y z : Word) : Word :=
  let n := f32Sign x != f32Sign y
  if f32IsNan x || f32IsNan y || f32IsNan z then f32Nan
  else if f32IsInf x || f32IsInf y then
    (if f32IsZero x || f32IsZero y || (f32IsInf z && f32Sign z != n) then f32Nan else f32Inf n)
  else if f32IsInf z then z
  else f32Round (n && f32Sign z) (f32Val x * f32Val y + f32Val z)
def f32DivW (x y : Word) : Word :=
  let n := f32Sign x != f32Sign y
  if f32IsNan x || f32IsNan y then f32Nan
  else if f32IsInf x then (if f32IsInf y then f32Nan else f32Inf n)
  else if f32IsInf y then f32Zero n
  else if f32IsZero y then (if f32IsZero x then f32Nan else f32Inf n)
  else f32Round n (f32Val x / f32Val y)
/-- The order of MIN, MAX and CLAMP, in which −0 lies below +0: words as signed magnitudes. -/
def f32Key (x : Word) : Int := if f32Sign x then -1 - ((x &&& 0x7FFFFFFF#32).toNat : Int) else (x.toNat : Int)
def f32MinW (x y : Word) : Word := if f32IsNan x || f32IsNan y then f32Nan else if f32Key x ≤ f32Key y then x else y
def f32MaxW (x y : Word) : Word := if f32IsNan x || f32IsNan y then f32Nan else if f32Key x ≤ f32Key y then y else x
/-- 1.0 where the order of values holds; NaNs compare false, zeros are equal. -/
def f32CmpW (lt eq : Bool) (x y : Word) : Word :=
  if f32IsNan x || f32IsNan y then 0#32
  else
    let z := f32IsZero x && f32IsZero y
    if (lt && decide (f32Key x < f32Key y) && !z) || (eq && (x == y || z)) then f32One else 0#32
/-- The real value of a word, an infinity as a value beyond every finite one. -/
def f32Wide (x : Word) : Rat := if f32IsInf x then (if f32Sign x then -(pow2 200) else pow2 200) else f32Val x
/-- RATE: b − a and the clamp formed exactly, the sum rounded once (R374). Infinite operands act as values beyond range. The
sum of zeros is −0 only where a is −0 and the clamp answers −0, for b below it and c zero (R728; log 21). -/
def f32RateW (x y z : Word) : Word :=
  if f32IsNan x || f32IsNan y || f32IsNan z then f32Nan
  else
    let a := f32Wide x
    let c := ratAbs (f32Wide z)
    let d := ratClamp (-c) c (f32Wide y - a)
    f32Round (f32Sign x && decide (a = 0) && decide (c = 0) && decide (f32Wide y < 0)) (a + d)
def f32FloorW (x : Word) : Word :=
  if f32IsNan x then f32Nan else if f32IsInf x || f32IsZero x then x else f32Round false ((ratFloor (f32Val x) : Int) : Rat)
def f32SelW (x y c : Word) : Word :=
  if f32IsNan c then f32Nan
  else
    let r := if f32IsZero c then y else x
    if f32IsNan r then f32Nan else r
/-- The root of a natural rounded down, bit by bit from bit n. -/
def isqrtAux : Nat → Nat → Nat → Nat
  | 0, r, _ => r
  | n + 1, r, x => let t := r + 2 ^ n; isqrtAux n (if t * t ≤ x then t else r) x
/-- The correctly rounded square root: the root to 60 fraction digits beyond need, with a sticky tail. -/
def f32SqrtW (x : Word) : Word :=
  if f32IsNan x then f32Nan else if f32IsZero x then x else if f32Sign x then f32Nan else if f32IsInf x then x
  else
    let v := f32Val x
    let n := v.num.natAbs * 2 ^ 400 / v.den
    let r := isqrtAux 270 0 n
    let exact := decide (r * r * v.den = v.num.natAbs * 2 ^ 400)
    f32Round false (((2 * r + (if exact then 0 else 1) : Nat) : Rat) / ((2 ^ 201 : Nat) : Rat))
/-- LUT (R728) over a table of first point, step and 64 values. -/
def f32LutW (t : List Word) (x : Word) : Word :=
  if f32IsNan x then f32Nan
  else
    let v (k : Nat) : Word := flushW (t.getD k 0#32)
    let g (k : Nat) : Rat := f32Val (v k)
    let a := f32Wide x
    let x0 := g 0
    let dx := g 1
    if a ≤ x0 then v 2 else if x0 + 63 * dx ≤ a then v 65
    else
      let u := (a - x0) / dx
      let i := (ratFloor u).toNat
      let f := u - (i : Rat)
      f32Round false (g (2 + i) + f * (g (3 + i) - g (2 + i)))

/-! ## EXP2, LOG2, SIN, COS, correctly rounded (R374)

Fixed-point sums in units of 2 to the −520, far finer than the 24-bit results; rational results occur only at the
arguments that are answered apart. -/

def fxP : Nat := 520
def fxOne : Int := (2 ^ fxP : Nat)
def fxMul (x y : Int) : Int := x * y / fxOne
/-- Σ ± t^(2k+1) ÷ (2k+1) over n terms, from the power p: atanh (sign 1) or arctan (sign −1). -/
def atanSum (sign : Int) (t2 : Int) : Nat → Nat → Int → Int
  | 0, _, _ => 0
  | n + 1, k, p => p / (k : Int) + sign * atanSum sign t2 n (k + 2) (fxMul p t2)
def fxLn2 : Int := 2 * atanSum 1 (fxOne / 9) 170 1 (fxOne / 3)
/-- π by Machin's formula. -/
def fxPi : Int := 4 * (4 * atanSum (-1) (fxOne / 25) 115 1 (fxOne / 5) - atanSum (-1) (fxOne / 57121) 36 1 (fxOne / 239))
/-- Σ of a power series whose k-th term is the one before times x ÷ (k step). -/
def expSum (x : Int) : Nat → Nat → Int → Int
  | 0, _, t => t
  | n + 1, k, t => t + expSum x n (k + 1) (fxMul t x / (k : Int))
/-- Σ of the series of the sine (k = 2) or cosine (k = 1), x2 the negated square. -/
def sinSum (x2 : Int) : Nat → Nat → Int → Int
  | 0, _, t => t
  | n + 1, k, t => t + sinSum x2 n (k + 2) (fxMul t x2 / ((k * (k + 1) : Nat) : Int))
/-- A fixed-point value times a power of two, rounded to a word. -/
def fxWord (x : Int) (e : Int) : Word := f32Round false ((x : Rat) * pow2 (e - fxP))
def fxOf (v : Rat) : Int := ratFloor (v * ((2 ^ fxP : Nat) : Rat))
def f32Exp2W (x : Word) : Word :=
  if f32IsNan x then f32Nan else if f32IsInf x then (if f32Sign x then 0#32 else x)
  else
    let v := f32Val x
    let i := ratFloor v
    if 128 ≤ i then f32Inf false else if i < -200 then 0#32
    else
      let f := v - (i : Rat)
      if f = 0 then f32Round false (pow2 i) else fxWord (expSum (fxMul (fxOf f) fxLn2) 110 1 fxOne) i
def f32Log2W (x : Word) : Word :=
  if f32IsNan x then f32Nan else if f32IsZero x then f32Inf true else if f32Sign x then f32Nan else if f32IsInf x then x
  else
    let e : Int := (f32Exp x : Int) - 127
    if f32Frac x = 0 then f32Round false (e : Rat)
    else
      let m := fxOf (f32Val x * pow2 (-e))
      let t := (m - fxOne) * fxOne / (m + fxOne)
      fxWord (2 * atanSum 1 (fxMul t t) 170 1 t * fxOne / fxLn2 + e * fxOne) 0
/-- The argument less the nearest multiple of 2π. -/
def fxReduce (x : Int) : Int :=
  let p := 2 * fxPi
  x - (2 * x + p) / (2 * p) * p
def f32SinW (x : Word) : Word :=
  if !f32Finite x then f32Nan else if f32IsZero x then x
  else
    let r := fxReduce (fxOf (f32Val x))
    fxWord (sinSum (-(fxMul r r)) 80 2 r) 0
def f32CosW (x : Word) : Word :=
  if !f32Finite x then f32Nan else if f32IsZero x then f32One
  else
    let r := fxReduce (fxOf (f32Val x))
    fxWord (sinSum (-(fxMul r r)) 80 1 fxOne) 0

/-! ## Programs (R371, R375) -/

/-- What a run reads: signals, state words, constants, tables and the divisor. -/
structure VmEnv where
  sig : Nat → Word
  st : Nat → Word
  con : List Word
  tab : Nat → List Word
  divisor : Nat

/-- How a run ends: with its staged writes in order (true for a state word), without a commit at the first non-finite
result of an instruction index (R391), or at a word that is no instruction (R371). -/
inductive RunEnd where
  | commit (writes : List (Bool × Nat × Word))
  | nonfinite (index : Nat)
  | undefined'
  deriving DecidableEq, Repr

/-- The fields of an instruction word. -/
def iOp (w : BitVec 64) : Nat := w.toNat / 2 ^ 56 % 256
def iReg (w : BitVec 64) (lo : Nat) : Nat := w.toNat / 2 ^ lo % 16
def iArg (w : BitVec 64) : Word := w.setWidth 32
def opDefined (o : Nat) : Bool := decide (o ≤ 7) || (decide (0x10 ≤ o) && decide (o ≤ 0x25))
/-- A word that R371 makes a fault at the first run. -/
def iBad (w : BitVec 64) : Bool := !opDefined (iOp w) || w.toNat / 2 ^ 32 % 256 != 0
/-- The result an instruction yields, none for those that yield none. -/
def iResult (e : VmEnv) (reg : Tbl Word) (w : BitVec 64) : Option Word :=
  let r (lo : Nat) : Word := flushW (tgetD reg (iReg w lo) 0#32)
  let a := r 48
  let b := r 44
  let c := r 40
  let n := (iArg w).toNat
  match iOp w with
  | 0x01 => some (flushW (e.sig (n % 65536)))
  | 0x03 => some (flushW (e.st (n % 32)))
  | 0x05 => some (flushW (e.con.getD (n % 64) 0#32))
  | 0x06 => some (flushW (iArg w))
  | 0x07 => some (f32Round false ((e.divisor : Rat) / 100000))
  | 0x10 => some (f32AddW a b)
  | 0x11 => some (f32AddW a (f32NegW b))
  | 0x12 => some (f32MulW a b)
  | 0x13 => some (f32FmaW a b c)
  | 0x14 => some (f32NegW a)
  | 0x15 => some (if f32IsNan a then f32Nan else a &&& 0x7FFFFFFF#32)
  | 0x16 => some (f32MinW a b)
  | 0x17 => some (f32MaxW a b)
  | 0x18 => some (if f32IsNan c then f32Nan else f32MinW (f32MaxW a b) c)
  | 0x19 => some (f32RateW a b c)
  | 0x1A => some (f32DivW a b)
  | 0x1B => some (f32SqrtW a)
  | 0x1C => some (f32Exp2W a)
  | 0x1D => some (f32Log2W a)
  | 0x1E => some (f32SinW a)
  | 0x1F => some (f32CosW a)
  | 0x20 => some (f32FloorW a)
  | 0x21 => some (f32CmpW true false a b)
  | 0x22 => some (f32CmpW true true a b)
  | 0x23 => some (f32CmpW false true a b)
  | 0x24 => some (f32SelW a b c)
  | 0x25 => some (f32LutW (e.tab (n % 4)) a)
  | _ => none
/-- The write an instruction stages (R375). -/
def iStages (reg : Tbl Word) (w : BitVec 64) : Option (Bool × Nat × Word) :=
  let a := flushW (tgetD reg (iReg w 48) 0#32)
  match iOp w with
  | 0x02 => some (false, (iArg w).toNat % 65536, a)
  | 0x04 => some (true, (iArg w).toNat % 32, a)
  | _ => none
/-- The run of a program from an instruction index, with the working registers (an unwritten one reads +0, R373) and the
writes staged so far. -/
def vmRun (e : VmEnv) : List (BitVec 64) → Nat → Tbl Word → List (Bool × Nat × Word) → RunEnd
  | [], _, _, out => .commit out
  | w :: rest, i, reg, out =>
    match iResult e reg w with
    | some v => if f32Finite v then vmRun e rest (i + 1) (tput reg (iReg w 52) v) out else .nonfinite i
    | none =>
      match iStages reg w with
      | some x => vmRun e rest (i + 1) reg (out ++ [x])
      | none => vmRun e rest (i + 1) reg out
/-- A whole run: every word is looked at first (R371). -/
def vmProgram (e : VmEnv) (p : List (BitVec 64)) : RunEnd := if p.any iBad then .undefined' else vmRun e p 0 [] []

end Sys2Proof.Machine
end

