-- ==== Sys2Proof/Machine/LoopOps.lean ====
section
/-!
DEFINITION. The loop engine as its tick and the other units use it: signals and staged writes (R376 to R378), slot runs
with voting and faults (R385 to R392), output groups (R380 to R382) and the PWM unit (R398 to R401).
-/
namespace Sys2Proof.Machine
open Sys2Proof

/-! ## Records -/

def State.sigRec (s : State) (k : Nat) : Option CfgRec := s.cfg 2 1 k
def State.slotRec (s : State) (k : Nat) : Option CfgRec := s.cfg 3 1 k
def CfgRec.writerKind (r : CfgRec) : Nat := r.u8 0x10
def CfgRec.writer (r : CfgRec) : Nat := r.u16 0x12
def CfgRec.initWord (r : CfgRec) : Word := BitVec.ofNat 32 (r.u32 0x14)
def CfgRec.parkWord (r : CfgRec) : Word := BitVec.ofNat 32 (r.u32 0x18)
def CfgRec.sigGroup (r : CfgRec) : Nat := r.u8 0x24
def CfgRec.sigDest (r : CfgRec) : Nat := r.u16 0x26
/-- A record's words of four bytes. -/
def CfgRec.words (r : CfgRec) (o n : Nat) : List Word := (List.range n).map fun k => BitVec.ofNat 32 (r.u32 (o + 4 * k))
def CfgRec.slotInit (r : CfgRec) (k : Nat) : Word := BitVec.ofNat 32 (r.u32 (0x28 + 4 * k))
/-- The window start and cycle count of a slot in the running schedule, none where it has no window. -/
def CfgRec.window (r : CfgRec) (glide : Bool) : Option (Nat × Nat) :=
  let a := r.u16 (if glide then 0x16 else 0x14)
  if a = 0xFFFF then none else some (a, r.u16 (if glide then 0x1A else 0x18))
def CfgRec.program (r : CfgRec) (glide : Bool) : List (BitVec 64) :=
  (List.range (r.u16 (if glide then 0x1E else 0x1C))).map fun k => BitVec.ofNat 64 (r.u64 ((if glide then 0xDC8 else 0x5C8) + 8 * k))
/-- Due in tick N (R366). -/
def CfgRec.due (r : CfgRec) (n : Nat) : Bool := n % r.u16 0x10 == r.u16 0x12

/-! ## Lanes -/

def State.modLoop (s : State) (f : Loop → Loop) : State := { s with loop := f s.loop }
def Lane.fresh : Lane := ⟨[], [], false, none, none, []⟩
def State.lane (s : State) (k : Nat) : Lane := tgetD s.loop.lanes k Lane.fresh
def State.modLane (s : State) (k : Nat) (f : Lane → Lane) : State :=
  s.modLoop fun l => { l with lanes := tput l.lanes k (f (tgetD l.lanes k Lane.fresh)) }
def State.allLanes (s : State) (f : Lane → Lane) : State := [0, 1, 2].foldl (fun s k => s.modLane k f) s
def Lane.votes (l : Lane) : Bool := !l.retired && l.markedAt.isNone
/-- The lanes that vote (R390). -/
def State.voting (s : State) : List Nat := [0, 1, 2].filter fun k => (s.lane k).votes
def State.votingMask (s : State) : Nat := (s.voting.map fun k => 2 ^ k).foldl (· + ·) 0
/-- A signal in a lane: as stored, or its initial value. -/
def State.sigIn (s : State) (k sig : Nat) : Word := (tget (s.lane k).sig sig).getD ((s.sigRec sig).elim 0#32 (·.initWord))
def State.stIn (s : State) (k slot w : Nat) : Word :=
  (tget (s.lane k).st (slot * 32 + w)).getD ((s.slotRec slot).elim 0#32 fun r => r.slotInit w)
/-- The answer that at least two of those given share. -/
def shared {α : Type} [DecidableEq α] : List (Nat × α) → Option α
  | [] => none
  | (_, x) :: l => if l.any fun p => decide (p.2 = x) then some x else shared l
/-- The voted value of a signal (R385). -/
def State.voted (s : State) (sig : Nat) : Option Word := shared (s.voting.map fun k => (k, s.sigIn k sig))
def State.showLanes (s : State) : State :=
  let st (k : Nat) : Nat := let l := s.lane k; if l.retired then 2 else if l.markedAt.any fun m => decide (m < s.tick) then 1 else 0
  let s := ((s.wr R.LOOP_LANE_STATUS_LANE_A (st 0)).wr R.LOOP_LANE_STATUS_LANE_B (st 1)).wr R.LOOP_LANE_STATUS_LANE_C (st 2)
  s.wrB R.LOOP_STATUS_REBUILDING ([0, 1, 2].any fun k => !(s.lane k).retired && (s.lane k).markedAt.isSome)
abbrev STOPPED : Nat := 0
abbrev PRIMED : Nat := 1
abbrev RUNNING : Nat := 2
abbrev HALTED : Nat := 3
def State.engine (s : State) : Nat := s.rd R.LOOP_STATUS_ENGINE
def State.loopGlide (s : State) : Bool := s.on R.LOOP_STATUS_GLIDE_SCHEDULE
/-- Groups of the manifest, and those that carry SAFETY_REPORT. -/
def State.groups (s : State) : List CfgRec := s.cfgAll 2 2
def CfgRec.safetyReport (g : CfgRec) : Bool := bit (g.u8 0x15) 0
def State.tellSafety (s : State) (gs : List Nat) : State :=
  s.modLoop fun l => { l with told := l.told ++ gs.filter fun g => (s.cfg 2 2 g).any (·.safetyReport) }
def loopData (slot lane b3 : Nat) : List Byte := le 2 slot ++ le 1 lane ++ le 1 b3
/-- The engine enters HALTED (R365, R388): park values at the next phases, the safety technologies told. -/
def State.haltCheck (s : State) : State :=
  if s.voting.length < 2 && s.engine != HALTED then
    let s := ((s.wr R.LOOP_STATUS_ENGINE HALTED).wr R.LOOP_FAULT_INFO_CAUSE 3).wr R.LOOP_FAULT_INFO_LANES s.votingMask
    ((s.tellSafety (s.groups.map (·.id))).raise Ev.ENGINE_HALTED 0 (loopData 0xFFFF 0 0)).flag R.LOOP_EVENT_STATUS_HALTED
  else s
/-- A lane marked in the present tick (R386 to R388); a second mark in one tick counts no more. -/
def State.markLane (s : State) (k slot kind : Nat) : State :=
  let l := s.lane k
  if l.votes = false then s
  else
    let t := s.tick
    let marks := t :: l.marks.filter fun m => decide (t < m + 360000000)
    let retire := decide (3 ≤ marks.length) || l.rebuiltAt == some t
    let s := s.modLane k fun x => { x with markedAt := some t, marks := marks, retired := retire }
    let s := ((s.inc R.LOOP_LANE_MISMATCHES).raise Ev.LANE_MISMATCH 0 (loopData slot k kind)).flag R.LOOP_EVENT_STATUS_LANE_MISMATCH
    let s := if retire then (s.raise Ev.LANE_RETIRED 0 (loopData slot k 0)).flag R.LOOP_EVENT_STATUS_LANE_RETIRED else s
    s.showLanes.haltCheck

/-! ## Slots -/

def State.slot (s : State) (k : Nat) : SlotRun := tgetD s.loop.slots k ⟨1, 0, 0, 0⟩
/-- A slot record changed, with the count of slots that stand FAULTED or parked. -/
def State.modSlot (s : State) (k : Nat) (f : SlotRun → SlotRun) : State :=
  let s := s.modLoop fun l => { l with slots := tput l.slots k (f (s.slot k)) }
  s.wr R.LOOP_SLOTS_FAULTED (s.loop.slots.filter fun p => p.2.state != 1).length
/-- The signals that a slot writes (R376), and their groups. -/
def State.slotSigs (s : State) (k : Nat) : List CfgRec := (s.cfgAll 2 1).filter fun r => r.writerKind == 0 && r.writer == k
def State.slotGroups (s : State) (k : Nat) : List Nat := ((s.slotSigs k).map (·.sigGroup)).filter (· != 255)
/-- A slot suffers a loop fault (R389). -/
def State.loopFault (s : State) (k cause : Nat) : State :=
  let s := ((s.inc R.LOOP_FAULTS).wr R.LOOP_FAULT_INFO_CAUSE cause).wr R.LOOP_FAULT_INFO_LANES s.votingMask
  let s := (s.wr R.LOOP_FAULT_INFO_SLOT k).modSlot k fun x => { x with state := 3 }
  let s := (s.modLoop fun l => { l with toPark := l.toPark ++ [k] }).tellSafety (s.slotGroups k).eraseDups
  (s.raise Ev.LOOP_FAULT 0 (loopData k 0 s.votingMask)).flag R.LOOP_EVENT_STATUS_LOOP_FAULT
/-- A vote without a majority on a signal that no slot writes (R729). -/
def State.foreignFault (s : State) (sig group : Nat) : State :=
  let s := (s.wr R.LOOP_FAULT_INFO_CAUSE 5).wr R.LOOP_FAULT_INFO_LANES s.votingMask
  let s := ((s.inc R.LOOP_FAULTS).wr R.LOOP_FAULT_INFO_SLOT 0x1FF).modLoop fun l => { l with toFix := l.toFix ++ [sig] }
  ((s.tellSafety [group]).raise Ev.LOOP_FAULT 0 (loopData 0xFFFF 0 s.votingMask)).flag R.LOOP_EVENT_STATUS_LOOP_FAULT
/-- What a slot's program reads in a lane. -/
def State.vmEnv (s : State) (k slot : Nat) (r : CfgRec) : VmEnv :=
  { sig := s.sigIn k, st := s.stIn k slot, con := r.words 0xA8 64, tab := fun t => r.words (0x1A8 + 264 * t) 66, divisor := r.u16 0x10 }
/-- The signature of a run (R386): over the number and value of each staged write in order; a run that commits nothing
forms none. -/
def signature : RunEnd → Option Word
  | .commit w => some (crc32c (w.flatMap fun x => le 2 x.2.1 ++ le 4 x.2.2.toNat))
  | _ => none
/-- Two lanes' runs agree: they commit with one signature, or both commit nothing. -/
def agree (a b : RunEnd) : Bool := decide (a = b) || signature a == signature b
def sharedRun : List (Nat × RunEnd) → Option RunEnd
  | [] => none
  | (_, x) :: l => if l.any fun p => agree p.2 x then some x else sharedRun l
/-- A lane takes the writes of its own run (R375). -/
def Lane.take (l : Lane) (slot : Nat) : RunEnd → Lane
  | .commit w => w.foldl (fun l x => if x.1 then { l with st := tput l.st (slot * 32 + x.2.1) x.2.2 } else { l with sig := tput l.sig x.2.1 x.2.2 }) l
  | _ => l
/-- A run that is discarded (R391, R392). -/
def State.discardRun (s : State) (k index : Nat) : State :=
  let first := (s.slot k).nonfin == 0
  let limit := cfgD (s.slotRec k) (·.u16 0x20) 16
  let s := (s.inc R.LOOP_NONFINITE).modSlot k fun x => { x with nonfin := min 65535 (x.nonfin + 1), bad := (x.bad + 1) % 2 ^ 32 }
  let s := if first then (s.raise Ev.SLOT_NONFINITE 0 (loopData k 0 0 ++ le 2 index)).flag R.LOOP_EVENT_STATUS_NONFINITE else s
  if limit ≤ (s.slot k).nonfin ∧ (s.slot k).state = 1 then
    ((s.modSlot k fun x => { x with state := 4 }).raise Ev.SLOT_PARKED 0 (loopData k 0 0)).flag R.LOOP_EVENT_STATUS_SLOT_PARKED
  else s
/-- A run that commits. -/
def State.countRun (s : State) (k : Nat) : State :=
  let parked := (s.slot k).state == 4
  let s := s.modSlot k fun x => { x with state := 1, nonfin := 0, runs := (x.runs + 1) % 2 ^ 32 }
  let s := s.modLoop fun l => { l with ran := k :: l.ran }
  if parked then s.raise Ev.SLOT_RECOVERED 0 (loopData k 0 0) else s
/-- A due slot runs in its window (R366, R368, R375, R386). -/
def State.runSlot (s : State) (k : Nat) (r : CfgRec) : State :=
  let p := r.program s.loopGlide
  let ends := [0, 1, 2].filterMap fun n => if (s.lane n).retired then none else some (n, vmProgram (s.vmEnv n k r) p)
  if p.any iBad then s.loopFault k 4
  else
    let votes := ends.filter fun e => (s.lane e.1).votes
    let s := ends.foldl (fun s e => s.modLane e.1 fun l => l.take k e.2) s
    match sharedRun votes with
    | none => s.loopFault k 2
    | some x =>
      let s := votes.foldl (fun s e => if agree e.2 x then s else s.markLane e.1 k 2) s
      match x with
      | .nonfinite i => s.discardRun k i
      | _ => s.countRun k

/-! ## Output groups (R380 to R382, R385) -/

/-- Why a group latches park values as a whole (R382). -/
def State.groupParked (s : State) (g : CfgRec) : Bool := s.engine != RUNNING || (s.loopGlide && g.u16 0x12 == 0)
/-- A slot whose signals latch their park values (R382). -/
def State.slotParked (s : State) (k : Nat) : Bool := (s.slot k).state == 3 || (s.slot k).state == 4
def State.setLatch (s : State) (dest item : Nat) (w : Word) : State :=
  s.modLoop fun l => { l with latch := tput l.latch (dest * 65536 + item) w }
def State.latched (s : State) (dest item : Nat) : Word := tgetD s.loop.latch (dest * 65536 + item) 0#32
/-- The vote of one signal at its output phase, with what it marks or faults. -/
def State.voteSig (s : State) (r : CfgRec) (g : CfgRec) : State :=
  match s.voted r.id with
  | some v =>
    (s.voting.filter fun k => s.sigIn k r.id != v).foldl (fun s k => s.markLane k (if r.writerKind = 0 then r.writer else 0xFFFF) 1) s
  | none => if r.writerKind = 0 then (if (s.slot r.writer).state = 3 then s else s.loopFault r.writer 1) else s.foreignFault r.id g.id
/-- A signal latched: the voted value, or its park value. -/
def State.latchSig (s : State) (r g : CfgRec) : State :=
  let v := s.voted r.id
  let park := s.groupParked g || (r.writerKind == 0 && s.slotParked r.writer) || v.isNone
  s.setLatch (g.u8 0x14) r.sigDest (if park then r.parkWord else v.getD 0#32)
/-- A group at its output phase in the present tick. -/
def State.latchGroup (s : State) (g : CfgRec) : State :=
  let sigs := (s.cfgAll 2 1).filter fun r => r.sigGroup == g.id
  let s := if s.groupParked g then s else sigs.foldl (fun s r => s.voteSig r g) s
  let bad := sigs.any fun r => r.writerKind == 0 && s.slotParked r.writer
  let s := sigs.foldl (fun s r => s.latchSig r g) s
  let parked := s.groupParked g
  let s := (s.wrB (R.LOOP_GROUP_STATUS_PARKED_STATE g.id) parked).wrB (R.LOOP_GROUP_STATUS_PARKED_FAULT g.id) bad
  let s := s.wrB (R.LOOP_PARKED_GROUPS.bit g.id) (parked || bad || sigs.any fun r => s.loop.toFix.contains r.id)
  if parked then s else s.inc (R.LOOP_GROUP_LATCHES g.id)

/-! ## Staged writes (R377, R378) -/

def State.stageSig (s : State) (sig : Nat) (v : Word) (host : Bool) : State :=
  let s := if s.loop.staged.any fun x => x.1 == sig then s.inc R.LOOP_STAGED_OVERWRITTEN else s
  s.modLoop fun l => { l with staged := (l.staged.filter fun x => x.1 != sig) ++ [(sig, v, host)] }
/-- A value staged to every FIRMWARE signal of a function item. -/
def State.firmware (s : State) (item : Nat) (v : Word) : State :=
  ((s.cfgAll 2 1).filter fun r => r.writerKind == 2 && r.writer == item).foldl (fun s r => s.stageSig r.id v false) s
/-- Why a host write is refused (R378), as RESULT of `LOOP_SIG_WRITE_STATUS` numbers it; 0 where it is accepted. -/
def State.hostBad (s : State) (sig : Nat) (v : Word) : Nat :=
  match s.sigRec sig with
  | none => 6
  | some r => if r.writerKind != 3 then 3 else if !f32Finite v then 4
              else if f32Val v < r.f32 0x1C ∨ r.f32 0x20 < f32Val v then 5 else 0
/-- The writes that wait are applied at a boundary; the queued commands that wait for it complete. -/
def State.applyStaged (s : State) : State :=
  let l := s.loop.staged
  let q := s.loop.waits
  let hosts := (l.filter (·.2.2)).length
  let s := s.modLoop fun x => { x with staged := [], waits := [] }
  let s := l.foldl (fun s w => s.allLanes fun x => { x with sig := tput x.sig w.1 w.2.1 }) s
  let s := s.incBy R.LOOP_HOST_WRITES hosts
  let s := if s.on R.LOOP_SIG_WRITE_STATUS_PENDING then (s.wrB R.LOOP_SIG_WRITE_STATUS_PENDING false).wr R.LOOP_SIG_WRITE_STATUS_RESULT 2 else s
  q.foldl (fun s q => s.complete q OK s.tick) s

/-! ## The boundary and the tick (R364, R387, R389, R393) -/

/-- A slot's state words at their initial values in every lane. -/
def State.freshState (s : State) (k : Nat) : State :=
  s.allLanes fun x => { x with st := x.st.filter fun p => p.1 / 32 != k }
/-- What a boundary sets: slots faulted in the tick before (R389), signals of R729, restarted slots. -/
def State.boundarySets (s : State) : State :=
  let l := s.loop
  let s := s.modLoop fun x => { x with toPark := [], toFix := [], toStart := [] }
  let s := l.toPark.foldl (fun s k =>
    ((s.slotSigs k).foldl (fun s r => s.allLanes fun x => { x with sig := tput x.sig r.id r.parkWord }) s).freshState k) s
  let s := l.toFix.foldl (fun s g => s.allLanes fun x => { x with sig := tput x.sig g ((s.sigRec g).elim 0#32 (·.parkWord)) }) s
  l.toStart.foldl (fun s k => (s.freshState k).modSlot k fun x => { x with state := 1, nonfin := 0 }) s
/-- Lanes whose rebuild has run over four lane exchanges vote again (R387). -/
def State.rebuild (s : State) : State :=
  [0, 1, 2].foldl (fun s k =>
    match (s.lane k).retired, (s.lane k).markedAt, s.voting with
    | false, some m, v :: _ =>
      if m + 5 ≤ s.tick then
        let g := s.lane v
        let s := s.modLane k fun x => { x with sig := g.sig, st := g.st, markedAt := none, rebuiltAt := some s.tick }
        (s.inc R.LOOP_REBUILDS).raise Ev.LANE_REBUILT 0 (loopData 0xFFFF k 0)
      else s
    | _, _, _ => s) s
/-- What happens in a tick at its cycle: a due slot at its window, or a group at its phase. -/
inductive TickItem where
  | slot (r : CfgRec)
  | group (g : CfgRec)
/-- The items in order of their cycle, a window's end before a phase. -/
def insertItem (x : Nat × TickItem) : List (Nat × TickItem) → List (Nat × TickItem)
  | [] => [x]
  | y :: l => if x.1 < y.1 then x :: y :: l else y :: insertItem x l
def State.tickItems (s : State) : List (Nat × TickItem) :=
  let n := s.tick
  let g := s.loopGlide
  let slots := (s.cfgAll 3 1).filterMap fun r =>
    match r.window g with
    | some (a, c) => if r.due n && (s.slot r.id).state != 3 then some (a + c, TickItem.slot r) else none
    | none => none
  let groups := s.groups.filterMap fun x => some (if g then x.u16 0x12 else x.u16 0x10, TickItem.group x)
  (slots ++ groups).foldl (fun l x => insertItem x l) []
def State.tickItem (s : State) : TickItem → State
  | .slot r => if (s.slot r.id).state = 3 ∨ s.engine = HALTED then s else s.runSlot r.id r
  | .group g => s.latchGroup g
/-- The voted copy of the store for the window (R379). -/
def State.copyWindow (s : State) : State :=
  if s.tick % (if s.loopGlide then 1000 else 100) = 99 % (if s.loopGlide then 1000 else 100) then
    let copy := (s.cfgAll 2 1).foldl (fun (t : Tbl Word) r => match s.voted r.id with
      | some v => tput t r.id v
      | none => t) s.loop.copy
    (s.modLoop fun l => { l with copy := copy }).wr64 R.LOOP_WINDOW_TICK_LO s.tick
  else s
/-- The engine's work of one tick, whose number is already counted: the boundary with its captures, then windows and
phases in order of cycle, then the lane exchange. Stopped or halted it runs no slot, and every group latches its park values
(R365, R388). `caps` are the captured snapshot signals, `upsets` what a disturbance
makes of a lane's store in this tick: the lane, whether a state word (slot × 32 + word) or a signal, and the value. -/
def State.engineTick (s : State) (caps : List (Nat × Word)) (upsets : List (Nat × Bool × Nat × Word)) : State :=
  if s.engine = STOPPED ∨ s.engine = HALTED then s.groups.foldl State.latchGroup (s.modLoop fun l => { l with ran := [] }).applyStaged
  else
    let s := if s.engine = PRIMED ∧ s.underway = true then s.wr R.LOOP_STATUS_ENGINE RUNNING else s
    let s := (s.modLoop fun l => { l with ran := [] }).rebuild.boundarySets
    let s := caps.foldl (fun s c => s.allLanes fun x => { x with sig := tput x.sig c.1 c.2 }) s
    let s := s.applyStaged
    let s := upsets.foldl (fun s u => s.modLane (u.1 % 3) fun x =>
      if u.2.1 then { x with st := tput x.st u.2.2.1 u.2.2.2 } else { x with sig := tput x.sig u.2.2.1 u.2.2.2 }) s
    let s := s.tickItems.foldl (fun s x => s.tickItem x.2) s
    s.copyWindow.showLanes
/-- The engine as a start, or a domain reset, leaves it: every slot at its initial state, every signal at its initial
value; retired lanes stay retired across a domain reset (R365). -/
def State.loopFresh (s : State) (engine : Nat) (keepRetired : Bool) : State :=
  let lane (k : Nat) : Lane := { Lane.fresh with retired := keepRetired && (s.lane k).retired }
  let s := s.modLoop fun l => { l with lanes := [(0, lane 0), (1, lane 1), (2, lane 2)], slots := [], staged := [], toPark := [], toFix := [],
                                       toStart := [], latch := [], compare := [], ran := [], ended := none }
  ((s.wr R.LOOP_STATUS_ENGINE engine).wr R.LOOP_SLOTS_FAULTED 0).showLanes
/-- Slots with RESET_ON_WAKE start again from their initial state when the Stride schedule resumes (R393). -/
def State.wakeSlots (s : State) : State :=
  ((s.cfgAll 3 1).filter fun r => bit (r.u8 0x22) 0).foldl (fun s r => s.freshState r.id) s

/-! ## PWM (R398 to R402) -/

def State.pairs (s : State) : List CfgRec := s.cfgAll 11 5
def CfgRec.period (r : CfgRec) : Nat := r.u32 0x14
def CfgRec.centre (r : CfgRec) : Bool := r.u8 0x11 == 1
def CfgRec.pwmMask (r : CfgRec) : Nat := r.u8 0x20 % 16
def CfgRec.pwmDead (r : CfgRec) : Nat := r.u16 0x1C
def CfgRec.pwmMin (r : CfgRec) : Nat := r.u16 0x1E
/-- Pairs held off by a latched fault. -/
def State.faultPairs (s : State) : Nat :=
  ((s.pairs.filter fun r => r.pwmMask &&& s.rd R.PWM_FAULT_STATUS_LATCHED != 0).map fun r => 2 ^ r.id).foldl (· + ·) 0
def State.pairEnabled (s : State) (p : Nat) : Bool := !f32IsZero (s.latched 1 (2 * p + 1))
/-- Whether a pair switches (R401). -/
def State.switches (s : State) (r : CfgRec) : Bool :=
  s.engine == RUNNING && s.pairEnabled r.id && !bit (s.rd R.PWM_INHIBIT) r.id && !bit s.faultPairs r.id && s.live 12
/-- The state that a pair's status shows (R408). -/
def State.pairState (s : State) (r : CfgRec) : Nat :=
  if s.switches r then 2 else if bit s.faultPairs r.id then 3 else if bit (s.rd R.PWM_INHIBIT) r.id then 4
  else if s.engine != RUNNING then 5 else 1
/-- Every pair judged anew. -/
def State.showPwm (s : State) : State :=
  let now := ((s.pairs.filter s.switches).map fun r => 2 ^ r.id).foldl (· + ·) 0
  let stopped := (List.range 12).any fun p => bit (s.rd R.PWM_STATUS_SWITCHING) p && !bit now p && !bit s.faultPairs p
  let s := s.pairs.foldl (fun s r => s.wr (R.PWM_PAIR_STATUS_STATE r.id) (s.pairState r)) s
  let s := ((s.wr R.PWM_STATUS_SWITCHING now).wr R.PWM_FAULT_PAIRS s.faultPairs).wrB R.PWM_STATUS_LIVE (s.live 12)
  if stopped then s.flag R.PWM_EVENT_STATUS_PAIR_OFF else s
/-- The compare value of a latched duty (R400). -/
def CfgRec.compareOf (r : CfgRec) (d : Word) : Nat :=
  let x := ratClamp 0 1 ((f32? d).getD 0)
  (ratRne (x * (r.period : Rat) / (if r.centre then 2 else 1))).toNat
/-- The first point at or after a cycle of tick N at which a pair's carrier count is a multiple of a step (R399). -/
def CfgRec.nextCount (r : CfgRec) (step n from' : Nat) : Nat :=
  let q := r.period / Nat.gcd r.period 30000
  from' + (step - ((n % q) * 30000 + from' + r.u32 0x18) % step) % step
/-- The first reload point at or after a cycle of tick N (R400): count 0, and the top under DOUBLE_UPDATE. -/
def CfgRec.reload (r : CfgRec) (n from' : Nat) : Nat :=
  r.nextCount (if r.centre && bit (r.u16 0x12) 2 then r.period / 2 else r.period) n from'
/-- The pulses omitted in one carrier period at a compare value: those with a width above zero that the dead time leaves
shorter than the minimum. -/
def CfgRec.omitted (r : CfgRec) (c : Nat) : Nat :=
  let high := if r.centre then 2 * c else c
  let low := r.period - high
  let short (w : Nat) : Bool := decide (0 < w) && decide (w - r.pwmDead < r.pwmMin)
  b2n (short high) + b2n (short low)
/-- The PWM unit over one Stride tick, after the groups have latched: a reload at least 100 cycles after the output phase
takes the new compare value, an earlier one that of the tick before. -/
def State.pwmPair (s : State) (r : CfgRec) : State :=
  let n := s.tick
  let ph := ((s.groups.find? fun g => g.u8 0x14 == 1).elim 0 (·.u16 0x10)) + 100
  let old := tgetD s.loop.compare r.id 0
  let new := r.compareOf (s.latched 1 (2 * r.id))
  let c := if r.reload n ph < 30000 then new else if r.reload n 0 < ph then old else s.rd (R.PWM_PAIR_COMPARE r.id)
  let s := (s.modLoop fun l => { l with compare := tput l.compare r.id new }).wr (R.PWM_PAIR_COMPARE r.id) c
  let first := r.nextCount r.period n 0
  let periods := if first < 30000 then (29999 - first) / r.period + 1 else 0
  if s.switches r then
    s.wr (R.PWM_PAIR_STATUS_PULSES_OMITTED r.id) (min 65535 (s.rd (R.PWM_PAIR_STATUS_PULSES_OMITTED r.id) + periods * r.omitted c))
  else s
def State.pwmTick (s : State) : State :=
  if s.live 12 && !s.loopGlide then (s.pairs.foldl State.pwmPair s).showPwm else s.showPwm

end Sys2Proof.Machine
end

