-- ==== Sys2Proof/Machine/Loop.lean ====
section
/-!
DEFINITION. The loop engine and PWM commands and events (R378, R394 to R404): one meaning per row. The tick itself is
the row TICK.
-/
namespace Sys2Proof.Machine
open Sys2Proof

/-! ## Host signals (R378, R403) -/

/-- A host write refused is counted and flagged. -/
def State.hostRefused (s : State) : State := (s.inc R.LOOP_HOST_REFUSED).flag R.LOOP_EVENT_STATUS_HOST_WRITE_REFUSED
/-- R378: the write stages the value at the signal that the session has selected, or is refused. -/
def State.sigWrite (s : State) (sess : Nat) (v : Word) : State :=
  let sig := s.sel (some sess) R.LOOP_SIG_INDEX.addr % 65536
  let bad := s.hostBad sig v
  if bad = 0 then
    ((s.stageSig sig v true).wr R.LOOP_SIG_WRITE_STATUS_RESULT 1).wrB R.LOOP_SIG_WRITE_STATUS_PENDING true
  else (s.wr R.LOOP_SIG_WRITE_STATUS_RESULT bad).hostRefused
def execLoopSigWrite (sess : Nat) (value : Word) (s : State) : Res State :=
  if s.holds sess 2 && s.powered then .next (s.sigWrite sess value) else .next s
/-- The completion status of a refusal. -/
def hostStatus (bad : Nat) : Nat := match bad with
  | 3 => 0x0810
  | 4 => 0x0811
  | 5 => 0x0812
  | _ => 0x0814
/-- R403: up to 6 signals at one boundary, or none of them. -/
def State.setSignals (q : Nat) (c : Cmd) (s : State) : State :=
  let n := u8 c.args 0
  let es := (List.range n).map fun k => (u16 c.args (4 + 8 * k), BitVec.ofNat 32 (u32 c.args (8 + 8 * k)))
  if n = 0 ∨ 6 < n then s.complete q 0x0101 0
  else match (es.map fun e => s.hostBad e.1 e.2).find? (· != 0) with
    | some bad => s.hostRefused.complete q (hostStatus bad) 0
    | none => (es.foldl (fun s e => s.stageSig e.1 e.2 true) s).modLoop fun l => { l with waits := l.waits ++ [q] }
def execSetSignals (q : Nat) (s : State) : Res State := s.onCmd q CmdCode.setSignalsCode (State.setSignals q)
/-- R403, R389: a FAULTED or parked slot starts again from its initial state at the next boundary. -/
def State.restartSlot (q : Nat) (c : Cmd) (s : State) : State :=
  let k := u16 c.args 0
  if s.engine = HALTED then s.complete q STATE 0
  else if (s.slotRec k).isSome && s.slotParked k then
    (s.modLoop fun l => { l with toStart := l.toStart ++ [k] }).complete q OK (s.tick + 1)
  else s.complete q 0x0813 0
def execRestartSlot (q : Nat) (s : State) : Res State := s.onCmd q CmdCode.restartSlotCode (State.restartSlot q)
/-- R717: CLEAR_COUNTERS of LOOP, with the counters of the slots. -/
def execLoopClearCounters (sess key : Nat) (s : State) : Res State :=
  if s.keyed sess key then
    .next ((s.clearCounters 0x80000 0x10000).modLoop fun l => { l with slots := l.slots.map fun p => (p.1, { p.2 with runs := 0, bad := 0 }) })
  else .next s

/-! ## External sync (R394 to R396) -/

/-- The sync takes a state, with what the change reports. -/
def State.syncTo (s : State) (st : Nat) : State :=
  if s.rd R.LOOP_SYNC_STATUS_STATE = st then s
  else
    let s := (s.wr R.LOOP_SYNC_STATUS_STATE st).flag R.LOOP_EVENT_STATUS_SYNC_CHANGE
    let d := loopData 0xFFFF 0 st
    if st = 3 then s.raise Ev.SYNC_STATE 0 d else s.post 1 0x0808 0 d
def State.syncPeriod (s : State) : Nat := (s.cfg 3 2 0).elim 1 (·.u16 0x12)
/-- The schedule end E of the running schedule. -/
def State.schedEnd (s : State) : Nat := (s.cfg 3 2 (b2n s.loopGlide)).elim 0 (·.u16 0x10)
def State.lateLimit (s : State) : Nat := if s.loopGlide then 7875 else 31500
/-- The runs of early and of missed edges. -/
def State.syncRuns (s : State) (early missed : Nat) : State :=
  let s := (s.wr R.LOOP_SYNC_STATUS_EARLY_RUN early).wr R.LOOP_SYNC_STATUS_MISSED_RUN missed
  if 3 ≤ early ∨ 3 ≤ missed then s.syncTo 3 else s
/-- The present tick ends at a cycle, and a sync period starts with the next. -/
def State.endTick (s : State) (cycle : Nat) : State := s.modLoop fun l => { l with ended := some cycle, syncPos := 0 }
/-- The tick that ends a sync period. -/
def State.periodEnds (s : State) : Bool := s.loop.syncPos + 1 == s.syncPeriod
/-- R395: ARM. -/
def execSyncArm (sess key : Nat) (s : State) : Res State :=
  if s.keyed sess key && (s.rd R.LOOP_SYNC_STATUS_STATE == 0 || s.rd R.LOOP_SYNC_STATUS_STATE == 3) then
    .next (((s.syncRuns 0 0).wr R.LOOP_SYNC_STATUS_PERIOD s.syncPeriod).syncTo 1)
  else .next s
/-- R395: DISARM. -/
def execSyncDisarm (sess key : Nat) (s : State) : Res State :=
  if s.keyed sess key then .next ((s.syncRuns 0 0).syncTo 0) else .next s
/-- R394 to R396: an edge at a cycle of the running tick. -/
def execSyncEdge (cycle : Nat) (s : State) : Res State :=
  if s.loop.ended.isSome then .next s
  else if s.rd R.LOOP_SYNC_STATUS_STATE = 1 then
    if s.schedEnd ≤ cycle ∧ cycle ≤ s.lateLimit then .next ((s.endTick cycle).syncTo 2) else .next s
  else if s.rd R.LOOP_SYNC_STATUS_STATE = 2 ∧ s.periodEnds = true then
    if cycle < s.schedEnd then
      .next (((s.inc R.LOOP_SYNC_EARLY).modLoop fun l => { l with syncPos := 0, ended := some (if s.loopGlide then 7500 else 30000) }).syncRuns
        (s.rd R.LOOP_SYNC_STATUS_EARLY_RUN + 1) 0)
    else if cycle ≤ s.lateLimit then .next ((s.endTick cycle).syncRuns 0 0) else .next s
  else .next s
/-- R396: no edge by the late limit. -/
def execSyncLateLimit (s : State) : Res State :=
  if s.rd R.LOOP_SYNC_STATUS_STATE = 2 ∧ s.periodEnds = true ∧ s.loop.ended.isNone = true then
    .next (((s.inc R.LOOP_SYNC_MISSED).endTick s.lateLimit).syncRuns 0 (s.rd R.LOOP_SYNC_STATUS_MISSED_RUN + 1))
  else .next s

/-! ## PWM faults (R402) -/

/-- A fault input becomes active, or inactive again. -/
def State.pwmFault (s : State) (i : Nat) : State :=
  let before := s.faultPairs
  let latched := s.on (R.PWM_FAULT_STATUS_LATCHED.bit i)
  let s := (s.wrB (R.PWM_FAULT_STATUS_ACTIVE.bit i) true).wrB (R.PWM_FAULT_STATUS_LATCHED.bit i) true
  let off := s.faultPairs &&& (2 ^ 12 - 1 - before)
  let s := if latched then s else
    ((s.inc R.PWM_FAULT_COUNT).raise Ev.PWM_FAULT 0 (loopData 0xFFFF i 0 ++ le 2 off)).flag R.PWM_EVENT_STATUS_FAULT_INPUT
  (s.acqSource 3 i true (30000 * s.tick)).showPwm
def execPwmFaultInput (i : Nat) (active : Bool) (s : State) : Res State :=
  if decide (4 ≤ i) || !s.powered then .next s
  else if active then .next (s.pwmFault i) else .next (s.wrB (R.PWM_FAULT_STATUS_ACTIVE.bit i) false)
/-- R402: a W1C write clears the latches of the inputs that are inactive. -/
def State.clearPwmLatch (s : State) (v : Word) : State :=
  let keep := s.rd R.PWM_FAULT_STATUS_ACTIVE
  ([0, 1, 2, 3].foldl (fun s i => if bit v.toNat i && !bit keep i then s.wrB (R.PWM_FAULT_STATUS_LATCHED.bit i) false else s) s).showPwm
def execPwmFaultLatchClear (sess : Nat) (value : Word) (s : State) : Res State :=
  if s.holds sess 2 && s.powered then .next (s.clearPwmLatch value) else .next s
/-- R717: CLEAR_COUNTERS of PWM. -/
def execPwmClearCounters (sess key : Nat) (s : State) : Res State :=
  if s.keyed sess key then .next (s.clearCounters 0x90000 0x10000) else .next s

end Sys2Proof.Machine
end

