-- ==== Sys2Proof/Machine/PosOps.lean ====
section
/-!
DEFINITION. The position feedback interface (R437 to R461): counts, speed, fusion with tape and marks, quality, and the
quantities it hands the loop engine.
-/
namespace Sys2Proof.Machine
open Sys2Proof

/-! ## Records and constants -/

/-- Fraction units in a µm. -/
abbrev umUnit : Int := 65536
/-- The µm part of a position with fraction bits. -/
def um (x : Int) : Int := x / umUnit
def wrap48 (x : Int) : Int := (BitVec.ofInt 48 x).toInt
def wrapFx (x : Int) : Int := (BitVec.ofInt 64 x).toInt
/-- A rational of µm in fraction units, to nearest even. -/
def toFx (x : Rat) : Int := ratRne (x * 65536)
/-- A value rounded to binary64 (R451). -/
def f64 (x : Rat) : Rat :=
  if x.num = 0 then 0
  else
    let (m, e) := roundFrac 53 x.num.natAbs x.den
    let v : Rat := (m : Rat) * pow2 (e - 52)
    if x.num < 0 then -v else v
def PosCh.fresh : PosCh :=
  { count := 0, hyst := 0, lag := false, hdir := 0, counts := [], edge1 := 0, edge2 := 0, edir := 1, fused := 0, known := false,
    ref := 0, look := 0, target := 0, pend := none, slip := 0, vel := 0, mvel := 0, vane := false, zone := false, marker := false,
    rise := none, vaneRise := none, seen := none, since := 0, left := 0, ds := 0, goods := 0, goodTravel := 0, tape := none,
    rejects := 0, far := 0, disagree := false, rt := 0, slipAt := none, encAt := [], hallAt := [], idxRun := 0, idxLast := none,
    emu := 0, latches := [], atStart := true }
def State.ch (s : State) (c : Nat) : PosCh := tgetD s.pos c PosCh.fresh
def State.setCh (s : State) (c : Nat) (x : PosCh) : State := { s with pos := tput s.pos c x }
def State.modCh (s : State) (c : Nat) (f : PosCh → PosCh) : State := s.setCh c (f (s.ch c))
/-- The POSITION_CHANNEL record (R481). -/
def State.posRec (s : State) (c : Nat) : Option CfgRec := s.cfg 6 4 c
def CfgRec.motorKind (r : CfgRec) : Nat := r.u8 0x10
def CfgRec.countsPerRev (r : CfgRec) : Nat := r.u32 0x14
/-- q, µm per count (R481). -/
def CfgRec.travelPerCount (r : CfgRec) : Rat := ratDiv ((r.u64 0x18 : Rat) / 1000) (r.countsPerRev : Rat)
def CfgRec.markMode (r : CfgRec) : Nat := r.u8 0x38
def CfgRec.pitch (r : CfgRec) : Int := (r.u16 0x3A : Int) * 1000
def CfgRec.slipMax (r : CfgRec) : Rat := cfgR (some r) 0x3C (2 / 100)
def CfgRec.tapeGain (r : CfgRec) : Rat := r.f32 0x40
abbrev POS_GOOD : Nat := 1
abbrev POS_DEGRADED : Nat := 2
abbrev POS_LOST : Nat := 3
def State.quality (s : State) (c : Nat) : Nat := s.rd (R.POS_STATUS_QUALITY c)
def State.motorBad (s : State) (c : Nat) : Bool := s.on (R.POS_STATUS_MOTOR_FAULT c)
def State.tapeBad (s : State) (c : Nat) : Bool := s.on (R.POS_STATUS_TAPE_FAULT c)
def State.frozen (s : State) (c : Nat) : Bool := s.on (R.POS_STATUS_TARGET_FROZEN c)
def addSat (s : State) (f : Fld) (n : Nat) : State := s.wr f (min (2 ^ f.width - 1) (s.rd f + n))

/-! ## Quality and source faults (R440 to R446, R454) -/

/-- The data of a POS event (R484): the quality, a second byte and a binary32 figure. -/
def posData (q b1 : Nat) (x : Rat) : List Byte := le 1 q ++ le 1 b1 ++ le 2 0 ++ le 4 (toB32 x).toNat
def State.setQuality (s : State) (c q : Nat) : State :=
  if s.quality c = q then s
  else ((s.wr (R.POS_STATUS_QUALITY c) q).raise Ev.QUALITY_CHANGED c (posData q 0 0)).flag (R.POS_EVENT_STATUS_QUALITY_CHANGE c)
def State.degrade (s : State) (c : Nat) : State :=
  if s.quality c = POS_GOOD then (s.modCh c fun x => { x with goods := 0, goodTravel := 0 }).setQuality c POS_DEGRADED else s
/-- A source faults; both faulted is LOST. -/
def State.sourceFault (s : State) (c : Nat) (tape : Bool) : State :=
  let f := if tape then R.POS_STATUS_TAPE_FAULT c else R.POS_STATUS_MOTOR_FAULT c
  if s.on f then s
  else
    let s := ((s.wrB f true).raise Ev.SOURCE_FAULT c (posData (s.quality c) (b2n tape) 0)).flag (R.POS_EVENT_STATUS_SOURCE_FAULT c)
    if s.motorBad c && s.tapeBad c then s.setQuality c POS_LOST else s.degrade c

/-! ## Marks (R455 to R459) -/

/-- The mark centre nearest to a position, µm. -/
def State.nearestMark (s : State) (c : Nat) (r : CfgRec) (x : Int) : Option Int :=
  match r.markMode with
  | 1 => if r.pitch = 0 then none else some ((2 * x + r.pitch) / (2 * r.pitch) * r.pitch)
  | 2 => (s.served c).foldl (fun best l =>
      let h := s.landingUm l
      match best with
      | none => some h
      | some b => if (h - x).natAbs < (b - x).natAbs then some h else some b) none
  | _ => none
/-- The fused position corrected by so many µm. -/
def State.correct (s : State) (c : Nat) (d : Int) : State := s.modCh c fun x => { x with fused := wrapFx (x.fused + d) }
/-- Slip observed between corrections at least 1 m of motor travel apart (R453). -/
def State.observeSlip (s : State) (c : Nat) (r : CfgRec) : State :=
  let x := s.ch c
  match x.slipAt with
  | none => s.modCh c fun x => { x with slipAt := some (x.fused, x.count) }
  | some (f, n) =>
    let motor : Rat := ((x.count - n : Int) : Rat) * r.travelPerCount
    if ratAbs motor < 1000000 then s
    else
      let obs := 1 - (((x.fused - f : Int) : Rat) / 65536) / motor
      let sl := ratClamp (-r.slipMax) r.slipMax (x.slip + (obs - x.slip) / 5)
      let s := (s.setCh c { x with slip := sl, slipAt := some (x.fused, x.count) }).wrR (R.POS_SLIP c) sl
      if r.slipMax < ratAbs obs then (s.raise Ev.SLIP_HIGH c (posData (s.quality c) 0 obs)).flag (R.POS_EVENT_STATUS_SLIP_HIGH c) else s
/-- An accepted mark (R456): the residual added whole, quality judged anew (R452, R454). -/
def State.acceptMark (s : State) (c : Nat) (r : CfgRec) (centre latched : Int) : State :=
  let res := centre - latched
  let s := (s.correct c (res * umUnit)).inc (R.POS_MARKS_ACCEPTED c)
  let s := (s.wrR (R.POS_RESIDUAL c) ((res : Rat) / 1000000)).wr (R.POS_STATUS_MISS_RUN c) 0
  let x := s.ch c
  let s := s.setCh c { x with seen := some centre, since := 0, goods := x.goods + 1, disagree := false, far := 0 }
  let s := if x.disagree then s.sourceFault c (decide (20000 < ratAbs x.rt)) else s
  let s := if s.quality c = POS_DEGRADED ∧ 2 ≤ (s.ch c).goods ∧ s.motorBad c = false ∧ s.tapeBad c = false then s.setQuality c POS_GOOD else s
  s.observeSlip c r
/-- A marker pulse whose two edges stand at the given fused positions (R456, R457). -/
def State.markPulse (s : State) (c : Nat) (r : CfgRec) (a b : Int) : State :=
  let lo := min a b
  let hi := max a b
  let width := hi - lo
  if width < 16000 ∨ 24000 < width then
    ((s.inc (R.POS_MARKS_FALSE c)).raise Ev.MARK_FALSE c (posData (s.quality c) 0 0)).flag (R.POS_EVENT_STATUS_MARK_FALSE c)
  else
    let mid := (lo + hi) / 2
    match s.nearestMark c r mid with
    | none => s
    | some k =>
      if (lo - (k - 10000)).natAbs ≤ 12000 ∧ (hi - (k + 10000)).natAbs ≤ 12000 then s.acceptMark c r k mid else s
/-- The mark whose far side the fused position passes by 22 mm between two positions (R457). -/
def State.passedMark (s : State) (c : Nat) (r : CfgRec) (old new : Int) : Option Int :=
  if old = new then none
  else
    let d : Int := if old < new then 22000 else -22000
    match s.nearestMark c r (new - d) with
    | none => none
    | some k => if (old < k + d ∧ k + d ≤ new) ∨ (new ≤ k + d ∧ k + d < old) then some k else none
/-- A miss, with its margin (R457 to R459). -/
def State.markMiss (s : State) (c : Nat) (r : CfgRec) : State :=
  let x := s.ch c
  let ds := max 12000 (ratRne (r.slipMax * ((x.since : Rat) / 65536)))
  let s := (s.setCh c { x with ds := ds, left := 500000 * umUnit, goods := 0 }).wrB (R.POS_STATUS_MARGIN_ACTIVE c) true
  let s := ((s.inc (R.POS_MARKS_MISSED c)).raise Ev.MARK_MISSED c (posData (s.quality c) 0 0)).flag (R.POS_EVENT_STATUS_MARK_MISSED c)
  let s := addSat s (R.POS_STATUS_MISS_RUN c) 1
  if 2 ≤ s.rd (R.POS_STATUS_MISS_RUN c) then s.degrade c else s
/-- The fused position has moved: misses and the travel that a margin and quality count (R454, R458). -/
def State.travelled (s : State) (c : Nat) (r : CfgRec) (old : Int) : State :=
  let x := s.ch c
  let d : Int := (x.fused - old).natAbs
  let near := decide (ratAbs x.rt ≤ 5000)
  let x := { x with since := x.since + d, left := max 0 (x.left - d), goodTravel := if near then x.goodTravel + d else 0 }
  let s := (s.setCh c x).wrB (R.POS_STATUS_MARGIN_ACTIVE c) (decide (0 < x.left))
  let s := if r.markMode = 0 ∧ s.quality c = POS_DEGRADED ∧ s.motorBad c = false ∧ s.tapeBad c = false ∧ 10000000 * umUnit ≤ x.goodTravel
           then s.setQuality c POS_GOOD else s
  match s.passedMark c r (um old) (um x.fused) with
  | none => s
  | some k => if x.seen = some k then s.modCh c fun y => { y with seen := none } else s.markMiss c r

/-! ## Tape (R445, R446, R452) -/

/-- Gray code to binary over n bits. -/
def ungray : Nat → Nat → Nat
  | 0, _ => 0
  | n + 1, g => let b := ungray n (g / 2); 2 * b + (b % 2 + g % 2) % 2
def popcount : Nat → Nat → Nat
  | 0, _ => 0
  | n + 1, v => v % 2 + popcount n (v / 2)
/-- The position of a frame, none where its error bit or parity fails. -/
def CfgRec.ssiDecode (r : CfgRec) (frame : Nat) : Option Nat :=
  let n := r.u8 0x12
  let p := r.u8 0x13
  let f := r.u8 0x11
  let raw := frame / 2 ^ (n - p) % 2 ^ p
  let e := b2n (bit f 3)
  let err := bit f 3 && bit frame (n - p - 1)
  let par := bit f 4 && popcount (p + e + 1) (frame / 2 ^ (n - p - e - 1) % 2 ^ (p + e + 1)) % 2 == 1
  if err || par then none else some (if bit f 2 then ungray p raw else raw)
/-- The tape position, µm (R445). -/
def CfgRec.tapeUm (r : CfgRec) (reading : Nat) : Int :=
  ratRne ((reading * r.u32 0x28 : Nat) / 1000 : Rat) + (BitVec.ofNat 64 (r.u64 0x30)).toInt
def State.rejectTape (s : State) (c : Nat) : State :=
  let s := (addSat s (R.POS_ERRORS_SSI_REJECTS c) 1).modCh c fun x => { x with rejects := x.rejects + 1 }
  if 3 ≤ (s.ch c).rejects then s.sourceFault c true else s
/-- The fused position at a stamp, from the motor counts since then (R445, R449). -/
def State.fusedBack (s : State) (c : Nat) (back : Rat) : Rat :=
  let x := s.ch c
  let q := (s.posRec c).elim 0 (·.travelPerCount)
  (x.fused : Rat) / 65536 - back * q * (1 - x.slip)
/-- An accepted read (R452). -/
def State.acceptTape (s : State) (c : Nat) (r : CfgRec) (p : Int) (stamp : Nat) (at' : Rat) : State :=
  let x := s.ch c
  let s := s.wrS48 (R.POS_TAPE_LO c) p
  if x.known = false then
    s.setCh c { x with tape := some (p, stamp), rejects := 0, known := true, fused := wrapFx (p * umUnit), rt := 0 }
  else
    let rt : Rat := (p : Rat) - at'
    let step := if s.tapeBad c then 0 else toFx (ratClamp (-1000) 1000 (r.tapeGain * rt))
    let far := if 20000 < ratAbs rt then x.far + 1 else 0
    let s := s.setCh c { x with tape := some (p, stamp), rejects := 0, rt := rt, far := far, fused := wrapFx (x.fused + step) }
    let s := s.wrR (R.POS_TAPE_RESIDUAL c) (rt / 1000000)
    let s := if r.markMode = 0 then s.observeSlip c r else s
    let s := if 3 ≤ far ∧ x.disagree = false then (s.modCh c fun y => { y with disagree := true }).degrade c else s
    if 100000 < ratAbs rt then s.setQuality c POS_LOST else s
/-- A tape read with its frame (R445, R446). -/
def State.readTape (s : State) (c : Nat) (r : CfgRec) (frame stamp : Nat) (back : Rat) : State :=
  match r.ssiDecode frame with
  | none => s.rejectTape c
  | some v =>
    let p := r.tapeUm v
    let x := s.ch c
    let bad := match x.tape with
      | some (p0, t0) => decide (ratAbs x.vel * ((stamp - t0 : Nat) : Rat) / 3000 + 10000 < (((p - p0).natAbs : Nat) : Rat))
      | none => false
    if bad then s.rejectTape c else s.acceptTape c r p stamp (s.fusedBack c back)

/-! ## Counts and speed (R439 to R447, R450, R451) -/

/-- The hysteresis count after a move of the motor count (R442). -/
def PosCh.hystTo (x : PosCh) (count : Int) : PosCh :=
  let d := count - x.count
  if d = 0 then { x with count := count }
  else
    let dir : Int := if 0 < d then 1 else -1
    if !x.lag && (x.hdir = 0 || x.hdir = dir) then { x with count := count, hyst := count, hdir := dir }
    else
      let h := if x.hyst + 2 ≤ count then count - 1 else if count + 2 ≤ x.hyst then count + 1 else x.hyst
      { x with count := count, hyst := h, lag := true, hdir := dir }
/-- The motor speed at nominal scale, m/s, and whether it is taken by count (R447). -/
def State.motorSpeed (s : State) (c : Nat) (r : CfgRec) : Rat × Bool :=
  let x := s.ch c
  let q := r.travelPerCount
  let byCount : Rat := q * ((x.hyst - x.counts.getLastD x.hyst : Int) : Rat) / 250
  let rate : Rat := (((x.hyst - x.counts.getLastD x.hyst).natAbs : Nat) : Rat) * 4000
  let hi : Nat := (if r.u16 0x50 = 0 then 200 else r.u16 0x50) * 1000
  let lo : Nat := (if r.u16 0x52 = 0 then 160 else r.u16 0x52) * 1000
  let was := s.on (R.POS_STATUS_SPEED_BY_COUNT c)
  let use := r.motorKind == 1 || (if was then decide ((lo : Rat) < rate) else decide ((hi : Rat) ≤ rate))
  let now := s.tick * 30000
  let span := max (x.edge1 - x.edge2) (now - x.edge1)
  let byPeriod : Rat := if x.edge1 = 0 ∨ 300000000 ≤ now - x.edge1 ∨ span = 0 then 0 else (x.edir : Rat) * q * 3000 / (span : Rat)
  (if use then byCount else byPeriod, use)
/-- Errors of the last second, with those of this tick; 16 of them fault the source (R440, R444). -/
def errs (l : List Nat) (tick n : Nat) : List Nat := (List.replicate n tick ++ l.filter fun t => decide (tick < t + 100000)).take 16
/-- The registers of a channel. -/
def State.showPos (s : State) (c : Nat) : State :=
  let x := s.ch c
  let s := ((s.wrS48 (R.POS_FUSED_LO c) (um x.fused)).wrS48 (R.POS_MOTOR_COUNT_LO c) x.count).wrS48 (R.POS_TARGET_LO c) x.target
  let s := (s.wrS48 (R.POS_REFERENCE_LO c) (um x.ref)).wrR (R.POS_VELOCITY c) x.vel
  s.wrR (R.POS_MOTOR_VELOCITY c) x.mvel
def State.wrapped (s : State) (c : Nat) (f : Fld) : State :=
  ((s.wrB f true).raise Ev.COUNTER_WRAP c (posData (s.quality c) 0 0)).flag (R.POS_EVENT_STATUS_WRAP c)
/-- The emulated output follows (R450), at most 5 MHz per line, which is 200 counts in a tick. -/
def State.emulate (s : State) (c : Nat) (r : CfgRec) : State :=
  let on := bit (r.u8 0x11) 5 && !s.motorBad c
  let lines := if r.u32 0x4C = 0 then 1024 else r.u32 0x4C
  let x := s.ch c
  let want : Int := ratFloor ((x.hyst : Rat) * ((4 * lines : Nat) : Rat) / (r.countsPerRev : Rat))
  let d := want - x.emu
  let excess := decide (200 < d.natAbs)
  let s := if on then s.setCh c { x with emu := if excess then (if 0 < d then x.emu + 200 else x.emu - 200) else want } else s
  let s := ((s.wrB (R.POS_STATUS_EMU_RUNNING c) on).wrB (R.POS_EMU_STATUS_RUNNING c) on).wr (R.POS_EMU_STATUS_LINES c) lines
  if on && excess then s.wrB (R.POS_EMU_STATUS_OVERRUN c) true else s
/-- A channel over one tick (R439 to R451): the target that waits, counts, errors, speed, and the fused position. -/
def State.posTick (s : State) (moving : Bool) (r : CfgRec) (m : MotorIn) : State :=
  let c := r.id
  let x := s.ch c
  let x := match x.pend with
    | some t => { x with target := t, pend := none }
    | none => x
  let dc : Int := if s.motorBad c then 0 else if bit (r.u8 0x11) 1 then -m.delta else m.delta
  let raw := x.count + dc
  let y := x.hystTo (wrap48 raw)
  let y := if m.edge1 = 0 then y else { y with edge1 := m.edge1, edge2 := m.edge2, edir := if 0 ≤ dc then 1 else -1 }
  let q := f64 r.travelPerCount
  let adv := toFx (f64 (f64 ((dc : Rat) * q) * f64 (1 - x.slip)))
  let y := { y with fused := wrapFx (x.fused + adv), encAt := errs x.encAt s.tick m.encErrors, hallAt := errs x.hallAt s.tick m.hallErrors,
                    atStart := x.atStart && dc == 0 }
  let s := s.setCh c y
  let (v, by') := s.motorSpeed c r
  let s := s.modCh c fun z => { z with mvel := v, vel := v * (1 - z.slip), counts := (z.hyst :: z.counts).take 25 }
  let s := s.wrB (R.POS_STATUS_SPEED_BY_COUNT c) by'
  let s := (addSat s (R.POS_ERRORS_ENC_ERRORS c) m.encErrors)
  let s := addSat s (R.POS_ERRORS_HALL_ERRORS c) m.hallErrors
  let s := if r.motorKind = 1 then s.wr (R.POS_AMPLITUDE c) m.radius else s
  let s := if 16 ≤ y.encAt.length ∨ (r.motorKind = 2 ∧ 16 ≤ y.hallAt.length) then s.sourceFault c false else s
  let s := if wrap48 raw = raw then s else s.wrapped c (R.POS_STATUS_WRAP_MOTOR c)
  let s := if y.fused = x.fused + adv then s else s.wrapped c (R.POS_STATUS_WRAP_FUSED c)
  let s := if (wrap48 raw ≠ raw ∨ y.fused ≠ x.fused + adv) ∧ moving then s.setQuality c POS_LOST else s
  (((s.travelled c r x.fused).emulate c r)).showPos c

/-! ## Hand-over to the loop engine (R383, R384, R460 to R462) -/

/-- A difference of positions in m, and whether it saturated (R383). -/
def posDiff (d : Int) : Word × Bool :=
  let lim : Int := 16777215
  let x := if lim < d then lim else if d < -lim then -lim else d
  (f32MulW (f32Round false (x : Rat)) 0x358637BD#32, decide (x ≠ d))
/-- A 48-bit difference. -/
def diff48 (a b : Int) : Int := wrap48 (a - b)
def State.refError (s : State) (c : Nat) : Int := let x := s.ch c; diff48 (um x.ref) (um x.fused)
def State.goMargin (s : State) (c : Nat) : Int := let x := s.ch c; diff48 x.target (um x.look) - (if 0 < x.left then x.ds else 0)
def State.toGo (s : State) (c : Nat) : Int := let x := s.ch c; diff48 x.target (um x.fused)
/-- A latched increment in fraction units, held to ±0.5 m (R384). -/
def increment (w : Word) : Int :=
  let v := (f32? w).getD 0
  toFx (ratClamp (-1 / 2) (1 / 2) v * 1000000)
/-- The accumulators after the car slot's latch (R460, R462): increments count in a tick in which the slot committed. -/
def State.posLatch (s : State) (c : Nat) (ran : Bool) : State :=
  let inc (k : Nat) : Int := if ran then increment (s.latched 4 (4 * c + k)) else 0
  let s := s.modCh c fun x => { x with ref := wrapFx (x.ref + inc 0), look := wrapFx (x.look + inc 1) }
  if !f32IsZero (s.latched 4 (4 * c + 3)) then s.modCh c fun x => { x with ref := um x.fused * umUnit, look := um x.fused * umUnit } else s

/-! ## Targets (R463) -/

/-- A target write: it takes effect at the next tick, and is discarded while the target is frozen. -/
def State.writeTarget (s : State) (c l entrance : Nat) : State :=
  if s.frozen c then s
  else
    let s := s.modCh c fun x => { x with pend := some (s.landingUm l) }
    ((s.wr (R.CAR_NEXT_STOP_LANDING c) l).wr (R.CAR_NEXT_STOP_ENTRANCE c) entrance).wrB (R.CAR_NEXT_STOP_VALID c) true
def State.dropTarget (s : State) (c : Nat) : State := s.wrB (R.CAR_NEXT_STOP_VALID c) false
/-- The landing of those served that lies nearest to a position. -/
def State.nearestLanding (s : State) (c : Nat) (x : Int) : Nat :=
  (s.served c).foldl (fun b l => if (s.landingUm l - x).natAbs < (s.landingUm b - x).natAbs then l else b) ((s.served c).headD 0)

end Sys2Proof.Machine
end

