-- ==== Sys2Proof/Machine/SafOps.lean ====
section
/-!
DEFINITION. The safety side (R513 to R540): inputs, functions, permits, outputs and the safety mode of each car, as both
technologies evaluate them.
-/
namespace Sys2Proof.Machine
open Sys2Proof

def State.modSaf (s : State) (f : Saf → Saf) : State := { s with saf := f s.saf }
def SafIn.fresh : SafIn := ⟨false, none⟩
def State.safIn (s : State) (i : Nat) : SafIn := tgetD s.saf.ins i SafIn.fresh
def State.modIn (s : State) (i : Nat) (f : SafIn → SafIn) : State := s.modSaf fun x => { x with ins := tput x.ins i (f (s.safIn i)) }
/-- A function's state; 0 until it is evaluated first. -/
def State.safFn (s : State) (i : Nat) : SafFn := tgetD s.saf.fns i ⟨0, 0, none⟩
def SafCar.fresh : SafCar := ⟨none, false, false, false, 0, false, false, 0, 0, none, none, none, false⟩
def State.safCar (s : State) (c : Nat) : SafCar := tgetD s.saf.cars c SafCar.fresh
def State.modSafCar (s : State) (c : Nat) (f : SafCar → SafCar) : State :=
  s.modSaf fun x => { x with cars := tput x.cars c (f (s.safCar c)) }
/-- Function, input and output records (R516, R517, R520). -/
def State.fnRecs (s : State) : List CfgRec := s.cfgAll 9 1
def CfgRec.fnKind (r : CfgRec) : Nat := r.u8 0x10
def CfgRec.fnCar (r : CfgRec) : Nat := r.u8 0x11
def CfgRec.fnIn (r : CfgRec) (k : Nat) : Nat := r.u16 (0x14 + 2 * k)
/-- The function acts on a car (R521). -/
def CfgRec.fnOn (r : CfgRec) (c : Nat) : Bool := r.fnCar == c || r.fnCar == 255
def State.carFns (s : State) (c : Nat) : List CfgRec := s.fnRecs.filter fun r => r.fnOn c
def State.monitor (s : State) (c : Nat) : Option CfgRec := (s.carFns c).find? fun r => r.fnKind == 9
def State.snowRec (s : State) : Option CfgRec := s.cfg 9 5 0

/-! ## Inputs (R517 to R519, R561) -/

/-- The bit that a connection carries for a remote input: 0 unless it runs. -/
def State.remoteBit (s : State) (n : Nat) : Bool :=
  (s.cfgAll 9 4).any fun r =>
    r.u8 0x16 == 0 && r.u16 0x28 != 0xFFFF && decide (r.u16 0x28 ≤ n) && decide (n < r.u16 0x28 + r.u16 0x2A) &&
    (match tget s.saf.conns (r.u16 0x14) with
     | some x => x.state == 3 && bit ((x.data.getD ((n - r.u16 0x28) / 8) 0#8).toNat) ((n - r.u16 0x28) % 8)
     | none => false)
/-- An input judged (R519): 0 demand, 1 clear, 2 input fault (a demand too). -/
def State.inState (s : State) (n : Nat) : Nat :=
  if 32 ≤ n then b2n (s.remoteBit n)
  else
    let r := s.cfg 9 2 n
    let mode := r.elim 0 (·.u8 0x10)
    let p := r.elim 255 (·.u8 0x11)
    let a := (s.safIn n).high
    let b := (s.safIn p).high
    if (s.safIn n).stuck.isSome || (mode != 0 && (s.safIn p).stuck.isSome) || s.saf.disc.contains n then 2
    else match mode with
      | 0 => b2n a
      | 1 => b2n (a && b)
      | 2 => b2n (a && !b)
      | 3 => b2n (a && b)
      | _ => 0
/-- A discrepancy fault ends where the pair shows its released state (R519). -/
def State.discOver (s : State) (n : Nat) : Bool :=
  let r := s.cfg 9 2 n
  let a := (s.safIn n).high
  let b := (s.safIn (r.elim 255 (·.u8 0x11))).high
  if r.elim 0 (·.u8 0x10) = 2 then !a && b else !a && !b
/-- The pair disagrees (R519). -/
def State.disagrees (s : State) (n : Nat) : Bool :=
  let r := s.cfg 9 2 n
  let a := (s.safIn n).high
  let b := (s.safIn (r.elim 255 (·.u8 0x11))).high
  match r.elim 0 (·.u8 0x10) with
  | 1 => a != b
  | 2 => a == b
  | 3 => a != b
  | _ => false
def State.showInputs (s : State) : State :=
  let s := s.modSaf fun x => { x with disc := x.disc.filter fun n => !s.discOver n }
  let word (f : Nat → Bool) : Nat := ((List.range 32).map fun i => if f i then 2 ^ i else 0).foldl (· + ·) 0
  (s.wr R.SAF_INPUT_STATE (word fun i => s.inState i == 1)).wr R.SAF_INPUT_FAULT (word fun i => s.inState i == 2)
/-- An input fault is latched and posted (R518), with the lowest function that uses the input (R546). -/
def State.inputFault (s : State) (n : Nat) : State :=
  let s := s.wrB (R.SAF_INPUT_FAULT_LATCH.bit n) true
  let f : Option CfgRec := (s.fnRecs.filter fun (r : CfgRec) => r.fnKind != 9 && (List.range 4).any fun k => r.fnIn k == n).head?
  let d := match f with
    | some r => le 1 r.fnCar ++ le 1 r.id ++ le 1 0
    | none => le 1 255 ++ le 1 255 ++ le 1 0
  (s.raise Ev.INPUT_FAULT 0 d).flag R.SAF_EVENT_STATUS_INPUT_FAULT

/-! ## Functions (R521, R522, R529) -/

/-- The function's input state: for INSPECTION its switch, else its one input. -/
def State.fnInput (s : State) (r : CfgRec) : Nat := s.inState (r.fnIn 0)
def State.inspecting (s : State) (c : Nat) : Bool := s.on (R.SAF_CAR_STATUS_INSPECTION c)
/-- The kinds that latch (R521). -/
def CfgRec.latches (r : CfgRec) : Bool := r.fnKind == 4 || r.fnKind == 7
/-- A function evaluated: `reset` says that a reset input or command acts. -/
def State.evalFn (s : State) (r : CfgRec) : State :=
  if r.fnKind = 9 then s
  else
    let x := s.safFn r.id
    let i := s.fnInput r
    let resetIn := r.u16 0x1C != 0xFFFF && s.inState (r.u16 0x1C) == 1
    let st := if i = 2 then 4 else if i = 0 then 2
              else if r.latches && (x.state == 2 || x.state == 3 || x.state == 4) && !resetIn then 3 else 1
    let rises := (x.state == 1 || x.state == 3) && (st == 2 || st == 4)
    let y : SafFn := { state := st, demands := if rises then min 65535 (x.demands + 1) else x.demands,
                       clearAt := if i = 1 then (if x.clearAt.isSome then x.clearAt else some s.tick) else none }
    s.modSaf fun z => { z with fns := tput z.fns r.id y }
def State.fnClear (s : State) (r : CfgRec) : Bool := (s.safFn r.id).state == 1
/-- Every function of a kind is clear for a car. -/
def State.kindClear (s : State) (c k : Nat) : Bool := ((s.carFns c).filter fun r => r.fnKind == k).all s.fnClear
/-- RUN, UP and DOWN of the two-hand control (R522): the direction permitted now, 0 none. -/
def State.inspectionDir (s : State) (c : Nat) : Int :=
  match (s.carFns c).find? fun r => r.fnKind == 5 with
  | none => 0
  | some r =>
    let x := s.safCar c
    let lim := (if r.u16 0x20 = 0 then 500 else r.u16 0x20) * 100
    let sync (a b : Nat) : Bool := decide (a ≤ b + lim) && decide (b ≤ a + lim)
    if x.owed then 0
    else match x.runAt, x.upAt, x.downAt with
      | some t, some u, none => if sync t u then 1 else 0
      | some t, none, some d => if sync t d then -1 else 0
      | _, _, _ => 0
/-- The two-hand inputs as they stand: actuation times kept, a release owed once a move has been released. -/
def State.evalHands (s : State) (c : Nat) : State :=
  match (s.carFns c).find? fun r => r.fnKind == 5 with
  | none => s
  | some r =>
    let x := s.safCar c
    let act (k : Nat) (o : Option Nat) : Option Nat := if s.inState (r.fnIn k) = 1 then (if o.isSome then o else some s.tick) else none
    let was := s.inspectionDir c != 0
    let y := { x with runAt := act 1 x.runAt, upAt := act 2 x.upAt, downAt := act 3 x.downAt }
    let released := y.runAt.isNone && y.upAt.isNone && y.downAt.isNone
    let s := s.modSafCar c fun _ => y
    let now := s.inspectionDir c != 0
    s.modSafCar c fun z => { z with owed := if released then false else if was && !now then true else z.owed }
/-- The final limit that latches a car at one end may be left (R529): inspection, in the direction away from it. -/
def State.awayFromLimit (s : State) (c : Nat) : Bool :=
  let d := s.inspectionDir c
  let l := s.served c
  let mid := (s.landingUm (l.headD 0) + s.landingUm (l.getLastD 0)) / 2
  s.inspecting c && (if mid < um (s.ch c).fused then d == -1 else d == 1)
/-- A FINAL_LIMIT latch whose input has been clear for 1 s in inspection is cleared (R529). -/
def State.limitRelease (s : State) : State :=
  s.fnRecs.foldl (fun s r =>
    let x := s.safFn r.id
    if r.fnKind == 7 && x.state == 3 && s.inspecting r.fnCar && x.clearAt.any fun t => decide (t + 100000 ≤ s.tick)
    then s.modSaf fun z => { z with fns := tput z.fns r.id { x with state := 1 } } else s) s

/-! ## Cars (R524 to R528, R537) -/

abbrev SAF_NORMAL : Nat := 1
abbrev SNOWPLOUGH : Nat := 2
abbrev LATCHED : Nat := 3
def State.carMode (s : State) (c : Nat) : Nat := s.rd (R.SAF_CAR_MODE_MODE c)
def State.outOn (s : State) (n : Nat) : Bool := bit (s.rd R.SAF_OUTPUT_STATE) n
def State.brakeLifted (s : State) (c : Nat) : Bool := bit (s.rd R.SAF_EDM_STATE) (3 * c + 1)
/-- Both technologies permit nothing unless one runs and the other runs or follows (R534, R536). -/
def State.techsOk (s : State) : Bool :=
  let p := s.rd R.SAF_TECH_STATUS_PROC_STATE
  let h := s.rd R.SAF_TECH_STATUS_HW_STATE
  (p == 2 && (h == 2 || h == 4)) || (h == 2 && p == 4)
/-- The limit in force (R525, R538) and its kind. -/
def State.speedLimit (s : State) (c : Nat) : Rat × Nat :=
  let m := s.monitor c
  let rated : Rat := m.elim 0 (·.f32 0x20) * cfgR m 0x24 (110 / 100)
  if s.carMode c = SNOWPLOUGH then
    let t : Rat := ((s.tick - (s.safCar c).entered : Nat) : Rat) / 100000
    (ratMax (3 / 10) (rated - cfgR s.snowRec 0x18 (5 / 10) * t), 2)
  else if s.inspecting c then (66 / 100, 1)
  else if s.outOn (3 * c + 2) then (if (s.safCar c).zoneDrop then (3 / 10, 4) else (8 / 10, 3))
  else (rated, 0)
/-- The higher of the healthy speeds of a car, m/s. -/
def State.carSpeed (s : State) (c : Nat) : Rat :=
  let e := if s.on (R.SAF_CAR_STATUS_ENC_FAULT c) then 0 else ratAbs (s.ch c).mvel
  let t := if s.on (R.SAF_CAR_STATUS_TAPE_FAULT c) then 0 else ratAbs (s.safCar c).tapeSpeed
  ratMax e t
/-- Within 0.2 m of a landing height of the SNOWPLOUGH record (R524). -/
def State.nearLanding (s : State) (c : Nat) : Bool :=
  match s.snowRec with
  | none => false
  | some r => (List.range (r.u8 0x12)).any fun k =>
      decide (((BitVec.ofNat 64 (r.u64 (0x20 + 8 * k))).toInt - um (s.ch c).fused).natAbs ≤ 200000)
/-- The condition of R524 that forbids MAIN and BRAKE, by cause code of R546, with BYPASS energised or not; none where all hold. -/
def State.causeWith (s : State) (c : Nat) (bypass : Bool) : Option Nat :=
  let x := s.safCar c
  let edm := (s.rd R.SAF_EDM_FAULT) / 2 ^ (3 * c) % 8 != 0
  let insp := s.inspecting c
  if s.underway = false ∨ s.on R.SAF_STATUS_UNCONFIRMED = true ∨ s.techsOk = false then some 13
  else if s.carMode c ≠ SAF_NORMAL ∧ s.carMode c ≠ SNOWPLOUGH then some (s.rd (R.SAF_CAR_MODE_CAUSE c))
  else if s.carMode c = SNOWPLOUGH ∧ x.runEnded = true then some (s.rd (R.SAF_CAR_MODE_CAUSE c))
  else if s.kindClear c 1 = false then some 1
  else if s.kindClear c 4 = false ∧ insp = false then some 3
  else if s.kindClear c 7 = false ∧ s.awayFromLimit c = false then some 4
  else if bypass = false ∧ (s.kindClear c 2 = false ∨ s.kindClear c 3 = false) then some 2
  else if x.excess ≠ 0 then some x.excess
  else if x.ucm then some 6
  else if x.slip then some 7
  else if edm then some 9
  else if x.loopRep then some 11
  else if insp ∧ s.inspectionDir c = 0 then some 1
  else none
def State.carCause (s : State) (c : Nat) : Option Nat := s.causeWith c (s.outOn (3 * c + 2))
/-- BYPASS is permitted (R524). -/
def State.bypassOk (s : State) (c : Nat) : Bool :=
  let curtains := ((s.carFns c).filter fun r => r.fnKind == 6 && bit (r.u8 0x20) 0).all s.fnClear
  let limit : Rat := if (s.safCar c).zoneDrop then 3 / 10 else 8 / 10
  (s.causeWith c true).isNone && s.carMode c == SAF_NORMAL && s.on (R.SAF_CAR_STATUS_DOOR_ZONE c) && s.nearLanding c && curtains && decide (s.carSpeed c ≤ limit)
/-- An output's EDM path is healthy, or needs none; before it is switched on the contactor shows released (R531). -/
def State.edmReady (s : State) (n : Nat) : Bool :=
  let need := (s.cfg 9 3 n).any fun r => bit (r.u8 0x12) 0
  !need || (!bit (s.rd R.SAF_EDM_FAULT) n && (s.outOn n || !bit (s.rd R.SAF_EDM_STATE) n))
/-- The permit that both technologies come to for an output (R514, R524, R536). -/
def State.permit (s : State) (n : Nat) : Bool :=
  let c := n / 3
  bit (s.rd R.SAF_REQUEST) n && (s.cfg 9 3 n).isSome && !s.saf.held.contains n && s.edmReady n &&
    (if n % 3 = 2 then s.bypassOk c else (s.carCause c).isNone)
/-- The longest response that R533 allows a trip, µs: safety processor and hard-wired logic. A longer filter or a connection's
watchdog time expectation adds to an input's. -/
def State.responseBound (s : State) (fn cause : Nat) : Nat × Nat :=
  let more (n : Nat) : Nat :=
    if n < 32 then (let f := cfgD (s.cfg 9 2 n) (fun (r : CfgRec) => r.u16 0x16) 10; 100 * (f - 10))
    else match (s.cfgAll 9 4).find? fun r => r.u8 0x16 == 0 && decide (r.u16 0x28 ≤ n) && decide (n < r.u16 0x28 + r.u16 0x2A) with
      | some r => 1000 * cfgD (some r) (fun (r : CfgRec) => r.u16 0x1A) 100
      | none => 0
  if cause = 10 then (18000, 12000)
  else
    let add := if 1 ≤ cause ∧ cause ≤ 4 then (s.cfg 9 1 fn).elim 0 fun r => ((List.range 4).map fun k => if r.fnIn k = 0xFFFF then 0 else more (r.fnIn k)).foldl max 0 else 0
    (8000 + add, 2000 + add)
/-- R533: the technologies measure the response of a trip, an open value within its bound; the longest is kept. -/
def State.measureResponse (s : State) (fn cause : Nat) : State :=
  let b := s.responseBound fn cause
  let (p, s) := s.drawWord
  let (h, s) := s.drawWord
  (s.wr R.SAF_RESPONSE_MAX_PROC (max (s.rd R.SAF_RESPONSE_MAX_PROC) (p.toNat % (min 65535 b.1 + 1)))).wr R.SAF_RESPONSE_MAX_HW
    (max (s.rd R.SAF_RESPONSE_MAX_HW) (h.toNat % (min 65535 b.2 + 1)))
/-- A trip is counted and posted (R546), recorded by the dedicated writer. -/
def State.safTrip (s : State) (c fn cause : Nat) : State :=
  let s := s.measureResponse fn cause
  let d := le 1 c ++ le 1 fn ++ le 1 cause
  let s := (((s.inc R.SAF_TRIPS).inc (R.SAF_CAR_TRIPS c)).wr R.SAF_LAST_TRIP_CAUSE cause).wr R.SAF_LAST_TRIP_CAR c
  let s := ((s.wr R.SAF_LAST_TRIP_FUNCTION fn).wr R.SAF_LAST_TRIP_DETECTED_BY 3).wr R.SAF_LAST_TRIP_TIME s.opSec
  ((s.post 0 0x0E01 0 d).recordTrip 0x0E01 0 false d).flag R.SAF_EVENT_STATUS_TRIP
/-- An output takes the state that its permits give it; its EDM input is then awaited (R531), and a brake drop stores the
car's position (R527). -/
def State.driveOutput (s : State) (n : Nat) : State :=
  let p := s.permit n
  let s := (s.wrB (R.SAF_PERMIT_PROC.bit n) p).wrB (R.SAF_PERMIT_HW.bit n) p
  if s.outOn n = p then s
  else
    let c := n / 3
    let s := s.wrB (R.SAF_OUTPUT_STATE.bit n) p
    let s := if p then s else s.acqSource 5 c false (30000 * s.tick)
    let need := (s.cfg 9 3 n).any fun r => bit (r.u8 0x12) 0
    let s := if need then s.modSaf fun x => { x with edm := tput x.edm n p } else s
    if n % 3 = 1 ∧ p = false then
      s.modSafCar c fun x => { x with brakeAt := if x.ucm || x.slip then x.brakeAt else some (um (s.ch c).fused),
                                      zoneDrop := true, runEnded := x.runEnded || s.carMode c == SNOWPLOUGH }
    else s
/-- A car's status registers. -/
def State.showSafCar (s : State) (c : Nat) : State :=
  let (lim, kind) := s.speedLimit c
  let s := ((s.wr (R.SAF_CAR_STATUS_LIMIT_KIND c) kind).wrR (R.SAF_CAR_SPEED_LIMIT c) lim).wrB (R.SAF_CAR_STATUS_MAIN_ON c) (s.outOn (3 * c))
  let s := (s.wrB (R.SAF_CAR_STATUS_BRAKE_ON c) (s.outOn (3 * c + 1))).wrB (R.SAF_CAR_STATUS_BYPASS_ON c) (s.outOn (3 * c + 2))
  s.wrB (R.SAF_CAR_STATUS_RUN_REQUEST c) (bit (s.rd R.SAF_REQUEST) (3 * c))
/-- The inputs of a car as its status shows them. -/
def State.showCarInputs (s : State) (c : Nat) : State :=
  let sw := ((s.carFns c).find? fun r => r.fnKind == 5).any fun r => s.inState (r.fnIn 0) == 1
  let zone := s.kindClear c 8 && (s.carFns c).any fun r => r.fnKind == 8
  let enters := zone && !s.on (R.SAF_CAR_STATUS_DOOR_ZONE c)
  let s := if enters then s.modSafCar c fun x => { x with zoneDrop := !s.outOn (3 * c + 1) } else s
  let s := ((s.wrB (R.SAF_CAR_STATUS_INSPECTION c) sw).wrB (R.SAF_CAR_STATUS_DOOR_ZONE c) zone)
  (s.wrB (R.SAF_CAR_STATUS_CAR_DOOR c) (s.kindClear c 3)).wrB (R.SAF_CAR_STATUS_LANDING_LOCKS c) (s.kindClear c 2)
/-- One car: its inputs, then BYPASS, then MAIN and BRAKE, whose loss to a demand is a trip. -/
def State.safCarEval (s : State) (c : Nat) : State :=
  let s := (s.showCarInputs c).evalHands c
  let main := s.outOn (3 * c)
  let brake := s.outOn (3 * c + 1)
  let asked := bit (s.rd R.SAF_REQUEST) (3 * c) || bit (s.rd R.SAF_REQUEST) (3 * c + 1)
  let s := ((s.driveOutput (3 * c + 2)).driveOutput (3 * c)).driveOutput (3 * c + 1)
  let lost := (main && !s.outOn (3 * c)) || (brake && !s.outOn (3 * c + 1))
  let s := match s.carCause c with
    | some k =>
      let fr : Option CfgRec := (s.carFns c).find? fun (r : CfgRec) => (s.safFn r.id).state != 1
      if lost && asked then s.safTrip c (match fr with | some r => r.id | none => 255) k else s
    | none => s
  s.showSafCar c
/-- Everything evaluated anew (R514). -/
def State.safEval (s : State) : State :=
  let s := s.showInputs
  let s := s.fnRecs.foldl State.evalFn s
  s.cars.foldl State.safCarEval s
def State.showModes (s : State) : State :=
  let mask (m : Nat) : Nat := ((s.cars.filter fun c => s.carMode c == m).map fun c => 2 ^ c).foldl (· + ·) 0
  let snow := mask SNOWPLOUGH
  let lat := mask LATCHED
  let s := ((s.wr R.SAF_SNOWPLOUGH_CARS snow).wr R.SAF_LATCHED_CARS lat).wrB R.SAF_STATUS_ANY_SNOWPLOUGH (snow != 0)
  ((s.wrB R.SAF_STATUS_ANY_LATCHED (lat != 0)).wrB (R.PWR_GLIDE_STATUS.bit 5) (snow != 0)).flag R.SAF_EVENT_STATUS_MODE_CHANGE
/-- A car enters SAFE_LATCHED (R537). -/
def State.latchCar (s : State) (c cause : Nat) : State :=
  if s.carMode c = LATCHED then s
  else
    let s := ((s.wr (R.SAF_CAR_MODE_MODE c) LATCHED).wr (R.SAF_CAR_MODE_CAUSE c) cause).wr (R.SAF_CAR_MODE_REMAINING_S c) 0
    (s.raise Ev.SAFE_LATCHED 0 (le 1 c ++ le 1 255 ++ le 1 cause)).showModes
/-- A single fault: SNOWPLOUGH from NORMAL, SAFE_LATCHED from SNOWPLOUGH (R537 to R539). -/
def State.snowplough (s : State) (c cause : Nat) : State :=
  if s.carMode c = SAF_NORMAL then
    let t := if s.snowRec.elim 0 (·.u16 0x10) = 0 then 180 else s.snowRec.elim 0 (·.u16 0x10)
    let rest := decide (s.carSpeed c = 0) && s.nearLanding c
    let s := ((s.wr (R.SAF_CAR_MODE_MODE c) SNOWPLOUGH).wr (R.SAF_CAR_MODE_CAUSE c) cause).wr (R.SAF_CAR_MODE_REMAINING_S c) t
    let s := s.modSafCar c fun x => { x with entered := s.tick, runEnded := rest }
    (s.raise Ev.SNOWPLOUGH_ENTERED 0 (le 1 c ++ le 1 255 ++ le 1 cause)).showModes
  else if s.carMode c = SNOWPLOUGH then s.latchCar c cause else s
/-- The seconds left of each Snowplough run. -/
def State.safTime (s : State) : State :=
  s.cars.foldl (fun s c =>
    if s.carMode c = SNOWPLOUGH then
      let t := if s.snowRec.elim 0 (·.u16 0x10) = 0 then 180 else s.snowRec.elim 0 (·.u16 0x10)
      s.wr (R.SAF_CAR_MODE_REMAINING_S c) (t - (s.tick - (s.safCar c).entered) / 100000)
    else s) s
/-- The run requests of a car's outputs that the application ends. -/
def State.endRequests (s : State) (c : Nat) : State :=
  (((s.wrB (R.SAF_REQUEST.bit (3 * c)) false).wrB (R.SAF_REQUEST.bit (3 * c + 1)) false).wrB (R.SAF_REQUEST.bit (3 * c + 2)) false).safEval
/-- The figures that each tick brings the safety side: speeds, and the movement since the brake drop (R525, R527). -/
def State.safFigures (s : State) (c : Nat) : State :=
  let s := ((s.wrR (R.SAF_CAR_SPEED_ENC c) (s.ch c).mvel).wrR (R.SAF_CAR_SPEED_TAPE c) (s.safCar c).tapeSpeed)
  match (s.safCar c).brakeAt with
  | some p => s.wrR (R.SAF_CAR_STANDSTILL_MOVE c) (((diff48 (um (s.ch c).fused) p : Int) : Rat) / 1000000)
  | none => s
/-- The safety side as a start has it once both technologies run (R537, R557): every declared car NORMAL. -/
def State.safStart (s : State) : State :=
  let s := s.modSaf fun x => { x with disc := [], fns := [], cars := [], conns := [], edm := [], held := [] }
  let s := s.cars.foldl (fun s c => s.wr (R.SAF_CAR_MODE_MODE c) SAF_NORMAL) s
  s.wrB R.SAF_STATUS_RUNNING true

end Sys2Proof.Machine
end

