-- ==== Sys2Proof/Machine/CanOps.lean ====
section
/-!
DEFINITION. The CAN buses as the other units use them (R587 to R601): requests for transmission, the Turid's own frames,
sleep and wake.
-/
namespace Sys2Proof.Machine
open Sys2Proof

def Mbc.fresh : Mbc := ⟨[], [], [], false, 0, none, none, none, [], [], []⟩
def State.mbcOf (s : State) (b : Nat) : Mbc := tgetD s.mbc b Mbc.fresh
def State.modMbc (s : State) (b : Nat) (f : Mbc → Mbc) : State := { s with mbc := tput s.mbc b (f (s.mbcOf b)) }
/-- The CAN_BUS record (R588), and the bus's format. -/
def State.canRec (s : State) (b : Nat) : Option CfgRec := s.cfg 10 6 b
def State.canFmt (s : State) (b : Nat) : Nat := s.rd (R.MBC_STATUS_FORMAT b)
/-- The state of `MBC_STATUS`: 1 error active, 2 error passive, 3 bus-off, 4 recovering, 5 restricted, 6 asleep. -/
def State.canState (s : State) (b : Nat) : Nat := s.rd (R.MBC_STATUS_STATE b)
def State.buses (s : State) : List Nat := (List.range 12).filter fun b => s.canState b != 0
/-- The waiting frames that hold a transmit buffer, in the order of their requests: the Turid's own, and the first 8 of the
host's (R593). -/
def inBuffers : Nat → List CanTx → List CanTx
  | _, [] => []
  | n, t :: l => if t.host.isNone then t :: inBuffers n l else if 0 < n then t :: inBuffers (n - 1) l else inBuffers n l
def State.showTx (s : State) (b : Nat) : State := s.wr (R.MBC_TX_PENDING b) (min 32 (inBuffers 8 (s.mbcOf b).tx).length)
/-- The parts of `MBC_SLEEP_STATUS`: 0 AWAKE, 1 PROPOSED, 2 COMMITTED, 3 ASLEEP, 4 WAKING; the last abort reason; the
latched wake. -/
def canSleep (b : Nat) : Fld := (R.MBC_SLEEP_STATUS b).part 0 3
def canAbort (b : Nat) : Fld := (R.MBC_SLEEP_STATUS b).part 8 2
def canLatch (b : Nat) : Fld := (R.MBC_SLEEP_STATUS b).bit 16

/-! ## Sleep and wake (R599, R600) -/

/-- A sleeping bus is woken; a queue may wait for it. -/
def State.canWake (s : State) (b : Nat) : State :=
  if s.rd (canSleep b) = 3 then
    ((s.wr (canSleep b) 4).modMbc b fun x => { x with wakeAt := some s.tick }).flag (R.MBC_EVENT_STATUS_SLEEP_CHANGE b)
  else s

/-! ## Requests (R593) -/

/-- Data of a frame replaced where a cyclic frame of the same identifier is still pending. -/
def supersede (f : CanTx) (l : List CanTx) : List CanTx := l.map fun t => if t.cyclic && t.id == f.id then f else t
/-- A frame requested: a cyclic one replaces its pending instance. A bus that is not used, off or recovering sends
nothing; a sleeping one is woken for a command, while a cyclic frame waits for the wake of its sender's move (R600). A
set-point is not requested before the STANDING that follows a wake (R599). -/
def State.canRequest (s : State) (b : Nat) (f : CanTx) : State :=
  let st := s.canState b
  let x := s.mbcOf b
  if st = 0 ∨ st = 3 ∨ st = 4 ∨ (f.cyclic = true ∧ (st = 6 ∨ x.wakeAt.isSome = true)) then s
  else
    let again := f.cyclic && x.tx.any fun t => t.cyclic && t.id == f.id
    let s := (s.modMbc b fun x => { x with tx := if again then supersede f x.tx else x.tx ++ [f] }).showTx b
    let s := if again then s.inc (R.MBC_TX_SUPERSEDED b) else s
    if st = 6 then s.canWake b else s
def State.canSend (s : State) (b id : Nat) (data : List Byte) : State := s.canRequest b ⟨id, s.canFmt b, data, false, false, none⟩
def State.canCyclic (s : State) (b id : Nat) (data : List Byte) : State := s.canRequest b ⟨id, s.canFmt b, data, true, false, none⟩
/-- The next sequence of an identifier's counter. -/
def State.canSeq (s : State) (b id : Nat) : Nat := tgetD (s.mbcOf b).seqs id 0
def State.stepSeq (s : State) (b id : Nat) : State :=
  s.modMbc b fun x => { x with seqs := tput x.seqs id ((tgetD x.seqs id 0 + 1) % 2 ^ 16) }

/-! ## The Turid's own frames (R590 to R592) -/

/-- HOLD on a bus, short on one that runs in classical format. It goes out at once. -/
def State.canHold (s : State) (b reason : Nat) : State :=
  let q := s.canSeq b 2
  let d := if s.canFmt b = 0 then le 2 q ++ le 1 reason ++ le 1 0 ++ le 4 s.plantIdent
           else le 2 q ++ le 1 reason ++ List.replicate 5 0 ++ le 8 s.plantIdent
  let st := s.canState b
  if st = 1 ∨ st = 2 then (s.stepSeq b 2).send (.frame (.can b) (s.canFmt b) 2 d) else s
def sleepFrame (kind reason id : Nat) : List Byte := le 1 kind ++ le 1 reason ++ le 2 0 ++ le 4 id
/-- The drives of a bus: the traction drives of bus 8 by car, the door drives of a car bus by entrance; with the partner
type of their STANDING_SET. -/
def State.busDrives (s : State) (b : Nat) : List Nat :=
  (s.cfgAll 11 7).filterMap fun r =>
    if b = 8 then (if r.id < 8 then some r.id else none)
    else if 256 ≤ r.id ∧ (r.id - 256) / 2 = b then some ((r.id - 256) % 2) else none
def busPartner (b : Nat) : Nat := if b = 8 then 3 else 4
/-- What a drive is to store (R31, R217, R591), without generation and identity. -/
def State.canContent (s : State) (b : Nat) : List Byte :=
  match s.cfg 13 1 (busPartner b) with
  | none => []
  | some r => le 2 (if r.u16 0x10 = 0 then 200 else r.u16 0x10) ++ le 1 (busPartner b) ++ le 1 0 ++ (r.body.drop 0x18).take 4 ++ List.replicate 8 0
/-- The STANDING frame of a set, under a fresh sequence. -/
def State.sendCanStanding (s : State) (b k : Nat) (x : CanStanding) : State :=
  let id := 0x20 + k
  let q := s.canSeq b id
  let s := (s.stepSeq b id).modMbc b fun m => { m with standing := tput m.standing k { x with seq := q } }
  s.canSend b id (le 2 q ++ le 2 0 ++ le 4 x.gen ++ le 8 s.plantIdent ++ x.content)
/-- STANDING to a drive, its generation growing whenever the content changes (R217). -/
def State.canStanding (s : State) (b k : Nat) : State :=
  let c := s.canContent b
  if c = [] then s
  else
    let old := tgetD (s.mbcOf b).standing k ⟨0, [], 0, 0⟩
    let same := decide (old.content = c)
    let s := if same then s else s.wrB ((R.MBC_STANDING_ACKED b).bit k) false
    s.sendCanStanding b k { gen := if same then old.gen else (old.gen + 1) % 2 ^ 32, content := c, seq := 0, tries := 1 }
/-- STANDING to every drive of a bus. -/
def State.busStanding (s : State) (b : Nat) : State := (s.busDrives b).foldl (fun s k => s.canStanding b k) s
/-- The bus is awake again (R600): its drives get STANDING before their first command. -/
def State.canWoke (s : State) (b : Nat) : State :=
  let q := (s.mbcOf b).wakeQ
  let s := (((s.wr (canSleep b) 0).wrB (canLatch b) false).wr (R.MBC_STATUS_STATE b) 1).modMbc b fun x => { x with wakeQ := [] }
  let s := (s.raise Ev.BUS_WOKE b []).flag (R.MBC_EVENT_STATUS_SLEEP_CHANGE b)
  let s := (q.foldl (fun s q => s.complete q OK 0) s).busStanding b
  if (s.busDrives b).isEmpty then s.modMbc b fun x => { x with wakeAt := none } else s
/-- The bus sleeps, 1 ms after the commit (R599); a wake latched meanwhile wakes it again. -/
def State.canAsleep (s : State) (b : Nat) : State :=
  let q := (s.mbcOf b).sleepQ
  let s := ((s.wr (canSleep b) 3).wr (R.MBC_STATUS_STATE b) 6).modMbc b fun x => { x with sleepQ := none, commitAt := none }
  let s := (s.raise Ev.BUS_SLEPT b []).flag (R.MBC_EVENT_STATUS_SLEEP_CHANGE b)
  let s := match q with
    | some q => s.complete q OK 0
    | none => s
  if s.on (canLatch b) then s.canWake b else s
/-- A proposed sleep ends (R600): ABORT, with the reason. -/
def State.canAbortSleep (s : State) (b reason : Nat) : State :=
  let x := s.mbcOf b
  let s := (s.modMbc b fun x => { x with tx := x.tx.filter fun t => t.id != 3, sleepQ := none }).canSend b 3 (sleepFrame 3 reason x.sleepId)
  let s := ((s.wr (canSleep b) 0).wr (canAbort b) reason).flag (R.MBC_EVENT_STATUS_SLEEP_CHANGE b)
  match x.sleepQ with
  | some q => s.complete q STATE reason
  | none => s
/-- What a tick brings a bus: sleep 1 ms after the commit, the end of a wake within its 5 ms. -/
def State.canTick (s : State) (b : Nat) : State :=
  let x := s.mbcOf b
  let s := match x.commitAt with
    | some t => if t + 100 ≤ s.tick then s.canAsleep b else s
    | none => s
  match x.wakeAt with
  | some t => if s.rd (canSleep b) = 4 ∧ t + 500 ≤ s.tick then s.canWoke b else s
  | none => s

/-! ## Errors (R596) -/

/-- The counters of `MBC_ERROR_COUNTERS`. -/
def canTec (b : Nat) : Fld := (R.MBC_ERROR_COUNTERS b).part 0 9
def canRec' (b : Nat) : Fld := (R.MBC_ERROR_COUNTERS b).part 16 9
/-- Error active or passive, as the counters say. -/
def State.canJudge (s : State) (b : Nat) : State :=
  let passive := decide (128 ≤ s.rd (canTec b)) || decide (128 ≤ s.rd (canRec' b))
  if s.canState b = 1 ∧ passive = true then
    ((s.wr (R.MBC_STATUS_STATE b) 2).raise Ev.ERROR_PASSIVE b []).flag (R.MBC_EVENT_STATUS_ERROR_PASSIVE b)
  else if s.canState b = 2 ∧ passive = false then s.wr (R.MBC_STATUS_STATE b) 1 else s
/-- Automatic recovery is held back. -/
def State.canInhibited (s : State) (b : Nat) : Bool :=
  s.on (R.MBC_STATUS_RECOVERY_INHIBITED b) || (s.canRec b).any fun r => bit (r.u8 0x11) 1
/-- The controller goes bus-off: pending frames end, host frames with BUS_OFF. -/
def State.goBusOff (s : State) (b : Nat) : State :=
  let hosts := (s.mbcOf b).tx.filterMap (·.host)
  let s := ((s.modMbc b fun x => { x with tx := [] }).showTx b).inc (R.MBC_BUS_OFFS b)
  let s := s.wr (R.MBC_STATUS_STATE b) (if s.canInhibited b then 3 else 4)
  let s := (s.raise Ev.BUS_OFF b []).flag (R.MBC_EVENT_STATUS_BUS_OFF b)
  hosts.foldl (fun s q => s.complete q 0x1012 0) s

end Sys2Proof.Machine
end

