-- ==== Sys2Proof/Machine/CarOps.lean ====
section
/-!
DEFINITION. Car motion (R464 to R475): the motion states, stops, what the firmware hands the car's slot, and the traction
SETPOINT.
-/
namespace Sys2Proof.Machine
open Sys2Proof

def Car.fresh : Car := ⟨0, false, 0, 0, false, none, 0, [], none, [], [], none, 0, none, 0, false⟩
def State.carOf (s : State) (c : Nat) : Car := tgetD s.car c Car.fresh
def State.modCar (s : State) (c : Nat) (f : Car → Car) : State := { s with car := tput s.car c (f (s.carOf c)) }
def State.carRec (s : State) (c : Nat) : Option CfgRec := s.cfg 6 2 c
abbrev IDLE : Nat := 1
abbrev STARTING : Nat := 2
abbrev SPEED_MODE : Nat := 3
abbrev COMMITTED : Nat := 4
abbrev LEVELLING : Nat := 5
abbrev RELEVELLING : Nat := 6
abbrev RAMP_STOP : Nat := 7
abbrev HARD_STOP : Nat := 8
abbrev INSPECTION : Nat := 9
def State.carState (s : State) (c : Nat) : Nat := s.rd (R.CAR_STATUS_STATE c)
/-- The car moves, or is about to. -/
def State.carMoves (s : State) (c : Nat) : Bool :=
  let st := s.carState c
  st == STARTING || st == SPEED_MODE || st == COMMITTED || st == LEVELLING || st == RELEVELLING || st == RAMP_STOP ||
    st == HARD_STOP || (st == INSPECTION && s.inspectionDir c != 0)
/-- The levelling speed, at which the slot creeps a residual (R468). -/
def State.levelSpeed (s : State) (c : Nat) : Rat := cfgR (s.carRec c) 0x28 (5 / 100)
/-- The figures of R480 that motion uses, with their defaults. -/
def State.emDecel (s : State) (c : Nat) : Rat := cfgR (s.carRec c) 0x24 1
def State.relevelAt (s : State) (c : Nat) : Rat := cfgR (s.carRec c) 0x2C (15 / 1000)
def State.relevelSpeed (s : State) (c : Nat) : Rat := cfgR (s.carRec c) 0x30 (1 / 10)
/-- TO_GO and the distance to a landing, m. -/
def State.toGoM (s : State) (c : Nat) : Rat := (s.toGo c : Rat) / 1000000
/-- The car stands at a landing: the nearest one lies within its door-zone half-width (R479). -/
def State.landingHere (s : State) (c : Nat) : Option Nat :=
  let x := um (s.ch c).fused
  let l := s.nearestLanding c x
  let half := cfgR (s.cfg 6 1 l) 0x18 (2 / 10)
  if (s.served c) ≠ [] ∧ (((s.landingUm l - x).natAbs : Nat) : Rat) / 1000000 ≤ half then some l else none
def State.atRest (s : State) (c : Nat) : Bool := decide ((s.ch c).mvel = 0)
/-- Doors of a car and their numbers (R24). -/
def State.carDoors (s : State) (c : Nat) : List Nat := ((s.cfgAll 6 3).map (·.id)).filter fun d => d / 2 == c
/-- The data of a CAR event (R483). -/
def State.carData (s : State) (c cause : Nat) : List Byte := le 1 cause ++ le 1 (s.nearestLanding c (um (s.ch c).fused))

/-! ## Requests to the safety side (R515) -/

/-- The application asks for outputs of a car by their roles. -/
def State.askFor (s : State) (c : Nat) (roles : List Nat) : State :=
  (roles.foldl (fun s k => s.wrB (R.SAF_REQUEST.bit (3 * c + k)) true) s).safEval
/-- The application ends its requests for a car: the brake drop, or the end of a stop. -/
def State.dropBrake (s : State) (c : Nat) : State :=
  let s := s.wrR (R.CAR_LEVEL_ERROR c) (s.toGoM c)
  (s.modCar c fun x => { x with dropping := true }).endRequests c

/-! ## States -/

/-- MOTION of R114. -/
def State.showMotion (s : State) : State :=
  let doors := ((s.cfgAll 6 3).map (·.id)).any fun d => let st := s.rd (R.DOOR_STATUS_STATE d); st == 2 || st == 4 || st == 5 || st == 7 || st == 8
  let calls := s.grp.calls.any fun p => p.2.state == 1 || p.2.state == 2
  s.wrB (R.PWR_GLIDE_STATUS.bit 0) (s.cars.any s.carMoves || doors || calls)
def State.carTo (s : State) (c st : Nat) : State :=
  ((s.wr (R.CAR_STATUS_STATE c) st).modCar c fun x => { x with since := s.tick, dropping := false, creep := false }).showMotion
/-- The freeze of the target ends (R463). -/
def State.thaw (s : State) (c : Nat) : State :=
  ((s.wrB (R.POS_STATUS_TARGET_FROZEN c) false).wrB (R.CAR_STATUS_COMMITTED c) false).modCar c fun x => { x with limit := none }
/-- A move is requested (R464): the brake is to be lifted. -/
def State.startCar (s : State) (c : Nat) (dir : Int) : State :=
  let s := (s.modCar c fun x => { x with dir := dir, began := s.tick, stopped := false }).inc (R.CAR_MOVES c)
  (s.carTo c STARTING).askFor c [0, 1]
/-- The stop causes of R470: the state entered, what ends with it, and its record. -/
def State.carStop (s : State) (c cause : Nat) (hard : Bool) : State :=
  let st := s.carState c
  if st = HARD_STOP ∨ s.carMoves c = false ∨ (st = RAMP_STOP ∧ hard = false) then s
  else
    let x := s.carOf c
    let s := (s.wr (R.CAR_LAST_STOP_CAUSE c) cause).wr (R.CAR_LAST_STOP_KIND c) (if hard then 2 else 1)
    let s := if hard then ((s.inc (R.CAR_STOPS_HARD c)).raise Ev.STOP_HARD c (s.carData c cause)).flag (R.CAR_EVENT_STATUS_STOP_HARD c)
             else ((s.inc (R.CAR_STOPS_RAMPED c)).raise Ev.STOP_RAMPED c (s.carData c cause)).flag (R.CAR_EVENT_STATUS_STOP_RAMPED c)
    let s := match x.corr with
      | some (q, _) => (s.modCar c fun x => { x with corr := none }).complete q 0x0B10 0
      | none => s
    let s := (s.carTo c (if hard then HARD_STOP else RAMP_STOP)).modCar c fun x => { x with stopped := true }
    if hard || st == STARTING then s.dropBrake c else s
/-- The causes that the car's sources and its outputs give (R454, R470): both sources faulted, quality LOST, an output that
the safety side de-energises. -/
def State.watchCar (s : State) (c : Nat) : State :=
  let st := s.carState c
  let lost := !(s.carOf c).dropping && (!s.outOn (3 * c) || !s.outOn (3 * c + 1))
  if s.carMoves c = false then s
  else if s.motorBad c && s.tapeBad c then s.carStop c 5 true
  else if (st == STARTING && (s.carCause c).isSome) || (st != STARTING && st != HARD_STOP && st != INSPECTION && lost) then s.carStop c 7 true
  else if s.quality c = POS_LOST ∧ (s.carOf c).corr.isNone = true then s.carStop c 2 false else s
def State.watchCars (s : State) : State := s.cars.foldl State.watchCar s
/-- The safety side evaluated anew, with what it means to the cars. -/
def State.safety (s : State) : State := s.safEval.watchCars
/-- The car has come to rest with its brake applied (R464). -/
def State.carIdle (s : State) (c : Nat) : State :=
  let st := s.carState c
  let arrived := st == LEVELLING || st == RELEVELLING
  let ms := (s.tick - (s.carOf c).began) / 100
  let s := if st = RELEVELLING then
      ((s.inc (R.CAR_RELEVELS c)).raise Ev.RELEVELLED c (s.carData c 0)).flag (R.CAR_EVENT_STATUS_RELEVELLED c)
    else if st = LEVELLING then
      ((s.wr (R.CAR_MOVE_TIME c) (ms % 2 ^ 20)).raise Ev.ARRIVED c (s.carData c 0)).flag (R.CAR_EVENT_STATUS_ARRIVED c)
    else s.wr (R.CAR_MOVE_TIME c) (ms % 2 ^ 20)
  let s := if arrived then s.modCar c fun x => { x with arrived := s.landingHere c, stopped := false } else s
  let s := if s.carMode c = SNOWPLOUGH then s.modCar c fun x => { x with arrived := s.landingHere c } else s
  let q := (s.carOf c).stopQ
  let s := (((s.thaw c).dropTarget c).carTo c IDLE).modCar c fun x => { x with stopQ := [] }
  q.foldl (fun s q => s.complete q OK 0) s
/-- The brake reports open: STARTING ends (R464). -/
def State.brakeOpen (s : State) (c : Nat) : State :=
  if s.carState c = STARTING then
    let ms := (s.tick - (s.carOf c).since) / 100
    (s.wr (R.CAR_START_TIME c) (min 65535 ms)).carTo c (if s.on (R.CAR_NEXT_STOP_VALID c) || (s.carOf c).corr.isSome then SPEED_MODE else RELEVELLING)
  else s
/-- The brake reports applied: what was to end, ends. -/
def State.brakeApplied (s : State) (c : Nat) : State :=
  let st := s.carState c
  let ends := (s.carOf c).dropping && (st == LEVELLING || st == RELEVELLING || st == RAMP_STOP || (st == HARD_STOP && s.atRest c))
  if ends then s.carIdle c else s

/-! ## Speed limits and the firmware signals (R462, R464, R467) -/

/-- The limit of the active terminal slowdown entries, none outside (R473). -/
def State.terminalLimit (s : State) (c : Nat) : Option Rat :=
  match s.carRec c with
  | none => none
  | some r =>
    let on := (List.range 4).filter fun e => bit (s.rd (R.CAR_TERMINAL_STATUS_TSD_ACTIVE c)) e
    if on = [] then none else some (ratLeast (on.map fun e => r.f32 (0x54 + 12 * e)))
def minLimit (x : Rat × Nat) (y : Option Rat) (cause : Nat) : Rat × Nat :=
  match y with
  | none => x
  | some v => if v < x.1 then (v, cause) else x
/-- The run of R538 is under way or to be made. -/
def State.snowRun (s : State) (c : Nat) : Bool := s.carMode c == SNOWPLOUGH
/-- The speed limit that the firmware gives, with its cause as `CAR_STATUS` numbers it. -/
def State.carLimit (s : State) (c : Nat) : Rat × Nat :=
  let x : Rat × Nat := (CfgRec.carV (s.carRec c), 0)
  let x := minLimit x (s.hostMax (R.CAR_SPEED_LIMIT c)) 1
  let x := minLimit x (if s.quality c = POS_DEGRADED then some 1 else none) 2
  let st := s.carState c
  let slow := st == RELEVELLING || (s.carOf c).corr.isSome || ((s.carOf c).stopped && st != RAMP_STOP)
  let x := minLimit x (if slow then some (s.relevelSpeed c) else none) 0
  let x := minLimit x (if (s.carOf c).creep then some (s.levelSpeed c) else none) 0
  let x := minLimit x (if s.snowRun c then some (cfgR s.snowRec 0x14 (1 / 4)) else none) 0
  let x := minLimit x (s.terminalLimit c) 4
  minLimit x (if st = INSPECTION then some (63 / 100) else none) 5
def State.carAccel (s : State) (c : Nat) : Rat :=
  let a := CfgRec.carA (s.carRec c)
  let a := match s.hostMax (R.CAR_ACCEL_LIMIT c) with
    | some h => ratMin a h
    | none => a
  if s.snowRun c || s.carState c == RAMP_STOP then s.emDecel c else a
/-- From the commit on the limits may fall and not rise (R467). -/
def State.heldLimits (s : State) (c : Nat) : Rat × Rat :=
  let v := (s.carLimit c).1
  let a := s.carAccel c
  match (s.carOf c).limit with
  | some (v0, a0) => (ratMin v v0, ratMin a a0)
  | none => (v, a)
/-- The five firmware items of a car by k. -/
def State.carItems (s : State) (c : Nat) : List (Nat × Word) :=
  let st := s.carState c
  let x := s.carOf c
  let (v, a) := s.heldLimits c
  let move : Int := if st = INSPECTION then s.inspectionDir c else if s.carMoves c && st != HARD_STOP then x.dir else 0
  let stop : Rat := if st = HARD_STOP then 2 else if st = RAMP_STOP then 1 else 0
  [(0, toB32 move), (1, toB32 (if st = STARTING then 0 else v)), (2, toB32 a), (3, toB32 stop), (4, toB32 (s.rd (R.CAR_LOAD c) : Rat))]
/-- The firmware writes the items that have changed (R377, R462). -/
def State.writeItems (s : State) (c : Nat) : State :=
  (s.carItems c).foldl (fun s p =>
    if tget (s.carOf c).fw p.1 = some p.2 then s
    else (s.modCar c fun x => { x with fw := tput x.fw p.1 p.2 }).firmware (256 + 16 * c + p.1) p.2) s

/-! ## What a tick brings (R464 to R466) -/

/-- The slot that moves a car: the writer of its REF_STEP, and its run period in s. -/
def State.carSlot (s : State) (c : Nat) : Option Nat :=
  ((s.cfgAll 2 1).find? fun r =>
    r.writerKind == 0 && r.sigDest == 4 * c && (s.cfg 2 2 r.sigGroup).any fun g => g.u8 0x14 == 4).map (·.writer)
def State.runPeriod (s : State) (c : Nat) : Rat :=
  (((s.carSlot c).bind s.slotRec).elim 25 fun r => r.u16 0x10 : Nat) / 100000
def State.latchR (s : State) (dest item : Nat) : Rat := (f32? (s.latched dest item)).getD 0
def State.refReached (s : State) (c : Nat) : Bool :=
  let d := (s.ch c).target - um (s.ch c).ref
  decide (d = 0) || decide ((d < 0) = (0 < (s.carOf c).dir))
/-- The reference speed and acceleration from the run's REF_STEP. -/
def State.showRef (s : State) (c : Nat) : State :=
  let t := s.runPeriod c
  let v := if s.carMoves c && s.carState c != HARD_STOP then ratDiv (s.latchR 4 (4 * c)) t else 0
  let a := ratDiv (v - (s.carOf c).refSpeed) t
  ((s.wrR (R.CAR_SPEED_REF c) v).wrR (R.CAR_ACCEL_REF c) a).modCar c fun x => { x with refSpeed := v }
/-- The first landing beyond a point in a direction, or the last one served (R538). -/
def State.landingBeyond (s : State) (c : Nat) (x : Int) (up : Bool) : Nat :=
  let l := s.served c
  if up then (l.find? fun k => decide (x < s.landingUm k)).getD (l.getLastD 0)
  else (l.reverse.find? fun k => decide (s.landingUm k < x)).getD (l.headD 0)
/-- The target of the Snowplough run: the first landing beyond the point at which the car reaches run speed. -/
def State.snowTarget (s : State) (c : Nat) : Nat :=
  let x := s.carOf c
  let here := um (s.ch c).fused
  let v := ratAbs (s.ch c).vel
  let vr := cfgR s.snowRec 0x14 (1 / 4)
  let ae := s.emDecel c
  let j := CfgRec.carJ (s.carRec c)
  let d : Rat := if vr < v then (v + vr) / 2 * ((v - vr) / ae + ratDiv ae j) else 0
  if x.dir = 0 then s.nearestLanding c here
  else s.landingBeyond c (here + (if 0 < x.dir then 1 else -1) * ratRne (d * 1000000)) (decide (0 < x.dir))
/-- The direction to a landing. -/
def State.dirTo (s : State) (c l : Nat) : Int := if um (s.ch c).fused < s.landingUm l then 1 else -1
/-- The doors are shut and the door circuit closed: a start needs no BYPASS. -/
def State.doorsShut (s : State) (c : Nat) : Bool :=
  s.kindClear c 2 && s.kindClear c 3 && (s.carDoors c).all fun d => let st := s.rd (R.DOOR_STATUS_STATE d); st == 3 || st == 1
/-- A start is permitted by the safety side and by the drive. -/
def State.mayStart (s : State) (c : Nat) : Bool :=
  (s.carCause c).isNone && !s.on (R.CAR_DRIVE_STATUS_LOST c) && !bit (s.rd (R.CAR_DRIVE_STATUS_FLAGS c)) 3 && s.doorsShut c
/-- An idle car: inspection, the run of R538, the run of R472, re-levelling, or the next stop. -/
def State.idleCar (s : State) (c : Nat) : State :=
  let x := s.carOf c
  let here := s.landingHere c
  if s.inspecting c then s.carTo c INSPECTION
  else if s.carMode c = SNOWPLOUGH ∧ (s.safCar c).runEnded = false ∧ here.isNone = true ∧ s.mayStart c = true then
    let l := s.snowTarget c
    (s.writeTarget c l 0).startCar c (s.dirTo c l)
  else if s.carMode c ≠ SAF_NORMAL ∨ s.quality c = POS_LOST then s
  else if x.stopped ∧ here.isNone = true ∧ s.mayStart c = true then
    let y := um (s.ch c).fused
    let l := if x.dir = 0 then s.nearestLanding c y else s.landingBeyond c y (decide (0 < x.dir))
    ((s.writeTarget c l 0).startCar c (s.dirTo c l)).modCar c fun x => { x with stopped := true }
  else if s.on (R.CAR_NEXT_STOP_VALID c) ∧ here ≠ some (s.rd (R.CAR_NEXT_STOP_LANDING c)) ∧ s.mayStart c = true then
    s.startCar c (s.dirTo c (s.rd (R.CAR_NEXT_STOP_LANDING c)))
  else
    match here with
    | none => s
    | some l =>
      let off : Rat := ((s.landingUm l - um (s.ch c).fused : Int) : Rat) / 1000000
      let vane := s.quality c != POS_DEGRADED || (s.ch c).vane
      if s.relevelAt c < ratAbs off ∧ vane = true ∧ s.on (R.CAR_NEXT_STOP_VALID c) = false then
        if s.outOn (3 * c + 2) then
          ((s.modCh c fun y => { y with pend := some (s.landingUm l) }).startCar c (s.dirTo c l)).modCar c fun y => { y with dir := s.dirTo c l }
        else if s.on (R.SAF_REQUEST.bit (3 * c + 2)) then s else s.askFor c [2]
      else s
/-- The plan's residual in the car's direction (R468): the target less the look-ahead, which the slot keeps from the commit on
at the reference plus its remaining planned distance; m. -/
def State.residual (s : State) (c : Nat) : Rat := ((s.carOf c).dir * ((s.ch c).target - um (s.ch c).look) : Int) / 1000000
/-- The plan's remaining distance, look-ahead less reference, m. -/
def State.planLeft (s : State) (c : Nat) : Rat := ((s.carOf c).dir * (um (s.ch c).look - um (s.ch c).ref) : Int) / 1000000
/-- R468: at the end of its stop the car creeps, at the levelling speed, a residual above |v| × t_r; over a smaller one the slot
holds its present speed. The firmware bounds SPEED_LIMIT for the creep (log 105). -/
def State.creepCheck (s : State) (c : Nat) : State :=
  let d := ratAbs (s.carOf c).refSpeed * s.runPeriod c
  if s.carState c = COMMITTED ∧ d < s.residual c ∧ s.planLeft c ≤ d then s.modCar c fun x => { x with creep := true } else s
/-- The state of a moving car after the tick's latch: `ran` says that its slot committed in this tick. -/
def State.movingCar (s : State) (c : Nat) (ran : Bool) : State :=
  let st := s.carState c
  let x := s.carOf c
  let level := decide (ratAbs (s.toGoM c) ≤ 3 / 1000)
  let still := decide (ratAbs (s.ch c).vel ≤ 1 / 100)
  let faulted := match s.carSlot c with
    | some k => s.slotParked k || s.engine == HALTED
    | none => false
  if faulted then s.carStop c 8 true
  else if st = SPEED_MODE ∧ f32IsZero (s.latched 4 (4 * c + 2)) = false ∧ s.on (R.CAR_NEXT_STOP_VALID c) = true then
    let lim := s.heldLimits c
    let s := (s.wrB (R.POS_STATUS_TARGET_FROZEN c) true).wrB (R.CAR_STATUS_COMMITTED c) true
    ((s.modCh c fun y => { y with pend := none }).modCar c fun y => { y with limit := some lim }).carTo c COMMITTED
  else if st = COMMITTED ∧ s.refReached c = true then s.carTo c LEVELLING
  else if ((st = LEVELLING ∧ still = true) ∨ st = RELEVELLING) ∧ level = true ∧ x.dropping = false then s.dropBrake c
  else if st = RAMP_STOP ∧ x.dropping = false ∧ ran = true ∧ s.latchR 4 (4 * c) = 0 ∧ x.since < s.tick then s.dropBrake c
  else if st = HARD_STOP ∧ s.atRest c = true ∧ s.brakeLifted c = false then s.carIdle c
  else s
/-- A car stops ramped of its own, without a cause of R470: at the end of a correction run. -/
def State.rampCar (s : State) (c : Nat) : State := (s.carTo c RAMP_STOP).modCar c fun x => { x with corr := none, stopped := true }
/-- Two intervals between landings, by the widest that the car serves, µm (R482). -/
def State.twoIntervals (s : State) (c : Nat) : Nat :=
  let l := s.served c
  2 * ((l.zip l.tail).map fun p => (s.landingUm p.2 - s.landingUm p.1).natAbs).foldl max 0
/-- A correction run that has passed two landing intervals without a vane ends (R482). -/
def State.corrCheck (s : State) (c : Nat) : State :=
  match (s.carOf c).corr with
  | none => s
  | some (q, _, start) =>
    let d := ratAbs ((((s.ch c).count - start : Int) : Rat) * (s.posRec c).elim 0 (·.travelPerCount))
    if s.carState c = SPEED_MODE ∧ (s.twoIntervals c : Rat) < d then (s.rampCar c).complete q 0x0B11 0 else s
/-- The vane of a correction run, its centre at a fused position (R454, R482). -/
def State.corrVane (s : State) (c : Nat) (centre : Int) : State :=
  match (s.carOf c).corr with
  | none => s
  | some (q, _, _) =>
    let l := s.nearestLanding c centre
    let s := (s.correct c ((s.landingUm l - centre) * umUnit)).modCh c fun x => { x with known := true, goods := 0, goodTravel := 0 }
    let s := if s.motorBad c && s.tapeBad c then s else s.setQuality c (if s.motorBad c || s.tapeBad c then POS_DEGRADED else POS_GOOD)
    (s.rampCar c).complete q OK l
/-- In inspection the outputs are asked for while the controls are held, and the state ends at rest (R464, R522). -/
def State.inspectCar (s : State) (c : Nat) : State :=
  let d := s.inspectionDir c
  if s.inspecting c = false ∧ s.atRest c = true then (s.carTo c IDLE).endRequests c
  else if d ≠ 0 then
    let s := (s.modCar c fun x => { x with dir := d }).showMotion
    if s.on (R.SAF_REQUEST.bit (3 * c)) then s else s.askFor c [0, 1]
  else (if s.on (R.SAF_REQUEST.bit (3 * c)) then s.endRequests c else s).showMotion
/-- The status of a car (R486). -/
def State.showCar (s : State) (c : Nat) : State :=
  let x := s.carOf c
  let dir := if s.carMoves c then (if 0 < x.dir then 1 else if x.dir < 0 then 2 else 0) else 0
  let y := um (s.ch c).fused
  let l := s.nearestLanding c y
  let valid := s.on (R.CAR_NEXT_STOP_VALID c)
  let s := ((s.wr (R.CAR_STATUS_DIRECTION c) dir).wrB (R.CAR_STATUS_IN_DOOR_ZONE c) (s.ch c).zone).wr (R.CAR_STATUS_LANDING c) l
  let s := s.wrB (R.CAR_STATUS_LEVEL c) (decide (ratAbs (((s.landingUm l - y : Int) : Rat) / 1000000) ≤ s.relevelAt c))
  let s := (s.wr (R.CAR_STATUS_LIMIT_CAUSE c) (s.carLimit c).2).wrR (R.CAR_SPEED_ACT c) (s.ch c).vel
  s.wrR (R.CAR_TO_GO c) (if valid then ratAbs ((((s.ch c).target - um (s.ch c).ref : Int) : Rat) / 1000000) else 0)
/-- A car over one tick, after the latches. A stop cause of the run wins over its commit (R466). -/
def State.carTick (s : State) (c : Nat) (ran : Bool) : State :=
  let st := s.carState c
  let p := um (s.ch c).fused
  let s := s.wr64 (R.CAR_TRAVEL_LO c) (s.rd64 (R.CAR_TRAVEL_LO c) + (p - (s.carOf c).lastPos).natAbs)
  let s := (s.modCar c fun x => { x with lastPos := p }).showRef c
  let s := if st = IDLE then (if s.mayCommand then s.idleCar c else s)
           else if st = INSPECTION then s.inspectCar c
           else ((((s.watchCar c).movingCar c ran).creepCheck c).corrCheck c).watchCar c
  (s.writeItems c).showCar c
/-- A car enters SNOWPLOUGH while it moves (R538): its run gets its target, which a frozen one keeps. -/
def State.snowStart (s : State) (c : Nat) : State :=
  let st := s.carState c
  if s.carMode c = SNOWPLOUGH ∧ (st = SPEED_MODE ∨ st = STARTING) then s.writeTarget c (s.snowTarget c) 0 else s

/-! ## The traction SETPOINT (R475) -/

/-- The frame's entry of a car: no speed follows a hard stop, and an idle car is stopped (R464, R471). -/
def State.tractionEntry (s : State) (park : Bool) (c : Nat) : List Byte :=
  let off := park || s.carState c == HARD_STOP || s.carState c == IDLE || s.carState c == 0
  let w (k : Nat) : Word := if off then 0#32 else s.latched 2 (4 * c + k)
  le 4 (w 0).toNat ++ le 4 (w 1).toNat ++ le 1 (ratRne ((f32? (w 2)).getD 0)).toNat ++ le 3 0
/-- The frame of all cars; a car that moves wakes the bus (R600). -/
def State.tractionFrame (s : State) (park : Bool) : State :=
  let q := s.canSeq 8 1
  let d := le 2 q ++ le 2 0 ++ le 4 (s.tick % 2 ^ 32) ++ le 8 s.plantIdent ++ (List.range 8).flatMap (s.tractionEntry park)
  let s := if !park && s.cars.any s.carMoves then s.canWake 8 else s
  (s.stepSeq 8 1).canCyclic 8 1 d

end Sys2Proof.Machine
end

