-- ==== Sys2Proof/Machine/DoorOps.lean ====
section
/-!
DEFINITION. Door operation (R489 to R508): the door states, obstruction and reopening, the lock, and the SETPOINT of the
door drive. The profiles themselves are the door slot's program.
-/
namespace Sys2Proof.Machine
open Sys2Proof

def Door.fresh : Door := ⟨none, [], [], none, 0, false, false, 0, 0, false, [], [], [], true, [], [], [], [], [], none⟩
def State.doorOf (s : State) (d : Nat) : Door := tgetD s.door d Door.fresh
def State.modDoor (s : State) (d : Nat) (f : Door → Door) : State := { s with door := tput s.door d (f (s.doorOf d)) }
/-- The ENTRANCE record (R489). -/
def State.doorRec (s : State) (d : Nat) : Option CfgRec := s.cfg 6 3 d
def State.doors (s : State) : List Nat := (s.cfgAll 6 3).map (·.id)
abbrev UNREFERENCED : Nat := 1
abbrev REFERENCING : Nat := 2
abbrev CLOSED : Nat := 3
abbrev GEARED : Nat := 4
abbrev OPENING : Nat := 5
abbrev OPEN : Nat := 6
abbrev CLOSING : Nat := 7
abbrev NUDGING : Nat := 8
abbrev STOPPED_DOOR : Nat := 9
abbrev FAULT_DOOR : Nat := 10
def State.doorState (s : State) (d : Nat) : Nat := s.rd (R.DOOR_STATUS_STATE d)
def State.doorR (s : State) (d k : Nat) : Rat := (f32? (tgetD (s.doorOf d).drv k 0#32)).getD 0
def State.doorPos (s : State) (d : Nat) : Rat := s.doorR d 0
def State.doorFlag (s : State) (d n : Nat) : Bool := bit (s.rd (R.DOOR_DRIVE_STATUS_FLAGS d)) n
def State.travelW (s : State) (d : Nat) : Rat := cfgR (s.doorRec d) 0x10 0
def State.window' (s : State) (d : Nat) : Rat := cfgR (s.doorRec d) 0x38 (15 / 1000)
/-- The forces F_close and F_hold (R489). -/
def State.closeForce (s : State) (d : Nat) : Rat := cfgR (s.doorRec d) 0x30 150
def State.holdForce (s : State) (d : Nat) : Rat := cfgR (s.doorRec d) 0x34 150
/-- The closing speed min(v_c, √(2 E ÷ m_d)) (R497): E is E_nudge in NUDGING and while the encoder is unavailable (R502). -/
def State.closeEnergy (s : State) (d : Nat) : Rat :=
  if s.doorState d = NUDGING ∨ s.doorFlag d 2 = false then cfgR (s.doorRec d) 0x2C 4 else cfgR (s.doorRec d) 0x28 10
def State.closeSpeed (s : State) (d : Nat) : Rat :=
  let v := cfgR (s.doorRec d) 0x1C (5 / 10)
  let m := cfgR (s.doorRec d) 0x14 0
  let e := s.closeEnergy d
  if v * v * m ≤ 2 * e then v else ratMin v (Config.sqrt (ratDiv (2 * e) m))
/-- The GROUP_POLICY records in use: those of before a patch until the running dispatch cycle ends (R67). -/
def State.grpRecs (s : State) (kind : Nat) : List CfgRec :=
  match s.grp.oldPolicy with
  | some (_, l) => l.filter (·.kind == kind)
  | none => s.cfgAll 7 kind
def State.grpRec (s : State) (kind id : Nat) : Option CfgRec := (s.grpRecs kind).find? (·.id == id)
/-- The data of a DOOR event (R510). -/
def State.doorData (s : State) (d cause : Nat) : List Byte := le 1 cause ++ le 3 0 ++ le 4 (toB32 (s.doorPos d)).toNat
def State.setFrom (s : State) (q : List Nat) (status result : Nat) : State := q.foldl (fun s q => s.complete q status result) s

/-! ## States (R494) -/

/-- A state is entered. A move is complete for the envelope (R502) where it begins CLOSED, OPEN or GEARED (log 58). -/
def State.doorTo (s : State) (d st : Nat) : State :=
  let old := s.doorState d
  let whole := old == CLOSED || old == OPEN || old == GEARED
  ((s.wr (R.DOOR_STATUS_STATE d) st).modDoor d fun x => { x with overAt := none, hard := false, sums := [], clean := whole, held := none }).showMotion
/-- `DOOR_LAST_STOP` (R505). -/
def State.doorCause (s : State) (d cause : Nat) : State :=
  (s.wr (R.DOOR_LAST_STOP_CAUSE d) cause).wr (R.DOOR_LAST_STOP_POSITION d) (ratRne (s.doorPos d * 1000)).toNat
/-- The commands that wait for a move are answered with STATE and the cause when it ends otherwise. -/
def State.failMoves (s : State) (d cause : Nat) : State :=
  let x := s.doorOf d
  (s.modDoor d fun x => { x with openQ := [], closeQ := [] }).setFrom (x.openQ ++ x.closeQ) STATE cause
/-- A door stops (R505): ramped, or hard with the end of set-point issue. -/
def State.doorStop (s : State) (d cause : Nat) (hard : Bool) : State :=
  let s := ((s.doorTo d STOPPED_DOOR).modDoor d fun x => { x with hard := hard }).doorCause d cause
  ((s.raise Ev.DOOR_STOPPED d (s.doorData d cause)).flag (R.DOOR_EVENT_STATUS_STOPPED d)).failMoves d cause
/-- The door enters FAULT. -/
def State.doorFault (s : State) (d cause : Nat) : State :=
  let q := (s.doorOf d).refQ ++ (s.doorOf d).stopQ
  let s := ((s.doorTo d FAULT_DOOR).modDoor d fun x => { x with hard := true, refQ := [], stopQ := [] }).doorCause d cause
  (s.failMoves d cause).setFrom q STATE cause
/-- The lock report of the entrance (R508). -/
def State.lockReport (s : State) (d : Nat) : Bool :=
  ((s.carFns (d / 2)).filter fun r => r.fnKind == 2 && (r.u8 0x12 == d % 2 || r.u8 0x12 == 255)).all s.fnClear
def State.showLock (s : State) (d : Nat) : State :=
  let on := s.doorState d == CLOSED && s.lockReport d
  let s := s.wrB (R.DOOR_STATUS_LOCKED d) on
  let q := (s.doorOf d).closeQ
  if on ∧ q ≠ [] then (s.modDoor d fun x => { x with closeQ := [] }).setFrom q OK 0 else s

/-! ## The learned envelope (R502) -/

def State.binOf (s : State) (d : Nat) (sp : Rat) : Nat :=
  let w := s.travelW d
  if w = 0 then 0 else min 31 (ratFloor (sp / w * 32)).toNat
/-- A complete move learned: the mean of each bin at weight 0.25. -/
def learnBins (env sums : Tbl (Rat × Nat)) : Tbl (Rat × Nat) :=
  sums.foldl (fun e p =>
    let mean := p.2.1 / (p.2.2 : Rat)
    match tget e p.1 with
    | none => tput e p.1 (mean, 1)
    | some (v, n) => tput e p.1 (v + (mean - v) / 4, n + 1)) env
def State.learnMove (s : State) (d : Nat) (opening : Bool) : State :=
  let x := s.doorOf d
  if x.clean = false ∨ x.sums = [] then s
  else
    let s := s.modDoor d fun x => if opening then { x with envOpen := learnBins x.envOpen x.sums } else { x with envClose := learnBins x.envClose x.sums }
    s.wr (R.DOOR_STATUS_ENVELOPE_MOVES d) (min 255 (s.rd (R.DOOR_STATUS_ENVELOPE_MOVES d) + 1))
/-- A bin's bound: the learned value plus the margin, or the closing force's current while it has been learned fewer than
4 times. -/
def State.currentBound (s : State) (d : Nat) (opening : Bool) (sp : Rat) : Rat :=
  let x := s.doorOf d
  let force := ratDiv (s.closeForce d) (cfgR (s.cfg 11 7 (256 + d)) 0x14 1)
  match tget (if opening then x.envOpen else x.envClose) (s.binOf d sp) with
  | some (v, n) => if n < 4 then force else v + cfgR (s.doorRec d) 0x50 (5 / 10)
  | none => force

/-! ## Opening and closing -/

/-- The entrance serves the landing at which the car stands (R479), and the car stands there. -/
def State.doorLanding (s : State) (d : Nat) : Bool :=
  (s.landingHere (d / 2)).any fun l => (s.cfg 6 1 l).any fun r => bit (r.u8 0x1C) (d % 2)
/-- The car stands with its brake applied. -/
def State.carStands (s : State) (c : Nat) : Bool := !s.carMoves c && !s.brakeLifted c
def State.openNow (s : State) (d : Nat) : State := (s.doorTo d OPENING).modDoor d fun x => { x with obstr := 0 }
/-- The commands that wait for a close, or for an open, answered with STATE where the door turns the other way (log 58). -/
def State.dropCloses (s : State) (d : Nat) : State :=
  (s.modDoor d fun x => { x with closeQ := [] }).setFrom (s.doorOf d).closeQ STATE 0
def State.dropOpens (s : State) (d : Nat) : State :=
  (s.modDoor d fun x => { x with openQ := [] }).setFrom (s.doorOf d).openQ STATE 0
/-- R503: in FIREFIGHTER the door opens only while the door-open button is held. -/
def State.fireOpens (s : State) (d : Nat) : Bool := s.rd (R.GRP_CAR_STATE_STATE (d / 2)) != 7 || (s.doorOf d).button
/-- An open command (R494): from CLOSED, CLOSING, STOPPED or NUDGING, at a landing that the entrance serves. -/
def State.openDoor (s : State) (d : Nat) : State :=
  let st := s.doorState d
  if s.carStands (d / 2) && s.doorLanding d && s.fireOpens d && (st == CLOSED || st == CLOSING || st == NUDGING || st == STOPPED_DOOR)
  then (s.dropCloses d).openNow d else s
/-- A reopen request stands (R503). A press of the door-open button counts while it is held. -/
def State.reopenDevice (s : State) (d : Nat) : Bool :=
  let x := s.doorOf d
  let drive := (s.doorRec d).any (fun r => bit (r.u8 0x5B) 2) && s.doorFlag d 7
  let curtain := (s.carFns (d / 2)).any fun r => r.fnKind == 6 && (r.u8 0x12 == d % 2 || r.u8 0x12 == 255) && !s.fnClear r
  x.reopenIn || drive || curtain
def State.reopens (s : State) (d : Nat) : Bool :=
  (s.reopenDevice d || (s.doorOf d).button) && s.carState (d / 2) == IDLE && s.doorLanding d
/-- The doors are to stay open (R416, R427, R537): outside normal safety mode, at a fire access landing, in FIREFIGHTER, and
where a car out of the group or in EVACUATION has no next stop. -/
def State.heldOpen (s : State) (c : Nat) : Bool :=
  let g := s.rd (R.GRP_CAR_STATE_STATE c)
  s.carMode c == SNOWPLOUGH || s.carMode c == LATCHED || g == 7 ||
    ((g == 3 || g == 6 || g == 8) && !s.on (R.CAR_NEXT_STOP_VALID c))
def State.closeNow (s : State) (d : Nat) : State :=
  let n := cfgD (s.doorRec d) (fun (r : CfgRec) => r.u8 0x5F) 3
  if n ≤ s.rd (R.DOOR_STATUS_REVERSALS_MOVE d) then
    ((s.doorTo d NUDGING).raise Ev.NUDGE_STARTED d (s.doorData d 0)).flag (R.DOOR_EVENT_STATUS_NUDGE d)
  else s.doorTo d CLOSING
/-- A close command (R494, R495): a reopen request in the same period leaves the door open. -/
def State.closeDoor (s : State) (d : Nat) : State :=
  let st := s.doorState d
  if (st == OPEN || st == STOPPED_DOOR || st == OPENING) && !s.reopens d then (s.dropOpens d).closeNow d else s
/-- The door turns round (R501, R503). -/
def State.reverse (s : State) (d cause : Nat) : State :=
  let s := s.wr (R.DOOR_STATUS_REVERSALS_MOVE d) (min 15 (s.rd (R.DOOR_STATUS_REVERSALS_MOVE d) + 1))
  let q := (s.doorOf d).closeQ
  ((s.doorCause d cause).openNow d).setFrom q STATE cause |>.modDoor d fun x => { x with closeQ := [] }
/-- A reopen request is honoured. -/
def State.reopenDoor (s : State) (d : Nat) : State :=
  if s.doorState d = CLOSING ∧ s.reopens d = true then
    (s.incSat (R.DOOR_REVERSALS_REOPENS d)).reverse d (if (s.doorOf d).button then 4 else 3)
  else s
/-- An obstruction (R501). -/
def State.obstruct (s : State) (d cause : Nat) : State :=
  let s := (s.incSat (R.DOOR_REVERSALS_OBSTRUCTIONS d)).modDoor d fun x => { x with clean := false }
  let s := (s.raise Ev.OBSTRUCTION d (s.doorData d cause)).flag (R.DOOR_EVENT_STATUS_OBSTRUCTION d)
  if s.doorState d = OPENING then
    let n := (s.doorOf d).obstr + 1
    (s.doorStop d cause false).modDoor d fun x => { x with obstr := n }
  else s.reverse d cause
def State.openDone (s : State) (d : Nat) : State :=
  let q := (s.doorOf d).openQ
  (((s.learnMove d true).doorTo d OPEN).modDoor d fun x => { x with openQ := [], obstr := 0 }).setFrom q OK 0
def State.closeDone (s : State) (d : Nat) : State :=
  let s := ((s.learnMove d false).doorTo d CLOSED).inc (R.DOOR_CYCLES d)
  ((s.wr (R.DOOR_STATUS_REVERSALS_MOVE d) 0).modDoor d fun x => { x with extend := 0 }).showLock d
def State.refDone (s : State) (d : Nat) : State :=
  let q := (s.doorOf d).refQ
  let s := (s.doorTo d CLOSED).modDoor d fun x => { x with refQ := [] }
  ((s.raise Ev.REFERENCED d (s.doorData d 0)).setFrom q OK 0).showLock d

/-! ## Advance opening (R500) -/

/-- The conditions for advance opening but BYPASS. -/
def State.mayGear (s : State) (d : Nat) : Bool :=
  let c := d / 2
  let de := (s.doorRec d).elim 0 (·.f32 0x40) + (if 0 < (s.ch c).left then ((s.ch c).ds : Rat) / 1000000 else 0)
  let stop := s.rd (R.CAR_NEXT_STOP_LANDING c)
  let st := s.carState c
  (s.doorRec d).any (fun r => r.f32 0x40 != 0) && s.on (R.CAR_NEXT_STOP_VALID c) &&
    (s.cfg 6 1 stop).any (fun r => bit (r.u8 0x1C) (d % 2)) && s.rd (R.CAR_NEXT_STOP_ENTRANCE c) == d % 2 &&
    (st == COMMITTED || st == LEVELLING) && (s.ch c).zone && decide (ratAbs (s.toGoM c) ≤ de) &&
    decide (ratAbs (s.ch c).vel ≤ 8 / 10) && s.quality c == POS_GOOD && s.doorFlag d 2 && s.fireOpens d
/-- A door that gears, or begins to; BYPASS is asked for once all else holds. -/
def State.gearDoor (s : State) (d : Nat) : State :=
  let c := d / 2
  let by' := s.outOn (3 * c + 2)
  if s.doorState d = CLOSED then
    if s.mayGear d then (if by' then s.doorTo d GEARED else if s.on (R.SAF_REQUEST.bit (3 * c + 2)) then s else s.askFor c [2]) else s
  else if s.doorState d = GEARED then
    if (s.carState c = LEVELLING ∨ s.carState c = IDLE) ∧ s.refReached c = true then s.openNow d
    else if s.mayGear d && by' then s else s.doorStop d 12 false
  else s

/-! ## The servo period (R491, R493, R501) -/

/-- R498: while the car re-levels, the door holds its position in whatever state it is in. -/
def State.relevels (s : State) (d : Nat) : Bool := s.carState (d / 2) == RELEVELLING

/-- The four firmware items of a door by k. -/
def State.doorItems (s : State) (d : Nat) : List (Nat × Word) :=
  let st := s.doorState d
  let x := s.doorOf d
  let cmd : Nat := if st = OPENING then 1 else if st = CLOSING ∨ st = NUDGING then 2 else if st = REFERENCING then 5
                   else if st = STOPPED_DOOR then (if x.hard then 4 else 3) else if st = FAULT_DOOR then 4 else 0
  let evac := s.rd (R.GRP_CAR_STATE_STATE (d / 2)) == 8
  let dwell : Rat := if evac then (cfgD (s.grpRec 1 0) (fun (r : CfgRec) => r.u16 0x2E) 30 : Nat) else cfgR (s.doorRec d) 0x4C 3
  [(0, toB32 cmd), (1, toB32 (b2n (s.outOn (3 * (d / 2) + 2)) : Nat)), (2, toB32 (b2n (s.reopens d) : Nat)), (3, toB32 (dwell + (x.extend : Rat)))]
def State.writeDoorItems (s : State) (d : Nat) : State :=
  (s.doorItems d).foldl (fun s p =>
    if tget (s.doorOf d).fw p.1 = some p.2 then s
    else (s.modDoor d fun x => { x with fw := tput x.fw p.1 p.2 }).firmware (512 + 8 * d + p.1) p.2) s
/-- The door's slot: the writer of its POSITION_SP. -/
def State.doorSlot (s : State) (d : Nat) : Option Nat :=
  ((s.cfgAll 2 1).find? fun r =>
    r.writerKind == 0 && r.sigDest == 4 * d && (s.cfg 2 2 r.sigGroup).any fun g => g.u8 0x14 == 3).map (·.writer)
/-- What the outputs of a state make of the slot's mode, position, velocity and force limit (R494, R497, R498): HOLD where
set-point issue has ended, from an unreferenced door, and while the car re-levels; HOLD with F_hold in CLOSED and OPEN; the
reference speed at half of F_close; F_close and at most the closing speed while closing. -/
structure DoorSet where
  mode : Nat
  pos : Word
  vel : Word
  force : Word
def State.doorSet (s : State) (d : Nat) (x : DoorSet) : DoorSet :=
  let st := s.doorState d
  let at' : Word := (s.doorOf d).held.elim x.pos toB32
  if (s.doorOf d).hard || st == UNREFERENCED || st == FAULT_DOOR then ⟨0, at', 0#32, x.force⟩
  else if st == CLOSED || st == OPEN then ⟨0, at', 0#32, toB32 (s.holdForce d)⟩
  else if s.relevels d then ⟨0, x.pos, 0#32, if st == CLOSING || st == NUDGING then toB32 (s.closeForce d) else x.force⟩
  else if st == REFERENCING then ⟨2, x.pos, toB32 (cfgR (s.doorRec d) 0x3C (5 / 100)), toB32 (s.closeForce d / 2)⟩
  else if st == CLOSING || st == NUDGING then
    let v := (f32? x.vel).getD 0
    let lim := s.closeSpeed d
    ⟨x.mode, x.pos, if v < -lim then toB32 (-lim) else x.vel, toB32 (s.closeForce d)⟩
  else x
/-- The SETPOINT frame (R491), with the park values of R493 in Glide. A door that moves wakes its bus (R600). -/
def State.doorFrame (s : State) (d : Nat) (park : Bool) : State :=
  let st := s.doorState d
  let m := if park then 0 else (ratRne (s.latchR 3 (4 * d + 3))).toNat
  let nudge := !park && (st == NUDGING || decide (16 ≤ m))
  let w (k : Nat) : Word := if park then 0#32 else s.latched 3 (4 * d + k)
  let x : DoorSet := if park then ⟨0, 0#32, 0#32, 0#32⟩ else s.doorSet d ⟨m % 16, w 0, w 1, w 2⟩
  let id := 0x10 + d % 2
  let q := s.canSeq (d / 2) id
  let data := le 2 q ++ le 1 x.mode ++ le 1 (b2n nudge) ++ le 4 x.pos.toNat ++ le 4 x.vel.toNat ++ le 4 x.force.toNat ++
    le 4 (s.tick % 2 ^ 32) ++ le 8 s.plantIdent ++ le 4 0
  let moves := !park && (st == GEARED || st == OPENING || st == CLOSING || st == NUDGING || st == REFERENCING)
  let s := if moves then s.canWake (d / 2) else s
  ((s.wrB (R.DOOR_STATUS_NUDGE d) nudge).stepSeq (d / 2) id).canCyclic (d / 2) id data
/-- The bound is exceeded in this period, and the cause it would be (R501, R502). -/
def State.overBound (s : State) (d : Nat) (sp dev : Rat) : Bool × Nat :=
  if s.doorFlag d 2 then (decide (s.window' d < ratAbs dev), 1)
  else (decide (s.currentBound d (s.doorState d == OPENING) sp < ratAbs (s.doorR d 2)), 2)
/-- Obstruction judged in a servo period. -/
def State.judgeDoor (s : State) (d : Nat) (sp dev : Rat) : State :=
  let st := s.doorState d
  if (st = OPENING ∨ st = CLOSING ∨ st = NUDGING) ∧ s.relevels d = false then
    let (excess, cause) := s.overBound d sp dev
    let t := (s.doorOf d).overAt.getD s.tick
    let bin := s.binOf d sp
    let amp := ratAbs (s.doorR d 2)
    let s := s.modDoor d fun x =>
      let old := tgetD x.sums bin (0, 0)
      { x with overAt := if excess then some t else none, sums := tput x.sums bin (old.1 + amp, old.2 + 1), clean := x.clean && s.doorFlag d 2 }
    let lim := cfgD (s.doorRec d) (fun (r : CfgRec) => r.u16 0x5C) 30 * 100
    if excess ∧ t + lim ≤ s.tick then s.obstruct d cause else s
  else s
/-- A move that is complete (R494). -/
def State.doorEnds (s : State) (d : Nat) : State :=
  let st := s.doorState d
  let sp := s.latchR 3 (4 * d)
  let near := decide (ratAbs (sp - s.doorPos d) ≤ s.window' d)
  let shut := s.on (R.DOOR_STATUS_CLOSED_LIMIT d) || s.doorFlag d 3
  if s.relevels d then s
  else if st = OPENING ∧ s.travelW d ≤ sp ∧ near = true then s.openDone d
  else if (st = CLOSING ∨ st = NUDGING) ∧ sp ≤ 0 ∧ shut = true then s.closeDone d
  else if st = REFERENCING ∧ (s.on (R.DOOR_STATUS_CLOSED_LIMIT d) = true ∨ (s.doorFlag d 3 = true ∧ s.doorFlag d 1 = true)) then s.refDone d
  else s
/-- What the car's stand means to its doors: referencing, and what follows a failed advance opening (R494, R500). -/
def State.doorAtStand (s : State) (d : Nat) : State :=
  let c := d / 2
  if s.carStands c = false then s
  else if s.doorState d = STOPPED_DOOR ∧ s.rd (R.DOOR_LAST_STOP_CAUSE d) = 12 then (if (s.ch c).zone then s.openNow d else s.closeNow d)
  else if (s.landingHere c).isNone then s
  else if s.doorState d = UNREFERENCED ∧ s.on (R.DOOR_DRIVE_STATUS_LOST d) = false then s.doorTo d REFERENCING
  else s
/-- The hard stop causes that the slot and the safety side give (R505). -/
def State.watchDoor (s : State) (d : Nat) : State :=
  let st := s.doorState d
  let moving := st == GEARED || st == OPENING || st == CLOSING || st == NUDGING
  let parked := match s.doorSlot d with
    | some k => s.slotParked k || s.engine == HALTED
    | none => false
  if moving && parked then s.doorStop d 11 true
  else if moving && s.carState (d / 2) == HARD_STOP && s.rd (R.CAR_LAST_STOP_CAUSE (d / 2)) == 7 then s.doorStop d 8 true else s
/-- A servo period of a door. -/
def State.doorServo (s : State) (d : Nat) : State :=
  let sp := s.latchR 3 (4 * d)
  let lag := cfgD (s.doorRec d) (fun (r : CfgRec) => r.u8 0x5E) 2
  let s := (s.modDoor d fun x => { x with sps := (sp :: x.sps).take 9 }).wr (R.DOOR_SETPOINT d) (s.latched 3 (4 * d)).toNat
  let dev := (s.doorOf d).sps.getD lag sp - s.doorPos d
  let s := (s.doorFrame d false).wrR (R.DOOR_DEVIATION d) dev
  let s := (((s.watchDoor d).doorEnds d).judgeDoor d sp dev).gearDoor d
  let s := ((s.reopenDoor d).doorAtStand d).showLock d
  let s := (s.wrB (R.DOOR_STATUS_BYPASS d) (s.outOn (3 * (d / 2) + 2))).wrB (R.DOOR_STATUS_REOPEN_ACTIVE d) (s.reopens d)
  s.writeDoorItems d
/-- The doors as a start has them (R494). -/
def State.doorStart (s : State) : State :=
  s.doors.foldl (fun s d => s.wr (R.DOOR_STATUS_STATE d) UNREFERENCED) { s with door := [] }

end Sys2Proof.Machine
end

