-- ==== Sys2Proof/Machine/GrpOps.lean ====
section
/-!
DEFINITION. Lift group dispatch (R409 to R432): calls and fixtures, the route plan and its cost, service states, the
reserve in assignment, and evacuation operation.
-/
namespace Sys2Proof.Machine
open Sys2Proof

def State.modGrp (s : State) (f : Grp → Grp) : State := { s with grp := f s.grp }
def Call.blank : Call := ⟨0, 0, 0, 0, 0, none, 0, none, 0, false, false, false, false, none⟩
def State.call (s : State) (i : Nat) : Call := tgetD s.grp.calls i Call.blank
def State.modCall (s : State) (i : Nat) (f : Call → Call) : State := s.modGrp fun g => { g with calls := tmod g.calls i f }
def State.gcar (s : State) (c : Nat) : GCar := tgetD s.grp.cars c ⟨0, false, 0, 0, 0, none, false⟩
def State.modGcar (s : State) (c : Nat) (f : GCar → GCar) : State :=
  s.modGrp fun g => { g with cars := tput g.cars c (f (tgetD g.cars c ⟨0, false, 0, 0, 0, none, false⟩)) }
def State.fixt (s : State) (n : Nat) : Fixt := tgetD s.grp.fx n ⟨none, false, [], [], 0, []⟩
def State.modFixt (s : State) (n : Nat) (f : Fixt → Fixt) : State := s.modGrp fun g => { g with fx := tput g.fx n (f (s.fixt n)) }
abbrev UNAVAILABLE : Nat := 1
abbrev IN_GROUP : Nat := 2
abbrev OUT_OF_GROUP : Nat := 3
abbrev INDEPENDENT : Nat := 4
abbrev IN_INSPECTION : Nat := 5
abbrev FIRE_RECALL : Nat := 6
abbrev FIREFIGHTER : Nat := 7
abbrev IN_EVACUATION : Nat := 8
def State.gState (s : State) (c : Nat) : Nat := s.rd (R.GRP_CAR_STATE_STATE c)
/-- The POLICY record (R431) and its figures. -/
def State.policy (s : State) : Option CfgRec := s.grpRec 1 0
def State.fullLoad (s : State) : Rat := cfgR s.policy 0x20 (8 / 10)
def State.boarding (s : State) : Rat := cfgR s.policy 0x24 300
def State.discharge (s : State) : Nat := s.policy.elim 0 (·.u8 0x2B)
def State.fireLanding (s : State) : Nat := s.policy.elim 0 (·.u8 0x2A)
def State.stopTime (s : State) : Rat := cfgR s.policy 0x34 10
def State.zones (s : State) : List CfgRec := s.grpRecs 2
def CfgRec.zoneHas (z : CfgRec) (l : Nat) : Bool := bit (z.u8 (0x10 + l / 8)) (l % 8)
def State.loadKg (s : State) (c : Nat) : Rat := (s.rd (R.CAR_LOAD c) % 65536 : Nat)
/-- A call that counts against the reserve (R409). -/
def Call.ordinary (k : Call) : Bool := decide (k.kind < 4)
def Call.stands (k : Call) : Bool := k.state == 1 || k.state == 2
def Call.ofCar (k : Call) : Bool := k.kind == 3 || k.kind == 5
/-- Standing calls with their identities, oldest identity first. -/
def State.standing (s : State) : List (Nat × Call) := s.grp.calls.filter fun p => p.2.stands
def State.carCalls (s : State) (c : Nat) : List (Nat × Call) := s.grp.calls.filter fun p => p.2.state == 2 && p.2.car == some c
/-- The landing that a call's car has to reach next for it. -/
def Call.stop (k : Call) : Nat := if k.aboard then k.dest else k.landing
def Call.stopEnt (k : Call) : Nat := if k.aboard then k.destEnt else k.entrance

/-! ## Fixtures (R413 to R415) -/

def State.fixtures (s : State) : List CfgRec := s.cfgAll 11 6
def CfgRec.fxType (r : CfgRec) : Nat := r.u8 0x13
/-- A message put on a fixture's line (R603). -/
def SerNode.fresh : SerNode := ⟨0, 0, 0, 0, none, false, [], false⟩
def Ser.fresh : Ser := ⟨[], none, false, [], 0, 0, []⟩
def State.serOf (s : State) (l : Nat) : Ser := tgetD s.ser l Ser.fresh
def State.modSer (s : State) (l : Nat) (f : Ser → Ser) : State := { s with ser := tput s.ser l (f (s.serOf l)) }
def State.modNodeOf (s : State) (l n : Nat) (f : SerNode → SerNode) : State :=
  s.modSer l fun x => { x with nodes := tput x.nodes n (f (tgetD x.nodes n SerNode.fresh)) }
/-- A fixture message of R414, padded to 8 bytes, on the fixture's bus or line. -/
def State.toFixture (s : State) (f : CfgRec) (msg : List Byte) : State :=
  let m := (msg ++ List.replicate 8 0).take 8
  if (fixtureBus (f.u8 0x10) (f.u8 0x11) && fixtureNode (f.u8 0x10) (f.u8 0x11) (f.u8 0x12)) = false then s
  else if f.u8 0x10 = 0 then s.canSend (f.u8 0x11) (0x480 + f.u8 0x12) m
  else s.modNodeOf (f.u8 0x11) (f.u8 0x12) fun x => { x with out := x.out ++ [m] }
/-- The fixtures that show a call, with the button of each (R410, R414). -/
def State.lampsOf (s : State) (k : Call) : List (CfgRec × Nat) :=
  s.fixtures.filterMap fun f =>
    if k.kind ≤ 1 then (if f.fxType = 0 ∧ f.u8 0x14 = k.landing ∧ f.u8 0x15 = k.entrance then some (f, k.kind) else none)
    else if k.ofCar then (if f.fxType = 2 ∧ some (f.u8 0x16) = k.car then some (f, k.landing) else none)
    else none
def State.lamp (s : State) (k : Call) (st : Nat) : State :=
  (s.lampsOf k).foldl (fun s p => s.toFixture p.1 (le 1 0x81 ++ le 1 p.2 ++ le 1 st)) s
/-- Destination panels of a call's landing and entrance. -/
def State.panelsOf (s : State) (k : Call) : List CfgRec :=
  s.fixtures.filter fun f => f.fxType == 1 && f.u8 0x14 == k.landing && f.u8 0x15 == k.entrance
def State.assignMsg (s : State) (k : Call) (car : Nat) : State :=
  if k.kind = 2 then (s.panelsOf k).foldl (fun s f => s.toFixture f (le 1 0x82 ++ le 1 car ++ le 1 k.entrance ++ le 1 k.dest)) s else s
/-- The car that a fixture's indication is about: its own, or the lowest-numbered one that comes to its landing. -/
def State.indCar (s : State) (f : CfgRec) : Nat :=
  if f.fxType = 2 then f.u8 0x16
  else ((s.cars.find? fun c => s.on (R.CAR_NEXT_STOP_VALID c) && s.rd (R.CAR_NEXT_STOP_LANDING c) == f.u8 0x14).getD (s.cars.headD 0))
/-- The message of INDICATE that stands for a fixture. -/
def State.indMsg (s : State) (f : CfgRec) : Nat :=
  let c := s.indCar f
  let g := s.gState c
  if s.rd R.GRP_STATUS_MODE = 3 ∧ f.fxType ≠ 2 then 3
  else if g = FIRE_RECALL ∨ g = FIREFIGHTER then 4
  else if (f.fxType = 2 ∧ (g = UNAVAILABLE ∨ g = IN_INSPECTION)) ∨ (f.fxType ≠ 2 ∧ (s.cars.all fun c => s.gState c != IN_GROUP) = true) then 1
  else if f.fxType = 2 ∧ s.on (R.GRP_CAR_STATE_FULL_LOAD c) = true then 5 else 0
def State.indicate (s : State) (f : CfgRec) (msg : Nat) (gong : Bool) : State :=
  let c := s.indCar f
  s.toFixture f (le 1 0x83 ++ le 1 (s.rd (R.CAR_STATUS_LANDING c)) ++ le 1 (s.rd (R.CAR_STATUS_DIRECTION c)) ++ le 1 msg ++ le 1 (b2n gong) ++ le 1 c)
/-- INDICATE on change (R415): the place, direction, message and car that a fixture is about. -/
def State.indicateChange (s : State) (f : CfgRec) : State :=
  let c := s.indCar f
  let now := le 1 (s.rd (R.CAR_STATUS_LANDING c)) ++ le 1 (s.rd (R.CAR_STATUS_DIRECTION c)) ++ le 1 (s.indMsg f) ++ le 1 c
  if (s.fixt f.id).shown = now then s
  else (s.modFixt f.id fun x => { x with shown := now }).indicate f (s.indMsg f) false
def State.indicateChanges (s : State) : State := if s.underway && s.mayCommand then s.fixtures.foldl State.indicateChange s else s
/-- A call's fixtures: its lamps' or its panels. -/
def State.indicateCall (s : State) (k : Call) (msg : Nat) : State :=
  (((s.lampsOf k).map (·.1)) ++ (if k.kind = 2 then s.panelsOf k else [])).foldl (fun s f => s.indicate f msg false) s
def State.landingFixtures (s : State) : List CfgRec := s.fixtures.filter fun f => f.fxType != 2

/-! ## Calls (R409, R410) -/

/-- The data of a GRP event (R434). -/
def grpData (call car : Nat) : List Byte := le 4 call ++ le 1 car
/-- A call registered, or merged into the standing one that it matches; with its identity. -/
def State.register (s : State) (k : Call) : Nat × State :=
  match s.standing.find? fun p => p.2.kind == k.kind && p.2.landing == k.landing && p.2.entrance == k.entrance &&
      (p.2.dest == k.dest || (k.kind != 2 && k.kind != 3)) && (!k.ofCar || p.2.car == k.car) && !p.2.aboard with
  | some p => (p.1, s)
  | none =>
    let i := s.grp.nextId
    let k := { k with since := s.tick, state := 1 }
    (i, ((s.modGrp fun g => { g with calls := tput g.calls i k, nextId := i + 1 }).lamp k 1).showMotion)
/-- A call ends: 3 served, 4 refused, 5 cancelled; its lamp goes off, but flashes for a refused one. -/
def State.endCall (s : State) (i st : Nat) : State :=
  let k := s.call i
  let w := k.wait.getD ((s.tick - k.since) / 100)
  ((s.modCall i fun k => { k with state := st, wait := some w }).lamp k (if st = 4 then 2 else 0)).showMotion
/-- The wait of a call that its car has reached, counted into the mean. -/
def State.picked (s : State) (i : Nat) : State :=
  let w := (s.tick - (s.call i).since) / 100
  (s.modCall i fun k => { k with wait := some w }).modGrp fun g => { g with waits := (s.tick, w) :: g.waits }

/-! ## The route plan (R418 to R420) -/

/-- A plan under way: position in m, load in kg, direction, the calls still to pick up and the stops still owed with
their calls, the time and energy so far, and the time at which each call was picked up (`at`) and completed (`done`). -/
structure Plan where
  pos : Rat
  load : Rat
  dir : Int
  picks : List (Nat × Call)
  drops : List (Nat × Nat)
  time : Rat
  joule : Rat
  at' : Tbl (Rat × Rat)
  done : Tbl Rat
  first : Option Nat
/-- The time of a move of so many m (R419). -/
def moveTime (x : CarSpec) (d : Rat) : Rat :=
  if d = 0 then 0
  else
    let vc := if x.v * x.v ≤ x.a * d then x.v else Config.sqrt (x.a * d)
    ratDiv d vc + ratDiv vc x.a + ratDiv x.a x.j
def State.landingM (s : State) (l : Nat) : Rat := (s.landingUm l : Rat) / 1000000
/-- The terminal landing of a car in a direction. -/
def State.terminal (s : State) (c : Nat) (up : Bool) : Nat := if up then (s.served c).getLastD 0 else (s.served c).headD 0
/-- Where a call rides to (R420). -/
def State.ridesTo (s : State) (c : Nat) (k : Call) : Nat :=
  if k.kind = 0 then s.terminal c true else if k.kind = 1 then s.terminal c false else if k.kind = 4 then s.discharge else k.dest
/-- The next stop: the nearest in the direction of travel, else the nearest the other way (R418). -/
def State.nextOf (s : State) (p : Plan) : Option Nat :=
  let stops := (p.picks.map fun x => x.2.landing) ++ p.drops.map (·.1)
  let near (l : List Nat) : Option Nat := l.foldl (fun b k => match b with
    | none => some k
    | some j => if ratAbs (s.landingM k - p.pos) < ratAbs (s.landingM j - p.pos) then some k else some j) none
  let ahead := stops.filter fun l => if 0 < p.dir then decide (p.pos ≤ s.landingM l) else decide (s.landingM l ≤ p.pos)
  if p.dir = 0 then near stops else (near ahead).or (near stops)
/-- One move of the plan, with what happens at its stop. -/
def State.planMove (s : State) (c : Nat) (p : Plan) : Plan :=
  match s.nextOf p with
  | none => p
  | some l =>
    let x := s.carSpec c
    let toward := s.landingM l
    let d := ratAbs (toward - p.pos)
    let sign : Rat := if p.pos ≤ toward then 1 else -1
    let t := moveTime x d
    let e := if d = 0 then 0 else s.legCost (sign * (p.load - x.b * x.mL)) d + s.pAux * t
    let now := p.time + t
    let here := p.picks.filter fun k => k.2.landing == l
    let carStops := (p.drops.map (·.1)).eraseDups.length
    let out := p.drops.any fun k => k.1 == l
    let load := if out then p.load - p.load / (max 1 carStops : Nat) else p.load
    let boarding := here.filter fun k => !k.2.ofCar
    let load := ratMin x.mL (ratMax 0 (load + (boarding.length : Rat) * s.boarding))
    let at' := here.foldl (fun m k => tput m k.1 (now, p.load)) p.at'
    let done := ((p.drops.filter fun k => k.1 == l).map (·.2)).foldl (fun m i => tput m i now) p.done
    let done := (here.filter fun k => k.2.ofCar).foldl (fun m k => tput m k.1 now) done
    let drops := (p.drops.filter fun k => k.1 != l) ++ boarding.map fun k => (s.ridesTo c k.2, k.1)
    let picks := p.picks.filter fun k => k.2.landing != l
    let dwell := s.stopTime * (if here.any fun k => k.2.accessible then 2 else 1)
    let rest := !(picks.isEmpty && drops.isEmpty)
    { pos := toward, load := load, dir := if d = 0 then p.dir else if p.pos ≤ toward then 1 else -1, picks := picks, drops := drops,
      time := if rest then now + dwell else now, joule := p.joule + e, at' := at', done := done, first := p.first.or (some l) }
/-- The plan run to its end: no plan has more stops than its calls have landings and destinations. -/
def State.runPlan (s : State) (c : Nat) : Nat → Plan → Plan
  | 0, p => p
  | n + 1, p => if p.picks.isEmpty && p.drops.isEmpty then p else s.runPlan c n (s.planMove c p)
/-- Where a car's plan begins: its committed stop, the point at which a moving car can first stop, or where it stands. -/
def State.planFrom (s : State) (c : Nat) : Rat × Int :=
  let x := s.ch c
  let st := s.carState c
  let m (v : Int) : Rat := (v : Rat) / 1000000
  if s.frozen c then (m x.target, (s.carOf c).dir)
  else if st = STARTING ∨ st = SPEED_MODE then (m (um x.look), (s.carOf c).dir)
  else (m (um x.fused), 0)
/-- The plan of a car for a list of calls (R418, R420); a car call is a stop at which part of the load leaves. -/
def State.planOf (s : State) (c : Nat) (l : List (Nat × Call)) : Plan :=
  let (p, d) := s.planFrom c
  let aboard := l.filter fun k => k.2.aboard || k.2.ofCar
  let picks := l.filter fun k => !(k.2.aboard || k.2.ofCar)
  let drops := aboard.map fun k => (if k.2.aboard then k.2.dest else k.2.landing, k.1)
  s.runPlan c (2 * l.length + 2) ⟨p, s.loadKg c, d, picks, drops, 0, 0, [], [], none⟩
def Plan.wh (p : Plan) : Rat := p.joule / 3600
def ordinaryOf (l : List (Nat × Call)) : List (Nat × Call) := l.filter fun p => p.2.ordinary
/-- The route energy of a car's ordinary calls (R421). -/
def State.routeWh (s : State) (c : Nat) : Rat := (s.planOf c (ordinaryOf (s.carCalls c))).wh
def State.committedWh (s : State) : Rat := ratSum (s.cars.map s.routeWh)
/-- H (R421); it counts as negative while the reserve is unknown (R422). -/
def State.headroom (s : State) : Rat := s.margin - s.committedWh
def State.reserveUnknown (s : State) : Bool := s.on R.PLT_DISP_STATUS_RESERVE_UNKNOWN
/-- The energy weight in force (R418). -/
def State.wEnergy (s : State) : Rat :=
  let w := cfgR s.policy 0x18 (2 / 100)
  match s.dispMode with
  | 2 => w * cfgR s.policy 0x1C 4
  | 3 => 0
  | _ => w
/-- The entrance of a landing that a car serves: its door exists. -/
def State.servesAt (s : State) (c l e : Nat) : Bool := (s.served c).contains l && (s.doors).contains (2 * c + e)
/-- The cost J and ΔE of giving a call to a car, and the load on arrival at it (R418). -/
def State.costOf (s : State) (c i : Nat) (k : Call) : Rat × Rat × Rat :=
  let held := s.carCalls c
  let p0 := s.planOf c held
  let p1 := s.planOf c (held ++ [(i, k)])
  let reach := (tget p1.at' i).getD ((tget p1.done i).getD p1.time, s.loadKg c)
  let tw := reach.1 + ((s.tick - k.since : Nat) : Rat) / 100000
  let ride := ratSum (held.map fun h => (tget p1.done h.1).getD p1.time - (tget p0.done h.1).getD p0.time)
  let de := p1.wh - p0.wh
  (cfgR s.policy 0x10 1 * tw + cfgR s.policy 0x14 (5 / 10) * ride + s.wEnergy * de, de, reach.2)
/-- The car may take the call (R416, R418). -/
def State.eligible (s : State) (c i : Nat) (k : Call) : Bool :=
  let g := s.gState c
  if k.kind = 5 then k.car == some c && g == FIREFIGHTER
  else if k.kind = 3 then k.car == some c && (g == IN_GROUP || g == OUT_OF_GROUP || (g == INDEPENDENT && k.fixture.isSome)) && s.servesAt c k.landing k.entrance
  else if k.kind = 4 then false
  else g == IN_GROUP && s.servesAt c k.landing k.entrance && (k.kind != 2 || (s.served c).contains k.dest) &&
    decide ((s.costOf c i k).2.2 < s.fullLoad * (s.carSpec c).mL)

/-! ## Refusal and assignment (R422, R423, R429) -/

/-- A reserve refusal is shown for 60 s. -/
def State.limited (s : State) : State := s.modGrp fun g => { g with limitedAt := some s.tick }
/-- A call refused (R422); a car whose call is refused at a landing keeps its doors open (R423). -/
def State.refuse (s : State) (i : Nat) (h de : Rat) : State :=
  let k := s.call i
  let s := ((s.endCall i 4).assignMsg k 255).indicateCall k 2
  let s := (s.inc R.GRP_CALLS_REFUSED).limited
  let s := (s.raise Ev.CALL_REFUSED 0 (grpData i 255 ++ le 4 (toB32 h).toNat ++ le 4 (toB32 de).toNat)).flag R.GRP_EVENT_STATUS_REFUSED
  match k.car with
  | some c => if k.kind = 3 then (s.carDoors c).foldl (fun s d => if s.doorState d = CLOSING then s.openDoor d else s) s else s
  | none => s
/-- A call given to a car. -/
def State.assign (s : State) (i c : Nat) : State :=
  let s := (s.modCall i fun k => { k with state := 2, car := some c, stranded := false }).inc R.GRP_CALLS_ASSIGNED
  (s.assignMsg (s.call i) c).modGcar c fun x => { x with idleAt := none, parked := false }
/-- One registered call at the end of a cycle (R411, R422, R429). -/
def State.judgeCall (s : State) (i : Nat) : State :=
  let k := s.call i
  if k.state ≠ 1 ∨ s.tick ≤ k.since ∨ k.kind = 4 then s
  else
    let cs := s.cars.filter fun c => s.eligible c i k
    let costs := cs.map fun c => (c, s.costOf c i k)
    let h := s.headroom
    let ok := costs.filter fun x => !k.ordinary || (!s.reserveUnknown && decide (x.2.2.1 ≤ h))
    let best := ok.foldl (fun (b : Option (Nat × Rat)) x => match b with
      | none => some (x.1, x.2.1)
      | some y => if x.2.1 < y.2 then some (x.1, x.2.1) else some y) none
    match best with
    | some (c, _) => s.assign i c
    | none =>
      if cs = [] ∧ (k.ordinary = false ∨ s.reserveUnknown = false) then
        if k.stranded then s
        else (((s.modCall i fun k => { k with stranded := true }).raise Ev.CALL_STRANDED 0 (grpData i 255 ++ le 1 k.landing)).flag
          R.GRP_EVENT_STATUS_STRANDED).indicateCall k 1
      else s.refuse i h (ratLeast (costs.map fun x => x.2.2.1))
/-- Calls that no car has started toward are released while H is negative, newest registration first (R423). -/
def State.releaseN : Nat → State → Nat × State
  | 0, s => (0, s)
  | n + 1, s =>
    let h := s.headroom
    if h < 0 ∨ s.reserveUnknown = true then
      match (s.grp.calls.filter fun p => p.2.state == 2 && p.2.ordinary && !p.2.began && !p.2.aboard).getLast? with
      | none => (0, s)
      | some p => let r := State.releaseN n (s.refuse p.1 h 0); (r.1 + 1, r.2)
    else (0, s)
def State.release (s : State) : State :=
  let (n, s) := State.releaseN s.grp.calls.length s
  if n = 0 then s else (s.raise Ev.CALLS_RELEASED 0 (grpData 0 255 ++ le 2 n)).flag R.GRP_EVENT_STATUS_REFUSED
/-- The calls that a car gives up when it leaves the group (R416, R429): landing and destination calls not at its committed
stop are registered again; car calls are cancelled where the new state says so. -/
def State.giveUp (s : State) (c : Nat) (cancelCar : Bool) : State :=
  let kept (k : Call) : Bool := s.frozen c && s.gState c != UNAVAILABLE && s.rd (R.CAR_NEXT_STOP_LANDING c) == k.stop
  (s.carCalls c).foldl (fun s p =>
    if p.2.ofCar then (if cancelCar then s.endCall p.1 5 else s)
    else if kept p.2 then s
    else if p.2.aboard then (if cancelCar then s.endCall p.1 5 else s)
    else if p.2.kind = 4 then s
    else (s.modCall p.1 fun k => { k with state := 1, car := none, began := false, since := k.since }).inc R.GRP_REASSIGNMENTS) s

/-! ## Service states (R416, R417) -/

/-- The causes of UNAVAILABLE: the safety side, Snowplough or SAFE_LATCHED, and faults of motion, drive, doors and
position. An open door circuit of a standing car and a hold-to-run control not held are none. -/
def State.carDown (s : State) (c : Nat) : Bool :=
  let cause := match s.carCause c with
    | none => false
    | some 2 => s.carMoves c
    | some 1 => !(s.inspecting c && s.kindClear c 1)
    | some _ => true
  let slot := match s.carSlot c with
    | some k => s.slotParked k
    | none => true
  cause || s.carMode c != SAF_NORMAL || s.quality c == POS_LOST || s.quality c == 0 || s.on (R.CAR_DRIVE_STATUS_LOST c) || slot ||
    s.carState c == HARD_STOP || (s.carDoors c).any fun d => s.doorState d == FAULT_DOOR
/-- The state that the causes give a car. -/
def State.serviceOf (s : State) (c : Nat) : Nat :=
  let g := s.gcar c
  if s.carDown c || (s.gState c == UNAVAILABLE && (s.landingHere c).isNone) then UNAVAILABLE
  else if s.inspecting c then IN_INSPECTION
  else if g.fire = 1 then FIRE_RECALL
  else if g.fire = 2 then FIREFIGHTER
  else if s.rd R.GRP_STATUS_MODE = 3 ∧ g.service ≠ 2 then IN_EVACUATION
  else g.service + 2
/-- The in-car key acts at the fire access landing (R416): on during recall into FIREFIGHTER, off into FIRE_RECALL. -/
def State.fireStep (s : State) (c : Nat) : State :=
  let x := s.gcar c
  if s.landingHere c ≠ some s.fireLanding ∨ s.carMoves c = true then s
  else if x.fire = 1 ∧ x.inCar = true ∧ s.grp.fireRecall = true then s.modGcar c fun x => { x with fire := 2 }
  else if x.fire = 2 ∧ x.inCar = false then s.modGcar c fun x => { x with fire := if s.grp.fireRecall then 1 else 0 }
  else s
/-- A car takes its state at a cycle's end, with what leaving and joining brings. -/
def State.judgeCar (s : State) (c : Nat) : State :=
  let s := s.fireStep c
  let old := s.gState c
  let new := s.serviceOf c
  if old = new then s
  else
    let s := s.wr (R.GRP_CAR_STATE_STATE c) new
    let s := s.modGcar c fun x => { x with idleAt := some s.tick, parked := false }
    if new = IN_GROUP then (s.raise Ev.CAR_JOINED_GROUP 0 (grpData 0 c)).flag R.GRP_EVENT_STATUS_CAR_SERVICE
    else
      let s := s.giveUp c (new == UNAVAILABLE || new == FIRE_RECALL)
      if old = IN_GROUP then (s.raise Ev.CAR_LEFT_GROUP 0 (grpData 0 c ++ le 1 new)).flag R.GRP_EVENT_STATUS_CAR_SERVICE else s

/-! ## Next stops -/

/-- The next stop set, where it is not set so already. -/
def State.setStop (s : State) (c l e : Nat) : State :=
  if s.frozen c || (s.on (R.CAR_NEXT_STOP_VALID c) && s.rd (R.CAR_NEXT_STOP_LANDING c) == l && s.rd (R.CAR_NEXT_STOP_ENTRANCE c) == e) then s
  else s.writeTarget c l e
/-- Whether a car in EVACUATION may start (R426). -/
def State.evacMay (s : State) (c : Nat) : Bool :=
  let moving := s.cars.filter fun k => s.carMoves k || k == c
  let stagger := cfgD s.policy (fun (r : CfgRec) => r.u16 0x2C) 2000
  decide (ratSum (moving.map s.peakPower) ≤ s.rdR R.PLT_LIFT_POWER_LIMIT 0) && s.grp.lastStart.all fun t => decide (t + stagger * 100 ≤ s.tick)
/-- The entrance of a car at a landing: the lowest door that the landing has. -/
def State.entranceAt (s : State) (c l : Nat) : Nat :=
  (([0, 1].find? fun e => (s.doors).contains (2 * c + e) && (s.cfg 6 1 l).any fun r => bit (r.u8 0x1C) e).getD 0)
/-- A car of EVACUATION sent to a landing, when it may start; else it waits with its doors closed (R426). -/
def State.evacSend (s : State) (c l : Nat) : State :=
  if s.landingHere c = some l ∧ s.carMoves c = false then s
  else if s.carMoves c then s.setStop c l (s.entranceAt c l)
  else if s.on (R.CAR_NEXT_STOP_VALID c) ∧ s.rd (R.CAR_NEXT_STOP_LANDING c) = l then s
  else if s.evacMay c then
    ((s.setStop c l (s.entranceAt c l)).modGrp fun g => { g with lastStart := some s.tick }).wrB (R.GRP_EVAC_STATUS_CARS_WAITING.bit c) false
  else ((s.carDoors c).foldl (fun s d => s.closeDoor d) s).wrB (R.GRP_EVAC_STATUS_CARS_WAITING.bit c) true
/-- The first stop of a car's plan becomes its next stop; a car without one keeps none. -/
def State.planCar (s : State) (c : Nat) : State :=
  let g := s.gState c
  if g = UNAVAILABLE ∨ g = IN_INSPECTION ∨ g = IN_EVACUATION then s
  else if g = FIRE_RECALL then
    if s.landingHere c = some s.fireLanding ∧ s.carMoves c = false then s else s.setStop c s.fireLanding (s.entranceAt c s.fireLanding)
  else
    let l := s.carCalls c
    match (s.planOf c l).first with
    | none => s
    | some k =>
      let e := match l.find? fun p => p.2.stop == k with
        | some p => p.2.stopEnt
        | none => s.entranceAt c k
      if s.landingHere c = some k ∧ s.carMoves c = false then s else s.setStop c k e
/-- Calls toward whose stop the car moves count as started (R423). -/
def State.markBegun (s : State) (c : Nat) : State :=
  if s.carMoves c && s.on (R.CAR_NEXT_STOP_VALID c) then
    (s.carCalls c).foldl (fun s p =>
      if p.2.stop = s.rd (R.CAR_NEXT_STOP_LANDING c) ∧ p.2.began = false then s.modCall p.1 fun k => { k with began := true } else s) s
  else s

/-! ## Arrival -/

/-- What a car's stand at a landing does to its calls: pick-ups, deliveries, and the doors. -/
def State.serveAt (s : State) (c l : Nat) : State :=
  let here := (s.carCalls c).filter fun p => p.2.stop == l
  let s := here.foldl (fun s p =>
    if p.2.ofCar then (s.picked p.1).endCall p.1 3
    else if p.2.aboard then s.endCall p.1 3
    else if p.2.kind = 2 then ((s.picked p.1).modCall p.1 fun k => { k with aboard := true })
    else if p.2.kind = 4 then s
    else (s.picked p.1).endCall p.1 3) s
  (here.foldl (fun s p => s.openDoor (2 * c + p.2.stopEnt)) s)
/-- The car has arrived (R428, R537): doors open, calls are served, an evacuation trip goes on. -/
def State.carArrived (s : State) (c l : Nat) : State :=
  let s := s.modCar c fun x => { x with arrived := none }
  let s := (s.carDoors c).foldl (fun s d => s.modDoor d fun x => { x with locks := 0 }) s
  let s := (s.modGcar c fun x => { x with idleAt := some s.tick, parked := false }).serveAt c l
  let s := (s.landingFixtures.filter fun f => f.u8 0x14 == l).foldl (fun s f => s.indicate f (s.indMsg f) true) s
  let open' (s : State) : State := (s.carDoors c).foldl (fun s d => s.openDoor d) s
  if s.carMode c = SNOWPLOUGH then open' s
  else match s.gState c with
    | 6 => if l = s.fireLanding then open' s else s
    | 8 =>
      let x := s.gcar c
      if x.phase = 1 ∧ x.pickup = l then s.modGcar c (fun x => { x with phase := 2 }) |> open'
      else if x.phase = 3 ∧ l = s.discharge then
        let s := (s.modGcar c fun x => { x with phase := 0 }).inc R.GRP_EVAC_TRIPS
        let trips := (s.reserveRec.elim 0 fun r => r.u16 0x18) * s.cars.length
        let s := if s.rd R.GRP_EVAC_TRIPS = trips ∧ s.grp.design = false then
            ((s.modGrp fun g => { g with design := true }).raise Ev.EVAC_DESIGN_EXCEEDED 0 (grpData 0 255 ++ le 4 (s.rd R.GRP_EVAC_TRIPS))).flag R.GRP_EVENT_STATUS_EVAC_DESIGN
          else s
        open' s
      else open' s
    | _ => s
def State.serveCars (s : State) : State :=
  s.cars.foldl (fun s c => match (s.carOf c).arrived with
    | some l => s.carArrived c l
    | none => s) s

/-! ## Evacuation (R425 to R428) -/

/-- The landings raised, in the order in which they are served (R427): by zone priority, then the farther first. -/
def State.raised (s : State) : List Nat :=
  let l := ((s.standing.filter fun p => p.2.kind == 4).map fun p => p.2.landing).eraseDups
  let pr (k : Nat) : Nat := ((s.zones.filter fun z => z.zoneHas k).map fun z => z.u8 0x21).foldl min 255
  let far (k : Nat) : Nat := (s.landingUm k - s.landingUm s.discharge).natAbs
  let before (a b : Nat) : Bool := decide (pr a < pr b) || (decide (pr a = pr b) && decide (far b < far a))
  l.foldl (fun o k => (o.filter fun j => !before k j) ++ [k] ++ o.filter fun j => before k j) []
def State.raiseEvac (s : State) (l e : Nat) : State := (s.register { Call.blank with kind := 4, landing := l, entrance := e, dest := s.discharge }).2
/-- The evacuation calls of a landing are cleared. -/
def State.clearEvac (s : State) (l : Nat) : State :=
  ((s.standing.filter fun p => p.2.kind == 4 && p.2.landing == l).foldl (fun s p => s.endCall p.1 5) s).modGrp fun g => { g with light := tdel g.light l }
/-- The first cycle end of EVACUATION (R425). -/
def State.evacBegin (s : State) : State :=
  let s := (s.wr R.GRP_STATUS_MODE 3).wr R.GRP_EVAC_TRIPS 0
  let s := s.modGrp fun g => { g with design := false, lastStart := none, light := [] }
  let s := ((s.standing.filter fun p => p.2.ordinary && !p.2.began && !p.2.aboard).foldl (fun s p => s.refuse p.1 s.headroom 0) s)
  let s := s.landingFixtures.foldl (fun s f => s.indicate f 3 false) s
  let s := s.cars.foldl (fun s c =>
    let laden := decide (0 < s.loadKg c) || (s.carCalls c).any fun p => p.2.aboard || p.2.kind == 3
    s.modGcar c fun x => { x with phase := if laden then 3 else 0 }) s
  let picks := (s.zones.filter fun z => bit (z.u8 0x22) 0).flatMap fun z => (List.range 128).filter fun l => z.zoneHas l && (s.cfg 6 1 l).isSome
  let s := picks.eraseDups.foldl (fun s l => if l = s.discharge then s else s.raiseEvac l (s.entranceAt (s.cars.headD 0) l)) s
  s.raise Ev.EVAC_DISPATCH_STARTED 0 (grpData 0 255 ++ le 1 (min 255 s.raised.length))
def State.evacFinish (s : State) : State :=
  let s := s.wr R.GRP_EVAC_STATUS_CARS_WAITING 0
  let s := (s.standing.filter fun p => p.2.kind == 4).foldl (fun s p => s.endCall p.1 5) s
  s.cars.foldl (fun s c => s.modGcar c fun x => { x with phase := 0, service := if s.gState c == IN_EVACUATION then 0 else x.service }) s
/-- The car leaves its pick-up landing for the discharge landing (R428): a departure with a light load counts. -/
def State.evacDepart (s : State) (c : Nat) : State :=
  let x := s.gcar c
  if x.phase = 2 then
    let light := decide (s.loadKg c < (s.carSpec c).mL / 10)
    let n := if light then tgetD s.grp.light x.pickup 0 + 1 else 0
    let s := (s.modGrp fun g => { g with light := tput g.light x.pickup n }).modGcar c fun x => { x with phase := 3 }
    let s := if 2 ≤ n then s.clearEvac x.pickup else s
    (s.carDoors c).foldl (fun s d => s.closeDoor d) s
  else s
/-- A car of EVACUATION at a cycle's end. -/
def State.evacCar (s : State) (c : Nat) : State :=
  if s.gState c ≠ IN_EVACUATION then s
  else
    let full := decide (s.fullLoad * (s.carSpec c).mL ≤ s.loadKg c)
    let s := if (s.gcar c).phase = 2 ∧ full = true then s.evacDepart c else s
    let x := s.gcar c
    match x.phase with
    | 0 =>
      if s.carMoves c then s
      else
        let l := s.raised.filter (s.served c).contains
        let on (k : Nat) : Nat := (s.cars.filter fun j => (s.gcar j).phase == 1 && (s.gcar j).pickup == k).length
        match l.find? fun k => l.all fun j => decide (on k ≤ on j) with
        | some k =>
          let s' := s.evacSend c k
          if s'.on (R.CAR_NEXT_STOP_VALID c) ∧ s'.rd (R.CAR_NEXT_STOP_LANDING c) = k then s'.modGcar c fun x => { x with phase := 1, pickup := k }
          else if s.landingHere c = some k then (s.modGcar c fun x => { x with phase := 2, pickup := k }).carDoors c |>.foldl (fun s d => s.openDoor d) (s.modGcar c fun x => { x with phase := 2, pickup := k })
          else s'
        | none => if s.landingHere c = some s.discharge then (s.carDoors c).foldl (fun s d => s.openDoor d) s else s.evacSend c s.discharge
    | 1 => if s.carMoves c then s else s.evacSend c x.pickup
    | 3 => if s.carMoves c then s
           else if s.landingHere c = some s.discharge then s.carArrived c s.discharge else s.evacSend c s.discharge
    | _ => s

/-! ## Patterns and parking (R432) -/

/-- Days since 1 January 1970, a Thursday, and seconds after local midnight. -/
def State.localDay (s : State) : Nat × Nat :=
  let t := s.billSeconds.toNat
  (t / 86400, t % 86400)
/-- The pattern in force: selected, by local time, or none for BALANCED. -/
def State.pattern (s : State) : Option CfgRec :=
  let sel := s.rd R.GRP_PATTERN_SELECTED
  if sel ≠ 255 then s.grpRec 3 sel
  else if s.timeKnown = false then none
  else
    let (d, t) := s.localDay
    (s.grpRecs 3).find? fun r => decide (r.u32 0x10 ≤ t) && decide (t < r.u32 0x14) && bit (r.u8 0x18) ((d + 3) % 7)
/-- Where a car parks: the main landing under UP_PEAK, else the landing of a parking zone that no other car occupies. -/
def State.parkAt (s : State) (c : Nat) : Option Nat :=
  match s.pattern with
  | some p => if p.u8 0x19 = 1 then some (p.u8 0x1A) else zoneOf (fun (z : CfgRec) => bit (p.u16 0x1C) z.id)
  | none => zoneOf fun _ => true
where
  zoneOf (inMask : CfgRec → Bool) : Option Nat :=
    let free (z : CfgRec) : Bool := bit (z.u8 0x22) 1 && bit (z.u8 0x20) c && inMask z &&
      !s.cars.any fun k => k != c && (s.landingHere k).any z.zoneHas
    match s.zones.find? free with
    | some z => (s.served c).find? z.zoneHas
    | none => none

/-! ## Registers -/

/-- The registers of the group (R435, R436). -/
def State.showGrp (s : State) : State :=
  let st := s.standing
  let cnt (f : Nat × Call → Bool) : Nat := (st.filter f).length
  let s := s.modGrp fun g => { g with waits := g.waits.filter fun w => decide (s.tick < w.1 + 30000000) }
  let w := s.grp.waits
  let avg : Rat := if w = [] then 0 else ((w.map (·.2)).foldl (· + ·) 0 : Nat) / (w.length : Rat) / 1000
  let s := (s.wr R.GRP_CALLS_REGISTERED_CAR (cnt fun p => p.2.ofCar)).wr R.GRP_CALLS_REGISTERED_LANDING (cnt fun p => !p.2.ofCar)
  let s := ((s.wrR R.GRP_ENERGY_COMMITTED s.committedWh).wrR R.GRP_RESERVE_HEADROOM s.headroom).wrR R.GRP_AVG_WAIT avg
  let s := (s.wrB R.GRP_STATUS_RESERVE_UNKNOWN s.reserveUnknown).wrB R.GRP_STATUS_RESERVE_LIMITED (s.grp.limitedAt.any fun t => decide (s.tick < t + 6000000))
  let s := (s.wrB R.GRP_STATUS_FIRE_RECALL s.grp.fireRecall).wr R.GRP_PATTERN_IN_FORCE (match s.pattern with | some p => p.id | none => 255)
  let s := s.wr R.GRP_EVAC_STATUS_CALLS_RAISED (min 255 (cnt fun p => p.2.kind == 4))
  let evac := s.rd R.GRP_STATUS_MODE == 3
  s.cars.foldl (fun s c =>
    let l := s.carCalls c
    let s := ((s.wr (R.GRP_CAR_CALLS_CAR c) (l.filter fun p => p.2.ofCar).length).wr (R.GRP_CAR_CALLS_LANDING c) (l.filter fun p => !p.2.ofCar).length).wrR (R.GRP_CAR_ENERGY c) (s.routeWh c)
    let s := ((s.wr (R.GRP_CAR_STATE_DIRECTION c) (s.rd (R.CAR_STATUS_DIRECTION c))).wrB (R.GRP_CAR_STATE_COMMITTED c) (s.frozen c)).wr (R.GRP_CAR_STATE_LOAD c) (s.rd (R.CAR_LOAD c))
    let s := s.wrB (R.GRP_CAR_STATE_FULL_LOAD c) (decide (s.fullLoad * (s.carSpec c).mL ≤ s.loadKg c))
    let s := (s.wr (R.GRP_CAR_NEXT_POSITION c) (s.rd (R.CAR_STATUS_LANDING c))).wrB (R.GRP_CAR_NEXT_VALID c) (s.on (R.CAR_NEXT_STOP_VALID c))
    let s := s.wr (R.GRP_CAR_NEXT_NEXT c) (s.rd (R.CAR_NEXT_STOP_LANDING c))
    s.wrB (R.GRP_EVAC_STATUS_CARS_MOVING.bit c) (evac && s.carMoves c)) s
def State.showFixtures (s : State) : State :=
  let n (f : Fixt → Bool) : Nat := (s.grp.fx.filter fun p => f p.2).length
  let s := s.wr R.GRP_FIXTURES_ONLINE (n fun x => x.heard.isSome && !x.lost)
  (s.wr R.GRP_FIXTURES_FAULT_LOST (n (·.lost))).wr R.GRP_FIXTURES_FAULT_STUCK (n fun x => x.stuck != [])

/-! ## The cycle (R411) -/

/-- The plant mode as the group takes it at a cycle's end. -/
def State.grpMode (s : State) : State :=
  let m := s.dispMode
  let old := s.rd R.GRP_STATUS_MODE
  if m = EVACUATION then (if old = 3 then s else s.evacBegin)
  else (if old = 3 then s.evacFinish else s).wr R.GRP_STATUS_MODE (if m = ISLAND then 2 else 1)
/-- The CAR_SERVICE commands that waited for the cycle's end. -/
def State.answerService (s : State) : State :=
  let q := s.grp.serviceQ
  q.foldl (fun s x => s.complete x.1 OK (s.gState x.2)) (s.modGrp fun g => { g with serviceQ := [] })
/-- R429: at the end of the first cycle with a patched GROUP_POLICY the calls of the cars in the group are given anew. -/
def State.regroup (s : State) : State :=
  if s.grp.regroup = false then s
  else (s.cars.filter fun c => s.gState c == IN_GROUP).foldl (fun s c => s.giveUp c false) (s.modGrp fun g => { g with regroup := false })
/-- R67: the cycle that starts now is the first to use a patched GROUP_POLICY whose boundary lies behind. -/
def State.policyTurn (s : State) : State :=
  match s.grp.oldPolicy with
  | some (n, _) => if n < s.tick then s.modGrp fun g => { g with oldPolicy := none, regroup := true } else s
  | none => s
/-- R416: a car out of the group with its car calls done, and one recalled to the fire access landing, stand with their doors
open; closed ones open. -/
def State.standOpen (s : State) (c : Nat) : State :=
  let out := s.gState c == OUT_OF_GROUP && (s.carCalls c).isEmpty
  let recalled := s.gState c == FIRE_RECALL && s.landingHere c == some s.fireLanding
  if (out || recalled) && s.carState c == IDLE && !s.on (R.CAR_NEXT_STOP_VALID c) then
    (s.carDoors c).foldl (fun s d => if s.doorState d = CLOSED then s.openDoor d else s) s
  else s
/-- What follows the modes at a cycle's end: service states, released calls, assignment, next stops and evacuation moves. -/
def State.groupWork (s : State) : State :=
  let s := s.serveCars
  let s := ((s.cars.foldl (fun s c => (s.judgeCar c).markBegun c) s).regroup).answerService
  let s := if s.rd R.GRP_STATUS_MODE = 3 then s else s.release
  let s := (s.standing.map (·.1)).foldl State.judgeCall s
  let s := s.cars.foldl (fun s c =>
    let s := s.planCar c
    if s.carState c = IDLE ∧ s.gState c ≠ IN_EVACUATION then (match s.landingHere c with
      | some l => if s.carStands c then s.serveAt c l else s
      | none => s) else s) s
  let s := if s.rd R.GRP_STATUS_MODE = 3 then s.cars.foldl State.evacCar s else s
  let s := s.cars.foldl State.standOpen s
  (s.showGrp.showMotion).policyTurn
/-- The end of a dispatch cycle. -/
def State.groupCycle (s : State) : State :=
  if s.underway = false ∨ s.mayCommand = false ∨ s.pwr.berthRun = true then
    (s.wr R.GRP_STATUS_MODE 0).wrB R.GRP_STATUS_STOPPED_THERMAL (s.rd R.PWR_THERMAL_STATUS_STAGE == 2)
  else ((s.wrB R.GRP_STATUS_STOPPED_THERMAL false).grpMode).groupWork

end Sys2Proof.Machine
end

