-- ==== Sys2Proof/Machine/Grp.lean ====
section
/-!
DEFINITION. The lift group's commands and events (R409 to R436): one meaning per row.
-/
namespace Sys2Proof.Machine
open Sys2Proof

/-- R411: the end of a dispatch cycle. -/
def execGroupDispatchCycle (s : State) : Res State := .next s.groupCycle

/-! ## Fixture messages (R414, R415) -/

def State.fixRec (s : State) (f : Nat) : Option CfgRec := s.cfg 11 6 f
/-- A valid message of a fixture has come. -/
def State.hear (s : State) (f : Nat) : State := (s.modFixt f fun x => { x with heard := some s.tick, lost := false }).showFixtures
/-- The door-open and door-close buttons of a car (R503); in NUDGING they do not reverse the door (R504). -/
def State.doorButton (s : State) (c : Nat) (close pressed : Bool) : State :=
  (s.carDoors c).foldl (fun s d =>
    if close then (if pressed ∧ s.gState c ≠ FIREFIGHTER then (if s.doorState d = OPEN then s.closeDoor d else s)
                   else if pressed ∧ s.doorState d = OPEN then s.closeNow d else s)
    else
      let s := s.modDoor d fun x => { x with button := pressed }
      if pressed then (if s.doorState d = CLOSING then s.reopenDoor d else if s.doorState d = NUDGING then s else s.openDoor d)
      else if s.gState c = FIREFIGHTER ∧ s.doorState d = OPENING then s.closeNow d else s) s
/-- A button of a fixture pressed, past the checks of R415. -/
def State.pressed (s : State) (r : CfgRec) (b : Nat) : State :=
  let acc := bit (r.u8 0x17) 0
  let base := { Call.blank with landing := r.u8 0x14, entrance := r.u8 0x15, fixture := some r.id, accessible := acc }
  match r.fxType with
  | 0 => if b ≤ 1 then (s.register { base with kind := b }).2 else s
  | 2 =>
    let c := r.u8 0x16
    let g := s.gState c
    if b < 128 then
      if g = UNAVAILABLE ∨ g = IN_INSPECTION ∨ g = FIRE_RECALL then s
      else (s.register { base with kind := if g = FIREFIGHTER then 5 else 3, landing := b, dest := b, car := some c }).2
    else if b = 128 then s.doorButton c false true else if b = 129 then s.doorButton c true true else s
  | 5 => if s.rd R.GRP_STATUS_MODE = 3 then s.raiseEvac (r.u8 0x14) (r.u8 0x15) else s
  | _ => s
/-- PRESS (R414, R415): a stuck button is ignored until it is released. -/
def State.fixturePress (s : State) (f b : Nat) (down : Bool) : State :=
  match s.fixRec f with
  | none => s
  | some r =>
    let s := s.hear f
    let x := s.fixt f
    if down then
      let s := s.modFixt f fun x => { x with pressed := if x.pressed.contains b then x.pressed else b :: x.pressed }
      if x.stuck.contains b then s else s.pressed r b
    else
      let s := (s.modFixt f fun x => { x with pressed := x.pressed.erase b, stuck := x.stuck.erase b }).showFixtures
      if r.fxType = 2 ∧ b = 128 then s.doorButton (r.u8 0x16) false false else s
def execFixturePress (f button : Nat) (down : Bool) (s : State) : Res State :=
  if s.portsUp then .next (s.fixturePress f button down) else .next s
/-- DESTINATION (R414): a destination call from the panel's landing. -/
def State.fixtureDest (s : State) (f dest ent flags : Nat) : State :=
  match s.fixRec f with
  | none => s
  | some r =>
    let s := s.hear f
    if r.fxType = 1 then
      (s.register { Call.blank with kind := 2, landing := r.u8 0x14, entrance := r.u8 0x15, dest := dest, destEnt := ent, fixture := some f,
                                    accessible := bit flags 0 || bit (r.u8 0x17) 0 }).2
    else s
def execFixtureDestination (f dest ent flags : Nat) (s : State) : Res State :=
  if s.portsUp then .next (s.fixtureDest f dest ent flags) else .next s
/-- The cars of the firefighter mask (R416). -/
def State.fireCars (s : State) : List Nat := s.cars.filter fun c => s.policy.any fun r => bit (r.u8 0x30) c
/-- The recall key (R416, R424). -/
def State.recallKey (s : State) (on : Bool) : State :=
  if s.grp.fireRecall = on then s
  else
    let s := (s.modGrp fun g => { g with fireRecall := on }).wrB R.GRP_STATUS_FIRE_RECALL on
    let s := s.raise Ev.FIRE_RECALL 0 (grpData 0 255 ++ le 1 (b2n on))
    s.fireCars.foldl (fun s c => s.modGcar c fun x =>
      { x with fire := if on then (if x.fire = 0 then 1 else x.fire) else if x.fire = 1 then 0 else x.fire }) s
/-- The in-car key: it acts at the fire access landing. -/
def State.inCarKey (s : State) (c : Nat) (on : Bool) : State :=
  let s := s.modGcar c fun x => { x with inCar := on }
  s.fireStep c
/-- KEY (R414). -/
def State.fixtureKey (s : State) (f key : Nat) (on : Bool) : State :=
  match s.fixRec f with
  | none => s
  | some r =>
    let s := s.hear f
    let c := r.u8 0x16
    match key with
    | 0 => s.recallKey on
    | 1 => if s.fireCars.contains c then s.inCarKey c on else s
    | 2 => if s.cars.contains c then s.modGcar c fun x => { x with service := if on then 2 else 0 } else s
    | 3 => if on ∧ s.rd R.GRP_STATUS_MODE = 3 then s.clearEvac (r.u8 0x14) else s
    | 4 => if s.cars.contains c then s.modGcar c fun x => { x with service := if on then 1 else 0 } else s
    | _ => s
def execFixtureKey (f key : Nat) (on : Bool) (s : State) : Res State :=
  if s.portsUp then .next (s.fixtureKey f key on) else .next s
def State.fixtureBeat (s : State) (f status : Nat) : State :=
  if (s.fixRec f).isSome then (s.hear f).modFixt f fun x => { x with status := status } else s
def execFixtureHeartbeat (f status : Nat) (s : State) : Res State :=
  if s.portsUp then .next (s.fixtureBeat f status) else .next s
/-- A fixture message as its bus or line brought it. -/
def State.fixtureMsg (s : State) (f : Nat) (m : List Byte) : State :=
  match u8 m 0 with
  | 1 => s.fixturePress f (u8 m 1) (u8 m 2 == 1)
  | 2 => s.fixtureDest f (u8 m 1) (u8 m 2) (u8 m 3)
  | 3 => s.fixtureKey f (u8 m 1) (u8 m 2 == 1)
  | 4 => s.fixtureBeat f (u8 m 1)
  | _ => s
/-- R415: 3 s without a valid message; the standing calls stay. -/
def execFixtureLost (f : Nat) (s : State) : Res State :=
  match s.fixRec f with
  | none => .next s
  | some r =>
    if (s.fixt f).lost then .next s
    else
      let s := (s.modFixt f fun x => { x with lost := true }).showFixtures
      let s := if r.u8 0x10 = 1 then s.flag (R.SER_EVENT_STATUS_NODE_LOST (r.u8 0x11)) else s
      .next ((s.raise Ev.FIXTURE_LOST 0 (grpData 0 255 ++ le 2 f)).flag R.GRP_EVENT_STATUS_FIXTURE_FAULT)
/-- R415: a button held for the stuck time. -/
def execButtonStuck (f button : Nat) (s : State) : Res State :=
  if (s.fixt f).pressed.contains button && !(s.fixt f).stuck.contains button then
    let s := (s.modFixt f fun x => { x with stuck := button :: x.stuck }).showFixtures
    .next ((s.raise Ev.BUTTON_STUCK 0 (grpData 0 255 ++ le 2 f ++ le 1 button)).flag R.GRP_EVENT_STATUS_FIXTURE_FAULT)
  else .next s
/-- R415: INDICATE every 1 s. -/
def execIndicateRefresh (s : State) : Res State :=
  if s.mayCommand then .next (s.fixtures.foldl (fun s f => s.indicate f (s.indMsg f) false) s) else .next s
/-- R422: a refused call's lamp goes off after 3 s. -/
def execRefusedLampTimeout (i : Nat) (s : State) : Res State :=
  if (s.call i).state = 4 then .next (s.lamp (s.call i) 0) else .next s

/-! ## Parking and evacuation (R428, R432) -/

/-- R432: a car that has stood IN_GROUP without calls for the parking delay parks. -/
def execParkingDelayExpiry (c : Nat) (s : State) : Res State :=
  if s.underway && s.mayCommand && s.gState c == IN_GROUP && (s.carCalls c).isEmpty && !s.carMoves c && !(s.gcar c).parked then
    match s.parkAt c with
    | some l => .next (((if s.landingHere c = some l then s else s.setStop c l (s.entranceAt c l))).modGcar c fun x => { x with parked := true })
    | none => .next (s.modGcar c fun x => { x with parked := true })
  else .next s
/-- R428: the evacuation dwell at a pick-up has run. -/
def execEvacuationDwellExpiry (c : Nat) (s : State) : Res State :=
  if s.rd R.GRP_STATUS_MODE = 3 ∧ s.gState c = IN_EVACUATION ∧ (s.gcar c).phase = 2 then .next ((s.evacDepart c).evacCar c) else .next s

/-! ## The group commands (R433) -/

/-- HOST_CALL: refused in EVACUATION, without a car that serves it, and while the reserve is unknown. -/
def State.hostCall (q : Nat) (c : Cmd) (s : State) : State :=
  let k := u8 c.args 0
  let l := u8 c.args 1
  let e := u8 c.args 2
  let d := u8 c.args 3
  let car := u8 c.args 4
  let at' := if k = 3 then d else l
  let cars := s.cars.filter fun j => (k != 3 || (j == car && s.gState j != INDEPENDENT)) && s.servesAt j at' e && (k != 2 || (s.served j).contains d)
  if 3 < k then s.complete q 0x0101 0
  else if s.underway = false then s.complete q STATE 0
  else if s.dispMode = EVACUATION then s.complete q 0x0A11 0
  else if cars = [] then s.complete q 0x0A12 0
  else if s.reserveUnknown then s.complete q 0x0A10 0
  else
    let (i, s) := s.register { Call.blank with kind := k, landing := at', entrance := e, dest := if k < 2 then 0 else d, car := if k = 3 then some car else none }
    s.complete q OK i
def execHostCall (q : Nat) (s : State) : Res State := s.onCmd q CmdCode.hostCallCode (State.hostCall q)
/-- CANCEL_CALL (R430): the cancellation wins over an assignment at the same cycle's end. -/
def State.cancelCall (q : Nat) (c : Cmd) (s : State) : State :=
  let i := u32 c.args 0
  if (s.call i).stands then (s.endCall i 5).complete q OK 0 else s.complete q 0x0A13 0
def execCancelCall (q : Nat) (s : State) : Res State := s.onCmd q CmdCode.cancelCallCode (State.cancelCall q)
/-- CAR_SERVICE: answered at the next cycle's end. -/
def State.carService (q : Nat) (c : Cmd) (s : State) : State :=
  let car := u8 c.args 0
  let v := u8 c.args 1
  if s.cars.contains car = false then s.complete q 0x0A12 0
  else if 2 < v then s.complete q 0x0101 0
  else (s.modGcar car fun x => { x with service := v }).modGrp fun g => { g with serviceQ := g.serviceQ ++ [(q, car)] }
def execCarService (q : Nat) (s : State) : Res State := s.onCmd q CmdCode.carServiceCode (State.carService q)
/-- EVAC_CALL. -/
def State.evacCall (q : Nat) (c : Cmd) (s : State) : State :=
  let l := u8 c.args 0
  if s.rd R.GRP_STATUS_MODE ≠ 3 then s.complete q 0x0A11 0
  else if (s.cfg 6 1 l).isNone then s.complete q 0x0A13 0
  else if u8 c.args 2 = 0 then (s.raiseEvac l (u8 c.args 1)).complete q OK 0
  else (s.clearEvac l).complete q OK 0
def execEvacCall (q : Nat) (s : State) : Res State := s.onCmd q CmdCode.evacCallCode (State.evacCall q)
/-- CALL_READ. -/
def State.callRead (q : Nat) (c : Cmd) (s : State) : State :=
  match tget s.grp.calls (u32 c.args 0) with
  | none => s.complete q 0x0A13 0
  | some k =>
    let w := k.wait.getD ((s.tick - k.since) / 100)
    s.complete q OK (k.kind + 2 ^ 8 * (k.car.getD 15) + 2 ^ 16 * (k.landing % 128) + 2 ^ 24 * k.state + 2 ^ 32 * (w % 2 ^ 32))
def execCallRead (q : Nat) (s : State) : Res State := s.onCmd q CmdCode.callReadCode (State.callRead q)
/-- R717: CLEAR_COUNTERS of GRP. -/
def execGrpClearCounters (sess key : Nat) (s : State) : Res State :=
  if s.keyed sess key then .next (s.clearCounters 0xA0000 0x10000) else .next s

end Sys2Proof.Machine
end

