-- ==== Sys2Proof/Machine/Door.lean ====
section
/-!
DEFINITION. The door commands and events (R489 to R512): one meaning per row.
-/
namespace Sys2Proof.Machine
open Sys2Proof

/-! ## The drive (R492) -/

/-- A STATUS frame taken into the registers and the signals of R493. A drive heard first, or again after a loss, gets its standing
orders at once (R32). -/
def State.takeDoor (s : State) (d : Nat) (b : List Byte) : State :=
  let flags := u16 b 2 % 512
  let w (o : Nat) : Word := BitVec.ofNat 32 (u32 b o)
  let vals : Tbl Word := [(0, w 4), (1, w 8), (2, w 12), (3, toB32 (flags : Rat)), (4, w 16)]
  let s := if (s.doorOf d).rxSeq.isNone then s.canStanding (d / 2) (d % 2) else s
  let s := s.modDoor d fun x => { x with rxSeq := some (u16 b 0), drv := vals }
  let s := (s.wr (R.DOOR_DRIVE_STATUS_FLAGS d) flags).wr (R.DOOR_DRIVE_STATUS_FAULT_CODE d) (u16 b 0x14)
  let s := (s.wrB (R.DOOR_DRIVE_STATUS_LOST d) false).wr (R.DOOR_POSITION d) (u32 b 4)
  let s := s.wr (R.DOOR_CURRENT d) (u32 b 12)
  (s.wrB (R.DOOR_STATUS_REFERENCED d) (bit flags 1)).wrB (R.DOOR_STATUS_ENCODER_FALLBACK d) (!bit flags 2)
/-- R507: the drive reports position lost. -/
def State.loseReference (s : State) (d : Nat) : State :=
  let s := (s.doorTo d UNREFERENCED).failMoves d 0
  (s.raise Ev.REFERENCE_LOST d (s.doorData d 0)).flag (R.DOOR_EVENT_STATUS_REFERENCE_LOST d)
/-- A standing door answers the commands that wait for standstill. -/
def State.doorStill (s : State) (d : Nat) : State :=
  let q := (s.doorOf d).stopQ
  if s.doorR d 1 = 0 ∧ q ≠ [] then (s.modDoor d fun x => { x with stopQ := [] }).setFrom q OK 0 else s
def State.doorStatus (s : State) (d : Nat) (b : List Byte) : State :=
  if (s.doorRec d).isSome && b.length == 32 && seqNew (s.doorOf d).rxSeq (u16 b 0) then
    let was := s.doorFlag d 8
    let s := s.takeDoor d b
    let s := if s.doorFlag d 8 && !was && s.doorState d != FAULT_DOOR then s.loseReference d else s
    (((s.doorEnds d).reopenDoor d).doorStill d).doorAtStand d
  else s
/-- R492: a STATUS frame of a declared door with a new sequence. -/
def execDoorStatusFrame (d : Nat) (data : List Byte) (s : State) : Res State :=
  if s.portsUp then .next (s.doorStatus d data) else .next s
/-- R492, R494: the drive is lost and the door in FAULT. -/
def State.loseDoor (s : State) (d : Nat) : State :=
  let s := (s.wrB (R.DOOR_DRIVE_STATUS_LOST d) true).doorFault d 9
  ((s.modDoor d fun x => { x with rxSeq := none }).raise Ev.DOOR_DRIVE_LOST d (s.doorData d 9)).flag (R.DOOR_EVENT_STATUS_DRIVE_LOST d)
def execDoorDriveLost (d : Nat) (s : State) : Res State :=
  if (s.doorRec d).isSome && s.portsUp && !s.on (R.DOOR_DRIVE_STATUS_LOST d) then .next (s.loseDoor d) else .next s

/-! ## Timers (R494, R501, R504, R508) -/

/-- R501: 2 s after an obstruction of the opening the door resumes it; the third keeps it stopped. -/
def execObstructionResume (d : Nat) (s : State) : Res State :=
  let n := (s.doorOf d).obstr
  if s.doorState d = STOPPED_DOOR ∧ 0 < n ∧ n < 3 then .next (s.doorTo d OPENING) else .next s
/-- R494, R503: the dwell of an open door has run and no reopen request stands. -/
def execDoorDwellExpiry (d : Nat) (s : State) : Res State :=
  if s.doorState d = OPEN ∧ s.reopens d = false ∧ s.heldOpen (d / 2) = false then .next (s.closeNow d) else .next s
/-- R508: the lock is not reported within 2 s of CLOSED. -/
def State.lockFailed (s : State) (d : Nat) : State :=
  let n := (s.doorOf d).locks + 1
  let s := s.modDoor d fun x => { x with locks := n }
  if 3 ≤ n then
    let s := s.doorFault d 10
    (s.raise Ev.LOCK_FAILED d (s.doorData d 10)).flag (R.DOOR_EVENT_STATUS_LOCK_FAILED d)
  else (s.doorCause d 10).openNow d
def execLockTimeout (d : Nat) (s : State) : Res State :=
  if s.doorState d = CLOSED ∧ s.lockReport d = false then .next (s.lockFailed d) else .next s
/-- R494: referencing exceeds its bound. -/
def execReferencingTimeout (d : Nat) (s : State) : Res State :=
  if s.doorState d = REFERENCING then .next (s.doorFault d 0) else .next s
/-- R504: a reopen device has stood active for the nudge time. -/
def State.nudge (s : State) (d : Nat) : State :=
  ((s.doorTo d NUDGING).raise Ev.NUDGE_STARTED d (s.doorData d 0)).flag (R.DOOR_EVENT_STATUS_NUDGE d)
def execNudgeTimeExpiry (d : Nat) (s : State) : Res State :=
  if s.reopenDevice d = true ∧ (s.doorState d = OPEN ∨ s.doorState d = CLOSING ∨ s.doorState d = OPENING) ∧ s.heldOpen (d / 2) = false
  then .next (s.nudge d) else .next s

/-! ## Inputs (R503, R506) -/

/-- R506: with its HARD flag (bit 0 closed, bit 1 open) a limit ends set-point issue, and the set-point takes the drive-reported
position. -/
def State.limitSet (s : State) (d : Nat) (top : Bool) : State :=
  let hard := (s.doorRec d).any fun r => bit (r.u8 0x5B) (b2n top)
  if hard then s.modDoor d fun x => { x with held := some (s.doorPos d) } else s
/-- R506: a limit input of the direction of motion completes the move, or stops a geared door; any other is only recorded. -/
def State.doorLimit (s : State) (d : Nat) (top active : Bool) : State :=
  let s := s.wrB (if top then R.DOOR_STATUS_OPEN_LIMIT d else R.DOOR_STATUS_CLOSED_LIMIT d) active
  if active = false then s
  else
    let st := s.doorState d
    let s := s.doorCause d (if top then 5 else 6)
    if top then
      if st = OPENING then (s.openDone d).limitSet d true
      else if st = GEARED then (s.doorStop d 5 ((s.doorRec d).any fun r => bit (r.u8 0x5B) 1)).limitSet d true
      else s
    else if st = CLOSING ∨ st = NUDGING then (s.closeDone d).limitSet d false
    else if st = REFERENCING then s.refDone d else s
def execDoorLimitInput (d : Nat) (top active : Bool) (s : State) : Res State :=
  if (s.doorRec d).isSome && s.powered then .next (s.doorLimit d top active) else .next s
/-- R503: the reopen input changes. -/
def State.reopenInput (s : State) (d : Nat) (active : Bool) : State :=
  (s.modDoor d fun x => { x with reopenIn := active }).reopenDoor d

/-! ## The door commands (R509) -/

/-- Why a move is refused: the car moves, the door is not referenced, or stands at no landing that it serves. -/
def State.doorRefusal (s : State) (d : Nat) : Nat :=
  let st := s.doorState d
  if (s.doorRec d).isNone ∨ s.underway = false then STATE
  else if s.carStands (d / 2) = false then 0x0C12
  else if st = UNREFERENCED ∨ st = REFERENCING ∨ st = FAULT_DOOR then 0x0C11
  else if s.doorLanding d = false then 0x0C10 else 0
def State.cmdOpen (q : Nat) (c : Cmd) (s : State) : State :=
  let d := c.inst
  let bad := s.doorRefusal d
  if bad ≠ 0 then s.complete q bad 0
  else if s.doorState d = OPEN then s.complete q OK 0
  else if s.fireOpens d = false then s.complete q STATE 0
  else (s.modDoor d fun x => { x with openQ := x.openQ ++ [q] }).openDoor d
def execDoorOpen (q : Nat) (s : State) : Res State := s.onCmd q CmdCode.doorOpenCode (State.cmdOpen q)
def State.cmdClose (q : Nat) (c : Cmd) (s : State) : State :=
  let d := c.inst
  let bad := s.doorRefusal d
  if bad ≠ 0 ∧ bad ≠ 0x0C10 then s.complete q bad 0
  else if s.reopens d then s.complete q STATE 0
  else ((s.modDoor d fun x => { x with closeQ := x.closeQ ++ [q] }).closeDoor d).showLock d
def execDoorClose (q : Nat) (s : State) : Res State := s.onCmd q CmdCode.doorCloseCode (State.cmdClose q)
/-- R505: a stop, ramped or hard; answered at standstill. -/
def State.cmdStop (q : Nat) (c : Cmd) (s : State) : State :=
  let d := c.inst
  let st := s.doorState d
  if (s.doorRec d).isNone then s.complete q STATE 0
  else if st = GEARED ∨ st = OPENING ∨ st = CLOSING ∨ st = NUDGING ∨ st = REFERENCING then
    let hard := decide (u8 c.args 0 = 1)
    (s.doorStop d (if hard then 8 else 7) hard).modDoor d fun x => { x with stopQ := x.stopQ ++ [q] }
  else s.complete q OK 0
def execDoorStop (q : Nat) (s : State) : Res State := s.onCmd q CmdCode.doorStopCode (State.cmdStop q)
def State.cmdReference (q : Nat) (c : Cmd) (s : State) : State :=
  let d := c.inst
  if (s.doorRec d).isNone ∨ s.underway = false ∨ s.on (R.DOOR_DRIVE_STATUS_LOST d) = true then s.complete q STATE 0
  else if s.carStands (d / 2) = false then s.complete q 0x0C12 0
  else if (s.landingHere (d / 2)).isNone then s.complete q 0x0C10 0
  else ((s.failMoves d 0).doorTo d REFERENCING).modDoor d fun x => { x with refQ := x.refQ ++ [q] }
def execDoorReference (q : Nat) (s : State) : Res State := s.onCmd q CmdCode.doorReferenceCode (State.cmdReference q)
/-- The dwell extended, or the hold ended. -/
def State.cmdHold (q : Nat) (c : Cmd) (s : State) : State :=
  let d := c.inst
  let t := u16 c.args 0
  if (s.doorRec d).isNone then s.complete q STATE 0
  else if 3600 < t then s.complete q 0x0101 0
  else ((s.modDoor d fun x => { x with extend := if t = 0 then 0 else x.extend + t }).writeDoorItems d).complete q OK 0
def execDoorHoldOpen (q : Nat) (s : State) : Res State := s.onCmd q CmdCode.doorHoldOpenCode (State.cmdHold q)
/-- R717: CLEAR_COUNTERS of a door. -/
def execDoorClearCounters (sess key d : Nat) (s : State) : Res State :=
  if s.keyed sess key && decide (d < 16) then .next (s.clearCounters (0xC0000 + 0x800 * d) 0x800) else .next s
/-- R502: CLEAR_ENVELOPE. -/
def execClearEnvelope (sess key d : Nat) (s : State) : Res State :=
  if s.keyed sess key && decide (d < 16) then
    .next ((s.modDoor d fun x => { x with envOpen := [], envClose := [], sums := [] }).wr (R.DOOR_STATUS_ENVELOPE_MOVES d) 0)
  else .next s

end Sys2Proof.Machine
end

