-- ==== Sys2Proof/Machine/Car.lean ====
section
/-!
DEFINITION. The position feedback and car motion commands and events (R437 to R488): one meaning per row.
-/
namespace Sys2Proof.Machine
open Sys2Proof

/-! ## Position feedback (R440 to R463) -/

/-- R445, R446: one tape read; the safety side listens and forms its tape speed from successive accepted reads (R525). -/
def State.ssiRead (s : State) (c : Nat) (r : CfgRec) (frame stamp : Nat) (back : Rat) : State :=
  let old := (s.ch c).tape
  let from' := (s.ch c).fused
  let s := s.readTape c r frame stamp back
  let s := match old, (s.ch c).tape with
    | some (p0, t0), some (p1, t1) =>
      if t0 < t1 then s.modSafCar c fun x => { x with tapeSpeed := ((p1 - p0 : Int) : Rat) * 3000 / ((t1 - t0 : Nat) : Rat) } else s
    | _, _ => s
  ((s.travelled c r from').showPos c).watchCar c
def execSsiRead (c frame stamp : Nat) (back : Rat) (s : State) : Res State :=
  match s.posRec c with
  | none => .next s
  | some r => if s.powered then .next (s.ssiRead c r frame stamp back) else .next s
/-- An index edge (R441). -/
def State.indexEdge (s : State) (c : Nat) (r : CfgRec) (n : Int) : State :=
  let x := s.ch c
  let s := s.wrS48 (R.POS_INDEX_LATCH_LO c) n
  let bad := match x.idxLast with
    | some m => decide ((r.countsPerRev : Int) + 1 < (n - m).natAbs)
    | none => false
  let run := if bad then x.idxRun + 1 else 0
  let s := s.setCh c { x with idxLast := some n, idxRun := run }
  let s := if bad then addSat s (R.POS_ERRORS_INDEX_ERRORS c) 1 else s
  if 3 ≤ run then s.sourceFault c false else s
/-- A vane latched while the car has not moved since start makes quality GOOD with both sources healthy (R454). -/
def State.vaneAtStart (s : State) (c : Nat) : State :=
  if (s.ch c).atStart && s.quality c == POS_LOST && !s.motorBad c && !s.tapeBad c then s.setQuality c POS_GOOD else s
/-- R449: an edge of the vane (0), door-zone (1), marker (2) or index (3) input. -/
def State.latchEdge (s : State) (c : Nat) (r : CfgRec) (src : Nat) (falling : Bool) (stamp : Nat) (back : Rat) : State :=
  let f := ratFloor (s.fusedBack c back)
  let n := (s.ch c).count - ratRne back
  let s := s.modCh c fun x => { x with latches := tput x.latches (src + 8 * b2n falling) (f, stamp) }
  match src with
  | 0 =>
    let x := s.ch c
    let s := s.setCh c { x with vane := !falling, vaneRise := if falling then none else some f }
    if falling then (match x.vaneRise with | some a => s.corrVane c ((a + f) / 2) | none => s) else s.vaneAtStart c
  | 1 => (s.modCh c fun x => { x with zone := !falling }).wrB (R.CAR_STATUS_IN_DOOR_ZONE c) (!falling)
  | 2 =>
    let x := s.ch c
    let s := s.setCh c { x with marker := !falling, rise := if falling then none else some f }
    if falling && r.markMode != 0 then (match x.rise with | some a => s.markPulse c r a f | none => s) else s
  | 3 => if falling then s else s.indexEdge c r n
  | _ => s
def execLatchEdge (c src : Nat) (falling : Bool) (stamp : Nat) (back : Rat) (s : State) : Res State :=
  match s.posRec c with
  | none => .next s
  | some r => if s.powered then .next (((s.latchEdge c r src falling stamp back).showPos c).watchCar c) else .next s
/-- R440, R443, R444: the motor source faults. -/
def execMotorSourceFault (c : Nat) (s : State) : Res State :=
  if (s.posRec c).isSome && s.powered then .next ((s.sourceFault c false).watchCar c) else .next s
/-- R463: the firmware sets the target from the height of a landing that the car serves. -/
def execTargetWrite (c l e : Nat) (s : State) : Res State :=
  if (s.served c).contains l && s.underway then .next (s.writeTarget c l e) else .next s
/-- R717: CLEAR_COUNTERS of a position channel. -/
def execPosClearCounters (sess key c : Nat) (s : State) : Res State :=
  if s.keyed sess key && decide (c < 8) then .next (s.clearCounters (0xD0000 + 0x1000 * c) 0x1000) else .next s
/-- R488: CLEAR_FAULT clears the source faults whose causes are absent, as told. -/
def execClearFault (sess key c : Nat) (motorOk tapeOk : Bool) (s : State) : Res State :=
  if s.keyed sess key && decide (c < 8) then
    let s := if motorOk then (s.wrB (R.POS_STATUS_MOTOR_FAULT c) false).modCh c fun x => { x with encAt := [], hallAt := [], idxRun := 0 } else s
    .next (if tapeOk then (s.wrB (R.POS_STATUS_TAPE_FAULT c) false).modCh c fun x => { x with rejects := 0 } else s)
  else .next s

/-! ## The traction drive (R475 to R477) -/

/-- A STATUS frame taken (R476): ten valid ones in a row end a loss. A drive heard first, or again after a loss, gets its standing
orders at once (R32). -/
def State.takeTraction (s : State) (c : Nat) (b : List Byte) : State :=
  let flags := u16 b 2
  let w (o : Nat) : Word := BitVec.ofNat 32 (u32 b o)
  let vals : Tbl Word := [(0, w 4), (1, w 8), (2, w 12), (3, w 16), (4, toB32 ((flags % 128 : Nat) : Rat))]
  let good := (s.carOf c).drvGood + 1
  let s := if (s.carOf c).drvSeq.isNone then s.canStanding 8 c else s
  let s := s.modCar c fun x => { x with drvSeq := some (u16 b 0), drvGood := good, drv := vals }
  let s := (s.wr (R.CAR_DRIVE_STATUS_FLAGS c) (flags % 128)).wr (R.CAR_DRIVE_STATUS_FAULT_CODE c) (u16 b 0x14)
  let s := ((s.wr (R.CAR_DRIVE_SPEED c) (u32 b 4)).wr (R.CAR_DRIVE_TORQUE c) (u32 b 8)).inc (R.CAR_DRIVE_FRAMES c)
  let s := if 10 ≤ good then s.wrB (R.CAR_DRIVE_STATUS_LOST c) false else s
  if bit flags 3 then s.carStop c 6 true else s
def State.tractionStatus (s : State) (c : Nat) (b : List Byte) : State :=
  if (s.carRec c).isSome && b.length == 24 && seqNew (s.carOf c).drvSeq (u16 b 0) then s.takeTraction c b else s
def execTractionStatusFrame (c : Nat) (data : List Byte) (s : State) : Res State :=
  if s.portsUp then .next (s.tractionStatus c data) else .next s
/-- R477: 3 STATUS frames in a row are missing. -/
def State.loseDrive (s : State) (c : Nat) : State :=
  let s := (s.incBy (R.CAR_DRIVE_MISSED c) 3).modCar c fun x => { x with drvSeq := none, drvGood := 0 }
  if s.on (R.CAR_DRIVE_STATUS_LOST c) then s
  else
    let s := s.wrB (R.CAR_DRIVE_STATUS_LOST c) true
    ((s.raise Ev.DRIVE_LOST c (s.carData c 6)).flag (R.CAR_EVENT_STATUS_DRIVE_LOST c)).carStop c 6 true
def execTractionDriveLost (c : Nat) (s : State) : Res State :=
  if (s.carRec c).isSome && s.portsUp then .next (s.loseDrive c) else .next s
/-- R475: in Glide the frame goes out every 10 ms with park values. -/
def execTractionGlideFrame (s : State) : Res State :=
  if s.loopGlide && s.underway && s.mayCommand then .next (s.tractionFrame true) else .next s

/-! ## Bounds and inputs (R464, R473, R474) -/

def execBrakeLiftTimeout (c : Nat) (s : State) : Res State :=
  if s.carState c = STARTING then .next (s.carStop c 9 true) else .next s
def execLevellingTimeout (c : Nat) (s : State) : Res State :=
  if s.carState c = LEVELLING ∧ (s.carOf c).dropping = false then .next (s.carStop c 9 false) else .next s
def execRelevellingTimeout (c : Nat) (s : State) : Res State :=
  if s.carState c = RELEVELLING ∧ (s.carOf c).dropping = false then .next (s.carStop c 9 false) else .next s
/-- R474: a final limit input becomes active, or inactive again. -/
def State.finalLimit (s : State) (c : Nat) (top active : Bool) : State :=
  let s := s.wrB (if top then R.CAR_TERMINAL_STATUS_FINAL_TOP c else R.CAR_TERMINAL_STATUS_FINAL_BOTTOM c) active
  if active then s.carStop c 4 true else s
def execFinalLimitInput (c : Nat) (top active : Bool) (s : State) : Res State :=
  if (s.carRec c).isSome && s.powered then .next (s.finalLimit c top active) else .next s
/-- R473: a terminal slowdown input; its place is checked, and an overspeeding car is stopped. -/
def State.terminalInput (s : State) (c e : Nat) (r : CfgRec) (active : Bool) : State :=
  let s := s.wrB ((R.CAR_TERMINAL_STATUS_TSD_ACTIVE c).bit e) active
  if active = false then s
  else
    let o := 0x50 + 12 * e
    let top := bit (r.u8 (o + 9)) 0
    let x := s.ch c
    let endUm := s.landingUm (s.terminal c top)
    let d : Rat := (((endUm - um x.fused).natAbs : Nat) : Rat) / 1000000
    let lim := r.f32 (o + 4)
    -- while R458 applies the check stands earlier by the slip margin
    let slack : Rat := if 0 < x.left then (x.ds : Rat) / 1000000 else 0
    let s := if (5 / 100 : Rat) < ratAbs (d - (r.f32 o + slack)) then
        (s.wrB (R.CAR_TERMINAL_STATUS_MISMATCH c) true).degrade c else s
    if lim * 103 / 100 < ratAbs x.vel then
      let s := s.carStop c 3 (bit (r.u8 (o + 9)) 1)
      (s.raise Ev.TERMINAL_SLOWDOWN c (s.carData c 3)).flag (R.CAR_EVENT_STATUS_TERMINAL c)
    else s
def execTerminalSlowdownInput (c e : Nat) (active : Bool) (s : State) : Res State :=
  match s.carRec c with
  | none => .next s
  | some r => if s.powered && decide (e < 4) then .next (s.terminalInput c e r active) else .next s

/-! ## The car commands (R482) -/

/-- STOP_CAR: a ramped stop, answered at rest. -/
def State.stopCar (q : Nat) (c : Cmd) (s : State) : State :=
  let k := c.inst
  if (s.carRec k).isNone then s.complete q STATE 0
  else if s.carMoves k then (s.modCar k fun x => { x with stopQ := x.stopQ ++ [q] }).carStop k 1 false
  else s.complete q OK 0
def execStopCar (q : Nat) (s : State) : Res State := s.onCmd q CmdCode.stopCarCode (State.stopCar q)
/-- CORRECTION_RUN: at re-level speed to the next vane. -/
def State.correctionRun (q : Nat) (c : Cmd) (s : State) : State :=
  let k := c.inst
  let dir : Int := if u8 c.args 0 = 0 then 1 else -1
  if (s.carRec k).isNone ∨ s.underway = false ∨ s.mayCommand = false then s.complete q STATE 0
  else if s.carState k ≠ IDLE ∨ s.carMode k ≠ SAF_NORMAL ∨ s.mayStart k = false then s.complete q 0x0B10 0
  else
    let s := (s.dropTarget k).modCar k fun x => { x with corr := some (q, dir, (s.ch k).count) }
    s.startCar k dir
def execCorrectionRun (q : Nat) (s : State) : Res State := s.onCmd q CmdCode.correctionRunCode (State.correctionRun q)
/-- R717: CLEAR_COUNTERS of a car. -/
def execCarClearCounters (sess key c : Nat) (s : State) : Res State :=
  if s.keyed sess key && decide (c < 8) then .next (s.clearCounters (0xB0000 + 0x1000 * c) 0x1000) else .next s

end Sys2Proof.Machine
end

