-- ==== Sys2Proof/Machine/ConnOps.lean ====
section
/-!
DEFINITION. The safety layer over ordinary networks (R549 to R566): units, check values, the two ends of a connection.
-/
namespace Sys2Proof.Machine
open Sys2Proof

def Conn.fresh : Conn := ⟨1, 0, 0, 0, 0, [], 0, 0, [], [], 0⟩
def State.conn (s : State) (k : Nat) : Conn := tgetD s.saf.conns k Conn.fresh
def State.modConn (s : State) (k : Nat) (f : Conn → Conn) : State := s.modSaf fun x => { x with conns := tput x.conns k (f (s.conn k)) }
/-- The CONNECTION record of a slot (R563). -/
def State.connRec (s : State) (k : Nat) : Option CfgRec := (s.cfgAll 9 4).find? fun r => r.u16 0x14 == k
def CfgRec.connN (r : CfgRec) : Nat := r.u8 0x19
def CfgRec.produces (r : CfgRec) : Bool := r.u8 0x16 == 1
/-- The watchdog time expectation in ticks. -/
def CfgRec.watchdog (r : CfgRec) : Nat := 100 * (if r.u16 0x1A = 0 then 100 else r.u16 0x1A)
abbrev CONN_STARTING : Nat := 1
abbrev CONN_CONFIRMING : Nat := 2
abbrev CONN_RUN : Nat := 3
abbrev CONN_FAIL_SAFE : Nat := 4

/-- The check value of a DATA unit (R552). -/
def checkData (ident param seq : Nat) (data : List Byte) : Word := crcSafety (le 4 ident ++ le 4 param ++ le 2 seq ++ data)
/-- The check value of an ECHO unit, over the inverted identity (R552). -/
def checkEcho (ident param seq : Nat) : Word := crcSafety (le 4 (0xFFFFFFFF - ident % 2 ^ 32) ++ le 4 param ++ le 2 seq)
def dataUnit (r : CfgRec) (seq : Nat) (data : List Byte) : List Byte :=
  le 2 seq ++ data ++ le 4 (checkData r.id (r.u32 0x10) seq data).toNat
def echoUnit (r : CfgRec) (seq : Nat) : List Byte := le 2 seq ++ le 4 (checkEcho r.id (r.u32 0x10) seq).toNat
/-- A DATA unit has its length and its check (first row of R554). -/
def dataGood (r : CfgRec) (u : List Byte) : Bool :=
  u.length == r.connN + 6 && u32 u (r.connN + 2) == (checkData r.id (r.u32 0x10) (u16 u 0) ((u.drop 2).take r.connN)).toNat
def echoGood (r : CfgRec) (u : List Byte) : Bool := u.length == 6 && u32 u 2 == (checkEcho r.id (r.u32 0x10) (u16 u 0)).toNat
/-- The signed 16-bit difference of two sequences (R554). -/
def seqDiff (a b : Nat) : Int := (BitVec.ofInt 16 ((a : Int) - (b : Int))).toInt

/-- The connections of remote safety I/O units, by slot (R25), and whether the unit of one is heard: it confirms or runs. -/
def State.remoteUnits (s : State) : List Nat := (s.cfgAll 9 4).map fun r => r.u16 0x14
def State.unitHeard (s : State) (k : Nat) : Bool := let st := (s.conn k).state; st == CONN_CONFIRMING || st == CONN_RUN

/-! ## Transports (R564) -/

/-- The CAN FD payload lengths. -/
def canLen (n : Nat) : Nat := ((List.range 9 ++ [12, 16, 20, 24, 32, 48, 64]).find? fun k => decide (n ≤ k)).getD n
def padTo (n : Nat) (b : List Byte) : List Byte := b ++ List.replicate (n - b.length) 0#8
/-- The identifier of a connection's frame as CAN_TX spells it: one that 11 bits do not hold is an extended one (R590; log 116). -/
def connCanId (v : Nat) : Nat := let id := v % 2 ^ 29; if id < 2048 then id else 2 ^ 31 + id
/-- The Ethernet ports that carry a connection: J2, J3, or both on the PRP pair. -/
def CfgRec.ethPorts (r : CfgRec) : List Nat := if r.u8 0x18 = 2 then [0, 1] else [r.u8 0x18]
/-- A unit sent: `kind` 1 DATA, 2 ECHO. Over a Hawser it is written into the node's window, zero-padded. -/
def State.sendUnit (s : State) (k : Nat) (r : CfgRec) (kind : Nat) (u : List Byte) : State :=
  if !unitBus (r.u8 0x17) (r.u8 0x18) then s
  else match r.u8 0x17 with
  | 0 => s.canSend (r.u8 0x18) (connCanId (r.u32 (if kind = 1 then 0x20 else 0x24))) (padTo (canLen u.length) u)
  | 1 => r.ethPorts.foldl (fun s p => s.sendEth p 4192 (r.u32 0x20) (le 1 kind ++ le 1 0 ++ le 2 k ++ u)) s
  | 2 =>
    let base := 0x2000 + 0x80 * (r.u32 0x24 % 4)
    let (off, words) := if kind = 1 then (0, 18) else (0x48, 2)
    s.request (r.u8 0x18) (r.u32 0x20 % 512) 3 (le 4 (base + off) ++ le 2 words ++ le 2 0 ++ padTo (4 * words) u) .plain
  | _ => s
/-- Over a Hawser the partner's unit is read once per production period. -/
def State.readUnit (s : State) (r : CfgRec) : State :=
  if r.u8 0x17 = 2 then
    let base := 0x2000 + 0x80 * (r.u32 0x24 % 4)
    let (off, words) := if r.produces then (0x48, 2) else (0, 18)
    s.request (r.u8 0x18) (r.u32 0x20 % 512) 2 (le 4 (base + off) ++ le 2 words ++ le 2 0) .plain
  else s

/-! ## States (R557) -/

/-- The connections that are not in RUN (R566). -/
def State.showConns (s : State) : State :=
  s.wr R.SAF_CONNECTIONS_FAILSAFE ((s.cfgAll 9 4).filter fun r => (s.conn (r.u16 0x14)).state != CONN_RUN).length
def State.connTo (s : State) (k st : Nat) : State := (s.modConn k fun x => { x with state := st }).showConns.safety
/-- FAIL_SAFE with its cause (R565, R566). -/
def State.failSafe (s : State) (k cause : Nat) : State :=
  let s := s.modConn k fun x => { x with cause := cause, fails := min 65535 (x.fails + 1), data := [], confirms := 0 }
  (s.connTo k CONN_FAIL_SAFE).raise Ev.CONNECTION_FAILSAFE 0 (le 2 k ++ le 1 cause)
def State.connRuns (s : State) (k : Nat) : State :=
  (s.connTo k CONN_RUN).raise Ev.CONNECTION_RUNNING 0 (le 2 k ++ le 1 0)
/-- A DATA frame is accepted: kept, counted, and echoed. -/
def State.acceptData (s : State) (k : Nat) (r : CfgRec) (u : List Byte) : State :=
  let s := s.modConn k fun x => { x with seq := u16 u 0, last := u, data := (u.drop 2).take r.connN, accepted := (x.accepted + 1) % 2 ^ 32 }
  s.sendUnit k r 2 (echoUnit r (u16 u 0))
/-- A consumer judges a DATA frame (R554, R557). -/
def State.judgeData (s : State) (k : Nat) (r : CfgRec) (u : List Byte) : State :=
  let x := s.conn k
  let d := seqDiff (u16 u 0) x.seq
  if x.state = CONN_FAIL_SAFE then s
  else if dataGood r u = false then s.failSafe k 1
  else if x.state = CONN_STARTING then
    if u16 u 0 = (x.start + 1) % 65536 ∧ x.confirms = 1 then
      ((s.acceptData k r u).modConn k fun y => { y with confirms := 0 }).connTo k CONN_CONFIRMING
    else s
  else if d = 0 ∧ u = x.last then s.modConn k fun y => { y with dups := y.dups + 1 }
  else if 1 ≤ d ∧ d ≤ 3 then
    let s := (s.acceptData k r u).modConn k fun y => { y with confirms := y.confirms + 1 }
    if x.state = CONN_RUN then s.safety
    else if x.confirms + 1 = 2 then s.connRuns k else s
  else if d ≤ 0 then s.failSafe k 2
  else s.failSafe k 3
/-- A producer checks an ECHO (R556, R557): a known sequence is good, any other is a start request. -/
def State.judgeEcho (s : State) (k : Nat) (r : CfgRec) (u : List Byte) : State :=
  let x := s.conn k
  let q := u16 u 0
  let known := x.sent.any fun p => p.1 == q && decide (s.tick < p.2 + r.watchdog)
  if x.state = CONN_FAIL_SAFE then s
  else if echoGood r u = false then s.failSafe k 5
  else if x.state ≠ CONN_STARTING ∧ known = true then
    let s := s.modConn k fun y => { y with confirms := y.confirms + 1 }
    if x.state = CONN_CONFIRMING ∧ x.confirms + 1 = 3 then s.connRuns k else s
  else (s.modConn k fun y => { y with seq := q, start := q, confirms := 0, sent := [] }).connTo k CONN_CONFIRMING
/-- The bits that a producer sends: outputs that both technologies permit (R560), fail-safe values outside RUN (R557). -/
def State.productData (s : State) (k : Nat) (r : CfgRec) : List Byte :=
  if (s.conn k).state = CONN_RUN then
    let both (n : Nat) : Bool := n != 0xFF && bit (s.rd R.SAF_PERMIT_PROC) n && bit (s.rd R.SAF_PERMIT_HW) n
    (List.range r.connN).map fun i =>
      if i < 8 then BitVec.ofNat 8 (((List.range 8).map fun j => if both (r.u8 (0x70 + 8 * i + j)) then 2 ^ j else 0).foldl (· + ·) 0) else 0#8
  else (r.body.drop 0x30).take r.connN
/-- A frame that the technologies would build differently is withheld and not replaced (R560). -/
def State.withheld (s : State) (r : CfgRec) : Bool := s.saf.held.any fun n => (List.range (min 64 (8 * r.connN))).any fun j => r.u8 (0x70 + j) == n
/-- One production period (R553, R557, R564). -/
def State.producePeriod (s : State) (k : Nat) (r : CfgRec) : State :=
  let s := s.readUnit r
  let x := s.conn k
  if r.produces then
    if x.state = CONN_CONFIRMING ∨ x.state = CONN_RUN then
      let q := (x.seq + 1) % 65536
      let s := s.modConn k fun y => { y with seq := q, sent := (q, s.tick) :: (y.sent.filter fun p => decide (s.tick < p.2 + r.watchdog)) }
      if s.withheld r then s else s.sendUnit k r 1 (dataUnit r q (s.productData k r))
    else s
  else if x.state = CONN_STARTING then
    let (w, s) := s.drawWord
    let q := w.toNat % 65536
    (s.modConn k fun y => { y with start := q, confirms := 1 }).sendUnit k r 2 (echoUnit r q)
  else s

end Sys2Proof.Machine
end

