-- ==== Sys2Proof/Machine/Conn.lean ====
section
/-!
DEFINITION. The rows of the safety layer (R549 to R566). Nothing runs while the safety functions do not evaluate: no
SAFETY section is in force then (R562).
-/
namespace Sys2Proof.Machine
open Sys2Proof

/-- The safety functions evaluate and the ports are up. -/
def State.connUp (s : State) : Bool := s.on R.SAF_STATUS_RUNNING && s.portsUp
/-- What a row does to the connection of a slot, with its record. -/
def State.onConn (s : State) (k : Nat) (f : CfgRec → State) : State :=
  match s.connRec k with
  | some r => if s.connUp then f r else s
  | none => s
/-- A unit has come for a slot: counted where it came by Ethernet; only there can the slot be unknown (R564, R621). -/
def State.countUnit (s : State) (k : Nat) : State :=
  if s.portsUp = false then s
  else match s.connRec k with
  | some r => if r.u8 0x17 = 1 then s.inc R.NET_SAFETY_RX else s
  | none => (s.inc R.NET_SAFETY_RX).inc R.NET_SAFETY_REJECTED
/-- A unit that came by Ethernet with another length than its connection has is counted too (R621). -/
def State.countLength (s : State) (k n : Nat) (u : List Byte) : State :=
  if s.portsUp && ((s.connRec k).any fun r => r.u8 0x17 == 1 && u.length != n) then s.inc R.NET_SAFETY_REJECTED else s
def State.dataArrives (s : State) (k : Nat) (u : List Byte) : State :=
  let s := (s.countUnit k).countLength k ((s.connRec k).elim 0 fun r => r.connN + 6) u
  s.onConn k fun r => if r.produces then s else s.judgeData k r u
def State.echoArrives (s : State) (k : Nat) (u : List Byte) : State :=
  let s := (s.countUnit k).countLength k 6 u
  s.onConn k fun r => if r.produces then s.judgeEcho k r u else s
def execSafetyDataFrame (slot : Nat) (data : List Byte) (s : State) : Res State := .next (s.dataArrives slot data)
def execSafetyEchoFrame (slot : Nat) (data : List Byte) (s : State) : Res State := .next (s.echoArrives slot data)
def execSafetyProductionPeriod (slot : Nat) (s : State) : Res State :=
  .next (s.onConn slot fun r => s.producePeriod slot r)
/-- The connection is CONFIRMING or in RUN: its watchdog or its echo time runs. -/
def State.connTimed (s : State) (k : Nat) : Bool := (s.conn k).state == CONN_CONFIRMING || (s.conn k).state == CONN_RUN
def execConsumerWatchdogExpiry (slot : Nat) (s : State) : Res State :=
  .next (s.onConn slot fun r => if !r.produces && s.connTimed slot then s.failSafe slot 4 else s)
def execEchoLateTimeout (slot : Nat) (s : State) : Res State :=
  .next (s.onConn slot fun r => if r.produces && s.connTimed slot then s.failSafe slot 6 else s)
def execFailSafeHoldExpiry (slot : Nat) (s : State) : Res State :=
  .next (s.onConn slot fun _ => if (s.conn slot).state = CONN_FAIL_SAFE then s.connTo slot CONN_STARTING else s)
/-- R565. -/
def State.connectionRead (q : Nat) (c : Cmd) (s : State) : State :=
  let k := u16 c.args 0
  if (s.connRec k).isNone then s.complete q STATE 0
  else
    let x := s.conn k
    s.complete q OK (x.state + 16 * x.state + 256 * x.cause + 65536 * x.fails + 2 ^ 32 * x.accepted)
def execConnectionRead (q : Nat) (s : State) : Res State := s.onCmd q CmdCode.connectionReadCode (State.connectionRead q)

end Sys2Proof.Machine
end

