-- ==== Sys2Proof/Machine/Saf.lean ====
section
/-!
DEFINITION. The rows of the safety functions (R513 to R548).
-/
namespace Sys2Proof.Machine
open Sys2Proof

/-- The safety functions evaluate. -/
def State.safUp (s : State) : Bool := s.on R.SAF_STATUS_RUNNING
/-- Both technologies evaluate anew, where they run, with what it means to cars and doors. -/
def State.reSafe (s : State) : State := if s.safUp then s.safety.serveCars else s

/-! ## Inputs (R517 to R519, R523) -/

/-- How far a shorted channel has come: the input released, and actuated again (R518). -/
def stuckStep (high : Bool) (x : Nat × Nat) : Nat × Nat :=
  if high = false then (x.1, if x.2 = 0 then 1 else x.2) else (x.1, if x.2 = 1 then 2 else x.2)
/-- The fault of a shorted channel ends after 3 off-pulses followed and a release and an actuation (R518). -/
def stuckEnd (o : Option (Nat × Nat)) : Option (Nat × Nat) :=
  match o with
  | some x => if 3 ≤ x.1 ∧ x.2 = 2 then none else some x
  | none => none
def SafIn.level (x : SafIn) (high : Bool) : SafIn := ⟨high, stuckEnd (x.stuck.map (stuckStep high))⟩
/-- The terminal 32 stands for the commissioning key switch on J17. -/
def State.safInput (s : State) (i : Nat) (high : Bool) : State :=
  if i = 32 then s.wrB R.SAF_STATUS_KEY_SWITCH high
  else if i < 32 then (s.modIn i fun x => x.level high).reSafe
  else s
def execSafetyInputChange (i : Nat) (high : Bool) (s : State) : Res State := .next (s.safInput i high)
/-- A channel that takes its supply from a test-pulse source (R518). -/
def State.pulsed (s : State) (src : Nat) : List Nat := ((s.cfgAll 9 2).filter fun r => r.u8 0x12 == src && r.u8 0x10 < 3).map (·.id)
def State.testPulse (s : State) (src : Nat) (high : List Nat) : State :=
  let s := s.wrB (R.SAF_PULSE_STATUS_RUNNING.bit src) true
  let s := (s.pulsed src).foldl (fun s i =>
    if high.contains i then
      let fresh := (s.safIn i).stuck.isNone
      let s := s.modIn i fun x => { x with stuck := some (0, 0) }
      if fresh then s.inputFault i else s
    else s.modIn i fun x => { x with stuck := stuckEnd (x.stuck.map fun p => (p.1 + 1, p.2)) }) s
  s.reSafe
def execTestPulse (src : Nat) (high : List Nat) (s : State) : Res State :=
  .next (if s.safUp && decide (src < 4) then s.testPulse src high else s)
def execInputDiscrepancyTimeout (n : Nat) (s : State) : Res State :=
  .next (if s.safUp && s.disagrees n && !s.saf.disc.contains n then
    ((s.modSaf fun x => { x with disc := n :: x.disc }).inputFault n).reSafe else s)

/-! ## Requests (R515) -/

def execRunRequestToggle (n : Nat) (s : State) : Res State :=
  .next (if s.safUp && decide (n < 24) then (s.wrB (R.SAF_REQUEST.bit n) true).reSafe else s)
/-- A request lost while the output is on is a trip, cause RUN_REQUEST_LOST. -/
def execRunRequestLost (n : Nat) (s : State) : Res State :=
  .next (if s.safUp && decide (n < 24) && bit (s.rd R.SAF_REQUEST) n then
    let s' := s.wrB (R.SAF_REQUEST.bit n) false
    (if s.outOn n then s'.safTrip (n / 3) n 10 else s').reSafe else s)

/-! ## External device monitoring (R531, R532) -/

/-- A failed EDM check: the path is faulted; a second path of the car latches it. -/
def State.edmFail (s : State) (n : Nat) : State :=
  let c := n / 3
  let more := s.rd R.SAF_EDM_FAULT / 2 ^ (3 * c) % 8 != 0
  let s := (s.wrB (R.SAF_EDM_FAULT.bit n) true).modSaf fun x => { x with edm := tdel x.edm n }
  let s := s.flag R.SAF_EVENT_STATUS_EDM_FAULT
  (if more then s.latchCar c 9 else (s.snowplough c 9).snowStart c).reSafe
def State.edmNeeded (s : State) (n : Nat) : Bool := s.safUp && (s.cfg 9 3 n).any fun r => bit (r.u8 0x12) 0
def execEdmTimeout (n : Nat) (s : State) : Res State :=
  .next (if s.edmNeeded n && (tget s.saf.edm n).isSome then s.edmFail n else s)
/-- A change while no answer is awaited. -/
def execEdmChange (n : Nat) (engaged : Bool) (s : State) : Res State :=
  .next (if s.edmNeeded n && (tget s.saf.edm n).isNone && bit (s.rd R.SAF_EDM_STATE) n != engaged then
    (s.wrB (R.SAF_EDM_STATE.bit n) engaged).edmFail n else s)
/-- The contactor answers in time: the time of MAIN or BRAKE is kept, the brake is lifted or applied. A loop fault report
ends once the car stands with its brake applied (R524). -/
def State.edmAnswer (s : State) (n : Nat) (engaged : Bool) (ms : Nat) : State :=
  let c := n / 3
  let s := (s.wrB (R.SAF_EDM_STATE.bit n) engaged).modSaf fun x => { x with edm := tdel x.edm n }
  let s := if n % 3 = 0 then s.wr (R.SAF_CAR_EDM_TIME_MAIN_MS c) ms else if n % 3 = 1 then s.wr (R.SAF_CAR_EDM_TIME_BRAKE_MS c) ms else s
  let s := s.safEval
  let s := if n % 3 = 1 then (if engaged then s.brakeOpen c else (s.modSafCar c fun x => { x with loopRep := false }).brakeApplied c) else s
  s.reSafe
def execEdmResponse (n : Nat) (engaged : Bool) (ms : Nat) (s : State) : Res State :=
  .next (if s.safUp && tget s.saf.edm n == some engaged then s.edmAnswer n engaged ms else s)

/-! ## The technologies (R532, R534 to R536) -/

/-- The state field of a technology: 0 the safety processor, 1 the hard-wired logic. -/
def techField (t : Nat) : Fld := if t = 0 then R.SAF_TECH_STATUS_PROC_STATE else R.SAF_TECH_STATUS_HW_STATE
/-- A technology is faulted: it becomes a follower of the other, or both are faulted (R536). -/
def State.techFault (s : State) (t : Nat) : State :=
  if s.rd (techField t) = 3 ∨ s.rd (techField t) = 4 then s
  else
    let s := (s.wrB (if t = 0 then R.SAF_STATUS_PROC_OK else R.SAF_STATUS_HW_OK) false).flag R.SAF_EVENT_STATUS_TECH_FAULT
    let other := s.rd (techField (1 - t))
    let s := if other = 2 then
        s.cars.foldl (fun s c => (s.snowplough c 13).snowStart c) (s.wr (techField t) 4)
      else s.cars.foldl (fun s c => s.latchCar c 13) ((s.wr (techField t) 3).wr (techField (1 - t)) 3)
    s.reSafe
/-- Both technologies' outputs: a switch that fails its read-back faults its technology. -/
def execSwitchTest (tech n : Nat) (ok : Bool) (s : State) : Res State :=
  .next (if s.safUp && decide (tech < 2) && decide (n < 24) && !ok then s.techFault tech else s)
def execTechSelftest (tech : Nat) (ok : Bool) (s : State) : Res State :=
  .next (if s.safUp && decide (tech < 2) && !ok then s.techFault tech else s)
def execTechHeartbeatLoss (tech : Nat) (s : State) : Res State :=
  .next (if s.safUp && decide (tech < 2) then s.techFault tech else s)
def execOscillatorOrSupplyMonitorTrip (tech : Nat) (s : State) : Res State :=
  .next (if s.safUp && decide (tech < 2) then s.techFault tech else s)
/-- R535: the outputs concerned stay off until the diagnostic ends. -/
def execPermitMismatch (outs : List Nat) (s : State) : Res State :=
  .next (if s.safUp then ((s.inc R.SAF_XCOMP_MISMATCHES).modSaf fun x => { x with held := (x.held ++ outs.filter fun n => decide (n < 24)).eraseDups }).reSafe else s)
/-- The diagnostic finds the safety processor (1), the hard-wired logic (2) or neither (0) at fault. -/
def State.diagnosed (s : State) (finding : Nat) : State :=
  let s := s.modSaf fun x => { x with held := [] }
  match finding with
  | 1 => s.techFault 0
  | 2 => s.techFault 1
  | _ => ((s.cars.foldl (fun s c => s.latchCar c 14) s).flag R.SAF_EVENT_STATUS_TECH_FAULT).reSafe
def execMismatchDiagnosticDone (finding : Nat) (s : State) : Res State :=
  .next (if s.safUp && !s.saf.held.isEmpty then s.diagnosed finding else s)

/-! ## Speed, sources and movement (R525 to R527, R539) -/

def State.safKnows (s : State) (c : Nat) : Bool := s.safUp && s.cars.contains c
/-- The limit in force is exceeded: cause OVERSPEED, or BYPASS_SPEED while BYPASS is energised. -/
def execSpeedLimitExceeded (c : Nat) (mps : Rat) (s : State) : Res State :=
  .next (if s.safKnows c && decide ((s.speedLimit c).1 < mps) then
    (s.modSafCar c fun x => { x with excess := if s.outOn (3 * c + 2) then 8 else 5 }).reSafe else s)
/-- One source faulted: SNOWPLOUGH; both: SAFE_LATCHED. -/
def State.safSource (s : State) (c : Nat) (tape enc : Bool) : State :=
  let t := tape || s.on (R.SAF_CAR_STATUS_TAPE_FAULT c)
  let e := enc || s.on (R.SAF_CAR_STATUS_ENC_FAULT c)
  let s := (s.wrB (R.SAF_CAR_STATUS_TAPE_FAULT c) t).wrB (R.SAF_CAR_STATUS_ENC_FAULT c) e
  (if t && e then s.latchCar c 12 else (s.snowplough c 12).snowStart c).reSafe
def execPositionSourceFault (c : Nat) (tape enc : Bool) (s : State) : Res State :=
  .next (if s.safKnows c && (tape || enc) then s.safSource c tape enc else s)
/-- Movement with the brake applied: beyond the UCM distance with a door in demand, beyond 0.05 m with the circuit closed. -/
def State.movedStill (s : State) (c : Nat) (moved : Rat) : State :=
  let s := s.wrR (R.SAF_CAR_STANDSTILL_MOVE c) moved
  let closed := s.kindClear c 2 && s.kindClear c 3
  if closed = false ∧ cfgR (s.monitor c) 0x28 (1 / 10) < ratAbs moved then
    ((s.modSafCar c fun x => { x with ucm := true }).latchCar c 6).reSafe
  else if closed = true ∧ 5 / 100 < ratAbs moved then
    ((s.modSafCar c fun x => { x with slip := true }).latchCar c 7).reSafe
  else s
def execUnintendedMovement (c : Nat) (moved : Rat) (s : State) : Res State :=
  .next (if s.safKnows c && !s.outOn (3 * c + 1) && (s.safCar c).brakeAt.isSome then s.movedStill c moved else s)
def execSnowploughTimeout (c : Nat) (s : State) : Res State :=
  .next (if s.safKnows c && s.carMode c == SNOWPLOUGH then (s.latchCar c 15).reSafe else s)

/-! ## Confirming the safety check value (R541 to R543) -/

abbrev TEN_MINUTES : Nat := 60000000
/-- The refusals of R543, judged in the order of state, role, key switch and lockout; 0 none. -/
def State.confirmRefusal (s : State) (sess : Nat) : Nat :=
  if s.underway = false then 7
  else if s.holds sess 0x14 = false then 4
  else if s.keySwitch = false then 3
  else if s.on R.SAF_STATUS_CONFIRM_LOCKOUT then 5
  else if s.rd R.SAF_CHECK_PROC ≠ s.rd R.SAF_CHECK_HW then 6
  else if s.rd R.SAF_CONFIRM_VALUE ≠ s.rd R.SAF_CHECK_PROC then 2
  else 0
def State.confirmRefused (s : State) (why : Nat) : State :=
  let s := ((s.wr R.SAF_CONFIRM_STATUS_RESULT why).raise Ev.CONFIRM_REFUSED 0 (le 1 0xFF ++ le 1 0xFF ++ le 1 why)).flag R.SAF_EVENT_STATUS_CONFIRM_REFUSED
  if why = 2 then
    let l := s.tick :: (s.saf.wrong.filter fun t => decide (s.tick < t + TEN_MINUTES))
    let s := (s.modSaf fun x => { x with wrong := l }).wr R.SAF_CONFIRM_STATUS_FAILS (min 3 l.length)
    if 3 ≤ l.length then
      (s.wrB R.SAF_STATUS_CONFIRM_LOCKOUT true).recordBit R.SAF_EVENT_STATUS_CONFIRM_REFUSED
    else s
  else s
def State.confirmed (s : State) (sess : Nat) : State :=
  let v := s.rd R.SAF_CHECK_PROC
  let serial := (s.session sess).elim 0 (·.serial)
  let s := ((s.wr R.SAF_CONFIRM_STATUS_RESULT 1).wr R.MAN_SAFETY_CONFIRMED v).inc R.SAF_CONFIRM_COUNT
  let s := (s.wrB R.MAN_STATUS_SAFETY_UNCONFIRMED false).wrB R.SAF_STATUS_UNCONFIRMED false
  let d := le 4 v ++ le 8 serial ++ le 4 s.opSec ++ le 4 (s.rd R.PWR_POWER_CYCLES)
  ((s.raise Ev.SAFETY_CONFIRMED 0 d).flag R.SAF_EVENT_STATUS_CONFIRMED).reSafe
/-- R542: CONFIRM with KEY 0xA5; a write without it is ignored (R548). -/
def execSafetyConfirm (sess key : Nat) (s : State) : Res State :=
  .next (if key = 0xA5 ∧ s.isOpen sess = true then
    (if s.confirmRefusal sess = 0 then s.confirmed sess else s.confirmRefused (s.confirmRefusal sess)) else s)
def execConfirmLockoutExpiry (s : State) : Res State :=
  .next (if s.on R.SAF_STATUS_CONFIRM_LOCKOUT then
    ((s.wrB R.SAF_STATUS_CONFIRM_LOCKOUT false).modSaf fun x => { x with wrong := [] }).wr R.SAF_CONFIRM_STATUS_FAILS 0 else s)

/-! ## SAF_CONTROL (R544, R717) -/

def State.safKeyed (s : State) (sess key : Nat) : Bool := s.keyed sess key && s.keySwitch && s.safUp
/-- RESET_FUNCTION: a latched function whose input is clear becomes clear. -/
def execResetFunction (sess key fn : Nat) (s : State) : Res State :=
  .next (match s.cfg 9 1 fn with
    | some r => if s.safKeyed sess key && (s.safFn fn).state == 3 && s.fnInput r == 1 then
        (s.modSaf fun z => { z with fns := tput z.fns fn { s.safFn fn with state := 1 } }).reSafe else s
    | none => s)
/-- Every cause of a latched car is cleared (R544): its faulted source and EDM path are healthy again, both technologies
run; UCM and brake slip are reset by the acknowledgement itself. -/
def State.repairable (s : State) (c : Nat) (srcOk edmOk : Bool) : Bool :=
  let src := s.on (R.SAF_CAR_STATUS_TAPE_FAULT c) || s.on (R.SAF_CAR_STATUS_ENC_FAULT c)
  let edm := s.rd R.SAF_EDM_FAULT / 2 ^ (3 * c) % 8 != 0
  (!src || srcOk) && (!edm || edmOk) && s.rd (techField 0) == 2 && s.rd (techField 1) == 2
def State.repaired (s : State) (c : Nat) : State :=
  let s := (s.wrB (R.SAF_CAR_STATUS_TAPE_FAULT c) false).wrB (R.SAF_CAR_STATUS_ENC_FAULT c) false
  let s := s.wr (R.SAF_EDM_FAULT.part (3 * c) 3) 0
  let s := s.modSafCar c fun x => { x with ucm := false, slip := false, excess := 0, brakeAt := none, runEnded := false }
  let s := (s.wr (R.SAF_CAR_MODE_MODE c) SAF_NORMAL).wr (R.SAF_CAR_MODE_CAUSE c) 0
  (s.raise Ev.REPAIR_ACKNOWLEDGED 0 (le 1 c ++ le 1 255 ++ le 1 0)).showModes.reSafe
def execRepairAck (sess key c : Nat) (srcOk edmOk : Bool) (s : State) : Res State :=
  .next (if s.safKeyed sess key && s.safKnows c && s.carMode c == LATCHED && s.repairable c srcOk edmOk then s.repaired c else s)
def execSafClearCounters (sess key : Nat) (s : State) : Res State :=
  .next (if s.keyed sess key then s.clearCounters 0xE0000 0x1000 else s)

end Sys2Proof.Machine
end

