-- ==== Sys2Proof/Machine/Fio.lean ====
section
/-!
DEFINITION. Isolated field inputs and outputs (R567 to R586) and their rows. The field side's filtered states,
currents and time bounds are what the rows bring.
-/
namespace Sys2Proof.Machine
open Sys2Proof

def State.modFio (s : State) (f : Fio → Fio) : State := { s with fio := f s.fio }
def State.fioIn (s : State) (i : Nat) : FioIn := tgetD s.fio.ins i ⟨false, 0, 0⟩
def State.modFioIn (s : State) (i : Nat) (f : FioIn → FioIn) : State := s.modFio fun x => { x with ins := tput x.ins i (f (s.fioIn i)) }
def State.fioOut (s : State) (n : Nat) : FioOut := tgetD s.fio.outs n ⟨0, [], 0, 0, 0⟩
def State.modFioOut (s : State) (n : Nat) (f : FioOut → FioOut) : State := s.modFio fun x => { x with outs := tput x.outs n (f (s.fioOut n)) }
/-- FIELD_INPUT and FIELD_OUTPUT records (R571, R576). -/
def State.finRec (s : State) (i : Nat) : Option CfgRec := s.cfg 11 1 i
def State.foutRec (s : State) (n : Nat) : Option CfgRec := s.cfg 11 2 n
/-- Bit `i` of a pair of registers, low word first. -/
def bitOf64 (lo hi : Fld) (i : Nat) : Fld := if i < 32 then lo.bit i else hi.bit (i - 32)
def State.fioRuns (s : State) : Bool := s.on R.FIO_STATUS_RUNNING

/-! ## Inputs (R570 to R573) -/

def State.broken (s : State) (i : Nat) : Bool := s.on (bitOf64 R.FIO_WIRE_BREAK_LO R.FIO_WIRE_BREAK_HI i)
/-- INVERT (R571), which acts on the filtered state. -/
def State.inverted (s : State) (i : Nat) : Bool := (s.finRec i).any fun r => bit (r.u8 0x11) 1
/-- What an input reads: off without the link, its break value while broken. -/
def State.inputReads (s : State) (i : Nat) : Bool :=
  s.fioRuns && !s.on R.FIO_FIELD_STATUS_LINK_LOST &&
    (if s.broken i then (s.finRec i).any fun r => bit (r.u8 0x11) 3 else (s.fioIn i).filt != s.inverted i)
/-- An input shown; the reopen inputs of doors follow it (R503). -/
def State.showInput (s : State) (i : Nat) : State :=
  let f := bitOf64 R.FIO_IN_LO R.FIO_IN_HI i
  let v := s.inputReads i
  if s.on f = v then s
  else
    let s := s.wrB f v
    s.doors.foldl (fun s d => if (s.doorRec d).any fun r => r.u8 0x5A == i then s.reopenInput d v else s) s
def State.showAllInputs (s : State) : State := (List.range 64).foldl State.showInput s

/-! ## Outputs (R575 to R581) -/

def State.outBit (s : State) (f : Fld) (n : Nat) : Bool := bit (s.rd f) n
/-- The state that an output takes: its command, or its silence value, where nothing holds it off. -/
def State.outputWants (s : State) (n : Nat) : Bool :=
  let cmd := s.outBit R.FIO_OUT_COMMAND n
  let hold := (s.foutRec n).any fun r => bit (r.u8 0x11) 0
  (if s.outBit R.FIO_OUT_SILENT n then cmd && hold else cmd) && (s.foutRec n).isSome && s.fioRuns &&
    s.on R.FIO_STATUS_OUTPUTS_ENABLED && !s.on R.FIO_FIELD_STATUS_LINK_LOST && !bit (s.rd R.FIO_FIELD_STATUS_LPLUS_LOW) (n / 8) &&
    !s.outBit R.FIO_OUT_FAULT n && !s.outBit R.FIO_OUT_FAULT_LATCH n && !s.outBit R.FIO_DEMAG_HOLD n
def State.driveOut (s : State) (n : Nat) : State :=
  let w := s.outputWants n
  if s.outBit R.FIO_OUT_STATE n = w then s
  else
    let s := s.wrB (R.FIO_OUT_STATE.bit n) w
    if w then s.modFioOut n fun x => { x with onAt := s.tick } else s
def State.driveOuts (s : State) : State := (List.range 32).foldl State.driveOut s
/-- An owner's command, which is a refresh and ends a silence (R577). -/
def State.commandOut (s : State) (n : Nat) (v : Bool) : State :=
  ((s.wrB (R.FIO_OUT_COMMAND.bit n) v).wrB (R.FIO_OUT_SILENT.bit n) false).driveOut n
def State.outOwner (s : State) (n : Nat) : Nat := (s.foutRec n).elim 255 (·.u8 0x10)
/-- A latch, with its recorder entry. -/
def State.latchOut (s : State) (n : Nat) : State :=
  (s.wrB (R.FIO_OUT_FAULT_LATCH.bit n) true).record s.writer Ev.OUTPUT_FAULT.code 0 (le 1 n ++ le 1 (s.fioOut n).cause)
/-- A switch-off by protection (R578). -/
def State.tripOut (s : State) (n cause : Nat) (latched : Bool) : State :=
  let s := ((s.modFioOut n fun x => { x with cause := cause }).wrB (R.FIO_OUT_FAULT.bit n) true).inc R.FIO_OUT_TRIPS
  let s := (s.post Ev.OUTPUT_FAULT.queue Ev.OUTPUT_FAULT.code 0 (le 1 n ++ le 1 cause)).flag R.FIO_EVENT_STATUS_OUTPUT_FAULT
  (if latched then s.latchOut n else s).driveOut n
/-- Latches cleared: the outputs take their commanded state again. -/
def State.clearLatches (s : State) (mask : Nat) : State :=
  (List.range 32).foldl (fun s n =>
    if bit mask n && s.outBit R.FIO_OUT_FAULT_LATCH n then
      (((s.wrB (R.FIO_OUT_FAULT_LATCH.bit n) false).wrB (R.FIO_OUT_FAULT.bit n) false).modFioOut n fun x => { x with retries := [] }).driveOut n
    else s) s
/-- What the firmware commands an output to: a load-shed output opens while the plant sheds; another follows the value that
the firmware has stated for its function item. -/
def State.firmwareOut (s : State) (n : Nat) (r : CfgRec) : Bool :=
  if bit (cfgD (s.cfg 8 4 0) (fun (r : CfgRec) => r.u32 0x38) 0) n then !s.on R.PLT_EVAC_STATUS_SHEDDING
  else match (s.cfgAll 2 1).find? fun (g : CfgRec) => g.writerKind == 2 && g.writer == r.u16 0x14 with
    | some g => decide (((s.voted g.id).getD 0#32).toNat % 2 ^ 31 ≠ 0)
    | none => false
/-- An open session holds the operator role (R577). -/
def State.operatorOpen (s : State) : Bool := s.hq.sessions.any fun p => s.isOpen p.1 && s.holds p.1 2
/-- The refresh of firmware outputs, and of host outputs while a session with the operator role is open. -/
def State.refreshOuts (s : State) : State :=
  (List.range 32).foldl (fun s n => match s.foutRec n with
    | none => s
    | some r =>
      if r.u8 0x10 = 0 then s.commandOut n (s.firmwareOut n r)
      else if r.u8 0x10 = 2 ∧ s.operatorOpen = true then s.commandOut n (s.outBit R.FIO_OUT_COMMAND n) else s) s
/-- The loop engine's outputs take the latched values of destination 5 (R576, R577). -/
def State.loopOuts (s : State) : State :=
  (List.range 32).foldl (fun s n =>
    if s.outOwner n = 1 then s.commandOut n (decide ((s.latched 5 n).toNat % 2 ^ 31 ≠ 0)) else s) s
/-- What the manifest gives the block (R570, R571, R576): groups, wire-break inputs and owners. -/
def State.fioLoad (s : State) : State :=
  let s := (List.range 8).foldl (fun s g =>
    let l := (List.range 8).filterMap fun i => s.finRec (8 * g + i)
    let s := s.wr (R.FIO_IN_GROUP_TYPE g) ((l.head?).elim 3 (·.u8 0x10))
    s.wr (R.FIO_IN_GROUP_WIRE_BREAK_ENABLED g)
      ((l.map fun r => if bit (r.u8 0x11) 0 then 2 ^ (r.id % 8) else 0).foldl (· + ·) 0)) s
  s.wr R.FIO_OUT_HOST_MASK (((List.range 32).map fun n => if s.outOwner n = 2 then 2 ^ n else 0).foldl (· + ·) 0)

/-! ## Rows: link and supplies (R568, R569) -/

/-- A frame: raw input states, L+ in mV and the summed current in mA of each output group, output currents in mA and input
currents in units of 10 µA. -/
def State.fieldFrame (s : State) (raw : Nat) (lplus sums outMa : List Nat) (inCur : List (Nat × Nat)) : State :=
  let s := (s.wr R.FIO_IN_RAW_LO raw).wr R.FIO_IN_RAW_HI (raw / 2 ^ 32)
  let s := (lplus.zipIdx).foldl (fun s p => if p.2 < 4 then s.wr (R.FIO_LPLUS p.2) (min 65535 p.1) else s) s
  let s := (sums.zipIdx).foldl (fun s p => if p.2 < 4 then s.wr (R.FIO_GROUP_CURRENT p.2) (min 65535 p.1) else s) s
  let s := (outMa.zipIdx).foldl (fun s p => if p.2 < 32 then s.modFioOut p.2 fun x => { x with current := min 4095 p.1 } else s) s
  inCur.foldl (fun s p => if p.1 < 64 then s.modFioIn p.1 fun x => { x with current := min 1023 p.2 } else s) s
def execFieldLinkFrame (raw : Nat) (lplus sums outMa : List Nat) (inCur : List (Nat × Nat)) (s : State) : Res State :=
  .next (if s.fioRuns then s.fieldFrame raw lplus sums outMa inCur else s)
def State.linkLost (s : State) : State :=
  let s := s.wrB R.FIO_FIELD_STATUS_LINK_LOST true
  ((s.raise Ev.FIELD_LINK_LOST 0 (le 1 0 ++ le 1 0)).flag R.FIO_EVENT_STATUS_LINK_LOST).showAllInputs.driveOuts
def execFieldLinkLost (s : State) : Res State :=
  .next (if s.fioRuns && !s.on R.FIO_FIELD_STATUS_LINK_LOST then s.linkLost else s)
def execFieldLinkResume (s : State) : Res State :=
  .next (if s.fioRuns && s.on R.FIO_FIELD_STATUS_LINK_LOST then (s.wrB R.FIO_FIELD_STATUS_LINK_LOST false).showAllInputs.driveOuts else s)
def execLplusLow (k : Nat) (s : State) : Res State :=
  .next (if s.fioRuns && decide (k < 4) && !bit (s.rd R.FIO_FIELD_STATUS_LPLUS_LOW) k then
    let s := s.wrB (R.FIO_FIELD_STATUS_LPLUS_LOW.bit k) true
    ((s.raise Ev.LPLUS_LOW 0 (le 1 k ++ le 1 0)).flag R.FIO_EVENT_STATUS_LPLUS_LOW).driveOuts else s)
def execLplusRestored (k : Nat) (s : State) : Res State :=
  .next (if s.fioRuns && decide (k < 4) && bit (s.rd R.FIO_FIELD_STATUS_LPLUS_LOW) k then
    (s.wrB (R.FIO_FIELD_STATUS_LPLUS_LOW.bit k) false).driveOuts else s)

/-! ## Rows: inputs (R572, R573) -/

/-- The filtered state of an input changes to `high`; what it reads is that state as INVERT has it. -/
def State.inputFlips (s : State) (i : Nat) (high : Bool) : State :=
  let v := high != s.inverted i
  let s := s.modFioIn i fun x => { x with filt := high, edges := (x.edges + 1) % 2 ^ 32 }
  let s := if (s.finRec i).any fun r => bit (r.u8 0x11) 2 then s.raise Ev.INPUT_CHANGED 0 (le 1 i ++ le 1 (b2n v)) else s
  (s.acqSource 4 i v (30000 * s.tick)).showInput i
def execFieldInputChange (i : Nat) (high : Bool) (s : State) : Res State :=
  .next (if s.fioRuns && decide (i < 64) && (s.fioIn i).filt != high then s.inputFlips i high else s)
def State.wireBreak (s : State) (i : Nat) : State :=
  let s := (s.wrB (bitOf64 R.FIO_WIRE_BREAK_LO R.FIO_WIRE_BREAK_HI i) true).wrB (bitOf64 R.FIO_WIRE_BREAK_LATCH_LO R.FIO_WIRE_BREAK_LATCH_HI i) true
  (((s.inc R.FIO_BREAKS).raise Ev.WIRE_BREAK 0 (le 1 i ++ le 1 1)).flag R.FIO_EVENT_STATUS_WIRE_BREAK).showInput i
def execWireBreak (i : Nat) (s : State) : Res State :=
  .next (if s.fioRuns && decide (i < 64) && ((s.finRec i).any fun r => bit (r.u8 0x11) 0) && !s.broken i then s.wireBreak i else s)
def State.wireRestored (s : State) (i : Nat) : State :=
  let s := s.wrB (bitOf64 R.FIO_WIRE_BREAK_LO R.FIO_WIRE_BREAK_HI i) false
  ((s.raise Ev.WIRE_RESTORED 0 (le 1 i ++ le 1 0)).flag R.FIO_EVENT_STATUS_WIRE_RESTORED).showInput i
def execWireRestored (i : Nat) (s : State) : Res State :=
  .next (if s.fioRuns && decide (i < 64) && s.broken i then s.wireRestored i else s)

/-! ## Rows: output protection (R578 to R581) -/

def State.outIsOn (s : State) (n : Nat) : Bool := s.fioRuns && decide (n < 32) && s.outBit R.FIO_OUT_STATE n
def execOutputShort (n : Nat) (s : State) : Res State := .next (if s.outIsOn n then s.tripOut n 1 true else s)
def execOutputOverload (n : Nat) (s : State) : Res State := .next (if s.outIsOn n then s.tripOut n 2 false else s)
def execOutputThermal (n : Nat) (s : State) : Res State := .next (if s.outIsOn n then s.tripOut n 3 false else s)
/-- The retry 1 s after an overload or thermal switch-off; the third within 60 s latches the output instead. -/
def State.retryOut (s : State) (n : Nat) : State :=
  let l := s.tick :: ((s.fioOut n).retries.filter fun t => decide (s.tick < t + 6000000))
  let s := s.modFioOut n fun x => { x with retries := l }
  if 3 ≤ l.length then s.latchOut n else (s.wrB (R.FIO_OUT_FAULT.bit n) false).driveOut n
def execOutputRetry (n : Nat) (s : State) : Res State :=
  .next (if s.fioRuns && decide (n < 32) && s.outBit R.FIO_OUT_FAULT n && !s.outBit R.FIO_OUT_FAULT_LATCH n then s.retryOut n else s)
/-- The on output of a group that was most recently switched on (R579). -/
def State.lastOn (s : State) (k : Nat) : Option Nat :=
  ((List.range 8).map (8 * k + ·)).foldl (fun b n =>
    if s.outBit R.FIO_OUT_STATE n && b.all fun m => decide ((s.fioOut m).onAt ≤ (s.fioOut n).onAt) then some n else b) none
/-- One output of an overloaded group goes off; the row comes again 10 ms later while the sum stays above 2.5 A, and once
more with the sum that ends the episode. -/
def State.groupOver (s : State) (k ma : Nat) : State :=
  let s := s.wr (R.FIO_GROUP_CURRENT k) (min 65535 ma)
  if ma ≤ 2500 then s.modFio fun x => { x with excess := x.excess.filter fun g => g != k }
  else
    let s := if s.fio.excess.contains k then s
      else (s.modFio fun x => { x with excess := k :: x.excess }).raise Ev.GROUP_OVERLOAD 0 (le 1 k ++ le 1 4)
    match s.lastOn k with
    | some n => s.tripOut n 4 true
    | none => s
def execGroupOverload (k ma : Nat) (s : State) : Res State :=
  .next (if s.fioRuns && decide (k < 4) then s.groupOver k ma else s)
/-- A demagnetisation of `j` joules has ended (R580): the output is held off, and latched above 0.3 J. -/
def State.demagDone (s : State) (n : Nat) (j : Rat) : State :=
  let s := s.modFioOut n fun x => { x with demag := min 65535 (ratRne (j * 1000)).toNat }
  let s := if 0 < j then s.wrB (R.FIO_DEMAG_HOLD.bit n) true else s
  if 3 / 10 < j then s.tripOut n 5 true else s
def execDemagComplete (n : Nat) (j : Rat) (s : State) : Res State :=
  .next (if s.fioRuns && decide (n < 32) && !s.outBit R.FIO_OUT_STATE n then s.demagDone n j else s)
def execDemagHoldEnd (n : Nat) (s : State) : Res State :=
  .next (if s.fioRuns && decide (n < 32) then (s.wrB (R.FIO_DEMAG_HOLD.bit n) false).driveOut n else s)
/-- Open load: by the on current with OPEN_LOAD_ON, by the test current with OPEN_LOAD_OFF. -/
def execOpenLoad (n : Nat) (s : State) : Res State :=
  .next (if s.fioRuns && decide (n < 32) && ((s.foutRec n).any fun r => bit (r.u8 0x11) (if s.outBit R.FIO_OUT_STATE n then 2 else 1)) then
    ((s.wrB (R.FIO_OUT_OPEN_LOAD.bit n) true).raise Ev.OPEN_LOAD 0 (le 1 n ++ le 1 0)).flag R.FIO_EVENT_STATUS_OPEN_LOAD else s)

/-! ## Rows: owners and commands (R577, R583, R717) -/

def execOutputSilenceTimeout (n : Nat) (s : State) : Res State :=
  .next (if s.fioRuns && (s.foutRec n).isSome && decide (n < 32) && !s.outBit R.FIO_OUT_SILENT n && !(s.outOwner n == 2 && s.operatorOpen) then
    ((s.wrB (R.FIO_OUT_SILENT.bit n) true).inc R.FIO_SILENCES).driveOut n else s)
def execFirmwareOutputRefresh (s : State) : Res State :=
  .next (if s.fioRuns && s.on R.FIO_STATUS_OUTPUTS_ENABLED then s.refreshOuts else s)
/-- A host write acts on the outputs that the host owns. -/
def State.hostOuts (s : State) (mask : Nat) (v : Bool) : State :=
  (List.range 32).foldl (fun s n => if bit mask n && s.outBit R.FIO_OUT_HOST_MASK n then s.commandOut n v else s) s
def execFioOutSetWrite (sess mask : Nat) (s : State) : Res State := .next (if s.holds sess 2 then s.hostOuts mask true else s)
def execFioOutClearWrite (sess mask : Nat) (s : State) : Res State := .next (if s.holds sess 2 then s.hostOuts mask false else s)
def execOutputLatchClear (sess mask : Nat) (s : State) : Res State := .next (if s.holds sess 2 then s.clearLatches mask else s)
def State.outputReset (q : Nat) (c : Cmd) (s : State) : State :=
  let m := u32 c.args 0
  (s.clearLatches m).complete q OK (m &&& s.rd R.FIO_OUT_FAULT_LATCH)
def execOutputReset (q : Nat) (s : State) : Res State := s.onCmd q CmdCode.outputResetCode (State.outputReset q)
def execFioClearCounters (sess key : Nat) (s : State) : Res State :=
  .next (if s.keyed sess key then
    (s.clearCounters 0xF0000 0x1000).modFio fun x => { x with ins := x.ins.map fun p => (p.1, { p.2 with edges := 0 }) } else s)

end Sys2Proof.Machine
end

