-- ==== Sys2Proof/Machine/Acq.lean ====
section
/-!
DEFINITION. Acquisition and fault capture (R623 to R642) and its rows. A frame arrives by ACQ_SAMPLE with the codes of its
analog channels; a loop-signal frame takes the voted values.
-/
namespace Sys2Proof.Machine
open Sys2Proof

def AcqRec.fresh : AcqRec := ⟨0, 0, 0, 0, 0, 0, 0, 0, 0, none, [], [], none, false, none⟩
def AcqBuf.fresh : AcqBuf := ⟨1, 0, AcqRec.fresh, 0, none, [], false, []⟩
def State.modAcq (s : State) (f : Acq → Acq) : State := { s with acq := f s.acq }
def State.buf (s : State) (b : Nat) : AcqBuf := tgetD s.acq.bufs b AcqBuf.fresh
def State.modBuf (s : State) (b : Nat) (f : AcqBuf → AcqBuf) : State := s.modAcq fun x => { x with bufs := tput x.bufs b (f (s.buf b)) }
def State.acqDef (s : State) (b : Nat) : Option CfgRec := s.cfg 12 1 b
def State.acqDefs (s : State) : List CfgRec := s.cfgAll 12 1
abbrev ACQ_READY : Nat := 1
abbrev ACQ_FILLING : Nat := 2
abbrev ACQ_ARMED_ST : Nat := 3
abbrev ACQ_TRIGGERED : Nat := 4
abbrev ACQ_DONE : Nat := 5

/-! ## RECORD_DEF (R625) -/

def CfgRec.acqClass (r : CfgRec) : Nat := r.u8 0x10
def CfgRec.acqN (r : CfgRec) : Nat := r.u32 0x18
def CfgRec.acqFlag (r : CfgRec) (k : Nat) : Bool := bit (r.u8 0x13) k
/-- P = floor(N × percent ÷ 100). -/
def CfgRec.acqPre (r : CfgRec) : Nat := r.acqN * r.u8 0x1C / 100
def CfgRec.acqPool (r : CfgRec) : Option Nat := if r.u8 0x1D < 8 then some (r.u8 0x1D) else none
def CfgRec.acqChannel (r : CfgRec) (k : Nat) : Nat := r.u16 (0x28 + 2 * k)
/-- The sample period in ns, before the doubling of R624. -/
def CfgRec.acqPeriod (r : CfgRec) : Nat :=
  r.u32 0x14 * (match r.acqClass with
    | 0 => 50
    | 1 => 31250
    | _ => 10000)
/-- The stage has left NORMAL (R144, R624). -/
def State.acqReduced (s : State) : Bool := s.rd R.PWR_THERMAL_STATUS_STAGE != 0
def State.acqPeriodNow (s : State) (r : CfgRec) : Nat := if s.acqReduced then 2 * r.acqPeriod else r.acqPeriod
/-- The period in force: of a record in progress its own, longer once it has noted the change (R624). -/
def State.acqPeriodShown (s : State) (r : CfgRec) : Nat :=
  let x := s.buf r.id
  if x.state = ACQ_FILLING ∨ x.state = ACQ_ARMED_ST ∨ x.state = ACQ_TRIGGERED then (if bit x.cur.flags 1 then 2 else 1) * r.acqPeriod else s.acqPeriodNow r
/-- The buffers of a pool, lowest first; a buffer outside the pools stands alone. -/
def State.poolOf (s : State) (r : CfgRec) : List CfgRec :=
  match r.acqPool with
  | none => [r]
  | some p => s.acqDefs.filter fun x => x.acqPool == some p
/-- The record whose conditions a buffer or pool uses: that of its lowest-numbered buffer (R636). -/
def State.poolHead (s : State) (r : CfgRec) : Nat := ((s.poolOf r).head?).elim r.id (·.id)
/-- The condition `c` of a buffer: kind, argument, edge, value A, value B (R630). -/
def State.cond (s : State) (b c : Nat) : Nat × Nat × Nat × Nat × Nat :=
  match s.cfg 12 2 b with
  | none => (0, 0, 0, 0, 0)
  | some r => let o := 0x10 + 12 * c; (r.u8 o, r.u8 (o + 1), r.u8 (o + 2), r.u32 (o + 4), r.u32 (o + 8))

/-! ## Values (R623) -/

/-- A stored sample as a signed code. -/
def codeOf (cls : Nat) (w : Word) : Int := if cls = 0 then (w.setWidth 16).toInt else w.toInt
/-- The full scale of an analog channel's range (R705). -/
def State.fullScale (s : State) (cls ch : Nat) : Rat :=
  match cls, (s.cfg 11 3 (if cls = 0 then ch else 16 + ch)).elim 0 (fun (r : CfgRec) => r.u8 0x10) with
  | 0, 1 => 5
  | 0, 2 => 1
  | 1, 1 => 5 / 2
  | 1, 2 => 1 / 10
  | _, _ => 10
/-- The value of channel `k` of a frame, none where a loop signal is not finite. -/
def State.sampleVal (s : State) (r : CfgRec) (k : Nat) (w : Word) : Option Rat :=
  match r.acqClass with
  | 0 => some ((codeOf 0 w : Rat) * s.fullScale 0 (r.acqChannel k) / 32768)
  | 1 => some ((codeOf 1 w : Rat) * s.fullScale 1 (r.acqChannel k) / 8388608)
  | _ => f32? w
/-- A code at a limit. -/
def clipped (cls : Nat) (w : Word) : Bool :=
  let c := codeOf cls w
  (cls == 0 && (c == 32767 || c == -32768)) || (cls == 1 && (c == 8388607 || c == -8388608))

/-! ## Registers -/

/-- The bit masks and states that the registers and the Glide condition show (R637, R641). -/
def State.showAcq (s : State) : State :=
  let mask (f : CfgRec → Bool) : Nat := ((s.acqDefs.filter f).map fun r => 2 ^ r.id).foldl (· + ·) 0
  let busy (r : CfgRec) : Bool := let k := (s.buf r.id).state; k == 2 || k == 3 || k == 4
  let owned (r : CfgRec) : Bool := (s.buf r.id).segs.any fun p => p.2.owned
  let s := s.wr64 R.ACQ_ARMED_LO (mask busy)
  let s := s.wr64 R.ACQ_COMPLETE_LO (mask owned)
  let pools (f : CfgRec → Bool) : Nat :=
    ((List.range 8).map fun p => if s.acqDefs.any fun r => r.acqPool == some p && f r then 2 ^ p else 0).foldl (· + ·) 0
  let s := s.wr R.ACQ_POOL_STATUS (256 * pools (fun _ => true) + pools fun r => (s.buf r.id).state == 3)
  let s := s.wrB (R.ACQ_RATE_STATUS.bit 0) s.acqReduced
  s.wrB (R.PWR_GLIDE_STATUS.bit 7)
    (s.acqDefs.any fun r => (busy r && !r.acqFlag 2) || (s.buf r.id).state == 4)

/-! ## Records (R627, R628, R634) -/

/-- A segment that holds no owned record, other than the one in use. -/
def State.freeSeg (s : State) (r : CfgRec) : Option Nat :=
  (List.range (r.u8 0x12)).find? fun k => !((tget (s.buf r.id).segs k).any fun (x : AcqRec) => x.owned)
/-- A buffer armed in a free segment: with no pre-trigger frames to write it is ARMED at once. -/
def State.fillFrom (s : State) (r : CfgRec) (seg : Nat) : State :=
  s.modBuf r.id fun x => { x with state := if r.acqPre = 0 then ACQ_ARMED_ST else ACQ_FILLING, seg := seg,
                                  cur := { AcqRec.fresh with period := s.acqPeriodNow r, flags := if s.acqReduced then 2 else 0 },
                                  left := 0, due := none, segs := tdel x.segs seg, halted := false }
def State.armBuf (s : State) (r : CfgRec) : State :=
  match s.freeSeg r with
  | some k => s.fillFrom r k
  | none => s
/-- A record closes: `status` 1 COMPLETE or an abort. A record with a triggered position is kept and owned by the host. -/
def State.closeRec (s : State) (r : CfgRec) (status : Nat) : State :=
  let x := s.buf r.id
  if x.state = ACQ_TRIGGERED then
    let c := x.cur
    let old := c.total - c.frames.length
    let change := c.change.bind fun k => if k ≤ old then none else some (k - old)
    let period := if (c.change.any fun k => decide (k ≤ old)) then 2 * c.period else c.period
    let c := { c with status := status, change := change, period := period, owned := true, refine := none }
    s.modBuf r.id fun y => { y with segs := tput y.segs x.seg c, cur := AcqRec.fresh, due := none, left := 0 }
  else s.modBuf r.id fun y => { y with cur := AcqRec.fresh, due := none, left := 0 }
def acqData (seq k : Nat) : List Byte := le 4 seq ++ le 1 k
/-- A record in progress is aborted; the buffer returns to READY (R634, R637). -/
def State.abortRec (s : State) (r : CfgRec) (status : Nat) : State :=
  let x := s.buf r.id
  if x.state = ACQ_FILLING ∨ x.state = ACQ_ARMED_ST ∨ x.state = ACQ_TRIGGERED then
    let s := (((s.closeRec r status).inc R.ACQ_ABORTS).modBuf r.id fun y => { y with state := ACQ_READY })
    let s := if x.state = ACQ_TRIGGERED then s.raise Ev.RECORD_ABORTED r.id (acqData x.cur.seq status) else s
    s.flag R.ACQ_EVENT_STATUS_ABORTED
  else s
/-- The last frame is committed: the record is complete; with REPEAT the next free segment fills. -/
def State.completeRec (s : State) (r : CfgRec) : State :=
  let s := ((s.closeRec r 1).inc R.ACQ_RECORDS).modBuf r.id fun y => { y with state := ACQ_DONE }
  if r.acqFlag 3 then s.armBuf r else s

/-! ## Triggers (R630 to R633, R636) -/

/-- A trigger takes hold of an ARMED buffer: it waits for its frame. The record's sequence is drawn now. -/
def State.claim (s : State) (r : CfgRec) (hits : List AcqHit) (tclass : Nat) : State :=
  (s.modBuf r.id fun x => { x with due := some ⟨hits, tclass, s.acq.nextSeq⟩ }).modAcq fun a => { a with nextSeq := (a.nextSeq + 1) % 2 ^ 32 }
/-- The buffer can be claimed. -/
def State.claimable (s : State) (r : CfgRec) : Bool := (s.buf r.id).state == ACQ_ARMED_ST && (s.buf r.id).due.isNone
/-- A buffer that conditions have claimed and whose frame is not yet stored: what fires now fires within that frame. -/
def State.gathering (s : State) (r : CfgRec) : Bool := (s.buf r.id).due.any fun d => d.hits != []
/-- Conditions of a class fire for a buffer or pool. Those that fire within the frame of a claim join its record (R633). In a
pool the lowest-numbered ARMED buffer is claimed; with none the trigger is refused (R636). Alone, a FILLING buffer ignores it. -/
def State.fireAll (s : State) (r : CfgRec) (hits : List AcqHit) (tclass : Nat) : State :=
  if hits = [] then s
  else match (s.poolOf r).find? s.gathering, (s.poolOf r).find? s.claimable with
    | some x, _ => s.modBuf x.id fun y => { y with due := y.due.map fun d => { d with hits := d.hits ++ hits } }
    | none, some x => s.claim x hits tclass
    | none, none =>
      if r.acqPool.isSome then
        ((s.inc R.ACQ_NO_RESOURCE).raise Ev.TRIGGER_REFUSED (s.poolHead r) (acqData 0xFFFFFFFF tclass)).flag R.ACQ_EVENT_STATUS_REFUSED
      else if (s.buf r.id).state = ACQ_FILLING then s.inc R.ACQ_TRIGGERS_IGNORED else s
/-- The class of a condition's kind (R630). -/
def kindClass (k : Nat) : Nat := if k = 7 then 1 else if k = 8 then 3 else 0
/-- A condition matches a source heard. -/
def condMatches (c : Nat × Nat × Nat × Nat × Nat) (e : AcqEv) : Bool :=
  let (kind, arg, edge, a, _) := c
  kind == e.kind && match kind with
    | 3 => arg == e.arg
    | 4 => arg == e.arg && (edge == 2 || (edge == 0) == e.up)
    | 5 => arg == e.arg || arg == 0xFF
    | 6 => arg == e.arg
    | 8 => bit arg e.arg && a % 65536 == e.code && (a / 65536 == 0xFFFF || a / 65536 == e.inst)
    | _ => false
/-- The heads of the buffers and pools. -/
def State.acqHeads (s : State) : List CfgRec := s.acqDefs.filter fun r => s.poolHead r == r.id
def State.acqJudge (s : State) (e : AcqEv) : State :=
  s.acqHeads.foldl (fun s r =>
    let l := (List.range 4).filter fun c => condMatches (s.cond r.id c) e
    let k := kindClass e.kind
    s.fireAll r (l.map fun c => ⟨c, none, if e.kind = 8 then none else some e.stamp, k⟩) k) s
/-- The sources heard since the last frame are judged. -/
def State.acqDrain (s : State) : State :=
  let l := s.acq.heard
  l.foldl State.acqJudge (s.modAcq fun a => { a with heard := [] })
/-- LOOP_SIGNAL (R631): the voted signal is other than 0 in this lane exchange and was 0 in the last. -/
def State.acqLoop (s : State) : State :=
  let nz (g : Nat) : Bool := (s.voted g).any fun w => decide (w.toNat % 2 ^ 31 ≠ 0)
  let conds (r : CfgRec) : List (Nat × Nat) := (List.range 4).filterMap fun c =>
    let x := s.cond r.id c
    if x.1 = 7 then some (c, x.2.2.2.1 % 65536) else none
  let was := s.acq.sigs
  let s' := s.acqHeads.foldl (fun s r =>
    s.fireAll r ((conds r).filterMap fun p => if nz p.2 && !was.contains p.2 then some ⟨p.1, none, none, 1⟩ else none) 1) s
  s'.modAcq fun a => { a with sigs := ((s.acqHeads.flatMap fun r => (conds r).map (·.2)).filter nz).eraseDups }
/-- LEVEL or WINDOW judged on a stored sample: the level crossed where it fires, and what the next sample is judged by. -/
def judgeCond (c : Nat × Nat × Nat × Nat × Nat) (st : Bool × Bool × Bool) (prev cur : Rat) : Option Rat × (Bool × Bool × Bool) :=
  let (kind, _, edge, a, b) := c
  let va := (f32? (BitVec.ofNat 32 a)).getD 0
  let vb := (f32? (BitVec.ofNat 32 b)).getD 0
  let (below, above, inside) := st
  if kind = 1 then
    let up := below && decide (va ≤ cur) && edge != 1
    let down := above && decide (cur ≤ va) && edge != 0
    let below' := (below && !decide (va ≤ cur)) || decide (cur < va - vb)
    let above' := (above && !decide (cur ≤ va)) || decide (va + vb < cur)
    (if up || down then some va else none, (below', above', inside))
  else
    let now := decide (va ≤ cur) && decide (cur ≤ vb)
    let enter := now && !inside && edge != 1
    let leave := !now && inside && edge != 0
    let lvl := if enter then (if prev < va then va else vb) else if cur < va then va else vb
    (if enter || leave then some lvl else none, (below, above, now))
/-- The LEVEL and WINDOW conditions of a buffer or pool judged on the frame just stored. -/
def State.judgeFrame (s : State) (r : CfgRec) (prev cur : List Word) : State :=
  let h := s.poolHead r
  let (s, l) := (List.range 4).foldl (fun (p : State × List AcqHit) c =>
    let (s, l) := p
    let x := s.cond h c
    if x.1 = 1 ∨ x.1 = 2 then
      match s.sampleVal r x.2.1 (cur.getD x.2.1 0#32) with
      | none => (s, l)
      | some v =>
        let v0 := (if prev = [] then none else s.sampleVal r x.2.1 (prev.getD x.2.1 0#32)).getD v
        let st := tgetD (s.buf h).judge c (false, false, if prev = [] then decide (x.1 = 2 ∧ (f32? (BitVec.ofNat 32 x.2.2.2.1)).getD 0 ≤ v ∧ v ≤ (f32? (BitVec.ofNat 32 x.2.2.2.2)).getD 0) else false)
        let (hit, st') := judgeCond x st v0 v
        let s := s.modBuf h fun y => { y with judge := tput y.judge c st' }
        (s, match hit with
          | some lv => l ++ [⟨c, some (x.2.1, lv), none, 0⟩]
          | none => l)
    else (s, l)) (s, [])
  s.fireAll r l 0

/-! ## Trigger positions (R632) -/

/-- Eight bisections of [0, 1] for the crossing of a level: the lower end in 256ths. `up` says that the curve rises. -/
def bisect (g : Rat → Rat) (level : Rat) (up : Bool) : Nat → Nat → Nat → Nat
  | 0, lo, _ => lo
  | n + 1, lo, w =>
    let mid := lo + w / 2
    let v := g ((mid : Rat) / 256)
    let before := if up then decide (v < level) else decide (level < v)
    bisect g level up n (if before then mid else lo) (w / 2)
/-- The cubic through samples at −1, 0, 1 and 2. -/
def cubic (a b c d t : Rat) : Rat :=
  a * (t * (t - 1) * (t - 2)) / (-6) + b * ((t + 1) * (t - 1) * (t - 2)) / 2 + c * ((t + 1) * t * (t - 2)) / (-2) + d * ((t + 1) * t * (t - 1)) / 6
/-- The fraction of a crossing between samples `b` and `c`, by the cubic where both neighbours are stored, else linearly. -/
def crossing (a : Option Rat) (b c : Rat) (d : Option Rat) (level : Rat) : Nat :=
  let up := decide (b ≤ c)
  match a, d with
  | some a, some d => bisect (cubic a b c d) level up 8 0 256
  | _, _ => bisect (fun t => b + (c - b) * t) level up 8 0 256
/-- The record is triggered by the frame just stored, whose index from frame 0 is known once the frames before it are cut to
the pre-trigger count. -/
def State.trigger (s : State) (r : CfgRec) (d : AcqDue) : State :=
  let x := s.buf r.id
  let keep := min (r.acqPre + 1) r.acqN
  let frames := x.cur.frames.drop (x.cur.frames.length - keep)
  let i := frames.length - 1
  let val (k : Nat) (ch : Nat) : Option Rat := (frames[k]?).bind fun f => s.sampleVal r ch (f.getD ch 0#32)
  let posOf (h : AcqHit) : Nat :=
    match h.cross, h.stamp with
    | some (ch, lv), _ =>
      if i = 0 then 0
      else match val (i - 1) ch, val i ch with
        | some b, some c => 256 * (i - 1) + crossing none b c none lv
        | _, _ => 256 * i
    | none, some t =>
      match x.cur.stamps with
      | t1 :: t0 :: _ => if i = 0 then 0 else if t0 < t1 ∧ t0 ≤ t ∧ t < t1 then 256 * (i - 1) + (t - t0) * 256 / (t1 - t0) else 256 * i
      | _ => 256 * i
    | none, none => 256 * i
  let pos := (d.hits.map posOf).foldl min (256 * i)
  -- the earliest position wins, and of equal ones the lower condition number (R633)
  let first := ((List.range 4).flatMap fun c => d.hits.filter fun h => h.cond == c && posOf h == pos).head?
  let unit (t : Nat) : Nat := match x.cur.stamps with
    | t1 :: t0 :: _ => if t = 256 * i then t1 else t0 + ((t1 - t0) * (t - 256 * (i - 1)) + 128) / 256
    | t1 :: _ => t1
    | [] => 0
  let conds := ((d.hits.map (·.cond)).eraseDups.map (2 ^ ·)).foldl (· + ·) 0
  let auto := decide (d.tclass = 5)
  let s := s.modBuf r.id fun y =>
    { y with state := ACQ_TRIGGERED, due := none, left := r.acqN - frames.length,
             cur := { y.cur with frames := frames, tclass := first.elim d.tclass (·.tclass), seq := d.seq, conds := conds,
                                 pos := pos, stamp := unit pos, refine := first.bind (·.cross), flags := y.cur.flags + b2n auto } }
  let s := s.acqSource 6 r.id true ((s.buf r.id).cur.stamp)
  if auto then (s.inc R.ACQ_AUTO_TRIGGERS).raise Ev.AUTO_TRIGGERED r.id (acqData d.seq 5) else s
/-- The sample after the firing one is stored: the crossing is placed by the cubic. -/
def State.refinePos (s : State) (r : CfgRec) (ch : Nat) (lv : Rat) : State :=
  let x := s.buf r.id
  let n := x.cur.frames.length
  let val (k : Nat) : Option Rat := (x.cur.frames[k]?).bind fun f => s.sampleVal r ch (f.getD ch 0#32)
  s.modBuf r.id fun y =>
    match (if 4 ≤ n then val (n - 4) else none), val (n - 3), val (n - 2), val (n - 1), y.cur.stamps with
    | a, some b, some c, d, _ :: t1 :: t0 :: _ =>
      if n < 3 then { y with cur := { y.cur with refine := none } }
      else
        let f := crossing a b c d lv
        { y with cur := { y.cur with refine := none, pos := 256 * (n - 3) + f, stamp := t0 + ((t1 - t0) * f + 128) / 256 } }
    | _, _, _, _, _ => { y with cur := { y.cur with refine := none } }

/-! ## Frames -/

/-- A code as it is stored (R623). -/
def stored (cls : Nat) (w : Word) : Word := if cls = 0 then w &&& 0xFFFF#32 else (w.setWidth 24).signExtend 32
/-- A frame stored in the ring; the period doubles for good within a record once the stage is REDUCED (R624). -/
def State.pushFrame (s : State) (r : CfgRec) (frame : List Word) (stamp : Nat) : State :=
  let clip := r.acqClass != 2 && frame.any (clipped r.acqClass)
  let odd := r.acqClass == 2 && frame.any fun w => !f32Finite w
  s.modBuf r.id fun y =>
    let c := y.cur
    let halve := s.acqReduced && !bit c.flags 1
    let fl := c.flags ||| (if halve then 2 else 0) ||| (if clip then 4 else 0) ||| (if odd then 8 else 0)
    let fs := c.frames ++ [frame]
    let fs := fs.drop (fs.length - r.acqN)
    { y with cur := { c with frames := fs, total := c.total + 1, flags := fl, stamps := stamp :: c.stamps.take 2,
                             change := if halve then some c.total else c.change } }
/-- A frame of a buffer: stored, judged; it may arm the buffer, trigger it or complete its record. -/
def State.acqFrame (s : State) (r : CfgRec) (frame : List Word) (stamp : Nat) : State :=
  let before := s.buf r.id
  let prev := (before.cur.frames.getLast?).getD []
  let s := s.pushFrame r frame stamp
  let first := ((s.poolOf r).find? fun x => let k := (s.buf x.id).state; k == 2 || k == 3 || k == 4).any fun x => x.id == r.id
  let s := if first then s.judgeFrame r prev frame else s
  let s : State := match before.cur.refine with
    | some (ch, lv) => s.refinePos r ch lv
    | none => s
  let s : State := match (s.buf r.id).due with
    | some d => s.trigger r d
    | none => if before.state = ACQ_TRIGGERED then s.modBuf r.id fun y => { y with left := y.left - 1 } else s
  let x : AcqBuf := s.buf r.id
  if x.state = ACQ_TRIGGERED ∧ x.left = 0 then s.completeRec r
  else if x.state = ACQ_FILLING ∧ r.acqPre ≤ x.cur.total then s.modBuf r.id fun y => { y with state := ACQ_ARMED_ST } else s
/-- The words of a frame: the codes brought, or the voted values; a signal without a majority reads an open value. -/
def State.frameWords (s : State) (r : CfgRec) (codes : List Word) : List Word × State :=
  if r.acqClass = 2 then
    (List.range (r.u8 0x11)).foldl (fun (p : List Word × State) k => match p.2.voted (r.acqChannel k) with
      | some w => (p.1 ++ [w], p.2)
      | none => let (w, t) := p.2.drawWord; (p.1 ++ [w], t)) ([], s)
  else ((List.range (r.u8 0x11)).map fun k => stored r.acqClass (codes.getD k 0#32), s)
def State.acqRuns (s : State) : Bool := s.powered && s.on R.ACQ_STATUS_RUNNING
def State.acqSample (s : State) (r : CfgRec) (codes : List Word) (stamp : Nat) : State :=
  let s := s.acqDrain
  let k := (s.buf r.id).state
  if k = ACQ_FILLING ∨ k = ACQ_ARMED_ST ∨ k = ACQ_TRIGGERED then
    let (f, s) := s.frameWords r codes
    (s.acqFrame r f stamp).showAcq
  else s.showAcq
def execAcqSample (b : Nat) (codes : List Word) (stamp : Nat) (s : State) : Res State :=
  match s.acqDef b with
  | some r => .next (if s.acqRuns then s.acqSample r codes stamp else s)
  | none => .next s
/-- R634: the auto timeout, from entry to ARMED. -/
def execAcqAutoTimeout (b : Nat) (s : State) : Res State :=
  match s.acqDef b with
  | some r => .next (if s.acqRuns && r.acqFlag 1 && s.claimable r then (s.claim r [] 5).showAcq else s)
  | none => .next s

/-! ## Measurements (R638) -/

/-- Times of upward crossings of a level by linear interpolation, in ns from frame 0; with hysteresis `h` a crossing counts
once the signal has been below the level less `h`. -/
def crossUp (times vals : List Rat) (level h : Rat) : List Rat :=
  let go := (times.zip vals).foldl (fun (p : Bool × Option (Rat × Rat) × List Rat) tv =>
    let (low, last, out) := p
    match last with
    | none => (decide (tv.2 < level - h), some tv, out)
    | some q =>
      let hit := low && decide (level ≤ tv.2) && decide (q.2 < level)
      let at' : Rat := if tv.2 = q.2 then tv.1 else q.1 + (tv.1 - q.1) * (level - q.2) / (tv.2 - q.2)
      ((low && !hit) || decide (tv.2 < level - h), some tv, if hit then out ++ [at'] else out)) (false, none, [])
  go.2.2
def crossDown (times vals : List Rat) (level : Rat) : List Rat := crossUp times (vals.map fun v => -v) (-level) 0
def acqMedian (l : List Rat) : Option Rat :=
  let t := l.mergeSort (· ≤ ·)
  let n := t.length
  if n = 0 then none
  else if n % 2 = 1 then t[n / 2]? else match t[n / 2 - 1]?, t[n / 2]? with
    | some a, some b => some ((a + b) / 2)
    | _, _ => none
/-- The sample times of a record in ns from frame 0 (R627). -/
def AcqRec.times (x : AcqRec) : List Rat :=
  (List.range x.frames.length).map fun i => ((i * x.period + (match x.change with
    | some k => (i - k) * x.period
    | none => 0) : Nat) : Rat)
/-- What a channel's figures are formed from. -/
structure ChanFig where
  base : Rat
  top : Rat
  amp : Rat
  mid : Rat
  ups : List Rat
def chanFig (times vals : List Rat) : Option ChanFig :=
  let mx := ratMost vals
  let mn := ratLeast vals
  let mid := (mx + mn) / 2
  match acqMedian (vals.filter fun v => decide (mid ≤ v)), acqMedian (vals.filter fun v => decide (v < mid)) with
  | some top, some base => some ⟨base, top, top - base, mid, crossUp times vals mid ((top - base) / 10)⟩
  | _, _ => none
def meanGap (l : List Rat) : Option Rat :=
  match l.head?, l.getLast? with
  | some a, some b => if 2 ≤ l.length then some ((b - a) / ((l.length - 1 : Nat) : Rat)) else none
  | _, _ => none
/-- The edge from one level to another whose end lies at or after the trigger: its length in ns. -/
def edgeTime (starts ends : List Rat) (trig : Rat) : Option Rat :=
  (ends.find? fun t => decide (trig ≤ t)).bind fun t => ((starts.filter fun u => decide (u ≤ t)).getLast?).map fun u => t - u
def wrap180 (x : Rat) : Rat := x - 360 * ((ratFloor ((x + 180) / 360) : Int) : Rat)
/-- The 13 measurements of a channel; a figure that cannot be formed is none. Times are given in s. -/
def measure (times vals ref : List Rat) (trig : Rat) : List (Option Rat) :=
  let n : Rat := (vals.length : Nat)
  if vals = [] then List.replicate 13 none
  else
    let f := chanFig times vals
    let g := chanFig times ref
    let period := f.bind fun f => meanGap f.ups
    let lo (f : ChanFig) : Rat := f.base + f.amp / 10
    let hi (f : ChanFig) : Rat := f.base + f.amp * 9 / 10
    let rise := f.bind fun f => edgeTime (crossUp times vals (lo f) 0) (crossUp times vals (hi f) 0) trig
    let fall := f.bind fun f => edgeTime (crossDown times vals (hi f)) (crossDown times vals (lo f)) trig
    let first (f : ChanFig) : Option Rat := f.ups.find? fun t => decide (trig < t)
    let phase := match f.bind first, g.bind first, g.bind fun g => meanGap g.ups with
      | some tc, some tr, some p => if p = 0 then none else some (wrap180 (360 * (tc - tr) / p))
      | _, _, _ => none
    let sec (o : Option Rat) : Option Rat := o.map (· / 1000000000)
    [some (ratSum vals / n), some (Config.sqrt (ratSum (vals.map fun v => v * v) / n)), some (ratLeast vals), some (ratMost vals),
     f.map (·.amp), sec period, period.bind fun p => if p = 0 then none else some (1000000000 / p), sec rise, sec fall,
     f.bind fun f => if f.amp = 0 then none else some ((ratMost vals - f.top) / f.amp * 100), phase, f.map (·.top), f.map (·.base)]
/-- All measurements of a record; a channel with a sample that is not finite has none. -/
def State.measureRec (s : State) (r : CfgRec) (x : AcqRec) : List (List Word) :=
  let times := x.times
  let chan (k : Nat) : List Rat := x.frames.filterMap fun f => s.sampleVal r k (f.getD k 0#32)
  let ref := chan (r.u8 0x20)
  let trig : Rat := (match times[x.pos / 256]?, times[x.pos / 256 + 1]? with
    | some a, some b => a + (b - a) * ((x.pos % 256 : Nat) : Rat) / 256
    | some a, none => a
    | _, _ => 0)
  (List.range (r.u8 0x11)).map fun k =>
    let v := chan k
    let m := if v.length = x.frames.length then measure times v (if ref.length = x.frames.length then ref else []) trig else List.replicate 13 none
    m.map fun o => match o with
      | some q => toB32 q
      | none => 0x7FC00000#32
/-- The buffer and segment of an owned record of a sequence. -/
def State.findRec (s : State) (seq : Nat) : Option (CfgRec × Nat × AcqRec) :=
  s.acqDefs.findSome? fun r => ((s.buf r.id).segs.find? fun p => p.2.owned && p.2.seq == seq).map fun p => (r, p.1, p.2)
def State.putRec (s : State) (b seg : Nat) (x : AcqRec) : State := s.modBuf b fun y => { y with segs := tput y.segs seg x }
/-- R635: the measurements are formed and RECORD_COMPLETE posted. -/
def State.measureDone (s : State) (seq : Nat) : State :=
  match s.findRec seq with
  | none => s
  | some (r, k, x) =>
    if x.status = 1 ∧ x.meas.isNone = true then
      ((s.putRec r.id k { x with meas := some (s.measureRec r x) }).raise Ev.RECORD_COMPLETE r.id (acqData seq x.tclass)).flag R.ACQ_EVENT_STATUS_COMPLETE
    else s
def execAcqMeasureDone (seq : Nat) (s : State) : Res State := .next (if s.acqRuns then s.measureDone seq else s)

/-! ## Commands (R639) -/

abbrev ACQ_NO_RES : Nat := 0x1310
abbrev ACQ_NOT_DEFINED : Nat := 0x1311
abbrev ACQ_NOT_OWNED : Nat := 0x1312
def State.cmdArm (q : Nat) (c : Cmd) (s : State) : State :=
  match s.acqDef (u8 c.args 0) with
  | none => s.complete q ACQ_NOT_DEFINED 0
  | some r =>
    if s.acqRuns = false then s.complete q STATE 0
    else
      let k := (s.buf r.id).state
      if k = ACQ_READY ∨ k = ACQ_DONE then
        if (s.freeSeg r).isNone then s.complete q ACQ_NO_RES k
        else
          let s := (s.armBuf r).showAcq
          s.complete q OK (s.buf r.id).state
      else s.complete q OK k
def execArm (q : Nat) (s : State) : Res State := s.onCmd q CmdCode.armCode (State.cmdArm q)
def State.cmdDisarm (q : Nat) (c : Cmd) (s : State) : State :=
  match s.acqDef (u8 c.args 0) with
  | none => s.complete q ACQ_NOT_DEFINED 0
  | some r =>
    let s := ((s.abortRec r 4).modBuf r.id fun y => { y with halted := false }).showAcq
    s.complete q OK (s.buf r.id).state
def execDisarm (q : Nat) (s : State) : Res State := s.onCmd q CmdCode.disarmCode (State.cmdDisarm q)
/-- FORCE_TRIGGER on a buffer, or on the lowest-numbered ARMED buffer of a pool. -/
def State.cmdForce (q : Nat) (c : Cmd) (s : State) : State :=
  let s := s.acqDrain
  let k := u8 c.args 1
  let go (r : CfgRec) : State :=
    let seq := s.acq.nextSeq
    ((s.claim r [] 4).showAcq).complete q OK seq
  if u8 c.args 0 = 0 then
    match s.acqDef k with
    | none => s.complete q ACQ_NOT_DEFINED 0
    | some r => if s.claimable r then go r else s.complete q STATE 0
  else match s.acqDefs.find? fun r => r.acqPool == some k with
    | none => s.complete q ACQ_NOT_DEFINED 0
    | some r => match (s.poolOf r).find? s.claimable with
      | some x => go x
      | none => (s.inc R.ACQ_NO_RESOURCE).complete q ACQ_NO_RES 0
def execForceTrigger (q : Nat) (s : State) : Res State := s.onCmd q CmdCode.forceTriggerCode (State.cmdForce q)
/-- RELEASE frees the segment; a buffer whose last owned segment goes is READY. -/
def State.cmdRelease (q : Nat) (c : Cmd) (s : State) : State :=
  match s.findRec (u32 c.args 0) with
  | none => s.complete q ACQ_NOT_OWNED 0
  | some (r, k, _) =>
    let s := s.modBuf r.id fun y =>
      let segs := tdel y.segs k
      { y with segs := segs, state := if y.state = ACQ_DONE ∧ (segs.any fun p => p.2.owned) = false then ACQ_READY else y.state }
    s.showAcq.complete q OK 0
def execRelease (q : Nat) (s : State) : Res State := s.onCmd q CmdCode.releaseCode (State.cmdRelease q)
def State.cmdMeasure (q : Nat) (c : Cmd) (s : State) : State :=
  match s.findRec (u32 c.args 0) with
  | none => s.complete q ACQ_NOT_OWNED 0
  | some (r, _, x) =>
    let ch := u8 c.args 4
    let code := u8 c.args 5
    if r.u8 0x11 ≤ ch ∨ 12 < code then s.complete q 0x0101 0
    else s.complete q OK (((x.meas.getD []).getD ch []).getD code 0x7FC00000#32).toNat
def execMeasureRead (q : Nat) (s : State) : Res State := s.onCmd q CmdCode.measureReadCode (State.cmdMeasure q)
def execAcqClearCounters (sess key : Nat) (s : State) : Res State :=
  .next (if s.keyed sess key then s.clearCounters 0x120000 0x1000 else s)

/-! ## Through the Turid's states (R637) -/

/-- Glide entry: STRIDE_ONLY buffers stop without a record. -/
def State.acqGlide (s : State) : State :=
  (s.acqDefs.foldl (fun s r =>
    let k := (s.buf r.id).state
    if r.acqFlag 2 && (k == ACQ_FILLING || k == ACQ_ARMED_ST) then
      s.modBuf r.id fun y => { y with state := ACQ_READY, cur := AcqRec.fresh, due := none, halted := true }
    else s) s).showAcq
/-- The Stride schedule runs again: they fill anew. -/
def State.acqStride (s : State) : State :=
  (s.acqDefs.foldl (fun s r => if (s.buf r.id).halted then s.fillFrom r (s.buf r.id).seg else s) s).showAcq
/-- UNDERWAY: ARM_AT_START buffers arm. -/
def State.acqStart (s : State) : State :=
  let s := (s.modAcq fun _ => ⟨[], 0, [], []⟩).wrB R.ACQ_STATUS_RUNNING true
  (s.acqDefs.foldl (fun s r => if r.acqFlag 0 then s.armBuf r else s) s).showAcq
/-- A reset of the domain: records in progress close; ARM_AT_START and REPEAT buffers arm again. -/
def State.acqReset (s : State) : State :=
  (s.acqDefs.foldl (fun s r =>
    let s := s.abortRec r 3
    if r.acqFlag 0 || r.acqFlag 3 then s.armBuf r else s) s).showAcq

end Sys2Proof.Machine
end

