-- ==== Sys2Proof/Machine/Can.lean ====
section
/-!
DEFINITION. The rows of the CAN buses (R587 to R601, R615 to R619).
-/
namespace Sys2Proof.Machine
open Sys2Proof

/-- The bus exists and its controller is used. -/
def State.busUsed (s : State) (b : Nat) : Bool := s.powered && decide (b < 12) && s.canState b != 0
/-- The controller takes part in traffic: it is neither bus-off, recovering nor asleep. -/
def State.busLive (s : State) (b : Nat) : Bool := s.busUsed b && (s.canState b == 1 || s.canState b == 2 || s.canState b == 5)

/-! ## Errors (R596, R597) -/

/-- What the error counters of ISO 11898-1 do at an error: the transmitter adds 8, but an error-passive one that misses
only its acknowledgement adds nothing; a receiver adds 1, or 8 where the error is its own. -/
def State.countError (s : State) (b kind : Nat) (tx major : Bool) : State :=
  if tx then
    if kind = 3 ∧ s.canState b = 2 then s else s.wr (canTec b) (min 511 (s.rd (canTec b) + 8))
  else s.wr (canRec' b) (min 511 (s.rd (canRec' b) + (if major then 8 else 1)))
def State.canError (s : State) (b kind : Nat) (data tx major : Bool) : State :=
  if s.canState b = 5 then s.inc (R.MBC_RESTRICTED_ERRORS b)
  else
    let s := ((s.inc (R.MBC_ERRORS b)).wr (R.MBC_LAST_ERROR b) (kind % 8 + 8 * b2n data)).countError b kind tx major
    if 255 < s.rd (canTec b) then s.goBusOff b else s.canJudge b
def execCanErrorDetected (b kind : Nat) (data tx major : Bool) (s : State) : Res State :=
  .next (if s.busLive b then s.canError b kind data tx major else s)
def execBusOff (b : Nat) (s : State) : Res State :=
  .next (if s.busUsed b && (s.canState b == 1 || s.canState b == 2) then s.goBusOff b else s)
/-- Recovery is complete: the counters start from 0. -/
def State.busBack (s : State) (b : Nat) : State :=
  let q := (s.mbcOf b).recoverQ
  let s := (((s.wr (canTec b) 0).wr (canRec' b) 0).wr (R.MBC_STATUS_STATE b) 1).modMbc b fun x => { x with recoverQ := [] }
  let s := (s.raise Ev.BUS_RECOVERED b []).flag (R.MBC_EVENT_STATUS_RECOVERED b)
  q.foldl (fun s q => s.complete q OK 0) s
def execBusOffRecovered (b : Nat) (s : State) : Res State :=
  .next (if s.busUsed b && s.canState b == 4 then s.busBack b else s)

/-! ## Reception (R595) -/

/-- A frame for the host receive queue of bus 11; CAN_RX carries it (R617). -/
def State.hostFrame (s : State) (b id fmt flags : Nat) (data : List Byte) : State :=
  let x := s.mbcOf b
  if 256 ≤ x.rx.length ∨ (fmt = 2 ∧ 64 < data.length) then
    let s := s.inc (R.MBC_RX_DROPPED b)
    if x.run then s else ((s.modMbc b fun x => { x with run := true }).raise Ev.RX_OVERFLOW b []).flag (R.MBC_EVENT_STATUS_RX_OVERFLOW b)
  else
    let q := s.rd (R.MBC_RX_NEXT_SEQ b)
    let s := (s.modMbc b fun x => { x with rx := x.rx ++ [q], run := false }).inc (R.MBC_RX_NEXT_SEQ b)
    let s := s.wr (R.MBC_RX_DEPTH b) (x.rx.length + 1)
    s.raise Ev.CAN_RX b (le 4 q ++ le 4 id ++ le 1 flags ++ le 1 data.length ++ le 2 0 ++ data)
def State.standingAck (s : State) (b k seq status gen : Nat) : State :=
  match tget (s.mbcOf b).standing k with
  | none => s
  | some x =>
    if seq = x.seq ∧ status = 0 ∧ gen = x.gen then
      (s.modMbc b fun m => { m with standing := tput m.standing k { x with tries := 0 } }).wrB ((R.MBC_STANDING_ACKED b).bit k) true
    else s
/-- An objection to a sleep (R599, R600): before the commit it aborts it, after it the wake is latched. -/
def State.objection (s : State) (b id : Nat) : State :=
  if id ≠ (s.mbcOf b).sleepId then s
  else
    let st := s.rd (canSleep b)
    if st = 1 then s.canAbortSleep b 1
    else if st = 2 then (s.wrB (canLatch b) true).wakeSource 5
    else if st = 3 then ((s.wrB (canLatch b) true).wakeSource 5).canWake b else s
/-- The connection that carries an identifier on a bus, with the length of its unit (R563, R564). -/
def State.canConn (s : State) (b id : Nat) : Option (Nat × Bool × Nat) :=
  (s.cfgAll 9 4).findSome? fun r =>
    if r.u8 0x17 != 0 || r.u8 0x18 != b then none
    else if !r.produces && connCanId (r.u32 0x20) == id then some (r.u16 0x14, true, r.connN + 6)
    else if r.produces && connCanId (r.u32 0x24) == id then some (r.u16 0x14, false, 6) else none
/-- The identifiers that R590 assigns on a bus, beside those of the safety connections. -/
def canAssigned (b id : Nat) : Bool :=
  (id == 1 && b == 8) || (id == 2 && decide (b ≤ 10)) || (decide (3 ≤ id) && decide (id ≤ 15)) ||
    (decide (b < 8) && (id / 2 == 8 || id / 2 == 12)) || (decide (b < 9) && id / 16 == 2) || (b == 8 && id / 8 == 8) ||
    ((decide (b < 8) || b == 9 || b == 10) && id / 256 == 4)
/-- A frame goes to its function, where that function takes it; any other goes to the host queue of bus 11 or is discarded (R595). -/
def State.route (s : State) (b id fmt flags : Nat) (data : List Byte) : State :=
  let fixture := if 0x400 ≤ id ∧ id < 0x480 then s.fixtures.find? fun r => r.u8 0x10 == 0 && r.u8 0x11 == b && r.u8 0x12 == id - 0x400 else none
  if b < 8 ∧ 0x18 ≤ id ∧ id < 0x1A ∧ (s.doorRec (2 * b + (id - 0x18))).isSome = true then s.doorStatus (2 * b + (id - 0x18)) data
  else if b = 8 ∧ 0x40 ≤ id ∧ id < 0x48 then s.tractionStatus (id - 0x40) data
  else if b < 9 ∧ 0x28 ≤ id ∧ id < 0x30 then s.standingAck b (id - 0x28) (u16 data 0) (u16 data 2) (u32 data 4)
  else if id = 4 then s.objection b (u32 data 0)
  else match fixture with
    | some r => s.fixtureMsg r.id data
    | none => match s.canConn b id with
      | some (k, true, n) => s.dataArrives k (data.take n)
      | some (k, false, n) => s.echoArrives k (data.take n)
      | none => if canAssigned b id then s else if b = 11 then s.hostFrame b id fmt flags data else s.inc (R.MBC_RX_DISCARDED b)
/-- The receive error counter after a valid frame, as ISO 11898-1 has it: above 127 it goes to a value from 119 to 127. -/
def State.rxGood (s : State) (b : Nat) : State :=
  let r := s.rd (canRec' b)
  if s.canState b = 5 ∨ r = 0 then s
  else if r ≤ 127 then (s.wr (canRec' b) (r - 1)).canJudge b
  else
    let (w, s) := s.drawWord
    (s.wr (canRec' b) (119 + w.toNat % 9)).canJudge b
def State.canReceived (s : State) (b id fmt flags : Nat) (data : List Byte) (stamp : Nat) : State :=
  ((((s.inc (R.MBC_RX_FRAMES b)).wr64 (R.MBC_RX_STAMP_LO b) stamp).rxGood b).route b id fmt flags data)
def execCanFrameReceived (b id fmt flags : Nat) (data : List Byte) (stamp : Nat) (s : State) : Res State :=
  .next (if s.busLive b then s.canReceived b id fmt flags data stamp else s)
/-- The host releases every entry up to a sequence (R595). -/
def execMbcRxAckWrite (sess b seq : Nat) (s : State) : Res State :=
  .next (if s.holds sess 2 && decide (b < 12) then
    let l := (s.mbcOf b).rx.filter fun q => !decide ((seq + 2 ^ 32 - q) % 2 ^ 32 < 2 ^ 31)
    (s.modMbc b fun x => { x with rx := l }).wr (R.MBC_RX_DEPTH b) l.length else s)

/-! ## Transmission (R593, R594) -/

/-- The priority of an identifier in arbitration: lower goes first; a base identifier before an extended one that shares it. -/
def canPrio (id : Nat) : Nat := if 2 ^ 31 ≤ id then 2 * (id % 2 ^ 29) + 1 else 2 * (id * 2 ^ 18)
/-- The frame in a buffer that starts next: the lowest identifier, the oldest among equals. -/
def firstTx (l : List CanTx) : Option CanTx :=
  (inBuffers 8 l).foldl (fun (b : Option CanTx) t => match b with
    | some u => if canPrio t.id < canPrio u.id then some t else b
    | none => some t) none
def State.dropTx (s : State) (b : Nat) (t : CanTx) : State := (s.modMbc b fun x => { x with tx := x.tx.erase t }).showTx b
/-- The data-phase rate of a bus exceeds 1 Mbit/s (R588). -/
def CfgRec.fastData (r : CfgRec) : Bool := decide (r.u8 0x13 * (1 + r.u8 0x18 + r.u8 0x19) < 100)
/-- A frame has gone out: what follows from a sleep commit or the STANDING after a wake. -/
def State.afterTx (s : State) (b : Nat) (t : CanTx) : State :=
  if t.id = 3 ∧ u8 t.data 0 = 2 then
    ((s.wr (canSleep b) 2).modMbc b fun x => { x with commitAt := some s.tick }).flag (R.MBC_EVENT_STATUS_SLEEP_CHANGE b)
  else if 0x20 ≤ t.id ∧ t.id < 0x28 ∧ s.rd (canSleep b) = 0 ∧ ((s.mbcOf b).tx.any fun u => decide (0x20 ≤ u.id) && decide (u.id < 0x28)) = false then
    s.modMbc b fun x => { x with wakeAt := none }
  else s
/-- The frame is sent: `lat` is its delay from latch in 0.1 µs, `tdc` the measured loop delay in CAN clock periods. -/
def State.txSent (s : State) (b : Nat) (t : CanTx) (lat tdc : Nat) : State :=
  let s := ((s.dropTx b t).inc (R.MBC_TX_FRAMES b)).send (.frame (.can b) t.fmt t.id t.data)
  let s := (s.wr (canTec b) (s.rd (canTec b) - 1)).canJudge b
  let s := if t.cyclic && decide (s.rd (R.MBC_CYCLIC_LATENCY_MAX b) < lat) then s.wr (R.MBC_CYCLIC_LATENCY_MAX b) (min 65535 lat) else s
  let s := if t.fmt != 0 && (s.canRec b).any CfgRec.fastData then s.wr (R.MBC_TDC b) (min 255 tdc) else s
  let s := match t.host with
    | some q => s.complete q OK s.tick
    | none => s
  s.afterTx b t
/-- The frame is not sent this time: a ONE_SHOT frame fails, any other waits on. -/
def State.txFailed (s : State) (b : Nat) (t : CanTx) : State :=
  if t.once then
    let s := s.dropTx b t
    match t.host with
    | some q => s.complete q 0x1014 0
    | none => s
  else s
/-- The outcome of the next frame: 0 sent, 1 arbitration lost, any other an error. -/
def execCanFrameSent (b outcome lat tdc : Nat) (s : State) : Res State :=
  match firstTx (s.mbcOf b).tx with
  | none => .next s
  | some t =>
    if s.busUsed b && (s.canState b == 1 || s.canState b == 2) then
      .next (if outcome = 0 then s.txSent b t lat tdc else if outcome = 1 then (s.inc (R.MBC_ARB_LOST b)).txFailed b t else s.txFailed b t)
    else .next s

/-! ## Commands (R615, R616) -/

/-- The refusals of R616, by the flags, the length and the identifier. -/
def State.badTx (s : State) (id fl len : Nat) : Bool :=
  let fd := bit fl 0
  let xl := bit fl 3
  let ext := bit id 31
  (fd && xl) || (xl && ext) || (!ext && decide (0x800 ≤ id % 2 ^ 29)) ||
    (if xl then len == 0 || decide (44 < len) else if fd then decide (44 < len) else decide (8 < len)) ||
    (fd && s.canFmt 11 == 0) || (xl && s.canFmt 11 != 2)
def State.canTxCmd (q : Nat) (c : Cmd) (s : State) : State :=
  let id := u32 c.args 0
  let fl := u8 c.args 4
  let len := u8 c.args 5
  if c.inst ≠ 11 then s.complete q 0x1013 0
  else if s.busUsed 11 = false then s.complete q STATE 0
  else if s.badTx id fl len then s.complete q 0x0101 0
  else if s.canState 11 = 3 ∨ s.canState 11 = 4 then s.complete q 0x1012 0
  else
    let d := (c.args.drop 8).take len
    let d := if bit fl 0 then padTo (canLen len) d else d
    let id := if bit id 31 then 2 ^ 31 + id % 2 ^ 29 else id % 2 ^ 29
    s.canRequest 11 ⟨id, if bit fl 3 then 2 else if bit fl 0 then 1 + 16 * b2n (bit fl 1) else 0, d, false, bit fl 2, some q⟩
def execCanTx (q : Nat) (s : State) : Res State := s.onCmd q CmdCode.canTxCode (State.canTxCmd q)
/-- CAN_TX_CANCEL names the CAN_TX by its tag, of the same session (R594). -/
def State.canCancel (q : Nat) (c : Cmd) (s : State) : State :=
  let tag := u32 c.args 0
  let hit := (s.mbcOf 11).tx.find? fun t => t.host.any fun h => (s.running h).any fun x => x.tag == tag && x.uid == c.uid
  match hit with
  | none => s.complete q 0x1010 0
  | some t =>
    let s := (s.dropTx 11 t).inc (R.MBC_TX_CANCELLED 11)
    let s := match t.host with
      | some h => s.complete h 0x1011 0
      | none => s
    s.complete q 0x1011 0
def execCanTxCancel (q : Nat) (s : State) : Res State := s.onCmd q CmdCode.canTxCancelCode (State.canCancel q)
/-- A car or a door of the bus moves (R599). -/
def State.busMotion (s : State) (b : Nat) : Bool :=
  if b = 8 then s.cars.any s.carMoves
  else decide (b < 8) && (s.carMoves b || (s.doors.any fun d => d / 2 == b && (let st := s.doorState d; st == GEARED || st == OPENING || st == CLOSING || st == NUDGING)))
def State.busSleep (q : Nat) (c : Cmd) (s : State) : State :=
  let b := c.inst
  let ok := s.busUsed b && (s.canState b == 1 || s.canState b == 2) && ((s.canRec b).any fun r => bit (r.u8 0x11) 4) &&
    s.rd (canSleep b) == 0 && !s.busMotion b
  if ok then
    let id := ((s.mbcOf b).sleepId + 1) % 2 ^ 32
    let s := (s.modMbc b fun x => { x with sleepId := id, sleepQ := some q }).wr (canSleep b) 1
    (s.flag (R.MBC_EVENT_STATUS_SLEEP_CHANGE b)).canSend b 3 (sleepFrame 1 0 id)
  else s.complete q STATE 0
def execBusSleep (q : Nat) (s : State) : Res State := s.onCmd q CmdCode.busSleepCode (State.busSleep q)
/-- No objection came within 20 ms: SLEEP COMMIT is requested; the bus is COMMITTED at its start of frame. -/
def execBusSleepCommitTimer (b : Nat) (s : State) : Res State :=
  .next (if s.busUsed b && s.rd (canSleep b) == 1 && !((s.mbcOf b).tx.any fun t => t.id == 3 && u8 t.data 0 == 2) then
    s.canSend b 3 (sleepFrame 2 0 (s.mbcOf b).sleepId) else s)
def execSleepObjection (b id : Nat) (s : State) : Res State := .next (if s.busUsed b then s.objection b id else s)
/-- A wake-up pattern of ISO 11898-2 (R600). -/
def State.wakePattern (s : State) (b : Nat) : State :=
  let s := (s.inc (R.MBC_WAKEUPS b)).wakeSource 5
  let st := s.rd (canSleep b)
  if st = 1 then s.canAbortSleep b 1
  else if st = 2 then s.wrB (canLatch b) true
  else if st = 3 then (s.wrB (canLatch b) true).canWake b else s
/-- In Berth every transceiver stands by with its wake-up detection (R120, R601). -/
def execCanWakePattern (b : Nat) (s : State) : Res State :=
  .next (if s.busUsed b then s.wakePattern b else if s.boll.phase = .berth ∧ b < 12 then s.wakeSource 5 else s)
def State.busWake (q : Nat) (c : Cmd) (s : State) : State :=
  let b := c.inst
  let wait (s : State) : State := s.modMbc b fun x => { x with wakeQ := x.wakeQ ++ [q] }
  if s.busUsed b = false then s.complete q STATE 0
  else match s.rd (canSleep b) with
    | 0 => s.complete q OK 0
    | 1 => (s.canAbortSleep b 0).complete q OK 0
    | 2 => wait (s.wrB (canLatch b) true)
    | 3 => wait (s.canWake b)
    | _ => wait s
def execBusWake (q : Nat) (s : State) : Res State := s.onCmd q CmdCode.busWakeCode (State.busWake q)
def State.busRecover (q : Nat) (c : Cmd) (s : State) : State :=
  let b := c.inst
  if s.busUsed b = false then s.complete q STATE 0
  else if s.canState b = 3 ∨ s.canState b = 4 then
    (s.wr (R.MBC_STATUS_STATE b) 4).modMbc b fun x => { x with recoverQ := x.recoverQ ++ [q] }
  else if s.canState b = 1 ∨ s.canState b = 2 then s.complete q OK 0 else s.complete q STATE 0
def execBusRecover (q : Nat) (s : State) : Res State := s.onCmd q CmdCode.busRecoverCode (State.busRecover q)

/-! ## MBC_CONTROL (R596, R597, R619, R717) -/

def execMbcClearCounters (sess key b : Nat) (s : State) : Res State :=
  .next (if s.keyed sess key && decide (b < 12) then s.clearCounters (0x100000 + 0x1000 * b) 0x1000 else s)
/-- RESTRICT, refused on bus 8 and on a car bus while MOTION is set. -/
def execRestrict (sess key b : Nat) (s : State) : Res State :=
  .next (if s.keyed sess key && s.busUsed b && (s.canState b == 1 || s.canState b == 2) && !(decide (b ≤ 8) && s.motion) then
    s.wr (R.MBC_STATUS_STATE b) 5 else s)
def execUnrestrict (sess key b : Nat) (s : State) : Res State :=
  .next (if s.keyed sess key && s.busUsed b && s.canState b == 5 then (s.wr (R.MBC_STATUS_STATE b) 1).canJudge b else s)
def execInhibitRecovery (sess key b : Nat) (s : State) : Res State :=
  .next (if s.keyed sess key && s.busUsed b then
    let s := s.wrB (R.MBC_STATUS_RECOVERY_INHIBITED b) true
    if s.canState b = 4 ∧ (s.mbcOf b).recoverQ = [] then s.wr (R.MBC_STATUS_STATE b) 3 else s
  else s)
def execAllowRecovery (sess key b : Nat) (s : State) : Res State :=
  .next (if s.keyed sess key && s.busUsed b then
    let s := s.wrB (R.MBC_STATUS_RECOVERY_INHIBITED b) false
    if s.canState b = 3 ∧ s.canInhibited b = false then s.wr (R.MBC_STATUS_STATE b) 4 else s
  else s)

/-! ## STANDING and reference messages (R592, R598) -/

def execStandingAck (b k seq status gen : Nat) (s : State) : Res State :=
  .next (if s.busLive b then s.standingAck b k seq status gen else s)
/-- The repeat of a STANDING that is not acknowledged; after the tenth it is given up. -/
def State.standingRetry (s : State) (b k : Nat) : State :=
  match tget (s.mbcOf b).standing k with
  | none => s
  | some x =>
    if x.tries = 0 then s
    else if 10 ≤ x.tries then
      let s := s.modMbc b fun m => { m with standing := tput m.standing k { x with tries := 0 } }
      (s.raise Ev.STANDING_UNACKED b (le 1 k)).flag (R.MBC_EVENT_STATUS_STANDING_UNACKED b)
    else s.sendCanStanding b k { x with tries := x.tries + 1 }
def execStandingRetry (b k : Nat) (s : State) : Res State := .next (if s.busUsed b && s.portsUp then s.standingRetry b k else s)
/-- A reference message is requested; one that still waits is skipped and counted. -/
def State.reference (s : State) (b : Nat) (r : CfgRec) : State :=
  let id := r.u16 0x1E
  let cyc := (s.rd ((R.MBC_REF_CYCLES b).part 0 6) + 1) % 64
  let s := if (s.mbcOf b).tx.any fun t => t.cyclic && t.id == id then s.incSat ((R.MBC_REF_CYCLES b).part 16 16) else s
  (s.wr ((R.MBC_REF_CYCLES b).part 0 6) cyc).canRequest b ⟨id, 0, le 1 cyc, true, false, none⟩
def execReferenceMessageTimer (b : Nat) (s : State) : Res State :=
  match s.canRec b with
  | some r => .next (if s.busUsed b && s.portsUp && bit (r.u8 0x11) 3 then s.reference b r else s)
  | none => .next s

end Sys2Proof.Machine
end

