-- ==== Sys2Proof/Machine/Serial.lean ====
section
/-!
DEFINITION. RS-485 fixture lines (R602 to R605, R620) and their rows.
-/
namespace Sys2Proof.Machine
open Sys2Proof

/-- CRC-16 with polynomial 0x1021 and initial value 0xFFFF, most significant bit first (R603). -/
def crc16 (l : List Byte) : BitVec 16 :=
  l.foldl (fun (r : BitVec 16) (b : Byte) => (List.range 8).foldl (fun (r : BitVec 16) _ => if r.getLsbD 15 then (r <<< 1) ^^^ 0x1021#16 else r <<< 1)
    (r ^^^ (b.setWidth 16).shiftLeft 8)) 0xFFFF#16
/-- A frame of 13 bytes: the first two bytes, a message, a sequence with ACK, and the CRC. -/
def serialFrame (a b : Nat) (msg : List Byte) (seq : Nat) (ack : Bool) : List Byte :=
  let h := le 1 a ++ le 1 b ++ (msg ++ List.replicate 8 0).take 8 ++ le 1 (seq % 128 + 128 * b2n ack)
  h ++ le 2 (crc16 h).toNat
/-- The fixtures of a line by node, in node order. -/
def State.lineNodes (s : State) (l : Nat) : List (Nat × Nat) :=
  ((s.fixtures.filter fun r => r.u8 0x10 == 1 && r.u8 0x11 == l).map fun r => (r.u8 0x12, r.id)).mergeSort fun a b => decide (a.1 ≤ b.1)
def State.nodeOf (s : State) (l n : Nat) : SerNode := tgetD (s.serOf l).nodes n SerNode.fresh
def serState (l : Nat) : Fld := (R.SER_STATUS l).part 28 4
def State.linePolls (s : State) (l : Nat) : Bool := s.powered && decide (l < 4) && (s.rd (serState l) == 1 || s.rd (serState l) == 3)
/-- The fixtures of the line that are heard (R620). -/
def State.showLine (s : State) (l : Nat) : State :=
  s.wr (R.SER_NODES_ONLINE l) ((s.lineNodes l).filter fun p => !(s.fixt p.2).lost && (s.fixt p.2).heard.isSome).length
/-- A faulty frame (R617): 1 CRC, 2 framing, 3 contention. Sixteen within 1 s are a line fault. -/
def State.lineBad (s : State) (l kind : Nat) : State :=
  let f := s.tick :: ((s.serOf l).faults.filter fun t => decide (s.tick < t + 100000))
  if 16 ≤ f.length then
    let s := (s.modSer l fun x => { x with faults := [] }).wr (serState l) 3
    (s.raise Ev.LINE_FAULT l (le 1 kind)).flag (R.SER_EVENT_STATUS_LINE_FAULT l)
  else s.modSer l fun x => { x with faults := f }
/-- A node is polled in this cycle: one that has missed 3 polls only every 100 ms (R604). -/
def State.pollDue (s : State) (l n : Nat) : Bool :=
  let x := s.nodeOf l n
  decide (x.missed < 3) || decide (x.polled + 10000 ≤ s.tick)
/-- The next node in node order after the last, and whether a new cycle begins with it. -/
def State.nextPoll (s : State) (l : Nat) : Option Nat × Bool :=
  let due := ((s.lineNodes l).map (·.1)).filter (s.pollDue l)
  match (s.serOf l).last with
  | none => (due.head?, true)
  | some k => match due.find? fun n => decide (k < n) with
    | some n => (some n, false)
    | none => (due.head?, true)
/-- The message of the next frame: one to every fixture, then one not yet sent, then the polled node's that still lacks its
ACK. Its target, bytes and sequence. -/
def State.nextMsg (s : State) (l : Nat) (polled : Option Nat) : Nat × List Byte × Nat :=
  let x := s.serOf l
  match x.all with
  | m :: _ => (0xFF, m, x.allSeq)
  | [] =>
    let fresh := x.nodes.find? fun p => !p.2.sent && !p.2.out.isEmpty
    let again := polled.bind fun n => if (s.nodeOf l n).out.isEmpty then none else some (n, s.nodeOf l n)
    match fresh.or again with
    | some (n, y) => (n, y.out.headD [], y.txSeq)
    | none => (0xFF, [], 0)
/-- The times of the poll cycle in µs. -/
def State.cycleDone (s : State) (l : Nat) : State :=
  let us := min 65535 (10 * (s.tick - (s.serOf l).began))
  let s := s.wr (R.SER_POLL_CYCLE l) us
  (if s.rd (R.SER_POLL_CYCLE_MAX l) < us then s.wr (R.SER_POLL_CYCLE_MAX l) us else s).modSer l fun x => { x with began := s.tick }
/-- The next Turid frame; `bad` says that its read-back differs. -/
def State.serialPoll (s : State) (l : Nat) (bad : Bool) : State :=
  let (node, wraps) := s.nextPoll l
  let s := if wraps && (s.serOf l).last.isSome then s.cycleDone l else s
  let (target, msg, seq) := s.nextMsg l node
  let ack := node.any fun n => (s.nodeOf l n).ack
  let s := s.send (.frame (.ser l) 0 (node.getD 0xFF) (serialFrame (node.getD 0xFF) target msg seq ack))
  let s := if target = 0xFF then (if msg = [] then s else s.modSer l fun x => { x with all := x.all.tail, allSeq := (x.allSeq + 1) % 128 })
           else s.modNodeOf l target fun y => { y with sent := true }
  let s := match node with
    | some n => (s.modNodeOf l n fun y => { y with polled := s.tick, ack := false }).modSer l fun x => { x with last := some n, waiting := true }
    | none => s
  if bad then (s.inc (R.SER_CONTENTIONS l)).lineBad l 3 else s
def execSerialPoll (l : Nat) (bad : Bool) (s : State) : Res State :=
  .next (if s.linePolls l && !(s.serOf l).waiting then s.serialPoll l bad else s)
/-- A reply of the polled node: `framing` says that a character lacks its stop bit. -/
def State.serialReply (s : State) (l n : Nat) (b : List Byte) (framing : Bool) : State :=
  let s := s.modSer l fun x => { x with waiting := false }
  if framing then (s.inc (R.SER_FRAMING_ERRORS l)).lineBad l 2
  else if b.length ≠ 13 ∨ u16 b 11 ≠ (crc16 (b.take 11)).toNat then (s.inc (R.SER_CRC_ERRORS l)).lineBad l 1
  else if u8 b 0 ≠ 0x80 + n then s
  else
    let x := s.nodeOf l n
    let acked := bit (u8 b 10) 7 && x.sent
    let seq := u8 b 10 % 128
    let msg := (b.drop 2).take 8
    let isNew := u8 msg 0 != 0 && x.rxSeq != some seq
    let s := (s.inc (R.SER_FRAMES_OK l)).wr (serState l) 1
    let s := s.modNodeOf l n fun y =>
      { y with missed := 0, replies := min 65535 (y.replies + 1), out := if acked then y.out.tail else y.out,
               sent := if acked then false else y.sent, txSeq := if acked then (y.txSeq + 1) % 128 else y.txSeq,
               rxSeq := if isNew then some seq else y.rxSeq, ack := u8 msg 0 != 0 }
    let f := (s.lineNodes l).find? fun p => p.1 == n
    (match f with
      | some p => if isNew then s.fixtureMsg p.2 msg else s
      | none => s).showLine l
def execSerialReply (l : Nat) (data : List Byte) (framing : Bool) (s : State) : Res State :=
  match (s.serOf l).last with
  | some n => .next (if s.linePolls l && (s.serOf l).waiting then s.serialReply l n data framing else s)
  | none => .next s
def execSerialPollTimeout (l : Nat) (s : State) : Res State :=
  match (s.serOf l).last with
  | some n => .next (if s.linePolls l && (s.serOf l).waiting then
      ((s.inc (R.SER_TIMEOUTS l)).modSer l fun x => { x with waiting := false }).modNodeOf l n fun y => { y with missed := min 255 (y.missed + 1) }
    else s)
  | none => .next s
/-- HOLD to every fixture of a line (R35, R603): it goes out at once, under the sequence of messages to all. -/
def State.holdLine (s : State) (l reason : Nat) : State :=
  let q := (s.serOf l).allSeq
  let msg := le 1 0x84 ++ le 1 reason ++ le 4 s.plantIdent ++ le 2 0
  (s.modSer l fun x => { x with allSeq := (x.allSeq + 1) % 128 }).send (.frame (.ser l) 0 0xFF (serialFrame 0xFF 0xFF msg q false))
/-- HOLD on every line in use. -/
def State.holdLines (s : State) (reason : Nat) : State :=
  (List.range 4).foldl (fun s l => if s.rd (serState l) = 0 then s else s.holdLine l reason) s
def execSerClearCounters (sess key l : Nat) (s : State) : Res State :=
  .next (if s.keyed sess key && decide (l < 4) then
    (s.clearCounters (0x10C000 + 0x400 * l) 0x400).modSer l fun x => { x with nodes := x.nodes.map fun p => (p.1, { p.2 with replies := 0 }) }
  else s)

end Sys2Proof.Machine
end

