-- ==== Sys2Proof/Machine/Net.lean ====
section
/-!
DEFINITION. Ethernet, the plant clock and Modbus TCP (R606 to R614, R621) and their rows.
-/
namespace Sys2Proof.Machine
open Sys2Proof

def State.modNet (s : State) (f : Net → Net) : State := { s with net := f s.net }
/-- PORT and PTP records (R607). -/
def State.portRec (s : State) (p : Nat) : Option CfgRec := s.cfg 10 1 p
def State.ptpRec (s : State) : Option CfgRec := s.cfg 10 2 0
def State.portFlag (s : State) (p k : Nat) : Bool := (s.portRec p).any fun r => bit (r.u8 0x11) k
def State.prpPair (s : State) : Bool := s.portFlag 0 0 && s.portFlag 1 0
def beBytes (n v : Nat) : List Byte := (le n v).reverse
/-- A frame has been received on a port; on a LAN of the pair it ends that LAN's fault (R608). -/
def State.heardOn (s : State) (p : Nat) : State :=
  let s := if p < 4 then s.inc (R.NET_PORT_RX_FRAMES p) else s
  if p < 2 then s.wrB (R.NET_PRP_STATUS.bit p) false else s

/-! ## Ports and PRP (R608, R609, R617) -/

/-- The frame of IEC 62439-3: version, sequence, and the node's MAC address in a duplicate-discard entry. -/
def State.prpFrame (s : State) : List Byte :=
  beBytes 2 1 ++ beBytes 2 s.net.prpSeq ++ le 1 20 ++ le 1 6 ++
    beBytes 2 (s.rd (R.NET_PORT_MAC_HI 0) % 65536) ++ beBytes 4 (s.rd (R.NET_PORT_MAC_LO 0)) ++ le 2 0
def execPrpSupervision (s : State) : Res State :=
  .next (if s.portsUp && s.prpPair then
    ((s.sendEth 0 0x88FB 0 s.prpFrame).sendEth 1 0x88FB 0 s.prpFrame).modNet fun x => { x with prpSeq := (x.prpSeq + 1) % 65536 }
  else s)
def execPrpLanTimeout (lan : Nat) (s : State) : Res State :=
  .next (if s.portsUp && s.prpPair && decide (lan < 2) && !s.on (R.NET_PRP_STATUS.bit lan) then
    ((s.wrB (R.NET_PRP_STATUS.bit lan) true).raise Ev.PRP_LAN_FAULT lan (le 1 lan)).flag R.NET_EVENT_STATUS_PRP_LAN_FAULT
  else s)
/-- A link goes up (a speed code of R621) or down (0). -/
def State.linkChange (s : State) (p speed : Nat) (sfp sfpFault : Bool) : State :=
  let f := R.NET_PORT_STATUS p
  let s := ((s.wr (f.part 28 4) speed).wrB (f.bit 27) sfp).wrB (f.bit 26) sfpFault
  let s := (s.incSat (f.part 0 16)).wrB (R.NET_STATUS.bit p) (speed != 0)
  (s.raise Ev.LINK_CHANGE p (le 1 speed)).flag R.NET_EVENT_STATUS_LINK_CHANGE
def execEthLinkChange (p speed : Nat) (sfp sfpFault : Bool) (s : State) : Res State :=
  .next (if s.powered && decide (p < 4) then s.linkChange p (speed % 16) sfp sfpFault else s)
def execAddressConflict (p : Nat) (s : State) : Res State :=
  .next (if s.portsUp && decide (p < 4) then
    (((s.heardOn p).inc R.NET_ARP_CONFLICTS).raise Ev.ADDRESS_CONFLICT p []).flag R.NET_EVENT_STATUS_ADDRESS_CONFLICT else s)
def execUnservedFrame (p : Nat) (s : State) : Res State :=
  .next (if s.portsUp && decide (p < 4) then (s.heardOn p).inc R.NET_DROPPED_UNSERVED else s)
def execNetClearCounters (sess key : Nat) (s : State) : Res State :=
  .next (if s.keyed sess key then s.clearCounters 0x110000 0x1000 else s)

/-! ## The plant clock (R129, R130, R611, R612) -/

/-- The boundary's offset from the 10 µs grid shows as plant time has been set, a whole nanosecond (R129). -/
def State.toGrid (s : State) : State :=
  { s with pwr := { s.pwr with third := 0 } }.wrS R.PWR_TICK_OFFSET (gridOff (3 * s.plantNow) / 3)
/-- A step of plant time (R130), with what it means to billing. -/
def State.stepTime (s : State) (toward : Nat) : State :=
  let back := decide (toward < s.plantNow)
  let s := (s.wr64 R.PWR_PLANT_TIME_LO (toward % 2 ^ 64)).wrB R.PWR_PLANT_TIME_STATUS_STEPPED true
  let s := if back then s.wrB R.PWR_PLANT_TIME_STATUS_BACKWARD_STEP true else s
  let s := { s with pwr := { s.pwr with slewLeft := 0, timeSteps := s.pwr.timeSteps + 1 } }
  let s := (s.wrB R.PWR_PLANT_TIME_STATUS_SLEWING false).wrS R.PWR_PLANT_TIME_SLEW 0
  ((s.flag R.PWR_EVENT_STATUS_PLANT_TIME_STEP).billStep true back).toGrid
/-- The servo's correction: `offset` is plant time less the parent's time, ns. -/
def State.servo (s : State) (offset : Int) : State :=
  if offset = 0 then s
  else if offset.natAbs < 1000000000 then
    let s := { s with pwr := { s.pwr with slewLeft := -offset } }
    (s.wrB R.PWR_PLANT_TIME_STATUS_SLEWING true).wrS R.PWR_PLANT_TIME_SLEW (-offset)
  else s.stepTime (((s.plantNow : Int) - offset) % 2 ^ 64).toNat
def State.ptpState (s : State) (st : Nat) : State :=
  let s := (s.wr R.PWR_PLANT_TIME_STATUS_STATE st).wr R.NET_PTP_STATUS_STATE st
  (s.raise Ev.PTP_STATE 0 (le 1 st)).flag R.NET_EVENT_STATUS_PTP_STATE
def State.parentPort (s : State) : Nat := s.rd R.NET_PTP_STATUS_PARENT_PORT
/-- A Sync: counted; from the parent it feeds the servo. -/
def State.syncIn (s : State) (p : Nat) (offset delay : Int) : State :=
  let s := (s.heardOn p).inc R.NET_PTP_SYNC_RX
  if s.parentPort = p then
    let s := (s.wrS R.NET_PTP_OFFSET offset).wrS R.NET_PTP_MEAN_DELAY delay
    let st := s.rd R.PWR_PLANT_TIME_STATUS_STATE
    let s := if st = 1 ∧ s.rd R.NET_PTP_OFFSET_MAX < offset.natAbs then s.wr R.NET_PTP_OFFSET_MAX (min (2 ^ 32 - 1) offset.natAbs) else s
    if st = 0 then s else s.servo offset
  else s
def execPtpSyncReceived (p : Nat) (offset delay : Int) (s : State) : Res State :=
  .next (if s.portsUp && s.portFlag p 3 then s.syncIn p offset delay else s)
/-- LOCKED (R612); the first lock takes the servo's value and closes the TIME_UNKNOWN interval (R130, R356). -/
def State.timeLocks (s : State) (time : Nat) : State :=
  let st := s.rd R.PWR_PLANT_TIME_STATUS_STATE
  let s := if s.parentPort < 2 then s.wr (R.NET_PTP_PORT_STATES.part (4 * s.parentPort) 4) 5 else s
  if st = 0 then ((s.wr64 R.PWR_PLANT_TIME_LO (time % 2 ^ 64)).ptpState 1).billLocked.toGrid
  else (s.servo ((s.plantNow : Int) - time)).ptpState 1
def execPlantTimeLock (time : Nat) (s : State) : Res State :=
  .next (if s.portsUp && s.parentPort != 0xF && s.rd R.PWR_PLANT_TIME_STATUS_STATE != 1 then s.timeLocks time else s)
def execPlantTimeHoldover (s : State) : Res State :=
  .next (if s.powered && s.rd R.PWR_PLANT_TIME_STATUS_STATE == 1 then
    let s := if s.parentPort < 2 then s.wr (R.NET_PTP_PORT_STATES.part (4 * s.parentPort) 4) 4 else s
    (s.inc R.NET_PTP_LOCK_LOSSES).ptpState 2 else s)
/-- The dataset by which clocks are compared, best first (IEEE 1588). -/
def State.ownClock (s : State) : List Nat :=
  let r := s.ptpRec
  [cfgD r (fun (r : CfgRec) => r.u8 0x12) 128, 248, 0xFE, 0xFFFF, cfgD r (fun (r : CfgRec) => r.u8 0x13) 128,
   s.rd (R.NET_PORT_MAC_HI 0) % 65536 * 2 ^ 32 + s.rd (R.NET_PORT_MAC_LO 0), 0]
def lexLt : List Nat → List Nat → Bool
  | a :: x, b :: y => decide (a < b) || (a == b && lexLt x y)
  | _, _ => false
def State.noParent (s : State) : State :=
  let s := (s.modNet fun x => { x with parent := none }).wr R.NET_PTP_STATUS_PARENT_PORT 0xF
  (s.wr64 R.NET_PTP_GM_ID_LO 0).wr R.NET_PTP_GM_QUALITY 0
/-- The best master clock algorithm on an Announce of a candidate slave port (R611): a clock better than the Turid's own
and than the present parent becomes the parent; a parent that falls behind the Turid's own clock is no parent. -/
def State.announce (s : State) (p : Nat) (d : List Nat) : State :=
  let s := (s.heardOn p).inc R.NET_PTP_ANNOUNCE_RX
  let ident := d.getD 5 0
  let same := s.parentPort == p && s.net.parent.any fun x => x.getD 5 0 == ident
  let better := lexLt d s.ownClock && (same || match s.net.parent with
    | some x => lexLt d x
    | none => true)
  if better then
    let s := (s.modNet fun x => { x with parent := some d }).wr R.NET_PTP_STATUS_PARENT_PORT p
    let s := (s.wr64 R.NET_PTP_GM_ID_LO ident).wr R.NET_PTP_GM_QUALITY (d.getD 1 0 % 256 * 2 ^ 24 + d.getD 2 0 % 256 * 65536 + d.getD 6 0 % 65536)
    let s := if same then s else s.wr (R.NET_PTP_PORT_STATES.part (4 * p) 4) 4
    if same || !s.portFlag (1 - p) 3 then s else s.wr (R.NET_PTP_PORT_STATES.part (4 * (1 - p)) 4) 2
  else if same then (s.noParent).wr (R.NET_PTP_PORT_STATES.part (4 * p) 4) 2 else s
def execPtpAnnounceReceived (p domain prio1 cls acc var prio2 ident steps : Nat) (s : State) : Res State :=
  .next (if s.portsUp && decide (p < 2) && s.portFlag p 3 && s.ptpRec.any (fun r => r.u8 0x10 == 0 && r.u8 0x11 == domain) then
    s.announce p [prio1, cls, acc, var, prio2, ident, steps] else s)
def State.ptpMaster (s : State) (p : Nat) : Bool := s.portsUp && decide (p < 4) && s.portFlag p 3 && s.rd (R.NET_PTP_PORT_STATES.part (4 * p) 4) == 2
/-- A two-step Sync and its Follow_Up: message type, sequence, plant time. -/
def State.syncOut (s : State) (p : Nat) : State :=
  let q := tgetD s.net.ptpSeq p 0
  let s := (s.sendEth p 0x88F7 0 (le 1 0 ++ le 2 q)).sendEth p 0x88F7 0 (le 1 8 ++ le 2 q ++ le 8 s.plantNow)
  s.modNet fun x => { x with ptpSeq := tput x.ptpSeq p ((q + 1) % 65536) }
/-- An interval of 2^x s in ticks (R607). -/
def ptpInterval (x : Nat) : Nat := let k := (BitVec.ofNat 8 x).toInt; if 0 ≤ k then 100000 * 2 ^ k.toNat else 100000 / 2 ^ (-k).toNat
/-- The next sequence of a kind of PTP message on a port: 0 Sync, 1 Announce, 2 Delay_Req. -/
def State.ptpSend (s : State) (kind p : Nat) (msg : Nat → List Byte) : State :=
  let q := tgetD s.net.ptpSeq (4 * kind + p) 0
  (s.sendEth p 0x88F7 0 (msg q)).modNet fun x => { x with ptpSeq := tput x.ptpSeq (4 * kind + p) ((q + 1) % 65536) }
/-- Announce of a master port: the Turid's own clock while it has no parent, else its parent's, one step further (R611). -/
def State.announceOut (s : State) (p : Nat) : State :=
  let d := (s.net.parent.map fun l => l.take 6 ++ [l.getD 6 0 + 1]).getD s.ownClock
  let g (k : Nat) : Nat := d.getD k 0
  s.ptpSend 1 p fun q => le 1 11 ++ le 2 q ++ le 1 (g 0) ++ le 1 (g 1) ++ le 1 (g 2) ++ le 2 (g 3) ++ le 1 (g 4) ++ le 8 (g 5) ++ le 2 (g 6)
/-- A candidate slave port that has heard no better clock for the announce receipt timeout is a master (R611; log 18). -/
def State.ptpListen (s : State) (r : CfgRec) : State :=
  let late := decide (s.net.began + (if r.u8 0x16 = 0 then 3 else r.u8 0x16) * ptpInterval (r.u8 0x15) ≤ s.tick)
  if late && s.net.parent.isNone then
    ((List.range 2).filter fun p => s.portFlag p 3 && s.rd (R.NET_PTP_PORT_STATES.part (4 * p) 4) == 1).foldl (fun s p =>
      s.wr (R.NET_PTP_PORT_STATES.part (4 * p) 4) 2) s
  else s
/-- What a tick brings the plant clock's ports: Announce by every master at its interval, Delay_Req to the parent at its own. -/
def State.ptpTick (s : State) : State :=
  match s.ptpRec with
  | none => s
  | some r =>
    let s := s.ptpListen r
    let s := if s.tick % ptpInterval (r.u8 0x15) = 0 then ((List.range 4).filter s.ptpMaster).foldl State.announceOut s else s
    if s.parentPort < 4 ∧ s.tick % ptpInterval (r.u8 0x17) = 0 then s.ptpSend 2 s.parentPort fun q => le 1 1 ++ le 2 q else s
def execPtpSyncSend (p : Nat) (s : State) : Res State := .next (if s.ptpMaster p then s.syncOut p else s)
def execPtpDelayReq (p who seq : Nat) (s : State) : Res State :=
  .next (if s.ptpMaster p then
    ((s.heardOn p).inc R.NET_PTP_DELAY_REQ_RX).sendEth p 0x88F7 who (le 1 9 ++ le 2 seq ++ le 8 s.plantNow) else s)

/-! ## Modbus TCP (R613, R614) -/

/-- A binary32 register as a point of `1 / k` units: whole numbers, two's complement, +infinity as 0xFFFF_FFFF. -/
def State.pointR (s : State) (f : Fld) (k : Rat) : Nat :=
  let w : Word := BitVec.ofNat 32 (s.rd f)
  if f32IsInf w then (if f32Sign w then 0x80000000 else 0xFFFFFFFF)
  else (BitVec.ofInt 32 (ratRne ((f32? w).getD 0 * k))).toNat
def words2 (v : Nat) : List Nat := [v / 65536 % 65536, v % 65536]
/-- Point 0: the state bits. -/
def State.modbusBits (s : State) : Nat :=
  let l := [s.underway, s.mooring, s.rd R.PWR_STATE_STATE == 2, s.on R.SAF_STATUS_UNCONFIRMED, s.on R.SAF_STATUS_ANY_LATCHED,
    s.on R.SAF_STATUS_ANY_SNOWPLOUGH, s.on R.EST_STATUS_ROLLUP_STALE, s.disp.lowMark, s.disp.breachMark]
  ((l.zipIdx).map fun p => b2n p.1 * 2 ^ p.2).foldl (· + ·) 0
def bitsSet (v : Nat) : Nat := ((List.range 64).filter fun i => bit v i).length
/-- The points 0 to 32 in order. -/
def State.modbusPoints (s : State) : List Nat :=
  let kw (f : Fld) : List Nat := words2 (s.pointR f (1 / 1000))
  let strs (p : Nat → Bool) : Nat := (s.strings.filter fun i => p (s.pstr i).state).length % 65536
  let car (c : Nat) : Nat := s.gState c * 4096 + s.carMode c * 256 + s.rd (R.CAR_STATUS_LANDING c) % 128
  [s.modbusBits, s.rd R.PLT_DISP_STATUS_MODE] ++ kw R.PLT_SETPOINT ++ kw R.PLT_MEASURED_POWER ++ kw R.EST_PLANT_E_AVAIL ++
    kw R.EST_PLANT_E_CONS ++ kw R.PLT_RESERVE_REQUIRED ++ kw R.PLT_RESERVE_MARGIN ++
    [s.pointR R.PLT_GRID_FREQ 1000 % 65536, bitsSet (s.rd64 R.PLT_PCS_LIVE_LO),
     strs fun st => st == 3, strs fun st => st == 5 || st == 6] ++
    (List.range 8).map car ++ [min 65535 (s.rd R.GRP_EVAC_TRIPS)] ++ words2 (s.rd R.PLT_BILL_SEQ) ++
    words2 (s.pointR R.PLT_BILL_IMPORT 1) ++ words2 (s.pointR R.PLT_BILL_EXPORT 1)
/-- The writable points 100 to 103, in kW. -/
def State.modbusLimits (s : State) : List Nat :=
  words2 (s.pointR R.PLT_HOST_EXPORT_MAX (1 / 1000)) ++ words2 (s.pointR R.PLT_HOST_IMPORT_MAX (1 / 1000))
def State.modbusRefresh (s : State) : State := s.modNet fun x => { x with points := s.modbusPoints ++ s.modbusLimits }
def State.pointsNow (s : State) : List Nat := if s.net.points = [] then s.modbusPoints ++ s.modbusLimits else s.net.points
/-- The first words of the pairs. -/
def pairStarts : List Nat := [2, 4, 6, 8, 10, 12, 27, 29, 31, 100, 102]
/-- A range lies in the map and cuts no pair. -/
def mapRange (a n : Nat) : Bool :=
  decide (0 < n) && (decide (a + n ≤ 33) || (decide (100 ≤ a) && decide (a + n ≤ 104))) &&
    !(pairStarts.any fun p => p + 1 == a || p + 1 == a + n)
def be16 (b : List Byte) (o : Nat) : Nat := 256 * u8 b o + u8 b (o + 1)
def be32 (b : List Byte) (o : Nat) : Nat := 65536 * be16 b o + be16 b (o + 2)
def State.mbReply (s : State) (p client : Nat) (pdu : List Byte) : State := s.sendEth p 502 client pdu
def State.mbException (s : State) (p client fn code : Nat) : State :=
  (s.inc R.NET_MODBUS_EXCEPTIONS).mbReply p client (le 1 (fn % 128 + 128) ++ le 1 code)
def ascii (t : String) : List Byte := t.toList.map fun c => BitVec.ofNat 8 c.toNat
/-- Basic device identification. -/
def State.modbusIdent (s : State) : List Byte :=
  let v := s.rd R.SYS_FW_VERSION
  let ver := ascii (toString (v / 2 ^ 24)) ++ ascii "." ++ ascii (toString (v / 65536 % 256)) ++ ascii "." ++ ascii (toString (v % 65536))
  let prod := ascii (if s.rd R.SYS_DEVICE_ID_ORDER_CODE = 0 then "TRD-9A" else "TRD-9E")
  let obj (k : Nat) (t : List Byte) : List Byte := le 1 k ++ le 1 t.length ++ t
  [0x2B#8, 0x0E#8, 1#8, 1#8, 0#8, 0#8, 3#8] ++ obj 0 (ascii "Nirbex") ++ obj 1 prod ++ obj 2 ver
/-- A read or an identification; every other function is illegal here. -/
def State.modbusServe (s : State) (p client : Nat) (pdu : List Byte) : State :=
  let s := (s.heardOn p).inc R.NET_MODBUS_REQUESTS
  let fn := u8 pdu 0
  if fn = 3 ∨ fn = 4 then
    let a := be16 pdu 1
    let n := be16 pdu 3
    if n = 0 ∨ 125 < n then s.mbException p client fn 3
    else if mapRange a n = false then s.mbException p client fn 2
    else
      let l := (s.pointsNow.drop (if a < 100 then a else a - 67)).take n
      s.mbReply p client (le 1 fn ++ le 1 (2 * n) ++ l.flatMap fun v => beBytes 2 v)
  else if fn = 0x2B ∧ u8 pdu 1 = 0x0E then s.mbReply p client s.modbusIdent
  else s.mbException p client fn 1
def State.modbusOn (s : State) (p : Nat) : Bool := s.portsUp && decide (p < 2) && s.portFlag p 2
def execModbusRequest (p client : Nat) (pdu : List Byte) (s : State) : Res State :=
  .next (if s.modbusOn p then s.modbusServe p client pdu else s)
/-- A client may write: WRITES is set and its address is one of the four. -/
def State.mayWrite (s : State) (client : Nat) : Bool :=
  (s.cfg 10 4 0).any fun r => bit (r.u8 0x10) 0 && client != 0 && (List.range 4).any fun k => r.u32 (0x14 + 4 * k) == client
/-- A limit written in kW; 0xFFFF_FFFF writes +infinity. -/
def State.writeLimit (s : State) (f : Fld) (v : Nat) : State :=
  if v = 0xFFFFFFFF then s.wr f 0x7F800000 else s.wr f (toB32 ((1000 * v : Nat) : Rat)).toNat
/-- Write multiple registers. -/
def State.modbusWrites (s : State) (p client : Nat) (pdu : List Byte) : State :=
  let s := (s.heardOn p).inc R.NET_MODBUS_REQUESTS
  let fn := u8 pdu 0
  let a := be16 pdu 1
  let n := be16 pdu 3
  if fn ≠ 0x10 ∨ s.mayWrite client = false then s.mbException p client fn 1
  else if mapRange a n = false ∨ a < 100 then s.mbException p client fn 2
  else if u8 pdu 5 ≠ 2 * n ∨ pdu.length ≠ 6 + 2 * n then s.mbException p client fn 3
  else
    let s := (List.range (n / 2)).foldl (fun s k =>
      s.writeLimit (if a + 2 * k = 100 then R.PLT_HOST_EXPORT_MAX else R.PLT_HOST_IMPORT_MAX) (be32 pdu (6 + 4 * k))) s
    let s := { s with disp := { s.disp with unsent := true } }
    let s := (s.raise Ev.MODBUS_WRITE p (le 4 client)).flag R.NET_EVENT_STATUS_MODBUS_WRITE
    s.mbReply p client (pdu.take 5)
def execModbusWrite (p client : Nat) (pdu : List Byte) (s : State) : Res State :=
  .next (if s.modbusOn p then s.modbusWrites p client pdu else s)
/-- A connection arrives, taken up to the record's count, or ends. -/
def State.modbusConn (s : State) (p : Nat) (opens : Bool) : State :=
  let f := R.NET_MODBUS_STATUS.part 0 3
  let most := cfgD (s.cfg 10 4 0) (fun (r : CfgRec) => r.u8 0x11) 4
  if opens then (if s.rd f < most then s.wr f (s.rd f + 1) else s.send (.frame (.eth p) 502 0 []))
  else s.wr f (s.rd f - 1)
def execModbusConnection (p : Nat) (opens : Bool) (s : State) : Res State :=
  .next (if s.modbusOn p then s.modbusConn p opens else s)

end Sys2Proof.Machine
end

