-- ==== Sys2Proof/Machine/SecOps.lean ====
section
/-!
DEFINITION. What several units share: HOLD on every port (R36), outputs off, the keys and the lifecycle (R665, R668),
the close of a debug session (R679), and the trace ring (R655 to R658).
-/
namespace Sys2Proof.Machine
open Sys2Proof

def State.modSec (s : State) (f : Sec → Sec) : State := { s with sec := f s.sec }
def State.modRec (s : State) (f : RecU → RecU) : State := { s with recu := f s.recu }
def State.modNv (s : State) (f : Nv → Nv) : State := { s with nv := f s.nv }

/-! ## HOLD and outputs -/

/-- HOLD on every port (R36): crossings, PCS units, buses and fixture lines. -/
def State.holdAll (s : State) (reason : Nat) : State :=
  ((s.buses.foldl (fun s b => s.canHold b reason) ((s.holdRings reason).holdPcs reason)).holdLines reason)
/-- Every safety output off (R90, R103): no request and no permit stands. -/
def State.outputsOff (s : State) : State :=
  (((s.wr R.SAF_REQUEST 0).wr R.SAF_OUTPUT_STATE 0).wr R.SAF_PERMIT_PROC 0).wr R.SAF_PERMIT_HW 0

/-! ## Keys and lifecycle -/

/-- The key identifier (R44, R668): the first 4 bytes of the SHA-384 digest of the stored form. -/
def keyId (k : List Byte) : Nat := u32 (Config.sha384 k) 0
/-- A key slot's status (R687): its type, whether it stands in OTP, and its identifier; an empty slot reads 0. -/
def State.showKey (s : State) (slot typ : Nat) (otp : Bool) : State :=
  let k := tgetD s.nv.keys slot []
  s.wr (R.SEC_KEY_STATUS slot) (if k = [] then 0 else typ * 2 ^ 28 + b2n otp * 2 ^ 27 + keyId k % 2 ^ 24)
def State.putKey (s : State) (slot curve : Nat) (k : List Byte) : State :=
  (s.modNv fun n => { n with keys := tput n.keys slot k }).showKey slot (if curve = 1 then 2 else 1) false
/-- A SEC event (R686) with its status bit (R687). -/
def State.secEvent (s : State) (e : EvDef) (data : List Byte) : State :=
  (s.raise e 0 data).flag (R.SEC_EVENT_STATUS.bit (e.code % 256 - 1))
/-- Both manifest slots EMPTY (R55). -/
def State.emptySlots (s : State) : State :=
  (List.range 2).foldl (fun s i => ((((s.wr (R.MAN_SLOT_STATE i) 0).wr (R.MAN_SLOT_GEN i) 0).wr (R.MAN_SLOT_EPOCH i) 0).wr
    (R.MAN_SLOT_LENGTH i) 0).wr (R.MAN_SLOT_SAFETY i) 0) (s.modNv fun n => { n with slots := [] })
/-- Both checkpoint slots zeroised. -/
def State.zeroCkpts (s : State) : State := (s.modNv fun n => { n with ckpt := [] }).showCkpt

/-! ## Debug (R679, R680) -/

/-- The application cores halted. -/
def State.halted (s : State) : Nat := s.rd R.DBG_HALT_STATUS
def State.haltCount (s : State) : Nat := ((List.range 10).filter fun k => bit s.halted k).length
/-- Cores that run beside the eight that R89 needs are spares; a halt takes one (DEDUCED from R89 and R680, log 75). -/
def State.sparesFree (s : State) : Nat := s.rd R.SYS_SELFTEST_CORES_GOOD - 8 - s.haltCount
/-- What each core does: retired beyond the good cores, halted, spare beyond the first eight that run. -/
def State.showCores (s : State) : State :=
  let good := s.rd R.SYS_SELFTEST_CORES_GOOD
  let run := (List.range good).filter fun k => !bit s.halted k
  let s := (List.range 10).foldl (fun s k =>
    s.wr ((R.DBG_CORE_STATUS k).part 28 4) (if good ≤ k then 3 else if bit s.halted k then 2 else if (run.take 8).contains k then 0 else 1)) s
  s.wrB (R.DBG_STATUS.bit 1) (decide (0 < s.sparesFree))
/-- The debug session closes (R679): every halt and breakpoint is released. -/
def State.debugClose (s : State) : State :=
  if s.on R.SEC_DEBUG_STATUS_STATE then
    let s := s.modSec fun x => { x with debugUid := none }
    let s := ((s.wr R.SEC_DEBUG_STATUS 0).wr R.SEC_TOKEN_EXPIRY 0).wrB (R.SEC_STATUS.bit 0) false
    let s := ((((s.wr R.DBG_HALT_REQUEST 0).wr R.DBG_HALT_STATUS 0).wr R.DBG_HALT_DEFERRED 0).wr R.DBG_BREAK_ENABLE 0).wr R.DBG_STATUS 0
    (s.showCores).secEvent Ev.DEBUG_CLOSED []
  else s
/-- A lifecycle transition (R665): its fuse is burnt, and any debug session closes. The power-up after RETURNED is a first one
(R100), and RETURNED clears the site tag (R723). -/
def State.lifeTo (s : State) (st : Nat) : State :=
  let s := if st = 3 then (List.range 4).foldl (fun s k => s.wr (R.SYS_SITE_TAG k) 0)
    (s.modNv fun n => { n with boot := { n.boot with firstPower := true } }) else s
  (((s.debugClose).wr R.SEC_LIFECYCLE_FUSES st).wr R.SEC_LIFECYCLE_STATE st).secEvent Ev.LIFECYCLE_CHANGED []

/-! ## Trace ring (R655 to R658) -/

def traceSize : Nat := 2 ^ 28
/-- The newest packets that fit the ring. -/
def traceFit : Nat → List TracePkt → List TracePkt
  | _, [] => []
  | room, p :: t => if p.len ≤ room then p :: traceFit (room - p.len) t else []
/-- A packet written by a source under its next sequence; the ring overwrites its oldest packets. -/
def State.trace (s : State) (kind src : Nat) (data : List Byte) : State :=
  let len := 16 + (data.length + 7) / 8 * 8
  let q := tgetD s.recu.traceSeq src 0
  let total := s.recu.traceBytes + len
  let wraps := decide (s.recu.traceBytes / traceSize < total / traceSize)
  let s := s.modRec fun r => { r with
    trace := traceFit traceSize (⟨kind, src, len, q, s.tick, data⟩ :: r.trace),
    traceBytes := total, traceSeq := tput r.traceSeq src ((q + 1) % 2 ^ 32) }
  if wraps then (s.inc R.REC_TRACE_WRAPS).wrB R.REC_TRACE_STATUS_WRAPPED true else s
/-- SYNC (R656). -/
def State.traceSync (s : State) (src : Nat) : State :=
  s.trace 1 src (le 8 s.stampTime ++ le 4 s.opSec ++ le 4 (s.rd R.PWR_POWER_CYCLES) ++
    le 4 (s.rd (if bit (s.rd R.SEC_FW_RUNNING) 31 then R.SEC_FW_VERSION_B else R.SEC_FW_VERSION_A)) ++ le 4 0)
/-- The domain that a source runs in (R133, R655). -/
def traceDomain (src : Nat) : Nat :=
  if src = 0 then 1 else if src ≤ 9 then 2 else if src = 10 then 3 else if src = 11 then 4 else if src = 12 then 7 else 14
/-- The sources that a domain stops or wakes. -/
def traceSources (dom : Nat) : List Nat := (List.range 14).filter fun k => traceDomain k == dom
/-- A domain enters low power: its sources say so (R657). -/
def State.traceDown (s : State) (dom st : Nat) : State := (traceSources dom).foldl (fun s k => s.trace 2 k (le 1 st ++ le 7 0)) s
def State.traceUp (s : State) (dom : Nat) : State :=
  (traceSources dom).foldl (fun s k => (s.trace 3 k (le 4 (s.rd R.PWR_WAKE_CAUSE) ++ le 4 0)).traceSync k) s

end Sys2Proof.Machine
end

