-- ==== Sys2Proof/Machine/Rec.lean ====
section
/-!
DEFINITION. The event recorder, its clear ledger and its export, the trace, and returned parts (R643 to R664) and their
rows.
-/
namespace Sys2Proof.Machine
open Sys2Proof

/-! ## Records as bytes (R645, R653, R655) -/

def padEnd (n : Nat) (b : List Byte) : List Byte := (b ++ List.replicate (n - b.length) 0#8).take n
/-- A record as the log holds it. -/
def LogRec.bytes (r : LogRec) : List Byte :=
  let head (crc : Nat) : List Byte := le 1 (r.len / 8) ++ le 1 (r.mark + 16 * r.flags) ++ le 2 r.code ++ le 4 r.seq ++ le 4 r.opSec ++
    le 2 r.opMs ++ le 2 r.inst ++ le 4 r.cycles ++ le 4 crc ++ le 8 r.plantTime
  let data := padEnd (r.len - 32) r.data
  head (crc32c (head 0 ++ data)).toNat ++ data
/-- A ledger entry (R653). -/
def Ledger.entry (e : Ledger) : List Byte :=
  let b := le 1 e.index ++ le 1 e.reason ++ le 2 0 ++ le 4 e.lastSeq ++ le 4 e.records ++ le 4 e.bytes ++ le 4 e.opSec ++
    le 4 e.cycles ++ le 8 e.plantTime ++ le 8 e.serial ++ List.replicate 20 0#8
  b ++ le 4 (crc32c b).toNat
/-- A trace packet (R655). -/
def TracePkt.bytes (p : TracePkt) : List Byte :=
  le 1 p.kind ++ le 1 p.src ++ le 2 p.len ++ le 4 p.seq ++ le 8 p.tick ++ padEnd (p.len - 16) p.data
/-- The append offset checkpoint (R649). -/
def State.appendCkpt (s : State) : State := s.modNv fun n => { n with appendMark := s.rd R.REC_USED }
def execAppendCheckpoint (s : State) : Res State := .next (if s.powered then s.appendCkpt else s)

/-! ## Export (R654) -/

/-- The records of an export, oldest first: the log, then what stands in the trip reserve. -/
def State.logFrom (s : State) (seq : Nat) : List LogRec := (s.nv.log.reverse ++ s.nv.reserve.reverse).dropWhile fun r => seq != 0 && r.seq != seq
/-- The bytes of an export; none where the kind or the sequence names nothing. -/
def State.exportBytes (s : State) (kind seq : Nat) : Option (List Byte) :=
  match kind with
  | 0 => if seq ≠ 0 ∧ s.logFrom seq = [] then none else some ((s.logFrom seq).flatMap LogRec.bytes)
  | 1 => some (s.nv.ledger.flatMap Ledger.entry)
  | 2 => some (s.recu.trace.reverse.flatMap TracePkt.bytes)
  | _ => none
/-- One EXPORT_DATA event. -/
def State.exportPiece (s : State) (x : Export) : State :=
  let sent := x.total - x.bytes.length
  let d := x.bytes.take 80
  let s := s.post 3 Ev.EXPORT_DATA.code 0 (le 4 sent ++ le 1 d.length ++ le 1 x.kind ++ le 2 0 ++ padEnd 80 d)
  (s.modRec fun r => { r with exp := some { x with bytes := x.bytes.drop 80 } }).wr R.REC_EXPORT_OFFSET (sent + d.length)
/-- The export ends. -/
def State.exportEnd (s : State) : State :=
  ((s.modRec fun r => { r with exp := none }).wrB R.REC_EXPORT_STATUS_RUNNING false).wrB R.REC_EXPORT_STATUS_PAUSED false
/-- The stream runs on until its bytes are sent or queue 3 holds 32,768 entries or more. -/
def State.exportRun : Nat → State → State
  | 0, s => s
  | n + 1, s =>
    match s.recu.exp with
    | none => s
    | some x =>
      if x.bytes = [] then (s.exportEnd).raise Ev.EXPORT_DONE 0 (le 4 x.total)
      else if 32768 ≤ (s.eventQ 3).entries.length then s.wrB R.REC_EXPORT_STATUS_PAUSED true
      else State.exportRun n ((s.wrB R.REC_EXPORT_STATUS_PAUSED false).exportPiece x)
def State.stream (s : State) : State :=
  match s.recu.exp with
  | some x => State.exportRun (x.bytes.length / 80 + 2) s
  | none => s
def State.exportFrom (q : Nat) (c : Cmd) (s : State) : State :=
  if (s.eventQ 3).owner ≠ some c.sess then s.complete q 0x0108 0
  else if s.recu.exp.isSome then s.complete q BUSY 0
  else match s.exportBytes (u8 c.args 0) (u32 c.args 4) with
    | none => s.complete q 0x0101 0
    | some b =>
      let s := s.modRec fun r => { r with exp := some ⟨q, c.sess, c.uid, u8 c.args 0, b.length, b⟩ }
      let s := ((s.wr R.REC_EXPORT_STATUS_SESSION c.sess).wr R.REC_EXPORT_STATUS_KIND (u8 c.args 0)).wr R.REC_EXPORT_OFFSET 0
      ((s.wrB R.REC_EXPORT_STATUS_RUNNING true).complete q OK b.length).stream
def execExportCmd (q : Nat) (s : State) : Res State := s.onCmd q CmdCode.exportCode (State.exportFrom q)
def execExportStreamResume (s : State) : Res State := .next s.stream
/-- EXPORT_STOP: the bytes sent. -/
def State.exportStop (q : Nat) (_c : Cmd) (s : State) : State :=
  match s.recu.exp with
  | none => s.complete q STATE 0
  | some x => s.exportEnd.complete q OK (x.total - x.bytes.length)
def execExportStop (q : Nat) (s : State) : Res State := s.onCmd q CmdCode.exportStopCode (State.exportStop q)

/-! ## Clearing (R651 to R653) -/

/-- CLEAR_LOG judged in the order of R651; the clear's queue and certificate serial wait for CLEAR_COMMIT. -/
def State.clearLog (q : Nat) (c : Cmd) (s : State) : State :=
  if !s.holds c.sess 8 then s.complete q ROLE 0
  else if !s.keySwitch then s.complete q 0x1410 0
  else if !s.underway then s.complete q STATE 0
  else if 256 ≤ s.nv.ledger.length then s.complete q 0x1411 0
  else if s.recu.clear.isSome || s.recu.exp.any fun x => x.kind == 0 then s.complete q BUSY 0
  else s.modRec fun r => { r with clear := some (q, ((s.session c.sess).map (·.serial)).getD 0) }
def execClearLog (q : Nat) (s : State) : Res State := s.onCmd q CmdCode.clearLogCode (State.clearLog q)
/-- A ledger entry for the log as it stands, which is then empty (R652, R653). -/
def State.ledgerClear (s : State) (reason serial : Nat) : State :=
  let e : Ledger := ⟨s.nv.ledger.length, reason, s.rd R.REC_NEXT_SEQ - 1, s.rd R.REC_RECORDS + s.nv.reserve.length,
    s.rd R.REC_USED + s.rd R.REC_RESERVE_USED, s.opSec, s.rd R.PWR_POWER_CYCLES, s.stampTime, serial⟩
  let s := s.modNv fun n => { n with ledger := n.ledger ++ [e], log := [], reserve := [], appendMark := 0 }
  let s := ((((s.inc R.REC_LEDGER_COUNT).wr R.REC_USED 0).wr R.REC_RECORDS 0).wr R.REC_LOST 0).wr R.REC_TORN 0
  let s := ((s.wr R.REC_RESERVE_USED 0).wrB R.REC_STATUS_HIGH false).wrB R.REC_STATUS_FULL false
  s.wrB R.REC_STATUS_RESERVE_IN_USE false
/-- The clear itself: the ledger entry, then CLEAR at the head of the new log. -/
def State.clearCommit (s : State) (q serial : Nat) : State :=
  let last := s.rd R.REC_NEXT_SEQ - 1
  let n := s.rd R.REC_RECORDS + s.nv.reserve.length
  let idx := s.nv.ledger.length
  let s := (s.modRec fun r => { r with clear := none }).ledgerClear 0 serial
  let s := s.wr R.REC_FIRST_SEQ (s.rd R.REC_NEXT_SEQ)
  let s := (s.raise Ev.LOG_CLEARED 0 (le 4 last ++ le 4 n ++ le 1 idx)).wrB R.REC_STATUS_ZEROING true
  (s.flag R.REC_EVENT_STATUS_CLEARED).complete q OK idx
def execClearCommit (s : State) : Res State :=
  .next (match s.recu.clear with
    | some (q, serial) => if s.powered then s.clearCommit q serial else s
    | none => s)
def execZeroingDone (s : State) : Res State := .next (if s.powered then s.wrB R.REC_STATUS_ZEROING false else s)

/-! ## Returning a part (R659, R660) -/

/-- RETURN_PREPARE: the choice and the reference are kept for 60 s. -/
def State.returnPrepare (q : Nat) (c : Cmd) (s : State) : State :=
  if !s.holds c.sess 12 then s.complete q ROLE 0
  else if !s.keySwitch then s.complete q 0x1410 0
  else if 1 < u8 c.args 0 then s.complete q 0x0101 0
  else if u8 c.args 0 = 1 ∧ 256 ≤ s.nv.ledger.length then s.complete q 0x1411 0
  else
    let ref := padEnd 16 ((c.args.drop 4).take 16)
    let s := s.modRec fun r => { r with prep := some (u8 c.args 0, ref) }
    let s := (s.wr R.REC_RETURN_STATUS_CHOICE (u8 c.args 0)).wr R.REC_RETURN_STATUS_STATE 1
    ((s.raise Ev.RETURN_PREPARED 0 (le 1 (u8 c.args 0) ++ ref)).flag R.REC_EVENT_STATUS_RETURN_PREPARED).complete q OK 0
def execReturnPrepare (q : Nat) (s : State) : Res State := s.onCmd q CmdCode.returnPrepareCode (State.returnPrepare q)
/-- The preparation is cancelled (R659). -/
def State.returnCancel (s : State) : State :=
  if s.recu.prep.isSome then (s.modRec fun r => { r with prep := none }).wr R.REC_RETURN_STATUS 0 else s
def execReturnPrepareExpiry (s : State) : Res State := .next s.returnCancel
/-- The effects of R660. -/
def State.returned (s : State) (choice serial : Nat) : State :=
  let s := s.wr R.REC_RETURN_STATUS_STATE 2
  let s := ((s.cars.foldl State.endRequests s).outputsOff.wrB R.SAF_STATUS_RUNNING false).holdAll 6
  let s := [3, 4, 5, 6].foldl (fun s k => (s.modNv fun n => { n with keys := tdel n.keys k }).showKey k 0 false) s
  let s := (s.zeroCkpts.emptySlots).modNv fun n => { n with billing := [], billOpen := none, billSeq := 0, pcsLast := [] }
  let s := s.modRec fun r => { r with prep := none }
  if choice = 1 then ((s.ledgerClear 1 serial).wrB R.REC_STATUS_ZEROING true).lifeTo 3
  else (s.lifeTo 3).wrB R.REC_STATUS_READ_ONLY true
/-- RETURN_COMMIT: the same reference while the preparation stands; another reference cancels it. Only SEALED is left
for Returned (R665). -/
def State.returnCommit (q : Nat) (c : Cmd) (s : State) : State :=
  match s.recu.prep with
  | none => s.complete q STATE 0
  | some (choice, ref) =>
    if padEnd 16 (c.args.take 16) ≠ ref then s.returnCancel.complete q STATE 0
    else if !s.keySwitch then s.complete q 0x1410 0
    else if s.lifecycle ≠ 2 then s.complete q STATE 0
    else if choice = 1 ∧ 256 ≤ s.nv.ledger.length then s.complete q 0x1411 0
    else (s.returned choice (((s.session c.sess).map (·.serial)).getD 0)).complete q OK 0
def execReturnCommit (q : Nat) (s : State) : Res State := s.onCmd q CmdCode.returnCommitCode (State.returnCommit q)

/-! ## Trace (R656, R664) -/

/-- CLEAR_TRACE: the ring is emptied. -/
def execClearTrace (sess key : Nat) (s : State) : Res State :=
  .next (if s.keyed sess key then
    (s.modRec fun r => { r with trace := [], traceBytes := 0 }).wrB R.REC_TRACE_STATUS_WRAPPED false else s)
/-- Every source that runs emits SYNC. -/
def execTraceSync (s : State) : Res State :=
  .next (if s.powered then ((List.range 14).filter fun k => s.live (traceDomain k)).foldl State.traceSync s else s)

end Sys2Proof.Machine
end

