-- ==== Sys2Proof/Machine/HelmOps.lean ====
section
/-!
DEFINITION. What every Helm message shares (R152 to R164): its acceptance, the close of a session, the Glide conditions
of R114, and the staging that a session holds.
-/
namespace Sys2Proof.Machine
open Sys2Proof

/-! ## Glide conditions (R114) -/

def State.modMan (s : State) (f : Man → Man) : State := { s with man := f s.man }
def State.modBoll (s : State) (f : Bollard → Bollard) : State := { s with boll := f s.boll }
def State.modHq (s : State) (f : Hq → Hq) : State := { s with hq := f s.hq }
/-- The DEVICE record of STRUCT (R53). -/
def State.device (s : State) : Option CfgRec := s.cfg 1 1 0
/-- The Glide threshold (R53), which may be 0 W; 50,000 W where no record gives one. -/
def State.glideThreshold (s : State) : Rat := s.device.elim 50000 (·.f32 0x14)
/-- Plant power set-point or measured plant power stands at or above the Glide threshold (R114). -/
def State.plantBusy (s : State) : Bool :=
  decide (s.glideThreshold ≤ ratAbs (s.rdR R.PLT_SETPOINT 0)) || decide (s.glideThreshold ≤ ratAbs (s.rdR R.PLT_MEASURED_POWER 0))
/-- A staging is open, or an accepted patch has not taken effect (R114, R117). -/
def State.patchPending (s : State) : Bool := s.man.stage.isSome || s.man.patch.isSome
/-- Bits [8:0] of `PWR_GLIDE_STATUS`: MOTION, SNOWPLOUGH and ACQ_ARMED as their units keep them, the others as they
stand. -/
def State.glideBits (s : State) : Nat :=
  let kept := s.rd R.PWR_GLIDE_STATUS
  [bit kept 0, s.plantBusy, s.device.any fun r => r.u8 0x13 == 0, s.on (R.PWR_GLIDE_INHIBIT.bit 0), s.evac, bit kept 5,
   s.patchPending, bit kept 7, !s.underway].zipIdx.foldl (fun a p => a + b2n p.1 * 2 ^ p.2) 0
/-- `PWR_GLIDE_STATUS` as it reads: DWELL stands in Stride while the bits are clear and Glide has not begun. -/
def State.glideStatus (s : State) : Nat :=
  s.glideBits + (if s.glideBits = 0 ∧ s.rd R.PWR_STATE_STATE ≠ 2 ∧ s.rd R.PWR_STATE_STATE ≠ 4 then 512 else 0)

/-! ## Stagings (R55, R81) -/

/-- The states of a manifest slot (R55). -/
abbrev EMPTY : Nat := 0
abbrev WRITING : Nat := 1
abbrev TRIAL : Nat := 2
abbrev ACTIVE : Nat := 3
abbrev STANDBY : Nat := 4
abbrev INVALID : Nat := 5
def State.slotState (s : State) (i : Nat) : Nat := s.rd (R.MAN_SLOT_STATE_STATE i)
def State.slotTo (s : State) (i st : Nat) : State := s.wr (R.MAN_SLOT_STATE_STATE i) st
/-- A slot made INVALID with its error code. -/
def State.slotBad (s : State) (i code : Nat) : State := (s.slotTo i INVALID).wr (R.MAN_SLOT_STATE_ERROR i) code
/-- No staging is open: its registers say so. -/
def State.stageGone (s : State) : State :=
  (((s.modMan fun m => { m with stage := none }).wrB R.MAN_STATUS_STAGING false).wr R.MAN_STAGE_LENGTH 0).wr R.MAN_STAGE_RECEIVED 0
/-- The open staging is closed without a commit: a WRITING slot becomes INVALID; a patch shows CANCELLED. -/
def State.abortStage (s : State) : State :=
  match s.man.stage with
  | none => s
  | some g =>
    let s := s.stageGone
    if g.kind = 0 then s.slotBad g.slot 0
    else if g.kind = 1 ∧ s.man.patch = none then s.wr R.MAN_PATCH_STATUS_STATE 6 else s

/-! ## Sessions -/

/-- A waiting access shows on its domain and session (R139). -/
def State.showHung (s : State) : State :=
  (List.range 16).foldl (fun s d => s.wrB (R.PWR_DOMAIN_STATUS_HUNG d)
    (s.hq.sessions.any fun p => p.2.wait.any fun w => w.dom == d)) s
/-- An event queue without its owner: what it has not acknowledged is sent again to the next (R185). -/
def State.releaseQueue (s : State) (q : Nat) : State := s.setEventQ q { s.eventQ q with owner := none, sent := 0 }
/-- A session closes (R154): its staging, event queues, listening, shadows, staged restore, export and debug session go
with it; the commands and fences that it queued stay. -/
def State.closeSession (s : State) (n : Nat) : State :=
  match s.session n with
  | none => s
  | some x =>
    let s := if s.man.stage.any fun g => g.sess == n && g.uid == x.uid then s.abortStage else s
    let s := (List.range 4).foldl (fun s q => if (s.eventQ q).owner = some n then s.releaseQueue q else s) s
    let s := if s.est.restore.any fun r => r.sess == n && r.uid == x.uid then s.abortRestore else s
    let s := if s.recu.exp.any fun e => e.sess == n && e.uid == x.uid then s.exportEnd else s
    let s := if s.sec.debugUid = some x.uid then s.debugClose else s
    ((s.modHq fun h => { h with sessions := tdel h.sessions n }).send (.closed n)).showHung
def State.closeAll (s : State) : State := (List.range 8).foldl State.closeSession s

/-! ## Messages (R157 to R164) -/

/-- The statuses of R160 beside those of `Ops`. -/
abbrev BAD_TYPE : Nat := 0x0100
abbrev BAD_MESSAGE : Nat := 0x0101
abbrev BAD_ADDRESS : Nat := 0x0102
abbrev ALIGN : Nat := 0x0103
abbrev READ_ONLY_WINDOW : Nat := 0x0104
abbrev DOMAIN_RESET_ST : Nat := 0x0105
abbrev FULL : Nat := 0x0106
abbrev TAG_IN_USE : Nat := 0x0107
abbrev OWNED : Nat := 0x0108
abbrev INCOMPLETE : Nat := 0x010A
abbrev OUT_OF_ORDER : Nat := 0x010B
abbrev BAD_SEQUENCE : Nat := 0x010D
/-- The Turid is in firmware recovery (R102, R726). -/
def State.recovery (s : State) : Bool := s.stage == 0xC
/-- Helm serves no Helm CA yet (R674). -/
def State.noCa (s : State) : Bool := decide (tgetD s.nv.keys 5 [] = []) && s.lifecycle != 3
/-- The message is one that the present restricted Helm executes (R674, R726): in firmware recovery READ, SESSION_ROLE and
the firmware transfer; with slot 5 empty READ, SESSION_ROLE and QUEUE_PUSH. -/
def State.serves (s : State) (typ : Nat) : Bool :=
  if s.recovery then typ == 1 || typ == 0x50 || typ == 0x30 || typ == 0x31 || typ == 0x32
  else if s.noCa then typ == 1 || typ == 0x50 || typ == 0x10 else true
/-- A response that leaves the outstanding requests as they are. -/
def State.refuseMsg (s : State) (n tag typ status : Nat) : State := s.sendTo n (.response n tag typ status false [])
/-- `MAN_LOAD_ERROR` with a code that belongs to no section. -/
def State.loadCode (s : State) (code : Nat) : State :=
  ((s.wr R.MAN_LOAD_ERROR_CODE code).wr R.MAN_LOAD_ERROR_SECTION 0).wr R.MAN_LOAD_ERROR_OFFSET 0
/-- A manifest message from a session without the engineer role stands in `MAN_LOAD_ERROR` (R83). -/
def State.roleRefused (s : State) (typ : Nat) : State := if 0x30 ≤ typ ∧ typ ≤ 0x33 then s.loadCode ROLE else s
/-- A commit that the restricted Helm does not execute stands there too, since its response carries that code (R160). -/
def State.stateRefused (s : State) (typ : Nat) : State := if typ = 0x32 ∨ typ = 0x33 then s.loadCode STATE else s
/-- The tag of a held message. -/
def heldTag : Instr → Option Nat
  | .read _ tag _ _ => some tag
  | .write _ tag _ _ => some tag
  | .readModifyWrite _ tag _ _ _ => some tag
  | .bulkRead _ tag _ _ => some tag
  | .queuePush _ tag _ _ => some tag
  | .queueAck _ tag _ _ => some tag
  | .fence _ tag _ _ _ => some tag
  | .subscribe _ tag _ _ => some tag
  | .sessionRole _ tag _ => some tag
  | .restoreLearned _ tag _ _ _ _ _ => some tag
  | .manifestBegin _ tag _ _ => some tag
  | .manifestChunk _ tag _ _ => some tag
  | .manifestCommit _ tag => some tag
  | .patchCommit _ tag _ => some tag
  | .firmwareCommit _ tag _ _ _ => some tag
  | .badTypeMessage _ h _ => some (u32 h 4)
  | _ => none
/-- A Helm request (R155, R158): refused where its tag is in use, 64 requests are outstanding, the restricted Helm does
not execute it or the role lacks; held while an access of its session waits on a stopped domain (R139); else run. -/
def State.helm (s : State) (n tag typ need : Nat) (i : Instr) (f : State → State) : State :=
  match s.session n with
  | none => s
  | some x =>
    if x.handshaking then s
    else if x.tags.contains tag || x.held.any (fun h => heldTag h == some tag) then s.refuseMsg n tag typ TAG_IN_USE
    else if 64 ≤ x.tags.length + x.held.length then s.refuseMsg n tag typ BUSY
    else if x.wait.isSome then s.setSession n { x with held := x.held ++ [i] }
    else if !s.serves typ then (s.stateRefused typ).refuseMsg n tag typ STATE
    else if !s.holds n need then (s.roleRefused typ).refuseMsg n tag typ ROLE
    else f (s.setSession n { x with tags := tag :: x.tags })

end Sys2Proof.Machine
end

