-- ==== Sys2Proof/Machine/ManOps.lean ====
section
/-!
DEFINITION. Manifests as bytes (R43 to R53) and the checks of a load (R54, R62, R75), with the two slots and their patch
logs (R55, R64, R73, R74).
-/
namespace Sys2Proof.Machine
open Sys2Proof

/-! ## The image -/

/-- An entry of the section table (R46), with its place; `clean` where its reserved words are 0. -/
structure SecEntry where
  at' : Nat
  typ : Nat
  ver : Nat
  off : Nat
  len : Nat
  count : Nat
  crc : Nat
  clean : Bool
  deriving DecidableEq, Repr
/-- The entries of the section table that the header counts. -/
def secEntries (b : List Byte) : List SecEntry :=
  (List.range (u16 b 0x16)).map fun k =>
    let o := u32 b 0x18 + 32 * k
    ⟨o, u16 b o, u16 b (o + 2), u32 b (o + 8), u32 b (o + 0xC), u32 b (o + 0x10), u32 b (o + 0x14),
      u32 b (o + 4) == 0 && u64 b (o + 0x18) == 0⟩
def SecEntry.body (b : List Byte) (e : SecEntry) : List Byte := (b.drop e.off).take e.len
/-- The records of a body (R50): `n` of them, which fill it exactly, the reserved words of their headers 0. -/
def splitRecs : Nat → List Byte → Option (List CfgRec)
  | 0, b => if b = [] then some [] else none
  | n + 1, b =>
    let len := u32 b 4
    if len < 16 ∨ len % 8 ≠ 0 ∨ b.length < len ∨ u16 b 2 ≠ 0 ∨ u32 b 0xC ≠ 0 then none
    else match splitRecs n (b.drop len) with
      | none => none
      | some l => some (⟨u16 b 0 / 256, u16 b 0 % 256, u32 b 8, b.take len⟩ :: l)
def SecEntry.recs (b : List Byte) (e : SecEntry) : List CfgRec := (splitRecs e.count (e.body b)).getD []
def imageRecs (b : List Byte) : List CfgRec := (secEntries b).flatMap fun e => e.recs b
/-- The section types that a patch may hold (R49). -/
def patchable (t : Nat) : Bool := [3, 4, 5, 7, 8, 12, 13].contains t
/-- The kinds of record (R52): section, kind, length (0 where the spec gives none) and largest identity. -/
def kindTable : List (Nat × Nat × Nat × Nat) :=
  [(1, 1, 48, 0), (2, 1, 40, 65535), (2, 2, 24, 15), (3, 1, 5576, 511), (3, 2, 32, 1), (4, 1, 35864, 15), (5, 1, 32, 15),
   (5, 2, 32, 255), (5, 3, 32, 4095), (5, 4, 48, 63), (6, 1, 32, 127), (6, 2, 136, 7), (6, 3, 104, 15), (6, 4, 88, 7)] ++
  [(7, 1, 64, 0), (7, 2, 40, 15), (7, 3, 32, 7), (8, 1, 48, 0), (8, 2, 48, 0), (8, 3, 32, 0), (8, 4, 64, 0), (8, 5, 32, 0),
   (9, 1, 56, 63), (9, 2, 24, 1055), (9, 3, 24, 23), (9, 4, 176, 4294967295), (9, 5, 1056, 0)] ++
  [(10, 1, 48, 3), (10, 2, 32, 0), (10, 3, 32, 0), (10, 4, 32, 0), (10, 5, 32, 63), (10, 6, 48, 11), (10, 7, 32, 3),
   (11, 1, 24, 63), (11, 2, 24, 31), (11, 3, 24, 4294967295), (11, 4, 24, 4294967295), (11, 5, 48, 11), (11, 6, 32, 1023),
   (11, 7, 32, 271), (11, 8, 0, 4294967295), (12, 1, 168, 63), (12, 2, 64, 63), (13, 1, 0, 4)]
/-- A record of a kind its section defines, of its length, with an identity in range (R51, R52). -/
def CfgRec.shapeOk (r : CfgRec) (sec : Nat) : Bool :=
  r.sec == sec && kindTable.any fun k => k.1 == sec && k.2.1 == r.kind && (k.2.2.1 == 0 || k.2.2.1 == r.body.length) && decide (r.id ≤ k.2.2.2)
/-- Records in strictly ascending order of kind, then identity (R51). -/
def recsSorted : List CfgRec → Bool
  | a :: b :: t => (decide (a.kind < b.kind) || (a.kind == b.kind && decide (a.id < b.id))) && recsSorted (b :: t)
  | _ => true
def SecEntry.recsOk (b : List Byte) (e : SecEntry) : Bool :=
  match splitRecs e.count (e.body b) with
  | none => false
  | some l => (l.all fun r => r.shapeOk e.typ) && recsSorted l

/-! ## Checks of R54 -/

/-- A check that failed: its code, the section it failed in, and the image offset. -/
structure LoadErr where
  code : Nat
  sec : Nat
  off : Nat
  deriving DecidableEq, Repr
/-- The first failing check of a list. -/
def firstErr (l : List (Bool × LoadErr)) : Option LoadErr := (l.find? fun p => !p.1).map (·.2)
def maxFile : Nat := 2 ^ 26
/-- The reserved fields of the header are 0 (R43, R44). -/
def headerClean (b : List Byte) : Bool := decide (u16 b 6 < 2) && u16 b 0x26 == 0 && ((b.take 256).drop 0x68).all (· == 0)
/-- Where the last section body ends, or the section table without one (R44). -/
def bodiesEnd (b : List Byte) : Nat := (secEntries b).foldl (fun m e => max m (e.off + e.len)) (u32 b 0x18 + 32 * u16 b 0x16)
/-- Magic, versions, lengths, alignment and reserved header fields. -/
def formErr (b : List Byte) (declared : Nat) : Option LoadErr :=
  let len := u32 b 0x1C
  let es := secEntries b
  let astray := es.find? fun e => e.off % 8 != 0 || e.len % 8 != 0 || decide (len < e.off + e.len)
  firstErr [
    (b.take 4 == [0x4D#8, 0x46#8, 0x58#8, 0x32#8], ⟨0x0001, 0, 0⟩),
    (u16 b 4 / 256 == 2, ⟨0x0002, 0, 4⟩),
    (es.all fun e => e.ver == 0x0100, ⟨0x0002, ((es.find? fun e => e.ver != 0x0100).elim 0 (·.typ)), ((es.find? fun e => e.ver != 0x0100).elim 0 (·.at'))⟩),
    (b.length == declared && b.length == len + 144 && decide (b.length ≤ maxFile) && len % 8 == 0 && decide (256 ≤ len) &&
      decide (u32 b 0x18 + 32 * u16 b 0x16 ≤ len), ⟨0x0003, 0, 0x1C⟩),
    (astray.isNone, ⟨0x0003, astray.elim 0 (·.typ), astray.elim 0 (·.at')⟩),
    (bodiesEnd b == len, ⟨0x0003, 0, 0x1C⟩),
    (headerClean b, ⟨0x0003, 0, 6⟩)]
/-- Digest, key identifier and signature (R47). -/
def State.sealErr (s : State) (b : List Byte) : Option LoadErr :=
  let len := u32 b 0x1C
  let digest := Config.sha384 (b.take len)
  let key := tgetD s.nv.keys 4 []
  firstErr [
    ((b.drop len).take 48 == digest, ⟨0x0004, 0, len⟩),
    (key != [] && u32 b 0x2C == keyId key, ⟨0x0006, 0, 0x2C⟩),
    (Config.ecdsaVerify key digest ((b.drop (len + 48)).take 96), ⟨0x0005, 0, len + 48⟩)]
/-- The plant identity (R61), and for a full image that is committed the generation (R60). -/
def State.identErr (s : State) (b : List Byte) (fresh : Bool) : Option LoadErr :=
  firstErr [
    (match s.nv.plantId with
      | some p => u64 b 8 == p
      | none => s.lifecycle == 1 && u64 b 8 != 0, ⟨0x0007, 0, 8⟩),
    (!fresh || decide (s.nv.maxGen < u32 b 0x10), ⟨0x0008, 0, 0x10⟩)]
/-- The first entry that breaks R46: of a type that there is not, not above the type before it, with a body before the end of
the one before it, or with reserved words other than 0. -/
def badEntry (typ floor : Nat) : List SecEntry → Option SecEntry
  | [] => none
  | e :: t => if e.typ ≤ typ ∨ 13 < e.typ ∨ e.off < floor ∨ e.clean = false then some e else badEntry e.typ (e.off + e.len) t
/-- Section table (R46, R48), body checks and records. -/
def bodyErr (b : List Byte) (patch : Bool) : Option LoadErr :=
  let es := secEntries b
  let n := u16 b 0x16
  let bad := badEntry 0 (u32 b 0x18 + 32 * n) es
  let badCrc := es.find? fun e => (crc32c (e.body b)).toNat != e.crc
  let badRec := es.find? fun e => !e.recsOk b
  firstErr [
    (bit (u16 b 6) 0 == patch, ⟨0x0009, 0, 6⟩),
    (if patch then decide (1 ≤ n) && decide (n ≤ 7) else n == 13, ⟨0x0009, 0, 0x16⟩),
    (bad.isNone, ⟨0x0009, bad.elim 0 (·.typ), bad.elim 0 (·.at')⟩),
    (badCrc.isNone, ⟨0x000A, badCrc.elim 0 (·.typ), badCrc.elim 0 (·.off)⟩),
    (badRec.isNone, ⟨0x000B, badRec.elim 0 (·.typ), badRec.elim 0 (·.off)⟩)]

/-! ### Content of the records that the Turid judges (R248, R250, R252, R292, R398, R399) -/

def ascending : List Rat → Bool
  | a :: b :: t => decide (a < b) && ascending (b :: t)
  | _ => true
def CfgRec.finiteAt (r : CfgRec) (o : Nat) : Bool := f32Finite (BitVec.ofNat 32 (r.u32 o))
/-- An OCV column never falls as z rises, and holds no 0. -/
def CfgRec.ocvOk (t : CfgRec) (k : Nat) : Bool :=
  let c := (List.range 101).map fun j => t.u16 (0x178 + 2 * (101 * k + j))
  (c.zip (c.drop 1)).all (fun p => decide (p.1 ≤ p.2)) && c.all fun v => v != 0
def CfgRec.typeOk (t : CfgRec) : Bool :=
  t.u32 0x10 != 0 && t.u32 0x14 != 0 && t.u32 0x18 != 0 && decide (t.vMin < t.vMax) &&
  ((List.range 24).all fun i => t.finiteAt (0x98 + 4 * i)) && t.finiteAt 0x14 && t.finiteAt 0x18 && t.finiteAt 0x10 && ascending t.tempAxis && ascending t.rateAxis &&
  (List.range 16).all t.ocvOk &&
  ([0xE18, 0x3818, 0x6218].all fun base => (List.range 2688).all fun i => t.finiteAt (base + 4 * i) && decide (0 < t.f32 (base + 4 * i))) &&
  ((List.range 32).all fun i => t.finiteAt (0xF8 + 4 * i) && decide (0 ≤ t.f32 (0xF8 + 4 * i)))
/-- A cell type keeps the margins to the standing set of the string nodes (R292). -/
def State.marginOk (s : State) (t : CfgRec) : Bool :=
  decide (t.vMax ≤ s.standLimit 1 - 40 / 1000) && decide (s.standLimit 0 + 40 / 1000 ≤ t.vMin) &&
  (List.range 16).all fun k => decide (t.f32 (0xF8 + 4 * k) ≤ s.standLimit 4 * 9 / 10) && decide (t.f32 (0x138 + 4 * k) ≤ s.standLimit 5 * 9 / 10)
def State.typesOk (s : State) : Bool := (s.cfgAll 4 1).all fun t => t.typeOk && s.marginOk t
/-- Sample rates within the range of R252 and the maximum of STRUCT. -/
def State.ratesOk (s : State) : Bool :=
  let top := min 500 (10 * cfgD s.device (·.u8 0x19) 50)
  (s.cfgAll 5 3).all fun r => decide (r.u16 0x14 ≤ top)
/-- PWM pairs: one period and carrier per timebase, and a period that locks to the tick. -/
def State.pwmOk (s : State) : Bool :=
  s.pairs.all fun r => r.period != 0 && decide (r.period / Nat.gcd r.period 30000 ≤ 100) &&
    s.pairs.all fun q => q.u8 0x10 != r.u8 0x10 || (q.period == r.period && q.u8 0x11 == r.u8 0x11)

/-! ### References (R54, R63) -/

def State.hasCar (s : State) (c : Nat) : Bool := (s.cfg 6 2 c).isSome
/-- Signals name groups that exist and, in a full image, slots that exist; a patch may remove the slot that writes a signal,
which then stands at its park value (R67; log 81). -/
def State.signalsOk (s : State) (full : Bool) : Bool :=
  (s.cfgAll 2 1).all fun r => decide (r.writerKind ≤ 3) && (!full || r.writerKind != 0 || (s.slotRec r.writer).isSome) &&
    (r.sigGroup == 255 || (s.cfg 2 2 r.sigGroup).isSome)
/-- Slot programs load signals that exist and store to signals of their own (R376). -/
def State.programOk (s : State) (r : CfgRec) : Bool :=
  (r.program false ++ r.program true).all fun w =>
    let op := w.toNat / 2 ^ 56
    let sig := s.sigRec (w.toNat % 65536)
    if op = 1 then sig.isSome
    else if op = 2 then sig.any fun g => g.writerKind == 0 && g.writer == r.id
    else true
/-- Strings name cell types and containers, containers declared banks, PCS ports containers, each once (R340). -/
def State.plantRefs (s : State) : Bool :=
  let ports := (s.cfgAll 5 4).flatMap fun r => (((List.range 8).map fun k => r.u8 (0x1C + k)).filter (· != 255))
  ((s.cfgAll 5 3).all fun r => (s.cfg 4 1 (r.u8 0x12)).isSome && (s.cfg 5 2 (r.id / 16)).isSome) &&
  ((s.cfgAll 5 2).all fun r => (s.cfg 5 1 (r.id / 16)).isSome && s.device.any fun d => bit (d.u16 0x10) (r.id / 16)) &&
  ports.all fun c => (s.cfg 5 2 c).isSome && (ports.filter (· == c)).length == 1
/-- Safety functions name inputs that a local record or a consumed connection gives; connections name outputs. -/
def State.safetyRefs (s : State) : Bool :=
  let remote (i : Nat) : Bool := (s.cfgAll 9 4).any fun c => c.u8 0x16 == 0 && decide (c.u16 0x28 ≤ i) && decide (i < c.u16 0x28 + c.u16 0x2A)
  let known (i : Nat) : Bool := i == 0xFFFF || (s.cfg 9 2 i).isSome || remote i
  ((s.cfgAll 9 1).all fun f => known (f.u16 0x1C) && (List.range 4).all fun k => known (f.u16 (0x14 + 2 * k))) &&
  (s.cfgAll 9 4).all fun c => (List.range 64).all fun k => c.u8 (0x70 + k) == 255 || decide (c.u8 (0x70 + k) < 24)
/-- Trigger records belong to buffers that exist; loop channels and LOOP_SIGNAL conditions name signals, analog channels lie on
their converter, LEVEL and WINDOW name channels of the buffer and CROSS_BUFFER a buffer (R623, R625, R630). -/
def State.acqRefs (s : State) : Bool :=
  let sig (n : Nat) : Bool := (s.sigRec n).isSome
  let chan (r : CfgRec) (k : Nat) : Bool :=
    let v := r.u16 (0x28 + 2 * k)
    if r.u8 0x10 = 0 then decide (v < 16) else if r.u8 0x10 = 1 then decide (v < 8) else sig v
  let cond (t : CfgRec) (o : Nat) : Bool := match t.u8 o with
    | 1 => (s.cfg 12 1 t.id).any fun r => decide (t.u8 (o + 1) < r.u8 0x11)
    | 2 => (s.cfg 12 1 t.id).any fun r => decide (t.u8 (o + 1) < r.u8 0x11)
    | 6 => (s.cfg 12 1 (t.u8 (o + 1))).isSome
    | 7 => sig (t.u16 (o + 4))
    | _ => true
  ((s.cfgAll 12 1).all fun r => (List.range (r.u8 0x11)).all (chan r)) &&
  (s.cfgAll 12 2).all fun t => (s.cfg 12 1 t.id).isSome && (List.range 4).all fun c => cond t (0x10 + 12 * c)
/-- The bus or line of a fixture, a drive and a safety connection is one that carries such partners. -/
def State.busRefs (s : State) : Option LoadErr :=
  firstErr [
    ((s.cfgAll 9 4).all fun r => unitBus (r.u8 0x17) (r.u8 0x18), ⟨0x000C, 9, 0⟩),
    ((s.cfgAll 11 6).all fun r => fixtureBus (r.u8 0x10) (r.u8 0x11) && fixtureNode (r.u8 0x10) (r.u8 0x11) (r.u8 0x12), ⟨0x000C, 11, 0⟩),
    ((s.cfgAll 11 7).all fun r => r.u8 0x10 == (if r.id < 256 then 8 else (r.id - 256) / 2), ⟨0x000C, 11, 0⟩)]
/-- PCS endpoints belong to units (R342). -/
def State.endpointRefs (s : State) : Bool := (s.cfgAll 10 5).all fun r => (s.cfg 5 4 r.id).isSome
/-- The travel of each car is within the 1,000 m of R23 (log 105). -/
def State.travelOk (s : State) : Bool := (s.cfgAll 6 2).all fun r =>
  let l := (List.range 128).filter fun l => bit (r.u8 (0x40 + l / 8)) (l % 8)
  let h (k : Nat) : Int := (s.cfg 6 1 k).elim 0 fun r => (BitVec.ofNat 64 (r.u64 0x10)).toInt
  decide (h (l.getLastD 0) - h (l.headD 0) ≤ 1000000000)
/-- Doors and partners belong to declared cars (R24). -/
def State.carsOk (s : State) : Option LoadErr :=
  firstErr [
    (s.travelOk, ⟨0x000B, 6, 0⟩),
    ((s.cfgAll 6 3).all fun r => s.hasCar (r.id / 2), ⟨0x000C, 6, 0⟩),
    ((s.cfgAll 11 6).all fun r => r.u8 0x10 != 0 || decide (8 ≤ r.u8 0x11) || s.hasCar (r.u8 0x11), ⟨0x000C, 11, 0⟩),
    ((s.cfgAll 11 7).all fun r => s.hasCar (if r.id < 256 then r.id else (r.id - 256) / 2), ⟨0x000C, 11, 0⟩),
    ((s.cfgAll 9 4).all fun r => r.u8 0x17 != 0 || decide (8 ≤ r.u8 0x18) || s.hasCar (r.u8 0x18), ⟨0x000C, 9, 0⟩)]

/-! ### Schedules (R364, R367, R380) -/

/-- Two slots are due in one tick at some time. -/
def CfgRec.meet (a b : CfgRec) : Bool :=
  let g := Nat.gcd (a.u16 0x10) (b.u16 0x10)
  g != 0 && a.u16 0x12 % g == b.u16 0x12 % g
/-- A schedule keeps its windows in their range and apart, and every group's phase behind the windows of its writers. -/
def State.scheduleOk (s : State) (glide : Bool) : Bool :=
  let (lo, hi) := if glide then (128, 7128) else (512, 28512)
  let (plo, phi) := if glide then (128, 7500) else (512, 30000)
  let ws := (s.cfgAll 3 1).filterMap fun r => (r.window glide).map fun w => (r, w)
  (ws.all fun p => decide (lo ≤ p.2.1) && decide (p.2.1 + p.2.2 ≤ hi)) &&
  (ws.all fun p => p.1.u16 0x10 != 0 && decide (p.1.u16 0x12 < p.1.u16 0x10)) &&
  (ws.all fun p => ws.all fun q => decide (p.1.id = q.1.id) || decide (p.2.1 + p.2.2 ≤ q.2.1) || decide (q.2.1 + q.2.2 ≤ p.2.1) || !p.1.meet q.1) &&
  s.groups.all fun g =>
    let ph := g.u16 (if glide then 0x12 else 0x10)
    (glide && ph == 0) || (decide (plo ≤ ph) && decide (ph < phi) &&
      ws.all fun p => !(s.slotGroups p.1.id).contains g.id || decide (p.2.1 + p.2.2 ≤ ph))

/-! ### Crossings, plant -/

/-- The sample load of a crossing: all its strings at their Stride rates on one path, doubled where the bank's design is of
generation 1 (R201, R227). -/
def State.bankLoad (s : State) (n : Nat) : Nat :=
  let sum := ((s.cfgAll 5 3).filter fun r => r.id / 256 == n).foldl (fun a r => a + (if r.u16 0x14 = 0 then 100 else r.u16 0x14)) 0
  if (s.cfg 5 1 n).any fun b => b.u16 0x10 == 1 then 2 * sum else sum
/-- Each string fits its node (R17), and no two nodes of a crossing share a berth, which is 0 to 271 (R21, R22). -/
def State.plantOk (s : State) : Bool :=
  let nodes := (s.cfgAll 5 2).map (fun r => (r.id / 16, r.u16 0x10)) ++ (s.cfgAll 5 3).map fun r => (r.id / 256, r.u16 0x10)
  ((s.cfgAll 5 3).all fun r => decide (256 * ((s.cfg 4 1 (r.u8 0x12)).elim 0 (·.vMax)) ≤ r.f32 0x18)) &&
  nodes.all fun p => decide (p.2 < 272) && (nodes.filter (· == p)).length == 1
/-- The safety check value of an image (R75). -/
def safetyValue (b : List Byte) : Nat :=
  match (secEntries b).find? fun e => e.typ == 9 with
  | some e => (crcSafety (le 2 e.ver ++ e.body b)).toNat
  | none => 0
/-- The checks on the records in force in a state, in the order of R54; `header` is the safety check value of a full
image with the value that its header gives. -/
def State.contentErr (s : State) (header : Option (Nat × Nat)) : Option LoadErr :=
  ((firstErr [
    (s.typesOk, ⟨0x000B, 4, 0⟩), (s.ratesOk, ⟨0x000B, 5, 0⟩), (s.pwmOk, ⟨0x000B, 11, 0⟩),
    (s.signalsOk header.isSome, ⟨0x000C, 2, 0⟩), ((s.cfgAll 3 1).all s.programOk, ⟨0x000C, 3, 0⟩), (s.plantRefs, ⟨0x000C, 5, 0⟩),
    (s.safetyRefs, ⟨0x000C, 9, 0⟩), (s.endpointRefs, ⟨0x000C, 10, 0⟩), (s.acqRefs, ⟨0x000C, 12, 0⟩)]).or s.busRefs).or ((firstErr [
    (s.scheduleOk false && s.scheduleOk true, ⟨0x000D, 3, 0⟩),
    ((List.range 16).all fun n => !overBudget (s.bankLoad n), ⟨0x000E, 5, 0⟩),
    (header.all fun p => p.1 == p.2, ⟨0x000F, 9, 0x28⟩),
    (s.plantOk, ⟨0x000B, 5, 0⟩)]).or s.carsOk)
/-- The records of a manifest with sections replaced whole by those of a patch (R48). -/
def mergeRecs (old : List CfgRec) (b : List Byte) : List CfgRec :=
  let ts := (secEntries b).map (·.typ)
  ((List.range 14).flatMap fun t => if ts.contains t then (imageRecs b).filter (·.sec == t) else old.filter (·.sec == t))
def State.withCfg (s : State) (l : List CfgRec) : State := s.modMan fun m => { m with cfg := l }
/-- Every check of a full image; `fresh` where it is committed, not loaded at a start (R54, R59). -/
def State.imageErr (s : State) (b : List Byte) (declared : Nat) (fresh : Bool) : Option LoadErr :=
  ((((formErr b declared).or (s.sealErr b)).or (s.identErr b fresh)).or (bodyErr b false)).or
    ((s.withCfg (imageRecs b)).contentErr (some (safetyValue b, u32 b 0x28)))
/-- Every check of a patch against the records it merges with (R63). -/
def State.patchErr (s : State) (old : List CfgRec) (b : List Byte) (declared : Nat) : Option LoadErr :=
  ((((formErr b declared).or (s.sealErr b)).or (s.identErr b false)).or (bodyErr b true)).or
    ((s.withCfg (mergeRecs old b)).contentErr none)

/-! ## Slots and patch logs -/

def State.man' (s : State) (i : Nat) : Slot := tgetD s.nv.slots i ⟨[], []⟩
def State.modSlotNv (s : State) (i : Nat) (f : Slot → Slot) : State := s.modNv fun n => { n with slots := tput n.slots i (f (tgetD n.slots i ⟨[], []⟩)) }
/-- Bytes of a patch in the log: the patch, its commit word, and a cancellation word where it has one (R64, R72). -/
def PatchRec.size (p : PatchRec) : Nat := p.bytes.length + 8 + (if p.cancelled then 8 else 0)
def Slot.used (x : Slot) : Nat := x.image.length + (x.patches.map PatchRec.size).foldl (· + ·) 0
/-- The patches that take effect (R73). -/
def Slot.live (x : Slot) : List PatchRec := x.patches.filter fun p => p.committed && !p.cancelled
def Slot.epoch (x : Slot) : Nat := (x.live.map (·.epoch)).foldl max 0
/-- The slot loaded in this start. -/
def State.loadedSlot (s : State) : Nat := s.rd R.MAN_STATUS_LOADED_SLOT
/-- `MAN_SLOT_EPOCH`, `MAN_PATCH_LOG_USED` and `MAN_PATCH_LOG_FREE` shown for the slots as they stand. -/
def State.showLog (s : State) : State :=
  let x := s.man' s.loadedSlot
  let s := (List.range 2).foldl (fun s i => s.wr (R.MAN_SLOT_EPOCH i) (s.man' i).epoch) s
  if s.on R.MAN_STATUS_LOADED then (s.wr R.MAN_PATCH_LOG_USED x.used).wr R.MAN_PATCH_LOG_FREE (maxFile - x.used) else s
/-- What a slot register group shows of the image written to it. -/
def State.showSlot (s : State) (i : Nat) : State :=
  let b := (s.man' i).image
  (((s.wr (R.MAN_SLOT_GEN i) (u32 b 0x10)).wr (R.MAN_SLOT_LENGTH i) (u32 b 0x1C)).wr (R.MAN_SLOT_SAFETY i) (u32 b 0x28)).showLog
/-- The error of a verification or refusal (R83). -/
def State.loadError (s : State) (e : LoadErr) : State :=
  ((s.wr R.MAN_LOAD_ERROR_CODE e.code).wr R.MAN_LOAD_ERROR_SECTION e.sec).wr R.MAN_LOAD_ERROR_OFFSET e.off
/-- `MAN_PATCH_STATUS.STATE` once a patch has ended: the patch that holds the staging is followed from then on (R82). -/
def State.patchTo (s : State) (st : Nat) : State :=
  s.wr R.MAN_PATCH_STATUS_STATE (if s.man.stage.any fun g => g.kind == 1 then 1 else st)
def LoadErr.none : LoadErr := ⟨0, 0, 0⟩
/-- A signature that fails counts (R687). -/
def State.countSig (s : State) (e : Option LoadErr) : State := if (e.any fun e => e.code == 5) then s.inc R.SEC_SIG_FAILS else s

end Sys2Proof.Machine
end

