-- ==== Sys2Proof/Machine/Man.lean ====
section
/-!
DEFINITION. Manifest transfers, verification, and live patches (R55 to R74, R172, R173): one meaning per row.
-/
namespace Sys2Proof.Machine
open Sys2Proof

/-! ## Full images -/

/-- The slot that a full image is written to (R56); none while both slots are active or on trial, which lasts at most until a
start has been judged (log 82). -/
def State.writeSlot (s : State) : Option Nat :=
  let held (i : Nat) : Bool := s.slotState i == ACTIVE || s.slotState i == TRIAL
  if held 0 && held 1 then none
  else if held 0 then some 1 else if held 1 then some 0
  else if s.slotState 0 ≠ STANDBY then some 0 else if s.slotState 1 ≠ STANDBY then some 1 else some 0
/-- The slot begins to be written: what it held is discarded. -/
def State.beginSlot (s : State) (i : Nat) : State :=
  (((s.modNv fun n => { n with slots := tput n.slots i ⟨[], []⟩ }).slotTo i WRITING).wr (R.MAN_SLOT_STATE_ERROR i) 0).showSlot i
/-- A staging opens (R57, R172). -/
def State.openStage (s : State) (sess uid kind len slot : Nat) : State :=
  let s := if kind = 0 then s.beginSlot slot else s
  let s := s.modMan fun m => { m with stage := some ⟨sess, uid, kind, len, slot, []⟩ }
  let s := ((s.wrB R.MAN_STATUS_STAGING true).wr R.MAN_STAGE_LENGTH len).wr R.MAN_STAGE_RECEIVED 0
  if kind = 1 ∧ s.man.patch = none then s.wr R.MAN_PATCH_STATUS_STATE 1 else s
/-- MANIFEST_BEGIN: kind 2 in firmware recovery and no other kind there (R726); BUSY while a staging is open, an image is
under verification (R57) or a Berth entry runs (R118); STATE where R56 leaves no slot to write to. -/
def State.manBegin (s : State) (sess kind len : Nat) : State × Nat :=
  let uid := (s.session sess).elim 0 (·.uid)
  if 2 < kind then (s, BAD_MESSAGE)
  else if (kind == 2) != s.recovery then (s, STATE)
  else if s.pwr.berthRun || s.man.stage.isSome || s.man.verify.isSome then (s, BUSY)
  else if kind ≠ 0 then (s.openStage sess uid kind len 0, OK)
  else match s.writeSlot with
    | none => (s, STATE)
    | some i => (s.openStage sess uid kind len i, OK)
def execManifestBegin (sess tag kind len : Nat) (s : State) : Res State :=
  .next (s.helm sess tag 0x30 4 (.manifestBegin sess tag kind len) fun s =>
    let (s, st) := s.manBegin sess kind len
    s.reply sess tag 0x30 st [])

/-- The staging is this session's. -/
def State.ownStage (s : State) (sess : Nat) : Option Staging :=
  s.man.stage.filter fun g => g.sess == sess && (s.session sess).any fun x => x.uid == g.uid
/-- MANIFEST_CHUNK (R173): the chunk is written to the slot as it arrives. -/
def State.chunk (s : State) (g : Staging) (data : List Byte) : State :=
  let b := g.bytes ++ data
  let s := (s.modMan fun m => { m with stage := some { g with bytes := b } }).wr R.MAN_STAGE_RECEIVED b.length
  if g.kind = 0 then s.modSlotNv g.slot fun x => { x with image := b } else s
/-- The chunk's own size is judged first, then the staging, then its offset, then what it makes of the file
(DESIGN CHOICE, log 108). -/
def State.manChunk (s : State) (sess off : Nat) (data : List Byte) : State × Nat :=
  if data = [] ∨ 2 ^ 20 < data.length then (s, BAD_MESSAGE)
  else match s.ownStage sess with
  | none => (s, STATE)
  | some g =>
    let n := g.bytes.length + data.length
    if off ≠ g.bytes.length then (s, OUT_OF_ORDER)
    else if g.len < n ∨ (data.length % 8 ≠ 0 ∧ n ≠ g.len) then (s, BAD_MESSAGE)
    else (s.chunk g data, OK)
def execManifestChunk (sess tag off : Nat) (data : List Byte) (s : State) : Res State :=
  .next (s.helm sess tag 0x31 4 (.manifestChunk sess tag off data) fun s =>
    let (s, st) := s.manChunk sess off data
    s.reply sess tag 0x31 st [s.rd R.MAN_STAGE_RECEIVED])

/-- A response to the session that made a request, while it is still open (R154). -/
def State.replyTo (s : State) (sess uid tag typ status : Nat) (body : List Nat) : State :=
  if (s.session sess).any fun x => x.uid == uid then s.reply sess tag typ status body else s
/-- MANIFEST_COMMIT: the staging closes and verification starts. -/
def State.manCommit (s : State) (sess tag : Nat) : State :=
  match s.ownStage sess with
  | none => (s.loadError ⟨STATE, 0, 0⟩).reply sess tag 0x32 STATE []
  | some g =>
    if g.kind = 0 then s.stageGone.modMan fun m => { m with verify := some ⟨sess, g.uid, tag, g.slot, s.tick, g.len, g.bytes⟩ }
    else (s.loadError ⟨STATE, 0, 0⟩).reply sess tag 0x32 STATE []
def execManifestCommit (sess tag : Nat) (s : State) : Res State :=
  .next (s.helm sess tag 0x32 4 (.manifestCommit sess tag) fun s => s.manCommit sess tag)

/-- A verified image (R55, R58, R60, R61): its slot is on trial, an ACTIVE slot stands by, and the generation and, the first
time, the plant identity are kept. An image on trial that no start has taken up stands by as well, since the other slot has
become TRIAL (log 82). -/
def State.imageTaken (s : State) (j : LoadJob) : State :=
  let other := 1 - j.slot
  let s := ((s.slotTo j.slot TRIAL).wr (R.MAN_SLOT_STATE_ERROR j.slot) 0).showSlot j.slot
  let s := if s.slotState other = ACTIVE ∨ (s.slotState other = TRIAL ∧ s.man.trialAtStart ≠ some other) then s.slotTo other STANDBY else s
  let s := s.modNv fun n => { n with maxGen := u32 j.bytes 0x10,
                                     plantId := if n.plantId = none ∧ s.lifecycle = 1 then some (u64 j.bytes 8) else n.plantId }
  s.flag R.MAN_EVENT_STATUS_LOAD_VERIFIED
def State.verifyDone (s : State) (nvmOk : Bool) : State :=
  match s.man.verify with
  | none => s
  | some j =>
    let e := if nvmOk then s.imageErr j.bytes j.target true else some ⟨0x0017, 0, 0⟩
    let s := (s.modMan fun m => { m with verify := none }).countSig e
    let s := s.loadError (e.getD LoadErr.none)
    let s := match e with
      | none => s.imageTaken j
      | some e => ((s.slotBad j.slot e.code).showSlot j.slot).flag R.MAN_EVENT_STATUS_LOAD_FAILED
    s.replyTo j.sess j.uid j.tag 0x32 ((e.getD LoadErr.none).code) []
def execManifestVerifyDone (nvmOk : Bool) (s : State) : Res State := .next (s.verifyDone nvmOk)

/-! ## Patches: judged (R62 to R64) -/

/-- The types that a patch holds. -/
def patchTypes (b : List Byte) : List Nat := (secEntries b).map (·.typ)
/-- The strings and containers of a list of records. -/
def recIds (l : List CfgRec) (kind : Nat) : List Nat := (l.filter fun r => r.sec == 5 && r.kind == kind).map (·.id)
def State.strOpenSeen (s : State) (i : Nat) : Bool := (s.strNode i).contact.any fun w => w % 4 == 0
/-- No string or container that the patch removes is in use. -/
def State.removable (s : State) (b : List Byte) : Bool :=
  let new := mergeRecs s.man.cfg b
  (s.strings.all fun i => (recIds new 3).contains i || s.strOpenSeen i) &&
  s.containers.all fun c => (recIds new 2).contains c || s.conOpenSeen c
/-- The requested tick can be met. -/
def State.tickOk (s : State) (target : Nat) : Bool := target == 0 || (decide (s.tick < target) && decide (target ≤ s.tick + 6000000))
/-- The refusals of R62, in its order. -/
def State.patchRefusal (s : State) (b : List Byte) (declared target : Nat) : Option LoadErr :=
  let bad := (patchTypes b).find? fun t => !patchable t
  let gen := s.rd R.MAN_ACTIVE_GEN
  let epoch := s.rd R.MAN_ACTIVE_EPOCH
  (firstErr [
    (bad.isNone, ⟨0x0011, bad.getD 0, 0⟩),
    (u32 b 0x10 == gen && u32 b 0x20 == gen && u16 b 0x24 == epoch && u16 b 0x14 == (epoch + 1) % 65536, ⟨0x0010, 0, 0x20⟩),
    (s.underway, ⟨STATE, 0, 0⟩),
    (!(s.evac || bit s.glideBits 5) || (patchTypes b).all fun t => t == 12 || t == 13, ⟨STATE, 0, 0⟩),
    (s.man.patch.isNone, ⟨BUSY, 0, 0⟩),
    (s.tickOk target, ⟨0x0015, 0, 0⟩),
    (decide (b.length + 8 + (s.man' s.loadedSlot).used ≤ maxFile) && decide (epoch < 65535), ⟨0x0016, 0, 0⟩),
    (s.removable b, ⟨0x0012, 5, 0⟩)]).or (s.patchErr s.man.cfg b declared)
/-- A refused patch (R71, R82, R83); `base` is its base generation. -/
def State.patchRefused (s : State) (e : LoadErr) (base : Nat) : State :=
  let s := (s.loadError e).inc R.MAN_PATCH_REFUSED
  let s := if s.man.patch = none then s.patchTo 5 else s
  (s.raise Ev.PATCH_REFUSED 0 (le 2 e.code ++ le 2 e.sec ++ le 4 base)).flag R.MAN_EVENT_STATUS_PATCH_REFUSED
/-- PATCH_COMMIT: the patch is judged, and accepted to be written to the patch log. -/
def State.patchCommit (s : State) (sess tag target : Nat) : State :=
  match s.ownStage sess with
  | none => (s.loadError ⟨STATE, 0, 0⟩).reply sess tag 0x33 STATE [0]
  | some g =>
    if g.kind ≠ 1 then (s.loadError ⟨STATE, 0, 0⟩).reply sess tag 0x33 STATE [0]
    else
      let s := s.stageGone
      match s.patchRefusal g.bytes g.len target with
      | some e => ((s.countSig (some e)).patchRefused e (u32 g.bytes 0x20)).reply sess tag 0x33 e.code [0]
      | none => (s.modMan fun m => { m with patch := some ⟨sess, g.uid, tag, s.loadedSlot, s.tick, target, g.bytes⟩ }).wr R.MAN_PATCH_STATUS_STATE 2
def execPatchCommit (sess tag target : Nat) (s : State) : Res State :=
  .next (s.helm sess tag 0x33 4 (.patchCommit sess tag target) fun s => s.patchCommit sess tag target)
/-- The commit word is written and the boundary is scheduled; or the write failed, or its tick has passed. -/
def State.persistDone (s : State) (nvmOk : Bool) : State :=
  match s.man.patch with
  | none => s
  | some j =>
    if s.rd R.MAN_PATCH_STATUS_STATE ≠ 2 then s
    else
      let e := firstErr [(nvmOk, ⟨0x0017, 0, 0⟩), (s.tickOk j.target, ⟨0x0015, 0, 0⟩)]
      match e with
      | some e => ((s.modMan fun m => { m with patch := none }).patchRefused e (u32 j.bytes 0x20)).replyTo j.sess j.uid j.tag 0x33 e.code [0]
      | none =>
        let n := if j.target = 0 then s.tick + 1 else j.target
        let s := (s.modSlotNv j.slot fun x => { x with patches := x.patches ++ [⟨u16 j.bytes 0x14, j.bytes, true, false⟩] }).showLog
        let s := (s.modMan fun m => { m with patch := some { j with target := n } }).wr64 R.MAN_PATCH_TARGET_LO n
        ((s.wr R.MAN_PATCH_STATUS_STATE 3).loadError LoadErr.none).replyTo j.sess j.uid j.tag 0x33 OK [n]
def execPatchPersistDone (nvmOk : Bool) (s : State) : Res State := .next (s.persistDone nvmOk)

/-! ## Patches: in effect (R65 to R71) -/

/-- What makes a slot new when it changes: rate, initial state, programs; not its constants and tables (R67, R369). -/
def CfgRec.slotKey (r : CfgRec) : List Byte :=
  (r.body.drop 0x10).take 2 ++ (r.body.drop 0x1C).take 4 ++ (r.body.drop 0x28).take 128 ++ r.body.drop 0x5C8
/-- Slots: one removed leaves its signals at park values; one new or changed starts from its initial state. -/
def State.patchSlots (s : State) (old : List CfgRec) : State :=
  let was := old.filter fun r => r.sec == 3 && r.kind == 1
  let now := s.cfgAll 3 1
  let gone := (was.filter fun r => !now.any fun q => q.id == r.id).map (·.id)
  let fresh := (now.filter fun r => !was.any fun q => q.id == r.id && q.slotKey == r.slotKey).map (·.id)
  let s := gone.foldl (fun s k =>
    let s := (s.slotSigs k).foldl (fun s r => s.allLanes fun x => { x with sig := tput x.sig r.id r.parkWord }) s
    (s.freshState k).modLoop fun l => { l with slots := tdel l.slots k, toPark := l.toPark.filter (· != k), toStart := l.toStart.filter (· != k) }) s
  fresh.foldl (fun s k => (s.freshState k).modSlot k fun _ => ⟨1, 0, 0, 0⟩) s
/-- CELLTYPES: sweeps that began before the boundary, in flight or waiting, finish with the old tables. -/
def State.keepTables (s : State) (old : List CfgRec) : State :=
  let l := old.filter (·.sec == 4)
  { s with
    est := { s.est with intake := s.est.intake.map fun w => { w with tables := w.tables.or (some l) } },
    xng := { s.xng with txns := s.xng.txns.map fun p => (p.1, if p.2.use = .sample then { p.2 with tables := p.2.tables.or (some l) } else p.2) } }
/-- A berth that the patch adds is ABSENT, whatever was known of it (R229). -/
def State.newBerth (s : State) (n b : Nat) : State :=
  (s.finishNode n b 0x0503).modRing n fun r =>
    { r with nodes := tput r.nodes b { Node.unknown with state := 1, ntype := (s.declaredAt n b).elim 0 (·.1), txSeq := (s.node n b).txSeq } }
def berthOf (l : List CfgRec) (kind id : Nat) : Nat := (l.find? fun r => r.sec == 5 && r.kind == kind && r.id == id).elim 0x1FF (·.u16 0x10)
/-- A removed string: checkpointed, its cell states discarded. -/
def State.dropString (s : State) (i berth : Nat) : State :=
  let s := ((s.endClose i 0x0503).endOpen i 0x0503).sendLeave (i / 256) berth
  let s := s.modEst i fun x => { x with state := 1, cells := [], fig := Figures.zero, init := none, time := none }
  let s := s.dropIntake (i / 256) berth
  let s := { s with prot := { s.prot with str := tdel s.prot.str i } }
  s.setIntent i false
def State.dropContainer (s : State) (c berth : Nat) : State :=
  let x := s.pcon c
  let s := (s.completeOpt x.closeQ 0x0503 (s.conResult c)).completeOpt x.openQ 0x0503 (s.conResult c)
  let s := s.sendLeave (c / 16) berth
  ({ s with prot := { s.prot with con := tdel s.prot.con c } }).setIntentCon c false
/-- PLANT: strings and containers removed, added and changed, and PCS units. -/
def State.patchPlant (s : State) (old : List CfgRec) : State :=
  let new := s.man.cfg
  let goneS := (recIds old 3).filter fun i => !(recIds new 3).contains i
  let goneC := (recIds old 2).filter fun i => !(recIds new 2).contains i
  let addS := (recIds new 3).filter fun i => !(recIds old 3).contains i
  let addC := (recIds new 2).filter fun i => !(recIds old 2).contains i
  let same := (recIds new 3).filter fun i => (recIds old 3).contains i
  let typeOf (l : List CfgRec) (i : Nat) : Nat := (l.find? fun r => r.sec == 5 && r.kind == 3 && r.id == i).elim 0 (·.u8 0x12)
  let s := goneS.foldl (fun s i => s.dropString i (berthOf old 3 i)) s
  let s := goneC.foldl (fun s c => s.dropContainer c (berthOf old 2 c)) s
  let s := if goneS ++ goneC = [] then s else s.startCkpt 3 none
  let s := addS.foldl (fun s i => s.newBerth (i / 256) (berthOf new 3 i)) s
  let s := addC.foldl (fun s c => s.newBerth (c / 16) (berthOf new 2 c)) s
  let s := addC.foldl (fun s c => s.setIntentCon c false) (addS.foldl (fun s i => s.setIntent i false) s)
  let s := addS.foldl (fun s i => { s with est := { s.est with str := tdel s.est.str i }, prot := { s.prot with str := tdel s.prot.str i } }) s
  let s := (same.filter fun i => typeOf old i != typeOf new i).foldl (fun s i => (s.toDefaults i).toRest i) s
  let pcs (l : List CfgRec) : List Nat := (l.filter fun r => r.sec == 5 && r.kind == 4).map (·.id)
  let s := { s with disp := { s.disp with pcs := s.disp.pcs.filter fun p => (pcs new).contains p.1 && (pcs old).contains p.1 } }
  let rings := (List.range 16).filter fun n => s.xngUsed n
  let s := rings.foldl State.replan s
  (rings.filter fun n => (addS.any fun i => i / 256 == n) || addC.any fun c => c / 16 == n).foldl (fun s n => s.discover n 0) s
/-- ACQ: a buffer whose definition or trigger changed stops; its record in progress closes as aborted by the patch (2). -/
def State.stopBufs (s : State) (new : List CfgRec) : State :=
  let defOf (l : List CfgRec) (k b : Nat) : Option CfgRec := l.find? fun r => r.sec == 12 && r.kind == k && r.id == b
  (s.cfgAll 12 1).foldl (fun s r =>
    if defOf s.man.cfg 1 r.id = defOf new 1 r.id ∧ defOf s.man.cfg 2 r.id = defOf new 2 r.id then s else s.abortRec r 2) s
/-- STANDING: every partner is refreshed (R32), nodes that are joined or quarantined, every PCS unit and every drive. -/
def State.refreshAll (s : State) : State :=
  let s := (List.range 16).foldl (fun s n =>
    ((s.ring n).nodes.map (·.1)).foldl (fun s b => if (s.node n b).state = 3 ∨ (s.node n b).state = 4 then s.sendStanding n b else s) s) s
  let s := s.pcsUnits.foldl (fun s u => s.sendPcsStanding u.id) s
  s.buses.foldl (fun s b => if s.canState b = 1 ∨ s.canState b = 2 then s.busStanding b else s) s
/-- A patch takes effect at the boundary of the tick that comes (R66 to R71). -/
def State.applyPatch (s : State) (j : LoadJob) : State :=
  let old := s.man.cfg
  let new := mergeRecs old j.bytes
  let ts := patchTypes j.bytes
  let n := s.tick + 1
  let mask := (ts.map fun t => 2 ^ t).foldl (· + ·) 0
  let s := if ts.contains 4 then s.keepTables old else s
  let s := if ts.contains 12 then s.stopBufs new else s
  let s := s.modMan fun m => { m with cfg := new, patch := none }
  let s := if ts.contains 3 then s.patchSlots old else s
  let s := if ts.contains 5 then s.patchPlant old else s
  let s := if ts.contains 12 then s.showAcq else s
  let s := if ts.contains 7 ∧ s.grp.oldPolicy.isNone = true then s.modGrp fun g => { g with oldPolicy := some (n, old.filter (·.sec == 7)) } else s
  let s := if ts.contains 13 then s.refreshAll else s
  let s := ((s.wr R.MAN_ACTIVE_EPOCH (u16 j.bytes 0x14)).wr R.MAN_SECTION_CHANGED mask).wr64 R.MAN_PATCH_TICK_LO n
  let s := (s.inc R.MAN_PATCH_COUNT).patchTo 4
  (s.raise Ev.PATCH_APPLIED 0 (le 4 (s.rd R.MAN_ACTIVE_GEN) ++ le 2 (u16 j.bytes 0x14) ++ le 2 0 ++ le 8 n ++ le 4 mask)).flag
    R.MAN_EVENT_STATUS_PATCH_APPLIED
/-- The boundary of the tick that comes: a scheduled patch that is due takes effect, or moves behind a lane rebuild (R65). -/
def State.patchBoundary (s : State) : State :=
  match s.man.patch with
  | none => s
  | some j =>
    if s.rd R.MAN_PATCH_STATUS_STATE = 3 ∧ j.target ≤ s.tick + 1 then
      if s.on R.LOOP_STATUS_REBUILDING then
        (s.modMan fun m => { m with patch := some { j with target := s.tick + 2 } }).wr64 R.MAN_PATCH_TARGET_LO (s.tick + 2)
      else s.applyPatch j
    else s
def execPatchBoundary (s : State) : Res State := .next (if s.powered then s.patchBoundary else s)

/-! ## MAN_CONTROL (R72, R81) -/

def execAbortStage (sess key : Nat) (s : State) : Res State := .next (if s.keyed sess key then s.abortStage else s)
/-- ABORT_PATCH until 1 ms before the boundary; later it is late. -/
def State.abortPatch (s : State) : State :=
  match s.man.patch with
  | none => if s.rd R.MAN_PATCH_STATUS_STATE = 4 then s.wrB R.MAN_PATCH_STATUS_ABORT_LATE true else s
  | some j =>
    if s.rd R.MAN_PATCH_STATUS_STATE ≠ 3 then s
    else if j.target < s.tick + 100 then s.wrB R.MAN_PATCH_STATUS_ABORT_LATE true
    else
      let e := u16 j.bytes 0x14
      let s := s.modSlotNv j.slot fun x => { x with patches := x.patches.map fun p => if p.epoch = e ∧ !p.cancelled then { p with cancelled := true } else p }
      ((s.modMan fun m => { m with patch := none }).patchTo 6).showLog
def execAbortPatch (sess key : Nat) (s : State) : Res State := .next (if s.keyed sess key then s.abortPatch else s)

end Sys2Proof.Machine
end

