-- ==== Sys2Proof/Machine/PwrOps.lean ====
section
/-!
DEFINITION. Starts and resets as their rows use them: what a reset keeps, the failed-start group (R94 to R99), the end of
BOOT, Mooring mode, and the domains that run (R113, R133, R134).
-/
namespace Sys2Proof.Machine
open Sys2Proof

/-! ## Time and what non-volatile memory keeps (R98, R131) -/

/-- ALARM (R120): operating seconds have moved on from `old` and reached `PWR_WAKE_ALARM`. -/
def State.alarmFrom (s : State) (old : Nat) : State :=
  let a := s.rd R.PWR_WAKE_ALARM
  if old < a ∧ a ≤ s.opSec then s.wakeSource 1 else s
/-- The Bollard clock as a row tells it: operating seconds and milliseconds, which never run backwards. -/
def State.opTo (s : State) (sec ms : Nat) : State :=
  if s.opSec < sec ∨ (s.opSec = sec ∧ s.rd R.PWR_OP_MS < ms) then
    let old := s.opSec
    ((s.wr R.PWR_OP_SECONDS sec).wr R.PWR_OP_MS (ms % 1000)).alarmFrom old
  else s
def State.failList (s : State) : List FailEntry :=
  (List.range 3).map fun i => ⟨s.rd (R.SYS_FAIL_CODE i), s.rd (R.SYS_FAIL_CYCLES i), s.rd (R.SYS_FAIL_OPSEC i)⟩
/-- The copy of R98, made whenever what it holds changes, with the power-cycle count of the running start. -/
def State.saveBoot (s : State) : State :=
  s.modNv fun n => { n with boot := { n.boot with
    failed := s.rd R.SYS_FAILED_STARTS, cause := s.rd R.SYS_BOOT_CAUSE, fails := s.failList, cycles := s.rd R.PWR_POWER_CYCLES, settled := s.boll.settled } }
/-- The copy of R131. -/
def State.saveTime (s : State) : State :=
  s.modNv fun n => { n with boot := { n.boot with opSec := s.opSec, cycles := s.rd R.PWR_POWER_CYCLES } }

/-! ## Failed starts (R58, R99) -/

def State.setFails (s : State) (l : List FailEntry) : State :=
  (l.take 3).zipIdx.foldl (fun s p =>
    ((s.wr (R.SYS_FAIL_CODE p.2) p.1.code).wr (R.SYS_FAIL_CYCLES p.2) p.1.cycles).wr (R.SYS_FAIL_OPSEC p.2) p.1.opSec) s
/-- An entry at the head of the failure group; the oldest is discarded (R99). -/
def State.enterFail (s : State) (code cycles opSec : Nat) : State :=
  (s.setFails (⟨code, cycles, opSec⟩ :: s.failList)).inc R.SYS_STARTS_FAILED
/-- What a failed start does to the slots: the one on trial is INVALID (R58), one left in writing too (R55). -/
def State.failSlots (s : State) (trial : Bool) : State :=
  let s := match s.man.trialAtStart with
    | some i => if trial && s.slotState i == TRIAL then s.slotBad i 0x0019 else s
    | none => s
  (List.range 2).foldl (fun s i => if s.slotState i = WRITING then s.slotBad i 0 else s) s
/-- The start ends without having been judged: it has failed with a code (R95, R99). -/
def State.failStart (s : State) (code : Nat) : State :=
  if s.boll.settled then s.failSlots false
  else
    let s := (s.enterFail code (s.rd R.PWR_POWER_CYCLES) s.opSec).failSlots true
    (s.modBoll fun b => { b with settled := true }).saveBoot

/-! ## Resets (R103, R716) -/

/-- HOLD in Mooring mode: every crossing, the PCS endpoints that are known and the drive buses (R41, R107, R108). -/
def State.holdMooring (s : State) (reason : Nat) : State :=
  let s := (s.cfgAll 10 5).foldl (fun s u => s.sendPcs u.id 2 s.plantNow (le 1 reason ++ List.replicate 7 0)) (s.holdRings reason)
  (List.range 9).foldl (fun s b => s.canHold b reason) s

/-- CAN buses as their records set them up; without one a bus runs classical frames at its default rate. -/
def State.startBus (s : State) (b : Nat) : State :=
  let r := s.canRec b
  let fl := r.elim 0 (·.u8 0x11)
  let s := (s.wr (R.MBC_STATUS_STATE b) (if bit fl 2 then 5 else 1)).wr (R.MBC_STATUS_FORMAT b) (r.elim (if b = 8 then 2 else if b = 11 then 0 else 1) (·.u8 0x10))
  let s := (s.wrB (R.MBC_STATUS_TERMINATION b) (bit fl 5)).wrB (R.MBC_STATUS_TIME_MASTER b) (bit fl 3)
  let s := s.wrB (R.MBC_STATUS_RECOVERY_INHIBITED b) (bit fl 1)
  match r with
  | none => s
  | some r =>
    let s := s.wr (R.MBC_NOM_TIMING b) (r.u8 0x12 * 2 ^ 24 + r.u8 0x17 * 2 ^ 16 + r.u8 0x16 * 2 ^ 8 + min 255 (r.u16 0x14))
    s.wr (R.MBC_DATA_TIMING b) (r.u8 0x13 * 2 ^ 24 + r.u8 0x1A * 2 ^ 16 + r.u8 0x19 * 2 ^ 8 + r.u8 0x18)
/-- HOLD on every port from Mooring mode (R103): the buses and lines that Mooring mode does not use begin to run for it. -/
def State.holdPorts (s : State) (reason : Nat) : State :=
  let s := (List.range 12).foldl (fun s b => if s.canState b = 0 then s.startBus b else s) (s.holdMooring reason)
  let s := [9, 10, 11].foldl (fun s b => s.canHold b reason) s
  (List.range 4).foldl (fun s l => s.holdLine l reason) s

/-- Everything but the Bollard domain, non-volatile memory, fuses and the levels at the pins goes back to its reset value. -/
def State.wipe (s : State) (keeps : List Nat) : State :=
  let key := s.keySwitch
  let s := { State.reset with
    regs := keepRegs keeps s.regs, nv := s.nv, boll := s.boll, out := s.out, free := s.free, pending := s.pending,
    saf := { State.reset.saf with ins := s.saf.ins },
    pos := s.pos.map fun (p : Nat × PosCh) => (p.1, { PosCh.fresh with vane := p.2.vane, zone := p.2.zone, marker := p.2.marker }) }
  s.wrB R.SAF_STATUS_KEY_SWITCH key
/-- A reset of all but the Bollard domain: HOLD as its source has it, the record of R104 on hold-up energy, safety outputs off,
every session closed, the start judged; the next start begins at POWER under the cause. No wake latch began it (R148). -/
def State.turidReset (s : State) (cause : Nat) (hold : State → State) : State :=
  let entered := !s.boll.settled
  let s := if s.powered then hold s else s
  let s := s.recordTrip 0x1408 0 true (le 2 cause)
  let s := ((s.outputsOff).closeAll).failStart cause
  ((s.wipe [1, 2]).wr (R.PWR_WAKE_CAUSE.part 0 7) 0).modBoll fun b =>
    { b with phase := .power, cause := cause, tamperWait := false, ended := some entered }
/-- The order of R101 among causes of the same 1 ms; stage failures come last. -/
def causeRank (c : Nat) : Nat :=
  ([0x0102, 0x0101, 0x0103, 0x0107, 0x0108, 0x0104, 0x0106, 0x0109, 0x0105, 0x010C].findIdx? (· == c)).getD 10
/-- A further cause in the 1 ms of a reset takes the place of one that it ranks before (R101). -/
def State.outrank (s : State) (cause : Nat) : State :=
  match s.boll.phase, s.boll.ended with
  | .power, some entered =>
    if s.tick < 100 ∧ causeRank cause < causeRank s.boll.cause then
      let s := if entered then s.wr (R.SYS_FAIL_CODE 0) cause else s
      (s.modBoll fun b => { b with cause := cause }).saveBoot
    else s
  | _, _ => s
/-- The reset of a source that sends HOLD on the crossings only. -/
def State.faultReset (s : State) (cause : Nat) : State := s.turidReset cause fun s => s.holdRings 5
/-- A fault of the whole Turid: its reset while the rails are on, else one more cause of the reset that runs. -/
def State.faultCause (s : State) (cause : Nat) : State := if s.powered then s.faultReset cause else s.outrank cause
/-- A commanded reset: HOLD on every port with reason 5. -/
def State.hostReset (s : State) (cause : Nat) : State := s.turidReset cause fun s => if s.mooring then s.holdPorts 5 else s.holdAll 5
/-- A start ends in a stage: no port has sent before PARTNERS. -/
def State.stageFail (s : State) (code : Nat) : State := s.turidReset code fun s => s

/-! ## Stages (R86, R720) -/

/-- A stage entered, its time counted on from power good by the tick counter. -/
def State.setStage (s : State) (n : Nat) : State :=
  let s := s.wr R.SYS_START_STATUS_STAGE n
  let s := if n ≤ 9 then s.wr (R.SYS_STAGE_MS n) (s.rd (R.SYS_STAGE_MS 3) + (s.tick - s.pwr.goodAt) / 100) else s
  s.flag R.SYS_EVENT_STATUS_STAGE_CHANGED
/-- The end of BOOT (R716): the encrypted store is open. -/
def State.booted (s : State) : Bool := s.on (R.SEC_STATUS.bit 3)
def State.techsPassed (s : State) : Bool := s.on R.SAF_STATUS_PROC_OK && s.on R.SAF_STATUS_HW_OK
/-- Awaiting manifest (R93). -/
def State.awaiting (s : State) : Bool := s.stage == 0xA

/-! ## BOOT (R86, R649, R650, R658, R671) -/

/-- An image that the boot ROM accepts (R671). -/
def FwImage.ok (x : FwImage) (floor : Nat) : Bool := x.valid && decide (floor ≤ x.version)
/-- The image that runs: A, then B; `true` stands for B. -/
def State.bootImage (s : State) : Option Bool :=
  let f := s.rd R.SEC_FW_FLOOR
  if s.nv.fwA.ok f then some false else if s.nv.fwB.ok f then some true else none
/-- The records beyond the append offset checkpoint, oldest first, found torn by the walk (R649). -/
def tornAfter (mark : Nat) (l : List LogRec) : Nat :=
  (l.foldl (fun (a : Nat × Nat) r => (a.1 + r.len, if mark ≤ a.1 ∧ r.mark = 0xF then a.2 + 1 else a.2)) (0, 0)).2
/-- The lowest slot in a state. -/
def State.slotIn (s : State) (st : Nat) : Option Nat := (List.range 2).find? fun i => s.slotState i == st
/-- The slot that a start loads first (R58, R59). Where both are TRIAL, a second full load having been verified before any
restart, the lower-numbered one is taken first (DESIGN CHOICE, log 108). -/
def State.toLoad (s : State) : Option Nat := ((s.slotIn TRIAL).or (s.slotIn ACTIVE)).or (s.slotIn STANDBY)
/-- The log state that the region header keeps (R643, R644, R660). -/
def State.showLogState (s : State) : State :=
  let s := s.wrB R.REC_STATUS_FULL (s.nv.log.any fun r => r.code == 0x1402)
  let s := (s.wrB R.REC_STATUS_HIGH (decide (60143616 ≤ s.rd R.REC_USED))).wrB R.REC_STATUS_RESERVE_IN_USE (s.nv.reserve != [])
  s.wrB R.REC_STATUS_READ_ONLY (s.lifecycle == 3 && !s.nv.ledger.any fun e => e.reason == 1)
/-- The walk of the log, and the START record, which is the first of its start. -/
def State.walkLog (s : State) : State :=
  let s := (s.incBy R.REC_TORN (tornAfter s.nv.appendMark s.nv.log.reverse)).showLogState
  let slot := s.toLoad.getD 0xFF
  let gen := s.toLoad.elim 0 fun i => s.rd (R.MAN_SLOT_GEN i)
  s.record 3 0x1407 0 (le 2 (s.rd R.SYS_BOOT_CAUSE) ++ (s.failList.flatMap fun f => le 2 f.code) ++
    le 1 (s.rd R.SYS_FAILED_STARTS) ++ le 1 slot ++ le 4 gen)
/-- The trace ring begins. -/
def State.startTrace (s : State) : State :=
  let s := s.trace 6 0 (le 2 (s.rd R.SYS_BOOT_CAUSE) ++ le 6 0)
  let s := match s.nv.boot.traceLost with
    | none => s
    | some (t, sec) => ((s.trace 4 0 (le 8 t ++ le 4 sec ++ le 4 0)).wrB R.REC_TRACE_STATUS_LOST_BERTH true).modNv fun n =>
        { n with boot := { n.boot with traceLost := none } }
  (List.range 14).foldl State.traceSync s
/-- What the end of BOOT makes available (R716). -/
def State.bootDone (s : State) (imageB : Bool) : State :=
  let f := s.rd R.SEC_FW_FLOOR
  let ver (x : FwImage) : Nat := if x.ok f then x.version else 0
  let s := (s.wrB (R.SEC_FW_RUNNING.bit 31) imageB).wr R.SEC_FW_VERSION_A (ver s.nv.fwA)
  let s := (s.wr R.SEC_FW_VERSION_B (ver s.nv.fwB)).wr R.SYS_FW_VERSION (ver (if imageB then s.nv.fwB else s.nv.fwA))
  let s := (s.wrB (R.SEC_STATUS.bit 3) true).wrB (R.SEC_RNG_STATUS.bit 0) true
  s.walkLog.startTrace

/-! ## Mooring mode (R106 to R108, R727) -/

/-- The slot's image and committed patches pass their checks: its records, or the error. -/
def State.slotRecs (s : State) (i : Nat) : Except LoadErr (List CfgRec) :=
  let x := s.man' i
  match s.imageErr x.image x.image.length false with
  | some e => .error e
  | none =>
    let ps := x.live.mergeSort fun a b => decide (a.epoch ≤ b.epoch)
    ps.foldl (fun r p => match r with
      | .error e => .error e
      | .ok old => match s.patchErr old p.bytes p.bytes.length with
        | some e => .error e
        | none => .ok (mergeRecs old p.bytes)) (.ok (imageRecs x.image))
/-- The NETWORK records that the Mooring firmware takes: of the active slot, else of the standby slot (R108). -/
def State.mooringNet (s : State) : List CfgRec :=
  let of' (o : Option Nat) : Option (List CfgRec) := match o with
    | none => none
    | some i => (s.slotRecs i).toOption
  (((of' (s.slotIn ACTIVE)).or (of' (s.slotIn STANDBY))).getD []).filter fun r => r.sec == 10
/-- In Mooring mode the safety technologies that have passed their self-tests run and report their inputs (R107), each by its level
(R519): no SAFETY section is in force. -/
def State.moorSafety (s : State) : State := if s.techsPassed then s.safStart.showInputs else s
/-- Entry to Mooring mode; the entry posted stands for those who subscribe later (R727). -/
def State.moor (s : State) : State :=
  let s := s.withCfg s.mooringNet
  let s := (s.wrB R.SYS_START_STATUS_MOORING true).setStage 0xB
  let s := (List.range 9).foldl State.startBus (s.inc R.SYS_MOORING_ENTRIES)
  let s := (s.wrB R.FIO_STATUS_RUNNING true).wrB R.PWR_WATCHDOG_STATUS_RUNNING true
  let s := s.moorSafety
  let codes := s.failList.flatMap fun f => le 2 f.code
  let s := s.raise Ev.MOORING_ENTERED 0 (codes ++ le 1 (s.rd R.SYS_FAILED_STARTS) ++ le 1 0)
  (s.modHq fun h => { h with mooring := ((s.eventQ 0).entries.filter fun e => e.code == Ev.MOORING_ENTERED.code).getLast? }).holdMooring 3

/-! ## Domains in Glide (R133, R134, R178) -/

/-- The domain keeps running in Glide: held by the register or by a command. -/
def State.domHeld (s : State) (d : Nat) : Bool := bit (s.rd R.PWR_DOMAIN_HOLD) d || s.pwr.cmdHold.any fun p => p.2 == d
/-- The domains that Glide stops: CORES, EST, ACQ and PWM. EST runs while a sweep waits. -/
def State.glideStops (s : State) (d : Nat) : Bool :=
  (d == 2 || d == 11 || d == 12 || (d == 4 && s.est.intake == [])) && !s.domHeld d
/-- CORES, EST, ACQ and PWM, which the engine PLLs clock. -/
def engineDomains : List Nat := [2, 4, 11, 12]
def State.domLive (s : State) (d : Nat) : Bool := !(s.loopGlide && s.glideStops d)
/-- `PWR_DOMAIN_LIVE` and the domains' LIVE and HELD bits: the domains stopped for Glide run again once its schedule
ends. A domain that stops or runs again is traced (R657), and `PWR_PLL_STATUS` shows the engine PLLs as locked while any of the
engine domains that they clock runs (DESIGN CHOICE, log 99). -/
def State.showDomains (s : State) : State :=
  let was := s.rd R.PWR_DOMAIN_LIVE
  let s := (List.range 16).foldl (fun s d =>
    let v := s.domLive d
    ((s.wrB (R.PWR_DOMAIN_LIVE.bit d) v).wrB (R.PWR_DOMAIN_STATUS_LIVE d) v).wrB (R.PWR_DOMAIN_STATUS_HELD d) (bit (s.rd R.PWR_DOMAIN_HOLD) d)) s
  let now := s.rd R.PWR_DOMAIN_LIVE
  let s := s.wrB (R.PWR_PLL_STATUS.bit 2) (engineDomains.any fun d => bit now d)
  (List.range 16).foldl (fun s d =>
    if bit now d && !bit was d then s.traceUp d else if bit was d && !bit now d then s.traceDown d 2 else s) s

end Sys2Proof.Machine
end

