-- ==== Sys2Proof/Machine/Start.lean ====
section
/-!
DEFINITION. The rows of a start and of its end (R86 to R112, R726): one meaning per row.
-/
namespace Sys2Proof.Machine
open Sys2Proof

/-! ## POWER (R87, R94, R98, R110) -/

/-- `PWR_SUPPLY_STATUS` as the supplies stand. -/
def State.supply (s : State) (a b bkp : Bool) : State :=
  (((s.wrB R.PWR_SUPPLY_STATUS_A_GOOD a).wrB R.PWR_SUPPLY_STATUS_B_GOOD b).wrB R.PWR_SUPPLY_STATUS_BKP_GOOD bkp).wrB
    R.PWR_SUPPLY_STATUS_ON_BKP (bkp && !a && !b)
/-- The Bollard state that the boot ROM restores after Off; a start that ended in Off unjudged is entered (R98, R131). -/
def State.restoreBoot (s : State) : State :=
  let x := s.nv.boot
  let s := (((s.wr R.SYS_FAILED_STARTS x.failed).wr R.PWR_OP_SECONDS (x.opSec + 60)).wr R.PWR_OP_MS 0).wr R.PWR_POWER_CYCLES x.cycles
  let s := s.setFails x.fails
  if x.settled then s else s.enterFail 0x0102 x.cycles s.opSec
/-- The count of R94, and whether the start proceeds; the latch of R110 is consumed. -/
def State.judgeStart (s : State) : State × Bool :=
  let n := s.rd R.SYS_FAILED_STARTS % 256
  let on := s.boll.attempt
  let s := (s.wrB R.SYS_START_STATUS_ATTEMPT_LATCHED on).modBoll fun b => { b with attempt := false }
  if on then (s.wr R.SYS_FAILED_STARTS (min 255 (n + 1)), true)
  else if n < 3 then (s.wr R.SYS_FAILED_STARTS (n + 1), true)
  else (s, false)
/-- Power good: the rails are in regulation `ms` after the input reached its threshold, or after the wake. -/
def State.powerGood (s : State) (cause ms : Nat) : State :=
  let s := (s.incSat R.PWR_POWER_CYCLES).inc R.SYS_STARTS
  let s := (s.wr R.SYS_BOOT_CAUSE cause).modBoll fun b => { b with phase := .on, byLoss := false, ended := none }
  let s := if cause = 0x0100 then s.modNv fun n => { n with boot := { n.boot with firstPower := false } } else s
  let s := s.modPwr fun p => { p with goodAt := s.tick }
  let s := ((s.wr R.PWR_PLL_STATUS 7).wr (R.SYS_STAGE_MS 3) ms).wr (R.SYS_STAGE_MS 4) ms
  let s := (s.wr R.PWR_WATCHDOG_STATUS_REMAINING_MS 100).wrB R.PWR_WATCHDOG_STATUS_RUNNING true
  let (s, go) := s.judgeStart
  let s := s.modBoll fun b => { b with settled := !go && s.bootImage.isSome }
  let s := s.modMan fun m => { m with trialAtStart := if go then s.slotIn TRIAL else none }
  let s := s.saveBoot
  match go, s.bootImage with
  | false, some b => (s.bootDone b).moor
  | _, _ => s
/-- POWER_GOOD: a main input is good and the rails come into regulation. From Berth, the returning input is itself the
wake (R120, R121). -/
def State.inputGood (s : State) (a b bkp : Bool) (sec msec ms : Nat) : State :=
  let s := (s.supply a b bkp).opTo sec msec
  match s.boll.phase with
  | .off => s.restoreBoot.powerGood (if s.nv.boot.firstPower then 0x0100 else 0x0102) ms
  | .berth =>
    let l := s.rd R.PWR_WAKE_LATCH % 128 ||| 1
    let s := (s.wr R.PWR_WAKE_LATCH l).wr (R.PWR_WAKE_CAUSE.part 0 7) l
    s.powerGood (if !s.boll.byLoss then 0x010A else if s.nv.boot.firstPower then 0x0100 else 0x0101) ms
  | .power => s.powerGood s.boll.cause ms
  | .on => s
def execPowerGood (a b bkp : Bool) (sec msec ms : Nat) (s : State) : Res State :=
  .next (if (a || b) && !s.powered then s.inputGood a b bkp sec msec ms else s)

/-! ## BOOT and SAFETY (R86, R93, R102) -/

/-- Awaiting manifest (R93), where a Returned Turid stays too (R665). -/
def State.await (s : State) : State :=
  ((s.setStage 0xA).modPwr fun p => { p with heldAt := some s.tick }).holdRings 7
/-- BOOT and SAFETY, which run side by side (R86): with both complete MANIFEST follows; while SAFETY alone still runs, it is the
stage shown, entered at power good. -/
def State.afterSafety (s : State) : State :=
  if s.booted = false ∨ (s.stage ≠ 3 ∧ s.stage ≠ 4) then s
  else if s.techsPassed = true then
    if s.lifecycle = 3 ∨ (s.slotState 0 = EMPTY ∧ s.slotState 1 = EMPTY) then s.await else s.setStage 5
  else if s.stage = 3 then (s.wr R.SYS_START_STATUS_STAGE 4).flag R.SYS_EVENT_STATUS_STAGE_CHANGED else s
/-- Firmware recovery (R102, R726): no timer ends it, and the start has failed. -/
def State.recover (s : State) : State :=
  let s := s.failStart 0x0302
  let s := ((s.walkLog.startTrace).wrB R.PWR_WATCHDOG_STATUS_RUNNING false).modBoll fun b => { b with toRecovery := false }
  ((s.wrB (R.SEC_RNG_STATUS.bit 0) true).setStage 0xC).holdRings 7
def State.bootComplete (s : State) (storeOk : Bool) : State :=
  if s.boll.toRecovery then s.recover
  else match s.bootImage with
    | none => s.recover
    | some b => if storeOk then (s.bootDone b).afterSafety else s.stageFail 0x0303
def State.inBoot (s : State) : Bool := s.powered && s.stage == 3 && !s.booted
def execBootComplete (storeOk : Bool) (s : State) : Res State := .next (if s.inBoot then s.bootComplete storeOk else s)
def execBootVerifyFailed (s : State) : Res State :=
  .next (if s.inBoot then (s.modNv fun n => { n with fwA := { n.fwA with valid := false }, fwB := { n.fwB with valid := false } }).recover else s)
/-- The technologies' own self-tests; one that fails ends a start that has not stopped elsewhere. -/
def execSafetySelftestDone (procOk hwOk : Bool) (s : State) : Res State :=
  .next (if s.powered && !s.techsPassed then
    if procOk && hwOk then
      let s := (s.wr R.SAF_TECH_STATUS_PROC_STATE 2).wr R.SAF_TECH_STATUS_HW_STATE 2
      let s := (s.wrB R.SAF_STATUS_PROC_OK true).wrB R.SAF_STATUS_HW_OK true
      if s.mooring then s.moorSafety else s.afterSafety
    else if s.stage = 3 ∨ s.stage = 4 then s.stageFail (if procOk then 0x0402 else 0x0401) else s
  else s)

/-! ## MANIFEST (R58, R59, R73, R78) -/

/-- The slot fails a load check: it is INVALID with its error (R59, R83). -/
def State.slotFails (s : State) (i : Nat) (e : LoadErr) : State :=
  (((s.slotBad i e.code).loadError e).countSig (some e)).flag R.MAN_EVENT_STATUS_LOAD_FAILED
/-- What a loaded manifest sets (R78, R79, R80): its registers, the units that it configures, and the check value that both
technologies compute (R540). -/
def State.loaded (s : State) (i : Nat) (recs : List CfgRec) : State :=
  let x := s.man' i
  let chk := safetyValue x.image
  let s := (s.withCfg recs).loadError LoadErr.none
  let s := ((s.wr R.MAN_STATUS_LOADED_SLOT i).wrB R.MAN_STATUS_LOADED true).wrB R.MAN_STATUS_FROM_STANDBY (s.slotState i == STANDBY)
  let s := ((s.wr R.MAN_KEY_ID (u32 x.image 0x2C)).wr R.MAN_ACTIVE_GEN (u32 x.image 0x10)).wr R.MAN_ACTIVE_EPOCH x.epoch
  let s := ((s.wr R.MAN_SAFETY_CHECK chk).wr64 R.MAN_BUILD_TIME_LO (u64 x.image 0x30)).showLog
  let s := (s.wr R.SAF_CHECK_PROC chk).wr R.SAF_CHECK_HW chk
  let bad := s.rd R.MAN_SAFETY_CONFIRMED != chk
  let s := (s.wrB R.MAN_STATUS_SAFETY_UNCONFIRMED bad).wrB R.SAF_STATUS_UNCONFIRMED bad
  let s := if bad then s.flag R.MAN_EVENT_STATUS_SAFETY_MISMATCH else s
  let s := s.wr R.PLT_SOURCE_SELECT_SELECTED (s.srcRec.elim 0 (·.u8 0x10))
  let s := ((s.wrB R.FIO_STATUS_RUNNING true).fioLoad.safStart).showConns.safEval
  (s.cfgAll 6 4).foldl (fun s r =>
    if bit (s.rd R.SYS_SELFTEST_PORTS_POS_FAILED) r.id then s
    else if (s.ch r.id).vane then s.setQuality r.id POS_GOOD else s.setQuality r.id POS_LOST) s
/-- The slot to load, and the other one where it fails (R59). -/
def State.loadSlots (s : State) : Option Nat × State :=
  match s.toLoad with
  | none => (none, s)
  | some i => match s.slotRecs i with
    | .ok recs => (some i, s.loaded i recs)
    | .error e =>
      let s := s.slotFails i e
      let j := 1 - i
      if s.slotState j = ACTIVE ∨ s.slotState j = STANDBY then
        match s.slotRecs j with
        | .ok recs => (some j, s.loaded j recs)
        | .error e => (none, s.slotFails j e)
      else (none, s)
/-- MANIFEST ends; `refused` says that a safety technology refuses the SAFETY section. -/
def execManifestStageDone (refused : Bool) (s : State) : Res State :=
  .next (if s.powered && s.stage == 5 then
    match s.loadSlots with
    | (none, s) => s.stageFail 0x0501
    | (some _, s) => if refused then s.stageFail 0x0502 else s.setStage 6
  else s)

/-! ## SELF_TEST (R89, R725) -/

/-- The result shown, and copied to the boot region. -/
def State.showSelftest (s : State) (cores lanes pairs dram xng pos mbc ser : Nat) : State :=
  let s := (((s.wr R.SYS_SELFTEST_CORES_GOOD cores).wr R.SYS_SELFTEST_LANES_GOOD lanes).wr R.SYS_SELFTEST_PAIRS pairs).wr
    R.SYS_SELFTEST_DRAM_CHANNELS dram
  let s := (((s.wr R.SYS_SELFTEST_XNG_FAILED xng).wr R.SYS_SELFTEST_PORTS_POS_FAILED pos).wr R.SYS_SELFTEST_PORTS_MBC_FAILED mbc).wr
    R.SYS_SELFTEST_PORTS_SER_FAILED ser
  s.modNv fun n => { n with boot := { n.boot with selftest := some (s.word R.SYS_SELFTEST.addr, s.word R.SYS_SELFTEST_PORTS.addr) } }
/-- The failure code of the first resource below its minimum, 0 where each meets it. -/
def State.testCode (s : State) (cores lanes pairs xng : Nat) (dramOk nvmOk pllOk : Bool) : Nat :=
  if cores < 8 then 0x0601 else if lanes < 3 then 0x0602 else if pairs < 1 then 0x0603 else if !dramOk then 0x0604
  else if !nvmOk then 0x0605 else if (List.range 16).any (fun n => bit xng n && s.xngUsed n) then 0x0606
  else if !pllOk then 0x0607 else 0
/-- A resource below its full count and not below its minimum is recorded, one entry each. -/
def State.recordAbsorbed (s : State) (short : List Bool) : State :=
  (short.filter id).foldl (fun s _ => s.recordBit R.SYS_EVENT_STATUS_STAGE_CHANGED) s
def State.selfTest (s : State) (cores lanes dram xng pos mbc ser : Nat) (pipes : List Nat) (dramOk : Bool) (nvm : Nat) (pllOk : Bool) : State :=
  let s := ((pipes.filter (· < 4)).foldl (fun s p => s.wr (pipeFld p) 3) s).formPairs
  let pairs := pairsOf s.goodPipes.length
  let s := s.showSelftest (min 10 cores) (min 3 lanes) pairs (min 4 dram) xng pos mbc ser
  let code := s.testCode cores lanes pairs xng dramOk (decide (0 < nvm)) pllOk
  if code ≠ 0 then s.stageFail code
  else
    let s := s.recordAbsorbed [decide (cores < 10), decide (s.goodPipes.length < 4), decide (dram < 4), decide (nvm < 2), xng != 0, pos != 0, mbc != 0, ser != 0]
    ((s.setStage 7).loopFresh PRIMED false).showCores
/-- The self-test's result: what passed and failed; `nvm` is 0 where non-volatile memory lies below its minimum, 1 below its full
count, and more where all of it passed. -/
def execSelfTestDone (cores lanes dram xng pos mbc ser : Nat) (pipes : List Nat) (dramOk : Bool) (nvm : Nat) (pllOk : Bool) (s : State) : Res State :=
  .next (if s.powered && s.stage == 6 then s.selfTest cores lanes dram xng pos mbc ser pipes dramOk nvm pllOk else s)

/-! ## LEARNED (R91, R264) -/

/-- A string from its checkpoint record (R264): its cells with their priors converge; a FROZEN one stays Missing and FROZEN, its
learned values held until its freeze expires (R263, log 40). -/
def State.restoreStr (s : State) (i : Nat) (t : CfgRec) (r : CkStr) (age : Nat) : State :=
  let days := cfgD s.device (fun (d : CfgRec) => d.u32 0x1C) 90
  let gap := if s.rd R.SYS_BOOT_CAUSE = 0x0102 then t.gapS else (age : Rat)
  let cell (p : Rat × Rat) : Cell :=
    { Cell.zero with z := p.1, h := p.2, pzz := t.sigInit * t.sigInit + t.noiseGap * gap, ppp := t.sigV * t.sigV, phh := t.sigV * t.sigV }
  let x := { s.freshStr i with cells := r.zh.map cell }
  if r.state = 4 then
    let s := (s.modPstr i fun p => { p with state := 6 }).watchString i
    if r.frozenAt + days * 86400 ≤ s.opSec then s.setEst i { x with state := 4 }
    else s.setEst i { x with state := 4, learned := r.learned, frozenAt := some r.frozenAt }
  else
    s.setEst i { x with state := 2, learned := r.learned,
                        init := some ⟨List.range 256, r.zh.zipIdx.map fun (p : (Rat × Rat) × Nat) => (p.2, p.1.1), gap⟩ }
def State.restoreStrings (s : State) (c : Ckpt) : State :=
  (s.cfgAll 5 3).foldl (fun s r =>
    match tget c.strings r.id, s.strType r.id with
    | some k, some t => if k.typ = r.u8 0x12 then s.restoreStr r.id t k (s.opSec - c.opSec) else s.setEst r.id (s.freshStr r.id)
    | _, _ => s.setEst r.id (s.freshStr r.id)) s
def State.restoreLearnedValues (s : State) : State :=
  match newestCkpt s.nv.ckpt s.plantIdent with
  | some (_, c) => s.restoreStrings c
  | none =>
    let s := (s.cfgAll 5 3).foldl (fun s r => s.setEst r.id (s.freshStr r.id)) s
    (s.wrB R.SYS_START_STATUS_LEARNED_DEFAULTED true).wrB R.EST_STATUS_DEFAULTED true

/-! ## PARTNERS (R88, R89, R92) -/

/-- The RS-485 lines and Ethernet ports as their records set them up (R602, R607); J4 and J5 are masters from the outset (R611). -/
def State.startLines (s : State) : State :=
  (s.cfgAll 10 7).foldl (fun s r =>
    let l := r.id
    let s := (s.wr (serState l) (if bit (s.rd R.SYS_SELFTEST_PORTS_SER_FAILED) l then 2 else 1)).wr (R.SER_RATE l) (r.u32 0x10)
    (s.wrB ((R.SER_STATUS l).bit 0) (bit (r.u8 0x14) 0)).wrB ((R.SER_STATUS l).bit 1) (bit (r.u8 0x14) 1)) s
def State.startPorts (s : State) : State :=
  let s := (s.cfgAll 10 1).foldl (fun s r =>
    let s := (s.wr (R.NET_PORT_IPV4 r.id) (r.u32 0x14)).wrB ((R.NET_PORT_STATUS r.id).bit 25) (bit (r.u8 0x11) 0)
    if bit (r.u8 0x11) 3 then s.wr (R.NET_PTP_PORT_STATES.part (4 * r.id) 4) (if r.id < 2 then 1 else 2) else s) s
  let s := (s.wrB R.NET_PTP_STATUS_ROLE ((s.cfg 10 2 0).any fun r => r.u8 0x10 == 1)).modNet fun x => { x with began := s.tick }
  let s := s.wrB (R.NET_PRP_STATUS.bit 2) s.prpPair
  s.wrB (R.NET_MODBUS_STATUS.bit 8) ((s.cfg 10 4 0).any fun r => bit (r.u8 0x10) 0)
/-- The declared partners (R25): nodes by crossing and berth, PCS units, drives by bus and number, fixtures, and remote safety
I/O units by the slot and the high part of their connection's identity. -/
def State.partners (s : State) : List (Nat × Nat × Nat) :=
  (((List.range 16).filter s.xngUsed).flatMap fun n => (s.declared n).map fun p => (0, n, p.1)) ++
  (s.pcsUnits.map fun u => (1, u.id, 0)) ++
  ((s.cfgAll 11 7).map fun r => if r.id < 256 then (2, 8, r.id) else (2, (r.id - 256) / 2, (r.id - 256) % 2)) ++
  ((s.fixtures.map fun r => (3, r.id, 0)) ++ s.remoteUnits.map fun k => (4, k, 0))
/-- The partner has answered: its node joined, quarantined or asleep, the unit, drive or fixture heard, the connection of the
remote unit operating. -/
def State.answered (s : State) (p : Nat × Nat × Nat) : Bool :=
  match p.1 with
  | 0 => let k := (s.node p.2.1 p.2.2).state; k == 3 || k == 4 || k == 7
  | 1 => decide (0 < (s.pcs p.2.1).good)
  | 3 => (s.fixt p.2.1).heard.isSome
  | 4 => s.unitHeard p.2.1
  | _ => if p.2.1 = 8 then (s.carOf p.2.2).drvSeq.isSome else (s.doorOf (2 * p.2.1 + p.2.2)).rxSeq.isSome
def State.isAbsent (s : State) (p : Nat × Nat × Nat) : Bool := s.xng.absent.contains p && !s.answered p
def State.markAbsent (s : State) (p : Nat × Nat × Nat) : State :=
  if s.xng.absent.contains p then s else { s with xng := { s.xng with absent := s.xng.absent ++ [p] } }
/-- The bus, or the line, on which a partner hangs has failed its self-test (R89). -/
def State.onFailedPort (s : State) (p : Nat × Nat × Nat) : Bool :=
  let bus (b : Nat) : Bool := bit (s.rd R.SYS_SELFTEST_PORTS_MBC_FAILED) b
  match p.1 with
  | 2 => bus p.2.1
  | 3 => (s.cfg 11 6 p.2.1).any fun r => if r.u8 0x10 = 0 then bus (r.u8 0x11) else bit (s.rd R.SYS_SELFTEST_PORTS_SER_FAILED) (r.u8 0x11)
  | 4 => (s.connRec p.2.1).any fun r => r.u8 0x17 == 0 && bus (r.u8 0x18)
  | _ => false
/-- The ports come up: crossings are discovered by census (R230), buses and lines run, and what hangs on a failed controller is absent. -/
def State.portsStart (s : State) : State :=
  let s := ((s.cfgAll 10 6).filter fun r => !bit (s.rd R.SYS_SELFTEST_PORTS_MBC_FAILED) r.id).foldl (fun s r => s.startBus r.id) s
  let s := (s.startLines.startPorts).doorStart
  let s := s.cars.foldl (fun s c => (s.wr (R.CAR_STATUS_STATE c) IDLE).wr (R.GRP_CAR_STATE_STATE c) 1) s
  let s := s.pcsUnits.foldl (fun s u => s.showPcs u.id) ((s.wrB R.EST_STATUS_RUNNING true).wrB R.PLT_PROT_STATUS_RUNNING true)
  let s := ((List.range 16).filter s.xngUsed).foldl (fun s n => (s.replan n).discover n 1) s
  (s.partners.filter s.onFailedPort).foldl State.markAbsent s
def execLearnedRestoreDone (s : State) : Res State :=
  .next (if s.powered && s.stage == 7 then ((s.restoreLearnedValues.showCkpt).setStage 8).portsStart else s)
def execPartnerAbsentTimeout (kind a b : Nat) (s : State) : Res State :=
  let p := (kind, a, b)
  .next (if s.powered && s.stage == 8 && s.partners.contains p && !s.answered p then s.markAbsent p else s)
/-- UNDERWAY. -/
def State.goUnderway (s : State) : State :=
  let s := ((s.setStage 9).wr R.PWR_WAKE_LATCH 0).modPwr fun p => { p with heldAt := some s.tick }
  let s := ((s.wr R.PLT_DISP_STATUS_MODE GRID).wrB R.FIO_STATUS_OUTPUTS_ENABLED true).billStart
  let src := s.rd R.PLT_SOURCE_SELECT_SELECTED
  let s := if s.srcFaulty src then s.fallBack src else s.useSource src
  (s.acqStart).safety
def execPartnersDone (s : State) : Res State :=
  .next (if s.powered && s.stage == 8 && s.partners.all (fun p => s.answered p || s.xng.absent.contains p) then s.goUnderway else s)

/-! ## Ends of a start (R88, R95, R103, R105, R110) -/

/-- POWER overruns its bound: the start that it would have been has failed. -/
def State.powerLate (s : State) : State := ((s.enterFail 0x02FF (s.rd R.PWR_POWER_CYCLES) s.opSec).saveBoot).stageFail 0x02FF
/-- A stage from 2 to 7 overruns its bound. Of BOOT and SAFETY, which run side by side, SAFETY has the shorter bound, so it is the
one that overruns while it still runs. After Off, POWER begins with the Bollard state restored (log 100). -/
def execStageTimeout (s : State) : Res State :=
  .next (match s.boll.phase with
    | .off => s.restoreBoot.powerLate
    | .power => s.powerLate
    | .on =>
      let n := s.stage
      if n = 3 ∨ n = 4 then s.stageFail (if s.techsPassed then 0x03FF else 0x04FF)
      else if 5 ≤ n ∧ n ≤ 7 then s.stageFail (n * 256 + 0xFF) else s
    | .berth => s)
/-- The timer of 180 s, which Awaiting manifest, Mooring mode and firmware recovery stop. -/
def execStartTimeout (s : State) : Res State :=
  .next (if s.powered then (if s.stage < 9 then s.faultReset 0x0109 else s) else s.outrank 0x0109)
/-- The slot changes of R58 and R59: the slot loaded is ACTIVE, and no other is. -/
def State.slotsHeld (s : State) : State :=
  if s.on R.MAN_STATUS_LOADED ∧ s.stage = 9 then
    let i := s.loadedSlot
    let now := s.slotState i
    if now = TRIAL ∧ s.man.trialAtStart ≠ some i then s
    else if now = TRIAL ∨ now = STANDBY then
      let s := s.slotTo i ACTIVE
      if s.slotState (1 - i) = ACTIVE then s.slotTo (1 - i) STANDBY else s
    else s
  else s
/-- The floor rises to that of image A, up to the counter's 64 steps (R671; log 116). -/
def State.raiseFloor (s : State) : State :=
  if !bit (s.rd R.SEC_FW_RUNNING) 31 ∧ s.rd R.SEC_FW_FLOOR < s.nv.fwA.floor then s.wr R.SEC_FW_FLOOR (min 64 s.nv.fwA.floor) else s
/-- Success (R95). -/
def State.succeed (s : State) : State :=
  let s := ((s.wr R.SYS_FAILED_STARTS 0).wrB R.SYS_START_STATUS_SUCCEEDED true).wr R.SYS_LAST_SUCCESS_OPSEC s.opSec
  let s := (s.modBoll fun b => { b with settled := true }).saveBoot
  (s.slotsHeld.raiseFloor).flag R.SYS_EVENT_STATUS_START_SUCCEEDED
def execStartHoldElapsed (s : State) : Res State :=
  .next (if s.powered && (s.stage == 9 || s.awaiting) && !s.on R.SYS_START_STATUS_SUCCEEDED then s.succeed else s)
/-- HOLD repeated every 10 s: Mooring mode (R41), Awaiting manifest and Returned (R93, R665), firmware recovery (R102), and
LOOPS_ONLY (R144). -/
def execHoldRepeatTimer (s : State) : Res State :=
  .next (if !s.powered then s
    else if s.mooring then s.holdMooring 3
    else if s.awaiting || s.recovery || s.lifecycle == 3 then s.holdRings 7
    else if s.rd R.PWR_THERMAL_STATUS_STAGE = 2 then (s.holdRings 4).holdPcs 4 else s)
/-- A `SYS_START_CONTROL` write judged: 1 accepted, 2 refused for role, 3 refused for state (R721, R722). -/
def State.startControl (s : State) (sess key : Nat) (ok : Bool) (f : State → State) : State :=
  if key ≠ 0xA5 ∨ s.recovery = true then s
  else if !s.engineer sess then s.wr R.SYS_START_STATUS_CONTROL_RESULT 2
  else if !ok then s.wr R.SYS_START_STATUS_CONTROL_RESULT 3
  else f (s.wr R.SYS_START_STATUS_CONTROL_RESULT 1)
def execHostReset (sess key : Nat) (s : State) : Res State :=
  .next (s.startControl sess key s.booted fun s => s.hostReset 0x0105)
def execAttemptStart (sess key : Nat) (s : State) : Res State :=
  .next (s.startControl sess key s.mooring fun s =>
    (((s.modBoll fun b => { b with attempt := true }).wrB R.SYS_START_STATUS_ATTEMPT_LATCHED true).saveBoot).hostReset 0x010C)
/-- A rail out of regulation: HOLD on the crossings. -/
def execBrownOut (s : State) : Res State := .next (s.faultCause 0x0103)
def execFirmwareFatal (s : State) : Res State := .next (s.faultCause 0x0106)
def execEngineHaltTimeout (s : State) : Res State :=
  .next (if s.powered && s.engine == 3 then s.faultReset 0x0106 else s)

/-! ## Firmware recovery (R671, R672, R726) -/

/-- MANIFEST_COMMIT of a firmware image: judged as R671 states; a verified A goes to B first where their versions differ,
and the Turid starts again. `valid`, `version` and `floor` are what verification finds in the image. -/
def State.fwCommit (s : State) (sess tag : Nat) (valid : Bool) (version floor : Nat) : State :=
  match s.ownStage sess with
  | none => (s.loadCode STATE).reply sess tag 0x32 STATE []
  | some g =>
    if g.kind ≠ 2 then (s.loadCode STATE).reply sess tag 0x32 STATE []
    else if g.bytes.length ≠ g.len then (s.stageGone.loadCode 0x0211).reply sess tag 0x32 0x0211 []
    else
      let s := s.stageGone
      let new : FwImage := ⟨valid, version, floor⟩
      if new.ok (s.rd R.SEC_FW_FLOOR) then
        let a := s.nv.fwA
        let s := s.modNv fun n => { n with fwB := if a.ok (s.rd R.SEC_FW_FLOOR) && a.version != version then a else n.fwB, fwA := new }
        ((s.loadCode OK).reply sess tag 0x32 OK []).turidReset 0x010B fun s => s
      else ((s.inc R.SEC_SIG_FAILS).loadCode 0x0211).reply sess tag 0x32 0x0211 []
def execFirmwareCommit (sess tag : Nat) (valid : Bool) (version floor : Nat) (s : State) : Res State :=
  .next (if s.recovery then
    s.helm sess tag 0x32 4 (.firmwareCommit sess tag valid version floor) fun s => s.fwCommit sess tag valid version floor
  else s)

end Sys2Proof.Machine
end

