-- ==== Sys2Proof/Machine/Pwr.lean ====
section
/-!
DEFINITION. Power states, supply and wake, domain reset requests, the watchdog and the thermal stages (R113 to R151,
R693): one meaning per row.
-/
namespace Sys2Proof.Machine
open Sys2Proof

/-! ## Glide (R113 to R116) -/

/-- Glide begins: the domains of R133 stop, the Glide schedule runs, strings go to 1 Hz. `PWR_GLIDE_SECONDS` counts the whole
seconds of each Glide: the part of a second at the end of one is not carried into the next (DESIGN CHOICE, log 99). -/
def State.glideEnter (s : State) : State :=
  let s := (s.wr R.PWR_STATE_STATE 2).wrB R.LOOP_STATUS_GLIDE_SCHEDULE true
  let s := (s.showDomains.acqGlide).showPwm
  let s := ((List.range 16).filter s.xngUsed).foldl State.replan s
  ((s.modPwr fun p => { p with glideTicks := 0 }).inc R.PWR_GLIDE_ENTRIES).flag R.PWR_EVENT_STATUS_GLIDE_ENTERED
def execGlideDwellExpiry (s : State) : Res State :=
  .next (if s.underway && s.rd R.PWR_STATE_STATE == 1 && s.glideBits == 0 then s.glideEnter else s)

/-! ## Berth (R117 to R119, R601) -/

/-- The lowest refusal that applies; 1 where none does. -/
def State.berthCase (s : State) (sess : Nat) : Nat :=
  if !s.engineer sess then 2
  else if !s.on R.SYS_START_STATUS_SUCCEEDED then 3
  else if s.motion then 4
  else if s.evac || bit (s.rd R.PWR_GLIDE_STATUS) 5 || s.mooring then 5
  else if s.patchPending then 6 else 1
def State.enterBerth (s : State) (sess : Nat) : State :=
  let r := s.berthCase sess
  let s := s.berthResult r
  if r = 1 then ((s.modPwr fun p => { p with berthRun := true }).wr R.PWR_STATE_STATE 5).startCkpt 5 none else s
def execEnterBerth (sess key : Nat) (s : State) : Res State :=
  .next (if s.powered && key == 0xA5 && s.isOpen sess && !s.pwr.berthRun then s.enterBerth sess else s)
def execCancelBerth (sess key : Nat) (s : State) : Res State :=
  .next (if s.keyed sess key && s.pwr.berthRun then s.berthStop 8 else s)
/-- The point of no return and what follows it: everything but the Bollard domain goes off. -/
def State.berthed (s : State) : State :=
  let s := s.holdAll 2
  let s := s.buses.foldl (fun s b => s.canSend b 3 (sleepFrame 2 3 (s.mbcOf b).sleepId)) s
  let s := s.modNv fun n => { n with boot := { n.boot with traceLost := some (s.tick, s.opSec) } }
  let s := s.record s.writer 0x1409 0 (le 8 s.tick)
  let s := ((s.closeAll.debugClose).inc R.PWR_BERTH_ENTRIES).outputsOff
  ((s.failSlots false).wipe [1, 2]).modBoll fun b => { b with phase := .berth, byLoss := false, tamperWait := false }
/-- The checkpoint and the counter copies are complete. -/
def execBerthEntryComplete (s : State) : Res State :=
  .next (if s.powered && s.pwr.berthRun && s.est.ckptRun.isNone then
    let s := s.saveTime
    if s.rd R.PWR_WAKE_LATCH % 128 = 0 then s.berthed else s.berthStop 7
  else s)

/-! ## Supply (R113, R120 to R123, R693) -/

/-- `PWR_SUPPLY_STATUS` with one input changed: `b` names PWR-B. -/
def State.inputTo (s : State) (b good : Bool) : State :=
  s.supply (if b then s.on R.PWR_SUPPLY_STATUS_A_GOOD else good) (if b then good else s.on R.PWR_SUPPLY_STATUS_B_GOOD)
    (s.on R.PWR_SUPPLY_STATUS_BKP_GOOD)
def execMainInputLost (b : Bool) (s : State) : Res State :=
  let this := if b then R.PWR_SUPPLY_STATUS_B_GOOD else R.PWR_SUPPLY_STATUS_A_GOOD
  let other := if b then R.PWR_SUPPLY_STATUS_A_GOOD else R.PWR_SUPPLY_STATUS_B_GOOD
  .next (if s.boll.phase != .off && s.on this && s.on other then
    let s := (s.inputTo b false).wrB (if b then R.PWR_SUPPLY_STATUS_B_LOST else R.PWR_SUPPLY_STATUS_A_LOST) true
    if s.powered then s.flag R.PWR_EVENT_STATUS_SUPPLY_LOST else s
  else s)
def execMainInputGood (b : Bool) (s : State) : Res State :=
  .next (if s.boll.phase != .off && !s.on (if b then R.PWR_SUPPLY_STATUS_B_GOOD else R.PWR_SUPPLY_STATUS_A_GOOD)
    then (s.inputTo b true).wakeSource 0 else s)
/-- A record whose write the loss of supply interrupts stays pending (R648, R649). -/
def State.tearRecord (s : State) (torn : Bool) : State :=
  if torn then s.modNv fun n => { n with log := match n.log with | [] => [] | r :: l => { r with mark := 0xF } :: l } else s
/-- The supply goes while the rails are on: each energised car trips, recorded on hold-up energy (R104, R694); nothing is
sent (R122). -/
def State.loseRails (s : State) (torn : Bool) : State :=
  let cars := (List.range 8).filter fun c => s.rd R.SAF_OUTPUT_STATE / 2 ^ (3 * c) % 8 != 0
  let s := cars.foldl (fun s c => s.recordTrip 0x0E01 0 true (le 1 c ++ le 1 (3 * c) ++ le 1 13)) (s.tearRecord torn)
  s.outputsOff
/-- Both main inputs are gone with BKP present (R113, R150). The Berth that follows is no entry of R119: it counts in no
`PWR_BERTH_ENTRIES` and copies no time under R131, since nothing runs that could (DESIGN CHOICE, log 101). -/
def State.bothLost (s : State) (torn : Bool) : State :=
  let s := if s.on R.PWR_SUPPLY_STATUS_A_GOOD then s.wrB R.PWR_SUPPLY_STATUS_A_LOST true else s
  let s := if s.on R.PWR_SUPPLY_STATUS_B_GOOD then s.wrB R.PWR_SUPPLY_STATUS_B_LOST true else s
  let s := match s.boll.phase with
    | .on => (((s.loseRails torn).failStart 0x0101).wipe [1, 2]).modBoll fun b =>
        { b with phase := .berth, byLoss := true, tamperWait := false }
    | .power => (s.outrank 0x0101).modBoll fun b => { b with phase := .berth, byLoss := true, ended := none }
    | _ => s
  s.supply false false (s.on R.PWR_SUPPLY_STATUS_BKP_GOOD)
def execBothMainsLost (torn : Bool) (s : State) : Res State :=
  .next (if s.mainGood && s.on R.PWR_SUPPLY_STATUS_BKP_GOOD then s.bothLost torn else s)
/-- Off: nothing is supplied. Of the Bollard registers only the counts since manufacture survive; a start that has not been
judged fails when the next one begins (R98). -/
def State.goOff (s : State) (torn : Bool) : State :=
  let s := if s.powered then ((s.loseRails torn).failSlots true).saveBoot else s.outrank 0x0102
  let kept := [R.SYS_STARTS, R.SYS_STARTS_FAILED, R.SYS_MOORING_ENTRIES, R.SYS_LAST_SUCCESS_OPSEC, R.PWR_BERTH_ENTRIES,
    R.PWR_WATCHDOG_EXPIRIES] ++ (List.range 8).map R.SEC_TAMPER_COUNT
  let t := s.wipe [2]
  (kept.foldl (fun t f => t.wr f (s.rd f)) t).modBoll fun _ => { State.reset.boll with phase := .off, cause := 0x0102 }
def execBkpDepleted (torn : Bool) (s : State) : Res State :=
  .next (if s.boll.phase = .off then s else s.goOff torn)
def execWakeSourceEvent (n sec ms : Nat) (s : State) : Res State :=
  let t := s.opTo sec ms
  .next (if s.boll.phase = .off then s else if n = 1 then (if t.opSec = t.rd R.PWR_WAKE_ALARM then t.wakeSource 1 else t) else t.wakeSource n)
/-- R121: a latch is set in Berth while a main input is good: a start begins at POWER. -/
def execBerthWake (s : State) : Res State :=
  let l := s.rd R.PWR_WAKE_LATCH % 128
  .next (if s.boll.phase = .berth ∧ l ≠ 0 ∧ s.mainGood = true then
    (s.wr (R.PWR_WAKE_CAUSE.part 0 7) l).modBoll fun b =>
      { b with phase := .power, ended := none, cause := if !b.byLoss then 0x010A else if s.nv.boot.firstPower then 0x0100 else 0x0101 }
  else s)
/-- R131: operating seconds reach a whole multiple of 60. -/
def execOpsecPersist (sec : Nat) (s : State) : Res State :=
  .next (if s.boll.phase != .off && sec % 60 == 0 then
    let s := s.opTo sec 0
    if s.powered then s.saveTime else s
  else s)

/-! ## Domain resets (R141) and waiting accesses (R139) -/

/-- The result of a request, with its event. -/
def State.resetResult (s : State) (r : Nat) : State :=
  (s.wr R.PWR_DOMAIN_RESET_STATUS_RESULT r).flag R.PWR_EVENT_STATUS_DOMAIN_RESET_DONE
/-- The reset begins: the loop engine stops at park values (R365), and field I/O reads and drives off (R582). -/
def State.resetBegin (s : State) (d : Nat) : State :=
  let s := (s.modPwr fun p => { p with resetDom := some d }).wrB R.PWR_DOMAIN_RESET_STATUS_BUSY true
  if d = 3 then (s.loopFresh STOPPED true).showPwm
  else if d = 13 then ((s.wrB R.FIO_STATUS_RUNNING false).showAllInputs).driveOuts else s
/-- A request judged: 4 role, 3 not resettable, 2 not while MOTION is set. -/
def State.domainReset (s : State) (sess d : Nat) : State :=
  let s := (s.wr R.PWR_DOMAIN_RESET_STATUS_DOMAIN d).wr R.PWR_DOMAIN_RESET_STATUS_RESULT 0
  if !s.engineer sess then s.resetResult 4
  else if [0, 1, 2, 5, 6, 14, 15].contains d then s.resetResult 3
  else if [3, 8, 9, 12].contains d && s.motion then s.resetResult 2
  else s.resetBegin d
def execPwrDomainReset (sess key d : Nat) (s : State) : Res State :=
  .next (if s.powered && key == 0xA5 && d < 16 && s.isOpen sess && s.pwr.resetDom.isNone then s.domainReset sess d else s)
/-- An access has waited 10 ms. -/
def execHungAccessTimeout (sess : Nat) (s : State) : Res State :=
  .next (match s.session sess with
    | none => s
    | some x => match x.wait with
      | none => s
      | some w => if w.timed then s else
        (s.setSession sess { x with wait := some { w with timed := true } }).flag R.PWR_EVENT_STATUS_HUNG_ACCESS)

/-! ## The application watchdog (R35, R143) -/

def execWatchdogService (s : State) : Res State :=
  .next (if s.on R.PWR_WATCHDOG_STATUS_RUNNING then s.wr R.PWR_WATCHDOG_STATUS_REMAINING_MS 100 else s)
def execWatchdogExpiry (s : State) : Res State :=
  .next (if s.powered then
    if s.on R.PWR_WATCHDOG_STATUS_RUNNING then
      ((s.wr R.PWR_WATCHDOG_STATUS_REMAINING_MS 0).inc R.PWR_WATCHDOG_EXPIRIES).turidReset 0x0104 fun s => s.holdRings 1
    else s
  else s.outrank 0x0104)

/-! ## Thermal stages (R144 to R147) -/

/-- Crossings and ports have begun to send. -/
def State.sending (s : State) : Bool := s.powered && decide (8 ≤ s.stage)
/-- A stage entered, with what it starts and ends. -/
def State.thermalTo (s : State) (st : Nat) : State :=
  let old := s.rd R.PWR_THERMAL_STATUS_STAGE
  let s := (s.wr R.PWR_THERMAL_STATUS_STAGE st).flag R.PWR_EVENT_STATUS_THERMAL_STAGE
  let s := if old = 1 then s.wrB R.PWR_THERMAL_STATUS_EVAC_OVERRIDE false else s
  let s := s.wrB R.PLT_PROT_STATUS_LAYER1_ONLY (st == 2)
  let s := if st = 1 then s.inc R.PWR_REDUCED_COUNT else s
  if st = 2 then
    let s := ((s.inc R.PWR_LOOPS_ONLY_COUNT).wrB R.EST_STATUS_RUNNING false).wrB R.PLT_DISP_STATUS_RUNNING false
    if s.sending then (s.holdRings 4).holdPcs 4 else s
  else if old = 2 ∧ s.portsUp = true then
    (s.wrB R.EST_STATUS_RUNNING (!s.on R.EST_STATUS_NO_CHECKED_PAIR)).refreshAll
  else s
/-- R146 holds the stage at REDUCED, with a recorder entry. -/
def State.evacOverride (s : State) : State :=
  if s.on R.PWR_THERMAL_STATUS_EVAC_OVERRIDE then s
  else (s.wrB R.PWR_THERMAL_STATUS_EVAC_OVERRIDE true).recordBit R.PWR_EVENT_STATUS_THERMAL_STAGE
/-- The hottest die sensor has reached 105 °C. -/
def execThermalReducedEntry (s : State) : Res State :=
  .next (if s.powered && s.rd R.PWR_THERMAL_STATUS_STAGE == 0 then s.thermalTo 1 else s)
/-- The die has stood at 105 °C or more (`hot`), or at or below 95 °C, for 60 s. -/
def State.thermalDwell (s : State) (hot : Bool) : State :=
  let st := s.rd R.PWR_THERMAL_STATUS_STAGE
  let s := s.modPwr fun p => { p with hot60 := hot }
  if hot then
    if st ≠ 1 then s else if s.evac then s.evacOverride else s.thermalTo 2
  else if st = 1 then s.thermalTo 0 else if st = 2 then s.thermalTo 1 else s
def execThermalDwellExpiry (hot : Bool) (s : State) : Res State := .next (if s.powered then s.thermalDwell hot else s)
def execThermalTrip (s : State) : Res State := .next (s.faultCause 0x0108)

end Sys2Proof.Machine
end

