-- ==== Sys2Proof/Machine/Sec.lean ====
section
/-!
DEFINITION. Security, lifecycle and debug (R665 to R689): one meaning per row.
-/
namespace Sys2Proof.Machine
open Sys2Proof

abbrev KEY_SWITCH_ST : Nat := 0x0210
abbrev SIGNATURE_ST : Nat := 0x0211
abbrev BAD_REQUEST : Nat := 0x0212
abbrev ENROL_CHECK : Nat := 0x0213
abbrev TOKEN_EXPIRED : Nat := 0x0214
abbrev WRONG_MODULE : Nat := 0x0215
abbrev LIFECYCLE_ST : Nat := 0x0216

/-! ## The staging buffer (R677) -/

/-- The session's holder, and the session that is now the holder of a number. -/
def State.uidOf (s : State) (n : Nat) : Option Nat := (s.session n).map (·.uid)
/-- Another session has written the index since the issuing one last did. -/
def State.stageTaken (s : State) (c : Cmd) : Bool := s.sec.stageOwner.any fun u => u != c.uid
def State.stageIndex (s : State) (n v : Nat) : State :=
  (s.wr R.SEC_STAGE_INDEX v).modSec fun x => { x with stageOwner := (s.uidOf n).or x.stageOwner }
def execStageIndexWrite (sess v : Nat) (s : State) : Res State := .next (if s.isOpen sess then s.stageIndex sess v else s)
/-- A read or write of `SEC_STAGE_DATA`: the word as it then stands, the index moved on by 1. -/
def State.stageData (s : State) (write : Bool) (v : Word) : Word × State :=
  let i := s.rd R.SEC_STAGE_INDEX % 64
  let s := if write then s.modSec fun x => { x with stage := tput x.stage i v } else s
  (tgetD s.sec.stage i 0#32, s.wr (R.SEC_STAGE_INDEX.part 0 6) (i + 1))
def execStageDataAccess (sess : Nat) (write : Bool) (v : Word) (s : State) : Res State :=
  .next (if s.isOpen sess then (s.stageData write v).2 else s)

/-! ## Lifecycle and keys (R665 to R670) -/

/-- PROVISION: the key is installed; BLANK ends once slots 3 to 6 hold keys. -/
def State.provision (q : Nat) (c : Cmd) (s : State) : State :=
  let slot := u8 c.args 0
  let curve := u8 c.args 1
  if s.stageTaken c then s.complete q BUSY 0
  else if 2 ≤ s.lifecycle then s.complete q LIFECYCLE_ST 0
  else if !s.keySwitch then s.complete q KEY_SWITCH_ST 0
  else if slot < 3 ∨ 6 < slot ∨ 1 < curve ∨ (curve = 1 ∧ slot ≠ 5) then s.complete q BAD_MESSAGE 0
  else
    let k := s.stageBytes.take (if curve = 1 then 64 else 96)
    let s := s.putKey slot curve k
    let s := if s.lifecycle = 0 ∧ [3, 4, 5, 6].all (fun i => s.key i != []) then s.lifeTo 1 else s
    s.complete q OK (keyId k)
def execProvision (q : Nat) (s : State) : Res State := s.onCmd q CmdCode.provisionCode (State.provision q)
/-- SEAL (R666): slot 3 goes into OTP. -/
def State.seal (q : Nat) (_ : Cmd) (s : State) : State :=
  if s.lifecycle ≠ 1 then s.complete q LIFECYCLE_ST 0
  else if !s.keySwitch then s.complete q KEY_SWITCH_ST 0
  else if s.underway && s.on R.SYS_START_STATUS_SUCCEEDED && s.nv.plantId.isSome && !s.on R.MAN_STATUS_SAFETY_UNCONFIRMED then
    ((s.lifeTo 2).showKey 3 1 true).complete q OK 0
  else s.complete q STATE 0
def execSeal (q : Nat) (s : State) : Res State := s.onCmd q CmdCode.sealCode (State.seal q)
/-- RESET_COMMISSIONING (R667). -/
def State.resetCommissioning (q : Nat) (_ : Cmd) (s : State) : State :=
  if s.lifecycle ≠ 1 then s.complete q LIFECYCLE_ST 0
  else if !s.keySwitch then s.complete q KEY_SWITCH_ST 0
  else
    let s := (s.emptySlots.zeroCkpts).modNv fun n => { n with plantId := none, maxGen := 0 }
    ((s.wr R.MAN_SAFETY_CONFIRMED 0).complete q OK 0).hostReset 0x0105
def execResetCommissioning (q : Nat) (s : State) : Res State :=
  s.onCmd q CmdCode.resetCommissioningCode (State.resetCommissioning q)
/-- KEY_UPDATE (R670). -/
def State.keyUpdate (q : Nat) (c : Cmd) (s : State) : State :=
  let r := s.stageBytes.take 216
  let slot := u8 r 4
  let curve := u8 r 5
  if s.stageTaken c then s.complete q BUSY 0
  else if s.lifecycle ≠ 2 then s.complete q LIFECYCLE_ST 0
  else if r.take 4 ≠ [0x4B#8, 0x55#8, 0x50#8, 0x44#8] ∨ slot < 4 ∨ 6 < slot ∨ 1 < curve ∨ (curve = 1 ∧ slot ≠ 5) then
    s.complete q BAD_REQUEST 0
  else if some (u64 r 8) ≠ s.nv.plantId then s.complete q WRONG_MODULE 0
  else if u32 r 0x10 ≤ s.nv.keySeq then s.complete q STATE 0
  else if Config.ecdsaVerify (s.key 3) (Config.sha384 (r.take 0x78)) ((r.drop 0x78).take 96) then
    let s := (s.putKey slot curve ((r.drop 0x18).take (if curve = 1 then 64 else 96))).modNv fun n => { n with keySeq := u32 r 0x10 }
    (s.secEvent Ev.KEY_UPDATED (le 1 slot)).complete q OK 0
  else (s.inc R.SEC_SIG_FAILS).complete q SIGNATURE_ST 0
def execKeyUpdate (q : Nat) (s : State) : Res State := s.onCmd q CmdCode.keyUpdateCode (State.keyUpdate q)
/-- REVOKE (R673): the sessions whose certificate chain carries the serial close. -/
def State.revoke (q : Nat) (c : Cmd) (s : State) : State :=
  let n := u64 c.args 0
  if !s.nv.revoked.contains n && decide (64 ≤ s.nv.revoked.length) then s.complete q FULL s.nv.revoked.length
  else
    let s := if s.nv.revoked.contains n then s else s.modNv fun x => { x with revoked := x.revoked ++ [n] }
    let s := (s.wr R.SEC_REVOKED s.nv.revoked.length).complete q OK s.nv.revoked.length
    (s.hq.sessions.filter fun p => p.2.serial == n || p.2.chain.contains n).foldl (fun s p => s.closeSession p.1) s
def execRevoke (q : Nat) (s : State) : Res State := s.onCmd q CmdCode.revokeCode (State.revoke q)
/-- FIRMWARE_UPDATE (R672). -/
def State.fwUpdate (q : Nat) (_ : Cmd) (s : State) : State :=
  if !s.keySwitch then s.complete q KEY_SWITCH_ST 0
  else if !s.on R.SYS_START_STATUS_SUCCEEDED then s.complete q STATE 0
  else ((s.complete q OK 0).modBoll fun b => { b with toRecovery := true }).hostReset 0x0105
def execFirmwareUpdate (q : Nat) (s : State) : Res State := s.onCmd q CmdCode.firmwareUpdateCode (State.fwUpdate q)
def execSecClearCounters (sess key : Nat) (s : State) : Res State :=
  .next (if s.keyed sess key then s.clearCounters 0x20000 0x10000 else s)
/-- R723: the site tag stays as it is from Sealed on. -/
def execSiteTagWrite (sess k : Nat) (v : Word) (s : State) : Res State :=
  .next (if s.isOpen sess && decide (k < 4) && !s.sealed then s.wr (R.SYS_SITE_TAG k) v.toNat else s)
/-- The entropy source fails a health test (R669). -/
def execRngHealthTestFailure (s : State) : Res State :=
  .next (if s.powered then (s.wrB (R.SEC_RNG_STATUS.bit 0) false).incSat (R.SEC_RNG_STATUS.part 8 8) else s)

/-! ## Node enrolment (R675, R676) -/

/-- The quarantine reason of R233 that a certificate check finds for a berth, 0 where it passes. -/
def State.enrolCheck (s : State) (n b : Nat) (cert : List Byte) : Nat :=
  let x := if s.knows n b then s.node n b else s.node n 0x1FD
  if certHeld cert = false ∨ b = 0x1FD then 3
  else if s.certOk cert x.serial = false then 4
  else if (s.declaredAt n b).any (fun d => d.1 != u8 cert 0x1A) then 6 else 0
def State.enrolNode (q : Nat) (c : Cmd) (s : State) : State :=
  let n := u8 c.args 0
  let b := u16 c.args 2 % 512
  let cert := s.stageBytes.take 200
  if s.stageTaken c then s.complete q BUSY 0
  else if !(s.portsUp && s.xngUsed n) then s.complete q STATE 0
  else
    let k := s.enrolCheck n b cert
    if k ≠ 0 then s.complete q ENROL_CHECK k
    else (s.request n b 3 (writePayload 0x10 (le 4 b)) (.sec q 1)).settled
def execEnrolNode (q : Nat) (s : State) : Res State := s.onCmd q CmdCode.enrolNodeCode (State.enrolNode q)
def State.readRequest (q : Nat) (c : Cmd) (s : State) : State :=
  let n := u8 c.args 0
  if s.stageTaken c then s.complete q BUSY 0
  else if s.portsUp && s.xngUsed n then (s.request n (u16 c.args 2 % 512) 2 (readPayload 0x100 50) (.sec q 0)).settled
  else s.complete q STATE 0
def execReadNodeRequest (q : Nat) (s : State) : Res State := s.onCmd q CmdCode.readNodeRequestCode (State.readRequest q)

/-! ## Debug sessions (R678, R679) -/

/-- The status of a token (R678): its form, its module, its expiry, the key that it names and its signature. -/
def State.tokenStatus (s : State) (t : List Byte) : Nat :=
  let id := u32 t 0x14
  let slot := if s.lifecycle = 3 ∧ id = keyId (s.key 1) then 1 else 6
  if t.take 4 ≠ [0x44#8, 0x54#8, 0x4B#8, 0x4E#8] ∨ u16 t 4 ≠ 1 then BAD_REQUEST
  else if u64 t 8 ≠ s.rd64 R.SEC_SERIAL_LO then WRONG_MODULE
  else if u32 t 0x10 ≤ s.opSec then TOKEN_EXPIRED
  else if s.key slot = [] ∨ id ≠ keyId (s.key slot) then SIGNATURE_ST
  else if Config.ecdsaVerify (s.key slot) (Config.sha384 (t.take 0x20)) ((t.drop 0x20).take 96) then OK else SIGNATURE_ST
/-- The permissions that a token grants: NIRBEX_TEST under slot 1 alone. -/
def State.tokenPerms (s : State) (t : List Byte) : Nat :=
  u16 t 6 % (if s.lifecycle = 3 ∧ u32 t 0x14 = keyId (s.key 1) then 32 else 16)
/-- The debug session begins, bound to the issuing Helm session. -/
def State.debugBegin (s : State) (c : Cmd) (perms expiry : Nat) : State :=
  let s := (s.modSec fun x => { x with debugUid := some c.uid }).wr R.SEC_TOKEN_EXPIRY expiry
  let s := ((s.wr R.SEC_DEBUG_STATUS_SESSION c.sess).wr R.SEC_DEBUG_STATUS_PERMISSIONS perms).wr R.SEC_DEBUG_STATUS_STATE 1
  let s := ((s.wrB (R.SEC_STATUS.bit 0) true).wrB (R.DBG_STATUS.bit 0) true).wrB (R.DBG_STATUS.bit 2) (bit perms 2 && s.lifecycle != 2)
  ((s.inc R.DBG_SESSIONS).showCores).secEvent Ev.DEBUG_OPENED []
def State.debugOpen (q : Nat) (c : Cmd) (s : State) : State :=
  let t := s.stageBytes.take 128
  let st := if s.stageTaken c || s.on R.SEC_DEBUG_STATUS_STATE then BUSY else s.tokenStatus t
  let s := s.wr R.SEC_TOKEN_RESULT st
  if st = OK then (s.debugBegin c (s.tokenPerms t) (u32 t 0x10)).complete q OK (s.tokenPerms t)
  else (if st = SIGNATURE_ST then s.inc R.SEC_SIG_FAILS else s).complete q st 0
def execDebugOpen (q : Nat) (s : State) : Res State := s.onCmd q CmdCode.debugOpenCode (State.debugOpen q)
def execDebugClose (q : Nat) (s : State) : Res State :=
  s.onCmd q CmdCode.debugCloseCode fun _ s =>
    if s.on R.SEC_DEBUG_STATUS_STATE then s.debugClose.complete q OK 0 else s.complete q STATE 0
def State.debugExpired (s : State) : Bool := s.on R.SEC_DEBUG_STATUS_STATE && decide (s.rd R.SEC_TOKEN_EXPIRY ≤ s.opSec)
def execDebugExpiryCheck (s : State) : Res State := .next (if s.debugExpired then s.debugClose else s)

/-! ## Halts, breakpoints and memory (R680, R681) -/

/-- The session to which the open debug session is bound. -/
def State.debugger (s : State) (n : Nat) : Bool :=
  s.on R.SEC_DEBUG_STATUS_STATE && s.isOpen n && decide (s.sec.debugUid = s.uidOf n)
def State.debugMay (s : State) (p : Nat) : Bool := bit (s.rd R.SEC_DEBUG_STATUS_PERMISSIONS) p
/-- What defers a halt in SEALED: bits 16 motion, 17 plant power, 18 evacuation; Mooring mode defers nothing (R682). -/
def State.haltCauses (s : State) : Nat :=
  if s.lifecycle ≠ 2 ∨ s.mooring = true then 0
  else b2n s.motion + 2 * b2n (decide (s.glideThreshold ≤ ratAbs (s.rdR R.PLT_MEASURED_POWER 0))) + 4 * b2n s.evac
/-- The halt of a core is deferred. -/
def State.deferHalt (s : State) (k : Nat) : State :=
  if bit (s.rd R.DBG_HALT_DEFERRED) k then s
  else
    let s := (s.wrB (R.DBG_HALT_DEFERRED.bit k) true).wr (R.DBG_HALT_DEFERRED.part 16 3) s.haltCauses
    (s.inc R.DBG_DEFERRALS).secEvent Ev.HALT_DEFERRED (le 1 k)
/-- A halt takes effect where a spare is free. -/
def State.haltCore (s : State) (k : Nat) : State :=
  if bit s.halted k ∨ s.sparesFree = 0 then s else ((s.wrB (R.DBG_HALT_STATUS.bit k) true).inc R.DBG_HALTS).showCores
/-- The core runs again, or its halt is no longer wanted. -/
def State.freeCore (s : State) (k : Nat) : State :=
  (s.wrB (R.DBG_HALT_STATUS.bit k) false).wrB (R.DBG_HALT_DEFERRED.bit k) false
def State.haltRequest (s : State) (v : Nat) : State :=
  let old := s.rd R.DBG_HALT_REQUEST
  let cores := (List.range 10).filter (1 ≤ ·)
  let s := s.wr R.DBG_HALT_REQUEST (v / 2 * 2)
  let s := (cores.filter fun k => !bit v k).foldl State.freeCore s
  let s := if s.rd R.DBG_HALT_DEFERRED % 1024 = 0 then s.wr R.DBG_HALT_DEFERRED 0 else s
  let s := if s.haltCauses = 0 then s
           else (cores.filter fun k => bit v k && !bit old k).foldl State.deferHalt s
  s.showCores
/-- A write to `DBG_HALT_REQUEST`: an expiry wins over it, and a session without the debug session or HALT_CORES is refused. -/
def State.haltWrite (s : State) (sess v : Nat) : State :=
  if s.debugExpired then s.debugClose.inc R.DBG_REFUSED
  else if s.debugger sess && s.debugMay 0 then s.haltRequest v else s.inc R.DBG_REFUSED
def execDbgHaltRequestWrite (sess v : Nat) (s : State) : Res State := .next (if s.isOpen sess then s.haltWrite sess v else s)
/-- The core's tasks have moved to a spare: the halt takes effect, or is deferred by what holds by then (R680). -/
def execCoreHaltEffective (k : Nat) (s : State) : Res State :=
  .next (if 1 ≤ k ∧ k ≤ 9 ∧ bit (s.rd R.DBG_HALT_REQUEST) k = true ∧ bit (s.rd R.DBG_HALT_DEFERRED) k = false
    then (if s.haltCauses = 0 then s.haltCore k else s.deferHalt k) else s)
/-- No deferral condition stands any more: the halts proceed. -/
def execHaltDeferralEnd (s : State) : Res State :=
  .next (if s.haltCauses = 0 then s.wr R.DBG_HALT_DEFERRED 0 else s)
/-- A core reaches an armed breakpoint: it halts, or its halt is deferred. -/
def State.breakHit (s : State) (k b : Nat) : State :=
  let s := ((s.inc R.DBG_BREAK_HITS).wrB (R.DBG_BREAK_ENABLE.bit (4 + b)) true).wrB (R.DBG_HALT_REQUEST.bit k) true
  if s.haltCauses = 0 then s.haltCore k else s.deferHalt k
def execBreakpointHit (k b : Nat) (s : State) : Res State :=
  .next (if 1 ≤ k ∧ k ≤ 9 ∧ b < 4 ∧ bit (s.rd R.DBG_BREAK_ENABLE) b = true ∧ s.on R.SEC_DEBUG_STATUS_STATE = true ∧ bit s.halted k = false
    then s.breakHit k b else s)
/-- The address of the next access to memory, 40 bits. -/
def State.memAddr (s : State) : Nat := s.rd R.DBG_MEM_ADDR_LO + 2 ^ 32 * (s.rd R.DBG_MEM_ADDR_HI % 256)
/-- An access to `DBG_MEM_DATA`: never a register; a word that the debug port has not written is what the firmware left
there, a free value. -/
def State.memAccess (s : State) (sess : Nat) (write : Bool) (v : Word) : Word × State :=
  let a := s.memAddr
  let may := s.debugger sess && decide (0x150000 ≤ a) && (if write then s.debugMay 2 && s.lifecycle != 2 else s.debugMay 1)
  if !may then (0#32, (s.inc R.DBG_REFUSED).wr (R.DBG_MEM_STATUS.part 0 2) 1)
  else
    let next := (a + 4) % 2 ^ 40
    let t := ((s.wr R.DBG_MEM_ADDR_LO next).wr R.DBG_MEM_ADDR_HI (next / 2 ^ 32)).wr (R.DBG_MEM_STATUS.part 0 2) 0
    if write then (v, t.modSec fun x => { x with mem := tput x.mem a v })
    else match tget t.sec.mem a with
      | some w => (w, t)
      | none => t.drawWord
def execDbgMemAccess (sess : Nat) (write : Bool) (v : Word) (s : State) : Res State :=
  .next (if s.isOpen sess then (s.memAccess sess write v).2 else s)

/-! ## Tamper (R683, R684) -/

/-- A monitor trips while the Turid is powered, and acts by its level. -/
def State.tamperActs (s : State) (m level : Nat) : State :=
  let s := s.wrB (R.SEC_TAMPER_STATUS.bit m) true
  let s := if 1 ≤ level then s.secEvent Ev.TAMPER (le 1 m) else s
  let s := if 2 ≤ level then s.debugClose else s
  if level < 3 then s
  else if s.motion || s.evac then s.modBoll fun b => { b with tamperWait := true }
  else s.faultReset 0x0107
def State.tamperTrip (s : State) (m : Nat) : State :=
  let level := s.rd (R.SEC_TAMPER_ENABLE.part (2 * m) 2)
  let s := (s.inc (R.SEC_TAMPER_COUNT m)).wakeSource 2
  match s.boll.phase with
  | .on => s.tamperActs m level
  | .berth => if level = 3 then s.recordTrip 0x1408 0 false (le 2 0x0107) else s
  | .power => if level = 3 then s.outrank 0x0107 else s
  | .off => s
def execTamperTrip (m : Nat) (s : State) : Res State := .next (if s.boll.phase != .off && m < 6 then s.tamperTrip m else s)
def execTamperResetRelease (s : State) : Res State :=
  .next (if s.powered && s.boll.tamperWait && !s.motion && !s.evac then s.faultReset 0x0107 else s)

end Sys2Proof.Machine
end

