-- ==== Sys2Proof/Machine/View.lean ====
section
/-!
DEFINITION. What an access reads: the registers that show figures of a unit or a selected entry (R715 to R717), and the
data windows (R170, R284, R285, R379, R626 to R628, R719).
-/
namespace Sys2Proof.Machine
open Sys2Proof

/-! ## Selections and packing -/

/-- A register of fields given by their lowest bits; a field's value is cut to its width. -/
def packed (l : List (Nat × Nat × Nat)) : Word := BitVec.ofNat 32 ((l.map fun p => p.2.2 % 2 ^ p.2.1 * 2 ^ p.1).foldl (· + ·) 0)
def natW (v : Nat) : Word := BitVec.ofNat 32 v
/-- The high or the low word of a 64-bit value. -/
def halfW (hi : Bool) (v : Nat) : Word := natW (if hi then v / 2 ^ 32 else v)
/-- The registers that each session and the firmware hold for themselves (R717). -/
def isSelect (a : Nat) : Bool :=
  [0x70040, 0x70050, 0x80040, 0x80054, 0xE0044, 0xF0058, 0xF0064, 0x12003C, 0x120070, 0x13002C].contains a ||
  (decide (0x50000 ≤ a) && decide (a < 0x60000) && a % 0x1000 == 0x68) ||
  (decide (0xD0000 ≤ a) && decide (a < 0xD8000) && a % 0x1000 == 0x38) ||
  (decide (0x10C000 ≤ a) && decide (a < 0x10D000) && a % 0x400 == 0x2C)

/-! ## HQ (R192, R193) -/

def State.cqOf (s : State) (q : Nat) : List QItem := tgetD s.hq.cq q []
/-- A mask of the numbers below n that meet a condition. -/
def maskOf (n : Nat) (p : Nat → Bool) : Nat := ((List.range n).map fun k => if p k then 2 ^ k else 0).foldl (· + ·) 0
def State.viewHq (s : State) (o : Nat) : Option Word :=
  let q := o % 0x100 / 0x20
  if o = 0 then some (packed [(0, 4, maskOf 4 fun q => s.cqOf q != []), (4, 4, maskOf 4 fun q => decide (1024 ≤ (s.cqOf q).length)),
    (8, 4, maskOf 4 fun q => decide (58983 ≤ (s.eventQ q).entries.length))])
  else if o = 0xC then some (natW s.hq.fences.length)
  else if o = 0x14 then some (packed [(0, 8, maskOf 8 s.isOpen), (8, 8, maskOf 8 fun n => s.isOpen n && s.engineer n),
    (16, 8, maskOf 8 fun n => (s.session n).any fun x => x.wait.isSome)])
  else if 0x40 ≤ o ∧ o < 0xC0 ∧ o % 0x20 = 0 then some (natW (s.cqOf (q - 2)).length)
  else if 0x100 ≤ o ∧ o < 0x180 ∧ o % 0x20 = 0 then some (natW (s.eventQ q).entries.length)
  else if 0x100 ≤ o ∧ o < 0x180 ∧ o % 0x20 = 4 then
    some ((s.eventQ q).owner.elim 0#32 fun n => packed [(31, 1, 1), (0, 3, n)])
  else none

/-! ## XNG (R245) -/

/-- The berths of a crossing that are declared or known. -/
def State.berths (s : State) (n : Nat) : List Nat :=
  ((s.ring n).nodes.foldl (fun (m : Tbl Unit) p => tput m p.1 ()) ((s.declared n).map fun p => (p.1, ()))).map (·.1)
/-- Nodes of a crossing in given states: strings in [8:0], containers in [20:16]. -/
def State.nodeCount (s : State) (n : Nat) (states : List Nat) : Word :=
  let l := ((s.berths n).map (s.node n)).filter fun x => states.contains x.state
  packed [(0, 9, (l.filter fun x => x.ntype == 0).length), (16, 5, (l.filter fun x => x.ntype == 1).length)]
/-- The generation of a hop, 0 when it is down. -/
def Ring.genOf (r : Ring) (k : Nat) : Nat := if r.breaks.contains k then 0 else tgetD r.hops k 0
def State.viewNode (s : State) (n b : Nat) : Word :=
  let x := s.node n b
  let r := s.ring n
  let before := (((s.berths n).filter fun k => decide (k < b)).getLast?).getD 0x1FE
  if x.state = 0 then 0#32
  else packed [(28, 4, x.state), (24, 4, x.reason), (20, 2, r.genOf before), (18, 2, r.genOf b), (17, 1, b2n x.byB), (16, 1, x.ntype), (0, 9, x.hop)]
def State.viewXng (s : State) (who : Option Nat) (a : Nat) : Option Word :=
  let n := a % 0x10000 / 0x1000
  let b := s.sel who (0x50068 + 0x1000 * n) % 512
  match a % 0x1000 with
  | 0x28 => some (s.nodeCount n [3])
  | 0x2C => some (s.nodeCount n [4])
  | 0x30 => some (s.nodeCount n [1, 5])
  | 0x34 => some (natW (s.ringTxns n))
  | 0x6C => some (s.viewNode n b)
  | 0x70 => some (let x := s.node n b; packed [(24, 8, min 255 x.timeouts), (16, 8, min 255 x.missed), (0, 6, s.nodeTxns n b)])
  | 0x7C => some (natW (131072 - s.xng.txns.length))
  | _ => none

/-! ## Estimation (R284 to R289) -/

def State.cellReady (s : State) (i : Nat) (c : Cell) : Bool := (s.strType i).any fun t => c.ready t
def State.viewEst (s : State) (o : Nat) : Option Word :=
  let l := s.strings.map fun i => (i, s.estStr i)
  match o with
  | 0x3C => some (natW ((l.map fun p => (p.2.cells.filter fun c => bit c.flags 11).length).foldl (· + ·) 0))
  | 0x40 => some (natW (256 * s.strings.length))
  | 0x44 => some (natW ((l.map fun p => (p.2.cells.filter (s.cellReady p.1)).length).foldl (· + ·) 0))
  | 0x7C => some (natW s.est.intake.length)
  | _ => none

/-! ## Protection and dispatch (R320, R362) -/

def State.viewStr (s : State) (i : Nat) : Word :=
  if (s.cfg 5 3 i).isNone then 0#32
  else
    let x := s.pstr i
    let nd := s.strNode i
    let open' := x.state != 3
    packed [(28, 4, x.state), (24, 4, x.cause), (23, 1, b2n (s.intent i)), (22, 1, b2n (open' || x.chgBlock || x.coldBlock)),
      (21, 1, b2n (open' || x.disBlock)), (20, 1, b2n (x.waitVolt && s.closeReady i)), (19, 1, b2n (nd.state == 4)),
      (18, 1, b2n ((s.estStr i).cells.any fun c => bit c.flags 11)), (17, 1, b2n (bit nd.status 2)), (16, 1, b2n x.balancing),
      (8, 8, min 255 x.marked.length), (0, 8, min 255 (x.blocks.filter fun t => decide (s.tick < t + 360000000)).length)]
def State.viewCon (s : State) (c : Nat) : Word :=
  if (s.cfg 5 2 c).isNone then 0#32
  else
    let x := s.pcon c
    let (chg, dis) := s.conAllowed c
    packed [(28, 4, x.state), (24, 4, x.cause), (23, 1, b2n (s.intentCon c)), (22, 1, b2n !chg), (21, 1, b2n !dis), (20, 1, b2n (bit x.word 3)),
      (19, 1, b2n (bit x.word 6)), (18, 1, b2n (bit x.word 7)), (16, 2, x.mode),
      (0, 16, maskOf 16 fun k => (s.cfg 5 3 (16 * c + k)).isSome && (s.pstr (16 * c + k)).state == 3)]
/-- The DC-link return of R352 runs: a converter switches in evacuation operation. -/
def State.regen (s : State) : Bool := s.evac && s.rd R.PWM_STATUS_SWITCHING != 0
def State.viewPlt (s : State) (who : Option Nat) (o : Nat) : Option Word :=
  let i := s.sel who 0x70040 % 4096
  let c := s.sel who 0x70050 % 256
  let count (st : Nat) : Nat := (s.strings.filter fun i => (s.pstr i).state == st).length
  let conOf (f : PCon → Rat) : Word := if (s.cfg 5 2 c).isSome then toB32 (f (s.pcon c)) else 0#32
  let cons (p : Nat → Bool) : Nat := (s.containers.filter p).length
  match o with
  | 0x0C => some (natW (count 3))
  | 0x10 => some (natW (count 1))
  | 0x14 => some (natW (count 5))
  | 0x18 => some (natW (count 6))
  | 0x1C => some (natW (s.strings.filter fun i => (s.pstr i).marked != []).length)
  | 0x20 => some (natW ((s.strings.map fun i => (s.pstr i).marked.length).foldl (· + ·) 0))
  | 0x24 => some (natW (cons fun c => (s.pcon c).state == 3))
  | 0x28 => some (packed [(0, 9, cons fun c => !(s.conAllowed c).1), (16, 9, cons fun c => !(s.conAllowed c).2)])
  | 0x44 => some (s.viewStr i)
  | 0x48 => some (if (s.cfg 5 3 i).isSome then natW (s.pstr i).tripCell else 0#32)
  | 0x4C => some (if (s.cfg 5 3 i).isSome then toB32 (s.pstr i).tripValue else 0#32)
  | 0x54 => some (s.viewCon c)
  | 0x58 => some (conOf (·.setpoint))
  | 0x5C => some (conOf (·.tHot))
  | 0x60 => some (conOf (·.tCold))
  | 0x64 => some (conOf (·.busV))
  | 0x68 => some (conOf (·.busI))
  | 0x78 => some (natW (cons fun c => bit (s.pcon c).word 3))
  | 0x7C => some (natW (cons fun c => bit (s.pcon c).word 6))
  | _ => none

/-! ## Loop engine and PWM (R405 to R408) -/

def State.slotsIn (s : State) (glide : Bool) : Nat := ((s.cfgAll 3 1).filter fun r => (r.window glide).isSome).length
/-- A writer slot of the group is parked. -/
def State.groupBad (s : State) (g : Nat) : Bool :=
  (s.cfgAll 2 1).any fun r => r.writerKind == 0 && r.sigGroup == g && s.slotParked r.writer
def State.viewLoop (s : State) (who : Option Nat) (o : Nat) : Option Word :=
  let k := s.sel who 0x80054 % 512
  let g := o % 0x100 / 0x10
  if o = 0xC then some (natW s.schedEnd)
  else if o = 0x18 then some ((s.word 0x80018 &&& 0xFC00FFFF#32) ||| packed [(16, 10, (s.cfg 3 2 0).elim 0 (·.u16 0x12))])
  else if o = 0x58 then some (match s.slotRec k with
    | none => 0#32
    | some r => packed [(28, 4, if (s.slot k).state = 1 ∧ (r.window s.loopGlide).isNone = true then 2 else (s.slot k).state), (0, 16, min 65535 (s.slot k).nonfin)])
  else if o = 0x5C then some (natW (s.slot k).runs)
  else if o = 0x60 then some (natW (s.slot k).bad)
  else if o = 0x6C then some (if s.on R.MAN_STATUS_LOADED then natW (maskOf 16 fun g => (s.cfg 2 2 g).any fun r => s.groupParked r || s.groupBad g) else 0xFFFF#32)
  else if o = 0x78 then some (packed [(16, 10, s.slotsIn true), (0, 10, s.slotsIn false)])
  else if 0x100 ≤ o ∧ o < 0x200 ∧ o % 0x10 = 0 then
    some ((s.cfg 2 2 g).elim 0#32 fun r => packed [(16, 16, r.u16 0x12), (0, 16, r.u16 0x10)])
  else if 0x100 ≤ o ∧ o < 0x200 ∧ o % 0x10 = 4 then
    some ((s.cfg 2 2 g).elim 0xFF0000#32 fun r =>
      packed [(16, 8, r.u8 0x14), (2, 1, b2n r.safetyReport), (1, 1, b2n (s.groupBad g)), (0, 1, b2n (s.groupParked r))])
  else none
def State.viewPwm (s : State) (o : Nat) : Option Word :=
  if 0x20 ≤ o ∧ o < 0x30 ∧ o % 4 = 0 then
    some ((s.pairs.find? fun r => r.u8 0x10 == (o - 0x20) / 4).elim 0#32 fun r => packed [(31, 1, b2n r.centre), (0, 22, r.period)])
  else if 0x40 ≤ o ∧ o < 0x100 ∧ o % 0x10 = 0 then
    some ((s.cfg 11 5 ((o - 0x40) / 0x10)).elim 0#32 fun r =>
      packed [(30, 2, r.u8 0x10), (29, 1, b2n (bit (r.u16 0x12) 0)), (28, 1, b2n (bit (r.u16 0x12) 1)), (27, 1, b2n (bit (r.u16 0x12) 2)), (13, 4, r.pwmMask),
        (0, 13, r.pwmDead)])
  else none

/-! ## Position, safety, field I/O, serial lines (R461, R547, R584, R620) -/

def State.viewPos (s : State) (who : Option Nat) (a : Nat) : Option Word :=
  let c := (a - 0xD0000) / 0x1000
  let v := s.sel who (0xD0038 + 0x1000 * c)
  let rec' := (tget s.pos c).bind fun (x : PosCh) => tget x.latches (v % 8 + 8 * (v / 8 % 2))
  let pos := rec'.elim 0 fun p => (BitVec.ofInt 64 p.1).toNat
  match a % 0x1000 with
  | 0x3C => some (halfW false pos)
  | 0x40 => some (halfW true pos)
  | 0x44 => some (halfW false (rec'.elim 0 (·.2)))
  | 0x48 => some (halfW true (rec'.elim 0 (·.2)))
  | _ => none
/-- A SAF register as the mirror of R715 shows it: what SYSTEM itself keeps for Helm (enables, status bits, values written
to it) reads as it stands. -/
def State.viewSaf (s : State) (who : Option Nat) (a : Nat) : Option Word :=
  if a = 0xE0048 then
    let f := s.sel who 0xE0044 % 64
    some (match s.cfg 9 1 f with
      | none => 0#32
      | some r =>
        let x := tgetD s.saf.mirrorFns f ⟨1, 0, none⟩
        packed [(28, 4, x.state), (24, 4, r.u8 0x10), (16, 8, r.u8 0x11), (0, 16, min 65535 x.demands)])
  else if (descOf a).rw = 0 ∧ (descOf a).w1c = 0 then some ((tget s.saf.mirror a).getD (resetWord a)) else none
/-- SYSTEM refreshes its mirror from both technologies (R715); mismatches older than the 10-minute window no longer count (R543). -/
def State.safMirror (s : State) : State :=
  let s := if s.on R.SAF_STATUS_CONFIRM_LOCKOUT then s else s.wr R.SAF_CONFIRM_STATUS_FAILS (min 3 (s.saf.wrong.filter fun t => decide (s.tick < t + 60000000)).length)
  s.modSaf fun x => { x with mirror := s.regs.filter fun p => decide (0xE0000 ≤ p.1) && decide (p.1 < 0xF0000), mirrorFns := x.fns }
def State.viewFio (s : State) (who : Option Nat) (o : Nat) : Option Word :=
  let n := s.sel who 0xF0058 % 32
  let i := s.sel who 0xF0064 % 64
  match o with
  | 0x5C =>
    let x := s.fioOut n
    some (packed [(28, 4, x.cause), (26, 2, (s.foutRec n).elim 0 (·.u8 0x10)),
      (24, 2, min 3 (x.retries.filter fun t => decide (s.tick < t + 6000000)).length), (0, 12, x.current)])
  | 0x60 => some (natW (min 65535 (s.fioOut n).demag))
  | 0x68 => some (packed [(30, 2, s.rd (R.FIO_IN_GROUP_TYPE (i / 8))), (16, 8, min 255 (cfgD (s.finRec i) (·.u16 0x12) 30)), (0, 10, (s.fioIn i).current)])
  | 0x6C => some (natW (s.fioIn i).edges)
  | 0x7C => some (natW (s.rd R.FIO_FIELD_STATUS / 2 * 2 + b2n (s.on R.FIO_STATUS_RUNNING)))
  | _ => none
def State.viewSer (s : State) (who : Option Nat) (a : Nat) : Option Word :=
  let l := (a - 0x10C000) / 0x400
  let n := s.sel who (0x10C02C + 0x400 * l) % 128
  match a % 0x400 with
  | 0x14 => some (natW (s.lineNodes l).length)
  | 0x30 => some (match (s.lineNodes l).find? fun p => p.1 == n with
    | none => 0#32
    | some p =>
      let x := s.nodeOf l n
      packed [(28, 4, if (s.fixt p.2).lost then 3 else if x.missed = 0 then 1 else 2), (16, 8, min 255 x.missed), (0, 16, min 65535 x.replies)])
  | _ => none

/-! ## Acquisition (R626 to R628, R641) -/

def windowAcq : Nat := 0x100000000
/-- Bytes of a stored sample, of a frame and of a segment (R623, R626). -/
def CfgRec.acqSample (r : CfgRec) : Nat := if r.acqClass = 0 then 2 else 4
def CfgRec.acqFrameLen (r : CfgRec) : Nat := (r.u8 0x11 * r.acqSample + 7) / 8 * 8
def CfgRec.acqSegLen (r : CfgRec) : Nat := (64 + r.acqN * r.acqFrameLen + 4095) / 4096 * 4096
def CfgRec.acqLen (r : CfgRec) : Nat := r.u8 0x12 * r.acqSegLen
/-- The buffers in buffer order, each with the offset at which it begins. -/
def State.acqLayout (s : State) : List (Nat × CfgRec) :=
  ((s.acqDefs.mergeSort fun a b => decide (a.id ≤ b.id)).foldl (fun (p : Nat × List (Nat × CfgRec)) r => (p.1 + r.acqLen, p.2 ++ [(p.1, r)])) (0, [])).2
def State.acqPartition (s : State) : Nat := (s.acqDefs.map CfgRec.acqLen).foldl (· + ·) 0
/-- The record that a segment holds: kept, or being written. -/
def State.acqSeg (s : State) (b k : Nat) : Option AcqRec :=
  let x := s.buf b
  (tget x.segs k).or (if x.seg = k ∧ (x.state = 2 ∨ x.state = 3 ∨ x.state = 4) then some x.cur else none)
/-- The tick of a record's trigger, from its stamp (R448). -/
def AcqRec.tick (x : AcqRec) : Nat := x.stamp / 30000
def State.viewAcqMeas (s : State) (b k ch code : Nat) : Word :=
  (((s.acqSeg b k).bind (·.meas)).getD []).getD ch [] |>.getD code 0x7FC00000#32
def State.viewAcq (s : State) (who : Option Nat) (o : Nat) : Option Word :=
  let sel := s.sel who 0x12003C
  let b := sel % 64
  let k := sel / 256 % 256
  let grp := sel / 65536 % 4
  let m := s.sel who 0x120070
  let d := s.acqDef b
  let seg := s.acqSeg b k
  let num (f : AcqRec → Nat) : Nat := seg.elim 0 f
  let addr := (s.acqLayout.find? fun p => p.2.id == b).elim 0 fun p => if k < p.2.u8 0x12 then windowAcq + p.1 + k * p.2.acqSegLen else 0
  if o = 0 then some (packed [(0, 1, b2n (s.on R.ACQ_STATUS_RUNNING)), (1, 1, b2n (s.powered && s.live 11))])
  else if o = 8 then some (natW ((s.acqPartition + 1048575) / 1048576))
  else if o = 0xC then some (natW s.acqDefs.length)
  else if o = 0x40 then some (match d with
    | none => 0#32
    | some _ =>
      let x := s.buf b
      packed [(28, 4, x.state), (24, 4, num (·.status)), (16, 8, (x.segs.filter fun p => p.2.owned).length), (8, 8, x.seg), (0, 8, num (·.conds))])
  else if o = 0x44 then some (match d with
    | none => 0xF#32
    | some r => packed [(30, 2, r.acqClass), (23, 7, r.u8 0x11), (15, 8, r.u8 0x12), (8, 7, r.u8 0x1C), (4, 4, r.u8 0x13), (0, 4, if r.u8 0x1D < 8 then r.u8 0x1D else 0xF)])
  else if o = 0x48 then some (d.elim 0#32 fun r => natW (s.acqPeriodShown r))
  else if o = 0x4C then some (d.elim 0#32 fun r => natW r.acqN)
  else if o = 0x50 ∨ o = 0x54 then some (halfW (o == 0x54) addr)
  else if o = 0x58 then some (d.elim 0#32 fun r => natW (num fun x => min r.acqN x.total))
  else if o = 0x5C ∨ o = 0x60 then some (halfW (o == 0x60) (num (·.pos)))
  else if o = 0x64 ∨ o = 0x68 then some (halfW (o == 0x68) (num (·.tick)))
  else if o = 0x6C then some (natW (num (·.seq)))
  else if o = 0x74 then some (s.viewAcqMeas b k (m % 64) (m / 256 % 16))
  else if 0x100 ≤ o ∧ o < 0x200 ∧ o % 0x10 = 0 then some (s.viewAcqMeas b k (16 * grp + (o - 0x100) / 0x10) 0)
  else if 0x100 ≤ o ∧ o < 0x200 ∧ o % 0x10 = 4 then some (s.viewAcqMeas b k (16 * grp + (o - 0x100) / 0x10) 2)
  else if 0x100 ≤ o ∧ o < 0x200 ∧ o % 0x10 = 8 then some (s.viewAcqMeas b k (16 * grp + (o - 0x100) / 0x10) 3)
  else none

/-! ## SYS, PWR, MAN, SEC, REC -/

/-- Seconds of the 60 s hold that are complete (R95, R722). -/
def State.holdS (s : State) : Nat :=
  if s.on R.SYS_START_STATUS_SUCCEEDED then 60 else s.pwr.heldAt.elim 0 fun t => min 60 ((s.tick - t) / 100000)
/-- In Glide the domains show at once what holds them live (R134, R178): `PWR_DOMAIN_LIVE`, the status of each, the engine PLLs. -/
def isDomReg (a : Nat) : Bool := a == R.PWR_DOMAIN_LIVE.addr || a == R.PWR_PLL_STATUS.addr || (List.range 16).any fun d => a == (R.PWR_DOMAIN_STATUS_LIVE d).addr
def putBit (w : Word) (n : Nat) (v : Bool) : Word := if v then w ||| natW (2 ^ n) else w &&& ~~~(natW (2 ^ n))
def State.viewDomains (s : State) (a : Nat) : Word :=
  if a = R.PWR_DOMAIN_LIVE.addr then engineDomains.foldl (fun w d => putBit w d (s.domLive d)) (s.word a)
  else if a = R.PWR_PLL_STATUS.addr then putBit (s.word a) 2 (engineDomains.any s.domLive)
  else match engineDomains.find? fun d => a == (R.PWR_DOMAIN_STATUS_LIVE d).addr with
    | some d => putBit (s.word a) (R.PWR_DOMAIN_STATUS_LIVE d).lo (s.domLive d)
    | none => s.word a
/-- The bytes that the encrypted store holds: keys, and the fields and serials of R669. -/
def State.storeHeld (s : State) : Nat := ((s.nv.keys.filter fun p => decide (2 ≤ p.1) && decide (p.1 < 7)).map fun p => p.2.length).foldl (· + ·) 0 +
  8 * b2n s.nv.plantId.isSome + 8 * s.nv.revoked.length
def State.viewLow (s : State) (who : Option Nat) (a : Nat) : Option Word :=
  let e := s.nv.ledger[s.sel who 0x13002C % 256]?
  if a = 0x10 then some ((s.word a &&& 0xFF00FFFF#32) ||| natW (s.holdS * 65536))
  else if a = 0x10000 then some (if s.rd R.PWR_STATE_STATE = 2 ∧ s.glideBits ≠ 0 then (s.word a &&& 0xFFFFFFF8#32) ||| 4#32 else s.word a)
  else if a = 0x10008 then some (natW s.glideStatus)
  else if s.loopGlide = true ∧ isDomReg a = true then some (s.viewDomains a)
  else if a = 0x20000 then some ((s.word a &&& 0xFFFFFFF9#32) ||| packed [(1, 1, b2n s.keySwitch), (2, 1, b2n (s.on (R.SEC_RNG_STATUS.bit 0)))])
  else if a = R.SEC_STAGE_DATA.addr then some (tgetD s.sec.stage (s.rd R.SEC_STAGE_INDEX % 64) 0#32)
  else if a = R.SEC_STORE_FREE.addr then some (if s.booted then Config.storeFree s.storeHeld else 0#32)
  else if a = R.DBG_HALT_DEFERRED.addr then
    let l := s.rd R.DBG_HALT_DEFERRED % 1024
    some (natW (if l = 0 then 0 else l + 65536 * s.haltCauses))
  else if 0x140040 ≤ a ∧ a < 0x140068 then some ((s.word a &&& 0xF0000000#32) ||| (Config.taskGroup ((a - 0x140040) / 4) s.halted).setWidth 32)
  else if a = 0x30010 ∨ a = 0x30014 then some (if s.on R.MAN_STATUS_LOADED then halfW (a == 0x30014) (s.nv.plantId.getD 0) else 0#32)
  else if a = 0x30070 then some (natW ((s.cfg 3 2 0).elim 0 (·.u16 0x14)))
  else if a = 0x30074 then some (natW ((s.cfg 3 2 1).elim 0 (·.u16 0x14)))
  else if a = 0x130030 then some (natW (e.elim 0 (·.lastSeq)))
  else if a = 0x130034 then some (natW (e.elim 0 (·.opSec)))
  else if a = 0x130038 ∨ a = 0x13003C then some (halfW (a == 0x13003C) (e.elim 0 (·.serial)))
  else if a = R.PLT_EVAC_STATUS_REGEN.addr then some ((s.word a &&& ~~~R.PLT_EVAC_STATUS_REGEN.mask) ||| (if s.regen then R.PLT_EVAC_STATUS_REGEN.mask else 0#32))
  else none

/-! ## Registers -/

/-- The word that a register shows to a session or the firmware. Write-only bits read 0 (R7). -/
def State.viewReg (s : State) (who : Option Nat) (a : Nat) : Word :=
  let low := s.viewLow who a
  let v : Option Word :=
    if isSelect a then some (natW (s.sel who a))
    else if low.isSome then low
    else if a < 0x40000 then none
    else if a < 0x50000 then s.viewHq (a - 0x40000)
    else if a < 0x60000 then s.viewXng who a
    else if a < 0x70000 then s.viewEst (a - 0x60000)
    else if a < 0x80000 then s.viewPlt who (a - 0x70000)
    else if a < 0x90000 then s.viewLoop who (a - 0x80000)
    else if a < 0xA0000 then s.viewPwm (a - 0x90000)
    else if a < 0xD0000 then none
    else if a < 0xE0000 then s.viewPos who a
    else if a < 0xF0000 then s.viewSaf who a
    else if a < 0x100000 then s.viewFio who (a - 0xF0000)
    else if a < 0x10C000 then none
    else if a < 0x110000 then s.viewSer who a
    else if a < 0x120000 then none
    else if a < 0x130000 then s.viewAcq who (a - 0x120000)
    else none
  (v.getD (s.word a)) &&& ~~~(natW (descOf a).wo)

/-! ## Data windows (R170, R719) -/

/-- The window that an address lies in: its number, base and length. 0 cell state, 1 learned values, 2 signal store,
3 acquisition. -/
def State.windowOf (s : State) (a : Nat) : Option (Nat × Nat × Nat) :=
  [(0, 0x40000000, 0x4000000), (1, 0x48000000, 0x1000000), (2, 0x50000000, 0x40000), (3, windowAcq, s.acqPartition)].find?
    fun w => decide (w.2.1 ≤ a) && decide (a < w.2.1 + w.2.2)
/-- The entry size of a window (R169, R719). -/
def windowEntry (w : Nat) : Nat :=
  match w with
  | 0 => 64
  | 1 => 16
  | 2 => 4
  | _ => 8
def w16 (lo hi : Nat) : Word := natW (lo % 65536 + 65536 * (hi % 65536))
/-- The flags of a cell's entry (R285). -/
def State.cellFlags (s : State) (i : Nat) (x : EstStr) (c : Cell) : Nat :=
  c.flags &&& 0x9FC ||| (1 + 2 * b2n (s.cellReady i c) + 512 * b2n ((s.strNode i).state == 4) + 1024 * b2n (x.state == 4) + 4096 * (x.typ % 16))
/-- Word `k` of the cell-state entry of R284. -/
def State.cellWord (s : State) (i : Nat) (x : EstStr) (c : Cell) (k : Nat) : Word :=
  match k with
  | 0 => toB32 c.z
  | 1 => toB32 c.vp
  | 2 => toB32 c.h
  | 3 => toB32 c.pzz
  | 4 => toB32 c.pzp
  | 5 => toB32 c.pzh
  | 6 => toB32 c.ppp
  | 7 => toB32 c.pph
  | 8 => toB32 c.phh
  | 9 => toB32 c.c
  | 10 => w16 c.lastV c.lastT
  | 11 => w16 (toB16 c.ebar).toNat (s.cellFlags i x c)
  | 12 => toB32 c.za
  | 13 => toB32 c.rho
  | 14 => w16 (toB16 c.excess).toNat (toB16 c.chg).toNat
  | _ => w16 (toB16 c.dis).toNat (c.anchor % 4 * 16384 + min 4095 c.obs)
def learnedWord (l : Learned) (k : Nat) : Word :=
  match k with
  | 0 => toB32 l.q
  | 1 => toB32 l.sR
  | 2 => toB32 l.iSd
  | _ => w16 (toB16 l.u).toNat (toB16 l.m).toNat
/-- Byte `o` of a segment (R627, R628), none where the record does not hold it. -/
def segByte (r : CfgRec) (k : Nat) (x : AcqRec) (o : Nat) : Option Byte :=
  let old := x.total - x.frames.length
  if o < 64 then
    let h := le 4 0x52514341 ++ le 1 r.id ++ le 1 k ++ le 1 x.status ++ le 1 x.tclass ++ le 4 x.seq ++ le 1 x.conds ++ le 1 (r.u8 0x11) ++
      le 2 x.flags ++ le 8 x.tick ++ le 8 x.stamp ++ le 8 x.pos ++ le 4 (old % max 1 r.acqN) ++ le 4 (min r.acqN x.total) ++ le 4 x.period ++
      le 4 (x.change.getD 0xFFFFFFFF) ++ le 8 0
    h[o]?
  else
    let slot := (o - 64) / r.acqFrameLen
    let j := (slot + r.acqN - old % max 1 r.acqN) % max 1 r.acqN
    match x.frames[j]? with
    | none => none
    | some f =>
      let b := (f.flatMap fun w => le r.acqSample w.toNat)
      if slot < r.acqN then some (b.getD ((o - 64) % r.acqFrameLen) 0#8) else none
/-- A word of the acquisition window. Memory that no record holds is an open value. -/
def State.acqWord (s : State) (off : Nat) : Word × State :=
  match s.acqLayout.find? fun p => decide (p.1 ≤ off) && decide (off < p.1 + p.2.acqLen) with
  | none => s.drawWord
  | some (base, r) =>
    let k := (off - base) / r.acqSegLen
    let o := (off - base) % r.acqSegLen
    match s.acqSeg r.id k with
    | none => s.drawWord
    | some x =>
      let bs := (List.range 4).map fun j => segByte r k x (o + j)
      if bs.all (·.isSome) then (natW (ofLe (bs.map fun b => b.getD 0#8)), s) else s.drawWord
/-- The word at an address of a window. -/
def State.windowWord (s : State) (w a : Nat) : Word × State :=
  let cell (i : Nat) (f : EstStr → Word) : Word := if (s.cfg 5 3 i).isSome then f (s.estStr i) else 0#32
  match w with
  | 0 =>
    let o := a - 0x40000000
    (cell (o / 16384) fun x => s.cellWord (o / 16384) x (x.cells.getD (o / 64 % 256) Cell.zero) (o % 64 / 4), s)
  | 1 =>
    let o := a - 0x48000000
    (cell (o / 4096) fun x => (x.learned[o / 16 % 256]?).elim 0#32 fun l => learnedWord l (o % 16 / 4), s)
  | 2 => (tgetD s.loop.copy ((a - 0x50000000) / 4) 0#32, s)
  | _ => s.acqWord (a - windowAcq)
/-- The tick field of a part of a BULK_READ (R170, R379). -/
def State.windowTick (s : State) (w a : Nat) : Nat :=
  match w with
  | 2 => s.rd64 R.LOOP_WINDOW_TICK_LO
  | 3 =>
    let off := a - windowAcq
    match s.acqLayout.find? fun p => decide (p.1 ≤ off) && decide (off < p.1 + p.2.acqLen) with
    | none => 0
    | some (base, r) => ((s.acqSeg r.id ((off - base) / r.acqSegLen)).filter fun (x : AcqRec) => x.status == 1).elim 0 (·.tick)
  | _ => 0

end Sys2Proof.Machine
end

