-- ==== Sys2Proof/Machine/Access.lean ====
section
/-!
DEFINITION. One access to a register by a Helm session or the firmware (R7, R132, R164 to R167, R715, R717): what a read
does beside showing the word, what a write stores or starts, and their rows.
-/
namespace Sys2Proof.Machine
open Sys2Proof

/-! ## Domains and addresses (R713 to R715) -/

/-- The domain that serves a register. -/
def regDomain (a : Nat) : Nat :=
  if a < 0x50000 then 1
  else if a < 0x60000 then 7
  else if a < 0x80000 then 1
  else if a < 0x90000 then 3
  else if a < 0xA0000 then 12
  else if a < 0xD0000 then 1
  else if a < 0xE0000 then 8
  else if a < 0xF0000 then 1
  else if a < 0x100000 then 13
  else if a < 0x110000 then 9
  else if a < 0x120000 then 10
  else if a < 0x130000 then 11
  else 1
/-- The address lies in a register block. -/
def inBlocks (a : Nat) : Bool := decide (a < 0x150000)
/-- What firmware recovery lets a READ reach (R726): SYS and the PWR registers of the Bollard domain. -/
def recoveryReg (a : Nat) : Bool :=
  decide (a < 0x10000) || [0x20, 0x24, 0x28, 0x2C, 0x30, 0x54, 0x58, 0x5C, 0x60, 0x64, 0x88, 0xA8].any fun o => a == 0x10000 + o
/-- The instance of a repeated register that the address names: base, stride, count. -/
def instAt (a base stride n : Nat) : Option Nat :=
  if base ≤ a ∧ (a - base) % stride = 0 ∧ (a - base) / stride < n then some ((a - base) / stride) else none

/-! ## 64-bit pairs (R165, R166) -/

/-- The low words of the 64-bit pairs. -/
def pairTable : List (Nat × Nat × Nat) :=
  [(0x30010, 4, 1), (0x30028, 4, 1), (0x30034, 4, 1), (0x3003C, 4, 1), (0x10038, 4, 1), (0x10044, 4, 1), (0x5004C, 0x1000, 16),
   (0x60018, 4, 1), (0x6004C, 4, 1), (0x700DC, 4, 1), (0x80064, 4, 1), (0xB0030, 0x1000, 8), (0xD0008, 0x1000, 8),
   (0xD0010, 0x1000, 8), (0xD0018, 0x1000, 8), (0xD0020, 0x1000, 8), (0xD0028, 0x1000, 8), (0xD0030, 0x1000, 8)] ++
  [(0xD003C, 0x1000, 8), (0xD0044, 0x1000, 8), (0xF0008, 4, 1), (0xF0010, 4, 1), (0xF0018, 4, 1), (0xF0020, 4, 1),
   (0x100074, 0x1000, 12), (0x110014, 4, 1), (0x110058, 0x20, 4), (0x120010, 4, 1), (0x120018, 4, 1), (0x120050, 4, 1),
   (0x12005C, 4, 1), (0x120064, 4, 1), (0x130038, 4, 1), (0x20010, 4, 1), (0x140010, 4, 1), (0x140080, 8, 4)]
def isLow (a : Nat) : Bool := pairTable.any fun p => (instAt a p.1 p.2.1 p.2.2).isSome
def isHigh (a : Nat) : Bool := decide (4 ≤ a) && isLow (a - 4)
/-- The pairs that a session can write. -/
def writableLow (a : Nat) : Bool := a == 0x140010 || (instAt a 0x140080 8 4).isSome

/-! ## Reads -/

def State.modSession (s : State) (n : Nat) (f : Session → Session) : State :=
  match s.session n with
  | none => s
  | some x => s.setSession n (f x)
/-- What a read of a low word, or of `PWR_OP_MS`, puts into the reading session's shadow (R132, R165). -/
def State.shadowLow (s : State) (n a : Nat) : State :=
  let hi := s.viewReg (some n) (a + 4)
  s.modSession n fun x => { x with shadow := tput x.shadow a hi }
def State.shadowOp (s : State) (n : Nat) : State :=
  let w := natW s.opSec
  s.modSession n fun x => { x with opShadow := some w }
/-- An access of a session to a pair ends the shadow of it that an earlier read of the low word left. -/
def State.dropShadow (s : State) (n a : Nat) : State :=
  let lo := if isHigh a then a - 4 else a
  s.modSession n fun x => { x with shadow := tdel x.shadow lo }
/-- A read of a read-clears field clears it (R7). -/
def State.readClears (s : State) (a : Nat) : State :=
  let d := descOf a
  if d.rc = 0 then s else s.setWord a (s.word a &&& ~~~(natW d.rc))
/-- The word that a session's read returns: the shadow where one stands, else the register. -/
def State.readWord (s : State) (n a : Nat) : Word :=
  let x := s.session n
  if a = R.PWR_OP_SECONDS.addr then (x.bind (·.opShadow)).getD (s.viewReg (some n) a)
  else if isHigh a then (x.bind fun (x : Session) => tget x.shadow (a - 4)).getD (s.viewReg (some n) a)
  else s.viewReg (some n) a
/-- `PLT_EVAC_STATUS` while a fire alarm stands: the seconds left are an open value up to the hold time, since no row tells when
the inputs became inactive (R350). -/
def State.alarmWord (s : State) (n : Nat) : Word × State :=
  let (w, t) := s.drawWord
  let left := w.toNat % (cfgD (s.cfg 8 4 0) (fun (r : CfgRec) => r.u16 0x3C) 300 + 1)
  ((s.readWord n R.PLT_EVAC_STATUS_FIRE_ALARM.addr &&& 0xFFFF#32) ||| natW (left * 65536), t)
/-- The read of a register by a session, with its side effects. -/
def State.readReg (s : State) (n a : Nat) : Word × State :=
  if a = R.SEC_STAGE_DATA.addr then s.stageData false 0#32
  else if a = R.DBG_MEM_DATA.addr then s.memAccess n false 0#32
  else if a = R.PLT_REGEN_POWER.addr ∧ s.regen = true then s.drawWord
  else if a = R.PLT_EVAC_STATUS_FIRE_ALARM.addr ∧ s.on R.PLT_EVAC_STATUS_FIRE_ALARM = true then s.alarmWord n
  else
    let w := s.readWord n a
    let s : State := if a = R.PWR_OP_MS.addr then s.shadowOp n
      else if a = R.PWR_OP_SECONDS.addr then s.modSession n fun x => { x with opShadow := none }
      else if isLow a then s.shadowLow n a
      else if isHigh a then s.dropShadow n a
      else s
    (w, s.readClears a)
/-- Rows of reads: of a read-clears register, of a low word, of `PWR_OP_MS`. -/
def execRcRegisterRead (who addr : Nat) (s : State) : Res State :=
  .next (if 8 ≤ who || s.isOpen who then s.readClears addr else s)
def execCounterLowWordRead (sess addr : Nat) (s : State) : Res State :=
  .next (if s.isOpen sess && isLow addr then s.shadowLow sess addr else s)
def execOpMsRead (sess : Nat) (s : State) : Res State := .next (if s.isOpen sess then s.shadowOp sess else s)

/-! ## Plain writes (R7, R717) -/

/-- The word stored in a register of which each bit does what its access code says. -/
def State.storeReg (s : State) (a : Nat) (v : Word) : State :=
  let d := descOf a
  let rw := d.rw ||| (if s.sealed then 0 else d.rwl)
  s.setWord a (((s.word a &&& ~~~(natW rw)) ||| (v &&& natW rw)) &&& ~~~(v &&& natW d.w1c))
/-- A selection made by a session or the firmware. -/
def State.setSel (s : State) (who : Option Nat) (a : Nat) (v : Word) : State :=
  let w := v &&& natW (descOf a).rw
  match who with
  | none => s.modHq fun h => { h with fwSel := tput h.fwSel a w }
  | some n => s.modSession n fun x => { x with sel := tput x.sel a w }
/-- A write without a row of its own. One in the plant's block may change set-points or limits, which the next cycle sends. -/
def State.plainWrite (s : State) (who : Option Nat) (a : Nat) (v : Word) : State :=
  let s := if isSelect a then s.setSel who a v else if a = R.SAF_CONFIRM_VALUE.addr then s.setWord a v else s.storeReg a v
  if a = R.PWM_INHIBIT.addr then s.showPwm
  else if 0x70000 ≤ a ∧ a < 0x80000 then s.modDisp fun d => { d with unsent := true } else s
def execRegisterWrite (who addr : Nat) (value : Word) (s : State) : Res State :=
  .next (if 8 ≤ who then s.plainWrite none addr value
    else if s.isOpen who && s.holds who 2 then s.plainWrite (some who) addr value else s)

/-! ## Writes that need KEY (R164, R717) -/

/-- The effect of a row that always answers a next state. -/
def State.via (s : State) (f : State → Res State) : State :=
  match f s with
  | .next t => t
  | _ => s
/-- A control register whose command 1 is CLEAR_COUNTERS. -/
def State.clearCmd (s : State) (v : Nat) (f : State → Res State) : State := if v % 16 = 1 then s.via f else s
/-- A bit told by nothing that the write carries. -/
def State.drawBool (s : State) : Bool × State := let (w, t) := s.drawWord; (w.getLsbD 0, t)
/-- The commands of the control registers up to PLT. -/
def State.controlLow (s : State) (n a v : Nat) : Option State :=
  let key := v / 2 ^ 24
  let cmd := v % 16
  if a = R.MAN_CONTROL.addr then
    some (if cmd = 1 then s.via (execAbortStage n key) else if cmd = 2 then s.via (execAbortPatch n key) else s)
  else if a = R.PWR_CONTROL.addr then
    some (if cmd = 1 then s.via (execEnterBerth n key) else if cmd = 2 then s.via (execCancelBerth n key) else s)
  else if a = R.PWR_DOMAIN_RESET.addr then some (s.via (execPwrDomainReset n key cmd))
  else if a = R.SEC_CONTROL.addr then some (s.clearCmd v (execSecClearCounters n key))
  else if a = R.EST_CONTROL.addr then
    some (if cmd = 1 then s.via (execEstClearCounters n key) else if cmd = 2 then s.via (execAbortRestore n key) else s)
  else if a = R.PLT_PROT_CONTROL.addr then some (s.clearCmd v (execPltProtClearCounters n key))
  else if a = R.PLT_DISP_CONTROL.addr then
    some (if cmd = 1 then s.via (execPltDispClearCounters n key) else if cmd = 2 then s.via (execReturnToSource n key) else s)
  else (instAt a 0x50004 0x1000 16).map fun k =>
    if cmd = 1 then s.via (execRetrain n key k) else if cmd = 2 then s.via (execXngClearCounters n key k) else s
/-- Of LOOP to POS. -/
def State.controlMid (s : State) (n a v : Nat) : Option State :=
  let key := v / 2 ^ 24
  let cmd := v % 16
  if a = R.LOOP_CONTROL.addr then some (s.clearCmd v (execLoopClearCounters n key))
  else if a = R.LOOP_SYNC_CONTROL.addr then
    some (if v % 4 = 1 then s.via (execSyncArm n key) else if v % 4 = 2 then s.via (execSyncDisarm n key) else s)
  else if a = R.PWM_CONTROL.addr then some (s.clearCmd v (execPwmClearCounters n key))
  else if a = R.GRP_CONTROL.addr then some (s.clearCmd v (execGrpClearCounters n key))
  else match instAt a 0xB0004 0x1000 8, instAt a 0xC0004 0x800 16, instAt a 0xD0004 0x1000 8 with
    | some c, _, _ => some (s.clearCmd v (execCarClearCounters n key c))
    | _, some d, _ =>
      some (if cmd = 1 then s.via (execDoorClearCounters n key d) else if cmd = 2 then s.via (execClearEnvelope n key d) else s)
    | _, _, some c =>
      some (if cmd = 1 then s.via (execPosClearCounters n key c)
        else if cmd = 2 then let (m, s) := s.drawBool; let (t, s) := s.drawBool; s.via (execClearFault n key c m t) else s)
    | _, _, _ => none
/-- Of SAF to DBG. -/
def State.controlHigh (s : State) (n a v : Nat) : Option State :=
  let key := v / 2 ^ 24
  let cmd := v % 16
  let arg := v / 256 % 256
  if a = R.SAF_CONTROL.addr then
    some (if cmd = 1 then s.via (execSafClearCounters n key) else if cmd = 2 then s.via (execResetFunction n key arg)
      else if cmd = 3 then let (x, s) := s.drawBool; let (y, s) := s.drawBool; s.via (execRepairAck n key arg x y) else s)
  else if a = R.SAF_CONFIRM_CONTROL.addr then some (if cmd = 1 then s.via (execSafetyConfirm n key) else s)
  else if a = R.FIO_CONTROL.addr then some (s.clearCmd v (execFioClearCounters n key))
  else if a = R.NET_CONTROL.addr then some (s.clearCmd v (execNetClearCounters n key))
  else if a = R.ACQ_CONTROL.addr then some (s.clearCmd v (execAcqClearCounters n key))
  else if a = R.REC_CONTROL.addr then some (s.clearCmd v (execClearTrace n key))
  else match instAt a 0x100004 0x1000 12, instAt a 0x10C004 0x400 4 with
    | some b, _ => some (match cmd with
      | 1 => s.via (execMbcClearCounters n key b)
      | 2 => s.via (execRestrict n key b)
      | 3 => s.via (execUnrestrict n key b)
      | 4 => s.via (execInhibitRecovery n key b)
      | 5 => s.via (execAllowRecovery n key b)
      | _ => s)
    | _, some l => some (s.clearCmd v (execSerClearCounters n key l))
    | _, _ => none
/-- `HQ_CONTROL` (R193). -/
def State.closeNamed (s : State) (n : Nat) : State :=
  if s.isOpen n then (s.closeSession n).flag R.HQ_EVENT_STATUS_SESSION_CLOSED else s
def execCloseSession (sess key target : Nat) (s : State) : Res State :=
  .next (if s.keyed sess key then s.closeNamed (target % 8) else s)
def execReleaseOwner (sess key q : Nat) (s : State) : Res State :=
  .next (if s.keyed sess key then s.releaseQueue (q % 4) else s)
def State.control (s : State) (n a v : Nat) : Option State :=
  let key := v / 2 ^ 24
  if a = R.SYS_START_CONTROL.addr then some s
  else if a = R.HQ_CONTROL.addr then
    some (if v % 16 = 1 then s.via (execCloseSession n key (v / 256 % 8))
      else if v % 16 = 2 then s.via (execReleaseOwner n key (v / 16 % 4)) else s)
  else ((s.controlLow n a v).or (s.controlMid n a v)).or (s.controlHigh n a v)
/-- `SYS_START_CONTROL` (R721, R722), taken up once the WRITE has been answered. -/
def State.startCmd (s : State) (n v : Nat) : State :=
  if v % 16 = 1 then s.via (execHostReset n (v / 2 ^ 24)) else if v % 16 = 2 then s.via (execAttemptStart n (v / 2 ^ 24)) else s

/-! ## Writes -/

/-- `PWR_DOMAIN_HOLD` (R140): the domains named stay live, or start; bits 0, 1, 5, 6, 14 and 15 hold nothing. -/
def State.holdDomains (s : State) (mask : Word) : State :=
  ((s.storeReg R.PWR_DOMAIN_HOLD.addr mask).showDomains).showPwm
/-- A write of a debug register needs the debug session, and of a breakpoint its permission (R680). -/
def State.debugWrite (s : State) (n a : Nat) (f : State → State) : State :=
  if s.debugger n && (decide (a < 0x140020) || s.debugMay 3) then f s else s.inc R.DBG_REFUSED
/-- A write of a word of a writable pair (R166): the high word is held until the low word commits both. -/
def State.holdHigh (s : State) (n a : Nat) (v : Word) : State := s.modSession n fun x => { x with heldHigh := tput x.heldHigh (a - 4) v }
def State.commitLow (s : State) (n a : Nat) (v : Word) : State :=
  let hi := (s.session n).bind fun (x : Session) => tget x.heldHigh a
  let s := (hi.elim s (s.storeReg (a + 4))).storeReg a v
  s.modSession n fun x => { x with heldHigh := tdel x.heldHigh a }
/-- R166: the row of a high word's write. -/
def execCounterHighWordWrite (sess addr : Nat) (value : Word) (s : State) : Res State :=
  .next (if s.isOpen sess && s.holds sess 2 && isHigh addr && writableLow (addr - 4)
    then (s.dropShadow sess addr).debugWrite sess addr fun s => s.holdHigh sess addr value else s)
/-- A write by a session to a register that a row of its own serves, or to any other. -/
def State.writeRow (s : State) (n a : Nat) (v : Word) : State :=
  if a = R.PWR_DOMAIN_HOLD.addr then s.holdDomains v
  else if a = R.PLT_SOURCE_SELECT.addr then s.via (execSourceSelectWrite n v.toNat)
  else if a = R.LOOP_SIG_WRITE.addr then s.via (execLoopSigWrite n v)
  else if a = R.PWM_FAULT_STATUS.addr then s.via (execPwmFaultLatchClear n v)
  else if a = R.FIO_OUT_SET.addr then s.via (execFioOutSetWrite n v.toNat)
  else if a = R.FIO_OUT_CLEAR.addr then s.via (execFioOutClearWrite n v.toNat)
  else if a = R.FIO_OUT_FAULT_LATCH.addr then s.via (execOutputLatchClear n v.toNat)
  else if a = R.SEC_STAGE_INDEX.addr then s.via (execStageIndexWrite n v.toNat)
  else if a = R.SEC_STAGE_DATA.addr then s.via (execStageDataAccess n true v)
  else if a = R.DBG_HALT_REQUEST.addr then s.via (execDbgHaltRequestWrite n v.toNat)
  else if a = R.DBG_MEM_DATA.addr then s.via (execDbgMemAccess n true v)
  else match instAt a 0x80 4 4, instAt a 0x100048 0x1000 12 with
    | some k, _ => s.via (execSiteTagWrite n k v)
    | _, some b => s.via (execMbcRxAckWrite n b v.toNat)
    | _, _ => if 0x140000 ≤ a then s.debugWrite n a fun s => s.plainWrite (some n) a v else s.plainWrite (some n) a v
/-- A write by a session, with its status: ROLE where the register needs KEY and the session is no engineer (R164). On one
word of a writable pair the write is held or commits (R166), unless it is the write half of READ_MODIFY_WRITE (R163). -/
def State.writeReg (s : State) (n a : Nat) (v : Word) (rmw : Bool) : Nat × State :=
  match s.control n a v.toNat with
  | some t => (if s.engineer n then OK else ROLE, t)
  | none =>
    let s := if isLow a || isHigh a then s.dropShadow n a else s
    if rmw then (OK, s.writeRow n a v)
    else if isHigh a && writableLow (a - 4) then (OK, s.debugWrite n a fun s => s.holdHigh n a v)
    else if writableLow a then (OK, s.debugWrite n a fun s => s.commitLow n a v)
    else (OK, s.writeRow n a v)

end Sys2Proof.Machine
end

