-- ==== Sys2Proof/Machine/Helm.lean ====
section
/-!
DEFINITION. The Helm host interface (R152 to R193, R278, R279, R673, R674, R727): connections, messages, command queues, fences and
event queues. One meaning per row.
-/
namespace Sys2Proof.Machine
open Sys2Proof

/-! ## Connections (R152 to R154, R673) -/

/-- A PORT record with Helm enabled on it. -/
def State.portHelm (s : State) (p : Nat) : Bool := (s.cfg 10 1 p).any fun r => r.u8 0x10 != 0 && bit (r.u8 0x11) 1
/-- Helm is served on a port: 0 to 3 are J2 to J5, 4 is J21 (R107, R152, R665, R674, R726). -/
def State.helmOn (s : State) (p : Nat) : Bool :=
  s.powered &&
    (if p = 4 then s.booted || s.recovery
     else if s.noCa || s.recovery || s.lifecycle == 3 then false
     else if s.mooring then p == 0 && s.man.cfg != []
     else decide (p < 4) && s.on R.MAN_STATUS_LOADED && decide (4 < s.stage) && s.portHelm p)
/-- The number that a new connection gets. -/
def State.freeNumber (s : State) (p : Nat) : Option Nat :=
  (if p = 4 then [7] else List.range 7).find? fun n => (s.session n).isNone
def State.connect (s : State) (n : Nat) : State :=
  (s.setSession n ⟨s.hq.nextUid, true, 1, 1, 0, [], [], [], [], [], none, none, [], [], 0, 0⟩).modHq fun h => { h with nextUid := h.nextUid + 1 }
def execHelmConnect (port : Nat) (s : State) : Res State :=
  .next (if s.helmOn port then match s.freeNumber port with
    | some n => s.connect n
    | none => s.inc R.NET_HELM_REFUSED
  else s)
/-- The validity period holds (R673): plant time; while it is UNKNOWN only the end counts, against the newest checkpoint. -/
def State.certValid (s : State) (notBefore notAfter : Nat) : Bool :=
  let t := s.rd64 R.PWR_PLANT_TIME_LO
  if s.timeKnown then decide (notBefore ≤ t) && decide (t ≤ notAfter)
  else (newestCkpt s.nv.ckpt s.plantIdent).all fun p => decide (p.2.time ≤ notAfter)
/-- A handshake fails: the connection closes. -/
def State.tlsFail (s : State) (n : Nat) : State :=
  (s.inc R.NET_TLS_FAILURES).modHq fun h => { h with sessions := tdel h.sessions n }
/-- The profile of R153. -/
def tlsProfile (o : TlsOffer) : Bool :=
  o.version == 0 && o.suite == 0 && decide (o.group < 2) && decide (o.scheme < 2) && !o.psk && !o.early
/-- The handshake completes: the certificate is checked, and the session opens as observer (R155), or with engineer and
commissioning while slot 5 is empty (R674). -/
def State.tlsDone (s : State) (n : Nat) (x : Session) (roles serial : Nat) (chain : List Nat) (good self : Bool) : State :=
  if !s.on (R.SEC_RNG_STATUS.bit 0) then s.tlsFail n
  else if s.noCa then
    if self then s.setSession n { x with handshaking := false, roles := 0x15, certRoles := 0x15, serial := serial, chain := chain }
    else ((s.tlsFail n).inc R.SEC_CERT_REJECTS).secEvent Ev.CERT_REJECTED (le 8 serial)
  else if good && !(serial :: chain).any s.nv.revoked.contains then
    s.setSession n { x with handshaking := false, roles := 1, certRoles := roles ||| 1, serial := serial, chain := chain }
  else ((s.tlsFail n).inc R.SEC_CERT_REJECTS).secEvent Ev.CERT_REJECTED (le 8 serial)
def execTlsHandshakeComplete (sess certRoles serial : Nat) (chain : List Nat) (chainOk keyOk selfOk : Bool)
    (notBefore notAfter : Nat) (offer : TlsOffer) (s : State) : Res State :=
  .next (match s.session sess with
    | none => s
    | some x => if x.handshaking then
        if !tlsProfile offer then s.tlsFail sess else
        s.tlsDone sess x (certRoles % 32) serial chain (chainOk && keyOk && decide (serial < 2 ^ 64) && decide (chain.length ≤ 2) && s.certValid notBefore notAfter) selfOk
      else s)
def execTlsHandshakeTimeout (sess : Nat) (s : State) : Res State :=
  .next (if (s.session sess).any fun x => x.handshaking then s.tlsFail sess else s)
def execSessionIdleTimeout (sess : Nat) (s : State) : Res State := .next (s.closeNamed sess)
def execHelmDisconnect (sess : Nat) (s : State) : Res State := .next (s.closeSession sess)

/-! ## Accesses that may wait (R139, R162, R168) -/

/-- How a run of accesses ends: with a status, or waiting on a domain with what is still to be done. -/
inductive Ran where
  | done (status : Nat) (got : List Word)
  | waits (dom : Nat) (acc : Access)
  deriving DecidableEq, Repr

/-- The words of a READ, one access after another. -/
def State.readGo (n : Nat) : Nat → Nat → List Word → State → Ran × State
  | 0, _, got, s => (.done OK got, s)
  | k + 1, a, got, s =>
    if !inBlocks a || (s.recovery && !recoveryReg a) then (.done BAD_ADDRESS got, s)
    else if !s.live (regDomain a) then (.waits (regDomain a) (.read a (k + 1) got), s)
    else let (w, t) := s.readReg n a; State.readGo n k (a + 4) (got ++ [w]) t
/-- The first status other than OK. -/
def firstStatus (old new : Nat) : Nat := if old = OK then new else old
/-- The accesses of a WRITE in ascending order: both words of a writable pair are one. -/
def pairUp : List Word → Nat → List (Nat × Word × Option Word)
  | [], _ => []
  | [v], a => [(a, v, none)]
  | v :: hi :: t, a => if writableLow a then (a, v, some hi) :: pairUp t (a + 8) else (a, v, none) :: pairUp (hi :: t) (a + 4)
/-- Both words of a pair in one instant (R166). -/
def State.writePair (s : State) (n a : Nat) (v hi : Word) : State :=
  ((s.dropShadow n a).modSession n fun x => { x with heldHigh := tdel x.heldHigh a }).debugWrite n a fun s =>
    (s.storeReg (a + 4) hi).storeReg a v
/-- The registers of a WRITE. `SYS_START_CONTROL` acts once the WRITE has been answered. -/
def State.writeGo (n : Nat) : List (Nat × Word × Option Word) → Nat → State → Ran × State
  | [], st, s => (.done st [], s)
  | (a, v, hi) :: t, st, s =>
    if !inBlocks a then (.done (firstStatus st BAD_ADDRESS) [], s)
    else if !s.live (regDomain a) then
      (.waits (regDomain a) (.write a (v :: (t.flatMap fun x => x.2.1 :: x.2.2.toList)) st), s)
    else if a = R.SYS_START_CONTROL.addr then State.writeGo n t (firstStatus st (if s.engineer n then OK else ROLE)) s
    else match hi with
      | some h => State.writeGo n t st (s.writePair n a v h)
      | none => let (r, s) := s.writeReg n a v false; State.writeGo n t (firstStatus st r) s
/-- READ_MODIFY_WRITE (R163): the old word, read without side effects, and the write. -/
def State.rmwGo (s : State) (n a : Nat) (mask value : Word) : Ran × State :=
  if !s.live (regDomain a) then (.waits (regDomain a) (.rmw a mask value), s)
  else
    let (old, s) : Word × State :=
      if a = R.DBG_MEM_DATA.addr then let (w, t) := s.memAccess n false 0#32; (w, { s with free := t.free })
      else if a = R.PLT_REGEN_POWER.addr ∧ s.regen = true then s.drawWord
      else (s.viewReg (some n) a, s)
    let (r, s) := s.writeReg n a ((old &&& ~~~mask) ||| (value &&& mask)) true
    (.done r [old], s)
/-- What an access has still to do is done, as far as its domains run. -/
def State.runAccess (s : State) (n : Nat) : Access → Ran × State
  | .read a left got => State.readGo n left a got s
  | .write a vals st => State.writeGo n (pairUp vals a) st s
  | .rmw a mask value => s.rmwGo n a mask value
/-- The message type of an access. -/
def Access.typ : Access → Nat
  | .read .. => 1
  | .write .. => 2
  | .rmw .. => 3
/-- The value that a WRITE brings to `SYS_START_CONTROL`. -/
def Access.start : Access → Option Nat
  | .write a vals _ => if a ≤ 0x14 then (vals[(0x14 - a) / 4]?).map (·.toNat) else none
  | .rmw a mask value => if a = 0x14 then some (mask &&& value).toNat else none
  | _ => none
/-- An access run: answered, or waiting on its domain, which is counted (R139). -/
def State.access (s : State) (n tag : Nat) (acc : Access) : State :=
  let start := acc.start
  match s.runAccess n acc with
  | (.done st got, t) =>
    let t := t.reply n tag acc.typ st (got.map (·.toNat))
    start.elim t (t.startCmd n)
  | (.waits d rest, t) =>
    ((t.modSession n fun x => { x with wait := some ⟨d, tag, rest, false⟩ }).inc R.PWR_HUNG_ACCESSES).showHung

/-! ## READ, WRITE, READ_MODIFY_WRITE, BULK_READ (R162 to R171) -/

def State.readWindow (s : State) (w a : Nat) : Nat → List Word × State
  | 0 => ([], s)
  | k + 1 =>
    let (v, t) := s.windowWord w a
    let (l, t) := State.readWindow t w (a + 4) k
    (v :: l, t)
def State.readMsg (s : State) (n tag addr count : Nat) : State :=
  s.helm n tag 1 1 (.read n tag addr count) fun s =>
    if 2 ^ 40 ≤ addr ∨ count = 0 ∨ 64 < count then s.reply n tag 1 BAD_MESSAGE []
    else if addr % 4 ≠ 0 then s.reply n tag 1 ALIGN []
    else match (if s.recovery then none else s.windowOf addr) with
      | some (w, base, len) =>
        if base + len < addr + 4 * count then s.reply n tag 1 BAD_ADDRESS []
        else let (l, s) := s.readWindow w addr count; s.reply n tag 1 OK (l.map (·.toNat))
      | none => s.access n tag (.read addr count [])
def State.writeMsg (s : State) (n tag addr : Nat) (values : List Word) : State :=
  s.helm n tag 2 2 (.write n tag addr values) fun s =>
    if 2 ^ 40 ≤ addr ∨ values = [] ∨ 64 < values.length then s.reply n tag 2 BAD_MESSAGE []
    else if addr % 4 ≠ 0 then s.reply n tag 2 ALIGN []
    else if (s.windowOf addr).isSome then s.reply n tag 2 READ_ONLY_WINDOW []
    else s.access n tag (.write addr values OK)
def State.rmwMsg (s : State) (n tag addr : Nat) (mask value : Word) : State :=
  s.helm n tag 3 2 (.readModifyWrite n tag addr mask value) fun s =>
    if 2 ^ 40 ≤ addr then s.reply n tag 3 BAD_MESSAGE []
    else if addr % 4 ≠ 0 then s.reply n tag 3 ALIGN []
    else if (s.windowOf addr).isSome then s.reply n tag 3 READ_ONLY_WINDOW []
    else if !inBlocks addr then s.reply n tag 3 BAD_ADDRESS []
    else s.access n tag (.rmw addr mask value)
/-- The parts of a BULK_READ, 65,536 data bytes at most in each. -/
def State.bulkParts (n tag w base : Nat) : Nat → Nat → Nat → State → State
  | 0, _, _, s => s
  | k + 1, off, left, s =>
    let len := min 65536 left
    let (l, t) := s.readWindow w (base + off) (len / 4)
    let more := decide (len < left)
    let body := [off, s.windowTick w (base + off)] ++ l.map (·.toNat)
    if more then State.bulkParts n tag w base k (off + len) (left - len) (t.sendTo n (.response n tag 4 OK true body)) else t.reply n tag 4 OK body
def State.bulkMsg (s : State) (n tag addr len : Nat) : State :=
  s.helm n tag 4 1 (.bulkRead n tag addr len) fun s =>
    if 2 ^ 40 ≤ addr ∨ len < 4 ∨ 2 ^ 24 < len then s.reply n tag 4 BAD_MESSAGE []
    else match s.windowOf addr with
      | none => s.reply n tag 4 BAD_ADDRESS []
      | some (w, base, size) =>
        if addr % 4 ≠ 0 ∨ len % 4 ≠ 0 ∨ (addr - base) % windowEntry w ≠ 0 ∨ len % windowEntry w ≠ 0 then s.reply n tag 4 ALIGN []
        else if base + size < addr + len then s.reply n tag 4 BAD_ADDRESS []
        else State.bulkParts n tag w addr (len / 65536 + 1) 0 len s
def execRead (sess tag addr count : Nat) (s : State) : Res State := .next (s.readMsg sess tag addr count)
def execBulkRead (sess tag addr len : Nat) (s : State) : Res State := .next (s.bulkMsg sess tag addr len)

/-! ## Command queues (R174 to R181) -/

def State.setCq (s : State) (q : Nat) (l : List QItem) : State := s.modHq fun h => { h with cq := tput h.cq q l }
def cqCap : Nat := 1024
/-- An item at the tail of a command queue. After its clearing read the high water stands at 0 until the next item joins,
whatever still waits (DESIGN CHOICE, log 108). -/
def State.enqueue (s : State) (q : Nat) (x : QItem) : State :=
  let l := s.cqOf q ++ [x]
  let s := s.setCq q l
  s.wr (R.HQ_CQ_HIGH_WATER q) (max (s.rd (R.HQ_CQ_HIGH_WATER q)) l.length)
/-- The next acceptance number. -/
def State.accept (s : State) (q : Nat) : Nat × State :=
  (s.hq.nextId, (s.inc (R.HQ_CQ_ACCEPTED q)).modHq fun h => { h with nextId := h.nextId + 1 })
/-- The commands that a holder has accepted and not completed. -/
def State.liveCmds (s : State) : List Cmd :=
  (s.hq.running.map (·.2)) ++ s.hq.cq.flatMap fun p => p.2.filterMap fun i => match i with
    | .cmd c => some c
    | .fence _ => none
/-- QUEUE_PUSH judged: its status, and the command where it is taken. -/
def State.pushStatus (s : State) (n q : Nat) (e : List Byte) : Nat :=
  let code := u16 e 0
  if 4 ≤ q ∨ e.length ≠ 64 ∨ u16 e 2 ≠ 0 ∨ u16 e 0xA ≠ 0 then BAD_MESSAGE
  else match cmdRole code with
    | none => BAD_MESSAGE
    | some role =>
      if s.noCa && code != CmdCode.provisionCode && code != CmdCode.readNodeRequestCode then STATE
      else if !s.holds n (role ||| 2) then ROLE
      else if s.liveCmds.any fun c => c.sess == n && some c.uid == s.uidOf n && c.tag == u32 e 4 then TAG_IN_USE
      else if cqCap ≤ (s.cqOf q).length then FULL else OK
def State.pushMsg (s : State) (n tag q : Nat) (e : List Byte) : State :=
  s.helm n tag 0x10 1 (.queuePush n tag q e) fun s =>
    let st := s.pushStatus n q e
    if st = OK then
      let (id, s) := s.accept q
      let s := s.enqueue q (.cmd ⟨id, n, (s.uidOf n).getD 0, u32 e 4, u16 e 0, u16 e 8, e.drop 12⟩)
      s.reply n tag 0x10 OK [(s.cqOf q).length]
    else (if st = FULL then s.inc (R.HQ_CQ_REFUSED q) else s).reply n tag 0x10 st []
def execQueuePush (sess tag q : Nat) (entry : List Byte) (s : State) : Res State := .next (s.pushMsg sess tag q entry)
/-- A queue's head can start: nothing of the queue runs, and the head is a command. -/
def State.startable (s : State) (q : Nat) : Option (Cmd × List QItem) :=
  if (s.running q).isSome then none
  else match s.cqOf q with
    | .cmd c :: t => some (c, t)
    | _ => none
/-- The domain stopped in Glide that a command needs (R178). -/
def cmdDomain (code : Nat) : Option Nat := if code / 256 = 6 then some 4 else if code / 256 = 19 then some 11 else none
/-- A command starts: it runs from its queue. -/
def State.startCmdOf (s : State) (q : Nat) (c : Cmd) (rest : List QItem) : State :=
  let s := (s.setCq q rest).modHq fun h => { h with running := tput h.running q c }
  match cmdDomain c.code with
  | none => s
  | some d => (s.modPwr fun p => { p with cmdHold := p.cmdHold ++ [(q, d)] }).showDomains
/-- R181: an entry promoted to the tail of the next higher queue, where there is room. -/
def QItem.id : QItem → Nat
  | .cmd c => c.id
  | .fence f => f.id
def QItem.moved (q : Nat) : QItem → QItem
  | .cmd c => .cmd c
  | .fence f => .fence { f with queue := q }
def State.promoteEntry (s : State) (q id : Nat) : State :=
  match (s.cqOf q).find? fun x => x.id == id with
  | none => s
  | some x =>
    if q = 0 ∨ 4 ≤ q ∨ cqCap ≤ (s.cqOf (q - 1)).length then s
    else
      let s := (s.setCq q ((s.cqOf q).filter fun y => y.id != id)).enqueue (q - 1) (x.moved (q - 1))
      let s := s.modHq fun h => { h with fences := h.fences.map fun f => if f.id = id then { f with queue := q - 1 } else f }
      (s.inc (R.HQ_CQ_PROMOTED q)).flag R.HQ_EVENT_STATUS_PROMOTION
def execCommandPromotion (q id : Nat) (s : State) : Res State := .next (s.promoteEntry q id)

/-! ## Fences (R188 to R191) -/

/-- The sweeps received that no published roll-up includes yet (R283). -/
def State.unpublished (s : State) : List (Nat × Nat × Nat) := s.est.intake.map (fun w => (w.xng, w.berth, w.number)) ++ s.est.fresh
def State.fenceMsg (s : State) (n tag q scope timeout : Nat) : State :=
  s.helm n tag 0x12 2 (.fence n tag q scope timeout) fun s =>
    if 4 ≤ q ∨ 128 ≤ scope ∨ 60000 < timeout then s.reply n tag 0x12 BAD_MESSAGE []
    else if cqCap ≤ (s.cqOf q).length then (s.inc (R.HQ_CQ_REFUSED q)).reply n tag 0x12 FULL []
    else
      let (id, s) := s.accept q
      let f : Fence := ⟨id, n, (s.uidOf n).getD 0, tag, q, scope, if timeout = 0 then 1000 else timeout,
        s.tick, s.xng.txns.map (·.1), s.unpublished, s.loop.staged != [], s.disp.unsent⟩
      (s.enqueue q (.fence f)).modHq fun h => { h with fences := h.fences ++ [f] }
def execFence (sess tag q scope timeout : Nat) (s : State) : Res State := .next (s.fenceMsg sess tag q scope timeout)
/-- The scopes that wait for a command (R188), by its block. -/
def blockScope (block : Nat) : Nat :=
  match block with
  | 2 => 1
  | 5 => 1
  | 6 => 2
  | 7 => 17
  | 8 => 4
  | 9 => 4
  | 10 => 8
  | 11 => 8
  | 12 => 8
  | 20 => 32
  | _ => if 15 ≤ block ∧ block ≤ 19 then 64 else 0
/-- The scopes that wait for an accepted patch (R70), by the sections that it replaces. -/
def sectionScope (typ : Nat) : Nat :=
  match typ with
  | 3 => 4
  | 4 => 2
  | 5 => 19
  | 7 => 8
  | 8 => 16
  | 12 => 64
  | 13 => 25
  | _ => 0
/-- The scopes that what stood open at a fence's acceptance still holds up: Hawser transactions, sweeps without their roll-up, signal
writes staged for the next tick boundary, plant changes that no cycle has sent. -/
def State.fenceOpen (s : State) (f : Fence) : List Nat :=
  let still := s.unpublished
  [if f.txns = [] then 0 else 1, if f.sweeps.any still.contains then 2 else 0,
   if f.staged = true ∧ s.tick ≤ f.tick then 4 else 0, if f.unsent then 16 else 0]
/-- The scopes of a fence that what came before it holds up: commands and patches accepted, and what stood open. -/
def State.undrained (s : State) (f : Fence) : Nat :=
  let c := (s.liveCmds.filter fun c => decide (c.id < f.id)).map fun c => blockScope (c.code / 256)
  let p := (s.man.patch.elim [] fun j => patchTypes j.bytes).map sectionScope
  (c ++ p ++ s.fenceOpen f).foldl (· ||| ·) 0 &&& f.scope
/-- A fence leaves its queue. -/
def State.fenceOut (s : State) (f : Fence) : State :=
  (s.setCq f.queue ((s.cqOf f.queue).filter fun x => x.id != f.id)).modHq fun h => { h with fences := h.fences.filter fun g => g.id != f.id }
/-- A fence completes in the order of acceptance, at the head of its queue, once its scope has drained. -/
def State.fenceDone (s : State) (id : Nat) : State :=
  match s.hq.fences with
  | f :: _ =>
    if f.id = id ∧ ((s.cqOf f.queue).head?).any (fun x => x.id == id) = true ∧ (s.running f.queue).isNone = true ∧ s.undrained f = 0 then
      let s := (s.fenceOut f).inc R.HQ_FENCE_EPOCH
      s.replyTo f.sess f.uid f.tag 0x12 OK [0, s.rd R.HQ_FENCE_EPOCH]
    else s
  | [] => s
def execFenceComplete (id : Nat) (s : State) : Res State := .next (s.fenceDone id)
def State.fenceLate (s : State) (id told : Nat) : State :=
  match s.hq.fences.find? fun f => f.id == id with
  | none => s
  | some f =>
    let mask := (told ||| s.undrained f) &&& f.scope
    let s := (((s.fenceOut f).inc R.HQ_FENCE_INCOMPLETE).flag R.HQ_EVENT_STATUS_FENCE_INCOMPLETE)
    s.replyTo f.sess f.uid f.tag 0x12 INCOMPLETE [mask, s.rd R.HQ_FENCE_EPOCH]
def execFenceTimeout (id undrained : Nat) (s : State) : Res State := .next (s.fenceLate id undrained)

/-! ## Event queues (R184, R185, R727) -/

/-- A session listens to a queue, or no longer. One that listens already keeps its unsent backlog (DESIGN CHOICE, log 108). -/
def State.listen (s : State) (n q : Nat) (on : Bool) : State :=
  s.modSession n fun x => { x with listen := if on then (if (tget x.listen q).isSome then x.listen else tput x.listen q []) else tdel x.listen q }
/-- The MOORING_ENTERED entry that a later subscriber of queue 0 is sent first. -/
def State.mooringFirst (s : State) (n q mode : Nat) : State :=
  match s.hq.mooring with
  | some e => if q = 0 ∧ s.mooring = true ∧ ¬(mode = 2 ∧ (s.eventQ 0).entries.contains e = true) then s.sendTo n (.event n 0 e) else s
  | none => s
def State.subscribeMsg (s : State) (n tag q mode : Nat) : State :=
  s.helm n tag 0x20 1 (.subscribe n tag q mode) fun s =>
    let owner := (s.eventQ q).owner
    if 4 ≤ q ∨ 2 < mode then s.reply n tag 0x20 BAD_MESSAGE []
    else if mode = 2 ∧ s.holds n 2 = false then s.reply n tag 0x20 ROLE []
    else if mode = 2 ∧ owner.isSome = true ∧ owner ≠ some n then s.reply n tag 0x20 OWNED []
    else
      let s := if mode ≠ 2 ∧ owner = some n then s.releaseQueue q else s
      let s := if mode = 2 ∧ owner = none then s.setEventQ q { s.eventQ q with owner := some n, sent := 0 } else s
      let s := (s.listen n q (mode == 1)).reply n tag 0x20 OK [s.rd (R.HQ_EQ_NEXT_SEQ q)]
      if mode = 0 then s else s.mooringFirst n q mode
def execSubscribe (sess tag q mode : Nat) (s : State) : Res State := .next (s.subscribeMsg sess tag q mode)
/-- Sequences compared modulo 2 to the 32: `a` lies after `b`. -/
def seqAfter (a b : Nat) : Bool := let d := (a % 2 ^ 32 + 2 ^ 32 - b % 2 ^ 32) % 2 ^ 32; d != 0 && decide (d < 2 ^ 31)
/-- The sequence of the last entry delivered to the owner of a queue. -/
def State.delivered (s : State) (q : Nat) : Nat :=
  let e := s.eventQ q
  ((e.entries[e.sent]?).elim (s.rd (R.HQ_EQ_NEXT_SEQ q)) (·.seq) + 2 ^ 32 - 1) % 2 ^ 32
/-- Entries up to a sequence are released. -/
def State.ackEvents (s : State) (q seq : Nat) : State :=
  let e := s.eventQ q
  let left := e.entries.filter fun x => seqAfter x.seq seq
  let s := s.setEventQ q { e with entries := left, sent := e.sent - (e.entries.length - left.length) }
  if seqAfter seq (s.rd (R.HQ_EQ_ACKED_SEQ q)) then s.wr (R.HQ_EQ_ACKED_SEQ q) seq else s
def State.ackMsg (s : State) (n tag q seq : Nat) : State :=
  s.helm n tag 0x11 2 (.queueAck n tag q seq) fun s =>
    if 4 ≤ q then s.reply n tag 0x11 BAD_MESSAGE []
    else if (s.eventQ q).owner ≠ some n then s.reply n tag 0x11 OWNED []
    else if seqAfter seq (s.delivered q) then s.reply n tag 0x11 BAD_SEQUENCE []
    else (s.ackEvents q seq).reply n tag 0x11 OK []
def execQueueAck (sess tag q seq : Nat) (s : State) : Res State := .next (s.ackMsg sess tag q seq)
/-- The next entry goes out to the owner, or from a listener's backlog. -/
def State.sendEvent (s : State) (n q : Nat) : State :=
  let e := s.eventQ q
  if e.owner = some n then
    match e.entries[e.sent]? with
    | some x => (s.setEventQ q { e with sent := e.sent + 1 }).sendTo n (.event n q x)
    | none => s
  else match (s.session n).bind fun (x : Session) => tget x.listen q with
    | some (x :: t) => (s.modSession n fun y => { y with listen := tput y.listen q t }).sendTo n (.event n q x)
    | _ => s
def execEventSend (sess q : Nat) (s : State) : Res State := .next (s.sendEvent sess q)

/-! ## Roles, restores, other messages (R156, R161, R278) -/

def State.roleMsg (s : State) (n tag mask : Nat) : State :=
  s.helm n tag 0x50 0 (.sessionRole n tag mask) fun s =>
    let s := s.modSession n fun x => { x with roles := (mask % 256 &&& effRoles x.certRoles) ||| 1 }
    s.reply n tag 0x50 OK [(s.session n).elim 1 (·.roles)]
def execSessionRole (sess tag mask : Nat) (s : State) : Res State := .next (s.roleMsg sess tag mask)
/-- A learned-value entry of a transfer (R284), none where a value is not finite. -/
def learnedOf (b : List Byte) : Option Learned :=
  let h (o : Nat) : Option Rat := if u16 b o / 1024 % 32 = 31 then none else some (f16Val (BitVec.ofNat 16 (u16 b o)))
  match f32? (BitVec.ofNat 32 (u32 b 0)), f32? (BitVec.ofNat 32 (u32 b 4)), f32? (BitVec.ofNat 32 (u32 b 8)), h 0xC, h 0xE with
  | some q, some r, some i, some u, some m => some ⟨q, r, i, u, m⟩
  | _, _, _, _, _ => none
/-- The entries of a part: cell index and value. -/
def partEntries (p : RestorePart) : List (Nat × Option Learned) :=
  (List.range (p.bytes.length / 16)).map fun k => (p.offset / 16 + k, learnedOf ((p.bytes.drop (16 * k)).take 16))
def partsOverlap (a b : RestorePart) : Bool :=
  decide (a.offset < b.offset + b.bytes.length) && decide (b.offset < a.offset + a.bytes.length)
/-- The check that a complete transfer fails (R278); 0 where it passes. -/
def State.restoreCheck (s : State) (r : Restore) : Nat :=
  let ok (e : Nat × Option Learned) : Bool := match s.strType (e.1 / 256) with
    | none => true
    | some t => e.2.any fun l => l.ok t
  if some r.plant ≠ s.nv.plantId then 2
  else if (newestCkpt s.nv.ckpt s.plantIdent).any fun p => decide (r.gen < p.2.gen) then 3
  else if !(r.parts.flatMap partEntries).all ok then 4
  else if r.bad then 5 else 0
/-- An accepted restore: each string takes its values at its next sweep, and then a checkpoint follows (R279). -/
def State.restoreTaken (s : State) (r : Restore) : State :=
  let es := (r.parts.flatMap partEntries).filter fun e => (s.cfg 5 3 (e.1 / 256)).isSome
  let s := es.foldl (fun s e => e.2.elim s fun l => s.modEst (e.1 / 256) fun x => { x with restore := tput x.restore e.1 l }) s
  { s with est := { s.est with restore := some { r with sess := 8, parts := [], taken := some es.length } } }.restoreApplied
/-- The LAST part has come. -/
def State.restoreEnd (s : State) (n tag : Nat) (r : Restore) : State :=
  let k := s.restoreCheck r
  let s := s.wrB R.EST_RESTORE_STATUS_STAGED false
  let s := if k = 0 then s.restoreTaken r
    else (({ s with est := { s.est with restore := none } }.wr R.EST_RESTORE_STATUS_RESULT k).wrB R.EST_STATUS_RESTORE_RUNNING false).flag
      R.EST_EVENT_STATUS_RESTORE_DONE
  s.reply n tag 0x40 (if k = 0 then OK else STATE) []
/-- A part joins the transfer of its session. -/
def State.restorePart (s : State) (n tag plant gen flags off : Nat) (data : List Byte) : State :=
  let uid := (s.uidOf n).getD 0
  let p : RestorePart := ⟨off, data⟩
  let r : Restore := match s.est.restore with
    | none => ⟨n, uid, plant, gen, false, [p], none, false⟩
    | some r => { r with bad := r.bad || r.plant != plant || r.gen != gen || r.parts.any (partsOverlap p), parts := r.parts ++ [p] }
  let s := { s with est := { s.est with restore := some r } }
  let s := (s.wrB R.EST_RESTORE_STATUS_STAGED true).wrB R.EST_STATUS_RESTORE_RUNNING true
  if bit flags 0 then s.restoreEnd n tag r else s.reply n tag 0x40 OK []
def State.restoreMsg (s : State) (n tag plant gen flags off : Nat) (data : List Byte) : State :=
  s.helm n tag 0x40 4 (.restoreLearned n tag plant gen flags off data) fun s =>
    if data.length % 16 ≠ 0 ∨ 2 ^ 20 < data.length ∨ off % 16 ≠ 0 ∨ 2 ^ 24 < off + data.length ∨ 2 ≤ flags then s.reply n tag 0x40 BAD_MESSAGE []
    else if s.est.restore.any fun r => !(r.sess == n && some r.uid == s.uidOf n) then s.reply n tag 0x40 BUSY []
    else s.restorePart n tag plant gen flags off data
def execRestoreLearned (sess tag plant gen flags off : Nat) (data : List Byte) (s : State) : Res State :=
  .next (s.restoreMsg sess tag plant gen flags off data)
/-- A message as its bytes spell it (R157, R159): the command of its row, or the status that answers a type that there is not
and a payload, a flag or a reserved byte that does not fit its type (R161). -/
def spell (n : Nat) (b : List Byte) : Except Nat Instr :=
  let tag := u32 b 4
  let p := b.drop 12
  let k := p.length
  let addr := u64 p 0
  let zero (o len : Nat) : Bool := uAt p o len == 0
  let fit (ok : Bool) (i : Instr) : Except Nat Instr := if ok && u16 b 2 == 0 then .ok i else .error BAD_MESSAGE
  match u16 b 0 with
  | 0x01 => fit (k == 16 && decide (addr < 2 ^ 40) && zero 10 6) (.read n tag addr (u16 p 8))
  | 0x02 => fit (k == 16 + 4 * u16 p 8 && decide (addr < 2 ^ 40) && zero 10 6)
      (.write n tag addr ((List.range (u16 p 8)).map fun j => BitVec.ofNat 32 (u32 p (16 + 4 * j))))
  | 0x03 => fit (k == 16 && decide (addr < 2 ^ 40)) (.readModifyWrite n tag addr (BitVec.ofNat 32 (u32 p 8)) (BitVec.ofNat 32 (u32 p 12)))
  | 0x04 => fit (k == 12 && decide (addr < 2 ^ 40)) (.bulkRead n tag addr (u32 p 8))
  | 0x10 => fit (k == 68 && zero 1 3) (.queuePush n tag (u8 p 0) (p.drop 4))
  | 0x11 => fit (k == 8 && zero 1 3) (.queueAck n tag (u8 p 0) (u32 p 4))
  | 0x12 => fit (k == 8 && zero 1 1) (.fence n tag (u8 p 0) (u16 p 2) (u32 p 4))
  | 0x20 => fit (k == 4 && zero 2 2) (.subscribe n tag (u8 p 0) (u8 p 1))
  | 0x30 => fit (k == 8 && zero 1 3) (.manifestBegin n tag (u8 p 0) (u32 p 4))
  | 0x31 => fit (decide (9 ≤ k) && zero 4 4) (.manifestChunk n tag (u32 p 0) (p.drop 8))
  | 0x32 => fit (k == 0) (.manifestCommit n tag)
  | 0x33 => fit (k == 8) (.patchCommit n tag (u64 p 0))
  | 0x40 => fit (decide (24 ≤ k) && zero 14 2 && zero 20 4)
      (.restoreLearned n tag (u64 p 0) (u32 p 8) (u16 p 12) (u32 p 16) (p.drop 24))
  | 0x50 => fit (k == 1) (.sessionRole n tag (u8 p 0))
  | _ => .error BAD_TYPE
/-- A message that its type refuses is answered, and the session goes on. -/
def State.badMsg (s : State) (n : Nat) (b : List Byte) (status : Nat) : State :=
  let tag := u32 b 4
  let typ := u16 b 0
  s.helm n tag typ 0 (.badTypeMessage n (b.take 12) (b.drop 12)) fun s => s.reply n tag typ status []
def execOversizeMessage (sess len : Nat) (s : State) : Res State := .next (if 1048600 < len then s.closeSession sess else s)

/-! ## Release of waiting accesses (R139, R168) -/

/-- A message that a waiting access held back, as its row has it. -/
def State.message (s : State) : Instr → State
  | .read n tag a c => s.readMsg n tag a c
  | .write n tag a v => s.writeMsg n tag a v
  | .readModifyWrite n tag a m v => s.rmwMsg n tag a m v
  | .bulkRead n tag a l => s.bulkMsg n tag a l
  | .queuePush n tag q e => s.pushMsg n tag q e
  | .queueAck n tag q k => s.ackMsg n tag q k
  | .fence n tag q sc t => s.fenceMsg n tag q sc t
  | .subscribe n tag q m => s.subscribeMsg n tag q m
  | .sessionRole n tag m => s.roleMsg n tag m
  | .restoreLearned n tag p g f o d => s.restoreMsg n tag p g f o d
  | .manifestBegin n tag k l => s.via (execManifestBegin n tag k l)
  | .manifestChunk n tag o d => s.via (execManifestChunk n tag o d)
  | .manifestCommit n tag => s.via (execManifestCommit n tag)
  | .patchCommit n tag t => s.via (execPatchCommit n tag t)
  | .firmwareCommit n tag v w f => s.via (execFirmwareCommit n tag v w f)
  | .badTypeMessage n h b => match spell n (h ++ b) with
    | .error st => s.badMsg n (h ++ b) st
    | .ok _ => s
  | _ => s
/-- The messages that a session has held run in their order, until one waits. -/
def State.runHeld : Nat → Nat → State → State
  | 0, _, s => s
  | k + 1, n, s =>
    match s.session n with
    | none => s
    | some x =>
      if x.wait.isSome then s
      else match x.held with
        | [] => s
        | i :: t => State.runHeld k n ((s.setSession n { x with held := t }).message i)
/-- A waiting access goes on, or ends with a status. -/
def State.endWait (s : State) (n : Nat) (reset : Bool) : State :=
  match s.session n with
  | none => s
  | some x => match x.wait with
    | none => s
    | some w =>
      let s := (s.setSession n { x with wait := none }).showHung
      let s := if reset then
          match w.acc with
          | .read _ _ got => s.reply n w.tag 1 DOMAIN_RESET_ST (got.map (·.toNat))
          | .write _ _ st => s.reply n w.tag 2 (firstStatus st DOMAIN_RESET_ST) []
          | .rmw .. => s.reply n w.tag 3 DOMAIN_RESET_ST []
        else s.access n w.tag w.acc
      State.runHeld 64 n s
def State.waitsOn (s : State) (n : Nat) (p : Nat → Bool) : Bool := (s.session n).any fun x => x.wait.any fun w => p w.dom
/-- Every access whose domain runs goes on, in session order. -/
def State.releaseWaitsN : Nat → State → State
  | 0, s => s
  | k + 1, s =>
    match (List.range 8).find? fun n => s.waitsOn n s.live with
    | none => s
    | some n => State.releaseWaitsN k (s.endWait n false)
def State.releaseWaits (s : State) : State := s.releaseWaitsN 512
/-- The accesses that wait on a domain end with DOMAIN_RESET. -/
def State.resetWaits (s : State) (d : Nat) : State :=
  (List.range 8).foldl (fun s n => if s.waitsOn n (· == d) then s.endWait n true else s) s
/-- Rows that may start a domain. -/
def execWrite (sess tag addr : Nat) (values : List Word) (s : State) : Res State := .next (s.writeMsg sess tag addr values).releaseWaits
def execReadModifyWrite (sess tag addr : Nat) (mask value : Word) (s : State) : Res State :=
  .next (s.rmwMsg sess tag addr mask value).releaseWaits
/-- MANIFEST_COMMIT in firmware recovery commits a firmware image: what its bytes do not tell, verification finds (R671). -/
def State.spelt (s : State) (i : Instr) : State :=
  match i with
  | .manifestCommit n tag =>
    if s.recovery then
      let (v, t) := s.drawBool
      let (ver, t) := t.drawWord
      let (fl, t) := t.drawWord
      t.message (.firmwareCommit n tag v ver.toNat fl.toNat)
    else s.message i
  | i => s.message i
/-- A message as it comes in the TLS stream. One that declares too long a payload ends the session (R161); one that fits its
type is its row's; any other is answered BAD_TYPE or BAD_MESSAGE. -/
def State.helmBytes (s : State) (n : Nat) (b : List Byte) : State :=
  if b.length < 12 then s
  else if 1048600 < u32 b 8 then s.closeSession n
  else if b.length ≠ 12 + u32 b 8 then s
  else match spell n b with
    | .error st => s.badMsg n b st
    | .ok i => (s.spelt i).releaseWaits
def execBadTypeMessage (sess : Nat) (header payload : List Byte) (s : State) : Res State := .next (s.helmBytes sess (header ++ payload))
def execPwrDomainHoldWrite (who mask : Nat) (s : State) : Res State :=
  .next (if s.powered && (decide (8 ≤ who) || s.holds who 2) then (s.holdDomains (natW mask)).releaseWaits else s)
def execCommandStart (s : State) : Res State :=
  .next (match (List.range 4).findSome? fun q => (s.startable q).map fun p => (q, p) with
    | some (q, c, rest) => (s.startCmdOf q c rest).releaseWaits
    | none => s)

/-! ## Partners (R32, R34) -/

def execStandingRefresh (s : State) : Res State := .next (if s.portsUp && !s.mooring then s.refreshAll else s)
/-- R34: the partner acts on its own orders; nothing of the Turid changes. -/
def execPartnerSilenceTimeout (_kind _a _b : Nat) (s : State) : Res State := .next s

end Sys2Proof.Machine
end

