-- ==== Sys2Proof/Machine/Modes.lean ====
section
/-!
DEFINITION. The operating modes of the plant (R29, R350 to R352): mains and fire alarm as the rows confirm them, and
evacuation operation with what its begin and end do to the thermal stage (R146) and to protection (R310, R311).
-/
namespace Sys2Proof.Machine
open Sys2Proof

/-- Evacuation operation begins. -/
def State.evacEnter (s : State) : State :=
  let e := s.eRes
  let s := (s.setMode EVACUATION).modDisp fun d => { d with evacEres := e }
  let s := s.raise Ev.EVACUATION_ENTERED 0 (le 4 (toB32 e).toNat)
  if s.rd R.PWR_THERMAL_STATUS_STAGE = 2 then (s.thermalTo 1).evacOverride else s
/-- Evacuation operation ends: what it deferred acts, and the thermal stage that it held off begins. -/
def State.evacLeave (s : State) : State :=
  let used := s.disp.evacEres - s.eRes
  let s := (s.setMode (if s.mainsLost then ISLAND else GRID)).raise Ev.EVACUATION_ENDED 0 (le 4 (toB32 used).toNat)
  let s := (s.wrB R.PWR_THERMAL_STATUS_EVAC_OVERRIDE false).wrB R.PLT_EVAC_STATUS_SHEDDING false
  let s := s.protEvacEnd
  if s.pwr.hot60 && s.rd R.PWR_THERMAL_STATUS_STAGE == 1 then s.thermalTo 2 else s
/-- Mains lost confirmed: `units` tells that the PCS units showed it. -/
def State.mainsGo (s : State) (units : Bool) : State :=
  let s := (s.wrB R.PLT_EVAC_STATUS_MAINS_LOST true).raise Ev.MAINS_LOST 0 (le 1 (b2n units))
  if s.fireAlarm then s.evacEnter else s.setMode ISLAND
def execMainsLostConfirm (units : Bool) (s : State) : Res State :=
  .next (if s.underway && !s.mainsLost then s.mainsGo units else s)
/-- Mains present confirmed; EVACUATION continues. -/
def State.mainsBack (s : State) : State :=
  let s := (s.wrB R.PLT_EVAC_STATUS_MAINS_LOST false).raise Ev.MAINS_RESTORED 0 []
  if s.dispMode = ISLAND then s.setMode GRID else s
def execMainsPresentConfirm (s : State) : Res State := .next (if s.underway && s.mainsLost then s.mainsBack else s)
/-- A fire alarm input has been active for 100 ms. -/
def State.fireGo (s : State) : State :=
  let s := (s.wrB R.PLT_EVAC_STATUS_FIRE_ALARM true).wr R.PLT_EVAC_STATUS_ALARM_HOLD s.alarmHold
  if s.mainsLost && !s.evac then s.evacEnter else s
def execFireAlarmActive (s : State) : Res State := .next (if s.underway then s.fireGo else s)
/-- Every fire alarm input has been inactive for the hold time. -/
def State.fireOver (s : State) : State :=
  let s := (s.wrB R.PLT_EVAC_STATUS_FIRE_ALARM false).wr R.PLT_EVAC_STATUS_ALARM_HOLD 0
  if s.evac then s.evacLeave else s
def execFireAlarmHoldExpiry (s : State) : Res State := .next (if s.underway && s.fireAlarm then s.fireOver else s)

end Sys2Proof.Machine
end

