-- ==== Sys2Proof/Machine/Release.lean ====
section
/-!
DEFINITION. What sets stopped or reset domains running again: the wake from Glide (R116) and the completion of a domain
reset (R141, R365, R582, R637).
-/
namespace Sys2Proof.Machine
open Sys2Proof

/-! ## Wake from Glide (R116, R393, R637) -/

/-- A condition of R114 has set in Glide: WAKING, with the bits that ended Glide. -/
def State.glideWake (s : State) : State :=
  if s.rd R.PWR_STATE_STATE = 2 ∧ s.glideBits ≠ 0 then
    (s.wr R.PWR_STATE_STATE 4).wr (R.PWR_WAKE_CAUSE.part 16 10) s.glideBits
  else s
/-- The engine PLLs have locked: every domain runs, and the Stride schedule with it. -/
def State.strideResumes (s : State) : State :=
  let s := ((s.wr R.PWR_STATE_STATE 1).wrB R.LOOP_STATUS_GLIDE_SCHEDULE false).showDomains
  let s := (s.wakeSlots.acqStride).showPwm
  let s := ((List.range 16).filter s.xngUsed).foldl State.replan s
  ((s.inc R.PWR_GLIDE_WAKES).flag R.PWR_EVENT_STATUS_GLIDE_LEFT).releaseWaits
def execPllLocked (s : State) : Res State :=
  let t := s.glideWake
  .next (if s.powered && t.rd R.PWR_STATE_STATE == 4 then t.strideResumes else s)

/-! ## Completion of a domain reset (R141) -/

/-- The registers of a domain go back to their reset values; what power good, the Bollard domain or non-volatile memory
keeps stays, and so do the output faults and wire breaks, which outlast the reset of field I/O (R582). -/
def State.domainRegs (s : State) (d : Nat) : State :=
  let kept := [R.FIO_OUT_FAULT_LATCH.addr, R.FIO_WIRE_BREAK_LATCH_LO.addr, R.FIO_WIRE_BREAK_LATCH_HI.addr]
  { s with regs := s.regs.filter fun p => regDomain p.1 != d || (descOf p.1).keep != 0 || kept.contains p.1 }
/-- A crossing after the reset of its domain: its hops train anew, its nodes stay known; commands that waited end. -/
def State.ringReset (s : State) (n : Nat) : State :=
  let r := s.ring n
  let slept := r.nodes.any fun p => p.2.state == 7
  let q := r.sleepQ.toList ++ r.wakeQ ++ r.later.map (·.1) ++ (r.reauth.map (·.1)).toList ++ (r.census.map (·.1)).toList
  let s := s.modRing n fun r => { r with hops := [], breaks := [], lastHop := none, auths := [], wait := [], commitAt := none,
                                         sleepQ := none, agreed := [], reauth := none, wake := none, wakeQ := [],
                                         later := [], census := none, suspect := [] }
  let s := q.foldl (fun s q => s.complete q STATE 0) s
  if slept then (s.startWake n 2).replan n else s.replan n
def State.resetXng (s : State) : State := ((List.range 16).filter s.xngUsed).foldl State.ringReset s
/-- Position channels begin again; the levels at the pins stay. -/
def State.resetPos (s : State) : State :=
  (s.cfgAll 6 4).foldl (fun s r =>
    let x := s.ch r.id
    (s.setCh r.id { PosCh.fresh with vane := x.vane, zone := x.zone, marker := x.marker }).setQuality r.id
      (if x.vane && !bit (s.rd R.SYS_SELFTEST_PORTS_POS_FAILED) r.id then POS_GOOD else POS_LOST)) s
/-- CAN buses and RS-485 lines begin again; the commands that waited on a bus end, and its drives get STANDING. -/
def State.resetMbc (s : State) : State :=
  let q := s.mbc.flatMap fun (p : Nat × Mbc) => p.2.sleepQ.toList ++ p.2.wakeQ ++ p.2.recoverQ ++ p.2.tx.filterMap (·.host)
  let s := q.eraseDups.foldl (fun s q => s.complete q STATE 0) { s with mbc := [], ser := [] }
  let s := ((s.cfgAll 10 6).filter fun r => !bit (s.rd R.SYS_SELFTEST_PORTS_MBC_FAILED) r.id).foldl (fun s r => s.startBus r.id) s
  s.buses.foldl State.busStanding s.startLines
/-- Ports and clocks of the Ethernet side begin again; without a parent the plant clock coasts. -/
def State.resetNet (s : State) : State :=
  let s := ({ s with net := ⟨0, [], none, [], 0⟩ }).startPorts
  if s.rd R.PWR_PLANT_TIME_STATUS_STATE = 1 then s.ptpState 2 else s.wr R.NET_PTP_STATUS_STATE (s.rd R.PWR_PLANT_TIME_STATUS_STATE)
/-- Field I/O drives again as its records and owners say. -/
def State.resetFio (s : State) : State :=
  ((((s.wrB R.FIO_STATUS_RUNNING true).wrB R.FIO_STATUS_OUTPUTS_ENABLED s.underway).fioLoad).showAllInputs).driveOuts
/-- The loop engine: RUNNING in UNDERWAY, PRIMED from LEARNED on. -/
def State.resetLoop (s : State) (glide : Bool) : State :=
  ((s.wrB R.LOOP_STATUS_GLIDE_SCHEDULE glide).loopFresh
    (if s.underway then RUNNING else if 7 ≤ s.stage ∧ s.mooring = false then PRIMED else STOPPED) true).showPwm
def State.unitReset (s : State) (d : Nat) : State :=
  let glide := s.loopGlide
  let s := s.domainRegs d
  match d with
  | 3 => s.resetLoop glide
  | 7 => s.resetXng
  | 8 => s.resetPos
  | 9 => s.resetMbc
  | 10 => s.resetNet
  | 11 => (s.wrB R.ACQ_STATUS_RUNNING s.underway).acqReset
  | 12 => s.showPwm
  | 13 => s.resetFio
  | _ => s
def State.resetEnds (s : State) (d : Nat) : State :=
  let s := s.unitReset d
  let s := ((s.incSat (R.PWR_DOMAIN_STATUS_RESETS d)).wrB R.PWR_DOMAIN_RESET_STATUS_BUSY false).modPwr fun p => { p with resetDom := none }
  (s.resetResult 1).resetWaits d
def execDomainResetDone (s : State) : Res State :=
  .next (match s.pwr.resetDom with
    | none => s
    | some d => if s.powered then s.resetEnds d else s)

end Sys2Proof.Machine
end

