-- ==== Sys2Proof/Machine/Tick.lean ====
section
/-!
DEFINITION. The row TICK (R364): the boundary between two ticks and the new tick's work, from the captures to the lane
exchange and the latches, with what each other unit does in a tick or at whole multiples of ticks. `ain` are the values
captured at pins that no other row brings (by port class × 4,096 + item; class 14 holds the Turid's own sensors), `mot`
what the motor encoders gave, `upsets` what a disturbance makes of a lane's store.
-/
namespace Sys2Proof.Machine
open Sys2Proof

/-! ## Time (R127 to R130, R143, R394) -/

/-- The tick number is a whole multiple of n. -/
def State.every (s : State) (n : Nat) : Bool := s.tick % n == 0
/-- A millisecond of the Bollard clock and the application watchdog. -/
def State.msPass (s : State) : State :=
  let s := if s.on R.PWR_WATCHDOG_STATUS_RUNNING then s.wr R.PWR_WATCHDOG_STATUS_REMAINING_MS (s.rd R.PWR_WATCHDOG_STATUS_REMAINING_MS - 1) else s
  if 999 ≤ s.rd R.PWR_OP_MS then (s.wr R.PWR_OP_MS 0).inc R.PWR_OP_SECONDS else s.inc R.PWR_OP_MS
/-- The Bollard clock over 10 µs. -/
def State.opTick (s : State) : State :=
  if s.pwr.subMs < 99 then s.modPwr fun p => { p with subMs := p.subMs + 1 } else (s.modPwr fun p => { p with subMs := 0 }).msPass
def signOf (x : Int) : Int := if 0 < x then 1 else if x < 0 then -1 else 0
/-- External sync governs tick phase (R129, R395). -/
def State.syncArmed (s : State) : Bool := let k := s.rd R.LOOP_SYNC_STATUS_STATE; k == 1 || k == 2
/-- A cycle of the engine clock in thirds of a nanosecond. -/
def State.cycle3 (s : State) : Nat := if s.loopGlide then 4 else 1
/-- The cycles by which discipline changes a tick whose boundary would stand `o` thirds of a nanosecond before the grid: at most
1 ns in Stride and one cycle, 1.33 ns, in Glide (R129). Without plant time, and while external sync is armed, none. -/
def State.discipline (s : State) (o : Int) : Int :=
  if s.rd R.PWR_PLANT_TIME_STATUS_STATE = 0 ∨ s.syncArmed = true then 0
  else if s.loopGlide then (if 2 < o then 1 else if o < -2 then -1 else 0)
  else max (-3) (min 3 o)
/-- Plant time in thirds of a nanosecond at the end of a tick of so many cycles, before discipline: a slew moves it by 1 ns. -/
def State.plantRaw (s : State) (len : Nat) : Int :=
  3 * (s.plantNow : Int) + s.pwr.third + len * s.cycle3 + 3 * signOf s.pwr.slewLeft
/-- Plant time moves on to `p` thirds of a nanosecond, and with it the rest of a slew and the boundary's distance to the grid. -/
def State.plantTo (s : State) (p : Int) : State :=
  let slew := signOf s.pwr.slewLeft
  let s := s.wr64 R.PWR_PLANT_TIME_LO (p / 3 % 2 ^ 64).toNat
  let s := s.modPwr fun x => { x with slewLeft := x.slewLeft - slew, third := (p % 3).toNat }
  let s := if slew = 0 then s else (s.wrS R.PWR_PLANT_TIME_SLEW s.pwr.slewLeft).wrB R.PWR_PLANT_TIME_STATUS_SLEWING (s.pwr.slewLeft != 0)
  if s.rd R.PWR_PLANT_TIME_STATUS_STATE = 0 then s else s.wrS R.PWR_TICK_OFFSET (gridOff p / 3)
/-- The tick before has ended: its length, the place in the sync period, and the tick counter. -/
def State.countTick (s : State) : State :=
  let len := s.loop.ended.getD (if s.loopGlide then 7500 else 30000)
  let pos := if s.loop.ended.isSome then s.loop.syncPos else (s.loop.syncPos + 1) % max 1 s.syncPeriod
  let p := s.plantRaw len
  let g := s.discipline (gridOff p)
  let s := (s.wr R.LOOP_TICK_LENGTH ((len : Int) + g).toNat).modLoop fun l => { l with ended := none, syncPos := pos }
  (s.plantTo (p + g * s.cycle3)).wr64 R.PWR_TICK_LO (s.tick + 1)
/-- The sync output on J22 (R397). -/
def State.syncPulse (s : State) : State :=
  if s.on (R.LOOP_SYNC_OUT.bit 0) && s.every (max 1 s.syncPeriod) then s.send (.frame .usb 1 0 []) else s

/-- The PPS output on J22 (R710): its edge in the tick in which plant time, known, reaches a whole second; `t` is the plant time
at the boundary before. -/
def State.ppsPulse (s : State) (t : Nat) : State :=
  if s.timeKnown && t / 1000000000 != s.plantNow / 1000000000 then s.send (.frame .usb 2 0 []) else s

/-! ## The Turid's own sensors (R144, R148) -/

/-- A sensor: 0 to 3 the dies, 4 the base plate, 5 to 7 the inputs in mV, 8 the input power in mW. -/
def State.sensor (s : State) (k : Nat) (w : Word) : State :=
  if k < 4 then s.wr (R.PWR_DIE_TEMP k) (w.toNat % 65536)
  else match k with
    | 4 => s.wr R.PWR_BASE_TEMP (w.toNat % 65536)
    | 5 => s.wr R.PWR_INPUT_A w.toNat
    | 6 => s.wr R.PWR_INPUT_B w.toNat
    | 7 => (s.wr R.PWR_INPUT_BKP w.toNat).supply (s.on R.PWR_SUPPLY_STATUS_A_GOOD) (s.on R.PWR_SUPPLY_STATUS_B_GOOD) (decide (2000 ≤ w.toNat))
    | 8 => s.wr R.PWR_POWER_NOW w.toNat
    | _ => s
/-- A temperature register, signed. -/
def State.degrees (s : State) (f : Fld) : Int := (BitVec.ofNat 16 (s.rd f)).toInt
def State.sensors (s : State) (ain : List (Nat × Word)) : State :=
  let own := ain.filter fun p => p.1 / 4096 == 14
  let s := own.foldl (fun s p => s.sensor (p.1 % 4096) p.2) s
  if own.any fun p => decide (p.1 % 4096 < 4) then
    let m := ((List.range 4).map fun k => s.degrees (R.PWR_DIE_TEMP k)).foldl max (s.degrees (R.PWR_DIE_TEMP 0))
    let word (x : Int) : Nat := (BitVec.ofInt 16 x).toNat
    let s := (s.wr R.PWR_DIE_TEMP_MAX (word m)).wr R.PWR_DIE_TEMP_PEAK (word (max m (s.degrees R.PWR_DIE_TEMP_PEAK)))
    if m < 1050 then s.modPwr fun p => { p with hot60 := false } else s
  else s

/-! ## Captures (R377, R383, R461, R462, R493, R572) -/

/-- The port class 5 signal of a channel, and whether its difference saturated. -/
def State.posSnap (s : State) (c k : Nat) : Option (Word × Bool) :=
  let num (n : Nat) : Option (Word × Bool) := some (toB32 (n : Rat), false)
  match k with
  | 0 => some (posDiff (s.refError c))
  | 1 => some (posDiff (s.goMargin c))
  | 2 => some (posDiff (s.toGo c))
  | 3 => some (toB32 (s.ch c).vel, false)
  | 4 => some (toB32 (s.ch c).mvel, false)
  | 5 => num (s.quality c)
  | 6 => num (b2n (s.frozen c))
  | 7 => num (b2n (s.ch c).zone)
  | 8 => some ((s.terminalLimit c).elim (f32Inf false) toB32, false)
  | 9 => num (b2n (s.on (R.CAR_NEXT_STOP_VALID c)))
  | _ => none
/-- What a SNAPSHOT signal captures: none where nothing has brought a value. -/
def State.capture (s : State) (ain : List (Nat × Word)) (w : Nat) : Option (Word × Bool) :=
  let item := w % 4096
  match w / 4096 with
  | 4 => if item < 64 then some (toB32 (b2n (s.on (bitOf64 R.FIO_IN_LO R.FIO_IN_HI item)) : Nat), false) else none
  | 5 => if item < 128 then s.posSnap (item / 16) (item % 16) else none
  | 6 => (tget (s.carOf (item / 8)).drv (item % 8)).map fun v => (v, false)
  | 7 => (tget (s.doorOf (item / 8)).drv (item % 8)).map fun v => (v, false)
  | _ => (tget ain w).map fun v => (v, false)
/-- Every SNAPSHOT signal of the manifest that captures a value, by number. -/
def State.captures (s : State) (ain : List (Nat × Word)) : List (Nat × Word × Bool × Nat) :=
  ((s.cfgAll 2 1).filter fun r => r.writerKind == 1).filterMap fun r =>
    (s.capture ain r.writer).map fun v => (r.id, v.1, v.2, r.writer)
/-- SATURATED shows on the channel (R461). -/
def State.showSaturated (s : State) (caps : List (Nat × Word × Bool × Nat)) : State :=
  (caps.filter fun c => c.2.2.1).foldl (fun s c => s.wrB (R.POS_STATUS_SATURATED (c.2.2.2 % 4096 / 16)) true) s
/-- Set-point and pulse inputs as dispatch reads them (R323). -/
def State.keepInputs (s : State) (ain : List (Nat × Word)) : State :=
  (ain.filter fun p => p.1 / 4096 == 2 || p.1 / 4096 == 3).foldl (fun s p =>
    s.modDisp fun d => { d with inputs := tput d.inputs p.1 ((f32? p.2).getD 0) }) s

/-! ## Position, cars and doors -/

def motorOf (mot : List MotorIn) (c : Nat) : MotorIn := (mot.find? fun m => m.chan == c).getD ⟨c, 0, 0, 0, 0, 0, 0⟩
def State.posTicks (s : State) (mot : List MotorIn) : State :=
  (s.cfgAll 6 4).foldl (fun s r => s.posTick (s.carMoves r.id) r (motorOf mot r.id)) s
/-- The car's load (R480): volts by scale, or from the drive's torque at rest, by a rule that the spec does not give. -/
def State.weigh (s : State) (ain : List (Nat × Word)) (c : Nat) : State :=
  match s.carRec c with
  | none => s
  | some r =>
    let src := r.u8 0x82
    if src = 0xFF then
      if s.atRest c && s.every 100 then let (w, t) := s.drawWord; t.wr (R.CAR_LOAD c) (w.toNat % 65536) else s
    else match tget ain (4096 + src) with
      | some v => s.wr (R.CAR_LOAD c) (min 65535 (ratRne (ratMax 0 ((f32? v).getD 0 * cfgR (some r) 0x84 200))).toNat)
      | none => s
/-- The cars after the output phases; no drive set-point goes out before UNDERWAY (R92). -/
def State.carTicks (s : State) (ain : List (Nat × Word)) : State :=
  let s := s.cars.foldl (fun s c =>
    let ran := (s.carSlot c).any s.loop.ran.contains
    (((s.weigh ain c).posLatch c ran).carTick c ran)) s
  let s := if !s.loopGlide && s.underway && s.tick % 25 == 24 then s.tractionFrame false else s
  s.serveCars
/-- The doors whose servo period has come, and park values in Glide; none before UNDERWAY (R92). -/
def State.doorTicks (s : State) : State :=
  if s.underway = false then s
  else if s.loopGlide then (if s.every 1000 then s.doors.foldl (fun s d => s.doorFrame d true) s else s)
  else s.doors.foldl (fun s d => if ((s.doorSlot d).bind s.slotRec).any fun r => r.due s.tick then s.doorServo d else s) s
/-- The report of loop faults to the safety technologies (R389, R528); it holds on a car until that next stands with its brake
applied, so one that stands so already is free of it (R524). -/
def State.loopReports (s : State) : State :=
  let l := s.loop.told
  if l = [] then s
  else
    let s := s.modLoop fun x => { x with told := [] }
    let hit (c : Nat) : Bool := (s.monitor c).any fun m => l.any fun g => bit (m.u16 0x30) g
    ((s.cars.filter hit).foldl (fun s c => s.modSafCar c fun x => { x with loopRep := x.loopRep || s.brakeLifted c || s.outOn (3 * c + 1) }) s).safety
/-- The safety side in a tick: figures, remaining times, final limits that may clear, an overspeed that ends at rest, and
SYSTEM's mirror every 100 ticks (R715). -/
def State.safTick (s : State) : State :=
  let s := if s.safUp then
      let s := s.cars.foldl (fun s c =>
        let s := s.safFigures c
        if (s.safCar c).excess ≠ 0 ∧ s.carSpeed c = 0 then s.modSafCar c fun x => { x with excess := 0 } else s) s
      s.safTime.limitRelease
    else s
  if s.every 100 then s.safMirror else s

/-! ## Whole multiples of ticks -/

/-- The partner is absent or lost (R720); of a remote unit, that its connection stands in FAIL_SAFE. -/
def State.partnerGone (s : State) (p : Nat × Nat × Nat) : Bool :=
  s.isAbsent p || match p.1 with
    | 0 => (s.node p.2.1 p.2.2).state == 5
    | 1 => (s.pcs p.2.1).state == 3
    | 3 => (s.fixt p.2.1).lost
    | 4 => (s.conn p.2.1).state == CONN_FAIL_SAFE
    | _ => if p.2.1 = 8 then s.on (R.CAR_DRIVE_STATUS_LOST p.2.2) else s.on (R.DOOR_DRIVE_STATUS_LOST (2 * p.2.1 + p.2.2))
def State.countPartners (s : State) : State :=
  let a := (s.partners.filter s.partnerGone).length
  let q := ((List.range 16).map fun n => ((s.ring n).nodes.filter fun p => p.2.state == 4).length).foldl (· + ·) 0
  let changed := s.rd R.SYS_PARTNERS_ABSENT != a || s.rd R.SYS_PARTNERS_QUARANTINED != q
  let s := (s.wr R.SYS_PARTNERS_ABSENT a).wr R.SYS_PARTNERS_QUARANTINED q
  if changed then s.flag R.SYS_EVENT_STATUS_PARTNERS_CHANGED else s
/-- The load of a bus in the last second, an open value up to the whole. -/
def State.busLoad (s : State) (b : Nat) : State :=
  let (w, s) := s.drawWord
  let v := w.toNat % 1001
  (s.wr (R.MBC_LOAD b) v).wr (R.MBC_LOAD_PEAK b) (max v (s.rd (R.MBC_LOAD_PEAK b)))
/-- What a second on the wire leaves that no command carries (R621): damaged and dropped frames, and on the PRP pair the
duplicates, the frames on the wrong LAN and the nodes heard, each an open amount (log 106). -/
def State.netSecond (s : State) : State :=
  let more (s : State) (f : Fld) : State :=
    let (w, s) := s.drawWord
    s.wr f ((s.rd f + w.toNat) % 2 ^ 32)
  let s := ((List.range 4).filter fun p => bit (s.rd R.NET_STATUS) p).foldl (fun s p =>
    more (more s (R.NET_PORT_RX_ERRORS p)) (R.NET_PORT_DROPPED p)) s
  if s.prpPair then
    let s := more (more s R.NET_PRP_DUP_DISCARDED) R.NET_PRP_WRONG_LAN
    let (w, s) := s.drawWord
    s.wr R.NET_PRP_NODES (w.toNat % 65536)
  else s
def State.secondPass (s : State) : State :=
  let s := s.inc R.SYS_UPTIME
  let s := s.wr R.PWR_PEAK_SECONDS (if 42000 < s.rd R.PWR_POWER_NOW then s.rd R.PWR_PEAK_SECONDS + 1 else 0)
  let s := (if s.portsUp then s.countPartners.balanceCheck.netSecond else s).secondUpdates.alarmSecond
  s.buses.foldl State.busLoad s
def State.glideSecond (s : State) : State :=
  if s.loopGlide then
    let s := s.modPwr fun p => { p with glideTicks := p.glideTicks + 1 }
    if 100000 ≤ s.pwr.glideTicks then (s.modPwr fun p => { p with glideTicks := 0 }).inc R.PWR_GLIDE_SECONDS else s
  else s
/-- What the other units do in a tick. -/
def State.unitTicks (s : State) : State :=
  let s := (List.range 16).foldl State.ringTick s
  let s := s.buses.foldl State.canTick s
  let s := if s.xng.due.order = [] ∧ s.xng.heads = [] then s else s.sweepsGo
  let s := (s.glideSecond).glideWake
  let s := if s.every 10000 && s.portsUp then s.modbusRefresh else s
  let s := if s.portsUp then s.ptpTick else s
  let s := if s.every 100000 then s.secondPass else s
  s.showDomains.releaseWaits

/-! ## TICK -/

def State.fullTick (s : State) (ain : List (Nat × Word)) (mot : List MotorIn) (upsets : List (Nat × Bool × Nat × Word)) : State :=
  let s := (((s.patchBoundary.countTick).opTick).syncPulse).ppsPulse s.plantNow
  let s := ((s.sensors ain).keepInputs ain).posTicks mot
  let caps := s.captures ain
  let s := ((s.showSaturated caps).engineTick (caps.map fun c => (c.1, c.2.1)) upsets).loopReports
  let s := s.pwmTick
  let s := if s.portsUp && !s.mooring then ((s.carTicks ain).doorTicks).indicateChanges else s
  let s := ((s.acqLoop.acqDrain).loopOuts).sourceTick
  s.safTick.unitTicks
def execTick (ain : List (Nat × Word)) (mot : List MotorIn) (upsets : List (Nat × Bool × Nat × Word)) (s : State) : Res State :=
  .next (match s.boll.phase with
    | .on => s.fullTick ain mot upsets
    | .power => (s.wr64 R.PWR_TICK_LO (s.tick + 1)).opTick
    | _ => s)

end Sys2Proof.Machine
end

