-- ==== Sys2Proof/Machine/Dispatch.lean ====
section
/-!
DEFINITION. One arm per constructor of Instr: a direct call of its meaning.
-/
namespace Sys2Proof.Machine
open Sys2Proof

def exec (i : Instr) (s : State) : Host.Outcome State Fault Refusal :=
  match i with
  | .registerWrite who addr value => Sys2Proof.Machine.execRegisterWrite who addr value s
  | .rcRegisterRead who addr => Sys2Proof.Machine.execRcRegisterRead who addr s
  | .counterLowWordRead sess addr => Sys2Proof.Machine.execCounterLowWordRead sess addr s
  | .counterHighWordWrite sess addr value => Sys2Proof.Machine.execCounterHighWordWrite sess addr value s
  | .opMsRead sess => Sys2Proof.Machine.execOpMsRead sess s
  | .powerGood a b bkp sec msec ms => Sys2Proof.Machine.execPowerGood a b bkp sec msec ms s
  | .bootComplete storeOk => Sys2Proof.Machine.execBootComplete storeOk s
  | .bootVerifyFailed => Sys2Proof.Machine.execBootVerifyFailed s
  | .safetySelftestDone procOk hwOk => Sys2Proof.Machine.execSafetySelftestDone procOk hwOk s
  | .manifestStageDone refused => Sys2Proof.Machine.execManifestStageDone refused s
  | .selfTestDone cores lanes dram xng pos mbc ser pipes dramOk nvm pllOk => Sys2Proof.Machine.execSelfTestDone cores lanes dram xng pos mbc ser pipes dramOk nvm pllOk s
  | .learnedRestoreDone => Sys2Proof.Machine.execLearnedRestoreDone s
  | .partnersDone => Sys2Proof.Machine.execPartnersDone s
  | .partnerAbsentTimeout kind a b => Sys2Proof.Machine.execPartnerAbsentTimeout kind a b s
  | .stageTimeout => Sys2Proof.Machine.execStageTimeout s
  | .startTimeout => Sys2Proof.Machine.execStartTimeout s
  | .startHoldElapsed => Sys2Proof.Machine.execStartHoldElapsed s
  | .holdRepeatTimer => Sys2Proof.Machine.execHoldRepeatTimer s
  | .hostReset sess key => Sys2Proof.Machine.execHostReset sess key s
  | .attemptStart sess key => Sys2Proof.Machine.execAttemptStart sess key s
  | .brownOut => Sys2Proof.Machine.execBrownOut s
  | .firmwareFatal => Sys2Proof.Machine.execFirmwareFatal s
  | .firmwareCommit sess tag valid version floor => Sys2Proof.Machine.execFirmwareCommit sess tag valid version floor s
  | .glideDwellExpiry => Sys2Proof.Machine.execGlideDwellExpiry s
  | .pllLocked => Sys2Proof.Machine.execPllLocked s
  | .enterBerth sess key => Sys2Proof.Machine.execEnterBerth sess key s
  | .cancelBerth sess key => Sys2Proof.Machine.execCancelBerth sess key s
  | .berthEntryComplete => Sys2Proof.Machine.execBerthEntryComplete s
  | .mainInputLost b => Sys2Proof.Machine.execMainInputLost b s
  | .bothMainsLost torn => Sys2Proof.Machine.execBothMainsLost torn s
  | .bkpDepleted torn => Sys2Proof.Machine.execBkpDepleted torn s
  | .wakeSourceEvent n sec ms => Sys2Proof.Machine.execWakeSourceEvent n sec ms s
  | .berthWake => Sys2Proof.Machine.execBerthWake s
  | .opsecPersist sec => Sys2Proof.Machine.execOpsecPersist sec s
  | .pwrDomainReset sess key d => Sys2Proof.Machine.execPwrDomainReset sess key d s
  | .domainResetDone => Sys2Proof.Machine.execDomainResetDone s
  | .pwrDomainHoldWrite who mask => Sys2Proof.Machine.execPwrDomainHoldWrite who mask s
  | .hungAccessTimeout sess => Sys2Proof.Machine.execHungAccessTimeout sess s
  | .watchdogService => Sys2Proof.Machine.execWatchdogService s
  | .watchdogExpiry => Sys2Proof.Machine.execWatchdogExpiry s
  | .thermalReducedEntry => Sys2Proof.Machine.execThermalReducedEntry s
  | .thermalDwellExpiry hot => Sys2Proof.Machine.execThermalDwellExpiry hot s
  | .thermalTrip => Sys2Proof.Machine.execThermalTrip s
  | .tick ain mot upsets => Sys2Proof.Machine.execTick ain mot upsets s
  | .engineHaltTimeout => Sys2Proof.Machine.execEngineHaltTimeout s
  | .manifestBegin sess tag kind len => Sys2Proof.Machine.execManifestBegin sess tag kind len s
  | .manifestChunk sess tag off data => Sys2Proof.Machine.execManifestChunk sess tag off data s
  | .manifestCommit sess tag => Sys2Proof.Machine.execManifestCommit sess tag s
  | .manifestVerifyDone nvmOk => Sys2Proof.Machine.execManifestVerifyDone nvmOk s
  | .patchCommit sess tag target => Sys2Proof.Machine.execPatchCommit sess tag target s
  | .patchPersistDone nvmOk => Sys2Proof.Machine.execPatchPersistDone nvmOk s
  | .patchBoundary => Sys2Proof.Machine.execPatchBoundary s
  | .abortStage sess key => Sys2Proof.Machine.execAbortStage sess key s
  | .abortPatch sess key => Sys2Proof.Machine.execAbortPatch sess key s
  | .helmConnect port => Sys2Proof.Machine.execHelmConnect port s
  | .tlsHandshakeTimeout sess => Sys2Proof.Machine.execTlsHandshakeTimeout sess s
  | .sessionIdleTimeout sess => Sys2Proof.Machine.execSessionIdleTimeout sess s
  | .helmDisconnect sess => Sys2Proof.Machine.execHelmDisconnect sess s
  | .read sess tag addr count => Sys2Proof.Machine.execRead sess tag addr count s
  | .write sess tag addr values => Sys2Proof.Machine.execWrite sess tag addr values s
  | .readModifyWrite sess tag addr mask value => Sys2Proof.Machine.execReadModifyWrite sess tag addr mask value s
  | .bulkRead sess tag addr len => Sys2Proof.Machine.execBulkRead sess tag addr len s
  | .queuePush sess tag q entry => Sys2Proof.Machine.execQueuePush sess tag q entry s
  | .queueAck sess tag q seq => Sys2Proof.Machine.execQueueAck sess tag q seq s
  | .fence sess tag q scope timeout => Sys2Proof.Machine.execFence sess tag q scope timeout s
  | .subscribe sess tag q mode => Sys2Proof.Machine.execSubscribe sess tag q mode s
  | .sessionRole sess tag mask => Sys2Proof.Machine.execSessionRole sess tag mask s
  | .restoreLearned sess tag plant gen flags off data => Sys2Proof.Machine.execRestoreLearned sess tag plant gen flags off data s
  | .badTypeMessage sess header payload => Sys2Proof.Machine.execBadTypeMessage sess header payload s
  | .oversizeMessage sess len => Sys2Proof.Machine.execOversizeMessage sess len s
  | .commandStart => Sys2Proof.Machine.execCommandStart s
  | .commandPromotion q id => Sys2Proof.Machine.execCommandPromotion q id s
  | .fenceComplete id => Sys2Proof.Machine.execFenceComplete id s
  | .fenceTimeout id undrained => Sys2Proof.Machine.execFenceTimeout id undrained s
  | .eventSend sess q => Sys2Proof.Machine.execEventSend sess q s
  | .closeSession sess key target => Sys2Proof.Machine.execCloseSession sess key target s
  | .releaseOwner sess key q => Sys2Proof.Machine.execReleaseOwner sess key q s
  | .standingRefresh => Sys2Proof.Machine.execStandingRefresh s
  | .partnerSilenceTimeout kind a b => Sys2Proof.Machine.execPartnerSilenceTimeout kind a b s
  | .hopTrained n hop endB genA genB => Sys2Proof.Machine.execHopTrained n hop endB genA genB s
  | .hopErrorFallback n hop => Sys2Proof.Machine.execHopErrorFallback n hop s
  | .hopDown n endB => Sys2Proof.Machine.execHopDown n endB s
  | .linkFaultReceived n berth towardB => Sys2Proof.Machine.execLinkFaultReceived n berth towardB s
  | .ringHeal n hop => Sys2Proof.Machine.execRingHeal n hop s
  | .presenceTimer n => Sys2Proof.Machine.execPresenceTimer n s
  | .joinDiscoveryTimer n => Sys2Proof.Machine.execJoinDiscoveryTimer n s
  | .joinResponse n endB frame => Sys2Proof.Machine.execJoinResponse n endB frame s
  | .authResponse n endB frame => Sys2Proof.Machine.execAuthResponse n endB frame s
  | .authTimeout n berth => Sys2Proof.Machine.execAuthTimeout n berth s
  | .periodicChallenge n berth => Sys2Proof.Machine.execPeriodicChallenge n berth s
  | .sweepDue n berth => Sys2Proof.Machine.execSweepDue n berth s
  | .sweepPromotion n berth => Sys2Proof.Machine.execSweepPromotion n berth s
  | .sampleReport n endB frame => Sys2Proof.Machine.execSampleReport n endB frame s
  | .unsolicitedReport n endB frame => Sys2Proof.Machine.execUnsolicitedReport n endB frame s
  | .hawserResponse n endB frame => Sys2Proof.Machine.execHawserResponse n endB frame s
  | .transactionTimeout tag => Sys2Proof.Machine.execTransactionTimeout tag s
  | .nodeLost n berth => Sys2Proof.Machine.execNodeLost n berth s
  | .nodeLeave n endB frame => Sys2Proof.Machine.execNodeLeave n endB frame s
  | .ringSleep q => Sys2Proof.Machine.execRingSleep q s
  | .sleepProposeResponse n endB frame => Sys2Proof.Machine.execSleepProposeResponse n endB frame s
  | .sleepAnswerTimeout n => Sys2Proof.Machine.execSleepAnswerTimeout n s
  | .wakeTone n => Sys2Proof.Machine.execWakeTone n s
  | .ringWake q => Sys2Proof.Machine.execRingWake q s
  | .nodeRead q => Sys2Proof.Machine.execNodeRead q s
  | .nodeWrite q => Sys2Proof.Machine.execNodeWrite q s
  | .rediscover q wait => Sys2Proof.Machine.execRediscover q wait s
  | .reauthenticate q => Sys2Proof.Machine.execReauthenticate q s
  | .retrain sess key n => Sys2Proof.Machine.execRetrain sess key n s
  | .xngClearCounters sess key n => Sys2Proof.Machine.execXngClearCounters sess key n s
  | .sweepApply wrong redo retryFails => Sys2Proof.Machine.execSweepApply wrong redo retryFails s
  | .restComplete j => Sys2Proof.Machine.execRestComplete j s
  | .rollupPublish => Sys2Proof.Machine.execRollupPublish s
  | .checkpointInterval => Sys2Proof.Machine.execCheckpointInterval s
  | .checkpointDone ok => Sys2Proof.Machine.execCheckpointDone ok s
  | .checkpointRetry => Sys2Proof.Machine.execCheckpointRetry s
  | .freezeExpiry j => Sys2Proof.Machine.execFreezeExpiry j s
  | .checkpoint q => Sys2Proof.Machine.execCheckpoint q s
  | .stringFigures q => Sys2Proof.Machine.execStringFigures q s
  | .reinitialise q => Sys2Proof.Machine.execReinitialise q s
  | .resetLearned q => Sys2Proof.Machine.execResetLearned q s
  | .clearShort q => Sys2Proof.Machine.execClearShort q s
  | .estClearCounters sess key => Sys2Proof.Machine.execEstClearCounters sess key s
  | .abortRestore sess key => Sys2Proof.Machine.execAbortRestore sess key s
  | .orderlyOpenTimeout j => Sys2Proof.Machine.execOrderlyOpenTimeout j s
  | .stringCloseStart j => Sys2Proof.Machine.execStringCloseStart j s
  | .stringClosingTimeout j => Sys2Proof.Machine.execStringClosingTimeout j s
  | .containerClosingTimeout c => Sys2Proof.Machine.execContainerClosingTimeout c s
  | .containerCurrentRead c => Sys2Proof.Machine.execContainerCurrentRead c s
  | .branchCurrentRead c => Sys2Proof.Machine.execBranchCurrentRead c s
  | .containerStatusRead c => Sys2Proof.Machine.execContainerStatusRead c s
  | .overcurrentBlockExpiry j charge => Sys2Proof.Machine.execOvercurrentBlockExpiry j charge s
  | .balanceCycle => Sys2Proof.Machine.execBalanceCycle s
  | .thermalSetpointCycle => Sys2Proof.Machine.execThermalSetpointCycle s
  | .thermalFaultBlockEnd c => Sys2Proof.Machine.execThermalFaultBlockEnd c s
  | .stringClose q => Sys2Proof.Machine.execStringClose q s
  | .stringOpen q => Sys2Proof.Machine.execStringOpen q s
  | .containerClose q => Sys2Proof.Machine.execContainerClose q s
  | .containerOpen q => Sys2Proof.Machine.execContainerOpen q s
  | .resetTrip q => Sys2Proof.Machine.execResetTrip q s
  | .thermalMode q => Sys2Proof.Machine.execThermalMode q s
  | .pltProtClearCounters sess key => Sys2Proof.Machine.execPltProtClearCounters sess key s
  | .dispatchCycle => Sys2Proof.Machine.execDispatchCycle s
  | .sourceFault src => Sys2Proof.Machine.execSourceFault src s
  | .sourceRestore => Sys2Proof.Machine.execSourceRestore s
  | .sourceSelectWrite sess code => Sys2Proof.Machine.execSourceSelectWrite sess code s
  | .pcsStatusDatagram dg => Sys2Proof.Machine.execPcsStatusDatagram dg s
  | .pcsLostTimeout p => Sys2Proof.Machine.execPcsLostTimeout p s
  | .mainsLostConfirm units => Sys2Proof.Machine.execMainsLostConfirm units s
  | .mainsPresentConfirm => Sys2Proof.Machine.execMainsPresentConfirm s
  | .fireAlarmActive => Sys2Proof.Machine.execFireAlarmActive s
  | .fireAlarmHoldExpiry => Sys2Proof.Machine.execFireAlarmHoldExpiry s
  | .billingIntervalClose => Sys2Proof.Machine.execBillingIntervalClose s
  | .billingPersist => Sys2Proof.Machine.execBillingPersist s
  | .scheduleAdd q => Sys2Proof.Machine.execScheduleAdd q s
  | .scheduleClear q => Sys2Proof.Machine.execScheduleClear q s
  | .billingRead q => Sys2Proof.Machine.execBillingRead q s
  | .pltDispClearCounters sess key => Sys2Proof.Machine.execPltDispClearCounters sess key s
  | .returnToSource sess key => Sys2Proof.Machine.execReturnToSource sess key s
  | .loopSigWrite sess value => Sys2Proof.Machine.execLoopSigWrite sess value s
  | .setSignals q => Sys2Proof.Machine.execSetSignals q s
  | .restartSlot q => Sys2Proof.Machine.execRestartSlot q s
  | .loopClearCounters sess key => Sys2Proof.Machine.execLoopClearCounters sess key s
  | .syncArm sess key => Sys2Proof.Machine.execSyncArm sess key s
  | .syncDisarm sess key => Sys2Proof.Machine.execSyncDisarm sess key s
  | .syncEdge cycle => Sys2Proof.Machine.execSyncEdge cycle s
  | .syncLateLimit => Sys2Proof.Machine.execSyncLateLimit s
  | .pwmFaultInput j active => Sys2Proof.Machine.execPwmFaultInput j active s
  | .pwmFaultLatchClear sess value => Sys2Proof.Machine.execPwmFaultLatchClear sess value s
  | .pwmClearCounters sess key => Sys2Proof.Machine.execPwmClearCounters sess key s
  | .groupDispatchCycle => Sys2Proof.Machine.execGroupDispatchCycle s
  | .fixturePress f button down => Sys2Proof.Machine.execFixturePress f button down s
  | .fixtureDestination f dest ent flags => Sys2Proof.Machine.execFixtureDestination f dest ent flags s
  | .fixtureKey f key on => Sys2Proof.Machine.execFixtureKey f key on s
  | .fixtureHeartbeat f status => Sys2Proof.Machine.execFixtureHeartbeat f status s
  | .fixtureLost f => Sys2Proof.Machine.execFixtureLost f s
  | .buttonStuck f button => Sys2Proof.Machine.execButtonStuck f button s
  | .indicateRefresh => Sys2Proof.Machine.execIndicateRefresh s
  | .refusedLampTimeout j => Sys2Proof.Machine.execRefusedLampTimeout j s
  | .parkingDelayExpiry c => Sys2Proof.Machine.execParkingDelayExpiry c s
  | .evacuationDwellExpiry c => Sys2Proof.Machine.execEvacuationDwellExpiry c s
  | .hostCall q => Sys2Proof.Machine.execHostCall q s
  | .cancelCall q => Sys2Proof.Machine.execCancelCall q s
  | .carService q => Sys2Proof.Machine.execCarService q s
  | .evacCall q => Sys2Proof.Machine.execEvacCall q s
  | .callRead q => Sys2Proof.Machine.execCallRead q s
  | .grpClearCounters sess key => Sys2Proof.Machine.execGrpClearCounters sess key s
  | .ssiRead c frame stamp back => Sys2Proof.Machine.execSsiRead c frame stamp back s
  | .latchEdge c src falling stamp back => Sys2Proof.Machine.execLatchEdge c src falling stamp back s
  | .motorSourceFault c => Sys2Proof.Machine.execMotorSourceFault c s
  | .targetWrite c l e => Sys2Proof.Machine.execTargetWrite c l e s
  | .tractionStatusFrame c data => Sys2Proof.Machine.execTractionStatusFrame c data s
  | .tractionDriveLost c => Sys2Proof.Machine.execTractionDriveLost c s
  | .tractionGlideFrame => Sys2Proof.Machine.execTractionGlideFrame s
  | .brakeLiftTimeout c => Sys2Proof.Machine.execBrakeLiftTimeout c s
  | .levellingTimeout c => Sys2Proof.Machine.execLevellingTimeout c s
  | .relevellingTimeout c => Sys2Proof.Machine.execRelevellingTimeout c s
  | .finalLimitInput c top active => Sys2Proof.Machine.execFinalLimitInput c top active s
  | .terminalSlowdownInput c e active => Sys2Proof.Machine.execTerminalSlowdownInput c e active s
  | .stopCar q => Sys2Proof.Machine.execStopCar q s
  | .correctionRun q => Sys2Proof.Machine.execCorrectionRun q s
  | .carClearCounters sess key c => Sys2Proof.Machine.execCarClearCounters sess key c s
  | .posClearCounters sess key c => Sys2Proof.Machine.execPosClearCounters sess key c s
  | .clearFault sess key c motorOk tapeOk => Sys2Proof.Machine.execClearFault sess key c motorOk tapeOk s
  | .doorStatusFrame d data => Sys2Proof.Machine.execDoorStatusFrame d data s
  | .doorDriveLost d => Sys2Proof.Machine.execDoorDriveLost d s
  | .obstructionResume d => Sys2Proof.Machine.execObstructionResume d s
  | .doorDwellExpiry d => Sys2Proof.Machine.execDoorDwellExpiry d s
  | .lockTimeout d => Sys2Proof.Machine.execLockTimeout d s
  | .referencingTimeout d => Sys2Proof.Machine.execReferencingTimeout d s
  | .nudgeTimeExpiry d => Sys2Proof.Machine.execNudgeTimeExpiry d s
  | .doorLimitInput d top active => Sys2Proof.Machine.execDoorLimitInput d top active s
  | .doorOpen q => Sys2Proof.Machine.execDoorOpen q s
  | .doorClose q => Sys2Proof.Machine.execDoorClose q s
  | .doorStop q => Sys2Proof.Machine.execDoorStop q s
  | .doorReference q => Sys2Proof.Machine.execDoorReference q s
  | .doorHoldOpen q => Sys2Proof.Machine.execDoorHoldOpen q s
  | .doorClearCounters sess key d => Sys2Proof.Machine.execDoorClearCounters sess key d s
  | .clearEnvelope sess key d => Sys2Proof.Machine.execClearEnvelope sess key d s
  | .safetyInputChange j high => Sys2Proof.Machine.execSafetyInputChange j high s
  | .testPulse src high => Sys2Proof.Machine.execTestPulse src high s
  | .inputDiscrepancyTimeout n => Sys2Proof.Machine.execInputDiscrepancyTimeout n s
  | .runRequestToggle n => Sys2Proof.Machine.execRunRequestToggle n s
  | .runRequestLost n => Sys2Proof.Machine.execRunRequestLost n s
  | .edmTimeout n => Sys2Proof.Machine.execEdmTimeout n s
  | .edmChange n engaged => Sys2Proof.Machine.execEdmChange n engaged s
  | .switchTest tech n ok => Sys2Proof.Machine.execSwitchTest tech n ok s
  | .techSelftest tech ok => Sys2Proof.Machine.execTechSelftest tech ok s
  | .techHeartbeatLoss tech => Sys2Proof.Machine.execTechHeartbeatLoss tech s
  | .permitMismatch outs => Sys2Proof.Machine.execPermitMismatch outs s
  | .mismatchDiagnosticDone finding => Sys2Proof.Machine.execMismatchDiagnosticDone finding s
  | .speedLimitExceeded c mps => Sys2Proof.Machine.execSpeedLimitExceeded c mps s
  | .positionSourceFault c tape enc => Sys2Proof.Machine.execPositionSourceFault c tape enc s
  | .unintendedMovement c moved => Sys2Proof.Machine.execUnintendedMovement c moved s
  | .snowploughTimeout c => Sys2Proof.Machine.execSnowploughTimeout c s
  | .safetyConfirm sess key => Sys2Proof.Machine.execSafetyConfirm sess key s
  | .confirmLockoutExpiry => Sys2Proof.Machine.execConfirmLockoutExpiry s
  | .resetFunction sess key fn => Sys2Proof.Machine.execResetFunction sess key fn s
  | .repairAck sess key c srcOk edmOk => Sys2Proof.Machine.execRepairAck sess key c srcOk edmOk s
  | .safClearCounters sess key => Sys2Proof.Machine.execSafClearCounters sess key s
  | .safetyDataFrame slot data => Sys2Proof.Machine.execSafetyDataFrame slot data s
  | .safetyEchoFrame slot data => Sys2Proof.Machine.execSafetyEchoFrame slot data s
  | .safetyProductionPeriod slot => Sys2Proof.Machine.execSafetyProductionPeriod slot s
  | .consumerWatchdogExpiry slot => Sys2Proof.Machine.execConsumerWatchdogExpiry slot s
  | .echoLateTimeout slot => Sys2Proof.Machine.execEchoLateTimeout slot s
  | .failSafeHoldExpiry slot => Sys2Proof.Machine.execFailSafeHoldExpiry slot s
  | .connectionRead q => Sys2Proof.Machine.execConnectionRead q s
  | .fieldLinkFrame raw lplus sums outMa inCur => Sys2Proof.Machine.execFieldLinkFrame raw lplus sums outMa inCur s
  | .fieldLinkLost => Sys2Proof.Machine.execFieldLinkLost s
  | .fieldLinkResume => Sys2Proof.Machine.execFieldLinkResume s
  | .fieldInputChange j high => Sys2Proof.Machine.execFieldInputChange j high s
  | .wireBreak j => Sys2Proof.Machine.execWireBreak j s
  | .wireRestored j => Sys2Proof.Machine.execWireRestored j s
  | .lplusLow k => Sys2Proof.Machine.execLplusLow k s
  | .lplusRestored k => Sys2Proof.Machine.execLplusRestored k s
  | .outputShort n => Sys2Proof.Machine.execOutputShort n s
  | .outputOverload n => Sys2Proof.Machine.execOutputOverload n s
  | .outputThermal n => Sys2Proof.Machine.execOutputThermal n s
  | .outputRetry n => Sys2Proof.Machine.execOutputRetry n s
  | .groupOverload k ma => Sys2Proof.Machine.execGroupOverload k ma s
  | .demagComplete n j => Sys2Proof.Machine.execDemagComplete n j s
  | .demagHoldEnd n => Sys2Proof.Machine.execDemagHoldEnd n s
  | .openLoad n => Sys2Proof.Machine.execOpenLoad n s
  | .outputSilenceTimeout n => Sys2Proof.Machine.execOutputSilenceTimeout n s
  | .firmwareOutputRefresh => Sys2Proof.Machine.execFirmwareOutputRefresh s
  | .fioOutSetWrite sess mask => Sys2Proof.Machine.execFioOutSetWrite sess mask s
  | .fioOutClearWrite sess mask => Sys2Proof.Machine.execFioOutClearWrite sess mask s
  | .outputLatchClear sess mask => Sys2Proof.Machine.execOutputLatchClear sess mask s
  | .outputReset q => Sys2Proof.Machine.execOutputReset q s
  | .fioClearCounters sess key => Sys2Proof.Machine.execFioClearCounters sess key s
  | .canFrameReceived b id fmt flags data stamp => Sys2Proof.Machine.execCanFrameReceived b id fmt flags data stamp s
  | .canFrameSent b outcome lat tdc => Sys2Proof.Machine.execCanFrameSent b outcome lat tdc s
  | .mbcRxAckWrite sess b seq => Sys2Proof.Machine.execMbcRxAckWrite sess b seq s
  | .canTx q => Sys2Proof.Machine.execCanTx q s
  | .canTxCancel q => Sys2Proof.Machine.execCanTxCancel q s
  | .busSleep q => Sys2Proof.Machine.execBusSleep q s
  | .busSleepCommitTimer b => Sys2Proof.Machine.execBusSleepCommitTimer b s
  | .sleepObjection b id => Sys2Proof.Machine.execSleepObjection b id s
  | .canWakePattern b => Sys2Proof.Machine.execCanWakePattern b s
  | .busWake q => Sys2Proof.Machine.execBusWake q s
  | .busRecover q => Sys2Proof.Machine.execBusRecover q s
  | .busOff b => Sys2Proof.Machine.execBusOff b s
  | .busOffRecovered b => Sys2Proof.Machine.execBusOffRecovered b s
  | .mbcClearCounters sess key b => Sys2Proof.Machine.execMbcClearCounters sess key b s
  | .restrict sess key b => Sys2Proof.Machine.execRestrict sess key b s
  | .unrestrict sess key b => Sys2Proof.Machine.execUnrestrict sess key b s
  | .inhibitRecovery sess key b => Sys2Proof.Machine.execInhibitRecovery sess key b s
  | .allowRecovery sess key b => Sys2Proof.Machine.execAllowRecovery sess key b s
  | .standingAck b k seq status gen => Sys2Proof.Machine.execStandingAck b k seq status gen s
  | .standingRetry b k => Sys2Proof.Machine.execStandingRetry b k s
  | .referenceMessageTimer b => Sys2Proof.Machine.execReferenceMessageTimer b s
  | .serialPoll l bad => Sys2Proof.Machine.execSerialPoll l bad s
  | .serialReply l data framing => Sys2Proof.Machine.execSerialReply l data framing s
  | .serialPollTimeout l => Sys2Proof.Machine.execSerialPollTimeout l s
  | .serClearCounters sess key l => Sys2Proof.Machine.execSerClearCounters sess key l s
  | .prpSupervision => Sys2Proof.Machine.execPrpSupervision s
  | .prpLanTimeout lan => Sys2Proof.Machine.execPrpLanTimeout lan s
  | .ptpSyncReceived p offset delay => Sys2Proof.Machine.execPtpSyncReceived p offset delay s
  | .plantTimeLock time => Sys2Proof.Machine.execPlantTimeLock time s
  | .plantTimeHoldover => Sys2Proof.Machine.execPlantTimeHoldover s
  | .ptpSyncSend p => Sys2Proof.Machine.execPtpSyncSend p s
  | .ptpDelayReq p who seq => Sys2Proof.Machine.execPtpDelayReq p who seq s
  | .modbusRequest p client pdu => Sys2Proof.Machine.execModbusRequest p client pdu s
  | .modbusWrite p client pdu => Sys2Proof.Machine.execModbusWrite p client pdu s
  | .ethLinkChange p speed sfp sfpFault => Sys2Proof.Machine.execEthLinkChange p speed sfp sfpFault s
  | .addressConflict p => Sys2Proof.Machine.execAddressConflict p s
  | .unservedFrame p => Sys2Proof.Machine.execUnservedFrame p s
  | .netClearCounters sess key => Sys2Proof.Machine.execNetClearCounters sess key s
  | .acqSample b codes stamp => Sys2Proof.Machine.execAcqSample b codes stamp s
  | .acqAutoTimeout b => Sys2Proof.Machine.execAcqAutoTimeout b s
  | .acqMeasureDone seq => Sys2Proof.Machine.execAcqMeasureDone seq s
  | .arm q => Sys2Proof.Machine.execArm q s
  | .disarm q => Sys2Proof.Machine.execDisarm q s
  | .forceTrigger q => Sys2Proof.Machine.execForceTrigger q s
  | .release q => Sys2Proof.Machine.execRelease q s
  | .measureRead q => Sys2Proof.Machine.execMeasureRead q s
  | .acqClearCounters sess key => Sys2Proof.Machine.execAcqClearCounters sess key s
  | .appendCheckpoint => Sys2Proof.Machine.execAppendCheckpoint s
  | .exportCmd q => Sys2Proof.Machine.execExportCmd q s
  | .exportStreamResume => Sys2Proof.Machine.execExportStreamResume s
  | .exportStop q => Sys2Proof.Machine.execExportStop q s
  | .clearLog q => Sys2Proof.Machine.execClearLog q s
  | .clearCommit => Sys2Proof.Machine.execClearCommit s
  | .zeroingDone => Sys2Proof.Machine.execZeroingDone s
  | .returnPrepare q => Sys2Proof.Machine.execReturnPrepare q s
  | .returnPrepareExpiry => Sys2Proof.Machine.execReturnPrepareExpiry s
  | .returnCommit q => Sys2Proof.Machine.execReturnCommit q s
  | .clearTrace sess key => Sys2Proof.Machine.execClearTrace sess key s
  | .traceSync => Sys2Proof.Machine.execTraceSync s
  | .provision q => Sys2Proof.Machine.execProvision q s
  | .seal q => Sys2Proof.Machine.execSeal q s
  | .resetCommissioning q => Sys2Proof.Machine.execResetCommissioning q s
  | .keyUpdate q => Sys2Proof.Machine.execKeyUpdate q s
  | .revoke q => Sys2Proof.Machine.execRevoke q s
  | .debugOpen q => Sys2Proof.Machine.execDebugOpen q s
  | .debugClose q => Sys2Proof.Machine.execDebugClose q s
  | .debugExpiryCheck => Sys2Proof.Machine.execDebugExpiryCheck s
  | .enrolNode q => Sys2Proof.Machine.execEnrolNode q s
  | .readNodeRequest q => Sys2Proof.Machine.execReadNodeRequest q s
  | .firmwareUpdate q => Sys2Proof.Machine.execFirmwareUpdate q s
  | .secClearCounters sess key => Sys2Proof.Machine.execSecClearCounters sess key s
  | .stageIndexWrite sess v => Sys2Proof.Machine.execStageIndexWrite sess v s
  | .stageDataAccess sess write v => Sys2Proof.Machine.execStageDataAccess sess write v s
  | .tamperTrip m => Sys2Proof.Machine.execTamperTrip m s
  | .tamperResetRelease => Sys2Proof.Machine.execTamperResetRelease s
  | .dbgHaltRequestWrite sess v => Sys2Proof.Machine.execDbgHaltRequestWrite sess v s
  | .coreHaltEffective k => Sys2Proof.Machine.execCoreHaltEffective k s
  | .haltDeferralEnd => Sys2Proof.Machine.execHaltDeferralEnd s
  | .dbgMemAccess sess write v => Sys2Proof.Machine.execDbgMemAccess sess write v s
  | .siteTagWrite sess k v => Sys2Proof.Machine.execSiteTagWrite sess k v s
  | .edmResponse n engaged ms => Sys2Proof.Machine.execEdmResponse n engaged ms s
  | .oscillatorOrSupplyMonitorTrip tech => Sys2Proof.Machine.execOscillatorOrSupplyMonitorTrip tech s
  | .canErrorDetected b kind data tx major => Sys2Proof.Machine.execCanErrorDetected b kind data tx major s
  | .ptpAnnounceReceived p domain prio1 cls acc var prio2 ident steps => Sys2Proof.Machine.execPtpAnnounceReceived p domain prio1 cls acc var prio2 ident steps s
  | .modbusConnection p opens => Sys2Proof.Machine.execModbusConnection p opens s
  | .rngHealthTestFailure => Sys2Proof.Machine.execRngHealthTestFailure s
  | .breakpointHit k b => Sys2Proof.Machine.execBreakpointHit k b s
  | .mainInputGood b => Sys2Proof.Machine.execMainInputGood b s
  | .tlsHandshakeComplete sess certRoles serial chain chainOk keyOk selfOk notBefore notAfter offer => Sys2Proof.Machine.execTlsHandshakeComplete sess certRoles serial chain chainOk keyOk selfOk notBefore notAfter offer s

end Sys2Proof.Machine
end

