-- ==== Sys2Proof/Machine/Step.lean ====
section
/-!
DEFINITION. One step of the Turid: the command at the front of the queue is taken and given its effect; with an empty
queue the Turid idles (log 1).
-/
namespace Sys2Proof.Machine
open Sys2Proof

/-- Take the command at the front of the queue and run it on the state that holds the queue's rest. -/
def step (s : State) : Host.Outcome State Fault Refusal :=
  match s.pending with
  | [] => .next s
  | c :: rest => exec c { s with pending := rest }

/-- The state with the command that a word of the table spells put at the front of its queue. The table of this block
gives its rows no bits, so no word spells one and the state stays. -/
def State.withFetchWord (s : State) (nbits w : Nat) : State :=
  match decodeTableWord nbits w with
  | some c => { s with pending := c :: s.pending }
  | none => s

end Sys2Proof.Machine
end

