-- ==== Sys2Proof/WellFormed.lean ====
section
/-!
DEFINITION. Which commands are well formed: every operand lies in the range that its field or its numbering has.
-/
namespace Sys2Proof

/-! ## The ranges of operands -/

/-- A Helm session (R152). -/
def isSession (n : Nat) : Bool := decide (n < 8)
/-- A Helm session, or 8 for the firmware (R7). -/
def isWho (n : Nat) : Bool := decide (n < 9)
/-- The KEY field of a control register (R7). -/
def isKey (n : Nat) : Bool := decide (n < 256)
/-- A command or event queue (R173, R182). -/
def isQueue (n : Nat) : Bool := decide (n < 4)
/-- The tag of a request (R157). -/
def isTag (n : Nat) : Bool := decide (n < 2 ^ 32)
/-- A word address of 40 bits (R162). -/
def isAddr (n : Nat) : Bool := decide (n < 2 ^ 40) && n % 4 == 0
/-- An address as a message carries it (R162). -/
def isAnyAddr (n : Nat) : Bool := decide (n < 2 ^ 40)
/-- A crossing (R194). -/
def isRing (n : Nat) : Bool := decide (n < 16)
/-- A berth, or an end of a crossing (R197). -/
def isBerth (n : Nat) : Bool := decide (n < 512)
/-- A string index (R52). -/
def isString (n : Nat) : Bool := decide (n < 4096)
/-- A container (R52). -/
def isContainer (n : Nat) : Bool := decide (n < 256)
/-- A car or its position channel (R437). -/
def isCar (n : Nat) : Bool := decide (n < 8)
/-- A door (R489). -/
def isDoor (n : Nat) : Bool := decide (n < 16)
/-- A clock domain (R133). -/
def isDomain (n : Nat) : Bool := decide (n < 16)
/-- A CAN bus (R587). -/
def isBus (n : Nat) : Bool := decide (n < 12)
/-- A drive of a bus (R590). -/
def isDrive (n : Nat) : Bool := decide (n < 8)
/-- An RS-485 line (R602). -/
def isLine (n : Nat) : Bool := decide (n < 4)
/-- An Ethernet port, 0 J2 to 3 J5 (R606). -/
def isPort (n : Nat) : Bool := decide (n < 4)
/-- A PCS unit (R340). -/
def isPcs (n : Nat) : Bool := decide (n < 64)
/-- An acquisition buffer (R624). -/
def isBuffer (n : Nat) : Bool := decide (n < 64)
/-- A safety output, 3 for each car (R514). -/
def isSafOutput (n : Nat) : Bool := decide (n < 24)
/-- A safety input, or the key switch (R517). -/
def isSafInput (n : Nat) : Bool := decide (n < 33)
/-- A safety technology (R513), a LAN of PRP (R609) or an entrance (R489). -/
def isTech (n : Nat) : Bool := decide (n < 2)
/-- A safety connection slot (R549). -/
def isConn (n : Nat) : Bool := decide (n < 256)
/-- A field input (R567). -/
def isFieldInput (n : Nat) : Bool := decide (n < 64)
/-- A field output (R567). -/
def isFieldOutput (n : Nat) : Bool := decide (n < 32)
/-- A fixture (R413). -/
def isFixture (n : Nat) : Bool := decide (n < 1024)
/-- A landing (R409). -/
def isLanding (n : Nat) : Bool := decide (n < 128)
/-- A test-pulse source (R518), a fault input of the PWM unit (R402), a field supply group (R575), a breakpoint (R680) or a site tag (R672). -/
def isPulse (n : Nat) : Bool := decide (n < 4)
/-- An application core (R680). -/
def isCore (n : Nat) : Bool := decide (n < 10)
/-- A tamper source (R682). -/
def isTamper (n : Nat) : Bool := decide (n < 8)
/-- A field of one byte. -/
def isByte (n : Nat) : Bool := decide (n < 2 ^ 8)
/-- A field of two bytes. -/
def isHalf (n : Nat) : Bool := decide (n < 2 ^ 16)
/-- A field of four bytes. -/
def isWord (n : Nat) : Bool := decide (n < 2 ^ 32)
/-- A field of eight bytes. -/
def isLong (n : Nat) : Bool := decide (n < 2 ^ 64)
/-- A certificate serial number (R673). -/
def isSerial (n : Nat) : Bool := decide (n < 2 ^ 160)
/-- Milliseconds of a second (R127). -/
def isMilli (n : Nat) : Bool := decide (n < 1000)
/-- A wake source (R120). -/
def isWake (n : Nat) : Bool := decide (n < 7)
/-- A generation of a hop (R195, R197). -/
def isGen (n : Nat) : Bool := decide (0 < n) && decide (n < 3)
/-- A port that may carry Helm: 0 to 3 are J2 to J5, 4 is J21 (R152). -/
def isHelmPort (n : Nat) : Bool := decide (n < 5)
/-- A kind of partner (R25): 0 node, 1 PCS unit, 2 drive, 3 fixture, 4 remote safety I/O unit. -/
def isPartner (n : Nat) : Bool := decide (n < 5)
/-- A cycle of a tick, up to the late limit (R394). -/
def isEdge (n : Nat) : Bool := decide (n < 31501)

/-- Every operand is in range. -/
def Instr.wellFormed : Instr → Bool
  | .registerWrite who addr _ => isWho who && isAddr addr
  | .rcRegisterRead who addr => isWho who && isAddr addr
  | .counterLowWordRead sess addr => isSession sess && isAddr addr
  | .counterHighWordWrite sess addr _ => isSession sess && isAddr addr
  | .opMsRead sess => isSession sess
  | .powerGood _ _ _ sec msec ms => isWord sec && isMilli msec && isMilli ms
  | .bootComplete _ => true
  | .bootVerifyFailed => true
  | .safetySelftestDone _ _ => true
  | .manifestStageDone _ => true
  | .selfTestDone cores lanes dram xng pos mbc ser _ _ nvm _ => isByte cores && isByte lanes && isByte dram && isHalf xng && isByte pos && isHalf mbc && isByte ser && isByte nvm
  | .learnedRestoreDone => true
  | .partnersDone => true
  | .partnerAbsentTimeout kind a b => isPartner kind && isHalf a && isHalf b
  | .stageTimeout => true
  | .startTimeout => true
  | .startHoldElapsed => true
  | .holdRepeatTimer => true
  | .hostReset sess key => isSession sess && isKey key
  | .attemptStart sess key => isSession sess && isKey key
  | .brownOut => true
  | .firmwareFatal => true
  | .firmwareCommit sess tag _ version floor => isSession sess && isTag tag && isWord version && isWord floor
  | .glideDwellExpiry => true
  | .pllLocked => true
  | .enterBerth sess key => isSession sess && isKey key
  | .cancelBerth sess key => isSession sess && isKey key
  | .berthEntryComplete => true
  | .mainInputLost _ => true
  | .bothMainsLost _ => true
  | .bkpDepleted _ => true
  | .wakeSourceEvent n sec ms => isWake n && isWord sec && isMilli ms
  | .berthWake => true
  | .opsecPersist sec => isWord sec
  | .pwrDomainReset sess key d => isSession sess && isKey key && isDomain d
  | .domainResetDone => true
  | .pwrDomainHoldWrite who mask => isWho who && isWord mask
  | .hungAccessTimeout sess => isSession sess
  | .watchdogService => true
  | .watchdogExpiry => true
  | .thermalReducedEntry => true
  | .thermalDwellExpiry _ => true
  | .thermalTrip => true
  | .tick _ _ _ => true
  | .engineHaltTimeout => true
  | .manifestBegin sess tag kind len => isSession sess && isTag tag && isByte kind && isWord len
  | .manifestChunk sess tag off _ => isSession sess && isTag tag && isWord off
  | .manifestCommit sess tag => isSession sess && isTag tag
  | .manifestVerifyDone _ => true
  | .patchCommit sess tag target => isSession sess && isTag tag && isLong target
  | .patchPersistDone _ => true
  | .patchBoundary => true
  | .abortStage sess key => isSession sess && isKey key
  | .abortPatch sess key => isSession sess && isKey key
  | .helmConnect port => isHelmPort port
  | .tlsHandshakeTimeout sess => isSession sess
  | .sessionIdleTimeout sess => isSession sess
  | .helmDisconnect sess => isSession sess
  | .read sess tag addr count => isSession sess && isTag tag && isAnyAddr addr && isHalf count
  | .write sess tag addr _ => isSession sess && isTag tag && isAnyAddr addr
  | .readModifyWrite sess tag addr _ _ => isSession sess && isTag tag && isAnyAddr addr
  | .bulkRead sess tag addr len => isSession sess && isTag tag && isAnyAddr addr && isWord len
  | .queuePush sess tag q _ => isSession sess && isTag tag && isQueue q
  | .queueAck sess tag q seq => isSession sess && isTag tag && isQueue q && isWord seq
  | .fence sess tag q scope timeout => isSession sess && isTag tag && isQueue q && isByte scope && isWord timeout
  | .subscribe sess tag q mode => isSession sess && isTag tag && isQueue q && isByte mode
  | .sessionRole sess tag mask => isSession sess && isTag tag && isByte mask
  | .restoreLearned sess tag plant gen flags off _ => isSession sess && isTag tag && isLong plant && isWord gen && isByte flags && isWord off
  | .badTypeMessage sess _ _ => isSession sess
  | .oversizeMessage sess len => isSession sess && isWord len
  | .commandStart => true
  | .commandPromotion q id => isQueue q && isLong id
  | .fenceComplete id => isLong id
  | .fenceTimeout id undrained => isLong id && isByte undrained
  | .eventSend sess q => isSession sess && isQueue q
  | .closeSession sess key target => isSession sess && isKey key && isSession target
  | .releaseOwner sess key q => isSession sess && isKey key && isQueue q
  | .standingRefresh => true
  | .partnerSilenceTimeout kind a b => isPartner kind && isHalf a && isHalf b
  | .hopTrained n hop _ genA genB => isRing n && isBerth hop && isGen genA && isGen genB
  | .hopErrorFallback n hop => isRing n && isBerth hop
  | .hopDown n _ => isRing n
  | .linkFaultReceived n berth _ => isRing n && isBerth berth
  | .ringHeal n hop => isRing n && isBerth hop
  | .presenceTimer n => isRing n
  | .joinDiscoveryTimer n => isRing n
  | .joinResponse n _ _ => isRing n
  | .authResponse n _ _ => isRing n
  | .authTimeout n berth => isRing n && isBerth berth
  | .periodicChallenge n berth => isRing n && isBerth berth
  | .sweepDue n berth => isRing n && isBerth berth
  | .sweepPromotion n berth => isRing n && isBerth berth
  | .sampleReport n _ _ => isRing n
  | .unsolicitedReport n _ _ => isRing n
  | .hawserResponse n _ _ => isRing n
  | .transactionTimeout tag => isTag tag
  | .nodeLost n berth => isRing n && isBerth berth
  | .nodeLeave n _ _ => isRing n
  | .ringSleep q => isQueue q
  | .sleepProposeResponse n _ _ => isRing n
  | .sleepAnswerTimeout n => isRing n
  | .wakeTone n => isRing n
  | .ringWake q => isQueue q
  | .nodeRead q => isQueue q
  | .nodeWrite q => isQueue q
  | .rediscover q wait => isQueue q && isWord wait
  | .reauthenticate q => isQueue q
  | .retrain sess key n => isSession sess && isKey key && isRing n
  | .xngClearCounters sess key n => isSession sess && isKey key && isRing n
  | .sweepApply _ _ _ => true
  | .restComplete i => isString i
  | .rollupPublish => true
  | .checkpointInterval => true
  | .checkpointDone _ => true
  | .checkpointRetry => true
  | .freezeExpiry i => isString i
  | .checkpoint q => isQueue q
  | .stringFigures q => isQueue q
  | .reinitialise q => isQueue q
  | .resetLearned q => isQueue q
  | .clearShort q => isQueue q
  | .estClearCounters sess key => isSession sess && isKey key
  | .abortRestore sess key => isSession sess && isKey key
  | .orderlyOpenTimeout i => isString i
  | .stringCloseStart i => isString i
  | .stringClosingTimeout i => isString i
  | .containerClosingTimeout c => isContainer c
  | .containerCurrentRead c => isContainer c
  | .branchCurrentRead c => isContainer c
  | .containerStatusRead c => isContainer c
  | .overcurrentBlockExpiry i _ => isString i
  | .balanceCycle => true
  | .thermalSetpointCycle => true
  | .thermalFaultBlockEnd c => isContainer c
  | .stringClose q => isQueue q
  | .stringOpen q => isQueue q
  | .containerClose q => isQueue q
  | .containerOpen q => isQueue q
  | .resetTrip q => isQueue q
  | .thermalMode q => isQueue q
  | .pltProtClearCounters sess key => isSession sess && isKey key
  | .dispatchCycle => true
  | .sourceFault src => isByte src
  | .sourceRestore => true
  | .sourceSelectWrite sess code => isSession sess && isWord code
  | .pcsStatusDatagram _ => true
  | .pcsLostTimeout p => isPcs p
  | .mainsLostConfirm _ => true
  | .mainsPresentConfirm => true
  | .fireAlarmActive => true
  | .fireAlarmHoldExpiry => true
  | .billingIntervalClose => true
  | .billingPersist => true
  | .scheduleAdd q => isQueue q
  | .scheduleClear q => isQueue q
  | .billingRead q => isQueue q
  | .pltDispClearCounters sess key => isSession sess && isKey key
  | .returnToSource sess key => isSession sess && isKey key
  | .loopSigWrite sess _ => isSession sess
  | .setSignals q => isQueue q
  | .restartSlot q => isQueue q
  | .loopClearCounters sess key => isSession sess && isKey key
  | .syncArm sess key => isSession sess && isKey key
  | .syncDisarm sess key => isSession sess && isKey key
  | .syncEdge cycle => isEdge cycle
  | .syncLateLimit => true
  | .pwmFaultInput i _ => isPulse i
  | .pwmFaultLatchClear sess _ => isSession sess
  | .pwmClearCounters sess key => isSession sess && isKey key
  | .groupDispatchCycle => true
  | .fixturePress f button _ => isFixture f && isByte button
  | .fixtureDestination f dest ent flags => isFixture f && isByte dest && isByte ent && isByte flags
  | .fixtureKey f key _ => isFixture f && isByte key
  | .fixtureHeartbeat f status => isFixture f && isByte status
  | .fixtureLost f => isFixture f
  | .buttonStuck f button => isFixture f && isByte button
  | .indicateRefresh => true
  | .refusedLampTimeout i => isWord i
  | .parkingDelayExpiry c => isCar c
  | .evacuationDwellExpiry c => isCar c
  | .hostCall q => isQueue q
  | .cancelCall q => isQueue q
  | .carService q => isQueue q
  | .evacCall q => isQueue q
  | .callRead q => isQueue q
  | .grpClearCounters sess key => isSession sess && isKey key
  | .ssiRead c frame stamp _ => isCar c && isLong frame && isLong stamp
  | .latchEdge c src _ stamp _ => isCar c && isDrive src && isLong stamp
  | .motorSourceFault c => isCar c
  | .targetWrite c l e => isCar c && isLanding l && isTech e
  | .tractionStatusFrame c _ => isCar c
  | .tractionDriveLost c => isCar c
  | .tractionGlideFrame => true
  | .brakeLiftTimeout c => isCar c
  | .levellingTimeout c => isCar c
  | .relevellingTimeout c => isCar c
  | .finalLimitInput c _ _ => isCar c
  | .terminalSlowdownInput c e _ => isCar c && isByte e
  | .stopCar q => isQueue q
  | .correctionRun q => isQueue q
  | .carClearCounters sess key c => isSession sess && isKey key && isCar c
  | .posClearCounters sess key c => isSession sess && isKey key && isCar c
  | .clearFault sess key c _ _ => isSession sess && isKey key && isCar c
  | .doorStatusFrame d _ => isDoor d
  | .doorDriveLost d => isDoor d
  | .obstructionResume d => isDoor d
  | .doorDwellExpiry d => isDoor d
  | .lockTimeout d => isDoor d
  | .referencingTimeout d => isDoor d
  | .nudgeTimeExpiry d => isDoor d
  | .doorLimitInput d _ _ => isDoor d
  | .doorOpen q => isQueue q
  | .doorClose q => isQueue q
  | .doorStop q => isQueue q
  | .doorReference q => isQueue q
  | .doorHoldOpen q => isQueue q
  | .doorClearCounters sess key d => isSession sess && isKey key && isDoor d
  | .clearEnvelope sess key d => isSession sess && isKey key && isDoor d
  | .safetyInputChange i _ => isSafInput i
  | .testPulse src _ => isPulse src
  | .inputDiscrepancyTimeout n => isSafInput n
  | .runRequestToggle n => isSafOutput n
  | .runRequestLost n => isSafOutput n
  | .edmTimeout n => isSafOutput n
  | .edmChange n _ => isSafOutput n
  | .switchTest tech n _ => isTech tech && isSafOutput n
  | .techSelftest tech _ => isTech tech
  | .techHeartbeatLoss tech => isTech tech
  | .permitMismatch _ => true
  | .mismatchDiagnosticDone finding => isByte finding
  | .speedLimitExceeded c _ => isCar c
  | .positionSourceFault c _ _ => isCar c
  | .unintendedMovement c _ => isCar c
  | .snowploughTimeout c => isCar c
  | .safetyConfirm sess key => isSession sess && isKey key
  | .confirmLockoutExpiry => true
  | .resetFunction sess key fn => isSession sess && isKey key && isByte fn
  | .repairAck sess key c _ _ => isSession sess && isKey key && isCar c
  | .safClearCounters sess key => isSession sess && isKey key
  | .safetyDataFrame slot _ => isConn slot
  | .safetyEchoFrame slot _ => isConn slot
  | .safetyProductionPeriod slot => isConn slot
  | .consumerWatchdogExpiry slot => isConn slot
  | .echoLateTimeout slot => isConn slot
  | .failSafeHoldExpiry slot => isConn slot
  | .connectionRead q => isQueue q
  | .fieldLinkFrame raw _ _ _ _ => isLong raw
  | .fieldLinkLost => true
  | .fieldLinkResume => true
  | .fieldInputChange i _ => isFieldInput i
  | .wireBreak i => isFieldInput i
  | .wireRestored i => isFieldInput i
  | .lplusLow k => isPulse k
  | .lplusRestored k => isPulse k
  | .outputShort n => isFieldOutput n
  | .outputOverload n => isFieldOutput n
  | .outputThermal n => isFieldOutput n
  | .outputRetry n => isFieldOutput n
  | .groupOverload k ma => isPulse k && isHalf ma
  | .demagComplete n _ => isFieldOutput n
  | .demagHoldEnd n => isFieldOutput n
  | .openLoad n => isFieldOutput n
  | .outputSilenceTimeout n => isFieldOutput n
  | .firmwareOutputRefresh => true
  | .fioOutSetWrite sess mask => isSession sess && isWord mask
  | .fioOutClearWrite sess mask => isSession sess && isWord mask
  | .outputLatchClear sess mask => isSession sess && isWord mask
  | .outputReset q => isQueue q
  | .fioClearCounters sess key => isSession sess && isKey key
  | .canFrameReceived b id fmt flags _ stamp => isBus b && isWord id && isByte fmt && isByte flags && isLong stamp
  | .canFrameSent b outcome lat tdc => isBus b && isByte outcome && isWord lat && isByte tdc
  | .mbcRxAckWrite sess b seq => isSession sess && isBus b && isWord seq
  | .canTx q => isQueue q
  | .canTxCancel q => isQueue q
  | .busSleep q => isQueue q
  | .busSleepCommitTimer b => isBus b
  | .sleepObjection b id => isBus b && isWord id
  | .canWakePattern b => isBus b
  | .busWake q => isQueue q
  | .busRecover q => isQueue q
  | .busOff b => isBus b
  | .busOffRecovered b => isBus b
  | .mbcClearCounters sess key b => isSession sess && isKey key && isBus b
  | .restrict sess key b => isSession sess && isKey key && isBus b
  | .unrestrict sess key b => isSession sess && isKey key && isBus b
  | .inhibitRecovery sess key b => isSession sess && isKey key && isBus b
  | .allowRecovery sess key b => isSession sess && isKey key && isBus b
  | .standingAck b k seq status gen => isBus b && isDrive k && isHalf seq && isByte status && isWord gen
  | .standingRetry b k => isBus b && isDrive k
  | .referenceMessageTimer b => isBus b
  | .serialPoll l _ => isLine l
  | .serialReply l _ _ => isLine l
  | .serialPollTimeout l => isLine l
  | .serClearCounters sess key l => isSession sess && isKey key && isLine l
  | .prpSupervision => true
  | .prpLanTimeout lan => isTech lan
  | .ptpSyncReceived p _ _ => isPort p
  | .plantTimeLock time => isLong time
  | .plantTimeHoldover => true
  | .ptpSyncSend p => isPort p
  | .ptpDelayReq p who seq => isPort p && isLong who && isHalf seq
  | .modbusRequest p client _ => isPort p && isWord client
  | .modbusWrite p client _ => isPort p && isWord client
  | .ethLinkChange p speed _ _ => isPort p && isByte speed
  | .addressConflict p => isPort p
  | .unservedFrame p => isPort p
  | .netClearCounters sess key => isSession sess && isKey key
  | .acqSample b _ stamp => isBuffer b && isLong stamp
  | .acqAutoTimeout b => isBuffer b
  | .acqMeasureDone seq => isWord seq
  | .arm q => isQueue q
  | .disarm q => isQueue q
  | .forceTrigger q => isQueue q
  | .release q => isQueue q
  | .measureRead q => isQueue q
  | .acqClearCounters sess key => isSession sess && isKey key
  | .appendCheckpoint => true
  | .exportCmd q => isQueue q
  | .exportStreamResume => true
  | .exportStop q => isQueue q
  | .clearLog q => isQueue q
  | .clearCommit => true
  | .zeroingDone => true
  | .returnPrepare q => isQueue q
  | .returnPrepareExpiry => true
  | .returnCommit q => isQueue q
  | .clearTrace sess key => isSession sess && isKey key
  | .traceSync => true
  | .provision q => isQueue q
  | .seal q => isQueue q
  | .resetCommissioning q => isQueue q
  | .keyUpdate q => isQueue q
  | .revoke q => isQueue q
  | .debugOpen q => isQueue q
  | .debugClose q => isQueue q
  | .debugExpiryCheck => true
  | .enrolNode q => isQueue q
  | .readNodeRequest q => isQueue q
  | .firmwareUpdate q => isQueue q
  | .secClearCounters sess key => isSession sess && isKey key
  | .stageIndexWrite sess v => isSession sess && isWord v
  | .stageDataAccess sess _ _ => isSession sess
  | .tamperTrip m => isTamper m
  | .tamperResetRelease => true
  | .dbgHaltRequestWrite sess v => isSession sess && isWord v
  | .coreHaltEffective k => isCore k
  | .haltDeferralEnd => true
  | .dbgMemAccess sess _ _ => isSession sess
  | .siteTagWrite sess k _ => isSession sess && isPulse k
  | .edmResponse n _ ms => isSafOutput n && isHalf ms
  | .oscillatorOrSupplyMonitorTrip tech => isTech tech
  | .canErrorDetected b kind _ _ _ => isBus b && isByte kind
  | .ptpAnnounceReceived p domain prio1 cls acc var prio2 ident steps => isPort p && isByte domain && isByte prio1 && isByte cls && isByte acc && isHalf var && isByte prio2 && isLong ident && isHalf steps
  | .modbusConnection p _ => isPort p
  | .rngHealthTestFailure => true
  | .breakpointHit k b => isCore k && isPulse b
  | .mainInputGood _ => true
  | .tlsHandshakeComplete sess certRoles serial _ _ _ _ notBefore notAfter _ => isSession sess && isByte certRoles && isSerial serial && isLong notBefore && isLong notAfter

end Sys2Proof
end

