-- ==== Sys2Proof/Safety.lean ====
section
/-!
DEFINITION. What counts as a safe step and a sound state, and the words in which statements say what a command does.
-/
namespace Sys2Proof.Machine
open Sys2Proof

/-- The step from this state ends in a next state. -/
def StepsOn (s : State) : Prop := ∃ t, step s = .next t

/-- The state after so many steps, none where one of them stops. -/
def State.after : Nat → State → Option State
  | 0, s => some s
  | n + 1, s =>
    match step s with
    | .next t => t.after n
    | _ => none

/-- The command completes: it answers a next state, and that state has the property. -/
def Runs (c : Instr) (s : State) (P : State → Prop) : Prop := ∃ t, exec c s = .next t ∧ P t

/-- The register file is in its canonical form and every waiting command is well formed. -/
def State.Sound (s : State) : Prop := RegsOk s.regs ∧ ∀ c ∈ s.pending, c.wellFormed = true

/-- A Helm request with this tag and type is taken up for its session, which holds the roles it needs (R155, R158). -/
def State.takes (s : State) (n tag typ need : Nat) : Bool :=
  match s.session n with
  | none => false
  | some x => !x.handshaking && !(x.tags.contains tag || x.held.any fun h => heldTag h == some tag) &&
      decide (x.tags.length + x.held.length < 64) && x.wait.isNone && s.serves typ && s.holds n need
/-- The state in which a request that is taken up runs: its tag is outstanding (R158). -/
def State.takenUp (s : State) (n tag : Nat) : State := s.modSession n fun x => { x with tags := tag :: x.tags }
/-- Between the two states something with the property was sent. -/
def State.sends (t s : State) (p : Out → Bool) : Prop := ∃ l, t.out = l ++ s.out ∧ l.any p = true
/-- A response was sent. -/
def State.answers (t s : State) (n tag typ status : Nat) (body : List Nat) : Prop :=
  t.sends s fun o => o == .response n tag typ status false body
/-- A response to a request of a type, whatever its status. -/
def Out.answerTo (n tag typ : Nat) (o : Out) : Bool :=
  match o with
  | .response n' tag' typ' _ _ _ => n' == n && tag' == tag && typ' == typ
  | _ => false
/-- A frame of a kind to a destination at a port. -/
def Out.frameTo (p : Port) (kind dst : Nat) (o : Out) : Bool :=
  match o with
  | .frame p' k d _ => p' == p && k == kind && d == dst
  | _ => false
/-- HOLD with a reason on a crossing, from both of whose ends it goes out (R35, R201, R207). -/
def Out.holdOn (n reason : Nat) (o : Out) : Bool :=
  match o with
  | .frame p k _ d => p == .xng n false && k == 0x0A && (d.drop 24).take 1 == le 1 reason
  | _ => false
/-- The session that pushed the command is still the holder of its number (R154). -/
def State.present (s : State) (c : Cmd) : Bool := (s.session c.sess).any fun x => x.uid == c.uid
/-- The queue runs the command, which carries the code, for a session that is still there. -/
def State.serving (s : State) (q code : Nat) (c : Cmd) : Bool := decide (s.running q = some c) && c.code == code && s.present c
/-- The command has completed: its queue runs none, and QUEUE_ACK went to its session with the status and result (R176). -/
def State.completed (t s : State) (q : Nat) (c : Cmd) (status result : Nat) : Prop :=
  t.running q = none ∧ t.sends s fun o => o == .qack c.sess q status c.tag result
/-- No access of a session waits on a stopped domain (R139). -/
def State.noWait (s : State) : Bool := s.hq.sessions.all fun p => p.2.wait.isNone
/-- The status that a message not of its type's form is answered with (R161). -/
def misspelt (n : Nat) (b : List Byte) : Option Nat :=
  match spell n b with
  | .error st => some st
  | .ok _ => none
/-- A node's frame whose parts each fit their field, from a berth that a node may have (R206). -/
def Rx.ok (x : Rx) : Bool :=
  (x.dst == 0x1FE || x.dst == 0x1FF) && (decide (x.src < 272) || (x.src == 0x1FD && x.typ == 0x0E && bit x.flags 0)) &&
  decide (x.tag < 2 ^ 17) && decide (x.typ < 256) && decide (x.flags < 256) &&
  decide (x.seq < 2 ^ 16) && decide (x.payload.length ≤ 1536)
/-- Its bytes: header, payload and CRC (R206, R207). -/
def Rx.frame (x : Rx) : List Byte :=
  let b := le 2 x.dst ++ le 2 x.src ++ le 4 x.tag ++ le 1 x.typ ++ le 1 x.flags ++ le 2 x.payload.length ++ le 2 x.seq ++ le 10 0 ++
    x.payload
  b ++ le 4 (crc32c b).toNat
/-- The frame is accepted: it is no repeat (R208). -/
def State.hears (s : State) (n : Nat) (x : Rx) : Bool := x.ok && (x.typ == 0x0E || newSeq (s.node n x.src).rxSeq x.seq)
/-- The state in which an accepted frame acts. -/
def State.heard (s : State) (n : Nat) (x : Rx) : State := s.modNode n x.src fun y => { y with rxSeq := some x.seq }
/-- Every completion and change of a node has been acted on (R222): what each row leaves behind it. -/
def State.idle (s : State) : Bool := s.xng.done.isEmpty && s.xng.notes.isEmpty
/-- A request to the node can go out at once: a sleep is neither proposed nor running, no break cuts the crossing, and the
transaction table has an entry for it. -/
def State.reaches (s : State) (n b : Nat) : Bool :=
  s.sleepState n == 0 && (s.ring n).breaks.isEmpty && (s.node n b).state == 3 && s.mayAlloc n b
/-- The counter fields since start of the `len` bytes from `base` have become 0, and every other bit is that of the state
before (R717). -/
def State.cleared (t s : State) (base len : Nat) : Prop :=
  ∀ a, t.word a = if base ≤ a ∧ a < base + len then s.word a &&& ~~~(BitVec.ofNat 32 (descOf a).since) else s.word a
/-- A reset of all but the Bollard domain under a cause (R103, R716): the rails come up again in POWER, no session is left, and
a start that had not been judged has failed with that code (R95, R99). -/
def State.resetUnder (t s : State) (cause : Nat) : Prop :=
  t.boll.phase = .power ∧ t.boll.cause = cause ∧ t.hq.sessions = [] ∧ (s.boll.settled = false → t.rd (R.SYS_FAIL_CODE 0) = cause)
/-- The words at the addresses outside a set are those of the state before. -/
def State.wordsBut (t s : State) (A : Nat → Bool) : Prop := ∀ a, a < 0x150000 → A a = false → t.word a = s.word a
/-- The address stands in one of the blocks. -/
def inBlk (l : List Nat) (a : Nat) : Bool := l.contains (blockNo a)
/-- The address is one of the registers in which the fields stand. -/
def inRegs (l : List Fld) (a : Nat) : Bool := l.any fun f => f.addr == a

/-- The register blocks (R175). -/
abbrev Blk.sys : Nat := 0
abbrev Blk.pwr : Nat := 1
abbrev Blk.sec : Nat := 2
abbrev Blk.man : Nat := 3
abbrev Blk.hq : Nat := 4
abbrev Blk.xng : Nat := 5
abbrev Blk.est : Nat := 6
abbrev Blk.plt : Nat := 7
abbrev Blk.loop : Nat := 8
abbrev Blk.pwm : Nat := 9
abbrev Blk.grp : Nat := 10
abbrev Blk.car : Nat := 11
abbrev Blk.door : Nat := 12
abbrev Blk.pos : Nat := 13
abbrev Blk.saf : Nat := 14
abbrev Blk.fio : Nat := 15
abbrev Blk.mbc : Nat := 16
abbrev Blk.ser : Nat := 17
abbrev Blk.net : Nat := 18
abbrev Blk.acq : Nat := 19
abbrev Blk.rec : Nat := 20
abbrev Blk.dbg : Nat := 21
/-- The parts of the state beside the registers and the queue of waiting commands. -/
inductive Part where
  | nv | boll | hq | man | pwr | recu | sec | xng | est | prot | disp | loop | pos | saf | mbc | ser | car | door | grp | fio | acq | net
  | out | free
  deriving DecidableEq, Repr
/-- A frame: the queue of waiting commands is unchanged, so is every register but those of the blocks `bs` and those that hold
the fields `rs`, and so is every part but those listed. -/
def State.keeps (t s : State) (ps : List Part) (bs : List Nat) (rs : List Fld) : Prop :=
  t.pending = s.pending ∧ t.wordsBut s (fun a => inBlk bs a || inRegs rs a) ∧
  (.nv ∈ ps ∨ t.nv = s.nv) ∧ (.boll ∈ ps ∨ t.boll = s.boll) ∧ (.hq ∈ ps ∨ t.hq = s.hq) ∧ (.man ∈ ps ∨ t.man = s.man) ∧
  (.pwr ∈ ps ∨ t.pwr = s.pwr) ∧ (.recu ∈ ps ∨ t.recu = s.recu) ∧ (.sec ∈ ps ∨ t.sec = s.sec) ∧ (.xng ∈ ps ∨ t.xng = s.xng) ∧
  (.est ∈ ps ∨ t.est = s.est) ∧ (.prot ∈ ps ∨ t.prot = s.prot) ∧ (.disp ∈ ps ∨ t.disp = s.disp) ∧ (.loop ∈ ps ∨ t.loop = s.loop) ∧
  (.pos ∈ ps ∨ t.pos = s.pos) ∧ (.saf ∈ ps ∨ t.saf = s.saf) ∧ (.mbc ∈ ps ∨ t.mbc = s.mbc) ∧ (.ser ∈ ps ∨ t.ser = s.ser) ∧
  (.car ∈ ps ∨ t.car = s.car) ∧ (.door ∈ ps ∨ t.door = s.door) ∧ (.grp ∈ ps ∨ t.grp = s.grp) ∧ (.fio ∈ ps ∨ t.fio = s.fio) ∧
  (.acq ∈ ps ∨ t.acq = s.acq) ∧ (.net ∈ ps ∨ t.net = s.net) ∧ (.out ∈ ps ∨ t.out = s.out) ∧ (.free ∈ ps ∨ t.free = s.free)

/-- The sample of a string was applied, leaving a state with the property, which protection then judged (R253, R293). -/
def State.judgedOf (t : State) (i time : Nat) (P : State → Prop) : Prop := ∃ u, P u ∧ t = ((u.judge i time).balanceCheck).settled
/-- A STATUS datagram of a declared unit that passes its checks (R207, R343, R346). -/
def State.goodStatus (s : State) (u : CfgRec) (dg : List Byte) : Bool :=
  let n := dg.length
  decide (36 ≤ n) && u32 dg (n - 4) == (crc32c (dg.take (n - 4))).toNat && u8 dg 0 == 0x81 && u8 dg 1 == 1 &&
  decide (s.cfg 5 4 (u8 dg 2) = some u) && u64 dg 8 == s.plantIdent && u16 dg 6 == n - 36 && n - 36 == 0x24 + 12 * u.portCons.length &&
  seqNew (s.pcs u.id).rxSeq (u16 dg 4)
/-- The end of a group cycle took the plant's mode, leaving a state with the property, from which the rest of the cycle's
work follows (R411). -/
def State.cycledFrom (t : State) (P : State → Prop) : Prop := ∃ u, P u ∧ t = u.groupWork
/-- The row's own effect left a state with the property, which both safety technologies then evaluated anew (R514). -/
def State.evaluatedFrom (t : State) (P : State → Prop) : Prop := ∃ u, P u ∧ t = u.reSafe

end Sys2Proof.Machine
end

