-- ==== Sys2Proof/Certificates/Slice0/Obligations.lean ====
section
/-!
DEFINITION. The statements for the provers.
-/
open Sys2Proof Sys2Proof.Machine

/-! ## The machine as a whole -/

/-- A step takes the command at the front of the queue of waiting commands and gives it its effect on the state that holds
the queue's rest: the command interface of this model (log 1). -/
def Obligations.StepRunsTheFront : Prop :=
  ∀ (c : Instr) (rest : List Instr) (s : State),
    step { s with pending := c :: rest } = exec c { s with pending := rest }

/-- With no command waiting a step leaves the state as it is: the model's choice (log 1), since what time brings is the row
TICK. -/
def Obligations.EmptyQueueIdles : Prop :=
  ∀ s : State, s.pending = [] → step s = .next s

/-- R716: the values that the Reset column states, for registers of every block that are not 0 at reset and for one that is. -/
def Obligations.ResetValuesOfRegisters : Prop :=
  State.reset.word (R.MAN_FORMAT).addr = 0x200#32 ∧
  State.reset.word (R.PWR_GLIDE_STATUS).addr = 0x100#32 ∧
  State.reset.word (R.PWR_DOMAIN_LIVE).addr = 0xFFFF#32 ∧
  State.reset.word (R.PWR_WAKE_ENABLE).addr = 0x7D#32 ∧
  State.reset.word (R.PLT_HOST_EXPORT_MAX).addr = 0x7F800000#32 ∧
  State.reset.word (R.PLT_HOST_IMPORT_MAX).addr = 0x7F800000#32 ∧
  State.reset.word (R.LOOP_PARKED_GROUPS).addr = 0xFFFF#32 ∧
  State.reset.word (R.ACQ_MEAS_VALUE).addr = 0x7FC00000#32 ∧
  State.reset.word (R.REC_CAPACITY).addr = 0x03FBB000#32 ∧
  State.reset.word (R.REC_TRACE_SIZE).addr = 0x10000000#32 ∧
  State.reset.word (R.SEC_TAMPER_ENABLE).addr = 0x0AAA#32 ∧
  State.reset.word (R.SYS_SCRATCH).addr = 0#32 ∧
  State.reset.word (R.PWR_DOMAIN_HOLD).addr = 0#32 ∧
  State.reset.word (R.HQ_FENCE_EPOCH).addr = 0#32 ∧
  State.reset.word (R.EST_CELLS_READY).addr = 0#32 ∧
  State.reset.word (R.PLT_SETPOINT).addr = 0#32 ∧
  State.reset.word (R.PWM_INHIBIT).addr = 0#32 ∧
  State.reset.word (R.GRP_CALLS_ASSIGNED).addr = 0#32 ∧
  State.reset.word (R.SAF_OUTPUT_STATE).addr = 0#32 ∧
  State.reset.word (R.FIO_OUT_STATE).addr = 0#32 ∧
  State.reset.word (R.NET_STATUS).addr = 0#32 ∧
  State.reset.word (R.DBG_STATUS).addr = 0#32 ∧
  (∀ i, i < 4 → State.reset.word (R.HQ_EQ_ACKED_SEQ i).addr = 0xFFFFFFFF#32) ∧
  (∀ i, i < 4 → State.reset.word (R.HQ_EQ_NEXT_SEQ i).addr = 0#32) ∧
  (∀ i, i < 16 → State.reset.word (R.XNG_SPLIT i).addr = 0x1FF#32) ∧
  (∀ i, i < 16 → State.reset.word (R.XNG_POOL_FREE i).addr = 0x20000#32) ∧
  (∀ i, i < 8 → State.reset.word (R.CAR_SPEED_LIMIT i).addr = 0x7F800000#32) ∧
  (∀ i, i < 8 → State.reset.word (R.CAR_ACCEL_LIMIT i).addr = 0x7F800000#32) ∧
  (∀ i, i < 16 → State.reset.word (R.ACQ_CH_MEAN i).addr = 0x7FC00000#32) ∧
  (∀ i, i < 16 → State.reset.word (R.ACQ_CH_MIN i).addr = 0x7FC00000#32) ∧
  (∀ i, i < 16 → State.reset.word (R.ACQ_CH_MAX i).addr = 0x7FC00000#32) ∧
  (∀ i, i < 16 → State.reset.word (R.DOOR_POSITION i).addr = 0#32) ∧
  (∀ i, i < 12 → State.reset.word (R.MBC_TX_FRAMES i).addr = 0#32) ∧
  (∀ i, i < 4 → State.reset.word (R.SER_STATUS i).addr = 0#32)

/-- Right after reset no command waits, nothing has been sent, no session is open and the rails are coming up; the registers
stand at their Reset column throughout. That nothing is kept from before (a machine as manufactured) is the model's choice
(log 4). -/
def Obligations.ResetHasNothingWaiting : Prop :=
  State.reset.pending = [] ∧ State.reset.out = [] ∧ State.reset.hq.sessions = [] ∧ State.reset.powered = false ∧
  State.reset.boll.phase = .power ∧ State.reset.free = 0 ∧ ∀ a, State.reset.word a = resetWord a

/-- The state right after reset has its register file in canonical form and no ill-formed command waiting. -/
def Obligations.ResetIsSound : Prop :=
  State.reset.Sound

/-- Whatever the command at the front does, the register file keeps its one canonical form (no address twice, no register
listed that holds its reset value) and the commands that still wait are those that waited behind it. -/
def Obligations.EveryStepKeepsTheStateSound : Prop :=
  ∀ s t : State, s.Sound → step s = .next t → t.Sound

/-- Frames, datagrams and messages that have left a port are never taken back, whatever the command: a step only adds to
them. Nor does a free value of the model (log 2) come up a second time. -/
def Obligations.WhatIsSentStays : Prop :=
  ∀ s t : State, step s = .next t → s.out <:+ t.out ∧ s.free ≤ t.free

/-- No command stops the machine: every row, on every state and with every operand, ends in a next state, whose queue of
waiting commands is the one it found. -/
def Obligations.EveryCommandCompletes : Prop :=
  ∀ (c : Instr) (s : State), Runs c s fun t => t.pending = s.pending

/-- As many steps as commands wait, or fewer, never stop, take exactly the commands at the front, in order, keep the state
sound where it was, and take back nothing that was sent. -/
def Obligations.TheQueueIsWorkedOffInOrder : Prop :=
  ∀ (n : Nat) (s : State), n ≤ s.pending.length →
    ∃ t, s.after n = some t ∧ t.pending = s.pending.drop n ∧ s.out <:+ t.out ∧ (s.Sound → t.Sound)

/-- R717: a write to a control register executes only when KEY is 0xA5 and the session holds the role. With another key it
changes nothing, and, where no result register tells a refusal, nothing without the role either. -/
def Obligations.ControlWritesNeedTheirKey : Prop :=
  (∀ (sess key : Nat) (s : State), key ≠ 0xA5 → exec (.hostReset sess key) s = .next s) ∧
  (∀ (sess key : Nat) (s : State), key ≠ 0xA5 → exec (.attemptStart sess key) s = .next s) ∧
  (∀ (sess key : Nat) (s : State), key ≠ 0xA5 → exec (.enterBerth sess key) s = .next s) ∧
  (∀ (sess key : Nat) (s : State), s.keyed sess key = false → exec (.cancelBerth sess key) s = .next s) ∧
  (∀ (sess key d : Nat) (s : State), key ≠ 0xA5 → exec (.pwrDomainReset sess key d) s = .next s) ∧
  (∀ (sess key : Nat) (s : State), s.keyed sess key = false → exec (.abortStage sess key) s = .next s) ∧
  (∀ (sess key : Nat) (s : State), s.keyed sess key = false → exec (.abortPatch sess key) s = .next s) ∧
  (∀ (sess key target : Nat) (s : State), s.keyed sess key = false → exec (.closeSession sess key target) s = .next s) ∧
  (∀ (sess key q : Nat) (s : State), s.keyed sess key = false → exec (.releaseOwner sess key q) s = .next s) ∧
  (∀ (sess key n : Nat) (s : State), s.keyed sess key = false → exec (.retrain sess key n) s = .next s) ∧
  (∀ (sess key n : Nat) (s : State), s.keyed sess key = false → exec (.xngClearCounters sess key n) s = .next s) ∧
  (∀ (sess key : Nat) (s : State), s.keyed sess key = false → exec (.estClearCounters sess key) s = .next s) ∧
  (∀ (sess key : Nat) (s : State), s.keyed sess key = false → exec (.abortRestore sess key) s = .next s) ∧
  (∀ (sess key : Nat) (s : State), s.keyed sess key = false → exec (.pltProtClearCounters sess key) s = .next s) ∧
  (∀ (sess key : Nat) (s : State), s.keyed sess key = false → exec (.pltDispClearCounters sess key) s = .next s) ∧
  (∀ (sess key : Nat) (s : State), s.keyed sess key = false → exec (.returnToSource sess key) s = .next s) ∧
  (∀ (sess key : Nat) (s : State), s.keyed sess key = false → exec (.loopClearCounters sess key) s = .next s) ∧
  (∀ (sess key : Nat) (s : State), s.keyed sess key = false → exec (.syncArm sess key) s = .next s) ∧
  (∀ (sess key : Nat) (s : State), s.keyed sess key = false → exec (.syncDisarm sess key) s = .next s) ∧
  (∀ (sess key : Nat) (s : State), s.keyed sess key = false → exec (.pwmClearCounters sess key) s = .next s) ∧
  (∀ (sess key : Nat) (s : State), s.keyed sess key = false → exec (.grpClearCounters sess key) s = .next s) ∧
  (∀ (sess key c : Nat) (s : State), s.keyed sess key = false → exec (.carClearCounters sess key c) s = .next s) ∧
  (∀ (sess key c : Nat) (s : State), s.keyed sess key = false → exec (.posClearCounters sess key c) s = .next s) ∧
  (∀ (sess key c : Nat) (motorOk tapeOk : Bool) (s : State), s.keyed sess key = false → exec (.clearFault sess key c motorOk tapeOk) s = .next s) ∧
  (∀ (sess key d : Nat) (s : State), s.keyed sess key = false → exec (.doorClearCounters sess key d) s = .next s) ∧
  (∀ (sess key d : Nat) (s : State), s.keyed sess key = false → exec (.clearEnvelope sess key d) s = .next s) ∧
  (∀ (sess key : Nat) (s : State), key ≠ 0xA5 → exec (.safetyConfirm sess key) s = .next s) ∧
  (∀ (sess key fn : Nat) (s : State), s.keyed sess key = false → exec (.resetFunction sess key fn) s = .next s) ∧
  (∀ (sess key c : Nat) (srcOk edmOk : Bool) (s : State), s.keyed sess key = false → exec (.repairAck sess key c srcOk edmOk) s = .next s) ∧
  (∀ (sess key : Nat) (s : State), s.keyed sess key = false → exec (.safClearCounters sess key) s = .next s) ∧
  (∀ (sess key : Nat) (s : State), s.keyed sess key = false → exec (.fioClearCounters sess key) s = .next s) ∧
  (∀ (sess key b : Nat) (s : State), s.keyed sess key = false → exec (.mbcClearCounters sess key b) s = .next s) ∧
  (∀ (sess key b : Nat) (s : State), s.keyed sess key = false → exec (.restrict sess key b) s = .next s) ∧
  (∀ (sess key b : Nat) (s : State), s.keyed sess key = false → exec (.unrestrict sess key b) s = .next s) ∧
  (∀ (sess key b : Nat) (s : State), s.keyed sess key = false → exec (.inhibitRecovery sess key b) s = .next s) ∧
  (∀ (sess key b : Nat) (s : State), s.keyed sess key = false → exec (.allowRecovery sess key b) s = .next s) ∧
  (∀ (sess key l : Nat) (s : State), s.keyed sess key = false → exec (.serClearCounters sess key l) s = .next s) ∧
  (∀ (sess key : Nat) (s : State), s.keyed sess key = false → exec (.netClearCounters sess key) s = .next s) ∧
  (∀ (sess key : Nat) (s : State), s.keyed sess key = false → exec (.acqClearCounters sess key) s = .next s) ∧
  (∀ (sess key : Nat) (s : State), s.keyed sess key = false → exec (.clearTrace sess key) s = .next s) ∧
  (∀ (sess key : Nat) (s : State), s.keyed sess key = false → exec (.secClearCounters sess key) s = .next s)

/-- R156: of the roles that the mask asks for, a session is granted those that its certificate lists; a role that the mask
omits is dropped; observer (bit 0) is kept; the response carries the mask granted. The time of 1 ms is not modelled (Scope). -/
def Obligations.RolesFollowTheCertificate : Prop :=
  ∀ (n tag mask : Nat) (x : Session) (s : State), s.takes n tag 0x50 0 = true → s.session n = some x →
    Runs (.sessionRole n tag mask) s fun t => ∃ g, t.answers s n tag 0x50 OK [g] ∧ (t.session n).map (·.roles) = some g ∧ g < 256 ∧
      ∀ i, i < 8 → g.testBit i = (i == 0 || (mask.testBit i && (effRoles x.certRoles).testBit i))

/-- R132: reading `PWR_OP_MS` copies `PWR_OP_SECONDS` into the session's shadow, which the session's next read of
`PWR_OP_SECONDS` returns and uses up; the tick counter and plant time follow the low-word-first rule of R165: reading the low
word copies the high word into a shadow, which a read of the high word returns. -/
def Obligations.OperatingSecondsAndCountersReadAsPairs : Prop :=
  (∀ (n : Nat) (s : State), s.isOpen n = true → Runs (.opMsRead n) s fun t =>
    (t.session n).map (·.opShadow) = some (some (s.viewReg (some n) R.PWR_OP_SECONDS.addr)) ∧ t.regs = s.regs) ∧
  (∀ (n : Nat) (s : State) (x : Session) (w : Word), s.session n = some x → x.opShadow = some w →
    (s.readReg n R.PWR_OP_SECONDS.addr).1 = w ∧
      ((s.readReg n R.PWR_OP_SECONDS.addr).2.session n).map (·.opShadow) = some none) ∧
  (∀ (n a : Nat) (s : State), s.isOpen n = true → (a = R.PWR_TICK_LO.addr ∨ a = R.PWR_PLANT_TIME_LO.addr) →
    Runs (.counterLowWordRead n a) s fun t => t.regs = s.regs ∧
      (t.session n).map (fun x => tget x.shadow a) = some (some (s.viewReg (some n) (a + 4)))) ∧
  (∀ (n a : Nat) (s : State) (x : Session) (w : Word), s.session n = some x →
    (a = R.PWR_TICK_LO.addr ∨ a = R.PWR_PLANT_TIME_LO.addr) → tget x.shadow a = some w → (s.readReg n (a + 4)).1 = w)

/-- R569: when the supply L+k of output group k has stayed low (row LPLUS_LOW) its eight outputs are off and bit k of
LPLUS_LOW is set; when it has stayed good again (row LPLUS_RESTORED) the bit is clear and each output has its commanded
state, unless something else than the supply holds it; neither latches an output. The times are the rows'. -/
def Obligations.FieldSupplyLossSwitchesItsGroupOff : Prop :=
  (∀ (k : Nat) (s : State), s.fioRuns = true → k < 4 → bit (s.rd R.FIO_FIELD_STATUS_LPLUS_LOW) k = false →
    Runs (.lplusLow k) s fun t => bit (t.rd R.FIO_FIELD_STATUS_LPLUS_LOW) k = true ∧
      t.word R.FIO_OUT_FAULT_LATCH.addr = s.word R.FIO_OUT_FAULT_LATCH.addr ∧
      ∀ j, j < 8 → t.outBit R.FIO_OUT_STATE (8 * k + j) = false) ∧
  (∀ (k : Nat) (s : State), s.fioRuns = true → k < 4 → bit (s.rd R.FIO_FIELD_STATUS_LPLUS_LOW) k = true →
    Runs (.lplusRestored k) s fun t => bit (t.rd R.FIO_FIELD_STATUS_LPLUS_LOW) k = false ∧
      t.word R.FIO_OUT_FAULT_LATCH.addr = s.word R.FIO_OUT_FAULT_LATCH.addr ∧
      ∀ j, j < 8 → (s.foutRec (8 * k + j)).isSome = true → s.on R.FIO_STATUS_OUTPUTS_ENABLED = true →
        s.on R.FIO_FIELD_STATUS_LINK_LOST = false → s.outBit R.FIO_OUT_SILENT (8 * k + j) = false →
        s.outBit R.FIO_OUT_FAULT (8 * k + j) = false → s.outBit R.FIO_OUT_FAULT_LATCH (8 * k + j) = false →
        s.outBit R.FIO_DEMAG_HOLD (8 * k + j) = false →
        t.outBit R.FIO_OUT_STATE (8 * k + j) = s.outBit R.FIO_OUT_COMMAND (8 * k + j))

/-- R72: until 1 ms (100 ticks) before its boundary ABORT_PATCH cancels an accepted patch: none is pending, so none takes
effect, and its entry in the patch log is cancelled; STATE tells so, or the staging of another patch that stands; later it
changes nothing but ABORT_LATE. -/
def Obligations.AbortPatchCancelsUntilItsLastMillisecond : Prop :=
  ∀ (sess : Nat) (j : LoadJob) (s : State), s.keyed sess 0xA5 = true → s.man.patch = some j → s.rd R.MAN_PATCH_STATUS_STATE = 3 →
    (s.tick + 100 ≤ j.target → Runs (.abortPatch sess 0xA5) s fun t => t.man.patch = none ∧
      t.rd R.MAN_PATCH_STATUS_STATE = (if s.man.stage.any (fun g => g.kind == 1) = true then 1 else 6) ∧
      (tgetD t.nv.slots j.slot ⟨[], []⟩).patches = (tgetD s.nv.slots j.slot ⟨[], []⟩).patches.map fun p =>
        if p.epoch = u16 j.bytes 0x14 then { p with cancelled := true } else p) ∧
    (j.target < s.tick + 100 → Runs (.abortPatch sess 0xA5) s fun t => t.on R.MAN_PATCH_STATUS_ABORT_LATE = true ∧
      t.keeps s [] [] [R.MAN_PATCH_STATUS_ABORT_LATE])

/-! ## Registers -/

/-- R7: a plain write to a register that is no selection: a W1C bit written 1 is cleared, an RW bit (an RWL bit until the
lifecycle state is Sealed) and the WO register `SAF_CONFIRM_VALUE` take the written bit, every other bit stays; no other
register changes, but for the pulse-pair registers that a write of `PWM_INHIBIT` works on. `who` is 8 for the firmware, else
an open session with the operator role. -/
def Obligations.PlainWritesFollowTheAccessCodes : Prop :=
  ∀ (who a : Nat) (v : Word) (s : State), (8 ≤ who ∨ (s.isOpen who = true ∧ s.holds who 2 = true)) →
    (isSelect a = false → Runs (.registerWrite who a v) s fun t =>
      (∀ i, i < 32 → (t.word a).getLsbD i =
        if a = R.SAF_CONFIRM_VALUE.addr then v.getLsbD i
        else if (descOf a).w1c.testBit i && v.getLsbD i then false
        else if (descOf a).rw.testBit i || ((descOf a).rwl.testBit i && !s.sealed) then v.getLsbD i
        else (s.word a).getLsbD i) ∧
      t.wordsBut s fun b => b == a || (a == R.PWM_INHIBIT.addr && inBlk [4, 9] b)) ∧
    (isSelect a = true → Runs (.registerWrite who a v) s fun t =>
      t.regs = s.regs ∧ t.sel (if 8 ≤ who then none else some who) a = (v &&& BitVec.ofNat 32 (descOf a).rw).toNat)

/-- R7, R132, R165, R166: reading an RC register clears its RC bits and nothing else; reading a low word, or `PWR_OP_MS`,
freezes the high word, or the seconds, for the session; writing the high word of a writable pair is held until the low word
is written. -/
def Obligations.ReadsClearAndFreeze : Prop :=
  (∀ (who a : Nat) (s : State), (8 ≤ who ∨ s.isOpen who = true) → Runs (.rcRegisterRead who a) s fun t =>
    (∀ i, i < 32 → (t.word a).getLsbD i = ((s.word a).getLsbD i && !(descOf a).rc.testBit i)) ∧ t.wordsBut s fun b => b == a) ∧
  (∀ (n a : Nat) (s : State), s.isOpen n = true → isLow a = true → Runs (.counterLowWordRead n a) s fun t =>
    (t.session n).map (fun x => tget x.shadow a) = some (some (s.viewReg (some n) (a + 4))) ∧ t.regs = s.regs) ∧
  (∀ (n a : Nat) (v : Word) (s : State), s.debugger n = true → s.holds n 2 = true → writableLow a = true →
    (a < 0x14001C ∨ s.debugMay 3 = true) → Runs (.counterHighWordWrite n (a + 4) v) s fun t =>
    (t.session n).map (fun x => tget x.heldHigh a) = some (some v) ∧ t.regs = s.regs) ∧
  (∀ (n : Nat) (s : State), s.isOpen n = true → Runs (.opMsRead n) s fun t =>
    (t.session n).map (·.opShadow) = some (some (BitVec.ofNat 32 s.opSec)) ∧ t.regs = s.regs)

/-! ## Rows by family: what each does -/

/-- Power good counts the start and begins it under its cause; BOOT with an image, with both safety technologies passed and a
manifest in a slot, leads to MANIFEST, without an image that verifies to firmware recovery; a manifest that loads leads to
SELF_TEST and one that does not to a reset with 0x0501; a self-test whose resources meet their minima leads to LEARNED,
learned values restored to PARTNERS, and partners that have all answered or are marked absent to UNDERWAY; a partner silent
for its time is marked absent. -/
def Obligations.StartStagesAdvance : Prop :=
  (∀ (a b bkp : Bool) (sec msec ms : Nat) (s : State),
      (a || b) = true →
      s.boll.phase = .power →
      s.boll.attempt = false →
      s.rd R.SYS_FAILED_STARTS % 256 < 3 →
      Runs (.powerGood a b bkp sec msec ms) s fun t =>
      t.powered = true ∧ t.boll.settled = false ∧ t.rd R.SYS_BOOT_CAUSE = s.boll.cause % 2 ^ 32 ∧
      t.rd R.SYS_FAILED_STARTS = s.rd R.SYS_FAILED_STARTS % 256 + 1 ∧ t.on R.PWR_WATCHDOG_STATUS_RUNNING = true) ∧
  (∀ (s : State),
      s.inBoot = true →
      s.boll.toRecovery = false →
      s.bootImage = some false →
      s.techsPassed = true →
      s.lifecycle < 3 →
      s.slotState 0 = ACTIVE →
      Runs (.bootComplete true) s fun t =>
      t.booted = true ∧ t.stage = 5) ∧
  (∀ (s : State),
      s.inBoot = true →
      Runs (.bootVerifyFailed) s fun t =>
      t.stage = 0xC ∧ t.nv.fwA.valid = false ∧ t.nv.fwB.valid = false ∧ t.on R.PWR_WATCHDOG_STATUS_RUNNING = false) ∧
  (∀ (s : State),
      s.powered = true →
      s.stage = 3 →
      s.booted = true →
      s.techsPassed = false →
      s.lifecycle < 3 →
      s.slotState 0 = ACTIVE →
      Runs (.safetySelftestDone true true) s fun t =>
      t.techsPassed = true ∧ t.stage = 5) ∧
  (∀ (s : State),
      s.powered = true →
      s.stage = 5 →
      Runs (.manifestStageDone false) s fun t =>
      (s.loadSlots.1 ≠ none → t.stage = 6 ∧ t.on R.MAN_STATUS_LOADED = true) ∧ (s.loadSlots.1 = none → t.resetUnder s 0x0501)) ∧
  (∀ (xng pos mbc ser nvm : Nat) (s : State),
      s.powered = true →
      s.stage = 6 →
      1 ≤ nvm →
      1 ≤ pairsOf s.goodPipes.length →
      (List.range 16).any (fun n => bit xng n && s.xngUsed n) = false →
      Runs (.selfTestDone 10 3 4 xng pos mbc ser [] true nvm true) s fun t =>
      t.stage = 7 ∧ t.rd R.SYS_SELFTEST_CORES_GOOD = 10 ∧ t.rd R.SYS_SELFTEST_LANES_GOOD = 3 ∧ t.rd R.SYS_SELFTEST_DRAM_CHANNELS = 4 ∧
      t.rd R.SYS_SELFTEST_XNG_FAILED = xng % 2 ^ 16 ∧ t.rd R.SYS_SELFTEST_PORTS_POS_FAILED = pos % 2 ^ 8 ∧ t.engine = PRIMED) ∧
  (∀ (s : State),
      s.powered = true →
      s.stage = 7 →
      Runs (.learnedRestoreDone) s fun t =>
      t.stage = 8 ∧ t.on R.EST_STATUS_RUNNING = true) ∧
  (∀ (s : State),
      s.powered = true →
      s.stage = 8 →
      s.partners.all (fun p => s.answered p || s.xng.absent.contains p) = true →
      Runs (.partnersDone) s fun t =>
      t.stage = 9 ∧ t.rd R.PWR_WAKE_LATCH = 0 ∧ t.pwr.heldAt = some s.tick ∧ t.on R.FIO_STATUS_OUTPUTS_ENABLED = true) ∧
  (∀ (kind a b : Nat) (s : State),
      s.powered = true →
      s.stage = 8 →
      s.partners.contains (kind, a, b) = true →
      s.answered (kind, a, b) = false →
      Runs (.partnerAbsentTimeout kind a b) s fun t =>
      t.xng.absent.contains (kind, a, b) = true)

/-- A stage or start that overruns, a fatal firmware error, a watchdog or engine that is not served, a thermal trip, a rail
out of regulation, HOST_RESET and ATTEMPT_START each reset everything but the Bollard domain: POWER comes next under the
cause of the row, no session is left, and a start not yet judged has failed with that code. -/
def Obligations.StartsEndInAReset : Prop :=
  (∀ (s : State),
      s.powered = true →
      5 ≤ s.stage ∧ s.stage ≤ 7 →
      Runs (.stageTimeout) s fun t =>
      t.resetUnder s (s.stage * 256 + 0xFF)) ∧
  (∀ (s : State),
      s.powered = true →
      (s.stage = 3 ∨ s.stage = 4) →
      Runs (.stageTimeout) s fun t =>
      t.resetUnder s (if s.techsPassed then 0x03FF else 0x04FF)) ∧
  (∀ (s : State),
      s.powered = true →
      s.stage < 9 →
      Runs (.startTimeout) s fun t =>
      t.resetUnder s 0x0109) ∧
  (∀ (sess : Nat) (s : State),
      s.engineer sess = true →
      s.booted = true →
      s.recovery = false →
      Runs (.hostReset sess 0xA5) s fun t =>
      t.resetUnder s 0x0105) ∧
  (∀ (sess : Nat) (s : State),
      s.engineer sess = true →
      s.mooring = true →
      s.recovery = false →
      Runs (.attemptStart sess 0xA5) s fun t =>
      t.resetUnder s 0x010C ∧ t.boll.attempt = true) ∧
  (∀ (s : State),
      s.powered = true →
      Runs (.brownOut) s fun t =>
      t.resetUnder s 0x0103) ∧
  (∀ (s : State),
      s.powered = true →
      Runs (.firmwareFatal) s fun t =>
      t.resetUnder s 0x0106) ∧
  (∀ (s : State),
      s.powered = true →
      s.engine = HALTED →
      Runs (.engineHaltTimeout) s fun t =>
      t.resetUnder s 0x0106) ∧
  (∀ (s : State),
      s.powered = true →
      s.on R.PWR_WATCHDOG_STATUS_RUNNING = true →
      Runs (.watchdogExpiry) s fun t =>
      t.resetUnder s 0x0104 ∧ t.rd R.PWR_WATCHDOG_EXPIRIES = (s.rd R.PWR_WATCHDOG_EXPIRIES + 1) % 2 ^ 32) ∧
  (∀ (s : State),
      s.powered = true →
      Runs (.thermalTrip) s fun t =>
      t.resetUnder s 0x0108) ∧
  (∀ (sess tag version floor : Nat) (g : Staging) (s : State),
      s.recovery = true →
      s.takes sess tag 0x32 4 = true →
      s.ownStage sess = some g →
      g.kind = 2 →
      g.bytes.length = g.len →
      s.rd R.SEC_FW_FLOOR ≤ version →
      Runs (.firmwareCommit sess tag true version floor) s fun t =>
      t.boll.phase = Phase.power ∧ t.boll.cause = 0x010B ∧ t.hq.sessions = [] ∧ t.answers s sess tag 0x32 OK [] ∧ t.nv.fwA = FwImage.mk true version floor)

/-- After its hold in UNDERWAY a start has succeeded: the failed-start count is 0 and the operating seconds are kept; while
the Turid awaits a manifest HOLD with reason 7 goes out again on every crossing that is awake; a service of the watchdog
gives it 100 ms again. -/
def Obligations.AStartSucceedsAndHolds : Prop :=
  (∀ (s : State),
      s.powered = true →
      s.stage = 9 →
      s.on R.SYS_START_STATUS_SUCCEEDED = false →
      Runs (.startHoldElapsed) s fun t =>
      t.on R.SYS_START_STATUS_SUCCEEDED = true ∧ t.rd R.SYS_FAILED_STARTS = 0 ∧ t.rd R.SYS_LAST_SUCCESS_OPSEC = s.opSec ∧ t.boll.settled = true) ∧
  (∀ (n : Nat) (s : State),
      s.powered = true →
      s.stage = 0xA →
      s.mooring = false →
      n < 16 →
      s.sleepState n < 3 →
      Runs (.holdRepeatTimer) s fun t =>
      t.sends s (Out.holdOn n 7) ∧ t.wordsBut s (inBlk [18])) ∧
  (∀ (s : State),
      s.on R.PWR_WATCHDOG_STATUS_RUNNING = true →
      Runs (.watchdogService) s fun t =>
      t.rd R.PWR_WATCHDOG_STATUS_REMAINING_MS = 100 ∧ t.on R.PWR_WATCHDOG_STATUS_RUNNING = true)

/-- The dwell's end with no blocking bit enters Glide; the engine PLLs' lock ends it; ENTER_BERTH by an engineer in a state
with no refusal begins Berth entry and CANCEL_BERTH ends it; its completion with no wake latched leaves the Bollard domain
alone; a lost or returning main input shows in PWR_SUPPLY_STATUS and the latches; both inputs lost means Berth, a depleted
BKP means Off; an enabled wake source latches, and a latch in Berth with a main input good begins a start; operating seconds
are kept at whole multiples of 60. -/
def Obligations.PowerStatesChange : Prop :=
  (∀ (s : State),
      s.underway = true →
      s.rd R.PWR_STATE_STATE = 1 →
      s.glideBits = 0 →
      Runs (.glideDwellExpiry) s fun t =>
      t.rd R.PWR_STATE_STATE = 2 ∧ t.on R.LOOP_STATUS_GLIDE_SCHEDULE = true ∧ t.rd R.PWR_GLIDE_ENTRIES = (s.rd R.PWR_GLIDE_ENTRIES + 1) % 2 ^ 32) ∧
  (∀ (s : State),
      s.powered = true →
      s.rd R.PWR_STATE_STATE = 4 →
      s.noWait = true →
      Runs (.pllLocked) s fun t =>
      t.rd R.PWR_STATE_STATE = 1 ∧ t.on R.LOOP_STATUS_GLIDE_SCHEDULE = false ∧ t.rd R.PWR_GLIDE_WAKES = (s.rd R.PWR_GLIDE_WAKES + 1) % 2 ^ 32) ∧
  (∀ (sess : Nat) (s : State),
      s.powered = true →
      s.isOpen sess = true →
      s.pwr.berthRun = false →
      s.berthCase sess = 1 →
      Runs (.enterBerth sess 0xA5) s fun t =>
      t.pwr.berthRun = true ∧ t.rd R.PWR_STATE_STATE = 5 ∧ t.rd R.PWR_STATE_BERTH_RESULT = 1) ∧
  (∀ (sess : Nat) (s : State),
      s.engineer sess = true →
      s.pwr.berthRun = true →
      Runs (.cancelBerth sess 0xA5) s fun t =>
      t.pwr.berthRun = false ∧ t.rd R.PWR_STATE_BERTH_RESULT = 8 ∧ t.rd R.PWR_STATE_STATE = if s.loopGlide then 2 else 1) ∧
  (∀ (s : State),
      s.powered = true →
      s.pwr.berthRun = true →
      s.est.ckptRun = none →
      s.rd R.PWR_WAKE_LATCH % 128 = 0 →
      Runs (.berthEntryComplete) s fun t =>
      t.boll.phase = Phase.berth ∧ t.boll.byLoss = false ∧ t.hq.sessions = [] ∧ t.rd R.PWR_BERTH_ENTRIES = (s.rd R.PWR_BERTH_ENTRIES + 1) % 2 ^ 32) ∧
  (∀ (s : State),
      s.powered = true →
      s.on R.PWR_SUPPLY_STATUS_A_GOOD = true →
      s.on R.PWR_SUPPLY_STATUS_B_GOOD = true →
      Runs (.mainInputLost false) s fun t =>
      t.on R.PWR_SUPPLY_STATUS_A_GOOD = false ∧ t.on R.PWR_SUPPLY_STATUS_A_LOST = true ∧ t.on R.PWR_SUPPLY_STATUS_B_GOOD = true ∧ t.on R.PWR_EVENT_STATUS_SUPPLY_LOST = true) ∧
  (∀ (s : State),
      s.boll.phase ≠ .off →
      s.on R.PWR_SUPPLY_STATUS_B_GOOD = false →
      Runs (.mainInputGood true) s fun t =>
      t.on R.PWR_SUPPLY_STATUS_B_GOOD = true ∧ t.rd R.PWR_WAKE_LATCH % 2 = 1) ∧
  (∀ (torn : Bool) (s : State),
      s.powered = true →
      s.mainGood = true →
      s.on R.PWR_SUPPLY_STATUS_BKP_GOOD = true →
      Runs (.bothMainsLost torn) s fun t =>
      t.boll.phase = Phase.berth ∧ t.boll.byLoss = true ∧ t.mainGood = false ∧ t.on R.PWR_SUPPLY_STATUS_ON_BKP = true ∧ t.out = s.out) ∧
  (∀ (torn : Bool) (s : State),
      s.boll.phase ≠ .off →
      Runs (.bkpDepleted torn) s fun t =>
      t.boll.phase = Phase.off ∧ t.rd R.SYS_STARTS = s.rd R.SYS_STARTS ∧ t.rd R.PWR_BERTH_ENTRIES = s.rd R.PWR_BERTH_ENTRIES ∧ t.out = s.out) ∧
  (∀ (n sec ms : Nat) (s : State),
      s.boll.phase ≠ .off →
      s.pwr.berthRun = false →
      n < 7 →
      (2 < n → s.mainGood = true) →
      (n = 0 ∨ n = 2 ∨ bit (s.rd R.PWR_WAKE_ENABLE) n = true) →
      Runs (.wakeSourceEvent n sec ms) s fun t =>
      t.on (R.PWR_WAKE_LATCH.bit n) = true) ∧
  (∀ (s : State),
      s.boll.phase = .berth →
      s.rd R.PWR_WAKE_LATCH % 128 ≠ 0 →
      s.mainGood = true →
      Runs (.berthWake) s fun t =>
      t.boll.phase = Phase.power ∧ t.boll.cause = (if s.boll.byLoss then 0x0101 else 0x010A) ∧ t.rd R.PWR_WAKE_CAUSE = s.rd R.PWR_WAKE_LATCH % 128) ∧
  (∀ (sec : Nat) (s : State),
      s.powered = true →
      sec % 60 = 0 →
      s.opSec < sec →
      sec < 2 ^ 32 →
      Runs (.opsecPersist sec) s fun t =>
      t.opSec = sec ∧ t.nv.boot.opSec = sec)

/-- A domain reset that may begin shows BUSY for its domain, and its end shows result 1 and counts it; PWR_DOMAIN_HOLD stores
its writable bits; an access that has waited 10 ms is flagged; 105 degrees mean REDUCED, 60 s of it LOOPS_ONLY but in
evacuation operation, and 60 s at or below 95 degrees one stage less; a tick counts while the rails come up, and the sync
output gives a pulse at every whole sync period. -/
def Obligations.DomainsAndStagesChange : Prop :=
  (∀ (sess d : Nat) (s : State),
      s.powered = true →
      s.engineer sess = true →
      s.isOpen sess = true →
      s.pwr.resetDom = none →
      s.motion = false →
      (d = 3 ∨ d = 4 ∨ d = 7 ∨ (8 ≤ d ∧ d < 14)) →
      Runs (.pwrDomainReset sess 0xA5 d) s fun t =>
      t.pwr.resetDom = some d ∧ t.on R.PWR_DOMAIN_RESET_STATUS_BUSY = true ∧ t.rd R.PWR_DOMAIN_RESET_STATUS_DOMAIN = d) ∧
  (∀ (d : Nat) (s : State),
      s.powered = true →
      s.pwr.resetDom = some d →
      d < 16 →
      s.noWait = true →
      s.rd (R.PWR_DOMAIN_STATUS_RESETS d) < 255 →
      Runs (.domainResetDone) s fun t =>
      t.pwr.resetDom = none ∧ t.on R.PWR_DOMAIN_RESET_STATUS_BUSY = false ∧ t.rd R.PWR_DOMAIN_RESET_STATUS_RESULT = 1) ∧
  (∀ (who mask : Nat) (s : State),
      s.powered = true →
      (8 ≤ who ∨ s.holds who 2 = true) →
      s.noWait = true →
      mask < 2 ^ 32 →
      Runs (.pwrDomainHoldWrite who mask) s fun t =>
      t.rd R.PWR_DOMAIN_HOLD &&& 0x3F9C = mask &&& 0x3F9C) ∧
  (∀ (sess : Nat) (x : Session) (v : Wait) (s : State),
      s.session sess = some x →
      x.wait = some v →
      v.timed = false →
      Runs (.hungAccessTimeout sess) s fun t =>
      t.on R.PWR_EVENT_STATUS_HUNG_ACCESS = true ∧ ((t.session sess).bind (·.wait)).map Wait.timed = some true) ∧
  (∀ (s : State),
      s.powered = true →
      s.rd R.PWR_THERMAL_STATUS_STAGE = 0 →
      Runs (.thermalReducedEntry) s fun t =>
      t.rd R.PWR_THERMAL_STATUS_STAGE = 1 ∧ t.rd R.PWR_REDUCED_COUNT = (s.rd R.PWR_REDUCED_COUNT + 1) % 2 ^ 32) ∧
  (∀ (s : State),
      s.powered = true →
      s.rd R.PWR_THERMAL_STATUS_STAGE = 1 →
      s.evac = false →
      Runs (.thermalDwellExpiry true) s fun t =>
      t.rd R.PWR_THERMAL_STATUS_STAGE = 2 ∧ t.on R.EST_STATUS_RUNNING = false ∧ t.on R.PLT_DISP_STATUS_RUNNING = false ∧ t.on R.PLT_PROT_STATUS_LAYER1_ONLY = true) ∧
  (∀ (s : State),
      s.powered = true →
      s.rd R.PWR_THERMAL_STATUS_STAGE = 1 →
      s.evac = true →
      Runs (.thermalDwellExpiry true) s fun t =>
      t.rd R.PWR_THERMAL_STATUS_STAGE = 1 ∧ t.on R.PWR_THERMAL_STATUS_EVAC_OVERRIDE = true) ∧
  (∀ (s : State),
      s.powered = true →
      (s.rd R.PWR_THERMAL_STATUS_STAGE = 1 ∨ s.rd R.PWR_THERMAL_STATUS_STAGE = 2) →
      Runs (.thermalDwellExpiry false) s fun t =>
      t.rd R.PWR_THERMAL_STATUS_STAGE = s.rd R.PWR_THERMAL_STATUS_STAGE - 1) ∧
  (∀ (ain : List (Nat × Word)) (mot : List MotorIn) (upsets : List (Nat × Bool × Nat × Word)) (s : State),
      s.boll.phase = .power →
      Runs (.tick ain mot upsets) s fun t =>
      t.tick = (s.tick + 1) % 2 ^ 64 ∧ t.boll = s.boll) ∧
  (∀ (ain : List (Nat × Word)) (mot : List MotorIn) (upsets : List (Nat × Bool × Nat × Word)) (s : State),
      s.powered = true →
      s.man.patch = none →
      s.on (R.LOOP_SYNC_OUT.bit 0) = true →
      (s.tick + 1) % 2 ^ 64 % max 1 s.syncPeriod = 0 →
      Runs (.tick ain mot upsets) s fun t =>
      t.sends s fun o => o == Out.frame .usb 1 0 [])

/-- A staging opens, takes its chunks in order and closes for verification; an image that passes its checks puts its slot on
trial and keeps its generation, one that fails makes it INVALID with the error; a patch that would replace a section no patch
may hold is refused with 0x0011, another is accepted or refused; an accepted patch is scheduled for its tick, takes effect at
that boundary with its epoch, and can be aborted until 1 ms before it. -/
def Obligations.ManifestRowsLoadAndPatch : Prop :=
  (∀ (sess tag kind len : Nat) (s : State),
      s.takes sess tag 0x30 4 = true →
      kind ≤ 2 →
      (kind == 2) = s.recovery →
      s.pwr.berthRun = false →
      s.man.stage = none →
      s.man.verify = none →
      Runs (.manifestBegin sess tag kind len) s fun t =>
      t.answers s sess tag 0x30 OK [] ∧ t.man.stage.map (fun g => (g.sess, g.kind, g.len, g.bytes)) = some (sess, kind, len, []) ∧
      t.on R.MAN_STATUS_STAGING = true ∧ t.rd R.MAN_STAGE_LENGTH = len % 2 ^ 32 ∧ t.rd R.MAN_STAGE_RECEIVED = 0) ∧
  (∀ (sess tag off : Nat) (data : List Byte) (g : Staging) (s : State),
      s.takes sess tag 0x31 4 = true →
      s.ownStage sess = some g →
      off = g.bytes.length →
      g.bytes.length + data.length ≤ g.len →
      data ≠ [] →
      data.length ≤ 2 ^ 20 →
      (data.length % 8 = 0 ∨ g.bytes.length + data.length = g.len) →
      Runs (.manifestChunk sess tag off data) s fun t =>
      t.man.stage = some { g with bytes := g.bytes ++ data } ∧ t.rd R.MAN_STAGE_RECEIVED = (g.bytes.length + data.length) % 2 ^ 32 ∧
      t.answers s sess tag 0x31 OK [(g.bytes.length + data.length) % 2 ^ 32]) ∧
  (∀ (sess tag : Nat) (g : Staging) (s : State),
      s.takes sess tag 0x32 4 = true →
      s.ownStage sess = some g →
      g.kind = 0 →
      Runs (.manifestCommit sess tag) s fun t =>
      t.man.stage = none ∧ t.man.verify = some (LoadJob.mk sess g.uid tag g.slot s.tick g.len g.bytes) ∧ t.on R.MAN_STATUS_STAGING = false) ∧
  (∀ (j : LoadJob) (s : State),
      s.man.verify = some j →
      j.slot < 2 →
      Runs (.manifestVerifyDone true) s fun t =>
      t.man.verify = none ∧ (s.imageErr j.bytes j.target true = none → t.slotState j.slot = TRIAL ∧ t.nv.maxGen = u32 j.bytes 0x10 ∧ t.slotState (1 - j.slot) ≠ ACTIVE) ∧
      (s.imageErr j.bytes j.target true ≠ none → t.slotState j.slot = INVALID)) ∧
  (∀ (j : LoadJob) (s : State),
      s.man.verify = some j →
      j.slot < 2 →
      Runs (.manifestVerifyDone false) s fun t =>
      t.man.verify = none ∧ t.slotState j.slot = INVALID ∧ t.rd (R.MAN_SLOT_STATE_ERROR j.slot) = 0x0017 ∧ t.rd R.MAN_LOAD_ERROR_CODE = 0x0017) ∧
  (∀ (sess tag target : Nat) (g : Staging) (s : State),
      s.takes sess tag 0x33 4 = true →
      s.ownStage sess = some g →
      g.kind = 1 →
      Runs (.patchCommit sess tag target) s fun t =>
      t.man.stage = none ∧ ((patchTypes g.bytes).all patchable = false → t.answers s sess tag 0x33 0x0011 [0] ∧ t.rd R.MAN_PATCH_REFUSED = (s.rd R.MAN_PATCH_REFUSED + 1) % 2 ^ 32) ∧
      (t.man.patch = some (LoadJob.mk sess g.uid tag s.loadedSlot s.tick target g.bytes) ∧ t.rd R.MAN_PATCH_STATUS_STATE = 2 ∨ t.man.patch = s.man.patch ∧ t.sends s (Out.answerTo sess tag 0x33))) ∧
  (∀ (j : LoadJob) (s : State),
      s.man.patch = some j →
      s.rd R.MAN_PATCH_STATUS_STATE = 2 →
      s.tickOk j.target = true →
      s.tick + 1 < 2 ^ 64 →
      j.target < 2 ^ 64 →
      Runs (.patchPersistDone true) s fun t =>
      t.rd R.MAN_PATCH_STATUS_STATE = 3 ∧ t.rd64 R.MAN_PATCH_TARGET_LO = (if j.target = 0 then s.tick + 1 else j.target) ∧ t.man.patch = some { j with target := if j.target = 0 then s.tick + 1 else j.target }) ∧
  (∀ (j : LoadJob) (s : State),
      s.powered = true →
      s.man.patch = some j →
      s.rd R.MAN_PATCH_STATUS_STATE = 3 →
      j.target ≤ s.tick + 1 →
      s.on R.LOOP_STATUS_REBUILDING = false →
      Runs (.patchBoundary) s fun t =>
      t.man.patch = none ∧ t.man.cfg = mergeRecs s.man.cfg j.bytes ∧ t.rd R.MAN_PATCH_STATUS_STATE = (if s.man.stage.any (fun g => g.kind == 1) = true then 1 else 4) ∧ t.rd R.MAN_ACTIVE_EPOCH = u16 j.bytes 0x14 % 2 ^ 32 ∧
      t.rd R.MAN_PATCH_COUNT = (s.rd R.MAN_PATCH_COUNT + 1) % 2 ^ 32) ∧
  (∀ (sess : Nat) (g : Staging) (s : State),
      s.keyed sess 0xA5 = true →
      s.man.stage = some g →
      Runs (.abortStage sess 0xA5) s fun t =>
      t.man.stage = none ∧ t.on R.MAN_STATUS_STAGING = false ∧ t.rd R.MAN_STAGE_LENGTH = 0) ∧
  (∀ (sess : Nat) (j : LoadJob) (s : State),
      s.keyed sess 0xA5 = true →
      s.man.patch = some j →
      s.rd R.MAN_PATCH_STATUS_STATE = 3 →
      s.tick + 100 ≤ j.target →
      Runs (.abortPatch sess 0xA5) s fun t =>
      t.man.patch = none ∧ t.rd R.MAN_PATCH_STATUS_STATE = (if s.man.stage.any (fun g => g.kind == 1) = true then 1 else 6))

/-- A connection at a port that Helm serves gets a free number and hands over to its handshake; a completed handshake opens
it as observer with the certificate's roles to choose from, a failed or late one leaves none; disconnect, idle time,
CLOSE_SESSION and an oversize message end a session; SESSION_ROLE grants what the certificate lists; a message given as bytes
is answered BAD_TYPE or BAD_MESSAGE where it has no type or not its type's form, ends the session where it declares too long
a payload, and is its row's otherwise; RELEASE_OWNER frees an event queue; partners are refreshed with their standing sets; a
partner that acts on its own orders changes nothing of the Turid. -/
def Obligations.SessionsOpenAndClose : Prop :=
  (∀ (port n : Nat) (s : State),
      s.helmOn port = true →
      s.freeNumber port = some n →
      Runs (.helmConnect port) s fun t =>
      (t.session n).map (fun (x : Session) => (x.uid, x.handshaking, x.roles)) = some (s.hq.nextUid, true, 1) ∧ t.hq.nextUid = s.hq.nextUid + 1) ∧
  (∀ (n roles serial notBefore notAfter group scheme : Nat) (x : Session) (s : State),
      s.session n = some x →
      x.handshaking = true →
      s.on (R.SEC_RNG_STATUS.bit 0) = true →
      s.noCa = false →
      s.certValid notBefore notAfter = true →
      s.nv.revoked.contains serial = false →
      serial < 2 ^ 64 →
      group < 2 →
      scheme < 2 →
      Runs (.tlsHandshakeComplete n roles serial [] true true false notBefore notAfter ⟨0, 0, group, scheme, false, false⟩) s fun t =>
      t.isOpen n = true ∧ (t.session n).map (fun (y : Session) => (y.uid, y.roles, y.certRoles, y.serial)) = some (x.uid, 1, roles % 32 ||| 1, serial)) ∧
  (∀ (n : Nat) (x : Session) (s : State),
      s.session n = some x →
      x.handshaking = true →
      Runs (.tlsHandshakeTimeout n) s fun t =>
      t.session n = none ∧ t.rd R.NET_TLS_FAILURES = (s.rd R.NET_TLS_FAILURES + 1) % 2 ^ 32) ∧
  (∀ (n : Nat) (s : State),
      s.isOpen n = true →
      Runs (.sessionIdleTimeout n) s fun t =>
      t.session n = none ∧ t.sends s (fun o => o == Out.closed n) ∧ t.on R.HQ_EVENT_STATUS_SESSION_CLOSED = true) ∧
  (∀ (n : Nat) (s : State),
      (s.session n).isSome = true →
      Runs (.helmDisconnect n) s fun t =>
      t.session n = none ∧ t.sends s (fun o => o == Out.closed n)) ∧
  (∀ (n key' : Nat) (s : State),
      s.keyed n 0xA5 = true →
      key' < 8 →
      s.isOpen key' = true →
      Runs (.closeSession n 0xA5 key') s fun t =>
      t.session key' = none ∧ t.sends s (fun o => o == Out.closed key')) ∧
  (∀ (n len : Nat) (s : State),
      (s.session n).isSome = true →
      1048600 < len →
      Runs (.oversizeMessage n len) s fun t =>
      t.session n = none ∧ t.sends s (fun o => o == Out.closed n)) ∧
  (∀ (n q : Nat) (s : State),
      s.keyed n 0xA5 = true →
      q < 4 →
      Runs (.releaseOwner n 0xA5 q) s fun t =>
      (t.eventQ q).owner = none ∧ (t.eventQ q).sent = 0 ∧ (t.eventQ q).entries = (s.eventQ q).entries) ∧
  (∀ (n tag mask : Nat) (x : Session) (s : State),
      s.takes n tag 0x50 0 = true →
      s.session n = some x →
      Runs (.sessionRole n tag mask) s fun t =>
      t.answers s n tag 0x50 OK [(mask % 256 &&& effRoles x.certRoles) ||| 1] ∧ (t.session n).map (·.roles) = some ((mask % 256 &&& effRoles x.certRoles) ||| 1)) ∧
  (∀ (n st : Nat) (header payload : List Byte) (s : State),
      12 ≤ (header ++ payload).length →
      u32 (header ++ payload) 8 ≤ 1048600 →
      (header ++ payload).length = 12 + u32 (header ++ payload) 8 →
      s.takes n (u32 (header ++ payload) 4) (u16 (header ++ payload) 0) 0 = true →
      misspelt n (header ++ payload) = some st →
      Runs (.badTypeMessage n header payload) s fun t =>
      t.answers s n (u32 (header ++ payload) 4) (u16 (header ++ payload) 0) st [] ∧ t.regs = s.regs) ∧
  (∀ (n : Nat) (header payload : List Byte) (s : State),
      12 ≤ (header ++ payload).length →
      1048600 < u32 (header ++ payload) 8 →
      Runs (.badTypeMessage n header payload) s fun t =>
      t.session n = none) ∧
  (∀ (n : Nat) (header payload : List Byte) (j : Instr) (s : State),
      12 ≤ (header ++ payload).length →
      u32 (header ++ payload) 8 ≤ 1048600 →
      (header ++ payload).length = 12 + u32 (header ++ payload) 8 →
      (spell n (header ++ payload)).toOption = some j →
      Runs (.badTypeMessage n header payload) s fun t =>
      t = (s.spelt j).releaseWaits) ∧
  (∀ (u : CfgRec) (r : CfgRec) (s : State),
      s.portsUp = true →
      s.mooring = false →
      s.pcsUnits.contains u = true →
      (s.pcs u.id).state ≠ 1 →
      s.cfg 13 1 2 = some r →
      bit ((s.cfg 10 5 u.id).elim 0 (·.u8 0x16)) 0 = true →
      Runs (.standingRefresh) s fun t =>
      t.sends s (Out.frameTo (.eth 2) 3 u.id)) ∧
  (∀ (kind a b : Nat) (s : State),
      Runs (.partnerSilenceTimeout kind a b) s fun t =>
      t = s)

/-- A READ of one register whose domain runs answers the word that stands there; a WRITE and a READ_MODIFY_WRITE of the
scratch register store the word and answer OK, the second with the word before; a BULK_READ of the cell-state, learned-value
or signal window of up to 65,536 bytes answers offset 0, the tick of the window and its words. -/
def Obligations.MessagesAccessRegisters : Prop :=
  (∀ (n tag a : Nat) (s : State),
      s.takes n tag 1 1 = true →
      s.recovery = false →
      a < 0x150000 →
      a % 4 = 0 →
      s.live (regDomain a) = true →
      isLow a = false →
      isHigh a = false →
      (descOf a).rc = 0 →
      [R.SEC_STAGE_DATA.addr, R.DBG_MEM_DATA.addr, R.PLT_REGEN_POWER.addr, R.PLT_EVAC_STATUS.addr, R.PWR_OP_MS.addr, R.PWR_OP_SECONDS.addr].contains a = false →
      isSelect a = false →
      Runs (.read n tag a 1) s fun t =>
      t.answers s n tag 1 OK [((s.takenUp n tag).viewReg (some n) a).toNat] ∧ t.regs = s.regs) ∧
  (∀ (n tag : Nat) (s : State),
      s.takes n tag 1 1 = true →
      s.recovery = false →
      s.live 1 = true →
      Runs (.read n tag 0xC 1) s fun t =>
      t.answers s n tag 1 OK [(s.word 0xC).toNat] ∧ t.regs = s.regs) ∧
  (∀ (n tag : Nat) (v : Word) (s : State),
      s.takes n tag 2 2 = true →
      s.live 1 = true →
      s.noWait = true →
      Runs (.write n tag 0xC [v]) s fun t =>
      t.answers s n tag 2 OK [] ∧ t.word 0xC = v ∧ t.wordsBut s fun b => b == 0xC) ∧
  (∀ (n tag : Nat) (m v : Word) (s : State),
      s.takes n tag 3 2 = true →
      s.live 1 = true →
      s.noWait = true →
      Runs (.readModifyWrite n tag 0xC m v) s fun t =>
      t.answers s n tag 3 OK [(s.word 0xC).toNat] ∧ t.word 0xC = (s.word 0xC &&& ~~~m) ||| (v &&& m) ∧ t.wordsBut s fun b => b == 0xC) ∧
  (∀ (n tag a len v base size : Nat) (s : State),
      s.takes n tag 4 1 = true →
      v < 3 →
      s.windowOf a = some (v, base, size) →
      a < 2 ^ 40 →
      4 ≤ len →
      len ≤ 65536 →
      a % 4 = 0 →
      len % 4 = 0 →
      (a - base) % windowEntry v = 0 →
      len % windowEntry v = 0 →
      a + len ≤ base + size →
      Runs (.bulkRead n tag a len) s fun t =>
      t.answers s n tag 4 OK ([0, s.windowTick v a] ++ (s.readWindow v a (len / 4)).1.map BitVec.toNat) ∧ t.regs = s.regs)

/-- A command entry that passes its checks joins the tail of its queue and is answered with the depth; the head of the lowest
queue that can start runs from it; a promoted entry moves to the next higher queue; a fence that is first and has drained
completes with the next epoch, a late one with INCOMPLETE; SUBSCRIBE as owner binds the queue; EVENT_SEND sends the owner its
next entry; QUEUE_ACK releases the entries up to a sequence; a part of a learned-value transfer that is not the last is
staged and answered OK. -/
def Obligations.QueuesOrderCommandsAndEvents : Prop :=
  (∀ (n tag q : Nat) (e : List Byte) (s : State),
      s.takes n tag 0x10 1 = true →
      (s.takenUp n tag).pushStatus n q e = OK →
      Runs (.queuePush n tag q e) s fun t =>
      t.answers s n tag 0x10 OK [(s.cqOf q).length + 1] ∧ (t.cqOf q).length = (s.cqOf q).length + 1 ∧
      t.rd (R.HQ_CQ_ACCEPTED q) = (s.rd (R.HQ_CQ_ACCEPTED q) + 1) % 2 ^ 32) ∧
  (∀ (q : Nat) (c : Cmd) (rest : List QItem) (s : State),
      q < 4 →
      s.startable q = some (c, rest) →
      (List.range q).all (fun k => (s.startable k).isNone) = true →
      s.noWait = true →
      Runs (.commandStart) s fun t =>
      t.running q = some c ∧ t.cqOf q = rest) ∧
  (∀ (q id : Nat) (x : QItem) (s : State),
      0 < q →
      q < 4 →
      (s.cqOf q).find? (fun y => y.id == id) = some x →
      (s.cqOf (q - 1)).length < 1024 →
      Runs (.commandPromotion q id) s fun t =>
      t.cqOf (q - 1) = s.cqOf (q - 1) ++ [x.moved (q - 1)] ∧ t.cqOf q = (s.cqOf q).filter (fun y => y.id != id) ∧ t.on R.HQ_EVENT_STATUS_PROMOTION = true) ∧
  (∀ (n tag q scope timeout : Nat) (s : State),
      s.takes n tag 0x12 2 = true →
      q < 4 →
      scope < 128 →
      timeout ≤ 60000 →
      (s.cqOf q).length < 1024 →
      Runs (.fence n tag q scope timeout) s fun t =>
      (t.cqOf q).length = (s.cqOf q).length + 1 ∧ t.hq.fences.map (fun f => (f.tag, f.queue, f.scope, f.timeout)) =
      s.hq.fences.map (fun f => (f.tag, f.queue, f.scope, f.timeout)) ++ [(tag, q, scope, if timeout = 0 then 1000 else timeout)]) ∧
  (∀ (x : Fence) (l : List Fence) (s : State),
      s.hq.fences = x :: l →
      ((s.cqOf x.queue).head?).any (fun y => y.id == x.id) = true →
      s.running x.queue = none →
      s.undrained x = 0 →
      (s.session x.sess).any (fun y => y.uid == x.uid) = true →
      Runs (.fenceComplete x.id) s fun t =>
      t.answers s x.sess x.tag 0x12 OK [0, (s.rd R.HQ_FENCE_EPOCH + 1) % 2 ^ 32] ∧ t.rd R.HQ_FENCE_EPOCH = (s.rd R.HQ_FENCE_EPOCH + 1) % 2 ^ 32) ∧
  (∀ (id undrained : Nat) (x : Fence) (s : State),
      s.hq.fences.find? (fun f => f.id == id) = some x →
      (s.session x.sess).any (fun y => y.uid == x.uid) = true →
      Runs (.fenceTimeout id undrained) s fun t =>
      t.answers s x.sess x.tag 0x12 INCOMPLETE [(undrained ||| s.undrained x) &&& x.scope, s.rd R.HQ_FENCE_EPOCH] ∧ t.rd R.HQ_FENCE_INCOMPLETE = (s.rd R.HQ_FENCE_INCOMPLETE + 1) % 2 ^ 32) ∧
  (∀ (n tag q : Nat) (s : State),
      s.takes n tag 0x20 1 = true →
      s.holds n 2 = true →
      q < 4 →
      (s.eventQ q).owner = none →
      Runs (.subscribe n tag q 2) s fun t =>
      t.answers s n tag 0x20 OK [s.rd (R.HQ_EQ_NEXT_SEQ q)] ∧ (t.eventQ q).owner = some n ∧ (t.eventQ q).sent = 0) ∧
  (∀ (n q : Nat) (x : EvEntry) (s : State),
      (s.eventQ q).owner = some n →
      (s.eventQ q).entries[(s.eventQ q).sent]? = some x →
      Runs (.eventSend n q) s fun t =>
      t.sends s (fun o => o == Out.event n q x) ∧ (t.eventQ q).sent = (s.eventQ q).sent + 1 ∧ (t.eventQ q).entries = (s.eventQ q).entries) ∧
  (∀ (n tag q seq : Nat) (s : State),
      s.takes n tag 0x11 2 = true →
      q < 4 →
      (s.eventQ q).owner = some n →
      seqAfter seq (s.delivered q) = false →
      Runs (.queueAck n tag q seq) s fun t =>
      t.answers s n tag 0x11 OK [] ∧ (t.eventQ q).entries = (s.eventQ q).entries.filter (fun x => seqAfter x.seq seq)) ∧
  (∀ (n tag plant gen off : Nat) (data : List Byte) (s : State),
      s.takes n tag 0x40 4 = true →
      s.est.restore = none →
      data.length % 16 = 0 →
      data.length ≤ 2 ^ 20 →
      off % 16 = 0 →
      off + data.length ≤ 2 ^ 24 →
      Runs (.restoreLearned n tag plant gen 0 off data) s fun t =>
      t.answers s n tag 0x40 OK [] ∧ t.est.restore.map (fun r => (r.sess, r.plant, r.gen, r.parts)) = some (n, plant, gen, [⟨off, data⟩]) ∧
      t.on R.EST_RESTORE_STATUS_STAGED = true)

/-- A trained hop runs at the lower generation advertised unless it is held at 1, and a hop of generation 2 with too many
errors falls back to 1; a lost hop stands as a break until it heals; presence and discovery frames go out; a node whose JOIN
repeats its serial keeps its state and takes the new ring place, one at an undeclared berth is quarantined; the answer to a
challenge joins a node or quarantines it with the failing check, no answer quarantines it with check 7; sweeps and challenges
are sent when due; report frames collect, and the fourth completes the sweep into the intake; a lost or leaving node has that
state. -/
def Obligations.CrossingsTrainJoinAndSample : Prop :=
  (∀ (n hop genA genB : Nat) (endB : Bool) (s : State),
      s.portsUp = true →
      s.xngUsed n = true →
      s.sleepState n = 0 →
      s.idle = true →
      n < 16 →
      Runs (.hopTrained n hop endB genA genB) s fun t =>
      tget (t.ring n).hops hop = some (if (s.ring n).slow.contains hop then 1 else min genA genB)) ∧
  (∀ (n hop : Nat) (s : State),
      s.portsUp = true →
      tget (s.ring n).hops hop = some 2 →
      Runs (.hopErrorFallback n hop) s fun t =>
      tget (t.ring n).hops hop = some 1 ∧ (t.ring n).slow.contains hop = true) ∧
  (∀ (n : Nat) (s : State),
      s.portsUp = true →
      s.xngUsed n = true →
      s.sleepState n = 0 →
      s.idle = true →
      s.xng.txns = [] →
      n < 16 →
      (s.ring n).breaks.contains 0x1FE = false →
      (s.ring n).nodes.all (fun p => decide (p.2.state ≤ 1)) = true →
      Runs (.hopDown n false) s fun t =>
      (t.ring n).breaks = 0x1FE :: (s.ring n).breaks ∧ tget (t.ring n).hops 0x1FE = none) ∧
  (∀ (n berth : Nat) (s : State),
      s.portsUp = true →
      s.xngUsed n = true →
      s.sleepState n = 0 →
      s.idle = true →
      s.xng.txns = [] →
      n < 16 →
      (s.ring n).breaks.contains berth = false →
      (s.ring n).nodes.all (fun p => decide (p.2.state ≤ 1)) = true →
      Runs (.linkFaultReceived n berth true) s fun t =>
      (t.ring n).breaks = berth :: (s.ring n).breaks ∧ tget (t.ring n).hops berth = none) ∧
  (∀ (n hop : Nat) (s : State),
      s.portsUp = true →
      (s.ring n).breaks.contains hop = true →
      (tget (s.ring n).hops hop).isSome = true →
      Runs (.ringHeal n hop) s fun t =>
      (t.ring n).breaks = (s.ring n).breaks.erase hop ∧ t.sends s (Out.frameTo (.xng n false) 0x0E 0x1FF)) ∧
  (∀ (n : Nat) (s : State),
      s.portsUp = true →
      s.xngUsed n = true →
      s.awake n = true →
      s.on R.PWR_WATCHDOG_STATUS_RUNNING = true →
      Runs (.presenceTimer n) s fun t =>
      t.sends s (Out.frameTo (.xng n false) 2 0x1FF) ∧ t.sends s (Out.frameTo (.xng n true) 2 0x1FF) ∧ t.regs = s.regs) ∧
  (∀ (n : Nat) (s : State),
      s.portsUp = true →
      s.xngUsed n = true →
      s.awake n = true →
      (s.declared n).any (fun p => (s.node n p.1).state == 1 || (s.node n p.1).state == 5) = true →
      Runs (.joinDiscoveryTimer n) s fun t =>
      t.sends s (Out.frameTo (.xng n true) 0x0E 0x1FF) ∧ t.regs = s.regs) ∧
  (∀ (n : Nat) (endB : Bool) (x : Rx) (s : State),
      s.portsUp = true →
      s.xngUsed n = true →
      s.idle = true →
      s.hears n x = true →
      x.typ = 0x0E →
      x.payload.length = 236 →
      (s.node n (s.joinFacts n endB x.payload).berth).state = 3 →
      (s.node n (s.joinFacts n endB x.payload).berth).serial = (s.joinFacts n endB x.payload).serial →
      (s.joinFacts n endB x.payload).serial ≠ 0 →
      Runs (.joinResponse n endB x.frame) s fun t =>
      (t.node n (s.joinFacts n endB x.payload).berth).state = 3 ∧ (t.node n (s.joinFacts n endB x.payload).berth).hop = (s.joinFacts n endB x.payload).hop) ∧
  (∀ (n : Nat) (x : Rx) (s : State),
      s.portsUp = true →
      s.xngUsed n = true →
      s.idle = true →
      s.hears n x = true →
      x.typ = 0x0E →
      x.payload.length = 236 →
      s.declaredAt n (s.joinFacts n false x.payload).berth = none →
      (s.joinFacts n false x.payload).berth < 0x1FD →
      (s.node n (s.joinFacts n false x.payload).berth).state = 0 →
      s.cfgAll 13 1 = [] →
      Runs (.joinResponse n false x.frame) s fun t =>
      (t.node n (s.joinFacts n false x.payload).berth).state = 4 ∧ (t.node n (s.joinFacts n false x.payload).berth).reason = 1) ∧
  (∀ (n : Nat) (endB : Bool) (chal : List Byte) (x : Rx) (v : Txn) (i : Nat) (s : State),
      s.idle = true →
      s.hears n x = true →
      x.typ = 9 →
      tget (s.ring n).auths x.src = some chal →
      tget s.xng.txns x.tag = some v →
      v.xng = n →
      v.berth = x.src →
      v.use = .auth →
      u16 x.payload 0 = 0 →
      s.stringAt n x.src = some i →
      (s.pstr i).state ≠ 3 →
      s.cfgAll 13 1 = [] →
      (s.ring n).wait = [] →
      (s.ring n).reauth = none →
      (s.ring n).wake = none →
      (s.node n x.src).state = 2 →
      Runs (.authResponse n endB x.frame) s fun t =>
      (t.node n x.src).state = (if (s.heard n x).authCheck n x.src chal ((x.payload.drop 4).take 64) = 0 then 3 else 4) ∧
      (t.node n x.src).reason = (s.heard n x).authCheck n x.src chal ((x.payload.drop 4).take 64) ∧ tget (t.ring n).auths x.src = none) ∧
  (∀ (n berth i : Nat) (s : State),
      s.idle = true →
      (tget (s.ring n).auths berth).isSome = true →
      s.stringAt n berth = some i →
      (s.pstr i).state ≠ 3 →
      s.cfgAll 13 1 = [] →
      (s.ring n).wait = [] →
      (s.ring n).reauth = none →
      (s.ring n).wake = none →
      Runs (.authTimeout n berth) s fun t =>
      (t.node n berth).state = 4 ∧ (t.node n berth).reason = 7 ∧ tget (t.ring n).auths berth = none) ∧
  (∀ (n berth : Nat) (s : State),
      s.portsUp = true →
      s.awake n = true →
      s.idle = true →
      (s.node n berth).state = 3 →
      (s.ring n).auths = [] →
      (s.ring n).wait = [] →
      Runs (.periodicChallenge n berth) s fun t =>
      (tget (t.ring n).auths berth).isSome = true ∧ (t.node n berth).state = 3) ∧
  (∀ (n berth : Nat) (s : State),
      s.mayCommand = true →
      s.idle = true →
      s.swept n berth = true →
      s.reaches n berth = true →
      Runs (.sweepDue n berth) s fun t =>
      t.sends s (Out.frameTo (.xng n (s.node n berth).byB) 1 berth) ∧ (t.node n berth).sweep = ((s.node n berth).sweep + 1) % 2 ^ 32) ∧
  (∀ (n berth : Nat) (s : State),
      s.mayCommand = true →
      s.idle = true →
      s.swept n berth = true →
      s.reaches n berth = true →
      (s.node n berth).lastTick + threePeriods (s.node n berth).rate < s.tick →
      (s.node n berth).promoted = none →
      Runs (.sweepPromotion n berth) s fun t =>
      t.sends s (Out.frameTo (.xng n (s.node n berth).byB) 1 berth) ∧ (t.node n berth).promoted = some s.tick) ∧
  (∀ (n : Nat) (endB : Bool) (x : Rx) (v : Txn) (s : State),
      s.idle = true →
      s.hears n x = true →
      x.typ = 1 →
      tget s.xng.txns x.tag = some v →
      v.xng = n →
      v.berth = x.src →
      v.use = .sample →
      x.payload.length = 424 →
      (tput v.got (u8 x.payload 0x14 % 4) x.payload).length ≠ 4 →
      Runs (.sampleReport n endB x.frame) s fun t =>
      tget t.xng.txns x.tag = some { v with got := tput v.got (u8 x.payload 0x14 % 4) x.payload }) ∧
  (∀ (n : Nat) (endB : Bool) (x : Rx) (v : Txn) (s : State),
      s.idle = true →
      s.hears n x = true →
      x.typ = 1 →
      tget s.xng.txns x.tag = some v →
      v.xng = n →
      v.berth = x.src →
      v.use = .sample →
      x.payload.length = 424 →
      (tput v.got (u8 x.payload 0x14 % 4) x.payload).length = 4 →
      (s.declaredAt n x.src).isSome = true →
      s.rd R.PWR_THERMAL_STATUS_STAGE ≠ 2 →
      s.est.intake.length < 4096 →
      Runs (.sampleReport n endB x.frame) s fun t =>
      tget t.xng.txns x.tag = none ∧ t.est.intake = s.est.intake ++ [sweepOf n x.src (tput v.got (u8 x.payload 0x14 % 4) x.payload) v.tables]) ∧
  (∀ (n : Nat) (endB : Bool) (x : Rx) (s : State),
      s.hears n x = true →
      x.typ = 1 →
      x.payload.length = 424 →
      bit x.flags 1 = true →
      (s.node n x.src).applied ≠ some (u32 x.payload 0) →
      (s.node n x.src).report = [] →
      Runs (.unsolicitedReport n endB x.frame) s fun t =>
      (t.node n x.src).report = [x.payload]) ∧
  (∀ (n berth c : Nat) (s : State),
      s.portsUp = true →
      s.awake n = true →
      s.idle = true →
      (s.node n berth).state = 3 →
      s.stringAt n berth = none →
      s.containerAt n berth = some c →
      (s.pcon c).closed = false →
      Runs (.nodeLost n berth) s fun t =>
      (t.node n berth).state = 5 ∧ tget (t.ring n).auths berth = none) ∧
  (∀ (n c : Nat) (endB : Bool) (x : Rx) (s : State),
      s.idle = true →
      s.hears n x = true →
      x.typ = 0x0F →
      bit x.flags 0 = false →
      s.nodeTxns n x.src = 0 →
      s.stringAt n x.src = none →
      s.containerAt n x.src = some c →
      (s.pcon c).closed = false →
      Runs (.nodeLeave n endB x.frame) s fun t =>
      (t.node n x.src).state = 6 ∧ tget (t.ring n).auths x.src = none)

/-- A tracked response ends its transaction and the command that waits for it; an unanswered request is sent once more with
RETRY through the other end and then ends; RING_SLEEP proposes, the last agreement commits, no answer or a refusal aborts;
the tone and RING_WAKE wake a sleeping crossing; NODE_READ and NODE_WRITE send their request, REDISCOVER sends a census and
completes with the answers counted, REAUTHENTICATE challenges its node, RETRAIN trains every hop anew. -/
def Obligations.CrossingsAnswerSleepAndWake : Prop :=
  (∀ (n q : Nat) (endB : Bool) (x : Rx) (v : Txn) (c : Cmd) (s : State),
      s.idle = true →
      s.hears n x = true →
      [2, 3, 4, 5, 6, 7, 0x0F].contains x.typ = true →
      tget s.xng.txns x.tag = some v →
      v.xng = n →
      v.berth = x.src →
      v.typ = x.typ →
      bit x.flags 0 = true →
      v.use = .queue q →
      x.typ = 3 →
      u16 x.payload 0 = 0 →
      s.serving q c.code c = true →
      Runs (.hawserResponse n endB x.frame) s fun t =>
      tget t.xng.txns x.tag = none ∧ t.completed s q c OK 0) ∧
  (∀ (tag : Nat) (v : Txn) (s : State),
      tget s.xng.txns tag = some v →
      v.use = .plain →
      v.retried = false →
      Runs (.transactionTimeout tag) s fun t =>
      t.sends s (Out.frameTo (.xng v.xng (s.retryEnd v)) v.typ v.berth) ∧ tget t.xng.txns tag = some { v with retried := true, viaB := s.retryEnd v }) ∧
  (∀ (tag : Nat) (v : Txn) (s : State),
      s.idle = true →
      tget s.xng.txns tag = some v →
      v.use = .plain →
      v.retried = true →
      Runs (.transactionTimeout tag) s fun t =>
      tget t.xng.txns tag = none ∧ (v.xng < 16 → t.rd (R.XNG_TXN_TIMEOUT v.xng) = (s.rd (R.XNG_TXN_TIMEOUT v.xng) + 1) % 2 ^ 32)) ∧
  (∀ (q : Nat) (c : Cmd) (s : State),
      s.serving q 0x0504 c = true →
      s.portsUp = true →
      s.xngUsed c.inst = true →
      s.maySleep c.inst = true →
      c.inst < 16 →
      Runs (.ringSleep q) s fun t =>
      t.sends s (Out.frameTo (.xng c.inst false) 0x0B 0x1FF) ∧ t.sleepState c.inst = (if s.sleepVoters c.inst = [] then 2 else 1) ∧ (t.ring c.inst).sleepQ = some q) ∧
  (∀ (n : Nat) (endB : Bool) (x : Rx) (s : State),
      s.hears n x = true →
      x.typ = 0x0B →
      s.sleepState n = 1 →
      u32 x.payload 4 = (s.ring n).sleepId →
      u16 x.payload 0 = 0 →
      (s.sleepVoters n).all (fun b => b == x.src || (s.ring n).agreed.contains b) = true →
      n < 16 →
      Runs (.sleepProposeResponse n endB x.frame) s fun t =>
      t.sleepState n = 2 ∧ t.sends s (Out.frameTo (.xng n false) 0x0C 0x1FF) ∧ (t.ring n).commitAt = some s.tick) ∧
  (∀ (n q : Nat) (c : Cmd) (s : State),
      s.sleepState n = 1 →
      (s.ring n).sleepQ = some q →
      s.serving q 0x0504 c = true →
      n < 16 →
      Runs (.sleepAnswerTimeout n) s fun t =>
      t.sleepState n = 0 ∧ t.rd (R.XNG_SLEEP_STATUS_LAST_ABORT n) = 2 ∧ t.sends s (Out.frameTo (.xng n true) 0x0D 0x1FF) ∧ t.completed s q c STATE 2) ∧
  (∀ (n : Nat) (s : State),
      s.powered = true →
      s.sleepState n = 3 →
      n < 16 →
      Runs (.wakeTone n) s fun t =>
      t.sleepState n = 4 ∧ t.sends s (Out.frameTo (.xng n false) 0x100 0x1FF) ∧ (t.ring n).wake = some 1 ∧ t.on (R.XNG_SLEEP_STATUS_WAKE_LATCHED n) = true) ∧
  (∀ (q : Nat) (c : Cmd) (s : State),
      s.serving q 0x0505 c = true →
      s.portsUp = true →
      s.xngUsed c.inst = true →
      s.sleepState c.inst = 3 →
      c.inst < 16 →
      Runs (.ringWake q) s fun t =>
      t.sleepState c.inst = 4 ∧ t.sends s (Out.frameTo (.xng c.inst true) 0x100 0x1FF) ∧ (t.ring c.inst).wake = some 0 ∧ (t.ring c.inst).wakeQ = (s.ring c.inst).wakeQ ++ [q]) ∧
  (∀ (q : Nat) (c : Cmd) (s : State),
      s.serving q 0x0505 c = true →
      s.portsUp = true →
      s.xngUsed c.inst = true →
      s.awake c.inst = true →
      Runs (.ringWake q) s fun t =>
      t.completed s q c OK 0) ∧
  (∀ (q : Nat) (c : Cmd) (s : State),
      s.serving q 0x0501 c = true →
      s.idle = true →
      s.portsUp = true →
      s.xngUsed c.inst = true →
      s.reaches c.inst (u16 c.args 0 % 512) = true →
      (u16 c.args 8 = 1 ∨ u16 c.args 8 = 2) →
      Runs (.nodeRead q) s fun t =>
      t.sends s (Out.frameTo (.xng c.inst (s.node c.inst (u16 c.args 0 % 512)).byB) 2 (u16 c.args 0 % 512)) ∧ t.running q = some c ∧
      (tget t.xng.txns (freeTag s.xng.txns 0)).map (fun v => (v.xng, v.berth, v.typ, v.use)) = some (c.inst, u16 c.args 0 % 512, 2, .queue q)) ∧
  (∀ (q : Nat) (c : Cmd) (s : State),
      s.serving q 0x0502 c = true →
      s.idle = true →
      s.portsUp = true →
      s.xngUsed c.inst = true →
      s.reaches c.inst (u16 c.args 0 % 512) = true →
      1 ≤ u16 c.args 8 →
      u16 c.args 8 ≤ 10 →
      Runs (.nodeWrite q) s fun t =>
      t.sends s (Out.frameTo (.xng c.inst (s.node c.inst (u16 c.args 0 % 512)).byB) 3 (u16 c.args 0 % 512)) ∧ t.running q = some c ∧
      (tget t.xng.txns (freeTag s.xng.txns 0)).map (fun v => (v.xng, v.berth, v.typ, v.use)) = some (c.inst, u16 c.args 0 % 512, 3, .queue q)) ∧
  (∀ (q wait : Nat) (c : Cmd) (s : State),
      s.serving q 0x0503 c = true →
      s.portsUp = true →
      s.xngUsed c.inst = true →
      s.sleepState c.inst = 0 →
      (s.ring c.inst).census = none →
      Runs (.rediscover q wait) s fun t =>
      t.sends s (Out.frameTo (.xng c.inst false) 0x0E 0x1FF) ∧ t.running q = some c ∧ (t.ring c.inst).census = some (q, s.tick + 1000 + wait, [])) ∧
  (∀ (q : Nat) (c : Cmd) (s : State),
      s.serving q 0x0506 c = true →
      s.idle = true →
      s.portsUp = true →
      s.xngUsed c.inst = true →
      s.awake c.inst = true →
      (s.ring c.inst).reauth = none →
      u16 c.args 0 % 512 ≠ 0x1FF →
      (s.sleepVoters c.inst).contains (u16 c.args 0 % 512) = true →
      (s.ring c.inst).auths = [] →
      (s.ring c.inst).wait = [] →
      Runs (.reauthenticate q) s fun t =>
      (t.ring c.inst).reauth = some (q, [u16 c.args 0 % 512], 0) ∧ (tget (t.ring c.inst).auths (u16 c.args 0 % 512)).isSome = true) ∧
  (∀ (sess n : Nat) (s : State),
      s.keyed sess 0xA5 = true →
      s.portsUp = true →
      s.xngUsed n = true →
      s.awake n = true →
      Runs (.retrain sess 0xA5 n) s fun t =>
      (t.ring n).hops = [] ∧ (t.ring n).slow = [])

/-- SWEEP_APPLY takes the next waiting sweep: of a declared string its sample is applied whole and then judged, under the
cell tables that it began with; a retry that fails with fewer than three good pipelines discards it. ROLLUP_PUBLISH counts
EST_ROLLUP_SEQ and stamps the tick. A checkpoint trigger starts one or is served by one further; a write that succeeds leaves
the newest generation plus 1 in the other slot and completes its command, a failed one waits for its retry. REST_COMPLETE,
FREEZE_EXPIRY and the EST commands change their string. -/
def Obligations.EstimationFollowsItsRows : Prop :=
  (∀ (wrong redo : List Nat) (r : Bool) (w : Sweep) (e : Est) (i : Nat) (y : CfgRec) (s : State),
      s.powered = true →
      s.on R.EST_STATUS_RUNNING = true →
      s.pwr.resetDom ≠ some 4 →
      s.nextSweep = some (w, e) →
      w.tables = none →
      s.stringAt w.xng w.berth = some i →
      s.strType i = some y →
      w.xng < 16 →
      (3 ≤ s.goodPipes.length ∨ r = false) →
      Runs (.sweepApply wrong redo r) s fun t =>
      t.judgedOf i w.time (fun (u : State) => u.est.intake = e.intake ∧ (u.estStr i).number = w.number ∧ (u.estStr i).time = some w.time ∧ (u.estStr i).contact = w.contact ∧ u.rd64 (R.XNG_SWEEPS_LO w.xng) = (s.rd64 (R.XNG_SWEEPS_LO w.xng) + 1) % 2 ^ 64)) ∧
  (∀ (wrong redo : List Nat) (r : Bool) (w : Sweep) (e : Est) (i : Nat) (y : CfgRec) (l : List CfgRec) (m : Man) (s : State),
      s.powered = true →
      s.on R.EST_STATUS_RUNNING = true →
      s.pwr.resetDom ≠ some 4 →
      s.nextSweep = some (w, e) →
      w.tables = some l →
      m = { s.man with cfg := s.man.cfg.filter (fun x => x.sec != 4) ++ l } →
      ({ s with man := m } : State).stringAt w.xng w.berth = some i →
      ({ s with man := m } : State).strType i = some y →
      w.xng < 16 →
      (3 ≤ s.goodPipes.length ∨ r = false) →
      Runs (.sweepApply wrong redo r) s fun t =>
      t.man = s.man ∧ ({ t with man := m } : State).judgedOf i w.time (fun (u : State) => u.est.intake = e.intake ∧ (u.estStr i).number = w.number ∧ (u.estStr i).time = some w.time ∧ (u.estStr i).contact = w.contact ∧ u.rd64 (R.XNG_SWEEPS_LO w.xng) = (s.rd64 (R.XNG_SWEEPS_LO w.xng) + 1) % 2 ^ 64)) ∧
  (∀ (wrong redo : List Nat) (w : Sweep) (e : Est) (s : State),
      s.powered = true →
      s.on R.EST_STATUS_RUNNING = true →
      s.pwr.resetDom ≠ some 4 →
      s.nextSweep = some (w, e) →
      s.goodPipes.length < 3 →
      Runs (.sweepApply wrong redo true) s fun t =>
      t.est.intake = e.intake ∧ t.est.discards.getLast? = some s.tick) ∧
  (∀ (i : Nat) (s : State),
      (s.estStr i).state = 1 →
      (s.cfg 5 3 i).isSome = true →
      Runs (.restComplete i) s fun t =>
      (t.estStr i).init = some ⟨List.range 256, [], 0⟩) ∧
  (∀ (s : State),
      s.powered = true →
      7 ≤ s.stage →
      s.stage ≤ 9 →
      Runs (.rollupPublish) s fun t =>
      t.rd R.EST_ROLLUP_SEQ = (s.rd R.EST_ROLLUP_SEQ + 1) % 2 ^ 32 ∧ t.rd64 R.EST_ROLLUP_TICK_LO = s.tick ∧ t.est.roll = (if s.on R.EST_STATUS_ROLLUP_STALE = true then s.est.roll else s.strings.map s.rollStr)) ∧
  (∀ (s : State),
      s.estUp = true →
      s.est.ckptRun = none →
      Runs (.checkpointInterval) s fun t =>
      t.est.ckptRun = some (1, []) ∧ t.on R.EST_STATUS_CKPT_RUNNING = true) ∧
  (∀ (x : Nat × List Nat) (s : State),
      s.estUp = true →
      s.est.ckptRun = some x →
      s.est.ckptNext = none →
      Runs (.checkpointInterval) s fun t =>
      t.est.ckptRun = some x ∧ t.est.ckptNext = some (1, [])) ∧
  (∀ (cause q : Nat) (c : Cmd) (s : State),
      s.powered = true →
      s.est.ckptRun = some (cause, [q]) →
      cause ≠ 7 →
      s.serving q c.code c = true →
      Runs (.checkpointDone true) s fun t =>
      t.est.ckptRun = s.est.ckptNext ∧ t.est.ckptNext = none ∧
      (fun (o : Option (Nat × Ckpt)) => (tget t.nv.ckpt (o.elim 0 fun p => 1 - p.1)).map (·.gen) = some ((o.elim 0 (·.2.gen) + 1) % 2 ^ 32)) (newestCkpt s.nv.ckpt s.plantIdent) ∧
      t.completed s q c OK (((newestCkpt s.nv.ckpt s.plantIdent).elim 0 (·.2.gen) + 1) % 2 ^ 32)) ∧
  (∀ (cause k : Nat) (qs : List Nat) (s : State),
      s.powered = true →
      s.est.ckptRun = some (cause, qs) →
      Runs (.checkpointDone false) s fun t =>
      t.est.ckptRun = s.est.ckptNext ∧ t.est.ckptNext = none ∧ t.est.ckptRetry = s.est.ckptRetry ++ [(cause, qs)] ∧
      tget t.nv.ckpt k = if k = s.ckptSlot then (tget s.nv.ckpt k).map (fun c => { c with committed := false }) else tget s.nv.ckpt k) ∧
  (∀ (cause : Nat) (qs : List Nat) (l : List (Nat × List Nat)) (s : State),
      s.est.ckptRetry = (cause, qs) :: l →
      s.est.ckptRun = none →
      Runs (.checkpointRetry) s fun t =>
      t.est.ckptRetry = l ∧ t.est.ckptRun = some (cause, qs) ∧ t.on R.EST_STATUS_CKPT_RUNNING = true) ∧
  (∀ (cause : Nat) (qs : List Nat) (x : Nat × List Nat) (l : List (Nat × List Nat)) (s : State),
      s.est.ckptRetry = (cause, qs) :: l →
      s.est.ckptRun = some x →
      s.est.ckptNext = none →
      Runs (.checkpointRetry) s fun t =>
      t.est.ckptRetry = l ∧ t.est.ckptRun = some x ∧ t.est.ckptNext = some (cause, qs)) ∧
  (∀ (i a : Nat) (y : CfgRec) (s : State),
      (s.estStr i).state = 4 →
      (s.estStr i).frozenAt = some a →
      a + cfgD (s.cfg 1 1 0) (·.u32 0x1C) 90 * 86400 ≤ s.opSec →
      s.strType i = some y →
      Runs (.freezeExpiry i) s fun t =>
      (t.estStr i).frozenAt = none ∧ (t.estStr i).learned = List.replicate 256 y.defaults) ∧
  (∀ (q : Nat) (c : Cmd) (s : State),
      s.serving q 0x0601 c = true →
      s.estUp = true →
      s.est.ckptRun = none →
      Runs (.checkpoint q) s fun t =>
      t.est.ckptRun = some (if bit (u8 c.args 0) 0 = true then 4 else 6, [q]) ∧ t.running q = some c) ∧
  (∀ (q : Nat) (c : Cmd) (r : RollStr) (a b : Nat) (s : State),
      s.serving q 0x0602 c = true →
      s.est.roll.find? (·.idx == u16 c.args 0 % 4096) = some r →
      r.pick (u8 c.args 2) = some (a, b) →
      Runs (.stringFigures q) s fun t =>
      t.completed s q c OK ((a + 2 ^ 32 * b) % 2 ^ 64)) ∧
  (∀ (q : Nat) (c : Cmd) (s : State),
      s.serving q 0x0603 c = true →
      (s.cfg 5 3 (u16 c.args 0 % 4096)).isSome = true →
      Runs (.reinitialise q) s fun t =>
      t.completed s q c OK 0 ∧ (t.estStr (u16 c.args 0 % 4096)).toRest = true) ∧
  (∀ (q : Nat) (c : Cmd) (s : State),
      s.serving q 0x0604 c = true →
      (s.cfg 5 3 (u16 c.args 0 % 4096)).isSome = true →
      Runs (.resetLearned q) s fun t =>
      t.completed s q c OK 0 ∧ (t.estStr (u16 c.args 0 % 4096)).toDefault = true) ∧
  (∀ (q k : Nat) (c : Cmd) (s : State),
      s.serving q 0x0605 c = true →
      k = u32 c.args 0 % 2 ^ 20 →
      (s.cfg 5 3 (k / 256)).isSome = true →
      Runs (.clearShort q) s fun t =>
      t.completed s q c OK 0 ∧ (t.estStr (k / 256)).cells = (s.estStr (k / 256)).cells.modify (k % 256) (·.setFlag 11 false)) ∧
  (∀ (sess : Nat) (r : Restore) (s : State),
      s.keyed sess 0xA5 = true →
      s.on R.EST_RESTORE_STATUS_STAGED = true →
      s.est.restore = some r →
      Runs (.abortRestore sess 0xA5) s fun t =>
      t.est.restore = none ∧ t.rd R.EST_RESTORE_STATUS_RESULT = 6 ∧ t.on R.EST_RESTORE_STATUS_STAGED = false ∧ t.on R.EST_STATUS_RESTORE_RUNNING = false)

/-- A string or breaker that may close starts CLOSING with CONTACTOR to its node, outside the voltage window a string shows
WAIT_VOLTAGE; a close that is late trips with CLOSE_FAIL; an orderly open sends OPEN at its time; the container reads go out;
balancing marks and commands a qualifying string; thermal control sends a set-point between 5 and 45 °C; RESET_TRIP returns
to OPEN, THERMAL_MODE sets the mode. -/
def Obligations.StringsAndContainersOpenAndClose : Prop :=
  (∀ (i : Nat) (s : State),
      s.idle = true →
      s.mayCommand = true →
      (s.pstr i).opening = true →
      (s.pstr i).sentOpen = false →
      (s.pstr i).inFlight = false →
      s.reaches (i / 256) (s.stringBerth i) = true →
      Runs (.orderlyOpenTimeout i) s fun t =>
      t.sends s (Out.frameTo (.xng (i / 256) (s.strNode i).byB) 5 (s.stringBerth i)) ∧ (t.pstr i).sentOpen = true ∧ (t.pstr i).inFlight = true) ∧
  (∀ (i : Nat) (s : State),
      s.idle = true →
      s.underway = true →
      s.mayCommand = true →
      s.closeReady i = true →
      s.closeWindow i = true →
      s.reaches (i / 256) (s.stringBerth i) = true →
      Runs (.stringCloseStart i) s fun t =>
      t.sends s (Out.frameTo (.xng (i / 256) (s.strNode i).byB) 5 (s.stringBerth i)) ∧ (t.pstr i).state = 2 ∧ (t.pstr i).inFlight = true ∧ (t.pstr i).closeAt = s.tick) ∧
  (∀ (i : Nat) (s : State),
      s.idle = true →
      s.underway = true →
      s.mayCommand = true →
      s.closeReady i = true →
      s.closeWindow i = false →
      Runs (.stringCloseStart i) s fun t =>
      (t.pstr i).state = (s.pstr i).state ∧ (t.pstr i).waitVolt = true ∧ (t.pstr i).waitSince = some ((s.pstr i).waitSince.getD s.tick)) ∧
  (∀ (i : Nat) (s : State),
      s.idle = true →
      (s.pstr i).state = 2 →
      Runs (.stringClosingTimeout i) s fun t =>
      (t.pstr i).state = 5 ∧ (t.pstr i).cause = 8 ∧ t.rd R.PLT_CLOSE_FAILS = (s.rd R.PLT_CLOSE_FAILS + 1) % 2 ^ 32) ∧
  (∀ (i q : Nat) (c : Cmd) (s : State),
      s.idle = true →
      (s.pstr i).state = 2 →
      (s.pstr i).closeQ = some q →
      (s.pstr i).openQ = none →
      s.serving q c.code c = true →
      Runs (.stringClosingTimeout i) s fun t =>
      (t.pstr i).state = 5 ∧ (t.pstr i).cause = 8 ∧ t.completed s q c 0x0712 (5 + 16 * 8)) ∧
  (∀ (c : Nat) (s : State),
      (s.pcon c).state = 2 →
      Runs (.containerClosingTimeout c) s fun t =>
      (t.pcon c).state = 5 ∧ (t.pcon c).cause = 4 ∧ t.rd R.PLT_BREAKER_TRIPS = (s.rd R.PLT_BREAKER_TRIPS + 1) % 2 ^ 32) ∧
  (∀ (c : Nat) (s : State),
      s.idle = true →
      s.mayCommand = true →
      (s.pcon c).state = 4 →
      (s.pcon c).sentOpen = false →
      (s.conNode c).state = 3 →
      s.reaches (c / 16) (s.containerBerth c) = true →
      (s.pcon c).openAt + 20000 ≤ s.tick →
      (s.pcon c).inFlight = false →
      Runs (.containerCurrentRead c) s fun t =>
      t.sends s (Out.frameTo (.xng (c / 16) (s.conNode c).byB) 5 (s.containerBerth c)) ∧ (t.pcon c).sentOpen = true) ∧
  (∀ (c : Nat) (s : State),
      s.idle = true →
      s.mayCommand = true →
      (s.pcon c).state = 4 →
      (s.pcon c).sentOpen = false →
      s.reaches (c / 16) (s.containerBerth c) = true →
      s.tick < (s.pcon c).openAt + 20000 →
      Runs (.containerCurrentRead c) s fun t =>
      t.sends s (Out.frameTo (.xng (c / 16) (s.conNode c).byB) 2 (s.containerBerth c)) ∧ (t.pcon c).sentOpen = false) ∧
  (∀ (c : Nat) (s : State),
      s.idle = true →
      s.mayCommand = true →
      (s.pcon c).watch ≠ [] →
      (s.conNode c).state = 3 →
      s.reaches (c / 16) (s.containerBerth c) = true →
      Runs (.branchCurrentRead c) s fun t =>
      t.sends s (Out.frameTo (.xng (c / 16) (s.conNode c).byB) 2 (s.containerBerth c))) ∧
  (∀ (c : Nat) (s : State),
      s.idle = true →
      s.mayCommand = true →
      (s.conNode c).state = 3 →
      s.reaches (c / 16) (s.containerBerth c) = true →
      Runs (.containerStatusRead c) s fun t =>
      t.sends s (Out.frameTo (.xng (c / 16) (s.conNode c).byB) 2 (s.containerBerth c))) ∧
  (∀ (i : Nat) (charge : Bool) (s : State),
      Runs (.overcurrentBlockExpiry i charge) s fun t =>
      (t.pstr i).chgBlock = ((s.pstr i).chgBlock && !charge) ∧ (t.pstr i).disBlock = ((s.pstr i).disBlock && charge)) ∧
  (∀ (i : Nat) (y : CfgRec) (s : State),
      s.idle = true →
      s.mayCommand = true →
      s.strings = [i] →
      s.strType i = some y →
      s.mayBalance i = true →
      s.reaches (i / 256) (s.stringBerth i) = true →
      markCells y ((s.estStr i).cells.zip (s.estStr i).learned) (s.pstr i).marked ≠ [] →
      Runs (.balanceCycle) s fun t =>
      (t.pstr i).marked = markCells y ((s.estStr i).cells.zip (s.estStr i).learned) (s.pstr i).marked ∧ (t.pstr i).balancing = true ∧ t.sends s (Out.frameTo (.xng (i / 256) (s.strNode i).byB) 4 (s.stringBerth i))) ∧
  (∀ (c : Nat) (s : State),
      s.idle = true →
      s.mayCommand = true →
      s.containers = [c] →
      (s.pcon c).sentAt = none →
      s.reaches (c / 16) (s.containerBerth c) = true →
      Runs (.thermalSetpointCycle) s fun t =>
      t.sends s (Out.frameTo (.xng (c / 16) (s.conNode c).byB) 6 (s.containerBerth c)) ∧ (t.pcon c).sentAt = some s.tick ∧ 5 ≤ (t.pcon c).setpoint ∧ (t.pcon c).setpoint ≤ 45) ∧
  (∀ (c : Nat) (s : State),
      bit (s.pcon c).word 6 = false →
      Runs (.thermalFaultBlockEnd c) s fun t =>
      (t.pcon c).thermBlock = false) ∧
  (∀ (q i : Nat) (c : Cmd) (s : State),
      s.serving q 0x0701 c = true →
      i = u16 c.args 0 % 4096 →
      (s.cfg 5 3 i).isSome = true →
      (s.pstr i).state = 3 →
      Runs (.stringClose q) s fun t =>
      t.intent i = true ∧ t.completed s q c OK (s.strResult i % 2 ^ 64)) ∧
  (∀ (q i : Nat) (c : Cmd) (s : State),
      s.serving q 0x0701 c = true →
      i = u16 c.args 0 % 4096 →
      (s.cfg 5 3 i).isSome = true →
      (s.pstr i).closeQ = none →
      s.idle = true →
      s.underway = true →
      s.mayCommand = true →
      (s.setIntent i true).closeReady i = true →
      s.closeWindow i = true →
      s.reaches (i / 256) (s.stringBerth i) = true →
      Runs (.stringClose q) s fun t =>
      t.intent i = true ∧ (t.pstr i).state = 2 ∧ (t.pstr i).closeQ = some q ∧ t.running q = some c ∧ t.sends s (Out.frameTo (.xng (i / 256) (s.strNode i).byB) 5 (s.stringBerth i))) ∧
  (∀ (q i : Nat) (c : Cmd) (s : State),
      s.serving q 0x0702 c = true →
      i = u16 c.args 0 % 4096 →
      (s.cfg 5 3 i).isSome = true →
      s.openRole c = true →
      (s.pstr i).state = 3 →
      (s.pstr i).openQ = none →
      (s.pstr i).opening = false →
      s.idle = true →
      Runs (.stringOpen q) s fun t =>
      t.nv.intentStr = s.nv.intentStr.erase i ∧ (t.pstr i).state = 4 ∧ (t.pstr i).opening = true ∧ (t.pstr i).openQ = some q ∧ t.running q = some c) ∧
  (∀ (q i : Nat) (c : Cmd) (s : State),
      s.serving q 0x0702 c = true →
      i = u16 c.args 0 % 4096 →
      (s.cfg 5 3 i).isSome = true →
      s.openRole c = true →
      (s.pstr i).state = 1 →
      (s.pstr i).openQ = none →
      (s.pstr i).opening = false →
      (s.pstr i).closeQ = none →
      (s.estStr i).contact % 4 = 0 →
      Runs (.stringOpen q) s fun t =>
      t.nv.intentStr = s.nv.intentStr.erase i ∧ t.completed s q c OK (s.strResult i % 2 ^ 64)) ∧
  (∀ (q i : Nat) (c : Cmd) (s : State),
      s.serving q 0x0702 c = true →
      i = u16 c.args 0 % 4096 →
      (s.cfg 5 3 i).isSome = true →
      s.openRole c = true →
      s.idle = true →
      (s.pstr i).state = 1 →
      (s.pstr i).openQ = none →
      (s.pstr i).opening = false →
      (s.pstr i).closeQ = none →
      (s.estStr i).contact % 4 ≠ 0 →
      Runs (.stringOpen q) s fun t =>
      t.nv.intentStr = s.nv.intentStr.erase i ∧ (t.pstr i).opening = true ∧ (t.pstr i).state = 4 ∧ (t.pstr i).openQ = some q ∧ t.running q = some c) ∧
  (∀ (q k : Nat) (c : Cmd) (s : State),
      s.serving q 0x0703 c = true →
      k = u16 c.args 0 % 256 →
      (s.cfg 5 2 k).isSome = true →
      (s.pcon k).state = 1 →
      (s.pcon k).closeQ = none →
      (s.pcon k).inFlight = false →
      bit (s.pcon k).word 3 = false →
      s.idle = true →
      s.underway = true →
      s.mayCommand = true →
      (s.stringsOf k).any (fun i => (s.pstr i).state == 3) = true →
      s.reaches (k / 16) (s.containerBerth k) = true →
      Runs (.containerClose q) s fun t =>
      t.intentCon k = true ∧ (t.pcon k).state = 2 ∧ (t.pcon k).closeQ = some q ∧ t.running q = some c ∧ t.sends s (Out.frameTo (.xng (k / 16) (s.conNode k).byB) 5 (s.containerBerth k))) ∧
  (∀ (q k : Nat) (c : Cmd) (s : State),
      s.serving q 0x0704 c = true →
      k = u16 c.args 0 % 256 →
      (s.cfg 5 2 k).isSome = true →
      s.openRole c = true →
      (s.pcon k).state = 3 →
      (s.pcon k).closeQ = none →
      (s.pcon k).openQ ≠ some q →
      bit (s.pcon k).word 0 = true →
      Runs (.containerOpen q) s fun t =>
      t.nv.intentCon = s.nv.intentCon.erase k ∧ (t.pcon k).state = 4 ∧ (t.pcon k).openQ = some q ∧ (t.pcon k).withStrings = bit (u8 c.args 2) 0 ∧ (t.pcon k).openAt = s.tick ∧ t.running q = some c) ∧
  (∀ (q k : Nat) (c : Cmd) (s : State),
      s.serving q 0x0704 c = true →
      k = u16 c.args 0 % 256 →
      (s.cfg 5 2 k).isSome = true →
      s.openRole c = true →
      (s.pcon k).state = 1 →
      (s.pcon k).closeQ = none →
      bit (s.pcon k).word 0 = false →
      bit (u8 c.args 2) 0 = false →
      s.idle = true →
      Runs (.containerOpen q) s fun t =>
      t.nv.intentCon = s.nv.intentCon.erase k ∧ t.completed s q c OK (s.conResult k % 2 ^ 64)) ∧
  (∀ (q i : Nat) (c : Cmd) (s : State),
      s.serving q 0x0705 c = true →
      u8 c.args 0 = 0 →
      i = u16 c.args 2 % 4096 →
      (s.pstr i).state = 5 →
      s.causeHolds i (s.pstr i).cause = false →
      Runs (.resetTrip q) s fun t =>
      (t.pstr i).state = 1 ∧ t.completed s q c OK ((1 + 16 * (s.pstr i).cause) % 2 ^ 64)) ∧
  (∀ (q k : Nat) (c : Cmd) (s : State),
      s.serving q 0x0705 c = true →
      u8 c.args 0 ≠ 0 →
      k = u16 c.args 2 % 256 →
      (s.pcon k).state = 5 →
      s.conCauseHolds k = false →
      Runs (.resetTrip q) s fun t =>
      (t.pcon k).state = 1 ∧ t.completed s q c OK ((1 + 16 * (s.pcon k).cause) % 2 ^ 64)) ∧
  (∀ (q k : Nat) (c : Cmd) (s : State),
      s.serving q 0x0706 c = true →
      k = u16 c.args 0 % 256 →
      (s.cfg 5 2 k).isSome = true →
      u8 c.args 2 ≤ 2 →
      s.idle = true →
      s.reaches (k / 16) (s.containerBerth k) = true →
      (u8 c.args 2 = 2 → s.conOpenSeen k = true) →
      Runs (.thermalMode q) s fun t =>
      (t.pcon k).manual = u8 c.args 2 ∧ t.completed s q c OK (s.conResult k % 2 ^ 64))

/-- Mains lost leads to ISLAND, or to EVACUATION with a fire alarm; mains present and the end of the alarm lead back. The 1
ms cycle clamps the source value to the stack of layers; a fault of the source in use switches to the fallback, a return to
the selected source. A STATUS that passes its checks is taken, the tenth in a row makes its unit live, 20 ms without one
LOST. Intervals close, are stored and read; the schedule takes and drops entries. -/
def Obligations.DispatchAndModesFollowTheirRows : Prop :=
  (∀ (units : Bool) (s : State),
      s.underway = true →
      s.mainsLost = false →
      s.fireAlarm = false →
      Runs (.mainsLostConfirm units) s fun t =>
      t.mainsLost = true ∧ t.dispMode = ISLAND) ∧
  (∀ (units : Bool) (s : State),
      s.underway = true →
      s.mainsLost = false →
      s.fireAlarm = true →
      s.dispMode ≠ EVACUATION →
      Runs (.mainsLostConfirm units) s fun t =>
      t.mainsLost = true ∧ t.dispMode = EVACUATION ∧ t.evac = true ∧ t.disp.evacEres = s.eRes) ∧
  (∀ (s : State),
      s.underway = true →
      s.mainsLost = true →
      Runs (.mainsPresentConfirm) s fun t =>
      t.mainsLost = false ∧ t.dispMode = (if s.dispMode = ISLAND then GRID else s.dispMode)) ∧
  (∀ (s : State),
      s.underway = true →
      s.mainsLost = true →
      s.evac = false →
      s.dispMode ≠ EVACUATION →
      Runs (.fireAlarmActive) s fun t =>
      t.fireAlarm = true ∧ t.dispMode = EVACUATION ∧ t.evac = true) ∧
  (∀ (s : State),
      s.underway = true →
      s.mainsLost = false →
      Runs (.fireAlarmActive) s fun t =>
      t.fireAlarm = true ∧ t.dispMode = s.dispMode) ∧
  (∀ (s : State),
      s.underway = true →
      s.fireAlarm = true →
      Runs (.fireAlarmHoldExpiry) s fun t =>
      t.fireAlarm = false ∧ t.dispMode = (if s.evac = true then (if s.mainsLost = true then ISLAND else GRID) else s.dispMode)) ∧
  (∀ (s : State),
      s.mayCommand = true →
      s.idle = true →
      Runs (.dispatchCycle) s fun t =>
      t.on R.PLT_DISP_STATUS_RUNNING = true ∧ t.rd R.PLT_SETPOINT = (toB32 (clampB (stack s.layers) (t.rdR R.PLT_SOURCE_VALUE 0))).toNat ∧
      t.disp.bill.map (·.ms) = s.disp.bill.map (·.ms + 1)) ∧
  (∀ (src : Nat) (s : State),
      src = s.srcInUse →
      src ≠ 0 →
      src ≠ 5 →
      Runs (.sourceFault src) s fun t =>
      t.srcInUse = (if src = s.srcRec.elim 0 (·.u8 0x11) ∨ s.srcFaulty (s.srcRec.elim 0 (·.u8 0x11)) = true then 0 else s.srcRec.elim 0 (·.u8 0x11) % 8) ∧ t.on R.PLT_DISP_STATUS_SOURCE_FALLBACK = true ∧ t.disp.switching = true) ∧
  (∀ (s : State),
      s.on R.PLT_DISP_STATUS_SOURCE_FALLBACK = true →
      s.srcFaulty (s.rd R.PLT_SOURCE_SELECT_SELECTED) = false →
      Runs (.sourceRestore) s fun t =>
      t.srcInUse = s.rd R.PLT_SOURCE_SELECT_SELECTED ∧ t.on R.PLT_DISP_STATUS_SOURCE_FALLBACK = false ∧ t.disp.switching = true) ∧
  (∀ (sess : Nat) (s : State),
      s.keyed sess 0xA5 = true →
      s.on R.PLT_DISP_STATUS_SOURCE_FALLBACK = true →
      s.srcFaulty (s.rd R.PLT_SOURCE_SELECT_SELECTED) = false →
      Runs (.returnToSource sess 0xA5) s fun t =>
      t.srcInUse = s.rd R.PLT_SOURCE_SELECT_SELECTED ∧ t.on R.PLT_DISP_STATUS_SOURCE_FALLBACK = false ∧ t.disp.switching = true) ∧
  (∀ (sess code : Nat) (s : State),
      s.holds sess 2 = true →
      s.powered = true →
      s.srcRec.any (fun r => bit (r.u8 0x12) (code % 8)) = true →
      code % 8 < 5 →
      s.srcFaulty (code % 8) = false →
      Runs (.sourceSelectWrite sess code) s fun t =>
      t.rd R.PLT_SOURCE_SELECT_SELECTED = code % 8 ∧ t.srcInUse = code % 8 ∧ t.on R.PLT_DISP_STATUS_SOURCE_FALLBACK = false) ∧
  (∀ (sess code : Nat) (s : State),
      (5 ≤ code % 8 ∨ s.srcRec.any (fun r => bit (r.u8 0x12) (code % 8)) = false) →
      Runs (.sourceSelectWrite sess code) s fun t =>
      t.regs = s.regs ∧ t.disp = s.disp) ∧
  (∀ (sess code : Nat) (s : State),
      s.holds sess 2 = true →
      s.powered = true →
      s.srcRec.any (fun r => bit (r.u8 0x12) (code % 8)) = true →
      code % 8 < 5 →
      s.srcFaulty (code % 8) = true →
      Runs (.sourceSelectWrite sess code) s fun t =>
      t.rd R.PLT_SOURCE_SELECT_SELECTED = code % 8 ∧ t.on R.PLT_DISP_STATUS_SOURCE_FALLBACK = true) ∧
  (∀ (u : CfgRec) (dg : List Byte) (s : State),
      s.portsUp = true →
      s.goodStatus u dg = true →
      Runs (.pcsStatusDatagram dg) s fun t =>
      (t.pcs u.id).rxSeq = some (u16 dg 4) ∧ (t.pcs u.id).power = (f32? (BitVec.ofNat 32 (u32 (dg.drop 32) 0))).getD 0 ∧ t.rd R.NET_PCS_RX = (s.rd R.NET_PCS_RX + 1) % 2 ^ 32 ∧
      (u32 (dg.drop 32) 0x20 = (s.pcs u.id).standGen ∧ 9 ≤ (s.pcs u.id).good → t.pcsLive u.id = true)) ∧
  (∀ (p : Nat) (s : State),
      s.pcsLive p = true →
      Runs (.pcsLostTimeout p) s fun t =>
      (t.pcs p).state = 3 ∧ (t.pcs p).good = 0 ∧ t.on R.PLT_DISP_EVENT_STATUS_PCS_CHANGE = true) ∧
  (∀ (x : OpenBill) (s : State),
      s.disp.bill = some x →
      s.timeKnown = true →
      bit x.flags 2 = false →
      x.label ≠ (s.slotLabel % 2 ^ 32).toNat →
      Runs (.billingIntervalClose) s fun t =>
      t.nv.billing.head? = some (Billing.mk x.seq x.label x.ms x.imp x.exp x.flags) ∧
      t.disp.bill.map (fun y => (y.seq, y.label, y.imp, y.exp)) = some ((s.nv.billSeq + 1) % 2 ^ 32, (s.slotLabel % 2 ^ 32).toNat, 0, 0)) ∧
  (∀ (x : OpenBill) (s : State),
      s.disp.bill = some x →
      Runs (.billingPersist) s fun t =>
      t.nv.billOpen = some (Billing.mk x.seq x.label x.ms x.imp x.exp x.flags)) ∧
  (∀ (q : Nat) (c : Cmd) (l : List SchedEntry) (s : State),
      s.serving q 0x0720 c = true →
      l = schedPut s.disp.sched (SchedEntry.mk (u64 c.args 0) (BitVec.ofNat 32 (u32 c.args 8)) (bit (u8 c.args 12) 0)) →
      (schedNow s.disp.sched s.plantNow).all (fun e => decide (e.time ≤ u64 c.args 0)) = true →
      (s.disp.sched.length < 1024 ∨ s.disp.sched.any (fun e => e.time == u64 c.args 0) = true) →
      Runs (.scheduleAdd q) s fun t =>
      t.disp.sched = l ∧ t.completed s q c OK (l.length % 2 ^ 64) ∧ t.rd R.PLT_SCHEDULE_DEPTH = l.length % 2 ^ 32) ∧
  (∀ (q : Nat) (c : Cmd) (l : List SchedEntry) (s : State),
      s.serving q 0x0721 c = true →
      l = s.disp.sched.filter (fun e => decide (e.time < u64 c.args 0)) →
      Runs (.scheduleClear q) s fun t =>
      t.disp.sched = l ∧ t.completed s q c OK (l.length % 2 ^ 64) ∧ t.rd R.PLT_SCHEDULE_DEPTH = l.length % 2 ^ 32) ∧
  (∀ (q : Nat) (c : Cmd) (x : Billing) (s : State),
      s.serving q 0x0722 c = true →
      s.nv.billing.find? (fun b => b.seq == u32 c.args 0) = some x →
      u8 c.args 4 < 3 →
      Runs (.billingRead q) s fun t =>
      t.completed s q c OK ((match u8 c.args 4 with | 0 => whole x.importWh + 2 ^ 32 * whole x.exportWh | 1 => x.label + 2 ^ 32 * x.duration | _ => x.flags + 2 ^ 32 * x.seq) % 2 ^ 64))

/-- An accepted host write is staged for the next boundary and a refused one says why; SET_SIGNALS stages all its signals and
waits; RESTART_SLOT starts a parked slot at the next boundary. Sync arms, tracks edges, counts early and missed ones and is
lost at the third in a row. A PWM fault input latches until a write clears it while it is inactive. -/
def Obligations.SignalsSyncAndPwmFaults : Prop :=
  (∀ (sess : Nat) (v : Word) (s : State),
      s.holds sess 2 = true →
      s.powered = true →
      s.hostBad (s.sel (some sess) R.LOOP_SIG_INDEX.addr % 65536) v = 0 →
      Runs (.loopSigWrite sess v) s fun t =>
      t.loop.staged.getLast? = some (s.sel (some sess) R.LOOP_SIG_INDEX.addr % 65536, v, true) ∧ t.rd R.LOOP_SIG_WRITE_STATUS_RESULT = 1 ∧ t.on R.LOOP_SIG_WRITE_STATUS_PENDING = true) ∧
  (∀ (sess : Nat) (v : Word) (s : State),
      s.holds sess 2 = true →
      s.powered = true →
      s.hostBad (s.sel (some sess) R.LOOP_SIG_INDEX.addr % 65536) v ≠ 0 →
      Runs (.loopSigWrite sess v) s fun t =>
      t.loop.staged = s.loop.staged ∧ t.rd R.LOOP_SIG_WRITE_STATUS_RESULT = s.hostBad (s.sel (some sess) R.LOOP_SIG_INDEX.addr % 65536) v ∧ t.rd R.LOOP_HOST_REFUSED = (s.rd R.LOOP_HOST_REFUSED + 1) % 2 ^ 32) ∧
  (∀ (q n : Nat) (c : Cmd) (s : State),
      s.serving q 0x0801 c = true →
      u8 c.args 0 = n + 1 →
      n < 6 →
      (List.range (n + 1)).all (fun k => s.hostBad (u16 c.args (4 + 8 * k)) (BitVec.ofNat 32 (u32 c.args (8 + 8 * k))) == 0) = true →
      Runs (.setSignals q) s fun t =>
      t.loop.waits = s.loop.waits ++ [q] ∧ t.running q = some c ∧ t.loop.staged.getLast? = some (u16 c.args (4 + 8 * n), BitVec.ofNat 32 (u32 c.args (8 + 8 * n)), true)) ∧
  (∀ (q : Nat) (c : Cmd) (s : State),
      s.serving q 0x0802 c = true →
      s.engine ≠ HALTED →
      (s.slotRec (u16 c.args 0)).isSome = true →
      s.slotParked (u16 c.args 0) = true →
      Runs (.restartSlot q) s fun t =>
      t.loop.toStart = s.loop.toStart ++ [u16 c.args 0] ∧ t.completed s q c OK ((s.tick + 1) % 2 ^ 64)) ∧
  (∀ (sess : Nat) (s : State),
      s.keyed sess 0xA5 = true →
      (s.rd R.LOOP_SYNC_STATUS_STATE = 0 ∨ s.rd R.LOOP_SYNC_STATUS_STATE = 3) →
      Runs (.syncArm sess 0xA5) s fun t =>
      t.rd R.LOOP_SYNC_STATUS_STATE = 1 ∧ t.rd R.LOOP_SYNC_STATUS_EARLY_RUN = 0 ∧ t.rd R.LOOP_SYNC_STATUS_MISSED_RUN = 0 ∧ t.rd R.LOOP_SYNC_STATUS_PERIOD = s.syncPeriod % 2 ^ 10) ∧
  (∀ (sess : Nat) (s : State),
      s.keyed sess 0xA5 = true →
      Runs (.syncDisarm sess 0xA5) s fun t =>
      t.rd R.LOOP_SYNC_STATUS_STATE = 0 ∧ t.rd R.LOOP_SYNC_STATUS_EARLY_RUN = 0 ∧ t.rd R.LOOP_SYNC_STATUS_MISSED_RUN = 0) ∧
  (∀ (cycle : Nat) (s : State),
      s.loop.ended = none →
      s.rd R.LOOP_SYNC_STATUS_STATE = 1 →
      s.schedEnd ≤ cycle →
      cycle ≤ s.lateLimit →
      Runs (.syncEdge cycle) s fun t =>
      t.rd R.LOOP_SYNC_STATUS_STATE = 2 ∧ t.loop.ended = some cycle ∧ t.loop.syncPos = 0) ∧
  (∀ (cycle : Nat) (s : State),
      s.loop.ended = none →
      s.rd R.LOOP_SYNC_STATUS_STATE = 2 →
      s.periodEnds = true →
      cycle < s.schedEnd →
      Runs (.syncEdge cycle) s fun t =>
      t.rd R.LOOP_SYNC_EARLY = (s.rd R.LOOP_SYNC_EARLY + 1) % 2 ^ 32 ∧ t.loop.syncPos = 0 ∧ t.loop.ended = some (if s.loopGlide = true then 7500 else 30000) ∧
      t.rd R.LOOP_SYNC_STATUS_MISSED_RUN = 0 ∧ t.rd R.LOOP_SYNC_STATUS_EARLY_RUN = (s.rd R.LOOP_SYNC_STATUS_EARLY_RUN + 1) % 16 ∧ t.rd R.LOOP_SYNC_STATUS_STATE = (if 2 ≤ s.rd R.LOOP_SYNC_STATUS_EARLY_RUN then 3 else 2)) ∧
  (∀ (cycle : Nat) (s : State),
      s.loop.ended = none →
      s.rd R.LOOP_SYNC_STATUS_STATE = 2 →
      s.periodEnds = true →
      s.schedEnd ≤ cycle →
      cycle ≤ s.lateLimit →
      Runs (.syncEdge cycle) s fun t =>
      t.loop.syncPos = 0 ∧ t.loop.ended = some cycle ∧ t.rd R.LOOP_SYNC_STATUS_STATE = 2 ∧ t.rd R.LOOP_SYNC_STATUS_EARLY_RUN = 0 ∧ t.rd R.LOOP_SYNC_STATUS_MISSED_RUN = 0) ∧
  (∀ (s : State),
      s.rd R.LOOP_SYNC_STATUS_STATE = 2 →
      s.periodEnds = true →
      s.loop.ended = none →
      Runs (.syncLateLimit) s fun t =>
      t.rd R.LOOP_SYNC_MISSED = (s.rd R.LOOP_SYNC_MISSED + 1) % 2 ^ 32 ∧ t.loop.syncPos = 0 ∧ t.loop.ended = some s.lateLimit ∧ t.rd R.LOOP_SYNC_STATUS_EARLY_RUN = 0 ∧
      t.rd R.LOOP_SYNC_STATUS_MISSED_RUN = (s.rd R.LOOP_SYNC_STATUS_MISSED_RUN + 1) % 16 ∧ t.rd R.LOOP_SYNC_STATUS_STATE = (if 2 ≤ s.rd R.LOOP_SYNC_STATUS_MISSED_RUN then 3 else 2)) ∧
  (∀ (i : Nat) (s : State),
      i < 4 →
      s.powered = true →
      Runs (.pwmFaultInput i true) s fun t =>
      t.on (R.PWM_FAULT_STATUS_ACTIVE.bit i) = true ∧ t.on (R.PWM_FAULT_STATUS_LATCHED.bit i) = true ∧
      t.rd R.PWM_FAULT_COUNT = (if s.on (R.PWM_FAULT_STATUS_LATCHED.bit i) = true then s.rd R.PWM_FAULT_COUNT else (s.rd R.PWM_FAULT_COUNT + 1) % 2 ^ 32)) ∧
  (∀ (i : Nat) (s : State),
      i < 4 →
      s.powered = true →
      Runs (.pwmFaultInput i false) s fun t =>
      t.on (R.PWM_FAULT_STATUS_ACTIVE.bit i) = false ∧ t.rd R.PWM_FAULT_STATUS_LATCHED = s.rd R.PWM_FAULT_STATUS_LATCHED) ∧
  (∀ (sess i : Nat) (v : Word) (s : State),
      s.holds sess 2 = true →
      s.powered = true →
      i < 4 →
      Runs (.pwmFaultLatchClear sess v) s fun t =>
      t.on (R.PWM_FAULT_STATUS_LATCHED.bit i) = (s.on (R.PWM_FAULT_STATUS_LATCHED.bit i) && !(bit v.toNat i && !s.on (R.PWM_FAULT_STATUS_ACTIVE.bit i))))

/-- A cycle's end takes the mode of the plant and then does its work; a fixture's message is heard, a press registers its
call, keys act; a fixture silent too long and a button stuck too long are marked; indications and lamps go out; parking and
the evacuation dwell move a car on; HOST_CALL registers, CANCEL_CALL cancels, CAR_SERVICE, EVAC_CALL and CALL_READ answer. -/
def Obligations.TheLiftGroupTakesItsCalls : Prop :=
  (∀ (s : State),
      s.underway = true →
      s.mayCommand = true →
      s.pwr.berthRun = false →
      (s.dispMode ≠ EVACUATION ∨ s.rd R.GRP_STATUS_MODE = 3) →
      Runs (.groupDispatchCycle) s fun t =>
      t.cycledFrom (fun (u : State) => u.rd R.GRP_STATUS_MODE = (if s.dispMode = EVACUATION then 3 else if s.dispMode = ISLAND then 2 else 1) ∧ u.on R.GRP_STATUS_STOPPED_THERMAL = false)) ∧
  (∀ (s : State),
      (s.underway = false ∨ s.mayCommand = false ∨ s.pwr.berthRun = true) →
      Runs (.groupDispatchCycle) s fun t =>
      t.rd R.GRP_STATUS_MODE = 0 ∧ t.grp = s.grp) ∧
  (∀ (f b n : Nat) (r : CfgRec) (s : State),
      s.portsUp = true →
      s.fixRec f = some r →
      r.fxType = 0 →
      b ≤ 1 →
      n = s.grp.nextId →
      (s.fixt f).stuck.contains b = false →
      s.standing.all (fun p => p.2.kind != b || p.2.landing != r.u8 0x14 || p.2.entrance != r.u8 0x15 || p.2.aboard) = true →
      Runs (.fixturePress f b true) s fun t =>
      (t.fixt f).heard = some s.tick ∧ (t.fixt f).lost = false ∧ (t.fixt f).pressed.contains b = true ∧ t.grp.nextId = n + 1 ∧ (t.call n).kind = b ∧ (t.call n).landing = r.u8 0x14 ∧ (t.call n).entrance = r.u8 0x15 ∧ (t.call n).state = 1 ∧ (t.call n).since = s.tick) ∧
  (∀ (f b : Nat) (r : CfgRec) (s : State),
      s.portsUp = true →
      s.fixRec f = some r →
      r.fxType ≠ 2 →
      Runs (.fixturePress f b false) s fun t =>
      (t.fixt f).heard = some s.tick ∧ (t.fixt f).pressed = (s.fixt f).pressed.erase b ∧ (t.fixt f).stuck = (s.fixt f).stuck.erase b) ∧
  (∀ (f dest ent flags n : Nat) (r : CfgRec) (s : State),
      s.portsUp = true →
      s.fixRec f = some r →
      r.fxType = 1 →
      n = s.grp.nextId →
      s.standing.all (fun p => p.2.kind != 2 || p.2.landing != r.u8 0x14 || p.2.entrance != r.u8 0x15 || p.2.dest != dest || p.2.aboard) = true →
      Runs (.fixtureDestination f dest ent flags) s fun t =>
      (t.fixt f).heard = some s.tick ∧ (t.call n).kind = 2 ∧ (t.call n).landing = r.u8 0x14 ∧ (t.call n).dest = dest ∧ (t.call n).destEnt = ent ∧ (t.call n).state = 1 ∧ (t.call n).accessible = (bit flags 0 || bit (r.u8 0x17) 0)) ∧
  (∀ (f : Nat) (on' : Bool) (r : CfgRec) (s : State),
      s.portsUp = true →
      s.fixRec f = some r →
      s.grp.fireRecall ≠ on' →
      Runs (.fixtureKey f 0 on') s fun t =>
      (t.fixt f).heard = some s.tick ∧ t.grp.fireRecall = on' ∧ t.on R.GRP_STATUS_FIRE_RECALL = on') ∧
  (∀ (f : Nat) (on' : Bool) (r : CfgRec) (s : State),
      s.portsUp = true →
      s.fixRec f = some r →
      s.cars.contains (r.u8 0x16) = true →
      Runs (.fixtureKey f 2 on') s fun t =>
      (t.fixt f).heard = some s.tick ∧ (t.gcar (r.u8 0x16)).service = (if on' = true then 2 else 0)) ∧
  (∀ (f : Nat) (on' : Bool) (r : CfgRec) (s : State),
      s.portsUp = true →
      s.fixRec f = some r →
      s.cars.contains (r.u8 0x16) = true →
      Runs (.fixtureKey f 4 on') s fun t =>
      (t.fixt f).heard = some s.tick ∧ (t.gcar (r.u8 0x16)).service = (if on' = true then 1 else 0)) ∧
  (∀ (f status : Nat) (s : State),
      s.portsUp = true →
      (s.fixRec f).isSome = true →
      Runs (.fixtureHeartbeat f status) s fun t =>
      (t.fixt f).heard = some s.tick ∧ (t.fixt f).lost = false ∧ (t.fixt f).status = status) ∧
  (∀ (f : Nat) (s : State),
      (s.fixRec f).isSome = true →
      (s.fixt f).lost = false →
      Runs (.fixtureLost f) s fun t =>
      (t.fixt f).lost = true ∧ t.on R.GRP_EVENT_STATUS_FIXTURE_FAULT = true ∧ t.grp.calls = s.grp.calls) ∧
  (∀ (f b : Nat) (s : State),
      (s.fixt f).pressed.contains b = true →
      (s.fixt f).stuck.contains b = false →
      Runs (.buttonStuck f b) s fun t =>
      (t.fixt f).stuck.contains b = true ∧ t.on R.GRP_EVENT_STATUS_FIXTURE_FAULT = true) ∧
  (∀ (f : CfgRec) (s : State),
      s.mayCommand = true →
      s.fixtures = [f] →
      f.u8 0x10 ≠ 0 →
      Runs (.indicateRefresh) s fun t =>
      ((tgetD (t.serOf (f.u8 0x11)).nodes (f.u8 0x12) SerNode.fresh).out.getLast?).map (fun m => (u8 m 0, m.length)) = some (0x83, 8)) ∧
  (∀ (i : Nat) (f : CfgRec) (b : Nat) (s : State),
      (s.call i).state = 4 →
      s.lampsOf (s.call i) = [(f, b)] →
      f.u8 0x10 ≠ 0 →
      Runs (.refusedLampTimeout i) s fun t =>
      (tgetD (t.serOf (f.u8 0x11)).nodes (f.u8 0x12) SerNode.fresh).out.getLast? = some (le 1 0x81 ++ le 1 b ++ le 6 0)) ∧
  (∀ (c l : Nat) (s : State),
      s.underway = true →
      s.mayCommand = true →
      s.gState c = IN_GROUP →
      s.carCalls c = [] →
      s.carMoves c = false →
      (s.gcar c).parked = false →
      s.parkAt c = some l →
      s.landingHere c ≠ some l →
      s.frozen c = false →
      c < 8 →
      Runs (.parkingDelayExpiry c) s fun t =>
      (t.gcar c).parked = true ∧ t.on (R.CAR_NEXT_STOP_VALID c) = true ∧ t.rd (R.CAR_NEXT_STOP_LANDING c) = l % 128) ∧
  (∀ (c l : Nat) (s : State),
      s.underway = true →
      s.mayCommand = true →
      s.gState c = IN_GROUP →
      s.carCalls c = [] →
      s.carMoves c = false →
      (s.gcar c).parked = false →
      s.parkAt c = none →
      Runs (.parkingDelayExpiry c) s fun t =>
      (t.gcar c).parked = true) ∧
  (∀ (c : Nat) (s : State),
      s.rd R.GRP_STATUS_MODE = 3 →
      s.gState c = IN_EVACUATION →
      (s.gcar c).phase = 2 →
      s.landingHere c ≠ some s.discharge →
      Runs (.evacuationDwellExpiry c) s fun t =>
      (t.gcar c).phase = 3) ∧
  (∀ (q n : Nat) (c : Cmd) (s : State),
      s.serving q 0x0A01 c = true →
      s.underway = true →
      s.dispMode ≠ EVACUATION →
      s.reserveUnknown = false →
      u8 c.args 0 ≤ 1 →
      n = s.grp.nextId →
      s.cars.any (fun j => s.servesAt j (u8 c.args 1) (u8 c.args 2)) = true →
      s.standing = [] →
      Runs (.hostCall q) s fun t =>
      t.completed s q c OK (n % 2 ^ 64) ∧ (t.call n).kind = u8 c.args 0 ∧ (t.call n).landing = u8 c.args 1 ∧ (t.call n).entrance = u8 c.args 2 ∧ (t.call n).state = 1) ∧
  (∀ (q i : Nat) (c : Cmd) (s : State),
      s.serving q 0x0A02 c = true →
      i = u32 c.args 0 →
      (s.call i).stands = true →
      Runs (.cancelCall q) s fun t =>
      t.completed s q c OK 0 ∧ (t.call i).state = 5) ∧
  (∀ (q : Nat) (c : Cmd) (s : State),
      s.serving q 0x0A03 c = true →
      s.cars.contains (u8 c.args 0) = true →
      u8 c.args 1 ≤ 2 →
      Runs (.carService q) s fun t =>
      (t.gcar (u8 c.args 0)).service = u8 c.args 1 ∧ t.grp.serviceQ = s.grp.serviceQ ++ [(q, u8 c.args 0)] ∧ t.running q = some c) ∧
  (∀ (q n : Nat) (c : Cmd) (s : State),
      s.serving q 0x0A04 c = true →
      s.rd R.GRP_STATUS_MODE = 3 →
      (s.cfg 6 1 (u8 c.args 0)).isSome = true →
      u8 c.args 2 = 0 →
      n = s.grp.nextId →
      s.standing.all (fun p => p.2.kind != 4) = true →
      Runs (.evacCall q) s fun t =>
      t.completed s q c OK 0 ∧ (t.call n).kind = 4 ∧ (t.call n).landing = u8 c.args 0 ∧ (t.call n).state = 1) ∧
  (∀ (q : Nat) (c : Cmd) (s : State),
      s.serving q 0x0A04 c = true →
      s.rd R.GRP_STATUS_MODE = 3 →
      (s.cfg 6 1 (u8 c.args 0)).isSome = true →
      u8 c.args 2 ≠ 0 →
      Runs (.evacCall q) s fun t =>
      t.completed s q c OK 0 ∧ tget t.grp.light (u8 c.args 0) = none) ∧
  (∀ (q : Nat) (c : Cmd) (k : Call) (s : State),
      s.serving q 0x0A05 c = true →
      tget s.grp.calls (u32 c.args 0) = some k →
      Runs (.callRead q) s fun t =>
      t.completed s q c OK ((k.kind + 2 ^ 8 * k.car.getD 15 + 2 ^ 16 * (k.landing % 128) + 2 ^ 24 * k.state + 2 ^ 32 * (k.wait.getD ((s.tick - k.since) / 100) % 2 ^ 32)) % 2 ^ 64))

/-- An accepted tape read is taken and a bad frame counted; an edge latches its position; a faulted source degrades or loses
the position; a target is written unless frozen; the drive's STATUS is taken, its loss and a bound that passes stop the car
with their cause; terminal and final inputs show and stop; STOP_CAR stops ramped, CORRECTION_RUN starts a run. -/
def Obligations.CarsArePlacedMovedAndStopped : Prop :=
  (∀ (c frame stamp v : Nat) (back : Rat) (r : CfgRec) (s : State),
      s.powered = true →
      s.posRec c = some r →
      r.ssiDecode frame = some v →
      (s.ch c).tape.all (fun a => decide ((((r.tapeUm v - a.1).natAbs : Nat) : Rat) ≤ ratAbs (s.ch c).vel * ((stamp - a.2 : Nat) : Rat) / 3000 + 10000)) = true →
      Runs (.ssiRead c frame stamp back) s fun t =>
      (t.ch c).tape = some (r.tapeUm v, stamp) ∧ (t.ch c).rejects = 0 ∧ (t.ch c).known = true ∧ ((s.ch c).known = false → (t.ch c).fused = wrapFx (r.tapeUm v * umUnit))) ∧
  (∀ (c frame stamp : Nat) (back : Rat) (r : CfgRec) (s : State),
      s.powered = true →
      s.posRec c = some r →
      r.ssiDecode frame = none →
      Runs (.ssiRead c frame stamp back) s fun t =>
      (t.ch c).tape = (s.ch c).tape ∧ (t.ch c).rejects = (s.ch c).rejects + 1 ∧ (t.ch c).fused = (s.ch c).fused) ∧
  (∀ (c src stamp : Nat) (falling : Bool) (back : Rat) (r : CfgRec) (s : State),
      s.powered = true →
      s.posRec c = some r →
      Runs (.latchEdge c src falling stamp back) s fun t =>
      tget (t.ch c).latches (src + 8 * b2n falling) = some (ratFloor (s.fusedBack c back), stamp) ∧ (src = 1 → (t.ch c).zone = !falling)) ∧
  (∀ (c : Nat) (s : State),
      s.powered = true →
      (s.posRec c).isSome = true →
      c < 8 →
      s.motorBad c = false →
      Runs (.motorSourceFault c) s fun t =>
      t.motorBad c = true ∧ t.quality c = (if s.tapeBad c = true then POS_LOST else if s.quality c = POS_GOOD then POS_DEGRADED else s.quality c)) ∧
  (∀ (c l e : Nat) (s : State),
      s.underway = true →
      (s.served c).contains l = true →
      s.frozen c = false →
      c < 8 →
      Runs (.targetWrite c l e) s fun t =>
      (t.ch c).pend = some (s.landingUm l) ∧ t.on (R.CAR_NEXT_STOP_VALID c) = true ∧ t.rd (R.CAR_NEXT_STOP_LANDING c) = l % 128 ∧ t.rd (R.CAR_NEXT_STOP_ENTRANCE c) = e % 2) ∧
  (∀ (c l e : Nat) (s : State),
      s.frozen c = true →
      Runs (.targetWrite c l e) s fun t =>
      t = s) ∧
  (∀ (sess c : Nat) (motorOk tapeOk : Bool) (s : State),
      s.keyed sess 0xA5 = true →
      c < 8 →
      Runs (.clearFault sess 0xA5 c motorOk tapeOk) s fun t =>
      t.motorBad c = (s.motorBad c && !motorOk) ∧ t.tapeBad c = (s.tapeBad c && !tapeOk)) ∧
  (∀ (c : Nat) (d : List Byte) (s : State),
      s.portsUp = true →
      (s.carRec c).isSome = true →
      d.length = 24 →
      seqNew (s.carOf c).drvSeq (u16 d 0) = true →
      c < 8 →
      Runs (.tractionStatusFrame c d) s fun t =>
      (t.carOf c).drvSeq = some (u16 d 0) ∧ (t.carOf c).drvGood = (s.carOf c).drvGood + 1 ∧ t.rd (R.CAR_DRIVE_FRAMES c) = (s.rd (R.CAR_DRIVE_FRAMES c) + 1) % 2 ^ 32 ∧ t.rd (R.CAR_DRIVE_STATUS_FLAGS c) = u16 d 2 % 128 ∧
      t.rd (R.CAR_DRIVE_STATUS_FAULT_CODE c) = u16 d 0x14 ∧ t.on (R.CAR_DRIVE_STATUS_LOST c) = (s.on (R.CAR_DRIVE_STATUS_LOST c) && decide ((s.carOf c).drvGood < 9))) ∧
  (∀ (c : Nat) (s : State),
      s.portsUp = true →
      (s.carRec c).isSome = true →
      c < 8 →
      s.on (R.CAR_DRIVE_STATUS_LOST c) = false →
      Runs (.tractionDriveLost c) s fun t =>
      t.on (R.CAR_DRIVE_STATUS_LOST c) = true ∧ t.rd (R.CAR_DRIVE_MISSED c) = (s.rd (R.CAR_DRIVE_MISSED c) + 3) % 2 ^ 32 ∧ (t.carOf c).drvGood = 0 ∧ (s.carMoves c = true → t.carState c = HARD_STOP)) ∧
  (∀ (s : State),
      s.loopGlide = true →
      s.underway = true →
      s.mayCommand = true →
      [1, 2, 5].contains (s.canState 8) = true →
      (s.mbcOf 8).wakeAt = none →
      Runs (.tractionGlideFrame) s fun t =>
      (t.mbcOf 8).tx.any (fun f => f.id == 1 && f.cyclic) = true ∧ t.canSeq 8 1 = (s.canSeq 8 1 + 1) % 2 ^ 16) ∧
  (∀ (c : Nat) (s : State),
      s.carState c = STARTING →
      c < 8 →
      Runs (.brakeLiftTimeout c) s fun t =>
      t.carState c = HARD_STOP ∧ t.rd (R.CAR_LAST_STOP_CAUSE c) = 9 ∧ (t.carOf c).dropping = true) ∧
  (∀ (c : Nat) (s : State),
      s.carState c = LEVELLING →
      (s.carOf c).dropping = false →
      c < 8 →
      Runs (.levellingTimeout c) s fun t =>
      t.carState c = RAMP_STOP ∧ t.rd (R.CAR_LAST_STOP_CAUSE c) = 9) ∧
  (∀ (c : Nat) (s : State),
      s.carState c = RELEVELLING →
      (s.carOf c).dropping = false →
      c < 8 →
      Runs (.relevellingTimeout c) s fun t =>
      t.carState c = RAMP_STOP ∧ t.rd (R.CAR_LAST_STOP_CAUSE c) = 9) ∧
  (∀ (c : Nat) (top active : Bool) (s : State),
      s.powered = true →
      (s.carRec c).isSome = true →
      c < 8 →
      Runs (.finalLimitInput c top active) s fun t =>
      t.on (if top = true then R.CAR_TERMINAL_STATUS_FINAL_TOP c else R.CAR_TERMINAL_STATUS_FINAL_BOTTOM c) = active ∧ (active = true ∧ s.carMoves c = true → t.carState c = HARD_STOP)) ∧
  (∀ (c e : Nat) (active : Bool) (s : State),
      s.powered = true →
      (s.carRec c).isSome = true →
      c < 8 →
      e < 4 →
      Runs (.terminalSlowdownInput c e active) s fun t =>
      t.on ((R.CAR_TERMINAL_STATUS_TSD_ACTIVE c).bit e) = active) ∧
  (∀ (c e : Nat) (r : CfgRec) (s : State),
      s.powered = true →
      s.carRec c = some r →
      c < 8 →
      e < 4 →
      s.carState c = SPEED_MODE →
      r.f32 (0x54 + 12 * e) * 103 / 100 < ratAbs (s.ch c).vel →
      Runs (.terminalSlowdownInput c e true) s fun t =>
      t.carState c = (if bit (r.u8 (0x59 + 12 * e)) 1 = true then HARD_STOP else RAMP_STOP) ∧ t.rd (R.CAR_LAST_STOP_CAUSE c) = 3) ∧
  (∀ (q k : Nat) (c : Cmd) (s : State),
      s.serving q 0x0B01 c = true →
      k = c.inst →
      k < 8 →
      (s.carRec k).isSome = true →
      s.carMoves k = true →
      s.carState k ≠ HARD_STOP →
      s.carState k ≠ RAMP_STOP →
      (s.carOf k).corr = none →
      Runs (.stopCar q) s fun t =>
      t.carState k = RAMP_STOP ∧ t.rd (R.CAR_LAST_STOP_CAUSE k) = 1 ∧ (t.carOf k).stopQ = (s.carOf k).stopQ ++ [q] ∧ t.running q = some c) ∧
  (∀ (q k : Nat) (c : Cmd) (s : State),
      s.serving q 0x0B01 c = true →
      k = c.inst →
      (s.carRec k).isSome = true →
      s.carMoves k = false →
      Runs (.stopCar q) s fun t =>
      t.completed s q c OK 0) ∧
  (∀ (q k : Nat) (c : Cmd) (s : State),
      s.serving q 0x0B02 c = true →
      k = c.inst →
      k < 8 →
      (s.carRec k).isSome = true →
      s.underway = true →
      s.mayCommand = true →
      s.carState k = IDLE →
      s.carMode k = SAF_NORMAL →
      s.mayStart k = true →
      Runs (.correctionRun q) s fun t =>
      t.carState k = STARTING ∧ t.on (R.CAR_NEXT_STOP_VALID k) = false ∧ (t.carOf k).corr = some (q, (if u8 c.args 0 = 0 then 1 else -1), (s.ch k).count) ∧ t.rd (R.CAR_MOVES k) = (s.rd (R.CAR_MOVES k) + 1) % 2 ^ 32 ∧ t.running q = some c)

/-- A STATUS frame sets the drive registers; a lost drive and a passed bound of referencing put the door in FAULT; an
obstructed opening resumes; an expired dwell closes or nudges; a lock that fails reopens and the third time faults; a limit
ends the move toward it; DOOR_OPEN, DOOR_CLOSE, DOOR_STOP, DOOR_REFERENCE and DOOR_HOLD_OPEN act on their door,
CLEAR_ENVELOPE forgets the envelope. -/
def Obligations.DoorsOpenCloseAndStop : Prop :=
  (∀ (d : Nat) (a : List Byte) (s : State),
      s.portsUp = true →
      (s.doorRec d).isSome = true →
      a.length = 32 →
      seqNew (s.doorOf d).rxSeq (u16 a 0) = true →
      d < 16 →
      Runs (.doorStatusFrame d a) s fun t =>
      (t.doorOf d).rxSeq = some (u16 a 0) ∧ t.rd (R.DOOR_DRIVE_STATUS_FLAGS d) = u16 a 2 % 512 ∧ t.rd (R.DOOR_DRIVE_STATUS_FAULT_CODE d) = u16 a 0x14 ∧ t.on (R.DOOR_DRIVE_STATUS_LOST d) = false ∧ t.rd (R.DOOR_POSITION d) = u32 a 4) ∧
  (∀ (d : Nat) (s : State),
      s.portsUp = true →
      (s.doorRec d).isSome = true →
      s.on (R.DOOR_DRIVE_STATUS_LOST d) = false →
      d < 16 →
      Runs (.doorDriveLost d) s fun t =>
      t.on (R.DOOR_DRIVE_STATUS_LOST d) = true ∧ t.doorState d = FAULT_DOOR ∧ t.rd (R.DOOR_LAST_STOP_CAUSE d) = 9 ∧ (t.doorOf d).rxSeq = none) ∧
  (∀ (d : Nat) (s : State),
      s.doorState d = STOPPED_DOOR →
      0 < (s.doorOf d).obstr →
      (s.doorOf d).obstr < 3 →
      d < 16 →
      Runs (.obstructionResume d) s fun t =>
      t.doorState d = OPENING) ∧
  (∀ (d : Nat) (s : State),
      s.doorState d = OPEN →
      s.reopens d = false →
      s.heldOpen (d / 2) = false →
      d < 16 →
      Runs (.doorDwellExpiry d) s fun t =>
      t.doorState d = (if cfgD (s.doorRec d) (fun (r : CfgRec) => r.u8 0x5F) 3 ≤ s.rd (R.DOOR_STATUS_REVERSALS_MOVE d) then NUDGING else CLOSING)) ∧
  (∀ (d : Nat) (s : State),
      s.doorState d = CLOSED →
      s.lockReport d = false →
      d < 16 →
      Runs (.lockTimeout d) s fun t =>
      t.doorState d = (if (s.doorOf d).locks < 2 then OPENING else FAULT_DOOR) ∧ (t.doorOf d).locks = (s.doorOf d).locks + 1 ∧ t.rd (R.DOOR_LAST_STOP_CAUSE d) = 10) ∧
  (∀ (d : Nat) (s : State),
      s.doorState d = REFERENCING →
      d < 16 →
      Runs (.referencingTimeout d) s fun t =>
      t.doorState d = FAULT_DOOR) ∧
  (∀ (d : Nat) (s : State),
      s.reopenDevice d = true →
      [OPEN, CLOSING, OPENING].contains (s.doorState d) = true →
      s.heldOpen (d / 2) = false →
      d < 16 →
      Runs (.nudgeTimeExpiry d) s fun t =>
      t.doorState d = NUDGING ∧ t.on (R.DOOR_EVENT_STATUS_NUDGE d) = true) ∧
  (∀ (d : Nat) (top active : Bool) (s : State),
      s.powered = true →
      (s.doorRec d).isSome = true →
      d < 16 →
      Runs (.doorLimitInput d top active) s fun t =>
      t.on (if top = true then R.DOOR_STATUS_OPEN_LIMIT d else R.DOOR_STATUS_CLOSED_LIMIT d) = active ∧ (active = true ∧ top = true ∧ s.doorState d = OPENING → t.doorState d = OPEN) ∧
      (active = true ∧ top = false ∧ s.doorState d = CLOSING → t.doorState d = CLOSED)) ∧
  (∀ (q d : Nat) (c : Cmd) (s : State),
      s.serving q 0x0C01 c = true →
      d = c.inst →
      d < 16 →
      s.doorRefusal d = 0 →
      s.doorState d = OPEN →
      Runs (.doorOpen q) s fun t =>
      t.completed s q c OK 0) ∧
  (∀ (q d : Nat) (c : Cmd) (s : State),
      s.serving q 0x0C01 c = true →
      d = c.inst →
      d < 16 →
      s.doorRefusal d = 0 →
      s.fireOpens d = true →
      [CLOSED, CLOSING, NUDGING, STOPPED_DOOR].contains (s.doorState d) = true →
      (s.doorOf d).closeQ.contains q = false →
      Runs (.doorOpen q) s fun t =>
      t.doorState d = OPENING ∧ (t.doorOf d).openQ = (s.doorOf d).openQ ++ [q] ∧ (t.doorOf d).closeQ = [] ∧ t.running q = some c) ∧
  (∀ (q d : Nat) (c : Cmd) (s : State),
      s.serving q 0x0C02 c = true →
      d = c.inst →
      d < 16 →
      (s.doorRefusal d = 0 ∨ s.doorRefusal d = 0x0C10) →
      s.reopens d = false →
      [OPEN, STOPPED_DOOR, OPENING].contains (s.doorState d) = true →
      (s.doorOf d).openQ.contains q = false →
      Runs (.doorClose q) s fun t =>
      t.doorState d = (if cfgD (s.doorRec d) (fun (r : CfgRec) => r.u8 0x5F) 3 ≤ s.rd (R.DOOR_STATUS_REVERSALS_MOVE d) then NUDGING else CLOSING) ∧ (t.doorOf d).closeQ = (s.doorOf d).closeQ ++ [q] ∧ (t.doorOf d).openQ = [] ∧ t.running q = some c) ∧
  (∀ (q d : Nat) (c : Cmd) (s : State),
      s.serving q 0x0C02 c = true →
      d = c.inst →
      d < 16 →
      (s.doorRefusal d = 0 ∨ s.doorRefusal d = 0x0C10) →
      s.reopens d = false →
      s.doorState d = CLOSED →
      s.lockReport d = true →
      (s.doorOf d).closeQ = [] →
      Runs (.doorClose q) s fun t =>
      t.completed s q c OK 0 ∧ t.on (R.DOOR_STATUS_LOCKED d) = true) ∧
  (∀ (q d : Nat) (c : Cmd) (s : State),
      s.serving q 0x0C03 c = true →
      d = c.inst →
      d < 16 →
      (s.doorRec d).isSome = true →
      [GEARED, OPENING, CLOSING, NUDGING, REFERENCING].contains (s.doorState d) = true →
      (s.doorOf d).openQ = [] →
      (s.doorOf d).closeQ = [] →
      Runs (.doorStop q) s fun t =>
      t.doorState d = STOPPED_DOOR ∧ t.rd (R.DOOR_LAST_STOP_CAUSE d) = (if u8 c.args 0 = 1 then 8 else 7) ∧ (t.doorOf d).hard = decide (u8 c.args 0 = 1) ∧ (t.doorOf d).stopQ = (s.doorOf d).stopQ ++ [q] ∧ t.running q = some c) ∧
  (∀ (q d : Nat) (c : Cmd) (s : State),
      s.serving q 0x0C03 c = true →
      d = c.inst →
      (s.doorRec d).isSome = true →
      [GEARED, OPENING, CLOSING, NUDGING, REFERENCING].contains (s.doorState d) = false →
      Runs (.doorStop q) s fun t =>
      t.completed s q c OK 0) ∧
  (∀ (q d : Nat) (c : Cmd) (s : State),
      s.serving q 0x0C04 c = true →
      d = c.inst →
      d < 16 →
      (s.doorRec d).isSome = true →
      s.underway = true →
      s.on (R.DOOR_DRIVE_STATUS_LOST d) = false →
      s.carStands (d / 2) = true →
      (s.landingHere (d / 2)).isSome = true →
      (s.doorOf d).openQ.contains q = false →
      (s.doorOf d).closeQ.contains q = false →
      Runs (.doorReference q) s fun t =>
      t.doorState d = REFERENCING ∧ (t.doorOf d).refQ = (s.doorOf d).refQ ++ [q] ∧ (t.doorOf d).openQ = [] ∧ (t.doorOf d).closeQ = [] ∧ t.running q = some c) ∧
  (∀ (q d : Nat) (c : Cmd) (s : State),
      s.serving q 0x0C05 c = true →
      d = c.inst →
      (s.doorRec d).isSome = true →
      u16 c.args 0 ≤ 3600 →
      Runs (.doorHoldOpen q) s fun t =>
      t.completed s q c OK 0 ∧ (t.doorOf d).extend = (if u16 c.args 0 = 0 then 0 else (s.doorOf d).extend + u16 c.args 0)) ∧
  (∀ (sess d : Nat) (s : State),
      s.keyed sess 0xA5 = true →
      d < 16 →
      Runs (.clearEnvelope sess 0xA5 d) s fun t =>
      t.rd (R.DOOR_STATUS_ENVELOPE_MOVES d) = 0 ∧ (t.doorOf d).envOpen = [] ∧ (t.doorOf d).envClose = [])

/-- Each row's own effect stands in the state from which both technologies evaluate anew: levels and shorted channels,
discrepancies, run requests, failed and answered EDM checks, a faulted technology that follows or stops both, overspeed,
position sources, movement at standstill, the Snowplough time; CONFIRM, the lockout's end, RESET_FUNCTION and REPAIR_ACK. -/
def Obligations.SafetyFunctionsFollowTheirRows : Prop :=
  (∀ (high : Bool) (s : State),
      Runs (.safetyInputChange 32 high) s fun t =>
      t.keySwitch = high ∧ t.saf = s.saf) ∧
  (∀ (i : Nat) (high : Bool) (s : State),
      i < 32 →
      Runs (.safetyInputChange i high) s fun t =>
      t.evaluatedFrom (fun (u : State) => u.safIn i = (s.safIn i).level high ∧ u.regs = s.regs)) ∧
  (∀ (src : Nat) (high : List Nat) (s : State),
      s.safUp = true →
      src < 4 →
      s.pulsed src = [] →
      Runs (.testPulse src high) s fun t =>
      t.evaluatedFrom (fun (u : State) => u.on (R.SAF_PULSE_STATUS_RUNNING.bit src) = true ∧ u.saf = s.saf)) ∧
  (∀ (src i : Nat) (high : List Nat) (s : State),
      s.safUp = true →
      src < 4 →
      s.pulsed src = [i] →
      i < 32 →
      Runs (.testPulse src high) s fun t =>
      t.evaluatedFrom (fun (u : State) => u.on (R.SAF_PULSE_STATUS_RUNNING.bit src) = true ∧ (high.contains i = true → (u.safIn i).stuck = some (0, 0)) ∧ (high.contains i = true ∧ (s.safIn i).stuck = none → u.on (R.SAF_INPUT_FAULT_LATCH.bit i) = true) ∧
      (high.contains i = false → (u.safIn i).stuck = stuckEnd ((s.safIn i).stuck.map fun p => (p.1 + 1, p.2))))) ∧
  (∀ (n : Nat) (s : State),
      s.safUp = true →
      s.disagrees n = true →
      s.saf.disc.contains n = false →
      n < 32 →
      Runs (.inputDiscrepancyTimeout n) s fun t =>
      t.evaluatedFrom (fun (u : State) => u.saf.disc = n :: s.saf.disc ∧ u.on (R.SAF_INPUT_FAULT_LATCH.bit n) = true)) ∧
  (∀ (n : Nat) (s : State),
      s.safUp = true →
      n < 24 →
      Runs (.runRequestToggle n) s fun t =>
      t.evaluatedFrom (fun (u : State) => bit (u.rd R.SAF_REQUEST) n = true ∧ u.saf = s.saf)) ∧
  (∀ (n : Nat) (s : State),
      s.safUp = true →
      n < 24 →
      bit (s.rd R.SAF_REQUEST) n = true →
      Runs (.runRequestLost n) s fun t =>
      t.evaluatedFrom (fun (u : State) => bit (u.rd R.SAF_REQUEST) n = false ∧ (s.outOn n = true → u.rd R.SAF_TRIPS = (s.rd R.SAF_TRIPS + 1) % 2 ^ 32 ∧ u.rd R.SAF_LAST_TRIP_CAUSE = 10 ∧ u.rd R.SAF_LAST_TRIP_CAR = n / 3))) ∧
  (∀ (n : Nat) (s : State),
      s.edmNeeded n = true →
      (tget s.saf.edm n).isSome = true →
      n < 24 →
      Runs (.edmTimeout n) s fun t =>
      t.evaluatedFrom (fun (u : State) => bit (u.rd R.SAF_EDM_FAULT) n = true ∧ (s.rd R.SAF_EDM_FAULT / 2 ^ (3 * (n / 3)) % 8 = 0 ∧ s.carMode (n / 3) = SAF_NORMAL → u.carMode (n / 3) = SNOWPLOUGH) ∧
      (s.rd R.SAF_EDM_FAULT / 2 ^ (3 * (n / 3)) % 8 ≠ 0 → u.carMode (n / 3) = LATCHED))) ∧
  (∀ (n : Nat) (engaged : Bool) (s : State),
      s.edmNeeded n = true →
      tget s.saf.edm n = none →
      n < 24 →
      bit (s.rd R.SAF_EDM_STATE) n ≠ engaged →
      Runs (.edmChange n engaged) s fun t =>
      t.evaluatedFrom (fun (u : State) => bit (u.rd R.SAF_EDM_STATE) n = engaged ∧ bit (u.rd R.SAF_EDM_FAULT) n = true)) ∧
  (∀ (n : Nat) (engaged : Bool) (ms : Nat) (s : State),
      s.safUp = true →
      tget s.saf.edm n = some engaged →
      n < 24 →
      n % 3 ≠ 1 →
      Runs (.edmResponse n engaged ms) s fun t =>
      t.evaluatedFrom (fun (u : State) => bit (u.rd R.SAF_EDM_STATE) n = engaged ∧ (n % 3 = 0 → u.rd (R.SAF_CAR_EDM_TIME_MAIN_MS (n / 3)) = ms % 2 ^ 16))) ∧
  (∀ (tech n : Nat) (s : State),
      s.safUp = true →
      tech < 2 →
      n < 24 →
      s.rd (techField tech) ≠ 3 →
      s.rd (techField tech) ≠ 4 →
      Runs (.switchTest tech n false) s fun t =>
      t.evaluatedFrom (fun (u : State) => u.rd (techField tech) = (if s.rd (techField (1 - tech)) = 2 then 4 else 3) ∧ u.rd (techField (1 - tech)) = (if s.rd (techField (1 - tech)) = 2 then 2 else 3))) ∧
  (∀ (tech n : Nat) (s : State),
      Runs (.switchTest tech n true) s fun t =>
      t = s) ∧
  (∀ (tech : Nat) (s : State),
      s.safUp = true →
      tech < 2 →
      s.rd (techField tech) ≠ 3 →
      s.rd (techField tech) ≠ 4 →
      Runs (.techSelftest tech false) s fun t =>
      t.evaluatedFrom (fun (u : State) => u.rd (techField tech) = (if s.rd (techField (1 - tech)) = 2 then 4 else 3) ∧ u.rd (techField (1 - tech)) = (if s.rd (techField (1 - tech)) = 2 then 2 else 3))) ∧
  (∀ (tech : Nat) (s : State),
      Runs (.techSelftest tech true) s fun t =>
      t = s) ∧
  (∀ (tech : Nat) (s : State),
      s.safUp = true →
      tech < 2 →
      s.rd (techField tech) ≠ 3 →
      s.rd (techField tech) ≠ 4 →
      Runs (.techHeartbeatLoss tech) s fun t =>
      t.evaluatedFrom (fun (u : State) => u.rd (techField tech) = (if s.rd (techField (1 - tech)) = 2 then 4 else 3) ∧ u.rd (techField (1 - tech)) = (if s.rd (techField (1 - tech)) = 2 then 2 else 3))) ∧
  (∀ (tech : Nat) (s : State),
      s.safUp = true →
      tech < 2 →
      s.rd (techField tech) ≠ 3 →
      s.rd (techField tech) ≠ 4 →
      Runs (.oscillatorOrSupplyMonitorTrip tech) s fun t =>
      t.evaluatedFrom (fun (u : State) => u.rd (techField tech) = (if s.rd (techField (1 - tech)) = 2 then 4 else 3) ∧ u.rd (techField (1 - tech)) = (if s.rd (techField (1 - tech)) = 2 then 2 else 3))) ∧
  (∀ (outs : List Nat) (s : State),
      s.safUp = true →
      Runs (.permitMismatch outs) s fun t =>
      t.evaluatedFrom (fun (u : State) => u.rd R.SAF_XCOMP_MISMATCHES = (s.rd R.SAF_XCOMP_MISMATCHES + 1) % 2 ^ 32 ∧ u.saf.held = (s.saf.held ++ outs.filter fun n => decide (n < 24)).eraseDups)) ∧
  (∀ (finding : Nat) (s : State),
      s.safUp = true →
      s.saf.held.isEmpty = false →
      finding ≠ 1 →
      finding ≠ 2 →
      Runs (.mismatchDiagnosticDone finding) s fun t =>
      t.evaluatedFrom (fun (u : State) => u.saf.held = [] ∧ s.cars.all (fun c => decide (8 ≤ c) || u.carMode c == LATCHED) = true)) ∧
  (∀ (finding : Nat) (s : State),
      s.safUp = true →
      s.saf.held.isEmpty = false →
      (finding = 1 ∨ finding = 2) →
      s.rd (techField (finding - 1)) ≠ 3 →
      s.rd (techField (finding - 1)) ≠ 4 →
      Runs (.mismatchDiagnosticDone finding) s fun t =>
      t.evaluatedFrom (fun (u : State) => u.saf.held = [] ∧ u.rd (techField (finding - 1)) = (if s.rd (techField (2 - finding)) = 2 then 4 else 3))) ∧
  (∀ (c : Nat) (mps : Rat) (s : State),
      s.safKnows c = true →
      (s.speedLimit c).1 < mps →
      Runs (.speedLimitExceeded c mps) s fun t =>
      t.evaluatedFrom (fun (u : State) => (u.safCar c).excess = (if s.outOn (3 * c + 2) = true then 8 else 5) ∧ u.regs = s.regs)) ∧
  (∀ (c : Nat) (tape enc : Bool) (s : State),
      s.safKnows c = true →
      c < 8 →
      (tape || enc) = true →
      Runs (.positionSourceFault c tape enc) s fun t =>
      t.evaluatedFrom (fun (u : State) => u.on (R.SAF_CAR_STATUS_TAPE_FAULT c) = (tape || s.on (R.SAF_CAR_STATUS_TAPE_FAULT c)) ∧ u.on (R.SAF_CAR_STATUS_ENC_FAULT c) = (enc || s.on (R.SAF_CAR_STATUS_ENC_FAULT c)) ∧
      (u.on (R.SAF_CAR_STATUS_TAPE_FAULT c) = true ∧ u.on (R.SAF_CAR_STATUS_ENC_FAULT c) = true → u.carMode c = LATCHED) ∧
      ((u.on (R.SAF_CAR_STATUS_TAPE_FAULT c) = false ∨ u.on (R.SAF_CAR_STATUS_ENC_FAULT c) = false) ∧ s.carMode c = SAF_NORMAL → u.carMode c = SNOWPLOUGH))) ∧
  (∀ (c : Nat) (moved : Rat) (s : State),
      s.safKnows c = true →
      c < 8 →
      s.outOn (3 * c + 1) = false →
      (s.safCar c).brakeAt.isSome = true →
      (s.kindClear c 2 && s.kindClear c 3) = false →
      cfgR (s.monitor c) 0x28 (1 / 10) < ratAbs moved →
      Runs (.unintendedMovement c moved) s fun t =>
      t.evaluatedFrom (fun (u : State) => (u.safCar c).ucm = true ∧ u.carMode c = LATCHED)) ∧
  (∀ (c : Nat) (moved : Rat) (s : State),
      s.safKnows c = true →
      c < 8 →
      s.outOn (3 * c + 1) = false →
      (s.safCar c).brakeAt.isSome = true →
      (s.kindClear c 2 && s.kindClear c 3) = true →
      5 / 100 < ratAbs moved →
      Runs (.unintendedMovement c moved) s fun t =>
      t.evaluatedFrom (fun (u : State) => (u.safCar c).slip = true ∧ u.carMode c = LATCHED)) ∧
  (∀ (c : Nat) (s : State),
      s.safKnows c = true →
      c < 8 →
      s.carMode c = SNOWPLOUGH →
      Runs (.snowploughTimeout c) s fun t =>
      t.evaluatedFrom (fun (u : State) => u.carMode c = LATCHED ∧ u.rd (R.SAF_CAR_MODE_CAUSE c) = 15 ∧ u.rd (R.SAF_CAR_MODE_REMAINING_S c) = 0)) ∧
  (∀ (sess : Nat) (s : State),
      s.isOpen sess = true →
      s.confirmRefusal sess = 0 →
      Runs (.safetyConfirm sess 0xA5) s fun t =>
      t.evaluatedFrom (fun (u : State) => u.rd R.SAF_CONFIRM_STATUS_RESULT = 1 ∧ u.rd R.MAN_SAFETY_CONFIRMED = s.rd R.SAF_CHECK_PROC ∧ u.rd R.SAF_CONFIRM_COUNT = (s.rd R.SAF_CONFIRM_COUNT + 1) % 2 ^ 32 ∧ u.on R.SAF_STATUS_UNCONFIRMED = false)) ∧
  (∀ (sess : Nat) (s : State),
      s.isOpen sess = true →
      s.confirmRefusal sess ≠ 0 →
      Runs (.safetyConfirm sess 0xA5) s fun t =>
      t.rd R.SAF_CONFIRM_STATUS_RESULT = s.confirmRefusal sess ∧ t.rd R.MAN_SAFETY_CONFIRMED = s.rd R.MAN_SAFETY_CONFIRMED ∧ t.on R.SAF_STATUS_UNCONFIRMED = s.on R.SAF_STATUS_UNCONFIRMED) ∧
  (∀ (s : State),
      s.on R.SAF_STATUS_CONFIRM_LOCKOUT = true →
      Runs (.confirmLockoutExpiry) s fun t =>
      t.on R.SAF_STATUS_CONFIRM_LOCKOUT = false ∧ t.saf.wrong = [] ∧ t.rd R.SAF_CONFIRM_STATUS_FAILS = 0) ∧
  (∀ (sess fn : Nat) (r : CfgRec) (s : State),
      s.safKeyed sess 0xA5 = true →
      s.cfg 9 1 fn = some r →
      (s.safFn fn).state = 3 →
      s.fnInput r = 1 →
      Runs (.resetFunction sess 0xA5 fn) s fun t =>
      t.evaluatedFrom (fun (u : State) => (u.safFn fn).state = 1 ∧ u.regs = s.regs)) ∧
  (∀ (sess c : Nat) (srcOk edmOk : Bool) (s : State),
      s.safKeyed sess 0xA5 = true →
      s.safKnows c = true →
      c < 8 →
      s.carMode c = LATCHED →
      s.repairable c srcOk edmOk = true →
      Runs (.repairAck sess 0xA5 c srcOk edmOk) s fun t =>
      t.evaluatedFrom (fun (u : State) => u.carMode c = SAF_NORMAL ∧ u.rd (R.SAF_CAR_MODE_CAUSE c) = 0 ∧ u.on (R.SAF_CAR_STATUS_TAPE_FAULT c) = false ∧ u.on (R.SAF_CAR_STATUS_ENC_FAULT c) = false ∧ u.rd R.SAF_EDM_FAULT / 2 ^ (3 * c) % 8 = 0))

/-- A consumer that starts accepts the frame that follows its start sequence, in RUN a frame at most three ahead, and falls
to FAIL_SAFE for a bad check, an old or a far sequence; a producer takes a start request, counts good echoes to RUN and falls
for a bad one; production counts the sequence on, a starting consumer asks; the watchdog, a late echo and the hold time act;
CONNECTION_READ answers. -/
def Obligations.SafetyConnectionsStartRunAndFail : Prop :=
  (∀ (k : Nat) (u : List Byte) (r : CfgRec) (s : State),
      s.connUp = true →
      s.connRec k = some r →
      r.produces = false →
      (s.conn k).state = CONN_STARTING →
      dataGood r u = true →
      u16 u 0 = ((s.conn k).start + 1) % 65536 →
      (s.conn k).confirms = 1 →
      Runs (.safetyDataFrame k u) s fun t =>
      (t.conn k).state = CONN_CONFIRMING ∧ (t.conn k).seq = u16 u 0 ∧ (t.conn k).data = (u.drop 2).take r.connN ∧ (t.conn k).accepted = ((s.conn k).accepted + 1) % 2 ^ 32) ∧
  (∀ (k : Nat) (u : List Byte) (r : CfgRec) (s : State),
      s.connUp = true →
      s.connRec k = some r →
      r.produces = false →
      (s.conn k).state = CONN_RUN →
      dataGood r u = true →
      1 ≤ seqDiff (u16 u 0) (s.conn k).seq →
      seqDiff (u16 u 0) (s.conn k).seq ≤ 3 →
      Runs (.safetyDataFrame k u) s fun t =>
      (t.conn k).state = CONN_RUN ∧ (t.conn k).seq = u16 u 0 ∧ (t.conn k).data = (u.drop 2).take r.connN ∧ (t.conn k).accepted = ((s.conn k).accepted + 1) % 2 ^ 32) ∧
  (∀ (k : Nat) (u : List Byte) (r : CfgRec) (s : State),
      s.connUp = true →
      s.connRec k = some r →
      r.produces = false →
      (s.conn k).state ≠ CONN_FAIL_SAFE →
      dataGood r u = false →
      Runs (.safetyDataFrame k u) s fun t =>
      (t.conn k).state = CONN_FAIL_SAFE ∧ (t.conn k).cause = 1 ∧ (t.conn k).fails = min 65535 ((s.conn k).fails + 1) ∧ (t.conn k).data = []) ∧
  (∀ (k : Nat) (u : List Byte) (r : CfgRec) (s : State),
      s.connUp = true →
      s.connRec k = some r →
      r.produces = false →
      (s.conn k).state = CONN_RUN →
      dataGood r u = true →
      (seqDiff (u16 u 0) (s.conn k).seq < 0 ∨ 3 < seqDiff (u16 u 0) (s.conn k).seq) →
      Runs (.safetyDataFrame k u) s fun t =>
      (t.conn k).state = CONN_FAIL_SAFE ∧ (t.conn k).cause = (if seqDiff (u16 u 0) (s.conn k).seq < 0 then 2 else 3)) ∧
  (∀ (k : Nat) (u : List Byte) (s : State),
      s.portsUp = true →
      s.connRec k = none →
      Runs (.safetyDataFrame k u) s fun t =>
      t.rd R.NET_SAFETY_RX = (s.rd R.NET_SAFETY_RX + 1) % 2 ^ 32 ∧ t.rd R.NET_SAFETY_REJECTED = (s.rd R.NET_SAFETY_REJECTED + 1) % 2 ^ 32 ∧ t.saf = s.saf) ∧
  (∀ (k : Nat) (u : List Byte) (r : CfgRec) (s : State),
      s.connUp = true →
      s.connRec k = some r →
      r.produces = true →
      (s.conn k).state = CONN_STARTING →
      echoGood r u = true →
      Runs (.safetyEchoFrame k u) s fun t =>
      (t.conn k).state = CONN_CONFIRMING ∧ (t.conn k).seq = u16 u 0 ∧ (t.conn k).confirms = 0 ∧ (t.conn k).sent = []) ∧
  (∀ (k : Nat) (u : List Byte) (r : CfgRec) (s : State),
      s.connUp = true →
      s.connRec k = some r →
      r.produces = true →
      (s.conn k).state = CONN_CONFIRMING →
      (s.conn k).confirms = 2 →
      echoGood r u = true →
      (s.conn k).sent.any (fun p => p.1 == u16 u 0 && decide (s.tick < p.2 + r.watchdog)) = true →
      Runs (.safetyEchoFrame k u) s fun t =>
      (t.conn k).state = CONN_RUN) ∧
  (∀ (k : Nat) (u : List Byte) (r : CfgRec) (s : State),
      s.connUp = true →
      s.connRec k = some r →
      r.produces = true →
      (s.conn k).state ≠ CONN_FAIL_SAFE →
      echoGood r u = false →
      Runs (.safetyEchoFrame k u) s fun t =>
      (t.conn k).state = CONN_FAIL_SAFE ∧ (t.conn k).cause = 5 ∧ (t.conn k).fails = min 65535 ((s.conn k).fails + 1)) ∧
  (∀ (k : Nat) (r : CfgRec) (s : State),
      s.connUp = true →
      s.connRec k = some r →
      r.produces = true →
      s.connTimed k = true →
      Runs (.safetyProductionPeriod k) s fun t =>
      (t.conn k).seq = ((s.conn k).seq + 1) % 65536 ∧ (t.conn k).sent.head? = some (((s.conn k).seq + 1) % 65536, s.tick) ∧ (t.conn k).state = (s.conn k).state) ∧
  (∀ (k : Nat) (r : CfgRec) (s : State),
      s.connUp = true →
      s.connRec k = some r →
      r.produces = false →
      (s.conn k).state = CONN_STARTING →
      Runs (.safetyProductionPeriod k) s fun t =>
      (t.conn k).confirms = 1 ∧ (t.conn k).state = CONN_STARTING) ∧
  (∀ (k : Nat) (r : CfgRec) (s : State),
      s.connUp = true →
      s.connRec k = some r →
      r.produces = false →
      s.connTimed k = true →
      Runs (.consumerWatchdogExpiry k) s fun t =>
      (t.conn k).state = CONN_FAIL_SAFE ∧ (t.conn k).cause = 4) ∧
  (∀ (k : Nat) (r : CfgRec) (s : State),
      s.connUp = true →
      s.connRec k = some r →
      r.produces = true →
      s.connTimed k = true →
      Runs (.echoLateTimeout k) s fun t =>
      (t.conn k).state = CONN_FAIL_SAFE ∧ (t.conn k).cause = 6) ∧
  (∀ (k : Nat) (s : State),
      s.connUp = true →
      (s.connRec k).isSome = true →
      (s.conn k).state = CONN_FAIL_SAFE →
      Runs (.failSafeHoldExpiry k) s fun t =>
      (t.conn k).state = CONN_STARTING) ∧
  (∀ (q k : Nat) (c : Cmd) (s : State),
      s.serving q 0x0E01 c = true →
      k = u16 c.args 0 →
      (s.connRec k).isSome = true →
      Runs (.connectionRead q) s fun t =>
      t.completed s q c OK (((s.conn k).state + 16 * (s.conn k).state + 256 * (s.conn k).cause + 65536 * (s.conn k).fails + 2 ^ 32 * (s.conn k).accepted) % 2 ^ 64))

/-- A frame gives the raw states; without the link every output is off; a low supply switches its group off; an input takes
its filtered state and counts an edge; wire breaks are latched and counted; a protection switches an output off, latched
where it says so; a retry clears the fault until the third; an overloaded group loses its last output; demagnetisation holds;
silence, owners' commands and cleared latches act. -/
def Obligations.FieldInputsAndOutputsFollowTheirRows : Prop :=
  (∀ (raw : Nat) (lp sums om : List Nat) (ic : List (Nat × Nat)) (s : State),
      s.fioRuns = true →
      Runs (.fieldLinkFrame raw lp sums om ic) s fun t =>
      t.rd R.FIO_IN_RAW_LO = raw % 2 ^ 32 ∧ t.rd R.FIO_IN_RAW_HI = raw / 2 ^ 32 % 2 ^ 32) ∧
  (∀ (s : State),
      s.fioRuns = true →
      s.on R.FIO_FIELD_STATUS_LINK_LOST = false →
      Runs (.fieldLinkLost) s fun t =>
      t.on R.FIO_FIELD_STATUS_LINK_LOST = true ∧ t.rd R.FIO_OUT_STATE = 0 ∧ t.on R.FIO_EVENT_STATUS_LINK_LOST = true) ∧
  (∀ (s : State),
      s.fioRuns = true →
      s.on R.FIO_FIELD_STATUS_LINK_LOST = true →
      Runs (.fieldLinkResume) s fun t =>
      t.on R.FIO_FIELD_STATUS_LINK_LOST = false) ∧
  (∀ (k j : Nat) (s : State),
      s.fioRuns = true →
      k < 4 →
      j < 8 →
      bit (s.rd R.FIO_FIELD_STATUS_LPLUS_LOW) k = false →
      Runs (.lplusLow k) s fun t =>
      bit (t.rd R.FIO_FIELD_STATUS_LPLUS_LOW) k = true ∧ t.outBit R.FIO_OUT_STATE (8 * k + j) = false) ∧
  (∀ (k : Nat) (s : State),
      s.fioRuns = true →
      k < 4 →
      bit (s.rd R.FIO_FIELD_STATUS_LPLUS_LOW) k = true →
      Runs (.lplusRestored k) s fun t =>
      bit (t.rd R.FIO_FIELD_STATUS_LPLUS_LOW) k = false) ∧
  (∀ (i : Nat) (high v : Bool) (s : State),
      s.fioRuns = true →
      i < 64 →
      v = (high != (s.finRec i).any fun r => bit (r.u8 0x11) 1) →
      (s.fioIn i).filt ≠ high →
      Runs (.fieldInputChange i high) s fun t =>
      (t.fioIn i).filt = high ∧ (t.fioIn i).edges = ((s.fioIn i).edges + 1) % 2 ^ 32 ∧ (s.broken i = false ∧ s.on R.FIO_FIELD_STATUS_LINK_LOST = false → t.on (bitOf64 R.FIO_IN_LO R.FIO_IN_HI i) = v)) ∧
  (∀ (i : Nat) (s : State),
      s.fioRuns = true →
      i < 64 →
      (s.finRec i).any (fun r => bit (r.u8 0x11) 0) = true →
      s.broken i = false →
      Runs (.wireBreak i) s fun t =>
      t.broken i = true ∧ t.on (bitOf64 R.FIO_WIRE_BREAK_LATCH_LO R.FIO_WIRE_BREAK_LATCH_HI i) = true ∧ t.rd R.FIO_BREAKS = (s.rd R.FIO_BREAKS + 1) % 2 ^ 32) ∧
  (∀ (i : Nat) (s : State),
      s.fioRuns = true →
      i < 64 →
      s.broken i = true →
      Runs (.wireRestored i) s fun t =>
      t.broken i = false) ∧
  (∀ (n : Nat) (s : State),
      s.outIsOn n = true →
      Runs (.outputShort n) s fun t =>
      t.outBit R.FIO_OUT_STATE n = false ∧ t.outBit R.FIO_OUT_FAULT n = true ∧ t.outBit R.FIO_OUT_FAULT_LATCH n = true ∧ (t.fioOut n).cause = 1 ∧ t.rd R.FIO_OUT_TRIPS = (s.rd R.FIO_OUT_TRIPS + 1) % 2 ^ 32) ∧
  (∀ (n : Nat) (s : State),
      s.outIsOn n = true →
      Runs (.outputOverload n) s fun t =>
      t.outBit R.FIO_OUT_STATE n = false ∧ t.outBit R.FIO_OUT_FAULT n = true ∧ t.rd R.FIO_OUT_FAULT_LATCH = s.rd R.FIO_OUT_FAULT_LATCH ∧ (t.fioOut n).cause = 2 ∧ t.rd R.FIO_OUT_TRIPS = (s.rd R.FIO_OUT_TRIPS + 1) % 2 ^ 32) ∧
  (∀ (n : Nat) (s : State),
      s.outIsOn n = true →
      Runs (.outputThermal n) s fun t =>
      t.outBit R.FIO_OUT_STATE n = false ∧ t.outBit R.FIO_OUT_FAULT n = true ∧ t.rd R.FIO_OUT_FAULT_LATCH = s.rd R.FIO_OUT_FAULT_LATCH ∧ (t.fioOut n).cause = 3 ∧ t.rd R.FIO_OUT_TRIPS = (s.rd R.FIO_OUT_TRIPS + 1) % 2 ^ 32) ∧
  (∀ (n : Nat) (s : State),
      s.fioRuns = true →
      n < 32 →
      s.outBit R.FIO_OUT_FAULT n = true →
      s.outBit R.FIO_OUT_FAULT_LATCH n = false →
      Runs (.outputRetry n) s fun t =>
      t.outBit R.FIO_OUT_FAULT n = decide (2 ≤ ((s.fioOut n).retries.filter fun a => decide (s.tick < a + 6000000)).length) ∧
      t.outBit R.FIO_OUT_FAULT_LATCH n = decide (2 ≤ ((s.fioOut n).retries.filter fun a => decide (s.tick < a + 6000000)).length) ∧
      (t.fioOut n).retries = s.tick :: (s.fioOut n).retries.filter fun a => decide (s.tick < a + 6000000)) ∧
  (∀ (k ma n : Nat) (s : State),
      s.fioRuns = true →
      k < 4 →
      2500 < ma →
      s.lastOn k = some n →
      n < 32 →
      Runs (.groupOverload k ma) s fun t =>
      t.outBit R.FIO_OUT_STATE n = false ∧ t.outBit R.FIO_OUT_FAULT_LATCH n = true ∧ (t.fioOut n).cause = 4 ∧ t.rd (R.FIO_GROUP_CURRENT k) = min 65535 ma ∧ t.fio.excess.contains k = true) ∧
  (∀ (k ma : Nat) (s : State),
      s.fioRuns = true →
      k < 4 →
      ma ≤ 2500 →
      Runs (.groupOverload k ma) s fun t =>
      t.rd (R.FIO_GROUP_CURRENT k) = ma ∧ t.fio.excess.contains k = false ∧ t.rd R.FIO_OUT_STATE = s.rd R.FIO_OUT_STATE) ∧
  (∀ (n : Nat) (j : Rat) (s : State),
      s.fioRuns = true →
      n < 32 →
      s.outBit R.FIO_OUT_STATE n = false →
      0 < j →
      Runs (.demagComplete n j) s fun t =>
      t.outBit R.FIO_DEMAG_HOLD n = true ∧ (t.fioOut n).demag = min 65535 (ratRne (j * 1000)).toNat ∧ (3 / 10 < j → t.outBit R.FIO_OUT_FAULT_LATCH n = true ∧ (t.fioOut n).cause = 5)) ∧
  (∀ (n : Nat) (s : State),
      s.fioRuns = true →
      n < 32 →
      Runs (.demagHoldEnd n) s fun t =>
      t.outBit R.FIO_DEMAG_HOLD n = false) ∧
  (∀ (n : Nat) (s : State),
      s.fioRuns = true →
      n < 32 →
      (s.foutRec n).any (fun r => bit (r.u8 0x11) (if s.outBit R.FIO_OUT_STATE n = true then 2 else 1)) = true →
      Runs (.openLoad n) s fun t =>
      t.outBit R.FIO_OUT_OPEN_LOAD n = true ∧ t.on R.FIO_EVENT_STATUS_OPEN_LOAD = true) ∧
  (∀ (n : Nat) (s : State),
      s.fioRuns = true →
      n < 32 →
      (s.foutRec n).isSome = true →
      s.outBit R.FIO_OUT_SILENT n = false →
      (s.outOwner n ≠ 2 ∨ s.operatorOpen = false) →
      Runs (.outputSilenceTimeout n) s fun t =>
      t.outBit R.FIO_OUT_SILENT n = true ∧ t.rd R.FIO_SILENCES = (s.rd R.FIO_SILENCES + 1) % 2 ^ 32) ∧
  (∀ (n : Nat) (r : CfgRec) (s : State),
      s.fioRuns = true →
      s.on R.FIO_STATUS_OUTPUTS_ENABLED = true →
      n < 32 →
      s.foutRec n = some r →
      r.u8 0x10 = 0 →
      Runs (.firmwareOutputRefresh) s fun t =>
      t.outBit R.FIO_OUT_COMMAND n = s.firmwareOut n r ∧ t.outBit R.FIO_OUT_SILENT n = false) ∧
  (∀ (sess mask n : Nat) (s : State),
      s.holds sess 2 = true →
      n < 32 →
      Runs (.fioOutSetWrite sess mask) s fun t =>
      t.outBit R.FIO_OUT_COMMAND n = (s.outBit R.FIO_OUT_COMMAND n || (bit mask n && s.outBit R.FIO_OUT_HOST_MASK n)) ∧ t.outBit R.FIO_OUT_SILENT n = (s.outBit R.FIO_OUT_SILENT n && !(bit mask n && s.outBit R.FIO_OUT_HOST_MASK n))) ∧
  (∀ (sess mask n : Nat) (s : State),
      s.holds sess 2 = true →
      n < 32 →
      Runs (.fioOutClearWrite sess mask) s fun t =>
      t.outBit R.FIO_OUT_COMMAND n = (s.outBit R.FIO_OUT_COMMAND n && !(bit mask n && s.outBit R.FIO_OUT_HOST_MASK n)) ∧ t.outBit R.FIO_OUT_SILENT n = (s.outBit R.FIO_OUT_SILENT n && !(bit mask n && s.outBit R.FIO_OUT_HOST_MASK n))) ∧
  (∀ (sess mask n : Nat) (s : State),
      s.holds sess 2 = true →
      n < 32 →
      Runs (.outputLatchClear sess mask) s fun t =>
      t.outBit R.FIO_OUT_FAULT_LATCH n = (s.outBit R.FIO_OUT_FAULT_LATCH n && !bit mask n) ∧ (bit mask n = true ∧ s.outBit R.FIO_OUT_FAULT_LATCH n = true → t.outBit R.FIO_OUT_FAULT n = false ∧ (t.fioOut n).retries = [])) ∧
  (∀ (q n : Nat) (c : Cmd) (s : State),
      s.serving q 0x0F01 c = true →
      n < 32 →
      Runs (.outputReset q) s fun t =>
      t.outBit R.FIO_OUT_FAULT_LATCH n = (s.outBit R.FIO_OUT_FAULT_LATCH n && !bit (u32 c.args 0) n) ∧ t.completed s q c OK (u32 c.args 0 &&& s.rd R.FIO_OUT_FAULT_LATCH))

/-- A frame that no function of the Turid claims enters the host queue of bus 11, whose full state drops it, or is discarded
elsewhere; the pending frame that goes first is sent or waits on; CAN_TX requests a frame or refuses it, CAN_TX_CANCEL
completes both commands; an acknowledged receive sequence releases its entries; STANDING_ACK and its repeats, and the
reference message, act as their rules say. -/
def Obligations.CanFramesAreSentAndReceived : Prop :=
  (∀ (b id fmt flags stamp : Nat) (data : List Byte) (s : State),
      s.busLive b = true →
      b = 11 →
      s.rd (canRec' b) = 0 →
      0x800 ≤ id →
      id < 2 ^ 29 →
      s.canConn b id = none →
      (s.mbcOf b).rx.length < 256 →
      data.length ≤ 64 →
      Runs (.canFrameReceived b id fmt flags data stamp) s fun t =>
      (t.mbcOf b).rx = (s.mbcOf b).rx ++ [s.rd (R.MBC_RX_NEXT_SEQ b)] ∧ t.rd (R.MBC_RX_DEPTH b) = (s.mbcOf b).rx.length + 1 ∧ t.rd (R.MBC_RX_FRAMES b) = (s.rd (R.MBC_RX_FRAMES b) + 1) % 2 ^ 32 ∧ t.rd64 (R.MBC_RX_STAMP_LO b) = stamp % 2 ^ 64) ∧
  (∀ (b id fmt flags stamp : Nat) (data : List Byte) (s : State),
      s.busLive b = true →
      b = 11 →
      s.rd (canRec' b) = 0 →
      0x800 ≤ id →
      id < 2 ^ 29 →
      s.canConn b id = none →
      256 ≤ (s.mbcOf b).rx.length →
      Runs (.canFrameReceived b id fmt flags data stamp) s fun t =>
      (t.mbcOf b).rx = (s.mbcOf b).rx ∧ (t.mbcOf b).run = true ∧ t.rd (R.MBC_RX_DROPPED b) = (s.rd (R.MBC_RX_DROPPED b) + 1) % 2 ^ 32 ∧ ((s.mbcOf b).run = false → t.on (R.MBC_EVENT_STATUS_RX_OVERFLOW b) = true)) ∧
  (∀ (b id fmt flags stamp : Nat) (data : List Byte) (s : State),
      s.busLive b = true →
      b ≠ 11 →
      s.rd (canRec' b) = 0 →
      0x800 ≤ id →
      id < 2 ^ 29 →
      s.canConn b id = none →
      Runs (.canFrameReceived b id fmt flags data stamp) s fun t =>
      t.rd (R.MBC_RX_DISCARDED b) = (s.rd (R.MBC_RX_DISCARDED b) + 1) % 2 ^ 32 ∧ t.mbc = s.mbc) ∧
  (∀ (b lat tdc : Nat) (f : CanTx) (s : State),
      s.busUsed b = true →
      (s.canState b = 1 ∨ s.canState b = 2) →
      firstTx (s.mbcOf b).tx = some f →
      Runs (.canFrameSent b 0 lat tdc) s fun t =>
      (t.mbcOf b).tx = (s.mbcOf b).tx.erase f ∧ t.sends s (fun o => o == .frame (.can b) f.fmt f.id f.data) ∧ t.rd (R.MBC_TX_FRAMES b) = (s.rd (R.MBC_TX_FRAMES b) + 1) % 2 ^ 32 ∧ t.rd (canTec b) = s.rd (canTec b) - 1) ∧
  (∀ (b outcome lat tdc : Nat) (f : CanTx) (s : State),
      s.busUsed b = true →
      (s.canState b = 1 ∨ s.canState b = 2) →
      firstTx (s.mbcOf b).tx = some f →
      outcome ≠ 0 →
      f.once = false →
      Runs (.canFrameSent b outcome lat tdc) s fun t =>
      t.mbc = s.mbc ∧ t.out = s.out ∧ t.rd (R.MBC_ARB_LOST b) = (s.rd (R.MBC_ARB_LOST b) + (if outcome = 1 then 1 else 0)) % 2 ^ 32) ∧
  (∀ (sess b seq : Nat) (s : State),
      s.holds sess 2 = true →
      b < 12 →
      Runs (.mbcRxAckWrite sess b seq) s fun t =>
      (t.mbcOf b).rx = (s.mbcOf b).rx.filter (fun q => decide (2 ^ 31 ≤ (seq + 2 ^ 32 - q) % 2 ^ 32)) ∧ ((s.mbcOf b).rx.length < 512 → t.rd (R.MBC_RX_DEPTH b) = (t.mbcOf b).rx.length)) ∧
  (∀ (q : Nat) (c : Cmd) (s : State),
      s.serving q 0x1001 c = true →
      c.inst = 11 →
      s.busUsed 11 = true →
      s.badTx (u32 c.args 0) (u8 c.args 4) (u8 c.args 5) = false →
      (s.canState 11 = 1 ∨ s.canState 11 = 2) →
      Runs (.canTx q) s fun t =>
      (t.mbcOf 11).tx.length = (s.mbcOf 11).tx.length + 1 ∧ (t.mbcOf 11).tx.getLast?.map (fun (x : CanTx) => x.host) = some (some q) ∧ t.running q = some c) ∧
  (∀ (q : Nat) (c : Cmd) (s : State),
      s.serving q 0x1001 c = true →
      c.inst = 11 →
      s.busUsed 11 = true →
      s.badTx (u32 c.args 0) (u8 c.args 4) (u8 c.args 5) = true →
      Runs (.canTx q) s fun t =>
      t.completed s q c 0x0101 0 ∧ t.mbc = s.mbc) ∧
  (∀ (q : Nat) (c : Cmd) (f : CanTx) (s : State),
      s.serving q 0x1002 c = true →
      f.host = none →
      (s.mbcOf 11).tx.find? (fun t => t.host.any (fun h => (s.running h).any (fun x => x.tag == u32 c.args 0 && x.uid == c.uid))) = none →
      Runs (.canTxCancel q) s fun t =>
      t.completed s q c 0x1010 0 ∧ t.mbc = s.mbc) ∧
  (∀ (q : Nat) (c : Cmd) (f : CanTx) (s : State),
      s.serving q 0x1002 c = true →
      (s.mbcOf 11).tx.find? (fun t => t.host.any (fun h => (s.running h).any (fun x => x.tag == u32 c.args 0 && x.uid == c.uid))) = some f →
      f.host ≠ some q →
      Runs (.canTxCancel q) s fun t =>
      t.completed s q c 0x1011 0 ∧ (t.mbcOf 11).tx = (s.mbcOf 11).tx.erase f ∧ t.rd (R.MBC_TX_CANCELLED 11) = (s.rd (R.MBC_TX_CANCELLED 11) + 1) % 2 ^ 32 ∧ ∀ h, f.host = some h → t.running h = none) ∧
  (∀ (b k seq status gen : Nat) (x : CanStanding) (s : State),
      s.busLive b = true →
      k < 8 →
      tget (s.mbcOf b).standing k = some x →
      seq = x.seq →
      status = 0 →
      gen = x.gen →
      Runs (.standingAck b k seq status gen) s fun t =>
      t.outBit (R.MBC_STANDING_ACKED b) k = true ∧ tget (t.mbcOf b).standing k = some { x with tries := 0 }) ∧
  (∀ (b k : Nat) (x : CanStanding) (s : State),
      s.busUsed b = true →
      s.portsUp = true →
      tget (s.mbcOf b).standing k = some x →
      1 ≤ x.tries →
      x.tries < 10 →
      Runs (.standingRetry b k) s fun t =>
      tget (t.mbcOf b).standing k = some { x with tries := x.tries + 1, seq := s.canSeq b (0x20 + k) }) ∧
  (∀ (b k : Nat) (x : CanStanding) (s : State),
      s.busUsed b = true →
      s.portsUp = true →
      tget (s.mbcOf b).standing k = some x →
      10 ≤ x.tries →
      Runs (.standingRetry b k) s fun t =>
      tget (t.mbcOf b).standing k = some { x with tries := 0 } ∧ t.on (R.MBC_EVENT_STATUS_STANDING_UNACKED b) = true ∧ (t.mbcOf b).tx = (s.mbcOf b).tx) ∧
  (∀ (b : Nat) (r : CfgRec) (s : State),
      s.busUsed b = true →
      s.portsUp = true →
      s.canRec b = some r →
      bit (r.u8 0x11) 3 = true →
      (s.canState b = 1 ∨ s.canState b = 2) →
      (s.mbcOf b).wakeAt = none →
      (s.mbcOf b).tx.any (fun t => t.cyclic && t.id == r.u16 0x1E) = false →
      Runs (.referenceMessageTimer b) s fun t =>
      t.rd ((R.MBC_REF_CYCLES b).part 0 6) = (s.rd ((R.MBC_REF_CYCLES b).part 0 6) + 1) % 64 ∧ (t.mbcOf b).tx = (s.mbcOf b).tx ++ [⟨r.u16 0x1E, 0, le 1 ((s.rd ((R.MBC_REF_CYCLES b).part 0 6) + 1) % 64), true, false, none⟩] ∧ t.rd ((R.MBC_REF_CYCLES b).part 16 16) = s.rd ((R.MBC_REF_CYCLES b).part 16 16))

/-- BUS_SLEEP proposes a sleep under a new identifier or is refused, the commit is requested when no objection came, an
objection or a wake-up pattern aborts it or is latched, BUS_WAKE wakes or waits; errors count and lead to bus-off, from which
the bus recovers by itself or on command; RESTRICT, UNRESTRICT, INHIBIT_RECOVERY and ALLOW_RECOVERY act as their rules say.
How the two error counters move follows ISO 11898-1 and is not stated here (log 17). -/
def Obligations.CanBusesSleepWakeAndRecover : Prop :=
  (∀ (q : Nat) (c : Cmd) (s : State),
      s.serving q 0x1003 c = true →
      s.busUsed c.inst = true →
      (s.canState c.inst = 1 ∨ s.canState c.inst = 2) →
      (s.canRec c.inst).any (fun r => bit (r.u8 0x11) 4) = true →
      s.rd (canSleep c.inst) = 0 →
      s.busMotion c.inst = false →
      Runs (.busSleep q) s fun t =>
      t.rd (canSleep c.inst) = 1 ∧ (t.mbcOf c.inst).sleepId = ((s.mbcOf c.inst).sleepId + 1) % 2 ^ 32 ∧ (t.mbcOf c.inst).sleepQ = some q ∧ t.on (R.MBC_EVENT_STATUS_SLEEP_CHANGE c.inst) = true ∧ (t.mbcOf c.inst).tx = (s.mbcOf c.inst).tx ++ [⟨3, s.canFmt c.inst, sleepFrame 1 0 (((s.mbcOf c.inst).sleepId + 1) % 2 ^ 32), false, false, none⟩]) ∧
  (∀ (q : Nat) (c : Cmd) (s : State),
      s.serving q 0x1003 c = true →
      ((s.canRec c.inst).any (fun r => bit (r.u8 0x11) 4) = false ∨ s.busMotion c.inst = true) →
      Runs (.busSleep q) s fun t =>
      t.completed s q c STATE 0 ∧ t.mbc = s.mbc) ∧
  (∀ (b : Nat) (s : State),
      s.busUsed b = true →
      (s.canState b = 1 ∨ s.canState b = 2) →
      s.rd (canSleep b) = 1 →
      (s.mbcOf b).tx.any (fun t => t.id == 3) = false →
      Runs (.busSleepCommitTimer b) s fun t =>
      (t.mbcOf b).tx = (s.mbcOf b).tx ++ [⟨3, s.canFmt b, sleepFrame 2 0 (s.mbcOf b).sleepId, false, false, none⟩]) ∧
  (∀ (b id : Nat) (s : State),
      s.busUsed b = true →
      id = (s.mbcOf b).sleepId →
      s.rd (canSleep b) = 1 →
      (s.mbcOf b).sleepQ = none →
      Runs (.sleepObjection b id) s fun t =>
      t.rd (canSleep b) = 0 ∧ t.rd (canAbort b) = 1 ∧ t.on (R.MBC_EVENT_STATUS_SLEEP_CHANGE b) = true) ∧
  (∀ (b id q : Nat) (c : Cmd) (s : State),
      s.busUsed b = true →
      id = (s.mbcOf b).sleepId →
      s.rd (canSleep b) = 1 →
      (s.mbcOf b).sleepQ = some q →
      s.running q = some c →
      s.present c = true →
      Runs (.sleepObjection b id) s fun t =>
      t.rd (canSleep b) = 0 ∧ t.completed s q c STATE 1) ∧
  (∀ (b id : Nat) (s : State),
      s.busUsed b = true →
      id = (s.mbcOf b).sleepId →
      s.rd (canSleep b) = 2 →
      Runs (.sleepObjection b id) s fun t =>
      t.on (canLatch b) = true ∧ t.rd (canSleep b) = 2 ∧ t.mbc = s.mbc) ∧
  (∀ (b : Nat) (s : State),
      s.busUsed b = true →
      s.rd (canSleep b) = 3 →
      Runs (.canWakePattern b) s fun t =>
      t.on (canLatch b) = true ∧ t.rd (canSleep b) = 4 ∧ (t.mbcOf b).wakeAt = some s.tick ∧ t.rd (R.MBC_WAKEUPS b) = (s.rd (R.MBC_WAKEUPS b) + 1) % 2 ^ 32) ∧
  (∀ (b : Nat) (s : State),
      s.boll.phase = .berth →
      b < 12 →
      s.mainGood = true →
      bit (s.rd R.PWR_WAKE_ENABLE) 5 = true →
      Runs (.canWakePattern b) s fun t =>
      t.on (R.PWR_WAKE_LATCH.bit 5) = true) ∧
  (∀ (q : Nat) (c : Cmd) (s : State),
      s.serving q 0x1004 c = true →
      s.busUsed c.inst = true →
      s.rd (canSleep c.inst) = 0 →
      Runs (.busWake q) s fun t =>
      t.completed s q c OK 0) ∧
  (∀ (q : Nat) (c : Cmd) (s : State),
      s.serving q 0x1004 c = true →
      s.busUsed c.inst = true →
      s.rd (canSleep c.inst) = 3 →
      Runs (.busWake q) s fun t =>
      t.rd (canSleep c.inst) = 4 ∧ (t.mbcOf c.inst).wakeQ = (s.mbcOf c.inst).wakeQ ++ [q] ∧ (t.mbcOf c.inst).wakeAt = some s.tick) ∧
  (∀ (q : Nat) (c : Cmd) (s : State),
      s.serving q 0x1005 c = true →
      s.busUsed c.inst = true →
      (s.canState c.inst = 3 ∨ s.canState c.inst = 4) →
      Runs (.busRecover q) s fun t =>
      t.canState c.inst = 4 ∧ (t.mbcOf c.inst).recoverQ = (s.mbcOf c.inst).recoverQ ++ [q]) ∧
  (∀ (b kind : Nat) (data tx major : Bool) (s : State),
      s.busLive b = true →
      s.canState b ≠ 5 →
      s.rd (canTec b) < 248 →
      kind < 8 →
      Runs (.canErrorDetected b kind data tx major) s fun t =>
      t.rd (R.MBC_ERRORS b) = (s.rd (R.MBC_ERRORS b) + 1) % 2 ^ 32 ∧ t.rd (R.MBC_LAST_ERROR b) = kind + (if data = true then 8 else 0) ∧ (t.canState b = 1 ∨ t.canState b = 2)) ∧
  (∀ (b kind : Nat) (data tx major : Bool) (s : State),
      s.busLive b = true →
      s.canState b = 5 →
      Runs (.canErrorDetected b kind data tx major) s fun t =>
      t.rd (R.MBC_RESTRICTED_ERRORS b) = (s.rd (R.MBC_RESTRICTED_ERRORS b) + 1) % 2 ^ 32 ∧ t.rd (canTec b) = s.rd (canTec b) ∧ t.rd (canRec' b) = s.rd (canRec' b)) ∧
  (∀ (b : Nat) (s : State),
      s.busUsed b = true →
      (s.canState b = 1 ∨ s.canState b = 2) →
      Runs (.busOff b) s fun t =>
      t.canState b = (if s.canInhibited b = true then 3 else 4) ∧ (t.mbcOf b).tx = [] ∧ t.rd (R.MBC_BUS_OFFS b) = (s.rd (R.MBC_BUS_OFFS b) + 1) % 2 ^ 32 ∧ t.on (R.MBC_EVENT_STATUS_BUS_OFF b) = true) ∧
  (∀ (b : Nat) (s : State),
      s.busUsed b = true →
      s.canState b = 4 →
      Runs (.busOffRecovered b) s fun t =>
      t.canState b = 1 ∧ t.rd (canTec b) = 0 ∧ t.rd (canRec' b) = 0 ∧ t.on (R.MBC_EVENT_STATUS_RECOVERED b) = true) ∧
  (∀ (sess b : Nat) (s : State),
      s.keyed sess 0xA5 = true →
      s.busUsed b = true →
      (s.canState b = 1 ∨ s.canState b = 2) →
      (8 < b ∨ s.motion = false) →
      Runs (.restrict sess 0xA5 b) s fun t =>
      t.canState b = 5) ∧
  (∀ (sess b : Nat) (s : State),
      b ≤ 8 →
      s.motion = true →
      Runs (.restrict sess 0xA5 b) s fun t =>
      t = s) ∧
  (∀ (sess b : Nat) (s : State),
      s.keyed sess 0xA5 = true →
      s.busUsed b = true →
      s.canState b = 5 →
      Runs (.unrestrict sess 0xA5 b) s fun t =>
      t.canState b = (if 128 ≤ s.rd (canTec b) ∨ 128 ≤ s.rd (canRec' b) then 2 else 1)) ∧
  (∀ (sess b : Nat) (s : State),
      s.keyed sess 0xA5 = true →
      s.busUsed b = true →
      Runs (.inhibitRecovery sess 0xA5 b) s fun t =>
      t.on (R.MBC_STATUS_RECOVERY_INHIBITED b) = true ∧ t.canState b = (if s.canState b = 4 ∧ (s.mbcOf b).recoverQ = [] then 3 else s.canState b)) ∧
  (∀ (sess b : Nat) (s : State),
      s.keyed sess 0xA5 = true →
      s.busUsed b = true →
      (s.canRec b).any (fun r => bit (r.u8 0x11) 1) = false →
      Runs (.allowRecovery sess 0xA5 b) s fun t =>
      t.on (R.MBC_STATUS_RECOVERY_INHIBITED b) = false ∧ t.canState b = (if s.canState b = 3 then 4 else s.canState b))

/-- A Turid frame goes to the next node in node order; a valid reply clears the missed polls and counts, its message is acted
on once and acknowledged, its ACK releases the message it answers; a missing, misframed or corrupt reply is counted. -/
def Obligations.SerialLinesArePolled : Prop :=
  (∀ (l n : Nat) (s : State),
      s.linePolls l = true →
      (s.serOf l).waiting = false →
      (s.nextPoll l).1 = some n →
      (s.nextPoll l).2 = false →
      s.nextMsg l (some n) = (0xFF, [], 0) →
      Runs (.serialPoll l false) s fun t =>
      (t.serOf l).last = some n ∧ (t.serOf l).waiting = true ∧ (t.nodeOf l n).polled = s.tick ∧ (t.nodeOf l n).ack = false ∧ t.sends s (fun o => o == .frame (.ser l) 0 n (serialFrame n 0xFF [] 0 (s.nodeOf l n).ack))) ∧
  (∀ (l : Nat) (s : State),
      s.linePolls l = true →
      (s.serOf l).waiting = false →
      15 ≤ ((s.serOf l).faults.filter (fun k => decide (s.tick < k + 100000))).length →
      (s.serOf l).last = none →
      Runs (.serialPoll l true) s fun t =>
      t.rd (serState l) = 3 ∧ (t.serOf l).faults = [] ∧ t.rd (R.SER_CONTENTIONS l) = (s.rd (R.SER_CONTENTIONS l) + 1) % 2 ^ 32 ∧ t.on (R.SER_EVENT_STATUS_LINE_FAULT l) = true) ∧
  (∀ (l n : Nat) (data : List Byte) (s : State),
      s.linePolls l = true →
      (s.serOf l).last = some n →
      (s.serOf l).waiting = true →
      data.length = 13 →
      u16 data 11 = (crc16 (data.take 11)).toNat →
      u8 data 0 = 0x80 + n →
      u8 data 2 = 0 →
      Runs (.serialReply l data false) s fun t =>
      (t.serOf l).waiting = false ∧ t.rd (R.SER_FRAMES_OK l) = (s.rd (R.SER_FRAMES_OK l) + 1) % 2 ^ 32 ∧ (t.nodeOf l n).missed = 0 ∧ (t.nodeOf l n).ack = false ∧ (t.nodeOf l n).rxSeq = (s.nodeOf l n).rxSeq ∧ (t.nodeOf l n).out = (if bit (u8 data 10) 7 = true ∧ (s.nodeOf l n).sent = true then (s.nodeOf l n).out.tail else (s.nodeOf l n).out)) ∧
  (∀ (l n fx : Nat) (data : List Byte) (s : State),
      s.linePolls l = true →
      (s.serOf l).last = some n →
      (s.serOf l).waiting = true →
      data.length = 13 →
      u16 data 11 = (crc16 (data.take 11)).toNat →
      u8 data 0 = 0x80 + n →
      4 < u8 data 2 →
      (s.nodeOf l n).rxSeq ≠ some (u8 data 10 % 128) →
      (s.lineNodes l).find? (fun p => p.1 == n) = some (n, fx) →
      Runs (.serialReply l data false) s fun t =>
      (t.nodeOf l n).rxSeq = some (u8 data 10 % 128) ∧ (t.nodeOf l n).ack = true ∧ (t.nodeOf l n).replies = min 65535 ((s.nodeOf l n).replies + 1)) ∧
  (∀ (l n : Nat) (data : List Byte) (s : State),
      s.linePolls l = true →
      (s.serOf l).last = some n →
      (s.serOf l).waiting = true →
      (data.length ≠ 13 ∨ u16 data 11 ≠ (crc16 (data.take 11)).toNat) →
      Runs (.serialReply l data false) s fun t =>
      (t.serOf l).waiting = false ∧ t.rd (R.SER_CRC_ERRORS l) = (s.rd (R.SER_CRC_ERRORS l) + 1) % 2 ^ 32 ∧ (t.serOf l).nodes = (s.serOf l).nodes) ∧
  (∀ (l n : Nat) (data : List Byte) (s : State),
      s.linePolls l = true →
      (s.serOf l).last = some n →
      (s.serOf l).waiting = true →
      Runs (.serialReply l data true) s fun t =>
      (t.serOf l).waiting = false ∧ t.rd (R.SER_FRAMING_ERRORS l) = (s.rd (R.SER_FRAMING_ERRORS l) + 1) % 2 ^ 32 ∧ (t.serOf l).nodes = (s.serOf l).nodes) ∧
  (∀ (l n : Nat) (s : State),
      s.linePolls l = true →
      (s.serOf l).last = some n →
      (s.serOf l).waiting = true →
      Runs (.serialPollTimeout l) s fun t =>
      (t.serOf l).waiting = false ∧ t.rd (R.SER_TIMEOUTS l) = (s.rd (R.SER_TIMEOUTS l) + 1) % 2 ^ 32 ∧ (t.nodeOf l n).missed = min 255 ((s.nodeOf l n).missed + 1))

/-- The PRP pair sends its supervision frame and notices a silent LAN; a link change, an address conflict and a frame to no
served port are counted and told; a Sync from the parent sets offset and delay and slews plant time, a lock and the loss of
Sync change its state, a better clock becomes the parent, as master the Turid sends Sync and answers Delay_Req; Modbus
connections are held up to their number, reads answer whole pairs, a permitted write sets the limit, everything else is an
exception. The payloads of PTP and Modbus and the comparison of clocks are presumed (log 18). -/
def Obligations.TheNetworkKeepsTimeAndServesModbus : Prop :=
  (∀ (s : State),
      s.portsUp = true →
      s.prpPair = true →
      Runs (.prpSupervision) s fun t =>
      t.sends s (fun o => o.frameTo (.eth 0) 0x88FB 0) ∧ t.sends s (fun o => o.frameTo (.eth 1) 0x88FB 0) ∧ t.net.prpSeq = (s.net.prpSeq + 1) % 65536) ∧
  (∀ (lan : Nat) (s : State),
      s.portsUp = true →
      s.prpPair = true →
      lan < 2 →
      s.on (R.NET_PRP_STATUS.bit lan) = false →
      Runs (.prpLanTimeout lan) s fun t =>
      t.on (R.NET_PRP_STATUS.bit lan) = true ∧ t.on R.NET_EVENT_STATUS_PRP_LAN_FAULT = true) ∧
  (∀ (p speed : Nat) (sfp bad : Bool) (s : State),
      s.powered = true →
      p < 4 →
      speed < 5 →
      s.rd ((R.NET_PORT_STATUS p).part 0 16) < 65535 →
      Runs (.ethLinkChange p speed sfp bad) s fun t =>
      t.rd ((R.NET_PORT_STATUS p).part 28 4) = speed ∧ t.on ((R.NET_PORT_STATUS p).bit 27) = sfp ∧ t.on ((R.NET_PORT_STATUS p).bit 26) = bad ∧ t.rd ((R.NET_PORT_STATUS p).part 0 16) = s.rd ((R.NET_PORT_STATUS p).part 0 16) + 1 ∧ t.on (R.NET_STATUS.bit p) = (speed != 0) ∧ t.on R.NET_EVENT_STATUS_LINK_CHANGE = true) ∧
  (∀ (p : Nat) (s : State),
      s.portsUp = true →
      p < 4 →
      Runs (.addressConflict p) s fun t =>
      t.rd R.NET_ARP_CONFLICTS = (s.rd R.NET_ARP_CONFLICTS + 1) % 2 ^ 32 ∧ t.on R.NET_EVENT_STATUS_ADDRESS_CONFLICT = true) ∧
  (∀ (p : Nat) (s : State),
      s.portsUp = true →
      p < 4 →
      Runs (.unservedFrame p) s fun t =>
      t.rd R.NET_DROPPED_UNSERVED = (s.rd R.NET_DROPPED_UNSERVED + 1) % 2 ^ 32 ∧ t.out = s.out) ∧
  (∀ (p : Nat) (offset delay : Int) (s : State),
      s.portsUp = true →
      s.portFlag p 3 = true →
      p < 4 →
      s.parentPort = p →
      s.rd R.PWR_PLANT_TIME_STATUS_STATE ≠ 0 →
      offset ≠ 0 →
      offset.natAbs < 1000000000 →
      Runs (.ptpSyncReceived p offset delay) s fun t =>
      t.rd R.NET_PTP_SYNC_RX = (s.rd R.NET_PTP_SYNC_RX + 1) % 2 ^ 32 ∧ t.pwr.slewLeft = -offset ∧ t.on R.PWR_PLANT_TIME_STATUS_SLEWING = true ∧ t.rd R.NET_PTP_OFFSET = (offset % 2 ^ 32).toNat) ∧
  (∀ (p : Nat) (offset delay : Int) (s : State),
      s.portsUp = true →
      s.portFlag p 3 = true →
      p < 4 →
      s.parentPort ≠ p →
      Runs (.ptpSyncReceived p offset delay) s fun t =>
      t.rd R.NET_PTP_SYNC_RX = (s.rd R.NET_PTP_SYNC_RX + 1) % 2 ^ 32 ∧ t.pwr = s.pwr ∧ t.rd R.NET_PTP_OFFSET = s.rd R.NET_PTP_OFFSET) ∧
  (∀ (time : Nat) (s : State),
      s.portsUp = true →
      s.parentPort < 2 →
      s.rd R.PWR_PLANT_TIME_STATUS_STATE ≠ 1 →
      Runs (.plantTimeLock time) s fun t =>
      t.rd R.PWR_PLANT_TIME_STATUS_STATE = 1 ∧ t.rd R.NET_PTP_STATUS_STATE = 1 ∧ t.rd (R.NET_PTP_PORT_STATES.part (4 * s.parentPort) 4) = 5 ∧ t.on R.NET_EVENT_STATUS_PTP_STATE = true ∧ (s.rd R.PWR_PLANT_TIME_STATUS_STATE = 0 → t.plantNow = time % 2 ^ 64)) ∧
  (∀ (s : State),
      s.powered = true →
      s.rd R.PWR_PLANT_TIME_STATUS_STATE = 1 →
      Runs (.plantTimeHoldover) s fun t =>
      t.rd R.PWR_PLANT_TIME_STATUS_STATE = 2 ∧ t.rd R.NET_PTP_STATUS_STATE = 2 ∧ t.rd R.NET_PTP_LOCK_LOSSES = (s.rd R.NET_PTP_LOCK_LOSSES + 1) % 2 ^ 32 ∧ t.on R.NET_EVENT_STATUS_PTP_STATE = true) ∧
  (∀ (p domain prio1 cls acc var prio2 ident steps : Nat) (s : State),
      s.portsUp = true →
      p < 2 →
      s.portFlag p 3 = true →
      s.ptpRec.any (fun r => r.u8 0x10 == 0 && r.u8 0x11 == domain) = true →
      s.net.parent = none →
      lexLt [prio1, cls, acc, var, prio2, ident, steps] s.ownClock = true →
      Runs (.ptpAnnounceReceived p domain prio1 cls acc var prio2 ident steps) s fun t =>
      t.parentPort = p ∧ t.net.parent = some [prio1, cls, acc, var, prio2, ident, steps] ∧ t.rd64 R.NET_PTP_GM_ID_LO = ident % 2 ^ 64 ∧ t.rd R.NET_PTP_ANNOUNCE_RX = (s.rd R.NET_PTP_ANNOUNCE_RX + 1) % 2 ^ 32) ∧
  (∀ (p domain prio1 cls acc var prio2 ident steps : Nat) (s : State),
      s.portsUp = true →
      p < 2 →
      s.portFlag p 3 = true →
      s.ptpRec.any (fun r => r.u8 0x10 == 0 && r.u8 0x11 == domain) = true →
      s.parentPort ≠ p →
      lexLt [prio1, cls, acc, var, prio2, ident, steps] s.ownClock = false →
      Runs (.ptpAnnounceReceived p domain prio1 cls acc var prio2 ident steps) s fun t =>
      t.parentPort = s.parentPort ∧ t.net = s.net) ∧
  (∀ (p : Nat) (s : State),
      s.ptpMaster p = true →
      Runs (.ptpSyncSend p) s fun t =>
      t.sends s (fun o => o == .frame (.eth p) 0x88F7 0 (le 1 0 ++ le 2 (tgetD s.net.ptpSeq p 0))) ∧ tgetD t.net.ptpSeq p 0 = (tgetD s.net.ptpSeq p 0 + 1) % 65536) ∧
  (∀ (p who seq : Nat) (s : State),
      s.ptpMaster p = true →
      Runs (.ptpDelayReq p who seq) s fun t =>
      t.sends s (fun o => o == .frame (.eth p) 0x88F7 who (le 1 9 ++ le 2 seq ++ le 8 s.plantNow)) ∧ t.rd R.NET_PTP_DELAY_REQ_RX = (s.rd R.NET_PTP_DELAY_REQ_RX + 1) % 2 ^ 32) ∧
  (∀ (p client a n fn : Nat) (s : State),
      s.modbusOn p = true →
      (fn = 3 ∨ fn = 4) →
      1 ≤ n →
      n ≤ 125 →
      mapRange a n = true →
      a < 65536 →
      s.net.points ≠ [] →
      Runs (.modbusRequest p client (le 1 fn ++ beBytes 2 a ++ beBytes 2 n)) s fun t =>
      t.rd R.NET_MODBUS_REQUESTS = (s.rd R.NET_MODBUS_REQUESTS + 1) % 2 ^ 32 ∧ t.sends s (fun o => o == .frame (.eth p) 502 client (le 1 fn ++ le 1 (2 * n) ++ ((s.net.points.drop (if a < 100 then a else a - 67)).take n).flatMap (fun v => beBytes 2 v)))) ∧
  (∀ (p client : Nat) (pdu : List Byte) (s : State),
      s.modbusOn p = true →
      u8 pdu 0 = 3 →
      1 ≤ be16 pdu 3 →
      be16 pdu 3 ≤ 125 →
      mapRange (be16 pdu 1) (be16 pdu 3) = false →
      Runs (.modbusRequest p client pdu) s fun t =>
      t.rd R.NET_MODBUS_EXCEPTIONS = (s.rd R.NET_MODBUS_EXCEPTIONS + 1) % 2 ^ 32 ∧ t.sends s (fun o => o == .frame (.eth p) 502 client (le 1 0x83 ++ le 1 2))) ∧
  (∀ (p client v : Nat) (s : State),
      s.modbusOn p = true →
      s.mayWrite client = true →
      v < 2 ^ 32 - 1 →
      Runs (.modbusWrite p client (le 1 0x10 ++ beBytes 2 100 ++ beBytes 2 2 ++ le 1 4 ++ beBytes 4 v)) s fun t =>
      t.rd R.PLT_HOST_EXPORT_MAX = (toB32 ((1000 * v : Nat) : Rat)).toNat ∧ t.rd R.PLT_HOST_IMPORT_MAX = s.rd R.PLT_HOST_IMPORT_MAX ∧ t.on R.NET_EVENT_STATUS_MODBUS_WRITE = true ∧ t.sends s (fun o => o == .frame (.eth p) 502 client (le 1 0x10 ++ beBytes 2 100 ++ beBytes 2 2))) ∧
  (∀ (p client : Nat) (pdu : List Byte) (s : State),
      s.modbusOn p = true →
      u8 pdu 0 = 16 →
      s.mayWrite client = false →
      Runs (.modbusWrite p client pdu) s fun t =>
      t.rd R.NET_MODBUS_EXCEPTIONS = (s.rd R.NET_MODBUS_EXCEPTIONS + 1) % 2 ^ 32 ∧ t.sends s (fun o => o == .frame (.eth p) 502 client (le 1 0x90 ++ le 1 1)) ∧ t.rd R.PLT_HOST_EXPORT_MAX = s.rd R.PLT_HOST_EXPORT_MAX) ∧
  (∀ (p : Nat) (s : State),
      s.modbusOn p = true →
      s.rd (R.NET_MODBUS_STATUS.part 0 3) < cfgD (s.cfg 10 4 0) (fun (r : CfgRec) => r.u8 0x11) 4 →
      s.rd (R.NET_MODBUS_STATUS.part 0 3) < 7 →
      Runs (.modbusConnection p true) s fun t =>
      t.rd (R.NET_MODBUS_STATUS.part 0 3) = s.rd (R.NET_MODBUS_STATUS.part 0 3) + 1) ∧
  (∀ (p : Nat) (s : State),
      s.modbusOn p = true →
      cfgD (s.cfg 10 4 0) (fun (r : CfgRec) => r.u8 0x11) 4 ≤ s.rd (R.NET_MODBUS_STATUS.part 0 3) →
      Runs (.modbusConnection p true) s fun t =>
      t.rd (R.NET_MODBUS_STATUS.part 0 3) = s.rd (R.NET_MODBUS_STATUS.part 0 3) ∧ t.sends s (fun o => o == .frame (.eth p) 502 0 [])) ∧
  (∀ (p : Nat) (s : State),
      s.modbusOn p = true →
      Runs (.modbusConnection p false) s fun t =>
      t.rd (R.NET_MODBUS_STATUS.part 0 3) = s.rd (R.NET_MODBUS_STATUS.part 0 3) - 1)

/-- A frame is stored, arms a filling buffer once the pre-trigger count is reached, triggers a claimed one at its place and
completes a triggered one with its last frame; the auto timeout and FORCE_TRIGGER claim an ARMED buffer; ARM fills a free
segment; DISARM closes a record in progress; measurements are formed and told, read by MEASURE_READ, and RELEASE frees the
segment. -/
def Obligations.AcquisitionFillsTriggersAndKeepsRecords : Prop :=
  (∀ (b stamp : Nat) (codes : List Word) (r : CfgRec) (s : State),
      s.acqRuns = true →
      s.acqDef b = some r →
      r.acqClass < 2 →
      r.acqPool = none →
      s.cfg 12 2 b = none →
      s.acq.heard = [] →
      (s.buf b).state = ACQ_FILLING →
      (s.buf b).due = none →
      (s.buf b).cur.refine = none →
      1 ≤ r.acqN →
      Runs (.acqSample b codes stamp) s fun t =>
      (t.buf b).state = (if r.acqPre ≤ (s.buf b).cur.total + 1 then ACQ_ARMED_ST else ACQ_FILLING) ∧ (t.buf b).cur.total = (s.buf b).cur.total + 1 ∧ (t.buf b).cur.frames.getLast? = some ((List.range (r.u8 0x11)).map (fun k => stored r.acqClass (codes.getD k 0#32))) ∧ (t.buf b).cur.frames.length = min ((s.buf b).cur.frames.length + 1) r.acqN) ∧
  (∀ (b stamp : Nat) (codes : List Word) (r : CfgRec) (d : AcqDue) (s : State),
      s.acqRuns = true →
      s.acqDef b = some r →
      r.acqClass < 2 →
      r.acqPool = none →
      s.cfg 12 2 b = none →
      s.acq.heard = [] →
      (s.buf b).state = ACQ_ARMED_ST →
      (s.buf b).due = some d →
      d.hits = [] →
      (s.buf b).cur.refine = none →
      r.acqPre ≤ (s.buf b).cur.frames.length →
      r.acqPre + 1 < r.acqN →
      Runs (.acqSample b codes stamp) s fun t =>
      (t.buf b).state = ACQ_TRIGGERED ∧ (t.buf b).due = none ∧ (t.buf b).cur.seq = d.seq ∧ (t.buf b).cur.tclass = d.tclass ∧ (t.buf b).cur.pos = 256 * r.acqPre ∧ (t.buf b).cur.stamp = stamp ∧ (t.buf b).left = r.acqN - (r.acqPre + 1)) ∧
  (∀ (b stamp : Nat) (codes : List Word) (r : CfgRec) (s : State),
      s.acqRuns = true →
      s.acqDef b = some r →
      r.acqClass < 2 →
      r.acqPool = none →
      r.acqFlag 3 = false →
      s.cfg 12 2 b = none →
      s.acq.heard = [] →
      (s.buf b).state = ACQ_TRIGGERED →
      (s.buf b).due = none →
      (s.buf b).cur.refine = none →
      (s.buf b).left = 1 →
      Runs (.acqSample b codes stamp) s fun t =>
      (t.buf b).state = ACQ_DONE ∧ t.rd R.ACQ_RECORDS = (s.rd R.ACQ_RECORDS + 1) % 2 ^ 32 ∧ (tget (t.buf b).segs (s.buf b).seg).map (fun (x : AcqRec) => (x.status, x.owned, x.seq, x.total)) = some (1, true, (s.buf b).cur.seq, (s.buf b).cur.total + 1)) ∧
  (∀ (b : Nat) (r : CfgRec) (s : State),
      s.acqRuns = true →
      s.acqDef b = some r →
      r.acqFlag 1 = true →
      s.claimable r = true →
      Runs (.acqAutoTimeout b) s fun t =>
      (t.buf b).due = some ⟨[], 5, s.acq.nextSeq⟩ ∧ t.acq.nextSeq = (s.acq.nextSeq + 1) % 2 ^ 32 ∧ (t.buf b).state = ACQ_ARMED_ST) ∧
  (∀ (seq k : Nat) (r : CfgRec) (x : AcqRec) (s : State),
      s.acqRuns = true →
      s.findRec seq = some (r, k, x) →
      x.status = 1 →
      x.meas = none →
      Runs (.acqMeasureDone seq) s fun t =>
      tget (t.buf r.id).segs k = some { x with meas := some (s.measureRec r x) } ∧ t.on R.ACQ_EVENT_STATUS_COMPLETE = true) ∧
  (∀ (q k : Nat) (c : Cmd) (r : CfgRec) (s : State),
      s.serving q 0x1301 c = true →
      s.acqDef (u8 c.args 0) = some r →
      s.acqRuns = true →
      ((s.buf (u8 c.args 0)).state = ACQ_READY ∨ (s.buf (u8 c.args 0)).state = ACQ_DONE) →
      s.freeSeg r = some k →
      Runs (.arm q) s fun t =>
      t.completed s q c OK (if r.acqPre = 0 then ACQ_ARMED_ST else ACQ_FILLING) ∧ (t.buf (u8 c.args 0)).state = (if r.acqPre = 0 then ACQ_ARMED_ST else ACQ_FILLING) ∧ (t.buf (u8 c.args 0)).seg = k) ∧
  (∀ (q : Nat) (c : Cmd) (s : State),
      s.serving q 0x1301 c = true →
      s.acqDef (u8 c.args 0) = none →
      Runs (.arm q) s fun t =>
      t.completed s q c 0x1311 0 ∧ t.acq = s.acq) ∧
  (∀ (q : Nat) (c : Cmd) (r : CfgRec) (s : State),
      s.serving q 0x1302 c = true →
      s.acqDef (u8 c.args 0) = some r →
      ((s.buf (u8 c.args 0)).state = ACQ_FILLING ∨ (s.buf (u8 c.args 0)).state = ACQ_ARMED_ST ∨ (s.buf (u8 c.args 0)).state = ACQ_TRIGGERED) →
      Runs (.disarm q) s fun t =>
      t.completed s q c OK ACQ_READY ∧ (t.buf (u8 c.args 0)).state = ACQ_READY ∧ t.rd R.ACQ_ABORTS = (s.rd R.ACQ_ABORTS + 1) % 2 ^ 32 ∧ t.on R.ACQ_EVENT_STATUS_ABORTED = true ∧ ((s.buf (u8 c.args 0)).state = ACQ_TRIGGERED → (tget (t.buf (u8 c.args 0)).segs (s.buf (u8 c.args 0)).seg).map (fun (x : AcqRec) => (x.status, x.owned)) = some (4, true))) ∧
  (∀ (q : Nat) (c : Cmd) (r : CfgRec) (s : State),
      s.serving q 0x1303 c = true →
      u8 c.args 0 = 0 →
      s.acqDef (u8 c.args 1) = some r →
      s.acq.heard = [] →
      s.claimable r = true →
      Runs (.forceTrigger q) s fun t =>
      t.completed s q c OK (s.acq.nextSeq % 2 ^ 64) ∧ (t.buf (u8 c.args 1)).due = some ⟨[], 4, s.acq.nextSeq⟩ ∧ t.acq.nextSeq = (s.acq.nextSeq + 1) % 2 ^ 32) ∧
  (∀ (q : Nat) (c : Cmd) (r : CfgRec) (s : State),
      s.serving q 0x1303 c = true →
      u8 c.args 0 = 1 →
      s.acq.heard = [] →
      s.acqDefs.find? (fun x => x.acqPool == some (u8 c.args 1)) = some r →
      (s.poolOf r).find? s.claimable = none →
      Runs (.forceTrigger q) s fun t =>
      t.completed s q c 0x1310 0 ∧ t.rd R.ACQ_NO_RESOURCE = (s.rd R.ACQ_NO_RESOURCE + 1) % 2 ^ 32 ∧ t.acq.bufs = s.acq.bufs) ∧
  (∀ (q k : Nat) (c : Cmd) (r : CfgRec) (x : AcqRec) (s : State),
      s.serving q 0x1304 c = true →
      s.findRec (u32 c.args 0) = some (r, k, x) →
      Runs (.release q) s fun t =>
      t.completed s q c OK 0 ∧ tget (t.buf r.id).segs k = none) ∧
  (∀ (q : Nat) (c : Cmd) (s : State),
      s.serving q 0x1304 c = true →
      s.findRec (u32 c.args 0) = none →
      Runs (.release q) s fun t =>
      t.completed s q c 0x1312 0 ∧ t.acq = s.acq) ∧
  (∀ (q k : Nat) (c : Cmd) (r : CfgRec) (x : AcqRec) (m : List (List Word)) (s : State),
      s.serving q 0x1305 c = true →
      s.findRec (u32 c.args 0) = some (r, k, x) →
      u8 c.args 4 < r.u8 0x11 →
      u8 c.args 5 ≤ 12 →
      x.meas = some m →
      u8 c.args 4 < m.length →
      u8 c.args 5 < (m.getD (u8 c.args 4) []).length →
      Runs (.measureRead q) s fun t =>
      t.completed s q c OK ((m.getD (u8 c.args 4) []).getD (u8 c.args 5) 0#32).toNat ∧ t.acq = s.acq)

/-- EXPORT streams a range to its owner of queue 3 or is refused, a stream ends when its bytes are sent or on EXPORT_STOP;
CLEAR_LOG is judged and its step writes the ledger entry and empties the log; a return is prepared, expires, is cancelled by
another reference or committed; CLEAR_TRACE empties the ring and every running source emits SYNC. -/
def Obligations.TheRecorderExportsClearsAndReturns : Prop :=
  (∀ (s : State),
      s.powered = true →
      Runs (.appendCheckpoint) s fun t =>
      t.nv.appendMark = s.rd R.REC_USED) ∧
  (∀ (q : Nat) (c : Cmd) (bs : List Byte) (s : State),
      s.serving q 0x1401 c = true →
      (s.eventQ 3).owner = some c.sess →
      s.recu.exp = none →
      s.exportBytes (u8 c.args 0) (u32 c.args 4) = some bs →
      Runs (.exportCmd q) s fun t =>
      t.completed s q c OK (bs.length % 2 ^ 64) ∧ t.rd R.REC_EXPORT_STATUS_KIND = u8 c.args 0 ∧ (bs = [] → t.recu.exp = none ∧ t.on R.REC_EXPORT_STATUS_RUNNING = false)) ∧
  (∀ (q : Nat) (c : Cmd) (s : State),
      s.serving q 0x1401 c = true →
      (s.eventQ 3).owner ≠ some c.sess →
      Runs (.exportCmd q) s fun t =>
      t.completed s q c 0x0108 0 ∧ t.recu = s.recu) ∧
  (∀ (x : Export) (s : State),
      s.recu.exp = some x →
      x.bytes = [] →
      Runs (.exportStreamResume) s fun t =>
      t.recu.exp = none ∧ t.on R.REC_EXPORT_STATUS_RUNNING = false ∧ t.on R.REC_EXPORT_STATUS_PAUSED = false) ∧
  (∀ (x : Export) (s : State),
      s.recu.exp = some x →
      x.bytes ≠ [] →
      x.bytes.length ≤ 80 →
      x.bytes.length ≤ x.total →
      (s.eventQ 3).entries.length < 32768 →
      Runs (.exportStreamResume) s fun t =>
      t.recu.exp = none ∧ t.on R.REC_EXPORT_STATUS_RUNNING = false ∧ t.rd R.REC_EXPORT_OFFSET = x.total % 2 ^ 32) ∧
  (∀ (q : Nat) (c : Cmd) (x : Export) (s : State),
      s.serving q 0x1402 c = true →
      s.recu.exp = some x →
      Runs (.exportStop q) s fun t =>
      t.completed s q c OK ((x.total - x.bytes.length) % 2 ^ 64) ∧ t.recu.exp = none ∧ t.on R.REC_EXPORT_STATUS_RUNNING = false) ∧
  (∀ (q : Nat) (c : Cmd) (s : State),
      s.serving q 0x1403 c = true →
      s.holds c.sess 8 = true →
      s.keySwitch = true →
      s.underway = true →
      s.nv.ledger.length < 256 →
      s.recu.clear = none →
      s.recu.exp.any (fun x => x.kind == 0) = false →
      Runs (.clearLog q) s fun t =>
      t.recu.clear.map (fun (p : Nat × Nat) => p.1) = some q ∧ t.recu.clear.map (fun (p : Nat × Nat) => p.2) = (s.session c.sess).map (fun (x : Session) => x.serial) ∧ t.nv = s.nv) ∧
  (∀ (q : Nat) (c : Cmd) (s : State),
      s.serving q 0x1403 c = true →
      s.holds c.sess 8 = true →
      s.keySwitch = false →
      Runs (.clearLog q) s fun t =>
      t.completed s q c 0x1410 0 ∧ t.recu = s.recu ∧ t.nv = s.nv) ∧
  (∀ (q serial : Nat) (c : Cmd) (s : State),
      s.powered = true →
      s.recu.clear = some (q, serial) →
      s.running q = some c →
      s.present c = true →
      s.nv.ledger.length < 256 →
      Runs (.clearCommit) s fun t =>
      t.nv.ledger.length = s.nv.ledger.length + 1 ∧ (t.nv.ledger.getLast?).map (fun (e : Ledger) => (e.index, e.reason, e.serial)) = some (s.nv.ledger.length, 0, serial) ∧ t.completed s q c OK s.nv.ledger.length ∧ t.recu.clear = none ∧ t.rd R.REC_LOST = 0 ∧ t.rd R.REC_TORN = 0 ∧ t.rd R.REC_RESERVE_USED = 0 ∧ t.on R.REC_STATUS_HIGH = false ∧ t.on R.REC_STATUS_ZEROING = true ∧ t.on R.REC_EVENT_STATUS_CLEARED = true ∧ t.rd R.REC_FIRST_SEQ = s.rd R.REC_NEXT_SEQ) ∧
  (∀ (s : State),
      s.powered = true →
      Runs (.zeroingDone) s fun t =>
      t.on R.REC_STATUS_ZEROING = false ∧ t.rd R.REC_USED = s.rd R.REC_USED) ∧
  (∀ (q : Nat) (c : Cmd) (s : State),
      s.serving q 0x1404 c = true →
      s.holds c.sess 12 = true →
      s.keySwitch = true →
      u8 c.args 0 ≤ 1 →
      (u8 c.args 0 = 0 ∨ s.nv.ledger.length < 256) →
      Runs (.returnPrepare q) s fun t =>
      t.completed s q c OK 0 ∧ t.recu.prep = some (u8 c.args 0, padEnd 16 ((c.args.drop 4).take 16)) ∧ t.rd R.REC_RETURN_STATUS_STATE = 1 ∧ t.rd R.REC_RETURN_STATUS_CHOICE = u8 c.args 0 ∧ t.on R.REC_EVENT_STATUS_RETURN_PREPARED = true) ∧
  (∀ (p : Nat × List Byte) (s : State),
      s.recu.prep = some p →
      Runs (.returnPrepareExpiry) s fun t =>
      t.recu.prep = none ∧ t.rd R.REC_RETURN_STATUS_STATE = 0 ∧ t.nv = s.nv) ∧
  (∀ (q choice : Nat) (c : Cmd) (ref : List Byte) (s : State),
      s.serving q 0x1405 c = true →
      s.recu.prep = some (choice, ref) →
      padEnd 16 (c.args.take 16) ≠ ref →
      Runs (.returnCommit q) s fun t =>
      t.completed s q c STATE 0 ∧ t.recu.prep = none ∧ t.nv = s.nv) ∧
  (∀ (q choice : Nat) (c : Cmd) (ref : List Byte) (s : State),
      s.serving q 0x1405 c = true →
      s.recu.prep = some (choice, ref) →
      padEnd 16 (c.args.take 16) = ref →
      s.keySwitch = true →
      s.lifecycle = 2 →
      s.nv.ledger.length < 256 →
      Runs (.returnCommit q) s fun t =>
      t.completed s q c OK 0 ∧ t.lifecycle = 3 ∧ t.rd R.SEC_LIFECYCLE_FUSES = 3 ∧ t.nv.slots = [] ∧ t.nv.ckpt = [] ∧ t.nv.billing = [] ∧ t.key 3 = [] ∧ t.key 4 = [] ∧ t.key 5 = [] ∧ t.key 6 = [] ∧ t.rd R.SAF_OUTPUT_STATE = 0 ∧ (choice ≠ 1 → t.on R.REC_STATUS_READ_ONLY = true ∧ t.nv.ledger = s.nv.ledger) ∧ (choice = 1 → (t.nv.ledger.getLast?).map (fun (e : Ledger) => e.reason) = some 1)) ∧
  (∀ (sess : Nat) (s : State),
      s.keyed sess 0xA5 = true →
      Runs (.clearTrace sess 0xA5) s fun t =>
      t.recu.trace = [] ∧ t.on R.REC_TRACE_STATUS_WRAPPED = false) ∧
  (∀ (k : Nat) (s : State),
      s.powered = true →
      k < 14 →
      s.live (traceDomain k) = true →
      Runs (.traceSync) s fun t =>
      tgetD t.recu.traceSeq k 0 = (tgetD s.recu.traceSeq k 0 + 1) % 2 ^ 32)

/-- The staging buffer is written word by word; PROVISION, KEY_UPDATE, SEAL, RESET_COMMISSIONING, REVOKE, FIRMWARE_UPDATE,
READ_NODE_REQUEST and ENROL_NODE act or are refused as the lifecycle, the key switch and the signature say, whatever the
digest and signature functions answer; the site tag is fixed from Sealed on; a failing entropy source is shown. The status
codes of a refusal that the rules leave to the implementation are the model's choice (log 19). -/
def Obligations.SecurityCommandsFollowTheLifecycle : Prop :=
  (∀ (sess v : Nat) (s : State),
      s.isOpen sess = true →
      Runs (.stageIndexWrite sess v) s fun t =>
      t.rd R.SEC_STAGE_INDEX = v % 2 ^ 32 ∧ t.sec.stageOwner = s.uidOf sess ∧ t.sec.stage = s.sec.stage) ∧
  (∀ (sess : Nat) (v : Word) (s : State),
      s.isOpen sess = true →
      Runs (.stageDataAccess sess true v) s fun t =>
      tget t.sec.stage (s.rd R.SEC_STAGE_INDEX % 64) = some v ∧ t.rd R.SEC_STAGE_INDEX = s.rd R.SEC_STAGE_INDEX / 64 * 64 + (s.rd R.SEC_STAGE_INDEX % 64 + 1) % 64) ∧
  (∀ (sess : Nat) (v : Word) (s : State),
      s.isOpen sess = true →
      Runs (.stageDataAccess sess false v) s fun t =>
      t.sec = s.sec ∧ t.rd R.SEC_STAGE_INDEX = s.rd R.SEC_STAGE_INDEX / 64 * 64 + (s.rd R.SEC_STAGE_INDEX % 64 + 1) % 64) ∧
  (∀ (q : Nat) (c : Cmd) (s : State),
      s.serving q 0x0201 c = true →
      s.stageTaken c = false →
      s.lifecycle < 2 →
      s.keySwitch = true →
      3 ≤ u8 c.args 0 →
      u8 c.args 0 ≤ 6 →
      u8 c.args 1 = 0 →
      Runs (.provision q) s fun t =>
      t.key (u8 c.args 0) = s.stageBytes.take 96 ∧ t.completed s q c OK (keyId (s.stageBytes.take 96)) ∧ t.lifecycle = (if s.lifecycle = 0 ∧ [3, 4, 5, 6].all (fun k => t.key k != []) = true then 1 else s.lifecycle)) ∧
  (∀ (q : Nat) (c : Cmd) (s : State),
      s.serving q 0x0201 c = true →
      s.stageTaken c = false →
      2 ≤ s.lifecycle →
      Runs (.provision q) s fun t =>
      t.completed s q c 0x0216 0 ∧ t.nv = s.nv) ∧
  (∀ (q : Nat) (c : Cmd) (s : State),
      s.serving q 0x0202 c = true →
      s.lifecycle = 1 →
      s.keySwitch = true →
      s.underway = true →
      s.on R.SYS_START_STATUS_SUCCEEDED = true →
      s.nv.plantId.isSome = true →
      s.on R.MAN_STATUS_SAFETY_UNCONFIRMED = false →
      Runs (.seal q) s fun t =>
      t.completed s q c OK 0 ∧ t.lifecycle = 2 ∧ t.rd R.SEC_LIFECYCLE_FUSES = 2 ∧ t.on R.SEC_DEBUG_STATUS_STATE = false ∧ t.key 3 = s.key 3) ∧
  (∀ (q : Nat) (c : Cmd) (s : State),
      s.serving q 0x0202 c = true →
      s.lifecycle = 1 →
      s.keySwitch = false →
      Runs (.seal q) s fun t =>
      t.completed s q c 0x0210 0 ∧ t.lifecycle = 1) ∧
  (∀ (q : Nat) (c : Cmd) (s : State),
      s.serving q 0x0203 c = true →
      s.lifecycle = 1 →
      s.keySwitch = true →
      Runs (.resetCommissioning q) s fun t =>
      t.resetUnder s 0x0105 ∧ t.nv.plantId = none ∧ t.nv.maxGen = 0 ∧ t.nv.slots = [] ∧ t.nv.ckpt = [] ∧ t.nv.keys = s.nv.keys ∧ t.completed s q c OK 0) ∧
  (∀ (q : Nat) (c : Cmd) (s : State),
      s.serving q 0x0204 c = true →
      s.stageTaken c = false →
      s.lifecycle = 2 →
      s.stageBytes.take 6 = [0x4B#8, 0x55#8, 0x50#8, 0x44#8, 6#8, 0#8] →
      some (u64 s.stageBytes 8) = s.nv.plantId →
      s.nv.keySeq < u32 s.stageBytes 0x10 →
      Runs (.keyUpdate q) s fun t =>
      (Config.ecdsaVerify (s.key 3) (Config.sha384 (s.stageBytes.take 0x78)) ((s.stageBytes.drop 0x78).take 96) = true → t.completed s q c OK 0 ∧ t.key 6 = (s.stageBytes.drop 0x18).take 96 ∧ t.nv.keySeq = u32 s.stageBytes 0x10) ∧ (Config.ecdsaVerify (s.key 3) (Config.sha384 (s.stageBytes.take 0x78)) ((s.stageBytes.drop 0x78).take 96) = false → t.completed s q c 0x0211 0 ∧ t.nv = s.nv ∧ t.rd R.SEC_SIG_FAILS = (s.rd R.SEC_SIG_FAILS + 1) % 2 ^ 32)) ∧
  (∀ (q n : Nat) (c : Cmd) (s : State),
      s.serving q 0x0205 c = true →
      s.nv.revoked.length < 64 →
      (s.session n).any (fun x => x.serial == u64 c.args 0) = true →
      Runs (.revoke q) s fun t =>
      t.nv.revoked = (if s.nv.revoked.contains (u64 c.args 0) = true then s.nv.revoked else s.nv.revoked ++ [u64 c.args 0]) ∧ t.completed s q c OK t.nv.revoked.length ∧ t.rd R.SEC_REVOKED = t.nv.revoked.length ∧ t.session n = none) ∧
  (∀ (q : Nat) (c : Cmd) (s : State),
      s.serving q 0x020A c = true →
      s.keySwitch = true →
      s.on R.SYS_START_STATUS_SUCCEEDED = true →
      Runs (.firmwareUpdate q) s fun t =>
      t.resetUnder s 0x0105 ∧ t.boll.toRecovery = true ∧ t.completed s q c OK 0) ∧
  (∀ (q : Nat) (c : Cmd) (s : State),
      s.serving q 0x0208 c = true →
      s.stageTaken c = false →
      s.portsUp = true →
      s.xngUsed (u8 c.args 0) = true →
      s.idle = true →
      s.reaches (u8 c.args 0) (u16 c.args 2 % 512) = true →
      certHeld (s.stageBytes.take 200) = true →
      u16 c.args 2 % 512 ≠ 0x1FD →
      (s.declaredAt (u8 c.args 0) (u16 c.args 2 % 512)).any (fun d => d.1 != u8 (s.stageBytes.take 200) 0x1A) = false →
      Runs (.enrolNode q) s fun t =>
      (s.certOk (s.stageBytes.take 200) (s.node (u8 c.args 0) (u16 c.args 2 % 512)).serial = true → t.sends s (fun o => o.frameTo (.xng (u8 c.args 0) false) 3 (u16 c.args 2 % 512))) ∧ (s.certOk (s.stageBytes.take 200) (s.node (u8 c.args 0) (u16 c.args 2 % 512)).serial = false → t.completed s q c 0x0213 4 ∧ t.xng = s.xng)) ∧
  (∀ (q : Nat) (c : Cmd) (s : State),
      s.serving q 0x0208 c = true →
      s.stageTaken c = false →
      s.portsUp = true →
      s.xngUsed (u8 c.args 0) = true →
      certHeld (s.stageBytes.take 200) = false →
      Runs (.enrolNode q) s fun t =>
      t.completed s q c 0x0213 3 ∧ t.xng = s.xng) ∧
  (∀ (q : Nat) (c : Cmd) (s : State),
      s.serving q 0x0209 c = true →
      s.stageTaken c = false →
      s.portsUp = true →
      s.xngUsed (u8 c.args 0) = true →
      s.idle = true →
      s.reaches (u8 c.args 0) (u16 c.args 2 % 512) = true →
      Runs (.readNodeRequest q) s fun t =>
      t.sends s (fun o => o.frameTo (.xng (u8 c.args 0) (s.node (u8 c.args 0) (u16 c.args 2 % 512)).byB) 2 (u16 c.args 2 % 512)) ∧ t.running q = some c) ∧
  (∀ (sess k : Nat) (v : Word) (s : State),
      s.isOpen sess = true →
      k < 4 →
      Runs (.siteTagWrite sess k v) s fun t =>
      t.rd (R.SYS_SITE_TAG k) = (if s.sealed = true then s.rd (R.SYS_SITE_TAG k) else v.toNat)) ∧
  (∀ (s : State),
      s.powered = true →
      s.rd (R.SEC_RNG_STATUS.part 8 8) < 255 →
      Runs (.rngHealthTestFailure) s fun t =>
      t.on (R.SEC_RNG_STATUS.bit 0) = false ∧ t.rd (R.SEC_RNG_STATUS.part 8 8) = s.rd (R.SEC_RNG_STATUS.part 8 8) + 1)

/-- A token opens a debug session or is refused by its first fault, whatever the signature function answers; DEBUG_CLOSE and
the expiry close it; a halt is requested by its session alone, takes effect, is deferred in Sealed and released; a breakpoint
halts its core; memory is accessed word by word above the registers and refused below; a monitor that trips acts by its
level, the reset waits for rest. -/
def Obligations.DebugAndTamperFollowTheirRules : Prop :=
  (∀ (q : Nat) (c : Cmd) (s : State),
      s.serving q 0x0206 c = true →
      s.stageTaken c = false →
      s.on R.SEC_DEBUG_STATUS_STATE = false →
      s.stageBytes.take 6 = [0x44#8, 0x54#8, 0x4B#8, 0x4E#8, 1#8, 0#8] →
      u64 s.stageBytes 8 = s.rd64 R.SEC_SERIAL_LO →
      s.opSec < u32 s.stageBytes 0x10 →
      s.lifecycle ≠ 3 →
      s.key 6 ≠ [] →
      Runs (.debugOpen q) s fun t =>
      (u32 s.stageBytes 0x14 = keyId (s.key 6) ∧ Config.ecdsaVerify (s.key 6) (Config.sha384 (s.stageBytes.take 0x20)) ((s.stageBytes.drop 0x20).take 96) = true → t.completed s q c OK (u16 s.stageBytes 6 % 16) ∧ t.rd R.SEC_DEBUG_STATUS_STATE = 1 ∧ t.rd R.SEC_DEBUG_STATUS_PERMISSIONS = u16 s.stageBytes 6 % 16 ∧ t.rd R.SEC_TOKEN_EXPIRY = u32 s.stageBytes 0x10 ∧ t.sec.debugUid = some c.uid) ∧ (¬(u32 s.stageBytes 0x14 = keyId (s.key 6) ∧ Config.ecdsaVerify (s.key 6) (Config.sha384 (s.stageBytes.take 0x20)) ((s.stageBytes.drop 0x20).take 96) = true) → t.completed s q c 0x0211 0 ∧ t.rd R.SEC_TOKEN_RESULT = 0x0211 ∧ t.on R.SEC_DEBUG_STATUS_STATE = false)) ∧
  (∀ (q : Nat) (c : Cmd) (s : State),
      s.serving q 0x0206 c = true →
      s.stageTaken c = false →
      s.on R.SEC_DEBUG_STATUS_STATE = false →
      s.stageBytes.take 6 = [0x44#8, 0x54#8, 0x4B#8, 0x4E#8, 1#8, 0#8] →
      u64 s.stageBytes 8 = s.rd64 R.SEC_SERIAL_LO →
      u32 s.stageBytes 0x10 ≤ s.opSec →
      Runs (.debugOpen q) s fun t =>
      t.completed s q c 0x0214 0 ∧ t.rd R.SEC_TOKEN_RESULT = 0x0214 ∧ t.sec = s.sec) ∧
  (∀ (q : Nat) (c : Cmd) (s : State),
      s.serving q 0x0207 c = true →
      s.on R.SEC_DEBUG_STATUS_STATE = true →
      Runs (.debugClose q) s fun t =>
      t.completed s q c OK 0 ∧ t.rd R.SEC_DEBUG_STATUS_STATE = 0 ∧ t.rd R.DBG_HALT_REQUEST = 0 ∧ t.rd R.DBG_HALT_STATUS = 0 ∧ t.rd R.DBG_BREAK_ENABLE = 0 ∧ t.sec.debugUid = none) ∧
  (∀ (s : State),
      s.on R.SEC_DEBUG_STATUS_STATE = true →
      s.rd R.SEC_TOKEN_EXPIRY ≤ s.opSec →
      Runs (.debugExpiryCheck) s fun t =>
      t.rd R.SEC_DEBUG_STATUS_STATE = 0 ∧ t.sec.debugUid = none ∧ t.rd R.DBG_HALT_STATUS = 0) ∧
  (∀ (sess v k : Nat) (s : State),
      s.isOpen sess = true →
      s.debugExpired = false →
      s.debugger sess = true →
      s.debugMay 0 = true →
      s.lifecycle ≠ 2 →
      1 ≤ k →
      k < 10 →
      bit v k = false →
      Runs (.dbgHaltRequestWrite sess v) s fun t =>
      t.rd R.DBG_HALT_REQUEST = v % 1024 / 2 * 2 ∧ bit t.halted k = false) ∧
  (∀ (sess v : Nat) (s : State),
      s.isOpen sess = true →
      s.debugExpired = false →
      s.debugger sess = false →
      Runs (.dbgHaltRequestWrite sess v) s fun t =>
      t.rd R.DBG_REFUSED = (s.rd R.DBG_REFUSED + 1) % 2 ^ 32 ∧ t.rd R.DBG_HALT_REQUEST = s.rd R.DBG_HALT_REQUEST) ∧
  (∀ (k : Nat) (s : State),
      1 ≤ k →
      k ≤ 9 →
      bit (s.rd R.DBG_HALT_REQUEST) k = true →
      bit (s.rd R.DBG_HALT_DEFERRED) k = false →
      bit s.halted k = false →
      s.sparesFree ≠ 0 →
      Runs (.coreHaltEffective k) s fun t =>
      bit t.halted k = true ∧ t.rd R.DBG_HALTS = (s.rd R.DBG_HALTS + 1) % 2 ^ 32) ∧
  (∀ (s : State),
      s.haltCauses = 0 →
      Runs (.haltDeferralEnd) s fun t =>
      t.rd R.DBG_HALT_DEFERRED = 0 ∧ t.rd R.DBG_HALT_REQUEST = s.rd R.DBG_HALT_REQUEST) ∧
  (∀ (sess : Nat) (v : Word) (s : State),
      s.isOpen sess = true →
      s.debugger sess = true →
      s.debugMay 2 = true →
      s.lifecycle ≠ 2 →
      0x150000 ≤ s.memAddr →
      Runs (.dbgMemAccess sess true v) s fun t =>
      tget t.sec.mem s.memAddr = some v ∧ t.memAddr = (s.memAddr + 4) % 2 ^ 40 ∧ t.rd (R.DBG_MEM_STATUS.part 0 2) = 0) ∧
  (∀ (sess : Nat) (v : Word) (s : State),
      s.isOpen sess = true →
      s.debugger sess = true →
      s.debugMay 1 = true →
      0x150000 ≤ s.memAddr →
      Runs (.dbgMemAccess sess false v) s fun t =>
      t.memAddr = (s.memAddr + 4) % 2 ^ 40 ∧ t.sec = s.sec ∧ t.rd (R.DBG_MEM_STATUS.part 0 2) = 0) ∧
  (∀ (sess : Nat) (write : Bool) (v : Word) (s : State),
      s.isOpen sess = true →
      s.memAddr < 0x150000 →
      Runs (.dbgMemAccess sess write v) s fun t =>
      t.memAddr = s.memAddr ∧ t.sec = s.sec ∧ t.rd (R.DBG_MEM_STATUS.part 0 2) = 1 ∧ t.rd R.DBG_REFUSED = (s.rd R.DBG_REFUSED + 1) % 2 ^ 32) ∧
  (∀ (k b' : Nat) (s : State),
      1 ≤ k →
      k ≤ 9 →
      b' < 4 →
      bit (s.rd R.DBG_BREAK_ENABLE) b' = true →
      s.on R.SEC_DEBUG_STATUS_STATE = true →
      bit s.halted k = false →
      s.haltCauses = 0 →
      s.sparesFree ≠ 0 →
      Runs (.breakpointHit k b') s fun t =>
      bit t.halted k = true ∧ t.on (R.DBG_BREAK_ENABLE.bit (4 + b')) = true ∧ t.rd R.DBG_BREAK_HITS = (s.rd R.DBG_BREAK_HITS + 1) % 2 ^ 32) ∧
  (∀ (k b' : Nat) (s : State),
      1 ≤ k →
      k ≤ 9 →
      b' < 4 →
      bit (s.rd R.DBG_BREAK_ENABLE) b' = true →
      s.on R.SEC_DEBUG_STATUS_STATE = true →
      bit s.halted k = false →
      s.haltCauses ≠ 0 →
      Runs (.breakpointHit k b') s fun t =>
      bit t.halted k = false ∧ t.on (R.DBG_HALT_DEFERRED.bit k) = true ∧ t.on (R.DBG_BREAK_ENABLE.bit (4 + b')) = true) ∧
  (∀ (m : Nat) (s : State),
      s.powered = true →
      m < 6 →
      s.rd (R.SEC_TAMPER_ENABLE.part (2 * m) 2) = 2 →
      Runs (.tamperTrip m) s fun t =>
      t.on (R.SEC_TAMPER_STATUS.bit m) = true ∧ t.rd (R.SEC_TAMPER_COUNT m) = (s.rd (R.SEC_TAMPER_COUNT m) + 1) % 2 ^ 32 ∧ t.on R.SEC_DEBUG_STATUS_STATE = false) ∧
  (∀ (m : Nat) (s : State),
      s.powered = true →
      m < 6 →
      s.rd (R.SEC_TAMPER_ENABLE.part (2 * m) 2) = 3 →
      s.motion = false →
      s.evac = false →
      Runs (.tamperTrip m) s fun t =>
      t.resetUnder s 0x0107) ∧
  (∀ (m : Nat) (s : State),
      s.powered = true →
      m < 6 →
      s.rd (R.SEC_TAMPER_ENABLE.part (2 * m) 2) = 3 →
      s.motion = true →
      Runs (.tamperTrip m) s fun t =>
      t.boll.tamperWait = true ∧ t.boll.phase = s.boll.phase ∧ t.on R.SEC_DEBUG_STATUS_STATE = false) ∧
  (∀ (s : State),
      s.powered = true →
      s.boll.tamperWait = true →
      s.motion = false →
      s.evac = false →
      Runs (.tamperResetRelease) s fun t =>
      t.resetUnder s 0x0107 ∧ t.boll.tamperWait = false)

/-- In every block that has the command, CLEAR_COUNTERS with the key from an engineer makes the counter fields since start of
that block instance 0 and leaves every other bit of every register as it was; counters since manufacture are no such fields. -/
def Obligations.ClearCountersClearsWhatCountsSinceStart : Prop :=
  (∀ (sess n : Nat) (s : State),
      RegsOk s.regs →
      s.keyed sess 0xA5 = true →
      n < 16 →
      Runs (.xngClearCounters sess 0xA5 n) s fun t =>
      t.cleared s (0x50000 + 0x1000 * n) 0x80) ∧
  (∀ (sess : Nat) (s : State),
      RegsOk s.regs →
      s.keyed sess 0xA5 = true →
      Runs (.estClearCounters sess 0xA5) s fun t =>
      t.cleared s (0x60000) 0x10000) ∧
  (∀ (sess : Nat) (s : State),
      RegsOk s.regs →
      s.keyed sess 0xA5 = true →
      Runs (.pltProtClearCounters sess 0xA5) s fun t =>
      t.cleared s (0x70000) 0x80) ∧
  (∀ (sess : Nat) (s : State),
      RegsOk s.regs →
      s.keyed sess 0xA5 = true →
      Runs (.pltDispClearCounters sess 0xA5) s fun t =>
      t.cleared s (0x70080) 0x180) ∧
  (∀ (sess : Nat) (s : State),
      RegsOk s.regs →
      s.keyed sess 0xA5 = true →
      Runs (.loopClearCounters sess 0xA5) s fun t =>
      t.cleared s (0x80000) 0x10000) ∧
  (∀ (sess : Nat) (s : State),
      RegsOk s.regs →
      s.keyed sess 0xA5 = true →
      Runs (.pwmClearCounters sess 0xA5) s fun t =>
      t.cleared s (0x90000) 0x10000) ∧
  (∀ (sess : Nat) (s : State),
      RegsOk s.regs →
      s.keyed sess 0xA5 = true →
      Runs (.grpClearCounters sess 0xA5) s fun t =>
      t.cleared s (0xA0000) 0x10000) ∧
  (∀ (sess c : Nat) (s : State),
      RegsOk s.regs →
      s.keyed sess 0xA5 = true →
      c < 8 →
      Runs (.carClearCounters sess 0xA5 c) s fun t =>
      t.cleared s (0xB0000 + 0x1000 * c) 0x1000) ∧
  (∀ (sess c : Nat) (s : State),
      RegsOk s.regs →
      s.keyed sess 0xA5 = true →
      c < 8 →
      Runs (.posClearCounters sess 0xA5 c) s fun t =>
      t.cleared s (0xD0000 + 0x1000 * c) 0x1000) ∧
  (∀ (sess d : Nat) (s : State),
      RegsOk s.regs →
      s.keyed sess 0xA5 = true →
      d < 16 →
      Runs (.doorClearCounters sess 0xA5 d) s fun t =>
      t.cleared s (0xC0000 + 0x800 * d) 0x800) ∧
  (∀ (sess : Nat) (s : State),
      RegsOk s.regs →
      s.keyed sess 0xA5 = true →
      Runs (.safClearCounters sess 0xA5) s fun t =>
      t.cleared s (0xE0000) 0x1000) ∧
  (∀ (sess : Nat) (s : State),
      RegsOk s.regs →
      s.keyed sess 0xA5 = true →
      Runs (.fioClearCounters sess 0xA5) s fun t =>
      t.cleared s (0xF0000) 0x1000) ∧
  (∀ (sess b : Nat) (s : State),
      RegsOk s.regs →
      s.keyed sess 0xA5 = true →
      b < 12 →
      Runs (.mbcClearCounters sess 0xA5 b) s fun t =>
      t.cleared s (0x100000 + 0x1000 * b) 0x1000) ∧
  (∀ (sess l : Nat) (s : State),
      RegsOk s.regs →
      s.keyed sess 0xA5 = true →
      l < 4 →
      Runs (.serClearCounters sess 0xA5 l) s fun t =>
      t.cleared s (0x10C000 + 0x400 * l) 0x400) ∧
  (∀ (sess : Nat) (s : State),
      RegsOk s.regs →
      s.keyed sess 0xA5 = true →
      Runs (.netClearCounters sess 0xA5) s fun t =>
      t.cleared s (0x110000) 0x1000) ∧
  (∀ (sess : Nat) (s : State),
      RegsOk s.regs →
      s.keyed sess 0xA5 = true →
      Runs (.acqClearCounters sess 0xA5) s fun t =>
      t.cleared s (0x120000) 0x1000) ∧
  (∀ (sess : Nat) (s : State),
      RegsOk s.regs →
      s.keyed sess 0xA5 = true →
      Runs (.secClearCounters sess 0xA5) s fun t =>
      t.cleared s (0x20000) 0x10000)

/-! ## Rows by family: what each leaves unchanged -/

/-- Frames: what each of these rows leaves unchanged, whatever the state and the operands: the waiting commands, every
register but those of the blocks and those of the fields listed, and every part of the state that is not listed
(`State.keeps`). -/
def Obligations.StartPowerAndManifestFrames : Prop :=
  (∀ (a b bkp : Bool) (sec msec ms : Nat) (s : State), Runs (.powerGood a b bkp sec msec ms) s fun t => t.keeps s [.nv, .boll, .hq, .man, .pwr, .recu, .xng, .disp, .saf, .mbc, .acq, .out]
      [Blk.sys, Blk.pwr, Blk.sec, Blk.hq, Blk.saf, Blk.fio, Blk.mbc, Blk.net, Blk.rec] []) ∧
  (∀ (storeOk : Bool) (s : State), Runs (.bootComplete storeOk) s fun t => t.keeps s [.nv, .boll, .hq, .man, .pwr, .recu, .sec, .xng, .est, .prot, .disp, .loop, .pos, .saf, .mbc, .ser, .car, .door, .grp, .fio, .acq, .net, .out]
      [Blk.sys, Blk.pwr, Blk.sec, Blk.man, Blk.hq, Blk.xng, Blk.est, Blk.plt, Blk.loop, Blk.pwm, Blk.grp, Blk.car, Blk.door, Blk.pos, Blk.saf, Blk.fio, Blk.mbc, Blk.ser, Blk.net, Blk.acq, Blk.rec, Blk.dbg]
      []) ∧
  (∀ (s : State), Runs (.bootVerifyFailed) s fun t => t.keeps s [.nv, .boll, .hq, .recu, .xng, .acq, .out]
      [Blk.sys, Blk.pwr, Blk.sec, Blk.man, Blk.hq, Blk.rec] []) ∧
  (∀ (procOk hwOk : Bool) (s : State), Runs (.safetySelftestDone procOk hwOk) s fun t => t.keeps s [.nv, .boll, .hq, .man, .pwr, .recu, .sec, .xng, .est, .prot, .disp, .loop, .pos, .saf, .mbc, .ser, .car, .door, .grp, .fio, .acq, .net, .out]
      [Blk.sys, Blk.pwr, Blk.sec, Blk.man, Blk.hq, Blk.xng, Blk.est, Blk.plt, Blk.loop, Blk.pwm, Blk.grp, Blk.car, Blk.door, Blk.pos, Blk.saf, Blk.fio, Blk.mbc, Blk.ser, Blk.net, Blk.acq, Blk.rec, Blk.dbg]
      []) ∧
  (∀ (cores lanes dram xng pos mbc ser : Nat) (pipes : List Nat) (dramOk : Bool) (nvm : Nat) (pllOk : Bool) (s : State), Runs (.selfTestDone cores lanes dram xng pos mbc ser pipes dramOk nvm pllOk) s fun t => t.keeps s [.nv, .boll, .hq, .man, .pwr, .recu, .sec, .xng, .est, .prot, .disp, .loop, .pos, .saf, .mbc, .ser, .car, .door, .grp, .fio, .acq, .net, .out]
      [Blk.sys, Blk.pwr, Blk.sec, Blk.man, Blk.hq, Blk.xng, Blk.est, Blk.plt, Blk.loop, Blk.pwm, Blk.grp, Blk.car, Blk.door, Blk.pos, Blk.saf, Blk.fio, Blk.mbc, Blk.ser, Blk.net, Blk.acq, Blk.rec, Blk.dbg]
      []) ∧
  (∀ (s : State), Runs (.learnedRestoreDone) s fun t => t.keeps s [.nv, .hq, .xng, .est, .prot, .door, .acq, .net, .out]
      [Blk.sys, Blk.hq, Blk.xng, Blk.est, Blk.plt, Blk.grp, Blk.car, Blk.door, Blk.mbc, Blk.ser, Blk.net, Blk.rec]
      []) ∧
  (∀ (s : State), Runs (.partnersDone) s fun t => t.keeps s [.nv, .hq, .pwr, .disp, .saf, .car, .acq, .out, .free]
      [Blk.sys, Blk.pwr, Blk.hq, Blk.plt, Blk.car, Blk.saf, Blk.fio, Blk.acq, Blk.rec] []) ∧
  (∀ (kind a b : Nat) (s : State), Runs (.partnerAbsentTimeout kind a b) s fun t => t.keeps s [.xng]
      [] []) ∧
  (∀ (s : State), Runs (.stageTimeout) s fun t => t.keeps s [.nv, .boll, .hq, .man, .pwr, .recu, .sec, .xng, .est, .prot, .disp, .loop, .pos, .saf, .mbc, .ser, .car, .door, .grp, .fio, .acq, .net, .out]
      [Blk.sys, Blk.pwr, Blk.sec, Blk.man, Blk.hq, Blk.xng, Blk.est, Blk.plt, Blk.loop, Blk.pwm, Blk.grp, Blk.car, Blk.door, Blk.pos, Blk.saf, Blk.fio, Blk.mbc, Blk.ser, Blk.net, Blk.acq, Blk.rec, Blk.dbg]
      []) ∧
  (∀ (s : State), Runs (.startTimeout) s fun t => t.keeps s [.nv, .boll, .hq, .man, .pwr, .recu, .sec, .xng, .est, .prot, .disp, .loop, .pos, .saf, .mbc, .ser, .car, .door, .grp, .fio, .acq, .net, .out]
      [Blk.sys, Blk.pwr, Blk.sec, Blk.man, Blk.hq, Blk.xng, Blk.est, Blk.plt, Blk.loop, Blk.pwm, Blk.grp, Blk.car, Blk.door, Blk.pos, Blk.saf, Blk.fio, Blk.mbc, Blk.ser, Blk.net, Blk.acq, Blk.rec, Blk.dbg]
      []) ∧
  (∀ (s : State), Runs (.startHoldElapsed) s fun t => t.keeps s [.nv, .boll, .hq, .acq]
      [Blk.sys, Blk.sec, Blk.man, Blk.hq] []) ∧
  (∀ (s : State), Runs (.holdRepeatTimer) s fun t => t.keeps s [.xng, .disp, .mbc, .out]
      [Blk.net] []) ∧
  (∀ (sess key : Nat) (s : State), Runs (.hostReset sess key) s fun t => t.keeps s [.nv, .boll, .hq, .man, .pwr, .recu, .sec, .xng, .est, .prot, .disp, .loop, .pos, .saf, .mbc, .ser, .car, .door, .grp, .fio, .acq, .net, .out]
      [Blk.sys, Blk.pwr, Blk.sec, Blk.man, Blk.hq, Blk.xng, Blk.est, Blk.plt, Blk.loop, Blk.pwm, Blk.grp, Blk.car, Blk.door, Blk.pos, Blk.saf, Blk.fio, Blk.mbc, Blk.ser, Blk.net, Blk.acq, Blk.rec, Blk.dbg]
      []) ∧
  (∀ (sess key : Nat) (s : State), Runs (.attemptStart sess key) s fun t => t.keeps s [.nv, .boll, .hq, .man, .pwr, .recu, .sec, .xng, .est, .prot, .disp, .loop, .pos, .saf, .mbc, .ser, .car, .door, .grp, .fio, .acq, .net, .out]
      [Blk.sys, Blk.pwr, Blk.sec, Blk.man, Blk.hq, Blk.xng, Blk.est, Blk.plt, Blk.loop, Blk.pwm, Blk.grp, Blk.car, Blk.door, Blk.pos, Blk.saf, Blk.fio, Blk.mbc, Blk.ser, Blk.net, Blk.acq, Blk.rec, Blk.dbg]
      []) ∧
  (∀ (s : State), Runs (.brownOut) s fun t => t.keeps s [.nv, .boll, .hq, .man, .pwr, .recu, .sec, .xng, .est, .prot, .disp, .loop, .pos, .saf, .mbc, .ser, .car, .door, .grp, .fio, .acq, .net, .out]
      [Blk.sys, Blk.pwr, Blk.sec, Blk.man, Blk.hq, Blk.xng, Blk.est, Blk.plt, Blk.loop, Blk.pwm, Blk.grp, Blk.car, Blk.door, Blk.pos, Blk.saf, Blk.fio, Blk.mbc, Blk.ser, Blk.net, Blk.acq, Blk.rec, Blk.dbg]
      []) ∧
  (∀ (s : State), Runs (.firmwareFatal) s fun t => t.keeps s [.nv, .boll, .hq, .man, .pwr, .recu, .sec, .xng, .est, .prot, .disp, .loop, .pos, .saf, .mbc, .ser, .car, .door, .grp, .fio, .acq, .net, .out]
      [Blk.sys, Blk.pwr, Blk.sec, Blk.man, Blk.hq, Blk.xng, Blk.est, Blk.plt, Blk.loop, Blk.pwm, Blk.grp, Blk.car, Blk.door, Blk.pos, Blk.saf, Blk.fio, Blk.mbc, Blk.ser, Blk.net, Blk.acq, Blk.rec, Blk.dbg]
      []) ∧
  (∀ (sess tag : Nat) (valid : Bool) (version floor : Nat) (s : State), Runs (.firmwareCommit sess tag valid version floor) s fun t => t.keeps s [.nv, .boll, .hq, .man, .pwr, .recu, .sec, .xng, .est, .prot, .disp, .loop, .pos, .saf, .mbc, .ser, .car, .door, .grp, .fio, .acq, .net, .out]
      [Blk.sys, Blk.pwr, Blk.sec, Blk.man, Blk.hq, Blk.xng, Blk.est, Blk.plt, Blk.loop, Blk.pwm, Blk.grp, Blk.car, Blk.door, Blk.pos, Blk.saf, Blk.fio, Blk.mbc, Blk.ser, Blk.net, Blk.acq, Blk.rec, Blk.dbg]
      []) ∧
  (∀ (s : State), Runs (.glideDwellExpiry) s fun t => t.keeps s [.nv, .hq, .pwr, .recu, .xng, .acq]
      [Blk.pwr, Blk.hq, Blk.xng, Blk.loop, Blk.pwm, Blk.acq, Blk.rec] []) ∧
  (∀ (sess key : Nat) (s : State), Runs (.enterBerth sess key) s fun t => t.keeps s [.hq, .pwr, .est, .acq]
      [Blk.hq] [R.PWR_STATE_STATE, R.PWR_EVENT_STATUS_BERTH_RESULT, R.EST_STATUS_CKPT_RUNNING]) ∧
  (∀ (sess key : Nat) (s : State), Runs (.cancelBerth sess key) s fun t => t.keeps s [.hq, .pwr, .acq]
      [Blk.hq] [R.PWR_STATE_STATE, R.PWR_EVENT_STATUS_BERTH_RESULT]) ∧
  (∀ (s : State), Runs (.berthEntryComplete) s fun t => t.keeps s [.nv, .boll, .hq, .man, .pwr, .recu, .sec, .xng, .est, .prot, .disp, .loop, .pos, .saf, .mbc, .ser, .car, .door, .grp, .fio, .acq, .net, .out]
      [Blk.sys, Blk.pwr, Blk.sec, Blk.man, Blk.hq, Blk.xng, Blk.est, Blk.plt, Blk.loop, Blk.pwm, Blk.grp, Blk.car, Blk.door, Blk.pos, Blk.saf, Blk.fio, Blk.mbc, Blk.ser, Blk.net, Blk.acq, Blk.rec, Blk.dbg]
      []) ∧
  (∀ (b : Bool) (s : State), Runs (.mainInputLost b) s fun t => t.keeps s [.hq, .acq]
      [Blk.hq] [R.PWR_SUPPLY_STATUS_A_GOOD, R.PWR_EVENT_STATUS_SUPPLY_LOST]) ∧
  (∀ (torn : Bool) (s : State), Runs (.bothMainsLost torn) s fun t => t.keeps s [.nv, .boll, .hq, .man, .pwr, .recu, .sec, .xng, .est, .prot, .disp, .loop, .pos, .saf, .mbc, .ser, .car, .door, .grp, .fio, .acq, .net]
      [Blk.sys, Blk.pwr, Blk.sec, Blk.man, Blk.hq, Blk.xng, Blk.est, Blk.plt, Blk.loop, Blk.pwm, Blk.grp, Blk.car, Blk.door, Blk.pos, Blk.saf, Blk.fio, Blk.mbc, Blk.ser, Blk.net, Blk.acq, Blk.rec, Blk.dbg]
      []) ∧
  (∀ (torn : Bool) (s : State), Runs (.bkpDepleted torn) s fun t => t.keeps s [.nv, .boll, .hq, .man, .pwr, .recu, .sec, .xng, .est, .prot, .disp, .loop, .pos, .saf, .mbc, .ser, .car, .door, .grp, .fio, .acq, .net]
      [Blk.sys, Blk.pwr, Blk.sec, Blk.man, Blk.hq, Blk.xng, Blk.est, Blk.plt, Blk.loop, Blk.pwm, Blk.grp, Blk.car, Blk.door, Blk.pos, Blk.saf, Blk.fio, Blk.mbc, Blk.ser, Blk.net, Blk.acq, Blk.rec, Blk.dbg]
      []) ∧
  (∀ (n sec ms : Nat) (s : State), Runs (.wakeSourceEvent n sec ms) s fun t => t.keeps s [.hq, .pwr, .acq]
      [Blk.hq] [R.PWR_WAKE_LATCH, R.PWR_OP_SECONDS, R.PWR_OP_MS, R.PWR_STATE_STATE, R.PWR_EVENT_STATUS_BERTH_RESULT]) ∧
  (∀ (s : State), Runs (.berthWake) s fun t => t.keeps s [.boll]
      [] [R.PWR_WAKE_CAUSE]) ∧
  (∀ (sec : Nat) (s : State), Runs (.opsecPersist sec) s fun t => t.keeps s [.nv, .hq, .pwr, .acq]
      [Blk.hq] [R.PWR_OP_SECONDS, R.PWR_OP_MS, R.PWR_WAKE_LATCH, R.PWR_STATE_STATE, R.PWR_EVENT_STATUS_BERTH_RESULT]) ∧
  (∀ (sess key d : Nat) (s : State), Runs (.pwrDomainReset sess key d) s fun t => t.keeps s [.hq, .pwr, .loop, .door, .fio, .acq, .out]
      [Blk.pwr, Blk.hq, Blk.loop, Blk.pwm, Blk.door, Blk.fio] []) ∧
  (∀ (sess : Nat) (s : State), Runs (.hungAccessTimeout sess) s fun t => t.keeps s [.hq, .acq]
      [Blk.hq] [R.PWR_EVENT_STATUS_HUNG_ACCESS]) ∧
  (∀ (s : State), Runs (.watchdogService) s fun t => t.keeps s []
      [] [R.PWR_WATCHDOG_STATUS_REMAINING_MS]) ∧
  (∀ (s : State), Runs (.watchdogExpiry) s fun t => t.keeps s [.nv, .boll, .hq, .man, .pwr, .recu, .sec, .xng, .est, .prot, .disp, .loop, .pos, .saf, .mbc, .ser, .car, .door, .grp, .fio, .acq, .net, .out]
      [Blk.sys, Blk.pwr, Blk.sec, Blk.man, Blk.hq, Blk.xng, Blk.est, Blk.plt, Blk.loop, Blk.pwm, Blk.grp, Blk.car, Blk.door, Blk.pos, Blk.saf, Blk.fio, Blk.mbc, Blk.ser, Blk.net, Blk.acq, Blk.rec, Blk.dbg]
      []) ∧
  (∀ (s : State), Runs (.thermalReducedEntry) s fun t => t.keeps s [.hq, .xng, .disp, .mbc, .acq, .out]
      [Blk.pwr, Blk.hq, Blk.xng, Blk.est, Blk.plt, Blk.mbc, Blk.net] []) ∧
  (∀ (hot : Bool) (s : State), Runs (.thermalDwellExpiry hot) s fun t => t.keeps s [.nv, .hq, .pwr, .xng, .disp, .mbc, .acq, .out]
      [Blk.pwr, Blk.hq, Blk.xng, Blk.est, Blk.plt, Blk.mbc, Blk.net, Blk.rec] []) ∧
  (∀ (s : State), Runs (.thermalTrip) s fun t => t.keeps s [.nv, .boll, .hq, .man, .pwr, .recu, .sec, .xng, .est, .prot, .disp, .loop, .pos, .saf, .mbc, .ser, .car, .door, .grp, .fio, .acq, .net, .out]
      [Blk.sys, Blk.pwr, Blk.sec, Blk.man, Blk.hq, Blk.xng, Blk.est, Blk.plt, Blk.loop, Blk.pwm, Blk.grp, Blk.car, Blk.door, Blk.pos, Blk.saf, Blk.fio, Blk.mbc, Blk.ser, Blk.net, Blk.acq, Blk.rec, Blk.dbg]
      []) ∧
  (∀ (s : State), Runs (.engineHaltTimeout) s fun t => t.keeps s [.nv, .boll, .hq, .man, .pwr, .recu, .sec, .xng, .est, .prot, .disp, .loop, .pos, .saf, .mbc, .ser, .car, .door, .grp, .fio, .acq, .net, .out]
      [Blk.sys, Blk.pwr, Blk.sec, Blk.man, Blk.hq, Blk.xng, Blk.est, Blk.plt, Blk.loop, Blk.pwm, Blk.grp, Blk.car, Blk.door, Blk.pos, Blk.saf, Blk.fio, Blk.mbc, Blk.ser, Blk.net, Blk.acq, Blk.rec, Blk.dbg]
      []) ∧
  (∀ (sess tag kind len : Nat) (s : State), Runs (.manifestBegin sess tag kind len) s fun t => t.keeps s [.nv, .hq, .man, .out]
      [Blk.man] []) ∧
  (∀ (sess tag off : Nat) (data : List Byte) (s : State), Runs (.manifestChunk sess tag off data) s fun t => t.keeps s [.nv, .hq, .man, .out]
      [Blk.man] []) ∧
  (∀ (sess tag : Nat) (s : State), Runs (.manifestCommit sess tag) s fun t => t.keeps s [.hq, .man, .out]
      [Blk.man] []) ∧
  (∀ (nvmOk : Bool) (s : State), Runs (.manifestVerifyDone nvmOk) s fun t => t.keeps s [.nv, .hq, .man, .acq, .out]
      [Blk.sec, Blk.man, Blk.hq] []) ∧
  (∀ (sess tag target : Nat) (s : State), Runs (.patchCommit sess tag target) s fun t => t.keeps s [.nv, .hq, .man, .acq, .out]
      [Blk.sec, Blk.man, Blk.hq, Blk.rec] []) ∧
  (∀ (nvmOk : Bool) (s : State), Runs (.patchPersistDone nvmOk) s fun t => t.keeps s [.nv, .hq, .man, .acq, .out]
      [Blk.man, Blk.hq, Blk.rec] []) ∧
  (∀ (s : State), Runs (.patchBoundary) s fun t => t.keeps s [.nv, .hq, .man, .pwr, .xng, .est, .prot, .disp, .loop, .mbc, .grp, .acq, .out, .free]
      [Blk.pwr, Blk.man, Blk.hq, Blk.xng, Blk.est, Blk.loop, Blk.mbc, Blk.net, Blk.acq, Blk.rec] []) ∧
  (∀ (sess key : Nat) (s : State), Runs (.abortStage sess key) s fun t => t.keeps s [.man]
      []
      [R.MAN_STATUS_STAGING, R.MAN_PATCH_STATUS_STATE, R.MAN_STAGE_LENGTH, R.MAN_STAGE_RECEIVED, R.MAN_SLOT_STATE_STATE 0, R.MAN_SLOT_STATE_STATE 1]) ∧
  (∀ (sess key : Nat) (s : State), Runs (.abortPatch sess key) s fun t => t.keeps s [.nv, .man]
      [Blk.man] []) ∧
  (∀ (b : Bool) (s : State), Runs (.mainInputGood b) s fun t => t.keeps s [.hq, .pwr, .acq]
      [Blk.hq] [R.PWR_SUPPLY_STATUS_A_GOOD, R.PWR_WAKE_LATCH, R.PWR_STATE_STATE, R.PWR_EVENT_STATUS_BERTH_RESULT])

/-- Frames: what each of these rows leaves unchanged, whatever the state and the operands: the waiting commands, every
register but those of the blocks and those of the fields listed, and every part of the state that is not listed
(`State.keeps`). -/
def Obligations.HelmQueueSecurityDebugAndRecorderFrames : Prop :=
  (∀ (sess addr : Nat) (s : State), Runs (.counterLowWordRead sess addr) s fun t => t.keeps s [.hq]
      [] []) ∧
  (∀ (sess addr : Nat) (value : Word) (s : State), Runs (.counterHighWordWrite sess addr value) s fun t => t.keeps s [.hq]
      [Blk.dbg] []) ∧
  (∀ (sess : Nat) (s : State), Runs (.opMsRead sess) s fun t => t.keeps s [.hq]
      [] []) ∧
  (∀ (port : Nat) (s : State), Runs (.helmConnect port) s fun t => t.keeps s [.hq]
      [] [R.NET_HELM_REFUSED]) ∧
  (∀ (sess : Nat) (s : State), Runs (.tlsHandshakeTimeout sess) s fun t => t.keeps s [.hq]
      [] [R.NET_TLS_FAILURES]) ∧
  (∀ (sess : Nat) (s : State), Runs (.sessionIdleTimeout sess) s fun t => t.keeps s [.nv, .hq, .man, .recu, .sec, .est, .acq, .out]
      [Blk.pwr, Blk.sec, Blk.man, Blk.hq, Blk.est, Blk.rec, Blk.dbg] []) ∧
  (∀ (sess : Nat) (s : State), Runs (.helmDisconnect sess) s fun t => t.keeps s [.nv, .hq, .man, .recu, .sec, .est, .acq, .out]
      [Blk.pwr, Blk.sec, Blk.man, Blk.hq, Blk.est, Blk.rec, Blk.dbg] []) ∧
  (∀ (sess tag addr len : Nat) (s : State), Runs (.bulkRead sess tag addr len) s fun t => t.keeps s [.hq, .out, .free]
      [Blk.man] []) ∧
  (∀ (sess tag q : Nat) (entry : List Byte) (s : State), Runs (.queuePush sess tag q entry) s fun t => t.keeps s [.hq, .out]
      [Blk.man, Blk.hq] []) ∧
  (∀ (sess tag q seq : Nat) (s : State), Runs (.queueAck sess tag q seq) s fun t => t.keeps s [.hq, .out]
      [Blk.man, Blk.hq] []) ∧
  (∀ (sess tag q scope timeout : Nat) (s : State), Runs (.fence sess tag q scope timeout) s fun t => t.keeps s [.hq, .out]
      [Blk.man, Blk.hq] []) ∧
  (∀ (sess tag q mode : Nat) (s : State), Runs (.subscribe sess tag q mode) s fun t => t.keeps s [.hq, .out]
      [Blk.man] []) ∧
  (∀ (sess tag mask : Nat) (s : State), Runs (.sessionRole sess tag mask) s fun t => t.keeps s [.hq, .out]
      [Blk.man] []) ∧
  (∀ (sess tag plant gen flags off : Nat) (data : List Byte) (s : State), Runs (.restoreLearned sess tag plant gen flags off data) s fun t => t.keeps s [.nv, .hq, .est, .acq, .out]
      [Blk.man, Blk.hq, Blk.est, Blk.rec] []) ∧
  (∀ (sess : Nat) (header payload : List Byte) (s : State), (misspelt sess (header ++ payload)).isSome = true →
      u32 (header ++ payload) 8 ≤ 1048600 → Runs (.badTypeMessage sess header payload) s fun t => t.keeps s [.hq, .out] [Blk.man] []) ∧
  (∀ (sess len : Nat) (s : State), Runs (.oversizeMessage sess len) s fun t => t.keeps s [.nv, .hq, .man, .recu, .sec, .est, .acq, .out]
      [Blk.pwr, Blk.sec, Blk.man, Blk.hq, Blk.est, Blk.rec, Blk.dbg] []) ∧
  (∀ (q id : Nat) (s : State), Runs (.commandPromotion q id) s fun t => t.keeps s [.hq, .acq]
      [Blk.hq] []) ∧
  (∀ (id : Nat) (s : State), Runs (.fenceComplete id) s fun t => t.keeps s [.hq, .out]
      [Blk.hq] []) ∧
  (∀ (id undrained : Nat) (s : State), Runs (.fenceTimeout id undrained) s fun t => t.keeps s [.hq, .acq, .out]
      [Blk.hq] []) ∧
  (∀ (sess q : Nat) (s : State), Runs (.eventSend sess q) s fun t => t.keeps s [.hq, .out]
      [] []) ∧
  (∀ (sess key target : Nat) (s : State), Runs (.closeSession sess key target) s fun t => t.keeps s [.nv, .hq, .man, .recu, .sec, .est, .acq, .out]
      [Blk.pwr, Blk.sec, Blk.man, Blk.hq, Blk.est, Blk.rec, Blk.dbg] []) ∧
  (∀ (sess key q : Nat) (s : State), Runs (.releaseOwner sess key q) s fun t => t.keeps s [.hq]
      [] []) ∧
  (∀ (s : State), Runs (.standingRefresh) s fun t => t.keeps s [.hq, .xng, .disp, .mbc, .acq, .out]
      [Blk.hq, Blk.xng, Blk.mbc, Blk.net] []) ∧
  (∀ (kind a b : Nat) (s : State), Runs (.partnerSilenceTimeout kind a b) s fun t => t.keeps s []
      [] []) ∧
  (∀ (sess key n : Nat) (s : State), Runs (.xngClearCounters sess key n) s fun t => t.keeps s []
      [Blk.xng] []) ∧
  (∀ (sess key : Nat) (s : State), Runs (.estClearCounters sess key) s fun t => t.keeps s []
      [Blk.est] []) ∧
  (∀ (sess key : Nat) (s : State), Runs (.pltProtClearCounters sess key) s fun t => t.keeps s []
      [Blk.plt] []) ∧
  (∀ (sess key : Nat) (s : State), Runs (.pltDispClearCounters sess key) s fun t => t.keeps s []
      [Blk.plt] []) ∧
  (∀ (sess key : Nat) (s : State), Runs (.loopClearCounters sess key) s fun t => t.keeps s [.loop]
      [Blk.loop] []) ∧
  (∀ (sess key : Nat) (s : State), Runs (.pwmClearCounters sess key) s fun t => t.keeps s []
      [Blk.pwm] []) ∧
  (∀ (sess key : Nat) (s : State), Runs (.grpClearCounters sess key) s fun t => t.keeps s []
      [Blk.grp] []) ∧
  (∀ (sess key c : Nat) (s : State), Runs (.carClearCounters sess key c) s fun t => t.keeps s []
      [Blk.car] []) ∧
  (∀ (sess key c : Nat) (s : State), Runs (.posClearCounters sess key c) s fun t => t.keeps s []
      [Blk.pos] []) ∧
  (∀ (sess key d : Nat) (s : State), Runs (.doorClearCounters sess key d) s fun t => t.keeps s []
      [Blk.door] []) ∧
  (∀ (sess key : Nat) (s : State), Runs (.safClearCounters sess key) s fun t => t.keeps s []
      [Blk.saf] []) ∧
  (∀ (sess key : Nat) (s : State), Runs (.fioClearCounters sess key) s fun t => t.keeps s [.fio]
      [Blk.fio] []) ∧
  (∀ (sess key b : Nat) (s : State), Runs (.mbcClearCounters sess key b) s fun t => t.keeps s []
      [Blk.mbc] []) ∧
  (∀ (sess key l : Nat) (s : State), Runs (.serClearCounters sess key l) s fun t => t.keeps s [.ser]
      [Blk.ser] []) ∧
  (∀ (sess key : Nat) (s : State), Runs (.netClearCounters sess key) s fun t => t.keeps s []
      [Blk.net] []) ∧
  (∀ (sess key : Nat) (s : State), Runs (.acqClearCounters sess key) s fun t => t.keeps s []
      [Blk.acq] []) ∧
  (∀ (s : State), Runs (.appendCheckpoint) s fun t => t.keeps s [.nv]
      [] []) ∧
  (∀ (q : Nat) (s : State), Runs (.exportCmd q) s fun t => t.keeps s [.nv, .hq, .pwr, .recu, .acq, .out]
      [Blk.hq, Blk.rec] []) ∧
  (∀ (s : State), Runs (.exportStreamResume) s fun t => t.keeps s [.nv, .hq, .recu, .acq]
      [Blk.hq, Blk.rec] []) ∧
  (∀ (q : Nat) (s : State), Runs (.exportStop q) s fun t => t.keeps s [.hq, .pwr, .recu, .out]
      [Blk.rec] [R.REC_EXPORT_STATUS_RUNNING]) ∧
  (∀ (q : Nat) (s : State), Runs (.clearLog q) s fun t => t.keeps s [.hq, .pwr, .recu, .out]
      [] []) ∧
  (∀ (s : State), Runs (.clearCommit) s fun t => t.keeps s [.nv, .hq, .pwr, .recu, .acq, .out]
      [Blk.hq, Blk.rec] []) ∧
  (∀ (s : State), Runs (.zeroingDone) s fun t => t.keeps s []
      [Blk.rec] [R.REC_STATUS_ZEROING]) ∧
  (∀ (q : Nat) (s : State), Runs (.returnPrepare q) s fun t => t.keeps s [.nv, .hq, .pwr, .recu, .acq, .out]
      [Blk.hq, Blk.rec] []) ∧
  (∀ (s : State), Runs (.returnPrepareExpiry) s fun t => t.keeps s [.recu]
      [Blk.rec] [R.REC_RETURN_STATUS]) ∧
  (∀ (q : Nat) (s : State), Runs (.returnCommit q) s fun t => t.keeps s [.nv, .hq, .pwr, .recu, .sec, .xng, .disp, .saf, .mbc, .ser, .acq, .out, .free]
      [Blk.sys, Blk.sec, Blk.man, Blk.hq, Blk.est, Blk.saf, Blk.net, Blk.rec, Blk.dbg] []) ∧
  (∀ (sess key : Nat) (s : State), Runs (.clearTrace sess key) s fun t => t.keeps s [.recu]
      [Blk.rec] [R.REC_TRACE_STATUS_WRAPPED]) ∧
  (∀ (s : State), Runs (.traceSync) s fun t => t.keeps s [.recu]
      [Blk.rec] [R.REC_TRACE_STATUS_WRAPPED, R.REC_TRACE_WRAPS]) ∧
  (∀ (q : Nat) (s : State), Runs (.provision q) s fun t => t.keeps s [.nv, .hq, .pwr, .sec, .acq, .out]
      [Blk.sys, Blk.sec, Blk.hq, Blk.rec, Blk.dbg] []) ∧
  (∀ (q : Nat) (s : State), Runs (.seal q) s fun t => t.keeps s [.nv, .hq, .pwr, .sec, .acq, .out]
      [Blk.sys, Blk.sec, Blk.hq, Blk.rec, Blk.dbg] []) ∧
  (∀ (q : Nat) (s : State), Runs (.resetCommissioning q) s fun t => t.keeps s [.nv, .boll, .hq, .man, .pwr, .recu, .sec, .xng, .est, .prot, .disp, .loop, .pos, .saf, .mbc, .ser, .car, .door, .grp, .fio, .acq, .net, .out]
      [Blk.sys, Blk.pwr, Blk.sec, Blk.man, Blk.hq, Blk.xng, Blk.est, Blk.plt, Blk.loop, Blk.pwm, Blk.grp, Blk.car, Blk.door, Blk.pos, Blk.saf, Blk.fio, Blk.mbc, Blk.ser, Blk.net, Blk.acq, Blk.rec, Blk.dbg]
      []) ∧
  (∀ (q : Nat) (s : State), Runs (.keyUpdate q) s fun t => t.keeps s [.nv, .hq, .pwr, .acq, .out]
      [Blk.hq, Blk.rec]
      [R.SEC_SIG_FAILS, R.SEC_EVENT_STATUS, R.SEC_KEY_STATUS 4, R.SEC_KEY_STATUS 5, R.SEC_KEY_STATUS 6]) ∧
  (∀ (q : Nat) (s : State), Runs (.revoke q) s fun t => t.keeps s [.nv, .hq, .man, .pwr, .recu, .sec, .est, .acq, .out]
      [Blk.pwr, Blk.sec, Blk.man, Blk.hq, Blk.est, Blk.rec, Blk.dbg] []) ∧
  (∀ (q : Nat) (s : State), Runs (.debugOpen q) s fun t => t.keeps s [.nv, .hq, .pwr, .sec, .acq, .out]
      [Blk.sec, Blk.hq, Blk.rec, Blk.dbg] []) ∧
  (∀ (q : Nat) (s : State), Runs (.debugClose q) s fun t => t.keeps s [.nv, .hq, .pwr, .sec, .acq, .out]
      [Blk.sec, Blk.hq, Blk.rec, Blk.dbg] []) ∧
  (∀ (s : State), Runs (.debugExpiryCheck) s fun t => t.keeps s [.nv, .hq, .sec, .acq]
      [Blk.sec, Blk.hq, Blk.rec, Blk.dbg] []) ∧
  (∀ (q : Nat) (s : State), Runs (.enrolNode q) s fun t => t.keeps s [.nv, .hq, .pwr, .sec, .xng, .est, .prot, .acq, .out, .free]
      [Blk.sec, Blk.hq, Blk.xng, Blk.est, Blk.plt, Blk.rec] []) ∧
  (∀ (q : Nat) (s : State), Runs (.readNodeRequest q) s fun t => t.keeps s [.nv, .hq, .pwr, .sec, .xng, .est, .prot, .acq, .out, .free]
      [Blk.sec, Blk.hq, Blk.xng, Blk.est, Blk.plt, Blk.rec] []) ∧
  (∀ (q : Nat) (s : State), Runs (.firmwareUpdate q) s fun t => t.keeps s [.nv, .boll, .hq, .man, .pwr, .recu, .sec, .xng, .est, .prot, .disp, .loop, .pos, .saf, .mbc, .ser, .car, .door, .grp, .fio, .acq, .net, .out]
      [Blk.sys, Blk.pwr, Blk.sec, Blk.man, Blk.hq, Blk.xng, Blk.est, Blk.plt, Blk.loop, Blk.pwm, Blk.grp, Blk.car, Blk.door, Blk.pos, Blk.saf, Blk.fio, Blk.mbc, Blk.ser, Blk.net, Blk.acq, Blk.rec, Blk.dbg]
      []) ∧
  (∀ (sess key : Nat) (s : State), Runs (.secClearCounters sess key) s fun t => t.keeps s []
      [Blk.sec] []) ∧
  (∀ (sess v : Nat) (s : State), Runs (.stageIndexWrite sess v) s fun t => t.keeps s [.sec]
      [] [R.SEC_STAGE_INDEX]) ∧
  (∀ (sess : Nat) (write : Bool) (v : Word) (s : State), Runs (.stageDataAccess sess write v) s fun t => t.keeps s [.sec]
      [] [R.SEC_STAGE_INDEX]) ∧
  (∀ (m : Nat) (s : State), Runs (.tamperTrip m) s fun t => t.keeps s [.nv, .boll, .hq, .man, .pwr, .recu, .sec, .xng, .est, .prot, .disp, .loop, .pos, .saf, .mbc, .ser, .car, .door, .grp, .fio, .acq, .net, .out]
      [Blk.sys, Blk.pwr, Blk.sec, Blk.man, Blk.hq, Blk.xng, Blk.est, Blk.plt, Blk.loop, Blk.pwm, Blk.grp, Blk.car, Blk.door, Blk.pos, Blk.saf, Blk.fio, Blk.mbc, Blk.ser, Blk.net, Blk.acq, Blk.rec, Blk.dbg]
      []) ∧
  (∀ (s : State), Runs (.tamperResetRelease) s fun t => t.keeps s [.nv, .boll, .hq, .man, .pwr, .recu, .sec, .xng, .est, .prot, .disp, .loop, .pos, .saf, .mbc, .ser, .car, .door, .grp, .fio, .acq, .net, .out]
      [Blk.sys, Blk.pwr, Blk.sec, Blk.man, Blk.hq, Blk.xng, Blk.est, Blk.plt, Blk.loop, Blk.pwm, Blk.grp, Blk.car, Blk.door, Blk.pos, Blk.saf, Blk.fio, Blk.mbc, Blk.ser, Blk.net, Blk.acq, Blk.rec, Blk.dbg]
      []) ∧
  (∀ (sess v : Nat) (s : State), Runs (.dbgHaltRequestWrite sess v) s fun t => t.keeps s [.nv, .hq, .sec, .acq]
      [Blk.sec, Blk.hq, Blk.rec, Blk.dbg] []) ∧
  (∀ (k : Nat) (s : State), Runs (.coreHaltEffective k) s fun t => t.keeps s [.nv, .hq, .acq]
      [Blk.sec, Blk.hq, Blk.rec, Blk.dbg] []) ∧
  (∀ (s : State), Runs (.haltDeferralEnd) s fun t => t.keeps s []
      [] [R.DBG_HALT_DEFERRED]) ∧
  (∀ (sess : Nat) (write : Bool) (v : Word) (s : State), Runs (.dbgMemAccess sess write v) s fun t => t.keeps s [.sec, .free]
      [] [R.DBG_MEM_ADDR_LO, R.DBG_MEM_ADDR_HI, R.DBG_MEM_STATUS, R.DBG_REFUSED]) ∧
  (∀ (sess k : Nat) (v : Word) (s : State), Runs (.siteTagWrite sess k v) s fun t => t.keeps s []
      [] [R.SYS_SITE_TAG k]) ∧
  (∀ (s : State), Runs (.rngHealthTestFailure) s fun t => t.keeps s []
      [] [R.SEC_RNG_STATUS]) ∧
  (∀ (k b : Nat) (s : State), Runs (.breakpointHit k b) s fun t => t.keeps s [.nv, .hq, .acq]
      [Blk.sec, Blk.hq, Blk.rec, Blk.dbg] []) ∧
  (∀ (sess certRoles serial : Nat) (chain : List Nat) (chainOk keyOk selfOk : Bool) (notBefore notAfter : Nat) (offer : TlsOffer) (s : State), Runs (.tlsHandshakeComplete sess certRoles serial chain chainOk keyOk selfOk notBefore notAfter offer) s fun t => t.keeps s [.nv, .hq, .acq]
      [Blk.sec, Blk.hq, Blk.net, Blk.rec] [])

/-- Frames: what each of these rows leaves unchanged, whatever the state and the operands: the waiting commands, every
register but those of the blocks and those of the fields listed, and every part of the state that is not listed
(`State.keeps`). -/
def Obligations.CrossingFrames : Prop :=
  (∀ (n hop : Nat) (endB : Bool) (genA genB : Nat) (s : State), Runs (.hopTrained n hop endB genA genB) s fun t => t.keeps s [.nv, .hq, .pwr, .sec, .xng, .est, .prot, .acq, .out, .free]
      [Blk.sec, Blk.hq, Blk.xng, Blk.est, Blk.plt, Blk.rec] []) ∧
  (∀ (n hop : Nat) (s : State), Runs (.hopErrorFallback n hop) s fun t => t.keeps s [.nv, .hq, .xng, .acq]
      [Blk.hq, Blk.xng, Blk.rec] []) ∧
  (∀ (n : Nat) (endB : Bool) (s : State), Runs (.hopDown n endB) s fun t => t.keeps s [.nv, .hq, .pwr, .sec, .xng, .est, .prot, .acq, .out, .free]
      [Blk.sec, Blk.hq, Blk.xng, Blk.est, Blk.plt, Blk.rec] []) ∧
  (∀ (n berth : Nat) (towardB : Bool) (s : State), Runs (.linkFaultReceived n berth towardB) s fun t => t.keeps s [.nv, .hq, .pwr, .sec, .xng, .est, .prot, .acq, .out, .free]
      [Blk.sec, Blk.hq, Blk.xng, Blk.est, Blk.plt, Blk.rec] []) ∧
  (∀ (n hop : Nat) (s : State), Runs (.ringHeal n hop) s fun t => t.keeps s [.nv, .hq, .xng, .acq, .out]
      [Blk.hq, Blk.xng, Blk.rec] []) ∧
  (∀ (n : Nat) (s : State), Runs (.presenceTimer n) s fun t => t.keeps s [.xng, .out]
      [] []) ∧
  (∀ (n : Nat) (s : State), Runs (.joinDiscoveryTimer n) s fun t => t.keeps s [.xng, .out]
      [] []) ∧
  (∀ (n : Nat) (endB : Bool) (frame : List Byte) (s : State), Runs (.joinResponse n endB frame) s fun t => t.keeps s [.nv, .hq, .pwr, .sec, .xng, .est, .prot, .acq, .out, .free]
      [Blk.sec, Blk.hq, Blk.xng, Blk.est, Blk.plt, Blk.rec] []) ∧
  (∀ (n : Nat) (endB : Bool) (frame : List Byte) (s : State), Runs (.authResponse n endB frame) s fun t => t.keeps s [.nv, .hq, .pwr, .sec, .xng, .est, .prot, .acq, .out, .free]
      [Blk.sec, Blk.hq, Blk.xng, Blk.est, Blk.plt, Blk.rec] []) ∧
  (∀ (n berth : Nat) (s : State), Runs (.authTimeout n berth) s fun t => t.keeps s [.nv, .hq, .pwr, .sec, .xng, .est, .prot, .acq, .out, .free]
      [Blk.sec, Blk.hq, Blk.xng, Blk.est, Blk.plt, Blk.rec] []) ∧
  (∀ (n berth : Nat) (s : State), Runs (.periodicChallenge n berth) s fun t => t.keeps s [.nv, .hq, .pwr, .sec, .xng, .est, .prot, .acq, .out, .free]
      [Blk.sec, Blk.hq, Blk.xng, Blk.est, Blk.plt, Blk.rec] []) ∧
  (∀ (n berth : Nat) (s : State), Runs (.sweepDue n berth) s fun t => t.keeps s [.nv, .hq, .pwr, .sec, .xng, .est, .prot, .acq, .out, .free]
      [Blk.sec, Blk.hq, Blk.xng, Blk.est, Blk.plt, Blk.rec] []) ∧
  (∀ (n berth : Nat) (s : State), Runs (.sweepPromotion n berth) s fun t => t.keeps s [.nv, .hq, .pwr, .sec, .xng, .est, .prot, .acq, .out, .free]
      [Blk.sec, Blk.hq, Blk.xng, Blk.est, Blk.plt, Blk.rec] []) ∧
  (∀ (n : Nat) (endB : Bool) (frame : List Byte) (s : State), Runs (.sampleReport n endB frame) s fun t => t.keeps s [.nv, .hq, .pwr, .sec, .xng, .est, .prot, .acq, .out, .free]
      [Blk.sec, Blk.hq, Blk.xng, Blk.est, Blk.plt, Blk.rec] []) ∧
  (∀ (n : Nat) (endB : Bool) (frame : List Byte) (s : State), Runs (.unsolicitedReport n endB frame) s fun t => t.keeps s [.hq, .xng, .est, .acq]
      [Blk.hq, Blk.xng, Blk.est] []) ∧
  (∀ (n : Nat) (endB : Bool) (frame : List Byte) (s : State), Runs (.hawserResponse n endB frame) s fun t => t.keeps s [.nv, .hq, .pwr, .sec, .xng, .est, .prot, .acq, .out, .free]
      [Blk.sec, Blk.hq, Blk.xng, Blk.est, Blk.plt, Blk.rec] []) ∧
  (∀ (tag : Nat) (s : State), Runs (.transactionTimeout tag) s fun t => t.keeps s [.nv, .hq, .pwr, .sec, .xng, .est, .prot, .acq, .out, .free]
      [Blk.sec, Blk.hq, Blk.xng, Blk.est, Blk.plt, Blk.rec] []) ∧
  (∀ (n berth : Nat) (s : State), Runs (.nodeLost n berth) s fun t => t.keeps s [.nv, .hq, .pwr, .sec, .xng, .est, .prot, .acq, .out, .free]
      [Blk.sec, Blk.hq, Blk.xng, Blk.est, Blk.plt, Blk.rec] []) ∧
  (∀ (n : Nat) (endB : Bool) (frame : List Byte) (s : State), Runs (.nodeLeave n endB frame) s fun t => t.keeps s [.nv, .hq, .pwr, .sec, .xng, .est, .prot, .acq, .out, .free]
      [Blk.sec, Blk.hq, Blk.xng, Blk.est, Blk.plt, Blk.rec] []) ∧
  (∀ (q : Nat) (s : State), Runs (.ringSleep q) s fun t => t.keeps s [.hq, .pwr, .xng, .acq, .out]
      [Blk.hq, Blk.xng] []) ∧
  (∀ (n : Nat) (endB : Bool) (frame : List Byte) (s : State), Runs (.sleepProposeResponse n endB frame) s fun t => t.keeps s [.hq, .pwr, .xng, .acq, .out, .free]
      [Blk.hq, Blk.xng] []) ∧
  (∀ (n : Nat) (s : State), Runs (.sleepAnswerTimeout n) s fun t => t.keeps s [.hq, .pwr, .xng, .acq, .out, .free]
      [Blk.hq]
      [R.XNG_SLEEP_STATUS_STATE n, R.XNG_EVENT_STATUS_SLEEP_CHANGE n, R.XNG_RING_STATUS_STATE n, R.XNG_GEN_SUMMARY n, R.XNG_BREAK n, R.XNG_TXN_TIMEOUT n, R.XNG_TXN_NORES n]) ∧
  (∀ (n : Nat) (s : State), Runs (.wakeTone n) s fun t => t.keeps s [.hq, .pwr, .xng, .acq, .out, .free]
      [Blk.hq]
      [R.PWR_WAKE_LATCH, R.PWR_STATE_STATE, R.PWR_EVENT_STATUS_BERTH_RESULT, R.XNG_SLEEP_STATUS_STATE n, R.XNG_EVENT_STATUS_SLEEP_CHANGE n, R.XNG_RING_STATUS_STATE n, R.XNG_GEN_SUMMARY n, R.XNG_BREAK n, R.XNG_TXN_TIMEOUT n, R.XNG_TXN_NORES n]) ∧
  (∀ (q : Nat) (s : State), Runs (.ringWake q) s fun t => t.keeps s [.hq, .pwr, .xng, .acq, .out, .free]
      [Blk.hq, Blk.xng] []) ∧
  (∀ (q : Nat) (s : State), Runs (.nodeRead q) s fun t => t.keeps s [.nv, .hq, .pwr, .sec, .xng, .est, .prot, .acq, .out, .free]
      [Blk.sec, Blk.hq, Blk.xng, Blk.est, Blk.plt, Blk.rec] []) ∧
  (∀ (q : Nat) (s : State), Runs (.nodeWrite q) s fun t => t.keeps s [.nv, .hq, .pwr, .sec, .xng, .est, .prot, .acq, .out, .free]
      [Blk.sec, Blk.hq, Blk.xng, Blk.est, Blk.plt, Blk.rec] []) ∧
  (∀ (q wait : Nat) (s : State), Runs (.rediscover q wait) s fun t => t.keeps s [.hq, .pwr, .xng, .acq, .out]
      [Blk.hq, Blk.xng] []) ∧
  (∀ (q : Nat) (s : State), Runs (.reauthenticate q) s fun t => t.keeps s [.nv, .hq, .pwr, .sec, .xng, .est, .prot, .acq, .out, .free]
      [Blk.sec, Blk.hq, Blk.xng, Blk.est, Blk.plt, Blk.rec] []) ∧
  (∀ (sess key n : Nat) (s : State), Runs (.retrain sess key n) s fun t => t.keeps s [.hq, .xng, .acq, .out]
      [Blk.hq, Blk.xng] [])

/-- Frames: what each of these rows leaves unchanged, whatever the state and the operands: the waiting commands, every
register but those of the blocks and those of the fields listed, and every part of the state that is not listed
(`State.keeps`). -/
def Obligations.EstimationFrames : Prop :=
  (∀ (wrong redo : List Nat) (retryFails : Bool) (s : State), Runs (.sweepApply wrong redo retryFails) s fun t => t.keeps s [.nv, .hq, .pwr, .sec, .xng, .est, .prot, .acq, .out, .free]
      [Blk.sec, Blk.hq, Blk.xng, Blk.est, Blk.plt, Blk.rec] []) ∧
  (∀ (i : Nat) (s : State), Runs (.restComplete i) s fun t => t.keeps s [.est]
      [] []) ∧
  (∀ (s : State), Runs (.rollupPublish) s fun t => t.keeps s [.est]
      [Blk.est] []) ∧
  (∀ (s : State), Runs (.checkpointInterval) s fun t => t.keeps s [.est]
      [] [R.EST_STATUS_CKPT_RUNNING]) ∧
  (∀ (ok : Bool) (s : State), Runs (.checkpointDone ok) s fun t => t.keeps s [.nv, .hq, .pwr, .est, .acq, .out]
      [Blk.hq, Blk.rec]
      [R.EST_STATUS_CKPT_RUNNING, R.EST_CKPT_GEN, R.EST_CKPT_STATUS_CAUSE, R.EST_CKPT_OPSEC, R.EST_EVENT_STATUS_CHECKPOINT_FAILED]) ∧
  (∀ (s : State), Runs (.checkpointRetry) s fun t => t.keeps s [.est]
      [] [R.EST_STATUS_CKPT_RUNNING]) ∧
  (∀ (i : Nat) (s : State), Runs (.freezeExpiry i) s fun t => t.keeps s [.est]
      [] []) ∧
  (∀ (q : Nat) (s : State), Runs (.checkpoint q) s fun t => t.keeps s [.hq, .pwr, .est, .out]
      [] [R.EST_STATUS_CKPT_RUNNING]) ∧
  (∀ (q : Nat) (s : State), Runs (.stringFigures q) s fun t => t.keeps s [.hq, .pwr, .out]
      [] []) ∧
  (∀ (q : Nat) (s : State), Runs (.reinitialise q) s fun t => t.keeps s [.hq, .pwr, .est, .out]
      [] []) ∧
  (∀ (q : Nat) (s : State), Runs (.resetLearned q) s fun t => t.keeps s [.hq, .pwr, .est, .out]
      [] []) ∧
  (∀ (q : Nat) (s : State), Runs (.clearShort q) s fun t => t.keeps s [.hq, .pwr, .est, .out]
      [] []) ∧
  (∀ (sess key : Nat) (s : State), Runs (.abortRestore sess key) s fun t => t.keeps s [.est]
      [] [R.EST_RESTORE_STATUS_RESULT, R.EST_STATUS_RESTORE_RUNNING])

/-- Frames: what each of these rows leaves unchanged, whatever the state and the operands: the waiting commands, every
register but those of the blocks and those of the fields listed, and every part of the state that is not listed
(`State.keeps`). -/
def Obligations.ProtectionAndDispatchFrames : Prop :=
  (∀ (i : Nat) (s : State), Runs (.orderlyOpenTimeout i) s fun t => t.keeps s [.nv, .hq, .pwr, .sec, .xng, .est, .prot, .acq, .out, .free]
      [Blk.sec, Blk.hq, Blk.xng, Blk.est, Blk.plt, Blk.rec] []) ∧
  (∀ (i : Nat) (s : State), Runs (.stringCloseStart i) s fun t => t.keeps s [.nv, .hq, .pwr, .sec, .xng, .est, .prot, .acq, .out, .free]
      [Blk.sec, Blk.hq, Blk.xng, Blk.est, Blk.plt, Blk.rec] []) ∧
  (∀ (i : Nat) (s : State), Runs (.stringClosingTimeout i) s fun t => t.keeps s [.nv, .hq, .pwr, .sec, .xng, .est, .prot, .acq, .out, .free]
      [Blk.sec, Blk.hq, Blk.xng, Blk.est, Blk.plt, Blk.rec] []) ∧
  (∀ (c : Nat) (s : State), Runs (.containerClosingTimeout c) s fun t => t.keeps s [.nv, .hq, .pwr, .prot, .acq, .out]
      [Blk.hq, Blk.rec] [R.PLT_BREAKER_TRIPS, R.PLT_PROT_EVENT_STATUS_BREAKER_TRIPPED, R.PLT_CLOSE_FAILS]) ∧
  (∀ (c : Nat) (s : State), Runs (.containerCurrentRead c) s fun t => t.keeps s [.nv, .hq, .pwr, .sec, .xng, .est, .prot, .acq, .out, .free]
      [Blk.sec, Blk.hq, Blk.xng, Blk.est, Blk.plt, Blk.rec] []) ∧
  (∀ (c : Nat) (s : State), Runs (.branchCurrentRead c) s fun t => t.keeps s [.nv, .hq, .pwr, .sec, .xng, .est, .prot, .acq, .out, .free]
      [Blk.sec, Blk.hq, Blk.xng, Blk.est, Blk.plt, Blk.rec] []) ∧
  (∀ (c : Nat) (s : State), Runs (.containerStatusRead c) s fun t => t.keeps s [.nv, .hq, .pwr, .sec, .xng, .est, .prot, .acq, .out, .free]
      [Blk.sec, Blk.hq, Blk.xng, Blk.est, Blk.plt, Blk.rec] []) ∧
  (∀ (i : Nat) (charge : Bool) (s : State), Runs (.overcurrentBlockExpiry i charge) s fun t => t.keeps s [.prot]
      [] []) ∧
  (∀ (s : State), Runs (.balanceCycle) s fun t => t.keeps s [.nv, .hq, .pwr, .sec, .xng, .est, .prot, .acq, .out, .free]
      [Blk.sec, Blk.hq, Blk.xng, Blk.est, Blk.plt, Blk.rec] []) ∧
  (∀ (s : State), Runs (.thermalSetpointCycle) s fun t => t.keeps s [.nv, .hq, .pwr, .sec, .xng, .est, .prot, .acq, .out, .free]
      [Blk.sec, Blk.hq, Blk.xng, Blk.est, Blk.plt, Blk.rec] []) ∧
  (∀ (c : Nat) (s : State), Runs (.thermalFaultBlockEnd c) s fun t => t.keeps s [.prot]
      [] []) ∧
  (∀ (q : Nat) (s : State), Runs (.stringClose q) s fun t => t.keeps s [.nv, .hq, .pwr, .sec, .xng, .est, .prot, .acq, .out, .free]
      [Blk.sec, Blk.hq, Blk.xng, Blk.est, Blk.plt, Blk.rec] []) ∧
  (∀ (q : Nat) (s : State), Runs (.stringOpen q) s fun t => t.keeps s [.nv, .hq, .pwr, .sec, .xng, .est, .prot, .acq, .out, .free]
      [Blk.sec, Blk.hq, Blk.xng, Blk.est, Blk.plt, Blk.rec] []) ∧
  (∀ (q : Nat) (s : State), Runs (.containerClose q) s fun t => t.keeps s [.nv, .hq, .pwr, .sec, .xng, .est, .prot, .acq, .out, .free]
      [Blk.sec, Blk.hq, Blk.xng, Blk.est, Blk.plt, Blk.rec] []) ∧
  (∀ (q : Nat) (s : State), Runs (.containerOpen q) s fun t => t.keeps s [.nv, .hq, .pwr, .sec, .xng, .est, .prot, .acq, .out, .free]
      [Blk.sec, Blk.hq, Blk.xng, Blk.est, Blk.plt, Blk.rec] []) ∧
  (∀ (q : Nat) (s : State), Runs (.resetTrip q) s fun t => t.keeps s [.nv, .hq, .pwr, .prot, .acq, .out]
      [Blk.hq, Blk.rec] []) ∧
  (∀ (q : Nat) (s : State), Runs (.thermalMode q) s fun t => t.keeps s [.nv, .hq, .pwr, .sec, .xng, .est, .prot, .acq, .out, .free]
      [Blk.sec, Blk.hq, Blk.xng, Blk.est, Blk.plt, Blk.rec] []) ∧
  (∀ (s : State), Runs (.dispatchCycle) s fun t => t.keeps s [.nv, .hq, .pwr, .sec, .xng, .est, .prot, .disp, .acq, .out, .free]
      [Blk.sec, Blk.hq, Blk.xng, Blk.est, Blk.plt, Blk.net, Blk.rec] []) ∧
  (∀ (src : Nat) (s : State), Runs (.sourceFault src) s fun t => t.keeps s [.nv, .hq, .disp, .acq]
      [Blk.hq, Blk.rec]
      [R.PLT_DISP_EVENT_STATUS_SOURCE_FALLBACK, R.PLT_DISP_STATUS_SOURCE_FALLBACK, R.PLT_SOURCE_SELECT_IN_USE]) ∧
  (∀ (s : State), Runs (.sourceRestore) s fun t => t.keeps s [.nv, .hq, .disp, .acq]
      [Blk.hq, Blk.rec]
      [R.PLT_DISP_EVENT_STATUS_SOURCE_FALLBACK, R.PLT_DISP_STATUS_SOURCE_FALLBACK, R.PLT_SOURCE_SELECT_IN_USE]) ∧
  (∀ (sess code : Nat) (s : State), Runs (.sourceSelectWrite sess code) s fun t => t.keeps s [.nv, .hq, .disp, .acq]
      [Blk.hq, Blk.rec]
      [R.PLT_DISP_EVENT_STATUS_SOURCE_FALLBACK, R.PLT_DISP_STATUS_SOURCE_FALLBACK, R.PLT_SOURCE_SELECT_IN_USE]) ∧
  (∀ (dg : List Byte) (s : State), Runs (.pcsStatusDatagram dg) s fun t => t.keeps s [.nv, .hq, .disp, .acq, .out]
      [Blk.hq, Blk.plt, Blk.net, Blk.rec] []) ∧
  (∀ (p : Nat) (s : State), Runs (.pcsLostTimeout p) s fun t => t.keeps s [.nv, .hq, .disp, .acq]
      [Blk.hq, Blk.plt, Blk.rec] []) ∧
  (∀ (units : Bool) (s : State), Runs (.mainsLostConfirm units) s fun t => t.keeps s [.nv, .hq, .xng, .disp, .mbc, .acq, .out]
      [Blk.pwr, Blk.hq, Blk.xng, Blk.est, Blk.plt, Blk.mbc, Blk.net, Blk.rec] []) ∧
  (∀ (s : State), Runs (.mainsPresentConfirm) s fun t => t.keeps s [.nv, .hq, .acq]
      [Blk.hq, Blk.plt, Blk.rec] []) ∧
  (∀ (s : State), Runs (.fireAlarmActive) s fun t => t.keeps s [.nv, .hq, .xng, .disp, .mbc, .acq, .out]
      [Blk.pwr, Blk.hq, Blk.xng, Blk.est, Blk.plt, Blk.mbc, Blk.net, Blk.rec] []) ∧
  (∀ (s : State), Runs (.fireAlarmHoldExpiry) s fun t => t.keeps s [.nv, .hq, .pwr, .xng, .prot, .disp, .mbc, .acq, .out]
      [Blk.pwr, Blk.hq, Blk.xng, Blk.est, Blk.plt, Blk.mbc, Blk.net, Blk.rec] []) ∧
  (∀ (s : State), Runs (.billingIntervalClose) s fun t => t.keeps s [.nv, .hq, .disp, .acq]
      [Blk.hq, Blk.rec] [R.PLT_BILL_EXPORT, R.PLT_BILL_FLAGS, R.PLT_BILL_IMPORT, R.PLT_BILL_SEQ]) ∧
  (∀ (s : State), Runs (.billingPersist) s fun t => t.keeps s [.nv]
      [] []) ∧
  (∀ (q : Nat) (s : State), Runs (.scheduleAdd q) s fun t => t.keeps s [.hq, .pwr, .disp, .out]
      [] [R.PLT_SCHEDULE_DEPTH]) ∧
  (∀ (q : Nat) (s : State), Runs (.scheduleClear q) s fun t => t.keeps s [.hq, .pwr, .disp, .out]
      [] [R.PLT_SCHEDULE_DEPTH]) ∧
  (∀ (q : Nat) (s : State), Runs (.billingRead q) s fun t => t.keeps s [.hq, .pwr, .out]
      [] []) ∧
  (∀ (sess key : Nat) (s : State), Runs (.returnToSource sess key) s fun t => t.keeps s [.nv, .hq, .disp, .acq]
      [Blk.hq, Blk.rec]
      [R.PLT_DISP_EVENT_STATUS_SOURCE_FALLBACK, R.PLT_DISP_STATUS_SOURCE_FALLBACK, R.PLT_SOURCE_SELECT_IN_USE])

/-- Frames: what each of these rows leaves unchanged, whatever the state and the operands: the waiting commands, every
register but those of the blocks and those of the fields listed, and every part of the state that is not listed
(`State.keeps`). -/
def Obligations.LoopAndPwmFrames : Prop :=
  (∀ (sess : Nat) (value : Word) (s : State), Runs (.loopSigWrite sess value) s fun t => t.keeps s [.hq, .loop, .acq]
      [Blk.hq]
      [R.LOOP_EVENT_STATUS_HOST_WRITE_REFUSED, R.LOOP_HOST_REFUSED, R.LOOP_SIG_WRITE_STATUS_PENDING, R.LOOP_STAGED_OVERWRITTEN]) ∧
  (∀ (q : Nat) (s : State), Runs (.setSignals q) s fun t => t.keeps s [.hq, .pwr, .loop, .acq, .out]
      [Blk.hq] [R.LOOP_STAGED_OVERWRITTEN]) ∧
  (∀ (q : Nat) (s : State), Runs (.restartSlot q) s fun t => t.keeps s [.hq, .pwr, .loop, .out]
      [] []) ∧
  (∀ (sess key : Nat) (s : State), Runs (.syncArm sess key) s fun t => t.keeps s [.nv, .hq, .acq]
      [Blk.hq, Blk.rec] [R.LOOP_EVENT_STATUS_SYNC_CHANGE, R.LOOP_SYNC_STATUS_STATE]) ∧
  (∀ (sess key : Nat) (s : State), Runs (.syncDisarm sess key) s fun t => t.keeps s [.nv, .hq, .acq]
      [Blk.hq, Blk.rec] [R.LOOP_EVENT_STATUS_SYNC_CHANGE, R.LOOP_SYNC_STATUS_STATE]) ∧
  (∀ (cycle : Nat) (s : State), Runs (.syncEdge cycle) s fun t => t.keeps s [.nv, .hq, .loop, .acq]
      [Blk.hq, Blk.rec] [R.LOOP_EVENT_STATUS_SYNC_CHANGE, R.LOOP_SYNC_STATUS_STATE, R.LOOP_SYNC_EARLY]) ∧
  (∀ (s : State), Runs (.syncLateLimit) s fun t => t.keeps s [.nv, .hq, .loop, .acq]
      [Blk.hq, Blk.rec] [R.LOOP_EVENT_STATUS_SYNC_CHANGE, R.LOOP_SYNC_STATUS_STATE, R.LOOP_SYNC_MISSED]) ∧
  (∀ (i : Nat) (active : Bool) (s : State), Runs (.pwmFaultInput i active) s fun t => t.keeps s [.nv, .hq, .acq]
      [Blk.hq, Blk.pwm, Blk.rec] []) ∧
  (∀ (sess : Nat) (value : Word) (s : State), Runs (.pwmFaultLatchClear sess value) s fun t => t.keeps s [.hq, .acq]
      [Blk.hq, Blk.pwm] [])

/-- Frames: what each of these rows leaves unchanged, whatever the state and the operands: the waiting commands, every
register but those of the blocks and those of the fields listed, and every part of the state that is not listed
(`State.keeps`). -/
def Obligations.LiftFrames : Prop :=
  (∀ (s : State), Runs (.groupDispatchCycle) s fun t => t.keeps s [.nv, .hq, .pwr, .pos, .mbc, .ser, .car, .door, .grp, .acq, .out]
      [Blk.pwr, Blk.hq, Blk.grp, Blk.car, Blk.door, Blk.mbc, Blk.rec] []) ∧
  (∀ (f button : Nat) (down : Bool) (s : State), Runs (.fixturePress f button down) s fun t => t.keeps s [.nv, .hq, .pwr, .mbc, .ser, .door, .grp, .acq, .out]
      [Blk.pwr, Blk.hq, Blk.grp, Blk.door, Blk.mbc, Blk.rec] []) ∧
  (∀ (f dest ent flags : Nat) (s : State), Runs (.fixtureDestination f dest ent flags) s fun t => t.keeps s [.hq, .mbc, .ser, .grp, .acq]
      [Blk.pwr, Blk.hq, Blk.grp, Blk.mbc] []) ∧
  (∀ (f key : Nat) (on : Bool) (s : State), Runs (.fixtureKey f key on) s fun t => t.keeps s [.nv, .hq, .mbc, .ser, .grp, .acq]
      [Blk.pwr, Blk.hq, Blk.grp, Blk.mbc, Blk.rec] []) ∧
  (∀ (f status : Nat) (s : State), Runs (.fixtureHeartbeat f status) s fun t => t.keeps s [.grp]
      [] [R.GRP_FIXTURES_ONLINE, R.GRP_FIXTURES_FAULT_LOST]) ∧
  (∀ (f : Nat) (s : State), Runs (.fixtureLost f) s fun t => t.keeps s [.nv, .hq, .grp, .acq]
      [Blk.hq, Blk.grp, Blk.ser, Blk.rec] []) ∧
  (∀ (f button : Nat) (s : State), Runs (.buttonStuck f button) s fun t => t.keeps s [.nv, .hq, .grp, .acq]
      [Blk.hq, Blk.rec] [R.GRP_FIXTURES_ONLINE, R.GRP_FIXTURES_FAULT_LOST, R.GRP_EVENT_STATUS_FIXTURE_FAULT]) ∧
  (∀ (s : State), Runs (.indicateRefresh) s fun t => t.keeps s [.hq, .mbc, .ser, .acq]
      [Blk.hq, Blk.mbc] []) ∧
  (∀ (i : Nat) (s : State), Runs (.refusedLampTimeout i) s fun t => t.keeps s [.hq, .mbc, .ser, .acq]
      [Blk.hq, Blk.mbc] []) ∧
  (∀ (c : Nat) (s : State), Runs (.parkingDelayExpiry c) s fun t => t.keeps s [.pos, .grp]
      [] [R.CAR_NEXT_STOP_VALID c]) ∧
  (∀ (c : Nat) (s : State), Runs (.evacuationDwellExpiry c) s fun t => t.keeps s [.nv, .hq, .pwr, .pos, .mbc, .ser, .car, .door, .grp, .acq, .out]
      [Blk.pwr, Blk.hq, Blk.grp, Blk.car, Blk.door, Blk.mbc, Blk.rec] []) ∧
  (∀ (q : Nat) (s : State), Runs (.hostCall q) s fun t => t.keeps s [.hq, .pwr, .mbc, .ser, .grp, .acq, .out]
      [Blk.pwr, Blk.hq, Blk.mbc] []) ∧
  (∀ (q : Nat) (s : State), Runs (.cancelCall q) s fun t => t.keeps s [.hq, .pwr, .mbc, .ser, .grp, .acq, .out]
      [Blk.pwr, Blk.hq, Blk.mbc] []) ∧
  (∀ (q : Nat) (s : State), Runs (.carService q) s fun t => t.keeps s [.hq, .pwr, .grp, .out]
      [] []) ∧
  (∀ (q : Nat) (s : State), Runs (.evacCall q) s fun t => t.keeps s [.hq, .pwr, .mbc, .ser, .grp, .acq, .out]
      [Blk.pwr, Blk.hq, Blk.mbc] []) ∧
  (∀ (q : Nat) (s : State), Runs (.callRead q) s fun t => t.keeps s [.hq, .pwr, .out]
      [] []) ∧
  (∀ (c frame stamp : Nat) (back : Rat) (s : State), Runs (.ssiRead c frame stamp back) s fun t => t.keeps s [.nv, .hq, .pwr, .pos, .saf, .car, .acq, .out, .free]
      [Blk.pwr, Blk.hq, Blk.car, Blk.pos, Blk.saf, Blk.rec] []) ∧
  (∀ (c src : Nat) (falling : Bool) (stamp : Nat) (back : Rat) (s : State), Runs (.latchEdge c src falling stamp back) s fun t => t.keeps s [.nv, .hq, .pwr, .pos, .saf, .car, .acq, .out, .free]
      [Blk.pwr, Blk.hq, Blk.car, Blk.pos, Blk.saf, Blk.rec] []) ∧
  (∀ (c : Nat) (s : State), Runs (.motorSourceFault c) s fun t => t.keeps s [.nv, .hq, .pwr, .pos, .saf, .car, .acq, .out, .free]
      [Blk.pwr, Blk.hq, Blk.car, Blk.pos, Blk.saf, Blk.rec] []) ∧
  (∀ (c l e : Nat) (s : State), Runs (.targetWrite c l e) s fun t => t.keeps s [.pos]
      [] [R.CAR_NEXT_STOP_VALID c]) ∧
  (∀ (c : Nat) (data : List Byte) (s : State), Runs (.tractionStatusFrame c data) s fun t => t.keeps s [.nv, .hq, .pwr, .saf, .mbc, .car, .acq, .out, .free]
      [Blk.pwr, Blk.hq, Blk.car, Blk.saf, Blk.mbc, Blk.rec] []) ∧
  (∀ (c : Nat) (s : State), Runs (.tractionDriveLost c) s fun t => t.keeps s [.nv, .hq, .pwr, .saf, .car, .acq, .out, .free]
      [Blk.pwr, Blk.hq, Blk.car, Blk.saf, Blk.rec] []) ∧
  (∀ (s : State), Runs (.tractionGlideFrame) s fun t => t.keeps s [.hq, .mbc, .acq]
      [Blk.hq] [R.MBC_TX_PENDING 8, R.MBC_TX_SUPERSEDED 8, R.MBC_SLEEP_STATUS 8, R.MBC_EVENT_STATUS_SLEEP_CHANGE 8]) ∧
  (∀ (c : Nat) (s : State), Runs (.brakeLiftTimeout c) s fun t => t.keeps s [.nv, .hq, .pwr, .saf, .car, .acq, .out, .free]
      [Blk.pwr, Blk.hq, Blk.car, Blk.saf, Blk.rec] []) ∧
  (∀ (c : Nat) (s : State), Runs (.levellingTimeout c) s fun t => t.keeps s [.nv, .hq, .pwr, .saf, .car, .acq, .out, .free]
      [Blk.pwr, Blk.hq, Blk.car, Blk.saf, Blk.rec] []) ∧
  (∀ (c : Nat) (s : State), Runs (.relevellingTimeout c) s fun t => t.keeps s [.nv, .hq, .pwr, .saf, .car, .acq, .out, .free]
      [Blk.pwr, Blk.hq, Blk.car, Blk.saf, Blk.rec] []) ∧
  (∀ (c : Nat) (top active : Bool) (s : State), Runs (.finalLimitInput c top active) s fun t => t.keeps s [.nv, .hq, .pwr, .saf, .car, .acq, .out, .free]
      [Blk.pwr, Blk.hq, Blk.car, Blk.saf, Blk.rec] []) ∧
  (∀ (c e : Nat) (active : Bool) (s : State), Runs (.terminalSlowdownInput c e active) s fun t => t.keeps s [.nv, .hq, .pwr, .pos, .saf, .car, .acq, .out, .free]
      [Blk.pwr, Blk.hq, Blk.car, Blk.pos, Blk.saf, Blk.rec] []) ∧
  (∀ (q : Nat) (s : State), Runs (.stopCar q) s fun t => t.keeps s [.nv, .hq, .pwr, .saf, .car, .acq, .out, .free]
      [Blk.pwr, Blk.hq, Blk.car, Blk.saf, Blk.rec] []) ∧
  (∀ (q : Nat) (s : State), Runs (.correctionRun q) s fun t => t.keeps s [.nv, .hq, .pwr, .saf, .car, .acq, .out, .free]
      [Blk.pwr, Blk.hq, Blk.car, Blk.saf, Blk.rec] []) ∧
  (∀ (sess key c : Nat) (motorOk tapeOk : Bool) (s : State), Runs (.clearFault sess key c motorOk tapeOk) s fun t => t.keeps s [.pos]
      [] [R.POS_STATUS_MOTOR_FAULT c]) ∧
  (∀ (d : Nat) (data : List Byte) (s : State), Runs (.doorStatusFrame d data) s fun t => t.keeps s [.nv, .hq, .pwr, .mbc, .door, .acq, .out]
      [Blk.pwr, Blk.hq, Blk.door, Blk.mbc, Blk.rec] []) ∧
  (∀ (d : Nat) (s : State), Runs (.doorDriveLost d) s fun t => t.keeps s [.nv, .hq, .pwr, .door, .acq, .out]
      [Blk.hq, Blk.rec]
      [R.PWR_GLIDE_STATUS, R.DOOR_STATUS_STATE d, R.DOOR_DRIVE_STATUS_LOST d, R.DOOR_EVENT_STATUS_DRIVE_LOST d, R.DOOR_LAST_STOP_CAUSE d]) ∧
  (∀ (d : Nat) (s : State), Runs (.obstructionResume d) s fun t => t.keeps s [.door]
      [] [R.PWR_GLIDE_STATUS, R.DOOR_STATUS_STATE d]) ∧
  (∀ (d : Nat) (s : State), Runs (.doorDwellExpiry d) s fun t => t.keeps s [.nv, .hq, .door, .acq]
      [Blk.pwr, Blk.hq, Blk.door, Blk.rec] []) ∧
  (∀ (d : Nat) (s : State), Runs (.lockTimeout d) s fun t => t.keeps s [.nv, .hq, .pwr, .door, .acq, .out]
      [Blk.hq, Blk.rec]
      [R.PWR_GLIDE_STATUS, R.DOOR_STATUS_STATE d, R.DOOR_EVENT_STATUS_DRIVE_LOST d, R.DOOR_LAST_STOP_CAUSE d]) ∧
  (∀ (d : Nat) (s : State), Runs (.referencingTimeout d) s fun t => t.keeps s [.hq, .pwr, .door, .out]
      [] [R.PWR_GLIDE_STATUS, R.DOOR_STATUS_STATE d, R.DOOR_LAST_STOP_CAUSE d]) ∧
  (∀ (d : Nat) (s : State), Runs (.nudgeTimeExpiry d) s fun t => t.keeps s [.nv, .hq, .door, .acq]
      [Blk.pwr, Blk.hq, Blk.door, Blk.rec] []) ∧
  (∀ (d : Nat) (top active : Bool) (s : State), Runs (.doorLimitInput d top active) s fun t => t.keeps s [.nv, .hq, .pwr, .door, .acq, .out]
      [Blk.pwr, Blk.hq, Blk.door, Blk.rec] []) ∧
  (∀ (q : Nat) (s : State), Runs (.doorOpen q) s fun t => t.keeps s [.hq, .pwr, .door, .out]
      [Blk.pwr, Blk.door] []) ∧
  (∀ (q : Nat) (s : State), Runs (.doorClose q) s fun t => t.keeps s [.nv, .hq, .pwr, .door, .acq, .out]
      [Blk.pwr, Blk.hq, Blk.door, Blk.rec] []) ∧
  (∀ (q : Nat) (s : State), Runs (.doorStop q) s fun t => t.keeps s [.nv, .hq, .pwr, .door, .acq, .out]
      [Blk.pwr, Blk.hq, Blk.door, Blk.rec] []) ∧
  (∀ (q : Nat) (s : State), Runs (.doorReference q) s fun t => t.keeps s [.hq, .pwr, .door, .out]
      [Blk.pwr, Blk.door] []) ∧
  (∀ (q : Nat) (s : State), Runs (.doorHoldOpen q) s fun t => t.keeps s [.hq, .pwr, .loop, .door, .out]
      [Blk.loop] []) ∧
  (∀ (sess key d : Nat) (s : State), Runs (.clearEnvelope sess key d) s fun t => t.keeps s [.door]
      [] [R.DOOR_STATUS_ENVELOPE_MOVES d])

/-- Frames: what each of these rows leaves unchanged, whatever the state and the operands: the waiting commands, every
register but those of the blocks and those of the fields listed, and every part of the state that is not listed
(`State.keeps`). -/
def Obligations.SafetyFrames : Prop :=
  (∀ (i : Nat) (high : Bool) (s : State), Runs (.safetyInputChange i high) s fun t => t.keeps s [.nv, .hq, .pwr, .saf, .mbc, .ser, .car, .door, .grp, .acq, .out, .free]
      [Blk.pwr, Blk.hq, Blk.grp, Blk.car, Blk.door, Blk.saf, Blk.mbc, Blk.rec] []) ∧
  (∀ (src : Nat) (high : List Nat) (s : State), Runs (.testPulse src high) s fun t => t.keeps s [.nv, .hq, .pwr, .saf, .mbc, .ser, .car, .door, .grp, .acq, .out, .free]
      [Blk.pwr, Blk.hq, Blk.grp, Blk.car, Blk.door, Blk.saf, Blk.mbc, Blk.rec] []) ∧
  (∀ (n : Nat) (s : State), Runs (.inputDiscrepancyTimeout n) s fun t => t.keeps s [.nv, .hq, .pwr, .saf, .mbc, .ser, .car, .door, .grp, .acq, .out, .free]
      [Blk.pwr, Blk.hq, Blk.grp, Blk.car, Blk.door, Blk.saf, Blk.mbc, Blk.rec] []) ∧
  (∀ (n : Nat) (s : State), Runs (.runRequestToggle n) s fun t => t.keeps s [.nv, .hq, .pwr, .saf, .mbc, .ser, .car, .door, .grp, .acq, .out, .free]
      [Blk.pwr, Blk.hq, Blk.grp, Blk.car, Blk.door, Blk.saf, Blk.mbc, Blk.rec] []) ∧
  (∀ (n : Nat) (s : State), Runs (.runRequestLost n) s fun t => t.keeps s [.nv, .hq, .pwr, .saf, .mbc, .ser, .car, .door, .grp, .acq, .out, .free]
      [Blk.pwr, Blk.hq, Blk.grp, Blk.car, Blk.door, Blk.saf, Blk.mbc, Blk.rec] []) ∧
  (∀ (n : Nat) (s : State), Runs (.edmTimeout n) s fun t => t.keeps s [.nv, .hq, .pwr, .pos, .saf, .mbc, .ser, .car, .door, .grp, .acq, .out, .free]
      [Blk.pwr, Blk.hq, Blk.grp, Blk.car, Blk.door, Blk.saf, Blk.mbc, Blk.rec] []) ∧
  (∀ (n : Nat) (engaged : Bool) (s : State), Runs (.edmChange n engaged) s fun t => t.keeps s [.nv, .hq, .pwr, .pos, .saf, .mbc, .ser, .car, .door, .grp, .acq, .out, .free]
      [Blk.pwr, Blk.hq, Blk.grp, Blk.car, Blk.door, Blk.saf, Blk.mbc, Blk.rec] []) ∧
  (∀ (tech n : Nat) (ok : Bool) (s : State), Runs (.switchTest tech n ok) s fun t => t.keeps s [.nv, .hq, .pwr, .pos, .saf, .mbc, .ser, .car, .door, .grp, .acq, .out, .free]
      [Blk.pwr, Blk.hq, Blk.grp, Blk.car, Blk.door, Blk.saf, Blk.mbc, Blk.rec] []) ∧
  (∀ (tech : Nat) (ok : Bool) (s : State), Runs (.techSelftest tech ok) s fun t => t.keeps s [.nv, .hq, .pwr, .pos, .saf, .mbc, .ser, .car, .door, .grp, .acq, .out, .free]
      [Blk.pwr, Blk.hq, Blk.grp, Blk.car, Blk.door, Blk.saf, Blk.mbc, Blk.rec] []) ∧
  (∀ (tech : Nat) (s : State), Runs (.techHeartbeatLoss tech) s fun t => t.keeps s [.nv, .hq, .pwr, .pos, .saf, .mbc, .ser, .car, .door, .grp, .acq, .out, .free]
      [Blk.pwr, Blk.hq, Blk.grp, Blk.car, Blk.door, Blk.saf, Blk.mbc, Blk.rec] []) ∧
  (∀ (outs : List Nat) (s : State), Runs (.permitMismatch outs) s fun t => t.keeps s [.nv, .hq, .pwr, .saf, .mbc, .ser, .car, .door, .grp, .acq, .out, .free]
      [Blk.pwr, Blk.hq, Blk.grp, Blk.car, Blk.door, Blk.saf, Blk.mbc, Blk.rec] []) ∧
  (∀ (finding : Nat) (s : State), Runs (.mismatchDiagnosticDone finding) s fun t => t.keeps s [.nv, .hq, .pwr, .pos, .saf, .mbc, .ser, .car, .door, .grp, .acq, .out, .free]
      [Blk.pwr, Blk.hq, Blk.grp, Blk.car, Blk.door, Blk.saf, Blk.mbc, Blk.rec] []) ∧
  (∀ (c : Nat) (mps : Rat) (s : State), Runs (.speedLimitExceeded c mps) s fun t => t.keeps s [.nv, .hq, .pwr, .saf, .mbc, .ser, .car, .door, .grp, .acq, .out, .free]
      [Blk.pwr, Blk.hq, Blk.grp, Blk.car, Blk.door, Blk.saf, Blk.mbc, Blk.rec] []) ∧
  (∀ (c : Nat) (tape enc : Bool) (s : State), Runs (.positionSourceFault c tape enc) s fun t => t.keeps s [.nv, .hq, .pwr, .pos, .saf, .mbc, .ser, .car, .door, .grp, .acq, .out, .free]
      [Blk.pwr, Blk.hq, Blk.grp, Blk.car, Blk.door, Blk.saf, Blk.mbc, Blk.rec] []) ∧
  (∀ (c : Nat) (moved : Rat) (s : State), Runs (.unintendedMovement c moved) s fun t => t.keeps s [.nv, .hq, .pwr, .saf, .mbc, .ser, .car, .door, .grp, .acq, .out, .free]
      [Blk.pwr, Blk.hq, Blk.grp, Blk.car, Blk.door, Blk.saf, Blk.mbc, Blk.rec] []) ∧
  (∀ (c : Nat) (s : State), Runs (.snowploughTimeout c) s fun t => t.keeps s [.nv, .hq, .pwr, .saf, .mbc, .ser, .car, .door, .grp, .acq, .out, .free]
      [Blk.pwr, Blk.hq, Blk.grp, Blk.car, Blk.door, Blk.saf, Blk.mbc, Blk.rec] []) ∧
  (∀ (sess key : Nat) (s : State), Runs (.safetyConfirm sess key) s fun t => t.keeps s [.nv, .hq, .pwr, .saf, .mbc, .ser, .car, .door, .grp, .acq, .out, .free]
      [Blk.pwr, Blk.man, Blk.hq, Blk.grp, Blk.car, Blk.door, Blk.saf, Blk.mbc, Blk.rec] []) ∧
  (∀ (s : State), Runs (.confirmLockoutExpiry) s fun t => t.keeps s [.saf]
      [] [R.SAF_CONFIRM_STATUS_FAILS, R.SAF_STATUS_CONFIRM_LOCKOUT]) ∧
  (∀ (sess key fn : Nat) (s : State), Runs (.resetFunction sess key fn) s fun t => t.keeps s [.nv, .hq, .pwr, .saf, .mbc, .ser, .car, .door, .grp, .acq, .out, .free]
      [Blk.pwr, Blk.hq, Blk.grp, Blk.car, Blk.door, Blk.saf, Blk.mbc, Blk.rec] []) ∧
  (∀ (sess key c : Nat) (srcOk edmOk : Bool) (s : State), Runs (.repairAck sess key c srcOk edmOk) s fun t => t.keeps s [.nv, .hq, .pwr, .saf, .mbc, .ser, .car, .door, .grp, .acq, .out, .free]
      [Blk.pwr, Blk.hq, Blk.grp, Blk.car, Blk.door, Blk.saf, Blk.mbc, Blk.rec] []) ∧
  (∀ (slot : Nat) (data : List Byte) (s : State), Runs (.safetyDataFrame slot data) s fun t => t.keeps s [.nv, .hq, .pwr, .xng, .saf, .mbc, .car, .acq, .out, .free]
      [Blk.pwr, Blk.hq, Blk.xng, Blk.car, Blk.saf, Blk.mbc, Blk.net, Blk.rec] []) ∧
  (∀ (slot : Nat) (data : List Byte) (s : State), Runs (.safetyEchoFrame slot data) s fun t => t.keeps s [.nv, .hq, .pwr, .saf, .car, .acq, .out, .free]
      [Blk.pwr, Blk.hq, Blk.car, Blk.saf, Blk.net, Blk.rec] []) ∧
  (∀ (slot : Nat) (s : State), Runs (.safetyProductionPeriod slot) s fun t => t.keeps s [.hq, .xng, .saf, .mbc, .acq, .out, .free]
      [Blk.hq, Blk.xng, Blk.mbc, Blk.net] []) ∧
  (∀ (slot : Nat) (s : State), Runs (.consumerWatchdogExpiry slot) s fun t => t.keeps s [.nv, .hq, .pwr, .saf, .car, .acq, .out, .free]
      [Blk.pwr, Blk.hq, Blk.car, Blk.saf, Blk.rec] []) ∧
  (∀ (slot : Nat) (s : State), Runs (.echoLateTimeout slot) s fun t => t.keeps s [.nv, .hq, .pwr, .saf, .car, .acq, .out, .free]
      [Blk.pwr, Blk.hq, Blk.car, Blk.saf, Blk.rec] []) ∧
  (∀ (slot : Nat) (s : State), Runs (.failSafeHoldExpiry slot) s fun t => t.keeps s [.nv, .hq, .pwr, .saf, .car, .acq, .out, .free]
      [Blk.pwr, Blk.hq, Blk.car, Blk.saf, Blk.rec] []) ∧
  (∀ (q : Nat) (s : State), Runs (.connectionRead q) s fun t => t.keeps s [.hq, .pwr, .out]
      [] []) ∧
  (∀ (n : Nat) (engaged : Bool) (ms : Nat) (s : State), Runs (.edmResponse n engaged ms) s fun t => t.keeps s [.nv, .hq, .pwr, .saf, .mbc, .ser, .car, .door, .grp, .acq, .out, .free]
      [Blk.pwr, Blk.hq, Blk.grp, Blk.car, Blk.door, Blk.pos, Blk.saf, Blk.mbc, Blk.rec] []) ∧
  (∀ (tech : Nat) (s : State), Runs (.oscillatorOrSupplyMonitorTrip tech) s fun t => t.keeps s [.nv, .hq, .pwr, .pos, .saf, .mbc, .ser, .car, .door, .grp, .acq, .out, .free]
      [Blk.pwr, Blk.hq, Blk.grp, Blk.car, Blk.door, Blk.saf, Blk.mbc, Blk.rec] [])

/-- Frames: what each of these rows leaves unchanged, whatever the state and the operands: the waiting commands, every
register but those of the blocks and those of the fields listed, and every part of the state that is not listed
(`State.keeps`). -/
def Obligations.FieldBusSerialAndNetworkFrames : Prop :=
  (∀ (raw : Nat) (lplus sums outMa : List Nat) (inCur : List (Nat × Nat)) (s : State), Runs (.fieldLinkFrame raw lplus sums outMa inCur) s fun t => t.keeps s [.fio]
      []
      [R.FIO_IN_RAW_HI, R.FIO_IN_RAW_LO, R.FIO_LPLUS 0, R.FIO_LPLUS 1, R.FIO_LPLUS 2, R.FIO_LPLUS 3, R.FIO_GROUP_CURRENT 0, R.FIO_GROUP_CURRENT 1, R.FIO_GROUP_CURRENT 2, R.FIO_GROUP_CURRENT 3]) ∧
  (∀ (s : State), Runs (.fieldLinkLost) s fun t => t.keeps s [.nv, .hq, .pwr, .door, .fio, .acq, .out]
      [Blk.pwr, Blk.hq, Blk.door, Blk.fio, Blk.rec] []) ∧
  (∀ (s : State), Runs (.fieldLinkResume) s fun t => t.keeps s [.hq, .pwr, .door, .fio, .out]
      [Blk.pwr, Blk.door, Blk.fio] []) ∧
  (∀ (i : Nat) (high : Bool) (s : State), Runs (.fieldInputChange i high) s fun t => t.keeps s [.nv, .hq, .pwr, .door, .fio, .acq, .out]
      [Blk.pwr, Blk.hq, Blk.door, Blk.fio, Blk.rec] []) ∧
  (∀ (i : Nat) (s : State), Runs (.wireBreak i) s fun t => t.keeps s [.nv, .hq, .pwr, .door, .acq, .out]
      [Blk.pwr, Blk.hq, Blk.door, Blk.fio, Blk.rec] []) ∧
  (∀ (i : Nat) (s : State), Runs (.wireRestored i) s fun t => t.keeps s [.nv, .hq, .pwr, .door, .acq, .out]
      [Blk.pwr, Blk.hq, Blk.door, Blk.fio, Blk.rec] []) ∧
  (∀ (k : Nat) (s : State), Runs (.lplusLow k) s fun t => t.keeps s [.nv, .hq, .fio, .acq]
      [Blk.hq, Blk.rec] [R.FIO_EVENT_STATUS_LINK_LOST, R.FIO_FIELD_STATUS_LINK_LOST, R.FIO_OUT_STATE]) ∧
  (∀ (k : Nat) (s : State), Runs (.lplusRestored k) s fun t => t.keeps s [.fio]
      [] [R.FIO_FIELD_STATUS_LINK_LOST, R.FIO_OUT_STATE]) ∧
  (∀ (n : Nat) (s : State), Runs (.outputShort n) s fun t => t.keeps s [.nv, .hq, .fio, .acq]
      [Blk.hq, Blk.rec]
      [R.FIO_EVENT_STATUS_OUTPUT_FAULT, R.FIO_OUT_FAULT, R.FIO_OUT_FAULT_LATCH, R.FIO_OUT_STATE, R.FIO_OUT_TRIPS]) ∧
  (∀ (n : Nat) (s : State), Runs (.outputOverload n) s fun t => t.keeps s [.nv, .hq, .fio, .acq]
      [Blk.hq, Blk.rec]
      [R.FIO_EVENT_STATUS_OUTPUT_FAULT, R.FIO_OUT_FAULT, R.FIO_OUT_FAULT_LATCH, R.FIO_OUT_STATE, R.FIO_OUT_TRIPS]) ∧
  (∀ (n : Nat) (s : State), Runs (.outputThermal n) s fun t => t.keeps s [.nv, .hq, .fio, .acq]
      [Blk.hq, Blk.rec]
      [R.FIO_EVENT_STATUS_OUTPUT_FAULT, R.FIO_OUT_FAULT, R.FIO_OUT_FAULT_LATCH, R.FIO_OUT_STATE, R.FIO_OUT_TRIPS]) ∧
  (∀ (n : Nat) (s : State), Runs (.outputRetry n) s fun t => t.keeps s [.nv, .hq, .fio, .acq]
      [Blk.hq, Blk.rec] [R.FIO_EVENT_STATUS_OUTPUT_FAULT, R.FIO_OUT_FAULT, R.FIO_OUT_FAULT_LATCH, R.FIO_OUT_STATE]) ∧
  (∀ (k ma : Nat) (s : State), Runs (.groupOverload k ma) s fun t => t.keeps s [.nv, .hq, .fio, .acq]
      [Blk.hq, Blk.rec]
      [R.FIO_EVENT_STATUS_OUTPUT_FAULT, R.FIO_OUT_FAULT, R.FIO_OUT_FAULT_LATCH, R.FIO_OUT_STATE, R.FIO_OUT_TRIPS, R.FIO_GROUP_CURRENT k]) ∧
  (∀ (n : Nat) (j : Rat) (s : State), Runs (.demagComplete n j) s fun t => t.keeps s [.nv, .hq, .fio, .acq]
      [Blk.hq, Blk.rec]
      [R.FIO_EVENT_STATUS_OUTPUT_FAULT, R.FIO_OUT_FAULT, R.FIO_OUT_FAULT_LATCH, R.FIO_OUT_STATE, R.FIO_OUT_TRIPS, R.FIO_DEMAG_HOLD]) ∧
  (∀ (n : Nat) (s : State), Runs (.demagHoldEnd n) s fun t => t.keeps s [.fio]
      [] [R.FIO_DEMAG_HOLD, R.FIO_OUT_STATE]) ∧
  (∀ (n : Nat) (s : State), Runs (.openLoad n) s fun t => t.keeps s [.nv, .hq, .acq]
      [Blk.hq, Blk.rec] [R.FIO_EVENT_STATUS_OPEN_LOAD, R.FIO_OUT_OPEN_LOAD]) ∧
  (∀ (n : Nat) (s : State), Runs (.outputSilenceTimeout n) s fun t => t.keeps s [.fio]
      [] [R.FIO_OUT_SILENT, R.FIO_OUT_STATE, R.FIO_SILENCES]) ∧
  (∀ (s : State), Runs (.firmwareOutputRefresh) s fun t => t.keeps s [.fio]
      [] [R.FIO_OUT_COMMAND, R.FIO_OUT_SILENT, R.FIO_OUT_STATE]) ∧
  (∀ (sess mask : Nat) (s : State), Runs (.fioOutSetWrite sess mask) s fun t => t.keeps s [.fio]
      [] [R.FIO_OUT_COMMAND, R.FIO_OUT_SILENT, R.FIO_OUT_STATE]) ∧
  (∀ (sess mask : Nat) (s : State), Runs (.fioOutClearWrite sess mask) s fun t => t.keeps s [.fio]
      [] [R.FIO_OUT_COMMAND, R.FIO_OUT_SILENT, R.FIO_OUT_STATE]) ∧
  (∀ (sess mask : Nat) (s : State), Runs (.outputLatchClear sess mask) s fun t => t.keeps s [.fio]
      [] [R.FIO_OUT_FAULT, R.FIO_OUT_FAULT_LATCH, R.FIO_OUT_STATE]) ∧
  (∀ (q : Nat) (s : State), Runs (.outputReset q) s fun t => t.keeps s [.hq, .pwr, .fio, .out]
      [] [R.FIO_OUT_FAULT, R.FIO_OUT_FAULT_LATCH, R.FIO_OUT_STATE]) ∧
  (∀ (b id fmt flags : Nat) (data : List Byte) (stamp : Nat) (s : State), Runs (.canFrameReceived b id fmt flags data stamp) s fun t => t.keeps s [.nv, .hq, .pwr, .xng, .saf, .mbc, .ser, .car, .door, .grp, .acq, .out, .free]
      [Blk.pwr, Blk.hq, Blk.xng, Blk.grp, Blk.car, Blk.door, Blk.saf, Blk.mbc, Blk.net, Blk.rec] []) ∧
  (∀ (b outcome lat tdc : Nat) (s : State), Runs (.canFrameSent b outcome lat tdc) s fun t => t.keeps s [.nv, .hq, .pwr, .mbc, .acq, .out]
      [Blk.hq, Blk.rec]
      [R.MBC_ARB_LOST b, R.MBC_CYCLIC_LATENCY_MAX b, R.MBC_EVENT_STATUS_ERROR_PASSIVE b, R.MBC_STATUS_STATE b, R.MBC_TDC b, R.MBC_TX_FRAMES b, R.MBC_TX_PENDING b, R.MBC_ERROR_COUNTERS b, R.MBC_SLEEP_STATUS b]) ∧
  (∀ (sess b seq : Nat) (s : State), Runs (.mbcRxAckWrite sess b seq) s fun t => t.keeps s [.mbc]
      [] [R.MBC_RX_DEPTH b]) ∧
  (∀ (q : Nat) (s : State), Runs (.canTx q) s fun t => t.keeps s [.hq, .pwr, .mbc, .acq, .out]
      [Blk.hq]
      [R.MBC_TX_PENDING 11, R.MBC_TX_SUPERSEDED 11, R.MBC_SLEEP_STATUS 11, R.MBC_EVENT_STATUS_SLEEP_CHANGE 11]) ∧
  (∀ (q : Nat) (s : State), Runs (.canTxCancel q) s fun t => t.keeps s [.hq, .pwr, .mbc, .out]
      [] [R.MBC_TX_PENDING 11, R.MBC_TX_CANCELLED 11]) ∧
  (∀ (q : Nat) (s : State), Runs (.busSleep q) s fun t => t.keeps s [.hq, .pwr, .mbc, .acq, .out]
      [Blk.hq, Blk.mbc] []) ∧
  (∀ (b : Nat) (s : State), Runs (.busSleepCommitTimer b) s fun t => t.keeps s [.hq, .mbc, .acq]
      [Blk.hq] [R.MBC_TX_PENDING b, R.MBC_TX_SUPERSEDED b, R.MBC_SLEEP_STATUS b, R.MBC_EVENT_STATUS_SLEEP_CHANGE b]) ∧
  (∀ (b id : Nat) (s : State), Runs (.sleepObjection b id) s fun t => t.keeps s [.hq, .pwr, .mbc, .acq, .out]
      [Blk.hq]
      [R.MBC_TX_PENDING b, R.MBC_TX_SUPERSEDED b, R.MBC_SLEEP_STATUS b, R.MBC_EVENT_STATUS_SLEEP_CHANGE b, R.PWR_WAKE_LATCH, R.PWR_STATE_STATE, R.PWR_EVENT_STATUS_BERTH_RESULT]) ∧
  (∀ (b : Nat) (s : State), Runs (.canWakePattern b) s fun t => t.keeps s [.hq, .pwr, .mbc, .acq, .out]
      [Blk.hq]
      [R.MBC_TX_PENDING b, R.MBC_TX_SUPERSEDED b, R.MBC_SLEEP_STATUS b, R.MBC_EVENT_STATUS_SLEEP_CHANGE b, R.MBC_WAKEUPS b, R.PWR_WAKE_LATCH, R.PWR_STATE_STATE, R.PWR_EVENT_STATUS_BERTH_RESULT]) ∧
  (∀ (q : Nat) (s : State), Runs (.busWake q) s fun t => t.keeps s [.hq, .pwr, .mbc, .acq, .out]
      [Blk.hq, Blk.mbc] []) ∧
  (∀ (q : Nat) (s : State), Runs (.busRecover q) s fun t => t.keeps s [.hq, .pwr, .mbc, .out]
      [Blk.mbc] []) ∧
  (∀ (b : Nat) (s : State), Runs (.busOff b) s fun t => t.keeps s [.nv, .hq, .pwr, .mbc, .acq, .out]
      [Blk.hq, Blk.rec] [R.MBC_BUS_OFFS b, R.MBC_EVENT_STATUS_BUS_OFF b, R.MBC_STATUS_STATE b, R.MBC_TX_PENDING b]) ∧
  (∀ (b : Nat) (s : State), Runs (.busOffRecovered b) s fun t => t.keeps s [.nv, .hq, .pwr, .mbc, .acq, .out]
      [Blk.hq, Blk.rec] [R.MBC_EVENT_STATUS_RECOVERED b, R.MBC_STATUS_STATE b, R.MBC_ERROR_COUNTERS b]) ∧
  (∀ (sess key b : Nat) (s : State), Runs (.restrict sess key b) s fun t => t.keeps s []
      [] [R.MBC_STATUS_STATE b]) ∧
  (∀ (sess key b : Nat) (s : State), Runs (.unrestrict sess key b) s fun t => t.keeps s [.nv, .hq, .acq]
      [Blk.hq, Blk.rec] [R.MBC_STATUS_STATE b, R.MBC_EVENT_STATUS_ERROR_PASSIVE b]) ∧
  (∀ (sess key b : Nat) (s : State), Runs (.inhibitRecovery sess key b) s fun t => t.keeps s []
      [] [R.MBC_STATUS_STATE b]) ∧
  (∀ (sess key b : Nat) (s : State), Runs (.allowRecovery sess key b) s fun t => t.keeps s []
      [] [R.MBC_STATUS_STATE b]) ∧
  (∀ (b k seq status gen : Nat) (s : State), Runs (.standingAck b k seq status gen) s fun t => t.keeps s [.mbc]
      [] [R.MBC_STANDING_ACKED b]) ∧
  (∀ (b k : Nat) (s : State), Runs (.standingRetry b k) s fun t => t.keeps s [.nv, .hq, .mbc, .acq]
      [Blk.hq, Blk.rec]
      [R.MBC_TX_PENDING b, R.MBC_TX_SUPERSEDED b, R.MBC_SLEEP_STATUS b, R.MBC_EVENT_STATUS_SLEEP_CHANGE b]) ∧
  (∀ (b : Nat) (s : State), Runs (.referenceMessageTimer b) s fun t => t.keeps s [.hq, .mbc, .acq]
      [Blk.hq]
      [R.MBC_TX_PENDING b, R.MBC_TX_SUPERSEDED b, R.MBC_SLEEP_STATUS b, R.MBC_EVENT_STATUS_SLEEP_CHANGE b, R.MBC_REF_CYCLES b]) ∧
  (∀ (l : Nat) (bad : Bool) (s : State), Runs (.serialPoll l bad) s fun t => t.keeps s [.nv, .hq, .ser, .acq, .out]
      [Blk.hq, Blk.rec]
      [R.SER_CONTENTIONS l, R.SER_EVENT_STATUS_LINE_FAULT l, R.SER_POLL_CYCLE l, R.SER_POLL_CYCLE_MAX l, R.SER_STATUS l]) ∧
  (∀ (l : Nat) (data : List Byte) (framing : Bool) (s : State), Runs (.serialReply l data framing) s fun t => t.keeps s [.nv, .hq, .pwr, .mbc, .ser, .door, .grp, .acq, .out]
      [Blk.pwr, Blk.hq, Blk.grp, Blk.door, Blk.mbc, Blk.ser, Blk.rec] []) ∧
  (∀ (l : Nat) (s : State), Runs (.serialPollTimeout l) s fun t => t.keeps s [.ser]
      [] [R.SER_TIMEOUTS l]) ∧
  (∀ (s : State), Runs (.prpSupervision) s fun t => t.keeps s [.net, .out]
      [] [R.NET_PORT_TX_FRAMES 0, R.NET_PORT_TX_FRAMES 1]) ∧
  (∀ (lan : Nat) (s : State), Runs (.prpLanTimeout lan) s fun t => t.keeps s [.nv, .hq, .acq]
      [Blk.hq, Blk.rec] [R.NET_EVENT_STATUS_PRP_LAN_FAULT, R.NET_PRP_STATUS]) ∧
  (∀ (p : Nat) (offset delay : Int) (s : State), Runs (.ptpSyncReceived p offset delay) s fun t => t.keeps s [.nv, .hq, .pwr, .disp, .acq]
      [Blk.pwr, Blk.hq, Blk.plt, Blk.net, Blk.rec] []) ∧
  (∀ (time : Nat) (s : State), Runs (.plantTimeLock time) s fun t => t.keeps s [.nv, .hq, .pwr, .disp, .acq]
      [Blk.pwr, Blk.hq, Blk.plt, Blk.net, Blk.rec] []) ∧
  (∀ (s : State), Runs (.plantTimeHoldover) s fun t => t.keeps s [.nv, .hq, .acq]
      [Blk.hq, Blk.rec]
      [R.NET_EVENT_STATUS_PTP_STATE, R.NET_PTP_LOCK_LOSSES, R.NET_PTP_PORT_STATES, R.NET_PTP_STATUS_STATE, R.PWR_PLANT_TIME_STATUS_STATE]) ∧
  (∀ (p : Nat) (s : State), Runs (.ptpSyncSend p) s fun t => t.keeps s [.net, .out]
      [] [R.NET_PORT_TX_FRAMES p]) ∧
  (∀ (p who seq : Nat) (s : State), Runs (.ptpDelayReq p who seq) s fun t => t.keeps s [.out]
      [] [R.NET_PORT_RX_FRAMES p, R.NET_PORT_TX_FRAMES p, R.NET_PRP_STATUS, R.NET_PTP_DELAY_REQ_RX]) ∧
  (∀ (p client : Nat) (pdu : List Byte) (s : State), Runs (.modbusRequest p client pdu) s fun t => t.keeps s [.out]
      [Blk.est, Blk.plt, Blk.net] []) ∧
  (∀ (p client : Nat) (pdu : List Byte) (s : State), Runs (.modbusWrite p client pdu) s fun t => t.keeps s [.nv, .hq, .disp, .acq, .out]
      [Blk.hq, Blk.rec]
      [R.NET_EVENT_STATUS_MODBUS_WRITE, R.NET_MODBUS_EXCEPTIONS, R.NET_MODBUS_REQUESTS, R.NET_PORT_RX_FRAMES p, R.NET_PORT_TX_FRAMES p, R.NET_PRP_STATUS, R.PLT_HOST_EXPORT_MAX, R.PLT_HOST_IMPORT_MAX]) ∧
  (∀ (p speed : Nat) (sfp sfpFault : Bool) (s : State), Runs (.ethLinkChange p speed sfp sfpFault) s fun t => t.keeps s [.nv, .hq, .acq]
      [Blk.hq, Blk.rec] [R.NET_EVENT_STATUS_LINK_CHANGE, R.NET_STATUS, R.NET_PORT_STATUS p]) ∧
  (∀ (p : Nat) (s : State), Runs (.addressConflict p) s fun t => t.keeps s [.nv, .hq, .acq]
      [Blk.hq, Blk.rec]
      [R.NET_ARP_CONFLICTS, R.NET_EVENT_STATUS_ADDRESS_CONFLICT, R.NET_PORT_RX_FRAMES p, R.NET_PRP_STATUS]) ∧
  (∀ (p : Nat) (s : State), Runs (.unservedFrame p) s fun t => t.keeps s []
      [] [R.NET_DROPPED_UNSERVED, R.NET_PORT_RX_FRAMES p, R.NET_PRP_STATUS]) ∧
  (∀ (b kind : Nat) (data tx major : Bool) (s : State), Runs (.canErrorDetected b kind data tx major) s fun t => t.keeps s [.nv, .hq, .pwr, .mbc, .acq, .out]
      [Blk.hq, Blk.rec]
      [R.MBC_RESTRICTED_ERRORS b, R.MBC_ERRORS b, R.MBC_LAST_ERROR b, R.MBC_ERROR_COUNTERS b, R.MBC_TX_PENDING b, R.MBC_BUS_OFFS b, R.MBC_STATUS_STATE b, R.MBC_EVENT_STATUS_BUS_OFF b]) ∧
  (∀ (p domain prio1 cls acc var prio2 ident steps : Nat) (s : State), Runs (.ptpAnnounceReceived p domain prio1 cls acc var prio2 ident steps) s fun t => t.keeps s [.net]
      []
      [R.NET_PTP_STATUS_PARENT_PORT, R.NET_PTP_GM_ID_LO, { R.NET_PTP_GM_ID_LO with addr := R.NET_PTP_GM_ID_LO.addr + 4 }, R.NET_PTP_GM_QUALITY, R.NET_PORT_RX_FRAMES p, R.NET_PRP_STATUS, R.NET_PTP_ANNOUNCE_RX, R.NET_PTP_PORT_STATES]) ∧
  (∀ (p : Nat) (opens : Bool) (s : State), Runs (.modbusConnection p opens) s fun t => t.keeps s [.out]
      [] [R.NET_MODBUS_STATUS])

/-- Frames: what each of these rows leaves unchanged, whatever the state and the operands: the waiting commands, every
register but those of the blocks and those of the fields listed, and every part of the state that is not listed
(`State.keeps`). -/
def Obligations.AcquisitionFrames : Prop :=
  (∀ (b : Nat) (codes : List Word) (stamp : Nat) (s : State), Runs (.acqSample b codes stamp) s fun t => t.keeps s [.nv, .hq, .acq, .free]
      [Blk.pwr, Blk.hq, Blk.acq, Blk.rec] []) ∧
  (∀ (b : Nat) (s : State), Runs (.acqAutoTimeout b) s fun t => t.keeps s [.acq]
      []
      [R.PWR_GLIDE_STATUS, R.ACQ_ARMED_LO, { R.ACQ_ARMED_LO with addr := R.ACQ_ARMED_LO.addr + 4 }, R.ACQ_COMPLETE_LO, { R.ACQ_COMPLETE_LO with addr := R.ACQ_COMPLETE_LO.addr + 4 }, R.ACQ_POOL_STATUS, R.ACQ_RATE_STATUS]) ∧
  (∀ (seq : Nat) (s : State), Runs (.acqMeasureDone seq) s fun t => t.keeps s [.nv, .hq, .acq]
      [Blk.hq, Blk.rec] [R.ACQ_EVENT_STATUS_COMPLETE]) ∧
  (∀ (q : Nat) (s : State), Runs (.arm q) s fun t => t.keeps s [.hq, .pwr, .acq, .out]
      []
      [R.PWR_GLIDE_STATUS, R.ACQ_ARMED_LO, { R.ACQ_ARMED_LO with addr := R.ACQ_ARMED_LO.addr + 4 }, R.ACQ_COMPLETE_LO, { R.ACQ_COMPLETE_LO with addr := R.ACQ_COMPLETE_LO.addr + 4 }, R.ACQ_POOL_STATUS, R.ACQ_RATE_STATUS]) ∧
  (∀ (q : Nat) (s : State), Runs (.disarm q) s fun t => t.keeps s [.nv, .hq, .pwr, .acq, .out]
      [Blk.hq, Blk.rec]
      [R.PWR_GLIDE_STATUS, R.ACQ_ARMED_LO, { R.ACQ_ARMED_LO with addr := R.ACQ_ARMED_LO.addr + 4 }, R.ACQ_COMPLETE_LO, { R.ACQ_COMPLETE_LO with addr := R.ACQ_COMPLETE_LO.addr + 4 }, R.ACQ_POOL_STATUS, R.ACQ_RATE_STATUS, R.ACQ_ABORTS, R.ACQ_EVENT_STATUS_ABORTED]) ∧
  (∀ (q : Nat) (s : State), Runs (.forceTrigger q) s fun t => t.keeps s [.nv, .hq, .pwr, .acq, .out]
      [Blk.pwr, Blk.hq, Blk.acq, Blk.rec] []) ∧
  (∀ (q : Nat) (s : State), Runs (.release q) s fun t => t.keeps s [.hq, .pwr, .acq, .out]
      []
      [R.PWR_GLIDE_STATUS, R.ACQ_ARMED_LO, { R.ACQ_ARMED_LO with addr := R.ACQ_ARMED_LO.addr + 4 }, R.ACQ_COMPLETE_LO, { R.ACQ_COMPLETE_LO with addr := R.ACQ_COMPLETE_LO.addr + 4 }, R.ACQ_POOL_STATUS, R.ACQ_RATE_STATUS]) ∧
  (∀ (q : Nat) (s : State), Runs (.measureRead q) s fun t => t.keeps s [.hq, .pwr, .out]
      [] [])
end

