-- ==== Sys2Proof/Laws/Table.lean ====
section
/-!
SUPPORT. Tables: what a look-up finds after a change, and that every change keeps the keys strictly rising.
-/
namespace Sys2Proof.Machine
open Sys2Proof
set_option Elab.async false

@[simp] theorem tget_nil {α : Type} (a : Nat) : tget ([] : Tbl α) a = none := rfl
@[simp] theorem tgetD_nil {α : Type} (a : Nat) (d : α) : tgetD ([] : Tbl α) a d = d := rfl

@[simp] theorem tget_tput_self {α : Type} (t : Tbl α) (a : Nat) (x : α) : tget (tput t a x) a = some x := by
  induction t with
  | nil => simp [tput, tget]
  | cons p t ih =>
    obtain ⟨k, v⟩ := p
    simp only [tput]
    split
    · simp [tget]
    · split
      · simp [tget]
      · rename_i h1 h2
        simp only [tget]
        rw [if_neg (fun h => h2 h.symm)]; exact ih

theorem tget_tput_ne {α : Type} (t : Tbl α) (a b : Nat) (x : α) (h : b ≠ a) : tget (tput t a x) b = tget t b := by
  induction t with
  | nil => simp [tput, tget, Ne.symm h]
  | cons p t ih =>
    obtain ⟨k, v⟩ := p
    simp only [tput]
    split
    · simp [tget, Ne.symm h]
    · split
      · rename_i h1 h2
        subst h2
        simp [tget, Ne.symm h]
      · simp only [tget]; split
        · rfl
        · exact ih

theorem tget_filter {α : Type} (t : Tbl α) (f : Nat × α → Bool) (b : Nat) (h : ∀ x, f (b, x) = true) :
    tget (t.filter f) b = tget t b := by
  induction t with
  | nil => rfl
  | cons p t ih =>
    obtain ⟨k, v⟩ := p
    simp only [List.filter]
    split
    · simp only [tget]; rw [ih]
    · rename_i hf
      simp only [tget]
      rw [ih, if_neg]
      rintro rfl
      simp [h] at hf
theorem tget_filter_none {α : Type} (t : Tbl α) (f : Nat × α → Bool) (b : Nat) (h : ∀ x, f (b, x) = false) :
    tget (t.filter f) b = none := by
  induction t with
  | nil => rfl
  | cons p t ih =>
    obtain ⟨k, v⟩ := p
    simp only [List.filter]
    split
    · rename_i hf
      simp only [tget]
      rw [if_neg, ih]
      rintro rfl
      simp [h] at hf
    · exact ih
theorem tget_tdel_ne {α : Type} (t : Tbl α) (a b : Nat) (h : b ≠ a) : tget (tdel t a) b = tget t b :=
  tget_filter t _ b (by simp [h])
@[simp] theorem tget_tdel_self {α : Type} (t : Tbl α) (a : Nat) : tget (tdel t a) a = none :=
  tget_filter_none t _ a (by simp)

theorem mem_tput {α : Type} (t : Tbl α) (a : Nat) (x : α) (p : Nat × α) (h : p ∈ tput t a x) : p = (a, x) ∨ p ∈ t := by
  induction t with
  | nil => simpa [tput] using h
  | cons q t ih =>
    obtain ⟨k, v⟩ := q
    simp only [tput] at h
    split at h
    · simpa using h
    · split at h
      · rename_i _ hk
        subst hk
        rcases List.mem_cons.1 h with h | h
        · exact Or.inl h
        · exact Or.inr (List.mem_cons_of_mem _ h)
      · rcases List.mem_cons.1 h with h | h
        · exact Or.inr (by rw [h]; exact List.mem_cons_self)
        · rcases ih h with h | h
          · exact Or.inl h
          · exact Or.inr (List.mem_cons_of_mem _ h)

theorem sorted_tput {α : Type} (t : Tbl α) (a : Nat) (x : α) (h : Sorted t) : Sorted (tput t a x) := by
  induction t with
  | nil => exact ⟨by simp, trivial⟩
  | cons q t ih =>
    obtain ⟨k, v⟩ := q
    simp only [tput]
    split
    · rename_i hk
      refine ⟨fun p hp => ?_, h⟩
      simp at hp
      rcases hp with rfl | hp
      · exact hk
      · exact Nat.lt_trans hk (h.1 p hp)
    · split
      · rename_i h1 h2
        subst h2; exact ⟨h.1, h.2⟩
      · rename_i h1 h2
        refine ⟨fun p hp => ?_, ih h.2⟩
        rcases mem_tput t a x p hp with rfl | hp
        · simp; omega
        · exact h.1 p hp

theorem sorted_filter {α : Type} (t : Tbl α) (f : Nat × α → Bool) (h : Sorted t) : Sorted (t.filter f) := by
  induction t with
  | nil => trivial
  | cons q t ih =>
    obtain ⟨k, v⟩ := q
    simp only [List.filter]
    split
    · exact ⟨fun p hp => h.1 p (List.mem_filter.1 hp).1, ih h.2⟩
    · exact ih h.2
theorem sorted_tdel {α : Type} (t : Tbl α) (a : Nat) (h : Sorted t) : Sorted (tdel t a) := sorted_filter t _ h

end Sys2Proof.Machine
end

