-- ==== Sys2Proof/Laws/Regs.lean ====
section
/-!
SUPPORT. The register file: reading a word or a field after a write, and the canonical form, which every write keeps
(addresses strictly rising, no word listed that equals its register's reset word).
-/
namespace Sys2Proof.Machine
open Sys2Proof
set_option Elab.async false

/-! ## The canonical form -/

theorem regsOk_nil : RegsOk [] := ⟨trivial, by simp⟩
theorem regsOk_putWord (m : Tbl Word) (a : Nat) (w : Word) (h : RegsOk m) : RegsOk (putWord m a w) := by
  unfold putWord
  split
  · exact ⟨sorted_tdel m a h.1, fun p hp => h.2 p (List.mem_filter.1 hp).1⟩
  · rename_i hw
    refine ⟨sorted_tput m a w h.1, fun p hp => ?_⟩
    rcases mem_tput m a w p hp with rfl | hp
    · exact hw
    · exact h.2 p hp
theorem regsOk_filter (m : Tbl Word) (f : Nat × Word → Bool) (h : RegsOk m) : RegsOk (m.filter f) :=
  ⟨sorted_filter m f h.1, fun p hp => h.2 p (List.mem_filter.1 hp).1⟩

theorem regsOk_wr (s : State) (f : Fld) (v : Nat) (h : RegsOk s.regs) : RegsOk (s.wr f v).regs := regsOk_putWord _ _ _ h

/-! ## Words -/

theorem word_setWord_ne (s : State) (a b : Nat) (w : Word) (h : b ≠ a) : (s.setWord a w).word b = s.word b := by
  unfold State.setWord State.word putWord
  split
  · simp [tget_tdel_ne _ _ _ h]
  · simp [tget_tput_ne _ _ _ _ h]
@[simp] theorem word_setWord_self (s : State) (a : Nat) (w : Word) : (s.setWord a w).word a = w := by
  unfold State.setWord State.word putWord
  split
  · rename_i hw; subst hw; simp
  · simp
@[simp] theorem word_send (s : State) (o : Out) (a : Nat) : (s.send o).word a = s.word a := rfl

/-! ## Fields -/

/-- The field lies within its register. -/
def Fld.fits (f : Fld) : Bool := decide (f.lo + f.width ≤ 32)
/-- Two fields share no bit. -/
def Fld.apart (f g : Fld) : Bool := f.addr != g.addr || decide (f.lo + f.width ≤ g.lo) || decide (g.lo + g.width ≤ f.lo)

theorem rd_testBit (s : State) (f : Fld) (i : Nat) :
    (s.rd f).testBit i = (decide (i < f.width) && (s.word f.addr).getLsbD (f.lo + i)) := by
  unfold State.rd
  rw [Nat.testBit_mod_two_pow, Nat.testBit_div_two_pow, Nat.add_comm, BitVec.testBit_toNat]
theorem rd_lt (s : State) (f : Fld) : s.rd f < 2 ^ f.width := Nat.mod_lt _ (Nat.two_pow_pos _)
theorem mask_getLsbD (f : Fld) (j : Nat) (h : f.fits = true) :
    f.mask.getLsbD j = (decide (f.lo ≤ j) && decide (j < f.lo + f.width)) := by
  have h' : f.lo + f.width ≤ 32 := of_decide_eq_true h
  unfold Fld.mask
  rw [BitVec.getLsbD_shiftLeft, BitVec.getLsbD_ushiftRight, BitVec.getLsbD_allOnes]
  by_cases h1 : f.lo ≤ j <;> by_cases h2 : j < f.lo + f.width <;> simp [h1, h2] <;> omega
theorem wr_word (s : State) (f : Fld) (v : Nat) :
    (s.wr f v).word f.addr = (s.word f.addr &&& ~~~f.mask) ||| (BitVec.ofNat 32 (v % 2 ^ f.width) <<< f.lo) := by
  simp [State.wr]
theorem wr_getLsbD (s : State) (f : Fld) (v j : Nat) (h : f.fits = true) (hj : j < 32) :
    ((s.wr f v).word f.addr).getLsbD j =
      if f.lo ≤ j ∧ j < f.lo + f.width then v.testBit (j - f.lo) else (s.word f.addr).getLsbD j := by
  have h' : f.lo + f.width ≤ 32 := of_decide_eq_true h
  rw [wr_word, BitVec.getLsbD_or, BitVec.getLsbD_and, BitVec.getLsbD_not, mask_getLsbD f _ h, BitVec.getLsbD_shiftLeft,
    BitVec.getLsbD_ofNat, Nat.testBit_mod_two_pow]
  by_cases h1 : f.lo ≤ j <;> by_cases h2 : j < f.lo + f.width
  · have h3 : ¬ j < f.lo := by omega
    have h4 : j - f.lo < f.width := by omega
    have h5 : j - f.lo < 32 := by omega
    simp [h1, h2, h3, h4, h5, hj]
  · have h3 : ¬ j < f.lo := by omega
    have h4 : ¬ j - f.lo < f.width := by omega
    simp [h1, h2, h3, h4, hj]
  · have h3 : j < f.lo := by omega
    simp [h1, h2, h3, hj]
  · have h3 : j < f.lo := by omega
    simp [h1, h2, h3, hj]
/-- A field reads what was written to it, cut to its width. -/
theorem rd_wr_self (s : State) (f : Fld) (v : Nat) (h : f.fits = true) : (s.wr f v).rd f = v % 2 ^ f.width := by
  have h' : f.lo + f.width ≤ 32 := of_decide_eq_true h
  apply Nat.eq_of_testBit_eq
  intro i
  rw [rd_testBit, Nat.testBit_mod_two_pow]
  by_cases hi : i < f.width
  · rw [wr_getLsbD s f v _ h (by omega), if_pos (by omega)]; simp [hi]
  · simp [hi]
theorem word_wr_ne (s : State) (f : Fld) (v a : Nat) (h : a ≠ f.addr) : (s.wr f v).word a = s.word a := word_setWord_ne _ _ _ _ h
/-- A write leaves every field that shares no bit with it. -/
theorem rd_wr_apart (s : State) (f g : Fld) (v : Nat) (hf : f.fits = true) (h : f.apart g = true) : (s.wr f v).rd g = s.rd g := by
  by_cases ha : f.addr = g.addr
  · simp [Fld.apart, ha] at h
    apply Nat.eq_of_testBit_eq
    intro i
    rw [rd_testBit, rd_testBit, ← ha]
    by_cases hi : i < g.width
    · by_cases h3 : g.lo + i < 32
      · rw [wr_getLsbD s f v _ hf h3, if_neg (by omega)]
      · rw [BitVec.getLsbD_of_ge _ _ (by omega), BitVec.getLsbD_of_ge _ _ (by omega)]
    · simp [hi]
  · unfold State.rd
    rw [word_wr_ne _ _ _ _ (Ne.symm ha)]
end Sys2Proof.Machine
end

