-- ==== Sys2Proof/Laws/Held.lean ====
section
/-!
SUPPORT. What the operations of the model change. `Held b F s` says of a state `s` reached from `b`: the queue of waiting
commands is the same; a register file in canonical form is still so; what has been sent is still listed; the free-value
counter has not gone back; and every part of the state that the mask `F` names is unchanged (bit k is the k-th field of
State). The files KeptX show, one lemma per operation, that it keeps `Held b F` for every mask that shares no bit with the
parts it may change.
-/
namespace Sys2Proof.Machine
open Sys2Proof
set_option Elab.async false

/-- Two masks of parts share none. -/
abbrev Dj (F M : Nat) : Prop := F &&& M = 0
theorem dj {F M M' : Nat} (h : Dj F M) (hm : M' &&& M = M' := by rfl) : Dj F M' := by
  have h1 : F &&& M' = (F &&& M) &&& M' := by rw [Nat.and_assoc, Nat.and_comm M M', hm]
  have h2 : F &&& M = 0 := h
  show F &&& M' = 0
  rw [h1, h2, Nat.zero_and]
theorem dj_bit {F i : Nat} (h : Dj F (2 ^ i)) {P : Prop} (hk : F.testBit i = true) : P := by
  have h' : F &&& 2 ^ i = 0 := h
  have := congrArg (fun x => x.testBit i) h'
  simp [hk] at this

/-- An address that stands in no block kept by the mask, or in no block at all. -/
def OffA (F a : Nat) : Prop := 0x150000 ≤ a ∨ F.testBit (32 + blockNo a) = false
/-- The registers of a field, and of the high word that a pair has, stand in no block kept by the mask. -/
def Off (F : Nat) (f : Fld) : Prop := OffA F f.addr ∧ OffA F (f.addr + 4)

structure Held (b : State) (F : Nat) (s : State) : Prop where
  queue : s.pending = b.pending
  canon : RegsOk b.regs → RegsOk s.regs
  sent : b.out <:+ s.out
  mono : b.free ≤ s.free
  words : ∀ a, F.testBit (32 + blockNo a) = true → a < 0x150000 → s.word a = b.word a
  regs : F.testBit 0 = true → s.regs = b.regs
  nv : F.testBit 1 = true → s.nv = b.nv
  boll : F.testBit 2 = true → s.boll = b.boll
  hq : F.testBit 3 = true → s.hq = b.hq
  man : F.testBit 4 = true → s.man = b.man
  pwr : F.testBit 5 = true → s.pwr = b.pwr
  recu : F.testBit 6 = true → s.recu = b.recu
  sec : F.testBit 7 = true → s.sec = b.sec
  xng : F.testBit 8 = true → s.xng = b.xng
  est : F.testBit 9 = true → s.est = b.est
  prot : F.testBit 10 = true → s.prot = b.prot
  disp : F.testBit 11 = true → s.disp = b.disp
  loop : F.testBit 12 = true → s.loop = b.loop
  pos : F.testBit 13 = true → s.pos = b.pos
  saf : F.testBit 14 = true → s.saf = b.saf
  mbc : F.testBit 15 = true → s.mbc = b.mbc
  ser : F.testBit 16 = true → s.ser = b.ser
  car : F.testBit 17 = true → s.car = b.car
  door : F.testBit 18 = true → s.door = b.door
  grp : F.testBit 19 = true → s.grp = b.grp
  fio : F.testBit 20 = true → s.fio = b.fio
  acq : F.testBit 21 = true → s.acq = b.acq
  net : F.testBit 22 = true → s.net = b.net
  out : F.testBit 23 = true → s.out = b.out
  free : F.testBit 24 = true → s.free = b.free
/-- The same of an outcome, a pair and an optional state. -/
def HeldR (b : State) (F : Nat) : Res State → Prop
  | .next t => Held b F t
  | _ => True
abbrev Held2 {α : Type} (b : State) (F : Nat) (x : α × State) : Prop := Held b F x.2
abbrev Held1 {α : Type} (b : State) (F : Nat) (x : State × α) : Prop := Held b F x.1
def HeldO (b : State) (F : Nat) : Option State → Prop
  | some t => Held b F t
  | none => True

variable {b : State} {F : Nat}

/-- The first address of a block and the address after its last (R714). -/
def blkLo (k : Nat) : Nat := if k < 17 then 0x10000 * k else if k = 17 then 0x10C000 else 0x10000 * (k - 1)
def blkHi (k : Nat) : Nat := if k < 16 then 0x10000 * (k + 1) else if k = 16 then 0x10C000 else 0x10000 * k
theorem blockNo_range {a k : Nat} (h1 : blkLo k ≤ a) (h2 : a < blkHi k) : blockNo a = k := by
  unfold blkLo at h1
  unfold blkHi at h2
  unfold blockNo
  split at h1 <;> split at h2 <;> (try split at h1) <;> (try split at h2) <;> (repeat' split) <;> omega
theorem dj_bit' {F i : Nat} (h : Dj F (2 ^ i)) : F.testBit i = false := by
  cases hk : F.testBit i
  · rfl
  · exact dj_bit h hk
theorem offA_blk {a k : Nat} (hF : Dj F (2 ^ (32 + k))) (h : (decide (blkLo k ≤ a) && decide (a < blkHi k)) = true) : OffA F a := by
  simp only [Bool.and_eq_true, decide_eq_true_eq] at h
  exact Or.inr (by rw [blockNo_range h.1 h.2]; exact dj_bit' hF)
/-- A field of a register in block `k`. -/
theorem off_at {f : Fld} (k : Nat) (hF : Dj F (2 ^ (32 + k)))
    (h : (decide (blkLo k ≤ f.addr) && decide (f.addr + 4 < blkHi k)) = true) : Off F f := by
  simp only [Bool.and_eq_true, decide_eq_true_eq] at h
  exact ⟨offA_blk hF (by simp; omega), offA_blk hF (by simp; omega)⟩
/-- A field of a repeated register whose instances stand in block `k`. -/
theorem off_inst {base stride n i : Nat} (k lo w : Nat) (hF : Dj F (2 ^ (32 + k)))
    (h : (decide (blkLo k ≤ base) && decide (base + stride * (n - 1) + 4 < blkHi k)) = true) : Off F ⟨inst base stride n i, lo, w⟩ := by
  simp only [Bool.and_eq_true, decide_eq_true_eq] at h
  unfold inst
  split
  · rename_i hi
    have : stride * i ≤ stride * (n - 1) := Nat.mul_le_mul_left _ (by omega)
    exact off_at k hF (by simp; omega)
  · exact ⟨Or.inl (by simp), Or.inl (by simp)⟩
theorem off_ite {c : Prop} [Decidable c] {f g : Fld} (hf : Off F f) (hg : Off F g) : Off F (if c then f else g) := by
  split
  · exact hf
  · exact hg
theorem off_all (hF : Dj F 0x3FFFFF00000000) {P : Prop} (a : Nat) (hk : F.testBit (32 + blockNo a) = true) (ha : a < 0x150000) : P := by
  have hb : blockNo a < 22 := by
    unfold blockNo
    (repeat' split) <;> omega
  have h1 : F &&& 0x3FFFFF00000000 = 0 := hF
  have h2 := congrArg (fun x => x.testBit (32 + blockNo a)) h1
  have h3 : ∀ k, k < 22 → (0x3FFFFF00000000 : Nat).testBit (32 + k) = true := by decide
  simp [hk, h3 _ hb] at h2
theorem held_self : Held b F b :=
  ⟨rfl, id, List.suffix_refl _, Nat.le_refl _, fun _ _ _ => rfl, fun _ => rfl, fun _ => rfl, fun _ => rfl, fun _ => rfl, fun _ => rfl, fun _ => rfl, fun _ => rfl, fun _ => rfl, fun _ => rfl, fun _ => rfl, fun _ => rfl, fun _ => rfl, fun _ => rfl, fun _ => rfl, fun _ => rfl, fun _ => rfl, fun _ => rfl, fun _ => rfl, fun _ => rfl, fun _ => rfl, fun _ => rfl, fun _ => rfl, fun _ => rfl, fun _ => rfl, fun _ => rfl⟩
theorem heldR_next {t : State} (h : Held b F t) : HeldR b F (.next t) := h
theorem heldO_some {t : State} (h : Held b F t) : HeldO b F (some t) := h
theorem heldO_eq {o : Option State} {t : State} (e : o = some t) (h : HeldO b F o) : Held b F t := by subst e; exact h
theorem held2_mk {α : Type} {a : α} {t : State} (h : Held b F t) : Held2 b F (a, t) := h
theorem held1_mk {α : Type} {a : α} {t : State} (h : Held b F t) : Held1 b F (t, a) := h
theorem held2_snd {α : Type} {x : α × State} (h : Held2 b F x) : Held b F x.2 := h
theorem held1_fst {α : Type} {x : State × α} (h : Held1 b F x) : Held b F x.1 := h
theorem held2_eq {α : Type} {x : α × State} {a : α} {t : State} (e : x = (a, t)) (h : Held2 b F x) : Held b F t := by
  subst e; exact h
theorem held1_eq {α : Type} {x : State × α} {a : α} {t : State} (e : x = (t, a)) (h : Held1 b F x) : Held b F t := by
  subst e; exact h
theorem ite_ind {α : Type} {Q : α → Prop} {c : Prop} [Decidable c] {a b : α} (ha : c → Q a) (hb : ¬c → Q b) :
    Q (if c then a else b) := by
  split
  · exact ha ‹_›
  · exact hb ‹_›
theorem dite_ind {α : Type} {Q : α → Prop} {c : Prop} [Decidable c] {a : c → α} {b : ¬c → α} (ha : ∀ h, Q (a h))
    (hb : ∀ h, Q (b h)) : Q (if h : c then a h else b h) := by
  split
  · exact ha _
  · exact hb _
theorem elim_ind {α β : Type} {Q : β → Prop} {o : Option α} {b : β} {f : α → β} (hb : Q b) (hf : ∀ x, o = some x → Q (f x)) :
    Q (o.elim b f) := by
  cases o with
  | none => exact hb
  | some x => exact hf x rfl
theorem foldl_ind {α β : Type} {Q : β → Prop} {f : β → α → β} {l : List α} {b : β} (hf : ∀ s x, Q s → Q (f s x)) (hb : Q b) :
    Q (l.foldl f b) := by
  induction l generalizing b with
  | nil => exact hb
  | cons x t ih => exact ih (hf b x hb)
theorem or_ind {x y : Option State} (hx : HeldO b F x) (hy : HeldO b F y) : HeldO b F (x.or y) := by
  cases x with
  | none => exact hy
  | some x => exact hx
theorem map_ind {α : Type} {f : α → State} {o : Option α} (h : ∀ x, Held b F (f x)) : HeldO b F (o.map f) := by
  cases o with
  | none => trivial
  | some x => exact h x

/-! ## Changes of single parts -/

theorem held_mk_acq {s v0} (hF : Dj F 0x200000) (h : Held b F s) :
    Held b F ⟨s.regs, s.nv, s.boll, s.hq, s.man, s.pwr, s.recu, s.sec, s.xng, s.est, s.prot, s.disp, s.loop, s.pos, s.saf, s.mbc, s.ser, s.car, s.door, s.grp, s.fio, v0, s.net, s.out, s.free, s.pending⟩ :=
  ⟨h.queue, h.canon, h.sent, h.mono, h.words, h.regs, h.nv, h.boll, h.hq, h.man, h.pwr, h.recu, h.sec, h.xng, h.est, h.prot, h.disp, h.loop, h.pos, h.saf, h.mbc, h.ser, h.car, h.door, h.grp, h.fio, fun hk => dj_bit (i := 21) (dj hF) hk, h.net, h.out, h.free⟩
theorem held_mk_boll {s v0} (hF : Dj F 0x4) (h : Held b F s) :
    Held b F ⟨s.regs, s.nv, v0, s.hq, s.man, s.pwr, s.recu, s.sec, s.xng, s.est, s.prot, s.disp, s.loop, s.pos, s.saf, s.mbc, s.ser, s.car, s.door, s.grp, s.fio, s.acq, s.net, s.out, s.free, s.pending⟩ :=
  ⟨h.queue, h.canon, h.sent, h.mono, h.words, h.regs, h.nv, fun hk => dj_bit (i := 2) (dj hF) hk, h.hq, h.man, h.pwr, h.recu, h.sec, h.xng, h.est, h.prot, h.disp, h.loop, h.pos, h.saf, h.mbc, h.ser, h.car, h.door, h.grp, h.fio, h.acq, h.net, h.out, h.free⟩
theorem held_mk_car {s v0} (hF : Dj F 0x20000) (h : Held b F s) :
    Held b F ⟨s.regs, s.nv, s.boll, s.hq, s.man, s.pwr, s.recu, s.sec, s.xng, s.est, s.prot, s.disp, s.loop, s.pos, s.saf, s.mbc, s.ser, v0, s.door, s.grp, s.fio, s.acq, s.net, s.out, s.free, s.pending⟩ :=
  ⟨h.queue, h.canon, h.sent, h.mono, h.words, h.regs, h.nv, h.boll, h.hq, h.man, h.pwr, h.recu, h.sec, h.xng, h.est, h.prot, h.disp, h.loop, h.pos, h.saf, h.mbc, h.ser, fun hk => dj_bit (i := 17) (dj hF) hk, h.door, h.grp, h.fio, h.acq, h.net, h.out, h.free⟩
theorem held_mk_disp {s v0} (hF : Dj F 0x800) (h : Held b F s) :
    Held b F ⟨s.regs, s.nv, s.boll, s.hq, s.man, s.pwr, s.recu, s.sec, s.xng, s.est, s.prot, v0, s.loop, s.pos, s.saf, s.mbc, s.ser, s.car, s.door, s.grp, s.fio, s.acq, s.net, s.out, s.free, s.pending⟩ :=
  ⟨h.queue, h.canon, h.sent, h.mono, h.words, h.regs, h.nv, h.boll, h.hq, h.man, h.pwr, h.recu, h.sec, h.xng, h.est, h.prot, fun hk => dj_bit (i := 11) (dj hF) hk, h.loop, h.pos, h.saf, h.mbc, h.ser, h.car, h.door, h.grp, h.fio, h.acq, h.net, h.out, h.free⟩
theorem held_mk_door {s v0} (hF : Dj F 0x40000) (h : Held b F s) :
    Held b F ⟨s.regs, s.nv, s.boll, s.hq, s.man, s.pwr, s.recu, s.sec, s.xng, s.est, s.prot, s.disp, s.loop, s.pos, s.saf, s.mbc, s.ser, s.car, v0, s.grp, s.fio, s.acq, s.net, s.out, s.free, s.pending⟩ :=
  ⟨h.queue, h.canon, h.sent, h.mono, h.words, h.regs, h.nv, h.boll, h.hq, h.man, h.pwr, h.recu, h.sec, h.xng, h.est, h.prot, h.disp, h.loop, h.pos, h.saf, h.mbc, h.ser, h.car, fun hk => dj_bit (i := 18) (dj hF) hk, h.grp, h.fio, h.acq, h.net, h.out, h.free⟩
theorem held_mk_est {s v0} (hF : Dj F 0x200) (h : Held b F s) :
    Held b F ⟨s.regs, s.nv, s.boll, s.hq, s.man, s.pwr, s.recu, s.sec, s.xng, v0, s.prot, s.disp, s.loop, s.pos, s.saf, s.mbc, s.ser, s.car, s.door, s.grp, s.fio, s.acq, s.net, s.out, s.free, s.pending⟩ :=
  ⟨h.queue, h.canon, h.sent, h.mono, h.words, h.regs, h.nv, h.boll, h.hq, h.man, h.pwr, h.recu, h.sec, h.xng, fun hk => dj_bit (i := 9) (dj hF) hk, h.prot, h.disp, h.loop, h.pos, h.saf, h.mbc, h.ser, h.car, h.door, h.grp, h.fio, h.acq, h.net, h.out, h.free⟩
theorem held_mk_est_prot {s v0 v1} (hF : Dj F 0x600) (h : Held b F s) :
    Held b F ⟨s.regs, s.nv, s.boll, s.hq, s.man, s.pwr, s.recu, s.sec, s.xng, v0, v1, s.disp, s.loop, s.pos, s.saf, s.mbc, s.ser, s.car, s.door, s.grp, s.fio, s.acq, s.net, s.out, s.free, s.pending⟩ :=
  ⟨h.queue, h.canon, h.sent, h.mono, h.words, h.regs, h.nv, h.boll, h.hq, h.man, h.pwr, h.recu, h.sec, h.xng, fun hk => dj_bit (i := 9) (dj hF) hk, fun hk => dj_bit (i := 10) (dj hF) hk, h.disp, h.loop, h.pos, h.saf, h.mbc, h.ser, h.car, h.door, h.grp, h.fio, h.acq, h.net, h.out, h.free⟩
theorem held_mk_fio {s v0} (hF : Dj F 0x100000) (h : Held b F s) :
    Held b F ⟨s.regs, s.nv, s.boll, s.hq, s.man, s.pwr, s.recu, s.sec, s.xng, s.est, s.prot, s.disp, s.loop, s.pos, s.saf, s.mbc, s.ser, s.car, s.door, s.grp, v0, s.acq, s.net, s.out, s.free, s.pending⟩ :=
  ⟨h.queue, h.canon, h.sent, h.mono, h.words, h.regs, h.nv, h.boll, h.hq, h.man, h.pwr, h.recu, h.sec, h.xng, h.est, h.prot, h.disp, h.loop, h.pos, h.saf, h.mbc, h.ser, h.car, h.door, h.grp, fun hk => dj_bit (i := 20) (dj hF) hk, h.acq, h.net, h.out, h.free⟩
theorem held_mk_grp {s v0} (hF : Dj F 0x80000) (h : Held b F s) :
    Held b F ⟨s.regs, s.nv, s.boll, s.hq, s.man, s.pwr, s.recu, s.sec, s.xng, s.est, s.prot, s.disp, s.loop, s.pos, s.saf, s.mbc, s.ser, s.car, s.door, v0, s.fio, s.acq, s.net, s.out, s.free, s.pending⟩ :=
  ⟨h.queue, h.canon, h.sent, h.mono, h.words, h.regs, h.nv, h.boll, h.hq, h.man, h.pwr, h.recu, h.sec, h.xng, h.est, h.prot, h.disp, h.loop, h.pos, h.saf, h.mbc, h.ser, h.car, h.door, fun hk => dj_bit (i := 19) (dj hF) hk, h.fio, h.acq, h.net, h.out, h.free⟩
theorem held_mk_hq {s v0} (hF : Dj F 0x8) (h : Held b F s) :
    Held b F ⟨s.regs, s.nv, s.boll, v0, s.man, s.pwr, s.recu, s.sec, s.xng, s.est, s.prot, s.disp, s.loop, s.pos, s.saf, s.mbc, s.ser, s.car, s.door, s.grp, s.fio, s.acq, s.net, s.out, s.free, s.pending⟩ :=
  ⟨h.queue, h.canon, h.sent, h.mono, h.words, h.regs, h.nv, h.boll, fun hk => dj_bit (i := 3) (dj hF) hk, h.man, h.pwr, h.recu, h.sec, h.xng, h.est, h.prot, h.disp, h.loop, h.pos, h.saf, h.mbc, h.ser, h.car, h.door, h.grp, h.fio, h.acq, h.net, h.out, h.free⟩
theorem held_mk_hq_pwr {s v0 v1} (hF : Dj F 0x28) (h : Held b F s) :
    Held b F ⟨s.regs, s.nv, s.boll, v0, s.man, v1, s.recu, s.sec, s.xng, s.est, s.prot, s.disp, s.loop, s.pos, s.saf, s.mbc, s.ser, s.car, s.door, s.grp, s.fio, s.acq, s.net, s.out, s.free, s.pending⟩ :=
  ⟨h.queue, h.canon, h.sent, h.mono, h.words, h.regs, h.nv, h.boll, fun hk => dj_bit (i := 3) (dj hF) hk, h.man, fun hk => dj_bit (i := 5) (dj hF) hk, h.recu, h.sec, h.xng, h.est, h.prot, h.disp, h.loop, h.pos, h.saf, h.mbc, h.ser, h.car, h.door, h.grp, h.fio, h.acq, h.net, h.out, h.free⟩
theorem held_mk_hq_disp {s v0 v1} (hF : Dj F 0x808) (h : Held b F s) :
    Held b F ⟨s.regs, s.nv, s.boll, v0, s.man, s.pwr, s.recu, s.sec, s.xng, s.est, s.prot, v1, s.loop, s.pos, s.saf, s.mbc, s.ser, s.car, s.door, s.grp, s.fio, s.acq, s.net, s.out, s.free, s.pending⟩ :=
  ⟨h.queue, h.canon, h.sent, h.mono, h.words, h.regs, h.nv, h.boll, fun hk => dj_bit (i := 3) (dj hF) hk, h.man, h.pwr, h.recu, h.sec, h.xng, h.est, h.prot, fun hk => dj_bit (i := 11) (dj hF) hk, h.loop, h.pos, h.saf, h.mbc, h.ser, h.car, h.door, h.grp, h.fio, h.acq, h.net, h.out, h.free⟩
theorem held_mk_hq_xng {s v0 v1} (hF : Dj F 0x108) (h : Held b F s) :
    Held b F ⟨s.regs, s.nv, s.boll, v0, s.man, s.pwr, s.recu, s.sec, v1, s.est, s.prot, s.disp, s.loop, s.pos, s.saf, s.mbc, s.ser, s.car, s.door, s.grp, s.fio, s.acq, s.net, s.out, s.free, s.pending⟩ :=
  ⟨h.queue, h.canon, h.sent, h.mono, h.words, h.regs, h.nv, h.boll, fun hk => dj_bit (i := 3) (dj hF) hk, h.man, h.pwr, h.recu, h.sec, fun hk => dj_bit (i := 8) (dj hF) hk, h.est, h.prot, h.disp, h.loop, h.pos, h.saf, h.mbc, h.ser, h.car, h.door, h.grp, h.fio, h.acq, h.net, h.out, h.free⟩
theorem held_mk_xng_est {s v0 v1} (hF : Dj F 0x300) (h : Held b F s) :
    Held b F ⟨s.regs, s.nv, s.boll, s.hq, s.man, s.pwr, s.recu, s.sec, v0, v1, s.prot, s.disp, s.loop, s.pos, s.saf, s.mbc, s.ser, s.car, s.door, s.grp, s.fio, s.acq, s.net, s.out, s.free, s.pending⟩ :=
  ⟨h.queue, h.canon, h.sent, h.mono, h.words, h.regs, h.nv, h.boll, h.hq, h.man, h.pwr, h.recu, h.sec, fun hk => dj_bit (i := 8) (dj hF) hk, fun hk => dj_bit (i := 9) (dj hF) hk, h.prot, h.disp, h.loop, h.pos, h.saf, h.mbc, h.ser, h.car, h.door, h.grp, h.fio, h.acq, h.net, h.out, h.free⟩
theorem held_mk_loop {s v0} (hF : Dj F 0x1000) (h : Held b F s) :
    Held b F ⟨s.regs, s.nv, s.boll, s.hq, s.man, s.pwr, s.recu, s.sec, s.xng, s.est, s.prot, s.disp, v0, s.pos, s.saf, s.mbc, s.ser, s.car, s.door, s.grp, s.fio, s.acq, s.net, s.out, s.free, s.pending⟩ :=
  ⟨h.queue, h.canon, h.sent, h.mono, h.words, h.regs, h.nv, h.boll, h.hq, h.man, h.pwr, h.recu, h.sec, h.xng, h.est, h.prot, h.disp, fun hk => dj_bit (i := 12) (dj hF) hk, h.pos, h.saf, h.mbc, h.ser, h.car, h.door, h.grp, h.fio, h.acq, h.net, h.out, h.free⟩
theorem held_mk_man {s v0} (hF : Dj F 0x10) (h : Held b F s) :
    Held b F ⟨s.regs, s.nv, s.boll, s.hq, v0, s.pwr, s.recu, s.sec, s.xng, s.est, s.prot, s.disp, s.loop, s.pos, s.saf, s.mbc, s.ser, s.car, s.door, s.grp, s.fio, s.acq, s.net, s.out, s.free, s.pending⟩ :=
  ⟨h.queue, h.canon, h.sent, h.mono, h.words, h.regs, h.nv, h.boll, h.hq, fun hk => dj_bit (i := 4) (dj hF) hk, h.pwr, h.recu, h.sec, h.xng, h.est, h.prot, h.disp, h.loop, h.pos, h.saf, h.mbc, h.ser, h.car, h.door, h.grp, h.fio, h.acq, h.net, h.out, h.free⟩
theorem held_mk_mbc {s v0} (hF : Dj F 0x8000) (h : Held b F s) :
    Held b F ⟨s.regs, s.nv, s.boll, s.hq, s.man, s.pwr, s.recu, s.sec, s.xng, s.est, s.prot, s.disp, s.loop, s.pos, s.saf, v0, s.ser, s.car, s.door, s.grp, s.fio, s.acq, s.net, s.out, s.free, s.pending⟩ :=
  ⟨h.queue, h.canon, h.sent, h.mono, h.words, h.regs, h.nv, h.boll, h.hq, h.man, h.pwr, h.recu, h.sec, h.xng, h.est, h.prot, h.disp, h.loop, h.pos, h.saf, fun hk => dj_bit (i := 15) (dj hF) hk, h.ser, h.car, h.door, h.grp, h.fio, h.acq, h.net, h.out, h.free⟩
theorem held_mk_mbc_ser {s v0 v1} (hF : Dj F 0x18000) (h : Held b F s) :
    Held b F ⟨s.regs, s.nv, s.boll, s.hq, s.man, s.pwr, s.recu, s.sec, s.xng, s.est, s.prot, s.disp, s.loop, s.pos, s.saf, v0, v1, s.car, s.door, s.grp, s.fio, s.acq, s.net, s.out, s.free, s.pending⟩ :=
  ⟨h.queue, h.canon, h.sent, h.mono, h.words, h.regs, h.nv, h.boll, h.hq, h.man, h.pwr, h.recu, h.sec, h.xng, h.est, h.prot, h.disp, h.loop, h.pos, h.saf, fun hk => dj_bit (i := 15) (dj hF) hk, fun hk => dj_bit (i := 16) (dj hF) hk, h.car, h.door, h.grp, h.fio, h.acq, h.net, h.out, h.free⟩
theorem held_mk_net {s v0} (hF : Dj F 0x400000) (h : Held b F s) :
    Held b F ⟨s.regs, s.nv, s.boll, s.hq, s.man, s.pwr, s.recu, s.sec, s.xng, s.est, s.prot, s.disp, s.loop, s.pos, s.saf, s.mbc, s.ser, s.car, s.door, s.grp, s.fio, s.acq, v0, s.out, s.free, s.pending⟩ :=
  ⟨h.queue, h.canon, h.sent, h.mono, h.words, h.regs, h.nv, h.boll, h.hq, h.man, h.pwr, h.recu, h.sec, h.xng, h.est, h.prot, h.disp, h.loop, h.pos, h.saf, h.mbc, h.ser, h.car, h.door, h.grp, h.fio, h.acq, fun hk => dj_bit (i := 22) (dj hF) hk, h.out, h.free⟩
theorem held_mk_nv {s v0} (hF : Dj F 0x2) (h : Held b F s) :
    Held b F ⟨s.regs, v0, s.boll, s.hq, s.man, s.pwr, s.recu, s.sec, s.xng, s.est, s.prot, s.disp, s.loop, s.pos, s.saf, s.mbc, s.ser, s.car, s.door, s.grp, s.fio, s.acq, s.net, s.out, s.free, s.pending⟩ :=
  ⟨h.queue, h.canon, h.sent, h.mono, h.words, h.regs, fun hk => dj_bit (i := 1) (dj hF) hk, h.boll, h.hq, h.man, h.pwr, h.recu, h.sec, h.xng, h.est, h.prot, h.disp, h.loop, h.pos, h.saf, h.mbc, h.ser, h.car, h.door, h.grp, h.fio, h.acq, h.net, h.out, h.free⟩
theorem held_mk_pos {s v0} (hF : Dj F 0x2000) (h : Held b F s) :
    Held b F ⟨s.regs, s.nv, s.boll, s.hq, s.man, s.pwr, s.recu, s.sec, s.xng, s.est, s.prot, s.disp, s.loop, v0, s.saf, s.mbc, s.ser, s.car, s.door, s.grp, s.fio, s.acq, s.net, s.out, s.free, s.pending⟩ :=
  ⟨h.queue, h.canon, h.sent, h.mono, h.words, h.regs, h.nv, h.boll, h.hq, h.man, h.pwr, h.recu, h.sec, h.xng, h.est, h.prot, h.disp, h.loop, fun hk => dj_bit (i := 13) (dj hF) hk, h.saf, h.mbc, h.ser, h.car, h.door, h.grp, h.fio, h.acq, h.net, h.out, h.free⟩
theorem held_mk_prot {s v0} (hF : Dj F 0x400) (h : Held b F s) :
    Held b F ⟨s.regs, s.nv, s.boll, s.hq, s.man, s.pwr, s.recu, s.sec, s.xng, s.est, v0, s.disp, s.loop, s.pos, s.saf, s.mbc, s.ser, s.car, s.door, s.grp, s.fio, s.acq, s.net, s.out, s.free, s.pending⟩ :=
  ⟨h.queue, h.canon, h.sent, h.mono, h.words, h.regs, h.nv, h.boll, h.hq, h.man, h.pwr, h.recu, h.sec, h.xng, h.est, fun hk => dj_bit (i := 10) (dj hF) hk, h.disp, h.loop, h.pos, h.saf, h.mbc, h.ser, h.car, h.door, h.grp, h.fio, h.acq, h.net, h.out, h.free⟩
theorem held_mk_pwr {s v0} (hF : Dj F 0x20) (h : Held b F s) :
    Held b F ⟨s.regs, s.nv, s.boll, s.hq, s.man, v0, s.recu, s.sec, s.xng, s.est, s.prot, s.disp, s.loop, s.pos, s.saf, s.mbc, s.ser, s.car, s.door, s.grp, s.fio, s.acq, s.net, s.out, s.free, s.pending⟩ :=
  ⟨h.queue, h.canon, h.sent, h.mono, h.words, h.regs, h.nv, h.boll, h.hq, h.man, fun hk => dj_bit (i := 5) (dj hF) hk, h.recu, h.sec, h.xng, h.est, h.prot, h.disp, h.loop, h.pos, h.saf, h.mbc, h.ser, h.car, h.door, h.grp, h.fio, h.acq, h.net, h.out, h.free⟩
theorem held_mk_recu {s v0} (hF : Dj F 0x40) (h : Held b F s) :
    Held b F ⟨s.regs, s.nv, s.boll, s.hq, s.man, s.pwr, v0, s.sec, s.xng, s.est, s.prot, s.disp, s.loop, s.pos, s.saf, s.mbc, s.ser, s.car, s.door, s.grp, s.fio, s.acq, s.net, s.out, s.free, s.pending⟩ :=
  ⟨h.queue, h.canon, h.sent, h.mono, h.words, h.regs, h.nv, h.boll, h.hq, h.man, h.pwr, fun hk => dj_bit (i := 6) (dj hF) hk, h.sec, h.xng, h.est, h.prot, h.disp, h.loop, h.pos, h.saf, h.mbc, h.ser, h.car, h.door, h.grp, h.fio, h.acq, h.net, h.out, h.free⟩
theorem held_mk_saf {s v0} (hF : Dj F 0x4000) (h : Held b F s) :
    Held b F ⟨s.regs, s.nv, s.boll, s.hq, s.man, s.pwr, s.recu, s.sec, s.xng, s.est, s.prot, s.disp, s.loop, s.pos, v0, s.mbc, s.ser, s.car, s.door, s.grp, s.fio, s.acq, s.net, s.out, s.free, s.pending⟩ :=
  ⟨h.queue, h.canon, h.sent, h.mono, h.words, h.regs, h.nv, h.boll, h.hq, h.man, h.pwr, h.recu, h.sec, h.xng, h.est, h.prot, h.disp, h.loop, h.pos, fun hk => dj_bit (i := 14) (dj hF) hk, h.mbc, h.ser, h.car, h.door, h.grp, h.fio, h.acq, h.net, h.out, h.free⟩
theorem held_mk_sec {s v0} (hF : Dj F 0x80) (h : Held b F s) :
    Held b F ⟨s.regs, s.nv, s.boll, s.hq, s.man, s.pwr, s.recu, v0, s.xng, s.est, s.prot, s.disp, s.loop, s.pos, s.saf, s.mbc, s.ser, s.car, s.door, s.grp, s.fio, s.acq, s.net, s.out, s.free, s.pending⟩ :=
  ⟨h.queue, h.canon, h.sent, h.mono, h.words, h.regs, h.nv, h.boll, h.hq, h.man, h.pwr, h.recu, fun hk => dj_bit (i := 7) (dj hF) hk, h.xng, h.est, h.prot, h.disp, h.loop, h.pos, h.saf, h.mbc, h.ser, h.car, h.door, h.grp, h.fio, h.acq, h.net, h.out, h.free⟩
theorem held_mk_ser {s v0} (hF : Dj F 0x10000) (h : Held b F s) :
    Held b F ⟨s.regs, s.nv, s.boll, s.hq, s.man, s.pwr, s.recu, s.sec, s.xng, s.est, s.prot, s.disp, s.loop, s.pos, s.saf, s.mbc, v0, s.car, s.door, s.grp, s.fio, s.acq, s.net, s.out, s.free, s.pending⟩ :=
  ⟨h.queue, h.canon, h.sent, h.mono, h.words, h.regs, h.nv, h.boll, h.hq, h.man, h.pwr, h.recu, h.sec, h.xng, h.est, h.prot, h.disp, h.loop, h.pos, h.saf, h.mbc, fun hk => dj_bit (i := 16) (dj hF) hk, h.car, h.door, h.grp, h.fio, h.acq, h.net, h.out, h.free⟩
theorem held_mk_xng {s v0} (hF : Dj F 0x100) (h : Held b F s) :
    Held b F ⟨s.regs, s.nv, s.boll, s.hq, s.man, s.pwr, s.recu, s.sec, v0, s.est, s.prot, s.disp, s.loop, s.pos, s.saf, s.mbc, s.ser, s.car, s.door, s.grp, s.fio, s.acq, s.net, s.out, s.free, s.pending⟩ :=
  ⟨h.queue, h.canon, h.sent, h.mono, h.words, h.regs, h.nv, h.boll, h.hq, h.man, h.pwr, h.recu, h.sec, fun hk => dj_bit (i := 8) (dj hF) hk, h.est, h.prot, h.disp, h.loop, h.pos, h.saf, h.mbc, h.ser, h.car, h.door, h.grp, h.fio, h.acq, h.net, h.out, h.free⟩
theorem held_setWordAt {s a w} (hF : Dj F 0x1) (hO : OffA F a) (h : Held b F s) : Held b F (s.setWord a w) :=
  ⟨h.queue, fun h0 => regsOk_putWord _ _ _ (h.canon h0), h.sent, h.mono, fun c hk hc => by
    rw [word_setWord_ne]
    · exact h.words c hk hc
    · rintro rfl
      rcases hO with hO | hO
      · omega
      · rw [hk] at hO; exact absurd hO (by simp), fun hk => dj_bit (i := 0) (dj hF) hk, h.nv, h.boll, h.hq, h.man, h.pwr, h.recu, h.sec, h.xng, h.est, h.prot, h.disp, h.loop, h.pos, h.saf, h.mbc, h.ser, h.car, h.door, h.grp, h.fio, h.acq, h.net, h.out, h.free⟩
theorem off_any {f : Fld} (hF : Dj F 0x3FFFFF00000000) : Off F f := by
  have h : ∀ a, OffA F a := fun a => by
    by_cases h : a < 0x150000
    · cases hk : F.testBit (32 + blockNo a)
      · exact Or.inr hk
      · exact off_all hF a hk h
    · exact Or.inl (by omega)
  exact ⟨h _, h _⟩
theorem held_regs {s regs} (hF : Dj F 0x3FFFFF00000001) (h : Held b F s) (hr : RegsOk s.regs → RegsOk regs) :
    Held b F { s with regs := regs } :=
  ⟨h.queue, fun h0 => hr (h.canon h0), h.sent, h.mono, fun c hk hc => off_all (dj hF) c hk hc, fun hk => dj_bit (i := 0) (dj hF) hk, h.nv, h.boll, h.hq, h.man, h.pwr, h.recu, h.sec, h.xng, h.est, h.prot, h.disp, h.loop, h.pos, h.saf, h.mbc, h.ser, h.car, h.door, h.grp, h.fio, h.acq, h.net, h.out, h.free⟩
theorem held_out {s l} (hF : Dj F 0x800000) (h : Held b F s) (hl : s.out <:+ l) : Held b F { s with out := l } :=
  ⟨h.queue, h.canon, h.sent.trans hl, h.mono, h.words, h.regs, h.nv, h.boll, h.hq, h.man, h.pwr, h.recu, h.sec, h.xng, h.est, h.prot, h.disp, h.loop, h.pos, h.saf, h.mbc, h.ser, h.car, h.door, h.grp, h.fio, h.acq, h.net, fun hk => dj_bit (i := 23) (dj hF) hk, h.free⟩
theorem held_free {s n} (hF : Dj F 0x1000000) (h : Held b F s) (hn : s.free ≤ n) : Held b F { s with free := n } :=
  ⟨h.queue, h.canon, h.sent, Nat.le_trans h.mono hn, h.words, h.regs, h.nv, h.boll, h.hq, h.man, h.pwr, h.recu, h.sec, h.xng, h.est, h.prot, h.disp, h.loop, h.pos, h.saf, h.mbc, h.ser, h.car, h.door, h.grp, h.fio, h.acq, h.net, h.out, fun hk => dj_bit (i := 24) (dj hF) hk⟩
/-- Everything but the queue, what has been sent and the free values may change: the register file stays canonical. -/
theorem held_wiped {s t} (hF : Dj F 0x3FFFFF007FFFFF) (h : Held b F s) (hq : t.pending = s.pending) (hr : RegsOk s.regs → RegsOk t.regs)
    (ho : t.out = s.out) (hf : t.free = s.free) : Held b F t :=
  ⟨hq.trans h.queue, fun h0 => hr (h.canon h0), ho ▸ h.sent, hf ▸ h.mono, fun c hk hc => off_all (dj hF) c hk hc, fun hk => dj_bit (i := 0) (dj hF) hk, fun hk => dj_bit (i := 1) (dj hF) hk, fun hk => dj_bit (i := 2) (dj hF) hk, fun hk => dj_bit (i := 3) (dj hF) hk, fun hk => dj_bit (i := 4) (dj hF) hk, fun hk => dj_bit (i := 5) (dj hF) hk, fun hk => dj_bit (i := 6) (dj hF) hk, fun hk => dj_bit (i := 7) (dj hF) hk, fun hk => dj_bit (i := 8) (dj hF) hk, fun hk => dj_bit (i := 9) (dj hF) hk, fun hk => dj_bit (i := 10) (dj hF) hk, fun hk => dj_bit (i := 11) (dj hF) hk, fun hk => dj_bit (i := 12) (dj hF) hk, fun hk => dj_bit (i := 13) (dj hF) hk, fun hk => dj_bit (i := 14) (dj hF) hk, fun hk => dj_bit (i := 15) (dj hF) hk, fun hk => dj_bit (i := 16) (dj hF) hk, fun hk => dj_bit (i := 17) (dj hF) hk, fun hk => dj_bit (i := 18) (dj hF) hk, fun hk => dj_bit (i := 19) (dj hF) hk, fun hk => dj_bit (i := 20) (dj hF) hk, fun hk => dj_bit (i := 21) (dj hF) hk, fun hk => dj_bit (i := 22) (dj hF) hk, fun hk => ho.trans (h.out hk), fun hk => hf.trans (h.free hk)⟩

end Sys2Proof.Machine
end

