-- ==== Sys2Proof/Laws/Off.lean ====
section
/-!
SUPPORT. The block that each register written by a command stands in.
-/
namespace Sys2Proof.Machine
open Sys2Proof
set_option Elab.async false

variable {F : Nat}

theorem off_MAN_STATUS_SAFETY_UNCONFIRMED (hF : Dj F 0x800000000) : Off F R.MAN_STATUS_SAFETY_UNCONFIRMED := off_at 3 hF rfl
theorem off_MAN_STATUS_FROM_STANDBY (hF : Dj F 0x800000000) : Off F R.MAN_STATUS_FROM_STANDBY := off_at 3 hF rfl
theorem off_MAN_STATUS_STAGING (hF : Dj F 0x800000000) : Off F R.MAN_STATUS_STAGING := off_at 3 hF rfl
theorem off_MAN_STATUS_LOADED (hF : Dj F 0x800000000) : Off F R.MAN_STATUS_LOADED := off_at 3 hF rfl
theorem off_MAN_STATUS_LOADED_SLOT (hF : Dj F 0x800000000) : Off F R.MAN_STATUS_LOADED_SLOT := off_at 3 hF rfl
theorem off_MAN_KEY_ID (hF : Dj F 0x800000000) : Off F R.MAN_KEY_ID := off_at 3 hF rfl
theorem off_MAN_ACTIVE_GEN (hF : Dj F 0x800000000) : Off F R.MAN_ACTIVE_GEN := off_at 3 hF rfl
theorem off_MAN_ACTIVE_EPOCH (hF : Dj F 0x800000000) : Off F R.MAN_ACTIVE_EPOCH := off_at 3 hF rfl
theorem off_MAN_SAFETY_CHECK (hF : Dj F 0x800000000) : Off F R.MAN_SAFETY_CHECK := off_at 3 hF rfl
theorem off_MAN_SAFETY_CONFIRMED (hF : Dj F 0x800000000) : Off F R.MAN_SAFETY_CONFIRMED := off_at 3 hF rfl
theorem off_MAN_BUILD_TIME_LO (hF : Dj F 0x800000000) : Off F R.MAN_BUILD_TIME_LO := off_at 3 hF rfl
theorem off_MAN_PATCH_STATUS_ABORT_LATE (hF : Dj F 0x800000000) : Off F R.MAN_PATCH_STATUS_ABORT_LATE := off_at 3 hF rfl
theorem off_MAN_PATCH_STATUS_STATE (hF : Dj F 0x800000000) : Off F R.MAN_PATCH_STATUS_STATE := off_at 3 hF rfl
theorem off_MAN_PATCH_TARGET_LO (hF : Dj F 0x800000000) : Off F R.MAN_PATCH_TARGET_LO := off_at 3 hF rfl
theorem off_MAN_PATCH_TICK_LO (hF : Dj F 0x800000000) : Off F R.MAN_PATCH_TICK_LO := off_at 3 hF rfl
theorem off_MAN_PATCH_LOG_USED (hF : Dj F 0x800000000) : Off F R.MAN_PATCH_LOG_USED := off_at 3 hF rfl
theorem off_MAN_PATCH_LOG_FREE (hF : Dj F 0x800000000) : Off F R.MAN_PATCH_LOG_FREE := off_at 3 hF rfl
theorem off_MAN_LOAD_ERROR_SECTION (hF : Dj F 0x800000000) : Off F R.MAN_LOAD_ERROR_SECTION := off_at 3 hF rfl
theorem off_MAN_LOAD_ERROR_CODE (hF : Dj F 0x800000000) : Off F R.MAN_LOAD_ERROR_CODE := off_at 3 hF rfl
theorem off_MAN_LOAD_ERROR_OFFSET (hF : Dj F 0x800000000) : Off F R.MAN_LOAD_ERROR_OFFSET := off_at 3 hF rfl
theorem off_MAN_SECTION_CHANGED (hF : Dj F 0x800000000) : Off F R.MAN_SECTION_CHANGED := off_at 3 hF rfl
theorem off_MAN_STAGE_LENGTH (hF : Dj F 0x800000000) : Off F R.MAN_STAGE_LENGTH := off_at 3 hF rfl
theorem off_MAN_STAGE_RECEIVED (hF : Dj F 0x800000000) : Off F R.MAN_STAGE_RECEIVED := off_at 3 hF rfl
theorem off_MAN_EVENT_STATUS_SAFETY_MISMATCH (hF : Dj F 0x800000000) : Off F R.MAN_EVENT_STATUS_SAFETY_MISMATCH := off_at 3 hF rfl
theorem off_MAN_EVENT_STATUS_PATCH_REFUSED (hF : Dj F 0x800000000) : Off F R.MAN_EVENT_STATUS_PATCH_REFUSED := off_at 3 hF rfl
theorem off_MAN_EVENT_STATUS_PATCH_APPLIED (hF : Dj F 0x800000000) : Off F R.MAN_EVENT_STATUS_PATCH_APPLIED := off_at 3 hF rfl
theorem off_MAN_EVENT_STATUS_LOAD_FAILED (hF : Dj F 0x800000000) : Off F R.MAN_EVENT_STATUS_LOAD_FAILED := off_at 3 hF rfl
theorem off_MAN_EVENT_STATUS_LOAD_VERIFIED (hF : Dj F 0x800000000) : Off F R.MAN_EVENT_STATUS_LOAD_VERIFIED := off_at 3 hF rfl
theorem off_MAN_PATCH_COUNT (hF : Dj F 0x800000000) : Off F R.MAN_PATCH_COUNT := off_at 3 hF rfl
theorem off_MAN_PATCH_REFUSED (hF : Dj F 0x800000000) : Off F R.MAN_PATCH_REFUSED := off_at 3 hF rfl
theorem off_MAN_SLOT_STATE {i} (hF : Dj F 0x800000000) : Off F (R.MAN_SLOT_STATE i) := off_inst 3 _ _ hF rfl
theorem off_MAN_SLOT_STATE_ERROR {i} (hF : Dj F 0x800000000) : Off F (R.MAN_SLOT_STATE_ERROR i) := off_inst 3 _ _ hF rfl
theorem off_MAN_SLOT_STATE_STATE {i} (hF : Dj F 0x800000000) : Off F (R.MAN_SLOT_STATE_STATE i) := off_inst 3 _ _ hF rfl
theorem off_MAN_SLOT_GEN {i} (hF : Dj F 0x800000000) : Off F (R.MAN_SLOT_GEN i) := off_inst 3 _ _ hF rfl
theorem off_MAN_SLOT_EPOCH {i} (hF : Dj F 0x800000000) : Off F (R.MAN_SLOT_EPOCH i) := off_inst 3 _ _ hF rfl
theorem off_MAN_SLOT_LENGTH {i} (hF : Dj F 0x800000000) : Off F (R.MAN_SLOT_LENGTH i) := off_inst 3 _ _ hF rfl
theorem off_MAN_SLOT_SAFETY {i} (hF : Dj F 0x800000000) : Off F (R.MAN_SLOT_SAFETY i) := off_inst 3 _ _ hF rfl
theorem off_PWR_STATE_BERTH_RESULT (hF : Dj F 0x200000000) : Off F R.PWR_STATE_BERTH_RESULT := off_at 1 hF rfl
theorem off_PWR_STATE_STATE (hF : Dj F 0x200000000) : Off F R.PWR_STATE_STATE := off_at 1 hF rfl
theorem off_PWR_GLIDE_STATUS (hF : Dj F 0x200000000) : Off F R.PWR_GLIDE_STATUS := off_at 1 hF rfl
theorem off_PWR_DOMAIN_LIVE (hF : Dj F 0x200000000) : Off F R.PWR_DOMAIN_LIVE := off_at 1 hF rfl
theorem off_PWR_DOMAIN_RESET_STATUS_RESULT (hF : Dj F 0x200000000) : Off F R.PWR_DOMAIN_RESET_STATUS_RESULT := off_at 1 hF rfl
theorem off_PWR_DOMAIN_RESET_STATUS_DOMAIN (hF : Dj F 0x200000000) : Off F R.PWR_DOMAIN_RESET_STATUS_DOMAIN := off_at 1 hF rfl
theorem off_PWR_DOMAIN_RESET_STATUS_BUSY (hF : Dj F 0x200000000) : Off F R.PWR_DOMAIN_RESET_STATUS_BUSY := off_at 1 hF rfl
theorem off_PWR_WAKE_LATCH (hF : Dj F 0x200000000) : Off F R.PWR_WAKE_LATCH := off_at 1 hF rfl
theorem off_PWR_WAKE_CAUSE (hF : Dj F 0x200000000) : Off F R.PWR_WAKE_CAUSE := off_at 1 hF rfl
theorem off_PWR_SUPPLY_STATUS_B_LOST (hF : Dj F 0x200000000) : Off F R.PWR_SUPPLY_STATUS_B_LOST := off_at 1 hF rfl
theorem off_PWR_SUPPLY_STATUS_A_LOST (hF : Dj F 0x200000000) : Off F R.PWR_SUPPLY_STATUS_A_LOST := off_at 1 hF rfl
theorem off_PWR_SUPPLY_STATUS_ON_BKP (hF : Dj F 0x200000000) : Off F R.PWR_SUPPLY_STATUS_ON_BKP := off_at 1 hF rfl
theorem off_PWR_SUPPLY_STATUS_BKP_GOOD (hF : Dj F 0x200000000) : Off F R.PWR_SUPPLY_STATUS_BKP_GOOD := off_at 1 hF rfl
theorem off_PWR_SUPPLY_STATUS_B_GOOD (hF : Dj F 0x200000000) : Off F R.PWR_SUPPLY_STATUS_B_GOOD := off_at 1 hF rfl
theorem off_PWR_SUPPLY_STATUS_A_GOOD (hF : Dj F 0x200000000) : Off F R.PWR_SUPPLY_STATUS_A_GOOD := off_at 1 hF rfl
theorem off_PWR_PLL_STATUS (hF : Dj F 0x200000000) : Off F R.PWR_PLL_STATUS := off_at 1 hF rfl
theorem off_PWR_TICK_LO (hF : Dj F 0x200000000) : Off F R.PWR_TICK_LO := off_at 1 hF rfl
theorem off_PWR_TICK_OFFSET (hF : Dj F 0x200000000) : Off F R.PWR_TICK_OFFSET := off_at 1 hF rfl
theorem off_PWR_PLANT_TIME_LO (hF : Dj F 0x200000000) : Off F R.PWR_PLANT_TIME_LO := off_at 1 hF rfl
theorem off_PWR_PLANT_TIME_STATUS_BACKWARD_STEP (hF : Dj F 0x200000000) : Off F R.PWR_PLANT_TIME_STATUS_BACKWARD_STEP := off_at 1 hF rfl
theorem off_PWR_PLANT_TIME_STATUS_STEPPED (hF : Dj F 0x200000000) : Off F R.PWR_PLANT_TIME_STATUS_STEPPED := off_at 1 hF rfl
theorem off_PWR_PLANT_TIME_STATUS_SLEWING (hF : Dj F 0x200000000) : Off F R.PWR_PLANT_TIME_STATUS_SLEWING := off_at 1 hF rfl
theorem off_PWR_PLANT_TIME_STATUS_STATE (hF : Dj F 0x200000000) : Off F R.PWR_PLANT_TIME_STATUS_STATE := off_at 1 hF rfl
theorem off_PWR_PLANT_TIME_SLEW (hF : Dj F 0x200000000) : Off F R.PWR_PLANT_TIME_SLEW := off_at 1 hF rfl
theorem off_PWR_OP_SECONDS (hF : Dj F 0x200000000) : Off F R.PWR_OP_SECONDS := off_at 1 hF rfl
theorem off_PWR_OP_MS (hF : Dj F 0x200000000) : Off F R.PWR_OP_MS := off_at 1 hF rfl
theorem off_PWR_POWER_CYCLES (hF : Dj F 0x200000000) : Off F R.PWR_POWER_CYCLES := off_at 1 hF rfl
theorem off_PWR_WATCHDOG_STATUS_RUNNING (hF : Dj F 0x200000000) : Off F R.PWR_WATCHDOG_STATUS_RUNNING := off_at 1 hF rfl
theorem off_PWR_WATCHDOG_STATUS_REMAINING_MS (hF : Dj F 0x200000000) : Off F R.PWR_WATCHDOG_STATUS_REMAINING_MS := off_at 1 hF rfl
theorem off_PWR_WATCHDOG_EXPIRIES (hF : Dj F 0x200000000) : Off F R.PWR_WATCHDOG_EXPIRIES := off_at 1 hF rfl
theorem off_PWR_THERMAL_STATUS_EVAC_OVERRIDE (hF : Dj F 0x200000000) : Off F R.PWR_THERMAL_STATUS_EVAC_OVERRIDE := off_at 1 hF rfl
theorem off_PWR_THERMAL_STATUS_STAGE (hF : Dj F 0x200000000) : Off F R.PWR_THERMAL_STATUS_STAGE := off_at 1 hF rfl
theorem off_PWR_DIE_TEMP_MAX (hF : Dj F 0x200000000) : Off F R.PWR_DIE_TEMP_MAX := off_at 1 hF rfl
theorem off_PWR_BASE_TEMP (hF : Dj F 0x200000000) : Off F R.PWR_BASE_TEMP := off_at 1 hF rfl
theorem off_PWR_DIE_TEMP_PEAK (hF : Dj F 0x200000000) : Off F R.PWR_DIE_TEMP_PEAK := off_at 1 hF rfl
theorem off_PWR_REDUCED_COUNT (hF : Dj F 0x200000000) : Off F R.PWR_REDUCED_COUNT := off_at 1 hF rfl
theorem off_PWR_LOOPS_ONLY_COUNT (hF : Dj F 0x200000000) : Off F R.PWR_LOOPS_ONLY_COUNT := off_at 1 hF rfl
theorem off_PWR_INPUT_A (hF : Dj F 0x200000000) : Off F R.PWR_INPUT_A := off_at 1 hF rfl
theorem off_PWR_INPUT_B (hF : Dj F 0x200000000) : Off F R.PWR_INPUT_B := off_at 1 hF rfl
theorem off_PWR_INPUT_BKP (hF : Dj F 0x200000000) : Off F R.PWR_INPUT_BKP := off_at 1 hF rfl
theorem off_PWR_POWER_NOW (hF : Dj F 0x200000000) : Off F R.PWR_POWER_NOW := off_at 1 hF rfl
theorem off_PWR_PEAK_SECONDS (hF : Dj F 0x200000000) : Off F R.PWR_PEAK_SECONDS := off_at 1 hF rfl
theorem off_PWR_EVENT_STATUS_HUNG_ACCESS (hF : Dj F 0x200000000) : Off F R.PWR_EVENT_STATUS_HUNG_ACCESS := off_at 1 hF rfl
theorem off_PWR_EVENT_STATUS_DOMAIN_RESET_DONE (hF : Dj F 0x200000000) : Off F R.PWR_EVENT_STATUS_DOMAIN_RESET_DONE := off_at 1 hF rfl
theorem off_PWR_EVENT_STATUS_SUPPLY_LOST (hF : Dj F 0x200000000) : Off F R.PWR_EVENT_STATUS_SUPPLY_LOST := off_at 1 hF rfl
theorem off_PWR_EVENT_STATUS_PLANT_TIME_STEP (hF : Dj F 0x200000000) : Off F R.PWR_EVENT_STATUS_PLANT_TIME_STEP := off_at 1 hF rfl
theorem off_PWR_EVENT_STATUS_THERMAL_STAGE (hF : Dj F 0x200000000) : Off F R.PWR_EVENT_STATUS_THERMAL_STAGE := off_at 1 hF rfl
theorem off_PWR_EVENT_STATUS_BERTH_RESULT (hF : Dj F 0x200000000) : Off F R.PWR_EVENT_STATUS_BERTH_RESULT := off_at 1 hF rfl
theorem off_PWR_EVENT_STATUS_GLIDE_LEFT (hF : Dj F 0x200000000) : Off F R.PWR_EVENT_STATUS_GLIDE_LEFT := off_at 1 hF rfl
theorem off_PWR_EVENT_STATUS_GLIDE_ENTERED (hF : Dj F 0x200000000) : Off F R.PWR_EVENT_STATUS_GLIDE_ENTERED := off_at 1 hF rfl
theorem off_PWR_GLIDE_ENTRIES (hF : Dj F 0x200000000) : Off F R.PWR_GLIDE_ENTRIES := off_at 1 hF rfl
theorem off_PWR_GLIDE_WAKES (hF : Dj F 0x200000000) : Off F R.PWR_GLIDE_WAKES := off_at 1 hF rfl
theorem off_PWR_GLIDE_SECONDS (hF : Dj F 0x200000000) : Off F R.PWR_GLIDE_SECONDS := off_at 1 hF rfl
theorem off_PWR_BERTH_ENTRIES (hF : Dj F 0x200000000) : Off F R.PWR_BERTH_ENTRIES := off_at 1 hF rfl
theorem off_PWR_HUNG_ACCESSES (hF : Dj F 0x200000000) : Off F R.PWR_HUNG_ACCESSES := off_at 1 hF rfl
theorem off_PWR_DOMAIN_STATUS_RESETS {i} (hF : Dj F 0x200000000) : Off F (R.PWR_DOMAIN_STATUS_RESETS i) := off_inst 1 _ _ hF rfl
theorem off_PWR_DOMAIN_STATUS_HUNG {i} (hF : Dj F 0x200000000) : Off F (R.PWR_DOMAIN_STATUS_HUNG i) := off_inst 1 _ _ hF rfl
theorem off_PWR_DOMAIN_STATUS_HELD {i} (hF : Dj F 0x200000000) : Off F (R.PWR_DOMAIN_STATUS_HELD i) := off_inst 1 _ _ hF rfl
theorem off_PWR_DOMAIN_STATUS_LIVE {i} (hF : Dj F 0x200000000) : Off F (R.PWR_DOMAIN_STATUS_LIVE i) := off_inst 1 _ _ hF rfl
theorem off_PWR_DIE_TEMP {i} (hF : Dj F 0x200000000) : Off F (R.PWR_DIE_TEMP i) := off_inst 1 _ _ hF rfl
theorem off_HQ_FENCE_EPOCH (hF : Dj F 0x1000000000) : Off F R.HQ_FENCE_EPOCH := off_at 4 hF rfl
theorem off_HQ_FENCE_INCOMPLETE (hF : Dj F 0x1000000000) : Off F R.HQ_FENCE_INCOMPLETE := off_at 4 hF rfl
theorem off_HQ_EVENT_STATUS_PROMOTION (hF : Dj F 0x1000000000) : Off F R.HQ_EVENT_STATUS_PROMOTION := off_at 4 hF rfl
theorem off_HQ_EVENT_STATUS_SESSION_CLOSED (hF : Dj F 0x1000000000) : Off F R.HQ_EVENT_STATUS_SESSION_CLOSED := off_at 4 hF rfl
theorem off_HQ_EVENT_STATUS_FENCE_INCOMPLETE (hF : Dj F 0x1000000000) : Off F R.HQ_EVENT_STATUS_FENCE_INCOMPLETE := off_at 4 hF rfl
theorem off_HQ_EVENT_STATUS_EVENTS_LOST (hF : Dj F 0x1000000000) : Off F R.HQ_EVENT_STATUS_EVENTS_LOST := off_at 4 hF rfl
theorem off_HQ_EVENT_STATUS_EQ_HIGH (hF : Dj F 0x1000000000) : Off F R.HQ_EVENT_STATUS_EQ_HIGH := off_at 4 hF rfl
theorem off_HQ_CQ_HIGH_WATER {i} (hF : Dj F 0x1000000000) : Off F (R.HQ_CQ_HIGH_WATER i) := off_inst 4 _ _ hF rfl
theorem off_HQ_CQ_ACCEPTED {i} (hF : Dj F 0x1000000000) : Off F (R.HQ_CQ_ACCEPTED i) := off_inst 4 _ _ hF rfl
theorem off_HQ_CQ_REFUSED {i} (hF : Dj F 0x1000000000) : Off F (R.HQ_CQ_REFUSED i) := off_inst 4 _ _ hF rfl
theorem off_HQ_CQ_PROMOTED {i} (hF : Dj F 0x1000000000) : Off F (R.HQ_CQ_PROMOTED i) := off_inst 4 _ _ hF rfl
theorem off_HQ_EQ_NEXT_SEQ {i} (hF : Dj F 0x1000000000) : Off F (R.HQ_EQ_NEXT_SEQ i) := off_inst 4 _ _ hF rfl
theorem off_HQ_EQ_ACKED_SEQ {i} (hF : Dj F 0x1000000000) : Off F (R.HQ_EQ_ACKED_SEQ i) := off_inst 4 _ _ hF rfl
theorem off_HQ_EQ_LOST {i} (hF : Dj F 0x1000000000) : Off F (R.HQ_EQ_LOST i) := off_inst 4 _ _ hF rfl
theorem off_XNG_RING_STATUS_STATE {i} (hF : Dj F 0x2000000000) : Off F (R.XNG_RING_STATUS_STATE i) := off_inst 5 _ _ hF rfl
theorem off_XNG_RING_STATUS_DEGRADED_RATE {i} (hF : Dj F 0x2000000000) : Off F (R.XNG_RING_STATUS_DEGRADED_RATE i) := off_inst 5 _ _ hF rfl
theorem off_XNG_RING_STATUS_GEN1_PRESENT {i} (hF : Dj F 0x2000000000) : Off F (R.XNG_RING_STATUS_GEN1_PRESENT i) := off_inst 5 _ _ hF rfl
theorem off_XNG_RING_STATUS_END_B_UP {i} (hF : Dj F 0x2000000000) : Off F (R.XNG_RING_STATUS_END_B_UP i) := off_inst 5 _ _ hF rfl
theorem off_XNG_RING_STATUS_END_A_UP {i} (hF : Dj F 0x2000000000) : Off F (R.XNG_RING_STATUS_END_A_UP i) := off_inst 5 _ _ hF rfl
theorem off_XNG_SPLIT {i} (hF : Dj F 0x2000000000) : Off F (R.XNG_SPLIT i) := off_inst 5 _ _ hF rfl
theorem off_XNG_GEN_SUMMARY_GEN1_HOPS {i} (hF : Dj F 0x2000000000) : Off F (R.XNG_GEN_SUMMARY_GEN1_HOPS i) := off_inst 5 _ _ hF rfl
theorem off_XNG_GEN_SUMMARY_HOPS_UP {i} (hF : Dj F 0x2000000000) : Off F (R.XNG_GEN_SUMMARY_HOPS_UP i) := off_inst 5 _ _ hF rfl
theorem off_XNG_BREAK_BREAK2 {i} (hF : Dj F 0x2000000000) : Off F (R.XNG_BREAK_BREAK2 i) := off_inst 5 _ _ hF rfl
theorem off_XNG_BREAK_BREAK1 {i} (hF : Dj F 0x2000000000) : Off F (R.XNG_BREAK_BREAK1 i) := off_inst 5 _ _ hF rfl
theorem off_XNG_RATE_FACTOR_FACTOR_B {i} (hF : Dj F 0x2000000000) : Off F (R.XNG_RATE_FACTOR_FACTOR_B i) := off_inst 5 _ _ hF rfl
theorem off_XNG_RATE_FACTOR_FACTOR_A {i} (hF : Dj F 0x2000000000) : Off F (R.XNG_RATE_FACTOR_FACTOR_A i) := off_inst 5 _ _ hF rfl
theorem off_XNG_LOAD_A {i} (hF : Dj F 0x2000000000) : Off F (R.XNG_LOAD_A i) := off_inst 5 _ _ hF rfl
theorem off_XNG_LOAD_B {i} (hF : Dj F 0x2000000000) : Off F (R.XNG_LOAD_B i) := off_inst 5 _ _ hF rfl
theorem off_XNG_UTIL_A {i} (hF : Dj F 0x2000000000) : Off F (R.XNG_UTIL_A i) := off_inst 5 _ _ hF rfl
theorem off_XNG_UTIL_B {i} (hF : Dj F 0x2000000000) : Off F (R.XNG_UTIL_B i) := off_inst 5 _ _ hF rfl
theorem off_XNG_TXN_NORES {i} (hF : Dj F 0x2000000000) : Off F (R.XNG_TXN_NORES i) := off_inst 5 _ _ hF rfl
theorem off_XNG_TXN_TIMEOUT {i} (hF : Dj F 0x2000000000) : Off F (R.XNG_TXN_TIMEOUT i) := off_inst 5 _ _ hF rfl
theorem off_XNG_TXN_RETRY {i} (hF : Dj F 0x2000000000) : Off F (R.XNG_TXN_RETRY i) := off_inst 5 _ _ hF rfl
theorem off_XNG_CRC_ERRORS {i} (hF : Dj F 0x2000000000) : Off F (R.XNG_CRC_ERRORS i) := off_inst 5 _ _ hF rfl
theorem off_XNG_FRAMES_DROPPED {i} (hF : Dj F 0x2000000000) : Off F (R.XNG_FRAMES_DROPPED i) := off_inst 5 _ _ hF rfl
theorem off_XNG_SWEEPS_LO {i} (hF : Dj F 0x2000000000) : Off F (R.XNG_SWEEPS_LO i) := off_inst 5 _ _ hF rfl
theorem off_XNG_SWEEPS_MISSED {i} (hF : Dj F 0x2000000000) : Off F (R.XNG_SWEEPS_MISSED i) := off_inst 5 _ _ hF rfl
theorem off_XNG_PROMOTIONS {i} (hF : Dj F 0x2000000000) : Off F (R.XNG_PROMOTIONS i) := off_inst 5 _ _ hF rfl
theorem off_XNG_BREAKS {i} (hF : Dj F 0x2000000000) : Off F (R.XNG_BREAKS i) := off_inst 5 _ _ hF rfl
theorem off_XNG_AUTH_FAILS {i} (hF : Dj F 0x2000000000) : Off F (R.XNG_AUTH_FAILS i) := off_inst 5 _ _ hF rfl
theorem off_XNG_SLEEP_STATUS_WAKE_LATCHED {i} (hF : Dj F 0x2000000000) : Off F (R.XNG_SLEEP_STATUS_WAKE_LATCHED i) := off_inst 5 _ _ hF rfl
theorem off_XNG_SLEEP_STATUS_LAST_ABORT {i} (hF : Dj F 0x2000000000) : Off F (R.XNG_SLEEP_STATUS_LAST_ABORT i) := off_inst 5 _ _ hF rfl
theorem off_XNG_SLEEP_STATUS_STATE {i} (hF : Dj F 0x2000000000) : Off F (R.XNG_SLEEP_STATUS_STATE i) := off_inst 5 _ _ hF rfl
theorem off_XNG_EVENT_STATUS_SLEEP_CHANGE {i} (hF : Dj F 0x2000000000) : Off F (R.XNG_EVENT_STATUS_SLEEP_CHANGE i) := off_inst 5 _ _ hF rfl
theorem off_XNG_EVENT_STATUS_HOP_FALLBACK {i} (hF : Dj F 0x2000000000) : Off F (R.XNG_EVENT_STATUS_HOP_FALLBACK i) := off_inst 5 _ _ hF rfl
theorem off_XNG_EVENT_STATUS_QUARANTINE {i} (hF : Dj F 0x2000000000) : Off F (R.XNG_EVENT_STATUS_QUARANTINE i) := off_inst 5 _ _ hF rfl
theorem off_XNG_EVENT_STATUS_NODE_LOST {i} (hF : Dj F 0x2000000000) : Off F (R.XNG_EVENT_STATUS_NODE_LOST i) := off_inst 5 _ _ hF rfl
theorem off_XNG_EVENT_STATUS_RATE_CHANGE {i} (hF : Dj F 0x2000000000) : Off F (R.XNG_EVENT_STATUS_RATE_CHANGE i) := off_inst 5 _ _ hF rfl
theorem off_XNG_EVENT_STATUS_RING_CHANGE {i} (hF : Dj F 0x2000000000) : Off F (R.XNG_EVENT_STATUS_RING_CHANGE i) := off_inst 5 _ _ hF rfl
theorem off_EST_STATUS_NO_CHECKED_PAIR (hF : Dj F 0x4000000000) : Off F R.EST_STATUS_NO_CHECKED_PAIR := off_at 6 hF rfl
theorem off_EST_STATUS_ROLLUP_STALE (hF : Dj F 0x4000000000) : Off F R.EST_STATUS_ROLLUP_STALE := off_at 6 hF rfl
theorem off_EST_STATUS_DEFAULTED (hF : Dj F 0x4000000000) : Off F R.EST_STATUS_DEFAULTED := off_at 6 hF rfl
theorem off_EST_STATUS_RESTORE_RUNNING (hF : Dj F 0x4000000000) : Off F R.EST_STATUS_RESTORE_RUNNING := off_at 6 hF rfl
theorem off_EST_STATUS_CKPT_RUNNING (hF : Dj F 0x4000000000) : Off F R.EST_STATUS_CKPT_RUNNING := off_at 6 hF rfl
theorem off_EST_STATUS_PAIRS (hF : Dj F 0x4000000000) : Off F R.EST_STATUS_PAIRS := off_at 6 hF rfl
theorem off_EST_STATUS_RUNNING (hF : Dj F 0x4000000000) : Off F R.EST_STATUS_RUNNING := off_at 6 hF rfl
theorem off_EST_CKPT_GEN (hF : Dj F 0x4000000000) : Off F R.EST_CKPT_GEN := off_at 6 hF rfl
theorem off_EST_CKPT_STATUS_CAUSE (hF : Dj F 0x4000000000) : Off F R.EST_CKPT_STATUS_CAUSE := off_at 6 hF rfl
theorem off_EST_CKPT_STATUS_INTACT (hF : Dj F 0x4000000000) : Off F R.EST_CKPT_STATUS_INTACT := off_at 6 hF rfl
theorem off_EST_CKPT_STATUS_NEWEST_SLOT (hF : Dj F 0x4000000000) : Off F R.EST_CKPT_STATUS_NEWEST_SLOT := off_at 6 hF rfl
theorem off_EST_CKPT_OPSEC (hF : Dj F 0x4000000000) : Off F R.EST_CKPT_OPSEC := off_at 6 hF rfl
theorem off_EST_RESTORE_STATUS_RESULT (hF : Dj F 0x4000000000) : Off F R.EST_RESTORE_STATUS_RESULT := off_at 6 hF rfl
theorem off_EST_RESTORE_STATUS_STAGED (hF : Dj F 0x4000000000) : Off F R.EST_RESTORE_STATUS_STAGED := off_at 6 hF rfl
theorem off_EST_UPDATES_LO (hF : Dj F 0x4000000000) : Off F R.EST_UPDATES_LO := off_at 6 hF rfl
theorem off_EST_UPDATE_RATE (hF : Dj F 0x4000000000) : Off F R.EST_UPDATE_RATE := off_at 6 hF rfl
theorem off_EST_LOAD (hF : Dj F 0x4000000000) : Off F R.EST_LOAD := off_at 6 hF rfl
theorem off_EST_MISMATCHES (hF : Dj F 0x4000000000) : Off F R.EST_MISMATCHES := off_at 6 hF rfl
theorem off_EST_RECOMPUTED (hF : Dj F 0x4000000000) : Off F R.EST_RECOMPUTED := off_at 6 hF rfl
theorem off_EST_SKIPPED (hF : Dj F 0x4000000000) : Off F R.EST_SKIPPED := off_at 6 hF rfl
theorem off_EST_OUTLIERS (hF : Dj F 0x4000000000) : Off F R.EST_OUTLIERS := off_at 6 hF rfl
theorem off_EST_RESETS (hF : Dj F 0x4000000000) : Off F R.EST_RESETS := off_at 6 hF rfl
theorem off_EST_ROLLUP_SEQ (hF : Dj F 0x4000000000) : Off F R.EST_ROLLUP_SEQ := off_at 6 hF rfl
theorem off_EST_ROLLUP_TICK_LO (hF : Dj F 0x4000000000) : Off F R.EST_ROLLUP_TICK_LO := off_at 6 hF rfl
theorem off_EST_PLANT_E_AVAIL (hF : Dj F 0x4000000000) : Off F R.EST_PLANT_E_AVAIL := off_at 6 hF rfl
theorem off_EST_PLANT_E_CONS (hF : Dj F 0x4000000000) : Off F R.EST_PLANT_E_CONS := off_at 6 hF rfl
theorem off_EST_PLANT_E_HELD (hF : Dj F 0x4000000000) : Off F R.EST_PLANT_E_HELD := off_at 6 hF rfl
theorem off_EST_PLANT_E_HEAD (hF : Dj F 0x4000000000) : Off F R.EST_PLANT_E_HEAD := off_at 6 hF rfl
theorem off_EST_PLANT_P_DIS (hF : Dj F 0x4000000000) : Off F R.EST_PLANT_P_DIS := off_at 6 hF rfl
theorem off_EST_PLANT_P_CHG (hF : Dj F 0x4000000000) : Off F R.EST_PLANT_P_CHG := off_at 6 hF rfl
theorem off_EST_EVENT_STATUS_INTAKE_OVERFLOW (hF : Dj F 0x4000000000) : Off F R.EST_EVENT_STATUS_INTAKE_OVERFLOW := off_at 6 hF rfl
theorem off_EST_EVENT_STATUS_NO_CHECKED_PAIR (hF : Dj F 0x4000000000) : Off F R.EST_EVENT_STATUS_NO_CHECKED_PAIR := off_at 6 hF rfl
theorem off_EST_EVENT_STATUS_PIPELINE_RETIRED (hF : Dj F 0x4000000000) : Off F R.EST_EVENT_STATUS_PIPELINE_RETIRED := off_at 6 hF rfl
theorem off_EST_EVENT_STATUS_RESTORE_DONE (hF : Dj F 0x4000000000) : Off F R.EST_EVENT_STATUS_RESTORE_DONE := off_at 6 hF rfl
theorem off_EST_EVENT_STATUS_CHECKPOINT_FAILED (hF : Dj F 0x4000000000) : Off F R.EST_EVENT_STATUS_CHECKPOINT_FAILED := off_at 6 hF rfl
theorem off_EST_EVENT_STATUS_CHECKPOINT_WRITTEN (hF : Dj F 0x4000000000) : Off F R.EST_EVENT_STATUS_CHECKPOINT_WRITTEN := off_at 6 hF rfl
theorem off_EST_EVENT_STATUS_SHORT_SUSPECT (hF : Dj F 0x4000000000) : Off F R.EST_EVENT_STATUS_SHORT_SUSPECT := off_at 6 hF rfl
theorem off_EST_PIPE_STATUS_FAULTS (hF : Dj F 0x4000000000) : Off F R.EST_PIPE_STATUS_FAULTS := off_at 6 hF rfl
theorem off_EST_ANCHORS (hF : Dj F 0x4000000000) : Off F R.EST_ANCHORS := off_at 6 hF rfl
theorem off_EST_BANK_E_AVAIL {i} (hF : Dj F 0x4000000000) : Off F (R.EST_BANK_E_AVAIL i) := off_inst 6 _ _ hF rfl
theorem off_EST_BANK_E_CONS {i} (hF : Dj F 0x4000000000) : Off F (R.EST_BANK_E_CONS i) := off_inst 6 _ _ hF rfl
theorem off_EST_BANK_P_DIS {i} (hF : Dj F 0x4000000000) : Off F (R.EST_BANK_P_DIS i) := off_inst 6 _ _ hF rfl
theorem off_EST_BANK_P_CHG {i} (hF : Dj F 0x4000000000) : Off F (R.EST_BANK_P_CHG i) := off_inst 6 _ _ hF rfl
theorem off_PLT_PROT_STATUS_LAYER1_ONLY (hF : Dj F 0x8000000000) : Off F R.PLT_PROT_STATUS_LAYER1_ONLY := off_at 7 hF rfl
theorem off_PLT_PROT_STATUS_TRIPS_DEFERRED (hF : Dj F 0x8000000000) : Off F R.PLT_PROT_STATUS_TRIPS_DEFERRED := off_at 7 hF rfl
theorem off_PLT_PROT_STATUS_BALANCING_STOPPED (hF : Dj F 0x8000000000) : Off F R.PLT_PROT_STATUS_BALANCING_STOPPED := off_at 7 hF rfl
theorem off_PLT_PROT_STATUS_RUNNING (hF : Dj F 0x8000000000) : Off F R.PLT_PROT_STATUS_RUNNING := off_at 7 hF rfl
theorem off_PLT_TRIPS (hF : Dj F 0x8000000000) : Off F R.PLT_TRIPS := off_at 7 hF rfl
theorem off_PLT_NODE_TRIPS (hF : Dj F 0x8000000000) : Off F R.PLT_NODE_TRIPS := off_at 7 hF rfl
theorem off_PLT_BREAKER_TRIPS (hF : Dj F 0x8000000000) : Off F R.PLT_BREAKER_TRIPS := off_at 7 hF rfl
theorem off_PLT_MISSING_MARKS (hF : Dj F 0x8000000000) : Off F R.PLT_MISSING_MARKS := off_at 7 hF rfl
theorem off_PLT_CLOSE_FAILS (hF : Dj F 0x8000000000) : Off F R.PLT_CLOSE_FAILS := off_at 7 hF rfl
theorem off_PLT_BALANCE_AH (hF : Dj F 0x8000000000) : Off F R.PLT_BALANCE_AH := off_at 7 hF rfl
theorem off_PLT_PROT_EVENT_STATUS_THERMAL_FAULT (hF : Dj F 0x8000000000) : Off F R.PLT_PROT_EVENT_STATUS_THERMAL_FAULT := off_at 7 hF rfl
theorem off_PLT_PROT_EVENT_STATUS_FIRE_INTERLOCK (hF : Dj F 0x8000000000) : Off F R.PLT_PROT_EVENT_STATUS_FIRE_INTERLOCK := off_at 7 hF rfl
theorem off_PLT_PROT_EVENT_STATUS_BREAKER_TRIPPED (hF : Dj F 0x8000000000) : Off F R.PLT_PROT_EVENT_STATUS_BREAKER_TRIPPED := off_at 7 hF rfl
theorem off_PLT_PROT_EVENT_STATUS_STRING_MISSING (hF : Dj F 0x8000000000) : Off F R.PLT_PROT_EVENT_STATUS_STRING_MISSING := off_at 7 hF rfl
theorem off_PLT_PROT_EVENT_STATUS_NODE_LIMIT_TRIP (hF : Dj F 0x8000000000) : Off F R.PLT_PROT_EVENT_STATUS_NODE_LIMIT_TRIP := off_at 7 hF rfl
theorem off_PLT_PROT_EVENT_STATUS_STRING_TRIPPED (hF : Dj F 0x8000000000) : Off F R.PLT_PROT_EVENT_STATUS_STRING_TRIPPED := off_at 7 hF rfl
theorem off_PLT_DISP_STATUS_RESERVE_UNKNOWN (hF : Dj F 0x8000000000) : Off F R.PLT_DISP_STATUS_RESERVE_UNKNOWN := off_at 7 hF rfl
theorem off_PLT_DISP_STATUS_RESERVE_POWER_SHORT (hF : Dj F 0x8000000000) : Off F R.PLT_DISP_STATUS_RESERVE_POWER_SHORT := off_at 7 hF rfl
theorem off_PLT_DISP_STATUS_RECHARGE (hF : Dj F 0x8000000000) : Off F R.PLT_DISP_STATUS_RECHARGE := off_at 7 hF rfl
theorem off_PLT_DISP_STATUS_SOURCE_FALLBACK (hF : Dj F 0x8000000000) : Off F R.PLT_DISP_STATUS_SOURCE_FALLBACK := off_at 7 hF rfl
theorem off_PLT_DISP_STATUS_STALE (hF : Dj F 0x8000000000) : Off F R.PLT_DISP_STATUS_STALE := off_at 7 hF rfl
theorem off_PLT_DISP_STATUS_MODE (hF : Dj F 0x8000000000) : Off F R.PLT_DISP_STATUS_MODE := off_at 7 hF rfl
theorem off_PLT_DISP_STATUS_RUNNING (hF : Dj F 0x8000000000) : Off F R.PLT_DISP_STATUS_RUNNING := off_at 7 hF rfl
theorem off_PLT_SOURCE_SELECT_IN_USE (hF : Dj F 0x8000000000) : Off F R.PLT_SOURCE_SELECT_IN_USE := off_at 7 hF rfl
theorem off_PLT_SOURCE_SELECT_SELECTED (hF : Dj F 0x8000000000) : Off F R.PLT_SOURCE_SELECT_SELECTED := off_at 7 hF rfl
theorem off_PLT_SOURCE_VALUE (hF : Dj F 0x8000000000) : Off F R.PLT_SOURCE_VALUE := off_at 7 hF rfl
theorem off_PLT_SETPOINT (hF : Dj F 0x8000000000) : Off F R.PLT_SETPOINT := off_at 7 hF rfl
theorem off_PLT_UPPER_BOUND (hF : Dj F 0x8000000000) : Off F R.PLT_UPPER_BOUND := off_at 7 hF rfl
theorem off_PLT_LOWER_BOUND (hF : Dj F 0x8000000000) : Off F R.PLT_LOWER_BOUND := off_at 7 hF rfl
theorem off_PLT_LIMIT_CAUSE_UPPER (hF : Dj F 0x8000000000) : Off F R.PLT_LIMIT_CAUSE_UPPER := off_at 7 hF rfl
theorem off_PLT_LIMIT_CAUSE_LOWER (hF : Dj F 0x8000000000) : Off F R.PLT_LIMIT_CAUSE_LOWER := off_at 7 hF rfl
theorem off_PLT_HOST_EXPORT_MAX (hF : Dj F 0x8000000000) : Off F R.PLT_HOST_EXPORT_MAX := off_at 7 hF rfl
theorem off_PLT_HOST_IMPORT_MAX (hF : Dj F 0x8000000000) : Off F R.PLT_HOST_IMPORT_MAX := off_at 7 hF rfl
theorem off_PLT_RAMP_RATE (hF : Dj F 0x8000000000) : Off F R.PLT_RAMP_RATE := off_at 7 hF rfl
theorem off_PLT_MEASURED_POWER (hF : Dj F 0x8000000000) : Off F R.PLT_MEASURED_POWER := off_at 7 hF rfl
theorem off_PLT_GRID_FREQ (hF : Dj F 0x8000000000) : Off F R.PLT_GRID_FREQ := off_at 7 hF rfl
theorem off_PLT_RESERVE_REQUIRED (hF : Dj F 0x8000000000) : Off F R.PLT_RESERVE_REQUIRED := off_at 7 hF rfl
theorem off_PLT_RESERVE_AVAILABLE (hF : Dj F 0x8000000000) : Off F R.PLT_RESERVE_AVAILABLE := off_at 7 hF rfl
theorem off_PLT_RESERVE_MARGIN (hF : Dj F 0x8000000000) : Off F R.PLT_RESERVE_MARGIN := off_at 7 hF rfl
theorem off_PLT_RESERVE_LIGHTING (hF : Dj F 0x8000000000) : Off F R.PLT_RESERVE_LIGHTING := off_at 7 hF rfl
theorem off_PLT_RESERVE_LIFTS (hF : Dj F 0x8000000000) : Off F R.PLT_RESERVE_LIFTS := off_at 7 hF rfl
theorem off_PLT_TRIP_ENERGY (hF : Dj F 0x8000000000) : Off F R.PLT_TRIP_ENERGY := off_at 7 hF rfl
theorem off_PLT_EVAC_STATUS_ALARM_HOLD (hF : Dj F 0x8000000000) : Off F R.PLT_EVAC_STATUS_ALARM_HOLD := off_at 7 hF rfl
theorem off_PLT_EVAC_STATUS_SHEDDING (hF : Dj F 0x8000000000) : Off F R.PLT_EVAC_STATUS_SHEDDING := off_at 7 hF rfl
theorem off_PLT_EVAC_STATUS_FIRE_ALARM (hF : Dj F 0x8000000000) : Off F R.PLT_EVAC_STATUS_FIRE_ALARM := off_at 7 hF rfl
theorem off_PLT_EVAC_STATUS_MAINS_LOST (hF : Dj F 0x8000000000) : Off F R.PLT_EVAC_STATUS_MAINS_LOST := off_at 7 hF rfl
theorem off_PLT_EVAC_STATUS_EVACUATION (hF : Dj F 0x8000000000) : Off F R.PLT_EVAC_STATUS_EVACUATION := off_at 7 hF rfl
theorem off_PLT_ISLAND_LIMIT (hF : Dj F 0x8000000000) : Off F R.PLT_ISLAND_LIMIT := off_at 7 hF rfl
theorem off_PLT_LIFT_POWER_LIMIT (hF : Dj F 0x8000000000) : Off F R.PLT_LIFT_POWER_LIMIT := off_at 7 hF rfl
theorem off_PLT_PCS_LIVE_LO (hF : Dj F 0x8000000000) : Off F R.PLT_PCS_LIVE_LO := off_at 7 hF rfl
theorem off_PLT_PCS_LIVE_HI (hF : Dj F 0x8000000000) : Off F R.PLT_PCS_LIVE_HI := off_at 7 hF rfl
theorem off_PLT_SCHEDULE_DEPTH (hF : Dj F 0x8000000000) : Off F R.PLT_SCHEDULE_DEPTH := off_at 7 hF rfl
theorem off_PLT_BILL_SEQ (hF : Dj F 0x8000000000) : Off F R.PLT_BILL_SEQ := off_at 7 hF rfl
theorem off_PLT_BILL_IMPORT (hF : Dj F 0x8000000000) : Off F R.PLT_BILL_IMPORT := off_at 7 hF rfl
theorem off_PLT_BILL_EXPORT (hF : Dj F 0x8000000000) : Off F R.PLT_BILL_EXPORT := off_at 7 hF rfl
theorem off_PLT_BILL_FLAGS (hF : Dj F 0x8000000000) : Off F R.PLT_BILL_FLAGS := off_at 7 hF rfl
theorem off_PLT_DISP_EVENT_STATUS_PCS_CHANGE (hF : Dj F 0x8000000000) : Off F R.PLT_DISP_EVENT_STATUS_PCS_CHANGE := off_at 7 hF rfl
theorem off_PLT_DISP_EVENT_STATUS_MODE_CHANGE (hF : Dj F 0x8000000000) : Off F R.PLT_DISP_EVENT_STATUS_MODE_CHANGE := off_at 7 hF rfl
theorem off_PLT_DISP_EVENT_STATUS_RESERVE_BREACHED (hF : Dj F 0x8000000000) : Off F R.PLT_DISP_EVENT_STATUS_RESERVE_BREACHED := off_at 7 hF rfl
theorem off_PLT_DISP_EVENT_STATUS_RESERVE_LOW (hF : Dj F 0x8000000000) : Off F R.PLT_DISP_EVENT_STATUS_RESERVE_LOW := off_at 7 hF rfl
theorem off_PLT_DISP_EVENT_STATUS_SOURCE_FALLBACK (hF : Dj F 0x8000000000) : Off F R.PLT_DISP_EVENT_STATUS_SOURCE_FALLBACK := off_at 7 hF rfl
theorem off_PLT_DISP_EVENT_STATUS_STALE (hF : Dj F 0x8000000000) : Off F R.PLT_DISP_EVENT_STATUS_STALE := off_at 7 hF rfl
theorem off_PLT_PCS_STATUS_STATE {i} (hF : Dj F 0x8000000000) : Off F (R.PLT_PCS_STATUS_STATE i) := off_inst 7 _ _ hF rfl
theorem off_PLT_PCS_STATUS_GRID_PRESENT {i} (hF : Dj F 0x8000000000) : Off F (R.PLT_PCS_STATUS_GRID_PRESENT i) := off_inst 7 _ _ hF rfl
theorem off_PLT_PCS_STATUS_ISLAND {i} (hF : Dj F 0x8000000000) : Off F (R.PLT_PCS_STATUS_ISLAND i) := off_inst 7 _ _ hF rfl
theorem off_PLT_PCS_STATUS_FLOOR {i} (hF : Dj F 0x8000000000) : Off F (R.PLT_PCS_STATUS_FLOOR i) := off_inst 7 _ _ hF rfl
theorem off_PLT_PCS_STATUS_CEILING {i} (hF : Dj F 0x8000000000) : Off F (R.PLT_PCS_STATUS_CEILING i) := off_inst 7 _ _ hF rfl
theorem off_PLT_PCS_STATUS_LATE {i} (hF : Dj F 0x8000000000) : Off F (R.PLT_PCS_STATUS_LATE i) := off_inst 7 _ _ hF rfl
theorem off_PLT_PCS_STATUS_FAULT {i} (hF : Dj F 0x8000000000) : Off F (R.PLT_PCS_STATUS_FAULT i) := off_inst 7 _ _ hF rfl
theorem off_PLT_PCS_STATUS_POWER {i} (hF : Dj F 0x8000000000) : Off F (R.PLT_PCS_STATUS_POWER i) := off_inst 7 _ _ hF rfl
theorem off_LOOP_STATUS_ENGINE (hF : Dj F 0x10000000000) : Off F R.LOOP_STATUS_ENGINE := off_at 8 hF rfl
theorem off_LOOP_STATUS_REBUILDING (hF : Dj F 0x10000000000) : Off F R.LOOP_STATUS_REBUILDING := off_at 8 hF rfl
theorem off_LOOP_STATUS_GLIDE_SCHEDULE (hF : Dj F 0x10000000000) : Off F R.LOOP_STATUS_GLIDE_SCHEDULE := off_at 8 hF rfl
theorem off_LOOP_LANE_STATUS_LANE_C (hF : Dj F 0x10000000000) : Off F R.LOOP_LANE_STATUS_LANE_C := off_at 8 hF rfl
theorem off_LOOP_LANE_STATUS_LANE_B (hF : Dj F 0x10000000000) : Off F R.LOOP_LANE_STATUS_LANE_B := off_at 8 hF rfl
theorem off_LOOP_LANE_STATUS_LANE_A (hF : Dj F 0x10000000000) : Off F R.LOOP_LANE_STATUS_LANE_A := off_at 8 hF rfl
theorem off_LOOP_TICK_LENGTH (hF : Dj F 0x10000000000) : Off F R.LOOP_TICK_LENGTH := off_at 8 hF rfl
theorem off_LOOP_SYNC_STATUS_PERIOD (hF : Dj F 0x10000000000) : Off F R.LOOP_SYNC_STATUS_PERIOD := off_at 8 hF rfl
theorem off_LOOP_SYNC_STATUS_MISSED_RUN (hF : Dj F 0x10000000000) : Off F R.LOOP_SYNC_STATUS_MISSED_RUN := off_at 8 hF rfl
theorem off_LOOP_SYNC_STATUS_EARLY_RUN (hF : Dj F 0x10000000000) : Off F R.LOOP_SYNC_STATUS_EARLY_RUN := off_at 8 hF rfl
theorem off_LOOP_SYNC_STATUS_STATE (hF : Dj F 0x10000000000) : Off F R.LOOP_SYNC_STATUS_STATE := off_at 8 hF rfl
theorem off_LOOP_SYNC_EARLY (hF : Dj F 0x10000000000) : Off F R.LOOP_SYNC_EARLY := off_at 8 hF rfl
theorem off_LOOP_SYNC_MISSED (hF : Dj F 0x10000000000) : Off F R.LOOP_SYNC_MISSED := off_at 8 hF rfl
theorem off_LOOP_LANE_MISMATCHES (hF : Dj F 0x10000000000) : Off F R.LOOP_LANE_MISMATCHES := off_at 8 hF rfl
theorem off_LOOP_REBUILDS (hF : Dj F 0x10000000000) : Off F R.LOOP_REBUILDS := off_at 8 hF rfl
theorem off_LOOP_FAULTS (hF : Dj F 0x10000000000) : Off F R.LOOP_FAULTS := off_at 8 hF rfl
theorem off_LOOP_NONFINITE (hF : Dj F 0x10000000000) : Off F R.LOOP_NONFINITE := off_at 8 hF rfl
theorem off_LOOP_FAULT_INFO_CAUSE (hF : Dj F 0x10000000000) : Off F R.LOOP_FAULT_INFO_CAUSE := off_at 8 hF rfl
theorem off_LOOP_FAULT_INFO_LANES (hF : Dj F 0x10000000000) : Off F R.LOOP_FAULT_INFO_LANES := off_at 8 hF rfl
theorem off_LOOP_FAULT_INFO_SLOT (hF : Dj F 0x10000000000) : Off F R.LOOP_FAULT_INFO_SLOT := off_at 8 hF rfl
theorem off_LOOP_SLOTS_FAULTED (hF : Dj F 0x10000000000) : Off F R.LOOP_SLOTS_FAULTED := off_at 8 hF rfl
theorem off_LOOP_SIG_WRITE_STATUS_RESULT (hF : Dj F 0x10000000000) : Off F R.LOOP_SIG_WRITE_STATUS_RESULT := off_at 8 hF rfl
theorem off_LOOP_SIG_WRITE_STATUS_PENDING (hF : Dj F 0x10000000000) : Off F R.LOOP_SIG_WRITE_STATUS_PENDING := off_at 8 hF rfl
theorem off_LOOP_HOST_WRITES (hF : Dj F 0x10000000000) : Off F R.LOOP_HOST_WRITES := off_at 8 hF rfl
theorem off_LOOP_HOST_REFUSED (hF : Dj F 0x10000000000) : Off F R.LOOP_HOST_REFUSED := off_at 8 hF rfl
theorem off_LOOP_WINDOW_TICK_LO (hF : Dj F 0x10000000000) : Off F R.LOOP_WINDOW_TICK_LO := off_at 8 hF rfl
theorem off_LOOP_PARKED_GROUPS (hF : Dj F 0x10000000000) : Off F R.LOOP_PARKED_GROUPS := off_at 8 hF rfl
theorem off_LOOP_EVENT_STATUS_HOST_WRITE_REFUSED (hF : Dj F 0x10000000000) : Off F R.LOOP_EVENT_STATUS_HOST_WRITE_REFUSED := off_at 8 hF rfl
theorem off_LOOP_EVENT_STATUS_HALTED (hF : Dj F 0x10000000000) : Off F R.LOOP_EVENT_STATUS_HALTED := off_at 8 hF rfl
theorem off_LOOP_EVENT_STATUS_SYNC_CHANGE (hF : Dj F 0x10000000000) : Off F R.LOOP_EVENT_STATUS_SYNC_CHANGE := off_at 8 hF rfl
theorem off_LOOP_EVENT_STATUS_SLOT_PARKED (hF : Dj F 0x10000000000) : Off F R.LOOP_EVENT_STATUS_SLOT_PARKED := off_at 8 hF rfl
theorem off_LOOP_EVENT_STATUS_NONFINITE (hF : Dj F 0x10000000000) : Off F R.LOOP_EVENT_STATUS_NONFINITE := off_at 8 hF rfl
theorem off_LOOP_EVENT_STATUS_LOOP_FAULT (hF : Dj F 0x10000000000) : Off F R.LOOP_EVENT_STATUS_LOOP_FAULT := off_at 8 hF rfl
theorem off_LOOP_EVENT_STATUS_LANE_RETIRED (hF : Dj F 0x10000000000) : Off F R.LOOP_EVENT_STATUS_LANE_RETIRED := off_at 8 hF rfl
theorem off_LOOP_EVENT_STATUS_LANE_MISMATCH (hF : Dj F 0x10000000000) : Off F R.LOOP_EVENT_STATUS_LANE_MISMATCH := off_at 8 hF rfl
theorem off_LOOP_STAGED_OVERWRITTEN (hF : Dj F 0x10000000000) : Off F R.LOOP_STAGED_OVERWRITTEN := off_at 8 hF rfl
theorem off_LOOP_GROUP_STATUS_PARKED_FAULT {i} (hF : Dj F 0x10000000000) : Off F (R.LOOP_GROUP_STATUS_PARKED_FAULT i) := off_inst 8 _ _ hF rfl
theorem off_LOOP_GROUP_STATUS_PARKED_STATE {i} (hF : Dj F 0x10000000000) : Off F (R.LOOP_GROUP_STATUS_PARKED_STATE i) := off_inst 8 _ _ hF rfl
theorem off_LOOP_GROUP_LATCHES {i} (hF : Dj F 0x10000000000) : Off F (R.LOOP_GROUP_LATCHES i) := off_inst 8 _ _ hF rfl
theorem off_PWM_STATUS_LIVE (hF : Dj F 0x20000000000) : Off F R.PWM_STATUS_LIVE := off_at 9 hF rfl
theorem off_PWM_STATUS_SWITCHING (hF : Dj F 0x20000000000) : Off F R.PWM_STATUS_SWITCHING := off_at 9 hF rfl
theorem off_PWM_FAULT_STATUS_ACTIVE (hF : Dj F 0x20000000000) : Off F R.PWM_FAULT_STATUS_ACTIVE := off_at 9 hF rfl
theorem off_PWM_FAULT_STATUS_LATCHED (hF : Dj F 0x20000000000) : Off F R.PWM_FAULT_STATUS_LATCHED := off_at 9 hF rfl
theorem off_PWM_FAULT_PAIRS (hF : Dj F 0x20000000000) : Off F R.PWM_FAULT_PAIRS := off_at 9 hF rfl
theorem off_PWM_FAULT_COUNT (hF : Dj F 0x20000000000) : Off F R.PWM_FAULT_COUNT := off_at 9 hF rfl
theorem off_PWM_EVENT_STATUS_PAIR_OFF (hF : Dj F 0x20000000000) : Off F R.PWM_EVENT_STATUS_PAIR_OFF := off_at 9 hF rfl
theorem off_PWM_EVENT_STATUS_FAULT_INPUT (hF : Dj F 0x20000000000) : Off F R.PWM_EVENT_STATUS_FAULT_INPUT := off_at 9 hF rfl
theorem off_PWM_PAIR_COMPARE {i} (hF : Dj F 0x20000000000) : Off F (R.PWM_PAIR_COMPARE i) := off_inst 9 _ _ hF rfl
theorem off_PWM_PAIR_STATUS_STATE {i} (hF : Dj F 0x20000000000) : Off F (R.PWM_PAIR_STATUS_STATE i) := off_inst 9 _ _ hF rfl
theorem off_PWM_PAIR_STATUS_PULSES_OMITTED {i} (hF : Dj F 0x20000000000) : Off F (R.PWM_PAIR_STATUS_PULSES_OMITTED i) := off_inst 9 _ _ hF rfl
theorem off_GRP_STATUS_FIRE_RECALL (hF : Dj F 0x40000000000) : Off F R.GRP_STATUS_FIRE_RECALL := off_at 10 hF rfl
theorem off_GRP_STATUS_RESERVE_UNKNOWN (hF : Dj F 0x40000000000) : Off F R.GRP_STATUS_RESERVE_UNKNOWN := off_at 10 hF rfl
theorem off_GRP_STATUS_RESERVE_LIMITED (hF : Dj F 0x40000000000) : Off F R.GRP_STATUS_RESERVE_LIMITED := off_at 10 hF rfl
theorem off_GRP_STATUS_STOPPED_THERMAL (hF : Dj F 0x40000000000) : Off F R.GRP_STATUS_STOPPED_THERMAL := off_at 10 hF rfl
theorem off_GRP_STATUS_MODE (hF : Dj F 0x40000000000) : Off F R.GRP_STATUS_MODE := off_at 10 hF rfl
theorem off_GRP_PATTERN_IN_FORCE (hF : Dj F 0x40000000000) : Off F R.GRP_PATTERN_IN_FORCE := off_at 10 hF rfl
theorem off_GRP_CALLS_REGISTERED_CAR (hF : Dj F 0x40000000000) : Off F R.GRP_CALLS_REGISTERED_CAR := off_at 10 hF rfl
theorem off_GRP_CALLS_REGISTERED_LANDING (hF : Dj F 0x40000000000) : Off F R.GRP_CALLS_REGISTERED_LANDING := off_at 10 hF rfl
theorem off_GRP_CALLS_ASSIGNED (hF : Dj F 0x40000000000) : Off F R.GRP_CALLS_ASSIGNED := off_at 10 hF rfl
theorem off_GRP_CALLS_REFUSED (hF : Dj F 0x40000000000) : Off F R.GRP_CALLS_REFUSED := off_at 10 hF rfl
theorem off_GRP_REASSIGNMENTS (hF : Dj F 0x40000000000) : Off F R.GRP_REASSIGNMENTS := off_at 10 hF rfl
theorem off_GRP_ENERGY_COMMITTED (hF : Dj F 0x40000000000) : Off F R.GRP_ENERGY_COMMITTED := off_at 10 hF rfl
theorem off_GRP_RESERVE_HEADROOM (hF : Dj F 0x40000000000) : Off F R.GRP_RESERVE_HEADROOM := off_at 10 hF rfl
theorem off_GRP_AVG_WAIT (hF : Dj F 0x40000000000) : Off F R.GRP_AVG_WAIT := off_at 10 hF rfl
theorem off_GRP_EVAC_STATUS_CARS_MOVING (hF : Dj F 0x40000000000) : Off F R.GRP_EVAC_STATUS_CARS_MOVING := off_at 10 hF rfl
theorem off_GRP_EVAC_STATUS_CARS_WAITING (hF : Dj F 0x40000000000) : Off F R.GRP_EVAC_STATUS_CARS_WAITING := off_at 10 hF rfl
theorem off_GRP_EVAC_STATUS_CALLS_RAISED (hF : Dj F 0x40000000000) : Off F R.GRP_EVAC_STATUS_CALLS_RAISED := off_at 10 hF rfl
theorem off_GRP_EVAC_TRIPS (hF : Dj F 0x40000000000) : Off F R.GRP_EVAC_TRIPS := off_at 10 hF rfl
theorem off_GRP_FIXTURES_ONLINE (hF : Dj F 0x40000000000) : Off F R.GRP_FIXTURES_ONLINE := off_at 10 hF rfl
theorem off_GRP_FIXTURES_FAULT_STUCK (hF : Dj F 0x40000000000) : Off F R.GRP_FIXTURES_FAULT_STUCK := off_at 10 hF rfl
theorem off_GRP_FIXTURES_FAULT_LOST (hF : Dj F 0x40000000000) : Off F R.GRP_FIXTURES_FAULT_LOST := off_at 10 hF rfl
theorem off_GRP_EVENT_STATUS_EVAC_DESIGN (hF : Dj F 0x40000000000) : Off F R.GRP_EVENT_STATUS_EVAC_DESIGN := off_at 10 hF rfl
theorem off_GRP_EVENT_STATUS_FIXTURE_FAULT (hF : Dj F 0x40000000000) : Off F R.GRP_EVENT_STATUS_FIXTURE_FAULT := off_at 10 hF rfl
theorem off_GRP_EVENT_STATUS_CAR_SERVICE (hF : Dj F 0x40000000000) : Off F R.GRP_EVENT_STATUS_CAR_SERVICE := off_at 10 hF rfl
theorem off_GRP_EVENT_STATUS_STRANDED (hF : Dj F 0x40000000000) : Off F R.GRP_EVENT_STATUS_STRANDED := off_at 10 hF rfl
theorem off_GRP_EVENT_STATUS_REFUSED (hF : Dj F 0x40000000000) : Off F R.GRP_EVENT_STATUS_REFUSED := off_at 10 hF rfl
theorem off_GRP_CAR_STATE_STATE {i} (hF : Dj F 0x40000000000) : Off F (R.GRP_CAR_STATE_STATE i) := off_inst 10 _ _ hF rfl
theorem off_GRP_CAR_STATE_DIRECTION {i} (hF : Dj F 0x40000000000) : Off F (R.GRP_CAR_STATE_DIRECTION i) := off_inst 10 _ _ hF rfl
theorem off_GRP_CAR_STATE_FULL_LOAD {i} (hF : Dj F 0x40000000000) : Off F (R.GRP_CAR_STATE_FULL_LOAD i) := off_inst 10 _ _ hF rfl
theorem off_GRP_CAR_STATE_COMMITTED {i} (hF : Dj F 0x40000000000) : Off F (R.GRP_CAR_STATE_COMMITTED i) := off_inst 10 _ _ hF rfl
theorem off_GRP_CAR_STATE_LOAD {i} (hF : Dj F 0x40000000000) : Off F (R.GRP_CAR_STATE_LOAD i) := off_inst 10 _ _ hF rfl
theorem off_GRP_CAR_NEXT_POSITION {i} (hF : Dj F 0x40000000000) : Off F (R.GRP_CAR_NEXT_POSITION i) := off_inst 10 _ _ hF rfl
theorem off_GRP_CAR_NEXT_VALID {i} (hF : Dj F 0x40000000000) : Off F (R.GRP_CAR_NEXT_VALID i) := off_inst 10 _ _ hF rfl
theorem off_GRP_CAR_NEXT_NEXT {i} (hF : Dj F 0x40000000000) : Off F (R.GRP_CAR_NEXT_NEXT i) := off_inst 10 _ _ hF rfl
theorem off_GRP_CAR_CALLS_CAR {i} (hF : Dj F 0x40000000000) : Off F (R.GRP_CAR_CALLS_CAR i) := off_inst 10 _ _ hF rfl
theorem off_GRP_CAR_CALLS_LANDING {i} (hF : Dj F 0x40000000000) : Off F (R.GRP_CAR_CALLS_LANDING i) := off_inst 10 _ _ hF rfl
theorem off_GRP_CAR_ENERGY {i} (hF : Dj F 0x40000000000) : Off F (R.GRP_CAR_ENERGY i) := off_inst 10 _ _ hF rfl
theorem off_CAR_STATUS_STATE {i} (hF : Dj F 0x80000000000) : Off F (R.CAR_STATUS_STATE i) := off_inst 11 _ _ hF rfl
theorem off_CAR_STATUS_DIRECTION {i} (hF : Dj F 0x80000000000) : Off F (R.CAR_STATUS_DIRECTION i) := off_inst 11 _ _ hF rfl
theorem off_CAR_STATUS_COMMITTED {i} (hF : Dj F 0x80000000000) : Off F (R.CAR_STATUS_COMMITTED i) := off_inst 11 _ _ hF rfl
theorem off_CAR_STATUS_IN_DOOR_ZONE {i} (hF : Dj F 0x80000000000) : Off F (R.CAR_STATUS_IN_DOOR_ZONE i) := off_inst 11 _ _ hF rfl
theorem off_CAR_STATUS_LEVEL {i} (hF : Dj F 0x80000000000) : Off F (R.CAR_STATUS_LEVEL i) := off_inst 11 _ _ hF rfl
theorem off_CAR_STATUS_LIMIT_CAUSE {i} (hF : Dj F 0x80000000000) : Off F (R.CAR_STATUS_LIMIT_CAUSE i) := off_inst 11 _ _ hF rfl
theorem off_CAR_STATUS_LANDING {i} (hF : Dj F 0x80000000000) : Off F (R.CAR_STATUS_LANDING i) := off_inst 11 _ _ hF rfl
theorem off_CAR_NEXT_STOP_VALID {i} (hF : Dj F 0x80000000000) : Off F (R.CAR_NEXT_STOP_VALID i) := off_inst 11 _ _ hF rfl
theorem off_CAR_NEXT_STOP_ENTRANCE {i} (hF : Dj F 0x80000000000) : Off F (R.CAR_NEXT_STOP_ENTRANCE i) := off_inst 11 _ _ hF rfl
theorem off_CAR_NEXT_STOP_LANDING {i} (hF : Dj F 0x80000000000) : Off F (R.CAR_NEXT_STOP_LANDING i) := off_inst 11 _ _ hF rfl
theorem off_CAR_SPEED_REF {i} (hF : Dj F 0x80000000000) : Off F (R.CAR_SPEED_REF i) := off_inst 11 _ _ hF rfl
theorem off_CAR_SPEED_ACT {i} (hF : Dj F 0x80000000000) : Off F (R.CAR_SPEED_ACT i) := off_inst 11 _ _ hF rfl
theorem off_CAR_ACCEL_REF {i} (hF : Dj F 0x80000000000) : Off F (R.CAR_ACCEL_REF i) := off_inst 11 _ _ hF rfl
theorem off_CAR_TO_GO {i} (hF : Dj F 0x80000000000) : Off F (R.CAR_TO_GO i) := off_inst 11 _ _ hF rfl
theorem off_CAR_LEVEL_ERROR {i} (hF : Dj F 0x80000000000) : Off F (R.CAR_LEVEL_ERROR i) := off_inst 11 _ _ hF rfl
theorem off_CAR_LOAD {i} (hF : Dj F 0x80000000000) : Off F (R.CAR_LOAD i) := off_inst 11 _ _ hF rfl
theorem off_CAR_MOVES {i} (hF : Dj F 0x80000000000) : Off F (R.CAR_MOVES i) := off_inst 11 _ _ hF rfl
theorem off_CAR_TRAVEL_LO {i} (hF : Dj F 0x80000000000) : Off F (R.CAR_TRAVEL_LO i) := off_inst 11 _ _ hF rfl
theorem off_CAR_STOPS_RAMPED {i} (hF : Dj F 0x80000000000) : Off F (R.CAR_STOPS_RAMPED i) := off_inst 11 _ _ hF rfl
theorem off_CAR_STOPS_HARD {i} (hF : Dj F 0x80000000000) : Off F (R.CAR_STOPS_HARD i) := off_inst 11 _ _ hF rfl
theorem off_CAR_RELEVELS {i} (hF : Dj F 0x80000000000) : Off F (R.CAR_RELEVELS i) := off_inst 11 _ _ hF rfl
theorem off_CAR_TERMINAL_STATUS_MISMATCH {i} (hF : Dj F 0x80000000000) : Off F (R.CAR_TERMINAL_STATUS_MISMATCH i) := off_inst 11 _ _ hF rfl
theorem off_CAR_TERMINAL_STATUS_TSD_ACTIVE {i} (hF : Dj F 0x80000000000) : Off F (R.CAR_TERMINAL_STATUS_TSD_ACTIVE i) := off_inst 11 _ _ hF rfl
theorem off_CAR_TERMINAL_STATUS_FINAL_TOP {i} (hF : Dj F 0x80000000000) : Off F (R.CAR_TERMINAL_STATUS_FINAL_TOP i) := off_inst 11 _ _ hF rfl
theorem off_CAR_TERMINAL_STATUS_FINAL_BOTTOM {i} (hF : Dj F 0x80000000000) : Off F (R.CAR_TERMINAL_STATUS_FINAL_BOTTOM i) := off_inst 11 _ _ hF rfl
theorem off_CAR_DRIVE_STATUS_FAULT_CODE {i} (hF : Dj F 0x80000000000) : Off F (R.CAR_DRIVE_STATUS_FAULT_CODE i) := off_inst 11 _ _ hF rfl
theorem off_CAR_DRIVE_STATUS_LOST {i} (hF : Dj F 0x80000000000) : Off F (R.CAR_DRIVE_STATUS_LOST i) := off_inst 11 _ _ hF rfl
theorem off_CAR_DRIVE_STATUS_FLAGS {i} (hF : Dj F 0x80000000000) : Off F (R.CAR_DRIVE_STATUS_FLAGS i) := off_inst 11 _ _ hF rfl
theorem off_CAR_DRIVE_SPEED {i} (hF : Dj F 0x80000000000) : Off F (R.CAR_DRIVE_SPEED i) := off_inst 11 _ _ hF rfl
theorem off_CAR_DRIVE_TORQUE {i} (hF : Dj F 0x80000000000) : Off F (R.CAR_DRIVE_TORQUE i) := off_inst 11 _ _ hF rfl
theorem off_CAR_DRIVE_FRAMES {i} (hF : Dj F 0x80000000000) : Off F (R.CAR_DRIVE_FRAMES i) := off_inst 11 _ _ hF rfl
theorem off_CAR_DRIVE_MISSED {i} (hF : Dj F 0x80000000000) : Off F (R.CAR_DRIVE_MISSED i) := off_inst 11 _ _ hF rfl
theorem off_CAR_LAST_STOP_CAUSE {i} (hF : Dj F 0x80000000000) : Off F (R.CAR_LAST_STOP_CAUSE i) := off_inst 11 _ _ hF rfl
theorem off_CAR_LAST_STOP_KIND {i} (hF : Dj F 0x80000000000) : Off F (R.CAR_LAST_STOP_KIND i) := off_inst 11 _ _ hF rfl
theorem off_CAR_EVENT_STATUS_DRIVE_LOST {i} (hF : Dj F 0x80000000000) : Off F (R.CAR_EVENT_STATUS_DRIVE_LOST i) := off_inst 11 _ _ hF rfl
theorem off_CAR_EVENT_STATUS_TERMINAL {i} (hF : Dj F 0x80000000000) : Off F (R.CAR_EVENT_STATUS_TERMINAL i) := off_inst 11 _ _ hF rfl
theorem off_CAR_EVENT_STATUS_STOP_HARD {i} (hF : Dj F 0x80000000000) : Off F (R.CAR_EVENT_STATUS_STOP_HARD i) := off_inst 11 _ _ hF rfl
theorem off_CAR_EVENT_STATUS_STOP_RAMPED {i} (hF : Dj F 0x80000000000) : Off F (R.CAR_EVENT_STATUS_STOP_RAMPED i) := off_inst 11 _ _ hF rfl
theorem off_CAR_EVENT_STATUS_RELEVELLED {i} (hF : Dj F 0x80000000000) : Off F (R.CAR_EVENT_STATUS_RELEVELLED i) := off_inst 11 _ _ hF rfl
theorem off_CAR_EVENT_STATUS_ARRIVED {i} (hF : Dj F 0x80000000000) : Off F (R.CAR_EVENT_STATUS_ARRIVED i) := off_inst 11 _ _ hF rfl
theorem off_CAR_START_TIME {i} (hF : Dj F 0x80000000000) : Off F (R.CAR_START_TIME i) := off_inst 11 _ _ hF rfl
theorem off_CAR_MOVE_TIME {i} (hF : Dj F 0x80000000000) : Off F (R.CAR_MOVE_TIME i) := off_inst 11 _ _ hF rfl
theorem off_POS_STATUS_QUALITY {i} (hF : Dj F 0x200000000000) : Off F (R.POS_STATUS_QUALITY i) := off_inst 13 _ _ hF rfl
theorem off_POS_STATUS_WRAP_MOTOR {i} (hF : Dj F 0x200000000000) : Off F (R.POS_STATUS_WRAP_MOTOR i) := off_inst 13 _ _ hF rfl
theorem off_POS_STATUS_WRAP_FUSED {i} (hF : Dj F 0x200000000000) : Off F (R.POS_STATUS_WRAP_FUSED i) := off_inst 13 _ _ hF rfl
theorem off_POS_STATUS_SATURATED {i} (hF : Dj F 0x200000000000) : Off F (R.POS_STATUS_SATURATED i) := off_inst 13 _ _ hF rfl
theorem off_POS_STATUS_MARGIN_ACTIVE {i} (hF : Dj F 0x200000000000) : Off F (R.POS_STATUS_MARGIN_ACTIVE i) := off_inst 13 _ _ hF rfl
theorem off_POS_STATUS_TARGET_FROZEN {i} (hF : Dj F 0x200000000000) : Off F (R.POS_STATUS_TARGET_FROZEN i) := off_inst 13 _ _ hF rfl
theorem off_POS_STATUS_SPEED_BY_COUNT {i} (hF : Dj F 0x200000000000) : Off F (R.POS_STATUS_SPEED_BY_COUNT i) := off_inst 13 _ _ hF rfl
theorem off_POS_STATUS_EMU_RUNNING {i} (hF : Dj F 0x200000000000) : Off F (R.POS_STATUS_EMU_RUNNING i) := off_inst 13 _ _ hF rfl
theorem off_POS_STATUS_TAPE_FAULT {i} (hF : Dj F 0x200000000000) : Off F (R.POS_STATUS_TAPE_FAULT i) := off_inst 13 _ _ hF rfl
theorem off_POS_STATUS_MOTOR_FAULT {i} (hF : Dj F 0x200000000000) : Off F (R.POS_STATUS_MOTOR_FAULT i) := off_inst 13 _ _ hF rfl
theorem off_POS_STATUS_MISS_RUN {i} (hF : Dj F 0x200000000000) : Off F (R.POS_STATUS_MISS_RUN i) := off_inst 13 _ _ hF rfl
theorem off_POS_FUSED_LO {i} (hF : Dj F 0x200000000000) : Off F (R.POS_FUSED_LO i) := off_inst 13 _ _ hF rfl
theorem off_POS_MOTOR_COUNT_LO {i} (hF : Dj F 0x200000000000) : Off F (R.POS_MOTOR_COUNT_LO i) := off_inst 13 _ _ hF rfl
theorem off_POS_TAPE_LO {i} (hF : Dj F 0x200000000000) : Off F (R.POS_TAPE_LO i) := off_inst 13 _ _ hF rfl
theorem off_POS_TARGET_LO {i} (hF : Dj F 0x200000000000) : Off F (R.POS_TARGET_LO i) := off_inst 13 _ _ hF rfl
theorem off_POS_REFERENCE_LO {i} (hF : Dj F 0x200000000000) : Off F (R.POS_REFERENCE_LO i) := off_inst 13 _ _ hF rfl
theorem off_POS_INDEX_LATCH_LO {i} (hF : Dj F 0x200000000000) : Off F (R.POS_INDEX_LATCH_LO i) := off_inst 13 _ _ hF rfl
theorem off_POS_VELOCITY {i} (hF : Dj F 0x200000000000) : Off F (R.POS_VELOCITY i) := off_inst 13 _ _ hF rfl
theorem off_POS_MOTOR_VELOCITY {i} (hF : Dj F 0x200000000000) : Off F (R.POS_MOTOR_VELOCITY i) := off_inst 13 _ _ hF rfl
theorem off_POS_SLIP {i} (hF : Dj F 0x200000000000) : Off F (R.POS_SLIP i) := off_inst 13 _ _ hF rfl
theorem off_POS_AMPLITUDE {i} (hF : Dj F 0x200000000000) : Off F (R.POS_AMPLITUDE i) := off_inst 13 _ _ hF rfl
theorem off_POS_MARKS_ACCEPTED {i} (hF : Dj F 0x200000000000) : Off F (R.POS_MARKS_ACCEPTED i) := off_inst 13 _ _ hF rfl
theorem off_POS_MARKS_FALSE {i} (hF : Dj F 0x200000000000) : Off F (R.POS_MARKS_FALSE i) := off_inst 13 _ _ hF rfl
theorem off_POS_MARKS_MISSED {i} (hF : Dj F 0x200000000000) : Off F (R.POS_MARKS_MISSED i) := off_inst 13 _ _ hF rfl
theorem off_POS_RESIDUAL {i} (hF : Dj F 0x200000000000) : Off F (R.POS_RESIDUAL i) := off_inst 13 _ _ hF rfl
theorem off_POS_TAPE_RESIDUAL {i} (hF : Dj F 0x200000000000) : Off F (R.POS_TAPE_RESIDUAL i) := off_inst 13 _ _ hF rfl
theorem off_POS_EVENT_STATUS_SLIP_HIGH {i} (hF : Dj F 0x200000000000) : Off F (R.POS_EVENT_STATUS_SLIP_HIGH i) := off_inst 13 _ _ hF rfl
theorem off_POS_EVENT_STATUS_WRAP {i} (hF : Dj F 0x200000000000) : Off F (R.POS_EVENT_STATUS_WRAP i) := off_inst 13 _ _ hF rfl
theorem off_POS_EVENT_STATUS_SOURCE_FAULT {i} (hF : Dj F 0x200000000000) : Off F (R.POS_EVENT_STATUS_SOURCE_FAULT i) := off_inst 13 _ _ hF rfl
theorem off_POS_EVENT_STATUS_MARK_FALSE {i} (hF : Dj F 0x200000000000) : Off F (R.POS_EVENT_STATUS_MARK_FALSE i) := off_inst 13 _ _ hF rfl
theorem off_POS_EVENT_STATUS_MARK_MISSED {i} (hF : Dj F 0x200000000000) : Off F (R.POS_EVENT_STATUS_MARK_MISSED i) := off_inst 13 _ _ hF rfl
theorem off_POS_EVENT_STATUS_QUALITY_CHANGE {i} (hF : Dj F 0x200000000000) : Off F (R.POS_EVENT_STATUS_QUALITY_CHANGE i) := off_inst 13 _ _ hF rfl
theorem off_POS_ERRORS_ENC_ERRORS {i} (hF : Dj F 0x200000000000) : Off F (R.POS_ERRORS_ENC_ERRORS i) := off_inst 13 _ _ hF rfl
theorem off_POS_ERRORS_INDEX_ERRORS {i} (hF : Dj F 0x200000000000) : Off F (R.POS_ERRORS_INDEX_ERRORS i) := off_inst 13 _ _ hF rfl
theorem off_POS_ERRORS_SSI_REJECTS {i} (hF : Dj F 0x200000000000) : Off F (R.POS_ERRORS_SSI_REJECTS i) := off_inst 13 _ _ hF rfl
theorem off_POS_ERRORS_HALL_ERRORS {i} (hF : Dj F 0x200000000000) : Off F (R.POS_ERRORS_HALL_ERRORS i) := off_inst 13 _ _ hF rfl
theorem off_POS_EMU_STATUS_RUNNING {i} (hF : Dj F 0x200000000000) : Off F (R.POS_EMU_STATUS_RUNNING i) := off_inst 13 _ _ hF rfl
theorem off_POS_EMU_STATUS_OVERRUN {i} (hF : Dj F 0x200000000000) : Off F (R.POS_EMU_STATUS_OVERRUN i) := off_inst 13 _ _ hF rfl
theorem off_POS_EMU_STATUS_LINES {i} (hF : Dj F 0x200000000000) : Off F (R.POS_EMU_STATUS_LINES i) := off_inst 13 _ _ hF rfl
theorem off_DOOR_STATUS_STATE {i} (hF : Dj F 0x100000000000) : Off F (R.DOOR_STATUS_STATE i) := off_inst 12 _ _ hF rfl
theorem off_DOOR_STATUS_REFERENCED {i} (hF : Dj F 0x100000000000) : Off F (R.DOOR_STATUS_REFERENCED i) := off_inst 12 _ _ hF rfl
theorem off_DOOR_STATUS_LOCKED {i} (hF : Dj F 0x100000000000) : Off F (R.DOOR_STATUS_LOCKED i) := off_inst 12 _ _ hF rfl
theorem off_DOOR_STATUS_BYPASS {i} (hF : Dj F 0x100000000000) : Off F (R.DOOR_STATUS_BYPASS i) := off_inst 12 _ _ hF rfl
theorem off_DOOR_STATUS_ENCODER_FALLBACK {i} (hF : Dj F 0x100000000000) : Off F (R.DOOR_STATUS_ENCODER_FALLBACK i) := off_inst 12 _ _ hF rfl
theorem off_DOOR_STATUS_NUDGE {i} (hF : Dj F 0x100000000000) : Off F (R.DOOR_STATUS_NUDGE i) := off_inst 12 _ _ hF rfl
theorem off_DOOR_STATUS_CLOSED_LIMIT {i} (hF : Dj F 0x100000000000) : Off F (R.DOOR_STATUS_CLOSED_LIMIT i) := off_inst 12 _ _ hF rfl
theorem off_DOOR_STATUS_OPEN_LIMIT {i} (hF : Dj F 0x100000000000) : Off F (R.DOOR_STATUS_OPEN_LIMIT i) := off_inst 12 _ _ hF rfl
theorem off_DOOR_STATUS_REOPEN_ACTIVE {i} (hF : Dj F 0x100000000000) : Off F (R.DOOR_STATUS_REOPEN_ACTIVE i) := off_inst 12 _ _ hF rfl
theorem off_DOOR_STATUS_REVERSALS_MOVE {i} (hF : Dj F 0x100000000000) : Off F (R.DOOR_STATUS_REVERSALS_MOVE i) := off_inst 12 _ _ hF rfl
theorem off_DOOR_STATUS_ENVELOPE_MOVES {i} (hF : Dj F 0x100000000000) : Off F (R.DOOR_STATUS_ENVELOPE_MOVES i) := off_inst 12 _ _ hF rfl
theorem off_DOOR_POSITION {i} (hF : Dj F 0x100000000000) : Off F (R.DOOR_POSITION i) := off_inst 12 _ _ hF rfl
theorem off_DOOR_SETPOINT {i} (hF : Dj F 0x100000000000) : Off F (R.DOOR_SETPOINT i) := off_inst 12 _ _ hF rfl
theorem off_DOOR_DEVIATION {i} (hF : Dj F 0x100000000000) : Off F (R.DOOR_DEVIATION i) := off_inst 12 _ _ hF rfl
theorem off_DOOR_CURRENT {i} (hF : Dj F 0x100000000000) : Off F (R.DOOR_CURRENT i) := off_inst 12 _ _ hF rfl
theorem off_DOOR_CYCLES {i} (hF : Dj F 0x100000000000) : Off F (R.DOOR_CYCLES i) := off_inst 12 _ _ hF rfl
theorem off_DOOR_REVERSALS_OBSTRUCTIONS {i} (hF : Dj F 0x100000000000) : Off F (R.DOOR_REVERSALS_OBSTRUCTIONS i) := off_inst 12 _ _ hF rfl
theorem off_DOOR_REVERSALS_REOPENS {i} (hF : Dj F 0x100000000000) : Off F (R.DOOR_REVERSALS_REOPENS i) := off_inst 12 _ _ hF rfl
theorem off_DOOR_LAST_STOP_CAUSE {i} (hF : Dj F 0x100000000000) : Off F (R.DOOR_LAST_STOP_CAUSE i) := off_inst 12 _ _ hF rfl
theorem off_DOOR_LAST_STOP_POSITION {i} (hF : Dj F 0x100000000000) : Off F (R.DOOR_LAST_STOP_POSITION i) := off_inst 12 _ _ hF rfl
theorem off_DOOR_DRIVE_STATUS_FAULT_CODE {i} (hF : Dj F 0x100000000000) : Off F (R.DOOR_DRIVE_STATUS_FAULT_CODE i) := off_inst 12 _ _ hF rfl
theorem off_DOOR_DRIVE_STATUS_LOST {i} (hF : Dj F 0x100000000000) : Off F (R.DOOR_DRIVE_STATUS_LOST i) := off_inst 12 _ _ hF rfl
theorem off_DOOR_DRIVE_STATUS_FLAGS {i} (hF : Dj F 0x100000000000) : Off F (R.DOOR_DRIVE_STATUS_FLAGS i) := off_inst 12 _ _ hF rfl
theorem off_DOOR_EVENT_STATUS_DRIVE_LOST {i} (hF : Dj F 0x100000000000) : Off F (R.DOOR_EVENT_STATUS_DRIVE_LOST i) := off_inst 12 _ _ hF rfl
theorem off_DOOR_EVENT_STATUS_REFERENCE_LOST {i} (hF : Dj F 0x100000000000) : Off F (R.DOOR_EVENT_STATUS_REFERENCE_LOST i) := off_inst 12 _ _ hF rfl
theorem off_DOOR_EVENT_STATUS_LOCK_FAILED {i} (hF : Dj F 0x100000000000) : Off F (R.DOOR_EVENT_STATUS_LOCK_FAILED i) := off_inst 12 _ _ hF rfl
theorem off_DOOR_EVENT_STATUS_NUDGE {i} (hF : Dj F 0x100000000000) : Off F (R.DOOR_EVENT_STATUS_NUDGE i) := off_inst 12 _ _ hF rfl
theorem off_DOOR_EVENT_STATUS_STOPPED {i} (hF : Dj F 0x100000000000) : Off F (R.DOOR_EVENT_STATUS_STOPPED i) := off_inst 12 _ _ hF rfl
theorem off_DOOR_EVENT_STATUS_OBSTRUCTION {i} (hF : Dj F 0x100000000000) : Off F (R.DOOR_EVENT_STATUS_OBSTRUCTION i) := off_inst 12 _ _ hF rfl
theorem off_SAF_STATUS_KEY_SWITCH (hF : Dj F 0x400000000000) : Off F R.SAF_STATUS_KEY_SWITCH := off_at 14 hF rfl
theorem off_SAF_STATUS_ANY_LATCHED (hF : Dj F 0x400000000000) : Off F R.SAF_STATUS_ANY_LATCHED := off_at 14 hF rfl
theorem off_SAF_STATUS_ANY_SNOWPLOUGH (hF : Dj F 0x400000000000) : Off F R.SAF_STATUS_ANY_SNOWPLOUGH := off_at 14 hF rfl
theorem off_SAF_STATUS_UNCONFIRMED (hF : Dj F 0x400000000000) : Off F R.SAF_STATUS_UNCONFIRMED := off_at 14 hF rfl
theorem off_SAF_STATUS_CONFIRM_LOCKOUT (hF : Dj F 0x400000000000) : Off F R.SAF_STATUS_CONFIRM_LOCKOUT := off_at 14 hF rfl
theorem off_SAF_STATUS_HW_OK (hF : Dj F 0x400000000000) : Off F R.SAF_STATUS_HW_OK := off_at 14 hF rfl
theorem off_SAF_STATUS_PROC_OK (hF : Dj F 0x400000000000) : Off F R.SAF_STATUS_PROC_OK := off_at 14 hF rfl
theorem off_SAF_STATUS_RUNNING (hF : Dj F 0x400000000000) : Off F R.SAF_STATUS_RUNNING := off_at 14 hF rfl
theorem off_SAF_TECH_STATUS_HW_STATE (hF : Dj F 0x400000000000) : Off F R.SAF_TECH_STATUS_HW_STATE := off_at 14 hF rfl
theorem off_SAF_TECH_STATUS_PROC_STATE (hF : Dj F 0x400000000000) : Off F R.SAF_TECH_STATUS_PROC_STATE := off_at 14 hF rfl
theorem off_SAF_CHECK_PROC (hF : Dj F 0x400000000000) : Off F R.SAF_CHECK_PROC := off_at 14 hF rfl
theorem off_SAF_CHECK_HW (hF : Dj F 0x400000000000) : Off F R.SAF_CHECK_HW := off_at 14 hF rfl
theorem off_SAF_CONFIRM_STATUS_RESULT (hF : Dj F 0x400000000000) : Off F R.SAF_CONFIRM_STATUS_RESULT := off_at 14 hF rfl
theorem off_SAF_CONFIRM_STATUS_FAILS (hF : Dj F 0x400000000000) : Off F R.SAF_CONFIRM_STATUS_FAILS := off_at 14 hF rfl
theorem off_SAF_INPUT_STATE (hF : Dj F 0x400000000000) : Off F R.SAF_INPUT_STATE := off_at 14 hF rfl
theorem off_SAF_INPUT_FAULT (hF : Dj F 0x400000000000) : Off F R.SAF_INPUT_FAULT := off_at 14 hF rfl
theorem off_SAF_INPUT_FAULT_LATCH (hF : Dj F 0x400000000000) : Off F R.SAF_INPUT_FAULT_LATCH := off_at 14 hF rfl
theorem off_SAF_EDM_STATE (hF : Dj F 0x400000000000) : Off F R.SAF_EDM_STATE := off_at 14 hF rfl
theorem off_SAF_EDM_FAULT (hF : Dj F 0x400000000000) : Off F R.SAF_EDM_FAULT := off_at 14 hF rfl
theorem off_SAF_OUTPUT_STATE (hF : Dj F 0x400000000000) : Off F R.SAF_OUTPUT_STATE := off_at 14 hF rfl
theorem off_SAF_PERMIT_PROC (hF : Dj F 0x400000000000) : Off F R.SAF_PERMIT_PROC := off_at 14 hF rfl
theorem off_SAF_PERMIT_HW (hF : Dj F 0x400000000000) : Off F R.SAF_PERMIT_HW := off_at 14 hF rfl
theorem off_SAF_REQUEST (hF : Dj F 0x400000000000) : Off F R.SAF_REQUEST := off_at 14 hF rfl
theorem off_SAF_TRIPS (hF : Dj F 0x400000000000) : Off F R.SAF_TRIPS := off_at 14 hF rfl
theorem off_SAF_LAST_TRIP_CAUSE (hF : Dj F 0x400000000000) : Off F R.SAF_LAST_TRIP_CAUSE := off_at 14 hF rfl
theorem off_SAF_LAST_TRIP_CAR (hF : Dj F 0x400000000000) : Off F R.SAF_LAST_TRIP_CAR := off_at 14 hF rfl
theorem off_SAF_LAST_TRIP_FUNCTION (hF : Dj F 0x400000000000) : Off F R.SAF_LAST_TRIP_FUNCTION := off_at 14 hF rfl
theorem off_SAF_LAST_TRIP_DETECTED_BY (hF : Dj F 0x400000000000) : Off F R.SAF_LAST_TRIP_DETECTED_BY := off_at 14 hF rfl
theorem off_SAF_LAST_TRIP_TIME (hF : Dj F 0x400000000000) : Off F R.SAF_LAST_TRIP_TIME := off_at 14 hF rfl
theorem off_SAF_XCOMP_MISMATCHES (hF : Dj F 0x400000000000) : Off F R.SAF_XCOMP_MISMATCHES := off_at 14 hF rfl
theorem off_SAF_PULSE_STATUS_RUNNING (hF : Dj F 0x400000000000) : Off F R.SAF_PULSE_STATUS_RUNNING := off_at 14 hF rfl
theorem off_SAF_CONFIRM_COUNT (hF : Dj F 0x400000000000) : Off F R.SAF_CONFIRM_COUNT := off_at 14 hF rfl
theorem off_SAF_EVENT_STATUS_CONFIRM_REFUSED (hF : Dj F 0x400000000000) : Off F R.SAF_EVENT_STATUS_CONFIRM_REFUSED := off_at 14 hF rfl
theorem off_SAF_EVENT_STATUS_CONFIRMED (hF : Dj F 0x400000000000) : Off F R.SAF_EVENT_STATUS_CONFIRMED := off_at 14 hF rfl
theorem off_SAF_EVENT_STATUS_TECH_FAULT (hF : Dj F 0x400000000000) : Off F R.SAF_EVENT_STATUS_TECH_FAULT := off_at 14 hF rfl
theorem off_SAF_EVENT_STATUS_INPUT_FAULT (hF : Dj F 0x400000000000) : Off F R.SAF_EVENT_STATUS_INPUT_FAULT := off_at 14 hF rfl
theorem off_SAF_EVENT_STATUS_EDM_FAULT (hF : Dj F 0x400000000000) : Off F R.SAF_EVENT_STATUS_EDM_FAULT := off_at 14 hF rfl
theorem off_SAF_EVENT_STATUS_MODE_CHANGE (hF : Dj F 0x400000000000) : Off F R.SAF_EVENT_STATUS_MODE_CHANGE := off_at 14 hF rfl
theorem off_SAF_EVENT_STATUS_TRIP (hF : Dj F 0x400000000000) : Off F R.SAF_EVENT_STATUS_TRIP := off_at 14 hF rfl
theorem off_SAF_RESPONSE_MAX_PROC (hF : Dj F 0x400000000000) : Off F R.SAF_RESPONSE_MAX_PROC := off_at 14 hF rfl
theorem off_SAF_RESPONSE_MAX_HW (hF : Dj F 0x400000000000) : Off F R.SAF_RESPONSE_MAX_HW := off_at 14 hF rfl
theorem off_SAF_SNOWPLOUGH_CARS (hF : Dj F 0x400000000000) : Off F R.SAF_SNOWPLOUGH_CARS := off_at 14 hF rfl
theorem off_SAF_LATCHED_CARS (hF : Dj F 0x400000000000) : Off F R.SAF_LATCHED_CARS := off_at 14 hF rfl
theorem off_SAF_CONNECTIONS_FAILSAFE (hF : Dj F 0x400000000000) : Off F R.SAF_CONNECTIONS_FAILSAFE := off_at 14 hF rfl
theorem off_SAF_CAR_STATUS_LIMIT_KIND {i} (hF : Dj F 0x400000000000) : Off F (R.SAF_CAR_STATUS_LIMIT_KIND i) := off_inst 14 _ _ hF rfl
theorem off_SAF_CAR_STATUS_TAPE_FAULT {i} (hF : Dj F 0x400000000000) : Off F (R.SAF_CAR_STATUS_TAPE_FAULT i) := off_inst 14 _ _ hF rfl
theorem off_SAF_CAR_STATUS_ENC_FAULT {i} (hF : Dj F 0x400000000000) : Off F (R.SAF_CAR_STATUS_ENC_FAULT i) := off_inst 14 _ _ hF rfl
theorem off_SAF_CAR_STATUS_RUN_REQUEST {i} (hF : Dj F 0x400000000000) : Off F (R.SAF_CAR_STATUS_RUN_REQUEST i) := off_inst 14 _ _ hF rfl
theorem off_SAF_CAR_STATUS_INSPECTION {i} (hF : Dj F 0x400000000000) : Off F (R.SAF_CAR_STATUS_INSPECTION i) := off_inst 14 _ _ hF rfl
theorem off_SAF_CAR_STATUS_DOOR_ZONE {i} (hF : Dj F 0x400000000000) : Off F (R.SAF_CAR_STATUS_DOOR_ZONE i) := off_inst 14 _ _ hF rfl
theorem off_SAF_CAR_STATUS_CAR_DOOR {i} (hF : Dj F 0x400000000000) : Off F (R.SAF_CAR_STATUS_CAR_DOOR i) := off_inst 14 _ _ hF rfl
theorem off_SAF_CAR_STATUS_LANDING_LOCKS {i} (hF : Dj F 0x400000000000) : Off F (R.SAF_CAR_STATUS_LANDING_LOCKS i) := off_inst 14 _ _ hF rfl
theorem off_SAF_CAR_STATUS_BYPASS_ON {i} (hF : Dj F 0x400000000000) : Off F (R.SAF_CAR_STATUS_BYPASS_ON i) := off_inst 14 _ _ hF rfl
theorem off_SAF_CAR_STATUS_BRAKE_ON {i} (hF : Dj F 0x400000000000) : Off F (R.SAF_CAR_STATUS_BRAKE_ON i) := off_inst 14 _ _ hF rfl
theorem off_SAF_CAR_STATUS_MAIN_ON {i} (hF : Dj F 0x400000000000) : Off F (R.SAF_CAR_STATUS_MAIN_ON i) := off_inst 14 _ _ hF rfl
theorem off_SAF_CAR_MODE_MODE {i} (hF : Dj F 0x400000000000) : Off F (R.SAF_CAR_MODE_MODE i) := off_inst 14 _ _ hF rfl
theorem off_SAF_CAR_MODE_CAUSE {i} (hF : Dj F 0x400000000000) : Off F (R.SAF_CAR_MODE_CAUSE i) := off_inst 14 _ _ hF rfl
theorem off_SAF_CAR_MODE_REMAINING_S {i} (hF : Dj F 0x400000000000) : Off F (R.SAF_CAR_MODE_REMAINING_S i) := off_inst 14 _ _ hF rfl
theorem off_SAF_CAR_SPEED_ENC {i} (hF : Dj F 0x400000000000) : Off F (R.SAF_CAR_SPEED_ENC i) := off_inst 14 _ _ hF rfl
theorem off_SAF_CAR_SPEED_TAPE {i} (hF : Dj F 0x400000000000) : Off F (R.SAF_CAR_SPEED_TAPE i) := off_inst 14 _ _ hF rfl
theorem off_SAF_CAR_SPEED_LIMIT {i} (hF : Dj F 0x400000000000) : Off F (R.SAF_CAR_SPEED_LIMIT i) := off_inst 14 _ _ hF rfl
theorem off_SAF_CAR_STANDSTILL_MOVE {i} (hF : Dj F 0x400000000000) : Off F (R.SAF_CAR_STANDSTILL_MOVE i) := off_inst 14 _ _ hF rfl
theorem off_SAF_CAR_EDM_TIME_BRAKE_MS {i} (hF : Dj F 0x400000000000) : Off F (R.SAF_CAR_EDM_TIME_BRAKE_MS i) := off_inst 14 _ _ hF rfl
theorem off_SAF_CAR_EDM_TIME_MAIN_MS {i} (hF : Dj F 0x400000000000) : Off F (R.SAF_CAR_EDM_TIME_MAIN_MS i) := off_inst 14 _ _ hF rfl
theorem off_SAF_CAR_TRIPS {i} (hF : Dj F 0x400000000000) : Off F (R.SAF_CAR_TRIPS i) := off_inst 14 _ _ hF rfl
theorem off_FIO_STATUS_OUTPUTS_ENABLED (hF : Dj F 0x800000000000) : Off F R.FIO_STATUS_OUTPUTS_ENABLED := off_at 15 hF rfl
theorem off_FIO_STATUS_RUNNING (hF : Dj F 0x800000000000) : Off F R.FIO_STATUS_RUNNING := off_at 15 hF rfl
theorem off_FIO_IN_LO (hF : Dj F 0x800000000000) : Off F R.FIO_IN_LO := off_at 15 hF rfl
theorem off_FIO_IN_HI (hF : Dj F 0x800000000000) : Off F R.FIO_IN_HI := off_at 15 hF rfl
theorem off_FIO_IN_RAW_LO (hF : Dj F 0x800000000000) : Off F R.FIO_IN_RAW_LO := off_at 15 hF rfl
theorem off_FIO_IN_RAW_HI (hF : Dj F 0x800000000000) : Off F R.FIO_IN_RAW_HI := off_at 15 hF rfl
theorem off_FIO_WIRE_BREAK_LO (hF : Dj F 0x800000000000) : Off F R.FIO_WIRE_BREAK_LO := off_at 15 hF rfl
theorem off_FIO_WIRE_BREAK_HI (hF : Dj F 0x800000000000) : Off F R.FIO_WIRE_BREAK_HI := off_at 15 hF rfl
theorem off_FIO_WIRE_BREAK_LATCH_LO (hF : Dj F 0x800000000000) : Off F R.FIO_WIRE_BREAK_LATCH_LO := off_at 15 hF rfl
theorem off_FIO_WIRE_BREAK_LATCH_HI (hF : Dj F 0x800000000000) : Off F R.FIO_WIRE_BREAK_LATCH_HI := off_at 15 hF rfl
theorem off_FIO_OUT_STATE (hF : Dj F 0x800000000000) : Off F R.FIO_OUT_STATE := off_at 15 hF rfl
theorem off_FIO_OUT_COMMAND (hF : Dj F 0x800000000000) : Off F R.FIO_OUT_COMMAND := off_at 15 hF rfl
theorem off_FIO_OUT_HOST_MASK (hF : Dj F 0x800000000000) : Off F R.FIO_OUT_HOST_MASK := off_at 15 hF rfl
theorem off_FIO_OUT_FAULT (hF : Dj F 0x800000000000) : Off F R.FIO_OUT_FAULT := off_at 15 hF rfl
theorem off_FIO_OUT_FAULT_LATCH (hF : Dj F 0x800000000000) : Off F R.FIO_OUT_FAULT_LATCH := off_at 15 hF rfl
theorem off_FIO_OUT_OPEN_LOAD (hF : Dj F 0x800000000000) : Off F R.FIO_OUT_OPEN_LOAD := off_at 15 hF rfl
theorem off_FIO_OUT_SILENT (hF : Dj F 0x800000000000) : Off F R.FIO_OUT_SILENT := off_at 15 hF rfl
theorem off_FIO_DEMAG_HOLD (hF : Dj F 0x800000000000) : Off F R.FIO_DEMAG_HOLD := off_at 15 hF rfl
theorem off_FIO_EVENT_STATUS_LPLUS_LOW (hF : Dj F 0x800000000000) : Off F R.FIO_EVENT_STATUS_LPLUS_LOW := off_at 15 hF rfl
theorem off_FIO_EVENT_STATUS_LINK_LOST (hF : Dj F 0x800000000000) : Off F R.FIO_EVENT_STATUS_LINK_LOST := off_at 15 hF rfl
theorem off_FIO_EVENT_STATUS_OPEN_LOAD (hF : Dj F 0x800000000000) : Off F R.FIO_EVENT_STATUS_OPEN_LOAD := off_at 15 hF rfl
theorem off_FIO_EVENT_STATUS_OUTPUT_FAULT (hF : Dj F 0x800000000000) : Off F R.FIO_EVENT_STATUS_OUTPUT_FAULT := off_at 15 hF rfl
theorem off_FIO_EVENT_STATUS_WIRE_RESTORED (hF : Dj F 0x800000000000) : Off F R.FIO_EVENT_STATUS_WIRE_RESTORED := off_at 15 hF rfl
theorem off_FIO_EVENT_STATUS_WIRE_BREAK (hF : Dj F 0x800000000000) : Off F R.FIO_EVENT_STATUS_WIRE_BREAK := off_at 15 hF rfl
theorem off_FIO_BREAKS (hF : Dj F 0x800000000000) : Off F R.FIO_BREAKS := off_at 15 hF rfl
theorem off_FIO_OUT_TRIPS (hF : Dj F 0x800000000000) : Off F R.FIO_OUT_TRIPS := off_at 15 hF rfl
theorem off_FIO_SILENCES (hF : Dj F 0x800000000000) : Off F R.FIO_SILENCES := off_at 15 hF rfl
theorem off_FIO_FIELD_STATUS_LPLUS_LOW (hF : Dj F 0x800000000000) : Off F R.FIO_FIELD_STATUS_LPLUS_LOW := off_at 15 hF rfl
theorem off_FIO_FIELD_STATUS_LINK_LOST (hF : Dj F 0x800000000000) : Off F R.FIO_FIELD_STATUS_LINK_LOST := off_at 15 hF rfl
theorem off_FIO_LPLUS {i} (hF : Dj F 0x800000000000) : Off F (R.FIO_LPLUS i) := off_inst 15 _ _ hF rfl
theorem off_FIO_GROUP_CURRENT {i} (hF : Dj F 0x800000000000) : Off F (R.FIO_GROUP_CURRENT i) := off_inst 15 _ _ hF rfl
theorem off_FIO_IN_GROUP_TYPE {i} (hF : Dj F 0x800000000000) : Off F (R.FIO_IN_GROUP_TYPE i) := off_inst 15 _ _ hF rfl
theorem off_FIO_IN_GROUP_WIRE_BREAK_ENABLED {i} (hF : Dj F 0x800000000000) : Off F (R.FIO_IN_GROUP_WIRE_BREAK_ENABLED i) := off_inst 15 _ _ hF rfl
theorem off_MBC_STATUS_STATE {i} (hF : Dj F 0x1000000000000) : Off F (R.MBC_STATUS_STATE i) := off_inst 16 _ _ hF rfl
theorem off_MBC_STATUS_FORMAT {i} (hF : Dj F 0x1000000000000) : Off F (R.MBC_STATUS_FORMAT i) := off_inst 16 _ _ hF rfl
theorem off_MBC_STATUS_TERMINATION {i} (hF : Dj F 0x1000000000000) : Off F (R.MBC_STATUS_TERMINATION i) := off_inst 16 _ _ hF rfl
theorem off_MBC_STATUS_TIME_MASTER {i} (hF : Dj F 0x1000000000000) : Off F (R.MBC_STATUS_TIME_MASTER i) := off_inst 16 _ _ hF rfl
theorem off_MBC_STATUS_RECOVERY_INHIBITED {i} (hF : Dj F 0x1000000000000) : Off F (R.MBC_STATUS_RECOVERY_INHIBITED i) := off_inst 16 _ _ hF rfl
theorem off_MBC_NOM_TIMING {i} (hF : Dj F 0x1000000000000) : Off F (R.MBC_NOM_TIMING i) := off_inst 16 _ _ hF rfl
theorem off_MBC_DATA_TIMING {i} (hF : Dj F 0x1000000000000) : Off F (R.MBC_DATA_TIMING i) := off_inst 16 _ _ hF rfl
theorem off_MBC_TDC {i} (hF : Dj F 0x1000000000000) : Off F (R.MBC_TDC i) := off_inst 16 _ _ hF rfl
theorem off_MBC_TX_FRAMES {i} (hF : Dj F 0x1000000000000) : Off F (R.MBC_TX_FRAMES i) := off_inst 16 _ _ hF rfl
theorem off_MBC_RX_FRAMES {i} (hF : Dj F 0x1000000000000) : Off F (R.MBC_RX_FRAMES i) := off_inst 16 _ _ hF rfl
theorem off_MBC_ERRORS {i} (hF : Dj F 0x1000000000000) : Off F (R.MBC_ERRORS i) := off_inst 16 _ _ hF rfl
theorem off_MBC_LAST_ERROR {i} (hF : Dj F 0x1000000000000) : Off F (R.MBC_LAST_ERROR i) := off_inst 16 _ _ hF rfl
theorem off_MBC_BUS_OFFS {i} (hF : Dj F 0x1000000000000) : Off F (R.MBC_BUS_OFFS i) := off_inst 16 _ _ hF rfl
theorem off_MBC_ARB_LOST {i} (hF : Dj F 0x1000000000000) : Off F (R.MBC_ARB_LOST i) := off_inst 16 _ _ hF rfl
theorem off_MBC_TX_CANCELLED {i} (hF : Dj F 0x1000000000000) : Off F (R.MBC_TX_CANCELLED i) := off_inst 16 _ _ hF rfl
theorem off_MBC_TX_SUPERSEDED {i} (hF : Dj F 0x1000000000000) : Off F (R.MBC_TX_SUPERSEDED i) := off_inst 16 _ _ hF rfl
theorem off_MBC_TX_PENDING {i} (hF : Dj F 0x1000000000000) : Off F (R.MBC_TX_PENDING i) := off_inst 16 _ _ hF rfl
theorem off_MBC_RX_DISCARDED {i} (hF : Dj F 0x1000000000000) : Off F (R.MBC_RX_DISCARDED i) := off_inst 16 _ _ hF rfl
theorem off_MBC_RX_DEPTH {i} (hF : Dj F 0x1000000000000) : Off F (R.MBC_RX_DEPTH i) := off_inst 16 _ _ hF rfl
theorem off_MBC_RX_NEXT_SEQ {i} (hF : Dj F 0x1000000000000) : Off F (R.MBC_RX_NEXT_SEQ i) := off_inst 16 _ _ hF rfl
theorem off_MBC_RX_DROPPED {i} (hF : Dj F 0x1000000000000) : Off F (R.MBC_RX_DROPPED i) := off_inst 16 _ _ hF rfl
theorem off_MBC_LOAD {i} (hF : Dj F 0x1000000000000) : Off F (R.MBC_LOAD i) := off_inst 16 _ _ hF rfl
theorem off_MBC_LOAD_PEAK {i} (hF : Dj F 0x1000000000000) : Off F (R.MBC_LOAD_PEAK i) := off_inst 16 _ _ hF rfl
theorem off_MBC_REF_CYCLES {i} (hF : Dj F 0x1000000000000) : Off F (R.MBC_REF_CYCLES i) := off_inst 16 _ _ hF rfl
theorem off_MBC_WAKEUPS {i} (hF : Dj F 0x1000000000000) : Off F (R.MBC_WAKEUPS i) := off_inst 16 _ _ hF rfl
theorem off_MBC_STANDING_ACKED {i} (hF : Dj F 0x1000000000000) : Off F (R.MBC_STANDING_ACKED i) := off_inst 16 _ _ hF rfl
theorem off_MBC_CYCLIC_LATENCY_MAX {i} (hF : Dj F 0x1000000000000) : Off F (R.MBC_CYCLIC_LATENCY_MAX i) := off_inst 16 _ _ hF rfl
theorem off_MBC_EVENT_STATUS_STANDING_UNACKED {i} (hF : Dj F 0x1000000000000) : Off F (R.MBC_EVENT_STATUS_STANDING_UNACKED i) := off_inst 16 _ _ hF rfl
theorem off_MBC_EVENT_STATUS_SLEEP_CHANGE {i} (hF : Dj F 0x1000000000000) : Off F (R.MBC_EVENT_STATUS_SLEEP_CHANGE i) := off_inst 16 _ _ hF rfl
theorem off_MBC_EVENT_STATUS_RX_OVERFLOW {i} (hF : Dj F 0x1000000000000) : Off F (R.MBC_EVENT_STATUS_RX_OVERFLOW i) := off_inst 16 _ _ hF rfl
theorem off_MBC_EVENT_STATUS_ERROR_PASSIVE {i} (hF : Dj F 0x1000000000000) : Off F (R.MBC_EVENT_STATUS_ERROR_PASSIVE i) := off_inst 16 _ _ hF rfl
theorem off_MBC_EVENT_STATUS_RECOVERED {i} (hF : Dj F 0x1000000000000) : Off F (R.MBC_EVENT_STATUS_RECOVERED i) := off_inst 16 _ _ hF rfl
theorem off_MBC_EVENT_STATUS_BUS_OFF {i} (hF : Dj F 0x1000000000000) : Off F (R.MBC_EVENT_STATUS_BUS_OFF i) := off_inst 16 _ _ hF rfl
theorem off_MBC_RX_STAMP_LO {i} (hF : Dj F 0x1000000000000) : Off F (R.MBC_RX_STAMP_LO i) := off_inst 16 _ _ hF rfl
theorem off_MBC_RESTRICTED_ERRORS {i} (hF : Dj F 0x1000000000000) : Off F (R.MBC_RESTRICTED_ERRORS i) := off_inst 16 _ _ hF rfl
theorem off_SER_STATUS {i} (hF : Dj F 0x2000000000000) : Off F (R.SER_STATUS i) := off_inst 17 _ _ hF rfl
theorem off_SER_RATE {i} (hF : Dj F 0x2000000000000) : Off F (R.SER_RATE i) := off_inst 17 _ _ hF rfl
theorem off_SER_POLL_CYCLE {i} (hF : Dj F 0x2000000000000) : Off F (R.SER_POLL_CYCLE i) := off_inst 17 _ _ hF rfl
theorem off_SER_POLL_CYCLE_MAX {i} (hF : Dj F 0x2000000000000) : Off F (R.SER_POLL_CYCLE_MAX i) := off_inst 17 _ _ hF rfl
theorem off_SER_NODES_ONLINE {i} (hF : Dj F 0x2000000000000) : Off F (R.SER_NODES_ONLINE i) := off_inst 17 _ _ hF rfl
theorem off_SER_FRAMES_OK {i} (hF : Dj F 0x2000000000000) : Off F (R.SER_FRAMES_OK i) := off_inst 17 _ _ hF rfl
theorem off_SER_CRC_ERRORS {i} (hF : Dj F 0x2000000000000) : Off F (R.SER_CRC_ERRORS i) := off_inst 17 _ _ hF rfl
theorem off_SER_TIMEOUTS {i} (hF : Dj F 0x2000000000000) : Off F (R.SER_TIMEOUTS i) := off_inst 17 _ _ hF rfl
theorem off_SER_FRAMING_ERRORS {i} (hF : Dj F 0x2000000000000) : Off F (R.SER_FRAMING_ERRORS i) := off_inst 17 _ _ hF rfl
theorem off_SER_EVENT_STATUS_NODE_LOST {i} (hF : Dj F 0x2000000000000) : Off F (R.SER_EVENT_STATUS_NODE_LOST i) := off_inst 17 _ _ hF rfl
theorem off_SER_EVENT_STATUS_LINE_FAULT {i} (hF : Dj F 0x2000000000000) : Off F (R.SER_EVENT_STATUS_LINE_FAULT i) := off_inst 17 _ _ hF rfl
theorem off_SER_CONTENTIONS {i} (hF : Dj F 0x2000000000000) : Off F (R.SER_CONTENTIONS i) := off_inst 17 _ _ hF rfl
theorem off_NET_STATUS (hF : Dj F 0x4000000000000) : Off F R.NET_STATUS := off_at 18 hF rfl
theorem off_NET_PTP_STATUS_PARENT_PORT (hF : Dj F 0x4000000000000) : Off F R.NET_PTP_STATUS_PARENT_PORT := off_at 18 hF rfl
theorem off_NET_PTP_STATUS_ROLE (hF : Dj F 0x4000000000000) : Off F R.NET_PTP_STATUS_ROLE := off_at 18 hF rfl
theorem off_NET_PTP_STATUS_STATE (hF : Dj F 0x4000000000000) : Off F R.NET_PTP_STATUS_STATE := off_at 18 hF rfl
theorem off_NET_PTP_OFFSET (hF : Dj F 0x4000000000000) : Off F R.NET_PTP_OFFSET := off_at 18 hF rfl
theorem off_NET_PTP_MEAN_DELAY (hF : Dj F 0x4000000000000) : Off F R.NET_PTP_MEAN_DELAY := off_at 18 hF rfl
theorem off_NET_PTP_GM_ID_LO (hF : Dj F 0x4000000000000) : Off F R.NET_PTP_GM_ID_LO := off_at 18 hF rfl
theorem off_NET_PTP_GM_QUALITY (hF : Dj F 0x4000000000000) : Off F R.NET_PTP_GM_QUALITY := off_at 18 hF rfl
theorem off_NET_PTP_SYNC_RX (hF : Dj F 0x4000000000000) : Off F R.NET_PTP_SYNC_RX := off_at 18 hF rfl
theorem off_NET_PTP_OFFSET_MAX (hF : Dj F 0x4000000000000) : Off F R.NET_PTP_OFFSET_MAX := off_at 18 hF rfl
theorem off_NET_PTP_DELAY_REQ_RX (hF : Dj F 0x4000000000000) : Off F R.NET_PTP_DELAY_REQ_RX := off_at 18 hF rfl
theorem off_NET_PTP_LOCK_LOSSES (hF : Dj F 0x4000000000000) : Off F R.NET_PTP_LOCK_LOSSES := off_at 18 hF rfl
theorem off_NET_PRP_STATUS (hF : Dj F 0x4000000000000) : Off F R.NET_PRP_STATUS := off_at 18 hF rfl
theorem off_NET_PRP_DUP_DISCARDED (hF : Dj F 0x4000000000000) : Off F R.NET_PRP_DUP_DISCARDED := off_at 18 hF rfl
theorem off_NET_PRP_WRONG_LAN (hF : Dj F 0x4000000000000) : Off F R.NET_PRP_WRONG_LAN := off_at 18 hF rfl
theorem off_NET_PRP_NODES (hF : Dj F 0x4000000000000) : Off F R.NET_PRP_NODES := off_at 18 hF rfl
theorem off_NET_PORT_STATUS {i} (hF : Dj F 0x4000000000000) : Off F (R.NET_PORT_STATUS i) := off_inst 18 _ _ hF rfl
theorem off_NET_PORT_RX_FRAMES {i} (hF : Dj F 0x4000000000000) : Off F (R.NET_PORT_RX_FRAMES i) := off_inst 18 _ _ hF rfl
theorem off_NET_PORT_TX_FRAMES {i} (hF : Dj F 0x4000000000000) : Off F (R.NET_PORT_TX_FRAMES i) := off_inst 18 _ _ hF rfl
theorem off_NET_PORT_RX_ERRORS {i} (hF : Dj F 0x4000000000000) : Off F (R.NET_PORT_RX_ERRORS i) := off_inst 18 _ _ hF rfl
theorem off_NET_PORT_DROPPED {i} (hF : Dj F 0x4000000000000) : Off F (R.NET_PORT_DROPPED i) := off_inst 18 _ _ hF rfl
theorem off_NET_PORT_IPV4 {i} (hF : Dj F 0x4000000000000) : Off F (R.NET_PORT_IPV4 i) := off_inst 18 _ _ hF rfl
theorem off_NET_HELM_REFUSED (hF : Dj F 0x4000000000000) : Off F R.NET_HELM_REFUSED := off_at 18 hF rfl
theorem off_NET_TLS_FAILURES (hF : Dj F 0x4000000000000) : Off F R.NET_TLS_FAILURES := off_at 18 hF rfl
theorem off_NET_MODBUS_STATUS (hF : Dj F 0x4000000000000) : Off F R.NET_MODBUS_STATUS := off_at 18 hF rfl
theorem off_NET_MODBUS_REQUESTS (hF : Dj F 0x4000000000000) : Off F R.NET_MODBUS_REQUESTS := off_at 18 hF rfl
theorem off_NET_MODBUS_EXCEPTIONS (hF : Dj F 0x4000000000000) : Off F R.NET_MODBUS_EXCEPTIONS := off_at 18 hF rfl
theorem off_NET_PCS_TX (hF : Dj F 0x4000000000000) : Off F R.NET_PCS_TX := off_at 18 hF rfl
theorem off_NET_PCS_RX (hF : Dj F 0x4000000000000) : Off F R.NET_PCS_RX := off_at 18 hF rfl
theorem off_NET_PCS_REJECTED (hF : Dj F 0x4000000000000) : Off F R.NET_PCS_REJECTED := off_at 18 hF rfl
theorem off_NET_SAFETY_RX (hF : Dj F 0x4000000000000) : Off F R.NET_SAFETY_RX := off_at 18 hF rfl
theorem off_NET_SAFETY_REJECTED (hF : Dj F 0x4000000000000) : Off F R.NET_SAFETY_REJECTED := off_at 18 hF rfl
theorem off_NET_ARP_CONFLICTS (hF : Dj F 0x4000000000000) : Off F R.NET_ARP_CONFLICTS := off_at 18 hF rfl
theorem off_NET_PTP_ANNOUNCE_RX (hF : Dj F 0x4000000000000) : Off F R.NET_PTP_ANNOUNCE_RX := off_at 18 hF rfl
theorem off_NET_PTP_PORT_STATES (hF : Dj F 0x4000000000000) : Off F R.NET_PTP_PORT_STATES := off_at 18 hF rfl
theorem off_NET_DROPPED_UNSERVED (hF : Dj F 0x4000000000000) : Off F R.NET_DROPPED_UNSERVED := off_at 18 hF rfl
theorem off_NET_EVENT_STATUS_ADDRESS_CONFLICT (hF : Dj F 0x4000000000000) : Off F R.NET_EVENT_STATUS_ADDRESS_CONFLICT := off_at 18 hF rfl
theorem off_NET_EVENT_STATUS_MODBUS_WRITE (hF : Dj F 0x4000000000000) : Off F R.NET_EVENT_STATUS_MODBUS_WRITE := off_at 18 hF rfl
theorem off_NET_EVENT_STATUS_PRP_LAN_FAULT (hF : Dj F 0x4000000000000) : Off F R.NET_EVENT_STATUS_PRP_LAN_FAULT := off_at 18 hF rfl
theorem off_NET_EVENT_STATUS_PTP_STATE (hF : Dj F 0x4000000000000) : Off F R.NET_EVENT_STATUS_PTP_STATE := off_at 18 hF rfl
theorem off_NET_EVENT_STATUS_LINK_CHANGE (hF : Dj F 0x4000000000000) : Off F R.NET_EVENT_STATUS_LINK_CHANGE := off_at 18 hF rfl
theorem off_ACQ_STATUS_RUNNING (hF : Dj F 0x8000000000000) : Off F R.ACQ_STATUS_RUNNING := off_at 19 hF rfl
theorem off_ACQ_ARMED_LO (hF : Dj F 0x8000000000000) : Off F R.ACQ_ARMED_LO := off_at 19 hF rfl
theorem off_ACQ_COMPLETE_LO (hF : Dj F 0x8000000000000) : Off F R.ACQ_COMPLETE_LO := off_at 19 hF rfl
theorem off_ACQ_RECORDS (hF : Dj F 0x8000000000000) : Off F R.ACQ_RECORDS := off_at 19 hF rfl
theorem off_ACQ_TRIGGERS_IGNORED (hF : Dj F 0x8000000000000) : Off F R.ACQ_TRIGGERS_IGNORED := off_at 19 hF rfl
theorem off_ACQ_NO_RESOURCE (hF : Dj F 0x8000000000000) : Off F R.ACQ_NO_RESOURCE := off_at 19 hF rfl
theorem off_ACQ_AUTO_TRIGGERS (hF : Dj F 0x8000000000000) : Off F R.ACQ_AUTO_TRIGGERS := off_at 19 hF rfl
theorem off_ACQ_ABORTS (hF : Dj F 0x8000000000000) : Off F R.ACQ_ABORTS := off_at 19 hF rfl
theorem off_ACQ_EVENT_STATUS_REFUSED (hF : Dj F 0x8000000000000) : Off F R.ACQ_EVENT_STATUS_REFUSED := off_at 19 hF rfl
theorem off_ACQ_EVENT_STATUS_ABORTED (hF : Dj F 0x8000000000000) : Off F R.ACQ_EVENT_STATUS_ABORTED := off_at 19 hF rfl
theorem off_ACQ_EVENT_STATUS_COMPLETE (hF : Dj F 0x8000000000000) : Off F R.ACQ_EVENT_STATUS_COMPLETE := off_at 19 hF rfl
theorem off_ACQ_POOL_STATUS (hF : Dj F 0x8000000000000) : Off F R.ACQ_POOL_STATUS := off_at 19 hF rfl
theorem off_ACQ_RATE_STATUS (hF : Dj F 0x8000000000000) : Off F R.ACQ_RATE_STATUS := off_at 19 hF rfl
theorem off_REC_STATUS_READ_ONLY (hF : Dj F 0x10000000000000) : Off F R.REC_STATUS_READ_ONLY := off_at 20 hF rfl
theorem off_REC_STATUS_ZEROING (hF : Dj F 0x10000000000000) : Off F R.REC_STATUS_ZEROING := off_at 20 hF rfl
theorem off_REC_STATUS_RESERVE_IN_USE (hF : Dj F 0x10000000000000) : Off F R.REC_STATUS_RESERVE_IN_USE := off_at 20 hF rfl
theorem off_REC_STATUS_FULL (hF : Dj F 0x10000000000000) : Off F R.REC_STATUS_FULL := off_at 20 hF rfl
theorem off_REC_STATUS_HIGH (hF : Dj F 0x10000000000000) : Off F R.REC_STATUS_HIGH := off_at 20 hF rfl
theorem off_REC_USED (hF : Dj F 0x10000000000000) : Off F R.REC_USED := off_at 20 hF rfl
theorem off_REC_RECORDS (hF : Dj F 0x10000000000000) : Off F R.REC_RECORDS := off_at 20 hF rfl
theorem off_REC_NEXT_SEQ (hF : Dj F 0x10000000000000) : Off F R.REC_NEXT_SEQ := off_at 20 hF rfl
theorem off_REC_FIRST_SEQ (hF : Dj F 0x10000000000000) : Off F R.REC_FIRST_SEQ := off_at 20 hF rfl
theorem off_REC_LOST (hF : Dj F 0x10000000000000) : Off F R.REC_LOST := off_at 20 hF rfl
theorem off_REC_TORN (hF : Dj F 0x10000000000000) : Off F R.REC_TORN := off_at 20 hF rfl
theorem off_REC_RESERVE_USED (hF : Dj F 0x10000000000000) : Off F R.REC_RESERVE_USED := off_at 20 hF rfl
theorem off_REC_LEDGER_COUNT (hF : Dj F 0x10000000000000) : Off F R.REC_LEDGER_COUNT := off_at 20 hF rfl
theorem off_REC_EXPORT_STATUS_SESSION (hF : Dj F 0x10000000000000) : Off F R.REC_EXPORT_STATUS_SESSION := off_at 20 hF rfl
theorem off_REC_EXPORT_STATUS_KIND (hF : Dj F 0x10000000000000) : Off F R.REC_EXPORT_STATUS_KIND := off_at 20 hF rfl
theorem off_REC_EXPORT_STATUS_PAUSED (hF : Dj F 0x10000000000000) : Off F R.REC_EXPORT_STATUS_PAUSED := off_at 20 hF rfl
theorem off_REC_EXPORT_STATUS_RUNNING (hF : Dj F 0x10000000000000) : Off F R.REC_EXPORT_STATUS_RUNNING := off_at 20 hF rfl
theorem off_REC_EXPORT_OFFSET (hF : Dj F 0x10000000000000) : Off F R.REC_EXPORT_OFFSET := off_at 20 hF rfl
theorem off_REC_TRACE_STATUS_LOST_BERTH (hF : Dj F 0x10000000000000) : Off F R.REC_TRACE_STATUS_LOST_BERTH := off_at 20 hF rfl
theorem off_REC_TRACE_STATUS_WRAPPED (hF : Dj F 0x10000000000000) : Off F R.REC_TRACE_STATUS_WRAPPED := off_at 20 hF rfl
theorem off_REC_TRACE_WRAPS (hF : Dj F 0x10000000000000) : Off F R.REC_TRACE_WRAPS := off_at 20 hF rfl
theorem off_REC_RETURN_STATUS (hF : Dj F 0x10000000000000) : Off F R.REC_RETURN_STATUS := off_at 20 hF rfl
theorem off_REC_RETURN_STATUS_CHOICE (hF : Dj F 0x10000000000000) : Off F R.REC_RETURN_STATUS_CHOICE := off_at 20 hF rfl
theorem off_REC_RETURN_STATUS_STATE (hF : Dj F 0x10000000000000) : Off F R.REC_RETURN_STATUS_STATE := off_at 20 hF rfl
theorem off_REC_EVENT_STATUS_RETURN_PREPARED (hF : Dj F 0x10000000000000) : Off F R.REC_EVENT_STATUS_RETURN_PREPARED := off_at 20 hF rfl
theorem off_REC_EVENT_STATUS_CLEARED (hF : Dj F 0x10000000000000) : Off F R.REC_EVENT_STATUS_CLEARED := off_at 20 hF rfl
theorem off_REC_EVENT_STATUS_FULL (hF : Dj F 0x10000000000000) : Off F R.REC_EVENT_STATUS_FULL := off_at 20 hF rfl
theorem off_REC_EVENT_STATUS_HIGH (hF : Dj F 0x10000000000000) : Off F R.REC_EVENT_STATUS_HIGH := off_at 20 hF rfl
theorem off_SEC_STATUS (hF : Dj F 0x400000000) : Off F R.SEC_STATUS := off_at 2 hF rfl
theorem off_SEC_LIFECYCLE_FUSES (hF : Dj F 0x400000000) : Off F R.SEC_LIFECYCLE_FUSES := off_at 2 hF rfl
theorem off_SEC_LIFECYCLE_STATE (hF : Dj F 0x400000000) : Off F R.SEC_LIFECYCLE_STATE := off_at 2 hF rfl
theorem off_SEC_DEBUG_STATUS (hF : Dj F 0x400000000) : Off F R.SEC_DEBUG_STATUS := off_at 2 hF rfl
theorem off_SEC_DEBUG_STATUS_SESSION (hF : Dj F 0x400000000) : Off F R.SEC_DEBUG_STATUS_SESSION := off_at 2 hF rfl
theorem off_SEC_DEBUG_STATUS_PERMISSIONS (hF : Dj F 0x400000000) : Off F R.SEC_DEBUG_STATUS_PERMISSIONS := off_at 2 hF rfl
theorem off_SEC_DEBUG_STATUS_STATE (hF : Dj F 0x400000000) : Off F R.SEC_DEBUG_STATUS_STATE := off_at 2 hF rfl
theorem off_SEC_FW_RUNNING (hF : Dj F 0x400000000) : Off F R.SEC_FW_RUNNING := off_at 2 hF rfl
theorem off_SEC_FW_VERSION_A (hF : Dj F 0x400000000) : Off F R.SEC_FW_VERSION_A := off_at 2 hF rfl
theorem off_SEC_FW_VERSION_B (hF : Dj F 0x400000000) : Off F R.SEC_FW_VERSION_B := off_at 2 hF rfl
theorem off_SEC_FW_FLOOR (hF : Dj F 0x400000000) : Off F R.SEC_FW_FLOOR := off_at 2 hF rfl
theorem off_SEC_STAGE_INDEX (hF : Dj F 0x400000000) : Off F R.SEC_STAGE_INDEX := off_at 2 hF rfl
theorem off_SEC_TOKEN_EXPIRY (hF : Dj F 0x400000000) : Off F R.SEC_TOKEN_EXPIRY := off_at 2 hF rfl
theorem off_SEC_TOKEN_RESULT (hF : Dj F 0x400000000) : Off F R.SEC_TOKEN_RESULT := off_at 2 hF rfl
theorem off_SEC_TAMPER_STATUS (hF : Dj F 0x400000000) : Off F R.SEC_TAMPER_STATUS := off_at 2 hF rfl
theorem off_SEC_EVENT_STATUS (hF : Dj F 0x400000000) : Off F R.SEC_EVENT_STATUS := off_at 2 hF rfl
theorem off_SEC_CERT_REJECTS (hF : Dj F 0x400000000) : Off F R.SEC_CERT_REJECTS := off_at 2 hF rfl
theorem off_SEC_SIG_FAILS (hF : Dj F 0x400000000) : Off F R.SEC_SIG_FAILS := off_at 2 hF rfl
theorem off_SEC_ENROLMENTS (hF : Dj F 0x400000000) : Off F R.SEC_ENROLMENTS := off_at 2 hF rfl
theorem off_SEC_RNG_STATUS (hF : Dj F 0x400000000) : Off F R.SEC_RNG_STATUS := off_at 2 hF rfl
theorem off_SEC_REVOKED (hF : Dj F 0x400000000) : Off F R.SEC_REVOKED := off_at 2 hF rfl
theorem off_SEC_KEY_STATUS {i} (hF : Dj F 0x400000000) : Off F (R.SEC_KEY_STATUS i) := off_inst 2 _ _ hF rfl
theorem off_SEC_TAMPER_COUNT {i} (hF : Dj F 0x400000000) : Off F (R.SEC_TAMPER_COUNT i) := off_inst 2 _ _ hF rfl
theorem off_DBG_STATUS (hF : Dj F 0x20000000000000) : Off F R.DBG_STATUS := off_at 21 hF rfl
theorem off_DBG_HALT_REQUEST (hF : Dj F 0x20000000000000) : Off F R.DBG_HALT_REQUEST := off_at 21 hF rfl
theorem off_DBG_HALT_STATUS (hF : Dj F 0x20000000000000) : Off F R.DBG_HALT_STATUS := off_at 21 hF rfl
theorem off_DBG_HALT_DEFERRED (hF : Dj F 0x20000000000000) : Off F R.DBG_HALT_DEFERRED := off_at 21 hF rfl
theorem off_DBG_MEM_ADDR_LO (hF : Dj F 0x20000000000000) : Off F R.DBG_MEM_ADDR_LO := off_at 21 hF rfl
theorem off_DBG_MEM_ADDR_HI (hF : Dj F 0x20000000000000) : Off F R.DBG_MEM_ADDR_HI := off_at 21 hF rfl
theorem off_DBG_MEM_STATUS (hF : Dj F 0x20000000000000) : Off F R.DBG_MEM_STATUS := off_at 21 hF rfl
theorem off_DBG_HALTS (hF : Dj F 0x20000000000000) : Off F R.DBG_HALTS := off_at 21 hF rfl
theorem off_DBG_DEFERRALS (hF : Dj F 0x20000000000000) : Off F R.DBG_DEFERRALS := off_at 21 hF rfl
theorem off_DBG_BREAK_HITS (hF : Dj F 0x20000000000000) : Off F R.DBG_BREAK_HITS := off_at 21 hF rfl
theorem off_DBG_REFUSED (hF : Dj F 0x20000000000000) : Off F R.DBG_REFUSED := off_at 21 hF rfl
theorem off_DBG_SESSIONS (hF : Dj F 0x20000000000000) : Off F R.DBG_SESSIONS := off_at 21 hF rfl
theorem off_DBG_BREAK_ENABLE (hF : Dj F 0x20000000000000) : Off F R.DBG_BREAK_ENABLE := off_at 21 hF rfl
theorem off_DBG_CORE_STATUS {i} (hF : Dj F 0x20000000000000) : Off F (R.DBG_CORE_STATUS i) := off_inst 21 _ _ hF rfl
theorem off_SYS_FW_VERSION (hF : Dj F 0x100000000) : Off F R.SYS_FW_VERSION := off_at 0 hF rfl
theorem off_SYS_START_STATUS_CONTROL_RESULT (hF : Dj F 0x100000000) : Off F R.SYS_START_STATUS_CONTROL_RESULT := off_at 0 hF rfl
theorem off_SYS_START_STATUS_ATTEMPT_LATCHED (hF : Dj F 0x100000000) : Off F R.SYS_START_STATUS_ATTEMPT_LATCHED := off_at 0 hF rfl
theorem off_SYS_START_STATUS_LEARNED_DEFAULTED (hF : Dj F 0x100000000) : Off F R.SYS_START_STATUS_LEARNED_DEFAULTED := off_at 0 hF rfl
theorem off_SYS_START_STATUS_SUCCEEDED (hF : Dj F 0x100000000) : Off F R.SYS_START_STATUS_SUCCEEDED := off_at 0 hF rfl
theorem off_SYS_START_STATUS_MOORING (hF : Dj F 0x100000000) : Off F R.SYS_START_STATUS_MOORING := off_at 0 hF rfl
theorem off_SYS_START_STATUS_STAGE (hF : Dj F 0x100000000) : Off F R.SYS_START_STATUS_STAGE := off_at 0 hF rfl
theorem off_SYS_FAILED_STARTS (hF : Dj F 0x100000000) : Off F R.SYS_FAILED_STARTS := off_at 0 hF rfl
theorem off_SYS_BOOT_CAUSE (hF : Dj F 0x100000000) : Off F R.SYS_BOOT_CAUSE := off_at 0 hF rfl
theorem off_SYS_FAIL_CODE {i} (hF : Dj F 0x100000000) : Off F (R.SYS_FAIL_CODE i) := off_inst 0 _ _ hF rfl
theorem off_SYS_FAIL_CYCLES {i} (hF : Dj F 0x100000000) : Off F (R.SYS_FAIL_CYCLES i) := off_inst 0 _ _ hF rfl
theorem off_SYS_FAIL_OPSEC {i} (hF : Dj F 0x100000000) : Off F (R.SYS_FAIL_OPSEC i) := off_inst 0 _ _ hF rfl
theorem off_SYS_SELFTEST_CORES_GOOD (hF : Dj F 0x100000000) : Off F R.SYS_SELFTEST_CORES_GOOD := off_at 0 hF rfl
theorem off_SYS_SELFTEST_LANES_GOOD (hF : Dj F 0x100000000) : Off F R.SYS_SELFTEST_LANES_GOOD := off_at 0 hF rfl
theorem off_SYS_SELFTEST_PAIRS (hF : Dj F 0x100000000) : Off F R.SYS_SELFTEST_PAIRS := off_at 0 hF rfl
theorem off_SYS_SELFTEST_DRAM_CHANNELS (hF : Dj F 0x100000000) : Off F R.SYS_SELFTEST_DRAM_CHANNELS := off_at 0 hF rfl
theorem off_SYS_SELFTEST_XNG_FAILED (hF : Dj F 0x100000000) : Off F R.SYS_SELFTEST_XNG_FAILED := off_at 0 hF rfl
theorem off_SYS_SELFTEST_PORTS_SER_FAILED (hF : Dj F 0x100000000) : Off F R.SYS_SELFTEST_PORTS_SER_FAILED := off_at 0 hF rfl
theorem off_SYS_SELFTEST_PORTS_MBC_FAILED (hF : Dj F 0x100000000) : Off F R.SYS_SELFTEST_PORTS_MBC_FAILED := off_at 0 hF rfl
theorem off_SYS_SELFTEST_PORTS_POS_FAILED (hF : Dj F 0x100000000) : Off F R.SYS_SELFTEST_PORTS_POS_FAILED := off_at 0 hF rfl
theorem off_SYS_PARTNERS_ABSENT (hF : Dj F 0x100000000) : Off F R.SYS_PARTNERS_ABSENT := off_at 0 hF rfl
theorem off_SYS_PARTNERS_QUARANTINED (hF : Dj F 0x100000000) : Off F R.SYS_PARTNERS_QUARANTINED := off_at 0 hF rfl
theorem off_SYS_UPTIME (hF : Dj F 0x100000000) : Off F R.SYS_UPTIME := off_at 0 hF rfl
theorem off_SYS_STARTS (hF : Dj F 0x100000000) : Off F R.SYS_STARTS := off_at 0 hF rfl
theorem off_SYS_STARTS_FAILED (hF : Dj F 0x100000000) : Off F R.SYS_STARTS_FAILED := off_at 0 hF rfl
theorem off_SYS_MOORING_ENTRIES (hF : Dj F 0x100000000) : Off F R.SYS_MOORING_ENTRIES := off_at 0 hF rfl
theorem off_SYS_LAST_SUCCESS_OPSEC (hF : Dj F 0x100000000) : Off F R.SYS_LAST_SUCCESS_OPSEC := off_at 0 hF rfl
theorem off_SYS_EVENT_STATUS_PARTNERS_CHANGED (hF : Dj F 0x100000000) : Off F R.SYS_EVENT_STATUS_PARTNERS_CHANGED := off_at 0 hF rfl
theorem off_SYS_EVENT_STATUS_START_SUCCEEDED (hF : Dj F 0x100000000) : Off F R.SYS_EVENT_STATUS_START_SUCCEEDED := off_at 0 hF rfl
theorem off_SYS_EVENT_STATUS_STAGE_CHANGED (hF : Dj F 0x100000000) : Off F R.SYS_EVENT_STATUS_STAGE_CHANGED := off_at 0 hF rfl
theorem off_SYS_SITE_TAG {i} (hF : Dj F 0x100000000) : Off F (R.SYS_SITE_TAG i) := off_inst 0 _ _ hF rfl
theorem off_SYS_STAGE_MS {i} (hF : Dj F 0x100000000) : Off F (R.SYS_STAGE_MS i) := off_inst 0 _ _ hF rfl

end Sys2Proof.Machine
end

