-- ==== Sys2Proof/Laws/KeptOps.lean ====
section
/-!
SUPPORT. The operations of Machine/Ops.lean change only the parts that their masks name (Laws/Held.lean).
-/
namespace Sys2Proof.Machine
open Sys2Proof
set_option Elab.async false

variable {b0 : State} {F : Nat}

theorem held_drawReal {s} (hF : Dj F 0x1000000) (hs : Held b0 F s) : Held2 b0 F (State.drawReal s) :=
  held_free hF hs (Nat.le_succ _)
theorem held_setEventQ {s q e} (hF : Dj F 0x8) (hs : Held b0 F s) : Held b0 F (State.setEventQ s q e) := by
  unfold State.setEventQ
  exact held_mk_hq (dj hF) ‹_›
theorem held_setWord {s a w} (hF : Dj F 0x3FFFFF00000001) (hs : Held b0 F s) : Held b0 F (State.setWord s a w) :=
  held_setWordAt (dj hF) (by
    by_cases h : a < 0x150000
    · cases hk : F.testBit (32 + blockNo a)
      · exact Or.inr hk
      · exact off_all (dj hF) a hk h
    · exact Or.inl (by omega)) hs
theorem held_onCmd {f : Cmd → State → State} {s q code} (hF : Dj F 0x0) (hs : Held b0 F s) (hf : ∀ y0 y1, Held b0 F y1 → Held b0 F (f y0 y1)) : HeldR b0 F (State.onCmd s q code f) := by
  unfold State.onCmd
  split
  · exact heldR_next ‹_›
  · refine ite_ind (Q := HeldR b0 F) (fun _ => ?_) (fun _ => ?_)
    · refine heldR_next ?_
      refine hf _ _ ?_
      · assumption
    · exact heldR_next ‹_›
theorem held_modPwr {s f} (hF : Dj F 0x20) (hs : Held b0 F s) : Held b0 F (State.modPwr s f) := by
  unfold State.modPwr
  exact held_mk_pwr (dj hF) ‹_›
theorem held_wr {s f v} (hF : Dj F 0x1) (hs : Held b0 F s) (hOf : Off F f) : Held b0 F (State.wr s f v) :=
  held_setWordAt hF hOf.1 hs
theorem held_setSession {s n x} (hF : Dj F 0x8) (hs : Held b0 F s) : Held b0 F (State.setSession s n x) := by
  unfold State.setSession
  exact held_mk_hq (dj hF) ‹_›
theorem held_wr64 {s lo v} (hF : Dj F 0x1) (hs : Held b0 F s) (hOlo : Off F lo) : Held b0 F (State.wr64 s lo v) :=
  held_setWordAt hF hOlo.2 (held_wr hF hs hOlo)
theorem held_send {s o} (hF : Dj F 0x800000) (hs : Held b0 F s) : Held b0 F (State.send s o) :=
  held_out hF hs (List.suffix_cons _ _)
theorem held_acqHear {s e} (hF : Dj F 0x200000) (hs : Held b0 F s) : Held b0 F (State.acqHear s e) := by
  unfold State.acqHear
  refine ite_ind (Q := Held b0 F) (fun _ => ?_) (fun _ => ?_)
  · exact held_mk_acq (dj hF) ‹_›
  · assumption
theorem held_drawWord {s} (hF : Dj F 0x1000000) (hs : Held b0 F s) : Held2 b0 F (State.drawWord s) :=
  held_free hF hs (Nat.le_succ _)
theorem held_wrB {s f b} (hF : Dj F 0x1) (hs : Held b0 F s) (hf : Off F f) : Held b0 F (State.wrB s f b) := by
  unfold State.wrB
  exact held_wr (dj hF) ‹_› ‹_›
theorem held_inc {s f} (hF : Dj F 0x1) (hs : Held b0 F s) (hf : Off F f) : Held b0 F (State.inc s f) := by
  unfold State.inc
  exact held_wr (dj hF) ‹_› ‹_›
theorem held_acqSource {s kind arg up stamp} (hF : Dj F 0x200000) (hs : Held b0 F s) : Held b0 F (State.acqSource s kind arg up stamp) := by
  unfold State.acqSource
  exact held_acqHear (dj hF) ‹_›
theorem held_incBy {s f n} (hF : Dj F 0x1) (hs : Held b0 F s) (hf : Off F f) : Held b0 F (State.incBy s f n) := by
  unfold State.incBy
  exact held_wr (dj hF) ‹_› ‹_›
theorem held_clearCounters {s base len} (hF : Dj F 0x3FFFFF00000001) (hs : Held b0 F s) : Held b0 F (State.clearCounters s base len) := by
  unfold State.clearCounters
  exact foldl_ind (Q := Held b0 F) (fun s _ hs => held_setWord hF hs) hs
theorem held_wrS {s f v} (hF : Dj F 0x1) (hs : Held b0 F s) (hf : Off F f) : Held b0 F (State.wrS s f v) := by
  unfold State.wrS
  exact held_wr (dj hF) ‹_› ‹_›
theorem held_sendTo {s n o} (hF : Dj F 0x800008) (hs : Held b0 F s) : Held b0 F (State.sendTo s n o) := by
  unfold State.sendTo
  exact held_send (dj hF) (held_mk_hq (dj hF) ‹_›)
theorem held_sendAll {s l} (hF : Dj F 0x800000) (hs : Held b0 F s) : Held b0 F (State.sendAll s l) := by
  unfold State.sendAll
  refine foldl_ind (Q := Held b0 F) (fun _ _ hs => ?_) ?_
  · exact held_send (dj hF) ‹_›
  · assumption
theorem held_postN {n s q code inst data} (hF : Dj F 0x1000000009) (hs : Held b0 F s) : Held b0 F (State.postN n s q code inst data) := by
  have key : ∀ (n : Nat), (∀ m, n = m + 1 → ∀ {s q code inst data}, Held b0 F s → Held b0 F (State.postN m s q code inst data)) →
      ∀ {s q code inst data}, Held b0 F s → Held b0 F (State.postN n s q code inst data) := by
    intro n ih s q code inst data hs
    unfold State.postN
    extract_lets +onlyGivenNames src
    extract_lets +onlyGivenNames k
    extract_lets +onlyGivenNames _ s
    have hs : Held b0 F s := held_mk_hq (dj hF) ‹_›
    extract_lets +onlyGivenNames eq note
    have hnote : ∀ s f x, Off F f → Held b0 F s → Held b0 F (note s f x) := by
      intro s f b hf hs
      unfold note
      refine ite_ind (Q := Held _ F) (fun _ => ?_) (fun _ => ?_)
      · assumption
      · extract_lets +onlyGivenNames s
        have hs := held_wrB (f := f) (b := true) (dj hF) hs hf
        split
        · assumption
        · refine ite_ind (Q := Held _ F) (fun _ => ?_) (fun _ => ?_)
          · exact ih _ rfl ‹_›
          · assumption
    clear_value note
    refine ite_ind (Q := Held b0 F) (fun _ => ?_) (fun _ => ?_)
    · exact hnote _ _ _ (off_HQ_EVENT_STATUS_EVENTS_LOST (dj hF)) (held_inc (dj hF) (held_setEventQ (dj hF) ‹_›) (off_HQ_EQ_LOST (dj hF)))
    · extract_lets +onlyGivenNames e
      extract_lets +onlyGivenNames s
      have hs : Held b0 F s := held_inc (dj hF) (held_setEventQ (dj hF) ‹_›) (off_HQ_EQ_NEXT_SEQ (dj hF))
      extract_lets +onlyGivenNames _ s
      have hs : Held b0 F s := held_mk_hq (dj hF) ‹_›
      refine ite_ind (Q := Held b0 F) (fun _ => ?_) (fun _ => ?_)
      · exact hnote _ _ _ (off_HQ_EVENT_STATUS_EQ_HIGH (dj hF)) ‹_›
      · assumption
  induction n generalizing s q code inst data with
  | zero => exact key 0 (fun m h => by omega) hs
  | succ n ih => exact key (n + 1) (fun m h => by obtain rfl : n = m := by omega
                                                  exact ih) hs
theorem held_incSat {s f} (hF : Dj F 0x1) (hs : Held b0 F s) (hf : Off F f) : Held b0 F (State.incSat s f) := by
  unfold State.incSat
  refine ite_ind (Q := Held b0 F) (fun _ => ?_) (fun _ => ?_)
  · exact held_wr (dj hF) ‹_› ‹_›
  · assumption
theorem held_wrS48 {s lo v} (hF : Dj F 0x1) (hs : Held b0 F s) (hlo : Off F lo) : Held b0 F (State.wrS48 s lo v) := by
  unfold State.wrS48
  exact held_wr64 (dj hF) ‹_› ‹_›
theorem held_appendRec {s r} (hF : Dj F 0x10000000000003) (hs : Held b0 F s) : Held b0 F (State.appendRec s r) := by
  unfold State.appendRec
  exact held_inc (dj hF) (held_inc (dj hF) (held_incBy (dj hF) (held_mk_nv (dj hF) ‹_›) (off_REC_USED (dj hF))) (off_REC_RECORDS (dj hF))) (off_REC_NEXT_SEQ (dj hF))
theorem held_complete {s q status result} (hF : Dj F 0x800028) (hs : Held b0 F s) : Held b0 F (State.complete s q status result) := by
  unfold State.complete
  split
  · assumption
  · extract_lets -merge -underBinder +onlyGivenNames zz0 zz1 s
    have hs : Held b0 F s := held_mk_hq_pwr (dj hF) ‹_›
    try clear_value s
    split
    · assumption
    · refine ite_ind (Q := Held b0 F) (fun _ => ?_) (fun _ => ?_)
      · exact held_sendTo (dj hF) ‹_›
      · assumption
theorem held_reply {s n tag type status body} (hF : Dj F 0x800008) (hs : Held b0 F s) : Held b0 F (State.reply s n tag type status body) := by
  unfold State.reply
  split
  · assumption
  · exact held_sendTo (dj hF) (held_setSession (dj hF) ‹_›)
theorem held_tripRec {s r} (hF : Dj F 0x10000000000003) (hs : Held b0 F s) : Held b0 F (State.tripRec s r) := by
  unfold State.tripRec
  refine ite_ind (Q := Held b0 F) (fun _ => ?_) (fun _ => ?_)
  · exact held_wrB (dj hF) (held_inc (dj hF) (held_incBy (dj hF) (held_mk_nv (dj hF) ‹_›) (off_REC_RESERVE_USED (dj hF))) (off_REC_NEXT_SEQ (dj hF))) (off_REC_STATUS_RESERVE_IN_USE (dj hF))
  · exact held_inc (dj hF) ‹_› (off_REC_LOST (dj hF))
theorem held_sendEth {s p kind dst data} (hF : Dj F 0x4000000800001) (hs : Held b0 F s) : Held b0 F (State.sendEth s p kind dst data) := by
  unfold State.sendEth
  exact held_send (dj hF) (held_inc (dj hF) ‹_› (off_NET_PORT_TX_FRAMES (dj hF)))
theorem held_post {s q code inst data} (hF : Dj F 0x1000200009) (hs : Held b0 F s) : Held b0 F (State.post s q code inst data) := by
  unfold State.post
  exact held_acqHear (dj hF) (held_postN (dj hF) ‹_›)
theorem held_flag {s f} (hF : Dj F 0x1000200009) (hs : Held b0 F s) (hf : Off F f) : Held b0 F (State.flag s f) := by
  unfold State.flag
  refine ite_ind (Q := Held b0 F) (fun _ => ?_) (fun _ => ?_)
  · assumption
  · extract_lets -merge -underBinder +onlyGivenNames s
    have hs : Held b0 F s := held_wrB (dj hF) ‹_› ‹_›
    try clear_value s
    extract_lets -merge -underBinder +onlyGivenNames whole
    have hwhole : Off F whole := ‹_›
    try clear_value whole
    refine ite_ind (Q := Held b0 F) (fun _ => ?_) (fun _ => ?_)
    · exact held_post (dj hF) ‹_›
    · assumption
theorem held_stopLog {s} (hF : Dj F 0x1000100020000b) (hs : Held b0 F s) : Held b0 F (State.stopLog s) := by
  unfold State.stopLog
  extract_lets -merge -underBinder +onlyGivenNames d
  try clear_value d
  extract_lets -merge -underBinder +onlyGivenNames s
  have hs : Held b0 F s := held_wrB (dj hF) (held_appendRec (dj hF) ‹_›) (off_REC_STATUS_FULL (dj hF))
  try clear_value s
  exact held_flag (dj hF) (held_post (dj hF) ‹_›) (off_REC_EVENT_STATUS_FULL (dj hF))
theorem held_keepRec {s r} (hF : Dj F 0x1000100020000b) (hs : Held b0 F s) : Held b0 F (State.keepRec s r) := by
  unfold State.keepRec
  extract_lets -merge -underBinder +onlyGivenNames s
  have hs : Held b0 F s := held_appendRec (dj hF) ‹_›
  try clear_value s
  refine ite_ind (Q := Held b0 F) (fun _ => ?_) (fun _ => ?_)
  · extract_lets -merge -underBinder +onlyGivenNames s
    have hs : Held b0 F s := held_wrB (dj hF) ‹_› (off_REC_STATUS_HIGH (dj hF))
    try clear_value s
    extract_lets -merge -underBinder +onlyGivenNames d
    try clear_value d
    extract_lets -merge -underBinder +onlyGivenNames s
    have hs : Held b0 F s := held_appendRec (dj hF) ‹_›
    try clear_value s
    exact held_flag (dj hF) (held_post (dj hF) ‹_›) (off_REC_EVENT_STATUS_HIGH (dj hF))
  · assumption
theorem held_recordTrip {s code inst holdUp data} (hF : Dj F 0x1000100020000b) (hs : Held b0 F s) : Held b0 F (State.recordTrip s code inst holdUp data) := by
  unfold State.recordTrip
  extract_lets -merge -underBinder +onlyGivenNames s
  have hs : Held b0 F s := by
    unfold s
    refine ite_ind (Q := Held b0 F) (fun _ => ?_) (fun _ => ?_)
    · exact held_stopLog (dj hF) ‹_›
    · assumption
  try clear_value s
  extract_lets -merge -underBinder +onlyGivenNames r
  try clear_value r
  refine ite_ind (Q := Held b0 F) (fun _ => ?_) (fun _ => ?_)
  · assumption
  · refine ite_ind (Q := Held b0 F) (fun _ => ?_) (fun _ => ?_)
    · exact held_tripRec (dj hF) ‹_›
    · exact held_keepRec (dj hF) ‹_›
theorem held_berthResult {s r} (hF : Dj F 0x1200200009) (hs : Held b0 F s) : Held b0 F (State.berthResult s r) := by
  unfold State.berthResult
  refine ite_ind (Q := Held b0 F) (fun _ => ?_) (fun _ => ?_)
  · assumption
  · exact held_flag (dj hF) (held_wr (dj hF) ‹_› (off_PWR_STATE_BERTH_RESULT (dj hF))) (off_PWR_EVENT_STATUS_BERTH_RESULT (dj hF))
theorem held_record {s writer code inst data} (hF : Dj F 0x1000100020000b) (hs : Held b0 F s) : Held b0 F (State.record s writer code inst data) := by
  unfold State.record
  refine ite_ind (Q := Held b0 F) (fun _ => ?_) (fun _ => ?_)
  · assumption
  · refine ite_ind (Q := Held b0 F) (fun _ => ?_) (fun _ => ?_)
    · exact held_inc (dj hF) ‹_› (off_REC_LOST (dj hF))
    · refine ite_ind (Q := Held b0 F) (fun _ => ?_) (fun _ => ?_)
      · exact held_stopLog (dj hF) (held_inc (dj hF) ‹_› (off_REC_LOST (dj hF)))
      · exact held_keepRec (dj hF) ‹_›
theorem held_berthStop {s r} (hF : Dj F 0x1200200029) (hs : Held b0 F s) : Held b0 F (State.berthStop s r) := by
  unfold State.berthStop
  exact held_berthResult (dj hF) (held_wr (dj hF) (held_modPwr (dj hF) ‹_›) (off_PWR_STATE_STATE (dj hF)))
theorem held_wakeSource {s n} (hF : Dj F 0x1200200029) (hs : Held b0 F s) : Held b0 F (State.wakeSource s n) := by
  unfold State.wakeSource
  extract_lets -merge -underBinder +onlyGivenNames on
  try clear_value on
  refine ite_ind (Q := Held b0 F) (fun _ => ?_) (fun _ => ?_)
  · extract_lets -merge -underBinder +onlyGivenNames s
    have hs : Held b0 F s := held_wrB (dj hF) ‹_› (off_PWR_WAKE_LATCH (dj hF))
    try clear_value s
    refine ite_ind (Q := Held b0 F) (fun _ => ?_) (fun _ => ?_)
    · exact held_berthStop (dj hF) ‹_›
    · assumption
  · assumption
theorem held_raise {s e inst data} (hF : Dj F 0x1000100020000b) (hs : Held b0 F s) : Held b0 F (State.raise s e inst data) := by
  unfold State.raise
  extract_lets -merge -underBinder +onlyGivenNames s
  have hs : Held b0 F s := held_post (dj hF) ‹_›
  try clear_value s
  refine ite_ind (Q := Held b0 F) (fun _ => ?_) (fun _ => ?_)
  · exact held_record (dj hF) ‹_›
  · assumption
theorem held_recordBit {s f} (hF : Dj F 0x1000100020000b) (hs : Held b0 F s) (hf : Off F f) : Held b0 F (State.recordBit s f) := by
  unfold State.recordBit
  exact held_record (dj hF) ‹_›

end Sys2Proof.Machine
end

