-- ==== Sys2Proof/Laws/KeptOperands.lean ====
section
/-!
SUPPORT. The operations of Machine/Operands.lean change only the parts that their masks name (Laws/Held.lean).
-/
namespace Sys2Proof.Machine
open Sys2Proof
set_option Elab.async false

variable {b0 : State} {F : Nat}

theorem foldl_ind_mem {α β : Type} {Q : β → Prop} {f : β → α → β} {l : List α} {z : β} (hf : ∀ s x, x ∈ l → Q s → Q (f s x))
    (hz : Q z) : Q (l.foldl f z) := by
  induction l generalizing z with
  | nil => exact hz
  | cons x t ih => exact ih (fun s y hy => hf s y (List.mem_cons_of_mem _ hy)) (hf z x List.mem_cons_self hz)
/-- Counters of block `k` alone are cleared. -/
theorem held_clearAt {s base len} (k : Nat) (hF : Dj F 0x1) (hK : Dj F (2 ^ (32 + k))) (h1 : blkLo k ≤ base)
    (h2 : base + len ≤ blkHi k) (hs : Held b0 F s) : Held b0 F (State.clearCounters s base len) := by
  unfold State.clearCounters
  refine foldl_ind_mem (Q := Held b0 F) (fun s x hx hs => ?_) hs
  have hx := (List.mem_filter.1 hx).2
  simp only [Bool.and_eq_true, decide_eq_true_eq] at hx
  exact held_setWordAt hF (offA_blk hK (by simp; omega)) hs
theorem held_wrR {s f x} (hF : Dj F 0x1) (hs : Held b0 F s) (hf : Off F f) : Held b0 F (State.wrR s f x) := by
  unfold State.wrR
  exact held_wr (dj hF) ‹_› ‹_›

end Sys2Proof.Machine
end

