-- ==== Sys2Proof/Laws/KeptXngOps.lean ====
section
/-!
SUPPORT. The operations of Machine/XngOps.lean change only the parts that their masks name (Laws/Held.lean).
-/
namespace Sys2Proof.Machine
open Sys2Proof
set_option Elab.async false

variable {b0 : State} {F : Nat}

theorem held_freeTxn {s tag} (hF : Dj F 0x108) (hs : Held b0 F s) : Held b0 F (State.freeTxn s tag) := by
  unfold State.freeTxn
  exact held_mk_hq_xng (dj hF) ‹_›
theorem held_note {s n b what} (hF : Dj F 0x100) (hs : Held b0 F s) : Held b0 F (State.note s n b what) := by
  unfold State.note
  exact held_mk_xng (dj hF) ‹_›
theorem held_xngEvent {s e n b data} (hF : Dj F 0x1000100020000b) (hs : Held b0 F s) : Held b0 F (State.xngEvent s e n b data) := by
  unfold State.xngEvent
  exact held_raise (dj hF) ‹_›
theorem held_drawBytes {n s} (hF : Dj F 0x1000000) (hs : Held b0 F s) : Held2 b0 F (drawBytes n s) := by
  induction n generalizing s with
  | zero => exact hs
  | succ n ih => exact ih (held2_snd (held_drawWord (dj hF) hs))
theorem held_showRing {s n} (hF : Dj F 0x3000200009) (hs : Held b0 F s) : Held b0 F (State.showRing s n) := by
  unfold State.showRing
  extract_lets -merge -underBinder +onlyGivenNames r
  try clear_value r
  extract_lets -merge -underBinder +onlyGivenNames st
  try clear_value st
  extract_lets -merge -underBinder +onlyGivenNames old
  try clear_value old
  extract_lets -merge -underBinder +onlyGivenNames live
  try clear_value live
  extract_lets -merge -underBinder +onlyGivenNames sorted
  try clear_value sorted
  extract_lets -merge -underBinder +onlyGivenNames s
  have hs : Held b0 F s := held_wr (dj hF) ‹_› (off_XNG_RING_STATUS_STATE (dj hF))
  try clear_value s
  extract_lets -merge -underBinder +onlyGivenNames s
  have hs : Held b0 F s := held_wrB (dj hF) ‹_› (off_XNG_RING_STATUS_END_A_UP (dj hF))
  try clear_value s
  extract_lets -merge -underBinder +onlyGivenNames s
  have hs : Held b0 F s := held_wrB (dj hF) ‹_› (off_XNG_RING_STATUS_END_B_UP (dj hF))
  try clear_value s
  extract_lets -merge -underBinder +onlyGivenNames s
  have hs : Held b0 F s := held_wrB (dj hF) ‹_› (off_XNG_RING_STATUS_GEN1_PRESENT (dj hF))
  try clear_value s
  extract_lets -merge -underBinder +onlyGivenNames s
  have hs : Held b0 F s := held_wr (dj hF) ‹_› (off_XNG_GEN_SUMMARY_HOPS_UP (dj hF))
  try clear_value s
  extract_lets -merge -underBinder +onlyGivenNames s
  have hs : Held b0 F s := held_wr (dj hF) ‹_› (off_XNG_GEN_SUMMARY_GEN1_HOPS (dj hF))
  try clear_value s
  extract_lets -merge -underBinder +onlyGivenNames s
  have hs : Held b0 F s := held_wr (dj hF) ‹_› (off_XNG_BREAK_BREAK1 (dj hF))
  try clear_value s
  extract_lets -merge -underBinder +onlyGivenNames s
  have hs : Held b0 F s := held_wr (dj hF) ‹_› (off_XNG_BREAK_BREAK2 (dj hF))
  try clear_value s
  refine ite_ind (Q := Held b0 F) (fun _ => ?_) (fun _ => ?_)
  · exact held_flag (dj hF) ‹_› (off_XNG_EVENT_STATUS_RING_CHANGE (dj hF))
  · assumption
theorem held_setRing {s n r} (hF : Dj F 0x100) (hs : Held b0 F s) : Held b0 F (State.setRing s n r) := by
  unfold State.setRing
  exact held_mk_xng (dj hF) ‹_›
theorem held_setSleep {s n st} (hF : Dj F 0x3000200009) (hs : Held b0 F s) : Held b0 F (State.setSleep s n st) := by
  unfold State.setSleep
  refine ite_ind (Q := Held b0 F) (fun _ => ?_) (fun _ => ?_)
  · assumption
  · exact held_showRing (dj hF) (held_flag (dj hF) (held_wr (dj hF) ‹_› (off_XNG_SLEEP_STATUS_STATE (dj hF))) (off_XNG_EVENT_STATUS_SLEEP_CHANGE (dj hF)))
theorem held_modRing {s n f} (hF : Dj F 0x100) (hs : Held b0 F s) : Held b0 F (State.modRing s n f) := by
  unfold State.modRing
  exact held_setRing (dj hF) ‹_›
theorem held_renewPermit {s n} (hF : Dj F 0x100) (hs : Held b0 F s) : Held b0 F (State.renewPermit s n) := by
  unfold State.renewPermit
  refine ite_ind (Q := Held b0 F) (fun _ => ?_) (fun _ => ?_)
  · exact held_modRing (dj hF) ‹_›
  · assumption
theorem held_setNode {s n b x} (hF : Dj F 0x100) (hs : Held b0 F s) : Held b0 F (State.setNode s n b x) := by
  unfold State.setNode
  exact held_modRing (dj hF) ‹_›
theorem held_broadcast {s n typ payload} (hF : Dj F 0x800100) (hs : Held b0 F s) : Held b0 F (State.broadcast s n typ payload) := by
  unfold State.broadcast
  extract_lets -merge -underBinder +onlyGivenNames q
  try clear_value q
  extract_lets -merge -underBinder +onlyGivenNames f
  try clear_value f
  exact held_send (dj hF) (held_send (dj hF) (held_modRing (dj hF) ‹_›))
theorem held_reauthOne {s n b passed} (hF : Dj F 0x800128) (hs : Held b0 F s) : Held b0 F (State.reauthOne s n b passed) := by
  unfold State.reauthOne
  split
  · assumption
  · extract_lets -merge -underBinder +onlyGivenNames left'
    try clear_value left'
    extract_lets -merge -underBinder +onlyGivenNames k'
    try clear_value k'
    refine ite_ind (Q := Held b0 F) (fun _ => ?_) (fun _ => ?_)
    · exact held_complete (dj hF) (held_modRing (dj hF) ‹_›)
    · exact held_modRing (dj hF) ‹_›
theorem held_discover {s n mode} (hF : Dj F 0x800100) (hs : Held b0 F s) : Held b0 F (State.discover s n mode) := by
  unfold State.discover
  exact held_broadcast (dj hF) ‹_›
theorem held_censusEnd {s n} (hF : Dj F 0x800128) (hs : Held b0 F s) : Held b0 F (State.censusEnd s n) := by
  unfold State.censusEnd
  split
  · refine ite_ind (Q := Held b0 F) (fun _ => ?_) (fun _ => ?_)
    · exact held_complete (dj hF) (held_modRing (dj hF) ‹_›)
    · assumption
  · assumption
theorem held_startCensus {s n q wait} (hF : Dj F 0x800128) (hs : Held b0 F s) : Held b0 F (State.startCensus s n q wait) := by
  unfold State.startCensus
  extract_lets -merge -underBinder +onlyGivenNames s
  have hs : Held b0 F s := by
    unfold s
    split
    · exact held_complete (dj hF) ‹_›
    · assumption
  try clear_value s
  exact held_discover (dj hF) (held_modRing (dj hF) ‹_›)
theorem held_holdRing {s n reason} (hF : Dj F 0x800100) (hs : Held b0 F s) : Held b0 F (State.holdRing s n reason) := by
  unfold State.holdRing
  refine ite_ind (Q := Held b0 F) (fun _ => ?_) (fun _ => ?_)
  · assumption
  · exact held_broadcast (dj hF) ‹_›
theorem held_startWake {s n cause} (hF : Dj F 0x3000a00109) (hs : Held b0 F s) : Held b0 F (State.startWake s n cause) := by
  unfold State.startWake
  extract_lets -merge -underBinder +onlyGivenNames s
  have hs : Held b0 F s := held_send (dj hF) (held_send (dj hF) ‹_›)
  try clear_value s
  exact held_setSleep (dj hF) (held_modRing (dj hF) ‹_›)
theorem held_modNode {s n b f} (hF : Dj F 0x100) (hs : Held b0 F s) : Held b0 F (State.modNode s n b f) := by
  unfold State.modNode
  exact held_setNode (dj hF) ‹_›
theorem held_receive {s n frame typs} (hF : Dj F 0x2000000101) (hs : Held b0 F s) : Held1 b0 F (State.receive s n frame typs) := by
  unfold State.receive
  split
  · exact held1_mk (held_inc (dj hF) ‹_› (off_XNG_CRC_ERRORS (dj hF)))
  · refine ite_ind (Q := Held1 b0 F) (fun _ => ?_) (fun _ => ?_)
    · exact held1_mk (held_inc (dj hF) ‹_› (off_XNG_FRAMES_DROPPED (dj hF)))
    · refine ite_ind (Q := Held1 b0 F) (fun _ => ?_) (fun _ => ?_)
      · exact held1_mk ‹_›
      · refine ite_ind (Q := Held1 b0 F) (fun _ => ?_) (fun _ => ?_)
        · exact held1_mk (held_inc (dj hF) ‹_› (off_XNG_FRAMES_DROPPED (dj hF)))
        · exact held1_mk (held_modNode (dj hF) ‹_›)
theorem held_unicast {s n b tag typ flags payload} (hF : Dj F 0x800100) (hs : Held b0 F s) : Held b0 F (State.unicast s n b tag typ flags payload) := by
  unfold State.unicast
  extract_lets -merge -underBinder +onlyGivenNames x
  try clear_value x
  extract_lets -merge -underBinder +onlyGivenNames q
  try clear_value q
  exact held_send (dj hF) (held_setNode (dj hF) ‹_›)
theorem held_finish {s x status payload} (hF : Dj F 0x2000000101) (hs : Held b0 F s) : Held b0 F (State.finish s x status payload) := by
  unfold State.finish
  extract_lets -merge -underBinder +onlyGivenNames s
  have hs : Held b0 F s := by
    unfold s
    refine ite_ind (Q := Held b0 F) (fun _ => ?_) (fun _ => ?_)
    · exact held_inc (dj hF) ‹_› (off_XNG_TXN_NORES (dj hF))
    · assumption
  try clear_value s
  extract_lets -merge -underBinder +onlyGivenNames s
  have hs : Held b0 F s := by
    unfold s
    refine ite_ind (Q := Held b0 F) (fun _ => ?_) (fun _ => ?_)
    · exact held_modNode (dj hF) (held_inc (dj hF) ‹_› (off_XNG_TXN_TIMEOUT (dj hF)))
    · assumption
  try clear_value s
  exact held_mk_xng (dj hF) ‹_›
theorem held_requestNow {s n b typ payload use} (hF : Dj F 0x2000800101) (hs : Held b0 F s) : Held b0 F (State.requestNow s n b typ payload use) := by
  unfold State.requestNow
  extract_lets -merge -underBinder +onlyGivenNames x
  try clear_value x
  extract_lets -merge -underBinder +onlyGivenNames r
  try clear_value r
  extract_lets -merge -underBinder +onlyGivenNames t
  try clear_value t
  refine ite_ind (Q := Held b0 F) (fun _ => ?_) (fun _ => ?_)
  · exact held_finish (dj hF) ‹_›
  · refine ite_ind (Q := Held b0 F) (fun _ => ?_) (fun _ => ?_)
    · exact held_finish (dj hF) ‹_›
    · refine ite_ind (Q := Held b0 F) (fun _ => ?_) (fun _ => ?_)
      · exact held_finish (dj hF) ‹_›
      · refine ite_ind (Q := Held b0 F) (fun _ => ?_) (fun _ => ?_)
        · exact held_finish (dj hF) ‹_›
        · extract_lets -merge -underBinder +onlyGivenNames tag
          try clear_value tag
          exact held_unicast (dj hF) (held_mk_xng (dj hF) ‹_›)
theorem held_replan {s n} (hF : Dj F 0x1000300020010b) (hs : Held b0 F s) : Held b0 F (State.replan s n) := by
  unfold State.replan
  extract_lets -merge -underBinder +onlyGivenNames s
  have hs : Held b0 F s := held_showRing (dj hF) ‹_›
  try clear_value s
  extract_lets -merge -underBinder +onlyGivenNames r
  try clear_value r
  extract_lets -merge -underBinder +onlyGivenNames berths
  try clear_value berths
  extract_lets -merge -underBinder +onlyGivenNames keys
  try clear_value keys
  extract_lets -merge -underBinder +onlyGivenNames l
  try clear_value l
  extract_lets -merge -underBinder +onlyGivenNames split
  try clear_value split
  extract_lets -merge -underBinder +onlyGivenNames isA
  try clear_value isA
  extract_lets -merge -underBinder +onlyGivenNames la
  try clear_value la
  extract_lets -merge -underBinder +onlyGivenNames lb
  try clear_value lb
  extract_lets -merge -underBinder +onlyGivenNames ka
  try clear_value ka
  extract_lets -merge -underBinder +onlyGivenNames kb
  try clear_value kb
  split
  · split
    · extract_lets -merge -underBinder +onlyGivenNames s
      have hs : Held b0 F s := held_wr (dj hF) ‹_› (off_XNG_SPLIT (dj hF))
      try clear_value s
      extract_lets -merge -underBinder +onlyGivenNames s
      have hs : Held b0 F s := held_wr (dj hF) ‹_› (off_XNG_RATE_FACTOR_FACTOR_A (dj hF))
      try clear_value s
      extract_lets -merge -underBinder +onlyGivenNames s
      have hs : Held b0 F s := held_wr (dj hF) ‹_› (off_XNG_RATE_FACTOR_FACTOR_B (dj hF))
      try clear_value s
      extract_lets -merge -underBinder +onlyGivenNames s
      have hs : Held b0 F s := held_wrB (dj hF) ‹_› (off_XNG_RING_STATUS_DEGRADED_RATE (dj hF))
      try clear_value s
      extract_lets -merge -underBinder +onlyGivenNames s
      have hs : Held b0 F s := held_wr (dj hF) ‹_› (off_XNG_LOAD_A (dj hF))
      try clear_value s
      extract_lets -merge -underBinder +onlyGivenNames s
      have hs : Held b0 F s := held_wr (dj hF) ‹_› (off_XNG_LOAD_B (dj hF))
      try clear_value s
      extract_lets -merge -underBinder +onlyGivenNames s
      have hs : Held b0 F s := held_wr (dj hF) ‹_› (off_XNG_UTIL_A (dj hF))
      try clear_value s
      extract_lets -merge -underBinder +onlyGivenNames s
      have hs : Held b0 F s := held_wr (dj hF) ‹_› (off_XNG_UTIL_B (dj hF))
      try clear_value s
      extract_lets -merge -underBinder +onlyGivenNames known
      try clear_value known
      extract_lets -merge -underBinder +onlyGivenNames s
      have hs : Held b0 F s := by
        unfold s
        refine foldl_ind (Q := Held b0 F) (fun s _ hs => ?_) ?_
        · exact held_modNode (dj hF) ‹_›
        · assumption
      try clear_value s
      refine ite_ind (Q := Held b0 F) (fun _ => ?_) (fun _ => ?_)
      · assumption
      · extract_lets -merge -underBinder +onlyGivenNames s
        have hs : Held b0 F s := held_flag (dj hF) ‹_› (off_XNG_EVENT_STATUS_RATE_CHANGE (dj hF))
        try clear_value s
        extract_lets -merge -underBinder +onlyGivenNames d
        try clear_value d
        extract_lets -merge -underBinder +onlyGivenNames s
        have hs : Held b0 F s := by
          unfold s
          refine ite_ind (Q := Held b0 F) (fun _ => ?_) (fun _ => ?_)
          · exact held_xngEvent (dj hF) ‹_›
          · assumption
        try clear_value s
        refine ite_ind (Q := Held b0 F) (fun _ => ?_) (fun _ => ?_)
        · exact held_xngEvent (dj hF) ‹_›
        · assumption
theorem held_holdRings {s reason} (hF : Dj F 0x800100) (hs : Held b0 F s) : Held b0 F (State.holdRings s reason) := by
  unfold State.holdRings
  refine foldl_ind (Q := Held b0 F) (fun s _ hs => ?_) ?_
  · exact held_holdRing (dj hF) ‹_›
  · assumption
theorem held_wakeFor {s n} (hF : Dj F 0x3000a00109) (hs : Held b0 F s) : Held b0 F (State.wakeFor s n) := by
  unfold State.wakeFor
  refine ite_ind (Q := Held b0 F) (fun _ => ?_) (fun _ => ?_)
  · exact held_startWake (dj hF) ‹_›
  · assumption
theorem held_resend {s tag t} (hF : Dj F 0x800100) (hs : Held b0 F s) : Held b0 F (State.resend s tag t) := by
  unfold State.resend
  extract_lets -merge -underBinder +onlyGivenNames t
  try clear_value t
  exact held_unicast (dj hF) (held_mk_xng (dj hF) ‹_›)
theorem held_ringSleeps {s n} (hF : Dj F 0x10003000a0012b) (hs : Held b0 F s) : Held b0 F (State.ringSleeps s n) := by
  unfold State.ringSleeps
  extract_lets -merge -underBinder +onlyGivenNames r
  try clear_value r
  split
  · assumption
  · refine ite_ind (Q := Held b0 F) (fun _ => ?_) (fun _ => ?_)
    · extract_lets -merge -underBinder +onlyGivenNames s
      have hs : Held b0 F s := held_modRing (dj hF) ‹_›
      try clear_value s
      extract_lets -merge -underBinder +onlyGivenNames zz0 zz1 s
      have hs : Held b0 F s := held_mk_xng (dj hF) ‹_›
      try clear_value s
      extract_lets -merge -underBinder +onlyGivenNames s
      have hs : Held b0 F s := held_xngEvent (dj hF) (held_setSleep (dj hF) ‹_›)
      try clear_value s
      extract_lets -merge -underBinder +onlyGivenNames s
      have hs : Held b0 F s := by
        unfold s
        split
        · exact held_complete (dj hF) ‹_›
        · assumption
      try clear_value s
      extract_lets -merge -underBinder +onlyGivenNames r
      try clear_value r
      refine ite_ind (Q := Held b0 F) (fun _ => ?_) (fun _ => ?_)
      · exact held_startWake (dj hF) ‹_›
      · refine ite_ind (Q := Held b0 F) (fun _ => ?_) (fun _ => ?_)
        · exact held_startWake (dj hF) ‹_›
        · refine ite_ind (Q := Held b0 F) (fun _ => ?_) (fun _ => ?_)
          · exact held_startWake (dj hF) ‹_›
          · assumption
    · assumption
theorem held_finishTag {s tag status payload} (hF : Dj F 0x2000000109) (hs : Held b0 F s) : Held b0 F (State.finishTag s tag status payload) := by
  unfold State.finishTag
  split
  · assumption
  · exact held_finish (dj hF) (held_freeTxn (dj hF) ‹_›)
theorem held_finishNode {s n b status} (hF : Dj F 0x2000000109) (hs : Held b0 F s) : Held b0 F (State.finishNode s n b status) := by
  unfold State.finishNode
  refine foldl_ind (Q := Held b0 F) (fun s _ hs => ?_) ?_
  · exact held_finishTag (dj hF) ‹_›
  · assumption
theorem held_challenge {s n b} (hF : Dj F 0x2001800101) (hs : Held b0 F s) : Held b0 F (State.challenge s n b) := by
  unfold State.challenge
  extract_lets -merge -underBinder +onlyGivenNames r
  try clear_value r
  refine ite_ind (Q := Held b0 F) (fun _ => ?_) (fun _ => ?_)
  · assumption
  · refine ite_ind (Q := Held b0 F) (fun _ => ?_) (fun _ => ?_)
    · exact held_modRing (dj hF) ‹_›
    · split
      rename_i c s heq
      have hs : Held b0 F s := held2_eq heq (by
        refine ite_ind (Q := Held2 b0 F) (fun _ => ?_) (fun _ => ?_)
        · exact held_drawBytes (dj hF) ‹_›
        · exact held2_mk ‹_›
        )
      clear heq
      extract_lets -merge -underBinder +onlyGivenNames s
      have hs : Held b0 F s := held_modRing (dj hF) ‹_›
      try clear_value s
      refine ite_ind (Q := Held b0 F) (fun _ => ?_) (fun _ => ?_)
      · assumption
      · exact held_requestNow (dj hF) ‹_›
theorem held_request {s n b typ payload use} (hF : Dj F 0x3000a00109) (hs : Held b0 F s) : Held b0 F (State.request s n b typ payload use) := by
  unfold State.request
  refine ite_ind (Q := Held b0 F) (fun _ => ?_) (fun _ => ?_)
  · exact held_requestNow (dj hF) ‹_›
  · exact held_wakeFor (dj hF) (held_modRing (dj hF) ‹_›)
theorem held_startReauth {s n q b} (hF : Dj F 0x2001800129) (hs : Held b0 F s) : Held b0 F (State.startReauth s n q b) := by
  unfold State.startReauth
  extract_lets -merge -underBinder +onlyGivenNames who
  try clear_value who
  refine ite_ind (Q := Held b0 F) (fun _ => ?_) (fun _ => ?_)
  · exact held_complete (dj hF) ‹_›
  · refine ite_ind (Q := Held b0 F) (fun _ => ?_) (fun _ => ?_)
    · exact held_complete (dj hF) ‹_›
    · refine foldl_ind (Q := Held b0 F) (fun s _ hs => ?_) ?_
      · exact held_challenge (dj hF) ‹_›
      · exact held_modRing (dj hF) ‹_›
theorem held_sendStanding {s n b} (hF : Dj F 0x3000a00109) (hs : Held b0 F s) : Held b0 F (State.sendStanding s n b) := by
  unfold State.sendStanding
  extract_lets -merge -underBinder +onlyGivenNames c
  try clear_value c
  refine ite_ind (Q := Held b0 F) (fun _ => ?_) (fun _ => ?_)
  · assumption
  · extract_lets -merge -underBinder +onlyGivenNames x
    try clear_value x
    extract_lets -merge -underBinder +onlyGivenNames g
    try clear_value g
    extract_lets -merge -underBinder +onlyGivenNames s
    have hs : Held b0 F s := held_setNode (dj hF) ‹_›
    try clear_value s
    exact held_request (dj hF) ‹_›
theorem held_quarantine {s n b reason} (hF : Dj F 0x10003000a0010b) (hs : Held b0 F s) : Held b0 F (State.quarantine s n b reason) := by
  unfold State.quarantine
  extract_lets -merge -underBinder +onlyGivenNames s
  have hs : Held b0 F s := held_modNode (dj hF) ‹_›
  try clear_value s
  extract_lets -merge -underBinder +onlyGivenNames s
  have hs : Held b0 F s := held_flag (dj hF) (held_inc (dj hF) ‹_› (off_XNG_AUTH_FAILS (dj hF))) (off_XNG_EVENT_STATUS_QUARANTINE (dj hF))
  try clear_value s
  extract_lets -merge -underBinder +onlyGivenNames s
  have hs : Held b0 F s := held_xngEvent (dj hF) ‹_›
  try clear_value s
  exact held_note (dj hF) (held_sendStanding (dj hF) (held_replan (dj hF) ‹_›))
theorem held_joined {s n b} (hF : Dj F 0x10003000a0010b) (hs : Held b0 F s) : Held b0 F (State.joined s n b) := by
  unfold State.joined
  extract_lets -merge -underBinder +onlyGivenNames old
  try clear_value old
  extract_lets -merge -underBinder +onlyGivenNames s
  have hs : Held b0 F s := held_modNode (dj hF) ‹_›
  try clear_value s
  refine ite_ind (Q := Held b0 F) (fun _ => ?_) (fun _ => ?_)
  · assumption
  · extract_lets -merge -underBinder +onlyGivenNames s
    have hs : Held b0 F s := held_modNode (dj hF) ‹_›
    try clear_value s
    exact held_note (dj hF) (held_sendStanding (dj hF) (held_replan (dj hF) (held_xngEvent (dj hF) ‹_›)))
theorem held_replay {s n} (hF : Dj F 0x3000a00109) (hs : Held b0 F s) : Held b0 F (State.replay s n) := by
  unfold State.replay
  extract_lets -merge -underBinder +onlyGivenNames d
  try clear_value d
  extract_lets -merge -underBinder +onlyGivenNames s
  have hs : Held b0 F s := held_modRing (dj hF) ‹_›
  try clear_value s
  refine foldl_ind (Q := Held b0 F) (fun s _ hs => ?_) ?_
  · exact held_request (dj hF) ‹_›
  · assumption
theorem held_challengeDone {s n b} (hF : Dj F 0x2001800101) (hs : Held b0 F s) : Held b0 F (State.challengeDone s n b) := by
  unfold State.challengeDone
  extract_lets -merge -underBinder +onlyGivenNames s
  have hs : Held b0 F s := held_modRing (dj hF) ‹_›
  try clear_value s
  split
  · assumption
  · exact held_challenge (dj hF) (held_modRing (dj hF) ‹_›)
theorem held_resume {s n} (hF : Dj F 0x3001a00129) (hs : Held b0 F s) : Held b0 F (State.resume s n) := by
  unfold State.resume
  extract_lets -merge -underBinder +onlyGivenNames l
  try clear_value l
  extract_lets -merge -underBinder +onlyGivenNames s
  have hs : Held b0 F s := held_replay (dj hF) (held_modRing (dj hF) ‹_›)
  try clear_value s
  refine foldl_ind (Q := Held b0 F) (fun s _ hs => ?_) ?_
  · refine ite_ind (Q := Held b0 F) (fun _ => ?_) (fun _ => ?_)
    · exact held_startCensus (dj hF) ‹_›
    · exact held_startReauth (dj hF) ‹_›
  · assumption
theorem held_challengeGone {s n b} (hF : Dj F 0x2001800129) (hs : Held b0 F s) : Held b0 F (State.challengeGone s n b) := by
  unfold State.challengeGone
  extract_lets -merge -underBinder +onlyGivenNames s
  have hs : Held b0 F s := held_modRing (dj hF) ‹_›
  try clear_value s
  refine held_reauthOne (dj hF) ?_
  refine ite_ind (Q := Held b0 F) (fun _ => ?_) (fun _ => ?_)
  · exact held_challengeDone (dj hF) ‹_›
  · assumption
theorem held_sleepAbort {s n reason} (hF : Dj F 0x3001a00129) (hs : Held b0 F s) : Held b0 F (State.sleepAbort s n reason) := by
  unfold State.sleepAbort
  extract_lets -merge -underBinder +onlyGivenNames r
  try clear_value r
  extract_lets -merge -underBinder +onlyGivenNames s
  have hs : Held b0 F s := held_broadcast (dj hF) ‹_›
  try clear_value s
  extract_lets -merge -underBinder +onlyGivenNames s
  have hs : Held b0 F s := held_setSleep (dj hF) (held_wr (dj hF) ‹_› (off_XNG_SLEEP_STATUS_LAST_ABORT (dj hF)))
  try clear_value s
  extract_lets -merge -underBinder +onlyGivenNames s
  have hs : Held b0 F s := held_modRing (dj hF) ‹_›
  try clear_value s
  extract_lets -merge -underBinder +onlyGivenNames s
  have hs : Held b0 F s := by
    unfold s
    split
    · exact held_complete (dj hF) ‹_›
    · assumption
  try clear_value s
  exact held_resume (dj hF) ‹_›
theorem held_leaveNode {s n b reason what} (hF : Dj F 0x10003001a0012b) (hs : Held b0 F s) : Held b0 F (State.leaveNode s n b reason what) := by
  unfold State.leaveNode
  extract_lets -merge -underBinder +onlyGivenNames s
  have hs : Held b0 F s := held_challengeGone (dj hF) (held_modNode (dj hF) ‹_›)
  try clear_value s
  exact held_note (dj hF) (held_replan (dj hF) (held_xngEvent (dj hF) (held_finishNode (dj hF) ‹_›)))
theorem held_wakeCheck {s n} (hF : Dj F 0x10003001a0012b) (hs : Held b0 F s) : Held b0 F (State.wakeCheck s n) := by
  unfold State.wakeCheck
  extract_lets -merge -underBinder +onlyGivenNames r
  try clear_value r
  split
  · assumption
  · refine ite_ind (Q := Held b0 F) (fun _ => ?_) (fun _ => ?_)
    · extract_lets -merge -underBinder +onlyGivenNames s
      have hs : Held b0 F s := held_modRing (dj hF) ‹_›
      try clear_value s
      extract_lets -merge -underBinder +onlyGivenNames s
      have hs : Held b0 F s := held_setSleep (dj hF) (held_wrB (dj hF) ‹_› (off_XNG_SLEEP_STATUS_WAKE_LATCHED (dj hF)))
      try clear_value s
      extract_lets -merge -underBinder +onlyGivenNames s
      have hs : Held b0 F s := held_xngEvent (dj hF) ‹_›
      try clear_value s
      extract_lets -merge -underBinder +onlyGivenNames s
      have hs : Held b0 F s := by
        unfold s
        refine foldl_ind (Q := Held b0 F) (fun s _ hs => ?_) ?_
        · exact held_complete (dj hF) ‹_›
        · assumption
      try clear_value s
      refine held_resume (dj hF) ?_
      refine foldl_ind (Q := Held b0 F) (fun s _ hs => ?_) ?_
      · exact held_sendStanding (dj hF) ‹_›
      · assumption
    · assumption
theorem held_ringTick {s n} (hF : Dj F 0x10003001a0012b) (hs : Held b0 F s) : Held b0 F (State.ringTick s n) := by
  unfold State.ringTick
  extract_lets -merge -underBinder +onlyGivenNames s
  have hs : Held b0 F s := held_censusEnd (dj hF) (held_ringSleeps (dj hF) (held_renewPermit (dj hF) ‹_›))
  try clear_value s
  refine ite_ind (Q := Held b0 F) (fun _ => ?_) (fun _ => ?_)
  · exact held_wakeCheck (dj hF) ‹_›
  · assumption
theorem held_sendLeave {s n b} (hF : Dj F 0x10003001a0012b) (hs : Held b0 F s) : Held b0 F (State.sendLeave s n b) := by
  unfold State.sendLeave
  extract_lets -merge -underBinder +onlyGivenNames st
  try clear_value st
  extract_lets -merge -underBinder +onlyGivenNames s
  have hs : Held b0 F s := held_finishNode (dj hF) ‹_›
  try clear_value s
  refine ite_ind (Q := Held b0 F) (fun _ => ?_) (fun _ => ?_)
  · assumption
  · extract_lets -merge -underBinder +onlyGivenNames s
    have hs : Held b0 F s := held_challengeGone (dj hF) (held_modNode (dj hF) ‹_›)
    try clear_value s
    exact held_replan (dj hF) (held_xngEvent (dj hF) (held_request (dj hF) ‹_›))
theorem held_loseNode {s n b cause} (hF : Dj F 0x10003001a0012b) (hs : Held b0 F s) : Held b0 F (State.loseNode s n b cause) := by
  unfold State.loseNode
  extract_lets -merge -underBinder +onlyGivenNames x
  try clear_value x
  refine ite_ind (Q := Held b0 F) (fun _ => ?_) (fun _ => ?_)
  · extract_lets -merge -underBinder +onlyGivenNames s
    have hs : Held b0 F s := held_challengeGone (dj hF) (held_setNode (dj hF) ‹_›)
    try clear_value s
    extract_lets -merge -underBinder +onlyGivenNames s
    have hs : Held b0 F s := held_flag (dj hF) (held_xngEvent (dj hF) ‹_›) (off_XNG_EVENT_STATUS_NODE_LOST (dj hF))
    try clear_value s
    refine held_note (dj hF) ?_
    refine held_replan (dj hF) ?_
    refine ite_ind (Q := Held b0 F) (fun _ => ?_) (fun _ => ?_)
    · exact held_finishNode (dj hF) ‹_›
    · assumption
  · assumption
theorem held_reroute {s n} (hF : Dj F 0x10003001a0012b) (hs : Held b0 F s) : Held b0 F (State.reroute s n) := by
  unfold State.reroute
  extract_lets -merge -underBinder +onlyGivenNames s
  have hs : Held b0 F s := held_replan (dj hF) ‹_›
  try clear_value s
  extract_lets -merge -underBinder +onlyGivenNames r
  try clear_value r
  extract_lets -merge -underBinder +onlyGivenNames s
  have hs : Held b0 F s := by
    unfold s
    refine foldl_ind (Q := Held b0 F) (fun s _ hs => ?_) ?_
    · exact held_finishNode (dj hF) (held_loseNode (dj hF) ‹_›)
    · assumption
  try clear_value s
  refine foldl_ind (Q := Held b0 F) (fun s _ hs => ?_) ?_
  · exact held_resend (dj hF) ‹_›
  · assumption
theorem held_wakeTrained {s n} (hF : Dj F 0x10003001a0012b) (hs : Held b0 F s) : Held b0 F (State.wakeTrained s n) := by
  unfold State.wakeTrained
  extract_lets -merge -underBinder +onlyGivenNames st
  try clear_value st
  refine ite_ind (Q := Held b0 F) (fun _ => ?_) (fun _ => ?_)
  · extract_lets -merge -underBinder +onlyGivenNames asleep
    try clear_value asleep
    extract_lets -merge -underBinder +onlyGivenNames s
    have hs : Held b0 F s := by
      unfold s
      refine foldl_ind (Q := Held b0 F) (fun s _ hs => ?_) ?_
      · exact held_modNode (dj hF) ‹_›
      · assumption
    try clear_value s
    extract_lets -merge -underBinder +onlyGivenNames s
    have hs : Held b0 F s := by
      unfold s
      refine foldl_ind (Q := Held b0 F) (fun s _ hs => ?_) ?_
      · exact held_loseNode (dj hF) ‹_›
      · assumption
    try clear_value s
    refine held_wakeCheck (dj hF) ?_
    refine foldl_ind (Q := Held b0 F) (fun s _ hs => ?_) ?_
    · exact held_challenge (dj hF) ‹_›
    · assumption
  · assumption
theorem held_breakAt {s n k} (hF : Dj F 0x10003001a0012b) (hs : Held b0 F s) : Held b0 F (State.breakAt s n k) := by
  unfold State.breakAt
  refine ite_ind (Q := Held b0 F) (fun _ => ?_) (fun _ => ?_)
  · assumption
  · extract_lets -merge -underBinder +onlyGivenNames s
    have hs : Held b0 F s := held_showRing (dj hF) (held_inc (dj hF) (held_modRing (dj hF) ‹_›) (off_XNG_BREAKS (dj hF)))
    try clear_value s
    exact held_reroute (dj hF) (held_xngEvent (dj hF) ‹_›)

end Sys2Proof.Machine
end

