-- ==== Sys2Proof/Laws/KeptEstOps.lean ====
section
/-!
SUPPORT. The operations of Machine/EstOps.lean change only the parts that their masks name (Laws/Held.lean).
-/
namespace Sys2Proof.Machine
open Sys2Proof
set_option Elab.async false

variable {b0 : State} {F : Nat}

theorem held_showCkpt {s} (hF : Dj F 0x4000000001) (hs : Held b0 F s) : Held b0 F (State.showCkpt s) := by
  unfold State.showCkpt
  extract_lets -merge -underBinder +onlyGivenNames slots
  try clear_value slots
  extract_lets -merge -underBinder +onlyGivenNames s
  have hs : Held b0 F s := held_wr (dj hF) ‹_› (off_EST_CKPT_STATUS_INTACT (dj hF))
  try clear_value s
  split
  · assumption
  · exact held_wr (dj hF) (held_wr (dj hF) (held_wr (dj hF) (held_wr (dj hF) ‹_› (off_EST_CKPT_GEN (dj hF))) (off_EST_CKPT_OPSEC (dj hF))) (off_EST_CKPT_STATUS_CAUSE (dj hF))) (off_EST_CKPT_STATUS_NEWEST_SLOT (dj hF))
theorem held_ckptSpoil {s} (hF : Dj F 0x4000000003) (hs : Held b0 F s) : Held b0 F (State.ckptSpoil s) := by
  unfold State.ckptSpoil
  split
  · assumption
  · exact held_showCkpt (dj hF) (held_mk_nv (dj hF) ‹_›)
theorem held_showRoll {s} (hF : Dj F 0x4000000001) (hs : Held b0 F s) : Held b0 F (State.showRoll s) := by
  unfold State.showRoll
  extract_lets -merge -underBinder +onlyGivenNames r
  try clear_value r
  extract_lets -merge -underBinder +onlyGivenNames all
  try clear_value all
  extract_lets -merge -underBinder +onlyGivenNames s
  have hs : Held b0 F s := held_wrR (dj hF) ‹_› (off_EST_PLANT_E_AVAIL (dj hF))
  try clear_value s
  extract_lets -merge -underBinder +onlyGivenNames s
  have hs : Held b0 F s := held_wrR (dj hF) ‹_› (off_EST_PLANT_E_CONS (dj hF))
  try clear_value s
  extract_lets -merge -underBinder +onlyGivenNames s
  have hs : Held b0 F s := held_wrR (dj hF) ‹_› (off_EST_PLANT_E_HEAD (dj hF))
  try clear_value s
  extract_lets -merge -underBinder +onlyGivenNames s
  have hs : Held b0 F s := held_wrR (dj hF) ‹_› (off_EST_PLANT_E_HELD (dj hF))
  try clear_value s
  extract_lets -merge -underBinder +onlyGivenNames s
  have hs : Held b0 F s := held_wrR (dj hF) ‹_› (off_EST_PLANT_P_DIS (dj hF))
  try clear_value s
  extract_lets -merge -underBinder +onlyGivenNames s
  have hs : Held b0 F s := held_wrR (dj hF) ‹_› (off_EST_PLANT_P_CHG (dj hF))
  try clear_value s
  refine foldl_ind (Q := Held b0 F) (fun s _ hs => ?_) ?_
  · extract_lets -merge -underBinder +onlyGivenNames mine
    try clear_value mine
    extract_lets -merge -underBinder +onlyGivenNames s
    have hs : Held b0 F s := held_wrR (dj hF) ‹_› (off_EST_BANK_E_AVAIL (dj hF))
    try clear_value s
    extract_lets -merge -underBinder +onlyGivenNames s
    have hs : Held b0 F s := held_wrR (dj hF) ‹_› (off_EST_BANK_E_CONS (dj hF))
    try clear_value s
    extract_lets -merge -underBinder +onlyGivenNames s
    have hs : Held b0 F s := held_wrR (dj hF) ‹_› (off_EST_BANK_P_DIS (dj hF))
    try clear_value s
    exact held_wrR (dj hF) ‹_› (off_EST_BANK_P_CHG (dj hF))
  · assumption
theorem held_dropIntake {s xng berth} (hF : Dj F 0x200) (hs : Held b0 F s) : Held b0 F (State.dropIntake s xng berth) := by
  unfold State.dropIntake
  exact held_mk_est (dj hF) ‹_›
theorem held_ckptFor {s cause qs} (hF : Dj F 0x4000000201) (hs : Held b0 F s) : Held b0 F (State.ckptFor s cause qs) := by
  unfold State.ckptFor
  split
  · exact held_wrB (dj hF) (held_mk_est (dj hF) ‹_›) (off_EST_STATUS_CKPT_RUNNING (dj hF))
  · extract_lets -merge -underBinder +onlyGivenNames next
    try clear_value next
    exact held_mk_est (dj hF) ‹_›
theorem held_intake {s w} (hF : Dj F 0x7000200309) (hs : Held b0 F s) : Held b0 F (State.intake s w) := by
  unfold State.intake
  refine ite_ind (Q := Held b0 F) (fun _ => ?_) (fun _ => ?_)
  · assumption
  · refine ite_ind (Q := Held b0 F) (fun _ => ?_) (fun _ => ?_)
    · extract_lets -merge -underBinder +onlyGivenNames s
      have hs : Held b0 F s := held_flag (dj hF) (held_inc (dj hF) (held_inc (dj hF) ‹_› (off_EST_SKIPPED (dj hF))) (off_XNG_SWEEPS_MISSED (dj hF))) (off_EST_EVENT_STATUS_INTAKE_OVERFLOW (dj hF))
      try clear_value s
      exact held_modNode (dj hF) ‹_›
    · exact held_mk_est (dj hF) ‹_›
theorem held_setEst {s i x} (hF : Dj F 0x200) (hs : Held b0 F s) : Held b0 F (State.setEst s i x) := by
  unfold State.setEst
  exact held_mk_est (dj hF) ‹_›
theorem held_ckptWrite {s cause atLeast} (hF : Dj F 0x4000000003) (hs : Held b0 F s) : Held1 b0 F (State.ckptWrite s cause atLeast) := by
  unfold State.ckptWrite
  extract_lets -merge -underBinder +onlyGivenNames new
  try clear_value new
  extract_lets -merge -underBinder +onlyGivenNames slot
  try clear_value slot
  extract_lets -merge -underBinder +onlyGivenNames gen
  try clear_value gen
  extract_lets -merge -underBinder +onlyGivenNames c
  try clear_value c
  extract_lets -merge -underBinder +onlyGivenNames c
  try clear_value c
  exact held1_mk (held_showCkpt (dj hF) (held_mk_nv (dj hF) ‹_›))
theorem held_startCkpt {s cause q} (hF : Dj F 0x4000000201) (hs : Held b0 F s) : Held b0 F (State.startCkpt s cause q) := by
  unfold State.startCkpt
  exact held_ckptFor (dj hF) ‹_›
theorem held_restoreApplied {s} (hF : Dj F 0x1000500020020b) (hs : Held b0 F s) : Held b0 F (State.restoreApplied s) := by
  unfold State.restoreApplied
  extract_lets -merge -underBinder +onlyGivenNames waits
  try clear_value waits
  split
  · split
    · refine ite_ind (Q := Held b0 F) (fun _ => ?_) (fun _ => ?_)
      · assumption
      · extract_lets -merge -underBinder +onlyGivenNames zz0 s
        have hs : Held b0 F s := held_mk_est (dj hF) ‹_›
        try clear_value s
        extract_lets -merge -underBinder +onlyGivenNames s
        have hs : Held b0 F s := held_flag (dj hF) (held_wr (dj hF) ‹_› (off_EST_RESTORE_STATUS_RESULT (dj hF))) (off_EST_EVENT_STATUS_RESTORE_DONE (dj hF))
        try clear_value s
        exact held_startCkpt (dj hF) (held_raise (dj hF) (held_wrB (dj hF) ‹_› (off_EST_STATUS_RESTORE_RUNNING (dj hF))))
    · assumption
  · assumption
theorem held_modEst {s i f} (hF : Dj F 0x200) (hs : Held b0 F s) : Held b0 F (State.modEst s i f) := by
  unfold State.modEst
  exact held_setEst (dj hF) ‹_›
theorem held_toRest {s i} (hF : Dj F 0x200) (hs : Held b0 F s) : Held b0 F (State.toRest s i) := by
  unfold State.toRest
  exact held_modEst (dj hF) ‹_›
theorem held_toDefaults {s i} (hF : Dj F 0x200) (hs : Held b0 F s) : Held b0 F (State.toDefaults s i) := by
  unfold State.toDefaults
  split
  · assumption
  · exact held_modEst (dj hF) ‹_›
theorem held_freeze {s i} (hF : Dj F 0x200) (hs : Held b0 F s) : Held b0 F (State.freeze s i) := by
  unfold State.freeze
  exact held_modEst (dj hF) ‹_›

end Sys2Proof.Machine
end

