-- ==== Sys2Proof/Laws/KeptPltOps.lean ====
section
/-!
SUPPORT. The operations of Machine/PltOps.lean change only the parts that their masks name (Laws/Held.lean).
-/
namespace Sys2Proof.Machine
open Sys2Proof
set_option Elab.async false

variable {b0 : State} {F : Nat}

theorem held_sendBalance {s i marked secs} (hF : Dj F 0x3000a00109) (hs : Held b0 F s) : Held b0 F (State.sendBalance s i marked secs) := by
  unfold State.sendBalance
  refine ite_ind (Q := Held b0 F) (fun _ => ?_) (fun _ => ?_)
  · extract_lets -merge -underBinder +onlyGivenNames mask
    try clear_value mask
    exact held_request (dj hF) ‹_›
  · assumption
theorem held_setPcon {s c x} (hF : Dj F 0x400) (hs : Held b0 F s) : Held b0 F (State.setPcon s c x) := by
  unfold State.setPcon
  exact held_mk_prot (dj hF) ‹_›
theorem held_setPstr {s i x} (hF : Dj F 0x400) (hs : Held b0 F s) : Held b0 F (State.setPstr s i x) := by
  unfold State.setPstr
  exact held_mk_prot (dj hF) ‹_›
theorem held_setIntent {s i on} (hF : Dj F 0x2) (hs : Held b0 F s) : Held b0 F (State.setIntent s i on) := by
  unfold State.setIntent
  exact held_mk_nv (dj hF) ‹_›
theorem held_modPstr {s i f} (hF : Dj F 0x400) (hs : Held b0 F s) : Held b0 F (State.modPstr s i f) := by
  unfold State.modPstr
  exact held_setPstr (dj hF) ‹_›
theorem held_strTo {s i state} (hF : Dj F 0x1000100020040b) (hs : Held b0 F s) : Held b0 F (State.strTo s i state) := by
  unfold State.strTo
  refine ite_ind (Q := Held b0 F) (fun _ => ?_) (fun _ => ?_)
  · assumption
  · extract_lets -merge -underBinder +onlyGivenNames s
    have hs : Held b0 F s := held_modPstr (dj hF) ‹_›
    try clear_value s
    exact held_raise (dj hF) ‹_›
theorem held_sendStrClose {s i} (hF : Dj F 0x3000a00509) (hs : Held b0 F s) : Held b0 F (State.sendStrClose s i) := by
  unfold State.sendStrClose
  exact held_request (dj hF) (held_modPstr (dj hF) ‹_›)
theorem held_stopBalance {s i} (hF : Dj F 0x3000a00509) (hs : Held b0 F s) : Held b0 F (State.stopBalance s i) := by
  unfold State.stopBalance
  refine ite_ind (Q := Held b0 F) (fun _ => ?_) (fun _ => ?_)
  · exact held_sendBalance (dj hF) (held_modPstr (dj hF) ‹_›)
  · assumption
theorem held_setIntentCon {s c on} (hF : Dj F 0x2) (hs : Held b0 F s) : Held b0 F (State.setIntentCon s c on) := by
  unfold State.setIntentCon
  exact held_mk_nv (dj hF) ‹_›
theorem held_modPcon {s c f} (hF : Dj F 0x400) (hs : Held b0 F s) : Held b0 F (State.modPcon s c f) := by
  unfold State.modPcon
  exact held_setPcon (dj hF) ‹_›
theorem held_conTo {s c state} (hF : Dj F 0x1000100020040b) (hs : Held b0 F s) : Held b0 F (State.conTo s c state) := by
  unfold State.conTo
  refine ite_ind (Q := Held b0 F) (fun _ => ?_) (fun _ => ?_)
  · assumption
  · extract_lets -merge -underBinder +onlyGivenNames s
    have hs : Held b0 F s := held_modPcon (dj hF) ‹_›
    try clear_value s
    exact held_raise (dj hF) ‹_›
theorem held_completeOpt {s q status result} (hF : Dj F 0x800028) (hs : Held b0 F s) : Held b0 F (State.completeOpt s q status result) := by
  unfold State.completeOpt
  split
  · exact held_complete (dj hF) ‹_›
  · assumption
theorem held_sendConClose {s c} (hF : Dj F 0x3000a00509) (hs : Held b0 F s) : Held b0 F (State.sendConClose s c) := by
  unfold State.sendConClose
  exact held_request (dj hF) (held_modPcon (dj hF) ‹_›)
theorem held_endOpen {s i status} (hF : Dj F 0x800428) (hs : Held b0 F s) : Held b0 F (State.endOpen s i status) := by
  unfold State.endOpen
  extract_lets -merge -underBinder +onlyGivenNames q
  try clear_value q
  exact held_completeOpt (dj hF) (held_modPstr (dj hF) ‹_›)
theorem held_endClose {s i status} (hF : Dj F 0x800428) (hs : Held b0 F s) : Held b0 F (State.endClose s i status) := by
  unfold State.endClose
  extract_lets -merge -underBinder +onlyGivenNames q
  try clear_value q
  exact held_completeOpt (dj hF) (held_modPstr (dj hF) ‹_›)
theorem held_watchString {s i} (hF : Dj F 0x400) (hs : Held b0 F s) : Held b0 F (State.watchString s i) := by
  unfold State.watchString
  exact held_modPcon (dj hF) ‹_›
theorem held_conGone {s c} (hF : Dj F 0x800428) (hs : Held b0 F s) : Held b0 F (State.conGone s c) := by
  unfold State.conGone
  extract_lets -merge -underBinder +onlyGivenNames x
  try clear_value x
  refine ite_ind (Q := Held b0 F) (fun _ => ?_) (fun _ => ?_)
  · exact held_completeOpt (dj hF) (held_modPcon (dj hF) ‹_›)
  · assumption
theorem held_tryCloseCon {s c} (hF : Dj F 0x10003000a0050b) (hs : Held b0 F s) : Held b0 F (State.tryCloseCon s c) := by
  unfold State.tryCloseCon
  extract_lets -merge -underBinder +onlyGivenNames x
  try clear_value x
  refine ite_ind (Q := Held b0 F) (fun _ => ?_) (fun _ => ?_)
  · exact held_sendConClose (dj hF) (held_conTo (dj hF) (held_modPcon (dj hF) ‹_›))
  · assumption
theorem held_startOpen {s i} (hF : Dj F 0x1000100020040b) (hs : Held b0 F s) : Held b0 F (State.startOpen s i) := by
  unfold State.startOpen
  extract_lets -merge -underBinder +onlyGivenNames x
  try clear_value x
  refine ite_ind (Q := Held b0 F) (fun _ => ?_) (fun _ => ?_)
  · assumption
  · extract_lets -merge -underBinder +onlyGivenNames s
    have hs : Held b0 F s := held_modPstr (dj hF) ‹_›
    try clear_value s
    refine ite_ind (Q := Held b0 F) (fun _ => ?_) (fun _ => ?_)
    · exact held_strTo (dj hF) ‹_›
    · assumption
theorem held_sendStrOpen {s i attempt} (hF : Dj F 0x3000a00509) (hs : Held b0 F s) : Held b0 F (State.sendStrOpen s i attempt) := by
  unfold State.sendStrOpen
  refine ite_ind (Q := Held b0 F) (fun _ => ?_) (fun _ => ?_)
  · assumption
  · refine ite_ind (Q := Held b0 F) (fun _ => ?_) (fun _ => ?_)
    · exact held_modPstr (dj hF) ‹_›
    · exact held_request (dj hF) (held_modPstr (dj hF) ‹_›)
theorem held_protCycle {s} (hF : Dj F 0x10001000a0042b) (hs : Held b0 F s) : Held b0 F (State.protCycle s) := by
  unfold State.protCycle
  extract_lets -merge -underBinder +onlyGivenNames s
  have hs : Held b0 F s := by
    unfold s
    refine foldl_ind (Q := Held b0 F) (fun s _ hs => ?_) ?_
    · split
      · assumption
      · refine ite_ind (Q := Held b0 F) (fun _ => ?_) (fun _ => ?_)
        · exact held_startOpen (dj hF) (held_modPcon (dj hF) ‹_›)
        · assumption
    · assumption
  try clear_value s
  refine foldl_ind (Q := Held b0 F) (fun s _ hs => ?_) ?_
  · extract_lets -merge -underBinder +onlyGivenNames s
    have hs : Held b0 F s := by
      unfold s
      refine ite_ind (Q := Held b0 F) (fun _ => ?_) (fun _ => ?_)
      · exact held_modPstr (dj hF) ‹_›
      · assumption
    try clear_value s
    split
    · refine ite_ind (Q := Held b0 F) (fun _ => ?_) (fun _ => ?_)
      · exact held_endClose (dj hF) ‹_›
      · assumption
    · assumption
  · assumption
theorem held_tripCon {s c cause} (hF : Dj F 0x10009000a0042b) (hs : Held b0 F s) : Held b0 F (State.tripCon s c cause) := by
  unfold State.tripCon
  refine ite_ind (Q := Held b0 F) (fun _ => ?_) (fun _ => ?_)
  · refine ite_ind (Q := Held b0 F) (fun _ => ?_) (fun _ => ?_)
    · exact held_modPcon (dj hF) ‹_›
    · assumption
  · extract_lets -merge -underBinder +onlyGivenNames s
    have hs : Held b0 F s := by
      unfold s
      refine ite_ind (Q := Held b0 F) (fun _ => ?_) (fun _ => ?_)
      · exact held_inc (dj hF) ‹_› (off_PLT_CLOSE_FAILS (dj hF))
      · assumption
    try clear_value s
    split
    · extract_lets -merge -underBinder +onlyGivenNames s
      have hs : Held b0 F s := held_modPcon (dj hF) ‹_›
      try clear_value s
      extract_lets -merge -underBinder +onlyGivenNames s
      have hs : Held b0 F s := held_raise (dj hF) (held_inc (dj hF) ‹_› (off_PLT_BREAKER_TRIPS (dj hF)))
      try clear_value s
      extract_lets -merge -underBinder +onlyGivenNames s
      have hs : Held b0 F s := held_flag (dj hF) ‹_› (off_PLT_PROT_EVENT_STATUS_BREAKER_TRIPPED (dj hF))
      try clear_value s
      exact held_completeOpt (dj hF) (held_completeOpt (dj hF) ‹_›)
theorem held_strOpenNow {s i} (hF : Dj F 0x3000a00509) (hs : Held b0 F s) : Held b0 F (State.strOpenNow s i) := by
  unfold State.strOpenNow
  extract_lets -merge -underBinder +onlyGivenNames x
  try clear_value x
  refine ite_ind (Q := Held b0 F) (fun _ => ?_) (fun _ => ?_)
  · exact held_sendStrOpen (dj hF) ‹_›
  · assumption
theorem held_openStrings {s c} (hF : Dj F 0x10001000a0042b) (hs : Held b0 F s) : Held b0 F (State.openStrings s c) := by
  unfold State.openStrings
  extract_lets -merge -underBinder +onlyGivenNames x
  try clear_value x
  extract_lets -merge -underBinder +onlyGivenNames todo
  try clear_value todo
  split
  · exact held_completeOpt (dj hF) (held_modPcon (dj hF) ‹_›)
  · exact held_startOpen (dj hF) (held_modPcon (dj hF) ‹_›)
theorem held_tripStr {s i cause cell value opens} (hF : Dj F 0x10009000a0042b) (hs : Held b0 F s) : Held b0 F (State.tripStr s i cause cell value opens) := by
  unfold State.tripStr
  refine ite_ind (Q := Held b0 F) (fun _ => ?_) (fun _ => ?_)
  · assumption
  · extract_lets -merge -underBinder +onlyGivenNames closing
    try clear_value closing
    extract_lets -merge -underBinder +onlyGivenNames s
    have hs : Held b0 F s := held_modPstr (dj hF) ‹_›
    try clear_value s
    extract_lets -merge -underBinder +onlyGivenNames s
    have hs : Held b0 F s := held_raise (dj hF) (held_inc (dj hF) ‹_› (off_PLT_TRIPS (dj hF)))
    try clear_value s
    extract_lets -merge -underBinder +onlyGivenNames s
    have hs : Held b0 F s := held_flag (dj hF) ‹_› (off_PLT_PROT_EVENT_STATUS_STRING_TRIPPED (dj hF))
    try clear_value s
    extract_lets -merge -underBinder +onlyGivenNames s
    have hs : Held b0 F s := by
      unfold s
      refine ite_ind (Q := Held b0 F) (fun _ => ?_) (fun _ => ?_)
      · exact held_flag (dj hF) (held_raise (dj hF) (held_inc (dj hF) ‹_› (off_PLT_NODE_TRIPS (dj hF)))) (off_PLT_PROT_EVENT_STATUS_NODE_LIMIT_TRIP (dj hF))
      · refine ite_ind (Q := Held b0 F) (fun _ => ?_) (fun _ => ?_)
        · exact held_inc (dj hF) ‹_› (off_PLT_CLOSE_FAILS (dj hF))
        · assumption
    try clear_value s
    extract_lets -merge -underBinder +onlyGivenNames s
    have hs : Held b0 F s := held_endOpen (dj hF) ‹_›
    try clear_value s
    extract_lets -merge -underBinder +onlyGivenNames s
    have hs : Held b0 F s := by
      unfold s
      refine ite_ind (Q := Held b0 F) (fun _ => ?_) (fun _ => ?_)
      · assumption
      · exact held_endClose (dj hF) ‹_›
    try clear_value s
    refine ite_ind (Q := Held b0 F) (fun _ => ?_) (fun _ => ?_)
    · exact held_startOpen (dj hF) ‹_›
    · assumption
theorem held_cancelClose {s i} (hF : Dj F 0x10003000a0052b) (hs : Held b0 F s) : Held b0 F (State.cancelClose s i) := by
  unfold State.cancelClose
  extract_lets -merge -underBinder +onlyGivenNames s
  have hs : Held b0 F s := held_endClose (dj hF) ‹_›
  try clear_value s
  refine ite_ind (Q := Held b0 F) (fun _ => ?_) (fun _ => ?_)
  · exact held_sendStrOpen (dj hF) (held_strTo (dj hF) (held_startOpen (dj hF) (held_modPstr (dj hF) ‹_›)))
  · assumption
theorem held_strReturn {s i contact} (hF : Dj F 0x1000100020060b) (hs : Held b0 F s) : Held b0 F (State.strReturn s i contact) := by
  unfold State.strReturn
  extract_lets -merge -underBinder +onlyGivenNames x
  try clear_value x
  refine ite_ind (Q := Held b0 F) (fun _ => ?_) (fun _ => ?_)
  · assumption
  · refine ite_ind (Q := Held b0 F) (fun _ => ?_) (fun _ => ?_)
    · exact held_startOpen (dj hF) ‹_›
    · extract_lets -merge -underBinder +onlyGivenNames new
      try clear_value new
      extract_lets -merge -underBinder +onlyGivenNames s
      have hs : Held b0 F s := by
        unfold s
        refine ite_ind (Q := Held b0 F) (fun _ => ?_) (fun _ => ?_)
        · exact held_toDefaults (dj hF) ‹_›
        · assumption
      try clear_value s
      extract_lets -merge -underBinder +onlyGivenNames s
      have hs : Held b0 F s := held_modPstr (dj hF) ‹_›
      try clear_value s
      extract_lets -merge -underBinder +onlyGivenNames s
      have hs : Held b0 F s := held_toRest (dj hF) (held_modEst (dj hF) ‹_›)
      try clear_value s
      extract_lets -merge -underBinder +onlyGivenNames s
      have hs : Held b0 F s := held_modPcon (dj hF) ‹_›
      try clear_value s
      exact held_raise (dj hF) ‹_›
theorem held_balanceCheck {s} (hF : Dj F 0xb000a00509) (hs : Held b0 F s) : Held b0 F (State.balanceCheck s) := by
  unfold State.balanceCheck
  extract_lets -merge -underBinder +onlyGivenNames s
  have hs : Held b0 F s := held_wrB (dj hF) ‹_› (off_PLT_PROT_STATUS_BALANCING_STOPPED (dj hF))
  try clear_value s
  refine foldl_ind (Q := Held b0 F) (fun s _ hs => ?_) ?_
  · refine ite_ind (Q := Held b0 F) (fun _ => ?_) (fun _ => ?_)
    · exact held_stopBalance (dj hF) ‹_›
    · assumption
  · assumption
theorem held_conStringsDone {s c} (hF : Dj F 0x800428) (hs : Held b0 F s) : Held b0 F (State.conStringsDone s c) := by
  unfold State.conStringsDone
  extract_lets -merge -underBinder +onlyGivenNames x
  try clear_value x
  refine ite_ind (Q := Held b0 F) (fun _ => ?_) (fun _ => ?_)
  · exact held_completeOpt (dj hF) (held_modPcon (dj hF) ‹_›)
  · assumption
theorem held_tryClose {s i} (hF : Dj F 0x10003000a0050b) (hs : Held b0 F s) : Held b0 F (State.tryClose s i) := by
  unfold State.tryClose
  refine ite_ind (Q := Held b0 F) (fun _ => ?_) (fun _ => ?_)
  · refine ite_ind (Q := Held b0 F) (fun _ => ?_) (fun _ => ?_)
    · extract_lets -merge -underBinder +onlyGivenNames s
      have hs : Held b0 F s := held_strTo (dj hF) (held_modPstr (dj hF) ‹_›)
      try clear_value s
      exact held_sendStrClose (dj hF) ‹_›
    · exact held_modPstr (dj hF) ‹_›
  · refine ite_ind (Q := Held b0 F) (fun _ => ?_) (fun _ => ?_)
    · exact held_modPstr (dj hF) ‹_›
    · assumption
theorem held_fireSeen {s c} (hF : Dj F 0x10009000a0042b) (hs : Held b0 F s) : Held b0 F (State.fireSeen s c) := by
  unfold State.fireSeen
  extract_lets -merge -underBinder +onlyGivenNames s
  have hs : Held b0 F s := held_tripCon (dj hF) ‹_›
  try clear_value s
  extract_lets -merge -underBinder +onlyGivenNames s
  have hs : Held b0 F s := held_flag (dj hF) (held_raise (dj hF) ‹_›) (off_PLT_PROT_EVENT_STATUS_FIRE_INTERLOCK (dj hF))
  try clear_value s
  refine foldl_ind (Q := Held b0 F) (fun _ _ hs => ?_) ?_
  · exact held_startOpen (dj hF) ‹_›
  · assumption
theorem held_sendConOpen {s c attempt} (hF : Dj F 0x3000a00509) (hs : Held b0 F s) : Held b0 F (State.sendConOpen s c attempt) := by
  unfold State.sendConOpen
  refine ite_ind (Q := Held b0 F) (fun _ => ?_) (fun _ => ?_)
  · assumption
  · refine ite_ind (Q := Held b0 F) (fun _ => ?_) (fun _ => ?_)
    · exact held_modPcon (dj hF) ‹_›
    · exact held_request (dj hF) (held_modPcon (dj hF) ‹_›)
theorem held_startOpenCon {s c withStrings} (hF : Dj F 0x1000100020040b) (hs : Held b0 F s) : Held b0 F (State.startOpenCon s c withStrings) := by
  unfold State.startOpenCon
  exact held_conTo (dj hF) (held_modPcon (dj hF) ‹_›)
theorem held_protEvacEnd {s} (hF : Dj F 0x10009000a0042b) (hs : Held b0 F s) : Held b0 F (State.protEvacEnd s) := by
  unfold State.protEvacEnd
  extract_lets -merge -underBinder +onlyGivenNames s
  have hs : Held b0 F s := held_wrB (dj hF) ‹_› (off_PLT_PROT_STATUS_TRIPS_DEFERRED (dj hF))
  try clear_value s
  refine foldl_ind (Q := Held b0 F) (fun s _ hs => ?_) ?_
  · extract_lets -merge -underBinder +onlyGivenNames s
    have hs : Held b0 F s := by
      unfold s
      split
      · exact held_tripStr (dj hF) ‹_›
      · assumption
    try clear_value s
    refine ite_ind (Q := Held b0 F) (fun _ => ?_) (fun _ => ?_)
    · exact held_startOpen (dj hF) ‹_›
    · assumption
  · assumption
theorem held_strReport {s i contact} (hF : Dj F 0x10001000a0042b) (hs : Held b0 F s) : Held b0 F (State.strReport s i contact) := by
  unfold State.strReport
  extract_lets -merge -underBinder +onlyGivenNames x
  try clear_value x
  extract_lets -merge -underBinder +onlyGivenNames closed
  try clear_value closed
  extract_lets -merge -underBinder +onlyGivenNames openB
  try clear_value openB
  extract_lets -merge -underBinder +onlyGivenNames s
  have hs : Held b0 F s := by
    unfold s
    refine ite_ind (Q := Held b0 F) (fun _ => ?_) (fun _ => ?_)
    · exact held_modPcon (dj hF) ‹_›
    · assumption
  try clear_value s
  refine ite_ind (Q := Held b0 F) (fun _ => ?_) (fun _ => ?_)
  · exact held_endClose (dj hF) (held_strTo (dj hF) (held_modPstr (dj hF) ‹_›))
  · refine ite_ind (Q := Held b0 F) (fun _ => ?_) (fun _ => ?_)
    · extract_lets -merge -underBinder +onlyGivenNames s
      have hs : Held b0 F s := held_modPstr (dj hF) ‹_›
      try clear_value s
      extract_lets -merge -underBinder +onlyGivenNames s
      have hs : Held b0 F s := by
        unfold s
        refine ite_ind (Q := Held b0 F) (fun _ => ?_) (fun _ => ?_)
        · exact held_strTo (dj hF) ‹_›
        · assumption
      try clear_value s
      exact held_conStringsDone (dj hF) (held_endOpen (dj hF) ‹_›)
    · assumption
theorem held_openFailed {s i status} (hF : Dj F 0x800428) (hs : Held b0 F s) : Held b0 F (State.openFailed s i status) := by
  unfold State.openFailed
  extract_lets -merge -underBinder +onlyGivenNames c
  try clear_value c
  extract_lets -merge -underBinder +onlyGivenNames s
  have hs : Held b0 F s := held_endOpen (dj hF) (held_watchString (dj hF) (held_modPstr (dj hF) ‹_›))
  try clear_value s
  extract_lets -merge -underBinder +onlyGivenNames x
  try clear_value x
  refine ite_ind (Q := Held b0 F) (fun _ => ?_) (fun _ => ?_)
  · exact held_completeOpt (dj hF) (held_modPcon (dj hF) ‹_›)
  · assumption
theorem held_overBlock {s i chg} (hF : Dj F 0x10009000a0042b) (hs : Held b0 F s) : Held b0 F (State.overBlock s i chg) := by
  unfold State.overBlock
  extract_lets -merge -underBinder +onlyGivenNames x
  try clear_value x
  extract_lets -merge -underBinder +onlyGivenNames blocks
  try clear_value blocks
  extract_lets -merge -underBinder +onlyGivenNames s
  have hs : Held b0 F s := held_setPstr (dj hF) ‹_›
  try clear_value s
  extract_lets -merge -underBinder +onlyGivenNames s
  have hs : Held b0 F s := held_raise (dj hF) ‹_›
  try clear_value s
  refine ite_ind (Q := Held b0 F) (fun _ => ?_) (fun _ => ?_)
  · exact held_tripStr (dj hF) ‹_›
  · assumption
theorem held_shortTrip {s i cell excess} (hF : Dj F 0x10009000a0042b) (hs : Held b0 F s) : Held b0 F (State.shortTrip s i cell excess) := by
  unfold State.shortTrip
  refine ite_ind (Q := Held b0 F) (fun _ => ?_) (fun _ => ?_)
  · exact held_wrB (dj hF) (held_modPstr (dj hF) ‹_›) (off_PLT_PROT_STATUS_TRIPS_DEFERRED (dj hF))
  · exact held_tripStr (dj hF) ‹_›
theorem held_markMissing {s i} (hF : Dj F 0x1000d000a0062b) (hs : Held b0 F s) : Held b0 F (State.markMissing s i) := by
  unfold State.markMissing
  refine ite_ind (Q := Held b0 F) (fun _ => ?_) (fun _ => ?_)
  · assumption
  · extract_lets -merge -underBinder +onlyGivenNames s
    have hs : Held b0 F s := held_modPstr (dj hF) ‹_›
    try clear_value s
    extract_lets -merge -underBinder +onlyGivenNames s
    have hs : Held b0 F s := held_raise (dj hF) (held_inc (dj hF) ‹_› (off_PLT_MISSING_MARKS (dj hF)))
    try clear_value s
    extract_lets -merge -underBinder +onlyGivenNames s
    have hs : Held b0 F s := held_flag (dj hF) ‹_› (off_PLT_PROT_EVENT_STATUS_STRING_MISSING (dj hF))
    try clear_value s
    extract_lets -merge -underBinder +onlyGivenNames s
    have hs : Held b0 F s := held_endOpen (dj hF) (held_endClose (dj hF) ‹_›)
    try clear_value s
    exact held_watchString (dj hF) (held_startCkpt (dj hF) (held_freeze (dj hF) ‹_›))
theorem held_conOpened {s c} (hF : Dj F 0x10001000a0042b) (hs : Held b0 F s) : Held b0 F (State.conOpened s c) := by
  unfold State.conOpened
  refine ite_ind (Q := Held b0 F) (fun _ => ?_) (fun _ => ?_)
  · assumption
  · exact held_openStrings (dj hF) (held_conTo (dj hF) (held_modPcon (dj hF) ‹_›))
theorem held_conWord {s c w} (hF : Dj F 0x10009000a0042b) (hs : Held b0 F s) : Held b0 F (State.conWord s c w) := by
  unfold State.conWord
  extract_lets -merge -underBinder +onlyGivenNames old
  try clear_value old
  extract_lets -merge -underBinder +onlyGivenNames s
  have hs : Held b0 F s := held_modPcon (dj hF) ‹_›
  try clear_value s
  extract_lets -merge -underBinder +onlyGivenNames s
  have hs : Held b0 F s := by
    unfold s
    refine ite_ind (Q := Held b0 F) (fun _ => ?_) (fun _ => ?_)
    · exact held_fireSeen (dj hF) ‹_›
    · assumption
  try clear_value s
  extract_lets -merge -underBinder +onlyGivenNames s
  have hs : Held b0 F s := by
    unfold s
    refine ite_ind (Q := Held b0 F) (fun _ => ?_) (fun _ => ?_)
    · exact held_flag (dj hF) (held_raise (dj hF) (held_modPcon (dj hF) ‹_›)) (off_PLT_PROT_EVENT_STATUS_THERMAL_FAULT (dj hF))
    · assumption
  try clear_value s
  extract_lets -merge -underBinder +onlyGivenNames x
  try clear_value x
  extract_lets -merge -underBinder +onlyGivenNames s
  have hs : Held b0 F s := by
    unfold s
    refine ite_ind (Q := Held b0 F) (fun _ => ?_) (fun _ => ?_)
    · exact held_completeOpt (dj hF) (held_conTo (dj hF) (held_modPcon (dj hF) ‹_›))
    · refine ite_ind (Q := Held b0 F) (fun _ => ?_) (fun _ => ?_)
      · exact held_conOpened (dj hF) ‹_›
      · refine ite_ind (Q := Held b0 F) (fun _ => ?_) (fun _ => ?_)
        · exact held_conTo (dj hF) ‹_›
        · refine ite_ind (Q := Held b0 F) (fun _ => ?_) (fun _ => ?_)
          · exact held_conTo (dj hF) ‹_›
          · assumption
  try clear_value s
  exact held_modPcon (dj hF) ‹_›
theorem held_strOpenDone {s i attempt status contact} (hF : Dj F 0x10003000a0052b) (hs : Held b0 F s) : Held b0 F (State.strOpenDone s i attempt status contact) := by
  unfold State.strOpenDone
  extract_lets -merge -underBinder +onlyGivenNames waits
  try clear_value waits
  extract_lets -merge -underBinder +onlyGivenNames s
  have hs : Held b0 F s := held_modPstr (dj hF) ‹_›
  try clear_value s
  refine ite_ind (Q := Held b0 F) (fun _ => ?_) (fun _ => ?_)
  · extract_lets -merge -underBinder +onlyGivenNames s
    have hs : Held b0 F s := held_strReport (dj hF) ‹_›
    try clear_value s
    refine ite_ind (Q := Held b0 F) (fun _ => ?_) (fun _ => ?_)
    · exact held_sendStrOpen (dj hF) ‹_›
    · assumption
  · refine ite_ind (Q := Held b0 F) (fun _ => ?_) (fun _ => ?_)
    · exact held_sendStrOpen (dj hF) ‹_›
    · exact held_openFailed (dj hF) ‹_›
theorem held_noteDone {s n b what} (hF : Dj F 0x1000f000a0072b) (hs : Held b0 F s) : Held b0 F (State.noteDone s n b what) := by
  unfold State.noteDone
  extract_lets -merge -underBinder +onlyGivenNames s
  have hs : Held b0 F s := by
    unfold s
    refine ite_ind (Q := Held b0 F) (fun _ => ?_) (fun _ => ?_)
    · exact held_restoreApplied (dj hF) ‹_›
    · assumption
  try clear_value s
  split
  · refine ite_ind (Q := Held b0 F) (fun _ => ?_) (fun _ => ?_)
    · exact held_markMissing (dj hF) ‹_›
    · refine ite_ind (Q := Held b0 F) (fun _ => ?_) (fun _ => ?_)
      · refine ite_ind (Q := Held b0 F) (fun _ => ?_) (fun _ => ?_)
        · exact held_startCkpt (dj hF) ‹_›
        · exact held_markMissing (dj hF) ‹_›
      · refine ite_ind (Q := Held b0 F) (fun _ => ?_) (fun _ => ?_)
        · exact held_startCkpt (dj hF) ‹_›
        · refine ite_ind (Q := Held b0 F) (fun _ => ?_) (fun _ => ?_)
          · exact held_startOpen (dj hF) ‹_›
          · assumption
  · extract_lets -merge -underBinder +onlyGivenNames s
    have hs : Held b0 F s := by
      unfold s
      refine ite_ind (Q := Held b0 F) (fun _ => ?_) (fun _ => ?_)
      · exact held_startCkpt (dj hF) ‹_›
      · assumption
    try clear_value s
    refine ite_ind (Q := Held b0 F) (fun _ => ?_) (fun _ => ?_)
    · exact held_request (dj hF) ‹_›
    · refine ite_ind (Q := Held b0 F) (fun _ => ?_) (fun _ => ?_)
      · exact held_conGone (dj hF) (held_conTo (dj hF) ‹_›)
      · assumption
  · refine ite_ind (Q := Held b0 F) (fun _ => ?_) (fun _ => ?_)
    · exact held_startCkpt (dj hF) ‹_›
    · assumption
theorem held_strCloseDone {s i status contact} (hF : Dj F 0x1000b000a0052b) (hs : Held b0 F s) : Held b0 F (State.strCloseDone s i status contact) := by
  unfold State.strCloseDone
  extract_lets -merge -underBinder +onlyGivenNames x
  try clear_value x
  extract_lets -merge -underBinder +onlyGivenNames s
  have hs : Held b0 F s := held_modPstr (dj hF) ‹_›
  try clear_value s
  refine ite_ind (Q := Held b0 F) (fun _ => ?_) (fun _ => ?_)
  · exact held_cancelClose (dj hF) ‹_›
  · refine ite_ind (Q := Held b0 F) (fun _ => ?_) (fun _ => ?_)
    · exact held_sendStrOpen (dj hF) (held_endClose (dj hF) ‹_›)
    · refine ite_ind (Q := Held b0 F) (fun _ => ?_) (fun _ => ?_)
      · refine ite_ind (Q := Held b0 F) (fun _ => ?_) (fun _ => ?_)
        · exact held_sendStrOpen (dj hF) ‹_›
        · assumption
      · refine ite_ind (Q := Held b0 F) (fun _ => ?_) (fun _ => ?_)
        · exact held_strReport (dj hF) ‹_›
        · extract_lets -merge -underBinder +onlyGivenNames s
          have hs : Held b0 F s := held_modPstr (dj hF) ‹_›
          try clear_value s
          exact held_completeOpt (dj hF) (held_tripStr (dj hF) ‹_›)
theorem held_judge {s i t} (hF : Dj F 0x1000f000a0072b) (hs : Held b0 F s) : Held b0 F (State.judge s i t) := by
  unfold State.judge
  extract_lets -merge -underBinder +onlyGivenNames e
  try clear_value e
  extract_lets -merge -underBinder +onlyGivenNames ty
  try clear_value ty
  extract_lets -merge -underBinder +onlyGivenNames q
  try clear_value q
  extract_lets -merge -underBinder +onlyGivenNames hot
  try clear_value hot
  extract_lets -merge -underBinder +onlyGivenNames cold
  try clear_value cold
  extract_lets -merge -underBinder +onlyGivenNames chargeNow
  try clear_value chargeNow
  extract_lets -merge -underBinder +onlyGivenNames hasOpen
  try clear_value hasOpen
  extract_lets -merge -underBinder +onlyGivenNames x
  try clear_value x
  extract_lets -merge -underBinder +onlyGivenNames s
  have hs : Held b0 F s := held_setPstr (dj hF) ‹_›
  try clear_value s
  extract_lets -merge -underBinder +onlyGivenNames s
  have hs : Held b0 F s := held_strReport (dj hF) (held_strReturn (dj hF) ‹_›)
  try clear_value s
  extract_lets -merge -underBinder +onlyGivenNames x
  try clear_value x
  refine ite_ind (Q := Held b0 F) (fun _ => ?_) (fun _ => ?_)
  · exact held_strOpenNow (dj hF) ‹_›
  · refine ite_ind (Q := Held b0 F) (fun _ => ?_) (fun _ => ?_)
    · exact held_markMissing (dj hF) ‹_›
    · extract_lets -merge -underBinder +onlyGivenNames pick
      try clear_value pick
      extract_lets -merge -underBinder +onlyGivenNames ov
      try clear_value ov
      extract_lets -merge -underBinder +onlyGivenNames uv
      try clear_value uv
      extract_lets -merge -underBinder +onlyGivenNames ot
      try clear_value ot
      extract_lets -merge -underBinder +onlyGivenNames lt
      try clear_value lt
      extract_lets -merge -underBinder +onlyGivenNames s
      have hs : Held b0 F s := by
        unfold s
        refine ite_ind (Q := Held b0 F) (fun _ => ?_) (fun _ => ?_)
        · exact held_tripStr (dj hF) ‹_›
        · refine ite_ind (Q := Held b0 F) (fun _ => ?_) (fun _ => ?_)
          · exact held_tripStr (dj hF) ‹_›
          · refine ite_ind (Q := Held b0 F) (fun _ => ?_) (fun _ => ?_)
            · exact held_tripStr (dj hF) ‹_›
            · refine ite_ind (Q := Held b0 F) (fun _ => ?_) (fun _ => ?_)
              · exact held_tripStr (dj hF) ‹_›
              · refine ite_ind (Q := Held b0 F) (fun _ => ?_) (fun _ => ?_)
                · exact held_tripStr (dj hF) ‹_›
                · refine ite_ind (Q := Held b0 F) (fun _ => ?_) (fun _ => ?_)
                  · exact held_tripStr (dj hF) ‹_›
                  · refine ite_ind (Q := Held b0 F) (fun _ => ?_) (fun _ => ?_)
                    · exact held_tripStr (dj hF) ‹_›
                    · refine ite_ind (Q := Held b0 F) (fun _ => ?_) (fun _ => ?_)
                      · exact held_watchString (dj hF) (held_tripStr (dj hF) ‹_›)
                      · assumption
      try clear_value s
      extract_lets -merge -underBinder +onlyGivenNames s
      have hs : Held b0 F s := by
        unfold s
        refine ite_ind (Q := Held b0 F) (fun _ => ?_) (fun _ => ?_)
        · exact held_raise (dj hF) (held_modPstr (dj hF) ‹_›)
        · refine ite_ind (Q := Held b0 F) (fun _ => ?_) (fun _ => ?_)
          · exact held_modPstr (dj hF) ‹_›
          · assumption
      try clear_value s
      extract_lets -merge -underBinder +onlyGivenNames s
      have hs : Held b0 F s := by
        unfold s
        refine ite_ind (Q := Held b0 F) (fun _ => ?_) (fun _ => ?_)
        · exact held_overBlock (dj hF) ‹_›
        · assumption
      try clear_value s
      extract_lets -merge -underBinder +onlyGivenNames s
      have hs : Held b0 F s := by
        unfold s
        refine ite_ind (Q := Held b0 F) (fun _ => ?_) (fun _ => ?_)
        · exact held_overBlock (dj hF) ‹_›
        · assumption
      try clear_value s
      exact held_strOpenNow (dj hF) ‹_›
theorem held_txnDone {s x status payload} (hF : Dj F 0x1000b000a0052b) (hs : Held b0 F s) : Held b0 F (State.txnDone s x status payload) := by
  unfold State.txnDone
  extract_lets -merge -underBinder +onlyGivenNames contact
  try clear_value contact
  split
  · assumption
  · assumption
  · assumption
  · assumption
  · refine ite_ind (Q := Held b0 F) (fun _ => ?_) (fun _ => ?_)
    · exact held_complete (dj hF) ‹_›
    · exact held_complete (dj hF) ‹_›
  · exact held_strCloseDone (dj hF) ‹_›
  · exact held_strOpenDone (dj hF) ‹_›
  · extract_lets -merge -underBinder +onlyGivenNames waits
    try clear_value waits
    extract_lets -merge -underBinder +onlyGivenNames s
    have hs : Held b0 F s := held_modPcon (dj hF) ‹_›
    try clear_value s
    refine ite_ind (Q := Held b0 F) (fun _ => ?_) (fun _ => ?_)
    · exact held_sendConOpen (dj hF) ‹_›
    · refine ite_ind (Q := Held b0 F) (fun _ => ?_) (fun _ => ?_)
      · assumption
      · refine ite_ind (Q := Held b0 F) (fun _ => ?_) (fun _ => ?_)
        · refine ite_ind (Q := Held b0 F) (fun _ => ?_) (fun _ => ?_)
          · exact held_conWord (dj hF) ‹_›
          · assumption
        · extract_lets -merge -underBinder +onlyGivenNames q
          try clear_value q
          exact held_completeOpt (dj hF) (held_tripCon (dj hF) (held_modPcon (dj hF) ‹_›))
  · extract_lets -merge -underBinder +onlyGivenNames waits
    try clear_value waits
    extract_lets -merge -underBinder +onlyGivenNames s
    have hs : Held b0 F s := held_modPcon (dj hF) ‹_›
    try clear_value s
    refine ite_ind (Q := Held b0 F) (fun _ => ?_) (fun _ => ?_)
    · exact held_sendConOpen (dj hF) ‹_›
    · refine ite_ind (Q := Held b0 F) (fun _ => ?_) (fun _ => ?_)
      · refine ite_ind (Q := Held b0 F) (fun _ => ?_) (fun _ => ?_)
        · assumption
        · exact held_conWord (dj hF) ‹_›
      · refine ite_ind (Q := Held b0 F) (fun _ => ?_) (fun _ => ?_)
        · exact held_sendConOpen (dj hF) ‹_›
        · extract_lets -merge -underBinder +onlyGivenNames q
          try clear_value q
          exact held_completeOpt (dj hF) (held_tripCon (dj hF) (held_modPcon (dj hF) ‹_›))
  · refine ite_ind (Q := Held b0 F) (fun _ => ?_) (fun _ => ?_)
    · extract_lets -merge -underBinder +onlyGivenNames v
      try clear_value v
      extract_lets -merge -underBinder +onlyGivenNames i
      try clear_value i
      extract_lets -merge -underBinder +onlyGivenNames s
      have hs : Held b0 F s := held_modPcon (dj hF) ‹_›
      try clear_value s
      extract_lets -merge -underBinder +onlyGivenNames s
      have hs : Held b0 F s := held_modNode (dj hF) ‹_›
      try clear_value s
      extract_lets -merge -underBinder +onlyGivenNames s
      have hs : Held b0 F s := held_tryCloseCon (dj hF) (held_conWord (dj hF) ‹_›)
      try clear_value s
      refine foldl_ind (Q := Held b0 F) (fun s _ hs => ?_) ?_
      · refine ite_ind (Q := Held b0 F) (fun _ => ?_) (fun _ => ?_)
        · exact held_tryClose (dj hF) ‹_›
        · assumption
      · assumption
    · assumption
  · refine ite_ind (Q := Held b0 F) (fun _ => ?_) (fun _ => ?_)
    · extract_lets -merge -underBinder +onlyGivenNames s
      have hs : Held b0 F s := held_modPcon (dj hF) ‹_›
      try clear_value s
      refine ite_ind (Q := Held b0 F) (fun _ => ?_) (fun _ => ?_)
      · exact held_sendConOpen (dj hF) ‹_›
      · assumption
    · assumption
  · refine ite_ind (Q := Held b0 F) (fun _ => ?_) (fun _ => ?_)
    · extract_lets -merge -underBinder +onlyGivenNames s
      have hs : Held b0 F s := held_modPcon (dj hF) ‹_›
      try clear_value s
      refine ite_ind (Q := Held b0 F) (fun _ => ?_) (fun _ => ?_)
      · exact held_tripCon (dj hF) (held_sendConOpen (dj hF) ‹_›)
      · assumption
    · assumption
theorem held_settleN {k s} (hF : Dj F 0x1000f000a0072b) (hs : Held b0 F s) : Held b0 F (State.settleN k s) := by
  induction k generalizing s with
  | zero => exact hs
  | succ k ih =>
    unfold State.settleN
    refine ite_ind (Q := Held b0 F) (fun _ => hs) (fun _ => ?_)
    refine ih ?_
    refine foldl_ind (Q := Held b0 F) (fun _ _ hs => held_noteDone (dj hF) hs) ?_
    refine foldl_ind (Q := Held b0 F) (fun _ _ hs => held_txnDone (dj hF) hs) ?_
    exact held_mk_xng (dj hF) hs
theorem held_settle {s} (hF : Dj F 0x1000f000a0072b) (hs : Held b0 F s) : Held b0 F (State.settle s) := by
  unfold State.settle
  exact held_settleN (dj hF) ‹_›

end Sys2Proof.Machine
end

