-- ==== Sys2Proof/Laws/KeptSecNode.lean ====
section
/-!
SUPPORT. The operations of Machine/SecNode.lean change only the parts that their masks name (Laws/Held.lean).
-/
namespace Sys2Proof.Machine
open Sys2Proof
set_option Elab.async false

variable {b0 : State} {F : Nat}

theorem held_stagePut {s b} (hF : Dj F 0x80) (hs : Held b0 F s) : Held b0 F (State.stagePut s b) := by
  unfold State.stagePut
  exact held_mk_sec (dj hF) ‹_›
theorem held_enrolled {s n b q cert} (hF : Dj F 0x10003401a0012b) (hs : Held b0 F s) : Held b0 F (State.enrolled s n b q cert) := by
  unfold State.enrolled
  extract_lets -merge -underBinder +onlyGivenNames s
  have hs : Held b0 F s := held_modNode (dj hF) ‹_›
  try clear_value s
  extract_lets -merge -underBinder +onlyGivenNames s
  have hs : Held b0 F s := held_challenge (dj hF) (held_raise (dj hF) (held_inc (dj hF) ‹_› (off_SEC_ENROLMENTS (dj hF))))
  try clear_value s
  exact held_complete (dj hF) ‹_›
theorem held_secDone {s x status payload} (hF : Dj F 0x10003401a001ab) (hs : Held b0 F s) : Held b0 F (State.secDone s x status payload) := by
  unfold State.secDone
  split
  · refine ite_ind (Q := Held b0 F) (fun _ => ?_) (fun _ => ?_)
    · exact held_complete (dj hF) ‹_›
    · extract_lets -merge -underBinder +onlyGivenNames cert
      try clear_value cert
      split
      · extract_lets -merge -underBinder +onlyGivenNames req
        try clear_value req
        refine ite_ind (Q := Held b0 F) (fun _ => ?_) (fun _ => ?_)
        · exact held_complete (dj hF) (held_stagePut (dj hF) ‹_›)
        · exact held_complete (dj hF) ‹_›
      · exact held_request (dj hF) ‹_›
      · exact held_request (dj hF) ‹_›
      · exact held_enrolled (dj hF) ‹_›
  · assumption
theorem held_settled {s} (hF : Dj F 0x1000f401a007ab) (hs : Held b0 F s) : Held b0 F (State.settled s) := by
  unfold State.settled
  extract_lets -merge -underBinder +onlyGivenNames s
  have hs : Held b0 F s := held_settle (dj hF) ‹_›
  try clear_value s
  extract_lets -merge -underBinder +onlyGivenNames d
  try clear_value d
  extract_lets -merge -underBinder +onlyGivenNames zz0 s
  have hs : Held b0 F s := held_mk_xng (dj hF) ‹_›
  try clear_value s
  refine held_settle (dj hF) ?_
  refine foldl_ind (Q := Held b0 F) (fun s _ hs => ?_) ?_
  · exact held_secDone (dj hF) ‹_›
  · assumption

end Sys2Proof.Machine
end

