-- ==== Sys2Proof/Laws/KeptXng.lean ====
section
/-!
SUPPORT. The operations of Machine/Xng.lean change only the parts that their masks name (Laws/Held.lean).
-/
namespace Sys2Proof.Machine
open Sys2Proof
set_option Elab.async false

variable {b0 : State} {F : Nat}

theorem held_sweepDone {s n b fs tables} (hF : Dj F 0x7000200309) (hs : Held b0 F s) : Held b0 F (State.sweepDone s n b fs tables) := by
  unfold State.sweepDone
  extract_lets -merge -underBinder +onlyGivenNames w
  try clear_value w
  extract_lets -merge -underBinder +onlyGivenNames s
  have hs : Held b0 F s := held_modNode (dj hF) ‹_›
  try clear_value s
  refine ite_ind (Q := Held b0 F) (fun _ => ?_) (fun _ => ?_)
  · exact held_intake (dj hF) ‹_›
  · assumption
theorem held_sampleReport {s n f} (hF : Dj F 0x7000200309) (hs : Held b0 F s) : Held b0 F (State.sampleReport s n f) := by
  unfold State.sampleReport
  split
  · exact held_inc (dj hF) ‹_› (off_XNG_FRAMES_DROPPED (dj hF))
  · refine ite_ind (Q := Held b0 F) (fun _ => ?_) (fun _ => ?_)
    · extract_lets -merge -underBinder +onlyGivenNames got
      try clear_value got
      refine ite_ind (Q := Held b0 F) (fun _ => ?_) (fun _ => ?_)
      · exact held_sweepDone (dj hF) (held_finishTag (dj hF) ‹_›)
      · exact held_mk_xng (dj hF) ‹_›
    · exact held_inc (dj hF) ‹_› (off_XNG_FRAMES_DROPPED (dj hF))
theorem held_ringWake {q c s} (hF : Dj F 0x3001a00129) (hs : Held b0 F s) : Held b0 F (State.ringWake q c s) := by
  unfold State.ringWake
  extract_lets -merge -underBinder +onlyGivenNames n
  try clear_value n
  refine ite_ind (Q := Held b0 F) (fun _ => ?_) (fun _ => ?_)
  · extract_lets -merge -underBinder +onlyGivenNames wait
    have hwait : ∀ s_0, Held b0 F s_0 → Held b0 F (wait s_0) := by
      intro s_0 hs_0
      unfold wait
      exact held_modRing (dj hF) ‹_›
    try clear_value wait
    refine ite_ind (Q := Held b0 F) (fun _ => ?_) (fun _ => ?_)
    · refine held_startWake (dj hF) ?_
      refine hwait _ ?_
      · assumption
    · refine ite_ind (Q := Held b0 F) (fun _ => ?_) (fun _ => ?_)
      · refine hwait _ ?_
        · assumption
      · refine held_complete (dj hF) ?_
        refine ite_ind (Q := Held b0 F) (fun _ => ?_) (fun _ => ?_)
        · exact held_sleepAbort (dj hF) ‹_›
        · assumption
  · exact held_complete (dj hF) ‹_›
theorem held_wakeTone {s n} (hF : Dj F 0x3201a00129) (hs : Held b0 F s) : Held b0 F (State.wakeTone s n) := by
  unfold State.wakeTone
  extract_lets -merge -underBinder +onlyGivenNames s
  have hs : Held b0 F s := held_wakeSource (dj hF) ‹_›
  try clear_value s
  refine ite_ind (Q := Held b0 F) (fun _ => ?_) (fun _ => ?_)
  · extract_lets -merge -underBinder +onlyGivenNames s
    have hs : Held b0 F s := held_wrB (dj hF) ‹_› (off_XNG_SLEEP_STATUS_WAKE_LATCHED (dj hF))
    try clear_value s
    refine ite_ind (Q := Held b0 F) (fun _ => ?_) (fun _ => ?_)
    · exact held_wrB (dj hF) (held_sleepAbort (dj hF) ‹_›) (off_XNG_SLEEP_STATUS_WAKE_LATCHED (dj hF))
    · refine ite_ind (Q := Held b0 F) (fun _ => ?_) (fun _ => ?_)
      · exact held_startWake (dj hF) ‹_›
      · refine ite_ind (Q := Held b0 F) (fun _ => ?_) (fun _ => ?_)
        · assumption
        · exact held_wrB (dj hF) ‹_› (off_XNG_SLEEP_STATUS_WAKE_LATCHED (dj hF))
  · assumption
theorem held_suspectAll {s n} (hF : Dj F 0x100) (hs : Held b0 F s) : Held b0 F (State.suspectAll s n) := by
  unfold State.suspectAll
  exact held_modRing (dj hF) ‹_›
theorem held_authPassed {s n b} (hF : Dj F 0x10003000a0010b) (hs : Held b0 F s) : Held b0 F (State.authPassed s n b) := by
  unfold State.authPassed
  extract_lets -merge -underBinder +onlyGivenNames x
  try clear_value x
  refine ite_ind (Q := Held b0 F) (fun _ => ?_) (fun _ => ?_)
  · assumption
  · exact held_joined (dj hF) ‹_›
theorem held_hawserResponse {s n f} (hF : Dj F 0x1000f401a007ab) (hs : Held b0 F s) : Held b0 F (State.hawserResponse s n f) := by
  unfold State.hawserResponse
  split
  · exact held_inc (dj hF) ‹_› (off_XNG_FRAMES_DROPPED (dj hF))
  · refine ite_ind (Q := Held b0 F) (fun _ => ?_) (fun _ => ?_)
    · exact held_settled (dj hF) (held_finishTag (dj hF) ‹_›)
    · exact held_inc (dj hF) ‹_› (off_XNG_FRAMES_DROPPED (dj hF))
theorem held_execPeriodicChallenge {n berth s} (hF : Dj F 0x1000f401a007ab) (hs : Held b0 F s) : HeldR b0 F (execPeriodicChallenge n berth s) := by
  unfold execPeriodicChallenge
  refine ite_ind (Q := HeldR b0 F) (fun _ => ?_) (fun _ => ?_)
  · exact heldR_next (held_settled (dj hF) (held_challenge (dj hF) ‹_›))
  · exact heldR_next ‹_›
theorem held_txnTimeout {s tag x} (hF : Dj F 0x1000f401a007ab) (hs : Held b0 F s) : Held b0 F (State.txnTimeout s tag x) := by
  unfold State.txnTimeout
  split
  · extract_lets -merge -underBinder +onlyGivenNames s
    have hs : Held b0 F s := held_inc (dj hF) (held_finishTag (dj hF) ‹_›) (off_XNG_SWEEPS_MISSED (dj hF))
    try clear_value s
    extract_lets -merge -underBinder +onlyGivenNames s
    have hs : Held b0 F s := held_modNode (dj hF) ‹_›
    try clear_value s
    refine held_settled (dj hF) ?_
    refine ite_ind (Q := Held b0 F) (fun _ => ?_) (fun _ => ?_)
    · exact held_loseNode (dj hF) ‹_›
    · assumption
  · refine ite_ind (Q := Held b0 F) (fun _ => ?_) (fun _ => ?_)
    · exact held_settled (dj hF) (held_finishTag (dj hF) ‹_›)
    · extract_lets -merge -underBinder +onlyGivenNames endB
      try clear_value endB
      extract_lets -merge -underBinder +onlyGivenNames x'
      try clear_value x'
      extract_lets -merge -underBinder +onlyGivenNames zz0 s
      have hs : Held b0 F s := held_inc (dj hF) (held_mk_xng (dj hF) ‹_›) (off_XNG_TXN_RETRY (dj hF))
      try clear_value s
      extract_lets -merge -underBinder +onlyGivenNames y
      try clear_value y
      extract_lets -merge -underBinder +onlyGivenNames q
      try clear_value q
      exact held_send (dj hF) (held_setNode (dj hF) ‹_›)
theorem held_censusIfUp {s n was} (hF : Dj F 0x800100) (hs : Held b0 F s) : Held b0 F (State.censusIfUp s n was) := by
  unfold State.censusIfUp
  refine ite_ind (Q := Held b0 F) (fun _ => ?_) (fun _ => ?_)
  · exact held_discover (dj hF) ‹_›
  · assumption
theorem held_execJoinDiscoveryTimer {n s} (hF : Dj F 0x800100) (hs : Held b0 F s) : HeldR b0 F (execJoinDiscoveryTimer n s) := by
  unfold execJoinDiscoveryTimer
  refine ite_ind (Q := HeldR b0 F) (fun _ => ?_) (fun _ => ?_)
  · exact heldR_next (held_discover (dj hF) ‹_›)
  · exact heldR_next ‹_›
theorem held_execTransactionTimeout {tag s} (hF : Dj F 0x1000f401a007ab) (hs : Held b0 F s) : HeldR b0 F (execTransactionTimeout tag s) := by
  unfold execTransactionTimeout
  split
  · exact heldR_next (held_txnTimeout (dj hF) ‹_›)
  · exact heldR_next ‹_›
theorem held_execXngClearCounters {sess key n s} (hF : Dj F 0x2000000001) (hs : Held b0 F s) : HeldR b0 F (execXngClearCounters sess key n s) := by
  unfold execXngClearCounters
  refine ite_ind (Q := HeldR b0 F) (fun h => heldR_next ?_) (fun _ => heldR_next hs)
  simp only [Bool.and_eq_true, decide_eq_true_eq] at h
  exact held_clearAt 5 (dj hF) (dj hF) (by simp [blkLo]) (by simp [blkHi]; omega) hs
theorem held_unsolicited {s n f} (hF : Dj F 0x7000200309) (hs : Held b0 F s) : Held b0 F (State.unsolicited s n f) := by
  unfold State.unsolicited
  extract_lets -merge -underBinder +onlyGivenNames x
  try clear_value x
  extract_lets -merge -underBinder +onlyGivenNames p
  try clear_value p
  refine ite_ind (Q := Held b0 F) (fun _ => ?_) (fun _ => ?_)
  · assumption
  · extract_lets -merge -underBinder +onlyGivenNames same
    try clear_value same
    extract_lets -merge -underBinder +onlyGivenNames got
    try clear_value got
    extract_lets -merge -underBinder +onlyGivenNames got
    try clear_value got
    refine ite_ind (Q := Held b0 F) (fun _ => ?_) (fun _ => ?_)
    · exact held_sweepDone (dj hF) ‹_›
    · exact held_setNode (dj hF) ‹_›
theorem held_joinAgain {s n j} (hF : Dj F 0x2001800101) (hs : Held b0 F s) : Held b0 F (State.joinAgain s n j) := by
  unfold State.joinAgain
  extract_lets -merge -underBinder +onlyGivenNames s
  have hs : Held b0 F s := held_modNode (dj hF) ‹_›
  try clear_value s
  refine ite_ind (Q := Held b0 F) (fun _ => ?_) (fun _ => ?_)
  · exact held_challenge (dj hF) (held_modRing (dj hF) ‹_›)
  · assumption
theorem held_nodeRead {q c s} (hF : Dj F 0x1000f401a007ab) (hs : Held b0 F s) : Held b0 F (State.nodeRead q c s) := by
  unfold State.nodeRead
  split
  · refine ite_ind (Q := Held b0 F) (fun _ => ?_) (fun _ => ?_)
    · exact held_settled (dj hF) (held_request (dj hF) ‹_›)
    · exact held_complete (dj hF) ‹_›
theorem held_censusAnswer {s n b} (hF : Dj F 0x100) (hs : Held b0 F s) : Held b0 F (State.censusAnswer s n b) := by
  unfold State.censusAnswer
  exact held_modRing (dj hF) ‹_›
theorem held_execNodeLost {n berth s} (hF : Dj F 0x1000f401a007ab) (hs : Held b0 F s) : HeldR b0 F (execNodeLost n berth s) := by
  unfold execNodeLost
  refine ite_ind (Q := HeldR b0 F) (fun _ => ?_) (fun _ => ?_)
  · exact heldR_next (held_settled (dj hF) (held_loseNode (dj hF) ‹_›))
  · exact heldR_next ‹_›
theorem held_sendSweep {s n b} (hF : Dj F 0x3000a00109) (hs : Held b0 F s) : Held b0 F (State.sendSweep s n b) := by
  unfold State.sendSweep
  extract_lets -merge -underBinder +onlyGivenNames x
  try clear_value x
  extract_lets -merge -underBinder +onlyGivenNames s
  have hs : Held b0 F s := held_setNode (dj hF) ‹_›
  try clear_value s
  exact held_request (dj hF) ‹_›
theorem held_hopLost {s n k} (hF : Dj F 0x1000f401a007ab) (hs : Held b0 F s) : Held b0 F (State.hopLost s n k) := by
  unfold State.hopLost
  extract_lets -merge -underBinder +onlyGivenNames was
  try clear_value was
  extract_lets -merge -underBinder +onlyGivenNames s
  have hs : Held b0 F s := held_breakAt (dj hF) (held_modRing (dj hF) ‹_›)
  try clear_value s
  exact held_settled (dj hF) (held_wakeTrained (dj hF) (held_censusIfUp (dj hF) ‹_›))
theorem held_execWakeTone {n s} (hF : Dj F 0x3201a00129) (hs : Held b0 F s) : HeldR b0 F (execWakeTone n s) := by
  unfold execWakeTone
  refine ite_ind (Q := HeldR b0 F) (fun _ => ?_) (fun _ => ?_)
  · exact heldR_next ‹_›
  · exact heldR_next (held_wakeTone (dj hF) ‹_›)
theorem held_execHopDown {n endB s} (hF : Dj F 0x1000f401a007ab) (hs : Held b0 F s) : HeldR b0 F (execHopDown n endB s) := by
  unfold execHopDown
  refine ite_ind (Q := HeldR b0 F) (fun _ => ?_) (fun _ => ?_)
  · exact heldR_next (held_hopLost (dj hF) ‹_›)
  · exact heldR_next ‹_›
theorem held_execSampleReport {n endB frame s} (hF : Dj F 0x1000f401a007ab) (hs : Held b0 F s) : HeldR b0 F (execSampleReport n endB frame s) := by
  unfold execSampleReport
  split
  · have hz := held1_eq (by assumption) (held_receive (dj hF) ‹_›)
    exact heldR_next (held_settled (dj hF) (held_sampleReport (dj hF) ‹_›))
  · have hz := held1_eq (by assumption) (held_receive (dj hF) ‹_›)
    exact heldR_next ‹_›
theorem held_execPresenceTimer {n s} (hF : Dj F 0x800100) (hs : Held b0 F s) : HeldR b0 F (execPresenceTimer n s) := by
  unfold execPresenceTimer
  refine ite_ind (Q := HeldR b0 F) (fun _ => ?_) (fun _ => ?_)
  · exact heldR_next (held_broadcast (dj hF) ‹_›)
  · exact heldR_next ‹_›
theorem held_ringHeal {s n hop} (hF : Dj F 0x10003000a0010b) (hs : Held b0 F s) : Held b0 F (State.ringHeal s n hop) := by
  unfold State.ringHeal
  extract_lets -merge -underBinder +onlyGivenNames s
  have hs : Held b0 F s := held_replan (dj hF) (held_suspectAll (dj hF) (held_modRing (dj hF) ‹_›))
  try clear_value s
  refine ite_ind (Q := Held b0 F) (fun _ => ?_) (fun _ => ?_)
  · exact held_discover (dj hF) (held_xngEvent (dj hF) ‹_›)
  · exact held_discover (dj hF) ‹_›
theorem held_nodeWrite {q c s} (hF : Dj F 0x1000f401a007ab) (hs : Held b0 F s) : Held b0 F (State.nodeWrite q c s) := by
  unfold State.nodeWrite
  split
  · refine ite_ind (Q := Held b0 F) (fun _ => ?_) (fun _ => ?_)
    · exact held_settled (dj hF) (held_request (dj hF) ‹_›)
    · exact held_complete (dj hF) ‹_›
theorem held_waitAwake {s n q what b} (hF : Dj F 0x3000a00109) (hs : Held b0 F s) : Held b0 F (State.waitAwake s n q what b) := by
  unfold State.waitAwake
  exact held_wakeFor (dj hF) (held_modRing (dj hF) ‹_›)
theorem held_authEnded {s n b passed} (hF : Dj F 0x1000f401a007ab) (hs : Held b0 F s) : Held b0 F (State.authEnded s n b passed) := by
  unfold State.authEnded
  exact held_settled (dj hF) (held_wakeCheck (dj hF) (held_reauthOne (dj hF) (held_challengeDone (dj hF) ‹_›)))
theorem held_retrain {s n} (hF : Dj F 0x3000a00109) (hs : Held b0 F s) : Held b0 F (State.retrain s n) := by
  unfold State.retrain
  extract_lets -merge -underBinder +onlyGivenNames s
  have hs : Held b0 F s := held_showRing (dj hF) (held_suspectAll (dj hF) (held_modRing (dj hF) ‹_›))
  try clear_value s
  refine foldl_ind (Q := Held b0 F) (fun s _ hs => ?_) ?_
  · exact held_resend (dj hF) ‹_›
  · assumption
theorem held_hopFallback {s n hop} (hF : Dj F 0x1000300020010b) (hs : Held b0 F s) : Held b0 F (State.hopFallback s n hop) := by
  unfold State.hopFallback
  extract_lets -merge -underBinder +onlyGivenNames s
  have hs : Held b0 F s := held_modRing (dj hF) ‹_›
  try clear_value s
  exact held_replan (dj hF) (held_flag (dj hF) (held_xngEvent (dj hF) ‹_›) (off_XNG_EVENT_STATUS_HOP_FALLBACK (dj hF)))
theorem held_execSleepAnswerTimeout {n s} (hF : Dj F 0x3001a00129) (hs : Held b0 F s) : HeldR b0 F (execSleepAnswerTimeout n s) := by
  unfold execSleepAnswerTimeout
  refine ite_ind (Q := HeldR b0 F) (fun _ => ?_) (fun _ => ?_)
  · exact heldR_next (held_sleepAbort (dj hF) ‹_›)
  · exact heldR_next ‹_›
theorem held_sleepCommit {s n} (hF : Dj F 0x3000a00109) (hs : Held b0 F s) : Held b0 F (State.sleepCommit s n) := by
  unfold State.sleepCommit
  refine ite_ind (Q := Held b0 F) (fun _ => ?_) (fun _ => ?_)
  · extract_lets -merge -underBinder +onlyGivenNames s
    have hs : Held b0 F s := held_broadcast (dj hF) ‹_›
    try clear_value s
    exact held_setSleep (dj hF) (held_modRing (dj hF) ‹_›)
  · assumption
theorem held_execRingWake {q s} (hF : Dj F 0x3001a00129) (hs : Held b0 F s) : HeldR b0 F (execRingWake q s) := by
  unfold execRingWake
  refine held_onCmd (dj hF) ?_ ?_
  · assumption
  · intro y0 y1 hy1
    exact held_ringWake (dj hF) ‹_›
theorem held_reauthenticate {q c s} (hF : Dj F 0x1000f401a007ab) (hs : Held b0 F s) : Held b0 F (State.reauthenticate q c s) := by
  unfold State.reauthenticate
  extract_lets -merge -underBinder +onlyGivenNames n
  try clear_value n
  extract_lets -merge -underBinder +onlyGivenNames b
  try clear_value b
  refine ite_ind (Q := Held b0 F) (fun _ => ?_) (fun _ => ?_)
  · exact held_complete (dj hF) ‹_›
  · refine ite_ind (Q := Held b0 F) (fun _ => ?_) (fun _ => ?_)
    · exact held_settled (dj hF) (held_startReauth (dj hF) ‹_›)
    · exact held_waitAwake (dj hF) ‹_›
theorem held_execRingHeal {n hop s} (hF : Dj F 0x10003000a0010b) (hs : Held b0 F s) : HeldR b0 F (execRingHeal n hop s) := by
  unfold execRingHeal
  refine ite_ind (Q := HeldR b0 F) (fun _ => ?_) (fun _ => ?_)
  · exact heldR_next (held_ringHeal (dj hF) ‹_›)
  · exact heldR_next ‹_›
theorem held_authResponse {s n f} (hF : Dj F 0x1000f401a007ab) (hs : Held b0 F s) : Held b0 F (State.authResponse s n f) := by
  unfold State.authResponse
  split
  · refine ite_ind (Q := Held b0 F) (fun _ => ?_) (fun _ => ?_)
    · extract_lets -merge -underBinder +onlyGivenNames s
      have hs : Held b0 F s := held_freeTxn (dj hF) ‹_›
      try clear_value s
      extract_lets -merge -underBinder +onlyGivenNames k
      try clear_value k
      extract_lets -merge -underBinder +onlyGivenNames s
      have hs : Held b0 F s := by
        unfold s
        refine ite_ind (Q := Held b0 F) (fun _ => ?_) (fun _ => ?_)
        · exact held_authPassed (dj hF) ‹_›
        · exact held_quarantine (dj hF) ‹_›
      try clear_value s
      exact held_authEnded (dj hF) ‹_›
    · exact held_inc (dj hF) ‹_› (off_XNG_FRAMES_DROPPED (dj hF))
  · exact held_inc (dj hF) ‹_› (off_XNG_FRAMES_DROPPED (dj hF))
theorem held_execAuthResponse {n endB frame s} (hF : Dj F 0x1000f401a007ab) (hs : Held b0 F s) : HeldR b0 F (execAuthResponse n endB frame s) := by
  unfold execAuthResponse
  split
  · have hz := held1_eq (by assumption) (held_receive (dj hF) ‹_›)
    exact heldR_next (held_authResponse (dj hF) ‹_›)
  · have hz := held1_eq (by assumption) (held_receive (dj hF) ‹_›)
    exact heldR_next ‹_›
theorem held_sleepAnswer {s n f} (hF : Dj F 0x3001a00129) (hs : Held b0 F s) : Held b0 F (State.sleepAnswer s n f) := by
  unfold State.sleepAnswer
  refine ite_ind (Q := Held b0 F) (fun _ => ?_) (fun _ => ?_)
  · refine ite_ind (Q := Held b0 F) (fun _ => ?_) (fun _ => ?_)
    · exact held_sleepAbort (dj hF) ‹_›
    · refine ite_ind (Q := Held b0 F) (fun _ => ?_) (fun _ => ?_)
      · assumption
      · exact held_sleepCommit (dj hF) (held_modRing (dj hF) ‹_›)
  · refine ite_ind (Q := Held b0 F) (fun _ => ?_) (fun _ => ?_)
    · assumption
    · refine ite_ind (Q := Held b0 F) (fun _ => ?_) (fun _ => ?_)
      · exact held_wrB (dj hF) ‹_› (off_XNG_SLEEP_STATUS_WAKE_LATCHED (dj hF))
      · refine ite_ind (Q := Held b0 F) (fun _ => ?_) (fun _ => ?_)
        · exact held_startWake (dj hF) (held_wrB (dj hF) ‹_› (off_XNG_SLEEP_STATUS_WAKE_LATCHED (dj hF)))
        · assumption
theorem held_execNodeLeave {n endB frame s} (hF : Dj F 0x1000f401a007ab) (hs : Held b0 F s) : HeldR b0 F (execNodeLeave n endB frame s) := by
  unfold execNodeLeave
  split
  · have hz := held1_eq (by assumption) (held_receive (dj hF) ‹_›)
    refine ite_ind (Q := HeldR b0 F) (fun _ => ?_) (fun _ => ?_)
    · exact heldR_next (held_hawserResponse (dj hF) ‹_›)
    · exact heldR_next (held_settled (dj hF) (held_leaveNode (dj hF) ‹_›))
  · have hz := held1_eq (by assumption) (held_receive (dj hF) ‹_›)
    exact heldR_next ‹_›
theorem held_execNodeRead {q s} (hF : Dj F 0x1000f401a007ab) (hs : Held b0 F s) : HeldR b0 F (execNodeRead q s) := by
  unfold execNodeRead
  refine held_onCmd (dj hF) ?_ ?_
  · assumption
  · intro y0 y1 hy1
    exact held_nodeRead (dj hF) ‹_›
theorem held_execHawserResponse {n endB frame s} (hF : Dj F 0x1000f401a007ab) (hs : Held b0 F s) : HeldR b0 F (execHawserResponse n endB frame s) := by
  unfold execHawserResponse
  split
  · have hz := held1_eq (by assumption) (held_receive (dj hF) ‹_›)
    exact heldR_next (held_hawserResponse (dj hF) ‹_›)
  · have hz := held1_eq (by assumption) (held_receive (dj hF) ‹_›)
    exact heldR_next ‹_›
theorem held_hopTrained {s n hop endB genA genB} (hF : Dj F 0x1000f401a007ab) (hs : Held b0 F s) : Held b0 F (State.hopTrained s n hop endB genA genB) := by
  unfold State.hopTrained
  extract_lets -merge -underBinder +onlyGivenNames was
  try clear_value was
  extract_lets -merge -underBinder +onlyGivenNames s
  have hs : Held b0 F s := held_modRing (dj hF) ‹_›
  try clear_value s
  extract_lets -merge -underBinder +onlyGivenNames s
  have hs : Held b0 F s := held_replan (dj hF) ‹_›
  try clear_value s
  exact held_settled (dj hF) (held_wakeTrained (dj hF) (held_censusIfUp (dj hF) ‹_›))
theorem held_execUnsolicitedReport {n endB frame s} (hF : Dj F 0x7000200309) (hs : Held b0 F s) : HeldR b0 F (execUnsolicitedReport n endB frame s) := by
  unfold execUnsolicitedReport
  split
  · have hz := held1_eq (by assumption) (held_receive (dj hF) ‹_›)
    exact heldR_next (held_unsolicited (dj hF) ‹_›)
  · have hz := held1_eq (by assumption) (held_receive (dj hF) ‹_›)
    exact heldR_next ‹_›
theorem held_execNodeWrite {q s} (hF : Dj F 0x1000f401a007ab) (hs : Held b0 F s) : HeldR b0 F (execNodeWrite q s) := by
  unfold execNodeWrite
  refine held_onCmd (dj hF) ?_ ?_
  · assumption
  · intro y0 y1 hy1
    exact held_nodeWrite (dj hF) ‹_›
theorem held_sweepOut {s k} (hF : Dj F 0x3000a00109) (hs : Held b0 F s) : Held b0 F (State.sweepOut s k) := by
  unfold State.sweepOut
  exact held_sendSweep (dj hF) (held_mk_xng (dj hF) ‹_›)
theorem held_execLinkFaultReceived {n berth towardB s} (hF : Dj F 0x1000f401a007ab) (hs : Held b0 F s) : HeldR b0 F (execLinkFaultReceived n berth towardB s) := by
  unfold execLinkFaultReceived
  refine ite_ind (Q := HeldR b0 F) (fun _ => ?_) (fun _ => ?_)
  · exact heldR_next (held_hopLost (dj hF) ‹_›)
  · exact heldR_next ‹_›
theorem held_joinResponse {s n endB f} (hF : Dj F 0x10003001a0010b) (hs : Held b0 F s) : Held b0 F (State.joinResponse s n endB f) := by
  unfold State.joinResponse
  extract_lets -merge -underBinder +onlyGivenNames j
  try clear_value j
  extract_lets -merge -underBinder +onlyGivenNames x
  try clear_value x
  extract_lets -merge -underBinder +onlyGivenNames s
  have hs : Held b0 F s := held_censusAnswer (dj hF) ‹_›
  try clear_value s
  refine ite_ind (Q := Held b0 F) (fun _ => ?_) (fun _ => ?_)
  · exact held_joinAgain (dj hF) ‹_›
  · extract_lets -merge -underBinder +onlyGivenNames s
    have hs : Held b0 F s := held_setNode (dj hF) ‹_›
    try clear_value s
    extract_lets -merge -underBinder +onlyGivenNames s
    have hs : Held b0 F s := held_replan (dj hF) ‹_›
    try clear_value s
    split
    · exact held_challenge (dj hF) ‹_›
    · exact held_quarantine (dj hF) ‹_›
theorem held_authTimeout {s n b} (hF : Dj F 0x1000f401a007ab) (hs : Held b0 F s) : Held b0 F (State.authTimeout s n b) := by
  unfold State.authTimeout
  extract_lets -merge -underBinder +onlyGivenNames mine
  try clear_value mine
  extract_lets -merge -underBinder +onlyGivenNames s
  have hs : Held b0 F s := by
    unfold s
    refine foldl_ind (Q := Held b0 F) (fun s _ hs => ?_) ?_
    · exact held_freeTxn (dj hF) ‹_›
    · assumption
  try clear_value s
  exact held_authEnded (dj hF) (held_quarantine (dj hF) ‹_›)
theorem held_execRetrain {sess key n s} (hF : Dj F 0x3000a00109) (hs : Held b0 F s) : HeldR b0 F (execRetrain sess key n s) := by
  unfold execRetrain
  refine ite_ind (Q := HeldR b0 F) (fun _ => ?_) (fun _ => ?_)
  · exact heldR_next (held_retrain (dj hF) ‹_›)
  · exact heldR_next ‹_›
theorem held_ringSleep {q c s} (hF : Dj F 0x3000a00129) (hs : Held b0 F s) : Held b0 F (State.ringSleep q c s) := by
  unfold State.ringSleep
  extract_lets -merge -underBinder +onlyGivenNames n
  try clear_value n
  refine ite_ind (Q := Held b0 F) (fun _ => ?_) (fun _ => ?_)
  · extract_lets -merge -underBinder +onlyGivenNames s
    have hs : Held b0 F s := held_modRing (dj hF) ‹_›
    try clear_value s
    exact held_sleepCommit (dj hF) (held_setSleep (dj hF) (held_broadcast (dj hF) ‹_›))
  · exact held_complete (dj hF) ‹_›
theorem held_rediscover {wait q c s} (hF : Dj F 0x3000a00129) (hs : Held b0 F s) : Held b0 F (State.rediscover wait q c s) := by
  unfold State.rediscover
  extract_lets -merge -underBinder +onlyGivenNames n
  try clear_value n
  refine ite_ind (Q := Held b0 F) (fun _ => ?_) (fun _ => ?_)
  · exact held_complete (dj hF) ‹_›
  · refine ite_ind (Q := Held b0 F) (fun _ => ?_) (fun _ => ?_)
    · exact held_startCensus (dj hF) ‹_›
    · exact held_waitAwake (dj hF) ‹_›
theorem held_execHopErrorFallback {n hop s} (hF : Dj F 0x1000300020010b) (hs : Held b0 F s) : HeldR b0 F (execHopErrorFallback n hop s) := by
  unfold execHopErrorFallback
  refine ite_ind (Q := HeldR b0 F) (fun _ => ?_) (fun _ => ?_)
  · exact heldR_next (held_hopFallback (dj hF) ‹_›)
  · exact heldR_next ‹_›
theorem held_execHopTrained {n hop endB genA genB s} (hF : Dj F 0x1000f401a007ab) (hs : Held b0 F s) : HeldR b0 F (execHopTrained n hop endB genA genB s) := by
  unfold execHopTrained
  refine ite_ind (Q := HeldR b0 F) (fun _ => ?_) (fun _ => ?_)
  · exact heldR_next (held_hopTrained (dj hF) ‹_›)
  · exact heldR_next ‹_›
theorem held_execReauthenticate {q s} (hF : Dj F 0x1000f401a007ab) (hs : Held b0 F s) : HeldR b0 F (execReauthenticate q s) := by
  unfold execReauthenticate
  refine held_onCmd (dj hF) ?_ ?_
  · assumption
  · intro y0 y1 hy1
    exact held_reauthenticate (dj hF) ‹_›
theorem held_execSleepProposeResponse {n endB frame s} (hF : Dj F 0x3001a00129) (hs : Held b0 F s) : HeldR b0 F (execSleepProposeResponse n endB frame s) := by
  unfold execSleepProposeResponse
  split
  · have hz := held1_eq (by assumption) (held_receive (dj hF) ‹_›)
    exact heldR_next (held_sleepAnswer (dj hF) ‹_›)
  · have hz := held1_eq (by assumption) (held_receive (dj hF) ‹_›)
    exact heldR_next ‹_›
theorem held_execRingSleep {q s} (hF : Dj F 0x3000a00129) (hs : Held b0 F s) : HeldR b0 F (execRingSleep q s) := by
  unfold execRingSleep
  refine held_onCmd (dj hF) ?_ ?_
  · assumption
  · intro y0 y1 hy1
    exact held_ringSleep (dj hF) ‹_›
theorem held_execRediscover {q wait s} (hF : Dj F 0x3000a00129) (hs : Held b0 F s) : HeldR b0 F (execRediscover q wait s) := by
  unfold execRediscover
  refine held_onCmd (dj hF) ?_ ?_
  · assumption
  · intro y0 y1 hy1
    exact held_rediscover (dj hF) ‹_›
theorem held_execAuthTimeout {n berth s} (hF : Dj F 0x1000f401a007ab) (hs : Held b0 F s) : HeldR b0 F (execAuthTimeout n berth s) := by
  unfold execAuthTimeout
  refine ite_ind (Q := HeldR b0 F) (fun _ => ?_) (fun _ => ?_)
  · exact heldR_next (held_authTimeout (dj hF) ‹_›)
  · exact heldR_next ‹_›
theorem held_serveSweeps {x x1} (hF : Dj F 0x3000a00109) (hx1 : Held b0 F x1) : Held b0 F (State.serveSweeps x x1) := by
  induction x generalizing x1 with
  | zero => exact hx1
  | succ f ih =>
    unfold State.serveSweeps
    split
    · exact ih (held_sweepOut (dj hF) ‹_›)
    · split
      · exact ih (held_sweepOut (dj hF) (held_mk_xng (dj hF) ‹_›))
      · exact hx1
theorem held_sweepsGo {s} (hF : Dj F 0x1000f401a007ab) (hs : Held b0 F s) : Held b0 F (State.sweepsGo s) := by
  unfold State.sweepsGo
  extract_lets -merge -underBinder +onlyGivenNames still
  try clear_value still
  extract_lets -merge -underBinder +onlyGivenNames zz0 zz1 s
  have hs : Held b0 F s := held_mk_xng (dj hF) ‹_›
  try clear_value s
  exact held_settled (dj hF) (held_serveSweeps (dj hF) ‹_›)
theorem held_execJoinResponse {n endB frame s} (hF : Dj F 0x1000f401a007ab) (hs : Held b0 F s) : HeldR b0 F (execJoinResponse n endB frame s) := by
  unfold execJoinResponse
  refine ite_ind (Q := HeldR b0 F) (fun _ => ?_) (fun _ => ?_)
  · split
    · have hz := held1_eq (by assumption) (held_receive (dj hF) ‹_›)
      refine ite_ind (Q := HeldR b0 F) (fun _ => ?_) (fun _ => ?_)
      · exact heldR_next (held_settled (dj hF) (held_joinResponse (dj hF) ‹_›))
      · exact heldR_next ‹_›
    · have hz := held1_eq (by assumption) (held_receive (dj hF) ‹_›)
      exact heldR_next ‹_›
  · exact heldR_next ‹_›
theorem held_promote {s n b} (hF : Dj F 0x1000f401a007ab) (hs : Held b0 F s) : Held b0 F (State.promote s n b) := by
  unfold State.promote
  extract_lets -merge -underBinder +onlyGivenNames s
  have hs : Held b0 F s := held_inc (dj hF) (held_modNode (dj hF) ‹_›) (off_XNG_PROMOTIONS (dj hF))
  try clear_value s
  exact held_sweepsGo (dj hF) (held_mk_xng (dj hF) ‹_›)
theorem held_execSweepPromotion {n berth s} (hF : Dj F 0x1000f401a007ab) (hs : Held b0 F s) : HeldR b0 F (execSweepPromotion n berth s) := by
  unfold execSweepPromotion
  extract_lets -merge -underBinder +onlyGivenNames x
  try clear_value x
  refine ite_ind (Q := HeldR b0 F) (fun _ => ?_) (fun _ => ?_)
  · exact heldR_next (held_promote (dj hF) ‹_›)
  · exact heldR_next ‹_›
theorem held_execSweepDue {n berth s} (hF : Dj F 0x1000f401a007ab) (hs : Held b0 F s) : HeldR b0 F (execSweepDue n berth s) := by
  unfold execSweepDue
  refine ite_ind (Q := HeldR b0 F) (fun _ => ?_) (fun _ => ?_)
  · exact heldR_next (held_sweepsGo (dj hF) (held_mk_xng (dj hF) ‹_›))
  · exact heldR_next ‹_›

end Sys2Proof.Machine
end

