-- ==== Sys2Proof/Laws/KeptEst.lean ====
section
/-!
SUPPORT. The operations of Machine/Est.lean change only the parts that their masks name (Laws/Held.lean).
-/
namespace Sys2Proof.Machine
open Sys2Proof
set_option Elab.async false

variable {b0 : State} {F : Nat}

theorem off_pipeFld {i} (hF : Dj F 0x4000000000) : Off F (pipeFld i) := by
  unfold pipeFld
  split <;> exact off_at 6 hF rfl
theorem held_execCheckpoint {q s} (hF : Dj F 0x4000800229) (hs : Held b0 F s) : HeldR b0 F (execCheckpoint q s) := by
  unfold execCheckpoint
  refine held_onCmd (dj hF) ?_ ?_
  · assumption
  · intro c s hs
    refine ite_ind (Q := Held b0 F) (fun _ => ?_) (fun _ => ?_)
    · exact held_startCkpt (dj hF) ‹_›
    · exact held_complete (dj hF) ‹_›
theorem held_execRestComplete {i s} (hF : Dj F 0x200) (hs : Held b0 F s) : HeldR b0 F (execRestComplete i s) := by
  unfold execRestComplete
  refine ite_ind (Q := HeldR b0 F) (fun _ => ?_) (fun _ => ?_)
  · exact heldR_next (held_modEst (dj hF) ‹_›)
  · exact heldR_next ‹_›
theorem held_formPairs {s} (hF : Dj F 0x4000000001) (hs : Held b0 F s) : Held b0 F (State.formPairs s) := by
  unfold State.formPairs
  extract_lets -merge -underBinder +onlyGivenNames g
  try clear_value g
  extract_lets -merge -underBinder +onlyGivenNames s
  have hs : Held b0 F s := by
    unfold s
    refine foldl_ind (Q := Held b0 F) (fun s _ hs => ?_) ?_
    · exact held_wr (dj hF) ‹_› (off_pipeFld (dj hF))
    · assumption
  try clear_value s
  exact held_wr (dj hF) ‹_› (off_EST_STATUS_PAIRS (dj hF))
theorem held_execStringFigures {q s} (hF : Dj F 0x800028) (hs : Held b0 F s) : HeldR b0 F (execStringFigures q s) := by
  unfold execStringFigures
  refine held_onCmd (dj hF) ?_ ?_
  · assumption
  · intro c s hs
    extract_lets -merge -underBinder +onlyGivenNames i
    try clear_value i
    split
    · exact held_complete (dj hF) ‹_›
    · split
      · exact held_complete (dj hF) ‹_›
      · exact held_complete (dj hF) ‹_›
theorem held_noPair {s} (hF : Dj F 0x1000500020000b) (hs : Held b0 F s) : Held b0 F (State.noPair s) := by
  unfold State.noPair
  extract_lets -merge -underBinder +onlyGivenNames s
  have hs : Held b0 F s := held_wrB (dj hF) (held_wrB (dj hF) (held_wrB (dj hF) ‹_› (off_EST_STATUS_NO_CHECKED_PAIR (dj hF))) (off_EST_STATUS_ROLLUP_STALE (dj hF))) (off_EST_STATUS_RUNNING (dj hF))
  try clear_value s
  exact held_flag (dj hF) (held_raise (dj hF) ‹_›) (off_EST_EVENT_STATUS_NO_CHECKED_PAIR (dj hF))
theorem held_execResetLearned {q s} (hF : Dj F 0x800228) (hs : Held b0 F s) : HeldR b0 F (execResetLearned q s) := by
  unfold execResetLearned
  refine held_onCmd (dj hF) ?_ ?_
  · assumption
  · intro c s hs
    extract_lets -merge -underBinder +onlyGivenNames i
    try clear_value i
    refine ite_ind (Q := Held b0 F) (fun _ => ?_) (fun _ => ?_)
    · exact held_complete (dj hF) (held_modEst (dj hF) ‹_›)
    · exact held_complete (dj hF) ‹_›
theorem held_execCheckpointRetry {s} (hF : Dj F 0x4000000201) (hs : Held b0 F s) : HeldR b0 F (execCheckpointRetry s) := by
  unfold execCheckpointRetry
  split
  · exact heldR_next ‹_›
  · exact heldR_next (held_ckptFor (dj hF) (held_mk_est (dj hF) ‹_›))
theorem held_execClearShort {q s} (hF : Dj F 0x800228) (hs : Held b0 F s) : HeldR b0 F (execClearShort q s) := by
  unfold execClearShort
  refine held_onCmd (dj hF) ?_ ?_
  · assumption
  · intro c s hs
    extract_lets -merge -underBinder +onlyGivenNames k
    try clear_value k
    refine ite_ind (Q := Held b0 F) (fun _ => ?_) (fun _ => ?_)
    · exact held_complete (dj hF) (held_modEst (dj hF) ‹_›)
    · exact held_complete (dj hF) ‹_›
theorem held_nextCkpt {s} (hF : Dj F 0x4000000201) (hs : Held b0 F s) : Held b0 F (State.nextCkpt s) := by
  unfold State.nextCkpt
  extract_lets -merge -underBinder +onlyGivenNames next
  try clear_value next
  exact held_wrB (dj hF) (held_mk_est (dj hF) ‹_›) (off_EST_STATUS_CKPT_RUNNING (dj hF))
theorem held_ckptDone {s ok cause qs} (hF : Dj F 0x10005000a0022b) (hs : Held b0 F s) : Held b0 F (State.ckptDone s ok cause qs) := by
  unfold State.ckptDone
  refine ite_ind (Q := Held b0 F) (fun _ => ?_) (fun _ => ?_)
  · extract_lets -merge -underBinder +onlyGivenNames at'
    try clear_value at'
    split
    rename_i s g heq
    have hs : Held b0 F s := held1_eq heq (by
      exact held_ckptWrite (dj hF) ‹_›
      )
    clear heq
    extract_lets -merge -underBinder +onlyGivenNames zz0 s
    have hs : Held b0 F s := by
      unfold s
      refine ite_ind (Q := Held b0 F) (fun _ => ?_) (fun _ => ?_)
      · exact held_mk_est (dj hF) ‹_›
      · assumption
    try clear_value s
    extract_lets -merge -underBinder +onlyGivenNames s
    have hs : Held b0 F s := held_flag (dj hF) (held_raise (dj hF) ‹_›) (off_EST_EVENT_STATUS_CHECKPOINT_WRITTEN (dj hF))
    try clear_value s
    refine held_nextCkpt (dj hF) ?_
    refine foldl_ind (Q := Held b0 F) (fun s _ hs => ?_) ?_
    · exact held_complete (dj hF) ‹_›
    · assumption
  · extract_lets -merge -underBinder +onlyGivenNames s
    have hs : Held b0 F s := held_flag (dj hF) (held_raise (dj hF) ‹_›) (off_EST_EVENT_STATUS_CHECKPOINT_FAILED (dj hF))
    try clear_value s
    refine held_nextCkpt (dj hF) ?_
    extract_lets -merge -underBinder +onlyGivenNames __src
    have h__src : Held b0 F __src := held_ckptSpoil (dj hF) ‹_›
    try clear_value __src
    exact held_mk_est (dj hF) ‹_›
theorem held_secondUpdates {s} (hF : Dj F 0x4000000201) (hs : Held b0 F s) : Held b0 F (State.secondUpdates s) := by
  unfold State.secondUpdates
  extract_lets -merge -underBinder +onlyGivenNames n
  try clear_value n
  extract_lets -merge -underBinder +onlyGivenNames cap
  try clear_value cap
  extract_lets -merge -underBinder +onlyGivenNames s
  have hs : Held b0 F s := held_wr (dj hF) (held_wr (dj hF) ‹_› (off_EST_UPDATE_RATE (dj hF))) (off_EST_LOAD (dj hF))
  try clear_value s
  exact held_mk_est (dj hF) ‹_›
theorem held_underTables {f : State → State} {s tables} (hF : Dj F 0x10) (hs : Held b0 F s) (hf : ∀ y0, Held b0 F y0 → Held b0 F (f y0)) : Held b0 F (State.underTables s tables f) := by
  unfold State.underTables
  split
  · refine hf _ ?_
    · assumption
  · extract_lets -merge -underBinder +onlyGivenNames zz0 __src
    have h__src : Held b0 F __src := by
      unfold __src
      refine hf _ ?_
      · exact held_mk_man (dj hF) ‹_›
    try clear_value __src
    exact held_mk_man (dj hF) ‹_›
theorem held_beforeSweep {s i t} (hF : Dj F 0x1000500020020b) (hs : Held b0 F s) : Held b0 F (State.beforeSweep s i t) := by
  unfold State.beforeSweep
  extract_lets -merge -underBinder +onlyGivenNames x
  try clear_value x
  extract_lets -merge -underBinder +onlyGivenNames s
  have hs : Held b0 F s := held_setEst (dj hF) ‹_›
  try clear_value s
  extract_lets -merge -underBinder +onlyGivenNames s
  have hs : Held b0 F s := by
    unfold s
    refine ite_ind (Q := Held b0 F) (fun _ => ?_) (fun _ => ?_)
    · assumption
    · exact held_restoreApplied (dj hF) ‹_›
  try clear_value s
  extract_lets -merge -underBinder +onlyGivenNames s
  have hs : Held b0 F s := by
    unfold s
    refine ite_ind (Q := Held b0 F) (fun _ => ?_) (fun _ => ?_)
    · exact held_toDefaults (dj hF) ‹_›
    · assumption
  try clear_value s
  extract_lets -merge -underBinder +onlyGivenNames s
  have hs : Held b0 F s := by
    unfold s
    refine ite_ind (Q := Held b0 F) (fun _ => ?_) (fun _ => ?_)
    · exact held_toRest (dj hF) ‹_›
    · assumption
  try clear_value s
  exact held_modEst (dj hF) ‹_›
theorem held_execCheckpointDone {ok s} (hF : Dj F 0x10005000a0022b) (hs : Held b0 F s) : HeldR b0 F (execCheckpointDone ok s) := by
  unfold execCheckpointDone
  split
  · refine ite_ind (Q := HeldR b0 F) (fun _ => ?_) (fun _ => ?_)
    · exact heldR_next (held_ckptDone (dj hF) ‹_›)
    · exact heldR_next ‹_›
  · exact heldR_next ‹_›
theorem held_countMismatch {s three wrong redo retryFails} (hF : Dj F 0x4000000001) (hs : Held b0 F s) : Held b0 F (State.countMismatch s three wrong redo retryFails) := by
  unfold State.countMismatch
  refine ite_ind (Q := Held b0 F) (fun _ => ?_) (fun _ => ?_)
  · refine ite_ind (Q := Held b0 F) (fun _ => ?_) (fun _ => ?_)
    · assumption
    · exact held_incBy (dj hF) (held_inc (dj hF) ‹_› (off_EST_MISMATCHES (dj hF))) (off_EST_RECOMPUTED (dj hF))
  · refine ite_ind (Q := Held b0 F) (fun _ => ?_) (fun _ => ?_)
    · exact held_incBy (dj hF) ‹_› (off_EST_MISMATCHES (dj hF))
    · refine ite_ind (Q := Held b0 F) (fun _ => ?_) (fun _ => ?_)
      · assumption
      · exact held_inc (dj hF) ‹_› (off_EST_MISMATCHES (dj hF))
theorem held_execEstClearCounters {sess key s} (hF : Dj F 0x4000000001) (hs : Held b0 F s) : HeldR b0 F (execEstClearCounters sess key s) := by
  unfold execEstClearCounters
  exact ite_ind (Q := HeldR b0 F) (fun _ => heldR_next (held_clearAt 6 (dj hF) (dj hF) (by decide) (by decide) hs)) (fun _ => heldR_next hs)
theorem held_convergeStep {s i t} (hF : Dj F 0x1000100020020b) (hs : Held b0 F s) : Held b0 F (State.convergeStep s i t) := by
  unfold State.convergeStep
  extract_lets -merge -underBinder +onlyGivenNames x
  try clear_value x
  refine ite_ind (Q := Held b0 F) (fun _ => ?_) (fun _ => ?_)
  · exact held_raise (dj hF) (held_setEst (dj hF) ‹_›)
  · assumption
theorem held_anchorStr {s i kind t is now} (hF : Dj F 0x1000500020020b) (hs : Held b0 F s) : Held b0 F (State.anchorStr s i kind t is now) := by
  unfold State.anchorStr
  extract_lets -merge -underBinder +onlyGivenNames x
  try clear_value x
  extract_lets -merge -underBinder +onlyGivenNames done
  try clear_value done
  extract_lets -merge -underBinder +onlyGivenNames other
  try clear_value other
  extract_lets -merge -underBinder +onlyGivenNames dt
  try clear_value dt
  extract_lets -merge -underBinder +onlyGivenNames learn
  try clear_value learn
  extract_lets -merge -underBinder +onlyGivenNames s
  have hs : Held b0 F s := held_setEst (dj hF) ‹_›
  try clear_value s
  extract_lets -merge -underBinder +onlyGivenNames outs
  try clear_value outs
  extract_lets -merge -underBinder +onlyGivenNames s
  have hs : Held b0 F s := by
    unfold s
    refine foldl_ind (Q := Held b0 F) (fun s _ hs => ?_) ?_
    · exact held_raise (dj hF) ‹_›
    · assumption
  try clear_value s
  extract_lets -merge -underBinder +onlyGivenNames made
  try clear_value made
  exact held_startCkpt (dj hF) (held_raise (dj hF) (held_inc (dj hF) ‹_› (off_EST_ANCHORS (dj hF))))
theorem held_offsetStep {s i t is now} (hF : Dj F 0x200) (hs : Held b0 F s) : Held b0 F (State.offsetStep s i t is now) := by
  unfold State.offsetStep
  extract_lets -merge -underBinder +onlyGivenNames x
  try clear_value x
  split
  · exact held_setEst (dj hF) ‹_›
  · refine ite_ind (Q := Held b0 F) (fun _ => ?_) (fun _ => ?_)
    · refine ite_ind (Q := Held b0 F) (fun _ => ?_) (fun _ => ?_)
      · extract_lets -merge -underBinder +onlyGivenNames r
        try clear_value r
        exact held_setEst (dj hF) ‹_›
      · exact held_setEst (dj hF) ‹_›
    · assumption
theorem held_abortRestore {s} (hF : Dj F 0x4000000201) (hs : Held b0 F s) : Held b0 F (State.abortRestore s) := by
  unfold State.abortRestore
  split
  · assumption
  · extract_lets -merge -underBinder +onlyGivenNames zz0 s
    have hs : Held b0 F s := held_mk_est (dj hF) ‹_›
    try clear_value s
    exact held_wrB (dj hF) (held_wr (dj hF) (held_wrB (dj hF) ‹_› (off_EST_RESTORE_STATUS_STAGED (dj hF))) (off_EST_RESTORE_STATUS_RESULT (dj hF))) (off_EST_STATUS_RESTORE_RUNNING (dj hF))
theorem held_countUpdates {s} (hF : Dj F 0x4000000201) (hs : Held b0 F s) : Held b0 F (State.countUpdates s) := by
  unfold State.countUpdates
  extract_lets -merge -underBinder +onlyGivenNames s
  have hs : Held b0 F s := held_wr64 (dj hF) ‹_› (off_EST_UPDATES_LO (dj hF))
  try clear_value s
  exact held_mk_est (dj hF) ‹_›
theorem held_publish {s} (hF : Dj F 0x4000000201) (hs : Held b0 F s) : Held b0 F (State.publish s) := by
  unfold State.publish
  extract_lets -merge -underBinder +onlyGivenNames zz0 s
  have hs : Held b0 F s := by
    unfold s
    refine ite_ind (Q := Held b0 F) (fun _ => ?_) (fun _ => ?_)
    · assumption
    · exact held_showRoll (dj hF) (held_mk_est (dj hF) ‹_›)
  try clear_value s
  exact held_wr64 (dj hF) (held_inc (dj hF) ‹_› (off_EST_ROLLUP_SEQ (dj hF))) (off_EST_ROLLUP_TICK_LO (dj hF))
theorem held_execRollupPublish {s} (hF : Dj F 0x4000000201) (hs : Held b0 F s) : HeldR b0 F (execRollupPublish s) := by
  unfold execRollupPublish
  refine ite_ind (Q := HeldR b0 F) (fun _ => ?_) (fun _ => ?_)
  · exact heldR_next (held_publish (dj hF) ‹_›)
  · exact heldR_next ‹_›
theorem held_execCheckpointInterval {s} (hF : Dj F 0x4000000201) (hs : Held b0 F s) : HeldR b0 F (execCheckpointInterval s) := by
  unfold execCheckpointInterval
  refine ite_ind (Q := HeldR b0 F) (fun _ => ?_) (fun _ => ?_)
  · exact heldR_next (held_startCkpt (dj hF) ‹_›)
  · exact heldR_next ‹_›
theorem held_floatStep {s i t is now} (hF : Dj F 0x1000d000a0062b) (hs : Held b0 F s) : Held b0 F (State.floatStep s i t is now) := by
  unfold State.floatStep
  extract_lets -merge -underBinder +onlyGivenNames x
  try clear_value x
  extract_lets -merge -underBinder +onlyGivenNames inBand
  try clear_value inBand
  extract_lets -merge -underBinder +onlyGivenNames fresh
  try clear_value fresh
  split
  · exact held_setEst (dj hF) ‹_›
  · exact held_setEst (dj hF) ‹_›
  · refine ite_ind (Q := Held b0 F) (fun _ => ?_) (fun _ => ?_)
    · refine ite_ind (Q := Held b0 F) (fun _ => ?_) (fun _ => ?_)
      · extract_lets -merge -underBinder +onlyGivenNames was
        try clear_value was
        split
        · extract_lets -merge -underBinder +onlyGivenNames s
          have hs : Held b0 F s := held_setEst (dj hF) ‹_›
          try clear_value s
          refine foldl_ind (Q := Held b0 F) (fun s _ hs => ?_) ?_
          · extract_lets -merge -underBinder +onlyGivenNames idx
            try clear_value idx
            extract_lets -merge -underBinder +onlyGivenNames s
            have hs : Held b0 F s := held_flag (dj hF) (held_raise (dj hF) ‹_›) (off_EST_EVENT_STATUS_SHORT_SUSPECT (dj hF))
            try clear_value s
            refine ite_ind (Q := Held b0 F) (fun _ => ?_) (fun _ => ?_)
            · exact held_shortTrip (dj hF) ‹_›
            · assumption
          · assumption
      · exact held_setEst (dj hF) ‹_›
    · assumption
theorem held_execFreezeExpiry {i s} (hF : Dj F 0x200) (hs : Held b0 F s) : HeldR b0 F (execFreezeExpiry i s) := by
  unfold execFreezeExpiry
  extract_lets -merge -underBinder +onlyGivenNames days
  try clear_value days
  split
  · refine ite_ind (Q := HeldR b0 F) (fun _ => ?_) (fun _ => ?_)
    · exact heldR_next (held_modEst (dj hF) (held_toDefaults (dj hF) ‹_›))
    · exact heldR_next ‹_›
  · exact heldR_next ‹_›
theorem held_anchorStep {s i t is now} (hF : Dj F 0x1000500020020b) (hs : Held b0 F s) : Held b0 F (State.anchorStep s i t is now) := by
  unfold State.anchorStep
  extract_lets -merge -underBinder +onlyGivenNames x
  try clear_value x
  extract_lets -merge -underBinder +onlyGivenNames vs
  try clear_value vs
  extract_lets -merge -underBinder +onlyGivenNames taper
  try clear_value taper
  extract_lets -merge -underBinder +onlyGivenNames okC
  try clear_value okC
  extract_lets -merge -underBinder +onlyGivenNames okD
  try clear_value okD
  split
  · split
    · extract_lets -merge -underBinder +onlyGivenNames s
      have hs : Held b0 F s := held_setEst (dj hF) ‹_›
      try clear_value s
      extract_lets -merge -underBinder +onlyGivenNames s
      have hs : Held b0 F s := by
        unfold s
        refine ite_ind (Q := Held b0 F) (fun _ => ?_) (fun _ => ?_)
        · exact held_anchorStr (dj hF) ‹_›
        · assumption
      try clear_value s
      refine ite_ind (Q := Held b0 F) (fun _ => ?_) (fun _ => ?_)
      · exact held_anchorStr (dj hF) ‹_›
      · assumption
theorem held_execReinitialise {q s} (hF : Dj F 0x800228) (hs : Held b0 F s) : HeldR b0 F (execReinitialise q s) := by
  unfold execReinitialise
  refine held_onCmd (dj hF) ?_ ?_
  · assumption
  · intro c s hs
    extract_lets -merge -underBinder +onlyGivenNames i
    try clear_value i
    refine ite_ind (Q := Held b0 F) (fun _ => ?_) (fun _ => ?_)
    · exact held_complete (dj hF) (held_modEst (dj hF) ‹_›)
    · exact held_complete (dj hF) ‹_›
theorem held_retirePipe {s p} (hF : Dj F 0x1000500020000b) (hs : Held b0 F s) : Held b0 F (State.retirePipe s p) := by
  unfold State.retirePipe
  extract_lets -merge -underBinder +onlyGivenNames s
  have hs : Held b0 F s := held_formPairs (dj hF) (held_wr (dj hF) ‹_› (off_pipeFld (dj hF)))
  try clear_value s
  extract_lets -merge -underBinder +onlyGivenNames s
  have hs : Held b0 F s := held_flag (dj hF) (held_raise (dj hF) ‹_›) (off_EST_EVENT_STATUS_PIPELINE_RETIRED (dj hF))
  try clear_value s
  refine ite_ind (Q := Held b0 F) (fun _ => ?_) (fun _ => ?_)
  · exact held_noPair (dj hF) ‹_›
  · assumption
theorem held_execAbortRestore {sess key s} (hF : Dj F 0x4000000201) (hs : Held b0 F s) : HeldR b0 F (execAbortRestore sess key s) := by
  unfold execAbortRestore
  refine ite_ind (Q := HeldR b0 F) (fun _ => ?_) (fun _ => ?_)
  · exact heldR_next (held_abortRestore (dj hF) ‹_›)
  · exact heldR_next ‹_›
theorem held_discardSweep {s w} (hF : Dj F 0x1000700020030b) (hs : Held b0 F s) : Held b0 F (State.discardSweep s w) := by
  unfold State.discardSweep
  extract_lets -merge -underBinder +onlyGivenNames recent
  try clear_value recent
  extract_lets -merge -underBinder +onlyGivenNames zz0 s
  have hs : Held b0 F s := held_mk_est (dj hF) ‹_›
  try clear_value s
  extract_lets -merge -underBinder +onlyGivenNames s
  have hs : Held b0 F s := held_inc (dj hF) (held_inc (dj hF) ‹_› (off_EST_SKIPPED (dj hF))) (off_XNG_SWEEPS_MISSED (dj hF))
  try clear_value s
  extract_lets -merge -underBinder +onlyGivenNames s
  have hs : Held b0 F s := held_modNode (dj hF) ‹_›
  try clear_value s
  refine ite_ind (Q := Held b0 F) (fun _ => ?_) (fun _ => ?_)
  · refine foldl_ind (Q := Held b0 F) (fun _ _ hs => ?_) ?_
    · exact held_retirePipe (dj hF) ‹_›
    · assumption
  · assumption
theorem held_chargePipe {s p} (hF : Dj F 0x1000500020020b) (hs : Held b0 F s) : Held b0 F (State.chargePipe s p) := by
  unfold State.chargePipe
  extract_lets -merge -underBinder +onlyGivenNames l
  try clear_value l
  extract_lets -merge -underBinder +onlyGivenNames l
  try clear_value l
  extract_lets -merge -underBinder +onlyGivenNames zz0 s
  have hs : Held b0 F s := held_incSat (dj hF) (held_mk_est (dj hF) ‹_›) (off_EST_PIPE_STATUS_FAULTS (dj hF))
  try clear_value s
  refine ite_ind (Q := Held b0 F) (fun _ => ?_) (fun _ => ?_)
  · exact held_retirePipe (dj hF) ‹_›
  · assumption
theorem held_applySweep {s i t w redo} (hF : Dj F 0x1000f401a007ab) (hs : Held b0 F s) : Held b0 F (State.applySweep s i t w redo) := by
  unfold State.applySweep
  extract_lets -merge -underBinder +onlyGivenNames s
  have hs : Held b0 F s := held_beforeSweep (dj hF) ‹_›
  try clear_value s
  extract_lets -merge -underBinder +onlyGivenNames node
  try clear_value node
  extract_lets -merge -underBinder +onlyGivenNames period
  try clear_value period
  extract_lets -merge -underBinder +onlyGivenNames is
  try clear_value is
  split
  rename_i spare s heq
  have hs : Held b0 F s := held2_eq heq (by
    refine ite_ind (Q := Held2 b0 F) (fun _ => ?_) (fun _ => ?_)
    · exact held2_mk ‹_›
    · exact held_drawReal (dj hF) ‹_›
    )
  clear heq
  extract_lets -merge -underBinder +onlyGivenNames x
  try clear_value x
  extract_lets -merge -underBinder +onlyGivenNames stepped
  try clear_value stepped
  extract_lets -merge -underBinder +onlyGivenNames dt
  try clear_value dt
  extract_lets -merge -underBinder +onlyGivenNames gap
  try clear_value gap
  extract_lets -merge -underBinder +onlyGivenNames resume
  try clear_value resume
  extract_lets -merge -underBinder +onlyGivenNames zs
  try clear_value zs
  extract_lets -merge -underBinder +onlyGivenNames ini
  try clear_value ini
  extract_lets -merge -underBinder +onlyGivenNames left
  try clear_value left
  extract_lets -merge -underBinder +onlyGivenNames outs
  try clear_value outs
  extract_lets -merge -underBinder +onlyGivenNames isv
  try clear_value isv
  extract_lets -merge -underBinder +onlyGivenNames nOut
  try clear_value nOut
  extract_lets -merge -underBinder +onlyGivenNames nRes
  try clear_value nRes
  extract_lets -merge -underBinder +onlyGivenNames s
  have hs : Held b0 F s := held_incBy (dj hF) (held_incBy (dj hF) ‹_› (off_EST_OUTLIERS (dj hF))) (off_EST_RESETS (dj hF))
  try clear_value s
  extract_lets -merge -underBinder +onlyGivenNames bal
  try clear_value bal
  extract_lets -merge -underBinder +onlyGivenNames s
  have hs : Held b0 F s := by
    unfold s
    refine ite_ind (Q := Held b0 F) (fun _ => ?_) (fun _ => ?_)
    · assumption
    · exact held_wrR (dj hF) ‹_› (off_PLT_BALANCE_AH (dj hF))
  try clear_value s
  extract_lets -merge -underBinder +onlyGivenNames prev
  try clear_value prev
  extract_lets -merge -underBinder +onlyGivenNames s
  have hs : Held b0 F s := held_setEst (dj hF) ‹_›
  try clear_value s
  extract_lets -merge -underBinder +onlyGivenNames s
  have hs : Held b0 F s := held_anchorStep (dj hF) ‹_›
  try clear_value s
  extract_lets -merge -underBinder +onlyGivenNames zz0 zz1 s
  have hs : Held b0 F s := by
    unfold s
    refine ite_ind (Q := Held b0 F) (fun _ => ?_) (fun _ => ?_)
    · exact held_setEst (dj hF) ‹_›
    · assumption
  try clear_value s
  extract_lets -merge -underBinder +onlyGivenNames s
  have hs : Held b0 F s := held_floatStep (dj hF) (held_offsetStep (dj hF) ‹_›)
  try clear_value s
  extract_lets -merge -underBinder +onlyGivenNames s
  have hs : Held b0 F s := held_convergeStep (dj hF) ‹_›
  try clear_value s
  extract_lets -merge -underBinder +onlyGivenNames y
  try clear_value y
  extract_lets -merge -underBinder +onlyGivenNames s
  have hs : Held b0 F s := held_setEst (dj hF) ‹_›
  try clear_value s
  extract_lets -merge -underBinder +onlyGivenNames s
  have hs : Held b0 F s := held_countUpdates (dj hF) ‹_›
  try clear_value s
  extract_lets -merge -underBinder +onlyGivenNames s
  have hs : Held b0 F s := held_wr64 (dj hF) ‹_› (off_XNG_SWEEPS_LO (dj hF))
  try clear_value s
  extract_lets -merge -underBinder +onlyGivenNames s
  have hs : Held b0 F s := held_modNode (dj hF) ‹_›
  try clear_value s
  exact held_settled (dj hF) (held_balanceCheck (dj hF) (held_judge (dj hF) ‹_›))
theorem held_sweepApply {s wrong redo retryFails} (hF : Dj F 0x1000f401a007bb) (hs : Held b0 F s) : Held b0 F (State.sweepApply s wrong redo retryFails) := by
  unfold State.sweepApply
  split
  · assumption
  · extract_lets -merge -underBinder +onlyGivenNames good
    try clear_value good
    extract_lets -merge -underBinder +onlyGivenNames three
    try clear_value three
    extract_lets -merge -underBinder +onlyGivenNames wrong
    try clear_value wrong
    extract_lets -merge -underBinder +onlyGivenNames redo
    try clear_value redo
    extract_lets -merge -underBinder +onlyGivenNames s
    have hs : Held b0 F s := held_countMismatch (dj hF) (held_mk_est (dj hF) ‹_›)
    try clear_value s
    extract_lets -merge -underBinder +onlyGivenNames s
    have hs : Held b0 F s := by
      unfold s
      refine ite_ind (Q := Held b0 F) (fun _ => ?_) (fun _ => ?_)
      · refine foldl_ind (Q := Held b0 F) (fun _ _ hs => ?_) ?_
        · exact held_chargePipe (dj hF) ‹_›
        · assumption
      · assumption
    try clear_value s
    refine ite_ind (Q := Held b0 F) (fun _ => ?_) (fun _ => ?_)
    · exact held_discardSweep (dj hF) ‹_›
    · refine held_underTables (dj hF) ?_ ?_
      · assumption
      · intro s hs
        split
        · assumption
        · split
          · assumption
          · extract_lets -merge -underBinder +onlyGivenNames zz0 s
            have hs : Held b0 F s := held_mk_est (dj hF) ‹_›
            try clear_value s
            exact held_applySweep (dj hF) ‹_›
theorem held_execSweepApply {wrong redo retryFails s} (hF : Dj F 0x1000f401a007bb) (hs : Held b0 F s) : HeldR b0 F (execSweepApply wrong redo retryFails s) := by
  unfold execSweepApply
  refine ite_ind (Q := HeldR b0 F) (fun _ => ?_) (fun _ => ?_)
  · exact heldR_next (held_sweepApply (dj hF) ‹_›)
  · exact heldR_next ‹_›

end Sys2Proof.Machine
end

