-- ==== Sys2Proof/Laws/KeptPlt.lean ====
section
/-!
SUPPORT. The operations of Machine/Plt.lean change only the parts that their masks name (Laws/Held.lean).
-/
namespace Sys2Proof.Machine
open Sys2Proof
set_option Elab.async false

variable {b0 : State} {F : Nat}

theorem held_balanceStr {s i} (hF : Dj F 0x3000a00509) (hs : Held b0 F s) : Held b0 F (State.balanceStr s i) := by
  unfold State.balanceStr
  split
  · assumption
  · refine ite_ind (Q := Held b0 F) (fun _ => ?_) (fun _ => ?_)
    · extract_lets -merge -underBinder +onlyGivenNames e
      try clear_value e
      extract_lets -merge -underBinder +onlyGivenNames m
      try clear_value m
      refine ite_ind (Q := Held b0 F) (fun _ => ?_) (fun _ => ?_)
      · exact held_stopBalance (dj hF) ‹_›
      · exact held_sendBalance (dj hF) (held_modPstr (dj hF) ‹_›)
    · exact held_stopBalance (dj hF) ‹_›
theorem held_execStringCloseStart {i s} (hF : Dj F 0x1000f401a007ab) (hs : Held b0 F s) : HeldR b0 F (execStringCloseStart i s) := by
  unfold execStringCloseStart
  exact heldR_next (held_settled (dj hF) (held_tryClose (dj hF) ‹_›))
theorem held_execBranchCurrentRead {c s} (hF : Dj F 0x1000f401a007ab) (hs : Held b0 F s) : HeldR b0 F (execBranchCurrentRead c s) := by
  unfold execBranchCurrentRead
  refine ite_ind (Q := HeldR b0 F) (fun _ => ?_) (fun _ => ?_)
  · exact heldR_next (held_settled (dj hF) (held_request (dj hF) ‹_›))
  · exact heldR_next ‹_›
theorem held_execContainerClosingTimeout {c s} (hF : Dj F 0x10009000a0042b) (hs : Held b0 F s) : HeldR b0 F (execContainerClosingTimeout c s) := by
  unfold execContainerClosingTimeout
  refine ite_ind (Q := HeldR b0 F) (fun _ => ?_) (fun _ => ?_)
  · exact heldR_next (held_tripCon (dj hF) ‹_›)
  · exact heldR_next ‹_›
theorem held_stringOpen {q c s} (hF : Dj F 0x1000f401a007ab) (hs : Held b0 F s) : Held b0 F (State.stringOpen q c s) := by
  unfold State.stringOpen
  extract_lets -merge -underBinder +onlyGivenNames i
  try clear_value i
  refine ite_ind (Q := Held b0 F) (fun _ => ?_) (fun _ => ?_)
  · exact held_complete (dj hF) ‹_›
  · refine ite_ind (Q := Held b0 F) (fun _ => ?_) (fun _ => ?_)
    · exact held_complete (dj hF) ‹_›
    · extract_lets -merge -underBinder +onlyGivenNames s
      have hs : Held b0 F s := held_setIntent (dj hF) ‹_›
      try clear_value s
      extract_lets -merge -underBinder +onlyGivenNames x
      try clear_value x
      extract_lets -merge -underBinder +onlyGivenNames s
      have hs : Held b0 F s := held_completeOpt (dj hF) ‹_›
      try clear_value s
      extract_lets -merge -underBinder +onlyGivenNames live
      try clear_value live
      refine ite_ind (Q := Held b0 F) (fun _ => ?_) (fun _ => ?_)
      · exact held_modPstr (dj hF) ‹_›
      · refine ite_ind (Q := Held b0 F) (fun _ => ?_) (fun _ => ?_)
        · exact held_settled (dj hF) (held_cancelClose (dj hF) (held_modPstr (dj hF) ‹_›))
        · refine ite_ind (Q := Held b0 F) (fun _ => ?_) (fun _ => ?_)
          · exact held_modPstr (dj hF) ‹_›
          · refine ite_ind (Q := Held b0 F) (fun _ => ?_) (fun _ => ?_)
            · exact held_settled (dj hF) (held_startOpen (dj hF) (held_modPstr (dj hF) (held_endClose (dj hF) ‹_›)))
            · exact held_complete (dj hF) (held_endClose (dj hF) ‹_›)
theorem held_execThermalFaultBlockEnd {c s} (hF : Dj F 0x400) (hs : Held b0 F s) : HeldR b0 F (execThermalFaultBlockEnd c s) := by
  unfold execThermalFaultBlockEnd
  refine ite_ind (Q := HeldR b0 F) (fun _ => ?_) (fun _ => ?_)
  · exact heldR_next ‹_›
  · exact heldR_next (held_modPcon (dj hF) ‹_›)
theorem held_execContainerStatusRead {c s} (hF : Dj F 0x1000f401a007ab) (hs : Held b0 F s) : HeldR b0 F (execContainerStatusRead c s) := by
  unfold execContainerStatusRead
  refine ite_ind (Q := HeldR b0 F) (fun _ => ?_) (fun _ => ?_)
  · exact heldR_next (held_settled (dj hF) (held_request (dj hF) ‹_›))
  · exact heldR_next ‹_›
theorem held_readCurrent {s c} (hF : Dj F 0x3000a00509) (hs : Held b0 F s) : Held b0 F (State.readCurrent s c) := by
  unfold State.readCurrent
  refine ite_ind (Q := Held b0 F) (fun _ => ?_) (fun _ => ?_)
  · exact held_sendConOpen (dj hF) ‹_›
  · exact held_request (dj hF) ‹_›
theorem held_execBalanceCycle {s} (hF : Dj F 0x1000f401a007ab) (hs : Held b0 F s) : HeldR b0 F (execBalanceCycle s) := by
  unfold execBalanceCycle
  refine ite_ind (Q := HeldR b0 F) (fun _ => ?_) (fun _ => ?_)
  · refine heldR_next ?_
    refine held_settled (dj hF) ?_
    refine foldl_ind (Q := Held b0 F) (fun _ _ hs => ?_) ?_
    · exact held_balanceStr (dj hF) ‹_›
    · assumption
  · exact heldR_next ‹_›
theorem held_containerOpen {q c s} (hF : Dj F 0x1000f401a007ab) (hs : Held b0 F s) : Held b0 F (State.containerOpen q c s) := by
  unfold State.containerOpen
  extract_lets -merge -underBinder +onlyGivenNames k
  try clear_value k
  extract_lets -merge -underBinder +onlyGivenNames strs
  try clear_value strs
  refine ite_ind (Q := Held b0 F) (fun _ => ?_) (fun _ => ?_)
  · exact held_complete (dj hF) ‹_›
  · refine ite_ind (Q := Held b0 F) (fun _ => ?_) (fun _ => ?_)
    · exact held_complete (dj hF) ‹_›
    · extract_lets -merge -underBinder +onlyGivenNames s
      have hs : Held b0 F s := held_setIntentCon (dj hF) ‹_›
      try clear_value s
      extract_lets -merge -underBinder +onlyGivenNames x
      try clear_value x
      extract_lets -merge -underBinder +onlyGivenNames s
      have hs : Held b0 F s := held_completeOpt (dj hF) ‹_›
      try clear_value s
      extract_lets -merge -underBinder +onlyGivenNames s
      have hs : Held b0 F s := held_completeOpt (dj hF) ‹_›
      try clear_value s
      extract_lets -merge -underBinder +onlyGivenNames s
      have hs : Held b0 F s := held_modPcon (dj hF) ‹_›
      try clear_value s
      refine ite_ind (Q := Held b0 F) (fun _ => ?_) (fun _ => ?_)
      · exact held_conGone (dj hF) ‹_›
      · refine ite_ind (Q := Held b0 F) (fun _ => ?_) (fun _ => ?_)
        · exact held_complete (dj hF) (held_modPcon (dj hF) ‹_›)
        · refine ite_ind (Q := Held b0 F) (fun _ => ?_) (fun _ => ?_)
          · exact held_startOpenCon (dj hF) ‹_›
          · exact held_settled (dj hF) (held_openStrings (dj hF) ‹_›)
theorem held_execOrderlyOpenTimeout {i s} (hF : Dj F 0x1000f401a007ab) (hs : Held b0 F s) : HeldR b0 F (execOrderlyOpenTimeout i s) := by
  unfold execOrderlyOpenTimeout
  extract_lets -merge -underBinder +onlyGivenNames x
  try clear_value x
  refine ite_ind (Q := HeldR b0 F) (fun _ => ?_) (fun _ => ?_)
  · exact heldR_next (held_settled (dj hF) (held_sendStrOpen (dj hF) ‹_›))
  · exact heldR_next ‹_›
theorem held_execContainerOpen {q s} (hF : Dj F 0x1000f401a007ab) (hs : Held b0 F s) : HeldR b0 F (execContainerOpen q s) := by
  unfold execContainerOpen
  refine held_onCmd (dj hF) ?_ ?_
  · assumption
  · intro y0 y1 hy1
    exact held_containerOpen (dj hF) ‹_›
theorem held_closingLate {s i} (hF : Dj F 0x1000f401a007ab) (hs : Held b0 F s) : Held b0 F (State.closingLate s i) := by
  unfold State.closingLate
  extract_lets -merge -underBinder +onlyGivenNames q
  try clear_value q
  extract_lets -merge -underBinder +onlyGivenNames s
  have hs : Held b0 F s := held_modPstr (dj hF) ‹_›
  try clear_value s
  exact held_settled (dj hF) (held_completeOpt (dj hF) (held_tripStr (dj hF) ‹_›))
theorem held_stringClose {q c s} (hF : Dj F 0x1000f401a007ab) (hs : Held b0 F s) : Held b0 F (State.stringClose q c s) := by
  unfold State.stringClose
  extract_lets -merge -underBinder +onlyGivenNames i
  try clear_value i
  refine ite_ind (Q := Held b0 F) (fun _ => ?_) (fun _ => ?_)
  · exact held_complete (dj hF) ‹_›
  · extract_lets -merge -underBinder +onlyGivenNames s
    have hs : Held b0 F s := held_setIntent (dj hF) ‹_›
    try clear_value s
    extract_lets -merge -underBinder +onlyGivenNames x
    try clear_value x
    refine ite_ind (Q := Held b0 F) (fun _ => ?_) (fun _ => ?_)
    · exact held_complete (dj hF) ‹_›
    · refine ite_ind (Q := Held b0 F) (fun _ => ?_) (fun _ => ?_)
      · exact held_complete (dj hF) ‹_›
      · refine ite_ind (Q := Held b0 F) (fun _ => ?_) (fun _ => ?_)
        · exact held_complete (dj hF) ‹_›
        · refine ite_ind (Q := Held b0 F) (fun _ => ?_) (fun _ => ?_)
          · exact held_complete (dj hF) ‹_›
          · extract_lets -merge -underBinder +onlyGivenNames s
            have hs : Held b0 F s := held_wakeFor (dj hF) (held_completeOpt (dj hF) ‹_›)
            try clear_value s
            exact held_settled (dj hF) (held_tryClose (dj hF) (held_modPstr (dj hF) ‹_›))
theorem held_execPltProtClearCounters {sess key s} (hF : Dj F 0x8000000001) (hs : Held b0 F s) : HeldR b0 F (execPltProtClearCounters sess key s) := by
  unfold execPltProtClearCounters
  exact ite_ind (Q := HeldR b0 F) (fun _ => heldR_next (held_clearAt 7 (dj hF) (dj hF) (by decide) (by decide) hs)) (fun _ => heldR_next hs)
theorem held_containerClose {q c s} (hF : Dj F 0x1000f401a007ab) (hs : Held b0 F s) : Held b0 F (State.containerClose q c s) := by
  unfold State.containerClose
  extract_lets -merge -underBinder +onlyGivenNames k
  try clear_value k
  refine ite_ind (Q := Held b0 F) (fun _ => ?_) (fun _ => ?_)
  · exact held_complete (dj hF) ‹_›
  · extract_lets -merge -underBinder +onlyGivenNames s
    have hs : Held b0 F s := held_setIntentCon (dj hF) ‹_›
    try clear_value s
    extract_lets -merge -underBinder +onlyGivenNames x
    try clear_value x
    refine ite_ind (Q := Held b0 F) (fun _ => ?_) (fun _ => ?_)
    · exact held_complete (dj hF) ‹_›
    · refine ite_ind (Q := Held b0 F) (fun _ => ?_) (fun _ => ?_)
      · exact held_complete (dj hF) ‹_›
      · refine ite_ind (Q := Held b0 F) (fun _ => ?_) (fun _ => ?_)
        · exact held_complete (dj hF) ‹_›
        · extract_lets -merge -underBinder +onlyGivenNames s
          have hs : Held b0 F s := held_wakeFor (dj hF) (held_completeOpt (dj hF) ‹_›)
          try clear_value s
          exact held_settled (dj hF) (held_tryCloseCon (dj hF) (held_modPcon (dj hF) ‹_›))
theorem held_execContainerCurrentRead {c s} (hF : Dj F 0x1000f401a007ab) (hs : Held b0 F s) : HeldR b0 F (execContainerCurrentRead c s) := by
  unfold execContainerCurrentRead
  refine ite_ind (Q := HeldR b0 F) (fun _ => ?_) (fun _ => ?_)
  · exact heldR_next (held_settled (dj hF) (held_readCurrent (dj hF) ‹_›))
  · exact heldR_next ‹_›
theorem held_resetTrip {q c s} (hF : Dj F 0x10001000a0042b) (hs : Held b0 F s) : Held b0 F (State.resetTrip q c s) := by
  unfold State.resetTrip
  extract_lets -merge -underBinder +onlyGivenNames k
  try clear_value k
  refine ite_ind (Q := Held b0 F) (fun _ => ?_) (fun _ => ?_)
  · exact held_complete (dj hF) ‹_›
  · refine ite_ind (Q := Held b0 F) (fun _ => ?_) (fun _ => ?_)
    · extract_lets -merge -underBinder +onlyGivenNames i
      try clear_value i
      refine ite_ind (Q := Held b0 F) (fun _ => ?_) (fun _ => ?_)
      · extract_lets -merge -underBinder +onlyGivenNames s
        have hs : Held b0 F s := held_strTo (dj hF) ‹_›
        try clear_value s
        exact held_complete (dj hF) ‹_›
      · exact held_complete (dj hF) ‹_›
    · extract_lets -merge -underBinder +onlyGivenNames j
      try clear_value j
      refine ite_ind (Q := Held b0 F) (fun _ => ?_) (fun _ => ?_)
      · extract_lets -merge -underBinder +onlyGivenNames s
        have hs : Held b0 F s := held_conTo (dj hF) (held_modPcon (dj hF) ‹_›)
        try clear_value s
        exact held_complete (dj hF) ‹_›
      · exact held_complete (dj hF) ‹_›
theorem held_execStringClose {q s} (hF : Dj F 0x1000f401a007ab) (hs : Held b0 F s) : HeldR b0 F (execStringClose q s) := by
  unfold execStringClose
  refine held_onCmd (dj hF) ?_ ?_
  · assumption
  · intro y0 y1 hy1
    exact held_stringClose (dj hF) ‹_›
theorem held_thermalCon {s c} (hF : Dj F 0x3000a00509) (hs : Held b0 F s) : Held b0 F (State.thermalCon s c) := by
  unfold State.thermalCon
  extract_lets -merge -underBinder +onlyGivenNames temps
  try clear_value temps
  extract_lets -merge -underBinder +onlyGivenNames tn
  try clear_value tn
  extract_lets -merge -underBinder +onlyGivenNames hot
  try clear_value hot
  extract_lets -merge -underBinder +onlyGivenNames cold
  try clear_value cold
  extract_lets -merge -underBinder +onlyGivenNames sp
  try clear_value sp
  extract_lets -merge -underBinder +onlyGivenNames x
  try clear_value x
  extract_lets -merge -underBinder +onlyGivenNames mode
  try clear_value mode
  extract_lets -merge -underBinder +onlyGivenNames s
  have hs : Held b0 F s := held_setPcon (dj hF) ‹_›
  try clear_value s
  extract_lets -merge -underBinder +onlyGivenNames due
  try clear_value due
  extract_lets -merge -underBinder +onlyGivenNames hears
  try clear_value hears
  refine ite_ind (Q := Held b0 F) (fun _ => ?_) (fun _ => ?_)
  · extract_lets -merge -underBinder +onlyGivenNames s
    have hs : Held b0 F s := held_modPcon (dj hF) ‹_›
    try clear_value s
    exact held_request (dj hF) ‹_›
  · assumption
theorem held_execOvercurrentBlockExpiry {i charge s} (hF : Dj F 0x400) (hs : Held b0 F s) : HeldR b0 F (execOvercurrentBlockExpiry i charge s) := by
  unfold execOvercurrentBlockExpiry
  exact heldR_next (held_modPstr (dj hF) ‹_›)
theorem held_execStringOpen {q s} (hF : Dj F 0x1000f401a007ab) (hs : Held b0 F s) : HeldR b0 F (execStringOpen q s) := by
  unfold execStringOpen
  refine held_onCmd (dj hF) ?_ ?_
  · assumption
  · intro y0 y1 hy1
    exact held_stringOpen (dj hF) ‹_›
theorem held_execContainerClose {q s} (hF : Dj F 0x1000f401a007ab) (hs : Held b0 F s) : HeldR b0 F (execContainerClose q s) := by
  unfold execContainerClose
  refine held_onCmd (dj hF) ?_ ?_
  · assumption
  · intro y0 y1 hy1
    exact held_containerClose (dj hF) ‹_›
theorem held_execResetTrip {q s} (hF : Dj F 0x10001000a0042b) (hs : Held b0 F s) : HeldR b0 F (execResetTrip q s) := by
  unfold execResetTrip
  refine held_onCmd (dj hF) ?_ ?_
  · assumption
  · intro y0 y1 hy1
    exact held_resetTrip (dj hF) ‹_›
theorem held_thermalMode {q c s} (hF : Dj F 0x1000f401a007ab) (hs : Held b0 F s) : Held b0 F (State.thermalMode q c s) := by
  unfold State.thermalMode
  extract_lets -merge -underBinder +onlyGivenNames k
  try clear_value k
  extract_lets -merge -underBinder +onlyGivenNames m
  try clear_value m
  refine ite_ind (Q := Held b0 F) (fun _ => ?_) (fun _ => ?_)
  · exact held_complete (dj hF) ‹_›
  · refine ite_ind (Q := Held b0 F) (fun _ => ?_) (fun _ => ?_)
    · exact held_complete (dj hF) ‹_›
    · extract_lets -merge -underBinder +onlyGivenNames s
      have hs : Held b0 F s := held_modPcon (dj hF) ‹_›
      try clear_value s
      extract_lets -merge -underBinder +onlyGivenNames s
      have hs : Held b0 F s := by
        unfold s
        refine ite_ind (Q := Held b0 F) (fun _ => ?_) (fun _ => ?_)
        · exact held_thermalCon (dj hF) ‹_›
        · assumption
      try clear_value s
      exact held_settled (dj hF) (held_complete (dj hF) ‹_›)
theorem held_execStringClosingTimeout {i s} (hF : Dj F 0x1000f401a007ab) (hs : Held b0 F s) : HeldR b0 F (execStringClosingTimeout i s) := by
  unfold execStringClosingTimeout
  refine ite_ind (Q := HeldR b0 F) (fun _ => ?_) (fun _ => ?_)
  · exact heldR_next (held_closingLate (dj hF) ‹_›)
  · exact heldR_next ‹_›
theorem held_execThermalSetpointCycle {s} (hF : Dj F 0x1000f401a007ab) (hs : Held b0 F s) : HeldR b0 F (execThermalSetpointCycle s) := by
  unfold execThermalSetpointCycle
  refine ite_ind (Q := HeldR b0 F) (fun _ => ?_) (fun _ => ?_)
  · refine heldR_next ?_
    refine held_settled (dj hF) ?_
    refine foldl_ind (Q := Held b0 F) (fun _ _ hs => ?_) ?_
    · exact held_thermalCon (dj hF) ‹_›
    · assumption
  · exact heldR_next ‹_›
theorem held_execThermalMode {q s} (hF : Dj F 0x1000f401a007ab) (hs : Held b0 F s) : HeldR b0 F (execThermalMode q s) := by
  unfold execThermalMode
  refine held_onCmd (dj hF) ?_ ?_
  · assumption
  · intro y0 y1 hy1
    exact held_thermalMode (dj hF) ‹_›

end Sys2Proof.Machine
end

