-- ==== Sys2Proof/Laws/KeptDispOps.lean ====
section
/-!
SUPPORT. The operations of Machine/DispOps.lean change only the parts that their masks name (Laws/Held.lean).
-/
namespace Sys2Proof.Machine
open Sys2Proof
set_option Elab.async false

variable {b0 : State} {F : Nat}

theorem held_modDisp {s f} (hF : Dj F 0x800) (hs : Held b0 F s) : Held b0 F (State.modDisp s f) := by
  unfold State.modDisp
  exact held_mk_disp (dj hF) ‹_›
theorem held_setMode {s m} (hF : Dj F 0x9000200009) (hs : Held b0 F s) : Held b0 F (State.setMode s m) := by
  unfold State.setMode
  refine ite_ind (Q := Held b0 F) (fun _ => ?_) (fun _ => ?_)
  · assumption
  · exact held_flag (dj hF) (held_wrB (dj hF) (held_wr (dj hF) ‹_› (off_PLT_DISP_STATUS_MODE (dj hF))) (off_PLT_EVAC_STATUS_EVACUATION (dj hF))) (off_PLT_DISP_EVENT_STATUS_MODE_CHANGE (dj hF))
theorem held_showBill {s} (hF : Dj F 0x8000000001) (hs : Held b0 F s) : Held b0 F (State.showBill s) := by
  unfold State.showBill
  split
  · assumption
  · exact held_wr (dj hF) (held_wr (dj hF) (held_wrR (dj hF) (held_wrR (dj hF) ‹_› (off_PLT_BILL_IMPORT (dj hF))) (off_PLT_BILL_EXPORT (dj hF))) (off_PLT_BILL_FLAGS (dj hF))) (off_PLT_BILL_SEQ (dj hF))
theorem held_book {s exp imp} (hF : Dj F 0x8000000801) (hs : Held b0 F s) : Held b0 F (State.book s exp imp) := by
  unfold State.book
  exact held_showBill (dj hF) (held_modDisp (dj hF) ‹_›)
theorem held_alarmSecond {s} (hF : Dj F 0x8001000001) (hs : Held b0 F s) : Held b0 F (State.alarmSecond s) := by
  unfold State.alarmSecond
  refine ite_ind (Q := Held b0 F) (fun _ => ?_) (fun _ => ?_)
  · split
    rename_i w s heq
    have hs : Held b0 F s := held2_eq heq (by
      exact held_drawWord (dj hF) ‹_›
      )
    clear heq
    exact held_wr (dj hF) ‹_› (off_PLT_EVAC_STATUS_ALARM_HOLD (dj hF))
  · assumption
theorem held_setPcs {s p x} (hF : Dj F 0x800) (hs : Held b0 F s) : Held b0 F (State.setPcs s p x) := by
  unfold State.setPcs
  exact held_mk_disp (dj hF) ‹_›
theorem held_showPcs {s p} (hF : Dj F 0x8000000001) (hs : Held b0 F s) : Held b0 F (State.showPcs s p) := by
  unfold State.showPcs
  extract_lets -merge -underBinder +onlyGivenNames x
  try clear_value x
  extract_lets -merge -underBinder +onlyGivenNames s
  have hs : Held b0 F s := held_wr (dj hF) ‹_› (off_PLT_PCS_STATUS_STATE (dj hF))
  try clear_value s
  extract_lets -merge -underBinder +onlyGivenNames s
  have hs : Held b0 F s := held_wrB (dj hF) ‹_› (off_PLT_PCS_STATUS_GRID_PRESENT (dj hF))
  try clear_value s
  extract_lets -merge -underBinder +onlyGivenNames s
  have hs : Held b0 F s := held_wrB (dj hF) ‹_› (off_PLT_PCS_STATUS_ISLAND (dj hF))
  try clear_value s
  extract_lets -merge -underBinder +onlyGivenNames s
  have hs : Held b0 F s := held_wrB (dj hF) ‹_› (off_PLT_PCS_STATUS_FLOOR (dj hF))
  try clear_value s
  extract_lets -merge -underBinder +onlyGivenNames s
  have hs : Held b0 F s := held_wrB (dj hF) ‹_› (off_PLT_PCS_STATUS_CEILING (dj hF))
  try clear_value s
  extract_lets -merge -underBinder +onlyGivenNames s
  have hs : Held b0 F s := held_wrB (dj hF) ‹_› (off_PLT_PCS_STATUS_LATE (dj hF))
  try clear_value s
  extract_lets -merge -underBinder +onlyGivenNames s
  have hs : Held b0 F s := held_wrB (dj hF) ‹_› (off_PLT_PCS_STATUS_FAULT (dj hF))
  try clear_value s
  extract_lets -merge -underBinder +onlyGivenNames s
  have hs : Held b0 F s := held_wr (dj hF) ‹_› (off_PLT_PCS_STATUS_POWER (dj hF))
  try clear_value s
  exact held_wrB (dj hF) ‹_› (off_ite (off_PLT_PCS_LIVE_LO (dj hF)) (off_PLT_PCS_LIVE_HI (dj hF)))
theorem held_billFlag {s b} (hF : Dj F 0x800) (hs : Held b0 F s) : Held b0 F (State.billFlag s b) := by
  unfold State.billFlag
  exact held_modDisp (dj hF) ‹_›
theorem held_storeBill {s b} (hF : Dj F 0x1000100020000b) (hs : Held b0 F s) : Held b0 F (State.storeBill s b) := by
  unfold State.storeBill
  exact held_raise (dj hF) (held_mk_nv (dj hF) ‹_›)
theorem held_useSource {s src} (hF : Dj F 0x8000000801) (hs : Held b0 F s) : Held b0 F (State.useSource s src) := by
  unfold State.useSource
  exact held_modDisp (dj hF) (held_wr (dj hF) ‹_› (off_PLT_SOURCE_SELECT_IN_USE (dj hF)))
theorem held_closeBill {s flag} (hF : Dj F 0x1000100020080b) (hs : Held b0 F s) : Held b0 F (State.closeBill s flag) := by
  unfold State.closeBill
  split
  · assumption
  · extract_lets -merge -underBinder +onlyGivenNames f
    try clear_value f
    extract_lets -merge -underBinder +onlyGivenNames s
    have hs : Held b0 F s := held_storeBill (dj hF) ‹_›
    try clear_value s
    extract_lets -merge -underBinder +onlyGivenNames __src
    have h__src : Held b0 F __src := held_modDisp (dj hF) ‹_›
    try clear_value __src
    exact held_mk_nv (dj hF) ‹_›
theorem held_fallBack {s src} (hF : Dj F 0x1000900020080b) (hs : Held b0 F s) : Held b0 F (State.fallBack s src) := by
  unfold State.fallBack
  extract_lets -merge -underBinder +onlyGivenNames fb
  try clear_value fb
  extract_lets -merge -underBinder +onlyGivenNames toward
  try clear_value toward
  extract_lets -merge -underBinder +onlyGivenNames s
  have hs : Held b0 F s := held_wrB (dj hF) (held_useSource (dj hF) ‹_›) (off_PLT_DISP_STATUS_SOURCE_FALLBACK (dj hF))
  try clear_value s
  exact held_flag (dj hF) (held_raise (dj hF) ‹_›) (off_PLT_DISP_EVENT_STATUS_SOURCE_FALLBACK (dj hF))
theorem held_openBill {s extra} (hF : Dj F 0x8000000803) (hs : Held b0 F s) : Held b0 F (State.openBill s extra) := by
  unfold State.openBill
  extract_lets -merge -underBinder +onlyGivenNames known
  try clear_value known
  extract_lets -merge -underBinder +onlyGivenNames label
  try clear_value label
  extract_lets -merge -underBinder +onlyGivenNames partial'
  try clear_value partial'
  extract_lets -merge -underBinder +onlyGivenNames flags
  try clear_value flags
  extract_lets -merge -underBinder +onlyGivenNames zz0 s
  have hs : Held b0 F s := held_mk_nv (dj hF) ‹_›
  try clear_value s
  exact held_showBill (dj hF) (held_modDisp (dj hF) ‹_›)
theorem held_sendPcs {s p typ app payload} (hF : Dj F 0x4000000800801) (hs : Held b0 F s) : Held b0 F (State.sendPcs s p typ app payload) := by
  unfold State.sendPcs
  extract_lets -merge -underBinder +onlyGivenNames x
  try clear_value x
  extract_lets -merge -underBinder +onlyGivenNames q
  try clear_value q
  extract_lets -merge -underBinder +onlyGivenNames d
  try clear_value d
  extract_lets -merge -underBinder +onlyGivenNames cages
  try clear_value cages
  extract_lets -merge -underBinder +onlyGivenNames s
  have hs : Held b0 F s := held_setPcs (dj hF) ‹_›
  try clear_value s
  extract_lets -merge -underBinder +onlyGivenNames s
  have hs : Held b0 F s := by
    unfold s
    refine ite_ind (Q := Held b0 F) (fun _ => ?_) (fun _ => ?_)
    · exact held_sendEth (dj hF) (held_inc (dj hF) ‹_› (off_NET_PCS_TX (dj hF)))
    · assumption
  try clear_value s
  refine ite_ind (Q := Held b0 F) (fun _ => ?_) (fun _ => ?_)
  · exact held_sendEth (dj hF) (held_inc (dj hF) ‹_› (off_NET_PCS_TX (dj hF)))
  · assumption
theorem held_holdPcs {s reason} (hF : Dj F 0x4000000800801) (hs : Held b0 F s) : Held b0 F (State.holdPcs s reason) := by
  unfold State.holdPcs
  refine foldl_ind (Q := Held b0 F) (fun s _ hs => ?_) ?_
  · exact held_sendPcs (dj hF) ‹_›
  · assumption
theorem held_sendPcsStanding {s p} (hF : Dj F 0x4000000800801) (hs : Held b0 F s) : Held b0 F (State.sendPcsStanding s p) := by
  unfold State.sendPcsStanding
  split
  · assumption
  · extract_lets -merge -underBinder +onlyGivenNames c
    try clear_value c
    extract_lets -merge -underBinder +onlyGivenNames x
    try clear_value x
    extract_lets -merge -underBinder +onlyGivenNames g
    try clear_value g
    exact held_sendPcs (dj hF) (held_setPcs (dj hF) ‹_›)
theorem held_bookGap {s last exp imp} (hF : Dj F 0x1000100020000b) (hs : Held b0 F s) : Held b0 F (State.bookGap s last exp imp) := by
  unfold State.bookGap
  extract_lets -merge -underBinder +onlyGivenNames known
  try clear_value known
  extract_lets -merge -underBinder +onlyGivenNames off
  try clear_value off
  extract_lets -merge -underBinder +onlyGivenNames label
  try clear_value label
  extract_lets -merge -underBinder +onlyGivenNames ms
  try clear_value ms
  extract_lets -merge -underBinder +onlyGivenNames seq
  try clear_value seq
  extract_lets -merge -underBinder +onlyGivenNames zz0 s
  have hs : Held b0 F s := held_mk_nv (dj hF) ‹_›
  try clear_value s
  exact held_storeBill (dj hF) ‹_›
theorem held_billStart {s} (hF : Dj F 0x1000900020080b) (hs : Held b0 F s) : Held b0 F (State.billStart s) := by
  unfold State.billStart
  extract_lets -merge -underBinder +onlyGivenNames s
  have hs : Held b0 F s := by
    unfold s
    split
    · assumption
    · exact held_storeBill (dj hF) ‹_›
  try clear_value s
  exact held_openBill (dj hF) (held_mk_nv (dj hF) ‹_›)
theorem held_billStep {s big backward} (hF : Dj F 0x1000900020080b) (hs : Held b0 F s) : Held b0 F (State.billStep s big backward) := by
  unfold State.billStep
  split
  · assumption
  · refine ite_ind (Q := Held b0 F) (fun _ => ?_) (fun _ => ?_)
    · assumption
    · refine ite_ind (Q := Held b0 F) (fun _ => ?_) (fun _ => ?_)
      · assumption
      · refine ite_ind (Q := Held b0 F) (fun _ => ?_) (fun _ => ?_)
        · exact held_showBill (dj hF) (held_billFlag (dj hF) ‹_›)
        · exact held_openBill (dj hF) (held_closeBill (dj hF) ‹_›)
theorem held_billLocked {s} (hF : Dj F 0x1000900020080b) (hs : Held b0 F s) : Held b0 F (State.billLocked s) := by
  unfold State.billLocked
  split
  · refine ite_ind (Q := Held b0 F) (fun _ => ?_) (fun _ => ?_)
    · exact held_openBill (dj hF) (held_closeBill (dj hF) ‹_›)
    · assumption
  · assumption

end Sys2Proof.Machine
end

