-- ==== Sys2Proof/Laws/KeptDisp.lean ====
section
/-!
SUPPORT. The operations of Machine/Disp.lean change only the parts that their masks name (Laws/Held.lean).
-/
namespace Sys2Proof.Machine
open Sys2Proof
set_option Elab.async false

variable {b0 : State} {F : Nat}

theorem held_sendSetpoints {s} (hF : Dj F 0x4000000800801) (hs : Held b0 F s) : Held b0 F (State.sendSetpoints s) := by
  unfold State.sendSetpoints
  extract_lets -merge -underBinder +onlyGivenNames p
  try clear_value p
  extract_lets -merge -underBinder +onlyGivenNames cd
  try clear_value cd
  extract_lets -merge -underBinder +onlyGivenNames cc
  try clear_value cc
  extract_lets -merge -underBinder +onlyGivenNames lead
  try clear_value lead
  refine foldl_ind (Q := Held b0 F) (fun t _ ht => ?_) ?_
  · exact held_sendPcs (dj hF) ‹_›
  · assumption
theorem held_scheduleAdd {q c s} (hF : Dj F 0x8000800829) (hs : Held b0 F s) : Held b0 F (State.scheduleAdd q c s) := by
  unfold State.scheduleAdd
  extract_lets -merge -underBinder +onlyGivenNames t
  try clear_value t
  extract_lets -merge -underBinder +onlyGivenNames l
  try clear_value l
  extract_lets -merge -underBinder +onlyGivenNames old
  try clear_value old
  refine ite_ind (Q := Held b0 F) (fun _ => ?_) (fun _ => ?_)
  · exact held_complete (dj hF) ‹_›
  · refine ite_ind (Q := Held b0 F) (fun _ => ?_) (fun _ => ?_)
    · exact held_complete (dj hF) ‹_›
    · extract_lets -merge -underBinder +onlyGivenNames l
      try clear_value l
      extract_lets -merge -underBinder +onlyGivenNames s
      have hs : Held b0 F s := held_wr (dj hF) (held_modDisp (dj hF) ‹_›) (off_PLT_SCHEDULE_DEPTH (dj hF))
      try clear_value s
      exact held_complete (dj hF) ‹_›
theorem held_execPltDispClearCounters {sess key s} (hF : Dj F 0x8000000001) (hs : Held b0 F s) : HeldR b0 F (execPltDispClearCounters sess key s) := by
  unfold execPltDispClearCounters
  exact ite_ind (Q := HeldR b0 F) (fun _ => heldR_next (held_clearAt 7 (dj hF) (dj hF) (by decide) (by decide) hs)) (fun _ => heldR_next hs)
theorem held_showIsland {s} (hF : Dj F 0x8000000001) (hs : Held b0 F s) : Held b0 F (State.showIsland s) := by
  unfold State.showIsland
  extract_lets -merge -underBinder +onlyGivenNames lim
  try clear_value lim
  extract_lets -merge -underBinder +onlyGivenNames meas
  try clear_value meas
  extract_lets -merge -underBinder +onlyGivenNames s
  have hs : Held b0 F s := held_wrR (dj hF) (held_wrR (dj hF) (held_wrR (dj hF) ‹_› (off_PLT_MEASURED_POWER (dj hF))) (off_PLT_GRID_FREQ (dj hF))) (off_PLT_RAMP_RATE (dj hF))
  try clear_value s
  extract_lets -merge -underBinder +onlyGivenNames s
  have hs : Held b0 F s := held_wrR (dj hF) ‹_› (off_PLT_ISLAND_LIMIT (dj hF))
  try clear_value s
  extract_lets -merge -underBinder +onlyGivenNames s
  have hs : Held b0 F s := held_wrR (dj hF) ‹_› (off_PLT_LIFT_POWER_LIMIT (dj hF))
  try clear_value s
  exact held_wrB (dj hF) ‹_› (off_PLT_EVAC_STATUS_SHEDDING (dj hF))
theorem held_billingRead {q c s} (hF : Dj F 0x800028) (hs : Held b0 F s) : Held b0 F (State.billingRead q c s) := by
  unfold State.billingRead
  split
  · exact held_complete (dj hF) ‹_›
  · split
    · exact held_complete (dj hF) ‹_›
    · exact held_complete (dj hF) ‹_›
    · exact held_complete (dj hF) ‹_›
    · exact held_complete (dj hF) ‹_›
theorem held_sourceBack {s} (hF : Dj F 0x1000900020080b) (hs : Held b0 F s) : Held b0 F (State.sourceBack s) := by
  unfold State.sourceBack
  extract_lets -merge -underBinder +onlyGivenNames src
  try clear_value src
  extract_lets -merge -underBinder +onlyGivenNames s
  have hs : Held b0 F s := held_wrB (dj hF) (held_useSource (dj hF) ‹_›) (off_PLT_DISP_STATUS_SOURCE_FALLBACK (dj hF))
  try clear_value s
  exact held_raise (dj hF) ‹_›
theorem held_execSourceRestore {s} (hF : Dj F 0x1000900020080b) (hs : Held b0 F s) : HeldR b0 F (execSourceRestore s) := by
  unfold execSourceRestore
  refine ite_ind (Q := HeldR b0 F) (fun _ => ?_) (fun _ => ?_)
  · exact heldR_next (held_sourceBack (dj hF) ‹_›)
  · exact heldR_next ‹_›
theorem held_sampleSource {s} (hF : Dj F 0x800) (hs : Held b0 F s) : Held b0 F (State.sampleSource s) := by
  unfold State.sampleSource
  extract_lets -merge -underBinder +onlyGivenNames src
  try clear_value src
  extract_lets -merge -underBinder +onlyGivenNames target
  try clear_value target
  extract_lets -merge -underBinder +onlyGivenNames step
  try clear_value step
  extract_lets -merge -underBinder +onlyGivenNames ramped
  try clear_value ramped
  extract_lets -merge -underBinder +onlyGivenNames v
  try clear_value v
  exact held_modDisp (dj hF) ‹_›
theorem held_billTick {s} (hF : Dj F 0x8000000801) (hs : Held b0 F s) : Held b0 F (State.billTick s) := by
  unfold State.billTick
  extract_lets -merge -underBinder +onlyGivenNames s
  have hs : Held b0 F s := held_modDisp (dj hF) ‹_›
  try clear_value s
  extract_lets -merge -underBinder +onlyGivenNames s
  have hs : Held b0 F s := by
    unfold s
    refine ite_ind (Q := Held b0 F) (fun _ => ?_) (fun _ => ?_)
    · exact held_billFlag (dj hF) ‹_›
    · assumption
  try clear_value s
  extract_lets -merge -underBinder +onlyGivenNames s
  have hs : Held b0 F s := by
    unfold s
    refine ite_ind (Q := Held b0 F) (fun _ => ?_) (fun _ => ?_)
    · exact held_billFlag (dj hF) ‹_›
    · assumption
  try clear_value s
  refine held_showBill (dj hF) ?_
  refine ite_ind (Q := Held b0 F) (fun _ => ?_) (fun _ => ?_)
  · exact held_billFlag (dj hF) ‹_›
  · assumption
theorem held_losePcs {s p} (hF : Dj F 0x1000900020080b) (hs : Held b0 F s) : Held b0 F (State.losePcs s p) := by
  unfold State.losePcs
  extract_lets -merge -underBinder +onlyGivenNames zz0 s
  have hs : Held b0 F s := held_setPcs (dj hF) ‹_›
  try clear_value s
  exact held_showPcs (dj hF) (held_flag (dj hF) (held_raise (dj hF) ‹_›) (off_PLT_DISP_EVENT_STATUS_PCS_CHANGE (dj hF)))
theorem held_showReserve {s} (hF : Dj F 0x1000900020080b) (hs : Held b0 F s) : Held b0 F (State.showReserve s) := by
  unfold State.showReserve
  extract_lets -merge -underBinder +onlyGivenNames req
  try clear_value req
  extract_lets -merge -underBinder +onlyGivenNames m
  try clear_value m
  extract_lets -merge -underBinder +onlyGivenNames s
  have hs : Held b0 F s := held_wrR (dj hF) (held_wrR (dj hF) (held_wrR (dj hF) ‹_› (off_PLT_RESERVE_REQUIRED (dj hF))) (off_PLT_RESERVE_AVAILABLE (dj hF))) (off_PLT_RESERVE_MARGIN (dj hF))
  try clear_value s
  extract_lets -merge -underBinder +onlyGivenNames s
  have hs : Held b0 F s := held_wrR (dj hF) (held_wrR (dj hF) ‹_› (off_PLT_RESERVE_LIGHTING (dj hF))) (off_PLT_RESERVE_LIFTS (dj hF))
  try clear_value s
  extract_lets -merge -underBinder +onlyGivenNames s
  have hs : Held b0 F s := held_wrR (dj hF) ‹_› (off_PLT_TRIP_ENERGY (dj hF))
  try clear_value s
  extract_lets -merge -underBinder +onlyGivenNames caps
  try clear_value caps
  extract_lets -merge -underBinder +onlyGivenNames short
  try clear_value short
  extract_lets -merge -underBinder +onlyGivenNames s
  have hs : Held b0 F s := held_wrB (dj hF) (held_wrB (dj hF) ‹_› (off_PLT_DISP_STATUS_RESERVE_POWER_SHORT (dj hF))) (off_PLT_DISP_STATUS_RESERVE_UNKNOWN (dj hF))
  try clear_value s
  extract_lets -merge -underBinder +onlyGivenNames s
  have hs : Held b0 F s := held_wrB (dj hF) ‹_› (off_PLT_DISP_STATUS_RECHARGE (dj hF))
  try clear_value s
  refine ite_ind (Q := Held b0 F) (fun _ => ?_) (fun _ => ?_)
  · refine ite_ind (Q := Held b0 F) (fun _ => ?_) (fun _ => ?_)
    · assumption
    · exact held_flag (dj hF) (held_raise (dj hF) (held_wrB (dj hF) ‹_› (off_PLT_DISP_STATUS_STALE (dj hF)))) (off_PLT_DISP_EVENT_STATUS_STALE (dj hF))
  · extract_lets -merge -underBinder +onlyGivenNames s
    have hs : Held b0 F s := held_wrB (dj hF) ‹_› (off_PLT_DISP_STATUS_STALE (dj hF))
    try clear_value s
    extract_lets -merge -underBinder +onlyGivenNames band
    try clear_value band
    extract_lets -merge -underBinder +onlyGivenNames d
    try clear_value d
    extract_lets -merge -underBinder +onlyGivenNames s
    have hs : Held b0 F s := by
      unfold s
      refine ite_ind (Q := Held b0 F) (fun _ => ?_) (fun _ => ?_)
      · exact held_modDisp (dj hF) (held_flag (dj hF) (held_raise (dj hF) ‹_›) (off_PLT_DISP_EVENT_STATUS_RESERVE_LOW (dj hF)))
      · refine ite_ind (Q := Held b0 F) (fun _ => ?_) (fun _ => ?_)
        · exact held_modDisp (dj hF) ‹_›
        · assumption
    try clear_value s
    refine ite_ind (Q := Held b0 F) (fun _ => ?_) (fun _ => ?_)
    · exact held_modDisp (dj hF) (held_flag (dj hF) (held_raise (dj hF) ‹_›) (off_PLT_DISP_EVENT_STATUS_RESERVE_BREACHED (dj hF)))
    · refine ite_ind (Q := Held b0 F) (fun _ => ?_) (fun _ => ?_)
      · exact held_modDisp (dj hF) ‹_›
      · assumption
theorem held_execSourceFault {src s} (hF : Dj F 0x1000900020080b) (hs : Held b0 F s) : HeldR b0 F (execSourceFault src s) := by
  unfold execSourceFault
  refine ite_ind (Q := HeldR b0 F) (fun _ => ?_) (fun _ => ?_)
  · exact heldR_next (held_fallBack (dj hF) ‹_›)
  · exact heldR_next ‹_›
theorem held_plantSent {s} (hF : Dj F 0x808) (hs : Held b0 F s) : Held b0 F (State.plantSent s) := by
  unfold State.plantSent
  exact held_mk_hq_disp (dj hF) ‹_›
theorem held_showSource {s} (hF : Dj F 0x8000000801) (hs : Held b0 F s) : Held b0 F (State.showSource s) := by
  unfold State.showSource
  extract_lets -merge -underBinder +onlyGivenNames add
  try clear_value add
  extract_lets -merge -underBinder +onlyGivenNames s
  have hs : Held b0 F s := held_modDisp (dj hF) ‹_›
  try clear_value s
  exact held_wr (dj hF) (held_wrR (dj hF) ‹_› (off_PLT_SOURCE_VALUE (dj hF))) (off_PLT_SCHEDULE_DEPTH (dj hF))
theorem held_execBillingRead {q s} (hF : Dj F 0x800028) (hs : Held b0 F s) : HeldR b0 F (execBillingRead q s) := by
  unfold execBillingRead
  refine held_onCmd (dj hF) ?_ ?_
  · assumption
  · intro y0 y1 hy1
    exact held_billingRead (dj hF) ‹_›
theorem held_scheduleClear {q c s} (hF : Dj F 0x8000800829) (hs : Held b0 F s) : Held b0 F (State.scheduleClear q c s) := by
  unfold State.scheduleClear
  extract_lets -merge -underBinder +onlyGivenNames l
  try clear_value l
  exact held_complete (dj hF) (held_wr (dj hF) (held_modDisp (dj hF) ‹_›) (off_PLT_SCHEDULE_DEPTH (dj hF)))
theorem held_markFloors {s} (hF : Dj F 0x400) (hs : Held b0 F s) : Held b0 F (State.markFloors s) := by
  unfold State.markFloors
  refine foldl_ind (Q := Held b0 F) (fun s _ hs => ?_) ?_
  · refine foldl_ind (Q := Held b0 F) (fun s _ hs => ?_) ?_
    · extract_lets -merge -underBinder +onlyGivenNames on
      try clear_value on
      refine ite_ind (Q := Held b0 F) (fun _ => ?_) (fun _ => ?_)
      · assumption
      · exact held_modPcon (dj hF) ‹_›
    · assumption
  · assumption
theorem held_execBillingIntervalClose {s} (hF : Dj F 0x1000900020080b) (hs : Held b0 F s) : HeldR b0 F (execBillingIntervalClose s) := by
  unfold execBillingIntervalClose
  split
  · exact heldR_next ‹_›
  · refine ite_ind (Q := HeldR b0 F) (fun _ => ?_) (fun _ => ?_)
    · exact heldR_next (held_openBill (dj hF) (held_closeBill (dj hF) ‹_›))
    · exact heldR_next ‹_›
theorem held_execBillingPersist {s} (hF : Dj F 0x2) (hs : Held b0 F s) : HeldR b0 F (execBillingPersist s) := by
  unfold execBillingPersist
  split
  · exact heldR_next ‹_›
  · extract_lets -merge -underBinder +onlyGivenNames last
    try clear_value last
    exact heldR_next (held_mk_nv (dj hF) ‹_›)
theorem held_takeStatus {s u seq b} (hF : Dj F 0x14009000a0080b) (hs : Held b0 F s) : Held b0 F (State.takeStatus s u seq b) := by
  unfold State.takeStatus
  extract_lets -merge -underBinder +onlyGivenNames p
  try clear_value p
  extract_lets -merge -underBinder +onlyGivenNames x
  try clear_value x
  extract_lets -merge -underBinder +onlyGivenNames f
  try clear_value f
  extract_lets -merge -underBinder +onlyGivenNames exp
  try clear_value exp
  extract_lets -merge -underBinder +onlyGivenNames imp
  try clear_value imp
  extract_lets -merge -underBinder +onlyGivenNames good
  try clear_value good
  extract_lets -merge -underBinder +onlyGivenNames now
  try clear_value now
  extract_lets -merge -underBinder +onlyGivenNames live
  try clear_value live
  extract_lets -merge -underBinder +onlyGivenNames up
  try clear_value up
  extract_lets -merge -underBinder +onlyGivenNames stored
  try clear_value stored
  extract_lets -merge -underBinder +onlyGivenNames s
  have hs : Held b0 F s := held_setPcs (dj hF) ‹_›
  try clear_value s
  extract_lets -merge -underBinder +onlyGivenNames s
  have hs : Held b0 F s := by
    unfold s
    split
    · refine ite_ind (Q := Held b0 F) (fun _ => ?_) (fun _ => ?_)
      · exact held_book (dj hF) ‹_›
      · refine ite_ind (Q := Held b0 F) (fun _ => ?_) (fun _ => ?_)
        · exact held_bookGap (dj hF) ‹_›
        · assumption
    · assumption
  try clear_value s
  extract_lets -merge -underBinder +onlyGivenNames s
  have hs : Held b0 F s := by
    unfold s
    refine ite_ind (Q := Held b0 F) (fun _ => ?_) (fun _ => ?_)
    · exact held_flag (dj hF) (held_raise (dj hF) ‹_›) (off_PLT_DISP_EVENT_STATUS_PCS_CHANGE (dj hF))
    · assumption
  try clear_value s
  refine held_showPcs (dj hF) ?_
  refine ite_ind (Q := Held b0 F) (fun _ => ?_) (fun _ => ?_)
  · exact held_sendPcsStanding (dj hF) ‹_›
  · assumption
theorem held_setBounds {s} (hF : Dj F 0x8000000001) (hs : Held b0 F s) : Held b0 F (State.setBounds s) := by
  unfold State.setBounds
  extract_lets -merge -underBinder +onlyGivenNames b
  try clear_value b
  extract_lets -merge -underBinder +onlyGivenNames x
  try clear_value x
  extract_lets -merge -underBinder +onlyGivenNames p
  try clear_value p
  extract_lets -merge -underBinder +onlyGivenNames s
  have hs : Held b0 F s := held_wr (dj hF) (held_wrR (dj hF) ‹_› (off_PLT_SETPOINT (dj hF))) (off_PLT_UPPER_BOUND (dj hF))
  try clear_value s
  extract_lets -merge -underBinder +onlyGivenNames s
  have hs : Held b0 F s := held_wr (dj hF) ‹_› (off_PLT_LOWER_BOUND (dj hF))
  try clear_value s
  extract_lets -merge -underBinder +onlyGivenNames s
  have hs : Held b0 F s := held_wr (dj hF) ‹_› (off_PLT_LIMIT_CAUSE_UPPER (dj hF))
  try clear_value s
  exact held_wr (dj hF) ‹_› (off_PLT_LIMIT_CAUSE_LOWER (dj hF))
theorem held_selectSource {s code} (hF : Dj F 0x1000900020080b) (hs : Held b0 F s) : Held b0 F (State.selectSource s code) := by
  unfold State.selectSource
  extract_lets -merge -underBinder +onlyGivenNames c
  try clear_value c
  refine ite_ind (Q := Held b0 F) (fun _ => ?_) (fun _ => ?_)
  · extract_lets -merge -underBinder +onlyGivenNames s
    have hs : Held b0 F s := held_wr (dj hF) ‹_› (off_PLT_SOURCE_SELECT_SELECTED (dj hF))
    try clear_value s
    refine ite_ind (Q := Held b0 F) (fun _ => ?_) (fun _ => ?_)
    · exact held_fallBack (dj hF) ‹_›
    · exact held_wrB (dj hF) (held_useSource (dj hF) ‹_›) (off_PLT_DISP_STATUS_SOURCE_FALLBACK (dj hF))
  · assumption
theorem held_sourceTick {s} (hF : Dj F 0x8000000801) (hs : Held b0 F s) : Held b0 F (State.sourceTick s) := by
  unfold State.sourceTick
  refine ite_ind (Q := Held b0 F) (fun _ => ?_) (fun _ => ?_)
  · extract_lets -merge -underBinder +onlyGivenNames s
    have hs : Held b0 F s := held_showSource (dj hF) (held_sampleSource (dj hF) ‹_›)
    try clear_value s
    exact held_wrR (dj hF) ‹_› (off_PLT_SETPOINT (dj hF))
  · assumption
theorem held_execPcsStatusDatagram {dg s} (hF : Dj F 0x14009000a0080b) (hs : Held b0 F s) : HeldR b0 F (execPcsStatusDatagram dg s) := by
  unfold execPcsStatusDatagram
  extract_lets -merge -underBinder +onlyGivenNames n
  try clear_value n
  extract_lets -merge -underBinder +onlyGivenNames h
  try clear_value h
  extract_lets -merge -underBinder +onlyGivenNames pay
  try clear_value pay
  split
  · refine heldR_next ?_
    refine ite_ind (Q := Held b0 F) (fun _ => ?_) (fun _ => ?_)
    · exact held_inc (dj hF) ‹_› (off_NET_PCS_REJECTED (dj hF))
    · assumption
  · refine ite_ind (Q := HeldR b0 F) (fun _ => ?_) (fun _ => ?_)
    · exact heldR_next (held_takeStatus (dj hF) (held_inc (dj hF) ‹_› (off_NET_PCS_RX (dj hF))))
    · refine heldR_next ?_
      refine ite_ind (Q := Held b0 F) (fun _ => ?_) (fun _ => ?_)
      · exact held_inc (dj hF) ‹_› (off_NET_PCS_REJECTED (dj hF))
      · assumption
theorem held_execPcsLostTimeout {p s} (hF : Dj F 0x1000900020080b) (hs : Held b0 F s) : HeldR b0 F (execPcsLostTimeout p s) := by
  unfold execPcsLostTimeout
  refine ite_ind (Q := HeldR b0 F) (fun _ => ?_) (fun _ => ?_)
  · exact heldR_next (held_losePcs (dj hF) ‹_›)
  · exact heldR_next ‹_›
theorem held_execScheduleAdd {q s} (hF : Dj F 0x8000800829) (hs : Held b0 F s) : HeldR b0 F (execScheduleAdd q s) := by
  unfold execScheduleAdd
  refine held_onCmd (dj hF) ?_ ?_
  · assumption
  · intro y0 y1 hy1
    exact held_scheduleAdd (dj hF) ‹_›
theorem held_execReturnToSource {sess key s} (hF : Dj F 0x1000900020080b) (hs : Held b0 F s) : HeldR b0 F (execReturnToSource sess key s) := by
  unfold execReturnToSource
  refine ite_ind (Q := HeldR b0 F) (fun _ => ?_) (fun _ => ?_)
  · exact heldR_next (held_sourceBack (dj hF) ‹_›)
  · exact heldR_next ‹_›
theorem held_execScheduleClear {q s} (hF : Dj F 0x8000800829) (hs : Held b0 F s) : HeldR b0 F (execScheduleClear q s) := by
  unfold execScheduleClear
  refine held_onCmd (dj hF) ?_ ?_
  · assumption
  · intro y0 y1 hy1
    exact held_scheduleClear (dj hF) ‹_›
theorem held_execSourceSelectWrite {sess code s} (hF : Dj F 0x1000900020080b) (hs : Held b0 F s) : HeldR b0 F (execSourceSelectWrite sess code s) := by
  unfold execSourceSelectWrite
  refine ite_ind (Q := HeldR b0 F) (fun _ => ?_) (fun _ => ?_)
  · exact heldR_next (held_selectSource (dj hF) ‹_›)
  · exact heldR_next ‹_›
theorem held_dispatchCycle {s} (hF : Dj F 0x1400f401a00fab) (hs : Held b0 F s) : Held b0 F (State.dispatchCycle s) := by
  unfold State.dispatchCycle
  extract_lets -merge -underBinder +onlyGivenNames s
  have hs : Held b0 F s := held_wrB (dj hF) ‹_› (off_PLT_DISP_STATUS_RUNNING (dj hF))
  try clear_value s
  extract_lets -merge -underBinder +onlyGivenNames s
  have hs : Held b0 F s := held_setBounds (dj hF) (held_showIsland (dj hF) (held_showReserve (dj hF) (held_showSource (dj hF) ‹_›)))
  try clear_value s
  extract_lets -merge -underBinder +onlyGivenNames s
  have hs : Held b0 F s := by
    unfold s
    refine ite_ind (Q := Held b0 F) (fun _ => ?_) (fun _ => ?_)
    · exact held_plantSent (dj hF) (held_sendSetpoints (dj hF) ‹_›)
    · assumption
  try clear_value s
  exact held_settled (dj hF) (held_protCycle (dj hF) (held_billTick (dj hF) (held_markFloors (dj hF) ‹_›)))
theorem held_execDispatchCycle {s} (hF : Dj F 0x1400f401a00fab) (hs : Held b0 F s) : HeldR b0 F (execDispatchCycle s) := by
  unfold execDispatchCycle
  refine ite_ind (Q := HeldR b0 F) (fun _ => ?_) (fun _ => ?_)
  · exact heldR_next (held_dispatchCycle (dj hF) ‹_›)
  · exact heldR_next (held_billTick (dj hF) (held_wrB (dj hF) ‹_› (off_PLT_DISP_STATUS_RUNNING (dj hF))))

end Sys2Proof.Machine
end

