-- ==== Sys2Proof/Laws/KeptLoopOps.lean ====
section
/-!
SUPPORT. The operations of Machine/LoopOps.lean change only the parts that their masks name (Laws/Held.lean).
-/
namespace Sys2Proof.Machine
open Sys2Proof
set_option Elab.async false

variable {b0 : State} {F : Nat}

theorem held_modLoop {s f} (hF : Dj F 0x1000) (hs : Held b0 F s) : Held b0 F (State.modLoop s f) := by
  unfold State.modLoop
  exact held_mk_loop (dj hF) ‹_›
theorem held_showLanes {s} (hF : Dj F 0x10000000001) (hs : Held b0 F s) : Held b0 F (State.showLanes s) := by
  unfold State.showLanes
  extract_lets -merge -underBinder +onlyGivenNames st
  try clear_value st
  extract_lets -merge -underBinder +onlyGivenNames s
  have hs : Held b0 F s := held_wr (dj hF) (held_wr (dj hF) (held_wr (dj hF) ‹_› (off_LOOP_LANE_STATUS_LANE_A (dj hF))) (off_LOOP_LANE_STATUS_LANE_B (dj hF))) (off_LOOP_LANE_STATUS_LANE_C (dj hF))
  try clear_value s
  exact held_wrB (dj hF) ‹_› (off_LOOP_STATUS_REBUILDING (dj hF))
theorem held_modLane {s k f} (hF : Dj F 0x1000) (hs : Held b0 F s) : Held b0 F (State.modLane s k f) := by
  unfold State.modLane
  exact held_modLoop (dj hF) ‹_›
theorem held_pwmPair {s r} (hF : Dj F 0x20000001001) (hs : Held b0 F s) : Held b0 F (State.pwmPair s r) := by
  unfold State.pwmPair
  extract_lets -merge -underBinder +onlyGivenNames n
  try clear_value n
  extract_lets -merge -underBinder +onlyGivenNames ph
  try clear_value ph
  extract_lets -merge -underBinder +onlyGivenNames old
  try clear_value old
  extract_lets -merge -underBinder +onlyGivenNames new
  try clear_value new
  extract_lets -merge -underBinder +onlyGivenNames c
  try clear_value c
  extract_lets -merge -underBinder +onlyGivenNames s
  have hs : Held b0 F s := held_wr (dj hF) (held_modLoop (dj hF) ‹_›) (off_PWM_PAIR_COMPARE (dj hF))
  try clear_value s
  extract_lets -merge -underBinder +onlyGivenNames first
  try clear_value first
  extract_lets -merge -underBinder +onlyGivenNames periods
  try clear_value periods
  refine ite_ind (Q := Held b0 F) (fun _ => ?_) (fun _ => ?_)
  · exact held_wr (dj hF) ‹_› (off_PWM_PAIR_STATUS_PULSES_OMITTED (dj hF))
  · assumption
theorem held_showPwm {s} (hF : Dj F 0x21000200009) (hs : Held b0 F s) : Held b0 F (State.showPwm s) := by
  unfold State.showPwm
  extract_lets -merge -underBinder +onlyGivenNames now
  try clear_value now
  extract_lets -merge -underBinder +onlyGivenNames stopped
  try clear_value stopped
  extract_lets -merge -underBinder +onlyGivenNames s
  have hs : Held b0 F s := by
    unfold s
    refine foldl_ind (Q := Held b0 F) (fun s _ hs => ?_) ?_
    · exact held_wr (dj hF) ‹_› (off_PWM_PAIR_STATUS_STATE (dj hF))
    · assumption
  try clear_value s
  extract_lets -merge -underBinder +onlyGivenNames s
  have hs : Held b0 F s := held_wrB (dj hF) (held_wr (dj hF) (held_wr (dj hF) ‹_› (off_PWM_STATUS_SWITCHING (dj hF))) (off_PWM_FAULT_PAIRS (dj hF))) (off_PWM_STATUS_LIVE (dj hF))
  try clear_value s
  refine ite_ind (Q := Held b0 F) (fun _ => ?_) (fun _ => ?_)
  · exact held_flag (dj hF) ‹_› (off_PWM_EVENT_STATUS_PAIR_OFF (dj hF))
  · assumption
theorem held_copyWindow {s} (hF : Dj F 0x10000001001) (hs : Held b0 F s) : Held b0 F (State.copyWindow s) := by
  unfold State.copyWindow
  refine ite_ind (Q := Held b0 F) (fun _ => ?_) (fun _ => ?_)
  · extract_lets -merge -underBinder +onlyGivenNames copy
    try clear_value copy
    exact held_wr64 (dj hF) (held_modLoop (dj hF) ‹_›) (off_LOOP_WINDOW_TICK_LO (dj hF))
  · assumption
theorem held_stageSig {s sig v host} (hF : Dj F 0x10000001001) (hs : Held b0 F s) : Held b0 F (State.stageSig s sig v host) := by
  unfold State.stageSig
  extract_lets -merge -underBinder +onlyGivenNames s
  have hs : Held b0 F s := by
    unfold s
    refine ite_ind (Q := Held b0 F) (fun _ => ?_) (fun _ => ?_)
    · exact held_inc (dj hF) ‹_› (off_LOOP_STAGED_OVERWRITTEN (dj hF))
    · assumption
  try clear_value s
  exact held_modLoop (dj hF) ‹_›
theorem held_firmware {s item v} (hF : Dj F 0x10000001001) (hs : Held b0 F s) : Held b0 F (State.firmware s item v) := by
  unfold State.firmware
  refine foldl_ind (Q := Held b0 F) (fun s _ hs => ?_) ?_
  · exact held_stageSig (dj hF) ‹_›
  · assumption
theorem held_modSlot {s k f} (hF : Dj F 0x10000001001) (hs : Held b0 F s) : Held b0 F (State.modSlot s k f) := by
  unfold State.modSlot
  extract_lets -merge -underBinder +onlyGivenNames s
  have hs : Held b0 F s := held_modLoop (dj hF) ‹_›
  try clear_value s
  exact held_wr (dj hF) ‹_› (off_LOOP_SLOTS_FAULTED (dj hF))
theorem held_tellSafety {s gs} (hF : Dj F 0x1000) (hs : Held b0 F s) : Held b0 F (State.tellSafety s gs) := by
  unfold State.tellSafety
  exact held_modLoop (dj hF) ‹_›
theorem held_pwmTick {s} (hF : Dj F 0x21000201009) (hs : Held b0 F s) : Held b0 F (State.pwmTick s) := by
  unfold State.pwmTick
  refine ite_ind (Q := Held b0 F) (fun _ => ?_) (fun _ => ?_)
  · refine held_showPwm (dj hF) ?_
    refine foldl_ind (Q := Held b0 F) (fun _ _ hs => ?_) ?_
    · exact held_pwmPair (dj hF) ‹_›
    · assumption
  · exact held_showPwm (dj hF) ‹_›
theorem held_foreignFault {s sig group} (hF : Dj F 0x1001100020100b) (hs : Held b0 F s) : Held b0 F (State.foreignFault s sig group) := by
  unfold State.foreignFault
  extract_lets -merge -underBinder +onlyGivenNames s
  have hs : Held b0 F s := held_wr (dj hF) (held_wr (dj hF) ‹_› (off_LOOP_FAULT_INFO_CAUSE (dj hF))) (off_LOOP_FAULT_INFO_LANES (dj hF))
  try clear_value s
  extract_lets -merge -underBinder +onlyGivenNames s
  have hs : Held b0 F s := held_modLoop (dj hF) (held_wr (dj hF) (held_inc (dj hF) ‹_› (off_LOOP_FAULTS (dj hF))) (off_LOOP_FAULT_INFO_SLOT (dj hF)))
  try clear_value s
  exact held_flag (dj hF) (held_raise (dj hF) (held_tellSafety (dj hF) ‹_›)) (off_LOOP_EVENT_STATUS_LOOP_FAULT (dj hF))
theorem held_setLatch {s dest item w} (hF : Dj F 0x1000) (hs : Held b0 F s) : Held b0 F (State.setLatch s dest item w) := by
  unfold State.setLatch
  exact held_modLoop (dj hF) ‹_›
theorem held_loopFresh {s engine keepRetired} (hF : Dj F 0x10000001001) (hs : Held b0 F s) : Held b0 F (State.loopFresh s engine keepRetired) := by
  unfold State.loopFresh
  extract_lets -merge -underBinder +onlyGivenNames lane
  try clear_value lane
  extract_lets -merge -underBinder +onlyGivenNames s
  have hs : Held b0 F s := held_modLoop (dj hF) ‹_›
  try clear_value s
  exact held_showLanes (dj hF) (held_wr (dj hF) (held_wr (dj hF) ‹_› (off_LOOP_STATUS_ENGINE (dj hF))) (off_LOOP_SLOTS_FAULTED (dj hF)))
theorem held_discardRun {s k index} (hF : Dj F 0x1001100020100b) (hs : Held b0 F s) : Held b0 F (State.discardRun s k index) := by
  unfold State.discardRun
  extract_lets -merge -underBinder +onlyGivenNames first
  try clear_value first
  extract_lets -merge -underBinder +onlyGivenNames limit
  try clear_value limit
  extract_lets -merge -underBinder +onlyGivenNames s
  have hs : Held b0 F s := held_modSlot (dj hF) (held_inc (dj hF) ‹_› (off_LOOP_NONFINITE (dj hF)))
  try clear_value s
  extract_lets -merge -underBinder +onlyGivenNames s
  have hs : Held b0 F s := by
    unfold s
    refine ite_ind (Q := Held b0 F) (fun _ => ?_) (fun _ => ?_)
    · exact held_flag (dj hF) (held_raise (dj hF) ‹_›) (off_LOOP_EVENT_STATUS_NONFINITE (dj hF))
    · assumption
  try clear_value s
  refine ite_ind (Q := Held b0 F) (fun _ => ?_) (fun _ => ?_)
  · exact held_flag (dj hF) (held_raise (dj hF) (held_modSlot (dj hF) ‹_›)) (off_LOOP_EVENT_STATUS_SLOT_PARKED (dj hF))
  · assumption
theorem held_rebuild {s} (hF : Dj F 0x1001100020100b) (hs : Held b0 F s) : Held b0 F (State.rebuild s) := by
  unfold State.rebuild
  refine foldl_ind (Q := Held b0 F) (fun s _ hs => ?_) ?_
  · split
    · refine ite_ind (Q := Held b0 F) (fun _ => ?_) (fun _ => ?_)
      · extract_lets -merge -underBinder +onlyGivenNames g
        try clear_value g
        extract_lets -merge -underBinder +onlyGivenNames s
        have hs : Held b0 F s := held_modLane (dj hF) ‹_›
        try clear_value s
        exact held_raise (dj hF) (held_inc (dj hF) ‹_› (off_LOOP_REBUILDS (dj hF)))
      · assumption
    · assumption
  · assumption
theorem held_allLanes {s f} (hF : Dj F 0x1000) (hs : Held b0 F s) : Held b0 F (State.allLanes s f) := by
  unfold State.allLanes
  refine foldl_ind (Q := Held b0 F) (fun s _ hs => ?_) ?_
  · exact held_modLane (dj hF) ‹_›
  · assumption
theorem held_countRun {s k} (hF : Dj F 0x1001100020100b) (hs : Held b0 F s) : Held b0 F (State.countRun s k) := by
  unfold State.countRun
  extract_lets -merge -underBinder +onlyGivenNames parked
  try clear_value parked
  extract_lets -merge -underBinder +onlyGivenNames s
  have hs : Held b0 F s := held_modSlot (dj hF) ‹_›
  try clear_value s
  extract_lets -merge -underBinder +onlyGivenNames s
  have hs : Held b0 F s := held_modLoop (dj hF) ‹_›
  try clear_value s
  refine ite_ind (Q := Held b0 F) (fun _ => ?_) (fun _ => ?_)
  · exact held_raise (dj hF) ‹_›
  · assumption
theorem held_haltCheck {s} (hF : Dj F 0x1001100020100b) (hs : Held b0 F s) : Held b0 F (State.haltCheck s) := by
  unfold State.haltCheck
  refine ite_ind (Q := Held b0 F) (fun _ => ?_) (fun _ => ?_)
  · extract_lets -merge -underBinder +onlyGivenNames s
    have hs : Held b0 F s := held_wr (dj hF) (held_wr (dj hF) (held_wr (dj hF) ‹_› (off_LOOP_STATUS_ENGINE (dj hF))) (off_LOOP_FAULT_INFO_CAUSE (dj hF))) (off_LOOP_FAULT_INFO_LANES (dj hF))
    try clear_value s
    exact held_flag (dj hF) (held_raise (dj hF) (held_tellSafety (dj hF) ‹_›)) (off_LOOP_EVENT_STATUS_HALTED (dj hF))
  · assumption
theorem held_loopFault {s k cause} (hF : Dj F 0x1001100020100b) (hs : Held b0 F s) : Held b0 F (State.loopFault s k cause) := by
  unfold State.loopFault
  extract_lets -merge -underBinder +onlyGivenNames s
  have hs : Held b0 F s := held_wr (dj hF) (held_wr (dj hF) (held_inc (dj hF) ‹_› (off_LOOP_FAULTS (dj hF))) (off_LOOP_FAULT_INFO_CAUSE (dj hF))) (off_LOOP_FAULT_INFO_LANES (dj hF))
  try clear_value s
  extract_lets -merge -underBinder +onlyGivenNames s
  have hs : Held b0 F s := held_modSlot (dj hF) (held_wr (dj hF) ‹_› (off_LOOP_FAULT_INFO_SLOT (dj hF)))
  try clear_value s
  extract_lets -merge -underBinder +onlyGivenNames s
  have hs : Held b0 F s := held_tellSafety (dj hF) (held_modLoop (dj hF) ‹_›)
  try clear_value s
  exact held_flag (dj hF) (held_raise (dj hF) ‹_›) (off_LOOP_EVENT_STATUS_LOOP_FAULT (dj hF))
theorem held_applyStaged {s} (hF : Dj F 0x10000801029) (hs : Held b0 F s) : Held b0 F (State.applyStaged s) := by
  unfold State.applyStaged
  extract_lets -merge -underBinder +onlyGivenNames l
  try clear_value l
  extract_lets -merge -underBinder +onlyGivenNames q
  try clear_value q
  extract_lets -merge -underBinder +onlyGivenNames hosts
  try clear_value hosts
  extract_lets -merge -underBinder +onlyGivenNames s
  have hs : Held b0 F s := held_modLoop (dj hF) ‹_›
  try clear_value s
  extract_lets -merge -underBinder +onlyGivenNames s
  have hs : Held b0 F s := by
    unfold s
    refine foldl_ind (Q := Held b0 F) (fun s _ hs => ?_) ?_
    · exact held_allLanes (dj hF) ‹_›
    · assumption
  try clear_value s
  extract_lets -merge -underBinder +onlyGivenNames s
  have hs : Held b0 F s := held_incBy (dj hF) ‹_› (off_LOOP_HOST_WRITES (dj hF))
  try clear_value s
  extract_lets -merge -underBinder +onlyGivenNames s
  have hs : Held b0 F s := by
    unfold s
    refine ite_ind (Q := Held b0 F) (fun _ => ?_) (fun _ => ?_)
    · exact held_wr (dj hF) (held_wrB (dj hF) ‹_› (off_LOOP_SIG_WRITE_STATUS_PENDING (dj hF))) (off_LOOP_SIG_WRITE_STATUS_RESULT (dj hF))
    · assumption
  try clear_value s
  refine foldl_ind (Q := Held b0 F) (fun s _ hs => ?_) ?_
  · exact held_complete (dj hF) ‹_›
  · assumption
theorem held_markLane {s k slot kind} (hF : Dj F 0x1001100020100b) (hs : Held b0 F s) : Held b0 F (State.markLane s k slot kind) := by
  unfold State.markLane
  extract_lets -merge -underBinder +onlyGivenNames l
  try clear_value l
  refine ite_ind (Q := Held b0 F) (fun _ => ?_) (fun _ => ?_)
  · assumption
  · extract_lets -merge -underBinder +onlyGivenNames t
    try clear_value t
    extract_lets -merge -underBinder +onlyGivenNames marks
    try clear_value marks
    extract_lets -merge -underBinder +onlyGivenNames retire
    try clear_value retire
    extract_lets -merge -underBinder +onlyGivenNames s
    have hs : Held b0 F s := held_modLane (dj hF) ‹_›
    try clear_value s
    extract_lets -merge -underBinder +onlyGivenNames s
    have hs : Held b0 F s := held_flag (dj hF) (held_raise (dj hF) (held_inc (dj hF) ‹_› (off_LOOP_LANE_MISMATCHES (dj hF)))) (off_LOOP_EVENT_STATUS_LANE_MISMATCH (dj hF))
    try clear_value s
    extract_lets -merge -underBinder +onlyGivenNames s
    have hs : Held b0 F s := by
      unfold s
      refine ite_ind (Q := Held b0 F) (fun _ => ?_) (fun _ => ?_)
      · exact held_flag (dj hF) (held_raise (dj hF) ‹_›) (off_LOOP_EVENT_STATUS_LANE_RETIRED (dj hF))
      · assumption
    try clear_value s
    exact held_haltCheck (dj hF) (held_showLanes (dj hF) ‹_›)
theorem held_freshState {s k} (hF : Dj F 0x1000) (hs : Held b0 F s) : Held b0 F (State.freshState s k) := by
  unfold State.freshState
  exact held_allLanes (dj hF) ‹_›
theorem held_latchSig {s r g} (hF : Dj F 0x1000) (hs : Held b0 F s) : Held b0 F (State.latchSig s r g) := by
  unfold State.latchSig
  extract_lets -merge -underBinder +onlyGivenNames v
  try clear_value v
  extract_lets -merge -underBinder +onlyGivenNames park
  try clear_value park
  exact held_setLatch (dj hF) ‹_›
theorem held_runSlot {s k r} (hF : Dj F 0x1001100020100b) (hs : Held b0 F s) : Held b0 F (State.runSlot s k r) := by
  unfold State.runSlot
  extract_lets -merge -underBinder +onlyGivenNames p
  try clear_value p
  extract_lets -merge -underBinder +onlyGivenNames ends
  try clear_value ends
  refine ite_ind (Q := Held b0 F) (fun _ => ?_) (fun _ => ?_)
  · exact held_loopFault (dj hF) ‹_›
  · extract_lets -merge -underBinder +onlyGivenNames votes
    try clear_value votes
    extract_lets -merge -underBinder +onlyGivenNames s
    have hs : Held b0 F s := by
      unfold s
      refine foldl_ind (Q := Held b0 F) (fun s _ hs => ?_) ?_
      · exact held_modLane (dj hF) ‹_›
      · assumption
    try clear_value s
    split
    · exact held_loopFault (dj hF) ‹_›
    · extract_lets -merge -underBinder +onlyGivenNames s
      have hs : Held b0 F s := by
        unfold s
        refine foldl_ind (Q := Held b0 F) (fun s _ hs => ?_) ?_
        · refine ite_ind (Q := Held b0 F) (fun _ => ?_) (fun _ => ?_)
          · assumption
          · exact held_markLane (dj hF) ‹_›
        · assumption
      try clear_value s
      split
      · exact held_discardRun (dj hF) ‹_›
      · exact held_countRun (dj hF) ‹_›
theorem held_wakeSlots {s} (hF : Dj F 0x1000) (hs : Held b0 F s) : Held b0 F (State.wakeSlots s) := by
  unfold State.wakeSlots
  refine foldl_ind (Q := Held b0 F) (fun s _ hs => ?_) ?_
  · exact held_freshState (dj hF) ‹_›
  · assumption
theorem held_boundarySets {s} (hF : Dj F 0x10000001001) (hs : Held b0 F s) : Held b0 F (State.boundarySets s) := by
  unfold State.boundarySets
  extract_lets -merge -underBinder +onlyGivenNames l
  try clear_value l
  extract_lets -merge -underBinder +onlyGivenNames s
  have hs : Held b0 F s := held_modLoop (dj hF) ‹_›
  try clear_value s
  extract_lets -merge -underBinder +onlyGivenNames s
  have hs : Held b0 F s := by
    unfold s
    refine foldl_ind (Q := Held b0 F) (fun s _ hs => ?_) ?_
    · refine held_freshState (dj hF) ?_
      refine foldl_ind (Q := Held b0 F) (fun s _ hs => ?_) ?_
      · exact held_allLanes (dj hF) ‹_›
      · assumption
    · assumption
  try clear_value s
  extract_lets -merge -underBinder +onlyGivenNames s
  have hs : Held b0 F s := by
    unfold s
    refine foldl_ind (Q := Held b0 F) (fun s _ hs => ?_) ?_
    · exact held_allLanes (dj hF) ‹_›
    · assumption
  try clear_value s
  refine foldl_ind (Q := Held b0 F) (fun s _ hs => ?_) ?_
  · exact held_modSlot (dj hF) (held_freshState (dj hF) ‹_›)
  · assumption
theorem held_voteSig {s r g} (hF : Dj F 0x1001100020100b) (hs : Held b0 F s) : Held b0 F (State.voteSig s r g) := by
  unfold State.voteSig
  split
  · refine foldl_ind (Q := Held b0 F) (fun s _ hs => ?_) ?_
    · exact held_markLane (dj hF) ‹_›
    · assumption
  · refine ite_ind (Q := Held b0 F) (fun _ => ?_) (fun _ => ?_)
    · refine ite_ind (Q := Held b0 F) (fun _ => ?_) (fun _ => ?_)
      · assumption
      · exact held_loopFault (dj hF) ‹_›
    · exact held_foreignFault (dj hF) ‹_›
theorem held_latchGroup {s g} (hF : Dj F 0x1001100020100b) (hs : Held b0 F s) : Held b0 F (State.latchGroup s g) := by
  unfold State.latchGroup
  extract_lets -merge -underBinder +onlyGivenNames sigs
  try clear_value sigs
  extract_lets -merge -underBinder +onlyGivenNames s
  have hs : Held b0 F s := by
    unfold s
    refine ite_ind (Q := Held b0 F) (fun _ => ?_) (fun _ => ?_)
    · assumption
    · refine foldl_ind (Q := Held b0 F) (fun s _ hs => ?_) ?_
      · exact held_voteSig (dj hF) ‹_›
      · assumption
  try clear_value s
  extract_lets -merge -underBinder +onlyGivenNames bad
  try clear_value bad
  extract_lets -merge -underBinder +onlyGivenNames s
  have hs : Held b0 F s := by
    unfold s
    refine foldl_ind (Q := Held b0 F) (fun s _ hs => ?_) ?_
    · exact held_latchSig (dj hF) ‹_›
    · assumption
  try clear_value s
  extract_lets -merge -underBinder +onlyGivenNames parked
  try clear_value parked
  extract_lets -merge -underBinder +onlyGivenNames s
  have hs : Held b0 F s := held_wrB (dj hF) (held_wrB (dj hF) ‹_› (off_LOOP_GROUP_STATUS_PARKED_STATE (dj hF))) (off_LOOP_GROUP_STATUS_PARKED_FAULT (dj hF))
  try clear_value s
  extract_lets -merge -underBinder +onlyGivenNames s
  have hs : Held b0 F s := held_wrB (dj hF) ‹_› (off_LOOP_PARKED_GROUPS (dj hF))
  try clear_value s
  refine ite_ind (Q := Held b0 F) (fun _ => ?_) (fun _ => ?_)
  · assumption
  · exact held_inc (dj hF) ‹_› (off_LOOP_GROUP_LATCHES (dj hF))
theorem held_tickItem {s x} (hF : Dj F 0x1001100020100b) (hs : Held b0 F s) : Held b0 F (State.tickItem s x) := by
  unfold State.tickItem
  split
  · refine ite_ind (Q := Held b0 F) (fun _ => ?_) (fun _ => ?_)
    · assumption
    · exact held_runSlot (dj hF) ‹_›
  · exact held_latchGroup (dj hF) ‹_›
theorem held_engineTick {s caps upsets} (hF : Dj F 0x10011000a0102b) (hs : Held b0 F s) : Held b0 F (State.engineTick s caps upsets) := by
  unfold State.engineTick
  refine ite_ind (Q := Held b0 F) (fun _ => ?_) (fun _ => ?_)
  · refine foldl_ind (Q := Held b0 F) (fun _ _ hs => ?_) ?_
    · exact held_latchGroup (dj hF) ‹_›
    · exact held_applyStaged (dj hF) (held_modLoop (dj hF) ‹_›)
  · extract_lets -merge -underBinder +onlyGivenNames s
    have hs : Held b0 F s := by
      unfold s
      refine ite_ind (Q := Held b0 F) (fun _ => ?_) (fun _ => ?_)
      · exact held_wr (dj hF) ‹_› (off_LOOP_STATUS_ENGINE (dj hF))
      · assumption
    try clear_value s
    extract_lets -merge -underBinder +onlyGivenNames s
    have hs : Held b0 F s := held_boundarySets (dj hF) (held_rebuild (dj hF) (held_modLoop (dj hF) ‹_›))
    try clear_value s
    extract_lets -merge -underBinder +onlyGivenNames s
    have hs : Held b0 F s := by
      unfold s
      refine foldl_ind (Q := Held b0 F) (fun s _ hs => ?_) ?_
      · exact held_allLanes (dj hF) ‹_›
      · assumption
    try clear_value s
    extract_lets -merge -underBinder +onlyGivenNames s
    have hs : Held b0 F s := held_applyStaged (dj hF) ‹_›
    try clear_value s
    extract_lets -merge -underBinder +onlyGivenNames s
    have hs : Held b0 F s := by
      unfold s
      refine foldl_ind (Q := Held b0 F) (fun s _ hs => ?_) ?_
      · exact held_modLane (dj hF) ‹_›
      · assumption
    try clear_value s
    extract_lets -merge -underBinder +onlyGivenNames s
    have hs : Held b0 F s := by
      unfold s
      refine foldl_ind (Q := Held b0 F) (fun s _ hs => ?_) ?_
      · exact held_tickItem (dj hF) ‹_›
      · assumption
    try clear_value s
    exact held_showLanes (dj hF) (held_copyWindow (dj hF) ‹_›)

end Sys2Proof.Machine
end

