-- ==== Sys2Proof/Laws/KeptLoop.lean ====
section
/-!
SUPPORT. The operations of Machine/Loop.lean change only the parts that their masks name (Laws/Held.lean).
-/
namespace Sys2Proof.Machine
open Sys2Proof
set_option Elab.async false

variable {b0 : State} {F : Nat}

theorem held_syncTo {s st} (hF : Dj F 0x1001100020000b) (hs : Held b0 F s) : Held b0 F (State.syncTo s st) := by
  unfold State.syncTo
  refine ite_ind (Q := Held b0 F) (fun _ => ?_) (fun _ => ?_)
  · assumption
  · extract_lets -merge -underBinder +onlyGivenNames s
    have hs : Held b0 F s := held_flag (dj hF) (held_wr (dj hF) ‹_› (off_LOOP_SYNC_STATUS_STATE (dj hF))) (off_LOOP_EVENT_STATUS_SYNC_CHANGE (dj hF))
    try clear_value s
    extract_lets -merge -underBinder +onlyGivenNames d
    try clear_value d
    refine ite_ind (Q := Held b0 F) (fun _ => ?_) (fun _ => ?_)
    · exact held_raise (dj hF) ‹_›
    · exact held_post (dj hF) ‹_›
theorem held_restartSlot {q c s} (hF : Dj F 0x801028) (hs : Held b0 F s) : Held b0 F (State.restartSlot q c s) := by
  unfold State.restartSlot
  extract_lets -merge -underBinder +onlyGivenNames k
  try clear_value k
  refine ite_ind (Q := Held b0 F) (fun _ => ?_) (fun _ => ?_)
  · exact held_complete (dj hF) ‹_›
  · refine ite_ind (Q := Held b0 F) (fun _ => ?_) (fun _ => ?_)
    · exact held_complete (dj hF) (held_modLoop (dj hF) ‹_›)
    · exact held_complete (dj hF) ‹_›
theorem held_execRestartSlot {q s} (hF : Dj F 0x801028) (hs : Held b0 F s) : HeldR b0 F (execRestartSlot q s) := by
  unfold execRestartSlot
  refine held_onCmd (dj hF) ?_ ?_
  · assumption
  · intro y0 y1 hy1
    exact held_restartSlot (dj hF) ‹_›
theorem held_endTick {s cycle} (hF : Dj F 0x1000) (hs : Held b0 F s) : Held b0 F (State.endTick s cycle) := by
  unfold State.endTick
  exact held_modLoop (dj hF) ‹_›
theorem held_syncRuns {s early missed} (hF : Dj F 0x1001100020000b) (hs : Held b0 F s) : Held b0 F (State.syncRuns s early missed) := by
  unfold State.syncRuns
  extract_lets -merge -underBinder +onlyGivenNames s
  have hs : Held b0 F s := held_wr (dj hF) (held_wr (dj hF) ‹_› (off_LOOP_SYNC_STATUS_EARLY_RUN (dj hF))) (off_LOOP_SYNC_STATUS_MISSED_RUN (dj hF))
  try clear_value s
  refine ite_ind (Q := Held b0 F) (fun _ => ?_) (fun _ => ?_)
  · exact held_syncTo (dj hF) ‹_›
  · assumption
theorem held_execLoopClearCounters {sess key s} (hF : Dj F 0x10000001001) (hs : Held b0 F s) : HeldR b0 F (execLoopClearCounters sess key s) := by
  unfold execLoopClearCounters
  exact ite_ind (Q := HeldR b0 F) (fun _ => heldR_next (held_modLoop (dj hF) (held_clearAt 8 (dj hF) (dj hF) (by decide) (by decide) hs))) (fun _ => heldR_next hs)
theorem held_hostRefused {s} (hF : Dj F 0x11000200009) (hs : Held b0 F s) : Held b0 F (State.hostRefused s) := by
  unfold State.hostRefused
  exact held_flag (dj hF) (held_inc (dj hF) ‹_› (off_LOOP_HOST_REFUSED (dj hF))) (off_LOOP_EVENT_STATUS_HOST_WRITE_REFUSED (dj hF))
theorem held_execSyncEdge {cycle s} (hF : Dj F 0x1001100020100b) (hs : Held b0 F s) : HeldR b0 F (execSyncEdge cycle s) := by
  unfold execSyncEdge
  refine ite_ind (Q := HeldR b0 F) (fun _ => ?_) (fun _ => ?_)
  · exact heldR_next ‹_›
  · refine ite_ind (Q := HeldR b0 F) (fun _ => ?_) (fun _ => ?_)
    · refine ite_ind (Q := HeldR b0 F) (fun _ => ?_) (fun _ => ?_)
      · exact heldR_next (held_syncTo (dj hF) (held_endTick (dj hF) ‹_›))
      · exact heldR_next ‹_›
    · refine ite_ind (Q := HeldR b0 F) (fun _ => ?_) (fun _ => ?_)
      · refine ite_ind (Q := HeldR b0 F) (fun _ => ?_) (fun _ => ?_)
        · exact heldR_next (held_syncRuns (dj hF) (held_modLoop (dj hF) (held_inc (dj hF) ‹_› (off_LOOP_SYNC_EARLY (dj hF)))))
        · refine ite_ind (Q := HeldR b0 F) (fun _ => ?_) (fun _ => ?_)
          · exact heldR_next (held_syncRuns (dj hF) (held_endTick (dj hF) ‹_›))
          · exact heldR_next ‹_›
      · exact heldR_next ‹_›
theorem held_setSignals {q c s} (hF : Dj F 0x11000a01029) (hs : Held b0 F s) : Held b0 F (State.setSignals q c s) := by
  unfold State.setSignals
  extract_lets -merge -underBinder +onlyGivenNames n
  try clear_value n
  extract_lets -merge -underBinder +onlyGivenNames es
  try clear_value es
  refine ite_ind (Q := Held b0 F) (fun _ => ?_) (fun _ => ?_)
  · exact held_complete (dj hF) ‹_›
  · split
    · exact held_complete (dj hF) (held_hostRefused (dj hF) ‹_›)
    · refine held_modLoop (dj hF) ?_
      refine foldl_ind (Q := Held b0 F) (fun s _ hs => ?_) ?_
      · exact held_stageSig (dj hF) ‹_›
      · assumption
theorem held_clearPwmLatch {s v} (hF : Dj F 0x21000200009) (hs : Held b0 F s) : Held b0 F (State.clearPwmLatch s v) := by
  unfold State.clearPwmLatch
  extract_lets -merge -underBinder +onlyGivenNames keep
  try clear_value keep
  refine held_showPwm (dj hF) ?_
  refine foldl_ind (Q := Held b0 F) (fun s _ hs => ?_) ?_
  · refine ite_ind (Q := Held b0 F) (fun _ => ?_) (fun _ => ?_)
    · exact held_wrB (dj hF) ‹_› (off_PWM_FAULT_STATUS_LATCHED (dj hF))
    · assumption
  · assumption
theorem held_pwmFault {s i} (hF : Dj F 0x1002100020000b) (hs : Held b0 F s) : Held b0 F (State.pwmFault s i) := by
  unfold State.pwmFault
  extract_lets -merge -underBinder +onlyGivenNames before
  try clear_value before
  extract_lets -merge -underBinder +onlyGivenNames latched
  try clear_value latched
  extract_lets -merge -underBinder +onlyGivenNames s
  have hs : Held b0 F s := held_wrB (dj hF) (held_wrB (dj hF) ‹_› (off_PWM_FAULT_STATUS_ACTIVE (dj hF))) (off_PWM_FAULT_STATUS_LATCHED (dj hF))
  try clear_value s
  extract_lets -merge -underBinder +onlyGivenNames off
  try clear_value off
  extract_lets -merge -underBinder +onlyGivenNames s
  have hs : Held b0 F s := by
    unfold s
    refine ite_ind (Q := Held b0 F) (fun _ => ?_) (fun _ => ?_)
    · assumption
    · exact held_flag (dj hF) (held_raise (dj hF) (held_inc (dj hF) ‹_› (off_PWM_FAULT_COUNT (dj hF)))) (off_PWM_EVENT_STATUS_FAULT_INPUT (dj hF))
  try clear_value s
  exact held_showPwm (dj hF) (held_acqSource (dj hF) ‹_›)
theorem held_execPwmClearCounters {sess key s} (hF : Dj F 0x20000000001) (hs : Held b0 F s) : HeldR b0 F (execPwmClearCounters sess key s) := by
  unfold execPwmClearCounters
  exact ite_ind (Q := HeldR b0 F) (fun _ => heldR_next (held_clearAt 9 (dj hF) (dj hF) (by decide) (by decide) hs)) (fun _ => heldR_next hs)
theorem held_execSyncArm {sess key s} (hF : Dj F 0x1001100020000b) (hs : Held b0 F s) : HeldR b0 F (execSyncArm sess key s) := by
  unfold execSyncArm
  refine ite_ind (Q := HeldR b0 F) (fun _ => ?_) (fun _ => ?_)
  · exact heldR_next (held_syncTo (dj hF) (held_wr (dj hF) (held_syncRuns (dj hF) ‹_›) (off_LOOP_SYNC_STATUS_PERIOD (dj hF))))
  · exact heldR_next ‹_›
theorem held_execSyncLateLimit {s} (hF : Dj F 0x1001100020100b) (hs : Held b0 F s) : HeldR b0 F (execSyncLateLimit s) := by
  unfold execSyncLateLimit
  refine ite_ind (Q := HeldR b0 F) (fun _ => ?_) (fun _ => ?_)
  · exact heldR_next (held_syncRuns (dj hF) (held_endTick (dj hF) (held_inc (dj hF) ‹_› (off_LOOP_SYNC_MISSED (dj hF)))))
  · exact heldR_next ‹_›
theorem held_execSyncDisarm {sess key s} (hF : Dj F 0x1001100020000b) (hs : Held b0 F s) : HeldR b0 F (execSyncDisarm sess key s) := by
  unfold execSyncDisarm
  refine ite_ind (Q := HeldR b0 F) (fun _ => ?_) (fun _ => ?_)
  · exact heldR_next (held_syncTo (dj hF) (held_syncRuns (dj hF) ‹_›))
  · exact heldR_next ‹_›
theorem held_execSetSignals {q s} (hF : Dj F 0x11000a01029) (hs : Held b0 F s) : HeldR b0 F (execSetSignals q s) := by
  unfold execSetSignals
  refine held_onCmd (dj hF) ?_ ?_
  · assumption
  · intro y0 y1 hy1
    exact held_setSignals (dj hF) ‹_›
theorem held_execPwmFaultLatchClear {sess value s} (hF : Dj F 0x21000200009) (hs : Held b0 F s) : HeldR b0 F (execPwmFaultLatchClear sess value s) := by
  unfold execPwmFaultLatchClear
  refine ite_ind (Q := HeldR b0 F) (fun _ => ?_) (fun _ => ?_)
  · exact heldR_next (held_clearPwmLatch (dj hF) ‹_›)
  · exact heldR_next ‹_›
theorem held_sigWrite {s sess v} (hF : Dj F 0x11000201009) (hs : Held b0 F s) : Held b0 F (State.sigWrite s sess v) := by
  unfold State.sigWrite
  extract_lets -merge -underBinder +onlyGivenNames sig
  try clear_value sig
  extract_lets -merge -underBinder +onlyGivenNames bad
  try clear_value bad
  refine ite_ind (Q := Held b0 F) (fun _ => ?_) (fun _ => ?_)
  · exact held_wrB (dj hF) (held_wr (dj hF) (held_stageSig (dj hF) ‹_›) (off_LOOP_SIG_WRITE_STATUS_RESULT (dj hF))) (off_LOOP_SIG_WRITE_STATUS_PENDING (dj hF))
  · exact held_hostRefused (dj hF) (held_wr (dj hF) ‹_› (off_LOOP_SIG_WRITE_STATUS_RESULT (dj hF)))
theorem held_execPwmFaultInput {i active s} (hF : Dj F 0x1002100020000b) (hs : Held b0 F s) : HeldR b0 F (execPwmFaultInput i active s) := by
  unfold execPwmFaultInput
  refine ite_ind (Q := HeldR b0 F) (fun _ => ?_) (fun _ => ?_)
  · exact heldR_next ‹_›
  · refine ite_ind (Q := HeldR b0 F) (fun _ => ?_) (fun _ => ?_)
    · exact heldR_next (held_pwmFault (dj hF) ‹_›)
    · exact heldR_next (held_wrB (dj hF) ‹_› (off_PWM_FAULT_STATUS_ACTIVE (dj hF)))
theorem held_execLoopSigWrite {sess value s} (hF : Dj F 0x11000201009) (hs : Held b0 F s) : HeldR b0 F (execLoopSigWrite sess value s) := by
  unfold execLoopSigWrite
  refine ite_ind (Q := HeldR b0 F) (fun _ => ?_) (fun _ => ?_)
  · exact heldR_next (held_sigWrite (dj hF) ‹_›)
  · exact heldR_next ‹_›

end Sys2Proof.Machine
end

