-- ==== Sys2Proof/Laws/KeptPosOps.lean ====
section
/-!
SUPPORT. The operations of Machine/PosOps.lean change only the parts that their masks name (Laws/Held.lean).
-/
namespace Sys2Proof.Machine
open Sys2Proof
set_option Elab.async false

variable {b0 : State} {F : Nat}

theorem held_addSat {s f n} (hF : Dj F 0x1) (hs : Held b0 F s) (hf : Off F f) : Held b0 F (addSat s f n) := by
  unfold addSat
  exact held_wr (dj hF) ‹_› ‹_›
theorem held_setQuality {s c q} (hF : Dj F 0x1020100020000b) (hs : Held b0 F s) : Held b0 F (State.setQuality s c q) := by
  unfold State.setQuality
  refine ite_ind (Q := Held b0 F) (fun _ => ?_) (fun _ => ?_)
  · assumption
  · exact held_flag (dj hF) (held_raise (dj hF) (held_wr (dj hF) ‹_› (off_POS_STATUS_QUALITY (dj hF)))) (off_POS_EVENT_STATUS_QUALITY_CHANGE (dj hF))
theorem held_setCh {s c x} (hF : Dj F 0x2000) (hs : Held b0 F s) : Held b0 F (State.setCh s c x) := by
  unfold State.setCh
  exact held_mk_pos (dj hF) ‹_›
theorem held_showPos {s c} (hF : Dj F 0x200000000001) (hs : Held b0 F s) : Held b0 F (State.showPos s c) := by
  unfold State.showPos
  extract_lets -merge -underBinder +onlyGivenNames x
  try clear_value x
  extract_lets -merge -underBinder +onlyGivenNames s
  have hs : Held b0 F s := held_wrS48 (dj hF) (held_wrS48 (dj hF) (held_wrS48 (dj hF) ‹_› (off_POS_FUSED_LO (dj hF))) (off_POS_MOTOR_COUNT_LO (dj hF))) (off_POS_TARGET_LO (dj hF))
  try clear_value s
  extract_lets -merge -underBinder +onlyGivenNames s
  have hs : Held b0 F s := held_wrR (dj hF) (held_wrS48 (dj hF) ‹_› (off_POS_REFERENCE_LO (dj hF))) (off_POS_VELOCITY (dj hF))
  try clear_value s
  exact held_wrR (dj hF) ‹_› (off_POS_MOTOR_VELOCITY (dj hF))
theorem held_wrapped {s c f} (hF : Dj F 0x1020100020000b) (hs : Held b0 F s) (hf : Off F f) : Held b0 F (State.wrapped s c f) := by
  unfold State.wrapped
  exact held_flag (dj hF) (held_raise (dj hF) (held_wrB (dj hF) ‹_› ‹_›)) (off_POS_EVENT_STATUS_WRAP (dj hF))
theorem held_emulate {s c r} (hF : Dj F 0x200000002001) (hs : Held b0 F s) : Held b0 F (State.emulate s c r) := by
  unfold State.emulate
  extract_lets -merge -underBinder +onlyGivenNames on
  try clear_value on
  extract_lets -merge -underBinder +onlyGivenNames lines
  try clear_value lines
  extract_lets -merge -underBinder +onlyGivenNames x
  try clear_value x
  extract_lets -merge -underBinder +onlyGivenNames want
  try clear_value want
  extract_lets -merge -underBinder +onlyGivenNames d
  try clear_value d
  extract_lets -merge -underBinder +onlyGivenNames excess
  try clear_value excess
  extract_lets -merge -underBinder +onlyGivenNames s
  have hs : Held b0 F s := by
    unfold s
    refine ite_ind (Q := Held b0 F) (fun _ => ?_) (fun _ => ?_)
    · exact held_setCh (dj hF) ‹_›
    · assumption
  try clear_value s
  extract_lets -merge -underBinder +onlyGivenNames s
  have hs : Held b0 F s := held_wr (dj hF) (held_wrB (dj hF) (held_wrB (dj hF) ‹_› (off_POS_STATUS_EMU_RUNNING (dj hF))) (off_POS_EMU_STATUS_RUNNING (dj hF))) (off_POS_EMU_STATUS_LINES (dj hF))
  try clear_value s
  refine ite_ind (Q := Held b0 F) (fun _ => ?_) (fun _ => ?_)
  · exact held_wrB (dj hF) ‹_› (off_POS_EMU_STATUS_OVERRUN (dj hF))
  · assumption
theorem held_dropTarget {s c} (hF : Dj F 0x80000000001) (hs : Held b0 F s) : Held b0 F (State.dropTarget s c) := by
  unfold State.dropTarget
  exact held_wrB (dj hF) ‹_› (off_CAR_NEXT_STOP_VALID (dj hF))
theorem held_modCh {s c f} (hF : Dj F 0x2000) (hs : Held b0 F s) : Held b0 F (State.modCh s c f) := by
  unfold State.modCh
  exact held_setCh (dj hF) ‹_›
theorem held_correct {s c d} (hF : Dj F 0x2000) (hs : Held b0 F s) : Held b0 F (State.correct s c d) := by
  unfold State.correct
  exact held_modCh (dj hF) ‹_›
theorem held_writeTarget {s c l entrance} (hF : Dj F 0x80000002001) (hs : Held b0 F s) : Held b0 F (State.writeTarget s c l entrance) := by
  unfold State.writeTarget
  refine ite_ind (Q := Held b0 F) (fun _ => ?_) (fun _ => ?_)
  · assumption
  · extract_lets -merge -underBinder +onlyGivenNames s
    have hs : Held b0 F s := held_modCh (dj hF) ‹_›
    try clear_value s
    exact held_wrB (dj hF) (held_wr (dj hF) (held_wr (dj hF) ‹_› (off_CAR_NEXT_STOP_LANDING (dj hF))) (off_CAR_NEXT_STOP_ENTRANCE (dj hF))) (off_CAR_NEXT_STOP_VALID (dj hF))
theorem held_observeSlip {s c r} (hF : Dj F 0x1020100020200b) (hs : Held b0 F s) : Held b0 F (State.observeSlip s c r) := by
  unfold State.observeSlip
  extract_lets -merge -underBinder +onlyGivenNames x
  try clear_value x
  split
  · exact held_modCh (dj hF) ‹_›
  · extract_lets -merge -underBinder +onlyGivenNames motor
    try clear_value motor
    refine ite_ind (Q := Held b0 F) (fun _ => ?_) (fun _ => ?_)
    · assumption
    · extract_lets -merge -underBinder +onlyGivenNames obs
      try clear_value obs
      extract_lets -merge -underBinder +onlyGivenNames sl
      try clear_value sl
      extract_lets -merge -underBinder +onlyGivenNames s
      have hs : Held b0 F s := held_wrR (dj hF) (held_setCh (dj hF) ‹_›) (off_POS_SLIP (dj hF))
      try clear_value s
      refine ite_ind (Q := Held b0 F) (fun _ => ?_) (fun _ => ?_)
      · exact held_flag (dj hF) (held_raise (dj hF) ‹_›) (off_POS_EVENT_STATUS_SLIP_HIGH (dj hF))
      · assumption
theorem held_posLatch {s c ran} (hF : Dj F 0x2000) (hs : Held b0 F s) : Held b0 F (State.posLatch s c ran) := by
  unfold State.posLatch
  extract_lets -merge -underBinder +onlyGivenNames inc
  try clear_value inc
  extract_lets -merge -underBinder +onlyGivenNames s
  have hs : Held b0 F s := held_modCh (dj hF) ‹_›
  try clear_value s
  refine ite_ind (Q := Held b0 F) (fun _ => ?_) (fun _ => ?_)
  · exact held_modCh (dj hF) ‹_›
  · assumption
theorem held_degrade {s c} (hF : Dj F 0x1020100020200b) (hs : Held b0 F s) : Held b0 F (State.degrade s c) := by
  unfold State.degrade
  refine ite_ind (Q := Held b0 F) (fun _ => ?_) (fun _ => ?_)
  · exact held_setQuality (dj hF) (held_modCh (dj hF) ‹_›)
  · assumption
theorem held_markMiss {s c r} (hF : Dj F 0x1020100020200b) (hs : Held b0 F s) : Held b0 F (State.markMiss s c r) := by
  unfold State.markMiss
  extract_lets -merge -underBinder +onlyGivenNames x
  try clear_value x
  extract_lets -merge -underBinder +onlyGivenNames ds
  try clear_value ds
  extract_lets -merge -underBinder +onlyGivenNames s
  have hs : Held b0 F s := held_wrB (dj hF) (held_setCh (dj hF) ‹_›) (off_POS_STATUS_MARGIN_ACTIVE (dj hF))
  try clear_value s
  extract_lets -merge -underBinder +onlyGivenNames s
  have hs : Held b0 F s := held_flag (dj hF) (held_raise (dj hF) (held_inc (dj hF) ‹_› (off_POS_MARKS_MISSED (dj hF)))) (off_POS_EVENT_STATUS_MARK_MISSED (dj hF))
  try clear_value s
  extract_lets -merge -underBinder +onlyGivenNames s
  have hs : Held b0 F s := held_addSat (dj hF) ‹_› (off_POS_STATUS_MISS_RUN (dj hF))
  try clear_value s
  refine ite_ind (Q := Held b0 F) (fun _ => ?_) (fun _ => ?_)
  · exact held_degrade (dj hF) ‹_›
  · assumption
theorem held_acceptTape {s c r p stamp at'} (hF : Dj F 0x1020100020200b) (hs : Held b0 F s) : Held b0 F (State.acceptTape s c r p stamp at') := by
  unfold State.acceptTape
  extract_lets -merge -underBinder +onlyGivenNames x
  try clear_value x
  extract_lets -merge -underBinder +onlyGivenNames s
  have hs : Held b0 F s := held_wrS48 (dj hF) ‹_› (off_POS_TAPE_LO (dj hF))
  try clear_value s
  refine ite_ind (Q := Held b0 F) (fun _ => ?_) (fun _ => ?_)
  · exact held_setCh (dj hF) ‹_›
  · extract_lets -merge -underBinder +onlyGivenNames rt
    try clear_value rt
    extract_lets -merge -underBinder +onlyGivenNames step
    try clear_value step
    extract_lets -merge -underBinder +onlyGivenNames far
    try clear_value far
    extract_lets -merge -underBinder +onlyGivenNames s
    have hs : Held b0 F s := held_setCh (dj hF) ‹_›
    try clear_value s
    extract_lets -merge -underBinder +onlyGivenNames s
    have hs : Held b0 F s := held_wrR (dj hF) ‹_› (off_POS_TAPE_RESIDUAL (dj hF))
    try clear_value s
    extract_lets -merge -underBinder +onlyGivenNames s
    have hs : Held b0 F s := by
      unfold s
      refine ite_ind (Q := Held b0 F) (fun _ => ?_) (fun _ => ?_)
      · exact held_observeSlip (dj hF) ‹_›
      · assumption
    try clear_value s
    extract_lets -merge -underBinder +onlyGivenNames s
    have hs : Held b0 F s := by
      unfold s
      refine ite_ind (Q := Held b0 F) (fun _ => ?_) (fun _ => ?_)
      · exact held_degrade (dj hF) (held_modCh (dj hF) ‹_›)
      · assumption
    try clear_value s
    refine ite_ind (Q := Held b0 F) (fun _ => ?_) (fun _ => ?_)
    · exact held_setQuality (dj hF) ‹_›
    · assumption
theorem held_sourceFault {s c tape} (hF : Dj F 0x1020100020200b) (hs : Held b0 F s) : Held b0 F (State.sourceFault s c tape) := by
  unfold State.sourceFault
  extract_lets -merge -underBinder +onlyGivenNames f
  have hf : Off F f := off_ite (off_POS_STATUS_TAPE_FAULT (dj hF)) (off_POS_STATUS_MOTOR_FAULT (dj hF))
  try clear_value f
  refine ite_ind (Q := Held b0 F) (fun _ => ?_) (fun _ => ?_)
  · assumption
  · extract_lets -merge -underBinder +onlyGivenNames s
    have hs : Held b0 F s := held_flag (dj hF) (held_raise (dj hF) (held_wrB (dj hF) ‹_› ‹_›)) (off_POS_EVENT_STATUS_SOURCE_FAULT (dj hF))
    try clear_value s
    refine ite_ind (Q := Held b0 F) (fun _ => ?_) (fun _ => ?_)
    · exact held_setQuality (dj hF) ‹_›
    · exact held_degrade (dj hF) ‹_›
theorem held_acceptMark {s c r centre latched} (hF : Dj F 0x1020100020200b) (hs : Held b0 F s) : Held b0 F (State.acceptMark s c r centre latched) := by
  unfold State.acceptMark
  extract_lets -merge -underBinder +onlyGivenNames res
  try clear_value res
  extract_lets -merge -underBinder +onlyGivenNames s
  have hs : Held b0 F s := held_inc (dj hF) (held_correct (dj hF) ‹_›) (off_POS_MARKS_ACCEPTED (dj hF))
  try clear_value s
  extract_lets -merge -underBinder +onlyGivenNames s
  have hs : Held b0 F s := held_wr (dj hF) (held_wrR (dj hF) ‹_› (off_POS_RESIDUAL (dj hF))) (off_POS_STATUS_MISS_RUN (dj hF))
  try clear_value s
  extract_lets -merge -underBinder +onlyGivenNames x
  try clear_value x
  extract_lets -merge -underBinder +onlyGivenNames s
  have hs : Held b0 F s := held_setCh (dj hF) ‹_›
  try clear_value s
  extract_lets -merge -underBinder +onlyGivenNames s
  have hs : Held b0 F s := by
    unfold s
    refine ite_ind (Q := Held b0 F) (fun _ => ?_) (fun _ => ?_)
    · exact held_sourceFault (dj hF) ‹_›
    · assumption
  try clear_value s
  extract_lets -merge -underBinder +onlyGivenNames s
  have hs : Held b0 F s := by
    unfold s
    refine ite_ind (Q := Held b0 F) (fun _ => ?_) (fun _ => ?_)
    · exact held_setQuality (dj hF) ‹_›
    · assumption
  try clear_value s
  exact held_observeSlip (dj hF) ‹_›
theorem held_rejectTape {s c} (hF : Dj F 0x1020100020200b) (hs : Held b0 F s) : Held b0 F (State.rejectTape s c) := by
  unfold State.rejectTape
  extract_lets -merge -underBinder +onlyGivenNames s
  have hs : Held b0 F s := held_modCh (dj hF) (held_addSat (dj hF) ‹_› (off_POS_ERRORS_SSI_REJECTS (dj hF)))
  try clear_value s
  refine ite_ind (Q := Held b0 F) (fun _ => ?_) (fun _ => ?_)
  · exact held_sourceFault (dj hF) ‹_›
  · assumption
theorem held_travelled {s c r old} (hF : Dj F 0x1020100020200b) (hs : Held b0 F s) : Held b0 F (State.travelled s c r old) := by
  unfold State.travelled
  extract_lets -merge -underBinder +onlyGivenNames x
  try clear_value x
  extract_lets -merge -underBinder +onlyGivenNames d
  try clear_value d
  extract_lets -merge -underBinder +onlyGivenNames near
  try clear_value near
  extract_lets -merge -underBinder +onlyGivenNames x
  try clear_value x
  extract_lets -merge -underBinder +onlyGivenNames s
  have hs : Held b0 F s := held_wrB (dj hF) (held_setCh (dj hF) ‹_›) (off_POS_STATUS_MARGIN_ACTIVE (dj hF))
  try clear_value s
  extract_lets -merge -underBinder +onlyGivenNames s
  have hs : Held b0 F s := by
    unfold s
    refine ite_ind (Q := Held b0 F) (fun _ => ?_) (fun _ => ?_)
    · exact held_setQuality (dj hF) ‹_›
    · assumption
  try clear_value s
  split
  · assumption
  · refine ite_ind (Q := Held b0 F) (fun _ => ?_) (fun _ => ?_)
    · exact held_modCh (dj hF) ‹_›
    · exact held_markMiss (dj hF) ‹_›
theorem held_markPulse {s c r a b} (hF : Dj F 0x1020100020200b) (hs : Held b0 F s) : Held b0 F (State.markPulse s c r a b) := by
  unfold State.markPulse
  extract_lets -merge -underBinder +onlyGivenNames lo
  try clear_value lo
  extract_lets -merge -underBinder +onlyGivenNames hi
  try clear_value hi
  extract_lets -merge -underBinder +onlyGivenNames width
  try clear_value width
  refine ite_ind (Q := Held b0 F) (fun _ => ?_) (fun _ => ?_)
  · exact held_flag (dj hF) (held_raise (dj hF) (held_inc (dj hF) ‹_› (off_POS_MARKS_FALSE (dj hF)))) (off_POS_EVENT_STATUS_MARK_FALSE (dj hF))
  · extract_lets -merge -underBinder +onlyGivenNames mid
    try clear_value mid
    split
    · assumption
    · refine ite_ind (Q := Held b0 F) (fun _ => ?_) (fun _ => ?_)
      · exact held_acceptMark (dj hF) ‹_›
      · assumption
theorem held_readTape {s c r frame stamp back} (hF : Dj F 0x1020100020200b) (hs : Held b0 F s) : Held b0 F (State.readTape s c r frame stamp back) := by
  unfold State.readTape
  split
  · exact held_rejectTape (dj hF) ‹_›
  · extract_lets -merge -underBinder +onlyGivenNames p
    try clear_value p
    extract_lets -merge -underBinder +onlyGivenNames x
    try clear_value x
    extract_lets -merge -underBinder +onlyGivenNames bad
    try clear_value bad
    refine ite_ind (Q := Held b0 F) (fun _ => ?_) (fun _ => ?_)
    · exact held_rejectTape (dj hF) ‹_›
    · exact held_acceptTape (dj hF) ‹_›
theorem held_posTick {s moving r m} (hF : Dj F 0x1020100020200b) (hs : Held b0 F s) : Held b0 F (State.posTick s moving r m) := by
  unfold State.posTick
  extract_lets -merge -underBinder +onlyGivenNames c
  try clear_value c
  extract_lets -merge -underBinder +onlyGivenNames x
  try clear_value x
  extract_lets -merge -underBinder +onlyGivenNames x
  try clear_value x
  extract_lets -merge -underBinder +onlyGivenNames dc
  try clear_value dc
  extract_lets -merge -underBinder +onlyGivenNames raw
  try clear_value raw
  extract_lets -merge -underBinder +onlyGivenNames y
  try clear_value y
  extract_lets -merge -underBinder +onlyGivenNames y
  try clear_value y
  extract_lets -merge -underBinder +onlyGivenNames q
  try clear_value q
  extract_lets -merge -underBinder +onlyGivenNames adv
  try clear_value adv
  extract_lets -merge -underBinder +onlyGivenNames y
  try clear_value y
  extract_lets -merge -underBinder +onlyGivenNames s
  have hs : Held b0 F s := held_setCh (dj hF) ‹_›
  try clear_value s
  split
  · extract_lets -merge -underBinder +onlyGivenNames s
    have hs : Held b0 F s := held_modCh (dj hF) ‹_›
    try clear_value s
    extract_lets -merge -underBinder +onlyGivenNames s
    have hs : Held b0 F s := held_wrB (dj hF) ‹_› (off_POS_STATUS_SPEED_BY_COUNT (dj hF))
    try clear_value s
    extract_lets -merge -underBinder +onlyGivenNames s
    have hs : Held b0 F s := held_addSat (dj hF) ‹_› (off_POS_ERRORS_ENC_ERRORS (dj hF))
    try clear_value s
    extract_lets -merge -underBinder +onlyGivenNames s
    have hs : Held b0 F s := held_addSat (dj hF) ‹_› (off_POS_ERRORS_HALL_ERRORS (dj hF))
    try clear_value s
    extract_lets -merge -underBinder +onlyGivenNames s
    have hs : Held b0 F s := by
      unfold s
      refine ite_ind (Q := Held b0 F) (fun _ => ?_) (fun _ => ?_)
      · exact held_wr (dj hF) ‹_› (off_POS_AMPLITUDE (dj hF))
      · assumption
    try clear_value s
    extract_lets -merge -underBinder +onlyGivenNames s
    have hs : Held b0 F s := by
      unfold s
      refine ite_ind (Q := Held b0 F) (fun _ => ?_) (fun _ => ?_)
      · exact held_sourceFault (dj hF) ‹_›
      · assumption
    try clear_value s
    extract_lets -merge -underBinder +onlyGivenNames s
    have hs : Held b0 F s := by
      unfold s
      refine ite_ind (Q := Held b0 F) (fun _ => ?_) (fun _ => ?_)
      · assumption
      · exact held_wrapped (dj hF) ‹_› (off_POS_STATUS_WRAP_MOTOR (dj hF))
    try clear_value s
    extract_lets -merge -underBinder +onlyGivenNames s
    have hs : Held b0 F s := by
      unfold s
      refine ite_ind (Q := Held b0 F) (fun _ => ?_) (fun _ => ?_)
      · assumption
      · exact held_wrapped (dj hF) ‹_› (off_POS_STATUS_WRAP_FUSED (dj hF))
    try clear_value s
    extract_lets -merge -underBinder +onlyGivenNames s
    have hs : Held b0 F s := by
      unfold s
      refine ite_ind (Q := Held b0 F) (fun _ => ?_) (fun _ => ?_)
      · exact held_setQuality (dj hF) ‹_›
      · assumption
    try clear_value s
    exact held_showPos (dj hF) (held_emulate (dj hF) (held_travelled (dj hF) ‹_›))

end Sys2Proof.Machine
end

