-- ==== Sys2Proof/Laws/KeptSafOps.lean ====
section
/-!
SUPPORT. The operations of Machine/SafOps.lean change only the parts that their masks name (Laws/Held.lean).
-/
namespace Sys2Proof.Machine
open Sys2Proof
set_option Elab.async false

variable {b0 : State} {F : Nat}

theorem held_safFigures {s c} (hF : Dj F 0x400000000001) (hs : Held b0 F s) : Held b0 F (State.safFigures s c) := by
  unfold State.safFigures
  extract_lets -merge -underBinder +onlyGivenNames s
  have hs : Held b0 F s := held_wrR (dj hF) (held_wrR (dj hF) ‹_› (off_SAF_CAR_SPEED_ENC (dj hF))) (off_SAF_CAR_SPEED_TAPE (dj hF))
  try clear_value s
  split
  · exact held_wrR (dj hF) ‹_› (off_SAF_CAR_STANDSTILL_MOVE (dj hF))
  · assumption
theorem held_inputFault {s n} (hF : Dj F 0x1040100020000b) (hs : Held b0 F s) : Held b0 F (State.inputFault s n) := by
  unfold State.inputFault
  extract_lets -merge -underBinder +onlyGivenNames s
  have hs : Held b0 F s := held_wrB (dj hF) ‹_› (off_SAF_INPUT_FAULT_LATCH (dj hF))
  try clear_value s
  extract_lets -merge -underBinder +onlyGivenNames f
  try clear_value f
  extract_lets -merge -underBinder +onlyGivenNames d
  try clear_value d
  exact held_flag (dj hF) (held_raise (dj hF) ‹_›) (off_SAF_EVENT_STATUS_INPUT_FAULT (dj hF))
theorem held_showModes {s} (hF : Dj F 0x401200200009) (hs : Held b0 F s) : Held b0 F (State.showModes s) := by
  unfold State.showModes
  extract_lets -merge -underBinder +onlyGivenNames mask
  try clear_value mask
  extract_lets -merge -underBinder +onlyGivenNames snow
  try clear_value snow
  extract_lets -merge -underBinder +onlyGivenNames lat
  try clear_value lat
  extract_lets -merge -underBinder +onlyGivenNames s
  have hs : Held b0 F s := held_wrB (dj hF) (held_wr (dj hF) (held_wr (dj hF) ‹_› (off_SAF_SNOWPLOUGH_CARS (dj hF))) (off_SAF_LATCHED_CARS (dj hF))) (off_SAF_STATUS_ANY_SNOWPLOUGH (dj hF))
  try clear_value s
  exact held_flag (dj hF) (held_wrB (dj hF) (held_wrB (dj hF) ‹_› (off_SAF_STATUS_ANY_LATCHED (dj hF))) (off_PWR_GLIDE_STATUS (dj hF))) (off_SAF_EVENT_STATUS_MODE_CHANGE (dj hF))
theorem held_modSaf {s f} (hF : Dj F 0x4000) (hs : Held b0 F s) : Held b0 F (State.modSaf s f) := by
  unfold State.modSaf
  exact held_mk_saf (dj hF) ‹_›
theorem held_modSafCar {s c f} (hF : Dj F 0x4000) (hs : Held b0 F s) : Held b0 F (State.modSafCar s c f) := by
  unfold State.modSafCar
  exact held_modSaf (dj hF) ‹_›
theorem held_modIn {s i f} (hF : Dj F 0x4000) (hs : Held b0 F s) : Held b0 F (State.modIn s i f) := by
  unfold State.modIn
  exact held_modSaf (dj hF) ‹_›
theorem held_evalFn {s r} (hF : Dj F 0x4000) (hs : Held b0 F s) : Held b0 F (State.evalFn s r) := by
  unfold State.evalFn
  refine ite_ind (Q := Held b0 F) (fun _ => ?_) (fun _ => ?_)
  · assumption
  · extract_lets -merge -underBinder +onlyGivenNames x
    try clear_value x
    extract_lets -merge -underBinder +onlyGivenNames i
    try clear_value i
    extract_lets -merge -underBinder +onlyGivenNames resetIn
    try clear_value resetIn
    extract_lets -merge -underBinder +onlyGivenNames st
    try clear_value st
    extract_lets -merge -underBinder +onlyGivenNames rises
    try clear_value rises
    extract_lets -merge -underBinder +onlyGivenNames y
    try clear_value y
    exact held_modSaf (dj hF) ‹_›
theorem held_measureResponse {s fn cause} (hF : Dj F 0x400001000001) (hs : Held b0 F s) : Held b0 F (State.measureResponse s fn cause) := by
  unfold State.measureResponse
  extract_lets -merge -underBinder +onlyGivenNames b
  try clear_value b
  split
  rename_i p s heq
  have hs : Held b0 F s := held2_eq heq (by
    exact held_drawWord (dj hF) ‹_›
    )
  clear heq
  split
  rename_i h s heq
  have hs : Held b0 F s := held2_eq heq (by
    exact held_drawWord (dj hF) ‹_›
    )
  clear heq
  exact held_wr (dj hF) (held_wr (dj hF) ‹_› (off_SAF_RESPONSE_MAX_PROC (dj hF))) (off_SAF_RESPONSE_MAX_HW (dj hF))
theorem held_safStart {s} (hF : Dj F 0x400000004001) (hs : Held b0 F s) : Held b0 F (State.safStart s) := by
  unfold State.safStart
  extract_lets -merge -underBinder +onlyGivenNames s
  have hs : Held b0 F s := held_modSaf (dj hF) ‹_›
  try clear_value s
  extract_lets -merge -underBinder +onlyGivenNames s
  have hs : Held b0 F s := by
    unfold s
    refine foldl_ind (Q := Held b0 F) (fun s _ hs => ?_) ?_
    · exact held_wr (dj hF) ‹_› (off_SAF_CAR_MODE_MODE (dj hF))
    · assumption
  try clear_value s
  exact held_wrB (dj hF) ‹_› (off_SAF_STATUS_RUNNING (dj hF))
theorem held_latchCar {s c cause} (hF : Dj F 0x1040120020000b) (hs : Held b0 F s) : Held b0 F (State.latchCar s c cause) := by
  unfold State.latchCar
  refine ite_ind (Q := Held b0 F) (fun _ => ?_) (fun _ => ?_)
  · assumption
  · extract_lets -merge -underBinder +onlyGivenNames s
    have hs : Held b0 F s := held_wr (dj hF) (held_wr (dj hF) (held_wr (dj hF) ‹_› (off_SAF_CAR_MODE_MODE (dj hF))) (off_SAF_CAR_MODE_CAUSE (dj hF))) (off_SAF_CAR_MODE_REMAINING_S (dj hF))
    try clear_value s
    exact held_showModes (dj hF) (held_raise (dj hF) ‹_›)
theorem held_limitRelease {s} (hF : Dj F 0x4000) (hs : Held b0 F s) : Held b0 F (State.limitRelease s) := by
  unfold State.limitRelease
  refine foldl_ind (Q := Held b0 F) (fun s _ hs => ?_) ?_
  · extract_lets -merge -underBinder +onlyGivenNames x
    try clear_value x
    refine ite_ind (Q := Held b0 F) (fun _ => ?_) (fun _ => ?_)
    · exact held_modSaf (dj hF) ‹_›
    · assumption
  · assumption
theorem held_showSafCar {s c} (hF : Dj F 0x400000000001) (hs : Held b0 F s) : Held b0 F (State.showSafCar s c) := by
  unfold State.showSafCar
  split
  · extract_lets -merge -underBinder +onlyGivenNames s
    have hs : Held b0 F s := held_wrB (dj hF) (held_wrR (dj hF) (held_wr (dj hF) ‹_› (off_SAF_CAR_STATUS_LIMIT_KIND (dj hF))) (off_SAF_CAR_SPEED_LIMIT (dj hF))) (off_SAF_CAR_STATUS_MAIN_ON (dj hF))
    try clear_value s
    extract_lets -merge -underBinder +onlyGivenNames s
    have hs : Held b0 F s := held_wrB (dj hF) (held_wrB (dj hF) ‹_› (off_SAF_CAR_STATUS_BRAKE_ON (dj hF))) (off_SAF_CAR_STATUS_BYPASS_ON (dj hF))
    try clear_value s
    exact held_wrB (dj hF) ‹_› (off_SAF_CAR_STATUS_RUN_REQUEST (dj hF))
theorem held_evalHands {s c} (hF : Dj F 0x4000) (hs : Held b0 F s) : Held b0 F (State.evalHands s c) := by
  unfold State.evalHands
  split
  · assumption
  · extract_lets -merge -underBinder +onlyGivenNames x
    try clear_value x
    extract_lets -merge -underBinder +onlyGivenNames act
    try clear_value act
    extract_lets -merge -underBinder +onlyGivenNames was
    try clear_value was
    extract_lets -merge -underBinder +onlyGivenNames y
    try clear_value y
    extract_lets -merge -underBinder +onlyGivenNames released
    try clear_value released
    extract_lets -merge -underBinder +onlyGivenNames s
    have hs : Held b0 F s := held_modSafCar (dj hF) ‹_›
    try clear_value s
    extract_lets -merge -underBinder +onlyGivenNames now
    try clear_value now
    exact held_modSafCar (dj hF) ‹_›
theorem held_safTime {s} (hF : Dj F 0x400000000001) (hs : Held b0 F s) : Held b0 F (State.safTime s) := by
  unfold State.safTime
  refine foldl_ind (Q := Held b0 F) (fun s _ hs => ?_) ?_
  · refine ite_ind (Q := Held b0 F) (fun _ => ?_) (fun _ => ?_)
    · extract_lets -merge -underBinder +onlyGivenNames t
      try clear_value t
      exact held_wr (dj hF) ‹_› (off_SAF_CAR_MODE_REMAINING_S (dj hF))
    · assumption
  · assumption
theorem held_showInputs {s} (hF : Dj F 0x400000004001) (hs : Held b0 F s) : Held b0 F (State.showInputs s) := by
  unfold State.showInputs
  extract_lets -merge -underBinder +onlyGivenNames s
  have hs : Held b0 F s := held_modSaf (dj hF) ‹_›
  try clear_value s
  extract_lets -merge -underBinder +onlyGivenNames word
  try clear_value word
  exact held_wr (dj hF) (held_wr (dj hF) ‹_› (off_SAF_INPUT_STATE (dj hF))) (off_SAF_INPUT_FAULT (dj hF))
theorem held_showCarInputs {s c} (hF : Dj F 0x400000004001) (hs : Held b0 F s) : Held b0 F (State.showCarInputs s c) := by
  unfold State.showCarInputs
  extract_lets -merge -underBinder +onlyGivenNames sw
  try clear_value sw
  extract_lets -merge -underBinder +onlyGivenNames zone
  try clear_value zone
  extract_lets -merge -underBinder +onlyGivenNames enters
  try clear_value enters
  extract_lets -merge -underBinder +onlyGivenNames s
  have hs : Held b0 F s := by
    unfold s
    refine ite_ind (Q := Held b0 F) (fun _ => ?_) (fun _ => ?_)
    · exact held_modSafCar (dj hF) ‹_›
    · assumption
  try clear_value s
  extract_lets -merge -underBinder +onlyGivenNames s
  have hs : Held b0 F s := held_wrB (dj hF) (held_wrB (dj hF) ‹_› (off_SAF_CAR_STATUS_INSPECTION (dj hF))) (off_SAF_CAR_STATUS_DOOR_ZONE (dj hF))
  try clear_value s
  exact held_wrB (dj hF) (held_wrB (dj hF) ‹_› (off_SAF_CAR_STATUS_CAR_DOOR (dj hF))) (off_SAF_CAR_STATUS_LANDING_LOCKS (dj hF))
theorem held_safTrip {s c fn cause} (hF : Dj F 0x1040100120000b) (hs : Held b0 F s) : Held b0 F (State.safTrip s c fn cause) := by
  unfold State.safTrip
  extract_lets -merge -underBinder +onlyGivenNames s
  have hs : Held b0 F s := held_measureResponse (dj hF) ‹_›
  try clear_value s
  extract_lets -merge -underBinder +onlyGivenNames d
  try clear_value d
  extract_lets -merge -underBinder +onlyGivenNames s
  have hs : Held b0 F s := held_wr (dj hF) (held_wr (dj hF) (held_inc (dj hF) (held_inc (dj hF) ‹_› (off_SAF_TRIPS (dj hF))) (off_SAF_CAR_TRIPS (dj hF))) (off_SAF_LAST_TRIP_CAUSE (dj hF))) (off_SAF_LAST_TRIP_CAR (dj hF))
  try clear_value s
  extract_lets -merge -underBinder +onlyGivenNames s
  have hs : Held b0 F s := held_wr (dj hF) (held_wr (dj hF) (held_wr (dj hF) ‹_› (off_SAF_LAST_TRIP_FUNCTION (dj hF))) (off_SAF_LAST_TRIP_DETECTED_BY (dj hF))) (off_SAF_LAST_TRIP_TIME (dj hF))
  try clear_value s
  exact held_flag (dj hF) (held_recordTrip (dj hF) (held_post (dj hF) ‹_›)) (off_SAF_EVENT_STATUS_TRIP (dj hF))
theorem held_driveOutput {s n} (hF : Dj F 0x400000204001) (hs : Held b0 F s) : Held b0 F (State.driveOutput s n) := by
  unfold State.driveOutput
  extract_lets -merge -underBinder +onlyGivenNames p
  try clear_value p
  extract_lets -merge -underBinder +onlyGivenNames s
  have hs : Held b0 F s := held_wrB (dj hF) (held_wrB (dj hF) ‹_› (off_SAF_PERMIT_PROC (dj hF))) (off_SAF_PERMIT_HW (dj hF))
  try clear_value s
  refine ite_ind (Q := Held b0 F) (fun _ => ?_) (fun _ => ?_)
  · assumption
  · extract_lets -merge -underBinder +onlyGivenNames c
    try clear_value c
    extract_lets -merge -underBinder +onlyGivenNames s
    have hs : Held b0 F s := held_wrB (dj hF) ‹_› (off_SAF_OUTPUT_STATE (dj hF))
    try clear_value s
    extract_lets -merge -underBinder +onlyGivenNames s
    have hs : Held b0 F s := by
      unfold s
      refine ite_ind (Q := Held b0 F) (fun _ => ?_) (fun _ => ?_)
      · assumption
      · exact held_acqSource (dj hF) ‹_›
    try clear_value s
    extract_lets -merge -underBinder +onlyGivenNames need
    try clear_value need
    extract_lets -merge -underBinder +onlyGivenNames s
    have hs : Held b0 F s := by
      unfold s
      refine ite_ind (Q := Held b0 F) (fun _ => ?_) (fun _ => ?_)
      · exact held_modSaf (dj hF) ‹_›
      · assumption
    try clear_value s
    refine ite_ind (Q := Held b0 F) (fun _ => ?_) (fun _ => ?_)
    · exact held_modSafCar (dj hF) ‹_›
    · assumption
theorem held_snowplough {s c cause} (hF : Dj F 0x1040120020400b) (hs : Held b0 F s) : Held b0 F (State.snowplough s c cause) := by
  unfold State.snowplough
  refine ite_ind (Q := Held b0 F) (fun _ => ?_) (fun _ => ?_)
  · extract_lets -merge -underBinder +onlyGivenNames t
    try clear_value t
    extract_lets -merge -underBinder +onlyGivenNames rest
    try clear_value rest
    extract_lets -merge -underBinder +onlyGivenNames s
    have hs : Held b0 F s := held_wr (dj hF) (held_wr (dj hF) (held_wr (dj hF) ‹_› (off_SAF_CAR_MODE_MODE (dj hF))) (off_SAF_CAR_MODE_CAUSE (dj hF))) (off_SAF_CAR_MODE_REMAINING_S (dj hF))
    try clear_value s
    extract_lets -merge -underBinder +onlyGivenNames s
    have hs : Held b0 F s := held_modSafCar (dj hF) ‹_›
    try clear_value s
    exact held_showModes (dj hF) (held_raise (dj hF) ‹_›)
  · refine ite_ind (Q := Held b0 F) (fun _ => ?_) (fun _ => ?_)
    · exact held_latchCar (dj hF) ‹_›
    · assumption
theorem held_safCarEval {s c} (hF : Dj F 0x1040100120400b) (hs : Held b0 F s) : Held b0 F (State.safCarEval s c) := by
  unfold State.safCarEval
  extract_lets -merge -underBinder +onlyGivenNames s
  have hs : Held b0 F s := held_evalHands (dj hF) (held_showCarInputs (dj hF) ‹_›)
  try clear_value s
  extract_lets -merge -underBinder +onlyGivenNames main
  try clear_value main
  extract_lets -merge -underBinder +onlyGivenNames brake
  try clear_value brake
  extract_lets -merge -underBinder +onlyGivenNames asked
  try clear_value asked
  extract_lets -merge -underBinder +onlyGivenNames s
  have hs : Held b0 F s := held_driveOutput (dj hF) (held_driveOutput (dj hF) (held_driveOutput (dj hF) ‹_›))
  try clear_value s
  extract_lets -merge -underBinder +onlyGivenNames lost
  try clear_value lost
  extract_lets -merge -underBinder +onlyGivenNames s
  have hs : Held b0 F s := by
    unfold s
    split
    · extract_lets -merge -underBinder +onlyGivenNames fr
      try clear_value fr
      refine ite_ind (Q := Held b0 F) (fun _ => ?_) (fun _ => ?_)
      · exact held_safTrip (dj hF) ‹_›
      · assumption
    · assumption
  try clear_value s
  exact held_showSafCar (dj hF) ‹_›
theorem held_safEval {s} (hF : Dj F 0x1040100120400b) (hs : Held b0 F s) : Held b0 F (State.safEval s) := by
  unfold State.safEval
  extract_lets -merge -underBinder +onlyGivenNames s
  have hs : Held b0 F s := held_showInputs (dj hF) ‹_›
  try clear_value s
  extract_lets -merge -underBinder +onlyGivenNames s
  have hs : Held b0 F s := by
    unfold s
    refine foldl_ind (Q := Held b0 F) (fun _ _ hs => ?_) ?_
    · exact held_evalFn (dj hF) ‹_›
    · assumption
  try clear_value s
  refine foldl_ind (Q := Held b0 F) (fun _ _ hs => ?_) ?_
  · exact held_safCarEval (dj hF) ‹_›
  · assumption
theorem held_endRequests {s c} (hF : Dj F 0x1040100120400b) (hs : Held b0 F s) : Held b0 F (State.endRequests s c) := by
  unfold State.endRequests
  exact held_safEval (dj hF) (held_wrB (dj hF) (held_wrB (dj hF) (held_wrB (dj hF) ‹_› (off_SAF_REQUEST (dj hF))) (off_SAF_REQUEST (dj hF))) (off_SAF_REQUEST (dj hF)))

end Sys2Proof.Machine
end

