-- ==== Sys2Proof/Laws/KeptCanOps.lean ====
section
/-!
SUPPORT. The operations of Machine/CanOps.lean change only the parts that their masks name (Laws/Held.lean).
-/
namespace Sys2Proof.Machine
open Sys2Proof
set_option Elab.async false

variable {b0 : State} {F : Nat}

theorem off_canSleep {i} (hF : Dj F 0x1000000000000) : Off F (canSleep i) := off_inst 16 _ _ hF rfl
theorem off_canAbort {i} (hF : Dj F 0x1000000000000) : Off F (canAbort i) := off_inst 16 _ _ hF rfl
theorem off_canLatch {i} (hF : Dj F 0x1000000000000) : Off F (canLatch i) := off_inst 16 _ _ hF rfl
theorem off_canTec {i} (hF : Dj F 0x1000000000000) : Off F (canTec i) := off_inst 16 _ _ hF rfl
theorem off_canRec' {i} (hF : Dj F 0x1000000000000) : Off F (canRec' i) := off_inst 16 _ _ hF rfl
theorem held_showTx {s b} (hF : Dj F 0x1000000000001) (hs : Held b0 F s) : Held b0 F (State.showTx s b) := by
  unfold State.showTx
  exact held_wr (dj hF) ‹_› (off_MBC_TX_PENDING (dj hF))
theorem held_canJudge {s b} (hF : Dj F 0x1100100020000b) (hs : Held b0 F s) : Held b0 F (State.canJudge s b) := by
  unfold State.canJudge
  extract_lets -merge -underBinder +onlyGivenNames passive
  try clear_value passive
  refine ite_ind (Q := Held b0 F) (fun _ => ?_) (fun _ => ?_)
  · exact held_flag (dj hF) (held_raise (dj hF) (held_wr (dj hF) ‹_› (off_MBC_STATUS_STATE (dj hF)))) (off_MBC_EVENT_STATUS_ERROR_PASSIVE (dj hF))
  · refine ite_ind (Q := Held b0 F) (fun _ => ?_) (fun _ => ?_)
    · exact held_wr (dj hF) ‹_› (off_MBC_STATUS_STATE (dj hF))
    · assumption
theorem held_modMbc {s b f} (hF : Dj F 0x8000) (hs : Held b0 F s) : Held b0 F (State.modMbc s b f) := by
  unfold State.modMbc
  exact held_mk_mbc (dj hF) ‹_›
theorem held_canWake {s b} (hF : Dj F 0x1001000208009) (hs : Held b0 F s) : Held b0 F (State.canWake s b) := by
  unfold State.canWake
  refine ite_ind (Q := Held b0 F) (fun _ => ?_) (fun _ => ?_)
  · exact held_flag (dj hF) (held_modMbc (dj hF) (held_wr (dj hF) ‹_› (off_canSleep (dj hF)))) (off_MBC_EVENT_STATUS_SLEEP_CHANGE (dj hF))
  · assumption
theorem held_goBusOff {s b} (hF : Dj F 0x11001000a0802b) (hs : Held b0 F s) : Held b0 F (State.goBusOff s b) := by
  unfold State.goBusOff
  extract_lets -merge -underBinder +onlyGivenNames hosts
  try clear_value hosts
  extract_lets -merge -underBinder +onlyGivenNames s
  have hs : Held b0 F s := held_inc (dj hF) (held_showTx (dj hF) (held_modMbc (dj hF) ‹_›)) (off_MBC_BUS_OFFS (dj hF))
  try clear_value s
  extract_lets -merge -underBinder +onlyGivenNames s
  have hs : Held b0 F s := held_wr (dj hF) ‹_› (off_MBC_STATUS_STATE (dj hF))
  try clear_value s
  extract_lets -merge -underBinder +onlyGivenNames s
  have hs : Held b0 F s := held_flag (dj hF) (held_raise (dj hF) ‹_›) (off_MBC_EVENT_STATUS_BUS_OFF (dj hF))
  try clear_value s
  refine foldl_ind (Q := Held b0 F) (fun s _ hs => ?_) ?_
  · exact held_complete (dj hF) ‹_›
  · assumption
theorem held_stepSeq {s b id} (hF : Dj F 0x8000) (hs : Held b0 F s) : Held b0 F (State.stepSeq s b id) := by
  unfold State.stepSeq
  exact held_modMbc (dj hF) ‹_›
theorem held_canRequest {s b f} (hF : Dj F 0x1001000208009) (hs : Held b0 F s) : Held b0 F (State.canRequest s b f) := by
  unfold State.canRequest
  extract_lets -merge -underBinder +onlyGivenNames st
  try clear_value st
  extract_lets -merge -underBinder +onlyGivenNames x
  try clear_value x
  refine ite_ind (Q := Held b0 F) (fun _ => ?_) (fun _ => ?_)
  · assumption
  · extract_lets -merge -underBinder +onlyGivenNames again
    try clear_value again
    extract_lets -merge -underBinder +onlyGivenNames s
    have hs : Held b0 F s := held_showTx (dj hF) (held_modMbc (dj hF) ‹_›)
    try clear_value s
    extract_lets -merge -underBinder +onlyGivenNames s
    have hs : Held b0 F s := by
      unfold s
      refine ite_ind (Q := Held b0 F) (fun _ => ?_) (fun _ => ?_)
      · exact held_inc (dj hF) ‹_› (off_MBC_TX_SUPERSEDED (dj hF))
      · assumption
    try clear_value s
    refine ite_ind (Q := Held b0 F) (fun _ => ?_) (fun _ => ?_)
    · exact held_canWake (dj hF) ‹_›
    · assumption
theorem held_canHold {s b reason} (hF : Dj F 0x808000) (hs : Held b0 F s) : Held b0 F (State.canHold s b reason) := by
  unfold State.canHold
  extract_lets -merge -underBinder +onlyGivenNames q
  try clear_value q
  extract_lets -merge -underBinder +onlyGivenNames d
  try clear_value d
  extract_lets -merge -underBinder +onlyGivenNames st
  try clear_value st
  refine ite_ind (Q := Held b0 F) (fun _ => ?_) (fun _ => ?_)
  · exact held_send (dj hF) (held_stepSeq (dj hF) ‹_›)
  · assumption
theorem held_canAsleep {s b} (hF : Dj F 0x11001000a0802b) (hs : Held b0 F s) : Held b0 F (State.canAsleep s b) := by
  unfold State.canAsleep
  extract_lets -merge -underBinder +onlyGivenNames q
  try clear_value q
  extract_lets -merge -underBinder +onlyGivenNames s
  have hs : Held b0 F s := held_modMbc (dj hF) (held_wr (dj hF) (held_wr (dj hF) ‹_› (off_canSleep (dj hF))) (off_MBC_STATUS_STATE (dj hF)))
  try clear_value s
  extract_lets -merge -underBinder +onlyGivenNames s
  have hs : Held b0 F s := held_flag (dj hF) (held_raise (dj hF) ‹_›) (off_MBC_EVENT_STATUS_SLEEP_CHANGE (dj hF))
  try clear_value s
  extract_lets -merge -underBinder +onlyGivenNames s
  have hs : Held b0 F s := by
    unfold s
    split
    · exact held_complete (dj hF) ‹_›
    · assumption
  try clear_value s
  refine ite_ind (Q := Held b0 F) (fun _ => ?_) (fun _ => ?_)
  · exact held_canWake (dj hF) ‹_›
  · assumption
theorem held_canCyclic {s b id data} (hF : Dj F 0x1001000208009) (hs : Held b0 F s) : Held b0 F (State.canCyclic s b id data) := by
  unfold State.canCyclic
  exact held_canRequest (dj hF) ‹_›
theorem held_canSend {s b id data} (hF : Dj F 0x1001000208009) (hs : Held b0 F s) : Held b0 F (State.canSend s b id data) := by
  unfold State.canSend
  exact held_canRequest (dj hF) ‹_›
theorem held_sendCanStanding {s b k x} (hF : Dj F 0x1001000208009) (hs : Held b0 F s) : Held b0 F (State.sendCanStanding s b k x) := by
  unfold State.sendCanStanding
  extract_lets -merge -underBinder +onlyGivenNames id
  try clear_value id
  extract_lets -merge -underBinder +onlyGivenNames q
  try clear_value q
  extract_lets -merge -underBinder +onlyGivenNames s
  have hs : Held b0 F s := held_modMbc (dj hF) (held_stepSeq (dj hF) ‹_›)
  try clear_value s
  exact held_canSend (dj hF) ‹_›
theorem held_canAbortSleep {s b reason} (hF : Dj F 0x1001000a08029) (hs : Held b0 F s) : Held b0 F (State.canAbortSleep s b reason) := by
  unfold State.canAbortSleep
  extract_lets -merge -underBinder +onlyGivenNames x
  try clear_value x
  extract_lets -merge -underBinder +onlyGivenNames s
  have hs : Held b0 F s := held_canSend (dj hF) (held_modMbc (dj hF) ‹_›)
  try clear_value s
  extract_lets -merge -underBinder +onlyGivenNames s
  have hs : Held b0 F s := held_flag (dj hF) (held_wr (dj hF) (held_wr (dj hF) ‹_› (off_canSleep (dj hF))) (off_canAbort (dj hF))) (off_MBC_EVENT_STATUS_SLEEP_CHANGE (dj hF))
  try clear_value s
  split
  · exact held_complete (dj hF) ‹_›
  · assumption
theorem held_canStanding {s b k} (hF : Dj F 0x1001000208009) (hs : Held b0 F s) : Held b0 F (State.canStanding s b k) := by
  unfold State.canStanding
  extract_lets -merge -underBinder +onlyGivenNames c
  try clear_value c
  refine ite_ind (Q := Held b0 F) (fun _ => ?_) (fun _ => ?_)
  · assumption
  · extract_lets -merge -underBinder +onlyGivenNames old
    try clear_value old
    extract_lets -merge -underBinder +onlyGivenNames same
    try clear_value same
    extract_lets -merge -underBinder +onlyGivenNames s
    have hs : Held b0 F s := by
      unfold s
      refine ite_ind (Q := Held b0 F) (fun _ => ?_) (fun _ => ?_)
      · assumption
      · exact held_wrB (dj hF) ‹_› (off_MBC_STANDING_ACKED (dj hF))
    try clear_value s
    exact held_sendCanStanding (dj hF) ‹_›
theorem held_busStanding {s b} (hF : Dj F 0x1001000208009) (hs : Held b0 F s) : Held b0 F (State.busStanding s b) := by
  unfold State.busStanding
  refine foldl_ind (Q := Held b0 F) (fun s _ hs => ?_) ?_
  · exact held_canStanding (dj hF) ‹_›
  · assumption
theorem held_canWoke {s b} (hF : Dj F 0x11001000a0802b) (hs : Held b0 F s) : Held b0 F (State.canWoke s b) := by
  unfold State.canWoke
  extract_lets -merge -underBinder +onlyGivenNames q
  try clear_value q
  extract_lets -merge -underBinder +onlyGivenNames s
  have hs : Held b0 F s := held_modMbc (dj hF) (held_wr (dj hF) (held_wrB (dj hF) (held_wr (dj hF) ‹_› (off_canSleep (dj hF))) (off_canLatch (dj hF))) (off_MBC_STATUS_STATE (dj hF)))
  try clear_value s
  extract_lets -merge -underBinder +onlyGivenNames s
  have hs : Held b0 F s := held_flag (dj hF) (held_raise (dj hF) ‹_›) (off_MBC_EVENT_STATUS_SLEEP_CHANGE (dj hF))
  try clear_value s
  extract_lets -merge -underBinder +onlyGivenNames s
  have hs : Held b0 F s := by
    unfold s
    refine held_busStanding (dj hF) ?_
    refine foldl_ind (Q := Held b0 F) (fun s _ hs => ?_) ?_
    · exact held_complete (dj hF) ‹_›
    · assumption
  try clear_value s
  refine ite_ind (Q := Held b0 F) (fun _ => ?_) (fun _ => ?_)
  · exact held_modMbc (dj hF) ‹_›
  · assumption
theorem held_canTick {s b} (hF : Dj F 0x11001000a0802b) (hs : Held b0 F s) : Held b0 F (State.canTick s b) := by
  unfold State.canTick
  extract_lets -merge -underBinder +onlyGivenNames x
  try clear_value x
  extract_lets -merge -underBinder +onlyGivenNames s
  have hs : Held b0 F s := by
    unfold s
    split
    · refine ite_ind (Q := Held b0 F) (fun _ => ?_) (fun _ => ?_)
      · exact held_canAsleep (dj hF) ‹_›
      · assumption
    · assumption
  try clear_value s
  split
  · refine ite_ind (Q := Held b0 F) (fun _ => ?_) (fun _ => ?_)
    · exact held_canWoke (dj hF) ‹_›
    · assumption
  · assumption

end Sys2Proof.Machine
end

