-- ==== Sys2Proof/Laws/KeptCarOps.lean ====
section
/-!
SUPPORT. The operations of Machine/CarOps.lean change only the parts that their masks name (Laws/Held.lean).
-/
namespace Sys2Proof.Machine
open Sys2Proof
set_option Elab.async false

variable {b0 : State} {F : Nat}

theorem held_askFor {s c roles} (hF : Dj F 0x1040100120400b) (hs : Held b0 F s) : Held b0 F (State.askFor s c roles) := by
  unfold State.askFor
  refine held_safEval (dj hF) ?_
  refine foldl_ind (Q := Held b0 F) (fun s _ hs => ?_) ?_
  · exact held_wrB (dj hF) ‹_› (off_SAF_REQUEST (dj hF))
  · assumption
theorem held_modCar {s c f} (hF : Dj F 0x20000) (hs : Held b0 F s) : Held b0 F (State.modCar s c f) := by
  unfold State.modCar
  exact held_mk_car (dj hF) ‹_›
theorem held_creepCheck {s c} (hF : Dj F 0x20000) (hs : Held b0 F s) : Held b0 F (State.creepCheck s c) := by
  unfold State.creepCheck
  extract_lets -merge -underBinder +onlyGivenNames d
  try clear_value d
  refine ite_ind (Q := Held b0 F) (fun _ => ?_) (fun _ => ?_)
  · exact held_modCar (dj hF) ‹_›
  · assumption
theorem held_snowStart {s c} (hF : Dj F 0x80000002001) (hs : Held b0 F s) : Held b0 F (State.snowStart s c) := by
  unfold State.snowStart
  extract_lets -merge -underBinder +onlyGivenNames st
  try clear_value st
  refine ite_ind (Q := Held b0 F) (fun _ => ?_) (fun _ => ?_)
  · exact held_writeTarget (dj hF) ‹_›
  · assumption
theorem held_showMotion {s} (hF : Dj F 0x200000001) (hs : Held b0 F s) : Held b0 F (State.showMotion s) := by
  unfold State.showMotion
  extract_lets -merge -underBinder +onlyGivenNames doors
  try clear_value doors
  extract_lets -merge -underBinder +onlyGivenNames calls
  try clear_value calls
  exact held_wrB (dj hF) ‹_› (off_PWR_GLIDE_STATUS (dj hF))
theorem held_thaw {s c} (hF : Dj F 0x280000020001) (hs : Held b0 F s) : Held b0 F (State.thaw s c) := by
  unfold State.thaw
  exact held_modCar (dj hF) (held_wrB (dj hF) (held_wrB (dj hF) ‹_› (off_POS_STATUS_TARGET_FROZEN (dj hF))) (off_CAR_STATUS_COMMITTED (dj hF)))
theorem held_showRef {s c} (hF : Dj F 0x80000020001) (hs : Held b0 F s) : Held b0 F (State.showRef s c) := by
  unfold State.showRef
  extract_lets -merge -underBinder +onlyGivenNames t
  try clear_value t
  extract_lets -merge -underBinder +onlyGivenNames v
  try clear_value v
  extract_lets -merge -underBinder +onlyGivenNames a
  try clear_value a
  exact held_modCar (dj hF) (held_wrR (dj hF) (held_wrR (dj hF) ‹_› (off_CAR_SPEED_REF (dj hF))) (off_CAR_ACCEL_REF (dj hF)))
theorem held_tractionFrame {s park} (hF : Dj F 0x1001000208009) (hs : Held b0 F s) : Held b0 F (State.tractionFrame s park) := by
  unfold State.tractionFrame
  extract_lets -merge -underBinder +onlyGivenNames q
  try clear_value q
  extract_lets -merge -underBinder +onlyGivenNames d
  try clear_value d
  extract_lets -merge -underBinder +onlyGivenNames s
  have hs : Held b0 F s := by
    unfold s
    refine ite_ind (Q := Held b0 F) (fun _ => ?_) (fun _ => ?_)
    · exact held_canWake (dj hF) ‹_›
    · assumption
  try clear_value s
  exact held_canCyclic (dj hF) (held_stepSeq (dj hF) ‹_›)
theorem held_showCar {s c} (hF : Dj F 0x80000000001) (hs : Held b0 F s) : Held b0 F (State.showCar s c) := by
  unfold State.showCar
  extract_lets -merge -underBinder +onlyGivenNames x
  try clear_value x
  extract_lets -merge -underBinder +onlyGivenNames dir
  try clear_value dir
  extract_lets -merge -underBinder +onlyGivenNames y
  try clear_value y
  extract_lets -merge -underBinder +onlyGivenNames l
  try clear_value l
  extract_lets -merge -underBinder +onlyGivenNames valid
  try clear_value valid
  extract_lets -merge -underBinder +onlyGivenNames s
  have hs : Held b0 F s := held_wr (dj hF) (held_wrB (dj hF) (held_wr (dj hF) ‹_› (off_CAR_STATUS_DIRECTION (dj hF))) (off_CAR_STATUS_IN_DOOR_ZONE (dj hF))) (off_CAR_STATUS_LANDING (dj hF))
  try clear_value s
  extract_lets -merge -underBinder +onlyGivenNames s
  have hs : Held b0 F s := held_wrB (dj hF) ‹_› (off_CAR_STATUS_LEVEL (dj hF))
  try clear_value s
  extract_lets -merge -underBinder +onlyGivenNames s
  have hs : Held b0 F s := held_wrR (dj hF) (held_wr (dj hF) ‹_› (off_CAR_STATUS_LIMIT_CAUSE (dj hF))) (off_CAR_SPEED_ACT (dj hF))
  try clear_value s
  exact held_wrR (dj hF) ‹_› (off_CAR_TO_GO (dj hF))
theorem held_writeItems {s c} (hF : Dj F 0x10000021001) (hs : Held b0 F s) : Held b0 F (State.writeItems s c) := by
  unfold State.writeItems
  refine foldl_ind (Q := Held b0 F) (fun s _ hs => ?_) ?_
  · refine ite_ind (Q := Held b0 F) (fun _ => ?_) (fun _ => ?_)
    · assumption
    · exact held_firmware (dj hF) (held_modCar (dj hF) ‹_›)
  · assumption
theorem held_carTo {s c st} (hF : Dj F 0x80200020001) (hs : Held b0 F s) : Held b0 F (State.carTo s c st) := by
  unfold State.carTo
  exact held_showMotion (dj hF) (held_modCar (dj hF) (held_wr (dj hF) ‹_› (off_CAR_STATUS_STATE (dj hF))))
theorem held_rampCar {s c} (hF : Dj F 0x80200020001) (hs : Held b0 F s) : Held b0 F (State.rampCar s c) := by
  unfold State.rampCar
  exact held_modCar (dj hF) (held_carTo (dj hF) ‹_›)
theorem held_dropBrake {s c} (hF : Dj F 0x1048100122400b) (hs : Held b0 F s) : Held b0 F (State.dropBrake s c) := by
  unfold State.dropBrake
  extract_lets -merge -underBinder +onlyGivenNames s
  have hs : Held b0 F s := held_wrR (dj hF) ‹_› (off_CAR_LEVEL_ERROR (dj hF))
  try clear_value s
  exact held_endRequests (dj hF) (held_modCar (dj hF) ‹_›)
theorem held_corrVane {s c centre} (hF : Dj F 0x10281200a2202b) (hs : Held b0 F s) : Held b0 F (State.corrVane s c centre) := by
  unfold State.corrVane
  split
  · assumption
  · extract_lets -merge -underBinder +onlyGivenNames l
    try clear_value l
    extract_lets -merge -underBinder +onlyGivenNames s
    have hs : Held b0 F s := held_modCh (dj hF) (held_correct (dj hF) ‹_›)
    try clear_value s
    extract_lets -merge -underBinder +onlyGivenNames s
    have hs : Held b0 F s := by
      unfold s
      refine ite_ind (Q := Held b0 F) (fun _ => ?_) (fun _ => ?_)
      · assumption
      · exact held_setQuality (dj hF) ‹_›
    try clear_value s
    exact held_complete (dj hF) (held_rampCar (dj hF) ‹_›)
theorem held_carStop {s c cause hard} (hF : Dj F 0x10481201a2402b) (hs : Held b0 F s) : Held b0 F (State.carStop s c cause hard) := by
  unfold State.carStop
  extract_lets -merge -underBinder +onlyGivenNames st
  try clear_value st
  refine ite_ind (Q := Held b0 F) (fun _ => ?_) (fun _ => ?_)
  · assumption
  · extract_lets -merge -underBinder +onlyGivenNames x
    try clear_value x
    extract_lets -merge -underBinder +onlyGivenNames s
    have hs : Held b0 F s := held_wr (dj hF) (held_wr (dj hF) ‹_› (off_CAR_LAST_STOP_CAUSE (dj hF))) (off_CAR_LAST_STOP_KIND (dj hF))
    try clear_value s
    extract_lets -merge -underBinder +onlyGivenNames s
    have hs : Held b0 F s := by
      unfold s
      refine ite_ind (Q := Held b0 F) (fun _ => ?_) (fun _ => ?_)
      · exact held_flag (dj hF) (held_raise (dj hF) (held_inc (dj hF) ‹_› (off_CAR_STOPS_HARD (dj hF)))) (off_CAR_EVENT_STATUS_STOP_HARD (dj hF))
      · exact held_flag (dj hF) (held_raise (dj hF) (held_inc (dj hF) ‹_› (off_CAR_STOPS_RAMPED (dj hF)))) (off_CAR_EVENT_STATUS_STOP_RAMPED (dj hF))
    try clear_value s
    extract_lets -merge -underBinder +onlyGivenNames s
    have hs : Held b0 F s := by
      unfold s
      split
      · exact held_complete (dj hF) (held_modCar (dj hF) ‹_›)
      · assumption
    try clear_value s
    extract_lets -merge -underBinder +onlyGivenNames s
    have hs : Held b0 F s := held_modCar (dj hF) (held_carTo (dj hF) ‹_›)
    try clear_value s
    refine ite_ind (Q := Held b0 F) (fun _ => ?_) (fun _ => ?_)
    · exact held_dropBrake (dj hF) ‹_›
    · assumption
theorem held_inspectCar {s c} (hF : Dj F 0x1048120122400b) (hs : Held b0 F s) : Held b0 F (State.inspectCar s c) := by
  unfold State.inspectCar
  extract_lets -merge -underBinder +onlyGivenNames d
  try clear_value d
  refine ite_ind (Q := Held b0 F) (fun _ => ?_) (fun _ => ?_)
  · exact held_endRequests (dj hF) (held_carTo (dj hF) ‹_›)
  · refine ite_ind (Q := Held b0 F) (fun _ => ?_) (fun _ => ?_)
    · extract_lets -merge -underBinder +onlyGivenNames s
      have hs : Held b0 F s := held_showMotion (dj hF) (held_modCar (dj hF) ‹_›)
      try clear_value s
      refine ite_ind (Q := Held b0 F) (fun _ => ?_) (fun _ => ?_)
      · assumption
      · exact held_askFor (dj hF) ‹_›
    · refine held_showMotion (dj hF) ?_
      refine ite_ind (Q := Held b0 F) (fun _ => ?_) (fun _ => ?_)
      · exact held_endRequests (dj hF) ‹_›
      · assumption
theorem held_brakeOpen {s c} (hF : Dj F 0x80200020001) (hs : Held b0 F s) : Held b0 F (State.brakeOpen s c) := by
  unfold State.brakeOpen
  refine ite_ind (Q := Held b0 F) (fun _ => ?_) (fun _ => ?_)
  · extract_lets -merge -underBinder +onlyGivenNames ms
    try clear_value ms
    exact held_carTo (dj hF) (held_wr (dj hF) ‹_› (off_CAR_START_TIME (dj hF)))
  · assumption
theorem held_carIdle {s c} (hF : Dj F 0x10281200a2002b) (hs : Held b0 F s) : Held b0 F (State.carIdle s c) := by
  unfold State.carIdle
  extract_lets -merge -underBinder +onlyGivenNames st
  try clear_value st
  extract_lets -merge -underBinder +onlyGivenNames arrived
  try clear_value arrived
  extract_lets -merge -underBinder +onlyGivenNames ms
  try clear_value ms
  extract_lets -merge -underBinder +onlyGivenNames s
  have hs : Held b0 F s := by
    unfold s
    refine ite_ind (Q := Held b0 F) (fun _ => ?_) (fun _ => ?_)
    · exact held_flag (dj hF) (held_raise (dj hF) (held_inc (dj hF) ‹_› (off_CAR_RELEVELS (dj hF)))) (off_CAR_EVENT_STATUS_RELEVELLED (dj hF))
    · refine ite_ind (Q := Held b0 F) (fun _ => ?_) (fun _ => ?_)
      · exact held_flag (dj hF) (held_raise (dj hF) (held_wr (dj hF) ‹_› (off_CAR_MOVE_TIME (dj hF)))) (off_CAR_EVENT_STATUS_ARRIVED (dj hF))
      · exact held_wr (dj hF) ‹_› (off_CAR_MOVE_TIME (dj hF))
  try clear_value s
  extract_lets -merge -underBinder +onlyGivenNames s
  have hs : Held b0 F s := by
    unfold s
    refine ite_ind (Q := Held b0 F) (fun _ => ?_) (fun _ => ?_)
    · exact held_modCar (dj hF) ‹_›
    · assumption
  try clear_value s
  extract_lets -merge -underBinder +onlyGivenNames s
  have hs : Held b0 F s := by
    unfold s
    refine ite_ind (Q := Held b0 F) (fun _ => ?_) (fun _ => ?_)
    · exact held_modCar (dj hF) ‹_›
    · assumption
  try clear_value s
  extract_lets -merge -underBinder +onlyGivenNames q
  try clear_value q
  extract_lets -merge -underBinder +onlyGivenNames s
  have hs : Held b0 F s := held_modCar (dj hF) (held_carTo (dj hF) (held_dropTarget (dj hF) (held_thaw (dj hF) ‹_›)))
  try clear_value s
  refine foldl_ind (Q := Held b0 F) (fun s _ hs => ?_) ?_
  · exact held_complete (dj hF) ‹_›
  · assumption
theorem held_movingCar {s c ran} (hF : Dj F 0x10681201a2602b) (hs : Held b0 F s) : Held b0 F (State.movingCar s c ran) := by
  unfold State.movingCar
  extract_lets -merge -underBinder +onlyGivenNames st
  try clear_value st
  extract_lets -merge -underBinder +onlyGivenNames x
  try clear_value x
  extract_lets -merge -underBinder +onlyGivenNames level
  try clear_value level
  extract_lets -merge -underBinder +onlyGivenNames still
  try clear_value still
  extract_lets -merge -underBinder +onlyGivenNames faulted
  try clear_value faulted
  refine ite_ind (Q := Held b0 F) (fun _ => ?_) (fun _ => ?_)
  · exact held_carStop (dj hF) ‹_›
  · refine ite_ind (Q := Held b0 F) (fun _ => ?_) (fun _ => ?_)
    · extract_lets -merge -underBinder +onlyGivenNames lim
      try clear_value lim
      extract_lets -merge -underBinder +onlyGivenNames s
      have hs : Held b0 F s := held_wrB (dj hF) (held_wrB (dj hF) ‹_› (off_POS_STATUS_TARGET_FROZEN (dj hF))) (off_CAR_STATUS_COMMITTED (dj hF))
      try clear_value s
      exact held_carTo (dj hF) (held_modCar (dj hF) (held_modCh (dj hF) ‹_›))
    · refine ite_ind (Q := Held b0 F) (fun _ => ?_) (fun _ => ?_)
      · exact held_carTo (dj hF) ‹_›
      · refine ite_ind (Q := Held b0 F) (fun _ => ?_) (fun _ => ?_)
        · exact held_dropBrake (dj hF) ‹_›
        · refine ite_ind (Q := Held b0 F) (fun _ => ?_) (fun _ => ?_)
          · exact held_dropBrake (dj hF) ‹_›
          · refine ite_ind (Q := Held b0 F) (fun _ => ?_) (fun _ => ?_)
            · exact held_carIdle (dj hF) ‹_›
            · assumption
theorem held_brakeApplied {s c} (hF : Dj F 0x10281200a2002b) (hs : Held b0 F s) : Held b0 F (State.brakeApplied s c) := by
  unfold State.brakeApplied
  extract_lets -merge -underBinder +onlyGivenNames st
  try clear_value st
  extract_lets -merge -underBinder +onlyGivenNames ends
  try clear_value ends
  refine ite_ind (Q := Held b0 F) (fun _ => ?_) (fun _ => ?_)
  · exact held_carIdle (dj hF) ‹_›
  · assumption
theorem held_startCar {s c dir} (hF : Dj F 0x1048120122400b) (hs : Held b0 F s) : Held b0 F (State.startCar s c dir) := by
  unfold State.startCar
  extract_lets -merge -underBinder +onlyGivenNames s
  have hs : Held b0 F s := held_inc (dj hF) (held_modCar (dj hF) ‹_›) (off_CAR_MOVES (dj hF))
  try clear_value s
  exact held_askFor (dj hF) (held_carTo (dj hF) ‹_›)
theorem held_corrCheck {s c} (hF : Dj F 0x80200820029) (hs : Held b0 F s) : Held b0 F (State.corrCheck s c) := by
  unfold State.corrCheck
  split
  · assumption
  · extract_lets -merge -underBinder +onlyGivenNames d
    try clear_value d
    refine ite_ind (Q := Held b0 F) (fun _ => ?_) (fun _ => ?_)
    · exact held_complete (dj hF) (held_rampCar (dj hF) ‹_›)
    · assumption
theorem held_watchCar {s c} (hF : Dj F 0x10481201a2402b) (hs : Held b0 F s) : Held b0 F (State.watchCar s c) := by
  unfold State.watchCar
  extract_lets -merge -underBinder +onlyGivenNames st
  try clear_value st
  extract_lets -merge -underBinder +onlyGivenNames lost
  try clear_value lost
  refine ite_ind (Q := Held b0 F) (fun _ => ?_) (fun _ => ?_)
  · assumption
  · refine ite_ind (Q := Held b0 F) (fun _ => ?_) (fun _ => ?_)
    · exact held_carStop (dj hF) ‹_›
    · refine ite_ind (Q := Held b0 F) (fun _ => ?_) (fun _ => ?_)
      · exact held_carStop (dj hF) ‹_›
      · refine ite_ind (Q := Held b0 F) (fun _ => ?_) (fun _ => ?_)
        · exact held_carStop (dj hF) ‹_›
        · assumption
theorem held_idleCar {s c} (hF : Dj F 0x1048120122600b) (hs : Held b0 F s) : Held b0 F (State.idleCar s c) := by
  unfold State.idleCar
  extract_lets -merge -underBinder +onlyGivenNames x
  try clear_value x
  extract_lets -merge -underBinder +onlyGivenNames here
  try clear_value here
  refine ite_ind (Q := Held b0 F) (fun _ => ?_) (fun _ => ?_)
  · exact held_carTo (dj hF) ‹_›
  · refine ite_ind (Q := Held b0 F) (fun _ => ?_) (fun _ => ?_)
    · extract_lets -merge -underBinder +onlyGivenNames l
      try clear_value l
      exact held_startCar (dj hF) (held_writeTarget (dj hF) ‹_›)
    · refine ite_ind (Q := Held b0 F) (fun _ => ?_) (fun _ => ?_)
      · assumption
      · refine ite_ind (Q := Held b0 F) (fun _ => ?_) (fun _ => ?_)
        · extract_lets -merge -underBinder +onlyGivenNames y
          try clear_value y
          extract_lets -merge -underBinder +onlyGivenNames l
          try clear_value l
          exact held_modCar (dj hF) (held_startCar (dj hF) (held_writeTarget (dj hF) ‹_›))
        · refine ite_ind (Q := Held b0 F) (fun _ => ?_) (fun _ => ?_)
          · exact held_startCar (dj hF) ‹_›
          · split
            · assumption
            · extract_lets -merge -underBinder +onlyGivenNames off
              try clear_value off
              extract_lets -merge -underBinder +onlyGivenNames vane
              try clear_value vane
              refine ite_ind (Q := Held b0 F) (fun _ => ?_) (fun _ => ?_)
              · refine ite_ind (Q := Held b0 F) (fun _ => ?_) (fun _ => ?_)
                · exact held_modCar (dj hF) (held_startCar (dj hF) (held_modCh (dj hF) ‹_›))
                · refine ite_ind (Q := Held b0 F) (fun _ => ?_) (fun _ => ?_)
                  · assumption
                  · exact held_askFor (dj hF) ‹_›
              · assumption
theorem held_watchCars {s} (hF : Dj F 0x10481201a2402b) (hs : Held b0 F s) : Held b0 F (State.watchCars s) := by
  unfold State.watchCars
  refine foldl_ind (Q := Held b0 F) (fun _ _ hs => ?_) ?_
  · exact held_watchCar (dj hF) ‹_›
  · assumption
theorem held_carTick {s c ran} (hF : Dj F 0x10691201a2702b) (hs : Held b0 F s) : Held b0 F (State.carTick s c ran) := by
  unfold State.carTick
  extract_lets -merge -underBinder +onlyGivenNames st
  try clear_value st
  extract_lets -merge -underBinder +onlyGivenNames p
  try clear_value p
  extract_lets -merge -underBinder +onlyGivenNames s
  have hs : Held b0 F s := held_wr64 (dj hF) ‹_› (off_CAR_TRAVEL_LO (dj hF))
  try clear_value s
  extract_lets -merge -underBinder +onlyGivenNames s
  have hs : Held b0 F s := held_showRef (dj hF) (held_modCar (dj hF) ‹_›)
  try clear_value s
  extract_lets -merge -underBinder +onlyGivenNames s
  have hs : Held b0 F s := by
    unfold s
    refine ite_ind (Q := Held b0 F) (fun _ => ?_) (fun _ => ?_)
    · refine ite_ind (Q := Held b0 F) (fun _ => ?_) (fun _ => ?_)
      · exact held_idleCar (dj hF) ‹_›
      · assumption
    · refine ite_ind (Q := Held b0 F) (fun _ => ?_) (fun _ => ?_)
      · exact held_inspectCar (dj hF) ‹_›
      · exact held_watchCar (dj hF) (held_corrCheck (dj hF) (held_creepCheck (dj hF) (held_movingCar (dj hF) (held_watchCar (dj hF) ‹_›))))
  try clear_value s
  exact held_showCar (dj hF) (held_writeItems (dj hF) ‹_›)
theorem held_safety {s} (hF : Dj F 0x10481201a2402b) (hs : Held b0 F s) : Held b0 F (State.safety s) := by
  unfold State.safety
  exact held_watchCars (dj hF) (held_safEval (dj hF) ‹_›)

end Sys2Proof.Machine
end

