-- ==== Sys2Proof/Laws/KeptDoorOps.lean ====
section
/-!
SUPPORT. The operations of Machine/DoorOps.lean change only the parts that their masks name (Laws/Held.lean).
-/
namespace Sys2Proof.Machine
open Sys2Proof
set_option Elab.async false

variable {b0 : State} {F : Nat}

theorem held_modDoor {s d f} (hF : Dj F 0x40000) (hs : Held b0 F s) : Held b0 F (State.modDoor s d f) := by
  unfold State.modDoor
  exact held_mk_door (dj hF) ‹_›
theorem held_doorTo {s d st} (hF : Dj F 0x100200040001) (hs : Held b0 F s) : Held b0 F (State.doorTo s d st) := by
  unfold State.doorTo
  extract_lets -merge -underBinder +onlyGivenNames old
  try clear_value old
  extract_lets -merge -underBinder +onlyGivenNames whole
  try clear_value whole
  exact held_showMotion (dj hF) (held_modDoor (dj hF) (held_wr (dj hF) ‹_› (off_DOOR_STATUS_STATE (dj hF))))
theorem held_closeNow {s d} (hF : Dj F 0x1010120024000b) (hs : Held b0 F s) : Held b0 F (State.closeNow s d) := by
  unfold State.closeNow
  extract_lets -merge -underBinder +onlyGivenNames n
  try clear_value n
  refine ite_ind (Q := Held b0 F) (fun _ => ?_) (fun _ => ?_)
  · exact held_flag (dj hF) (held_raise (dj hF) (held_doorTo (dj hF) ‹_›)) (off_DOOR_EVENT_STATUS_NUDGE (dj hF))
  · exact held_doorTo (dj hF) ‹_›
theorem held_doorStart {s} (hF : Dj F 0x100000040001) (hs : Held b0 F s) : Held b0 F (State.doorStart s) := by
  unfold State.doorStart
  refine foldl_ind (Q := Held b0 F) (fun s _ hs => ?_) ?_
  · exact held_wr (dj hF) ‹_› (off_DOOR_STATUS_STATE (dj hF))
  · exact held_mk_door (dj hF) ‹_›
theorem held_setFrom {s q status result} (hF : Dj F 0x800028) (hs : Held b0 F s) : Held b0 F (State.setFrom s q status result) := by
  unfold State.setFrom
  refine foldl_ind (Q := Held b0 F) (fun s _ hs => ?_) ?_
  · exact held_complete (dj hF) ‹_›
  · assumption
theorem held_doorFrame {s d park} (hF : Dj F 0x1101000208009) (hs : Held b0 F s) : Held b0 F (State.doorFrame s d park) := by
  unfold State.doorFrame
  extract_lets -merge -underBinder +onlyGivenNames st
  try clear_value st
  extract_lets -merge -underBinder +onlyGivenNames m
  try clear_value m
  extract_lets -merge -underBinder +onlyGivenNames nudge
  try clear_value nudge
  extract_lets -merge -underBinder +onlyGivenNames w
  try clear_value w
  extract_lets -merge -underBinder +onlyGivenNames x
  try clear_value x
  extract_lets -merge -underBinder +onlyGivenNames id
  try clear_value id
  extract_lets -merge -underBinder +onlyGivenNames q
  try clear_value q
  extract_lets -merge -underBinder +onlyGivenNames data
  try clear_value data
  extract_lets -merge -underBinder +onlyGivenNames moves
  try clear_value moves
  extract_lets -merge -underBinder +onlyGivenNames s
  have hs : Held b0 F s := by
    unfold s
    refine ite_ind (Q := Held b0 F) (fun _ => ?_) (fun _ => ?_)
    · exact held_canWake (dj hF) ‹_›
    · assumption
  try clear_value s
  exact held_canCyclic (dj hF) (held_stepSeq (dj hF) (held_wrB (dj hF) ‹_› (off_DOOR_STATUS_NUDGE (dj hF))))
theorem held_writeDoorItems {s d} (hF : Dj F 0x10000041001) (hs : Held b0 F s) : Held b0 F (State.writeDoorItems s d) := by
  unfold State.writeDoorItems
  refine foldl_ind (Q := Held b0 F) (fun s _ hs => ?_) ?_
  · refine ite_ind (Q := Held b0 F) (fun _ => ?_) (fun _ => ?_)
    · assumption
    · exact held_firmware (dj hF) (held_modDoor (dj hF) ‹_›)
  · assumption
theorem held_doorCause {s d cause} (hF : Dj F 0x100000000001) (hs : Held b0 F s) : Held b0 F (State.doorCause s d cause) := by
  unfold State.doorCause
  exact held_wr (dj hF) (held_wr (dj hF) ‹_› (off_DOOR_LAST_STOP_CAUSE (dj hF))) (off_DOOR_LAST_STOP_POSITION (dj hF))
theorem held_showLock {s d} (hF : Dj F 0x100000840029) (hs : Held b0 F s) : Held b0 F (State.showLock s d) := by
  unfold State.showLock
  extract_lets -merge -underBinder +onlyGivenNames on
  try clear_value on
  extract_lets -merge -underBinder +onlyGivenNames s
  have hs : Held b0 F s := held_wrB (dj hF) ‹_› (off_DOOR_STATUS_LOCKED (dj hF))
  try clear_value s
  extract_lets -merge -underBinder +onlyGivenNames q
  try clear_value q
  refine ite_ind (Q := Held b0 F) (fun _ => ?_) (fun _ => ?_)
  · exact held_setFrom (dj hF) (held_modDoor (dj hF) ‹_›)
  · assumption
theorem held_learnMove {s d opening} (hF : Dj F 0x100000040001) (hs : Held b0 F s) : Held b0 F (State.learnMove s d opening) := by
  unfold State.learnMove
  extract_lets -merge -underBinder +onlyGivenNames x
  try clear_value x
  refine ite_ind (Q := Held b0 F) (fun _ => ?_) (fun _ => ?_)
  · assumption
  · extract_lets -merge -underBinder +onlyGivenNames s
    have hs : Held b0 F s := held_modDoor (dj hF) ‹_›
    try clear_value s
    exact held_wr (dj hF) ‹_› (off_DOOR_STATUS_ENVELOPE_MOVES (dj hF))
theorem held_refDone {s d} (hF : Dj F 0x10101200a4002b) (hs : Held b0 F s) : Held b0 F (State.refDone s d) := by
  unfold State.refDone
  extract_lets -merge -underBinder +onlyGivenNames q
  try clear_value q
  extract_lets -merge -underBinder +onlyGivenNames s
  have hs : Held b0 F s := held_modDoor (dj hF) (held_doorTo (dj hF) ‹_›)
  try clear_value s
  exact held_showLock (dj hF) (held_setFrom (dj hF) (held_raise (dj hF) ‹_›))
theorem held_openNow {s d} (hF : Dj F 0x100200040001) (hs : Held b0 F s) : Held b0 F (State.openNow s d) := by
  unfold State.openNow
  exact held_modDoor (dj hF) (held_doorTo (dj hF) ‹_›)
theorem held_doorAtStand {s d} (hF : Dj F 0x1010120024000b) (hs : Held b0 F s) : Held b0 F (State.doorAtStand s d) := by
  unfold State.doorAtStand
  extract_lets -merge -underBinder +onlyGivenNames c
  try clear_value c
  refine ite_ind (Q := Held b0 F) (fun _ => ?_) (fun _ => ?_)
  · assumption
  · refine ite_ind (Q := Held b0 F) (fun _ => ?_) (fun _ => ?_)
    · refine ite_ind (Q := Held b0 F) (fun _ => ?_) (fun _ => ?_)
      · exact held_openNow (dj hF) ‹_›
      · exact held_closeNow (dj hF) ‹_›
    · refine ite_ind (Q := Held b0 F) (fun _ => ?_) (fun _ => ?_)
      · assumption
      · refine ite_ind (Q := Held b0 F) (fun _ => ?_) (fun _ => ?_)
        · exact held_doorTo (dj hF) ‹_›
        · assumption
theorem held_closeDone {s d} (hF : Dj F 0x100200840029) (hs : Held b0 F s) : Held b0 F (State.closeDone s d) := by
  unfold State.closeDone
  extract_lets -merge -underBinder +onlyGivenNames s
  have hs : Held b0 F s := held_inc (dj hF) (held_doorTo (dj hF) (held_learnMove (dj hF) ‹_›)) (off_DOOR_CYCLES (dj hF))
  try clear_value s
  exact held_showLock (dj hF) (held_modDoor (dj hF) (held_wr (dj hF) ‹_› (off_DOOR_STATUS_REVERSALS_MOVE (dj hF))))
theorem held_dropCloses {s d} (hF : Dj F 0x840028) (hs : Held b0 F s) : Held b0 F (State.dropCloses s d) := by
  unfold State.dropCloses
  exact held_setFrom (dj hF) (held_modDoor (dj hF) ‹_›)
theorem held_failMoves {s d cause} (hF : Dj F 0x840028) (hs : Held b0 F s) : Held b0 F (State.failMoves s d cause) := by
  unfold State.failMoves
  extract_lets -merge -underBinder +onlyGivenNames x
  try clear_value x
  exact held_setFrom (dj hF) (held_modDoor (dj hF) ‹_›)
theorem held_dropOpens {s d} (hF : Dj F 0x840028) (hs : Held b0 F s) : Held b0 F (State.dropOpens s d) := by
  unfold State.dropOpens
  exact held_setFrom (dj hF) (held_modDoor (dj hF) ‹_›)
theorem held_closeDoor {s d} (hF : Dj F 0x10101200a4002b) (hs : Held b0 F s) : Held b0 F (State.closeDoor s d) := by
  unfold State.closeDoor
  extract_lets -merge -underBinder +onlyGivenNames st
  try clear_value st
  refine ite_ind (Q := Held b0 F) (fun _ => ?_) (fun _ => ?_)
  · exact held_closeNow (dj hF) (held_dropOpens (dj hF) ‹_›)
  · assumption
theorem held_openDone {s d} (hF : Dj F 0x100200840029) (hs : Held b0 F s) : Held b0 F (State.openDone s d) := by
  unfold State.openDone
  extract_lets -merge -underBinder +onlyGivenNames q
  try clear_value q
  exact held_setFrom (dj hF) (held_modDoor (dj hF) (held_doorTo (dj hF) (held_learnMove (dj hF) ‹_›)))
theorem held_reverse {s d cause} (hF : Dj F 0x100200840029) (hs : Held b0 F s) : Held b0 F (State.reverse s d cause) := by
  unfold State.reverse
  extract_lets -merge -underBinder +onlyGivenNames s
  have hs : Held b0 F s := held_wr (dj hF) ‹_› (off_DOOR_STATUS_REVERSALS_MOVE (dj hF))
  try clear_value s
  extract_lets -merge -underBinder +onlyGivenNames q
  try clear_value q
  exact held_modDoor (dj hF) (held_setFrom (dj hF) (held_openNow (dj hF) (held_doorCause (dj hF) ‹_›)))
theorem held_doorEnds {s d} (hF : Dj F 0x10101200a4002b) (hs : Held b0 F s) : Held b0 F (State.doorEnds s d) := by
  unfold State.doorEnds
  extract_lets -merge -underBinder +onlyGivenNames st
  try clear_value st
  extract_lets -merge -underBinder +onlyGivenNames sp
  try clear_value sp
  extract_lets -merge -underBinder +onlyGivenNames near
  try clear_value near
  extract_lets -merge -underBinder +onlyGivenNames shut
  try clear_value shut
  refine ite_ind (Q := Held b0 F) (fun _ => ?_) (fun _ => ?_)
  · assumption
  · refine ite_ind (Q := Held b0 F) (fun _ => ?_) (fun _ => ?_)
    · exact held_openDone (dj hF) ‹_›
    · refine ite_ind (Q := Held b0 F) (fun _ => ?_) (fun _ => ?_)
      · exact held_closeDone (dj hF) ‹_›
      · refine ite_ind (Q := Held b0 F) (fun _ => ?_) (fun _ => ?_)
        · exact held_refDone (dj hF) ‹_›
        · assumption
theorem held_doorStop {s d cause hard} (hF : Dj F 0x10101200a4002b) (hs : Held b0 F s) : Held b0 F (State.doorStop s d cause hard) := by
  unfold State.doorStop
  extract_lets -merge -underBinder +onlyGivenNames s
  have hs : Held b0 F s := held_doorCause (dj hF) (held_modDoor (dj hF) (held_doorTo (dj hF) ‹_›))
  try clear_value s
  exact held_failMoves (dj hF) (held_flag (dj hF) (held_raise (dj hF) ‹_›) (off_DOOR_EVENT_STATUS_STOPPED (dj hF)))
theorem held_watchDoor {s d} (hF : Dj F 0x10101200a4002b) (hs : Held b0 F s) : Held b0 F (State.watchDoor s d) := by
  unfold State.watchDoor
  extract_lets -merge -underBinder +onlyGivenNames st
  try clear_value st
  extract_lets -merge -underBinder +onlyGivenNames moving
  try clear_value moving
  extract_lets -merge -underBinder +onlyGivenNames parked
  try clear_value parked
  refine ite_ind (Q := Held b0 F) (fun _ => ?_) (fun _ => ?_)
  · exact held_doorStop (dj hF) ‹_›
  · refine ite_ind (Q := Held b0 F) (fun _ => ?_) (fun _ => ?_)
    · exact held_doorStop (dj hF) ‹_›
    · assumption
theorem held_openDoor {s d} (hF : Dj F 0x100200840029) (hs : Held b0 F s) : Held b0 F (State.openDoor s d) := by
  unfold State.openDoor
  extract_lets -merge -underBinder +onlyGivenNames st
  try clear_value st
  refine ite_ind (Q := Held b0 F) (fun _ => ?_) (fun _ => ?_)
  · exact held_openNow (dj hF) (held_dropCloses (dj hF) ‹_›)
  · assumption
theorem held_doorFault {s d cause} (hF : Dj F 0x100200840029) (hs : Held b0 F s) : Held b0 F (State.doorFault s d cause) := by
  unfold State.doorFault
  extract_lets -merge -underBinder +onlyGivenNames q
  try clear_value q
  extract_lets -merge -underBinder +onlyGivenNames s
  have hs : Held b0 F s := held_doorCause (dj hF) (held_modDoor (dj hF) (held_doorTo (dj hF) ‹_›))
  try clear_value s
  exact held_setFrom (dj hF) (held_failMoves (dj hF) ‹_›)
theorem held_obstruct {s d cause} (hF : Dj F 0x10101200a4002b) (hs : Held b0 F s) : Held b0 F (State.obstruct s d cause) := by
  unfold State.obstruct
  extract_lets -merge -underBinder +onlyGivenNames s
  have hs : Held b0 F s := held_modDoor (dj hF) (held_incSat (dj hF) ‹_› (off_DOOR_REVERSALS_OBSTRUCTIONS (dj hF)))
  try clear_value s
  extract_lets -merge -underBinder +onlyGivenNames s
  have hs : Held b0 F s := held_flag (dj hF) (held_raise (dj hF) ‹_›) (off_DOOR_EVENT_STATUS_OBSTRUCTION (dj hF))
  try clear_value s
  refine ite_ind (Q := Held b0 F) (fun _ => ?_) (fun _ => ?_)
  · extract_lets -merge -underBinder +onlyGivenNames n
    try clear_value n
    exact held_modDoor (dj hF) (held_doorStop (dj hF) ‹_›)
  · exact held_reverse (dj hF) ‹_›
theorem held_gearDoor {s d} (hF : Dj F 0x10501201a4402b) (hs : Held b0 F s) : Held b0 F (State.gearDoor s d) := by
  unfold State.gearDoor
  extract_lets -merge -underBinder +onlyGivenNames c
  try clear_value c
  extract_lets -merge -underBinder +onlyGivenNames by'
  try clear_value by'
  refine ite_ind (Q := Held b0 F) (fun _ => ?_) (fun _ => ?_)
  · refine ite_ind (Q := Held b0 F) (fun _ => ?_) (fun _ => ?_)
    · refine ite_ind (Q := Held b0 F) (fun _ => ?_) (fun _ => ?_)
      · exact held_doorTo (dj hF) ‹_›
      · refine ite_ind (Q := Held b0 F) (fun _ => ?_) (fun _ => ?_)
        · assumption
        · exact held_askFor (dj hF) ‹_›
    · assumption
  · refine ite_ind (Q := Held b0 F) (fun _ => ?_) (fun _ => ?_)
    · refine ite_ind (Q := Held b0 F) (fun _ => ?_) (fun _ => ?_)
      · exact held_openNow (dj hF) ‹_›
      · refine ite_ind (Q := Held b0 F) (fun _ => ?_) (fun _ => ?_)
        · assumption
        · exact held_doorStop (dj hF) ‹_›
    · assumption
theorem held_reopenDoor {s d} (hF : Dj F 0x100200840029) (hs : Held b0 F s) : Held b0 F (State.reopenDoor s d) := by
  unfold State.reopenDoor
  refine ite_ind (Q := Held b0 F) (fun _ => ?_) (fun _ => ?_)
  · exact held_reverse (dj hF) (held_incSat (dj hF) ‹_› (off_DOOR_REVERSALS_REOPENS (dj hF)))
  · assumption
theorem held_judgeDoor {s d sp dev} (hF : Dj F 0x10101200a4002b) (hs : Held b0 F s) : Held b0 F (State.judgeDoor s d sp dev) := by
  unfold State.judgeDoor
  extract_lets -merge -underBinder +onlyGivenNames st
  try clear_value st
  refine ite_ind (Q := Held b0 F) (fun _ => ?_) (fun _ => ?_)
  · split
    · extract_lets -merge -underBinder +onlyGivenNames t
      try clear_value t
      extract_lets -merge -underBinder +onlyGivenNames bin
      try clear_value bin
      extract_lets -merge -underBinder +onlyGivenNames amp
      try clear_value amp
      extract_lets -merge -underBinder +onlyGivenNames s
      have hs : Held b0 F s := held_modDoor (dj hF) ‹_›
      try clear_value s
      extract_lets -merge -underBinder +onlyGivenNames lim
      try clear_value lim
      refine ite_ind (Q := Held b0 F) (fun _ => ?_) (fun _ => ?_)
      · exact held_obstruct (dj hF) ‹_›
      · assumption
  · assumption
theorem held_doorServo {s d} (hF : Dj F 0x11511201a4d02b) (hs : Held b0 F s) : Held b0 F (State.doorServo s d) := by
  unfold State.doorServo
  extract_lets -merge -underBinder +onlyGivenNames sp
  try clear_value sp
  extract_lets -merge -underBinder +onlyGivenNames lag
  try clear_value lag
  extract_lets -merge -underBinder +onlyGivenNames s
  have hs : Held b0 F s := held_wr (dj hF) (held_modDoor (dj hF) ‹_›) (off_DOOR_SETPOINT (dj hF))
  try clear_value s
  extract_lets -merge -underBinder +onlyGivenNames dev
  try clear_value dev
  extract_lets -merge -underBinder +onlyGivenNames s
  have hs : Held b0 F s := held_wrR (dj hF) (held_doorFrame (dj hF) ‹_›) (off_DOOR_DEVIATION (dj hF))
  try clear_value s
  extract_lets -merge -underBinder +onlyGivenNames s
  have hs : Held b0 F s := held_gearDoor (dj hF) (held_judgeDoor (dj hF) (held_doorEnds (dj hF) (held_watchDoor (dj hF) ‹_›)))
  try clear_value s
  extract_lets -merge -underBinder +onlyGivenNames s
  have hs : Held b0 F s := held_showLock (dj hF) (held_doorAtStand (dj hF) (held_reopenDoor (dj hF) ‹_›))
  try clear_value s
  extract_lets -merge -underBinder +onlyGivenNames s
  have hs : Held b0 F s := held_wrB (dj hF) (held_wrB (dj hF) ‹_› (off_DOOR_STATUS_BYPASS (dj hF))) (off_DOOR_STATUS_REOPEN_ACTIVE (dj hF))
  try clear_value s
  exact held_writeDoorItems (dj hF) ‹_›

end Sys2Proof.Machine
end

