-- ==== Sys2Proof/Laws/KeptGrpOps.lean ====
section
/-!
SUPPORT. The operations of Machine/GrpOps.lean change only the parts that their masks name (Laws/Held.lean).
-/
namespace Sys2Proof.Machine
open Sys2Proof
set_option Elab.async false

variable {b0 : State} {F : Nat}

theorem held_setStop {s c l e} (hF : Dj F 0x80000002001) (hs : Held b0 F s) : Held b0 F (State.setStop s c l e) := by
  unfold State.setStop
  refine ite_ind (Q := Held b0 F) (fun _ => ?_) (fun _ => ?_)
  · assumption
  · exact held_writeTarget (dj hF) ‹_›
theorem held_showFixtures {s} (hF : Dj F 0x40000000001) (hs : Held b0 F s) : Held b0 F (State.showFixtures s) := by
  unfold State.showFixtures
  extract_lets -merge -underBinder +onlyGivenNames n
  try clear_value n
  extract_lets -merge -underBinder +onlyGivenNames s
  have hs : Held b0 F s := held_wr (dj hF) ‹_› (off_GRP_FIXTURES_ONLINE (dj hF))
  try clear_value s
  exact held_wr (dj hF) (held_wr (dj hF) ‹_› (off_GRP_FIXTURES_FAULT_LOST (dj hF))) (off_GRP_FIXTURES_FAULT_STUCK (dj hF))
theorem held_modGrp {s f} (hF : Dj F 0x80000) (hs : Held b0 F s) : Held b0 F (State.modGrp s f) := by
  unfold State.modGrp
  exact held_mk_grp (dj hF) ‹_›
theorem held_evacSend {s c l} (hF : Dj F 0x101c1200ac202b) (hs : Held b0 F s) : Held b0 F (State.evacSend s c l) := by
  unfold State.evacSend
  refine ite_ind (Q := Held b0 F) (fun _ => ?_) (fun _ => ?_)
  · assumption
  · refine ite_ind (Q := Held b0 F) (fun _ => ?_) (fun _ => ?_)
    · exact held_setStop (dj hF) ‹_›
    · refine ite_ind (Q := Held b0 F) (fun _ => ?_) (fun _ => ?_)
      · assumption
      · refine ite_ind (Q := Held b0 F) (fun _ => ?_) (fun _ => ?_)
        · exact held_wrB (dj hF) (held_modGrp (dj hF) (held_setStop (dj hF) ‹_›)) (off_GRP_EVAC_STATUS_CARS_WAITING (dj hF))
        · refine held_wrB (dj hF) ?_ ?_
          · refine foldl_ind (Q := Held b0 F) (fun s _ hs => ?_) ?_
            · exact held_closeDoor (dj hF) ‹_›
            · assumption
          · exact off_GRP_EVAC_STATUS_CARS_WAITING (dj hF)
theorem held_modGcar {s c f} (hF : Dj F 0x80000) (hs : Held b0 F s) : Held b0 F (State.modGcar s c f) := by
  unfold State.modGcar
  exact held_modGrp (dj hF) ‹_›
theorem held_standOpen {s c} (hF : Dj F 0x100200840029) (hs : Held b0 F s) : Held b0 F (State.standOpen s c) := by
  unfold State.standOpen
  extract_lets -merge -underBinder +onlyGivenNames out
  try clear_value out
  extract_lets -merge -underBinder +onlyGivenNames recalled
  try clear_value recalled
  refine ite_ind (Q := Held b0 F) (fun _ => ?_) (fun _ => ?_)
  · refine foldl_ind (Q := Held b0 F) (fun s _ hs => ?_) ?_
    · refine ite_ind (Q := Held b0 F) (fun _ => ?_) (fun _ => ?_)
      · exact held_openDoor (dj hF) ‹_›
      · assumption
    · assumption
  · assumption
theorem held_modSer {s l f} (hF : Dj F 0x10000) (hs : Held b0 F s) : Held b0 F (State.modSer s l f) := by
  unfold State.modSer
  exact held_mk_ser (dj hF) ‹_›
theorem held_limited {s} (hF : Dj F 0x80000) (hs : Held b0 F s) : Held b0 F (State.limited s) := by
  unfold State.limited
  exact held_modGrp (dj hF) ‹_›
theorem held_modFixt {s n f} (hF : Dj F 0x80000) (hs : Held b0 F s) : Held b0 F (State.modFixt s n f) := by
  unfold State.modFixt
  exact held_modGrp (dj hF) ‹_›
theorem held_fireStep {s c} (hF : Dj F 0x80000) (hs : Held b0 F s) : Held b0 F (State.fireStep s c) := by
  unfold State.fireStep
  extract_lets -merge -underBinder +onlyGivenNames x
  try clear_value x
  refine ite_ind (Q := Held b0 F) (fun _ => ?_) (fun _ => ?_)
  · assumption
  · refine ite_ind (Q := Held b0 F) (fun _ => ?_) (fun _ => ?_)
    · exact held_modGcar (dj hF) ‹_›
    · refine ite_ind (Q := Held b0 F) (fun _ => ?_) (fun _ => ?_)
      · exact held_modGcar (dj hF) ‹_›
      · assumption
theorem held_planCar {s c} (hF : Dj F 0x80000002001) (hs : Held b0 F s) : Held b0 F (State.planCar s c) := by
  unfold State.planCar
  extract_lets -merge -underBinder +onlyGivenNames g
  try clear_value g
  refine ite_ind (Q := Held b0 F) (fun _ => ?_) (fun _ => ?_)
  · assumption
  · refine ite_ind (Q := Held b0 F) (fun _ => ?_) (fun _ => ?_)
    · refine ite_ind (Q := Held b0 F) (fun _ => ?_) (fun _ => ?_)
      · assumption
      · exact held_setStop (dj hF) ‹_›
    · extract_lets -merge -underBinder +onlyGivenNames l
      try clear_value l
      split
      · assumption
      · extract_lets -merge -underBinder +onlyGivenNames e
        try clear_value e
        refine ite_ind (Q := Held b0 F) (fun _ => ?_) (fun _ => ?_)
        · assumption
        · exact held_setStop (dj hF) ‹_›
theorem held_answerService {s} (hF : Dj F 0x880028) (hs : Held b0 F s) : Held b0 F (State.answerService s) := by
  unfold State.answerService
  extract_lets -merge -underBinder +onlyGivenNames q
  try clear_value q
  refine foldl_ind (Q := Held b0 F) (fun s _ hs => ?_) ?_
  · exact held_complete (dj hF) ‹_›
  · exact held_modGrp (dj hF) ‹_›
theorem held_modCall {s i f} (hF : Dj F 0x80000) (hs : Held b0 F s) : Held b0 F (State.modCall s i f) := by
  unfold State.modCall
  exact held_modGrp (dj hF) ‹_›
theorem held_showGrp {s} (hF : Dj F 0x40000080001) (hs : Held b0 F s) : Held b0 F (State.showGrp s) := by
  unfold State.showGrp
  extract_lets -merge -underBinder +onlyGivenNames st
  try clear_value st
  extract_lets -merge -underBinder +onlyGivenNames cnt
  try clear_value cnt
  extract_lets -merge -underBinder +onlyGivenNames s
  have hs : Held b0 F s := held_modGrp (dj hF) ‹_›
  try clear_value s
  extract_lets -merge -underBinder +onlyGivenNames w
  try clear_value w
  extract_lets -merge -underBinder +onlyGivenNames avg
  try clear_value avg
  extract_lets -merge -underBinder +onlyGivenNames s
  have hs : Held b0 F s := held_wr (dj hF) (held_wr (dj hF) ‹_› (off_GRP_CALLS_REGISTERED_CAR (dj hF))) (off_GRP_CALLS_REGISTERED_LANDING (dj hF))
  try clear_value s
  extract_lets -merge -underBinder +onlyGivenNames s
  have hs : Held b0 F s := held_wrR (dj hF) (held_wrR (dj hF) (held_wrR (dj hF) ‹_› (off_GRP_ENERGY_COMMITTED (dj hF))) (off_GRP_RESERVE_HEADROOM (dj hF))) (off_GRP_AVG_WAIT (dj hF))
  try clear_value s
  extract_lets -merge -underBinder +onlyGivenNames s
  have hs : Held b0 F s := held_wrB (dj hF) (held_wrB (dj hF) ‹_› (off_GRP_STATUS_RESERVE_UNKNOWN (dj hF))) (off_GRP_STATUS_RESERVE_LIMITED (dj hF))
  try clear_value s
  extract_lets -merge -underBinder +onlyGivenNames s
  have hs : Held b0 F s := held_wr (dj hF) (held_wrB (dj hF) ‹_› (off_GRP_STATUS_FIRE_RECALL (dj hF))) (off_GRP_PATTERN_IN_FORCE (dj hF))
  try clear_value s
  extract_lets -merge -underBinder +onlyGivenNames s
  have hs : Held b0 F s := held_wr (dj hF) ‹_› (off_GRP_EVAC_STATUS_CALLS_RAISED (dj hF))
  try clear_value s
  extract_lets -merge -underBinder +onlyGivenNames evac
  try clear_value evac
  refine foldl_ind (Q := Held b0 F) (fun s _ hs => ?_) ?_
  · extract_lets -merge -underBinder +onlyGivenNames l
    try clear_value l
    extract_lets -merge -underBinder +onlyGivenNames s
    have hs : Held b0 F s := held_wrR (dj hF) (held_wr (dj hF) (held_wr (dj hF) ‹_› (off_GRP_CAR_CALLS_CAR (dj hF))) (off_GRP_CAR_CALLS_LANDING (dj hF))) (off_GRP_CAR_ENERGY (dj hF))
    try clear_value s
    extract_lets -merge -underBinder +onlyGivenNames s
    have hs : Held b0 F s := held_wr (dj hF) (held_wrB (dj hF) (held_wr (dj hF) ‹_› (off_GRP_CAR_STATE_DIRECTION (dj hF))) (off_GRP_CAR_STATE_COMMITTED (dj hF))) (off_GRP_CAR_STATE_LOAD (dj hF))
    try clear_value s
    extract_lets -merge -underBinder +onlyGivenNames s
    have hs : Held b0 F s := held_wrB (dj hF) ‹_› (off_GRP_CAR_STATE_FULL_LOAD (dj hF))
    try clear_value s
    extract_lets -merge -underBinder +onlyGivenNames s
    have hs : Held b0 F s := held_wrB (dj hF) (held_wr (dj hF) ‹_› (off_GRP_CAR_NEXT_POSITION (dj hF))) (off_GRP_CAR_NEXT_VALID (dj hF))
    try clear_value s
    extract_lets -merge -underBinder +onlyGivenNames s
    have hs : Held b0 F s := held_wr (dj hF) ‹_› (off_GRP_CAR_NEXT_NEXT (dj hF))
    try clear_value s
    exact held_wrB (dj hF) ‹_› (off_GRP_EVAC_STATUS_CARS_MOVING (dj hF))
  · assumption
theorem held_picked {s i} (hF : Dj F 0x80000) (hs : Held b0 F s) : Held b0 F (State.picked s i) := by
  unfold State.picked
  extract_lets -merge -underBinder +onlyGivenNames w
  try clear_value w
  exact held_modGrp (dj hF) (held_modCall (dj hF) ‹_›)
theorem held_policyTurn {s} (hF : Dj F 0x80000) (hs : Held b0 F s) : Held b0 F (State.policyTurn s) := by
  unfold State.policyTurn
  split
  · refine ite_ind (Q := Held b0 F) (fun _ => ?_) (fun _ => ?_)
    · exact held_modGrp (dj hF) ‹_›
    · assumption
  · assumption
theorem held_modNodeOf {s l n f} (hF : Dj F 0x10000) (hs : Held b0 F s) : Held b0 F (State.modNodeOf s l n f) := by
  unfold State.modNodeOf
  exact held_modSer (dj hF) ‹_›
theorem held_markBegun {s c} (hF : Dj F 0x80000) (hs : Held b0 F s) : Held b0 F (State.markBegun s c) := by
  unfold State.markBegun
  refine ite_ind (Q := Held b0 F) (fun _ => ?_) (fun _ => ?_)
  · refine foldl_ind (Q := Held b0 F) (fun s _ hs => ?_) ?_
    · refine ite_ind (Q := Held b0 F) (fun _ => ?_) (fun _ => ?_)
      · exact held_modCall (dj hF) ‹_›
      · assumption
    · assumption
  · assumption
theorem held_toFixture {s f msg} (hF : Dj F 0x1001000218009) (hs : Held b0 F s) : Held b0 F (State.toFixture s f msg) := by
  unfold State.toFixture
  extract_lets -merge -underBinder +onlyGivenNames m
  try clear_value m
  refine ite_ind (Q := Held b0 F) (fun _ => ?_) (fun _ => ?_)
  · assumption
  · refine ite_ind (Q := Held b0 F) (fun _ => ?_) (fun _ => ?_)
    · exact held_canSend (dj hF) ‹_›
    · exact held_modNodeOf (dj hF) ‹_›
theorem held_assignMsg {s k car} (hF : Dj F 0x1001000218009) (hs : Held b0 F s) : Held b0 F (State.assignMsg s k car) := by
  unfold State.assignMsg
  refine ite_ind (Q := Held b0 F) (fun _ => ?_) (fun _ => ?_)
  · refine foldl_ind (Q := Held b0 F) (fun s _ hs => ?_) ?_
    · exact held_toFixture (dj hF) ‹_›
    · assumption
  · assumption
theorem held_indicate {s f msg gong} (hF : Dj F 0x1001000218009) (hs : Held b0 F s) : Held b0 F (State.indicate s f msg gong) := by
  unfold State.indicate
  extract_lets -merge -underBinder +onlyGivenNames c
  try clear_value c
  exact held_toFixture (dj hF) ‹_›
theorem held_indicateCall {s k msg} (hF : Dj F 0x1001000218009) (hs : Held b0 F s) : Held b0 F (State.indicateCall s k msg) := by
  unfold State.indicateCall
  refine foldl_ind (Q := Held b0 F) (fun s _ hs => ?_) ?_
  · exact held_indicate (dj hF) ‹_›
  · assumption
theorem held_indicateChange {s f} (hF : Dj F 0x1001000298009) (hs : Held b0 F s) : Held b0 F (State.indicateChange s f) := by
  unfold State.indicateChange
  extract_lets -merge -underBinder +onlyGivenNames c
  try clear_value c
  extract_lets -merge -underBinder +onlyGivenNames now
  try clear_value now
  refine ite_ind (Q := Held b0 F) (fun _ => ?_) (fun _ => ?_)
  · assumption
  · exact held_indicate (dj hF) (held_modFixt (dj hF) ‹_›)
theorem held_lamp {s k st} (hF : Dj F 0x1001000218009) (hs : Held b0 F s) : Held b0 F (State.lamp s k st) := by
  unfold State.lamp
  refine foldl_ind (Q := Held b0 F) (fun s _ hs => ?_) ?_
  · exact held_toFixture (dj hF) ‹_›
  · assumption
theorem held_assign {s i c} (hF : Dj F 0x1041000298009) (hs : Held b0 F s) : Held b0 F (State.assign s i c) := by
  unfold State.assign
  extract_lets -merge -underBinder +onlyGivenNames s
  have hs : Held b0 F s := held_inc (dj hF) (held_modCall (dj hF) ‹_›) (off_GRP_CALLS_ASSIGNED (dj hF))
  try clear_value s
  exact held_modGcar (dj hF) (held_assignMsg (dj hF) ‹_›)
theorem held_register {s k} (hF : Dj F 0x1001200298009) (hs : Held b0 F s) : Held2 b0 F (State.register s k) := by
  unfold State.register
  split
  · exact held2_mk ‹_›
  · extract_lets -merge -underBinder +onlyGivenNames i
    try clear_value i
    extract_lets -merge -underBinder +onlyGivenNames k
    try clear_value k
    exact held2_mk (held_showMotion (dj hF) (held_lamp (dj hF) (held_modGrp (dj hF) ‹_›)))
theorem held_indicateChanges {s} (hF : Dj F 0x1001000298009) (hs : Held b0 F s) : Held b0 F (State.indicateChanges s) := by
  unfold State.indicateChanges
  refine ite_ind (Q := Held b0 F) (fun _ => ?_) (fun _ => ?_)
  · refine foldl_ind (Q := Held b0 F) (fun _ _ hs => ?_) ?_
    · exact held_indicateChange (dj hF) ‹_›
    · assumption
  · assumption
theorem held_endCall {s i st} (hF : Dj F 0x1001200298009) (hs : Held b0 F s) : Held b0 F (State.endCall s i st) := by
  unfold State.endCall
  extract_lets -merge -underBinder +onlyGivenNames k
  try clear_value k
  extract_lets -merge -underBinder +onlyGivenNames w
  try clear_value w
  exact held_showMotion (dj hF) (held_lamp (dj hF) (held_modCall (dj hF) ‹_›))
theorem held_serveAt {s c l} (hF : Dj F 0x1101200ad8029) (hs : Held b0 F s) : Held b0 F (State.serveAt s c l) := by
  unfold State.serveAt
  extract_lets -merge -underBinder +onlyGivenNames here
  try clear_value here
  extract_lets -merge -underBinder +onlyGivenNames s
  have hs : Held b0 F s := by
    unfold s
    refine foldl_ind (Q := Held b0 F) (fun s _ hs => ?_) ?_
    · refine ite_ind (Q := Held b0 F) (fun _ => ?_) (fun _ => ?_)
      · exact held_endCall (dj hF) (held_picked (dj hF) ‹_›)
      · refine ite_ind (Q := Held b0 F) (fun _ => ?_) (fun _ => ?_)
        · exact held_endCall (dj hF) ‹_›
        · refine ite_ind (Q := Held b0 F) (fun _ => ?_) (fun _ => ?_)
          · exact held_modCall (dj hF) (held_picked (dj hF) ‹_›)
          · refine ite_ind (Q := Held b0 F) (fun _ => ?_) (fun _ => ?_)
            · assumption
            · exact held_endCall (dj hF) (held_picked (dj hF) ‹_›)
    · assumption
  try clear_value s
  refine foldl_ind (Q := Held b0 F) (fun s _ hs => ?_) ?_
  · exact held_openDoor (dj hF) ‹_›
  · assumption
theorem held_refuse {s i h de} (hF : Dj F 0x11141200ad802b) (hs : Held b0 F s) : Held b0 F (State.refuse s i h de) := by
  unfold State.refuse
  extract_lets -merge -underBinder +onlyGivenNames k
  try clear_value k
  extract_lets -merge -underBinder +onlyGivenNames s
  have hs : Held b0 F s := held_indicateCall (dj hF) (held_assignMsg (dj hF) (held_endCall (dj hF) ‹_›))
  try clear_value s
  extract_lets -merge -underBinder +onlyGivenNames s
  have hs : Held b0 F s := held_limited (dj hF) (held_inc (dj hF) ‹_› (off_GRP_CALLS_REFUSED (dj hF)))
  try clear_value s
  extract_lets -merge -underBinder +onlyGivenNames s
  have hs : Held b0 F s := held_flag (dj hF) (held_raise (dj hF) ‹_›) (off_GRP_EVENT_STATUS_REFUSED (dj hF))
  try clear_value s
  split
  · refine ite_ind (Q := Held b0 F) (fun _ => ?_) (fun _ => ?_)
    · refine foldl_ind (Q := Held b0 F) (fun s _ hs => ?_) ?_
      · refine ite_ind (Q := Held b0 F) (fun _ => ?_) (fun _ => ?_)
        · exact held_openDoor (dj hF) ‹_›
        · assumption
      · assumption
    · assumption
  · assumption
theorem held_clearEvac {s l} (hF : Dj F 0x1001200298009) (hs : Held b0 F s) : Held b0 F (State.clearEvac s l) := by
  unfold State.clearEvac
  refine held_modGrp (dj hF) ?_
  refine foldl_ind (Q := Held b0 F) (fun s _ hs => ?_) ?_
  · exact held_endCall (dj hF) ‹_›
  · assumption
theorem held_giveUp {s c cancelCar} (hF : Dj F 0x1041200298009) (hs : Held b0 F s) : Held b0 F (State.giveUp s c cancelCar) := by
  unfold State.giveUp
  extract_lets -merge -underBinder +onlyGivenNames kept
  try clear_value kept
  refine foldl_ind (Q := Held b0 F) (fun s _ hs => ?_) ?_
  · refine ite_ind (Q := Held b0 F) (fun _ => ?_) (fun _ => ?_)
    · refine ite_ind (Q := Held b0 F) (fun _ => ?_) (fun _ => ?_)
      · exact held_endCall (dj hF) ‹_›
      · assumption
    · refine ite_ind (Q := Held b0 F) (fun _ => ?_) (fun _ => ?_)
      · assumption
      · refine ite_ind (Q := Held b0 F) (fun _ => ?_) (fun _ => ?_)
        · refine ite_ind (Q := Held b0 F) (fun _ => ?_) (fun _ => ?_)
          · exact held_endCall (dj hF) ‹_›
          · assumption
        · refine ite_ind (Q := Held b0 F) (fun _ => ?_) (fun _ => ?_)
          · assumption
          · exact held_inc (dj hF) (held_modCall (dj hF) ‹_›) (off_GRP_REASSIGNMENTS (dj hF))
  · assumption
theorem held_judgeCar {s c} (hF : Dj F 0x1104120029800b) (hs : Held b0 F s) : Held b0 F (State.judgeCar s c) := by
  unfold State.judgeCar
  extract_lets -merge -underBinder +onlyGivenNames s
  have hs : Held b0 F s := held_fireStep (dj hF) ‹_›
  try clear_value s
  extract_lets -merge -underBinder +onlyGivenNames old
  try clear_value old
  extract_lets -merge -underBinder +onlyGivenNames new
  try clear_value new
  refine ite_ind (Q := Held b0 F) (fun _ => ?_) (fun _ => ?_)
  · assumption
  · extract_lets -merge -underBinder +onlyGivenNames s
    have hs : Held b0 F s := held_wr (dj hF) ‹_› (off_GRP_CAR_STATE_STATE (dj hF))
    try clear_value s
    extract_lets -merge -underBinder +onlyGivenNames s
    have hs : Held b0 F s := held_modGcar (dj hF) ‹_›
    try clear_value s
    refine ite_ind (Q := Held b0 F) (fun _ => ?_) (fun _ => ?_)
    · exact held_flag (dj hF) (held_raise (dj hF) ‹_›) (off_GRP_EVENT_STATUS_CAR_SERVICE (dj hF))
    · extract_lets -merge -underBinder +onlyGivenNames s
      have hs : Held b0 F s := held_giveUp (dj hF) ‹_›
      try clear_value s
      refine ite_ind (Q := Held b0 F) (fun _ => ?_) (fun _ => ?_)
      · exact held_flag (dj hF) (held_raise (dj hF) ‹_›) (off_GRP_EVENT_STATUS_CAR_SERVICE (dj hF))
      · assumption
theorem held_judgeCall {s i} (hF : Dj F 0x11141200ad802b) (hs : Held b0 F s) : Held b0 F (State.judgeCall s i) := by
  unfold State.judgeCall
  extract_lets -merge -underBinder +onlyGivenNames k
  try clear_value k
  refine ite_ind (Q := Held b0 F) (fun _ => ?_) (fun _ => ?_)
  · assumption
  · extract_lets -merge -underBinder +onlyGivenNames cs
    try clear_value cs
    extract_lets -merge -underBinder +onlyGivenNames costs
    try clear_value costs
    extract_lets -merge -underBinder +onlyGivenNames h
    try clear_value h
    extract_lets -merge -underBinder +onlyGivenNames ok
    try clear_value ok
    extract_lets -merge -underBinder +onlyGivenNames best
    try clear_value best
    split
    · exact held_assign (dj hF) ‹_›
    · refine ite_ind (Q := Held b0 F) (fun _ => ?_) (fun _ => ?_)
      · refine ite_ind (Q := Held b0 F) (fun _ => ?_) (fun _ => ?_)
        · assumption
        · exact held_indicateCall (dj hF) (held_flag (dj hF) (held_raise (dj hF) (held_modCall (dj hF) ‹_›)) (off_GRP_EVENT_STATUS_STRANDED (dj hF)))
      · exact held_refuse (dj hF) ‹_›
theorem held_carArrived {s c l} (hF : Dj F 0x11141200af802b) (hs : Held b0 F s) : Held b0 F (State.carArrived s c l) := by
  unfold State.carArrived
  extract_lets -merge -underBinder +onlyGivenNames s
  have hs : Held b0 F s := held_modCar (dj hF) ‹_›
  try clear_value s
  extract_lets -merge -underBinder +onlyGivenNames s
  have hs : Held b0 F s := by
    unfold s
    refine foldl_ind (Q := Held b0 F) (fun s _ hs => ?_) ?_
    · exact held_modDoor (dj hF) ‹_›
    · assumption
  try clear_value s
  extract_lets -merge -underBinder +onlyGivenNames s
  have hs : Held b0 F s := held_serveAt (dj hF) (held_modGcar (dj hF) ‹_›)
  try clear_value s
  extract_lets -merge -underBinder +onlyGivenNames s
  have hs : Held b0 F s := by
    unfold s
    refine foldl_ind (Q := Held b0 F) (fun s _ hs => ?_) ?_
    · exact held_indicate (dj hF) ‹_›
    · assumption
  try clear_value s
  extract_lets -merge -underBinder +onlyGivenNames open'
  have hopen' : ∀ s_0, Held b0 F s_0 → Held b0 F (open' s_0) := by
    intro s_0 hs_0
    unfold open'
    refine foldl_ind (Q := Held b0 F) (fun s _ hs => ?_) ?_
    · exact held_openDoor (dj hF) ‹_›
    · assumption
  try clear_value open'
  refine ite_ind (Q := Held b0 F) (fun _ => ?_) (fun _ => ?_)
  · refine hopen' _ ?_
    · assumption
  · split
    · refine ite_ind (Q := Held b0 F) (fun _ => ?_) (fun _ => ?_)
      · refine hopen' _ ?_
        · assumption
      · assumption
    · extract_lets -merge -underBinder +onlyGivenNames x
      try clear_value x
      refine ite_ind (Q := Held b0 F) (fun _ => ?_) (fun _ => ?_)
      · refine hopen' _ ?_
        · exact held_modGcar (dj hF) ‹_›
      · refine ite_ind (Q := Held b0 F) (fun _ => ?_) (fun _ => ?_)
        · extract_lets -merge -underBinder +onlyGivenNames s
          have hs : Held b0 F s := held_inc (dj hF) (held_modGcar (dj hF) ‹_›) (off_GRP_EVAC_TRIPS (dj hF))
          try clear_value s
          extract_lets -merge -underBinder +onlyGivenNames trips
          try clear_value trips
          extract_lets -merge -underBinder +onlyGivenNames s
          have hs : Held b0 F s := by
            unfold s
            refine ite_ind (Q := Held b0 F) (fun _ => ?_) (fun _ => ?_)
            · exact held_flag (dj hF) (held_raise (dj hF) (held_modGrp (dj hF) ‹_›)) (off_GRP_EVENT_STATUS_EVAC_DESIGN (dj hF))
            · assumption
          try clear_value s
          refine hopen' _ ?_
          · assumption
        · refine hopen' _ ?_
          · assumption
    · assumption
theorem held_raiseEvac {s l e} (hF : Dj F 0x1001200298009) (hs : Held b0 F s) : Held b0 F (State.raiseEvac s l e) := by
  unfold State.raiseEvac
  exact held2_snd (held_register (dj hF) ‹_›)
theorem held_evacFinish {s} (hF : Dj F 0x1041200298009) (hs : Held b0 F s) : Held b0 F (State.evacFinish s) := by
  unfold State.evacFinish
  extract_lets -merge -underBinder +onlyGivenNames s
  have hs : Held b0 F s := held_wr (dj hF) ‹_› (off_GRP_EVAC_STATUS_CARS_WAITING (dj hF))
  try clear_value s
  extract_lets -merge -underBinder +onlyGivenNames s
  have hs : Held b0 F s := by
    unfold s
    refine foldl_ind (Q := Held b0 F) (fun s _ hs => ?_) ?_
    · exact held_endCall (dj hF) ‹_›
    · assumption
  try clear_value s
  refine foldl_ind (Q := Held b0 F) (fun s _ hs => ?_) ?_
  · exact held_modGcar (dj hF) ‹_›
  · assumption
theorem held_evacBegin {s} (hF : Dj F 0x11141200ad802b) (hs : Held b0 F s) : Held b0 F (State.evacBegin s) := by
  unfold State.evacBegin
  extract_lets -merge -underBinder +onlyGivenNames s
  have hs : Held b0 F s := held_wr (dj hF) (held_wr (dj hF) ‹_› (off_GRP_STATUS_MODE (dj hF))) (off_GRP_EVAC_TRIPS (dj hF))
  try clear_value s
  extract_lets -merge -underBinder +onlyGivenNames s
  have hs : Held b0 F s := held_modGrp (dj hF) ‹_›
  try clear_value s
  extract_lets -merge -underBinder +onlyGivenNames s
  have hs : Held b0 F s := by
    unfold s
    refine foldl_ind (Q := Held b0 F) (fun s _ hs => ?_) ?_
    · exact held_refuse (dj hF) ‹_›
    · assumption
  try clear_value s
  extract_lets -merge -underBinder +onlyGivenNames s
  have hs : Held b0 F s := by
    unfold s
    refine foldl_ind (Q := Held b0 F) (fun s _ hs => ?_) ?_
    · exact held_indicate (dj hF) ‹_›
    · assumption
  try clear_value s
  extract_lets -merge -underBinder +onlyGivenNames s
  have hs : Held b0 F s := by
    unfold s
    refine foldl_ind (Q := Held b0 F) (fun s _ hs => ?_) ?_
    · extract_lets -merge -underBinder +onlyGivenNames laden
      try clear_value laden
      exact held_modGcar (dj hF) ‹_›
    · assumption
  try clear_value s
  extract_lets -merge -underBinder +onlyGivenNames picks
  try clear_value picks
  extract_lets -merge -underBinder +onlyGivenNames s
  have hs : Held b0 F s := by
    unfold s
    refine foldl_ind (Q := Held b0 F) (fun s _ hs => ?_) ?_
    · refine ite_ind (Q := Held b0 F) (fun _ => ?_) (fun _ => ?_)
      · assumption
      · exact held_raiseEvac (dj hF) ‹_›
    · assumption
  try clear_value s
  exact held_raise (dj hF) ‹_›
theorem held_releaseN {n s} (hF : Dj F 0x11141200ad802b) (hs : Held b0 F s) : Held2 b0 F (State.releaseN n s) := by
  induction n generalizing s with
  | zero => exact hs
  | succ n ih =>
    unfold State.releaseN
    extract_lets h
    refine ite_ind (Q := Held2 b0 F) (fun _ => ?_) (fun _ => hs)
    split
    · exact hs
    · exact held2_mk (held2_snd (ih (held_refuse (dj hF) hs)))
theorem held_evacDepart {s c} (hF : Dj F 0x11101200ad802b) (hs : Held b0 F s) : Held b0 F (State.evacDepart s c) := by
  unfold State.evacDepart
  extract_lets -merge -underBinder +onlyGivenNames x
  try clear_value x
  refine ite_ind (Q := Held b0 F) (fun _ => ?_) (fun _ => ?_)
  · extract_lets -merge -underBinder +onlyGivenNames light
    try clear_value light
    extract_lets -merge -underBinder +onlyGivenNames n
    try clear_value n
    extract_lets -merge -underBinder +onlyGivenNames s
    have hs : Held b0 F s := held_modGcar (dj hF) (held_modGrp (dj hF) ‹_›)
    try clear_value s
    extract_lets -merge -underBinder +onlyGivenNames s
    have hs : Held b0 F s := by
      unfold s
      refine ite_ind (Q := Held b0 F) (fun _ => ?_) (fun _ => ?_)
      · exact held_clearEvac (dj hF) ‹_›
      · assumption
    try clear_value s
    refine foldl_ind (Q := Held b0 F) (fun s _ hs => ?_) ?_
    · exact held_closeDoor (dj hF) ‹_›
    · assumption
  · assumption
theorem held_regroup {s} (hF : Dj F 0x1041200298009) (hs : Held b0 F s) : Held b0 F (State.regroup s) := by
  unfold State.regroup
  refine ite_ind (Q := Held b0 F) (fun _ => ?_) (fun _ => ?_)
  · assumption
  · refine foldl_ind (Q := Held b0 F) (fun s _ hs => ?_) ?_
    · exact held_giveUp (dj hF) ‹_›
    · exact held_modGrp (dj hF) ‹_›
theorem held_serveCars {s} (hF : Dj F 0x11141200af802b) (hs : Held b0 F s) : Held b0 F (State.serveCars s) := by
  unfold State.serveCars
  refine foldl_ind (Q := Held b0 F) (fun s _ hs => ?_) ?_
  · split
    · exact held_carArrived (dj hF) ‹_›
    · assumption
  · assumption
theorem held_evacCar {s c} (hF : Dj F 0x111c1200afa02b) (hs : Held b0 F s) : Held b0 F (State.evacCar s c) := by
  unfold State.evacCar
  refine ite_ind (Q := Held b0 F) (fun _ => ?_) (fun _ => ?_)
  · assumption
  · extract_lets -merge -underBinder +onlyGivenNames full
    try clear_value full
    extract_lets -merge -underBinder +onlyGivenNames s
    have hs : Held b0 F s := by
      unfold s
      refine ite_ind (Q := Held b0 F) (fun _ => ?_) (fun _ => ?_)
      · exact held_evacDepart (dj hF) ‹_›
      · assumption
    try clear_value s
    extract_lets -merge -underBinder +onlyGivenNames x
    try clear_value x
    split
    · refine ite_ind (Q := Held b0 F) (fun _ => ?_) (fun _ => ?_)
      · assumption
      · extract_lets -merge -underBinder +onlyGivenNames l
        try clear_value l
        extract_lets -merge -underBinder +onlyGivenNames on
        try clear_value on
        split
        · extract_lets -merge -underBinder +onlyGivenNames s'
          have hs' : Held b0 F s' := held_evacSend (dj hF) ‹_›
          try clear_value s'
          refine ite_ind (Q := Held b0 F) (fun _ => ?_) (fun _ => ?_)
          · exact held_modGcar (dj hF) ‹_›
          · refine ite_ind (Q := Held b0 F) (fun _ => ?_) (fun _ => ?_)
            · refine foldl_ind (Q := Held b0 F) (fun s _ hs => ?_) ?_
              · exact held_openDoor (dj hF) ‹_›
              · exact held_modGcar (dj hF) ‹_›
            · assumption
        · refine ite_ind (Q := Held b0 F) (fun _ => ?_) (fun _ => ?_)
          · refine foldl_ind (Q := Held b0 F) (fun s _ hs => ?_) ?_
            · exact held_openDoor (dj hF) ‹_›
            · assumption
          · exact held_evacSend (dj hF) ‹_›
    · refine ite_ind (Q := Held b0 F) (fun _ => ?_) (fun _ => ?_)
      · assumption
      · exact held_evacSend (dj hF) ‹_›
    · refine ite_ind (Q := Held b0 F) (fun _ => ?_) (fun _ => ?_)
      · assumption
      · refine ite_ind (Q := Held b0 F) (fun _ => ?_) (fun _ => ?_)
        · exact held_carArrived (dj hF) ‹_›
        · exact held_evacSend (dj hF) ‹_›
    · assumption
theorem held_release {s} (hF : Dj F 0x11141200ad802b) (hs : Held b0 F s) : Held b0 F (State.release s) := by
  unfold State.release
  split
  rename_i n s heq
  have hs : Held b0 F s := held2_eq heq (by
    exact held_releaseN (dj hF) ‹_›
    )
  clear heq
  refine ite_ind (Q := Held b0 F) (fun _ => ?_) (fun _ => ?_)
  · assumption
  · exact held_flag (dj hF) (held_raise (dj hF) ‹_›) (off_GRP_EVENT_STATUS_REFUSED (dj hF))
theorem held_grpMode {s} (hF : Dj F 0x11141200ad802b) (hs : Held b0 F s) : Held b0 F (State.grpMode s) := by
  unfold State.grpMode
  extract_lets -merge -underBinder +onlyGivenNames m
  try clear_value m
  extract_lets -merge -underBinder +onlyGivenNames old
  try clear_value old
  refine ite_ind (Q := Held b0 F) (fun _ => ?_) (fun _ => ?_)
  · refine ite_ind (Q := Held b0 F) (fun _ => ?_) (fun _ => ?_)
    · assumption
    · exact held_evacBegin (dj hF) ‹_›
  · refine held_wr (dj hF) ?_ ?_
    · refine ite_ind (Q := Held b0 F) (fun _ => ?_) (fun _ => ?_)
      · exact held_evacFinish (dj hF) ‹_›
      · assumption
    · exact off_GRP_STATUS_MODE (dj hF)
theorem held_groupWork {s} (hF : Dj F 0x111c1200afa02b) (hs : Held b0 F s) : Held b0 F (State.groupWork s) := by
  unfold State.groupWork
  extract_lets -merge -underBinder +onlyGivenNames s
  have hs : Held b0 F s := held_serveCars (dj hF) ‹_›
  try clear_value s
  extract_lets -merge -underBinder +onlyGivenNames s
  have hs : Held b0 F s := by
    unfold s
    refine held_answerService (dj hF) ?_
    refine held_regroup (dj hF) ?_
    refine foldl_ind (Q := Held b0 F) (fun s _ hs => ?_) ?_
    · exact held_markBegun (dj hF) (held_judgeCar (dj hF) ‹_›)
    · assumption
  try clear_value s
  extract_lets -merge -underBinder +onlyGivenNames s
  have hs : Held b0 F s := by
    unfold s
    refine ite_ind (Q := Held b0 F) (fun _ => ?_) (fun _ => ?_)
    · assumption
    · exact held_release (dj hF) ‹_›
  try clear_value s
  extract_lets -merge -underBinder +onlyGivenNames s
  have hs : Held b0 F s := by
    unfold s
    refine foldl_ind (Q := Held b0 F) (fun _ _ hs => ?_) ?_
    · exact held_judgeCall (dj hF) ‹_›
    · assumption
  try clear_value s
  extract_lets -merge -underBinder +onlyGivenNames s
  have hs : Held b0 F s := by
    unfold s
    refine foldl_ind (Q := Held b0 F) (fun s _ hs => ?_) ?_
    · extract_lets -merge -underBinder +onlyGivenNames s
      have hs : Held b0 F s := held_planCar (dj hF) ‹_›
      try clear_value s
      refine ite_ind (Q := Held b0 F) (fun _ => ?_) (fun _ => ?_)
      · split
        · refine ite_ind (Q := Held b0 F) (fun _ => ?_) (fun _ => ?_)
          · exact held_serveAt (dj hF) ‹_›
          · assumption
        · assumption
      · assumption
    · assumption
  try clear_value s
  extract_lets -merge -underBinder +onlyGivenNames s
  have hs : Held b0 F s := by
    unfold s
    refine ite_ind (Q := Held b0 F) (fun _ => ?_) (fun _ => ?_)
    · refine foldl_ind (Q := Held b0 F) (fun _ _ hs => ?_) ?_
      · exact held_evacCar (dj hF) ‹_›
      · assumption
    · assumption
  try clear_value s
  extract_lets -merge -underBinder +onlyGivenNames s
  have hs : Held b0 F s := by
    unfold s
    refine foldl_ind (Q := Held b0 F) (fun _ _ hs => ?_) ?_
    · exact held_standOpen (dj hF) ‹_›
    · assumption
  try clear_value s
  exact held_policyTurn (dj hF) (held_showMotion (dj hF) (held_showGrp (dj hF) ‹_›))
theorem held_groupCycle {s} (hF : Dj F 0x111c1200afa02b) (hs : Held b0 F s) : Held b0 F (State.groupCycle s) := by
  unfold State.groupCycle
  refine ite_ind (Q := Held b0 F) (fun _ => ?_) (fun _ => ?_)
  · exact held_wrB (dj hF) (held_wr (dj hF) ‹_› (off_GRP_STATUS_MODE (dj hF))) (off_GRP_STATUS_STOPPED_THERMAL (dj hF))
  · exact held_groupWork (dj hF) (held_grpMode (dj hF) (held_wrB (dj hF) ‹_› (off_GRP_STATUS_STOPPED_THERMAL (dj hF))))

end Sys2Proof.Machine
end

