-- ==== Sys2Proof/Laws/KeptGrp.lean ====
section
/-!
SUPPORT. The operations of Machine/Grp.lean change only the parts that their masks name (Laws/Held.lean).
-/
namespace Sys2Proof.Machine
open Sys2Proof
set_option Elab.async false

variable {b0 : State} {F : Nat}

theorem held_execIndicateRefresh {s} (hF : Dj F 0x1001000218009) (hs : Held b0 F s) : HeldR b0 F (execIndicateRefresh s) := by
  unfold execIndicateRefresh
  refine ite_ind (Q := HeldR b0 F) (fun _ => ?_) (fun _ => ?_)
  · refine heldR_next ?_
    refine foldl_ind (Q := Held b0 F) (fun s _ hs => ?_) ?_
    · exact held_indicate (dj hF) ‹_›
    · assumption
  · exact heldR_next ‹_›
theorem held_hear {s f} (hF : Dj F 0x40000080001) (hs : Held b0 F s) : Held b0 F (State.hear s f) := by
  unfold State.hear
  exact held_showFixtures (dj hF) (held_modFixt (dj hF) ‹_›)
theorem held_execButtonStuck {f button s} (hF : Dj F 0x1004100028000b) (hs : Held b0 F s) : HeldR b0 F (execButtonStuck f button s) := by
  unfold execButtonStuck
  refine ite_ind (Q := HeldR b0 F) (fun _ => ?_) (fun _ => ?_)
  · extract_lets -merge -underBinder +onlyGivenNames s
    have hs : Held b0 F s := held_showFixtures (dj hF) (held_modFixt (dj hF) ‹_›)
    try clear_value s
    exact heldR_next (held_flag (dj hF) (held_raise (dj hF) ‹_›) (off_GRP_EVENT_STATUS_FIXTURE_FAULT (dj hF)))
  · exact heldR_next ‹_›
theorem held_cancelCall {q c s} (hF : Dj F 0x1001200a98029) (hs : Held b0 F s) : Held b0 F (State.cancelCall q c s) := by
  unfold State.cancelCall
  extract_lets -merge -underBinder +onlyGivenNames i
  try clear_value i
  refine ite_ind (Q := Held b0 F) (fun _ => ?_) (fun _ => ?_)
  · exact held_complete (dj hF) (held_endCall (dj hF) ‹_›)
  · exact held_complete (dj hF) ‹_›
theorem held_execEvacuationDwellExpiry {c s} (hF : Dj F 0x111c1200afa02b) (hs : Held b0 F s) : HeldR b0 F (execEvacuationDwellExpiry c s) := by
  unfold execEvacuationDwellExpiry
  refine ite_ind (Q := HeldR b0 F) (fun _ => ?_) (fun _ => ?_)
  · exact heldR_next (held_evacCar (dj hF) (held_evacDepart (dj hF) ‹_›))
  · exact heldR_next ‹_›
theorem held_fixtureBeat {s f status} (hF : Dj F 0x40000080001) (hs : Held b0 F s) : Held b0 F (State.fixtureBeat s f status) := by
  unfold State.fixtureBeat
  refine ite_ind (Q := Held b0 F) (fun _ => ?_) (fun _ => ?_)
  · exact held_modFixt (dj hF) (held_hear (dj hF) ‹_›)
  · assumption
theorem held_fixtureDest {s f dest ent flags} (hF : Dj F 0x1041200298009) (hs : Held b0 F s) : Held b0 F (State.fixtureDest s f dest ent flags) := by
  unfold State.fixtureDest
  split
  · assumption
  · extract_lets -merge -underBinder +onlyGivenNames s
    have hs : Held b0 F s := held_hear (dj hF) ‹_›
    try clear_value s
    refine ite_ind (Q := Held b0 F) (fun _ => ?_) (fun _ => ?_)
    · exact held2_snd (held_register (dj hF) ‹_›)
    · assumption
theorem held_carService {q c s} (hF : Dj F 0x880028) (hs : Held b0 F s) : Held b0 F (State.carService q c s) := by
  unfold State.carService
  extract_lets -merge -underBinder +onlyGivenNames car
  try clear_value car
  extract_lets -merge -underBinder +onlyGivenNames v
  try clear_value v
  refine ite_ind (Q := Held b0 F) (fun _ => ?_) (fun _ => ?_)
  · exact held_complete (dj hF) ‹_›
  · refine ite_ind (Q := Held b0 F) (fun _ => ?_) (fun _ => ?_)
    · exact held_complete (dj hF) ‹_›
    · exact held_modGrp (dj hF) (held_modGcar (dj hF) ‹_›)
theorem held_evacCall {q c s} (hF : Dj F 0x1001200a98029) (hs : Held b0 F s) : Held b0 F (State.evacCall q c s) := by
  unfold State.evacCall
  extract_lets -merge -underBinder +onlyGivenNames l
  try clear_value l
  refine ite_ind (Q := Held b0 F) (fun _ => ?_) (fun _ => ?_)
  · exact held_complete (dj hF) ‹_›
  · refine ite_ind (Q := Held b0 F) (fun _ => ?_) (fun _ => ?_)
    · exact held_complete (dj hF) ‹_›
    · refine ite_ind (Q := Held b0 F) (fun _ => ?_) (fun _ => ?_)
      · exact held_complete (dj hF) (held_raiseEvac (dj hF) ‹_›)
      · exact held_complete (dj hF) (held_clearEvac (dj hF) ‹_›)
theorem held_callRead {q c s} (hF : Dj F 0x800028) (hs : Held b0 F s) : Held b0 F (State.callRead q c s) := by
  unfold State.callRead
  split
  · exact held_complete (dj hF) ‹_›
  · extract_lets -merge -underBinder +onlyGivenNames w
    try clear_value w
    exact held_complete (dj hF) ‹_›
theorem held_inCarKey {s c on} (hF : Dj F 0x80000) (hs : Held b0 F s) : Held b0 F (State.inCarKey s c on) := by
  unfold State.inCarKey
  extract_lets -merge -underBinder +onlyGivenNames s
  have hs : Held b0 F s := held_modGcar (dj hF) ‹_›
  try clear_value s
  exact held_fireStep (dj hF) ‹_›
theorem held_execFixtureDestination {f dest ent flags s} (hF : Dj F 0x1041200298009) (hs : Held b0 F s) : HeldR b0 F (execFixtureDestination f dest ent flags s) := by
  unfold execFixtureDestination
  refine ite_ind (Q := HeldR b0 F) (fun _ => ?_) (fun _ => ?_)
  · exact heldR_next (held_fixtureDest (dj hF) ‹_›)
  · exact heldR_next ‹_›
theorem held_hostCall {q c s} (hF : Dj F 0x1001200a98029) (hs : Held b0 F s) : Held b0 F (State.hostCall q c s) := by
  unfold State.hostCall
  extract_lets -merge -underBinder +onlyGivenNames k
  try clear_value k
  extract_lets -merge -underBinder +onlyGivenNames l
  try clear_value l
  extract_lets -merge -underBinder +onlyGivenNames e
  try clear_value e
  extract_lets -merge -underBinder +onlyGivenNames d
  try clear_value d
  extract_lets -merge -underBinder +onlyGivenNames car
  try clear_value car
  extract_lets -merge -underBinder +onlyGivenNames at'
  try clear_value at'
  extract_lets -merge -underBinder +onlyGivenNames cars
  try clear_value cars
  refine ite_ind (Q := Held b0 F) (fun _ => ?_) (fun _ => ?_)
  · exact held_complete (dj hF) ‹_›
  · refine ite_ind (Q := Held b0 F) (fun _ => ?_) (fun _ => ?_)
    · exact held_complete (dj hF) ‹_›
    · refine ite_ind (Q := Held b0 F) (fun _ => ?_) (fun _ => ?_)
      · exact held_complete (dj hF) ‹_›
      · refine ite_ind (Q := Held b0 F) (fun _ => ?_) (fun _ => ?_)
        · exact held_complete (dj hF) ‹_›
        · refine ite_ind (Q := Held b0 F) (fun _ => ?_) (fun _ => ?_)
          · exact held_complete (dj hF) ‹_›
          · split
            rename_i i s heq
            have hs : Held b0 F s := held2_eq heq (by
              exact held_register (dj hF) ‹_›
              )
            clear heq
            exact held_complete (dj hF) ‹_›
theorem held_execHostCall {q s} (hF : Dj F 0x1001200a98029) (hs : Held b0 F s) : HeldR b0 F (execHostCall q s) := by
  unfold execHostCall
  refine held_onCmd (dj hF) ?_ ?_
  · assumption
  · intro y0 y1 hy1
    exact held_hostCall (dj hF) ‹_›
theorem held_execRefusedLampTimeout {i s} (hF : Dj F 0x1001000218009) (hs : Held b0 F s) : HeldR b0 F (execRefusedLampTimeout i s) := by
  unfold execRefusedLampTimeout
  refine ite_ind (Q := HeldR b0 F) (fun _ => ?_) (fun _ => ?_)
  · exact heldR_next (held_lamp (dj hF) ‹_›)
  · exact heldR_next ‹_›
theorem held_execGrpClearCounters {sess key s} (hF : Dj F 0x40000000001) (hs : Held b0 F s) : HeldR b0 F (execGrpClearCounters sess key s) := by
  unfold execGrpClearCounters
  exact ite_ind (Q := HeldR b0 F) (fun _ => heldR_next (held_clearAt 10 (dj hF) (dj hF) (by decide) (by decide) hs)) (fun _ => heldR_next hs)
theorem held_execFixtureHeartbeat {f status s} (hF : Dj F 0x40000080001) (hs : Held b0 F s) : HeldR b0 F (execFixtureHeartbeat f status s) := by
  unfold execFixtureHeartbeat
  refine ite_ind (Q := HeldR b0 F) (fun _ => ?_) (fun _ => ?_)
  · exact heldR_next (held_fixtureBeat (dj hF) ‹_›)
  · exact heldR_next ‹_›
theorem held_execCallRead {q s} (hF : Dj F 0x800028) (hs : Held b0 F s) : HeldR b0 F (execCallRead q s) := by
  unfold execCallRead
  refine held_onCmd (dj hF) ?_ ?_
  · assumption
  · intro y0 y1 hy1
    exact held_callRead (dj hF) ‹_›
theorem held_doorButton {s c close pressed} (hF : Dj F 0x10101200a4002b) (hs : Held b0 F s) : Held b0 F (State.doorButton s c close pressed) := by
  unfold State.doorButton
  refine foldl_ind (Q := Held b0 F) (fun s _ hs => ?_) ?_
  · refine ite_ind (Q := Held b0 F) (fun _ => ?_) (fun _ => ?_)
    · refine ite_ind (Q := Held b0 F) (fun _ => ?_) (fun _ => ?_)
      · refine ite_ind (Q := Held b0 F) (fun _ => ?_) (fun _ => ?_)
        · exact held_closeDoor (dj hF) ‹_›
        · assumption
      · refine ite_ind (Q := Held b0 F) (fun _ => ?_) (fun _ => ?_)
        · exact held_closeNow (dj hF) ‹_›
        · assumption
    · extract_lets -merge -underBinder +onlyGivenNames s
      have hs : Held b0 F s := held_modDoor (dj hF) ‹_›
      try clear_value s
      refine ite_ind (Q := Held b0 F) (fun _ => ?_) (fun _ => ?_)
      · refine ite_ind (Q := Held b0 F) (fun _ => ?_) (fun _ => ?_)
        · exact held_reopenDoor (dj hF) ‹_›
        · refine ite_ind (Q := Held b0 F) (fun _ => ?_) (fun _ => ?_)
          · assumption
          · exact held_openDoor (dj hF) ‹_›
      · refine ite_ind (Q := Held b0 F) (fun _ => ?_) (fun _ => ?_)
        · exact held_closeNow (dj hF) ‹_›
        · assumption
  · assumption
theorem held_execParkingDelayExpiry {c s} (hF : Dj F 0x80000082001) (hs : Held b0 F s) : HeldR b0 F (execParkingDelayExpiry c s) := by
  unfold execParkingDelayExpiry
  refine ite_ind (Q := HeldR b0 F) (fun _ => ?_) (fun _ => ?_)
  · split
    · refine heldR_next ?_
      refine held_modGcar (dj hF) ?_
      refine ite_ind (Q := Held b0 F) (fun _ => ?_) (fun _ => ?_)
      · assumption
      · exact held_setStop (dj hF) ‹_›
    · exact heldR_next (held_modGcar (dj hF) ‹_›)
  · exact heldR_next ‹_›
theorem held_pressed {s r b} (hF : Dj F 0x11101200ad802b) (hs : Held b0 F s) : Held b0 F (State.pressed s r b) := by
  unfold State.pressed
  extract_lets -merge -underBinder +onlyGivenNames acc
  try clear_value acc
  extract_lets -merge -underBinder +onlyGivenNames zz0 base
  try clear_value base
  split
  · refine ite_ind (Q := Held b0 F) (fun _ => ?_) (fun _ => ?_)
    · exact held2_snd (held_register (dj hF) ‹_›)
    · assumption
  · extract_lets -merge -underBinder +onlyGivenNames c
    try clear_value c
    extract_lets -merge -underBinder +onlyGivenNames g
    try clear_value g
    refine ite_ind (Q := Held b0 F) (fun _ => ?_) (fun _ => ?_)
    · refine ite_ind (Q := Held b0 F) (fun _ => ?_) (fun _ => ?_)
      · assumption
      · exact held2_snd (held_register (dj hF) ‹_›)
    · refine ite_ind (Q := Held b0 F) (fun _ => ?_) (fun _ => ?_)
      · exact held_doorButton (dj hF) ‹_›
      · refine ite_ind (Q := Held b0 F) (fun _ => ?_) (fun _ => ?_)
        · exact held_doorButton (dj hF) ‹_›
        · assumption
  · refine ite_ind (Q := Held b0 F) (fun _ => ?_) (fun _ => ?_)
    · exact held_raiseEvac (dj hF) ‹_›
    · assumption
  · assumption
theorem held_recallKey {s on} (hF : Dj F 0x1004100028000b) (hs : Held b0 F s) : Held b0 F (State.recallKey s on) := by
  unfold State.recallKey
  refine ite_ind (Q := Held b0 F) (fun _ => ?_) (fun _ => ?_)
  · assumption
  · extract_lets -merge -underBinder +onlyGivenNames s
    have hs : Held b0 F s := held_wrB (dj hF) (held_modGrp (dj hF) ‹_›) (off_GRP_STATUS_FIRE_RECALL (dj hF))
    try clear_value s
    extract_lets -merge -underBinder +onlyGivenNames s
    have hs : Held b0 F s := held_raise (dj hF) ‹_›
    try clear_value s
    refine foldl_ind (Q := Held b0 F) (fun s _ hs => ?_) ?_
    · exact held_modGcar (dj hF) ‹_›
    · assumption
theorem held_fixturePress {s f b down} (hF : Dj F 0x11141200ad802b) (hs : Held b0 F s) : Held b0 F (State.fixturePress s f b down) := by
  unfold State.fixturePress
  split
  · assumption
  · extract_lets -merge -underBinder +onlyGivenNames s
    have hs : Held b0 F s := held_hear (dj hF) ‹_›
    try clear_value s
    extract_lets -merge -underBinder +onlyGivenNames x
    try clear_value x
    refine ite_ind (Q := Held b0 F) (fun _ => ?_) (fun _ => ?_)
    · extract_lets -merge -underBinder +onlyGivenNames s
      have hs : Held b0 F s := held_modFixt (dj hF) ‹_›
      try clear_value s
      refine ite_ind (Q := Held b0 F) (fun _ => ?_) (fun _ => ?_)
      · assumption
      · exact held_pressed (dj hF) ‹_›
    · extract_lets -merge -underBinder +onlyGivenNames s
      have hs : Held b0 F s := held_showFixtures (dj hF) (held_modFixt (dj hF) ‹_›)
      try clear_value s
      refine ite_ind (Q := Held b0 F) (fun _ => ?_) (fun _ => ?_)
      · exact held_doorButton (dj hF) ‹_›
      · assumption
theorem held_execEvacCall {q s} (hF : Dj F 0x1001200a98029) (hs : Held b0 F s) : HeldR b0 F (execEvacCall q s) := by
  unfold execEvacCall
  refine held_onCmd (dj hF) ?_ ?_
  · assumption
  · intro y0 y1 hy1
    exact held_evacCall (dj hF) ‹_›
theorem held_execFixtureLost {f s} (hF : Dj F 0x1204100028000b) (hs : Held b0 F s) : HeldR b0 F (execFixtureLost f s) := by
  unfold execFixtureLost
  split
  · exact heldR_next ‹_›
  · refine ite_ind (Q := HeldR b0 F) (fun _ => ?_) (fun _ => ?_)
    · exact heldR_next ‹_›
    · extract_lets -merge -underBinder +onlyGivenNames s
      have hs : Held b0 F s := held_showFixtures (dj hF) (held_modFixt (dj hF) ‹_›)
      try clear_value s
      extract_lets -merge -underBinder +onlyGivenNames s
      have hs : Held b0 F s := by
        unfold s
        refine ite_ind (Q := Held b0 F) (fun _ => ?_) (fun _ => ?_)
        · exact held_flag (dj hF) ‹_› (off_SER_EVENT_STATUS_NODE_LOST (dj hF))
        · assumption
      try clear_value s
      exact heldR_next (held_flag (dj hF) (held_raise (dj hF) ‹_›) (off_GRP_EVENT_STATUS_FIXTURE_FAULT (dj hF)))
theorem held_execGroupDispatchCycle {s} (hF : Dj F 0x111c1200afa02b) (hs : Held b0 F s) : HeldR b0 F (execGroupDispatchCycle s) := by
  unfold execGroupDispatchCycle
  exact heldR_next (held_groupCycle (dj hF) ‹_›)
theorem held_execFixturePress {f button down s} (hF : Dj F 0x11141200ad802b) (hs : Held b0 F s) : HeldR b0 F (execFixturePress f button down s) := by
  unfold execFixturePress
  refine ite_ind (Q := HeldR b0 F) (fun _ => ?_) (fun _ => ?_)
  · exact heldR_next (held_fixturePress (dj hF) ‹_›)
  · exact heldR_next ‹_›
theorem held_fixtureKey {s f key on} (hF : Dj F 0x1104120029800b) (hs : Held b0 F s) : Held b0 F (State.fixtureKey s f key on) := by
  unfold State.fixtureKey
  split
  · assumption
  · extract_lets -merge -underBinder +onlyGivenNames s
    have hs : Held b0 F s := held_hear (dj hF) ‹_›
    try clear_value s
    extract_lets -merge -underBinder +onlyGivenNames c
    try clear_value c
    split
    · exact held_recallKey (dj hF) ‹_›
    · refine ite_ind (Q := Held b0 F) (fun _ => ?_) (fun _ => ?_)
      · exact held_inCarKey (dj hF) ‹_›
      · assumption
    · refine ite_ind (Q := Held b0 F) (fun _ => ?_) (fun _ => ?_)
      · exact held_modGcar (dj hF) ‹_›
      · assumption
    · refine ite_ind (Q := Held b0 F) (fun _ => ?_) (fun _ => ?_)
      · exact held_clearEvac (dj hF) ‹_›
      · assumption
    · refine ite_ind (Q := Held b0 F) (fun _ => ?_) (fun _ => ?_)
      · exact held_modGcar (dj hF) ‹_›
      · assumption
    · assumption
theorem held_execCancelCall {q s} (hF : Dj F 0x1001200a98029) (hs : Held b0 F s) : HeldR b0 F (execCancelCall q s) := by
  unfold execCancelCall
  refine held_onCmd (dj hF) ?_ ?_
  · assumption
  · intro y0 y1 hy1
    exact held_cancelCall (dj hF) ‹_›
theorem held_execCarService {q s} (hF : Dj F 0x880028) (hs : Held b0 F s) : HeldR b0 F (execCarService q s) := by
  unfold execCarService
  refine held_onCmd (dj hF) ?_ ?_
  · assumption
  · intro y0 y1 hy1
    exact held_carService (dj hF) ‹_›
theorem held_fixtureMsg {s f m} (hF : Dj F 0x11141200ad802b) (hs : Held b0 F s) : Held b0 F (State.fixtureMsg s f m) := by
  unfold State.fixtureMsg
  split
  · exact held_fixturePress (dj hF) ‹_›
  · exact held_fixtureDest (dj hF) ‹_›
  · exact held_fixtureKey (dj hF) ‹_›
  · exact held_fixtureBeat (dj hF) ‹_›
  · assumption
theorem held_execFixtureKey {f key on s} (hF : Dj F 0x1104120029800b) (hs : Held b0 F s) : HeldR b0 F (execFixtureKey f key on s) := by
  unfold execFixtureKey
  refine ite_ind (Q := HeldR b0 F) (fun _ => ?_) (fun _ => ?_)
  · exact heldR_next (held_fixtureKey (dj hF) ‹_›)
  · exact heldR_next ‹_›

end Sys2Proof.Machine
end

