-- ==== Sys2Proof/Laws/KeptDoor.lean ====
section
/-!
SUPPORT. The operations of Machine/Door.lean change only the parts that their masks name (Laws/Held.lean).
-/
namespace Sys2Proof.Machine
open Sys2Proof
set_option Elab.async false

variable {b0 : State} {F : Nat}

theorem held_execDoorClearCounters {sess key d s} (hF : Dj F 0x100000000001) (hs : Held b0 F s) : HeldR b0 F (execDoorClearCounters sess key d s) := by
  unfold execDoorClearCounters
  refine ite_ind (Q := HeldR b0 F) (fun h => heldR_next ?_) (fun _ => heldR_next hs)
  simp only [Bool.and_eq_true, decide_eq_true_eq] at h
  exact held_clearAt 12 (dj hF) (dj hF) (by simp [blkLo]) (by simp [blkHi]; omega) hs
theorem held_loseReference {s d} (hF : Dj F 0x10101200a4002b) (hs : Held b0 F s) : Held b0 F (State.loseReference s d) := by
  unfold State.loseReference
  extract_lets -merge -underBinder +onlyGivenNames s
  have hs : Held b0 F s := held_failMoves (dj hF) (held_doorTo (dj hF) ‹_›)
  try clear_value s
  exact held_flag (dj hF) (held_raise (dj hF) ‹_›) (off_DOOR_EVENT_STATUS_REFERENCE_LOST (dj hF))
theorem held_reopenInput {s d active} (hF : Dj F 0x100200840029) (hs : Held b0 F s) : Held b0 F (State.reopenInput s d active) := by
  unfold State.reopenInput
  exact held_reopenDoor (dj hF) (held_modDoor (dj hF) ‹_›)
theorem held_cmdHold {q c s} (hF : Dj F 0x10000841029) (hs : Held b0 F s) : Held b0 F (State.cmdHold q c s) := by
  unfold State.cmdHold
  extract_lets -merge -underBinder +onlyGivenNames d
  try clear_value d
  extract_lets -merge -underBinder +onlyGivenNames t
  try clear_value t
  refine ite_ind (Q := Held b0 F) (fun _ => ?_) (fun _ => ?_)
  · exact held_complete (dj hF) ‹_›
  · refine ite_ind (Q := Held b0 F) (fun _ => ?_) (fun _ => ?_)
    · exact held_complete (dj hF) ‹_›
    · exact held_complete (dj hF) (held_writeDoorItems (dj hF) (held_modDoor (dj hF) ‹_›))
theorem held_cmdStop {q c s} (hF : Dj F 0x10101200a4002b) (hs : Held b0 F s) : Held b0 F (State.cmdStop q c s) := by
  unfold State.cmdStop
  extract_lets -merge -underBinder +onlyGivenNames d
  try clear_value d
  extract_lets -merge -underBinder +onlyGivenNames st
  try clear_value st
  refine ite_ind (Q := Held b0 F) (fun _ => ?_) (fun _ => ?_)
  · exact held_complete (dj hF) ‹_›
  · refine ite_ind (Q := Held b0 F) (fun _ => ?_) (fun _ => ?_)
    · extract_lets -merge -underBinder +onlyGivenNames hard
      try clear_value hard
      exact held_modDoor (dj hF) (held_doorStop (dj hF) ‹_›)
    · exact held_complete (dj hF) ‹_›
theorem held_cmdClose {q c s} (hF : Dj F 0x10101200a4002b) (hs : Held b0 F s) : Held b0 F (State.cmdClose q c s) := by
  unfold State.cmdClose
  extract_lets -merge -underBinder +onlyGivenNames d
  try clear_value d
  extract_lets -merge -underBinder +onlyGivenNames bad
  try clear_value bad
  refine ite_ind (Q := Held b0 F) (fun _ => ?_) (fun _ => ?_)
  · exact held_complete (dj hF) ‹_›
  · refine ite_ind (Q := Held b0 F) (fun _ => ?_) (fun _ => ?_)
    · exact held_complete (dj hF) ‹_›
    · exact held_showLock (dj hF) (held_closeDoor (dj hF) (held_modDoor (dj hF) ‹_›))
theorem held_execDoorDwellExpiry {d s} (hF : Dj F 0x1010120024000b) (hs : Held b0 F s) : HeldR b0 F (execDoorDwellExpiry d s) := by
  unfold execDoorDwellExpiry
  refine ite_ind (Q := HeldR b0 F) (fun _ => ?_) (fun _ => ?_)
  · exact heldR_next (held_closeNow (dj hF) ‹_›)
  · exact heldR_next ‹_›
theorem held_execDoorClose {q s} (hF : Dj F 0x10101200a4002b) (hs : Held b0 F s) : HeldR b0 F (execDoorClose q s) := by
  unfold execDoorClose
  refine held_onCmd (dj hF) ?_ ?_
  · assumption
  · intro y0 y1 hy1
    exact held_cmdClose (dj hF) ‹_›
theorem held_takeDoor {s d b} (hF : Dj F 0x1101000248009) (hs : Held b0 F s) : Held b0 F (State.takeDoor s d b) := by
  unfold State.takeDoor
  extract_lets -merge -underBinder +onlyGivenNames flags
  try clear_value flags
  extract_lets -merge -underBinder +onlyGivenNames w
  try clear_value w
  extract_lets -merge -underBinder +onlyGivenNames vals
  try clear_value vals
  extract_lets -merge -underBinder +onlyGivenNames s
  have hs : Held b0 F s := by
    unfold s
    refine ite_ind (Q := Held b0 F) (fun _ => ?_) (fun _ => ?_)
    · exact held_canStanding (dj hF) ‹_›
    · assumption
  try clear_value s
  extract_lets -merge -underBinder +onlyGivenNames s
  have hs : Held b0 F s := held_modDoor (dj hF) ‹_›
  try clear_value s
  extract_lets -merge -underBinder +onlyGivenNames s
  have hs : Held b0 F s := held_wr (dj hF) (held_wr (dj hF) ‹_› (off_DOOR_DRIVE_STATUS_FLAGS (dj hF))) (off_DOOR_DRIVE_STATUS_FAULT_CODE (dj hF))
  try clear_value s
  extract_lets -merge -underBinder +onlyGivenNames s
  have hs : Held b0 F s := held_wr (dj hF) (held_wrB (dj hF) ‹_› (off_DOOR_DRIVE_STATUS_LOST (dj hF))) (off_DOOR_POSITION (dj hF))
  try clear_value s
  extract_lets -merge -underBinder +onlyGivenNames s
  have hs : Held b0 F s := held_wr (dj hF) ‹_› (off_DOOR_CURRENT (dj hF))
  try clear_value s
  exact held_wrB (dj hF) (held_wrB (dj hF) ‹_› (off_DOOR_STATUS_REFERENCED (dj hF))) (off_DOOR_STATUS_ENCODER_FALLBACK (dj hF))
theorem held_cmdOpen {q c s} (hF : Dj F 0x100200840029) (hs : Held b0 F s) : Held b0 F (State.cmdOpen q c s) := by
  unfold State.cmdOpen
  extract_lets -merge -underBinder +onlyGivenNames d
  try clear_value d
  extract_lets -merge -underBinder +onlyGivenNames bad
  try clear_value bad
  refine ite_ind (Q := Held b0 F) (fun _ => ?_) (fun _ => ?_)
  · exact held_complete (dj hF) ‹_›
  · refine ite_ind (Q := Held b0 F) (fun _ => ?_) (fun _ => ?_)
    · exact held_complete (dj hF) ‹_›
    · refine ite_ind (Q := Held b0 F) (fun _ => ?_) (fun _ => ?_)
      · exact held_complete (dj hF) ‹_›
      · exact held_openDoor (dj hF) (held_modDoor (dj hF) ‹_›)
theorem held_execDoorStop {q s} (hF : Dj F 0x10101200a4002b) (hs : Held b0 F s) : HeldR b0 F (execDoorStop q s) := by
  unfold execDoorStop
  refine held_onCmd (dj hF) ?_ ?_
  · assumption
  · intro y0 y1 hy1
    exact held_cmdStop (dj hF) ‹_›
theorem held_doorStill {s d} (hF : Dj F 0x840028) (hs : Held b0 F s) : Held b0 F (State.doorStill s d) := by
  unfold State.doorStill
  extract_lets -merge -underBinder +onlyGivenNames q
  try clear_value q
  refine ite_ind (Q := Held b0 F) (fun _ => ?_) (fun _ => ?_)
  · exact held_setFrom (dj hF) (held_modDoor (dj hF) ‹_›)
  · assumption
theorem held_limitSet {s d top} (hF : Dj F 0x40000) (hs : Held b0 F s) : Held b0 F (State.limitSet s d top) := by
  unfold State.limitSet
  extract_lets -merge -underBinder +onlyGivenNames hard
  try clear_value hard
  refine ite_ind (Q := Held b0 F) (fun _ => ?_) (fun _ => ?_)
  · exact held_modDoor (dj hF) ‹_›
  · assumption
theorem held_execDoorOpen {q s} (hF : Dj F 0x100200840029) (hs : Held b0 F s) : HeldR b0 F (execDoorOpen q s) := by
  unfold execDoorOpen
  refine held_onCmd (dj hF) ?_ ?_
  · assumption
  · intro y0 y1 hy1
    exact held_cmdOpen (dj hF) ‹_›
theorem held_cmdReference {q c s} (hF : Dj F 0x100200840029) (hs : Held b0 F s) : Held b0 F (State.cmdReference q c s) := by
  unfold State.cmdReference
  extract_lets -merge -underBinder +onlyGivenNames d
  try clear_value d
  refine ite_ind (Q := Held b0 F) (fun _ => ?_) (fun _ => ?_)
  · exact held_complete (dj hF) ‹_›
  · refine ite_ind (Q := Held b0 F) (fun _ => ?_) (fun _ => ?_)
    · exact held_complete (dj hF) ‹_›
    · refine ite_ind (Q := Held b0 F) (fun _ => ?_) (fun _ => ?_)
      · exact held_complete (dj hF) ‹_›
      · exact held_modDoor (dj hF) (held_doorTo (dj hF) (held_failMoves (dj hF) ‹_›))
theorem held_lockFailed {s d} (hF : Dj F 0x10101200a4002b) (hs : Held b0 F s) : Held b0 F (State.lockFailed s d) := by
  unfold State.lockFailed
  extract_lets -merge -underBinder +onlyGivenNames n
  try clear_value n
  extract_lets -merge -underBinder +onlyGivenNames s
  have hs : Held b0 F s := held_modDoor (dj hF) ‹_›
  try clear_value s
  refine ite_ind (Q := Held b0 F) (fun _ => ?_) (fun _ => ?_)
  · extract_lets -merge -underBinder +onlyGivenNames s
    have hs : Held b0 F s := held_doorFault (dj hF) ‹_›
    try clear_value s
    exact held_flag (dj hF) (held_raise (dj hF) ‹_›) (off_DOOR_EVENT_STATUS_LOCK_FAILED (dj hF))
  · exact held_openNow (dj hF) (held_doorCause (dj hF) ‹_›)
theorem held_nudge {s d} (hF : Dj F 0x1010120024000b) (hs : Held b0 F s) : Held b0 F (State.nudge s d) := by
  unfold State.nudge
  exact held_flag (dj hF) (held_raise (dj hF) (held_doorTo (dj hF) ‹_›)) (off_DOOR_EVENT_STATUS_NUDGE (dj hF))
theorem held_execObstructionResume {d s} (hF : Dj F 0x100200040001) (hs : Held b0 F s) : HeldR b0 F (execObstructionResume d s) := by
  unfold execObstructionResume
  extract_lets -merge -underBinder +onlyGivenNames n
  try clear_value n
  refine ite_ind (Q := HeldR b0 F) (fun _ => ?_) (fun _ => ?_)
  · exact heldR_next (held_doorTo (dj hF) ‹_›)
  · exact heldR_next ‹_›
theorem held_execClearEnvelope {sess key d s} (hF : Dj F 0x100000040001) (hs : Held b0 F s) : HeldR b0 F (execClearEnvelope sess key d s) := by
  unfold execClearEnvelope
  refine ite_ind (Q := HeldR b0 F) (fun _ => ?_) (fun _ => ?_)
  · exact heldR_next (held_wr (dj hF) (held_modDoor (dj hF) ‹_›) (off_DOOR_STATUS_ENVELOPE_MOVES (dj hF)))
  · exact heldR_next ‹_›
theorem held_doorStatus {s d b} (hF : Dj F 0x11101200a4802b) (hs : Held b0 F s) : Held b0 F (State.doorStatus s d b) := by
  unfold State.doorStatus
  refine ite_ind (Q := Held b0 F) (fun _ => ?_) (fun _ => ?_)
  · extract_lets -merge -underBinder +onlyGivenNames was
    try clear_value was
    extract_lets -merge -underBinder +onlyGivenNames s
    have hs : Held b0 F s := held_takeDoor (dj hF) ‹_›
    try clear_value s
    extract_lets -merge -underBinder +onlyGivenNames s
    have hs : Held b0 F s := by
      unfold s
      refine ite_ind (Q := Held b0 F) (fun _ => ?_) (fun _ => ?_)
      · exact held_loseReference (dj hF) ‹_›
      · assumption
    try clear_value s
    exact held_doorAtStand (dj hF) (held_doorStill (dj hF) (held_reopenDoor (dj hF) (held_doorEnds (dj hF) ‹_›)))
  · assumption
theorem held_doorLimit {s d top active} (hF : Dj F 0x10101200a4002b) (hs : Held b0 F s) : Held b0 F (State.doorLimit s d top active) := by
  unfold State.doorLimit
  extract_lets -merge -underBinder +onlyGivenNames s
  have hs : Held b0 F s := held_wrB (dj hF) ‹_› (off_ite (off_DOOR_STATUS_OPEN_LIMIT (dj hF)) (off_DOOR_STATUS_CLOSED_LIMIT (dj hF)))
  try clear_value s
  refine ite_ind (Q := Held b0 F) (fun _ => ?_) (fun _ => ?_)
  · assumption
  · extract_lets -merge -underBinder +onlyGivenNames st
    try clear_value st
    extract_lets -merge -underBinder +onlyGivenNames s
    have hs : Held b0 F s := held_doorCause (dj hF) ‹_›
    try clear_value s
    refine ite_ind (Q := Held b0 F) (fun _ => ?_) (fun _ => ?_)
    · refine ite_ind (Q := Held b0 F) (fun _ => ?_) (fun _ => ?_)
      · exact held_limitSet (dj hF) (held_openDone (dj hF) ‹_›)
      · refine ite_ind (Q := Held b0 F) (fun _ => ?_) (fun _ => ?_)
        · exact held_limitSet (dj hF) (held_doorStop (dj hF) ‹_›)
        · assumption
    · refine ite_ind (Q := Held b0 F) (fun _ => ?_) (fun _ => ?_)
      · exact held_limitSet (dj hF) (held_closeDone (dj hF) ‹_›)
      · refine ite_ind (Q := Held b0 F) (fun _ => ?_) (fun _ => ?_)
        · exact held_refDone (dj hF) ‹_›
        · assumption
theorem held_loseDoor {s d} (hF : Dj F 0x10101200a4002b) (hs : Held b0 F s) : Held b0 F (State.loseDoor s d) := by
  unfold State.loseDoor
  extract_lets -merge -underBinder +onlyGivenNames s
  have hs : Held b0 F s := held_doorFault (dj hF) (held_wrB (dj hF) ‹_› (off_DOOR_DRIVE_STATUS_LOST (dj hF)))
  try clear_value s
  exact held_flag (dj hF) (held_raise (dj hF) (held_modDoor (dj hF) ‹_›)) (off_DOOR_EVENT_STATUS_DRIVE_LOST (dj hF))
theorem held_execReferencingTimeout {d s} (hF : Dj F 0x100200840029) (hs : Held b0 F s) : HeldR b0 F (execReferencingTimeout d s) := by
  unfold execReferencingTimeout
  refine ite_ind (Q := HeldR b0 F) (fun _ => ?_) (fun _ => ?_)
  · exact heldR_next (held_doorFault (dj hF) ‹_›)
  · exact heldR_next ‹_›
theorem held_execDoorHoldOpen {q s} (hF : Dj F 0x10000841029) (hs : Held b0 F s) : HeldR b0 F (execDoorHoldOpen q s) := by
  unfold execDoorHoldOpen
  refine held_onCmd (dj hF) ?_ ?_
  · assumption
  · intro y0 y1 hy1
    exact held_cmdHold (dj hF) ‹_›
theorem held_execDoorLimitInput {d top active s} (hF : Dj F 0x10101200a4002b) (hs : Held b0 F s) : HeldR b0 F (execDoorLimitInput d top active s) := by
  unfold execDoorLimitInput
  refine ite_ind (Q := HeldR b0 F) (fun _ => ?_) (fun _ => ?_)
  · exact heldR_next (held_doorLimit (dj hF) ‹_›)
  · exact heldR_next ‹_›
theorem held_execDoorDriveLost {d s} (hF : Dj F 0x10101200a4002b) (hs : Held b0 F s) : HeldR b0 F (execDoorDriveLost d s) := by
  unfold execDoorDriveLost
  refine ite_ind (Q := HeldR b0 F) (fun _ => ?_) (fun _ => ?_)
  · exact heldR_next (held_loseDoor (dj hF) ‹_›)
  · exact heldR_next ‹_›
theorem held_execLockTimeout {d s} (hF : Dj F 0x10101200a4002b) (hs : Held b0 F s) : HeldR b0 F (execLockTimeout d s) := by
  unfold execLockTimeout
  refine ite_ind (Q := HeldR b0 F) (fun _ => ?_) (fun _ => ?_)
  · exact heldR_next (held_lockFailed (dj hF) ‹_›)
  · exact heldR_next ‹_›
theorem held_execDoorReference {q s} (hF : Dj F 0x100200840029) (hs : Held b0 F s) : HeldR b0 F (execDoorReference q s) := by
  unfold execDoorReference
  refine held_onCmd (dj hF) ?_ ?_
  · assumption
  · intro y0 y1 hy1
    exact held_cmdReference (dj hF) ‹_›
theorem held_execNudgeTimeExpiry {d s} (hF : Dj F 0x1010120024000b) (hs : Held b0 F s) : HeldR b0 F (execNudgeTimeExpiry d s) := by
  unfold execNudgeTimeExpiry
  refine ite_ind (Q := HeldR b0 F) (fun _ => ?_) (fun _ => ?_)
  · exact heldR_next (held_nudge (dj hF) ‹_›)
  · exact heldR_next ‹_›
theorem held_execDoorStatusFrame {d data s} (hF : Dj F 0x11101200a4802b) (hs : Held b0 F s) : HeldR b0 F (execDoorStatusFrame d data s) := by
  unfold execDoorStatusFrame
  refine ite_ind (Q := HeldR b0 F) (fun _ => ?_) (fun _ => ?_)
  · exact heldR_next (held_doorStatus (dj hF) ‹_›)
  · exact heldR_next ‹_›

end Sys2Proof.Machine
end

