-- ==== Sys2Proof/Laws/KeptCar.lean ====
section
/-!
SUPPORT. The operations of Machine/Car.lean change only the parts that their masks name (Laws/Held.lean).
-/
namespace Sys2Proof.Machine
open Sys2Proof
set_option Elab.async false

variable {b0 : State} {F : Nat}

theorem held_ssiRead {s c r frame stamp back} (hF : Dj F 0x10681201a2602b) (hs : Held b0 F s) : Held b0 F (State.ssiRead s c r frame stamp back) := by
  unfold State.ssiRead
  extract_lets -merge -underBinder +onlyGivenNames old
  try clear_value old
  extract_lets -merge -underBinder +onlyGivenNames from'
  try clear_value from'
  extract_lets -merge -underBinder +onlyGivenNames s
  have hs : Held b0 F s := held_readTape (dj hF) ‹_›
  try clear_value s
  extract_lets -merge -underBinder +onlyGivenNames s
  have hs : Held b0 F s := by
    unfold s
    split
    · refine ite_ind (Q := Held b0 F) (fun _ => ?_) (fun _ => ?_)
      · exact held_modSafCar (dj hF) ‹_›
      · assumption
    · assumption
  try clear_value s
  exact held_watchCar (dj hF) (held_showPos (dj hF) (held_travelled (dj hF) ‹_›))
theorem held_execCarClearCounters {sess key c s} (hF : Dj F 0x80000000001) (hs : Held b0 F s) : HeldR b0 F (execCarClearCounters sess key c s) := by
  unfold execCarClearCounters
  refine ite_ind (Q := HeldR b0 F) (fun h => heldR_next ?_) (fun _ => heldR_next hs)
  simp only [Bool.and_eq_true, decide_eq_true_eq] at h
  exact held_clearAt 11 (dj hF) (dj hF) (by simp [blkLo]) (by simp [blkHi]; omega) hs
theorem held_takeTraction {s c b} (hF : Dj F 0x11481201a2c02b) (hs : Held b0 F s) : Held b0 F (State.takeTraction s c b) := by
  unfold State.takeTraction
  extract_lets -merge -underBinder +onlyGivenNames flags
  try clear_value flags
  extract_lets -merge -underBinder +onlyGivenNames w
  try clear_value w
  extract_lets -merge -underBinder +onlyGivenNames vals
  try clear_value vals
  extract_lets -merge -underBinder +onlyGivenNames good
  try clear_value good
  extract_lets -merge -underBinder +onlyGivenNames s
  have hs : Held b0 F s := by
    unfold s
    refine ite_ind (Q := Held b0 F) (fun _ => ?_) (fun _ => ?_)
    · exact held_canStanding (dj hF) ‹_›
    · assumption
  try clear_value s
  extract_lets -merge -underBinder +onlyGivenNames s
  have hs : Held b0 F s := held_modCar (dj hF) ‹_›
  try clear_value s
  extract_lets -merge -underBinder +onlyGivenNames s
  have hs : Held b0 F s := held_wr (dj hF) (held_wr (dj hF) ‹_› (off_CAR_DRIVE_STATUS_FLAGS (dj hF))) (off_CAR_DRIVE_STATUS_FAULT_CODE (dj hF))
  try clear_value s
  extract_lets -merge -underBinder +onlyGivenNames s
  have hs : Held b0 F s := held_inc (dj hF) (held_wr (dj hF) (held_wr (dj hF) ‹_› (off_CAR_DRIVE_SPEED (dj hF))) (off_CAR_DRIVE_TORQUE (dj hF))) (off_CAR_DRIVE_FRAMES (dj hF))
  try clear_value s
  extract_lets -merge -underBinder +onlyGivenNames s
  have hs : Held b0 F s := by
    unfold s
    refine ite_ind (Q := Held b0 F) (fun _ => ?_) (fun _ => ?_)
    · exact held_wrB (dj hF) ‹_› (off_CAR_DRIVE_STATUS_LOST (dj hF))
    · assumption
  try clear_value s
  refine ite_ind (Q := Held b0 F) (fun _ => ?_) (fun _ => ?_)
  · exact held_carStop (dj hF) ‹_›
  · assumption
theorem held_execLevellingTimeout {c s} (hF : Dj F 0x10481201a2402b) (hs : Held b0 F s) : HeldR b0 F (execLevellingTimeout c s) := by
  unfold execLevellingTimeout
  refine ite_ind (Q := HeldR b0 F) (fun _ => ?_) (fun _ => ?_)
  · exact heldR_next (held_carStop (dj hF) ‹_›)
  · exact heldR_next ‹_›
theorem held_indexEdge {s c r n} (hF : Dj F 0x1020100020200b) (hs : Held b0 F s) : Held b0 F (State.indexEdge s c r n) := by
  unfold State.indexEdge
  extract_lets -merge -underBinder +onlyGivenNames x
  try clear_value x
  extract_lets -merge -underBinder +onlyGivenNames s
  have hs : Held b0 F s := held_wrS48 (dj hF) ‹_› (off_POS_INDEX_LATCH_LO (dj hF))
  try clear_value s
  extract_lets -merge -underBinder +onlyGivenNames bad
  try clear_value bad
  extract_lets -merge -underBinder +onlyGivenNames run
  try clear_value run
  extract_lets -merge -underBinder +onlyGivenNames s
  have hs : Held b0 F s := held_setCh (dj hF) ‹_›
  try clear_value s
  extract_lets -merge -underBinder +onlyGivenNames s
  have hs : Held b0 F s := by
    unfold s
    refine ite_ind (Q := Held b0 F) (fun _ => ?_) (fun _ => ?_)
    · exact held_addSat (dj hF) ‹_› (off_POS_ERRORS_INDEX_ERRORS (dj hF))
    · assumption
  try clear_value s
  refine ite_ind (Q := Held b0 F) (fun _ => ?_) (fun _ => ?_)
  · exact held_sourceFault (dj hF) ‹_›
  · assumption
theorem held_terminalInput {s c e r active} (hF : Dj F 0x10681201a2602b) (hs : Held b0 F s) : Held b0 F (State.terminalInput s c e r active) := by
  unfold State.terminalInput
  extract_lets -merge -underBinder +onlyGivenNames s
  have hs : Held b0 F s := held_wrB (dj hF) ‹_› (off_CAR_TERMINAL_STATUS_TSD_ACTIVE (dj hF))
  try clear_value s
  refine ite_ind (Q := Held b0 F) (fun _ => ?_) (fun _ => ?_)
  · assumption
  · extract_lets -merge -underBinder +onlyGivenNames o
    try clear_value o
    extract_lets -merge -underBinder +onlyGivenNames top
    try clear_value top
    extract_lets -merge -underBinder +onlyGivenNames x
    try clear_value x
    extract_lets -merge -underBinder +onlyGivenNames endUm
    try clear_value endUm
    extract_lets -merge -underBinder +onlyGivenNames d
    try clear_value d
    extract_lets -merge -underBinder +onlyGivenNames lim
    try clear_value lim
    extract_lets -merge -underBinder +onlyGivenNames slack
    try clear_value slack
    extract_lets -merge -underBinder +onlyGivenNames s
    have hs : Held b0 F s := by
      unfold s
      refine ite_ind (Q := Held b0 F) (fun _ => ?_) (fun _ => ?_)
      · exact held_degrade (dj hF) (held_wrB (dj hF) ‹_› (off_CAR_TERMINAL_STATUS_MISMATCH (dj hF)))
      · assumption
    try clear_value s
    refine ite_ind (Q := Held b0 F) (fun _ => ?_) (fun _ => ?_)
    · extract_lets -merge -underBinder +onlyGivenNames s
      have hs : Held b0 F s := held_carStop (dj hF) ‹_›
      try clear_value s
      exact held_flag (dj hF) (held_raise (dj hF) ‹_›) (off_CAR_EVENT_STATUS_TERMINAL (dj hF))
    · assumption
theorem held_finalLimit {s c top active} (hF : Dj F 0x10481201a2402b) (hs : Held b0 F s) : Held b0 F (State.finalLimit s c top active) := by
  unfold State.finalLimit
  extract_lets -merge -underBinder +onlyGivenNames s
  have hs : Held b0 F s := held_wrB (dj hF) ‹_› (off_ite (off_CAR_TERMINAL_STATUS_FINAL_TOP (dj hF)) (off_CAR_TERMINAL_STATUS_FINAL_BOTTOM (dj hF)))
  try clear_value s
  refine ite_ind (Q := Held b0 F) (fun _ => ?_) (fun _ => ?_)
  · exact held_carStop (dj hF) ‹_›
  · assumption
theorem held_execBrakeLiftTimeout {c s} (hF : Dj F 0x10481201a2402b) (hs : Held b0 F s) : HeldR b0 F (execBrakeLiftTimeout c s) := by
  unfold execBrakeLiftTimeout
  refine ite_ind (Q := HeldR b0 F) (fun _ => ?_) (fun _ => ?_)
  · exact heldR_next (held_carStop (dj hF) ‹_›)
  · exact heldR_next ‹_›
theorem held_execRelevellingTimeout {c s} (hF : Dj F 0x10481201a2402b) (hs : Held b0 F s) : HeldR b0 F (execRelevellingTimeout c s) := by
  unfold execRelevellingTimeout
  refine ite_ind (Q := HeldR b0 F) (fun _ => ?_) (fun _ => ?_)
  · exact heldR_next (held_carStop (dj hF) ‹_›)
  · exact heldR_next ‹_›
theorem held_execTerminalSlowdownInput {c e active s} (hF : Dj F 0x10681201a2602b) (hs : Held b0 F s) : HeldR b0 F (execTerminalSlowdownInput c e active s) := by
  unfold execTerminalSlowdownInput
  split
  · exact heldR_next ‹_›
  · refine ite_ind (Q := HeldR b0 F) (fun _ => ?_) (fun _ => ?_)
    · exact heldR_next (held_terminalInput (dj hF) ‹_›)
    · exact heldR_next ‹_›
theorem held_execFinalLimitInput {c top active s} (hF : Dj F 0x10481201a2402b) (hs : Held b0 F s) : HeldR b0 F (execFinalLimitInput c top active s) := by
  unfold execFinalLimitInput
  refine ite_ind (Q := HeldR b0 F) (fun _ => ?_) (fun _ => ?_)
  · exact heldR_next (held_finalLimit (dj hF) ‹_›)
  · exact heldR_next ‹_›
theorem held_execClearFault {sess key c motorOk tapeOk s} (hF : Dj F 0x200000002001) (hs : Held b0 F s) : HeldR b0 F (execClearFault sess key c motorOk tapeOk s) := by
  unfold execClearFault
  refine ite_ind (Q := HeldR b0 F) (fun _ => ?_) (fun _ => ?_)
  · extract_lets -merge -underBinder +onlyGivenNames s
    have hs : Held b0 F s := by
      unfold s
      refine ite_ind (Q := Held b0 F) (fun _ => ?_) (fun _ => ?_)
      · exact held_modCh (dj hF) (held_wrB (dj hF) ‹_› (off_POS_STATUS_MOTOR_FAULT (dj hF)))
      · assumption
    try clear_value s
    refine heldR_next ?_
    refine ite_ind (Q := Held b0 F) (fun _ => ?_) (fun _ => ?_)
    · exact held_modCh (dj hF) (held_wrB (dj hF) ‹_› (off_POS_STATUS_TAPE_FAULT (dj hF)))
    · assumption
  · exact heldR_next ‹_›
theorem held_execPosClearCounters {sess key c s} (hF : Dj F 0x200000000001) (hs : Held b0 F s) : HeldR b0 F (execPosClearCounters sess key c s) := by
  unfold execPosClearCounters
  refine ite_ind (Q := HeldR b0 F) (fun h => heldR_next ?_) (fun _ => heldR_next hs)
  simp only [Bool.and_eq_true, decide_eq_true_eq] at h
  exact held_clearAt 13 (dj hF) (dj hF) (by simp [blkLo]) (by simp [blkHi]; omega) hs
theorem held_stopCar {q c s} (hF : Dj F 0x10481201a2402b) (hs : Held b0 F s) : Held b0 F (State.stopCar q c s) := by
  unfold State.stopCar
  extract_lets -merge -underBinder +onlyGivenNames k
  try clear_value k
  refine ite_ind (Q := Held b0 F) (fun _ => ?_) (fun _ => ?_)
  · exact held_complete (dj hF) ‹_›
  · refine ite_ind (Q := Held b0 F) (fun _ => ?_) (fun _ => ?_)
    · exact held_carStop (dj hF) (held_modCar (dj hF) ‹_›)
    · exact held_complete (dj hF) ‹_›
theorem held_execTractionGlideFrame {s} (hF : Dj F 0x1001000208009) (hs : Held b0 F s) : HeldR b0 F (execTractionGlideFrame s) := by
  unfold execTractionGlideFrame
  refine ite_ind (Q := HeldR b0 F) (fun _ => ?_) (fun _ => ?_)
  · exact heldR_next (held_tractionFrame (dj hF) ‹_›)
  · exact heldR_next ‹_›
theorem held_execStopCar {q s} (hF : Dj F 0x10481201a2402b) (hs : Held b0 F s) : HeldR b0 F (execStopCar q s) := by
  unfold execStopCar
  refine held_onCmd (dj hF) ?_ ?_
  · assumption
  · intro y0 y1 hy1
    exact held_stopCar (dj hF) ‹_›
theorem held_loseDrive {s c} (hF : Dj F 0x10481201a2402b) (hs : Held b0 F s) : Held b0 F (State.loseDrive s c) := by
  unfold State.loseDrive
  extract_lets -merge -underBinder +onlyGivenNames s
  have hs : Held b0 F s := held_modCar (dj hF) (held_incBy (dj hF) ‹_› (off_CAR_DRIVE_MISSED (dj hF)))
  try clear_value s
  refine ite_ind (Q := Held b0 F) (fun _ => ?_) (fun _ => ?_)
  · assumption
  · extract_lets -merge -underBinder +onlyGivenNames s
    have hs : Held b0 F s := held_wrB (dj hF) ‹_› (off_CAR_DRIVE_STATUS_LOST (dj hF))
    try clear_value s
    exact held_carStop (dj hF) (held_flag (dj hF) (held_raise (dj hF) ‹_›) (off_CAR_EVENT_STATUS_DRIVE_LOST (dj hF)))
theorem held_tractionStatus {s c b} (hF : Dj F 0x11481201a2c02b) (hs : Held b0 F s) : Held b0 F (State.tractionStatus s c b) := by
  unfold State.tractionStatus
  refine ite_ind (Q := Held b0 F) (fun _ => ?_) (fun _ => ?_)
  · exact held_takeTraction (dj hF) ‹_›
  · assumption
theorem held_execTargetWrite {c l e s} (hF : Dj F 0x80000002001) (hs : Held b0 F s) : HeldR b0 F (execTargetWrite c l e s) := by
  unfold execTargetWrite
  refine ite_ind (Q := HeldR b0 F) (fun _ => ?_) (fun _ => ?_)
  · exact heldR_next (held_writeTarget (dj hF) ‹_›)
  · exact heldR_next ‹_›
theorem held_correctionRun {q c s} (hF : Dj F 0x10481201a2402b) (hs : Held b0 F s) : Held b0 F (State.correctionRun q c s) := by
  unfold State.correctionRun
  extract_lets -merge -underBinder +onlyGivenNames k
  try clear_value k
  extract_lets -merge -underBinder +onlyGivenNames dir
  try clear_value dir
  refine ite_ind (Q := Held b0 F) (fun _ => ?_) (fun _ => ?_)
  · exact held_complete (dj hF) ‹_›
  · refine ite_ind (Q := Held b0 F) (fun _ => ?_) (fun _ => ?_)
    · exact held_complete (dj hF) ‹_›
    · extract_lets -merge -underBinder +onlyGivenNames s
      have hs : Held b0 F s := held_modCar (dj hF) (held_dropTarget (dj hF) ‹_›)
      try clear_value s
      exact held_startCar (dj hF) ‹_›
theorem held_execSsiRead {c frame stamp back s} (hF : Dj F 0x10681201a2602b) (hs : Held b0 F s) : HeldR b0 F (execSsiRead c frame stamp back s) := by
  unfold execSsiRead
  split
  · exact heldR_next ‹_›
  · refine ite_ind (Q := HeldR b0 F) (fun _ => ?_) (fun _ => ?_)
    · exact heldR_next (held_ssiRead (dj hF) ‹_›)
    · exact heldR_next ‹_›
theorem held_vaneAtStart {s c} (hF : Dj F 0x1020100020000b) (hs : Held b0 F s) : Held b0 F (State.vaneAtStart s c) := by
  unfold State.vaneAtStart
  refine ite_ind (Q := Held b0 F) (fun _ => ?_) (fun _ => ?_)
  · exact held_setQuality (dj hF) ‹_›
  · assumption
theorem held_execMotorSourceFault {c s} (hF : Dj F 0x10681201a2602b) (hs : Held b0 F s) : HeldR b0 F (execMotorSourceFault c s) := by
  unfold execMotorSourceFault
  refine ite_ind (Q := HeldR b0 F) (fun _ => ?_) (fun _ => ?_)
  · exact heldR_next (held_watchCar (dj hF) (held_sourceFault (dj hF) ‹_›))
  · exact heldR_next ‹_›
theorem held_execTractionStatusFrame {c data s} (hF : Dj F 0x11481201a2c02b) (hs : Held b0 F s) : HeldR b0 F (execTractionStatusFrame c data s) := by
  unfold execTractionStatusFrame
  refine ite_ind (Q := HeldR b0 F) (fun _ => ?_) (fun _ => ?_)
  · exact heldR_next (held_tractionStatus (dj hF) ‹_›)
  · exact heldR_next ‹_›
theorem held_execCorrectionRun {q s} (hF : Dj F 0x10481201a2402b) (hs : Held b0 F s) : HeldR b0 F (execCorrectionRun q s) := by
  unfold execCorrectionRun
  refine held_onCmd (dj hF) ?_ ?_
  · assumption
  · intro y0 y1 hy1
    exact held_correctionRun (dj hF) ‹_›
theorem held_execTractionDriveLost {c s} (hF : Dj F 0x10481201a2402b) (hs : Held b0 F s) : HeldR b0 F (execTractionDriveLost c s) := by
  unfold execTractionDriveLost
  refine ite_ind (Q := HeldR b0 F) (fun _ => ?_) (fun _ => ?_)
  · exact heldR_next (held_loseDrive (dj hF) ‹_›)
  · exact heldR_next ‹_›
theorem held_latchEdge {s c r src falling stamp back} (hF : Dj F 0x10281200a2202b) (hs : Held b0 F s) : Held b0 F (State.latchEdge s c r src falling stamp back) := by
  unfold State.latchEdge
  extract_lets -merge -underBinder +onlyGivenNames f
  try clear_value f
  extract_lets -merge -underBinder +onlyGivenNames n
  try clear_value n
  extract_lets -merge -underBinder +onlyGivenNames s
  have hs : Held b0 F s := held_modCh (dj hF) ‹_›
  try clear_value s
  split
  · extract_lets -merge -underBinder +onlyGivenNames x
    try clear_value x
    extract_lets -merge -underBinder +onlyGivenNames s
    have hs : Held b0 F s := held_setCh (dj hF) ‹_›
    try clear_value s
    refine ite_ind (Q := Held b0 F) (fun _ => ?_) (fun _ => ?_)
    · split
      · exact held_corrVane (dj hF) ‹_›
      · assumption
    · exact held_vaneAtStart (dj hF) ‹_›
  · exact held_wrB (dj hF) (held_modCh (dj hF) ‹_›) (off_CAR_STATUS_IN_DOOR_ZONE (dj hF))
  · extract_lets -merge -underBinder +onlyGivenNames x
    try clear_value x
    extract_lets -merge -underBinder +onlyGivenNames s
    have hs : Held b0 F s := held_setCh (dj hF) ‹_›
    try clear_value s
    refine ite_ind (Q := Held b0 F) (fun _ => ?_) (fun _ => ?_)
    · split
      · exact held_markPulse (dj hF) ‹_›
      · assumption
    · assumption
  · refine ite_ind (Q := Held b0 F) (fun _ => ?_) (fun _ => ?_)
    · assumption
    · exact held_indexEdge (dj hF) ‹_›
  · assumption
theorem held_execLatchEdge {c src falling stamp back s} (hF : Dj F 0x10681201a2602b) (hs : Held b0 F s) : HeldR b0 F (execLatchEdge c src falling stamp back s) := by
  unfold execLatchEdge
  split
  · exact heldR_next ‹_›
  · refine ite_ind (Q := HeldR b0 F) (fun _ => ?_) (fun _ => ?_)
    · exact heldR_next (held_watchCar (dj hF) (held_showPos (dj hF) (held_latchEdge (dj hF) ‹_›)))
    · exact heldR_next ‹_›

end Sys2Proof.Machine
end

