-- ==== Sys2Proof/Laws/KeptConnOps.lean ====
section
/-!
SUPPORT. The operations of Machine/ConnOps.lean change only the parts that their masks name (Laws/Held.lean).
-/
namespace Sys2Proof.Machine
open Sys2Proof
set_option Elab.async false

variable {b0 : State} {F : Nat}

theorem held_showConns {s} (hF : Dj F 0x400000000001) (hs : Held b0 F s) : Held b0 F (State.showConns s) := by
  unfold State.showConns
  exact held_wr (dj hF) ‹_› (off_SAF_CONNECTIONS_FAILSAFE (dj hF))
theorem held_readUnit {s r} (hF : Dj F 0x3000a00109) (hs : Held b0 F s) : Held b0 F (State.readUnit s r) := by
  unfold State.readUnit
  refine ite_ind (Q := Held b0 F) (fun _ => ?_) (fun _ => ?_)
  · extract_lets -merge -underBinder +onlyGivenNames base
    try clear_value base
    split
    · exact held_request (dj hF) ‹_›
  · assumption
theorem held_modConn {s k f} (hF : Dj F 0x4000) (hs : Held b0 F s) : Held b0 F (State.modConn s k f) := by
  unfold State.modConn
  exact held_modSaf (dj hF) ‹_›
theorem held_sendUnit {s k r kind u} (hF : Dj F 0x5003000a08109) (hs : Held b0 F s) : Held b0 F (State.sendUnit s k r kind u) := by
  unfold State.sendUnit
  refine ite_ind (Q := Held b0 F) (fun _ => ?_) (fun _ => ?_)
  · assumption
  · split
    · exact held_canSend (dj hF) ‹_›
    · refine foldl_ind (Q := Held b0 F) (fun s _ hs => ?_) ?_
      · exact held_sendEth (dj hF) ‹_›
      · assumption
    · extract_lets -merge -underBinder +onlyGivenNames base
      try clear_value base
      split
      · exact held_request (dj hF) ‹_›
    · assumption
theorem held_producePeriod {s k r} (hF : Dj F 0x5003001a0c109) (hs : Held b0 F s) : Held b0 F (State.producePeriod s k r) := by
  unfold State.producePeriod
  extract_lets -merge -underBinder +onlyGivenNames s
  have hs : Held b0 F s := held_readUnit (dj hF) ‹_›
  try clear_value s
  extract_lets -merge -underBinder +onlyGivenNames x
  try clear_value x
  refine ite_ind (Q := Held b0 F) (fun _ => ?_) (fun _ => ?_)
  · refine ite_ind (Q := Held b0 F) (fun _ => ?_) (fun _ => ?_)
    · extract_lets -merge -underBinder +onlyGivenNames q
      try clear_value q
      extract_lets -merge -underBinder +onlyGivenNames s
      have hs : Held b0 F s := held_modConn (dj hF) ‹_›
      try clear_value s
      refine ite_ind (Q := Held b0 F) (fun _ => ?_) (fun _ => ?_)
      · assumption
      · exact held_sendUnit (dj hF) ‹_›
    · assumption
  · refine ite_ind (Q := Held b0 F) (fun _ => ?_) (fun _ => ?_)
    · split
      rename_i w s heq
      have hs : Held b0 F s := held2_eq heq (by
        exact held_drawWord (dj hF) ‹_›
        )
      clear heq
      extract_lets -merge -underBinder +onlyGivenNames q
      try clear_value q
      exact held_sendUnit (dj hF) (held_modConn (dj hF) ‹_›)
    · assumption
theorem held_acceptData {s k r u} (hF : Dj F 0x5003000a0c109) (hs : Held b0 F s) : Held b0 F (State.acceptData s k r u) := by
  unfold State.acceptData
  extract_lets -merge -underBinder +onlyGivenNames s
  have hs : Held b0 F s := held_modConn (dj hF) ‹_›
  try clear_value s
  exact held_sendUnit (dj hF) ‹_›
theorem held_connTo {s k st} (hF : Dj F 0x10481201a2402b) (hs : Held b0 F s) : Held b0 F (State.connTo s k st) := by
  unfold State.connTo
  exact held_safety (dj hF) (held_showConns (dj hF) (held_modConn (dj hF) ‹_›))
theorem held_failSafe {s k cause} (hF : Dj F 0x10481201a2402b) (hs : Held b0 F s) : Held b0 F (State.failSafe s k cause) := by
  unfold State.failSafe
  extract_lets -merge -underBinder +onlyGivenNames s
  have hs : Held b0 F s := held_modConn (dj hF) ‹_›
  try clear_value s
  exact held_raise (dj hF) (held_connTo (dj hF) ‹_›)
theorem held_connRuns {s k} (hF : Dj F 0x10481201a2402b) (hs : Held b0 F s) : Held b0 F (State.connRuns s k) := by
  unfold State.connRuns
  exact held_raise (dj hF) (held_connTo (dj hF) ‹_›)
theorem held_judgeEcho {s k r u} (hF : Dj F 0x10481201a2402b) (hs : Held b0 F s) : Held b0 F (State.judgeEcho s k r u) := by
  unfold State.judgeEcho
  extract_lets -merge -underBinder +onlyGivenNames x
  try clear_value x
  extract_lets -merge -underBinder +onlyGivenNames q
  try clear_value q
  extract_lets -merge -underBinder +onlyGivenNames known
  try clear_value known
  refine ite_ind (Q := Held b0 F) (fun _ => ?_) (fun _ => ?_)
  · assumption
  · refine ite_ind (Q := Held b0 F) (fun _ => ?_) (fun _ => ?_)
    · exact held_failSafe (dj hF) ‹_›
    · refine ite_ind (Q := Held b0 F) (fun _ => ?_) (fun _ => ?_)
      · extract_lets -merge -underBinder +onlyGivenNames s
        have hs : Held b0 F s := held_modConn (dj hF) ‹_›
        try clear_value s
        refine ite_ind (Q := Held b0 F) (fun _ => ?_) (fun _ => ?_)
        · exact held_connRuns (dj hF) ‹_›
        · assumption
      · exact held_connTo (dj hF) (held_modConn (dj hF) ‹_›)
theorem held_judgeData {s k r u} (hF : Dj F 0x15483201a2c12b) (hs : Held b0 F s) : Held b0 F (State.judgeData s k r u) := by
  unfold State.judgeData
  extract_lets -merge -underBinder +onlyGivenNames x
  try clear_value x
  extract_lets -merge -underBinder +onlyGivenNames d
  try clear_value d
  refine ite_ind (Q := Held b0 F) (fun _ => ?_) (fun _ => ?_)
  · assumption
  · refine ite_ind (Q := Held b0 F) (fun _ => ?_) (fun _ => ?_)
    · exact held_failSafe (dj hF) ‹_›
    · refine ite_ind (Q := Held b0 F) (fun _ => ?_) (fun _ => ?_)
      · refine ite_ind (Q := Held b0 F) (fun _ => ?_) (fun _ => ?_)
        · exact held_connTo (dj hF) (held_modConn (dj hF) (held_acceptData (dj hF) ‹_›))
        · assumption
      · refine ite_ind (Q := Held b0 F) (fun _ => ?_) (fun _ => ?_)
        · exact held_modConn (dj hF) ‹_›
        · refine ite_ind (Q := Held b0 F) (fun _ => ?_) (fun _ => ?_)
          · extract_lets -merge -underBinder +onlyGivenNames s
            have hs : Held b0 F s := held_modConn (dj hF) (held_acceptData (dj hF) ‹_›)
            try clear_value s
            refine ite_ind (Q := Held b0 F) (fun _ => ?_) (fun _ => ?_)
            · exact held_safety (dj hF) ‹_›
            · refine ite_ind (Q := Held b0 F) (fun _ => ?_) (fun _ => ?_)
              · exact held_connRuns (dj hF) ‹_›
              · assumption
          · refine ite_ind (Q := Held b0 F) (fun _ => ?_) (fun _ => ?_)
            · exact held_failSafe (dj hF) ‹_›
            · exact held_failSafe (dj hF) ‹_›

end Sys2Proof.Machine
end

