-- ==== Sys2Proof/Laws/KeptConn.lean ====
section
/-!
SUPPORT. The operations of Machine/Conn.lean change only the parts that their masks name (Laws/Held.lean).
-/
namespace Sys2Proof.Machine
open Sys2Proof
set_option Elab.async false

variable {b0 : State} {F : Nat}

theorem held_connectionRead {q c s} (hF : Dj F 0x800028) (hs : Held b0 F s) : Held b0 F (State.connectionRead q c s) := by
  unfold State.connectionRead
  extract_lets -merge -underBinder +onlyGivenNames k
  try clear_value k
  refine ite_ind (Q := Held b0 F) (fun _ => ?_) (fun _ => ?_)
  · exact held_complete (dj hF) ‹_›
  · extract_lets -merge -underBinder +onlyGivenNames x
    try clear_value x
    exact held_complete (dj hF) ‹_›
theorem held_execConnectionRead {q s} (hF : Dj F 0x800028) (hs : Held b0 F s) : HeldR b0 F (execConnectionRead q s) := by
  unfold execConnectionRead
  refine held_onCmd (dj hF) ?_ ?_
  · assumption
  · intro y0 y1 hy1
    exact held_connectionRead (dj hF) ‹_›
theorem held_onConn {f : CfgRec → State} {s k} (hF : Dj F 0x0) (hs : Held b0 F s) (hf : ∀ y0, Held b0 F (f y0)) : Held b0 F (State.onConn s k f) := by
  unfold State.onConn
  split
  · refine ite_ind (Q := Held b0 F) (fun _ => ?_) (fun _ => ?_)
    · refine hf _
    · assumption
  · assumption
theorem held_countUnit {s k} (hF : Dj F 0x4000000000001) (hs : Held b0 F s) : Held b0 F (State.countUnit s k) := by
  unfold State.countUnit
  refine ite_ind (Q := Held b0 F) (fun _ => ?_) (fun _ => ?_)
  · assumption
  · split
    · refine ite_ind (Q := Held b0 F) (fun _ => ?_) (fun _ => ?_)
      · exact held_inc (dj hF) ‹_› (off_NET_SAFETY_RX (dj hF))
      · assumption
    · exact held_inc (dj hF) (held_inc (dj hF) ‹_› (off_NET_SAFETY_RX (dj hF))) (off_NET_SAFETY_REJECTED (dj hF))
theorem held_execFailSafeHoldExpiry {slot s} (hF : Dj F 0x10481201a2402b) (hs : Held b0 F s) : HeldR b0 F (execFailSafeHoldExpiry slot s) := by
  unfold execFailSafeHoldExpiry
  refine heldR_next ?_
  refine held_onConn (dj hF) ?_ ?_
  · assumption
  · intro x
    refine ite_ind (Q := Held b0 F) (fun _ => ?_) (fun _ => ?_)
    · exact held_connTo (dj hF) ‹_›
    · assumption
theorem held_countLength {s k n u} (hF : Dj F 0x4000000000001) (hs : Held b0 F s) : Held b0 F (State.countLength s k n u) := by
  unfold State.countLength
  refine ite_ind (Q := Held b0 F) (fun _ => ?_) (fun _ => ?_)
  · exact held_inc (dj hF) ‹_› (off_NET_SAFETY_REJECTED (dj hF))
  · assumption
theorem held_execSafetyProductionPeriod {slot s} (hF : Dj F 0x5003001a0c109) (hs : Held b0 F s) : HeldR b0 F (execSafetyProductionPeriod slot s) := by
  unfold execSafetyProductionPeriod
  refine heldR_next ?_
  refine held_onConn (dj hF) ?_ ?_
  · assumption
  · intro r
    exact held_producePeriod (dj hF) ‹_›
theorem held_execEchoLateTimeout {slot s} (hF : Dj F 0x10481201a2402b) (hs : Held b0 F s) : HeldR b0 F (execEchoLateTimeout slot s) := by
  unfold execEchoLateTimeout
  refine heldR_next ?_
  refine held_onConn (dj hF) ?_ ?_
  · assumption
  · intro r
    refine ite_ind (Q := Held b0 F) (fun _ => ?_) (fun _ => ?_)
    · exact held_failSafe (dj hF) ‹_›
    · assumption
theorem held_execConsumerWatchdogExpiry {slot s} (hF : Dj F 0x10481201a2402b) (hs : Held b0 F s) : HeldR b0 F (execConsumerWatchdogExpiry slot s) := by
  unfold execConsumerWatchdogExpiry
  refine heldR_next ?_
  refine held_onConn (dj hF) ?_ ?_
  · assumption
  · intro r
    refine ite_ind (Q := Held b0 F) (fun _ => ?_) (fun _ => ?_)
    · exact held_failSafe (dj hF) ‹_›
    · assumption
theorem held_echoArrives {s k u} (hF : Dj F 0x14481201a2402b) (hs : Held b0 F s) : Held b0 F (State.echoArrives s k u) := by
  unfold State.echoArrives
  extract_lets -merge -underBinder +onlyGivenNames s
  have hs : Held b0 F s := held_countLength (dj hF) (held_countUnit (dj hF) ‹_›)
  try clear_value s
  refine held_onConn (dj hF) ?_ ?_
  · assumption
  · intro r
    refine ite_ind (Q := Held b0 F) (fun _ => ?_) (fun _ => ?_)
    · exact held_judgeEcho (dj hF) ‹_›
    · assumption
theorem held_dataArrives {s k u} (hF : Dj F 0x15483201a2c12b) (hs : Held b0 F s) : Held b0 F (State.dataArrives s k u) := by
  unfold State.dataArrives
  extract_lets -merge -underBinder +onlyGivenNames s
  have hs : Held b0 F s := held_countLength (dj hF) (held_countUnit (dj hF) ‹_›)
  try clear_value s
  refine held_onConn (dj hF) ?_ ?_
  · assumption
  · intro r
    refine ite_ind (Q := Held b0 F) (fun _ => ?_) (fun _ => ?_)
    · assumption
    · exact held_judgeData (dj hF) ‹_›
theorem held_execSafetyDataFrame {slot data s} (hF : Dj F 0x15483201a2c12b) (hs : Held b0 F s) : HeldR b0 F (execSafetyDataFrame slot data s) := by
  unfold execSafetyDataFrame
  exact heldR_next (held_dataArrives (dj hF) ‹_›)
theorem held_execSafetyEchoFrame {slot data s} (hF : Dj F 0x14481201a2402b) (hs : Held b0 F s) : HeldR b0 F (execSafetyEchoFrame slot data s) := by
  unfold execSafetyEchoFrame
  exact heldR_next (held_echoArrives (dj hF) ‹_›)

end Sys2Proof.Machine
end

