-- ==== Sys2Proof/Laws/KeptSaf.lean ====
section
/-!
SUPPORT. The operations of Machine/Saf.lean change only the parts that their masks name (Laws/Held.lean).
-/
namespace Sys2Proof.Machine
open Sys2Proof
set_option Elab.async false

variable {b0 : State} {F : Nat}

theorem off_techField {i} (hF : Dj F 0x400000000000) : Off F (techField i) := off_ite (off_at 14 hF rfl) (off_at 14 hF rfl)
theorem held_confirmRefused {s why} (hF : Dj F 0x1040100020400b) (hs : Held b0 F s) : Held b0 F (State.confirmRefused s why) := by
  unfold State.confirmRefused
  extract_lets -merge -underBinder +onlyGivenNames s
  have hs : Held b0 F s := held_flag (dj hF) (held_raise (dj hF) (held_wr (dj hF) ‹_› (off_SAF_CONFIRM_STATUS_RESULT (dj hF)))) (off_SAF_EVENT_STATUS_CONFIRM_REFUSED (dj hF))
  try clear_value s
  refine ite_ind (Q := Held b0 F) (fun _ => ?_) (fun _ => ?_)
  · extract_lets -merge -underBinder +onlyGivenNames l
    try clear_value l
    extract_lets -merge -underBinder +onlyGivenNames s
    have hs : Held b0 F s := held_wr (dj hF) (held_modSaf (dj hF) ‹_›) (off_SAF_CONFIRM_STATUS_FAILS (dj hF))
    try clear_value s
    refine ite_ind (Q := Held b0 F) (fun _ => ?_) (fun _ => ?_)
    · exact held_recordBit (dj hF) (held_wrB (dj hF) ‹_› (off_SAF_STATUS_CONFIRM_LOCKOUT (dj hF))) (off_SAF_EVENT_STATUS_CONFIRM_REFUSED (dj hF))
    · assumption
  · assumption
theorem held_execSafClearCounters {sess key s} (hF : Dj F 0x400000000001) (hs : Held b0 F s) : HeldR b0 F (execSafClearCounters sess key s) := by
  unfold execSafClearCounters
  exact heldR_next (ite_ind (Q := Held b0 F) (fun _ => held_clearAt 14 (dj hF) (dj hF) (by decide) (by decide) hs) (fun _ => hs))
theorem held_execConfirmLockoutExpiry {s} (hF : Dj F 0x400000004001) (hs : Held b0 F s) : HeldR b0 F (execConfirmLockoutExpiry s) := by
  unfold execConfirmLockoutExpiry
  refine heldR_next ?_
  refine ite_ind (Q := Held b0 F) (fun _ => ?_) (fun _ => ?_)
  · exact held_wr (dj hF) (held_modSaf (dj hF) (held_wrB (dj hF) ‹_› (off_SAF_STATUS_CONFIRM_LOCKOUT (dj hF)))) (off_SAF_CONFIRM_STATUS_FAILS (dj hF))
  · assumption
theorem held_reSafe {s} (hF : Dj F 0x115c1201afc02b) (hs : Held b0 F s) : Held b0 F (State.reSafe s) := by
  unfold State.reSafe
  refine ite_ind (Q := Held b0 F) (fun _ => ?_) (fun _ => ?_)
  · exact held_serveCars (dj hF) (held_safety (dj hF) ‹_›)
  · assumption
theorem held_movedStill {s c moved} (hF : Dj F 0x115c1201afc02b) (hs : Held b0 F s) : Held b0 F (State.movedStill s c moved) := by
  unfold State.movedStill
  extract_lets -merge -underBinder +onlyGivenNames s
  have hs : Held b0 F s := held_wrR (dj hF) ‹_› (off_SAF_CAR_STANDSTILL_MOVE (dj hF))
  try clear_value s
  extract_lets -merge -underBinder +onlyGivenNames closed
  try clear_value closed
  refine ite_ind (Q := Held b0 F) (fun _ => ?_) (fun _ => ?_)
  · exact held_reSafe (dj hF) (held_latchCar (dj hF) (held_modSafCar (dj hF) ‹_›))
  · refine ite_ind (Q := Held b0 F) (fun _ => ?_) (fun _ => ?_)
    · exact held_reSafe (dj hF) (held_latchCar (dj hF) (held_modSafCar (dj hF) ‹_›))
    · assumption
theorem held_execSpeedLimitExceeded {c mps s} (hF : Dj F 0x115c1201afc02b) (hs : Held b0 F s) : HeldR b0 F (execSpeedLimitExceeded c mps s) := by
  unfold execSpeedLimitExceeded
  refine heldR_next ?_
  refine ite_ind (Q := Held b0 F) (fun _ => ?_) (fun _ => ?_)
  · exact held_reSafe (dj hF) (held_modSafCar (dj hF) ‹_›)
  · assumption
theorem held_repaired {s c} (hF : Dj F 0x115c1201afc02b) (hs : Held b0 F s) : Held b0 F (State.repaired s c) := by
  unfold State.repaired
  extract_lets -merge -underBinder +onlyGivenNames s
  have hs : Held b0 F s := held_wrB (dj hF) (held_wrB (dj hF) ‹_› (off_SAF_CAR_STATUS_TAPE_FAULT (dj hF))) (off_SAF_CAR_STATUS_ENC_FAULT (dj hF))
  try clear_value s
  extract_lets -merge -underBinder +onlyGivenNames s
  have hs : Held b0 F s := held_wr (dj hF) ‹_› (off_SAF_EDM_FAULT (dj hF))
  try clear_value s
  extract_lets -merge -underBinder +onlyGivenNames s
  have hs : Held b0 F s := held_modSafCar (dj hF) ‹_›
  try clear_value s
  extract_lets -merge -underBinder +onlyGivenNames s
  have hs : Held b0 F s := held_wr (dj hF) (held_wr (dj hF) ‹_› (off_SAF_CAR_MODE_MODE (dj hF))) (off_SAF_CAR_MODE_CAUSE (dj hF))
  try clear_value s
  exact held_reSafe (dj hF) (held_showModes (dj hF) (held_raise (dj hF) ‹_›))
theorem held_techFault {s t} (hF : Dj F 0x115c1201afe02b) (hs : Held b0 F s) : Held b0 F (State.techFault s t) := by
  unfold State.techFault
  refine ite_ind (Q := Held b0 F) (fun _ => ?_) (fun _ => ?_)
  · assumption
  · extract_lets -merge -underBinder +onlyGivenNames s
    have hs : Held b0 F s := held_flag (dj hF) (held_wrB (dj hF) ‹_› (off_ite (off_SAF_STATUS_PROC_OK (dj hF)) (off_SAF_STATUS_HW_OK (dj hF)))) (off_SAF_EVENT_STATUS_TECH_FAULT (dj hF))
    try clear_value s
    extract_lets -merge -underBinder +onlyGivenNames other
    try clear_value other
    extract_lets -merge -underBinder +onlyGivenNames s
    have hs : Held b0 F s := by
      unfold s
      refine ite_ind (Q := Held b0 F) (fun _ => ?_) (fun _ => ?_)
      · refine foldl_ind (Q := Held b0 F) (fun s _ hs => ?_) ?_
        · exact held_snowStart (dj hF) (held_snowplough (dj hF) ‹_›)
        · exact held_wr (dj hF) ‹_› (off_techField (dj hF))
      · refine foldl_ind (Q := Held b0 F) (fun s _ hs => ?_) ?_
        · exact held_latchCar (dj hF) ‹_›
        · exact held_wr (dj hF) (held_wr (dj hF) ‹_› (off_techField (dj hF))) (off_techField (dj hF))
    try clear_value s
    exact held_reSafe (dj hF) ‹_›
theorem held_safInput {s i high} (hF : Dj F 0x115c1201afc02b) (hs : Held b0 F s) : Held b0 F (State.safInput s i high) := by
  unfold State.safInput
  refine ite_ind (Q := Held b0 F) (fun _ => ?_) (fun _ => ?_)
  · exact held_wrB (dj hF) ‹_› (off_SAF_STATUS_KEY_SWITCH (dj hF))
  · refine ite_ind (Q := Held b0 F) (fun _ => ?_) (fun _ => ?_)
    · exact held_reSafe (dj hF) (held_modIn (dj hF) ‹_›)
    · assumption
theorem held_execSnowploughTimeout {c s} (hF : Dj F 0x115c1201afc02b) (hs : Held b0 F s) : HeldR b0 F (execSnowploughTimeout c s) := by
  unfold execSnowploughTimeout
  refine heldR_next ?_
  refine ite_ind (Q := Held b0 F) (fun _ => ?_) (fun _ => ?_)
  · exact held_reSafe (dj hF) (held_latchCar (dj hF) ‹_›)
  · assumption
theorem held_testPulse {s src high} (hF : Dj F 0x115c1201afc02b) (hs : Held b0 F s) : Held b0 F (State.testPulse s src high) := by
  unfold State.testPulse
  extract_lets -merge -underBinder +onlyGivenNames s
  have hs : Held b0 F s := held_wrB (dj hF) ‹_› (off_SAF_PULSE_STATUS_RUNNING (dj hF))
  try clear_value s
  extract_lets -merge -underBinder +onlyGivenNames s
  have hs : Held b0 F s := by
    unfold s
    refine foldl_ind (Q := Held b0 F) (fun s _ hs => ?_) ?_
    · refine ite_ind (Q := Held b0 F) (fun _ => ?_) (fun _ => ?_)
      · extract_lets -merge -underBinder +onlyGivenNames fresh
        try clear_value fresh
        extract_lets -merge -underBinder +onlyGivenNames s
        have hs : Held b0 F s := held_modIn (dj hF) ‹_›
        try clear_value s
        refine ite_ind (Q := Held b0 F) (fun _ => ?_) (fun _ => ?_)
        · exact held_inputFault (dj hF) ‹_›
        · assumption
      · exact held_modIn (dj hF) ‹_›
    · assumption
  try clear_value s
  exact held_reSafe (dj hF) ‹_›
theorem held_execRunRequestToggle {n s} (hF : Dj F 0x115c1201afc02b) (hs : Held b0 F s) : HeldR b0 F (execRunRequestToggle n s) := by
  unfold execRunRequestToggle
  refine heldR_next ?_
  refine ite_ind (Q := Held b0 F) (fun _ => ?_) (fun _ => ?_)
  · exact held_reSafe (dj hF) (held_wrB (dj hF) ‹_› (off_SAF_REQUEST (dj hF)))
  · assumption
theorem held_execTechHeartbeatLoss {tech s} (hF : Dj F 0x115c1201afe02b) (hs : Held b0 F s) : HeldR b0 F (execTechHeartbeatLoss tech s) := by
  unfold execTechHeartbeatLoss
  refine heldR_next ?_
  refine ite_ind (Q := Held b0 F) (fun _ => ?_) (fun _ => ?_)
  · exact held_techFault (dj hF) ‹_›
  · assumption
theorem held_safSource {s c tape enc} (hF : Dj F 0x115c1201afe02b) (hs : Held b0 F s) : Held b0 F (State.safSource s c tape enc) := by
  unfold State.safSource
  extract_lets -merge -underBinder +onlyGivenNames t
  try clear_value t
  extract_lets -merge -underBinder +onlyGivenNames e
  try clear_value e
  extract_lets -merge -underBinder +onlyGivenNames s
  have hs : Held b0 F s := held_wrB (dj hF) (held_wrB (dj hF) ‹_› (off_SAF_CAR_STATUS_TAPE_FAULT (dj hF))) (off_SAF_CAR_STATUS_ENC_FAULT (dj hF))
  try clear_value s
  refine held_reSafe (dj hF) ?_
  refine ite_ind (Q := Held b0 F) (fun _ => ?_) (fun _ => ?_)
  · exact held_latchCar (dj hF) ‹_›
  · exact held_snowStart (dj hF) (held_snowplough (dj hF) ‹_›)
theorem held_confirmed {s sess} (hF : Dj F 0x115c1a01afc02b) (hs : Held b0 F s) : Held b0 F (State.confirmed s sess) := by
  unfold State.confirmed
  extract_lets -merge -underBinder +onlyGivenNames v
  try clear_value v
  extract_lets -merge -underBinder +onlyGivenNames serial
  try clear_value serial
  extract_lets -merge -underBinder +onlyGivenNames s
  have hs : Held b0 F s := held_inc (dj hF) (held_wr (dj hF) (held_wr (dj hF) ‹_› (off_SAF_CONFIRM_STATUS_RESULT (dj hF))) (off_MAN_SAFETY_CONFIRMED (dj hF))) (off_SAF_CONFIRM_COUNT (dj hF))
  try clear_value s
  extract_lets -merge -underBinder +onlyGivenNames s
  have hs : Held b0 F s := held_wrB (dj hF) (held_wrB (dj hF) ‹_› (off_MAN_STATUS_SAFETY_UNCONFIRMED (dj hF))) (off_SAF_STATUS_UNCONFIRMED (dj hF))
  try clear_value s
  extract_lets -merge -underBinder +onlyGivenNames d
  try clear_value d
  exact held_reSafe (dj hF) (held_flag (dj hF) (held_raise (dj hF) ‹_›) (off_SAF_EVENT_STATUS_CONFIRMED (dj hF)))
theorem held_execResetFunction {sess key fn s} (hF : Dj F 0x115c1201afc02b) (hs : Held b0 F s) : HeldR b0 F (execResetFunction sess key fn s) := by
  unfold execResetFunction
  refine heldR_next ?_
  split
  · refine ite_ind (Q := Held b0 F) (fun _ => ?_) (fun _ => ?_)
    · exact held_reSafe (dj hF) (held_modSaf (dj hF) ‹_›)
    · assumption
  · assumption
theorem held_edmAnswer {s n engaged ms} (hF : Dj F 0x117c1201afc02b) (hs : Held b0 F s) : Held b0 F (State.edmAnswer s n engaged ms) := by
  unfold State.edmAnswer
  extract_lets -merge -underBinder +onlyGivenNames c
  try clear_value c
  extract_lets -merge -underBinder +onlyGivenNames s
  have hs : Held b0 F s := held_modSaf (dj hF) (held_wrB (dj hF) ‹_› (off_SAF_EDM_STATE (dj hF)))
  try clear_value s
  extract_lets -merge -underBinder +onlyGivenNames s
  have hs : Held b0 F s := by
    unfold s
    refine ite_ind (Q := Held b0 F) (fun _ => ?_) (fun _ => ?_)
    · exact held_wr (dj hF) ‹_› (off_SAF_CAR_EDM_TIME_MAIN_MS (dj hF))
    · refine ite_ind (Q := Held b0 F) (fun _ => ?_) (fun _ => ?_)
      · exact held_wr (dj hF) ‹_› (off_SAF_CAR_EDM_TIME_BRAKE_MS (dj hF))
      · assumption
  try clear_value s
  extract_lets -merge -underBinder +onlyGivenNames s
  have hs : Held b0 F s := held_safEval (dj hF) ‹_›
  try clear_value s
  extract_lets -merge -underBinder +onlyGivenNames s
  have hs : Held b0 F s := by
    unfold s
    refine ite_ind (Q := Held b0 F) (fun _ => ?_) (fun _ => ?_)
    · refine ite_ind (Q := Held b0 F) (fun _ => ?_) (fun _ => ?_)
      · exact held_brakeOpen (dj hF) ‹_›
      · exact held_brakeApplied (dj hF) (held_modSafCar (dj hF) ‹_›)
    · assumption
  try clear_value s
  exact held_reSafe (dj hF) ‹_›
theorem held_execPermitMismatch {outs s} (hF : Dj F 0x115c1201afc02b) (hs : Held b0 F s) : HeldR b0 F (execPermitMismatch outs s) := by
  unfold execPermitMismatch
  refine heldR_next ?_
  refine ite_ind (Q := Held b0 F) (fun _ => ?_) (fun _ => ?_)
  · exact held_reSafe (dj hF) (held_modSaf (dj hF) (held_inc (dj hF) ‹_› (off_SAF_XCOMP_MISMATCHES (dj hF))))
  · assumption
theorem held_execRunRequestLost {n s} (hF : Dj F 0x115c1201afc02b) (hs : Held b0 F s) : HeldR b0 F (execRunRequestLost n s) := by
  unfold execRunRequestLost
  refine heldR_next ?_
  refine ite_ind (Q := Held b0 F) (fun _ => ?_) (fun _ => ?_)
  · extract_lets -merge -underBinder +onlyGivenNames s'
    have hs' : Held b0 F s' := held_wrB (dj hF) ‹_› (off_SAF_REQUEST (dj hF))
    try clear_value s'
    refine held_reSafe (dj hF) ?_
    refine ite_ind (Q := Held b0 F) (fun _ => ?_) (fun _ => ?_)
    · exact held_safTrip (dj hF) ‹_›
    · assumption
  · assumption
theorem held_execRepairAck {sess key c srcOk edmOk s} (hF : Dj F 0x115c1201afc02b) (hs : Held b0 F s) : HeldR b0 F (execRepairAck sess key c srcOk edmOk s) := by
  unfold execRepairAck
  refine heldR_next ?_
  refine ite_ind (Q := Held b0 F) (fun _ => ?_) (fun _ => ?_)
  · exact held_repaired (dj hF) ‹_›
  · assumption
theorem held_execOscillatorOrSupplyMonitorTrip {tech s} (hF : Dj F 0x115c1201afe02b) (hs : Held b0 F s) : HeldR b0 F (execOscillatorOrSupplyMonitorTrip tech s) := by
  unfold execOscillatorOrSupplyMonitorTrip
  refine heldR_next ?_
  refine ite_ind (Q := Held b0 F) (fun _ => ?_) (fun _ => ?_)
  · exact held_techFault (dj hF) ‹_›
  · assumption
theorem held_execUnintendedMovement {c moved s} (hF : Dj F 0x115c1201afc02b) (hs : Held b0 F s) : HeldR b0 F (execUnintendedMovement c moved s) := by
  unfold execUnintendedMovement
  refine heldR_next ?_
  refine ite_ind (Q := Held b0 F) (fun _ => ?_) (fun _ => ?_)
  · exact held_movedStill (dj hF) ‹_›
  · assumption
theorem held_edmFail {s n} (hF : Dj F 0x115c1201afe02b) (hs : Held b0 F s) : Held b0 F (State.edmFail s n) := by
  unfold State.edmFail
  extract_lets -merge -underBinder +onlyGivenNames c
  try clear_value c
  extract_lets -merge -underBinder +onlyGivenNames more
  try clear_value more
  extract_lets -merge -underBinder +onlyGivenNames s
  have hs : Held b0 F s := held_modSaf (dj hF) (held_wrB (dj hF) ‹_› (off_SAF_EDM_FAULT (dj hF)))
  try clear_value s
  extract_lets -merge -underBinder +onlyGivenNames s
  have hs : Held b0 F s := held_flag (dj hF) ‹_› (off_SAF_EVENT_STATUS_EDM_FAULT (dj hF))
  try clear_value s
  refine held_reSafe (dj hF) ?_
  refine ite_ind (Q := Held b0 F) (fun _ => ?_) (fun _ => ?_)
  · exact held_latchCar (dj hF) ‹_›
  · exact held_snowStart (dj hF) (held_snowplough (dj hF) ‹_›)
theorem held_execInputDiscrepancyTimeout {n s} (hF : Dj F 0x115c1201afc02b) (hs : Held b0 F s) : HeldR b0 F (execInputDiscrepancyTimeout n s) := by
  unfold execInputDiscrepancyTimeout
  refine heldR_next ?_
  refine ite_ind (Q := Held b0 F) (fun _ => ?_) (fun _ => ?_)
  · exact held_reSafe (dj hF) (held_inputFault (dj hF) (held_modSaf (dj hF) ‹_›))
  · assumption
theorem held_diagnosed {s finding} (hF : Dj F 0x115c1201afe02b) (hs : Held b0 F s) : Held b0 F (State.diagnosed s finding) := by
  unfold State.diagnosed
  extract_lets -merge -underBinder +onlyGivenNames s
  have hs : Held b0 F s := held_modSaf (dj hF) ‹_›
  try clear_value s
  split
  · exact held_techFault (dj hF) ‹_›
  · exact held_techFault (dj hF) ‹_›
  · refine held_reSafe (dj hF) ?_
    refine held_flag (dj hF) ?_ ?_
    · refine foldl_ind (Q := Held b0 F) (fun s _ hs => ?_) ?_
      · exact held_latchCar (dj hF) ‹_›
      · assumption
    · exact off_SAF_EVENT_STATUS_TECH_FAULT (dj hF)
theorem held_execTechSelftest {tech ok s} (hF : Dj F 0x115c1201afe02b) (hs : Held b0 F s) : HeldR b0 F (execTechSelftest tech ok s) := by
  unfold execTechSelftest
  refine heldR_next ?_
  refine ite_ind (Q := Held b0 F) (fun _ => ?_) (fun _ => ?_)
  · exact held_techFault (dj hF) ‹_›
  · assumption
theorem held_execPositionSourceFault {c tape enc s} (hF : Dj F 0x115c1201afe02b) (hs : Held b0 F s) : HeldR b0 F (execPositionSourceFault c tape enc s) := by
  unfold execPositionSourceFault
  refine heldR_next ?_
  refine ite_ind (Q := Held b0 F) (fun _ => ?_) (fun _ => ?_)
  · exact held_safSource (dj hF) ‹_›
  · assumption
theorem held_execEdmTimeout {n s} (hF : Dj F 0x115c1201afe02b) (hs : Held b0 F s) : HeldR b0 F (execEdmTimeout n s) := by
  unfold execEdmTimeout
  refine heldR_next ?_
  refine ite_ind (Q := Held b0 F) (fun _ => ?_) (fun _ => ?_)
  · exact held_edmFail (dj hF) ‹_›
  · assumption
theorem held_execSafetyConfirm {sess key s} (hF : Dj F 0x115c1a01afc02b) (hs : Held b0 F s) : HeldR b0 F (execSafetyConfirm sess key s) := by
  unfold execSafetyConfirm
  refine heldR_next ?_
  refine ite_ind (Q := Held b0 F) (fun _ => ?_) (fun _ => ?_)
  · refine ite_ind (Q := Held b0 F) (fun _ => ?_) (fun _ => ?_)
    · exact held_confirmed (dj hF) ‹_›
    · exact held_confirmRefused (dj hF) ‹_›
  · assumption
theorem held_execEdmChange {n engaged s} (hF : Dj F 0x115c1201afe02b) (hs : Held b0 F s) : HeldR b0 F (execEdmChange n engaged s) := by
  unfold execEdmChange
  refine heldR_next ?_
  refine ite_ind (Q := Held b0 F) (fun _ => ?_) (fun _ => ?_)
  · exact held_edmFail (dj hF) (held_wrB (dj hF) ‹_› (off_SAF_EDM_STATE (dj hF)))
  · assumption
theorem held_execSafetyInputChange {i high s} (hF : Dj F 0x115c1201afc02b) (hs : Held b0 F s) : HeldR b0 F (execSafetyInputChange i high s) := by
  unfold execSafetyInputChange
  exact heldR_next (held_safInput (dj hF) ‹_›)
theorem held_execSwitchTest {tech n ok s} (hF : Dj F 0x115c1201afe02b) (hs : Held b0 F s) : HeldR b0 F (execSwitchTest tech n ok s) := by
  unfold execSwitchTest
  refine heldR_next ?_
  refine ite_ind (Q := Held b0 F) (fun _ => ?_) (fun _ => ?_)
  · exact held_techFault (dj hF) ‹_›
  · assumption
theorem held_execTestPulse {src high s} (hF : Dj F 0x115c1201afc02b) (hs : Held b0 F s) : HeldR b0 F (execTestPulse src high s) := by
  unfold execTestPulse
  refine heldR_next ?_
  refine ite_ind (Q := Held b0 F) (fun _ => ?_) (fun _ => ?_)
  · exact held_testPulse (dj hF) ‹_›
  · assumption
theorem held_execEdmResponse {n engaged ms s} (hF : Dj F 0x117c1201afc02b) (hs : Held b0 F s) : HeldR b0 F (execEdmResponse n engaged ms s) := by
  unfold execEdmResponse
  refine heldR_next ?_
  refine ite_ind (Q := Held b0 F) (fun _ => ?_) (fun _ => ?_)
  · exact held_edmAnswer (dj hF) ‹_›
  · assumption
theorem held_execMismatchDiagnosticDone {finding s} (hF : Dj F 0x115c1201afe02b) (hs : Held b0 F s) : HeldR b0 F (execMismatchDiagnosticDone finding s) := by
  unfold execMismatchDiagnosticDone
  refine heldR_next ?_
  refine ite_ind (Q := Held b0 F) (fun _ => ?_) (fun _ => ?_)
  · exact held_diagnosed (dj hF) ‹_›
  · assumption

end Sys2Proof.Machine
end

