-- ==== Sys2Proof/Laws/KeptFio.lean ====
section
/-!
SUPPORT. The operations of Machine/Fio.lean change only the parts that their masks name (Laws/Held.lean).
-/
namespace Sys2Proof.Machine
open Sys2Proof
set_option Elab.async false

variable {b0 : State} {F : Nat}

theorem off_bitOf64 {f g i} (hf : Off F f) (hg : Off F g) : Off F (bitOf64 f g i) := off_ite hf hg
theorem held_showInput {s i} (hF : Dj F 0x900200840029) (hs : Held b0 F s) : Held b0 F (State.showInput s i) := by
  unfold State.showInput
  extract_lets -merge -underBinder +onlyGivenNames f
  have hf : Off F f := off_bitOf64 (off_FIO_IN_LO (dj hF)) (off_FIO_IN_HI (dj hF))
  try clear_value f
  extract_lets -merge -underBinder +onlyGivenNames v
  try clear_value v
  refine ite_ind (Q := Held b0 F) (fun _ => ?_) (fun _ => ?_)
  · assumption
  · extract_lets -merge -underBinder +onlyGivenNames s
    have hs : Held b0 F s := held_wrB (dj hF) ‹_› ‹_›
    try clear_value s
    refine foldl_ind (Q := Held b0 F) (fun s _ hs => ?_) ?_
    · refine ite_ind (Q := Held b0 F) (fun _ => ?_) (fun _ => ?_)
      · exact held_reopenInput (dj hF) ‹_›
      · assumption
    · assumption
theorem held_latchOut {s n} (hF : Dj F 0x1080100020000b) (hs : Held b0 F s) : Held b0 F (State.latchOut s n) := by
  unfold State.latchOut
  exact held_record (dj hF) (held_wrB (dj hF) ‹_› (off_FIO_OUT_FAULT_LATCH (dj hF)))
theorem held_modFio {s f} (hF : Dj F 0x100000) (hs : Held b0 F s) : Held b0 F (State.modFio s f) := by
  unfold State.modFio
  exact held_mk_fio (dj hF) ‹_›
theorem held_showAllInputs {s} (hF : Dj F 0x900200840029) (hs : Held b0 F s) : Held b0 F (State.showAllInputs s) := by
  unfold State.showAllInputs
  refine foldl_ind (Q := Held b0 F) (fun _ _ hs => ?_) ?_
  · exact held_showInput (dj hF) ‹_›
  · assumption
theorem held_modFioIn {s i f} (hF : Dj F 0x100000) (hs : Held b0 F s) : Held b0 F (State.modFioIn s i f) := by
  unfold State.modFioIn
  exact held_modFio (dj hF) ‹_›
theorem held_wireRestored {s i} (hF : Dj F 0x10901200a4002b) (hs : Held b0 F s) : Held b0 F (State.wireRestored s i) := by
  unfold State.wireRestored
  extract_lets -merge -underBinder +onlyGivenNames s
  have hs : Held b0 F s := held_wrB (dj hF) ‹_› (off_bitOf64 (off_FIO_WIRE_BREAK_LO (dj hF)) (off_FIO_WIRE_BREAK_HI (dj hF)))
  try clear_value s
  exact held_showInput (dj hF) (held_flag (dj hF) (held_raise (dj hF) ‹_›) (off_FIO_EVENT_STATUS_WIRE_RESTORED (dj hF)))
theorem held_inputFlips {s i high} (hF : Dj F 0x10901200b4002b) (hs : Held b0 F s) : Held b0 F (State.inputFlips s i high) := by
  unfold State.inputFlips
  extract_lets -merge -underBinder +onlyGivenNames v
  try clear_value v
  extract_lets -merge -underBinder +onlyGivenNames s
  have hs : Held b0 F s := held_modFioIn (dj hF) ‹_›
  try clear_value s
  extract_lets -merge -underBinder +onlyGivenNames s
  have hs : Held b0 F s := by
    unfold s
    refine ite_ind (Q := Held b0 F) (fun _ => ?_) (fun _ => ?_)
    · exact held_raise (dj hF) ‹_›
    · assumption
  try clear_value s
  exact held_showInput (dj hF) (held_acqSource (dj hF) ‹_›)
theorem held_execWireRestored {i s} (hF : Dj F 0x10901200a4002b) (hs : Held b0 F s) : HeldR b0 F (execWireRestored i s) := by
  unfold execWireRestored
  refine heldR_next ?_
  refine ite_ind (Q := Held b0 F) (fun _ => ?_) (fun _ => ?_)
  · exact held_wireRestored (dj hF) ‹_›
  · assumption
theorem held_fioLoad {s} (hF : Dj F 0x800000000001) (hs : Held b0 F s) : Held b0 F (State.fioLoad s) := by
  unfold State.fioLoad
  extract_lets -merge -underBinder +onlyGivenNames s
  have hs : Held b0 F s := by
    unfold s
    refine foldl_ind (Q := Held b0 F) (fun s _ hs => ?_) ?_
    · extract_lets -merge -underBinder +onlyGivenNames l
      try clear_value l
      extract_lets -merge -underBinder +onlyGivenNames s
      have hs : Held b0 F s := held_wr (dj hF) ‹_› (off_FIO_IN_GROUP_TYPE (dj hF))
      try clear_value s
      exact held_wr (dj hF) ‹_› (off_FIO_IN_GROUP_WIRE_BREAK_ENABLED (dj hF))
    · assumption
  try clear_value s
  exact held_wr (dj hF) ‹_› (off_FIO_OUT_HOST_MASK (dj hF))
theorem held_execOpenLoad {n s} (hF : Dj F 0x1080100020000b) (hs : Held b0 F s) : HeldR b0 F (execOpenLoad n s) := by
  unfold execOpenLoad
  refine heldR_next ?_
  refine ite_ind (Q := Held b0 F) (fun _ => ?_) (fun _ => ?_)
  · exact held_flag (dj hF) (held_raise (dj hF) (held_wrB (dj hF) ‹_› (off_FIO_OUT_OPEN_LOAD (dj hF)))) (off_FIO_EVENT_STATUS_OPEN_LOAD (dj hF))
  · assumption
theorem held_modFioOut {s n f} (hF : Dj F 0x100000) (hs : Held b0 F s) : Held b0 F (State.modFioOut s n f) := by
  unfold State.modFioOut
  exact held_modFio (dj hF) ‹_›
theorem held_wireBreak {s i} (hF : Dj F 0x10901200a4002b) (hs : Held b0 F s) : Held b0 F (State.wireBreak s i) := by
  unfold State.wireBreak
  extract_lets -merge -underBinder +onlyGivenNames s
  have hs : Held b0 F s := held_wrB (dj hF) (held_wrB (dj hF) ‹_› (off_bitOf64 (off_FIO_WIRE_BREAK_LO (dj hF)) (off_FIO_WIRE_BREAK_HI (dj hF)))) (off_bitOf64 (off_FIO_WIRE_BREAK_LATCH_LO (dj hF)) (off_FIO_WIRE_BREAK_LATCH_HI (dj hF)))
  try clear_value s
  exact held_showInput (dj hF) (held_flag (dj hF) (held_raise (dj hF) (held_inc (dj hF) ‹_› (off_FIO_BREAKS (dj hF)))) (off_FIO_EVENT_STATUS_WIRE_BREAK (dj hF)))
theorem held_fieldFrame {s raw lplus sums outMa inCur} (hF : Dj F 0x800000100001) (hs : Held b0 F s) : Held b0 F (State.fieldFrame s raw lplus sums outMa inCur) := by
  unfold State.fieldFrame
  extract_lets -merge -underBinder +onlyGivenNames s
  have hs : Held b0 F s := held_wr (dj hF) (held_wr (dj hF) ‹_› (off_FIO_IN_RAW_LO (dj hF))) (off_FIO_IN_RAW_HI (dj hF))
  try clear_value s
  extract_lets -merge -underBinder +onlyGivenNames s
  have hs : Held b0 F s := by
    unfold s
    refine foldl_ind (Q := Held b0 F) (fun s _ hs => ?_) ?_
    · refine ite_ind (Q := Held b0 F) (fun _ => ?_) (fun _ => ?_)
      · exact held_wr (dj hF) ‹_› (off_FIO_LPLUS (dj hF))
      · assumption
    · assumption
  try clear_value s
  extract_lets -merge -underBinder +onlyGivenNames s
  have hs : Held b0 F s := by
    unfold s
    refine foldl_ind (Q := Held b0 F) (fun s _ hs => ?_) ?_
    · refine ite_ind (Q := Held b0 F) (fun _ => ?_) (fun _ => ?_)
      · exact held_wr (dj hF) ‹_› (off_FIO_GROUP_CURRENT (dj hF))
      · assumption
    · assumption
  try clear_value s
  extract_lets -merge -underBinder +onlyGivenNames s
  have hs : Held b0 F s := by
    unfold s
    refine foldl_ind (Q := Held b0 F) (fun s _ hs => ?_) ?_
    · refine ite_ind (Q := Held b0 F) (fun _ => ?_) (fun _ => ?_)
      · exact held_modFioOut (dj hF) ‹_›
      · assumption
    · assumption
  try clear_value s
  refine foldl_ind (Q := Held b0 F) (fun s _ hs => ?_) ?_
  · refine ite_ind (Q := Held b0 F) (fun _ => ?_) (fun _ => ?_)
    · exact held_modFioIn (dj hF) ‹_›
    · assumption
  · assumption
theorem held_execFieldLinkFrame {raw lplus sums outMa inCur s} (hF : Dj F 0x800000100001) (hs : Held b0 F s) : HeldR b0 F (execFieldLinkFrame raw lplus sums outMa inCur s) := by
  unfold execFieldLinkFrame
  refine heldR_next ?_
  refine ite_ind (Q := Held b0 F) (fun _ => ?_) (fun _ => ?_)
  · exact held_fieldFrame (dj hF) ‹_›
  · assumption
theorem held_execFioClearCounters {sess key s} (hF : Dj F 0x800000100001) (hs : Held b0 F s) : HeldR b0 F (execFioClearCounters sess key s) := by
  unfold execFioClearCounters
  exact heldR_next (ite_ind (Q := Held b0 F) (fun _ => held_modFio (dj hF) (held_clearAt 15 (dj hF) (dj hF) (by decide) (by decide) hs)) (fun _ => hs))
theorem held_execFieldInputChange {i high s} (hF : Dj F 0x10901200b4002b) (hs : Held b0 F s) : HeldR b0 F (execFieldInputChange i high s) := by
  unfold execFieldInputChange
  refine heldR_next ?_
  refine ite_ind (Q := Held b0 F) (fun _ => ?_) (fun _ => ?_)
  · exact held_inputFlips (dj hF) ‹_›
  · assumption
theorem held_driveOut {s n} (hF : Dj F 0x800000100001) (hs : Held b0 F s) : Held b0 F (State.driveOut s n) := by
  unfold State.driveOut
  extract_lets -merge -underBinder +onlyGivenNames w
  try clear_value w
  refine ite_ind (Q := Held b0 F) (fun _ => ?_) (fun _ => ?_)
  · assumption
  · extract_lets -merge -underBinder +onlyGivenNames s
    have hs : Held b0 F s := held_wrB (dj hF) ‹_› (off_FIO_OUT_STATE (dj hF))
    try clear_value s
    refine ite_ind (Q := Held b0 F) (fun _ => ?_) (fun _ => ?_)
    · exact held_modFioOut (dj hF) ‹_›
    · assumption
theorem held_driveOuts {s} (hF : Dj F 0x800000100001) (hs : Held b0 F s) : Held b0 F (State.driveOuts s) := by
  unfold State.driveOuts
  refine foldl_ind (Q := Held b0 F) (fun _ _ hs => ?_) ?_
  · exact held_driveOut (dj hF) ‹_›
  · assumption
theorem held_execWireBreak {i s} (hF : Dj F 0x10901200a4002b) (hs : Held b0 F s) : HeldR b0 F (execWireBreak i s) := by
  unfold execWireBreak
  refine heldR_next ?_
  refine ite_ind (Q := Held b0 F) (fun _ => ?_) (fun _ => ?_)
  · exact held_wireBreak (dj hF) ‹_›
  · assumption
theorem held_execFieldLinkResume {s} (hF : Dj F 0x900200940029) (hs : Held b0 F s) : HeldR b0 F (execFieldLinkResume s) := by
  unfold execFieldLinkResume
  refine heldR_next ?_
  refine ite_ind (Q := Held b0 F) (fun _ => ?_) (fun _ => ?_)
  · exact held_driveOuts (dj hF) (held_showAllInputs (dj hF) (held_wrB (dj hF) ‹_› (off_FIO_FIELD_STATUS_LINK_LOST (dj hF))))
  · assumption
theorem held_commandOut {s n v} (hF : Dj F 0x800000100001) (hs : Held b0 F s) : Held b0 F (State.commandOut s n v) := by
  unfold State.commandOut
  exact held_driveOut (dj hF) (held_wrB (dj hF) (held_wrB (dj hF) ‹_› (off_FIO_OUT_COMMAND (dj hF))) (off_FIO_OUT_SILENT (dj hF)))
theorem held_tripOut {s n cause latched} (hF : Dj F 0x1080100030000b) (hs : Held b0 F s) : Held b0 F (State.tripOut s n cause latched) := by
  unfold State.tripOut
  extract_lets -merge -underBinder +onlyGivenNames s
  have hs : Held b0 F s := held_inc (dj hF) (held_wrB (dj hF) (held_modFioOut (dj hF) ‹_›) (off_FIO_OUT_FAULT (dj hF))) (off_FIO_OUT_TRIPS (dj hF))
  try clear_value s
  extract_lets -merge -underBinder +onlyGivenNames s
  have hs : Held b0 F s := held_flag (dj hF) (held_post (dj hF) ‹_›) (off_FIO_EVENT_STATUS_OUTPUT_FAULT (dj hF))
  try clear_value s
  refine held_driveOut (dj hF) ?_
  refine ite_ind (Q := Held b0 F) (fun _ => ?_) (fun _ => ?_)
  · exact held_latchOut (dj hF) ‹_›
  · assumption
theorem held_retryOut {s n} (hF : Dj F 0x1080100030000b) (hs : Held b0 F s) : Held b0 F (State.retryOut s n) := by
  unfold State.retryOut
  extract_lets -merge -underBinder +onlyGivenNames l
  try clear_value l
  extract_lets -merge -underBinder +onlyGivenNames s
  have hs : Held b0 F s := held_modFioOut (dj hF) ‹_›
  try clear_value s
  refine ite_ind (Q := Held b0 F) (fun _ => ?_) (fun _ => ?_)
  · exact held_latchOut (dj hF) ‹_›
  · exact held_driveOut (dj hF) (held_wrB (dj hF) ‹_› (off_FIO_OUT_FAULT (dj hF)))
theorem held_execLplusLow {k s} (hF : Dj F 0x1080100030000b) (hs : Held b0 F s) : HeldR b0 F (execLplusLow k s) := by
  unfold execLplusLow
  refine heldR_next ?_
  refine ite_ind (Q := Held b0 F) (fun _ => ?_) (fun _ => ?_)
  · extract_lets -merge -underBinder +onlyGivenNames s
    have hs : Held b0 F s := held_wrB (dj hF) ‹_› (off_FIO_FIELD_STATUS_LPLUS_LOW (dj hF))
    try clear_value s
    exact held_driveOuts (dj hF) (held_flag (dj hF) (held_raise (dj hF) ‹_›) (off_FIO_EVENT_STATUS_LPLUS_LOW (dj hF)))
  · assumption
theorem held_execOutputSilenceTimeout {n s} (hF : Dj F 0x800000100001) (hs : Held b0 F s) : HeldR b0 F (execOutputSilenceTimeout n s) := by
  unfold execOutputSilenceTimeout
  refine heldR_next ?_
  refine ite_ind (Q := Held b0 F) (fun _ => ?_) (fun _ => ?_)
  · exact held_driveOut (dj hF) (held_inc (dj hF) (held_wrB (dj hF) ‹_› (off_FIO_OUT_SILENT (dj hF))) (off_FIO_SILENCES (dj hF)))
  · assumption
theorem held_linkLost {s} (hF : Dj F 0x10901200b4002b) (hs : Held b0 F s) : Held b0 F (State.linkLost s) := by
  unfold State.linkLost
  extract_lets -merge -underBinder +onlyGivenNames s
  have hs : Held b0 F s := held_wrB (dj hF) ‹_› (off_FIO_FIELD_STATUS_LINK_LOST (dj hF))
  try clear_value s
  exact held_driveOuts (dj hF) (held_showAllInputs (dj hF) (held_flag (dj hF) (held_raise (dj hF) ‹_›) (off_FIO_EVENT_STATUS_LINK_LOST (dj hF))))
theorem held_hostOuts {s mask v} (hF : Dj F 0x800000100001) (hs : Held b0 F s) : Held b0 F (State.hostOuts s mask v) := by
  unfold State.hostOuts
  refine foldl_ind (Q := Held b0 F) (fun s _ hs => ?_) ?_
  · refine ite_ind (Q := Held b0 F) (fun _ => ?_) (fun _ => ?_)
    · exact held_commandOut (dj hF) ‹_›
    · assumption
  · assumption
theorem held_execDemagHoldEnd {n s} (hF : Dj F 0x800000100001) (hs : Held b0 F s) : HeldR b0 F (execDemagHoldEnd n s) := by
  unfold execDemagHoldEnd
  refine heldR_next ?_
  refine ite_ind (Q := Held b0 F) (fun _ => ?_) (fun _ => ?_)
  · exact held_driveOut (dj hF) (held_wrB (dj hF) ‹_› (off_FIO_DEMAG_HOLD (dj hF)))
  · assumption
theorem held_execOutputRetry {n s} (hF : Dj F 0x1080100030000b) (hs : Held b0 F s) : HeldR b0 F (execOutputRetry n s) := by
  unfold execOutputRetry
  refine heldR_next ?_
  refine ite_ind (Q := Held b0 F) (fun _ => ?_) (fun _ => ?_)
  · exact held_retryOut (dj hF) ‹_›
  · assumption
theorem held_loopOuts {s} (hF : Dj F 0x800000100001) (hs : Held b0 F s) : Held b0 F (State.loopOuts s) := by
  unfold State.loopOuts
  refine foldl_ind (Q := Held b0 F) (fun s _ hs => ?_) ?_
  · refine ite_ind (Q := Held b0 F) (fun _ => ?_) (fun _ => ?_)
    · exact held_commandOut (dj hF) ‹_›
    · assumption
  · assumption
theorem held_clearLatches {s mask} (hF : Dj F 0x800000100001) (hs : Held b0 F s) : Held b0 F (State.clearLatches s mask) := by
  unfold State.clearLatches
  refine foldl_ind (Q := Held b0 F) (fun s _ hs => ?_) ?_
  · refine ite_ind (Q := Held b0 F) (fun _ => ?_) (fun _ => ?_)
    · exact held_driveOut (dj hF) (held_modFioOut (dj hF) (held_wrB (dj hF) (held_wrB (dj hF) ‹_› (off_FIO_OUT_FAULT_LATCH (dj hF))) (off_FIO_OUT_FAULT (dj hF))))
    · assumption
  · assumption
theorem held_execLplusRestored {k s} (hF : Dj F 0x800000100001) (hs : Held b0 F s) : HeldR b0 F (execLplusRestored k s) := by
  unfold execLplusRestored
  refine heldR_next ?_
  refine ite_ind (Q := Held b0 F) (fun _ => ?_) (fun _ => ?_)
  · exact held_driveOuts (dj hF) (held_wrB (dj hF) ‹_› (off_FIO_FIELD_STATUS_LPLUS_LOW (dj hF)))
  · assumption
theorem held_demagDone {s n j} (hF : Dj F 0x1080100030000b) (hs : Held b0 F s) : Held b0 F (State.demagDone s n j) := by
  unfold State.demagDone
  extract_lets -merge -underBinder +onlyGivenNames s
  have hs : Held b0 F s := held_modFioOut (dj hF) ‹_›
  try clear_value s
  extract_lets -merge -underBinder +onlyGivenNames s
  have hs : Held b0 F s := by
    unfold s
    refine ite_ind (Q := Held b0 F) (fun _ => ?_) (fun _ => ?_)
    · exact held_wrB (dj hF) ‹_› (off_FIO_DEMAG_HOLD (dj hF))
    · assumption
  try clear_value s
  refine ite_ind (Q := Held b0 F) (fun _ => ?_) (fun _ => ?_)
  · exact held_tripOut (dj hF) ‹_›
  · assumption
theorem held_execFioOutSetWrite {sess mask s} (hF : Dj F 0x800000100001) (hs : Held b0 F s) : HeldR b0 F (execFioOutSetWrite sess mask s) := by
  unfold execFioOutSetWrite
  refine heldR_next ?_
  refine ite_ind (Q := Held b0 F) (fun _ => ?_) (fun _ => ?_)
  · exact held_hostOuts (dj hF) ‹_›
  · assumption
theorem held_outputReset {q c s} (hF : Dj F 0x800000900029) (hs : Held b0 F s) : Held b0 F (State.outputReset q c s) := by
  unfold State.outputReset
  extract_lets -merge -underBinder +onlyGivenNames m
  try clear_value m
  exact held_complete (dj hF) (held_clearLatches (dj hF) ‹_›)
theorem held_groupOver {s k ma} (hF : Dj F 0x1080100030000b) (hs : Held b0 F s) : Held b0 F (State.groupOver s k ma) := by
  unfold State.groupOver
  extract_lets -merge -underBinder +onlyGivenNames s
  have hs : Held b0 F s := held_wr (dj hF) ‹_› (off_FIO_GROUP_CURRENT (dj hF))
  try clear_value s
  refine ite_ind (Q := Held b0 F) (fun _ => ?_) (fun _ => ?_)
  · exact held_modFio (dj hF) ‹_›
  · extract_lets -merge -underBinder +onlyGivenNames s
    have hs : Held b0 F s := by
      unfold s
      refine ite_ind (Q := Held b0 F) (fun _ => ?_) (fun _ => ?_)
      · assumption
      · exact held_raise (dj hF) (held_modFio (dj hF) ‹_›)
    try clear_value s
    split
    · exact held_tripOut (dj hF) ‹_›
    · assumption
theorem held_refreshOuts {s} (hF : Dj F 0x800000100001) (hs : Held b0 F s) : Held b0 F (State.refreshOuts s) := by
  unfold State.refreshOuts
  refine foldl_ind (Q := Held b0 F) (fun s _ hs => ?_) ?_
  · split
    · assumption
    · refine ite_ind (Q := Held b0 F) (fun _ => ?_) (fun _ => ?_)
      · exact held_commandOut (dj hF) ‹_›
      · refine ite_ind (Q := Held b0 F) (fun _ => ?_) (fun _ => ?_)
        · exact held_commandOut (dj hF) ‹_›
        · assumption
  · assumption
theorem held_execFirmwareOutputRefresh {s} (hF : Dj F 0x800000100001) (hs : Held b0 F s) : HeldR b0 F (execFirmwareOutputRefresh s) := by
  unfold execFirmwareOutputRefresh
  refine heldR_next ?_
  refine ite_ind (Q := Held b0 F) (fun _ => ?_) (fun _ => ?_)
  · exact held_refreshOuts (dj hF) ‹_›
  · assumption
theorem held_execOutputThermal {n s} (hF : Dj F 0x1080100030000b) (hs : Held b0 F s) : HeldR b0 F (execOutputThermal n s) := by
  unfold execOutputThermal
  refine heldR_next ?_
  refine ite_ind (Q := Held b0 F) (fun _ => ?_) (fun _ => ?_)
  · exact held_tripOut (dj hF) ‹_›
  · assumption
theorem held_execGroupOverload {k ma s} (hF : Dj F 0x1080100030000b) (hs : Held b0 F s) : HeldR b0 F (execGroupOverload k ma s) := by
  unfold execGroupOverload
  refine heldR_next ?_
  refine ite_ind (Q := Held b0 F) (fun _ => ?_) (fun _ => ?_)
  · exact held_groupOver (dj hF) ‹_›
  · assumption
theorem held_execOutputShort {n s} (hF : Dj F 0x1080100030000b) (hs : Held b0 F s) : HeldR b0 F (execOutputShort n s) := by
  unfold execOutputShort
  refine heldR_next ?_
  refine ite_ind (Q := Held b0 F) (fun _ => ?_) (fun _ => ?_)
  · exact held_tripOut (dj hF) ‹_›
  · assumption
theorem held_execFieldLinkLost {s} (hF : Dj F 0x10901200b4002b) (hs : Held b0 F s) : HeldR b0 F (execFieldLinkLost s) := by
  unfold execFieldLinkLost
  refine heldR_next ?_
  refine ite_ind (Q := Held b0 F) (fun _ => ?_) (fun _ => ?_)
  · exact held_linkLost (dj hF) ‹_›
  · assumption
theorem held_execOutputOverload {n s} (hF : Dj F 0x1080100030000b) (hs : Held b0 F s) : HeldR b0 F (execOutputOverload n s) := by
  unfold execOutputOverload
  refine heldR_next ?_
  refine ite_ind (Q := Held b0 F) (fun _ => ?_) (fun _ => ?_)
  · exact held_tripOut (dj hF) ‹_›
  · assumption
theorem held_execDemagComplete {n j s} (hF : Dj F 0x1080100030000b) (hs : Held b0 F s) : HeldR b0 F (execDemagComplete n j s) := by
  unfold execDemagComplete
  refine heldR_next ?_
  refine ite_ind (Q := Held b0 F) (fun _ => ?_) (fun _ => ?_)
  · exact held_demagDone (dj hF) ‹_›
  · assumption
theorem held_execFioOutClearWrite {sess mask s} (hF : Dj F 0x800000100001) (hs : Held b0 F s) : HeldR b0 F (execFioOutClearWrite sess mask s) := by
  unfold execFioOutClearWrite
  refine heldR_next ?_
  refine ite_ind (Q := Held b0 F) (fun _ => ?_) (fun _ => ?_)
  · exact held_hostOuts (dj hF) ‹_›
  · assumption
theorem held_execOutputLatchClear {sess mask s} (hF : Dj F 0x800000100001) (hs : Held b0 F s) : HeldR b0 F (execOutputLatchClear sess mask s) := by
  unfold execOutputLatchClear
  refine heldR_next ?_
  refine ite_ind (Q := Held b0 F) (fun _ => ?_) (fun _ => ?_)
  · exact held_clearLatches (dj hF) ‹_›
  · assumption
theorem held_execOutputReset {q s} (hF : Dj F 0x800000900029) (hs : Held b0 F s) : HeldR b0 F (execOutputReset q s) := by
  unfold execOutputReset
  refine held_onCmd (dj hF) ?_ ?_
  · assumption
  · intro y0 y1 hy1
    exact held_outputReset (dj hF) ‹_›

end Sys2Proof.Machine
end

