-- ==== Sys2Proof/Laws/KeptAcq.lean ====
section
/-!
SUPPORT. The operations of Machine/Acq.lean change only the parts that their masks name (Laws/Held.lean).
-/
namespace Sys2Proof.Machine
open Sys2Proof
set_option Elab.async false

variable {b0 : State} {F : Nat}

theorem held_cmdMeasure {q c s} (hF : Dj F 0x800028) (hs : Held b0 F s) : Held b0 F (State.cmdMeasure q c s) := by
  unfold State.cmdMeasure
  split
  · exact held_complete (dj hF) ‹_›
  · extract_lets -merge -underBinder +onlyGivenNames ch
    try clear_value ch
    extract_lets -merge -underBinder +onlyGivenNames code
    try clear_value code
    refine ite_ind (Q := Held b0 F) (fun _ => ?_) (fun _ => ?_)
    · exact held_complete (dj hF) ‹_›
    · exact held_complete (dj hF) ‹_›
theorem held_modAcq {s f} (hF : Dj F 0x200000) (hs : Held b0 F s) : Held b0 F (State.modAcq s f) := by
  unfold State.modAcq
  exact held_mk_acq (dj hF) ‹_›
theorem held_showAcq {s} (hF : Dj F 0x8000200000001) (hs : Held b0 F s) : Held b0 F (State.showAcq s) := by
  unfold State.showAcq
  extract_lets -merge -underBinder +onlyGivenNames mask
  try clear_value mask
  extract_lets -merge -underBinder +onlyGivenNames busy
  try clear_value busy
  extract_lets -merge -underBinder +onlyGivenNames owned
  try clear_value owned
  extract_lets -merge -underBinder +onlyGivenNames s
  have hs : Held b0 F s := held_wr64 (dj hF) ‹_› (off_ACQ_ARMED_LO (dj hF))
  try clear_value s
  extract_lets -merge -underBinder +onlyGivenNames s
  have hs : Held b0 F s := held_wr64 (dj hF) ‹_› (off_ACQ_COMPLETE_LO (dj hF))
  try clear_value s
  extract_lets -merge -underBinder +onlyGivenNames pools
  try clear_value pools
  extract_lets -merge -underBinder +onlyGivenNames s
  have hs : Held b0 F s := held_wr (dj hF) ‹_› (off_ACQ_POOL_STATUS (dj hF))
  try clear_value s
  extract_lets -merge -underBinder +onlyGivenNames s
  have hs : Held b0 F s := held_wrB (dj hF) ‹_› (off_ACQ_RATE_STATUS (dj hF))
  try clear_value s
  exact held_wrB (dj hF) ‹_› (off_PWR_GLIDE_STATUS (dj hF))
theorem held_modBuf {s b f} (hF : Dj F 0x200000) (hs : Held b0 F s) : Held b0 F (State.modBuf s b f) := by
  unfold State.modBuf
  exact held_modAcq (dj hF) ‹_›
theorem held_execAcqClearCounters {sess key s} (hF : Dj F 0x8000000000001) (hs : Held b0 F s) : HeldR b0 F (execAcqClearCounters sess key s) := by
  unfold execAcqClearCounters
  exact heldR_next (ite_ind (Q := Held b0 F) (fun _ => held_clearAt 19 (dj hF) (dj hF) (by decide) (by decide) hs) (fun _ => hs))
theorem held_acqGlide {s} (hF : Dj F 0x8000200200001) (hs : Held b0 F s) : Held b0 F (State.acqGlide s) := by
  unfold State.acqGlide
  refine held_showAcq (dj hF) ?_
  refine foldl_ind (Q := Held b0 F) (fun s _ hs => ?_) ?_
  · extract_lets -merge -underBinder +onlyGivenNames k
    try clear_value k
    refine ite_ind (Q := Held b0 F) (fun _ => ?_) (fun _ => ?_)
    · exact held_modBuf (dj hF) ‹_›
    · assumption
  · assumption
theorem held_execMeasureRead {q s} (hF : Dj F 0x800028) (hs : Held b0 F s) : HeldR b0 F (execMeasureRead q s) := by
  unfold execMeasureRead
  refine held_onCmd (dj hF) ?_ ?_
  · assumption
  · intro y0 y1 hy1
    exact held_cmdMeasure (dj hF) ‹_›
theorem held_putRec {s b seg x} (hF : Dj F 0x200000) (hs : Held b0 F s) : Held b0 F (State.putRec s b seg x) := by
  unfold State.putRec
  exact held_modBuf (dj hF) ‹_›
theorem held_pushFrame {s r frame stamp} (hF : Dj F 0x200000) (hs : Held b0 F s) : Held b0 F (State.pushFrame s r frame stamp) := by
  unfold State.pushFrame
  extract_lets -merge -underBinder +onlyGivenNames clip
  try clear_value clip
  extract_lets -merge -underBinder +onlyGivenNames odd
  try clear_value odd
  exact held_modBuf (dj hF) ‹_›
theorem held_claim {s r hits tclass} (hF : Dj F 0x200000) (hs : Held b0 F s) : Held b0 F (State.claim s r hits tclass) := by
  unfold State.claim
  exact held_modAcq (dj hF) (held_modBuf (dj hF) ‹_›)
theorem held_frameWords {s r codes} (hF : Dj F 0x1000000) (hs : Held b0 F s) : Held2 b0 F (State.frameWords s r codes) := by
  unfold State.frameWords
  refine ite_ind (Q := Held2 b0 F) (fun _ => ?_) (fun _ => ?_)
  · refine foldl_ind (Q := Held2 b0 F) (fun p _ hp => ?_) ?_
    · split
      · exact held2_mk (held2_snd ‹_›)
      · split
        rename_i w t heq
        have ht : Held b0 F t := held2_eq heq (by
          exact held_drawWord (dj hF) (held2_snd ‹_›)
          )
        clear heq
        exact held2_mk ‹_›
    · exact held2_mk ‹_›
  · exact held2_mk ‹_›
theorem held_measureDone {s seq} (hF : Dj F 0x1800100020000b) (hs : Held b0 F s) : Held b0 F (State.measureDone s seq) := by
  unfold State.measureDone
  split
  · assumption
  · refine ite_ind (Q := Held b0 F) (fun _ => ?_) (fun _ => ?_)
    · exact held_flag (dj hF) (held_raise (dj hF) (held_putRec (dj hF) ‹_›)) (off_ACQ_EVENT_STATUS_COMPLETE (dj hF))
    · assumption
theorem held_cmdRelease {q c s} (hF : Dj F 0x8000200a00029) (hs : Held b0 F s) : Held b0 F (State.cmdRelease q c s) := by
  unfold State.cmdRelease
  split
  · exact held_complete (dj hF) ‹_›
  · extract_lets -merge -underBinder +onlyGivenNames s
    have hs : Held b0 F s := held_modBuf (dj hF) ‹_›
    try clear_value s
    exact held_complete (dj hF) (held_showAcq (dj hF) ‹_›)
theorem held_closeRec {s r status} (hF : Dj F 0x200000) (hs : Held b0 F s) : Held b0 F (State.closeRec s r status) := by
  unfold State.closeRec
  extract_lets -merge -underBinder +onlyGivenNames x
  try clear_value x
  refine ite_ind (Q := Held b0 F) (fun _ => ?_) (fun _ => ?_)
  · extract_lets -merge -underBinder +onlyGivenNames c
    try clear_value c
    extract_lets -merge -underBinder +onlyGivenNames old
    try clear_value old
    extract_lets -merge -underBinder +onlyGivenNames change
    try clear_value change
    extract_lets -merge -underBinder +onlyGivenNames period
    try clear_value period
    extract_lets -merge -underBinder +onlyGivenNames c
    try clear_value c
    exact held_modBuf (dj hF) ‹_›
  · exact held_modBuf (dj hF) ‹_›
theorem held_abortRec {s r status} (hF : Dj F 0x1800100020000b) (hs : Held b0 F s) : Held b0 F (State.abortRec s r status) := by
  unfold State.abortRec
  extract_lets -merge -underBinder +onlyGivenNames x
  try clear_value x
  refine ite_ind (Q := Held b0 F) (fun _ => ?_) (fun _ => ?_)
  · extract_lets -merge -underBinder +onlyGivenNames s
    have hs : Held b0 F s := held_modBuf (dj hF) (held_inc (dj hF) (held_closeRec (dj hF) ‹_›) (off_ACQ_ABORTS (dj hF)))
    try clear_value s
    extract_lets -merge -underBinder +onlyGivenNames s
    have hs : Held b0 F s := by
      unfold s
      refine ite_ind (Q := Held b0 F) (fun _ => ?_) (fun _ => ?_)
      · exact held_raise (dj hF) ‹_›
      · assumption
    try clear_value s
    exact held_flag (dj hF) ‹_› (off_ACQ_EVENT_STATUS_ABORTED (dj hF))
  · assumption
theorem held_fillFrom {s r seg} (hF : Dj F 0x200000) (hs : Held b0 F s) : Held b0 F (State.fillFrom s r seg) := by
  unfold State.fillFrom
  exact held_modBuf (dj hF) ‹_›
theorem held_execRelease {q s} (hF : Dj F 0x8000200a00029) (hs : Held b0 F s) : HeldR b0 F (execRelease q s) := by
  unfold execRelease
  refine held_onCmd (dj hF) ?_ ?_
  · assumption
  · intro y0 y1 hy1
    exact held_cmdRelease (dj hF) ‹_›
theorem held_execAcqMeasureDone {seq s} (hF : Dj F 0x1800100020000b) (hs : Held b0 F s) : HeldR b0 F (execAcqMeasureDone seq s) := by
  unfold execAcqMeasureDone
  refine heldR_next ?_
  refine ite_ind (Q := Held b0 F) (fun _ => ?_) (fun _ => ?_)
  · exact held_measureDone (dj hF) ‹_›
  · assumption
theorem held_cmdDisarm {q c s} (hF : Dj F 0x18001200a0002b) (hs : Held b0 F s) : Held b0 F (State.cmdDisarm q c s) := by
  unfold State.cmdDisarm
  split
  · exact held_complete (dj hF) ‹_›
  · extract_lets -merge -underBinder +onlyGivenNames s
    have hs : Held b0 F s := held_showAcq (dj hF) (held_modBuf (dj hF) (held_abortRec (dj hF) ‹_›))
    try clear_value s
    exact held_complete (dj hF) ‹_›
theorem held_refinePos {s r ch lv} (hF : Dj F 0x200000) (hs : Held b0 F s) : Held b0 F (State.refinePos s r ch lv) := by
  unfold State.refinePos
  extract_lets -merge -underBinder +onlyGivenNames x
  try clear_value x
  extract_lets -merge -underBinder +onlyGivenNames n
  try clear_value n
  extract_lets -merge -underBinder +onlyGivenNames val
  try clear_value val
  exact held_modBuf (dj hF) ‹_›
theorem held_fireAll {s r hits tclass} (hF : Dj F 0x1800100020000b) (hs : Held b0 F s) : Held b0 F (State.fireAll s r hits tclass) := by
  unfold State.fireAll
  refine ite_ind (Q := Held b0 F) (fun _ => ?_) (fun _ => ?_)
  · assumption
  · split
    · exact held_modBuf (dj hF) ‹_›
    · exact held_claim (dj hF) ‹_›
    · refine ite_ind (Q := Held b0 F) (fun _ => ?_) (fun _ => ?_)
      · exact held_flag (dj hF) (held_raise (dj hF) (held_inc (dj hF) ‹_› (off_ACQ_NO_RESOURCE (dj hF)))) (off_ACQ_EVENT_STATUS_REFUSED (dj hF))
      · refine ite_ind (Q := Held b0 F) (fun _ => ?_) (fun _ => ?_)
        · exact held_inc (dj hF) ‹_› (off_ACQ_TRIGGERS_IGNORED (dj hF))
        · assumption
theorem held_armBuf {s r} (hF : Dj F 0x200000) (hs : Held b0 F s) : Held b0 F (State.armBuf s r) := by
  unfold State.armBuf
  split
  · exact held_fillFrom (dj hF) ‹_›
  · assumption
theorem held_execAcqAutoTimeout {b s} (hF : Dj F 0x8000200200001) (hs : Held b0 F s) : HeldR b0 F (execAcqAutoTimeout b s) := by
  unfold execAcqAutoTimeout
  split
  · refine heldR_next ?_
    refine ite_ind (Q := Held b0 F) (fun _ => ?_) (fun _ => ?_)
    · exact held_showAcq (dj hF) (held_claim (dj hF) ‹_›)
    · assumption
  · exact heldR_next ‹_›
theorem held_trigger {s r d} (hF : Dj F 0x1800100020000b) (hs : Held b0 F s) : Held b0 F (State.trigger s r d) := by
  unfold State.trigger
  extract_lets -merge -underBinder +onlyGivenNames x
  try clear_value x
  extract_lets -merge -underBinder +onlyGivenNames keep
  try clear_value keep
  extract_lets -merge -underBinder +onlyGivenNames frames
  try clear_value frames
  extract_lets -merge -underBinder +onlyGivenNames i
  try clear_value i
  extract_lets -merge -underBinder +onlyGivenNames val
  try clear_value val
  extract_lets -merge -underBinder +onlyGivenNames posOf
  try clear_value posOf
  extract_lets -merge -underBinder +onlyGivenNames pos
  try clear_value pos
  extract_lets -merge -underBinder +onlyGivenNames first
  try clear_value first
  extract_lets -merge -underBinder +onlyGivenNames unit
  try clear_value unit
  extract_lets -merge -underBinder +onlyGivenNames conds
  try clear_value conds
  extract_lets -merge -underBinder +onlyGivenNames auto
  try clear_value auto
  extract_lets -merge -underBinder +onlyGivenNames s
  have hs : Held b0 F s := held_modBuf (dj hF) ‹_›
  try clear_value s
  extract_lets -merge -underBinder +onlyGivenNames s
  have hs : Held b0 F s := held_acqSource (dj hF) ‹_›
  try clear_value s
  refine ite_ind (Q := Held b0 F) (fun _ => ?_) (fun _ => ?_)
  · exact held_raise (dj hF) (held_inc (dj hF) ‹_› (off_ACQ_AUTO_TRIGGERS (dj hF)))
  · assumption
theorem held_judgeFrame {s r prev cur} (hF : Dj F 0x1800100020000b) (hs : Held b0 F s) : Held b0 F (State.judgeFrame s r prev cur) := by
  unfold State.judgeFrame
  extract_lets -merge -underBinder +onlyGivenNames h
  try clear_value h
  split
  rename_i s l heq
  have hs : Held b0 F s := held1_eq heq (by
    refine foldl_ind (Q := Held1 b0 F) (fun p _ hp => ?_) ?_
    · split
      extract_lets -merge -underBinder +onlyGivenNames x
      try clear_value x
      refine ite_ind (Q := Held1 b0 F) (fun _ => ?_) (fun _ => ?_)
      · split
        · exact held1_mk ‹_›
        · extract_lets -merge -underBinder +onlyGivenNames v0
          try clear_value v0
          extract_lets -merge -underBinder +onlyGivenNames st
          try clear_value st
          split
          · extract_lets -merge -underBinder +onlyGivenNames s
            have hs : Held b0 F s := held_modBuf (dj hF) ‹_›
            try clear_value s
            exact held1_mk ‹_›
      · exact held1_mk ‹_›
    · exact held1_mk ‹_›
    )
  clear heq
  exact held_fireAll (dj hF) ‹_›
theorem held_acqStart {s} (hF : Dj F 0x8000200200001) (hs : Held b0 F s) : Held b0 F (State.acqStart s) := by
  unfold State.acqStart
  extract_lets -merge -underBinder +onlyGivenNames s
  have hs : Held b0 F s := held_wrB (dj hF) (held_modAcq (dj hF) ‹_›) (off_ACQ_STATUS_RUNNING (dj hF))
  try clear_value s
  refine held_showAcq (dj hF) ?_
  refine foldl_ind (Q := Held b0 F) (fun s _ hs => ?_) ?_
  · refine ite_ind (Q := Held b0 F) (fun _ => ?_) (fun _ => ?_)
    · exact held_armBuf (dj hF) ‹_›
    · assumption
  · assumption
theorem held_execDisarm {q s} (hF : Dj F 0x18001200a0002b) (hs : Held b0 F s) : HeldR b0 F (execDisarm q s) := by
  unfold execDisarm
  refine held_onCmd (dj hF) ?_ ?_
  · assumption
  · intro y0 y1 hy1
    exact held_cmdDisarm (dj hF) ‹_›
theorem held_acqReset {s} (hF : Dj F 0x1800120020000b) (hs : Held b0 F s) : Held b0 F (State.acqReset s) := by
  unfold State.acqReset
  refine held_showAcq (dj hF) ?_
  refine foldl_ind (Q := Held b0 F) (fun s _ hs => ?_) ?_
  · extract_lets -merge -underBinder +onlyGivenNames s
    have hs : Held b0 F s := held_abortRec (dj hF) ‹_›
    try clear_value s
    refine ite_ind (Q := Held b0 F) (fun _ => ?_) (fun _ => ?_)
    · exact held_armBuf (dj hF) ‹_›
    · assumption
  · assumption
theorem held_acqJudge {s e} (hF : Dj F 0x1800100020000b) (hs : Held b0 F s) : Held b0 F (State.acqJudge s e) := by
  unfold State.acqJudge
  refine foldl_ind (Q := Held b0 F) (fun s _ hs => ?_) ?_
  · extract_lets -merge -underBinder +onlyGivenNames l
    try clear_value l
    extract_lets -merge -underBinder +onlyGivenNames k
    try clear_value k
    exact held_fireAll (dj hF) ‹_›
  · assumption
theorem held_acqStride {s} (hF : Dj F 0x8000200200001) (hs : Held b0 F s) : Held b0 F (State.acqStride s) := by
  unfold State.acqStride
  refine held_showAcq (dj hF) ?_
  refine foldl_ind (Q := Held b0 F) (fun s _ hs => ?_) ?_
  · refine ite_ind (Q := Held b0 F) (fun _ => ?_) (fun _ => ?_)
    · exact held_fillFrom (dj hF) ‹_›
    · assumption
  · assumption
theorem held_acqLoop {s} (hF : Dj F 0x1800100020000b) (hs : Held b0 F s) : Held b0 F (State.acqLoop s) := by
  unfold State.acqLoop
  extract_lets -merge -underBinder +onlyGivenNames nz
  try clear_value nz
  extract_lets -merge -underBinder +onlyGivenNames conds
  try clear_value conds
  extract_lets -merge -underBinder +onlyGivenNames was
  try clear_value was
  extract_lets -merge -underBinder +onlyGivenNames s'
  have hs' : Held b0 F s' := by
    unfold s'
    refine foldl_ind (Q := Held b0 F) (fun s _ hs => ?_) ?_
    · exact held_fireAll (dj hF) ‹_›
    · assumption
  try clear_value s'
  exact held_modAcq (dj hF) ‹_›
theorem held_completeRec {s r} (hF : Dj F 0x8000000200001) (hs : Held b0 F s) : Held b0 F (State.completeRec s r) := by
  unfold State.completeRec
  extract_lets -merge -underBinder +onlyGivenNames s
  have hs : Held b0 F s := held_modBuf (dj hF) (held_inc (dj hF) (held_closeRec (dj hF) ‹_›) (off_ACQ_RECORDS (dj hF)))
  try clear_value s
  refine ite_ind (Q := Held b0 F) (fun _ => ?_) (fun _ => ?_)
  · exact held_armBuf (dj hF) ‹_›
  · assumption
theorem held_cmdArm {q c s} (hF : Dj F 0x8000200a00029) (hs : Held b0 F s) : Held b0 F (State.cmdArm q c s) := by
  unfold State.cmdArm
  split
  · exact held_complete (dj hF) ‹_›
  · refine ite_ind (Q := Held b0 F) (fun _ => ?_) (fun _ => ?_)
    · exact held_complete (dj hF) ‹_›
    · extract_lets -merge -underBinder +onlyGivenNames k
      try clear_value k
      refine ite_ind (Q := Held b0 F) (fun _ => ?_) (fun _ => ?_)
      · refine ite_ind (Q := Held b0 F) (fun _ => ?_) (fun _ => ?_)
        · exact held_complete (dj hF) ‹_›
        · extract_lets -merge -underBinder +onlyGivenNames s
          have hs : Held b0 F s := held_showAcq (dj hF) (held_armBuf (dj hF) ‹_›)
          try clear_value s
          exact held_complete (dj hF) ‹_›
      · exact held_complete (dj hF) ‹_›
theorem held_acqDrain {s} (hF : Dj F 0x1800100020000b) (hs : Held b0 F s) : Held b0 F (State.acqDrain s) := by
  unfold State.acqDrain
  extract_lets -merge -underBinder +onlyGivenNames l
  try clear_value l
  refine foldl_ind (Q := Held b0 F) (fun _ _ hs => ?_) ?_
  · exact held_acqJudge (dj hF) ‹_›
  · exact held_modAcq (dj hF) ‹_›
theorem held_cmdForce {q c s} (hF : Dj F 0x18001200a0002b) (hs : Held b0 F s) : Held b0 F (State.cmdForce q c s) := by
  unfold State.cmdForce
  extract_lets -merge -underBinder +onlyGivenNames s
  have hs : Held b0 F s := held_acqDrain (dj hF) ‹_›
  try clear_value s
  extract_lets -merge -underBinder +onlyGivenNames k
  try clear_value k
  extract_lets -merge -underBinder +onlyGivenNames go
  have hgo : ∀ r_0, Held b0 F (go r_0) := by
    intro r_0
    unfold go
    extract_lets -merge -underBinder +onlyGivenNames seq
    try clear_value seq
    exact held_complete (dj hF) (held_showAcq (dj hF) (held_claim (dj hF) ‹_›))
  try clear_value go
  refine ite_ind (Q := Held b0 F) (fun _ => ?_) (fun _ => ?_)
  · split
    · exact held_complete (dj hF) ‹_›
    · refine ite_ind (Q := Held b0 F) (fun _ => ?_) (fun _ => ?_)
      · refine hgo _
      · exact held_complete (dj hF) ‹_›
  · split
    · exact held_complete (dj hF) ‹_›
    · split
      · refine hgo _
      · exact held_complete (dj hF) (held_inc (dj hF) ‹_› (off_ACQ_NO_RESOURCE (dj hF)))
theorem held_execForceTrigger {q s} (hF : Dj F 0x18001200a0002b) (hs : Held b0 F s) : HeldR b0 F (execForceTrigger q s) := by
  unfold execForceTrigger
  refine held_onCmd (dj hF) ?_ ?_
  · assumption
  · intro y0 y1 hy1
    exact held_cmdForce (dj hF) ‹_›
theorem held_acqFrame {s r frame stamp} (hF : Dj F 0x1800100020000b) (hs : Held b0 F s) : Held b0 F (State.acqFrame s r frame stamp) := by
  unfold State.acqFrame
  extract_lets -merge -underBinder +onlyGivenNames before
  try clear_value before
  extract_lets -merge -underBinder +onlyGivenNames prev
  try clear_value prev
  extract_lets -merge -underBinder +onlyGivenNames s
  have hs : Held b0 F s := held_pushFrame (dj hF) ‹_›
  try clear_value s
  extract_lets -merge -underBinder +onlyGivenNames first
  try clear_value first
  extract_lets -merge -underBinder +onlyGivenNames s
  have hs : Held b0 F s := by
    unfold s
    refine ite_ind (Q := Held b0 F) (fun _ => ?_) (fun _ => ?_)
    · exact held_judgeFrame (dj hF) ‹_›
    · assumption
  try clear_value s
  extract_lets -merge -underBinder +onlyGivenNames s
  have hs : Held b0 F s := by
    unfold s
    split
    · exact held_refinePos (dj hF) ‹_›
    · assumption
  try clear_value s
  extract_lets -merge -underBinder +onlyGivenNames s
  have hs : Held b0 F s := by
    unfold s
    split
    · exact held_trigger (dj hF) ‹_›
    · refine ite_ind (Q := Held b0 F) (fun _ => ?_) (fun _ => ?_)
      · exact held_modBuf (dj hF) ‹_›
      · assumption
  try clear_value s
  extract_lets -merge -underBinder +onlyGivenNames x
  try clear_value x
  refine ite_ind (Q := Held b0 F) (fun _ => ?_) (fun _ => ?_)
  · exact held_completeRec (dj hF) ‹_›
  · refine ite_ind (Q := Held b0 F) (fun _ => ?_) (fun _ => ?_)
    · exact held_modBuf (dj hF) ‹_›
    · assumption
theorem held_execArm {q s} (hF : Dj F 0x8000200a00029) (hs : Held b0 F s) : HeldR b0 F (execArm q s) := by
  unfold execArm
  refine held_onCmd (dj hF) ?_ ?_
  · assumption
  · intro y0 y1 hy1
    exact held_cmdArm (dj hF) ‹_›
theorem held_acqSample {s r codes stamp} (hF : Dj F 0x1800120120000b) (hs : Held b0 F s) : Held b0 F (State.acqSample s r codes stamp) := by
  unfold State.acqSample
  extract_lets -merge -underBinder +onlyGivenNames s
  have hs : Held b0 F s := held_acqDrain (dj hF) ‹_›
  try clear_value s
  extract_lets -merge -underBinder +onlyGivenNames k
  try clear_value k
  refine ite_ind (Q := Held b0 F) (fun _ => ?_) (fun _ => ?_)
  · split
    rename_i f s heq
    have hs : Held b0 F s := held2_eq heq (by
      exact held_frameWords (dj hF) ‹_›
      )
    clear heq
    exact held_showAcq (dj hF) (held_acqFrame (dj hF) ‹_›)
  · exact held_showAcq (dj hF) ‹_›
theorem held_execAcqSample {b codes stamp s} (hF : Dj F 0x1800120120000b) (hs : Held b0 F s) : HeldR b0 F (execAcqSample b codes stamp s) := by
  unfold execAcqSample
  split
  · refine heldR_next ?_
    refine ite_ind (Q := Held b0 F) (fun _ => ?_) (fun _ => ?_)
    · exact held_acqSample (dj hF) ‹_›
    · assumption
  · exact heldR_next ‹_›

end Sys2Proof.Machine
end

