-- ==== Sys2Proof/Laws/KeptCan.lean ====
section
/-!
SUPPORT. The operations of Machine/Can.lean change only the parts that their masks name (Laws/Held.lean).
-/
namespace Sys2Proof.Machine
open Sys2Proof
set_option Elab.async false

variable {b0 : State} {F : Nat}

theorem held_afterTx {s b t} (hF : Dj F 0x1001000208009) (hs : Held b0 F s) : Held b0 F (State.afterTx s b t) := by
  unfold State.afterTx
  refine ite_ind (Q := Held b0 F) (fun _ => ?_) (fun _ => ?_)
  · exact held_flag (dj hF) (held_modMbc (dj hF) (held_wr (dj hF) ‹_› (off_canSleep (dj hF)))) (off_MBC_EVENT_STATUS_SLEEP_CHANGE (dj hF))
  · refine ite_ind (Q := Held b0 F) (fun _ => ?_) (fun _ => ?_)
    · exact held_modMbc (dj hF) ‹_›
    · assumption
theorem held_busBack {s b} (hF : Dj F 0x11001000a0802b) (hs : Held b0 F s) : Held b0 F (State.busBack s b) := by
  unfold State.busBack
  extract_lets -merge -underBinder +onlyGivenNames q
  try clear_value q
  extract_lets -merge -underBinder +onlyGivenNames s
  have hs : Held b0 F s := held_modMbc (dj hF) (held_wr (dj hF) (held_wr (dj hF) (held_wr (dj hF) ‹_› (off_canTec (dj hF))) (off_canRec' (dj hF))) (off_MBC_STATUS_STATE (dj hF)))
  try clear_value s
  extract_lets -merge -underBinder +onlyGivenNames s
  have hs : Held b0 F s := held_flag (dj hF) (held_raise (dj hF) ‹_›) (off_MBC_EVENT_STATUS_RECOVERED (dj hF))
  try clear_value s
  refine foldl_ind (Q := Held b0 F) (fun s _ hs => ?_) ?_
  · exact held_complete (dj hF) ‹_›
  · assumption
theorem held_execMbcClearCounters {sess key b s} (hF : Dj F 0x1000000000001) (hs : Held b0 F s) : HeldR b0 F (execMbcClearCounters sess key b s) := by
  unfold execMbcClearCounters
  refine heldR_next (ite_ind (Q := Held b0 F) (fun h => ?_) (fun _ => hs))
  simp only [Bool.and_eq_true, decide_eq_true_eq] at h
  exact held_clearAt 16 (dj hF) (dj hF) (by simp [blkLo]) (by simp [blkHi]; omega) hs
theorem held_dropTx {s b t} (hF : Dj F 0x1000000008001) (hs : Held b0 F s) : Held b0 F (State.dropTx s b t) := by
  unfold State.dropTx
  exact held_showTx (dj hF) (held_modMbc (dj hF) ‹_›)
theorem held_execAllowRecovery {sess key b s} (hF : Dj F 0x1000000000001) (hs : Held b0 F s) : HeldR b0 F (execAllowRecovery sess key b s) := by
  unfold execAllowRecovery
  refine heldR_next ?_
  refine ite_ind (Q := Held b0 F) (fun _ => ?_) (fun _ => ?_)
  · extract_lets -merge -underBinder +onlyGivenNames s
    have hs : Held b0 F s := held_wrB (dj hF) ‹_› (off_MBC_STATUS_RECOVERY_INHIBITED (dj hF))
    try clear_value s
    refine ite_ind (Q := Held b0 F) (fun _ => ?_) (fun _ => ?_)
    · exact held_wr (dj hF) ‹_› (off_MBC_STATUS_STATE (dj hF))
    · assumption
  · assumption
theorem held_wakePattern {s b} (hF : Dj F 0x1001200a08029) (hs : Held b0 F s) : Held b0 F (State.wakePattern s b) := by
  unfold State.wakePattern
  extract_lets -merge -underBinder +onlyGivenNames s
  have hs : Held b0 F s := held_wakeSource (dj hF) (held_inc (dj hF) ‹_› (off_MBC_WAKEUPS (dj hF)))
  try clear_value s
  extract_lets -merge -underBinder +onlyGivenNames st
  try clear_value st
  refine ite_ind (Q := Held b0 F) (fun _ => ?_) (fun _ => ?_)
  · exact held_canAbortSleep (dj hF) ‹_›
  · refine ite_ind (Q := Held b0 F) (fun _ => ?_) (fun _ => ?_)
    · exact held_wrB (dj hF) ‹_› (off_canLatch (dj hF))
    · refine ite_ind (Q := Held b0 F) (fun _ => ?_) (fun _ => ?_)
      · exact held_canWake (dj hF) (held_wrB (dj hF) ‹_› (off_canLatch (dj hF)))
      · assumption
theorem held_txSent {s b t lat tdc} (hF : Dj F 0x11001000a0802b) (hs : Held b0 F s) : Held b0 F (State.txSent s b t lat tdc) := by
  unfold State.txSent
  extract_lets -merge -underBinder +onlyGivenNames s
  have hs : Held b0 F s := held_send (dj hF) (held_inc (dj hF) (held_dropTx (dj hF) ‹_›) (off_MBC_TX_FRAMES (dj hF)))
  try clear_value s
  extract_lets -merge -underBinder +onlyGivenNames s
  have hs : Held b0 F s := held_canJudge (dj hF) (held_wr (dj hF) ‹_› (off_canTec (dj hF)))
  try clear_value s
  extract_lets -merge -underBinder +onlyGivenNames s
  have hs : Held b0 F s := by
    unfold s
    refine ite_ind (Q := Held b0 F) (fun _ => ?_) (fun _ => ?_)
    · exact held_wr (dj hF) ‹_› (off_MBC_CYCLIC_LATENCY_MAX (dj hF))
    · assumption
  try clear_value s
  extract_lets -merge -underBinder +onlyGivenNames s
  have hs : Held b0 F s := by
    unfold s
    refine ite_ind (Q := Held b0 F) (fun _ => ?_) (fun _ => ?_)
    · exact held_wr (dj hF) ‹_› (off_MBC_TDC (dj hF))
    · assumption
  try clear_value s
  extract_lets -merge -underBinder +onlyGivenNames s
  have hs : Held b0 F s := by
    unfold s
    split
    · exact held_complete (dj hF) ‹_›
    · assumption
  try clear_value s
  exact held_afterTx (dj hF) ‹_›
theorem held_countError {s b kind tx major} (hF : Dj F 0x1000000000001) (hs : Held b0 F s) : Held b0 F (State.countError s b kind tx major) := by
  unfold State.countError
  refine ite_ind (Q := Held b0 F) (fun _ => ?_) (fun _ => ?_)
  · refine ite_ind (Q := Held b0 F) (fun _ => ?_) (fun _ => ?_)
    · assumption
    · exact held_wr (dj hF) ‹_› (off_canTec (dj hF))
  · exact held_wr (dj hF) ‹_› (off_canRec' (dj hF))
theorem held_execRestrict {sess key b s} (hF : Dj F 0x1000000000001) (hs : Held b0 F s) : HeldR b0 F (execRestrict sess key b s) := by
  unfold execRestrict
  refine heldR_next ?_
  refine ite_ind (Q := Held b0 F) (fun _ => ?_) (fun _ => ?_)
  · exact held_wr (dj hF) ‹_› (off_MBC_STATUS_STATE (dj hF))
  · assumption
theorem held_execInhibitRecovery {sess key b s} (hF : Dj F 0x1000000000001) (hs : Held b0 F s) : HeldR b0 F (execInhibitRecovery sess key b s) := by
  unfold execInhibitRecovery
  refine heldR_next ?_
  refine ite_ind (Q := Held b0 F) (fun _ => ?_) (fun _ => ?_)
  · extract_lets -merge -underBinder +onlyGivenNames s
    have hs : Held b0 F s := held_wrB (dj hF) ‹_› (off_MBC_STATUS_RECOVERY_INHIBITED (dj hF))
    try clear_value s
    refine ite_ind (Q := Held b0 F) (fun _ => ?_) (fun _ => ?_)
    · exact held_wr (dj hF) ‹_› (off_MBC_STATUS_STATE (dj hF))
    · assumption
  · assumption
theorem held_canCancel {q c s} (hF : Dj F 0x1000000808029) (hs : Held b0 F s) : Held b0 F (State.canCancel q c s) := by
  unfold State.canCancel
  extract_lets -merge -underBinder +onlyGivenNames tag
  try clear_value tag
  extract_lets -merge -underBinder +onlyGivenNames hit
  try clear_value hit
  split
  · exact held_complete (dj hF) ‹_›
  · extract_lets -merge -underBinder +onlyGivenNames s
    have hs : Held b0 F s := held_inc (dj hF) (held_dropTx (dj hF) ‹_›) (off_MBC_TX_CANCELLED (dj hF))
    try clear_value s
    extract_lets -merge -underBinder +onlyGivenNames s
    have hs : Held b0 F s := by
      unfold s
      split
      · exact held_complete (dj hF) ‹_›
      · assumption
    try clear_value s
    exact held_complete (dj hF) ‹_›
theorem held_execMbcRxAckWrite {sess b seq s} (hF : Dj F 0x1000000008001) (hs : Held b0 F s) : HeldR b0 F (execMbcRxAckWrite sess b seq s) := by
  unfold execMbcRxAckWrite
  refine heldR_next ?_
  refine ite_ind (Q := Held b0 F) (fun _ => ?_) (fun _ => ?_)
  · extract_lets -merge -underBinder +onlyGivenNames l
    try clear_value l
    exact held_wr (dj hF) (held_modMbc (dj hF) ‹_›) (off_MBC_RX_DEPTH (dj hF))
  · assumption
theorem held_busWake {q c s} (hF : Dj F 0x1001000a08029) (hs : Held b0 F s) : Held b0 F (State.busWake q c s) := by
  unfold State.busWake
  extract_lets -merge -underBinder +onlyGivenNames b
  try clear_value b
  extract_lets -merge -underBinder +onlyGivenNames wait
  have hwait : ∀ s_0, Held b0 F s_0 → Held b0 F (wait s_0) := by
    intro s_0 hs_0
    unfold wait
    exact held_modMbc (dj hF) ‹_›
  try clear_value wait
  refine ite_ind (Q := Held b0 F) (fun _ => ?_) (fun _ => ?_)
  · exact held_complete (dj hF) ‹_›
  · split
    · exact held_complete (dj hF) ‹_›
    · exact held_complete (dj hF) (held_canAbortSleep (dj hF) ‹_›)
    · refine hwait _ ?_
      · exact held_wrB (dj hF) ‹_› (off_canLatch (dj hF))
    · refine hwait _ ?_
      · exact held_canWake (dj hF) ‹_›
    · refine hwait _ ?_
      · assumption
theorem held_canTxCmd {q c s} (hF : Dj F 0x1001000a08029) (hs : Held b0 F s) : Held b0 F (State.canTxCmd q c s) := by
  unfold State.canTxCmd
  extract_lets -merge -underBinder +onlyGivenNames id
  try clear_value id
  extract_lets -merge -underBinder +onlyGivenNames fl
  try clear_value fl
  extract_lets -merge -underBinder +onlyGivenNames len
  try clear_value len
  refine ite_ind (Q := Held b0 F) (fun _ => ?_) (fun _ => ?_)
  · exact held_complete (dj hF) ‹_›
  · refine ite_ind (Q := Held b0 F) (fun _ => ?_) (fun _ => ?_)
    · exact held_complete (dj hF) ‹_›
    · refine ite_ind (Q := Held b0 F) (fun _ => ?_) (fun _ => ?_)
      · exact held_complete (dj hF) ‹_›
      · refine ite_ind (Q := Held b0 F) (fun _ => ?_) (fun _ => ?_)
        · exact held_complete (dj hF) ‹_›
        · extract_lets -merge -underBinder +onlyGivenNames d
          try clear_value d
          extract_lets -merge -underBinder +onlyGivenNames d
          try clear_value d
          extract_lets -merge -underBinder +onlyGivenNames id
          try clear_value id
          exact held_canRequest (dj hF) ‹_›
theorem held_busRecover {q c s} (hF : Dj F 0x1000000808029) (hs : Held b0 F s) : Held b0 F (State.busRecover q c s) := by
  unfold State.busRecover
  extract_lets -merge -underBinder +onlyGivenNames b
  try clear_value b
  refine ite_ind (Q := Held b0 F) (fun _ => ?_) (fun _ => ?_)
  · exact held_complete (dj hF) ‹_›
  · refine ite_ind (Q := Held b0 F) (fun _ => ?_) (fun _ => ?_)
    · exact held_modMbc (dj hF) (held_wr (dj hF) ‹_› (off_MBC_STATUS_STATE (dj hF)))
    · refine ite_ind (Q := Held b0 F) (fun _ => ?_) (fun _ => ?_)
      · exact held_complete (dj hF) ‹_›
      · exact held_complete (dj hF) ‹_›
theorem held_standingAck {s b k seq status gen} (hF : Dj F 0x1000000008001) (hs : Held b0 F s) : Held b0 F (State.standingAck s b k seq status gen) := by
  unfold State.standingAck
  split
  · assumption
  · refine ite_ind (Q := Held b0 F) (fun _ => ?_) (fun _ => ?_)
    · exact held_wrB (dj hF) (held_modMbc (dj hF) ‹_›) (off_MBC_STANDING_ACKED (dj hF))
    · assumption
theorem held_execBusSleepCommitTimer {b s} (hF : Dj F 0x1001000208009) (hs : Held b0 F s) : HeldR b0 F (execBusSleepCommitTimer b s) := by
  unfold execBusSleepCommitTimer
  refine heldR_next ?_
  refine ite_ind (Q := Held b0 F) (fun _ => ?_) (fun _ => ?_)
  · exact held_canSend (dj hF) ‹_›
  · assumption
theorem held_canError {s b kind data tx major} (hF : Dj F 0x11001000a0802b) (hs : Held b0 F s) : Held b0 F (State.canError s b kind data tx major) := by
  unfold State.canError
  refine ite_ind (Q := Held b0 F) (fun _ => ?_) (fun _ => ?_)
  · exact held_inc (dj hF) ‹_› (off_MBC_RESTRICTED_ERRORS (dj hF))
  · extract_lets -merge -underBinder +onlyGivenNames s
    have hs : Held b0 F s := held_countError (dj hF) (held_wr (dj hF) (held_inc (dj hF) ‹_› (off_MBC_ERRORS (dj hF))) (off_MBC_LAST_ERROR (dj hF)))
    try clear_value s
    refine ite_ind (Q := Held b0 F) (fun _ => ?_) (fun _ => ?_)
    · exact held_goBusOff (dj hF) ‹_›
    · exact held_canJudge (dj hF) ‹_›
theorem held_execBusOff {b s} (hF : Dj F 0x11001000a0802b) (hs : Held b0 F s) : HeldR b0 F (execBusOff b s) := by
  unfold execBusOff
  refine heldR_next ?_
  refine ite_ind (Q := Held b0 F) (fun _ => ?_) (fun _ => ?_)
  · exact held_goBusOff (dj hF) ‹_›
  · assumption
theorem held_execBusRecover {q s} (hF : Dj F 0x1000000808029) (hs : Held b0 F s) : HeldR b0 F (execBusRecover q s) := by
  unfold execBusRecover
  refine held_onCmd (dj hF) ?_ ?_
  · assumption
  · intro y0 y1 hy1
    exact held_busRecover (dj hF) ‹_›
theorem held_reference {s b r} (hF : Dj F 0x1001000208009) (hs : Held b0 F s) : Held b0 F (State.reference s b r) := by
  unfold State.reference
  extract_lets -merge -underBinder +onlyGivenNames id
  try clear_value id
  extract_lets -merge -underBinder +onlyGivenNames cyc
  try clear_value cyc
  extract_lets -merge -underBinder +onlyGivenNames s
  have hs : Held b0 F s := by
    unfold s
    refine ite_ind (Q := Held b0 F) (fun _ => ?_) (fun _ => ?_)
    · exact held_incSat (dj hF) ‹_› (off_MBC_REF_CYCLES (dj hF))
    · assumption
  try clear_value s
  exact held_canRequest (dj hF) (held_wr (dj hF) ‹_› (off_MBC_REF_CYCLES (dj hF)))
theorem held_execStandingAck {b k seq status gen s} (hF : Dj F 0x1000000008001) (hs : Held b0 F s) : HeldR b0 F (execStandingAck b k seq status gen s) := by
  unfold execStandingAck
  refine heldR_next ?_
  refine ite_ind (Q := Held b0 F) (fun _ => ?_) (fun _ => ?_)
  · exact held_standingAck (dj hF) ‹_›
  · assumption
theorem held_execUnrestrict {sess key b s} (hF : Dj F 0x1100100020000b) (hs : Held b0 F s) : HeldR b0 F (execUnrestrict sess key b s) := by
  unfold execUnrestrict
  refine heldR_next ?_
  refine ite_ind (Q := Held b0 F) (fun _ => ?_) (fun _ => ?_)
  · exact held_canJudge (dj hF) (held_wr (dj hF) ‹_› (off_MBC_STATUS_STATE (dj hF)))
  · assumption
theorem held_busSleep {q c s} (hF : Dj F 0x1001000a08029) (hs : Held b0 F s) : Held b0 F (State.busSleep q c s) := by
  unfold State.busSleep
  extract_lets -merge -underBinder +onlyGivenNames b
  try clear_value b
  extract_lets -merge -underBinder +onlyGivenNames ok
  try clear_value ok
  refine ite_ind (Q := Held b0 F) (fun _ => ?_) (fun _ => ?_)
  · extract_lets -merge -underBinder +onlyGivenNames id
    try clear_value id
    extract_lets -merge -underBinder +onlyGivenNames s
    have hs : Held b0 F s := held_wr (dj hF) (held_modMbc (dj hF) ‹_›) (off_canSleep (dj hF))
    try clear_value s
    exact held_canSend (dj hF) (held_flag (dj hF) ‹_› (off_MBC_EVENT_STATUS_SLEEP_CHANGE (dj hF)))
  · exact held_complete (dj hF) ‹_›
theorem held_txFailed {s b t} (hF : Dj F 0x1000000808029) (hs : Held b0 F s) : Held b0 F (State.txFailed s b t) := by
  unfold State.txFailed
  refine ite_ind (Q := Held b0 F) (fun _ => ?_) (fun _ => ?_)
  · extract_lets -merge -underBinder +onlyGivenNames s
    have hs : Held b0 F s := held_dropTx (dj hF) ‹_›
    try clear_value s
    split
    · exact held_complete (dj hF) ‹_›
    · assumption
  · assumption
theorem held_rxGood {s b} (hF : Dj F 0x1100100120000b) (hs : Held b0 F s) : Held b0 F (State.rxGood s b) := by
  unfold State.rxGood
  extract_lets -merge -underBinder +onlyGivenNames r
  try clear_value r
  refine ite_ind (Q := Held b0 F) (fun _ => ?_) (fun _ => ?_)
  · assumption
  · refine ite_ind (Q := Held b0 F) (fun _ => ?_) (fun _ => ?_)
    · exact held_canJudge (dj hF) (held_wr (dj hF) ‹_› (off_canRec' (dj hF)))
    · split
      rename_i w s heq
      have hs : Held b0 F s := held2_eq heq (by
        exact held_drawWord (dj hF) ‹_›
        )
      clear heq
      exact held_canJudge (dj hF) (held_wr (dj hF) ‹_› (off_canRec' (dj hF)))
theorem held_objection {s b id} (hF : Dj F 0x1001200a08029) (hs : Held b0 F s) : Held b0 F (State.objection s b id) := by
  unfold State.objection
  refine ite_ind (Q := Held b0 F) (fun _ => ?_) (fun _ => ?_)
  · assumption
  · extract_lets -merge -underBinder +onlyGivenNames st
    try clear_value st
    refine ite_ind (Q := Held b0 F) (fun _ => ?_) (fun _ => ?_)
    · exact held_canAbortSleep (dj hF) ‹_›
    · refine ite_ind (Q := Held b0 F) (fun _ => ?_) (fun _ => ?_)
      · exact held_wakeSource (dj hF) (held_wrB (dj hF) ‹_› (off_canLatch (dj hF)))
      · refine ite_ind (Q := Held b0 F) (fun _ => ?_) (fun _ => ?_)
        · exact held_canWake (dj hF) (held_wakeSource (dj hF) (held_wrB (dj hF) ‹_› (off_canLatch (dj hF))))
        · assumption
theorem held_execCanWakePattern {b s} (hF : Dj F 0x1001200a08029) (hs : Held b0 F s) : HeldR b0 F (execCanWakePattern b s) := by
  unfold execCanWakePattern
  refine heldR_next ?_
  refine ite_ind (Q := Held b0 F) (fun _ => ?_) (fun _ => ?_)
  · exact held_wakePattern (dj hF) ‹_›
  · refine ite_ind (Q := Held b0 F) (fun _ => ?_) (fun _ => ?_)
    · exact held_wakeSource (dj hF) ‹_›
    · assumption
theorem held_execBusSleep {q s} (hF : Dj F 0x1001000a08029) (hs : Held b0 F s) : HeldR b0 F (execBusSleep q s) := by
  unfold execBusSleep
  refine held_onCmd (dj hF) ?_ ?_
  · assumption
  · intro y0 y1 hy1
    exact held_busSleep (dj hF) ‹_›
theorem held_execCanTxCancel {q s} (hF : Dj F 0x1000000808029) (hs : Held b0 F s) : HeldR b0 F (execCanTxCancel q s) := by
  unfold execCanTxCancel
  refine held_onCmd (dj hF) ?_ ?_
  · assumption
  · intro y0 y1 hy1
    exact held_canCancel (dj hF) ‹_›
theorem held_execBusOffRecovered {b s} (hF : Dj F 0x11001000a0802b) (hs : Held b0 F s) : HeldR b0 F (execBusOffRecovered b s) := by
  unfold execBusOffRecovered
  refine heldR_next ?_
  refine ite_ind (Q := Held b0 F) (fun _ => ?_) (fun _ => ?_)
  · exact held_busBack (dj hF) ‹_›
  · assumption
theorem held_standingRetry {s b k} (hF : Dj F 0x1100100020800b) (hs : Held b0 F s) : Held b0 F (State.standingRetry s b k) := by
  unfold State.standingRetry
  split
  · assumption
  · refine ite_ind (Q := Held b0 F) (fun _ => ?_) (fun _ => ?_)
    · assumption
    · refine ite_ind (Q := Held b0 F) (fun _ => ?_) (fun _ => ?_)
      · extract_lets -merge -underBinder +onlyGivenNames s
        have hs : Held b0 F s := held_modMbc (dj hF) ‹_›
        try clear_value s
        exact held_flag (dj hF) (held_raise (dj hF) ‹_›) (off_MBC_EVENT_STATUS_STANDING_UNACKED (dj hF))
      · exact held_sendCanStanding (dj hF) ‹_›
theorem held_execCanTx {q s} (hF : Dj F 0x1001000a08029) (hs : Held b0 F s) : HeldR b0 F (execCanTx q s) := by
  unfold execCanTx
  refine held_onCmd (dj hF) ?_ ?_
  · assumption
  · intro y0 y1 hy1
    exact held_canTxCmd (dj hF) ‹_›
theorem held_hostFrame {s b id fmt flags data} (hF : Dj F 0x1100100020800b) (hs : Held b0 F s) : Held b0 F (State.hostFrame s b id fmt flags data) := by
  unfold State.hostFrame
  extract_lets -merge -underBinder +onlyGivenNames x
  try clear_value x
  refine ite_ind (Q := Held b0 F) (fun _ => ?_) (fun _ => ?_)
  · extract_lets -merge -underBinder +onlyGivenNames s
    have hs : Held b0 F s := held_inc (dj hF) ‹_› (off_MBC_RX_DROPPED (dj hF))
    try clear_value s
    refine ite_ind (Q := Held b0 F) (fun _ => ?_) (fun _ => ?_)
    · assumption
    · exact held_flag (dj hF) (held_raise (dj hF) (held_modMbc (dj hF) ‹_›)) (off_MBC_EVENT_STATUS_RX_OVERFLOW (dj hF))
  · extract_lets -merge -underBinder +onlyGivenNames q
    try clear_value q
    extract_lets -merge -underBinder +onlyGivenNames s
    have hs : Held b0 F s := held_inc (dj hF) (held_modMbc (dj hF) ‹_›) (off_MBC_RX_NEXT_SEQ (dj hF))
    try clear_value s
    extract_lets -merge -underBinder +onlyGivenNames s
    have hs : Held b0 F s := held_wr (dj hF) ‹_› (off_MBC_RX_DEPTH (dj hF))
    try clear_value s
    exact held_raise (dj hF) ‹_›
theorem held_execStandingRetry {b k s} (hF : Dj F 0x1100100020800b) (hs : Held b0 F s) : HeldR b0 F (execStandingRetry b k s) := by
  unfold execStandingRetry
  refine heldR_next ?_
  refine ite_ind (Q := Held b0 F) (fun _ => ?_) (fun _ => ?_)
  · exact held_standingRetry (dj hF) ‹_›
  · assumption
theorem held_execCanFrameSent {b outcome lat tdc s} (hF : Dj F 0x11001000a0802b) (hs : Held b0 F s) : HeldR b0 F (execCanFrameSent b outcome lat tdc s) := by
  unfold execCanFrameSent
  split
  · exact heldR_next ‹_›
  · refine ite_ind (Q := HeldR b0 F) (fun _ => ?_) (fun _ => ?_)
    · refine heldR_next ?_
      refine ite_ind (Q := Held b0 F) (fun _ => ?_) (fun _ => ?_)
      · exact held_txSent (dj hF) ‹_›
      · refine ite_ind (Q := Held b0 F) (fun _ => ?_) (fun _ => ?_)
        · exact held_txFailed (dj hF) (held_inc (dj hF) ‹_› (off_MBC_ARB_LOST (dj hF)))
        · exact held_txFailed (dj hF) ‹_›
    · exact heldR_next ‹_›
theorem held_execReferenceMessageTimer {b s} (hF : Dj F 0x1001000208009) (hs : Held b0 F s) : HeldR b0 F (execReferenceMessageTimer b s) := by
  unfold execReferenceMessageTimer
  split
  · refine heldR_next ?_
    refine ite_ind (Q := Held b0 F) (fun _ => ?_) (fun _ => ?_)
    · exact held_reference (dj hF) ‹_›
    · assumption
  · exact heldR_next ‹_›
theorem held_execSleepObjection {b id s} (hF : Dj F 0x1001200a08029) (hs : Held b0 F s) : HeldR b0 F (execSleepObjection b id s) := by
  unfold execSleepObjection
  refine heldR_next ?_
  refine ite_ind (Q := Held b0 F) (fun _ => ?_) (fun _ => ?_)
  · exact held_objection (dj hF) ‹_›
  · assumption
theorem held_execBusWake {q s} (hF : Dj F 0x1001000a08029) (hs : Held b0 F s) : HeldR b0 F (execBusWake q s) := by
  unfold execBusWake
  refine held_onCmd (dj hF) ?_ ?_
  · assumption
  · intro y0 y1 hy1
    exact held_busWake (dj hF) ‹_›
theorem held_execCanErrorDetected {b kind data tx major s} (hF : Dj F 0x11001000a0802b) (hs : Held b0 F s) : HeldR b0 F (execCanErrorDetected b kind data tx major s) := by
  unfold execCanErrorDetected
  refine heldR_next ?_
  refine ite_ind (Q := Held b0 F) (fun _ => ?_) (fun _ => ?_)
  · exact held_canError (dj hF) ‹_›
  · assumption
theorem held_route {s b id fmt flags data} (hF : Dj F 0x155c3201afc12b) (hs : Held b0 F s) : Held b0 F (State.route s b id fmt flags data) := by
  unfold State.route
  extract_lets -merge -underBinder +onlyGivenNames fixture
  try clear_value fixture
  refine ite_ind (Q := Held b0 F) (fun _ => ?_) (fun _ => ?_)
  · exact held_doorStatus (dj hF) ‹_›
  · refine ite_ind (Q := Held b0 F) (fun _ => ?_) (fun _ => ?_)
    · exact held_tractionStatus (dj hF) ‹_›
    · refine ite_ind (Q := Held b0 F) (fun _ => ?_) (fun _ => ?_)
      · exact held_standingAck (dj hF) ‹_›
      · refine ite_ind (Q := Held b0 F) (fun _ => ?_) (fun _ => ?_)
        · exact held_objection (dj hF) ‹_›
        · split
          · exact held_fixtureMsg (dj hF) ‹_›
          · split
            · exact held_dataArrives (dj hF) ‹_›
            · exact held_echoArrives (dj hF) ‹_›
            · refine ite_ind (Q := Held b0 F) (fun _ => ?_) (fun _ => ?_)
              · assumption
              · refine ite_ind (Q := Held b0 F) (fun _ => ?_) (fun _ => ?_)
                · exact held_hostFrame (dj hF) ‹_›
                · exact held_inc (dj hF) ‹_› (off_MBC_RX_DISCARDED (dj hF))
theorem held_canReceived {s b id fmt flags data stamp} (hF : Dj F 0x155c3201afc12b) (hs : Held b0 F s) : Held b0 F (State.canReceived s b id fmt flags data stamp) := by
  unfold State.canReceived
  exact held_route (dj hF) (held_rxGood (dj hF) (held_wr64 (dj hF) (held_inc (dj hF) ‹_› (off_MBC_RX_FRAMES (dj hF))) (off_MBC_RX_STAMP_LO (dj hF))))
theorem held_execCanFrameReceived {b id fmt flags data stamp s} (hF : Dj F 0x155c3201afc12b) (hs : Held b0 F s) : HeldR b0 F (execCanFrameReceived b id fmt flags data stamp s) := by
  unfold execCanFrameReceived
  refine heldR_next ?_
  refine ite_ind (Q := Held b0 F) (fun _ => ?_) (fun _ => ?_)
  · exact held_canReceived (dj hF) ‹_›
  · assumption

end Sys2Proof.Machine
end

