-- ==== Sys2Proof/Laws/KeptSerial.lean ====
section
/-!
SUPPORT. The operations of Machine/Serial.lean change only the parts that their masks name (Laws/Held.lean).
-/
namespace Sys2Proof.Machine
open Sys2Proof
set_option Elab.async false

variable {b0 : State} {F : Nat}

theorem off_serState {i} (hF : Dj F 0x2000000000000) : Off F (serState i) := off_inst 17 _ _ hF rfl
theorem held_showLine {s l} (hF : Dj F 0x2000000000001) (hs : Held b0 F s) : Held b0 F (State.showLine s l) := by
  unfold State.showLine
  exact held_wr (dj hF) ‹_› (off_SER_NODES_ONLINE (dj hF))
theorem held_holdLine {s l reason} (hF : Dj F 0x810000) (hs : Held b0 F s) : Held b0 F (State.holdLine s l reason) := by
  unfold State.holdLine
  extract_lets -merge -underBinder +onlyGivenNames q
  try clear_value q
  extract_lets -merge -underBinder +onlyGivenNames msg
  try clear_value msg
  exact held_send (dj hF) (held_modSer (dj hF) ‹_›)
theorem held_execSerClearCounters {sess key l s} (hF : Dj F 0x2000000010001) (hs : Held b0 F s) : HeldR b0 F (execSerClearCounters sess key l s) := by
  unfold execSerClearCounters
  refine heldR_next (ite_ind (Q := Held b0 F) (fun h => ?_) (fun _ => hs))
  simp only [Bool.and_eq_true, decide_eq_true_eq] at h
  exact held_modSer (dj hF) (held_clearAt 17 (dj hF) (dj hF) (by simp [blkLo]) (by simp [blkHi]; omega) hs)
theorem held_lineBad {s l kind} (hF : Dj F 0x1200100021000b) (hs : Held b0 F s) : Held b0 F (State.lineBad s l kind) := by
  unfold State.lineBad
  extract_lets -merge -underBinder +onlyGivenNames f
  try clear_value f
  refine ite_ind (Q := Held b0 F) (fun _ => ?_) (fun _ => ?_)
  · extract_lets -merge -underBinder +onlyGivenNames s
    have hs : Held b0 F s := held_wr (dj hF) (held_modSer (dj hF) ‹_›) (off_serState (dj hF))
    try clear_value s
    exact held_flag (dj hF) (held_raise (dj hF) ‹_›) (off_SER_EVENT_STATUS_LINE_FAULT (dj hF))
  · exact held_modSer (dj hF) ‹_›
theorem held_execSerialPollTimeout {l s} (hF : Dj F 0x2000000010001) (hs : Held b0 F s) : HeldR b0 F (execSerialPollTimeout l s) := by
  unfold execSerialPollTimeout
  split
  · refine heldR_next ?_
    refine ite_ind (Q := Held b0 F) (fun _ => ?_) (fun _ => ?_)
    · exact held_modNodeOf (dj hF) (held_modSer (dj hF) (held_inc (dj hF) ‹_› (off_SER_TIMEOUTS (dj hF))))
    · assumption
  · exact heldR_next ‹_›
theorem held_holdLines {s reason} (hF : Dj F 0x810000) (hs : Held b0 F s) : Held b0 F (State.holdLines s reason) := by
  unfold State.holdLines
  refine foldl_ind (Q := Held b0 F) (fun s _ hs => ?_) ?_
  · refine ite_ind (Q := Held b0 F) (fun _ => ?_) (fun _ => ?_)
    · assumption
    · exact held_holdLine (dj hF) ‹_›
  · assumption
theorem held_cycleDone {s l} (hF : Dj F 0x2000000010001) (hs : Held b0 F s) : Held b0 F (State.cycleDone s l) := by
  unfold State.cycleDone
  extract_lets -merge -underBinder +onlyGivenNames us
  try clear_value us
  extract_lets -merge -underBinder +onlyGivenNames s
  have hs : Held b0 F s := held_wr (dj hF) ‹_› (off_SER_POLL_CYCLE (dj hF))
  try clear_value s
  refine held_modSer (dj hF) ?_
  refine ite_ind (Q := Held b0 F) (fun _ => ?_) (fun _ => ?_)
  · exact held_wr (dj hF) ‹_› (off_SER_POLL_CYCLE_MAX (dj hF))
  · assumption
theorem held_serialPoll {s l bad} (hF : Dj F 0x12001000a1000b) (hs : Held b0 F s) : Held b0 F (State.serialPoll s l bad) := by
  unfold State.serialPoll
  split
  · extract_lets -merge -underBinder +onlyGivenNames s
    have hs : Held b0 F s := by
      unfold s
      refine ite_ind (Q := Held b0 F) (fun _ => ?_) (fun _ => ?_)
      · exact held_cycleDone (dj hF) ‹_›
      · assumption
    try clear_value s
    split
    · extract_lets -merge -underBinder +onlyGivenNames ack
      try clear_value ack
      extract_lets -merge -underBinder +onlyGivenNames s
      have hs : Held b0 F s := held_send (dj hF) ‹_›
      try clear_value s
      extract_lets -merge -underBinder +onlyGivenNames s
      have hs : Held b0 F s := by
        unfold s
        refine ite_ind (Q := Held b0 F) (fun _ => ?_) (fun _ => ?_)
        · refine ite_ind (Q := Held b0 F) (fun _ => ?_) (fun _ => ?_)
          · assumption
          · exact held_modSer (dj hF) ‹_›
        · exact held_modNodeOf (dj hF) ‹_›
      try clear_value s
      extract_lets -merge -underBinder +onlyGivenNames s
      have hs : Held b0 F s := by
        unfold s
        split
        · exact held_modSer (dj hF) (held_modNodeOf (dj hF) ‹_›)
        · assumption
      try clear_value s
      refine ite_ind (Q := Held b0 F) (fun _ => ?_) (fun _ => ?_)
      · exact held_lineBad (dj hF) (held_inc (dj hF) ‹_› (off_SER_CONTENTIONS (dj hF)))
      · assumption
theorem held_serialReply {s l n b framing} (hF : Dj F 0x13141200ad802b) (hs : Held b0 F s) : Held b0 F (State.serialReply s l n b framing) := by
  unfold State.serialReply
  extract_lets -merge -underBinder +onlyGivenNames s
  have hs : Held b0 F s := held_modSer (dj hF) ‹_›
  try clear_value s
  refine ite_ind (Q := Held b0 F) (fun _ => ?_) (fun _ => ?_)
  · exact held_lineBad (dj hF) (held_inc (dj hF) ‹_› (off_SER_FRAMING_ERRORS (dj hF)))
  · refine ite_ind (Q := Held b0 F) (fun _ => ?_) (fun _ => ?_)
    · exact held_lineBad (dj hF) (held_inc (dj hF) ‹_› (off_SER_CRC_ERRORS (dj hF)))
    · refine ite_ind (Q := Held b0 F) (fun _ => ?_) (fun _ => ?_)
      · assumption
      · extract_lets -merge -underBinder +onlyGivenNames x
        try clear_value x
        extract_lets -merge -underBinder +onlyGivenNames acked
        try clear_value acked
        extract_lets -merge -underBinder +onlyGivenNames seq
        try clear_value seq
        extract_lets -merge -underBinder +onlyGivenNames msg
        try clear_value msg
        extract_lets -merge -underBinder +onlyGivenNames isNew
        try clear_value isNew
        extract_lets -merge -underBinder +onlyGivenNames s
        have hs : Held b0 F s := held_wr (dj hF) (held_inc (dj hF) ‹_› (off_SER_FRAMES_OK (dj hF))) (off_serState (dj hF))
        try clear_value s
        extract_lets -merge -underBinder +onlyGivenNames s
        have hs : Held b0 F s := held_modNodeOf (dj hF) ‹_›
        try clear_value s
        extract_lets -merge -underBinder +onlyGivenNames f
        try clear_value f
        refine held_showLine (dj hF) ?_
        split
        · refine ite_ind (Q := Held b0 F) (fun _ => ?_) (fun _ => ?_)
          · exact held_fixtureMsg (dj hF) ‹_›
          · assumption
        · assumption
theorem held_execSerialPoll {l bad s} (hF : Dj F 0x12001000a1000b) (hs : Held b0 F s) : HeldR b0 F (execSerialPoll l bad s) := by
  unfold execSerialPoll
  refine heldR_next ?_
  refine ite_ind (Q := Held b0 F) (fun _ => ?_) (fun _ => ?_)
  · exact held_serialPoll (dj hF) ‹_›
  · assumption
theorem held_execSerialReply {l data framing s} (hF : Dj F 0x13141200ad802b) (hs : Held b0 F s) : HeldR b0 F (execSerialReply l data framing s) := by
  unfold execSerialReply
  split
  · refine heldR_next ?_
    refine ite_ind (Q := Held b0 F) (fun _ => ?_) (fun _ => ?_)
    · exact held_serialReply (dj hF) ‹_›
    · assumption
  · exact heldR_next ‹_›

end Sys2Proof.Machine
end

