-- ==== Sys2Proof/Laws/KeptNet.lean ====
section
/-!
SUPPORT. The operations of Machine/Net.lean change only the parts that their masks name (Laws/Held.lean).
-/
namespace Sys2Proof.Machine
open Sys2Proof
set_option Elab.async false

variable {b0 : State} {F : Nat}

theorem held_ptpState {s st} (hF : Dj F 0x1400120020000b) (hs : Held b0 F s) : Held b0 F (State.ptpState s st) := by
  unfold State.ptpState
  extract_lets -merge -underBinder +onlyGivenNames s
  have hs : Held b0 F s := held_wr (dj hF) (held_wr (dj hF) ‹_› (off_PWR_PLANT_TIME_STATUS_STATE (dj hF))) (off_NET_PTP_STATUS_STATE (dj hF))
  try clear_value s
  exact held_flag (dj hF) (held_raise (dj hF) ‹_›) (off_NET_EVENT_STATUS_PTP_STATE (dj hF))
theorem held_linkChange {s p speed sfp sfpFault} (hF : Dj F 0x1400100020000b) (hs : Held b0 F s) : Held b0 F (State.linkChange s p speed sfp sfpFault) := by
  unfold State.linkChange
  extract_lets -merge -underBinder +onlyGivenNames f
  have hf : Off F f := off_NET_PORT_STATUS (dj hF)
  try clear_value f
  extract_lets -merge -underBinder +onlyGivenNames s
  have hs : Held b0 F s := held_wrB (dj hF) (held_wrB (dj hF) (held_wr (dj hF) ‹_› ‹_›) ‹_›) ‹_›
  try clear_value s
  extract_lets -merge -underBinder +onlyGivenNames s
  have hs : Held b0 F s := held_wrB (dj hF) (held_incSat (dj hF) ‹_› ‹_›) (off_NET_STATUS (dj hF))
  try clear_value s
  exact held_flag (dj hF) (held_raise (dj hF) ‹_›) (off_NET_EVENT_STATUS_LINK_CHANGE (dj hF))
theorem held_execPlantTimeHoldover {s} (hF : Dj F 0x1400120020000b) (hs : Held b0 F s) : HeldR b0 F (execPlantTimeHoldover s) := by
  unfold execPlantTimeHoldover
  refine heldR_next ?_
  refine ite_ind (Q := Held b0 F) (fun _ => ?_) (fun _ => ?_)
  · extract_lets -merge -underBinder +onlyGivenNames s
    have hs : Held b0 F s := by
      unfold s
      refine ite_ind (Q := Held b0 F) (fun _ => ?_) (fun _ => ?_)
      · exact held_wr (dj hF) ‹_› (off_NET_PTP_PORT_STATES (dj hF))
      · assumption
    try clear_value s
    exact held_ptpState (dj hF) (held_inc (dj hF) ‹_› (off_NET_PTP_LOCK_LOSSES (dj hF)))
  · assumption
theorem held_toGrid {s} (hF : Dj F 0x200000021) (hs : Held b0 F s) : Held b0 F (State.toGrid s) := by
  unfold State.toGrid
  exact held_wrS (dj hF) (held_mk_pwr (dj hF) ‹_›) (off_PWR_TICK_OFFSET (dj hF))
theorem held_ptpListen {s r} (hF : Dj F 0x4000000000001) (hs : Held b0 F s) : Held b0 F (State.ptpListen s r) := by
  unfold State.ptpListen
  extract_lets -merge -underBinder +onlyGivenNames late
  try clear_value late
  refine ite_ind (Q := Held b0 F) (fun _ => ?_) (fun _ => ?_)
  · refine foldl_ind (Q := Held b0 F) (fun s _ hs => ?_) ?_
    · exact held_wr (dj hF) ‹_› (off_NET_PTP_PORT_STATES (dj hF))
    · assumption
  · assumption
theorem held_mbReply {s p client pdu} (hF : Dj F 0x4000000800001) (hs : Held b0 F s) : Held b0 F (State.mbReply s p client pdu) := by
  unfold State.mbReply
  exact held_sendEth (dj hF) ‹_›
theorem held_stepTime {s toward} (hF : Dj F 0x1000920020082b) (hs : Held b0 F s) : Held b0 F (State.stepTime s toward) := by
  unfold State.stepTime
  extract_lets -merge -underBinder +onlyGivenNames back
  try clear_value back
  extract_lets -merge -underBinder +onlyGivenNames s
  have hs : Held b0 F s := held_wrB (dj hF) (held_wr64 (dj hF) ‹_› (off_PWR_PLANT_TIME_LO (dj hF))) (off_PWR_PLANT_TIME_STATUS_STEPPED (dj hF))
  try clear_value s
  extract_lets -merge -underBinder +onlyGivenNames s
  have hs : Held b0 F s := by
    unfold s
    refine ite_ind (Q := Held b0 F) (fun _ => ?_) (fun _ => ?_)
    · exact held_wrB (dj hF) ‹_› (off_PWR_PLANT_TIME_STATUS_BACKWARD_STEP (dj hF))
    · assumption
  try clear_value s
  extract_lets -merge -underBinder +onlyGivenNames zz0 s
  have hs : Held b0 F s := held_mk_pwr (dj hF) ‹_›
  try clear_value s
  extract_lets -merge -underBinder +onlyGivenNames s
  have hs : Held b0 F s := held_wrS (dj hF) (held_wrB (dj hF) ‹_› (off_PWR_PLANT_TIME_STATUS_SLEWING (dj hF))) (off_PWR_PLANT_TIME_SLEW (dj hF))
  try clear_value s
  exact held_toGrid (dj hF) (held_billStep (dj hF) (held_flag (dj hF) ‹_› (off_PWR_EVENT_STATUS_PLANT_TIME_STEP (dj hF))))
theorem held_execEthLinkChange {p speed sfp sfpFault s} (hF : Dj F 0x1400100020000b) (hs : Held b0 F s) : HeldR b0 F (execEthLinkChange p speed sfp sfpFault s) := by
  unfold execEthLinkChange
  refine heldR_next ?_
  refine ite_ind (Q := Held b0 F) (fun _ => ?_) (fun _ => ?_)
  · exact held_linkChange (dj hF) ‹_›
  · assumption
theorem held_servo {s offset} (hF : Dj F 0x1000920020082b) (hs : Held b0 F s) : Held b0 F (State.servo s offset) := by
  unfold State.servo
  refine ite_ind (Q := Held b0 F) (fun _ => ?_) (fun _ => ?_)
  · assumption
  · refine ite_ind (Q := Held b0 F) (fun _ => ?_) (fun _ => ?_)
    · extract_lets -merge -underBinder +onlyGivenNames zz0 s
      have hs : Held b0 F s := held_mk_pwr (dj hF) ‹_›
      try clear_value s
      exact held_wrS (dj hF) (held_wrB (dj hF) ‹_› (off_PWR_PLANT_TIME_STATUS_SLEWING (dj hF))) (off_PWR_PLANT_TIME_SLEW (dj hF))
    · exact held_stepTime (dj hF) ‹_›
theorem held_writeLimit {s f v} (hF : Dj F 0x1) (hs : Held b0 F s) (hf : Off F f) : Held b0 F (State.writeLimit s f v) := by
  unfold State.writeLimit
  refine ite_ind (Q := Held b0 F) (fun _ => ?_) (fun _ => ?_)
  · exact held_wr (dj hF) ‹_› ‹_›
  · exact held_wr (dj hF) ‹_› ‹_›
theorem held_execPrpLanTimeout {lan s} (hF : Dj F 0x1400100020000b) (hs : Held b0 F s) : HeldR b0 F (execPrpLanTimeout lan s) := by
  unfold execPrpLanTimeout
  refine heldR_next ?_
  refine ite_ind (Q := Held b0 F) (fun _ => ?_) (fun _ => ?_)
  · exact held_flag (dj hF) (held_raise (dj hF) (held_wrB (dj hF) ‹_› (off_NET_PRP_STATUS (dj hF)))) (off_NET_EVENT_STATUS_PRP_LAN_FAULT (dj hF))
  · assumption
theorem held_modbusConn {s p opens} (hF : Dj F 0x4000000800001) (hs : Held b0 F s) : Held b0 F (State.modbusConn s p opens) := by
  unfold State.modbusConn
  extract_lets -merge -underBinder +onlyGivenNames f
  have hf : Off F f := off_NET_MODBUS_STATUS (dj hF)
  try clear_value f
  extract_lets -merge -underBinder +onlyGivenNames most
  try clear_value most
  refine ite_ind (Q := Held b0 F) (fun _ => ?_) (fun _ => ?_)
  · refine ite_ind (Q := Held b0 F) (fun _ => ?_) (fun _ => ?_)
    · exact held_wr (dj hF) ‹_› ‹_›
    · exact held_send (dj hF) ‹_›
  · exact held_wr (dj hF) ‹_› ‹_›
theorem held_execNetClearCounters {sess key s} (hF : Dj F 0x4000000000001) (hs : Held b0 F s) : HeldR b0 F (execNetClearCounters sess key s) := by
  unfold execNetClearCounters
  exact heldR_next (ite_ind (Q := Held b0 F) (fun _ => held_clearAt 18 (dj hF) (dj hF) (by decide) (by decide) hs) (fun _ => hs))
theorem held_modNet {s f} (hF : Dj F 0x400000) (hs : Held b0 F s) : Held b0 F (State.modNet s f) := by
  unfold State.modNet
  exact held_mk_net (dj hF) ‹_›
theorem held_mbException {s p client fn code} (hF : Dj F 0x4000000800001) (hs : Held b0 F s) : Held b0 F (State.mbException s p client fn code) := by
  unfold State.mbException
  exact held_mbReply (dj hF) (held_inc (dj hF) ‹_› (off_NET_MODBUS_EXCEPTIONS (dj hF)))
theorem held_heardOn {s p} (hF : Dj F 0x4000000000001) (hs : Held b0 F s) : Held b0 F (State.heardOn s p) := by
  unfold State.heardOn
  extract_lets -merge -underBinder +onlyGivenNames s
  have hs : Held b0 F s := by
    unfold s
    refine ite_ind (Q := Held b0 F) (fun _ => ?_) (fun _ => ?_)
    · exact held_inc (dj hF) ‹_› (off_NET_PORT_RX_FRAMES (dj hF))
    · assumption
  try clear_value s
  refine ite_ind (Q := Held b0 F) (fun _ => ?_) (fun _ => ?_)
  · exact held_wrB (dj hF) ‹_› (off_NET_PRP_STATUS (dj hF))
  · assumption
theorem held_modbusWrites {s p client pdu} (hF : Dj F 0x14009000a0080b) (hs : Held b0 F s) : Held b0 F (State.modbusWrites s p client pdu) := by
  unfold State.modbusWrites
  extract_lets -merge -underBinder +onlyGivenNames s
  have hs : Held b0 F s := held_inc (dj hF) (held_heardOn (dj hF) ‹_›) (off_NET_MODBUS_REQUESTS (dj hF))
  try clear_value s
  extract_lets -merge -underBinder +onlyGivenNames fn
  try clear_value fn
  extract_lets -merge -underBinder +onlyGivenNames a
  try clear_value a
  extract_lets -merge -underBinder +onlyGivenNames n
  try clear_value n
  refine ite_ind (Q := Held b0 F) (fun _ => ?_) (fun _ => ?_)
  · exact held_mbException (dj hF) ‹_›
  · refine ite_ind (Q := Held b0 F) (fun _ => ?_) (fun _ => ?_)
    · exact held_mbException (dj hF) ‹_›
    · refine ite_ind (Q := Held b0 F) (fun _ => ?_) (fun _ => ?_)
      · exact held_mbException (dj hF) ‹_›
      · extract_lets -merge -underBinder +onlyGivenNames s
        have hs : Held b0 F s := by
          unfold s
          refine foldl_ind (Q := Held b0 F) (fun s _ hs => ?_) ?_
          · exact held_writeLimit (dj hF) ‹_› (off_ite (off_PLT_HOST_EXPORT_MAX (dj hF)) (off_PLT_HOST_IMPORT_MAX (dj hF)))
          · assumption
        try clear_value s
        extract_lets -merge -underBinder +onlyGivenNames zz0 s
        have hs : Held b0 F s := held_mk_disp (dj hF) ‹_›
        try clear_value s
        extract_lets -merge -underBinder +onlyGivenNames s
        have hs : Held b0 F s := held_flag (dj hF) (held_raise (dj hF) ‹_›) (off_NET_EVENT_STATUS_MODBUS_WRITE (dj hF))
        try clear_value s
        exact held_mbReply (dj hF) ‹_›
theorem held_execPrpSupervision {s} (hF : Dj F 0x4000000c00001) (hs : Held b0 F s) : HeldR b0 F (execPrpSupervision s) := by
  unfold execPrpSupervision
  refine heldR_next ?_
  refine ite_ind (Q := Held b0 F) (fun _ => ?_) (fun _ => ?_)
  · exact held_modNet (dj hF) (held_sendEth (dj hF) (held_sendEth (dj hF) ‹_›))
  · assumption
theorem held_execModbusConnection {p opens s} (hF : Dj F 0x4000000800001) (hs : Held b0 F s) : HeldR b0 F (execModbusConnection p opens s) := by
  unfold execModbusConnection
  refine heldR_next ?_
  refine ite_ind (Q := Held b0 F) (fun _ => ?_) (fun _ => ?_)
  · exact held_modbusConn (dj hF) ‹_›
  · assumption
theorem held_ptpSend {s kind p msg} (hF : Dj F 0x4000000c00001) (hs : Held b0 F s) : Held b0 F (State.ptpSend s kind p msg) := by
  unfold State.ptpSend
  extract_lets -merge -underBinder +onlyGivenNames q
  try clear_value q
  exact held_modNet (dj hF) (held_sendEth (dj hF) ‹_›)
theorem held_execPtpDelayReq {p who seq s} (hF : Dj F 0x4000000800001) (hs : Held b0 F s) : HeldR b0 F (execPtpDelayReq p who seq s) := by
  unfold execPtpDelayReq
  refine heldR_next ?_
  refine ite_ind (Q := Held b0 F) (fun _ => ?_) (fun _ => ?_)
  · exact held_sendEth (dj hF) (held_inc (dj hF) (held_heardOn (dj hF) ‹_›) (off_NET_PTP_DELAY_REQ_RX (dj hF)))
  · assumption
theorem held_syncOut {s p} (hF : Dj F 0x4000000c00001) (hs : Held b0 F s) : Held b0 F (State.syncOut s p) := by
  unfold State.syncOut
  extract_lets -merge -underBinder +onlyGivenNames q
  try clear_value q
  extract_lets -merge -underBinder +onlyGivenNames s
  have hs : Held b0 F s := held_sendEth (dj hF) (held_sendEth (dj hF) ‹_›)
  try clear_value s
  exact held_modNet (dj hF) ‹_›
theorem held_syncIn {s p offset delay} (hF : Dj F 0x1400920020082b) (hs : Held b0 F s) : Held b0 F (State.syncIn s p offset delay) := by
  unfold State.syncIn
  extract_lets -merge -underBinder +onlyGivenNames s
  have hs : Held b0 F s := held_inc (dj hF) (held_heardOn (dj hF) ‹_›) (off_NET_PTP_SYNC_RX (dj hF))
  try clear_value s
  refine ite_ind (Q := Held b0 F) (fun _ => ?_) (fun _ => ?_)
  · extract_lets -merge -underBinder +onlyGivenNames s
    have hs : Held b0 F s := held_wrS (dj hF) (held_wrS (dj hF) ‹_› (off_NET_PTP_OFFSET (dj hF))) (off_NET_PTP_MEAN_DELAY (dj hF))
    try clear_value s
    extract_lets -merge -underBinder +onlyGivenNames st
    try clear_value st
    extract_lets -merge -underBinder +onlyGivenNames s
    have hs : Held b0 F s := by
      unfold s
      refine ite_ind (Q := Held b0 F) (fun _ => ?_) (fun _ => ?_)
      · exact held_wr (dj hF) ‹_› (off_NET_PTP_OFFSET_MAX (dj hF))
      · assumption
    try clear_value s
    refine ite_ind (Q := Held b0 F) (fun _ => ?_) (fun _ => ?_)
    · assumption
    · exact held_servo (dj hF) ‹_›
  · assumption
theorem held_timeLocks {s time} (hF : Dj F 0x1400920020082b) (hs : Held b0 F s) : Held b0 F (State.timeLocks s time) := by
  unfold State.timeLocks
  extract_lets -merge -underBinder +onlyGivenNames st
  try clear_value st
  extract_lets -merge -underBinder +onlyGivenNames s
  have hs : Held b0 F s := by
    unfold s
    refine ite_ind (Q := Held b0 F) (fun _ => ?_) (fun _ => ?_)
    · exact held_wr (dj hF) ‹_› (off_NET_PTP_PORT_STATES (dj hF))
    · assumption
  try clear_value s
  refine ite_ind (Q := Held b0 F) (fun _ => ?_) (fun _ => ?_)
  · exact held_toGrid (dj hF) (held_billLocked (dj hF) (held_ptpState (dj hF) (held_wr64 (dj hF) ‹_› (off_PWR_PLANT_TIME_LO (dj hF)))))
  · exact held_ptpState (dj hF) (held_servo (dj hF) ‹_›)
theorem held_execAddressConflict {p s} (hF : Dj F 0x1400100020000b) (hs : Held b0 F s) : HeldR b0 F (execAddressConflict p s) := by
  unfold execAddressConflict
  refine heldR_next ?_
  refine ite_ind (Q := Held b0 F) (fun _ => ?_) (fun _ => ?_)
  · exact held_flag (dj hF) (held_raise (dj hF) (held_inc (dj hF) (held_heardOn (dj hF) ‹_›) (off_NET_ARP_CONFLICTS (dj hF)))) (off_NET_EVENT_STATUS_ADDRESS_CONFLICT (dj hF))
  · assumption
theorem held_noParent {s} (hF : Dj F 0x4000000400001) (hs : Held b0 F s) : Held b0 F (State.noParent s) := by
  unfold State.noParent
  extract_lets -merge -underBinder +onlyGivenNames s
  have hs : Held b0 F s := held_wr (dj hF) (held_modNet (dj hF) ‹_›) (off_NET_PTP_STATUS_PARENT_PORT (dj hF))
  try clear_value s
  exact held_wr (dj hF) (held_wr64 (dj hF) ‹_› (off_NET_PTP_GM_ID_LO (dj hF))) (off_NET_PTP_GM_QUALITY (dj hF))
theorem held_execPlantTimeLock {time s} (hF : Dj F 0x1400920020082b) (hs : Held b0 F s) : HeldR b0 F (execPlantTimeLock time s) := by
  unfold execPlantTimeLock
  refine heldR_next ?_
  refine ite_ind (Q := Held b0 F) (fun _ => ?_) (fun _ => ?_)
  · exact held_timeLocks (dj hF) ‹_›
  · assumption
theorem held_modbusServe {s p client pdu} (hF : Dj F 0x400c000800001) (hs : Held b0 F s) : Held b0 F (State.modbusServe s p client pdu) := by
  unfold State.modbusServe
  extract_lets -merge -underBinder +onlyGivenNames s
  have hs : Held b0 F s := held_inc (dj hF) (held_heardOn (dj hF) ‹_›) (off_NET_MODBUS_REQUESTS (dj hF))
  try clear_value s
  extract_lets -merge -underBinder +onlyGivenNames fn
  try clear_value fn
  refine ite_ind (Q := Held b0 F) (fun _ => ?_) (fun _ => ?_)
  · extract_lets -merge -underBinder +onlyGivenNames a
    try clear_value a
    extract_lets -merge -underBinder +onlyGivenNames n
    try clear_value n
    refine ite_ind (Q := Held b0 F) (fun _ => ?_) (fun _ => ?_)
    · exact held_mbException (dj hF) ‹_›
    · refine ite_ind (Q := Held b0 F) (fun _ => ?_) (fun _ => ?_)
      · exact held_mbException (dj hF) ‹_›
      · extract_lets -merge -underBinder +onlyGivenNames l
        try clear_value l
        exact held_mbReply (dj hF) ‹_›
  · refine ite_ind (Q := Held b0 F) (fun _ => ?_) (fun _ => ?_)
    · exact held_mbReply (dj hF) ‹_›
    · exact held_mbException (dj hF) ‹_›
theorem held_modbusRefresh {s} (hF : Dj F 0xc000400000) (hs : Held b0 F s) : Held b0 F (State.modbusRefresh s) := by
  unfold State.modbusRefresh
  exact held_modNet (dj hF) ‹_›
theorem held_execPtpSyncSend {p s} (hF : Dj F 0x4000000c00001) (hs : Held b0 F s) : HeldR b0 F (execPtpSyncSend p s) := by
  unfold execPtpSyncSend
  refine heldR_next ?_
  refine ite_ind (Q := Held b0 F) (fun _ => ?_) (fun _ => ?_)
  · exact held_syncOut (dj hF) ‹_›
  · assumption
theorem held_announceOut {s p} (hF : Dj F 0x4000000c00001) (hs : Held b0 F s) : Held b0 F (State.announceOut s p) := by
  unfold State.announceOut
  extract_lets -merge -underBinder +onlyGivenNames d
  try clear_value d
  extract_lets -merge -underBinder +onlyGivenNames g
  try clear_value g
  exact held_ptpSend (dj hF) ‹_›
theorem held_execPtpSyncReceived {p offset delay s} (hF : Dj F 0x1400920020082b) (hs : Held b0 F s) : HeldR b0 F (execPtpSyncReceived p offset delay s) := by
  unfold execPtpSyncReceived
  refine heldR_next ?_
  refine ite_ind (Q := Held b0 F) (fun _ => ?_) (fun _ => ?_)
  · exact held_syncIn (dj hF) ‹_›
  · assumption
theorem held_announce {s p d} (hF : Dj F 0x4000000400001) (hs : Held b0 F s) : Held b0 F (State.announce s p d) := by
  unfold State.announce
  extract_lets -merge -underBinder +onlyGivenNames s
  have hs : Held b0 F s := held_inc (dj hF) (held_heardOn (dj hF) ‹_›) (off_NET_PTP_ANNOUNCE_RX (dj hF))
  try clear_value s
  extract_lets -merge -underBinder +onlyGivenNames ident
  try clear_value ident
  extract_lets -merge -underBinder +onlyGivenNames same
  try clear_value same
  extract_lets -merge -underBinder +onlyGivenNames better
  try clear_value better
  refine ite_ind (Q := Held b0 F) (fun _ => ?_) (fun _ => ?_)
  · extract_lets -merge -underBinder +onlyGivenNames s
    have hs : Held b0 F s := held_wr (dj hF) (held_modNet (dj hF) ‹_›) (off_NET_PTP_STATUS_PARENT_PORT (dj hF))
    try clear_value s
    extract_lets -merge -underBinder +onlyGivenNames s
    have hs : Held b0 F s := held_wr (dj hF) (held_wr64 (dj hF) ‹_› (off_NET_PTP_GM_ID_LO (dj hF))) (off_NET_PTP_GM_QUALITY (dj hF))
    try clear_value s
    extract_lets -merge -underBinder +onlyGivenNames s
    have hs : Held b0 F s := by
      unfold s
      refine ite_ind (Q := Held b0 F) (fun _ => ?_) (fun _ => ?_)
      · assumption
      · exact held_wr (dj hF) ‹_› (off_NET_PTP_PORT_STATES (dj hF))
    try clear_value s
    refine ite_ind (Q := Held b0 F) (fun _ => ?_) (fun _ => ?_)
    · assumption
    · exact held_wr (dj hF) ‹_› (off_NET_PTP_PORT_STATES (dj hF))
  · refine ite_ind (Q := Held b0 F) (fun _ => ?_) (fun _ => ?_)
    · exact held_wr (dj hF) (held_noParent (dj hF) ‹_›) (off_NET_PTP_PORT_STATES (dj hF))
    · assumption
theorem held_execUnservedFrame {p s} (hF : Dj F 0x4000000000001) (hs : Held b0 F s) : HeldR b0 F (execUnservedFrame p s) := by
  unfold execUnservedFrame
  refine heldR_next ?_
  refine ite_ind (Q := Held b0 F) (fun _ => ?_) (fun _ => ?_)
  · exact held_inc (dj hF) (held_heardOn (dj hF) ‹_›) (off_NET_DROPPED_UNSERVED (dj hF))
  · assumption
theorem held_execModbusWrite {p client pdu s} (hF : Dj F 0x14009000a0080b) (hs : Held b0 F s) : HeldR b0 F (execModbusWrite p client pdu s) := by
  unfold execModbusWrite
  refine heldR_next ?_
  refine ite_ind (Q := Held b0 F) (fun _ => ?_) (fun _ => ?_)
  · exact held_modbusWrites (dj hF) ‹_›
  · assumption
theorem held_ptpTick {s} (hF : Dj F 0x4000000c00001) (hs : Held b0 F s) : Held b0 F (State.ptpTick s) := by
  unfold State.ptpTick
  split
  · assumption
  · extract_lets -merge -underBinder +onlyGivenNames s
    have hs : Held b0 F s := held_ptpListen (dj hF) ‹_›
    try clear_value s
    extract_lets -merge -underBinder +onlyGivenNames s
    have hs : Held b0 F s := by
      unfold s
      refine ite_ind (Q := Held b0 F) (fun _ => ?_) (fun _ => ?_)
      · refine foldl_ind (Q := Held b0 F) (fun _ _ hs => ?_) ?_
        · exact held_announceOut (dj hF) ‹_›
        · assumption
      · assumption
    try clear_value s
    refine ite_ind (Q := Held b0 F) (fun _ => ?_) (fun _ => ?_)
    · exact held_ptpSend (dj hF) ‹_›
    · assumption
theorem held_execModbusRequest {p client pdu s} (hF : Dj F 0x400c000800001) (hs : Held b0 F s) : HeldR b0 F (execModbusRequest p client pdu s) := by
  unfold execModbusRequest
  refine heldR_next ?_
  refine ite_ind (Q := Held b0 F) (fun _ => ?_) (fun _ => ?_)
  · exact held_modbusServe (dj hF) ‹_›
  · assumption
theorem held_execPtpAnnounceReceived {p domain prio1 cls acc var prio2 ident steps s} (hF : Dj F 0x4000000400001) (hs : Held b0 F s) : HeldR b0 F (execPtpAnnounceReceived p domain prio1 cls acc var prio2 ident steps s) := by
  unfold execPtpAnnounceReceived
  refine heldR_next ?_
  refine ite_ind (Q := Held b0 F) (fun _ => ?_) (fun _ => ?_)
  · exact held_announce (dj hF) ‹_›
  · assumption

end Sys2Proof.Machine
end

