-- ==== Sys2Proof/Laws/KeptSecOps.lean ====
section
/-!
SUPPORT. The operations of Machine/SecOps.lean change only the parts that their masks name (Laws/Held.lean).
-/
namespace Sys2Proof.Machine
open Sys2Proof
set_option Elab.async false

variable {b0 : State} {F : Nat}

theorem held_holdAll {s reason} (hF : Dj F 0x4000000818901) (hs : Held b0 F s) : Held b0 F (State.holdAll s reason) := by
  unfold State.holdAll
  refine held_holdLines (dj hF) ?_
  refine foldl_ind (Q := Held b0 F) (fun s _ hs => ?_) ?_
  · exact held_canHold (dj hF) ‹_›
  · exact held_holdPcs (dj hF) (held_holdRings (dj hF) ‹_›)
theorem held_modSec {s f} (hF : Dj F 0x80) (hs : Held b0 F s) : Held b0 F (State.modSec s f) := by
  unfold State.modSec
  exact held_mk_sec (dj hF) ‹_›
theorem held_modNv {s f} (hF : Dj F 0x2) (hs : Held b0 F s) : Held b0 F (State.modNv s f) := by
  unfold State.modNv
  exact held_mk_nv (dj hF) ‹_›
theorem held_modRec {s f} (hF : Dj F 0x40) (hs : Held b0 F s) : Held b0 F (State.modRec s f) := by
  unfold State.modRec
  exact held_mk_recu (dj hF) ‹_›
theorem held_showKey {s slot typ otp} (hF : Dj F 0x400000001) (hs : Held b0 F s) : Held b0 F (State.showKey s slot typ otp) := by
  unfold State.showKey
  extract_lets -merge -underBinder +onlyGivenNames k
  try clear_value k
  exact held_wr (dj hF) ‹_› (off_SEC_KEY_STATUS (dj hF))
theorem held_putKey {s slot curve k} (hF : Dj F 0x400000003) (hs : Held b0 F s) : Held b0 F (State.putKey s slot curve k) := by
  unfold State.putKey
  exact held_showKey (dj hF) (held_modNv (dj hF) ‹_›)
theorem held_secEvent {s e data} (hF : Dj F 0x1000140020000b) (hs : Held b0 F s) : Held b0 F (State.secEvent s e data) := by
  unfold State.secEvent
  exact held_flag (dj hF) (held_raise (dj hF) ‹_›) (off_SEC_EVENT_STATUS (dj hF))
theorem held_showCores {s} (hF : Dj F 0x20000000000001) (hs : Held b0 F s) : Held b0 F (State.showCores s) := by
  unfold State.showCores
  extract_lets -merge -underBinder +onlyGivenNames good
  try clear_value good
  extract_lets -merge -underBinder +onlyGivenNames run
  try clear_value run
  extract_lets -merge -underBinder +onlyGivenNames s
  have hs : Held b0 F s := by
    unfold s
    refine foldl_ind (Q := Held b0 F) (fun s _ hs => ?_) ?_
    · exact held_wr (dj hF) ‹_› (off_DBG_CORE_STATUS (dj hF))
    · assumption
  try clear_value s
  exact held_wrB (dj hF) ‹_› (off_DBG_STATUS (dj hF))
theorem held_debugClose {s} (hF : Dj F 0x3000140020008b) (hs : Held b0 F s) : Held b0 F (State.debugClose s) := by
  unfold State.debugClose
  refine ite_ind (Q := Held b0 F) (fun _ => ?_) (fun _ => ?_)
  · extract_lets -merge -underBinder +onlyGivenNames s
    have hs : Held b0 F s := held_modSec (dj hF) ‹_›
    try clear_value s
    extract_lets -merge -underBinder +onlyGivenNames s
    have hs : Held b0 F s := held_wrB (dj hF) (held_wr (dj hF) (held_wr (dj hF) ‹_› (off_SEC_DEBUG_STATUS (dj hF))) (off_SEC_TOKEN_EXPIRY (dj hF))) (off_SEC_STATUS (dj hF))
    try clear_value s
    extract_lets -merge -underBinder +onlyGivenNames s
    have hs : Held b0 F s := held_wr (dj hF) (held_wr (dj hF) (held_wr (dj hF) (held_wr (dj hF) (held_wr (dj hF) ‹_› (off_DBG_HALT_REQUEST (dj hF))) (off_DBG_HALT_STATUS (dj hF))) (off_DBG_HALT_DEFERRED (dj hF))) (off_DBG_BREAK_ENABLE (dj hF))) (off_DBG_STATUS (dj hF))
    try clear_value s
    exact held_secEvent (dj hF) (held_showCores (dj hF) ‹_›)
  · assumption
theorem held_emptySlots {s} (hF : Dj F 0x800000003) (hs : Held b0 F s) : Held b0 F (State.emptySlots s) := by
  unfold State.emptySlots
  refine foldl_ind (Q := Held b0 F) (fun s _ hs => ?_) ?_
  · exact held_wr (dj hF) (held_wr (dj hF) (held_wr (dj hF) (held_wr (dj hF) (held_wr (dj hF) ‹_› (off_MAN_SLOT_STATE (dj hF))) (off_MAN_SLOT_GEN (dj hF))) (off_MAN_SLOT_EPOCH (dj hF))) (off_MAN_SLOT_LENGTH (dj hF))) (off_MAN_SLOT_SAFETY (dj hF))
  · exact held_modNv (dj hF) ‹_›
theorem held_outputsOff {s} (hF : Dj F 0x400000000001) (hs : Held b0 F s) : Held b0 F (State.outputsOff s) := by
  unfold State.outputsOff
  exact held_wr (dj hF) (held_wr (dj hF) (held_wr (dj hF) (held_wr (dj hF) ‹_› (off_SAF_REQUEST (dj hF))) (off_SAF_OUTPUT_STATE (dj hF))) (off_SAF_PERMIT_PROC (dj hF))) (off_SAF_PERMIT_HW (dj hF))
theorem held_lifeTo {s st} (hF : Dj F 0x3000150020008b) (hs : Held b0 F s) : Held b0 F (State.lifeTo s st) := by
  unfold State.lifeTo
  extract_lets -merge -underBinder +onlyGivenNames s
  have hs : Held b0 F s := by
    unfold s
    refine ite_ind (Q := Held b0 F) (fun _ => ?_) (fun _ => ?_)
    · refine foldl_ind (Q := Held b0 F) (fun s _ hs => ?_) ?_
      · exact held_wr (dj hF) ‹_› (off_SYS_SITE_TAG (dj hF))
      · exact held_modNv (dj hF) ‹_›
    · assumption
  try clear_value s
  exact held_secEvent (dj hF) (held_wr (dj hF) (held_wr (dj hF) (held_debugClose (dj hF) ‹_›) (off_SEC_LIFECYCLE_FUSES (dj hF))) (off_SEC_LIFECYCLE_STATE (dj hF)))
theorem held_zeroCkpts {s} (hF : Dj F 0x4000000003) (hs : Held b0 F s) : Held b0 F (State.zeroCkpts s) := by
  unfold State.zeroCkpts
  exact held_showCkpt (dj hF) (held_modNv (dj hF) ‹_›)
theorem held_trace {s kind src data} (hF : Dj F 0x10000000000041) (hs : Held b0 F s) : Held b0 F (State.trace s kind src data) := by
  unfold State.trace
  extract_lets -merge -underBinder +onlyGivenNames len
  try clear_value len
  extract_lets -merge -underBinder +onlyGivenNames q
  try clear_value q
  extract_lets -merge -underBinder +onlyGivenNames total
  try clear_value total
  extract_lets -merge -underBinder +onlyGivenNames wraps
  try clear_value wraps
  extract_lets -merge -underBinder +onlyGivenNames s
  have hs : Held b0 F s := held_modRec (dj hF) ‹_›
  try clear_value s
  refine ite_ind (Q := Held b0 F) (fun _ => ?_) (fun _ => ?_)
  · exact held_wrB (dj hF) (held_inc (dj hF) ‹_› (off_REC_TRACE_WRAPS (dj hF))) (off_REC_TRACE_STATUS_WRAPPED (dj hF))
  · assumption
theorem held_traceDown {s dom st} (hF : Dj F 0x10000000000041) (hs : Held b0 F s) : Held b0 F (State.traceDown s dom st) := by
  unfold State.traceDown
  refine foldl_ind (Q := Held b0 F) (fun s _ hs => ?_) ?_
  · exact held_trace (dj hF) ‹_›
  · assumption
theorem held_traceSync {s src} (hF : Dj F 0x10000000000041) (hs : Held b0 F s) : Held b0 F (State.traceSync s src) := by
  unfold State.traceSync
  exact held_trace (dj hF) ‹_›
theorem held_traceUp {s dom} (hF : Dj F 0x10000000000041) (hs : Held b0 F s) : Held b0 F (State.traceUp s dom) := by
  unfold State.traceUp
  refine foldl_ind (Q := Held b0 F) (fun s _ hs => ?_) ?_
  · exact held_traceSync (dj hF) (held_trace (dj hF) ‹_›)
  · assumption

end Sys2Proof.Machine
end

