-- ==== Sys2Proof/Laws/KeptRec.lean ====
section
/-!
SUPPORT. The operations of Machine/Rec.lean change only the parts that their masks name (Laws/Held.lean).
-/
namespace Sys2Proof.Machine
open Sys2Proof
set_option Elab.async false

variable {b0 : State} {F : Nat}

theorem held_appendCkpt {s} (hF : Dj F 0x2) (hs : Held b0 F s) : Held b0 F (State.appendCkpt s) := by
  unfold State.appendCkpt
  exact held_modNv (dj hF) ‹_›
theorem held_execTraceSync {s} (hF : Dj F 0x10000000000041) (hs : Held b0 F s) : HeldR b0 F (execTraceSync s) := by
  unfold execTraceSync
  refine heldR_next ?_
  refine ite_ind (Q := Held b0 F) (fun _ => ?_) (fun _ => ?_)
  · refine foldl_ind (Q := Held b0 F) (fun _ _ hs => ?_) ?_
    · exact held_traceSync (dj hF) ‹_›
    · assumption
  · assumption
theorem held_exportEnd {s} (hF : Dj F 0x10000000000041) (hs : Held b0 F s) : Held b0 F (State.exportEnd s) := by
  unfold State.exportEnd
  exact held_wrB (dj hF) (held_wrB (dj hF) (held_modRec (dj hF) ‹_›) (off_REC_EXPORT_STATUS_RUNNING (dj hF))) (off_REC_EXPORT_STATUS_PAUSED (dj hF))
theorem held_ledgerClear {s reason serial} (hF : Dj F 0x10000000000003) (hs : Held b0 F s) : Held b0 F (State.ledgerClear s reason serial) := by
  unfold State.ledgerClear
  extract_lets -merge -underBinder +onlyGivenNames e
  try clear_value e
  extract_lets -merge -underBinder +onlyGivenNames s
  have hs : Held b0 F s := held_modNv (dj hF) ‹_›
  try clear_value s
  extract_lets -merge -underBinder +onlyGivenNames s
  have hs : Held b0 F s := held_wr (dj hF) (held_wr (dj hF) (held_wr (dj hF) (held_wr (dj hF) (held_inc (dj hF) ‹_› (off_REC_LEDGER_COUNT (dj hF))) (off_REC_USED (dj hF))) (off_REC_RECORDS (dj hF))) (off_REC_LOST (dj hF))) (off_REC_TORN (dj hF))
  try clear_value s
  extract_lets -merge -underBinder +onlyGivenNames s
  have hs : Held b0 F s := held_wrB (dj hF) (held_wrB (dj hF) (held_wr (dj hF) ‹_› (off_REC_RESERVE_USED (dj hF))) (off_REC_STATUS_HIGH (dj hF))) (off_REC_STATUS_FULL (dj hF))
  try clear_value s
  exact held_wrB (dj hF) ‹_› (off_REC_STATUS_RESERVE_IN_USE (dj hF))
theorem held_returnCancel {s} (hF : Dj F 0x10000000000041) (hs : Held b0 F s) : Held b0 F (State.returnCancel s) := by
  unfold State.returnCancel
  refine ite_ind (Q := Held b0 F) (fun _ => ?_) (fun _ => ?_)
  · exact held_wr (dj hF) (held_modRec (dj hF) ‹_›) (off_REC_RETURN_STATUS (dj hF))
  · assumption
theorem held_returned {s choice serial} (hF : Dj F 0x34405d01a1c9cb) (hs : Held b0 F s) : Held b0 F (State.returned s choice serial) := by
  unfold State.returned
  extract_lets -merge -underBinder +onlyGivenNames s
  have hs : Held b0 F s := held_wr (dj hF) ‹_› (off_REC_RETURN_STATUS_STATE (dj hF))
  try clear_value s
  extract_lets -merge -underBinder +onlyGivenNames s
  have hs : Held b0 F s := by
    unfold s
    refine held_holdAll (dj hF) ?_
    refine held_wrB (dj hF) ?_ ?_
    · refine held_outputsOff (dj hF) ?_
      refine foldl_ind (Q := Held b0 F) (fun _ _ hs => ?_) ?_
      · exact held_endRequests (dj hF) ‹_›
      · assumption
    · exact off_SAF_STATUS_RUNNING (dj hF)
  try clear_value s
  extract_lets -merge -underBinder +onlyGivenNames s
  have hs : Held b0 F s := by
    unfold s
    refine foldl_ind (Q := Held b0 F) (fun s _ hs => ?_) ?_
    · exact held_showKey (dj hF) (held_modNv (dj hF) ‹_›)
    · assumption
  try clear_value s
  extract_lets -merge -underBinder +onlyGivenNames s
  have hs : Held b0 F s := held_modNv (dj hF) (held_emptySlots (dj hF) (held_zeroCkpts (dj hF) ‹_›))
  try clear_value s
  extract_lets -merge -underBinder +onlyGivenNames s
  have hs : Held b0 F s := held_modRec (dj hF) ‹_›
  try clear_value s
  refine ite_ind (Q := Held b0 F) (fun _ => ?_) (fun _ => ?_)
  · exact held_lifeTo (dj hF) (held_wrB (dj hF) (held_ledgerClear (dj hF) ‹_›) (off_REC_STATUS_ZEROING (dj hF)))
  · exact held_wrB (dj hF) (held_lifeTo (dj hF) ‹_›) (off_REC_STATUS_READ_ONLY (dj hF))
theorem held_clearLog {q c s} (hF : Dj F 0x800068) (hs : Held b0 F s) : Held b0 F (State.clearLog q c s) := by
  unfold State.clearLog
  refine ite_ind (Q := Held b0 F) (fun _ => ?_) (fun _ => ?_)
  · exact held_complete (dj hF) ‹_›
  · refine ite_ind (Q := Held b0 F) (fun _ => ?_) (fun _ => ?_)
    · exact held_complete (dj hF) ‹_›
    · refine ite_ind (Q := Held b0 F) (fun _ => ?_) (fun _ => ?_)
      · exact held_complete (dj hF) ‹_›
      · refine ite_ind (Q := Held b0 F) (fun _ => ?_) (fun _ => ?_)
        · exact held_complete (dj hF) ‹_›
        · refine ite_ind (Q := Held b0 F) (fun _ => ?_) (fun _ => ?_)
          · exact held_complete (dj hF) ‹_›
          · exact held_modRec (dj hF) ‹_›
theorem held_execZeroingDone {s} (hF : Dj F 0x10000000000001) (hs : Held b0 F s) : HeldR b0 F (execZeroingDone s) := by
  unfold execZeroingDone
  refine heldR_next ?_
  refine ite_ind (Q := Held b0 F) (fun _ => ?_) (fun _ => ?_)
  · exact held_wrB (dj hF) ‹_› (off_REC_STATUS_ZEROING (dj hF))
  · assumption
theorem held_returnPrepare {q c s} (hF : Dj F 0x10001000a0006b) (hs : Held b0 F s) : Held b0 F (State.returnPrepare q c s) := by
  unfold State.returnPrepare
  refine ite_ind (Q := Held b0 F) (fun _ => ?_) (fun _ => ?_)
  · exact held_complete (dj hF) ‹_›
  · refine ite_ind (Q := Held b0 F) (fun _ => ?_) (fun _ => ?_)
    · exact held_complete (dj hF) ‹_›
    · refine ite_ind (Q := Held b0 F) (fun _ => ?_) (fun _ => ?_)
      · exact held_complete (dj hF) ‹_›
      · refine ite_ind (Q := Held b0 F) (fun _ => ?_) (fun _ => ?_)
        · exact held_complete (dj hF) ‹_›
        · extract_lets -merge -underBinder +onlyGivenNames ref
          try clear_value ref
          extract_lets -merge -underBinder +onlyGivenNames s
          have hs : Held b0 F s := held_modRec (dj hF) ‹_›
          try clear_value s
          extract_lets -merge -underBinder +onlyGivenNames s
          have hs : Held b0 F s := held_wr (dj hF) (held_wr (dj hF) ‹_› (off_REC_RETURN_STATUS_CHOICE (dj hF))) (off_REC_RETURN_STATUS_STATE (dj hF))
          try clear_value s
          exact held_complete (dj hF) (held_flag (dj hF) (held_raise (dj hF) ‹_›) (off_REC_EVENT_STATUS_RETURN_PREPARED (dj hF)))
theorem held_exportPiece {s x} (hF : Dj F 0x10001000200049) (hs : Held b0 F s) : Held b0 F (State.exportPiece s x) := by
  unfold State.exportPiece
  extract_lets -merge -underBinder +onlyGivenNames sent
  try clear_value sent
  extract_lets -merge -underBinder +onlyGivenNames d
  try clear_value d
  extract_lets -merge -underBinder +onlyGivenNames s
  have hs : Held b0 F s := held_post (dj hF) ‹_›
  try clear_value s
  exact held_wr (dj hF) (held_modRec (dj hF) ‹_›) (off_REC_EXPORT_OFFSET (dj hF))
theorem held_exportRun {k s} (hF : Dj F 0x1000100020004b) (hs : Held b0 F s) : Held b0 F (State.exportRun k s) := by
  induction k generalizing s with
  | zero => exact hs
  | succ k ih =>
    unfold State.exportRun
    split
    · exact hs
    · refine ite_ind (Q := Held b0 F) (fun _ => held_raise (dj hF) (held_exportEnd (dj hF) hs)) (fun _ => ?_)
      refine ite_ind (Q := Held b0 F) (fun _ => held_wrB (dj hF) hs (off_REC_EXPORT_STATUS_PAUSED (dj hF))) (fun _ => ?_)
      exact ih (held_exportPiece (dj hF) (held_wrB (dj hF) hs (off_REC_EXPORT_STATUS_PAUSED (dj hF))))
theorem held_execClearTrace {sess key s} (hF : Dj F 0x10000000000041) (hs : Held b0 F s) : HeldR b0 F (execClearTrace sess key s) := by
  unfold execClearTrace
  refine heldR_next ?_
  refine ite_ind (Q := Held b0 F) (fun _ => ?_) (fun _ => ?_)
  · exact held_wrB (dj hF) (held_modRec (dj hF) ‹_›) (off_REC_TRACE_STATUS_WRAPPED (dj hF))
  · assumption
theorem held_execAppendCheckpoint {s} (hF : Dj F 0x2) (hs : Held b0 F s) : HeldR b0 F (execAppendCheckpoint s) := by
  unfold execAppendCheckpoint
  refine heldR_next ?_
  refine ite_ind (Q := Held b0 F) (fun _ => ?_) (fun _ => ?_)
  · exact held_appendCkpt (dj hF) ‹_›
  · assumption
theorem held_exportStop {q _c s} (hF : Dj F 0x10000000800069) (hs : Held b0 F s) : Held b0 F (State.exportStop q _c s) := by
  unfold State.exportStop
  split
  · exact held_complete (dj hF) ‹_›
  · exact held_complete (dj hF) (held_exportEnd (dj hF) ‹_›)
theorem held_returnCommit {q c s} (hF : Dj F 0x34405d01a1c9eb) (hs : Held b0 F s) : Held b0 F (State.returnCommit q c s) := by
  unfold State.returnCommit
  split
  · exact held_complete (dj hF) ‹_›
  · refine ite_ind (Q := Held b0 F) (fun _ => ?_) (fun _ => ?_)
    · exact held_complete (dj hF) (held_returnCancel (dj hF) ‹_›)
    · refine ite_ind (Q := Held b0 F) (fun _ => ?_) (fun _ => ?_)
      · exact held_complete (dj hF) ‹_›
      · refine ite_ind (Q := Held b0 F) (fun _ => ?_) (fun _ => ?_)
        · exact held_complete (dj hF) ‹_›
        · refine ite_ind (Q := Held b0 F) (fun _ => ?_) (fun _ => ?_)
          · exact held_complete (dj hF) ‹_›
          · exact held_complete (dj hF) (held_returned (dj hF) ‹_›)
theorem held_clearCommit {s q serial} (hF : Dj F 0x10001000a0006b) (hs : Held b0 F s) : Held b0 F (State.clearCommit s q serial) := by
  unfold State.clearCommit
  extract_lets -merge -underBinder +onlyGivenNames last
  try clear_value last
  extract_lets -merge -underBinder +onlyGivenNames n
  try clear_value n
  extract_lets -merge -underBinder +onlyGivenNames idx
  try clear_value idx
  extract_lets -merge -underBinder +onlyGivenNames s
  have hs : Held b0 F s := held_ledgerClear (dj hF) (held_modRec (dj hF) ‹_›)
  try clear_value s
  extract_lets -merge -underBinder +onlyGivenNames s
  have hs : Held b0 F s := held_wr (dj hF) ‹_› (off_REC_FIRST_SEQ (dj hF))
  try clear_value s
  extract_lets -merge -underBinder +onlyGivenNames s
  have hs : Held b0 F s := held_wrB (dj hF) (held_raise (dj hF) ‹_›) (off_REC_STATUS_ZEROING (dj hF))
  try clear_value s
  exact held_complete (dj hF) (held_flag (dj hF) ‹_› (off_REC_EVENT_STATUS_CLEARED (dj hF)))
theorem held_execReturnPrepare {q s} (hF : Dj F 0x10001000a0006b) (hs : Held b0 F s) : HeldR b0 F (execReturnPrepare q s) := by
  unfold execReturnPrepare
  refine held_onCmd (dj hF) ?_ ?_
  · assumption
  · intro y0 y1 hy1
    exact held_returnPrepare (dj hF) ‹_›
theorem held_execClearLog {q s} (hF : Dj F 0x800068) (hs : Held b0 F s) : HeldR b0 F (execClearLog q s) := by
  unfold execClearLog
  refine held_onCmd (dj hF) ?_ ?_
  · assumption
  · intro y0 y1 hy1
    exact held_clearLog (dj hF) ‹_›
theorem held_execReturnPrepareExpiry {s} (hF : Dj F 0x10000000000041) (hs : Held b0 F s) : HeldR b0 F (execReturnPrepareExpiry s) := by
  unfold execReturnPrepareExpiry
  exact heldR_next (held_returnCancel (dj hF) ‹_›)
theorem held_execReturnCommit {q s} (hF : Dj F 0x34405d01a1c9eb) (hs : Held b0 F s) : HeldR b0 F (execReturnCommit q s) := by
  unfold execReturnCommit
  refine held_onCmd (dj hF) ?_ ?_
  · assumption
  · intro y0 y1 hy1
    exact held_returnCommit (dj hF) ‹_›
theorem held_stream {s} (hF : Dj F 0x1000100020004b) (hs : Held b0 F s) : Held b0 F (State.stream s) := by
  unfold State.stream
  split
  · exact held_exportRun (dj hF) ‹_›
  · assumption
theorem held_execExportStop {q s} (hF : Dj F 0x10000000800069) (hs : Held b0 F s) : HeldR b0 F (execExportStop q s) := by
  unfold execExportStop
  refine held_onCmd (dj hF) ?_ ?_
  · assumption
  · intro y0 y1 hy1
    exact held_exportStop (dj hF) ‹_›
theorem held_execClearCommit {s} (hF : Dj F 0x10001000a0006b) (hs : Held b0 F s) : HeldR b0 F (execClearCommit s) := by
  unfold execClearCommit
  refine heldR_next ?_
  split
  · refine ite_ind (Q := Held b0 F) (fun _ => ?_) (fun _ => ?_)
    · exact held_clearCommit (dj hF) ‹_›
    · assumption
  · assumption
theorem held_exportFrom {q c s} (hF : Dj F 0x10001000a0006b) (hs : Held b0 F s) : Held b0 F (State.exportFrom q c s) := by
  unfold State.exportFrom
  refine ite_ind (Q := Held b0 F) (fun _ => ?_) (fun _ => ?_)
  · exact held_complete (dj hF) ‹_›
  · refine ite_ind (Q := Held b0 F) (fun _ => ?_) (fun _ => ?_)
    · exact held_complete (dj hF) ‹_›
    · split
      · exact held_complete (dj hF) ‹_›
      · extract_lets -merge -underBinder +onlyGivenNames s
        have hs : Held b0 F s := held_modRec (dj hF) ‹_›
        try clear_value s
        extract_lets -merge -underBinder +onlyGivenNames s
        have hs : Held b0 F s := held_wr (dj hF) (held_wr (dj hF) (held_wr (dj hF) ‹_› (off_REC_EXPORT_STATUS_SESSION (dj hF))) (off_REC_EXPORT_STATUS_KIND (dj hF))) (off_REC_EXPORT_OFFSET (dj hF))
        try clear_value s
        exact held_stream (dj hF) (held_complete (dj hF) (held_wrB (dj hF) ‹_› (off_REC_EXPORT_STATUS_RUNNING (dj hF))))
theorem held_execExportStreamResume {s} (hF : Dj F 0x1000100020004b) (hs : Held b0 F s) : HeldR b0 F (execExportStreamResume s) := by
  unfold execExportStreamResume
  exact heldR_next (held_stream (dj hF) ‹_›)
theorem held_execExportCmd {q s} (hF : Dj F 0x10001000a0006b) (hs : Held b0 F s) : HeldR b0 F (execExportCmd q s) := by
  unfold execExportCmd
  refine held_onCmd (dj hF) ?_ ?_
  · assumption
  · intro y0 y1 hy1
    exact held_exportFrom (dj hF) ‹_›

end Sys2Proof.Machine
end

