-- ==== Sys2Proof/Laws/KeptHelmOps.lean ====
section
/-!
SUPPORT. The operations of Machine/HelmOps.lean change only the parts that their masks name (Laws/Held.lean).
-/
namespace Sys2Proof.Machine
open Sys2Proof
set_option Elab.async false

variable {b0 : State} {F : Nat}

theorem held_releaseQueue {s q} (hF : Dj F 0x8) (hs : Held b0 F s) : Held b0 F (State.releaseQueue s q) := by
  unfold State.releaseQueue
  exact held_setEventQ (dj hF) ‹_›
theorem held_slotTo {s i st} (hF : Dj F 0x800000001) (hs : Held b0 F s) : Held b0 F (State.slotTo s i st) := by
  unfold State.slotTo
  exact held_wr (dj hF) ‹_› (off_MAN_SLOT_STATE_STATE (dj hF))
theorem held_refuseMsg {s n tag typ status} (hF : Dj F 0x800008) (hs : Held b0 F s) : Held b0 F (State.refuseMsg s n tag typ status) := by
  unfold State.refuseMsg
  exact held_sendTo (dj hF) ‹_›
theorem held_modHq {s f} (hF : Dj F 0x8) (hs : Held b0 F s) : Held b0 F (State.modHq s f) := by
  unfold State.modHq
  exact held_mk_hq (dj hF) ‹_›
theorem held_modBoll {s f} (hF : Dj F 0x4) (hs : Held b0 F s) : Held b0 F (State.modBoll s f) := by
  unfold State.modBoll
  exact held_mk_boll (dj hF) ‹_›
theorem held_showHung {s} (hF : Dj F 0x200000001) (hs : Held b0 F s) : Held b0 F (State.showHung s) := by
  unfold State.showHung
  refine foldl_ind (Q := Held b0 F) (fun s _ hs => ?_) ?_
  · exact held_wrB (dj hF) ‹_› (off_PWR_DOMAIN_STATUS_HUNG (dj hF))
  · assumption
theorem held_loadCode {s code} (hF : Dj F 0x800000001) (hs : Held b0 F s) : Held b0 F (State.loadCode s code) := by
  unfold State.loadCode
  exact held_wr (dj hF) (held_wr (dj hF) (held_wr (dj hF) ‹_› (off_MAN_LOAD_ERROR_CODE (dj hF))) (off_MAN_LOAD_ERROR_SECTION (dj hF))) (off_MAN_LOAD_ERROR_OFFSET (dj hF))
theorem held_modMan {s f} (hF : Dj F 0x10) (hs : Held b0 F s) : Held b0 F (State.modMan s f) := by
  unfold State.modMan
  exact held_mk_man (dj hF) ‹_›
theorem held_stateRefused {s typ} (hF : Dj F 0x800000001) (hs : Held b0 F s) : Held b0 F (State.stateRefused s typ) := by
  unfold State.stateRefused
  refine ite_ind (Q := Held b0 F) (fun _ => ?_) (fun _ => ?_)
  · exact held_loadCode (dj hF) ‹_›
  · assumption
theorem held_slotBad {s i code} (hF : Dj F 0x800000001) (hs : Held b0 F s) : Held b0 F (State.slotBad s i code) := by
  unfold State.slotBad
  exact held_wr (dj hF) (held_slotTo (dj hF) ‹_›) (off_MAN_SLOT_STATE_ERROR (dj hF))
theorem held_stageGone {s} (hF : Dj F 0x800000011) (hs : Held b0 F s) : Held b0 F (State.stageGone s) := by
  unfold State.stageGone
  exact held_wr (dj hF) (held_wr (dj hF) (held_wrB (dj hF) (held_modMan (dj hF) ‹_›) (off_MAN_STATUS_STAGING (dj hF))) (off_MAN_STAGE_LENGTH (dj hF))) (off_MAN_STAGE_RECEIVED (dj hF))
theorem held_roleRefused {s typ} (hF : Dj F 0x800000001) (hs : Held b0 F s) : Held b0 F (State.roleRefused s typ) := by
  unfold State.roleRefused
  refine ite_ind (Q := Held b0 F) (fun _ => ?_) (fun _ => ?_)
  · exact held_loadCode (dj hF) ‹_›
  · assumption
theorem held_abortStage {s} (hF : Dj F 0x800000011) (hs : Held b0 F s) : Held b0 F (State.abortStage s) := by
  unfold State.abortStage
  split
  · assumption
  · extract_lets -merge -underBinder +onlyGivenNames s
    have hs : Held b0 F s := held_stageGone (dj hF) ‹_›
    try clear_value s
    refine ite_ind (Q := Held b0 F) (fun _ => ?_) (fun _ => ?_)
    · exact held_slotBad (dj hF) ‹_›
    · refine ite_ind (Q := Held b0 F) (fun _ => ?_) (fun _ => ?_)
      · exact held_wr (dj hF) ‹_› (off_MAN_PATCH_STATUS_STATE (dj hF))
      · assumption
theorem held_closeSession {s n} (hF : Dj F 0x30005e00a002db) (hs : Held b0 F s) : Held b0 F (State.closeSession s n) := by
  unfold State.closeSession
  split
  · assumption
  · extract_lets -merge -underBinder +onlyGivenNames s
    have hs : Held b0 F s := by
      unfold s
      refine ite_ind (Q := Held b0 F) (fun _ => ?_) (fun _ => ?_)
      · exact held_abortStage (dj hF) ‹_›
      · assumption
    try clear_value s
    extract_lets -merge -underBinder +onlyGivenNames s
    have hs : Held b0 F s := by
      unfold s
      refine foldl_ind (Q := Held b0 F) (fun s _ hs => ?_) ?_
      · refine ite_ind (Q := Held b0 F) (fun _ => ?_) (fun _ => ?_)
        · exact held_releaseQueue (dj hF) ‹_›
        · assumption
      · assumption
    try clear_value s
    extract_lets -merge -underBinder +onlyGivenNames s
    have hs : Held b0 F s := by
      unfold s
      refine ite_ind (Q := Held b0 F) (fun _ => ?_) (fun _ => ?_)
      · exact held_abortRestore (dj hF) ‹_›
      · assumption
    try clear_value s
    extract_lets -merge -underBinder +onlyGivenNames s
    have hs : Held b0 F s := by
      unfold s
      refine ite_ind (Q := Held b0 F) (fun _ => ?_) (fun _ => ?_)
      · exact held_exportEnd (dj hF) ‹_›
      · assumption
    try clear_value s
    extract_lets -merge -underBinder +onlyGivenNames s
    have hs : Held b0 F s := by
      unfold s
      refine ite_ind (Q := Held b0 F) (fun _ => ?_) (fun _ => ?_)
      · exact held_debugClose (dj hF) ‹_›
      · assumption
    try clear_value s
    exact held_showHung (dj hF) (held_send (dj hF) (held_modHq (dj hF) ‹_›))
theorem held_helm {f : State → State} {s n tag typ need i} (hF : Dj F 0x800800009) (hs : Held b0 F s) (hf : ∀ y0, Held b0 F y0 → Held b0 F (f y0)) : Held b0 F (State.helm s n tag typ need i f) := by
  unfold State.helm
  split
  · assumption
  · refine ite_ind (Q := Held b0 F) (fun _ => ?_) (fun _ => ?_)
    · assumption
    · refine ite_ind (Q := Held b0 F) (fun _ => ?_) (fun _ => ?_)
      · exact held_refuseMsg (dj hF) ‹_›
      · refine ite_ind (Q := Held b0 F) (fun _ => ?_) (fun _ => ?_)
        · exact held_refuseMsg (dj hF) ‹_›
        · refine ite_ind (Q := Held b0 F) (fun _ => ?_) (fun _ => ?_)
          · exact held_setSession (dj hF) ‹_›
          · refine ite_ind (Q := Held b0 F) (fun _ => ?_) (fun _ => ?_)
            · exact held_refuseMsg (dj hF) (held_stateRefused (dj hF) ‹_›)
            · refine ite_ind (Q := Held b0 F) (fun _ => ?_) (fun _ => ?_)
              · exact held_refuseMsg (dj hF) (held_roleRefused (dj hF) ‹_›)
              · refine hf _ ?_
                · exact held_setSession (dj hF) ‹_›
theorem held_closeAll {s} (hF : Dj F 0x30005e00a002db) (hs : Held b0 F s) : Held b0 F (State.closeAll s) := by
  unfold State.closeAll
  refine foldl_ind (Q := Held b0 F) (fun _ _ hs => ?_) ?_
  · exact held_closeSession (dj hF) ‹_›
  · assumption

end Sys2Proof.Machine
end

