-- ==== Sys2Proof/Laws/KeptManOps.lean ====
section
/-!
SUPPORT. The operations of Machine/ManOps.lean change only the parts that their masks name (Laws/Held.lean).
-/
namespace Sys2Proof.Machine
open Sys2Proof
set_option Elab.async false

variable {b0 : State} {F : Nat}

theorem held_showLog {s} (hF : Dj F 0x800000001) (hs : Held b0 F s) : Held b0 F (State.showLog s) := by
  unfold State.showLog
  extract_lets -merge -underBinder +onlyGivenNames x
  try clear_value x
  extract_lets -merge -underBinder +onlyGivenNames s
  have hs : Held b0 F s := by
    unfold s
    refine foldl_ind (Q := Held b0 F) (fun s _ hs => ?_) ?_
    · exact held_wr (dj hF) ‹_› (off_MAN_SLOT_EPOCH (dj hF))
    · assumption
  try clear_value s
  refine ite_ind (Q := Held b0 F) (fun _ => ?_) (fun _ => ?_)
  · exact held_wr (dj hF) (held_wr (dj hF) ‹_› (off_MAN_PATCH_LOG_USED (dj hF))) (off_MAN_PATCH_LOG_FREE (dj hF))
  · assumption
theorem held_withCfg {s l} (hF : Dj F 0x10) (hs : Held b0 F s) : Held b0 F (State.withCfg s l) := by
  unfold State.withCfg
  exact held_modMan (dj hF) ‹_›
theorem held_patchTo {s st} (hF : Dj F 0x800000001) (hs : Held b0 F s) : Held b0 F (State.patchTo s st) := by
  unfold State.patchTo
  exact held_wr (dj hF) ‹_› (off_MAN_PATCH_STATUS_STATE (dj hF))
theorem held_countSig {s e} (hF : Dj F 0x400000001) (hs : Held b0 F s) : Held b0 F (State.countSig s e) := by
  unfold State.countSig
  refine ite_ind (Q := Held b0 F) (fun _ => ?_) (fun _ => ?_)
  · exact held_inc (dj hF) ‹_› (off_SEC_SIG_FAILS (dj hF))
  · assumption
theorem held_loadError {s e} (hF : Dj F 0x800000001) (hs : Held b0 F s) : Held b0 F (State.loadError s e) := by
  unfold State.loadError
  exact held_wr (dj hF) (held_wr (dj hF) (held_wr (dj hF) ‹_› (off_MAN_LOAD_ERROR_CODE (dj hF))) (off_MAN_LOAD_ERROR_SECTION (dj hF))) (off_MAN_LOAD_ERROR_OFFSET (dj hF))
theorem held_showSlot {s i} (hF : Dj F 0x800000001) (hs : Held b0 F s) : Held b0 F (State.showSlot s i) := by
  unfold State.showSlot
  extract_lets -merge -underBinder +onlyGivenNames b
  try clear_value b
  exact held_showLog (dj hF) (held_wr (dj hF) (held_wr (dj hF) (held_wr (dj hF) ‹_› (off_MAN_SLOT_GEN (dj hF))) (off_MAN_SLOT_LENGTH (dj hF))) (off_MAN_SLOT_SAFETY (dj hF)))
theorem held_modSlotNv {s i f} (hF : Dj F 0x2) (hs : Held b0 F s) : Held b0 F (State.modSlotNv s i f) := by
  unfold State.modSlotNv
  exact held_modNv (dj hF) ‹_›

end Sys2Proof.Machine
end

