-- ==== Sys2Proof/Laws/KeptMan.lean ====
section
/-!
SUPPORT. The operations of Machine/Man.lean change only the parts that their masks name (Laws/Held.lean).
-/
namespace Sys2Proof.Machine
open Sys2Proof
set_option Elab.async false

variable {b0 : State} {F : Nat}

theorem held_refreshAll {s} (hF : Dj F 0x5003000a08909) (hs : Held b0 F s) : Held b0 F (State.refreshAll s) := by
  unfold State.refreshAll
  extract_lets -merge -underBinder +onlyGivenNames s
  have hs : Held b0 F s := by
    unfold s
    refine foldl_ind (Q := Held b0 F) (fun s _ hs => ?_) ?_
    · refine foldl_ind (Q := Held b0 F) (fun s _ hs => ?_) ?_
      · refine ite_ind (Q := Held b0 F) (fun _ => ?_) (fun _ => ?_)
        · exact held_sendStanding (dj hF) ‹_›
        · assumption
      · assumption
    · assumption
  try clear_value s
  extract_lets -merge -underBinder +onlyGivenNames s
  have hs : Held b0 F s := by
    unfold s
    refine foldl_ind (Q := Held b0 F) (fun s _ hs => ?_) ?_
    · exact held_sendPcsStanding (dj hF) ‹_›
    · assumption
  try clear_value s
  refine foldl_ind (Q := Held b0 F) (fun s _ hs => ?_) ?_
  · refine ite_ind (Q := Held b0 F) (fun _ => ?_) (fun _ => ?_)
    · exact held_busStanding (dj hF) ‹_›
    · assumption
  · assumption
theorem held_dropContainer {s c berth} (hF : Dj F 0x10003001a0052b) (hs : Held b0 F s) : Held b0 F (State.dropContainer s c berth) := by
  unfold State.dropContainer
  extract_lets -merge -underBinder +onlyGivenNames x
  try clear_value x
  extract_lets -merge -underBinder +onlyGivenNames s
  have hs : Held b0 F s := held_completeOpt (dj hF) (held_completeOpt (dj hF) ‹_›)
  try clear_value s
  extract_lets -merge -underBinder +onlyGivenNames s
  have hs : Held b0 F s := held_sendLeave (dj hF) ‹_›
  try clear_value s
  exact held_setIntentCon (dj hF) (held_mk_prot (dj hF) ‹_›)
theorem held_beginSlot {s i} (hF : Dj F 0x800000003) (hs : Held b0 F s) : Held b0 F (State.beginSlot s i) := by
  unfold State.beginSlot
  exact held_showSlot (dj hF) (held_wr (dj hF) (held_slotTo (dj hF) (held_modNv (dj hF) ‹_›)) (off_MAN_SLOT_STATE_ERROR (dj hF)))
theorem held_newBerth {s n b} (hF : Dj F 0x2000000109) (hs : Held b0 F s) : Held b0 F (State.newBerth s n b) := by
  unfold State.newBerth
  exact held_modRing (dj hF) (held_finishNode (dj hF) ‹_›)
theorem held_execAbortStage {sess key s} (hF : Dj F 0x800000011) (hs : Held b0 F s) : HeldR b0 F (execAbortStage sess key s) := by
  unfold execAbortStage
  refine heldR_next ?_
  refine ite_ind (Q := Held b0 F) (fun _ => ?_) (fun _ => ?_)
  · exact held_abortStage (dj hF) ‹_›
  · assumption
theorem held_abortPatch {s} (hF : Dj F 0x800000013) (hs : Held b0 F s) : Held b0 F (State.abortPatch s) := by
  unfold State.abortPatch
  split
  · refine ite_ind (Q := Held b0 F) (fun _ => ?_) (fun _ => ?_)
    · exact held_wrB (dj hF) ‹_› (off_MAN_PATCH_STATUS_ABORT_LATE (dj hF))
    · assumption
  · refine ite_ind (Q := Held b0 F) (fun _ => ?_) (fun _ => ?_)
    · assumption
    · refine ite_ind (Q := Held b0 F) (fun _ => ?_) (fun _ => ?_)
      · exact held_wrB (dj hF) ‹_› (off_MAN_PATCH_STATUS_ABORT_LATE (dj hF))
      · extract_lets -merge -underBinder +onlyGivenNames e
        try clear_value e
        extract_lets -merge -underBinder +onlyGivenNames s
        have hs : Held b0 F s := held_modSlotNv (dj hF) ‹_›
        try clear_value s
        exact held_showLog (dj hF) (held_patchTo (dj hF) (held_modMan (dj hF) ‹_›))
theorem held_execAbortPatch {sess key s} (hF : Dj F 0x800000013) (hs : Held b0 F s) : HeldR b0 F (execAbortPatch sess key s) := by
  unfold execAbortPatch
  refine heldR_next ?_
  refine ite_ind (Q := Held b0 F) (fun _ => ?_) (fun _ => ?_)
  · exact held_abortPatch (dj hF) ‹_›
  · assumption
theorem held_openStage {s sess uid kind len slot} (hF : Dj F 0x800000013) (hs : Held b0 F s) : Held b0 F (State.openStage s sess uid kind len slot) := by
  unfold State.openStage
  extract_lets -merge -underBinder +onlyGivenNames s
  have hs : Held b0 F s := by
    unfold s
    refine ite_ind (Q := Held b0 F) (fun _ => ?_) (fun _ => ?_)
    · exact held_beginSlot (dj hF) ‹_›
    · assumption
  try clear_value s
  extract_lets -merge -underBinder +onlyGivenNames s
  have hs : Held b0 F s := held_modMan (dj hF) ‹_›
  try clear_value s
  extract_lets -merge -underBinder +onlyGivenNames s
  have hs : Held b0 F s := held_wr (dj hF) (held_wr (dj hF) (held_wrB (dj hF) ‹_› (off_MAN_STATUS_STAGING (dj hF))) (off_MAN_STAGE_LENGTH (dj hF))) (off_MAN_STAGE_RECEIVED (dj hF))
  try clear_value s
  refine ite_ind (Q := Held b0 F) (fun _ => ?_) (fun _ => ?_)
  · exact held_wr (dj hF) ‹_› (off_MAN_PATCH_STATUS_STATE (dj hF))
  · assumption
theorem held_imageTaken {s j} (hF : Dj F 0x180020000b) (hs : Held b0 F s) : Held b0 F (State.imageTaken s j) := by
  unfold State.imageTaken
  extract_lets -merge -underBinder +onlyGivenNames other
  try clear_value other
  extract_lets -merge -underBinder +onlyGivenNames s
  have hs : Held b0 F s := held_showSlot (dj hF) (held_wr (dj hF) (held_slotTo (dj hF) ‹_›) (off_MAN_SLOT_STATE_ERROR (dj hF)))
  try clear_value s
  extract_lets -merge -underBinder +onlyGivenNames s
  have hs : Held b0 F s := by
    unfold s
    refine ite_ind (Q := Held b0 F) (fun _ => ?_) (fun _ => ?_)
    · exact held_slotTo (dj hF) ‹_›
    · assumption
  try clear_value s
  extract_lets -merge -underBinder +onlyGivenNames s
  have hs : Held b0 F s := held_modNv (dj hF) ‹_›
  try clear_value s
  exact held_flag (dj hF) ‹_› (off_MAN_EVENT_STATUS_LOAD_VERIFIED (dj hF))
theorem held_replyTo {s sess uid tag typ status body} (hF : Dj F 0x800008) (hs : Held b0 F s) : Held b0 F (State.replyTo s sess uid tag typ status body) := by
  unfold State.replyTo
  refine ite_ind (Q := Held b0 F) (fun _ => ?_) (fun _ => ?_)
  · exact held_reply (dj hF) ‹_›
  · assumption
theorem held_manCommit {s sess tag} (hF : Dj F 0x800800019) (hs : Held b0 F s) : Held b0 F (State.manCommit s sess tag) := by
  unfold State.manCommit
  split
  · exact held_reply (dj hF) (held_loadError (dj hF) ‹_›)
  · refine ite_ind (Q := Held b0 F) (fun _ => ?_) (fun _ => ?_)
    · exact held_modMan (dj hF) (held_stageGone (dj hF) ‹_›)
    · exact held_reply (dj hF) (held_loadError (dj hF) ‹_›)
theorem held_keepTables {s old} (hF : Dj F 0x300) (hs : Held b0 F s) : Held b0 F (State.keepTables s old) := by
  unfold State.keepTables
  extract_lets -merge -underBinder +onlyGivenNames l
  try clear_value l
  exact held_mk_xng_est (dj hF) ‹_›
theorem held_patchSlots {s old} (hF : Dj F 0x10000001001) (hs : Held b0 F s) : Held b0 F (State.patchSlots s old) := by
  unfold State.patchSlots
  extract_lets -merge -underBinder +onlyGivenNames was
  try clear_value was
  extract_lets -merge -underBinder +onlyGivenNames now
  try clear_value now
  extract_lets -merge -underBinder +onlyGivenNames gone
  try clear_value gone
  extract_lets -merge -underBinder +onlyGivenNames fresh
  try clear_value fresh
  extract_lets -merge -underBinder +onlyGivenNames s
  have hs : Held b0 F s := by
    unfold s
    refine foldl_ind (Q := Held b0 F) (fun s _ hs => ?_) ?_
    · extract_lets -merge -underBinder +onlyGivenNames s
      have hs : Held b0 F s := by
        unfold s
        refine foldl_ind (Q := Held b0 F) (fun s _ hs => ?_) ?_
        · exact held_allLanes (dj hF) ‹_›
        · assumption
      try clear_value s
      exact held_modLoop (dj hF) (held_freshState (dj hF) ‹_›)
    · assumption
  try clear_value s
  refine foldl_ind (Q := Held b0 F) (fun s _ hs => ?_) ?_
  · exact held_modSlot (dj hF) (held_freshState (dj hF) ‹_›)
  · assumption
theorem held_patchRefused {s e base} (hF : Dj F 0x1000180020000b) (hs : Held b0 F s) : Held b0 F (State.patchRefused s e base) := by
  unfold State.patchRefused
  extract_lets -merge -underBinder +onlyGivenNames s
  have hs : Held b0 F s := held_inc (dj hF) (held_loadError (dj hF) ‹_›) (off_MAN_PATCH_REFUSED (dj hF))
  try clear_value s
  extract_lets -merge -underBinder +onlyGivenNames s
  have hs : Held b0 F s := by
    unfold s
    refine ite_ind (Q := Held b0 F) (fun _ => ?_) (fun _ => ?_)
    · exact held_patchTo (dj hF) ‹_›
    · assumption
  try clear_value s
  exact held_flag (dj hF) (held_raise (dj hF) ‹_›) (off_MAN_EVENT_STATUS_PATCH_REFUSED (dj hF))
theorem held_stopBufs {s new} (hF : Dj F 0x1800100020000b) (hs : Held b0 F s) : Held b0 F (State.stopBufs s new) := by
  unfold State.stopBufs
  extract_lets -merge -underBinder +onlyGivenNames defOf
  try clear_value defOf
  refine foldl_ind (Q := Held b0 F) (fun s _ hs => ?_) ?_
  · refine ite_ind (Q := Held b0 F) (fun _ => ?_) (fun _ => ?_)
    · assumption
    · exact held_abortRec (dj hF) ‹_›
  · assumption
theorem held_execManifestCommit {sess tag s} (hF : Dj F 0x800800019) (hs : Held b0 F s) : HeldR b0 F (execManifestCommit sess tag s) := by
  unfold execManifestCommit
  refine heldR_next ?_
  refine held_helm (dj hF) ?_ ?_
  · assumption
  · intro s hs
    exact held_manCommit (dj hF) ‹_›
theorem held_manBegin {s sess kind len} (hF : Dj F 0x800000013) (hs : Held b0 F s) : Held1 b0 F (State.manBegin s sess kind len) := by
  unfold State.manBegin
  extract_lets -merge -underBinder +onlyGivenNames uid
  try clear_value uid
  refine ite_ind (Q := Held1 b0 F) (fun _ => ?_) (fun _ => ?_)
  · exact held1_mk ‹_›
  · refine ite_ind (Q := Held1 b0 F) (fun _ => ?_) (fun _ => ?_)
    · exact held1_mk ‹_›
    · refine ite_ind (Q := Held1 b0 F) (fun _ => ?_) (fun _ => ?_)
      · exact held1_mk ‹_›
      · refine ite_ind (Q := Held1 b0 F) (fun _ => ?_) (fun _ => ?_)
        · exact held1_mk (held_openStage (dj hF) ‹_›)
        · split
          · exact held1_mk ‹_›
          · exact held1_mk (held_openStage (dj hF) ‹_›)
theorem held_chunk {s g data} (hF : Dj F 0x800000013) (hs : Held b0 F s) : Held b0 F (State.chunk s g data) := by
  unfold State.chunk
  extract_lets -merge -underBinder +onlyGivenNames b
  try clear_value b
  extract_lets -merge -underBinder +onlyGivenNames s
  have hs : Held b0 F s := held_wr (dj hF) (held_modMan (dj hF) ‹_›) (off_MAN_STAGE_RECEIVED (dj hF))
  try clear_value s
  refine ite_ind (Q := Held b0 F) (fun _ => ?_) (fun _ => ?_)
  · exact held_modSlotNv (dj hF) ‹_›
  · assumption
theorem held_dropString {s i berth} (hF : Dj F 0x10003001a0072b) (hs : Held b0 F s) : Held b0 F (State.dropString s i berth) := by
  unfold State.dropString
  extract_lets -merge -underBinder +onlyGivenNames s
  have hs : Held b0 F s := held_sendLeave (dj hF) (held_endOpen (dj hF) (held_endClose (dj hF) ‹_›))
  try clear_value s
  extract_lets -merge -underBinder +onlyGivenNames s
  have hs : Held b0 F s := held_modEst (dj hF) ‹_›
  try clear_value s
  extract_lets -merge -underBinder +onlyGivenNames s
  have hs : Held b0 F s := held_dropIntake (dj hF) ‹_›
  try clear_value s
  extract_lets -merge -underBinder +onlyGivenNames zz0 s
  have hs : Held b0 F s := held_mk_prot (dj hF) ‹_›
  try clear_value s
  exact held_setIntent (dj hF) ‹_›
theorem held_verifyDone {s nvmOk} (hF : Dj F 0x1c00a0001b) (hs : Held b0 F s) : Held b0 F (State.verifyDone s nvmOk) := by
  unfold State.verifyDone
  split
  · assumption
  · extract_lets -merge -underBinder +onlyGivenNames e
    try clear_value e
    extract_lets -merge -underBinder +onlyGivenNames s
    have hs : Held b0 F s := held_countSig (dj hF) (held_modMan (dj hF) ‹_›)
    try clear_value s
    extract_lets -merge -underBinder +onlyGivenNames s
    have hs : Held b0 F s := held_loadError (dj hF) ‹_›
    try clear_value s
    extract_lets -merge -underBinder +onlyGivenNames s
    have hs : Held b0 F s := by
      unfold s
      split
      · exact held_imageTaken (dj hF) ‹_›
      · exact held_flag (dj hF) (held_showSlot (dj hF) (held_slotBad (dj hF) ‹_›)) (off_MAN_EVENT_STATUS_LOAD_FAILED (dj hF))
    try clear_value s
    exact held_replyTo (dj hF) ‹_›
theorem held_persistDone {s nvmOk} (hF : Dj F 0x10001800a0001b) (hs : Held b0 F s) : Held b0 F (State.persistDone s nvmOk) := by
  unfold State.persistDone
  split
  · assumption
  · refine ite_ind (Q := Held b0 F) (fun _ => ?_) (fun _ => ?_)
    · assumption
    · extract_lets -merge -underBinder +onlyGivenNames e
      try clear_value e
      split
      · exact held_replyTo (dj hF) (held_patchRefused (dj hF) (held_modMan (dj hF) ‹_›))
      · extract_lets -merge -underBinder +onlyGivenNames n
        try clear_value n
        extract_lets -merge -underBinder +onlyGivenNames s
        have hs : Held b0 F s := held_showLog (dj hF) (held_modSlotNv (dj hF) ‹_›)
        try clear_value s
        extract_lets -merge -underBinder +onlyGivenNames s
        have hs : Held b0 F s := held_wr64 (dj hF) (held_modMan (dj hF) ‹_›) (off_MAN_PATCH_TARGET_LO (dj hF))
        try clear_value s
        exact held_replyTo (dj hF) (held_loadError (dj hF) (held_wr (dj hF) ‹_› (off_MAN_PATCH_STATUS_STATE (dj hF))))
theorem held_manChunk {s sess off data} (hF : Dj F 0x800000013) (hs : Held b0 F s) : Held1 b0 F (State.manChunk s sess off data) := by
  unfold State.manChunk
  refine ite_ind (Q := Held1 b0 F) (fun _ => ?_) (fun _ => ?_)
  · exact held1_mk ‹_›
  · split
    · exact held1_mk ‹_›
    · extract_lets -merge -underBinder +onlyGivenNames n
      try clear_value n
      refine ite_ind (Q := Held1 b0 F) (fun _ => ?_) (fun _ => ?_)
      · exact held1_mk ‹_›
      · refine ite_ind (Q := Held1 b0 F) (fun _ => ?_) (fun _ => ?_)
        · exact held1_mk ‹_›
        · exact held1_mk (held_chunk (dj hF) ‹_›)
theorem held_execManifestVerifyDone {nvmOk s} (hF : Dj F 0x1c00a0001b) (hs : Held b0 F s) : HeldR b0 F (execManifestVerifyDone nvmOk s) := by
  unfold execManifestVerifyDone
  exact heldR_next (held_verifyDone (dj hF) ‹_›)
theorem held_patchPlant {s old} (hF : Dj F 0x10007001a00f2b) (hs : Held b0 F s) : Held b0 F (State.patchPlant s old) := by
  unfold State.patchPlant
  extract_lets -merge -underBinder +onlyGivenNames new
  try clear_value new
  extract_lets -merge -underBinder +onlyGivenNames goneS
  try clear_value goneS
  extract_lets -merge -underBinder +onlyGivenNames goneC
  try clear_value goneC
  extract_lets -merge -underBinder +onlyGivenNames addS
  try clear_value addS
  extract_lets -merge -underBinder +onlyGivenNames addC
  try clear_value addC
  extract_lets -merge -underBinder +onlyGivenNames same
  try clear_value same
  extract_lets -merge -underBinder +onlyGivenNames typeOf
  try clear_value typeOf
  extract_lets -merge -underBinder +onlyGivenNames s
  have hs : Held b0 F s := by
    unfold s
    refine foldl_ind (Q := Held b0 F) (fun s _ hs => ?_) ?_
    · exact held_dropString (dj hF) ‹_›
    · assumption
  try clear_value s
  extract_lets -merge -underBinder +onlyGivenNames s
  have hs : Held b0 F s := by
    unfold s
    refine foldl_ind (Q := Held b0 F) (fun s _ hs => ?_) ?_
    · exact held_dropContainer (dj hF) ‹_›
    · assumption
  try clear_value s
  extract_lets -merge -underBinder +onlyGivenNames s
  have hs : Held b0 F s := by
    unfold s
    refine ite_ind (Q := Held b0 F) (fun _ => ?_) (fun _ => ?_)
    · assumption
    · exact held_startCkpt (dj hF) ‹_›
  try clear_value s
  extract_lets -merge -underBinder +onlyGivenNames s
  have hs : Held b0 F s := by
    unfold s
    refine foldl_ind (Q := Held b0 F) (fun s _ hs => ?_) ?_
    · exact held_newBerth (dj hF) ‹_›
    · assumption
  try clear_value s
  extract_lets -merge -underBinder +onlyGivenNames s
  have hs : Held b0 F s := by
    unfold s
    refine foldl_ind (Q := Held b0 F) (fun s _ hs => ?_) ?_
    · exact held_newBerth (dj hF) ‹_›
    · assumption
  try clear_value s
  extract_lets -merge -underBinder +onlyGivenNames s
  have hs : Held b0 F s := by
    unfold s
    refine foldl_ind (Q := Held b0 F) (fun s _ hs => ?_) ?_
    · exact held_setIntentCon (dj hF) ‹_›
    · refine foldl_ind (Q := Held b0 F) (fun s _ hs => ?_) ?_
      · exact held_setIntent (dj hF) ‹_›
      · assumption
  try clear_value s
  extract_lets -merge -underBinder +onlyGivenNames s
  have hs : Held b0 F s := by
    unfold s
    refine foldl_ind (Q := Held b0 F) (fun s _ hs => ?_) ?_
    · exact held_mk_est_prot (dj hF) ‹_›
    · assumption
  try clear_value s
  extract_lets -merge -underBinder +onlyGivenNames s
  have hs : Held b0 F s := by
    unfold s
    refine foldl_ind (Q := Held b0 F) (fun s _ hs => ?_) ?_
    · exact held_toRest (dj hF) (held_toDefaults (dj hF) ‹_›)
    · assumption
  try clear_value s
  extract_lets -merge -underBinder +onlyGivenNames pcs
  try clear_value pcs
  extract_lets -merge -underBinder +onlyGivenNames zz0 s
  have hs : Held b0 F s := held_mk_disp (dj hF) ‹_›
  try clear_value s
  extract_lets -merge -underBinder +onlyGivenNames rings
  try clear_value rings
  extract_lets -merge -underBinder +onlyGivenNames s
  have hs : Held b0 F s := by
    unfold s
    refine foldl_ind (Q := Held b0 F) (fun _ _ hs => ?_) ?_
    · exact held_replan (dj hF) ‹_›
    · assumption
  try clear_value s
  refine foldl_ind (Q := Held b0 F) (fun s _ hs => ?_) ?_
  · exact held_discover (dj hF) ‹_›
  · assumption
theorem held_patchCommit {s sess tag target} (hF : Dj F 0x10001c00a0001b) (hs : Held b0 F s) : Held b0 F (State.patchCommit s sess tag target) := by
  unfold State.patchCommit
  split
  · exact held_reply (dj hF) (held_loadError (dj hF) ‹_›)
  · refine ite_ind (Q := Held b0 F) (fun _ => ?_) (fun _ => ?_)
    · exact held_reply (dj hF) (held_loadError (dj hF) ‹_›)
    · extract_lets -merge -underBinder +onlyGivenNames s
      have hs : Held b0 F s := held_stageGone (dj hF) ‹_›
      try clear_value s
      split
      · exact held_reply (dj hF) (held_patchRefused (dj hF) (held_countSig (dj hF) ‹_›))
      · exact held_wr (dj hF) (held_modMan (dj hF) ‹_›) (off_MAN_PATCH_STATUS_STATE (dj hF))
theorem held_execManifestChunk {sess tag off data s} (hF : Dj F 0x80080001b) (hs : Held b0 F s) : HeldR b0 F (execManifestChunk sess tag off data s) := by
  unfold execManifestChunk
  refine heldR_next ?_
  refine held_helm (dj hF) ?_ ?_
  · assumption
  · intro s hs
    split
    rename_i s st heq
    have hs : Held b0 F s := held1_eq heq (by
      exact held_manChunk (dj hF) ‹_›
      )
    clear heq
    exact held_reply (dj hF) ‹_›
theorem held_applyPatch {s j} (hF : Dj F 0x1d017a01a89f3b) (hs : Held b0 F s) : Held b0 F (State.applyPatch s j) := by
  unfold State.applyPatch
  extract_lets -merge -underBinder +onlyGivenNames old
  try clear_value old
  extract_lets -merge -underBinder +onlyGivenNames new
  try clear_value new
  extract_lets -merge -underBinder +onlyGivenNames ts
  try clear_value ts
  extract_lets -merge -underBinder +onlyGivenNames n
  try clear_value n
  extract_lets -merge -underBinder +onlyGivenNames mask
  try clear_value mask
  extract_lets -merge -underBinder +onlyGivenNames s
  have hs : Held b0 F s := by
    unfold s
    refine ite_ind (Q := Held b0 F) (fun _ => ?_) (fun _ => ?_)
    · exact held_keepTables (dj hF) ‹_›
    · assumption
  try clear_value s
  extract_lets -merge -underBinder +onlyGivenNames s
  have hs : Held b0 F s := by
    unfold s
    refine ite_ind (Q := Held b0 F) (fun _ => ?_) (fun _ => ?_)
    · exact held_stopBufs (dj hF) ‹_›
    · assumption
  try clear_value s
  extract_lets -merge -underBinder +onlyGivenNames s
  have hs : Held b0 F s := held_modMan (dj hF) ‹_›
  try clear_value s
  extract_lets -merge -underBinder +onlyGivenNames s
  have hs : Held b0 F s := by
    unfold s
    refine ite_ind (Q := Held b0 F) (fun _ => ?_) (fun _ => ?_)
    · exact held_patchSlots (dj hF) ‹_›
    · assumption
  try clear_value s
  extract_lets -merge -underBinder +onlyGivenNames s
  have hs : Held b0 F s := by
    unfold s
    refine ite_ind (Q := Held b0 F) (fun _ => ?_) (fun _ => ?_)
    · exact held_patchPlant (dj hF) ‹_›
    · assumption
  try clear_value s
  extract_lets -merge -underBinder +onlyGivenNames s
  have hs : Held b0 F s := by
    unfold s
    refine ite_ind (Q := Held b0 F) (fun _ => ?_) (fun _ => ?_)
    · exact held_showAcq (dj hF) ‹_›
    · assumption
  try clear_value s
  extract_lets -merge -underBinder +onlyGivenNames s
  have hs : Held b0 F s := by
    unfold s
    refine ite_ind (Q := Held b0 F) (fun _ => ?_) (fun _ => ?_)
    · exact held_modGrp (dj hF) ‹_›
    · assumption
  try clear_value s
  extract_lets -merge -underBinder +onlyGivenNames s
  have hs : Held b0 F s := by
    unfold s
    refine ite_ind (Q := Held b0 F) (fun _ => ?_) (fun _ => ?_)
    · exact held_refreshAll (dj hF) ‹_›
    · assumption
  try clear_value s
  extract_lets -merge -underBinder +onlyGivenNames s
  have hs : Held b0 F s := held_wr64 (dj hF) (held_wr (dj hF) (held_wr (dj hF) ‹_› (off_MAN_ACTIVE_EPOCH (dj hF))) (off_MAN_SECTION_CHANGED (dj hF))) (off_MAN_PATCH_TICK_LO (dj hF))
  try clear_value s
  extract_lets -merge -underBinder +onlyGivenNames s
  have hs : Held b0 F s := held_patchTo (dj hF) (held_inc (dj hF) ‹_› (off_MAN_PATCH_COUNT (dj hF)))
  try clear_value s
  exact held_flag (dj hF) (held_raise (dj hF) ‹_›) (off_MAN_EVENT_STATUS_PATCH_APPLIED (dj hF))
theorem held_execManifestBegin {sess tag kind len s} (hF : Dj F 0x80080001b) (hs : Held b0 F s) : HeldR b0 F (execManifestBegin sess tag kind len s) := by
  unfold execManifestBegin
  refine heldR_next ?_
  refine held_helm (dj hF) ?_ ?_
  · assumption
  · intro s hs
    split
    rename_i s st heq
    have hs : Held b0 F s := held1_eq heq (by
      exact held_manBegin (dj hF) ‹_›
      )
    clear heq
    exact held_reply (dj hF) ‹_›
theorem held_patchBoundary {s} (hF : Dj F 0x1d017a01a89f3b) (hs : Held b0 F s) : Held b0 F (State.patchBoundary s) := by
  unfold State.patchBoundary
  split
  · assumption
  · refine ite_ind (Q := Held b0 F) (fun _ => ?_) (fun _ => ?_)
    · refine ite_ind (Q := Held b0 F) (fun _ => ?_) (fun _ => ?_)
      · exact held_wr64 (dj hF) (held_modMan (dj hF) ‹_›) (off_MAN_PATCH_TARGET_LO (dj hF))
      · exact held_applyPatch (dj hF) ‹_›
    · assumption
theorem held_execPatchPersistDone {nvmOk s} (hF : Dj F 0x10001800a0001b) (hs : Held b0 F s) : HeldR b0 F (execPatchPersistDone nvmOk s) := by
  unfold execPatchPersistDone
  exact heldR_next (held_persistDone (dj hF) ‹_›)
theorem held_execPatchCommit {sess tag target s} (hF : Dj F 0x10001c00a0001b) (hs : Held b0 F s) : HeldR b0 F (execPatchCommit sess tag target s) := by
  unfold execPatchCommit
  refine heldR_next ?_
  refine held_helm (dj hF) ?_ ?_
  · assumption
  · intro s hs
    exact held_patchCommit (dj hF) ‹_›
theorem held_execPatchBoundary {s} (hF : Dj F 0x1d017a01a89f3b) (hs : Held b0 F s) : HeldR b0 F (execPatchBoundary s) := by
  unfold execPatchBoundary
  refine heldR_next ?_
  refine ite_ind (Q := Held b0 F) (fun _ => ?_) (fun _ => ?_)
  · exact held_patchBoundary (dj hF) ‹_›
  · assumption

end Sys2Proof.Machine
end

