-- ==== Sys2Proof/Laws/KeptPwrOps.lean ====
section
/-!
SUPPORT. The operations of Machine/PwrOps.lean change only the parts that their masks name (Laws/Held.lean).
-/
namespace Sys2Proof.Machine
open Sys2Proof
set_option Elab.async false

variable {b0 : State} {F : Nat}

theorem held_saveTime {s} (hF : Dj F 0x2) (hs : Held b0 F s) : Held b0 F (State.saveTime s) := by
  unfold State.saveTime
  exact held_modNv (dj hF) ‹_›
theorem held_setFails {s l} (hF : Dj F 0x100000001) (hs : Held b0 F s) : Held b0 F (State.setFails s l) := by
  unfold State.setFails
  refine foldl_ind (Q := Held b0 F) (fun s _ hs => ?_) ?_
  · exact held_wr (dj hF) (held_wr (dj hF) (held_wr (dj hF) ‹_› (off_SYS_FAIL_CODE (dj hF))) (off_SYS_FAIL_CYCLES (dj hF))) (off_SYS_FAIL_OPSEC (dj hF))
  · assumption
theorem held_showLogState {s} (hF : Dj F 0x10000000000001) (hs : Held b0 F s) : Held b0 F (State.showLogState s) := by
  unfold State.showLogState
  extract_lets -merge -underBinder +onlyGivenNames s
  have hs : Held b0 F s := held_wrB (dj hF) ‹_› (off_REC_STATUS_FULL (dj hF))
  try clear_value s
  extract_lets -merge -underBinder +onlyGivenNames s
  have hs : Held b0 F s := held_wrB (dj hF) (held_wrB (dj hF) ‹_› (off_REC_STATUS_HIGH (dj hF))) (off_REC_STATUS_RESERVE_IN_USE (dj hF))
  try clear_value s
  exact held_wrB (dj hF) ‹_› (off_REC_STATUS_READ_ONLY (dj hF))
theorem held_alarmFrom {s old} (hF : Dj F 0x1200200029) (hs : Held b0 F s) : Held b0 F (State.alarmFrom s old) := by
  unfold State.alarmFrom
  extract_lets -merge -underBinder +onlyGivenNames a
  try clear_value a
  refine ite_ind (Q := Held b0 F) (fun _ => ?_) (fun _ => ?_)
  · exact held_wakeSource (dj hF) ‹_›
  · assumption
theorem held_opTo {s sec ms} (hF : Dj F 0x1200200029) (hs : Held b0 F s) : Held b0 F (State.opTo s sec ms) := by
  unfold State.opTo
  refine ite_ind (Q := Held b0 F) (fun _ => ?_) (fun _ => ?_)
  · extract_lets -merge -underBinder +onlyGivenNames old
    try clear_value old
    exact held_alarmFrom (dj hF) (held_wr (dj hF) (held_wr (dj hF) ‹_› (off_PWR_OP_SECONDS (dj hF))) (off_PWR_OP_MS (dj hF)))
  · assumption
theorem held_holdMooring {s reason} (hF : Dj F 0x4000000808901) (hs : Held b0 F s) : Held b0 F (State.holdMooring s reason) := by
  unfold State.holdMooring
  extract_lets -merge -underBinder +onlyGivenNames s
  have hs : Held b0 F s := by
    unfold s
    refine foldl_ind (Q := Held b0 F) (fun s _ hs => ?_) ?_
    · exact held_sendPcs (dj hF) ‹_›
    · exact held_holdRings (dj hF) ‹_›
  try clear_value s
  refine foldl_ind (Q := Held b0 F) (fun s _ hs => ?_) ?_
  · exact held_canHold (dj hF) ‹_›
  · assumption
theorem held_setStage {s n} (hF : Dj F 0x1100200009) (hs : Held b0 F s) : Held b0 F (State.setStage s n) := by
  unfold State.setStage
  extract_lets -merge -underBinder +onlyGivenNames s
  have hs : Held b0 F s := held_wr (dj hF) ‹_› (off_SYS_START_STATUS_STAGE (dj hF))
  try clear_value s
  extract_lets -merge -underBinder +onlyGivenNames s
  have hs : Held b0 F s := by
    unfold s
    refine ite_ind (Q := Held b0 F) (fun _ => ?_) (fun _ => ?_)
    · exact held_wr (dj hF) ‹_› (off_SYS_STAGE_MS (dj hF))
    · assumption
  try clear_value s
  exact held_flag (dj hF) ‹_› (off_SYS_EVENT_STATUS_STAGE_CHANGED (dj hF))
theorem held_failSlots {s trial} (hF : Dj F 0x800000001) (hs : Held b0 F s) : Held b0 F (State.failSlots s trial) := by
  unfold State.failSlots
  extract_lets -merge -underBinder +onlyGivenNames s
  have hs : Held b0 F s := by
    unfold s
    split
    · refine ite_ind (Q := Held b0 F) (fun _ => ?_) (fun _ => ?_)
      · exact held_slotBad (dj hF) ‹_›
      · assumption
    · assumption
  try clear_value s
  refine foldl_ind (Q := Held b0 F) (fun s _ hs => ?_) ?_
  · refine ite_ind (Q := Held b0 F) (fun _ => ?_) (fun _ => ?_)
    · exact held_slotBad (dj hF) ‹_›
    · assumption
  · assumption
theorem held_saveBoot {s} (hF : Dj F 0x2) (hs : Held b0 F s) : Held b0 F (State.saveBoot s) := by
  unfold State.saveBoot
  exact held_modNv (dj hF) ‹_›
theorem held_moorSafety {s} (hF : Dj F 0x400000004001) (hs : Held b0 F s) : Held b0 F (State.moorSafety s) := by
  unfold State.moorSafety
  refine ite_ind (Q := Held b0 F) (fun _ => ?_) (fun _ => ?_)
  · exact held_showInputs (dj hF) (held_safStart (dj hF) ‹_›)
  · assumption
theorem held_startBus {s b} (hF : Dj F 0x1000000000001) (hs : Held b0 F s) : Held b0 F (State.startBus s b) := by
  unfold State.startBus
  extract_lets -merge -underBinder +onlyGivenNames r
  try clear_value r
  extract_lets -merge -underBinder +onlyGivenNames fl
  try clear_value fl
  extract_lets -merge -underBinder +onlyGivenNames s
  have hs : Held b0 F s := held_wr (dj hF) (held_wr (dj hF) ‹_› (off_MBC_STATUS_STATE (dj hF))) (off_MBC_STATUS_FORMAT (dj hF))
  try clear_value s
  extract_lets -merge -underBinder +onlyGivenNames s
  have hs : Held b0 F s := held_wrB (dj hF) (held_wrB (dj hF) ‹_› (off_MBC_STATUS_TERMINATION (dj hF))) (off_MBC_STATUS_TIME_MASTER (dj hF))
  try clear_value s
  extract_lets -merge -underBinder +onlyGivenNames s
  have hs : Held b0 F s := held_wrB (dj hF) ‹_› (off_MBC_STATUS_RECOVERY_INHIBITED (dj hF))
  try clear_value s
  split
  · assumption
  · extract_lets -merge -underBinder +onlyGivenNames s
    have hs : Held b0 F s := held_wr (dj hF) ‹_› (off_MBC_NOM_TIMING (dj hF))
    try clear_value s
    exact held_wr (dj hF) ‹_› (off_MBC_DATA_TIMING (dj hF))
theorem held_showDomains {s} (hF : Dj F 0x10000200000041) (hs : Held b0 F s) : Held b0 F (State.showDomains s) := by
  unfold State.showDomains
  extract_lets -merge -underBinder +onlyGivenNames was
  try clear_value was
  extract_lets -merge -underBinder +onlyGivenNames s
  have hs : Held b0 F s := by
    unfold s
    refine foldl_ind (Q := Held b0 F) (fun s _ hs => ?_) ?_
    · extract_lets -merge -underBinder +onlyGivenNames v
      try clear_value v
      exact held_wrB (dj hF) (held_wrB (dj hF) (held_wrB (dj hF) ‹_› (off_PWR_DOMAIN_LIVE (dj hF))) (off_PWR_DOMAIN_STATUS_LIVE (dj hF))) (off_PWR_DOMAIN_STATUS_HELD (dj hF))
    · assumption
  try clear_value s
  extract_lets -merge -underBinder +onlyGivenNames now
  try clear_value now
  extract_lets -merge -underBinder +onlyGivenNames s
  have hs : Held b0 F s := held_wrB (dj hF) ‹_› (off_PWR_PLL_STATUS (dj hF))
  try clear_value s
  refine foldl_ind (Q := Held b0 F) (fun s _ hs => ?_) ?_
  · refine ite_ind (Q := Held b0 F) (fun _ => ?_) (fun _ => ?_)
    · exact held_traceUp (dj hF) ‹_›
    · refine ite_ind (Q := Held b0 F) (fun _ => ?_) (fun _ => ?_)
      · exact held_traceDown (dj hF) ‹_›
      · assumption
  · assumption
theorem held_wipe {s keeps} (hF : Dj F 0x3FFFFF007FFFFF) (hs : Held b0 F s) : Held b0 F (State.wipe s keeps) := by
  unfold State.wipe
  exact held_wrB (dj hF) (held_wiped hF hs rfl (fun h => regsOk_filter _ _ h) rfl rfl) (off_SAF_STATUS_KEY_SWITCH (dj hF))
theorem held_startTrace {s} (hF : Dj F 0x10000000000043) (hs : Held b0 F s) : Held b0 F (State.startTrace s) := by
  unfold State.startTrace
  extract_lets -merge -underBinder +onlyGivenNames s
  have hs : Held b0 F s := held_trace (dj hF) ‹_›
  try clear_value s
  extract_lets -merge -underBinder +onlyGivenNames s
  have hs : Held b0 F s := by
    unfold s
    split
    · assumption
    · exact held_modNv (dj hF) (held_wrB (dj hF) (held_trace (dj hF) ‹_›) (off_REC_TRACE_STATUS_LOST_BERTH (dj hF)))
  try clear_value s
  refine foldl_ind (Q := Held b0 F) (fun _ _ hs => ?_) ?_
  · exact held_traceSync (dj hF) ‹_›
  · assumption
theorem held_walkLog {s} (hF : Dj F 0x1000100020000b) (hs : Held b0 F s) : Held b0 F (State.walkLog s) := by
  unfold State.walkLog
  extract_lets -merge -underBinder +onlyGivenNames s
  have hs : Held b0 F s := held_showLogState (dj hF) (held_incBy (dj hF) ‹_› (off_REC_TORN (dj hF)))
  try clear_value s
  extract_lets -merge -underBinder +onlyGivenNames slot
  try clear_value slot
  extract_lets -merge -underBinder +onlyGivenNames gen
  try clear_value gen
  exact held_record (dj hF) ‹_›
theorem held_enterFail {s code cycles opSec} (hF : Dj F 0x100000001) (hs : Held b0 F s) : Held b0 F (State.enterFail s code cycles opSec) := by
  unfold State.enterFail
  exact held_inc (dj hF) (held_setFails (dj hF) ‹_›) (off_SYS_STARTS_FAILED (dj hF))
theorem held_bootDone {s imageB} (hF : Dj F 0x1000150020004b) (hs : Held b0 F s) : Held b0 F (State.bootDone s imageB) := by
  unfold State.bootDone
  extract_lets -merge -underBinder +onlyGivenNames f
  try clear_value f
  extract_lets -merge -underBinder +onlyGivenNames ver
  try clear_value ver
  extract_lets -merge -underBinder +onlyGivenNames s
  have hs : Held b0 F s := held_wr (dj hF) (held_wrB (dj hF) ‹_› (off_SEC_FW_RUNNING (dj hF))) (off_SEC_FW_VERSION_A (dj hF))
  try clear_value s
  extract_lets -merge -underBinder +onlyGivenNames s
  have hs : Held b0 F s := held_wr (dj hF) (held_wr (dj hF) ‹_› (off_SEC_FW_VERSION_B (dj hF))) (off_SYS_FW_VERSION (dj hF))
  try clear_value s
  extract_lets -merge -underBinder +onlyGivenNames s
  have hs : Held b0 F s := held_wrB (dj hF) (held_wrB (dj hF) ‹_› (off_SEC_STATUS (dj hF))) (off_SEC_RNG_STATUS (dj hF))
  try clear_value s
  exact held_startTrace (dj hF) (held_walkLog (dj hF) ‹_›)
theorem held_holdPorts {s reason} (hF : Dj F 0x5000000818901) (hs : Held b0 F s) : Held b0 F (State.holdPorts s reason) := by
  unfold State.holdPorts
  extract_lets -merge -underBinder +onlyGivenNames s
  have hs : Held b0 F s := by
    unfold s
    refine foldl_ind (Q := Held b0 F) (fun s _ hs => ?_) ?_
    · refine ite_ind (Q := Held b0 F) (fun _ => ?_) (fun _ => ?_)
      · exact held_startBus (dj hF) ‹_›
      · assumption
    · exact held_holdMooring (dj hF) ‹_›
  try clear_value s
  extract_lets -merge -underBinder +onlyGivenNames s
  have hs : Held b0 F s := by
    unfold s
    refine foldl_ind (Q := Held b0 F) (fun s _ hs => ?_) ?_
    · exact held_canHold (dj hF) ‹_›
    · assumption
  try clear_value s
  refine foldl_ind (Q := Held b0 F) (fun s _ hs => ?_) ?_
  · exact held_holdLine (dj hF) ‹_›
  · assumption
theorem held_moor {s} (hF : Dj F 0x15c01300a0c91b) (hs : Held b0 F s) : Held b0 F (State.moor s) := by
  unfold State.moor
  extract_lets -merge -underBinder +onlyGivenNames s
  have hs : Held b0 F s := held_withCfg (dj hF) ‹_›
  try clear_value s
  extract_lets -merge -underBinder +onlyGivenNames s
  have hs : Held b0 F s := held_setStage (dj hF) (held_wrB (dj hF) ‹_› (off_SYS_START_STATUS_MOORING (dj hF)))
  try clear_value s
  extract_lets -merge -underBinder +onlyGivenNames s
  have hs : Held b0 F s := by
    unfold s
    refine foldl_ind (Q := Held b0 F) (fun _ _ hs => ?_) ?_
    · exact held_startBus (dj hF) ‹_›
    · exact held_inc (dj hF) ‹_› (off_SYS_MOORING_ENTRIES (dj hF))
  try clear_value s
  extract_lets -merge -underBinder +onlyGivenNames s
  have hs : Held b0 F s := held_wrB (dj hF) (held_wrB (dj hF) ‹_› (off_FIO_STATUS_RUNNING (dj hF))) (off_PWR_WATCHDOG_STATUS_RUNNING (dj hF))
  try clear_value s
  extract_lets -merge -underBinder +onlyGivenNames s
  have hs : Held b0 F s := held_moorSafety (dj hF) ‹_›
  try clear_value s
  extract_lets -merge -underBinder +onlyGivenNames codes
  try clear_value codes
  extract_lets -merge -underBinder +onlyGivenNames s
  have hs : Held b0 F s := held_raise (dj hF) ‹_›
  try clear_value s
  exact held_holdMooring (dj hF) (held_modHq (dj hF) ‹_›)
theorem held_failStart {s code} (hF : Dj F 0x900000007) (hs : Held b0 F s) : Held b0 F (State.failStart s code) := by
  unfold State.failStart
  refine ite_ind (Q := Held b0 F) (fun _ => ?_) (fun _ => ?_)
  · exact held_failSlots (dj hF) ‹_›
  · extract_lets -merge -underBinder +onlyGivenNames s
    have hs : Held b0 F s := held_failSlots (dj hF) (held_enterFail (dj hF) ‹_›)
    try clear_value s
    exact held_saveBoot (dj hF) (held_modBoll (dj hF) ‹_›)
theorem held_turidReset {hold : State → State} {s cause} (hF : Dj F 0x3fffff00ffffff) (hs : Held b0 F s) (hhold : ∀ y0, Held b0 F y0 → Held b0 F (hold y0)) : Held b0 F (State.turidReset s cause hold) := by
  unfold State.turidReset
  extract_lets -merge -underBinder +onlyGivenNames entered
  try clear_value entered
  extract_lets -merge -underBinder +onlyGivenNames s
  have hs : Held b0 F s := by
    unfold s
    refine ite_ind (Q := Held b0 F) (fun _ => ?_) (fun _ => ?_)
    · refine hhold _ ?_
      · assumption
    · assumption
  try clear_value s
  extract_lets -merge -underBinder +onlyGivenNames s
  have hs : Held b0 F s := held_recordTrip (dj hF) ‹_›
  try clear_value s
  extract_lets -merge -underBinder +onlyGivenNames s
  have hs : Held b0 F s := held_failStart (dj hF) (held_closeAll (dj hF) (held_outputsOff (dj hF) ‹_›))
  try clear_value s
  exact held_modBoll (dj hF) (held_wr (dj hF) (held_wipe (dj hF) ‹_›) (off_PWR_WAKE_CAUSE (dj hF)))
theorem held_outrank {s cause} (hF : Dj F 0x100000007) (hs : Held b0 F s) : Held b0 F (State.outrank s cause) := by
  unfold State.outrank
  split
  · refine ite_ind (Q := Held b0 F) (fun _ => ?_) (fun _ => ?_)
    · extract_lets -merge -underBinder +onlyGivenNames s
      have hs : Held b0 F s := by
        unfold s
        refine ite_ind (Q := Held b0 F) (fun _ => ?_) (fun _ => ?_)
        · exact held_wr (dj hF) ‹_› (off_SYS_FAIL_CODE (dj hF))
        · assumption
      try clear_value s
      exact held_saveBoot (dj hF) (held_modBoll (dj hF) ‹_›)
    · assumption
  · assumption
theorem held_stageFail {s code} (hF : Dj F 0x3fffff00ffffff) (hs : Held b0 F s) : Held b0 F (State.stageFail s code) := by
  unfold State.stageFail
  refine held_turidReset (dj hF) ?_ ?_
  · assumption
  · intro s hs
    assumption
theorem held_hostReset {s cause} (hF : Dj F 0x3fffff00ffffff) (hs : Held b0 F s) : Held b0 F (State.hostReset s cause) := by
  unfold State.hostReset
  refine held_turidReset (dj hF) ?_ ?_
  · assumption
  · intro s hs
    refine ite_ind (Q := Held b0 F) (fun _ => ?_) (fun _ => ?_)
    · exact held_holdPorts (dj hF) ‹_›
    · exact held_holdAll (dj hF) ‹_›
theorem held_faultReset {s cause} (hF : Dj F 0x3fffff00ffffff) (hs : Held b0 F s) : Held b0 F (State.faultReset s cause) := by
  unfold State.faultReset
  refine held_turidReset (dj hF) ?_ ?_
  · assumption
  · intro s hs
    exact held_holdRings (dj hF) ‹_›
theorem held_faultCause {s cause} (hF : Dj F 0x3fffff00ffffff) (hs : Held b0 F s) : Held b0 F (State.faultCause s cause) := by
  unfold State.faultCause
  refine ite_ind (Q := Held b0 F) (fun _ => ?_) (fun _ => ?_)
  · exact held_faultReset (dj hF) ‹_›
  · exact held_outrank (dj hF) ‹_›

end Sys2Proof.Machine
end

