-- ==== Sys2Proof/Laws/KeptStart.lean ====
section
/-!
SUPPORT. The operations of Machine/Start.lean change only the parts that their masks name (Laws/Held.lean).
-/
namespace Sys2Proof.Machine
open Sys2Proof
set_option Elab.async false

variable {b0 : State} {F : Nat}

theorem held_slotsHeld {s} (hF : Dj F 0x800000001) (hs : Held b0 F s) : Held b0 F (State.slotsHeld s) := by
  unfold State.slotsHeld
  refine ite_ind (Q := Held b0 F) (fun _ => ?_) (fun _ => ?_)
  · extract_lets -merge -underBinder +onlyGivenNames i
    try clear_value i
    extract_lets -merge -underBinder +onlyGivenNames now
    try clear_value now
    refine ite_ind (Q := Held b0 F) (fun _ => ?_) (fun _ => ?_)
    · assumption
    · refine ite_ind (Q := Held b0 F) (fun _ => ?_) (fun _ => ?_)
      · extract_lets -merge -underBinder +onlyGivenNames s
        have hs : Held b0 F s := held_slotTo (dj hF) ‹_›
        try clear_value s
        refine ite_ind (Q := Held b0 F) (fun _ => ?_) (fun _ => ?_)
        · exact held_slotTo (dj hF) ‹_›
        · assumption
      · assumption
  · assumption
theorem held_execFirmwareFatal {s} (hF : Dj F 0x3fffff00ffffff) (hs : Held b0 F s) : HeldR b0 F (execFirmwareFatal s) := by
  unfold execFirmwareFatal
  exact heldR_next (held_faultCause (dj hF) ‹_›)
theorem held_restoreStr {s i t r age} (hF : Dj F 0x600) (hs : Held b0 F s) : Held b0 F (State.restoreStr s i t r age) := by
  unfold State.restoreStr
  extract_lets -merge -underBinder +onlyGivenNames days
  try clear_value days
  extract_lets -merge -underBinder +onlyGivenNames gap
  try clear_value gap
  extract_lets -merge -underBinder +onlyGivenNames cell
  try clear_value cell
  extract_lets -merge -underBinder +onlyGivenNames zz0 x
  try clear_value x
  refine ite_ind (Q := Held b0 F) (fun _ => ?_) (fun _ => ?_)
  · extract_lets -merge -underBinder +onlyGivenNames s
    have hs : Held b0 F s := held_watchString (dj hF) (held_modPstr (dj hF) ‹_›)
    try clear_value s
    refine ite_ind (Q := Held b0 F) (fun _ => ?_) (fun _ => ?_)
    · exact held_setEst (dj hF) ‹_›
    · exact held_setEst (dj hF) ‹_›
  · exact held_setEst (dj hF) ‹_›
theorem held_loaded {s i recs} (hF : Dj F 0x10e0980120401b) (hs : Held b0 F s) : Held b0 F (State.loaded s i recs) := by
  unfold State.loaded
  extract_lets -merge -underBinder +onlyGivenNames x
  try clear_value x
  extract_lets -merge -underBinder +onlyGivenNames chk
  try clear_value chk
  extract_lets -merge -underBinder +onlyGivenNames s
  have hs : Held b0 F s := held_loadError (dj hF) (held_withCfg (dj hF) ‹_›)
  try clear_value s
  extract_lets -merge -underBinder +onlyGivenNames s
  have hs : Held b0 F s := held_wrB (dj hF) (held_wrB (dj hF) (held_wr (dj hF) ‹_› (off_MAN_STATUS_LOADED_SLOT (dj hF))) (off_MAN_STATUS_LOADED (dj hF))) (off_MAN_STATUS_FROM_STANDBY (dj hF))
  try clear_value s
  extract_lets -merge -underBinder +onlyGivenNames s
  have hs : Held b0 F s := held_wr (dj hF) (held_wr (dj hF) (held_wr (dj hF) ‹_› (off_MAN_KEY_ID (dj hF))) (off_MAN_ACTIVE_GEN (dj hF))) (off_MAN_ACTIVE_EPOCH (dj hF))
  try clear_value s
  extract_lets -merge -underBinder +onlyGivenNames s
  have hs : Held b0 F s := held_showLog (dj hF) (held_wr64 (dj hF) (held_wr (dj hF) ‹_› (off_MAN_SAFETY_CHECK (dj hF))) (off_MAN_BUILD_TIME_LO (dj hF)))
  try clear_value s
  extract_lets -merge -underBinder +onlyGivenNames s
  have hs : Held b0 F s := held_wr (dj hF) (held_wr (dj hF) ‹_› (off_SAF_CHECK_PROC (dj hF))) (off_SAF_CHECK_HW (dj hF))
  try clear_value s
  extract_lets -merge -underBinder +onlyGivenNames bad
  try clear_value bad
  extract_lets -merge -underBinder +onlyGivenNames s
  have hs : Held b0 F s := held_wrB (dj hF) (held_wrB (dj hF) ‹_› (off_MAN_STATUS_SAFETY_UNCONFIRMED (dj hF))) (off_SAF_STATUS_UNCONFIRMED (dj hF))
  try clear_value s
  extract_lets -merge -underBinder +onlyGivenNames s
  have hs : Held b0 F s := by
    unfold s
    refine ite_ind (Q := Held b0 F) (fun _ => ?_) (fun _ => ?_)
    · exact held_flag (dj hF) ‹_› (off_MAN_EVENT_STATUS_SAFETY_MISMATCH (dj hF))
    · assumption
  try clear_value s
  extract_lets -merge -underBinder +onlyGivenNames s
  have hs : Held b0 F s := held_wr (dj hF) ‹_› (off_PLT_SOURCE_SELECT_SELECTED (dj hF))
  try clear_value s
  extract_lets -merge -underBinder +onlyGivenNames s
  have hs : Held b0 F s := held_safEval (dj hF) (held_showConns (dj hF) (held_safStart (dj hF) (held_fioLoad (dj hF) (held_wrB (dj hF) ‹_› (off_FIO_STATUS_RUNNING (dj hF))))))
  try clear_value s
  refine foldl_ind (Q := Held b0 F) (fun s _ hs => ?_) ?_
  · refine ite_ind (Q := Held b0 F) (fun _ => ?_) (fun _ => ?_)
    · assumption
    · refine ite_ind (Q := Held b0 F) (fun _ => ?_) (fun _ => ?_)
      · exact held_setQuality (dj hF) ‹_›
      · exact held_setQuality (dj hF) ‹_›
  · assumption
theorem held_execHoldRepeatTimer {s} (hF : Dj F 0x4000000808901) (hs : Held b0 F s) : HeldR b0 F (execHoldRepeatTimer s) := by
  unfold execHoldRepeatTimer
  refine heldR_next ?_
  refine ite_ind (Q := Held b0 F) (fun _ => ?_) (fun _ => ?_)
  · assumption
  · refine ite_ind (Q := Held b0 F) (fun _ => ?_) (fun _ => ?_)
    · exact held_holdMooring (dj hF) ‹_›
    · refine ite_ind (Q := Held b0 F) (fun _ => ?_) (fun _ => ?_)
      · exact held_holdRings (dj hF) ‹_›
      · refine ite_ind (Q := Held b0 F) (fun _ => ?_) (fun _ => ?_)
        · exact held_holdPcs (dj hF) (held_holdRings (dj hF) ‹_›)
        · assumption
theorem held_restoreBoot {s} (hF : Dj F 0x300000001) (hs : Held b0 F s) : Held b0 F (State.restoreBoot s) := by
  unfold State.restoreBoot
  extract_lets -merge -underBinder +onlyGivenNames x
  try clear_value x
  extract_lets -merge -underBinder +onlyGivenNames s
  have hs : Held b0 F s := held_wr (dj hF) (held_wr (dj hF) (held_wr (dj hF) (held_wr (dj hF) ‹_› (off_SYS_FAILED_STARTS (dj hF))) (off_PWR_OP_SECONDS (dj hF))) (off_PWR_OP_MS (dj hF))) (off_PWR_POWER_CYCLES (dj hF))
  try clear_value s
  extract_lets -merge -underBinder +onlyGivenNames s
  have hs : Held b0 F s := held_setFails (dj hF) ‹_›
  try clear_value s
  refine ite_ind (Q := Held b0 F) (fun _ => ?_) (fun _ => ?_)
  · assumption
  · exact held_enterFail (dj hF) ‹_›
theorem held_execEngineHaltTimeout {s} (hF : Dj F 0x3fffff00ffffff) (hs : Held b0 F s) : HeldR b0 F (execEngineHaltTimeout s) := by
  unfold execEngineHaltTimeout
  refine heldR_next ?_
  refine ite_ind (Q := Held b0 F) (fun _ => ?_) (fun _ => ?_)
  · exact held_faultReset (dj hF) ‹_›
  · assumption
theorem held_showSelftest {s cores lanes pairs dram xng pos mbc ser} (hF : Dj F 0x100000003) (hs : Held b0 F s) : Held b0 F (State.showSelftest s cores lanes pairs dram xng pos mbc ser) := by
  unfold State.showSelftest
  extract_lets -merge -underBinder +onlyGivenNames s
  have hs : Held b0 F s := held_wr (dj hF) (held_wr (dj hF) (held_wr (dj hF) (held_wr (dj hF) ‹_› (off_SYS_SELFTEST_CORES_GOOD (dj hF))) (off_SYS_SELFTEST_LANES_GOOD (dj hF))) (off_SYS_SELFTEST_PAIRS (dj hF))) (off_SYS_SELFTEST_DRAM_CHANNELS (dj hF))
  try clear_value s
  extract_lets -merge -underBinder +onlyGivenNames s
  have hs : Held b0 F s := held_wr (dj hF) (held_wr (dj hF) (held_wr (dj hF) (held_wr (dj hF) ‹_› (off_SYS_SELFTEST_XNG_FAILED (dj hF))) (off_SYS_SELFTEST_PORTS_POS_FAILED (dj hF))) (off_SYS_SELFTEST_PORTS_MBC_FAILED (dj hF))) (off_SYS_SELFTEST_PORTS_SER_FAILED (dj hF))
  try clear_value s
  exact held_modNv (dj hF) ‹_›
theorem held_execBrownOut {s} (hF : Dj F 0x3fffff00ffffff) (hs : Held b0 F s) : HeldR b0 F (execBrownOut s) := by
  unfold execBrownOut
  exact heldR_next (held_faultCause (dj hF) ‹_›)
theorem held_startLines {s} (hF : Dj F 0x2000000000001) (hs : Held b0 F s) : Held b0 F (State.startLines s) := by
  unfold State.startLines
  refine foldl_ind (Q := Held b0 F) (fun s _ hs => ?_) ?_
  · extract_lets -merge -underBinder +onlyGivenNames l
    try clear_value l
    extract_lets -merge -underBinder +onlyGivenNames s
    have hs : Held b0 F s := held_wr (dj hF) (held_wr (dj hF) ‹_› (off_serState (dj hF))) (off_SER_RATE (dj hF))
    try clear_value s
    exact held_wrB (dj hF) (held_wrB (dj hF) ‹_› (off_SER_STATUS (dj hF))) (off_SER_STATUS (dj hF))
  · assumption
theorem held_powerLate {s} (hF : Dj F 0x3fffff00ffffff) (hs : Held b0 F s) : Held b0 F (State.powerLate s) := by
  unfold State.powerLate
  exact held_stageFail (dj hF) (held_saveBoot (dj hF) (held_enterFail (dj hF) ‹_›))
theorem held_raiseFloor {s} (hF : Dj F 0x400000001) (hs : Held b0 F s) : Held b0 F (State.raiseFloor s) := by
  unfold State.raiseFloor
  refine ite_ind (Q := Held b0 F) (fun _ => ?_) (fun _ => ?_)
  · exact held_wr (dj hF) ‹_› (off_SEC_FW_FLOOR (dj hF))
  · assumption
theorem held_slotFails {s i e} (hF : Dj F 0x1c00200009) (hs : Held b0 F s) : Held b0 F (State.slotFails s i e) := by
  unfold State.slotFails
  exact held_flag (dj hF) (held_countSig (dj hF) (held_loadError (dj hF) (held_slotBad (dj hF) ‹_›))) (off_MAN_EVENT_STATUS_LOAD_FAILED (dj hF))
theorem held_fwCommit {s sess tag valid version floor} (hF : Dj F 0x3fffff00ffffff) (hs : Held b0 F s) : Held b0 F (State.fwCommit s sess tag valid version floor) := by
  unfold State.fwCommit
  split
  · exact held_reply (dj hF) (held_loadCode (dj hF) ‹_›)
  · refine ite_ind (Q := Held b0 F) (fun _ => ?_) (fun _ => ?_)
    · exact held_reply (dj hF) (held_loadCode (dj hF) ‹_›)
    · refine ite_ind (Q := Held b0 F) (fun _ => ?_) (fun _ => ?_)
      · exact held_reply (dj hF) (held_loadCode (dj hF) (held_stageGone (dj hF) ‹_›))
      · extract_lets -merge -underBinder +onlyGivenNames s
        have hs : Held b0 F s := held_stageGone (dj hF) ‹_›
        try clear_value s
        extract_lets -merge -underBinder +onlyGivenNames new
        try clear_value new
        refine ite_ind (Q := Held b0 F) (fun _ => ?_) (fun _ => ?_)
        · extract_lets -merge -underBinder +onlyGivenNames a
          try clear_value a
          extract_lets -merge -underBinder +onlyGivenNames s
          have hs : Held b0 F s := held_modNv (dj hF) ‹_›
          try clear_value s
          refine held_turidReset (dj hF) ?_ ?_
          · exact held_reply (dj hF) (held_loadCode (dj hF) ‹_›)
          · intro s hs
            assumption
        · exact held_reply (dj hF) (held_loadCode (dj hF) (held_inc (dj hF) ‹_› (off_SEC_SIG_FAILS (dj hF))))
theorem held_execStageTimeout {s} (hF : Dj F 0x3fffff00ffffff) (hs : Held b0 F s) : HeldR b0 F (execStageTimeout s) := by
  unfold execStageTimeout
  refine heldR_next ?_
  split
  · exact held_powerLate (dj hF) (held_restoreBoot (dj hF) ‹_›)
  · exact held_powerLate (dj hF) ‹_›
  · extract_lets -merge -underBinder +onlyGivenNames n
    try clear_value n
    refine ite_ind (Q := Held b0 F) (fun _ => ?_) (fun _ => ?_)
    · exact held_stageFail (dj hF) ‹_›
    · refine ite_ind (Q := Held b0 F) (fun _ => ?_) (fun _ => ?_)
      · exact held_stageFail (dj hF) ‹_›
      · assumption
  · assumption
theorem held_succeed {s} (hF : Dj F 0x1d0020000f) (hs : Held b0 F s) : Held b0 F (State.succeed s) := by
  unfold State.succeed
  extract_lets -merge -underBinder +onlyGivenNames s
  have hs : Held b0 F s := held_wr (dj hF) (held_wrB (dj hF) (held_wr (dj hF) ‹_› (off_SYS_FAILED_STARTS (dj hF))) (off_SYS_START_STATUS_SUCCEEDED (dj hF))) (off_SYS_LAST_SUCCESS_OPSEC (dj hF))
  try clear_value s
  extract_lets -merge -underBinder +onlyGivenNames s
  have hs : Held b0 F s := held_saveBoot (dj hF) (held_modBoll (dj hF) ‹_›)
  try clear_value s
  exact held_flag (dj hF) (held_raiseFloor (dj hF) (held_slotsHeld (dj hF) ‹_›)) (off_SYS_EVENT_STATUS_START_SUCCEEDED (dj hF))
theorem held_goUnderway {s} (hF : Dj F 0x18c89301a2482b) (hs : Held b0 F s) : Held b0 F (State.goUnderway s) := by
  unfold State.goUnderway
  extract_lets -merge -underBinder +onlyGivenNames s
  have hs : Held b0 F s := held_modPwr (dj hF) (held_wr (dj hF) (held_setStage (dj hF) ‹_›) (off_PWR_WAKE_LATCH (dj hF)))
  try clear_value s
  extract_lets -merge -underBinder +onlyGivenNames s
  have hs : Held b0 F s := held_billStart (dj hF) (held_wrB (dj hF) (held_wr (dj hF) ‹_› (off_PLT_DISP_STATUS_MODE (dj hF))) (off_FIO_STATUS_OUTPUTS_ENABLED (dj hF)))
  try clear_value s
  extract_lets -merge -underBinder +onlyGivenNames src
  try clear_value src
  extract_lets -merge -underBinder +onlyGivenNames s
  have hs : Held b0 F s := by
    unfold s
    refine ite_ind (Q := Held b0 F) (fun _ => ?_) (fun _ => ?_)
    · exact held_fallBack (dj hF) ‹_›
    · exact held_useSource (dj hF) ‹_›
  try clear_value s
  exact held_safety (dj hF) (held_acqStart (dj hF) ‹_›)
theorem held_startPorts {s} (hF : Dj F 0x4000000400001) (hs : Held b0 F s) : Held b0 F (State.startPorts s) := by
  unfold State.startPorts
  extract_lets -merge -underBinder +onlyGivenNames s
  have hs : Held b0 F s := by
    unfold s
    refine foldl_ind (Q := Held b0 F) (fun s _ hs => ?_) ?_
    · extract_lets -merge -underBinder +onlyGivenNames s
      have hs : Held b0 F s := held_wrB (dj hF) (held_wr (dj hF) ‹_› (off_NET_PORT_IPV4 (dj hF))) (off_NET_PORT_STATUS (dj hF))
      try clear_value s
      refine ite_ind (Q := Held b0 F) (fun _ => ?_) (fun _ => ?_)
      · exact held_wr (dj hF) ‹_› (off_NET_PTP_PORT_STATES (dj hF))
      · assumption
    · assumption
  try clear_value s
  extract_lets -merge -underBinder +onlyGivenNames s
  have hs : Held b0 F s := held_modNet (dj hF) (held_wrB (dj hF) ‹_› (off_NET_PTP_STATUS_ROLE (dj hF)))
  try clear_value s
  extract_lets -merge -underBinder +onlyGivenNames s
  have hs : Held b0 F s := held_wrB (dj hF) ‹_› (off_NET_PRP_STATUS (dj hF))
  try clear_value s
  exact held_wrB (dj hF) ‹_› (off_NET_MODBUS_STATUS (dj hF))
theorem held_startControl {f : State → State} {s sess key ok} (hF : Dj F 0x100000001) (hs : Held b0 F s) (hf : ∀ y0, Held b0 F y0 → Held b0 F (f y0)) : Held b0 F (State.startControl s sess key ok f) := by
  unfold State.startControl
  refine ite_ind (Q := Held b0 F) (fun _ => ?_) (fun _ => ?_)
  · assumption
  · refine ite_ind (Q := Held b0 F) (fun _ => ?_) (fun _ => ?_)
    · exact held_wr (dj hF) ‹_› (off_SYS_START_STATUS_CONTROL_RESULT (dj hF))
    · refine ite_ind (Q := Held b0 F) (fun _ => ?_) (fun _ => ?_)
      · exact held_wr (dj hF) ‹_› (off_SYS_START_STATUS_CONTROL_RESULT (dj hF))
      · refine hf _ ?_
        · exact held_wr (dj hF) ‹_› (off_SYS_START_STATUS_CONTROL_RESULT (dj hF))
theorem held_execStartTimeout {s} (hF : Dj F 0x3fffff00ffffff) (hs : Held b0 F s) : HeldR b0 F (execStartTimeout s) := by
  unfold execStartTimeout
  refine heldR_next ?_
  refine ite_ind (Q := Held b0 F) (fun _ => ?_) (fun _ => ?_)
  · refine ite_ind (Q := Held b0 F) (fun _ => ?_) (fun _ => ?_)
    · exact held_faultReset (dj hF) ‹_›
    · assumption
  · exact held_outrank (dj hF) ‹_›
theorem held_recover {s} (hF : Dj F 0x10001f00a0014f) (hs : Held b0 F s) : Held b0 F (State.recover s) := by
  unfold State.recover
  extract_lets -merge -underBinder +onlyGivenNames s
  have hs : Held b0 F s := held_failStart (dj hF) ‹_›
  try clear_value s
  extract_lets -merge -underBinder +onlyGivenNames s
  have hs : Held b0 F s := held_modBoll (dj hF) (held_wrB (dj hF) (held_startTrace (dj hF) (held_walkLog (dj hF) ‹_›)) (off_PWR_WATCHDOG_STATUS_RUNNING (dj hF)))
  try clear_value s
  exact held_holdRings (dj hF) (held_setStage (dj hF) (held_wrB (dj hF) ‹_› (off_SEC_RNG_STATUS (dj hF))))
theorem held_execPartnersDone {s} (hF : Dj F 0x18c89301a2482b) (hs : Held b0 F s) : HeldR b0 F (execPartnersDone s) := by
  unfold execPartnersDone
  refine heldR_next ?_
  refine ite_ind (Q := Held b0 F) (fun _ => ?_) (fun _ => ?_)
  · exact held_goUnderway (dj hF) ‹_›
  · assumption
theorem held_judgeStart {s} (hF : Dj F 0x100000005) (hs : Held b0 F s) : Held1 b0 F (State.judgeStart s) := by
  unfold State.judgeStart
  extract_lets -merge -underBinder +onlyGivenNames n
  try clear_value n
  extract_lets -merge -underBinder +onlyGivenNames on
  try clear_value on
  extract_lets -merge -underBinder +onlyGivenNames s
  have hs : Held b0 F s := held_modBoll (dj hF) (held_wrB (dj hF) ‹_› (off_SYS_START_STATUS_ATTEMPT_LATCHED (dj hF)))
  try clear_value s
  refine ite_ind (Q := Held1 b0 F) (fun _ => ?_) (fun _ => ?_)
  · exact held1_mk (held_wr (dj hF) ‹_› (off_SYS_FAILED_STARTS (dj hF)))
  · refine ite_ind (Q := Held1 b0 F) (fun _ => ?_) (fun _ => ?_)
    · exact held1_mk (held_wr (dj hF) ‹_› (off_SYS_FAILED_STARTS (dj hF)))
    · exact held1_mk ‹_›
theorem held_await {s} (hF : Dj F 0x1100a00129) (hs : Held b0 F s) : Held b0 F (State.await s) := by
  unfold State.await
  exact held_holdRings (dj hF) (held_modPwr (dj hF) (held_setStage (dj hF) ‹_›))
theorem held_recordAbsorbed {s short} (hF : Dj F 0x1000110020000b) (hs : Held b0 F s) : Held b0 F (State.recordAbsorbed s short) := by
  unfold State.recordAbsorbed
  refine foldl_ind (Q := Held b0 F) (fun s _ hs => ?_) ?_
  · exact held_recordBit (dj hF) ‹_› (off_SYS_EVENT_STATUS_STAGE_CHANGED (dj hF))
  · assumption
theorem held_execAttemptStart {sess key s} (hF : Dj F 0x3fffff00ffffff) (hs : Held b0 F s) : HeldR b0 F (execAttemptStart sess key s) := by
  unfold execAttemptStart
  refine heldR_next ?_
  refine held_startControl (dj hF) ?_ ?_
  · assumption
  · intro s hs
    exact held_hostReset (dj hF) (held_saveBoot (dj hF) (held_wrB (dj hF) (held_modBoll (dj hF) ‹_›) (off_SYS_START_STATUS_ATTEMPT_LATCHED (dj hF))))
theorem held_execBootVerifyFailed {s} (hF : Dj F 0x10001f00a0014f) (hs : Held b0 F s) : HeldR b0 F (execBootVerifyFailed s) := by
  unfold execBootVerifyFailed
  refine heldR_next ?_
  refine ite_ind (Q := Held b0 F) (fun _ => ?_) (fun _ => ?_)
  · exact held_recover (dj hF) (held_modNv (dj hF) ‹_›)
  · assumption
theorem held_markAbsent {s p} (hF : Dj F 0x100) (hs : Held b0 F s) : Held b0 F (State.markAbsent s p) := by
  unfold State.markAbsent
  refine ite_ind (Q := Held b0 F) (fun _ => ?_) (fun _ => ?_)
  · assumption
  · exact held_mk_xng (dj hF) ‹_›
theorem held_supply {s a b bkp} (hF : Dj F 0x200000001) (hs : Held b0 F s) : Held b0 F (State.supply s a b bkp) := by
  unfold State.supply
  exact held_wrB (dj hF) (held_wrB (dj hF) (held_wrB (dj hF) (held_wrB (dj hF) ‹_› (off_PWR_SUPPLY_STATUS_A_GOOD (dj hF))) (off_PWR_SUPPLY_STATUS_B_GOOD (dj hF))) (off_PWR_SUPPLY_STATUS_BKP_GOOD (dj hF))) (off_PWR_SUPPLY_STATUS_ON_BKP (dj hF))
theorem held_execFirmwareCommit {sess tag valid version floor s} (hF : Dj F 0x3fffff00ffffff) (hs : Held b0 F s) : HeldR b0 F (execFirmwareCommit sess tag valid version floor s) := by
  unfold execFirmwareCommit
  refine heldR_next ?_
  refine ite_ind (Q := Held b0 F) (fun _ => ?_) (fun _ => ?_)
  · refine held_helm (dj hF) ?_ ?_
    · assumption
    · intro s hs
      exact held_fwCommit (dj hF) ‹_›
  · assumption
theorem held_restoreStrings {s c} (hF : Dj F 0x600) (hs : Held b0 F s) : Held b0 F (State.restoreStrings s c) := by
  unfold State.restoreStrings
  refine foldl_ind (Q := Held b0 F) (fun s _ hs => ?_) ?_
  · split
    · refine ite_ind (Q := Held b0 F) (fun _ => ?_) (fun _ => ?_)
      · exact held_restoreStr (dj hF) ‹_›
      · exact held_setEst (dj hF) ‹_›
    · exact held_setEst (dj hF) ‹_›
  · assumption
theorem held_execPartnerAbsentTimeout {kind a b s} (hF : Dj F 0x100) (hs : Held b0 F s) : HeldR b0 F (execPartnerAbsentTimeout kind a b s) := by
  unfold execPartnerAbsentTimeout
  extract_lets -merge -underBinder +onlyGivenNames p
  try clear_value p
  refine heldR_next ?_
  refine ite_ind (Q := Held b0 F) (fun _ => ?_) (fun _ => ?_)
  · exact held_markAbsent (dj hF) ‹_›
  · assumption
theorem held_restoreLearnedValues {s} (hF : Dj F 0x4100000601) (hs : Held b0 F s) : Held b0 F (State.restoreLearnedValues s) := by
  unfold State.restoreLearnedValues
  split
  · exact held_restoreStrings (dj hF) ‹_›
  · extract_lets -merge -underBinder +onlyGivenNames s
    have hs : Held b0 F s := by
      unfold s
      refine foldl_ind (Q := Held b0 F) (fun s _ hs => ?_) ?_
      · exact held_setEst (dj hF) ‹_›
      · assumption
    try clear_value s
    exact held_wrB (dj hF) (held_wrB (dj hF) ‹_› (off_SYS_START_STATUS_LEARNED_DEFAULTED (dj hF))) (off_EST_STATUS_DEFAULTED (dj hF))
theorem held_execStartHoldElapsed {s} (hF : Dj F 0x1d0020000f) (hs : Held b0 F s) : HeldR b0 F (execStartHoldElapsed s) := by
  unfold execStartHoldElapsed
  refine heldR_next ?_
  refine ite_ind (Q := Held b0 F) (fun _ => ?_) (fun _ => ?_)
  · exact held_succeed (dj hF) ‹_›
  · assumption
theorem held_powerGood {s cause ms} (hF : Dj F 0x15c01700a0c97f) (hs : Held b0 F s) : Held b0 F (State.powerGood s cause ms) := by
  unfold State.powerGood
  extract_lets -merge -underBinder +onlyGivenNames s
  have hs : Held b0 F s := held_inc (dj hF) (held_incSat (dj hF) ‹_› (off_PWR_POWER_CYCLES (dj hF))) (off_SYS_STARTS (dj hF))
  try clear_value s
  extract_lets -merge -underBinder +onlyGivenNames s
  have hs : Held b0 F s := held_modBoll (dj hF) (held_wr (dj hF) ‹_› (off_SYS_BOOT_CAUSE (dj hF)))
  try clear_value s
  extract_lets -merge -underBinder +onlyGivenNames s
  have hs : Held b0 F s := by
    unfold s
    refine ite_ind (Q := Held b0 F) (fun _ => ?_) (fun _ => ?_)
    · exact held_modNv (dj hF) ‹_›
    · assumption
  try clear_value s
  extract_lets -merge -underBinder +onlyGivenNames s
  have hs : Held b0 F s := held_modPwr (dj hF) ‹_›
  try clear_value s
  extract_lets -merge -underBinder +onlyGivenNames s
  have hs : Held b0 F s := held_wr (dj hF) (held_wr (dj hF) (held_wr (dj hF) ‹_› (off_PWR_PLL_STATUS (dj hF))) (off_SYS_STAGE_MS (dj hF))) (off_SYS_STAGE_MS (dj hF))
  try clear_value s
  extract_lets -merge -underBinder +onlyGivenNames s
  have hs : Held b0 F s := held_wrB (dj hF) (held_wr (dj hF) ‹_› (off_PWR_WATCHDOG_STATUS_REMAINING_MS (dj hF))) (off_PWR_WATCHDOG_STATUS_RUNNING (dj hF))
  try clear_value s
  split
  rename_i s go heq
  have hs : Held b0 F s := held1_eq heq (by
    exact held_judgeStart (dj hF) ‹_›
    )
  clear heq
  extract_lets -merge -underBinder +onlyGivenNames s
  have hs : Held b0 F s := held_modBoll (dj hF) ‹_›
  try clear_value s
  extract_lets -merge -underBinder +onlyGivenNames s
  have hs : Held b0 F s := held_modMan (dj hF) ‹_›
  try clear_value s
  extract_lets -merge -underBinder +onlyGivenNames s
  have hs : Held b0 F s := held_saveBoot (dj hF) ‹_›
  try clear_value s
  split
  · exact held_moor (dj hF) (held_bootDone (dj hF) ‹_›)
  · assumption
theorem held_loadSlots {s} (hF : Dj F 0x10e09c0120401b) (hs : Held b0 F s) : Held2 b0 F (State.loadSlots s) := by
  unfold State.loadSlots
  split
  · exact held2_mk ‹_›
  · split
    · exact held2_mk (held_loaded (dj hF) ‹_›)
    · extract_lets -merge -underBinder +onlyGivenNames s
      have hs : Held b0 F s := held_slotFails (dj hF) ‹_›
      try clear_value s
      extract_lets -merge -underBinder +onlyGivenNames j
      try clear_value j
      refine ite_ind (Q := Held2 b0 F) (fun _ => ?_) (fun _ => ?_)
      · split
        · exact held2_mk (held_loaded (dj hF) ‹_›)
        · exact held2_mk (held_slotFails (dj hF) ‹_›)
      · exact held2_mk ‹_›
theorem held_afterSafety {s} (hF : Dj F 0x1100a00129) (hs : Held b0 F s) : Held b0 F (State.afterSafety s) := by
  unfold State.afterSafety
  refine ite_ind (Q := Held b0 F) (fun _ => ?_) (fun _ => ?_)
  · assumption
  · refine ite_ind (Q := Held b0 F) (fun _ => ?_) (fun _ => ?_)
    · refine ite_ind (Q := Held b0 F) (fun _ => ?_) (fun _ => ?_)
      · exact held_await (dj hF) ‹_›
      · exact held_setStage (dj hF) ‹_›
    · refine ite_ind (Q := Held b0 F) (fun _ => ?_) (fun _ => ?_)
      · exact held_flag (dj hF) (held_wr (dj hF) ‹_› (off_SYS_START_STATUS_STAGE (dj hF))) (off_SYS_EVENT_STATUS_STAGE_CHANGED (dj hF))
      · assumption
theorem held_portsStart {s} (hF : Dj F 0x171cf000e4010b) (hs : Held b0 F s) : Held b0 F (State.portsStart s) := by
  unfold State.portsStart
  extract_lets -merge -underBinder +onlyGivenNames s
  have hs : Held b0 F s := by
    unfold s
    refine foldl_ind (Q := Held b0 F) (fun s _ hs => ?_) ?_
    · exact held_startBus (dj hF) ‹_›
    · assumption
  try clear_value s
  extract_lets -merge -underBinder +onlyGivenNames s
  have hs : Held b0 F s := held_doorStart (dj hF) (held_startPorts (dj hF) (held_startLines (dj hF) ‹_›))
  try clear_value s
  extract_lets -merge -underBinder +onlyGivenNames s
  have hs : Held b0 F s := by
    unfold s
    refine foldl_ind (Q := Held b0 F) (fun s _ hs => ?_) ?_
    · exact held_wr (dj hF) (held_wr (dj hF) ‹_› (off_CAR_STATUS_STATE (dj hF))) (off_GRP_CAR_STATE_STATE (dj hF))
    · assumption
  try clear_value s
  extract_lets -merge -underBinder +onlyGivenNames s
  have hs : Held b0 F s := by
    unfold s
    refine foldl_ind (Q := Held b0 F) (fun s _ hs => ?_) ?_
    · exact held_showPcs (dj hF) ‹_›
    · exact held_wrB (dj hF) (held_wrB (dj hF) ‹_› (off_EST_STATUS_RUNNING (dj hF))) (off_PLT_PROT_STATUS_RUNNING (dj hF))
  try clear_value s
  extract_lets -merge -underBinder +onlyGivenNames s
  have hs : Held b0 F s := by
    unfold s
    refine foldl_ind (Q := Held b0 F) (fun s _ hs => ?_) ?_
    · exact held_discover (dj hF) (held_replan (dj hF) ‹_›)
    · assumption
  try clear_value s
  refine foldl_ind (Q := Held b0 F) (fun _ _ hs => ?_) ?_
  · exact held_markAbsent (dj hF) ‹_›
  · assumption
theorem held_execHostReset {sess key s} (hF : Dj F 0x3fffff00ffffff) (hs : Held b0 F s) : HeldR b0 F (execHostReset sess key s) := by
  unfold execHostReset
  refine heldR_next ?_
  refine held_startControl (dj hF) ?_ ?_
  · assumption
  · intro s hs
    exact held_hostReset (dj hF) ‹_›
theorem held_execLearnedRestoreDone {s} (hF : Dj F 0x171cf100e4070b) (hs : Held b0 F s) : HeldR b0 F (execLearnedRestoreDone s) := by
  unfold execLearnedRestoreDone
  refine heldR_next ?_
  refine ite_ind (Q := Held b0 F) (fun _ => ?_) (fun _ => ?_)
  · exact held_portsStart (dj hF) (held_setStage (dj hF) (held_showCkpt (dj hF) (held_restoreLearnedValues (dj hF) ‹_›)))
  · assumption
theorem held_selfTest {s cores lanes dram xng pos mbc ser pipes dramOk nvm pllOk} (hF : Dj F 0x3fffff00ffffff) (hs : Held b0 F s) : Held b0 F (State.selfTest s cores lanes dram xng pos mbc ser pipes dramOk nvm pllOk) := by
  unfold State.selfTest
  extract_lets -merge -underBinder +onlyGivenNames s
  have hs : Held b0 F s := by
    unfold s
    refine held_formPairs (dj hF) ?_
    refine foldl_ind (Q := Held b0 F) (fun s _ hs => ?_) ?_
    · exact held_wr (dj hF) ‹_› (off_pipeFld (dj hF))
    · assumption
  try clear_value s
  extract_lets -merge -underBinder +onlyGivenNames pairs
  try clear_value pairs
  extract_lets -merge -underBinder +onlyGivenNames s
  have hs : Held b0 F s := held_showSelftest (dj hF) ‹_›
  try clear_value s
  extract_lets -merge -underBinder +onlyGivenNames code
  try clear_value code
  refine ite_ind (Q := Held b0 F) (fun _ => ?_) (fun _ => ?_)
  · exact held_stageFail (dj hF) ‹_›
  · extract_lets -merge -underBinder +onlyGivenNames s
    have hs : Held b0 F s := held_recordAbsorbed (dj hF) ‹_›
    try clear_value s
    exact held_showCores (dj hF) (held_loopFresh (dj hF) (held_setStage (dj hF) ‹_›))
theorem held_execSafetySelftestDone {procOk hwOk s} (hF : Dj F 0x3fffff00ffffff) (hs : Held b0 F s) : HeldR b0 F (execSafetySelftestDone procOk hwOk s) := by
  unfold execSafetySelftestDone
  refine heldR_next ?_
  refine ite_ind (Q := Held b0 F) (fun _ => ?_) (fun _ => ?_)
  · refine ite_ind (Q := Held b0 F) (fun _ => ?_) (fun _ => ?_)
    · extract_lets -merge -underBinder +onlyGivenNames s
      have hs : Held b0 F s := held_wr (dj hF) (held_wr (dj hF) ‹_› (off_SAF_TECH_STATUS_PROC_STATE (dj hF))) (off_SAF_TECH_STATUS_HW_STATE (dj hF))
      try clear_value s
      extract_lets -merge -underBinder +onlyGivenNames s
      have hs : Held b0 F s := held_wrB (dj hF) (held_wrB (dj hF) ‹_› (off_SAF_STATUS_PROC_OK (dj hF))) (off_SAF_STATUS_HW_OK (dj hF))
      try clear_value s
      refine ite_ind (Q := Held b0 F) (fun _ => ?_) (fun _ => ?_)
      · exact held_moorSafety (dj hF) ‹_›
      · exact held_afterSafety (dj hF) ‹_›
    · refine ite_ind (Q := Held b0 F) (fun _ => ?_) (fun _ => ?_)
      · exact held_stageFail (dj hF) ‹_›
      · assumption
  · assumption
theorem held_execSelfTestDone {cores lanes dram xng pos mbc ser pipes dramOk nvm pllOk s} (hF : Dj F 0x3fffff00ffffff) (hs : Held b0 F s) : HeldR b0 F (execSelfTestDone cores lanes dram xng pos mbc ser pipes dramOk nvm pllOk s) := by
  unfold execSelfTestDone
  refine heldR_next ?_
  refine ite_ind (Q := Held b0 F) (fun _ => ?_) (fun _ => ?_)
  · exact held_selfTest (dj hF) ‹_›
  · assumption
theorem held_bootComplete {s storeOk} (hF : Dj F 0x3fffff00ffffff) (hs : Held b0 F s) : Held b0 F (State.bootComplete s storeOk) := by
  unfold State.bootComplete
  refine ite_ind (Q := Held b0 F) (fun _ => ?_) (fun _ => ?_)
  · exact held_recover (dj hF) ‹_›
  · split
    · exact held_recover (dj hF) ‹_›
    · refine ite_ind (Q := Held b0 F) (fun _ => ?_) (fun _ => ?_)
      · exact held_afterSafety (dj hF) (held_bootDone (dj hF) ‹_›)
      · exact held_stageFail (dj hF) ‹_›
theorem held_execManifestStageDone {refused s} (hF : Dj F 0x3fffff01ffffff) (hs : Held b0 F s) : HeldR b0 F (execManifestStageDone refused s) := by
  unfold execManifestStageDone
  refine heldR_next ?_
  refine ite_ind (Q := Held b0 F) (fun _ => ?_) (fun _ => ?_)
  · split
    · have hz := held2_eq (by assumption) (held_loadSlots (dj hF) ‹_›)
      exact held_stageFail (dj hF) ‹_›
    · have hz := held2_eq (by assumption) (held_loadSlots (dj hF) ‹_›)
      refine ite_ind (Q := Held b0 F) (fun _ => ?_) (fun _ => ?_)
      · exact held_stageFail (dj hF) ‹_›
      · exact held_setStage (dj hF) ‹_›
  · assumption
theorem held_inputGood {s a b bkp sec msec ms} (hF : Dj F 0x15c01700a0c97f) (hs : Held b0 F s) : Held b0 F (State.inputGood s a b bkp sec msec ms) := by
  unfold State.inputGood
  extract_lets -merge -underBinder +onlyGivenNames s
  have hs : Held b0 F s := held_opTo (dj hF) (held_supply (dj hF) ‹_›)
  try clear_value s
  split
  · exact held_powerGood (dj hF) (held_restoreBoot (dj hF) ‹_›)
  · extract_lets -merge -underBinder +onlyGivenNames l
    try clear_value l
    extract_lets -merge -underBinder +onlyGivenNames s
    have hs : Held b0 F s := held_wr (dj hF) (held_wr (dj hF) ‹_› (off_PWR_WAKE_LATCH (dj hF))) (off_PWR_WAKE_CAUSE (dj hF))
    try clear_value s
    exact held_powerGood (dj hF) ‹_›
  · exact held_powerGood (dj hF) ‹_›
  · assumption
theorem held_execBootComplete {storeOk s} (hF : Dj F 0x3fffff00ffffff) (hs : Held b0 F s) : HeldR b0 F (execBootComplete storeOk s) := by
  unfold execBootComplete
  refine heldR_next ?_
  refine ite_ind (Q := Held b0 F) (fun _ => ?_) (fun _ => ?_)
  · exact held_bootComplete (dj hF) ‹_›
  · assumption
theorem held_execPowerGood {a b bkp sec msec ms s} (hF : Dj F 0x15c01700a0c97f) (hs : Held b0 F s) : HeldR b0 F (execPowerGood a b bkp sec msec ms s) := by
  unfold execPowerGood
  refine heldR_next ?_
  refine ite_ind (Q := Held b0 F) (fun _ => ?_) (fun _ => ?_)
  · exact held_inputGood (dj hF) ‹_›
  · assumption

end Sys2Proof.Machine
end

