-- ==== Sys2Proof/Laws/KeptPwr.lean ====
section
/-!
SUPPORT. The operations of Machine/Pwr.lean change only the parts that their masks name (Laws/Held.lean).
-/
namespace Sys2Proof.Machine
open Sys2Proof
set_option Elab.async false

variable {b0 : State} {F : Nat}

theorem held_execThermalTrip {s} (hF : Dj F 0x3fffff00ffffff) (hs : Held b0 F s) : HeldR b0 F (execThermalTrip s) := by
  unfold execThermalTrip
  exact heldR_next (held_faultCause (dj hF) ‹_›)
theorem held_glideEnter {s} (hF : Dj F 0x1803320020016b) (hs : Held b0 F s) : Held b0 F (State.glideEnter s) := by
  unfold State.glideEnter
  extract_lets -merge -underBinder +onlyGivenNames s
  have hs : Held b0 F s := held_wrB (dj hF) (held_wr (dj hF) ‹_› (off_PWR_STATE_STATE (dj hF))) (off_LOOP_STATUS_GLIDE_SCHEDULE (dj hF))
  try clear_value s
  extract_lets -merge -underBinder +onlyGivenNames s
  have hs : Held b0 F s := held_showPwm (dj hF) (held_acqGlide (dj hF) (held_showDomains (dj hF) ‹_›))
  try clear_value s
  extract_lets -merge -underBinder +onlyGivenNames s
  have hs : Held b0 F s := by
    unfold s
    refine foldl_ind (Q := Held b0 F) (fun _ _ hs => ?_) ?_
    · exact held_replan (dj hF) ‹_›
    · assumption
  try clear_value s
  exact held_flag (dj hF) (held_inc (dj hF) (held_modPwr (dj hF) ‹_›) (off_PWR_GLIDE_ENTRIES (dj hF))) (off_PWR_EVENT_STATUS_GLIDE_ENTERED (dj hF))
theorem held_evacOverride {s} (hF : Dj F 0x1000120020000b) (hs : Held b0 F s) : Held b0 F (State.evacOverride s) := by
  unfold State.evacOverride
  refine ite_ind (Q := Held b0 F) (fun _ => ?_) (fun _ => ?_)
  · assumption
  · exact held_recordBit (dj hF) (held_wrB (dj hF) ‹_› (off_PWR_THERMAL_STATUS_EVAC_OVERRIDE (dj hF))) (off_PWR_EVENT_STATUS_THERMAL_STAGE (dj hF))
theorem held_execCancelBerth {sess key s} (hF : Dj F 0x1200200029) (hs : Held b0 F s) : HeldR b0 F (execCancelBerth sess key s) := by
  unfold execCancelBerth
  refine heldR_next ?_
  refine ite_ind (Q := Held b0 F) (fun _ => ?_) (fun _ => ?_)
  · exact held_berthStop (dj hF) ‹_›
  · assumption
theorem held_execBerthWake {s} (hF : Dj F 0x200000005) (hs : Held b0 F s) : HeldR b0 F (execBerthWake s) := by
  unfold execBerthWake
  extract_lets -merge -underBinder +onlyGivenNames l
  try clear_value l
  refine heldR_next ?_
  refine ite_ind (Q := Held b0 F) (fun _ => ?_) (fun _ => ?_)
  · exact held_modBoll (dj hF) (held_wr (dj hF) ‹_› (off_PWR_WAKE_CAUSE (dj hF)))
  · assumption
theorem held_enterBerth {s sess} (hF : Dj F 0x5200200229) (hs : Held b0 F s) : Held b0 F (State.enterBerth s sess) := by
  unfold State.enterBerth
  extract_lets -merge -underBinder +onlyGivenNames r
  try clear_value r
  extract_lets -merge -underBinder +onlyGivenNames s
  have hs : Held b0 F s := held_berthResult (dj hF) ‹_›
  try clear_value s
  refine ite_ind (Q := Held b0 F) (fun _ => ?_) (fun _ => ?_)
  · exact held_startCkpt (dj hF) (held_wr (dj hF) (held_modPwr (dj hF) ‹_›) (off_PWR_STATE_STATE (dj hF)))
  · assumption
theorem held_resetBegin {s d} (hF : Dj F 0x931200b41029) (hs : Held b0 F s) : Held b0 F (State.resetBegin s d) := by
  unfold State.resetBegin
  extract_lets -merge -underBinder +onlyGivenNames s
  have hs : Held b0 F s := held_wrB (dj hF) (held_modPwr (dj hF) ‹_›) (off_PWR_DOMAIN_RESET_STATUS_BUSY (dj hF))
  try clear_value s
  refine ite_ind (Q := Held b0 F) (fun _ => ?_) (fun _ => ?_)
  · exact held_showPwm (dj hF) (held_loopFresh (dj hF) ‹_›)
  · refine ite_ind (Q := Held b0 F) (fun _ => ?_) (fun _ => ?_)
    · exact held_driveOuts (dj hF) (held_showAllInputs (dj hF) (held_wrB (dj hF) ‹_› (off_FIO_STATUS_RUNNING (dj hF))))
    · assumption
theorem held_tearRecord {s torn} (hF : Dj F 0x2) (hs : Held b0 F s) : Held b0 F (State.tearRecord s torn) := by
  unfold State.tearRecord
  refine ite_ind (Q := Held b0 F) (fun _ => ?_) (fun _ => ?_)
  · exact held_modNv (dj hF) ‹_›
  · assumption
theorem held_inputTo {s b good} (hF : Dj F 0x200000001) (hs : Held b0 F s) : Held b0 F (State.inputTo s b good) := by
  unfold State.inputTo
  exact held_supply (dj hF) ‹_›
theorem held_berthed {s} (hF : Dj F 0x3fffff00ffffff) (hs : Held b0 F s) : Held b0 F (State.berthed s) := by
  unfold State.berthed
  extract_lets -merge -underBinder +onlyGivenNames s
  have hs : Held b0 F s := held_holdAll (dj hF) ‹_›
  try clear_value s
  extract_lets -merge -underBinder +onlyGivenNames s
  have hs : Held b0 F s := by
    unfold s
    refine foldl_ind (Q := Held b0 F) (fun s _ hs => ?_) ?_
    · exact held_canSend (dj hF) ‹_›
    · assumption
  try clear_value s
  extract_lets -merge -underBinder +onlyGivenNames s
  have hs : Held b0 F s := held_modNv (dj hF) ‹_›
  try clear_value s
  extract_lets -merge -underBinder +onlyGivenNames s
  have hs : Held b0 F s := held_record (dj hF) ‹_›
  try clear_value s
  extract_lets -merge -underBinder +onlyGivenNames s
  have hs : Held b0 F s := held_outputsOff (dj hF) (held_inc (dj hF) (held_debugClose (dj hF) (held_closeAll (dj hF) ‹_›)) (off_PWR_BERTH_ENTRIES (dj hF)))
  try clear_value s
  exact held_modBoll (dj hF) (held_wipe (dj hF) (held_failSlots (dj hF) ‹_›))
theorem held_execWakeSourceEvent {n sec ms s} (hF : Dj F 0x1200200029) (hs : Held b0 F s) : HeldR b0 F (execWakeSourceEvent n sec ms s) := by
  unfold execWakeSourceEvent
  extract_lets -merge -underBinder +onlyGivenNames t
  have ht : Held b0 F t := held_opTo (dj hF) ‹_›
  try clear_value t
  refine heldR_next ?_
  refine ite_ind (Q := Held b0 F) (fun _ => ?_) (fun _ => ?_)
  · assumption
  · refine ite_ind (Q := Held b0 F) (fun _ => ?_) (fun _ => ?_)
    · refine ite_ind (Q := Held b0 F) (fun _ => ?_) (fun _ => ?_)
      · exact held_wakeSource (dj hF) ‹_›
      · assumption
    · exact held_wakeSource (dj hF) ‹_›
theorem held_execMainInputLost {b s} (hF : Dj F 0x1200200009) (hs : Held b0 F s) : HeldR b0 F (execMainInputLost b s) := by
  unfold execMainInputLost
  extract_lets -merge -underBinder +onlyGivenNames this
  have hthis : Off F this := off_ite (off_PWR_SUPPLY_STATUS_B_GOOD (dj hF)) (off_PWR_SUPPLY_STATUS_A_GOOD (dj hF))
  try clear_value this
  extract_lets -merge -underBinder +onlyGivenNames other
  have hother : Off F other := off_ite (off_PWR_SUPPLY_STATUS_A_GOOD (dj hF)) (off_PWR_SUPPLY_STATUS_B_GOOD (dj hF))
  try clear_value other
  refine heldR_next ?_
  refine ite_ind (Q := Held b0 F) (fun _ => ?_) (fun _ => ?_)
  · extract_lets -merge -underBinder +onlyGivenNames s
    have hs : Held b0 F s := held_wrB (dj hF) (held_inputTo (dj hF) ‹_›) (off_ite (off_PWR_SUPPLY_STATUS_B_LOST (dj hF)) (off_PWR_SUPPLY_STATUS_A_LOST (dj hF)))
    try clear_value s
    refine ite_ind (Q := Held b0 F) (fun _ => ?_) (fun _ => ?_)
    · exact held_flag (dj hF) ‹_› (off_PWR_EVENT_STATUS_SUPPLY_LOST (dj hF))
    · assumption
  · assumption
theorem held_execHungAccessTimeout {sess s} (hF : Dj F 0x1200200009) (hs : Held b0 F s) : HeldR b0 F (execHungAccessTimeout sess s) := by
  unfold execHungAccessTimeout
  refine heldR_next ?_
  split
  · assumption
  · split
    · assumption
    · refine ite_ind (Q := Held b0 F) (fun _ => ?_) (fun _ => ?_)
      · assumption
      · exact held_flag (dj hF) (held_setSession (dj hF) ‹_›) (off_PWR_EVENT_STATUS_HUNG_ACCESS (dj hF))
theorem held_execWatchdogExpiry {s} (hF : Dj F 0x3fffff00ffffff) (hs : Held b0 F s) : HeldR b0 F (execWatchdogExpiry s) := by
  unfold execWatchdogExpiry
  refine heldR_next ?_
  refine ite_ind (Q := Held b0 F) (fun _ => ?_) (fun _ => ?_)
  · refine ite_ind (Q := Held b0 F) (fun _ => ?_) (fun _ => ?_)
    · refine held_turidReset (dj hF) ?_ ?_
      · exact held_inc (dj hF) (held_wr (dj hF) ‹_› (off_PWR_WATCHDOG_STATUS_REMAINING_MS (dj hF))) (off_PWR_WATCHDOG_EXPIRIES (dj hF))
      · intro s hs
        exact held_holdRings (dj hF) ‹_›
    · assumption
  · exact held_outrank (dj hF) ‹_›
theorem held_execGlideDwellExpiry {s} (hF : Dj F 0x1803320020016b) (hs : Held b0 F s) : HeldR b0 F (execGlideDwellExpiry s) := by
  unfold execGlideDwellExpiry
  refine heldR_next ?_
  refine ite_ind (Q := Held b0 F) (fun _ => ?_) (fun _ => ?_)
  · exact held_glideEnter (dj hF) ‹_›
  · assumption
theorem held_execWatchdogService {s} (hF : Dj F 0x200000001) (hs : Held b0 F s) : HeldR b0 F (execWatchdogService s) := by
  unfold execWatchdogService
  refine heldR_next ?_
  refine ite_ind (Q := Held b0 F) (fun _ => ?_) (fun _ => ?_)
  · exact held_wr (dj hF) ‹_› (off_PWR_WATCHDOG_STATUS_REMAINING_MS (dj hF))
  · assumption
theorem held_execBerthEntryComplete {s} (hF : Dj F 0x3fffff00ffffff) (hs : Held b0 F s) : HeldR b0 F (execBerthEntryComplete s) := by
  unfold execBerthEntryComplete
  refine heldR_next ?_
  refine ite_ind (Q := Held b0 F) (fun _ => ?_) (fun _ => ?_)
  · extract_lets -merge -underBinder +onlyGivenNames s
    have hs : Held b0 F s := held_saveTime (dj hF) ‹_›
    try clear_value s
    refine ite_ind (Q := Held b0 F) (fun _ => ?_) (fun _ => ?_)
    · exact held_berthed (dj hF) ‹_›
    · exact held_berthStop (dj hF) ‹_›
  · assumption
theorem held_thermalTo {s st} (hF : Dj F 0x500f200a08909) (hs : Held b0 F s) : Held b0 F (State.thermalTo s st) := by
  unfold State.thermalTo
  extract_lets -merge -underBinder +onlyGivenNames old
  try clear_value old
  extract_lets -merge -underBinder +onlyGivenNames s
  have hs : Held b0 F s := held_flag (dj hF) (held_wr (dj hF) ‹_› (off_PWR_THERMAL_STATUS_STAGE (dj hF))) (off_PWR_EVENT_STATUS_THERMAL_STAGE (dj hF))
  try clear_value s
  extract_lets -merge -underBinder +onlyGivenNames s
  have hs : Held b0 F s := by
    unfold s
    refine ite_ind (Q := Held b0 F) (fun _ => ?_) (fun _ => ?_)
    · exact held_wrB (dj hF) ‹_› (off_PWR_THERMAL_STATUS_EVAC_OVERRIDE (dj hF))
    · assumption
  try clear_value s
  extract_lets -merge -underBinder +onlyGivenNames s
  have hs : Held b0 F s := held_wrB (dj hF) ‹_› (off_PLT_PROT_STATUS_LAYER1_ONLY (dj hF))
  try clear_value s
  extract_lets -merge -underBinder +onlyGivenNames s
  have hs : Held b0 F s := by
    unfold s
    refine ite_ind (Q := Held b0 F) (fun _ => ?_) (fun _ => ?_)
    · exact held_inc (dj hF) ‹_› (off_PWR_REDUCED_COUNT (dj hF))
    · assumption
  try clear_value s
  refine ite_ind (Q := Held b0 F) (fun _ => ?_) (fun _ => ?_)
  · extract_lets -merge -underBinder +onlyGivenNames s
    have hs : Held b0 F s := held_wrB (dj hF) (held_wrB (dj hF) (held_inc (dj hF) ‹_› (off_PWR_LOOPS_ONLY_COUNT (dj hF))) (off_EST_STATUS_RUNNING (dj hF))) (off_PLT_DISP_STATUS_RUNNING (dj hF))
    try clear_value s
    refine ite_ind (Q := Held b0 F) (fun _ => ?_) (fun _ => ?_)
    · exact held_holdPcs (dj hF) (held_holdRings (dj hF) ‹_›)
    · assumption
  · refine ite_ind (Q := Held b0 F) (fun _ => ?_) (fun _ => ?_)
    · exact held_refreshAll (dj hF) (held_wrB (dj hF) ‹_› (off_EST_STATUS_RUNNING (dj hF)))
    · assumption
theorem held_execMainInputGood {b s} (hF : Dj F 0x1200200029) (hs : Held b0 F s) : HeldR b0 F (execMainInputGood b s) := by
  unfold execMainInputGood
  refine heldR_next ?_
  refine ite_ind (Q := Held b0 F) (fun _ => ?_) (fun _ => ?_)
  · exact held_wakeSource (dj hF) (held_inputTo (dj hF) ‹_›)
  · assumption
theorem held_loseRails {s torn} (hF : Dj F 0x1040100020000b) (hs : Held b0 F s) : Held b0 F (State.loseRails s torn) := by
  unfold State.loseRails
  extract_lets -merge -underBinder +onlyGivenNames cars
  try clear_value cars
  extract_lets -merge -underBinder +onlyGivenNames s
  have hs : Held b0 F s := by
    unfold s
    refine foldl_ind (Q := Held b0 F) (fun s _ hs => ?_) ?_
    · exact held_recordTrip (dj hF) ‹_›
    · exact held_tearRecord (dj hF) ‹_›
  try clear_value s
  exact held_outputsOff (dj hF) ‹_›
theorem held_resetResult {s r} (hF : Dj F 0x1200200009) (hs : Held b0 F s) : Held b0 F (State.resetResult s r) := by
  unfold State.resetResult
  exact held_flag (dj hF) (held_wr (dj hF) ‹_› (off_PWR_DOMAIN_RESET_STATUS_RESULT (dj hF))) (off_PWR_EVENT_STATUS_DOMAIN_RESET_DONE (dj hF))
theorem held_execThermalReducedEntry {s} (hF : Dj F 0x500f200a08909) (hs : Held b0 F s) : HeldR b0 F (execThermalReducedEntry s) := by
  unfold execThermalReducedEntry
  refine heldR_next ?_
  refine ite_ind (Q := Held b0 F) (fun _ => ?_) (fun _ => ?_)
  · exact held_thermalTo (dj hF) ‹_›
  · assumption
theorem held_domainReset {s sess d} (hF : Dj F 0x931200b41029) (hs : Held b0 F s) : Held b0 F (State.domainReset s sess d) := by
  unfold State.domainReset
  extract_lets -merge -underBinder +onlyGivenNames s
  have hs : Held b0 F s := held_wr (dj hF) (held_wr (dj hF) ‹_› (off_PWR_DOMAIN_RESET_STATUS_DOMAIN (dj hF))) (off_PWR_DOMAIN_RESET_STATUS_RESULT (dj hF))
  try clear_value s
  refine ite_ind (Q := Held b0 F) (fun _ => ?_) (fun _ => ?_)
  · exact held_resetResult (dj hF) ‹_›
  · refine ite_ind (Q := Held b0 F) (fun _ => ?_) (fun _ => ?_)
    · exact held_resetResult (dj hF) ‹_›
    · refine ite_ind (Q := Held b0 F) (fun _ => ?_) (fun _ => ?_)
      · exact held_resetResult (dj hF) ‹_›
      · exact held_resetBegin (dj hF) ‹_›
theorem held_execOpsecPersist {sec s} (hF : Dj F 0x120020002b) (hs : Held b0 F s) : HeldR b0 F (execOpsecPersist sec s) := by
  unfold execOpsecPersist
  refine heldR_next ?_
  refine ite_ind (Q := Held b0 F) (fun _ => ?_) (fun _ => ?_)
  · extract_lets -merge -underBinder +onlyGivenNames s
    have hs : Held b0 F s := held_opTo (dj hF) ‹_›
    try clear_value s
    refine ite_ind (Q := Held b0 F) (fun _ => ?_) (fun _ => ?_)
    · exact held_saveTime (dj hF) ‹_›
    · assumption
  · assumption
theorem held_thermalDwell {s hot} (hF : Dj F 0x1500f200a0892b) (hs : Held b0 F s) : Held b0 F (State.thermalDwell s hot) := by
  unfold State.thermalDwell
  extract_lets -merge -underBinder +onlyGivenNames st
  try clear_value st
  extract_lets -merge -underBinder +onlyGivenNames s
  have hs : Held b0 F s := held_modPwr (dj hF) ‹_›
  try clear_value s
  refine ite_ind (Q := Held b0 F) (fun _ => ?_) (fun _ => ?_)
  · refine ite_ind (Q := Held b0 F) (fun _ => ?_) (fun _ => ?_)
    · assumption
    · refine ite_ind (Q := Held b0 F) (fun _ => ?_) (fun _ => ?_)
      · exact held_evacOverride (dj hF) ‹_›
      · exact held_thermalTo (dj hF) ‹_›
  · refine ite_ind (Q := Held b0 F) (fun _ => ?_) (fun _ => ?_)
    · exact held_thermalTo (dj hF) ‹_›
    · refine ite_ind (Q := Held b0 F) (fun _ => ?_) (fun _ => ?_)
      · exact held_thermalTo (dj hF) ‹_›
      · assumption
theorem held_execEnterBerth {sess key s} (hF : Dj F 0x5200200229) (hs : Held b0 F s) : HeldR b0 F (execEnterBerth sess key s) := by
  unfold execEnterBerth
  refine heldR_next ?_
  refine ite_ind (Q := Held b0 F) (fun _ => ?_) (fun _ => ?_)
  · exact held_enterBerth (dj hF) ‹_›
  · assumption
theorem held_goOff {s torn} (hF : Dj F 0x3fffff007fffff) (hs : Held b0 F s) : Held b0 F (State.goOff s torn) := by
  unfold State.goOff
  extract_lets -merge -underBinder +onlyGivenNames s
  have hs : Held b0 F s := by
    unfold s
    refine ite_ind (Q := Held b0 F) (fun _ => ?_) (fun _ => ?_)
    · exact held_saveBoot (dj hF) (held_failSlots (dj hF) (held_loseRails (dj hF) ‹_›))
    · exact held_outrank (dj hF) ‹_›
  try clear_value s
  extract_lets -merge -underBinder +onlyGivenNames kept
  try clear_value kept
  extract_lets -merge -underBinder +onlyGivenNames t
  have ht : Held b0 F t := held_wipe (dj hF) ‹_›
  try clear_value t
  refine held_modBoll (dj hF) ?_
  refine foldl_ind (Q := Held b0 F) (fun t _ ht => ?_) ?_
  · exact held_wr (dj hF) ‹_› (off_any (dj hF))
  · assumption
theorem held_bothLost {s torn} (hF : Dj F 0x3fffff007fffff) (hs : Held b0 F s) : Held b0 F (State.bothLost s torn) := by
  unfold State.bothLost
  extract_lets -merge -underBinder +onlyGivenNames s
  have hs : Held b0 F s := by
    unfold s
    refine ite_ind (Q := Held b0 F) (fun _ => ?_) (fun _ => ?_)
    · exact held_wrB (dj hF) ‹_› (off_PWR_SUPPLY_STATUS_A_LOST (dj hF))
    · assumption
  try clear_value s
  extract_lets -merge -underBinder +onlyGivenNames s
  have hs : Held b0 F s := by
    unfold s
    refine ite_ind (Q := Held b0 F) (fun _ => ?_) (fun _ => ?_)
    · exact held_wrB (dj hF) ‹_› (off_PWR_SUPPLY_STATUS_B_LOST (dj hF))
    · assumption
  try clear_value s
  extract_lets -merge -underBinder +onlyGivenNames s
  have hs : Held b0 F s := by
    unfold s
    split
    · exact held_modBoll (dj hF) (held_wipe (dj hF) (held_failStart (dj hF) (held_loseRails (dj hF) ‹_›)))
    · exact held_modBoll (dj hF) (held_outrank (dj hF) ‹_›)
    · assumption
  try clear_value s
  exact held_supply (dj hF) ‹_›
theorem held_execPwrDomainReset {sess key d s} (hF : Dj F 0x931200b41029) (hs : Held b0 F s) : HeldR b0 F (execPwrDomainReset sess key d s) := by
  unfold execPwrDomainReset
  refine heldR_next ?_
  refine ite_ind (Q := Held b0 F) (fun _ => ?_) (fun _ => ?_)
  · exact held_domainReset (dj hF) ‹_›
  · assumption
theorem held_execBothMainsLost {torn s} (hF : Dj F 0x3fffff007fffff) (hs : Held b0 F s) : HeldR b0 F (execBothMainsLost torn s) := by
  unfold execBothMainsLost
  refine heldR_next ?_
  refine ite_ind (Q := Held b0 F) (fun _ => ?_) (fun _ => ?_)
  · exact held_bothLost (dj hF) ‹_›
  · assumption
theorem held_execThermalDwellExpiry {hot s} (hF : Dj F 0x1500f200a0892b) (hs : Held b0 F s) : HeldR b0 F (execThermalDwellExpiry hot s) := by
  unfold execThermalDwellExpiry
  refine heldR_next ?_
  refine ite_ind (Q := Held b0 F) (fun _ => ?_) (fun _ => ?_)
  · exact held_thermalDwell (dj hF) ‹_›
  · assumption
theorem held_execBkpDepleted {torn s} (hF : Dj F 0x3fffff007fffff) (hs : Held b0 F s) : HeldR b0 F (execBkpDepleted torn s) := by
  unfold execBkpDepleted
  refine heldR_next ?_
  refine ite_ind (Q := Held b0 F) (fun _ => ?_) (fun _ => ?_)
  · assumption
  · exact held_goOff (dj hF) ‹_›

end Sys2Proof.Machine
end

