-- ==== Sys2Proof/Laws/KeptSec.lean ====
section
/-!
SUPPORT. The operations of Machine/Sec.lean change only the parts that their masks name (Laws/Held.lean).
-/
namespace Sys2Proof.Machine
open Sys2Proof
set_option Elab.async false

variable {b0 : State} {F : Nat}

theorem held_execSecClearCounters {sess key s} (hF : Dj F 0x400000001) (hs : Held b0 F s) : HeldR b0 F (execSecClearCounters sess key s) := by
  unfold execSecClearCounters
  exact heldR_next (ite_ind (Q := Held b0 F) (fun _ => held_clearAt 2 (dj hF) (dj hF) (by decide) (by decide) hs) (fun _ => hs))
theorem held_debugBegin {s c perms expiry} (hF : Dj F 0x3000140020008b) (hs : Held b0 F s) : Held b0 F (State.debugBegin s c perms expiry) := by
  unfold State.debugBegin
  extract_lets -merge -underBinder +onlyGivenNames s
  have hs : Held b0 F s := held_wr (dj hF) (held_modSec (dj hF) ‹_›) (off_SEC_TOKEN_EXPIRY (dj hF))
  try clear_value s
  extract_lets -merge -underBinder +onlyGivenNames s
  have hs : Held b0 F s := held_wr (dj hF) (held_wr (dj hF) (held_wr (dj hF) ‹_› (off_SEC_DEBUG_STATUS_SESSION (dj hF))) (off_SEC_DEBUG_STATUS_PERMISSIONS (dj hF))) (off_SEC_DEBUG_STATUS_STATE (dj hF))
  try clear_value s
  extract_lets -merge -underBinder +onlyGivenNames s
  have hs : Held b0 F s := held_wrB (dj hF) (held_wrB (dj hF) (held_wrB (dj hF) ‹_› (off_SEC_STATUS (dj hF))) (off_DBG_STATUS (dj hF))) (off_DBG_STATUS (dj hF))
  try clear_value s
  exact held_secEvent (dj hF) (held_showCores (dj hF) (held_inc (dj hF) ‹_› (off_DBG_SESSIONS (dj hF))))
theorem held_resetCommissioning {q x s} (hF : Dj F 0x3fffff00ffffff) (hs : Held b0 F s) : Held b0 F (State.resetCommissioning q x s) := by
  unfold State.resetCommissioning
  refine ite_ind (Q := Held b0 F) (fun _ => ?_) (fun _ => ?_)
  · exact held_complete (dj hF) ‹_›
  · refine ite_ind (Q := Held b0 F) (fun _ => ?_) (fun _ => ?_)
    · exact held_complete (dj hF) ‹_›
    · extract_lets -merge -underBinder +onlyGivenNames s
      have hs : Held b0 F s := held_modNv (dj hF) (held_zeroCkpts (dj hF) (held_emptySlots (dj hF) ‹_›))
      try clear_value s
      exact held_hostReset (dj hF) (held_complete (dj hF) (held_wr (dj hF) ‹_› (off_MAN_SAFETY_CONFIRMED (dj hF))))
theorem held_execTamperResetRelease {s} (hF : Dj F 0x3fffff00ffffff) (hs : Held b0 F s) : HeldR b0 F (execTamperResetRelease s) := by
  unfold execTamperResetRelease
  refine heldR_next ?_
  refine ite_ind (Q := Held b0 F) (fun _ => ?_) (fun _ => ?_)
  · exact held_faultReset (dj hF) ‹_›
  · assumption
theorem held_tamperActs {s m level} (hF : Dj F 0x3fffff00ffffff) (hs : Held b0 F s) : Held b0 F (State.tamperActs s m level) := by
  unfold State.tamperActs
  extract_lets -merge -underBinder +onlyGivenNames s
  have hs : Held b0 F s := held_wrB (dj hF) ‹_› (off_SEC_TAMPER_STATUS (dj hF))
  try clear_value s
  extract_lets -merge -underBinder +onlyGivenNames s
  have hs : Held b0 F s := by
    unfold s
    refine ite_ind (Q := Held b0 F) (fun _ => ?_) (fun _ => ?_)
    · exact held_secEvent (dj hF) ‹_›
    · assumption
  try clear_value s
  extract_lets -merge -underBinder +onlyGivenNames s
  have hs : Held b0 F s := by
    unfold s
    refine ite_ind (Q := Held b0 F) (fun _ => ?_) (fun _ => ?_)
    · exact held_debugClose (dj hF) ‹_›
    · assumption
  try clear_value s
  refine ite_ind (Q := Held b0 F) (fun _ => ?_) (fun _ => ?_)
  · assumption
  · refine ite_ind (Q := Held b0 F) (fun _ => ?_) (fun _ => ?_)
    · exact held_modBoll (dj hF) ‹_›
    · exact held_faultReset (dj hF) ‹_›
theorem held_execHaltDeferralEnd {s} (hF : Dj F 0x20000000000001) (hs : Held b0 F s) : HeldR b0 F (execHaltDeferralEnd s) := by
  unfold execHaltDeferralEnd
  refine heldR_next ?_
  refine ite_ind (Q := Held b0 F) (fun _ => ?_) (fun _ => ?_)
  · exact held_wr (dj hF) ‹_› (off_DBG_HALT_DEFERRED (dj hF))
  · assumption
theorem held_execResetCommissioning {q s} (hF : Dj F 0x3fffff00ffffff) (hs : Held b0 F s) : HeldR b0 F (execResetCommissioning q s) := by
  unfold execResetCommissioning
  refine held_onCmd (dj hF) ?_ ?_
  · assumption
  · intro y0 y1 hy1
    exact held_resetCommissioning (dj hF) ‹_›
theorem held_tamperTrip {s m} (hF : Dj F 0x3fffff00ffffff) (hs : Held b0 F s) : Held b0 F (State.tamperTrip s m) := by
  unfold State.tamperTrip
  extract_lets -merge -underBinder +onlyGivenNames level
  try clear_value level
  extract_lets -merge -underBinder +onlyGivenNames s
  have hs : Held b0 F s := held_wakeSource (dj hF) (held_inc (dj hF) ‹_› (off_SEC_TAMPER_COUNT (dj hF)))
  try clear_value s
  split
  · exact held_tamperActs (dj hF) ‹_›
  · refine ite_ind (Q := Held b0 F) (fun _ => ?_) (fun _ => ?_)
    · exact held_recordTrip (dj hF) ‹_›
    · assumption
  · refine ite_ind (Q := Held b0 F) (fun _ => ?_) (fun _ => ?_)
    · exact held_outrank (dj hF) ‹_›
    · assumption
  · assumption
theorem held_execTamperTrip {m s} (hF : Dj F 0x3fffff00ffffff) (hs : Held b0 F s) : HeldR b0 F (execTamperTrip m s) := by
  unfold execTamperTrip
  refine heldR_next ?_
  refine ite_ind (Q := Held b0 F) (fun _ => ?_) (fun _ => ?_)
  · exact held_tamperTrip (dj hF) ‹_›
  · assumption
theorem held_readRequest {q c s} (hF : Dj F 0x1000f401a007ab) (hs : Held b0 F s) : Held b0 F (State.readRequest q c s) := by
  unfold State.readRequest
  extract_lets -merge -underBinder +onlyGivenNames n
  try clear_value n
  refine ite_ind (Q := Held b0 F) (fun _ => ?_) (fun _ => ?_)
  · exact held_complete (dj hF) ‹_›
  · refine ite_ind (Q := Held b0 F) (fun _ => ?_) (fun _ => ?_)
    · exact held_settled (dj hF) (held_request (dj hF) ‹_›)
    · exact held_complete (dj hF) ‹_›
theorem held_stageData {s write v} (hF : Dj F 0x400000081) (hs : Held b0 F s) : Held2 b0 F (State.stageData s write v) := by
  unfold State.stageData
  extract_lets -merge -underBinder +onlyGivenNames i
  try clear_value i
  extract_lets -merge -underBinder +onlyGivenNames s
  have hs : Held b0 F s := by
    unfold s
    refine ite_ind (Q := Held b0 F) (fun _ => ?_) (fun _ => ?_)
    · exact held_modSec (dj hF) ‹_›
    · assumption
  try clear_value s
  exact held2_mk (held_wr (dj hF) ‹_› (off_SEC_STAGE_INDEX (dj hF)))
theorem held_fwUpdate {q x s} (hF : Dj F 0x3fffff00ffffff) (hs : Held b0 F s) : Held b0 F (State.fwUpdate q x s) := by
  unfold State.fwUpdate
  refine ite_ind (Q := Held b0 F) (fun _ => ?_) (fun _ => ?_)
  · exact held_complete (dj hF) ‹_›
  · refine ite_ind (Q := Held b0 F) (fun _ => ?_) (fun _ => ?_)
    · exact held_complete (dj hF) ‹_›
    · exact held_hostReset (dj hF) (held_modBoll (dj hF) (held_complete (dj hF) ‹_›))
theorem held_enrolNode {q c s} (hF : Dj F 0x1000f401a007ab) (hs : Held b0 F s) : Held b0 F (State.enrolNode q c s) := by
  unfold State.enrolNode
  extract_lets -merge -underBinder +onlyGivenNames n
  try clear_value n
  extract_lets -merge -underBinder +onlyGivenNames b
  try clear_value b
  extract_lets -merge -underBinder +onlyGivenNames cert
  try clear_value cert
  refine ite_ind (Q := Held b0 F) (fun _ => ?_) (fun _ => ?_)
  · exact held_complete (dj hF) ‹_›
  · refine ite_ind (Q := Held b0 F) (fun _ => ?_) (fun _ => ?_)
    · exact held_complete (dj hF) ‹_›
    · extract_lets -merge -underBinder +onlyGivenNames k
      try clear_value k
      refine ite_ind (Q := Held b0 F) (fun _ => ?_) (fun _ => ?_)
      · exact held_complete (dj hF) ‹_›
      · exact held_settled (dj hF) (held_request (dj hF) ‹_›)
theorem held_revoke {q c s} (hF : Dj F 0x30005e00a002fb) (hs : Held b0 F s) : Held b0 F (State.revoke q c s) := by
  unfold State.revoke
  extract_lets -merge -underBinder +onlyGivenNames n
  try clear_value n
  refine ite_ind (Q := Held b0 F) (fun _ => ?_) (fun _ => ?_)
  · exact held_complete (dj hF) ‹_›
  · extract_lets -merge -underBinder +onlyGivenNames s
    have hs : Held b0 F s := by
      unfold s
      refine ite_ind (Q := Held b0 F) (fun _ => ?_) (fun _ => ?_)
      · assumption
      · exact held_modNv (dj hF) ‹_›
    try clear_value s
    extract_lets -merge -underBinder +onlyGivenNames s
    have hs : Held b0 F s := held_complete (dj hF) (held_wr (dj hF) ‹_› (off_SEC_REVOKED (dj hF)))
    try clear_value s
    refine foldl_ind (Q := Held b0 F) (fun s _ hs => ?_) ?_
    · exact held_closeSession (dj hF) ‹_›
    · assumption
theorem held_stageIndex {s n v} (hF : Dj F 0x400000081) (hs : Held b0 F s) : Held b0 F (State.stageIndex s n v) := by
  unfold State.stageIndex
  exact held_modSec (dj hF) (held_wr (dj hF) ‹_› (off_SEC_STAGE_INDEX (dj hF)))
theorem held_provision {q c s} (hF : Dj F 0x30001500a000ab) (hs : Held b0 F s) : Held b0 F (State.provision q c s) := by
  unfold State.provision
  extract_lets -merge -underBinder +onlyGivenNames slot
  try clear_value slot
  extract_lets -merge -underBinder +onlyGivenNames curve
  try clear_value curve
  refine ite_ind (Q := Held b0 F) (fun _ => ?_) (fun _ => ?_)
  · exact held_complete (dj hF) ‹_›
  · refine ite_ind (Q := Held b0 F) (fun _ => ?_) (fun _ => ?_)
    · exact held_complete (dj hF) ‹_›
    · refine ite_ind (Q := Held b0 F) (fun _ => ?_) (fun _ => ?_)
      · exact held_complete (dj hF) ‹_›
      · refine ite_ind (Q := Held b0 F) (fun _ => ?_) (fun _ => ?_)
        · exact held_complete (dj hF) ‹_›
        · extract_lets -merge -underBinder +onlyGivenNames k
          try clear_value k
          extract_lets -merge -underBinder +onlyGivenNames s
          have hs : Held b0 F s := held_putKey (dj hF) ‹_›
          try clear_value s
          extract_lets -merge -underBinder +onlyGivenNames s
          have hs : Held b0 F s := by
            unfold s
            refine ite_ind (Q := Held b0 F) (fun _ => ?_) (fun _ => ?_)
            · exact held_lifeTo (dj hF) ‹_›
            · assumption
          try clear_value s
          exact held_complete (dj hF) ‹_›
theorem held_haltCore {s k} (hF : Dj F 0x20000000000001) (hs : Held b0 F s) : Held b0 F (State.haltCore s k) := by
  unfold State.haltCore
  refine ite_ind (Q := Held b0 F) (fun _ => ?_) (fun _ => ?_)
  · assumption
  · exact held_showCores (dj hF) (held_inc (dj hF) (held_wrB (dj hF) ‹_› (off_DBG_HALT_STATUS (dj hF))) (off_DBG_HALTS (dj hF)))
theorem held_execDebugExpiryCheck {s} (hF : Dj F 0x3000140020008b) (hs : Held b0 F s) : HeldR b0 F (execDebugExpiryCheck s) := by
  unfold execDebugExpiryCheck
  refine heldR_next ?_
  refine ite_ind (Q := Held b0 F) (fun _ => ?_) (fun _ => ?_)
  · exact held_debugClose (dj hF) ‹_›
  · assumption
theorem held_keyUpdate {q c s} (hF : Dj F 0x10001400a0002b) (hs : Held b0 F s) : Held b0 F (State.keyUpdate q c s) := by
  unfold State.keyUpdate
  extract_lets -merge -underBinder +onlyGivenNames r
  try clear_value r
  extract_lets -merge -underBinder +onlyGivenNames slot
  try clear_value slot
  extract_lets -merge -underBinder +onlyGivenNames curve
  try clear_value curve
  refine ite_ind (Q := Held b0 F) (fun _ => ?_) (fun _ => ?_)
  · exact held_complete (dj hF) ‹_›
  · refine ite_ind (Q := Held b0 F) (fun _ => ?_) (fun _ => ?_)
    · exact held_complete (dj hF) ‹_›
    · refine ite_ind (Q := Held b0 F) (fun _ => ?_) (fun _ => ?_)
      · exact held_complete (dj hF) ‹_›
      · refine ite_ind (Q := Held b0 F) (fun _ => ?_) (fun _ => ?_)
        · exact held_complete (dj hF) ‹_›
        · refine ite_ind (Q := Held b0 F) (fun _ => ?_) (fun _ => ?_)
          · exact held_complete (dj hF) ‹_›
          · refine ite_ind (Q := Held b0 F) (fun _ => ?_) (fun _ => ?_)
            · extract_lets -merge -underBinder +onlyGivenNames s
              have hs : Held b0 F s := held_modNv (dj hF) (held_putKey (dj hF) ‹_›)
              try clear_value s
              exact held_complete (dj hF) (held_secEvent (dj hF) ‹_›)
            · exact held_complete (dj hF) (held_inc (dj hF) ‹_› (off_SEC_SIG_FAILS (dj hF)))
theorem held_execSiteTagWrite {sess k v s} (hF : Dj F 0x100000001) (hs : Held b0 F s) : HeldR b0 F (execSiteTagWrite sess k v s) := by
  unfold execSiteTagWrite
  refine heldR_next ?_
  refine ite_ind (Q := Held b0 F) (fun _ => ?_) (fun _ => ?_)
  · exact held_wr (dj hF) ‹_› (off_SYS_SITE_TAG (dj hF))
  · assumption
theorem held_deferHalt {s k} (hF : Dj F 0x3000140020000b) (hs : Held b0 F s) : Held b0 F (State.deferHalt s k) := by
  unfold State.deferHalt
  refine ite_ind (Q := Held b0 F) (fun _ => ?_) (fun _ => ?_)
  · assumption
  · extract_lets -merge -underBinder +onlyGivenNames s
    have hs : Held b0 F s := held_wr (dj hF) (held_wrB (dj hF) ‹_› (off_DBG_HALT_DEFERRED (dj hF))) (off_DBG_HALT_DEFERRED (dj hF))
    try clear_value s
    exact held_secEvent (dj hF) (held_inc (dj hF) ‹_› (off_DBG_DEFERRALS (dj hF)))
theorem held_execDebugClose {q s} (hF : Dj F 0x30001400a000ab) (hs : Held b0 F s) : HeldR b0 F (execDebugClose q s) := by
  unfold execDebugClose
  refine held_onCmd (dj hF) ?_ ?_
  · assumption
  · intro x s hs
    refine ite_ind (Q := Held b0 F) (fun _ => ?_) (fun _ => ?_)
    · exact held_complete (dj hF) (held_debugClose (dj hF) ‹_›)
    · exact held_complete (dj hF) ‹_›
theorem held_execRngHealthTestFailure {s} (hF : Dj F 0x400000001) (hs : Held b0 F s) : HeldR b0 F (execRngHealthTestFailure s) := by
  unfold execRngHealthTestFailure
  refine heldR_next ?_
  refine ite_ind (Q := Held b0 F) (fun _ => ?_) (fun _ => ?_)
  · exact held_incSat (dj hF) (held_wrB (dj hF) ‹_› (off_SEC_RNG_STATUS (dj hF))) (off_SEC_RNG_STATUS (dj hF))
  · assumption
theorem held_seal {q x s} (hF : Dj F 0x30001500a000ab) (hs : Held b0 F s) : Held b0 F (State.seal q x s) := by
  unfold State.seal
  refine ite_ind (Q := Held b0 F) (fun _ => ?_) (fun _ => ?_)
  · exact held_complete (dj hF) ‹_›
  · refine ite_ind (Q := Held b0 F) (fun _ => ?_) (fun _ => ?_)
    · exact held_complete (dj hF) ‹_›
    · refine ite_ind (Q := Held b0 F) (fun _ => ?_) (fun _ => ?_)
      · exact held_complete (dj hF) (held_showKey (dj hF) (held_lifeTo (dj hF) ‹_›))
      · exact held_complete (dj hF) ‹_›
theorem held_debugOpen {q c s} (hF : Dj F 0x30001400a000ab) (hs : Held b0 F s) : Held b0 F (State.debugOpen q c s) := by
  unfold State.debugOpen
  extract_lets -merge -underBinder +onlyGivenNames t
  try clear_value t
  extract_lets -merge -underBinder +onlyGivenNames st
  try clear_value st
  extract_lets -merge -underBinder +onlyGivenNames s
  have hs : Held b0 F s := held_wr (dj hF) ‹_› (off_SEC_TOKEN_RESULT (dj hF))
  try clear_value s
  refine ite_ind (Q := Held b0 F) (fun _ => ?_) (fun _ => ?_)
  · exact held_complete (dj hF) (held_debugBegin (dj hF) ‹_›)
  · refine held_complete (dj hF) ?_
    refine ite_ind (Q := Held b0 F) (fun _ => ?_) (fun _ => ?_)
    · exact held_inc (dj hF) ‹_› (off_SEC_SIG_FAILS (dj hF))
    · assumption
theorem held_execFirmwareUpdate {q s} (hF : Dj F 0x3fffff00ffffff) (hs : Held b0 F s) : HeldR b0 F (execFirmwareUpdate q s) := by
  unfold execFirmwareUpdate
  refine held_onCmd (dj hF) ?_ ?_
  · assumption
  · intro y0 y1 hy1
    exact held_fwUpdate (dj hF) ‹_›
theorem held_memAccess {s sess write v} (hF : Dj F 0x20000001000081) (hs : Held b0 F s) : Held2 b0 F (State.memAccess s sess write v) := by
  unfold State.memAccess
  extract_lets -merge -underBinder +onlyGivenNames a
  try clear_value a
  extract_lets -merge -underBinder +onlyGivenNames may
  try clear_value may
  refine ite_ind (Q := Held2 b0 F) (fun _ => ?_) (fun _ => ?_)
  · exact held2_mk (held_wr (dj hF) (held_inc (dj hF) ‹_› (off_DBG_REFUSED (dj hF))) (off_DBG_MEM_STATUS (dj hF)))
  · extract_lets -merge -underBinder +onlyGivenNames next
    try clear_value next
    extract_lets -merge -underBinder +onlyGivenNames t
    have ht : Held b0 F t := held_wr (dj hF) (held_wr (dj hF) (held_wr (dj hF) ‹_› (off_DBG_MEM_ADDR_LO (dj hF))) (off_DBG_MEM_ADDR_HI (dj hF))) (off_DBG_MEM_STATUS (dj hF))
    try clear_value t
    refine ite_ind (Q := Held2 b0 F) (fun _ => ?_) (fun _ => ?_)
    · exact held2_mk (held_modSec (dj hF) ‹_›)
    · split
      · exact held2_mk ‹_›
      · exact held_drawWord (dj hF) ‹_›
theorem held_execRevoke {q s} (hF : Dj F 0x30005e00a002fb) (hs : Held b0 F s) : HeldR b0 F (execRevoke q s) := by
  unfold execRevoke
  refine held_onCmd (dj hF) ?_ ?_
  · assumption
  · intro y0 y1 hy1
    exact held_revoke (dj hF) ‹_›
theorem held_execDbgMemAccess {sess write v s} (hF : Dj F 0x20000001000081) (hs : Held b0 F s) : HeldR b0 F (execDbgMemAccess sess write v s) := by
  unfold execDbgMemAccess
  refine heldR_next ?_
  refine ite_ind (Q := Held b0 F) (fun _ => ?_) (fun _ => ?_)
  · exact held2_snd (held_memAccess (dj hF) ‹_›)
  · assumption
theorem held_freeCore {s k} (hF : Dj F 0x20000000000001) (hs : Held b0 F s) : Held b0 F (State.freeCore s k) := by
  unfold State.freeCore
  exact held_wrB (dj hF) (held_wrB (dj hF) ‹_› (off_DBG_HALT_STATUS (dj hF))) (off_DBG_HALT_DEFERRED (dj hF))
theorem held_execReadNodeRequest {q s} (hF : Dj F 0x1000f401a007ab) (hs : Held b0 F s) : HeldR b0 F (execReadNodeRequest q s) := by
  unfold execReadNodeRequest
  refine held_onCmd (dj hF) ?_ ?_
  · assumption
  · intro y0 y1 hy1
    exact held_readRequest (dj hF) ‹_›
theorem held_execEnrolNode {q s} (hF : Dj F 0x1000f401a007ab) (hs : Held b0 F s) : HeldR b0 F (execEnrolNode q s) := by
  unfold execEnrolNode
  refine held_onCmd (dj hF) ?_ ?_
  · assumption
  · intro y0 y1 hy1
    exact held_enrolNode (dj hF) ‹_›
theorem held_execSeal {q s} (hF : Dj F 0x30001500a000ab) (hs : Held b0 F s) : HeldR b0 F (execSeal q s) := by
  unfold execSeal
  refine held_onCmd (dj hF) ?_ ?_
  · assumption
  · intro y0 y1 hy1
    exact held_seal (dj hF) ‹_›
theorem held_execStageDataAccess {sess write v s} (hF : Dj F 0x400000081) (hs : Held b0 F s) : HeldR b0 F (execStageDataAccess sess write v s) := by
  unfold execStageDataAccess
  refine heldR_next ?_
  refine ite_ind (Q := Held b0 F) (fun _ => ?_) (fun _ => ?_)
  · exact held2_snd (held_stageData (dj hF) ‹_›)
  · assumption
theorem held_execStageIndexWrite {sess v s} (hF : Dj F 0x400000081) (hs : Held b0 F s) : HeldR b0 F (execStageIndexWrite sess v s) := by
  unfold execStageIndexWrite
  refine heldR_next ?_
  refine ite_ind (Q := Held b0 F) (fun _ => ?_) (fun _ => ?_)
  · exact held_stageIndex (dj hF) ‹_›
  · assumption
theorem held_breakHit {s k b} (hF : Dj F 0x3000140020000b) (hs : Held b0 F s) : Held b0 F (State.breakHit s k b) := by
  unfold State.breakHit
  extract_lets -merge -underBinder +onlyGivenNames s
  have hs : Held b0 F s := held_wrB (dj hF) (held_wrB (dj hF) (held_inc (dj hF) ‹_› (off_DBG_BREAK_HITS (dj hF))) (off_DBG_BREAK_ENABLE (dj hF))) (off_DBG_HALT_REQUEST (dj hF))
  try clear_value s
  refine ite_ind (Q := Held b0 F) (fun _ => ?_) (fun _ => ?_)
  · exact held_haltCore (dj hF) ‹_›
  · exact held_deferHalt (dj hF) ‹_›
theorem held_execCoreHaltEffective {k s} (hF : Dj F 0x3000140020000b) (hs : Held b0 F s) : HeldR b0 F (execCoreHaltEffective k s) := by
  unfold execCoreHaltEffective
  refine heldR_next ?_
  refine ite_ind (Q := Held b0 F) (fun _ => ?_) (fun _ => ?_)
  · refine ite_ind (Q := Held b0 F) (fun _ => ?_) (fun _ => ?_)
    · exact held_haltCore (dj hF) ‹_›
    · exact held_deferHalt (dj hF) ‹_›
  · assumption
theorem held_execProvision {q s} (hF : Dj F 0x30001500a000ab) (hs : Held b0 F s) : HeldR b0 F (execProvision q s) := by
  unfold execProvision
  refine held_onCmd (dj hF) ?_ ?_
  · assumption
  · intro y0 y1 hy1
    exact held_provision (dj hF) ‹_›
theorem held_execKeyUpdate {q s} (hF : Dj F 0x10001400a0002b) (hs : Held b0 F s) : HeldR b0 F (execKeyUpdate q s) := by
  unfold execKeyUpdate
  refine held_onCmd (dj hF) ?_ ?_
  · assumption
  · intro y0 y1 hy1
    exact held_keyUpdate (dj hF) ‹_›
theorem held_execBreakpointHit {k b s} (hF : Dj F 0x3000140020000b) (hs : Held b0 F s) : HeldR b0 F (execBreakpointHit k b s) := by
  unfold execBreakpointHit
  refine heldR_next ?_
  refine ite_ind (Q := Held b0 F) (fun _ => ?_) (fun _ => ?_)
  · exact held_breakHit (dj hF) ‹_›
  · assumption
theorem held_execDebugOpen {q s} (hF : Dj F 0x30001400a000ab) (hs : Held b0 F s) : HeldR b0 F (execDebugOpen q s) := by
  unfold execDebugOpen
  refine held_onCmd (dj hF) ?_ ?_
  · assumption
  · intro y0 y1 hy1
    exact held_debugOpen (dj hF) ‹_›
theorem held_haltRequest {s v} (hF : Dj F 0x3000140020000b) (hs : Held b0 F s) : Held b0 F (State.haltRequest s v) := by
  unfold State.haltRequest
  extract_lets -merge -underBinder +onlyGivenNames old
  try clear_value old
  extract_lets -merge -underBinder +onlyGivenNames cores
  try clear_value cores
  extract_lets -merge -underBinder +onlyGivenNames s
  have hs : Held b0 F s := held_wr (dj hF) ‹_› (off_DBG_HALT_REQUEST (dj hF))
  try clear_value s
  extract_lets -merge -underBinder +onlyGivenNames s
  have hs : Held b0 F s := by
    unfold s
    refine foldl_ind (Q := Held b0 F) (fun _ _ hs => ?_) ?_
    · exact held_freeCore (dj hF) ‹_›
    · assumption
  try clear_value s
  extract_lets -merge -underBinder +onlyGivenNames s
  have hs : Held b0 F s := by
    unfold s
    refine ite_ind (Q := Held b0 F) (fun _ => ?_) (fun _ => ?_)
    · exact held_wr (dj hF) ‹_› (off_DBG_HALT_DEFERRED (dj hF))
    · assumption
  try clear_value s
  extract_lets -merge -underBinder +onlyGivenNames s
  have hs : Held b0 F s := by
    unfold s
    refine ite_ind (Q := Held b0 F) (fun _ => ?_) (fun _ => ?_)
    · assumption
    · refine foldl_ind (Q := Held b0 F) (fun _ _ hs => ?_) ?_
      · exact held_deferHalt (dj hF) ‹_›
      · assumption
  try clear_value s
  exact held_showCores (dj hF) ‹_›
theorem held_haltWrite {s sess v} (hF : Dj F 0x3000140020008b) (hs : Held b0 F s) : Held b0 F (State.haltWrite s sess v) := by
  unfold State.haltWrite
  refine ite_ind (Q := Held b0 F) (fun _ => ?_) (fun _ => ?_)
  · exact held_inc (dj hF) (held_debugClose (dj hF) ‹_›) (off_DBG_REFUSED (dj hF))
  · refine ite_ind (Q := Held b0 F) (fun _ => ?_) (fun _ => ?_)
    · exact held_haltRequest (dj hF) ‹_›
    · exact held_inc (dj hF) ‹_› (off_DBG_REFUSED (dj hF))
theorem held_execDbgHaltRequestWrite {sess v s} (hF : Dj F 0x3000140020008b) (hs : Held b0 F s) : HeldR b0 F (execDbgHaltRequestWrite sess v s) := by
  unfold execDbgHaltRequestWrite
  refine heldR_next ?_
  refine ite_ind (Q := Held b0 F) (fun _ => ?_) (fun _ => ?_)
  · exact held_haltWrite (dj hF) ‹_›
  · assumption

end Sys2Proof.Machine
end

