-- ==== Sys2Proof/Laws/KeptView.lean ====
section
/-!
SUPPORT. The operations of Machine/View.lean change only the parts that their masks name (Laws/Held.lean).
-/
namespace Sys2Proof.Machine
open Sys2Proof
set_option Elab.async false

variable {b0 : State} {F : Nat}

theorem held_safMirror {s} (hF : Dj F 0x400000004001) (hs : Held b0 F s) : Held b0 F (State.safMirror s) := by
  unfold State.safMirror
  extract_lets -merge -underBinder +onlyGivenNames s
  have hs : Held b0 F s := by
    unfold s
    refine ite_ind (Q := Held b0 F) (fun _ => ?_) (fun _ => ?_)
    · assumption
    · exact held_wr (dj hF) ‹_› (off_SAF_CONFIRM_STATUS_FAILS (dj hF))
  try clear_value s
  exact held_modSaf (dj hF) ‹_›
theorem held_acqWord {s off} (hF : Dj F 0x1000000) (hs : Held b0 F s) : Held2 b0 F (State.acqWord s off) := by
  unfold State.acqWord
  split
  · exact held_drawWord (dj hF) ‹_›
  · extract_lets -merge -underBinder +onlyGivenNames k
    try clear_value k
    extract_lets -merge -underBinder +onlyGivenNames o
    try clear_value o
    split
    · exact held_drawWord (dj hF) ‹_›
    · extract_lets -merge -underBinder +onlyGivenNames bs
      try clear_value bs
      refine ite_ind (Q := Held2 b0 F) (fun _ => ?_) (fun _ => ?_)
      · exact held2_mk ‹_›
      · exact held_drawWord (dj hF) ‹_›
theorem held_windowWord {s w a} (hF : Dj F 0x1000000) (hs : Held b0 F s) : Held2 b0 F (State.windowWord s w a) := by
  unfold State.windowWord
  extract_lets -merge -underBinder +onlyGivenNames cell
  try clear_value cell
  split
  · extract_lets -merge -underBinder +onlyGivenNames o
    try clear_value o
    exact held2_mk ‹_›
  · extract_lets -merge -underBinder +onlyGivenNames o
    try clear_value o
    exact held2_mk ‹_›
  · exact held2_mk ‹_›
  · exact held_acqWord (dj hF) ‹_›

end Sys2Proof.Machine
end

