-- ==== Sys2Proof/Laws/KeptAccess.lean ====
section
/-!
SUPPORT. The operations of Machine/Access.lean change only the parts that their masks name (Laws/Held.lean).
-/
namespace Sys2Proof.Machine
open Sys2Proof
set_option Elab.async false

variable {b0 : State} {F : Nat}

theorem held_alarmWord {s n} (hF : Dj F 0x1000000) (hs : Held b0 F s) : Held2 b0 F (State.alarmWord s n) := by
  unfold State.alarmWord
  split
  rename_i w t heq
  have ht : Held b0 F t := held2_eq heq (by
    exact held_drawWord (dj hF) ‹_›
    )
  clear heq
  extract_lets -merge -underBinder +onlyGivenNames left
  try clear_value left
  exact held2_mk ‹_›
theorem held_readClears {s a} (hF : Dj F 0x3fffff00000001) (hs : Held b0 F s) : Held b0 F (State.readClears s a) := by
  unfold State.readClears
  extract_lets -merge -underBinder +onlyGivenNames d
  try clear_value d
  refine ite_ind (Q := Held b0 F) (fun _ => ?_) (fun _ => ?_)
  · assumption
  · exact held_setWord (dj hF) ‹_›
theorem held_modSession {s n f} (hF : Dj F 0x8) (hs : Held b0 F s) : Held b0 F (State.modSession s n f) := by
  unfold State.modSession
  split
  · assumption
  · exact held_setSession (dj hF) ‹_›
theorem held_storeReg {s a v} (hF : Dj F 0x3fffff00000001) (hs : Held b0 F s) : Held b0 F (State.storeReg s a v) := by
  unfold State.storeReg
  extract_lets -merge -underBinder +onlyGivenNames d
  try clear_value d
  extract_lets -merge -underBinder +onlyGivenNames rw
  try clear_value rw
  exact held_setWord (dj hF) ‹_›
theorem held_holdDomains {s mask} (hF : Dj F 0x3fffff00200049) (hs : Held b0 F s) : Held b0 F (State.holdDomains s mask) := by
  unfold State.holdDomains
  exact held_showPwm (dj hF) (held_showDomains (dj hF) (held_storeReg (dj hF) ‹_›))
theorem held_closeNamed {s n} (hF : Dj F 0x30005e00a002db) (hs : Held b0 F s) : Held b0 F (State.closeNamed s n) := by
  unfold State.closeNamed
  refine ite_ind (Q := Held b0 F) (fun _ => ?_) (fun _ => ?_)
  · exact held_flag (dj hF) (held_closeSession (dj hF) ‹_›) (off_HQ_EVENT_STATUS_SESSION_CLOSED (dj hF))
  · assumption
theorem held_shadowLow {s n a} (hF : Dj F 0x8) (hs : Held b0 F s) : Held b0 F (State.shadowLow s n a) := by
  unfold State.shadowLow
  extract_lets -merge -underBinder +onlyGivenNames hi
  try clear_value hi
  exact held_modSession (dj hF) ‹_›
theorem held_debugWrite {f : State → State} {s n a} (hF : Dj F 0x20000000000001) (hs : Held b0 F s) (hf : ∀ y0, Held b0 F y0 → Held b0 F (f y0)) : Held b0 F (State.debugWrite s n a f) := by
  unfold State.debugWrite
  refine ite_ind (Q := Held b0 F) (fun _ => ?_) (fun _ => ?_)
  · refine hf _ ?_
    · assumption
  · exact held_inc (dj hF) ‹_› (off_DBG_REFUSED (dj hF))
theorem held_commitLow {s n a v} (hF : Dj F 0x3fffff00000009) (hs : Held b0 F s) : Held b0 F (State.commitLow s n a v) := by
  unfold State.commitLow
  extract_lets -merge -underBinder +onlyGivenNames hi
  try clear_value hi
  extract_lets -merge -underBinder +onlyGivenNames s
  have hs : Held b0 F s := by
    unfold s
    refine held_storeReg (dj hF) ?_
    refine elim_ind (Q := Held b0 F) ?_ (fun _ _ => ?_)
    · assumption
    · exact held_storeReg (dj hF) ‹_›
  try clear_value s
  exact held_modSession (dj hF) ‹_›
theorem held_via {s} {f : State → Res State} (hF : Dj F 0x0) (hs : Held b0 F s) (hf : ∀ y0, Held b0 F y0 → HeldR b0 F (f y0)) : Held b0 F (State.via s f) := by
  have _ := hF
  unfold State.via
  have h := hf s hs
  split
  · rename_i t heq
    rw [heq] at h
    exact h
  · exact hs
theorem held_execRcRegisterRead {who addr s} (hF : Dj F 0x3fffff00000001) (hs : Held b0 F s) : HeldR b0 F (execRcRegisterRead who addr s) := by
  unfold execRcRegisterRead
  refine heldR_next ?_
  refine ite_ind (Q := Held b0 F) (fun _ => ?_) (fun _ => ?_)
  · exact held_readClears (dj hF) ‹_›
  · assumption
theorem held_clearCmd {f : State → Res State} {s v} (hF : Dj F 0x0) (hs : Held b0 F s) (hf : ∀ y0, Held b0 F y0 → HeldR b0 F (f y0)) : Held b0 F (State.clearCmd s v f) := by
  unfold State.clearCmd
  refine ite_ind (Q := Held b0 F) (fun _ => ?_) (fun _ => ?_)
  · refine held_via (dj hF) ?_ ?_
    · assumption
    · intro y0 hy0
      refine hf _ ?_
      · assumption
  · assumption
theorem held_execCounterLowWordRead {sess addr s} (hF : Dj F 0x8) (hs : Held b0 F s) : HeldR b0 F (execCounterLowWordRead sess addr s) := by
  unfold execCounterLowWordRead
  refine heldR_next ?_
  refine ite_ind (Q := Held b0 F) (fun _ => ?_) (fun _ => ?_)
  · exact held_shadowLow (dj hF) ‹_›
  · assumption
theorem held_dropShadow {s n a} (hF : Dj F 0x8) (hs : Held b0 F s) : Held b0 F (State.dropShadow s n a) := by
  unfold State.dropShadow
  extract_lets -merge -underBinder +onlyGivenNames lo
  try clear_value lo
  exact held_modSession (dj hF) ‹_›
theorem held_shadowOp {s n} (hF : Dj F 0x8) (hs : Held b0 F s) : Held b0 F (State.shadowOp s n) := by
  unfold State.shadowOp
  extract_lets -merge -underBinder +onlyGivenNames w
  try clear_value w
  exact held_modSession (dj hF) ‹_›
theorem held_setSel {s who a v} (hF : Dj F 0x8) (hs : Held b0 F s) : Held b0 F (State.setSel s who a v) := by
  unfold State.setSel
  extract_lets -merge -underBinder +onlyGivenNames w
  try clear_value w
  split
  · exact held_modHq (dj hF) ‹_›
  · exact held_modSession (dj hF) ‹_›
theorem held_execOpMsRead {sess s} (hF : Dj F 0x8) (hs : Held b0 F s) : HeldR b0 F (execOpMsRead sess s) := by
  unfold execOpMsRead
  refine heldR_next ?_
  refine ite_ind (Q := Held b0 F) (fun _ => ?_) (fun _ => ?_)
  · exact held_shadowOp (dj hF) ‹_›
  · assumption
theorem held_holdHigh {s n a v} (hF : Dj F 0x8) (hs : Held b0 F s) : Held b0 F (State.holdHigh s n a v) := by
  unfold State.holdHigh
  exact held_modSession (dj hF) ‹_›
theorem held_execReleaseOwner {sess key q s} (hF : Dj F 0x8) (hs : Held b0 F s) : HeldR b0 F (execReleaseOwner sess key q s) := by
  unfold execReleaseOwner
  refine heldR_next ?_
  refine ite_ind (Q := Held b0 F) (fun _ => ?_) (fun _ => ?_)
  · exact held_releaseQueue (dj hF) ‹_›
  · assumption
theorem held_drawBool {s} (hF : Dj F 0x1000000) (hs : Held b0 F s) : Held2 b0 F (State.drawBool s) := by
  unfold State.drawBool
  split
  rename_i w t heq
  have ht : Held b0 F t := held2_eq heq (by
    exact held_drawWord (dj hF) ‹_›
    )
  clear heq
  exact held2_mk ‹_›
theorem held_execCounterHighWordWrite {sess addr value s} (hF : Dj F 0x20000000000009) (hs : Held b0 F s) : HeldR b0 F (execCounterHighWordWrite sess addr value s) := by
  unfold execCounterHighWordWrite
  refine heldR_next ?_
  refine ite_ind (Q := Held b0 F) (fun _ => ?_) (fun _ => ?_)
  · refine held_debugWrite (dj hF) ?_ ?_
    · exact held_dropShadow (dj hF) ‹_›
    · intro s hs
      exact held_holdHigh (dj hF) ‹_›
  · assumption
theorem held_controlLow {s n a v} (hF : Dj F 0x3fffff00b41b3b) (hs : Held b0 F s) : HeldO b0 F (State.controlLow s n a v) := by
  unfold State.controlLow
  extract_lets -merge -underBinder +onlyGivenNames key
  try clear_value key
  extract_lets -merge -underBinder +onlyGivenNames cmd
  try clear_value cmd
  refine ite_ind (Q := HeldO b0 F) (fun _ => ?_) (fun _ => ?_)
  · refine heldO_some ?_
    refine ite_ind (Q := Held b0 F) (fun _ => ?_) (fun _ => ?_)
    · refine held_via (dj hF) ?_ ?_
      · assumption
      · intro y0 hy0
        exact held_execAbortStage (dj hF) ‹_›
    · refine ite_ind (Q := Held b0 F) (fun _ => ?_) (fun _ => ?_)
      · refine held_via (dj hF) ?_ ?_
        · assumption
        · intro y0 hy0
          exact held_execAbortPatch (dj hF) ‹_›
      · assumption
  · refine ite_ind (Q := HeldO b0 F) (fun _ => ?_) (fun _ => ?_)
    · refine heldO_some ?_
      refine ite_ind (Q := Held b0 F) (fun _ => ?_) (fun _ => ?_)
      · refine held_via (dj hF) ?_ ?_
        · assumption
        · intro y0 hy0
          exact held_execEnterBerth (dj hF) ‹_›
      · refine ite_ind (Q := Held b0 F) (fun _ => ?_) (fun _ => ?_)
        · refine held_via (dj hF) ?_ ?_
          · assumption
          · intro y0 hy0
            exact held_execCancelBerth (dj hF) ‹_›
        · assumption
    · refine ite_ind (Q := HeldO b0 F) (fun _ => ?_) (fun _ => ?_)
      · refine heldO_some ?_
        refine held_via (dj hF) ?_ ?_
        · assumption
        · intro y0 hy0
          exact held_execPwrDomainReset (dj hF) ‹_›
      · refine ite_ind (Q := HeldO b0 F) (fun _ => ?_) (fun _ => ?_)
        · refine heldO_some ?_
          refine held_clearCmd (dj hF) ?_ ?_
          · assumption
          · intro y0 hy0
            exact held_execSecClearCounters (dj hF) ‹_›
        · refine ite_ind (Q := HeldO b0 F) (fun _ => ?_) (fun _ => ?_)
          · refine heldO_some ?_
            refine ite_ind (Q := Held b0 F) (fun _ => ?_) (fun _ => ?_)
            · refine held_via (dj hF) ?_ ?_
              · assumption
              · intro y0 hy0
                exact held_execEstClearCounters (dj hF) ‹_›
            · refine ite_ind (Q := Held b0 F) (fun _ => ?_) (fun _ => ?_)
              · refine held_via (dj hF) ?_ ?_
                · assumption
                · intro y0 hy0
                  exact held_execAbortRestore (dj hF) ‹_›
              · assumption
          · refine ite_ind (Q := HeldO b0 F) (fun _ => ?_) (fun _ => ?_)
            · refine heldO_some ?_
              refine held_clearCmd (dj hF) ?_ ?_
              · assumption
              · intro y0 hy0
                exact held_execPltProtClearCounters (dj hF) ‹_›
            · refine ite_ind (Q := HeldO b0 F) (fun _ => ?_) (fun _ => ?_)
              · refine heldO_some ?_
                refine ite_ind (Q := Held b0 F) (fun _ => ?_) (fun _ => ?_)
                · refine held_via (dj hF) ?_ ?_
                  · assumption
                  · intro y0 hy0
                    exact held_execPltDispClearCounters (dj hF) ‹_›
                · refine ite_ind (Q := Held b0 F) (fun _ => ?_) (fun _ => ?_)
                  · refine held_via (dj hF) ?_ ?_
                    · assumption
                    · intro y0 hy0
                      exact held_execReturnToSource (dj hF) ‹_›
                  · assumption
              · refine map_ind (fun _ => ?_)
                refine ite_ind (Q := Held b0 F) (fun _ => ?_) (fun _ => ?_)
                · refine held_via (dj hF) ?_ ?_
                  · assumption
                  · intro y0 hy0
                    exact held_execRetrain (dj hF) ‹_›
                · refine ite_ind (Q := Held b0 F) (fun _ => ?_) (fun _ => ?_)
                  · refine held_via (dj hF) ?_ ?_
                    · assumption
                    · intro y0 hy0
                      exact held_execXngClearCounters (dj hF) ‹_›
                  · assumption
theorem held_controlHigh {s n a v} (hF : Dj F 0x3fffff01bfc06b) (hs : Held b0 F s) : HeldO b0 F (State.controlHigh s n a v) := by
  unfold State.controlHigh
  extract_lets -merge -underBinder +onlyGivenNames key
  try clear_value key
  extract_lets -merge -underBinder +onlyGivenNames cmd
  try clear_value cmd
  extract_lets -merge -underBinder +onlyGivenNames arg
  try clear_value arg
  refine ite_ind (Q := HeldO b0 F) (fun _ => ?_) (fun _ => ?_)
  · refine heldO_some ?_
    refine ite_ind (Q := Held b0 F) (fun _ => ?_) (fun _ => ?_)
    · refine held_via (dj hF) ?_ ?_
      · assumption
      · intro y0 hy0
        exact held_execSafClearCounters (dj hF) ‹_›
    · refine ite_ind (Q := Held b0 F) (fun _ => ?_) (fun _ => ?_)
      · refine held_via (dj hF) ?_ ?_
        · assumption
        · intro y0 hy0
          exact held_execResetFunction (dj hF) ‹_›
      · refine ite_ind (Q := Held b0 F) (fun _ => ?_) (fun _ => ?_)
        · split
          rename_i x s heq
          have hs : Held b0 F s := held2_eq heq (by
            exact held_drawBool (dj hF) ‹_›
            )
          clear heq
          split
          rename_i y s heq
          have hs : Held b0 F s := held2_eq heq (by
            exact held_drawBool (dj hF) ‹_›
            )
          clear heq
          refine held_via (dj hF) ?_ ?_
          · assumption
          · intro y0 hy0
            exact held_execRepairAck (dj hF) ‹_›
        · assumption
  · refine ite_ind (Q := HeldO b0 F) (fun _ => ?_) (fun _ => ?_)
    · refine heldO_some ?_
      refine ite_ind (Q := Held b0 F) (fun _ => ?_) (fun _ => ?_)
      · refine held_via (dj hF) ?_ ?_
        · assumption
        · intro y0 hy0
          exact held_execSafetyConfirm (dj hF) ‹_›
      · assumption
    · refine ite_ind (Q := HeldO b0 F) (fun _ => ?_) (fun _ => ?_)
      · refine heldO_some ?_
        refine held_clearCmd (dj hF) ?_ ?_
        · assumption
        · intro y0 hy0
          exact held_execFioClearCounters (dj hF) ‹_›
      · refine ite_ind (Q := HeldO b0 F) (fun _ => ?_) (fun _ => ?_)
        · refine heldO_some ?_
          refine held_clearCmd (dj hF) ?_ ?_
          · assumption
          · intro y0 hy0
            exact held_execNetClearCounters (dj hF) ‹_›
        · refine ite_ind (Q := HeldO b0 F) (fun _ => ?_) (fun _ => ?_)
          · refine heldO_some ?_
            refine held_clearCmd (dj hF) ?_ ?_
            · assumption
            · intro y0 hy0
              exact held_execAcqClearCounters (dj hF) ‹_›
          · refine ite_ind (Q := HeldO b0 F) (fun _ => ?_) (fun _ => ?_)
            · refine heldO_some ?_
              refine held_clearCmd (dj hF) ?_ ?_
              · assumption
              · intro y0 hy0
                exact held_execClearTrace (dj hF) ‹_›
            · split
              · refine heldO_some ?_
                split
                · refine held_via (dj hF) ?_ ?_
                  · assumption
                  · intro y0 hy0
                    exact held_execMbcClearCounters (dj hF) ‹_›
                · refine held_via (dj hF) ?_ ?_
                  · assumption
                  · intro y0 hy0
                    exact held_execRestrict (dj hF) ‹_›
                · refine held_via (dj hF) ?_ ?_
                  · assumption
                  · intro y0 hy0
                    exact held_execUnrestrict (dj hF) ‹_›
                · refine held_via (dj hF) ?_ ?_
                  · assumption
                  · intro y0 hy0
                    exact held_execInhibitRecovery (dj hF) ‹_›
                · refine held_via (dj hF) ?_ ?_
                  · assumption
                  · intro y0 hy0
                    exact held_execAllowRecovery (dj hF) ‹_›
                · assumption
              · refine heldO_some ?_
                refine held_clearCmd (dj hF) ?_ ?_
                · assumption
                · intro y0 hy0
                  exact held_execSerClearCounters (dj hF) ‹_›
              · exact trivial
theorem held_execCloseSession {sess key target s} (hF : Dj F 0x30005e00a002db) (hs : Held b0 F s) : HeldR b0 F (execCloseSession sess key target s) := by
  unfold execCloseSession
  refine heldR_next ?_
  refine ite_ind (Q := Held b0 F) (fun _ => ?_) (fun _ => ?_)
  · exact held_closeNamed (dj hF) ‹_›
  · assumption
theorem held_startCmd {s n v} (hF : Dj F 0x3fffff00ffffff) (hs : Held b0 F s) : Held b0 F (State.startCmd s n v) := by
  unfold State.startCmd
  refine ite_ind (Q := Held b0 F) (fun _ => ?_) (fun _ => ?_)
  · refine held_via (dj hF) ?_ ?_
    · assumption
    · intro y0 hy0
      exact held_execHostReset (dj hF) ‹_›
  · refine ite_ind (Q := Held b0 F) (fun _ => ?_) (fun _ => ?_)
    · refine held_via (dj hF) ?_ ?_
      · assumption
      · intro y0 hy0
        exact held_execAttemptStart (dj hF) ‹_›
    · assumption
theorem held_readReg {s n a} (hF : Dj F 0x3fffff01000089) (hs : Held b0 F s) : Held2 b0 F (State.readReg s n a) := by
  unfold State.readReg
  refine ite_ind (Q := Held2 b0 F) (fun _ => ?_) (fun _ => ?_)
  · exact held_stageData (dj hF) ‹_›
  · refine ite_ind (Q := Held2 b0 F) (fun _ => ?_) (fun _ => ?_)
    · exact held_memAccess (dj hF) ‹_›
    · refine ite_ind (Q := Held2 b0 F) (fun _ => ?_) (fun _ => ?_)
      · exact held_drawWord (dj hF) ‹_›
      · refine ite_ind (Q := Held2 b0 F) (fun _ => ?_) (fun _ => ?_)
        · exact held_alarmWord (dj hF) ‹_›
        · extract_lets -merge -underBinder +onlyGivenNames w
          try clear_value w
          extract_lets -merge -underBinder +onlyGivenNames s
          have hs : Held b0 F s := by
            unfold s
            refine ite_ind (Q := Held b0 F) (fun _ => ?_) (fun _ => ?_)
            · exact held_shadowOp (dj hF) ‹_›
            · refine ite_ind (Q := Held b0 F) (fun _ => ?_) (fun _ => ?_)
              · exact held_modSession (dj hF) ‹_›
              · refine ite_ind (Q := Held b0 F) (fun _ => ?_) (fun _ => ?_)
                · exact held_shadowLow (dj hF) ‹_›
                · refine ite_ind (Q := Held b0 F) (fun _ => ?_) (fun _ => ?_)
                  · exact held_dropShadow (dj hF) ‹_›
                  · assumption
          try clear_value s
          exact held2_mk (held_readClears (dj hF) ‹_›)
theorem held_plainWrite {s who a v} (hF : Dj F 0x3fffff00200809) (hs : Held b0 F s) : Held b0 F (State.plainWrite s who a v) := by
  unfold State.plainWrite
  extract_lets -merge -underBinder +onlyGivenNames s
  have hs : Held b0 F s := by
    unfold s
    refine ite_ind (Q := Held b0 F) (fun _ => ?_) (fun _ => ?_)
    · exact held_setSel (dj hF) ‹_›
    · refine ite_ind (Q := Held b0 F) (fun _ => ?_) (fun _ => ?_)
      · exact held_setWord (dj hF) ‹_›
      · exact held_storeReg (dj hF) ‹_›
  try clear_value s
  refine ite_ind (Q := Held b0 F) (fun _ => ?_) (fun _ => ?_)
  · exact held_showPwm (dj hF) ‹_›
  · refine ite_ind (Q := Held b0 F) (fun _ => ?_) (fun _ => ?_)
    · exact held_modDisp (dj hF) ‹_›
    · assumption
theorem held_controlMid {s n a v} (hF : Dj F 0x3fffff0124300b) (hs : Held b0 F s) : HeldO b0 F (State.controlMid s n a v) := by
  unfold State.controlMid
  extract_lets -merge -underBinder +onlyGivenNames key
  try clear_value key
  extract_lets -merge -underBinder +onlyGivenNames cmd
  try clear_value cmd
  refine ite_ind (Q := HeldO b0 F) (fun _ => ?_) (fun _ => ?_)
  · refine heldO_some ?_
    refine held_clearCmd (dj hF) ?_ ?_
    · assumption
    · intro y0 hy0
      exact held_execLoopClearCounters (dj hF) ‹_›
  · refine ite_ind (Q := HeldO b0 F) (fun _ => ?_) (fun _ => ?_)
    · refine heldO_some ?_
      refine ite_ind (Q := Held b0 F) (fun _ => ?_) (fun _ => ?_)
      · refine held_via (dj hF) ?_ ?_
        · assumption
        · intro y0 hy0
          exact held_execSyncArm (dj hF) ‹_›
      · refine ite_ind (Q := Held b0 F) (fun _ => ?_) (fun _ => ?_)
        · refine held_via (dj hF) ?_ ?_
          · assumption
          · intro y0 hy0
            exact held_execSyncDisarm (dj hF) ‹_›
        · assumption
    · refine ite_ind (Q := HeldO b0 F) (fun _ => ?_) (fun _ => ?_)
      · refine heldO_some ?_
        refine held_clearCmd (dj hF) ?_ ?_
        · assumption
        · intro y0 hy0
          exact held_execPwmClearCounters (dj hF) ‹_›
      · refine ite_ind (Q := HeldO b0 F) (fun _ => ?_) (fun _ => ?_)
        · refine heldO_some ?_
          refine held_clearCmd (dj hF) ?_ ?_
          · assumption
          · intro y0 hy0
            exact held_execGrpClearCounters (dj hF) ‹_›
        · split
          · refine heldO_some ?_
            refine held_clearCmd (dj hF) ?_ ?_
            · assumption
            · intro y0 hy0
              exact held_execCarClearCounters (dj hF) ‹_›
          · refine heldO_some ?_
            refine ite_ind (Q := Held b0 F) (fun _ => ?_) (fun _ => ?_)
            · refine held_via (dj hF) ?_ ?_
              · assumption
              · intro y0 hy0
                exact held_execDoorClearCounters (dj hF) ‹_›
            · refine ite_ind (Q := Held b0 F) (fun _ => ?_) (fun _ => ?_)
              · refine held_via (dj hF) ?_ ?_
                · assumption
                · intro y0 hy0
                  exact held_execClearEnvelope (dj hF) ‹_›
              · assumption
          · refine heldO_some ?_
            refine ite_ind (Q := Held b0 F) (fun _ => ?_) (fun _ => ?_)
            · refine held_via (dj hF) ?_ ?_
              · assumption
              · intro y0 hy0
                exact held_execPosClearCounters (dj hF) ‹_›
            · refine ite_ind (Q := Held b0 F) (fun _ => ?_) (fun _ => ?_)
              · split
                rename_i m s heq
                have hs : Held b0 F s := held2_eq heq (by
                  exact held_drawBool (dj hF) ‹_›
                  )
                clear heq
                split
                rename_i t s heq
                have hs : Held b0 F s := held2_eq heq (by
                  exact held_drawBool (dj hF) ‹_›
                  )
                clear heq
                refine held_via (dj hF) ?_ ?_
                · assumption
                · intro y0 hy0
                  exact held_execClearFault (dj hF) ‹_›
              · assumption
          · exact trivial
theorem held_control {s n a v} (hF : Dj F 0x3fffff01bffbfb) (hs : Held b0 F s) : HeldO b0 F (State.control s n a v) := by
  unfold State.control
  extract_lets -merge -underBinder +onlyGivenNames key
  try clear_value key
  refine ite_ind (Q := HeldO b0 F) (fun _ => ?_) (fun _ => ?_)
  · exact heldO_some ‹_›
  · refine ite_ind (Q := HeldO b0 F) (fun _ => ?_) (fun _ => ?_)
    · refine heldO_some ?_
      refine ite_ind (Q := Held b0 F) (fun _ => ?_) (fun _ => ?_)
      · refine held_via (dj hF) ?_ ?_
        · assumption
        · intro y0 hy0
          exact held_execCloseSession (dj hF) ‹_›
      · refine ite_ind (Q := Held b0 F) (fun _ => ?_) (fun _ => ?_)
        · refine held_via (dj hF) ?_ ?_
          · assumption
          · intro y0 hy0
            exact held_execReleaseOwner (dj hF) ‹_›
        · assumption
    · refine or_ind ?_ ?_
      · refine or_ind ?_ ?_
        · exact held_controlLow (dj hF) ‹_›
        · exact held_controlMid (dj hF) ‹_›
      · exact held_controlHigh (dj hF) ‹_›
theorem held_writeRow {s n a v} (hF : Dj F 0x3fffff013098cb) (hs : Held b0 F s) : Held b0 F (State.writeRow s n a v) := by
  unfold State.writeRow
  refine ite_ind (Q := Held b0 F) (fun _ => ?_) (fun _ => ?_)
  · exact held_holdDomains (dj hF) ‹_›
  · refine ite_ind (Q := Held b0 F) (fun _ => ?_) (fun _ => ?_)
    · refine held_via (dj hF) ?_ ?_
      · assumption
      · intro y0 hy0
        exact held_execSourceSelectWrite (dj hF) ‹_›
    · refine ite_ind (Q := Held b0 F) (fun _ => ?_) (fun _ => ?_)
      · refine held_via (dj hF) ?_ ?_
        · assumption
        · intro y0 hy0
          exact held_execLoopSigWrite (dj hF) ‹_›
      · refine ite_ind (Q := Held b0 F) (fun _ => ?_) (fun _ => ?_)
        · refine held_via (dj hF) ?_ ?_
          · assumption
          · intro y0 hy0
            exact held_execPwmFaultLatchClear (dj hF) ‹_›
        · refine ite_ind (Q := Held b0 F) (fun _ => ?_) (fun _ => ?_)
          · refine held_via (dj hF) ?_ ?_
            · assumption
            · intro y0 hy0
              exact held_execFioOutSetWrite (dj hF) ‹_›
          · refine ite_ind (Q := Held b0 F) (fun _ => ?_) (fun _ => ?_)
            · refine held_via (dj hF) ?_ ?_
              · assumption
              · intro y0 hy0
                exact held_execFioOutClearWrite (dj hF) ‹_›
            · refine ite_ind (Q := Held b0 F) (fun _ => ?_) (fun _ => ?_)
              · refine held_via (dj hF) ?_ ?_
                · assumption
                · intro y0 hy0
                  exact held_execOutputLatchClear (dj hF) ‹_›
              · refine ite_ind (Q := Held b0 F) (fun _ => ?_) (fun _ => ?_)
                · refine held_via (dj hF) ?_ ?_
                  · assumption
                  · intro y0 hy0
                    exact held_execStageIndexWrite (dj hF) ‹_›
                · refine ite_ind (Q := Held b0 F) (fun _ => ?_) (fun _ => ?_)
                  · refine held_via (dj hF) ?_ ?_
                    · assumption
                    · intro y0 hy0
                      exact held_execStageDataAccess (dj hF) ‹_›
                  · refine ite_ind (Q := Held b0 F) (fun _ => ?_) (fun _ => ?_)
                    · refine held_via (dj hF) ?_ ?_
                      · assumption
                      · intro y0 hy0
                        exact held_execDbgHaltRequestWrite (dj hF) ‹_›
                    · refine ite_ind (Q := Held b0 F) (fun _ => ?_) (fun _ => ?_)
                      · refine held_via (dj hF) ?_ ?_
                        · assumption
                        · intro y0 hy0
                          exact held_execDbgMemAccess (dj hF) ‹_›
                      · split
                        · refine held_via (dj hF) ?_ ?_
                          · assumption
                          · intro y0 hy0
                            exact held_execSiteTagWrite (dj hF) ‹_›
                        · refine held_via (dj hF) ?_ ?_
                          · assumption
                          · intro y0 hy0
                            exact held_execMbcRxAckWrite (dj hF) ‹_›
                        · refine ite_ind (Q := Held b0 F) (fun _ => ?_) (fun _ => ?_)
                          · refine held_debugWrite (dj hF) ?_ ?_
                            · assumption
                            · intro s hs
                              exact held_plainWrite (dj hF) ‹_›
                          · exact held_plainWrite (dj hF) ‹_›
theorem held_execRegisterWrite {who addr value s} (hF : Dj F 0x3fffff00200809) (hs : Held b0 F s) : HeldR b0 F (execRegisterWrite who addr value s) := by
  unfold execRegisterWrite
  refine heldR_next ?_
  refine ite_ind (Q := Held b0 F) (fun _ => ?_) (fun _ => ?_)
  · exact held_plainWrite (dj hF) ‹_›
  · refine ite_ind (Q := Held b0 F) (fun _ => ?_) (fun _ => ?_)
    · exact held_plainWrite (dj hF) ‹_›
    · assumption
theorem held_writeReg {s n a v rmw} (hF : Dj F 0x3fffff01bffbfb) (hs : Held b0 F s) : Held2 b0 F (State.writeReg s n a v rmw) := by
  unfold State.writeReg
  split
  · rename_i t heq
    have ht : Held b0 F t := heldO_eq heq (by
      exact held_control (dj hF) ‹_›
      )
    clear heq
    exact held2_mk ‹_›
  · extract_lets -merge -underBinder +onlyGivenNames s
    have hs : Held b0 F s := by
      unfold s
      refine ite_ind (Q := Held b0 F) (fun _ => ?_) (fun _ => ?_)
      · exact held_dropShadow (dj hF) ‹_›
      · assumption
    try clear_value s
    refine ite_ind (Q := Held2 b0 F) (fun _ => ?_) (fun _ => ?_)
    · exact held2_mk (held_writeRow (dj hF) ‹_›)
    · refine ite_ind (Q := Held2 b0 F) (fun _ => ?_) (fun _ => ?_)
      · refine held2_mk ?_
        refine held_debugWrite (dj hF) ?_ ?_
        · assumption
        · intro s hs
          exact held_holdHigh (dj hF) ‹_›
      · refine ite_ind (Q := Held2 b0 F) (fun _ => ?_) (fun _ => ?_)
        · refine held2_mk ?_
          refine held_debugWrite (dj hF) ?_ ?_
          · assumption
          · intro s hs
            exact held_commitLow (dj hF) ‹_›
        · exact held2_mk (held_writeRow (dj hF) ‹_›)

end Sys2Proof.Machine
end

