-- ==== Sys2Proof/Laws/KeptHelm.lean ====
section
/-!
SUPPORT. The operations of Machine/Helm.lean change only the parts that their masks name (Laws/Held.lean).
-/
namespace Sys2Proof.Machine
open Sys2Proof
set_option Elab.async false

variable {b0 : State} {F : Nat}

theorem held_tlsFail {s n} (hF : Dj F 0x4000000000009) (hs : Held b0 F s) : Held b0 F (State.tlsFail s n) := by
  unfold State.tlsFail
  exact held_modHq (dj hF) (held_inc (dj hF) ‹_› (off_NET_TLS_FAILURES (dj hF)))
theorem held_ackEvents {s q seq} (hF : Dj F 0x1000000009) (hs : Held b0 F s) : Held b0 F (State.ackEvents s q seq) := by
  unfold State.ackEvents
  extract_lets -merge -underBinder +onlyGivenNames e
  try clear_value e
  extract_lets -merge -underBinder +onlyGivenNames left
  try clear_value left
  extract_lets -merge -underBinder +onlyGivenNames s
  have hs : Held b0 F s := held_setEventQ (dj hF) ‹_›
  try clear_value s
  refine ite_ind (Q := Held b0 F) (fun _ => ?_) (fun _ => ?_)
  · exact held_wr (dj hF) ‹_› (off_HQ_EQ_ACKED_SEQ (dj hF))
  · assumption
theorem held_execHelmDisconnect {sess s} (hF : Dj F 0x30005e00a002db) (hs : Held b0 F s) : HeldR b0 F (execHelmDisconnect sess s) := by
  unfold execHelmDisconnect
  exact heldR_next (held_closeSession (dj hF) ‹_›)
theorem held_roleMsg {s n tag mask} (hF : Dj F 0x800800009) (hs : Held b0 F s) : Held b0 F (State.roleMsg s n tag mask) := by
  unfold State.roleMsg
  refine held_helm (dj hF) ?_ ?_
  · assumption
  · intro s hs
    extract_lets -merge -underBinder +onlyGivenNames s
    have hs : Held b0 F s := held_modSession (dj hF) ‹_›
    try clear_value s
    exact held_reply (dj hF) ‹_›
theorem held_execOversizeMessage {sess len s} (hF : Dj F 0x30005e00a002db) (hs : Held b0 F s) : HeldR b0 F (execOversizeMessage sess len s) := by
  unfold execOversizeMessage
  refine heldR_next ?_
  refine ite_ind (Q := Held b0 F) (fun _ => ?_) (fun _ => ?_)
  · exact held_closeSession (dj hF) ‹_›
  · assumption
theorem held_mooringFirst {s n q mode} (hF : Dj F 0x800008) (hs : Held b0 F s) : Held b0 F (State.mooringFirst s n q mode) := by
  unfold State.mooringFirst
  split
  · refine ite_ind (Q := Held b0 F) (fun _ => ?_) (fun _ => ?_)
    · exact held_sendTo (dj hF) ‹_›
    · assumption
  · assumption
theorem held_writePair {s n a v hi} (hF : Dj F 0x3fffff00000009) (hs : Held b0 F s) : Held b0 F (State.writePair s n a v hi) := by
  unfold State.writePair
  refine held_debugWrite (dj hF) ?_ ?_
  · exact held_modSession (dj hF) (held_dropShadow (dj hF) ‹_›)
  · intro s hs
    exact held_storeReg (dj hF) (held_storeReg (dj hF) ‹_›)
theorem held_readGo {n k a got s} (hF : Dj F 0x3fffff01000089) (hs : Held b0 F s) : Held2 b0 F (State.readGo n k a got s) := by
  induction k generalizing a got s with
  | zero => exact hs
  | succ k ih =>
    unfold State.readGo
    refine ite_ind (Q := Held2 b0 F) (fun _ => hs) (fun _ => ?_)
    refine ite_ind (Q := Held2 b0 F) (fun _ => hs) (fun _ => ?_)
    exact ih (held2_snd (held_readReg (dj hF) hs))
theorem held_listen {s n q on} (hF : Dj F 0x8) (hs : Held b0 F s) : Held b0 F (State.listen s n q on) := by
  unfold State.listen
  exact held_modSession (dj hF) ‹_›
theorem held_ackMsg {s n tag q seq} (hF : Dj F 0x1800800009) (hs : Held b0 F s) : Held b0 F (State.ackMsg s n tag q seq) := by
  unfold State.ackMsg
  refine held_helm (dj hF) ?_ ?_
  · assumption
  · intro s hs
    refine ite_ind (Q := Held b0 F) (fun _ => ?_) (fun _ => ?_)
    · exact held_reply (dj hF) ‹_›
    · refine ite_ind (Q := Held b0 F) (fun _ => ?_) (fun _ => ?_)
      · exact held_reply (dj hF) ‹_›
      · refine ite_ind (Q := Held b0 F) (fun _ => ?_) (fun _ => ?_)
        · exact held_reply (dj hF) ‹_›
        · exact held_reply (dj hF) (held_ackEvents (dj hF) ‹_›)
theorem held_execPartnerSilenceTimeout {_kind _a _b s} (hF : Dj F 0x0) (hs : Held b0 F s) : HeldR b0 F (execPartnerSilenceTimeout _kind _a _b s) := by
  unfold execPartnerSilenceTimeout
  exact heldR_next ‹_›
theorem held_execQueueAck {sess tag q seq s} (hF : Dj F 0x1800800009) (hs : Held b0 F s) : HeldR b0 F (execQueueAck sess tag q seq s) := by
  unfold execQueueAck
  exact heldR_next (held_ackMsg (dj hF) ‹_›)
theorem held_sendEvent {s n q} (hF : Dj F 0x800008) (hs : Held b0 F s) : Held b0 F (State.sendEvent s n q) := by
  unfold State.sendEvent
  extract_lets -merge -underBinder +onlyGivenNames e
  try clear_value e
  refine ite_ind (Q := Held b0 F) (fun _ => ?_) (fun _ => ?_)
  · split
    · exact held_sendTo (dj hF) (held_setEventQ (dj hF) ‹_›)
    · assumption
  · split
    · exact held_sendTo (dj hF) (held_modSession (dj hF) ‹_›)
    · assumption
theorem held_accept {s q} (hF : Dj F 0x1000000009) (hs : Held b0 F s) : Held2 b0 F (State.accept s q) := by
  unfold State.accept
  exact held2_mk (held_modHq (dj hF) (held_inc (dj hF) ‹_› (off_HQ_CQ_ACCEPTED (dj hF))))
theorem held_restoreTaken {s r} (hF : Dj F 0x1000500020020b) (hs : Held b0 F s) : Held b0 F (State.restoreTaken s r) := by
  unfold State.restoreTaken
  extract_lets -merge -underBinder +onlyGivenNames es
  try clear_value es
  extract_lets -merge -underBinder +onlyGivenNames s
  have hs : Held b0 F s := by
    unfold s
    refine foldl_ind (Q := Held b0 F) (fun s _ hs => ?_) ?_
    · refine elim_ind (Q := Held b0 F) ?_ (fun _ _ => ?_)
      · assumption
      · exact held_modEst (dj hF) ‹_›
    · assumption
  try clear_value s
  exact held_restoreApplied (dj hF) (held_mk_est (dj hF) ‹_›)
theorem held_tlsDone {s n x roles serial chain good self} (hF : Dj F 0x1400140020000b) (hs : Held b0 F s) : Held b0 F (State.tlsDone s n x roles serial chain good self) := by
  unfold State.tlsDone
  refine ite_ind (Q := Held b0 F) (fun _ => ?_) (fun _ => ?_)
  · exact held_tlsFail (dj hF) ‹_›
  · refine ite_ind (Q := Held b0 F) (fun _ => ?_) (fun _ => ?_)
    · refine ite_ind (Q := Held b0 F) (fun _ => ?_) (fun _ => ?_)
      · exact held_setSession (dj hF) ‹_›
      · exact held_secEvent (dj hF) (held_inc (dj hF) (held_tlsFail (dj hF) ‹_›) (off_SEC_CERT_REJECTS (dj hF)))
    · refine ite_ind (Q := Held b0 F) (fun _ => ?_) (fun _ => ?_)
      · exact held_setSession (dj hF) ‹_›
      · exact held_secEvent (dj hF) (held_inc (dj hF) (held_tlsFail (dj hF) ‹_›) (off_SEC_CERT_REJECTS (dj hF)))
theorem held_setCq {s q l} (hF : Dj F 0x8) (hs : Held b0 F s) : Held b0 F (State.setCq s q l) := by
  unfold State.setCq
  exact held_modHq (dj hF) ‹_›
theorem held_execTlsHandshakeTimeout {sess s} (hF : Dj F 0x4000000000009) (hs : Held b0 F s) : HeldR b0 F (execTlsHandshakeTimeout sess s) := by
  unfold execTlsHandshakeTimeout
  refine heldR_next ?_
  refine ite_ind (Q := Held b0 F) (fun _ => ?_) (fun _ => ?_)
  · exact held_tlsFail (dj hF) ‹_›
  · assumption
theorem held_writeGo {n l st s} (hF : Dj F 0x3fffff01bffbfb) (hs : Held b0 F s) : Held2 b0 F (State.writeGo n l st s) := by
  induction l generalizing st s with
  | nil => exact hs
  | cons x t ih =>
    unfold State.writeGo
    refine ite_ind (Q := Held2 b0 F) (fun _ => hs) (fun _ => ?_)
    refine ite_ind (Q := Held2 b0 F) (fun _ => hs) (fun _ => ?_)
    refine ite_ind (Q := Held2 b0 F) (fun _ => ih hs) (fun _ => ?_)
    split
    · exact ih (held_writePair (dj hF) hs)
    · exact ih (held2_snd (held_writeReg (dj hF) hs))
theorem held_connect {s n} (hF : Dj F 0x8) (hs : Held b0 F s) : Held b0 F (State.connect s n) := by
  unfold State.connect
  exact held_modHq (dj hF) (held_setSession (dj hF) ‹_›)
theorem held_readWindow {s w a k} (hF : Dj F 0x1000000) (hs : Held b0 F s) : Held2 b0 F (State.readWindow s w a k) := by
  induction k generalizing a s with
  | zero => exact hs
  | succ k ih => exact held2_mk (held2_snd (ih (held2_snd (held_windowWord (dj hF) hs))))
theorem held_execStandingRefresh {s} (hF : Dj F 0x5003000a08909) (hs : Held b0 F s) : HeldR b0 F (execStandingRefresh s) := by
  unfold execStandingRefresh
  refine heldR_next ?_
  refine ite_ind (Q := Held b0 F) (fun _ => ?_) (fun _ => ?_)
  · exact held_refreshAll (dj hF) ‹_›
  · assumption
theorem held_rmwGo {s n a mask value} (hF : Dj F 0x3fffff01bffbfb) (hs : Held b0 F s) : Held2 b0 F (State.rmwGo s n a mask value) := by
  unfold State.rmwGo
  refine ite_ind (Q := Held2 b0 F) (fun _ => hs) (fun _ => ?_)
  split
  rename_i old t heq
  have ht : Held b0 F t := held2_eq heq (by
    refine ite_ind (Q := Held2 b0 F) (fun _ => ?_) (fun _ => ?_)
    · split
      rename_i w u hu
      have h0 : Held s 0 u := held2_eq hu (held_memAccess (Nat.zero_and _) held_self)
      exact held2_mk (held_free (dj hF) hs h0.mono)
    · exact ite_ind (Q := Held2 b0 F) (fun _ => held_drawWord (dj hF) hs) (fun _ => held2_mk hs))
  split
  rename_i r u hu
  exact held2_mk (held2_eq hu (held_writeReg (dj hF) ht))
theorem held_execSessionIdleTimeout {sess s} (hF : Dj F 0x30005e00a002db) (hs : Held b0 F s) : HeldR b0 F (execSessionIdleTimeout sess s) := by
  unfold execSessionIdleTimeout
  exact heldR_next (held_closeNamed (dj hF) ‹_›)
theorem held_badMsg {s n b status} (hF : Dj F 0x800800009) (hs : Held b0 F s) : Held b0 F (State.badMsg s n b status) := by
  unfold State.badMsg
  extract_lets -merge -underBinder +onlyGivenNames tag
  try clear_value tag
  extract_lets -merge -underBinder +onlyGivenNames typ
  try clear_value typ
  refine held_helm (dj hF) ?_ ?_
  · assumption
  · intro s hs
    exact held_reply (dj hF) ‹_›
theorem held_bulkParts {n tag w base k off left s} (hF : Dj F 0x1800008) (hs : Held b0 F s) : Held b0 F (State.bulkParts n tag w base k off left s) := by
  induction k generalizing off left s with
  | zero => exact hs
  | succ k ih =>
    unfold State.bulkParts
    extract_lets len
    split
    rename_i l t heq
    have ht : Held b0 F t := held2_eq heq (held_readWindow (dj hF) hs)
    extract_lets more body
    exact ite_ind (Q := Held b0 F) (fun _ => ih (held_sendTo (dj hF) ht)) (fun _ => held_reply (dj hF) ht)
theorem held_enqueue {s q x} (hF : Dj F 0x1000000009) (hs : Held b0 F s) : Held b0 F (State.enqueue s q x) := by
  unfold State.enqueue
  extract_lets -merge -underBinder +onlyGivenNames l
  try clear_value l
  extract_lets -merge -underBinder +onlyGivenNames s
  have hs : Held b0 F s := held_setCq (dj hF) ‹_›
  try clear_value s
  exact held_wr (dj hF) ‹_› (off_HQ_CQ_HIGH_WATER (dj hF))
theorem held_execHelmConnect {port s} (hF : Dj F 0x4000000000009) (hs : Held b0 F s) : HeldR b0 F (execHelmConnect port s) := by
  unfold execHelmConnect
  refine heldR_next ?_
  refine ite_ind (Q := Held b0 F) (fun _ => ?_) (fun _ => ?_)
  · split
    · exact held_connect (dj hF) ‹_›
    · exact held_inc (dj hF) ‹_› (off_NET_HELM_REFUSED (dj hF))
  · assumption
theorem held_runAccess {s n x} (hF : Dj F 0x3fffff01bffbfb) (hs : Held b0 F s) : Held2 b0 F (State.runAccess s n x) := by
  unfold State.runAccess
  split
  · exact held_readGo (dj hF) ‹_›
  · exact held_writeGo (dj hF) ‹_›
  · exact held_rmwGo (dj hF) ‹_›
theorem held_startCmdOf {s q c rest} (hF : Dj F 0x10000200000069) (hs : Held b0 F s) : Held b0 F (State.startCmdOf s q c rest) := by
  unfold State.startCmdOf
  extract_lets -merge -underBinder +onlyGivenNames s
  have hs : Held b0 F s := held_modHq (dj hF) (held_setCq (dj hF) ‹_›)
  try clear_value s
  split
  · assumption
  · exact held_showDomains (dj hF) (held_modPwr (dj hF) ‹_›)
theorem held_restoreEnd {s n tag r} (hF : Dj F 0x10005000a0020b) (hs : Held b0 F s) : Held b0 F (State.restoreEnd s n tag r) := by
  unfold State.restoreEnd
  extract_lets -merge -underBinder +onlyGivenNames k
  try clear_value k
  extract_lets -merge -underBinder +onlyGivenNames s
  have hs : Held b0 F s := held_wrB (dj hF) ‹_› (off_EST_RESTORE_STATUS_STAGED (dj hF))
  try clear_value s
  extract_lets -merge -underBinder +onlyGivenNames zz0 s
  have hs : Held b0 F s := by
    unfold s
    refine ite_ind (Q := Held b0 F) (fun _ => ?_) (fun _ => ?_)
    · exact held_restoreTaken (dj hF) ‹_›
    · exact held_flag (dj hF) (held_wrB (dj hF) (held_wr (dj hF) (held_mk_est (dj hF) ‹_›) (off_EST_RESTORE_STATUS_RESULT (dj hF))) (off_EST_STATUS_RESTORE_RUNNING (dj hF))) (off_EST_EVENT_STATUS_RESTORE_DONE (dj hF))
  try clear_value s
  exact held_reply (dj hF) ‹_›
theorem held_execTlsHandshakeComplete {sess certRoles serial chain chainOk keyOk selfOk notBefore notAfter offer s} (hF : Dj F 0x1400140020000b) (hs : Held b0 F s) : HeldR b0 F (execTlsHandshakeComplete sess certRoles serial chain chainOk keyOk selfOk notBefore notAfter offer s) := by
  unfold execTlsHandshakeComplete
  refine heldR_next ?_
  split
  · assumption
  · refine ite_ind (Q := Held b0 F) (fun _ => ?_) (fun _ => ?_)
    · refine ite_ind (Q := Held b0 F) (fun _ => ?_) (fun _ => ?_)
      · exact held_tlsFail (dj hF) ‹_›
      · exact held_tlsDone (dj hF) ‹_›
    · assumption
theorem held_pushMsg {s n tag q e} (hF : Dj F 0x1800800009) (hs : Held b0 F s) : Held b0 F (State.pushMsg s n tag q e) := by
  unfold State.pushMsg
  refine held_helm (dj hF) ?_ ?_
  · assumption
  · intro s hs
    extract_lets -merge -underBinder +onlyGivenNames st
    try clear_value st
    refine ite_ind (Q := Held b0 F) (fun _ => ?_) (fun _ => ?_)
    · split
      rename_i id s heq
      have hs : Held b0 F s := held2_eq heq (by
        exact held_accept (dj hF) ‹_›
        )
      clear heq
      extract_lets -merge -underBinder +onlyGivenNames s
      have hs : Held b0 F s := held_enqueue (dj hF) ‹_›
      try clear_value s
      exact held_reply (dj hF) ‹_›
    · refine held_reply (dj hF) ?_
      refine ite_ind (Q := Held b0 F) (fun _ => ?_) (fun _ => ?_)
      · exact held_inc (dj hF) ‹_› (off_HQ_CQ_REFUSED (dj hF))
      · assumption
theorem held_execSessionRole {sess tag mask s} (hF : Dj F 0x800800009) (hs : Held b0 F s) : HeldR b0 F (execSessionRole sess tag mask s) := by
  unfold execSessionRole
  exact heldR_next (held_roleMsg (dj hF) ‹_›)
theorem held_fenceOut {s f} (hF : Dj F 0x8) (hs : Held b0 F s) : Held b0 F (State.fenceOut s f) := by
  unfold State.fenceOut
  exact held_modHq (dj hF) (held_setCq (dj hF) ‹_›)
theorem held_bulkMsg {s n tag addr len} (hF : Dj F 0x801800009) (hs : Held b0 F s) : Held b0 F (State.bulkMsg s n tag addr len) := by
  unfold State.bulkMsg
  refine held_helm (dj hF) ?_ ?_
  · assumption
  · intro s hs
    refine ite_ind (Q := Held b0 F) (fun _ => ?_) (fun _ => ?_)
    · exact held_reply (dj hF) ‹_›
    · split
      · exact held_reply (dj hF) ‹_›
      · refine ite_ind (Q := Held b0 F) (fun _ => ?_) (fun _ => ?_)
        · exact held_reply (dj hF) ‹_›
        · refine ite_ind (Q := Held b0 F) (fun _ => ?_) (fun _ => ?_)
          · exact held_reply (dj hF) ‹_›
          · exact held_bulkParts (dj hF) ‹_›
theorem held_fenceMsg {s n tag q scope timeout} (hF : Dj F 0x1800800009) (hs : Held b0 F s) : Held b0 F (State.fenceMsg s n tag q scope timeout) := by
  unfold State.fenceMsg
  refine held_helm (dj hF) ?_ ?_
  · assumption
  · intro s hs
    refine ite_ind (Q := Held b0 F) (fun _ => ?_) (fun _ => ?_)
    · exact held_reply (dj hF) ‹_›
    · refine ite_ind (Q := Held b0 F) (fun _ => ?_) (fun _ => ?_)
      · exact held_reply (dj hF) (held_inc (dj hF) ‹_› (off_HQ_CQ_REFUSED (dj hF)))
      · split
        rename_i id s heq
        have hs : Held b0 F s := held2_eq heq (by
          exact held_accept (dj hF) ‹_›
          )
        clear heq
        extract_lets -merge -underBinder +onlyGivenNames f
        try clear_value f
        exact held_modHq (dj hF) (held_enqueue (dj hF) ‹_›)
theorem held_fenceDone {s id} (hF : Dj F 0x1000800009) (hs : Held b0 F s) : Held b0 F (State.fenceDone s id) := by
  unfold State.fenceDone
  split
  · refine ite_ind (Q := Held b0 F) (fun _ => ?_) (fun _ => ?_)
    · extract_lets -merge -underBinder +onlyGivenNames s
      have hs : Held b0 F s := held_inc (dj hF) (held_fenceOut (dj hF) ‹_›) (off_HQ_FENCE_EPOCH (dj hF))
      try clear_value s
      exact held_replyTo (dj hF) ‹_›
    · assumption
  · assumption
theorem held_execFence {sess tag q scope timeout s} (hF : Dj F 0x1800800009) (hs : Held b0 F s) : HeldR b0 F (execFence sess tag q scope timeout s) := by
  unfold execFence
  exact heldR_next (held_fenceMsg (dj hF) ‹_›)
theorem held_execBulkRead {sess tag addr len s} (hF : Dj F 0x801800009) (hs : Held b0 F s) : HeldR b0 F (execBulkRead sess tag addr len s) := by
  unfold execBulkRead
  exact heldR_next (held_bulkMsg (dj hF) ‹_›)
theorem held_execEventSend {sess q s} (hF : Dj F 0x800008) (hs : Held b0 F s) : HeldR b0 F (execEventSend sess q s) := by
  unfold execEventSend
  exact heldR_next (held_sendEvent (dj hF) ‹_›)
theorem held_subscribeMsg {s n tag q mode} (hF : Dj F 0x800800009) (hs : Held b0 F s) : Held b0 F (State.subscribeMsg s n tag q mode) := by
  unfold State.subscribeMsg
  refine held_helm (dj hF) ?_ ?_
  · assumption
  · intro s hs
    extract_lets -merge -underBinder +onlyGivenNames owner
    try clear_value owner
    refine ite_ind (Q := Held b0 F) (fun _ => ?_) (fun _ => ?_)
    · exact held_reply (dj hF) ‹_›
    · refine ite_ind (Q := Held b0 F) (fun _ => ?_) (fun _ => ?_)
      · exact held_reply (dj hF) ‹_›
      · refine ite_ind (Q := Held b0 F) (fun _ => ?_) (fun _ => ?_)
        · exact held_reply (dj hF) ‹_›
        · extract_lets -merge -underBinder +onlyGivenNames s
          have hs : Held b0 F s := by
            unfold s
            refine ite_ind (Q := Held b0 F) (fun _ => ?_) (fun _ => ?_)
            · exact held_releaseQueue (dj hF) ‹_›
            · assumption
          try clear_value s
          extract_lets -merge -underBinder +onlyGivenNames zz0 s
          have hs : Held b0 F s := by
            unfold s
            refine ite_ind (Q := Held b0 F) (fun _ => ?_) (fun _ => ?_)
            · exact held_setEventQ (dj hF) ‹_›
            · assumption
          try clear_value s
          extract_lets -merge -underBinder +onlyGivenNames s
          have hs : Held b0 F s := held_reply (dj hF) (held_listen (dj hF) ‹_›)
          try clear_value s
          refine ite_ind (Q := Held b0 F) (fun _ => ?_) (fun _ => ?_)
          · assumption
          · exact held_mooringFirst (dj hF) ‹_›
theorem held_execQueuePush {sess tag q entry s} (hF : Dj F 0x1800800009) (hs : Held b0 F s) : HeldR b0 F (execQueuePush sess tag q entry s) := by
  unfold execQueuePush
  exact heldR_next (held_pushMsg (dj hF) ‹_›)
theorem held_fenceLate {s id told} (hF : Dj F 0x1000a00009) (hs : Held b0 F s) : Held b0 F (State.fenceLate s id told) := by
  unfold State.fenceLate
  split
  · assumption
  · extract_lets -merge -underBinder +onlyGivenNames mask
    try clear_value mask
    extract_lets -merge -underBinder +onlyGivenNames s
    have hs : Held b0 F s := held_flag (dj hF) (held_inc (dj hF) (held_fenceOut (dj hF) ‹_›) (off_HQ_FENCE_INCOMPLETE (dj hF))) (off_HQ_EVENT_STATUS_FENCE_INCOMPLETE (dj hF))
    try clear_value s
    exact held_replyTo (dj hF) ‹_›
theorem held_promoteEntry {s q id} (hF : Dj F 0x1000200009) (hs : Held b0 F s) : Held b0 F (State.promoteEntry s q id) := by
  unfold State.promoteEntry
  split
  · assumption
  · refine ite_ind (Q := Held b0 F) (fun _ => ?_) (fun _ => ?_)
    · assumption
    · extract_lets -merge -underBinder +onlyGivenNames s
      have hs : Held b0 F s := held_enqueue (dj hF) (held_setCq (dj hF) ‹_›)
      try clear_value s
      extract_lets -merge -underBinder +onlyGivenNames s
      have hs : Held b0 F s := held_modHq (dj hF) ‹_›
      try clear_value s
      exact held_flag (dj hF) (held_inc (dj hF) ‹_› (off_HQ_CQ_PROMOTED (dj hF))) (off_HQ_EVENT_STATUS_PROMOTION (dj hF))
theorem held_access {s n tag acc} (hF : Dj F 0x3fffff01ffffff) (hs : Held b0 F s) : Held b0 F (State.access s n tag acc) := by
  unfold State.access
  extract_lets start
  split
  · have hz := held2_eq (by assumption) (held_runAccess (n := n) (x := acc) (dj hF) hs)
    exact elim_ind (Q := Held b0 F) (held_reply (dj hF) hz) (fun _ _ => held_startCmd (dj hF) (held_reply (dj hF) hz))
  · have hz := held2_eq (by assumption) (held_runAccess (n := n) (x := acc) (dj hF) hs)
    exact held_showHung (dj hF) (held_inc (dj hF) (held_modSession (dj hF) hz) (off_PWR_HUNG_ACCESSES (dj hF)))
theorem held_restorePart {s n tag plant gen flags off data} (hF : Dj F 0x10005000a0020b) (hs : Held b0 F s) : Held b0 F (State.restorePart s n tag plant gen flags off data) := by
  unfold State.restorePart
  extract_lets -merge -underBinder +onlyGivenNames uid
  try clear_value uid
  extract_lets -merge -underBinder +onlyGivenNames p
  try clear_value p
  extract_lets -merge -underBinder +onlyGivenNames r
  try clear_value r
  extract_lets -merge -underBinder +onlyGivenNames zz0 s
  have hs : Held b0 F s := held_mk_est (dj hF) ‹_›
  try clear_value s
  extract_lets -merge -underBinder +onlyGivenNames s
  have hs : Held b0 F s := held_wrB (dj hF) (held_wrB (dj hF) ‹_› (off_EST_RESTORE_STATUS_STAGED (dj hF))) (off_EST_STATUS_RESTORE_RUNNING (dj hF))
  try clear_value s
  refine ite_ind (Q := Held b0 F) (fun _ => ?_) (fun _ => ?_)
  · exact held_restoreEnd (dj hF) ‹_›
  · exact held_reply (dj hF) ‹_›
theorem held_restoreMsg {s n tag plant gen flags off data} (hF : Dj F 0x10005800a0020b) (hs : Held b0 F s) : Held b0 F (State.restoreMsg s n tag plant gen flags off data) := by
  unfold State.restoreMsg
  refine held_helm (dj hF) ?_ ?_
  · assumption
  · intro s hs
    refine ite_ind (Q := Held b0 F) (fun _ => ?_) (fun _ => ?_)
    · exact held_reply (dj hF) ‹_›
    · refine ite_ind (Q := Held b0 F) (fun _ => ?_) (fun _ => ?_)
      · exact held_reply (dj hF) ‹_›
      · exact held_restorePart (dj hF) ‹_›
theorem held_execFenceComplete {id s} (hF : Dj F 0x1000800009) (hs : Held b0 F s) : HeldR b0 F (execFenceComplete id s) := by
  unfold execFenceComplete
  exact heldR_next (held_fenceDone (dj hF) ‹_›)
theorem held_execSubscribe {sess tag q mode s} (hF : Dj F 0x800800009) (hs : Held b0 F s) : HeldR b0 F (execSubscribe sess tag q mode s) := by
  unfold execSubscribe
  exact heldR_next (held_subscribeMsg (dj hF) ‹_›)
theorem held_execRestoreLearned {sess tag plant gen flags off data s} (hF : Dj F 0x10005800a0020b) (hs : Held b0 F s) : HeldR b0 F (execRestoreLearned sess tag plant gen flags off data s) := by
  unfold execRestoreLearned
  exact heldR_next (held_restoreMsg (dj hF) ‹_›)
theorem held_rmwMsg {s n tag addr mask value} (hF : Dj F 0x3fffff01ffffff) (hs : Held b0 F s) : Held b0 F (State.rmwMsg s n tag addr mask value) := by
  unfold State.rmwMsg
  refine held_helm (dj hF) ?_ ?_
  · assumption
  · intro s hs
    refine ite_ind (Q := Held b0 F) (fun _ => ?_) (fun _ => ?_)
    · exact held_reply (dj hF) ‹_›
    · refine ite_ind (Q := Held b0 F) (fun _ => ?_) (fun _ => ?_)
      · exact held_reply (dj hF) ‹_›
      · refine ite_ind (Q := Held b0 F) (fun _ => ?_) (fun _ => ?_)
        · exact held_reply (dj hF) ‹_›
        · refine ite_ind (Q := Held b0 F) (fun _ => ?_) (fun _ => ?_)
          · exact held_reply (dj hF) ‹_›
          · exact held_access (dj hF) ‹_›
theorem held_execCommandPromotion {q id s} (hF : Dj F 0x1000200009) (hs : Held b0 F s) : HeldR b0 F (execCommandPromotion q id s) := by
  unfold execCommandPromotion
  exact heldR_next (held_promoteEntry (dj hF) ‹_›)
theorem held_writeMsg {s n tag addr values} (hF : Dj F 0x3fffff01ffffff) (hs : Held b0 F s) : Held b0 F (State.writeMsg s n tag addr values) := by
  unfold State.writeMsg
  refine held_helm (dj hF) ?_ ?_
  · assumption
  · intro s hs
    refine ite_ind (Q := Held b0 F) (fun _ => ?_) (fun _ => ?_)
    · exact held_reply (dj hF) ‹_›
    · refine ite_ind (Q := Held b0 F) (fun _ => ?_) (fun _ => ?_)
      · exact held_reply (dj hF) ‹_›
      · refine ite_ind (Q := Held b0 F) (fun _ => ?_) (fun _ => ?_)
        · exact held_reply (dj hF) ‹_›
        · exact held_access (dj hF) ‹_›
theorem held_readMsg {s n tag addr count} (hF : Dj F 0x3fffff01ffffff) (hs : Held b0 F s) : Held b0 F (State.readMsg s n tag addr count) := by
  unfold State.readMsg
  refine held_helm (dj hF) ?_ ?_
  · assumption
  · intro s hs
    refine ite_ind (Q := Held b0 F) (fun _ => ?_) (fun _ => ?_)
    · exact held_reply (dj hF) ‹_›
    · refine ite_ind (Q := Held b0 F) (fun _ => ?_) (fun _ => ?_)
      · exact held_reply (dj hF) ‹_›
      · split
        · refine ite_ind (Q := Held b0 F) (fun _ => ?_) (fun _ => ?_)
          · exact held_reply (dj hF) ‹_›
          · split
            rename_i l s heq
            have hs : Held b0 F s := held2_eq heq (by
              exact held_readWindow (dj hF) ‹_›
              )
            clear heq
            exact held_reply (dj hF) ‹_›
        · exact held_access (dj hF) ‹_›
theorem held_execFenceTimeout {id undrained s} (hF : Dj F 0x1000a00009) (hs : Held b0 F s) : HeldR b0 F (execFenceTimeout id undrained s) := by
  unfold execFenceTimeout
  exact heldR_next (held_fenceLate (dj hF) ‹_›)
theorem held_message {s x} (hF : Dj F 0x3fffff01ffffff) (hs : Held b0 F s) : Held b0 F (State.message s x) := by
  unfold State.message
  split
  · exact held_readMsg (dj hF) ‹_›
  · exact held_writeMsg (dj hF) ‹_›
  · exact held_rmwMsg (dj hF) ‹_›
  · exact held_bulkMsg (dj hF) ‹_›
  · exact held_pushMsg (dj hF) ‹_›
  · exact held_ackMsg (dj hF) ‹_›
  · exact held_fenceMsg (dj hF) ‹_›
  · exact held_subscribeMsg (dj hF) ‹_›
  · exact held_roleMsg (dj hF) ‹_›
  · exact held_restoreMsg (dj hF) ‹_›
  · refine held_via (dj hF) ?_ ?_
    · assumption
    · intro y0 hy0
      exact held_execManifestBegin (dj hF) ‹_›
  · refine held_via (dj hF) ?_ ?_
    · assumption
    · intro y0 hy0
      exact held_execManifestChunk (dj hF) ‹_›
  · refine held_via (dj hF) ?_ ?_
    · assumption
    · intro y0 hy0
      exact held_execManifestCommit (dj hF) ‹_›
  · refine held_via (dj hF) ?_ ?_
    · assumption
    · intro y0 hy0
      exact held_execPatchCommit (dj hF) ‹_›
  · refine held_via (dj hF) ?_ ?_
    · assumption
    · intro y0 hy0
      exact held_execFirmwareCommit (dj hF) ‹_›
  · split
    · exact held_badMsg (dj hF) ‹_›
    · assumption
  · assumption
theorem held_execRead {sess tag addr count s} (hF : Dj F 0x3fffff01ffffff) (hs : Held b0 F s) : HeldR b0 F (execRead sess tag addr count s) := by
  unfold execRead
  exact heldR_next (held_readMsg (dj hF) ‹_›)
theorem held_spelt {s i} (hF : Dj F 0x3fffff01ffffff) (hs : Held b0 F s) : Held b0 F (State.spelt s i) := by
  unfold State.spelt
  split
  · refine ite_ind (Q := Held b0 F) (fun _ => ?_) (fun _ => ?_)
    · split
      rename_i v t heq
      have ht : Held b0 F t := held2_eq heq (by
        exact held_drawBool (dj hF) ‹_›
        )
      clear heq
      split
      rename_i ver t heq
      have ht : Held b0 F t := held2_eq heq (by
        exact held_drawWord (dj hF) ‹_›
        )
      clear heq
      split
      rename_i fl t heq
      have ht : Held b0 F t := held2_eq heq (by
        exact held_drawWord (dj hF) ‹_›
        )
      clear heq
      exact held_message (dj hF) ‹_›
    · exact held_message (dj hF) ‹_›
  · exact held_message (dj hF) ‹_›
theorem held_runHeld {k n s} (hF : Dj F 0x3fffff01ffffff) (hs : Held b0 F s) : Held b0 F (State.runHeld k n s) := by
  induction k generalizing s with
  | zero => exact hs
  | succ k ih =>
    unfold State.runHeld
    split
    · exact hs
    · refine ite_ind (Q := Held b0 F) (fun _ => hs) (fun _ => ?_)
      split
      · exact hs
      · exact ih (held_message (dj hF) (held_setSession (dj hF) hs))
theorem held_endWait {s n reset} (hF : Dj F 0x3fffff01ffffff) (hs : Held b0 F s) : Held b0 F (State.endWait s n reset) := by
  unfold State.endWait
  split
  · assumption
  · split
    · assumption
    · extract_lets -merge -underBinder +onlyGivenNames s
      have hs : Held b0 F s := held_showHung (dj hF) (held_setSession (dj hF) ‹_›)
      try clear_value s
      extract_lets -merge -underBinder +onlyGivenNames s
      have hs : Held b0 F s := by
        unfold s
        refine ite_ind (Q := Held b0 F) (fun _ => ?_) (fun _ => ?_)
        · split
          · exact held_reply (dj hF) ‹_›
          · exact held_reply (dj hF) ‹_›
          · exact held_reply (dj hF) ‹_›
        · exact held_access (dj hF) ‹_›
      try clear_value s
      exact held_runHeld (dj hF) ‹_›
theorem held_resetWaits {s d} (hF : Dj F 0x3fffff01ffffff) (hs : Held b0 F s) : Held b0 F (State.resetWaits s d) := by
  unfold State.resetWaits
  refine foldl_ind (Q := Held b0 F) (fun s _ hs => ?_) ?_
  · refine ite_ind (Q := Held b0 F) (fun _ => ?_) (fun _ => ?_)
    · exact held_endWait (dj hF) ‹_›
    · assumption
  · assumption
theorem held_releaseWaitsN {k s} (hF : Dj F 0x3fffff01ffffff) (hs : Held b0 F s) : Held b0 F (State.releaseWaitsN k s) := by
  induction k generalizing s with
  | zero => exact hs
  | succ k ih =>
    unfold State.releaseWaitsN
    split
    · exact hs
    · exact ih (held_endWait (dj hF) hs)
theorem held_releaseWaits {s} (hF : Dj F 0x3fffff01ffffff) (hs : Held b0 F s) : Held b0 F (State.releaseWaits s) := by
  unfold State.releaseWaits
  exact held_releaseWaitsN (dj hF) ‹_›
theorem held_helmBytes {s n b} (hF : Dj F 0x3fffff01ffffff) (hs : Held b0 F s) : Held b0 F (State.helmBytes s n b) := by
  unfold State.helmBytes
  refine ite_ind (Q := Held b0 F) (fun _ => ?_) (fun _ => ?_)
  · assumption
  · refine ite_ind (Q := Held b0 F) (fun _ => ?_) (fun _ => ?_)
    · exact held_closeSession (dj hF) ‹_›
    · refine ite_ind (Q := Held b0 F) (fun _ => ?_) (fun _ => ?_)
      · assumption
      · split
        · exact held_badMsg (dj hF) ‹_›
        · exact held_releaseWaits (dj hF) (held_spelt (dj hF) ‹_›)
theorem held_execCommandStart {s} (hF : Dj F 0x3fffff01ffffff) (hs : Held b0 F s) : HeldR b0 F (execCommandStart s) := by
  unfold execCommandStart
  refine heldR_next ?_
  split
  · exact held_releaseWaits (dj hF) (held_startCmdOf (dj hF) ‹_›)
  · assumption
theorem held_execPwrDomainHoldWrite {who mask s} (hF : Dj F 0x3fffff01ffffff) (hs : Held b0 F s) : HeldR b0 F (execPwrDomainHoldWrite who mask s) := by
  unfold execPwrDomainHoldWrite
  refine heldR_next ?_
  refine ite_ind (Q := Held b0 F) (fun _ => ?_) (fun _ => ?_)
  · exact held_releaseWaits (dj hF) (held_holdDomains (dj hF) ‹_›)
  · assumption
theorem held_execWrite {sess tag addr values s} (hF : Dj F 0x3fffff01ffffff) (hs : Held b0 F s) : HeldR b0 F (execWrite sess tag addr values s) := by
  unfold execWrite
  exact heldR_next (held_releaseWaits (dj hF) (held_writeMsg (dj hF) ‹_›))
theorem held_execBadTypeMessage {sess header payload s} (hF : Dj F 0x3fffff01ffffff) (hs : Held b0 F s) : HeldR b0 F (execBadTypeMessage sess header payload s) := by
  unfold execBadTypeMessage
  exact heldR_next (held_helmBytes (dj hF) ‹_›)
theorem held_execReadModifyWrite {sess tag addr mask value s} (hF : Dj F 0x3fffff01ffffff) (hs : Held b0 F s) : HeldR b0 F (execReadModifyWrite sess tag addr mask value s) := by
  unfold execReadModifyWrite
  exact heldR_next (held_releaseWaits (dj hF) (held_rmwMsg (dj hF) ‹_›))

end Sys2Proof.Machine
end

