-- ==== Sys2Proof/Laws/Words.lean ====
section
/-!
SUPPORT. Which registers the shared operations leave: an event writes in the event-queue registers alone, a recorder entry in
those and the recorder's, a response and a completion in none.
-/
namespace Sys2Proof.Machine
open Sys2Proof
set_option Elab.async false

/-- The registers of the Helm queues unit and of the recorder. -/
def hqReg (a : Nat) : Prop := 0x40000 ≤ a ∧ a < 0x50000
def recReg (a : Nat) : Prop := 0x130000 ≤ a ∧ a < 0x140000

/-- The words at the addresses of `A` are the same in `s` as in `b`. -/
def WordsKept (A : Nat → Prop) (b s : State) : Prop := ∀ a, A a → s.word a = b.word a

theorem word_congr {s t : State} (h : t.regs = s.regs) (a : Nat) : t.word a = s.word a := by
  unfold State.word
  rw [h]
theorem rd_congr {s t : State} {f : Fld} (h : t.word f.addr = s.word f.addr) : t.rd f = s.rd f := by
  unfold State.rd
  rw [h]

variable {A : Nat → Prop} {b0 : State}

theorem kept_self : WordsKept A b0 b0 := fun _ _ => rfl
theorem kept_regs {s t : State} (h : WordsKept A b0 s) (e : t.regs = s.regs) : WordsKept A b0 t :=
  fun a ha => (word_congr e a).trans (h a ha)
theorem kept_setWord {s : State} {a : Nat} {w : Word} (hA : ¬A a) (h : WordsKept A b0 s) : WordsKept A b0 (s.setWord a w) := by
  intro c hc
  rw [word_setWord_ne _ _ _ _ (by rintro rfl; exact hA hc)]
  exact h c hc
theorem kept_wr {s : State} {f : Fld} {v : Nat} (hA : ¬A f.addr) (h : WordsKept A b0 s) : WordsKept A b0 (s.wr f v) := kept_setWord hA h
theorem kept_wrB {s : State} {f : Fld} {v : Bool} (hA : ¬A f.addr) (h : WordsKept A b0 s) : WordsKept A b0 (s.wrB f v) := kept_wr hA h
theorem kept_inc {s : State} {f : Fld} (hA : ¬A f.addr) (h : WordsKept A b0 s) : WordsKept A b0 (s.inc f) := kept_wr hA h
theorem kept_incBy {s : State} {f : Fld} {n : Nat} (hA : ¬A f.addr) (h : WordsKept A b0 s) : WordsKept A b0 (s.incBy f n) := kept_wr hA h
theorem kept_acqHear {s : State} {e : AcqEv} (h : WordsKept A b0 s) : WordsKept A b0 (s.acqHear e) := by
  unfold State.acqHear
  exact ite_ind (Q := WordsKept A b0) (fun _ => kept_regs h rfl) (fun _ => h)

theorem kept_postN {n q code inst : Nat} {s : State} {data : List Byte} (hA : ∀ a, hqReg a → ¬A a) (hq : q < 4)
    (hs : WordsKept A b0 s) : WordsKept A b0 (State.postN n s q code inst data) := by
  have hn (q : Nat) (h : q < 4) : ¬A (R.HQ_EQ_NEXT_SEQ q).addr := hA _ (by unfold hqReg R.HQ_EQ_NEXT_SEQ Machine.inst; simp [h]; omega)
  have hl (q : Nat) (h : q < 4) : ¬A (R.HQ_EQ_LOST q).addr := hA _ (by unfold hqReg R.HQ_EQ_LOST Machine.inst; simp [h]; omega)
  have key : ∀ (n : Nat), (∀ m, n = m + 1 → ∀ {s q code inst data}, q < 4 → WordsKept A b0 s →
        WordsKept A b0 (State.postN m s q code inst data)) →
      ∀ {s q code inst data}, q < 4 → WordsKept A b0 s → WordsKept A b0 (State.postN n s q code inst data) := by
    intro n ih s q code inst data hq hs
    unfold State.postN
    extract_lets +onlyGivenNames src
    extract_lets +onlyGivenNames k
    extract_lets +onlyGivenNames _ s
    have hs : WordsKept A b0 s := kept_regs hs rfl
    extract_lets +onlyGivenNames eq note
    have hnote : ∀ s f x, ¬A f.addr → WordsKept A b0 s → WordsKept A b0 (note s f x) := by
      intro s f b hf hs
      unfold note
      refine ite_ind (Q := WordsKept A b0) (fun _ => ?_) (fun _ => ?_)
      · assumption
      · extract_lets +onlyGivenNames s
        have hs := kept_wrB (v := true) hf hs
        split
        · assumption
        · refine ite_ind (Q := WordsKept A b0) (fun _ => ?_) (fun _ => ?_)
          · exact ih _ rfl (by omega) ‹_›
          · assumption
    have he : ¬A R.HQ_EVENT_STATUS.addr := hA _ (by unfold hqReg R.HQ_EVENT_STATUS; simp)
    clear_value note
    refine ite_ind (Q := WordsKept A b0) (fun _ => ?_) (fun _ => ?_)
    · exact hnote _ _ _ he (kept_inc (hl q hq) (kept_regs hs rfl))
    · extract_lets +onlyGivenNames e
      extract_lets +onlyGivenNames s
      have hs : WordsKept A b0 s := kept_inc (hn q hq) (kept_regs hs rfl)
      extract_lets +onlyGivenNames _ s
      have hs : WordsKept A b0 s := kept_regs hs rfl
      refine ite_ind (Q := WordsKept A b0) (fun _ => ?_) (fun _ => ?_)
      · exact hnote _ _ _ he ‹_›
      · assumption
  induction n generalizing s q code inst data with
  | zero => exact key 0 (fun m h => by omega) hq hs
  | succ n ih => exact key (n + 1) (fun m h => by obtain rfl : n = m := by omega
                                                  exact ih) hq hs
theorem kept_post {q code inst : Nat} {s : State} {data : List Byte} (hA : ∀ a, hqReg a → ¬A a) (hq : q < 4)
    (hs : WordsKept A b0 s) : WordsKept A b0 (s.post q code inst data) := kept_acqHear (kept_postN hA hq hs)
theorem kept_flag {f : Fld} {s : State} (hA : ∀ a, hqReg a → ¬A a) (hf : ¬A f.addr) (hs : WordsKept A b0 s) :
    WordsKept A b0 (s.flag f) := by
  unfold State.flag
  refine ite_ind (Q := WordsKept A b0) (fun _ => hs) (fun _ => ?_)
  have hs := kept_wrB (v := true) hf hs
  exact ite_ind (Q := WordsKept A b0) (fun _ => kept_post hA (by omega) hs) (fun _ => hs)
theorem kept_appendRec {r : LogRec} {s : State} (hA : ∀ a, recReg a → ¬A a) (hs : WordsKept A b0 s) :
    WordsKept A b0 (s.appendRec r) := by
  unfold State.appendRec
  exact kept_inc (hA _ (by unfold recReg R.REC_NEXT_SEQ; simp)) (kept_inc (hA _ (by unfold recReg R.REC_RECORDS; simp))
    (kept_incBy (hA _ (by unfold recReg R.REC_USED; simp)) (kept_regs hs rfl)))
theorem kept_record {w code inst : Nat} {data : List Byte} {s : State} (hq : ∀ a, hqReg a → ¬A a) (hr : ∀ a, recReg a → ¬A a)
    (hs : WordsKept A b0 s) : WordsKept A b0 (s.record w code inst data) := by
  have h0 : ¬A R.REC_LOST.addr := hr _ (by unfold recReg R.REC_LOST; simp)
  have h1 : ¬A R.REC_STATUS.addr := hr _ (by unfold recReg R.REC_STATUS; simp)
  have h2 : ¬A R.REC_EVENT_STATUS.addr := hr _ (by unfold recReg R.REC_EVENT_STATUS; simp)
  unfold State.record
  refine ite_ind (Q := WordsKept A b0) (fun _ => hs) (fun _ => ?_)
  refine ite_ind (Q := WordsKept A b0) (fun _ => kept_inc h0 hs) (fun _ => ?_)
  refine ite_ind (Q := WordsKept A b0) (fun _ => ?_) (fun _ => ?_)
  · exact kept_flag hq h2 (kept_post hq (by omega) (kept_wrB h1 (kept_appendRec hr (kept_inc h0 hs))))
  · refine ite_ind (Q := WordsKept A b0) (fun _ => ?_) (fun _ => kept_appendRec hr hs)
    exact kept_flag hq h2 (kept_post hq (by omega) (kept_appendRec hr (kept_wrB h1 (kept_appendRec hr hs))))
theorem kept_raise {e : EvDef} {inst : Nat} {data : List Byte} {s : State} (he : e.queue < 4) (hq : ∀ a, hqReg a → ¬A a)
    (hr : ∀ a, recReg a → ¬A a) (hs : WordsKept A b0 s) : WordsKept A b0 (s.raise e inst data) := by
  unfold State.raise
  exact ite_ind (Q := WordsKept A b0) (fun _ => kept_record hq hr (kept_post hq he hs)) (fun _ => kept_post hq he hs)

/-! ## From the masks -/

theorem dj_two_pow {M k : Nat} (h : M.testBit k = false) : Dj (2 ^ k) M := by
  apply Nat.eq_of_testBit_eq
  intro i
  rw [Nat.testBit_and, Nat.testBit_two_pow, Nat.zero_testBit]
  by_cases hk : k = i
  · subst hk; simp [h]
  · simp [hk]
/-- What a law of the files KeptX says of a register outside the blocks of its mask. -/
theorem word_of_held {M a : Nat} {s t : State} (h : ∀ F, Dj F M → Held s F t) (hb : M.testBit (32 + blockNo a) = false)
    (ha : a < 0x150000) : t.word a = s.word a :=
  (h _ (dj_two_pow hb)).words a (Nat.testBit_two_pow_self) ha

/-! ## In the form that rewrites -/

theorem word_post {q code inst a : Nat} {s : State} {data : List Byte} (ha : ¬hqReg a) (hq : q < 4) :
    (s.post q code inst data).word a = s.word a :=
  kept_post (A := fun c => ¬hqReg c) (fun _ h h' => h' h) hq kept_self a ha
theorem word_flag {f : Fld} {a : Nat} {s : State} (ha : ¬hqReg a) (hf : a ≠ f.addr) : (s.flag f).word a = s.word a :=
  kept_flag (A := fun c => ¬hqReg c ∧ c ≠ f.addr) (fun _ h h' => h'.1 h) (fun h => h.2 rfl) kept_self a ⟨ha, hf⟩
theorem word_record {w code inst a : Nat} {s : State} {data : List Byte} (ha : ¬hqReg a) (hr : ¬recReg a) :
    (s.record w code inst data).word a = s.word a :=
  kept_record (A := fun c => ¬hqReg c ∧ ¬recReg c) (fun _ h h' => h'.1 h) (fun _ h h' => h'.2 h) kept_self a ⟨ha, hr⟩
theorem word_raise {e : EvDef} {inst a : Nat} {s : State} {data : List Byte} (he : e.queue < 4) (ha : ¬hqReg a) (hr : ¬recReg a) :
    (s.raise e inst data).word a = s.word a :=
  kept_raise (A := fun c => ¬hqReg c ∧ ¬recReg c) he (fun _ h h' => h'.1 h) (fun _ h h' => h'.2 h) kept_self a ⟨ha, hr⟩
theorem word_complete {s : State} {q status result : Nat} (a : Nat) : (s.complete q status result).word a = s.word a :=
  word_congr ((held_complete (F := 1) rfl held_self).regs rfl) a
theorem word_reply {s : State} {n tag type status : Nat} {body : List Nat} (a : Nat) :
    (s.reply n tag type status body).word a = s.word a :=
  word_congr ((held_reply (F := 1) rfl held_self).regs rfl) a
/-- A flag that was clear reads set after its occurrence, also after the event that this may post. -/
theorem flag_on {f : Fld} {s : State} (hf : f.fits = true) (hw : f.width = 1) (ha : ¬hqReg f.addr) : (s.flag f).on f = true := by
  unfold State.flag
  split
  · assumption
  · have h1 : (s.wrB f true).rd f = 1 := by
      unfold State.wrB b2n
      rw [rd_wr_self _ _ _ hf, hw]
      rfl
    show (State.rd _ f == 1) = true
    have : ∀ t : State, t.word f.addr = (s.wrB f true).word f.addr → (t.rd f == 1) = true := by
      intro t h
      rw [rd_congr h, h1]
      rfl
    extract_lets t whole
    split
    · exact this _ (word_post ha (by omega))
    · exact this _ rfl

end Sys2Proof.Machine
end

