-- ==== Sys2Proof/Laws/Facts.lean ====
section
/-!
SUPPORT. What the shared operations bring about: a request that is taken up, a command that runs and completes, what has
been sent, and registers that a law of the files KeptX leaves.
-/
namespace Sys2Proof.Machine
open Sys2Proof
set_option Elab.async false

theorem rd_of_held {M : Nat} {f : Fld} {s t : State} (h : ∀ F, Dj F M → Held s F t) (hb : M.testBit (32 + blockNo f.addr) = false)
    (ha : f.addr < 0x150000) : t.rd f = s.rd f := rd_congr (word_of_held h hb ha)
theorem on_of_held {M : Nat} {f : Fld} {s t : State} (h : ∀ F, Dj F M → Held s F t) (hb : M.testBit (32 + blockNo f.addr) = false)
    (ha : f.addr < 0x150000) : t.on f = s.on f := by unfold State.on; rw [rd_of_held h hb ha]
theorem on_wrB (s : State) (f : Fld) (b : Bool) (hf : f.fits = true) (hw : f.width = 1) : (s.wrB f b).on f = b := by
  unfold State.on State.wrB
  rw [rd_wr_self _ _ _ hf, hw]
  cases b <;> rfl
theorem rd_wr (s : State) (f : Fld) (v : Nat) (hf : f.fits = true) (hv : v < 2 ^ f.width) : (s.wr f v).rd f = v := by
  rw [rd_wr_self _ _ _ hf, Nat.mod_eq_of_lt hv]
theorem on_wrB_apart (s : State) (f g : Fld) (b : Bool) (hf : f.fits = true) (h : f.apart g = true) : (s.wrB f b).on g = s.on g := by
  unfold State.on State.wrB
  rw [rd_wr_apart _ _ _ _ hf h]
theorem on_wr_apart (s : State) (f g : Fld) (v : Nat) (hf : f.fits = true) (h : f.apart g = true) : (s.wr f v).on g = s.on g := by
  unfold State.on
  rw [rd_wr_apart _ _ _ _ hf h]

/-! ## What was sent -/

theorem sends_send {s : State} {o : Out} {p : Out → Bool} (h : p o = true) : (s.send o).sends s p := ⟨[o], rfl, by simp [h]⟩
/-- What was sent in a part of the way was sent on the whole of it. -/
theorem sends_within {b s t u : State} {F G : Nat} {p : Out → Bool} (h : t.sends s p) (hs : Held b F s) (hu : Held t G u) : u.sends b p := by
  obtain ⟨l, e, hp⟩ := h
  obtain ⟨m, hm⟩ := hs.sent
  obtain ⟨k, hk⟩ := hu.sent
  exact ⟨k ++ l ++ m, by rw [← hk, e, ← hm]; simp, by simp [hp]⟩

/-! ## Commands -/

theorem onCmd_run {s : State} {q code : Nat} {c : Cmd} (h : s.serving q code c = true) (f : Cmd → State → State) :
    s.onCmd q code f = .next (f c s) := by
  unfold State.serving at h
  simp only [Bool.and_eq_true, decide_eq_true_eq, beq_iff_eq] at h
  unfold State.onCmd
  rw [h.1.1]
  simp [h.1.2]
theorem complete_sent {s : State} {q : Nat} {c : Cmd} (hr : s.running q = some c) (hp : s.present c = true) (status result : Nat) :
    (s.complete q status result).completed s q c status (result % 2 ^ 64) := by
  unfold State.present at hp
  unfold State.completed State.complete
  rw [hr]
  dsimp only
  have hs : ∀ h p, ({ s with hq := { s.hq with running := h }, pwr := p } : State).session c.sess = s.session c.sess := fun _ _ => rfl
  rw [hs]
  cases hx : s.session c.sess with
  | none => rw [hx] at hp; simp at hp
  | some x =>
    rw [hx] at hp
    have hp : x.uid = c.uid := by simpa using hp
    dsimp only
    rw [if_pos hp]
    exact ⟨tget_tdel_self _ _, [_], rfl, by simp⟩

/-! ## Requests -/

theorem helm_takes {s : State} {n tag typ need : Nat} (h : s.takes n tag typ need = true) (i : Instr) (f : State → State) :
    ∃ x, s.session n = some x ∧ x.handshaking = false ∧ s.helm n tag typ need i f = f (s.setSession n { x with tags := tag :: x.tags }) := by
  unfold State.takes at h
  cases hx : s.session n with
  | none => rw [hx] at h; simp at h
  | some x =>
    rw [hx] at h
    simp only [Bool.and_eq_true, Bool.not_eq_true', decide_eq_true_eq] at h
    obtain ⟨⟨⟨⟨⟨h1, h2⟩, h3⟩, h4⟩, h5⟩, h6⟩ := h
    refine ⟨x, rfl, h1, ?_⟩
    unfold State.helm
    rw [hx]
    dsimp only
    rw [if_neg (by simp [h1]), if_neg (by simp only [h2]; simp), if_neg (by omega), if_neg (by cases hw : x.wait <;> simp_all), if_neg (by simp [h5]), if_neg (by simp [h6])]
theorem reply_sent {s : State} {n tag type status : Nat} {body : List Nat} {x : Session} (h : s.session n = some x) :
    (s.reply n tag type status body).answers s n tag type status body := by
  unfold State.answers State.reply
  rw [h]
  exact ⟨[_], rfl, by simp⟩
theorem session_setSession (s : State) (n : Nat) (x : Session) : (s.setSession n x).session n = some x := tget_tput_self _ _ _

/-! ## Frames of a crossing -/

@[simp] theorem le_length (k v : Nat) : (le k v).length = k := by
  induction k generalizing v with
  | zero => rfl
  | succ k ih => simp [le, ih]
theorem ofLe_le (k v : Nat) : ofLe (le k v) = v % 256 ^ k := by
  induction k generalizing v with
  | zero => simp [le, ofLe, Nat.mod_one]
  | succ k ih =>
    have e : ofLe (le (k + 1) v) = v % 256 + 256 * (v / 256 % 256 ^ k) := by
      show (BitVec.ofNat 8 v).toNat + 256 * ofLe (le k (v / 256)) = _
      rw [ih, BitVec.toNat_ofNat]
    rw [e, Nat.pow_succ, Nat.mul_comm (256 ^ k) 256, Nat.mod_mul]
/-- A number stands where its bytes were put. -/
theorem uAt_mid (p r : List Byte) (k v : Nat) : uAt (p ++ (le k v ++ r)) p.length k = v % 256 ^ k := by
  unfold uAt
  rw [List.drop_left, List.take_left' (le_length k v), ofLe_le]
theorem uAt_at (p r : List Byte) {o k v : Nat} (h : p.length = o) : uAt (p ++ (le k v ++ r)) o k = v % 256 ^ k := h ▸ uAt_mid p r k v
/-- A frame with its right CRC is read back as it was made (R206, R207). -/
theorem parse_frame (x : Rx) (h : x.ok = true) : parseFrame x.frame = some x := by
  unfold Rx.ok at h
  simp only [Bool.and_eq_true, Bool.or_eq_true, decide_eq_true_eq, beq_iff_eq] at h
  obtain ⟨⟨⟨⟨⟨⟨h0, h1⟩, h2⟩, h3⟩, h4⟩, h5⟩, h6⟩ := h
  have hdst : x.dst % 256 ^ 2 % 512 = x.dst := by omega
  have hsrc : x.src % 256 ^ 2 % 512 = x.src := by omega
  generalize hc : crc32c (le 2 x.dst ++ le 2 x.src ++ le 4 x.tag ++ le 1 x.typ ++ le 1 x.flags ++ le 2 x.payload.length ++
    le 2 x.seq ++ le 10 0 ++ x.payload) = crc
  have hf : x.frame = le 2 x.dst ++ le 2 x.src ++ le 4 x.tag ++ le 1 x.typ ++ le 1 x.flags ++ le 2 x.payload.length ++
    le 2 x.seq ++ le 10 0 ++ x.payload ++ le 4 crc.toNat := by
    unfold Rx.frame
    dsimp only
    rw [hc]
  have hl : x.frame.length = x.payload.length + 28 := by rw [hf]; simp; omega
  have u0 : u16 x.frame 0 = x.dst % 256 ^ 2 := by
    rw [hf]; simp only [List.append_assoc]; exact uAt_at [] _ rfl
  have u1 : u16 x.frame 2 = x.src % 256 ^ 2 := by rw [hf]; simp only [List.append_assoc]; exact uAt_at (le 2 x.dst) _ (by simp)
  have u2 : u32 x.frame 4 = x.tag % 256 ^ 4 := by
    rw [hf]; simp only [List.append_assoc]; rw [← List.append_assoc (le 2 _)]; exact uAt_at _ _ (by simp)
  have u3 : u8 x.frame 8 = x.typ % 256 ^ 1 := by
    rw [hf]; simp only [List.append_assoc]; rw [← List.append_assoc (le 2 _), ← List.append_assoc (_ ++ _)]; exact uAt_at _ _ (by simp)
  have u4 : u8 x.frame 9 = x.flags % 256 ^ 1 := by
    rw [hf]; simp only [List.append_assoc]
    rw [← List.append_assoc (le 2 _), ← List.append_assoc (_ ++ _), ← List.append_assoc (_ ++ _)]; exact uAt_at _ _ (by simp)
  have u5 : u16 x.frame 0x0A = x.payload.length % 256 ^ 2 := by
    rw [hf]; simp only [List.append_assoc]
    rw [← List.append_assoc (le 2 _), ← List.append_assoc (_ ++ _), ← List.append_assoc (_ ++ _), ← List.append_assoc (_ ++ _)]
    exact uAt_at _ _ (by simp)
  have u6 : u16 x.frame 0x0C = x.seq % 256 ^ 2 := by
    rw [hf]; simp only [List.append_assoc]
    rw [← List.append_assoc (le 2 _), ← List.append_assoc (_ ++ _), ← List.append_assoc (_ ++ _), ← List.append_assoc (_ ++ _),
      ← List.append_assoc (_ ++ _)]
    exact uAt_at _ _ (by simp)
  have u7 : u32 x.frame (x.frame.length - 4) = crc.toNat := by
    have : x.frame = (le 2 x.dst ++ le 2 x.src ++ le 4 x.tag ++ le 1 x.typ ++ le 1 x.flags ++ le 2 x.payload.length ++
      le 2 x.seq ++ le 10 0 ++ x.payload) ++ (le 4 crc.toNat ++ []) := by rw [hf, List.append_nil]
    rw [hl, this]
    refine (uAt_at _ _ (by simp; omega)).trans ?_
    have := crc.isLt
    omega
  have u8' : x.frame.take (x.frame.length - 4) = le 2 x.dst ++ le 2 x.src ++ le 4 x.tag ++ le 1 x.typ ++ le 1 x.flags ++
      le 2 x.payload.length ++ le 2 x.seq ++ le 10 0 ++ x.payload := by
    rw [hl, hf]
    exact List.take_left' (by simp; omega)
  have u9 : (x.frame.drop 24).take x.payload.length = x.payload := by
    rw [hf, List.append_assoc, List.drop_left' (by simp)]
    exact List.take_left' rfl
  unfold parseFrame
  dsimp only
  rw [u5, u7, u8', hc, u0, u1, u2, u3, u4, u6, hl]
  have e5 : x.payload.length % 256 ^ 2 = x.payload.length := by omega
  rw [e5, if_pos ⟨by omega, by omega, rfl, rfl⟩, u9, hdst, hsrc]
  have e2 : x.tag % 256 ^ 4 % 2 ^ 17 = x.tag := by omega
  have e3 : x.typ % 256 ^ 1 = x.typ := by omega
  have e4 : x.flags % 256 ^ 1 = x.flags := by omega
  have e6 : x.seq % 256 ^ 2 = x.seq := by omega
  rw [e2, e3, e4, e6]
/-- A frame that is no repeat is accepted (R208). -/
theorem receive_frame {s : State} {n : Nat} {x : Rx} {typs : List Nat} (h : s.hears n x = true) (ht : x.typ ∈ typs) :
    s.receive n x.frame typs = (s.heard n x, some x) := by
  unfold State.hears at h
  rw [Bool.and_eq_true] at h
  have ho := h.1
  unfold Rx.ok at ho
  simp only [Bool.and_eq_true, Bool.or_eq_true, decide_eq_true_eq, beq_iff_eq] at ho
  unfold State.receive
  rw [parse_frame x h.1]
  dsimp only
  obtain ⟨⟨⟨⟨⟨⟨h0, h1⟩, -⟩, -⟩, -⟩, -⟩, -⟩ := ho
  have hr : x.reserved = false := by
    unfold Rx.reserved
    rcases h1 with h1 | ⟨⟨h1, h2⟩, h3⟩
    · simp; omega
    · simp [h1, h2, h3]; omega
  rw [hr, if_neg (by simp), if_neg (by
    rintro (h | h | h)
    · omega
    · omega
    · exact h ht), if_neg]
  · rfl
  · rintro ⟨h1, h2⟩
    have h3 := h.2
    rw [h2] at h3
    simp [h1] at h3

/-! ## Settling with nothing to settle -/

theorem settle_idle {s : State} (h : s.idle = true) : s.settle = s := by
  unfold State.idle at h
  simp only [Bool.and_eq_true, List.isEmpty_iff] at h
  unfold State.settle State.settleN
  simp only [h.1, h.2]
  rfl
theorem settled_idle {s : State} (h : s.idle = true) : s.settled = s := by
  have h' := h
  unfold State.idle at h
  simp only [Bool.and_eq_true, List.isEmpty_iff] at h
  unfold State.settled
  rw [settle_idle h']
  simp only [h.1, List.filter_nil, List.foldl_nil]
  have e : ({ s with xng := { s.xng with done := [] } } : State) = s := by rw [← h.1]
  rw [e]
  exact settle_idle h'

/-! ## Accesses that wait -/

theorem waitsOn_noWait {s : State} (h : s.noWait = true) (n : Nat) (p : Nat → Bool) : s.waitsOn n p = false := by
  unfold State.noWait at h
  unfold State.waitsOn State.session
  cases hx : tget s.hq.sessions n with
  | none => rfl
  | some x =>
    have hm : ∀ l : Tbl Session, tget l n = some x → (n, x) ∈ l := by
      intro l
      induction l with
      | nil => intro h; simp at h
      | cons q l ih =>
        obtain ⟨k, v⟩ := q
        intro h
        simp only [tget] at h
        split at h
        · rename_i hk; subst hk; injection h with h; subst h; exact List.mem_cons_self
        · exact List.mem_cons_of_mem _ (ih h)
    have := List.all_eq_true.1 h _ (hm _ hx)
    simp only [Option.isNone_iff_eq_none] at this
    simp [this]
/-- Where no access waits there is none to release. -/
theorem releaseWaits_noWait {s : State} (h : s.noWait = true) : s.releaseWaits = s := by
  unfold State.releaseWaits State.releaseWaitsN
  rw [List.find?_eq_none.2 (fun n _ => by rw [waitsOn_noWait h]; simp)]
theorem resetWaits_noWait {s : State} (h : s.noWait = true) (d : Nat) : s.resetWaits d = s := by
  unfold State.resetWaits
  have : ∀ l : List Nat, l.foldl (fun s n => if s.waitsOn n (· == d) then s.endWait n true else s) s = s := by
    intro l
    induction l with
    | nil => rfl
    | cons n l ih =>
      rw [List.foldl_cons, waitsOn_noWait h]
      exact ih
  exact this _

/-! ## Messages that are not of their type's form, and sweeps that finish under old tables -/

/-- A message that its type refuses changes the Helm side, what is sent and the load error alone. -/
theorem held_helmBytes_misspelt {n : Nat} {b : List Byte} {s : State} (h : (misspelt n b).isSome = true) (hl : u32 b 8 ≤ 1048600) :
    ∀ F, Dj F 0x800800009 → Held s F (s.helmBytes n b) := by
  intro F hF
  unfold State.helmBytes
  split
  · exact held_self
  rw [if_neg (by omega)]
  split
  · exact held_self
  unfold misspelt at h
  split
  · exact held_badMsg (dj hF) held_self
  · rename_i e
    simp [e] at h
/-- What runs under the records of an earlier manifest leaves those in force. -/
theorem underTables_man {f : State → State} (s : State) (tables : Option (List CfgRec)) (hf : ∀ y, (f y).man = y.man) :
    (s.underTables tables f).man = s.man := by
  unfold State.underTables
  split
  · exact hf s
  · rfl
/-- A sweep taken changes nothing of the manifest (R253, R67). -/
theorem sweepApply_man (s : State) (wrong redo : List Nat) (retryFails : Bool) : (s.sweepApply wrong redo retryFails).man = s.man := by
  have heldMan {b t : State} (h : Held b 0x10 t) : t.man = b.man := h.man (by decide)
  unfold State.sweepApply
  split
  · rfl
  · rename_i w e _
    extract_lets good three wrong' redo' s1 s2
    have h1 : Held s 0x10 s1 := held_countMismatch (by decide) (held_mk_est (by decide) held_self)
    have h2 : Held s 0x10 s2 := by
      unfold s2
      split
      · exact foldl_ind (Q := Held s 0x10) (fun _ _ h => held_chargePipe (by decide) h) h1
      · exact h1
    clear_value s2
    split
    · exact heldMan (held_discardSweep (by decide) h2)
    · rw [underTables_man, heldMan h2]
      intro y
      dsimp only
      split
      · rfl
      · split
        · rfl
        · exact heldMan (held_applySweep (by decide) (held_mk_est (by decide) held_self))

end Sys2Proof.Machine
end

