-- ==== Sys2Proof/Laws/KeptModes.lean ====
section
/-!
SUPPORT. The operations of Machine/Modes.lean change only the parts that their masks name (Laws/Held.lean).
-/
namespace Sys2Proof.Machine
open Sys2Proof
set_option Elab.async false

variable {b0 : State} {F : Nat}

theorem held_evacEnter {s} (hF : Dj F 0x1500f200a0890b) (hs : Held b0 F s) : Held b0 F (State.evacEnter s) := by
  unfold State.evacEnter
  extract_lets -merge -underBinder +onlyGivenNames e
  try clear_value e
  extract_lets -merge -underBinder +onlyGivenNames s
  have hs : Held b0 F s := held_modDisp (dj hF) (held_setMode (dj hF) ‹_›)
  try clear_value s
  extract_lets -merge -underBinder +onlyGivenNames s
  have hs : Held b0 F s := held_raise (dj hF) ‹_›
  try clear_value s
  refine ite_ind (Q := Held b0 F) (fun _ => ?_) (fun _ => ?_)
  · exact held_evacOverride (dj hF) (held_thermalTo (dj hF) ‹_›)
  · assumption
theorem held_evacLeave {s} (hF : Dj F 0x1500f200a08d2b) (hs : Held b0 F s) : Held b0 F (State.evacLeave s) := by
  unfold State.evacLeave
  extract_lets -merge -underBinder +onlyGivenNames used
  try clear_value used
  extract_lets -merge -underBinder +onlyGivenNames s
  have hs : Held b0 F s := held_raise (dj hF) (held_setMode (dj hF) ‹_›)
  try clear_value s
  extract_lets -merge -underBinder +onlyGivenNames s
  have hs : Held b0 F s := held_wrB (dj hF) (held_wrB (dj hF) ‹_› (off_PWR_THERMAL_STATUS_EVAC_OVERRIDE (dj hF))) (off_PLT_EVAC_STATUS_SHEDDING (dj hF))
  try clear_value s
  extract_lets -merge -underBinder +onlyGivenNames s
  have hs : Held b0 F s := held_protEvacEnd (dj hF) ‹_›
  try clear_value s
  refine ite_ind (Q := Held b0 F) (fun _ => ?_) (fun _ => ?_)
  · exact held_thermalTo (dj hF) ‹_›
  · assumption
theorem held_fireOver {s} (hF : Dj F 0x1500f200a08d2b) (hs : Held b0 F s) : Held b0 F (State.fireOver s) := by
  unfold State.fireOver
  extract_lets -merge -underBinder +onlyGivenNames s
  have hs : Held b0 F s := held_wr (dj hF) (held_wrB (dj hF) ‹_› (off_PLT_EVAC_STATUS_FIRE_ALARM (dj hF))) (off_PLT_EVAC_STATUS_ALARM_HOLD (dj hF))
  try clear_value s
  refine ite_ind (Q := Held b0 F) (fun _ => ?_) (fun _ => ?_)
  · exact held_evacLeave (dj hF) ‹_›
  · assumption
theorem held_fireGo {s} (hF : Dj F 0x1500f200a0890b) (hs : Held b0 F s) : Held b0 F (State.fireGo s) := by
  unfold State.fireGo
  extract_lets -merge -underBinder +onlyGivenNames s
  have hs : Held b0 F s := held_wr (dj hF) (held_wrB (dj hF) ‹_› (off_PLT_EVAC_STATUS_FIRE_ALARM (dj hF))) (off_PLT_EVAC_STATUS_ALARM_HOLD (dj hF))
  try clear_value s
  refine ite_ind (Q := Held b0 F) (fun _ => ?_) (fun _ => ?_)
  · exact held_evacEnter (dj hF) ‹_›
  · assumption
theorem held_execFireAlarmHoldExpiry {s} (hF : Dj F 0x1500f200a08d2b) (hs : Held b0 F s) : HeldR b0 F (execFireAlarmHoldExpiry s) := by
  unfold execFireAlarmHoldExpiry
  refine heldR_next ?_
  refine ite_ind (Q := Held b0 F) (fun _ => ?_) (fun _ => ?_)
  · exact held_fireOver (dj hF) ‹_›
  · assumption
theorem held_mainsGo {s units} (hF : Dj F 0x1500f200a0890b) (hs : Held b0 F s) : Held b0 F (State.mainsGo s units) := by
  unfold State.mainsGo
  extract_lets -merge -underBinder +onlyGivenNames s
  have hs : Held b0 F s := held_raise (dj hF) (held_wrB (dj hF) ‹_› (off_PLT_EVAC_STATUS_MAINS_LOST (dj hF)))
  try clear_value s
  refine ite_ind (Q := Held b0 F) (fun _ => ?_) (fun _ => ?_)
  · exact held_evacEnter (dj hF) ‹_›
  · exact held_setMode (dj hF) ‹_›
theorem held_execMainsLostConfirm {units s} (hF : Dj F 0x1500f200a0890b) (hs : Held b0 F s) : HeldR b0 F (execMainsLostConfirm units s) := by
  unfold execMainsLostConfirm
  refine heldR_next ?_
  refine ite_ind (Q := Held b0 F) (fun _ => ?_) (fun _ => ?_)
  · exact held_mainsGo (dj hF) ‹_›
  · assumption
theorem held_mainsBack {s} (hF : Dj F 0x1000900020000b) (hs : Held b0 F s) : Held b0 F (State.mainsBack s) := by
  unfold State.mainsBack
  extract_lets -merge -underBinder +onlyGivenNames s
  have hs : Held b0 F s := held_raise (dj hF) (held_wrB (dj hF) ‹_› (off_PLT_EVAC_STATUS_MAINS_LOST (dj hF)))
  try clear_value s
  refine ite_ind (Q := Held b0 F) (fun _ => ?_) (fun _ => ?_)
  · exact held_setMode (dj hF) ‹_›
  · assumption
theorem held_execFireAlarmActive {s} (hF : Dj F 0x1500f200a0890b) (hs : Held b0 F s) : HeldR b0 F (execFireAlarmActive s) := by
  unfold execFireAlarmActive
  refine heldR_next ?_
  refine ite_ind (Q := Held b0 F) (fun _ => ?_) (fun _ => ?_)
  · exact held_fireGo (dj hF) ‹_›
  · assumption
theorem held_execMainsPresentConfirm {s} (hF : Dj F 0x1000900020000b) (hs : Held b0 F s) : HeldR b0 F (execMainsPresentConfirm s) := by
  unfold execMainsPresentConfirm
  refine heldR_next ?_
  refine ite_ind (Q := Held b0 F) (fun _ => ?_) (fun _ => ?_)
  · exact held_mainsBack (dj hF) ‹_›
  · assumption

end Sys2Proof.Machine
end

