-- ==== Sys2Proof/Laws/KeptRelease.lean ====
section
/-!
SUPPORT. The operations of Machine/Release.lean change only the parts that their masks name (Laws/Held.lean).
-/
namespace Sys2Proof.Machine
open Sys2Proof
set_option Elab.async false

variable {b0 : State} {F : Nat}

theorem held_strideResumes {s} (hF : Dj F 0x3fffff01ffffff) (hs : Held b0 F s) : Held b0 F (State.strideResumes s) := by
  unfold State.strideResumes
  extract_lets -merge -underBinder +onlyGivenNames s
  have hs : Held b0 F s := held_showDomains (dj hF) (held_wrB (dj hF) (held_wr (dj hF) ‹_› (off_PWR_STATE_STATE (dj hF))) (off_LOOP_STATUS_GLIDE_SCHEDULE (dj hF)))
  try clear_value s
  extract_lets -merge -underBinder +onlyGivenNames s
  have hs : Held b0 F s := held_showPwm (dj hF) (held_acqStride (dj hF) (held_wakeSlots (dj hF) ‹_›))
  try clear_value s
  extract_lets -merge -underBinder +onlyGivenNames s
  have hs : Held b0 F s := by
    unfold s
    refine foldl_ind (Q := Held b0 F) (fun _ _ hs => ?_) ?_
    · exact held_replan (dj hF) ‹_›
    · assumption
  try clear_value s
  exact held_releaseWaits (dj hF) (held_flag (dj hF) (held_inc (dj hF) ‹_› (off_PWR_GLIDE_WAKES (dj hF))) (off_PWR_EVENT_STATUS_GLIDE_LEFT (dj hF)))
theorem held_domainRegs {s d'} (hF : Dj F 0x3FFFFF00000001) (hs : Held b0 F s) : Held b0 F (State.domainRegs s d') := by
  unfold State.domainRegs
  exact held_regs (dj hF) hs fun h => regsOk_filter _ _ h
theorem held_resetFio {s} (hF : Dj F 0x900200940029) (hs : Held b0 F s) : Held b0 F (State.resetFio s) := by
  unfold State.resetFio
  exact held_driveOuts (dj hF) (held_showAllInputs (dj hF) (held_fioLoad (dj hF) (held_wrB (dj hF) (held_wrB (dj hF) ‹_› (off_FIO_STATUS_RUNNING (dj hF))) (off_FIO_STATUS_OUTPUTS_ENABLED (dj hF)))))
theorem held_resetPos {s} (hF : Dj F 0x1020100020200b) (hs : Held b0 F s) : Held b0 F (State.resetPos s) := by
  unfold State.resetPos
  refine foldl_ind (Q := Held b0 F) (fun s _ hs => ?_) ?_
  · extract_lets -merge -underBinder +onlyGivenNames x
    try clear_value x
    exact held_setQuality (dj hF) (held_setCh (dj hF) ‹_›)
  · assumption
theorem held_resetMbc {s} (hF : Dj F 0x3001000a18029) (hs : Held b0 F s) : Held b0 F (State.resetMbc s) := by
  unfold State.resetMbc
  extract_lets -merge -underBinder +onlyGivenNames q
  try clear_value q
  extract_lets -merge -underBinder +onlyGivenNames s
  have hs : Held b0 F s := by
    unfold s
    refine foldl_ind (Q := Held b0 F) (fun s _ hs => ?_) ?_
    · exact held_complete (dj hF) ‹_›
    · exact held_mk_mbc_ser (dj hF) ‹_›
  try clear_value s
  extract_lets -merge -underBinder +onlyGivenNames s
  have hs : Held b0 F s := by
    unfold s
    refine foldl_ind (Q := Held b0 F) (fun s _ hs => ?_) ?_
    · exact held_startBus (dj hF) ‹_›
    · assumption
  try clear_value s
  refine foldl_ind (Q := Held b0 F) (fun _ _ hs => ?_) ?_
  · exact held_busStanding (dj hF) ‹_›
  · exact held_startLines (dj hF) ‹_›
theorem held_resetNet {s} (hF : Dj F 0x1400120060000b) (hs : Held b0 F s) : Held b0 F (State.resetNet s) := by
  unfold State.resetNet
  exact ite_ind (Q := Held b0 F) (fun _ => held_ptpState (dj hF) (held_startPorts (dj hF) (held_mk_net (dj hF) hs)))
    (fun _ => held_wr (dj hF) (held_startPorts (dj hF) (held_mk_net (dj hF) hs)) (off_NET_PTP_STATUS_STATE (dj hF)))
theorem held_ringReset {s n} (hF : Dj F 0x10003000a0012b) (hs : Held b0 F s) : Held b0 F (State.ringReset s n) := by
  unfold State.ringReset
  extract_lets -merge -underBinder +onlyGivenNames r
  try clear_value r
  extract_lets -merge -underBinder +onlyGivenNames slept
  try clear_value slept
  extract_lets -merge -underBinder +onlyGivenNames q
  try clear_value q
  extract_lets -merge -underBinder +onlyGivenNames s
  have hs : Held b0 F s := held_modRing (dj hF) ‹_›
  try clear_value s
  extract_lets -merge -underBinder +onlyGivenNames s
  have hs : Held b0 F s := by
    unfold s
    refine foldl_ind (Q := Held b0 F) (fun s _ hs => ?_) ?_
    · exact held_complete (dj hF) ‹_›
    · assumption
  try clear_value s
  refine ite_ind (Q := Held b0 F) (fun _ => ?_) (fun _ => ?_)
  · exact held_replan (dj hF) (held_startWake (dj hF) ‹_›)
  · exact held_replan (dj hF) ‹_›
theorem held_resetXng {s} (hF : Dj F 0x10003000a0012b) (hs : Held b0 F s) : Held b0 F (State.resetXng s) := by
  unfold State.resetXng
  refine foldl_ind (Q := Held b0 F) (fun _ _ hs => ?_) ?_
  · exact held_ringReset (dj hF) ‹_›
  · assumption
theorem held_glideWake {s} (hF : Dj F 0x200000001) (hs : Held b0 F s) : Held b0 F (State.glideWake s) := by
  unfold State.glideWake
  refine ite_ind (Q := Held b0 F) (fun _ => ?_) (fun _ => ?_)
  · exact held_wr (dj hF) (held_wr (dj hF) ‹_› (off_PWR_STATE_STATE (dj hF))) (off_PWR_WAKE_CAUSE (dj hF))
  · assumption
theorem held_resetLoop {s glide} (hF : Dj F 0x31000201009) (hs : Held b0 F s) : Held b0 F (State.resetLoop s glide) := by
  unfold State.resetLoop
  exact held_showPwm (dj hF) (held_loopFresh (dj hF) (held_wrB (dj hF) ‹_› (off_LOOP_STATUS_GLIDE_SCHEDULE (dj hF))))
theorem held_execPllLocked {s} (hF : Dj F 0x3fffff01ffffff) (hs : Held b0 F s) : HeldR b0 F (execPllLocked s) := by
  unfold execPllLocked
  extract_lets -merge -underBinder +onlyGivenNames t
  have ht : Held b0 F t := held_glideWake (dj hF) ‹_›
  try clear_value t
  refine heldR_next ?_
  refine ite_ind (Q := Held b0 F) (fun _ => ?_) (fun _ => ?_)
  · exact held_strideResumes (dj hF) ‹_›
  · assumption
theorem held_unitReset {s d} (hF : Dj F 0x3fffff00f5b12b) (hs : Held b0 F s) : Held b0 F (State.unitReset s d) := by
  unfold State.unitReset
  extract_lets -merge -underBinder +onlyGivenNames glide
  try clear_value glide
  extract_lets -merge -underBinder +onlyGivenNames s
  have hs : Held b0 F s := held_domainRegs (dj hF) ‹_›
  try clear_value s
  split
  · exact held_resetLoop (dj hF) ‹_›
  · exact held_resetXng (dj hF) ‹_›
  · exact held_resetPos (dj hF) ‹_›
  · exact held_resetMbc (dj hF) ‹_›
  · exact held_resetNet (dj hF) ‹_›
  · exact held_acqReset (dj hF) (held_wrB (dj hF) ‹_› (off_ACQ_STATUS_RUNNING (dj hF)))
  · exact held_showPwm (dj hF) ‹_›
  · exact held_resetFio (dj hF) ‹_›
  · assumption
theorem held_resetEnds {s d} (hF : Dj F 0x3fffff01ffffff) (hs : Held b0 F s) : Held b0 F (State.resetEnds s d) := by
  unfold State.resetEnds
  extract_lets -merge -underBinder +onlyGivenNames s
  have hs : Held b0 F s := held_unitReset (dj hF) ‹_›
  try clear_value s
  extract_lets -merge -underBinder +onlyGivenNames s
  have hs : Held b0 F s := held_modPwr (dj hF) (held_wrB (dj hF) (held_incSat (dj hF) ‹_› (off_PWR_DOMAIN_STATUS_RESETS (dj hF))) (off_PWR_DOMAIN_RESET_STATUS_BUSY (dj hF)))
  try clear_value s
  exact held_resetWaits (dj hF) (held_resetResult (dj hF) ‹_›)
theorem held_execDomainResetDone {s} (hF : Dj F 0x3fffff01ffffff) (hs : Held b0 F s) : HeldR b0 F (execDomainResetDone s) := by
  unfold execDomainResetDone
  refine heldR_next ?_
  split
  · assumption
  · refine ite_ind (Q := Held b0 F) (fun _ => ?_) (fun _ => ?_)
    · exact held_resetEnds (dj hF) ‹_›
    · assumption

end Sys2Proof.Machine
end

