-- ==== Sys2Proof/Laws/KeptTick.lean ====
section
/-!
SUPPORT. The operations of Machine/Tick.lean change only the parts that their masks name (Laws/Held.lean).
-/
namespace Sys2Proof.Machine
open Sys2Proof
set_option Elab.async false

variable {b0 : State} {F : Nat}

theorem held_plantTo {s p} (hF : Dj F 0x200000021) (hs : Held b0 F s) : Held b0 F (State.plantTo s p) := by
  unfold State.plantTo
  extract_lets -merge -underBinder +onlyGivenNames slew
  try clear_value slew
  extract_lets -merge -underBinder +onlyGivenNames s
  have hs : Held b0 F s := held_wr64 (dj hF) ‹_› (off_PWR_PLANT_TIME_LO (dj hF))
  try clear_value s
  extract_lets -merge -underBinder +onlyGivenNames s
  have hs : Held b0 F s := held_modPwr (dj hF) ‹_›
  try clear_value s
  extract_lets -merge -underBinder +onlyGivenNames s
  have hs : Held b0 F s := by
    unfold s
    refine ite_ind (Q := Held b0 F) (fun _ => ?_) (fun _ => ?_)
    · assumption
    · exact held_wrB (dj hF) (held_wrS (dj hF) ‹_› (off_PWR_PLANT_TIME_SLEW (dj hF))) (off_PWR_PLANT_TIME_STATUS_SLEWING (dj hF))
  try clear_value s
  refine ite_ind (Q := Held b0 F) (fun _ => ?_) (fun _ => ?_)
  · assumption
  · exact held_wrS (dj hF) ‹_› (off_PWR_TICK_OFFSET (dj hF))
theorem held_showSaturated {s caps} (hF : Dj F 0x200000000001) (hs : Held b0 F s) : Held b0 F (State.showSaturated s caps) := by
  unfold State.showSaturated
  refine foldl_ind (Q := Held b0 F) (fun s _ hs => ?_) ?_
  · exact held_wrB (dj hF) ‹_› (off_POS_STATUS_SATURATED (dj hF))
  · assumption
theorem held_countPartners {s} (hF : Dj F 0x1100200009) (hs : Held b0 F s) : Held b0 F (State.countPartners s) := by
  unfold State.countPartners
  extract_lets -merge -underBinder +onlyGivenNames a
  try clear_value a
  extract_lets -merge -underBinder +onlyGivenNames q
  try clear_value q
  extract_lets -merge -underBinder +onlyGivenNames changed
  try clear_value changed
  extract_lets -merge -underBinder +onlyGivenNames s
  have hs : Held b0 F s := held_wr (dj hF) (held_wr (dj hF) ‹_› (off_SYS_PARTNERS_ABSENT (dj hF))) (off_SYS_PARTNERS_QUARANTINED (dj hF))
  try clear_value s
  refine ite_ind (Q := Held b0 F) (fun _ => ?_) (fun _ => ?_)
  · exact held_flag (dj hF) ‹_› (off_SYS_EVENT_STATUS_PARTNERS_CHANGED (dj hF))
  · assumption
theorem held_keepInputs {s ain} (hF : Dj F 0x800) (hs : Held b0 F s) : Held b0 F (State.keepInputs s ain) := by
  unfold State.keepInputs
  refine foldl_ind (Q := Held b0 F) (fun s _ hs => ?_) ?_
  · exact held_modDisp (dj hF) ‹_›
  · assumption
theorem held_syncPulse {s} (hF : Dj F 0x800000) (hs : Held b0 F s) : Held b0 F (State.syncPulse s) := by
  unfold State.syncPulse
  refine ite_ind (Q := Held b0 F) (fun _ => ?_) (fun _ => ?_)
  · exact held_send (dj hF) ‹_›
  · assumption
theorem held_netSecond {s} (hF : Dj F 0x4000001000001) (hs : Held b0 F s) : Held b0 F (State.netSecond s) := by
  unfold State.netSecond
  extract_lets -merge -underBinder +onlyGivenNames more
  have hmore : ∀ s_0 f_1, Held b0 F s_0 → Off F f_1 → Held b0 F (more s_0 f_1) := by
    intro s_0 f_1 hs_0 hf_1
    unfold more
    split
    rename_i w s heq
    have hs : Held b0 F s := held2_eq heq (by
      exact held_drawWord (dj hF) ‹_›
      )
    clear heq
    exact held_wr (dj hF) ‹_› ‹_›
  try clear_value more
  extract_lets -merge -underBinder +onlyGivenNames s
  have hs : Held b0 F s := by
    unfold s
    refine foldl_ind (Q := Held b0 F) (fun s _ hs => ?_) ?_
    · refine hmore _ _ ?_ ?_
      · refine hmore _ _ ?_ ?_
        · assumption
        · exact off_NET_PORT_RX_ERRORS (dj hF)
      · exact off_NET_PORT_DROPPED (dj hF)
    · assumption
  try clear_value s
  refine ite_ind (Q := Held b0 F) (fun _ => ?_) (fun _ => ?_)
  · extract_lets -merge -underBinder +onlyGivenNames s
    have hs : Held b0 F s := by
      unfold s
      refine hmore _ _ ?_ ?_
      · refine hmore _ _ ?_ ?_
        · assumption
        · exact off_NET_PRP_DUP_DISCARDED (dj hF)
      · exact off_NET_PRP_WRONG_LAN (dj hF)
    try clear_value s
    split
    rename_i w s heq
    have hs : Held b0 F s := held2_eq heq (by
      exact held_drawWord (dj hF) ‹_›
      )
    clear heq
    exact held_wr (dj hF) ‹_› (off_NET_PRP_NODES (dj hF))
  · assumption
theorem held_msPass {s} (hF : Dj F 0x200000001) (hs : Held b0 F s) : Held b0 F (State.msPass s) := by
  unfold State.msPass
  extract_lets -merge -underBinder +onlyGivenNames s
  have hs : Held b0 F s := by
    unfold s
    refine ite_ind (Q := Held b0 F) (fun _ => ?_) (fun _ => ?_)
    · exact held_wr (dj hF) ‹_› (off_PWR_WATCHDOG_STATUS_REMAINING_MS (dj hF))
    · assumption
  try clear_value s
  refine ite_ind (Q := Held b0 F) (fun _ => ?_) (fun _ => ?_)
  · exact held_inc (dj hF) (held_wr (dj hF) ‹_› (off_PWR_OP_MS (dj hF))) (off_PWR_OP_SECONDS (dj hF))
  · exact held_inc (dj hF) ‹_› (off_PWR_OP_MS (dj hF))
theorem held_sensor {s k w} (hF : Dj F 0x200000001) (hs : Held b0 F s) : Held b0 F (State.sensor s k w) := by
  unfold State.sensor
  refine ite_ind (Q := Held b0 F) (fun _ => ?_) (fun _ => ?_)
  · exact held_wr (dj hF) ‹_› (off_PWR_DIE_TEMP (dj hF))
  · split
    · exact held_wr (dj hF) ‹_› (off_PWR_BASE_TEMP (dj hF))
    · exact held_wr (dj hF) ‹_› (off_PWR_INPUT_A (dj hF))
    · exact held_wr (dj hF) ‹_› (off_PWR_INPUT_B (dj hF))
    · exact held_supply (dj hF) (held_wr (dj hF) ‹_› (off_PWR_INPUT_BKP (dj hF)))
    · exact held_wr (dj hF) ‹_› (off_PWR_POWER_NOW (dj hF))
    · assumption
theorem held_weigh {s ain c} (hF : Dj F 0x80001000001) (hs : Held b0 F s) : Held b0 F (State.weigh s ain c) := by
  unfold State.weigh
  split
  · assumption
  · extract_lets -merge -underBinder +onlyGivenNames src
    try clear_value src
    refine ite_ind (Q := Held b0 F) (fun _ => ?_) (fun _ => ?_)
    · refine ite_ind (Q := Held b0 F) (fun _ => ?_) (fun _ => ?_)
      · split
        rename_i w t heq
        have ht : Held b0 F t := held2_eq heq (by
          exact held_drawWord (dj hF) ‹_›
          )
        clear heq
        exact held_wr (dj hF) ‹_› (off_CAR_LOAD (dj hF))
      · assumption
    · split
      · exact held_wr (dj hF) ‹_› (off_CAR_LOAD (dj hF))
      · assumption
theorem held_ppsPulse {s t} (hF : Dj F 0x800000) (hs : Held b0 F s) : Held b0 F (State.ppsPulse s t) := by
  unfold State.ppsPulse
  refine ite_ind (Q := Held b0 F) (fun _ => ?_) (fun _ => ?_)
  · exact held_send (dj hF) ‹_›
  · assumption
theorem held_countTick {s} (hF : Dj F 0x10200001021) (hs : Held b0 F s) : Held b0 F (State.countTick s) := by
  unfold State.countTick
  extract_lets -merge -underBinder +onlyGivenNames len
  try clear_value len
  extract_lets -merge -underBinder +onlyGivenNames pos
  try clear_value pos
  extract_lets -merge -underBinder +onlyGivenNames p
  try clear_value p
  extract_lets -merge -underBinder +onlyGivenNames g
  try clear_value g
  extract_lets -merge -underBinder +onlyGivenNames s
  have hs : Held b0 F s := held_modLoop (dj hF) (held_wr (dj hF) ‹_› (off_LOOP_TICK_LENGTH (dj hF)))
  try clear_value s
  exact held_wr64 (dj hF) (held_plantTo (dj hF) ‹_›) (off_PWR_TICK_LO (dj hF))
theorem held_busLoad {s b} (hF : Dj F 0x1000001000001) (hs : Held b0 F s) : Held b0 F (State.busLoad s b) := by
  unfold State.busLoad
  split
  rename_i w s heq
  have hs : Held b0 F s := held2_eq heq (by
    exact held_drawWord (dj hF) ‹_›
    )
  clear heq
  extract_lets -merge -underBinder +onlyGivenNames v
  try clear_value v
  exact held_wr (dj hF) (held_wr (dj hF) ‹_› (off_MBC_LOAD (dj hF))) (off_MBC_LOAD_PEAK (dj hF))
theorem held_opTick {s} (hF : Dj F 0x200000021) (hs : Held b0 F s) : Held b0 F (State.opTick s) := by
  unfold State.opTick
  refine ite_ind (Q := Held b0 F) (fun _ => ?_) (fun _ => ?_)
  · exact held_modPwr (dj hF) ‹_›
  · exact held_msPass (dj hF) (held_modPwr (dj hF) ‹_›)
theorem held_carTicks {s ain} (hF : Dj F 0x117d1201aff02b) (hs : Held b0 F s) : Held b0 F (State.carTicks s ain) := by
  unfold State.carTicks
  extract_lets -merge -underBinder +onlyGivenNames s
  have hs : Held b0 F s := by
    unfold s
    refine foldl_ind (Q := Held b0 F) (fun s _ hs => ?_) ?_
    · extract_lets -merge -underBinder +onlyGivenNames ran
      try clear_value ran
      exact held_carTick (dj hF) (held_posLatch (dj hF) (held_weigh (dj hF) ‹_›))
    · assumption
  try clear_value s
  extract_lets -merge -underBinder +onlyGivenNames s
  have hs : Held b0 F s := by
    unfold s
    refine ite_ind (Q := Held b0 F) (fun _ => ?_) (fun _ => ?_)
    · exact held_tractionFrame (dj hF) ‹_›
    · assumption
  try clear_value s
  exact held_serveCars (dj hF) ‹_›
theorem held_posTicks {s mot} (hF : Dj F 0x1020100020200b) (hs : Held b0 F s) : Held b0 F (State.posTicks s mot) := by
  unfold State.posTicks
  refine foldl_ind (Q := Held b0 F) (fun s _ hs => ?_) ?_
  · exact held_posTick (dj hF) ‹_›
  · assumption
theorem held_loopReports {s} (hF : Dj F 0x10481201a2502b) (hs : Held b0 F s) : Held b0 F (State.loopReports s) := by
  unfold State.loopReports
  extract_lets -merge -underBinder +onlyGivenNames l
  try clear_value l
  refine ite_ind (Q := Held b0 F) (fun _ => ?_) (fun _ => ?_)
  · assumption
  · extract_lets -merge -underBinder +onlyGivenNames s
    have hs : Held b0 F s := held_modLoop (dj hF) ‹_›
    try clear_value s
    extract_lets -merge -underBinder +onlyGivenNames hit
    try clear_value hit
    refine held_safety (dj hF) ?_
    refine foldl_ind (Q := Held b0 F) (fun s _ hs => ?_) ?_
    · exact held_modSafCar (dj hF) ‹_›
    · assumption
theorem held_sensors {s ain} (hF : Dj F 0x200000021) (hs : Held b0 F s) : Held b0 F (State.sensors s ain) := by
  unfold State.sensors
  extract_lets -merge -underBinder +onlyGivenNames own
  try clear_value own
  extract_lets -merge -underBinder +onlyGivenNames s
  have hs : Held b0 F s := by
    unfold s
    refine foldl_ind (Q := Held b0 F) (fun s _ hs => ?_) ?_
    · exact held_sensor (dj hF) ‹_›
    · assumption
  try clear_value s
  refine ite_ind (Q := Held b0 F) (fun _ => ?_) (fun _ => ?_)
  · extract_lets -merge -underBinder +onlyGivenNames m
    try clear_value m
    extract_lets -merge -underBinder +onlyGivenNames word
    try clear_value word
    extract_lets -merge -underBinder +onlyGivenNames s
    have hs : Held b0 F s := held_wr (dj hF) (held_wr (dj hF) ‹_› (off_PWR_DIE_TEMP_MAX (dj hF))) (off_PWR_DIE_TEMP_PEAK (dj hF))
    try clear_value s
    refine ite_ind (Q := Held b0 F) (fun _ => ?_) (fun _ => ?_)
    · exact held_modPwr (dj hF) ‹_›
    · assumption
  · assumption
theorem held_secondPass {s} (hF : Dj F 0x500f301a00709) (hs : Held b0 F s) : Held b0 F (State.secondPass s) := by
  unfold State.secondPass
  extract_lets -merge -underBinder +onlyGivenNames s
  have hs : Held b0 F s := held_inc (dj hF) ‹_› (off_SYS_UPTIME (dj hF))
  try clear_value s
  extract_lets -merge -underBinder +onlyGivenNames s
  have hs : Held b0 F s := held_wr (dj hF) ‹_› (off_PWR_PEAK_SECONDS (dj hF))
  try clear_value s
  extract_lets -merge -underBinder +onlyGivenNames s
  have hs : Held b0 F s := by
    unfold s
    refine held_alarmSecond (dj hF) ?_
    refine held_secondUpdates (dj hF) ?_
    refine ite_ind (Q := Held b0 F) (fun _ => ?_) (fun _ => ?_)
    · exact held_netSecond (dj hF) (held_balanceCheck (dj hF) (held_countPartners (dj hF) ‹_›))
    · assumption
  try clear_value s
  refine foldl_ind (Q := Held b0 F) (fun _ _ hs => ?_) ?_
  · exact held_busLoad (dj hF) ‹_›
  · assumption
theorem held_glideSecond {s} (hF : Dj F 0x200000021) (hs : Held b0 F s) : Held b0 F (State.glideSecond s) := by
  unfold State.glideSecond
  refine ite_ind (Q := Held b0 F) (fun _ => ?_) (fun _ => ?_)
  · extract_lets -merge -underBinder +onlyGivenNames s
    have hs : Held b0 F s := held_modPwr (dj hF) ‹_›
    try clear_value s
    refine ite_ind (Q := Held b0 F) (fun _ => ?_) (fun _ => ?_)
    · exact held_inc (dj hF) (held_modPwr (dj hF) ‹_›) (off_PWR_GLIDE_SECONDS (dj hF))
    · assumption
  · assumption
theorem held_doorTicks {s} (hF : Dj F 0x11511201a4d02b) (hs : Held b0 F s) : Held b0 F (State.doorTicks s) := by
  unfold State.doorTicks
  refine ite_ind (Q := Held b0 F) (fun _ => ?_) (fun _ => ?_)
  · assumption
  · refine ite_ind (Q := Held b0 F) (fun _ => ?_) (fun _ => ?_)
    · refine ite_ind (Q := Held b0 F) (fun _ => ?_) (fun _ => ?_)
      · refine foldl_ind (Q := Held b0 F) (fun s _ hs => ?_) ?_
        · exact held_doorFrame (dj hF) ‹_›
        · assumption
      · assumption
    · refine foldl_ind (Q := Held b0 F) (fun s _ hs => ?_) ?_
      · refine ite_ind (Q := Held b0 F) (fun _ => ?_) (fun _ => ?_)
        · exact held_doorServo (dj hF) ‹_›
        · assumption
      · assumption
theorem held_safTick {s} (hF : Dj F 0x400000004001) (hs : Held b0 F s) : Held b0 F (State.safTick s) := by
  unfold State.safTick
  extract_lets -merge -underBinder +onlyGivenNames zz0 s
  have hs : Held b0 F s := by
    unfold s
    refine ite_ind (Q := Held b0 F) (fun _ => ?_) (fun _ => ?_)
    · have hzz0 : Held b0 F zz0 := by
        unfold zz0
        refine foldl_ind (Q := Held b0 F) (fun s _ hs => ?_) ?_
        · extract_lets -merge -underBinder +onlyGivenNames s
          have hs : Held b0 F s := held_safFigures (dj hF) ‹_›
          try clear_value s
          refine ite_ind (Q := Held b0 F) (fun _ => ?_) (fun _ => ?_)
          · exact held_modSafCar (dj hF) ‹_›
          · assumption
        · assumption
      exact held_limitRelease (dj hF) (held_safTime (dj hF) ‹_›)
    · assumption
  try clear_value s
  refine ite_ind (Q := Held b0 F) (fun _ => ?_) (fun _ => ?_)
  · exact held_safMirror (dj hF) ‹_›
  · assumption
theorem held_unitTicks {s} (hF : Dj F 0x3fffff01ffffff) (hs : Held b0 F s) : Held b0 F (State.unitTicks s) := by
  unfold State.unitTicks
  extract_lets -merge -underBinder +onlyGivenNames s
  have hs : Held b0 F s := by
    unfold s
    refine foldl_ind (Q := Held b0 F) (fun _ _ hs => ?_) ?_
    · exact held_ringTick (dj hF) ‹_›
    · assumption
  try clear_value s
  extract_lets -merge -underBinder +onlyGivenNames s
  have hs : Held b0 F s := by
    unfold s
    refine foldl_ind (Q := Held b0 F) (fun _ _ hs => ?_) ?_
    · exact held_canTick (dj hF) ‹_›
    · assumption
  try clear_value s
  extract_lets -merge -underBinder +onlyGivenNames s
  have hs : Held b0 F s := by
    unfold s
    refine ite_ind (Q := Held b0 F) (fun _ => ?_) (fun _ => ?_)
    · assumption
    · exact held_sweepsGo (dj hF) ‹_›
  try clear_value s
  extract_lets -merge -underBinder +onlyGivenNames s
  have hs : Held b0 F s := held_glideWake (dj hF) (held_glideSecond (dj hF) ‹_›)
  try clear_value s
  extract_lets -merge -underBinder +onlyGivenNames s
  have hs : Held b0 F s := by
    unfold s
    refine ite_ind (Q := Held b0 F) (fun _ => ?_) (fun _ => ?_)
    · exact held_modbusRefresh (dj hF) ‹_›
    · assumption
  try clear_value s
  extract_lets -merge -underBinder +onlyGivenNames s
  have hs : Held b0 F s := by
    unfold s
    refine ite_ind (Q := Held b0 F) (fun _ => ?_) (fun _ => ?_)
    · exact held_ptpTick (dj hF) ‹_›
    · assumption
  try clear_value s
  extract_lets -merge -underBinder +onlyGivenNames s
  have hs : Held b0 F s := by
    unfold s
    refine ite_ind (Q := Held b0 F) (fun _ => ?_) (fun _ => ?_)
    · exact held_secondPass (dj hF) ‹_›
    · assumption
  try clear_value s
  exact held_releaseWaits (dj hF) (held_showDomains (dj hF) ‹_›)
theorem held_fullTick {s ain mot upsets} (hF : Dj F 0x3fffff01ffffff) (hs : Held b0 F s) : Held b0 F (State.fullTick s ain mot upsets) := by
  unfold State.fullTick
  extract_lets -merge -underBinder +onlyGivenNames s
  have hs : Held b0 F s := held_ppsPulse (dj hF) (held_syncPulse (dj hF) (held_opTick (dj hF) (held_countTick (dj hF) (held_patchBoundary (dj hF) ‹_›))))
  try clear_value s
  extract_lets -merge -underBinder +onlyGivenNames s
  have hs : Held b0 F s := held_posTicks (dj hF) (held_keepInputs (dj hF) (held_sensors (dj hF) ‹_›))
  try clear_value s
  extract_lets -merge -underBinder +onlyGivenNames caps
  try clear_value caps
  extract_lets -merge -underBinder +onlyGivenNames s
  have hs : Held b0 F s := held_loopReports (dj hF) (held_engineTick (dj hF) (held_showSaturated (dj hF) ‹_›))
  try clear_value s
  extract_lets -merge -underBinder +onlyGivenNames s
  have hs : Held b0 F s := held_pwmTick (dj hF) ‹_›
  try clear_value s
  extract_lets -merge -underBinder +onlyGivenNames s
  have hs : Held b0 F s := by
    unfold s
    refine ite_ind (Q := Held b0 F) (fun _ => ?_) (fun _ => ?_)
    · exact held_indicateChanges (dj hF) (held_doorTicks (dj hF) (held_carTicks (dj hF) ‹_›))
    · assumption
  try clear_value s
  extract_lets -merge -underBinder +onlyGivenNames s
  have hs : Held b0 F s := held_sourceTick (dj hF) (held_loopOuts (dj hF) (held_acqDrain (dj hF) (held_acqLoop (dj hF) ‹_›)))
  try clear_value s
  exact held_unitTicks (dj hF) (held_safTick (dj hF) ‹_›)
theorem held_execTick {ain mot upsets s} (hF : Dj F 0x3fffff01ffffff) (hs : Held b0 F s) : HeldR b0 F (execTick ain mot upsets s) := by
  unfold execTick
  refine heldR_next ?_
  split
  · exact held_fullTick (dj hF) ‹_›
  · exact held_opTick (dj hF) (held_wr64 (dj hF) ‹_› (off_PWR_TICK_LO (dj hF)))
  · assumption

end Sys2Proof.Machine
end

