-- ==== Sys2Proof/Laws/KeptDispatch.lean ====
section
/-!
SUPPORT. The operations of Machine/Dispatch.lean change only the parts that their masks name (Laws/Held.lean).
-/
namespace Sys2Proof.Machine
open Sys2Proof
set_option Elab.async false

variable {b0 : State} {F : Nat}

theorem held_exec {i s} (hs : Held b0 0 s) : HeldR b0 0 (exec i s) := by
  cases i
  · exact held_execRegisterWrite (Nat.zero_and _) hs
  · exact held_execRcRegisterRead (Nat.zero_and _) hs
  · exact held_execCounterLowWordRead (Nat.zero_and _) hs
  · exact held_execCounterHighWordWrite (Nat.zero_and _) hs
  · exact held_execOpMsRead (Nat.zero_and _) hs
  · exact held_execPowerGood (Nat.zero_and _) hs
  · exact held_execBootComplete (Nat.zero_and _) hs
  · exact held_execBootVerifyFailed (Nat.zero_and _) hs
  · exact held_execSafetySelftestDone (Nat.zero_and _) hs
  · exact held_execManifestStageDone (Nat.zero_and _) hs
  · exact held_execSelfTestDone (Nat.zero_and _) hs
  · exact held_execLearnedRestoreDone (Nat.zero_and _) hs
  · exact held_execPartnersDone (Nat.zero_and _) hs
  · exact held_execPartnerAbsentTimeout (Nat.zero_and _) hs
  · exact held_execStageTimeout (Nat.zero_and _) hs
  · exact held_execStartTimeout (Nat.zero_and _) hs
  · exact held_execStartHoldElapsed (Nat.zero_and _) hs
  · exact held_execHoldRepeatTimer (Nat.zero_and _) hs
  · exact held_execHostReset (Nat.zero_and _) hs
  · exact held_execAttemptStart (Nat.zero_and _) hs
  · exact held_execBrownOut (Nat.zero_and _) hs
  · exact held_execFirmwareFatal (Nat.zero_and _) hs
  · exact held_execFirmwareCommit (Nat.zero_and _) hs
  · exact held_execGlideDwellExpiry (Nat.zero_and _) hs
  · exact held_execPllLocked (Nat.zero_and _) hs
  · exact held_execEnterBerth (Nat.zero_and _) hs
  · exact held_execCancelBerth (Nat.zero_and _) hs
  · exact held_execBerthEntryComplete (Nat.zero_and _) hs
  · exact held_execMainInputLost (Nat.zero_and _) hs
  · exact held_execBothMainsLost (Nat.zero_and _) hs
  · exact held_execBkpDepleted (Nat.zero_and _) hs
  · exact held_execWakeSourceEvent (Nat.zero_and _) hs
  · exact held_execBerthWake (Nat.zero_and _) hs
  · exact held_execOpsecPersist (Nat.zero_and _) hs
  · exact held_execPwrDomainReset (Nat.zero_and _) hs
  · exact held_execDomainResetDone (Nat.zero_and _) hs
  · exact held_execPwrDomainHoldWrite (Nat.zero_and _) hs
  · exact held_execHungAccessTimeout (Nat.zero_and _) hs
  · exact held_execWatchdogService (Nat.zero_and _) hs
  · exact held_execWatchdogExpiry (Nat.zero_and _) hs
  · exact held_execThermalReducedEntry (Nat.zero_and _) hs
  · exact held_execThermalDwellExpiry (Nat.zero_and _) hs
  · exact held_execThermalTrip (Nat.zero_and _) hs
  · exact held_execTick (Nat.zero_and _) hs
  · exact held_execEngineHaltTimeout (Nat.zero_and _) hs
  · exact held_execManifestBegin (Nat.zero_and _) hs
  · exact held_execManifestChunk (Nat.zero_and _) hs
  · exact held_execManifestCommit (Nat.zero_and _) hs
  · exact held_execManifestVerifyDone (Nat.zero_and _) hs
  · exact held_execPatchCommit (Nat.zero_and _) hs
  · exact held_execPatchPersistDone (Nat.zero_and _) hs
  · exact held_execPatchBoundary (Nat.zero_and _) hs
  · exact held_execAbortStage (Nat.zero_and _) hs
  · exact held_execAbortPatch (Nat.zero_and _) hs
  · exact held_execHelmConnect (Nat.zero_and _) hs
  · exact held_execTlsHandshakeTimeout (Nat.zero_and _) hs
  · exact held_execSessionIdleTimeout (Nat.zero_and _) hs
  · exact held_execHelmDisconnect (Nat.zero_and _) hs
  · exact held_execRead (Nat.zero_and _) hs
  · exact held_execWrite (Nat.zero_and _) hs
  · exact held_execReadModifyWrite (Nat.zero_and _) hs
  · exact held_execBulkRead (Nat.zero_and _) hs
  · exact held_execQueuePush (Nat.zero_and _) hs
  · exact held_execQueueAck (Nat.zero_and _) hs
  · exact held_execFence (Nat.zero_and _) hs
  · exact held_execSubscribe (Nat.zero_and _) hs
  · exact held_execSessionRole (Nat.zero_and _) hs
  · exact held_execRestoreLearned (Nat.zero_and _) hs
  · exact held_execBadTypeMessage (Nat.zero_and _) hs
  · exact held_execOversizeMessage (Nat.zero_and _) hs
  · exact held_execCommandStart (Nat.zero_and _) hs
  · exact held_execCommandPromotion (Nat.zero_and _) hs
  · exact held_execFenceComplete (Nat.zero_and _) hs
  · exact held_execFenceTimeout (Nat.zero_and _) hs
  · exact held_execEventSend (Nat.zero_and _) hs
  · exact held_execCloseSession (Nat.zero_and _) hs
  · exact held_execReleaseOwner (Nat.zero_and _) hs
  · exact held_execStandingRefresh (Nat.zero_and _) hs
  · rename_i k a b
    exact held_execPartnerSilenceTimeout (_kind := k) (_a := a) (_b := b) (Nat.zero_and _) hs
  · exact held_execHopTrained (Nat.zero_and _) hs
  · exact held_execHopErrorFallback (Nat.zero_and _) hs
  · exact held_execHopDown (Nat.zero_and _) hs
  · exact held_execLinkFaultReceived (Nat.zero_and _) hs
  · exact held_execRingHeal (Nat.zero_and _) hs
  · exact held_execPresenceTimer (Nat.zero_and _) hs
  · exact held_execJoinDiscoveryTimer (Nat.zero_and _) hs
  · exact held_execJoinResponse (Nat.zero_and _) hs
  · exact held_execAuthResponse (Nat.zero_and _) hs
  · exact held_execAuthTimeout (Nat.zero_and _) hs
  · exact held_execPeriodicChallenge (Nat.zero_and _) hs
  · exact held_execSweepDue (Nat.zero_and _) hs
  · exact held_execSweepPromotion (Nat.zero_and _) hs
  · exact held_execSampleReport (Nat.zero_and _) hs
  · exact held_execUnsolicitedReport (Nat.zero_and _) hs
  · exact held_execHawserResponse (Nat.zero_and _) hs
  · exact held_execTransactionTimeout (Nat.zero_and _) hs
  · exact held_execNodeLost (Nat.zero_and _) hs
  · exact held_execNodeLeave (Nat.zero_and _) hs
  · exact held_execRingSleep (Nat.zero_and _) hs
  · exact held_execSleepProposeResponse (Nat.zero_and _) hs
  · exact held_execSleepAnswerTimeout (Nat.zero_and _) hs
  · exact held_execWakeTone (Nat.zero_and _) hs
  · exact held_execRingWake (Nat.zero_and _) hs
  · exact held_execNodeRead (Nat.zero_and _) hs
  · exact held_execNodeWrite (Nat.zero_and _) hs
  · exact held_execRediscover (Nat.zero_and _) hs
  · exact held_execReauthenticate (Nat.zero_and _) hs
  · exact held_execRetrain (Nat.zero_and _) hs
  · exact held_execXngClearCounters (Nat.zero_and _) hs
  · exact held_execSweepApply (Nat.zero_and _) hs
  · exact held_execRestComplete (Nat.zero_and _) hs
  · exact held_execRollupPublish (Nat.zero_and _) hs
  · exact held_execCheckpointInterval (Nat.zero_and _) hs
  · exact held_execCheckpointDone (Nat.zero_and _) hs
  · exact held_execCheckpointRetry (Nat.zero_and _) hs
  · exact held_execFreezeExpiry (Nat.zero_and _) hs
  · exact held_execCheckpoint (Nat.zero_and _) hs
  · exact held_execStringFigures (Nat.zero_and _) hs
  · exact held_execReinitialise (Nat.zero_and _) hs
  · exact held_execResetLearned (Nat.zero_and _) hs
  · exact held_execClearShort (Nat.zero_and _) hs
  · exact held_execEstClearCounters (Nat.zero_and _) hs
  · exact held_execAbortRestore (Nat.zero_and _) hs
  · exact held_execOrderlyOpenTimeout (Nat.zero_and _) hs
  · exact held_execStringCloseStart (Nat.zero_and _) hs
  · exact held_execStringClosingTimeout (Nat.zero_and _) hs
  · exact held_execContainerClosingTimeout (Nat.zero_and _) hs
  · exact held_execContainerCurrentRead (Nat.zero_and _) hs
  · exact held_execBranchCurrentRead (Nat.zero_and _) hs
  · exact held_execContainerStatusRead (Nat.zero_and _) hs
  · exact held_execOvercurrentBlockExpiry (Nat.zero_and _) hs
  · exact held_execBalanceCycle (Nat.zero_and _) hs
  · exact held_execThermalSetpointCycle (Nat.zero_and _) hs
  · exact held_execThermalFaultBlockEnd (Nat.zero_and _) hs
  · exact held_execStringClose (Nat.zero_and _) hs
  · exact held_execStringOpen (Nat.zero_and _) hs
  · exact held_execContainerClose (Nat.zero_and _) hs
  · exact held_execContainerOpen (Nat.zero_and _) hs
  · exact held_execResetTrip (Nat.zero_and _) hs
  · exact held_execThermalMode (Nat.zero_and _) hs
  · exact held_execPltProtClearCounters (Nat.zero_and _) hs
  · exact held_execDispatchCycle (Nat.zero_and _) hs
  · exact held_execSourceFault (Nat.zero_and _) hs
  · exact held_execSourceRestore (Nat.zero_and _) hs
  · exact held_execSourceSelectWrite (Nat.zero_and _) hs
  · exact held_execPcsStatusDatagram (Nat.zero_and _) hs
  · exact held_execPcsLostTimeout (Nat.zero_and _) hs
  · exact held_execMainsLostConfirm (Nat.zero_and _) hs
  · exact held_execMainsPresentConfirm (Nat.zero_and _) hs
  · exact held_execFireAlarmActive (Nat.zero_and _) hs
  · exact held_execFireAlarmHoldExpiry (Nat.zero_and _) hs
  · exact held_execBillingIntervalClose (Nat.zero_and _) hs
  · exact held_execBillingPersist (Nat.zero_and _) hs
  · exact held_execScheduleAdd (Nat.zero_and _) hs
  · exact held_execScheduleClear (Nat.zero_and _) hs
  · exact held_execBillingRead (Nat.zero_and _) hs
  · exact held_execPltDispClearCounters (Nat.zero_and _) hs
  · exact held_execReturnToSource (Nat.zero_and _) hs
  · exact held_execLoopSigWrite (Nat.zero_and _) hs
  · exact held_execSetSignals (Nat.zero_and _) hs
  · exact held_execRestartSlot (Nat.zero_and _) hs
  · exact held_execLoopClearCounters (Nat.zero_and _) hs
  · exact held_execSyncArm (Nat.zero_and _) hs
  · exact held_execSyncDisarm (Nat.zero_and _) hs
  · exact held_execSyncEdge (Nat.zero_and _) hs
  · exact held_execSyncLateLimit (Nat.zero_and _) hs
  · exact held_execPwmFaultInput (Nat.zero_and _) hs
  · exact held_execPwmFaultLatchClear (Nat.zero_and _) hs
  · exact held_execPwmClearCounters (Nat.zero_and _) hs
  · exact held_execGroupDispatchCycle (Nat.zero_and _) hs
  · exact held_execFixturePress (Nat.zero_and _) hs
  · exact held_execFixtureDestination (Nat.zero_and _) hs
  · exact held_execFixtureKey (Nat.zero_and _) hs
  · exact held_execFixtureHeartbeat (Nat.zero_and _) hs
  · exact held_execFixtureLost (Nat.zero_and _) hs
  · exact held_execButtonStuck (Nat.zero_and _) hs
  · exact held_execIndicateRefresh (Nat.zero_and _) hs
  · exact held_execRefusedLampTimeout (Nat.zero_and _) hs
  · exact held_execParkingDelayExpiry (Nat.zero_and _) hs
  · exact held_execEvacuationDwellExpiry (Nat.zero_and _) hs
  · exact held_execHostCall (Nat.zero_and _) hs
  · exact held_execCancelCall (Nat.zero_and _) hs
  · exact held_execCarService (Nat.zero_and _) hs
  · exact held_execEvacCall (Nat.zero_and _) hs
  · exact held_execCallRead (Nat.zero_and _) hs
  · exact held_execGrpClearCounters (Nat.zero_and _) hs
  · exact held_execSsiRead (Nat.zero_and _) hs
  · exact held_execLatchEdge (Nat.zero_and _) hs
  · exact held_execMotorSourceFault (Nat.zero_and _) hs
  · exact held_execTargetWrite (Nat.zero_and _) hs
  · exact held_execTractionStatusFrame (Nat.zero_and _) hs
  · exact held_execTractionDriveLost (Nat.zero_and _) hs
  · exact held_execTractionGlideFrame (Nat.zero_and _) hs
  · exact held_execBrakeLiftTimeout (Nat.zero_and _) hs
  · exact held_execLevellingTimeout (Nat.zero_and _) hs
  · exact held_execRelevellingTimeout (Nat.zero_and _) hs
  · exact held_execFinalLimitInput (Nat.zero_and _) hs
  · exact held_execTerminalSlowdownInput (Nat.zero_and _) hs
  · exact held_execStopCar (Nat.zero_and _) hs
  · exact held_execCorrectionRun (Nat.zero_and _) hs
  · exact held_execCarClearCounters (Nat.zero_and _) hs
  · exact held_execPosClearCounters (Nat.zero_and _) hs
  · exact held_execClearFault (Nat.zero_and _) hs
  · exact held_execDoorStatusFrame (Nat.zero_and _) hs
  · exact held_execDoorDriveLost (Nat.zero_and _) hs
  · exact held_execObstructionResume (Nat.zero_and _) hs
  · exact held_execDoorDwellExpiry (Nat.zero_and _) hs
  · exact held_execLockTimeout (Nat.zero_and _) hs
  · exact held_execReferencingTimeout (Nat.zero_and _) hs
  · exact held_execNudgeTimeExpiry (Nat.zero_and _) hs
  · exact held_execDoorLimitInput (Nat.zero_and _) hs
  · exact held_execDoorOpen (Nat.zero_and _) hs
  · exact held_execDoorClose (Nat.zero_and _) hs
  · exact held_execDoorStop (Nat.zero_and _) hs
  · exact held_execDoorReference (Nat.zero_and _) hs
  · exact held_execDoorHoldOpen (Nat.zero_and _) hs
  · exact held_execDoorClearCounters (Nat.zero_and _) hs
  · exact held_execClearEnvelope (Nat.zero_and _) hs
  · exact held_execSafetyInputChange (Nat.zero_and _) hs
  · exact held_execTestPulse (Nat.zero_and _) hs
  · exact held_execInputDiscrepancyTimeout (Nat.zero_and _) hs
  · exact held_execRunRequestToggle (Nat.zero_and _) hs
  · exact held_execRunRequestLost (Nat.zero_and _) hs
  · exact held_execEdmTimeout (Nat.zero_and _) hs
  · exact held_execEdmChange (Nat.zero_and _) hs
  · exact held_execSwitchTest (Nat.zero_and _) hs
  · exact held_execTechSelftest (Nat.zero_and _) hs
  · exact held_execTechHeartbeatLoss (Nat.zero_and _) hs
  · exact held_execPermitMismatch (Nat.zero_and _) hs
  · exact held_execMismatchDiagnosticDone (Nat.zero_and _) hs
  · exact held_execSpeedLimitExceeded (Nat.zero_and _) hs
  · exact held_execPositionSourceFault (Nat.zero_and _) hs
  · exact held_execUnintendedMovement (Nat.zero_and _) hs
  · exact held_execSnowploughTimeout (Nat.zero_and _) hs
  · exact held_execSafetyConfirm (Nat.zero_and _) hs
  · exact held_execConfirmLockoutExpiry (Nat.zero_and _) hs
  · exact held_execResetFunction (Nat.zero_and _) hs
  · exact held_execRepairAck (Nat.zero_and _) hs
  · exact held_execSafClearCounters (Nat.zero_and _) hs
  · exact held_execSafetyDataFrame (Nat.zero_and _) hs
  · exact held_execSafetyEchoFrame (Nat.zero_and _) hs
  · exact held_execSafetyProductionPeriod (Nat.zero_and _) hs
  · exact held_execConsumerWatchdogExpiry (Nat.zero_and _) hs
  · exact held_execEchoLateTimeout (Nat.zero_and _) hs
  · exact held_execFailSafeHoldExpiry (Nat.zero_and _) hs
  · exact held_execConnectionRead (Nat.zero_and _) hs
  · exact held_execFieldLinkFrame (Nat.zero_and _) hs
  · exact held_execFieldLinkLost (Nat.zero_and _) hs
  · exact held_execFieldLinkResume (Nat.zero_and _) hs
  · exact held_execFieldInputChange (Nat.zero_and _) hs
  · exact held_execWireBreak (Nat.zero_and _) hs
  · exact held_execWireRestored (Nat.zero_and _) hs
  · exact held_execLplusLow (Nat.zero_and _) hs
  · exact held_execLplusRestored (Nat.zero_and _) hs
  · exact held_execOutputShort (Nat.zero_and _) hs
  · exact held_execOutputOverload (Nat.zero_and _) hs
  · exact held_execOutputThermal (Nat.zero_and _) hs
  · exact held_execOutputRetry (Nat.zero_and _) hs
  · exact held_execGroupOverload (Nat.zero_and _) hs
  · exact held_execDemagComplete (Nat.zero_and _) hs
  · exact held_execDemagHoldEnd (Nat.zero_and _) hs
  · exact held_execOpenLoad (Nat.zero_and _) hs
  · exact held_execOutputSilenceTimeout (Nat.zero_and _) hs
  · exact held_execFirmwareOutputRefresh (Nat.zero_and _) hs
  · exact held_execFioOutSetWrite (Nat.zero_and _) hs
  · exact held_execFioOutClearWrite (Nat.zero_and _) hs
  · exact held_execOutputLatchClear (Nat.zero_and _) hs
  · exact held_execOutputReset (Nat.zero_and _) hs
  · exact held_execFioClearCounters (Nat.zero_and _) hs
  · exact held_execCanFrameReceived (Nat.zero_and _) hs
  · exact held_execCanFrameSent (Nat.zero_and _) hs
  · exact held_execMbcRxAckWrite (Nat.zero_and _) hs
  · exact held_execCanTx (Nat.zero_and _) hs
  · exact held_execCanTxCancel (Nat.zero_and _) hs
  · exact held_execBusSleep (Nat.zero_and _) hs
  · exact held_execBusSleepCommitTimer (Nat.zero_and _) hs
  · exact held_execSleepObjection (Nat.zero_and _) hs
  · exact held_execCanWakePattern (Nat.zero_and _) hs
  · exact held_execBusWake (Nat.zero_and _) hs
  · exact held_execBusRecover (Nat.zero_and _) hs
  · exact held_execBusOff (Nat.zero_and _) hs
  · exact held_execBusOffRecovered (Nat.zero_and _) hs
  · exact held_execMbcClearCounters (Nat.zero_and _) hs
  · exact held_execRestrict (Nat.zero_and _) hs
  · exact held_execUnrestrict (Nat.zero_and _) hs
  · exact held_execInhibitRecovery (Nat.zero_and _) hs
  · exact held_execAllowRecovery (Nat.zero_and _) hs
  · exact held_execStandingAck (Nat.zero_and _) hs
  · exact held_execStandingRetry (Nat.zero_and _) hs
  · exact held_execReferenceMessageTimer (Nat.zero_and _) hs
  · exact held_execSerialPoll (Nat.zero_and _) hs
  · exact held_execSerialReply (Nat.zero_and _) hs
  · exact held_execSerialPollTimeout (Nat.zero_and _) hs
  · exact held_execSerClearCounters (Nat.zero_and _) hs
  · exact held_execPrpSupervision (Nat.zero_and _) hs
  · exact held_execPrpLanTimeout (Nat.zero_and _) hs
  · exact held_execPtpSyncReceived (Nat.zero_and _) hs
  · exact held_execPlantTimeLock (Nat.zero_and _) hs
  · exact held_execPlantTimeHoldover (Nat.zero_and _) hs
  · exact held_execPtpSyncSend (Nat.zero_and _) hs
  · exact held_execPtpDelayReq (Nat.zero_and _) hs
  · exact held_execModbusRequest (Nat.zero_and _) hs
  · exact held_execModbusWrite (Nat.zero_and _) hs
  · exact held_execEthLinkChange (Nat.zero_and _) hs
  · exact held_execAddressConflict (Nat.zero_and _) hs
  · exact held_execUnservedFrame (Nat.zero_and _) hs
  · exact held_execNetClearCounters (Nat.zero_and _) hs
  · exact held_execAcqSample (Nat.zero_and _) hs
  · exact held_execAcqAutoTimeout (Nat.zero_and _) hs
  · exact held_execAcqMeasureDone (Nat.zero_and _) hs
  · exact held_execArm (Nat.zero_and _) hs
  · exact held_execDisarm (Nat.zero_and _) hs
  · exact held_execForceTrigger (Nat.zero_and _) hs
  · exact held_execRelease (Nat.zero_and _) hs
  · exact held_execMeasureRead (Nat.zero_and _) hs
  · exact held_execAcqClearCounters (Nat.zero_and _) hs
  · exact held_execAppendCheckpoint (Nat.zero_and _) hs
  · exact held_execExportCmd (Nat.zero_and _) hs
  · exact held_execExportStreamResume (Nat.zero_and _) hs
  · exact held_execExportStop (Nat.zero_and _) hs
  · exact held_execClearLog (Nat.zero_and _) hs
  · exact held_execClearCommit (Nat.zero_and _) hs
  · exact held_execZeroingDone (Nat.zero_and _) hs
  · exact held_execReturnPrepare (Nat.zero_and _) hs
  · exact held_execReturnPrepareExpiry (Nat.zero_and _) hs
  · exact held_execReturnCommit (Nat.zero_and _) hs
  · exact held_execClearTrace (Nat.zero_and _) hs
  · exact held_execTraceSync (Nat.zero_and _) hs
  · exact held_execProvision (Nat.zero_and _) hs
  · exact held_execSeal (Nat.zero_and _) hs
  · exact held_execResetCommissioning (Nat.zero_and _) hs
  · exact held_execKeyUpdate (Nat.zero_and _) hs
  · exact held_execRevoke (Nat.zero_and _) hs
  · exact held_execDebugOpen (Nat.zero_and _) hs
  · exact held_execDebugClose (Nat.zero_and _) hs
  · exact held_execDebugExpiryCheck (Nat.zero_and _) hs
  · exact held_execEnrolNode (Nat.zero_and _) hs
  · exact held_execReadNodeRequest (Nat.zero_and _) hs
  · exact held_execFirmwareUpdate (Nat.zero_and _) hs
  · exact held_execSecClearCounters (Nat.zero_and _) hs
  · exact held_execStageIndexWrite (Nat.zero_and _) hs
  · exact held_execStageDataAccess (Nat.zero_and _) hs
  · exact held_execTamperTrip (Nat.zero_and _) hs
  · exact held_execTamperResetRelease (Nat.zero_and _) hs
  · exact held_execDbgHaltRequestWrite (Nat.zero_and _) hs
  · exact held_execCoreHaltEffective (Nat.zero_and _) hs
  · exact held_execHaltDeferralEnd (Nat.zero_and _) hs
  · exact held_execDbgMemAccess (Nat.zero_and _) hs
  · exact held_execSiteTagWrite (Nat.zero_and _) hs
  · exact held_execEdmResponse (Nat.zero_and _) hs
  · exact held_execOscillatorOrSupplyMonitorTrip (Nat.zero_and _) hs
  · exact held_execCanErrorDetected (Nat.zero_and _) hs
  · exact held_execPtpAnnounceReceived (Nat.zero_and _) hs
  · exact held_execModbusConnection (Nat.zero_and _) hs
  · exact held_execRngHealthTestFailure (Nat.zero_and _) hs
  · exact held_execBreakpointHit (Nat.zero_and _) hs
  · exact held_execMainInputGood (Nat.zero_and _) hs
  · exact held_execTlsHandshakeComplete (Nat.zero_and _) hs

end Sys2Proof.Machine
end

