-- ==== Sys2Proof/Laws/Frames.lean ====
section
/-!
SUPPORT. From what an operation keeps (Laws/Held.lean) to the frame of a command (`State.keeps` of Safety.lean).
-/
namespace Sys2Proof.Machine
open Sys2Proof
set_option Elab.async false

/-- The bit that stands for a part in a mask. -/
def Part.bitNo : Part → Nat
  | .nv => 1 | .boll => 2 | .hq => 3 | .man => 4 | .pwr => 5 | .recu => 6 | .sec => 7 | .xng => 8 | .est => 9 | .prot => 10
  | .disp => 11 | .loop => 12 | .pos => 13 | .saf => 14 | .mbc => 15 | .ser => 16 | .car => 17 | .door => 18 | .grp => 19
  | .fio => 20 | .acq => 21 | .net => 22 | .out => 23 | .free => 24
/-- A mask keeps every part and every block that a frame does not list. -/
def keepsMask (F : Nat) (ps : List Part) (bs : List Nat) : Bool :=
  ([.nv, .boll, .hq, .man, .pwr, .recu, .sec, .xng, .est, .prot, .disp, .loop, .pos, .saf, .mbc, .ser, .car, .door, .grp, .fio, .acq,
    .net, .out, .free] : List Part).all (fun p => ps.contains p || F.testBit p.bitNo) &&
  (List.range 22).all fun k => bs.contains k || F.testBit (32 + k)
theorem keepsMask_part {F : Nat} {ps : List Part} {bs : List Nat} (h : keepsMask F ps bs = true) (p : Part) :
    p ∈ ps ∨ F.testBit p.bitNo = true := by
  simp only [keepsMask, Bool.and_eq_true, List.all_eq_true, Bool.or_eq_true, List.contains_iff_mem] at h
  exact h.1 p (by cases p <;> decide)
theorem blockNo_lt {a : Nat} (ha : a < 0x150000) : blockNo a < 22 := by
  unfold blockNo
  (repeat' split) <;> omega
theorem keepsMask_blk {F : Nat} {ps : List Part} {bs : List Nat} (h : keepsMask F ps bs = true) {k : Nat} (hk : k < 22) :
    bs.contains k = true ∨ F.testBit (32 + k) = true := by
  simp only [keepsMask, Bool.and_eq_true, List.all_eq_true, Bool.or_eq_true] at h
  exact h.2 k (List.mem_range.2 hk)
/-- A state that keeps what a mask names meets every frame that lists the rest; the fields listed beside the blocks do no
harm. -/
theorem keeps_of_held {s t : State} {F : Nat} {ps : List Part} {bs : List Nat} (rs : List Fld) (h : Held s F t)
    (hm : keepsMask F ps bs = true) : t.keeps s ps bs rs := by
  have hp := keepsMask_part hm
  refine ⟨h.queue, fun a ha hA => ?_, (hp .nv).imp_right h.nv, (hp .boll).imp_right h.boll, (hp .hq).imp_right h.hq,
    (hp .man).imp_right h.man, (hp .pwr).imp_right h.pwr, (hp .recu).imp_right h.recu, (hp .sec).imp_right h.sec,
    (hp .xng).imp_right h.xng, (hp .est).imp_right h.est, (hp .prot).imp_right h.prot, (hp .disp).imp_right h.disp,
    (hp .loop).imp_right h.loop, (hp .pos).imp_right h.pos, (hp .saf).imp_right h.saf, (hp .mbc).imp_right h.mbc,
    (hp .ser).imp_right h.ser, (hp .car).imp_right h.car, (hp .door).imp_right h.door, (hp .grp).imp_right h.grp,
    (hp .fio).imp_right h.fio, (hp .acq).imp_right h.acq, (hp .net).imp_right h.net, (hp .out).imp_right h.out,
    (hp .free).imp_right h.free⟩
  simp only [Bool.or_eq_false_iff] at hA
  rcases keepsMask_blk hm (blockNo_lt ha) with hb | hb
  · exact absurd hb (by rw [show bs.contains (blockNo a) = inBlk bs a from rfl, hA.1]; decide)
  · exact h.words a hb ha

end Sys2Proof.Machine
end

