-- ==== Sys2Proof/Laws/State.lean ====
section
/-!
SUPPORT. What each elementary update of the state leaves and what it puts in place, field by field.
-/
namespace Sys2Proof.Machine
open Sys2Proof
set_option Elab.async false

@[simp] theorem setWord_regs (s : State) (a : Nat) (w : Word) : (s.setWord a w).regs = putWord s.regs a w := rfl
@[simp] theorem setWord_nv (s : State) (a : Nat) (w : Word) : (s.setWord a w).nv = s.nv := rfl
@[simp] theorem setWord_boll (s : State) (a : Nat) (w : Word) : (s.setWord a w).boll = s.boll := rfl
@[simp] theorem setWord_hq (s : State) (a : Nat) (w : Word) : (s.setWord a w).hq = s.hq := rfl
@[simp] theorem setWord_man (s : State) (a : Nat) (w : Word) : (s.setWord a w).man = s.man := rfl
@[simp] theorem setWord_pwr (s : State) (a : Nat) (w : Word) : (s.setWord a w).pwr = s.pwr := rfl
@[simp] theorem setWord_recu (s : State) (a : Nat) (w : Word) : (s.setWord a w).recu = s.recu := rfl
@[simp] theorem setWord_sec (s : State) (a : Nat) (w : Word) : (s.setWord a w).sec = s.sec := rfl
@[simp] theorem setWord_xng (s : State) (a : Nat) (w : Word) : (s.setWord a w).xng = s.xng := rfl
@[simp] theorem setWord_est (s : State) (a : Nat) (w : Word) : (s.setWord a w).est = s.est := rfl
@[simp] theorem setWord_prot (s : State) (a : Nat) (w : Word) : (s.setWord a w).prot = s.prot := rfl
@[simp] theorem setWord_disp (s : State) (a : Nat) (w : Word) : (s.setWord a w).disp = s.disp := rfl
@[simp] theorem setWord_loop (s : State) (a : Nat) (w : Word) : (s.setWord a w).loop = s.loop := rfl
@[simp] theorem setWord_pos (s : State) (a : Nat) (w : Word) : (s.setWord a w).pos = s.pos := rfl
@[simp] theorem setWord_saf (s : State) (a : Nat) (w : Word) : (s.setWord a w).saf = s.saf := rfl
@[simp] theorem setWord_mbc (s : State) (a : Nat) (w : Word) : (s.setWord a w).mbc = s.mbc := rfl
@[simp] theorem setWord_ser (s : State) (a : Nat) (w : Word) : (s.setWord a w).ser = s.ser := rfl
@[simp] theorem setWord_car (s : State) (a : Nat) (w : Word) : (s.setWord a w).car = s.car := rfl
@[simp] theorem setWord_door (s : State) (a : Nat) (w : Word) : (s.setWord a w).door = s.door := rfl
@[simp] theorem setWord_grp (s : State) (a : Nat) (w : Word) : (s.setWord a w).grp = s.grp := rfl
@[simp] theorem setWord_fio (s : State) (a : Nat) (w : Word) : (s.setWord a w).fio = s.fio := rfl
@[simp] theorem setWord_acq (s : State) (a : Nat) (w : Word) : (s.setWord a w).acq = s.acq := rfl
@[simp] theorem setWord_net (s : State) (a : Nat) (w : Word) : (s.setWord a w).net = s.net := rfl
@[simp] theorem setWord_out (s : State) (a : Nat) (w : Word) : (s.setWord a w).out = s.out := rfl
@[simp] theorem setWord_free (s : State) (a : Nat) (w : Word) : (s.setWord a w).free = s.free := rfl
@[simp] theorem setWord_pending (s : State) (a : Nat) (w : Word) : (s.setWord a w).pending = s.pending := rfl
@[simp] theorem wr_nv (s : State) (f : Fld) (v : Nat) : (s.wr f v).nv = s.nv := rfl
@[simp] theorem wr_boll (s : State) (f : Fld) (v : Nat) : (s.wr f v).boll = s.boll := rfl
@[simp] theorem wr_hq (s : State) (f : Fld) (v : Nat) : (s.wr f v).hq = s.hq := rfl
@[simp] theorem wr_man (s : State) (f : Fld) (v : Nat) : (s.wr f v).man = s.man := rfl
@[simp] theorem wr_pwr (s : State) (f : Fld) (v : Nat) : (s.wr f v).pwr = s.pwr := rfl
@[simp] theorem wr_recu (s : State) (f : Fld) (v : Nat) : (s.wr f v).recu = s.recu := rfl
@[simp] theorem wr_sec (s : State) (f : Fld) (v : Nat) : (s.wr f v).sec = s.sec := rfl
@[simp] theorem wr_xng (s : State) (f : Fld) (v : Nat) : (s.wr f v).xng = s.xng := rfl
@[simp] theorem wr_est (s : State) (f : Fld) (v : Nat) : (s.wr f v).est = s.est := rfl
@[simp] theorem wr_prot (s : State) (f : Fld) (v : Nat) : (s.wr f v).prot = s.prot := rfl
@[simp] theorem wr_disp (s : State) (f : Fld) (v : Nat) : (s.wr f v).disp = s.disp := rfl
@[simp] theorem wr_loop (s : State) (f : Fld) (v : Nat) : (s.wr f v).loop = s.loop := rfl
@[simp] theorem wr_pos (s : State) (f : Fld) (v : Nat) : (s.wr f v).pos = s.pos := rfl
@[simp] theorem wr_saf (s : State) (f : Fld) (v : Nat) : (s.wr f v).saf = s.saf := rfl
@[simp] theorem wr_mbc (s : State) (f : Fld) (v : Nat) : (s.wr f v).mbc = s.mbc := rfl
@[simp] theorem wr_ser (s : State) (f : Fld) (v : Nat) : (s.wr f v).ser = s.ser := rfl
@[simp] theorem wr_car (s : State) (f : Fld) (v : Nat) : (s.wr f v).car = s.car := rfl
@[simp] theorem wr_door (s : State) (f : Fld) (v : Nat) : (s.wr f v).door = s.door := rfl
@[simp] theorem wr_grp (s : State) (f : Fld) (v : Nat) : (s.wr f v).grp = s.grp := rfl
@[simp] theorem wr_fio (s : State) (f : Fld) (v : Nat) : (s.wr f v).fio = s.fio := rfl
@[simp] theorem wr_acq (s : State) (f : Fld) (v : Nat) : (s.wr f v).acq = s.acq := rfl
@[simp] theorem wr_net (s : State) (f : Fld) (v : Nat) : (s.wr f v).net = s.net := rfl
@[simp] theorem wr_out (s : State) (f : Fld) (v : Nat) : (s.wr f v).out = s.out := rfl
@[simp] theorem wr_free (s : State) (f : Fld) (v : Nat) : (s.wr f v).free = s.free := rfl
@[simp] theorem wr_pending (s : State) (f : Fld) (v : Nat) : (s.wr f v).pending = s.pending := rfl
@[simp] theorem wrB_nv (s : State) (f : Fld) (v : Bool) : (s.wrB f v).nv = s.nv := rfl
@[simp] theorem wrB_boll (s : State) (f : Fld) (v : Bool) : (s.wrB f v).boll = s.boll := rfl
@[simp] theorem wrB_hq (s : State) (f : Fld) (v : Bool) : (s.wrB f v).hq = s.hq := rfl
@[simp] theorem wrB_man (s : State) (f : Fld) (v : Bool) : (s.wrB f v).man = s.man := rfl
@[simp] theorem wrB_pwr (s : State) (f : Fld) (v : Bool) : (s.wrB f v).pwr = s.pwr := rfl
@[simp] theorem wrB_recu (s : State) (f : Fld) (v : Bool) : (s.wrB f v).recu = s.recu := rfl
@[simp] theorem wrB_sec (s : State) (f : Fld) (v : Bool) : (s.wrB f v).sec = s.sec := rfl
@[simp] theorem wrB_xng (s : State) (f : Fld) (v : Bool) : (s.wrB f v).xng = s.xng := rfl
@[simp] theorem wrB_est (s : State) (f : Fld) (v : Bool) : (s.wrB f v).est = s.est := rfl
@[simp] theorem wrB_prot (s : State) (f : Fld) (v : Bool) : (s.wrB f v).prot = s.prot := rfl
@[simp] theorem wrB_disp (s : State) (f : Fld) (v : Bool) : (s.wrB f v).disp = s.disp := rfl
@[simp] theorem wrB_loop (s : State) (f : Fld) (v : Bool) : (s.wrB f v).loop = s.loop := rfl
@[simp] theorem wrB_pos (s : State) (f : Fld) (v : Bool) : (s.wrB f v).pos = s.pos := rfl
@[simp] theorem wrB_saf (s : State) (f : Fld) (v : Bool) : (s.wrB f v).saf = s.saf := rfl
@[simp] theorem wrB_mbc (s : State) (f : Fld) (v : Bool) : (s.wrB f v).mbc = s.mbc := rfl
@[simp] theorem wrB_ser (s : State) (f : Fld) (v : Bool) : (s.wrB f v).ser = s.ser := rfl
@[simp] theorem wrB_car (s : State) (f : Fld) (v : Bool) : (s.wrB f v).car = s.car := rfl
@[simp] theorem wrB_door (s : State) (f : Fld) (v : Bool) : (s.wrB f v).door = s.door := rfl
@[simp] theorem wrB_grp (s : State) (f : Fld) (v : Bool) : (s.wrB f v).grp = s.grp := rfl
@[simp] theorem wrB_fio (s : State) (f : Fld) (v : Bool) : (s.wrB f v).fio = s.fio := rfl
@[simp] theorem wrB_acq (s : State) (f : Fld) (v : Bool) : (s.wrB f v).acq = s.acq := rfl
@[simp] theorem wrB_net (s : State) (f : Fld) (v : Bool) : (s.wrB f v).net = s.net := rfl
@[simp] theorem wrB_out (s : State) (f : Fld) (v : Bool) : (s.wrB f v).out = s.out := rfl
@[simp] theorem wrB_free (s : State) (f : Fld) (v : Bool) : (s.wrB f v).free = s.free := rfl
@[simp] theorem wrB_pending (s : State) (f : Fld) (v : Bool) : (s.wrB f v).pending = s.pending := rfl
@[simp] theorem inc_nv (s : State) (f : Fld) : (s.inc f).nv = s.nv := rfl
@[simp] theorem inc_boll (s : State) (f : Fld) : (s.inc f).boll = s.boll := rfl
@[simp] theorem inc_hq (s : State) (f : Fld) : (s.inc f).hq = s.hq := rfl
@[simp] theorem inc_man (s : State) (f : Fld) : (s.inc f).man = s.man := rfl
@[simp] theorem inc_pwr (s : State) (f : Fld) : (s.inc f).pwr = s.pwr := rfl
@[simp] theorem inc_recu (s : State) (f : Fld) : (s.inc f).recu = s.recu := rfl
@[simp] theorem inc_sec (s : State) (f : Fld) : (s.inc f).sec = s.sec := rfl
@[simp] theorem inc_xng (s : State) (f : Fld) : (s.inc f).xng = s.xng := rfl
@[simp] theorem inc_est (s : State) (f : Fld) : (s.inc f).est = s.est := rfl
@[simp] theorem inc_prot (s : State) (f : Fld) : (s.inc f).prot = s.prot := rfl
@[simp] theorem inc_disp (s : State) (f : Fld) : (s.inc f).disp = s.disp := rfl
@[simp] theorem inc_loop (s : State) (f : Fld) : (s.inc f).loop = s.loop := rfl
@[simp] theorem inc_pos (s : State) (f : Fld) : (s.inc f).pos = s.pos := rfl
@[simp] theorem inc_saf (s : State) (f : Fld) : (s.inc f).saf = s.saf := rfl
@[simp] theorem inc_mbc (s : State) (f : Fld) : (s.inc f).mbc = s.mbc := rfl
@[simp] theorem inc_ser (s : State) (f : Fld) : (s.inc f).ser = s.ser := rfl
@[simp] theorem inc_car (s : State) (f : Fld) : (s.inc f).car = s.car := rfl
@[simp] theorem inc_door (s : State) (f : Fld) : (s.inc f).door = s.door := rfl
@[simp] theorem inc_grp (s : State) (f : Fld) : (s.inc f).grp = s.grp := rfl
@[simp] theorem inc_fio (s : State) (f : Fld) : (s.inc f).fio = s.fio := rfl
@[simp] theorem inc_acq (s : State) (f : Fld) : (s.inc f).acq = s.acq := rfl
@[simp] theorem inc_net (s : State) (f : Fld) : (s.inc f).net = s.net := rfl
@[simp] theorem inc_out (s : State) (f : Fld) : (s.inc f).out = s.out := rfl
@[simp] theorem inc_free (s : State) (f : Fld) : (s.inc f).free = s.free := rfl
@[simp] theorem inc_pending (s : State) (f : Fld) : (s.inc f).pending = s.pending := rfl
@[simp] theorem incBy_nv (s : State) (f : Fld) (n : Nat) : (s.incBy f n).nv = s.nv := rfl
@[simp] theorem incBy_boll (s : State) (f : Fld) (n : Nat) : (s.incBy f n).boll = s.boll := rfl
@[simp] theorem incBy_hq (s : State) (f : Fld) (n : Nat) : (s.incBy f n).hq = s.hq := rfl
@[simp] theorem incBy_man (s : State) (f : Fld) (n : Nat) : (s.incBy f n).man = s.man := rfl
@[simp] theorem incBy_pwr (s : State) (f : Fld) (n : Nat) : (s.incBy f n).pwr = s.pwr := rfl
@[simp] theorem incBy_recu (s : State) (f : Fld) (n : Nat) : (s.incBy f n).recu = s.recu := rfl
@[simp] theorem incBy_sec (s : State) (f : Fld) (n : Nat) : (s.incBy f n).sec = s.sec := rfl
@[simp] theorem incBy_xng (s : State) (f : Fld) (n : Nat) : (s.incBy f n).xng = s.xng := rfl
@[simp] theorem incBy_est (s : State) (f : Fld) (n : Nat) : (s.incBy f n).est = s.est := rfl
@[simp] theorem incBy_prot (s : State) (f : Fld) (n : Nat) : (s.incBy f n).prot = s.prot := rfl
@[simp] theorem incBy_disp (s : State) (f : Fld) (n : Nat) : (s.incBy f n).disp = s.disp := rfl
@[simp] theorem incBy_loop (s : State) (f : Fld) (n : Nat) : (s.incBy f n).loop = s.loop := rfl
@[simp] theorem incBy_pos (s : State) (f : Fld) (n : Nat) : (s.incBy f n).pos = s.pos := rfl
@[simp] theorem incBy_saf (s : State) (f : Fld) (n : Nat) : (s.incBy f n).saf = s.saf := rfl
@[simp] theorem incBy_mbc (s : State) (f : Fld) (n : Nat) : (s.incBy f n).mbc = s.mbc := rfl
@[simp] theorem incBy_ser (s : State) (f : Fld) (n : Nat) : (s.incBy f n).ser = s.ser := rfl
@[simp] theorem incBy_car (s : State) (f : Fld) (n : Nat) : (s.incBy f n).car = s.car := rfl
@[simp] theorem incBy_door (s : State) (f : Fld) (n : Nat) : (s.incBy f n).door = s.door := rfl
@[simp] theorem incBy_grp (s : State) (f : Fld) (n : Nat) : (s.incBy f n).grp = s.grp := rfl
@[simp] theorem incBy_fio (s : State) (f : Fld) (n : Nat) : (s.incBy f n).fio = s.fio := rfl
@[simp] theorem incBy_acq (s : State) (f : Fld) (n : Nat) : (s.incBy f n).acq = s.acq := rfl
@[simp] theorem incBy_net (s : State) (f : Fld) (n : Nat) : (s.incBy f n).net = s.net := rfl
@[simp] theorem incBy_out (s : State) (f : Fld) (n : Nat) : (s.incBy f n).out = s.out := rfl
@[simp] theorem incBy_free (s : State) (f : Fld) (n : Nat) : (s.incBy f n).free = s.free := rfl
@[simp] theorem incBy_pending (s : State) (f : Fld) (n : Nat) : (s.incBy f n).pending = s.pending := rfl
@[simp] theorem wr64_nv (s : State) (f : Fld) (v : Nat) : (s.wr64 f v).nv = s.nv := rfl
@[simp] theorem wr64_boll (s : State) (f : Fld) (v : Nat) : (s.wr64 f v).boll = s.boll := rfl
@[simp] theorem wr64_hq (s : State) (f : Fld) (v : Nat) : (s.wr64 f v).hq = s.hq := rfl
@[simp] theorem wr64_man (s : State) (f : Fld) (v : Nat) : (s.wr64 f v).man = s.man := rfl
@[simp] theorem wr64_pwr (s : State) (f : Fld) (v : Nat) : (s.wr64 f v).pwr = s.pwr := rfl
@[simp] theorem wr64_recu (s : State) (f : Fld) (v : Nat) : (s.wr64 f v).recu = s.recu := rfl
@[simp] theorem wr64_sec (s : State) (f : Fld) (v : Nat) : (s.wr64 f v).sec = s.sec := rfl
@[simp] theorem wr64_xng (s : State) (f : Fld) (v : Nat) : (s.wr64 f v).xng = s.xng := rfl
@[simp] theorem wr64_est (s : State) (f : Fld) (v : Nat) : (s.wr64 f v).est = s.est := rfl
@[simp] theorem wr64_prot (s : State) (f : Fld) (v : Nat) : (s.wr64 f v).prot = s.prot := rfl
@[simp] theorem wr64_disp (s : State) (f : Fld) (v : Nat) : (s.wr64 f v).disp = s.disp := rfl
@[simp] theorem wr64_loop (s : State) (f : Fld) (v : Nat) : (s.wr64 f v).loop = s.loop := rfl
@[simp] theorem wr64_pos (s : State) (f : Fld) (v : Nat) : (s.wr64 f v).pos = s.pos := rfl
@[simp] theorem wr64_saf (s : State) (f : Fld) (v : Nat) : (s.wr64 f v).saf = s.saf := rfl
@[simp] theorem wr64_mbc (s : State) (f : Fld) (v : Nat) : (s.wr64 f v).mbc = s.mbc := rfl
@[simp] theorem wr64_ser (s : State) (f : Fld) (v : Nat) : (s.wr64 f v).ser = s.ser := rfl
@[simp] theorem wr64_car (s : State) (f : Fld) (v : Nat) : (s.wr64 f v).car = s.car := rfl
@[simp] theorem wr64_door (s : State) (f : Fld) (v : Nat) : (s.wr64 f v).door = s.door := rfl
@[simp] theorem wr64_grp (s : State) (f : Fld) (v : Nat) : (s.wr64 f v).grp = s.grp := rfl
@[simp] theorem wr64_fio (s : State) (f : Fld) (v : Nat) : (s.wr64 f v).fio = s.fio := rfl
@[simp] theorem wr64_acq (s : State) (f : Fld) (v : Nat) : (s.wr64 f v).acq = s.acq := rfl
@[simp] theorem wr64_net (s : State) (f : Fld) (v : Nat) : (s.wr64 f v).net = s.net := rfl
@[simp] theorem wr64_out (s : State) (f : Fld) (v : Nat) : (s.wr64 f v).out = s.out := rfl
@[simp] theorem wr64_free (s : State) (f : Fld) (v : Nat) : (s.wr64 f v).free = s.free := rfl
@[simp] theorem wr64_pending (s : State) (f : Fld) (v : Nat) : (s.wr64 f v).pending = s.pending := rfl
@[simp] theorem send_regs (s : State) (o : Out) : (s.send o).regs = s.regs := rfl
@[simp] theorem send_nv (s : State) (o : Out) : (s.send o).nv = s.nv := rfl
@[simp] theorem send_boll (s : State) (o : Out) : (s.send o).boll = s.boll := rfl
@[simp] theorem send_hq (s : State) (o : Out) : (s.send o).hq = s.hq := rfl
@[simp] theorem send_man (s : State) (o : Out) : (s.send o).man = s.man := rfl
@[simp] theorem send_pwr (s : State) (o : Out) : (s.send o).pwr = s.pwr := rfl
@[simp] theorem send_recu (s : State) (o : Out) : (s.send o).recu = s.recu := rfl
@[simp] theorem send_sec (s : State) (o : Out) : (s.send o).sec = s.sec := rfl
@[simp] theorem send_xng (s : State) (o : Out) : (s.send o).xng = s.xng := rfl
@[simp] theorem send_est (s : State) (o : Out) : (s.send o).est = s.est := rfl
@[simp] theorem send_prot (s : State) (o : Out) : (s.send o).prot = s.prot := rfl
@[simp] theorem send_disp (s : State) (o : Out) : (s.send o).disp = s.disp := rfl
@[simp] theorem send_loop (s : State) (o : Out) : (s.send o).loop = s.loop := rfl
@[simp] theorem send_pos (s : State) (o : Out) : (s.send o).pos = s.pos := rfl
@[simp] theorem send_saf (s : State) (o : Out) : (s.send o).saf = s.saf := rfl
@[simp] theorem send_mbc (s : State) (o : Out) : (s.send o).mbc = s.mbc := rfl
@[simp] theorem send_ser (s : State) (o : Out) : (s.send o).ser = s.ser := rfl
@[simp] theorem send_car (s : State) (o : Out) : (s.send o).car = s.car := rfl
@[simp] theorem send_door (s : State) (o : Out) : (s.send o).door = s.door := rfl
@[simp] theorem send_grp (s : State) (o : Out) : (s.send o).grp = s.grp := rfl
@[simp] theorem send_fio (s : State) (o : Out) : (s.send o).fio = s.fio := rfl
@[simp] theorem send_acq (s : State) (o : Out) : (s.send o).acq = s.acq := rfl
@[simp] theorem send_net (s : State) (o : Out) : (s.send o).net = s.net := rfl
@[simp] theorem send_out (s : State) (o : Out) : (s.send o).out = o :: s.out := rfl
@[simp] theorem send_free (s : State) (o : Out) : (s.send o).free = s.free := rfl
@[simp] theorem send_pending (s : State) (o : Out) : (s.send o).pending = s.pending := rfl
@[simp] theorem send_word (s : State) (o : Out) (k : Nat) : (s.send o).word k = s.word k := rfl
@[simp] theorem send_rd (s : State) (o : Out) (k : Fld) : (s.send o).rd k = s.rd k := rfl
@[simp] theorem send_on (s : State) (o : Out) (k : Fld) : (s.send o).on k = s.on k := rfl
@[simp] theorem setEventQ_regs (s : State) (q : Nat) (e : EvQueue) : (s.setEventQ q e).regs = s.regs := rfl
@[simp] theorem setEventQ_nv (s : State) (q : Nat) (e : EvQueue) : (s.setEventQ q e).nv = s.nv := rfl
@[simp] theorem setEventQ_boll (s : State) (q : Nat) (e : EvQueue) : (s.setEventQ q e).boll = s.boll := rfl
@[simp] theorem setEventQ_hq (s : State) (q : Nat) (e : EvQueue) : (s.setEventQ q e).hq = { s.hq with eq := tput s.hq.eq q e } := rfl
@[simp] theorem setEventQ_man (s : State) (q : Nat) (e : EvQueue) : (s.setEventQ q e).man = s.man := rfl
@[simp] theorem setEventQ_pwr (s : State) (q : Nat) (e : EvQueue) : (s.setEventQ q e).pwr = s.pwr := rfl
@[simp] theorem setEventQ_recu (s : State) (q : Nat) (e : EvQueue) : (s.setEventQ q e).recu = s.recu := rfl
@[simp] theorem setEventQ_sec (s : State) (q : Nat) (e : EvQueue) : (s.setEventQ q e).sec = s.sec := rfl
@[simp] theorem setEventQ_xng (s : State) (q : Nat) (e : EvQueue) : (s.setEventQ q e).xng = s.xng := rfl
@[simp] theorem setEventQ_est (s : State) (q : Nat) (e : EvQueue) : (s.setEventQ q e).est = s.est := rfl
@[simp] theorem setEventQ_prot (s : State) (q : Nat) (e : EvQueue) : (s.setEventQ q e).prot = s.prot := rfl
@[simp] theorem setEventQ_disp (s : State) (q : Nat) (e : EvQueue) : (s.setEventQ q e).disp = s.disp := rfl
@[simp] theorem setEventQ_loop (s : State) (q : Nat) (e : EvQueue) : (s.setEventQ q e).loop = s.loop := rfl
@[simp] theorem setEventQ_pos (s : State) (q : Nat) (e : EvQueue) : (s.setEventQ q e).pos = s.pos := rfl
@[simp] theorem setEventQ_saf (s : State) (q : Nat) (e : EvQueue) : (s.setEventQ q e).saf = s.saf := rfl
@[simp] theorem setEventQ_mbc (s : State) (q : Nat) (e : EvQueue) : (s.setEventQ q e).mbc = s.mbc := rfl
@[simp] theorem setEventQ_ser (s : State) (q : Nat) (e : EvQueue) : (s.setEventQ q e).ser = s.ser := rfl
@[simp] theorem setEventQ_car (s : State) (q : Nat) (e : EvQueue) : (s.setEventQ q e).car = s.car := rfl
@[simp] theorem setEventQ_door (s : State) (q : Nat) (e : EvQueue) : (s.setEventQ q e).door = s.door := rfl
@[simp] theorem setEventQ_grp (s : State) (q : Nat) (e : EvQueue) : (s.setEventQ q e).grp = s.grp := rfl
@[simp] theorem setEventQ_fio (s : State) (q : Nat) (e : EvQueue) : (s.setEventQ q e).fio = s.fio := rfl
@[simp] theorem setEventQ_acq (s : State) (q : Nat) (e : EvQueue) : (s.setEventQ q e).acq = s.acq := rfl
@[simp] theorem setEventQ_net (s : State) (q : Nat) (e : EvQueue) : (s.setEventQ q e).net = s.net := rfl
@[simp] theorem setEventQ_out (s : State) (q : Nat) (e : EvQueue) : (s.setEventQ q e).out = s.out := rfl
@[simp] theorem setEventQ_free (s : State) (q : Nat) (e : EvQueue) : (s.setEventQ q e).free = s.free := rfl
@[simp] theorem setEventQ_pending (s : State) (q : Nat) (e : EvQueue) : (s.setEventQ q e).pending = s.pending := rfl
@[simp] theorem setEventQ_word (s : State) (q : Nat) (e : EvQueue) (k : Nat) : (s.setEventQ q e).word k = s.word k := rfl
@[simp] theorem setEventQ_rd (s : State) (q : Nat) (e : EvQueue) (k : Fld) : (s.setEventQ q e).rd k = s.rd k := rfl
@[simp] theorem setEventQ_on (s : State) (q : Nat) (e : EvQueue) (k : Fld) : (s.setEventQ q e).on k = s.on k := rfl
@[simp] theorem setSession_regs (s : State) (n : Nat) (x : Session) : (s.setSession n x).regs = s.regs := rfl
@[simp] theorem setSession_nv (s : State) (n : Nat) (x : Session) : (s.setSession n x).nv = s.nv := rfl
@[simp] theorem setSession_boll (s : State) (n : Nat) (x : Session) : (s.setSession n x).boll = s.boll := rfl
@[simp] theorem setSession_hq (s : State) (n : Nat) (x : Session) : (s.setSession n x).hq = { s.hq with sessions := tput s.hq.sessions n x } := rfl
@[simp] theorem setSession_man (s : State) (n : Nat) (x : Session) : (s.setSession n x).man = s.man := rfl
@[simp] theorem setSession_pwr (s : State) (n : Nat) (x : Session) : (s.setSession n x).pwr = s.pwr := rfl
@[simp] theorem setSession_recu (s : State) (n : Nat) (x : Session) : (s.setSession n x).recu = s.recu := rfl
@[simp] theorem setSession_sec (s : State) (n : Nat) (x : Session) : (s.setSession n x).sec = s.sec := rfl
@[simp] theorem setSession_xng (s : State) (n : Nat) (x : Session) : (s.setSession n x).xng = s.xng := rfl
@[simp] theorem setSession_est (s : State) (n : Nat) (x : Session) : (s.setSession n x).est = s.est := rfl
@[simp] theorem setSession_prot (s : State) (n : Nat) (x : Session) : (s.setSession n x).prot = s.prot := rfl
@[simp] theorem setSession_disp (s : State) (n : Nat) (x : Session) : (s.setSession n x).disp = s.disp := rfl
@[simp] theorem setSession_loop (s : State) (n : Nat) (x : Session) : (s.setSession n x).loop = s.loop := rfl
@[simp] theorem setSession_pos (s : State) (n : Nat) (x : Session) : (s.setSession n x).pos = s.pos := rfl
@[simp] theorem setSession_saf (s : State) (n : Nat) (x : Session) : (s.setSession n x).saf = s.saf := rfl
@[simp] theorem setSession_mbc (s : State) (n : Nat) (x : Session) : (s.setSession n x).mbc = s.mbc := rfl
@[simp] theorem setSession_ser (s : State) (n : Nat) (x : Session) : (s.setSession n x).ser = s.ser := rfl
@[simp] theorem setSession_car (s : State) (n : Nat) (x : Session) : (s.setSession n x).car = s.car := rfl
@[simp] theorem setSession_door (s : State) (n : Nat) (x : Session) : (s.setSession n x).door = s.door := rfl
@[simp] theorem setSession_grp (s : State) (n : Nat) (x : Session) : (s.setSession n x).grp = s.grp := rfl
@[simp] theorem setSession_fio (s : State) (n : Nat) (x : Session) : (s.setSession n x).fio = s.fio := rfl
@[simp] theorem setSession_acq (s : State) (n : Nat) (x : Session) : (s.setSession n x).acq = s.acq := rfl
@[simp] theorem setSession_net (s : State) (n : Nat) (x : Session) : (s.setSession n x).net = s.net := rfl
@[simp] theorem setSession_out (s : State) (n : Nat) (x : Session) : (s.setSession n x).out = s.out := rfl
@[simp] theorem setSession_free (s : State) (n : Nat) (x : Session) : (s.setSession n x).free = s.free := rfl
@[simp] theorem setSession_pending (s : State) (n : Nat) (x : Session) : (s.setSession n x).pending = s.pending := rfl
@[simp] theorem setSession_word (s : State) (n : Nat) (x : Session) (k : Nat) : (s.setSession n x).word k = s.word k := rfl
@[simp] theorem setSession_rd (s : State) (n : Nat) (x : Session) (k : Fld) : (s.setSession n x).rd k = s.rd k := rfl
@[simp] theorem setSession_on (s : State) (n : Nat) (x : Session) (k : Fld) : (s.setSession n x).on k = s.on k := rfl
@[simp] theorem modHq_regs (s : State) (f : Hq → Hq) : (s.modHq f).regs = s.regs := rfl
@[simp] theorem modHq_nv (s : State) (f : Hq → Hq) : (s.modHq f).nv = s.nv := rfl
@[simp] theorem modHq_boll (s : State) (f : Hq → Hq) : (s.modHq f).boll = s.boll := rfl
@[simp] theorem modHq_hq (s : State) (f : Hq → Hq) : (s.modHq f).hq = f s.hq := rfl
@[simp] theorem modHq_man (s : State) (f : Hq → Hq) : (s.modHq f).man = s.man := rfl
@[simp] theorem modHq_pwr (s : State) (f : Hq → Hq) : (s.modHq f).pwr = s.pwr := rfl
@[simp] theorem modHq_recu (s : State) (f : Hq → Hq) : (s.modHq f).recu = s.recu := rfl
@[simp] theorem modHq_sec (s : State) (f : Hq → Hq) : (s.modHq f).sec = s.sec := rfl
@[simp] theorem modHq_xng (s : State) (f : Hq → Hq) : (s.modHq f).xng = s.xng := rfl
@[simp] theorem modHq_est (s : State) (f : Hq → Hq) : (s.modHq f).est = s.est := rfl
@[simp] theorem modHq_prot (s : State) (f : Hq → Hq) : (s.modHq f).prot = s.prot := rfl
@[simp] theorem modHq_disp (s : State) (f : Hq → Hq) : (s.modHq f).disp = s.disp := rfl
@[simp] theorem modHq_loop (s : State) (f : Hq → Hq) : (s.modHq f).loop = s.loop := rfl
@[simp] theorem modHq_pos (s : State) (f : Hq → Hq) : (s.modHq f).pos = s.pos := rfl
@[simp] theorem modHq_saf (s : State) (f : Hq → Hq) : (s.modHq f).saf = s.saf := rfl
@[simp] theorem modHq_mbc (s : State) (f : Hq → Hq) : (s.modHq f).mbc = s.mbc := rfl
@[simp] theorem modHq_ser (s : State) (f : Hq → Hq) : (s.modHq f).ser = s.ser := rfl
@[simp] theorem modHq_car (s : State) (f : Hq → Hq) : (s.modHq f).car = s.car := rfl
@[simp] theorem modHq_door (s : State) (f : Hq → Hq) : (s.modHq f).door = s.door := rfl
@[simp] theorem modHq_grp (s : State) (f : Hq → Hq) : (s.modHq f).grp = s.grp := rfl
@[simp] theorem modHq_fio (s : State) (f : Hq → Hq) : (s.modHq f).fio = s.fio := rfl
@[simp] theorem modHq_acq (s : State) (f : Hq → Hq) : (s.modHq f).acq = s.acq := rfl
@[simp] theorem modHq_net (s : State) (f : Hq → Hq) : (s.modHq f).net = s.net := rfl
@[simp] theorem modHq_out (s : State) (f : Hq → Hq) : (s.modHq f).out = s.out := rfl
@[simp] theorem modHq_free (s : State) (f : Hq → Hq) : (s.modHq f).free = s.free := rfl
@[simp] theorem modHq_pending (s : State) (f : Hq → Hq) : (s.modHq f).pending = s.pending := rfl
@[simp] theorem modHq_word (s : State) (f : Hq → Hq) (k : Nat) : (s.modHq f).word k = s.word k := rfl
@[simp] theorem modHq_rd (s : State) (f : Hq → Hq) (k : Fld) : (s.modHq f).rd k = s.rd k := rfl
@[simp] theorem modHq_on (s : State) (f : Hq → Hq) (k : Fld) : (s.modHq f).on k = s.on k := rfl
@[simp] theorem modMan_regs (s : State) (f : Man → Man) : (s.modMan f).regs = s.regs := rfl
@[simp] theorem modMan_nv (s : State) (f : Man → Man) : (s.modMan f).nv = s.nv := rfl
@[simp] theorem modMan_boll (s : State) (f : Man → Man) : (s.modMan f).boll = s.boll := rfl
@[simp] theorem modMan_hq (s : State) (f : Man → Man) : (s.modMan f).hq = s.hq := rfl
@[simp] theorem modMan_man (s : State) (f : Man → Man) : (s.modMan f).man = f s.man := rfl
@[simp] theorem modMan_pwr (s : State) (f : Man → Man) : (s.modMan f).pwr = s.pwr := rfl
@[simp] theorem modMan_recu (s : State) (f : Man → Man) : (s.modMan f).recu = s.recu := rfl
@[simp] theorem modMan_sec (s : State) (f : Man → Man) : (s.modMan f).sec = s.sec := rfl
@[simp] theorem modMan_xng (s : State) (f : Man → Man) : (s.modMan f).xng = s.xng := rfl
@[simp] theorem modMan_est (s : State) (f : Man → Man) : (s.modMan f).est = s.est := rfl
@[simp] theorem modMan_prot (s : State) (f : Man → Man) : (s.modMan f).prot = s.prot := rfl
@[simp] theorem modMan_disp (s : State) (f : Man → Man) : (s.modMan f).disp = s.disp := rfl
@[simp] theorem modMan_loop (s : State) (f : Man → Man) : (s.modMan f).loop = s.loop := rfl
@[simp] theorem modMan_pos (s : State) (f : Man → Man) : (s.modMan f).pos = s.pos := rfl
@[simp] theorem modMan_saf (s : State) (f : Man → Man) : (s.modMan f).saf = s.saf := rfl
@[simp] theorem modMan_mbc (s : State) (f : Man → Man) : (s.modMan f).mbc = s.mbc := rfl
@[simp] theorem modMan_ser (s : State) (f : Man → Man) : (s.modMan f).ser = s.ser := rfl
@[simp] theorem modMan_car (s : State) (f : Man → Man) : (s.modMan f).car = s.car := rfl
@[simp] theorem modMan_door (s : State) (f : Man → Man) : (s.modMan f).door = s.door := rfl
@[simp] theorem modMan_grp (s : State) (f : Man → Man) : (s.modMan f).grp = s.grp := rfl
@[simp] theorem modMan_fio (s : State) (f : Man → Man) : (s.modMan f).fio = s.fio := rfl
@[simp] theorem modMan_acq (s : State) (f : Man → Man) : (s.modMan f).acq = s.acq := rfl
@[simp] theorem modMan_net (s : State) (f : Man → Man) : (s.modMan f).net = s.net := rfl
@[simp] theorem modMan_out (s : State) (f : Man → Man) : (s.modMan f).out = s.out := rfl
@[simp] theorem modMan_free (s : State) (f : Man → Man) : (s.modMan f).free = s.free := rfl
@[simp] theorem modMan_pending (s : State) (f : Man → Man) : (s.modMan f).pending = s.pending := rfl
@[simp] theorem modMan_word (s : State) (f : Man → Man) (k : Nat) : (s.modMan f).word k = s.word k := rfl
@[simp] theorem modMan_rd (s : State) (f : Man → Man) (k : Fld) : (s.modMan f).rd k = s.rd k := rfl
@[simp] theorem modMan_on (s : State) (f : Man → Man) (k : Fld) : (s.modMan f).on k = s.on k := rfl
@[simp] theorem modBoll_regs (s : State) (f : Bollard → Bollard) : (s.modBoll f).regs = s.regs := rfl
@[simp] theorem modBoll_nv (s : State) (f : Bollard → Bollard) : (s.modBoll f).nv = s.nv := rfl
@[simp] theorem modBoll_boll (s : State) (f : Bollard → Bollard) : (s.modBoll f).boll = f s.boll := rfl
@[simp] theorem modBoll_hq (s : State) (f : Bollard → Bollard) : (s.modBoll f).hq = s.hq := rfl
@[simp] theorem modBoll_man (s : State) (f : Bollard → Bollard) : (s.modBoll f).man = s.man := rfl
@[simp] theorem modBoll_pwr (s : State) (f : Bollard → Bollard) : (s.modBoll f).pwr = s.pwr := rfl
@[simp] theorem modBoll_recu (s : State) (f : Bollard → Bollard) : (s.modBoll f).recu = s.recu := rfl
@[simp] theorem modBoll_sec (s : State) (f : Bollard → Bollard) : (s.modBoll f).sec = s.sec := rfl
@[simp] theorem modBoll_xng (s : State) (f : Bollard → Bollard) : (s.modBoll f).xng = s.xng := rfl
@[simp] theorem modBoll_est (s : State) (f : Bollard → Bollard) : (s.modBoll f).est = s.est := rfl
@[simp] theorem modBoll_prot (s : State) (f : Bollard → Bollard) : (s.modBoll f).prot = s.prot := rfl
@[simp] theorem modBoll_disp (s : State) (f : Bollard → Bollard) : (s.modBoll f).disp = s.disp := rfl
@[simp] theorem modBoll_loop (s : State) (f : Bollard → Bollard) : (s.modBoll f).loop = s.loop := rfl
@[simp] theorem modBoll_pos (s : State) (f : Bollard → Bollard) : (s.modBoll f).pos = s.pos := rfl
@[simp] theorem modBoll_saf (s : State) (f : Bollard → Bollard) : (s.modBoll f).saf = s.saf := rfl
@[simp] theorem modBoll_mbc (s : State) (f : Bollard → Bollard) : (s.modBoll f).mbc = s.mbc := rfl
@[simp] theorem modBoll_ser (s : State) (f : Bollard → Bollard) : (s.modBoll f).ser = s.ser := rfl
@[simp] theorem modBoll_car (s : State) (f : Bollard → Bollard) : (s.modBoll f).car = s.car := rfl
@[simp] theorem modBoll_door (s : State) (f : Bollard → Bollard) : (s.modBoll f).door = s.door := rfl
@[simp] theorem modBoll_grp (s : State) (f : Bollard → Bollard) : (s.modBoll f).grp = s.grp := rfl
@[simp] theorem modBoll_fio (s : State) (f : Bollard → Bollard) : (s.modBoll f).fio = s.fio := rfl
@[simp] theorem modBoll_acq (s : State) (f : Bollard → Bollard) : (s.modBoll f).acq = s.acq := rfl
@[simp] theorem modBoll_net (s : State) (f : Bollard → Bollard) : (s.modBoll f).net = s.net := rfl
@[simp] theorem modBoll_out (s : State) (f : Bollard → Bollard) : (s.modBoll f).out = s.out := rfl
@[simp] theorem modBoll_free (s : State) (f : Bollard → Bollard) : (s.modBoll f).free = s.free := rfl
@[simp] theorem modBoll_pending (s : State) (f : Bollard → Bollard) : (s.modBoll f).pending = s.pending := rfl
@[simp] theorem modBoll_word (s : State) (f : Bollard → Bollard) (k : Nat) : (s.modBoll f).word k = s.word k := rfl
@[simp] theorem modBoll_rd (s : State) (f : Bollard → Bollard) (k : Fld) : (s.modBoll f).rd k = s.rd k := rfl
@[simp] theorem modBoll_on (s : State) (f : Bollard → Bollard) (k : Fld) : (s.modBoll f).on k = s.on k := rfl
@[simp] theorem modPwr_regs (s : State) (f : Pwr → Pwr) : (s.modPwr f).regs = s.regs := rfl
@[simp] theorem modPwr_nv (s : State) (f : Pwr → Pwr) : (s.modPwr f).nv = s.nv := rfl
@[simp] theorem modPwr_boll (s : State) (f : Pwr → Pwr) : (s.modPwr f).boll = s.boll := rfl
@[simp] theorem modPwr_hq (s : State) (f : Pwr → Pwr) : (s.modPwr f).hq = s.hq := rfl
@[simp] theorem modPwr_man (s : State) (f : Pwr → Pwr) : (s.modPwr f).man = s.man := rfl
@[simp] theorem modPwr_pwr (s : State) (f : Pwr → Pwr) : (s.modPwr f).pwr = f s.pwr := rfl
@[simp] theorem modPwr_recu (s : State) (f : Pwr → Pwr) : (s.modPwr f).recu = s.recu := rfl
@[simp] theorem modPwr_sec (s : State) (f : Pwr → Pwr) : (s.modPwr f).sec = s.sec := rfl
@[simp] theorem modPwr_xng (s : State) (f : Pwr → Pwr) : (s.modPwr f).xng = s.xng := rfl
@[simp] theorem modPwr_est (s : State) (f : Pwr → Pwr) : (s.modPwr f).est = s.est := rfl
@[simp] theorem modPwr_prot (s : State) (f : Pwr → Pwr) : (s.modPwr f).prot = s.prot := rfl
@[simp] theorem modPwr_disp (s : State) (f : Pwr → Pwr) : (s.modPwr f).disp = s.disp := rfl
@[simp] theorem modPwr_loop (s : State) (f : Pwr → Pwr) : (s.modPwr f).loop = s.loop := rfl
@[simp] theorem modPwr_pos (s : State) (f : Pwr → Pwr) : (s.modPwr f).pos = s.pos := rfl
@[simp] theorem modPwr_saf (s : State) (f : Pwr → Pwr) : (s.modPwr f).saf = s.saf := rfl
@[simp] theorem modPwr_mbc (s : State) (f : Pwr → Pwr) : (s.modPwr f).mbc = s.mbc := rfl
@[simp] theorem modPwr_ser (s : State) (f : Pwr → Pwr) : (s.modPwr f).ser = s.ser := rfl
@[simp] theorem modPwr_car (s : State) (f : Pwr → Pwr) : (s.modPwr f).car = s.car := rfl
@[simp] theorem modPwr_door (s : State) (f : Pwr → Pwr) : (s.modPwr f).door = s.door := rfl
@[simp] theorem modPwr_grp (s : State) (f : Pwr → Pwr) : (s.modPwr f).grp = s.grp := rfl
@[simp] theorem modPwr_fio (s : State) (f : Pwr → Pwr) : (s.modPwr f).fio = s.fio := rfl
@[simp] theorem modPwr_acq (s : State) (f : Pwr → Pwr) : (s.modPwr f).acq = s.acq := rfl
@[simp] theorem modPwr_net (s : State) (f : Pwr → Pwr) : (s.modPwr f).net = s.net := rfl
@[simp] theorem modPwr_out (s : State) (f : Pwr → Pwr) : (s.modPwr f).out = s.out := rfl
@[simp] theorem modPwr_free (s : State) (f : Pwr → Pwr) : (s.modPwr f).free = s.free := rfl
@[simp] theorem modPwr_pending (s : State) (f : Pwr → Pwr) : (s.modPwr f).pending = s.pending := rfl
@[simp] theorem modPwr_word (s : State) (f : Pwr → Pwr) (k : Nat) : (s.modPwr f).word k = s.word k := rfl
@[simp] theorem modPwr_rd (s : State) (f : Pwr → Pwr) (k : Fld) : (s.modPwr f).rd k = s.rd k := rfl
@[simp] theorem modPwr_on (s : State) (f : Pwr → Pwr) (k : Fld) : (s.modPwr f).on k = s.on k := rfl
@[simp] theorem modNv_regs (s : State) (f : Nv → Nv) : (s.modNv f).regs = s.regs := rfl
@[simp] theorem modNv_nv (s : State) (f : Nv → Nv) : (s.modNv f).nv = f s.nv := rfl
@[simp] theorem modNv_boll (s : State) (f : Nv → Nv) : (s.modNv f).boll = s.boll := rfl
@[simp] theorem modNv_hq (s : State) (f : Nv → Nv) : (s.modNv f).hq = s.hq := rfl
@[simp] theorem modNv_man (s : State) (f : Nv → Nv) : (s.modNv f).man = s.man := rfl
@[simp] theorem modNv_pwr (s : State) (f : Nv → Nv) : (s.modNv f).pwr = s.pwr := rfl
@[simp] theorem modNv_recu (s : State) (f : Nv → Nv) : (s.modNv f).recu = s.recu := rfl
@[simp] theorem modNv_sec (s : State) (f : Nv → Nv) : (s.modNv f).sec = s.sec := rfl
@[simp] theorem modNv_xng (s : State) (f : Nv → Nv) : (s.modNv f).xng = s.xng := rfl
@[simp] theorem modNv_est (s : State) (f : Nv → Nv) : (s.modNv f).est = s.est := rfl
@[simp] theorem modNv_prot (s : State) (f : Nv → Nv) : (s.modNv f).prot = s.prot := rfl
@[simp] theorem modNv_disp (s : State) (f : Nv → Nv) : (s.modNv f).disp = s.disp := rfl
@[simp] theorem modNv_loop (s : State) (f : Nv → Nv) : (s.modNv f).loop = s.loop := rfl
@[simp] theorem modNv_pos (s : State) (f : Nv → Nv) : (s.modNv f).pos = s.pos := rfl
@[simp] theorem modNv_saf (s : State) (f : Nv → Nv) : (s.modNv f).saf = s.saf := rfl
@[simp] theorem modNv_mbc (s : State) (f : Nv → Nv) : (s.modNv f).mbc = s.mbc := rfl
@[simp] theorem modNv_ser (s : State) (f : Nv → Nv) : (s.modNv f).ser = s.ser := rfl
@[simp] theorem modNv_car (s : State) (f : Nv → Nv) : (s.modNv f).car = s.car := rfl
@[simp] theorem modNv_door (s : State) (f : Nv → Nv) : (s.modNv f).door = s.door := rfl
@[simp] theorem modNv_grp (s : State) (f : Nv → Nv) : (s.modNv f).grp = s.grp := rfl
@[simp] theorem modNv_fio (s : State) (f : Nv → Nv) : (s.modNv f).fio = s.fio := rfl
@[simp] theorem modNv_acq (s : State) (f : Nv → Nv) : (s.modNv f).acq = s.acq := rfl
@[simp] theorem modNv_net (s : State) (f : Nv → Nv) : (s.modNv f).net = s.net := rfl
@[simp] theorem modNv_out (s : State) (f : Nv → Nv) : (s.modNv f).out = s.out := rfl
@[simp] theorem modNv_free (s : State) (f : Nv → Nv) : (s.modNv f).free = s.free := rfl
@[simp] theorem modNv_pending (s : State) (f : Nv → Nv) : (s.modNv f).pending = s.pending := rfl
@[simp] theorem modNv_word (s : State) (f : Nv → Nv) (k : Nat) : (s.modNv f).word k = s.word k := rfl
@[simp] theorem modNv_rd (s : State) (f : Nv → Nv) (k : Fld) : (s.modNv f).rd k = s.rd k := rfl
@[simp] theorem modNv_on (s : State) (f : Nv → Nv) (k : Fld) : (s.modNv f).on k = s.on k := rfl
@[simp] theorem modSec_regs (s : State) (f : Sec → Sec) : (s.modSec f).regs = s.regs := rfl
@[simp] theorem modSec_nv (s : State) (f : Sec → Sec) : (s.modSec f).nv = s.nv := rfl
@[simp] theorem modSec_boll (s : State) (f : Sec → Sec) : (s.modSec f).boll = s.boll := rfl
@[simp] theorem modSec_hq (s : State) (f : Sec → Sec) : (s.modSec f).hq = s.hq := rfl
@[simp] theorem modSec_man (s : State) (f : Sec → Sec) : (s.modSec f).man = s.man := rfl
@[simp] theorem modSec_pwr (s : State) (f : Sec → Sec) : (s.modSec f).pwr = s.pwr := rfl
@[simp] theorem modSec_recu (s : State) (f : Sec → Sec) : (s.modSec f).recu = s.recu := rfl
@[simp] theorem modSec_sec (s : State) (f : Sec → Sec) : (s.modSec f).sec = f s.sec := rfl
@[simp] theorem modSec_xng (s : State) (f : Sec → Sec) : (s.modSec f).xng = s.xng := rfl
@[simp] theorem modSec_est (s : State) (f : Sec → Sec) : (s.modSec f).est = s.est := rfl
@[simp] theorem modSec_prot (s : State) (f : Sec → Sec) : (s.modSec f).prot = s.prot := rfl
@[simp] theorem modSec_disp (s : State) (f : Sec → Sec) : (s.modSec f).disp = s.disp := rfl
@[simp] theorem modSec_loop (s : State) (f : Sec → Sec) : (s.modSec f).loop = s.loop := rfl
@[simp] theorem modSec_pos (s : State) (f : Sec → Sec) : (s.modSec f).pos = s.pos := rfl
@[simp] theorem modSec_saf (s : State) (f : Sec → Sec) : (s.modSec f).saf = s.saf := rfl
@[simp] theorem modSec_mbc (s : State) (f : Sec → Sec) : (s.modSec f).mbc = s.mbc := rfl
@[simp] theorem modSec_ser (s : State) (f : Sec → Sec) : (s.modSec f).ser = s.ser := rfl
@[simp] theorem modSec_car (s : State) (f : Sec → Sec) : (s.modSec f).car = s.car := rfl
@[simp] theorem modSec_door (s : State) (f : Sec → Sec) : (s.modSec f).door = s.door := rfl
@[simp] theorem modSec_grp (s : State) (f : Sec → Sec) : (s.modSec f).grp = s.grp := rfl
@[simp] theorem modSec_fio (s : State) (f : Sec → Sec) : (s.modSec f).fio = s.fio := rfl
@[simp] theorem modSec_acq (s : State) (f : Sec → Sec) : (s.modSec f).acq = s.acq := rfl
@[simp] theorem modSec_net (s : State) (f : Sec → Sec) : (s.modSec f).net = s.net := rfl
@[simp] theorem modSec_out (s : State) (f : Sec → Sec) : (s.modSec f).out = s.out := rfl
@[simp] theorem modSec_free (s : State) (f : Sec → Sec) : (s.modSec f).free = s.free := rfl
@[simp] theorem modSec_pending (s : State) (f : Sec → Sec) : (s.modSec f).pending = s.pending := rfl
@[simp] theorem modSec_word (s : State) (f : Sec → Sec) (k : Nat) : (s.modSec f).word k = s.word k := rfl
@[simp] theorem modSec_rd (s : State) (f : Sec → Sec) (k : Fld) : (s.modSec f).rd k = s.rd k := rfl
@[simp] theorem modSec_on (s : State) (f : Sec → Sec) (k : Fld) : (s.modSec f).on k = s.on k := rfl
@[simp] theorem modRec_regs (s : State) (f : RecU → RecU) : (s.modRec f).regs = s.regs := rfl
@[simp] theorem modRec_nv (s : State) (f : RecU → RecU) : (s.modRec f).nv = s.nv := rfl
@[simp] theorem modRec_boll (s : State) (f : RecU → RecU) : (s.modRec f).boll = s.boll := rfl
@[simp] theorem modRec_hq (s : State) (f : RecU → RecU) : (s.modRec f).hq = s.hq := rfl
@[simp] theorem modRec_man (s : State) (f : RecU → RecU) : (s.modRec f).man = s.man := rfl
@[simp] theorem modRec_pwr (s : State) (f : RecU → RecU) : (s.modRec f).pwr = s.pwr := rfl
@[simp] theorem modRec_recu (s : State) (f : RecU → RecU) : (s.modRec f).recu = f s.recu := rfl
@[simp] theorem modRec_sec (s : State) (f : RecU → RecU) : (s.modRec f).sec = s.sec := rfl
@[simp] theorem modRec_xng (s : State) (f : RecU → RecU) : (s.modRec f).xng = s.xng := rfl
@[simp] theorem modRec_est (s : State) (f : RecU → RecU) : (s.modRec f).est = s.est := rfl
@[simp] theorem modRec_prot (s : State) (f : RecU → RecU) : (s.modRec f).prot = s.prot := rfl
@[simp] theorem modRec_disp (s : State) (f : RecU → RecU) : (s.modRec f).disp = s.disp := rfl
@[simp] theorem modRec_loop (s : State) (f : RecU → RecU) : (s.modRec f).loop = s.loop := rfl
@[simp] theorem modRec_pos (s : State) (f : RecU → RecU) : (s.modRec f).pos = s.pos := rfl
@[simp] theorem modRec_saf (s : State) (f : RecU → RecU) : (s.modRec f).saf = s.saf := rfl
@[simp] theorem modRec_mbc (s : State) (f : RecU → RecU) : (s.modRec f).mbc = s.mbc := rfl
@[simp] theorem modRec_ser (s : State) (f : RecU → RecU) : (s.modRec f).ser = s.ser := rfl
@[simp] theorem modRec_car (s : State) (f : RecU → RecU) : (s.modRec f).car = s.car := rfl
@[simp] theorem modRec_door (s : State) (f : RecU → RecU) : (s.modRec f).door = s.door := rfl
@[simp] theorem modRec_grp (s : State) (f : RecU → RecU) : (s.modRec f).grp = s.grp := rfl
@[simp] theorem modRec_fio (s : State) (f : RecU → RecU) : (s.modRec f).fio = s.fio := rfl
@[simp] theorem modRec_acq (s : State) (f : RecU → RecU) : (s.modRec f).acq = s.acq := rfl
@[simp] theorem modRec_net (s : State) (f : RecU → RecU) : (s.modRec f).net = s.net := rfl
@[simp] theorem modRec_out (s : State) (f : RecU → RecU) : (s.modRec f).out = s.out := rfl
@[simp] theorem modRec_free (s : State) (f : RecU → RecU) : (s.modRec f).free = s.free := rfl
@[simp] theorem modRec_pending (s : State) (f : RecU → RecU) : (s.modRec f).pending = s.pending := rfl
@[simp] theorem modRec_word (s : State) (f : RecU → RecU) (k : Nat) : (s.modRec f).word k = s.word k := rfl
@[simp] theorem modRec_rd (s : State) (f : RecU → RecU) (k : Fld) : (s.modRec f).rd k = s.rd k := rfl
@[simp] theorem modRec_on (s : State) (f : RecU → RecU) (k : Fld) : (s.modRec f).on k = s.on k := rfl
@[simp] theorem modDisp_regs (s : State) (f : Disp → Disp) : (s.modDisp f).regs = s.regs := rfl
@[simp] theorem modDisp_nv (s : State) (f : Disp → Disp) : (s.modDisp f).nv = s.nv := rfl
@[simp] theorem modDisp_boll (s : State) (f : Disp → Disp) : (s.modDisp f).boll = s.boll := rfl
@[simp] theorem modDisp_hq (s : State) (f : Disp → Disp) : (s.modDisp f).hq = s.hq := rfl
@[simp] theorem modDisp_man (s : State) (f : Disp → Disp) : (s.modDisp f).man = s.man := rfl
@[simp] theorem modDisp_pwr (s : State) (f : Disp → Disp) : (s.modDisp f).pwr = s.pwr := rfl
@[simp] theorem modDisp_recu (s : State) (f : Disp → Disp) : (s.modDisp f).recu = s.recu := rfl
@[simp] theorem modDisp_sec (s : State) (f : Disp → Disp) : (s.modDisp f).sec = s.sec := rfl
@[simp] theorem modDisp_xng (s : State) (f : Disp → Disp) : (s.modDisp f).xng = s.xng := rfl
@[simp] theorem modDisp_est (s : State) (f : Disp → Disp) : (s.modDisp f).est = s.est := rfl
@[simp] theorem modDisp_prot (s : State) (f : Disp → Disp) : (s.modDisp f).prot = s.prot := rfl
@[simp] theorem modDisp_disp (s : State) (f : Disp → Disp) : (s.modDisp f).disp = f s.disp := rfl
@[simp] theorem modDisp_loop (s : State) (f : Disp → Disp) : (s.modDisp f).loop = s.loop := rfl
@[simp] theorem modDisp_pos (s : State) (f : Disp → Disp) : (s.modDisp f).pos = s.pos := rfl
@[simp] theorem modDisp_saf (s : State) (f : Disp → Disp) : (s.modDisp f).saf = s.saf := rfl
@[simp] theorem modDisp_mbc (s : State) (f : Disp → Disp) : (s.modDisp f).mbc = s.mbc := rfl
@[simp] theorem modDisp_ser (s : State) (f : Disp → Disp) : (s.modDisp f).ser = s.ser := rfl
@[simp] theorem modDisp_car (s : State) (f : Disp → Disp) : (s.modDisp f).car = s.car := rfl
@[simp] theorem modDisp_door (s : State) (f : Disp → Disp) : (s.modDisp f).door = s.door := rfl
@[simp] theorem modDisp_grp (s : State) (f : Disp → Disp) : (s.modDisp f).grp = s.grp := rfl
@[simp] theorem modDisp_fio (s : State) (f : Disp → Disp) : (s.modDisp f).fio = s.fio := rfl
@[simp] theorem modDisp_acq (s : State) (f : Disp → Disp) : (s.modDisp f).acq = s.acq := rfl
@[simp] theorem modDisp_net (s : State) (f : Disp → Disp) : (s.modDisp f).net = s.net := rfl
@[simp] theorem modDisp_out (s : State) (f : Disp → Disp) : (s.modDisp f).out = s.out := rfl
@[simp] theorem modDisp_free (s : State) (f : Disp → Disp) : (s.modDisp f).free = s.free := rfl
@[simp] theorem modDisp_pending (s : State) (f : Disp → Disp) : (s.modDisp f).pending = s.pending := rfl
@[simp] theorem modDisp_word (s : State) (f : Disp → Disp) (k : Nat) : (s.modDisp f).word k = s.word k := rfl
@[simp] theorem modDisp_rd (s : State) (f : Disp → Disp) (k : Fld) : (s.modDisp f).rd k = s.rd k := rfl
@[simp] theorem modDisp_on (s : State) (f : Disp → Disp) (k : Fld) : (s.modDisp f).on k = s.on k := rfl
@[simp] theorem modLoop_regs (s : State) (f : Loop → Loop) : (s.modLoop f).regs = s.regs := rfl
@[simp] theorem modLoop_nv (s : State) (f : Loop → Loop) : (s.modLoop f).nv = s.nv := rfl
@[simp] theorem modLoop_boll (s : State) (f : Loop → Loop) : (s.modLoop f).boll = s.boll := rfl
@[simp] theorem modLoop_hq (s : State) (f : Loop → Loop) : (s.modLoop f).hq = s.hq := rfl
@[simp] theorem modLoop_man (s : State) (f : Loop → Loop) : (s.modLoop f).man = s.man := rfl
@[simp] theorem modLoop_pwr (s : State) (f : Loop → Loop) : (s.modLoop f).pwr = s.pwr := rfl
@[simp] theorem modLoop_recu (s : State) (f : Loop → Loop) : (s.modLoop f).recu = s.recu := rfl
@[simp] theorem modLoop_sec (s : State) (f : Loop → Loop) : (s.modLoop f).sec = s.sec := rfl
@[simp] theorem modLoop_xng (s : State) (f : Loop → Loop) : (s.modLoop f).xng = s.xng := rfl
@[simp] theorem modLoop_est (s : State) (f : Loop → Loop) : (s.modLoop f).est = s.est := rfl
@[simp] theorem modLoop_prot (s : State) (f : Loop → Loop) : (s.modLoop f).prot = s.prot := rfl
@[simp] theorem modLoop_disp (s : State) (f : Loop → Loop) : (s.modLoop f).disp = s.disp := rfl
@[simp] theorem modLoop_loop (s : State) (f : Loop → Loop) : (s.modLoop f).loop = f s.loop := rfl
@[simp] theorem modLoop_pos (s : State) (f : Loop → Loop) : (s.modLoop f).pos = s.pos := rfl
@[simp] theorem modLoop_saf (s : State) (f : Loop → Loop) : (s.modLoop f).saf = s.saf := rfl
@[simp] theorem modLoop_mbc (s : State) (f : Loop → Loop) : (s.modLoop f).mbc = s.mbc := rfl
@[simp] theorem modLoop_ser (s : State) (f : Loop → Loop) : (s.modLoop f).ser = s.ser := rfl
@[simp] theorem modLoop_car (s : State) (f : Loop → Loop) : (s.modLoop f).car = s.car := rfl
@[simp] theorem modLoop_door (s : State) (f : Loop → Loop) : (s.modLoop f).door = s.door := rfl
@[simp] theorem modLoop_grp (s : State) (f : Loop → Loop) : (s.modLoop f).grp = s.grp := rfl
@[simp] theorem modLoop_fio (s : State) (f : Loop → Loop) : (s.modLoop f).fio = s.fio := rfl
@[simp] theorem modLoop_acq (s : State) (f : Loop → Loop) : (s.modLoop f).acq = s.acq := rfl
@[simp] theorem modLoop_net (s : State) (f : Loop → Loop) : (s.modLoop f).net = s.net := rfl
@[simp] theorem modLoop_out (s : State) (f : Loop → Loop) : (s.modLoop f).out = s.out := rfl
@[simp] theorem modLoop_free (s : State) (f : Loop → Loop) : (s.modLoop f).free = s.free := rfl
@[simp] theorem modLoop_pending (s : State) (f : Loop → Loop) : (s.modLoop f).pending = s.pending := rfl
@[simp] theorem modLoop_word (s : State) (f : Loop → Loop) (k : Nat) : (s.modLoop f).word k = s.word k := rfl
@[simp] theorem modLoop_rd (s : State) (f : Loop → Loop) (k : Fld) : (s.modLoop f).rd k = s.rd k := rfl
@[simp] theorem modLoop_on (s : State) (f : Loop → Loop) (k : Fld) : (s.modLoop f).on k = s.on k := rfl
@[simp] theorem modSaf_regs (s : State) (f : Saf → Saf) : (s.modSaf f).regs = s.regs := rfl
@[simp] theorem modSaf_nv (s : State) (f : Saf → Saf) : (s.modSaf f).nv = s.nv := rfl
@[simp] theorem modSaf_boll (s : State) (f : Saf → Saf) : (s.modSaf f).boll = s.boll := rfl
@[simp] theorem modSaf_hq (s : State) (f : Saf → Saf) : (s.modSaf f).hq = s.hq := rfl
@[simp] theorem modSaf_man (s : State) (f : Saf → Saf) : (s.modSaf f).man = s.man := rfl
@[simp] theorem modSaf_pwr (s : State) (f : Saf → Saf) : (s.modSaf f).pwr = s.pwr := rfl
@[simp] theorem modSaf_recu (s : State) (f : Saf → Saf) : (s.modSaf f).recu = s.recu := rfl
@[simp] theorem modSaf_sec (s : State) (f : Saf → Saf) : (s.modSaf f).sec = s.sec := rfl
@[simp] theorem modSaf_xng (s : State) (f : Saf → Saf) : (s.modSaf f).xng = s.xng := rfl
@[simp] theorem modSaf_est (s : State) (f : Saf → Saf) : (s.modSaf f).est = s.est := rfl
@[simp] theorem modSaf_prot (s : State) (f : Saf → Saf) : (s.modSaf f).prot = s.prot := rfl
@[simp] theorem modSaf_disp (s : State) (f : Saf → Saf) : (s.modSaf f).disp = s.disp := rfl
@[simp] theorem modSaf_loop (s : State) (f : Saf → Saf) : (s.modSaf f).loop = s.loop := rfl
@[simp] theorem modSaf_pos (s : State) (f : Saf → Saf) : (s.modSaf f).pos = s.pos := rfl
@[simp] theorem modSaf_saf (s : State) (f : Saf → Saf) : (s.modSaf f).saf = f s.saf := rfl
@[simp] theorem modSaf_mbc (s : State) (f : Saf → Saf) : (s.modSaf f).mbc = s.mbc := rfl
@[simp] theorem modSaf_ser (s : State) (f : Saf → Saf) : (s.modSaf f).ser = s.ser := rfl
@[simp] theorem modSaf_car (s : State) (f : Saf → Saf) : (s.modSaf f).car = s.car := rfl
@[simp] theorem modSaf_door (s : State) (f : Saf → Saf) : (s.modSaf f).door = s.door := rfl
@[simp] theorem modSaf_grp (s : State) (f : Saf → Saf) : (s.modSaf f).grp = s.grp := rfl
@[simp] theorem modSaf_fio (s : State) (f : Saf → Saf) : (s.modSaf f).fio = s.fio := rfl
@[simp] theorem modSaf_acq (s : State) (f : Saf → Saf) : (s.modSaf f).acq = s.acq := rfl
@[simp] theorem modSaf_net (s : State) (f : Saf → Saf) : (s.modSaf f).net = s.net := rfl
@[simp] theorem modSaf_out (s : State) (f : Saf → Saf) : (s.modSaf f).out = s.out := rfl
@[simp] theorem modSaf_free (s : State) (f : Saf → Saf) : (s.modSaf f).free = s.free := rfl
@[simp] theorem modSaf_pending (s : State) (f : Saf → Saf) : (s.modSaf f).pending = s.pending := rfl
@[simp] theorem modSaf_word (s : State) (f : Saf → Saf) (k : Nat) : (s.modSaf f).word k = s.word k := rfl
@[simp] theorem modSaf_rd (s : State) (f : Saf → Saf) (k : Fld) : (s.modSaf f).rd k = s.rd k := rfl
@[simp] theorem modSaf_on (s : State) (f : Saf → Saf) (k : Fld) : (s.modSaf f).on k = s.on k := rfl
@[simp] theorem modGrp_regs (s : State) (f : Grp → Grp) : (s.modGrp f).regs = s.regs := rfl
@[simp] theorem modGrp_nv (s : State) (f : Grp → Grp) : (s.modGrp f).nv = s.nv := rfl
@[simp] theorem modGrp_boll (s : State) (f : Grp → Grp) : (s.modGrp f).boll = s.boll := rfl
@[simp] theorem modGrp_hq (s : State) (f : Grp → Grp) : (s.modGrp f).hq = s.hq := rfl
@[simp] theorem modGrp_man (s : State) (f : Grp → Grp) : (s.modGrp f).man = s.man := rfl
@[simp] theorem modGrp_pwr (s : State) (f : Grp → Grp) : (s.modGrp f).pwr = s.pwr := rfl
@[simp] theorem modGrp_recu (s : State) (f : Grp → Grp) : (s.modGrp f).recu = s.recu := rfl
@[simp] theorem modGrp_sec (s : State) (f : Grp → Grp) : (s.modGrp f).sec = s.sec := rfl
@[simp] theorem modGrp_xng (s : State) (f : Grp → Grp) : (s.modGrp f).xng = s.xng := rfl
@[simp] theorem modGrp_est (s : State) (f : Grp → Grp) : (s.modGrp f).est = s.est := rfl
@[simp] theorem modGrp_prot (s : State) (f : Grp → Grp) : (s.modGrp f).prot = s.prot := rfl
@[simp] theorem modGrp_disp (s : State) (f : Grp → Grp) : (s.modGrp f).disp = s.disp := rfl
@[simp] theorem modGrp_loop (s : State) (f : Grp → Grp) : (s.modGrp f).loop = s.loop := rfl
@[simp] theorem modGrp_pos (s : State) (f : Grp → Grp) : (s.modGrp f).pos = s.pos := rfl
@[simp] theorem modGrp_saf (s : State) (f : Grp → Grp) : (s.modGrp f).saf = s.saf := rfl
@[simp] theorem modGrp_mbc (s : State) (f : Grp → Grp) : (s.modGrp f).mbc = s.mbc := rfl
@[simp] theorem modGrp_ser (s : State) (f : Grp → Grp) : (s.modGrp f).ser = s.ser := rfl
@[simp] theorem modGrp_car (s : State) (f : Grp → Grp) : (s.modGrp f).car = s.car := rfl
@[simp] theorem modGrp_door (s : State) (f : Grp → Grp) : (s.modGrp f).door = s.door := rfl
@[simp] theorem modGrp_grp (s : State) (f : Grp → Grp) : (s.modGrp f).grp = f s.grp := rfl
@[simp] theorem modGrp_fio (s : State) (f : Grp → Grp) : (s.modGrp f).fio = s.fio := rfl
@[simp] theorem modGrp_acq (s : State) (f : Grp → Grp) : (s.modGrp f).acq = s.acq := rfl
@[simp] theorem modGrp_net (s : State) (f : Grp → Grp) : (s.modGrp f).net = s.net := rfl
@[simp] theorem modGrp_out (s : State) (f : Grp → Grp) : (s.modGrp f).out = s.out := rfl
@[simp] theorem modGrp_free (s : State) (f : Grp → Grp) : (s.modGrp f).free = s.free := rfl
@[simp] theorem modGrp_pending (s : State) (f : Grp → Grp) : (s.modGrp f).pending = s.pending := rfl
@[simp] theorem modGrp_word (s : State) (f : Grp → Grp) (k : Nat) : (s.modGrp f).word k = s.word k := rfl
@[simp] theorem modGrp_rd (s : State) (f : Grp → Grp) (k : Fld) : (s.modGrp f).rd k = s.rd k := rfl
@[simp] theorem modGrp_on (s : State) (f : Grp → Grp) (k : Fld) : (s.modGrp f).on k = s.on k := rfl
@[simp] theorem modFio_regs (s : State) (f : Fio → Fio) : (s.modFio f).regs = s.regs := rfl
@[simp] theorem modFio_nv (s : State) (f : Fio → Fio) : (s.modFio f).nv = s.nv := rfl
@[simp] theorem modFio_boll (s : State) (f : Fio → Fio) : (s.modFio f).boll = s.boll := rfl
@[simp] theorem modFio_hq (s : State) (f : Fio → Fio) : (s.modFio f).hq = s.hq := rfl
@[simp] theorem modFio_man (s : State) (f : Fio → Fio) : (s.modFio f).man = s.man := rfl
@[simp] theorem modFio_pwr (s : State) (f : Fio → Fio) : (s.modFio f).pwr = s.pwr := rfl
@[simp] theorem modFio_recu (s : State) (f : Fio → Fio) : (s.modFio f).recu = s.recu := rfl
@[simp] theorem modFio_sec (s : State) (f : Fio → Fio) : (s.modFio f).sec = s.sec := rfl
@[simp] theorem modFio_xng (s : State) (f : Fio → Fio) : (s.modFio f).xng = s.xng := rfl
@[simp] theorem modFio_est (s : State) (f : Fio → Fio) : (s.modFio f).est = s.est := rfl
@[simp] theorem modFio_prot (s : State) (f : Fio → Fio) : (s.modFio f).prot = s.prot := rfl
@[simp] theorem modFio_disp (s : State) (f : Fio → Fio) : (s.modFio f).disp = s.disp := rfl
@[simp] theorem modFio_loop (s : State) (f : Fio → Fio) : (s.modFio f).loop = s.loop := rfl
@[simp] theorem modFio_pos (s : State) (f : Fio → Fio) : (s.modFio f).pos = s.pos := rfl
@[simp] theorem modFio_saf (s : State) (f : Fio → Fio) : (s.modFio f).saf = s.saf := rfl
@[simp] theorem modFio_mbc (s : State) (f : Fio → Fio) : (s.modFio f).mbc = s.mbc := rfl
@[simp] theorem modFio_ser (s : State) (f : Fio → Fio) : (s.modFio f).ser = s.ser := rfl
@[simp] theorem modFio_car (s : State) (f : Fio → Fio) : (s.modFio f).car = s.car := rfl
@[simp] theorem modFio_door (s : State) (f : Fio → Fio) : (s.modFio f).door = s.door := rfl
@[simp] theorem modFio_grp (s : State) (f : Fio → Fio) : (s.modFio f).grp = s.grp := rfl
@[simp] theorem modFio_fio (s : State) (f : Fio → Fio) : (s.modFio f).fio = f s.fio := rfl
@[simp] theorem modFio_acq (s : State) (f : Fio → Fio) : (s.modFio f).acq = s.acq := rfl
@[simp] theorem modFio_net (s : State) (f : Fio → Fio) : (s.modFio f).net = s.net := rfl
@[simp] theorem modFio_out (s : State) (f : Fio → Fio) : (s.modFio f).out = s.out := rfl
@[simp] theorem modFio_free (s : State) (f : Fio → Fio) : (s.modFio f).free = s.free := rfl
@[simp] theorem modFio_pending (s : State) (f : Fio → Fio) : (s.modFio f).pending = s.pending := rfl
@[simp] theorem modFio_word (s : State) (f : Fio → Fio) (k : Nat) : (s.modFio f).word k = s.word k := rfl
@[simp] theorem modFio_rd (s : State) (f : Fio → Fio) (k : Fld) : (s.modFio f).rd k = s.rd k := rfl
@[simp] theorem modFio_on (s : State) (f : Fio → Fio) (k : Fld) : (s.modFio f).on k = s.on k := rfl
@[simp] theorem modAcq_regs (s : State) (f : Acq → Acq) : (s.modAcq f).regs = s.regs := rfl
@[simp] theorem modAcq_nv (s : State) (f : Acq → Acq) : (s.modAcq f).nv = s.nv := rfl
@[simp] theorem modAcq_boll (s : State) (f : Acq → Acq) : (s.modAcq f).boll = s.boll := rfl
@[simp] theorem modAcq_hq (s : State) (f : Acq → Acq) : (s.modAcq f).hq = s.hq := rfl
@[simp] theorem modAcq_man (s : State) (f : Acq → Acq) : (s.modAcq f).man = s.man := rfl
@[simp] theorem modAcq_pwr (s : State) (f : Acq → Acq) : (s.modAcq f).pwr = s.pwr := rfl
@[simp] theorem modAcq_recu (s : State) (f : Acq → Acq) : (s.modAcq f).recu = s.recu := rfl
@[simp] theorem modAcq_sec (s : State) (f : Acq → Acq) : (s.modAcq f).sec = s.sec := rfl
@[simp] theorem modAcq_xng (s : State) (f : Acq → Acq) : (s.modAcq f).xng = s.xng := rfl
@[simp] theorem modAcq_est (s : State) (f : Acq → Acq) : (s.modAcq f).est = s.est := rfl
@[simp] theorem modAcq_prot (s : State) (f : Acq → Acq) : (s.modAcq f).prot = s.prot := rfl
@[simp] theorem modAcq_disp (s : State) (f : Acq → Acq) : (s.modAcq f).disp = s.disp := rfl
@[simp] theorem modAcq_loop (s : State) (f : Acq → Acq) : (s.modAcq f).loop = s.loop := rfl
@[simp] theorem modAcq_pos (s : State) (f : Acq → Acq) : (s.modAcq f).pos = s.pos := rfl
@[simp] theorem modAcq_saf (s : State) (f : Acq → Acq) : (s.modAcq f).saf = s.saf := rfl
@[simp] theorem modAcq_mbc (s : State) (f : Acq → Acq) : (s.modAcq f).mbc = s.mbc := rfl
@[simp] theorem modAcq_ser (s : State) (f : Acq → Acq) : (s.modAcq f).ser = s.ser := rfl
@[simp] theorem modAcq_car (s : State) (f : Acq → Acq) : (s.modAcq f).car = s.car := rfl
@[simp] theorem modAcq_door (s : State) (f : Acq → Acq) : (s.modAcq f).door = s.door := rfl
@[simp] theorem modAcq_grp (s : State) (f : Acq → Acq) : (s.modAcq f).grp = s.grp := rfl
@[simp] theorem modAcq_fio (s : State) (f : Acq → Acq) : (s.modAcq f).fio = s.fio := rfl
@[simp] theorem modAcq_acq (s : State) (f : Acq → Acq) : (s.modAcq f).acq = f s.acq := rfl
@[simp] theorem modAcq_net (s : State) (f : Acq → Acq) : (s.modAcq f).net = s.net := rfl
@[simp] theorem modAcq_out (s : State) (f : Acq → Acq) : (s.modAcq f).out = s.out := rfl
@[simp] theorem modAcq_free (s : State) (f : Acq → Acq) : (s.modAcq f).free = s.free := rfl
@[simp] theorem modAcq_pending (s : State) (f : Acq → Acq) : (s.modAcq f).pending = s.pending := rfl
@[simp] theorem modAcq_word (s : State) (f : Acq → Acq) (k : Nat) : (s.modAcq f).word k = s.word k := rfl
@[simp] theorem modAcq_rd (s : State) (f : Acq → Acq) (k : Fld) : (s.modAcq f).rd k = s.rd k := rfl
@[simp] theorem modAcq_on (s : State) (f : Acq → Acq) (k : Fld) : (s.modAcq f).on k = s.on k := rfl
@[simp] theorem modNet_regs (s : State) (f : Net → Net) : (s.modNet f).regs = s.regs := rfl
@[simp] theorem modNet_nv (s : State) (f : Net → Net) : (s.modNet f).nv = s.nv := rfl
@[simp] theorem modNet_boll (s : State) (f : Net → Net) : (s.modNet f).boll = s.boll := rfl
@[simp] theorem modNet_hq (s : State) (f : Net → Net) : (s.modNet f).hq = s.hq := rfl
@[simp] theorem modNet_man (s : State) (f : Net → Net) : (s.modNet f).man = s.man := rfl
@[simp] theorem modNet_pwr (s : State) (f : Net → Net) : (s.modNet f).pwr = s.pwr := rfl
@[simp] theorem modNet_recu (s : State) (f : Net → Net) : (s.modNet f).recu = s.recu := rfl
@[simp] theorem modNet_sec (s : State) (f : Net → Net) : (s.modNet f).sec = s.sec := rfl
@[simp] theorem modNet_xng (s : State) (f : Net → Net) : (s.modNet f).xng = s.xng := rfl
@[simp] theorem modNet_est (s : State) (f : Net → Net) : (s.modNet f).est = s.est := rfl
@[simp] theorem modNet_prot (s : State) (f : Net → Net) : (s.modNet f).prot = s.prot := rfl
@[simp] theorem modNet_disp (s : State) (f : Net → Net) : (s.modNet f).disp = s.disp := rfl
@[simp] theorem modNet_loop (s : State) (f : Net → Net) : (s.modNet f).loop = s.loop := rfl
@[simp] theorem modNet_pos (s : State) (f : Net → Net) : (s.modNet f).pos = s.pos := rfl
@[simp] theorem modNet_saf (s : State) (f : Net → Net) : (s.modNet f).saf = s.saf := rfl
@[simp] theorem modNet_mbc (s : State) (f : Net → Net) : (s.modNet f).mbc = s.mbc := rfl
@[simp] theorem modNet_ser (s : State) (f : Net → Net) : (s.modNet f).ser = s.ser := rfl
@[simp] theorem modNet_car (s : State) (f : Net → Net) : (s.modNet f).car = s.car := rfl
@[simp] theorem modNet_door (s : State) (f : Net → Net) : (s.modNet f).door = s.door := rfl
@[simp] theorem modNet_grp (s : State) (f : Net → Net) : (s.modNet f).grp = s.grp := rfl
@[simp] theorem modNet_fio (s : State) (f : Net → Net) : (s.modNet f).fio = s.fio := rfl
@[simp] theorem modNet_acq (s : State) (f : Net → Net) : (s.modNet f).acq = s.acq := rfl
@[simp] theorem modNet_net (s : State) (f : Net → Net) : (s.modNet f).net = f s.net := rfl
@[simp] theorem modNet_out (s : State) (f : Net → Net) : (s.modNet f).out = s.out := rfl
@[simp] theorem modNet_free (s : State) (f : Net → Net) : (s.modNet f).free = s.free := rfl
@[simp] theorem modNet_pending (s : State) (f : Net → Net) : (s.modNet f).pending = s.pending := rfl
@[simp] theorem modNet_word (s : State) (f : Net → Net) (k : Nat) : (s.modNet f).word k = s.word k := rfl
@[simp] theorem modNet_rd (s : State) (f : Net → Net) (k : Fld) : (s.modNet f).rd k = s.rd k := rfl
@[simp] theorem modNet_on (s : State) (f : Net → Net) (k : Fld) : (s.modNet f).on k = s.on k := rfl
@[simp] theorem modMbc_regs (s : State) (n : Nat) (f : Mbc → Mbc) : (s.modMbc n f).regs = s.regs := rfl
@[simp] theorem modMbc_nv (s : State) (n : Nat) (f : Mbc → Mbc) : (s.modMbc n f).nv = s.nv := rfl
@[simp] theorem modMbc_boll (s : State) (n : Nat) (f : Mbc → Mbc) : (s.modMbc n f).boll = s.boll := rfl
@[simp] theorem modMbc_hq (s : State) (n : Nat) (f : Mbc → Mbc) : (s.modMbc n f).hq = s.hq := rfl
@[simp] theorem modMbc_man (s : State) (n : Nat) (f : Mbc → Mbc) : (s.modMbc n f).man = s.man := rfl
@[simp] theorem modMbc_pwr (s : State) (n : Nat) (f : Mbc → Mbc) : (s.modMbc n f).pwr = s.pwr := rfl
@[simp] theorem modMbc_recu (s : State) (n : Nat) (f : Mbc → Mbc) : (s.modMbc n f).recu = s.recu := rfl
@[simp] theorem modMbc_sec (s : State) (n : Nat) (f : Mbc → Mbc) : (s.modMbc n f).sec = s.sec := rfl
@[simp] theorem modMbc_xng (s : State) (n : Nat) (f : Mbc → Mbc) : (s.modMbc n f).xng = s.xng := rfl
@[simp] theorem modMbc_est (s : State) (n : Nat) (f : Mbc → Mbc) : (s.modMbc n f).est = s.est := rfl
@[simp] theorem modMbc_prot (s : State) (n : Nat) (f : Mbc → Mbc) : (s.modMbc n f).prot = s.prot := rfl
@[simp] theorem modMbc_disp (s : State) (n : Nat) (f : Mbc → Mbc) : (s.modMbc n f).disp = s.disp := rfl
@[simp] theorem modMbc_loop (s : State) (n : Nat) (f : Mbc → Mbc) : (s.modMbc n f).loop = s.loop := rfl
@[simp] theorem modMbc_pos (s : State) (n : Nat) (f : Mbc → Mbc) : (s.modMbc n f).pos = s.pos := rfl
@[simp] theorem modMbc_saf (s : State) (n : Nat) (f : Mbc → Mbc) : (s.modMbc n f).saf = s.saf := rfl
@[simp] theorem modMbc_mbc (s : State) (n : Nat) (f : Mbc → Mbc) : (s.modMbc n f).mbc = tput s.mbc n (f (s.mbcOf n)) := rfl
@[simp] theorem modMbc_ser (s : State) (n : Nat) (f : Mbc → Mbc) : (s.modMbc n f).ser = s.ser := rfl
@[simp] theorem modMbc_car (s : State) (n : Nat) (f : Mbc → Mbc) : (s.modMbc n f).car = s.car := rfl
@[simp] theorem modMbc_door (s : State) (n : Nat) (f : Mbc → Mbc) : (s.modMbc n f).door = s.door := rfl
@[simp] theorem modMbc_grp (s : State) (n : Nat) (f : Mbc → Mbc) : (s.modMbc n f).grp = s.grp := rfl
@[simp] theorem modMbc_fio (s : State) (n : Nat) (f : Mbc → Mbc) : (s.modMbc n f).fio = s.fio := rfl
@[simp] theorem modMbc_acq (s : State) (n : Nat) (f : Mbc → Mbc) : (s.modMbc n f).acq = s.acq := rfl
@[simp] theorem modMbc_net (s : State) (n : Nat) (f : Mbc → Mbc) : (s.modMbc n f).net = s.net := rfl
@[simp] theorem modMbc_out (s : State) (n : Nat) (f : Mbc → Mbc) : (s.modMbc n f).out = s.out := rfl
@[simp] theorem modMbc_free (s : State) (n : Nat) (f : Mbc → Mbc) : (s.modMbc n f).free = s.free := rfl
@[simp] theorem modMbc_pending (s : State) (n : Nat) (f : Mbc → Mbc) : (s.modMbc n f).pending = s.pending := rfl
@[simp] theorem modMbc_word (s : State) (n : Nat) (f : Mbc → Mbc) (k : Nat) : (s.modMbc n f).word k = s.word k := rfl
@[simp] theorem modMbc_rd (s : State) (n : Nat) (f : Mbc → Mbc) (k : Fld) : (s.modMbc n f).rd k = s.rd k := rfl
@[simp] theorem modMbc_on (s : State) (n : Nat) (f : Mbc → Mbc) (k : Fld) : (s.modMbc n f).on k = s.on k := rfl
@[simp] theorem modSer_regs (s : State) (n : Nat) (f : Ser → Ser) : (s.modSer n f).regs = s.regs := rfl
@[simp] theorem modSer_nv (s : State) (n : Nat) (f : Ser → Ser) : (s.modSer n f).nv = s.nv := rfl
@[simp] theorem modSer_boll (s : State) (n : Nat) (f : Ser → Ser) : (s.modSer n f).boll = s.boll := rfl
@[simp] theorem modSer_hq (s : State) (n : Nat) (f : Ser → Ser) : (s.modSer n f).hq = s.hq := rfl
@[simp] theorem modSer_man (s : State) (n : Nat) (f : Ser → Ser) : (s.modSer n f).man = s.man := rfl
@[simp] theorem modSer_pwr (s : State) (n : Nat) (f : Ser → Ser) : (s.modSer n f).pwr = s.pwr := rfl
@[simp] theorem modSer_recu (s : State) (n : Nat) (f : Ser → Ser) : (s.modSer n f).recu = s.recu := rfl
@[simp] theorem modSer_sec (s : State) (n : Nat) (f : Ser → Ser) : (s.modSer n f).sec = s.sec := rfl
@[simp] theorem modSer_xng (s : State) (n : Nat) (f : Ser → Ser) : (s.modSer n f).xng = s.xng := rfl
@[simp] theorem modSer_est (s : State) (n : Nat) (f : Ser → Ser) : (s.modSer n f).est = s.est := rfl
@[simp] theorem modSer_prot (s : State) (n : Nat) (f : Ser → Ser) : (s.modSer n f).prot = s.prot := rfl
@[simp] theorem modSer_disp (s : State) (n : Nat) (f : Ser → Ser) : (s.modSer n f).disp = s.disp := rfl
@[simp] theorem modSer_loop (s : State) (n : Nat) (f : Ser → Ser) : (s.modSer n f).loop = s.loop := rfl
@[simp] theorem modSer_pos (s : State) (n : Nat) (f : Ser → Ser) : (s.modSer n f).pos = s.pos := rfl
@[simp] theorem modSer_saf (s : State) (n : Nat) (f : Ser → Ser) : (s.modSer n f).saf = s.saf := rfl
@[simp] theorem modSer_mbc (s : State) (n : Nat) (f : Ser → Ser) : (s.modSer n f).mbc = s.mbc := rfl
@[simp] theorem modSer_ser (s : State) (n : Nat) (f : Ser → Ser) : (s.modSer n f).ser = tput s.ser n (f (s.serOf n)) := rfl
@[simp] theorem modSer_car (s : State) (n : Nat) (f : Ser → Ser) : (s.modSer n f).car = s.car := rfl
@[simp] theorem modSer_door (s : State) (n : Nat) (f : Ser → Ser) : (s.modSer n f).door = s.door := rfl
@[simp] theorem modSer_grp (s : State) (n : Nat) (f : Ser → Ser) : (s.modSer n f).grp = s.grp := rfl
@[simp] theorem modSer_fio (s : State) (n : Nat) (f : Ser → Ser) : (s.modSer n f).fio = s.fio := rfl
@[simp] theorem modSer_acq (s : State) (n : Nat) (f : Ser → Ser) : (s.modSer n f).acq = s.acq := rfl
@[simp] theorem modSer_net (s : State) (n : Nat) (f : Ser → Ser) : (s.modSer n f).net = s.net := rfl
@[simp] theorem modSer_out (s : State) (n : Nat) (f : Ser → Ser) : (s.modSer n f).out = s.out := rfl
@[simp] theorem modSer_free (s : State) (n : Nat) (f : Ser → Ser) : (s.modSer n f).free = s.free := rfl
@[simp] theorem modSer_pending (s : State) (n : Nat) (f : Ser → Ser) : (s.modSer n f).pending = s.pending := rfl
@[simp] theorem modSer_word (s : State) (n : Nat) (f : Ser → Ser) (k : Nat) : (s.modSer n f).word k = s.word k := rfl
@[simp] theorem modSer_rd (s : State) (n : Nat) (f : Ser → Ser) (k : Fld) : (s.modSer n f).rd k = s.rd k := rfl
@[simp] theorem modSer_on (s : State) (n : Nat) (f : Ser → Ser) (k : Fld) : (s.modSer n f).on k = s.on k := rfl
@[simp] theorem modCar_regs (s : State) (n : Nat) (f : Car → Car) : (s.modCar n f).regs = s.regs := rfl
@[simp] theorem modCar_nv (s : State) (n : Nat) (f : Car → Car) : (s.modCar n f).nv = s.nv := rfl
@[simp] theorem modCar_boll (s : State) (n : Nat) (f : Car → Car) : (s.modCar n f).boll = s.boll := rfl
@[simp] theorem modCar_hq (s : State) (n : Nat) (f : Car → Car) : (s.modCar n f).hq = s.hq := rfl
@[simp] theorem modCar_man (s : State) (n : Nat) (f : Car → Car) : (s.modCar n f).man = s.man := rfl
@[simp] theorem modCar_pwr (s : State) (n : Nat) (f : Car → Car) : (s.modCar n f).pwr = s.pwr := rfl
@[simp] theorem modCar_recu (s : State) (n : Nat) (f : Car → Car) : (s.modCar n f).recu = s.recu := rfl
@[simp] theorem modCar_sec (s : State) (n : Nat) (f : Car → Car) : (s.modCar n f).sec = s.sec := rfl
@[simp] theorem modCar_xng (s : State) (n : Nat) (f : Car → Car) : (s.modCar n f).xng = s.xng := rfl
@[simp] theorem modCar_est (s : State) (n : Nat) (f : Car → Car) : (s.modCar n f).est = s.est := rfl
@[simp] theorem modCar_prot (s : State) (n : Nat) (f : Car → Car) : (s.modCar n f).prot = s.prot := rfl
@[simp] theorem modCar_disp (s : State) (n : Nat) (f : Car → Car) : (s.modCar n f).disp = s.disp := rfl
@[simp] theorem modCar_loop (s : State) (n : Nat) (f : Car → Car) : (s.modCar n f).loop = s.loop := rfl
@[simp] theorem modCar_pos (s : State) (n : Nat) (f : Car → Car) : (s.modCar n f).pos = s.pos := rfl
@[simp] theorem modCar_saf (s : State) (n : Nat) (f : Car → Car) : (s.modCar n f).saf = s.saf := rfl
@[simp] theorem modCar_mbc (s : State) (n : Nat) (f : Car → Car) : (s.modCar n f).mbc = s.mbc := rfl
@[simp] theorem modCar_ser (s : State) (n : Nat) (f : Car → Car) : (s.modCar n f).ser = s.ser := rfl
@[simp] theorem modCar_car (s : State) (n : Nat) (f : Car → Car) : (s.modCar n f).car = tput s.car n (f (s.carOf n)) := rfl
@[simp] theorem modCar_door (s : State) (n : Nat) (f : Car → Car) : (s.modCar n f).door = s.door := rfl
@[simp] theorem modCar_grp (s : State) (n : Nat) (f : Car → Car) : (s.modCar n f).grp = s.grp := rfl
@[simp] theorem modCar_fio (s : State) (n : Nat) (f : Car → Car) : (s.modCar n f).fio = s.fio := rfl
@[simp] theorem modCar_acq (s : State) (n : Nat) (f : Car → Car) : (s.modCar n f).acq = s.acq := rfl
@[simp] theorem modCar_net (s : State) (n : Nat) (f : Car → Car) : (s.modCar n f).net = s.net := rfl
@[simp] theorem modCar_out (s : State) (n : Nat) (f : Car → Car) : (s.modCar n f).out = s.out := rfl
@[simp] theorem modCar_free (s : State) (n : Nat) (f : Car → Car) : (s.modCar n f).free = s.free := rfl
@[simp] theorem modCar_pending (s : State) (n : Nat) (f : Car → Car) : (s.modCar n f).pending = s.pending := rfl
@[simp] theorem modCar_word (s : State) (n : Nat) (f : Car → Car) (k : Nat) : (s.modCar n f).word k = s.word k := rfl
@[simp] theorem modCar_rd (s : State) (n : Nat) (f : Car → Car) (k : Fld) : (s.modCar n f).rd k = s.rd k := rfl
@[simp] theorem modCar_on (s : State) (n : Nat) (f : Car → Car) (k : Fld) : (s.modCar n f).on k = s.on k := rfl
@[simp] theorem modDoor_regs (s : State) (n : Nat) (f : Door → Door) : (s.modDoor n f).regs = s.regs := rfl
@[simp] theorem modDoor_nv (s : State) (n : Nat) (f : Door → Door) : (s.modDoor n f).nv = s.nv := rfl
@[simp] theorem modDoor_boll (s : State) (n : Nat) (f : Door → Door) : (s.modDoor n f).boll = s.boll := rfl
@[simp] theorem modDoor_hq (s : State) (n : Nat) (f : Door → Door) : (s.modDoor n f).hq = s.hq := rfl
@[simp] theorem modDoor_man (s : State) (n : Nat) (f : Door → Door) : (s.modDoor n f).man = s.man := rfl
@[simp] theorem modDoor_pwr (s : State) (n : Nat) (f : Door → Door) : (s.modDoor n f).pwr = s.pwr := rfl
@[simp] theorem modDoor_recu (s : State) (n : Nat) (f : Door → Door) : (s.modDoor n f).recu = s.recu := rfl
@[simp] theorem modDoor_sec (s : State) (n : Nat) (f : Door → Door) : (s.modDoor n f).sec = s.sec := rfl
@[simp] theorem modDoor_xng (s : State) (n : Nat) (f : Door → Door) : (s.modDoor n f).xng = s.xng := rfl
@[simp] theorem modDoor_est (s : State) (n : Nat) (f : Door → Door) : (s.modDoor n f).est = s.est := rfl
@[simp] theorem modDoor_prot (s : State) (n : Nat) (f : Door → Door) : (s.modDoor n f).prot = s.prot := rfl
@[simp] theorem modDoor_disp (s : State) (n : Nat) (f : Door → Door) : (s.modDoor n f).disp = s.disp := rfl
@[simp] theorem modDoor_loop (s : State) (n : Nat) (f : Door → Door) : (s.modDoor n f).loop = s.loop := rfl
@[simp] theorem modDoor_pos (s : State) (n : Nat) (f : Door → Door) : (s.modDoor n f).pos = s.pos := rfl
@[simp] theorem modDoor_saf (s : State) (n : Nat) (f : Door → Door) : (s.modDoor n f).saf = s.saf := rfl
@[simp] theorem modDoor_mbc (s : State) (n : Nat) (f : Door → Door) : (s.modDoor n f).mbc = s.mbc := rfl
@[simp] theorem modDoor_ser (s : State) (n : Nat) (f : Door → Door) : (s.modDoor n f).ser = s.ser := rfl
@[simp] theorem modDoor_car (s : State) (n : Nat) (f : Door → Door) : (s.modDoor n f).car = s.car := rfl
@[simp] theorem modDoor_door (s : State) (n : Nat) (f : Door → Door) : (s.modDoor n f).door = tput s.door n (f (s.doorOf n)) := rfl
@[simp] theorem modDoor_grp (s : State) (n : Nat) (f : Door → Door) : (s.modDoor n f).grp = s.grp := rfl
@[simp] theorem modDoor_fio (s : State) (n : Nat) (f : Door → Door) : (s.modDoor n f).fio = s.fio := rfl
@[simp] theorem modDoor_acq (s : State) (n : Nat) (f : Door → Door) : (s.modDoor n f).acq = s.acq := rfl
@[simp] theorem modDoor_net (s : State) (n : Nat) (f : Door → Door) : (s.modDoor n f).net = s.net := rfl
@[simp] theorem modDoor_out (s : State) (n : Nat) (f : Door → Door) : (s.modDoor n f).out = s.out := rfl
@[simp] theorem modDoor_free (s : State) (n : Nat) (f : Door → Door) : (s.modDoor n f).free = s.free := rfl
@[simp] theorem modDoor_pending (s : State) (n : Nat) (f : Door → Door) : (s.modDoor n f).pending = s.pending := rfl
@[simp] theorem modDoor_word (s : State) (n : Nat) (f : Door → Door) (k : Nat) : (s.modDoor n f).word k = s.word k := rfl
@[simp] theorem modDoor_rd (s : State) (n : Nat) (f : Door → Door) (k : Fld) : (s.modDoor n f).rd k = s.rd k := rfl
@[simp] theorem modDoor_on (s : State) (n : Nat) (f : Door → Door) (k : Fld) : (s.modDoor n f).on k = s.on k := rfl
@[simp] theorem setEst_regs (s : State) (n : Nat) (x : EstStr) : (s.setEst n x).regs = s.regs := rfl
@[simp] theorem setEst_nv (s : State) (n : Nat) (x : EstStr) : (s.setEst n x).nv = s.nv := rfl
@[simp] theorem setEst_boll (s : State) (n : Nat) (x : EstStr) : (s.setEst n x).boll = s.boll := rfl
@[simp] theorem setEst_hq (s : State) (n : Nat) (x : EstStr) : (s.setEst n x).hq = s.hq := rfl
@[simp] theorem setEst_man (s : State) (n : Nat) (x : EstStr) : (s.setEst n x).man = s.man := rfl
@[simp] theorem setEst_pwr (s : State) (n : Nat) (x : EstStr) : (s.setEst n x).pwr = s.pwr := rfl
@[simp] theorem setEst_recu (s : State) (n : Nat) (x : EstStr) : (s.setEst n x).recu = s.recu := rfl
@[simp] theorem setEst_sec (s : State) (n : Nat) (x : EstStr) : (s.setEst n x).sec = s.sec := rfl
@[simp] theorem setEst_xng (s : State) (n : Nat) (x : EstStr) : (s.setEst n x).xng = s.xng := rfl
@[simp] theorem setEst_est (s : State) (n : Nat) (x : EstStr) : (s.setEst n x).est = { s.est with str := tput s.est.str n x } := rfl
@[simp] theorem setEst_prot (s : State) (n : Nat) (x : EstStr) : (s.setEst n x).prot = s.prot := rfl
@[simp] theorem setEst_disp (s : State) (n : Nat) (x : EstStr) : (s.setEst n x).disp = s.disp := rfl
@[simp] theorem setEst_loop (s : State) (n : Nat) (x : EstStr) : (s.setEst n x).loop = s.loop := rfl
@[simp] theorem setEst_pos (s : State) (n : Nat) (x : EstStr) : (s.setEst n x).pos = s.pos := rfl
@[simp] theorem setEst_saf (s : State) (n : Nat) (x : EstStr) : (s.setEst n x).saf = s.saf := rfl
@[simp] theorem setEst_mbc (s : State) (n : Nat) (x : EstStr) : (s.setEst n x).mbc = s.mbc := rfl
@[simp] theorem setEst_ser (s : State) (n : Nat) (x : EstStr) : (s.setEst n x).ser = s.ser := rfl
@[simp] theorem setEst_car (s : State) (n : Nat) (x : EstStr) : (s.setEst n x).car = s.car := rfl
@[simp] theorem setEst_door (s : State) (n : Nat) (x : EstStr) : (s.setEst n x).door = s.door := rfl
@[simp] theorem setEst_grp (s : State) (n : Nat) (x : EstStr) : (s.setEst n x).grp = s.grp := rfl
@[simp] theorem setEst_fio (s : State) (n : Nat) (x : EstStr) : (s.setEst n x).fio = s.fio := rfl
@[simp] theorem setEst_acq (s : State) (n : Nat) (x : EstStr) : (s.setEst n x).acq = s.acq := rfl
@[simp] theorem setEst_net (s : State) (n : Nat) (x : EstStr) : (s.setEst n x).net = s.net := rfl
@[simp] theorem setEst_out (s : State) (n : Nat) (x : EstStr) : (s.setEst n x).out = s.out := rfl
@[simp] theorem setEst_free (s : State) (n : Nat) (x : EstStr) : (s.setEst n x).free = s.free := rfl
@[simp] theorem setEst_pending (s : State) (n : Nat) (x : EstStr) : (s.setEst n x).pending = s.pending := rfl
@[simp] theorem setEst_word (s : State) (n : Nat) (x : EstStr) (k : Nat) : (s.setEst n x).word k = s.word k := rfl
@[simp] theorem setEst_rd (s : State) (n : Nat) (x : EstStr) (k : Fld) : (s.setEst n x).rd k = s.rd k := rfl
@[simp] theorem setEst_on (s : State) (n : Nat) (x : EstStr) (k : Fld) : (s.setEst n x).on k = s.on k := rfl
@[simp] theorem setPstr_regs (s : State) (n : Nat) (x : PStr) : (s.setPstr n x).regs = s.regs := rfl
@[simp] theorem setPstr_nv (s : State) (n : Nat) (x : PStr) : (s.setPstr n x).nv = s.nv := rfl
@[simp] theorem setPstr_boll (s : State) (n : Nat) (x : PStr) : (s.setPstr n x).boll = s.boll := rfl
@[simp] theorem setPstr_hq (s : State) (n : Nat) (x : PStr) : (s.setPstr n x).hq = s.hq := rfl
@[simp] theorem setPstr_man (s : State) (n : Nat) (x : PStr) : (s.setPstr n x).man = s.man := rfl
@[simp] theorem setPstr_pwr (s : State) (n : Nat) (x : PStr) : (s.setPstr n x).pwr = s.pwr := rfl
@[simp] theorem setPstr_recu (s : State) (n : Nat) (x : PStr) : (s.setPstr n x).recu = s.recu := rfl
@[simp] theorem setPstr_sec (s : State) (n : Nat) (x : PStr) : (s.setPstr n x).sec = s.sec := rfl
@[simp] theorem setPstr_xng (s : State) (n : Nat) (x : PStr) : (s.setPstr n x).xng = s.xng := rfl
@[simp] theorem setPstr_est (s : State) (n : Nat) (x : PStr) : (s.setPstr n x).est = s.est := rfl
@[simp] theorem setPstr_prot (s : State) (n : Nat) (x : PStr) : (s.setPstr n x).prot = { s.prot with str := tput s.prot.str n x } := rfl
@[simp] theorem setPstr_disp (s : State) (n : Nat) (x : PStr) : (s.setPstr n x).disp = s.disp := rfl
@[simp] theorem setPstr_loop (s : State) (n : Nat) (x : PStr) : (s.setPstr n x).loop = s.loop := rfl
@[simp] theorem setPstr_pos (s : State) (n : Nat) (x : PStr) : (s.setPstr n x).pos = s.pos := rfl
@[simp] theorem setPstr_saf (s : State) (n : Nat) (x : PStr) : (s.setPstr n x).saf = s.saf := rfl
@[simp] theorem setPstr_mbc (s : State) (n : Nat) (x : PStr) : (s.setPstr n x).mbc = s.mbc := rfl
@[simp] theorem setPstr_ser (s : State) (n : Nat) (x : PStr) : (s.setPstr n x).ser = s.ser := rfl
@[simp] theorem setPstr_car (s : State) (n : Nat) (x : PStr) : (s.setPstr n x).car = s.car := rfl
@[simp] theorem setPstr_door (s : State) (n : Nat) (x : PStr) : (s.setPstr n x).door = s.door := rfl
@[simp] theorem setPstr_grp (s : State) (n : Nat) (x : PStr) : (s.setPstr n x).grp = s.grp := rfl
@[simp] theorem setPstr_fio (s : State) (n : Nat) (x : PStr) : (s.setPstr n x).fio = s.fio := rfl
@[simp] theorem setPstr_acq (s : State) (n : Nat) (x : PStr) : (s.setPstr n x).acq = s.acq := rfl
@[simp] theorem setPstr_net (s : State) (n : Nat) (x : PStr) : (s.setPstr n x).net = s.net := rfl
@[simp] theorem setPstr_out (s : State) (n : Nat) (x : PStr) : (s.setPstr n x).out = s.out := rfl
@[simp] theorem setPstr_free (s : State) (n : Nat) (x : PStr) : (s.setPstr n x).free = s.free := rfl
@[simp] theorem setPstr_pending (s : State) (n : Nat) (x : PStr) : (s.setPstr n x).pending = s.pending := rfl
@[simp] theorem setPstr_word (s : State) (n : Nat) (x : PStr) (k : Nat) : (s.setPstr n x).word k = s.word k := rfl
@[simp] theorem setPstr_rd (s : State) (n : Nat) (x : PStr) (k : Fld) : (s.setPstr n x).rd k = s.rd k := rfl
@[simp] theorem setPstr_on (s : State) (n : Nat) (x : PStr) (k : Fld) : (s.setPstr n x).on k = s.on k := rfl
@[simp] theorem setPcon_regs (s : State) (n : Nat) (x : PCon) : (s.setPcon n x).regs = s.regs := rfl
@[simp] theorem setPcon_nv (s : State) (n : Nat) (x : PCon) : (s.setPcon n x).nv = s.nv := rfl
@[simp] theorem setPcon_boll (s : State) (n : Nat) (x : PCon) : (s.setPcon n x).boll = s.boll := rfl
@[simp] theorem setPcon_hq (s : State) (n : Nat) (x : PCon) : (s.setPcon n x).hq = s.hq := rfl
@[simp] theorem setPcon_man (s : State) (n : Nat) (x : PCon) : (s.setPcon n x).man = s.man := rfl
@[simp] theorem setPcon_pwr (s : State) (n : Nat) (x : PCon) : (s.setPcon n x).pwr = s.pwr := rfl
@[simp] theorem setPcon_recu (s : State) (n : Nat) (x : PCon) : (s.setPcon n x).recu = s.recu := rfl
@[simp] theorem setPcon_sec (s : State) (n : Nat) (x : PCon) : (s.setPcon n x).sec = s.sec := rfl
@[simp] theorem setPcon_xng (s : State) (n : Nat) (x : PCon) : (s.setPcon n x).xng = s.xng := rfl
@[simp] theorem setPcon_est (s : State) (n : Nat) (x : PCon) : (s.setPcon n x).est = s.est := rfl
@[simp] theorem setPcon_prot (s : State) (n : Nat) (x : PCon) : (s.setPcon n x).prot = { s.prot with con := tput s.prot.con n x } := rfl
@[simp] theorem setPcon_disp (s : State) (n : Nat) (x : PCon) : (s.setPcon n x).disp = s.disp := rfl
@[simp] theorem setPcon_loop (s : State) (n : Nat) (x : PCon) : (s.setPcon n x).loop = s.loop := rfl
@[simp] theorem setPcon_pos (s : State) (n : Nat) (x : PCon) : (s.setPcon n x).pos = s.pos := rfl
@[simp] theorem setPcon_saf (s : State) (n : Nat) (x : PCon) : (s.setPcon n x).saf = s.saf := rfl
@[simp] theorem setPcon_mbc (s : State) (n : Nat) (x : PCon) : (s.setPcon n x).mbc = s.mbc := rfl
@[simp] theorem setPcon_ser (s : State) (n : Nat) (x : PCon) : (s.setPcon n x).ser = s.ser := rfl
@[simp] theorem setPcon_car (s : State) (n : Nat) (x : PCon) : (s.setPcon n x).car = s.car := rfl
@[simp] theorem setPcon_door (s : State) (n : Nat) (x : PCon) : (s.setPcon n x).door = s.door := rfl
@[simp] theorem setPcon_grp (s : State) (n : Nat) (x : PCon) : (s.setPcon n x).grp = s.grp := rfl
@[simp] theorem setPcon_fio (s : State) (n : Nat) (x : PCon) : (s.setPcon n x).fio = s.fio := rfl
@[simp] theorem setPcon_acq (s : State) (n : Nat) (x : PCon) : (s.setPcon n x).acq = s.acq := rfl
@[simp] theorem setPcon_net (s : State) (n : Nat) (x : PCon) : (s.setPcon n x).net = s.net := rfl
@[simp] theorem setPcon_out (s : State) (n : Nat) (x : PCon) : (s.setPcon n x).out = s.out := rfl
@[simp] theorem setPcon_free (s : State) (n : Nat) (x : PCon) : (s.setPcon n x).free = s.free := rfl
@[simp] theorem setPcon_pending (s : State) (n : Nat) (x : PCon) : (s.setPcon n x).pending = s.pending := rfl
@[simp] theorem setPcon_word (s : State) (n : Nat) (x : PCon) (k : Nat) : (s.setPcon n x).word k = s.word k := rfl
@[simp] theorem setPcon_rd (s : State) (n : Nat) (x : PCon) (k : Fld) : (s.setPcon n x).rd k = s.rd k := rfl
@[simp] theorem setPcon_on (s : State) (n : Nat) (x : PCon) (k : Fld) : (s.setPcon n x).on k = s.on k := rfl
@[simp] theorem setPcs_regs (s : State) (n : Nat) (x : Pcs) : (s.setPcs n x).regs = s.regs := rfl
@[simp] theorem setPcs_nv (s : State) (n : Nat) (x : Pcs) : (s.setPcs n x).nv = s.nv := rfl
@[simp] theorem setPcs_boll (s : State) (n : Nat) (x : Pcs) : (s.setPcs n x).boll = s.boll := rfl
@[simp] theorem setPcs_hq (s : State) (n : Nat) (x : Pcs) : (s.setPcs n x).hq = s.hq := rfl
@[simp] theorem setPcs_man (s : State) (n : Nat) (x : Pcs) : (s.setPcs n x).man = s.man := rfl
@[simp] theorem setPcs_pwr (s : State) (n : Nat) (x : Pcs) : (s.setPcs n x).pwr = s.pwr := rfl
@[simp] theorem setPcs_recu (s : State) (n : Nat) (x : Pcs) : (s.setPcs n x).recu = s.recu := rfl
@[simp] theorem setPcs_sec (s : State) (n : Nat) (x : Pcs) : (s.setPcs n x).sec = s.sec := rfl
@[simp] theorem setPcs_xng (s : State) (n : Nat) (x : Pcs) : (s.setPcs n x).xng = s.xng := rfl
@[simp] theorem setPcs_est (s : State) (n : Nat) (x : Pcs) : (s.setPcs n x).est = s.est := rfl
@[simp] theorem setPcs_prot (s : State) (n : Nat) (x : Pcs) : (s.setPcs n x).prot = s.prot := rfl
@[simp] theorem setPcs_disp (s : State) (n : Nat) (x : Pcs) : (s.setPcs n x).disp = { s.disp with pcs := tput s.disp.pcs n x } := rfl
@[simp] theorem setPcs_loop (s : State) (n : Nat) (x : Pcs) : (s.setPcs n x).loop = s.loop := rfl
@[simp] theorem setPcs_pos (s : State) (n : Nat) (x : Pcs) : (s.setPcs n x).pos = s.pos := rfl
@[simp] theorem setPcs_saf (s : State) (n : Nat) (x : Pcs) : (s.setPcs n x).saf = s.saf := rfl
@[simp] theorem setPcs_mbc (s : State) (n : Nat) (x : Pcs) : (s.setPcs n x).mbc = s.mbc := rfl
@[simp] theorem setPcs_ser (s : State) (n : Nat) (x : Pcs) : (s.setPcs n x).ser = s.ser := rfl
@[simp] theorem setPcs_car (s : State) (n : Nat) (x : Pcs) : (s.setPcs n x).car = s.car := rfl
@[simp] theorem setPcs_door (s : State) (n : Nat) (x : Pcs) : (s.setPcs n x).door = s.door := rfl
@[simp] theorem setPcs_grp (s : State) (n : Nat) (x : Pcs) : (s.setPcs n x).grp = s.grp := rfl
@[simp] theorem setPcs_fio (s : State) (n : Nat) (x : Pcs) : (s.setPcs n x).fio = s.fio := rfl
@[simp] theorem setPcs_acq (s : State) (n : Nat) (x : Pcs) : (s.setPcs n x).acq = s.acq := rfl
@[simp] theorem setPcs_net (s : State) (n : Nat) (x : Pcs) : (s.setPcs n x).net = s.net := rfl
@[simp] theorem setPcs_out (s : State) (n : Nat) (x : Pcs) : (s.setPcs n x).out = s.out := rfl
@[simp] theorem setPcs_free (s : State) (n : Nat) (x : Pcs) : (s.setPcs n x).free = s.free := rfl
@[simp] theorem setPcs_pending (s : State) (n : Nat) (x : Pcs) : (s.setPcs n x).pending = s.pending := rfl
@[simp] theorem setPcs_word (s : State) (n : Nat) (x : Pcs) (k : Nat) : (s.setPcs n x).word k = s.word k := rfl
@[simp] theorem setPcs_rd (s : State) (n : Nat) (x : Pcs) (k : Fld) : (s.setPcs n x).rd k = s.rd k := rfl
@[simp] theorem setPcs_on (s : State) (n : Nat) (x : Pcs) (k : Fld) : (s.setPcs n x).on k = s.on k := rfl
@[simp] theorem setCh_regs (s : State) (n : Nat) (x : PosCh) : (s.setCh n x).regs = s.regs := rfl
@[simp] theorem setCh_nv (s : State) (n : Nat) (x : PosCh) : (s.setCh n x).nv = s.nv := rfl
@[simp] theorem setCh_boll (s : State) (n : Nat) (x : PosCh) : (s.setCh n x).boll = s.boll := rfl
@[simp] theorem setCh_hq (s : State) (n : Nat) (x : PosCh) : (s.setCh n x).hq = s.hq := rfl
@[simp] theorem setCh_man (s : State) (n : Nat) (x : PosCh) : (s.setCh n x).man = s.man := rfl
@[simp] theorem setCh_pwr (s : State) (n : Nat) (x : PosCh) : (s.setCh n x).pwr = s.pwr := rfl
@[simp] theorem setCh_recu (s : State) (n : Nat) (x : PosCh) : (s.setCh n x).recu = s.recu := rfl
@[simp] theorem setCh_sec (s : State) (n : Nat) (x : PosCh) : (s.setCh n x).sec = s.sec := rfl
@[simp] theorem setCh_xng (s : State) (n : Nat) (x : PosCh) : (s.setCh n x).xng = s.xng := rfl
@[simp] theorem setCh_est (s : State) (n : Nat) (x : PosCh) : (s.setCh n x).est = s.est := rfl
@[simp] theorem setCh_prot (s : State) (n : Nat) (x : PosCh) : (s.setCh n x).prot = s.prot := rfl
@[simp] theorem setCh_disp (s : State) (n : Nat) (x : PosCh) : (s.setCh n x).disp = s.disp := rfl
@[simp] theorem setCh_loop (s : State) (n : Nat) (x : PosCh) : (s.setCh n x).loop = s.loop := rfl
@[simp] theorem setCh_pos (s : State) (n : Nat) (x : PosCh) : (s.setCh n x).pos = tput s.pos n x := rfl
@[simp] theorem setCh_saf (s : State) (n : Nat) (x : PosCh) : (s.setCh n x).saf = s.saf := rfl
@[simp] theorem setCh_mbc (s : State) (n : Nat) (x : PosCh) : (s.setCh n x).mbc = s.mbc := rfl
@[simp] theorem setCh_ser (s : State) (n : Nat) (x : PosCh) : (s.setCh n x).ser = s.ser := rfl
@[simp] theorem setCh_car (s : State) (n : Nat) (x : PosCh) : (s.setCh n x).car = s.car := rfl
@[simp] theorem setCh_door (s : State) (n : Nat) (x : PosCh) : (s.setCh n x).door = s.door := rfl
@[simp] theorem setCh_grp (s : State) (n : Nat) (x : PosCh) : (s.setCh n x).grp = s.grp := rfl
@[simp] theorem setCh_fio (s : State) (n : Nat) (x : PosCh) : (s.setCh n x).fio = s.fio := rfl
@[simp] theorem setCh_acq (s : State) (n : Nat) (x : PosCh) : (s.setCh n x).acq = s.acq := rfl
@[simp] theorem setCh_net (s : State) (n : Nat) (x : PosCh) : (s.setCh n x).net = s.net := rfl
@[simp] theorem setCh_out (s : State) (n : Nat) (x : PosCh) : (s.setCh n x).out = s.out := rfl
@[simp] theorem setCh_free (s : State) (n : Nat) (x : PosCh) : (s.setCh n x).free = s.free := rfl
@[simp] theorem setCh_pending (s : State) (n : Nat) (x : PosCh) : (s.setCh n x).pending = s.pending := rfl
@[simp] theorem setCh_word (s : State) (n : Nat) (x : PosCh) (k : Nat) : (s.setCh n x).word k = s.word k := rfl
@[simp] theorem setCh_rd (s : State) (n : Nat) (x : PosCh) (k : Fld) : (s.setCh n x).rd k = s.rd k := rfl
@[simp] theorem setCh_on (s : State) (n : Nat) (x : PosCh) (k : Fld) : (s.setCh n x).on k = s.on k := rfl
@[simp] theorem setRing_regs (s : State) (n : Nat) (x : Ring) : (s.setRing n x).regs = s.regs := rfl
@[simp] theorem setRing_nv (s : State) (n : Nat) (x : Ring) : (s.setRing n x).nv = s.nv := rfl
@[simp] theorem setRing_boll (s : State) (n : Nat) (x : Ring) : (s.setRing n x).boll = s.boll := rfl
@[simp] theorem setRing_hq (s : State) (n : Nat) (x : Ring) : (s.setRing n x).hq = s.hq := rfl
@[simp] theorem setRing_man (s : State) (n : Nat) (x : Ring) : (s.setRing n x).man = s.man := rfl
@[simp] theorem setRing_pwr (s : State) (n : Nat) (x : Ring) : (s.setRing n x).pwr = s.pwr := rfl
@[simp] theorem setRing_recu (s : State) (n : Nat) (x : Ring) : (s.setRing n x).recu = s.recu := rfl
@[simp] theorem setRing_sec (s : State) (n : Nat) (x : Ring) : (s.setRing n x).sec = s.sec := rfl
@[simp] theorem setRing_xng (s : State) (n : Nat) (x : Ring) : (s.setRing n x).xng = { s.xng with rings := tput s.xng.rings n x } := rfl
@[simp] theorem setRing_est (s : State) (n : Nat) (x : Ring) : (s.setRing n x).est = s.est := rfl
@[simp] theorem setRing_prot (s : State) (n : Nat) (x : Ring) : (s.setRing n x).prot = s.prot := rfl
@[simp] theorem setRing_disp (s : State) (n : Nat) (x : Ring) : (s.setRing n x).disp = s.disp := rfl
@[simp] theorem setRing_loop (s : State) (n : Nat) (x : Ring) : (s.setRing n x).loop = s.loop := rfl
@[simp] theorem setRing_pos (s : State) (n : Nat) (x : Ring) : (s.setRing n x).pos = s.pos := rfl
@[simp] theorem setRing_saf (s : State) (n : Nat) (x : Ring) : (s.setRing n x).saf = s.saf := rfl
@[simp] theorem setRing_mbc (s : State) (n : Nat) (x : Ring) : (s.setRing n x).mbc = s.mbc := rfl
@[simp] theorem setRing_ser (s : State) (n : Nat) (x : Ring) : (s.setRing n x).ser = s.ser := rfl
@[simp] theorem setRing_car (s : State) (n : Nat) (x : Ring) : (s.setRing n x).car = s.car := rfl
@[simp] theorem setRing_door (s : State) (n : Nat) (x : Ring) : (s.setRing n x).door = s.door := rfl
@[simp] theorem setRing_grp (s : State) (n : Nat) (x : Ring) : (s.setRing n x).grp = s.grp := rfl
@[simp] theorem setRing_fio (s : State) (n : Nat) (x : Ring) : (s.setRing n x).fio = s.fio := rfl
@[simp] theorem setRing_acq (s : State) (n : Nat) (x : Ring) : (s.setRing n x).acq = s.acq := rfl
@[simp] theorem setRing_net (s : State) (n : Nat) (x : Ring) : (s.setRing n x).net = s.net := rfl
@[simp] theorem setRing_out (s : State) (n : Nat) (x : Ring) : (s.setRing n x).out = s.out := rfl
@[simp] theorem setRing_free (s : State) (n : Nat) (x : Ring) : (s.setRing n x).free = s.free := rfl
@[simp] theorem setRing_pending (s : State) (n : Nat) (x : Ring) : (s.setRing n x).pending = s.pending := rfl
@[simp] theorem setRing_word (s : State) (n : Nat) (x : Ring) (k : Nat) : (s.setRing n x).word k = s.word k := rfl
@[simp] theorem setRing_rd (s : State) (n : Nat) (x : Ring) (k : Fld) : (s.setRing n x).rd k = s.rd k := rfl
@[simp] theorem setRing_on (s : State) (n : Nat) (x : Ring) (k : Fld) : (s.setRing n x).on k = s.on k := rfl

end Sys2Proof.Machine
end

