-- ==== Sys2Proof/Tests/Slice0.lean ====
section
/-!
SUPPORT. Tests of the model, and for every statement that has hypotheses a state and operands that meet them all.
-/
namespace Sys2Proof.Tests
open Sys2Proof Sys2Proof.Machine
set_option Elab.async false

/-! ## Ill-formed commands: one for each check, beside a well-formed one -/

theorem test_illFormed_gen : (Instr.hopTrained 0 0 true 0 1).wellFormed = false ∧ (Instr.hopTrained 0 0 true 1 3).wellFormed = false ∧
    (Instr.hopTrained 0 0 true 2 1).wellFormed = true := by decide
theorem test_illFormed_serial : (Instr.tlsHandshakeComplete 0 0 (2 ^ 160) [] true true true 0 0 ⟨0, 0, 0, 0, false, false⟩).wellFormed = false ∧
    (Instr.tlsHandshakeComplete 0 0 (2 ^ 160 - 1) [] true true true 0 0 ⟨0, 0, 0, 0, false, false⟩).wellFormed = true := by decide
theorem test_illFormed_alignment : (Instr.registerWrite 0 6 0).wellFormed = false ∧ (Instr.registerWrite 0 8 0).wellFormed = true := by decide
theorem test_illFormed_who : (Instr.registerWrite 9 0 0).wellFormed = false ∧ (Instr.registerWrite 0 0 0).wellFormed = true := by decide
theorem test_illFormed_addr : (Instr.registerWrite 0 (2 ^ 40) 0).wellFormed = false ∧ (Instr.registerWrite 0 0 0).wellFormed = true := by decide
theorem test_illFormed_session : (Instr.counterLowWordRead 8 0).wellFormed = false ∧ (Instr.counterLowWordRead 0 0).wellFormed = true := by decide
theorem test_illFormed_word : (Instr.powerGood false false false (2 ^ 32) 0 0).wellFormed = false ∧ (Instr.powerGood false false false 0 0 0).wellFormed = true := by decide
theorem test_illFormed_milli : (Instr.powerGood false false false 0 1000 0).wellFormed = false ∧ (Instr.powerGood false false false 0 0 0).wellFormed = true := by decide
theorem test_illFormed_byte : (Instr.selfTestDone (2 ^ 8) 0 0 0 0 0 0 [] false 0 false).wellFormed = false ∧ (Instr.selfTestDone 0 0 0 0 0 0 0 [] false 0 false).wellFormed = true := by decide
theorem test_illFormed_half : (Instr.selfTestDone 0 0 0 (2 ^ 16) 0 0 0 [] false 0 false).wellFormed = false ∧ (Instr.selfTestDone 0 0 0 0 0 0 0 [] false 0 false).wellFormed = true := by decide
theorem test_illFormed_partner : (Instr.partnerAbsentTimeout 5 0 0).wellFormed = false ∧ (Instr.partnerAbsentTimeout 0 0 0).wellFormed = true := by decide
theorem test_illFormed_key : (Instr.hostReset 0 256).wellFormed = false ∧ (Instr.hostReset 0 0).wellFormed = true := by decide
theorem test_illFormed_tag : (Instr.firmwareCommit 0 (2 ^ 32) false 0 0).wellFormed = false ∧ (Instr.firmwareCommit 0 0 false 0 0).wellFormed = true := by decide
theorem test_illFormed_wake : (Instr.wakeSourceEvent 7 0 0).wellFormed = false ∧ (Instr.wakeSourceEvent 0 0 0).wellFormed = true := by decide
theorem test_illFormed_domain : (Instr.pwrDomainReset 0 0 16).wellFormed = false ∧ (Instr.pwrDomainReset 0 0 0).wellFormed = true := by decide
theorem test_illFormed_long : (Instr.patchCommit 0 0 (2 ^ 64)).wellFormed = false ∧ (Instr.patchCommit 0 0 0).wellFormed = true := by decide
theorem test_illFormed_helmport : (Instr.helmConnect 5).wellFormed = false ∧ (Instr.helmConnect 0).wellFormed = true := by decide
theorem test_illFormed_anyaddr : (Instr.read 0 0 (2 ^ 40) 0).wellFormed = false ∧ (Instr.read 0 0 0 0).wellFormed = true := by decide
theorem test_illFormed_queue : (Instr.queuePush 0 0 4 []).wellFormed = false ∧ (Instr.queuePush 0 0 0 []).wellFormed = true := by decide
theorem test_illFormed_ring : (Instr.hopTrained 16 0 false 1 1).wellFormed = false ∧ (Instr.hopTrained 0 0 false 1 1).wellFormed = true := by decide
theorem test_illFormed_berth : (Instr.hopTrained 0 512 false 1 1).wellFormed = false ∧ (Instr.hopTrained 0 0 false 1 1).wellFormed = true := by decide
theorem test_illFormed_string : (Instr.restComplete 4096).wellFormed = false ∧ (Instr.restComplete 0).wellFormed = true := by decide
theorem test_illFormed_container : (Instr.containerClosingTimeout 256).wellFormed = false ∧ (Instr.containerClosingTimeout 0).wellFormed = true := by decide
theorem test_illFormed_pcs : (Instr.pcsLostTimeout 64).wellFormed = false ∧ (Instr.pcsLostTimeout 0).wellFormed = true := by decide
theorem test_illFormed_edge : (Instr.syncEdge 31501).wellFormed = false ∧ (Instr.syncEdge 0).wellFormed = true := by decide
theorem test_illFormed_pulse : (Instr.pwmFaultInput 4 false).wellFormed = false ∧ (Instr.pwmFaultInput 0 false).wellFormed = true := by decide
theorem test_illFormed_fixture : (Instr.fixturePress 1024 0 false).wellFormed = false ∧ (Instr.fixturePress 0 0 false).wellFormed = true := by decide
theorem test_illFormed_car : (Instr.parkingDelayExpiry 8).wellFormed = false ∧ (Instr.parkingDelayExpiry 0).wellFormed = true := by decide
theorem test_illFormed_drive : (Instr.latchEdge 0 8 false 0 0).wellFormed = false ∧ (Instr.latchEdge 0 0 false 0 0).wellFormed = true := by decide
theorem test_illFormed_landing : (Instr.targetWrite 0 128 0).wellFormed = false ∧ (Instr.targetWrite 0 0 0).wellFormed = true := by decide
theorem test_illFormed_tech : (Instr.targetWrite 0 0 2).wellFormed = false ∧ (Instr.targetWrite 0 0 0).wellFormed = true := by decide
theorem test_illFormed_door : (Instr.doorStatusFrame 16 []).wellFormed = false ∧ (Instr.doorStatusFrame 0 []).wellFormed = true := by decide
theorem test_illFormed_safinput : (Instr.safetyInputChange 33 false).wellFormed = false ∧ (Instr.safetyInputChange 0 false).wellFormed = true := by decide
theorem test_illFormed_safoutput : (Instr.runRequestToggle 24).wellFormed = false ∧ (Instr.runRequestToggle 0).wellFormed = true := by decide
theorem test_illFormed_conn : (Instr.safetyDataFrame 256 []).wellFormed = false ∧ (Instr.safetyDataFrame 0 []).wellFormed = true := by decide
theorem test_illFormed_fieldinput : (Instr.fieldInputChange 64 false).wellFormed = false ∧ (Instr.fieldInputChange 0 false).wellFormed = true := by decide
theorem test_illFormed_fieldoutput : (Instr.outputShort 32).wellFormed = false ∧ (Instr.outputShort 0).wellFormed = true := by decide
theorem test_illFormed_bus : (Instr.canFrameReceived 12 0 0 0 [] 0).wellFormed = false ∧ (Instr.canFrameReceived 0 0 0 0 [] 0).wellFormed = true := by decide
theorem test_illFormed_line : (Instr.serialPoll 4 false).wellFormed = false ∧ (Instr.serialPoll 0 false).wellFormed = true := by decide
theorem test_illFormed_port : (Instr.ptpSyncReceived 4 0 0).wellFormed = false ∧ (Instr.ptpSyncReceived 0 0 0).wellFormed = true := by decide
theorem test_illFormed_buffer : (Instr.acqSample 64 [] 0).wellFormed = false ∧ (Instr.acqSample 0 [] 0).wellFormed = true := by decide
theorem test_illFormed_tamper : (Instr.tamperTrip 8).wellFormed = false ∧ (Instr.tamperTrip 0).wellFormed = true := by decide
theorem test_illFormed_core : (Instr.coreHaltEffective 10).wellFormed = false ∧ (Instr.coreHaltEffective 0).wellFormed = true := by decide

/-! ## States for the witnesses -/

/-- The rails on, in a stage of the start. -/
def on (n : Nat) : State := { State.reset with boll := { State.reset.boll with phase := .on } }.wr R.SYS_START_STATUS_STAGE n
/-- An open session with every role, held as number 0, with a Helm CA in its slot. -/
def caller : Session := ⟨1, false, 31, 31, 0, [], [], [], [], [], none, none, [], [], 0, 0⟩
def opened (s : State) : State :=
  { s with hq := { s.hq with sessions := [(0, caller)] }, nv := { s.nv with keys := [(5, [1#8])] } }
/-- A command running from a queue for that session. -/
def task (q code inst : Nat) (args : List Byte) : Cmd := ⟨0, 0, 1, 5, code, inst, args⟩
def served (q : Nat) (c : Cmd) (s : State) : State := { opened s with hq := { (opened s).hq with running := [(q, c)] } }
/-- Records in force. -/
def recs (l : List CfgRec) (s : State) : State := { s with man := { s.man with cfg := l } }
/-- A record with given bytes at given offsets. -/
def rec' (sec kind id len : Nat) (l : List (Nat × Nat)) : CfgRec :=
  ⟨sec, kind, id, (List.range len).map fun o => BitVec.ofNat 8 (tgetD l o 0)⟩
def got (src tag typ flags seq : Nat) (payload : List Byte) : Rx := ⟨0x1FE, src, tag, typ, flags, seq, payload⟩
/-- A crossing of bank 0 with a string node at berth 4 and a container node at berth 5. -/
def plant : List CfgRec :=
  [rec' 1 1 0 48 [(0x10, 1)], rec' 5 1 0 32 [], rec' 5 2 0 32 [(0x10, 5)], rec' 5 3 0 32 [(0x10, 4)]]
def node' (state serial : Nat) : Node := { Node.unknown with state := state, serial := serial }
/-- UNDERWAY with that plant; crossing 0 holds what is given. -/
def ringed (r : Ring) (txns : Tbl Txn) : State :=
  let s := recs plant (opened (on 9))
  ({ s with xng := { State.reset.xng with rings := [(0, r)], txns := txns } }.wr (R.XNG_SLEEP_STATUS_STATE 0) 0).wr R.PWR_THERMAL_STATUS_STAGE 0
/-- The string and its container are JOINED on crossing 0, UNDERWAY. -/
def joined : State := ringed { Ring.empty with nodes := [(4, node' 3 77), (5, node' 3 78)] } []
/-- The string may close: it converges, its intent is set, and no cell speaks against it. -/
def closable : State :=
  let s := joined.modEst 0 fun x => { x with state := 2, cells := [] }
  { s with nv := { s.nv with intentStr := [0], intentCon := [0] } }
/-- UNDERWAY with car 0, its safety side NORMAL and nothing against a start. -/
def lift : State :=
  let s := recs [rec' 6 2 0 128 [(0x40, 3)], rec' 6 1 0 32 [], rec' 6 1 1 32 [(0x12, 48)], rec' 6 4 0 96 [(0x11, 0), (0x12, 8), (0x13, 8)], rec' 6 3 0 128 []] (opened (on 9))
  let s := ((s.wr R.SAF_TECH_STATUS_PROC_STATE 2).wr R.SAF_TECH_STATUS_HW_STATE 2).wrB R.SAF_STATUS_UNCONFIRMED false
  let s := ((s.wr (R.SAF_CAR_MODE_MODE 0) 1).wrB (R.CAR_DRIVE_STATUS_LOST 0) false).wr (R.CAR_DRIVE_STATUS_FLAGS 0) 0
  ((s.wr (R.DOOR_STATUS_STATE 0) 1).wr (R.CAR_STATUS_STATE 0) 1).wr R.SAF_EDM_FAULT 0
/-- That car stands at landing 0, whose one door it has. -/
def landed : State :=
  recs [rec' 6 2 0 128 [(0x40, 3)], rec' 6 1 0 32 [(0x1C, 1)], rec' 6 1 1 32 [(0x12, 48)], rec' 6 3 0 128 []] (lift.wrB (R.SAF_EDM_STATE.bit 1) false)
def busy (c : Cmd) (s : State) : State := { s with hq := { s.hq with running := [(1, c)] } }
/-- The safety side evaluates. -/
def safe : State := lift.wrB R.SAF_STATUS_RUNNING true
/-- One safety connection in slot 2, of two data bytes, over Ethernet; `p` says that the Turid produces it. -/
def linked (p : Bool) (x : Conn) : State :=
  recs [rec' 9 4 77 160 [(0x14, 2), (0x16, if p then 1 else 0), (0x17, 1), (0x19, 2)]] (safe.modSaf fun y => { y with conns := [(2, x)] })
def link (p : Bool) : CfgRec := rec' 9 4 77 160 [(0x14, 2), (0x16, if p then 1 else 0), (0x17, 1), (0x19, 2)]
/-- The field side runs with its outputs enabled; outputs 0 to 31 exist where listed. -/
def field (l : List CfgRec) : State :=
  let s := recs l (opened (on 9))
  ((((s.wrB R.FIO_STATUS_RUNNING true).wrB R.FIO_STATUS_OUTPUTS_ENABLED true).wrB R.FIO_FIELD_STATUS_LINK_LOST false).wr R.FIO_OUT_FAULT 0).wr R.FIO_OUT_FAULT_LATCH 0
/-- A used CAN bus with this controller state, its record with the given bytes. -/
def bus (b : Nat) (x : Mbc) (l : List (Nat × Nat)) : State :=
  let s := ((recs [rec' 10 6 b 48 l, rec' 13 1 3 64 [], rec' 11 7 0 48 []] (opened (on 9))).modMbc b fun _ => x).wr (R.MBC_STATUS_STATE b) 1
  (((((s.wr (R.MBC_STATUS_FORMAT b) 2).wr (R.MBC_ERROR_COUNTERS b |>.part 0 32) 0).wr (R.MBC_SLEEP_STATUS b |>.part 0 32) 0).wrB (R.MBC_STATUS_RECOVERY_INHIBITED b) false).wr R.PWR_GLIDE_STATUS 0).wr (R.MBC_REF_CYCLES b |>.part 0 32) 0
/-- Line 0 polls; node 5 on it is fixture 9. -/
def line (x : Ser) : State :=
  let s := recs [rec' 11 6 9 64 [(0x10, 1), (0x11, 0), (0x12, 5)]] (opened (on 9))
  ({ s with ser := [(0, x)] }).wr (serState 0) 1
/-- J2 and J3 are a PRP pair with every service, the Turid a boundary clock; J4 is a PTP port. -/
def netted : State :=
  let s := recs [rec' 10 1 0 48 [(0x11, 15)], rec' 10 1 1 48 [(0x11, 15)], rec' 10 1 2 48 [(0x11, 8)], rec' 10 2 0 32 [(0x12, 128), (0x13, 128)],
    rec' 10 4 0 32 [(0x10, 1), (0x11, 4), (0x14, 9)]] (opened (on 9))
  ((((s.wr (R.NET_PRP_STATUS.part 0 32) 4).wr (R.NET_PTP_PORT_STATES.part 0 32) 0x211).wr R.NET_PTP_STATUS_PARENT_PORT 0xF).wr R.PWR_PLANT_TIME_STATUS_STATE 0).wr R.NET_PTP_STATUS_STATE 0
/-- Acquisition runs with buffer 3 as given: precision analog, one channel, 3 segments, 16 frames; `f` are its flags and `p` the
pre-trigger share. -/
def scope (f p : Nat) (x : AcqBuf) : State :=
  let s := recs [rec' 12 1 3 168 [(0x10, 1), (0x11, 1), (0x12, 3), (0x13, f), (0x14, 1), (0x18, 16), (0x1C, p), (0x1D, 255)]] (opened (on 9))
  (({ s with acq := ⟨[(3, x)], 40, [], []⟩ }.wrB R.ACQ_STATUS_RUNNING true).wr R.PWR_THERMAL_STATUS_STAGE 0)
def scopeRec (f p : Nat) : CfgRec := rec' 12 1 3 168 [(0x10, 1), (0x11, 1), (0x12, 3), (0x13, f), (0x14, 1), (0x18, 16), (0x1C, p), (0x1D, 255)]
/-- A kept record of three frames. -/
def kept : AcqRec := { AcqRec.fresh with status := 1, seq := 39, frames := [[1#32], [5#32], [2#32]], total := 3, period := 31250, owned := true }
/-- The commissioning key switch is active, UNDERWAY. -/
def keyed' (life : Nat) : State :=
  ((((((((opened (on 9)).wrB R.SAF_STATUS_KEY_SWITCH true).wr R.SEC_LIFECYCLE_STATE life).wr R.SEC_DEBUG_STATUS 0).wrB R.SYS_START_STATUS_MOORING false).wr R.REC_STATUS 0).wr
    R.DBG_HALT_REQUEST 0).wr R.DBG_HALT_STATUS 0).wr R.DBG_HALT_DEFERRED 0 |>.wr R.PLT_EVAC_STATUS_EVACUATION 0 |>.wr R.PWR_GLIDE_STATUS 0 |>.wr R.PLT_MEASURED_POWER 0
/-- A debug session with every permission is open, bound to session 0. -/
def debugged (life : Nat) : State :=
  let s := (((keyed' life).wr R.SEC_DEBUG_STATUS_STATE 1).wr R.SEC_DEBUG_STATUS_PERMISSIONS 31).wr R.SEC_TOKEN_EXPIRY (2 ^ 32 - 1)
  ({ s with sec := { s.sec with debugUid := some 1 } }.wr R.SYS_SELFTEST_CORES_GOOD 10).wr R.PWR_OP_SECONDS 5
/-- The staging buffer begins with these bytes. -/
def staged (b : List Byte) (s : State) : State := s.stagePut b
theorem regsOk_on (n : Nat) : RegsOk (on n).regs := by
  unfold on
  refine regsOk_wr _ _ _ ?_
  exact regsOk_nil
theorem regsOk_opened : RegsOk (opened (on 9)).regs := regsOk_on 9

/-! ## Single steps, with results from the spec -/

/-- The state that a command answers. -/
def next (c : Instr) (s : State) : State :=
  match exec c s with
  | .next t => t
  | _ => s
/-- R207: the check value of the CRC. -/
theorem test_crc32c_check_value :
    crc32c [0x31#8, 0x32#8, 0x33#8, 0x34#8, 0x35#8, 0x36#8, 0x37#8, 0x38#8, 0x39#8] = 0xE3069283#32 := by decide +kernel
/-- R94: the first start after manufacture raises the count to 1. -/
theorem test_power_good_counts_the_start :
    (next (.powerGood true false true 5 0 120) State.reset).rd R.SYS_FAILED_STARTS = 1 ∧
      (next (.powerGood true false true 5 0 120) State.reset).powered = true := by decide +kernel
/-- R94: a count of 3 stays. -/
theorem test_power_good_keeps_a_count_of_three :
    (next (.powerGood true false true 5 0 120) (State.reset.wr R.SYS_FAILED_STARTS 3)).rd R.SYS_FAILED_STARTS = 3 := by decide +kernel
/-- R7: a W1C bit written 1 is cleared, its neighbour stays. -/
theorem test_w1c_clears_the_bits_written :
    (next (.registerWrite 8 R.HQ_EVENT_STATUS_PROMOTION.addr (1#32 <<< R.HQ_EVENT_STATUS_PROMOTION.lo))
      (((on 9).wrB R.HQ_EVENT_STATUS_PROMOTION true).wrB (R.HQ_EQ_LOST 0) true)).on R.HQ_EVENT_STATUS_PROMOTION = false := by decide +kernel
/-- R7: a read-only register ignores a write. -/
theorem test_read_only_ignores_writes :
    (next (.registerWrite 8 R.REC_CAPACITY.addr 0#32) (on 9)).rd R.REC_CAPACITY = 0x03FBB000 := by decide +kernel
/-- R717: a control write without KEY 0xA5 is ignored. -/
theorem test_unkeyed_berth_is_ignored : next (.enterBerth 0 0xA4) (opened (on 9)) = opened (on 9) := by decide +kernel
/-- R663: the capacity of the recorder in bytes. -/
theorem test_reset_capacity : State.reset.rd R.REC_CAPACITY = 66826240 := by decide +kernel
/-- Bytes of a record with binary32 fields. -/
def f32Bytes (x : Rat) : List Byte := le 4 (f32Round false x).toNat
def recordOf (len : Nat) (l : List (Nat × List Byte)) : List Byte :=
  (List.range len).map fun o =>
    match l.find? (fun p => decide (p.1 ≤ o) && decide (o < p.1 + p.2.length)) with
    | some p => p.2.getD (o - p.1) 0#8
    | none => 0#8
/-- The six cars and the reserve of the worked examples after R357 and R432, with car 1 at L15 and car 0 at L21. -/
def hollin : State :=
  let car (c : Nat) : CfgRec := ⟨6, 2, c, recordOf 136 [(0x10, f32Bytes 2000), (0x14, f32Bytes (1 / 2)), (0x18, f32Bytes 4),
    (0x1C, f32Bytes 1), (0x20, f32Bytes (16 / 10)), (0x40, [0x09#8, 0x80#8, 0x20#8])]⟩
  let landing (l mm : Nat) : CfgRec := ⟨6, 1, l, recordOf 32 [(0x10, le 8 (mm * 1000))]⟩
  let s := recs ((List.range 6).map car ++ [landing 0 0, landing 3 21000, landing 15 104000, landing 21 146000, ⟨7, 1, 0, recordOf 64 []⟩,
    ⟨8, 4, 0, recordOf 64 [(0x10, f32Bytes 1800000), (0x14, f32Bytes 10800), (0x18, le 2 40), (0x2C, f32Bytes 8000)]⟩]) (on 9)
  ((s.modCh 1 fun x => { x with fused := 104000000 * 65536 }).modCh 0 fun x => { x with fused := 146000000 * 65536 }).wr R.PLT_DISP_STATUS_MODE 1
/-- R333, R334: Ereq is 6,813,418 Wh and Eband 340,671 Wh. -/
theorem test_reserve_of_the_worked_example : ratRne hollin.eReq = 6813418 ∧ ratRne hollin.eBand = 340671 := by decide +kernel
/-- R338: a car's peak power is 62,033 W. -/
theorem test_peak_power_of_the_worked_example : ratRne (hollin.peakPower 0) = 62033 := by decide +kernel
/-- R418: the call from L3 to L21 costs car 1 33.750 s and 418.73 Wh, car 0 47.577 s. -/
theorem test_call_cost_of_the_worked_example :
    let k := { Call.blank with kind := 2, landing := 3, dest := 21 }
    ratRne ((hollin.costOf 1 5 k).1 * 1000) = 33750 ∧ ratRne ((hollin.costOf 1 5 k).2.1 * 100) = 41873 ∧
      ratRne ((hollin.costOf 0 5 k).1 * 1000) = 47577 := by decide +kernel
/-- R634: the crossing of 800 V in the worked example lies at 124 of 256. -/
theorem test_trigger_fraction_of_the_worked_example :
    crossing (some (7974 / 10)) (7991 / 10) 801 (some (8031 / 10)) 800 = 124 := by decide +kernel
/-- R372, R374: 1 + 2 and the flush of a subnormal input. -/
theorem test_vm_add_and_flush : f32AddW 0x3F800000#32 0x40000000#32 = 0x40400000#32 ∧ flushW 0x80000001#32 = 0x80000000#32 := by decide +kernel

/-! ## The hypotheses of the statements can be met -/

/-- A sound state with a command waiting. -/
def waiting : State := { opened (on 9) with pending := [.opMsRead 0, .stageTimeout] }
theorem sound_waiting : waiting.Sound := ⟨regsOk_opened, by decide +kernel⟩
theorem witness_EmptyQueueIdles : State.reset.pending = [] := rfl
theorem witness_EveryStepKeepsTheStateSound : waiting.Sound ∧ ∃ t, step waiting = .next t := ⟨sound_waiting, _, rfl⟩
theorem witness_WhatIsSentStays : ∃ t, step waiting = .next t := ⟨_, rfl⟩
theorem witness_TheQueueIsWorkedOffInOrder : 2 ≤ waiting.pending.length := by decide
theorem witness_ControlWritesNeedTheirKey :
    (0 : Nat) ≠ 0xA5 ∧ (opened (on 9)).keyed 0 0xA4 = false ∧ State.reset.keyed 0 0xA5 = false := by decide +kernel
theorem witness_RolesFollowTheCertificate :
    (opened (on 9)).takes 0 3 0x50 0 = true ∧ (opened (on 9)).session 0 = some caller := by decide +kernel
/-- A session that has read the low word of the tick counter and of plant time, and `PWR_OP_MS`. -/
def reader : Session :=
  { caller with shadow := [(R.PWR_TICK_LO.addr, 5#32), (R.PWR_PLANT_TIME_LO.addr, 6#32)], opShadow := some 7#32 }
def reading : State := (opened (on 9)).setSession 0 reader
theorem witness_OperatingSecondsAndCountersReadAsPairs :
    (opened (on 9)).isOpen 0 = true ∧ reading.session 0 = some reader ∧ reader.opShadow = some 7#32 ∧
      tget reader.shadow R.PWR_TICK_LO.addr = some 5#32 ∧ tget reader.shadow R.PWR_PLANT_TIME_LO.addr = some 6#32 := by decide +kernel
/-- Output 31 exists, is commanded on, and only its supply holds it off. -/
def starved : State :=
  (((field [rec' 11 2 31 64 []]).wr R.FIO_OUT_COMMAND (2 ^ 31)).wr R.FIO_FIELD_STATUS_LPLUS_LOW 8).wr R.FIO_OUT_SILENT 0
theorem witness_FieldSupplyLossSwitchesItsGroupOff :
    starved.fioRuns = true ∧ bit (starved.rd R.FIO_FIELD_STATUS_LPLUS_LOW) 2 = false ∧
      bit (starved.rd R.FIO_FIELD_STATUS_LPLUS_LOW) 3 = true ∧ (starved.foutRec 31).isSome = true ∧
      starved.on R.FIO_STATUS_OUTPUTS_ENABLED = true ∧ starved.on R.FIO_FIELD_STATUS_LINK_LOST = false ∧
      starved.outBit R.FIO_OUT_SILENT 31 = false ∧ starved.outBit R.FIO_OUT_FAULT 31 = false ∧
      starved.outBit R.FIO_OUT_FAULT_LATCH 31 = false ∧ starved.outBit R.FIO_DEMAG_HOLD 31 = false := by decide +kernel
/-- A patch waits for the boundary of tick 100. -/
def patching (tick : Nat) : State :=
  { opened ((((on 9).wr R.MAN_PATCH_STATUS_STATE 3).wr R.PWR_TICK_LO tick).wr R.PWR_TICK_HI 0) with
    man := { (on 9).man with patch := some ⟨0, 1, 7, 1, 0, 100, []⟩ } }
theorem witness_AbortPatchCancelsUntilItsLastMillisecond :
    (patching 0).keyed 0 0xA5 = true ∧ (patching 0).man.patch = some ⟨0, 1, 7, 1, 0, 100, []⟩ ∧
      (patching 0).rd R.MAN_PATCH_STATUS_STATE = 3 ∧ (patching 0).tick + 100 ≤ 100 ∧
      (patching 1).keyed 0 0xA5 = true ∧ (patching 1).rd R.MAN_PATCH_STATUS_STATE = 3 ∧ 100 < (patching 1).tick + 100 := by decide +kernel
theorem witness_PlainWritesFollowTheAccessCodes :
    (opened (on 9)).isOpen 0 = true ∧ (opened (on 9)).holds 0 2 = true ∧ isSelect R.SYS_SCRATCH.addr = false ∧
      isSelect R.PLT_STRING_SELECT.addr = true ∧ 8 ≤ 8 := by decide +kernel
theorem witness_ReadsClearAndFreeze :
    (opened (on 9)).isOpen 0 = true ∧ isLow R.PWR_TICK_LO.addr = true ∧ (debugged 2).debugger 0 = true ∧
      (debugged 2).holds 0 2 = true ∧ writableLow 0x140010 = true ∧ writableLow 0x140098 = true ∧
      (debugged 2).debugMay 3 = true := by decide +kernel
theorem witness_StartStagesAdvance_1 :
    let a : Bool := true; let b : Bool := false; let bkp : Bool := true; let sec : Nat := 5; let msec : Nat := 3; let ms : Nat := 120; let s : State := State.reset;
    (a || b) = true ∧ s.boll.phase = .power ∧ s.boll.attempt = false ∧ s.rd R.SYS_FAILED_STARTS % 256 < 3 := by decide +kernel
theorem witness_StartStagesAdvance_2 :
    let s : State := ((((on 3).wrB R.SAF_STATUS_PROC_OK true).wrB R.SAF_STATUS_HW_OK true).wr R.SEC_LIFECYCLE_STATE 2).slotTo 0 ACTIVE;
    s.inBoot = true ∧ s.boll.toRecovery = false ∧ s.bootImage = some false ∧ s.techsPassed = true ∧ s.lifecycle < 3 ∧ s.slotState 0 = ACTIVE := by decide +kernel
theorem witness_StartStagesAdvance_3 :
    let s : State := on 3;
    s.inBoot = true := by decide +kernel
theorem witness_StartStagesAdvance_4 :
    let s : State := (((on 3).wrB (R.SEC_STATUS.bit 3) true).wr R.SEC_LIFECYCLE_STATE 2).slotTo 0 ACTIVE;
    s.powered = true ∧ s.stage = 3 ∧ s.booted = true ∧ s.techsPassed = false ∧ s.lifecycle < 3 ∧ s.slotState 0 = ACTIVE := by decide +kernel
theorem witness_StartStagesAdvance_5 :
    let s : State := on 5;
    s.powered = true ∧ s.stage = 5 := by decide +kernel
theorem witness_StartStagesAdvance_6 :
    let xng : Nat := 0; let pos : Nat := 1; let mbc : Nat := 0; let ser : Nat := 0; let nvm : Nat := 1; let s : State := on 6;
    s.powered = true ∧ s.stage = 6 ∧ 1 ≤ nvm ∧ 1 ≤ pairsOf s.goodPipes.length ∧ (List.range 16).any (fun n => bit xng n && s.xngUsed n) = false := by decide +kernel
theorem witness_StartStagesAdvance_7 :
    let s : State := on 7;
    s.powered = true ∧ s.stage = 7 := by decide +kernel
theorem witness_StartStagesAdvance_8 :
    let s : State := on 8;
    s.powered = true ∧ s.stage = 8 ∧ s.partners.all (fun p => s.answered p || s.xng.absent.contains p) = true := by decide +kernel
theorem witness_StartStagesAdvance_9 :
    let kind : Nat := 1; let a : Nat := 3; let b : Nat := 0; let s : State := recs [rec' 5 4 3 48 []] (on 8);
    s.powered = true ∧ s.stage = 8 ∧ s.partners.contains (kind, a, b) = true ∧ s.answered (kind, a, b) = false := by decide +kernel
theorem witness_StartsEndInAReset_1 :
    let s : State := on 6;
    s.powered = true ∧ 5 ≤ s.stage ∧ s.stage ≤ 7 := by decide +kernel
theorem witness_StartsEndInAReset_2 :
    let s : State := on 3;
    s.powered = true ∧ (s.stage = 3 ∨ s.stage = 4) := by decide +kernel
theorem witness_StartsEndInAReset_3 :
    let s : State := on 8;
    s.powered = true ∧ s.stage < 9 := by decide +kernel
theorem witness_StartsEndInAReset_4 :
    let sess : Nat := 0; let s : State := (opened (on 9)).wrB (R.SEC_STATUS.bit 3) true;
    s.engineer sess = true ∧ s.booted = true ∧ s.recovery = false := by decide +kernel
theorem witness_StartsEndInAReset_5 :
    let sess : Nat := 0; let s : State := (opened (on 0xB)).wrB R.SYS_START_STATUS_MOORING true;
    s.engineer sess = true ∧ s.mooring = true ∧ s.recovery = false := by decide +kernel
theorem witness_StartsEndInAReset_6 :
    let s : State := on 9;
    s.powered = true := by decide +kernel
theorem witness_StartsEndInAReset_7 :
    let s : State := on 9;
    s.powered = true := by decide +kernel
theorem witness_StartsEndInAReset_8 :
    let s : State := (on 9).wr R.LOOP_STATUS_ENGINE 3;
    s.powered = true ∧ s.engine = HALTED := by decide +kernel
theorem witness_StartsEndInAReset_9 :
    let s : State := (on 9).wrB R.PWR_WATCHDOG_STATUS_RUNNING true;
    s.powered = true ∧ s.on R.PWR_WATCHDOG_STATUS_RUNNING = true := by decide +kernel
theorem witness_StartsEndInAReset_10 :
    let s : State := on 9;
    s.powered = true := by decide +kernel
theorem witness_StartsEndInAReset_11 :
    let sess : Nat := 0; let tag : Nat := 4; let version : Nat := 9; let floor : Nat := 2; let g : Staging := ⟨0, 1, 2, 1, 0, [7#8]⟩; let s : State := { opened (on 0xC) with man := { (on 0xC).man with stage := some ⟨0, 1, 2, 1, 0, [7#8]⟩ } };
    s.recovery = true ∧ s.takes sess tag 0x32 4 = true ∧ s.ownStage sess = some g ∧ g.kind = 2 ∧ g.bytes.length = g.len ∧ s.rd R.SEC_FW_FLOOR ≤ version := by decide +kernel
theorem witness_AStartSucceedsAndHolds_1 :
    let s : State := (on 9).wr R.SYS_FAILED_STARTS 2;
    s.powered = true ∧ s.stage = 9 ∧ s.on R.SYS_START_STATUS_SUCCEEDED = false := by decide +kernel
theorem witness_AStartSucceedsAndHolds_2 :
    let n : Nat := 15; let s : State := on 0xA;
    s.powered = true ∧ s.stage = 0xA ∧ s.mooring = false ∧ n < 16 ∧ s.sleepState n < 3 := by decide +kernel
theorem witness_AStartSucceedsAndHolds_3 :
    let s : State := (on 9).wrB R.PWR_WATCHDOG_STATUS_RUNNING true;
    s.on R.PWR_WATCHDOG_STATUS_RUNNING = true := by decide +kernel
theorem witness_PowerStatesChange_1 :
    let s : State := recs [rec' 1 1 0 48 [(0x13, 1), (0x15, 0x50), (0x16, 0x43), (0x17, 0x47)]] ((on 9).wr R.PWR_GLIDE_STATUS 0);
    s.underway = true ∧ s.rd R.PWR_STATE_STATE = 1 ∧ s.glideBits = 0 := by decide +kernel
theorem witness_PowerStatesChange_2 :
    let s : State := (on 9).wr R.PWR_STATE_STATE 4;
    s.powered = true ∧ s.rd R.PWR_STATE_STATE = 4 ∧ s.noWait = true := by decide +kernel
theorem witness_PowerStatesChange_3 :
    let sess : Nat := 0; let s : State := ((opened (on 9)).wrB R.SYS_START_STATUS_SUCCEEDED true).wr R.PWR_GLIDE_STATUS 0;
    s.powered = true ∧ s.isOpen sess = true ∧ s.pwr.berthRun = false ∧ s.berthCase sess = 1 := by decide +kernel
theorem witness_PowerStatesChange_4 :
    let sess : Nat := 0; let s : State := { opened (on 9) with pwr := { (on 9).pwr with berthRun := true } };
    s.engineer sess = true ∧ s.pwr.berthRun = true := by decide +kernel
theorem witness_PowerStatesChange_5 :
    let s : State := ({ on 9 with pwr := { (on 9).pwr with berthRun := true } }).wr R.PWR_WAKE_LATCH 0;
    s.powered = true ∧ s.pwr.berthRun = true ∧ s.est.ckptRun = none ∧ s.rd R.PWR_WAKE_LATCH % 128 = 0 := by decide +kernel
theorem witness_PowerStatesChange_6 :
    let s : State := ((on 9).wrB R.PWR_SUPPLY_STATUS_A_GOOD true).wrB R.PWR_SUPPLY_STATUS_B_GOOD true;
    s.powered = true ∧ s.on R.PWR_SUPPLY_STATUS_A_GOOD = true ∧ s.on R.PWR_SUPPLY_STATUS_B_GOOD = true := by decide +kernel
theorem witness_PowerStatesChange_7 :
    let s : State := (on 9).wrB R.PWR_SUPPLY_STATUS_B_GOOD false;
    s.boll.phase ≠ .off ∧ s.on R.PWR_SUPPLY_STATUS_B_GOOD = false := by decide +kernel
theorem witness_PowerStatesChange_8 :
    let torn : Bool := true; let s : State := ((on 9).wrB R.PWR_SUPPLY_STATUS_A_GOOD true).wrB R.PWR_SUPPLY_STATUS_BKP_GOOD true;
    s.powered = true ∧ s.mainGood = true ∧ s.on R.PWR_SUPPLY_STATUS_BKP_GOOD = true := by decide +kernel
theorem witness_PowerStatesChange_9 :
    let torn : Bool := false; let s : State := on 9;
    s.boll.phase ≠ .off := by decide +kernel
theorem witness_PowerStatesChange_10 :
    let n : Nat := 4; let sec : Nat := 9; let ms : Nat := 1; let s : State := ((on 9).wrB R.PWR_SUPPLY_STATUS_A_GOOD true).wr R.PWR_WAKE_ENABLE 16;
    s.boll.phase ≠ .off ∧ s.pwr.berthRun = false ∧ n < 7 ∧ (2 < n → s.mainGood = true) ∧ (n = 0 ∨ n = 2 ∨ bit (s.rd R.PWR_WAKE_ENABLE) n = true) := by decide +kernel
theorem witness_PowerStatesChange_11 :
    let s : State := (({ State.reset with boll := { State.reset.boll with phase := .berth } }).wr R.PWR_WAKE_LATCH 4).wrB R.PWR_SUPPLY_STATUS_A_GOOD true;
    s.boll.phase = .berth ∧ s.rd R.PWR_WAKE_LATCH % 128 ≠ 0 ∧ s.mainGood = true := by decide +kernel
theorem witness_PowerStatesChange_12 :
    let sec : Nat := 4294967280; let s : State := (on 9).wr R.PWR_OP_SECONDS 7;
    s.powered = true ∧ sec % 60 = 0 ∧ s.opSec < sec ∧ sec < 2 ^ 32 := by decide +kernel
theorem witness_DomainsAndStagesChange_1 :
    let sess : Nat := 0; let d : Nat := 13; let s : State := (opened (on 9)).wr R.PWR_GLIDE_STATUS 0;
    s.powered = true ∧ s.engineer sess = true ∧ s.isOpen sess = true ∧ s.pwr.resetDom = none ∧ s.motion = false ∧ (d = 3 ∨ d = 4 ∨ d = 7 ∨ (8 ≤ d ∧ d < 14)) := by decide +kernel
theorem witness_DomainsAndStagesChange_2 :
    let d : Nat := 10; let s : State := { on 9 with pwr := { (on 9).pwr with resetDom := some 10 } };
    s.powered = true ∧ s.pwr.resetDom = some d ∧ d < 16 ∧ s.noWait = true ∧ s.rd (R.PWR_DOMAIN_STATUS_RESETS d) < 255 := by decide +kernel
theorem witness_DomainsAndStagesChange_3 :
    let who : Nat := 8; let mask : Nat := 0xFFFF; let s : State := on 9;
    s.powered = true ∧ (8 ≤ who ∨ s.holds who 2 = true) ∧ s.noWait = true ∧ mask < 2 ^ 32 := by decide +kernel
theorem witness_DomainsAndStagesChange_4 :
    let sess : Nat := 0; let x : Session := { caller with wait := some ⟨4, 3, .read 0x60000 1 [], false⟩ }; let v : Wait := ⟨4, 3, .read 0x60000 1 [], false⟩; let s : State := (opened (on 9)).setSession 0 { caller with wait := some ⟨4, 3, .read 0x60000 1 [], false⟩ };
    s.session sess = some x ∧ x.wait = some v ∧ v.timed = false := by decide +kernel
theorem witness_DomainsAndStagesChange_5 :
    let s : State := (on 9).wr R.PWR_THERMAL_STATUS_STAGE 0;
    s.powered = true ∧ s.rd R.PWR_THERMAL_STATUS_STAGE = 0 := by decide +kernel
theorem witness_DomainsAndStagesChange_6 :
    let s : State := ((on 9).wr R.PWR_THERMAL_STATUS_STAGE 1).wrB R.PLT_EVAC_STATUS_EVACUATION false;
    s.powered = true ∧ s.rd R.PWR_THERMAL_STATUS_STAGE = 1 ∧ s.evac = false := by decide +kernel
theorem witness_DomainsAndStagesChange_7 :
    let s : State := ((on 9).wr R.PWR_THERMAL_STATUS_STAGE 1).wrB R.PLT_EVAC_STATUS_EVACUATION true;
    s.powered = true ∧ s.rd R.PWR_THERMAL_STATUS_STAGE = 1 ∧ s.evac = true := by decide +kernel
theorem witness_DomainsAndStagesChange_8 :
    let s : State := (on 9).wr R.PWR_THERMAL_STATUS_STAGE 2;
    s.powered = true ∧ (s.rd R.PWR_THERMAL_STATUS_STAGE = 1 ∨ s.rd R.PWR_THERMAL_STATUS_STAGE = 2) := by decide +kernel
theorem witness_DomainsAndStagesChange_9 :
    let ain : List (Nat × Word) := []; let mot : List MotorIn := []; let upsets : List (Nat × Bool × Nat × Word) := []; let s : State := State.reset;
    s.boll.phase = .power := by decide +kernel
theorem witness_DomainsAndStagesChange_10 :
    let ain : List (Nat × Word) := [(0xE000, 250#32)]; let mot : List MotorIn := []; let upsets : List (Nat × Bool × Nat × Word) := []; let s : State := (((on 9).wr R.LOOP_SYNC_OUT 1).wr R.PWR_TICK_LO 99).wr R.PWR_TICK_HI 0;
    s.powered = true ∧ s.man.patch = none ∧ s.on (R.LOOP_SYNC_OUT.bit 0) = true ∧ (s.tick + 1) % 2 ^ 64 % max 1 s.syncPeriod = 0 := by decide +kernel
theorem witness_ManifestRowsLoadAndPatch_1a :
    let sess : Nat := 0; let tag : Nat := 4294967295; let kind : Nat := 1; let len : Nat := 64; let s : State := opened (on 9);
    s.takes sess tag 0x30 4 = true ∧ kind ≤ 2 ∧ (kind == 2) = s.recovery ∧ s.pwr.berthRun = false ∧ s.man.stage = none ∧ s.man.verify = none := by decide +kernel
theorem witness_ManifestRowsLoadAndPatch_1b :
    let sess : Nat := 0; let tag : Nat := 1; let kind : Nat := 2; let len : Nat := 64; let s : State := opened (on 0xC);
    s.takes sess tag 0x30 4 = true ∧ kind ≤ 2 ∧ (kind == 2) = s.recovery ∧ s.pwr.berthRun = false ∧ s.man.stage = none ∧ s.man.verify = none := by decide +kernel
theorem witness_ManifestRowsLoadAndPatch_2 :
    let sess : Nat := 0; let tag : Nat := 1; let off : Nat := 1; let data : List Byte := [1#8, 2#8]; let g : Staging := ⟨0, 1, 1, 3, 0, [7#8]⟩; let s : State := { opened (on 9) with man := { (on 9).man with stage := some ⟨0, 1, 1, 3, 0, [7#8]⟩ } };
    s.takes sess tag 0x31 4 = true ∧ s.ownStage sess = some g ∧ off = g.bytes.length ∧ g.bytes.length + data.length ≤ g.len ∧ data ≠ [] ∧ data.length ≤ 2 ^ 20 ∧ (data.length % 8 = 0 ∨ g.bytes.length + data.length = g.len) := by decide +kernel
theorem witness_ManifestRowsLoadAndPatch_3 :
    let sess : Nat := 0; let tag : Nat := 1; let g : Staging := ⟨0, 1, 0, 3, 0, [7#8]⟩; let s : State := { opened (on 9) with man := { (on 9).man with stage := some ⟨0, 1, 0, 3, 0, [7#8]⟩ } };
    s.takes sess tag 0x32 4 = true ∧ s.ownStage sess = some g ∧ g.kind = 0 := by decide +kernel
theorem witness_ManifestRowsLoadAndPatch_4 :
    let j : LoadJob := ⟨0, 1, 7, 1, 0, 3, [1#8]⟩; let s : State := { opened (on 9) with man := { (on 9).man with verify := some ⟨0, 1, 7, 1, 0, 3, [1#8]⟩ } };
    s.man.verify = some j ∧ j.slot < 2 := by decide +kernel
theorem witness_ManifestRowsLoadAndPatch_5 :
    let j : LoadJob := ⟨0, 1, 7, 1, 0, 3, [1#8]⟩; let s : State := { opened (on 9) with man := { (on 9).man with verify := some ⟨0, 1, 7, 1, 0, 3, [1#8]⟩ } };
    s.man.verify = some j ∧ j.slot < 2 := by decide +kernel
theorem witness_ManifestRowsLoadAndPatch_6 :
    let sess : Nat := 0; let tag : Nat := 1; let target : Nat := 0; let g : Staging := ⟨0, 1, 1, 3, 0, [7#8]⟩; let s : State := { opened (on 9) with man := { (on 9).man with stage := some ⟨0, 1, 1, 3, 0, [7#8]⟩ } };
    s.takes sess tag 0x33 4 = true ∧ s.ownStage sess = some g ∧ g.kind = 1 := by decide +kernel
theorem witness_ManifestRowsLoadAndPatch_7 :
    let j : LoadJob := ⟨0, 1, 7, 1, 0, 0, []⟩; let s : State := { opened ((on 9).wr R.MAN_PATCH_STATUS_STATE 2) with man := { (on 9).man with patch := some ⟨0, 1, 7, 1, 0, 0, []⟩ } };
    s.man.patch = some j ∧ s.rd R.MAN_PATCH_STATUS_STATE = 2 ∧ s.tickOk j.target = true ∧ s.tick + 1 < 2 ^ 64 ∧ j.target < 2 ^ 64 := by decide +kernel
theorem witness_ManifestRowsLoadAndPatch_8 :
    let j : LoadJob := ⟨0, 1, 7, 1, 0, 1, []⟩; let s : State := { opened (((on 9).wr R.MAN_PATCH_STATUS_STATE 3).wrB R.LOOP_STATUS_REBUILDING false) with man := { (on 9).man with patch := some ⟨0, 1, 7, 1, 0, 1, []⟩ } };
    s.powered = true ∧ s.man.patch = some j ∧ s.rd R.MAN_PATCH_STATUS_STATE = 3 ∧ j.target ≤ s.tick + 1 ∧ s.on R.LOOP_STATUS_REBUILDING = false := by decide +kernel
theorem witness_ManifestRowsLoadAndPatch_9 :
    let sess : Nat := 0; let g : Staging := ⟨0, 1, 1, 3, 0, [7#8]⟩; let s : State := { opened (on 9) with man := { (on 9).man with stage := some ⟨0, 1, 1, 3, 0, [7#8]⟩ } };
    s.keyed sess 0xA5 = true ∧ s.man.stage = some g := by decide +kernel
theorem witness_ManifestRowsLoadAndPatch_10 :
    let sess : Nat := 0; let j : LoadJob := ⟨0, 1, 7, 1, 0, 100, []⟩; let s : State := { opened ((((on 9).wr R.MAN_PATCH_STATUS_STATE 3).wr R.PWR_TICK_LO 0).wr R.PWR_TICK_HI 0) with man := { (on 9).man with patch := some ⟨0, 1, 7, 1, 0, 100, []⟩ } };
    s.keyed sess 0xA5 = true ∧ s.man.patch = some j ∧ s.rd R.MAN_PATCH_STATUS_STATE = 3 ∧ s.tick + 100 ≤ j.target := by decide +kernel
theorem witness_SessionsOpenAndClose_1 :
    let port : Nat := 4; let n : Nat := 7; let s : State := (on 9).wrB (R.SEC_STATUS.bit 3) true;
    s.helmOn port = true ∧ s.freeNumber port = some n := by decide +kernel
theorem witness_SessionsOpenAndClose_2 :
    let n : Nat := 0; let roles : Nat := 6; let serial : Nat := 77; let group : Nat := 1; let scheme : Nat := 0; let notBefore : Nat := 0; let notAfter : Nat := 18446744073709551615; let x : Session := { caller with handshaking := true }; let s : State := ((opened (on 9)).setSession 0 { caller with handshaking := true }).wrB (R.SEC_RNG_STATUS.bit 0) true;
    s.session n = some x ∧ x.handshaking = true ∧ s.on (R.SEC_RNG_STATUS.bit 0) = true ∧ s.noCa = false ∧ s.certValid notBefore notAfter = true ∧ s.nv.revoked.contains serial = false ∧ serial < 2 ^ 64 ∧ group < 2 ∧ scheme < 2 := by decide +kernel
theorem witness_SessionsOpenAndClose_3 :
    let n : Nat := 0; let x : Session := { caller with handshaking := true }; let s : State := (opened (on 9)).setSession 0 { caller with handshaking := true };
    s.session n = some x ∧ x.handshaking = true := by decide +kernel
theorem witness_SessionsOpenAndClose_4 :
    let n : Nat := 0; let s : State := opened (on 9);
    s.isOpen n = true := by decide +kernel
theorem witness_SessionsOpenAndClose_5 :
    let n : Nat := 0; let s : State := opened (on 9);
    (s.session n).isSome = true := by decide +kernel
theorem witness_SessionsOpenAndClose_6 :
    let n : Nat := 0; let key' : Nat := 0; let s : State := opened (on 9);
    s.keyed n 0xA5 = true ∧ key' < 8 ∧ s.isOpen key' = true := by decide +kernel
theorem witness_SessionsOpenAndClose_7 :
    let n : Nat := 0; let len : Nat := 1048601; let s : State := opened (on 9);
    (s.session n).isSome = true ∧ 1048600 < len := by decide +kernel
theorem witness_SessionsOpenAndClose_8 :
    let n : Nat := 0; let q : Nat := 3; let s : State := opened (on 9);
    s.keyed n 0xA5 = true ∧ q < 4 := by decide +kernel
theorem witness_SessionsOpenAndClose_9 :
    let n : Nat := 0; let tag : Nat := 3; let mask : Nat := 6; let x : Session := caller; let s : State := opened (on 9);
    s.takes n tag 0x50 0 = true ∧ s.session n = some x := by decide +kernel
theorem witness_SessionsOpenAndClose_10a :
    let n : Nat := 0; let st : Nat := BAD_TYPE; let header : List Byte := le 2 0x77 ++ le 2 0 ++ le 4 3 ++ le 4 0; let payload : List Byte := []; let s : State := opened (on 9);
    12 ≤ (header ++ payload).length ∧ u32 (header ++ payload) 8 ≤ 1048600 ∧ (header ++ payload).length = 12 + u32 (header ++ payload) 8 ∧ s.takes n (u32 (header ++ payload) 4) (u16 (header ++ payload) 0) 0 = true ∧ misspelt n (header ++ payload) = some st := by decide +kernel
theorem witness_SessionsOpenAndClose_10b :
    let n : Nat := 0; let st : Nat := BAD_MESSAGE; let header : List Byte := le 2 0x50 ++ le 2 0 ++ le 4 3 ++ le 4 2; let payload : List Byte := [6#8, 0#8]; let s : State := opened (on 9);
    12 ≤ (header ++ payload).length ∧ u32 (header ++ payload) 8 ≤ 1048600 ∧ (header ++ payload).length = 12 + u32 (header ++ payload) 8 ∧ s.takes n (u32 (header ++ payload) 4) (u16 (header ++ payload) 0) 0 = true ∧ misspelt n (header ++ payload) = some st := by decide +kernel
theorem witness_SessionsOpenAndClose_11 :
    let n : Nat := 0; let header : List Byte := le 2 0x77 ++ le 2 0 ++ le 4 3 ++ le 4 1048601; let payload : List Byte := []; let s : State := opened (on 9);
    12 ≤ (header ++ payload).length ∧ 1048600 < u32 (header ++ payload) 8 := by decide +kernel
theorem witness_SessionsOpenAndClose_12 :
    let n : Nat := 0; let j : Instr := .sessionRole 0 3 6; let header : List Byte := le 2 0x50 ++ le 2 0 ++ le 4 3 ++ le 4 1; let payload : List Byte := [6#8]; let s : State := opened (on 9);
    12 ≤ (header ++ payload).length ∧ u32 (header ++ payload) 8 ≤ 1048600 ∧ (header ++ payload).length = 12 + u32 (header ++ payload) 8 ∧ (spell n (header ++ payload)).toOption = some j := by decide +kernel
theorem witness_SessionsOpenAndClose_13 :
    let u : CfgRec := rec' 5 4 3 48 []; let r : CfgRec := rec' 13 1 2 48 []; let s : State := recs [rec' 5 4 3 48 [], rec' 10 5 3 32 [(0x16, 1)], rec' 13 1 2 48 []] { on 9 with disp := { (on 9).disp with pcs := [(3, { (on 9).pcs 3 with state := 2 })] } };
    s.portsUp = true ∧ s.mooring = false ∧ s.pcsUnits.contains u = true ∧ (s.pcs u.id).state ≠ 1 ∧ s.cfg 13 1 2 = some r ∧ bit ((s.cfg 10 5 u.id).elim 0 (·.u8 0x16)) 0 = true := by decide +kernel
theorem witness_MessagesAccessRegisters_1 :
    let n : Nat := 0; let tag : Nat := 9; let a : Nat := 0xC; let s : State := opened (on 9);
    s.takes n tag 1 1 = true ∧ s.recovery = false ∧ a < 0x150000 ∧ a % 4 = 0 ∧ s.live (regDomain a) = true ∧ isLow a = false ∧ isHigh a = false ∧ (descOf a).rc = 0 ∧ [R.SEC_STAGE_DATA.addr, R.DBG_MEM_DATA.addr, R.PLT_REGEN_POWER.addr, R.PLT_EVAC_STATUS.addr, R.PWR_OP_MS.addr, R.PWR_OP_SECONDS.addr].contains a = false ∧ isSelect a = false := by decide +kernel
theorem witness_MessagesAccessRegisters_2 :
    let n : Nat := 0; let tag : Nat := 9; let s : State := opened ((on 9).setWord 0xC 0xDEADBEEF#32);
    s.takes n tag 1 1 = true ∧ s.recovery = false ∧ s.live 1 = true := by decide +kernel
theorem witness_MessagesAccessRegisters_3 :
    let n : Nat := 0; let tag : Nat := 9; let v : Word := 0xFFFFFFFF#32; let s : State := opened (on 9);
    s.takes n tag 2 2 = true ∧ s.live 1 = true ∧ s.noWait = true := by decide +kernel
theorem witness_MessagesAccessRegisters_4 :
    let n : Nat := 0; let tag : Nat := 9; let m : Word := 0xFF#32; let v : Word := 0x1234#32; let s : State := opened ((on 9).setWord 0xC 0xDEADBEEF#32);
    s.takes n tag 3 2 = true ∧ s.live 1 = true ∧ s.noWait = true := by decide +kernel
theorem witness_MessagesAccessRegisters_5 :
    let n : Nat := 0; let tag : Nat := 9; let a : Nat := 0x50000008; let len : Nat := 16; let v : Nat := 2; let base : Nat := 0x50000000; let size : Nat := 0x40000; let s : State := opened (on 9);
    s.takes n tag 4 1 = true ∧ v < 3 ∧ s.windowOf a = some (v, base, size) ∧ a < 2 ^ 40 ∧ 4 ≤ len ∧ len ≤ 65536 ∧ a % 4 = 0 ∧ len % 4 = 0 ∧ (a - base) % windowEntry v = 0 ∧ len % windowEntry v = 0 ∧ a + len ≤ base + size := by decide +kernel
theorem witness_QueuesOrderCommandsAndEvents_1 :
    let n : Nat := 0; let tag : Nat := 9; let q : Nat := 2; let e : List Byte := le 2 0x0705 ++ le 2 0 ++ le 4 77 ++ List.replicate 56 0; let s : State := opened (on 9);
    s.takes n tag 0x10 1 = true ∧ (s.takenUp n tag).pushStatus n q e = OK := by decide +kernel
theorem witness_QueuesOrderCommandsAndEvents_2 :
    let q : Nat := 1; let c : Cmd := task 1 0x0705 0 []; let rest : List QItem := []; let s : State := { opened (on 9) with hq := { (opened (on 9)).hq with cq := [(1, [.cmd (task 1 0x0705 0 [])])] } };
    q < 4 ∧ s.startable q = some (c, rest) ∧ (List.range q).all (fun k => (s.startable k).isNone) = true ∧ s.noWait = true := by decide +kernel
theorem witness_QueuesOrderCommandsAndEvents_3 :
    let q : Nat := 2; let id : Nat := 0; let x : QItem := .cmd (task 2 0x0705 0 []); let s : State := { opened (on 9) with hq := { (opened (on 9)).hq with cq := [(2, [.cmd (task 2 0x0705 0 [])])] } };
    0 < q ∧ q < 4 ∧ (s.cqOf q).find? (fun y => y.id == id) = some x ∧ (s.cqOf (q - 1)).length < 1024 := by decide +kernel
theorem witness_QueuesOrderCommandsAndEvents_4 :
    let n : Nat := 0; let tag : Nat := 9; let q : Nat := 0; let scope : Nat := 127; let timeout : Nat := 0; let s : State := opened (on 9);
    s.takes n tag 0x12 2 = true ∧ q < 4 ∧ scope < 128 ∧ timeout ≤ 60000 ∧ (s.cqOf q).length < 1024 := by decide +kernel
theorem witness_QueuesOrderCommandsAndEvents_5 :
    let x : Fence := ⟨4, 0, 1, 9, 2, 3, 1000, 0, [], [], false, false⟩; let l : List Fence := []; let s : State := { opened (on 9) with hq := { (opened (on 9)).hq with fences := [⟨4, 0, 1, 9, 2, 3, 1000, 0, [], [], false, false⟩], cq := [(2, [.fence ⟨4, 0, 1, 9, 2, 3, 1000, 0, [], [], false, false⟩])] } };
    s.hq.fences = x :: l ∧ ((s.cqOf x.queue).head?).any (fun y => y.id == x.id) = true ∧ s.running x.queue = none ∧ s.undrained x = 0 ∧ (s.session x.sess).any (fun y => y.uid == x.uid) = true := by decide +kernel
theorem witness_QueuesOrderCommandsAndEvents_6 :
    let id : Nat := 4; let undrained : Nat := 1; let x : Fence := ⟨4, 0, 1, 9, 2, 3, 1000, 0, [], [], false, false⟩; let s : State := { opened (on 9) with hq := { (opened (on 9)).hq with fences := [⟨4, 0, 1, 9, 2, 3, 1000, 0, [], [], false, false⟩], cq := [(2, [.fence ⟨4, 0, 1, 9, 2, 3, 1000, 0, [], [], false, false⟩])] } };
    s.hq.fences.find? (fun f => f.id == id) = some x ∧ (s.session x.sess).any (fun y => y.uid == x.uid) = true := by decide +kernel
theorem witness_QueuesOrderCommandsAndEvents_7 :
    let n : Nat := 0; let tag : Nat := 9; let q : Nat := 3; let s : State := opened (on 9);
    s.takes n tag 0x20 1 = true ∧ s.holds n 2 = true ∧ q < 4 ∧ (s.eventQ q).owner = none := by decide +kernel
theorem witness_QueuesOrderCommandsAndEvents_8 :
    let n : Nat := 0; let q : Nat := 1; let x : EvEntry := ⟨0x301, 0, 5, 0, 0, 0, 0, 0, 0, []⟩; let s : State := { opened (on 9) with hq := { (opened (on 9)).hq with eq := [(1, ⟨[⟨0x301, 0, 5, 0, 0, 0, 0, 0, 0, []⟩], some 0, 0, false⟩)] } };
    (s.eventQ q).owner = some n ∧ (s.eventQ q).entries[(s.eventQ q).sent]? = some x := by decide +kernel
theorem witness_QueuesOrderCommandsAndEvents_9 :
    let n : Nat := 0; let tag : Nat := 9; let q : Nat := 1; let seq : Nat := 5; let s : State := { opened (on 9) with hq := { (opened (on 9)).hq with eq := [(1, ⟨[⟨0x301, 0, 5, 0, 0, 0, 0, 0, 0, []⟩], some 0, 1, false⟩)] } }.wr (R.HQ_EQ_NEXT_SEQ 1) 6;
    s.takes n tag 0x11 2 = true ∧ q < 4 ∧ (s.eventQ q).owner = some n ∧ seqAfter seq (s.delivered q) = false := by decide +kernel
theorem witness_QueuesOrderCommandsAndEvents_10 :
    let n : Nat := 0; let tag : Nat := 9; let plant : Nat := 5; let gen : Nat := 1; let off : Nat := 16777200; let data : List Byte := List.replicate 16 0; let s : State := opened (on 9);
    s.takes n tag 0x40 4 = true ∧ s.est.restore = none ∧ data.length % 16 = 0 ∧ data.length ≤ 2 ^ 20 ∧ off % 16 = 0 ∧ off + data.length ≤ 2 ^ 24 := by decide +kernel
theorem witness_CrossingsTrainJoinAndSample_1 :
    let n : Nat := 0; let hop : Nat := 0x1FE; let genA : Nat := 2; let genB : Nat := 1; let endB : Bool := false; let s : State := ringed Ring.empty [];
    s.portsUp = true ∧ s.xngUsed n = true ∧ s.sleepState n = 0 ∧ s.idle = true ∧ n < 16 := by decide +kernel
theorem witness_CrossingsTrainJoinAndSample_2 :
    let n : Nat := 0; let hop : Nat := 4; let s : State := ringed { Ring.empty with hops := [(4, 2)] } [];
    s.portsUp = true ∧ tget (s.ring n).hops hop = some 2 := by decide +kernel
theorem witness_CrossingsTrainJoinAndSample_3 :
    let n : Nat := 0; let s : State := ringed { Ring.empty with hops := [(0x1FE, 2)] } [];
    s.portsUp = true ∧ s.xngUsed n = true ∧ s.sleepState n = 0 ∧ s.idle = true ∧ s.xng.txns = [] ∧ n < 16 ∧ (s.ring n).breaks.contains 0x1FE = false ∧ (s.ring n).nodes.all (fun p => decide (p.2.state ≤ 1)) = true := by decide +kernel
theorem witness_CrossingsTrainJoinAndSample_4 :
    let n : Nat := 0; let berth : Nat := 4; let s : State := ringed { Ring.empty with hops := [(4, 2)] } [];
    s.portsUp = true ∧ s.xngUsed n = true ∧ s.sleepState n = 0 ∧ s.idle = true ∧ s.xng.txns = [] ∧ n < 16 ∧ (s.ring n).breaks.contains berth = false ∧ (s.ring n).nodes.all (fun p => decide (p.2.state ≤ 1)) = true := by decide +kernel
theorem witness_CrossingsTrainJoinAndSample_5 :
    let n : Nat := 0; let hop : Nat := 4; let s : State := ringed { Ring.empty with hops := [(4, 2)], breaks := [4] } [];
    s.portsUp = true ∧ (s.ring n).breaks.contains hop = true ∧ (tget (s.ring n).hops hop).isSome = true := by decide +kernel
theorem witness_CrossingsTrainJoinAndSample_6 :
    let n : Nat := 0; let s : State := (ringed Ring.empty []).wrB R.PWR_WATCHDOG_STATUS_RUNNING true;
    s.portsUp = true ∧ s.xngUsed n = true ∧ s.awake n = true ∧ s.on R.PWR_WATCHDOG_STATUS_RUNNING = true := by decide +kernel
theorem witness_CrossingsTrainJoinAndSample_7 :
    let n : Nat := 0; let s : State := ringed Ring.empty [];
    s.portsUp = true ∧ s.xngUsed n = true ∧ s.awake n = true ∧ (s.declared n).any (fun p => (s.node n p.1).state == 1 || (s.node n p.1).state == 5) = true := by decide +kernel
theorem witness_CrossingsTrainJoinAndSample_8 :
    let n : Nat := 0; let endB : Bool := false; let x : Rx := got 4 0 0x0E 1 1 (le 4 0 ++ le 2 1 ++ le 2 4 ++ le 8 0 ++ le 8 77 ++ le 212 0); let s : State := ringed { Ring.empty with nodes := [(4, node' 3 77)] } [];
    s.portsUp = true ∧ s.xngUsed n = true ∧ s.idle = true ∧ s.hears n x = true ∧ x.typ = 0x0E ∧ x.payload.length = 236 ∧ (s.node n (s.joinFacts n endB x.payload).berth).state = 3 ∧ (s.node n (s.joinFacts n endB x.payload).berth).serial = (s.joinFacts n endB x.payload).serial ∧ (s.joinFacts n endB x.payload).serial ≠ 0 := by decide +kernel
theorem witness_CrossingsTrainJoinAndSample_9 :
    let n : Nat := 0; let x : Rx := got 9 0 0x0E 1 1 (le 4 0 ++ le 2 1 ++ le 2 9 ++ le 8 0 ++ le 8 77 ++ le 212 0); let s : State := ringed Ring.empty [];
    s.portsUp = true ∧ s.xngUsed n = true ∧ s.idle = true ∧ s.hears n x = true ∧ x.typ = 0x0E ∧ x.payload.length = 236 ∧ s.declaredAt n (s.joinFacts n false x.payload).berth = none ∧ (s.joinFacts n false x.payload).berth < 0x1FD ∧ (s.node n (s.joinFacts n false x.payload).berth).state = 0 ∧ s.cfgAll 13 1 = [] := by decide +kernel
theorem witness_CrossingsTrainJoinAndSample_10 :
    let n : Nat := 0; let endB : Bool := true; let chal : List Byte := [1#8]; let x : Rx := got 4 3 9 1 1 (le 68 0); let v : Txn := ⟨0, 4, 8, [], false, false, .auth, [], none⟩; let i : Nat := 0; let s : State := ringed { Ring.empty with nodes := [(4, node' 2 77)], auths := [(4, [1#8])] } [(3, ⟨0, 4, 8, [], false, false, .auth, [], none⟩)];
    s.idle = true ∧ s.hears n x = true ∧ x.typ = 9 ∧ tget (s.ring n).auths x.src = some chal ∧ tget s.xng.txns x.tag = some v ∧ v.xng = n ∧ v.berth = x.src ∧ v.use = .auth ∧ u16 x.payload 0 = 0 ∧ s.stringAt n x.src = some i ∧ (s.pstr i).state ≠ 3 ∧ s.cfgAll 13 1 = [] ∧ (s.ring n).wait = [] ∧ (s.ring n).reauth = none ∧ (s.ring n).wake = none ∧ (s.node n x.src).state = 2 := by decide +kernel
theorem witness_CrossingsTrainJoinAndSample_11 :
    let n : Nat := 0; let berth : Nat := 4; let i : Nat := 0; let s : State := ringed { Ring.empty with nodes := [(4, node' 2 77)], auths := [(4, [1#8])] } [];
    s.idle = true ∧ (tget (s.ring n).auths berth).isSome = true ∧ s.stringAt n berth = some i ∧ (s.pstr i).state ≠ 3 ∧ s.cfgAll 13 1 = [] ∧ (s.ring n).wait = [] ∧ (s.ring n).reauth = none ∧ (s.ring n).wake = none := by decide +kernel
theorem witness_CrossingsTrainJoinAndSample_12 :
    let n : Nat := 0; let berth : Nat := 4; let s : State := (ringed { Ring.empty with nodes := [(4, node' 3 77)] } []).wrB (R.SEC_RNG_STATUS.bit 0) true;
    s.portsUp = true ∧ s.awake n = true ∧ s.idle = true ∧ (s.node n berth).state = 3 ∧ (s.ring n).auths = [] ∧ (s.ring n).wait = [] := by decide +kernel
theorem witness_CrossingsTrainJoinAndSample_13 :
    let n : Nat := 0; let berth : Nat := 4; let s : State := ringed { Ring.empty with nodes := [(4, node' 3 77)] } [];
    s.mayCommand = true ∧ s.idle = true ∧ s.swept n berth = true ∧ s.reaches n berth = true := by decide +kernel
theorem witness_CrossingsTrainJoinAndSample_14 :
    let n : Nat := 0; let berth : Nat := 4; let s : State := ((ringed { Ring.empty with nodes := [(4, { node' 3 77 with rate := 100 })] } []).wr R.PWR_TICK_HI 0).wr R.PWR_TICK_LO 30001;
    s.mayCommand = true ∧ s.idle = true ∧ s.swept n berth = true ∧ s.reaches n berth = true ∧ (s.node n berth).lastTick + threePeriods (s.node n berth).rate < s.tick ∧ (s.node n berth).promoted = none := by decide +kernel
theorem witness_CrossingsTrainJoinAndSample_15 :
    let n : Nat := 0; let endB : Bool := false; let x : Rx := got 4 3 1 1 1 (le 424 0); let v : Txn := ⟨0, 4, 1, [], false, false, .sample, [], none⟩; let s : State := ringed { Ring.empty with nodes := [(4, node' 3 77)] } [(3, ⟨0, 4, 1, [], false, false, .sample, [], none⟩)];
    s.idle = true ∧ s.hears n x = true ∧ x.typ = 1 ∧ tget s.xng.txns x.tag = some v ∧ v.xng = n ∧ v.berth = x.src ∧ v.use = .sample ∧ x.payload.length = 424 ∧ (tput v.got (u8 x.payload 0x14 % 4) x.payload).length ≠ 4 := by decide +kernel
theorem witness_CrossingsTrainJoinAndSample_16 :
    let n : Nat := 0; let endB : Bool := false; let x : Rx := got 4 3 1 1 1 (le 20 0 ++ le 404 3); let v : Txn := ⟨0, 4, 1, [], false, false, .sample, [(0, []), (1, []), (2, [])], none⟩; let s : State := ringed { Ring.empty with nodes := [(4, node' 3 77)] } [(3, ⟨0, 4, 1, [], false, false, .sample, [(0, []), (1, []), (2, [])], none⟩)];
    s.idle = true ∧ s.hears n x = true ∧ x.typ = 1 ∧ tget s.xng.txns x.tag = some v ∧ v.xng = n ∧ v.berth = x.src ∧ v.use = .sample ∧ x.payload.length = 424 ∧ (tput v.got (u8 x.payload 0x14 % 4) x.payload).length = 4 ∧ (s.declaredAt n x.src).isSome = true ∧ s.rd R.PWR_THERMAL_STATUS_STAGE ≠ 2 ∧ s.est.intake.length < 4096 := by decide +kernel
theorem witness_CrossingsTrainJoinAndSample_17 :
    let n : Nat := 0; let endB : Bool := false; let x : Rx := got 4 0 1 2 1 (le 424 7); let s : State := ringed { Ring.empty with nodes := [(4, node' 3 77)] } [];
    s.hears n x = true ∧ x.typ = 1 ∧ x.payload.length = 424 ∧ bit x.flags 1 = true ∧ (s.node n x.src).applied ≠ some (u32 x.payload 0) ∧ (s.node n x.src).report = [] := by decide +kernel
theorem witness_CrossingsTrainJoinAndSample_18 :
    let n : Nat := 0; let berth : Nat := 5; let c : Nat := 0; let s : State := ringed { Ring.empty with nodes := [(5, node' 3 77)] } [];
    s.portsUp = true ∧ s.awake n = true ∧ s.idle = true ∧ (s.node n berth).state = 3 ∧ s.stringAt n berth = none ∧ s.containerAt n berth = some c ∧ (s.pcon c).closed = false := by decide +kernel
theorem witness_CrossingsTrainJoinAndSample_19 :
    let n : Nat := 0; let c : Nat := 0; let endB : Bool := false; let x : Rx := got 5 0 0x0F 0 1 (le 8 0); let s : State := ringed { Ring.empty with nodes := [(5, node' 3 77)] } [];
    s.idle = true ∧ s.hears n x = true ∧ x.typ = 0x0F ∧ bit x.flags 0 = false ∧ s.nodeTxns n x.src = 0 ∧ s.stringAt n x.src = none ∧ s.containerAt n x.src = some c ∧ (s.pcon c).closed = false := by decide +kernel
theorem witness_CrossingsAnswerSleepAndWake_1 :
    let n : Nat := 0; let q : Nat := 1; let endB : Bool := true; let x : Rx := ⟨0x1FE, 4, 3, 3, 1, 9, le 4 0⟩; let v : Txn := ⟨0, 4, 3, [], false, false, .queue 1, [], none⟩; let c : Cmd := task 1 0x0502 0 []; let s : State := served 1 (task 1 0x0502 0 []) (ringed { Ring.empty with nodes := [(4, node' 3 77)] } [(3, ⟨0, 4, 3, [], false, false, .queue 1, [], none⟩)]);
    s.idle = true ∧ s.hears n x = true ∧ [2, 3, 4, 5, 6, 7, 0x0F].contains x.typ = true ∧ tget s.xng.txns x.tag = some v ∧ v.xng = n ∧ v.berth = x.src ∧ v.typ = x.typ ∧ bit x.flags 0 = true ∧ v.use = .queue q ∧ x.typ = 3 ∧ u16 x.payload 0 = 0 ∧ s.serving q c.code c = true := by decide +kernel
theorem witness_CrossingsAnswerSleepAndWake_2 :
    let tag : Nat := 3; let v : Txn := ⟨0, 4, 3, [], false, false, .plain, [], none⟩; let s : State := ringed { Ring.empty with nodes := [(4, node' 3 77)] } [(3, ⟨0, 4, 3, [], false, false, .plain, [], none⟩)];
    tget s.xng.txns tag = some v ∧ v.use = .plain ∧ v.retried = false := by decide +kernel
theorem witness_CrossingsAnswerSleepAndWake_3 :
    let tag : Nat := 3; let v : Txn := ⟨0, 4, 3, [], false, true, .plain, [], none⟩; let s : State := ringed { Ring.empty with nodes := [(4, node' 3 77)] } [(3, ⟨0, 4, 3, [], false, true, .plain, [], none⟩)];
    s.idle = true ∧ tget s.xng.txns tag = some v ∧ v.use = .plain ∧ v.retried = true := by decide +kernel
theorem witness_CrossingsAnswerSleepAndWake_4 :
    let q : Nat := 1; let c : Cmd := task 1 0x0504 0 []; let s : State := (served 1 (task 1 0x0504 0 []) (ringed { Ring.empty with nodes := [(4, node' 3 77), (5, { node' 3 78 with contact := some 0 })] } [])).modPcon 0 fun x => { x with seen := true };
    s.serving q 0x0504 c = true ∧ s.portsUp = true ∧ s.xngUsed c.inst = true ∧ s.maySleep c.inst = true ∧ c.inst < 16 := by decide +kernel
theorem witness_CrossingsAnswerSleepAndWake_5 :
    let n : Nat := 0; let endB : Bool := true; let x : Rx := ⟨0x1FE, 4, 0, 0x0B, 1, 9, le 4 0 ++ le 4 6⟩; let s : State := (ringed { Ring.empty with nodes := [(4, node' 3 77)], sleepId := 6 } []).wr (R.XNG_SLEEP_STATUS_STATE 0) 1;
    s.hears n x = true ∧ x.typ = 0x0B ∧ s.sleepState n = 1 ∧ u32 x.payload 4 = (s.ring n).sleepId ∧ u16 x.payload 0 = 0 ∧ (s.sleepVoters n).all (fun b => b == x.src || (s.ring n).agreed.contains b) = true ∧ n < 16 := by decide +kernel
theorem witness_CrossingsAnswerSleepAndWake_6 :
    let n : Nat := 0; let q : Nat := 1; let c : Cmd := task 1 0x0504 0 []; let s : State := (served 1 (task 1 0x0504 0 []) (ringed { Ring.empty with sleepQ := some 1 } [])).wr (R.XNG_SLEEP_STATUS_STATE 0) 1;
    s.sleepState n = 1 ∧ (s.ring n).sleepQ = some q ∧ s.serving q 0x0504 c = true ∧ n < 16 := by decide +kernel
theorem witness_CrossingsAnswerSleepAndWake_7 :
    let n : Nat := 0; let s : State := (ringed Ring.empty []).wr (R.XNG_SLEEP_STATUS_STATE 0) 3;
    s.powered = true ∧ s.sleepState n = 3 ∧ n < 16 := by decide +kernel
theorem witness_CrossingsAnswerSleepAndWake_8 :
    let q : Nat := 1; let c : Cmd := task 1 0x0505 0 []; let s : State := (served 1 (task 1 0x0505 0 []) (ringed Ring.empty [])).wr (R.XNG_SLEEP_STATUS_STATE 0) 3;
    s.serving q 0x0505 c = true ∧ s.portsUp = true ∧ s.xngUsed c.inst = true ∧ s.sleepState c.inst = 3 ∧ c.inst < 16 := by decide +kernel
theorem witness_CrossingsAnswerSleepAndWake_9 :
    let q : Nat := 1; let c : Cmd := task 1 0x0505 0 []; let s : State := served 1 (task 1 0x0505 0 []) (ringed Ring.empty []);
    s.serving q 0x0505 c = true ∧ s.portsUp = true ∧ s.xngUsed c.inst = true ∧ s.awake c.inst = true := by decide +kernel
theorem witness_CrossingsAnswerSleepAndWake_10 :
    let q : Nat := 1; let c : Cmd := task 1 0x0501 0 (le 4 4 ++ le 4 0x1000 ++ le 4 2); let s : State := served 1 (task 1 0x0501 0 (le 4 4 ++ le 4 0x1000 ++ le 4 2)) (ringed { Ring.empty with nodes := [(4, node' 3 77)] } []);
    s.serving q 0x0501 c = true ∧ s.idle = true ∧ s.portsUp = true ∧ s.xngUsed c.inst = true ∧ s.reaches c.inst (u16 c.args 0 % 512) = true ∧ (u16 c.args 8 = 1 ∨ u16 c.args 8 = 2) := by decide +kernel
theorem witness_CrossingsAnswerSleepAndWake_11 :
    let q : Nat := 1; let c : Cmd := task 1 0x0502 0 (le 4 4 ++ le 4 0x1000 ++ le 4 1 ++ le 4 77); let s : State := served 1 (task 1 0x0502 0 (le 4 4 ++ le 4 0x1000 ++ le 4 1 ++ le 4 77)) (ringed { Ring.empty with nodes := [(4, node' 3 77)] } []);
    s.serving q 0x0502 c = true ∧ s.idle = true ∧ s.portsUp = true ∧ s.xngUsed c.inst = true ∧ s.reaches c.inst (u16 c.args 0 % 512) = true ∧ 1 ≤ u16 c.args 8 ∧ u16 c.args 8 ≤ 10 := by decide +kernel
theorem witness_CrossingsAnswerSleepAndWake_12 :
    let q : Nat := 1; let wait : Nat := 2; let c : Cmd := task 1 0x0503 0 []; let s : State := served 1 (task 1 0x0503 0 []) (ringed Ring.empty []);
    s.serving q 0x0503 c = true ∧ s.portsUp = true ∧ s.xngUsed c.inst = true ∧ s.sleepState c.inst = 0 ∧ (s.ring c.inst).census = none := by decide +kernel
theorem witness_CrossingsAnswerSleepAndWake_13 :
    let q : Nat := 1; let c : Cmd := task 1 0x0506 0 (le 4 4); let s : State := served 1 (task 1 0x0506 0 (le 4 4)) (ringed { Ring.empty with nodes := [(4, node' 3 77)] } []);
    s.serving q 0x0506 c = true ∧ s.idle = true ∧ s.portsUp = true ∧ s.xngUsed c.inst = true ∧ s.awake c.inst = true ∧ (s.ring c.inst).reauth = none ∧ u16 c.args 0 % 512 ≠ 0x1FF ∧ (s.sleepVoters c.inst).contains (u16 c.args 0 % 512) = true ∧ (s.ring c.inst).auths = [] ∧ (s.ring c.inst).wait = [] := by decide +kernel
theorem witness_CrossingsAnswerSleepAndWake_14 :
    let sess : Nat := 0; let n : Nat := 0; let s : State := ringed { Ring.empty with hops := [(4, 2)], slow := [4] } [];
    s.keyed sess 0xA5 = true ∧ s.portsUp = true ∧ s.xngUsed n = true ∧ s.awake n = true := by decide +kernel
theorem witness_EstimationFollowsItsRows_1 :
    let wrong : List Nat := []; let redo : List Nat := []; let r : Bool := false; let w : Sweep := ⟨0, 4, 7, 1000, 0#32, 0#32, 3, 0, 0, [], none⟩; let e : Est := { (on 9).est with intake := [] }; let i : Nat := 0; let y : CfgRec := rec' 4 1 0 16 []; let s : State := let s := ringed { Ring.empty with nodes := [(4, node' 3 77)] } []; ({ s with man := { s.man with cfg := plant ++ [rec' 4 1 0 16 []] }, est := { s.est with intake := [⟨0, 4, 7, 1000, 0#32, 0#32, 3, 0, 0, [], none⟩], turn := ⟨[(0, 4)], []⟩ } }.wrB R.EST_STATUS_RUNNING true);
    s.powered = true ∧ s.on R.EST_STATUS_RUNNING = true ∧ s.pwr.resetDom ≠ some 4 ∧ s.nextSweep = some (w, e) ∧ w.tables = none ∧ s.stringAt w.xng w.berth = some i ∧ s.strType i = some y ∧ w.xng < 16 ∧ (3 ≤ s.goodPipes.length ∨ r = false) := by decide +kernel
theorem witness_EstimationFollowsItsRows_2 :
    let wrong : List Nat := []; let redo : List Nat := []; let r : Bool := false; let w : Sweep := ⟨0, 4, 7, 1000, 0#32, 0#32, 3, 0, 0, [], some [rec' 4 1 0 16 []]⟩; let e : Est := { (on 9).est with intake := [] }; let i : Nat := 0; let y : CfgRec := rec' 4 1 0 16 []; let l : List CfgRec := [rec' 4 1 0 16 []]; let m : Man := { (on 9).man with cfg := plant ++ [rec' 4 1 0 16 []] }; let s : State := let s := ringed { Ring.empty with nodes := [(4, node' 3 77)] } []; ({ s with man := { s.man with cfg := plant ++ [rec' 4 1 0 24 []] }, est := { s.est with intake := [⟨0, 4, 7, 1000, 0#32, 0#32, 3, 0, 0, [], some [rec' 4 1 0 16 []]⟩], turn := ⟨[(0, 4)], []⟩ } }.wrB R.EST_STATUS_RUNNING true);
    s.powered = true ∧ s.on R.EST_STATUS_RUNNING = true ∧ s.pwr.resetDom ≠ some 4 ∧ s.nextSweep = some (w, e) ∧ w.tables = some l ∧ m = { s.man with cfg := s.man.cfg.filter (fun x => x.sec != 4) ++ l } ∧ ({ s with man := m } : State).stringAt w.xng w.berth = some i ∧ ({ s with man := m } : State).strType i = some y ∧ w.xng < 16 ∧ (3 ≤ s.goodPipes.length ∨ r = false) := by decide +kernel
theorem witness_EstimationFollowsItsRows_3 :
    let wrong : List Nat := []; let redo : List Nat := []; let w : Sweep := ⟨0, 4, 7, 1000, 0#32, 0#32, 3, 0, 0, [], none⟩; let e : Est := { (on 9).est with intake := [] }; let s : State := let s := ringed { Ring.empty with nodes := [(4, node' 3 77)] } []; (({ s with est := { s.est with intake := [⟨0, 4, 7, 1000, 0#32, 0#32, 3, 0, 0, [], none⟩], turn := ⟨[(0, 4)], []⟩ } }.wrB R.EST_STATUS_RUNNING true).wr (R.EST_PIPE_STATUS_PIPE0) 2).wr R.EST_PIPE_STATUS_PIPE1 2;
    s.powered = true ∧ s.on R.EST_STATUS_RUNNING = true ∧ s.pwr.resetDom ≠ some 4 ∧ s.nextSweep = some (w, e) ∧ s.goodPipes.length < 3 := by decide +kernel
theorem witness_EstimationFollowsItsRows_4 :
    let i : Nat := 0; let s : State := recs plant (on 9);
    (s.estStr i).state = 1 ∧ (s.cfg 5 3 i).isSome = true := by decide +kernel
theorem witness_EstimationFollowsItsRows_5a :
    let s : State := on 9;
    s.powered = true ∧ 7 ≤ s.stage ∧ s.stage ≤ 9 := by decide +kernel
theorem witness_EstimationFollowsItsRows_5b :
    let s : State := (on 7).wrB R.EST_STATUS_ROLLUP_STALE true;
    s.powered = true ∧ 7 ≤ s.stage ∧ s.stage ≤ 9 := by decide +kernel
theorem witness_EstimationFollowsItsRows_6 :
    let s : State := on 9;
    s.estUp = true ∧ s.est.ckptRun = none := by decide +kernel
theorem witness_EstimationFollowsItsRows_7 :
    let x : Nat × List Nat := (6, [1]); let s : State := { on 8 with est := { (on 8).est with ckptRun := some (6, [1]) } };
    s.estUp = true ∧ s.est.ckptRun = some x ∧ s.est.ckptNext = none := by decide +kernel
theorem witness_EstimationFollowsItsRows_8 :
    let cause : Nat := 6; let q : Nat := 1; let c : Cmd := task 1 0x0601 0 []; let s : State := (fun (s : State) => { s with est := { s.est with ckptRun := some (6, [1]) } }) (served 1 (task 1 0x0601 0 []) (on 9));
    s.powered = true ∧ s.est.ckptRun = some (cause, [q]) ∧ cause ≠ 7 ∧ s.serving q c.code c = true := by decide +kernel
theorem witness_EstimationFollowsItsRows_9 :
    let cause : Nat := 1; let k : Nat := 0; let qs : List Nat := []; let s : State := { on 9 with est := { (on 9).est with ckptRun := some (1, []), ckptNext := some (6, [2]) } };
    s.powered = true ∧ s.est.ckptRun = some (cause, qs) := by decide +kernel
theorem witness_EstimationFollowsItsRows_10 :
    let cause : Nat := 1; let qs : List Nat := []; let l : List (Nat × List Nat) := [(6, [1])]; let s : State := { on 9 with est := { (on 9).est with ckptRetry := [(1, []), (6, [1])] } };
    s.est.ckptRetry = (cause, qs) :: l ∧ s.est.ckptRun = none := by decide +kernel
theorem witness_EstimationFollowsItsRows_11 :
    let cause : Nat := 6; let qs : List Nat := [1]; let x : Nat × List Nat := (1, []); let l : List (Nat × List Nat) := []; let s : State := { on 9 with est := { (on 9).est with ckptRetry := [(6, [1])], ckptRun := some (1, []) } };
    s.est.ckptRetry = (cause, qs) :: l ∧ s.est.ckptRun = some x ∧ s.est.ckptNext = none := by decide +kernel
theorem witness_EstimationFollowsItsRows_12 :
    let i : Nat := 0; let a : Nat := 5; let y : CfgRec := rec' 4 1 0 16 []; let s : State := (fun (s : State) => s.modEst 0 fun x => { x with state := 4, frozenAt := some 5 }) (recs (plant ++ [rec' 4 1 0 16 []]) ((on 9).wr R.PWR_OP_SECONDS 8000000));
    (s.estStr i).state = 4 ∧ (s.estStr i).frozenAt = some a ∧ a + cfgD (s.cfg 1 1 0) (·.u32 0x1C) 90 * 86400 ≤ s.opSec ∧ s.strType i = some y := by decide +kernel
theorem witness_EstimationFollowsItsRows_13 :
    let q : Nat := 1; let c : Cmd := task 1 0x0601 0 [1#8]; let s : State := served 1 (task 1 0x0601 0 [1#8]) (on 9);
    s.serving q 0x0601 c = true ∧ s.estUp = true ∧ s.est.ckptRun = none := by decide +kernel
theorem witness_EstimationFollowsItsRows_14 :
    let q : Nat := 1; let c : Cmd := task 1 0x0602 0 (le 2 3 ++ [4#8]); let r : RollStr := ⟨3, Figures.zero, true, true, false, 3⟩; let a : Nat := 3; let b : Nat := 0; let s : State := (fun (s : State) => { s with est := { s.est with roll := [⟨3, Figures.zero, true, true, false, 3⟩] } }) (served 1 (task 1 0x0602 0 (le 2 3 ++ [4#8])) (on 9));
    s.serving q 0x0602 c = true ∧ s.est.roll.find? (·.idx == u16 c.args 0 % 4096) = some r ∧ r.pick (u8 c.args 2) = some (a, b) := by decide +kernel
theorem witness_EstimationFollowsItsRows_15 :
    let q : Nat := 1; let c : Cmd := task 1 0x0603 0 (le 2 0); let s : State := served 1 (task 1 0x0603 0 (le 2 0)) (recs plant (on 9));
    s.serving q 0x0603 c = true ∧ (s.cfg 5 3 (u16 c.args 0 % 4096)).isSome = true := by decide +kernel
theorem witness_EstimationFollowsItsRows_16 :
    let q : Nat := 1; let c : Cmd := task 1 0x0604 0 (le 2 0); let s : State := served 1 (task 1 0x0604 0 (le 2 0)) (recs plant (on 9));
    s.serving q 0x0604 c = true ∧ (s.cfg 5 3 (u16 c.args 0 % 4096)).isSome = true := by decide +kernel
theorem witness_EstimationFollowsItsRows_17 :
    let q : Nat := 1; let k : Nat := 5; let c : Cmd := task 1 0x0605 0 (le 4 5); let s : State := served 1 (task 1 0x0605 0 (le 4 5)) (recs plant (on 9));
    s.serving q 0x0605 c = true ∧ k = u32 c.args 0 % 2 ^ 20 ∧ (s.cfg 5 3 (k / 256)).isSome = true := by decide +kernel
theorem witness_EstimationFollowsItsRows_18 :
    let sess : Nat := 0; let r : Restore := ⟨0, 1, 7, 3, false, [], none, false⟩; let s : State := (fun (s : State) => { s with est := { s.est with restore := some ⟨0, 1, 7, 3, false, [], none, false⟩ } }.wrB R.EST_RESTORE_STATUS_STAGED true) (opened (on 9));
    s.keyed sess 0xA5 = true ∧ s.on R.EST_RESTORE_STATUS_STAGED = true ∧ s.est.restore = some r := by decide +kernel
theorem witness_StringsAndContainersOpenAndClose_1 :
    let i : Nat := 0; let s : State := (joined.modPstr 0 fun x => { x with opening := true });
    s.idle = true ∧ s.mayCommand = true ∧ (s.pstr i).opening = true ∧ (s.pstr i).sentOpen = false ∧ (s.pstr i).inFlight = false ∧ s.reaches (i / 256) (s.stringBerth i) = true := by decide +kernel
theorem witness_StringsAndContainersOpenAndClose_2 :
    let i : Nat := 0; let s : State := closable;
    s.idle = true ∧ s.underway = true ∧ s.mayCommand = true ∧ s.closeReady i = true ∧ s.closeWindow i = true ∧ s.reaches (i / 256) (s.stringBerth i) = true := by decide +kernel
theorem witness_StringsAndContainersOpenAndClose_3 :
    let i : Nat := 0; let s : State := (closable.modPcon 0 fun x => { x with word := 1, busV := 900 });
    s.idle = true ∧ s.underway = true ∧ s.mayCommand = true ∧ s.closeReady i = true ∧ s.closeWindow i = false := by decide +kernel
theorem witness_StringsAndContainersOpenAndClose_4 :
    let i : Nat := 0; let s : State := (joined.modPstr 0 fun x => { x with state := 2 });
    s.idle = true ∧ (s.pstr i).state = 2 := by decide +kernel
theorem witness_StringsAndContainersOpenAndClose_5 :
    let i : Nat := 0; let q : Nat := 1; let c : Cmd := task 1 0x0701 0 []; let s : State := ((served 1 (task 1 0x0701 0 []) joined).modPstr 0 fun x => { x with state := 2, closeQ := some 1 });
    s.idle = true ∧ (s.pstr i).state = 2 ∧ (s.pstr i).closeQ = some q ∧ (s.pstr i).openQ = none ∧ s.serving q c.code c = true := by decide +kernel
theorem witness_StringsAndContainersOpenAndClose_6 :
    let c : Nat := 0; let s : State := (joined.modPcon 0 fun x => { x with state := 2 });
    (s.pcon c).state = 2 := by decide +kernel
theorem witness_StringsAndContainersOpenAndClose_7 :
    let c : Nat := 0; let s : State := ((joined.wr R.PWR_TICK_LO 30000).modPcon 0 fun x => { x with state := 4, openAt := 100 });
    s.idle = true ∧ s.mayCommand = true ∧ (s.pcon c).state = 4 ∧ (s.pcon c).sentOpen = false ∧ (s.conNode c).state = 3 ∧ s.reaches (c / 16) (s.containerBerth c) = true ∧ (s.pcon c).openAt + 20000 ≤ s.tick ∧ (s.pcon c).inFlight = false := by decide +kernel
theorem witness_StringsAndContainersOpenAndClose_8 :
    let c : Nat := 0; let s : State := ((joined.wr R.PWR_TICK_LO 300).modPcon 0 fun x => { x with state := 4, openAt := 300 });
    s.idle = true ∧ s.mayCommand = true ∧ (s.pcon c).state = 4 ∧ (s.pcon c).sentOpen = false ∧ s.reaches (c / 16) (s.containerBerth c) = true ∧ s.tick < (s.pcon c).openAt + 20000 := by decide +kernel
theorem witness_StringsAndContainersOpenAndClose_9 :
    let c : Nat := 0; let s : State := (joined.modPcon 0 fun x => { x with watch := [(0, 3)] });
    s.idle = true ∧ s.mayCommand = true ∧ (s.pcon c).watch ≠ [] ∧ (s.conNode c).state = 3 ∧ s.reaches (c / 16) (s.containerBerth c) = true := by decide +kernel
theorem witness_StringsAndContainersOpenAndClose_10 :
    let c : Nat := 0; let s : State := joined;
    s.idle = true ∧ s.mayCommand = true ∧ (s.conNode c).state = 3 ∧ s.reaches (c / 16) (s.containerBerth c) = true := by decide +kernel
theorem witness_StringsAndContainersOpenAndClose_12 :
    let i : Nat := 0; let y : CfgRec := rec' 4 1 0 16 []; let s : State := (({ joined with man := { joined.man with cfg := plant ++ [rec' 4 1 0 16 []] } }.modEst 0 fun x => { x with state := 3, cells := [] }).wr R.PLT_BALANCE_INHIBIT 0);
    s.idle = true ∧ s.mayCommand = true ∧ s.strings = [i] ∧ s.strType i = some y ∧ s.mayBalance i = true ∧ s.reaches (i / 256) (s.stringBerth i) = true ∧ markCells y ((s.estStr i).cells.zip (s.estStr i).learned) (s.pstr i).marked ≠ [] := by decide +kernel
theorem witness_StringsAndContainersOpenAndClose_13 :
    let c : Nat := 0; let s : State := joined;
    s.idle = true ∧ s.mayCommand = true ∧ s.containers = [c] ∧ (s.pcon c).sentAt = none ∧ s.reaches (c / 16) (s.containerBerth c) = true := by decide +kernel
theorem witness_StringsAndContainersOpenAndClose_14 :
    let c : Nat := 0; let s : State := (joined.modPcon 0 fun x => { x with thermBlock := true });
    bit (s.pcon c).word 6 = false := by decide +kernel
theorem witness_StringsAndContainersOpenAndClose_15 :
    let q : Nat := 1; let i : Nat := 0; let c : Cmd := task 1 0x0701 0 (le 2 0); let s : State := ((served 1 (task 1 0x0701 0 (le 2 0)) joined).modPstr 0 fun x => { x with state := 3 });
    s.serving q 0x0701 c = true ∧ i = u16 c.args 0 % 4096 ∧ (s.cfg 5 3 i).isSome = true ∧ (s.pstr i).state = 3 := by decide +kernel
theorem witness_StringsAndContainersOpenAndClose_16 :
    let q : Nat := 1; let i : Nat := 0; let c : Cmd := task 1 0x0701 0 (le 2 0); let s : State := served 1 (task 1 0x0701 0 (le 2 0)) closable;
    s.serving q 0x0701 c = true ∧ i = u16 c.args 0 % 4096 ∧ (s.cfg 5 3 i).isSome = true ∧ (s.pstr i).closeQ = none ∧ s.idle = true ∧ s.underway = true ∧ s.mayCommand = true ∧ (s.setIntent i true).closeReady i = true ∧ s.closeWindow i = true ∧ s.reaches (i / 256) (s.stringBerth i) = true := by decide +kernel
theorem witness_StringsAndContainersOpenAndClose_17 :
    let q : Nat := 1; let i : Nat := 0; let c : Cmd := task 1 0x0702 0 (le 2 0); let s : State := ((served 1 (task 1 0x0702 0 (le 2 0)) closable).modPstr 0 fun x => { x with state := 3 });
    s.serving q 0x0702 c = true ∧ i = u16 c.args 0 % 4096 ∧ (s.cfg 5 3 i).isSome = true ∧ s.openRole c = true ∧ (s.pstr i).state = 3 ∧ (s.pstr i).openQ = none ∧ (s.pstr i).opening = false ∧ s.idle = true := by decide +kernel
theorem witness_StringsAndContainersOpenAndClose_18 :
    let q : Nat := 1; let i : Nat := 0; let c : Cmd := task 1 0x0702 0 (le 2 0); let s : State := served 1 (task 1 0x0702 0 (le 2 0)) closable;
    s.serving q 0x0702 c = true ∧ i = u16 c.args 0 % 4096 ∧ (s.cfg 5 3 i).isSome = true ∧ s.openRole c = true ∧ (s.pstr i).state = 1 ∧ (s.pstr i).openQ = none ∧ (s.pstr i).opening = false ∧ (s.pstr i).closeQ = none ∧ (s.estStr i).contact % 4 = 0 := by decide +kernel
theorem witness_StringsAndContainersOpenAndClose_19 :
    let q : Nat := 1; let i : Nat := 0; let c : Cmd := task 1 0x0702 0 (le 2 0); let s : State := (served 1 (task 1 0x0702 0 (le 2 0)) closable).modEst 0 fun x => { x with contact := 3 };
    s.serving q 0x0702 c = true ∧ i = u16 c.args 0 % 4096 ∧ (s.cfg 5 3 i).isSome = true ∧ s.openRole c = true ∧ s.idle = true ∧ (s.pstr i).state = 1 ∧ (s.pstr i).openQ = none ∧ (s.pstr i).opening = false ∧ (s.pstr i).closeQ = none ∧ (s.estStr i).contact % 4 ≠ 0 := by decide +kernel
theorem witness_StringsAndContainersOpenAndClose_20 :
    let q : Nat := 1; let k : Nat := 0; let c : Cmd := task 1 0x0703 0 (le 2 0); let s : State := ((served 1 (task 1 0x0703 0 (le 2 0)) closable).modPstr 0 fun x => { x with state := 3 });
    s.serving q 0x0703 c = true ∧ k = u16 c.args 0 % 256 ∧ (s.cfg 5 2 k).isSome = true ∧ (s.pcon k).state = 1 ∧ (s.pcon k).closeQ = none ∧ (s.pcon k).inFlight = false ∧ bit (s.pcon k).word 3 = false ∧ s.idle = true ∧ s.underway = true ∧ s.mayCommand = true ∧ (s.stringsOf k).any (fun i => (s.pstr i).state == 3) = true ∧ s.reaches (k / 16) (s.containerBerth k) = true := by decide +kernel
theorem witness_StringsAndContainersOpenAndClose_21 :
    let q : Nat := 1; let k : Nat := 0; let c : Cmd := task 1 0x0704 0 (le 2 0 ++ [1#8]); let s : State := ((served 1 (task 1 0x0704 0 (le 2 0 ++ [1#8])) closable).modPcon 0 fun x => { x with state := 3, word := 1 });
    s.serving q 0x0704 c = true ∧ k = u16 c.args 0 % 256 ∧ (s.cfg 5 2 k).isSome = true ∧ s.openRole c = true ∧ (s.pcon k).state = 3 ∧ (s.pcon k).closeQ = none ∧ (s.pcon k).openQ ≠ some q ∧ bit (s.pcon k).word 0 = true := by decide +kernel
theorem witness_StringsAndContainersOpenAndClose_22 :
    let q : Nat := 1; let k : Nat := 0; let c : Cmd := task 1 0x0704 0 (le 2 0); let s : State := served 1 (task 1 0x0704 0 (le 2 0)) closable;
    s.serving q 0x0704 c = true ∧ k = u16 c.args 0 % 256 ∧ (s.cfg 5 2 k).isSome = true ∧ s.openRole c = true ∧ (s.pcon k).state = 1 ∧ (s.pcon k).closeQ = none ∧ bit (s.pcon k).word 0 = false ∧ bit (u8 c.args 2) 0 = false ∧ s.idle = true := by decide +kernel
theorem witness_StringsAndContainersOpenAndClose_23 :
    let q : Nat := 1; let i : Nat := 0; let c : Cmd := task 1 0x0705 0 (le 4 0); let s : State := ((served 1 (task 1 0x0705 0 (le 4 0)) closable).modPstr 0 fun x => { x with state := 5, cause := 1 });
    s.serving q 0x0705 c = true ∧ u8 c.args 0 = 0 ∧ i = u16 c.args 2 % 4096 ∧ (s.pstr i).state = 5 ∧ s.causeHolds i (s.pstr i).cause = false := by decide +kernel
theorem witness_StringsAndContainersOpenAndClose_24 :
    let q : Nat := 1; let k : Nat := 0; let c : Cmd := task 1 0x0705 0 (le 4 1); let s : State := ((served 1 (task 1 0x0705 0 (le 4 1)) closable).modPcon 0 fun x => { x with state := 5, cause := 1 });
    s.serving q 0x0705 c = true ∧ u8 c.args 0 ≠ 0 ∧ k = u16 c.args 2 % 256 ∧ (s.pcon k).state = 5 ∧ s.conCauseHolds k = false := by decide +kernel
theorem witness_StringsAndContainersOpenAndClose_25 :
    let q : Nat := 1; let k : Nat := 0; let c : Cmd := task 1 0x0706 0 (le 2 0 ++ [2#8]); let s : State := (served 1 (task 1 0x0706 0 (le 2 0 ++ [2#8])) closable).modPcon 0 fun x => { x with seen := true };
    s.serving q 0x0706 c = true ∧ k = u16 c.args 0 % 256 ∧ (s.cfg 5 2 k).isSome = true ∧ u8 c.args 2 ≤ 2 ∧ s.idle = true ∧ s.reaches (k / 16) (s.containerBerth k) = true ∧ (u8 c.args 2 = 2 → s.conOpenSeen k = true) := by decide +kernel
theorem witness_DispatchAndModesFollowTheirRows_1 :
    let units : Bool := true; let s : State := ((on 9).wrB R.PLT_EVAC_STATUS_MAINS_LOST false).wrB R.PLT_EVAC_STATUS_FIRE_ALARM false;
    s.underway = true ∧ s.mainsLost = false ∧ s.fireAlarm = false := by decide +kernel
theorem witness_DispatchAndModesFollowTheirRows_2 :
    let units : Bool := false; let s : State := ((on 9).wrB R.PLT_EVAC_STATUS_MAINS_LOST false).wrB R.PLT_EVAC_STATUS_FIRE_ALARM true;
    s.underway = true ∧ s.mainsLost = false ∧ s.fireAlarm = true ∧ s.dispMode ≠ EVACUATION := by decide +kernel
theorem witness_DispatchAndModesFollowTheirRows_3a :
    let s : State := ((on 9).wrB R.PLT_EVAC_STATUS_MAINS_LOST true).wr R.PLT_DISP_STATUS_MODE 2;
    s.underway = true ∧ s.mainsLost = true := by decide +kernel
theorem witness_DispatchAndModesFollowTheirRows_3b :
    let s : State := ((on 9).wrB R.PLT_EVAC_STATUS_MAINS_LOST true).wr R.PLT_DISP_STATUS_MODE 3;
    s.underway = true ∧ s.mainsLost = true := by decide +kernel
theorem witness_DispatchAndModesFollowTheirRows_4 :
    let s : State := ((on 9).wrB R.PLT_EVAC_STATUS_MAINS_LOST true).wr R.PLT_DISP_STATUS_MODE 2;
    s.underway = true ∧ s.mainsLost = true ∧ s.evac = false ∧ s.dispMode ≠ EVACUATION := by decide +kernel
theorem witness_DispatchAndModesFollowTheirRows_5 :
    let s : State := (on 9).wrB R.PLT_EVAC_STATUS_MAINS_LOST false;
    s.underway = true ∧ s.mainsLost = false := by decide +kernel
theorem witness_DispatchAndModesFollowTheirRows_6 :
    let s : State := (((on 9).wrB R.PLT_EVAC_STATUS_FIRE_ALARM true).wrB R.PLT_EVAC_STATUS_EVACUATION true).wr R.PLT_DISP_STATUS_MODE 3;
    s.underway = true ∧ s.fireAlarm = true := by decide +kernel
theorem witness_DispatchAndModesFollowTheirRows_7 :
    let s : State := ringed Ring.empty [];
    s.mayCommand = true ∧ s.idle = true := by decide +kernel
theorem witness_DispatchAndModesFollowTheirRows_8 :
    let src : Nat := 4; let s : State := recs [rec' 8 1 0 32 [(0x11, 5)]] ((on 9).wr R.PLT_SOURCE_SELECT_IN_USE 4);
    src = s.srcInUse ∧ src ≠ 0 ∧ src ≠ 5 := by decide +kernel
theorem witness_DispatchAndModesFollowTheirRows_9 :
    let s : State := ((on 9).wr R.PLT_SOURCE_SELECT_SELECTED 5).wrB R.PLT_DISP_STATUS_SOURCE_FALLBACK true;
    s.on R.PLT_DISP_STATUS_SOURCE_FALLBACK = true ∧ s.srcFaulty (s.rd R.PLT_SOURCE_SELECT_SELECTED) = false := by decide +kernel
theorem witness_DispatchAndModesFollowTheirRows_10 :
    let sess : Nat := 0; let s : State := opened (((on 9).wr R.PLT_SOURCE_SELECT_SELECTED 5).wrB R.PLT_DISP_STATUS_SOURCE_FALLBACK true);
    s.keyed sess 0xA5 = true ∧ s.on R.PLT_DISP_STATUS_SOURCE_FALLBACK = true ∧ s.srcFaulty (s.rd R.PLT_SOURCE_SELECT_SELECTED) = false := by decide +kernel
theorem witness_DispatchAndModesFollowTheirRows_11 :
    let sess : Nat := 0; let code : Nat := 8; let s : State := recs [rec' 8 1 0 32 [(0x12, 17)]] (opened (on 9));
    s.holds sess 2 = true ∧ s.powered = true ∧ s.srcRec.any (fun r => bit (r.u8 0x12) (code % 8)) = true ∧ code % 8 < 5 ∧ s.srcFaulty (code % 8) = false := by decide +kernel
theorem witness_DispatchAndModesFollowTheirRows_12a :
    let sess : Nat := 0; let code : Nat := 5; let s : State := recs [rec' 8 1 0 32 [(0x12, 32)]] (opened (on 9));
    (5 ≤ code % 8 ∨ s.srcRec.any (fun r => bit (r.u8 0x12) (code % 8)) = false) := by decide +kernel
theorem witness_DispatchAndModesFollowTheirRows_12b :
    let sess : Nat := 0; let code : Nat := 4; let s : State := recs [rec' 8 1 0 32 [(0x12, 32)]] (opened (on 9));
    (5 ≤ code % 8 ∨ s.srcRec.any (fun r => bit (r.u8 0x12) (code % 8)) = false) := by decide +kernel
theorem witness_DispatchAndModesFollowTheirRows_13 :
    let sess : Nat := 0; let code : Nat := 4; let s : State := recs [rec' 8 1 0 32 [(0x12, 16)]] (opened (on 9));
    s.holds sess 2 = true ∧ s.powered = true ∧ s.srcRec.any (fun r => bit (r.u8 0x12) (code % 8)) = true ∧ code % 8 < 5 ∧ s.srcFaulty (code % 8) = true := by decide +kernel
theorem witness_DispatchAndModesFollowTheirRows_14 :
    let u : CfgRec := rec' 5 4 0 32 []; let dg : List Byte := pcsDatagram 0x81 0 1 0 0 0 (le 36 0); let s : State := (fun (s : State) => s.setPcs 0 { Pcs.fresh with good := 9 }) (recs [rec' 5 4 0 32 []] (on 9));
    s.portsUp = true ∧ s.goodStatus u dg = true := by decide +kernel
theorem witness_DispatchAndModesFollowTheirRows_15 :
    let p : Nat := 3; let s : State := (on 9).setPcs 3 { Pcs.fresh with state := 2 };
    s.pcsLive p = true := by decide +kernel
theorem witness_DispatchAndModesFollowTheirRows_16 :
    let x : OpenBill := ⟨1, 5, 0, 10, 0, 0, 0⟩; let s : State := { (on 9).wr R.PWR_PLANT_TIME_STATUS_STATE 1 with disp := { (on 9).disp with bill := some ⟨1, 5, 0, 10, 0, 0, 0⟩ } };
    s.disp.bill = some x ∧ s.timeKnown = true ∧ bit x.flags 2 = false ∧ x.label ≠ (s.slotLabel % 2 ^ 32).toNat := by decide +kernel
theorem witness_DispatchAndModesFollowTheirRows_17 :
    let x : OpenBill := ⟨1, 5, 0, 10, 0, 0, 0⟩; let s : State := { on 9 with disp := { (on 9).disp with bill := some ⟨1, 5, 0, 10, 0, 0, 0⟩ } };
    s.disp.bill = some x := by decide +kernel
theorem witness_DispatchAndModesFollowTheirRows_18 :
    let q : Nat := 1; let c : Cmd := task 1 0x0720 0 (le 8 500); let l : List SchedEntry := [⟨500, 0#32, false⟩]; let s : State := served 1 (task 1 0x0720 0 (le 8 500)) (on 9);
    s.serving q 0x0720 c = true ∧ l = schedPut s.disp.sched (SchedEntry.mk (u64 c.args 0) (BitVec.ofNat 32 (u32 c.args 8)) (bit (u8 c.args 12) 0)) ∧ (schedNow s.disp.sched s.plantNow).all (fun e => decide (e.time ≤ u64 c.args 0)) = true ∧ (s.disp.sched.length < 1024 ∨ s.disp.sched.any (fun e => e.time == u64 c.args 0) = true) := by decide +kernel
theorem witness_DispatchAndModesFollowTheirRows_19 :
    let q : Nat := 1; let c : Cmd := task 1 0x0721 0 (le 8 500); let l : List SchedEntry := []; let s : State := served 1 (task 1 0x0721 0 (le 8 500)) (on 9);
    s.serving q 0x0721 c = true ∧ l = s.disp.sched.filter (fun e => decide (e.time < u64 c.args 0)) := by decide +kernel
theorem witness_DispatchAndModesFollowTheirRows_20 :
    let q : Nat := 1; let c : Cmd := task 1 0x0722 0 (le 4 7 ++ [1#8]); let x : Billing := ⟨7, 60, 900, 0, 0, 0⟩; let s : State := (fun (s : State) => { s with nv := { s.nv with billing := [⟨7, 60, 900, 0, 0, 0⟩] } }) (served 1 (task 1 0x0722 0 (le 4 7 ++ [1#8])) (on 9));
    s.serving q 0x0722 c = true ∧ s.nv.billing.find? (fun b => b.seq == u32 c.args 0) = some x ∧ u8 c.args 4 < 3 := by decide +kernel
theorem witness_SignalsSyncAndPwmFaults_1 :
    let sess : Nat := 0; let v : Word := 0#32; let s : State := recs [rec' 2 1 0 64 [(0x10, 3)]] (opened (on 9));
    s.holds sess 2 = true ∧ s.powered = true ∧ s.hostBad (s.sel (some sess) R.LOOP_SIG_INDEX.addr % 65536) v = 0 := by decide +kernel
theorem witness_SignalsSyncAndPwmFaults_2 :
    let sess : Nat := 0; let v : Word := 0#32; let s : State := opened (on 9);
    s.holds sess 2 = true ∧ s.powered = true ∧ s.hostBad (s.sel (some sess) R.LOOP_SIG_INDEX.addr % 65536) v ≠ 0 := by decide +kernel
theorem witness_SignalsSyncAndPwmFaults_3 :
    let q : Nat := 1; let n : Nat := 0; let c : Cmd := task 1 0x0801 0 ([1#8] ++ le 11 0); let s : State := recs [rec' 2 1 0 64 [(0x10, 3)]] (served 1 (task 1 0x0801 0 ([1#8] ++ le 11 0)) (on 9));
    s.serving q 0x0801 c = true ∧ u8 c.args 0 = n + 1 ∧ n < 6 ∧ (List.range (n + 1)).all (fun k => s.hostBad (u16 c.args (4 + 8 * k)) (BitVec.ofNat 32 (u32 c.args (8 + 8 * k))) == 0) = true := by decide +kernel
theorem witness_SignalsSyncAndPwmFaults_4 :
    let q : Nat := 1; let c : Cmd := task 1 0x0802 0 (le 2 0); let s : State := (fun (s : State) => s.modSlot 0 fun x => { x with state := 3 }) (recs [rec' 3 1 0 64 []] (served 1 (task 1 0x0802 0 (le 2 0)) (on 9)));
    s.serving q 0x0802 c = true ∧ s.engine ≠ HALTED ∧ (s.slotRec (u16 c.args 0)).isSome = true ∧ s.slotParked (u16 c.args 0) = true := by decide +kernel
theorem witness_SignalsSyncAndPwmFaults_5 :
    let sess : Nat := 0; let s : State := (opened (on 9)).wr R.LOOP_SYNC_STATUS_STATE 3;
    s.keyed sess 0xA5 = true ∧ (s.rd R.LOOP_SYNC_STATUS_STATE = 0 ∨ s.rd R.LOOP_SYNC_STATUS_STATE = 3) := by decide +kernel
theorem witness_SignalsSyncAndPwmFaults_6 :
    let sess : Nat := 0; let s : State := (opened (on 9)).wr R.LOOP_SYNC_STATUS_STATE 2;
    s.keyed sess 0xA5 = true := by decide +kernel
theorem witness_SignalsSyncAndPwmFaults_7a :
    let cycle : Nat := 7875; let s : State := ((on 9).wr R.LOOP_SYNC_STATUS_STATE 1).wrB R.LOOP_STATUS_GLIDE_SCHEDULE true;
    s.loop.ended = none ∧ s.rd R.LOOP_SYNC_STATUS_STATE = 1 ∧ s.schedEnd ≤ cycle ∧ cycle ≤ s.lateLimit := by decide +kernel
theorem witness_SignalsSyncAndPwmFaults_7b :
    let cycle : Nat := 0; let s : State := (on 9).wr R.LOOP_SYNC_STATUS_STATE 1;
    s.loop.ended = none ∧ s.rd R.LOOP_SYNC_STATUS_STATE = 1 ∧ s.schedEnd ≤ cycle ∧ cycle ≤ s.lateLimit := by decide +kernel
theorem witness_SignalsSyncAndPwmFaults_8 :
    let cycle : Nat := 5; let s : State := recs [rec' 3 2 0 32 [(0x10, 10), (0x12, 1)]] (((on 9).wr R.LOOP_SYNC_STATUS_STATE 2).wrB R.LOOP_STATUS_GLIDE_SCHEDULE false);
    s.loop.ended = none ∧ s.rd R.LOOP_SYNC_STATUS_STATE = 2 ∧ s.periodEnds = true ∧ cycle < s.schedEnd := by decide +kernel
theorem witness_SignalsSyncAndPwmFaults_9a :
    let cycle : Nat := 10; let s : State := recs [rec' 3 2 0 32 [(0x10, 10), (0x12, 1)]] (((on 9).wr R.LOOP_SYNC_STATUS_STATE 2).wrB R.LOOP_STATUS_GLIDE_SCHEDULE false);
    s.loop.ended = none ∧ s.rd R.LOOP_SYNC_STATUS_STATE = 2 ∧ s.periodEnds = true ∧ s.schedEnd ≤ cycle ∧ cycle ≤ s.lateLimit := by decide +kernel
theorem witness_SignalsSyncAndPwmFaults_9b :
    let cycle : Nat := 31500; let s : State := recs [rec' 3 2 0 32 [(0x10, 10), (0x12, 1)]] (((on 9).wr R.LOOP_SYNC_STATUS_STATE 2).wrB R.LOOP_STATUS_GLIDE_SCHEDULE false);
    s.loop.ended = none ∧ s.rd R.LOOP_SYNC_STATUS_STATE = 2 ∧ s.periodEnds = true ∧ s.schedEnd ≤ cycle ∧ cycle ≤ s.lateLimit := by decide +kernel
theorem witness_SignalsSyncAndPwmFaults_10 :
    let s : State := recs [rec' 3 2 0 32 [(0x10, 10), (0x12, 1)]] (((on 9).wr R.LOOP_SYNC_STATUS_STATE 2).wr R.LOOP_SYNC_STATUS_MISSED_RUN 2);
    s.rd R.LOOP_SYNC_STATUS_STATE = 2 ∧ s.periodEnds = true ∧ s.loop.ended = none := by decide +kernel
theorem witness_SignalsSyncAndPwmFaults_11 :
    let i : Nat := 3; let s : State := on 9;
    i < 4 ∧ s.powered = true := by decide +kernel
theorem witness_SignalsSyncAndPwmFaults_12 :
    let i : Nat := 0; let s : State := (on 9).wr R.PWM_FAULT_STATUS_LATCHED 15;
    i < 4 ∧ s.powered = true := by decide +kernel
theorem witness_SignalsSyncAndPwmFaults_13 :
    let sess : Nat := 0; let i : Nat := 2; let v : Word := 15#32; let s : State := ((opened (on 9)).wr R.PWM_FAULT_STATUS_LATCHED 15).wr R.PWM_FAULT_STATUS_ACTIVE 8;
    s.holds sess 2 = true ∧ s.powered = true ∧ i < 4 := by decide +kernel
theorem witness_TheLiftGroupTakesItsCalls_1 :
    let s : State := ringed Ring.empty [];
    s.underway = true ∧ s.mayCommand = true ∧ s.pwr.berthRun = false ∧ (s.dispMode ≠ EVACUATION ∨ s.rd R.GRP_STATUS_MODE = 3) := by decide +kernel
theorem witness_TheLiftGroupTakesItsCalls_2 :
    let s : State := on 8;
    (s.underway = false ∨ s.mayCommand = false ∨ s.pwr.berthRun = true) := by decide +kernel
theorem witness_TheLiftGroupTakesItsCalls_3 :
    let f : Nat := 3; let b : Nat := 1; let n : Nat := 1; let r : CfgRec := rec' 11 6 3 32 [(0x14, 4)]; let s : State := recs [rec' 11 6 3 32 [(0x14, 4)]] (on 9);
    s.portsUp = true ∧ s.fixRec f = some r ∧ r.fxType = 0 ∧ b ≤ 1 ∧ n = s.grp.nextId ∧ (s.fixt f).stuck.contains b = false ∧ s.standing.all (fun p => p.2.kind != b || p.2.landing != r.u8 0x14 || p.2.entrance != r.u8 0x15 || p.2.aboard) = true := by decide +kernel
theorem witness_TheLiftGroupTakesItsCalls_4 :
    let f : Nat := 3; let b : Nat := 1; let r : CfgRec := rec' 11 6 3 32 [(0x14, 4)]; let s : State := recs [rec' 11 6 3 32 [(0x14, 4)]] ((on 9).modFixt 3 fun x => { x with pressed := [1], stuck := [1] });
    s.portsUp = true ∧ s.fixRec f = some r ∧ r.fxType ≠ 2 := by decide +kernel
theorem witness_TheLiftGroupTakesItsCalls_5 :
    let f : Nat := 3; let dest : Nat := 9; let ent : Nat := 1; let flags : Nat := 1; let n : Nat := 1; let r : CfgRec := rec' 11 6 3 32 [(0x13, 1)]; let s : State := recs [rec' 11 6 3 32 [(0x13, 1)]] (on 9);
    s.portsUp = true ∧ s.fixRec f = some r ∧ r.fxType = 1 ∧ n = s.grp.nextId ∧ s.standing.all (fun p => p.2.kind != 2 || p.2.landing != r.u8 0x14 || p.2.entrance != r.u8 0x15 || p.2.dest != dest || p.2.aboard) = true := by decide +kernel
theorem witness_TheLiftGroupTakesItsCalls_6 :
    let f : Nat := 3; let on' : Bool := true; let r : CfgRec := rec' 11 6 3 32 []; let s : State := recs [rec' 11 6 3 32 []] (on 9);
    s.portsUp = true ∧ s.fixRec f = some r ∧ s.grp.fireRecall ≠ on' := by decide +kernel
theorem witness_TheLiftGroupTakesItsCalls_7 :
    let f : Nat := 3; let on' : Bool := true; let r : CfgRec := rec' 11 6 3 32 []; let s : State := recs [rec' 11 6 3 32 [], rec' 6 2 0 80 []] (on 9);
    s.portsUp = true ∧ s.fixRec f = some r ∧ s.cars.contains (r.u8 0x16) = true := by decide +kernel
theorem witness_TheLiftGroupTakesItsCalls_8 :
    let f : Nat := 3; let on' : Bool := true; let r : CfgRec := rec' 11 6 3 32 []; let s : State := recs [rec' 11 6 3 32 [], rec' 6 2 0 80 []] (on 9);
    s.portsUp = true ∧ s.fixRec f = some r ∧ s.cars.contains (r.u8 0x16) = true := by decide +kernel
theorem witness_TheLiftGroupTakesItsCalls_9 :
    let f : Nat := 3; let status : Nat := 5; let s : State := recs [rec' 11 6 3 32 []] (on 9);
    s.portsUp = true ∧ (s.fixRec f).isSome = true := by decide +kernel
theorem witness_TheLiftGroupTakesItsCalls_10 :
    let f : Nat := 3; let s : State := recs [rec' 11 6 3 32 []] (on 9);
    (s.fixRec f).isSome = true ∧ (s.fixt f).lost = false := by decide +kernel
theorem witness_TheLiftGroupTakesItsCalls_11 :
    let f : Nat := 3; let b : Nat := 1; let s : State := (on 9).modFixt 3 fun x => { x with pressed := [1] };
    (s.fixt f).pressed.contains b = true ∧ (s.fixt f).stuck.contains b = false := by decide +kernel
theorem witness_TheLiftGroupTakesItsCalls_12 :
    let f : CfgRec := rec' 11 6 3 32 [(0x10, 1)]; let s : State := recs [rec' 11 6 3 32 [(0x10, 1)]] (ringed Ring.empty [] |> fun s => s);
    s.mayCommand = true ∧ s.fixtures = [f] ∧ f.u8 0x10 ≠ 0 := by decide +kernel
theorem witness_TheLiftGroupTakesItsCalls_13 :
    let i : Nat := 5; let f : CfgRec := rec' 11 6 3 32 [(0x10, 1), (0x14, 4)]; let b : Nat := 0; let s : State := recs [rec' 11 6 3 32 [(0x10, 1), (0x14, 4)]] ((on 9).modGrp fun g => { g with calls := [(5, { Call.blank with state := 4, landing := 4 })] });
    (s.call i).state = 4 ∧ s.lampsOf (s.call i) = [(f, b)] ∧ f.u8 0x10 ≠ 0 := by decide +kernel
theorem witness_TheLiftGroupTakesItsCalls_14 :
    let c : Nat := 0; let l : Nat := 1; let s : State := (((ringed Ring.empty []).wr (R.GRP_CAR_STATE_STATE 0) 2).wr (R.CAR_STATUS_STATE 0) 0).wr R.GRP_PATTERN_SELECTED 255 |> recs [rec' 6 2 0 80 [(0x40, 2)], rec' 6 1 1 32 [(0x16, 1)], rec' 7 2 0 48 [(0x10, 2), (0x20, 1), (0x22, 2)]] |> fun s => s.wr R.PWR_PLANT_TIME_STATUS_STATE 0;
    s.underway = true ∧ s.mayCommand = true ∧ s.gState c = IN_GROUP ∧ s.carCalls c = [] ∧ s.carMoves c = false ∧ (s.gcar c).parked = false ∧ s.parkAt c = some l ∧ s.landingHere c ≠ some l ∧ s.frozen c = false ∧ c < 8 := by decide +kernel
theorem witness_TheLiftGroupTakesItsCalls_15 :
    let c : Nat := 0; let l : Nat := 1; let s : State := (((ringed Ring.empty []).wr (R.GRP_CAR_STATE_STATE 0) 2).wr (R.CAR_STATUS_STATE 0) 0).wr R.GRP_PATTERN_SELECTED 7;
    s.underway = true ∧ s.mayCommand = true ∧ s.gState c = IN_GROUP ∧ s.carCalls c = [] ∧ s.carMoves c = false ∧ (s.gcar c).parked = false ∧ s.parkAt c = none := by decide +kernel
theorem witness_TheLiftGroupTakesItsCalls_16 :
    let c : Nat := 0; let s : State := ((on 9).wr (R.GRP_CAR_STATE_STATE 0) 8).wr R.GRP_STATUS_MODE 3 |> fun (s : State) => s.modGcar 0 fun x => { x with phase := 2, pickup := 4 };
    s.rd R.GRP_STATUS_MODE = 3 ∧ s.gState c = IN_EVACUATION ∧ (s.gcar c).phase = 2 ∧ s.landingHere c ≠ some s.discharge := by decide +kernel
theorem witness_TheLiftGroupTakesItsCalls_17 :
    let q : Nat := 1; let n : Nat := 1; let c : Cmd := task 1 0x0A01 0 [1#8, 1#8, 0#8]; let s : State := recs [rec' 6 2 0 80 [(0x40, 2)], rec' 6 1 1 32 [], rec' 6 3 0 32 []] (served 1 (task 1 0x0A01 0 [1#8, 1#8, 0#8]) (on 9));
    s.serving q 0x0A01 c = true ∧ s.underway = true ∧ s.dispMode ≠ EVACUATION ∧ s.reserveUnknown = false ∧ u8 c.args 0 ≤ 1 ∧ n = s.grp.nextId ∧ s.cars.any (fun j => s.servesAt j (u8 c.args 1) (u8 c.args 2)) = true ∧ s.standing = [] := by decide +kernel
theorem witness_TheLiftGroupTakesItsCalls_18 :
    let q : Nat := 1; let i : Nat := 5; let c : Cmd := task 1 0x0A02 0 (le 4 5); let s : State := (served 1 (task 1 0x0A02 0 (le 4 5)) (on 9)).modGrp fun g => { g with calls := [(5, { Call.blank with state := 2 })] };
    s.serving q 0x0A02 c = true ∧ i = u32 c.args 0 ∧ (s.call i).stands = true := by decide +kernel
theorem witness_TheLiftGroupTakesItsCalls_19 :
    let q : Nat := 1; let c : Cmd := task 1 0x0A03 0 [0#8, 2#8]; let s : State := recs [rec' 6 2 0 80 []] (served 1 (task 1 0x0A03 0 [0#8, 2#8]) (on 9));
    s.serving q 0x0A03 c = true ∧ s.cars.contains (u8 c.args 0) = true ∧ u8 c.args 1 ≤ 2 := by decide +kernel
theorem witness_TheLiftGroupTakesItsCalls_20 :
    let q : Nat := 1; let n : Nat := 1; let c : Cmd := task 1 0x0A04 0 [1#8]; let s : State := recs [rec' 6 1 1 32 []] (served 1 (task 1 0x0A04 0 [1#8]) ((on 9).wr R.GRP_STATUS_MODE 3));
    s.serving q 0x0A04 c = true ∧ s.rd R.GRP_STATUS_MODE = 3 ∧ (s.cfg 6 1 (u8 c.args 0)).isSome = true ∧ u8 c.args 2 = 0 ∧ n = s.grp.nextId ∧ s.standing.all (fun p => p.2.kind != 4) = true := by decide +kernel
theorem witness_TheLiftGroupTakesItsCalls_21 :
    let q : Nat := 1; let c : Cmd := task 1 0x0A04 0 [1#8, 0#8, 1#8]; let s : State := recs [rec' 6 1 1 32 []] (served 1 (task 1 0x0A04 0 [1#8, 0#8, 1#8]) ((on 9).wr R.GRP_STATUS_MODE 3));
    s.serving q 0x0A04 c = true ∧ s.rd R.GRP_STATUS_MODE = 3 ∧ (s.cfg 6 1 (u8 c.args 0)).isSome = true ∧ u8 c.args 2 ≠ 0 := by decide +kernel
theorem witness_TheLiftGroupTakesItsCalls_22 :
    let q : Nat := 1; let c : Cmd := task 1 0x0A05 0 (le 4 5); let k : Call := { Call.blank with state := 2 }; let s : State := (served 1 (task 1 0x0A05 0 (le 4 5)) (on 9)).modGrp fun g => { g with calls := [(5, { Call.blank with state := 2 })] };
    s.serving q 0x0A05 c = true ∧ tget s.grp.calls (u32 c.args 0) = some k := by decide +kernel
theorem witness_CarsArePlacedMovedAndStopped_1a :
    let c : Nat := 0; let frame : Nat := 9; let stamp : Nat := 1000; let v : Nat := 9; let back : Rat := 0; let r : CfgRec := rec' 6 4 0 96 [(0x11, 0), (0x12, 8), (0x13, 8)]; let s : State := lift;
    s.powered = true ∧ s.posRec c = some r ∧ r.ssiDecode frame = some v ∧ (s.ch c).tape.all (fun a => decide ((((r.tapeUm v - a.1).natAbs : Nat) : Rat) ≤ ratAbs (s.ch c).vel * ((stamp - a.2 : Nat) : Rat) / 3000 + 10000)) = true := by decide +kernel
theorem witness_CarsArePlacedMovedAndStopped_1b :
    let c : Nat := 0; let frame : Nat := 9; let stamp : Nat := 1000; let v : Nat := 9; let back : Rat := 0; let r : CfgRec := rec' 6 4 0 96 [(0x11, 0), (0x12, 8), (0x13, 8)]; let s : State := lift.modCh 0 fun x => { x with tape := some (10000, 100), known := true };
    s.powered = true ∧ s.posRec c = some r ∧ r.ssiDecode frame = some v ∧ (s.ch c).tape.all (fun a => decide ((((r.tapeUm v - a.1).natAbs : Nat) : Rat) ≤ ratAbs (s.ch c).vel * ((stamp - a.2 : Nat) : Rat) / 3000 + 10000)) = true := by decide +kernel
theorem witness_CarsArePlacedMovedAndStopped_2 :
    let c : Nat := 0; let frame : Nat := 1; let stamp : Nat := 1000; let back : Rat := 0; let r : CfgRec := rec' 6 4 0 96 [(0x11, 16), (0x12, 8), (0x13, 7)]; let s : State := recs [rec' 6 4 0 96 [(0x11, 16), (0x12, 8), (0x13, 7)]] lift;
    s.powered = true ∧ s.posRec c = some r ∧ r.ssiDecode frame = none := by decide +kernel
theorem witness_CarsArePlacedMovedAndStopped_3a :
    let c : Nat := 0; let src : Nat := 1; let falling : Bool := false; let stamp : Nat := 7; let back : Rat := 0; let r : CfgRec := rec' 6 4 0 96 [(0x11, 0), (0x12, 8), (0x13, 8)]; let s : State := lift;
    s.powered = true ∧ s.posRec c = some r := by decide +kernel
theorem witness_CarsArePlacedMovedAndStopped_3b :
    let c : Nat := 0; let src : Nat := 3; let falling : Bool := false; let stamp : Nat := 7; let back : Rat := 0; let r : CfgRec := rec' 6 4 0 96 [(0x11, 0), (0x12, 8), (0x13, 8)]; let s : State := lift;
    s.powered = true ∧ s.posRec c = some r := by decide +kernel
theorem witness_CarsArePlacedMovedAndStopped_3c :
    let c : Nat := 0; let src : Nat := 0; let falling : Bool := true; let stamp : Nat := 7; let back : Rat := 0; let r : CfgRec := rec' 6 4 0 96 [(0x11, 0), (0x12, 8), (0x13, 8)]; let s : State := lift.modCh 0 fun x => { x with vaneRise := some 5 };
    s.powered = true ∧ s.posRec c = some r := by decide +kernel
theorem witness_CarsArePlacedMovedAndStopped_3d :
    let c : Nat := 0; let src : Nat := 2; let falling : Bool := true; let stamp : Nat := 7; let back : Rat := 0; let r : CfgRec := rec' 6 4 0 96 [(0x11, 0), (0x12, 8), (0x13, 8)]; let s : State := lift.modCh 0 fun x => { x with rise := some 5 };
    s.powered = true ∧ s.posRec c = some r := by decide +kernel
theorem witness_CarsArePlacedMovedAndStopped_4a :
    let c : Nat := 0; let s : State := lift.wr (R.POS_STATUS_QUALITY 0) 1;
    s.powered = true ∧ (s.posRec c).isSome = true ∧ c < 8 ∧ s.motorBad c = false := by decide +kernel
theorem witness_CarsArePlacedMovedAndStopped_4b :
    let c : Nat := 0; let s : State := (lift.wr (R.POS_STATUS_QUALITY 0) 2).wrB (R.POS_STATUS_TAPE_FAULT 0) true;
    s.powered = true ∧ (s.posRec c).isSome = true ∧ c < 8 ∧ s.motorBad c = false := by decide +kernel
theorem witness_CarsArePlacedMovedAndStopped_5 :
    let c : Nat := 0; let l : Nat := 1; let e : Nat := 1; let s : State := lift;
    s.underway = true ∧ (s.served c).contains l = true ∧ s.frozen c = false ∧ c < 8 := by decide +kernel
theorem witness_CarsArePlacedMovedAndStopped_6 :
    let c : Nat := 0; let l : Nat := 1; let e : Nat := 1; let s : State := lift.wrB (R.POS_STATUS_TARGET_FROZEN 0) true;
    s.frozen c = true := by decide +kernel
theorem witness_CarsArePlacedMovedAndStopped_7 :
    let sess : Nat := 0; let c : Nat := 7; let motorOk : Bool := true; let tapeOk : Bool := false; let s : State := (lift.wrB (R.POS_STATUS_TAPE_FAULT 7) true).wrB (R.POS_STATUS_MOTOR_FAULT 7) true;
    s.keyed sess 0xA5 = true ∧ c < 8 := by decide +kernel
theorem witness_CarsArePlacedMovedAndStopped_8 :
    let c : Nat := 0; let d : List Byte := le 24 (1 + 65536 * 9); let s : State := lift.modCar 0 fun x => { x with drvGood := 9 };
    s.portsUp = true ∧ (s.carRec c).isSome = true ∧ d.length = 24 ∧ seqNew (s.carOf c).drvSeq (u16 d 0) = true ∧ c < 8 := by decide +kernel
theorem witness_CarsArePlacedMovedAndStopped_9 :
    let c : Nat := 0; let s : State := lift.wr (R.CAR_STATUS_STATE 0) 3;
    s.portsUp = true ∧ (s.carRec c).isSome = true ∧ c < 8 ∧ s.on (R.CAR_DRIVE_STATUS_LOST c) = false := by decide +kernel
theorem witness_CarsArePlacedMovedAndStopped_10 :
    let s : State := ((lift.wrB R.LOOP_STATUS_GLIDE_SCHEDULE true).wr (R.MBC_STATUS_STATE 8) 1).wr R.PWR_THERMAL_STATUS_STAGE 0;
    s.loopGlide = true ∧ s.underway = true ∧ s.mayCommand = true ∧ [1, 2, 5].contains (s.canState 8) = true ∧ (s.mbcOf 8).wakeAt = none := by decide +kernel
theorem witness_CarsArePlacedMovedAndStopped_11 :
    let c : Nat := 0; let s : State := lift.wr (R.CAR_STATUS_STATE 0) 2;
    s.carState c = STARTING ∧ c < 8 := by decide +kernel
theorem witness_CarsArePlacedMovedAndStopped_12 :
    let c : Nat := 7; let s : State := lift.wr (R.CAR_STATUS_STATE 7) 5;
    s.carState c = LEVELLING ∧ (s.carOf c).dropping = false ∧ c < 8 := by decide +kernel
theorem witness_CarsArePlacedMovedAndStopped_13 :
    let c : Nat := 0; let s : State := lift.wr (R.CAR_STATUS_STATE 0) 6;
    s.carState c = RELEVELLING ∧ (s.carOf c).dropping = false ∧ c < 8 := by decide +kernel
theorem witness_CarsArePlacedMovedAndStopped_14 :
    let c : Nat := 0; let top : Bool := true; let active : Bool := true; let s : State := lift.wr (R.CAR_STATUS_STATE 0) 3;
    s.powered = true ∧ (s.carRec c).isSome = true ∧ c < 8 := by decide +kernel
theorem witness_CarsArePlacedMovedAndStopped_15 :
    let c : Nat := 0; let e : Nat := 3; let active : Bool := true; let s : State := lift.wr (R.CAR_STATUS_STATE 0) 3;
    s.powered = true ∧ (s.carRec c).isSome = true ∧ c < 8 ∧ e < 4 := by decide +kernel
theorem witness_CarsArePlacedMovedAndStopped_16 :
    let c : Nat := 0; let e : Nat := 0; let r : CfgRec := rec' 6 2 0 128 [(0x40, 3)]; let s : State := (lift.wr (R.CAR_STATUS_STATE 0) 3).modCh 0 fun x => { x with vel := 2 };
    s.powered = true ∧ s.carRec c = some r ∧ c < 8 ∧ e < 4 ∧ s.carState c = SPEED_MODE ∧ r.f32 (0x54 + 12 * e) * 103 / 100 < ratAbs (s.ch c).vel := by decide +kernel
theorem witness_CarsArePlacedMovedAndStopped_17 :
    let q : Nat := 1; let k : Nat := 0; let c : Cmd := task 1 0x0B01 0 []; let s : State := (fun (s : State) => { s with hq := { s.hq with running := [(1, task 1 0x0B01 0 [])] } }) (lift.wr (R.CAR_STATUS_STATE 0) 3);
    s.serving q 0x0B01 c = true ∧ k = c.inst ∧ k < 8 ∧ (s.carRec k).isSome = true ∧ s.carMoves k = true ∧ s.carState k ≠ HARD_STOP ∧ s.carState k ≠ RAMP_STOP ∧ (s.carOf k).corr = none := by decide +kernel
theorem witness_CarsArePlacedMovedAndStopped_18 :
    let q : Nat := 1; let k : Nat := 0; let c : Cmd := task 1 0x0B01 0 []; let s : State := (fun (s : State) => { s with hq := { s.hq with running := [(1, task 1 0x0B01 0 [])] } }) lift;
    s.serving q 0x0B01 c = true ∧ k = c.inst ∧ (s.carRec k).isSome = true ∧ s.carMoves k = false := by decide +kernel
theorem witness_CarsArePlacedMovedAndStopped_19 :
    let q : Nat := 1; let k : Nat := 0; let c : Cmd := task 1 0x0B02 0 [1#8]; let s : State := (fun (s : State) => { s with hq := { s.hq with running := [(1, task 1 0x0B02 0 [1#8])] } }) (lift.wr R.PWR_THERMAL_STATUS_STAGE 0);
    s.serving q 0x0B02 c = true ∧ k = c.inst ∧ k < 8 ∧ (s.carRec k).isSome = true ∧ s.underway = true ∧ s.mayCommand = true ∧ s.carState k = IDLE ∧ s.carMode k = SAF_NORMAL ∧ s.mayStart k = true := by decide +kernel
theorem witness_DoorsOpenCloseAndStop_1a :
    let d : Nat := 0; let a : List Byte := le 32 (1 + 65536 * 256); let s : State := lift;
    s.portsUp = true ∧ (s.doorRec d).isSome = true ∧ a.length = 32 ∧ seqNew (s.doorOf d).rxSeq (u16 a 0) = true ∧ d < 16 := by decide +kernel
theorem witness_DoorsOpenCloseAndStop_1b :
    let d : Nat := 0; let a : List Byte := le 32 5; let s : State := (lift.wr (R.DOOR_STATUS_STATE 0) 7).modDoor 0 fun x => { x with button := true, rxSeq := some 4 };
    s.portsUp = true ∧ (s.doorRec d).isSome = true ∧ a.length = 32 ∧ seqNew (s.doorOf d).rxSeq (u16 a 0) = true ∧ d < 16 := by decide +kernel
theorem witness_DoorsOpenCloseAndStop_2 :
    let d : Nat := 0; let s : State := lift.wr (R.DOOR_STATUS_STATE 0) 5;
    s.portsUp = true ∧ (s.doorRec d).isSome = true ∧ s.on (R.DOOR_DRIVE_STATUS_LOST d) = false ∧ d < 16 := by decide +kernel
theorem witness_DoorsOpenCloseAndStop_3 :
    let d : Nat := 15; let s : State := (lift.wr (R.DOOR_STATUS_STATE 15) 9).modDoor 15 fun x => { x with obstr := 2 };
    s.doorState d = STOPPED_DOOR ∧ 0 < (s.doorOf d).obstr ∧ (s.doorOf d).obstr < 3 ∧ d < 16 := by decide +kernel
theorem witness_DoorsOpenCloseAndStop_4a :
    let d : Nat := 0; let s : State := lift.wr (R.DOOR_STATUS_STATE 0) 6;
    s.doorState d = OPEN ∧ s.reopens d = false ∧ s.heldOpen (d / 2) = false ∧ d < 16 := by decide +kernel
theorem witness_DoorsOpenCloseAndStop_4b :
    let d : Nat := 0; let s : State := (lift.wr (R.DOOR_STATUS_STATE 0) 6).wr (R.DOOR_STATUS_REVERSALS_MOVE 0) 3;
    s.doorState d = OPEN ∧ s.reopens d = false ∧ s.heldOpen (d / 2) = false ∧ d < 16 := by decide +kernel
theorem witness_DoorsOpenCloseAndStop_5a :
    let d : Nat := 0; let s : State := (recs [rec' 9 1 0 64 [(0x10, 2), (0x12, 255)]] lift).wr (R.DOOR_STATUS_STATE 0) 3;
    s.doorState d = CLOSED ∧ s.lockReport d = false ∧ d < 16 := by decide +kernel
theorem witness_DoorsOpenCloseAndStop_5b :
    let d : Nat := 0; let s : State := ((recs [rec' 9 1 0 64 [(0x10, 2), (0x12, 255)]] lift).wr (R.DOOR_STATUS_STATE 0) 3).modDoor 0 fun x => { x with locks := 2 };
    s.doorState d = CLOSED ∧ s.lockReport d = false ∧ d < 16 := by decide +kernel
theorem witness_DoorsOpenCloseAndStop_6 :
    let d : Nat := 0; let s : State := lift.wr (R.DOOR_STATUS_STATE 0) 2;
    s.doorState d = REFERENCING ∧ d < 16 := by decide +kernel
theorem witness_DoorsOpenCloseAndStop_7 :
    let d : Nat := 0; let s : State := (lift.wr (R.DOOR_STATUS_STATE 0) 6).modDoor 0 fun x => { x with reopenIn := true };
    s.reopenDevice d = true ∧ [OPEN, CLOSING, OPENING].contains (s.doorState d) = true ∧ s.heldOpen (d / 2) = false ∧ d < 16 := by decide +kernel
theorem witness_DoorsOpenCloseAndStop_8a :
    let d : Nat := 0; let top : Bool := true; let active : Bool := true; let s : State := lift.wr (R.DOOR_STATUS_STATE 0) 5;
    s.powered = true ∧ (s.doorRec d).isSome = true ∧ d < 16 := by decide +kernel
theorem witness_DoorsOpenCloseAndStop_8b :
    let d : Nat := 0; let top : Bool := false; let active : Bool := true; let s : State := lift.wr (R.DOOR_STATUS_STATE 0) 7;
    s.powered = true ∧ (s.doorRec d).isSome = true ∧ d < 16 := by decide +kernel
theorem witness_DoorsOpenCloseAndStop_9 :
    let q : Nat := 1; let d : Nat := 0; let c : Cmd := task 1 0x0C01 0 []; let s : State := busy (task 1 0x0C01 0 []) (landed.wr (R.DOOR_STATUS_STATE 0) 6);
    s.serving q 0x0C01 c = true ∧ d = c.inst ∧ d < 16 ∧ s.doorRefusal d = 0 ∧ s.doorState d = OPEN := by decide +kernel
theorem witness_DoorsOpenCloseAndStop_10 :
    let q : Nat := 1; let d : Nat := 0; let c : Cmd := task 1 0x0C01 0 []; let s : State := busy (task 1 0x0C01 0 []) (landed.wr (R.DOOR_STATUS_STATE 0) 3);
    s.serving q 0x0C01 c = true ∧ d = c.inst ∧ d < 16 ∧ s.doorRefusal d = 0 ∧ s.fireOpens d = true ∧ [CLOSED, CLOSING, NUDGING, STOPPED_DOOR].contains (s.doorState d) = true ∧ (s.doorOf d).closeQ.contains q = false := by decide +kernel
theorem witness_DoorsOpenCloseAndStop_11 :
    let q : Nat := 1; let d : Nat := 0; let c : Cmd := task 1 0x0C02 0 []; let s : State := busy (task 1 0x0C02 0 []) (landed.wr (R.DOOR_STATUS_STATE 0) 6);
    s.serving q 0x0C02 c = true ∧ d = c.inst ∧ d < 16 ∧ (s.doorRefusal d = 0 ∨ s.doorRefusal d = 0x0C10) ∧ s.reopens d = false ∧ [OPEN, STOPPED_DOOR, OPENING].contains (s.doorState d) = true ∧ (s.doorOf d).openQ.contains q = false := by decide +kernel
theorem witness_DoorsOpenCloseAndStop_12 :
    let q : Nat := 1; let d : Nat := 0; let c : Cmd := task 1 0x0C02 0 []; let s : State := busy (task 1 0x0C02 0 []) (landed.wr (R.DOOR_STATUS_STATE 0) 3);
    s.serving q 0x0C02 c = true ∧ d = c.inst ∧ d < 16 ∧ (s.doorRefusal d = 0 ∨ s.doorRefusal d = 0x0C10) ∧ s.reopens d = false ∧ s.doorState d = CLOSED ∧ s.lockReport d = true ∧ (s.doorOf d).closeQ = [] := by decide +kernel
theorem witness_DoorsOpenCloseAndStop_13 :
    let q : Nat := 1; let d : Nat := 0; let c : Cmd := task 1 0x0C03 0 [1#8]; let s : State := busy (task 1 0x0C03 0 [1#8]) (landed.wr (R.DOOR_STATUS_STATE 0) 5);
    s.serving q 0x0C03 c = true ∧ d = c.inst ∧ d < 16 ∧ (s.doorRec d).isSome = true ∧ [GEARED, OPENING, CLOSING, NUDGING, REFERENCING].contains (s.doorState d) = true ∧ (s.doorOf d).openQ = [] ∧ (s.doorOf d).closeQ = [] := by decide +kernel
theorem witness_DoorsOpenCloseAndStop_14 :
    let q : Nat := 1; let d : Nat := 0; let c : Cmd := task 1 0x0C03 0 [1#8]; let s : State := busy (task 1 0x0C03 0 [1#8]) (landed.wr (R.DOOR_STATUS_STATE 0) 3);
    s.serving q 0x0C03 c = true ∧ d = c.inst ∧ (s.doorRec d).isSome = true ∧ [GEARED, OPENING, CLOSING, NUDGING, REFERENCING].contains (s.doorState d) = false := by decide +kernel
theorem witness_DoorsOpenCloseAndStop_15 :
    let q : Nat := 1; let d : Nat := 0; let c : Cmd := task 1 0x0C04 0 []; let s : State := busy (task 1 0x0C04 0 []) (landed.wrB (R.DOOR_DRIVE_STATUS_LOST 0) false);
    s.serving q 0x0C04 c = true ∧ d = c.inst ∧ d < 16 ∧ (s.doorRec d).isSome = true ∧ s.underway = true ∧ s.on (R.DOOR_DRIVE_STATUS_LOST d) = false ∧ s.carStands (d / 2) = true ∧ (s.landingHere (d / 2)).isSome = true ∧ (s.doorOf d).openQ.contains q = false ∧ (s.doorOf d).closeQ.contains q = false := by decide +kernel
theorem witness_DoorsOpenCloseAndStop_16 :
    let q : Nat := 1; let d : Nat := 0; let c : Cmd := task 1 0x0C05 0 (le 2 3600); let s : State := busy (task 1 0x0C05 0 (le 2 3600)) landed;
    s.serving q 0x0C05 c = true ∧ d = c.inst ∧ (s.doorRec d).isSome = true ∧ u16 c.args 0 ≤ 3600 := by decide +kernel
theorem witness_DoorsOpenCloseAndStop_17 :
    let sess : Nat := 0; let d : Nat := 15; let s : State := landed;
    s.keyed sess 0xA5 = true ∧ d < 16 := by decide +kernel
theorem witness_SafetyFunctionsFollowTheirRows_2 :
    let i : Nat := 31; let high : Bool := true; let s : State := safe;
    i < 32 := by decide +kernel
theorem witness_SafetyFunctionsFollowTheirRows_3 :
    let src : Nat := 3; let high : List Nat := []; let s : State := safe;
    s.safUp = true ∧ src < 4 ∧ s.pulsed src = [] := by decide +kernel
theorem witness_SafetyFunctionsFollowTheirRows_4 :
    let src : Nat := 1; let i : Nat := 3; let high : List Nat := [3]; let s : State := recs [rec' 9 2 3 32 [(0x12, 1)]] safe;
    s.safUp = true ∧ src < 4 ∧ s.pulsed src = [i] ∧ i < 32 := by decide +kernel
theorem witness_SafetyFunctionsFollowTheirRows_5 :
    let n : Nat := 3; let s : State := (recs [rec' 9 2 3 32 [(0x10, 1), (0x11, 4)]] safe).modIn 3 fun x => { x with high := true };
    s.safUp = true ∧ s.disagrees n = true ∧ s.saf.disc.contains n = false ∧ n < 32 := by decide +kernel
theorem witness_SafetyFunctionsFollowTheirRows_6 :
    let n : Nat := 23; let s : State := safe;
    s.safUp = true ∧ n < 24 := by decide +kernel
theorem witness_SafetyFunctionsFollowTheirRows_7 :
    let n : Nat := 4; let s : State := (safe.wr R.SAF_REQUEST 16).wr R.SAF_OUTPUT_STATE 16;
    s.safUp = true ∧ n < 24 ∧ bit (s.rd R.SAF_REQUEST) n = true := by decide +kernel
theorem witness_SafetyFunctionsFollowTheirRows_8 :
    let n : Nat := 1; let s : State := (recs [rec' 9 3 1 32 [(0x12, 1)]] safe).modSaf fun x => { x with edm := [(1, true)] };
    s.edmNeeded n = true ∧ (tget s.saf.edm n).isSome = true ∧ n < 24 := by decide +kernel
theorem witness_SafetyFunctionsFollowTheirRows_9 :
    let n : Nat := 1; let engaged : Bool := true; let s : State := (recs [rec' 9 3 1 32 [(0x12, 1)]] safe).wr R.SAF_EDM_STATE 0;
    s.edmNeeded n = true ∧ tget s.saf.edm n = none ∧ n < 24 ∧ bit (s.rd R.SAF_EDM_STATE) n ≠ engaged := by decide +kernel
theorem witness_SafetyFunctionsFollowTheirRows_10 :
    let n : Nat := 0; let engaged : Bool := true; let ms : Nat := 40; let s : State := safe.modSaf fun x => { x with edm := [(0, true)] };
    s.safUp = true ∧ tget s.saf.edm n = some engaged ∧ n < 24 ∧ n % 3 ≠ 1 := by decide +kernel
theorem witness_SafetyFunctionsFollowTheirRows_11a :
    let tech : Nat := 1; let n : Nat := 0; let s : State := safe;
    s.safUp = true ∧ tech < 2 ∧ n < 24 ∧ s.rd (techField tech) ≠ 3 ∧ s.rd (techField tech) ≠ 4 := by decide +kernel
theorem witness_SafetyFunctionsFollowTheirRows_11b :
    let tech : Nat := 0; let n : Nat := 23; let s : State := safe.wr R.SAF_TECH_STATUS_HW_STATE 4;
    s.safUp = true ∧ tech < 2 ∧ n < 24 ∧ s.rd (techField tech) ≠ 3 ∧ s.rd (techField tech) ≠ 4 := by decide +kernel
theorem witness_SafetyFunctionsFollowTheirRows_13 :
    let tech : Nat := 0; let s : State := safe;
    s.safUp = true ∧ tech < 2 ∧ s.rd (techField tech) ≠ 3 ∧ s.rd (techField tech) ≠ 4 := by decide +kernel
theorem witness_SafetyFunctionsFollowTheirRows_15 :
    let tech : Nat := 0; let s : State := safe;
    s.safUp = true ∧ tech < 2 ∧ s.rd (techField tech) ≠ 3 ∧ s.rd (techField tech) ≠ 4 := by decide +kernel
theorem witness_SafetyFunctionsFollowTheirRows_16 :
    let tech : Nat := 1; let s : State := safe;
    s.safUp = true ∧ tech < 2 ∧ s.rd (techField tech) ≠ 3 ∧ s.rd (techField tech) ≠ 4 := by decide +kernel
theorem witness_SafetyFunctionsFollowTheirRows_17 :
    let outs : List Nat := [1, 30]; let s : State := safe;
    s.safUp = true := by decide +kernel
theorem witness_SafetyFunctionsFollowTheirRows_18 :
    let finding : Nat := 0; let s : State := safe.modSaf fun x => { x with held := [0] };
    s.safUp = true ∧ s.saf.held.isEmpty = false ∧ finding ≠ 1 ∧ finding ≠ 2 := by decide +kernel
theorem witness_SafetyFunctionsFollowTheirRows_19 :
    let finding : Nat := 2; let s : State := safe.modSaf fun x => { x with held := [0] };
    s.safUp = true ∧ s.saf.held.isEmpty = false ∧ (finding = 1 ∨ finding = 2) ∧ s.rd (techField (finding - 1)) ≠ 3 ∧ s.rd (techField (finding - 1)) ≠ 4 := by decide +kernel
theorem witness_SafetyFunctionsFollowTheirRows_20 :
    let c : Nat := 0; let mps : Rat := 9; let s : State := safe;
    s.safKnows c = true ∧ (s.speedLimit c).1 < mps := by decide +kernel
theorem witness_SafetyFunctionsFollowTheirRows_21 :
    let c : Nat := 0; let tape : Bool := true; let enc : Bool := false; let s : State := safe;
    s.safKnows c = true ∧ c < 8 ∧ (tape || enc) = true := by decide +kernel
theorem witness_SafetyFunctionsFollowTheirRows_22 :
    let c : Nat := 0; let moved : Rat := 1; let s : State := ((recs [rec' 6 2 0 128 [(0x40, 3)], rec' 9 1 0 64 [(0x10, 2), (0x12, 255)]] safe).modSafCar 0 fun x => { x with brakeAt := some 5 }).wr R.SAF_OUTPUT_STATE 0;
    s.safKnows c = true ∧ c < 8 ∧ s.outOn (3 * c + 1) = false ∧ (s.safCar c).brakeAt.isSome = true ∧ (s.kindClear c 2 && s.kindClear c 3) = false ∧ cfgR (s.monitor c) 0x28 (1 / 10) < ratAbs moved := by decide +kernel
theorem witness_SafetyFunctionsFollowTheirRows_23 :
    let c : Nat := 0; let moved : Rat := 1; let s : State := (safe.modSafCar 0 fun x => { x with brakeAt := some 5 }).wr R.SAF_OUTPUT_STATE 0;
    s.safKnows c = true ∧ c < 8 ∧ s.outOn (3 * c + 1) = false ∧ (s.safCar c).brakeAt.isSome = true ∧ (s.kindClear c 2 && s.kindClear c 3) = true ∧ 5 / 100 < ratAbs moved := by decide +kernel
theorem witness_SafetyFunctionsFollowTheirRows_24 :
    let c : Nat := 0; let s : State := safe.wr (R.SAF_CAR_MODE_MODE 0) 2;
    s.safKnows c = true ∧ c < 8 ∧ s.carMode c = SNOWPLOUGH := by decide +kernel
theorem witness_SafetyFunctionsFollowTheirRows_25 :
    let sess : Nat := 0; let s : State := (((safe.wrB R.SAF_STATUS_KEY_SWITCH true).wr R.SAF_CHECK_PROC 7).wr R.SAF_CHECK_HW 7).wr R.SAF_CONFIRM_VALUE 7;
    s.isOpen sess = true ∧ s.confirmRefusal sess = 0 := by decide +kernel
theorem witness_SafetyFunctionsFollowTheirRows_26 :
    let sess : Nat := 0; let s : State := (((safe.wrB R.SAF_STATUS_KEY_SWITCH true).wr R.SAF_CHECK_PROC 7).wr R.SAF_CHECK_HW 7).wr R.SAF_CONFIRM_VALUE 8;
    s.isOpen sess = true ∧ s.confirmRefusal sess ≠ 0 := by decide +kernel
theorem witness_SafetyFunctionsFollowTheirRows_27 :
    let s : State := safe.wrB R.SAF_STATUS_CONFIRM_LOCKOUT true;
    s.on R.SAF_STATUS_CONFIRM_LOCKOUT = true := by decide +kernel
theorem witness_SafetyFunctionsFollowTheirRows_28 :
    let sess : Nat := 0; let fn : Nat := 5; let r : CfgRec := rec' 9 1 5 64 [(0x10, 4)]; let s : State := ((recs [rec' 9 1 5 64 [(0x10, 4)]] (safe.wrB R.SAF_STATUS_KEY_SWITCH true)).modIn 0 fun x => { x with high := true }).modSaf fun x => { x with fns := [(5, ⟨3, 1, none⟩)] };
    s.safKeyed sess 0xA5 = true ∧ s.cfg 9 1 fn = some r ∧ (s.safFn fn).state = 3 ∧ s.fnInput r = 1 := by decide +kernel
theorem witness_SafetyFunctionsFollowTheirRows_29 :
    let sess : Nat := 0; let c : Nat := 0; let srcOk : Bool := true; let edmOk : Bool := true; let s : State := (safe.wrB R.SAF_STATUS_KEY_SWITCH true).wr (R.SAF_CAR_MODE_MODE 0) 3;
    s.safKeyed sess 0xA5 = true ∧ s.safKnows c = true ∧ c < 8 ∧ s.carMode c = LATCHED ∧ s.repairable c srcOk edmOk = true := by decide +kernel
theorem witness_SafetyConnectionsStartRunAndFail_1 :
    let k : Nat := 2; let r : CfgRec := link false; let u : List Byte := dataUnit (link false) 6 (le 2 9); let s : State := linked false { Conn.fresh with start := 5, confirms := 1 };
    s.connUp = true ∧ s.connRec k = some r ∧ r.produces = false ∧ (s.conn k).state = CONN_STARTING ∧ dataGood r u = true ∧ u16 u 0 = ((s.conn k).start + 1) % 65536 ∧ (s.conn k).confirms = 1 := by decide +kernel
theorem witness_SafetyConnectionsStartRunAndFail_2 :
    let k : Nat := 2; let r : CfgRec := link false; let u : List Byte := dataUnit (link false) 1 (le 2 9); let s : State := linked false { Conn.fresh with state := 3, seq := 65534 };
    s.connUp = true ∧ s.connRec k = some r ∧ r.produces = false ∧ (s.conn k).state = CONN_RUN ∧ dataGood r u = true ∧ 1 ≤ seqDiff (u16 u 0) (s.conn k).seq ∧ seqDiff (u16 u 0) (s.conn k).seq ≤ 3 := by decide +kernel
theorem witness_SafetyConnectionsStartRunAndFail_3 :
    let k : Nat := 2; let r : CfgRec := link false; let u : List Byte := []; let s : State := linked false { Conn.fresh with state := 3 };
    s.connUp = true ∧ s.connRec k = some r ∧ r.produces = false ∧ (s.conn k).state ≠ CONN_FAIL_SAFE ∧ dataGood r u = false := by decide +kernel
theorem witness_SafetyConnectionsStartRunAndFail_4a :
    let k : Nat := 2; let r : CfgRec := link false; let u : List Byte := dataUnit (link false) 4 (le 2 9); let s : State := linked false { Conn.fresh with state := 3, seq := 0 };
    s.connUp = true ∧ s.connRec k = some r ∧ r.produces = false ∧ (s.conn k).state = CONN_RUN ∧ dataGood r u = true ∧ (seqDiff (u16 u 0) (s.conn k).seq < 0 ∨ 3 < seqDiff (u16 u 0) (s.conn k).seq) := by decide +kernel
theorem witness_SafetyConnectionsStartRunAndFail_4b :
    let k : Nat := 2; let r : CfgRec := link false; let u : List Byte := dataUnit (link false) 65535 (le 2 9); let s : State := linked false { Conn.fresh with state := 3, seq := 0 };
    s.connUp = true ∧ s.connRec k = some r ∧ r.produces = false ∧ (s.conn k).state = CONN_RUN ∧ dataGood r u = true ∧ (seqDiff (u16 u 0) (s.conn k).seq < 0 ∨ 3 < seqDiff (u16 u 0) (s.conn k).seq) := by decide +kernel
theorem witness_SafetyConnectionsStartRunAndFail_5 :
    let k : Nat := 3; let u : List Byte := []; let s : State := linked false Conn.fresh;
    s.portsUp = true ∧ s.connRec k = none := by decide +kernel
theorem witness_SafetyConnectionsStartRunAndFail_6 :
    let k : Nat := 2; let r : CfgRec := link true; let u : List Byte := echoUnit (link true) 700; let s : State := linked true Conn.fresh;
    s.connUp = true ∧ s.connRec k = some r ∧ r.produces = true ∧ (s.conn k).state = CONN_STARTING ∧ echoGood r u = true := by decide +kernel
theorem witness_SafetyConnectionsStartRunAndFail_7 :
    let k : Nat := 2; let r : CfgRec := link true; let u : List Byte := echoUnit (link true) 700; let s : State := linked true { Conn.fresh with state := 2, confirms := 2, sent := [(700, 2 ^ 64)] };
    s.connUp = true ∧ s.connRec k = some r ∧ r.produces = true ∧ (s.conn k).state = CONN_CONFIRMING ∧ (s.conn k).confirms = 2 ∧ echoGood r u = true ∧ (s.conn k).sent.any (fun p => p.1 == u16 u 0 && decide (s.tick < p.2 + r.watchdog)) = true := by decide +kernel
theorem witness_SafetyConnectionsStartRunAndFail_8 :
    let k : Nat := 2; let r : CfgRec := link true; let u : List Byte := []; let s : State := linked true { Conn.fresh with fails := 65535 };
    s.connUp = true ∧ s.connRec k = some r ∧ r.produces = true ∧ (s.conn k).state ≠ CONN_FAIL_SAFE ∧ echoGood r u = false := by decide +kernel
theorem witness_SafetyConnectionsStartRunAndFail_9 :
    let k : Nat := 2; let r : CfgRec := link true; let s : State := linked true { Conn.fresh with state := 3, seq := 65535 };
    s.connUp = true ∧ s.connRec k = some r ∧ r.produces = true ∧ s.connTimed k = true := by decide +kernel
theorem witness_SafetyConnectionsStartRunAndFail_10 :
    let k : Nat := 2; let r : CfgRec := link false; let s : State := linked false Conn.fresh;
    s.connUp = true ∧ s.connRec k = some r ∧ r.produces = false ∧ (s.conn k).state = CONN_STARTING := by decide +kernel
theorem witness_SafetyConnectionsStartRunAndFail_11 :
    let k : Nat := 2; let r : CfgRec := link false; let s : State := linked false { Conn.fresh with state := 3 };
    s.connUp = true ∧ s.connRec k = some r ∧ r.produces = false ∧ s.connTimed k = true := by decide +kernel
theorem witness_SafetyConnectionsStartRunAndFail_12 :
    let k : Nat := 2; let r : CfgRec := link true; let s : State := linked true { Conn.fresh with state := 2 };
    s.connUp = true ∧ s.connRec k = some r ∧ r.produces = true ∧ s.connTimed k = true := by decide +kernel
theorem witness_SafetyConnectionsStartRunAndFail_13 :
    let k : Nat := 2; let s : State := linked true { Conn.fresh with state := 4 };
    s.connUp = true ∧ (s.connRec k).isSome = true ∧ (s.conn k).state = CONN_FAIL_SAFE := by decide +kernel
theorem witness_SafetyConnectionsStartRunAndFail_14 :
    let q : Nat := 1; let k : Nat := 2; let c : Cmd := task 1 0x0E01 0 (le 2 2); let s : State := busy (task 1 0x0E01 0 (le 2 2)) (linked true { Conn.fresh with state := 4 });
    s.serving q 0x0E01 c = true ∧ k = u16 c.args 0 ∧ (s.connRec k).isSome = true := by decide +kernel
theorem witness_FieldInputsAndOutputsFollowTheirRows_1 :
    let raw : Nat := 2 ^ 40 + 5; let lp : List Nat := [24000]; let sums : List Nat := [1, 2, 3, 4, 5]; let om : List Nat := [7]; let ic : List (Nat × Nat) := [(3, 9)]; let s : State := field [];
    s.fioRuns = true := by decide +kernel
theorem witness_FieldInputsAndOutputsFollowTheirRows_2 :
    let s : State := (field []).wr R.FIO_OUT_STATE (2 ^ 32 - 1);
    s.fioRuns = true ∧ s.on R.FIO_FIELD_STATUS_LINK_LOST = false := by decide +kernel
theorem witness_FieldInputsAndOutputsFollowTheirRows_3 :
    let s : State := (field []).wrB R.FIO_FIELD_STATUS_LINK_LOST true;
    s.fioRuns = true ∧ s.on R.FIO_FIELD_STATUS_LINK_LOST = true := by decide +kernel
theorem witness_FieldInputsAndOutputsFollowTheirRows_4 :
    let k : Nat := 3; let j : Nat := 7; let s : State := ((field []).wr R.FIO_OUT_STATE (2 ^ 32 - 1)).wr R.FIO_FIELD_STATUS_LPLUS_LOW 0;
    s.fioRuns = true ∧ k < 4 ∧ j < 8 ∧ bit (s.rd R.FIO_FIELD_STATUS_LPLUS_LOW) k = false := by decide +kernel
theorem witness_FieldInputsAndOutputsFollowTheirRows_5 :
    let k : Nat := 3; let s : State := (field []).wr R.FIO_FIELD_STATUS_LPLUS_LOW 8;
    s.fioRuns = true ∧ k < 4 ∧ bit (s.rd R.FIO_FIELD_STATUS_LPLUS_LOW) k = true := by decide +kernel
theorem witness_FieldInputsAndOutputsFollowTheirRows_6 :
    let i : Nat := 63; let high : Bool := true; let v : Bool := true; let s : State := field [];
    s.fioRuns = true ∧ i < 64 ∧ v = (high != (s.finRec i).any fun r => bit (r.u8 0x11) 1) ∧ (s.fioIn i).filt ≠ high := by decide +kernel
theorem witness_FieldInputsAndOutputsFollowTheirRows_7 :
    let i : Nat := 33; let s : State := field [rec' 11 1 33 32 [(0x11, 1)]];
    s.fioRuns = true ∧ i < 64 ∧ (s.finRec i).any (fun r => bit (r.u8 0x11) 0) = true ∧ s.broken i = false := by decide +kernel
theorem witness_FieldInputsAndOutputsFollowTheirRows_8 :
    let i : Nat := 31; let s : State := (field []).wrB (R.FIO_WIRE_BREAK_LO.bit 31) true;
    s.fioRuns = true ∧ i < 64 ∧ s.broken i = true := by decide +kernel
theorem witness_FieldInputsAndOutputsFollowTheirRows_9 :
    let n : Nat := 31; let s : State := (field []).wrB (R.FIO_OUT_STATE.bit 31) true;
    s.outIsOn n = true := by decide +kernel
theorem witness_FieldInputsAndOutputsFollowTheirRows_10 :
    let n : Nat := 0; let s : State := (field []).wrB (R.FIO_OUT_STATE.bit 0) true;
    s.outIsOn n = true := by decide +kernel
theorem witness_FieldInputsAndOutputsFollowTheirRows_11 :
    let n : Nat := 0; let s : State := (field []).wrB (R.FIO_OUT_STATE.bit 0) true;
    s.outIsOn n = true := by decide +kernel
theorem witness_FieldInputsAndOutputsFollowTheirRows_12a :
    let n : Nat := 3; let s : State := (field []).wrB (R.FIO_OUT_FAULT.bit 3) true;
    s.fioRuns = true ∧ n < 32 ∧ s.outBit R.FIO_OUT_FAULT n = true ∧ s.outBit R.FIO_OUT_FAULT_LATCH n = false := by decide +kernel
theorem witness_FieldInputsAndOutputsFollowTheirRows_12b :
    let n : Nat := 3; let s : State := ((field []).wrB (R.FIO_OUT_FAULT.bit 3) true).modFioOut 3 fun x => { x with retries := [2 ^ 64, 2 ^ 64] };
    s.fioRuns = true ∧ n < 32 ∧ s.outBit R.FIO_OUT_FAULT n = true ∧ s.outBit R.FIO_OUT_FAULT_LATCH n = false := by decide +kernel
theorem witness_FieldInputsAndOutputsFollowTheirRows_13 :
    let k : Nat := 1; let ma : Nat := 2501; let n : Nat := 9; let s : State := (field []).wr R.FIO_OUT_STATE 512;
    s.fioRuns = true ∧ k < 4 ∧ 2500 < ma ∧ s.lastOn k = some n ∧ n < 32 := by decide +kernel
theorem witness_FieldInputsAndOutputsFollowTheirRows_14 :
    let k : Nat := 1; let ma : Nat := 2500; let s : State := (field []).modFio fun x => { x with excess := [1] };
    s.fioRuns = true ∧ k < 4 ∧ ma ≤ 2500 := by decide +kernel
theorem witness_FieldInputsAndOutputsFollowTheirRows_15 :
    let n : Nat := 3; let j : Rat := 1; let s : State := field [];
    s.fioRuns = true ∧ n < 32 ∧ s.outBit R.FIO_OUT_STATE n = false ∧ 0 < j := by decide +kernel
theorem witness_FieldInputsAndOutputsFollowTheirRows_16 :
    let n : Nat := 31; let s : State := (field []).wrB (R.FIO_DEMAG_HOLD.bit 31) true;
    s.fioRuns = true ∧ n < 32 := by decide +kernel
theorem witness_FieldInputsAndOutputsFollowTheirRows_17 :
    let n : Nat := 5; let s : State := field [rec' 11 2 5 32 [(0x11, 2)]];
    s.fioRuns = true ∧ n < 32 ∧ (s.foutRec n).any (fun r => bit (r.u8 0x11) (if s.outBit R.FIO_OUT_STATE n = true then 2 else 1)) = true := by decide +kernel
theorem witness_FieldInputsAndOutputsFollowTheirRows_18 :
    let n : Nat := 5; let s : State := field [rec' 11 2 5 32 []];
    s.fioRuns = true ∧ n < 32 ∧ (s.foutRec n).isSome = true ∧ s.outBit R.FIO_OUT_SILENT n = false ∧ (s.outOwner n ≠ 2 ∨ s.operatorOpen = false) := by decide +kernel
theorem witness_FieldInputsAndOutputsFollowTheirRows_19 :
    let n : Nat := 5; let r : CfgRec := rec' 11 2 5 32 []; let s : State := ((field [rec' 11 2 5 32 [], rec' 8 4 0 64 [(0x38, 32)]]).wrB (R.FIO_OUT_SILENT.bit 5) true).wrB R.PLT_EVAC_STATUS_SHEDDING false;
    s.fioRuns = true ∧ s.on R.FIO_STATUS_OUTPUTS_ENABLED = true ∧ n < 32 ∧ s.foutRec n = some r ∧ r.u8 0x10 = 0 := by decide +kernel
theorem witness_FieldInputsAndOutputsFollowTheirRows_20 :
    let sess : Nat := 0; let mask : Nat := 96; let n : Nat := 5; let s : State := ((field [rec' 11 2 5 32 [(0x10, 2)]]).wr R.FIO_OUT_HOST_MASK 32).wr R.FIO_OUT_SILENT 32;
    s.holds sess 2 = true ∧ n < 32 := by decide +kernel
theorem witness_FieldInputsAndOutputsFollowTheirRows_21 :
    let sess : Nat := 0; let mask : Nat := 96; let n : Nat := 5; let s : State := ((field [rec' 11 2 5 32 [(0x10, 2)]]).wr R.FIO_OUT_HOST_MASK 32).wr R.FIO_OUT_COMMAND 32;
    s.holds sess 2 = true ∧ n < 32 := by decide +kernel
theorem witness_FieldInputsAndOutputsFollowTheirRows_22 :
    let sess : Nat := 0; let mask : Nat := 2 ^ 31; let n : Nat := 31; let s : State := ((field []).wr R.FIO_OUT_FAULT_LATCH (2 ^ 32 - 1)).wr R.FIO_OUT_FAULT (2 ^ 32 - 1);
    s.holds sess 2 = true ∧ n < 32 := by decide +kernel
theorem witness_FieldInputsAndOutputsFollowTheirRows_23 :
    let q : Nat := 1; let n : Nat := 4; let c : Cmd := task 1 0x0F01 0 (le 4 16); let s : State := busy (task 1 0x0F01 0 (le 4 16)) ((field []).wr R.FIO_OUT_FAULT_LATCH (2 ^ 32 - 1));
    s.serving q 0x0F01 c = true ∧ n < 32 := by decide +kernel
theorem witness_CanFramesAreSentAndReceived_1 :
    let b : Nat := 11; let id : Nat := 4096; let fmt : Nat := 0; let flags : Nat := 0; let stamp : Nat := 2 ^ 40; let data : List Byte := le 8 5; let s : State := bus 11 Mbc.fresh [];
    s.busLive b = true ∧ b = 11 ∧ s.rd (canRec' b) = 0 ∧ 0x800 ≤ id ∧ id < 2 ^ 29 ∧ s.canConn b id = none ∧ (s.mbcOf b).rx.length < 256 ∧ data.length ≤ 64 := by decide +kernel
theorem witness_CanFramesAreSentAndReceived_2 :
    let b : Nat := 11; let id : Nat := 4096; let fmt : Nat := 0; let flags : Nat := 0; let stamp : Nat := 0; let data : List Byte := []; let s : State := bus 11 { Mbc.fresh with rx := List.range 256 } [];
    s.busLive b = true ∧ b = 11 ∧ s.rd (canRec' b) = 0 ∧ 0x800 ≤ id ∧ id < 2 ^ 29 ∧ s.canConn b id = none ∧ 256 ≤ (s.mbcOf b).rx.length := by decide +kernel
theorem witness_CanFramesAreSentAndReceived_3 :
    let b : Nat := 3; let id : Nat := 4096; let fmt : Nat := 0; let flags : Nat := 0; let stamp : Nat := 0; let data : List Byte := []; let s : State := bus 3 Mbc.fresh [];
    s.busLive b = true ∧ b ≠ 11 ∧ s.rd (canRec' b) = 0 ∧ 0x800 ≤ id ∧ id < 2 ^ 29 ∧ s.canConn b id = none := by decide +kernel
theorem witness_CanFramesAreSentAndReceived_4a :
    let b : Nat := 3; let lat : Nat := 7; let tdc : Nat := 5; let f : CanTx := ⟨2, 1, [], true, false, none⟩; let s : State := bus 3 { Mbc.fresh with tx := [⟨3, 1, le 2 2, false, false, none⟩, ⟨2, 1, [], true, false, none⟩] } [];
    s.busUsed b = true ∧ (s.canState b = 1 ∨ s.canState b = 2) ∧ firstTx (s.mbcOf b).tx = some f := by decide +kernel
theorem witness_CanFramesAreSentAndReceived_4b :
    let b : Nat := 11; let lat : Nat := 7; let tdc : Nat := 5; let f : CanTx := ⟨3, 1, le 2 2, false, true, some 1⟩; let s : State := served 1 (task 1 0x1001 11 []) (bus 11 { Mbc.fresh with tx := [⟨3, 1, le 2 2, false, true, some 1⟩] } []);
    s.busUsed b = true ∧ (s.canState b = 1 ∨ s.canState b = 2) ∧ firstTx (s.mbcOf b).tx = some f := by decide +kernel
theorem witness_CanFramesAreSentAndReceived_5 :
    let b : Nat := 3; let outcome : Nat := 1; let lat : Nat := 7; let tdc : Nat := 5; let f : CanTx := ⟨2, 1, [], true, false, none⟩; let s : State := bus 3 { Mbc.fresh with tx := [⟨3, 1, le 2 2, false, false, none⟩, ⟨2, 1, [], true, false, none⟩] } [];
    s.busUsed b = true ∧ (s.canState b = 1 ∨ s.canState b = 2) ∧ firstTx (s.mbcOf b).tx = some f ∧ outcome ≠ 0 ∧ f.once = false := by decide +kernel
theorem witness_CanFramesAreSentAndReceived_6 :
    let sess : Nat := 0; let b : Nat := 11; let seq : Nat := 1; let s : State := bus 11 { Mbc.fresh with rx := [4294967295, 0, 1, 2, 3] } [];
    s.holds sess 2 = true ∧ b < 12 := by decide +kernel
theorem witness_CanFramesAreSentAndReceived_7 :
    let q : Nat := 1; let c : Cmd := task 1 0x1001 11 (le 4 0x123 ++ le 1 0 ++ le 1 2 ++ le 2 0 ++ le 44 7); let s : State := served 1 (task 1 0x1001 11 (le 4 0x123 ++ le 1 0 ++ le 1 2 ++ le 2 0 ++ le 44 7)) (bus 11 Mbc.fresh []);
    s.serving q 0x1001 c = true ∧ c.inst = 11 ∧ s.busUsed 11 = true ∧ s.badTx (u32 c.args 0) (u8 c.args 4) (u8 c.args 5) = false ∧ (s.canState 11 = 1 ∨ s.canState 11 = 2) := by decide +kernel
theorem witness_CanFramesAreSentAndReceived_8 :
    let q : Nat := 1; let c : Cmd := task 1 0x1001 11 (le 4 0x800 ++ le 1 0 ++ le 1 2 ++ le 2 0 ++ le 44 7); let s : State := served 1 (task 1 0x1001 11 (le 4 0x800 ++ le 1 0 ++ le 1 2 ++ le 2 0 ++ le 44 7)) (bus 11 Mbc.fresh []);
    s.serving q 0x1001 c = true ∧ c.inst = 11 ∧ s.busUsed 11 = true ∧ s.badTx (u32 c.args 0) (u8 c.args 4) (u8 c.args 5) = true := by decide +kernel
theorem witness_CanFramesAreSentAndReceived_9 :
    let q : Nat := 1; let f : CanTx := ⟨0, 0, [], false, false, none⟩; let c : Cmd := task 1 0x1002 11 (le 4 9); let s : State := served 1 (task 1 0x1002 11 (le 4 9)) (bus 11 Mbc.fresh []);
    s.serving q 0x1002 c = true ∧ f.host = none ∧ (s.mbcOf 11).tx.find? (fun t => t.host.any (fun h => (s.running h).any (fun x => x.tag == u32 c.args 0 && x.uid == c.uid))) = none := by decide +kernel
theorem witness_CanFramesAreSentAndReceived_10 :
    let q : Nat := 1; let f : CanTx := ⟨9, 0, [], false, false, some 2⟩; let c : Cmd := task 1 0x1002 11 (le 4 5); let s : State := let s := served 1 (task 1 0x1002 11 (le 4 5)) (bus 11 { Mbc.fresh with tx := [⟨9, 0, [], false, false, some 2⟩] } []); { s with hq := { s.hq with running := s.hq.running ++ [(2, task 7 0x1001 11 [])] } };
    s.serving q 0x1002 c = true ∧ (s.mbcOf 11).tx.find? (fun t => t.host.any (fun h => (s.running h).any (fun x => x.tag == u32 c.args 0 && x.uid == c.uid))) = some f ∧ f.host ≠ some q := by decide +kernel
theorem witness_CanFramesAreSentAndReceived_11 :
    let b : Nat := 8; let k : Nat := 7; let seq : Nat := 3; let status : Nat := 0; let gen : Nat := 2; let x : CanStanding := ⟨2, [], 3, 4⟩; let s : State := bus 8 { Mbc.fresh with standing := [(7, ⟨2, [], 3, 4⟩)] } [];
    s.busLive b = true ∧ k < 8 ∧ tget (s.mbcOf b).standing k = some x ∧ seq = x.seq ∧ status = 0 ∧ gen = x.gen := by decide +kernel
theorem witness_CanFramesAreSentAndReceived_12 :
    let b : Nat := 8; let k : Nat := 7; let x : CanStanding := ⟨2, [], 3, 9⟩; let s : State := bus 8 { Mbc.fresh with standing := [(7, ⟨2, [], 3, 9⟩)] } [];
    s.busUsed b = true ∧ s.portsUp = true ∧ tget (s.mbcOf b).standing k = some x ∧ 1 ≤ x.tries ∧ x.tries < 10 := by decide +kernel
theorem witness_CanFramesAreSentAndReceived_13 :
    let b : Nat := 8; let k : Nat := 7; let x : CanStanding := ⟨2, [], 3, 10⟩; let s : State := bus 8 { Mbc.fresh with standing := [(7, ⟨2, [], 3, 10⟩)] } [];
    s.busUsed b = true ∧ s.portsUp = true ∧ tget (s.mbcOf b).standing k = some x ∧ 10 ≤ x.tries := by decide +kernel
theorem witness_CanFramesAreSentAndReceived_14 :
    let b : Nat := 10; let r : CfgRec := rec' 10 6 10 48 [(0x11, 24), (0x1E, 5)]; let s : State := (bus 10 Mbc.fresh [(0x11, 24), (0x1E, 5)]).wr ((R.MBC_REF_CYCLES 10).part 0 6) 63;
    s.busUsed b = true ∧ s.portsUp = true ∧ s.canRec b = some r ∧ bit (r.u8 0x11) 3 = true ∧ (s.canState b = 1 ∨ s.canState b = 2) ∧ (s.mbcOf b).wakeAt = none ∧ (s.mbcOf b).tx.any (fun t => t.cyclic && t.id == r.u16 0x1E) = false := by decide +kernel
theorem witness_CanBusesSleepWakeAndRecover_1 :
    let q : Nat := 1; let c : Cmd := task 1 0x1003 9 []; let s : State := served 1 (task 1 0x1003 9 []) (bus 9 Mbc.fresh [(0x11, 16)]);
    s.serving q 0x1003 c = true ∧ s.busUsed c.inst = true ∧ (s.canState c.inst = 1 ∨ s.canState c.inst = 2) ∧ (s.canRec c.inst).any (fun r => bit (r.u8 0x11) 4) = true ∧ s.rd (canSleep c.inst) = 0 ∧ s.busMotion c.inst = false := by decide +kernel
theorem witness_CanBusesSleepWakeAndRecover_2 :
    let q : Nat := 1; let c : Cmd := task 1 0x1003 9 []; let s : State := served 1 (task 1 0x1003 9 []) (bus 9 Mbc.fresh []);
    s.serving q 0x1003 c = true ∧ ((s.canRec c.inst).any (fun r => bit (r.u8 0x11) 4) = false ∨ s.busMotion c.inst = true) := by decide +kernel
theorem witness_CanBusesSleepWakeAndRecover_3 :
    let b : Nat := 9; let s : State := (bus 9 Mbc.fresh []).wr (canSleep 9) 1;
    s.busUsed b = true ∧ (s.canState b = 1 ∨ s.canState b = 2) ∧ s.rd (canSleep b) = 1 ∧ (s.mbcOf b).tx.any (fun t => t.id == 3) = false := by decide +kernel
theorem witness_CanBusesSleepWakeAndRecover_4 :
    let b : Nat := 9; let id : Nat := 4; let s : State := (bus 9 { Mbc.fresh with sleepId := 4 } []).wr (canSleep 9) 1;
    s.busUsed b = true ∧ id = (s.mbcOf b).sleepId ∧ s.rd (canSleep b) = 1 ∧ (s.mbcOf b).sleepQ = none := by decide +kernel
theorem witness_CanBusesSleepWakeAndRecover_5 :
    let b : Nat := 9; let id : Nat := 4; let q : Nat := 1; let c : Cmd := task 1 0x1003 9 []; let s : State := served 1 (task 1 0x1003 9 []) ((bus 9 { Mbc.fresh with sleepId := 4, sleepQ := some 1 } []).wr (canSleep 9) 1);
    s.busUsed b = true ∧ id = (s.mbcOf b).sleepId ∧ s.rd (canSleep b) = 1 ∧ (s.mbcOf b).sleepQ = some q ∧ s.running q = some c ∧ s.present c = true := by decide +kernel
theorem witness_CanBusesSleepWakeAndRecover_6 :
    let b : Nat := 9; let id : Nat := 4; let s : State := (bus 9 { Mbc.fresh with sleepId := 4 } []).wr (canSleep 9) 2;
    s.busUsed b = true ∧ id = (s.mbcOf b).sleepId ∧ s.rd (canSleep b) = 2 := by decide +kernel
theorem witness_CanBusesSleepWakeAndRecover_7 :
    let b : Nat := 9; let s : State := (bus 9 Mbc.fresh []).wr (canSleep 9) 3;
    s.busUsed b = true ∧ s.rd (canSleep b) = 3 := by decide +kernel
theorem witness_CanBusesSleepWakeAndRecover_8 :
    let b : Nat := 3; let s : State := { (((on 9).wrB R.PWR_SUPPLY_STATUS_A_GOOD true).wrB (R.PWR_WAKE_ENABLE.bit 5) true) with boll := { (on 9).boll with phase := .berth } };
    s.boll.phase = .berth ∧ b < 12 ∧ s.mainGood = true ∧ bit (s.rd R.PWR_WAKE_ENABLE) 5 = true := by decide +kernel
theorem witness_CanBusesSleepWakeAndRecover_9 :
    let q : Nat := 1; let c : Cmd := task 1 0x1004 9 []; let s : State := served 1 (task 1 0x1004 9 []) (bus 9 Mbc.fresh []);
    s.serving q 0x1004 c = true ∧ s.busUsed c.inst = true ∧ s.rd (canSleep c.inst) = 0 := by decide +kernel
theorem witness_CanBusesSleepWakeAndRecover_10 :
    let q : Nat := 1; let c : Cmd := task 1 0x1004 9 []; let s : State := served 1 (task 1 0x1004 9 []) ((bus 9 Mbc.fresh []).wr (canSleep 9) 3);
    s.serving q 0x1004 c = true ∧ s.busUsed c.inst = true ∧ s.rd (canSleep c.inst) = 3 := by decide +kernel
theorem witness_CanBusesSleepWakeAndRecover_11 :
    let q : Nat := 1; let c : Cmd := task 1 0x1005 9 []; let s : State := served 1 (task 1 0x1005 9 []) ((bus 9 Mbc.fresh []).wr (R.MBC_STATUS_STATE 9) 3);
    s.serving q 0x1005 c = true ∧ s.busUsed c.inst = true ∧ (s.canState c.inst = 3 ∨ s.canState c.inst = 4) := by decide +kernel
theorem witness_CanBusesSleepWakeAndRecover_12 :
    let b : Nat := 9; let kind : Nat := 6; let data : Bool := true; let tx : Bool := true; let major : Bool := false; let s : State := (bus 9 Mbc.fresh []).wr (canTec 9) 247;
    s.busLive b = true ∧ s.canState b ≠ 5 ∧ s.rd (canTec b) < 248 ∧ kind < 8 := by decide +kernel
theorem witness_CanBusesSleepWakeAndRecover_13 :
    let b : Nat := 9; let kind : Nat := 6; let data : Bool := true; let tx : Bool := true; let major : Bool := false; let s : State := (bus 9 Mbc.fresh []).wr (R.MBC_STATUS_STATE 9) 5;
    s.busLive b = true ∧ s.canState b = 5 := by decide +kernel
theorem witness_CanBusesSleepWakeAndRecover_14 :
    let b : Nat := 9; let s : State := bus 9 { Mbc.fresh with tx := [⟨3, 1, le 2 2, false, true, some 1⟩] } [];
    s.busUsed b = true ∧ (s.canState b = 1 ∨ s.canState b = 2) := by decide +kernel
theorem witness_CanBusesSleepWakeAndRecover_15 :
    let b : Nat := 9; let s : State := (((bus 9 Mbc.fresh []).wr (R.MBC_STATUS_STATE 9) 4).wr (canTec 9) 256).wr (canRec' 9) 200;
    s.busUsed b = true ∧ s.canState b = 4 := by decide +kernel
theorem witness_CanBusesSleepWakeAndRecover_16 :
    let sess : Nat := 0; let b : Nat := 11; let s : State := (bus 11 Mbc.fresh []).wr R.PWR_GLIDE_STATUS 1;
    s.keyed sess 0xA5 = true ∧ s.busUsed b = true ∧ (s.canState b = 1 ∨ s.canState b = 2) ∧ (8 < b ∨ s.motion = false) := by decide +kernel
theorem witness_CanBusesSleepWakeAndRecover_17 :
    let sess : Nat := 0; let b : Nat := 8; let s : State := (bus 8 Mbc.fresh []).wr R.PWR_GLIDE_STATUS 1;
    b ≤ 8 ∧ s.motion = true := by decide +kernel
theorem witness_CanBusesSleepWakeAndRecover_18 :
    let sess : Nat := 0; let b : Nat := 11; let s : State := ((bus 11 Mbc.fresh []).wr (R.MBC_STATUS_STATE 11) 5).wr (canTec 11) 128;
    s.keyed sess 0xA5 = true ∧ s.busUsed b = true ∧ s.canState b = 5 := by decide +kernel
theorem witness_CanBusesSleepWakeAndRecover_19 :
    let sess : Nat := 0; let b : Nat := 11; let s : State := (bus 11 Mbc.fresh []).wr (R.MBC_STATUS_STATE 11) 4;
    s.keyed sess 0xA5 = true ∧ s.busUsed b = true := by decide +kernel
theorem witness_CanBusesSleepWakeAndRecover_20 :
    let sess : Nat := 0; let b : Nat := 11; let s : State := ((bus 11 Mbc.fresh []).wr (R.MBC_STATUS_STATE 11) 3).wrB (R.MBC_STATUS_RECOVERY_INHIBITED 11) true;
    s.keyed sess 0xA5 = true ∧ s.busUsed b = true ∧ (s.canRec b).any (fun r => bit (r.u8 0x11) 1) = false := by decide +kernel
theorem witness_SerialLinesArePolled_1 :
    let l : Nat := 0; let n : Nat := 5; let s : State := line { Ser.fresh with last := some 4, nodes := [(5, { SerNode.fresh with ack := true })] };
    s.linePolls l = true ∧ (s.serOf l).waiting = false ∧ (s.nextPoll l).1 = some n ∧ (s.nextPoll l).2 = false ∧ s.nextMsg l (some n) = (0xFF, [], 0) := by decide +kernel
theorem witness_SerialLinesArePolled_2 :
    let l : Nat := 0; let s : State := line { Ser.fresh with faults := List.replicate 15 (2 ^ 70) };
    s.linePolls l = true ∧ (s.serOf l).waiting = false ∧ 15 ≤ ((s.serOf l).faults.filter (fun k => decide (s.tick < k + 100000))).length ∧ (s.serOf l).last = none := by decide +kernel
theorem witness_SerialLinesArePolled_3 :
    let l : Nat := 0; let n : Nat := 5; let data : List Byte := serialFrame 0x85 0 [] 3 true; let s : State := line { Ser.fresh with last := some 5, waiting := true, nodes := [(5, { SerNode.fresh with missed := 2, out := [[], [1#8]], sent := true })] };
    s.linePolls l = true ∧ (s.serOf l).last = some n ∧ (s.serOf l).waiting = true ∧ data.length = 13 ∧ u16 data 11 = (crc16 (data.take 11)).toNat ∧ u8 data 0 = 0x80 + n ∧ u8 data 2 = 0 := by decide +kernel
theorem witness_SerialLinesArePolled_4 :
    let l : Nat := 0; let n : Nat := 5; let fx : Nat := 9; let data : List Byte := serialFrame 0x85 0 [9#8] 3 false; let s : State := line { Ser.fresh with last := some 5, waiting := true, nodes := [(5, { SerNode.fresh with replies := 65535, rxSeq := some 2 })] };
    s.linePolls l = true ∧ (s.serOf l).last = some n ∧ (s.serOf l).waiting = true ∧ data.length = 13 ∧ u16 data 11 = (crc16 (data.take 11)).toNat ∧ u8 data 0 = 0x80 + n ∧ 4 < u8 data 2 ∧ (s.nodeOf l n).rxSeq ≠ some (u8 data 10 % 128) ∧ (s.lineNodes l).find? (fun p => p.1 == n) = some (n, fx) := by decide +kernel
theorem witness_SerialLinesArePolled_5 :
    let l : Nat := 0; let n : Nat := 5; let data : List Byte := []; let s : State := line { Ser.fresh with last := some 5, waiting := true };
    s.linePolls l = true ∧ (s.serOf l).last = some n ∧ (s.serOf l).waiting = true ∧ (data.length ≠ 13 ∨ u16 data 11 ≠ (crc16 (data.take 11)).toNat) := by decide +kernel
theorem witness_SerialLinesArePolled_6 :
    let l : Nat := 0; let n : Nat := 5; let data : List Byte := []; let s : State := line { Ser.fresh with last := some 5, waiting := true };
    s.linePolls l = true ∧ (s.serOf l).last = some n ∧ (s.serOf l).waiting = true := by decide +kernel
theorem witness_SerialLinesArePolled_7 :
    let l : Nat := 0; let n : Nat := 5; let s : State := line { Ser.fresh with last := some 5, waiting := true, nodes := [(5, { SerNode.fresh with missed := 255 })] };
    s.linePolls l = true ∧ (s.serOf l).last = some n ∧ (s.serOf l).waiting = true := by decide +kernel
theorem witness_TheNetworkKeepsTimeAndServesModbus_1 :
    let s : State := netted;
    s.portsUp = true ∧ s.prpPair = true := by decide +kernel
theorem witness_TheNetworkKeepsTimeAndServesModbus_2 :
    let lan : Nat := 1; let s : State := netted;
    s.portsUp = true ∧ s.prpPair = true ∧ lan < 2 ∧ s.on (R.NET_PRP_STATUS.bit lan) = false := by decide +kernel
theorem witness_TheNetworkKeepsTimeAndServesModbus_3 :
    let p : Nat := 3; let speed : Nat := 4; let sfp : Bool := true; let bad : Bool := false; let s : State := netted.wr ((R.NET_PORT_STATUS 3).part 0 16) 65534;
    s.powered = true ∧ p < 4 ∧ speed < 5 ∧ s.rd ((R.NET_PORT_STATUS p).part 0 16) < 65535 := by decide +kernel
theorem witness_TheNetworkKeepsTimeAndServesModbus_4 :
    let p : Nat := 3; let s : State := netted;
    s.portsUp = true ∧ p < 4 := by decide +kernel
theorem witness_TheNetworkKeepsTimeAndServesModbus_5 :
    let p : Nat := 0; let s : State := netted;
    s.portsUp = true ∧ p < 4 := by decide +kernel
theorem witness_TheNetworkKeepsTimeAndServesModbus_6 :
    let p : Nat := 1; let offset : Int := -999999999; let delay : Int := 4; let s : State := (netted.wr R.NET_PTP_STATUS_PARENT_PORT 1).wr R.PWR_PLANT_TIME_STATUS_STATE 1;
    s.portsUp = true ∧ s.portFlag p 3 = true ∧ p < 4 ∧ s.parentPort = p ∧ s.rd R.PWR_PLANT_TIME_STATUS_STATE ≠ 0 ∧ offset ≠ 0 ∧ offset.natAbs < 1000000000 := by decide +kernel
theorem witness_TheNetworkKeepsTimeAndServesModbus_7 :
    let p : Nat := 1; let offset : Int := 5; let delay : Int := 4; let s : State := netted;
    s.portsUp = true ∧ s.portFlag p 3 = true ∧ p < 4 ∧ s.parentPort ≠ p := by decide +kernel
theorem witness_TheNetworkKeepsTimeAndServesModbus_8 :
    let time : Nat := 2 ^ 60 + 7; let s : State := netted.wr R.NET_PTP_STATUS_PARENT_PORT 1;
    s.portsUp = true ∧ s.parentPort < 2 ∧ s.rd R.PWR_PLANT_TIME_STATUS_STATE ≠ 1 := by decide +kernel
theorem witness_TheNetworkKeepsTimeAndServesModbus_9 :
    let s : State := netted.wr R.PWR_PLANT_TIME_STATUS_STATE 1;
    s.powered = true ∧ s.rd R.PWR_PLANT_TIME_STATUS_STATE = 1 := by decide +kernel
theorem witness_TheNetworkKeepsTimeAndServesModbus_10 :
    let p : Nat := 1; let domain : Nat := 0; let prio1 : Nat := 128; let cls : Nat := 6; let acc : Nat := 33; let var : Nat := 5; let prio2 : Nat := 128; let ident : Nat := 2 ^ 63 + 5; let steps : Nat := 1; let s : State := netted;
    s.portsUp = true ∧ p < 2 ∧ s.portFlag p 3 = true ∧ s.ptpRec.any (fun r => r.u8 0x10 == 0 && r.u8 0x11 == domain) = true ∧ s.net.parent = none ∧ lexLt [prio1, cls, acc, var, prio2, ident, steps] s.ownClock = true := by decide +kernel
theorem witness_TheNetworkKeepsTimeAndServesModbus_11 :
    let p : Nat := 1; let domain : Nat := 0; let prio1 : Nat := 128; let cls : Nat := 249; let acc : Nat := 33; let var : Nat := 5; let prio2 : Nat := 128; let ident : Nat := 5; let steps : Nat := 1; let s : State := netted;
    s.portsUp = true ∧ p < 2 ∧ s.portFlag p 3 = true ∧ s.ptpRec.any (fun r => r.u8 0x10 == 0 && r.u8 0x11 == domain) = true ∧ s.parentPort ≠ p ∧ lexLt [prio1, cls, acc, var, prio2, ident, steps] s.ownClock = false := by decide +kernel
theorem witness_TheNetworkKeepsTimeAndServesModbus_12 :
    let p : Nat := 2; let s : State := netted.modNet fun x => { x with ptpSeq := [(2, 65535)] };
    s.ptpMaster p = true := by decide +kernel
theorem witness_TheNetworkKeepsTimeAndServesModbus_13 :
    let p : Nat := 2; let who : Nat := 5; let seq : Nat := 9; let s : State := netted;
    s.ptpMaster p = true := by decide +kernel
theorem witness_TheNetworkKeepsTimeAndServesModbus_14 :
    let p : Nat := 1; let client : Nat := 9; let a : Nat := 102; let n : Nat := 2; let fn : Nat := 4; let s : State := netted.modNet fun x => { x with points := List.range 37 };
    s.modbusOn p = true ∧ (fn = 3 ∨ fn = 4) ∧ 1 ≤ n ∧ n ≤ 125 ∧ mapRange a n = true ∧ a < 65536 ∧ s.net.points ≠ [] := by decide +kernel
theorem witness_TheNetworkKeepsTimeAndServesModbus_15 :
    let p : Nat := 1; let client : Nat := 9; let pdu : List Byte := le 1 3 ++ beBytes 2 3 ++ beBytes 2 2; let s : State := netted;
    s.modbusOn p = true ∧ u8 pdu 0 = 3 ∧ 1 ≤ be16 pdu 3 ∧ be16 pdu 3 ≤ 125 ∧ mapRange (be16 pdu 1) (be16 pdu 3) = false := by decide +kernel
theorem witness_TheNetworkKeepsTimeAndServesModbus_16 :
    let p : Nat := 1; let client : Nat := 9; let v : Nat := 123456789; let s : State := netted;
    s.modbusOn p = true ∧ s.mayWrite client = true ∧ v < 2 ^ 32 - 1 := by decide +kernel
theorem witness_TheNetworkKeepsTimeAndServesModbus_17 :
    let p : Nat := 1; let client : Nat := 8; let pdu : List Byte := le 1 16; let s : State := netted;
    s.modbusOn p = true ∧ u8 pdu 0 = 16 ∧ s.mayWrite client = false := by decide +kernel
theorem witness_TheNetworkKeepsTimeAndServesModbus_18 :
    let p : Nat := 1; let s : State := netted.wr (R.NET_MODBUS_STATUS.part 0 3) 3;
    s.modbusOn p = true ∧ s.rd (R.NET_MODBUS_STATUS.part 0 3) < cfgD (s.cfg 10 4 0) (fun (r : CfgRec) => r.u8 0x11) 4 ∧ s.rd (R.NET_MODBUS_STATUS.part 0 3) < 7 := by decide +kernel
theorem witness_TheNetworkKeepsTimeAndServesModbus_19 :
    let p : Nat := 1; let s : State := netted.wr (R.NET_MODBUS_STATUS.part 0 3) 4;
    s.modbusOn p = true ∧ cfgD (s.cfg 10 4 0) (fun (r : CfgRec) => r.u8 0x11) 4 ≤ s.rd (R.NET_MODBUS_STATUS.part 0 3) := by decide +kernel
theorem witness_TheNetworkKeepsTimeAndServesModbus_20 :
    let p : Nat := 1; let s : State := netted.wr (R.NET_MODBUS_STATUS.part 0 3) 4;
    s.modbusOn p = true := by decide +kernel
theorem witness_AcquisitionFillsTriggersAndKeepsRecords_1 :
    let b : Nat := 3; let stamp : Nat := 7; let codes : List Word := [9#32]; let r : CfgRec := scopeRec 0 50; let s : State := scope 0 50 { AcqBuf.fresh with state := 2, cur := { AcqRec.fresh with total := 7, frames := List.replicate 7 [1#32] } };
    s.acqRuns = true ∧ s.acqDef b = some r ∧ r.acqClass < 2 ∧ r.acqPool = none ∧ s.cfg 12 2 b = none ∧ s.acq.heard = [] ∧ (s.buf b).state = ACQ_FILLING ∧ (s.buf b).due = none ∧ (s.buf b).cur.refine = none ∧ 1 ≤ r.acqN := by decide +kernel
theorem witness_AcquisitionFillsTriggersAndKeepsRecords_2 :
    let b : Nat := 3; let stamp : Nat := 7; let codes : List Word := [9#32]; let r : CfgRec := scopeRec 0 50; let d : AcqDue := ⟨[], 5, 39⟩; let s : State := scope 0 50 { AcqBuf.fresh with state := 3, due := some ⟨[], 5, 39⟩, cur := { AcqRec.fresh with total := 9, frames := List.replicate 9 [1#32] } };
    s.acqRuns = true ∧ s.acqDef b = some r ∧ r.acqClass < 2 ∧ r.acqPool = none ∧ s.cfg 12 2 b = none ∧ s.acq.heard = [] ∧ (s.buf b).state = ACQ_ARMED_ST ∧ (s.buf b).due = some d ∧ d.hits = [] ∧ (s.buf b).cur.refine = none ∧ r.acqPre ≤ (s.buf b).cur.frames.length ∧ r.acqPre + 1 < r.acqN := by decide +kernel
theorem witness_AcquisitionFillsTriggersAndKeepsRecords_3 :
    let b : Nat := 3; let stamp : Nat := 7; let codes : List Word := [9#32]; let r : CfgRec := scopeRec 0 50; let s : State := scope 0 50 { AcqBuf.fresh with state := 4, left := 1, seg := 2, cur := { AcqRec.fresh with total := 15, seq := 8, frames := List.replicate 15 [1#32] } };
    s.acqRuns = true ∧ s.acqDef b = some r ∧ r.acqClass < 2 ∧ r.acqPool = none ∧ r.acqFlag 3 = false ∧ s.cfg 12 2 b = none ∧ s.acq.heard = [] ∧ (s.buf b).state = ACQ_TRIGGERED ∧ (s.buf b).due = none ∧ (s.buf b).cur.refine = none ∧ (s.buf b).left = 1 := by decide +kernel
theorem witness_AcquisitionFillsTriggersAndKeepsRecords_4 :
    let b : Nat := 3; let r : CfgRec := scopeRec 2 50; let s : State := scope 2 50 { AcqBuf.fresh with state := 3 };
    s.acqRuns = true ∧ s.acqDef b = some r ∧ r.acqFlag 1 = true ∧ s.claimable r = true := by decide +kernel
theorem witness_AcquisitionFillsTriggersAndKeepsRecords_5 :
    let seq : Nat := 39; let k : Nat := 2; let r : CfgRec := scopeRec 0 50; let x : AcqRec := kept; let s : State := scope 0 50 { AcqBuf.fresh with state := 5, segs := [(2, kept)] };
    s.acqRuns = true ∧ s.findRec seq = some (r, k, x) ∧ x.status = 1 ∧ x.meas = none := by decide +kernel
theorem witness_AcquisitionFillsTriggersAndKeepsRecords_6 :
    let q : Nat := 1; let k : Nat := 1; let r : CfgRec := scopeRec 0 50; let c : Cmd := task 1 0x1301 0 [3#8]; let s : State := served 1 (task 1 0x1301 0 [3#8]) (scope 0 50 { AcqBuf.fresh with state := 5, segs := [(0, kept)] });
    s.serving q 0x1301 c = true ∧ s.acqDef (u8 c.args 0) = some r ∧ s.acqRuns = true ∧ ((s.buf (u8 c.args 0)).state = ACQ_READY ∨ (s.buf (u8 c.args 0)).state = ACQ_DONE) ∧ s.freeSeg r = some k := by decide +kernel
theorem witness_AcquisitionFillsTriggersAndKeepsRecords_7 :
    let q : Nat := 1; let c : Cmd := task 1 0x1301 0 [4#8]; let s : State := served 1 (task 1 0x1301 0 [4#8]) (scope 0 50 AcqBuf.fresh);
    s.serving q 0x1301 c = true ∧ s.acqDef (u8 c.args 0) = none := by decide +kernel
theorem witness_AcquisitionFillsTriggersAndKeepsRecords_8 :
    let q : Nat := 1; let r : CfgRec := scopeRec 0 50; let c : Cmd := task 1 0x1302 0 [3#8]; let s : State := served 1 (task 1 0x1302 0 [3#8]) (scope 0 50 { AcqBuf.fresh with state := 4, seg := 1, left := 3 });
    s.serving q 0x1302 c = true ∧ s.acqDef (u8 c.args 0) = some r ∧ ((s.buf (u8 c.args 0)).state = ACQ_FILLING ∨ (s.buf (u8 c.args 0)).state = ACQ_ARMED_ST ∨ (s.buf (u8 c.args 0)).state = ACQ_TRIGGERED) := by decide +kernel
theorem witness_AcquisitionFillsTriggersAndKeepsRecords_9 :
    let q : Nat := 1; let r : CfgRec := scopeRec 0 50; let c : Cmd := task 1 0x1303 0 [0#8, 3#8]; let s : State := served 1 (task 1 0x1303 0 [0#8, 3#8]) (scope 0 50 { AcqBuf.fresh with state := 3 });
    s.serving q 0x1303 c = true ∧ u8 c.args 0 = 0 ∧ s.acqDef (u8 c.args 1) = some r ∧ s.acq.heard = [] ∧ s.claimable r = true := by decide +kernel
theorem witness_AcquisitionFillsTriggersAndKeepsRecords_10 :
    let q : Nat := 1; let r : CfgRec := rec' 12 1 3 168 [(0x10, 1), (0x11, 1), (0x12, 3), (0x1D, 2)]; let c : Cmd := task 1 0x1303 0 [1#8, 2#8]; let s : State := served 1 (task 1 0x1303 0 [1#8, 2#8]) (recs [rec' 12 1 3 168 [(0x10, 1), (0x11, 1), (0x12, 3), (0x1D, 2)]] (scope 0 50 AcqBuf.fresh));
    s.serving q 0x1303 c = true ∧ u8 c.args 0 = 1 ∧ s.acq.heard = [] ∧ s.acqDefs.find? (fun x => x.acqPool == some (u8 c.args 1)) = some r ∧ (s.poolOf r).find? s.claimable = none := by decide +kernel
theorem witness_AcquisitionFillsTriggersAndKeepsRecords_11 :
    let q : Nat := 1; let k : Nat := 2; let r : CfgRec := scopeRec 0 50; let x : AcqRec := kept; let c : Cmd := task 1 0x1304 0 (le 4 39); let s : State := served 1 (task 1 0x1304 0 (le 4 39)) (scope 0 50 { AcqBuf.fresh with state := 5, segs := [(2, kept)] });
    s.serving q 0x1304 c = true ∧ s.findRec (u32 c.args 0) = some (r, k, x) := by decide +kernel
theorem witness_AcquisitionFillsTriggersAndKeepsRecords_12 :
    let q : Nat := 1; let c : Cmd := task 1 0x1304 0 (le 4 38); let s : State := served 1 (task 1 0x1304 0 (le 4 38)) (scope 0 50 { AcqBuf.fresh with state := 5, segs := [(2, kept)] });
    s.serving q 0x1304 c = true ∧ s.findRec (u32 c.args 0) = none := by decide +kernel
theorem witness_AcquisitionFillsTriggersAndKeepsRecords_13 :
    let q : Nat := 1; let k : Nat := 2; let r : CfgRec := scopeRec 0 50; let x : AcqRec := { kept with meas := some [List.replicate 13 7#32] }; let m : List (List Word) := [List.replicate 13 7#32]; let c : Cmd := task 1 0x1305 0 (le 4 39 ++ le 1 0 ++ le 1 12); let s : State := served 1 (task 1 0x1305 0 (le 4 39 ++ le 1 0 ++ le 1 12)) (scope 0 50 { AcqBuf.fresh with state := 5, segs := [(2, { kept with meas := some [List.replicate 13 7#32] })] });
    s.serving q 0x1305 c = true ∧ s.findRec (u32 c.args 0) = some (r, k, x) ∧ u8 c.args 4 < r.u8 0x11 ∧ u8 c.args 5 ≤ 12 ∧ x.meas = some m ∧ u8 c.args 4 < m.length ∧ u8 c.args 5 < (m.getD (u8 c.args 4) []).length := by decide +kernel
theorem witness_TheRecorderExportsClearsAndReturns_1 :
    let s : State := (on 9).wr R.REC_USED 64;
    s.powered = true := by decide +kernel
theorem witness_TheRecorderExportsClearsAndReturns_2 :
    let q : Nat := 1; let c : Cmd := task 1 0x1401 0 [1#8]; let bs : List Byte := []; let s : State := (served 1 (task 1 0x1401 0 [1#8]) (on 9)).setEventQ 3 ⟨[], some 0, 0, false⟩;
    s.serving q 0x1401 c = true ∧ (s.eventQ 3).owner = some c.sess ∧ s.recu.exp = none ∧ s.exportBytes (u8 c.args 0) (u32 c.args 4) = some bs := by decide +kernel
theorem witness_TheRecorderExportsClearsAndReturns_3 :
    let q : Nat := 1; let c : Cmd := task 1 0x1401 0 []; let s : State := served 1 (task 1 0x1401 0 []) (on 9);
    s.serving q 0x1401 c = true ∧ (s.eventQ 3).owner ≠ some c.sess := by decide +kernel
theorem witness_TheRecorderExportsClearsAndReturns_4 :
    let x : Export := ⟨1, 0, 1, 0, 64, []⟩; let s : State := let s := opened (on 9); { s with recu := { s.recu with exp := some ⟨1, 0, 1, 0, 64, []⟩ } };
    s.recu.exp = some x ∧ x.bytes = [] := by decide +kernel
theorem witness_TheRecorderExportsClearsAndReturns_5 :
    let x : Export := ⟨1, 0, 1, 0, 144, List.replicate 80 1#8⟩; let s : State := let s := opened (on 9); { s with recu := { s.recu with exp := some ⟨1, 0, 1, 0, 144, List.replicate 80 1#8⟩ } };
    s.recu.exp = some x ∧ x.bytes ≠ [] ∧ x.bytes.length ≤ 80 ∧ x.bytes.length ≤ x.total ∧ (s.eventQ 3).entries.length < 32768 := by decide +kernel
theorem witness_TheRecorderExportsClearsAndReturns_6 :
    let q : Nat := 1; let c : Cmd := task 1 0x1402 0 []; let x : Export := ⟨2, 0, 1, 0, 64, [1#8]⟩; let s : State := let s := served 1 (task 1 0x1402 0 []) (on 9); { s with recu := { s.recu with exp := some ⟨2, 0, 1, 0, 64, [1#8]⟩ } };
    s.serving q 0x1402 c = true ∧ s.recu.exp = some x := by decide +kernel
theorem witness_TheRecorderExportsClearsAndReturns_7 :
    let q : Nat := 1; let c : Cmd := task 1 0x1403 0 []; let s : State := served 1 (task 1 0x1403 0 []) (keyed' 2);
    s.serving q 0x1403 c = true ∧ s.holds c.sess 8 = true ∧ s.keySwitch = true ∧ s.underway = true ∧ s.nv.ledger.length < 256 ∧ s.recu.clear = none ∧ s.recu.exp.any (fun x => x.kind == 0) = false := by decide +kernel
theorem witness_TheRecorderExportsClearsAndReturns_8 :
    let q : Nat := 1; let c : Cmd := task 1 0x1403 0 []; let s : State := (served 1 (task 1 0x1403 0 []) (keyed' 2)).wrB R.SAF_STATUS_KEY_SWITCH false;
    s.serving q 0x1403 c = true ∧ s.holds c.sess 8 = true ∧ s.keySwitch = false := by decide +kernel
theorem witness_TheRecorderExportsClearsAndReturns_9 :
    let q : Nat := 1; let serial : Nat := 9; let c : Cmd := task 1 0x1403 0 []; let s : State := let s := (served 1 (task 1 0x1403 0 []) (keyed' 2)).wrB R.REC_STATUS_HIGH true; { s with recu := { s.recu with clear := some (1, 9) } };
    s.powered = true ∧ s.recu.clear = some (q, serial) ∧ s.running q = some c ∧ s.present c = true ∧ s.nv.ledger.length < 256 := by decide +kernel
theorem witness_TheRecorderExportsClearsAndReturns_10 :
    let s : State := (on 9).wrB R.REC_STATUS_ZEROING true;
    s.powered = true := by decide +kernel
theorem witness_TheRecorderExportsClearsAndReturns_11 :
    let q : Nat := 1; let c : Cmd := task 1 0x1404 0 (le 4 1 ++ le 16 77); let s : State := served 1 (task 1 0x1404 0 (le 4 1 ++ le 16 77)) (keyed' 2);
    s.serving q 0x1404 c = true ∧ s.holds c.sess 12 = true ∧ s.keySwitch = true ∧ u8 c.args 0 ≤ 1 ∧ (u8 c.args 0 = 0 ∨ s.nv.ledger.length < 256) := by decide +kernel
theorem witness_TheRecorderExportsClearsAndReturns_12 :
    let p : Nat × List Byte := (1, []); let s : State := let s := on 9; { s with recu := { s.recu with prep := some (1, []) } };
    s.recu.prep = some p := by decide +kernel
theorem witness_TheRecorderExportsClearsAndReturns_13 :
    let q : Nat := 1; let choice : Nat := 1; let c : Cmd := task 1 0x1405 0 (le 16 78); let ref : List Byte := le 16 77; let s : State := let s := served 1 (task 1 0x1405 0 (le 16 78)) (keyed' 2); { s with recu := { s.recu with prep := some (1, le 16 77) } };
    s.serving q 0x1405 c = true ∧ s.recu.prep = some (choice, ref) ∧ padEnd 16 (c.args.take 16) ≠ ref := by decide +kernel
theorem witness_TheRecorderExportsClearsAndReturns_14a :
    let q : Nat := 1; let choice : Nat := 1; let c : Cmd := task 1 0x1405 0 (le 16 77); let ref : List Byte := le 16 77; let s : State := let s := served 1 (task 1 0x1405 0 (le 16 77)) (keyed' 2); { s with recu := { s.recu with prep := some (1, le 16 77) } };
    s.serving q 0x1405 c = true ∧ s.recu.prep = some (choice, ref) ∧ padEnd 16 (c.args.take 16) = ref ∧ s.keySwitch = true ∧ s.lifecycle = 2 ∧ s.nv.ledger.length < 256 := by decide +kernel
theorem witness_TheRecorderExportsClearsAndReturns_14b :
    let q : Nat := 1; let choice : Nat := 0; let c : Cmd := task 1 0x1405 0 (le 16 77); let ref : List Byte := le 16 77; let s : State := let s := served 1 (task 1 0x1405 0 (le 16 77)) (keyed' 2); { s with recu := { s.recu with prep := some (0, le 16 77) } };
    s.serving q 0x1405 c = true ∧ s.recu.prep = some (choice, ref) ∧ padEnd 16 (c.args.take 16) = ref ∧ s.keySwitch = true ∧ s.lifecycle = 2 ∧ s.nv.ledger.length < 256 := by decide +kernel
theorem witness_TheRecorderExportsClearsAndReturns_15 :
    let sess : Nat := 0; let s : State := (opened (on 9)).wrB R.REC_TRACE_STATUS_WRAPPED true;
    s.keyed sess 0xA5 = true := by decide +kernel
theorem witness_TheRecorderExportsClearsAndReturns_16 :
    let k : Nat := 13; let s : State := (on 9).wr R.PWR_DOMAIN_LIVE 32767;
    s.powered = true ∧ k < 14 ∧ s.live (traceDomain k) = true := by decide +kernel
theorem witness_SecurityCommandsFollowTheLifecycle_1 :
    let sess : Nat := 0; let v : Nat := 127; let s : State := opened (on 9);
    s.isOpen sess = true := by decide +kernel
theorem witness_SecurityCommandsFollowTheLifecycle_2 :
    let sess : Nat := 0; let v : Word := 127#32; let s : State := (opened (on 9)).wr R.SEC_STAGE_INDEX 191;
    s.isOpen sess = true := by decide +kernel
theorem witness_SecurityCommandsFollowTheLifecycle_3 :
    let sess : Nat := 0; let v : Word := 127#32; let s : State := (opened (on 9)).wr R.SEC_STAGE_INDEX 191;
    s.isOpen sess = true := by decide +kernel
theorem witness_SecurityCommandsFollowTheLifecycle_4 :
    let q : Nat := 1; let c : Cmd := task 1 0x0201 0 [6#8, 0#8]; let s : State := served 1 (task 1 0x0201 0 [6#8, 0#8]) (keyed' 1);
    s.serving q 0x0201 c = true ∧ s.stageTaken c = false ∧ s.lifecycle < 2 ∧ s.keySwitch = true ∧ 3 ≤ u8 c.args 0 ∧ u8 c.args 0 ≤ 6 ∧ u8 c.args 1 = 0 := by decide +kernel
theorem witness_SecurityCommandsFollowTheLifecycle_5 :
    let q : Nat := 1; let c : Cmd := task 1 0x0201 0 [6#8, 0#8]; let s : State := served 1 (task 1 0x0201 0 [6#8, 0#8]) (keyed' 2);
    s.serving q 0x0201 c = true ∧ s.stageTaken c = false ∧ 2 ≤ s.lifecycle := by decide +kernel
theorem witness_SecurityCommandsFollowTheLifecycle_6 :
    let q : Nat := 1; let c : Cmd := task 1 0x0202 0 []; let s : State := let s := ((served 1 (task 1 0x0202 0 []) (keyed' 1)).wrB R.SYS_START_STATUS_SUCCEEDED true).wrB R.MAN_STATUS_SAFETY_UNCONFIRMED false; { s with nv := { s.nv with plantId := some 7 } };
    s.serving q 0x0202 c = true ∧ s.lifecycle = 1 ∧ s.keySwitch = true ∧ s.underway = true ∧ s.on R.SYS_START_STATUS_SUCCEEDED = true ∧ s.nv.plantId.isSome = true ∧ s.on R.MAN_STATUS_SAFETY_UNCONFIRMED = false := by decide +kernel
theorem witness_SecurityCommandsFollowTheLifecycle_7 :
    let q : Nat := 1; let c : Cmd := task 1 0x0202 0 []; let s : State := (served 1 (task 1 0x0202 0 []) (keyed' 1)).wrB R.SAF_STATUS_KEY_SWITCH false;
    s.serving q 0x0202 c = true ∧ s.lifecycle = 1 ∧ s.keySwitch = false := by decide +kernel
theorem witness_SecurityCommandsFollowTheLifecycle_8 :
    let q : Nat := 1; let c : Cmd := task 1 0x0203 0 []; let s : State := let s := served 1 (task 1 0x0203 0 []) (keyed' 1); { s with nv := { s.nv with plantId := some 7 } };
    s.serving q 0x0203 c = true ∧ s.lifecycle = 1 ∧ s.keySwitch = true := by decide +kernel
theorem witness_SecurityCommandsFollowTheLifecycle_9 :
    let q : Nat := 1; let c : Cmd := task 1 0x0204 0 []; let s : State := let s := staged ([0x4B#8, 0x55#8, 0x50#8, 0x44#8, 6#8, 0#8] ++ le 2 0 ++ le 8 7 ++ le 4 3) (served 1 (task 1 0x0204 0 []) (keyed' 2)); { s with nv := { s.nv with plantId := some 7, keySeq := 2 } };
    s.serving q 0x0204 c = true ∧ s.stageTaken c = false ∧ s.lifecycle = 2 ∧ s.stageBytes.take 6 = [0x4B#8, 0x55#8, 0x50#8, 0x44#8, 6#8, 0#8] ∧ some (u64 s.stageBytes 8) = s.nv.plantId ∧ s.nv.keySeq < u32 s.stageBytes 0x10 := by decide +kernel
theorem witness_SecurityCommandsFollowTheLifecycle_10 :
    let q : Nat := 1; let n : Nat := 0; let c : Cmd := task 1 0x0205 0 (le 8 0); let s : State := served 1 (task 1 0x0205 0 (le 8 0)) (keyed' 2);
    s.serving q 0x0205 c = true ∧ s.nv.revoked.length < 64 ∧ (s.session n).any (fun x => x.serial == u64 c.args 0) = true := by decide +kernel
theorem witness_SecurityCommandsFollowTheLifecycle_11 :
    let q : Nat := 1; let c : Cmd := task 1 0x020A 0 []; let s : State := (served 1 (task 1 0x020A 0 []) (keyed' 2)).wrB R.SYS_START_STATUS_SUCCEEDED true;
    s.serving q 0x020A c = true ∧ s.keySwitch = true ∧ s.on R.SYS_START_STATUS_SUCCEEDED = true := by decide +kernel
theorem witness_SecurityCommandsFollowTheLifecycle_12 :
    let q : Nat := 1; let c : Cmd := task 1 0x0208 0 (le 2 0 ++ le 2 4); let s : State := staged ([0x4E#8, 0x43#8, 0x52#8, 0x54#8] ++ List.replicate 22 0#8) (served 1 (task 1 0x0208 0 (le 2 0 ++ le 2 4)) joined);
    s.serving q 0x0208 c = true ∧ s.stageTaken c = false ∧ s.portsUp = true ∧ s.xngUsed (u8 c.args 0) = true ∧ s.idle = true ∧ s.reaches (u8 c.args 0) (u16 c.args 2 % 512) = true ∧ certHeld (s.stageBytes.take 200) = true ∧ u16 c.args 2 % 512 ≠ 0x1FD ∧ (s.declaredAt (u8 c.args 0) (u16 c.args 2 % 512)).any (fun d => d.1 != u8 (s.stageBytes.take 200) 0x1A) = false := by decide +kernel
theorem witness_SecurityCommandsFollowTheLifecycle_13 :
    let q : Nat := 1; let c : Cmd := task 1 0x0208 0 (le 2 0 ++ le 2 4); let s : State := served 1 (task 1 0x0208 0 (le 2 0 ++ le 2 4)) joined;
    s.serving q 0x0208 c = true ∧ s.stageTaken c = false ∧ s.portsUp = true ∧ s.xngUsed (u8 c.args 0) = true ∧ certHeld (s.stageBytes.take 200) = false := by decide +kernel
theorem witness_SecurityCommandsFollowTheLifecycle_14 :
    let q : Nat := 1; let c : Cmd := task 1 0x0209 0 (le 2 0 ++ le 2 4); let s : State := served 1 (task 1 0x0209 0 (le 2 0 ++ le 2 4)) joined;
    s.serving q 0x0209 c = true ∧ s.stageTaken c = false ∧ s.portsUp = true ∧ s.xngUsed (u8 c.args 0) = true ∧ s.idle = true ∧ s.reaches (u8 c.args 0) (u16 c.args 2 % 512) = true := by decide +kernel
theorem witness_SecurityCommandsFollowTheLifecycle_15 :
    let sess : Nat := 0; let k : Nat := 3; let v : Word := 0x41424344#32; let s : State := keyed' 1;
    s.isOpen sess = true ∧ k < 4 := by decide +kernel
theorem witness_SecurityCommandsFollowTheLifecycle_16 :
    let s : State := (on 9).wr (R.SEC_RNG_STATUS.part 8 8) 254;
    s.powered = true ∧ s.rd (R.SEC_RNG_STATUS.part 8 8) < 255 := by decide +kernel
theorem witness_DebugAndTamperFollowTheirRules_1 :
    let q : Nat := 1; let c : Cmd := task 1 0x0206 0 []; let s : State := let s := staged ([0x44#8, 0x54#8, 0x4B#8, 0x4E#8, 1#8, 0#8, 15#8, 0#8] ++ le 8 9 ++ le 4 99) ((served 1 (task 1 0x0206 0 []) ((keyed' 2).wr64 R.SEC_SERIAL_LO 9)).wr R.PWR_OP_SECONDS 98); { s with nv := { s.nv with keys := [(6, [1#8])] } };
    s.serving q 0x0206 c = true ∧ s.stageTaken c = false ∧ s.on R.SEC_DEBUG_STATUS_STATE = false ∧ s.stageBytes.take 6 = [0x44#8, 0x54#8, 0x4B#8, 0x4E#8, 1#8, 0#8] ∧ u64 s.stageBytes 8 = s.rd64 R.SEC_SERIAL_LO ∧ s.opSec < u32 s.stageBytes 0x10 ∧ s.lifecycle ≠ 3 ∧ s.key 6 ≠ [] := by decide +kernel
theorem witness_DebugAndTamperFollowTheirRules_2 :
    let q : Nat := 1; let c : Cmd := task 1 0x0206 0 []; let s : State := staged ([0x44#8, 0x54#8, 0x4B#8, 0x4E#8, 1#8, 0#8, 15#8, 0#8] ++ le 8 9 ++ le 4 99) ((served 1 (task 1 0x0206 0 []) ((keyed' 2).wr64 R.SEC_SERIAL_LO 9)).wr R.PWR_OP_SECONDS 99);
    s.serving q 0x0206 c = true ∧ s.stageTaken c = false ∧ s.on R.SEC_DEBUG_STATUS_STATE = false ∧ s.stageBytes.take 6 = [0x44#8, 0x54#8, 0x4B#8, 0x4E#8, 1#8, 0#8] ∧ u64 s.stageBytes 8 = s.rd64 R.SEC_SERIAL_LO ∧ u32 s.stageBytes 0x10 ≤ s.opSec := by decide +kernel
theorem witness_DebugAndTamperFollowTheirRules_3 :
    let q : Nat := 1; let c : Cmd := task 1 0x0207 0 []; let s : State := (served 1 (task 1 0x0207 0 []) (debugged 1)).wr R.DBG_HALT_STATUS 6;
    s.serving q 0x0207 c = true ∧ s.on R.SEC_DEBUG_STATUS_STATE = true := by decide +kernel
theorem witness_DebugAndTamperFollowTheirRules_4 :
    let s : State := (debugged 1).wr R.SEC_TOKEN_EXPIRY 5;
    s.on R.SEC_DEBUG_STATUS_STATE = true ∧ s.rd R.SEC_TOKEN_EXPIRY ≤ s.opSec := by decide +kernel
theorem witness_DebugAndTamperFollowTheirRules_5 :
    let sess : Nat := 0; let v : Nat := 5; let k : Nat := 9; let s : State := (debugged 1).wr R.DBG_HALT_STATUS 1022;
    s.isOpen sess = true ∧ s.debugExpired = false ∧ s.debugger sess = true ∧ s.debugMay 0 = true ∧ s.lifecycle ≠ 2 ∧ 1 ≤ k ∧ k < 10 ∧ bit v k = false := by decide +kernel
theorem witness_DebugAndTamperFollowTheirRules_6 :
    let sess : Nat := 0; let v : Nat := 5; let s : State := keyed' 1;
    s.isOpen sess = true ∧ s.debugExpired = false ∧ s.debugger sess = false := by decide +kernel
theorem witness_DebugAndTamperFollowTheirRules_7 :
    let k : Nat := 9; let s : State := (debugged 1).wr R.DBG_HALT_REQUEST 512;
    1 ≤ k ∧ k ≤ 9 ∧ bit (s.rd R.DBG_HALT_REQUEST) k = true ∧ bit (s.rd R.DBG_HALT_DEFERRED) k = false ∧ bit s.halted k = false ∧ s.sparesFree ≠ 0 := by decide +kernel
theorem witness_DebugAndTamperFollowTheirRules_8 :
    let s : State := (debugged 1).wr R.DBG_HALT_DEFERRED 2;
    s.haltCauses = 0 := by decide +kernel
theorem witness_DebugAndTamperFollowTheirRules_9 :
    let sess : Nat := 0; let v : Word := 7#32; let s : State := ((debugged 1).wr R.DBG_MEM_ADDR_LO (2 ^ 32 - 4)).wr R.DBG_MEM_ADDR_HI 255;
    s.isOpen sess = true ∧ s.debugger sess = true ∧ s.debugMay 2 = true ∧ s.lifecycle ≠ 2 ∧ 0x150000 ≤ s.memAddr := by decide +kernel
theorem witness_DebugAndTamperFollowTheirRules_10 :
    let sess : Nat := 0; let v : Word := 7#32; let s : State := (debugged 2).wr R.DBG_MEM_ADDR_LO 0x150000;
    s.isOpen sess = true ∧ s.debugger sess = true ∧ s.debugMay 1 = true ∧ 0x150000 ≤ s.memAddr := by decide +kernel
theorem witness_DebugAndTamperFollowTheirRules_11 :
    let sess : Nat := 0; let write : Bool := true; let v : Word := 7#32; let s : State := ((debugged 1).wr R.DBG_MEM_ADDR_LO 0x14FFFC).wr R.DBG_MEM_ADDR_HI 0;
    s.isOpen sess = true ∧ s.memAddr < 0x150000 := by decide +kernel
theorem witness_DebugAndTamperFollowTheirRules_12 :
    let k : Nat := 1; let b' : Nat := 3; let s : State := (debugged 1).wr R.DBG_BREAK_ENABLE 8;
    1 ≤ k ∧ k ≤ 9 ∧ b' < 4 ∧ bit (s.rd R.DBG_BREAK_ENABLE) b' = true ∧ s.on R.SEC_DEBUG_STATUS_STATE = true ∧ bit s.halted k = false ∧ s.haltCauses = 0 ∧ s.sparesFree ≠ 0 := by decide +kernel
theorem witness_DebugAndTamperFollowTheirRules_13 :
    let k : Nat := 1; let b' : Nat := 3; let s : State := ((debugged 2).wr R.DBG_BREAK_ENABLE 8).wr R.PWR_GLIDE_STATUS 1;
    1 ≤ k ∧ k ≤ 9 ∧ b' < 4 ∧ bit (s.rd R.DBG_BREAK_ENABLE) b' = true ∧ s.on R.SEC_DEBUG_STATUS_STATE = true ∧ bit s.halted k = false ∧ s.haltCauses ≠ 0 := by decide +kernel
theorem witness_DebugAndTamperFollowTheirRules_14 :
    let m : Nat := 5; let s : State := (debugged 2).wr (R.SEC_TAMPER_ENABLE.part 10 2) 2;
    s.powered = true ∧ m < 6 ∧ s.rd (R.SEC_TAMPER_ENABLE.part (2 * m) 2) = 2 := by decide +kernel
theorem witness_DebugAndTamperFollowTheirRules_15 :
    let m : Nat := 5; let s : State := (debugged 2).wr (R.SEC_TAMPER_ENABLE.part 10 2) 3;
    s.powered = true ∧ m < 6 ∧ s.rd (R.SEC_TAMPER_ENABLE.part (2 * m) 2) = 3 ∧ s.motion = false ∧ s.evac = false := by decide +kernel
theorem witness_DebugAndTamperFollowTheirRules_16 :
    let m : Nat := 5; let s : State := ((debugged 2).wr (R.SEC_TAMPER_ENABLE.part 10 2) 3).wr R.PWR_GLIDE_STATUS 1;
    s.powered = true ∧ m < 6 ∧ s.rd (R.SEC_TAMPER_ENABLE.part (2 * m) 2) = 3 ∧ s.motion = true := by decide +kernel
theorem witness_DebugAndTamperFollowTheirRules_17 :
    let s : State := let s := keyed' 2; { s with boll := { s.boll with tamperWait := true } };
    s.powered = true ∧ s.boll.tamperWait = true ∧ s.motion = false ∧ s.evac = false := by decide +kernel
theorem witness_ClearCountersClearsWhatCountsSinceStart_1 :
    let sess : Nat := 0; let n : Nat := 15; let s : State := opened (on 9);
    RegsOk s.regs ∧ s.keyed sess 0xA5 = true ∧ n < 16 := ⟨regsOk_opened, by decide +kernel⟩
theorem witness_ClearCountersClearsWhatCountsSinceStart_2 :
    let sess : Nat := 0; let s : State := opened (on 9);
    RegsOk s.regs ∧ s.keyed sess 0xA5 = true := ⟨regsOk_opened, by decide +kernel⟩
theorem witness_ClearCountersClearsWhatCountsSinceStart_3 :
    let sess : Nat := 0; let s : State := opened (on 9);
    RegsOk s.regs ∧ s.keyed sess 0xA5 = true := ⟨regsOk_opened, by decide +kernel⟩
theorem witness_ClearCountersClearsWhatCountsSinceStart_4 :
    let sess : Nat := 0; let s : State := opened (on 9);
    RegsOk s.regs ∧ s.keyed sess 0xA5 = true := ⟨regsOk_opened, by decide +kernel⟩
theorem witness_ClearCountersClearsWhatCountsSinceStart_5 :
    let sess : Nat := 0; let s : State := opened (on 9);
    RegsOk s.regs ∧ s.keyed sess 0xA5 = true := ⟨regsOk_opened, by decide +kernel⟩
theorem witness_ClearCountersClearsWhatCountsSinceStart_6 :
    let sess : Nat := 0; let s : State := opened (on 9);
    RegsOk s.regs ∧ s.keyed sess 0xA5 = true := ⟨regsOk_opened, by decide +kernel⟩
theorem witness_ClearCountersClearsWhatCountsSinceStart_7 :
    let sess : Nat := 0; let s : State := opened (on 9);
    RegsOk s.regs ∧ s.keyed sess 0xA5 = true := ⟨regsOk_opened, by decide +kernel⟩
theorem witness_ClearCountersClearsWhatCountsSinceStart_8 :
    let sess : Nat := 0; let c : Nat := 7; let s : State := opened (on 9);
    RegsOk s.regs ∧ s.keyed sess 0xA5 = true ∧ c < 8 := ⟨regsOk_opened, by decide +kernel⟩
theorem witness_ClearCountersClearsWhatCountsSinceStart_9 :
    let sess : Nat := 0; let c : Nat := 7; let s : State := opened (on 9);
    RegsOk s.regs ∧ s.keyed sess 0xA5 = true ∧ c < 8 := ⟨regsOk_opened, by decide +kernel⟩
theorem witness_ClearCountersClearsWhatCountsSinceStart_10 :
    let sess : Nat := 0; let d : Nat := 15; let s : State := opened (on 9);
    RegsOk s.regs ∧ s.keyed sess 0xA5 = true ∧ d < 16 := ⟨regsOk_opened, by decide +kernel⟩
theorem witness_ClearCountersClearsWhatCountsSinceStart_11 :
    let sess : Nat := 0; let s : State := opened (on 9);
    RegsOk s.regs ∧ s.keyed sess 0xA5 = true := ⟨regsOk_opened, by decide +kernel⟩
theorem witness_ClearCountersClearsWhatCountsSinceStart_12 :
    let sess : Nat := 0; let s : State := opened (on 9);
    RegsOk s.regs ∧ s.keyed sess 0xA5 = true := ⟨regsOk_opened, by decide +kernel⟩
theorem witness_ClearCountersClearsWhatCountsSinceStart_13 :
    let sess : Nat := 0; let b : Nat := 11; let s : State := opened (on 9);
    RegsOk s.regs ∧ s.keyed sess 0xA5 = true ∧ b < 12 := ⟨regsOk_opened, by decide +kernel⟩
theorem witness_ClearCountersClearsWhatCountsSinceStart_14 :
    let sess : Nat := 0; let l : Nat := 3; let s : State := opened (on 9);
    RegsOk s.regs ∧ s.keyed sess 0xA5 = true ∧ l < 4 := ⟨regsOk_opened, by decide +kernel⟩
theorem witness_ClearCountersClearsWhatCountsSinceStart_15 :
    let sess : Nat := 0; let s : State := opened (on 9);
    RegsOk s.regs ∧ s.keyed sess 0xA5 = true := ⟨regsOk_opened, by decide +kernel⟩
theorem witness_ClearCountersClearsWhatCountsSinceStart_16 :
    let sess : Nat := 0; let s : State := opened (on 9);
    RegsOk s.regs ∧ s.keyed sess 0xA5 = true := ⟨regsOk_opened, by decide +kernel⟩
theorem witness_ClearCountersClearsWhatCountsSinceStart_17 :
    let sess : Nat := 0; let s : State := opened (on 9);
    RegsOk s.regs ∧ s.keyed sess 0xA5 = true := ⟨regsOk_opened, by decide +kernel⟩

end Sys2Proof.Tests
end

section
/-!
PROOFS. The machine as a whole: every row answers a next state, and what every step keeps.
-/
namespace Sys2Proof.Machine
open Sys2Proof

/-! ## Every row answers a next state -/

/-- The outcome is a next state. -/
def Completes (r : Res State) : Prop := ∃ t, r = .next t
theorem completes_next (t : State) : Completes (.next t) := ⟨t, rfl⟩
theorem completes_ite {c : Prop} [Decidable c] {a b : Res State} (ha : Completes a) (hb : Completes b) :
    Completes (if c then a else b) := ite_ind (fun _ => ha) (fun _ => hb)
/-- A row that acts under a condition and leaves the state as it is otherwise, or does one of two things. -/
theorem completes_choice {c : Prop} [Decidable c] {t u : State} : Completes (if c then .next t else .next u) :=
  completes_ite (completes_next t) (completes_next u)
theorem completes_onCmd (s : State) (q code : Nat) (f : Cmd → State → State) : Completes (s.onCmd q code f) := by
  unfold State.onCmd
  split
  · exact completes_next _
  · exact completes_choice

/-- `exec` never stops the machine: no arm is refused and there is no fault. The rows are taken by the shape of their meaning. -/
theorem exec_completes (c : Instr) (s : State) : Completes (exec c s) := by
  cases c
  -- the queue runs the row's command or the row has nothing to act on
  case ringSleep | ringWake | nodeRead | nodeWrite | rediscover | reauthenticate | checkpoint | stringFigures | reinitialise
    | resetLearned | clearShort | stringClose | stringOpen | containerClose | containerOpen | resetTrip | thermalMode |
    scheduleAdd | scheduleClear | billingRead | setSignals | restartSlot | hostCall | cancelCall | carService | evacCall |
    callRead | stopCar | correctionRun | doorOpen | doorClose | doorStop | doorReference | doorHoldOpen | connectionRead |
    outputReset | canTx | canTxCancel | busSleep | busWake | busRecover | arm | disarm | forceTrigger | release |
    measureRead | exportCmd | exportStop | clearLog | returnPrepare | returnCommit | provision | resetCommissioning |
    keyUpdate | revoke | debugOpen | debugClose | enrolNode | readNodeRequest | firmwareUpdate =>
    apply completes_onCmd
  -- the row acts under one condition
  case hopTrained | hopErrorFallback | hopDown | linkFaultReceived | ringHeal | presenceTimer | joinDiscoveryTimer |
    authTimeout | periodicChallenge | sweepDue | sweepPromotion | nodeLost | sleepAnswerTimeout | wakeTone | retrain |
    xngClearCounters | sweepApply | restComplete | rollupPublish | checkpointInterval | estClearCounters | abortRestore |
    orderlyOpenTimeout | stringClosingTimeout | containerClosingTimeout | containerCurrentRead | branchCurrentRead |
    containerStatusRead | balanceCycle | thermalSetpointCycle | thermalFaultBlockEnd | pltProtClearCounters | dispatchCycle
    | sourceFault | sourceRestore | sourceSelectWrite | pcsLostTimeout | pltDispClearCounters | returnToSource |
    loopSigWrite | loopClearCounters | syncArm | syncDisarm | syncLateLimit | pwmFaultLatchClear | pwmClearCounters |
    fixturePress | fixtureDestination | fixtureKey | fixtureHeartbeat | buttonStuck | indicateRefresh | refusedLampTimeout |
    evacuationDwellExpiry | grpClearCounters | motorSourceFault | targetWrite | tractionStatusFrame | tractionDriveLost |
    tractionGlideFrame | brakeLiftTimeout | levellingTimeout | relevellingTimeout | finalLimitInput | carClearCounters |
    posClearCounters | clearFault | doorStatusFrame | doorDriveLost | obstructionResume | doorDwellExpiry | lockTimeout |
    referencingTimeout | nudgeTimeExpiry | doorLimitInput | doorClearCounters | clearEnvelope =>
    exact completes_choice
  -- the row acts on a record that there is or is not
  case authResponse | sampleReport | unsolicitedReport | hawserResponse | sleepProposeResponse | transactionTimeout |
    checkpointRetry | billingPersist | referenceMessageTimer | serialReply | serialPollTimeout | acqSample | acqAutoTimeout =>
    unfold exec
    dsimp only [execAuthResponse, execSampleReport, execUnsolicitedReport, execHawserResponse, execSleepProposeResponse,
      execTransactionTimeout, execCheckpointRetry, execBillingPersist, execReferenceMessageTimer, execSerialReply,
      execSerialPollTimeout, execAcqSample, execAcqAutoTimeout]
    split <;> exact completes_next _
  -- without the record nothing; with it, under a condition
  case pcsStatusDatagram | billingIntervalClose | fixtureLost | ssiRead | latchEdge | terminalSlowdownInput | canFrameSent =>
    unfold exec
    dsimp only [execPcsStatusDatagram, execBillingIntervalClose, execFixtureLost, execSsiRead, execLatchEdge,
      execTerminalSlowdownInput, execCanFrameSent]
    split
    · exact completes_next _
    · exact completes_choice
  case nodeLeave | checkpointDone | freezeExpiry =>
    unfold exec
    dsimp only [execNodeLeave, execCheckpointDone, execFreezeExpiry]
    split
    · exact completes_choice
    · exact completes_next _
  case joinResponse =>
    refine completes_ite ?_ (completes_next _)
    split
    · exact completes_choice
    · exact completes_next _
  case parkingDelayExpiry =>
    refine completes_ite ?_ (completes_next _)
    split <;> exact completes_next _
  case pwmFaultInput => exact completes_ite (completes_next _) completes_choice
  case syncEdge =>
    exact completes_ite (completes_next _) (completes_ite completes_choice
      (completes_ite (completes_ite (completes_next _) completes_choice) (completes_next _)))
  -- every other row answers the next state outright, but for SEAL, which its queue runs: its name is a keyword of Lean, so no
  -- `case` names it
  any_goals exact completes_next _
  apply completes_onCmd

/-! ## What a step keeps -/

/-- What a command leaves (Laws/Held.lean), whatever it is. -/
theorem exec_held {c : Instr} {s t : State} (h : exec c s = .next t) : Held s 0 t := by
  have hr : HeldR s 0 (exec c s) := held_exec held_self
  rw [h] at hr
  exact hr
/-- A step idles with an empty queue, and else runs the command at the front on the state that holds the queue's rest. -/
theorem step_cases {s t : State} (h : step s = .next t) :
    (s.pending = [] ∧ t = s) ∨ ∃ c rest, s.pending = c :: rest ∧ exec c { s with pending := rest } = .next t := by
  unfold step at h
  split at h
  · rename_i hq
    exact .inl ⟨hq, (Host.Outcome.next.inj h).symm⟩
  · rename_i c rest hq
    exact .inr ⟨c, rest, hq, h⟩
/-- The commands that still wait are those that waited behind the front. -/
theorem step_pending {s t : State} (h : step s = .next t) : t.pending = s.pending.tail := by
  rcases step_cases h with ⟨hq, rfl⟩ | ⟨c, rest, hq, he⟩
  · rw [hq]
    rfl
  · rw [(exec_held he).queue, hq]
    rfl
/-- The register file keeps its canonical form. -/
theorem step_regsOk {s t : State} (h : step s = .next t) (hs : RegsOk s.regs) : RegsOk t.regs := by
  rcases step_cases h with ⟨-, rfl⟩ | ⟨c, rest, -, he⟩
  · exact hs
  · exact (exec_held he).canon hs

/-- Settles O6: the register file by `step_regsOk`, the waiting commands, all well formed, by `step_pending`. -/
theorem everyStepKeepsTheStateSound : Obligations.EveryStepKeepsTheStateSound := by
  unfold Obligations.EveryStepKeepsTheStateSound
  rintro s t ⟨hregs, hwf⟩ h
  refine ⟨step_regsOk h hregs, fun c hc => hwf c ?_⟩
  rw [step_pending h] at hc
  exact List.mem_of_mem_tail hc

/-- Settles O8: a next state by `exec_completes`, its waiting commands by `exec_held`. -/
theorem everyCommandCompletes : Obligations.EveryCommandCompletes := by
  unfold Obligations.EveryCommandCompletes
  intro c s
  obtain ⟨t, ht⟩ := exec_completes c s
  exact ⟨t, ht, (exec_held ht).queue⟩

end Sys2Proof.Machine
end

section
/-!
PROOFS. Plain register accesses (R7, R132, R165, R166): what a session's record holds after a change of it, what a plain write
stores, and what the reads that clear or freeze leave.
-/
namespace Sys2Proof.Machine
open Sys2Proof

/-! ## A session's record -/

theorem session_of_isOpen {s : State} {n : Nat} (h : s.isOpen n = true) : ∃ x, s.session n = some x := by
  unfold State.isOpen at h
  cases hx : s.session n with
  | none => simp [hx] at h
  | some x => exact ⟨x, rfl⟩
theorem isOpen_of_debugger {s : State} {n : Nat} (h : s.debugger n = true) : s.isOpen n = true := by
  unfold State.debugger at h
  simp only [Bool.and_eq_true] at h
  exact h.1.2

@[simp] theorem modSession_regs (s : State) (n : Nat) (f : Session → Session) : (s.modSession n f).regs = s.regs := by
  unfold State.modSession
  split <;> rfl
@[simp] theorem modSession_sec (s : State) (n : Nat) (f : Session → Session) : (s.modSession n f).sec = s.sec := by
  unfold State.modSession
  split <;> rfl
theorem modSession_session (s : State) (n : Nat) (f : Session → Session) :
    (s.modSession n f).session n = (s.session n).map f := by
  unfold State.modSession
  cases h : s.session n with
  | none => exact h
  | some x => exact session_setSession s n (f x)

/-! ## Selections -/

/-- A selection is held for its writer alone: the register file stays. -/
@[simp] theorem setSel_regs (s : State) (who : Option Nat) (a : Nat) (v : Word) : (s.setSel who a v).regs = s.regs := by
  cases who with
  | none => rfl
  | some n => exact modSession_regs ..
theorem setSel_sel {s : State} {who : Option Nat} (h : ∀ n, who = some n → s.isOpen n = true) (a : Nat) (v : Word) :
    (s.setSel who a v).sel who a = (v &&& natW (descOf a).rw).toNat := by
  cases who with
  | none => simp [State.setSel, State.sel, State.modHq, tgetD]
  | some n =>
    obtain ⟨x, hx⟩ := session_of_isOpen (h n rfl)
    simp [State.setSel, State.sel, modSession_session, hx, tgetD]

/-! ## Pulse pairs judged anew -/

/-- `showPwm` shows the pairs' states; the inhibit mask it reads stays as written. -/
theorem word_inhibit_showPwm (s : State) : s.showPwm.word R.PWM_INHIBIT.addr = s.word R.PWM_INHIBIT.addr := by
  have hhq : ∀ a, hqReg a → ¬a = R.PWM_INHIBIT.addr := by
    rintro a ⟨h1, h2⟩ rfl
    exact absurd h2 (by decide)
  have hpair (i : Nat) : ¬(R.PWM_PAIR_STATUS_STATE i).addr = R.PWM_INHIBIT.addr := by
    unfold R.PWM_PAIR_STATUS_STATE Machine.inst R.PWM_INHIBIT
    dsimp only
    split <;> omega
  suffices h : WordsKept (· = R.PWM_INHIBIT.addr) s s.showPwm from h _ rfl
  unfold State.showPwm
  extract_lets now stopped s1 s2
  have h1 : WordsKept (· = R.PWM_INHIBIT.addr) s s1 := foldl_ind (fun _ _ h => kept_wr (hpair _) h) kept_self
  have h2 : WordsKept (· = R.PWM_INHIBIT.addr) s s2 :=
    kept_wrB (f := R.PWM_STATUS_LIVE) (by decide)
      (kept_wr (f := R.PWM_FAULT_PAIRS) (by decide) (kept_wr (f := R.PWM_STATUS_SWITCHING) (by decide) h1))
  exact ite_ind (fun _ => kept_flag hhq (by decide) h2) (fun _ => h2)
/-- Beside the registers of the Helm queues unit (block 4) and of PWM (block 9) it changes none. -/
theorem word_showPwm (s : State) {b : Nat} (hb : b < 0x150000) (h : inBlk [4, 9] b = false) : s.showPwm.word b = s.word b := by
  have hk : ∀ k, k < 22 → [4, 9].contains k = false → (0x21000200009 : Nat).testBit (32 + k) = false := by decide
  exact word_of_held (fun F hF => held_showPwm hF held_self) (hk _ (blockNo_lt hb) h) hb

/-! ## Plain writes -/

/-- Each bit of a stored word does what its access code says (R7). -/
theorem storeReg_getLsbD (s : State) (a : Nat) (v : Word) {i : Nat} (hi : i < 32) :
    ((s.storeReg a v).word a).getLsbD i =
      if (descOf a).w1c.testBit i && v.getLsbD i then false
      else if (descOf a).rw.testBit i || ((descOf a).rwl.testBit i && !s.sealed) then v.getLsbD i
      else (s.word a).getLsbD i := by
  have hrw : ((descOf a).rw ||| (if s.sealed then 0 else (descOf a).rwl)).testBit i =
      ((descOf a).rw.testBit i || ((descOf a).rwl.testBit i && !s.sealed)) := by
    rw [Nat.testBit_or]
    cases s.sealed <;> simp
  simp only [State.storeReg, word_setWord_self, natW, BitVec.getLsbD_and, BitVec.getLsbD_or, BitVec.getLsbD_not,
    BitVec.getLsbD_ofNat, hi, decide_true, Bool.true_and, hrw]
  generalize (descOf a).w1c.testBit i = clears, ((descOf a).rw.testBit i || ((descOf a).rwl.testBit i && !s.sealed)) = takes,
    v.getLsbD i = new, (s.word a).getLsbD i = old
  revert clears takes new old
  decide

/-- What a plain write to a register that is no selection stores: `SAF_CONFIRM_VALUE` takes the whole word. -/
def State.plainStore (s : State) (a : Nat) (v : Word) : State :=
  if a = R.SAF_CONFIRM_VALUE.addr then s.setWord a v else s.storeReg a v
theorem word_plainStore_ne (s : State) {a b : Nat} (v : Word) (h : b ≠ a) : (s.plainStore a v).word b = s.word b := by
  unfold State.plainStore
  split <;> exact word_setWord_ne _ _ _ _ h
theorem plainStore_getLsbD (s : State) (a : Nat) (v : Word) {i : Nat} (hi : i < 32) :
    ((s.plainStore a v).word a).getLsbD i =
      if a = R.SAF_CONFIRM_VALUE.addr then v.getLsbD i
      else if (descOf a).w1c.testBit i && v.getLsbD i then false
      else if (descOf a).rw.testBit i || ((descOf a).rwl.testBit i && !s.sealed) then v.getLsbD i
      else (s.word a).getLsbD i := by
  unfold State.plainStore
  split
  · rw [word_setWord_self]
  · exact storeReg_getLsbD s a v hi

/-- After the store only a write of `PWM_INHIBIT` works on further registers, those of the blocks 4 and 9; the written
register itself keeps what was stored. -/
theorem word_plainWrite (s : State) (who : Option Nat) {a b : Nat} (v : Word) (ha : isSelect a = false)
    (hb : b = a ∨ (b < 0x150000 ∧ (a == R.PWM_INHIBIT.addr && inBlk [4, 9] b) = false)) :
    (s.plainWrite who a v).word b = (s.plainStore a v).word b := by
  unfold State.plainWrite
  rw [ha]
  change (if a = R.PWM_INHIBIT.addr then (s.plainStore a v).showPwm
    else if 0x70000 ≤ a ∧ a < 0x80000 then (s.plainStore a v).modDisp fun d => { d with unsent := true }
    else s.plainStore a v).word b = _
  split
  · rename_i h
    rcases hb with rfl | ⟨hb, hk⟩
    · rw [h, word_inhibit_showPwm]
    · exact word_showPwm _ hb (by simpa [h] using hk)
  · split <;> rfl
/-- A write to a selection is held for the writer; one in the plant's block also marks it unsent. -/
theorem plainWrite_select (s : State) (who : Option Nat) {a : Nat} (v : Word) (ha : isSelect a = true) :
    (s.plainWrite who a v).regs = (s.setSel who a v).regs ∧ (s.plainWrite who a v).hq = (s.setSel who a v).hq := by
  have hp : a ≠ R.PWM_INHIBIT.addr := by
    rintro rfl
    exact absurd ha (by decide)
  unfold State.plainWrite
  rw [ha, if_pos rfl, if_neg hp]
  split <;> exact ⟨rfl, rfl⟩

theorem sel_congr {s t : State} (h : t.hq = s.hq) (who : Option Nat) (a : Nat) : t.sel who a = s.sel who a := by
  unfold State.sel State.session
  rw [h]

/-- The writer of a plain write: the firmware from number 8 on, else the session. -/
def writerOf (who : Nat) : Option Nat := if 8 ≤ who then none else some who
/-- The firmware's writes, and those of an open session with the operator role, are taken. -/
theorem exec_registerWrite {s : State} {who : Nat} (h : 8 ≤ who ∨ (s.isOpen who = true ∧ s.holds who 2 = true)) (a : Nat)
    (v : Word) :
    exec (.registerWrite who a v) s = .next (s.plainWrite (writerOf who) a v) := by
  show execRegisterWrite who a v s = _
  unfold execRegisterWrite writerOf
  by_cases h8 : 8 ≤ who
  · rw [if_pos h8, if_pos h8]
  · obtain ⟨ho, hr⟩ := h.resolve_left h8
    rw [if_neg h8, if_neg h8, ho, hr]
    rfl

/-- Settles O15: a bit of the written register by `plainStore_getLsbD`, the other registers by `word_plainWrite`. -/
theorem plainWritesFollowTheAccessCodes : Obligations.PlainWritesFollowTheAccessCodes := by
  unfold Obligations.PlainWritesFollowTheAccessCodes
  intro who a v s h
  have hrun := exec_registerWrite h a v
  refine ⟨fun ha => ⟨_, hrun, fun i hi => ?_, fun b hb hA => ?_⟩, fun ha => ⟨_, hrun, ?_, ?_⟩⟩
  · rw [word_plainWrite s _ v ha (.inl rfl)]
    exact plainStore_getLsbD s a v hi
  · obtain ⟨hne, hk⟩ := Bool.or_eq_false_iff.1 hA
    rw [word_plainWrite s _ v ha (.inr ⟨hb, hk⟩)]
    exact word_plainStore_ne s v (by simpa using hne)
  · rw [(plainWrite_select s _ v ha).1, setSel_regs]
  · rw [sel_congr (plainWrite_select s _ v ha).2]
    refine setSel_sel (fun n hn => ?_) a v
    unfold writerOf at hn
    split at hn
    · exact absurd hn (by simp)
    · obtain rfl := Option.some.inj hn
      exact (h.resolve_left ‹_›).1

/-! ## Reads that clear and reads that freeze -/

/-- A read clears the RC bits of the register read, and touches no other register. -/
theorem readClears_getLsbD (s : State) (a : Nat) {i : Nat} (hi : i < 32) :
    ((s.readClears a).word a).getLsbD i = ((s.word a).getLsbD i && !(descOf a).rc.testBit i) := by
  unfold State.readClears
  dsimp only
  split
  · rename_i h
    simp [h]
  · simp only [word_setWord_self, natW, BitVec.getLsbD_and, BitVec.getLsbD_not, BitVec.getLsbD_ofNat, hi, decide_true,
      Bool.true_and]
theorem word_readClears_ne (s : State) {a b : Nat} (h : b ≠ a) : (s.readClears a).word b = s.word b := by
  unfold State.readClears
  exact ite_ind (Q := fun t : State => t.word b = s.word b) (fun _ => rfl) (fun _ => word_setWord_ne _ _ _ _ h)

theorem shadowLow_shadow {s : State} {n : Nat} (h : s.isOpen n = true) (a : Nat) :
    ((s.shadowLow n a).session n).map (fun x => tget x.shadow a) = some (some (s.viewReg (some n) (a + 4))) := by
  obtain ⟨x, hx⟩ := session_of_isOpen h
  simp [State.shadowLow, modSession_session, hx]
theorem shadowOp_opShadow {s : State} {n : Nat} (h : s.isOpen n = true) :
    ((s.shadowOp n).session n).map (·.opShadow) = some (some (natW s.opSec)) := by
  obtain ⟨x, hx⟩ := session_of_isOpen h
  simp [State.shadowOp, modSession_session, hx]

/-! ## The high word of a writable pair -/

theorem isLow_of_writableLow {a : Nat} (h : writableLow a = true) : isLow a = true := by
  unfold writableLow at h
  unfold isLow
  rw [List.any_eq_true]
  rcases Bool.or_eq_true_iff.1 h with h | h
  · obtain rfl : a = 0x140010 := by simpa using h
    exact ⟨(0x140010, 4, 1), by decide, by decide⟩
  · exact ⟨(0x140080, 8, 4), by decide, h⟩
@[simp] theorem dropShadow_regs (s : State) (n a : Nat) : (s.dropShadow n a).regs = s.regs := modSession_regs ..
/-- Dropping a shadow takes neither the session nor its debug session away. -/
theorem dropShadow_debugger (s : State) (n a : Nat) : (s.dropShadow n a).debugger n = s.debugger n := by
  have hon : (s.dropShadow n a).on R.SEC_DEBUG_STATUS_STATE = s.on R.SEC_DEBUG_STATUS_STATE := by
    unfold State.on
    rw [rd_congr (word_congr (dropShadow_regs s n a) _)]
  have hsec : (s.dropShadow n a).sec = s.sec := modSession_sec ..
  unfold State.debugger
  rw [hon, hsec]
  unfold State.isOpen State.uidOf State.dropShadow
  rw [modSession_session]
  cases s.session n <;> rfl
theorem dropShadow_debugMay (s : State) (n a p : Nat) : (s.dropShadow n a).debugMay p = s.debugMay p := by
  unfold State.debugMay
  rw [rd_congr (word_congr (dropShadow_regs s n a) _)]
theorem holdHigh_heldHigh {s : State} {n : Nat} {x : Session} (h : s.session n = some x) (a : Nat) (v : Word) :
    ((s.holdHigh n (a + 4) v).session n).map (fun x => tget x.heldHigh a) = some (some v) := by
  simp [State.holdHigh, modSession_session, h]
/-- In a debug session with the permission that the pair needs, the high word's write is held and no register changes. -/
theorem exec_counterHighWordWrite {s : State} {n a : Nat} (v : Word) (hd : s.debugger n = true) (hr : s.holds n 2 = true)
    (ha : writableLow a = true) (hp : a < 0x14001C ∨ s.debugMay 3 = true) :
    exec (.counterHighWordWrite n (a + 4) v) s = .next ((s.dropShadow n (a + 4)).holdHigh n (a + 4) v) := by
  have hhigh : isHigh (a + 4) = true := by
    unfold isHigh
    simp [isLow_of_writableLow ha]
  have hmay : (decide (a + 4 < 0x140020) || s.debugMay 3) = true := by
    rcases hp with hp | hp
    · simp; omega
    · simp [hp]
  show execCounterHighWordWrite n (a + 4) v s = _
  unfold execCounterHighWordWrite State.debugWrite
  rw [dropShadow_debugger, dropShadow_debugMay]
  simp only [isOpen_of_debugger hd, hr, hhigh, Nat.add_sub_cancel, ha, hd, hmay, Bool.and_self, if_true]

/-- Settles O16: the clearing read by `readClears_getLsbD`, the freezing ones by what the session's record then holds, the held
high word by `exec_counterHighWordWrite`. -/
theorem readsClearAndFreeze : Obligations.ReadsClearAndFreeze := by
  unfold Obligations.ReadsClearAndFreeze
  refine ⟨fun who a s h => ?_, fun n a s ho ha => ?_, fun n a v s hd hr ha hp => ?_, fun n s ho => ?_⟩
  · have hrun : exec (.rcRegisterRead who a) s = .next (s.readClears a) := by
      show execRcRegisterRead who a s = _
      unfold execRcRegisterRead
      rw [if_pos (by simpa using h)]
    exact ⟨_, hrun, fun i hi => readClears_getLsbD s a hi, fun b _ hb => word_readClears_ne s (by simpa using hb)⟩
  · have hrun : exec (.counterLowWordRead n a) s = .next (s.shadowLow n a) := by
      show execCounterLowWordRead n a s = _
      unfold execCounterLowWordRead
      rw [ho, ha]
      rfl
    exact ⟨_, hrun, shadowLow_shadow ho a, modSession_regs ..⟩
  · obtain ⟨x, hx⟩ := session_of_isOpen (isOpen_of_debugger hd)
    have hx' : ∃ y, (s.dropShadow n (a + 4)).session n = some y := by simp [State.dropShadow, modSession_session, hx]
    obtain ⟨y, hy⟩ := hx'
    exact ⟨_, exec_counterHighWordWrite v hd hr ha hp, holdHigh_heldHigh hy a v, by simp [State.holdHigh, State.dropShadow]⟩
  · have hrun : exec (.opMsRead n) s = .next (s.shadowOp n) := by
      show execOpMsRead n s = _
      unfold execOpMsRead
      rw [if_pos ho]
    exact ⟨_, hrun, shadowOp_opShadow ho, modSession_regs ..⟩

end Sys2Proof.Machine
end

section
/-!
PROOFS. What has been sent stays sent, and what a walk through a list sends (R36, R194, R621).
-/
namespace Sys2Proof.Machine
open Sys2Proof

/-- A step only adds to what has been sent. -/
theorem step_out {s t : State} (h : step s = .next t) : s.out <:+ t.out := by
  rcases step_cases h with ⟨-, rfl⟩ | ⟨c, rest, -, he⟩
  · exact List.suffix_refl _
  · exact (exec_held he).sent
/-- The counter of the free values does not go back. -/
theorem step_free {s t : State} (h : step s = .next t) : s.free ≤ t.free := by
  rcases step_cases h with ⟨-, rfl⟩ | ⟨c, rest, -, he⟩
  · exact Nat.le_refl _
  · exact (exec_held he).mono

/-- Settles O7: what was sent by `step_out`, the free values by `step_free`. -/
theorem whatIsSentStays : Obligations.WhatIsSentStays := by
  unfold Obligations.WhatIsSentStays
  exact fun s t h => ⟨step_out h, step_free h⟩

/-- What the work on one entry of a list sends has been sent once the whole list is worked through. -/
theorem foldl_sends {α : Type} {f : State → α → State} {F : Nat} {p : Out → Bool} {l : List α} {x : α} {s : State} (hx : x ∈ l)
    (hf : ∀ b t y, Held b F t → Held b F (f t y)) (hp : ∀ t, Held s F t → (f t x).sends t p) : (l.foldl f s).sends s p := by
  obtain ⟨before, rest, rfl⟩ := List.append_of_mem hx
  rw [List.foldl_append, List.foldl_cons]
  have hbefore : Held s F (before.foldl f s) := foldl_ind (fun t y => hf s t y) held_self
  exact sends_within (hp _ hbefore) hbefore (foldl_ind (fun t y => hf _ t y) held_self)

end Sys2Proof.Machine
end

section
/-!
PROOFS. What a post changes (R182 to R186), as one rule for every property that its single changes keep.
-/
namespace Sys2Proof.Machine
open Sys2Proof

/-- Every single change that a post makes keeps the property. -/
structure KeptByPost (Q : State → Prop) : Prop where
  srcSeq : ∀ {s : State} (m : Tbl Nat), Q s → Q { s with hq := { s.hq with srcSeq := m } }
  queue : ∀ {s : State} (q : Nat) (e : EvQueue), Q s → Q (s.setEventQ q e)
  heard : ∀ {s : State} (q : Nat) (e : EvEntry), Q s →
    Q { s with hq := { s.hq with sessions := s.hq.sessions.map fun p => (p.1, p.2.hear q e) } }
  acq : ∀ {s : State} (a : Acq), Q s → Q { s with acq := a }
  nextSeq : ∀ {s : State} (q : Nat), Q s → Q (s.inc (R.HQ_EQ_NEXT_SEQ q))
  lost : ∀ {s : State} (q : Nat), Q s → Q (s.inc (R.HQ_EQ_LOST q))
  eventsLost : ∀ {s : State}, Q s → Q (s.wrB R.HQ_EVENT_STATUS_EVENTS_LOST true)
  eqHigh : ∀ {s : State}, Q s → Q (s.wrB R.HQ_EVENT_STATUS_EQ_HIGH true)

theorem postN_keeps {Q : State → Prop} (hQ : KeptByPost Q) {n q code inst : Nat} {data : List Byte} {s : State} (h : Q s) :
    Q (State.postN n s q code inst data) := by
  induction n using Nat.strongRecOn generalizing s q code inst data with
  | ind n ih =>
    unfold State.postN
    extract_lets src k hq s1 eq note
    have h1 : Q s1 := hQ.srcSeq _ h
    have hnote : ∀ {t f b}, (Q t → Q (t.wrB f true)) → Q t → Q (note t f b) := by
      intro t f b hf ht
      refine ite_ind (fun _ => ht) (fun _ => ?_)
      split
      · exact hf ht
      · exact ite_ind (fun _ => ih _ (Nat.lt_succ_self _) (hf ht)) (fun _ => hf ht)
    clear_value note
    refine ite_ind (fun _ => ?_) (fun _ => ?_)
    · exact hnote hQ.eventsLost (hQ.lost q (hQ.queue q _ h1))
    · have h2 : ∀ e : EvEntry, ∀ x : EvQueue, _ := fun e x => hQ.heard q e (hQ.nextSeq q (hQ.queue q x h1))
      exact ite_ind (fun _ => hnote hQ.eqHigh (h2 _ _)) (fun _ => h2 _ _)
theorem post_keeps {Q : State → Prop} (hQ : KeptByPost Q) {q code inst : Nat} {data : List Byte} {s : State} (h : Q s) :
    Q (s.post q code inst data) := by
  unfold State.post State.acqHear
  exact ite_ind (fun _ => hQ.acq _ (postN_keeps hQ h)) (fun _ => postN_keeps hQ h)
/-- An occurrence: a bit that stood already is left, another is set and may be posted. -/
theorem flag_keeps {Q : State → Prop} (hQ : KeptByPost Q) {f : Fld} {s : State} (hset : s.on f = true → Q s)
    (hnew : Q (s.wrB f true)) : Q (s.flag f) := by
  unfold State.flag
  exact ite_ind (fun h => hset h) (fun _ => ite_ind (fun _ => post_keeps hQ hnew) (fun _ => hnew))

theorem tget_map {α β : Type} (l : Tbl α) (f : α → β) (n : Nat) : tget (l.map fun p => (p.1, f p.2)) n = (tget l n).map f := by
  induction l with
  | nil => rfl
  | cons p l ih =>
    simp only [List.map_cons, tget, ih]
    split <;> rfl
/-- A post opens no session. -/
theorem keptByPost_noSession (n : Nat) : KeptByPost fun s => s.session n = none where
  srcSeq _ h := h
  queue _ _ h := h
  heard _ _ h := by
    show tget _ n = none
    rw [tget_map, show tget _ n = none from h]
    rfl
  acq _ h := h
  nextSeq _ h := h
  lost _ h := h
  eventsLost h := h
  eqHigh h := h
theorem apart_of_addr {f g : Fld} (h : f.addr ≠ g.addr) : f.apart g = true := by simp [Fld.apart, h]
/-- A post leaves SESSION_CLOSED set: of its register it sets other bits. -/
theorem keptByPost_sessionClosed : KeptByPost fun s => s.on R.HQ_EVENT_STATUS_SESSION_CLOSED = true where
  srcSeq _ h := h
  queue _ _ h := h
  heard _ _ h := h
  acq _ h := h
  nextSeq q h := by
    refine (on_wr_apart _ _ _ _ rfl (apart_of_addr ?_)).trans h
    unfold R.HQ_EQ_NEXT_SEQ Machine.inst R.HQ_EVENT_STATUS_SESSION_CLOSED
    dsimp only
    split <;> omega
  lost q h := by
    refine (on_wr_apart _ _ _ _ rfl (apart_of_addr ?_)).trans h
    unfold R.HQ_EQ_LOST Machine.inst R.HQ_EVENT_STATUS_SESSION_CLOSED
    dsimp only
    split <;> omega
  eventsLost h := (on_wrB_apart _ _ _ _ rfl rfl).trans h
  eqHigh h := (on_wrB_apart _ _ _ _ rfl rfl).trans h

end Sys2Proof.Machine
end

section
/-!
PROOFS. The end of a start, HOLD and the watchdog (R41, R93, R95, R143).
-/
namespace Sys2Proof.Machine
open Sys2Proof

/-! ## Success -/

/-- After the success is told, slots, floor and the event follow; they leave the registers of SYS but the event's. -/
theorem word_slotsHeld_raiseFloor_flag {s : State} {a : Nat} (ha : a < 0x74) :
    ((s.slotsHeld.raiseFloor).flag R.SYS_EVENT_STATUS_START_SUCCEEDED).word a = s.word a := by
  have hblk : blockNo a = 0 := blockNo_range (Nat.zero_le _) (Nat.lt_trans ha (by decide))
  rw [word_flag (fun h => absurd h.1 (by omega)) (fun h => absurd h (Nat.ne_of_lt ha))]
  have hfloor : ∀ F, Dj F 0xC00000001 → Held s F s.slotsHeld.raiseFloor := fun F hF =>
    held_raiseFloor (dj hF) (held_slotsHeld (dj hF) held_self)
  exact word_of_held hfloor (by rw [hblk]; rfl) (by omega)
theorem rd_succeed {s : State} {f : Fld} (hf : f.addr < 0x74) :
    s.succeed.rd f = (((s.wr R.SYS_FAILED_STARTS 0).wrB R.SYS_START_STATUS_SUCCEEDED true).wr R.SYS_LAST_SUCCESS_OPSEC s.opSec).rd f :=
  rd_congr (word_slotsHeld_raiseFloor_flag hf)
theorem succeed_settled (s : State) : s.succeed.boll.settled = true := by
  have hkept : ∀ t : State, Held t 4 ((t.slotsHeld.raiseFloor).flag R.SYS_EVENT_STATUS_START_SUCCEEDED) := fun t =>
    held_flag (by decide) (held_raiseFloor (by decide) (held_slotsHeld (by decide) held_self)) (off_at 0 (by decide) rfl)
  unfold State.succeed
  rw [(hkept _).boll (by decide)]
  rfl
/-- What a successful start shows (R95). -/
theorem succeed_shows (s : State) : s.succeed.on R.SYS_START_STATUS_SUCCEEDED = true ∧ s.succeed.rd R.SYS_FAILED_STARTS = 0 ∧
    s.succeed.rd R.SYS_LAST_SUCCESS_OPSEC = s.opSec := by
  refine ⟨?_, ?_, ?_⟩
  · unfold State.on
    rw [rd_succeed (by decide), rd_wr_apart _ _ _ _ rfl rfl]
    exact on_wrB _ _ _ rfl rfl
  · rw [rd_succeed (by decide), rd_wr_apart _ _ _ _ rfl rfl]
    exact (rd_wr_apart _ _ _ _ rfl rfl).trans (rd_wr _ _ _ rfl (by decide))
  · rw [rd_succeed (by decide)]
    exact rd_wr _ _ _ rfl (rd_lt _ _)

/-! ## HOLD -/

/-- The payload of a frame of the Turid begins behind its 24 bytes of header (R206). -/
theorem hawser_payload (plant dst tag typ flags seq k v : Nat) (rest : List Byte) :
    ((hawser plant dst tag typ flags seq (le k v ++ rest)).drop 24).take k = le k v := by
  unfold hawser
  dsimp only
  rw [List.append_assoc _ (le k v ++ rest), List.drop_left' (by simp), List.append_assoc]
  exact List.take_left' (le_length k v)
/-- HOLD goes out from both ends of a crossing that is awake (R35, R201). -/
theorem holdRing_sends {s : State} {n : Nat} (reason : Nat) (h : s.sleepState n < 3) :
    (s.holdRing n reason).sends s (Out.holdOn n reason) := by
  unfold State.holdRing State.broadcast
  rw [if_neg (by omega)]
  refine ⟨[_, _], rfl, ?_⟩
  simp [Out.holdOn, hawser_payload]
/-- It goes out on every crossing that is awake. -/
theorem holdRings_sends {s : State} {n : Nat} (reason : Nat) (hn : n < 16) (h : s.sleepState n < 3) :
    (s.holdRings reason).sends s (Out.holdOn n reason) := by
  refine foldl_sends (F := 1) (List.mem_range.2 hn) (fun _ _ _ => held_holdRing (by decide)) (fun t ht => holdRing_sends reason ?_)
  unfold State.sleepState at h ⊢
  rwa [rd_congr (word_congr (ht.regs (by decide)) _)]
theorem holdRings_regs (s : State) (reason : Nat) : (s.holdRings reason).regs = s.regs :=
  (held_holdRings (F := 1) (by decide) held_self).regs (by decide)

/-- Settles O19: success by `succeed_shows`, HOLD by `holdRings_sends`, the watchdog by the register that the service writes. -/
theorem aStartSucceedsAndHolds : Obligations.AStartSucceedsAndHolds := by
  unfold Obligations.AStartSucceedsAndHolds
  refine ⟨fun s hp hst hs => ?_, fun n s hp hst hm hn hsl => ?_, fun s hr => ?_⟩
  · have hrun : exec .startHoldElapsed s = .next s.succeed := by
      show execStartHoldElapsed s = _
      unfold execStartHoldElapsed
      rw [hp, hst, hs]
      rfl
    obtain ⟨hon, hfailed, hsec⟩ := succeed_shows s
    exact ⟨_, hrun, hon, hfailed, hsec, succeed_settled s⟩
  · have hrun : exec .holdRepeatTimer s = .next (s.holdRings 7) := by
      show execHoldRepeatTimer s = _
      unfold execHoldRepeatTimer State.awaiting
      rw [hp, hm, hst]
      rfl
    exact ⟨_, hrun, holdRings_sends 7 hn hsl, fun a _ _ => word_congr (holdRings_regs s 7) a⟩
  · have hrun : exec .watchdogService s = .next (s.wr R.PWR_WATCHDOG_STATUS_REMAINING_MS 100) := by
      show execWatchdogService s = _
      unfold execWatchdogService
      rw [if_pos hr]
    exact ⟨_, hrun, rd_wr _ _ _ rfl (by decide), (on_wr_apart _ _ _ _ rfl rfl).trans hr⟩

end Sys2Proof.Machine
end

section
/-!
PROOFS. Helm connections, sessions and roles (R152 to R161, R173, R193, R673), and what partners are sent (R32).
-/
namespace Sys2Proof.Machine
open Sys2Proof

/-! ## What is sent in a session -/

theorem sending_roles (x : Session) (o : Out) : (x.sending o).roles = x.roles := by
  unfold Session.sending
  exact ite_ind (Q := fun y : Session => y.roles = x.roles) (fun _ => rfl) (fun _ => rfl)
theorem sendTo_session (s : State) (n : Nat) (o : Out) : (s.sendTo n o).session n = (s.session n).map (·.sending o) := by
  show tget (tmod s.hq.sessions n fun x => x.sending o) n = (tget s.hq.sessions n).map (·.sending o)
  unfold tmod
  cases h : tget s.hq.sessions n with
  | none => exact h
  | some x => exact tget_tput_self _ _ _
/-- A response leaves the roles that its session acts in. -/
theorem reply_roles (s : State) (n tag typ status : Nat) (body : List Nat) :
    ((s.reply n tag typ status body).session n).map (·.roles) = (s.session n).map (·.roles) := by
  unfold State.reply
  cases h : s.session n with
  | none => simp [h]
  | some x => simp [sendTo_session, session_setSession, sending_roles]
theorem reply_regs (s : State) (n tag typ status : Nat) (body : List Nat) : (s.reply n tag typ status body).regs = s.regs :=
  (held_reply (F := 1) (by decide) held_self).regs (by decide)

/-! ## Handshakes -/

theorem isOpen_of_session {s : State} {n : Nat} {x : Session} (h : s.session n = some x) (hx : x.handshaking = false) :
    s.isOpen n = true := by
  simp [State.isOpen, h, hx]
/-- The session as the handshake leaves it (R155): observer, with the certificate's roles to choose from. -/
def Session.opened (x : Session) (roles serial : Nat) : Session :=
  { x with handshaking := false, roles := 1, certRoles := roles % 32 ||| 1, serial := serial, chain := [] }
/-- An offer within the profile, with a certificate that passes every check, opens the session (R153, R673). -/
theorem exec_tlsHandshakeComplete {s : State} {n roles serial notBefore notAfter group scheme : Nat} {x : Session}
    (hx : s.session n = some x) (hs : x.handshaking = true) (hrng : s.on (R.SEC_RNG_STATUS.bit 0) = true) (hca : s.noCa = false)
    (hvalid : s.certValid notBefore notAfter = true) (hrev : s.nv.revoked.contains serial = false) (hser : serial < 2 ^ 64)
    (hgroup : group < 2) (hscheme : scheme < 2) :
    exec (.tlsHandshakeComplete n roles serial [] true true false notBefore notAfter ⟨0, 0, group, scheme, false, false⟩) s =
      .next (s.setSession n (x.opened roles serial)) := by
  have hoffer : tlsProfile ⟨0, 0, group, scheme, false, false⟩ = true := by simp [tlsProfile, hgroup, hscheme]
  have hrev' : ([serial].any s.nv.revoked.contains) = false := by simp only [List.any_cons, List.any_nil, hrev, Bool.or_false]
  show execTlsHandshakeComplete n roles serial [] true true false notBefore notAfter ⟨0, 0, group, scheme, false, false⟩ s = _
  unfold execTlsHandshakeComplete State.tlsDone
  simp only [hx, hs, hoffer, hrng, hca, hrev', hvalid, hser]
  rfl
/-- A handshake that fails is counted and leaves no session. -/
theorem tlsFail_session (s : State) (n : Nat) : (s.tlsFail n).session n = none := tget_tdel_self _ _
theorem tlsFail_failures (s : State) (n : Nat) :
    (s.tlsFail n).rd R.NET_TLS_FAILURES = (s.rd R.NET_TLS_FAILURES + 1) % 2 ^ 32 := rd_wr_self _ _ _ rfl

/-! ## A session closes -/

/-- What a session that closes gives up before it leaves (R154): staging, event queues, staged restore, export, debug session. -/
def State.givenUp (s : State) (n : Nat) (x : Session) : State :=
  let s := if s.man.stage.any fun g => g.sess == n && g.uid == x.uid then s.abortStage else s
  let s := (List.range 4).foldl (fun s q => if (s.eventQ q).owner = some n then s.releaseQueue q else s) s
  let s := if s.est.restore.any fun r => r.sess == n && r.uid == x.uid then s.abortRestore else s
  let s := if s.recu.exp.any fun e => e.sess == n && e.uid == x.uid then s.exportEnd else s
  if s.sec.debugUid = some x.uid then s.debugClose else s
theorem closeSession_eq {s : State} {n : Nat} {x : Session} (h : s.session n = some x) :
    s.closeSession n = (((s.givenUp n x).modHq fun h => { h with sessions := tdel h.sessions n }).send (.closed n)).showHung := by
  unfold State.closeSession
  rw [h]
  rfl
theorem held_givenUp (s : State) (n : Nat) (x : Session) : Held s 0 (s.givenUp n x) := by
  unfold State.givenUp
  extract_lets s1 s2 s3 s4
  have h1 : Held s 0 s1 := ite_ind (fun _ => held_abortStage rfl held_self) (fun _ => held_self)
  have h2 : Held s 0 s2 := foldl_ind (fun _ _ h => ite_ind (fun _ => held_releaseQueue rfl h) (fun _ => h)) h1
  have h3 : Held s 0 s3 := ite_ind (fun _ => held_abortRestore rfl h2) (fun _ => h2)
  have h4 : Held s 0 s4 := ite_ind (fun _ => held_exportEnd rfl h3) (fun _ => h3)
  exact ite_ind (fun _ => held_debugClose rfl h4) (fun _ => h4)
theorem closeSession_session (s : State) (n : Nat) : (s.closeSession n).session n = none := by
  cases h : s.session n with
  | none =>
    unfold State.closeSession
    rw [h]
    exact h
  | some x =>
    rw [closeSession_eq h]
    show tget (State.showHung _).hq.sessions n = none
    rw [(held_showHung (F := 8) (by decide) held_self).hq (by decide)]
    exact tget_tdel_self _ _
/-- The close of a session is told to its client. -/
theorem closeSession_sends {s : State} {n : Nat} (h : (s.session n).isSome = true) :
    (s.closeSession n).sends s fun o => o == .closed n := by
  obtain ⟨x, hx⟩ := Option.isSome_iff_exists.1 h
  rw [closeSession_eq hx]
  exact sends_within (sends_send (by simp)) (held_modHq rfl (held_givenUp s n x)) (held_showHung (F := 0) rfl held_self)
/-- A session closed by the Turid or by command (R193) is gone, which is told and flagged. -/
theorem closeNamed_closes {s : State} {n : Nat} (h : s.isOpen n = true) :
    (s.closeNamed n).session n = none ∧ ((s.closeNamed n).sends s fun o => o == .closed n) ∧
      (s.closeNamed n).on R.HQ_EVENT_STATUS_SESSION_CLOSED = true := by
  obtain ⟨x, hx⟩ := session_of_isOpen h
  have hgone : ∀ f b, ((s.closeSession n).wrB f b).session n = none := fun _ _ => closeSession_session s n
  have hsent := closeSession_sends (s := s) (n := n) (by simp [hx])
  have hflag : Held (s.closeSession n) 0 ((s.closeSession n).flag R.HQ_EVENT_STATUS_SESSION_CLOSED) :=
    held_flag rfl held_self (off_at 4 rfl rfl)
  unfold State.closeNamed
  rw [if_pos h]
  exact ⟨flag_keeps (keptByPost_noSession n) (fun _ => closeSession_session s n) (hgone _ _),
    sends_within hsent (held_self (F := 0)) hflag,
    flag_keeps keptByPost_sessionClosed id (on_wrB _ _ _ rfl rfl)⟩
theorem eventQ_setEventQ (s : State) (q : Nat) (e : EvQueue) : (s.setEventQ q e).eventQ q = e := by
  simp [State.setEventQ, State.eventQ, tgetD]

/-! ## Messages -/

theorem reply_answers {s u : State} {n tag typ status : Nat} {body : List Nat} {x : Session} (hu : Held s 0 u)
    (hx : u.session n = some x) : (u.reply n tag typ status body).answers s n tag typ status body :=
  sends_within (reply_sent hx) hu (held_self (F := 0))
/-- The roles that a mask is granted under a certificate (R156): observer is kept. -/
def granted (mask certRoles : Nat) : Nat := (mask % 256 &&& effRoles certRoles) ||| 1
/-- The session that has asked for roles, as it stands when the response goes out. -/
def Session.asked (x : Session) (tag mask : Nat) : Session :=
  { x with tags := tag :: x.tags, roles := granted mask x.certRoles }
/-- SESSION_ROLE answers the roles granted, which its session by then acts in. -/
theorem roleMsg_replies {s : State} {n tag mask : Nat} {x : Session} (h : s.takes n tag 0x50 0 = true) (hx : s.session n = some x) :
    ∃ u, Held s 0 u ∧ u.session n = some (x.asked tag mask) ∧
      s.roleMsg n tag mask = u.reply n tag 0x50 OK [granted mask x.certRoles] := by
  obtain ⟨y, hy, -, hrun⟩ := helm_takes h (.sessionRole n tag mask) fun s =>
    let s := s.modSession n fun x => { x with roles := granted mask x.certRoles }
    s.reply n tag 0x50 OK [(s.session n).elim 1 (·.roles)]
  obtain rfl : y = x := Option.some.inj (hy.symm.trans hx)
  have hu : ((s.setSession n { y with tags := tag :: y.tags }).modSession n fun x =>
      { x with roles := granted mask x.certRoles }).session n = some (y.asked tag mask) := by
    rw [modSession_session, session_setSession]
    rfl
  refine ⟨_, held_modSession rfl (held_setSession rfl held_self), hu, hrun.trans ?_⟩
  dsimp only
  rw [hu]
  rfl
/-- A message that its type refuses is answered with the status, and no register changes (R161). -/
theorem badMsg_answers {s : State} {n status : Nat} {b : List Byte} (h : s.takes n (u32 b 4) (u16 b 0) 0 = true) :
    (s.badMsg n b status).answers s n (u32 b 4) (u16 b 0) status [] ∧ (s.badMsg n b status).regs = s.regs := by
  obtain ⟨x, -, -, hrun⟩ := helm_takes h (.badTypeMessage n (b.take 12) (b.drop 12)) fun s =>
    s.reply n (u32 b 4) (u16 b 0) status []
  have hmsg : s.badMsg n b status = _ := hrun
  rw [hmsg]
  exact ⟨reply_answers (held_setSession rfl held_self) (session_setSession ..), reply_regs ..⟩
theorem spell_of_misspelt {n status : Nat} {b : List Byte} (h : misspelt n b = some status) : spell n b = .error status := by
  unfold misspelt at h
  cases hb : spell n b with
  | error e => rw [hb] at h; rw [Option.some.inj h]
  | ok j => rw [hb] at h; cases h
theorem spell_of_toOption {n : Nat} {b : List Byte} {j : Instr} (h : (spell n b).toOption = some j) : spell n b = .ok j := by
  cases hb : spell n b with
  | error e => rw [hb] at h; cases h
  | ok i => rw [hb] at h; rw [← Option.some.inj h]
/-- A message with its whole header and payload is refused by its type (R161). -/
theorem helmBytes_misspelt {s : State} {n status : Nat} {b : List Byte} (hmax : u32 b 8 ≤ 1048600)
    (hlen : b.length = 12 + u32 b 8) (h : misspelt n b = some status) : s.helmBytes n b = s.badMsg n b status := by
  unfold State.helmBytes
  rw [if_neg (by omega), if_neg (by omega), if_neg (by omega), spell_of_misspelt h]
/-- Or it is its row's (R157). -/
theorem helmBytes_spelt {s : State} {n : Nat} {b : List Byte} {j : Instr} (hmax : u32 b 8 ≤ 1048600)
    (hlen : b.length = 12 + u32 b 8) (h : (spell n b).toOption = some j) : s.helmBytes n b = (s.spelt j).releaseWaits := by
  unfold State.helmBytes
  rw [if_neg (by omega), if_neg (by omega), if_neg (by omega), spell_of_toOption h]
theorem helmBytes_oversize {s : State} {n : Nat} {b : List Byte} (h12 : 12 ≤ b.length) (hmax : 1048600 < u32 b 8) :
    s.helmBytes n b = s.closeSession n := by
  unfold State.helmBytes
  rw [if_neg (by omega), if_pos hmax]

/-! ## Partners -/

theorem cfg_congr {s t : State} (h : t.man = s.man) (sec kind id : Nat) : t.cfg sec kind id = s.cfg sec kind id := by
  unfold State.cfg
  rw [h]
/-- A datagram to a unit goes out through the port of the first cage where its endpoint names that cage (R342). -/
theorem sendPcs_sends {s : State} {p : Nat} (typ app : Nat) (payload : List Byte)
    (h : bit ((s.cfg 10 5 p).elim 0 (·.u8 0x16)) 0 = true) : (s.sendPcs p typ app payload).sends s (Out.frameTo (.eth 2) typ p) := by
  unfold State.sendPcs
  extract_lets x q d cages s1 s2
  have h1 : Held s 0 s1 := held_setPcs rfl held_self
  have h2 : s2.sends s (Out.frameTo (.eth 2) typ p) := by
    have e2 : s2 = (s1.inc R.NET_PCS_TX).sendEth 2 typ p d := if_pos h
    rw [e2]
    exact sends_within (sends_send (by simp [Out.frameTo])) (held_inc (F := 0) rfl (held_inc rfl h1 (off_any rfl)) (off_any rfl))
      (held_self (F := 0))
  refine ite_ind (Q := fun t : State => t.sends s _) (fun _ => ?_) (fun _ => h2)
  exact sends_within h2 (held_self (F := 0)) (held_sendEth (F := 0) rfl (held_inc rfl held_self (off_any rfl)))
theorem sendPcsStanding_sends {s : State} {p : Nat} {r : CfgRec} (hr : s.cfg 13 1 2 = some r)
    (h : bit ((s.cfg 10 5 p).elim 0 (·.u8 0x16)) 0 = true) : (s.sendPcsStanding p).sends s (Out.frameTo (.eth 2) 3 p) := by
  unfold State.sendPcsStanding
  rw [hr]
  exact sends_within (sendPcs_sends (s := s.setPcs p _) 3 _ _ h) (held_setPcs (F := 0) rfl held_self) (held_self (F := 0))
/-- A refresh reaches every declared unit with a STANDING record and an endpoint (R32, R348). -/
theorem refreshAll_sends {s : State} {u r : CfgRec} (hu : u ∈ s.pcsUnits) (hr : s.cfg 13 1 2 = some r)
    (h : bit ((s.cfg 10 5 u.id).elim 0 (·.u8 0x16)) 0 = true) : s.refreshAll.sends s (Out.frameTo (.eth 2) 3 u.id) := by
  unfold State.refreshAll
  extract_lets s1 s2
  have h1 : Held s 0x10 s1 := foldl_ind (fun _ _ h => foldl_ind (fun _ _ h =>
    ite_ind (fun _ => held_sendStanding (by decide) h) (fun _ => h)) h) held_self
  have hman : s1.man = s.man := h1.man (by decide)
  have hu1 : u ∈ s1.pcsUnits := by
    unfold State.pcsUnits State.cfgAll at hu ⊢
    rwa [hman]
  have h2 : (s1.pcsUnits.foldl (fun s u => s.sendPcsStanding u.id) s1).sends s1 (Out.frameTo (.eth 2) 3 u.id) := by
    refine foldl_sends (F := 0x10) hu1 (fun _ _ _ => held_sendPcsStanding (by decide)) (fun t ht => ?_)
    have hcfg := cfg_congr ((ht.man (by decide)).trans hman)
    exact sendPcsStanding_sends (p := u.id) ((hcfg 13 1 2).trans hr) ((hcfg 10 5 u.id).symm ▸ h)
  have h3 : ∀ t b, Held s2 0 t → Held s2 0 (if t.canState b = 1 ∨ t.canState b = 2 then t.busStanding b else t) :=
    fun t b h => ite_ind (fun _ => held_busStanding rfl h) (fun _ => h)
  exact sends_within h2 h1 (foldl_ind h3 held_self)

/-! ## The statement -/

/-- Settles O23: handshakes by `exec_tlsHandshakeComplete` and `tlsFail_session`, closes by `closeSession_session`,
`closeSession_sends` and `closeNamed_closes`, roles by `roleMsg_replies`, bytes by `helmBytes_whole`, partners by
`refreshAll_sends`. -/
theorem sessionsOpenAndClose : Obligations.SessionsOpenAndClose := by
  unfold Obligations.SessionsOpenAndClose
  refine ⟨?connect, ?handshake, ?handshakeLate, ?idle, ?disconnect, ?close, ?oversize, ?release, ?role, ?misspelt, ?tooLong, ?spelt,
    ?refresh, ?silence⟩
  case connect =>
    intro port n s hport hn
    have hrun : exec (.helmConnect port) s = .next (s.connect n) := by
      show execHelmConnect port s = _
      unfold execHelmConnect
      rw [if_pos hport, hn]
    refine ⟨_, hrun, ?_, rfl⟩
    show ((s.setSession n _).session n).map _ = _
    rw [session_setSession]
    rfl
  case handshake =>
    intro n roles serial notBefore notAfter group scheme x s hx hs hrng hca hvalid hrev hser hgroup hscheme
    have ht := session_setSession s n (x.opened roles serial)
    refine ⟨_, exec_tlsHandshakeComplete hx hs hrng hca hvalid hrev hser hgroup hscheme, isOpen_of_session ht rfl, ?_⟩
    rw [ht]
    rfl
  case handshakeLate =>
    intro n x s hx hs
    have hrun : exec (.tlsHandshakeTimeout n) s = .next (s.tlsFail n) := by
      show execTlsHandshakeTimeout n s = _
      unfold execTlsHandshakeTimeout
      rw [hx]
      exact congrArg _ (if_pos hs)
    exact ⟨_, hrun, tlsFail_session s n, tlsFail_failures s n⟩
  case idle => exact fun n s h => ⟨_, rfl, closeNamed_closes h⟩
  case disconnect => exact fun n s h => ⟨_, rfl, closeSession_session s n, closeSession_sends h⟩
  case close =>
    intro n k s hkey hk ho
    have hrun : exec (.closeSession n 0xA5 k) s = .next (s.closeNamed k) := by
      show execCloseSession n 0xA5 k s = _
      unfold execCloseSession
      rw [if_pos hkey, Nat.mod_eq_of_lt hk]
    obtain ⟨hgone, hsent, -⟩ := closeNamed_closes ho
    exact ⟨_, hrun, hgone, hsent⟩
  case oversize =>
    intro n len s h hlen
    have hrun : exec (.oversizeMessage n len) s = .next (s.closeSession n) := by
      show execOversizeMessage n len s = _
      unfold execOversizeMessage
      rw [if_pos hlen]
    exact ⟨_, hrun, closeSession_session s n, closeSession_sends h⟩
  case release =>
    intro n q s hkey hq
    have hrun : exec (.releaseOwner n 0xA5 q) s = .next (s.releaseQueue q) := by
      show execReleaseOwner n 0xA5 q s = _
      unfold execReleaseOwner
      rw [if_pos hkey, Nat.mod_eq_of_lt hq]
    have ht : (s.releaseQueue q).eventQ q = { s.eventQ q with owner := none, sent := 0 } := eventQ_setEventQ ..
    refine ⟨_, hrun, ?_⟩
    dsimp only
    rw [ht]
    exact ⟨rfl, rfl, rfl⟩
  case role =>
    intro n tag mask x s h hx
    obtain ⟨u, hheld, hu, hmsg⟩ := roleMsg_replies (mask := mask) h hx
    refine ⟨s.roleMsg n tag mask, rfl, ?_⟩
    rw [hmsg]
    refine ⟨reply_answers hheld hu, ?_⟩
    rw [reply_roles, hu]
    rfl
  case misspelt =>
    intro n st header payload s _ hmax hlen h hst
    have hrun : exec (.badTypeMessage n header payload) s = .next (s.badMsg n (header ++ payload) st) :=
      congrArg Host.Outcome.next (helmBytes_misspelt hmax hlen hst)
    exact ⟨_, hrun, badMsg_answers h⟩
  case tooLong =>
    intro n header payload s h12 hmax
    have hrun : exec (.badTypeMessage n header payload) s = .next (s.closeSession n) :=
      congrArg Host.Outcome.next (helmBytes_oversize h12 hmax)
    exact ⟨_, hrun, closeSession_session s n⟩
  case spelt =>
    intro n header payload j s _ hmax hlen hj
    exact ⟨_, congrArg Host.Outcome.next (helmBytes_spelt hmax hlen hj), rfl⟩
  case refresh =>
    intro u r s hup hm hu _ hr hcage
    have hrun : exec .standingRefresh s = .next s.refreshAll := by
      show execStandingRefresh s = _
      unfold execStandingRefresh
      rw [hup, hm]
      rfl
    exact ⟨_, hrun, refreshAll_sends (List.contains_iff_mem.1 hu) hr hcage⟩
  case silence => exact fun _ _ _ s => ⟨s, rfl, rfl⟩

end Sys2Proof.Machine
end

section
/-!
PROOFS. What registers hold at power good (R716).
-/
namespace Sys2Proof.Machine
open Sys2Proof

/-- No register is listed at reset: each reads as the Reset column of its descriptor says. -/
theorem word_reset (a : Nat) : State.reset.word a = resetWord a := rfl

/-- Settles O3: by `word_reset` a reading of the register map, which is finite. -/
theorem resetValuesOfRegisters : Obligations.ResetValuesOfRegisters := by
  unfold Obligations.ResetValuesOfRegisters
  simp only [word_reset]
  decide +kernel

end Sys2Proof.Machine
end

section
/-!
PROOFS. The abort of a patch (R72), and a full image that finds no slot to be written to (R55, R56).
-/
namespace Sys2Proof.Machine
open Sys2Proof

/-! ## The patch log shown -/

/-- Showing the patch log writes registers alone. -/
theorem showLog_parts (s : State) : s.showLog.man = s.man ∧ s.showLog.nv = s.nv :=
  have h : Held s 0x12 s.showLog := held_showLog (by decide) held_self
  ⟨h.man (by decide), h.nv (by decide)⟩
theorem rd_patchState_showLog (s : State) : s.showLog.rd R.MAN_PATCH_STATUS_STATE = s.rd R.MAN_PATCH_STATUS_STATE := by
  have hepoch (i : Nat) : ¬(R.MAN_SLOT_EPOCH i).addr = R.MAN_PATCH_STATUS_STATE.addr := by
    unfold R.MAN_SLOT_EPOCH Machine.inst R.MAN_PATCH_STATUS_STATE
    dsimp only
    split <;> omega
  suffices h : WordsKept (· = R.MAN_PATCH_STATUS_STATE.addr) s s.showLog from rd_congr (h _ rfl)
  unfold State.showLog
  extract_lets x s1
  have h1 : WordsKept (· = R.MAN_PATCH_STATUS_STATE.addr) s s1 := foldl_ind (fun _ i h => kept_wr (hepoch i) h) kept_self
  exact ite_ind (fun _ => kept_wr (f := R.MAN_PATCH_LOG_FREE) (by decide) (kept_wr (f := R.MAN_PATCH_LOG_USED) (by decide) h1))
    (fun _ => h1)

/-! ## ABORT_PATCH (R72) -/

theorem exec_abortPatch {s : State} {sess : Nat} (h : s.keyed sess 0xA5 = true) :
    exec (.abortPatch sess 0xA5) s = .next s.abortPatch := by
  show execAbortPatch sess 0xA5 s = _
  unfold execAbortPatch
  rw [if_pos h]
/-- The slot with the patch of an epoch cancelled in its log. -/
def Slot.cancelEpoch (x : Slot) (e : Nat) : Slot :=
  { x with patches := x.patches.map fun p => if p.epoch = e ∧ !p.cancelled then { p with cancelled := true } else p }
/-- A patch cancelled before is none the less cancelled. -/
theorem cancelEpoch_patches (x : Slot) (e : Nat) :
    (x.cancelEpoch e).patches = x.patches.map fun p => if p.epoch = e then { p with cancelled := true } else p := by
  refine List.map_congr_left fun p _ => ?_
  obtain ⟨epoch, bytes, committed, cancelled⟩ := p
  by_cases he : epoch = e <;> cases cancelled <;> simp [he]
/-- In time the pending patch is dropped, and its entry in its slot's log cancelled. -/
theorem abortPatch_early {s : State} {j : LoadJob} (hj : s.man.patch = some j) (hst : s.rd R.MAN_PATCH_STATUS_STATE = 3)
    (h : s.tick + 100 ≤ j.target) :
    s.abortPatch =
      (((s.modSlotNv j.slot (·.cancelEpoch (u16 j.bytes 0x14))).modMan fun m => { m with patch := none }).patchTo 6).showLog := by
  unfold State.abortPatch
  rw [hj]
  dsimp only
  rw [if_neg (by simp [hst]), if_neg (by omega)]
  rfl
/-- Too late it is told, and nothing else. -/
theorem abortPatch_late {s : State} {j : LoadJob} (hj : s.man.patch = some j) (hst : s.rd R.MAN_PATCH_STATUS_STATE = 3)
    (h : j.target < s.tick + 100) : s.abortPatch = s.wrB R.MAN_PATCH_STATUS_ABORT_LATE true := by
  unfold State.abortPatch
  rw [hj]
  dsimp only
  rw [if_neg (by simp [hst]), if_pos h]
theorem rd_patchTo (s : State) {st : Nat} (hst : st < 8) :
    (s.patchTo st).rd R.MAN_PATCH_STATUS_STATE = if s.man.stage.any (fun g => g.kind == 1) = true then 1 else st :=
  rd_wr _ _ _ rfl (ite_ind (Q := (· < 8)) (fun _ => by decide) (fun _ => hst))
/-- A write of one field changes its register alone. -/
theorem wrB_keeps (s : State) (f : Fld) (b : Bool) : (s.wrB f b).keeps s [] [] [f] := by
  refine ⟨rfl, fun a _ ha => word_wr_ne _ _ _ _ ?_, ?_⟩
  · rintro rfl
    simp [inBlk, inRegs] at ha
  · simp

/-- Settles O14: in time by `abortPatch_early`, too late by `abortPatch_late`. -/
theorem abortPatchCancelsUntilItsLastMillisecond : Obligations.AbortPatchCancelsUntilItsLastMillisecond := by
  unfold Obligations.AbortPatchCancelsUntilItsLastMillisecond
  intro sess j s hkey hj hst
  refine ⟨fun h => ⟨_, exec_abortPatch hkey, ?_⟩, fun h => ⟨_, exec_abortPatch hkey, ?_⟩⟩
  · rw [abortPatch_early hj hst h]
    obtain ⟨hman, hnv⟩ := showLog_parts
      (((s.modSlotNv j.slot (·.cancelEpoch (u16 j.bytes 0x14))).modMan fun m => { m with patch := none }).patchTo 6)
    refine ⟨by rw [hman]; rfl, ?_, ?_⟩
    · rw [rd_patchState_showLog]
      exact rd_patchTo _ (by decide)
    · rw [hnv, ← cancelEpoch_patches]
      simp [State.modSlotNv, State.patchTo, tgetD]
  · rw [abortPatch_late hj hst h]
    exact ⟨on_wrB _ _ _ rfl rfl, wrB_keeps ..⟩

/-! ## MANIFEST_BEGIN without a slot to write to (R56) -/

theorem reply_man (s : State) (n tag typ status : Nat) (body : List Nat) : (s.reply n tag typ status body).man = s.man :=
  (held_reply (F := 0x10) (by decide) held_self).man (by decide)
/-- While both slots are active or on trial a full image has no slot, and is refused with STATE (log 82). -/
theorem manBegin_full_refused {s : State} (sess len : Nat) (hr : s.recovery = false) (hb : s.pwr.berthRun = false)
    (hg : s.man.stage = none) (hv : s.man.verify = none) (hw : s.writeSlot = none) : s.manBegin sess 0 len = (s, STATE) := by
  unfold State.manBegin
  simp [hr, hb, hg, hv, hw]
/-- So the request is answered STATE and leaves no staging open. -/
theorem exec_manifestBegin_full_refused {s : State} {sess tag len : Nat} (h : s.takes sess tag 0x30 4 = true)
    (hr : s.recovery = false) (hb : s.pwr.berthRun = false) (hg : s.man.stage = none) (hv : s.man.verify = none)
    (hw : s.writeSlot = none) : ∃ t, exec (.manifestBegin sess tag 0 len) s = .next t ∧ t.answers s sess tag 0x30 STATE [] ∧
      t.man.stage = none := by
  obtain ⟨x, -, -, hrun⟩ := helm_takes h (.manifestBegin sess tag 0 len) fun s =>
    (s.manBegin sess 0 len).1.reply sess tag 0x30 (s.manBegin sess 0 len).2 []
  refine ⟨_, congrArg Host.Outcome.next hrun, ?_⟩
  rw [manBegin_full_refused (s := s.setSession sess _) sess len hr hb hg hv hw]
  exact ⟨reply_answers (held_setSession rfl held_self) (session_setSession ..),
    (congrArg Man.stage (reply_man ..)).trans hg⟩
/-- An engineer in session 0 of a Turid whose start from slot 0 on trial has not been judged, while an image verified since
has put slot 1 on trial as well (R58). -/
def bothSlotsHeld : State :=
  let s := { State.reset with
    boll := { State.reset.boll with phase := .on },
    hq := { State.reset.hq with sessions := [(0, ⟨1, false, 31, 31, 0, [], [], [], [], [], none, none, [], [], 0, 0⟩)] },
    nv := { State.reset.nv with keys := [(5, [1#8])] },
    man := { State.reset.man with trialAtStart := some 0 } }
  ((s.wr R.SYS_START_STATUS_STAGE 9).slotTo 0 TRIAL).slotTo 1 TRIAL

/-- Refutes O22: its first clause lets MANIFEST_BEGIN of a full image (kind 0) open a staging in every state, but while both
slots are on trial there is none to write to (R56), and it is refused. -/
theorem not_manifestRowsLoadAndPatch : ¬ Obligations.ManifestRowsLoadAndPatch := by
  unfold Obligations.ManifestRowsLoadAndPatch
  rintro ⟨hbegin, -⟩
  obtain ⟨t, ht, -, hstage, -⟩ := hbegin 0 7 0 64 bothSlotsHeld (by decide +kernel) (by decide) (by decide +kernel) rfl rfl rfl
  obtain ⟨u, hu, -, hnone⟩ := exec_manifestBegin_full_refused (s := bothSlotsHeld) (sess := 0) (tag := 7) (len := 64)
    (by decide +kernel) (by decide +kernel) rfl rfl rfl (by decide +kernel)
  obtain rfl : u = t := Host.Outcome.next.inj (hu.symm.trans ht)
  rw [hnone] at hstage
  cases hstage

end Sys2Proof.Machine
end

section
/-!
PROOFS. Frames (`State.keeps`): from the mask of a row, or from the registers that it writes, and those of the start, power and
manifest rows (R103, R113 to R121, R54 to R62).
-/
namespace Sys2Proof.Machine
open Sys2Proof

/-! ## From what a row may change to its frame -/

/-- The mask of every part and every block beside those that a row may change. -/
def restOf (M : Nat) : Nat := 0x3FFFFF01FFFFFF ^^^ M
/-- A row that may change the parts and blocks of `M` meets the frame that lists them. -/
def framedBy (M : Nat) (ps : List Part) (bs : List Nat) : Bool := decide (Dj (restOf M) M) && keepsMask (restOf M) ps bs

theorem heldR_of_next {b s t : State} {F : Nat} {c : Instr} (h : HeldR b F (exec c s)) (ht : exec c s = .next t) : Held b F t := by
  rw [ht] at h
  exact h
/-- The frame of a row follows from what it may change. -/
theorem runs_keeps {c : Instr} {s : State} {M : Nat} {ps : List Part} {bs : List Nat} {rs : List Fld}
    (hk : ∀ F, Dj F M → HeldR s F (exec c s)) (hm : framedBy M ps bs = true) : Runs c s fun t => t.keeps s ps bs rs := by
  obtain ⟨hdj, hkeep⟩ := Bool.and_eq_true_iff.1 hm
  obtain ⟨t, ht⟩ := exec_completes c s
  exact ⟨t, ht, keeps_of_held rs (heldR_of_next (hk _ (of_decide_eq_true hdj)) ht) hkeep⟩

/-- A register that the frame does not list. -/
def Unlisted (bs : List Nat) (rs : List Fld) (a : Nat) : Prop := a < 0x150000 ∧ (inBlk bs a || inRegs rs a) = false
/-- All blocks, for a row whose registers are told one by one. -/
abbrev allBlks : List Nat := List.range 22
/-- Where the frame lists single registers, what the row may change beside registers, with the words it leaves. -/
theorem runs_keeps_words {c : Instr} {s t : State} {M : Nat} {ps : List Part} {bs : List Nat} {rs : List Fld}
    (ht : exec c s = .next t) (hk : ∀ F, Dj F M → HeldR s F (exec c s)) (hm : framedBy M ps allBlks = true)
    (hw : WordsKept (Unlisted bs rs) s t) : Runs c s fun t => t.keeps s ps bs rs := by
  obtain ⟨u, hu, hqueue, -, hparts⟩ := runs_keeps (rs := rs) hk hm
  obtain rfl : t = u := Host.Outcome.next.inj (ht.symm.trans hu)
  exact ⟨t, ht, hqueue, fun a ha hA => hw a ⟨ha, hA⟩, hparts⟩
theorem listed_reg {bs : List Nat} {rs : List Fld} {a : Nat} (h : inRegs rs a = true) : ¬Unlisted bs rs a := by
  rintro ⟨-, hA⟩
  rw [h, Bool.or_true] at hA
  cases hA
theorem listed_hq {bs : List Nat} {rs : List Fld} (h : bs.contains 4 = true) : ∀ a, hqReg a → ¬Unlisted bs rs a := by
  rintro a ⟨hlo, hhi⟩ ⟨-, hA⟩
  have hblk : inBlk bs a = true := by
    unfold inBlk
    rwa [blockNo_range (k := 4) hlo hhi]
  rw [hblk] at hA
  cases hA

/-! ## What the operations of the supply, of Berth and of a staging write -/

section
variable {A : Nat → Prop} {b0 s : State}

theorem kept_supply {a b bkp : Bool} (h : ¬A R.PWR_SUPPLY_STATUS.addr) (hs : WordsKept A b0 s) : WordsKept A b0 (s.supply a b bkp) :=
  kept_wrB h (kept_wrB h (kept_wrB h (kept_wrB h hs)))
theorem kept_berthResult {r : Nat} (hq : ∀ a, hqReg a → ¬A a) (hst : ¬A R.PWR_STATE.addr) (hev : ¬A R.PWR_EVENT_STATUS.addr)
    (hs : WordsKept A b0 s) : WordsKept A b0 (s.berthResult r) :=
  ite_ind (fun _ => hs) (fun _ => kept_flag hq hev (kept_wr hst hs))
theorem kept_berthStop {r : Nat} (hq : ∀ a, hqReg a → ¬A a) (hst : ¬A R.PWR_STATE.addr) (hev : ¬A R.PWR_EVENT_STATUS.addr)
    (hs : WordsKept A b0 s) : WordsKept A b0 (s.berthStop r) :=
  kept_berthResult hq hst hev (kept_wr hst (kept_regs hs rfl))
theorem kept_wakeSource {n : Nat} (hq : ∀ a, hqReg a → ¬A a) (hst : ¬A R.PWR_STATE.addr) (hev : ¬A R.PWR_EVENT_STATUS.addr)
    (hl : ¬A R.PWR_WAKE_LATCH.addr) (hs : WordsKept A b0 s) : WordsKept A b0 (s.wakeSource n) := by
  have hlatch : WordsKept A b0 (s.wrB (R.PWR_WAKE_LATCH.bit n) true) := kept_wrB hl hs
  exact ite_ind (fun _ => ite_ind (fun _ => kept_berthStop hq hst hev hlatch) (fun _ => hlatch)) (fun _ => hs)
theorem kept_opTo {sec ms : Nat} (hq : ∀ a, hqReg a → ¬A a) (hst : ¬A R.PWR_STATE.addr) (hev : ¬A R.PWR_EVENT_STATUS.addr)
    (hl : ¬A R.PWR_WAKE_LATCH.addr) (hsec : ¬A R.PWR_OP_SECONDS.addr) (hms : ¬A R.PWR_OP_MS.addr) (hs : WordsKept A b0 s) :
    WordsKept A b0 (s.opTo sec ms) := by
  have hclock : WordsKept A b0 ((s.wr R.PWR_OP_SECONDS sec).wr R.PWR_OP_MS (ms % 1000)) := kept_wr hms (kept_wr hsec hs)
  exact ite_ind (fun _ => ite_ind (fun _ => kept_wakeSource hq hst hev hl hclock) (fun _ => hclock)) (fun _ => hs)
theorem kept_ckptFor {cause : Nat} {qs : List Nat} (h : ¬A R.EST_STATUS.addr) (hs : WordsKept A b0 s) :
    WordsKept A b0 (s.ckptFor cause qs) := by
  unfold State.ckptFor
  split
  · exact kept_wrB h (kept_regs hs rfl)
  · exact kept_regs hs rfl
theorem kept_enterBerth {sess : Nat} (hq : ∀ a, hqReg a → ¬A a) (hst : ¬A R.PWR_STATE.addr) (hev : ¬A R.PWR_EVENT_STATUS.addr)
    (hck : ¬A R.EST_STATUS.addr) (hs : WordsKept A b0 s) : WordsKept A b0 (s.enterBerth sess) := by
  have hresult : WordsKept A b0 (s.berthResult (s.berthCase sess)) := kept_berthResult hq hst hev hs
  exact ite_ind (fun _ => kept_ckptFor hck (kept_wr hst (kept_regs hresult rfl))) (fun _ => hresult)
theorem kept_abortStage (hst : ¬A R.MAN_STATUS.addr) (hlen : ¬A R.MAN_STAGE_LENGTH.addr) (hrec : ¬A R.MAN_STAGE_RECEIVED.addr)
    (hp : ¬A R.MAN_PATCH_STATUS.addr) (hslot : ∀ i, ¬A (R.MAN_SLOT_STATE i).addr) (hs : WordsKept A b0 s) :
    WordsKept A b0 s.abortStage := by
  unfold State.abortStage
  split
  · exact hs
  · have hgone : WordsKept A b0 s.stageGone := kept_wr hrec (kept_wr hlen (kept_wrB hst (kept_regs hs rfl)))
    exact ite_ind (fun _ => kept_wr (hslot _) (kept_wr (hslot _) hgone))
      (fun _ => ite_ind (fun _ => kept_wr hp hgone) (fun _ => hgone))
end

/-- A slot that the Turid does not have stands at no address (R55). -/
theorem listed_slot {bs : List Nat} {rs : List Fld} (h0 : inRegs rs (R.MAN_SLOT_STATE 0).addr = true)
    (h1 : inRegs rs (R.MAN_SLOT_STATE 1).addr = true) (i : Nat) : ¬Unlisted bs rs (R.MAN_SLOT_STATE i).addr := by
  match i with
  | 0 => exact listed_reg h0
  | 1 => exact listed_reg h1
  | i + 2 =>
    rintro ⟨ha, -⟩
    unfold R.MAN_SLOT_STATE Machine.inst at ha
    dsimp only at ha
    rw [if_neg (by omega)] at ha
    omega

/-! ## The statement -/

/-- Settles O47: by `runs_keeps` from the mask of each row, and by `runs_keeps_words` for the rows of the supply, of Berth, of the
watchdog's service and of a staging's end, whose registers are told one by one. -/
theorem startPowerAndManifestFrames : Obligations.StartPowerAndManifestFrames := by
  unfold Obligations.StartPowerAndManifestFrames
  refine ⟨?powerGood, ?bootComplete, ?bootVerifyFailed, ?safetySelftestDone, ?selfTestDone, ?learnedRestoreDone, ?partnersDone,
    ?partnerAbsentTimeout, ?stageTimeout, ?startTimeout, ?startHoldElapsed, ?holdRepeatTimer, ?hostReset, ?attemptStart, ?brownOut,
    ?firmwareFatal, ?firmwareCommit, ?glideDwellExpiry, ?enterBerth, ?cancelBerth, ?berthEntryComplete, ?mainInputLost,
    ?bothMainsLost, ?bkpDepleted, ?wakeSourceEvent, ?berthWake, ?opsecPersist, ?pwrDomainReset, ?hungAccessTimeout,
    ?watchdogService, ?watchdogExpiry, ?thermalReducedEntry, ?thermalDwellExpiry, ?thermalTrip, ?engineHaltTimeout, ?manifestBegin,
    ?manifestChunk, ?manifestCommit, ?manifestVerifyDone, ?patchCommit, ?patchPersistDone, ?patchBoundary, ?abortStage, ?abortPatch,
    ?mainInputGood⟩
  case powerGood => exact fun _ _ _ _ _ _ _ => runs_keeps (fun _ hF => held_execPowerGood hF held_self) (by decide)
  case bootComplete => exact fun _ _ => runs_keeps (fun _ hF => held_execBootComplete hF held_self) (by decide)
  case bootVerifyFailed => exact fun _ => runs_keeps (fun _ hF => held_execBootVerifyFailed hF held_self) (by decide)
  case safetySelftestDone => exact fun _ _ _ => runs_keeps (fun _ hF => held_execSafetySelftestDone hF held_self) (by decide)
  case selfTestDone =>
    exact fun _ _ _ _ _ _ _ _ _ _ _ _ => runs_keeps (fun _ hF => held_execSelfTestDone hF held_self) (by decide)
  case learnedRestoreDone => exact fun _ => runs_keeps (fun _ hF => held_execLearnedRestoreDone hF held_self) (by decide)
  case partnersDone => exact fun _ => runs_keeps (fun _ hF => held_execPartnersDone hF held_self) (by decide)
  case partnerAbsentTimeout =>
    exact fun _ _ _ _ => runs_keeps (fun _ hF => held_execPartnerAbsentTimeout hF held_self) (by decide)
  case stageTimeout => exact fun _ => runs_keeps (fun _ hF => held_execStageTimeout hF held_self) (by decide)
  case startTimeout => exact fun _ => runs_keeps (fun _ hF => held_execStartTimeout hF held_self) (by decide)
  case startHoldElapsed => exact fun _ => runs_keeps (fun _ hF => held_execStartHoldElapsed hF held_self) (by decide)
  case holdRepeatTimer => exact fun _ => runs_keeps (fun _ hF => held_execHoldRepeatTimer hF held_self) (by decide)
  case hostReset => exact fun _ _ _ => runs_keeps (fun _ hF => held_execHostReset hF held_self) (by decide)
  case attemptStart => exact fun _ _ _ => runs_keeps (fun _ hF => held_execAttemptStart hF held_self) (by decide)
  case brownOut => exact fun _ => runs_keeps (fun _ hF => held_execBrownOut hF held_self) (by decide)
  case firmwareFatal => exact fun _ => runs_keeps (fun _ hF => held_execFirmwareFatal hF held_self) (by decide)
  case firmwareCommit => exact fun _ _ _ _ _ _ => runs_keeps (fun _ hF => held_execFirmwareCommit hF held_self) (by decide)
  case glideDwellExpiry => exact fun _ => runs_keeps (fun _ hF => held_execGlideDwellExpiry hF held_self) (by decide)
  case berthEntryComplete => exact fun _ => runs_keeps (fun _ hF => held_execBerthEntryComplete hF held_self) (by decide)
  case bothMainsLost => exact fun _ _ => runs_keeps (fun _ hF => held_execBothMainsLost hF held_self) (by decide)
  case bkpDepleted => exact fun _ _ => runs_keeps (fun _ hF => held_execBkpDepleted hF held_self) (by decide)
  case pwrDomainReset => exact fun _ _ _ _ => runs_keeps (fun _ hF => held_execPwrDomainReset hF held_self) (by decide)
  case watchdogExpiry => exact fun _ => runs_keeps (fun _ hF => held_execWatchdogExpiry hF held_self) (by decide)
  case thermalReducedEntry => exact fun _ => runs_keeps (fun _ hF => held_execThermalReducedEntry hF held_self) (by decide)
  case thermalDwellExpiry => exact fun _ _ => runs_keeps (fun _ hF => held_execThermalDwellExpiry hF held_self) (by decide)
  case thermalTrip => exact fun _ => runs_keeps (fun _ hF => held_execThermalTrip hF held_self) (by decide)
  case engineHaltTimeout => exact fun _ => runs_keeps (fun _ hF => held_execEngineHaltTimeout hF held_self) (by decide)
  case manifestBegin => exact fun _ _ _ _ _ => runs_keeps (fun _ hF => held_execManifestBegin hF held_self) (by decide)
  case manifestChunk => exact fun _ _ _ _ _ => runs_keeps (fun _ hF => held_execManifestChunk hF held_self) (by decide)
  case manifestCommit => exact fun _ _ _ => runs_keeps (fun _ hF => held_execManifestCommit hF held_self) (by decide)
  case manifestVerifyDone => exact fun _ _ => runs_keeps (fun _ hF => held_execManifestVerifyDone hF held_self) (by decide)
  case patchCommit => exact fun _ _ _ _ => runs_keeps (fun _ hF => held_execPatchCommit hF held_self) (by decide)
  case patchPersistDone => exact fun _ _ => runs_keeps (fun _ hF => held_execPatchPersistDone hF held_self) (by decide)
  case patchBoundary => exact fun _ => runs_keeps (fun _ hF => held_execPatchBoundary hF held_self) (by decide)
  case abortPatch => exact fun _ _ _ => runs_keeps (fun _ hF => held_execAbortPatch hF held_self) (by decide)
  case enterBerth =>
    exact fun _ _ _ => runs_keeps_words rfl (fun _ hF => held_execEnterBerth hF held_self) (by decide)
      (ite_ind (fun _ => kept_enterBerth (listed_hq rfl) (listed_reg rfl) (listed_reg rfl) (listed_reg rfl) kept_self)
        (fun _ => kept_self))
  case cancelBerth =>
    exact fun _ _ _ => runs_keeps_words rfl (fun _ hF => held_execCancelBerth hF held_self) (by decide)
      (ite_ind (fun _ => kept_berthStop (listed_hq rfl) (listed_reg rfl) (listed_reg rfl) kept_self) (fun _ => kept_self))
  case mainInputLost =>
    refine fun b s => runs_keeps_words rfl (fun _ hF => held_execMainInputLost hF held_self) (by decide)
      (ite_ind (fun _ => ?_) (fun _ => kept_self))
    have hlost : WordsKept (Unlisted [Blk.hq] [R.PWR_SUPPLY_STATUS_A_GOOD, R.PWR_EVENT_STATUS_SUPPLY_LOST]) s
        ((s.inputTo b false).wrB (if b then R.PWR_SUPPLY_STATUS_B_LOST else R.PWR_SUPPLY_STATUS_A_LOST) true) := by
      refine kept_wrB ?_ (kept_supply (listed_reg rfl) kept_self)
      cases b <;> exact listed_reg rfl
    exact ite_ind (fun _ => kept_flag (listed_hq rfl) (listed_reg rfl) hlost) (fun _ => hlost)
  case wakeSourceEvent =>
    intro n sec ms s
    have hclock : WordsKept (Unlisted [Blk.hq] [R.PWR_WAKE_LATCH, R.PWR_OP_SECONDS, R.PWR_OP_MS, R.PWR_STATE_STATE,
        R.PWR_EVENT_STATUS_BERTH_RESULT]) s (s.opTo sec ms) :=
      kept_opTo (listed_hq rfl) (listed_reg rfl) (listed_reg rfl) (listed_reg rfl) (listed_reg rfl) (listed_reg rfl) kept_self
    have hwake : ∀ k, WordsKept _ s ((s.opTo sec ms).wakeSource k) := fun k =>
      kept_wakeSource (listed_hq rfl) (listed_reg rfl) (listed_reg rfl) (listed_reg rfl) hclock
    exact runs_keeps_words rfl (fun _ hF => held_execWakeSourceEvent hF held_self) (by decide)
      (ite_ind (fun _ => kept_self)
        (fun _ => ite_ind (fun _ => ite_ind (fun _ => hwake 1) (fun _ => hclock)) (fun _ => hwake n)))
  case berthWake =>
    exact fun _ => runs_keeps_words rfl (fun _ hF => held_execBerthWake hF held_self) (by decide)
      (ite_ind (fun _ => kept_regs (kept_wr (f := R.PWR_WAKE_CAUSE.part 0 7) (listed_reg rfl) kept_self) rfl) (fun _ => kept_self))
  case opsecPersist =>
    intro sec s
    have hclock : WordsKept (Unlisted [Blk.hq] [R.PWR_OP_SECONDS, R.PWR_OP_MS, R.PWR_WAKE_LATCH, R.PWR_STATE_STATE,
        R.PWR_EVENT_STATUS_BERTH_RESULT]) s (s.opTo sec 0) :=
      kept_opTo (listed_hq rfl) (listed_reg rfl) (listed_reg rfl) (listed_reg rfl) (listed_reg rfl) (listed_reg rfl) kept_self
    exact runs_keeps_words rfl (fun _ hF => held_execOpsecPersist hF held_self) (by decide)
      (ite_ind (fun _ => ite_ind (fun _ => kept_regs hclock rfl) (fun _ => hclock)) (fun _ => kept_self))
  case hungAccessTimeout =>
    refine fun sess s => runs_keeps_words rfl (fun _ hF => held_execHungAccessTimeout hF held_self) (by decide) ?_
    split
    · exact kept_self
    · split
      · exact kept_self
      · exact ite_ind (fun _ => kept_self) (fun _ => kept_flag (listed_hq rfl) (listed_reg rfl) (kept_regs kept_self rfl))
  case watchdogService =>
    exact fun _ => runs_keeps_words rfl (fun _ hF => held_execWatchdogService hF held_self) (by decide)
      (ite_ind (fun _ => kept_wr (listed_reg rfl) kept_self) (fun _ => kept_self))
  case abortStage =>
    exact fun _ _ _ => runs_keeps_words rfl (fun _ hF => held_execAbortStage hF held_self) (by decide)
      (ite_ind (fun _ => kept_abortStage (listed_reg rfl) (listed_reg rfl) (listed_reg rfl) (listed_reg rfl) (listed_slot rfl rfl)
        kept_self) (fun _ => kept_self))
  case mainInputGood =>
    exact fun _ _ => runs_keeps_words rfl (fun _ hF => held_execMainInputGood hF held_self) (by decide)
      (ite_ind (fun _ => kept_wakeSource (listed_hq rfl) (listed_reg rfl) (listed_reg rfl) (listed_reg rfl)
        (kept_supply (listed_reg rfl) kept_self)) (fun _ => kept_self))

end Sys2Proof.Machine
end

section
/-!
PROOFS. Right after reset nothing waits (R86, R716), and the self-tests of the safety technologies in Mooring mode (R107).
-/
namespace Sys2Proof.Machine
open Sys2Proof

/-- Settles O4: each part as `State.reset` states it, the registers by `word_reset`. -/
theorem resetHasNothingWaiting : Obligations.ResetHasNothingWaiting := by
  unfold Obligations.ResetHasNothingWaiting
  exact ⟨rfl, rfl, rfl, rfl, rfl, rfl, word_reset⟩

/-! ## The safety technologies in Mooring mode -/

/-- Both technologies have passed their self-tests. -/
def State.techsPass (s : State) : State :=
  (((s.wr R.SAF_TECH_STATUS_PROC_STATE 2).wr R.SAF_TECH_STATUS_HW_STATE 2).wrB R.SAF_STATUS_PROC_OK true).wrB R.SAF_STATUS_HW_OK true
theorem held_techsPass {s : State} : ∀ F, Dj F 0x400000000001 → Held s F s.techsPass := fun _ hF =>
  held_wrB (dj hF) (held_wrB (dj hF) (held_wr (dj hF) (held_wr (dj hF) held_self (off_SAF_TECH_STATUS_PROC_STATE (dj hF)))
    (off_SAF_TECH_STATUS_HW_STATE (dj hF))) (off_SAF_STATUS_PROC_OK (dj hF))) (off_SAF_STATUS_HW_OK (dj hF))
/-- In Mooring mode they begin to report their inputs, whatever else the start has completed. -/
theorem exec_safetySelftestDone_mooring {s : State} (hp : s.powered = true) (ht : s.techsPassed = false) (hm : s.mooring = true) :
    exec (.safetySelftestDone true true) s = .next s.techsPass.moorSafety := by
  have hm' : s.techsPass.mooring = true := (on_of_held held_techsPass rfl (by decide)).trans hm
  show execSafetySelftestDone true true s = _
  unfold execSafetySelftestDone
  rw [hp, ht]
  exact congrArg Host.Outcome.next (if_pos hm')
/-- So the start stays in its stage. -/
theorem moorSafety_stage (s : State) : s.techsPass.moorSafety.stage = s.stage :=
  rd_of_held (M := 0x400000004001) (fun F hF => held_moorSafety (dj hF) (held_techsPass F (dj hF))) rfl (by decide)

/-- A Turid whose register shows Mooring mode and stage BOOT with the encrypted store open, while the self-tests of the safety
technologies still run and slot 0 holds an active manifest. No start of the Turid shows both (Mooring mode is stage 0xB), but the
statement ranges over every state. -/
def mooredInBoot : State :=
  let s := { State.reset with boll := { State.reset.boll with phase := .on } }
  (((s.wr R.SYS_START_STATUS_STAGE 3).wrB R.SYS_START_STATUS_MOORING true).wrB (R.SEC_STATUS.bit 3) true).slotTo 0 ACTIVE

/-- Refutes O17: its clause on the self-tests of the safety technologies lets every start in BOOT go on to MANIFEST, but while
`SYS_START_STATUS` shows Mooring mode the technologies only begin to report their inputs (R107), and the stage stays. -/
theorem not_startStagesAdvance : ¬ Obligations.StartStagesAdvance := by
  unfold Obligations.StartStagesAdvance
  rintro ⟨-, -, -, hsafety, -⟩
  obtain ⟨t, ht, -, hmanifest⟩ := hsafety mooredInBoot rfl (by decide +kernel) (by decide +kernel) (by decide +kernel)
    (by decide +kernel) (by decide +kernel)
  have hrun := exec_safetySelftestDone_mooring (s := mooredInBoot) rfl (by decide +kernel) (by decide +kernel)
  obtain rfl : mooredInBoot.techsPass.moorSafety = t := Host.Outcome.next.inj (hrun.symm.trans ht)
  have hboot : mooredInBoot.stage = 3 := by decide +kernel
  rw [moorSafety_stage, hboot] at hmanifest
  cases hmanifest

end Sys2Proof.Machine
end

section
/-!
PROOFS. Starts that end in a reset (R88, R95, R99, R103 to R105, R110, R143, R147, R388, R671).
-/
namespace Sys2Proof.Machine
open Sys2Proof

/-! ## A start that has not been judged fails (R95, R99) -/

/-- The code of a failed start heads the failure group. -/
theorem enterFail_code (s : State) {code : Nat} (cycles opSec : Nat) (hc : code < 2 ^ 32) :
    (s.enterFail code cycles opSec).rd (R.SYS_FAIL_CODE 0) = code := by
  simp only [State.enterFail, State.setFails, State.failList, State.inc, List.map, List.range, List.range.loop, List.take,
    List.zipIdx, List.foldl]
  repeat rw [rd_wr_apart _ _ (R.SYS_FAIL_CODE 0) _ rfl rfl]
  exact rd_wr _ _ _ rfl hc
theorem failStart_code {s : State} {code : Nat} (h : s.boll.settled = false) (hc : code < 2 ^ 32) :
    (s.failStart code).rd (R.SYS_FAIL_CODE 0) = code := by
  unfold State.failStart
  rw [h]
  exact (rd_of_held (M := 0x800000001) (fun F hF => held_failSlots hF held_self) rfl (by decide)).trans (enterFail_code s _ _ hc)
theorem failStart_attempt (s : State) (code : Nat) : (s.failStart code).boll.attempt = s.boll.attempt := by
  have hslots : ∀ (t : State) (trial : Bool), (t.failSlots trial).boll = t.boll := fun t trial =>
    (held_failSlots (F := 4) (by decide) held_self).boll (by decide)
  unfold State.failStart
  split
  · rw [hslots]
  · show ((s.enterFail code (s.rd R.PWR_POWER_CYCLES) s.opSec).failSlots true).boll.attempt = _
    rw [hslots]
    rfl

/-! ## A reset of all but the Bollard domain (R103) -/

/-- The Turid as its reset finds it: HOLD sent, the trip recorded, the outputs off, every session closed. -/
def State.ended (s : State) (cause : Nat) (hold : State → State) : State :=
  (((if s.powered then hold s else s).recordTrip 0x1408 0 true (le 2 cause)).outputsOff).closeAll
theorem turidReset_eq (s : State) (cause : Nat) (hold : State → State) :
    s.turidReset cause hold =
      ((((s.ended cause hold).failStart cause).wipe [1, 2]).wr (R.PWR_WAKE_CAUSE.part 0 7) 0).modBoll fun b =>
        { b with phase := .power, cause := cause, tamperWait := false, ended := some !s.boll.settled } := rfl
/-- A HOLD that is no business of the Bollard domain. -/
def KeepsBollard (hold : State → State) : Prop := ∀ s, Held s 4 (hold s)
theorem ended_boll {s : State} {cause : Nat} {hold : State → State} (h : KeepsBollard hold) : (s.ended cause hold).boll = s.boll := by
  have hheld : Held s 4 (s.ended cause hold) :=
    held_closeAll (by decide) (held_outputsOff (by decide) (held_recordTrip (by decide)
      (ite_ind (Q := Held s 4) (fun _ => h s) (fun _ => held_self))))
  exact hheld.boll (by decide)

theorem wipe_boll (s : State) (keeps : List Nat) : (s.wipe keeps).boll = s.boll := rfl
theorem wipe_nv (s : State) (keeps : List Nat) : (s.wipe keeps).nv = s.nv := rfl
/-- A register of the Bollard domain, or of non-volatile memory, holds its word through a reset (R716). -/
theorem word_wipe {s : State} {keeps : List Nat} {a : Nat} (hk : (descOf a).keep ∈ keeps) (ha : a ≠ R.SAF_STATUS_KEY_SWITCH.addr) :
    (s.wipe keeps).word a = s.word a := by
  refine (word_wr_ne _ _ _ _ ha).trans ?_
  show (tget (keepRegs keeps s.regs) a).getD _ = _
  unfold keepRegs
  rw [tget_filter _ _ _ (fun _ => decide_eq_true hk)]
  rfl
theorem rd_turidReset {s : State} {cause : Nat} {hold : State → State} {f : Fld} (hk : (descOf f.addr).keep ∈ [1, 2])
    (ha : f.addr ≠ R.SAF_STATUS_KEY_SWITCH.addr) (hw : f.addr ≠ R.PWR_WAKE_CAUSE.addr) :
    (s.turidReset cause hold).rd f = ((s.ended cause hold).failStart cause).rd f := by
  rw [turidReset_eq, modBoll_rd]
  exact rd_congr ((word_wr_ne _ (R.PWR_WAKE_CAUSE.part 0 7) _ _ hw).trans (word_wipe hk ha))
/-- What a reset leaves: POWER under its cause, no session, and a start not yet judged failed with the cause as its code. -/
theorem turidReset_resetUnder {s : State} {cause : Nat} {hold : State → State} (h : KeepsBollard hold) (hc : cause < 2 ^ 32) :
    (s.turidReset cause hold).resetUnder s cause := by
  refine ⟨rfl, rfl, rfl, fun hs => ?_⟩
  rw [rd_turidReset (by decide +kernel) (by decide) (by decide)]
  exact failStart_code ((congrArg Bollard.settled (ended_boll h)).trans hs) hc
/-- The latch of R110 stands through it. -/
theorem turidReset_attempt {s : State} {cause : Nat} {hold : State → State} (h : KeepsBollard hold) :
    (s.turidReset cause hold).boll.attempt = s.boll.attempt := by
  rw [turidReset_eq, modBoll_boll]
  dsimp only
  rw [wr_boll, wipe_boll, failStart_attempt, ended_boll h]

theorem keepsBollard_none : KeepsBollard fun s => s := fun _ => held_self
theorem keepsBollard_holdRings (reason : Nat) : KeepsBollard fun s => s.holdRings reason := fun _ =>
  held_holdRings (by decide) held_self
theorem keepsBollard_hostReset : KeepsBollard fun s => if s.mooring then s.holdPorts 5 else s.holdAll 5 := fun _ =>
  ite_ind (fun _ => held_holdPorts (by decide) held_self) (fun _ => held_holdAll (by decide) held_self)

theorem stageFail_resetUnder (s : State) {code : Nat} (hc : code < 2 ^ 32) : (s.stageFail code).resetUnder s code :=
  turidReset_resetUnder keepsBollard_none hc
theorem faultReset_resetUnder (s : State) {cause : Nat} (hc : cause < 2 ^ 32) : (s.faultReset cause).resetUnder s cause :=
  turidReset_resetUnder (keepsBollard_holdRings 5) hc
/-- A fault of the whole Turid resets it while the rails are on. -/
theorem faultCause_resetUnder {s : State} {cause : Nat} (hp : s.powered = true) (hc : cause < 2 ^ 32) :
    (s.faultCause cause).resetUnder s cause := by
  unfold State.faultCause
  rw [if_pos hp]
  exact faultReset_resetUnder s hc
theorem hostReset_resetUnder (s : State) {cause : Nat} (hc : cause < 2 ^ 32) : (s.hostReset cause).resetUnder s cause :=
  turidReset_resetUnder keepsBollard_hostReset hc
theorem phase_of_powered {s : State} (h : s.powered = true) : s.boll.phase = .on := by
  unfold State.powered at h
  exact of_decide_eq_true h
/-- A write of `SYS_START_CONTROL` that is accepted says so and acts (R721). -/
theorem startControl_accepted {s : State} {sess : Nat} (f : State → State) (hr : s.engineer sess = true) (hrec : s.recovery = false) :
    s.startControl sess 0xA5 true f = f (s.wr R.SYS_START_STATUS_CONTROL_RESULT 1) := by
  unfold State.startControl
  rw [hrec, if_neg (by decide), hr]
  rfl

/-- ATTEMPT_START accepted: the one-shot latch is set and kept through the reset (R110). -/
def State.attemptLatched (s : State) : State :=
  (((s.wr R.SYS_START_STATUS_CONTROL_RESULT 1).modBoll fun b => { b with attempt := true }).wrB R.SYS_START_STATUS_ATTEMPT_LATCHED
    true).saveBoot

/-! ## What a session that closes gives up (R154) -/

/-- Beside the debug session that may close, it writes no register of the power unit and nothing non-volatile. -/
theorem givenUp_cases (s : State) (n : Nat) (x : Session) :
    ∃ u, (∀ F, Dj F 0x10004800000259 → Held s F u) ∧ (s.givenUp n x = u ∨ s.givenUp n x = u.debugClose) := by
  unfold State.givenUp
  extract_lets s1 s2 s3 s4
  refine ⟨s4, fun F hF => ?_, ?_⟩
  · have h1 : Held s F s1 := ite_ind (fun _ => held_abortStage (dj hF) held_self) (fun _ => held_self)
    have h2 : Held s F s2 := foldl_ind (fun _ _ h => ite_ind (fun _ => held_releaseQueue (dj hF) h) (fun _ => h)) h1
    have h3 : Held s F s3 := ite_ind (fun _ => held_abortRestore (dj hF) h2) (fun _ => h2)
    exact ite_ind (fun _ => held_exportEnd (dj hF) h3) (fun _ => h3)
  · split
    · exact .inr rfl
    · exact .inl rfl

/-! ## The watchdog (R143) -/

/-- Its time is up, and its expiry counted. -/
def State.expiryCounted (s : State) : State := (s.wr R.PWR_WATCHDOG_STATUS_REMAINING_MS 0).inc R.PWR_WATCHDOG_EXPIRIES
theorem expiryCounted_expiries (s : State) :
    s.expiryCounted.rd R.PWR_WATCHDOG_EXPIRIES = (s.rd R.PWR_WATCHDOG_EXPIRIES + 1) % 2 ^ 32 := by
  unfold State.expiryCounted State.inc
  rw [rd_wr_self _ _ _ rfl, rd_wr_apart _ _ _ _ rfl rfl]
  rfl
theorem expiries_showHung (s : State) : s.showHung.word R.PWR_WATCHDOG_EXPIRIES.addr = s.word R.PWR_WATCHDOG_EXPIRIES.addr := by
  have hdom (d : Nat) : ¬(R.PWR_DOMAIN_STATUS_HUNG d).addr = R.PWR_WATCHDOG_EXPIRIES.addr := by
    unfold R.PWR_DOMAIN_STATUS_HUNG Machine.inst R.PWR_WATCHDOG_EXPIRIES
    dsimp only
    split <;> omega
  suffices h : WordsKept (· = R.PWR_WATCHDOG_EXPIRIES.addr) s s.showHung from h _ rfl
  exact foldl_ind (fun _ d h => kept_wrB (hdom d) h) kept_self
theorem expiries_closeSession (s : State) (n : Nat) :
    (s.closeSession n).word R.PWR_WATCHDOG_EXPIRIES.addr = s.word R.PWR_WATCHDOG_EXPIRIES.addr := by
  cases h : s.session n with
  | none =>
    unfold State.closeSession
    rw [h]
  | some x =>
    rw [closeSession_eq h, expiries_showHung, word_send, modHq_word]
    obtain ⟨u, hu, e | e⟩ := givenUp_cases s n x <;> rw [e]
    · exact word_of_held hu rfl (by decide)
    · exact word_of_held (M := 0x30005c00a002db) (fun F hF => held_debugClose (dj hF) (hu F (dj hF))) rfl (by decide)
theorem expiries_closeAll (s : State) : s.closeAll.word R.PWR_WATCHDOG_EXPIRIES.addr = s.word R.PWR_WATCHDOG_EXPIRIES.addr :=
  foldl_ind (Q := fun t : State => t.word R.PWR_WATCHDOG_EXPIRIES.addr = s.word R.PWR_WATCHDOG_EXPIRIES.addr)
    (fun t n h => (expiries_closeSession t n).trans h) rfl
theorem expiries_ended (s : State) (cause reason : Nat) :
    (s.ended cause fun s => s.holdRings reason).rd R.PWR_WATCHDOG_EXPIRIES = s.rd R.PWR_WATCHDOG_EXPIRIES := by
  have hoff : ∀ F, Dj F 0x10401100a0010b → Held s F
      (((if s.powered then s.holdRings reason else s).recordTrip 0x1408 0 true (le 2 cause)).outputsOff) := fun F hF =>
    held_outputsOff (dj hF) (held_recordTrip (dj hF)
      (ite_ind (Q := Held s F) (fun _ => held_holdRings (dj hF) held_self) (fun _ => held_self)))
  unfold State.ended
  exact rd_congr ((expiries_closeAll _).trans (word_of_held hoff rfl (by decide)))
/-- The count of expiries survives the reset that the watchdog brings. -/
theorem expiries_turidReset (s : State) (cause reason : Nat) :
    (s.turidReset cause fun s => s.holdRings reason).rd R.PWR_WATCHDOG_EXPIRIES = s.rd R.PWR_WATCHDOG_EXPIRIES := by
  rw [rd_turidReset (by decide +kernel) (by decide) (by decide)]
  exact (rd_of_held (M := 0x900000007) (fun F hF => held_failStart hF held_self) rfl (by decide)).trans (expiries_ended s cause reason)

/-! ## The firmware images through a reset (R671) -/

theorem post_nv (s : State) (q code inst : Nat) (data : List Byte) : (s.post q code inst data).nv = s.nv :=
  (held_post (F := 2) (by decide) held_self).nv (by decide)
theorem flag_nv (s : State) (f : Fld) : (s.flag f).nv = s.nv :=
  (held_flag (F := 2) (by decide) held_self (off_any rfl)).nv (by decide)
theorem stopLog_fwA (s : State) : s.stopLog.nv.fwA = s.nv.fwA := by
  unfold State.stopLog
  rw [flag_nv, post_nv]
  rfl
theorem keepRec_fwA (s : State) (r : LogRec) : (s.keepRec r).nv.fwA = s.nv.fwA := by
  unfold State.keepRec
  extract_lets s1 s2 d s3
  split
  · rw [flag_nv, post_nv]
    rfl
  · rfl
theorem record_fwA (s : State) (w code inst : Nat) (data : List Byte) : (s.record w code inst data).nv.fwA = s.nv.fwA := by
  unfold State.record
  split
  · rfl
  · split
    · rfl
    · split
      · exact stopLog_fwA (s.inc R.REC_LOST)
      · exact keepRec_fwA s _
theorem recordTrip_fwA (s : State) (code inst : Nat) (holdUp : Bool) (data : List Byte) :
    (s.recordTrip code inst holdUp data).nv.fwA = s.nv.fwA := by
  unfold State.recordTrip
  extract_lets s1 r
  have h1 : s1.nv.fwA = s.nv.fwA := ite_ind (Q := fun t : State => t.nv.fwA = s.nv.fwA) (fun _ => stopLog_fwA s) (fun _ => rfl)
  have htrip : (s1.tripRec r).nv.fwA = s1.nv.fwA :=
    ite_ind (Q := fun t : State => t.nv.fwA = s1.nv.fwA) (fun _ => rfl) (fun _ => rfl)
  rw [← h1]
  split
  · rfl
  · split
    · exact htrip
    · exact keepRec_fwA s1 r
theorem secEvent_fwA (s : State) (e : EvDef) (data : List Byte) : (s.secEvent e data).nv.fwA = s.nv.fwA := by
  unfold State.secEvent State.raise
  rw [flag_nv]
  dsimp only
  split
  · rw [record_fwA, post_nv]
  · rw [post_nv]
theorem debugClose_fwA (s : State) : s.debugClose.nv.fwA = s.nv.fwA := by
  have hcores : ∀ t : State, t.showCores.nv = t.nv := fun _ => (held_showCores (F := 2) (by decide) held_self).nv (by decide)
  unfold State.debugClose
  split
  · rw [secEvent_fwA, hcores]
    rfl
  · rfl
theorem closeSession_fwA (s : State) (n : Nat) : (s.closeSession n).nv.fwA = s.nv.fwA := by
  cases h : s.session n with
  | none =>
    unfold State.closeSession
    rw [h]
  | some x =>
    rw [closeSession_eq h, (held_showHung (F := 2) (by decide) held_self).nv (by decide), send_nv, modHq_nv]
    obtain ⟨u, hu, e | e⟩ := givenUp_cases s n x <;> rw [e]
    · rw [(hu 2 (by decide)).nv (by decide)]
    · rw [debugClose_fwA, (hu 2 (by decide)).nv (by decide)]
theorem closeAll_fwA (s : State) : s.closeAll.nv.fwA = s.nv.fwA := by
  unfold State.closeAll
  exact foldl_ind (Q := fun t : State => t.nv.fwA = s.nv.fwA) (fun t n h => (closeSession_fwA t n).trans h) rfl
theorem failStart_fwA (s : State) (code : Nat) : (s.failStart code).nv.fwA = s.nv.fwA := by
  have hslots : ∀ (t : State) (trial : Bool), (t.failSlots trial).nv = t.nv := fun t trial =>
    (held_failSlots (F := 2) (by decide) held_self).nv (by decide)
  have hfail : (s.enterFail code (s.rd R.PWR_POWER_CYCLES) s.opSec).nv = s.nv :=
    (held_enterFail (F := 2) (by decide) held_self).nv (by decide)
  unfold State.failStart
  split
  · rw [hslots]
  · show ((s.enterFail code (s.rd R.PWR_POWER_CYCLES) s.opSec).failSlots true).nv.fwA = _
    rw [hslots, hfail]
/-- A reset without HOLD leaves the image that slot A holds. -/
theorem turidReset_fwA (s : State) (cause : Nat) : (s.turidReset cause fun s => s).nv.fwA = s.nv.fwA := by
  rw [turidReset_eq, modBoll_nv, wr_nv, wipe_nv, failStart_fwA]
  unfold State.ended
  rw [closeAll_fwA, ite_self]
  exact recordTrip_fwA s _ _ _ _

/-! ## A firmware image committed in recovery (R671) -/

/-- The image verified stands in slot A; image B is the one it displaces, where that was sound and another version. -/
def State.fwTaken (s : State) (new : FwImage) : State :=
  let floor := s.rd R.SEC_FW_FLOOR
  let a := s.nv.fwA
  s.modNv fun n => { n with fwB := if a.ok floor && a.version != new.version then a else n.fwB, fwA := new }
theorem held_fwTaken {b s : State} {F : Nat} (new : FwImage) (hF : Dj F 2) (hs : Held b F s) : Held b F (s.fwTaken new) := by
  unfold State.fwTaken
  exact held_modNv hF hs
/-- The request is answered, and the Turid starts again with the image. -/
def State.fwStart (s : State) (sess tag : Nat) (new : FwImage) : State :=
  (((s.stageGone.fwTaken new).loadCode OK).reply sess tag 0x32 OK []).turidReset 0x010B fun s => s
/-- A complete image of a version from the floor on is taken, answered and started. -/
theorem fwCommit_taken {s : State} {sess tag version floor : Nat} {g : Staging} (hg : s.ownStage sess = some g) (hk : g.kind = 2)
    (hlen : g.bytes.length = g.len) (hv : s.rd R.SEC_FW_FLOOR ≤ version) :
    s.fwCommit sess tag true version floor = s.fwStart sess tag ⟨true, version, floor⟩ := by
  have hfloor : s.stageGone.rd R.SEC_FW_FLOOR = s.rd R.SEC_FW_FLOOR :=
    rd_of_held (M := 0x800000011) (fun F hF => held_stageGone hF held_self) rfl (by decide)
  unfold State.fwCommit
  rw [hg]
  dsimp only
  rw [if_neg (by omega), if_neg (by omega), if_pos (by rw [FwImage.ok, hfloor, Bool.true_and]; exact decide_eq_true hv)]
  rfl

theorem ownStage_setSession {s : State} {n : Nat} {x y : Session} (hx : s.session n = some x) (hu : y.uid = x.uid) :
    (s.setSession n y).ownStage n = s.ownStage n := by
  unfold State.ownStage
  rw [session_setSession, hx]
  simp only [Option.any_some, hu]
  rfl
/-- The answer goes out before the reset, which leaves the image. -/
theorem fwStart_tells {s u : State} {sess tag : Nat} {y : Session} (hu : Held s 0 u) (hy : u.session sess = some y) (new : FwImage) :
    (u.fwStart sess tag new).boll.phase = Phase.power ∧ (u.fwStart sess tag new).boll.cause = 0x010B ∧
      (u.fwStart sess tag new).hq.sessions = [] ∧ (u.fwStart sess tag new).answers s sess tag 0x32 OK [] ∧
      (u.fwStart sess tag new).nv.fwA = new := by
  unfold State.fwStart
  generalize hw : (u.stageGone.fwTaken new).loadCode OK = w
  have hheld : Held s 0 w := hw ▸ held_loadCode rfl (held_fwTaken new rfl (held_stageGone rfl hu))
  have hsession : w.session sess = some y := hw ▸ hy
  have himage : w.nv.fwA = new := hw ▸ rfl
  obtain ⟨hphase, hcause, hsessions, -⟩ :=
    turidReset_resetUnder (s := w.reply sess tag 0x32 OK []) (cause := 0x010B) keepsBollard_none (by decide)
  refine ⟨hphase, hcause, hsessions, sends_within (reply_answers hheld hsession) (held_self (F := 0))
    (held_turidReset (F := 0) rfl held_self (fun _ h => h)), ?_⟩
  rw [turidReset_fwA, (held_reply (F := 2) (by decide) held_self).nv (by decide), himage]

/-! ## The statement -/

/-- Settles O18: every row commands a reset of all but the Bollard domain, of which `turidReset_resetUnder` says what it leaves; the
latch by `turidReset_attempt`, the expiries by `expiries_turidReset`, the firmware image by `fwStart_tells`. -/
theorem startsEndInAReset : Obligations.StartsEndInAReset := by
  unfold Obligations.StartsEndInAReset
  refine ⟨?stageTimeout, ?bootTimeout, ?startTimeout, ?hostReset, ?attemptStart, ?brownOut, ?firmwareFatal, ?engineHaltTimeout,
    ?watchdogExpiry, ?thermalTrip, ?firmwareCommit⟩
  case stageTimeout =>
    intro s hp hst
    have hrun : exec .stageTimeout s = .next (s.stageFail (s.stage * 256 + 0xFF)) := by
      show execStageTimeout s = _
      unfold execStageTimeout
      rw [phase_of_powered hp]
      dsimp only
      rw [if_neg (by omega), if_pos hst]
    exact ⟨_, hrun, stageFail_resetUnder s (by omega)⟩
  case bootTimeout =>
    intro s hp hst
    have hrun : exec .stageTimeout s = .next (s.stageFail (if s.techsPassed then 0x03FF else 0x04FF)) := by
      show execStageTimeout s = _
      unfold execStageTimeout
      rw [phase_of_powered hp]
      exact congrArg _ (if_pos hst)
    exact ⟨_, hrun, stageFail_resetUnder s (ite_ind (Q := (· < 2 ^ 32)) (fun _ => by decide) (fun _ => by decide))⟩
  case startTimeout =>
    intro s hp hst
    have hrun : exec .startTimeout s = .next (s.faultReset 0x0109) := by
      show execStartTimeout s = _
      unfold execStartTimeout
      rw [if_pos hp, if_pos hst]
    exact ⟨_, hrun, faultReset_resetUnder s (by decide)⟩
  case hostReset =>
    intro sess s hr hb hrec
    have hrun : exec (.hostReset sess 0xA5) s = .next ((s.wr R.SYS_START_STATUS_CONTROL_RESULT 1).hostReset 0x0105) := by
      show execHostReset sess 0xA5 s = _
      unfold execHostReset
      rw [hb, startControl_accepted _ hr hrec]
    exact ⟨_, hrun, hostReset_resetUnder (s.wr R.SYS_START_STATUS_CONTROL_RESULT 1) (by decide)⟩
  case attemptStart =>
    intro sess s hr hm hrec
    have hrun : exec (.attemptStart sess 0xA5) s = .next (s.attemptLatched.hostReset 0x010C) := by
      show execAttemptStart sess 0xA5 s = _
      unfold execAttemptStart
      rw [hm, startControl_accepted _ hr hrec]
      rfl
    exact ⟨_, hrun, hostReset_resetUnder s.attemptLatched (by decide), turidReset_attempt keepsBollard_hostReset⟩
  case brownOut => exact fun s hp => ⟨_, rfl, faultCause_resetUnder hp (by decide)⟩
  case firmwareFatal => exact fun s hp => ⟨_, rfl, faultCause_resetUnder hp (by decide)⟩
  case engineHaltTimeout =>
    intro s hp he
    have hrun : exec .engineHaltTimeout s = .next (s.faultReset 0x0106) := by
      show execEngineHaltTimeout s = _
      unfold execEngineHaltTimeout
      rw [hp, he]
      rfl
    exact ⟨_, hrun, faultReset_resetUnder s (by decide)⟩
  case watchdogExpiry =>
    intro s hp hon
    have hrun : exec .watchdogExpiry s = .next (s.expiryCounted.turidReset 0x0104 fun s => s.holdRings 1) := by
      show execWatchdogExpiry s = _
      unfold execWatchdogExpiry
      rw [if_pos hp, if_pos hon]
      rfl
    exact ⟨_, hrun, turidReset_resetUnder (s := s.expiryCounted) (keepsBollard_holdRings 1) (by decide),
      (expiries_turidReset ..).trans (expiryCounted_expiries s)⟩
  case thermalTrip => exact fun s hp => ⟨_, rfl, faultCause_resetUnder hp (by decide)⟩
  case firmwareCommit =>
    intro sess tag version floor g s hrec htakes hg hk hlen hv
    obtain ⟨x, hx, -, hhelm⟩ := helm_takes htakes (.firmwareCommit sess tag true version floor) fun s =>
      s.fwCommit sess tag true version floor
    have hg' := (ownStage_setSession (y := { x with tags := tag :: x.tags }) hx rfl).trans hg
    have hrun : exec (.firmwareCommit sess tag true version floor) s =
        .next ((s.setSession sess { x with tags := tag :: x.tags }).fwStart sess tag ⟨true, version, floor⟩) := by
      show execFirmwareCommit sess tag true version floor s = _
      unfold execFirmwareCommit
      rw [if_pos hrec, hhelm, fwCommit_taken hg' hk hlen hv]
    exact ⟨_, hrun, fwStart_tells (held_setSession rfl held_self) (session_setSession ..) _⟩

end Sys2Proof.Machine
end

section
/-!
PROOFS. The waiting commands are worked off one step at a time (R174, R175, R716; log 1).
-/
namespace Sys2Proof.Machine
open Sys2Proof

/-- Settles O1: `step` as it is defined. -/
theorem stepRunsTheFront : Obligations.StepRunsTheFront := by
  unfold Obligations.StepRunsTheFront
  intro c rest s
  rfl
theorem step_idle {s : State} (h : s.pending = []) : step s = .next s := by
  unfold step
  rw [h]
/-- Settles O2: by `step_idle`. -/
theorem emptyQueueIdles : Obligations.EmptyQueueIdles := by
  unfold Obligations.EmptyQueueIdles
  exact fun _ h => step_idle h

theorem step_completes (s : State) : Completes (step s) := by
  unfold step
  split
  · exact completes_next s
  · exact exec_completes _ _
theorem after_succ {s t : State} (h : step s = .next t) (n : Nat) : s.after (n + 1) = t.after n := by
  simp [State.after, h]
/-- What any number of steps leaves: the commands behind those that it took, and all that was sent. -/
theorem after_takes (n : Nat) (s : State) :
    ∃ t, s.after n = some t ∧ t.pending = s.pending.drop n ∧ s.out <:+ t.out ∧ (s.Sound → t.Sound) := by
  induction n generalizing s with
  | zero => exact ⟨s, rfl, rfl, List.suffix_refl _, id⟩
  | succ n ih =>
    obtain ⟨t, ht⟩ := step_completes s
    obtain ⟨u, hu, hqueue, hout, hsound⟩ := ih t
    refine ⟨u, (after_succ ht n).trans hu, ?_, (step_out ht).trans hout, fun h => hsound (everyStepKeepsTheStateSound s t h ht)⟩
    rw [hqueue, step_pending ht, List.drop_tail]
/-- Settles O9: by `after_takes`, an induction over the steps. -/
theorem theQueueIsWorkedOffInOrder : Obligations.TheQueueIsWorkedOffInOrder := by
  unfold Obligations.TheQueueIsWorkedOffInOrder
  exact fun n s _ => after_takes n s

end Sys2Proof.Machine
end

section
/-!
PROOFS. The roles that SESSION_ROLE grants (R156).
-/
namespace Sys2Proof.Machine
open Sys2Proof

theorem granted_lt (mask certRoles : Nat) : granted mask certRoles < 256 := by
  unfold granted
  have hmask : mask % 256 &&& effRoles certRoles < 2 ^ 8 := Nat.lt_of_le_of_lt Nat.and_le_left (by omega)
  exact Nat.or_lt_two_pow hmask (by decide)
/-- Role by role: observer always, any other where the mask asks for it and the certificate lists it. -/
theorem granted_testBit (mask certRoles : Nat) {i : Nat} (hi : i < 8) :
    (granted mask certRoles).testBit i = (i == 0 || (mask.testBit i && (effRoles certRoles).testBit i)) := by
  have hmask : (mask % 256).testBit i = mask.testBit i := by
    rw [show 256 = 2 ^ 8 from rfl, Nat.testBit_mod_two_pow, decide_eq_true hi, Bool.true_and]
  have hone : (1 : Nat).testBit i = (i == 0) := by cases i <;> simp [Nat.testBit_add_one]
  unfold granted
  rw [Nat.testBit_or, Nat.testBit_and, hmask, hone, Bool.or_comm]
/-- Settles O11: the answer by `roleMsg_replies`, the roles granted by `granted_testBit`. -/
theorem rolesFollowTheCertificate : Obligations.RolesFollowTheCertificate := by
  unfold Obligations.RolesFollowTheCertificate
  intro n tag mask x s h hx
  obtain ⟨u, hheld, hu, hmsg⟩ := roleMsg_replies (mask := mask) h hx
  refine ⟨s.roleMsg n tag mask, rfl, granted mask x.certRoles, ?_, ?_, granted_lt _ _, fun i hi => granted_testBit _ _ hi⟩
  · rw [hmsg]
    exact reply_answers hheld hu
  · rw [hmsg, reply_roles, hu]
    rfl

end Sys2Proof.Machine
end

section
/-!
PROOFS. Control writes without their key or role (R164, R717).
-/
namespace Sys2Proof.Machine
open Sys2Proof

/-- A row whose condition does not hold leaves the state as it is. -/
theorem next_ite_not {c : Prop} [Decidable c] {t s : State} (h : ¬c) : (.next (if c then t else s) : Res State) = .next s :=
  congrArg _ (if_neg h)
/-- A write of `SYS_START_CONTROL` with another key does nothing (R721). -/
theorem startControl_ignored {s : State} {sess key : Nat} {ok : Bool} {f : State → State} (h : key ≠ 0xA5) :
    s.startControl sess key ok f = s := if_pos (.inl h)
theorem safKeyed_of_unkeyed {s : State} {sess key : Nat} (h : s.keyed sess key = false) : s.safKeyed sess key = false := by
  unfold State.safKeyed
  rw [h, Bool.false_and, Bool.false_and]

/-- Settles O10: every row's condition begins with the key, and its negation leaves the state (`next_ite_not`). -/
theorem controlWritesNeedTheirKey : Obligations.ControlWritesNeedTheirKey := by
  unfold Obligations.ControlWritesNeedTheirKey
  refine ⟨?hostReset, ?attemptStart, ?enterBerth, ?cancelBerth, ?pwrDomainReset, ?abortStage, ?abortPatch, ?closeSession,
    ?releaseOwner, ?retrain, ?xngClearCounters, ?estClearCounters, ?abortRestore, ?pltProtClearCounters, ?pltDispClearCounters,
    ?returnToSource, ?loopClearCounters, ?syncArm, ?syncDisarm, ?pwmClearCounters, ?grpClearCounters, ?carClearCounters,
    ?posClearCounters, ?clearFault, ?doorClearCounters, ?clearEnvelope, ?safetyConfirm, ?resetFunction, ?repairAck,
    ?safClearCounters, ?fioClearCounters, ?mbcClearCounters, ?restrict, ?unrestrict, ?inhibitRecovery, ?allowRecovery,
    ?serClearCounters, ?netClearCounters, ?acqClearCounters, ?clearTrace, ?secClearCounters⟩
  -- the start control judges the key first
  case hostReset | attemptStart => exact fun _ _ _ h => congrArg _ (startControl_ignored h)
  -- an open session and the key
  case enterBerth => exact fun _ _ _ h => next_ite_not (by simp [h])
  case pwrDomainReset => exact fun _ _ _ _ h => next_ite_not (by simp [h])
  case safetyConfirm => exact fun _ _ _ h => next_ite_not fun hc => h hc.1
  -- the row acts under a condition that begins with the keyed write of an engineer
  case cancelBerth | abortStage | abortPatch | safClearCounters | fioClearCounters | netClearCounters | acqClearCounters |
    clearTrace | secClearCounters =>
    exact fun _ _ _ h => next_ite_not (by simp [h])
  case estClearCounters | abortRestore | pltProtClearCounters | pltDispClearCounters | returnToSource | loopClearCounters |
    syncArm | syncDisarm | pwmClearCounters | grpClearCounters =>
    exact fun _ _ _ h => if_neg (by simp [h])
  case closeSession | releaseOwner | mbcClearCounters | restrict | unrestrict | inhibitRecovery | allowRecovery |
    serClearCounters =>
    exact fun _ _ _ _ h => next_ite_not (by simp [h])
  case retrain | xngClearCounters | carClearCounters | posClearCounters | doorClearCounters | clearEnvelope =>
    exact fun _ _ _ _ h => if_neg (by simp [h])
  case clearFault => exact fun _ _ _ _ _ _ h => if_neg (by simp [h])
  case repairAck => exact fun _ _ _ _ _ _ h => next_ite_not (by simp [safKeyed_of_unkeyed h])
  case resetFunction =>
    intro sess key fn s h
    show execResetFunction sess key fn s = _
    unfold execResetFunction
    split
    · exact next_ite_not (by simp [safKeyed_of_unkeyed h])
    · rfl

end Sys2Proof.Machine
end

section
/-!
PROOFS. What the Helm, queue, security, debug and recorder rows leave unchanged (R154, R158, R174, R182, R643, R673).
-/
namespace Sys2Proof.Machine
open Sys2Proof

section
variable {A : Nat → Prop} {b0 s : State}

theorem kept_complete {q status result : Nat} (hs : WordsKept A b0 s) : WordsKept A b0 (s.complete q status result) :=
  fun a ha => (word_complete a).trans (hs a ha)
theorem kept_incSat {f : Fld} (hf : ¬A f.addr) (hs : WordsKept A b0 s) : WordsKept A b0 (s.incSat f) :=
  ite_ind (fun _ => kept_wr hf hs) (fun _ => hs)
theorem kept_secEvent {e : EvDef} {data : List Byte} (he : e.queue < 4) (hq : ∀ a, hqReg a → ¬A a) (hr : ∀ a, recReg a → ¬A a)
    (hst : ¬A R.SEC_EVENT_STATUS.addr) (hs : WordsKept A b0 s) : WordsKept A b0 (s.secEvent e data) :=
  kept_flag hq hst (kept_raise he hq hr hs)
/-- Whether the queue runs the row's command or not. -/
theorem kept_onCmd {t : State} {q code : Nat} {f : Cmd → State → State} (ht : s.onCmd q code f = .next t)
    (hf : ∀ c, WordsKept A s (f c s)) : WordsKept A s t := by
  unfold State.onCmd at ht
  split at ht
  · obtain rfl := Host.Outcome.next.inj ht
    exact kept_self
  · split at ht
    · obtain rfl := Host.Outcome.next.inj ht
      exact hf _
    · obtain rfl := Host.Outcome.next.inj ht
      exact kept_self
/-- A key update writes the status of a slot from 4 to 6 (R670). -/
theorem kept_keyUpdate {q : Nat} {c : Cmd} (hq : ∀ a, hqReg a → ¬A a) (hr : ∀ a, recReg a → ¬A a)
    (hev : ¬A R.SEC_EVENT_STATUS.addr) (hfail : ¬A R.SEC_SIG_FAILS.addr)
    (hkey : ∀ slot, 4 ≤ slot → slot ≤ 6 → ¬A (R.SEC_KEY_STATUS slot).addr) (hs : WordsKept A b0 s) :
    WordsKept A b0 (s.keyUpdate q c) := by
  have refused : ∀ st, WordsKept A b0 (s.complete q st 0) := fun _ => kept_complete hs
  unfold State.keyUpdate
  extract_lets r slot curve
  refine ite_ind (fun _ => refused _) (fun _ => ite_ind (fun _ => refused _) (fun _ => ite_ind (fun _ => refused _) (fun hform =>
    ite_ind (fun _ => refused _) (fun _ => ite_ind (fun _ => refused _) (fun _ => ite_ind (fun _ => ?_)
      (fun _ => kept_complete (kept_inc hfail hs)))))))
  have hput : WordsKept A b0 (s.putKey slot curve ((r.drop 0x18).take (if curve = 1 then 64 else 96))) :=
    kept_wr (hkey slot (by omega) (by omega)) (kept_regs hs rfl)
  exact kept_complete (kept_secEvent (by decide) hq hr hev (kept_regs hput rfl))
end


/-! ## Which registers single operations write -/

theorem listed_rec {rs : List Fld} : ∀ a, recReg a → ¬Unlisted [Blk.hq, Blk.rec] rs a := by
  rintro a ⟨hlo, hhi⟩ ⟨-, hA⟩
  have hblk : inBlk [Blk.hq, Blk.rec] a = true := by
    unfold inBlk
    rw [blockNo_range (k := 20) hlo hhi]
    rfl
  rw [hblk] at hA
  cases hA
/-- An access to the staging buffer moves the index on (R677). -/
theorem kept_stageData {A : Nat → Prop} {b0 s : State} {write : Bool} {v : Word} (hi : ¬A R.SEC_STAGE_INDEX.addr)
    (hs : WordsKept A b0 s) : WordsKept A b0 (s.stageData write v).2 := by
  unfold State.stageData
  exact kept_wr (f := R.SEC_STAGE_INDEX.part 0 6) hi (ite_ind (fun _ => kept_regs hs rfl) (fun _ => hs))
/-- An access to debug memory writes its address, its status and the count of refusals (R681). -/
theorem kept_memAccess {A : Nat → Prop} {b0 s : State} {sess : Nat} {write : Bool} {v : Word} (hlo : ¬A R.DBG_MEM_ADDR_LO.addr)
    (hhi : ¬A R.DBG_MEM_ADDR_HI.addr) (hst : ¬A R.DBG_MEM_STATUS.addr) (href : ¬A R.DBG_REFUSED.addr) (hs : WordsKept A b0 s) :
    WordsKept A b0 (s.memAccess sess write v).2 := by
  unfold State.memAccess
  extract_lets a may next t
  refine ite_ind (Q := fun x : Word × State => WordsKept A b0 x.2) (fun _ => kept_wr (f := R.DBG_MEM_STATUS.part 0 2) hst (kept_inc href hs))
    (fun _ => ?_)
  have ht : WordsKept A b0 t := kept_wr (f := R.DBG_MEM_STATUS.part 0 2) hst (kept_wr hhi (kept_wr hlo hs))
  refine ite_ind (Q := fun x : Word × State => WordsKept A b0 x.2) (fun _ => kept_regs ht rfl) (fun _ => ?_)
  split
  · exact ht
  · exact kept_regs ht rfl
/-! ## The statement -/

/-- Settles O48: by `runs_keeps` from the mask of each row, and by `runs_keeps_words` for the rows whose registers are told one by one. -/
theorem helmQueueSecurityDebugAndRecorderFrames : Obligations.HelmQueueSecurityDebugAndRecorderFrames := by
  unfold Obligations.HelmQueueSecurityDebugAndRecorderFrames
  refine ⟨?counterLowWordRead, ?counterHighWordWrite, ?opMsRead, ?helmConnect, ?tlsHandshakeTimeout, ?sessionIdleTimeout,
    ?helmDisconnect, ?bulkRead, ?queuePush, ?queueAck, ?fence, ?subscribe, ?sessionRole, ?restoreLearned, ?badTypeMessage,
    ?oversizeMessage, ?commandPromotion, ?fenceComplete, ?fenceTimeout, ?eventSend, ?closeSession, ?releaseOwner,
    ?standingRefresh, ?partnerSilenceTimeout, ?xngClearCounters, ?estClearCounters, ?pltProtClearCounters,
    ?pltDispClearCounters, ?loopClearCounters, ?pwmClearCounters, ?grpClearCounters, ?carClearCounters, ?posClearCounters,
    ?doorClearCounters, ?safClearCounters, ?fioClearCounters, ?mbcClearCounters, ?serClearCounters, ?netClearCounters,
    ?acqClearCounters, ?appendCheckpoint, ?exportCmd, ?exportStreamResume, ?exportStop, ?clearLog, ?clearCommit, ?zeroingDone,
    ?returnPrepare, ?returnPrepareExpiry, ?returnCommit, ?clearTrace, ?traceSync, ?provision, ?sealing, ?resetCommissioning,
    ?keyUpdate, ?revoke, ?debugOpen, ?debugClose, ?debugExpiryCheck, ?enrolNode, ?readNodeRequest, ?firmwareUpdate,
    ?secClearCounters, ?stageIndexWrite, ?stageDataAccess, ?tamperTrip, ?tamperResetRelease, ?dbgHaltRequestWrite,
    ?coreHaltEffective, ?haltDeferralEnd, ?dbgMemAccess, ?siteTagWrite, ?rngHealthTestFailure, ?breakpointHit,
    ?tlsHandshakeComplete⟩
  case counterLowWordRead => exact fun _ _ _ => runs_keeps (fun _ hF => held_execCounterLowWordRead hF held_self) (by decide)
  case counterHighWordWrite =>
    exact fun _ _ _ _ => runs_keeps (fun _ hF => held_execCounterHighWordWrite hF held_self) (by decide)
  case opMsRead => exact fun _ _ => runs_keeps (fun _ hF => held_execOpMsRead hF held_self) (by decide)
  case helmConnect =>
    refine fun _ _ => runs_keeps_words rfl (fun _ hF => held_execHelmConnect hF held_self) (by decide)
      (ite_ind (fun _ => ?_) (fun _ => kept_self))
    split
    · exact kept_regs kept_self rfl
    · exact kept_inc (listed_reg rfl) kept_self
  case tlsHandshakeTimeout =>
    exact fun _ _ => runs_keeps_words rfl (fun _ hF => held_execTlsHandshakeTimeout hF held_self) (by decide)
      (ite_ind (fun _ => kept_regs (kept_inc (f := R.NET_TLS_FAILURES) (listed_reg rfl) kept_self) rfl) (fun _ => kept_self))
  case sessionIdleTimeout => exact fun _ _ => runs_keeps (fun _ hF => held_execSessionIdleTimeout hF held_self) (by decide)
  case helmDisconnect => exact fun _ _ => runs_keeps (fun _ hF => held_execHelmDisconnect hF held_self) (by decide)
  case bulkRead => exact fun _ _ _ _ _ => runs_keeps (fun _ hF => held_execBulkRead hF held_self) (by decide)
  case queuePush => exact fun _ _ _ _ _ => runs_keeps (fun _ hF => held_execQueuePush hF held_self) (by decide)
  case queueAck => exact fun _ _ _ _ _ => runs_keeps (fun _ hF => held_execQueueAck hF held_self) (by decide)
  case fence => exact fun _ _ _ _ _ _ => runs_keeps (fun _ hF => held_execFence hF held_self) (by decide)
  case subscribe => exact fun _ _ _ _ _ => runs_keeps (fun _ hF => held_execSubscribe hF held_self) (by decide)
  case sessionRole => exact fun _ _ _ _ => runs_keeps (fun _ hF => held_execSessionRole hF held_self) (by decide)
  case restoreLearned => exact fun _ _ _ _ _ _ _ _ => runs_keeps (fun _ hF => held_execRestoreLearned hF held_self) (by decide)
  case badTypeMessage =>
    exact fun _ _ _ s hmis hlen => ⟨_, rfl, keeps_of_held (F := restOf 0x800800009) _
      (held_helmBytes_misspelt hmis hlen _ (by decide)) (by decide)⟩
  case oversizeMessage => exact fun _ _ _ => runs_keeps (fun _ hF => held_execOversizeMessage hF held_self) (by decide)
  case commandPromotion => exact fun _ _ _ => runs_keeps (fun _ hF => held_execCommandPromotion hF held_self) (by decide)
  case fenceComplete => exact fun _ _ => runs_keeps (fun _ hF => held_execFenceComplete hF held_self) (by decide)
  case fenceTimeout => exact fun _ _ _ => runs_keeps (fun _ hF => held_execFenceTimeout hF held_self) (by decide)
  case eventSend => exact fun _ _ _ => runs_keeps (fun _ hF => held_execEventSend hF held_self) (by decide)
  case closeSession => exact fun _ _ _ _ => runs_keeps (fun _ hF => held_execCloseSession hF held_self) (by decide)
  case releaseOwner => exact fun _ _ _ _ => runs_keeps (fun _ hF => held_execReleaseOwner hF held_self) (by decide)
  case standingRefresh => exact fun _ => runs_keeps (fun _ hF => held_execStandingRefresh hF held_self) (by decide)
  case partnerSilenceTimeout => exact fun _ _ _ s => runs_keeps (M := 0) (fun _ _ => heldR_next (held_self (b := s))) (by decide)
  case xngClearCounters => exact fun _ _ _ _ => runs_keeps (fun _ hF => held_execXngClearCounters hF held_self) (by decide)
  case estClearCounters => exact fun _ _ _ => runs_keeps (fun _ hF => held_execEstClearCounters hF held_self) (by decide)
  case pltProtClearCounters =>
    exact fun _ _ _ => runs_keeps (fun _ hF => held_execPltProtClearCounters hF held_self) (by decide)
  case pltDispClearCounters =>
    exact fun _ _ _ => runs_keeps (fun _ hF => held_execPltDispClearCounters hF held_self) (by decide)
  case loopClearCounters => exact fun _ _ _ => runs_keeps (fun _ hF => held_execLoopClearCounters hF held_self) (by decide)
  case pwmClearCounters => exact fun _ _ _ => runs_keeps (fun _ hF => held_execPwmClearCounters hF held_self) (by decide)
  case grpClearCounters => exact fun _ _ _ => runs_keeps (fun _ hF => held_execGrpClearCounters hF held_self) (by decide)
  case carClearCounters => exact fun _ _ _ _ => runs_keeps (fun _ hF => held_execCarClearCounters hF held_self) (by decide)
  case posClearCounters => exact fun _ _ _ _ => runs_keeps (fun _ hF => held_execPosClearCounters hF held_self) (by decide)
  case doorClearCounters => exact fun _ _ _ _ => runs_keeps (fun _ hF => held_execDoorClearCounters hF held_self) (by decide)
  case safClearCounters => exact fun _ _ _ => runs_keeps (fun _ hF => held_execSafClearCounters hF held_self) (by decide)
  case fioClearCounters => exact fun _ _ _ => runs_keeps (fun _ hF => held_execFioClearCounters hF held_self) (by decide)
  case mbcClearCounters => exact fun _ _ _ _ => runs_keeps (fun _ hF => held_execMbcClearCounters hF held_self) (by decide)
  case serClearCounters => exact fun _ _ _ _ => runs_keeps (fun _ hF => held_execSerClearCounters hF held_self) (by decide)
  case netClearCounters => exact fun _ _ _ => runs_keeps (fun _ hF => held_execNetClearCounters hF held_self) (by decide)
  case acqClearCounters => exact fun _ _ _ => runs_keeps (fun _ hF => held_execAcqClearCounters hF held_self) (by decide)
  case appendCheckpoint => exact fun _ => runs_keeps (fun _ hF => held_execAppendCheckpoint hF held_self) (by decide)
  case exportCmd => exact fun _ _ => runs_keeps (fun _ hF => held_execExportCmd hF held_self) (by decide)
  case exportStreamResume => exact fun _ => runs_keeps (fun _ hF => held_execExportStreamResume hF held_self) (by decide)
  case exportStop => exact fun _ _ => runs_keeps (fun _ hF => held_execExportStop hF held_self) (by decide)
  case clearLog => exact fun _ _ => runs_keeps (fun _ hF => held_execClearLog hF held_self) (by decide)
  case clearCommit => exact fun _ => runs_keeps (fun _ hF => held_execClearCommit hF held_self) (by decide)
  case zeroingDone => exact fun _ => runs_keeps (fun _ hF => held_execZeroingDone hF held_self) (by decide)
  case returnPrepare => exact fun _ _ => runs_keeps (fun _ hF => held_execReturnPrepare hF held_self) (by decide)
  case returnPrepareExpiry => exact fun _ => runs_keeps (fun _ hF => held_execReturnPrepareExpiry hF held_self) (by decide)
  case returnCommit => exact fun _ _ => runs_keeps (fun _ hF => held_execReturnCommit hF held_self) (by decide)
  case clearTrace => exact fun _ _ _ => runs_keeps (fun _ hF => held_execClearTrace hF held_self) (by decide)
  case traceSync => exact fun _ => runs_keeps (fun _ hF => held_execTraceSync hF held_self) (by decide)
  case provision => exact fun _ _ => runs_keeps (fun _ hF => held_execProvision hF held_self) (by decide)
  case sealing => exact fun _ _ => runs_keeps (fun _ hF => held_execSeal hF held_self) (by decide)
  case resetCommissioning => exact fun _ _ => runs_keeps (fun _ hF => held_execResetCommissioning hF held_self) (by decide)
  case keyUpdate =>
    intro q s
    obtain ⟨t, ht⟩ := exec_completes (.keyUpdate q) s
    refine runs_keeps_words ht (fun _ hF => held_execKeyUpdate hF held_self) (by decide) (kept_onCmd ht fun c =>
      kept_keyUpdate (listed_hq rfl) listed_rec (listed_reg rfl) (listed_reg rfl) (fun slot hlo hhi => ?_) kept_self)
    obtain rfl | rfl | rfl : slot = 4 ∨ slot = 5 ∨ slot = 6 := by omega
    all_goals exact listed_reg rfl
  case revoke => exact fun _ _ => runs_keeps (fun _ hF => held_execRevoke hF held_self) (by decide)
  case debugOpen => exact fun _ _ => runs_keeps (fun _ hF => held_execDebugOpen hF held_self) (by decide)
  case debugClose => exact fun _ _ => runs_keeps (fun _ hF => held_execDebugClose hF held_self) (by decide)
  case debugExpiryCheck => exact fun _ => runs_keeps (fun _ hF => held_execDebugExpiryCheck hF held_self) (by decide)
  case enrolNode => exact fun _ _ => runs_keeps (fun _ hF => held_execEnrolNode hF held_self) (by decide)
  case readNodeRequest => exact fun _ _ => runs_keeps (fun _ hF => held_execReadNodeRequest hF held_self) (by decide)
  case firmwareUpdate => exact fun _ _ => runs_keeps (fun _ hF => held_execFirmwareUpdate hF held_self) (by decide)
  case secClearCounters => exact fun _ _ _ => runs_keeps (fun _ hF => held_execSecClearCounters hF held_self) (by decide)
  case stageIndexWrite =>
    exact fun _ _ _ => runs_keeps_words rfl (fun _ hF => held_execStageIndexWrite hF held_self) (by decide)
      (ite_ind (fun _ => kept_regs (kept_wr (f := R.SEC_STAGE_INDEX) (listed_reg rfl) kept_self) rfl) (fun _ => kept_self))
  case stageDataAccess =>
    exact fun _ _ _ _ => runs_keeps_words rfl (fun _ hF => held_execStageDataAccess hF held_self) (by decide)
      (ite_ind (fun _ => kept_stageData (listed_reg rfl) kept_self) (fun _ => kept_self))
  case tamperTrip => exact fun _ _ => runs_keeps (fun _ hF => held_execTamperTrip hF held_self) (by decide)
  case tamperResetRelease => exact fun _ => runs_keeps (fun _ hF => held_execTamperResetRelease hF held_self) (by decide)
  case dbgHaltRequestWrite => exact fun _ _ _ => runs_keeps (fun _ hF => held_execDbgHaltRequestWrite hF held_self) (by decide)
  case coreHaltEffective => exact fun _ _ => runs_keeps (fun _ hF => held_execCoreHaltEffective hF held_self) (by decide)
  case haltDeferralEnd =>
    exact fun _ => runs_keeps_words rfl (fun _ hF => held_execHaltDeferralEnd hF held_self) (by decide)
      (ite_ind (fun _ => kept_wr (listed_reg rfl) kept_self) (fun _ => kept_self))
  case dbgMemAccess =>
    exact fun _ _ _ _ => runs_keeps_words rfl (fun _ hF => held_execDbgMemAccess hF held_self) (by decide)
      (ite_ind (fun _ => kept_memAccess (listed_reg rfl) (listed_reg rfl) (listed_reg rfl) (listed_reg rfl) kept_self)
        (fun _ => kept_self))
  case siteTagWrite =>
    exact fun _ _ _ _ => runs_keeps_words rfl (fun _ hF => held_execSiteTagWrite hF held_self) (by decide)
      (ite_ind (fun _ => kept_wr (listed_reg (by simp [inRegs])) kept_self) (fun _ => kept_self))
  case rngHealthTestFailure =>
    exact fun _ => runs_keeps_words rfl (fun _ hF => held_execRngHealthTestFailure hF held_self) (by decide)
      (ite_ind (fun _ => kept_incSat (f := R.SEC_RNG_STATUS.part 8 8) (listed_reg rfl)
        (kept_wrB (f := R.SEC_RNG_STATUS.bit 0) (listed_reg rfl) kept_self)) (fun _ => kept_self))
  case breakpointHit => exact fun _ _ _ => runs_keeps (fun _ hF => held_execBreakpointHit hF held_self) (by decide)
  case tlsHandshakeComplete =>
    exact fun _ _ _ _ _ _ _ _ _ _ _ => runs_keeps (fun _ hF => held_execTlsHandshakeComplete hF held_self) (by decide)

end Sys2Proof.Machine
end

section
/-!
PROOFS. REAUTHENTICATE while a sleep is proposed (R237, R241, R242).
-/
namespace Sys2Proof.Machine
open Sys2Proof

/-- A command that waits wakes its crossing only where it is asleep; on any other it is put by. -/
theorem waitAwake_of_not_asleep {s : State} {n : Nat} (q what b : Nat) (h : s.sleepState n ≠ 3) :
    s.waitAwake n q what b = s.modRing n fun r => { r with later := r.later ++ [(q, what, b)] } := if_neg h
/-- While the outcome of a proposed sleep is open, REAUTHENTICATE is put by (R241). -/
theorem exec_reauthenticate_waits {s : State} {q : Nat} {c : Cmd} (h : s.serving q 0x0506 c = true) (hp : s.portsUp = true)
    (hu : s.xngUsed c.inst = true) (hs : s.sleepState c.inst = 1) :
    exec (.reauthenticate q) s =
      .next (s.modRing c.inst fun r => { r with later := r.later ++ [(q, 1, u16 c.args 0 % 512)] }) := by
  refine (onCmd_run h (State.reauthenticate q)).trans (congrArg _ ?_)
  calc s.reauthenticate q c
    _ = s.waitAwake c.inst q 1 (u16 c.args 0 % 512) := (if_neg (by simp [hp, hu])).trans (if_neg (by omega))
    _ = _ := waitAwake_of_not_asleep _ _ _ (by omega)

/-- Crossing 0 carries a bank with one node JOINED. Queue 0 has proposed a sleep, to which the node has not answered yet, and queue 1
runs REAUTHENTICATE of the node. -/
def sleepProposed : State :=
  let s := { State.reset with
    boll := { State.reset.boll with phase := .on },
    hq := { State.reset.hq with
      sessions := [(0, ⟨1, false, 31, 31, 0, [], [], [], [], [], none, none, [], [], 0, 0⟩)],
      running := [(0, ⟨1, 0, 1, 7, 0x0504, 0, []⟩), (1, ⟨2, 0, 1, 8, 0x0506, 0, [4#8]⟩)] },
    man := { State.reset.man with cfg := [⟨1, 1, 0, List.replicate 16 0#8 ++ [1#8]⟩] },
    xng := { State.reset.xng with
      rings := [(0, { Ring.empty with nodes := [(4, { Node.unknown with state := 3 })], sleepQ := some 0 })] } }
  (s.wr R.SYS_START_STATUS_STAGE 9).wr (R.XNG_SLEEP_STATUS_STATE 0) 1

/-- Refutes O27: its clause on REAUTHENTICATE takes every crossing that is awake, but while a sleep is proposed on it (state 1, awake
too) the command waits for the outcome, and no challenge stands for it (R237, R241). -/
theorem not_crossingsAnswerSleepAndWake : ¬ Obligations.CrossingsAnswerSleepAndWake := by
  unfold Obligations.CrossingsAnswerSleepAndWake
  rintro ⟨-, -, -, -, -, -, -, -, -, -, -, -, hreauth, -⟩
  obtain ⟨t, ht, hwaits, -⟩ := hreauth 1 ⟨2, 0, 1, 8, 0x0506, 0, [4#8]⟩ sleepProposed (by decide +kernel) rfl (by decide +kernel)
    (by decide +kernel) (by decide +kernel) rfl (by decide) (by decide +kernel) rfl rfl
  have hrun := exec_reauthenticate_waits (s := sleepProposed) (q := 1) (c := ⟨2, 0, 1, 8, 0x0506, 0, [4#8]⟩) (by decide +kernel)
    (by decide +kernel) (by decide +kernel) (by decide +kernel)
  obtain rfl := Host.Outcome.next.inj (hrun.symm.trans ht)
  cases hwaits

end Sys2Proof.Machine
end

section
/-!
PROOFS. Command queues, fences, event queues and learned-value transfers (R174 to R191, R278).
-/
namespace Sys2Proof.Machine
open Sys2Proof

/-! ## What stands in a command queue and an event queue -/

@[simp] theorem cqOf_setCq_self (s : State) (q : Nat) (l : List QItem) : (s.setCq q l).cqOf q = l := by
  simp [State.setCq, State.cqOf, tgetD]
theorem cqOf_setCq_ne (s : State) {q p : Nat} (l : List QItem) (h : p ≠ q) : (s.setCq q l).cqOf p = s.cqOf p := by
  simp [State.setCq, State.cqOf, tgetD, tget_tput_ne _ _ _ _ h]
@[simp] theorem cqOf_enqueue_self (s : State) (q : Nat) (x : QItem) : (s.enqueue q x).cqOf q = s.cqOf q ++ [x] :=
  cqOf_setCq_self s q _
theorem cqOf_enqueue_ne (s : State) {q p : Nat} (x : QItem) (h : p ≠ q) : (s.enqueue q x).cqOf p = s.cqOf p := cqOf_setCq_ne s _ h
theorem sendTo_eventQ (s : State) (n : Nat) (o : Out) (q : Nat) : (s.sendTo n o).eventQ q = s.eventQ q := rfl
/-- A response changes the sessions alone. -/
theorem reply_hq (s : State) (n tag typ status : Nat) (body : List Nat) : (s.reply n tag typ status body).hq =
    { s.hq with sessions := (s.reply n tag typ status body).hq.sessions } := by
  unfold State.reply
  split <;> rfl
theorem modSession_hq (s : State) (n : Nat) (f : Session → Session) :
    (s.modSession n f).hq = { s.hq with sessions := (s.modSession n f).hq.sessions } := by
  unfold State.modSession
  split <;> rfl
theorem inc_cqOf (s : State) (f : Fld) (q : Nat) : (s.inc f).cqOf q = s.cqOf q := rfl
theorem modFences_cqOf (s : State) (g : List Fence → List Fence) (q : Nat) :
    (s.modHq fun h => { h with fences := g h.fences }).cqOf q = s.cqOf q := rfl
theorem reply_cqOf (s : State) (n tag typ status : Nat) (body : List Nat) (q : Nat) :
    (s.reply n tag typ status body).cqOf q = s.cqOf q := by
  unfold State.cqOf
  rw [reply_hq]
theorem reply_eventQ (s : State) (n tag typ status : Nat) (body : List Nat) (q : Nat) :
    (s.reply n tag typ status body).eventQ q = s.eventQ q := by
  unfold State.eventQ
  rw [reply_hq]
theorem listen_eventQ (s : State) (n q : Nat) (on : Bool) (p : Nat) : (s.listen n q on).eventQ p = s.eventQ p := by
  unfold State.eventQ State.listen
  rw [modSession_hq]
theorem mooringFirst_eventQ (s : State) (n q mode p : Nat) : (s.mooringFirst n q mode).eventQ p = s.eventQ p := by
  unfold State.mooringFirst
  split
  · exact ite_ind (Q := fun t : State => t.eventQ p = s.eventQ p) (fun _ => rfl) (fun _ => rfl)
  · rfl
theorem reply_rd (s : State) (n tag typ status : Nat) (body : List Nat) (f : Fld) :
    (s.reply n tag typ status body).rd f = s.rd f := rd_congr (word_reply _)

/-! ## A request taken up -/

theorem session_of_takes {s : State} {n tag typ need : Nat} (h : s.takes n tag typ need = true) : ∃ x, s.session n = some x := by
  obtain ⟨x, hx, -⟩ := helm_takes h (.queuePush n tag 0 []) id
  exact ⟨x, hx⟩
/-- The state in which it runs. -/
theorem helm_taken {s : State} {n tag typ need : Nat} {x : Session} (h : s.takes n tag typ need = true) (hx : s.session n = some x)
    (i : Instr) (f : State → State) : s.helm n tag typ need i f = f (s.setSession n { x with tags := tag :: x.tags }) := by
  obtain ⟨y, hy, -, hrun⟩ := helm_takes h i f
  obtain rfl := Option.some.inj (hy.symm.trans hx)
  exact hrun
theorem takenUp_eq {s : State} {n : Nat} {x : Session} (hx : s.session n = some x) (tag : Nat) :
    s.takenUp n tag = s.setSession n { x with tags := tag :: x.tags } := by
  unfold State.takenUp State.modSession
  rw [hx]
theorem holds_setSession {s : State} {n : Nat} {x y : Session} (hx : s.session n = some x) (hy : y.roles = x.roles) (mask : Nat) :
    (s.setSession n y).holds n mask = s.holds n mask := by
  simp [State.holds, State.roles, session_setSession, hx, hy]

/-! ## Entries and fences join a command queue (R174, R188) -/

theorem rd_accepted_enqueue_accept (s : State) {q : Nat} (x : QItem) (hq : q < 4) :
    ((s.accept q).2.enqueue q x).rd (R.HQ_CQ_ACCEPTED q) = (s.rd (R.HQ_CQ_ACCEPTED q) + 1) % 2 ^ 32 := by
  have hapart : (R.HQ_CQ_HIGH_WATER q).apart (R.HQ_CQ_ACCEPTED q) = true := apart_of_addr (by
    unfold R.HQ_CQ_HIGH_WATER R.HQ_CQ_ACCEPTED Machine.inst
    simp [hq])
  exact (rd_wr_apart _ _ _ _ rfl hapart).trans (rd_wr_self s _ _ rfl)
theorem lt_of_pushStatus {s : State} {n q : Nat} {e : List Byte} (h : s.pushStatus n q e = OK) : q < 4 := by
  refine Nat.lt_of_not_le fun hq => ?_
  unfold State.pushStatus at h
  rw [if_pos (.inl hq)] at h
  cases h
/-- An entry that passes its checks is accepted, joins the tail and is answered. -/
theorem pushMsg_taken {s : State} {n tag q : Nat} {e : List Byte} {x : Session} (h : s.takes n tag 0x10 1 = true)
    (hx : s.session n = some x) (hst : (s.takenUp n tag).pushStatus n q e = OK) :
    ∃ c, s.pushMsg n tag q e =
      (((s.setSession n { x with tags := tag :: x.tags }).accept q).2.enqueue q (.cmd c)).reply n tag 0x10 OK
        [(s.cqOf q).length + 1] := by
  rw [takenUp_eq hx] at hst
  refine ⟨_, (helm_taken h hx _ _).trans ((if_pos hst).trans (congrArg (State.reply _ n tag 0x10 OK) ?_))⟩
  rw [cqOf_enqueue_self, List.length_append]
  rfl
/-- So does a fence within its bounds, which is answered when it completes. -/
theorem fenceMsg_taken {s : State} {n tag q scope timeout : Nat} {x : Session} (h : s.takes n tag 0x12 2 = true)
    (hx : s.session n = some x) (hq : q < 4) (hscope : scope < 128) (htime : timeout ≤ 60000) (hroom : (s.cqOf q).length < 1024) :
    ∃ f : Fence, (f.tag, f.queue, f.scope, f.timeout) = (tag, q, scope, if timeout = 0 then 1000 else timeout) ∧
      s.fenceMsg n tag q scope timeout =
        (((s.setSession n { x with tags := tag :: x.tags }).accept q).2.enqueue q (.fence f)).modHq fun h =>
          { h with fences := h.fences ++ [f] } := by
  have hfull : ¬cqCap ≤ ((s.setSession n { x with tags := tag :: x.tags }).cqOf q).length := Nat.not_le.2 hroom
  exact ⟨_, rfl, (helm_taken h hx _ _).trans ((if_neg (by omega)).trans (if_neg hfull))⟩

/-! ## A command starts (R177) -/

/-- Beside the command that runs and the rest of its queue a start leaves the Helm side. -/
theorem startCmdOf_hq (s : State) (q : Nat) (c : Cmd) (rest : List QItem) : (s.startCmdOf q c rest).hq =
    { s.hq with cq := tput s.hq.cq q rest, running := tput s.hq.running q c } := by
  unfold State.startCmdOf
  split
  · rfl
  · rw [(held_showDomains (F := 8) (by decide) held_self).hq (by decide)]
    rfl
theorem findSome_startable {s : State} {q : Nat} {p : Cmd × List QItem} (hq : q < 4) (h : s.startable q = some p)
    (hlow : (List.range q).all (fun k => (s.startable k).isNone) = true) :
    (List.range 4).findSome? (fun q => (s.startable q).map fun p => (q, p)) = some (q, p) := by
  have hsplit : ∀ q < 4, List.range 4 = List.range q ++ q :: List.range' (q + 1) (3 - q) := by decide
  refine List.findSome?_eq_some_iff.2 ⟨List.range q, q, _, hsplit q hq, by rw [h]; rfl, fun k hk => ?_⟩
  rw [Option.isNone_iff_eq_none.1 (List.all_eq_true.1 hlow k hk)]
  rfl
theorem exec_commandStart {s : State} {q : Nat} {c : Cmd} {rest : List QItem} (hq : q < 4) (h : s.startable q = some (c, rest))
    (hlow : (List.range q).all (fun k => (s.startable k).isNone) = true) (hw : s.noWait = true) :
    exec .commandStart s = .next (s.startCmdOf q c rest) := by
  have hw' : (s.startCmdOf q c rest).noWait = true := by
    unfold State.noWait
    rw [startCmdOf_hq]
    exact hw
  show execCommandStart s = _
  unfold execCommandStart
  rw [findSome_startable hq h hlow]
  exact congrArg _ (releaseWaits_noWait hw')

/-! ## What a post leaves of the Helm side -/

/-- Beside the counters of its queue a post writes EQ_HIGH and EVENTS_LOST alone. -/
theorem keptByPost_rd {g : Fld} (p : Nat → Prop) (hg : g.addr < 0x40100) (hlost : R.HQ_EVENT_STATUS_EVENTS_LOST.apart g = true)
    (hhigh : R.HQ_EVENT_STATUS_EQ_HIGH.apart g = true) : KeptByPost fun s => p (s.rd g) where
  srcSeq _ h := h
  queue _ _ h := h
  heard _ _ h := h
  acq _ h := h
  nextSeq q h := by
    refine (congrArg p (rd_wr_apart _ _ _ _ rfl (apart_of_addr ?_))).mpr h
    unfold R.HQ_EQ_NEXT_SEQ Machine.inst
    dsimp only
    split <;> omega
  lost q h := by
    refine (congrArg p (rd_wr_apart _ _ _ _ rfl (apart_of_addr ?_))).mpr h
    unfold R.HQ_EQ_LOST Machine.inst
    dsimp only
    split <;> omega
  eventsLost h := (congrArg p (rd_wr_apart _ _ _ _ rfl hlost)).mpr h
  eqHigh h := (congrArg p (rd_wr_apart _ _ _ _ rfl hhigh)).mpr h
theorem flag_rd {s : State} {f g : Fld} (hg : g.addr < 0x40100) (hlost : R.HQ_EVENT_STATUS_EVENTS_LOST.apart g = true)
    (hhigh : R.HQ_EVENT_STATUS_EQ_HIGH.apart g = true) (hf : f.fits = true) (hfg : f.apart g = true) :
    (s.flag f).rd g = s.rd g :=
  flag_keeps (keptByPost_rd (· = s.rd g) hg hlost hhigh) (fun _ => rfl) (rd_wr_apart _ _ _ _ hf hfg)
/-- A post leaves what waits in the command queues. -/
theorem keptByPost_cq (l : Tbl (List QItem)) : KeptByPost fun s => s.hq.cq = l where
  srcSeq _ h := h
  queue _ _ h := h
  heard _ _ h := h
  acq _ h := h
  nextSeq _ h := h
  lost _ h := h
  eventsLost h := h
  eqHigh h := h
theorem flag_cqOf (s : State) (f : Fld) (q : Nat) : (s.flag f).cqOf q = s.cqOf q := by
  have hcq : (s.flag f).hq.cq = s.hq.cq := flag_keeps (keptByPost_cq _) (fun _ => rfl) rfl
  unfold State.cqOf
  rw [hcq]
theorem hear_uid (q : Nat) (e : EvEntry) (x : Session) : (x.hear q e).uid = x.uid := by
  unfold Session.hear
  split <;> rfl
/-- Who holds a session's number stays. -/
theorem keptByPost_holder (n uid : Nat) : KeptByPost fun s => (s.session n).any (fun y => y.uid == uid) = true where
  srcSeq _ h := h
  queue _ _ h := h
  heard q e h := by
    show (tget (_ : Tbl Session) n).any _ = true
    rw [tget_map, Option.any_map]
    simp only [hear_uid]
    exact h
  acq _ h := h
  nextSeq _ h := h
  lost _ h := h
  eventsLost h := h
  eqHigh h := h

/-! ## An entry is promoted (R181) -/

/-- The state in which the promotion is told. -/
def State.promotedTo (s : State) (q id : Nat) (x : QItem) : State :=
  let s := (s.setCq q ((s.cqOf q).filter fun y => y.id != id)).enqueue (q - 1) (x.moved (q - 1))
  (s.modHq fun h => { h with fences := h.fences.map fun f => if f.id = id then { f with queue := q - 1 } else f }).inc
    (R.HQ_CQ_PROMOTED q)
theorem promoteEntry_room {s : State} {q id : Nat} {x : QItem} (h0 : 0 < q) (h4 : q < 4)
    (hx : (s.cqOf q).find? (fun y => y.id == id) = some x) (hroom : (s.cqOf (q - 1)).length < 1024) :
    s.promoteEntry q id = (s.promotedTo q id x).flag R.HQ_EVENT_STATUS_PROMOTION := by
  unfold State.promoteEntry
  rw [hx]
  dsimp only
  rw [if_neg (by unfold cqCap; omega)]
  rfl
/-- The promotion stands flagged, also after the event that it posts. -/
theorem flag_promotion (s : State) : (s.flag R.HQ_EVENT_STATUS_PROMOTION).on R.HQ_EVENT_STATUS_PROMOTION = true :=
  flag_keeps (keptByPost_rd (fun v => (v == 1) = true) (by decide) rfl rfl) (fun h => h) (on_wrB _ _ _ rfl rfl)
theorem promotedTo_cqOf_above (s : State) {q : Nat} (id : Nat) (x : QItem) (h0 : 0 < q) :
    (s.promotedTo q id x).cqOf (q - 1) = s.cqOf (q - 1) ++ [x.moved (q - 1)] := by
  unfold State.promotedTo
  rw [inc_cqOf, modFences_cqOf, cqOf_enqueue_self, cqOf_setCq_ne _ _ (by omega)]
theorem promotedTo_cqOf_self (s : State) {q : Nat} (id : Nat) (x : QItem) (h0 : 0 < q) :
    (s.promotedTo q id x).cqOf q = (s.cqOf q).filter fun y => y.id != id := by
  unfold State.promotedTo
  rw [inc_cqOf, modFences_cqOf, cqOf_enqueue_ne _ _ (by omega), cqOf_setCq_self]

/-! ## A fence ends (R189, R190) -/

theorem replyTo_eq {s : State} {n uid : Nat} (h : (s.session n).any (fun y => y.uid == uid) = true) (tag typ status : Nat)
    (body : List Nat) : s.replyTo n uid tag typ status body = s.reply n tag typ status body := if_pos h
theorem reply_answers_holder {s u : State} {n uid tag typ status : Nat} {body : List Nat} (hu : Held s 0 u)
    (h : (u.session n).any (fun y => y.uid == uid) = true) : (u.reply n tag typ status body).answers s n tag typ status body := by
  cases hx : u.session n with
  | none => simp [hx] at h
  | some x => exact reply_answers hu hx
/-- The first fence, at the head of its queue with its scope drained, completes with the next epoch. -/
theorem fenceDone_first {s : State} {x : Fence} {l : List Fence} (hx : s.hq.fences = x :: l)
    (hhead : ((s.cqOf x.queue).head?).any (fun y => y.id == x.id) = true) (hrun : s.running x.queue = none)
    (hdry : s.undrained x = 0) :
    s.fenceDone x.id = ((s.fenceOut x).inc R.HQ_FENCE_EPOCH).replyTo x.sess x.uid x.tag 0x12 OK
      [0, (s.rd R.HQ_FENCE_EPOCH + 1) % 2 ^ 32] := by
  have hepoch : ((s.fenceOut x).inc R.HQ_FENCE_EPOCH).rd R.HQ_FENCE_EPOCH = (s.rd R.HQ_FENCE_EPOCH + 1) % 2 ^ 32 :=
    rd_wr_self _ _ _ rfl
  rw [← hepoch]
  unfold State.fenceDone
  rw [hx]
  exact if_pos ⟨rfl, hhead, by rw [hrun]; rfl, hdry⟩
/-- A fence that is late leaves its queue, which is counted and flagged. -/
def State.fenceLapsed (s : State) (x : Fence) : State :=
  ((s.fenceOut x).inc R.HQ_FENCE_INCOMPLETE).flag R.HQ_EVENT_STATUS_FENCE_INCOMPLETE
theorem fenceLapsed_epoch (s : State) (x : Fence) : (s.fenceLapsed x).rd R.HQ_FENCE_EPOCH = s.rd R.HQ_FENCE_EPOCH :=
  (flag_rd (by decide) rfl rfl rfl rfl).trans (rd_wr_apart _ _ _ _ rfl rfl)
theorem fenceLapsed_incomplete (s : State) (x : Fence) :
    (s.fenceLapsed x).rd R.HQ_FENCE_INCOMPLETE = (s.rd R.HQ_FENCE_INCOMPLETE + 1) % 2 ^ 32 :=
  (flag_rd (by decide) rfl rfl rfl rfl).trans (rd_wr_self _ _ _ rfl)
theorem fenceLapsed_holder {s : State} {n uid : Nat} (x : Fence) (h : (s.session n).any (fun y => y.uid == uid) = true) :
    ((s.fenceLapsed x).session n).any (fun y => y.uid == uid) = true :=
  flag_keeps (keptByPost_holder n uid) (fun _ => h) h
theorem held_fenceLapsed (s : State) (x : Fence) : Held s 0 (s.fenceLapsed x) :=
  held_flag rfl (held_inc rfl (held_fenceOut rfl held_self) (off_any rfl)) (off_any rfl)
theorem fenceLate_found {s : State} {id told : Nat} {x : Fence} (hx : s.hq.fences.find? (fun f => f.id == id) = some x) :
    s.fenceLate id told = (s.fenceLapsed x).replyTo x.sess x.uid x.tag 0x12 INCOMPLETE
      [(told ||| s.undrained x) &&& x.scope, s.rd R.HQ_FENCE_EPOCH] := by
  rw [← fenceLapsed_epoch s x]
  unfold State.fenceLate
  rw [hx]
  rfl

/-! ## Event queues (R184, R185) -/

/-- SUBSCRIBE as owner of a queue that has none: the queue is bound and the next sequence told. -/
theorem subscribeMsg_taken {s : State} {n tag q : Nat} {x : Session} (h : s.takes n tag 0x20 1 = true) (hx : s.session n = some x)
    (hrole : s.holds n 2 = true) (hq : q < 4) (ho : (s.eventQ q).owner = none) :
    s.subscribeMsg n tag q 2 =
      ((((s.setSession n { x with tags := tag :: x.tags }).setEventQ q { s.eventQ q with owner := some n, sent := 0 }).listen n q
        false).reply n tag 0x20 OK [s.rd (R.HQ_EQ_NEXT_SEQ q)]).mooringFirst n q 2 := by
  have hrole' := (holds_setSession (y := { x with tags := tag :: x.tags }) hx rfl 2).trans hrole
  have ho' : ((s.setSession n { x with tags := tag :: x.tags }).eventQ q).owner = none := ho
  refine (helm_taken h hx _ _).trans ?_
  dsimp only
  rw [if_neg (by omega), if_neg (by simp [hrole']), if_neg (by simp [ho']), if_neg (by simp), if_pos ⟨rfl, ho'⟩,
    if_neg (by simp)]
  rfl
theorem sendEvent_owner {s : State} {n q : Nat} {x : EvEntry} (ho : (s.eventQ q).owner = some n)
    (hx : (s.eventQ q).entries[(s.eventQ q).sent]? = some x) :
    s.sendEvent n q = (s.setEventQ q { s.eventQ q with sent := (s.eventQ q).sent + 1 }).sendTo n (.event n q x) := by
  unfold State.sendEvent
  dsimp only
  rw [if_pos ho, hx]
/-- The owner's acknowledgement of what it has been sent. -/
theorem ackMsg_taken {s : State} {n tag q seq : Nat} {x : Session} (h : s.takes n tag 0x11 2 = true) (hx : s.session n = some x)
    (hq : q < 4) (ho : (s.eventQ q).owner = some n) (hseq : seqAfter seq (s.delivered q) = false) :
    s.ackMsg n tag q seq =
      ((s.setSession n { x with tags := tag :: x.tags }).ackEvents q seq).reply n tag 0x11 OK [] := by
  have hseq' : ¬seqAfter seq ((s.setSession n { x with tags := tag :: x.tags }).delivered q) = true := by
    rw [show (s.setSession n { x with tags := tag :: x.tags }).delivered q = s.delivered q from rfl, hseq]
    decide
  exact (helm_taken h hx _ _).trans ((if_neg (by omega)).trans ((if_neg (fun hne => hne ho)).trans (if_neg hseq')))
theorem ackEvents_session (s : State) (q seq n : Nat) : (s.ackEvents q seq).session n = s.session n :=
  ite_ind (Q := fun t : State => t.session n = s.session n) (fun _ => rfl) (fun _ => rfl)
theorem ackEvents_entries (s : State) (q seq : Nat) :
    ((s.ackEvents q seq).eventQ q).entries = (s.eventQ q).entries.filter fun x => seqAfter x.seq seq := by
  unfold State.ackEvents
  extract_lets e left s1
  have h1 : (s1.eventQ q).entries = left := by rw [eventQ_setEventQ]
  exact ite_ind (Q := fun t : State => (t.eventQ q).entries = left) (fun _ => h1) (fun _ => h1)

/-! ## A part of a learned-value transfer (R278) -/

/-- A first part joins a transfer of its session. -/
def State.partStaged (s : State) (r : Restore) : State :=
  (({ s with est := { s.est with restore := some r } }.wrB R.EST_RESTORE_STATUS_STAGED true).wrB R.EST_STATUS_RESTORE_RUNNING true)
theorem restorePart_first {s : State} (hr : s.est.restore = none) (n tag plant gen off : Nat) (data : List Byte) :
    ∃ uid, s.restorePart n tag plant gen 0 off data =
      (s.partStaged ⟨n, uid, plant, gen, false, [⟨off, data⟩], none, false⟩).reply n tag 0x40 OK [] := by
  refine ⟨(s.uidOf n).getD 0, ?_⟩
  unfold State.restorePart
  rw [hr]
  rfl
/-- A part in its place, of a session with no transfer before it, that is not the last. -/
theorem restoreMsg_taken {s : State} {n tag plant gen off : Nat} {data : List Byte} {x : Session} (h : s.takes n tag 0x40 4 = true)
    (hx : s.session n = some x) (hr : s.est.restore = none) (hlen : data.length % 16 = 0) (hmax : data.length ≤ 2 ^ 20)
    (hoff : off % 16 = 0) (hend : off + data.length ≤ 2 ^ 24) :
    ∃ uid, s.restoreMsg n tag plant gen 0 off data =
      ((s.setSession n { x with tags := tag :: x.tags }).partStaged
        ⟨n, uid, plant, gen, false, [⟨off, data⟩], none, false⟩).reply n tag 0x40 OK [] := by
  have hr' : (s.setSession n { x with tags := tag :: x.tags }).est.restore = none := hr
  obtain ⟨uid, hpart⟩ := restorePart_first hr' n tag plant gen off data
  exact ⟨uid, (helm_taken h hx _ _).trans ((if_neg (by omega)).trans ((if_neg (by rw [hr']; simp)).trans hpart))⟩
theorem held_partStaged {b s : State} {r : Restore} (h : Held b 0 s) : Held b 0 (s.partStaged r) :=
  held_wrB rfl (held_wrB rfl (held_mk_est rfl h) (off_any rfl)) (off_any rfl)
theorem partStaged_staged (s : State) (r : Restore) : (s.partStaged r).on R.EST_RESTORE_STATUS_STAGED = true :=
  (on_wrB_apart _ _ _ _ rfl rfl).trans (on_wrB _ _ _ rfl rfl)
theorem reply_est (s : State) (n tag typ status : Nat) (body : List Nat) : (s.reply n tag typ status body).est = s.est :=
  (held_reply (F := 0x200) (by decide) held_self).est (by decide)

/-! ## The statement -/

/-- Settles O25, case by case: a request taken up, a command that starts, an entry promoted, a fence that ends, an event
queue bound, sent from and acknowledged, and a first part staged. -/
theorem queuesOrderCommandsAndEvents : Obligations.QueuesOrderCommandsAndEvents := by
  unfold Obligations.QueuesOrderCommandsAndEvents
  refine ⟨?push, ?start, ?promotion, ?fence, ?fenceComplete, ?fenceTimeout, ?subscribe, ?eventSend, ?ack, ?restore⟩
  case push =>
    intro n tag q e s h hst
    obtain ⟨x, hx⟩ := session_of_takes h
    obtain ⟨c, hmsg⟩ := pushMsg_taken h hx hst
    refine ⟨s.pushMsg n tag q e, rfl, ?_⟩
    rw [hmsg]
    refine ⟨reply_answers (held_enqueue rfl (held2_snd (held_accept rfl (held_setSession rfl held_self))))
      (session_setSession ..), ?_, ?_⟩
    · rw [reply_cqOf, cqOf_enqueue_self, List.length_append]
      rfl
    · rw [reply_rd]
      exact rd_accepted_enqueue_accept _ _ (lt_of_pushStatus hst)
  case start =>
    intro q c rest s hq h hlow hw
    refine ⟨_, exec_commandStart hq h hlow hw, ?_, ?_⟩
    · unfold State.running
      rw [startCmdOf_hq]
      exact tget_tput_self ..
    · unfold State.cqOf
      rw [startCmdOf_hq]
      exact congrArg (Option.getD · []) (tget_tput_self ..)
  case promotion =>
    intro q id x s h0 h4 hx hroom
    refine ⟨s.promoteEntry q id, rfl, ?_⟩
    dsimp only
    rw [promoteEntry_room h0 h4 hx hroom, flag_cqOf, flag_cqOf]
    exact ⟨promotedTo_cqOf_above s id x h0, promotedTo_cqOf_self s id x h0, flag_promotion _⟩
  case fence =>
    intro n tag q scope timeout s h hq hscope htime hroom
    obtain ⟨x, hx⟩ := session_of_takes h
    obtain ⟨f, hf, hmsg⟩ := fenceMsg_taken h hx hq hscope htime hroom
    refine ⟨s.fenceMsg n tag q scope timeout, rfl, ?_⟩
    rw [hmsg, ← hf]
    refine ⟨?_, List.map_append⟩
    show (State.cqOf (State.enqueue _ q (.fence f)) q).length = _
    rw [cqOf_enqueue_self, List.length_append]
    rfl
  case fenceComplete =>
    intro x l s hx hhead hrun hdry hholder
    have hholder' : (((s.fenceOut x).inc R.HQ_FENCE_EPOCH).session x.sess).any (fun y => y.uid == x.uid) = true := hholder
    refine ⟨s.fenceDone x.id, rfl, ?_⟩
    rw [fenceDone_first hx hhead hrun hdry, replyTo_eq hholder']
    refine ⟨reply_answers_holder (held_inc rfl (held_fenceOut rfl held_self) (off_any rfl)) hholder', ?_⟩
    rw [reply_rd]
    exact rd_wr_self _ _ _ rfl
  case fenceTimeout =>
    intro id undrained x s hx hholder
    have hholder' := fenceLapsed_holder x hholder
    refine ⟨s.fenceLate id undrained, rfl, ?_⟩
    rw [fenceLate_found hx, replyTo_eq hholder']
    exact ⟨reply_answers_holder (held_fenceLapsed s x) hholder', (reply_rd ..).trans (fenceLapsed_incomplete s x)⟩
  case subscribe =>
    intro n tag q s h hrole hq ho
    obtain ⟨x, hx⟩ := session_of_takes h
    refine ⟨s.subscribeMsg n tag q 2, rfl, ?_⟩
    dsimp only
    rw [subscribeMsg_taken h hx hrole hq ho, mooringFirst_eventQ, reply_eventQ, listen_eventQ, eventQ_setEventQ]
    refine ⟨sends_within (reply_answers (s := s) (x := { x with tags := tag :: x.tags, listen := tdel x.listen q }) ?_ ?_)
      (held_self (F := 0)) (held_mooringFirst (F := 0) rfl held_self), rfl, rfl⟩
    · exact held_listen rfl (held_setEventQ rfl (held_setSession rfl held_self))
    · unfold State.listen
      rw [modSession_session]
      exact congrArg (Option.map _) (session_setSession ..)
  case eventSend =>
    intro n q x s ho hx
    refine ⟨s.sendEvent n q, rfl, ?_⟩
    dsimp only
    rw [sendEvent_owner ho hx, sendTo_eventQ, eventQ_setEventQ]
    exact ⟨⟨[_], rfl, by simp⟩, rfl, rfl⟩
  case ack =>
    intro n tag q seq s h hq ho hseq
    obtain ⟨x, hx⟩ := session_of_takes h
    refine ⟨s.ackMsg n tag q seq, rfl, ?_⟩
    rw [ackMsg_taken h hx hq ho hseq]
    refine ⟨reply_answers (held_ackEvents rfl (held_setSession rfl held_self))
      ((ackEvents_session ..).trans (session_setSession ..)), ?_⟩
    rw [reply_eventQ]
    exact ackEvents_entries ..
  case restore =>
    intro n tag plant gen off data s h hr hlen hmax hoff hend
    obtain ⟨x, hx⟩ := session_of_takes h
    obtain ⟨uid, hmsg⟩ := restoreMsg_taken (plant := plant) (gen := gen) h hx hr hlen hmax hoff hend
    refine ⟨s.restoreMsg n tag plant gen 0 off data, rfl, ?_⟩
    rw [hmsg]
    refine ⟨reply_answers (held_partStaged (held_setSession rfl held_self)) (session_setSession ..), ?_, ?_⟩
    · rw [reply_est]
      rfl
    · unfold State.on
      rw [reply_rd]
      exact partStaged_staged ..

end Sys2Proof.Machine
end

section
/-!
PROOFS. What the crossing rows leave unchanged (R196, R215, R222, R237, R238).
-/
namespace Sys2Proof.Machine
open Sys2Proof

/-! ## Which registers a crossing's requests, its sleep and its wake write -/

/-- No register stands in `A` that the requests of crossing `n`, its sleep and its wake write. -/
structure OutsideSleep (A : Nat → Prop) (n : Nat) : Prop where
  hq : ∀ a, hqReg a → ¬A a
  sleep : ¬A (R.XNG_SLEEP_STATUS_STATE n).addr
  event : ¬A (R.XNG_EVENT_STATUS_SLEEP_CHANGE n).addr
  ring : ¬A (R.XNG_RING_STATUS_STATE n).addr
  gens : ¬A (R.XNG_GEN_SUMMARY n).addr
  breaks : ¬A (R.XNG_BREAK n).addr
  timeouts : ¬A (R.XNG_TXN_TIMEOUT n).addr
  nores : ¬A (R.XNG_TXN_NORES n).addr

section
variable {A : Nat → Prop} {b0 s : State} {n : Nat}

theorem kept_broadcast {typ : Nat} {payload : List Byte} (hs : WordsKept A b0 s) : WordsKept A b0 (s.broadcast n typ payload) :=
  kept_regs hs rfl
theorem kept_showRing (w : OutsideSleep A n) (hs : WordsKept A b0 s) : WordsKept A b0 (s.showRing n) := by
  unfold State.showRing
  extract_lets r st old live sorted s1 s2 s3 s4 s5 s6 s7 s8
  have hring : WordsKept A b0 s4 := kept_wrB w.ring (kept_wrB w.ring (kept_wrB w.ring (kept_wr w.ring hs)))
  have hshown : WordsKept A b0 s8 := kept_wr w.breaks (kept_wr w.breaks (kept_wr w.gens (kept_wr w.gens hring)))
  exact ite_ind (fun _ => kept_flag w.hq w.event hshown) (fun _ => hshown)
theorem kept_setSleep {st : Nat} (w : OutsideSleep A n) (hs : WordsKept A b0 s) : WordsKept A b0 (s.setSleep n st) :=
  ite_ind (fun _ => hs) (fun _ => kept_showRing w (kept_flag w.hq w.event (kept_wr w.sleep hs)))
theorem kept_startWake {cause : Nat} (w : OutsideSleep A n) (hs : WordsKept A b0 s) : WordsKept A b0 (s.startWake n cause) :=
  kept_setSleep w (kept_regs hs rfl)
theorem kept_wakeFor (w : OutsideSleep A n) (hs : WordsKept A b0 s) : WordsKept A b0 (s.wakeFor n) :=
  ite_ind (fun _ => kept_startWake w hs) (fun _ => hs)
theorem kept_finish {x : Txn} {status : Nat} {payload : List Byte} (w : OutsideSleep A x.xng) (hs : WordsKept A b0 s) :
    WordsKept A b0 (s.finish x status payload) := by
  unfold State.finish
  extract_lets s1 s2
  have hnores : WordsKept A b0 s1 := ite_ind (fun _ => kept_inc w.nores hs) (fun _ => hs)
  have htimeout : WordsKept A b0 s2 := ite_ind (fun _ => kept_regs (kept_inc w.timeouts hnores) rfl) (fun _ => hnores)
  exact kept_regs htimeout rfl
theorem kept_requestNow {b typ : Nat} {payload : List Byte} {use : TxnUse} (w : OutsideSleep A n) (hs : WordsKept A b0 s) :
    WordsKept A b0 (s.requestNow n b typ payload use) := by
  unfold State.requestNow
  extract_lets x r t
  have hrefused : ∀ status, WordsKept A b0 (s.finish t status []) := fun _ => kept_finish w hs
  exact ite_ind (fun _ => hrefused _) (fun _ => ite_ind (fun _ => hrefused _) (fun _ => ite_ind (fun _ => hrefused _)
    (fun _ => ite_ind (fun _ => hrefused _) (fun _ => kept_regs hs rfl))))
theorem kept_request {b typ : Nat} {payload : List Byte} {use : TxnUse} (w : OutsideSleep A n) (hs : WordsKept A b0 s) :
    WordsKept A b0 (s.request n b typ payload use) :=
  ite_ind (fun _ => kept_requestNow w hs) (fun _ => kept_wakeFor w (kept_regs hs rfl))
theorem kept_replay (w : OutsideSleep A n) (hs : WordsKept A b0 s) : WordsKept A b0 (s.replay n) :=
  foldl_ind (fun _ _ h => kept_request w h) (kept_regs hs rfl)
theorem drawBytes_regs (k : Nat) (s : State) : (drawBytes k s).2.regs = s.regs := (held_drawBytes (F := 1) rfl held_self).regs rfl
theorem kept_challenge {b : Nat} (w : OutsideSleep A n) (hs : WordsKept A b0 s) : WordsKept A b0 (s.challenge n b) := by
  unfold State.challenge
  refine ite_ind (fun _ => hs) (fun _ => ite_ind (fun _ => kept_regs hs rfl) (fun _ => ?_))
  have hdrawn : WordsKept A b0 (if s.on (R.SEC_RNG_STATUS.bit 0) then drawBytes 8 s else ([], s)).2 :=
    ite_ind (Q := fun d : List Byte × State => WordsKept A b0 d.2) (fun _ => kept_regs hs (drawBytes_regs 8 s)) (fun _ => hs)
  split
  next c u hd =>
    rw [hd] at hdrawn
    exact ite_ind (fun _ => kept_regs hdrawn rfl) (fun _ => kept_requestNow w (kept_regs hdrawn rfl))
theorem kept_startCensus {q wait : Nat} (hs : WordsKept A b0 s) : WordsKept A b0 (s.startCensus n q wait) := by
  unfold State.startCensus
  split
  · exact kept_broadcast (kept_regs (kept_complete hs) rfl)
  · exact kept_broadcast (kept_regs hs rfl)
theorem kept_startReauth {q b : Nat} (w : OutsideSleep A n) (hs : WordsKept A b0 s) : WordsKept A b0 (s.startReauth n q b) :=
  ite_ind (fun _ => kept_complete hs) (fun _ => ite_ind (fun _ => kept_complete hs)
    (fun _ => foldl_ind (fun _ _ h => kept_challenge w h) (kept_regs hs rfl)))
theorem kept_resume (w : OutsideSleep A n) (hs : WordsKept A b0 s) : WordsKept A b0 (s.resume n) :=
  foldl_ind (fun _ _ h => ite_ind (fun _ => kept_startCensus h) (fun _ => kept_startReauth w h)) (kept_replay w (kept_regs hs rfl))
theorem kept_sleepAbort {reason : Nat} (w : OutsideSleep A n) (hs : WordsKept A b0 s) : WordsKept A b0 (s.sleepAbort n reason) := by
  unfold State.sleepAbort
  extract_lets r s1 s2 s3 s4
  have hsent : WordsKept A b0 s1 := kept_broadcast hs
  have hshown : WordsKept A b0 s2 := kept_setSleep w (kept_wr w.sleep hsent)
  have hawake : WordsKept A b0 s3 := kept_regs hshown rfl
  refine kept_resume w ?_
  unfold s4
  split
  · exact kept_complete hawake
  · exact hawake
/-- The tone latches its wake source and wakes a sleeping crossing, or ends its proposed sleep (R239, R240). -/
theorem kept_wakeTone (w : OutsideSleep A n) (hst : ¬A R.PWR_STATE.addr) (hev : ¬A R.PWR_EVENT_STATUS.addr)
    (hl : ¬A R.PWR_WAKE_LATCH.addr) (hs : WordsKept A b0 s) : WordsKept A b0 (s.wakeTone n) := by
  have hsource : WordsKept A b0 (s.wakeSource 4) := kept_wakeSource w.hq hst hev hl hs
  have hlatched : WordsKept A b0 ((s.wakeSource 4).wrB (R.XNG_SLEEP_STATUS_WAKE_LATCHED n) true) := kept_wrB w.sleep hsource
  exact ite_ind (fun _ => ite_ind (fun _ => kept_wrB w.sleep (kept_sleepAbort w hlatched))
      (fun _ => ite_ind (fun _ => kept_startWake w hlatched) (fun _ => ite_ind (fun _ => hlatched)
        (fun _ => kept_wrB w.sleep hlatched))))
    (fun _ => hsource)
end

/-! ## The statement -/

/-- Settles O49: by `runs_keeps` from the mask of each row, and by `runs_keeps_words` for the end of a proposed sleep and the tone,
whose registers are told one by one. -/
theorem crossingFrames : Obligations.CrossingFrames := by
  unfold Obligations.CrossingFrames
  refine ⟨?hopTrained, ?hopErrorFallback, ?hopDown, ?linkFaultReceived, ?ringHeal, ?presenceTimer, ?joinDiscoveryTimer,
    ?joinResponse, ?authResponse, ?authTimeout, ?periodicChallenge, ?sweepDue, ?sweepPromotion, ?sampleReport,
    ?unsolicitedReport, ?hawserResponse, ?transactionTimeout, ?nodeLost, ?nodeLeave, ?ringSleep, ?sleepProposeResponse,
    ?sleepAnswerTimeout, ?wakeTone, ?ringWake, ?nodeRead, ?nodeWrite, ?rediscover, ?reauthenticate, ?retrain⟩
  case hopTrained => exact fun _ _ _ _ _ _ => runs_keeps (fun _ hF => held_execHopTrained hF held_self) (by decide)
  case hopErrorFallback => exact fun _ _ _ => runs_keeps (fun _ hF => held_execHopErrorFallback hF held_self) (by decide)
  case hopDown => exact fun _ _ _ => runs_keeps (fun _ hF => held_execHopDown hF held_self) (by decide)
  case linkFaultReceived => exact fun _ _ _ _ => runs_keeps (fun _ hF => held_execLinkFaultReceived hF held_self) (by decide)
  case ringHeal => exact fun _ _ _ => runs_keeps (fun _ hF => held_execRingHeal hF held_self) (by decide)
  case presenceTimer => exact fun _ _ => runs_keeps (fun _ hF => held_execPresenceTimer hF held_self) (by decide)
  case joinDiscoveryTimer => exact fun _ _ => runs_keeps (fun _ hF => held_execJoinDiscoveryTimer hF held_self) (by decide)
  case joinResponse => exact fun _ _ _ _ => runs_keeps (fun _ hF => held_execJoinResponse hF held_self) (by decide)
  case authResponse => exact fun _ _ _ _ => runs_keeps (fun _ hF => held_execAuthResponse hF held_self) (by decide)
  case authTimeout => exact fun _ _ _ => runs_keeps (fun _ hF => held_execAuthTimeout hF held_self) (by decide)
  case periodicChallenge => exact fun _ _ _ => runs_keeps (fun _ hF => held_execPeriodicChallenge hF held_self) (by decide)
  case sweepDue => exact fun _ _ _ => runs_keeps (fun _ hF => held_execSweepDue hF held_self) (by decide)
  case sweepPromotion => exact fun _ _ _ => runs_keeps (fun _ hF => held_execSweepPromotion hF held_self) (by decide)
  case sampleReport => exact fun _ _ _ _ => runs_keeps (fun _ hF => held_execSampleReport hF held_self) (by decide)
  case unsolicitedReport => exact fun _ _ _ _ => runs_keeps (fun _ hF => held_execUnsolicitedReport hF held_self) (by decide)
  case hawserResponse => exact fun _ _ _ _ => runs_keeps (fun _ hF => held_execHawserResponse hF held_self) (by decide)
  case transactionTimeout => exact fun _ _ => runs_keeps (fun _ hF => held_execTransactionTimeout hF held_self) (by decide)
  case nodeLost => exact fun _ _ _ => runs_keeps (fun _ hF => held_execNodeLost hF held_self) (by decide)
  case nodeLeave => exact fun _ _ _ _ => runs_keeps (fun _ hF => held_execNodeLeave hF held_self) (by decide)
  case ringSleep => exact fun _ _ => runs_keeps (fun _ hF => held_execRingSleep hF held_self) (by decide)
  case sleepProposeResponse =>
    exact fun _ _ _ _ => runs_keeps (fun _ hF => held_execSleepProposeResponse hF held_self) (by decide)
  case ringWake => exact fun _ _ => runs_keeps (fun _ hF => held_execRingWake hF held_self) (by decide)
  case nodeRead => exact fun _ _ => runs_keeps (fun _ hF => held_execNodeRead hF held_self) (by decide)
  case nodeWrite => exact fun _ _ => runs_keeps (fun _ hF => held_execNodeWrite hF held_self) (by decide)
  case rediscover => exact fun _ _ _ => runs_keeps (fun _ hF => held_execRediscover hF held_self) (by decide)
  case reauthenticate => exact fun _ _ => runs_keeps (fun _ hF => held_execReauthenticate hF held_self) (by decide)
  case retrain => exact fun _ _ _ _ => runs_keeps (fun _ hF => held_execRetrain hF held_self) (by decide)
  case sleepAnswerTimeout =>
    refine fun n s => runs_keeps_words (apply_ite Host.Outcome.next _ _ _).symm
      (fun _ hF => held_execSleepAnswerTimeout hF held_self) (by decide)
      (ite_ind (fun _ => kept_sleepAbort ⟨listed_hq rfl, ?_, ?_, ?_, ?_, ?_, ?_, ?_⟩ kept_self) (fun _ => kept_self))
    all_goals exact listed_reg (by simp [inRegs])
  case wakeTone =>
    refine fun n s => runs_keeps_words (apply_ite Host.Outcome.next _ _ _).symm
      (fun _ hF => held_execWakeTone hF held_self) (by decide)
      (ite_ind (fun _ => kept_self) (fun _ => kept_wakeTone ⟨listed_hq rfl, ?_, ?_, ?_, ?_, ?_, ?_, ?_⟩ (listed_reg rfl)
        (listed_reg rfl) (listed_reg rfl) kept_self))
    all_goals exact listed_reg (by simp [inRegs])

end Sys2Proof.Machine
end

section
/-!
PROOFS. Presence frames while the firmware does not renew the permit of a crossing (R218).
-/
namespace Sys2Proof.Machine
open Sys2Proof

/-- Where the presence permit has not been renewed within 40 ms, the presence timer leaves the state as it is (R218). -/
theorem exec_presenceTimer_lapsed {s : State} {n : Nat} (h : (s.ring n).permit + 4000 < s.tick) :
    exec (.presenceTimer n) s = .next s := if_neg (by simp [h])
theorem not_sends_self (s : State) (p : Out → Bool) : ¬s.sends s p := by
  rintro ⟨l, hout, hany⟩
  obtain rfl : l = [] := List.self_eq_append_left.1 hout
  cases hany

/-- UNDERWAY with a bank on crossing 0 and the application watchdog running, 4,001 ticks after the firmware last renewed the
crossing's permit. -/
def permitLapsed : State :=
  let s := { State.reset with
    boll := { State.reset.boll with phase := .on },
    man := { State.reset.man with cfg := [⟨1, 1, 0, List.replicate 16 0#8 ++ [1#8]⟩] } }
  ((s.wr R.SYS_START_STATUS_STAGE 9).wrB R.PWR_WATCHDOG_STATUS_RUNNING true).wr64 R.PWR_TICK_LO 4001

/-- Refutes O26: its clause on the presence timer has the frames go out on every awake crossing while the application watchdog runs,
but they go out only while the firmware has renewed the crossing's permit within 40 ms (R218). -/
theorem not_crossingsTrainJoinAndSample : ¬ Obligations.CrossingsTrainJoinAndSample := by
  unfold Obligations.CrossingsTrainJoinAndSample
  rintro ⟨-, -, -, -, -, hpresence, -⟩
  obtain ⟨t, ht, hsends, -⟩ := hpresence 0 permitLapsed (by decide +kernel) (by decide +kernel) (by decide +kernel) (by decide +kernel)
  have hrun : exec (.presenceTimer 0) permitLapsed = .next permitLapsed := exec_presenceTimer_lapsed (by decide +kernel)
  obtain rfl : permitLapsed = t := Host.Outcome.next.inj (hrun.symm.trans ht)
  exact not_sends_self _ _ hsends

end Sys2Proof.Machine
end

section
/-!
PROOFS. What the estimation rows leave unchanged (R253, R258, R277, R283, R286).
-/
namespace Sys2Proof.Machine
open Sys2Proof

/-! ## Which registers a checkpoint and a discarded restore write -/

section
variable {A : Nat → Prop} {b0 s : State}

theorem kept_showCkpt (hgen : ¬A R.EST_CKPT_GEN.addr) (hst : ¬A R.EST_CKPT_STATUS.addr) (hop : ¬A R.EST_CKPT_OPSEC.addr)
    (hs : WordsKept A b0 s) : WordsKept A b0 s.showCkpt := by
  unfold State.showCkpt
  extract_lets slots s1
  have h1 : WordsKept A b0 s1 := kept_wr hst hs
  split
  · exact h1
  · exact kept_wr hst (kept_wr hst (kept_wr hop (kept_wr hgen h1)))
theorem kept_ckptSpoil (hgen : ¬A R.EST_CKPT_GEN.addr) (hst : ¬A R.EST_CKPT_STATUS.addr) (hop : ¬A R.EST_CKPT_OPSEC.addr)
    (hs : WordsKept A b0 s) : WordsKept A b0 s.ckptSpoil := by
  unfold State.ckptSpoil
  split
  · exact hs
  · exact kept_showCkpt hgen hst hop (kept_regs hs rfl)
theorem kept_nextCkpt (h : ¬A R.EST_STATUS.addr) (hs : WordsKept A b0 s) : WordsKept A b0 s.nextCkpt :=
  kept_wrB h (kept_regs hs rfl)
/-- The end of a checkpoint, written or not, writes the checkpoint's registers, its event bit and what an event and its record
write. -/
theorem kept_ckptDone {ok : Bool} {cause : Nat} {qs : List Nat} (hq : ∀ a, hqReg a → ¬A a) (hr : ∀ a, recReg a → ¬A a)
    (hrun : ¬A R.EST_STATUS.addr) (hev : ¬A R.EST_EVENT_STATUS.addr) (hgen : ¬A R.EST_CKPT_GEN.addr)
    (hst : ¬A R.EST_CKPT_STATUS.addr) (hop : ¬A R.EST_CKPT_OPSEC.addr) (hs : WordsKept A b0 s) :
    WordsKept A b0 (s.ckptDone ok cause qs) := by
  unfold State.ckptDone
  refine ite_ind (fun _ => ?written) (fun _ => ?failed)
  case written =>
    extract_lets gen
    split
    rename_i t g hwrite
    have ht : WordsKept A b0 t := by
      obtain rfl : _ = t := congrArg Prod.fst hwrite
      exact kept_showCkpt hgen hst hop (kept_regs hs rfl)
    have hgone : WordsKept A b0 (if cause = 7 then { t with est := { t.est with restore := none } } else t) :=
      ite_ind (fun _ => kept_regs ht rfl) (fun _ => ht)
    exact kept_nextCkpt hrun (foldl_ind (fun _ _ h => kept_complete h)
      (kept_flag hq hev (kept_raise (e := Ev.CHECKPOINT_WRITTEN) (by decide) hq hr hgone)))
  case failed =>
    extract_lets t
    have ht : WordsKept A b0 t := kept_flag hq hev (kept_raise (e := Ev.CHECKPOINT_FAILED) (by decide) hq hr hs)
    exact kept_nextCkpt hrun (kept_regs (kept_ckptSpoil hgen hst hop ht) rfl)
theorem kept_abortRestore (hr : ¬A R.EST_RESTORE_STATUS.addr) (hst : ¬A R.EST_STATUS.addr) (hs : WordsKept A b0 s) :
    WordsKept A b0 s.abortRestore := by
  unfold State.abortRestore
  split
  · exact hs
  · exact kept_wrB hst (kept_wr hr (kept_wrB hr (kept_regs hs rfl)))
end

/-- A frame that lists the manifest side, of a state that keeps it. -/
theorem keeps_of_man {s t : State} {ps : List Part} {bs : List Nat} {rs : List Fld} (h : t.keeps s (.man :: ps) bs rs)
    (hman : t.man = s.man) : t.keeps s ps bs rs := by
  simpa [State.keeps, hman] using h
theorem execSweepApply_man {s t : State} {wrong redo : List Nat} {retryFails : Bool}
    (ht : exec (.sweepApply wrong redo retryFails) s = .next t) : t.man = s.man := by
  replace ht : execSweepApply wrong redo retryFails s = .next t := ht
  unfold execSweepApply at ht
  split at ht
  · obtain rfl := Host.Outcome.next.inj ht
    exact sweepApply_man ..
  · obtain rfl := Host.Outcome.next.inj ht
    rfl

/-! ## The statement -/

/-- Settles O50: by `runs_keeps` from the mask of each row, and by `runs_keeps_words` for the rows of checkpoints and of a discarded
restore, whose registers are told one by one. -/
theorem estimationFrames : Obligations.EstimationFrames := by
  unfold Obligations.EstimationFrames
  refine ⟨?sweepApply, ?restComplete, ?rollupPublish, ?checkpointInterval, ?checkpointDone, ?checkpointRetry, ?freezeExpiry,
    ?checkpoint, ?stringFigures, ?reinitialise, ?resetLearned, ?clearShort, ?abortRestore⟩
  case sweepApply =>
    intro wrong redo retryFails s
    obtain ⟨t, ht⟩ := exec_completes (.sweepApply wrong redo retryFails) s
    have hheld : Held s (restOf 0x1000f401a007bb) t := heldR_of_next (held_execSweepApply (by decide) held_self) ht
    exact ⟨t, ht, keeps_of_man (keeps_of_held [] hheld (by decide)) (execSweepApply_man ht)⟩
  case restComplete => exact fun _ _ => runs_keeps (fun _ hF => held_execRestComplete hF held_self) (by decide)
  case rollupPublish => exact fun _ => runs_keeps (fun _ hF => held_execRollupPublish hF held_self) (by decide)
  case freezeExpiry => exact fun _ _ => runs_keeps (fun _ hF => held_execFreezeExpiry hF held_self) (by decide)
  case stringFigures => exact fun _ _ => runs_keeps (fun _ hF => held_execStringFigures hF held_self) (by decide)
  case reinitialise => exact fun _ _ => runs_keeps (fun _ hF => held_execReinitialise hF held_self) (by decide)
  case resetLearned => exact fun _ _ => runs_keeps (fun _ hF => held_execResetLearned hF held_self) (by decide)
  case clearShort => exact fun _ _ => runs_keeps (fun _ hF => held_execClearShort hF held_self) (by decide)
  case checkpointInterval =>
    exact fun s => runs_keeps_words (apply_ite Host.Outcome.next _ _ _).symm
      (fun _ hF => held_execCheckpointInterval hF held_self) (by decide)
      (ite_ind (fun _ => kept_ckptFor (listed_reg rfl) kept_self) (fun _ => kept_self))
  case checkpointDone =>
    intro ok s
    obtain ⟨t, ht⟩ := exec_completes (.checkpointDone ok) s
    refine runs_keeps_words ht (fun _ hF => held_execCheckpointDone hF held_self) (by decide) ?_
    replace ht : execCheckpointDone ok s = .next t := ht
    unfold execCheckpointDone at ht
    split at ht
    · split at ht
      · obtain rfl := Host.Outcome.next.inj ht
        exact kept_ckptDone (listed_hq rfl) (listed_rec) (listed_reg rfl) (listed_reg rfl) (listed_reg rfl) (listed_reg rfl)
          (listed_reg rfl) kept_self
      · obtain rfl := Host.Outcome.next.inj ht
        exact kept_self
    · obtain rfl := Host.Outcome.next.inj ht
      exact kept_self
  case checkpointRetry =>
    intro s
    obtain ⟨t, ht⟩ := exec_completes .checkpointRetry s
    refine runs_keeps_words ht (fun _ hF => held_execCheckpointRetry hF held_self) (by decide) ?_
    replace ht : execCheckpointRetry s = .next t := ht
    unfold execCheckpointRetry at ht
    split at ht
    · obtain rfl := Host.Outcome.next.inj ht
      exact kept_self
    · obtain rfl := Host.Outcome.next.inj ht
      exact kept_ckptFor (listed_reg rfl) (kept_regs kept_self rfl)
  case checkpoint =>
    intro q s
    obtain ⟨t, ht⟩ := exec_completes (.checkpoint q) s
    refine runs_keeps_words ht (fun _ hF => held_execCheckpoint hF held_self) (by decide) ?_
    replace ht : execCheckpoint q s = .next t := ht
    unfold execCheckpoint at ht
    exact kept_onCmd ht (fun _ => ite_ind (fun _ => kept_ckptFor (listed_reg rfl) kept_self) (fun _ => kept_complete kept_self))
  case abortRestore =>
    exact fun sess key s => runs_keeps_words (apply_ite Host.Outcome.next _ _ _).symm
      (fun _ hF => held_execAbortRestore hF held_self) (by decide)
      (ite_ind (fun _ => kept_abortRestore (listed_reg rfl) (listed_reg rfl) kept_self) (fun _ => kept_self))

end Sys2Proof.Machine
end

section
/-!
PROOFS. Events and their records leave what runs, who holds a session and the checkpoints (R182, R644), and completions (R176).
-/
namespace Sys2Proof.Machine
open Sys2Proof

/-! ## What an event with its record leaves -/

/-- Every single change that an event, its record or their event bits make keeps the property, whatever the registers hold. -/
structure KeptByRaise (Q : State → Prop) : Prop extends KeptByPost Q where
  regs : ∀ {s : State} (m : Tbl Word), Q s → Q { s with regs := m }
  log : ∀ {s : State} (l : List LogRec), Q s → Q { s with nv := { s.nv with log := l } }

section
variable {Q : State → Prop} {s : State}

theorem flag_keeps_raised (hQ : KeptByRaise Q) {f : Fld} (h : Q s) : Q (s.flag f) :=
  flag_keeps hQ.toKeptByPost (fun _ => h) (hQ.regs _ h)
theorem appendRec_keeps (hQ : KeptByRaise Q) {r : LogRec} (h : Q s) : Q (s.appendRec r) :=
  hQ.regs _ (hQ.regs _ (hQ.regs _ (hQ.log _ h)))
theorem keepRec_keeps (hQ : KeptByRaise Q) {r : LogRec} (h : Q s) : Q (s.keepRec r) := by
  unfold State.keepRec
  extract_lets s1 s2 d s3
  have h1 : Q s1 := appendRec_keeps hQ h
  exact ite_ind (fun _ => flag_keeps_raised hQ (post_keeps hQ.toKeptByPost (appendRec_keeps hQ (hQ.regs _ h1)))) (fun _ => h1)
theorem stopLog_keeps (hQ : KeptByRaise Q) (h : Q s) : Q s.stopLog :=
  flag_keeps_raised hQ (post_keeps hQ.toKeptByPost (hQ.regs _ (appendRec_keeps hQ h)))
theorem record_keeps (hQ : KeptByRaise Q) {w code inst : Nat} {data : List Byte} (h : Q s) : Q (s.record w code inst data) :=
  ite_ind (fun _ => h) (fun _ => ite_ind (fun _ => hQ.regs _ h) (fun _ => ite_ind (fun _ => stopLog_keeps hQ (hQ.regs _ h))
    (fun _ => keepRec_keeps hQ h)))
theorem raise_keeps (hQ : KeptByRaise Q) {e : EvDef} {inst : Nat} {data : List Byte} (h : Q s) : Q (s.raise e inst data) := by
  have hpost : Q (s.post e.queue e.code inst data) := post_keeps hQ.toKeptByPost h
  exact ite_ind (fun _ => record_keeps hQ hpost) (fun _ => hpost)
end

theorem keptByRaise_holder (n uid : Nat) : KeptByRaise fun s => (s.session n).any (fun y => y.uid == uid) = true where
  toKeptByPost := keptByPost_holder n uid
  regs _ h := h
  log _ h := h
/-- An event leaves the commands that run. -/
theorem keptByRaise_running (r : Tbl Cmd) : KeptByRaise fun s => s.hq.running = r where
  srcSeq _ h := h
  queue _ _ h := h
  heard _ _ h := h
  acq _ h := h
  nextSeq _ h := h
  lost _ h := h
  eventsLost h := h
  eqHigh h := h
  regs _ h := h
  log _ h := h
/-- An event leaves the checkpoints, and the plant identity by which they are judged. -/
theorem keptByRaise_ckpts (slots : Tbl Ckpt) (plant : Option Nat) :
    KeptByRaise fun s => s.nv.ckpt = slots ∧ s.nv.plantId = plant where
  srcSeq _ h := h
  queue _ _ h := h
  heard _ _ h := h
  acq _ h := h
  nextSeq _ h := h
  lost _ h := h
  eventsLost h := h
  eqHigh h := h
  regs _ h := h
  log _ h := h

/-! ## Completions -/

/-- A command that completed in a part of the way has completed on the whole of it where its queue took up no other. -/
theorem completed_within {b s t u : State} {F G q status result : Nat} {c : Cmd} (h : t.completed s q c status result)
    (hs : Held b F s) (hu : Held t G u) (hrun : u.running q = t.running q) : u.completed b q c status result :=
  ⟨hrun.trans h.1, sends_within h.2 hs hu⟩
theorem running_of_serving {s : State} {q code : Nat} {c : Cmd} (h : s.serving q code c = true) : s.running q = some c := by
  simp only [State.serving, Bool.and_eq_true, decide_eq_true_eq] at h
  exact h.1.1
theorem present_of_serving {s : State} {q code : Nat} {c : Cmd} (h : s.serving q code c = true) : s.present c = true := by
  simp only [State.serving, Bool.and_eq_true] at h
  exact h.2
theorem complete_completed {s : State} {q code status result : Nat} {c : Cmd} (h : s.serving q code c = true) :
    (s.complete q status result).completed s q c status (result % 2 ^ 64) :=
  complete_sent (running_of_serving h) (present_of_serving h) ..
theorem complete_est (s : State) (q status result : Nat) : (s.complete q status result).est = s.est :=
  (held_complete (F := 0x200) (by decide) held_self).est (by decide)
theorem complete_man (s : State) (q status result : Nat) : (s.complete q status result).man = s.man :=
  (held_complete (F := 0x10) (by decide) held_self).man (by decide)
theorem complete_nv (s : State) (q status result : Nat) : (s.complete q status result).nv = s.nv :=
  (held_complete (F := 2) (by decide) held_self).nv (by decide)

end Sys2Proof.Machine
end

section
/-!
PROOFS. Checkpoints and the strings of the estimator (R263, R275 to R277, R286), and roll-ups (R283).
-/
namespace Sys2Proof.Machine
open Sys2Proof

/-! ## Strings of the estimator -/

theorem estStr_congr {s t : State} (hest : t.est = s.est) (hman : t.man = s.man) (i : Nat) : t.estStr i = s.estStr i := by
  unfold State.estStr State.freshStr State.strType State.cfg
  rw [hest, hman]
@[simp] theorem estStr_setEst (s : State) (i : Nat) (x : EstStr) : (s.setEst i x).estStr i = x := by
  unfold State.estStr State.setEst
  rw [tget_tput_self]
  rfl
@[simp] theorem estStr_modEst (s : State) (i : Nat) (f : EstStr → EstStr) : (s.modEst i f).estStr i = f (s.estStr i) :=
  estStr_setEst ..
@[simp] theorem estStr_complete (s : State) (q status result i : Nat) : (s.complete q status result).estStr i = s.estStr i :=
  estStr_congr (complete_est ..) (complete_man ..) i
theorem learned_toDefaults {s : State} {i : Nat} {t : CfgRec} (h : s.strType i = some t) :
    ((s.toDefaults i).estStr i).learned = List.replicate 256 t.defaults := by
  unfold State.toDefaults
  rw [h]
  exact congrArg EstStr.learned (estStr_modEst ..)
/-- A change of a string whose command then completes: the command's completion and the string as the change leaves it. -/
theorem modEst_complete {s : State} {q code i : Nat} {c : Cmd} (h : s.serving q code c = true) (f : EstStr → EstStr) :
    ((s.modEst i f).complete q OK 0).completed s q c OK 0 ∧ ((s.modEst i f).complete q OK 0).estStr i = f (s.estStr i) :=
  ⟨complete_completed (s := s.modEst i f) h, (estStr_complete ..).trans (estStr_modEst ..)⟩

/-! ## Checkpoint triggers (R275) -/

/-- With none running a checkpoint starts. -/
theorem ckptFor_idle {s : State} (h : s.est.ckptRun = none) (cause : Nat) (qs : List Nat) :
    s.ckptFor cause qs = { s with est := { s.est with ckptRun := some (cause, qs) } }.wrB R.EST_STATUS_CKPT_RUNNING true := by
  unfold State.ckptFor
  rw [h]
/-- With one running the first further trigger waits for it. -/
theorem ckptFor_running {s : State} {x : Nat × List Nat} (h : s.est.ckptRun = some x) (hnext : s.est.ckptNext = none)
    (cause : Nat) (qs : List Nat) :
    s.ckptFor cause qs = { s with est := { s.est with ckptNext := some (cause, qs) } } := by
  unfold State.ckptFor
  rw [h, hnext]
theorem ckptRunning_ckptFor {s : State} (h : s.est.ckptRun = none) (cause : Nat) (qs : List Nat) :
    (s.ckptFor cause qs).on R.EST_STATUS_CKPT_RUNNING = true := by
  rw [ckptFor_idle h]
  exact on_wrB _ _ _ rfl rfl

/-! ## The end of a checkpoint (R277) -/

theorem showCkpt_nv (s : State) : s.showCkpt.nv = s.nv := (held_showCkpt (F := 2) (by decide) held_self).nv (by decide)
theorem ckptSpoil_est (s : State) : s.ckptSpoil.est = s.est := (held_ckptSpoil (F := 0x200) (by decide) held_self).est (by decide)
/-- The generation that the next checkpoint carries: the newest plus 1. -/
def State.nextGen (s : State) : Nat := ((newestCkpt s.nv.ckpt s.plantIdent).elim 0 (·.2.gen) + 1) % 2 ^ 32
/-- A checkpoint of any other cause than a restore is written under the next generation, to the slot of the older one. -/
theorem ckptWrite_gen (s : State) (cause : Nat) : (s.ckptWrite cause 0).2 = s.nextGen := by
  unfold State.nextGen
  rw [← Nat.max_zero ((newestCkpt s.nv.ckpt s.plantIdent).elim 0 (·.2.gen))]
  rfl
theorem ckptWrite_slot (s : State) (cause : Nat) :
    (tget (s.ckptWrite cause 0).1.nv.ckpt s.ckptSlot).map (·.gen) = some s.nextGen := by
  rw [← ckptWrite_gen s cause]
  unfold State.ckptWrite
  extract_lets new slot gen c c'
  rw [showCkpt_nv, tget_tput_self]
  rfl
/-- The state in which the commands that wait for a written checkpoint complete. -/
def State.ckptTold (s : State) (cause : Nat) : State :=
  ((s.ckptWrite cause 0).1.raise Ev.CHECKPOINT_WRITTEN 0 (le 4 s.nextGen ++ le 1 cause)).flag R.EST_EVENT_STATUS_CHECKPOINT_WRITTEN
theorem ckptDone_written {s : State} {cause : Nat} (h : cause ≠ 7) (qs : List Nat) :
    s.ckptDone true cause qs = (qs.foldl (fun t q => t.complete q OK s.nextGen) (s.ckptTold cause)).nextCkpt := by
  unfold State.ckptDone
  rw [if_pos rfl]
  simp only [if_neg h]
  rw [ckptWrite_gen, State.ckptTold]
theorem held_ckptTold (s : State) (cause : Nat) : Held s 0x200 (s.ckptTold cause) :=
  held_flag (by decide) (held_raise (by decide) (held1_fst (held_ckptWrite (by decide) held_self))) (off_any rfl)
theorem ckptTold_serving {s : State} {q : Nat} {c : Cmd} (h : s.serving q c.code c = true) (cause : Nat) :
    (s.ckptTold cause).serving q c.code c = true := by
  have hwrite : (s.ckptWrite cause 0).1.hq = s.hq := (held1_fst (held_ckptWrite (F := 8) (by decide) held_self)).hq (by decide)
  have hrun : (s.ckptTold cause).hq.running = s.hq.running :=
    flag_keeps_raised (keptByRaise_running _) (raise_keeps (keptByRaise_running _) (congrArg (·.running) hwrite))
  have hheld : ((s.ckptWrite cause 0).1.session c.sess).any (fun y => y.uid == c.uid) = true := by
    unfold State.session
    rw [hwrite]
    exact present_of_serving h
  have hpresent : (s.ckptTold cause).present c = true :=
    flag_keeps_raised (keptByRaise_holder _ _) (raise_keeps (keptByRaise_holder _ _) hheld)
  have hrunning : (s.ckptTold cause).running q = some c := (congrArg (tget · q) hrun).trans (running_of_serving h)
  unfold State.serving
  simp [hrunning, hpresent]
theorem ckptTold_slot (s : State) (cause : Nat) :
    (tget (s.ckptTold cause).nv.ckpt s.ckptSlot).map (·.gen) = some s.nextGen := by
  obtain ⟨hslots, -⟩ := flag_keeps_raised (f := R.EST_EVENT_STATUS_CHECKPOINT_WRITTEN) (keptByRaise_ckpts _ _)
    (raise_keeps (e := Ev.CHECKPOINT_WRITTEN) (inst := 0) (data := le 4 s.nextGen ++ le 1 cause)
      (keptByRaise_ckpts _ _) (⟨rfl, rfl⟩ : (s.ckptWrite cause 0).1.nv.ckpt = _ ∧ (s.ckptWrite cause 0).1.nv.plantId = _))
  unfold State.ckptTold
  rw [hslots]
  exact ckptWrite_slot s cause
/-- The state in which a failed write leaves its slot. -/
def State.ckptMissed (s : State) : State :=
  (s.raise Ev.CHECKPOINT_FAILED 0 (le 4 s.ckptSlot)).flag R.EST_EVENT_STATUS_CHECKPOINT_FAILED
theorem ckptMissed_est (s : State) : s.ckptMissed.est = s.est :=
  (held_flag (F := 0x200) (by decide) (held_raise (by decide) held_self) (off_any rfl)).est (by decide)
theorem ckptMissed_slots (s : State) : s.ckptMissed.nv.ckpt = s.nv.ckpt ∧ s.ckptMissed.nv.plantId = s.nv.plantId :=
  flag_keeps_raised (keptByRaise_ckpts _ _) (raise_keeps (keptByRaise_ckpts _ _) ⟨rfl, rfl⟩)
theorem ckptMissed_slot (s : State) : s.ckptMissed.ckptSlot = s.ckptSlot := by
  obtain ⟨hslots, hplant⟩ := ckptMissed_slots s
  unfold State.ckptSlot State.plantIdent
  rw [hslots, hplant]
/-- The slot that was being written loses its commit word, the other stays (log 104). -/
theorem ckptSpoil_slots (s : State) (k : Nat) : tget s.ckptSpoil.nv.ckpt k =
    if k = s.ckptSlot then (tget s.nv.ckpt k).map (fun c => { c with committed := false }) else tget s.nv.ckpt k := by
  unfold State.ckptSpoil
  split
  next hnone =>
    split
    next hk => rw [hk, hnone]; rfl
    next => rfl
  next c hsome =>
    rw [showCkpt_nv]
    split
    next hk => rw [hk, hsome]; exact tget_tput_self ..
    next hk => exact tget_tput_ne _ _ _ _ hk
theorem ckptDone_failed (s : State) (cause : Nat) (qs : List Nat) : s.ckptDone false cause qs =
    ({ s.ckptMissed.ckptSpoil with
      est := { s.ckptMissed.ckptSpoil.est with ckptRetry := s.ckptMissed.est.ckptRetry ++ [(cause, qs)] } } : State).nextCkpt := rfl

/-! ## Registers in pairs (R165) -/

theorem rd64_wr64 {s : State} {f : Fld} {v : Nat} (hlo : f.lo = 0) (hw : f.width = 32) : (s.wr64 f v).rd64 f = v % 2 ^ 64 := by
  have hfits : f.fits = true := by simp [Fld.fits, hlo, hw]
  unfold State.rd64 State.wr64
  rw [rd_wr_apart _ _ _ _ (by simpa [Fld.fits] using hfits) (apart_of_addr (by simp)), rd_wr_self _ _ _ hfits,
    rd_wr_self _ _ _ (by simpa [Fld.fits] using hfits), hw]
  omega
theorem rd64_congr {s t : State} {f : Fld} (hlow : t.word f.addr = s.word f.addr)
    (hhigh : t.word (f.addr + 4) = s.word (f.addr + 4)) :
    t.rd64 f = s.rd64 f := by
  unfold State.rd64
  rw [rd_congr hlow, rd_congr (f := { f with addr := f.addr + 4 }) hhigh]
theorem rd64_lt {s : State} {f : Fld} (hw : f.width = 32) : s.rd64 f < 2 ^ 64 := by
  have hlow : s.rd f < 2 ^ 32 := hw ▸ rd_lt s f
  have hhigh : s.rd { f with addr := f.addr + 4 } < 2 ^ 32 :=
    Nat.lt_of_lt_of_eq (rd_lt ..) (congrArg (2 ^ ·) hw)
  unfold State.rd64
  omega
theorem tick_of_held {s t : State} (h : Held s 0x200000000 t) : t.tick = s.tick :=
  rd64_congr (h.words _ (by decide) (by decide)) (h.words _ (by decide) (by decide))
/-- The sweep counters of a crossing stand in the crossings' block, bit 37 of a mask. -/
theorem sweeps_of_held {s t : State} {n : Nat} (hn : n < 16) (h : Held s 0x2000000000 t) :
    t.rd64 (R.XNG_SWEEPS_LO n) = s.rd64 (R.XNG_SWEEPS_LO n) := by
  have haddr : (R.XNG_SWEEPS_LO n).addr = 0x5004C + 0x1000 * n := if_pos hn
  have hword : ∀ a, 0x50000 ≤ a → a < 0x60000 → t.word a = s.word a := fun a hlo hhi =>
    h.words a (by rw [blockNo_range (k := 5) hlo hhi]; decide) (by omega)
  exact rd64_congr (hword _ (by omega) (by omega)) (hword _ (by omega) (by omega))

/-! ## ROLLUP_PUBLISH (R283) -/

theorem kept_wrR {A : Nat → Prop} {b0 s : State} {f : Fld} {x : Rat} (hf : ¬A f.addr) (hs : WordsKept A b0 s) :
    WordsKept A b0 (s.wrR f x) := kept_wr hf hs
/-- A register of a bank stands at one of the bank's addresses, and of a bank that the Turid does not have at none. -/
theorem inst_ne {base stride n i a : Nat} (hlow : a < base) (hhigh : a < 0x100000000) : inst base stride n i ≠ a := by
  unfold inst
  split <;> omega
/-- The published figures are shown beside the roll-up's number and tick (R283). -/
theorem showRoll_seq (s : State) : s.showRoll.rd R.EST_ROLLUP_SEQ = s.rd R.EST_ROLLUP_SEQ := by
  have hkept : WordsKept (· = R.EST_ROLLUP_SEQ.addr) s s.showRoll := by
    unfold State.showRoll
    refine foldl_ind (fun t b ht => ?_) ?_
    · exact kept_wrR (inst_ne (by decide) (by decide)) (kept_wrR (inst_ne (by decide) (by decide))
        (kept_wrR (inst_ne (by decide) (by decide)) (kept_wrR (inst_ne (by decide) (by decide)) ht)))
    · exact kept_wrR (by decide) (kept_wrR (by decide) (kept_wrR (by decide) (kept_wrR (by decide) (kept_wrR (by decide)
        (kept_wrR (by decide) kept_self)))))
  exact rd_congr (hkept _ rfl)
theorem showRoll_est (s : State) : s.showRoll.est = s.est := (held_showRoll (F := 0x200) (by decide) held_self).est (by decide)
/-- The state whose roll-up is published: a new snapshot, or the frozen one again (R260). -/
def State.rolled (s : State) : State :=
  if s.on R.EST_STATUS_ROLLUP_STALE then s
  else { s with est := { s.est with roll := s.strings.map s.rollStr, fresh := [] } }.showRoll
theorem publish_eq (s : State) : s.publish = (s.rolled.inc R.EST_ROLLUP_SEQ).wr64 R.EST_ROLLUP_TICK_LO s.rolled.tick := rfl
theorem rolled_tick (s : State) : s.rolled.tick = s.tick :=
  ite_ind (Q := fun t : State => t.tick = s.tick) (fun _ => rfl)
    (fun _ => tick_of_held (held_showRoll (by decide) (held_mk_est (by decide) held_self)))
theorem rolled_seq (s : State) : s.rolled.rd R.EST_ROLLUP_SEQ = s.rd R.EST_ROLLUP_SEQ :=
  ite_ind (Q := fun t : State => t.rd R.EST_ROLLUP_SEQ = s.rd R.EST_ROLLUP_SEQ) (fun _ => rfl) (fun _ => showRoll_seq _)
theorem rolled_roll (s : State) :
    s.rolled.est.roll = if s.on R.EST_STATUS_ROLLUP_STALE = true then s.est.roll else s.strings.map s.rollStr := by
  unfold State.rolled
  split
  · rfl
  · rw [showRoll_est]
theorem publish_seq (s : State) : s.publish.rd R.EST_ROLLUP_SEQ = (s.rd R.EST_ROLLUP_SEQ + 1) % 2 ^ 32 := by
  have hseq : s.publish.rd R.EST_ROLLUP_SEQ = (s.rolled.inc R.EST_ROLLUP_SEQ).rd R.EST_ROLLUP_SEQ :=
    (rd_wr_apart _ _ _ _ rfl rfl).trans (rd_wr_apart _ _ _ _ rfl rfl)
  have hinc : (s.rolled.inc R.EST_ROLLUP_SEQ).rd R.EST_ROLLUP_SEQ = (s.rolled.rd R.EST_ROLLUP_SEQ + 1) % 2 ^ 32 :=
    rd_wr_self _ _ _ rfl
  rw [hseq, hinc, rolled_seq]
theorem publish_tick (s : State) : s.publish.rd64 R.EST_ROLLUP_TICK_LO = s.tick := by
  have hlt : s.tick < 2 ^ 64 := rd64_lt rfl
  rw [publish_eq, rd64_wr64 rfl rfl, rolled_tick, Nat.mod_eq_of_lt hlt]

end Sys2Proof.Machine
end

section
/-!
PROOFS. A sweep applied to its string or discarded (R253, R258, R259, R67).
-/
namespace Sys2Proof.Machine
open Sys2Proof

/-! ## A sweep discarded (R259) -/

/-- The estimator as a mismatch of the sweep leaves it: the counters alone are registers (R258, R288). -/
theorem countMismatch_est (s : State) (three : Bool) (wrong redo : List Nat) (retryFails : Bool) :
    (s.countMismatch three wrong redo retryFails).est = s.est :=
  (held_countMismatch (F := 0x200) (by decide) held_self).est (by decide)
theorem discardSweep_est (s : State) (w : Sweep) : (s.discardSweep w).est =
    { s.est with discards := s.est.discards.filter (fun t => decide (s.tick < t + hourTicks)) ++ [s.tick] } := by
  unfold State.discardSweep
  extract_lets recent _ s1 s2 s3
  have hest : s3.est = s1.est := rfl
  refine ite_ind (Q := fun t : State => t.est = s1.est) (fun _ => ?_) (fun _ => hest)
  exact (foldl_ind (Q := Held s3 0x200) (fun _ _ h => held_retirePipe (by decide) h) held_self).est (by decide)

/-! ## The intake, and what a string shows of a sweep -/

/-- The sweep by which a string was last applied: its number, its time and its contactors. -/
def EstStr.stamp (x : EstStr) : Nat × Option Nat × Nat := (x.number, x.time, x.contact)
/-- The intake holds these sweeps, and string `i` stands as this sweep was applied to it. -/
structure Sampled (l : List Sweep) (i : Nat) (w : Sweep) (s : State) : Prop where
  intake : s.est.intake = l
  sample : (tget s.est.str i).map EstStr.stamp = some (w.number, some w.time, w.contact)

section
variable {s t : State} {l : List Sweep} {i : Nat} {w : Sweep}

theorem sampled_of_est (he : t.est = s.est) (h : Sampled l i w s) : Sampled l i w t :=
  ⟨he ▸ h.intake, he ▸ h.sample⟩
theorem sampled_of_held (ht : Held s 0x200 t) (h : Sampled l i w s) : Sampled l i w t := sampled_of_est (ht.est (by decide)) h
theorem sampled_stamp (h : Sampled l i w s) : (s.estStr i).stamp = (w.number, some w.time, w.contact) := by
  obtain ⟨x, hx, hstamp⟩ := Option.map_eq_some_iff.1 h.sample
  unfold State.estStr
  rw [hx]
  exact hstamp
/-- The string set anew under the same stamp. -/
theorem sampled_setEst {x : EstStr} (hx : x.stamp = (s.estStr i).stamp) (h : Sampled l i w s) : Sampled l i w (s.setEst i x) :=
  ⟨h.intake, (congrArg (Option.map EstStr.stamp) (tget_tput_self _ _ _)).trans (congrArg some (hx.trans (sampled_stamp h)))⟩
theorem sampled_ckptFor {cause : Nat} {qs : List Nat} (h : Sampled l i w s) : Sampled l i w (s.ckptFor cause qs) := by
  unfold State.ckptFor
  split
  · exact ⟨h.intake, h.sample⟩
  · exact ⟨h.intake, h.sample⟩
theorem sampled_raise {e : EvDef} {inst : Nat} {data : List Byte} (h : Sampled l i w s) : Sampled l i w (s.raise e inst data) :=
  sampled_of_held (held_raise (by decide) held_self) h
theorem sampled_anchorStr {kind : Nat} {t : CfgRec} {is : Rat} {now : Nat} (h : Sampled l i w s) :
    Sampled l i w (s.anchorStr i kind t is now) := by
  unfold State.anchorStr
  extract_lets x done other dt learn s1 outs s2 made
  have h1 : Sampled l i w s1 := sampled_setEst rfl h
  have h2 : Sampled l i w s2 := foldl_ind (fun _ _ => sampled_raise) h1
  exact sampled_ckptFor (sampled_raise (sampled_of_est (s := s2) rfl h2))
theorem sampled_anchorStep {t : CfgRec} {is : Rat} {now : Nat} (h : Sampled l i w s) :
    Sampled l i w (s.anchorStep i t is now) := by
  unfold State.anchorStep
  extract_lets x vs taper okC okD
  split
  split
  extract_lets s1 s2
  have h1 : Sampled l i w s1 := sampled_setEst rfl h
  have h2 : Sampled l i w s2 := ite_ind (fun _ => sampled_anchorStr h1) (fun _ => h1)
  exact ite_ind (fun _ => sampled_anchorStr h2) (fun _ => h2)
theorem sampled_offsetStep {t : CfgRec} {is : Rat} {now : Nat} (h : Sampled l i w s) :
    Sampled l i w (s.offsetStep i t is now) := by
  unfold State.offsetStep
  extract_lets x
  split
  · exact sampled_setEst rfl h
  · exact ite_ind
      (fun _ => ite_ind (fun _ => sampled_setEst rfl h) (fun _ => sampled_setEst rfl h))
      (fun _ => h)
theorem sampled_floatStep {t : CfgRec} {is : Rat} {now : Nat} (h : Sampled l i w s) : Sampled l i w (s.floatStep i t is now) := by
  unfold State.floatStep
  extract_lets -underBinder x inBand fresh
  split
  · exact sampled_setEst rfl h
  · exact sampled_setEst rfl h
  · refine ite_ind (fun _ => ite_ind
      (fun _ => ?_) (fun _ => sampled_setEst rfl h)) (fun _ => h)
    extract_lets was
    split
    extract_lets s1
    have h1 : Sampled l i w s1 := sampled_setEst rfl h
    refine foldl_ind (fun y p hy => ?_) h1
    extract_lets idx y1
    have hsuspect : Held y 0x200 y1 := held_flag (by decide) (held_raise (by decide) held_self) (off_any rfl)
    exact ite_ind (fun _ => sampled_of_held (held_shortTrip (by decide) hsuspect) hy)
      (fun _ => sampled_of_held hsuspect hy)
theorem sampled_convergeStep {t : CfgRec} (h : Sampled l i w s) : Sampled l i w (s.convergeStep i t) :=
  ite_ind (fun _ => sampled_raise (sampled_setEst rfl h)) (fun _ => h)
theorem sampled_countUpdates (h : Sampled l i w s) : Sampled l i w s.countUpdates := ⟨h.intake, h.sample⟩
end

/-! ## What goes before a sample leaves the intake -/

theorem intake_ckptFor (s : State) (cause : Nat) (qs : List Nat) : (s.ckptFor cause qs).est.intake = s.est.intake := by
  unfold State.ckptFor
  split <;> rfl
theorem intake_restoreApplied (s : State) : s.restoreApplied.est.intake = s.est.intake := by
  unfold State.restoreApplied
  extract_lets -underBinder waits
  split
  next r _ =>
    split
    · refine ite_ind (Q := fun t : State => t.est.intake = s.est.intake) (fun _ => rfl) (fun _ => ?_)
      extract_lets -underBinder src s1 s2
      have hraised (data : List Byte) :
          Held s1 0x200 ((s2.wrB R.EST_STATUS_RESTORE_RUNNING false).raise Ev.RESTORE_APPLIED 0 data) :=
        held_raise (by decide) (held_wrB (by decide)
          (held_flag (by decide) (held_wr (by decide) held_self (off_any rfl)) (off_any rfl)) (off_any rfl))
      exact (intake_ckptFor ..).trans ((congrArg Est.intake ((hraised _).est (by decide))).trans rfl)
    · rfl
  next => rfl
theorem intake_toDefaults (s : State) (i : Nat) : (s.toDefaults i).est.intake = s.est.intake := by
  unfold State.toDefaults
  split <;> rfl
theorem intake_beforeSweep (s : State) (i : Nat) (t : CfgRec) : (s.beforeSweep i t).est.intake = s.est.intake := by
  unfold State.beforeSweep
  extract_lets x s1 s2 s3 s4
  have h2 : s2.est.intake = s.est.intake :=
    ite_ind (Q := fun t : State => t.est.intake = s.est.intake) (fun _ => rfl) (fun _ => intake_restoreApplied s1)
  have h3 : s3.est.intake = s.est.intake :=
    ite_ind (Q := fun t : State => t.est.intake = s.est.intake) (fun _ => (intake_toDefaults ..).trans h2) (fun _ => h2)
  exact ite_ind (Q := fun t : State => t.est.intake = s.est.intake) (fun _ => h3) (fun _ => h3)
theorem intake_chargePipe (s : State) (p : Nat) : (s.chargePipe p).est.intake = s.est.intake := by
  unfold State.chargePipe
  extract_lets l l' src s1
  have h1 : s1.est.intake = s.est.intake :=
    ite_ind (Q := fun t : State => t.est.intake = s.est.intake) (fun _ => rfl) (fun _ => rfl)
  exact ite_ind (Q := fun t : State => t.est.intake = s.est.intake)
    (fun _ => (congrArg Est.intake ((held_retirePipe (F := 0x200) (by decide) held_self).est (by decide))).trans h1) (fun _ => h1)

/-! ## A sweep applied (R253) -/

/-- The sample of a string applied whole: what stands before protection judges it, with the sweep counted for its crossing. -/
theorem applySweep_judged {s : State} {i : Nat} {t : CfgRec} {w : Sweep} {redo : List Nat} (hn : w.xng < 16) :
    (s.applySweep i t w redo).judgedOf i w.time fun u => Sampled s.est.intake i w u ∧
      u.rd64 (R.XNG_SWEEPS_LO w.xng) = (s.rd64 (R.XNG_SWEEPS_LO w.xng) + 1) % 2 ^ 64 := by
  unfold State.applySweep
  extract_lets -underBinder ready node period is
  split
  rename_i spare drawn hdraw
  have hdrawn {b : State} {F : Nat} (hF : Dj F 0x1000000) (h : Held b F ready) : Held b F drawn :=
    held2_eq hdraw (ite_ind (fun _ => held2_mk h) (fun _ => held_drawReal hF h))
  extract_lets -underBinder x stepped dt gap resume zs ini left outs isv nOut nRes noted bal balanced prev stored anchored y r
    taught floated converged z shown counted swept told
  have hintake : noted.est.intake = s.est.intake :=
    (congrArg Est.intake ((hdrawn (F := 0x200) (by decide) held_self).est (by decide))).trans (intake_beforeSweep ..)
  have hbal : balanced.est = noted.est := ite_ind (Q := fun t : State => t.est = noted.est) (fun _ => rfl) (fun _ => rfl)
  have hset : Sampled s.est.intake i w stored :=
    ⟨(congrArg Est.intake hbal).trans hintake, congrArg (Option.map EstStr.stamp) (tget_tput_self _ _ _)⟩
  have hlearnt : Sampled s.est.intake i w taught :=
    ite_ind (fun _ => sampled_setEst rfl (sampled_anchorStep hset)) (fun _ => sampled_anchorStep hset)
  have hshown : Sampled s.est.intake i w shown :=
    sampled_setEst rfl (sampled_convergeStep (sampled_floatStep (sampled_offsetStep hlearnt)))
  have hcounted : Sampled s.est.intake i w told := sampled_of_est (s := counted) rfl (sampled_countUpdates hshown)
  have hstart : Held s 0x2000000000 drawn := hdrawn (by decide) (held_beforeSweep (by decide) held_self)
  have hcells : Held s 0x2000000000 stored := by
    have h3 : Held s 0x2000000000 noted := held_incBy (by decide)
      (held_incBy (by decide) hstart (off_EST_OUTLIERS (by decide))) (off_EST_RESETS (by decide))
    exact held_setEst (by decide)
      (ite_ind (fun _ => h3) (fun _ => held_wrR (by decide) h3 (off_PLT_BALANCE_AH (by decide))))
  have htaught : Held s 0x2000000000 taught := ite_ind (fun _ => held_setEst (by decide) (held_anchorStep (by decide) hcells))
    (fun _ => held_anchorStep (by decide) hcells)
  have hbefore : Held s 0x2000000000 counted := held_countUpdates (by decide) (held_setEst (by decide)
    (held_convergeStep (by decide) (held_floatStep (by decide) (held_offsetStep (by decide) htaught))))
  refine ⟨told, ⟨hcounted, ?_⟩, rfl⟩
  calc told.rd64 (R.XNG_SWEEPS_LO w.xng) = swept.rd64 (R.XNG_SWEEPS_LO w.xng) := rd64_congr rfl rfl
    _ = (counted.rd64 (R.XNG_SWEEPS_LO w.xng) + 1) % 2 ^ 64 := rd64_wr64 rfl rfl
    _ = (s.rd64 (R.XNG_SWEEPS_LO w.xng) + 1) % 2 ^ 64 := by rw [sweeps_of_held hn hbefore]

/-! ## The next waiting sweep (R253, R258, R259) -/

/-- The state in which a taken sweep acts: out of the intake, its mismatch counted and the wrong pipelines charged. -/
def State.taken (s : State) (e : Est) (wrong redo : List Nat) (retryFails : Bool) : State :=
  let three := decide (3 ≤ s.goodPipes.length)
  let wrong := (wrong.filter s.goodPipes.contains).eraseDups
  let redo := if three then redo else []
  let t := ({ s with est := e } : State).countMismatch three wrong redo retryFails
  if three then wrong.foldl State.chargePipe t else t
theorem intake_taken (s : State) (e : Est) (wrong redo : List Nat) (retryFails : Bool) :
    (s.taken e wrong redo retryFails).est.intake = e.intake := by
  unfold State.taken
  extract_lets three wrong' redo' t
  have ht : t.est.intake = e.intake := congrArg Est.intake (countMismatch_est ..)
  exact ite_ind (Q := fun t : State => t.est.intake = e.intake)
    (fun _ => foldl_ind (Q := fun t : State => t.est.intake = e.intake) (fun u p hu => (intake_chargePipe u p).trans hu) ht)
    (fun _ => ht)
theorem held_taken {b s : State} {F : Nat} {e : Est} {wrong redo : List Nat} {retryFails : Bool} (hF : Dj F 0x1000500020020b)
    (h : Held b F s) : Held b F (s.taken e wrong redo retryFails) := by
  unfold State.taken
  extract_lets three wrong' redo' t
  have ht : Held b F t := held_countMismatch (dj hF) (held_mk_est (dj hF) h)
  exact ite_ind (fun _ => foldl_ind (fun _ _ hu => held_chargePipe (dj hF) hu) ht) (fun _ => ht)
/-- The sample of a declared string. -/
def State.applyDeclared (s : State) (w : Sweep) (redo : List Nat) : State :=
  match s.stringAt w.xng w.berth with
  | none => s
  | some i => match s.strType i with
    | none => s
    | some t =>
      ({ s with est := { s.est with fresh := s.est.fresh ++ [(w.xng, w.berth, w.number)] } } : State).applySweep i t w redo
theorem sweepApply_eq {s : State} {w : Sweep} {e : Est} (hnext : s.nextSweep = some (w, e)) (wrong redo : List Nat)
    (retryFails : Bool) : s.sweepApply wrong redo retryFails =
      if (!decide (3 ≤ s.goodPipes.length) && retryFails) = true then (s.taken e wrong redo retryFails).discardSweep w
      else (s.taken e wrong redo retryFails).underTables w.tables fun t =>
        t.applyDeclared w (if decide (3 ≤ s.goodPipes.length) = true then redo else []) := by
  unfold State.sweepApply
  rw [hnext]
  rfl
theorem exec_sweepApply {s : State} (hpow : s.powered = true) (hrun : s.on R.EST_STATUS_RUNNING = true)
    (hdom : s.pwr.resetDom ≠ some 4) (wrong redo : List Nat) (retryFails : Bool) :
    exec (.sweepApply wrong redo retryFails) s = .next (s.sweepApply wrong redo retryFails) := if_pos (by simp [hpow, hrun, hdom])
theorem sweepApply_kept {s : State} {w : Sweep} {e : Est} (hnext : s.nextSweep = some (w, e)) (wrong redo : List Nat)
    {retryFails : Bool} (hgood : 3 ≤ s.goodPipes.length ∨ retryFails = false) :
    ∃ redo', s.sweepApply wrong redo retryFails =
      (s.taken e wrong redo retryFails).underTables w.tables fun t => t.applyDeclared w redo' :=
  ⟨_, (sweepApply_eq hnext ..).trans (if_neg (by rcases hgood with h | h <;> simp [h]))⟩
theorem sweepApply_discarded {s : State} {w : Sweep} {e : Est} (hnext : s.nextSweep = some (w, e)) (wrong redo : List Nat)
    (hgood : s.goodPipes.length < 3) :
    s.sweepApply wrong redo true = (s.taken e wrong redo true).discardSweep w :=
  (sweepApply_eq hnext ..).trans (if_pos (by simpa using hgood))
theorem stringAt_congr {s t : State} (hman : t.man = s.man) (n b : Nat) : t.stringAt n b = s.stringAt n b := by
  unfold State.stringAt State.declaredAt State.declared State.cfgAll
  rw [hman]
theorem strType_congr {s t : State} (hman : t.man = s.man) (i : Nat) : t.strType i = s.strType i := by
  unfold State.strType State.cfg
  rw [hman]
/-- What protection judges of a sample (R253): string `i` stands as the sweep applied it, and the sweep is counted once. -/
def State.ShowsSweep (u : State) (l : List Sweep) (i : Nat) (w : Sweep) (n : Nat) : Prop :=
  u.est.intake = l ∧ (u.estStr i).number = w.number ∧ (u.estStr i).time = some w.time ∧ (u.estStr i).contact = w.contact ∧
    u.rd64 (R.XNG_SWEEPS_LO w.xng) = (n + 1) % 2 ^ 64
theorem showsSweep_of_sampled {u : State} {l : List Sweep} {i n : Nat} {w : Sweep} (h : Sampled l i w u)
    (hn : u.rd64 (R.XNG_SWEEPS_LO w.xng) = (n + 1) % 2 ^ 64) : u.ShowsSweep l i w n := by
  obtain ⟨hnumber, hrest⟩ := Prod.mk.inj (sampled_stamp h)
  obtain ⟨htime, hcontact⟩ := Prod.mk.inj hrest
  exact ⟨h.intake, hnumber, htime, hcontact, hn⟩
theorem applyDeclared_judged {s : State} {i : Nat} {y : CfgRec} {w : Sweep} {redo : List Nat}
    (hat : s.stringAt w.xng w.berth = some i) (htype : s.strType i = some y) (hn : w.xng < 16) :
    (s.applyDeclared w redo).judgedOf i w.time fun u =>
      u.ShowsSweep s.est.intake i w (s.rd64 (R.XNG_SWEEPS_LO w.xng)) := by
  unfold State.applyDeclared
  rw [hat]
  dsimp only
  rw [htype]
  obtain ⟨u, ⟨hu, hcount⟩, heq⟩ := applySweep_judged (redo := redo) (t := y)
    (s := { s with est := { s.est with fresh := s.est.fresh ++ [(w.xng, w.berth, w.number)] } }) (i := i) hn
  exact ⟨u, showsSweep_of_sampled hu hcount, heq⟩
theorem held_applyDeclared {b s : State} {F : Nat} {w : Sweep} {redo : List Nat} (hF : Dj F 0x1000f401a007ab) (h : Held b F s) :
    Held b F (s.applyDeclared w redo) := by
  unfold State.applyDeclared
  split
  · exact h
  · split
    · exact h
    · exact held_applySweep (dj hF) (held_mk_est (dj hF) h)

/-- A state with the manifest side that it has. -/
theorem withMan_self {s : State} {m : Man} (h : s.man = m) : ({ s with man := m } : State) = s := by
  subst h
  rfl
section
variable {s : State} {w : Sweep} {e : Est} {i : Nat} {y : CfgRec} {m : Man} {wrong redo : List Nat} {retryFails : Bool}

theorem taken_man : (s.taken e wrong redo retryFails).man = s.man :=
  (held_taken (F := 0x10) (by decide) held_self).man (by decide)
/-- A sweep that has been taken, applied under a manifest that declares its string. -/
theorem taken_judged (redo' : List Nat) (hat : ({ s with man := m } : State).stringAt w.xng w.berth = some i)
    (htype : ({ s with man := m } : State).strType i = some y) (hn : w.xng < 16) :
    (({ s.taken e wrong redo retryFails with man := m } : State).applyDeclared w redo').judgedOf i w.time fun u =>
      u.ShowsSweep e.intake i w (s.rd64 (R.XNG_SWEEPS_LO w.xng)) := by
  have hsweeps : (s.taken e wrong redo retryFails).rd64 (R.XNG_SWEEPS_LO w.xng) = s.rd64 (R.XNG_SWEEPS_LO w.xng) :=
    sweeps_of_held hn (held_taken (by decide) held_self)
  rw [← intake_taken s e wrong redo retryFails, ← hsweeps]
  exact applyDeclared_judged (s := { s.taken e wrong redo retryFails with man := m })
    ((stringAt_congr (s := { s with man := m }) rfl ..).trans hat)
    ((strType_congr (s := { s with man := m }) rfl i).trans htype) hn
/-- A sweep under the tables in force (R253). -/
theorem sweepApply_judged (hnext : s.nextSweep = some (w, e)) (htables : w.tables = none)
    (hat : s.stringAt w.xng w.berth = some i) (htype : s.strType i = some y) (hn : w.xng < 16)
    (hgood : 3 ≤ s.goodPipes.length ∨ retryFails = false) :
    (s.sweepApply wrong redo retryFails).judgedOf i w.time fun u =>
      u.ShowsSweep e.intake i w (s.rd64 (R.XNG_SWEEPS_LO w.xng)) := by
  obtain ⟨redo', hkept⟩ := sweepApply_kept hnext wrong redo hgood
  rw [hkept, htables]
  have hjudged := taken_judged (e := e) (wrong := wrong) (redo := redo) (retryFails := retryFails) (m := s.man) redo' hat htype hn
  rwa [withMan_self taken_man] at hjudged
/-- A sweep under the tables that a patch has replaced since it began (R67): they are in force while it is applied. -/
theorem sweepApply_judged_oldTables {l : List CfgRec} (hnext : s.nextSweep = some (w, e)) (htables : w.tables = some l)
    (hm : m = { s.man with cfg := s.man.cfg.filter (fun x => x.sec != 4) ++ l })
    (hat : ({ s with man := m } : State).stringAt w.xng w.berth = some i)
    (htype : ({ s with man := m } : State).strType i = some y) (hn : w.xng < 16)
    (hgood : 3 ≤ s.goodPipes.length ∨ retryFails = false) :
    ({ s.sweepApply wrong redo retryFails with man := m } : State).judgedOf i w.time fun u =>
      u.ShowsSweep e.intake i w (s.rd64 (R.XNG_SWEEPS_LO w.xng)) := by
  obtain ⟨redo', hkept⟩ := sweepApply_kept hnext wrong redo hgood
  have hjudged := taken_judged (e := e) (wrong := wrong) (redo := redo) (retryFails := retryFails) redo' hat htype hn
  have hold : (({ s.taken e wrong redo retryFails with man := m } : State).applyDeclared w redo').man = m :=
    (held_applyDeclared (F := 0x10) (by decide) held_self).man (by decide)
  rw [← withMan_self hold] at hjudged
  subst hm
  rw [hkept, htables]
  unfold State.underTables
  dsimp only
  rw [taken_man]
  exact hjudged
end

end Sys2Proof.Machine
end

section
/-!
PROOFS. What the estimation rows bring about (R253, R258, R259, R263, R267, R275, R277, R283, R286, R289).
-/
namespace Sys2Proof.Machine
open Sys2Proof

/-! ## What the rows run -/

section
variable {s : State} {q : Nat} {c : Cmd}

theorem exec_checkpointDone {cause : Nat} {qs : List Nat} (hpow : s.powered = true) (hrun : s.est.ckptRun = some (cause, qs))
    (ok : Bool) :
    exec (.checkpointDone ok) s = .next (s.ckptDone ok cause qs) := by
  show execCheckpointDone ok s = _
  unfold execCheckpointDone
  rw [hrun]
  exact if_pos hpow
/-- The failed checkpoints, of which the retry takes the first. -/
def State.withRetries (s : State) (l : List (Nat × List Nat)) : State := { s with est := { s.est with ckptRetry := l } }
theorem exec_checkpointRetry {cause : Nat} {qs : List Nat} {l : List (Nat × List Nat)} (h : s.est.ckptRetry = (cause, qs) :: l) :
    exec .checkpointRetry s = .next ((s.withRetries l).ckptFor cause qs) := by
  show execCheckpointRetry s = _
  unfold execCheckpointRetry
  rw [h]
  rfl
theorem exec_freezeExpiry {i a : Nat} (hstate : (s.estStr i).state = 4) (hat : (s.estStr i).frozenAt = some a)
    (hdue : a + cfgD (s.cfg 1 1 0) (·.u32 0x1C) 90 * 86400 ≤ s.opSec) :
    exec (.freezeExpiry i) s = .next ((s.toDefaults i).modEst i fun x => { x with frozenAt := none }) := by
  show execFreezeExpiry i s = _
  unfold execFreezeExpiry
  rw [hstate, hat]
  exact if_pos hdue
theorem exec_checkpoint (h : s.serving q 0x0601 c = true) (hup : s.estUp = true) :
    exec (.checkpoint q) s = .next (s.ckptFor (if bit (u8 c.args 0) 0 = true then 4 else 6) [q]) := by
  show execCheckpoint q s = _
  unfold execCheckpoint
  exact (onCmd_run h _).trans (congrArg _ (if_pos hup))
theorem exec_stringFigures {r : RollStr} {a b : Nat} (h : s.serving q 0x0602 c = true)
    (hfind : s.est.roll.find? (·.idx == u16 c.args 0 % 4096) = some r) (hpick : r.pick (u8 c.args 2) = some (a, b)) :
    exec (.stringFigures q) s = .next (s.complete q OK (a + 2 ^ 32 * b)) := by
  show execStringFigures q s = _
  unfold execStringFigures
  refine (onCmd_run h _).trans ?_
  dsimp only
  rw [hfind]
  dsimp only
  rw [hpick]
theorem exec_reinitialise (h : s.serving q 0x0603 c = true) (hdeclared : (s.cfg 5 3 (u16 c.args 0 % 4096)).isSome = true) :
    exec (.reinitialise q) s = .next ((s.modEst (u16 c.args 0 % 4096) fun x => { x with toRest := true }).complete q OK 0) := by
  show execReinitialise q s = _
  unfold execReinitialise
  exact (onCmd_run h _).trans (congrArg _ (if_pos hdeclared))
theorem exec_resetLearned (h : s.serving q 0x0604 c = true) (hdeclared : (s.cfg 5 3 (u16 c.args 0 % 4096)).isSome = true) :
    exec (.resetLearned q) s = .next ((s.modEst (u16 c.args 0 % 4096) fun x => { x with toDefault := true }).complete q OK 0) := by
  show execResetLearned q s = _
  unfold execResetLearned
  exact (onCmd_run h _).trans (congrArg _ (if_pos hdeclared))
/-- The string whose cell `k` is no longer suspected of a short circuit. -/
def EstStr.unshorted (k : Nat) (x : EstStr) : EstStr := { x with cells := x.cells.modify k fun y => y.setFlag 11 false }
theorem exec_clearShort {k : Nat} (h : s.serving q 0x0605 c = true) (hk : k = u32 c.args 0 % 2 ^ 20)
    (hdeclared : (s.cfg 5 3 (k / 256)).isSome = true) :
    exec (.clearShort q) s = .next ((s.modEst (k / 256) (EstStr.unshorted (k % 256))).complete q OK 0) := by
  subst hk
  show execClearShort q s = _
  unfold execClearShort
  exact (onCmd_run h _).trans (congrArg _ (if_pos hdeclared))
theorem abortRestore_staged {r : Restore} (h : s.est.restore = some r) : s.abortRestore =
    ((({ s with est := { s.est with restore := none } } : State).wrB R.EST_RESTORE_STATUS_STAGED false).wr
      R.EST_RESTORE_STATUS_RESULT 6).wrB R.EST_STATUS_RESTORE_RUNNING false := by
  unfold State.abortRestore
  rw [h]
end

/-! ## The statement -/

/-- Settles O28, row by row: a sweep by `sweepApply_judged` and, under replaced tables, `sweepApply_judged_oldTables`, a discarded
one by `discardSweep_est`, the roll-up by `publish_eq`, checkpoints by `ckptFor_idle`, `ckptDone_written` and `ckptDone_failed`,
and the timers and commands of a string by what it then shows. -/
theorem estimationFollowsItsRows : Obligations.EstimationFollowsItsRows := by
  unfold Obligations.EstimationFollowsItsRows
  refine ⟨?sweep, ?sweepOldTables, ?sweepDiscarded, ?restComplete, ?rollup, ?interval, ?intervalRunning, ?written, ?failed, ?retry,
    ?retryRunning, ?freezeExpiry, ?checkpoint, ?stringFigures, ?reinitialise, ?resetLearned, ?clearShort, ?abortRestore⟩
  case sweep =>
    intro wrong redo r w e i y s hpow hrun hdom hnext htables hat htype hn hgood
    exact ⟨_, exec_sweepApply hpow hrun hdom .., sweepApply_judged hnext htables hat htype hn hgood⟩
  case sweepOldTables =>
    intro wrong redo r w e i y l m s hpow hrun hdom hnext htables hm hat htype hn hgood
    exact ⟨_, exec_sweepApply hpow hrun hdom .., sweepApply_man ..,
      sweepApply_judged_oldTables hnext htables hm hat htype hn hgood⟩
  case sweepDiscarded =>
    intro wrong redo w e s hpow hrun hdom hnext hgood
    refine ⟨_, exec_sweepApply hpow hrun hdom .., ?_⟩
    have htick : (s.taken e wrong redo true).tick = s.tick := tick_of_held (held_taken (by decide) held_self)
    dsimp only
    rw [sweepApply_discarded hnext wrong redo hgood, discardSweep_est, htick]
    exact ⟨intake_taken .., List.getLast?_concat ..⟩
  case restComplete =>
    intro i s hstate hdeclared
    exact ⟨_, if_pos ⟨hstate, hdeclared⟩, congrArg EstStr.init (estStr_modEst ..)⟩
  case rollup =>
    intro s hpow hfrom hto
    exact ⟨s.publish, if_pos (by simp [hpow, hfrom, hto]), publish_seq s, publish_tick s, rolled_roll s⟩
  case interval =>
    intro s hup hidle
    refine ⟨s.ckptFor 1 [], if_pos hup, ?_, ckptRunning_ckptFor hidle ..⟩
    rw [ckptFor_idle hidle]
    rfl
  case intervalRunning =>
    intro x s hup hrun hnext
    refine ⟨s.ckptFor 1 [], if_pos hup, ?_⟩
    rw [ckptFor_running hrun hnext]
    exact ⟨hrun, rfl⟩
  case written =>
    intro cause q c s hpow hrun hcause hserving
    refine ⟨_, exec_checkpointDone hpow hrun true, ?_⟩
    rw [ckptDone_written hcause]
    have hest : ((s.ckptTold cause).complete q OK s.nextGen).est = s.est :=
      (complete_est ..).trans ((held_ckptTold s cause).est (by decide))
    have hslot : (tget ((s.ckptTold cause).complete q OK s.nextGen).nv.ckpt s.ckptSlot).map (·.gen) = some s.nextGen := by
      rw [complete_nv]
      exact ckptTold_slot s cause
    have hdone : ((s.ckptTold cause).complete q OK s.nextGen).completed (s.ckptTold cause) q c OK s.nextGen := by
      have hgen : s.nextGen < 2 ^ 32 := Nat.mod_lt _ (by decide)
      have hlt : s.nextGen < 2 ^ 64 := Nat.lt_trans hgen (by decide)
      have h := complete_completed (status := OK) (result := s.nextGen) (ckptTold_serving hserving cause)
      rwa [Nat.mod_eq_of_lt hlt] at h
    exact ⟨congrArg Est.ckptNext hest, rfl, hslot,
      completed_within hdone (held_ckptTold s cause) (held_nextCkpt (F := 0x800000) (by decide) held_self) rfl⟩
  case failed =>
    intro cause k qs s hpow hrun
    refine ⟨_, exec_checkpointDone hpow hrun false, ?_⟩
    rw [ckptDone_failed]
    have hslot := ckptSpoil_slots s.ckptMissed k
    rw [ckptMissed_slot, (ckptMissed_slots s).1] at hslot
    exact ⟨congrArg Est.ckptNext ((ckptSpoil_est _).trans (ckptMissed_est s)), rfl,
      congrArg (fun e : Est => e.ckptRetry ++ [(cause, qs)]) (ckptMissed_est s), hslot⟩
  case retry =>
    intro cause qs l s hretry hidle
    refine ⟨_, exec_checkpointRetry hretry, ?_, ?_, ckptRunning_ckptFor (s := s.withRetries l) hidle ..⟩
    all_goals
      rw [ckptFor_idle (s := s.withRetries l) hidle]
      rfl
  case retryRunning =>
    intro cause qs x l s hretry hrun hnext
    refine ⟨_, exec_checkpointRetry hretry, ?_⟩
    rw [ckptFor_running (s := s.withRetries l) hrun hnext]
    exact ⟨rfl, hrun, rfl⟩
  case freezeExpiry =>
    intro i a y s hstate hat hdue htype
    refine ⟨_, exec_freezeExpiry hstate hat hdue, congrArg EstStr.frozenAt (estStr_modEst ..), ?_⟩
    rw [estStr_modEst]
    exact learned_toDefaults htype
  case checkpoint =>
    intro q c s hserving hup hidle
    refine ⟨_, exec_checkpoint hserving hup, ?_⟩
    rw [ckptFor_idle hidle]
    exact ⟨rfl, running_of_serving hserving⟩
  case stringFigures =>
    intro q c r a b s hserving hfind hpick
    exact ⟨_, exec_stringFigures hserving hfind hpick, complete_completed hserving⟩
  case reinitialise =>
    intro q c s hserving hdeclared
    obtain ⟨hdone, hstr⟩ := modEst_complete (i := u16 c.args 0 % 4096) hserving fun x => { x with toRest := true }
    exact ⟨_, exec_reinitialise hserving hdeclared, hdone, congrArg EstStr.toRest hstr⟩
  case resetLearned =>
    intro q c s hserving hdeclared
    obtain ⟨hdone, hstr⟩ := modEst_complete (i := u16 c.args 0 % 4096) hserving fun x => { x with toDefault := true }
    exact ⟨_, exec_resetLearned hserving hdeclared, hdone, congrArg EstStr.toDefault hstr⟩
  case clearShort =>
    intro q k c s hserving hk hdeclared
    obtain ⟨hdone, hstr⟩ := modEst_complete (i := k / 256) hserving (EstStr.unshorted (k % 256))
    exact ⟨_, exec_clearShort hserving hk hdeclared, hdone, congrArg EstStr.cells hstr⟩
  case abortRestore =>
    intro sess r s hkeyed hstaged hrestore
    refine ⟨s.abortRestore, if_pos (by simp [hkeyed, hstaged]), ?_⟩
    rw [abortRestore_staged hrestore]
    exact ⟨rfl, (rd_wr_apart _ _ _ _ rfl rfl).trans (rd_wr _ _ _ rfl (by decide)),
      (on_wrB_apart _ _ _ _ rfl rfl).trans ((on_wr_apart _ _ _ _ rfl rfl).trans (on_wrB _ _ _ rfl rfl)), on_wrB _ _ _ rfl rfl⟩

end Sys2Proof.Machine
end

section
/-!
PROOFS. What the protection and dispatch rows leave unchanged (R293, R297, R298, R302, R325, R326, R343, R346, R353, R358).
-/
namespace Sys2Proof.Machine
open Sys2Proof

/-! ## Which registers a container's trip, a source and a billing interval write -/

section
variable {A : Nat → Prop} {b0 s : State}

theorem kept_completeOpt {q : Option Nat} {status result : Nat} (hs : WordsKept A b0 s) :
    WordsKept A b0 (s.completeOpt q status result) := by
  cases q with
  | none => exact hs
  | some q => exact kept_complete hs
/-- A container's trip writes its two counts, its event bit and what an event and its record write (R302, R318). -/
theorem kept_tripCon {c cause : Nat} (hq : ∀ a, hqReg a → ¬A a) (hr : ∀ a, recReg a → ¬A a) (hfails : ¬A R.PLT_CLOSE_FAILS.addr)
    (htrips : ¬A R.PLT_BREAKER_TRIPS.addr) (hev : ¬A R.PLT_PROT_EVENT_STATUS.addr) (hs : WordsKept A b0 s) :
    WordsKept A b0 (s.tripCon c cause) := by
  unfold State.tripCon
  refine ite_ind (fun _ => ite_ind (fun _ => kept_regs hs rfl) (fun _ => hs)) (fun _ => ?_)
  have hcount : WordsKept A b0 (if cause = 4 then s.inc R.PLT_CLOSE_FAILS else s) :=
    ite_ind (fun _ => kept_inc hfails hs) (fun _ => hs)
  exact kept_completeOpt (kept_completeOpt (kept_flag hq hev (kept_raise (e := Ev.BREAKER_TRIPPED) (by decide) hq hr
    (kept_inc htrips (kept_regs hcount rfl)))))
theorem kept_useSource {src : Nat} (h : ¬A R.PLT_SOURCE_SELECT.addr) (hs : WordsKept A b0 s) : WordsKept A b0 (s.useSource src) :=
  kept_regs (kept_wr (f := R.PLT_SOURCE_SELECT_IN_USE) h hs) rfl
theorem kept_fallBack {src : Nat} (hq : ∀ a, hqReg a → ¬A a) (hr : ∀ a, recReg a → ¬A a) (hsel : ¬A R.PLT_SOURCE_SELECT.addr)
    (hst : ¬A R.PLT_DISP_STATUS.addr) (hev : ¬A R.PLT_DISP_EVENT_STATUS.addr) (hs : WordsKept A b0 s) :
    WordsKept A b0 (s.fallBack src) :=
  kept_flag hq hev (kept_raise (e := Ev.SOURCE_FALLBACK) (by decide) hq hr (kept_wrB hst (kept_useSource hsel hs)))
theorem kept_sourceBack (hq : ∀ a, hqReg a → ¬A a) (hr : ∀ a, recReg a → ¬A a) (hsel : ¬A R.PLT_SOURCE_SELECT.addr)
    (hst : ¬A R.PLT_DISP_STATUS.addr) (hs : WordsKept A b0 s) : WordsKept A b0 s.sourceBack :=
  kept_raise (e := Ev.SOURCE_RESTORED) (by decide) hq hr (kept_wrB hst (kept_useSource hsel hs))
theorem kept_selectSource {code : Nat} (hq : ∀ a, hqReg a → ¬A a) (hr : ∀ a, recReg a → ¬A a) (hsel : ¬A R.PLT_SOURCE_SELECT.addr)
    (hst : ¬A R.PLT_DISP_STATUS.addr) (hev : ¬A R.PLT_DISP_EVENT_STATUS.addr) (hs : WordsKept A b0 s) :
    WordsKept A b0 (s.selectSource code) := by
  have hsel' : WordsKept A b0 (s.wr R.PLT_SOURCE_SELECT_SELECTED (code % 8)) := kept_wr hsel hs
  exact ite_ind (fun _ => ite_ind (fun _ => kept_fallBack hq hr hsel hst hev hsel') (fun _ => kept_wrB hst (kept_useSource hsel hsel')))
    (fun _ => hs)
/-- The registers in which the open interval is shown (R353). -/
theorem kept_showBill (hi : ¬A R.PLT_BILL_IMPORT.addr) (he : ¬A R.PLT_BILL_EXPORT.addr) (hf : ¬A R.PLT_BILL_FLAGS.addr)
    (hn : ¬A R.PLT_BILL_SEQ.addr) (hs : WordsKept A b0 s) : WordsKept A b0 s.showBill := by
  unfold State.showBill
  split
  · exact hs
  · exact kept_wr hn (kept_wr hf (kept_wrR he (kept_wrR hi hs)))
theorem kept_openBill {extra : Nat} (hi : ¬A R.PLT_BILL_IMPORT.addr) (he : ¬A R.PLT_BILL_EXPORT.addr) (hf : ¬A R.PLT_BILL_FLAGS.addr)
    (hn : ¬A R.PLT_BILL_SEQ.addr) (hs : WordsKept A b0 s) : WordsKept A b0 (s.openBill extra) :=
  kept_showBill hi he hf hn (kept_regs hs rfl)
theorem kept_storeBill {b : Billing} (hq : ∀ a, hqReg a → ¬A a) (hr : ∀ a, recReg a → ¬A a) (hs : WordsKept A b0 s) :
    WordsKept A b0 (s.storeBill b) :=
  kept_raise (e := Ev.INTERVAL_CLOSED) (by decide) hq hr (kept_regs hs rfl)
theorem kept_closeBill {flag : Option Nat} (hq : ∀ a, hqReg a → ¬A a) (hr : ∀ a, recReg a → ¬A a) (hs : WordsKept A b0 s) :
    WordsKept A b0 (s.closeBill flag) := by
  unfold State.closeBill
  split
  · exact hs
  · extract_lets f stored
    have hstored : WordsKept A b0 stored := kept_storeBill hq hr hs
    clear_value stored
    exact kept_regs hstored rfl
theorem kept_scheduleClear {q : Nat} {c : Cmd} (h : ¬A R.PLT_SCHEDULE_DEPTH.addr) (hs : WordsKept A b0 s) :
    WordsKept A b0 (s.scheduleClear q c) :=
  kept_complete (kept_wr h (kept_regs hs rfl))
theorem kept_scheduleAdd {q : Nat} {c : Cmd} (h : ¬A R.PLT_SCHEDULE_DEPTH.addr) (hs : WordsKept A b0 s) :
    WordsKept A b0 (s.scheduleAdd q c) :=
  ite_ind (fun _ => kept_complete hs) (fun _ => ite_ind (fun _ => kept_complete hs)
    (fun _ => kept_complete (kept_wr h (kept_regs hs rfl))))
end

/-! ## The statement -/

/-- Settles O51: by `runs_keeps` from the mask of each row, and by `runs_keeps_words` for the rows of a container's trip, of the
sources, of a billing interval's close and of the schedule, whose registers are told one by one. -/
theorem protectionAndDispatchFrames : Obligations.ProtectionAndDispatchFrames := by
  unfold Obligations.ProtectionAndDispatchFrames
  refine ⟨?orderlyOpenTimeout, ?stringCloseStart, ?stringClosingTimeout, ?containerClosingTimeout, ?containerCurrentRead,
    ?branchCurrentRead, ?containerStatusRead, ?overcurrentBlockExpiry, ?balanceCycle, ?thermalSetpointCycle,
    ?thermalFaultBlockEnd, ?stringClose, ?stringOpen, ?containerClose, ?containerOpen, ?resetTrip, ?thermalMode, ?dispatchCycle,
    ?sourceFault, ?sourceRestore, ?sourceSelectWrite, ?pcsStatusDatagram, ?pcsLostTimeout, ?mainsLostConfirm,
    ?mainsPresentConfirm, ?fireAlarmActive, ?fireAlarmHoldExpiry, ?billingIntervalClose, ?billingPersist, ?scheduleAdd,
    ?scheduleClear, ?billingRead, ?returnToSource⟩
  case orderlyOpenTimeout => exact fun _ _ => runs_keeps (fun _ hF => held_execOrderlyOpenTimeout hF held_self) (by decide)
  case stringCloseStart => exact fun _ _ => runs_keeps (fun _ hF => held_execStringCloseStart hF held_self) (by decide)
  case stringClosingTimeout => exact fun _ _ => runs_keeps (fun _ hF => held_execStringClosingTimeout hF held_self) (by decide)
  case containerCurrentRead => exact fun _ _ => runs_keeps (fun _ hF => held_execContainerCurrentRead hF held_self) (by decide)
  case branchCurrentRead => exact fun _ _ => runs_keeps (fun _ hF => held_execBranchCurrentRead hF held_self) (by decide)
  case containerStatusRead => exact fun _ _ => runs_keeps (fun _ hF => held_execContainerStatusRead hF held_self) (by decide)
  case overcurrentBlockExpiry =>
    exact fun _ _ _ => runs_keeps (fun _ hF => held_execOvercurrentBlockExpiry hF held_self) (by decide)
  case balanceCycle => exact fun _ => runs_keeps (fun _ hF => held_execBalanceCycle hF held_self) (by decide)
  case thermalSetpointCycle => exact fun _ => runs_keeps (fun _ hF => held_execThermalSetpointCycle hF held_self) (by decide)
  case thermalFaultBlockEnd => exact fun _ _ => runs_keeps (fun _ hF => held_execThermalFaultBlockEnd hF held_self) (by decide)
  case stringClose => exact fun _ _ => runs_keeps (fun _ hF => held_execStringClose hF held_self) (by decide)
  case stringOpen => exact fun _ _ => runs_keeps (fun _ hF => held_execStringOpen hF held_self) (by decide)
  case containerClose => exact fun _ _ => runs_keeps (fun _ hF => held_execContainerClose hF held_self) (by decide)
  case containerOpen => exact fun _ _ => runs_keeps (fun _ hF => held_execContainerOpen hF held_self) (by decide)
  case resetTrip => exact fun _ _ => runs_keeps (fun _ hF => held_execResetTrip hF held_self) (by decide)
  case thermalMode => exact fun _ _ => runs_keeps (fun _ hF => held_execThermalMode hF held_self) (by decide)
  case dispatchCycle => exact fun _ => runs_keeps (fun _ hF => held_execDispatchCycle hF held_self) (by decide)
  case pcsStatusDatagram => exact fun _ _ => runs_keeps (fun _ hF => held_execPcsStatusDatagram hF held_self) (by decide)
  case pcsLostTimeout => exact fun _ _ => runs_keeps (fun _ hF => held_execPcsLostTimeout hF held_self) (by decide)
  case mainsLostConfirm => exact fun _ _ => runs_keeps (fun _ hF => held_execMainsLostConfirm hF held_self) (by decide)
  case mainsPresentConfirm => exact fun _ => runs_keeps (fun _ hF => held_execMainsPresentConfirm hF held_self) (by decide)
  case fireAlarmActive => exact fun _ => runs_keeps (fun _ hF => held_execFireAlarmActive hF held_self) (by decide)
  case fireAlarmHoldExpiry => exact fun _ => runs_keeps (fun _ hF => held_execFireAlarmHoldExpiry hF held_self) (by decide)
  case billingPersist => exact fun _ => runs_keeps (fun _ hF => held_execBillingPersist hF held_self) (by decide)
  case billingRead => exact fun _ _ => runs_keeps (fun _ hF => held_execBillingRead hF held_self) (by decide)
  case containerClosingTimeout =>
    exact fun c s => runs_keeps_words (apply_ite Host.Outcome.next _ _ _).symm
      (fun _ hF => held_execContainerClosingTimeout hF held_self) (by decide)
      (ite_ind (fun _ => kept_tripCon (listed_hq rfl) listed_rec (listed_reg rfl) (listed_reg rfl) (listed_reg rfl) kept_self)
        (fun _ => kept_self))
  case sourceFault =>
    exact fun src s => runs_keeps_words (apply_ite Host.Outcome.next _ _ _).symm
      (fun _ hF => held_execSourceFault hF held_self) (by decide)
      (ite_ind (fun _ => kept_fallBack (listed_hq rfl) listed_rec (listed_reg rfl) (listed_reg rfl) (listed_reg rfl) kept_self)
        (fun _ => kept_self))
  case sourceRestore =>
    exact fun s => runs_keeps_words (apply_ite Host.Outcome.next _ _ _).symm
      (fun _ hF => held_execSourceRestore hF held_self) (by decide)
      (ite_ind (fun _ => kept_sourceBack (listed_hq rfl) listed_rec (listed_reg rfl) (listed_reg rfl) kept_self) (fun _ => kept_self))
  case returnToSource =>
    exact fun sess key s => runs_keeps_words (apply_ite Host.Outcome.next _ _ _).symm
      (fun _ hF => held_execReturnToSource hF held_self) (by decide)
      (ite_ind (fun _ => kept_sourceBack (listed_hq rfl) listed_rec (listed_reg rfl) (listed_reg rfl) kept_self) (fun _ => kept_self))
  case sourceSelectWrite =>
    exact fun sess code s => runs_keeps_words (apply_ite Host.Outcome.next _ _ _).symm
      (fun _ hF => held_execSourceSelectWrite hF held_self) (by decide)
      (ite_ind (fun _ => kept_selectSource (listed_hq rfl) listed_rec (listed_reg rfl) (listed_reg rfl) (listed_reg rfl) kept_self)
        (fun _ => kept_self))
  case billingIntervalClose =>
    intro s
    obtain ⟨t, ht⟩ := exec_completes .billingIntervalClose s
    refine runs_keeps_words ht (fun _ hF => held_execBillingIntervalClose hF held_self) (by decide) ?_
    replace ht : execBillingIntervalClose s = .next t := ht
    unfold execBillingIntervalClose at ht
    split at ht
    · obtain rfl := Host.Outcome.next.inj ht
      exact kept_self
    · split at ht
      · obtain rfl := Host.Outcome.next.inj ht
        exact kept_openBill (listed_reg rfl) (listed_reg rfl) (listed_reg rfl) (listed_reg rfl)
          (kept_closeBill (listed_hq rfl) listed_rec kept_self)
      · obtain rfl := Host.Outcome.next.inj ht
        exact kept_self
  case scheduleAdd =>
    intro q s
    obtain ⟨t, ht⟩ := exec_completes (.scheduleAdd q) s
    exact runs_keeps_words ht (fun _ hF => held_execScheduleAdd hF held_self) (by decide)
      (kept_onCmd ht fun _ => kept_scheduleAdd (listed_reg rfl) kept_self)
  case scheduleClear =>
    intro q s
    obtain ⟨t, ht⟩ := exec_completes (.scheduleClear q) s
    exact runs_keeps_words ht (fun _ hF => held_execScheduleClear hF held_self) (by decide)
      (kept_onCmd ht fun _ => kept_scheduleClear (listed_reg rfl) kept_self)

end Sys2Proof.Machine
end

section
/-!
PROOFS. A string opened while the command that asked for its close still waits (R301, R316).
-/
namespace Sys2Proof.Machine
open Sys2Proof

/-- A command that has completed runs no longer (R176). -/
theorem complete_running (s : State) (q status result : Nat) : (s.complete q status result).running q = none := by
  unfold State.complete
  split
  · assumption
  · have hdel : tget (tdel s.hq.running q) q = none := tget_tdel_self ..
    dsimp only
    split
    · exact hdel
    · split <;> exact hdel
/-- The end of a close ends the command that waits for it (R301). -/
theorem endClose_running {s : State} {i q : Nat} (h : (s.pstr i).closeQ = some q) (status : Nat) :
    (s.endClose i status).running q = none := by
  unfold State.endClose
  rw [h]
  exact complete_running ..
theorem strTo_running (s : State) (i state : Nat) : (s.strTo i state).hq.running = s.hq.running :=
  ite_ind (Q := fun t : State => t.hq.running = s.hq.running) (fun _ => rfl)
    (fun _ => raise_keeps (keptByRaise_running _) rfl)
/-- The orderly open of a string leaves the commands that run (R295). -/
theorem startOpen_running (s : State) (i : Nat) : (s.startOpen i).hq.running = s.hq.running := by
  unfold State.startOpen
  extract_lets x opened
  exact ite_ind (Q := fun t : State => t.hq.running = s.hq.running) (fun _ => rfl)
    (fun _ => ite_ind (Q := fun t : State => t.hq.running = s.hq.running) (fun _ => strTo_running opened i 4) (fun _ => rfl))

/-- The state that STRING_OPEN leaves of a closed string: its close ends and its orderly open starts (R316, R301). -/
def State.closedOpened (s : State) (q i : Nat) : State :=
  (((s.setIntent i false).endClose i 0x0710).modPstr i fun x => { x with openQ := some q }).startOpen i
theorem exec_stringOpen_closed {s : State} {q i : Nat} {c : Cmd} (hserving : s.serving q 0x0702 c = true)
    (hi : i = u16 c.args 0 % 4096) (hdeclared : (s.cfg 5 3 i).isSome = true) (hrole : s.openRole c = true)
    (hstate : (s.pstr i).state = 3) (hopenQ : (s.pstr i).openQ = none) (hopening : (s.pstr i).opening = false)
    (hidle : s.idle = true) : exec (.stringOpen q) s = .next (s.closedOpened q i) := by
  have hx : (s.setIntent i false).pstr i = s.pstr i := rfl
  have hend : (s.closedOpened q i).idle = true := by
    have hheld : Held s 0x100 (s.closedOpened q i) :=
      held_startOpen (by decide) (held_modPstr (by decide) (held_endClose (by decide) (held_setIntent (by decide) held_self)))
    unfold State.idle
    rw [hheld.xng (by decide)]
    exact hidle
  show execStringOpen q s = _
  unfold execStringOpen
  refine (onCmd_run hserving _).trans (congrArg _ ?_)
  unfold State.stringOpen
  dsimp only
  rw [← hi, hx, hopenQ, hstate, hopening, if_neg (by simp [Option.isSome_iff_ne_none.1 hdeclared]), if_neg (by simp [hrole]),
    if_neg fun h => absurd h.1 (by decide), if_neg (by decide), if_neg (by decide), if_pos (.inl rfl)]
  exact settled_idle hend
theorem closedOpened_running {s : State} {q i : Nat} (h : (s.pstr i).closeQ = some q) : (s.closedOpened q i).running q = none := by
  unfold State.closedOpened State.running
  rw [startOpen_running]
  exact endClose_running (s := s.setIntent i false) h 0x0710

/-- A STRING_OPEN of string 0, from session 0. -/
def openString0 : Cmd := ⟨0, 0, 1, 5, 0x0702, 0, [0#8, 0#8]⟩
/-- Queue 1 serves the STRING_OPEN of a string that is closed and still names queue 1 as the one that waits for its close. -/
def closedForQueue1 : State :=
  { State.reset with
    man := { State.reset.man with cfg := [⟨5, 3, 0, []⟩] }
    hq := { State.reset.hq with
      sessions := [(0, ⟨1, false, 31, 31, 0, [], [], [], [], [], none, none, [], [], 0, 0⟩)]
      running := [(1, openString0)] }
    prot := { State.reset.prot with str := [(0, { PStr.fresh with state := 3, closeQ := some 1 })] } }

/-- Refutes O29: by its clause on the STRING_OPEN of a closed string the command runs on. The clause leaves open which queue waits
for the string to close; where that is the queue of the STRING_OPEN itself, the end of the close (R301) completes the command. -/
theorem not_stringsAndContainersOpenAndClose : ¬ Obligations.StringsAndContainersOpenAndClose := by
  unfold Obligations.StringsAndContainersOpenAndClose
  rintro ⟨-, -, -, -, -, -, -, -, -, -, -, -, -, -, -, -, hopen, -⟩
  have hserving : closedForQueue1.serving 1 0x0702 openString0 = true := by decide +kernel
  have hdeclared : (closedForQueue1.cfg 5 3 0).isSome = true := by decide +kernel
  have hrole : closedForQueue1.openRole openString0 = true := by decide +kernel
  have hidle : closedForQueue1.idle = true := by decide +kernel
  obtain ⟨t, ht, -, -, -, -, hruns⟩ := hopen 1 0 openString0 closedForQueue1 hserving rfl hdeclared hrole rfl rfl rfl hidle
  rw [exec_stringOpen_closed hserving rfl hdeclared hrole rfl rfl rfl hidle] at ht
  obtain rfl := Host.Outcome.next.inj ht
  rw [closedOpened_running rfl] at hruns
  cases hruns

end Sys2Proof.Machine
end

section
/-!
PROOFS. Plant dispatch: what leaves its registers, its PCS units and its other figures (R321 to R362).
-/
namespace Sys2Proof.Machine
open Sys2Proof

/-! ## Fields of dispatch registers -/

/-- The field stands in a register of dispatch (R360, R361). -/
def Fld.inDisp (f : Fld) : Bool := decide (0x70080 ≤ f.addr) && decide (f.addr < 0x70200)
/-- None of the listed fields shares a bit with the field. -/
def Fld.clearOf (f : Fld) (l : List Fld) : Bool := l.all fun g => g.fits && g.apart f

theorem inDisp_range {f : Fld} (h : f.inDisp = true) : 0x70080 ≤ f.addr ∧ f.addr < 0x70200 := by
  simpa [Fld.inDisp] using h
theorem clearOf_mem {f g : Fld} {l : List Fld} (h : f.clearOf l = true) (hg : g ∈ l) : g.fits = true ∧ g.apart f = true := by
  simpa using List.all_eq_true.1 h g hg
theorem clearOf_mono {f : Fld} {l l' : List Fld} (h : f.clearOf l = true) (hsub : l' ⊆ l) : f.clearOf l' = true :=
  List.all_eq_true.2 fun g hg => List.all_eq_true.1 h g (hsub hg)

section
variable {s t : State} {f g : Fld}

/-- What keeps the plant's block, bit 39 of a mask, keeps the fields of dispatch. -/
theorem rd_of_heldPlt (h : Held s 0x8000000000 t) (hf : f.inDisp = true) : t.rd f = s.rd f := by
  obtain ⟨hlo, hhi⟩ := inDisp_range hf
  refine rd_congr (h.words _ ?_ (by omega))
  rw [blockNo_range (k := 7) (Nat.le_trans (by decide) hlo) (Nat.lt_trans hhi (by decide))]
  decide
theorem rd_wr_clear {l : List Fld} (h : f.clearOf l = true) (hg : g ∈ l) (v : Nat) : (s.wr g v).rd f = s.rd f := by
  obtain ⟨hfits, hapart⟩ := clearOf_mem h hg
  exact rd_wr_apart _ _ _ _ hfits hapart
/-- An occurrence leaves the fields outside the event queues that do not share its bit. -/
theorem rd_flag_clear {l : List Fld} (h : f.clearOf l = true) (hg : g ∈ l) (hf : ¬hqReg f.addr) : (s.flag g).rd f = s.rd f := by
  have hset : (s.wrB g true).rd f = s.rd f := rd_wr_clear h hg _
  exact ite_ind (Q := fun t : State => t.rd f = s.rd f) (fun _ => rfl)
    (fun _ => ite_ind (Q := fun t : State => t.rd f = s.rd f) (fun _ => (rd_congr (word_post hf (by omega))).trans hset) (fun _ => hset))
theorem rd_raise_disp {e : EvDef} {inst : Nat} {data : List Byte} (hf : f.inDisp = true) : (s.raise e inst data).rd f = s.rd f :=
  rd_of_heldPlt (held_raise (by decide) held_self) hf
theorem not_hqReg_of_inDisp (h : f.inDisp = true) : ¬hqReg f.addr := by
  obtain ⟨hlo, -⟩ := inDisp_range h
  rintro ⟨-, hhi⟩
  omega
theorem on_congr (h : t.rd f = s.rd f) : t.on f = s.on f := congrArg (· == 1) h
theorem disp_of_held (h : Held s 0x800 t) : t.disp = s.disp := h.disp (by decide)
theorem raise_disp (s : State) (e : EvDef) (inst : Nat) (data : List Byte) : (s.raise e inst data).disp = s.disp :=
  disp_of_held (held_raise (by decide) held_self)
theorem flag_disp (s : State) (f : Fld) : (s.flag f).disp = s.disp := disp_of_held (held_flag (by decide) held_self (off_any (by decide)))
end

/-! ## Datagrams change nothing of dispatch but the units (R342, R348) -/

/-- The figures of dispatch beside its PCS units. -/
def Disp.plain (d : Disp) : Disp := { d with pcs := [] }

section
variable {s : State}

theorem sendPcs_disp (s : State) (p typ app : Nat) (payload : List Byte) :
    (s.sendPcs p typ app payload).disp = (s.setPcs p { s.pcs p with txSeq := ((s.pcs p).txSeq + 1) % 2 ^ 16 }).disp := by
  unfold State.sendPcs
  extract_lets x q d cages s1 s2
  have hfirst : s2.disp = s1.disp := ite_ind (Q := fun t : State => t.disp = s1.disp) (fun _ => rfl) (fun _ => rfl)
  exact ite_ind (Q := fun t : State => t.disp = s1.disp) (fun _ => hfirst) (fun _ => hfirst)
theorem sendPcs_plain (s : State) (p typ app : Nat) (payload : List Byte) : (s.sendPcs p typ app payload).disp.plain = s.disp.plain := by
  rw [sendPcs_disp]
  rfl
theorem sendPcsStanding_plain (s : State) (p : Nat) : (s.sendPcsStanding p).disp.plain = s.disp.plain := by
  unfold State.sendPcsStanding
  split
  · rfl
  · exact sendPcs_plain ..
theorem holdPcs_plain (s : State) (reason : Nat) : (s.holdPcs reason).disp.plain = s.disp.plain :=
  foldl_ind (Q := fun t : State => t.disp.plain = s.disp.plain) (fun _ _ h => (sendPcs_plain ..).trans h) rfl
theorem refreshAll_plain (s : State) : s.refreshAll.disp.plain = s.disp.plain := by
  unfold State.refreshAll
  extract_lets s1 s2
  have hnodes : Held s 0x800 s1 := foldl_ind (fun _ _ h => foldl_ind (fun _ _ h => ite_ind
    (fun _ => held_sendStanding (by decide) h) (fun _ => h)) h) held_self
  have hunits : s2.disp.plain = s.disp.plain :=
    foldl_ind (Q := fun t : State => t.disp.plain = s.disp.plain) (fun _ _ h => (sendPcsStanding_plain ..).trans h)
      (congrArg Disp.plain (disp_of_held hnodes))
  have hbuses : Held s2 0x800 (s2.buses.foldl
      (fun s b => if s.canState b = 1 ∨ s.canState b = 2 then s.busStanding b else s) s2) :=
    foldl_ind (fun _ _ h => ite_ind (fun _ => held_busStanding (by decide) h) (fun _ => h)) held_self
  exact (congrArg Disp.plain (disp_of_held hbuses)).trans hunits
theorem rd_sendPcs {f : Fld} {p typ app : Nat} {payload : List Byte}
    (h : f.clearOf [R.NET_PCS_TX, R.NET_PORT_TX_FRAMES 2, R.NET_PORT_TX_FRAMES 3] = true) :
    (s.sendPcs p typ app payload).rd f = s.rd f := by
  have hsent : ∀ {u : State} {k kind dst : Nat} {d : List Byte},
      R.NET_PORT_TX_FRAMES k ∈ [R.NET_PCS_TX, R.NET_PORT_TX_FRAMES 2, R.NET_PORT_TX_FRAMES 3] →
      ((u.inc R.NET_PCS_TX).sendEth k kind dst d).rd f = u.rd f := fun {u} {k} _ _ _ hk =>
    (rd_wr_clear h hk _).trans (rd_wr_clear h (by simp) _)
  unfold State.sendPcs
  extract_lets x q d cages s1 s2
  have hfirst : s2.rd f = s.rd f := ite_ind (Q := fun t : State => t.rd f = s.rd f) (fun _ => hsent (by simp)) (fun _ => rfl)
  exact ite_ind (Q := fun t : State => t.rd f = s.rd f) (fun _ => (hsent (by simp)).trans hfirst) (fun _ => hfirst)
end

end Sys2Proof.Machine
end

section
/-!
PROOFS. The operating modes of the plant: mains lost and present, the fire alarm and its end (R350, R351).
-/
namespace Sys2Proof.Machine
open Sys2Proof

section
variable {s : State} {f : Fld}

/-! ## The mode set (R350) -/

theorem setMode_mode (s : State) {m : Nat} (hm : m < 4) : (s.setMode m).dispMode = m := by
  unfold State.setMode
  split
  · assumption
  · exact (rd_flag_clear (l := [R.PLT_DISP_EVENT_STATUS_MODE_CHANGE]) rfl (by simp) (not_hqReg_of_inDisp rfl)).trans
      ((rd_wr_apart _ _ _ _ rfl rfl).trans (rd_wr _ _ _ rfl hm))
theorem setMode_evac {m : Nat} (h : s.dispMode ≠ m) : (s.setMode m).evac = (m == EVACUATION) := by
  unfold State.setMode
  rw [if_neg h]
  exact (on_congr (rd_flag_clear (l := [R.PLT_DISP_EVENT_STATUS_MODE_CHANGE]) rfl (by simp) (not_hqReg_of_inDisp rfl))).trans
    (on_wrB _ _ _ rfl rfl)
/-- What a change of mode writes. -/
abbrev modeFlds : List Fld := [R.PLT_DISP_STATUS_MODE, R.PLT_EVAC_STATUS_EVACUATION, R.PLT_DISP_EVENT_STATUS_MODE_CHANGE]
theorem rd_setMode {m : Nat} (h : f.clearOf modeFlds = true) (hf : f.inDisp = true) : (s.setMode m).rd f = s.rd f :=
  ite_ind (Q := fun t : State => t.rd f = s.rd f) (fun _ => rfl) (fun _ =>
    (rd_flag_clear h (by simp) (not_hqReg_of_inDisp hf)).trans ((rd_wr_clear h (by simp) _).trans (rd_wr_clear h (by simp) _)))
theorem setMode_disp (s : State) (m : Nat) : (s.setMode m).disp = s.disp := disp_of_held (held_setMode (by decide) held_self)

/-! ## The thermal stage (R144) -/

/-- What a thermal stage writes beside the registers of power and of estimation. -/
abbrev thermalFlds : List Fld := [R.PLT_PROT_STATUS_LAYER1_ONLY, R.PLT_DISP_STATUS_RUNNING]
theorem rd_thermalTo {st : Nat} (h : f.clearOf thermalFlds = true) (hf : f.inDisp = true) : (s.thermalTo st).rd f = s.rd f := by
  unfold State.thermalTo
  extract_lets old s1 s2 s3 s4 s5
  have h2 : Held s 0x8000000000 s2 := by
    have h1 : Held s 0x8000000000 s1 := held_flag (by decide) (held_wr (by decide) held_self (off_PWR_THERMAL_STATUS_STAGE (by decide)))
      (off_PWR_EVENT_STATUS_THERMAL_STAGE (by decide))
    exact ite_ind (fun _ => held_wrB (by decide) h1 (off_PWR_THERMAL_STATUS_EVAC_OVERRIDE (by decide))) (fun _ => h1)
  have h3 : s3.rd f = s.rd f := (rd_wr_clear h (by simp) _).trans (rd_of_heldPlt h2 hf)
  have h4 : s4.rd f = s.rd f := ite_ind (Q := fun t : State => t.rd f = s.rd f)
    (fun _ => (rd_of_heldPlt (held_inc (by decide) held_self (off_PWR_REDUCED_COUNT (by decide))) hf).trans h3) (fun _ => h3)
  have h5 : s5.rd f = s.rd f := (rd_wr_clear h (by simp) _).trans ((rd_of_heldPlt (held_wrB (by decide) (held_inc (by decide) held_self
    (off_PWR_LOOPS_ONLY_COUNT (by decide))) (off_EST_STATUS_RUNNING (by decide))) hf).trans h4)
  refine ite_ind (Q := fun t : State => t.rd f = s.rd f) (fun _ => ?_) (fun _ => ?_)
  · exact ite_ind (Q := fun t : State => t.rd f = s.rd f)
      (fun _ => (rd_of_heldPlt (held_holdPcs (by decide) (held_holdRings (by decide) held_self)) hf).trans h5) (fun _ => h5)
  · exact ite_ind (Q := fun t : State => t.rd f = s.rd f) (fun _ => (rd_of_heldPlt (held_refreshAll (by decide)
      (held_wrB (by decide) held_self (off_EST_STATUS_RUNNING (by decide)))) hf).trans h4) (fun _ => h4)
theorem thermalTo_plain (s : State) (st : Nat) : (s.thermalTo st).disp.plain = s.disp.plain := by
  unfold State.thermalTo
  extract_lets old s1 s2 s3 s4 s5
  have h4 : s4.disp = s.disp := by
    have h1 : s1.disp = s.disp := flag_disp _ _
    have h2 : s2.disp = s.disp := ite_ind (Q := fun t : State => t.disp = s.disp) (fun _ => h1) (fun _ => h1)
    exact ite_ind (Q := fun t : State => t.disp = s.disp) (fun _ => h2) (fun _ => h2)
  have hheld : ((s5.holdRings 4).holdPcs 4).disp.plain = s.disp.plain :=
    (holdPcs_plain ..).trans (congrArg Disp.plain ((disp_of_held (held_holdRings (by decide) held_self)).trans h4))
  refine ite_ind (Q := fun t : State => t.disp.plain = s.disp.plain) (fun _ => ?_) (fun _ => ?_)
  · exact ite_ind (Q := fun t : State => t.disp.plain = s.disp.plain) (fun _ => hheld) (fun _ => congrArg Disp.plain h4)
  · exact ite_ind (Q := fun t : State => t.disp.plain = s.disp.plain)
      (fun _ => (refreshAll_plain _).trans (congrArg Disp.plain h4)) (fun _ => congrArg Disp.plain h4)

/-! ## Evacuation operation begins (R351) -/

theorem rd_evacEnter_setMode (h : f.clearOf thermalFlds = true) (hf : f.inDisp = true) :
    s.evacEnter.rd f = (s.setMode EVACUATION).rd f := by
  unfold State.evacEnter
  extract_lets e s1 s2
  have h2 : s2.rd f = (s.setMode EVACUATION).rd f := rd_raise_disp (s := s1) hf
  exact ite_ind (Q := fun t : State => t.rd f = (s.setMode EVACUATION).rd f)
    (fun _ => (rd_of_heldPlt (held_evacOverride (by decide) held_self) hf).trans ((rd_thermalTo h hf).trans h2)) (fun _ => h2)
theorem evacEnter_mode (s : State) : s.evacEnter.dispMode = EVACUATION :=
  (rd_evacEnter_setMode rfl rfl).trans (setMode_mode s (by decide))
theorem evacEnter_evac (h : s.dispMode ≠ EVACUATION) : s.evacEnter.evac = true :=
  (on_congr (rd_evacEnter_setMode rfl rfl)).trans (setMode_evac h)
theorem evacEnter_on (h : f.clearOf (thermalFlds ++ modeFlds) = true) (hf : f.inDisp = true) : s.evacEnter.on f = s.on f := by
  have hthermal : f.clearOf thermalFlds = true := clearOf_mono h (List.subset_append_left ..)
  have hmode : f.clearOf modeFlds = true := clearOf_mono h (List.subset_append_right ..)
  exact on_congr ((rd_evacEnter_setMode hthermal hf).trans (rd_setMode hmode hf))
theorem evacEnter_evacEres (s : State) : s.evacEnter.disp.evacEres = s.eRes := by
  unfold State.evacEnter
  extract_lets e s1 s2
  have h2 : s2.disp.evacEres = e := congrArg Disp.evacEres (raise_disp s1 _ _ _)
  refine ite_ind (Q := fun t : State => t.disp.evacEres = e) (fun _ => ?_) (fun _ => h2)
  have hover : ((s2.thermalTo 1).evacOverride).disp = (s2.thermalTo 1).disp := disp_of_held (held_evacOverride (by decide) held_self)
  rw [hover]
  exact (congrArg Disp.evacEres (thermalTo_plain s2 1)).trans h2
/-- Eres is a figure of the roll-up and the manifest (R335). -/
theorem eRes_congr {t : State} (hest : t.est = s.est) (hman : t.man = s.man) : t.eRes = s.eRes := by
  have hcons : t.islandCons = s.islandCons := by
    unfold State.islandCons State.pcsUnits State.cfgAll
    rw [hman]
  have hrec : t.reserveRec = s.reserveRec := by
    unfold State.reserveRec State.cfg
    rw [hman]
  unfold State.eRes
  rw [hest, hcons, hrec]

/-! ## Evacuation operation ends (R351) -/

/-- The registers of dispatch. -/
def dispReg (a : Nat) : Prop := 0x70080 ≤ a ∧ a < 0x70200
theorem not_dispReg_hq (a : Nat) (h : hqReg a) : ¬dispReg a := by
  rintro ⟨hlo, -⟩
  obtain ⟨-, hhi⟩ := h
  omega
theorem not_dispReg_rec (a : Nat) (h : recReg a) : ¬dispReg a := by
  rintro ⟨-, hhi⟩
  obtain ⟨hlo, -⟩ := h
  omega
theorem not_dispReg_low {a : Nat} (h : a < 0x70080) : ¬dispReg a := fun hd => by
  obtain ⟨hlo, -⟩ := hd
  omega
theorem kept_endOpen {A : Nat → Prop} {b0 : State} {i status : Nat} (hs : WordsKept A b0 s) : WordsKept A b0 (s.endOpen i status) :=
  kept_completeOpt (kept_regs hs rfl)
theorem kept_endClose {A : Nat → Prop} {b0 : State} {i status : Nat} (hs : WordsKept A b0 s) : WordsKept A b0 (s.endClose i status) :=
  kept_completeOpt (kept_regs hs rfl)
section
variable {b0 : State}
theorem dispKept_raise {e : EvDef} {inst : Nat} {data : List Byte} (he : e.queue < 4) (hs : WordsKept dispReg b0 s) :
    WordsKept dispReg b0 (s.raise e inst data) := kept_raise he not_dispReg_hq not_dispReg_rec hs
theorem dispKept_flag (hf : f.addr < 0x70080) (hs : WordsKept dispReg b0 s) : WordsKept dispReg b0 (s.flag f) :=
  kept_flag not_dispReg_hq (not_dispReg_low hf) hs
theorem dispKept_inc (hf : f.addr < 0x70080) (hs : WordsKept dispReg b0 s) : WordsKept dispReg b0 (s.inc f) :=
  kept_inc (not_dispReg_low hf) hs
theorem dispKept_startOpen {i : Nat} (hs : WordsKept dispReg b0 s) : WordsKept dispReg b0 (s.startOpen i) := by
  unfold State.startOpen
  extract_lets x s1
  have h1 : WordsKept dispReg b0 s1 := kept_regs hs rfl
  exact ite_ind (fun _ => hs) (fun _ => ite_ind
    (fun _ => ite_ind (fun _ => h1) (fun _ => dispKept_raise (by decide) (kept_regs h1 rfl))) (fun _ => h1))
/-- A string's trip leaves the registers of dispatch (R293). -/
theorem dispKept_tripStr {i cause cell : Nat} {value : Rat} {opens : Bool} (hs : WordsKept dispReg b0 s) :
    WordsKept dispReg b0 (s.tripStr i cause cell value opens) := by
  unfold State.tripStr
  refine ite_ind (fun _ => hs) (fun _ => ?_)
  extract_lets closing s1 s2 s3 s4 s5 s6
  have h3 : WordsKept dispReg b0 s3 :=
    dispKept_flag (by decide) (dispKept_raise (by decide) (dispKept_inc (by decide) (kept_regs hs rfl)))
  have h4 : WordsKept dispReg b0 s4 := ite_ind
    (fun _ => dispKept_flag (by decide) (dispKept_raise (by decide) (dispKept_inc (by decide) h3)))
    (fun _ => ite_ind (fun _ => dispKept_inc (by decide) h3) (fun _ => h3))
  have h6 : WordsKept dispReg b0 s6 := ite_ind (fun _ => kept_endOpen h4) (fun _ => kept_endClose (kept_endOpen h4))
  exact ite_ind (fun _ => dispKept_startOpen h6) (fun _ => h6)
theorem dispKept_protEvacEnd (hs : WordsKept dispReg b0 s) : WordsKept dispReg b0 s.protEvacEnd := by
  unfold State.protEvacEnd
  extract_lets s1
  refine foldl_ind (fun t i ht => ?_) (kept_wrB (not_dispReg_low (by decide)) hs)
  extract_lets t1
  have h1 : WordsKept dispReg b0 t1 := by
    unfold t1
    split
    · exact dispKept_tripStr ht
    · exact ht
  exact ite_ind (fun _ => dispKept_startOpen h1) (fun _ => h1)
end
/-- The end of evacuation operation writes the mode, then SHEDDING and what protection and the thermal stage write. -/
theorem rd_evacLeave_setMode (h : f.clearOf (R.PLT_EVAC_STATUS_SHEDDING :: thermalFlds) = true) (hf : f.inDisp = true) :
    s.evacLeave.rd f = (s.setMode (if s.mainsLost then ISLAND else GRID)).rd f := by
  have hthermal : f.clearOf thermalFlds = true := clearOf_mono h (List.subset_cons_self ..)
  unfold State.evacLeave
  extract_lets used s1 s2 s3
  have h1 : s1.rd f = (s.setMode (if s.mainsLost then ISLAND else GRID)).rd f := rd_raise_disp hf
  have h2 : s2.rd f = s1.rd f := (rd_wr_clear h (by simp) _).trans
    (rd_of_heldPlt (held_wrB (by decide) held_self (off_PWR_THERMAL_STATUS_EVAC_OVERRIDE (by decide))) hf)
  have h3 : s3.rd f = s2.rd f := rd_congr (dispKept_protEvacEnd kept_self _ (inDisp_range hf))
  have h0 := h3.trans (h2.trans h1)
  exact ite_ind (Q := fun t : State => t.rd f = _) (fun _ => (rd_thermalTo hthermal hf).trans h0) (fun _ => h0)

/-! ## The rows -/

theorem exec_mainsLostConfirm (units : Bool) (hup : s.underway = true) (hlost : s.mainsLost = false) :
    exec (.mainsLostConfirm units) s = .next (s.mainsGo units) := by
  show Host.Outcome.next _ = _
  rw [if_pos (by simp [hup, hlost])]
theorem exec_mainsPresentConfirm (hup : s.underway = true) (hlost : s.mainsLost = true) :
    exec .mainsPresentConfirm s = .next s.mainsBack := by
  show Host.Outcome.next _ = _
  rw [if_pos (by simp [hup, hlost])]
theorem exec_fireAlarmActive (hup : s.underway = true) : exec .fireAlarmActive s = .next s.fireGo := by
  show Host.Outcome.next _ = _
  rw [if_pos hup]
theorem exec_fireAlarmHoldExpiry (hup : s.underway = true) (hfire : s.fireAlarm = true) :
    exec .fireAlarmHoldExpiry s = .next s.fireOver := by
  show Host.Outcome.next _ = _
  rw [if_pos (by simp [hup, hfire])]

/-- The state in which mains lost has been shown and posted. -/
def State.mainsGone (s : State) (units : Bool) : State :=
  (s.wrB R.PLT_EVAC_STATUS_MAINS_LOST true).raise Ev.MAINS_LOST 0 (le 1 (b2n units))
theorem rd_mainsGone {units : Bool} (h : f.clearOf [R.PLT_EVAC_STATUS_MAINS_LOST] = true) (hf : f.inDisp = true) :
    (s.mainsGone units).rd f = s.rd f := (rd_raise_disp hf).trans (rd_wr_clear h (by simp) _)
theorem mainsGone_lost (s : State) (units : Bool) : (s.mainsGone units).mainsLost = true :=
  (on_congr (rd_raise_disp rfl)).trans (on_wrB _ _ _ rfl rfl)
theorem mainsGone_fireAlarm (s : State) (units : Bool) : (s.mainsGone units).fireAlarm = s.fireAlarm :=
  on_congr (rd_mainsGone rfl rfl)
theorem mainsGone_eRes (s : State) (units : Bool) : (s.mainsGone units).eRes = s.eRes :=
  have h : Held s 0x210 (s.mainsGone units) :=
    held_raise (by decide) (held_wrB (by decide) held_self (off_PLT_EVAC_STATUS_MAINS_LOST (by decide)))
  eRes_congr (h.est (by decide)) (h.man (by decide))
theorem mainsGo_island {units : Bool} (h : s.fireAlarm = false) : s.mainsGo units = (s.mainsGone units).setMode ISLAND :=
  if_neg (show ¬(s.mainsGone units).fireAlarm = true by simp [mainsGone_fireAlarm, h])
theorem mainsGo_evac {units : Bool} (h : s.fireAlarm = true) : s.mainsGo units = (s.mainsGone units).evacEnter :=
  if_pos ((mainsGone_fireAlarm s units).trans h)
/-- The state in which mains present has been shown and posted. -/
def State.mainsShown (s : State) : State := (s.wrB R.PLT_EVAC_STATUS_MAINS_LOST false).raise Ev.MAINS_RESTORED 0 []
theorem mainsShown_mode (s : State) : s.mainsShown.dispMode = s.dispMode :=
  (rd_raise_disp rfl).trans (rd_wr_apart _ _ _ _ rfl rfl)
theorem mainsBack_lost (s : State) : s.mainsBack.mainsLost = false := by
  have hshown : s.mainsShown.mainsLost = false := (on_congr (rd_raise_disp rfl)).trans (on_wrB _ _ _ rfl rfl)
  exact ite_ind (Q := fun t : State => t.mainsLost = false) (fun _ => (on_congr (rd_setMode rfl rfl)).trans hshown) (fun _ => hshown)
theorem mainsBack_mode (s : State) : s.mainsBack.dispMode = if s.dispMode = ISLAND then GRID else s.dispMode := by
  show (if s.mainsShown.dispMode = ISLAND then s.mainsShown.setMode GRID else s.mainsShown).dispMode = _
  rw [mainsShown_mode]
  split
  · exact setMode_mode _ (by decide)
  · exact mainsShown_mode s
/-- The state in which the fire alarm has been shown, with its hold time. -/
def State.fireShown (s : State) : State :=
  (s.wrB R.PLT_EVAC_STATUS_FIRE_ALARM true).wr R.PLT_EVAC_STATUS_ALARM_HOLD (s.wrB R.PLT_EVAC_STATUS_FIRE_ALARM true).alarmHold
/-- What the fire alarm and its end write. -/
abbrev fireFlds : List Fld := [R.PLT_EVAC_STATUS_FIRE_ALARM, R.PLT_EVAC_STATUS_ALARM_HOLD]
theorem rd_fireShown (h : f.clearOf fireFlds = true) : s.fireShown.rd f = s.rd f :=
  (rd_wr_clear h (by simp) _).trans (rd_wr_clear h (by simp) _)
theorem fireShown_fireAlarm (s : State) : s.fireShown.fireAlarm = true :=
  (on_wr_apart _ _ _ _ rfl rfl).trans (on_wrB _ _ _ rfl rfl)
theorem fireGo_evac (hlost : s.mainsLost = true) (hevac : s.evac = false) : s.fireGo = s.fireShown.evacEnter := by
  have hlost' : s.fireShown.mainsLost = true := (on_congr (rd_fireShown rfl)).trans hlost
  have hevac' : s.fireShown.evac = false := (on_congr (rd_fireShown rfl)).trans hevac
  exact if_pos (show (s.fireShown.mainsLost && !s.fireShown.evac) = true by simp [hlost', hevac'])
theorem fireGo_mains (hlost : s.mainsLost = false) : s.fireGo = s.fireShown := by
  have hlost' : s.fireShown.mainsLost = false := (on_congr (rd_fireShown rfl)).trans hlost
  exact if_neg (show ¬(s.fireShown.mainsLost && !s.fireShown.evac) = true by simp [hlost'])
/-- The state in which the end of the fire alarm has been shown. -/
def State.fireEnded (s : State) : State := (s.wrB R.PLT_EVAC_STATUS_FIRE_ALARM false).wr R.PLT_EVAC_STATUS_ALARM_HOLD 0
theorem rd_fireEnded (h : f.clearOf fireFlds = true) : s.fireEnded.rd f = s.rd f :=
  (rd_wr_clear h (by simp) _).trans (rd_wr_clear h (by simp) _)
theorem fireOver_eq (s : State) : s.fireOver = if s.evac then s.fireEnded.evacLeave else s.fireEnded := by
  have hevac : s.fireEnded.evac = s.evac := on_congr (rd_fireEnded rfl)
  rw [← hevac]
  rfl
theorem fireOver_fireAlarm (s : State) : s.fireOver.fireAlarm = false := by
  have hended : s.fireEnded.fireAlarm = false := (on_wr_apart _ _ _ _ rfl rfl).trans (on_wrB _ _ _ rfl rfl)
  rw [fireOver_eq]
  exact ite_ind (Q := fun t : State => t.fireAlarm = false)
    (fun _ => (on_congr ((rd_evacLeave_setMode rfl rfl).trans (rd_setMode rfl rfl))).trans hended) (fun _ => hended)
theorem fireOver_mode (s : State) :
    s.fireOver.dispMode = if s.evac then (if s.mainsLost then ISLAND else GRID) else s.dispMode := by
  have hlost : s.fireEnded.mainsLost = s.mainsLost := on_congr (rd_fireEnded rfl)
  rw [fireOver_eq]
  split
  · rw [← hlost]
    exact (rd_evacLeave_setMode rfl rfl).trans (setMode_mode _ (by split <;> decide))
  · exact rd_fireEnded rfl
end

end Sys2Proof.Machine
end

section
/-!
PROOFS. The sources of the set-point: in use, fallback, return and selection (R325, R326, R361).
-/
namespace Sys2Proof.Machine
open Sys2Proof

section
variable {s : State} {f : Fld}

/-! ## A switch of source (R324, R325) -/

theorem useSource_inUse (s : State) (src : Nat) : (s.useSource src).srcInUse = src % 8 := rd_wr_self s _ _ rfl
theorem rd_useSource {src : Nat} (h : f.clearOf [R.PLT_SOURCE_SELECT_IN_USE] = true) : (s.useSource src).rd f = s.rd f :=
  rd_wr_clear h (by simp) _
/-- The source that a fault of another switches to (R325): the fallback, or ZERO where that faults too or is the one in fault. -/
def State.fallbackFor (s : State) (src : Nat) : Nat :=
  if src = s.srcRec.elim 0 (·.u8 0x11) ∨ s.srcFaulty (s.srcRec.elim 0 (·.u8 0x11)) = true then 0 else s.srcRec.elim 0 (·.u8 0x11)
theorem fallBack_eq (s : State) (src : Nat) : s.fallBack src =
    (((s.useSource (s.fallbackFor src)).wrB R.PLT_DISP_STATUS_SOURCE_FALLBACK true).raise Ev.SOURCE_FALLBACK 0
      (le 1 src ++ le 1 (s.fallbackFor src))).flag R.PLT_DISP_EVENT_STATUS_SOURCE_FALLBACK := rfl
theorem rd_fallBack_switched {src : Nat} (h : f.clearOf [R.PLT_DISP_EVENT_STATUS_SOURCE_FALLBACK] = true) (hf : f.inDisp = true) :
    (s.fallBack src).rd f = ((s.useSource (s.fallbackFor src)).wrB R.PLT_DISP_STATUS_SOURCE_FALLBACK true).rd f := by
  rw [fallBack_eq, rd_flag_clear h (by simp) (not_hqReg_of_inDisp hf), rd_raise_disp hf]
theorem fallBack_inUse (s : State) (src : Nat) : (s.fallBack src).srcInUse = s.fallbackFor src % 8 :=
  (rd_fallBack_switched rfl rfl).trans ((rd_wr_apart _ _ _ _ rfl rfl).trans (useSource_inUse ..))
theorem fallBack_shown (s : State) (src : Nat) : (s.fallBack src).on R.PLT_DISP_STATUS_SOURCE_FALLBACK = true :=
  (on_congr (rd_fallBack_switched rfl rfl)).trans (on_wrB _ _ _ rfl rfl)
theorem fallBack_selected (s : State) (src : Nat) :
    (s.fallBack src).rd R.PLT_SOURCE_SELECT_SELECTED = s.rd R.PLT_SOURCE_SELECT_SELECTED :=
  (rd_fallBack_switched rfl rfl).trans ((rd_wr_apart _ _ _ _ rfl rfl).trans (rd_useSource rfl))
theorem fallBack_switching (s : State) (src : Nat) : (s.fallBack src).disp.switching = true := by
  rw [fallBack_eq, flag_disp, raise_disp]
  rfl

/-! ## The return to the selected source (R325, R361) -/

theorem rd_sourceBack_switched (hf : f.inDisp = true) : s.sourceBack.rd f =
    ((s.useSource (s.rd R.PLT_SOURCE_SELECT_SELECTED)).wrB R.PLT_DISP_STATUS_SOURCE_FALLBACK false).rd f := rd_raise_disp hf
theorem sourceBack_returned (s : State) : s.sourceBack.srcInUse = s.rd R.PLT_SOURCE_SELECT_SELECTED ∧
    s.sourceBack.on R.PLT_DISP_STATUS_SOURCE_FALLBACK = false ∧ s.sourceBack.disp.switching = true := by
  refine ⟨?_, (on_congr (rd_sourceBack_switched rfl)).trans (on_wrB _ _ _ rfl rfl), congrArg Disp.switching (raise_disp ..)⟩
  have hcode : s.rd R.PLT_SOURCE_SELECT_SELECTED < 8 := rd_lt s _
  exact (rd_sourceBack_switched rfl).trans ((rd_wr_apart _ _ _ _ rfl rfl).trans
    ((useSource_inUse ..).trans (Nat.mod_eq_of_lt hcode)))

/-! ## A selection (R326) -/

/-- Whether a source is in fault does not depend on which one is selected. -/
theorem srcFaulty_select (s : State) (v src : Nat) : (s.wr R.PLT_SOURCE_SELECT_SELECTED v).srcFaulty src = s.srcFaulty src := by
  have hknown : (s.wr R.PLT_SOURCE_SELECT_SELECTED v).timeKnown = s.timeKnown := congrArg (· != 0) (rd_wr_apart _ _ _ _ rfl rfl)
  have hnow : (s.wr R.PLT_SOURCE_SELECT_SELECTED v).plantNow = s.plantNow :=
    rd64_congr (word_wr_ne _ _ _ _ (by decide)) (word_wr_ne _ _ _ _ (by decide))
  have hlost : (s.wr R.PLT_SOURCE_SELECT_SELECTED v).mainsLost = s.mainsLost := on_wr_apart _ _ _ _ rfl rfl
  unfold State.srcFaulty
  split
  · rw [hknown, hnow]
    rfl
  · rfl
  · rfl
  · rw [hlost]
    rfl
  · rfl
theorem selectSource_refused {code : Nat} (h : 5 ≤ code % 8 ∨ s.srcRec.any (fun r => bit (r.u8 0x12) (code % 8)) = false) :
    s.selectSource code = s := by
  refine if_neg ?_
  rw [Bool.and_eq_true, decide_eq_true_eq]
  rintro ⟨hlt, hpermit⟩
  rcases h with h | h
  · omega
  · rw [hpermit] at h
    cases h
section
variable {code : Nat} (hpermit : s.srcRec.any (fun r => bit (r.u8 0x12) (code % 8)) = true) (hlt : code % 8 < 5)
include hpermit hlt
theorem selectSource_good (h : s.srcFaulty (code % 8) = false) : s.selectSource code =
    ((s.wr R.PLT_SOURCE_SELECT_SELECTED (code % 8)).useSource (code % 8)).wrB R.PLT_DISP_STATUS_SOURCE_FALLBACK false := by
  refine (if_pos (by rw [hpermit, decide_eq_true hlt]; rfl)).trans (if_neg ?_)
  rw [srcFaulty_select, h]
  decide
theorem selectSource_faulty (h : s.srcFaulty (code % 8) = true) :
    s.selectSource code = (s.wr R.PLT_SOURCE_SELECT_SELECTED (code % 8)).fallBack (code % 8) :=
  (if_pos (by rw [hpermit, decide_eq_true hlt]; rfl)).trans (if_pos ((srcFaulty_select ..).trans h))
end

/-! ## The rows -/

theorem exec_sourceFault {src : Nat} (huse : src = s.srcInUse) (h0 : src ≠ 0) (h5 : src ≠ 5) :
    exec (.sourceFault src) s = .next (s.fallBack src) := if_pos ⟨huse, h0, h5⟩
theorem exec_sourceRestore (hfb : s.on R.PLT_DISP_STATUS_SOURCE_FALLBACK = true)
    (hgood : s.srcFaulty (s.rd R.PLT_SOURCE_SELECT_SELECTED) = false) : exec .sourceRestore s = .next s.sourceBack :=
  if_pos (by rw [hfb, hgood]; rfl)
theorem exec_returnToSource {sess key : Nat} (hkey : s.keyed sess key = true) (hfb : s.on R.PLT_DISP_STATUS_SOURCE_FALLBACK = true)
    (hgood : s.srcFaulty (s.rd R.PLT_SOURCE_SELECT_SELECTED) = false) :
    exec (.returnToSource sess key) s = .next s.sourceBack := if_pos (by rw [hkey, hfb, hgood]; rfl)
theorem exec_sourceSelectWrite {sess code : Nat} (hrole : s.holds sess 2 = true) (hon : s.powered = true) :
    exec (.sourceSelectWrite sess code) s = .next (s.selectSource code) := if_pos (by rw [hrole, hon]; rfl)
/-- A code that is not permitted changes nothing, whoever writes it (R326). -/
theorem exec_sourceSelectWrite_refused {code : Nat} (sess : Nat)
    (h : 5 ≤ code % 8 ∨ s.srcRec.any (fun r => bit (r.u8 0x12) (code % 8)) = false) :
    exec (.sourceSelectWrite sess code) s = .next s :=
  ite_ind (Q := fun r : Res State => r = .next s) (fun _ => congrArg Host.Outcome.next (selectSource_refused h)) (fun _ => rfl)
end

end Sys2Proof.Machine
end

section
/-!
PROOFS. The 1 ms cycle of dispatch: the layers, the bounds and the set-point (R330, R331), with the interval that runs on (R353).
-/
namespace Sys2Proof.Machine
open Sys2Proof

section
variable {s t : State} {f : Fld}

/-! ## What the figures shown in a cycle change -/

/-- What the reserve's figures and flags write (R333 to R339). -/
abbrev reserveFlds : List Fld := [R.PLT_RESERVE_REQUIRED, R.PLT_RESERVE_AVAILABLE, R.PLT_RESERVE_MARGIN, R.PLT_RESERVE_LIGHTING,
  R.PLT_RESERVE_LIFTS, R.PLT_TRIP_ENERGY, R.PLT_DISP_STATUS_RESERVE_POWER_SHORT, R.PLT_DISP_STATUS_RESERVE_UNKNOWN,
  R.PLT_DISP_STATUS_RECHARGE, R.PLT_DISP_STATUS_STALE, R.PLT_DISP_EVENT_STATUS_STALE, R.PLT_DISP_EVENT_STATUS_RESERVE_LOW,
  R.PLT_DISP_EVENT_STATUS_RESERVE_BREACHED]
/-- What holds before the reserve is published and is kept by each of its writes, events and marks holds after it. -/
theorem showReserve_ind {Q : State → Prop} (hwr : ∀ {u : State} {g v}, g ∈ reserveFlds → Q u → Q (u.wr g v))
    (hflag : ∀ {u : State} {g}, g ∈ reserveFlds → Q u → Q (u.flag g))
    (hraise : ∀ {u : State} {e inst data}, Q u → Q (u.raise e inst data))
    (hlow : ∀ {u : State} {b}, Q u → Q (u.modDisp fun x => { x with lowMark := b }))
    (hbreach : ∀ {u : State} {b}, Q u → Q (u.modDisp fun x => { x with breachMark := b })) (h : Q s) : Q s.showReserve := by
  unfold State.showReserve
  extract_lets req m s1 s2 s3 caps short s4 s5 s6 band d s7
  have h3 : Q s3 := hwr (by simp) (hwr (by simp) (hwr (by simp) (hwr (by simp) (hwr (by simp) (hwr (by simp) h)))))
  have h5 : Q s5 := hwr (by simp) (hwr (by simp) (hwr (by simp) h3))
  have h6 : Q s6 := hwr (by simp) h5
  have h7 : Q s7 := ite_ind (fun _ => hlow (hflag (by simp) (hraise h6))) (fun _ => ite_ind (fun _ => hlow h6) (fun _ => h6))
  refine ite_ind (fun _ => ite_ind (fun _ => h5) (fun _ => hflag (by simp) (hraise (hwr (by simp) h5)))) (fun _ => ?_)
  exact ite_ind (fun _ => hbreach (hflag (by simp) (hraise h7))) (fun _ => ite_ind (fun _ => hbreach h7) (fun _ => h7))
theorem rd_showReserve (h : f.clearOf reserveFlds = true) (hf : f.inDisp = true) : s.showReserve.rd f = s.rd f :=
  showReserve_ind (Q := fun t => t.rd f = s.rd f) (fun hg hu => (rd_wr_clear h hg _).trans hu)
    (fun hg hu => (rd_flag_clear h hg (not_hqReg_of_inDisp hf)).trans hu) (fun hu => (rd_raise_disp hf).trans hu)
    (fun hu => hu) (fun hu => hu) rfl
theorem showReserve_units (s : State) : s.showReserve.disp.pcs = s.disp.pcs ∧ s.showReserve.disp.bill = s.disp.bill :=
  showReserve_ind (Q := fun t => t.disp.pcs = s.disp.pcs ∧ t.disp.bill = s.disp.bill) (fun _ hu => hu)
    (fun _ hu => by rwa [flag_disp]) (fun hu => by rwa [raise_disp]) (fun hu => hu) (fun hu => hu) ⟨rfl, rfl⟩
/-- What the source value and the schedule's depth write (R327, R329). -/
abbrev sourceFlds : List Fld := [R.PLT_SOURCE_VALUE, R.PLT_SCHEDULE_DEPTH]
/-- What the island figures write (R352). -/
abbrev islandFlds : List Fld := [R.PLT_MEASURED_POWER, R.PLT_GRID_FREQ, R.PLT_RAMP_RATE, R.PLT_ISLAND_LIMIT, R.PLT_LIFT_POWER_LIMIT,
  R.PLT_EVAC_STATUS_SHEDDING]
/-- What the set-point and its bounds write (R331, R332). -/
abbrev boundFlds : List Fld := [R.PLT_SETPOINT, R.PLT_UPPER_BOUND, R.PLT_LOWER_BOUND, R.PLT_LIMIT_CAUSE_UPPER, R.PLT_LIMIT_CAUSE_LOWER]
theorem rd_showSource (h : f.clearOf sourceFlds = true) : s.showSource.rd f = s.rd f :=
  (rd_wr_clear h (by simp) _).trans (rd_wr_clear h (by simp) _)
theorem rd_showIsland (h : f.clearOf islandFlds = true) : s.showIsland.rd f = s.rd f := by
  unfold State.showIsland
  extract_lets lim meas s1 s2 s3
  have h1 : s1.rd f = s.rd f := (rd_wr_clear h (by simp) _).trans ((rd_wr_clear h (by simp) _).trans (rd_wr_clear h (by simp) _))
  exact (rd_wr_clear h (by simp) _).trans ((rd_wr_clear h (by simp) _).trans ((rd_wr_clear h (by simp) _).trans h1))
theorem showIsland_disp (s : State) : s.showIsland.disp = s.disp := disp_of_held (held_showIsland (by decide) held_self)

/-! ## The layers of a cycle (R330) -/

/-- The figures of the layers are those of the manifest, the roll-up, protection, the units and a few registers: `0x4300000614`
names, beside those parts, the power phase and the blocks of the start, of power and of estimation. -/
structure SameLayers (s t : State) : Prop where
  held : Held s 0x4300000614 t
  pcs : t.disp.pcs = s.disp.pcs
  lost : t.mainsLost = s.mainsLost
  evac : t.evac = s.evac
  exp : t.rd R.PLT_HOST_EXPORT_MAX = s.rd R.PLT_HOST_EXPORT_MAX
  imp : t.rd R.PLT_HOST_IMPORT_MAX = s.rd R.PLT_HOST_IMPORT_MAX

section
variable (h : SameLayers s t)
include h
theorem SameLayers.man : t.man = s.man := h.held.man (by decide)
theorem SameLayers.est : t.est = s.est := h.held.est (by decide)
theorem SameLayers.prot : t.prot = s.prot := h.held.prot (by decide)
theorem SameLayers.cfg : t.cfg = s.cfg := by
  funext sec kind id
  unfold State.cfg
  rw [h.man]
theorem SameLayers.cfgAll : t.cfgAll = s.cfgAll := by
  funext sec kind
  unfold State.cfgAll
  rw [h.man]
theorem SameLayers.stale : t.stale = s.stale := on_congr (rd_congr (h.held.words _ (by decide) (by decide)))
theorem SameLayers.started : t.mayCommand = s.mayCommand ∧ t.underway = s.underway := by
  have hon : t.powered = s.powered := by
    unfold State.powered
    rw [h.held.boll (by decide)]
  have hstage : t.stage = s.stage := rd_congr (h.held.words _ (by decide) (by decide))
  have hmooring : t.on R.SYS_START_STATUS_MOORING = s.on R.SYS_START_STATUS_MOORING :=
    on_congr (rd_congr (h.held.words _ (by decide) (by decide)))
  have hthermal : t.rd R.PWR_THERMAL_STATUS_STAGE = s.rd R.PWR_THERMAL_STATUS_STAGE :=
    rd_congr (h.held.words _ (by decide) (by decide))
  unfold State.mayCommand State.underway State.portsUp State.mooring
  rw [hon, hstage, hmooring, hthermal]
  exact ⟨rfl, rfl⟩
theorem SameLayers.liveUnits : t.liveUnits = s.liveUnits := by
  unfold State.liveUnits State.pcsLive State.pcs State.pcsUnits
  rw [h.pcs, h.cfgAll]
theorem SameLayers.pRef : t.pRef = s.pRef := by
  unfold State.pRef
  rw [h.liveUnits]
theorem SameLayers.conPower : t.conPower = s.conPower := by
  have hstr : t.strAllowed = s.strAllowed := by
    funext i
    unfold State.strAllowed State.pstr
    rw [h.prot]
  have hcon : t.conAllowed = s.conAllowed := by
    funext c
    unfold State.conAllowed State.pcon
    rw [h.prot, h.evac]
  funext c
  unfold State.conPower
  rw [h.est, hstr, hcon, h.stale, h.cfg]
theorem SameLayers.capDis : t.capDis = s.capDis := by
  funext u
  unfold State.capDis
  rw [h.conPower]
theorem SameLayers.capChg : t.capChg = s.capChg := by
  funext u
  unfold State.capChg
  rw [h.conPower]
/-- Ereq is a figure of the manifest alone (R333, R334). -/
theorem SameLayers.eReq : t.eReq = s.eReq := by
  have hrec : t.reserveRec = s.reserveRec := congrFun (congrFun (congrFun h.cfg 8) 4) 0
  have hserved : t.served = s.served := by
    funext c
    unfold State.served
    rw [h.cfg]
  have hspec : t.carSpec = s.carSpec := by
    funext c
    unfold State.carSpec State.landingUm
    rw [h.cfg, hserved]
  have htrip : t.tripJ = s.tripJ := by
    funext c
    unfold State.tripJ State.legCost State.tDwell State.pAux State.goesUp State.etaUp State.rhoRegen
    rw [hspec, hrec]
  unfold State.eReq State.eLight State.eLift State.pLight State.cars
  rw [hrec, htrip, h.cfgAll]
theorem SameLayers.margin : t.margin = s.margin := by
  unfold State.margin
  rw [h.stale, h.eReq, eRes_congr h.est h.man]
theorem SameLayers.eBand : t.eBand = s.eBand := by
  unfold State.eBand State.reserveRec
  rw [h.eReq, h.cfg]
theorem SameLayers.layers : t.layers = s.layers := by
  obtain ⟨hmay, hup⟩ := h.started
  unfold State.layers State.hostMax
  rw [h.cfg, h.stale, hmay, hup, h.liveUnits, h.capDis, h.capChg, h.margin, h.lost, h.pRef, h.eBand, h.exp, h.imp]
end

/-! ## The cycle in its parts -/

/-- The figures shown in a cycle before the bounds are set. -/
def State.cycleShown (s : State) : State := (s.wrB R.PLT_DISP_STATUS_RUNNING true).showSource.showReserve.showIsland
/-- The cycle with its set-points sent. -/
def State.cycleSent (s : State) : State :=
  if s.cycleShown.setBounds.underway then s.cycleShown.setBounds.sendSetpoints.plantSent else s.cycleShown.setBounds
theorem dispatchCycle_parts (s : State) : s.dispatchCycle = s.cycleSent.markFloors.billTick.protCycle.settled := rfl

theorem rd_cycleShown (h : f.clearOf (R.PLT_DISP_STATUS_RUNNING :: (sourceFlds ++ reserveFlds ++ islandFlds)) = true)
    (hf : f.inDisp = true) : s.cycleShown.rd f = s.rd f :=
  (rd_showIsland (clearOf_mono h (by simp))).trans ((rd_showReserve (clearOf_mono h (by simp)) hf).trans
    ((rd_showSource (clearOf_mono h (by simp))).trans (rd_wr_clear h (by simp) _)))
theorem cycleShown_units (s : State) : s.cycleShown.disp.pcs = s.disp.pcs ∧ s.cycleShown.disp.bill = s.disp.bill := by
  unfold State.cycleShown
  rw [showIsland_disp]
  exact showReserve_units _
theorem held_cycleShown {F : Nat} {b0 : State} (hF : Dj F 0x1000900020080b) (hs : Held b0 F s) : Held b0 F s.cycleShown :=
  held_showIsland (dj hF) (held_showReserve (dj hF) (held_showSource (dj hF) (held_wrB (dj hF) hs (off_PLT_DISP_STATUS_RUNNING (dj hF)))))
theorem cycleShown_layers (s : State) : s.cycleShown.layers = s.layers :=
  SameLayers.layers {
    held := held_cycleShown (by decide) held_self
    pcs := (cycleShown_units s).1
    lost := on_congr (rd_cycleShown (by decide) (by decide))
    evac := on_congr (rd_cycleShown (by decide) (by decide))
    exp := rd_cycleShown (by decide) (by decide)
    imp := rd_cycleShown (by decide) (by decide) }
theorem rd_setBounds (h : f.clearOf boundFlds = true) : s.setBounds.rd f = s.rd f := by
  unfold State.setBounds
  extract_lets b x p s1 s2 s3
  have h1 : s1.rd f = s.rd f := (rd_wr_clear h (by simp) _).trans (rd_wr_clear h (by simp) _)
  exact (rd_wr_clear h (by simp) _).trans ((rd_wr_clear h (by simp) _).trans ((rd_wr_clear h (by simp) _).trans h1))
/-- The set-point is the source value clamped to the layers (R331, R332). -/
theorem setBounds_setpoint (s : State) : s.setBounds.rd R.PLT_SETPOINT =
    (toB32 (clampB (stack s.layers) (s.rdR R.PLT_SOURCE_VALUE 0))).toNat := by
  unfold State.setBounds
  extract_lets b x p s1 s2 s3
  have h1 : s1.rd R.PLT_SETPOINT = (toB32 p).toNat := (rd_wr_apart _ _ _ _ rfl rfl).trans (rd_wr _ _ _ rfl (toB32 p).isLt)
  exact (rd_wr_apart _ _ _ _ rfl rfl).trans ((rd_wr_apart _ _ _ _ rfl rfl).trans ((rd_wr_apart _ _ _ _ rfl rfl).trans h1))
theorem sendSetpoints_plain (s : State) : s.sendSetpoints.disp.plain = s.disp.plain :=
  foldl_ind (Q := fun t : State => t.disp.plain = s.disp.plain) (fun _ _ h => (sendPcs_plain ..).trans h) rfl
theorem cycleSent_bill (s : State) : s.cycleSent.disp.bill = s.disp.bill := by
  have hshown : s.cycleShown.setBounds.disp.bill = s.disp.bill :=
    (congrArg Disp.bill (disp_of_held (held_setBounds (by decide) held_self))).trans (cycleShown_units s).2
  exact ite_ind (Q := fun t : State => t.disp.bill = s.disp.bill)
    (fun _ => (congrArg Disp.bill (sendSetpoints_plain _)).trans hshown) (fun _ => hshown)
/-- The set-points that are sent change none of the plant's registers (R345). -/
theorem rd_cycleSent (hf : f.inDisp = true) : s.cycleSent.rd f = s.cycleShown.setBounds.rd f :=
  ite_ind (Q := fun t : State => t.rd f = s.cycleShown.setBounds.rd f)
    (fun _ => rd_of_heldPlt (held_plantSent (by decide) (held_sendSetpoints (by decide) held_self)) hf) (fun _ => rfl)
theorem held_cycleSent {F : Nat} {b0 : State} (hF : Dj F 0x14009000a0080b) (hs : Held b0 F s) : Held b0 F s.cycleSent := by
  have hset : Held b0 F s.cycleShown.setBounds := held_setBounds (dj hF) (held_cycleShown (dj hF) hs)
  exact ite_ind (fun _ => held_plantSent (dj hF) (held_sendSetpoints (dj hF) hset)) (fun _ => hset)

/-! ## The open interval runs on (R353, R354) -/

/-- The registers that show the open interval. -/
abbrev billFlds : List Fld := [R.PLT_BILL_IMPORT, R.PLT_BILL_EXPORT, R.PLT_BILL_FLAGS, R.PLT_BILL_SEQ]
theorem rd_showBill (h : f.clearOf billFlds = true) : s.showBill.rd f = s.rd f := by
  unfold State.showBill
  split
  · rfl
  · exact (rd_wr_clear h (by simp) _).trans ((rd_wr_clear h (by simp) _).trans
      ((rd_wr_clear h (by simp) _).trans (rd_wr_clear h (by simp) _)))
theorem showBill_disp (s : State) : s.showBill.disp = s.disp := disp_of_held (held_showBill (by decide) held_self)
theorem billFlag_ms (s : State) (b : Nat) : (s.billFlag b).disp.bill.map (·.ms) = s.disp.bill.map (·.ms) := by
  show (s.disp.bill.map _).map _ = _
  rw [Option.map_map]
  rfl
theorem billTick_ms (s : State) : s.billTick.disp.bill.map (·.ms) = s.disp.bill.map (·.ms + 1) := by
  unfold State.billTick
  extract_lets s1 s2 s3
  have h1 : s1.disp.bill.map (·.ms) = s.disp.bill.map (·.ms + 1) := by
    show (s.disp.bill.map _).map _ = _
    rw [Option.map_map]
    rfl
  have hflag : ∀ {c : Prop} [Decidable c] {u : State} {b : Nat}, 
      (if c then u.billFlag b else u).disp.bill.map (·.ms) = u.disp.bill.map (·.ms) := fun {_} _ {u} _ =>
    ite_ind (Q := fun t : State => t.disp.bill.map (·.ms) = u.disp.bill.map (·.ms)) (fun _ => billFlag_ms ..) (fun _ => rfl)
  rw [showBill_disp]
  exact hflag.trans (hflag.trans (hflag.trans h1))
theorem rd_billTick (h : f.clearOf billFlds = true) : s.billTick.rd f = s.rd f := by
  have hflag : ∀ {c : Prop} [Decidable c] {u : State} {b : Nat}, (if c then u.billFlag b else u).rd f = u.rd f :=
    fun {_} _ {u} _ => ite_ind (Q := fun t : State => t.rd f = u.rd f) (fun _ => rfl) (fun _ => rfl)
  exact (rd_showBill h).trans (hflag.trans (hflag.trans hflag))

/-! ## The whole cycle -/

theorem exec_dispatchCycle (h : s.mayCommand = true) : exec .dispatchCycle s = .next s.dispatchCycle := if_pos h
/-- With nothing to settle before it the cycle leaves nothing to settle. -/
theorem dispatchCycle_idle (h : s.idle = true) : s.dispatchCycle = s.cycleSent.markFloors.billTick.protCycle := by
  have hxng : Held s 0x100 s.cycleSent.markFloors.billTick.protCycle :=
    held_protCycle (by decide) (held_billTick (by decide) (held_markFloors (by decide) (held_cycleSent (by decide) held_self)))
  rw [dispatchCycle_parts]
  refine settled_idle ?_
  unfold State.idle
  rw [hxng.xng (by decide)]
  exact h
theorem rd_dispatchCycle (hidle : s.idle = true) (h : f.clearOf billFlds = true) (hf : f.inDisp = true) :
    s.dispatchCycle.rd f = s.cycleShown.setBounds.rd f := by
  rw [dispatchCycle_idle hidle]
  exact (rd_of_heldPlt (held_protCycle (by decide) held_self) hf).trans ((rd_billTick h).trans
    ((rd_of_heldPlt (held_markFloors (by decide) held_self) hf).trans (rd_cycleSent hf)))
theorem dispatchCycle_running (h : s.idle = true) : s.dispatchCycle.on R.PLT_DISP_STATUS_RUNNING = true := by
  have hshown : s.cycleShown.on R.PLT_DISP_STATUS_RUNNING = true :=
    (on_congr ((rd_showIsland rfl).trans ((rd_showReserve rfl rfl).trans (rd_showSource rfl)))).trans (on_wrB _ _ _ rfl rfl)
  exact (on_congr ((rd_dispatchCycle h rfl rfl).trans (rd_setBounds rfl))).trans hshown
theorem dispatchCycle_setpoint (h : s.idle = true) : s.dispatchCycle.rd R.PLT_SETPOINT =
    (toB32 (clampB (stack s.layers) (s.dispatchCycle.rdR R.PLT_SOURCE_VALUE 0))).toNat := by
  have hvalue : s.dispatchCycle.rdR R.PLT_SOURCE_VALUE 0 = s.cycleShown.rdR R.PLT_SOURCE_VALUE 0 := by
    unfold State.rdR
    rw [rd_dispatchCycle h rfl rfl, rd_setBounds rfl]
  rw [hvalue, rd_dispatchCycle h rfl rfl, setBounds_setpoint, cycleShown_layers]
theorem dispatchCycle_ms (h : s.idle = true) : s.dispatchCycle.disp.bill.map (·.ms) = s.disp.bill.map (·.ms + 1) := by
  rw [dispatchCycle_idle h, disp_of_held (held_protCycle (by decide) held_self), billTick_ms,
    disp_of_held (held_markFloors (by decide) held_self), cycleSent_bill]
end

end Sys2Proof.Machine
end

section
/-!
PROOFS. PCS units: a STATUS taken and a unit lost (R343, R346).
-/
namespace Sys2Proof.Machine
open Sys2Proof

section
variable {s : State}

/-! ## The unit's record -/

theorem pcs_congr {t : State} (h : t.disp.pcs = s.disp.pcs) (p : Nat) : t.pcs p = s.pcs p := by
  unfold State.pcs
  rw [h]
@[simp] theorem pcs_setPcs (s : State) (p : Nat) (x : Pcs) : (s.setPcs p x).pcs p = x := by
  unfold State.pcs State.setPcs tgetD
  rw [tget_tput_self]
  rfl
theorem sendPcs_pcs (s : State) (p typ app : Nat) (payload : List Byte) :
    (s.sendPcs p typ app payload).pcs p = { s.pcs p with txSeq := ((s.pcs p).txSeq + 1) % 2 ^ 16 } :=
  (pcs_congr (congrArg Disp.pcs (sendPcs_disp ..)) p).trans (pcs_setPcs ..)
/-- Of a unit's record its standing orders change only what was sent to it (R348). -/
theorem sendPcsStanding_pcs (s : State) (p : Nat) :
    ∃ g c n, (s.sendPcsStanding p).pcs p = { s.pcs p with standGen := g, standing := c, txSeq := n } := by
  unfold State.sendPcsStanding
  split
  · exact ⟨_, _, _, rfl⟩
  · dsimp only
    rw [sendPcs_pcs, pcs_setPcs]
    exact ⟨_, _, _, rfl⟩
theorem showPcs_disp (s : State) (p : Nat) : (s.showPcs p).disp = s.disp := disp_of_held (held_showPcs (by decide) held_self)
theorem showPcs_pcs (s : State) (p : Nat) : (s.showPcs p).pcs p = s.pcs p := pcs_congr (congrArg Disp.pcs (showPcs_disp ..)) p
theorem book_pcs (s : State) (exp imp p : Nat) : (s.book exp imp).pcs p = s.pcs p :=
  pcs_congr (congrArg Disp.pcs (showBill_disp _)) p
theorem bookGap_pcs (s : State) (last : Nat × Nat × Nat) (exp imp p : Nat) : (s.bookGap last exp imp).pcs p = s.pcs p :=
  pcs_congr (congrArg Disp.pcs (disp_of_held (held_bookGap (by decide) held_self))) p

/-! ## A STATUS is taken (R346) -/

/-- The good statuses in a row once this one is counted, which one under another standing set starts anew. -/
def State.statusRow (s : State) (u : CfgRec) (b : List Byte) : Nat :=
  if u32 b 0x20 = (s.pcs u.id).standGen then (s.pcs u.id).good + 1 else 0
/-- The unit was not live and this status is its tenth in a row. -/
def State.goesLive (s : State) (u : CfgRec) (b : List Byte) : Bool := !s.pcsLive u.id && decide (10 ≤ s.statusRow u b)
/-- The unit's record after a STATUS: the sequence, the power and the state, whatever else it took up. -/
theorem takeStatus_pcs (s : State) (u : CfgRec) (seq : Nat) (b : List Byte) :
    ((s.takeStatus u seq b).pcs u.id).rxSeq = some seq ∧
    ((s.takeStatus u seq b).pcs u.id).power = (f32? (BitVec.ofNat 32 (u32 b 0))).getD 0 ∧
    ((s.takeStatus u seq b).pcs u.id).state = if s.goesLive u b then 2 else (s.pcs u.id).state := by
  unfold State.takeStatus
  extract_lets p x f exp imp good now live up stored s1 s2 s3
  clear_value stored
  have h2 : s2.pcs p = s1.pcs p := by
    unfold s2
    split
    · exact ite_ind (Q := fun t : State => t.pcs p = s1.pcs p) (fun _ => book_pcs ..)
        (fun _ => ite_ind (Q := fun t : State => t.pcs p = s1.pcs p) (fun _ => bookGap_pcs ..) (fun _ => rfl))
    · rfl
  have h3 : s3.pcs p = s1.pcs p := ite_ind (Q := fun t : State => t.pcs p = s1.pcs p)
    (fun _ => (pcs_congr (congrArg Disp.pcs ((flag_disp ..).trans (raise_disp ..))) p).trans h2) (fun _ => h2)
  have h4 : ∃ g c n, (if up || x.rxSeq.isNone then s3.sendPcsStanding p else s3).pcs p =
      { s3.pcs p with standGen := g, standing := c, txSeq := n } := by
    split
    · exact sendPcsStanding_pcs s3 p
    · exact ⟨_, _, _, rfl⟩
  obtain ⟨g, c, n, h4⟩ := h4
  rw [showPcs_pcs, h4, h3, pcs_setPcs]
  exact ⟨rfl, rfl, rfl⟩
/-- A unit that was live stays so, and the tenth good STATUS in a row makes one live. -/
theorem takeStatus_live {u : CfgRec} {seq : Nat} {b : List Byte} (hgen : u32 b 0x20 = (s.pcs u.id).standGen)
    (hrow : 9 ≤ (s.pcs u.id).good) : (s.takeStatus u seq b).pcsLive u.id = true := by
  have hten : decide (10 ≤ s.statusRow u b) = true := by
    unfold State.statusRow
    rw [if_pos hgen]
    exact decide_eq_true (by omega)
  have hstate := (takeStatus_pcs s u seq b).2.2
  unfold State.pcsLive
  rw [hstate]
  unfold State.goesLive State.pcsLive
  rw [hten, Bool.and_true]
  cases hlive : (s.pcs u.id).state == 2
  · rfl
  · exact hlive
/-- The count of received datagrams stands outside what a STATUS shows and sends. -/
theorem takeStatus_rx (s : State) (u : CfgRec) (seq : Nat) (b : List Byte) :
    (s.takeStatus u seq b).rd R.NET_PCS_RX = s.rd R.NET_PCS_RX := by
  have hnet : ∀ {v t : State}, Held v 0x4000000000000 t → t.rd R.NET_PCS_RX = v.rd R.NET_PCS_RX :=
    fun h => rd_congr (h.words _ (by decide) (by decide))
  have hstanding : ∀ {v : State} {p : Nat}, (v.sendPcsStanding p).rd R.NET_PCS_RX = v.rd R.NET_PCS_RX := by
    intro v p
    unfold State.sendPcsStanding
    split
    · rfl
    · exact rd_sendPcs (by decide)
  unfold State.takeStatus
  extract_lets p x f exp imp good now live up stored s1 s2 s3
  clear_value stored
  have h1 : Held s 0x4000000000000 s1 := held_setPcs (by decide) held_self
  have h2 : Held s 0x4000000000000 s2 := by
    unfold s2
    split
    · exact ite_ind (fun _ => held_book (by decide) h1) (fun _ => ite_ind (fun _ => held_bookGap (by decide) h1) (fun _ => h1))
    · exact h1
  have h3 : Held s 0x4000000000000 s3 := ite_ind (fun _ => held_flag (by decide) (held_raise (by decide) h2)
    (off_PLT_DISP_EVENT_STATUS_PCS_CHANGE (by decide))) (fun _ => h2)
  refine (hnet (held_showPcs (by decide) held_self)).trans ?_
  exact ite_ind (Q := fun t : State => t.rd R.NET_PCS_RX = s.rd R.NET_PCS_RX) (fun _ => hstanding.trans (hnet h3)) (fun _ => hnet h3)

/-! ## The rows -/

/-- The payload of a datagram, as the row takes it from between the header and the CRC. -/
def statusPayload (dg : List Byte) : List Byte := (dg.take (dg.length - 4)).drop 32
theorem statusPayload_length (dg : List Byte) : (statusPayload dg).length = dg.length - 36 := by
  simp [statusPayload]
  omega
/-- Where the payload has a word, it is that of the datagram. -/
theorem u32_statusPayload {dg : List Byte} {o : Nat} (h : o + 40 ≤ dg.length) : u32 (statusPayload dg) o = u32 (dg.drop 32) o := by
  unfold u32 uAt statusPayload
  rw [List.drop_take, List.drop_take, List.take_take, Nat.min_eq_left (by omega)]
/-- A STATUS that passes its checks is counted and taken (R207, R343, R346). -/
theorem exec_pcsStatusDatagram_good {u : CfgRec} {dg : List Byte} (hup : s.portsUp = true) (h : s.goodStatus u dg = true) :
    exec (.pcsStatusDatagram dg) s = .next ((s.inc R.NET_PCS_RX).takeStatus u (u16 dg 4) (statusPayload dg)) ∧
      0x24 + 36 ≤ dg.length := by
  simp only [State.goodStatus, Bool.and_eq_true, decide_eq_true_eq, beq_iff_eq] at h
  obtain ⟨⟨⟨⟨⟨⟨⟨⟨hlen, hcrc⟩, htyp⟩, hver⟩, hcfg⟩, hplant⟩, hpay⟩, hports⟩, hseq⟩ := h
  refine ⟨?_, by omega⟩
  show execPcsStatusDatagram dg s = _
  unfold execPcsStatusDatagram
  dsimp only
  rw [hcfg]
  have hpayload : ((dg.take (dg.length - 4)).drop 32).length = dg.length - 36 := statusPayload_length dg
  refine if_pos ?_
  simp [hup, hlen, hcrc, htyp, hver, hplant, hpay, hpayload, hports, hseq]
theorem exec_pcsLostTimeout {p : Nat} (h : s.pcsLive p = true) : exec (.pcsLostTimeout p) s = .next (s.losePcs p) := if_pos h
theorem losePcs_pcs (s : State) (p : Nat) : (s.losePcs p).pcs p = { s.pcs p with state := 3, good := 0 } := by
  unfold State.losePcs
  rw [showPcs_pcs, pcs_congr (congrArg Disp.pcs ((flag_disp ..).trans (raise_disp ..))), pcs_setPcs]
/-- A unit's registers stand apart from the event bits of dispatch. -/
theorem kept_showPcs {A : Nat → Prop} {b0 : State} {p : Nat} (hst : ¬A (R.PLT_PCS_STATUS_STATE p).addr)
    (hlo : ¬A R.PLT_PCS_LIVE_LO.addr) (hhi : ¬A R.PLT_PCS_LIVE_HI.addr) (hs : WordsKept A b0 s) : WordsKept A b0 (s.showPcs p) := by
  have hlive : ¬A (if p < 32 then R.PLT_PCS_LIVE_LO.bit p else R.PLT_PCS_LIVE_HI.bit (p - 32)).addr :=
    ite_ind (Q := fun f : Fld => ¬A f.addr) (fun _ => hlo) (fun _ => hhi)
  exact kept_wrB hlive (kept_wr hst (kept_wrB hst (kept_wrB hst (kept_wrB hst (kept_wrB hst (kept_wrB hst (kept_wrB hst
    (kept_wr hst hs))))))))
theorem losePcs_posted (s : State) (p : Nat) : (s.losePcs p).on R.PLT_DISP_EVENT_STATUS_PCS_CHANGE = true := by
  have hshown (u : State) : (u.showPcs p).on R.PLT_DISP_EVENT_STATUS_PCS_CHANGE = u.on R.PLT_DISP_EVENT_STATUS_PCS_CHANGE :=
    on_congr (rd_congr (kept_showPcs (A := (· = R.PLT_DISP_EVENT_STATUS.addr)) (inst_ne (by decide) (by decide)) (by decide)
      (by decide) kept_self _ rfl))
  exact (hshown _).trans (flag_on rfl rfl (not_hqReg_of_inDisp rfl))
end

end Sys2Proof.Machine
end

section
/-!
PROOFS. Billing intervals and the schedule (R327, R353 to R358).
-/
namespace Sys2Proof.Machine
open Sys2Proof

section
variable {s : State}

/-! ## An interval closes (R353, R354) -/

/-- An event leaves the stored intervals and the number of the last one. -/
theorem keptByRaise_billing (l : List Billing) (n : Nat) : KeptByRaise fun s => s.nv.billing = l ∧ s.nv.billSeq = n where
  srcSeq _ h := h
  queue _ _ h := h
  heard _ _ h := h
  acq _ h := h
  nextSeq _ h := h
  lost _ h := h
  eventsLost h := h
  eqHigh h := h
  regs _ h := h
  log _ h := h
theorem storeBill_stored (s : State) (b : Billing) :
    (s.storeBill b).nv.billing = (b :: s.nv.billing).take 696320 ∧ (s.storeBill b).nv.billSeq = s.nv.billSeq :=
  raise_keeps (keptByRaise_billing _ _) ⟨rfl, rfl⟩
/-- The record under which an open interval is stored. -/
def OpenBill.record (x : OpenBill) : Billing := ⟨x.seq, x.label, x.ms, x.imp, x.exp, x.flags⟩
theorem closeBill_stored {x : OpenBill} (h : s.disp.bill = some x) :
    (s.closeBill none).nv.billing = (x.record :: s.nv.billing).take 696320 ∧ (s.closeBill none).nv.billSeq = s.nv.billSeq := by
  unfold State.closeBill
  rw [h]
  exact storeBill_stored s x.record
/-- The close of an interval leaves the time and the label of the slot that holds it. -/
theorem closeBill_time (s : State) : (s.closeBill none).timeKnown = s.timeKnown ∧ (s.closeBill none).slotLabel = s.slotLabel := by
  have hheld : Held s 0x200000010 (s.closeBill none) := held_closeBill (by decide) held_self
  have hword : ∀ {a : Nat}, blockNo a = 1 → a < 0x150000 → (s.closeBill none).word a = s.word a := fun hblk ha =>
    hheld.words _ (by rw [hblk]; decide) ha
  have hnow : (s.closeBill none).plantNow = s.plantNow := rd64_congr (hword (by decide) (by decide)) (hword (by decide) (by decide))
  refine ⟨congrArg (· != 0) (rd_congr (hword (by decide) (by decide))), ?_⟩
  unfold State.slotLabel State.billSeconds State.billLen State.cfg
  rw [hnow, hheld.man (by decide)]
theorem openBill_nv (s : State) (extra : Nat) : (s.openBill extra).nv.billing = s.nv.billing := by
  have hshow : ∀ u : State, u.showBill.nv = u.nv := fun _ => (held_showBill (F := 2) (by decide) held_self).nv (by decide)
  unfold State.openBill
  extract_lets known label partial' flags s1
  rw [hshow]
  rfl
theorem openBill_bill (hknown : s.timeKnown = true) (extra : Nat) :
    (s.openBill extra).disp.bill.map (fun y => (y.seq, y.label, y.imp, y.exp)) =
    some ((s.nv.billSeq + 1) % 2 ^ 32, (s.slotLabel % 2 ^ 32).toNat, 0, 0) := by
  unfold State.openBill
  extract_lets known label partial' flags s1
  rw [showBill_disp, show label = (s.slotLabel % 2 ^ 32).toNat from if_pos hknown]
  rfl
theorem exec_billingIntervalClose {x : OpenBill} (h : s.disp.bill = some x) (hknown : s.timeKnown = true) (hflag : bit x.flags 2 = false)
    (hlabel : x.label ≠ (s.slotLabel % 2 ^ 32).toNat) : exec .billingIntervalClose s = .next ((s.closeBill none).openBill 0) := by
  show execBillingIntervalClose s = _
  unfold execBillingIntervalClose
  rw [h]
  exact if_pos (by rw [hknown, hflag, bne_iff_ne.2 hlabel]; rfl)
theorem billingPersist_runs {x : OpenBill} (h : s.disp.bill = some x) :
    Runs .billingPersist s fun t => t.nv.billOpen = some x.record := by
  show ∃ t, execBillingPersist s = .next t ∧ _
  unfold execBillingPersist
  rw [h]
  exact ⟨_, rfl, rfl⟩

/-! ## A stored interval is read (R358) -/

/-- The part of a stored interval that BILLING_READ names: the energies, the slot, or the flags with the number. -/
def Billing.part (x : Billing) : Nat → Nat
  | 0 => whole x.importWh + 2 ^ 32 * whole x.exportWh
  | 1 => x.label + 2 ^ 32 * x.duration
  | _ => x.flags + 2 ^ 32 * x.seq
theorem billingRead_found {q : Nat} {c : Cmd} {x : Billing} (hfind : s.nv.billing.find? (fun b => b.seq == u32 c.args 0) = some x)
    (hpart : u8 c.args 4 < 3) : State.billingRead q c s = s.complete q OK (x.part (u8 c.args 4)) := by
  unfold State.billingRead
  rw [hfind]
  dsimp only
  generalize u8 c.args 4 = part at hpart
  match part, hpart with
  | 0, _ => rfl
  | 1, _ => rfl
  | 2, _ => rfl

/-! ## The schedule (R327, R358) -/

/-- The schedule replaced, with the depth shown and the command's completion. -/
def State.reschedule (s : State) (q : Nat) (l : List SchedEntry) : State :=
  ((s.modDisp fun d => { d with sched := l, unsent := true }).wr R.PLT_SCHEDULE_DEPTH l.length).complete q OK l.length
theorem reschedule_told {q code : Nat} {c : Cmd} (h : s.serving q code c = true) (l : List SchedEntry) :
    (s.reschedule q l).disp.sched = l ∧ (s.reschedule q l).completed s q c OK (l.length % 2 ^ 64) ∧
      (s.reschedule q l).rd R.PLT_SCHEDULE_DEPTH = l.length % 2 ^ 32 := by
  refine ⟨?_, ?_, ?_⟩
  · unfold State.reschedule
    rw [disp_of_held (held_complete (by decide) held_self)]
    rfl
  · exact complete_completed (s := (s.modDisp fun d => { d with sched := l, unsent := true }).wr R.PLT_SCHEDULE_DEPTH l.length) h
  · exact (rd_congr (word_complete _)).trans (rd_wr_self _ _ _ rfl)
/-- An entry that is not older than the one in force is put in its place, where the schedule has room for its time. -/
theorem scheduleAdd_put {q : Nat} {c : Cmd}
    (hold : (schedNow s.disp.sched s.plantNow).all (fun e => decide (e.time ≤ u64 c.args 0)) = true)
    (hroom : s.disp.sched.length < 1024 ∨ s.disp.sched.any (fun e => e.time == u64 c.args 0) = true) :
    State.scheduleAdd q c s = s.reschedule q
      (schedPut s.disp.sched ⟨u64 c.args 0, BitVec.ofNat 32 (u32 c.args 8), bit (u8 c.args 12) 0⟩) := by
  unfold State.scheduleAdd
  extract_lets t l old
  have hold' : ¬old = true := by
    unfold old
    split
    next e he =>
      rw [he] at hold
      have hle : e.time ≤ t := of_decide_eq_true hold
      simpa using hle
    next => decide
  have hroom' : ¬(1024 ≤ l.length ∧ (l.all fun e => e.time != t) = true) := by
    rintro ⟨hfull, hnone⟩
    rcases hroom with hroom | hroom
    · exact absurd hfull (Nat.not_le.2 hroom)
    · obtain ⟨e, he, htime⟩ := List.any_eq_true.1 hroom
      exact absurd htime (by simpa using List.all_eq_true.1 hnone e he)
  rw [if_neg hold', if_neg hroom']
  rfl
end

end Sys2Proof.Machine
end

section
/-!
PROOFS. Operating modes, the 1 ms cycle, sources, PCS units, billing and the schedule (R325 to R327, R331, R346, R350 to R361).
-/
namespace Sys2Proof.Machine
open Sys2Proof

/-- Settles O30, row by row: from the mode that a confirmation sets, from the fields that each part of the cycle leaves, from the
switch of a source, from the unit's record that a STATUS leaves, and from what a close, a store and a command make of the intervals
and the schedule. That a selection made during a fallback takes effect at once is the model's choice (log 110). -/
theorem dispatchAndModesFollowTheirRows : Obligations.DispatchAndModesFollowTheirRows := by
  unfold Obligations.DispatchAndModesFollowTheirRows
  refine ⟨?mainsLost, ?mainsLostInFire, ?mainsPresent, ?fireIsland, ?fireGrid, ?fireEnd, ?cycle, ?sourceFault, ?sourceRestore,
    ?returnToSource, ?select, ?selectRefused, ?selectFaulty, ?status, ?lost, ?close, ?persist, ?add, ?clear, ?read⟩
  case mainsLost =>
    intro units s hup hlost hfire
    refine ⟨_, exec_mainsLostConfirm units hup hlost, ?_⟩
    rw [mainsGo_island hfire]
    exact ⟨(on_congr (rd_setMode rfl rfl)).trans (mainsGone_lost ..), setMode_mode _ (by decide)⟩
  case mainsLostInFire =>
    intro units s hup hlost hfire hmode
    have hmode' : (s.mainsGone units).dispMode ≠ EVACUATION := fun h => hmode ((rd_mainsGone rfl rfl).symm.trans h)
    refine ⟨_, exec_mainsLostConfirm units hup hlost, ?_⟩
    rw [mainsGo_evac hfire]
    exact ⟨(evacEnter_on rfl rfl).trans (mainsGone_lost ..), evacEnter_mode _, evacEnter_evac hmode',
      (evacEnter_evacEres _).trans (mainsGone_eRes ..)⟩
  case mainsPresent =>
    intro s hup hlost
    exact ⟨_, exec_mainsPresentConfirm hup hlost, mainsBack_lost s, mainsBack_mode s⟩
  case fireIsland =>
    intro s hup hlost hevac hmode
    have hmode' : s.fireShown.dispMode ≠ EVACUATION := fun h => hmode ((rd_fireShown rfl).symm.trans h)
    refine ⟨_, exec_fireAlarmActive hup, ?_⟩
    rw [fireGo_evac hlost hevac]
    exact ⟨(evacEnter_on rfl rfl).trans (fireShown_fireAlarm s), evacEnter_mode _, evacEnter_evac hmode'⟩
  case fireGrid =>
    intro s hup hlost
    refine ⟨_, exec_fireAlarmActive hup, ?_⟩
    rw [fireGo_mains hlost]
    exact ⟨fireShown_fireAlarm s, rd_fireShown rfl⟩
  case fireEnd =>
    intro s hup hfire
    exact ⟨_, exec_fireAlarmHoldExpiry hup hfire, fireOver_fireAlarm s, fireOver_mode s⟩
  case cycle =>
    intro s hmay hidle
    exact ⟨_, exec_dispatchCycle hmay, dispatchCycle_running hidle, dispatchCycle_setpoint hidle, dispatchCycle_ms hidle⟩
  case sourceFault =>
    intro src s huse h0 h5
    refine ⟨_, exec_sourceFault huse h0 h5, (fallBack_inUse s src).trans ?_, fallBack_shown s src, fallBack_switching s src⟩
    exact apply_ite (· % 8) _ _ _
  case sourceRestore =>
    intro s hfb hgood
    exact ⟨_, exec_sourceRestore hfb hgood, sourceBack_returned s⟩
  case returnToSource =>
    intro sess s hkey hfb hgood
    exact ⟨_, exec_returnToSource hkey hfb hgood, sourceBack_returned s⟩
  case select =>
    intro sess code s hrole hon hpermit hlt hgood
    have hcode : code % 8 % 8 = code % 8 := Nat.mod_mod ..
    refine ⟨_, exec_sourceSelectWrite hrole hon, ?_⟩
    rw [selectSource_good hpermit hlt hgood]
    exact ⟨(rd_wr_apart _ _ _ _ rfl rfl).trans ((rd_useSource rfl).trans ((rd_wr_self _ _ _ rfl).trans hcode)),
      (rd_wr_apart _ _ _ _ rfl rfl).trans ((useSource_inUse ..).trans hcode), on_wrB _ _ _ rfl rfl⟩
  case selectRefused =>
    intro sess code s h
    exact ⟨_, exec_sourceSelectWrite_refused sess h, rfl, rfl⟩
  case selectFaulty =>
    intro sess code s hrole hon hpermit hlt hfault
    refine ⟨_, exec_sourceSelectWrite hrole hon, ?_⟩
    rw [selectSource_faulty hpermit hlt hfault]
    exact ⟨(fallBack_selected ..).trans ((rd_wr_self _ _ _ rfl).trans (Nat.mod_mod ..)), fallBack_shown ..⟩
  case status =>
    intro u dg s hup hgood
    obtain ⟨hexec, hlen⟩ := exec_pcsStatusDatagram_good hup hgood
    obtain ⟨hseq, hpower, -⟩ := takeStatus_pcs (s.inc R.NET_PCS_RX) u (u16 dg 4) (statusPayload dg)
    rw [u32_statusPayload (by omega)] at hpower
    refine ⟨_, hexec, hseq, hpower, (takeStatus_rx ..).trans (rd_wr_self _ _ _ rfl), ?_⟩
    rintro ⟨hgen, hrow⟩
    exact takeStatus_live ((u32_statusPayload (by omega)).trans hgen) hrow
  case lost =>
    intro p s hlive
    refine ⟨_, exec_pcsLostTimeout hlive, ?_, ?_, losePcs_posted s p⟩ <;> rw [losePcs_pcs]
  case close =>
    intro x s hbill hknown hflag hlabel
    obtain ⟨hstored, hseq⟩ := closeBill_stored hbill
    obtain ⟨hknown', hslot⟩ := closeBill_time s
    refine ⟨_, exec_billingIntervalClose hbill hknown hflag hlabel, ?_, ?_⟩
    · rw [openBill_nv, hstored]
      rfl
    · rw [openBill_bill (hknown'.trans hknown), hseq, hslot]
  case persist => exact fun x s hbill => billingPersist_runs hbill
  case add =>
    intro q c l s hserving hl hold hroom
    refine ⟨_, onCmd_run hserving _, ?_⟩
    rw [scheduleAdd_put hold hroom, ← hl]
    exact reschedule_told hserving l
  case clear =>
    intro q c l s hserving hl
    refine ⟨_, onCmd_run hserving _, ?_⟩
    rw [hl]
    exact reschedule_told hserving _
  case read =>
    intro q c x s hserving hfind hpart
    refine ⟨_, onCmd_run hserving _, ?_⟩
    rw [billingRead_found hfind hpart]
    exact complete_completed hserving

end Sys2Proof.Machine
end

section
/-!
PROOFS. Host signals, the restart of a slot, external sync and PWM fault inputs (R378, R389, R394 to R396, R402, R403).
-/
namespace Sys2Proof.Machine
open Sys2Proof

section
variable {s t : State} {f : Fld}

/-! ## Fields of the loop engine's registers -/

/-- The field stands in a register of the loop engine, block 8. -/
def Fld.inLoop (f : Fld) : Bool := decide (blkLo 8 ≤ f.addr) && decide (f.addr < blkHi 8)

theorem blockNo_of_inLoop (hf : f.inLoop = true) : blockNo f.addr = 8 := by
  simp only [Fld.inLoop, Bool.and_eq_true, decide_eq_true_eq] at hf
  exact blockNo_range hf.1 hf.2
theorem not_hqReg_of_inLoop (hf : f.inLoop = true) : ¬hqReg f.addr := by
  rintro ⟨hlo, hhi⟩
  have hblk : blockNo f.addr = 4 := blockNo_range (k := 4) hlo hhi
  rw [blockNo_of_inLoop hf] at hblk
  cases hblk
/-- What keeps the loop engine's block, bit 40 of a mask, keeps its fields. -/
theorem rd_of_heldLoop (h : Held s 0x10000000000 t) (hf : f.inLoop = true) : t.rd f = s.rd f := by
  have hblk := blockNo_of_inLoop hf
  simp only [Fld.inLoop, Bool.and_eq_true, decide_eq_true_eq] at hf
  refine rd_congr (h.words _ ?_ (Nat.lt_trans hf.2 (by decide)))
  rw [hblk]
  decide
theorem loop_of_held (h : Held s 0x1000 t) : t.loop = s.loop := h.loop (by decide)
theorem complete_loop (s : State) (q status result : Nat) : (s.complete q status result).loop = s.loop :=
  loop_of_held (held_complete (by decide) held_self)

/-! ## Host signals (R378, R403) -/

theorem stageSig_loop (s : State) (sig : Nat) (v : Word) (host : Bool) : (s.stageSig sig v host).loop =
    { s.loop with staged := (s.loop.staged.filter fun x => x.1 != sig) ++ [(sig, v, host)] } := by
  unfold State.stageSig
  split <;> rfl
theorem stageSig_hq (s : State) (sig : Nat) (v : Word) (host : Bool) : (s.stageSig sig v host).hq = s.hq :=
  (held_stageSig (F := 8) (by decide) held_self).hq (by decide)
theorem hostRefused_count (s : State) : s.hostRefused.rd R.LOOP_HOST_REFUSED = (s.rd R.LOOP_HOST_REFUSED + 1) % 2 ^ 32 :=
  (rd_flag_clear (l := [R.LOOP_EVENT_STATUS_HOST_WRITE_REFUSED]) rfl (by simp) (not_hqReg_of_inLoop rfl)).trans
    (rd_wr_self _ _ _ rfl)
theorem hostRefused_result (s : State) :
    s.hostRefused.rd R.LOOP_SIG_WRITE_STATUS_RESULT = s.rd R.LOOP_SIG_WRITE_STATUS_RESULT :=
  (rd_flag_clear (l := [R.LOOP_EVENT_STATUS_HOST_WRITE_REFUSED]) rfl (by simp) (not_hqReg_of_inLoop rfl)).trans
    (rd_wr_apart _ _ _ _ rfl rfl)
theorem hostRefused_loop (s : State) : s.hostRefused.loop = s.loop := loop_of_held (held_hostRefused (by decide) held_self)
theorem hostBad_lt (s : State) (sig : Nat) (v : Word) : s.hostBad sig v < 7 := by
  have hlt {c : Prop} [Decidable c] {a b : Nat} (ha : a < 7) (hb : b < 7) : (if c then a else b) < 7 :=
    ite_ind (Q := (· < 7)) (fun _ => ha) (fun _ => hb)
  unfold State.hostBad
  split
  · decide
  · exact hlt (by decide) (hlt (by decide) (hlt (by decide) (by decide)))

theorem exec_loopSigWrite {sess : Nat} (hrole : s.holds sess 2 = true) (hon : s.powered = true) (v : Word) :
    exec (.loopSigWrite sess v) s = .next (s.sigWrite sess v) := if_pos (by simp [hrole, hon])
theorem sigWrite_accepted {sess sig : Nat} {v : Word} (hsig : sig = s.sel (some sess) R.LOOP_SIG_INDEX.addr % 65536)
    (h : s.hostBad sig v = 0) : s.sigWrite sess v =
      ((s.stageSig sig v true).wr R.LOOP_SIG_WRITE_STATUS_RESULT 1).wrB R.LOOP_SIG_WRITE_STATUS_PENDING true := by
  subst hsig
  exact if_pos h
theorem sigWrite_refused {sess sig : Nat} {v : Word} (hsig : sig = s.sel (some sess) R.LOOP_SIG_INDEX.addr % 65536)
    (h : s.hostBad sig v ≠ 0) : s.sigWrite sess v = (s.wr R.LOOP_SIG_WRITE_STATUS_RESULT (s.hostBad sig v)).hostRefused := by
  subst hsig
  exact if_neg h

/-- The signals and values of the first entries of a SET_SIGNALS. -/
def signalEntries (args : List Byte) (n : Nat) : List (Nat × Word) :=
  (List.range n).map fun k => (u16 args (4 + 8 * k), BitVec.ofNat 32 (u32 args (8 + 8 * k)))
/-- The entries staged one after the other. -/
def State.stageAll (s : State) (es : List (Nat × Word)) : State := es.foldl (fun s e => s.stageSig e.1 e.2 true) s

theorem stageAll_waits (s : State) (es : List (Nat × Word)) : (s.stageAll es).loop.waits = s.loop.waits :=
  foldl_ind (Q := fun t : State => t.loop.waits = s.loop.waits) (fun _ _ h => by rwa [stageSig_loop]) rfl
theorem stageAll_hq (s : State) (es : List (Nat × Word)) : (s.stageAll es).hq = s.hq :=
  foldl_ind (Q := fun t : State => t.hq = s.hq) (fun _ _ h => (stageSig_hq ..).trans h) rfl
/-- The entry staged last stands last. -/
theorem stageAll_getLast (s : State) (args : List Byte) (n : Nat) :
    (s.stageAll (signalEntries args (n + 1))).loop.staged.getLast? =
      some (u16 args (4 + 8 * n), BitVec.ofNat 32 (u32 args (8 + 8 * n)), true) := by
  unfold State.stageAll signalEntries
  rw [List.range_succ, List.map_append, List.foldl_append]
  simp [stageSig_loop]
theorem setSignals_staged {q n : Nat} {c : Cmd} (hn : u8 c.args 0 = n) (h0 : n ≠ 0) (h6 : n ≤ 6)
    (hgood : ∀ e ∈ signalEntries c.args n, s.hostBad e.1 e.2 = 0) : s.setSignals q c =
      (s.stageAll (signalEntries c.args n)).modLoop fun l => { l with waits := l.waits ++ [q] } := by
  have hnone : ((signalEntries c.args n).map fun e => s.hostBad e.1 e.2).find? (· != 0) = none := by
    simpa [List.find?_eq_none] using fun a b h => hgood (a, b) h
  subst hn
  unfold State.setSignals
  dsimp only
  rw [if_neg (by omega)]
  unfold signalEntries at hnone
  rw [hnone]
  rfl
theorem setSignals_refused {q n bad : Nat} {c : Cmd} (hn : u8 c.args 0 = n) (h0 : n ≠ 0) (h6 : n ≤ 6)
    (hbad : ((signalEntries c.args n).map fun e => s.hostBad e.1 e.2).find? (· != 0) = some bad) :
    s.setSignals q c = s.hostRefused.complete q (hostStatus bad) 0 := by
  subst hn
  unfold State.setSignals
  dsimp only
  rw [if_neg (by omega)]
  unfold signalEntries at hbad
  rw [hbad]
theorem exec_setSignals {q : Nat} {c : Cmd} (h : s.serving q 0x0801 c = true) :
    exec (.setSignals q) s = .next (s.setSignals q c) := onCmd_run h _
theorem exec_restartSlot {q : Nat} {c : Cmd} (h : s.serving q 0x0802 c = true) (hrun : s.engine ≠ HALTED)
    (hrec : (s.slotRec (u16 c.args 0)).isSome = true) (hparked : s.slotParked (u16 c.args 0) = true) :
    exec (.restartSlot q) s =
      .next ((s.modLoop fun l => { l with toStart := l.toStart ++ [u16 c.args 0] }).complete q OK (s.tick + 1)) :=
  (onCmd_run h _).trans (congrArg _ ((if_neg hrun).trans (if_pos (by simp [hrec, hparked]))))

/-! ## External sync (R394 to R396) -/

/-- The fields that a change of the sync's state writes. -/
abbrev syncFlds : List Fld := [R.LOOP_SYNC_STATUS_STATE, R.LOOP_EVENT_STATUS_SYNC_CHANGE]
/-- What a change of state reports beside them leaves the loop engine's registers. -/
theorem rd_syncTo_told {st : Nat} (hf : f.inLoop = true) : (s.syncTo st).rd f =
    if s.rd R.LOOP_SYNC_STATUS_STATE = st then s.rd f
    else ((s.wr R.LOOP_SYNC_STATUS_STATE st).flag R.LOOP_EVENT_STATUS_SYNC_CHANGE).rd f := by
  unfold State.syncTo
  split
  · rfl
  · exact ite_ind (Q := fun u : State => u.rd f = State.rd _ f)
      (fun _ => rd_of_heldLoop (held_raise (by decide) held_self) hf) (fun _ => rd_of_heldLoop (held_post (by decide) held_self) hf)
theorem rd_syncTo {st : Nat} (hclear : f.clearOf syncFlds = true) (hf : f.inLoop = true) : (s.syncTo st).rd f = s.rd f := by
  rw [rd_syncTo_told hf]
  split
  · rfl
  · exact (rd_flag_clear hclear (by simp) (not_hqReg_of_inLoop hf)).trans (rd_wr_clear hclear (by simp) _)
theorem syncTo_state (s : State) {st : Nat} (hst : st < 8) : (s.syncTo st).rd R.LOOP_SYNC_STATUS_STATE = st := by
  rw [rd_syncTo_told rfl]
  split
  · assumption
  · exact (rd_flag_clear (l := [R.LOOP_EVENT_STATUS_SYNC_CHANGE]) rfl (by simp) (not_hqReg_of_inLoop rfl)).trans
      (rd_wr _ _ _ rfl hst)
theorem syncTo_loop (s : State) (st : Nat) : (s.syncTo st).loop = s.loop := loop_of_held (held_syncTo (by decide) held_self)

/-- The fields that the runs of early and of missed edges write. -/
abbrev syncRunFlds : List Fld := [R.LOOP_SYNC_STATUS_EARLY_RUN, R.LOOP_SYNC_STATUS_MISSED_RUN] ++ syncFlds
theorem syncRuns_loop (s : State) (early missed : Nat) : (s.syncRuns early missed).loop = s.loop :=
  loop_of_held (held_syncRuns (by decide) held_self)
/-- Once the runs are written, only a change of the state may follow. -/
theorem rd_syncRuns_written {early missed : Nat} (hclear : f.clearOf syncFlds = true) (hf : f.inLoop = true) :
    (s.syncRuns early missed).rd f =
      ((s.wr R.LOOP_SYNC_STATUS_EARLY_RUN early).wr R.LOOP_SYNC_STATUS_MISSED_RUN missed).rd f :=
  ite_ind (Q := fun u : State => u.rd f = State.rd _ f) (fun _ => rd_syncTo hclear hf) (fun _ => rfl)
theorem rd_syncRuns {early missed : Nat} (hclear : f.clearOf syncRunFlds = true) (hf : f.inLoop = true) :
    (s.syncRuns early missed).rd f = s.rd f :=
  (rd_syncRuns_written (clearOf_mono hclear (by simp)) hf).trans
    ((rd_wr_clear hclear (by simp) _).trans (rd_wr_clear hclear (by simp) _))
theorem syncRuns_early (s : State) (early missed : Nat) :
    (s.syncRuns early missed).rd R.LOOP_SYNC_STATUS_EARLY_RUN = early % 16 :=
  (rd_syncRuns_written rfl rfl).trans ((rd_wr_apart _ _ _ _ rfl rfl).trans (rd_wr_self _ _ _ rfl))
theorem syncRuns_missed (s : State) (early missed : Nat) :
    (s.syncRuns early missed).rd R.LOOP_SYNC_STATUS_MISSED_RUN = missed % 16 :=
  (rd_syncRuns_written rfl rfl).trans (rd_wr_self _ _ _ rfl)
/-- The sync is lost at the third early or the third missed edge in a row (R396). -/
theorem syncRuns_state (s : State) (early missed : Nat) : (s.syncRuns early missed).rd R.LOOP_SYNC_STATUS_STATE =
    if 3 ≤ early ∨ 3 ≤ missed then 3 else s.rd R.LOOP_SYNC_STATUS_STATE := by
  unfold State.syncRuns
  extract_lets t
  split
  · exact syncTo_state t (by decide)
  · exact (rd_wr_apart _ _ _ _ rfl rfl).trans (rd_wr_apart _ _ _ _ rfl rfl)

theorem exec_syncArm {sess : Nat} (hkey : s.keyed sess 0xA5 = true)
    (h : s.rd R.LOOP_SYNC_STATUS_STATE = 0 ∨ s.rd R.LOOP_SYNC_STATUS_STATE = 3) : exec (.syncArm sess 0xA5) s =
      .next (((s.syncRuns 0 0).wr R.LOOP_SYNC_STATUS_PERIOD s.syncPeriod).syncTo 1) := if_pos (by simp [hkey, h])
theorem exec_syncDisarm {sess : Nat} (hkey : s.keyed sess 0xA5 = true) :
    exec (.syncDisarm sess 0xA5) s = .next ((s.syncRuns 0 0).syncTo 0) := if_pos hkey
/-- While armed, an edge between the schedule's end and the late limit starts the tracking (R395). -/
theorem exec_syncEdge_first {cycle : Nat} (hopen : s.loop.ended = none) (hst : s.rd R.LOOP_SYNC_STATUS_STATE = 1)
    (hlo : s.schedEnd ≤ cycle) (hhi : cycle ≤ s.lateLimit) :
    exec (.syncEdge cycle) s = .next ((s.endTick cycle).syncTo 2) := by
  show execSyncEdge cycle s = _
  unfold execSyncEdge
  rw [if_neg (by simp [hopen]), if_pos hst, if_pos ⟨hlo, hhi⟩]
/-- While tracking, an edge is judged by its place in the tick that ends a sync period (R394, R396). -/
theorem exec_syncEdge_tracking (cycle : Nat) (hopen : s.loop.ended = none) (hst : s.rd R.LOOP_SYNC_STATUS_STATE = 2)
    (hend : s.periodEnds = true) : exec (.syncEdge cycle) s =
      if cycle < s.schedEnd then
        .next (((s.inc R.LOOP_SYNC_EARLY).modLoop fun l =>
          { l with syncPos := 0, ended := some (if s.loopGlide then 7500 else 30000) }).syncRuns
            (s.rd R.LOOP_SYNC_STATUS_EARLY_RUN + 1) 0)
      else if cycle ≤ s.lateLimit then .next ((s.endTick cycle).syncRuns 0 0) else .next s := by
  show execSyncEdge cycle s = _
  unfold execSyncEdge
  rw [if_neg (by simp [hopen]), if_neg (by omega), if_pos ⟨hst, hend⟩]
theorem exec_syncLateLimit (hst : s.rd R.LOOP_SYNC_STATUS_STATE = 2) (hend : s.periodEnds = true) (hopen : s.loop.ended = none) :
    exec .syncLateLimit s = .next (((s.inc R.LOOP_SYNC_MISSED).endTick s.lateLimit).syncRuns 0
      (s.rd R.LOOP_SYNC_STATUS_MISSED_RUN + 1)) := if_pos ⟨hst, hend, by simp [hopen]⟩

/-! ## PWM fault inputs (R402) -/

theorem kept_showPwm {A : Nat → Prop} {b0 : State} (hq : ∀ a, hqReg a → ¬A a) (hst : ¬A R.PWM_STATUS.addr)
    (hoff : ¬A R.PWM_FAULT_PAIRS.addr) (hev : ¬A R.PWM_EVENT_STATUS.addr) (hpair : ∀ i, ¬A (R.PWM_PAIR_STATUS i).addr)
    (hs : WordsKept A b0 s) : WordsKept A b0 s.showPwm := by
  unfold State.showPwm
  extract_lets now stopped s1 s2
  have h1 : WordsKept A b0 s1 := foldl_ind (fun _ r h => kept_wr (hpair r.id) h) hs
  have h2 : WordsKept A b0 s2 := kept_wrB hst (kept_wr hoff (kept_wr hst h1))
  exact ite_ind (fun _ => kept_flag hq hev h2) (fun _ => h2)
/-- The registers that show the fault inputs and count their faults. -/
abbrev faultReg (a : Nat) : Prop := a = R.PWM_FAULT_STATUS.addr ∨ a = R.PWM_FAULT_COUNT.addr
theorem not_faultReg_hq (a : Nat) (h : hqReg a) : ¬faultReg a := by
  obtain ⟨-, hhi⟩ := h
  rintro (rfl | rfl) <;> exact absurd hhi (by decide)
theorem not_faultReg_rec (a : Nat) (h : recReg a) : ¬faultReg a := by
  obtain ⟨hlo, -⟩ := h
  rintro (rfl | rfl) <;> exact absurd hlo (by decide)
theorem not_faultReg_pair (i : Nat) : ¬faultReg (R.PWM_PAIR_STATUS i).addr := by
  rintro (h | h) <;> exact inst_ne (by decide) (by decide) h
/-- The pairs judged anew leave the fault inputs as they are. -/
theorem rd_fault_showPwm (hf : faultReg f.addr) : s.showPwm.rd f = s.rd f :=
  rd_congr (kept_showPwm not_faultReg_hq (by decide) (by decide) (by decide) not_faultReg_pair kept_self _ hf)

theorem latched_fits {i : Nat} (hi : i < 4) : (R.PWM_FAULT_STATUS_LATCHED.bit i).fits = true :=
  decide_eq_true (show 0 + i + 1 ≤ 32 by omega)
theorem active_fits {i : Nat} (hi : i < 4) : (R.PWM_FAULT_STATUS_ACTIVE.bit i).fits = true :=
  decide_eq_true (show 16 + i + 1 ≤ 32 by omega)
theorem apart_of_below {f g : Fld} (h : f.lo + f.width ≤ g.lo) : f.apart g = true ∧ g.apart f = true := by simp [Fld.apart, h]
/-- One bit of a mask. -/
theorem on_bit {i : Nat} (hi : i < f.width) : s.on (f.bit i) = bit (s.rd f) i := by
  have hbit (n j : Nat) : bit n j = n.testBit j := (Nat.testBit_eq_decide_div_mod_eq ..).symm
  have hon : s.on (f.bit i) = (s.word f.addr).getLsbD (f.lo + i) := by
    rw [← BitVec.testBit_toNat, Nat.testBit_eq_decide_div_mod_eq]
    rfl
  rw [hon, hbit, rd_testBit]
  simp [hi]

/-- The input shown active and latched. -/
def State.faultMarked (s : State) (i : Nat) : State :=
  (s.wrB (R.PWM_FAULT_STATUS_ACTIVE.bit i) true).wrB (R.PWM_FAULT_STATUS_LATCHED.bit i) true
theorem faultMarked_active {i : Nat} (hi : i < 4) : (s.faultMarked i).on (R.PWM_FAULT_STATUS_ACTIVE.bit i) = true :=
  (on_wrB_apart _ _ _ _ (latched_fits hi) (apart_of_below (show 0 + i + 1 ≤ 16 + i by omega)).1).trans
    (on_wrB _ _ _ (active_fits hi) rfl)
theorem faultMarked_latched {i : Nat} (hi : i < 4) : (s.faultMarked i).on (R.PWM_FAULT_STATUS_LATCHED.bit i) = true :=
  on_wrB _ _ _ (latched_fits hi) rfl
/-- The event and the judgement of the pairs leave the marks. -/
theorem rd_pwmFault {i : Nat} (hf : f.addr = R.PWM_FAULT_STATUS.addr) : (s.pwmFault i).rd f = (s.faultMarked i).rd f := by
  unfold State.pwmFault
  extract_lets before latched marked off told
  have htold : WordsKept (· = R.PWM_FAULT_STATUS.addr) marked told :=
    ite_ind (fun _ => kept_self) (fun _ => kept_flag (fun a ha h => not_faultReg_hq a ha (.inl h)) (by decide)
      (kept_raise (by decide) (fun a ha h => not_faultReg_hq a ha (.inl h)) (fun a ha h => not_faultReg_rec a ha (.inl h))
        (kept_inc (by decide) kept_self)))
  exact (rd_fault_showPwm (.inl hf)).trans (rd_congr (kept_acqHear htold _ hf))
/-- A fault is counted where its input was not latched yet. -/
theorem pwmFault_count {i : Nat} (hi : i < 4) : (s.pwmFault i).rd R.PWM_FAULT_COUNT =
    if s.on (R.PWM_FAULT_STATUS_LATCHED.bit i) = true then s.rd R.PWM_FAULT_COUNT else (s.rd R.PWM_FAULT_COUNT + 1) % 2 ^ 32 := by
  have hmarked : (s.faultMarked i).rd R.PWM_FAULT_COUNT = s.rd R.PWM_FAULT_COUNT :=
    (rd_wr_apart _ _ _ _ (latched_fits hi) rfl).trans (rd_wr_apart _ _ _ _ (active_fits hi) rfl)
  unfold State.pwmFault
  extract_lets before latched marked off told
  have htold : told.rd R.PWM_FAULT_COUNT =
      if latched = true then s.rd R.PWM_FAULT_COUNT else (s.rd R.PWM_FAULT_COUNT + 1) % 2 ^ 32 := by
    unfold told
    split
    · exact hmarked
    · have hcount : (marked.inc R.PWM_FAULT_COUNT).rd R.PWM_FAULT_COUNT = (s.rd R.PWM_FAULT_COUNT + 1) % 2 ^ 32 :=
        (rd_wr_self _ _ _ rfl).trans (congrArg (fun n => (n + 1) % 2 ^ 32) hmarked)
      have hhq : ¬hqReg R.PWM_FAULT_COUNT.addr := fun h => not_faultReg_hq _ h (.inr rfl)
      exact (rd_congr ((word_flag hhq (by decide)).trans
        (word_raise (by decide) hhq fun h => not_faultReg_rec _ h (.inr rfl)))).trans hcount
  exact (rd_fault_showPwm (.inr rfl)).trans ((rd_congr (kept_acqHear (A := fun _ => True) kept_self _ trivial)).trans htold)

/-- The latches of a list's inputs cleared where the write asks for it and the input is not active. -/
def State.latchesCleared (s : State) (v : Word) (active : Nat) (l : List Nat) : State :=
  l.foldl (fun s i => if bit v.toNat i && !bit active i then s.wrB (R.PWM_FAULT_STATUS_LATCHED.bit i) false else s) s
/-- One latch cleared or not, as another or the same one reads. -/
theorem on_latched_cleared {i j : Nat} (hj : j < 4) (clears : Bool) :
    (if clears then s.wrB (R.PWM_FAULT_STATUS_LATCHED.bit j) false else s).on (R.PWM_FAULT_STATUS_LATCHED.bit i) =
      (s.on (R.PWM_FAULT_STATUS_LATCHED.bit i) && !(i == j && clears)) := by
  cases clears with
  | false => simp
  | true =>
    rw [if_pos rfl]
    rcases Nat.lt_trichotomy i j with hlt | rfl | hgt
    · rw [on_wrB_apart _ _ _ _ (latched_fits hj) (apart_of_below (show 0 + i + 1 ≤ 0 + j by omega)).2]
      simp [Nat.ne_of_lt hlt]
    · rw [on_wrB _ _ _ (latched_fits hj) rfl]
      simp
    · rw [on_wrB_apart _ _ _ _ (latched_fits hj) (apart_of_below (show 0 + j + 1 ≤ 0 + i by omega)).1]
      simp [Nat.ne_of_gt hgt]
theorem latchesCleared_on (s : State) (i : Nat) (v : Word) (active : Nat) {l : List Nat} (hl : ∀ j ∈ l, j < 4) :
    (s.latchesCleared v active l).on (R.PWM_FAULT_STATUS_LATCHED.bit i) =
      (s.on (R.PWM_FAULT_STATUS_LATCHED.bit i) && !(l.contains i && (bit v.toNat i && !bit active i))) := by
  induction l generalizing s with
  | nil => simp [State.latchesCleared]
  | cons j l ih =>
    refine (ih _ fun k hk => hl k (List.mem_cons_of_mem _ hk)).trans ?_
    rw [on_latched_cleared (hl j List.mem_cons_self), List.contains_cons]
    by_cases hij : i = j
    · subst hij
      rw [beq_self_eq_true, Bool.true_and, Bool.true_or, Bool.true_and]
      cases bit v.toNat i && !bit active i <;> simp
    · rw [beq_false_of_ne hij, Bool.false_and, Bool.false_or, Bool.not_false, Bool.and_true]
theorem exec_pwmFaultInput {i : Nat} (hi : i < 4) (hon : s.powered = true) (active : Bool) : exec (.pwmFaultInput i active) s =
    .next (if active then s.pwmFault i else s.wrB (R.PWM_FAULT_STATUS_ACTIVE.bit i) false) := by
  show execPwmFaultInput i active s = _
  unfold execPwmFaultInput
  rw [if_neg (by simp [hon, hi])]
  exact (apply_ite Host.Outcome.next _ _ _).symm
theorem exec_pwmFaultLatchClear {sess : Nat} (hrole : s.holds sess 2 = true) (hon : s.powered = true) (v : Word) :
    exec (.pwmFaultLatchClear sess v) s =
      .next (s.latchesCleared v (s.rd R.PWM_FAULT_STATUS_ACTIVE) [0, 1, 2, 3]).showPwm := if_pos (by simp [hrole, hon])
end

/-! ## The statement -/

/-- Settles O31, row by row: from what a host write stages, from the fields that a change of the sync and its runs leave, and from
the fault inputs, which the judgement of the pairs leaves as they are. -/
theorem signalsSyncAndPwmFaults : Obligations.SignalsSyncAndPwmFaults := by
  unfold Obligations.SignalsSyncAndPwmFaults
  refine ⟨?accepted, ?refused, ?setSignals, ?restartSlot, ?arm, ?disarm, ?firstEdge, ?earlyEdge, ?edge, ?missedEdge, ?fault,
    ?faultEnd, ?latchClear⟩
  case accepted =>
    intro sess v s hrole hon hgood
    refine ⟨_, exec_loopSigWrite hrole hon v, ?_⟩
    rw [sigWrite_accepted rfl hgood]
    refine ⟨?_, (rd_wr_apart _ _ _ _ rfl rfl).trans (rd_wr _ _ _ rfl (by decide)), on_wrB _ _ _ rfl rfl⟩
    rw [wrB_loop, wr_loop, stageSig_loop]
    simp
  case refused =>
    intro sess v s hrole hon hbad
    refine ⟨_, exec_loopSigWrite hrole hon v, ?_⟩
    rw [sigWrite_refused rfl hbad]
    refine ⟨congrArg Loop.staged (hostRefused_loop _), ?_, ?_⟩
    · exact (hostRefused_result _).trans (rd_wr _ _ _ rfl (Nat.lt_trans (hostBad_lt ..) (by decide)))
    · rw [hostRefused_count, rd_wr_apart _ _ _ _ rfl rfl]
  case setSignals =>
    intro q n c s hserving hcount hn hall
    have hgood : ∀ e ∈ signalEntries c.args (n + 1), s.hostBad e.1 e.2 = 0 := by
      simpa [signalEntries] using hall
    refine ⟨_, exec_setSignals hserving, ?_⟩
    rw [setSignals_staged hcount (by omega) (by omega) hgood]
    refine ⟨congrArg (· ++ [q]) (stageAll_waits ..), ?_, stageAll_getLast ..⟩
    exact (congrArg (fun h : Hq => tget h.running q) (stageAll_hq ..)).trans (running_of_serving hserving)
  case restartSlot =>
    intro q c s hserving hrun hrec hparked
    refine ⟨_, exec_restartSlot hserving hrun hrec hparked, ?_, ?_⟩
    · rw [complete_loop]
      rfl
    · exact complete_completed (s := s.modLoop _) hserving
  case arm =>
    intro sess s hkey hst
    refine ⟨_, exec_syncArm hkey hst, syncTo_state _ (by decide), ?_, ?_, ?_⟩
    · exact (rd_syncTo rfl rfl).trans ((rd_wr_apart _ _ _ _ rfl rfl).trans (syncRuns_early ..))
    · exact (rd_syncTo rfl rfl).trans ((rd_wr_apart _ _ _ _ rfl rfl).trans (syncRuns_missed ..))
    · exact (rd_syncTo rfl rfl).trans (rd_wr_self _ _ _ rfl)
  case disarm =>
    intro sess s hkey
    refine ⟨_, exec_syncDisarm hkey, syncTo_state _ (by decide), ?_, ?_⟩
    · exact (rd_syncTo rfl rfl).trans (syncRuns_early ..)
    · exact (rd_syncTo rfl rfl).trans (syncRuns_missed ..)
  case firstEdge =>
    intro cycle s hopen hst hlo hhi
    refine ⟨_, exec_syncEdge_first hopen hst hlo hhi, syncTo_state _ (by decide), ?_, ?_⟩
    all_goals
      rw [syncTo_loop]
      rfl
  case earlyEdge =>
    intro cycle s hopen hst hend hearly
    refine ⟨_, (exec_syncEdge_tracking cycle hopen hst hend).trans (if_pos hearly), ?_, ?_, ?_, syncRuns_missed ..,
      syncRuns_early .., ?_⟩
    · exact (rd_syncRuns rfl rfl).trans (rd_wr_self _ _ _ rfl)
    · rw [syncRuns_loop]
      rfl
    · rw [syncRuns_loop]
      rfl
    · have hkept : (s.inc R.LOOP_SYNC_EARLY).rd R.LOOP_SYNC_STATUS_STATE = 2 := (rd_wr_apart _ _ _ _ rfl rfl).trans hst
      refine (syncRuns_state ..).trans (ite_congr ?_ (fun _ => rfl) (fun _ => hkept))
      simp
  case edge =>
    intro cycle s hopen hst hend hlo hhi
    refine ⟨_, (exec_syncEdge_tracking cycle hopen hst hend).trans ((if_neg (by omega)).trans (if_pos hhi)), ?_, ?_,
      (syncRuns_state ..).trans hst, syncRuns_early .., syncRuns_missed ..⟩
    all_goals
      rw [syncRuns_loop]
      rfl
  case missedEdge =>
    intro s hst hend hopen
    refine ⟨_, exec_syncLateLimit hst hend hopen, ?_, ?_, ?_, syncRuns_early .., syncRuns_missed .., ?_⟩
    · exact (rd_syncRuns rfl rfl).trans (rd_wr_self _ _ _ rfl)
    · rw [syncRuns_loop]
      rfl
    · rw [syncRuns_loop]
      rfl
    · have hkept : (s.inc R.LOOP_SYNC_MISSED).rd R.LOOP_SYNC_STATUS_STATE = 2 := (rd_wr_apart _ _ _ _ rfl rfl).trans hst
      refine (syncRuns_state ..).trans (ite_congr ?_ (fun _ => rfl) (fun _ => hkept))
      simp
  case fault =>
    intro i s hi hon
    refine ⟨_, exec_pwmFaultInput hi hon true, ?_, ?_, pwmFault_count hi⟩
    · exact (on_congr (f := R.PWM_FAULT_STATUS_ACTIVE.bit i) (rd_pwmFault rfl)).trans (faultMarked_active hi)
    · exact (on_congr (f := R.PWM_FAULT_STATUS_LATCHED.bit i) (rd_pwmFault rfl)).trans (faultMarked_latched hi)
  case faultEnd =>
    intro i s hi hon
    exact ⟨_, exec_pwmFaultInput hi hon false, on_wrB _ _ _ (active_fits hi) rfl,
      rd_wr_apart _ _ _ _ (active_fits hi) (apart_of_below (show 0 + 4 ≤ 16 + i by omega)).2⟩
  case latchClear =>
    intro sess i v s hrole hon hi
    have hin : [0, 1, 2, 3].contains i = true := by
      simp
      omega
    refine ⟨_, exec_pwmFaultLatchClear hrole hon v, ?_⟩
    dsimp only
    rw [on_congr (f := R.PWM_FAULT_STATUS_LATCHED.bit i) (rd_fault_showPwm (.inl rfl)), latchesCleared_on s i v _ (by simp),
      hin, Bool.true_and, on_bit (f := R.PWM_FAULT_STATUS_ACTIVE) hi]

end Sys2Proof.Machine
end

section
/-!
PROOFS. A SET_SIGNALS that is refused (R378, R403).
-/
namespace Sys2Proof.Machine
open Sys2Proof

/-- A SET_SIGNALS with one entry, for signal 0, from session 0. -/
def setSignal0 : Cmd := ⟨0, 0, 1, 5, 0x0801, 0, [1#8]⟩
/-- Queue 1 runs it, and no manifest defines a signal. -/
def signalUndefined : State :=
  { State.reset with
    hq := { State.reset.hq with
      sessions := [(0, ⟨1, false, 31, 31, 0, [], [], [], [], [], none, none, [], [], 0, 0⟩)]
      running := [(1, setSignal0)] } }

theorem exec_setSignals_undefined : exec (.setSignals 1) signalUndefined =
    .next (signalUndefined.hostRefused.complete 1 (hostStatus 6) 0) := by
  rw [exec_setSignals (c := setSignal0) (by decide +kernel)]
  exact congrArg _ (setSignals_refused (n := 1) (by decide) (by decide) (by decide) (by decide +kernel))

/-- Refutes O52: its clause on SET_SIGNALS keeps every register of the loop engine but `LOOP_STAGED_OVERWRITTEN`, but a refused one
is counted in `LOOP_HOST_REFUSED` (R378, R405). -/
theorem not_loopAndPwmFrames : ¬ Obligations.LoopAndPwmFrames := by
  unfold Obligations.LoopAndPwmFrames
  rintro ⟨-, hset, -⟩
  obtain ⟨t, ht, -, hwords, -⟩ := hset 1 signalUndefined
  obtain rfl := Host.Outcome.next.inj (exec_setSignals_undefined.symm.trans ht)
  have hkept : signalUndefined.hostRefused.rd R.LOOP_HOST_REFUSED = signalUndefined.rd R.LOOP_HOST_REFUSED :=
    rd_congr ((word_complete _).symm.trans (hwords R.LOOP_HOST_REFUSED.addr (by decide) (by decide)))
  rw [hostRefused_count] at hkept
  revert hkept
  decide +kernel

end Sys2Proof.Machine
end
